-- ==== Sys2Proof/Word.lean ====
section
/-!
DEFINITION. Word.lean: the widths the manual gives its values, the sparse tables the state is made of, and the plainest
arithmetic on them (R6 to R11: 64-byte lines, 4 KiB pages, 2 MiB granules, little-endian values).
-/

namespace Sys2Proof

/-- One byte. -/
abbrev Byte := BitVec 8

/-- The data of one 64-byte line (R11), byte 0 in bits 7..0 (R8). -/
abbrev LineData := BitVec 512

/-- A whole 80-byte fabric unit as it crosses a clock-island crossing (R29). -/
abbrev UnitBits := BitVec 640

/-- A counter: 48 bits that wrap (R471). -/
abbrev Counter := BitVec 48

/-- A sparse table by number: pairs in rising order of the number, none holding the value that an unlisted number reads
as, so that equal tables are equal data. -/
abbrev Tab (α : Type) := List (Nat × α)

/-- R404: the modes of a session. -/
inductive Mode where
  | plain | authenticated | encrypted
  deriving DecidableEq, Repr

/-- R409: where a Sprineno message comes from: a management Ethernet port with the sender's address, USB, MCTP with the
sender's endpoint, or the mailbox of a VCS's pool endpoint. -/
inductive Transport where
  | udp4 (eth addr port : Nat)
  | udp6 (eth addr port : Nat)
  | usb
  | mctp (eid : Nat)
  | mailbox (vcs : Nat)
  deriving DecidableEq, Repr

/-- R397: the header fields of a request that the engine uses, with the transport it came over and whether its tag was
found good (R404; a PLAIN session carries no tag). -/
structure Req where
  session : Nat
  seq : Nat
  reqId : Nat
  via : Transport
  tagOk : Bool
  deriving DecidableEq, Repr

/-- R399: one write item. -/
structure WriteItem where
  index : Nat
  sub : Nat
  type : Nat
  value : List Byte
  deriving DecidableEq, Repr

/-- R347: what a slot controller samples in one tick: input, output and gate in mV, rail and 3.3 V switch current in mA,
presence, and the thermistor in °C. -/
structure SlotSample where
  vin : Nat
  vout : Nat
  gate : Nat
  cur : Nat
  auxCur : Nat
  present : Bool
  ntc : Int
  deriving DecidableEq, Repr

/-- R369, R382: the kinds of access that a master issues. -/
inductive BusKind where
  | read (len : Nat)
  | fetch (len : Nat)
  | write (data : List Byte)
  | swap (data : List Byte)
  | cas (cmp data : List Byte)
  deriving DecidableEq, Repr

/-- R364, R371: one access presented by a master: cores 0..3, debug port 4, security core DMA 5. `stalls`: the target sends
no response before the bus timeout (R375). -/
structure BusReq where
  master : Fin 6
  id : Fin 16
  addr : BitVec 32
  kind : BusKind
  stalls : Bool
  deriving DecidableEq, Repr

/-- R445: what the header of a firmware image says, and what its checks gave: the SHA-256 of the public key that follows it,
whether magic, version and kind match, whether the payload hash matches and whether the signature verifies. -/
structure FwImage where
  kind : Nat
  counter : Nat
  svn : Nat
  keySlot : Nat
  keyHash : BitVec 256
  headerOk : Bool
  hashOk : Bool
  signatureOk : Bool
  measurement : BitVec 256
  size : Nat
  deriving DecidableEq, Repr

/-- R457: a certified-configuration package, with what its signature and device checks gave and the hash of the key it
verified under. Records are entries B010.`sub` with the integer of their value. -/
structure CertPackage where
  magicOk : Bool
  generation : BitVec 64
  deviceOk : Bool
  records : List (Nat × Nat)
  signatureOk : Bool
  signerHash : BitVec 256
  size : Nat
  deriving DecidableEq, Repr

/-- R466: a debug token, with what its signature and device checks gave. `owner`: its authority. -/
structure DebugToken where
  formOk : Bool
  owner : Bool
  permissions : BitVec 64
  lifetime : Nat
  nonce : BitVec 64
  deviceOk : Bool
  keyHash : BitVec 256
  signatureOk : Bool
  deriving DecidableEq, Repr

/-- R458: what a key-management message of CXL_IDE_KM or IDE_KM does: program a stream's key set, or switch to it. At a POOL port
the device asks: there the certificate chain of the expander comes first, by the SHA-256 of its root. -/
inductive IdeOp where
  | chain (root : BitVec 256)
  | program (stream : Nat) (set : Bool)
  | go (set : Bool)
  | stop
  deriving DecidableEq, Repr

/-- R452 to R454: what the SPDM responder answers, in the terms of the rules. -/
inductive SpdmReply where
  | version | capabilities | algorithms (slot : Nat) | digests | certificate (slot offset length : Nat)
  | challengeAuth (slot : Nat) | measurements (blocks : List (Nat × Nat)) (signed : Bool)
  | keyExchange (session : Nat) | finish | heartbeat | keyUpdate | endSession | chunkAck | chunk (seq length : Nat) | vendor
  | unsupportedRequest | unexpectedRequest | invalidRequest | responseNotReady | busyError
  deriving DecidableEq, Repr

/-! ### Units and messages (R42, R50, R90, R149, R150) -/

/-- R50: the virtual networks. -/
inductive Vn where
  | req | wb | snp | rsp | dat | iop | ion | ioc
  deriving DecidableEq, Repr

/-- R90: the types of CXL.io packets; `unsupported` is a request in I/O space or a locked one (R75). -/
inductive TlpKind where
  | memWrite | message | messageData | memRead | cfgRead | cfgWrite | fetchAdd | swap | cas | deferrableWrite
  | completion | completionData | unsupported
  deriving DecidableEq, Repr

/-- R87, R90, R91: what a CXL.io packet says. `addr`: its address, or the register of a configuration request; `id`: the
target of an ID-routed packet, the requester of a completion; `len`: bytes read, written or returned; `hdr`: bytes of header
and prefixes; `status`: of a completion, 0 success, 1 Unsupported Request, 4 Completer Abort; `ld`: the logical device that a
packet of a multi-logical device is from or for (R88). -/
structure Tlp where
  kind : TlpKind
  ld : Nat
  /-- The LD of the port that it came from, once it is on its way to another. -/
  origin : Nat := 0
  requester : BitVec 16
  tag : BitVec 14
  addr : BitVec 64
  id : BitVec 16
  byId : Bool
  len : Nat
  hdr : Nat
  status : Nat
  poison : Bool
  data : List Byte
  deriving DecidableEq, Repr

/-- R42, R46: a unit without its CRC, which is computed from the rest (R43). -/
structure FUnit where
  vn : Vn
  type : BitVec 6
  dst : BitVec 12
  src : BitVec 12
  tag : BitVec 16
  epoch : Bool
  age : BitVec 12
  mc : Bool
  line : BitVec 42
  poison : Bool
  follow : BitVec 4
  synth : Bool
  yx : Bool
  payload : BitVec 512
  deriving DecidableEq, Repr

/-- R150: the Meta0-State value of a CXL.mem message; `none` also stands for a message without a meta request. -/
inductive Meta where
  | i | s | a | none
  deriving DecidableEq, Repr

/-- R150: the requests of an M2S Req. -/
inductive HostReqKind where
  | memRd | memRdData | memInv | memClnEvct | memSpecRd
  deriving DecidableEq, Repr

/-- R164: the answer of a BIRsp. -/
inductive BiRspKind where
  | i | s | e
  deriving DecidableEq, Repr

/-- R164: a back-invalidation snoop's kind. -/
inductive BiKind where
  | data | inv
  deriving DecidableEq, Repr

/-- R149: a message that a CXL port receives. `tag`: the CXL tag; `hpa`: the host physical line address `HPA[51..6]`; `ld`:
the logical device of an expander's message. -/
inductive PortMsg where
  | req (kind : HostReqKind) (mv : Meta) (hpa : BitVec 46) (tag : BitVec 16)
  | rwd (partialWr : Bool) (mv : Meta) (hpa : BitVec 46) (tag : BitVec 16) (mask : BitVec 64) (poison : Bool) (data : LineData)
  | biRsp (kind : BiRspKind) (biTag : BitVec 16)
  | biConflict (hpa : BitVec 46) (tag : BitVec 16)
  | ndr (tag : BitVec 16)
  | drs (tag : BitVec 16) (poison : Bool) (data : LineData)
  | tlp (t : Tlp)
  deriving DecidableEq, Repr

/-- R142, R150: a message that a port sends on its link. -/
inductive LinkMsg where
  | cmp (tag : BitVec 16) (poison : Bool)
  | cmpE (tag : BitVec 16)
  | conflictAck (tag : BitVec 16)
  | memData (tag : BitVec 16) (mv : Meta) (poison : Bool) (data : LineData)
  | biSnp (kind : BiKind) (hpa : BitVec 46) (biTag : BitVec 16)
  | memRd (ld : Nat) (addr : Nat) (tag : BitVec 16)
  | memWr (ld : Nat) (addr : Nat) (tag : BitVec 16) (poison : Bool) (data : LineData)
  | tlp (t : Tlp)
  deriving DecidableEq, Repr

/-! ### Operands of ports and binding -/

/-- R101: who gives a binding command: the FM-API, or a session through OD 2010. -/
inductive FmSource where
  | fmapi
  | session (id : BitVec 32)
  deriving DecidableEq, Repr

/-- R79, R83: what training finds at a port: the partner's kind (R83), its widest width and highest speed code, the lanes that
pass in the order in which the link numbers them, its flit mode, its count of LDs, those that enumeration has found, whether
lanes are reversed, and whether it supports L0p. -/
structure LinkPartner where
  kind : Fin 7
  width : Nat
  speed : Nat
  lanes : BitVec 16
  flit : Fin 3
  ldCount : Nat
  found : BitVec 16
  reversed : Bool
  l0p : Bool
  deriving DecidableEq, Repr

/-- R97, R98: part of a dynamic-capacity region, by offset and length in blocks of 2 MiB. -/
structure DcPart where
  region : Fin 8
  off : Nat
  len : Nat
  deriving DecidableEq, Repr

/-- R100: what a configuration or memory request of the FM-API asks for. -/
inductive FmAccess where
  | read (reg : BitVec 64) (len : Nat)
  | write (reg : BitVec 64) (data : List Byte)
  deriving DecidableEq, Repr

/-- R78: a write of a setting that a port takes only while it is DISABLED. -/
inductive PortSetting where
  | speed (v : Byte)
  | vcs (v : Byte)
  | slot (v : Byte)
  | poolMask (v : BitVec 16)
  | perstDelay (v : BitVec 16)
  deriving DecidableEq, Repr

/-! ### Start-up operands -/

/-- R439: a defect that the fabric self-test finds: in a ring stop, a physical home slice, a row of an SRAM array (and whether
the array has a spare row left), or confined to a port island. -/
inductive SelfTestDefect where
  | stop (n : Fin 144)
  | slice (h : Fin 34)
  | row (array row : BitVec 16) (spare : Bool)
  | island (k : Fin 16)
  deriving DecidableEq, Repr

/-- R340 to R342, R439, R444: what a step of start-up finds outside the state: whether the self-tests of the security core pass, the
measured capacitance in µF, the defects, and a channel of LPDDR6 that fails its training. -/
structure StartupFind where
  selfTestsPass : Bool
  capUf : Nat
  defects : List SelfTestDefect
  channel : Option (Fin 16)
  deriving DecidableEq, Repr

/-! ### Directory operands -/

/-- R204: a store of the directory with an uncorrectable error: a cache entry, or a payload or header block of the snoop
filter. -/
inductive DirError where
  | cache (slice : Fin 32) (way : Fin 16) (set : Fin 8192)
  | payload (slice : Fin 32) (set : Fin 4194304) (block : Fin 4)
  | header (slice : Fin 32) (set : Fin 4194304)
  deriving DecidableEq, Repr

/-! ### Fabric operands -/

/-- R268: the contents of a route bank's table, as one write gives it. -/
inductive RouteTable where
  | links (masks : Vector (BitVec 16) 15)
  | sources (entries : Vector (BitVec 64) 32)
  deriving DecidableEq, Repr

/-- R52, R54: a queue from which units enter a ring: the turn queue of a stop for a direction, or the injection queue of an
agent's network interface. -/
inductive RingEntry where
  | turn (stop : Fin 144) (dir : Fin 4) (vn : Vn)
  | inject (stop : Fin 144) (agent : Fin 16) (vn : Vn)
  deriving DecidableEq, Repr

/-- R52, R54: one cycle of a ring: a segment carries a unit in transit, or a turned unit enters. -/
inductive RingMove where
  | hop (stop : Fin 144) (dir : Fin 4)
  | enter (stop : Fin 144) (dir : Fin 4) (vn : Vn)
  deriving DecidableEq, Repr

/-- R263: an entry that the restart rules have answered: of a proxy, of a slice's trackers, or of the mover. -/
inductive QuarEntry where
  | proxyEntry (v : Fin 64) (t : Fin 512)
  | trackerEntry (l : Fin 32) (t : Fin 2048)
  | moverEntry (t : Fin 65536)
  deriving DecidableEq, Repr

/-- R242, R256: the four lane blocks that carry one FEC block: at ×4 those of lanes 0 to 3 in one flit time, at ×2 those of two
lanes in two flit times, at ×1 those of one lane in four. -/
abbrev LaneBlocks := Vector (BitVec 544) 4

/-- R120: a holding point: an ingress or egress pair of a port, the injection queue of an agent's network interface, or
the input queue of an agent. -/
inductive HoldPoint where
  | ingress (port : Fin 112) (vn : Vn)
  | egress (port : Fin 112) (vn : Vn)
  | injection (stop : Fin 144) (agent : Fin 16) (vn : Vn)
  | input (stop : Fin 144) (agent : Fin 16) (vn : Vn)
  deriving DecidableEq, Repr

end Sys2Proof
end

