-- ==== Sys2Proof/Syntax.lean ====
section
/-!
DEFINITION. Syntax.lean: the commands of the FJQ-9640, one constructor for each row of spec/opcode_table.json, in the table's order,
with the row's operands.  What an operand is stands at the command's meaning.
-/

namespace Sys2Proof

/-- The commands. -/
inductive Instr where
  /-- `CROSSING_UNIT_RECEIVE` (R29). -/
  | crossingUnitReceive (c : Fin 686) (w : UnitBits)
  /-- `CROSSING_RESEND` (R29). -/
  | crossingResend (c : Fin 686)
  /-- `UNIT_INJECTION` (R52). -/
  | unitInjection (n : Fin 144) (a : Fin 16) (v : Vn)
  /-- `RING_HOP` (R52). -/
  | ringHop (m : RingMove)
  /-- `STARVATION_GUARD` (R54). -/
  | starvationGuard (q : RingEntry)
  /-- `ROUTE_TABLE_WRITE` (R59). -/
  | routeTableWrite (t : RouteTable)
  /-- `ROUTE_COMMIT` (R61). -/
  | routeCommit
  /-- `ROUTE_DRAIN_COMPLETE` (R61). -/
  | routeDrainComplete
  /-- `ISLAND_REQUEST_CLOSED` (R66). -/
  | islandRequestClosed (k : Fin 16)
  /-- `ISLAND_REQUEST_OPEN` (R66). -/
  | islandRequestOpen (k : Fin 16)
  /-- `ISLAND_DRAIN_COMPLETE` (R66). -/
  | islandDrainComplete (k : Fin 16)
  /-- `CLOSING_DRAIN_TIMEOUT` (R66). -/
  | closingDrainTimeout (k : Fin 16)
  /-- `BRIDGE_READY` (R66). -/
  | bridgeReady (k : Fin 16)
  /-- `BRIDGE_SELF_CHECK_FAIL` (R66). -/
  | bridgeSelfCheckFail (k : Fin 16)
  /-- `OPENING_TIMEOUT` (R66). -/
  | openingTimeout (k : Fin 16)
  /-- `PORT_ROLE_WRITE` (R82). -/
  | portRoleWrite (p : Fin 96) (r : Byte)
  /-- `PORT_WIDTH_WRITE` (R77). -/
  | portWidthWrite (p : Fin 96) (w : Byte)
  /-- `PORT_CONFIG_WRITE` (R78). -/
  | portConfigWrite (p : Fin 96) (x : PortSetting)
  /-- `PORT_TRAINED` (R79). -/
  | portTrained (p : Fin 96) (x : LinkPartner)
  /-- `UPSTREAM_TRAINING_RETRY` (R79). -/
  | upstreamTrainingRetry (p : Fin 96)
  /-- `L0P_WIDTH_REQUEST` (R80). -/
  | l0pWidthRequest (p : Fin 96) (w : Fin 17)
  /-- `LANE_MARGINING` (R81). -/
  | laneMargining (p : Fin 96) (lane : Fin 16) (timing : Bool) (steps : Int)
  /-- `BIND_VPPB` (R88). -/
  | bindVppb (src : FmSource) (v : Fin 64) (d : Fin 32) (p : Fin 96) (l : Fin 16)
  /-- `UNBIND_VPPB` (R88). -/
  | unbindVppb (src : FmSource) (v : Fin 64) (d : Fin 32) (opt : Fin 3)
  /-- `VPPB_PARTNER_L0` (R88). -/
  | vppbPartnerL0 (v : Fin 64) (d : Fin 32)
  /-- `MANAGED_REMOVE_TIMEOUT` (R88). -/
  | managedRemoveTimeout (v : Fin 64) (d : Fin 32)
  /-- `PARSE_INGRESS` (R18). -/
  | parseIngress (p : Fin 96) (ms : List PortMsg)
  /-- `CXLIO_ROUTE` (R87). -/
  | cxlioRoute (p : Fin 96) (vn : Vn)
  /-- `HDM_DECODER_COMMIT` (R93). -/
  | hdmDecoderCommit (v : Fin 64) (i : Fin 32) (base size : BitVec 24) (ways : Fin 5) (gran : Fin 7) (commit : Bool)
  /-- `DECODER_POOL_WINDOW_WRITE` (R93). -/
  | decoderPoolWindowWrite (v : Fin 64) (i : Fin 32) (len : Bool) (x : BitVec 64)
  /-- `INITIATE_DYNAMIC_CAPACITY_ADD` (R98). -/
  | initiateDynamicCapacityAdd (v : Fin 64) (xs : List DcPart)
  /-- `ADD_DC_RESPONSE` (R98). -/
  | addDcResponse (v : Fin 64) (bases : List (BitVec 64))
  /-- `RELEASE_DYNAMIC_CAPACITY` (R99). -/
  | releaseDynamicCapacity (v : Fin 64) (bases : List (BitVec 64))
  /-- `INITIATE_DYNAMIC_CAPACITY_RELEASE` (R99). -/
  | initiateDynamicCapacityRelease (v : Fin 64) (bases : List (BitVec 64)) (forced : Bool)
  /-- `EXTENT_REMOVED` (R99). -/
  | extentRemoved (v : Fin 64) (base : BitVec 64)
  /-- `IDENTIFY` (R100). -/
  | identify
  /-- `BACKGROUND_OPERATION_STATUS` (R100). -/
  | backgroundOperationStatus
  /-- `GET_RESPONSE_MESSAGE_LIMIT` (R100). -/
  | getResponseMessageLimit
  /-- `SET_RESPONSE_MESSAGE_LIMIT` (R100). -/
  | setResponseMessageLimit (n : Byte)
  /-- `IDENTIFY_SWITCH_DEVICE` (R100). -/
  | identifySwitchDevice
  /-- `GET_PHYSICAL_PORT_STATE` (R100). -/
  | getPhysicalPortState (ps : List (Fin 96))
  /-- `PHYSICAL_PORT_CONTROL` (R100). -/
  | physicalPortControl (p : Fin 96) (op : Fin 3)
  /-- `SEND_PPB_CXLIO_CONFIG_REQUEST` (R100). -/
  | sendPpbCxlioConfigRequest (p : Fin 96) (reg : Fin 1024) (w : Option (BitVec 32))
  /-- `GET_VIRTUAL_CXL_SWITCH_INFO` (R100). -/
  | getVirtualCxlSwitchInfo (v : Fin 64)
  /-- `GENERATE_AER_EVENT` (R100). -/
  | generateAerEvent (v : Fin 64) (d : Fin 32) (err : BitVec 32)
  /-- `TUNNEL_MANAGEMENT_COMMAND` (R100). -/
  | tunnelManagementCommand (p : Fin 96) (bytes : List Byte)
  /-- `SEND_LD_CXLIO_CONFIG_REQUEST` (R100). -/
  | sendLdCxlioConfigRequest (p : Fin 96) (ld : Fin 16) (a : FmAccess)
  /-- `SEND_LD_CXLIO_MEMORY_REQUEST` (R100). -/
  | sendLdCxlioMemoryRequest (p : Fin 96) (ld : Fin 16) (a : FmAccess)
  /-- `GET_DCD_INFO` (R100). -/
  | getDcdInfo
  /-- `GET_HOST_DC_REGION_CONFIGURATION` (R100). -/
  | getHostDcRegionConfiguration (v : Fin 64)
  /-- `SET_DC_REGION_CONFIGURATION` (R100). -/
  | setDcRegionConfiguration (v : Fin 64) (r : Fin 8) (base len : BitVec 64)
  /-- `GET_DC_REGION_EXTENT_LISTS` (R100). -/
  | getDcRegionExtentLists (v : Fin 64) (from_ n : BitVec 16)
  /-- `FMAPI_UNSUPPORTED` (R100). -/
  | fmapiUnsupported (opcode : BitVec 16)
  /-- `POOL_LD_LOST` (R502). -/
  | poolLdLost (p : Fin 96) (mask : BitVec 16)
  /-- `POISON_SWEEP_STEP` (R103). -/
  | poisonSweepStep
  /-- `VCS_ENABLE_WRITE` (R105). -/
  | vcsEnableWrite (v : Fin 64) (on : Bool)
  /-- `PERST_ASSERT` (R105). -/
  | perstAssert (p : Fin 96) (hot : Bool)
  /-- `VCS_RESET_RELEASE` (R105). -/
  | vcsResetRelease (p : Fin 96)
  /-- `SECONDARY_BUS_RESET` (R106). -/
  | secondaryBusReset (v : Fin 64) (d : Fin 32)
  /-- `PORT_HOT_RESET` (R106). -/
  | portHotReset (p : Fin 96)
  /-- `PORT_FUNDAMENTAL_RESET` (R106). -/
  | portFundamentalReset (p : Fin 96)
  /-- `PORT_RETRAIN` (R106). -/
  | portRetrain (p : Fin 96)
  /-- `PORT_CXL_RESET` (R106). -/
  | portCxlReset (p : Fin 96)
  /-- `PERST_RELEASE` (R107). -/
  | perstRelease (p : Fin 96)
  /-- `BUFFER_LIMIT_COMMIT` (R113). -/
  | bufferLimitCommit
  /-- `RAISED_LIMITS_ACTIVE` (R114). -/
  | raisedLimitsActive (d : Fin 4)
  /-- `CUT_THROUGH_UNIT_ARRIVE` (R118). -/
  | cutThroughUnitArrive (port : Fin 112) (v : Vn)
  /-- `EGRESS_FLIT_SENT` (R503). -/
  | egressFlitSent (port : Fin 96) (vn : Vn)
  /-- `AGEING_EXAMINATION` (R121). -/
  | ageingExamination (hp : HoldPoint)
  /-- `PORT_DOWN` (R125). -/
  | portDown (p : Fin 96)
  /-- `TRACE_RING_READ` (R136). -/
  | traceRingRead (n : Fin 65537)
  /-- `TRACE_READ_INDEX_WRITE` (R136). -/
  | traceReadIndexWrite (i : BitVec 64)
  /-- `HOME_INTAKE_CYCLE` (R152). -/
  | homeIntakeCycle (l : Fin 32)
  /-- `SENIOR_HOLD_EXPIRE` (R169). -/
  | seniorHoldExpire (l : Fin 32) (line : BitVec 42)
  /-- `SENIOR_ENTRY_TIMEOUT` (R169). -/
  | seniorEntryTimeout (l : Fin 32) (i : Fin 8)
  /-- `REMAP_CACHE_FILL` (R213). -/
  | remapCacheFill (l : Fin 32) (g : Fin 8388608) (bad : Bool)
  /-- `POOL_PORT_MEMRD` (R149). -/
  | poolPortMemrd (p : Fin 96)
  /-- `POOL_PORT_MEMWR` (R154). -/
  | poolPortMemwr (p : Fin 96)
  /-- `WRPULL` (R154). -/
  | wrpull (p : Fin 96)
  /-- `POOL_PORT_MEMDATA` (R154). -/
  | poolPortMemdata (p : Fin 96)
  /-- `POOL_PORT_EXPANDER_RESPONSE` (R154). -/
  | poolPortExpanderResponse (p : Fin 96) (dat : Bool)
  /-- `PROXY_HOST_REQUEST` (R162). -/
  | proxyHostRequest (v : Fin 64)
  /-- `PROXY_HOST_WRITE` (R162). -/
  | proxyHostWrite (v : Fin 64)
  /-- `PROXY_RESPONSE` (R162). -/
  | proxyResponse (v : Fin 64) (dat : Bool)
  /-- `PROXY_BACKOFF_END` (R168). -/
  | proxyBackoffEnd (ag : Fin 65) (t : Fin 4096)
  /-- `PROXY_SNOOP` (R164). -/
  | proxySnoop (v : Fin 64)
  /-- `PROXY_BIRSP` (R164). -/
  | proxyBirsp (v : Fin 64)
  /-- `BICONFLICT` (R165). -/
  | biconflict (v : Fin 64)
  /-- `REMOTE_AGENT_RECEIVE` (R142). -/
  | remoteAgentReceive (a : Fin 16) (v : Vn)
  /-- `COMBINED_REPLY` (R158). -/
  | combinedReply (a : Fin 16)
  /-- `MOVER_CACHE_SNOOP` (R171). -/
  | moverCacheSnoop
  /-- `SNOOP_FILTER_FILL` (R186). -/
  | snoopFilterFill (l : Fin 32) (t : Fin 2048)
  /-- `SNOOP_FILTER_INSERTION` (R190). -/
  | snoopFilterInsertion (l : Fin 32)
  /-- `DECLARE_PEER_LOST` (R198). -/
  | declarePeerLost (w : Fin 1024)
  /-- `REMOVAL_PASS_STEP` (R196). -/
  | removalPassStep
  /-- `REMOVAL_PASS_COMPLETE` (R198). -/
  | removalPassComplete
  /-- `FLUSH_RANGE_EXECUTE` (R199). -/
  | flushRangeExecute (base limit : BitVec 64)
  /-- `RANGE_WALK_STEP` (R199). -/
  | rangeWalkStep (i : Fin 65536)
  /-- `RANGE_WALK_COMPLETE` (R199). -/
  | rangeWalkComplete (i : Fin 65536)
  /-- `RECOVERY_FLUSH_COMPLETE` (R201). -/
  | recoveryFlushComplete (v : Fin 64)
  /-- `GPF_COMPLETION` (R201). -/
  | gpfCompletion (v : Fin 64)
  /-- `RECOVERYDONE` (R201). -/
  | recoverydone (w : Fin 1024)
  /-- `ABANDON_VCS` (R201). -/
  | abandonVcs (i : Fin 64) (v : Fin 64)
  /-- `ABANDON_SWITCH` (R201). -/
  | abandonSwitch (i : Fin 64) (w : Fin 1024)
  /-- `RECOVERY_TIMEOUT` (R201). -/
  | recoveryTimeout (i : Fin 64)
  /-- `RECOVERY_REQUEST_RECEIVE` (R203). -/
  | recoveryRequestReceive (w : Fin 1024)
  /-- `DIRECTORY_UNCORRECTABLE` (R204). -/
  | directoryUncorrectable (e : DirError)
  /-- `MARVER_PASS_STEP` (R205). -/
  | marverPassStep (blocks : Fin 129) (way : Option (Fin 32 × Fin 16))
  /-- `PARTITION_COMMIT` (R206). -/
  | partitionCommit
  /-- `PARTITION_CLEAR_DONE` (R206). -/
  | partitionClearDone
  /-- `REMAP_ENTRY_WRITE` (R217). -/
  | remapEntryWrite (g : Fin 8388608) (v : BitVec 64)
  /-- `REMAP_WRITE_COMPLETE` (R217). -/
  | remapWriteComplete
  /-- `OPEN_REMAP_GATE` (R218). -/
  | openRemapGate
  /-- `REMAP_BULK_LOAD` (R219). -/
  | remapBulkLoad (records : List (BitVec 128))
  /-- `MOVE_EXECUTE` (R221). -/
  | moveExecute (sess : BitVec 32) (g : Fin 8388608) (dest : BitVec 64) (restore : Bool)
  /-- `MOVE_PAGE_START` (R223). -/
  | movePageStart (m : Fin 1024)
  /-- `MOVE_PAGE_CLEAR` (R223). -/
  | movePageClear (m : Fin 1024)
  /-- `MOVE_PAGE_COMPLETE` (R223). -/
  | movePageComplete (m : Fin 1024)
  /-- `MOVE_PAGE_ABANDON` (R224). -/
  | movePageAbandon (m : Fin 1024)
  /-- `MOVE_GRANULE_CLEAR` (R224). -/
  | moveGranuleClear (m : Fin 1024)
  /-- `MOVE_CANCEL` (R225). -/
  | moveCancel (m : Fin 1024)
  /-- `SALVAGE_PAGE` (R226). -/
  | salvagePage (m : Fin 1024)
  /-- `RESTORE_FILL_COMPLETE` (R227). -/
  | restoreFillComplete (m : Fin 1024)
  /-- `GUARD_COMMIT` (R236). -/
  | guardCommit
  /-- `GUARD_STAGE_SWAP` (R236). -/
  | guardStageSwap (g : Fin 17)
  /-- `COPY_ACTIVE_SET_TO_SHADOW` (R237). -/
  | copyActiveSetToShadow
  /-- `AULUM_FLIT_RECEIVE` (R249). -/
  | aulumFlitReceive (a : Fin 16) (blocks : LaneBlocks)
  /-- `AULUM_FLIT_TRANSMIT` (R246). -/
  | aulumFlitTransmit (a : Fin 16)
  /-- `ACK_TIMER_EXPIRE` (R250). -/
  | ackTimerExpire (a : Fin 16)
  /-- `NAK_RECEIVED` (R251). -/
  | nakReceived (a : Fin 16)
  /-- `REPLAY_TIMER_EXPIRE` (R252). -/
  | replayTimerExpire (a : Fin 16)
  /-- `SPARE_REQ` (R254). -/
  | spareReq (a : Fin 16) (blocks : LaneBlocks)
  /-- `SPARE_ACK` (R254). -/
  | spareAck (a : Fin 16) (blocks : LaneBlocks)
  /-- `SPARE_REFUSE` (R255). -/
  | spareRefuse (a : Fin 16) (blocks : LaneBlocks)
  /-- `RESUME` (R254). -/
  | resume (a : Fin 16) (blocks : LaneBlocks)
  /-- `PAUSE_TIMEOUT` (R257). -/
  | pauseTimeout (a : Fin 16)
  /-- `TS` (R260). -/
  | ts (a : Fin 16) (work : BitVec 4) (spares : BitVec 2) (blocks : LaneBlocks)
  /-- `TRAINING_TIMEOUT` (R257). -/
  | trainingTimeout (a : Fin 16)
  /-- `RETRAIN_INTERVAL` (R257). -/
  | retrainInterval (a : Fin 16)
  /-- `SYNC_LOSS` (R257). -/
  | syncLoss (a : Fin 16)
  /-- `AULUM_PORT_ENABLE` (R257). -/
  | aulumPortEnable (a : Fin 16)
  /-- `AULUM_PORT_DISABLE` (R257). -/
  | aulumPortDisable (a : Fin 16)
  /-- `RESTART_GRACE_EXPIRE` (R261). -/
  | restartGraceExpire
  /-- `RESTART_NOTICE` (R262). -/
  | restartNotice (w : Fin 1024) (epoch : BitVec 32)
  /-- `RESTART_NOTICE_REPEAT` (R262). -/
  | restartNoticeRepeat (w : Fin 1024)
  /-- `RESTART_NOTICE_ACK` (R262). -/
  | restartNoticeAck (w : Fin 1024)
  /-- `QUARANTINE_EXPIRE` (R263). -/
  | quarantineExpire (q : QuarEntry)
  /-- `SYSTEM_NUMBERING_WRITE` (R267). -/
  | systemNumberingWrite (i : Fin 4) (v : BitVec 16)
  /-- `QUEUE_ENABLE` (R280). -/
  | queueEnable (fn : Fin 1088) (isCq : Bool) (loc : Fin 4096) (addr : BitVec 64)
  /-- `QCB_ENABLE_READ_DONE` (R280). -/
  | qcbEnableReadDone (isCq : Bool) (q : Fin 4096)
  /-- `QUEUE_DISABLE` (R283). -/
  | queueDisable (fn : Fin 1088) (isCq : Bool) (loc : Fin 4096)
  /-- `SQ_STOP_COMPLETE` (R283). -/
  | sqStopComplete (q : Fin 4096)
  /-- `SQ_DOORBELL` (R285). -/
  | sqDoorbell (fn : Fin 1088) (loc : Fin 4096)
  /-- `CQ_DOORBELL` (R286). -/
  | cqDoorbell (fn : Fin 1088) (loc : Fin 4096)
  /-- `SQ_QCB_READ_DONE` (R285). -/
  | sqQcbReadDone (q : Fin 4096)
  /-- `DESCRIPTOR_FETCH_DONE` (R288). -/
  | descriptorFetchDone (q : Fin 4096)
  /-- `NOP` (R290). -/
  | nop (q : Fin 4096)
  /-- `COPY` (R292). -/
  | copy (q : Fin 4096)
  /-- `FILL` (R292). -/
  | fill (q : Fin 4096)
  /-- `ZERO` (R290). -/
  | zero (q : Fin 4096)
  /-- `COMPARE` (R290). -/
  | compare (q : Fin 4096)
  /-- `CHECK` (R310). -/
  | check (q : Fin 4096)
  /-- `ATOMIC_FETCH_ADD` (R293). -/
  | atomicFetchAdd (q : Fin 4096)
  /-- `ATOMIC_SWAP` (R293). -/
  | atomicSwap (q : Fin 4096)
  /-- `ATOMIC_COMPARE_AND_SWAP` (R293). -/
  | atomicCompareAndSwap (q : Fin 4096)
  /-- `FLUSH` (R298). -/
  | flush (q : Fin 4096)
  /-- `FENCE` (R295). -/
  | fence (q : Fin 4096)
  /-- `MARK` (R298). -/
  | mark (q : Fin 4096)
  /-- `MIGRATE_GRANULE` (R299). -/
  | migrateGranule (q : Fin 4096)
  /-- `PIECE_COMPLETE` (R296). -/
  | pieceComplete (q : Fin 4096) (i : BitVec 32)
  /-- `DESCRIPTOR_COMPLETE` (R297). -/
  | descriptorComplete (q : Fin 4096) (i : BitVec 32)
  /-- `POOL_MEMORY_READ` (R309). -/
  | poolMemoryRead
  /-- `POOL_MEMORY_WRITE` (R309). -/
  | poolMemoryWrite
  /-- `POOL_DEFERRABLE_MEMORY_WRITE` (R309). -/
  | poolDeferrableMemoryWrite
  /-- `POOL_FETCHADD` (R307). -/
  | poolFetchadd
  /-- `POOL_SWAP` (R307). -/
  | poolSwap
  /-- `POOL_CAS` (R307). -/
  | poolCas
  /-- `FLUSH_WHOLE_MOVER_CACHE` (R298). -/
  | flushWholeMoverCache
  /-- `CHECK_UNIT_OWNER_WRITE` (R310). -/
  | checkUnitOwnerWrite (u : Fin 16) (fn : BitVec 16)
  /-- `CHECK_UNIT_CONTEXT_WRITE` (R311). -/
  | checkUnitContextWrite (u : Fin 16) (ctx : BitVec 512)
  /-- `FUNCTION_ASSIGN` (R318). -/
  | functionAssign (f : Fin 1024) (v : Fin 255) (slot : Fin 2048)
  /-- `FUNCTION_UNASSIGN` (R318). -/
  | functionUnassign (f : Fin 1024)
  /-- `QUEUE_MOVE` (R322). -/
  | queueMove (sess : BitVec 32) (isCq : Bool) (q : Fin 4096) (owner : Option (Fin 1088)) (loc : Fin 4096)
  /-- `SHARE_MOVE` (R323). -/
  | shareMove (a b : Fin 1088) (n : BitVec 16)
  /-- `COUNTER_SET_MOVE` (R324). -/
  | counterSetMove (c : Fin 1024) (fn : Option (Fin 1024))
  /-- `LOG_PRODUCER_WRITEBACK` (R328). -/
  | logProducerWriteback (c : Fin 1088)
  /-- `LOG_DOORBELL` (R330). -/
  | logDoorbell (v : Fin 64) (c : Fin 1088)
  /-- `LOG_REARM_DONE` (R330). -/
  | logRearmDone (c : Fin 1088)
  /-- `LOG_ENABLE` (R331). -/
  | logEnable (c : Fin 1088) (lcb : Option (BitVec 512))
  /-- `LOG_DISABLE` (R331). -/
  | logDisable (c : Fin 1088)
  /-- `RESET_BITMAP` (R331). -/
  | resetBitmap (c : Fin 1088) (i : BitVec 32)
  /-- `BITMAP_CLEAR_DONE` (R331). -/
  | bitmapClearDone (c : Fin 1088)
  /-- `CONTROL_PAGE_RESET` (R332). -/
  | controlPageReset (n : Fin 1088)
  /-- `FUNCTION_LEVEL_RESET` (R332). -/
  | functionLevelReset (n : Fin 1088)
  /-- `VF_ENABLE_CLEAR` (R332). -/
  | vfEnableClear (v : Fin 64)
  /-- `FUNCTION_RESET` (R333). -/
  | functionReset (n : Fin 1088)
  /-- `FUNCTION_RESET_COMPLETE` (R334). -/
  | functionResetComplete (n : Fin 1088)
  /-- `SUPPLY_SAMPLE` (R336). -/
  | supplySample (vinMv vinMa vauxMv vauxMa resMv : Nat)
  /-- `VAUX_POWER_GOOD` (R337). -/
  | vauxPowerGood
  /-- `VIN12_QUALIFIED` (R337). -/
  | vin12Qualified
  /-- `STARTUP_STEP_COMPLETE` (R340). -/
  | startupStepComplete (f : StartupFind)
  /-- `CRASH_SNAPSHOT` (R346). -/
  | crashSnapshot
  /-- `AUXILIARY_DOMAIN_OFF` (R346). -/
  | auxiliaryDomainOff
  /-- `SLOT_TICK` (R347). -/
  | slotTick (c : Fin 48) (m : SlotSample)
  /-- `INSERTION_DELAY_EXPIRE` (R349). -/
  | insertionDelayExpire (c : Fin 48)
  /-- `FAULT_TIMER_EXPIRE` (R348). -/
  | faultTimerExpire (c : Fin 48)
  /-- `RETRY_TIMER_EXPIRE` (R349). -/
  | retryTimerExpire (c : Fin 48)
  /-- `RAMP_TIMEOUT` (R349). -/
  | rampTimeout (c : Fin 48)
  /-- `GATE_WONT_RISE_EXPIRE` (R349). -/
  | gateWontRiseExpire (c : Fin 48)
  /-- `RETRY_COUNT_CLEAR` (R349). -/
  | retryCountClear (c : Fin 48)
  /-- `SLOT_CHANNEL_ENABLE` (R349). -/
  | slotChannelEnable (c : Fin 48)
  /-- `SLOT_CHANNEL_DISABLE` (R349). -/
  | slotChannelDisable (c : Fin 48)
  /-- `CLEAR_LATCH` (R349). -/
  | clearLatch (c : Fin 48)
  /-- `POWER_REQUEST` (R351). -/
  | powerRequest (c : Fin 48) (on byHost : Bool)
  /-- `GOVERNOR_EPOCH` (R356). -/
  | governorEpoch (measured : Nat) (readings : List (Fin 64 × Int)) (demand : List Nat)
  /-- `THERMAL_NARROWING` (R360). -/
  | thermalNarrowing
  /-- `THERMAL_RESPONSE_END` (R360). -/
  | thermalResponseEnd
  /-- `POWER_CAP_EXCEEDED` (R361). -/
  | powerCapExceeded
  /-- `BUS_ACCESS` (R370). -/
  | busAccess (reqs : List BusReq)
  /-- `BUS_TIMEOUT` (R375). -/
  | busTimeout (m : Fin 6) (id : Fin 16)
  /-- `LATE_RESPONSE` (R375). -/
  | lateResponse (m : Fin 6) (id : Fin 16)
  /-- `APERTURE_SELECT_WRITE` (R378). -/
  | apertureSelectWrite (v : BitVec 32)
  /-- `APERTURE_ACCESS` (R377). -/
  | apertureAccess (m : Fin 6) (id : Fin 16) (o : Fin 0x40000000) (k : BusKind)
  /-- `MPU_COMMIT` (R384). -/
  | mpuCommit (k : Fin 4)
  /-- `MPU_COPY` (R383). -/
  | mpuCopy (k : Fin 4)
  /-- `EXCEPTION_RETURN` (R365). -/
  | exceptionReturn (k : Fin 4)
  /-- `EVENT_LOG_POST` (R434). -/
  | eventLogPost (m : Fin 6) (id : Fin 16) (code : BitVec 16) (data : BitVec 192)
  /-- `HELLO` (R402). -/
  | hello (seq reqId : BitVec 32) (via : Transport) (pmax omax : BitVec 16) (mode : Mode) (maxMsg : BitVec 32) (name : List Byte) (spdm : Option Nat)
  /-- `BYE` (R403). -/
  | bye (r : Req)
  /-- `KEEPALIVE` (R403). -/
  | keepalive (r : Req)
  /-- `READ` (R399). -/
  | read (r : Req) (items : List (BitVec 16 × Byte))
  /-- `WRITE` (R399). -/
  | write (r : Req) (items : List WriteItem)
  /-- `DESCRIBE` (R398). -/
  | describe (r : Req) (idx : BitVec 16) (sub : Byte)
  /-- `SEG_READ` (R405). -/
  | segRead (r : Req) (idx : BitVec 16) (sub : Byte) (offset length : BitVec 32)
  /-- `SEG_WRITE` (R405). -/
  | segWrite (r : Req) (idx : BitVec 16) (sub : Byte) (first last : Bool) (offset total : BitVec 32) (data : List Byte)
  /-- `COMMIT` (R412). -/
  | commit (r : Req) (options : Byte)
  /-- `COMMIT_WRITE_DONE` (R412). -/
  | commitWriteDone
  /-- `WRITE_DEFAULT_IMAGE` (R414). -/
  | writeDefaultImage (arg : Byte)
  /-- `SUBSCRIBE` (R407). -/
  | subscribe (r : Req) (kind : Fin 256) (sub : Byte) (idx : BitVec 16) (interval : BitVec 32)
  /-- `UNSUBSCRIBE` (R407). -/
  | unsubscribe (r : Req) (n : BitVec 16)
  /-- `NOTIFY` (R408). -/
  | notify (id : BitVec 32)
  /-- `SESSION_TIMEOUT` (R403). -/
  | sessionTimeout (id : BitVec 32)
  /-- `USB_DETACH` (R403). -/
  | usbDetach
  /-- `MAILBOX_NOTIFY_FETCH` (R409). -/
  | mailboxNotifyFetch (v : Fin 64)
  /-- `FAULT_REPORT` (R421). -/
  | faultReport (f : Fin 512) (own : Option (BitVec 8 × BitVec 48 × BitVec 192))
  /-- `RAIL_FAULT` (R417). -/
  | railFault (f : Fin 512) (invalid : Bool)
  /-- `HANDLING_TIMER_EXPIRE` (R423). -/
  | handlingTimerExpire (f : Fin 512)
  /-- `ACKNOWLEDGE_C2_SOURCE` (R423). -/
  | acknowledgeC2Source (n : BitVec 16) (sid : BitVec 32)
  /-- `ENTER_SAFE_STATE` (R429). -/
  | enterSafeState
  /-- `RESET_FJQ_9640` (R494). -/
  | resetFjq9640
  /-- `CLEAR_STICKY_BIT` (R426). -/
  | clearStickyBit (n : BitVec 16)
  /-- `CLEAR_FIRST_ERROR_LATCH` (R426). -/
  | clearFirstErrorLatch
  /-- `INJECTION_UNLOCK` (R428). -/
  | injectionUnlock (sid : BitVec 32)
  /-- `INJECTION_LOCK` (R428). -/
  | injectionLock
  /-- `INJECT_STOP` (R428). -/
  | injectStop (f : BitVec 16)
  /-- `INJECT_ONE_SHOT` (R428). -/
  | injectOneShot (f : BitVec 16)
  /-- `INJECT_CONTINUOUS` (R428). -/
  | injectContinuous (f : BitVec 16)
  /-- `INJECT_RAIL` (R428). -/
  | injectRail (f : BitVec 16)
  /-- `SOURCE_CONFIGURATION_WRITE` (R422). -/
  | sourceConfigurationWrite (rs : List (BitVec 64))
  /-- `COLLECTOR_SELF_ERROR` (R427). -/
  | collectorSelfError
  /-- `WRITE_SNAPSHOT_NOW` (R435). -/
  | writeSnapshotNow
  /-- `WITHDRAW_PENDING_RECORD` (R438). -/
  | withdrawPendingRecord (n : BitVec 16)
  /-- `RETIRE_PHYSICAL_SLICE` (R438). -/
  | retirePhysicalSlice (n : Byte)
  /-- `CULLET_WRITE_RETRY` (R438). -/
  | culletWriteRetry
  /-- `RAISE_ROLLBACK_COUNTER` (R447). -/
  | raiseRollbackCounter (c : Byte)
  /-- `FIRMWARE_IMAGE` (R448). -/
  | firmwareImage (sid : Option (BitVec 32)) (i : FwImage)
  /-- `REVOKE_KEY_SLOT` (R449). -/
  | revokeKeySlot (sid : BitVec 32) (k : Byte)
  /-- `CERTIFIED_PACKAGE` (R457). -/
  | certifiedPackage (sid : BitVec 32) (p : CertPackage)
  /-- `GET_VERSION` (R453). -/
  | getVersion (c : Nat)
  /-- `GET_CAPABILITIES` (R453). -/
  | getCapabilities (c : Nat) (v : Byte)
  /-- `NEGOTIATE_ALGORITHMS` (R454). -/
  | negotiateAlgorithms (c : Nat) (algs : List (BitVec 16))
  /-- `GET_DIGESTS` (R453). -/
  | getDigests (c : Nat)
  /-- `GET_CERTIFICATE` (R451). -/
  | getCertificate (c : Nat) (slot : Fin 16) (offset length : BitVec 16)
  /-- `CHALLENGE` (R453). -/
  | challenge (c : Nat)
  /-- `GET_MEASUREMENTS` (R455). -/
  | getMeasurements (c : Nat) (op : Byte) (signed : Bool)
  /-- `KEY_EXCHANGE` (R453). -/
  | keyExchange (c : Nat)
  /-- `FINISH` (R453). -/
  | finish (c sid : Nat) (verified : Bool)
  /-- `HEARTBEAT` (R453). -/
  | heartbeat (c sid : Nat)
  /-- `KEY_UPDATE` (R453). -/
  | keyUpdate (c sid : Nat)
  /-- `END_SESSION` (R465). -/
  | endSession (c sid : Nat)
  /-- `CHUNK_SEND` (R453). -/
  | chunkSend (c seq : Nat) (data : List Byte) (last : Bool)
  /-- `CHUNK_GET` (R453). -/
  | chunkGet (c seq total : Nat)
  /-- `VENDOR_DEFINED_REQUEST` (R453). -/
  | vendorDefinedRequest (c : Nat)
  /-- `SPDM_UNSUPPORTED_REQUEST` (R453). -/
  | spdmUnsupportedRequest (c : Nat)
  /-- `IDE_KM` (R458). -/
  | ideKm (p : Fin 96) (c sid : Nat) (op : IdeOp)
  /-- `IDE_CHECK_FAILURE` (R459). -/
  | ideCheckFailure (p : Fin 96)
  /-- `AULUM_KEY_WRITE` (R460). -/
  | aulumKeyWrite (a : Fin 16) (tx k : Bool) (key : BitVec 256) (mode : Mode)
  /-- `TRANSMIT_ROLLOVER` (R463). -/
  | transmitRollover (a : Fin 16)
  /-- `MAC_GROUP_TIMEOUT` (R461). -/
  | macGroupTimeout (a : Fin 16)
  /-- `DEBUG_TOKEN` (R466). -/
  | debugToken (sid : Option (BitVec 32)) (t : DebugToken)
  /-- `LOCK_DEBUG` (R468). -/
  | lockDebug
  /-- `DEBUG_TOKEN_EXPIRE` (R468). -/
  | debugTokenExpire
  /-- `HEALTH_TEST_FAILURE` (R444). -/
  | healthTestFailure
  /-- `TAKE_SNAPSHOT` (R472). -/
  | takeSnapshot
  /-- `SAMPLER_ENABLE` (R477). -/
  | samplerEnable (k : Fin 8) (on : Bool)
  /-- `HOST_SAMPLER_ENABLE` (R475). -/
  | hostSamplerEnable (v : Fin 64) (on : Bool) (vector event : Fin 128) (periodLow : BitVec 32) (periodHigh : BitVec 16)
  /-- `SAMPLER_FIRE` (R477). -/
  | samplerFire (k : Fin 72)
  /-- `TIME_OFFSET_MEASURED` (R480). -/
  | timeOffsetMeasured (off : Int) (gm : BitVec 64)
  /-- `SYNC_TIMEOUT` (R480). -/
  | syncTimeout
  /-- `HOLDOVER_LIMIT` (R480). -/
  | holdoverLimit
  /-- `TSI_EDGE` (R481). -/
  | tsiEdge (i : Fin 8) (rising : Bool)
  /-- `TSI_PULSE_FILTERED` (R481). -/
  | tsiPulseFiltered (i : Fin 8) (width : Nat)
  /-- `CAPTURE_QUEUE_READ` (R481). -/
  | captureQueueRead (i : Fin 8) (n : Nat)
  /-- `RESET_N_FALL` (R494). -/
  | resetNFall
  /-- `RESET_RELEASE` (R494). -/
  | resetRelease
  /-- `REFCLK_STABLE` (R492). -/
  | refclkStable (r : Fin 21)
  /-- `REFCLK_LOST` (R492). -/
  | refclkLost (r : Fin 21)
  /-- `CQ_QCB_READ_DONE` (R286). -/
  | cqQcbReadDone (q : Fin 1024)
  /-- `MOVER_CACHE_RESPONSE` (R278). -/
  | moverCacheResponse (dat : Bool)
  /-- `TIER_MOVER_RESPONSE` (R223). -/
  | tierMoverResponse (dat : Bool)
  /-- `CULLET_RECORD_WRITE_DONE` (R438). -/
  | culletRecordWriteDone (n : Fin 4096)
  /-- `COMMAND` (R388). -/
  | command (r : Req) (idx : BitVec 16) (sub : Byte) (type : Byte) (arg : BitVec 64)
  deriving DecidableEq, Repr

end Sys2Proof
end

