-- ==== Sys2Proof/Config.lean ====
section
/-!
DEFINITION. Config.lean: what one device, or one implementation, fixes and the manual leaves open.  Every constant here has
no body: nothing can be proved of its value, so a claim holds whatever it is.
-/

namespace Sys2Proof.Config

/-- A value that the manual leaves open at one point of a run (log entry 3). The state counts the draws. -/
opaque freeValue : Nat → BitVec 64

/-- R415, OD 1000.04: the serial number, 32 characters (log entry 4). -/
opaque serial : Fin 32 → Byte

/-- R415, OD 1000.05: the hardware revision (log entry 4). -/
opaque hardwareRevision : BitVec 16

/-- R415, OD (1110 + e).08: the MAC address of management Ethernet port `e` (log entry 4). -/
opaque macAddress : Nat → BitVec 48

/-- R352: the energy model's decay over one tick, `E × exp(−10 µs / tau)`, of an energy in pJ with `tau` in ms
(log entry 5). -/
opaque fetDecay (tauMs : Nat) (energy : Int) : Int

/-- R366 to R368, R377: a byte read where the manual gives an address and no layout or content, by address and draw (log
entry 6). -/
opaque deviceByte (addr draw : Nat) : Byte

/-- R374: the code of an access kind in a locked-region report: 0 read, 1 fetch, 2 write, 3 swap, 4 compare-and-swap
(log entry 7). -/
opaque accessCode : Nat → BitVec 4

/-- R380, R382: the 16 bytes of the MPU fault record, from the address, the access kind, the level and the set (log
entry 7). -/
opaque mpuFaultRecord (addr : BitVec 32) (kind level : Nat) (setB : Bool) : BitVec 128

/-- R468, R466: the code of a log entry that the manual calls for and R433 lists no code for (log entry 7). -/
opaque unlistedLogCode : BitVec 16

/-- R455: SHA-256 as the security core computes it (log entry 8). -/
opaque sha256 : List Byte → BitVec 256

/-- R450, R455: the boot ROM identity, measurement 1, and the device identifier (log entry 4). -/
opaque bootRomIdentity : BitVec 256
opaque deviceIdentifier : BitVec 256

/-- OD B000.02: the module version (log entry 4). -/
opaque moduleVersion : BitVec 32

/-- OD 1000.06: the firmware version that a running management image reports (log entry 4). -/
opaque firmwareVersion : BitVec 256 → BitVec 32

/-- R365: the privilege level that a core's entry at reset records (log entry 27). -/
opaque levelAtReset : Nat → Fin 3

/-- R340, R365: the byte at SRAM address `a` once step 2 has loaded the management image of the given measurement (log entry
28). -/
opaque firmwareByte (measurement : BitVec 256) (a : Nat) : Byte

/-- R451: the certificate chains of SPDM slots 0 and 1 (log entry 4). -/
opaque certChain : Fin 2 → List Byte

/-- R412, R344: the bytes of a stored image that holds the given entries, with its header and journal record: at most 2 MiB
(log entry 9). -/
opaque imageBytes : List (Nat × Nat) → Fin 2097153

/-- R48, R90: the bytes of a CXL.io packet, as the PCI Express Base Specification lays them out (log entry 10). -/
opaque tlpBytes : Tlp → List Byte

/-- R87, R93: which way of decoder `i`'s interleave set VCS `v` serves, which a host's own routing decides (log entry 11). -/
opaque interleaveWay (v i : Nat) : Nat

/-- R26: the 64 bytes that travel with poison where data has been lost (log entry 12). -/
opaque poisonData : LineData

/-- R86, R317, R320: where the configuration spaces hold registers that the manual names and gives no place, as double-word
numbers: 0 Device Control, 1 ACS control, 2 SR-IOV control, 3 NumVFs, 4 and 5 the VF BAR 0, 6 the first lane of Lane
Margining, 7 DPC control and status, 8 the DOE capability, 9 the MSI-X capability, 10 the ARI capability (log entry 14). -/
opaque capRegister : Fin 11 → Fin 1024

/-- R266, R461: AES-GCM-256 with a key and an initialisation vector: the key stream over the `k`-th flit of a group, and the
tag over additional data and ciphertext (log entry 13). -/
opaque gcmStream (key : BitVec 256) (iv : BitVec 96) (k : Nat) : BitVec 1920
opaque gcmTag (key : BitVec 256) (iv : BitVec 96) (aad : List Byte) (text : List (BitVec 1920)) : BitVec 128

/-- R445, R457, R466: SLH-DSA verification, with parameter set 128f (`fast`) or 128s, of a signature over a message under a public
key (log entry 8). -/
opaque slhDsaVerifies (fast : Bool) (key sig msg : List Byte) : Bool

/-- R452: the bytes of an SPDM response message, which DSP0274 lays out (log entry 15). -/
opaque spdmBytes : SpdmReply → List Byte

/-- OD (1110 + e).09: whether the link of management Ethernet port `e` is up at a clock, which the network decides (log
entry 16). -/
opaque ethernetLink (e clock : Nat) : Bool

/-- R15, OD 8021: what the clock of ring island `i` does inside its limits, at a clock (log entry 17). -/
opaque ringClock (i clock : Nat) : Nat

/-- R17: the units of one VN that may wait at the sending end of a die bridge before its port island's ingress pairs wait (log
entry 22). -/
opaque bridgeSlots : Nat

/-- R278: the completion timeout of a read of host memory, ns (log entry 39). -/
opaque completionTimeout : Nat

end Sys2Proof.Config
end

