-- ==== Sys2Proof/Machine/Dictionary.lean ====
section
/-!
DEFINITION. Machine/Dictionary.lean: the object dictionary of R386 to R396 as a table: one row for each line of the
chapters' entry tables (R399 of each chapter: rules R73, R108, R138, R174, R208, R239, R272, R315, R335, R363, R385, R415,
R441, R470, R483, R499), with its instances (R392), type (R387), access (R388), default (R390), persistence (R389),
Since (R395) and stated range.  The table was set out from the text of the spec's tables.
-/

namespace Sys2Proof.Machine

/-- R387: the types of objects. -/
inductive OdType where
  | boolean | u8 | u16 | u32 | u64 | i8 | i16 | i32 | i64 | octets | visible | domain
  deriving DecidableEq, Repr

/-- R388: the access rights. -/
inductive Access where
  | ro | wo | rw | rwc | cmd | const
  deriving DecidableEq, Repr

/-- R389: the persistence classes; `none` is the class of a const or of an entry the tables give none. -/
inductive Persist where
  | volatile | stored | certified | none
  deriving DecidableEq, Repr

/-- One line of a chapter's entry table. `base` and `count`: the indices `base`, …, `base + count − 1` (R392);
`subLo`, `subHi`: its subindices; `lo`, `hi`, `extra`: the values its stated range admits (`extra` lists admitted values
outside `lo..hi`); `maxLen`: the most bytes of a string, `0xFFFF` for a DOMAIN. -/
structure DictRow where
  base : Nat
  count : Nat
  subLo : Nat
  subHi : Nat
  type : OdType
  access : Access
  dflt : Nat
  persist : Persist
  since : Nat
  lo : Nat
  hi : Nat
  extra : List Nat
  maxLen : Nat
  name : String
  deriving DecidableEq, Repr

/-- Entries of indices 1000 to 1FFF (part 1). -/
def dictRows1_0 : List DictRow :=
  [ ⟨0x1000, 1, 0x01, 0x01, .visible, .const, 0, .none, 0x0100, 0, 0, [], 5, "Vendor name"⟩
  , ⟨0x1000, 1, 0x02, 0x02, .visible, .const, 0, .none, 0x0100, 0, 0, [], 8, "Part"⟩
  , ⟨0x1000, 1, 0x03, 0x03, .visible, .const, 0, .none, 0x0100, 0, 0, [], 11, "Ordering code"⟩
  , ⟨0x1000, 1, 0x04, 0x04, .visible, .ro, 0, .none, 0x0100, 0, 0, [], 32, "Serial number, 32 characters"⟩
  , ⟨0x1000, 1, 0x05, 0x05, .u16, .ro, 0, .none, 0x0100, 0, 65535, [], 0, "Hardware revision"⟩
  , ⟨0x1000, 1, 0x06, 0x06, .u32, .ro, 0, .none, 0x0100, 0, 4294967295, [], 0, "Firmware version"⟩
  , ⟨0x1000, 1, 0x07, 0x07, .u16, .const, 7996, .none, 0x0100, 0, 65535, [], 0, "PCI vendor ID"⟩
  , ⟨0x1000, 1, 0x08, 0x08, .u16, .const, 515, .none, 0x0100, 0, 65535, [], 0, "OD version implemented"⟩
  , ⟨0x1000, 1, 0x09, 0x09, .u16, .const, 515, .none, 0x0100, 0, 65535, [], 0, "Protocol version implemented"⟩
  , ⟨0x1010, 1, 0x01, 0x01, .u64, .ro, 0, .none, 0x0100, 0, 18446744073709551615, [], 0, "Image generation, from the newest valid journal record (R413)"⟩
  , ⟨0x1010, 1, 0x02, 0x02, .u8, .ro, 0, .volatile, 0x0100, 0, 2, [], 0, "Last commit (0 none, 1 written, 2 HOLDUP_LOW)"⟩
  , ⟨0x1010, 1, 0x03, 0x03, .u32, .ro, 0, .volatile, 0x0100, 0, 4294967295, [], 0, "Stored entries written since the last snapshot"⟩
  , ⟨0x1010, 1, 0x04, 0x04, .u8, .cmd, 0, .volatile, 0x0100, 0, 255, [], 0, "Write default image (0 keep communication, 1 all)"⟩
  , ⟨0x1010, 1, 0x05, 0x05, .u8, .ro, 0, .volatile, 0x0100, 0, 255, [], 0, "Valid image slots, bits 0 and 1"⟩
  , ⟨0x1100, 1, 0x01, 0x01, .u8, .const, 32, .none, 0x0100, 0, 255, [], 0, "Sessions, maximum"⟩
  , ⟨0x1100, 1, 0x02, 0x02, .u8, .ro, 0, .volatile, 0x0100, 0, 255, [], 0, "Sessions open"⟩
  , ⟨0x1100, 1, 0x03, 0x03, .u16, .rw, 30, .stored, 0x0100, 5, 3600, [], 0, "Session timeout, s (5..3,600)"⟩
  , ⟨0x1100, 1, 0x04, 0x04, .u16, .rw, 52731, .stored, 0x0100, 1024, 65535, [], 0, "Sprineno UDP port (1,024..65,535)"⟩
  , ⟨0x1100, 1, 0x05, 0x05, .u16, .const, 256, .none, 0x0200, 0, 65535, [], 0, "Notify records queued per session"⟩
  , ⟨0x1100, 1, 0x06, 0x06, .u8, .const, 64, .none, 0x0200, 0, 255, [], 0, "Subscriptions per session"⟩
  , ⟨0x1101, 1, 0x01, 0x04, .u8, .rw, 0, .stored, 0x0200, 0, 2, [], 0, "Minimum mode: UDP, USB, MCTP, mailbox (0..2)"⟩
  , ⟨0x1110, 2, 0x01, 0x01, .boolean, .rw, 1, .stored, 0x0100, 0, 1, [], 0, "DHCP enable"⟩
  , ⟨0x1110, 2, 0x02, 0x02, .u32, .rw, 0, .stored, 0x0100, 0, 4294967295, [], 0, "IPv4 address"⟩
  , ⟨0x1110, 2, 0x03, 0x03, .u8, .rw, 24, .stored, 0x0100, 0, 32, [], 0, "IPv4 prefix length (0..32)"⟩
  , ⟨0x1110, 2, 0x04, 0x04, .u32, .rw, 0, .stored, 0x0100, 0, 4294967295, [], 0, "IPv4 gateway"⟩
  , ⟨0x1110, 2, 0x05, 0x05, .boolean, .rw, 1, .stored, 0x0102, 0, 1, [], 0, "IPv6 enable"⟩
  , ⟨0x1110, 2, 0x06, 0x06, .octets, .rw, 0, .stored, 0x0102, 0, 0, [], 16, "IPv6 address, 16 bytes"⟩
  , ⟨0x1110, 2, 0x07, 0x07, .u8, .rw, 64, .stored, 0x0102, 0, 128, [], 0, "IPv6 prefix length (0..128)"⟩
  , ⟨0x1110, 2, 0x08, 0x08, .octets, .ro, 0, .none, 0x0100, 0, 0, [], 6, "MAC address, 6 bytes"⟩
  , ⟨0x1110, 2, 0x09, 0x09, .u8, .ro, 0, .volatile, 0x0100, 0, 1, [], 0, "Link (0 down, 1 up)"⟩
  , ⟨0x1120, 1, 0x01, 0x01, .boolean, .rw, 1, .stored, 0x0102, 0, 1, [], 0, "USB function enable"⟩
  , ⟨0x1121, 1, 0x01, 0x01, .u8, .rw, 0, .stored, 0x0100, 8, 254, [0], 0, "MCTP endpoint ID (0 assigned by the bus owner, 8..254)"⟩
  , ⟨0x1130, 1, 0x01, 0x01, .u64, .rw, 0, .stored, 0x0201, 0, 18446744073709551615, [], 0, "Mailbox enable mask, bit v for VCS v"⟩ ]

/-- Entries of indices 2000 to 2FFF (part 1). -/
def dictRows2_0 : List DictRow :=
  [ ⟨0x2010, 1, 0x01, 0x01, .u8, .rw, 0, .volatile, 0x0100, 0, 63, [], 0, "Bind command: VCS (0..63)"⟩
  , ⟨0x2010, 1, 0x02, 0x02, .u8, .rw, 2, .volatile, 0x0100, 2, 31, [], 0, "Bind command: vPPB (2..31)"⟩
  , ⟨0x2010, 1, 0x03, 0x03, .u16, .rw, 0, .volatile, 0x0100, 0, 65535, [], 0, "Bind command: port [10..4], LD [3..0]"⟩
  , ⟨0x2010, 1, 0x04, 0x04, .u8, .rw, 1, .volatile, 0x0100, 0, 2, [], 0, "Unbind option (0 wait for link down, 1 managed, 2 surprise)"⟩
  , ⟨0x2010, 1, 0x05, 0x05, .u8, .cmd, 0, .volatile, 0x0100, 0, 255, [], 0, "Binding execute (1 bind, 2 unbind)"⟩
  , ⟨0x2010, 1, 0x06, 0x06, .u8, .ro, 0, .volatile, 0x0100, 0, 2, [], 0, "Binding status (0 done, 1 running, 2 refused)"⟩
  , ⟨0x2100, 96, 0x01, 0x01, .u8, .rw, 0, .stored, 0x0100, 0, 2, [], 0, "Role (0 DISABLED, 1 UPSTREAM, 2 DOWNSTREAM)"⟩
  , ⟨0x2100, 96, 0x02, 0x02, .u8, .rw, 4, .stored, 0x0100, 4, 4, [8, 16], 0, "Width (4, 8, 16)"⟩
  , ⟨0x2100, 96, 0x03, 0x03, .u8, .rw, 6, .stored, 0x0100, 1, 6, [], 0, "Speed limit (1 2.5, 2 5, 3 8, 4 16, 5 32, 6 64 GT/s)"⟩
  , ⟨0x2100, 96, 0x04, 0x04, .u8, .rw, 255, .stored, 0x0100, 0, 63, [255], 0, "VCS of an upstream port (0..63, 0xFF none)"⟩
  , ⟨0x2100, 96, 0x05, 0x05, .u8, .rw, 255, .stored, 0x0100, 0, 47, [255], 0, "Slot channel (0..47, 0xFF none)"⟩
  , ⟨0x2100, 96, 0x06, 0x06, .boolean, .rw, 1, .stored, 0x0102, 0, 1, [], 0, "L0p enable"⟩
  , ⟨0x2100, 96, 0x07, 0x07, .u8, .rw, 2, .stored, 0x0102, 1, 2, [4, 8], 0, "L0p minimum width (1, 2, 4, 8)"⟩
  , ⟨0x2100, 96, 0x08, 0x08, .u16, .rw, 0, .stored, 0x0100, 0, 65535, [], 0, "Pool LD mask"⟩
  , ⟨0x2100, 96, 0x09, 0x09, .u16, .rw, 100, .stored, 0x0100, 100, 1000, [], 0, "PERST deassert delay, ms"⟩
  , ⟨0x2100, 96, 0x0A, 0x0A, .u8, .cmd, 0, .volatile, 0x0100, 0, 255, [], 0, "Port command"⟩
  , ⟨0x2100, 96, 0x10, 0x10, .u8, .ro, 0, .volatile, 0x0100, 0, 3, [], 0, "Link state (0 DOWN, 1 TRAINING, 2 UP, 3 ABSORBED)"⟩
  , ⟨0x2100, 96, 0x11, 0x11, .u8, .ro, 0, .volatile, 0x0100, 0, 255, [], 0, "Trained width"⟩
  , ⟨0x2100, 96, 0x12, 0x12, .u8, .ro, 0, .volatile, 0x0100, 0, 255, [], 0, "Trained speed code"⟩
  , ⟨0x2100, 96, 0x13, 0x13, .u8, .ro, 0, .volatile, 0x0100, 0, 2, [], 0, "Flit mode (0 non-flit, 1 68-byte, 2 256-byte)"⟩
  , ⟨0x2100, 96, 0x14, 0x14, .u8, .ro, 0, .volatile, 0x0100, 0, 255, [], 0, "Partner kind, as in R83"⟩
  , ⟨0x2100, 96, 0x15, 0x15, .u8, .ro, 0, .volatile, 0x0100, 0, 255, [], 0, "Partner LD count"⟩
  , ⟨0x2100, 96, 0x16, 0x16, .u8, .ro, 0, .volatile, 0x0102, 0, 255, [], 0, "Current L0p width"⟩
  , ⟨0x2100, 96, 0x17, 0x17, .boolean, .ro, 0, .volatile, 0x0100, 0, 1, [], 0, "Lane reversal in use"⟩
  , ⟨0x2200, 64, 0x01, 0x01, .boolean, .rw, 0, .stored, 0x0100, 0, 1, [], 0, "VCS enable"⟩
  , ⟨0x2200, 64, 0x02, 0x02, .u8, .ro, 255, .volatile, 0x0100, 0, 255, [], 0, "Upstream port (0xFF none)"⟩
  , ⟨0x2200, 64, 0x03, 0x03, .u8, .ro, 0, .volatile, 0x0100, 0, 3, [], 0, "VCS state (0 DISABLED, 1 WAITING_LINK, 2 ACTIVE, 3 IN_RESET)"⟩
  , ⟨0x2200, 64, 0x04, 0x04, .u16, .rw, 4096, .stored, 0x0101, 1, 4096, [], 0, "Maximum extents (1..4,096)"⟩
  , ⟨0x2200, 64, 0x05, 0x05, .u16, .ro, 0, .volatile, 0x0101, 0, 65535, [], 0, "Extents held"⟩
  , ⟨0x2300, 64, 0x01, 0x20, .u64, .rw, 0, .stored, 0x0100, 0, 18446744073709551615, [], 0, "Decoder pool base, decoder 0..31"⟩
  , ⟨0x2340, 64, 0x01, 0x20, .u64, .rw, 0, .stored, 0x0100, 0, 18446744073709551615, [], 0, "Decoder pool window length, decoder 0..31"⟩
  , ⟨0x2400, 64, 0x03, 0x20, .u16, .ro, 0, .volatile, 0x0100, 0, 3, [], 0, "vPPB 2..31 binding: state [15..14] (0 UNBOUND, 1 BINDING, 2 BOUND, 3 UNBINDING), port [10..4], LD [3..0]"⟩
  , ⟨0x2500, 64, 0x01, 0x08, .u64, .rw, 0, .stored, 0x0101, 0, 18446744073709551615, [], 0, "DC region pool base, region 0..7"⟩
  , ⟨0x2540, 64, 0x01, 0x08, .u64, .rw, 0, .stored, 0x0101, 0, 18446744073709551615, [], 0, "DC region length, region 0..7"⟩ ]

/-- Entries of indices 3000 to 3FFF (part 1). -/
def dictRows3_0 : List DictRow :=
  [ ⟨0x3010, 1, 0x01, 0x01, .u8, .cmd, 0, .volatile, 0x0100, 0, 255, [], 0, "Buffer limit commit"⟩
  , ⟨0x3010, 1, 0x02, 0x02, .u8, .ro, 0, .volatile, 0x0100, 0, 5, [], 0, "Buffer commit status (0 idle, 1 applying, 2 complete, 3 BUFFER_OVER, 4 BELOW_MINIMUM, 5 BUSY)"⟩
  , ⟨0x3010, 1, 0x03, 0x03, .u32, .ro, 0, .volatile, 0x0100, 0, 4294967295, [], 0, "Excess cells of refused commit"⟩
  , ⟨0x3010, 1, 0x04, 0x04, .u8, .ro, 0, .volatile, 0x0100, 0, 255, [], 0, "Port die of refused commit"⟩
  , ⟨0x3011, 1, 0x01, 0x04, .u32, .ro, 0, .volatile, 0x0100, 0, 4294967295, [], 0, "Cells in use, port die 0..3"⟩
  , ⟨0x3020, 1, 0x01, 0x01, .u8, .rw, 4, .stored, 0x0100, 0, 255, [], 0, "Crossing resend limit"⟩
  , ⟨0x3030, 1, 0x01, 0x01, .u16, .rw, 64, .stored, 0x0100, 1, 1024, [], 0, "Starvation guard, cycles (1..1,024)"⟩
  , ⟨0x3030, 1, 0x02, 0x02, .u32, .rw, 1000, .stored, 0x0100, 10, 1000000, [], 0, "Closing drain timeout, µs (10..1,000,000)"⟩
  , ⟨0x3031, 1, 0x01, 0x10, .u8, .rw, 0, .stored, 0x0100, 0, 1, [], 0, "Port island state request, island 0..15 (0 OPEN, 1 CLOSED)"⟩
  , ⟨0x3032, 1, 0x01, 0x10, .u8, .ro, 0, .volatile, 0x0100, 0, 3, [], 0, "Port island state, island 0..15 (0 OPEN, 1 CLOSING, 2 CLOSED, 3 OPENING)"⟩
  , ⟨0x3033, 1, 0x01, 0x01, .u8, .cmd, 0, .volatile, 0x0100, 0, 255, [], 0, "Route commit"⟩
  , ⟨0x3033, 1, 0x02, 0x02, .boolean, .ro, 0, .volatile, 0x0100, 0, 1, [], 0, "Active route epoch"⟩
  , ⟨0x3033, 1, 0x03, 0x03, .u8, .ro, 0, .volatile, 0x0100, 0, 2, [], 0, "Route commit status (0 idle, 1 draining, 2 complete)"⟩
  , ⟨0x3033, 1, 0x04, 0x04, .u32, .ro, 0, .volatile, 0x0100, 0, 4294967295, [], 0, "Old-epoch drain count"⟩
  , ⟨0x3034, 1, 0x01, 0x10, .u32, .ro, 0, .volatile, 0x0100, 0, 4294967295, [], 0, "Island drain count, island 0..15"⟩
  , ⟨0x3035, 1, 0x00, 0x00, .domain, .ro, 0, .volatile, 0x0100, 0, 0, [], 65535, "Override tables, 2,304 entries"⟩
  , ⟨0x3040, 1, 0x01, 0x01, .u16, .rw, 2000, .stored, 0x0100, 10, 4095, [], 0, "REQ age limit, µs (10..4,095)"⟩
  , ⟨0x3040, 1, 0x02, 0x02, .u16, .rw, 50, .stored, 0x0100, 1, 1000, [], 0, "IO age limit, ms (1..1,000)"⟩
  , ⟨0x3050, 1, 0x01, 0x01, .u16, .rw, 256, .stored, 0x0100, 1, 1, [2, 4, 8, 16, 32, 64, 128, 256, 512, 1024, 2048, 4096], 0, "Trace ring size, MiB (power of two, 1..4,096)"⟩
  , ⟨0x3050, 1, 0x02, 0x02, .u8, .rw, 0, .stored, 0x0100, 0, 1, [], 0, "Trace mode (0 wrap, 1 stop)"⟩
  , ⟨0x3050, 1, 0x03, 0x03, .boolean, .rw, 0, .volatile, 0x0100, 0, 1, [], 0, "Trace enable"⟩
  , ⟨0x3050, 1, 0x04, 0x04, .u64, .ro, 0, .volatile, 0x0100, 0, 18446744073709551615, [], 0, "Trace write index"⟩
  , ⟨0x3050, 1, 0x05, 0x05, .u64, .rw, 0, .volatile, 0x0100, 0, 18446744073709551615, [], 0, "Trace read index"⟩
  , ⟨0x3050, 1, 0x06, 0x06, .domain, .ro, 0, .volatile, 0x0100, 0, 0, [], 65535, "Trace ring window"⟩
  , ⟨0x3060, 64, 0x01, 0x01, .boolean, .rw, 0, .stored, 0x0100, 0, 1, [], 0, "Filter enable"⟩
  , ⟨0x3060, 64, 0x02, 0x02, .u8, .rw, 1, .stored, 0x0100, 1, 8, [], 0, "Tap code (0x01..0x08)"⟩
  , ⟨0x3060, 64, 0x03, 0x03, .u8, .rw, 255, .stored, 0x0100, 0, 255, [], 0, "Port code (0xFF any)"⟩
  , ⟨0x3060, 64, 0x04, 0x04, .u8, .rw, 255, .stored, 0x0100, 0, 255, [], 0, "VN mask"⟩
  , ⟨0x3060, 64, 0x05, 0x05, .u8, .rw, 0, .stored, 0x0100, 0, 255, [], 0, "Type value"⟩
  , ⟨0x3060, 64, 0x06, 0x06, .u8, .rw, 0, .stored, 0x0100, 0, 255, [], 0, "Type mask"⟩
  , ⟨0x3060, 64, 0x07, 0x07, .u64, .rw, 0, .stored, 0x0100, 0, 18446744073709551615, [], 0, "Address low, local pool byte address"⟩
  , ⟨0x3060, 64, 0x08, 0x08, .u64, .rw, 281474976710655, .stored, 0x0100, 0, 18446744073709551615, [], 0, "Address high, local pool byte address"⟩
  , ⟨0x3060, 64, 0x09, 0x09, .u8, .rw, 255, .stored, 0x0100, 0, 63, [255], 0, "VCS (0..63, 0xFF any)"⟩
  , ⟨0x3060, 64, 0x0A, 0x0A, .u8, .rw, 0, .stored, 0x0100, 0, 15, [], 0, "Sampling exponent n (0..15)"⟩
  , ⟨0x3060, 64, 0x0B, 0x0B, .u64, .ro, 0, .volatile, 0x0100, 0, 18446744073709551615, [], 0, "Filter matches"⟩
  , ⟨0x3060, 64, 0x0C, 0x0C, .boolean, .rw, 0, .stored, 0x0100, 0, 1, [], 0, "Address match enable"⟩
  , ⟨0x3100, 96, 0x01, 0x08, .u32, .rw, 768, .stored, 0x0100, 0, 262144, [], 0, "Staged egress limit, VN 0..7 (0..262,144)"⟩
  , ⟨0x3100, 96, 0x09, 0x10, .u32, .rw, 256, .stored, 0x0100, 0, 262144, [], 0, "Staged ingress limit, VN 0..7 (0..262,144)"⟩
  , ⟨0x3160, 16, 0x01, 0x08, .u32, .rw, 1536, .stored, 0x0100, 0, 262144, [], 0, "Staged Aulum egress limit, VN 0..7 (0..262,144)"⟩
  , ⟨0x3160, 16, 0x09, 0x10, .u32, .rw, 512, .stored, 0x0100, 0, 262144, [], 0, "Staged Aulum ingress limit, VN 0..7 (0..262,144)"⟩ ]

/-- Entries of indices 3000 to 3FFF (part 2). -/
def dictRows3_1 : List DictRow :=
  [ ⟨0x3200, 96, 0x01, 0x10, .u32, .ro, 0, .volatile, 0x0100, 0, 4294967295, [], 0, "Active limits of CPp, as staged layout"⟩
  , ⟨0x3260, 16, 0x01, 0x10, .u32, .ro, 0, .volatile, 0x0100, 0, 4294967295, [], 0, "Active limits of APa, as staged layout"⟩ ]

/-- Entries of indices 4000 to 4FFF (part 1). -/
def dictRows4_0 : List DictRow :=
  [ ⟨0x4001, 1, 0x01, 0x01, .u16, .const, 64, .none, 0x0100, 0, 65535, [], 0, "Backoff unit, ns"⟩
  , ⟨0x4001, 1, 0x02, 0x02, .u8, .const, 5, .none, 0x0100, 0, 255, [], 0, "Backoff exponent cap"⟩
  , ⟨0x4001, 1, 0x03, 0x03, .u8, .const, 8, .none, 0x0100, 0, 255, [], 0, "Nacks before SENIOR"⟩
  , ⟨0x4001, 1, 0x04, 0x04, .u8, .const, 8, .none, 0x0100, 0, 255, [], 0, "Reserved trackers per slice"⟩
  , ⟨0x4001, 1, 0x05, 0x05, .u16, .const, 2048, .none, 0x0100, 0, 65535, [], 0, "SENIOR retry interval, ns"⟩
  , ⟨0x4001, 1, 0x06, 0x06, .u16, .rw, 8192, .stored, 0x0100, 4096, 65535, [], 0, "Hold window, ns (4,096..65,535)"⟩
  , ⟨0x4002, 1, 0x01, 0x20, .u32, .ro, 0, .volatile, 0x0100, 0, 4294967295, [], 0, "Longest tracker lifetime since reset, ns, slice 0..31"⟩
  , ⟨0x4003, 1, 0x01, 0x20, .u8, .ro, 0, .volatile, 0x0100, 0, 3, [], 0, "REQ input pointer, slice 0..31 (0..3)"⟩
  , ⟨0x4004, 1, 0x01, 0x01, .u16, .const, 512, .none, 0x0100, 0, 65535, [], 0, "Proxy request table entries"⟩
  , ⟨0x4004, 1, 0x02, 0x02, .u16, .const, 256, .none, 0x0100, 0, 65535, [], 0, "Proxy eviction buffer entries"⟩
  , ⟨0x4004, 1, 0x03, 0x03, .u16, .const, 1024, .none, 0x0100, 0, 65535, [], 0, "Proxy snoop table entries"⟩
  , ⟨0x4004, 1, 0x04, 0x04, .u16, .const, 128, .none, 0x0100, 0, 65535, [], 0, "Proxy write buffer entries"⟩
  , ⟨0x4004, 1, 0x05, 0x05, .u16, .const, 256, .none, 0x0100, 0, 65535, [], 0, "Home data buffer lines per slice"⟩
  , ⟨0x4004, 1, 0x06, 0x06, .u8, .const, 16, .none, 0x0100, 0, 255, [], 0, "MemWr outstanding per slice per pool port"⟩
  , ⟨0x4010, 1, 0x01, 0x01, .u32, .const, 131072, .none, 0x0100, 0, 4294967295, [], 0, "Directory-cache entries per slice"⟩
  , ⟨0x4010, 1, 0x02, 0x02, .u8, .const, 16, .none, 0x0100, 0, 255, [], 0, "Directory-cache ways"⟩
  , ⟨0x4010, 1, 0x03, 0x03, .u32, .const, 1073741824, .none, 0x0100, 0, 4294967295, [], 0, "Snoop-filter entries"⟩
  , ⟨0x4010, 1, 0x04, 0x04, .u8, .const, 8, .none, 0x0100, 0, 255, [], 0, "Snoop-filter ways"⟩
  , ⟨0x4011, 1, 0x00, 0x00, .domain, .ro, 0, .volatile, 0x0100, 0, 0, [], 65535, "Remote holder set, 128 bytes, bit w for switch w"⟩
  , ⟨0x4012, 1, 0x01, 0x20, .u16, .ro, 0, .volatile, 0x0100, 0, 65535, [], 0, "Retired cache ways, mask, slice 0..31"⟩
  , ⟨0x4013, 1, 0x01, 0x01, .u8, .cmd, 0, .volatile, 0x0101, 0, 255, [], 0, "Partition commit"⟩
  , ⟨0x4013, 1, 0x02, 0x02, .u8, .ro, 0, .volatile, 0x0101, 0, 3, [], 0, "Partition commit status (0 idle, 1 clearing, 2 complete, 3 OVERLAP)"⟩
  , ⟨0x4014, 1, 0x01, 0x01, .boolean, .rw, 1, .stored, 0x0101, 0, 1, [], 0, "Partition enable (partition 0 reads 1; a write of 0 is refused)"⟩
  , ⟨0x4014, 8, 0x02, 0x02, .u64, .rw, 0, .stored, 0x0101, 0, 18446744073709551615, [], 0, "Partition range base"⟩
  , ⟨0x4014, 8, 0x03, 0x03, .u64, .rw, 0, .stored, 0x0101, 0, 18446744073709551615, [], 0, "Partition range limit"⟩
  , ⟨0x4014, 1, 0x04, 0x04, .u8, .rw, 22, .stored, 0x0101, 19, 22, [], 0, "Index bits k (19..22)"⟩
  , ⟨0x4014, 8, 0x05, 0x05, .u32, .rw, 0, .stored, 0x0101, 0, 4194303, [], 0, "Set base (0..4,194,303)"⟩
  , ⟨0x4015, 7, 0x01, 0x01, .boolean, .rw, 0, .stored, 0x0101, 0, 1, [], 0, "Partition enable (partition 0 reads 1; a write of 0 is refused)"⟩
  , ⟨0x4015, 7, 0x04, 0x04, .u8, .rw, 19, .stored, 0x0101, 19, 22, [], 0, "Index bits k (19..22)"⟩
  , ⟨0x4020, 1, 0x01, 0x01, .u8, .ro, 0, .volatile, 0x0100, 0, 255, [], 0, "Removal list entries in use"⟩
  , ⟨0x4020, 1, 0x02, 0x02, .domain, .ro, 0, .volatile, 0x0100, 1, 2, [], 65535, "Removal list, 16 entries: kind [31..30] (1 host, 2 switch), host ID or switch [15..0]"⟩
  , ⟨0x4020, 1, 0x03, 0x03, .u16, .cmd, 0, .volatile, 0x0100, 0, 65535, [], 0, "Declare peer lost (switch 0..1023)"⟩
  , ⟨0x4020, 1, 0x04, 0x04, .u8, .rw, 64, .stored, 0x0100, 1, 128, [], 0, "Removal pass rate, GB/s (1..128)"⟩
  , ⟨0x4020, 1, 0x05, 0x05, .u16, .ro, 0, .volatile, 0x0100, 0, 65535, [], 0, "Removal pass progress, 1/65,536 of all sets"⟩
  , ⟨0x4021, 1, 0x01, 0x01, .u64, .rw, 0, .volatile, 0x0100, 0, 18446744073709551615, [], 0, "Flush range base"⟩
  , ⟨0x4021, 1, 0x02, 0x02, .u64, .rw, 0, .volatile, 0x0100, 0, 18446744073709551615, [], 0, "Flush range limit"⟩
  , ⟨0x4021, 1, 0x03, 0x03, .u8, .cmd, 0, .volatile, 0x0100, 0, 255, [], 0, "Flush range execute"⟩
  , ⟨0x4021, 1, 0x04, 0x04, .u16, .ro, 0, .volatile, 0x0100, 0, 65535, [], 0, "Flush range progress, 1/65,536 of the walk"⟩
  , ⟨0x4022, 1, 0x01, 0x01, .boolean, .ro, 0, .volatile, 0x0200, 1, 1, [], 0, "Recovery active (1 while any range is in RECOVERY)"⟩
  , ⟨0x4022, 1, 0x02, 0x02, .u16, .rw, 10, .stored, 0x0200, 1, 3600, [], 0, "Recovery timeout, s (1..3,600)"⟩ ]

/-- Entries of indices 4000 to 4FFF (part 2). -/
def dictRows4_1 : List DictRow :=
  [ ⟨0x4022, 1, 0x03, 0x03, .u32, .rw, 86400, .stored, 0x0100, 3600, 604800, [], 0, "Marver interval, s (3,600..604,800)"⟩
  , ⟨0x4022, 1, 0x04, 0x04, .u16, .rw, 16, .stored, 0x0100, 1, 1000, [], 0, "Cache way retirement threshold, per hour (1..1,000)"⟩
  , ⟨0x4030, 64, 0x01, 0x01, .boolean, .rw, 0, .stored, 0x0200, 0, 1, [], 0, "Recovery range enable"⟩
  , ⟨0x4030, 64, 0x02, 0x02, .u64, .rw, 0, .stored, 0x0200, 0, 18446744073709551615, [], 0, "Recovery range base"⟩
  , ⟨0x4030, 64, 0x03, 0x03, .u64, .rw, 0, .stored, 0x0200, 0, 18446744073709551615, [], 0, "Recovery range limit"⟩
  , ⟨0x4030, 64, 0x04, 0x04, .u64, .rw, 0, .stored, 0x0200, 0, 18446744073709551615, [], 0, "Local VCS mask"⟩
  , ⟨0x4030, 64, 0x05, 0x05, .boolean, .rw, 1, .stored, 0x0200, 0, 1, [], 0, "Remote holders allowed"⟩
  , ⟨0x4030, 64, 0x06, 0x06, .u8, .ro, 0, .volatile, 0x0200, 0, 1, [], 0, "Range state (0 NORMAL, 1 RECOVERY)"⟩
  , ⟨0x4030, 64, 0x07, 0x07, .u64, .ro, 0, .volatile, 0x0200, 0, 18446744073709551615, [], 0, "Pending local VCSs"⟩
  , ⟨0x4030, 64, 0x08, 0x08, .u16, .ro, 0, .volatile, 0x0200, 0, 65535, [], 0, "Pending switches, count"⟩
  , ⟨0x4030, 64, 0x09, 0x09, .domain, .ro, 0, .volatile, 0x0200, 0, 0, [], 65535, "Pending switches, 128-byte mask"⟩
  , ⟨0x4030, 64, 0x0A, 0x0A, .u8, .cmd, 0, .volatile, 0x0200, 0, 255, [], 0, "Abandon VCS (0..63)"⟩
  , ⟨0x4030, 64, 0x0B, 0x0B, .u16, .cmd, 0, .volatile, 0x0200, 0, 65535, [], 0, "Abandon switch (0..1023)"⟩ ]

/-- Entries of indices 5000 to 5FFF (part 1). -/
def dictRows5_0 : List DictRow :=
  [ ⟨0x5000, 1, 0x01, 0x01, .u32, .const, 8388608, .none, 0x0100, 0, 4294967295, [], 0, "Remap entries"⟩
  , ⟨0x5000, 1, 0x02, 0x02, .u16, .const, 16384, .none, 0x0100, 0, 65535, [], 0, "Remap cache entries per slice"⟩
  , ⟨0x5010, 1, 0x01, 0x01, .u32, .rw, 0, .volatile, 0x0100, 0, 8388607, [], 0, "Remap entry select, granule (0..8,388,607)"⟩
  , ⟨0x5010, 1, 0x02, 0x02, .u64, .rw, 0, .volatile, 0x0100, 0, 18446744073709551615, [], 0, "Remap entry, bits [47..0]"⟩
  , ⟨0x5010, 1, 0x03, 0x03, .u8, .ro, 0, .volatile, 0x0100, 0, 2, [], 0, "Remap write status (0 idle, 1 applying, 2 complete)"⟩
  , ⟨0x5011, 1, 0x00, 0x00, .domain, .wo, 0, .volatile, 0x0100, 0, 0, [], 65535, "Remap bulk load, run records"⟩
  , ⟨0x5012, 1, 0x01, 0x01, .u8, .cmd, 0, .volatile, 0x0100, 0, 255, [], 0, "Open remap gate"⟩
  , ⟨0x5012, 1, 0x02, 0x02, .boolean, .ro, 0, .volatile, 0x0100, 0, 1, [], 0, "Remap gate (0 closed, 1 open)"⟩
  , ⟨0x5020, 1, 0x01, 0x01, .u8, .rw, 64, .stored, 0x0100, 1, 200, [], 0, "Move bandwidth limit, GB/s (1..200)"⟩
  , ⟨0x5020, 1, 0x02, 0x02, .u16, .const, 1000, .none, 0x0100, 0, 65535, [], 0, "Page hold limit, ns"⟩
  , ⟨0x5020, 1, 0x03, 0x03, .u8, .rw, 16, .stored, 0x0100, 1, 255, [], 0, "Page retry limit (1..255)"⟩
  , ⟨0x5020, 1, 0x04, 0x04, .u16, .ro, 0, .volatile, 0x0100, 0, 65535, [], 0, "Move records in use"⟩
  , ⟨0x5021, 1, 0x01, 0x01, .u32, .rw, 0, .volatile, 0x0100, 0, 8388607, [], 0, "Move: pool granule (0..8,388,607)"⟩
  , ⟨0x5021, 1, 0x02, 0x02, .u64, .rw, 0, .volatile, 0x0100, 0, 18446744073709551615, [], 0, "Move: destination, port [34..28], LD [27..24], device granule [23..0]"⟩
  , ⟨0x5021, 1, 0x03, 0x03, .u8, .rw, 0, .volatile, 0x0100, 0, 255, [], 0, "Move: options (bit 0 restore)"⟩
  , ⟨0x5021, 1, 0x04, 0x04, .u8, .cmd, 0, .volatile, 0x0100, 0, 255, [], 0, "Move execute"⟩
  , ⟨0x5021, 1, 0x05, 0x05, .u8, .ro, 0, .volatile, 0x0100, 0, 4, [], 0, "Move status (0 idle, 1 started, 2 BUSY, 3 TABLE_FULL, 4 WRONG_STATE)"⟩
  , ⟨0x5021, 1, 0x06, 0x06, .u16, .ro, 0, .volatile, 0x0100, 0, 65535, [], 0, "Move number assigned"⟩
  , ⟨0x5022, 1, 0x00, 0x00, .domain, .ro, 0, .volatile, 0x0100, 0, 0, [], 65535, "Move table, 1,024 records"⟩
  , ⟨0x5023, 1, 0x01, 0x01, .u16, .cmd, 0, .volatile, 0x0100, 0, 65535, [], 0, "Move cancel, move number (0..1,023)"⟩
  , ⟨0x5030, 1, 0x01, 0x01, .u8, .cmd, 0, .volatile, 0x0100, 0, 255, [], 0, "Guard commit"⟩
  , ⟨0x5030, 1, 0x02, 0x02, .u8, .ro, 0, .volatile, 0x0100, 0, 3, [], 0, "Guard commit status (0 idle, 1 swapping, 2 complete, 3 RULE_INVALID)"⟩
  , ⟨0x5030, 1, 0x03, 0x03, .u32, .ro, 0, .volatile, 0x0100, 0, 4294967295, [], 0, "Guard epoch"⟩
  , ⟨0x5030, 1, 0x04, 0x04, .u8, .cmd, 0, .volatile, 0x0100, 0, 255, [], 0, "Copy active set to shadow"⟩
  , ⟨0x5030, 1, 0x05, 0x05, .u8, .rw, 0, .volatile, 0x0100, 0, 1, [], 0, "Shadow default action (0 permit, 1 refuse)"⟩
  , ⟨0x5030, 1, 0x06, 0x06, .u8, .ro, 0, .stored, 0x0100, 0, 1, [], 0, "Active default action (0 permit, 1 refuse)"⟩
  , ⟨0x5031, 1, 0x00, 0x00, .domain, .rw, 0, .volatile, 0x0100, 0, 0, [], 65535, "Shadow rule set, 1,024 rules"⟩
  , ⟨0x5032, 1, 0x00, 0x00, .domain, .ro, 0, .stored, 0x0100, 0, 0, [], 65535, "Active rule set, 1,024 rules"⟩
  , ⟨0x5033, 1, 0x01, 0x11, .u32, .ro, 0, .volatile, 0x0100, 0, 4294967295, [], 0, "Guard stage epoch, stage 0..16"⟩
  , ⟨0x5100, 64, 0x01, 0x01, .boolean, .rw, 0, .stored, 0x0200, 0, 1, [], 0, "MIGRATE-GRANULE grant"⟩ ]

/-- Entries of indices 6000 to 6FFF (part 1). -/
def dictRows6_0 : List DictRow :=
  [ ⟨0x6000, 1, 0x01, 0x01, .u16, .rw, 0, .stored, 0x0100, 0, 1023, [], 0, "Own switch number"⟩
  , ⟨0x6000, 1, 0x02, 0x02, .u8, .rw, 0, .stored, 0x0200, 0, 1, [], 0, "Routing mode (0 source, 1 XY)"⟩
  , ⟨0x6000, 1, 0x03, 0x03, .u8, .rw, 1, .stored, 0x0200, 1, 32, [], 0, "Torus size Nx (1..32)"⟩
  , ⟨0x6000, 1, 0x04, 0x04, .u8, .rw, 1, .stored, 0x0200, 1, 32, [], 0, "Torus size Ny (1..32)"⟩
  , ⟨0x6000, 1, 0x05, 0x05, .u32, .ro, 0, .volatile, 0x0200, 0, 4294967295, [], 0, "Switch epoch"⟩
  , ⟨0x6001, 1, 0x00, 0x00, .domain, .rw, 0, .stored, 0x0100, 0, 0, [], 65535, "Member mask, 128 bytes, bit w for switch w"⟩
  , ⟨0x6010, 1, 0x00, 0x00, .domain, .rw, 0, .stored, 0x0100, 0, 0, [], 65535, "Link table, inactive bank, 15 × 16 bits"⟩
  , ⟨0x6011, 1, 0x00, 0x00, .domain, .rw, 0, .stored, 0x0100, 0, 0, [], 65535, "Source route table, inactive bank, 32 × 64 bits"⟩
  , ⟨0x6012, 1, 0x00, 0x00, .domain, .ro, 0, .stored, 0x0100, 0, 0, [], 65535, "Link table, active bank"⟩
  , ⟨0x6013, 1, 0x00, 0x00, .domain, .ro, 0, .stored, 0x0100, 0, 0, [], 65535, "Source route table, active bank"⟩
  , ⟨0x6100, 16, 0x01, 0x01, .boolean, .rw, 0, .stored, 0x0100, 0, 1, [], 0, "Port enable"⟩
  , ⟨0x6100, 16, 0x02, 0x02, .u8, .rw, 2, .stored, 0x0200, 1, 2, [], 0, "Highest version offered (1..2)"⟩
  , ⟨0x6100, 16, 0x10, 0x10, .u8, .ro, 0, .volatile, 0x0100, 0, 4, [], 0, "Link state (0 DISABLED, 1 DOWN, 2 TRAINING, 3 UP, 4 PAUSED)"⟩
  , ⟨0x6100, 16, 0x11, 0x11, .u8, .ro, 0, .volatile, 0x0200, 0, 255, [], 0, "Version in use"⟩
  , ⟨0x6100, 16, 0x12, 0x12, .u8, .ro, 0, .volatile, 0x0100, 0, 255, [], 0, "Width (4, 2, 1)"⟩
  , ⟨0x6100, 16, 0x13, 0x13, .u16, .ro, 0, .volatile, 0x0100, 0, 65535, [], 0, "Partner switch number"⟩
  , ⟨0x6100, 16, 0x14, 0x14, .u8, .ro, 0, .volatile, 0x0100, 0, 255, [], 0, "Partner port"⟩
  , ⟨0x6100, 16, 0x15, 0x15, .u32, .ro, 0, .volatile, 0x0100, 0, 4294967295, [], 0, "Own port epoch"⟩
  , ⟨0x6100, 16, 0x16, 0x16, .u32, .ro, 0, .volatile, 0x0100, 0, 4294967295, [], 0, "Recorded partner port epoch"⟩
  , ⟨0x6100, 16, 0x17, 0x17, .u32, .ro, 0, .volatile, 0x0100, 0, 4294967295, [], 0, "Lane map: physical lane of logical lane i at [8i + 7..8i]"⟩
  , ⟨0x6100, 16, 0x18, 0x18, .u16, .ro, 0, .volatile, 0x0100, 0, 65535, [], 0, "Unacknowledged flits"⟩
  , ⟨0x6120, 1, 0x01, 0x01, .u16, .const, 2048, .none, 0x0100, 0, 65535, [], 0, "Replay buffer, flits"⟩
  , ⟨0x6120, 1, 0x02, 0x02, .u8, .const, 16, .none, 0x0100, 0, 255, [], 0, "Flits per ack point"⟩
  , ⟨0x6120, 1, 0x03, 0x03, .u16, .rw, 200, .stored, 0x0100, 50, 1000, [], 0, "Ack timer, ns (50..1,000)"⟩
  , ⟨0x6120, 1, 0x04, 0x04, .u16, .rw, 1000, .stored, 0x0100, 500, 60000, [], 0, "Replay timer, ns (500..60,000)"⟩
  , ⟨0x6120, 1, 0x05, 0x05, .u16, .rw, 10, .stored, 0x0100, 1, 1000, [], 0, "Retrain interval, ms (1..1,000)"⟩
  , ⟨0x6120, 1, 0x06, 0x06, .u8, .const, 16, .none, 0x0100, 0, 255, [], 0, "Replay limit"⟩
  , ⟨0x6130, 1, 0x01, 0x01, .u16, .rw, 32, .stored, 0x0200, 1, 65535, [], 0, "Lane parity threshold (1..65,535)"⟩
  , ⟨0x6130, 1, 0x02, 0x02, .u16, .rw, 100, .stored, 0x0200, 1, 10000, [], 0, "Parity window, ms (1..10,000)"⟩
  , ⟨0x6130, 1, 0x03, 0x03, .boolean, .rw, 1, .stored, 0x0200, 0, 1, [], 0, "Sparing enable"⟩
  , ⟨0x6140, 1, 0x01, 0x01, .u32, .rw, 1000, .stored, 0x0200, 100, 100000, [], 0, "Restart grace, µs (100..100,000)"⟩
  , ⟨0x6140, 1, 0x02, 0x02, .u16, .rw, 100, .stored, 0x0200, 10, 10000, [], 0, "Quarantine, ms (10..10,000)"⟩ ]

/-- Entries of indices 7000 to 7FFF (part 1). -/
def dictRows7_0 : List DictRow :=
  [ ⟨0x7000, 1, 0x01, 0x01, .u16, .const, 4096, .none, 0x0100, 0, 65535, [], 0, "Submission queues"⟩
  , ⟨0x7000, 1, 0x02, 0x02, .u16, .const, 1024, .none, 0x0100, 0, 65535, [], 0, "Completion queues"⟩
  , ⟨0x7000, 1, 0x03, 0x03, .u32, .const, 8388608, .none, 0x0100, 0, 4294967295, [], 0, "Mover cache bytes"⟩
  , ⟨0x7000, 1, 0x04, 0x04, .u8, .const, 8, .none, 0x0100, 0, 255, [], 0, "Prefetch depth"⟩
  , ⟨0x7000, 1, 0x05, 0x05, .u8, .const, 8, .none, 0x0100, 0, 255, [], 0, "Descriptors executing per SQ"⟩
  , ⟨0x7000, 1, 0x06, 0x06, .u8, .const, 16, .none, 0x0100, 0, 255, [], 0, "Consumer write-back interval"⟩
  , ⟨0x7000, 1, 0x07, 0x07, .u8, .const, 64, .none, 0x0100, 0, 255, [], 0, "Hold entries per CQ"⟩
  , ⟨0x7000, 1, 0x08, 0x08, .u16, .const, 16384, .none, 0x0100, 0, 65535, [], 0, "Hold pool entries"⟩
  , ⟨0x7001, 1, 0x01, 0x01, .u16, .rw, 0, .volatile, 0x0100, 0, 4095, [], 0, "SQ select, global number (0..4,095)"⟩
  , ⟨0x7001, 1, 0x02, 0x02, .u32, .ro, 0, .volatile, 0x0100, 0, 4294967295, [], 0, "Selected SQ: owner function [31..16], local number [11..0]"⟩
  , ⟨0x7001, 1, 0x03, 0x03, .u8, .ro, 0, .volatile, 0x0100, 0, 255, [], 0, "Selected SQ: state, as R276"⟩
  , ⟨0x7001, 1, 0x04, 0x04, .u32, .ro, 0, .volatile, 0x0100, 0, 4294967295, [], 0, "Selected SQ: last producer index read"⟩
  , ⟨0x7001, 1, 0x05, 0x05, .u32, .ro, 0, .volatile, 0x0100, 0, 4294967295, [], 0, "Selected SQ: consumer index"⟩
  , ⟨0x7002, 1, 0x01, 0x01, .u16, .rw, 0, .volatile, 0x0100, 0, 1023, [], 0, "CQ select, global number (0..1,023)"⟩
  , ⟨0x7002, 1, 0x02, 0x02, .u8, .ro, 0, .volatile, 0x0100, 0, 255, [], 0, "Selected CQ: state, as R276; hold full at [4]"⟩
  , ⟨0x7002, 1, 0x03, 0x03, .u8, .ro, 0, .volatile, 0x0100, 0, 255, [], 0, "Selected CQ: slots taken"⟩
  , ⟨0x7002, 1, 0x04, 0x04, .u32, .ro, 0, .volatile, 0x0100, 0, 4294967295, [], 0, "Selected CQ: producer index"⟩
  , ⟨0x7003, 1, 0x01, 0x01, .u8, .cmd, 0, .volatile, 0x0100, 0, 255, [], 0, "Flush whole mover cache"⟩
  , ⟨0x7003, 1, 0x02, 0x02, .u16, .ro, 0, .volatile, 0x0100, 0, 65535, [], 0, "Hold pool entries in use"⟩
  , ⟨0x7020, 1, 0x01, 0x04, .u16, .rw, 0, .volatile, 0x0100, 0, 65535, [], 0, "Queue move: kind, global number, new owner, new local number"⟩
  , ⟨0x7020, 1, 0x05, 0x05, .u8, .cmd, 0, .volatile, 0x0100, 0, 255, [], 0, "Queue move execute"⟩
  , ⟨0x7020, 1, 0x06, 0x06, .u8, .ro, 0, .volatile, 0x0100, 0, 4, [], 0, "Queue move status (0 done, 1 QUEUE_ACTIVE, 2 LOCAL_TAKEN, 3 HOLD_PENDING, 4 BUSY)"⟩
  , ⟨0x7021, 1, 0x01, 0x03, .u16, .rw, 0, .volatile, 0x0100, 0, 65535, [], 0, "Share move: source, target, amount"⟩
  , ⟨0x7021, 1, 0x04, 0x04, .u8, .cmd, 0, .volatile, 0x0100, 0, 255, [], 0, "Share move execute"⟩
  , ⟨0x7022, 1, 0x01, 0x02, .u16, .rw, 0, .volatile, 0x0100, 0, 65535, [], 0, "Counter set move: set, new function"⟩
  , ⟨0x7022, 1, 0x03, 0x03, .u8, .cmd, 0, .volatile, 0x0100, 0, 255, [], 0, "Counter set move execute"⟩
  , ⟨0x7400, 16, 0x01, 0x01, .u16, .rw, 65535, .stored, 0x0100, 0, 1087, [65535], 0, "Check unit owner function (0..1,087, 0xFFFF none)"⟩
  , ⟨0x7400, 16, 0x02, 0x02, .domain, .rw, 0, .volatile, 0x0100, 0, 0, [], 65535, "Check unit context, 64 bytes"⟩
  , ⟨0x7400, 16, 0x03, 0x03, .boolean, .ro, 0, .volatile, 0x0100, 0, 1, [], 0, "Check unit busy"⟩
  , ⟨0x7700, 64, 0x18, 0x18, .u8, .rw, 0, .volatile, 0x0200, 0, 63, [], 0, "Tracked VCS (0..63)"⟩
  , ⟨0x7700, 64, 0x10, 0x10, .boolean, .rw, 0, .volatile, 0x0200, 0, 1, [], 0, "Log enable"⟩
  , ⟨0x7700, 64, 0x11, 0x11, .u8, .rw, 0, .volatile, 0x0200, 0, 63, [], 0, "Ring VCS (0..63)"⟩
  , ⟨0x7700, 64, 0x12, 0x12, .u64, .rw, 0, .volatile, 0x0200, 0, 18446744073709551615, [], 0, "LCB address"⟩
  , ⟨0x7700, 64, 0x13, 0x13, .u64, .rw, 0, .volatile, 0x0200, 0, 18446744073709551615, [], 0, "Window base"⟩
  , ⟨0x7700, 64, 0x14, 0x14, .u64, .rw, 0, .volatile, 0x0200, 0, 18446744073709551615, [], 0, "Window length"⟩
  , ⟨0x7700, 64, 0x15, 0x15, .u8, .ro, 0, .volatile, 0x0200, 0, 255, [], 0, "Log state (0 OFF, 1 LOGGING, 2 OVERFLOW, 3 RESETTING)"⟩
  , ⟨0x7700, 64, 0x16, 0x16, .u8, .cmd, 0, .volatile, 0x0200, 0, 255, [], 0, "Reset bitmap"⟩
  , ⟨0x7700, 64, 0x17, 0x17, .u64, .ro, 0, .volatile, 0x0200, 0, 18446744073709551615, [], 0, "Writes outside the window"⟩
  , ⟨0x7800, 1088, 0x01, 0x01, .u32, .rw, 4278190080, .stored, 0x0100, 0, 4294967295, [], 0, "Assignment: VCS [31..24] (0xFF none), slot [10..0]; ro for base functions"⟩
  , ⟨0x7800, 1088, 0x02, 0x02, .u8, .rw, 2, .stored, 0x0200, 1, 2, [], 0, "Format limit (1..2)"⟩ ]

/-- Entries of indices 7000 to 7FFF (part 2). -/
def dictRows7_1 : List DictRow :=
  [ ⟨0x7800, 1088, 0x03, 0x03, .u16, .rw, 256, .stored, 0x0100, 0, 65535, [], 0, "Bandwidth weight (0..65,535)"⟩
  , ⟨0x7800, 1088, 0x04, 0x04, .u16, .ro, 0, .volatile, 0x0100, 0, 65535, [], 0, "Counter set (0xFFFF none)"⟩
  , ⟨0x7800, 1088, 0x05, 0x05, .u8, .cmd, 0, .volatile, 0x0100, 0, 255, [], 0, "Function reset"⟩
  , ⟨0x7800, 1088, 0x06, 0x06, .boolean, .ro, 0, .volatile, 0x0100, 0, 1, [], 0, "Reset pending"⟩
  , ⟨0x7800, 1088, 0x07, 0x07, .u16, .ro, 0, .volatile, 0x0100, 0, 65535, [], 0, "SQs owned"⟩
  , ⟨0x7800, 1088, 0x08, 0x08, .u16, .ro, 0, .volatile, 0x0100, 0, 65535, [], 0, "CQs owned"⟩
  , ⟨0x7800, 1024, 0x10, 0x10, .boolean, .rw, 0, .volatile, 0x0200, 0, 1, [], 0, "Log enable"⟩
  , ⟨0x7800, 1024, 0x11, 0x11, .u8, .rw, 0, .volatile, 0x0200, 0, 63, [], 0, "Ring VCS (0..63)"⟩
  , ⟨0x7800, 1024, 0x12, 0x12, .u64, .rw, 0, .volatile, 0x0200, 0, 18446744073709551615, [], 0, "LCB address"⟩
  , ⟨0x7800, 1024, 0x13, 0x13, .u64, .rw, 0, .volatile, 0x0200, 0, 18446744073709551615, [], 0, "Window base"⟩
  , ⟨0x7800, 1024, 0x14, 0x14, .u64, .rw, 0, .volatile, 0x0200, 0, 18446744073709551615, [], 0, "Window length"⟩
  , ⟨0x7800, 1024, 0x15, 0x15, .u8, .ro, 0, .volatile, 0x0200, 0, 255, [], 0, "Log state (0 OFF, 1 LOGGING, 2 OVERFLOW, 3 RESETTING)"⟩
  , ⟨0x7800, 1024, 0x16, 0x16, .u8, .cmd, 0, .volatile, 0x0200, 0, 255, [], 0, "Reset bitmap"⟩
  , ⟨0x7800, 1024, 0x17, 0x17, .u64, .ro, 0, .volatile, 0x0200, 0, 18446744073709551615, [], 0, "Writes outside the window"⟩
  , ⟨0x7C00, 64, 0x09, 0x09, .u16, .rw, 0, .stored, 0x0100, 0, 1024, [], 0, "VF slot count (0..1,024)"⟩ ]

/-- Entries of indices 8000 to 8FFF (part 1). -/
def dictRows8_0 : List DictRow :=
  [ ⟨0x8000, 1, 0x01, 0x01, .u16, .ro, 0, .volatile, 0x0100, 0, 65535, [], 0, "VIN12 voltage, mV"⟩
  , ⟨0x8000, 1, 0x02, 0x02, .u16, .ro, 0, .volatile, 0x0100, 0, 65535, [], 0, "VIN12 current, mA"⟩
  , ⟨0x8000, 1, 0x03, 0x03, .u16, .ro, 0, .volatile, 0x0100, 0, 65535, [], 0, "VAUX voltage, mV"⟩
  , ⟨0x8000, 1, 0x04, 0x04, .u16, .ro, 0, .volatile, 0x0100, 0, 65535, [], 0, "VAUX current, mA"⟩
  , ⟨0x8000, 1, 0x05, 0x05, .u16, .ro, 0, .volatile, 0x0100, 0, 65535, [], 0, "Module input power, 100 µs average, W"⟩
  , ⟨0x8003, 1, 0x01, 0x01, .u8, .const, 10, .none, 0x0100, 0, 255, [], 0, "Slot controller tick, µs"⟩
  , ⟨0x8010, 1, 0x01, 0x01, .u8, .ro, 0, .volatile, 0x0100, 1, 9, [], 0, "Start-up step (1..9; 9 READY)"⟩
  , ⟨0x8010, 1, 0x02, 0x02, .domain, .ro, 0, .volatile, 0x0100, 0, 0, [], 65535, "Start-up step times, 9 × 64-bit device time"⟩
  , ⟨0x8010, 1, 0x03, 0x03, .u16, .rw, 20, .stored, 0x0100, 10, 1000, [], 0, "VIN12 qualification delay, ms (10..1,000)"⟩
  , ⟨0x8010, 1, 0x04, 0x04, .boolean, .rw, 1, .stored, 0x0100, 0, 1, [], 0, "Main-domain restart enable"⟩
  , ⟨0x8020, 1, 0x01, 0x01, .u16, .rw, 1600, .stored, 0x0100, 1600, 2200, [], 0, "Fabric clock minimum, MHz"⟩
  , ⟨0x8020, 1, 0x02, 0x02, .u16, .rw, 2200, .stored, 0x0100, 1600, 2200, [], 0, "Fabric clock maximum, MHz"⟩
  , ⟨0x8021, 1, 0x01, 0x24, .u16, .ro, 0, .volatile, 0x0100, 0, 65535, [], 0, "Ring island clock now, MHz, island 0..35"⟩
  , ⟨0x8030, 1, 0x01, 0x01, .u16, .ro, 0, .volatile, 0x0100, 0, 65535, [], 0, "Reservoir voltage, mV"⟩
  , ⟨0x8030, 1, 0x02, 0x02, .u32, .ro, 0, .volatile, 0x0100, 0, 4294967295, [], 0, "Usable energy Eu, µJ"⟩
  , ⟨0x8030, 1, 0x03, 0x03, .u16, .ro, 0, .volatile, 0x0100, 0, 65535, [], 0, "Measured capacitance, µF"⟩
  , ⟨0x8030, 1, 0x04, 0x04, .u8, .ro, 0, .stored, 0x0100, 0, 2, [], 0, "Last crash snapshot (0 none, 1 written, 2 refused)"⟩
  , ⟨0x8030, 1, 0x05, 0x05, .u32, .ro, 0, .volatile, 0x0100, 0, 4294967295, [], 0, "Stored image size, bytes"⟩
  , ⟨0x8040, 1, 0x01, 0x10, .u8, .rw, 0, .stored, 0x0100, 0, 2, [], 0, "CXL reference mode, island 0..15 (0 CC, 1 SRNS, 2 SRIS)"⟩
  , ⟨0x8041, 1, 0x01, 0x10, .boolean, .ro, 0, .volatile, 0x0100, 0, 1, [], 0, "REFCLK_CXLk stable, island 0..15"⟩
  , ⟨0x8042, 1, 0x01, 0x04, .boolean, .ro, 0, .volatile, 0x0100, 0, 1, [], 0, "REFCLK_AULd stable, die 0..3"⟩
  , ⟨0x8043, 1, 0x01, 0x01, .boolean, .ro, 0, .volatile, 0x0100, 0, 1, [], 0, "REFCLK_SYS stable"⟩
  , ⟨0x8100, 1, 0x01, 0x01, .u16, .rw, 560, .stored, 0x0100, 250, 560, [], 0, "Power cap, W (250..560)"⟩
  , ⟨0x8100, 1, 0x02, 0x02, .u8, .rw, 10, .stored, 0x0100, 0, 50, [], 0, "Guard margin, W (0..50)"⟩
  , ⟨0x8100, 1, 0x03, 0x03, .u8, .const, 100, .none, 0x0100, 0, 255, [], 0, "Epoch, µs"⟩
  , ⟨0x8100, 1, 0x04, 0x04, .u16, .const, 2000, .none, 0x0100, 0, 65535, [], 0, "First-use period, ms"⟩
  , ⟨0x8100, 1, 0x05, 0x05, .u8, .const, 10, .none, 0x0100, 0, 255, [], 0, "Token energy, nJ"⟩
  , ⟨0x8100, 1, 0x06, 0x06, .u8, .const, 115, .none, 0x0100, 0, 255, [], 0, "Over-temperature limit, °C"⟩
  , ⟨0x8101, 1, 0x01, 0x01, .u16, .ro, 0, .volatile, 0x0100, 0, 65535, [], 0, "Measured power, last epoch, W"⟩
  , ⟨0x8101, 1, 0x02, 0x02, .u16, .ro, 0, .volatile, 0x0100, 0, 65535, [], 0, "Forecast Pfc, W"⟩
  , ⟨0x8101, 1, 0x03, 0x03, .u32, .ro, 0, .volatile, 0x0100, 0, 4294967295, [], 0, "Budget B, tokens"⟩
  , ⟨0x8101, 1, 0x04, 0x04, .u16, .ro, 0, .volatile, 0x0100, 0, 65535, [], 0, "Thermal factor F, 1/256"⟩
  , ⟨0x8102, 1, 0x01, 0x01, .u32, .rw, 1000, .stored, 0x0100, 0, 4294967295, [], 0, "Class minimum, B0..B3, tokens"⟩
  , ⟨0x8102, 1, 0x02, 0x02, .u32, .rw, 1000, .stored, 0x0100, 0, 4294967295, [], 0, "Class minimum, B0..B3, tokens"⟩
  , ⟨0x8102, 1, 0x03, 0x03, .u32, .rw, 2000, .stored, 0x0100, 0, 4294967295, [], 0, "Class minimum, B0..B3, tokens"⟩
  , ⟨0x8102, 1, 0x04, 0x04, .u32, .rw, 500, .stored, 0x0100, 0, 4294967295, [], 0, "Class minimum, B0..B3, tokens"⟩
  , ⟨0x8103, 1, 0x01, 0x04, .u32, .rw, 4294967295, .stored, 0x0100, 0, 4294967295, [], 0, "Class ceiling, B0..B3, tokens"⟩
  , ⟨0x8104, 1, 0x01, 0x04, .u32, .ro, 0, .volatile, 0x0100, 0, 4294967295, [], 0, "Class grant, last epoch, B0..B3"⟩
  , ⟨0x8105, 1, 0x00, 0x00, .domain, .ro, 0, .none, 0x0100, 0, 0, [], 65535, "Cost table (R359)"⟩
  , ⟨0x8110, 1, 0x01, 0x40, .i16, .ro, 0, .volatile, 0x0100, 0, 65535, [], 0, "Sensor temperature, °C"⟩ ]

/-- Entries of indices 8000 to 8FFF (part 2). -/
def dictRows8_1 : List DictRow :=
  [ ⟨0x8111, 1, 0x01, 0x40, .u8, .rw, 95, .stored, 0x0100, 0, 255, [], 0, "Sensor target, °C"⟩
  , ⟨0x8112, 1, 0x01, 0x40, .u8, .rw, 105, .stored, 0x0100, 0, 110, [], 0, "Sensor hard limit, °C (up to 110)"⟩
  , ⟨0x8113, 1, 0x01, 0x01, .boolean, .ro, 0, .volatile, 0x0100, 0, 1, [], 0, "Thermal response active"⟩
  , ⟨0x8200, 48, 0x01, 0x01, .boolean, .rw, 0, .stored, 0x0100, 0, 1, [], 0, "Channel enable"⟩
  , ⟨0x8200, 48, 0x02, 0x02, .boolean, .rw, 1, .stored, 0x0100, 0, 1, [], 0, "Power request (0 off, 1 on)"⟩
  , ⟨0x8200, 48, 0x03, 0x03, .u16, .rw, 10200, .stored, 0x0100, 8000, 12000, [], 0, "Undervoltage limit, mV (8,000..12,000)"⟩
  , ⟨0x8200, 48, 0x04, 0x04, .u16, .rw, 13800, .stored, 0x0100, 12000, 15000, [], 0, "Overvoltage limit, mV (12,000..15,000)"⟩
  , ⟨0x8200, 48, 0x05, 0x05, .u16, .rw, 200, .stored, 0x0100, 50, 2000, [], 0, "Insertion delay, ms (50..2,000)"⟩
  , ⟨0x8200, 48, 0x06, 0x06, .u16, .rw, 1000, .stored, 0x0100, 100, 10000, [], 0, "Ramp rate, mV/ms (100..10,000)"⟩
  , ⟨0x8200, 48, 0x07, 0x07, .u8, .rw, 50, .stored, 0x0100, 5, 200, [], 0, "Ramp timeout, ms (5..200)"⟩
  , ⟨0x8200, 48, 0x08, 0x08, .u32, .rw, 12500, .stored, 0x0100, 0, 4294967295, [], 0, "Current limit, mA"⟩
  , ⟨0x8200, 48, 0x09, 0x09, .u32, .rw, 2000, .stored, 0x0100, 100, 100000, [], 0, "Shunt, µΩ (100..100,000)"⟩
  , ⟨0x8200, 48, 0x0A, 0x0A, .u16, .rw, 2000, .stored, 0x0100, 100, 20000, [], 0, "Fault timer, µs (100..20,000)"⟩
  , ⟨0x8200, 48, 0x0B, 0x0B, .u16, .rw, 1000, .stored, 0x0100, 100, 60000, [], 0, "Retry timer, ms (100..60,000)"⟩
  , ⟨0x8200, 48, 0x0C, 0x0C, .u8, .rw, 5, .stored, 0x0100, 0, 255, [], 0, "Retry limit (0 unlimited, 1..255)"⟩
  , ⟨0x8200, 48, 0x0D, 0x0D, .u8, .rw, 0, .stored, 0x0100, 0, 1, [], 0, "Temperature source (0 model, 1 NTC)"⟩
  , ⟨0x8200, 48, 0x0E, 0x0E, .u8, .rw, 125, .stored, 0x0100, 60, 175, [], 0, "FET temperature limit, °C (60..175)"⟩
  , ⟨0x8200, 48, 0x0F, 0x0F, .u16, .rw, 400, .stored, 0x0100, 10, 10000, [], 0, "Model energy limit, mJ (10..10,000)"⟩
  , ⟨0x8200, 48, 0x10, 0x10, .u16, .rw, 100, .stored, 0x0100, 1, 10000, [], 0, "Model time constant, ms (1..10,000)"⟩
  , ⟨0x8200, 48, 0x11, 0x11, .u16, .rw, 300, .stored, 0x0100, 200, 5000, [], 0, "Warning lead, µs (200..5,000)"⟩
  , ⟨0x8200, 48, 0x12, 0x12, .u8, .rw, 0, .stored, 0x0100, 0, 1, [], 0, "Safe-state action (0 keep, 1 drop)"⟩
  , ⟨0x8200, 48, 0x13, 0x13, .boolean, .rw, 1, .stored, 0x0100, 0, 1, [], 0, "Auxiliary 3.3 V enable"⟩
  , ⟨0x8200, 48, 0x14, 0x14, .u8, .cmd, 0, .volatile, 0x0100, 0, 255, [], 0, "Clear latch"⟩
  , ⟨0x8200, 48, 0x18, 0x18, .u8, .ro, 0, .volatile, 0x0100, 0, 8, [], 0, "State (0 DISABLED, 1 EMPTY, 2 QUALIFYING, 3 IDLE, 4 RAMPING, 5 ON, 6 LIMITING, 7 TRIPPED, 8 LATCHED)"⟩
  , ⟨0x8200, 48, 0x19, 0x19, .u16, .ro, 0, .volatile, 0x0100, 0, 65535, [], 0, "Input voltage, mV"⟩
  , ⟨0x8200, 48, 0x1A, 0x1A, .u16, .ro, 0, .volatile, 0x0100, 0, 65535, [], 0, "Output voltage, mV"⟩
  , ⟨0x8200, 48, 0x1B, 0x1B, .u32, .ro, 0, .volatile, 0x0100, 0, 4294967295, [], 0, "Current, mA"⟩
  , ⟨0x8200, 48, 0x1C, 0x1C, .i16, .ro, 0, .volatile, 0x0100, 0, 65535, [], 0, "FET temperature, °C"⟩
  , ⟨0x8200, 48, 0x1D, 0x1D, .u8, .ro, 0, .volatile, 0x0100, 0, 6, [], 0, "Last cause (0 none, 1 CURRENT, 2 TEMP, 3 RAMP, 4 OUTPUT, 5 GATE, 6 RETRY)"⟩
  , ⟨0x8200, 48, 0x1E, 0x1E, .u8, .ro, 0, .volatile, 0x0100, 0, 255, [], 0, "Retry count"⟩ ]

/-- Entries of indices 9000 to 9FFF (part 1). -/
def dictRows9_0 : List DictRow :=
  [ ⟨0x9000, 1, 0x01, 0x01, .u16, .rw, 100, .stored, 0x0100, 10, 10000, [], 0, "Bus timeout, µs (10..10,000)"⟩
  , ⟨0x9000, 1, 0x02, 0x02, .u8, .const, 6, .none, 0x0100, 0, 255, [], 0, "Masters"⟩
  , ⟨0x9000, 1, 0x03, 0x03, .u8, .const, 16, .none, 0x0100, 0, 255, [], 0, "Outstanding transactions per master"⟩
  , ⟨0x9001, 1, 0x01, 0x06, .u8, .ro, 0, .volatile, 0x0100, 0, 255, [], 0, "Transactions outstanding now, master 0..5"⟩
  , ⟨0x9002, 1, 0x01, 0x04, .u8, .ro, 0, .volatile, 0x0100, 0, 1, [], 0, "MPU active set, core 0..3 (0 A, 1 B)"⟩
  , ⟨0x9003, 1, 0x01, 0x04, .u16, .ro, 0, .volatile, 0x0100, 0, 65535, [], 0, "MPU epoch, core 0..3"⟩
  , ⟨0x9004, 1, 0x01, 0x01, .u64, .ro, 0, .volatile, 0x0100, 0, 18446744073709551615, [], 0, "Last bus error: master [42..40], kind [35..32], address [31..0]"⟩
  , ⟨0x9005, 1, 0x01, 0x04, .u8, .ro, 0, .volatile, 0x0100, 0, 2, [], 0, "Privilege level now, core 0..3 (0 P0, 1 P1, 2 P2)"⟩
  , ⟨0x9006, 1, 0x01, 0x01, .u16, .ro, 0, .volatile, 0x0100, 0, 65535, [], 0, "Aperture select, fabric address [39..30]"⟩ ]

/-- Entries of indices A000 to AFFF (part 1). -/
def dictRowsA_0 : List DictRow :=
  [ ⟨0xA000, 1, 0x01, 0x01, .u16, .const, 512, .none, 0x0100, 0, 65535, [], 0, "Fault sources"⟩
  , ⟨0xA010, 1, 0x00, 0x00, .domain, .rw, 0, .stored, 0x0100, 0, 0, [], 65535, "Source configuration, 512 × 64-bit records (R422)"⟩
  , ⟨0xA011, 1, 0x00, 0x00, .domain, .ro, 0, .volatile, 0x0100, 0, 0, [], 65535, "Sticky status, 64 bytes, bit n for Fn"⟩
  , ⟨0xA012, 1, 0x01, 0x01, .u16, .cmd, 0, .volatile, 0x0100, 0, 65535, [], 0, "Clear sticky bit (0..511, 0xFFFF all)"⟩
  , ⟨0xA020, 1, 0x01, 0x01, .u16, .cmd, 0, .volatile, 0x0100, 0, 65535, [], 0, "Acknowledge C2 source (0..511)"⟩
  , ⟨0xA020, 1, 0x02, 0x02, .domain, .ro, 0, .volatile, 0x0100, 0, 0, [], 65535, "C2 timers running, 64 bytes"⟩
  , ⟨0xA020, 1, 0x03, 0x03, .u16, .ro, 65535, .volatile, 0x0100, 0, 65535, [], 0, "Last interrupting source"⟩
  , ⟨0xA030, 1, 0x01, 0x01, .u16, .ro, 65535, .volatile, 0x0100, 0, 65535, [], 0, "First-error source (0xFFFF none)"⟩
  , ⟨0xA030, 1, 0x02, 0x02, .u64, .ro, 0, .volatile, 0x0100, 0, 18446744073709551615, [], 0, "First-error time"⟩
  , ⟨0xA030, 1, 0x03, 0x03, .u64, .ro, 0, .volatile, 0x0100, 0, 18446744073709551615, [], 0, "First-error syndrome"⟩
  , ⟨0xA030, 1, 0x04, 0x04, .boolean, .ro, 0, .volatile, 0x0100, 0, 1, [], 0, "Overflow"⟩
  , ⟨0xA030, 1, 0x05, 0x05, .u8, .cmd, 0, .volatile, 0x0100, 0, 255, [], 0, "Clear first-error latch"⟩
  , ⟨0xA040, 1, 0x01, 0x01, .u8, .cmd, 0, .volatile, 0x0100, 0, 255, [], 0, "Injection lock (0 lock, 1 unlock)"⟩
  , ⟨0xA040, 1, 0x02, 0x02, .boolean, .ro, 0, .volatile, 0x0100, 0, 1, [], 0, "Injection unlocked"⟩
  , ⟨0xA040, 1, 0x04, 0x04, .u32, .cmd, 0, .volatile, 0x0100, 0, 4294967295, [], 0, "Inject: mode [17..16], source [15..0]"⟩
  , ⟨0xA040, 1, 0x05, 0x05, .domain, .ro, 0, .volatile, 0x0100, 0, 0, [], 65535, "Continuous injection, 64 bytes"⟩
  , ⟨0xA050, 1, 0x01, 0x01, .u8, .cmd, 0, .volatile, 0x0100, 0, 255, [], 0, "Enter safe state"⟩
  , ⟨0xA050, 1, 0x02, 0x02, .u8, .cmd, 0, .volatile, 0x0100, 0, 255, [], 0, "Reset FJQ-9640"⟩
  , ⟨0xA050, 1, 0x03, 0x03, .boolean, .ro, 0, .volatile, 0x0100, 0, 1, [], 0, "Safe state"⟩
  , ⟨0xA050, 1, 0x04, 0x04, .u16, .ro, 65535, .volatile, 0x0100, 0, 65535, [], 0, "Safe-state cause"⟩
  , ⟨0xA060, 1, 0x00, 0x00, .domain, .ro, 0, .volatile, 0x0100, 0, 0, [], 65535, "Event log (R434)"⟩
  , ⟨0xA061, 1, 0x01, 0x01, .u64, .ro, 0, .volatile, 0x0100, 0, 18446744073709551615, [], 0, "Next event sequence"⟩
  , ⟨0xA061, 1, 0x02, 0x02, .boolean, .ro, 0, .volatile, 0x0100, 0, 1, [], 0, "Event log frozen"⟩
  , ⟨0xA062, 1, 0x00, 0x00, .domain, .ro, 0, .none, 0x0100, 0, 0, [], 65535, "Crash snapshot, 4,096 entries"⟩
  , ⟨0xA063, 1, 0x01, 0x01, .u8, .cmd, 0, .volatile, 0x0100, 0, 255, [], 0, "Write snapshot now"⟩
  , ⟨0xA070, 1, 0x00, 0x00, .domain, .ro, 0, .none, 0x0100, 0, 0, [], 65535, "Cullet map, 4,096 records"⟩
  , ⟨0xA071, 1, 0x01, 0x01, .u16, .cmd, 0, .volatile, 0x0100, 0, 65535, [], 0, "Withdraw PENDING record (0..4,095)"⟩
  , ⟨0xA071, 1, 0x02, 0x02, .u8, .cmd, 0, .volatile, 0x0100, 0, 255, [], 0, "Retire physical slice at next reset (0..33)"⟩
  , ⟨0xA072, 1, 0x01, 0x01, .u16, .ro, 0, .none, 0x0100, 0, 65535, [], 0, "Cullet records in use"⟩ ]

/-- Entries of indices B000 to BFFF (part 1). -/
def dictRowsB_0 : List DictRow :=
  [ ⟨0xB000, 1, 0x01, 0x01, .visible, .const, 0, .none, 0x0100, 0, 0, [], 31, "Module name"⟩
  , ⟨0xB000, 1, 0x02, 0x02, .u32, .ro, 0, .none, 0x0100, 0, 4294967295, [], 0, "Module version"⟩
  , ⟨0xB001, 1, 0x03, 0x03, .boolean, .ro, 0, .volatile, 0x0100, 0, 1, [], 0, "Approved-mode indicator"⟩
  , ⟨0xB002, 1, 0x01, 0x01, .octets, .ro, 0, .none, 0x0100, 0, 0, [], 32, "Device identifier"⟩
  , ⟨0xB003, 1, 0x00, 0x00, .domain, .ro, 0, .none, 0x0100, 0, 0, [], 65535, "Certificate chain, slot 0"⟩
  , ⟨0xB004, 1, 0x00, 0x00, .domain, .ro, 0, .none, 0x0100, 0, 0, [], 65535, "Certificate chain, slot 1"⟩
  , ⟨0xB010, 1, 0x01, 0x01, .octets, .ro, 0, .certified, 0x0100, 0, 0, [], 32, "Owner key hash, SHA-256"⟩
  , ⟨0xB010, 1, 0x02, 0x02, .boolean, .ro, 1, .certified, 0x0100, 0, 1, [], 0, "Approved mode"⟩
  , ⟨0xB010, 1, 0x03, 0x03, .u8, .ro, 1, .certified, 0x0100, 0, 2, [], 0, "Debug policy (0 refused, 1 owner tokens, 2 owner or Uhlex tokens)"⟩
  , ⟨0xB010, 1, 0x04, 0x04, .octets, .ro, 0, .certified, 0x0100, 0, 0, [], 32, "Owner debug key hash, SHA-256"⟩
  , ⟨0xB010, 1, 0x05, 0x05, .octets, .ro, 0, .certified, 0x0100, 0, 0, [], 12, "CXL IDE required, 12 bytes, bit p for CPp"⟩
  , ⟨0xB010, 1, 0x06, 0x06, .u16, .ro, 0, .certified, 0x0200, 0, 65535, [], 0, "Aulum encryption required, bit a for APa"⟩
  , ⟨0xB010, 1, 0x07, 0x07, .u64, .ro, 0, .certified, 0x0100, 0, 18446744073709551615, [], 0, "Certified generation"⟩
  , ⟨0xB011, 1, 0x01, 0x01, .u8, .cmd, 0, .volatile, 0x0100, 0, 255, [], 0, "Raise rollback counter (0..63)"⟩
  , ⟨0xB011, 1, 0x02, 0x02, .octets, .ro, 0, .none, 0x0100, 0, 0, [], 64, "Rollback counters, 64 bytes"⟩
  , ⟨0xB011, 1, 0x03, 0x03, .u8, .ro, 0, .none, 0x0100, 0, 1, [], 0, "Boot banks: security [0], management [1] (0 A, 1 B)"⟩
  , ⟨0xB012, 1, 0x01, 0x01, .u8, .cmd, 0, .volatile, 0x0100, 0, 255, [], 0, "Revoke key slot (0..3)"⟩
  , ⟨0xB012, 1, 0x02, 0x02, .u8, .ro, 0, .none, 0x0100, 0, 255, [], 0, "Key slots revoked, bits 0..3"⟩
  , ⟨0xB020, 1, 0x00, 0x00, .domain, .wo, 0, .volatile, 0x0100, 0, 0, [], 65535, "Certified-configuration package"⟩
  , ⟨0xB030, 1, 0x00, 0x00, .domain, .wo, 0, .volatile, 0x0100, 0, 0, [], 65535, "Firmware image"⟩
  , ⟨0xB040, 1, 0x00, 0x00, .domain, .wo, 0, .volatile, 0x0200, 0, 0, [], 65535, "SPDM request"⟩
  , ⟨0xB041, 1, 0x00, 0x00, .domain, .ro, 0, .volatile, 0x0200, 0, 0, [], 65535, "SPDM response"⟩
  , ⟨0xB050, 1, 0x00, 0x00, .domain, .wo, 0, .volatile, 0x0100, 0, 0, [], 65535, "Debug token"⟩
  , ⟨0xB050, 1, 0x01, 0x01, .u8, .cmd, 0, .volatile, 0x0100, 0, 255, [], 0, "Lock debug"⟩
  , ⟨0xB050, 1, 0x02, 0x02, .u64, .ro, 0, .volatile, 0x0100, 0, 18446744073709551615, [], 0, "Debug nonce"⟩
  , ⟨0xB050, 1, 0x03, 0x03, .u64, .ro, 0, .volatile, 0x0100, 0, 18446744073709551615, [], 0, "Debug state: unlocked [63], seconds left [31..0]"⟩
  , ⟨0xB060, 1, 0x00, 0x00, .domain, .rw, 0, .stored, 0x0100, 0, 0, [], 65535, "Trust anchors, 16 × 32 bytes"⟩
  , ⟨0xB100, 16, 0x01, 0x01, .boolean, .rw, 0, .stored, 0x0200, 0, 1, [], 0, "Aulum encryption enable"⟩
  , ⟨0xB100, 16, 0x02, 0x03, .octets, .wo, 0, .volatile, 0x0200, 0, 0, [], 32, "Receive key, set 0..1"⟩
  , ⟨0xB100, 16, 0x04, 0x05, .octets, .wo, 0, .volatile, 0x0200, 0, 0, [], 32, "Transmit key, set 0..1"⟩
  , ⟨0xB100, 16, 0x06, 0x06, .u8, .cmd, 0, .volatile, 0x0200, 0, 255, [], 0, "Transmit rollover"⟩
  , ⟨0xB100, 16, 0x07, 0x07, .boolean, .ro, 0, .volatile, 0x0200, 0, 1, [], 0, "Rollover pending"⟩
  , ⟨0xB100, 16, 0x08, 0x08, .u8, .ro, 0, .volatile, 0x0200, 0, 255, [], 0, "Active sets: receive [1], transmit [0]"⟩
  , ⟨0xB100, 16, 0x09, 0x09, .u64, .ro, 0, .volatile, 0x0200, 0, 18446744073709551615, [], 0, "Group counter, transmit"⟩ ]

/-- Entries of indices C000 to CFFF (part 1). -/
def dictRowsC_0 : List DictRow :=
  [ ⟨0xC000, 24, 0x01, 0x20, .u64, .ro, 0, .volatile, 0x0100, 0, 18446744073709551615, [], 0, "CXL port counter 8p + e (R473)"⟩
  , ⟨0xC018, 4, 0x01, 0x20, .u64, .ro, 0, .volatile, 0x0100, 0, 18446744073709551615, [], 0, "Aulum port counter 768 + 8a + e (R473)"⟩
  , ⟨0xC01C, 4, 0x01, 0x20, .u64, .ro, 0, .volatile, 0x0100, 0, 18446744073709551615, [], 0, "Logical slice counter 896 + 4s + e (R473)"⟩
  , ⟨0xC020, 1, 0x01, 0x01, .u64, .ro, 0, .volatile, 0x0100, 0, 18446744073709551615, [], 0, "Crossing CRC failures, device-wide"⟩
  , ⟨0xC020, 1, 0x02, 0x02, .u64, .ro, 0, .volatile, 0x0100, 0, 18446744073709551615, [], 0, "Crossing resends, device-wide"⟩
  , ⟨0xC021, 1, 0x01, 0x01, .u64, .ro, 0, .volatile, 0x0100, 0, 18446744073709551615, [], 0, "Units passed after a missed turn or ejection"⟩
  , ⟨0xC021, 1, 0x02, 0x02, .u64, .ro, 0, .volatile, 0x0100, 0, 18446744073709551615, [], 0, "UNREACHABLE units generated"⟩
  , ⟨0xC021, 1, 0x03, 0x03, .u64, .ro, 0, .volatile, 0x0100, 0, 18446744073709551615, [], 0, "RspI synthesised for closing or closed islands"⟩
  , ⟨0xC021, 1, 0x04, 0x04, .u64, .ro, 0, .volatile, 0x0100, 0, 18446744073709551615, [], 0, "Multicast snoop copies ejected"⟩
  , ⟨0xC021, 1, 0x05, 0x05, .u64, .ro, 0, .volatile, 0x0100, 0, 18446744073709551615, [], 0, "Starvation guard activations"⟩
  , ⟨0xC021, 1, 0x06, 0x06, .u64, .ro, 0, .volatile, 0x0100, 0, 18446744073709551615, [], 0, "Route commits completed"⟩
  , ⟨0xC022, 1, 0x01, 0x01, .u64, .ro, 0, .volatile, 0x0100, 0, 18446744073709551615, [], 0, "REQ discarded by ageing"⟩
  , ⟨0xC022, 1, 0x02, 0x02, .u64, .ro, 0, .volatile, 0x0100, 0, 18446744073709551615, [], 0, "ION discarded by ageing"⟩
  , ⟨0xC022, 1, 0x03, 0x03, .u64, .ro, 0, .volatile, 0x0100, 0, 18446744073709551615, [], 0, "IOP discarded by ageing"⟩
  , ⟨0xC022, 1, 0x04, 0x04, .u64, .ro, 0, .volatile, 0x0100, 0, 18446744073709551615, [], 0, "Units flushed at port down"⟩
  , ⟨0xC022, 1, 0x05, 0x05, .u64, .ro, 0, .volatile, 0x0100, 0, 18446744073709551615, [], 0, "Answers synthesised at port down"⟩
  , ⟨0xC022, 1, 0x06, 0x06, .u64, .ro, 0, .volatile, 0x0100, 0, 18446744073709551615, [], 0, "Packets forwarded cut-through"⟩
  , ⟨0xC022, 1, 0x07, 0x07, .u64, .ro, 0, .volatile, 0x0100, 0, 18446744073709551615, [], 0, "Packets stored and forwarded"⟩
  , ⟨0xC022, 1, 0x08, 0x08, .u64, .ro, 0, .volatile, 0x0100, 0, 18446744073709551615, [], 0, "Cut-through gaps filled with idle flits"⟩
  , ⟨0xC022, 1, 0x09, 0x09, .u64, .ro, 0, .volatile, 0x0100, 0, 18446744073709551615, [], 0, "Trace records written"⟩
  , ⟨0xC022, 1, 0x0A, 0x0A, .u64, .ro, 0, .volatile, 0x0100, 0, 18446744073709551615, [], 0, "Trace records lost"⟩
  , ⟨0xC023, 1, 0x01, 0x01, .u64, .ro, 0, .volatile, 0x0100, 0, 18446744073709551615, [], 0, "Nacks sent"⟩
  , ⟨0xC023, 1, 0x02, 0x02, .u64, .ro, 0, .volatile, 0x0100, 0, 18446744073709551615, [], 0, "Requests that became SENIOR"⟩
  , ⟨0xC023, 1, 0x03, 0x03, .u64, .ro, 0, .volatile, 0x0100, 0, 18446744073709551615, [], 0, "Reserves taken"⟩
  , ⟨0xC023, 1, 0x04, 0x04, .u64, .ro, 0, .volatile, 0x0100, 0, 18446744073709551615, [], 0, "Snoops issued"⟩
  , ⟨0xC023, 1, 0x05, 0x05, .u64, .ro, 0, .volatile, 0x0100, 0, 18446744073709551615, [], 0, "Forwards completed"⟩
  , ⟨0xC023, 1, 0x06, 0x06, .u64, .ro, 0, .volatile, 0x0100, 0, 18446744073709551615, [], 0, "CmpDrop and NackWb sent"⟩
  , ⟨0xC023, 1, 0x07, 0x07, .u64, .ro, 0, .volatile, 0x0100, 0, 18446744073709551615, [], 0, "Lines entering POISONED"⟩
  , ⟨0xC023, 1, 0x08, 0x08, .u64, .ro, 0, .volatile, 0x0100, 0, 18446744073709551615, [], 0, "Reads served from the data buffer"⟩
  , ⟨0xC023, 1, 0x09, 0x09, .u64, .ro, 0, .volatile, 0x0100, 0, 18446744073709551615, [], 0, "Trackers entering MOVE_HOLD"⟩
  , ⟨0xC023, 1, 0x0A, 0x0A, .u64, .ro, 0, .volatile, 0x0100, 0, 18446744073709551615, [], 0, "MemSpecRd discarded"⟩
  , ⟨0xC024, 1, 0x01, 0x01, .u64, .ro, 0, .volatile, 0x0100, 0, 18446744073709551615, [], 0, "Directory-cache hits"⟩
  , ⟨0xC024, 1, 0x02, 0x02, .u64, .ro, 0, .volatile, 0x0100, 0, 18446744073709551615, [], 0, "Directory-cache misses"⟩
  , ⟨0xC024, 1, 0x03, 0x03, .u64, .ro, 0, .volatile, 0x0100, 0, 18446744073709551615, [], 0, "Misses that found the line in the snoop filter"⟩
  , ⟨0xC024, 1, 0x04, 0x04, .u64, .ro, 0, .volatile, 0x0100, 0, 18446744073709551615, [], 0, "Snoop-filter insertions"⟩
  , ⟨0xC024, 1, 0x05, 0x05, .u64, .ro, 0, .volatile, 0x0100, 0, 18446744073709551615, [], 0, "Overflow back-invalidations"⟩
  , ⟨0xC024, 1, 0x06, 0x06, .u64, .ro, 0, .volatile, 0x0100, 0, 18446744073709551615, [], 0, "Entries changed by removals"⟩
  , ⟨0xC024, 1, 0x07, 0x07, .u64, .ro, 0, .volatile, 0x0100, 0, 18446744073709551615, [], 0, "Lines poisoned by removals"⟩
  , ⟨0xC024, 1, 0x08, 0x08, .u64, .ro, 0, .volatile, 0x0100, 0, 18446744073709551615, [], 0, "Corrected errors, cache and snoop filter"⟩
  , ⟨0xC025, 1, 0x01, 0x01, .u64, .ro, 0, .volatile, 0x0100, 0, 18446744073709551615, [], 0, "Remap cache hits"⟩
  , ⟨0xC025, 1, 0x02, 0x02, .u64, .ro, 0, .volatile, 0x0100, 0, 18446744073709551615, [], 0, "Remap cache misses"⟩
  , ⟨0xC025, 1, 0x03, 0x03, .u64, .ro, 0, .volatile, 0x0100, 0, 18446744073709551615, [], 0, "Remap entry writes completed"⟩
  , ⟨0xC025, 1, 0x04, 0x04, .u64, .ro, 0, .volatile, 0x0100, 0, 18446744073709551615, [], 0, "Moves completed"⟩ ]

/-- Entries of indices C000 to CFFF (part 2). -/
def dictRowsC_1 : List DictRow :=
  [ ⟨0xC025, 1, 0x05, 0x05, .u64, .ro, 0, .volatile, 0x0100, 0, 18446744073709551615, [], 0, "Pages copied"⟩
  , ⟨0xC025, 1, 0x06, 0x06, .u64, .ro, 0, .volatile, 0x0100, 0, 18446744073709551615, [], 0, "Page attempts abandoned"⟩
  , ⟨0xC025, 1, 0x07, 0x07, .u64, .ro, 0, .volatile, 0x0100, 0, 18446744073709551615, [], 0, "Operations held at Remap"⟩
  , ⟨0xC025, 1, 0x08, 0x08, .u64, .ro, 0, .volatile, 0x0100, 0, 18446744073709551615, [], 0, "Lookups answered by synthesis"⟩
  , ⟨0xC025, 1, 0x09, 0x09, .u64, .ro, 0, .volatile, 0x0100, 0, 18446744073709551615, [], 0, "Guard-refused parts"⟩
  , ⟨0xC025, 1, 0x0A, 0x0A, .u64, .ro, 0, .volatile, 0x0100, 0, 18446744073709551615, [], 0, "Guard commits completed"⟩
  , ⟨0xC026, 1, 0x01, 0x01, .u64, .ro, 0, .volatile, 0x0100, 0, 18446744073709551615, [], 0, "DATA and MAC flits sent"⟩
  , ⟨0xC026, 1, 0x02, 0x02, .u64, .ro, 0, .volatile, 0x0100, 0, 18446744073709551615, [], 0, "Flits accepted"⟩
  , ⟨0xC026, 1, 0x03, 0x03, .u64, .ro, 0, .volatile, 0x0100, 0, 18446744073709551615, [], 0, "Flits discarded, CRC or FEC"⟩
  , ⟨0xC026, 1, 0x04, 0x04, .u64, .ro, 0, .volatile, 0x0100, 0, 18446744073709551615, [], 0, "Duplicates dropped"⟩
  , ⟨0xC026, 1, 0x05, 0x05, .u64, .ro, 0, .volatile, 0x0100, 0, 18446744073709551615, [], 0, "NAKs sent"⟩
  , ⟨0xC026, 1, 0x06, 0x06, .u64, .ro, 0, .volatile, 0x0100, 0, 18446744073709551615, [], 0, "Flits replayed"⟩
  , ⟨0xC026, 1, 0x07, 0x07, .u64, .ro, 0, .volatile, 0x0100, 0, 18446744073709551615, [], 0, "FEC symbols corrected"⟩
  , ⟨0xC026, 1, 0x08, 0x08, .u64, .ro, 0, .volatile, 0x0200, 0, 18446744073709551615, [], 0, "Lanes spared"⟩
  , ⟨0xC026, 1, 0x09, 0x09, .u64, .ro, 0, .volatile, 0x0100, 0, 18446744073709551615, [], 0, "Link resets"⟩
  , ⟨0xC026, 1, 0x0A, 0x0A, .u64, .ro, 0, .volatile, 0x0100, 0, 18446744073709551615, [], 0, "Units discarded at link reset"⟩
  , ⟨0xC026, 1, 0x0B, 0x0B, .u64, .ro, 0, .volatile, 0x0200, 0, 18446744073709551615, [], 0, "Answers synthesised by restart rules"⟩
  , ⟨0xC026, 1, 0x0C, 0x0C, .u64, .ro, 0, .volatile, 0x0200, 0, 18446744073709551615, [], 0, "Units discarded in quarantine"⟩
  , ⟨0xC026, 1, 0x0D, 0x0D, .u64, .ro, 0, .volatile, 0x0200, 0, 18446744073709551615, [], 0, "Writebacks and writes reissued"⟩
  , ⟨0xC027, 1, 0x01, 0x48, .u64, .ro, 0, .volatile, 0x0200, 0, 18446744073709551615, [], 0, "Lane parity faults, physical lane AL00..AL71"⟩
  , ⟨0xC028, 1, 0x01, 0x01, .u64, .ro, 0, .volatile, 0x0100, 0, 18446744073709551615, [], 0, "Descriptors completed"⟩
  , ⟨0xC028, 1, 0x02, 0x02, .u64, .ro, 0, .volatile, 0x0100, 0, 18446744073709551615, [], 0, "Descriptors with failure statuses"⟩
  , ⟨0xC028, 1, 0x03, 0x03, .u64, .ro, 0, .volatile, 0x0100, 0, 18446744073709551615, [], 0, "Malformed descriptors"⟩
  , ⟨0xC028, 1, 0x04, 0x04, .u64, .ro, 0, .volatile, 0x0100, 0, 18446744073709551615, [], 0, "Bytes written by queue work"⟩
  , ⟨0xC028, 1, 0x05, 0x05, .u64, .ro, 0, .volatile, 0x0100, 0, 18446744073709551615, [], 0, "Prefetched descriptors discarded for their mark"⟩
  , ⟨0xC028, 1, 0x06, 0x06, .u64, .ro, 0, .volatile, 0x0100, 0, 18446744073709551615, [], 0, "QCB reads"⟩
  , ⟨0xC028, 1, 0x07, 0x07, .u64, .ro, 0, .volatile, 0x0100, 0, 18446744073709551615, [], 0, "CQ ring-full events"⟩
  , ⟨0xC028, 1, 0x08, 0x08, .u64, .ro, 0, .volatile, 0x0100, 0, 18446744073709551615, [], 0, "Doorbells ignored"⟩
  , ⟨0xC028, 1, 0x09, 0x09, .u64, .ro, 0, .volatile, 0x0100, 0, 18446744073709551615, [], 0, "Atomic operations in the mover cache"⟩
  , ⟨0xC028, 1, 0x0A, 0x0A, .u64, .ro, 0, .volatile, 0x0200, 0, 18446744073709551615, [], 0, "Alive faults"⟩
  , ⟨0xC028, 1, 0x0B, 0x0B, .u64, .ro, 0, .volatile, 0x0100, 0, 18446744073709551615, [], 0, "Mover cache write-backs"⟩
  , ⟨0xC029, 1, 0x01, 0x01, .u64, .ro, 0, .volatile, 0x0200, 0, 18446744073709551615, [], 0, "Log entries written"⟩
  , ⟨0xC029, 1, 0x02, 0x02, .u64, .ro, 0, .volatile, 0x0200, 0, 18446744073709551615, [], 0, "Log overflows"⟩
  , ⟨0xC029, 1, 0x03, 0x03, .u64, .ro, 0, .volatile, 0x0100, 0, 18446744073709551615, [], 0, "Function resets completed"⟩
  , ⟨0xC029, 1, 0x04, 0x04, .u64, .ro, 0, .volatile, 0x0100, 0, 18446744073709551615, [], 0, "Queues moved"⟩
  , ⟨0xC02A, 1, 0x01, 0x01, .u64, .ro, 0, .volatile, 0x0100, 0, 18446744073709551615, [], 0, "Writes refused HOLDUP_LOW"⟩
  , ⟨0xC02A, 1, 0x02, 0x02, .u64, .ro, 0, .volatile, 0x0100, 0, 18446744073709551615, [], 0, "Slot trips"⟩
  , ⟨0xC02A, 1, 0x03, 0x03, .u64, .ro, 0, .volatile, 0x0100, 0, 18446744073709551615, [], 0, "Slot latches"⟩
  , ⟨0xC02A, 1, 0x04, 0x04, .u64, .ro, 0, .volatile, 0x0100, 0, 18446744073709551615, [], 0, "PFAIL assertions"⟩
  , ⟨0xC02A, 1, 0x05, 0x05, .u64, .ro, 0, .volatile, 0x0100, 0, 18446744073709551615, [], 0, "Epochs limited to the minima (R358)"⟩ ]

/-- Entries of indices C000 to CFFF (part 3). -/
def dictRowsC_2 : List DictRow :=
  [ ⟨0xC02A, 1, 0x06, 0x06, .u64, .ro, 0, .volatile, 0x0100, 0, 18446744073709551615, [], 0, "Thermal width reductions"⟩
  , ⟨0xC02A, 1, 0x07, 0x07, .u64, .ro, 0, .volatile, 0x0100, 0, 18446744073709551615, [], 0, "Main-domain losses"⟩
  , ⟨0xC02B, 1, 0x01, 0x01, .u64, .ro, 0, .volatile, 0x0100, 0, 18446744073709551615, [], 0, "Bus errors"⟩
  , ⟨0xC02B, 1, 0x02, 0x02, .u64, .ro, 0, .volatile, 0x0100, 0, 18446744073709551615, [], 0, "MPU faults"⟩
  , ⟨0xC02B, 1, 0x03, 0x03, .u64, .ro, 0, .volatile, 0x0100, 0, 18446744073709551615, [], 0, "Debug accesses to locked regions"⟩
  , ⟨0xC02B, 1, 0x04, 0x04, .u64, .ro, 0, .volatile, 0x0100, 0, 18446744073709551615, [], 0, "Bus timeouts"⟩
  , ⟨0xC02B, 1, 0x05, 0x05, .u64, .ro, 0, .volatile, 0x0100, 0, 18446744073709551615, [], 0, "Late responses discarded"⟩
  , ⟨0xC02B, 1, 0x06, 0x06, .u64, .ro, 0, .volatile, 0x0100, 0, 18446744073709551615, [], 0, "MPU set swaps"⟩
  , ⟨0xC02C, 1, 0x01, 0x01, .u64, .ro, 0, .volatile, 0x0100, 0, 18446744073709551615, [], 0, "Requests executed"⟩
  , ⟨0xC02C, 1, 0x02, 0x02, .u64, .ro, 0, .volatile, 0x0100, 0, 18446744073709551615, [], 0, "Requests answered with a status other than OK"⟩
  , ⟨0xC02C, 1, 0x03, 0x03, .u64, .ro, 0, .volatile, 0x0100, 0, 18446744073709551615, [], 0, "Commits written"⟩
  , ⟨0xC02C, 1, 0x04, 0x04, .u64, .ro, 0, .volatile, 0x0100, 0, 18446744073709551615, [], 0, "Sessions opened"⟩
  , ⟨0xC02C, 1, 0x05, 0x05, .u64, .ro, 0, .volatile, 0x0200, 0, 18446744073709551615, [], 0, "Notify records lost"⟩
  , ⟨0xC02C, 1, 0x06, 0x06, .u64, .ro, 0, .volatile, 0x0100, 0, 18446744073709551615, [], 0, "Requests answered STALE"⟩
  , ⟨0xC02D, 1, 0x01, 0x01, .u64, .ro, 0, .volatile, 0x0100, 0, 18446744073709551615, [], 0, "Fault reports"⟩
  , ⟨0xC02D, 1, 0x02, 0x02, .u64, .ro, 0, .volatile, 0x0100, 0, 18446744073709551615, [], 0, "Rail faults"⟩
  , ⟨0xC02D, 1, 0x03, 0x03, .u64, .ro, 0, .volatile, 0x0100, 0, 18446744073709551615, [], 0, "C2 escalations"⟩
  , ⟨0xC02D, 1, 0x04, 0x04, .u64, .ro, 0, .volatile, 0x0100, 0, 18446744073709551615, [], 0, "Isolations, and units discarded at isolated slices"⟩
  , ⟨0xC02D, 1, 0x05, 0x05, .u64, .ro, 0, .volatile, 0x0100, 0, 18446744073709551615, [], 0, "Reports not logged"⟩
  , ⟨0xC02D, 1, 0x06, 0x06, .u64, .ro, 0, .volatile, 0x0100, 0, 18446744073709551615, [], 0, "Injections"⟩
  , ⟨0xC02D, 1, 0x07, 0x07, .u64, .ro, 0, .volatile, 0x0100, 0, 18446744073709551615, [], 0, "Second answers discarded at proxies"⟩
  , ⟨0xC02E, 1, 0x00, 0x00, .domain, .ro, 0, .volatile, 0x0100, 0, 0, [], 65535, "Reports per source, 512 × 64 bits"⟩
  , ⟨0xC02F, 1, 0x01, 0x01, .u64, .ro, 0, .volatile, 0x0100, 0, 18446744073709551615, [], 0, "Sampler firings"⟩
  , ⟨0xC02F, 1, 0x02, 0x02, .u64, .ro, 0, .volatile, 0x0100, 0, 18446744073709551615, [], 0, "Skidded captures"⟩
  , ⟨0xC02F, 1, 0x03, 0x03, .u64, .ro, 0, .volatile, 0x0100, 0, 18446744073709551615, [], 0, "Edges captured, all inputs"⟩
  , ⟨0xC02F, 1, 0x04, 0x04, .u64, .ro, 0, .volatile, 0x0100, 0, 18446744073709551615, [], 0, "Edge records lost, all inputs"⟩
  , ⟨0xC02F, 1, 0x05, 0x05, .u64, .ro, 0, .volatile, 0x0200, 0, 18446744073709551615, [], 0, "Input doorbells rung"⟩
  , ⟨0xC02F, 1, 0x06, 0x06, .u64, .ro, 0, .volatile, 0x0200, 0, 18446744073709551615, [], 0, "Input doorbells ignored"⟩
  , ⟨0xC02F, 1, 0x07, 0x07, .u64, .ro, 0, .volatile, 0x0100, 0, 18446744073709551615, [], 0, "Time steps"⟩
  , ⟨0xC02F, 1, 0x08, 0x08, .u64, .ro, 0, .volatile, 0x0100, 0, 18446744073709551615, [], 0, "Holdover limits passed"⟩
  , ⟨0xC030, 1, 0x01, 0x01, .u16, .const, 1536, .none, 0x0100, 0, 65535, [], 0, "Device-wide counters"⟩
  , ⟨0xC030, 1, 0x02, 0x02, .u8, .const, 48, .none, 0x0100, 0, 255, [], 0, "Counter width, bits"⟩
  , ⟨0xC030, 1, 0x03, 0x03, .u64, .ro, 0, .volatile, 0x0100, 0, 18446744073709551615, [], 0, "Main-domain counter restart time"⟩
  , ⟨0xC030, 1, 0x04, 0x04, .u8, .cmd, 0, .volatile, 0x0100, 0, 255, [], 0, "Take snapshot"⟩
  , ⟨0xC030, 1, 0x05, 0x05, .u64, .ro, 0, .volatile, 0x0100, 0, 18446744073709551615, [], 0, "Snapshot time"⟩
  , ⟨0xC040, 8, 0x01, 0x01, .boolean, .rw, 0, .volatile, 0x0100, 0, 1, [], 0, "Sampler enable"⟩
  , ⟨0xC040, 8, 0x02, 0x02, .u8, .rw, 0, .volatile, 0x0100, 0, 2, [], 0, "Source (0 device, 1 per-VCS, 2 counter set)"⟩
  , ⟨0xC040, 8, 0x03, 0x03, .u32, .rw, 0, .volatile, 0x0100, 0, 4294967295, [], 0, "Select: counter [10..0]; or VCS [14..8], event [6..0]; or set [26..16], event [4..0]"⟩
  , ⟨0xC040, 8, 0x04, 0x04, .u64, .rw, 1048576, .volatile, 0x0100, 1024, 140737488355328, [], 0, "Period (1,024..2^47)"⟩
  , ⟨0xC040, 8, 0x05, 0x05, .u8, .rw, 5, .volatile, 0x0100, 0, 255, [], 0, "Actions: interrupt [0], notify [1], trace [2]"⟩ ]

/-- Entries of indices C000 to CFFF (part 4). -/
def dictRowsC_3 : List DictRow :=
  [ ⟨0xC040, 8, 0x06, 0x06, .u64, .ro, 0, .volatile, 0x0100, 0, 18446744073709551615, [], 0, "Next threshold"⟩
  , ⟨0xC040, 8, 0x07, 0x07, .u64, .ro, 0, .volatile, 0x0100, 0, 18446744073709551615, [], 0, "Last record sequence"⟩
  , ⟨0xC050, 1, 0x01, 0x01, .u8, .rw, 0, .stored, 0x0100, 0, 1, [255], 0, "Time port (0, 1, 0xFF none)"⟩
  , ⟨0xC050, 1, 0x02, 0x02, .u8, .rw, 0, .stored, 0x0100, 0, 3, [], 0, "Profile (0 IEEE 802.1AS, 1 IEEE 1588 Ethernet, 2 UDP/IPv4, 3 UDP/IPv6)"⟩
  , ⟨0xC050, 1, 0x03, 0x03, .u8, .rw, 0, .stored, 0x0100, 0, 255, [], 0, "Domain number"⟩
  , ⟨0xC050, 1, 0x04, 0x04, .u32, .rw, 1000000, .stored, 0x0100, 100, 1000000000, [], 0, "Step threshold, ns (100..1,000,000,000)"⟩
  , ⟨0xC050, 1, 0x05, 0x05, .u32, .rw, 10, .stored, 0x0100, 1, 86400, [], 0, "Holdover limit, s (1..86,400)"⟩
  , ⟨0xC050, 1, 0x06, 0x06, .u8, .ro, 0, .volatile, 0x0100, 0, 2, [], 0, "State (0 UNDISCIPLINED, 1 LOCKED, 2 HOLDOVER)"⟩
  , ⟨0xC050, 1, 0x07, 0x07, .i64, .ro, 0, .volatile, 0x0100, 0, 18446744073709551615, [], 0, "Last offset, ns"⟩
  , ⟨0xC050, 1, 0x08, 0x08, .octets, .ro, 0, .volatile, 0x0100, 0, 0, [], 8, "Grandmaster identity"⟩
  , ⟨0xC050, 1, 0x09, 0x09, .u64, .ro, 0, .volatile, 0x0100, 0, 18446744073709551615, [], 0, "Device time now"⟩
  , ⟨0xC060, 8, 0x01, 0x01, .boolean, .rw, 0, .stored, 0x0100, 0, 1, [], 0, "Input enable"⟩
  , ⟨0xC060, 8, 0x02, 0x02, .u8, .rw, 1, .stored, 0x0100, 1, 3, [], 0, "Edges (1 rising, 2 falling, 3 both)"⟩
  , ⟨0xC060, 8, 0x03, 0x03, .u16, .rw, 20, .stored, 0x0100, 0, 10000, [], 0, "Filter width, ns (0..10,000)"⟩
  , ⟨0xC060, 8, 0x04, 0x04, .u16, .rw, 65535, .stored, 0x0200, 0, 1087, [65535], 0, "Doorbell function (0..1,087, 0xFFFF none)"⟩
  , ⟨0xC060, 8, 0x05, 0x05, .u32, .rw, 0, .stored, 0x0200, 0, 4294967295, [], 0, "Doorbell value"⟩
  , ⟨0xC060, 8, 0x07, 0x07, .domain, .ro, 0, .volatile, 0x0100, 0, 0, [], 65535, "Capture queue, consumed on read"⟩
  , ⟨0xC100, 1, 0x00, 0x00, .domain, .ro, 0, .volatile, 0x0100, 0, 0, [], 65535, "Device-wide counters, 1,536 × 64 bits"⟩
  , ⟨0xC101, 1, 0x00, 0x00, .domain, .ro, 0, .volatile, 0x0100, 0, 0, [], 65535, "Counter snapshot"⟩
  , ⟨0xC200, 64, 0x00, 0x00, .domain, .ro, 0, .volatile, 0x0100, 0, 0, [], 65535, "Per-VCS counters, 128 × 64 bits"⟩
  , ⟨0xC400, 1088, 0x00, 0x00, .domain, .ro, 0, .volatile, 0x0100, 0, 1087, [], 65535, "Mover counter set s (0..1,087), 32 × 64 bits"⟩ ]

/-- The rows of the thousand-block of indices that holds index `idx` (R391). -/
def dictBlock (idx : Nat) : List DictRow :=
  match idx / 0x1000 with
  | 0x1 => dictRows1_0
  | 0x2 => dictRows2_0
  | 0x3 => dictRows3_0 ++ dictRows3_1
  | 0x4 => dictRows4_0 ++ dictRows4_1
  | 0x5 => dictRows5_0
  | 0x6 => dictRows6_0
  | 0x7 => dictRows7_0 ++ dictRows7_1
  | 0x8 => dictRows8_0 ++ dictRows8_1
  | 0x9 => dictRows9_0
  | 0xA => dictRowsA_0
  | 0xB => dictRowsB_0
  | 0xC => dictRowsC_0 ++ dictRowsC_1 ++ dictRowsC_2 ++ dictRowsC_3
  | _ => []

/-- R386, R391, R392: the row of entry `idx.sub`, if the entry exists. -/
def dictRow? (idx sub : Nat) : Option DictRow :=
  (dictBlock idx).find? fun r =>
    decide (r.base ≤ idx) && decide (idx < r.base + r.count) && decide (r.subLo ≤ sub) && decide (sub ≤ r.subHi)

/-- R390: the default of entry `idx.sub`; `0` where the table shows none. -/
def dictDefault (idx sub : Nat) : Nat :=
  match dictRow? idx sub with
  | some r => r.dflt
  | none => 0

/-- The value lies in the entry's stated range. -/
def DictRow.inRange (r : DictRow) (v : Nat) : Bool :=
  (decide (r.lo ≤ v) && decide (v ≤ r.hi)) || r.extra.contains v

/-- R386: the highest subindex in use at index `idx`, when the index is a record or an array. -/
def dictHighestSub? (idx : Nat) : Option Nat :=
  ((dictBlock idx).filter fun r => decide (r.base ≤ idx) && decide (idx < r.base + r.count) && decide (1 ≤ r.subHi)).foldl
    (fun m r => match m with | none => some r.subHi | some k => some (max k r.subHi)) none

end Sys2Proof.Machine
end

