-- ==== Sys2Proof/Machine/State.lean ====
section
/-!
DEFINITION. Machine/State.lean: every piece of state that the manual gives the FJQ-9640, as plain data, and the device
right after reset.  Every table is a `Tab`: sparse, in rising order, an unlisted number reading as its reset value.
-/

namespace Sys2Proof.Machine

/-- Why a command stops the model with a fault: none does. Where the manual leaves open what follows a command, a free value does. -/
inductive Fault where
  deriving DecidableEq, Repr

/-- Why a command is refused. -/
inductive Refusal where
  /-- Raised by an arm of `exec` whose command has no meaning yet.  Safe. -/
  | notModelled (mnemonic : String)
  deriving DecidableEq, Repr
/-! ### Status codes, transports and messages to the outside (R397 to R409) -/

/-- R401: the status codes of the Sprineno protocol. -/
inductive Status where
  | ok | notFound | readOnly | writeOnly | wrongType | outOfRange | busy | holdupLow | certified | notPermitted
  | versionConflict | malformed | segment | noSession | refused | stale | unsupported | notAttempted
  | portActive | portsActive | laneConflict | vcsTaken | bufferOver | belowMinimum | overlap | ruleInvalid | tableFull
  | wrongState | queueActive | localTaken | holdPending | shareShort | setTaken | slotTaken | lcbInvalid
  deriving DecidableEq, Repr

/-- R408: one 32-byte record of a NOTIFY. -/
structure NotifyRec where
  time : BitVec 64
  detail : BitVec 64
  value : BitVec 64
  /-- 1 ENTRY, 2 EVENT, 3 OVERFLOW. -/
  kind : Nat
  undisciplined : Bool
  index : Nat
  sub : Nat
  lost : Nat
  deriving DecidableEq, Repr

/-- R418 with the context that R419 puts into the log entry: what a source holds on its pair until it is captured. -/
structure Report where
  injected : Bool
  rail : Bool
  cause : BitVec 8
  detail : BitVec 48
  data : BitVec 192
  deriving DecidableEq, Repr
/-! ### Device time (R12, R479, R480) -/

/-- Device time and its discipline.  The reported state, offset and settings are entries C050.01 to C050.09. -/
structure TimeState where
  /-- Nanoseconds since VAUX power-good; never stepped.  The model's own measure of elapsed time. -/
  clock : Nat
  /-- R12, R479: the device time. -/
  devTime : BitVec 64
  /-- R480: nanoseconds still to be slewed. -/
  slewLeft : Int
  /-- R480: the frequency correction in force, ppm, held in HOLDOVER. -/
  correction : Int
  /-- R480: F452 has been reported in this HOLDOVER. -/
  lossReported : Bool
  /-- OD C050.08: the identity of the grandmaster that the last offset was measured against (R479, R480). -/
  grandmaster : BitVec 64
  deriving DecidableEq, Repr

/-! ### Sessions of the Sprineno protocol (R393, R400 to R408) -/

/-- R407: one subscription. -/
structure Subscription where
  number : Nat
  /-- 1 entry, 2 event group. -/
  kind : Nat
  index : Nat
  /-- Subindex of an entry subscription, group of an event subscription. -/
  sub : Nat
  intervalMs : Nat
  /-- R407: the value last sent, and when. -/
  lastValue : Option Nat
  lastTime : Nat
  deriving DecidableEq, Repr

/-- R402: one open session. -/
structure Session where
  id : Nat
  transport : Transport
  protocol : Nat
  odVersion : Nat
  mode : Mode
  maxMessage : Nat
  clientName : List Byte
  /-- R400: the highest Sequence taken for execution. -/
  high : Option Nat
  /-- R400: the responses kept, newest first, at most 8. -/
  kept : List (Nat × List Byte)
  /-- R400: requests taken and not yet answered, each with where its latest copy came from. -/
  executing : List (Nat × Transport)
  /-- R393: the session's own values of the session-scoped entries, keyed `index * 256 + subindex`. -/
  values : Tab Nat
  subs : List Subscription
  nextSub : Nat
  /-- R408: records waiting to be sent, oldest first. -/
  queue : List NotifyRec
  /-- R408: records lost since the last record was queued. -/
  lost : Nat
  notifySeq : Nat
  /-- R403: the clock when its latest request arrived, and where that request came from (R409). -/
  lastRequest : Nat
  source : Transport
  /-- R472: the snapshot whose segmented read this session is in. -/
  snapRead : Option Nat
  /-- R465: the SPDM session that keys an AUTHENTICATED or ENCRYPTED session. -/
  spdm : Option Nat
  deriving DecidableEq, Repr

/-- R405, R406: a segmented write that is open. -/
structure SegWrite where
  index : Nat
  sub : Nat
  session : Nat
  total : Nat
  received : List Byte
  deriving DecidableEq, Repr

/-- R412: what a commit or a default-image write is writing. -/
structure ImageWrite where
  /-- The session and the request to answer; `none` for a COMMAND row without a session. -/
  asker : Option (Nat × Nat)
  /-- R398: message type to answer. -/
  msgType : Nat
  reqId : Nat
  od : Tab Nat
  srcCfg : Tab (BitVec 64)
  guard : List (BitVec 256)
  size : Nat
  deriving DecidableEq, Repr

/-- R413: one image slot of the stored-image area. -/
structure ImageSlot where
  valid : Bool
  generation : Nat
  od : Tab Nat
  srcCfg : Tab (BitVec 64)
  guard : List (BitVec 256)
  deriving DecidableEq, Repr

/-- The dictionary engine and its sessions. -/
structure SprState where
  sessions : List Session
  nextSession : Nat
  segs : List SegWrite
  commit : Option ImageWrite
  slot0 : ImageSlot
  slot1 : ImageSlot
  /-- R200: the entries of the image that start-up loaded at its step 3. -/
  loaded : Tab Nat
  /-- R411: requests are taken from step 3 of start-up until a reset is recognised. -/
  serving : Bool
  deriving DecidableEq, Repr

/-! ### Faults, event log and cullet map (R416 to R438) -/

/-- R432: one entry of the event log. -/
structure LogEntry where
  time : BitVec 64
  seq : BitVec 64
  source : BitVec 16
  code : BitVec 16
  severity : BitVec 8
  rail : Bool
  undisciplined : Bool
  syndrome : BitVec 64
  data : BitVec 192
  deriving DecidableEq, Repr

/-- R436: the state of a cullet record. -/
inductive CulletState where
  | free | pending | active | withdrawn
  deriving DecidableEq, Repr

/-- R436: one cullet record, with whether it has been written to MRAM (R438). -/
structure Cullet where
  time : BitVec 64
  kind : BitVec 8
  state : CulletState
  origin : BitVec 2
  location : BitVec 48
  written : Bool
  deriving DecidableEq, Repr

/-- The fault collector. -/
structure FltState where
  /-- R417: the reports held on the sources' pairs. -/
  pairs : Tab Report
  /-- R417: sources whose pair reads invalid, reported once until it reads valid again. -/
  railFaults : List Nat
  /-- R428: pairs that an injection drives 0b00. -/
  railDriven : List Nat
  /-- R422: records of OD A010.00 that differ from their default. -/
  cfg : Tab (BitVec 64)
  /-- R426: OD A011.00. -/
  sticky : List Nat
  /-- R423: running handling timers, each with the action it started with (`true`: safe state) and the detail of its
  report. -/
  timers : Tab (Bool × Nat)
  /-- OD C02E.00. -/
  counts : Tab Counter
  /-- R433: the clock when an entry of a source was last logged. -/
  lastLogged : Tab Nat
  /-- R426: source, time and syndrome of the first report. -/
  latch : Option (Nat × BitVec 64 × BitVec 64)
  overflow : Bool
  /-- R421: OD A020.03. -/
  lastInterrupt : Nat
  /-- R428. -/
  unlocked : Bool
  oneShot : List Nat
  continuous : List Nat
  /-- R429: OD A050.03, A050.04. -/
  safe : Bool
  safeCause : Nat
  /-- R424: units held isolated. -/
  isoPorts : List Nat
  isoAulum : List Nat
  isoIslands : List Nat
  isoSlices : List Nat
  /-- R432: the log, oldest first. -/
  log : List LogEntry
  nextSeq : Nat
  frozen : Bool
  /-- R435. -/
  crash : List LogEntry
  cullet : Tab Cullet
  /-- R438: records whose write to MRAM is in progress. -/
  writing : List Nat
  deriving DecidableEq, Repr

/-! ### Power, start-up, slot channels, governor (chapter 11) -/

/-- R336: one supply as last sampled. -/
structure Supply where
  mV : Nat
  mA : Nat
  good : Bool
  ovp : Bool
  /-- Consecutive samples beyond the good, lost, overvoltage and overvoltage-cleared thresholds. -/
  nGood : Nat
  nLost : Nat
  nOver : Nat
  nClear : Nat
  deriving DecidableEq, Repr

/-- R349: the states of a slot channel, numbered as OD (8200 + c).18 numbers them. -/
inductive SlotState where
  | disabled | empty | qualifying | idle | ramping | on | limiting | tripped | latched
  deriving DecidableEq, Repr

/-- R347 to R355: one slot channel. -/
structure SlotCh where
  state : SlotState
  qualified : Bool
  present : Bool
  insertTimer : Bool
  retryTimer : Bool
  faultTimer : Bool
  rampTimer : Bool
  gateWindow : Bool
  fullDrive : Bool
  inWindow : Bool
  powerGood : Bool
  /-- R353: SPnn_PFAIL_N driven low. -/
  pfail : Bool
  /-- R353: ticks with the input inside the window and a slope of at least zero. -/
  goodTicks : Nat
  /-- R353: input of the last ticks, newest first, at most 9. -/
  history : List Nat
  /-- R349: ticks in ON with the output below 90 % of the input. -/
  lowTicks : Nat
  vin : Nat
  vout : Nat
  cur : Nat
  temp : Int
  /-- R352: the energy model, pJ. -/
  energy : Int
  cause : Nat
  retries : Nat
  /-- R351: the host's Power Controller Control, while the slot's port is bound. -/
  hostRequest : Option Bool
  /-- R354: dropped by the safe state, until reset. -/
  dropped : Bool
  deriving DecidableEq, Repr

/-- R356 to R362: the Lehr governor. -/
structure GovState where
  /-- R358: grants of this epoch, and what each class has drawn of them. -/
  grants : List Nat
  drawn : List Nat
  deficit : List Nat
  /-- R356. -/
  power : Nat
  pfc : Nat
  factor : Nat
  budget : Nat
  prevPfg : Int
  /-- R362: epochs since main power-good, `none` before it. -/
  epochs : Option Nat
  /-- R360. -/
  thermal : Bool
  alerted : Bool
  /-- R357: sensor 57 has been read since main power-good. -/
  dieRead : Bool
  /-- R361: consecutive epochs over the cap with no grant above a minimum. -/
  overCap : Nat
  deriving DecidableEq, Repr

/-- Where the sequence of R346 stands after a VAUX loss. -/
inductive VauxStage where
  | none | onReservoir | snapshotDone
  deriving DecidableEq, Repr

/-- Supplies, start-up, reservoir, slot channels, governor and sensors. -/
structure PowState where
  vin12 : Supply
  vaux : Supply
  /-- R337. -/
  vauxGood : Bool
  vinQualified : Bool
  mainOn : Bool
  /-- R340: OD 8010.01; 0 before VAUX power-good. -/
  step : Nat
  stepTimes : Tab (BitVec 64)
  /-- R341: start-up has stopped. -/
  stopped : Bool
  /-- R338: the main domain was lost and restarts when VIN12 is qualified. -/
  restarting : Bool
  /-- R342. -/
  resMv : Nat
  capUf : Nat
  vauxStage : VauxStage
  /-- R339: samples of this 100 µs and their sum, µW, and the last average, W. -/
  powSamples : Nat
  powSum : Nat
  powAvg : Nat
  slots : Tab SlotCh
  gov : GovState
  /-- R357: last readings, °C. -/
  sensors : Tab Int
  deriving DecidableEq, Repr

/-! ### Management complex (chapter 12) -/

/-- R365: privilege levels, P0 the most privileged. -/
inductive Level where
  | p0 | p1 | p2
  deriving DecidableEq, Repr

/-- R376: the kinds of bus error, in code order from 1. -/
inductive BusErr where
  | noPath | locked | unmapped | timeout | target | mpu | mainOff
  deriving DecidableEq, Repr

/-- R365, R380 to R384: one core and its MPU. -/
structure CoreSt where
  level : Level
  /-- Levels recorded at exception entries not yet returned from, latest first. -/
  saved : List Level
  /-- R376: the bus error of the precise exception last taken. -/
  lastExc : Option BusErr
  /-- R380: region registers of sets A and B that differ from their reset value. -/
  setA : Tab (BitVec 128)
  setB : Tab (BitVec 128)
  activeB : Bool
  epoch : BitVec 16
  faultRec : BitVec 128
  /-- R384: instructions fetched under an old set must be fetched again. -/
  refetch : Bool
  deriving DecidableEq, Repr

/-- R371: a transaction with no response yet. -/
structure BusTxn where
  id : Nat
  addr : Nat
  target : Nat
  deriving DecidableEq, Repr

/-- R372, R375: a request that its target has not answered: the 64-byte blocks that the MPU refused of it (the MPU fault has then
been its answer, and the target's is not awaited), and whether it has timed out. -/
structure HeldTxn where
  target : Nat
  req : BusReq
  deny : List Nat
  silent : Bool
  late : Bool
  deriving DecidableEq, Repr

/-- The management complex. -/
structure MgmtState where
  cores : Tab CoreSt
  /-- R366, R369: SRAM bytes. -/
  sram : Tab Byte
  /-- R371: outstanding transactions by master. -/
  outstanding : Tab (List BusTxn)
  /-- R372, R375: requests that their targets have accepted and not answered, oldest first. -/
  held : List HeldTxn
  /-- R373: round-robin pointer of each target, and whether it last accepted the DMA. -/
  rrPtr : Tab Nat
  lastDma : Tab Bool
  deriving DecidableEq, Repr

/-! ### Counters, samplers and timestamp inputs (chapter 16) -/

/-- R475, R477: the sampler of a VCS's host. -/
structure HostSampler where
  enable : Bool
  vector : Nat
  event : Nat
  periodLow : Nat
  periodHigh : Nat
  threshold : Nat
  deriving DecidableEq, Repr

/-- R481: one captured edge. -/
structure EdgeRec where
  time : BitVec 64
  count : BitVec 32
  lostBefore : Bool
  undisciplined : Bool
  rising : Bool
  deriving DecidableEq, Repr

/-- R481: one timestamp input's queue. -/
structure TsiState where
  queue : List EdgeRec
  edges : Nat
  lost : Bool
  deriving DecidableEq, Repr

/-- Counters, samplers, inputs. -/
structure PerfState where
  /-- R473: device-wide counter `n`. -/
  cnt : Tab Counter
  /-- R474: counter `e` of VCS `v` at `v * 128 + e`. -/
  vcs : Tab Counter
  /-- R476: counter `e` of mover counter set `s` at `s * 32 + e`. -/
  sets : Tab Counter
  /-- R472. -/
  snapshot : Tab Counter
  snapNo : Nat
  host : Tab HostSampler
  tsi : Tab TsiState
  deriving DecidableEq, Repr

/-! ### Contacts (chapter 17) -/

/-- Contacts and the reset sequence of R494. -/
structure PinState where
  resetN : Bool
  faultLow : Bool
  ready : Bool
  /-- R494: a reset is in force (its step 2 has been reached and step 5 has not begun). -/
  inReset : Bool
  /-- R492: references within tolerance now for less than 1 ms are listed as not stable; OD 8041 to 8043 report stable
  ones. -/
  perstLow : List Nat
  /-- R104: ports whose PERST_N input the host holds low, for 1 µs or longer. -/
  perstIn : List Nat
  deriving DecidableEq, Repr
/-! ### Security core (chapter 15) -/

/-- R457: certified values waiting for the next reset, or in force. Values are integers of their bytes. -/
structure CertConfig where
  ownerHash : BitVec 256
  approved : Bool
  debugPolicy : Nat
  debugHash : BitVec 256
  ideRequired : BitVec 96
  encRequired : BitVec 16
  generation : BitVec 64
  deriving DecidableEq, Repr

/-- R452 to R454: one SPDM connection of the responder. -/
structure SpdmConn where
  /-- GET_VERSION has been answered; GET_CAPABILITIES has; algorithms have been selected. -/
  versioned : Bool
  capable : Bool
  /-- R454: SPDM slot served, once algorithms are negotiated. -/
  slot : Option Nat
  /-- R454: refused until GET_VERSION. -/
  latched : Bool
  version : Nat
  /-- Secure sessions established, and those whose KEY_EXCHANGE awaits FINISH. -/
  sessions : List Nat
  opening : List Nat
  /-- CHUNK_SEND: bytes received of a large request; CHUNK_GET: bytes left of a large response. -/
  chunkIn : List Byte
  chunkNext : Nat
  chunkOut : Nat
  chunkOutSeq : Nat
  deriving DecidableEq, Repr

/-- R458, R459: IDE of one CXL port. -/
structure IdePort where
  established : Bool
  keySet : Bool
  programmed : List Nat
  /-- R458: the certificate chain of the expander at a POOL port has been accepted. -/
  trusted : Bool
  deriving DecidableEq, Repr

/-- The security core. -/
structure SecState where
  /-- R442: key-hash fuse slots that hold a hash; revoked slots; R447: rollback counters. -/
  fuseHash : Tab (BitVec 256)
  revoked : List Nat
  counters : Tab Nat
  /-- R445: the image in bank `b` of kind `k` at `2 * k + b`. -/
  banks : Tab FwImage
  /-- R446, R448: OD B011.03. -/
  bootSec : Bool
  bootMgmt : Bool
  /-- R446: the image running, by kind. -/
  running : Tab FwImage
  /-- R448: the bank that each kind runs from. -/
  runSecB : Bool
  runMgmtB : Bool
  /-- R444. -/
  selfTests : Bool
  healthFailed : Bool
  /-- R446: only the recovery service runs. -/
  recovery : Bool
  cert : CertConfig
  certNext : Option CertConfig
  /-- R466 to R468. -/
  unlocked : Bool
  permissions : BitVec 64
  /-- R468: the clock at which the token's lifetime ends. -/
  expiresAt : Nat
  nonce : BitVec 64
  /-- R453: the clock until which the signing engine is busy. -/
  signUntil : Nat
  spdm : Tab SpdmConn
  nextSpdm : Nat
  /-- R452: the last answer of each connection, which a session reads from OD B041.00. -/
  spdmReply : Tab SpdmReply
  ide : Tab IdePort
  deriving DecidableEq, Repr

/-! ### Fabric (chapter 2) and crossings (R28 to R30) -/

/-- A unit held somewhere. -/
structure Held where
  /-- The model's number of the unit, by which a stop knows a unit that missed a queue again (R53). -/
  id : Nat
  u : FUnit
  /-- The packet whose first unit this is, or whose following unit it is (R49). -/
  tlp : Option Tlp
  /-- R18: the VCS and host physical line address of a unit that has not yet passed Decode. -/
  hpa : Option (Nat × BitVec 46)
  /-- R152: the ring segment on which it reached the stop. -/
  inp : Nat
  /-- The clock when it came to its present holding point (R45). -/
  since : Nat
  deriving DecidableEq, Repr

/-- R29, R30: one crossing. -/
structure Crossing where
  /-- Units that wait for a slot of the hold buffer. -/
  wait : List Held
  /-- The hold buffer, oldest first, with sideband sequence numbers. -/
  hold : List (Nat × Held)
  /-- Sequence numbers sent and not yet received. -/
  flight : List Nat
  next : Nat
  /-- The sequence number that the receiver waits to receive again, and its count of consecutive failures. -/
  failed : Option Nat
  count : Nat
  /-- A failed sequence number returned to the sender. -/
  nak : Option Nat
  stopped : Bool
  deriving DecidableEq, Repr

/-- The rings, their network interfaces and the port islands' fabric state. -/
structure FabState where
  xing : Tab Crossing
  /-- R51: ring buffers at `(stop * 4 + direction) * 8 + VN`; turn queues at the same key; ejection queues at
  `(stop * 16 + agent) * 8 + VN`. -/
  ring : Tab (List Held)
  turn : Tab (List Held)
  eject : Tab (List Held)
  /-- R53: units that missed a turn queue, and units that missed an ejection queue, in order, by the queue's key; the
  latter by incoming segment for the REQ queues of home slices (R152). -/
  missTurn : Tab (List Nat)
  missEject : Tab (List Nat)
  /-- R54: injection queues at `(stop * 16 + source agent) * 8 + VN`. -/
  ni : Tab (List Held)
  /-- R54: the VN after the one last carried by segment `stop * 4 + direction`; ring buffers (keyed as
  in `ring`) whose last entering unit was a turn; units that the starvation guard puts first. -/
  rrVn : Tab Nat
  lastTurn : List Nat
  urgent : List Nat
  /-- R57: stops bypassed since the last reset. -/
  bypass : List Nat
  /-- R59, R268: link table entry `i` and source route entry `w` of banks 0 and 1. -/
  links0 : Tab (BitVec 16)
  links1 : Tab (BitVec 16)
  src0 : Tab (BitVec 64)
  src1 : Tab (BitVec 64)
  nextId : Nat
  /-- R39: logical slices whose physical slice is a spare. -/
  sliceMap : Tab Nat
  /-- R66: closing drain timers running, and islands in OPENING, by island. -/
  drainTimer : List Nat
  /-- R74: islands held CLOSED by isolation or the self-test. -/
  heldClosed : List Nat
  deriving DecidableEq, Repr

/-! ### Switch core (chapter 4) -/

/-- R110, R503: a unit in an egress pair. -/
structure EgUnit where
  h : Held
  /-- It occupies a cell; a unit of a cut-through packet does not (R115). -/
  cell : Bool
  /-- The message to send on the link, once the port's agent has taken the unit; `none` before. -/
  msg : Option LinkMsg
  deriving DecidableEq, Repr

/-- R110: a received message in an ingress pair. -/
structure InMsg where
  msg : PortMsg
  since : Nat
  deriving DecidableEq, Repr

/-- R134, R135: one trace record. -/
structure TraceRec where
  data : BitVec 64
  seq : BitVec 64
  vcs : Byte
  filter : Byte
  port : Byte
  stage : Byte
  undisciplined : Bool
  skid : Bool
  time : BitVec 64
  header : BitVec 128
  deriving DecidableEq, Repr

/-- Packet buffers and trace capture. -/
structure SwcState where
  /-- Egress pairs at `port * 8 + VN`, ports 0..95 CXL and 96..111 Aulum. -/
  egress : Tab (List EgUnit)
  /-- Ingress pairs of CXL ports, at the same key. -/
  ingress : Tab (List InMsg)
  /-- R110: active limits at `port * 16 + (subindex - 1)` that differ from the defaults of R112. -/
  active : Tab Nat
  /-- R114: port dies whose raised limits wait, with the limits to come. -/
  raising : Tab (Tab Nat)
  /-- R115: packets going cut-through: egress pair, Source, Tag and the number of units still to come. -/
  cutting : Tab (Nat × Nat × Nat)
  /-- R118: egress pairs whose cut-through packet waits for a late unit, with the units that were still to come when the port
  began to wait. -/
  gaps : Tab Nat
  /-- R135, R136: records in the ring by write index. -/
  ring : Tab TraceRec
  /-- R134: the next selection number. -/
  traceSeq : Nat
  /-- R137: the clock at which a record was last written. -/
  lastTrace : Option Nat
  deriving DecidableEq, Repr

/-! ### CXL ports and virtual switches (chapter 3) -/

/-- R93: one HDM decoder of a pool endpoint: base and size in bytes, log2 of ways and granularity. -/
structure Decoder where
  base : Nat
  size : Nat
  ways : Nat
  gran : Nat
  committed : Bool
  /-- Error Not Committed. -/
  error : Bool
  deriving DecidableEq, Repr

/-- R98: the state of an extent. -/
inductive ExtState where
  | offered | accepted | releasing
  deriving DecidableEq, Repr

/-- R97: an extent of a dynamic-capacity region, by global pool address. -/
structure Extent where
  region : Nat
  base : Nat
  len : Nat
  state : ExtState
  forced : Bool
  /-- R101: 1 + the last base of the fabric manager's release that asked for this extent, 0 none. -/
  batch : Nat
  deriving DecidableEq, Repr

/-- R92: what AER of an upstream port or vPPB holds: Uncorrectable and correctable bits set, and the last header logged. -/
structure AerState where
  unsupported : Bool
  malformed : Bool
  completerAbort : Bool
  advisory : Bool
  header : Option Tlp
  /-- R101, R100: an error generated by the fabric manager. -/
  injected : Nat
  deriving DecidableEq, Repr

/-- R88: the states of a bindable vPPB. -/
inductive BindState where
  | unbound | binding | bound | unbinding
  deriving DecidableEq, Repr

/-- R86, R88: one vPPB, with the windows and bus numbers that the host programs (R87). -/
structure Vppb where
  state : BindState
  port : Nat
  ld : Nat
  /-- R88: 0 wait for link down, 1 managed, 2 surprise. -/
  option : Nat
  presence : Bool
  presenceChanged : Bool
  linkChanged : Bool
  attention : Bool
  secBus : Nat
  subBus : Nat
  memBase : Nat
  memLimit : Nat
  prefBase : Nat
  prefLimit : Nat
  /-- R102: a fault of the slot's channel has been reported. -/
  powerFault : Bool
  /-- R101: the session whose command is being carried out, 0 none. -/
  asker : Nat
  /-- R88: the host has enabled hot-plug interrupts (Slot Control). -/
  hotplugOn : Bool
  /-- R75: DPC has contained the port below: its link stays down until the host clears this. -/
  dpc : Bool
  aer : AerState
  deriving DecidableEq, Repr

/-- R25, R89: a non-posted CXL.io request on its way or waiting for its completion. -/
structure NonPosted where
  vcs : Nat
  fromPort : Nat
  toPort : Nat
  /-- The LD of the target port that it is for. -/
  ld : Nat
  tag : BitVec 16
  tlp : Tlp
  /-- It has left on the target's link. -/
  sent : Bool
  /-- R235: Guard has refused a part of it. -/
  refused : Bool
  /-- R91: bytes that completions have returned. -/
  got : Nat
  deriving DecidableEq, Repr

/-- Ports, virtual switches and binding. -/
structure PortState where
  /-- R93: decoder `i` of VCS `v` at `v * 32 + i`. -/
  dec : Tab Decoder
  /-- R97: extents of a VCS, in order of offer. -/
  ext : Tab (List Extent)
  /-- R86: vPPB `d` of VCS `v` at `v * 32 + d`. -/
  binds : Tab Vppb
  /-- R92: AER of the upstream port of a VCS. -/
  upAer : Tab AerState
  /-- R86: bus numbers of the upstream port: secondary and subordinate. -/
  upBus : Tab (Nat × Nat)
  np : List NonPosted
  /-- R91: Max_Payload_Size in force at a port. -/
  mps : Tab Nat
  /-- R502: lost LDs of a port, as a mask. -/
  lost : Tab (BitVec 16)
  /-- R360: ports whose partner supports L0p. -/
  l0p : List Nat
  /-- R79: upstream ports that wait to retry training. -/
  retry : List Nat
  /-- R107: ports between steps 1 and 3 of R107. -/
  perstWait : List Nat
  /-- R80, R360: ports that the part has narrowed itself. -/
  narrowed : List Nat
  /-- R106: ports in Recovery by a retrain. -/
  recovering : List Nat
  /-- R101: background operations, the last to start first: opcode, what it acts on, and 0 done or 1 running. -/
  bgOps : List (Nat × Nat × Nat)
  /-- R100: log2 of the response limit in bytes, 10 at reset (DESIGN CHOICE, log entry 34). -/
  respLimit : Nat
  /-- R103: poison sweeps under way: port, LD mask and the next granule. -/
  sweeps : List (Nat × BitVec 16 × Nat)
  /-- R201: VCSs whose pool endpoint log holds an event record asking for a flush. -/
  flushAsked : List Nat
  /-- R81: margining: the sample offsets of a port's lanes at `port * 16 + lane`, timing and voltage in steps, and the
  errors that the sampler has counted there (a free value, log entry 29). -/
  margin : Tab (Int × Int × Nat)
  /-- R86, R100: registers of the configuration spaces that the spec gives no layout, as written: port, LD, register. -/
  cfgRegs : Tab Nat
  /-- R86: the DOE of the pool endpoint of a VCS: the double words of the request so far, and of the response not yet read. -/
  doe : Tab (List Nat × List Nat)
  deriving DecidableEq, Repr

/-- R100: return codes of the FM-API. -/
inductive FmRc where
  | success | invalidInput | unsupported | busy | started | internalError
  deriving DecidableEq, Repr

/-! ### Coherence (chapters 5 and 6) -/

/-- R140, R182: a holder of a line: a host, or a mover cache of the switch in the host ID. -/
structure Holder where
  host : BitVec 16
  mover : Bool
  deriving DecidableEq, Repr

/-- R180, R182: the holders that an entry records, by its mode. -/
inductive HolderSet where
  | ptr (slots : List Holder)
  | vec (mover remote : Bool) (hosts : BitVec 64)
  | coarse (mover : Bool) (groups : BitVec 32) (hosts : BitVec 64)
  deriving DecidableEq, Repr

/-- R151: the stable states of a line. -/
inductive LState where
  | invalid
  | shared (h : HolderSet)
  | owned (o : Holder)
  | poisoned
  deriving DecidableEq, Repr

/-- R180, R181: a directory-cache entry. -/
structure DirEntry where
  /-- L[41..5] with L[4..0] computed back from the slice (R178): the whole line. -/
  line : BitVec 42
  part : Nat
  sfWay : Option Nat
  dirty : Bool
  pinned : Bool
  st : LState
  deriving DecidableEq, Repr

/-- R180: one way of a snoop-filter set. -/
structure SfWay where
  tag : Nat
  st : LState
  order : Nat
  deriving DecidableEq, Repr

/-- What the home knows of the requester of a tracker (R142, R144). -/
structure ReqInfo where
  kind : Nat
  src : BitVec 12
  tag : BitVec 16
  host : BitVec 16
  mover : Bool
  senior : Bool
  nacks : Nat
  first : BitVec 32
  mask : BitVec 64
  age : BitVec 12
  deriving DecidableEq, Repr

/-- R151, R186: what a tracker waits for. -/
inductive TPhase where
  | fill | mem | snp | fwd | wb | moveHold
  deriving DecidableEq, Repr

/-- R212, R214: a device location with the Generation of the entry it came from. -/
structure Loc where
  port : Nat
  ld : Nat
  gran : Nat
  gen : Bool
  deriving DecidableEq, Repr

/-- R151, R153: an active tracker. -/
structure Tracker where
  line : BitVec 42
  phase : TPhase
  /-- `none`: a home invalidation (R155). -/
  req : Option ReqInfo
  /-- The state of the line when the tracker took it. -/
  was : LState
  /-- R151: the state that takes effect when the tracker completes. -/
  fin : LState
  /-- R157: targets that have not replied. -/
  waitHosts : List Holder
  waitSwitches : List Nat
  /-- R159: the recorded owner's reply was synthesised. -/
  ownerLost : Bool
  /-- R155: the line's data and its Poison, where a target returned them. -/
  back : Option (LineData × Bool)
  /-- R182: the requester joins the sharers when the tracker completes. -/
  join : Bool
  /-- R126, R215: a buffered write of the line was lost meanwhile. -/
  spoilt : Bool
  /-- R155: WrData that waits for the merge read. -/
  merge : Option (LineData × Bool)
  /-- R155: the MemRd is delivered to the home. -/
  toHome : Bool
  /-- R154: the data-buffer entry that served the tracker. -/
  served : Option Nat
  /-- R146: the reason of its snoops. -/
  reason : Nat
  /-- R214: where its MemRd went. -/
  loc : Option Loc
  /-- R227: the line is released from POISONED when the tracker completes. -/
  release : Bool
  started : Nat
  deriving DecidableEq, Repr

/-- R154: how far a buffered write has come. -/
inductive BufStage where
  | waiting | held | sent | pulled
  deriving DecidableEq, Repr

/-- R154: one line of a slice's data buffer; at a key from 2,048 up it waits for one of the 256 places. -/
structure BufEntry where
  line : BitVec 42
  data : LineData
  poison : Bool
  /-- R156: written with Write poison. -/
  wrPoison : Bool
  stage : BufStage
  loc : Option Loc
  /-- The order in which the slice's entries were made. -/
  no : Nat
  deriving DecidableEq, Repr

/-- R169: an entry of the senior register. -/
structure SeniorEntry where
  host : BitVec 16
  tag : BitVec 16
  line : BitVec 42
  first : BitVec 32
  /-- The clock at which it leaves if the request has not reappeared. -/
  until_ : Nat
  /-- R169: the line is marked for it. -/
  marked : Bool
  deriving DecidableEq, Repr

/-- R213: one way of a remap-cache set. -/
structure RemapWay where
  gran : Nat
  entry : BitVec 48
  deriving DecidableEq, Repr

/-- R217, R218, R223: a memory operation at Remap: a tracker's MemRd, or the MemWr of a data-buffer entry. -/
inductive RemapOp where
  | read (tracker : Nat)
  | write (buf : Nat)
  deriving DecidableEq, Repr

/-- One logical home slice. -/
structure HomeSlice where
  trk : Tab Tracker
  buf : Tab BufEntry
  senior : List SeniorEntry
  /-- R169: lines in SENIOR_HOLD: line, host and tag held for, and the clock at which the hold ends. -/
  holds : List (BitVec 42 × BitVec 16 × BitVec 16 × Nat)
  /-- R213: ways of set `k` of the remap cache at `8 * k + way`, and the pseudo-LRU bits of sets. -/
  rcache : Tab RemapWay
  rplru : Tab (BitVec 7)
  /-- R213: operations that wait for a fill of their granule, in order. -/
  fills : List (Nat × RemapOp)
  /-- R218: operations held by the closed gate, in order. -/
  gated : List RemapOp
  /-- R223: operations held at the page being copied, in order, with granule and page. -/
  paged : List (Nat × Nat × RemapOp)
  /-- R263: trackers in quarantine, with the line each was used for. -/
  quar : Tab (BitVec 42)
  /-- R204: lines whose recorded holders were lost, still to be invalidated everywhere. -/
  lostLines : List (BitVec 42)
  deriving DecidableEq, Repr

/-- The homes. -/
structure HomeState where
  slices : Tab HomeSlice
  deriving DecidableEq, Repr

/-- R162: the state of a request-table entry. -/
inductive ReqSt where
  | waiting | issued | backoff
  deriving DecidableEq, Repr

/-- R160, R162: an entry of a proxy's request table. -/
structure ProxyReq where
  tag : Nat
  kind : Nat
  hpa : BitVec 46
  hostTag : BitVec 16
  st : ReqSt
  nacks : Nat
  senior : Bool
  first : BitVec 32
  /-- R94: home switch and line, once Decode has mapped it. -/
  pool : Option (Nat × BitVec 42)
  /-- The clock when its message came to the port (R474), and when the proxy took it. -/
  arrived : Nat
  started : Nat
  /-- R168: the clock at which its wait ends. -/
  due : Nat
  deriving DecidableEq, Repr

/-- R160, R162: an entry of a proxy's eviction buffer. -/
structure ProxyEvict where
  tag : Nat
  hpa : BitVec 46
  hostTag : BitVec 16
  keepS : Bool
  snooped : Bool
  data : LineData
  poison : Bool
  pool : Option (Nat × BitVec 42)
  /-- Its writeback has been issued; false once NackWb has come and it waits for a place in the write buffer (R160). -/
  issued : Bool
  /-- R261, R263: the restart rules have reissued its writeback. -/
  reissued : Bool
  started : Nat
  deriving DecidableEq, Repr

/-- R162: the state of a write-buffer entry. -/
inductive WrSt where
  | waiting | sent | backoff | go
  deriving DecidableEq, Repr

/-- R160, R162: an entry of a proxy's write buffer. -/
structure ProxyWrite where
  tag : Nat
  hpa : BitVec 46
  hostTag : BitVec 16
  full : Bool
  mask : BitVec 64
  data : LineData
  poison : Bool
  st : WrSt
  nacks : Nat
  senior : Bool
  first : BitVec 32
  pool : Option (Nat × BitVec 42)
  due : Nat
  /-- The clock when its message came to the port, and when the proxy took it. -/
  arrived : Nat
  started : Nat
  deriving DecidableEq, Repr

/-- R62, R146: targets and body of a snoop. -/
structure SnpFields where
  hosts : BitVec 64
  mover : Bool
  islands : BitVec 16
  fwdTo : BitVec 12
  fwdTag : BitVec 16
  fwd : Bool
  grant : Nat
  reason : Nat
  deriving DecidableEq, Repr

/-- R160: an entry of a proxy's snoop table. -/
structure ProxySnoop where
  biTag : Nat
  inv : Bool
  line : BitVec 42
  home : Nat
  src : BitVec 12
  tag : BitVec 16
  body : SnpFields
  /-- The BISnp has been sent to the host. -/
  out : Bool
  /-- R164: data that came from the host before its BIRsp, or that the eviction buffer gave, with poison. -/
  dirty : Option (LineData × Bool)
  deriving DecidableEq, Repr

/-- One proxy. -/
structure Proxy where
  reqs : List ProxyReq
  evs : List ProxyEvict
  wrs : List ProxyWrite
  snps : List ProxySnoop
  nextBi : Nat
  /-- R168: the LFSR; `none` before its first step, when it holds its seed. -/
  lfsr : Option (BitVec 32)
  /-- R163: tags of the entries held when the port last went down: nothing more is sent to the host for them. -/
  mute : List Nat
  /-- R263: request entries in quarantine, with the line each was used for. -/
  quarantine : Tab (BitVec 42)
  deriving DecidableEq, Repr

/-- R154: a MemWr at a pool port agent: the unit, and whether its line of the write buffer is free, pulled or sent. -/
structure PoolWrite where
  u : FUnit
  pulled : Bool
  sent : Bool
  /-- The tag on the link, once sent. -/
  link : Nat
  deriving DecidableEq, Repr

/-- R154: a pool port agent. -/
structure PoolAgent where
  writes : List PoolWrite
  /-- MemRd sent on the link and not answered, by link tag. -/
  reads : List (Nat × FUnit)
  nextTag : Nat
  deriving DecidableEq, Repr

/-- R158: a snoop that a remote agent has fanned out. -/
structure FanOut where
  island : Nat
  u : FUnit
  waiting : List Holder
  /-- The best reply so far, by R158. -/
  reply : Option FUnit
  poison : Bool
  synth : Bool
  deriving DecidableEq, Repr

/-- Proxies, pool port agents and Aulum remote agents. -/
structure ProxState where
  proxies : Tab Proxy
  pools : Tab PoolAgent
  fans : List FanOut
  /-- R168: this switch's number at the last reset, of which the seeds of the requesters' LFSRs are made. -/
  seed : Nat
  deriving DecidableEq, Repr

/-- R194: an entry of the removal list, and whether the running pass covers it. -/
structure Removal where
  isSwitch : Bool
  id : Nat
  covered : Bool
  deriving DecidableEq, Repr

/-- R199: a range walk, by local pool line numbers. -/
structure Walk where
  /-- `none`: a flush; else the VCS, region extent base and length that it releases. -/
  extent : Option (Nat × Nat × Nat)
  base : Nat
  limit : Nat
  next : Nat
  deriving DecidableEq, Repr

/-- R200: a recovery range. -/
structure Recovery where
  active : Bool
  base : Nat
  limit : Nat
  vcs : BitVec 64
  switches : List Nat
  timeoutRaised : Bool
  deriving DecidableEq, Repr

/-- R206: one partition as committed. -/
structure Partition where
  enable : Bool
  base : Nat
  limit : Nat
  k : Nat
  setBase : Nat
  deriving DecidableEq, Repr

/-- The directory. -/
structure DirState where
  /-- R175: way `w` of set `t` of slice `l` at `(l * 8192 + t) * 16 + w`, and the pseudo-LRU bits of sets. -/
  cache : Tab DirEntry
  plru : Tab (BitVec 15)
  /-- R176: set `t` of slice `l` at `l * 4194304 + t`. -/
  sf : Tab (List SfWay)
  /-- R190: entries evicted from the cache that wait to be inserted, by slice. -/
  inserting : List (Nat × DirEntry)
  /-- R183: OD 4011.00. -/
  remote : List Nat
  removals : List Removal
  /-- R196: the pass under way: the next snoop-filter set of all slices. -/
  pass : Option Nat
  /-- R194: host events that wait for a free entry. -/
  hostWait : List Nat
  walks : List Walk
  recov : Tab Recovery
  /-- R200: the implicit range is in force. -/
  implicitRange : Bool
  /-- R262, R203: RecoveryRequests sent. -/
  asked : List Nat
  /-- R203: homes that have asked this switch for recovery, with the VCSs that have not flushed. -/
  askedBy : Tab (List Nat)
  parts : List Partition
  /-- R206: the stores are being cleared. -/
  clearing : Bool
  /-- R205: the next block of the marver pass, and the times of the last hour's corrected errors of a cache way at
  `slice * 16 + way`. -/
  marver : Nat
  corrected : Tab (List Nat)
  deriving DecidableEq, Repr

/-- R203, R262: a management message to another switch. -/
inductive PeerMsg where
  | recoveryRequest | recoveryDone | restartNotice (epoch : BitVec 32) | restartAck
  deriving DecidableEq, Repr

/-! ### Remap, moves and Guard (chapter 7) -/

/-- R222: the states of a move record. -/
inductive MoveSt where
  | starting | copying | finishing | salvaging | restoring
  deriving DecidableEq, Repr

/-- R223: how far a line of the page being copied has come. -/
inductive LineSt where
  | todo | reading | got (data : LineData) (poison : Bool) | writing | done
  deriving DecidableEq, Repr

/-- R222: a move record that is not FREE, with the page attempt in progress. -/
structure Move where
  state : MoveSt
  copying : Bool
  restore : Bool
  front : Nat
  attempts : Nat
  gran : Nat
  dest : Loc
  abandons : Nat
  /-- The location and Generation of the entry when the move began. -/
  old : Loc
  /-- R223 step 4: slices have reported the page clear and the copy has started. -/
  clear : Bool
  /-- The 64 lines of the page in progress. -/
  lines : List LineSt
  /-- The page of lines that are still on their way after their attempt has ended. -/
  stale : Option Nat
  /-- R224: the clock of step 3 of this attempt, and before which no further attempt starts. -/
  started : Nat
  notBefore : Nat
  /-- R224: F437 has been raised for this move. -/
  stalled : Bool
  /-- R226: what is lost: source, destination. -/
  lostSrc : Bool
  lostDst : Bool
  /-- R226: pages still to be salvaged. -/
  salvage : List Nat
  /-- R217: the write of the final entry has been asked for, and has completed. -/
  finalAsked : Bool
  finalDone : Bool
  /-- R501: the outcome so far. -/
  outcome : Nat
  /-- R299: the MIGRATE-GRANULE descriptor that started it: queue and index. -/
  owner : Option (Nat × Nat)
  deriving DecidableEq, Repr

/-- R220: who writes a remap entry. -/
inductive RemapWriter where
  | software | mover (move : Nat)
  deriving DecidableEq, Repr

/-- R217: a remap write that is applying. -/
structure RemapWrite where
  gran : Nat
  entry : BitVec 48
  writer : RemapWriter
  deriving DecidableEq, Repr

/-- R231: one valid or partly written guard rule, of 256 bits. -/
abbrev GuardRule := BitVec 256

/-- Remap backing, moves and guard sets. -/
structure MapState where
  /-- R213: entry of granule `g`. -/
  backing : Tab (BitVec 48)
  /-- R217, R220: the write that is applying, and writes that wait, sweeps and the tier mover first. -/
  write : Option RemapWrite
  waiting : List RemapWrite
  /-- R215: granules whose synthesised answer has been reported since their entry was written. -/
  reported : List Nat
  moves : Tab Move
  /-- R228: the clock before which the bandwidth limit lets no further page start. -/
  paceNext : Nat
  /-- R299: moves that have ended and whose MIGRATE-GRANULE descriptor has not completed: descriptor, outcome, Front. -/
  ended : List ((Nat × Nat) × Nat × Nat)
  guardActive : Tab GuardRule
  guardShadow : Tab GuardRule
  shadowDefault : Nat
  /-- R236: the set being swapped in, and stages that have swapped. -/
  swapped : List Nat
  /-- R234: F438 has been raised since the last commit completed. -/
  refusalRaised : Bool
  deriving DecidableEq, Repr

/-! ### Aulum links (chapter 8, R460 to R464) -/

/-- R252: a DATA or MAC flit in the replay buffer, as first sent; how often it has been replayed. -/
structure FlitRec where
  seq : BitVec 12
  mac : Bool
  cls : BitVec 3
  valid : BitVec 3
  slots : BitVec 1920
  tries : Nat
  deriving DecidableEq, Repr

/-- R260: what a port records of its partner on each entry to UP. -/
structure Partner where
  switch : Nat
  port : Nat
  epoch : BitVec 32
  swEpoch : BitVec 32
  deriving DecidableEq, Repr

/-- One Aulum port. Its state, version, width, lane map and epochs are entries of OD 6100 + a. -/
structure AulPort where
  partner : Option Partner
  /-- R249: the next sequence number to use; E; the Ack field in force; flits accepted since the last ack point. -/
  seq : BitVec 12
  expect : BitVec 12
  ack : BitVec 12
  accepted : Nat
  /-- R252: the replay buffer, oldest first, and the place in it of the next flit to be replayed. -/
  replay : List FlitRec
  resend : Option Nat
  /-- R251: a NAK has been received; one is to be sent; the clock at which the last was decided on. -/
  nakIn : Bool
  nakDue : Bool
  nakAt : Option Nat
  /-- R248: initial credits of each VC; the Credits count last seen, cells freed by the partner and units sent, since UP. -/
  credInit : Tab Nat
  seen : Tab Nat
  freedTotal : Tab Nat
  sent : Tab Nat
  /-- R248: own cells freed, and the cumulative count returned, since UP; the next credit group; the next VC to send. -/
  freed : Tab Nat
  told : Tab Nat
  group : Nat
  turn : Nat
  /-- R253: lane parities of the last data block received and sent; none after a control flit block. -/
  parIn : Option (BitVec 4)
  parOut : Option (BitVec 4)
  /-- R256: the logical lanes in use. -/
  lanes : List Nat
  /-- R254: the clocks of the parity faults of each logical lane inside the window. -/
  faults : Tab (List Nat)
  /-- R240, R254: spares, 0 and 1 of the die, that training found connected to this port's partner. -/
  spares : BitVec 2
  /-- R254: the lane and spare that this end has asked for; the lane and spare that are being moved. -/
  asking : Option (Nat × Nat)
  moving : Option (Nat × Nat)
  /-- R255: spares that the partner has refused since the link last came UP or resumed. -/
  denied : BitVec 2
  /-- R255, R257: lane-sparing-unavailable and version-refused have been raised. -/
  sparesOut : Bool
  refused : Bool
  /-- R257: the training under way has agreed on a version that may not come UP. -/
  agreed : Bool
  /-- R460: keys of sets 0 and 1. -/
  rxKey0 : Option (BitVec 256)
  rxKey1 : Option (BitVec 256)
  txKey0 : Option (BitVec 256)
  txKey1 : Option (BitVec 256)
  /-- R461: the groups that are open: the additional data and the ciphertext of their DATA flits; the sequence of the
  transmit group's first flit; it is to be closed; group counters. -/
  rxGroup : List (BitVec 24 × BitVec 1920)
  txGroup : List (BitVec 24 × BitVec 1920)
  txFirst : BitVec 12
  macDue : Bool
  rxCount : BitVec 64
  /-- R463: the MAC flit whose Ack ends the rollover. -/
  rollMac : Option (BitVec 12)
  deriving DecidableEq, Repr

/-- R261: a grace that runs: when it started, and tags of the mover that were outstanding to another switch. -/
structure Grace where
  start : Nat
  tags : List Nat
  deriving DecidableEq, Repr

/-- The Aulum links. -/
structure AulState where
  ports : Tab AulPort
  /-- R110, R270: ingress pairs at `port * 8 + VN`, oldest first, each unit with its dateline class (`inp`). -/
  inq : Tab (List Held)
  /-- R261: the latest switch epoch known of each other switch. -/
  epochs : Tab (BitVec 32)
  /-- R262: members to which the restart notice has been sent, and members that have acknowledged it. -/
  noticed : List Nat
  acked : List Nat
  /-- R261: graces that run, oldest first. -/
  graces : List Grace
  deriving DecidableEq, Repr

/-! ### Mover (chapter 9) -/

/-- R276: the states of a queue. -/
inductive QueueSt where
  | disabled | enabled | stopping | error
  deriving DecidableEq, Repr

/-- R273, R276, R280 to R288: a submission queue. -/
structure SubQ where
  /-- Owner function plus 1, 0 none; local number. -/
  owner : Nat
  loc : Nat
  st : QueueSt
  err : Nat
  qcb : Nat
  /-- R280: descriptor format, bound CQ (global), size code and ring base, as read on enabling. -/
  fmt : Nat
  cq : Nat
  n : Nat
  ring : Nat
  /-- R282: the consumer index, which counts dispatches; R285: the last producer index read. -/
  c : BitVec 32
  p : BitVec 32
  /-- R285: the read-pending bit; a QCB read is outstanding. -/
  pend : Bool
  reading : Bool
  /-- R288: the first index not yet fetched since the last QCB read. -/
  next : BitVec 32
  /-- R288: indices being fetched. -/
  fetching : List (BitVec 32)
  /-- R288: descriptors read with a device-owned mark. -/
  kept : List (BitVec 32 × BitVec 512)
  /-- R288: indices below `p` that were found not device-owned once. -/
  looked : List (BitVec 32)
  /-- R285: a QCB read has returned the index up to which everything is dispatched. -/
  idle : Bool
  /-- R282: dispatches since the consumer index was last written. -/
  since : Nat
  deriving DecidableEq, Repr

/-- R300: a completion, without its Phase. -/
structure Completion where
  status : Nat
  sq : Nat
  index : BitVec 32
  result : BitVec 64
  interrupt : Bool
  deriving DecidableEq, Repr

/-- R273, R276, R303: a completion queue. -/
structure CompQ where
  owner : Nat
  loc : Nat
  st : QueueSt
  err : Nat
  qcb : Nat
  vec : Nat
  intFail : Bool
  n : Nat
  ring : Nat
  /-- Producer index; last consumer index read. -/
  d : BitVec 32
  c : BitVec 32
  reading : Bool
  pend : Bool
  hold : List Completion
  /-- R303: slots taken, of dispatched descriptors and held completions. -/
  slots : Nat
  full : Bool
  deriving DecidableEq, Repr

/-- How far a part of an access has come: not issued, on its way, waiting after a Nack, its data sent, finished, failed with a
status. -/
inductive PartSt where
  | wait | out | back | go | done | bad (status : Nat)
  deriving DecidableEq, Repr

/-- R235, R278: a part of an access: within one line of the pool, or one TLP of a host access. -/
structure MovPart where
  off : Nat
  len : Nat
  addr : Nat
  pool : Option (Nat × BitVec 42)
  st : PartSt
  tag : Nat
  nacks : Nat
  senior : Bool
  first : BitVec 32
  due : Nat
  /-- When a read of host memory was sent. -/
  issued : Nat
  data : List Byte
  poison : Bool
  /-- R302: ranges of the part that came with poison: offset in it and length. -/
  bad : List (Nat × Nat)
  deriving DecidableEq, Repr

/-- What an access of the mover is for. -/
inductive MovUse where
  /-- R280: the QCB read on enabling; R285, R286: later reads. -/
  | enable (cq : Bool) (q : Nat)
  | sqQcb (q : Nat)
  | cqQcb (q : Nat)
  /-- R287: a descriptor. -/
  | fetch (q : Nat) (i : BitVec 32)
  /-- R296: an operand of a piece of execution `x`: role 0 source A, 1 second source B, 2 destination. -/
  | piece (x off role : Nat)
  /-- R293, R298, R310: a record, result or saved context of execution `x`, and the context that it loads. -/
  | record (x : Nat)
  | context (x : Nat)
  /-- R297: the zero-length read of execution `x`. -/
  | zero (x : Nat)
  /-- Index, status and completion writes. -/
  | silent
  /-- R309: a CXL.io request. -/
  | tlp (no : Nat)
  /-- R330, R331: an LCB, and a log entry that is re-armed. -/
  | lcb (chan : Nat)
  | relog (chan : Nat)
  deriving DecidableEq, Repr

/-- One access of the mover to pool or host memory. -/
structure MovAcc where
  id : Nat
  fn : Option Nat
  vcs : Nat
  write : Bool
  use : MovUse
  parts : List MovPart
  deriving DecidableEq, Repr

/-- R296: a piece that has started. -/
structure Piece where
  off : Nat
  len : Nat
  /-- The source data is complete, up to the piece's first failing offset; the check unit has consumed it; the destination's
  accesses have been started; they have finished. -/
  ready : Bool
  eaten : Bool
  writing : Bool
  written : Bool
  data : List Byte
  /-- Offsets in the piece of the lines of the source that returned poison. -/
  poison : List Nat
  fail : Option (Nat × Nat)
  deriving DecidableEq, Repr

/-- R295 to R297: a dispatched descriptor whose completion has not been written or held. -/
structure Exec where
  id : Nat
  sq : Nat
  index : BitVec 32
  fn : Nat
  vcs : Nat
  cq : Nat
  desc : BitVec 512
  /-- It has its check unit, and its context if it resumes. -/
  started : Bool
  /-- Offset of the next piece; of a MIGRATE-GRANULE the move's number; of a FLUSH 1 once no line is left to evict. -/
  next : Nat
  pieces : List Piece
  /-- R302: the lowest failing offset with its status. -/
  fail : Option (Nat × Nat)
  /-- COMPARE: the first differing byte. -/
  diff : Option Nat
  /-- R310: bytes consumed by the check unit, and its context meanwhile. -/
  eaten : Nat
  ctx : BitVec 512
  /-- R312, R313: bytes of the word, and of the counter, being read; alive faults found. -/
  word : List Byte
  counter : List Byte
  faults : Nat
  /-- R293, R298, R299: a result decided by the operation: status and result. -/
  result : Option (Nat × BitVec 64)
  /-- R298: evictions that a FLUSH awaits. -/
  flush : List Nat
  /-- The final record has been started; the zero-length read of R297 has. -/
  saved : Bool
  zeroed : Bool
  /-- R297: it has written to host memory. -/
  wroteHost : Bool
  /-- R333: its function has been reset. -/
  dropped : Bool
  /-- R314: the safe state has ended it. -/
  safe : Bool
  deriving DecidableEq, Repr

/-- R306: a line of the mover cache, and when it was last used. -/
structure CacheLine where
  home : Nat
  line : BitVec 42
  data : LineData
  poison : Bool
  dirty : Bool
  /-- R233: the VCS under which Guard checks a write of this line: that of the last descriptor to write it. -/
  owner : Option Nat
  used : Nat
  deriving DecidableEq, Repr

/-- R171: a RdOwn of the mover cache. -/
structure CacheFill where
  tag : Nat
  home : Nat
  line : BitVec 42
  back : Bool
  nacks : Nat
  senior : Bool
  first : BitVec 32
  due : Nat
  /-- R233: the VCS under which Guard checks the request again. -/
  owner : Option Nat
  deriving DecidableEq, Repr

/-- R306: how an evicted line goes home: WbDirty or EvictClean; WrOwn after NackWb, before and after GoWr. -/
inductive EvictSt where
  | wb | clean | wrOwn | go
  deriving DecidableEq, Repr

/-- R306: a line that is being evicted. -/
structure CacheEvict where
  tag : Nat
  home : Nat
  line : BitVec 42
  st : EvictSt
  data : LineData
  poison : Bool
  snooped : Bool
  back : Bool
  nacks : Nat
  senior : Bool
  first : BitVec 32
  due : Nat
  owner : Option Nat
  /-- R263: it has been issued again after a restart. -/
  reissued : Bool
  deriving DecidableEq, Repr

/-- R293: the operations of an ATOMIC. -/
inductive AtomKind where
  | fetchAdd | swap | cas
  deriving DecidableEq, Repr

/-- R293, R307, R308: an operation that waits for its line: of an execution, or of a CXL.io request. -/
structure AtomOp where
  home : Nat
  line : BitVec 42
  off : Nat
  width : Nat
  kind : AtomKind
  a : BitVec 128
  b : BitVec 128
  exec : Bool
  no : Nat
  /-- R233: the VCS of its descriptor; none for an AtomicOp of CXL.io, which Guard has checked at its port. -/
  owner : Option Nat
  deriving DecidableEq, Repr

/-- R307, R309: a CXL.io request that the mover carries out: the access once it has been started. -/
structure TlpWork where
  no : Nat
  src : BitVec 12
  tag : BitVec 16
  vcs : Nat
  tlp : Tlp
  acc : Option Nat
  deriving DecidableEq, Repr

/-- The mover and the mover cache. -/
structure MovState where
  sqs : Tab SubQ
  cqs : Tab CompQ
  execs : List Exec
  accs : List MovAcc
  /-- The next number of an access, an execution or a CXL.io request. -/
  nextNo : Nat
  /-- Lines of set `k`. -/
  lines : Tab (List CacheLine)
  fills : List CacheFill
  evs : List CacheEvict
  ops : List AtomOp
  tlps : List TlpWork
  /-- R168: the mover cache agent's LFSR; R263: entries in quarantine. -/
  lfsr : Option (BitVec 32)
  quar : Tab (BitVec 42)
  clock : Nat
  /-- R311: contexts of the check units. -/
  ctx : Tab (BitVec 512)
  /-- R298: the whole cache is being flushed by OD 7003.01. -/
  flushAll : Bool
  /-- R297: tags of host writes that have left on the upstream port, or have been lost on their way. -/
  gone : List Nat
  /-- R323: class B2 tokens that each function has drawn in this epoch. -/
  shares : Tab Nat
  deriving DecidableEq, Repr

/-! ### Veneer functions and log channels (chapter 10) -/

/-- R331: the states of a log channel, as OD .15 numbers them. -/
inductive LogSt where
  | off | logging | overflow | resetting
  deriving DecidableEq, Repr

/-- R325 to R331: one log channel. -/
structure LogCh where
  state : LogSt
  /-- Size code, ring base, producer index, re-armed index. -/
  n : Nat
  ring : Nat
  d : BitVec 32
  r : BitVec 32
  /-- R325: pages of the window whose bit is set. -/
  pages : List Nat
  outside : Bool
  /-- R328: entries since the producer index was last written. -/
  unsent : Nat
  /-- R330: the consumer index up to which re-arming is under way. -/
  rearm : Option (BitVec 32)
  deriving DecidableEq, Repr

/-- R316 to R324, R332: one function. -/
structure Func where
  /-- R321: error vector enable, error vector, queue error, kind of the last queue in error, its local number. -/
  errEnable : Bool
  errVector : Nat
  qErr : Bool
  qErrCq : Bool
  qErrNum : Nat
  /-- R334. -/
  resetPending : Bool
  /-- R318: it leaves its slot when the reset completes. -/
  leaving : Bool
  /-- R334: accesses of the function that are outstanding. -/
  outstanding : Nat
  /-- R320: MSI-X vectors enabled by the host, and pending. -/
  vecOn : List Nat
  vecPending : List Nat
  /-- R278, R91: Max_Payload_Size and Max_Read_Request_Size. -/
  mps : Nat
  mrrs : Nat
  deriving DecidableEq, Repr

/-- Functions and log channels. -/
structure VenState where
  funcs : Tab Func
  chans : Tab LogCh
  /-- R324: the function that holds counter set `f`, plus 1; 0 none. -/
  setOwner : Tab Nat
  /-- R317: NumVFs of a VCS's base function, and VCSs whose VF Enable is set. -/
  numVfs : Tab Nat
  vfEnable : List Nat
  deriving DecidableEq, Repr

/-! ### Messages to the outside -/

/-- What the part sends to the outside, in order. -/
inductive Out where
  /-- R401: the answer to a dictionary command. -/
  | status (st : Status)
  /-- R376, R370: answers on the management bus. -/
  | busError (m : Nat) (id : Nat) (e : BusErr)
  | busData (m : Nat) (id : Nat) (bytes : List Byte)
  | busAck (m : Nat) (id : Nat)
  /-- R397, R409: a Sprineno message. -/
  | message (via : Transport) (bytes : List Byte)
  | mailboxUnsupported (v : Nat)
  /-- R421, R477, R475: interrupts. -/
  | coreInterrupt (src : Nat)
  | samplerInterrupt (k : Nat)
  | msixPool (v : Nat) (vector : Nat)
  | domainData (st : Status) (bytes : List Byte)
  | spdm (conn : Nat) (reply : SpdmReply)
  /-- R33, R503: a message leaves on the link of a CXL port. -/
  | link (port : Nat) (msg : LinkMsg)
  /-- R100: the answer to an FM-API command: its return code, and its fields in the order that the command's docstring gives. -/
  | fmapi (rc : FmRc) (values : List Nat)
  /-- R88: a hot-plug interrupt of vPPB `d` of VCS `vcs`. -/
  | hotplug (vcs d : Nat)
  /-- R84: what the part's own enumeration of a POOL device sets: the HDM decoders of the LDs of `mask` over their whole capacity, and through the FM-owned LD of a multi-logical device their allocation. -/
  | poolSetup (port mask : Nat)
  /-- R106: what the part sends to a device below port `port`: 1 hot reset, 3 retrain, 4 CXL Reset, as the port command counts. -/
  | deviceReset (port kind : Nat)
  /-- R98: the host of VCS `vcs` is told of an extent: 0 offered, 1 its release is asked for, 2 it is released. -/
  | dcEvent (vcs kind base len : Nat)
  /-- R100: a command for the FM-owned LD of the device at port `port`. -/
  | tunnel (port : Nat) (bytes : List Byte)
  /-- R93, R98: the answer of the pool endpoint of VCS `vcs` to its host's command: whether it was taken. -/
  | endpoint (vcs : Nat) (ok : Bool)
  /-- R203, R262: a management message to the management complex of another switch. -/
  | peer (switch : Nat) (msg : PeerMsg)
  /-- R242, R243, R258: the lane blocks of a data flit block, or of a control flit block, leave on an Aulum link. -/
  | aulumFlit (a : Nat) (blocks : LaneBlocks)
  | aulumControl (a : Nat) (blocks : LaneBlocks)
  /-- R320: an MSI-X message of a function. -/
  | msix (fn : Nat) (vector : Nat)
  deriving DecidableEq, Repr

/-- R338: the state of the main domain as it was when the domain was lost. -/
structure LastMain where
  fab : FabState
  swc : SwcState
  dir : DirState
  map : MapState
  aul : AulState
  mov : MovState
  ven : VenState
  deriving DecidableEq, Repr

/-- The whole machine. -/
structure State where
  time : TimeState
  /-- Running values of the dictionary entries that differ from their defaults, keyed `index * 256 + subindex`. -/
  od : Tab Nat
  spr : SprState
  flt : FltState
  pow : PowState
  mgmt : MgmtState
  perf : PerfState
  pins : PinState
  fab : FabState
  swc : SwcState
  port : PortState
  home : HomeState
  prox : ProxState
  dir : DirState
  map : MapState
  aul : AulState
  mov : MovState
  ven : VenState
  sec : SecState
  /-- R338: what the entries of the main domain report while it is off. -/
  last : Option LastMain
  /-- Messages sent and not yet taken away by the outside. -/
  out : List Out
  /-- How many free values have been drawn: the model's own field. -/
  fresh : Nat
  /-- The commands that wait, first in, first out. -/
  pending : List Instr
  deriving DecidableEq, Repr

/-! ### The device right after reset -/

/-- Chapter 2: every buffer empty, epoch 0, the direction groups of R269. -/
def fabReset : FabState :=
  { xing := [], ring := [], turn := [], eject := [], missTurn := [], missEject := [], ni := [], rrVn := [], lastTurn := []
    urgent := [], bypass := [], links0 := [(0, 0x000F), (1, 0x00F0), (2, 0x0F00), (3, 0xF000)]
    links1 := [(0, 0x000F), (1, 0x00F0), (2, 0x0F00), (3, 0xF000)], src0 := [], src1 := [], nextId := 0, sliceMap := []
    drainTimer := [], heldClosed := [] }

/-- Chapter 4: nothing held, the limits of R112. -/
def swcReset : SwcState :=
  { egress := [], ingress := [], active := [], raising := [], cutting := [], gaps := [], ring := [], traceSeq := 0
    lastTrace := none }

/-- R92: no error logged. -/
def aerReset : AerState :=
  { unsupported := false, malformed := false, completerAbort := false, advisory := false, header := none, injected := 0 }

/-- R88: an unbound vPPB. -/
def vppbReset : Vppb :=
  { state := .unbound, port := 0, ld := 0, option := 0, presence := false, presenceChanged := false, linkChanged := false
    attention := false, secBus := 0, subBus := 0, memBase := 0, memLimit := 0, prefBase := 0, prefLimit := 0, powerFault := false, asker := 0
    hotplugOn := false, dpc := false, aer := aerReset }

/-- R93: a decoder that nothing has programmed. -/
def decoderReset : Decoder := { base := 0, size := 0, ways := 0, gran := 8, committed := false, error := false }

/-- Chapter 3. -/
def portReset : PortState :=
  { dec := [], ext := [], binds := [], upAer := [], upBus := [], np := [], mps := [], lost := [], l0p := []
    retry := [], perstWait := [], narrowed := [], recovering := [], bgOps := [], respLimit := 10, sweeps := [], flushAsked := []
    margin := [], cfgRegs := [], doe := [] }

/-- Chapter 5: a slice with nothing in it. -/
def sliceReset : HomeSlice :=
  { trk := [], buf := [], senior := [], holds := [], rcache := [], rplru := [], fills := [], gated := [], paged := [], quar := []
    lostLines := [] }

/-- Chapter 5: the homes. -/
def homeReset : HomeState := { slices := [] }

/-- R160: a proxy with nothing in its tables. -/
def proxyReset : Proxy := { reqs := [], evs := [], wrs := [], snps := [], nextBi := 0, lfsr := none, mute := [], quarantine := [] }

/-- R154: a pool port agent with nothing in it. -/
def poolReset : PoolAgent := { writes := [], reads := [], nextTag := 0 }

/-- Chapter 5: the requester side. -/
def proxReset : ProxState := { proxies := [], pools := [], fans := [], seed := 0 }

/-- R206: the partitions at reset: partition 0 alone, with k = 22. -/
def partitionsReset : List Partition := [{ enable := true, base := 0, limit := 0, k := 22, setBase := 0 }]

/-- R200: a range that is NORMAL with nothing pending. -/
def recoveryReset : Recovery := { active := false, base := 0, limit := 0, vcs := 0, switches := [], timeoutRaised := false }

/-- Chapter 6: the directory starts empty (R200). -/
def dirReset : DirState :=
  { cache := [], plru := [], sf := [], inserting := [], remote := [], removals := [], pass := none, hostWait := [], walks := []
    recov := [], implicitRange := false, asked := [], askedBy := [], parts := partitionsReset, clearing := false, marver := 0
    corrected := [] }

/-- Chapter 7: every entry UNMAPPED, no move, no rules. -/
def mapReset : MapState :=
  { backing := [], write := none, waiting := [], reported := [], moves := [], paceNext := 0, ended := [], guardActive := [], guardShadow := []
    shadowDefault := 0, swapped := [], refusalRaised := false }
/-- R249: an Aulum port that has never been UP. -/
def aulPortReset : AulPort :=
  { partner := none, seq := 0, expect := 0, ack := 4095, accepted := 0, replay := [], resend := none, nakIn := false
    nakDue := false, nakAt := none, credInit := [], seen := [], freedTotal := [], sent := [], freed := [], told := [], group := 0
    turn := 0, parIn := none, parOut := none, lanes := [0, 1, 2, 3], faults := [], spares := 0, asking := none, moving := none
    denied := 0, sparesOut := false, refused := false, agreed := false, rxKey0 := none, rxKey1 := none, txKey0 := none, txKey1 := none, rxGroup := []
    txGroup := [], txFirst := 0, macDue := false, rxCount := 0, rollMac := none }

/-- Chapter 8. -/
def aulReset : AulState := { ports := [], inq := [], epochs := [], noticed := [], acked := [], graces := [] }


/-- R276: a submission queue as at reset. -/
def subReset : SubQ :=
  { owner := 0, loc := 0, st := .disabled, err := 0, qcb := 0, fmt := 0, cq := 0, n := 0, ring := 0, c := 0, p := 0, pend := false
    reading := false, next := 0, fetching := [], kept := [], looked := [], idle := false, since := 0 }

/-- R276: a completion queue as at reset. -/
def compReset : CompQ :=
  { owner := 0, loc := 0, st := .disabled, err := 0, qcb := 0, vec := 0, intFail := false, n := 0, ring := 0, d := 0, c := 0
    reading := false, pend := false, hold := [], slots := 0, full := false }

/-- Chapter 9. -/
def movReset : MovState :=
  { sqs := [], cqs := [], execs := [], accs := [], nextNo := 0, lines := [], fills := [], evs := [], ops := [], tlps := [], lfsr := none
    quar := [], clock := 0, ctx := [], flushAll := false, gone := [], shares := [] }

/-- R331: a channel that is OFF. -/
def logReset : LogCh :=
  { state := .off, n := 9, ring := 0, d := 0, r := 0, pages := [], outside := false, unsent := 0, rearm := none }

/-- R321: a function that nothing has set up. -/
def funcReset : Func :=
  { errEnable := false, errVector := 0, qErr := false, qErrCq := false, qErrNum := 0, resetPending := false, leaving := false
    outstanding := 0, vecOn := [], vecPending := [], mps := 128, mrrs := 512 }

/-- Chapter 10. -/
def venReset : VenState := { funcs := [], chans := [], setOwner := [], numVfs := [], vfEnable := [] }

/-- R457: nothing certified. -/
def certReset : CertConfig :=
  { ownerHash := 0, approved := true, debugPolicy := 1, debugHash := 0, ideRequired := 0, encRequired := 0, generation := 0 }

/-- R445: the image that bank `b` (0 A, 1 B) of kind `k` holds as the module is shipped: DESIGN CHOICE, log entry 19. -/
def shippedImage (k : Nat) : FwImage :=
  { kind := k, counter := 0, svn := 0, keySlot := 0, keyHash := 0, headerOk := true, hashOk := true, signatureOk := true
    measurement := 0, size := 4194304 }

/-- R452: a new SPDM connection. -/
def spdmReset : SpdmConn :=
  { versioned := false, capable := false, slot := none, latched := false, version := 0, sessions := [], opening := []
    chunkIn := [], chunkNext := 0, chunkOut := 0, chunkOutSeq := 0 }

/-- R458: IDE of a port that nothing has set up. -/
def ideReset : IdePort := { established := false, keySet := false, programmed := [], trusted := false }

/-- Chapter 15. -/
def secReset : SecState :=
  { fuseHash := [], revoked := [], counters := [], banks := [], bootSec := false, bootMgmt := false, running := []
    runSecB := false, runMgmtB := false, selfTests := false, healthFailed := false, recovery := false, cert := certReset
    certNext := none, unlocked := false, permissions := 0, expiresAt := 0, nonce := 0, signUntil := 0, spdm := []
    nextSpdm := 0, spdmReply := [], ide := [] }

/-- R475: a host sampler. -/
def hostSamplerReset : HostSampler :=
  { enable := false, vector := 0, event := 0, periodLow := 0, periodHigh := 0, threshold := 0 }

/-- R481: a timestamp input. -/
def tsiReset : TsiState := { queue := [], edges := 0, lost := false }

/-- Chapter 16. -/
def perfReset : PerfState := { cnt := [], vcs := [], sets := [], snapshot := [], snapNo := 0, host := [], tsi := [] }

/-- R365: a core after reset runs at P0. -/
def coreReset : CoreSt :=
  { level := .p0, saved := [], lastExc := none, setA := [], setB := [], activeB := false, epoch := 0, faultRec := 0
    refetch := false }

/-- R349: a slot channel. -/
def slotReset : SlotCh :=
  { state := .disabled, qualified := false, present := false, insertTimer := false, retryTimer := false, faultTimer := false
    rampTimer := false, gateWindow := false, fullDrive := false, inWindow := false, powerGood := false, pfail := true
    goodTicks := 0, history := [], lowTicks := 0, vin := 0, vout := 0, cur := 0, temp := 0, energy := 0, cause := 0
    retries := 0, hostRequest := none, dropped := false }

/-- A supply before its first sample. -/
def supplyReset : Supply := { mV := 0, mA := 0, good := false, ovp := false, nGood := 0, nLost := 0, nOver := 0, nClear := 0 }

/-- An image slot that holds no image. -/
def imageReset : ImageSlot := { valid := false, generation := 0, od := [], srcCfg := [], guard := [] }

/-- R356: the governor. -/
def govReset : GovState :=
  { grants := [0, 0, 0, 0], drawn := [0, 0, 0, 0], deficit := [0, 0, 0, 0], power := 0, pfc := 0, factor := 256, budget := 0
    prevPfg := 0, epochs := none, thermal := false, alerted := false, dieRead := false, overCap := 0 }

/-- The device with every supply off and nothing stored: the state in which VAUX first rises (R337, R340). -/
def State.reset : State where
  time := { clock := 0, devTime := 0, slewLeft := 0, correction := 0, lossReported := false, grandmaster := 0 }
  od := []
  spr := { sessions := [], nextSession := 1, segs := [], commit := none, slot0 := imageReset, slot1 := imageReset, loaded := [], serving := false }
  flt := { pairs := [], railFaults := [], railDriven := [], cfg := [], sticky := [], timers := [], counts := [], lastLogged := []
           latch := none, overflow := false, lastInterrupt := 0xFFFF, unlocked := false, oneShot := [], continuous := []
           safe := false, safeCause := 0xFFFF, isoPorts := [], isoAulum := [], isoIslands := [], isoSlices := [], log := []
           nextSeq := 0, frozen := false, crash := [], cullet := [], writing := [] }
  pow := { vin12 := supplyReset, vaux := supplyReset, vauxGood := false, vinQualified := false, mainOn := false, step := 0
           stepTimes := [], stopped := false, restarting := false, resMv := 0, capUf := 0, vauxStage := .none, powSamples := 0
           powSum := 0, powAvg := 0, slots := [], gov := govReset, sensors := [] }
  mgmt := { cores := [], sram := [], outstanding := [], held := [], rrPtr := [], lastDma := [] }
  perf := perfReset
  pins := { resetN := true, faultLow := false, ready := false, inReset := false, perstLow := List.range 96, perstIn := [] }
  fab := fabReset
  swc := swcReset
  port := portReset
  home := homeReset
  prox := proxReset
  dir := dirReset
  map := mapReset
  aul := aulReset
  mov := movReset
  ven := venReset
  sec := { secReset with
    fuseHash := [(0, 0), (1, 0), (2, 0), (3, 0)]
    banks := [(2, shippedImage 1), (3, shippedImage 1), (4, shippedImage 2), (5, shippedImage 2)] }
  last := none
  out := []
  fresh := 0
  pending := []

/-- The data path: what UM-20 leaves open (R440). -/
structure DataPath where
  fab : FabState
  swc : SwcState
  port : PortState
  home : HomeState
  prox : ProxState
  dir : DirState
  map : MapState
  aul : AulState
  mov : MovState
  deriving DecidableEq, Repr

end Sys2Proof.Machine

/-- R377, R440, UM-20: the data path after a write of an agent register; `none`: as it was. The manual states nothing of it (log entry
25). -/
opaque Sys2Proof.Config.dataPathAfter : Nat → Option Sys2Proof.Machine.DataPath
end

