-- ==== Sys2Proof/Machine/Ops.lean ====
section
/-!
DEFINITION. Machine/Ops.lean: the operations that every chapter's commands share: tables, dictionary entries, counters,
records of time, notifies, the event log, fault reports and messages to the outside.
-/

namespace Sys2Proof.Machine

/-! ### Sparse tables -/

/-- The value listed at `k`, if any. -/
def tabFind? {α : Type} (k : Nat) : Tab α → Option α
  | [] => none
  | (j, v) :: t => if j = k then some v else tabFind? k t

/-- The value at `k`, an unlisted number reading as `d`. -/
def tabGet {α : Type} (d : α) (k : Nat) (t : Tab α) : α :=
  (tabFind? k t).getD d

/-- List `v` at `k`, keeping the rising order. -/
def tabPut {α : Type} (k : Nat) (v : α) : Tab α → Tab α
  | [] => [(k, v)]
  | (j, w) :: t =>
    if k < j then (k, v) :: (j, w) :: t
    else if k = j then (k, v) :: t
    else (j, w) :: tabPut k v t

/-- List nothing at `k`. -/
def tabDel {α : Type} (k : Nat) (t : Tab α) : Tab α :=
  t.filter fun p => decide (p.1 ≠ k)

/-- The table with `v` at `k`; the value an unlisted number reads as is not listed. -/
def tabSet {α : Type} [DecidableEq α] (d : α) (k : Nat) (v : α) (t : Tab α) : Tab α :=
  if v = d then tabDel k t else tabPut k v t

/-- The table changed at `k` by `f`. -/
def tabMod {α : Type} [DecidableEq α] (d : α) (k : Nat) (f : α → α) (t : Tab α) : Tab α :=
  tabSet d k (f (tabGet d k t)) t

/-- The numbers listed. -/
def tabKeys {α : Type} (t : Tab α) : List Nat :=
  t.map Prod.fst

/-- The canonical form of a table of bytes: addresses strictly rising, and no entry equal to what an unlisted address `a` reads as,
`z a`. -/
def Memory.wf (z : Nat → Byte) : Tab Byte → Bool
  | [] => true
  | [(a, b)] => decide (b ≠ z a)
  | (a, b) :: (c, d) :: t => decide (a < c) && decide (b ≠ z a) && Memory.wf z ((c, d) :: t)

/-- A list of numbers without repeats, in rising order: put `n` in. -/
def setInsert (n : Nat) : List Nat → List Nat
  | [] => [n]
  | m :: t => if n < m then n :: m :: t else if n = m then m :: t else m :: setInsert n t

/-- Take `n` out of a list of numbers. -/
def setRemove (n : Nat) (l : List Nat) : List Nat :=
  l.filter fun m => decide (m ≠ n)

/-! ### Bytes (R8: little-endian) -/

/-- The `n` bytes of `v`, least significant first. -/
def leBytes : Nat → Nat → List Byte
  | 0, _ => []
  | n + 1, v => BitVec.ofNat 8 v :: leBytes n (v / 256)

/-- The value of a list of bytes, least significant first. -/
def leValue : List Byte → Nat
  | [] => 0
  | b :: t => b.toNat + 256 * leValue t

/-- Bits `[hi..lo]` of a number. -/
def bits (v hi lo : Nat) : Nat :=
  v / 2 ^ lo % 2 ^ (hi + 1 - lo)

/-! ### Dictionary entries (R386) -/

/-- The key of entry `idx.sub` in the tables of running values. -/
def odKey (idx sub : Nat) : Nat := idx * 256 + sub

/-- The running value of entry `idx.sub`, its default where nothing has changed it (R389, R390). -/
def odGet (s : State) (idx sub : Nat) : Nat :=
  tabGet (dictDefault idx sub) (odKey idx sub) s.od

/-- The device sets the running value of entry `idx.sub`. -/
def odSet (s : State) (idx sub v : Nat) : State :=
  { s with od := tabSet (dictDefault idx sub) (odKey idx sub) v s.od }

/-! ### Counters (R471 to R476) -/

/-- Device-wide counter `n` rises by `k`, modulo 2^48 (R471). -/
def bump (s : State) (n k : Nat) : State :=
  { s with perf := { s.perf with cnt := tabMod 0 n (fun c => c + BitVec.ofNat 48 k) s.perf.cnt } }

/-- R473: the number of the counter of entry `idx.sub`. -/
def counterNo (idx sub : Nat) : Nat := (idx - 0xC000) * 32 + (sub - 1)

/-- The counter of entry `idx.sub` counts one event. -/
def bumpC (s : State) (idx sub : Nat) : State := bump s (counterNo idx sub) 1

/-- The counter of entry `idx.sub` counts `k` events. -/
def bumpCBy (s : State) (idx sub k : Nat) : State := bump s (counterNo idx sub) k

/-- R474: event `e` of VCS `v` counts `k`. -/
def bumpVcs (s : State) (v e k : Nat) : State :=
  { s with perf := { s.perf with vcs := tabMod 0 (v * 128 + e) (fun c => c + BitVec.ofNat 48 k) s.perf.vcs } }

/-- The value of device-wide counter `n`. -/
def counter (s : State) (n : Nat) : Counter := tabGet 0 n s.perf.cnt

/-! ### Free values -/

/-- Draw the next free value. -/
def freshVal (s : State) : BitVec 64 := Config.freeValue s.fresh

/-- Count a draw. -/
def drawn (s : State) : State := { s with fresh := s.fresh + 1 }

/-! ### Messages to the outside -/

/-- Send `o`. -/
def emit (s : State) (o : Out) : State := { s with out := s.out ++ [o] }

/-- Send several, in order. -/
def emitAll (s : State) (os : List Out) : State := { s with out := s.out ++ os }

/-- Answer a dictionary command that has a row of its own with its status (R401). -/
def answered (r : State × Status) : Host.Outcome State Fault Refusal :=
  .next (emit r.1 (.status r.2))

/-! ### Time (R12, R480) -/

/-- R480: a record is flagged Undisciplined exactly while the state is UNDISCIPLINED. -/
def undisciplined (s : State) : Bool := decide (odGet s 0xC050 6 = 0)

/-! ### Notifies (R407, R408) -/

/-- R408: put a record into a session's queue, preceded by an OVERFLOW record when records were lost; a record that finds
256 records queued is lost. The second component is whether it was lost. -/
def queueRecord (ss : Session) (r : NotifyRec) : Session × Bool :=
  if 256 ≤ ss.queue.length then ({ ss with lost := min (ss.lost + 1) 0xFFFFFF }, true)
  else if ss.lost = 0 then ({ ss with queue := ss.queue ++ [r] }, false)
  else
    let ovf : NotifyRec :=
      { time := r.time, detail := 0, value := 0, kind := 3, undisciplined := r.undisciplined, index := 0, sub := 0,
        lost := ss.lost }
    if 255 ≤ ss.queue.length then ({ ss with queue := ss.queue ++ [ovf], lost := 1 }, true)
    else ({ ss with queue := ss.queue ++ [ovf, r], lost := 0 }, false)

/-- R395: the session sees entry `idx.sub`. -/
def seesEntry (ss : Session) (idx sub : Nat) : Bool :=
  match dictRow? idx sub with
  | some r => decide (r.since ≤ ss.odVersion)
  | none => false

/-- R407: the session is subscribed to the event group of index `idx`. -/
def takesEvents (ss : Session) (idx : Nat) : Bool :=
  ss.subs.any fun sub => decide (sub.kind = 2) && decide (sub.sub = idx / 0x1000)

/-- R407: a Sprineno notify: an EVENT record for entry `idx.sub` to every session subscribed to the entry's group that sees
the entry. -/
def notify (s : State) (idx sub value : Nat) (detail : BitVec 64) : State :=
  let r : NotifyRec :=
    { time := s.time.devTime, detail := detail, value := BitVec.ofNat 64 value, kind := 2,
      undisciplined := undisciplined s, index := idx, sub := sub, lost := 0 }
  let qs := s.spr.sessions.map fun ss =>
    if takesEvents ss idx && seesEntry ss idx sub then queueRecord ss r else (ss, false)
  let s1 := { s with spr := { s.spr with sessions := qs.map Prod.fst } }
  bumpCBy s1 0xC02C 5 (qs.filter Prod.snd).length

/-- Set an entry that reports state and send its notify. -/
def odSetNotify (s : State) (idx sub v : Nat) (detail : BitVec 64) : State :=
  notify (odSet s idx sub v) idx sub v detail

/-! ### Event log (R432, R433) -/

/-- R418: the syndrome of a report. -/
def Report.syndrome (r : Report) : BitVec 64 :=
  if r.rail then BitVec.ofNat 64 (2 ^ 62 + (if r.injected then 2 ^ 63 else 0))
  else BitVec.ofNat 64 ((if r.injected then 2 ^ 63 else 0) + r.cause.toNat * 2 ^ 48 + r.detail.toNat)

/-- R432, R433: append an entry, unless the log is frozen; beyond 65,536 entries the oldest is overwritten. -/
def logAppend (s : State) (source code severity : Nat) (rail : Bool) (syndrome : BitVec 64) (data : BitVec 192) : State :=
  if s.flt.frozen then s else
    let e : LogEntry :=
      { time := s.time.devTime, seq := BitVec.ofNat 64 s.flt.nextSeq, source := BitVec.ofNat 16 source,
        code := BitVec.ofNat 16 code, severity := BitVec.ofNat 8 severity, rail := rail,
        undisciplined := undisciplined s, syndrome := syndrome, data := data }
    let l := s.flt.log ++ [e]
    { s with flt := { s.flt with log := l.drop (l.length - 65536), nextSeq := s.flt.nextSeq + 1 } }

/-- An entry that is not a report, of severity 0 (R433). -/
def logInfo (s : State) (source code : Nat) (data : BitVec 192) : State :=
  logAppend s source code 0 false 0 data

/-! ### Fault sources (R416, R417) -/

/-- R417: a source whose pair is idle drives 0b10 with its syndrome and holds it until the collector has captured it
(`FAULT_REPORT`). A source that already holds a report goes on holding that one. -/
def raiseReport (s : State) (src : Nat) (r : Report) : State :=
  match tabFind? src s.flt.pairs with
  | some _ => s
  | none => { s with flt := { s.flt with pairs := tabPut src r s.flt.pairs } }

/-- Raise source `src` with a cause and a detail. -/
def raiseFault (s : State) (src cause detail : Nat) : State :=
  raiseReport s src
    { injected := false, rail := false, cause := BitVec.ofNat 8 cause, detail := BitVec.ofNat 48 detail, data := 0 }

/-- Raise source `src` with further context for its log entry (R419). -/
def raiseFaultData (s : State) (src cause detail : Nat) (data : BitVec 192) : State :=
  raiseReport s src
    { injected := false, rail := false, cause := BitVec.ofNat 8 cause, detail := BitVec.ofNat 48 detail, data := data }

end Sys2Proof.Machine
end

