-- ==== Sys2Proof/Machine/FaultCfg.lean ====
section
/-!
DEFINITION. Machine/FaultCfg.lean: the fault sources' default classes, units and injection kinds (R416, R419, R422, R428).
-/

namespace Sys2Proof.Machine

/-- R416, R419: the default class of a source; a reserved source, which is never generated, has class 0. -/
def defaultClass (f : Nat) : Nat :=
  if f < 208 then 1
  else if f < 272 then 0
  else if f < 308 then 4
  else if f < 358 then 3
  else if f < 427 then 4
  else
    match f with
    | 431 => 0 | 432 => 4 | 433 => 4 | 438 => 0 | 447 => 0 | 449 => 4 | 451 => 4 | 452 => 0 | 511 => 4
    | _ => if f < 454 then 1 else 0

/-- R416, R419: the source has a unit that isolation acts on. -/
def hasUnit (f : Nat) : Bool :=
  decide (f < 160) || (decide (208 ≤ f) && decide (f < 272)) || (decide (308 ≤ f) && decide (f < 358)) ||
    decide (f = 428) || decide (f = 432) || decide (f = 433)

/-- R422: the default record of a source. -/
def defaultRecord (f : Nat) : BitVec 64 :=
  BitVec.ofNat 64 (100000 * 2 ^ 32 + (if hasUnit f then 0 else 128) + defaultClass f)

/-- R422: the record of source `f` in force. -/
def srcRecord (s : State) (f : Nat) : BitVec 64 := tabGet (defaultRecord f) f s.flt.cfg

/-- R422: class, timer and escalation of a record. -/
def recClass (r : BitVec 64) : Nat := r.toNat % 8
def recTimer (r : BitVec 64) : Nat := r.toNat / 2 ^ 32
def recSafe (r : BitVec 64) : Bool := r.getLsbD 7

/-- R422, R9: reserved bits are kept zero. -/
def recMask (r : BitVec 64) : BitVec 64 :=
  BitVec.ofNat 64 (recTimer r * 2 ^ 32 + (if recSafe r then 128 else 0) + recClass r)

/-- R422: a record that may be written for source `f`. -/
def recordOk (f : Nat) (r : BitVec 64) : Bool :=
  decide (recClass r ≤ 4) && decide (1 ≤ recTimer r) && decide (recTimer r ≤ 10000000) &&
    (hasUnit f || (decide (recClass r ≠ 3) && recSafe r)) && (decide (f ≠ 511) || decide (recClass r = 4))

/-- R416, R419, R428: the source accepts check injection. -/
def checkInjectable (f : Nat) : Bool :=
  decide (f < 96) || (decide (272 ≤ f) && decide (f < 363)) || decide (f = 432) || decide (f = 433) ||
    decide (f = 448) || decide (f = 449) || decide (f = 450)

/-- R428: the source accepts some injection. -/
def injectable (f : Nat) : Bool := decide (f ≠ 451) && decide (f ≠ 511)

/-- R428: the next check of source `f` uses inverted check bits, by a continuous or a one-shot injection. -/
def checkInverted (s : State) (f : Nat) : Bool := s.flt.continuous.contains f || s.flt.oneShot.contains f

/-- R428: a one-shot injection is spent by the check. -/
def checkDone (s : State) (f : Nat) : State :=
  { s with flt := { s.flt with oneShot := setRemove f s.flt.oneShot } }

/-- R420, R428: a read of LPDDR6 address `a` whose check an injection inverts is an uncorrectable error (F448): the state, and whether
it is one. -/
def lpddrChecked (s : State) (a : Nat) : State × Bool :=
  if checkInverted s 448 then
    (raiseReport (checkDone s 448) 448
      { injected := true, rail := false, cause := 0, detail := BitVec.ofNat 48 a, data := 0 }, true)
  else (s, false)

/-- R420: the same for what the manual gives no place in LPDDR6: the address reported is a free value (log entry 44). -/
def lpddrUnplaced (s : State) : State × Bool :=
  if checkInverted s 448 then lpddrChecked (drawn s) ((freshVal s).toNat % 2 ^ 37) else (s, false)

/-- R416: what isolation acts on. -/
inductive FaultUnit where
  | port (p : Nat)
  | aulum (a : Nat)
  | island (k : Nat)
  | slice (l : Nat)
  deriving DecidableEq, Repr

/-- R416: sources of the main domain, whose pairs are ignored while it is off (R417). -/
def mainSource (f : Nat) : Bool :=
  decide (f < 160) || (decide (208 ≤ f) && decide (f < 363)) || (decide (427 ≤ f) && decide (f < 439)) ||
    decide (f = 441) || decide (f = 448)

/-- The port island of a source, if it lies in one (R417). -/
def islandSource (f : Nat) : Option Nat :=
  if f < 96 then some (f / 6)
  else if f < 160 then some ((f - 96) / 4)
  else if 342 ≤ f ∧ f < 358 then some (f - 342)
  else none

end Sys2Proof.Machine
end

