-- ==== Sys2Proof/Machine/Tokens.lean ====
section
/-!
DEFINITION. Machine/Tokens.lean: the tokens of the Lehr governor that background work draws before it starts (R358, R359).
-/

namespace Sys2Proof.Machine

/-- R358: class `k` starts work of `cost` tokens, if its grant allows it: it draws the cost, or, when it has drawn nothing
in this epoch, its whole grant with the excess as a deficit. -/
def drawTokens? (g : GovState) (k cost : Nat) : Option GovState :=
  let grant := g.grants.getD k 0
  let used := g.drawn.getD k 0
  if used + cost ≤ grant then some { g with drawn := g.drawn.set k (used + cost) }
  else if used = 0 ∧ 0 < grant then
    some { g with drawn := g.drawn.set k grant, deficit := g.deficit.set k (g.deficit.getD k 0 + (cost - grant)) }
  else none

/-- R358: class `k` of the governor starts work of `cost` tokens, or finds none. -/
def spend? (s : State) (k cost : Nat) : Option State :=
  (drawTokens? s.pow.gov k cost).map fun g => { s with pow := { s.pow with gov := g } }

end Sys2Proof.Machine
end

