-- ==== Sys2Proof/Machine/Units.lean ====
section
/-!
DEFINITION. Machine/Units.lean: the 80-byte unit: its header and CRC (R29, R41 to R46), the bodies that units carry (R62,
R144 to R147), the types of each virtual network (R90, R143) and the places of agents (R37 to R40).
-/

namespace Sys2Proof.Machine

/-! ### Virtual networks and header (R42, R50) -/

/-- R50: the code of a VN. -/
def vnCode : Vn → Nat
  | .req => 0 | .wb => 1 | .snp => 2 | .rsp => 3 | .dat => 4 | .iop => 5 | .ion => 6 | .ioc => 7

/-- R50: the VN of a code. -/
def vnOf : Nat → Vn
  | 0 => .req | 1 => .wb | 2 => .snp | 3 => .rsp | 4 => .dat | 5 => .iop | 6 => .ion | _ => .ioc

/-- All VNs in code order. -/
def allVns : List Vn := [.req, .wb, .snp, .rsp, .dat, .iop, .ion, .ioc]

/-- The VN carries CXL.io packets. -/
def vnIsIo : Vn → Bool
  | .iop => true | .ion => true | .ioc => true | _ => false

/-- R50: the VN is aged. -/
def vnAged : Vn → Bool
  | .req => true | .iop => true | .ion => true | _ => false

/-- One bit. -/
def bit1 (b : Bool) : BitVec 1 := if b then 1#1 else 0#1

/-- R42, R46: the header bits [127..16]. -/
def headerTop (u : FUnit) : BitVec 112 :=
  BitVec.ofNat 3 (vnCode u.vn) ++ u.type ++ u.dst ++ u.src ++ u.tag ++ bit1 u.epoch ++ u.age ++ bit1 u.mc ++ u.line ++
    bit1 u.poison ++ u.follow ++ bit1 u.synth ++ bit1 u.yx

/-- One step of the CRC-16 of R29, polynomial 0x1021. -/
def crcStep (c : BitVec 16) (b : Bool) : BitVec 16 :=
  let f := c.getMsbD 0 ^^ b
  if f then (c <<< 1) ^^^ 0x1021#16 else c <<< 1

/-- R29, R43: the CRC-16 over `n` bits, most significant first. -/
def crc16 {n : Nat} (v : BitVec n) : BitVec 16 :=
  (List.range n).foldl (fun c i => crcStep c (v.getMsbD i)) 0xFFFF#16

/-- R43: the CRC of a unit. -/
def unitCrc (u : FUnit) : BitVec 16 := crc16 (headerTop u ++ u.payload)

/-- R41: the 640 bits of a unit. -/
def packUnit (u : FUnit) : UnitBits := headerTop u ++ unitCrc u ++ u.payload

/-- R42: the header of a unit, as trace records hold it. -/
def unitHeader (u : FUnit) : BitVec 128 := headerTop u ++ unitCrc u

/-- R29: the check of received bits. -/
def crcOk (w : UnitBits) : Bool :=
  decide (crc16 (w.extractLsb' 528 112 ++ w.extractLsb' 0 512) = w.extractLsb' 512 16)

/-- R42: the unit that received bits spell. -/
def unpackUnit (w : UnitBits) : FUnit :=
  let h : BitVec 128 := w.extractLsb' 512 128
  { vn := vnOf (h.extractLsb' 125 3).toNat, type := h.extractLsb' 119 6, dst := h.extractLsb' 107 12, src := h.extractLsb' 95 12
    tag := h.extractLsb' 79 16, epoch := h.getLsbD 78, age := h.extractLsb' 66 12, mc := h.getLsbD 65
    line := h.extractLsb' 23 42, poison := h.getLsbD 22, follow := h.extractLsb' 18 4, synth := h.getLsbD 17
    yx := h.getLsbD 16, payload := w.extractLsb' 0 512 }

/-! ### Places (R36 to R40, R44) -/

/-- The code of an agent at a stop. -/
def place (stop agent : Nat) : BitVec 12 := BitVec.ofNat 12 (stop * 16 + agent)

/-- R44: a switch code. -/
def switchCode (w : Nat) : BitVec 12 := BitVec.ofNat 12 (0xC00 + w)

/-- R44: the switch that a field names, if it is a switch code. -/
def switchOf (d : BitVec 12) : Option Nat := if 0xC00 ≤ d.toNat then some (d.toNat - 0xC00) else none

/-- Stop and agent of a field that is not a switch code. -/
def stopOf (d : BitVec 12) : Nat := d.toNat / 16
def agentOf (d : BitVec 12) : Nat := d.toNat % 16

/-- R36: column and row of a stop, and the stop at a column and row. -/
def stopX (n : Nat) : Nat := n % 12
def stopY (n : Nat) : Nat := n / 12
def stopAt (x y : Nat) : Nat := 12 * y + x

/-- R36: the ring island of a stop. -/
def ringIsland (n : Nat) : Nat := 6 * (stopY n / 2) + stopX n / 2

/-- R37: the stops of the port island bridges. -/
def bridgeStop (k : Nat) : Nat :=
  match k with
  | 0 => stopAt 0 0 | 1 => stopAt 2 4 | 2 => stopAt 4 8 | 3 => stopAt 0 10
  | 4 => stopAt 6 0 | 5 => stopAt 8 4 | 6 => stopAt 10 8 | 7 => stopAt 6 10
  | 8 => stopAt 1 11 | 9 => stopAt 5 9 | 10 => stopAt 3 5 | 11 => stopAt 1 1
  | 12 => stopAt 7 11 | 13 => stopAt 11 9 | 14 => stopAt 9 5 | _ => stopAt 7 1

/-- R37: the port island bridged at a stop. -/
def bridgeAt (n : Nat) : Option Nat := (List.range 16).find? fun k => decide (bridgeStop k = n)

/-- R38: the ring island of physical slice `h`. -/
def sliceIsland (h : Nat) : Nat := if h ≤ 13 then h else if h ≤ 19 then h + 1 else h + 2

/-- R38: the stop of physical slice `h`. -/
def sliceStop (h : Nat) : Nat := stopAt (2 * (sliceIsland h % 6) + 1) (2 * (sliceIsland h / 6))

/-- R38: the physical slice at a stop. -/
def sliceAt (n : Nat) : Option Nat := (List.range 34).find? fun h => decide (sliceStop h = n)

/-- R37: the mover's stop, the configuration window's stop and the memory controllers' stops. -/
def moverStop : Nat := stopAt 7 6
def windowStop : Nat := stopAt 5 4
def memStop (m : Nat) : Nat :=
  match m with
  | 0 => stopAt 2 3 | 1 => stopAt 8 3 | 2 => stopAt 2 9 | _ => stopAt 8 9

/-- R37: the memory-controller island at a stop. -/
def memAt (n : Nat) : Option Nat := (List.range 4).find? fun m => decide (memStop m = n)

/-- R16, R40: the place of CXL port `p`'s agent; its island. -/
def portIsland (p : Nat) : Nat := p / 6
def portPlace (p : Nat) : BitVec 12 := place (bridgeStop (p / 6)) (1 + p % 6)

/-- The CXL port that a field names. -/
def portOf (d : BitVec 12) : Option Nat :=
  if (switchOf d).isSome then none
  else
    match bridgeAt (stopOf d) with
    | some k => if 1 ≤ agentOf d ∧ agentOf d ≤ 6 then some (6 * k + (agentOf d - 1)) else none
    | none => none

/-- R40: the agent code names an agent at the stop. -/
def agentExists (stop agent : Nat) : Bool :=
  if agent = 0 then true
  else if (bridgeAt stop).isSome then decide (agent ≤ 8)
  else if (sliceAt stop).isSome then decide (agent = 1)
  else if stop = moverStop then decide (agent ≤ 2)
  else if stop = windowStop then decide (agent = 1)
  else if (memAt stop).isSome then decide (agent ≤ 4)
  else false

/-- R44: the field has the reserved form. -/
def reservedForm (d : BitVec 12) : Bool := decide (0x900 ≤ d.toNat) && decide (d.toNat < 0xC00)

/-- R39: physical slice of logical slice `l`, and back. -/
def physicalOf (s : State) (l : Nat) : Nat := tabGet l l s.fab.sliceMap
def logicalOf (s : State) (phys : Nat) : Option Nat := (List.range 32).find? fun l => decide (physicalOf s l = phys)

/-- The place of logical slice `l`. -/
def slicePlace (s : State) (l : Nat) : BitVec 12 := place (sliceStop (physicalOf s l)) 1

/-- The places of the mover engine, the mover cache and the configuration window. -/
def moverPlace : BitVec 12 := place moverStop 1
def cachePlace : BitVec 12 := place moverStop 2
def windowPlace : BitVec 12 := place windowStop 1

/-- OD 6000.01: this switch's number. -/
def ownSwitch (s : State) : Nat := odGet s 0x6000 1

/-- R10: the host ID of VCS `v` of this switch. -/
def hostId (s : State) (v : Nat) : BitVec 16 := BitVec.ofNat 16 (ownSwitch s * 64 + v)

/-- OD (2200 + v).02: the upstream port of VCS `v`, if one is named. -/
def upstreamPort (s : State) (v : Nat) : Option Nat :=
  let p := odGet s (0x2200 + v) 2
  if p < 96 then some p else none

/-- The VCS whose upstream port is CXL port `p`. -/
def vcsOfPort (s : State) (p : Nat) : Option Nat :=
  let v := odGet s (0x2100 + p) 4
  if odGet s (0x2100 + p) 1 = 1 ∧ v < 64 then some v else none

/-- R142, R278: the agent of this switch that a tag of a requester names; 64 to 71 are the mover cache. -/
def tagAgent (s : State) (tag : BitVec 16) : BitVec 12 :=
  let a := tag.toNat / 512
  if 64 ≤ a ∧ a ≤ 71 then cachePlace
  else
    match upstreamPort s a with
    | some p => portPlace p
    | none => 0

/-- R142: where a unit for `d` with tag `tag` is sent: a code of this switch stands for the local agent that the tag names. -/
def resolved (s : State) (d : BitVec 12) (tag : BitVec 16) : BitVec 12 :=
  if d = switchCode (ownSwitch s) then tagAgent s tag else d

/-! ### Types (R90, R143) -/

/-- R47: the type code is reserved on the VN. -/
def reservedType (v : Vn) (t : Nat) : Bool :=
  if t = 0x3F then false
  else
    match v with
    | .req => decide (t = 7) || decide (9 < t)
    | .wb => decide (5 < t)
    | .snp => decide (1 < t)
    | .rsp => !(decide (t ≤ 3) || (decide (8 ≤ t) && decide (t ≤ 0xC)) || decide (t = 0x10) ||
        (decide (0x18 ≤ t) && decide (t ≤ 0x1A)))
    | .dat => decide (0xC < t) || decide (t = 3) || decide (t = 7) || decide (t = 0xB)
    | .iop => decide (2 < t)
    | .ion => decide (6 < t)
    | .ioc => decide (1 < t)

/-- R47: the unit has a reserved Units-following value. -/
def reservedFollow (u : FUnit) : Bool := decide (u.type ≠ 0x3F) && decide (8 < u.follow.toNat)

/-- An empty unit from `src` to `dst`. -/
def blankUnit (v : Vn) (ty : Nat) (src dst : BitVec 12) (tag : BitVec 16) (line : BitVec 42) : FUnit :=
  { vn := v, type := BitVec.ofNat 6 ty, dst := dst, src := src, tag := tag, epoch := false, age := 0, mc := false, line := line
    poison := false, follow := 0, synth := false, yx := false, payload := 0 }

/-- R70: the UNREACHABLE unit that stop `n` builds from `u`. -/
def unreachable (n : Nat) (u : FUnit) : FUnit :=
  { u with
    vn := if vnIsIo u.vn then .ioc else .rsp
    type := 0x3F
    dst := u.src
    src := place n 0
    mc := false
    follow := BitVec.ofNat 4 (vnCode u.vn * 2)
    synth := true
    yx := false }

/-- R46, R47: the units of its packet that come after `u`; an UNREACHABLE unit is always a single one. -/
def unitsLeft (u : FUnit) : Nat := if u.type = 0x3F then 0 else u.follow.toNat

/-- R49: the units of one packet in a list in order: from Source `src` and Tag `tag`, the one with `n` units to follow and those
after it. -/
def packetFrom (src : BitVec 12) (tag : BitVec 16) : Nat → List Held → List Held
  | _, [] => []
  | n, h :: l =>
    if h.u.src = src ∧ h.u.tag = tag ∧ unitsLeft h.u = n then (if n = 0 then [h] else h :: packetFrom src tag (n - 1) l)
    else packetFrom src tag n l

/-- R49: the units of the packet of `h` that stand in a list, from `h` on. -/
def packetUnits (l : List Held) (h : Held) : List Held :=
  packetFrom h.u.src h.u.tag (unitsLeft h.u) (l.dropWhile fun g => decide (g.id ≠ h.id))

/-- R49: `h` and all the units of its packet after it stand in a list. -/
def packetThere (l : List Held) (h : Held) : Bool := decide ((packetUnits l h).length = unitsLeft h.u + 1)

/-- R49: the list without the units of the packet of `h` from `h` on. -/
def packetRemoved (l : List Held) (h : Held) : List Held :=
  l.filter fun g => !((packetUnits l h).any fun x => decide (x.id = g.id))

/-- R46: the VN of the original of an UNREACHABLE unit. -/
def originalVn (u : FUnit) : Vn := vnOf (u.follow.toNat / 2)

/-! ### Bodies -/

/-- R144: the request body. -/
structure ReqBody where
  host : BitVec 16
  mover : Bool
  senior : Bool
  nacks : Nat
  first : BitVec 32
  mask : BitVec 64
  deriving DecidableEq, Repr

/-- R144: the payload of a request. -/
def packReq (b : ReqBody) : BitVec 512 :=
  (b.host ++ BitVec.ofNat 2 (if b.mover then 1 else 0) ++ bit1 b.senior ++ BitVec.ofNat 4 b.nacks ++ b.first ++ b.mask ++ 0#393)

/-- R144: the request body of a payload. -/
def unpackReq (p : BitVec 512) : ReqBody :=
  { host := p.extractLsb' 496 16, mover := decide ((p.extractLsb' 494 2).toNat = 1), senior := p.getLsbD 493
    nacks := (p.extractLsb' 489 4).toNat, first := p.extractLsb' 457 32, mask := p.extractLsb' 393 64 }

/-- R144: the Kind field is reserved. -/
def reservedKind (p : BitVec 512) : Bool := decide (2 ≤ (p.extractLsb' 494 2).toNat)

/-- R145: the memory body. -/
structure MemBody where
  deliver : BitVec 12
  tag : BitVec 16
  grant : Nat
  port : Nat
  ld : Nat
  gran : Nat
  wrPoison : Bool
  deriving DecidableEq, Repr

/-- R145: the payload of a MemRd or MemWr. -/
def packMem (b : MemBody) : BitVec 512 :=
  b.deliver ++ b.tag ++ BitVec.ofNat 2 b.grant ++ BitVec.ofNat 7 b.port ++ BitVec.ofNat 4 b.ld ++ BitVec.ofNat 24 b.gran ++
    bit1 b.wrPoison ++ 0#446

/-- R145: the memory body of a payload. -/
def unpackMem (p : BitVec 512) : MemBody :=
  { deliver := p.extractLsb' 500 12, tag := p.extractLsb' 484 16, grant := (p.extractLsb' 482 2).toNat
    port := (p.extractLsb' 475 7).toNat, ld := (p.extractLsb' 471 4).toNat, gran := (p.extractLsb' 447 24).toNat
    wrPoison := p.getLsbD 446 }

/-- R62, R146: the payload of a snoop. -/
def packSnp (b : SnpFields) : BitVec 512 :=
  b.hosts ++ bit1 b.mover ++ b.islands ++ b.fwdTo ++ b.fwdTag ++ bit1 b.fwd ++ BitVec.ofNat 2 b.grant ++
    BitVec.ofNat 2 b.reason ++ 0#398

/-- R62, R146: the targets and body of a payload. -/
def unpackSnp (p : BitVec 512) : SnpFields :=
  { hosts := p.extractLsb' 448 64, mover := p.getLsbD 447, islands := p.extractLsb' 431 16, fwdTo := p.extractLsb' 419 12
    fwdTag := p.extractLsb' 403 16, fwd := p.getLsbD 402, grant := (p.extractLsb' 400 2).toNat
    reason := (p.extractLsb' 398 2).toNat }

/-- R147: the response body: replier, its kind, the Nack reason and Registered. -/
def packRsp (replier : BitVec 16) (kind reason : Nat) (registered : Bool) : BitVec 512 :=
  replier ++ BitVec.ofNat 2 kind ++ BitVec.ofNat 2 reason ++ bit1 registered ++ 0#491

/-- R147: the fields of a response body. -/
def rspReplier (p : BitVec 512) : BitVec 16 := p.extractLsb' 496 16
def rspKind (p : BitVec 512) : Nat := (p.extractLsb' 494 2).toNat
def rspReason (p : BitVec 512) : Nat := (p.extractLsb' 492 2).toNat
def rspRegistered (p : BitVec 512) : Bool := p.getLsbD 491

/-- R147: a unit on RSP from a home or pool port agent, which names no replier. -/
def homeRsp (ty : Nat) (src dst : BitVec 12) (tag : BitVec 16) (line : BitVec 42) : FUnit :=
  { blankUnit .rsp ty src dst tag line with payload := packRsp 0 3 0 false }

/-- R45: the age of a unit when it leaves a holding point at which it has stood since `t`. -/
def agedBy (s : State) (t : Nat) (a : BitVec 12) : BitVec 12 :=
  BitVec.ofNat 12 (min 4095 (a.toNat + (s.time.clock - t) / 1000))

/-! ### CXL.io packets (R49, R90) -/

/-- R90: VN and type of a packet. -/
def tlpType : TlpKind → Vn × Nat
  | .memWrite => (.iop, 0) | .message => (.iop, 1) | .messageData => (.iop, 2)
  | .memRead => (.ion, 0) | .cfgRead => (.ion, 1) | .cfgWrite => (.ion, 2) | .fetchAdd => (.ion, 3) | .swap => (.ion, 4)
  | .cas => (.ion, 5) | .deferrableWrite => (.ion, 6)
  | .completion => (.ioc, 0) | .completionData => (.ioc, 1) | .unsupported => (.ion, 0)

/-- R49, R109: the units that a packet occupies. -/
def tlpUnits (t : Tlp) : Nat := max 1 ((t.hdr + t.data.length + 63) / 64)

/-- 64 bytes of a packet as a payload, zero-padded (R48). -/
def payloadOf (bs : List Byte) : BitVec 512 := BitVec.ofNat 512 (leValue (bs.take 64))

/-- R49: the units of a packet from `src` to `dst` with tag `tag`. -/
def tlpUnitsOf (t : Tlp) (src dst : BitVec 12) (tag : BitVec 16) : List FUnit :=
  let n := tlpUnits t
  (List.range n).map fun i =>
    { blankUnit (tlpType t.kind).1 (tlpType t.kind).2 src dst tag (BitVec.ofNat 42 t.requester.toNat) with
      follow := BitVec.ofNat 4 (n - 1 - i)
      poison := t.poison
      payload := payloadOf ((Config.tlpBytes t).drop (64 * i)) }

/-- A completion of request `t` with status `st`, returned by `who`. -/
def completionOf (t : Tlp) (st : Nat) (data : List Byte) : Tlp :=
  { kind := if data.isEmpty then .completion else .completionData, ld := t.ld, requester := t.requester, tag := t.tag, addr := 0
    id := t.requester, byId := true, len := data.length, hdr := 12, status := st, poison := false, data := data }

end Sys2Proof.Machine
end

