-- ==== Sys2Proof/Machine/Trace.lean ====
section
/-!
DEFINITION. Machine/Trace.lean: trace capture (R132 to R137).
-/

namespace Sys2Proof.Machine

/-- R132: the number of records that the ring holds. -/
def traceCapacity (s : State) : Nat := odGet s 0x3050 1 * 16384

/-- R132: capture runs. -/
def traceOn (s : State) : Bool := decide (odGet s 0x3050 3 = 1) && s.pow.mainOn

/-- R136: the ring is full in stop mode. -/
def traceFull (s : State) : Bool :=
  decide (odGet s 0x3050 2 = 1) && decide (traceCapacity s ≤ odGet s 0x3050 4 - odGet s 0x3050 5)

/-- R134, R137: a selection takes the next sequence number; its record is written, or lost in a full ring, without a token
of class B3, or beyond one record per ns. -/
def traceWrite (s : State) (mk : Nat → TraceRec) : State :=
  let q := s.swc.traceSeq
  let s1 := { s with swc := { s.swc with traceSeq := q + 1 } }
  if traceFull s || decide (s.swc.lastTrace = some s.time.clock) then bumpC s1 0xC022 0x0A
  else
    match spend? s1 3 1 with
    | none => bumpC s1 0xC022 0x0A
    | some s2 =>
      let w := odGet s 0x3050 4
      let kept := s2.swc.ring.filter fun p => decide (w < p.1 + traceCapacity s)
      let s3 := { s2 with swc := { s2.swc with ring := tabPut w (mk q) kept, lastTrace := some s.time.clock } }
      bumpC (odSet s3 0x3050 4 ((w + 1) % 2 ^ 64)) 0xC022 9

/-- R133: the VCS of a unit: that of the local upstream port in its Source, or in its Destination. -/
def unitVcs (s : State) (u : FUnit) : Nat :=
  let ofField (d : BitVec 12) : Option Nat := (portOf d).bind (vcsOfPort s)
  match ofField u.src with
  | some v => v
  | none => (ofField u.dst).getD 0xFF

/-- R133: filter `f` matches a unit at a tap. -/
def filterMatches (s : State) (f tap port vcs : Nat) (u : FUnit) : Bool :=
  let e := fun sub => odGet s (0x3060 + f) sub
  let a := u.line.toNat * 64
  decide (e 1 = 1) && decide (e 2 = tap) && (decide (e 3 = 0xFF) || decide (e 3 = port)) &&
    (BitVec.ofNat 8 (e 4)).getLsbD (vnCode u.vn) &&
    decide (u.type.toNat &&& e 6 = e 5 &&& e 6) &&
    (decide (e 0x0C = 0) || (!vnIsIo u.vn && decide (e 7 ≤ a) && decide (a ≤ e 8))) &&
    (decide (e 9 = 0xFF) || decide (e 9 = vcs))

/-- R134: filter `f` counts a match; it selects the first match and every 2^n-th after it. -/
def filterCount (s : State) (f : Nat) : State × Bool :=
  let c := odGet s (0x3060 + f) 0x0B
  (odSet s (0x3060 + f) 0x0B ((c + 1) % 2 ^ 48), decide (c % 2 ^ odGet s (0x3060 + f) 0x0A = 0))

/-- R132 to R135: a unit at tap `tap` with port code `port`. -/
def traceUnit (s : State) (tap port data : Nat) (u : FUnit) : State :=
  if traceOn s then
    let v := unitVcs s u
    let r := (List.range 64).foldl (fun (p : State × Option Nat) f =>
      if filterMatches s f tap port v u then
        let c := filterCount p.1 f
        (c.1, if c.2 && p.2.isNone then some f else p.2)
      else p) (s, none)
    match r.2 with
    | none => r.1
    | some f =>
      traceWrite r.1 fun q =>
        { data := BitVec.ofNat 64 data, seq := BitVec.ofNat 64 q, vcs := BitVec.ofNat 8 v, filter := BitVec.ofNat 8 f
          port := BitVec.ofNat 8 port, stage := BitVec.ofNat 8 tap, undisciplined := undisciplined s, skid := false
          time := s.time.devTime, header := unitHeader u }
  else s

/-- R135, R478, R482: a record of tap 0x10 or 0x11, with its sequence number; none while capture is disabled. -/
def traceSpecial (s : State) (tap data vcs : Nat) (skid : Bool) (header : BitVec 128) : State × Option Nat :=
  if traceOn s then
    (traceWrite s fun q =>
      { data := BitVec.ofNat 64 data, seq := BitVec.ofNat 64 q, vcs := BitVec.ofNat 8 vcs, filter := 0xFF, port := 0xFF
        stage := BitVec.ofNat 8 tap, undisciplined := undisciplined s, skid := skid, time := s.time.devTime, header := header },
      some s.swc.traceSeq)
  else (s, none)

/-- R135: the 64 bytes of a record. -/
def TraceRec.bytes (r : TraceRec) : List Byte :=
  leBytes 64 ((0#128 ++ r.data ++ r.seq ++ r.vcs ++ r.filter ++ r.port ++ r.stage ++ 0#14 ++ bit1 r.undisciplined ++
    bit1 r.skid ++ 0#16 ++ r.time ++ r.header).toNat)

/-- R420: the record at index `i` of the ring read; none where the read of LPDDR6 is an uncorrectable error. -/
def traceRecord (a : State × List (Option TraceRec)) (i : Nat) : State × List (Option TraceRec) :=
  match tabFind? i a.1.swc.ring with
  | some r =>
    let q := lpddrUnplaced a.1
    (q.1, a.2 ++ [if q.2 then none else some r])
  | none => a

/-- R420: the 64 bytes that a read returns. -/
def traceBytes : Option TraceRec → List Byte
  | some r => r.bytes
  | none => List.replicate 64 0

/-- R136: a read of the ring window: at most `n` records from the read index onward, which moves on by the number
returned. -/
def traceRead (s : State) (n : Nat) : State × List (Option TraceRec) :=
  let w := odGet s 0x3050 4
  let r0 := odGet s 0x3050 5
  let r := if odGet s 0x3050 2 = 0 ∧ traceCapacity s < w - r0 then w - traceCapacity s else r0
  let q := (List.range (min n (w - r))).foldl (fun a i => traceRecord a (r + i)) (s, [])
  (odSet q.1 0x3050 5 (r + min n (w - r)), q.2)

/-- TRACE_RING_READ (R136): a read of OD 3050.06. -/
def execTraceRingRead (n : Fin 65537) (s : State) : Host.Outcome State Fault Refusal :=
  let r := traceRead s n.val
  .next (emit r.1 (.domainData .ok (r.2.flatMap traceBytes)))

/-- TRACE_READ_INDEX_WRITE (R136): software writes OD 3050.05. -/
def execTraceReadIndexWrite (i : BitVec 64) (s : State) : Host.Outcome State Fault Refusal :=
  answered (odSet s 0x3050 5 i.toNat, .ok)

end Sys2Proof.Machine
end

