-- ==== Sys2Proof/Machine/Route.lean ====
section
/-!
DEFINITION. Machine/Route.lean: where a unit goes next: ring directions, bypasses and overrides (R55, R57, R58), route banks
and groups (R59, R268, R269), and the flow hash (R129, R130).
-/

namespace Sys2Proof.Machine

/-! ### Rings (R35, R55, R57) -/

/-- R55: directions: 0 east, 1 west, 2 north, 3 south. From column (or row) `a` to `b` of 12: the direction with fewer hops,
the positive one at a distance of 6. -/
def ringDir (plus minus a b : Nat) : Nat := if (b + 12 - a) % 12 ≤ 6 then plus else minus

/-- The direction lies on a row ring. -/
def onRow (d : Nat) : Bool := decide (d < 2)

/-- R35: the neighbour of a stop in direction `d`. -/
def neighbour (n d : Nat) : Nat :=
  match d with
  | 0 => stopAt ((stopX n + 1) % 12) (stopY n)
  | 1 => stopAt ((stopX n + 11) % 12) (stopY n)
  | 2 => stopAt (stopX n) ((stopY n + 1) % 12)
  | _ => stopAt (stopX n) ((stopY n + 11) % 12)

/-- R57: the next stop of the ring, past a bypassed one. -/
def nextStop (s : State) (n d : Nat) : Nat :=
  let m := neighbour n d
  if s.fab.bypass.contains m then neighbour m d else m

/-- R58: the X-then-Y route from stop `a` to stop `b` would turn at a bypassed stop. -/
def overridden (s : State) (a b : Nat) : Bool :=
  decide (stopX a ≠ stopX b) && decide (stopY a ≠ stopY b) && s.fab.bypass.contains (stopAt (stopX b) (stopY a))

/-- R55: the direction that a unit at `n` for stop `t` takes, unless it has arrived. -/
def wantDir (n t : Nat) (yx : Bool) : Option Nat :=
  let dx := ringDir 0 1 (stopX n) (stopX t)
  let dy := ringDir 2 3 (stopY n) (stopY t)
  if n = t then none
  else if yx then some (if stopY n = stopY t then dx else dy)
  else some (if stopX n = stopX t then dy else dx)

/-! ### Flow hash (R129, R130) -/

/-- One byte of CRC-32C, least significant bit first. -/
def crc32cByte (c : BitVec 32) (b : Byte) : BitVec 32 :=
  (List.range 8).foldl (fun x _ => if x.getLsbD 0 then (x >>> 1) ^^^ 0x82F63B78#32 else x >>> 1) (c ^^^ b.setWidth 32)

/-- R130: CRC-32C of the key's bytes. -/
def crc32c (bs : List Byte) : BitVec 32 := ~~~ (bs.foldl crc32cByte 0xFFFFFFFF#32)

/-- R129: the key of a unit. -/
def flowKey (s : State) (u : FUnit) : BitVec 64 :=
  if vnIsIo u.vn then 0b01#2 ++ 0#46 ++ u.line.extractLsb' 0 16
  else
    0b00#2 ++ u.src ++ BitVec.ofNat 10 ((switchOf u.dst).getD (ownSwitch s)) ++ 0#13 ++ u.line.extractLsb' 15 27

/-- R130: the member of `n` that a unit takes. -/
def flowPick (s : State) (u : FUnit) (n : Nat) : Nat :=
  ((crc32c (leBytes 8 (flowKey s u).toNat)).extractLsb' 16 16).toNat * n / 65536

/-! ### Route banks (R59, R268, R269) -/

/-- R59: the link table and source route table of a bank. -/
def linkMask (s : State) (bank : Bool) (i : Nat) : BitVec 16 :=
  tabGet 0 i (if bank then s.fab.links1 else s.fab.links0)
def srcEntry (s : State) (bank : Bool) (w : Nat) : BitVec 64 :=
  tabGet 0 w (if bank then s.fab.src1 else s.fab.src0)

/-- OD 3033.02: the active epoch, which is the number of the active bank. -/
def activeEpoch (s : State) : Bool := decide (odGet s 0x3033 2 = 1)

/-- OD 6001.00: switch `w` is a member of the system. -/
def isMember (s : State) (w : Nat) : Bool := (odGet s 0x6001 0).testBit w

/-- R268: the link entry of a source route to switch `w`. -/
def sourceGroup (s : State) (bank : Bool) (w : Nat) : Option Nat :=
  let e := srcEntry s bank w
  let hops := (e.extractLsb' 36 4).toNat
  let l := (e.extractLsb' 0 4).toNat
  if w ≤ 31 ∧ 1 ≤ hops ∧ hops ≤ 8 ∧ l ≠ 15 then some l else none

/-- R269: the direction group of XY routing to switch `w`, and the dateline class of a unit from switch `o`. -/
def xyGroup (s : State) (o w : Nat) : Option (Nat × Nat) :=
  let nx := odGet s 0x6000 3
  let ny := odGet s 0x6000 4
  let own := ownSwitch s
  let cx := own % 32
  let cy := own / 32
  let dx := w % 32
  let dy := w / 32
  let sx := o % 32
  let sy := o / 32
  if nx ≤ dx ∨ ny ≤ dy then none
  else if cx ≠ dx then
    let p := (dx + nx - cx) % nx
    if p ≤ nx - p then some (0, if cx < sx ∨ cx + 1 = nx then 1 else 0)
    else some (1, if sx < cx ∨ cx = 0 then 1 else 0)
  else if cy ≠ dy then
    let p := (dy + ny - cy) % ny
    if p ≤ ny - p then some (2, if cy < sy ∨ cy + 1 = ny then 1 else 0)
    else some (3, if sy < cy ∨ cy = 0 then 1 else 0)
  else none

/-- The switch on which a unit originated: its Source switch code, or this one (R269). -/
def originSwitch (s : State) (u : FUnit) : Nat := (switchOf u.src).getD (ownSwitch s)

/-- R55, R268, R269: the link entry toward switch `w`, in the bank of an epoch. -/
def groupFor (s : State) (bank : Bool) (u : FUnit) (w : Nat) : Option Nat :=
  if !isMember s w then none
  else if odGet s 0x6000 2 = 1 then (xyGroup s (originSwitch s u) w).map Prod.fst
  else sourceGroup s bank w

/-- The members of a mask in ascending port order. -/
def maskPorts (m : BitVec 16) : List Nat := (List.range 16).filter fun i => m.getLsbD i

/-- R55, R130: the Aulum port by which a unit for switch `w` leaves; none where it is UNREACHABLE (R68). -/
def aulumFor (s : State) (bank : Bool) (u : FUnit) (w : Nat) : Option Nat :=
  match groupFor s bank u w with
  | none => none
  | some g =>
    let ps := maskPorts (linkMask s bank g)
    ps[flowPick s u ps.length]?

/-- R269: the dateline class of a unit that leaves this switch. -/
def datelineClass (s : State) (u : FUnit) : Nat :=
  if odGet s 0x6000 2 = 1 then
    match switchOf u.dst with
    | some w => ((xyGroup s (originSwitch s u) w).map Prod.snd).getD 0
    | none => 0
  else 0

/-- R55: the stop and agent to which a unit is steered: its destination, or the transmit side of an Aulum port. -/
def steer (s : State) (u : FUnit) : Option (Nat × Nat) :=
  match switchOf u.dst with
  | none => some (stopOf u.dst, agentOf u.dst)
  | some w => (aulumFor s u.epoch u w).map fun a => (bridgeStop a, 7)

/-! ### Port islands (R66) -/

/-- OD 3032: state of island `k`: 0 OPEN, 1 CLOSING, 2 CLOSED, 3 OPENING. -/
def islandState (s : State) (k : Nat) : Nat := odGet s 0x3032 (k + 1)

/-- The island whose agent the unit is addressed to, other than stop control. -/
def addressedIsland (s : State) (u : FUnit) : Option Nat :=
  match steer s u with
  | some (n, a) => if a = 0 then none else bridgeAt n
  | none => none

/-- R67, R68: network interfaces treat the island as CLOSED. An island in OPENING still carries the mark of CLOSED. -/
def markedClosed (s : State) (k : Nat) : Bool := decide (islandState s k = 2) || decide (islandState s k = 3)
def markedClosing (s : State) (k : Nat) : Bool := decide (islandState s k = 1)

end Sys2Proof.Machine
end

