-- ==== Sys2Proof/Machine/Crossing.lean ====
section
/-!
DEFINITION. Machine/Crossing.lean: clock-island crossings (R28 to R31, R500) and how an agent's unit comes to its network
interface.
-/

namespace Sys2Proof.Machine

/-- A crossing that carries nothing. -/
def crossingReset : Crossing :=
  { wait := [], hold := [], flight := [], next := 0, failed := none, count := 0, nak := none, stopped := false }

/-- Crossing `c`: 0..575 the ring segment leaving stop `c / 4` in direction `c % 4`; 576 + 2k into port island `k` and
577 + 2k out of it; 608 + 2h into the slice island of `Hh` and 609 + 2h out of it; 676 + 2m into memory-controller island
`m` and 677 + 2m out of it; 684 into the mover island and 685 out of it. -/
def xing (s : State) (c : Nat) : Crossing := tabGet crossingReset c s.fab.xing

/-- Change crossing `c`. -/
def setXing (s : State) (c : Nat) (x : Crossing) : State :=
  { s with fab := { s.fab with xing := tabSet crossingReset c x s.fab.xing } }

/-- R30, R416: the fault source of a crossing: that of the island it leads into. -/
def crossingSource (s : State) (c : Nat) : Nat :=
  if c < 576 then 272 + ringIsland (nextStop s (c / 4) (c % 4))
  else if c < 608 then
    if c % 2 = 0 then 342 + (c - 576) / 2 else 272 + ringIsland (bridgeStop ((c - 576) / 2))
  else if c < 676 then
    if c % 2 = 0 then 308 + (c - 608) / 2 else 272 + ringIsland (sliceStop ((c - 608) / 2))
  else if c < 684 then
    if c % 2 = 0 then 358 + (c - 676) / 2 else 272 + ringIsland (memStop ((c - 676) / 2))
  else if c = 684 then 362 else 272 + ringIsland moverStop

/-- The crossing from a stop into the island of an agent, if it has one. -/
def crossingIn (n a : Nat) : Option Nat :=
  if a = 0 then none
  else
    match bridgeAt n, sliceAt n, memAt n with
    | some k, _, _ => some (576 + 2 * k)
    | _, some h, _ => some (608 + 2 * h)
    | _, _, some m => some (676 + 2 * m)
    | none, none, none => if n = moverStop then some 684 else none

/-- The crossing from an agent's island to its stop. -/
def crossingOut (n a : Nat) : Option Nat := (crossingIn n a).map (· + 1)

/-- R29: free slots of the hold buffer take waiting units, which are sent with the next sequence numbers. -/
def pump (x : Crossing) : Crossing :=
  let n := min (4 - x.hold.length) x.wait.length
  let seqs := (List.range n).map fun i => (x.next + i) % 4
  { x with hold := x.hold ++ seqs.zip x.wait, wait := x.wait.drop n, flight := x.flight ++ seqs, next := (x.next + n) % 4 }

/-- A unit is given to crossing `c`. -/
def crossSend (s : State) (c : Nat) (h : Held) : State :=
  let x := xing s c
  setXing s c (pump { x with wait := x.wait ++ [h] })

/-- The units on their way through crossing `c`. -/
def crossingUnits (s : State) (c : Nat) : List Held :=
  let x := xing s c
  x.hold.map Prod.snd ++ x.wait

/-- R17, R500: the die bridge of port island `k` takes another unit of VN `v` from its port island. The units of each VN that wait
at its sending end have their own places. -/
def bridgeOpen (s : State) (k : Nat) (v : Vn) : Bool :=
  decide (((xing s (577 + 2 * k)).wait.filter fun h => decide (h.u.vn = v)).length ≤ Config.bridgeSlots)

/-- The key of an agent's queue of a VN. -/
def agentKey (n a : Nat) (v : Vn) : Nat := (n * 16 + a) * 8 + vnCode v

/-- A unit reaches its network interface's injection queue. -/
def niPush (s : State) (n a : Nat) (h : Held) : State :=
  { s with fab := { s.fab with ni := tabMod [] (agentKey n a h.u.vn) (· ++ [{ h with since := s.time.clock }]) s.fab.ni } }

/-- A new unit, with the model's next number. -/
def newHeld (s : State) (u : FUnit) (t : Option Tlp) (hpa : Option (Nat × BitVec 46)) : Held :=
  { id := s.fab.nextId, u := u, tlp := t, hpa := hpa, inp := 0, since := s.time.clock }

/-- The next unit number. -/
def nextUnit (s : State) : State := { s with fab := { s.fab with nextId := s.fab.nextId + 1 } }

/-- Agent `a` at stop `n` sends a unit: over its island's crossing to its network interface. -/
def sendAt (s : State) (n a : Nat) (u : FUnit) (t : Option Tlp) (hpa : Option (Nat × BitVec 46)) : State :=
  let h := newHeld s u t hpa
  let s1 := nextUnit s
  match crossingOut n a with
  | some c =>
    -- The agent that sent it is known again at the far side by its place.
    crossSend s1 c { h with inp := a }
  | none => niPush s1 n a h

/-- An agent sends a unit whose Source is its own place. -/
def send (s : State) (u : FUnit) : State := sendAt s (stopOf u.src) (agentOf u.src) u none none

/-- An agent sends several units in order. -/
def sendAll (s : State) (us : List FUnit) : State := us.foldl send s

/-- The units of a packet, sent in order from agent `a` of stop `n`, each changed by `f`. -/
def sendTlpBy (s : State) (n a : Nat) (t : Tlp) (src dst : BitVec 12) (tag : BitVec 16) (f : FUnit → FUnit) : State :=
  (tlpUnitsOf t src dst tag).foldl (fun r u => sendAt r n a (f u) (some t) none) s

/-- The units of a packet, sent in order from agent `a` of stop `n`. -/
def sendTlp (s : State) (n a : Nat) (t : Tlp) (src dst : BitVec 12) (tag : BitVec 16) : State :=
  sendTlpBy s n a t src dst tag fun u => u

/-- R46: the units of a packet that an agent synthesises. -/
def sendSynth (s : State) (n a : Nat) (t : Tlp) (src dst : BitVec 12) (tag : BitVec 16) : State :=
  sendTlpBy s n a t src dst tag fun u => { u with synth := true }

/-- R142: the switch of origin of a unit that a remote agent has re-injected (numbered from 128, with 0 beside it). -/
def remoteOrigin (h : Held) : Option (Nat × BitVec 46) :=
  match h.hpa with
  | some (k, _) => if 128 ≤ k then some (k, 0) else none
  | none => none

/-- R70: stop `n` bounces a unit; an UNREACHABLE unit that cannot be delivered is discarded and F429 raised. The packet goes
with the answer to its last unit. -/
def bounce (s : State) (n : Nat) (h : Held) : State :=
  let u := h.u
  if u.type = 0x3F then raiseFault s 429 0 (n * 256 + vnCode (originalVn u))
  else
    let b := unreachable n u
    sendAt (traceUnit (bumpC s 0xC021 2) 8 0xFF 0 b) n 0 b (if u.follow = 0 then h.tlp else none) (remoteOrigin h)

/-- R297: a host write of the mover has left on the upstream port, or has been lost on its way. -/
def moverWriteGone (s : State) (u : FUnit) : State :=
  if u.src = moverPlace ∧ u.vn = .iop ∧ u.follow = 0 ∧ u.tag ≠ 0 then
    { s with mov := { s.mov with gone := setInsert u.tag.toNat s.mov.gone } }
  else s

/-- R31, R29: the receiver of crossing `c` takes the next unit in flight: the unit that it delivers, if it passes. The sent
unit's packet goes with it. -/
def crossReceive (s : State) (c : Nat) (w : UnitBits) : State × Option Held :=
  let x := xing s c
  match x.flight with
  | [] => (s, none)
  | q :: rest =>
    if x.stopped then (s, none)
    else if x.failed.isSome && decide (x.failed ≠ some q) then (setXing s c { x with flight := rest }, none)
    else
      let f := crossingSource s c
      let bad := !crcOk w || checkInverted s f
      let s1 := checkDone s f
      if bad then
        let n := if x.failed = some q then x.count + 1 else 1
        let vn := (x.hold.find? fun p => decide (p.1 = q)).map fun p => vnCode p.2.u.vn
        let stop := decide (odGet s 0x3020 1 < n)
        let s2 := bumpC (setXing s1 c { x with flight := rest, failed := some q, count := n, nak := some q, stopped := stop })
          0xC020 1
        if stop then
          let d := vn.getD 0 * 256 + q
          (if crcOk w then
            raiseReport s2 f { injected := true, rail := false, cause := 0, detail := BitVec.ofNat 48 d, data := 0 }
           else raiseFault s2 f 0 d, none)
        else (s2, none)
      else
        let got := (x.hold.find? fun p => decide (p.1 = q)).map fun p => { p.2 with u := unpackUnit w }
        let x1 := { x with flight := rest, failed := none, count := 0, nak := none
                           hold := x.hold.filter fun p => decide (p.1 ≠ q) }
        (setXing s1 c (pump x1), got)

/-- R29: the sender goes back to the failed unit and sends again from it onward. -/
def crossResend (s : State) (c : Nat) : State :=
  let x := xing s c
  match x.nak with
  | none => s
  | some q =>
    if x.stopped then s
    else
      let again := (x.hold.map Prod.fst).dropWhile fun r => decide (r ≠ q)
      bumpC (setXing s c { x with flight := x.flight ++ again, nak := none }) 0xC020 2

/-- CROSSING_RESEND (R29): crossing `c` receives a failed sequence number. -/
def execCrossingResend (c : Fin 686) (s : State) : Host.Outcome State Fault Refusal := .next (crossResend s c.val)

end Sys2Proof.Machine
end

