-- ==== Sys2Proof/Machine/Egress.lean ====
section
/-!
DEFINITION. Machine/Egress.lean: the packet buffers of the port dies: pairs and limits (R109 to R114), cut-through (R115 to
R118) and what a port hands to its transmitter (R503).
-/

namespace Sys2Proof.Machine

/-! ### Pairs and limits (R110, R112) -/

/-- R132: the code of a port; ports 0..95 are CXL ports, 96..111 Aulum ports. -/
def pairKey (port : Nat) (v : Vn) : Nat := port * 8 + vnCode v

/-- An egress pair. -/
def egress (s : State) (port : Nat) (v : Vn) : List EgUnit := tabGet [] (pairKey port v) s.swc.egress

/-- Change an egress pair. -/
def setEgress (s : State) (port : Nat) (v : Vn) (l : List EgUnit) : State :=
  { s with swc := { s.swc with egress := tabSet [] (pairKey port v) l s.swc.egress } }

/-- An ingress pair of a CXL port. -/
def ingress (s : State) (port : Nat) (v : Vn) : List InMsg := tabGet [] (pairKey port v) s.swc.ingress

/-- Change an ingress pair. -/
def setIngress (s : State) (port : Nat) (v : Vn) (l : List InMsg) : State :=
  { s with swc := { s.swc with ingress := tabSet [] (pairKey port v) l s.swc.ingress } }

/-- Aulum port `a`. -/
def aulPort (s : State) (a : Nat) : AulPort := tabGet aulPortReset a s.aul.ports

/-- Change Aulum port `a`. -/
def setAulPort (s : State) (a : Nat) (x : AulPort) : State :=
  { s with aul := { s.aul with ports := tabSet aulPortReset a x s.aul.ports } }

/-- R248: a virtual channel, and its VN and dateline class. -/
def vcOf (v : Vn) (cls : Nat) : Nat := 2 * vnCode v + cls

/-- R248: units of VN `v` have left the ingress pair of Aulum port `a`: their cells are free again. -/
def linkFreed (s : State) (a : Nat) (l : List Held) : State :=
  l.foldl (fun t h =>
    let x := aulPort t a
    setAulPort t a { x with freed := tabMod 0 (vcOf h.u.vn (h.inp % 2)) (· + 1) x.freed }) s

/-- R110: the ingress pair of Aulum port `a`. -/
def linkQueue (s : State) (a : Nat) (v : Vn) : List Held := tabGet [] (pairKey a v) s.aul.inq

/-- Change the ingress pair of Aulum port `a`. -/
def setLinkQueue (s : State) (a : Nat) (v : Vn) (l : List Held) : State :=
  { s with aul := { s.aul with inq := tabSet [] (pairKey a v) l s.aul.inq } }

/-- R110: the index of a port's limit entries: staged and active. -/
def stagedIdx (port : Nat) : Nat := if port < 96 then 0x3100 + port else 0x3160 + (port - 96)
def activeIdx (port : Nat) : Nat := if port < 96 then 0x3200 + port else 0x3260 + (port - 96)

/-- R112: the default limit at offset `i` (0..7 egress, 8..15 ingress). -/
def limitDefault (port i : Nat) : Nat :=
  if port < 96 then (if i < 8 then 768 else 256) else (if i < 8 then 1536 else 512)

/-- R110: the active limit at offset `i`. -/
def activeLimit (s : State) (port i : Nat) : Nat := tabGet (limitDefault port i) (port * 16 + i) s.swc.active

/-- Set an active limit. -/
def setActive (s : State) (port i v : Nat) : State :=
  { s with swc := { s.swc with active := tabSet (limitDefault port i) (port * 16 + i) v s.swc.active } }

/-- R109: the cells that a list of egress units occupies. -/
def cellsOf (l : List EgUnit) : Nat := (l.filter fun e => e.cell).length

/-- R109: the cells that a received message occupies. -/
def msgCells : PortMsg → Nat
  | .tlp t => tlpUnits t
  | _ => 1

/-- The cells in use at offset `i` of a port. -/
def cellsAt (s : State) (port i : Nat) : Nat :=
  if i < 8 then cellsOf (egress s port (vnOf i))
  else if port < 96 then ((ingress s port (vnOf (i - 8))).map fun m => msgCells m.msg).foldl (· + ·) 0
  else (linkQueue s (port - 96) (vnOf (i - 8))).length

/-- R110: the ports of a die. -/
def portsOfDie (d : Nat) : List Nat :=
  (List.range 24).map (fun i => 24 * d + i) ++ (List.range 4).map (fun i => 96 + 4 * d + i)

/-- R110: the die of a port. -/
def dieOf (port : Nat) : Nat := if port < 96 then port / 24 else (port - 96) / 4

/-- R270: the cells of a pair that one dateline class has, in XY routing: half, the odd cell going to class 1. -/
def classLimit (s : State) (port i cls : Nat) : Nat :=
  let l := activeLimit s port i
  if port < 96 ∨ odGet s 0x6000 2 = 0 then l else if cls = 1 then (l + 1) / 2 else l / 2

/-- OD 3011: the cells in use on die `d`. -/
def cellsInUse (s : State) (d : Nat) : Nat :=
  ((portsOfDie d).flatMap fun p => (List.range 16).map fun i => cellsAt s p i).foldl (· + ·) 0

/-- R110: an egress pair has room for one more cell, counting units that are already on their way into it. -/
def egressRoom (s : State) (port : Nat) (v : Vn) (coming : Nat) : Bool :=
  decide (cellsAt s port (vnCode v) + coming < activeLimit s port (vnCode v))

/-! ### The commit of limits (R113, R114) -/

/-- R113: the staged limit at offset `i`. -/
def stagedLimit (s : State) (port i : Nat) : Nat := odGet s (stagedIdx port) (i + 1)

/-- R113: the staged total of a die. -/
def stagedTotal (s : State) (d : Nat) : Nat :=
  ((portsOfDie d).flatMap fun p => (List.range 16).map fun i => stagedLimit s p i).foldl (· + ·) 0

/-- R109: the cells of a port die's packet buffer. -/
def dieCells : Nat := 262144

/-- R113: cells that the staged limits of a die ask for beyond its buffer. -/
def dieExcess (s : State) (d : Nat) : Nat := stagedTotal s d - dieCells

/-- R113: the port counts for the minimum: its role is not DISABLED, or the Aulum port is enabled. -/
def portCounts (s : State) (p : Nat) : Bool :=
  if p < 96 then decide (odGet s (0x2100 + p) 1 ≠ 0) else decide (odGet s (0x6100 + (p - 96)) 1 = 1)

/-- R114: step 2: every lowered limit of die `d` becomes active; raised ones wait. -/
def applyLimits (s : State) (d : Nat) : State :=
  let idx := (portsOfDie d).flatMap fun p => (List.range 16).map fun i => (p, i)
  let s1 := idx.foldl (fun t q =>
    if stagedLimit s q.1 q.2 < activeLimit s q.1 q.2 then setActive t q.1 q.2 (stagedLimit s q.1 q.2) else t) s
  let up := (idx.filter fun q => decide (activeLimit s q.1 q.2 < stagedLimit s q.1 q.2)).map fun q =>
    (q.1 * 16 + q.2, stagedLimit s q.1 q.2)
  { s1 with swc := { s1.swc with raising := tabPut d up s1.swc.raising } }

/-- R114: no pair of die `d` holds more than its new limit. -/
def dieSettled (s : State) (d : Nat) : Bool :=
  (portsOfDie d).all fun p => (List.range 16).all fun i => decide (cellsAt s p i ≤ activeLimit s p i)

/-- R114 step 4: raised limits of die `d` become active; the commit is complete when no die waits. -/
def raiseLimits (s : State) (d : Nat) : State :=
  match tabFind? d s.swc.raising with
  | none => s
  | some up =>
    if dieSettled s d then
      let s1 := up.foldl (fun t q => setActive t (q.1 / 16) (q.1 % 16) q.2) s
      let s2 := { s1 with swc := { s1.swc with raising := tabDel d s1.swc.raising } }
      if s2.swc.raising.isEmpty then odSet s2 0x3010 2 2 else s2
    else s

/-- R113: the commit of the staged limits. Where several refusals hold at once, the order is BUSY, BUFFER_OVER, BELOW_MINIMUM (DESIGN
CHOICE, log entry 42). -/
def bufferCommit (s : State) : State × Status :=
  if !s.swc.raising.isEmpty then (odSet s 0x3010 2 5, .busy)
  else
    match (List.range 4).find? fun d => decide (0 < dieExcess s d) with
    | some d => (odSet (odSet (odSet s 0x3010 2 3) 0x3010 3 (dieExcess s d)) 0x3010 4 d, .bufferOver)
    | none =>
      match (List.range 112).find? fun p => portCounts s p && (List.range 16).any fun i => decide (stagedLimit s p i < 9) with
      | some p => (odSet (odSet s 0x3010 2 4) 0x3010 4 (dieOf p), .belowMinimum)
      | none => ((List.range 4).foldl applyLimits (odSet s 0x3010 2 1), .ok)

/-- BUFFER_LIMIT_COMMIT (R113): COMMAND on OD 3010.01. -/
def execBufferLimitCommit (s : State) : Host.Outcome State Fault Refusal := answered (bufferCommit s)

/-- RAISED_LIMITS_ACTIVE (R114): no pair of die `d` holds more than its new limit. -/
def execRaisedLimitsActive (d : Fin 4) (s : State) : Host.Outcome State Fault Refusal := .next (raiseLimits s d.val)

/-! ### Rates and the forwarding decision (R115 to R117) -/

/-- R108: a speed code in tenths of GT/s. -/
def speedTenths (c : Nat) : Nat :=
  match c with
  | 1 => 25 | 2 => 50 | 3 => 80 | 4 => 160 | 5 => 320 | 6 => 640 | _ => 0

/-- R116: the rate of CXL port `p`, in units of 12.5 MB/s. -/
def portRate (s : State) (p : Nat) : Nat := speedTenths (odGet s (0x2100 + p) 0x12) * odGet s (0x2100 + p) 0x16

/-- R116: the rates of an Aulum port and of the fabric die, in units of 12.5 MB/s. -/
def aulumRate : Nat := 8000
def fabricRate : Nat := 38400

/-- R116: the input rate of a packet, by its Source. -/
def inputRate (s : State) (u : FUnit) : Nat :=
  if (switchOf u.src).isSome then aulumRate
  else
    match portOf u.src with
    | some p => portRate s p
    | none => if (bridgeAt (stopOf u.src)).isSome && decide (agentOf u.src = 8) then aulumRate else fabricRate

/-- The rate of an egress. -/
def outputRate (s : State) (port : Nat) : Nat := if port < 96 then portRate s port else aulumRate

/-- A message of the port's own agent, which stands in an egress pair without being a unit of the fabric. -/
def ownMessage (e : EgUnit) : Bool := e.msg.isSome && decide (e.h.u.src = e.h.u.dst)

/-- R115: an egress pair holds no unit. -/
def holdsNoUnit (l : List EgUnit) : Bool := l.all ownMessage

/-- R115, R117, R118: a unit reaches an egress: the first unit of a packet decides cut-through, and the others follow it. A packet
that begins while the packet before it is still going cut-through is stored (DESIGN CHOICE, log 21). -/
def egressPush (s : State) (port : Nat) (h : Held) (m : Option LinkMsg) : State :=
  let v := h.u.vn
  let key := pairKey port v
  let l := egress s port v
  let h1 := { h with since := s.time.clock }
  let src := h.u.src.toNat
  let tag := h.u.tag.toNat
  let left := unitsLeft h.u
  let put := fun (t : State) (cell : Bool) => setEgress t port v (l ++ [{ h := h1, cell := cell, msg := m }])
  let cutting := tabFind? key s.swc.cutting
  let follows := l.any fun e => e.cell && decide (e.h.u.src = h.u.src) && decide (e.h.u.tag = h.u.tag) &&
    decide (unitsLeft e.h.u = left + 1)
  if cutting = some (src, tag, left + 1) then
    let cut := if left = 0 then tabDel key s.swc.cutting else tabPut key (src, tag, left) s.swc.cutting
    put { s with swc := { s.swc with cutting := cut } } false
  else if follows then put s true
  else if cutting.isNone && holdsNoUnit l && decide (outputRate s port ≤ inputRate s h.u) then
    let s1 := if left = 0 then s else { s with swc := { s.swc with cutting := tabPut key (src, tag, left) s.swc.cutting } }
    bumpC (put s1 false) 0xC022 6
  else bumpC (put s true) 0xC022 7

/-- A message that the port's agent sends without a unit of its own. -/
def hostSend (s : State) (port : Nat) (v : Vn) (m : LinkMsg) : State :=
  let h := newHeld s (blankUnit v 0 (portPlace port) (portPlace port) 0 0) none none
  setEgress (nextUnit s) port v (egress s port v ++ [{ h := h, cell := false, msg := some m }])

/-- The first unit of a pair that the port's agent has not taken yet. -/
def egressHead (s : State) (port : Nat) (v : Vn) : Option Held :=
  ((egress s port v).find? fun e => e.msg.isNone).map fun e => e.h

/-- The agent has taken the unit `id`: it leaves the pair, or becomes the message `m`. -/
def egressTaken (s : State) (port : Nat) (v : Vn) (id : Nat) (m : Option LinkMsg) : State :=
  match m with
  | none => setEgress s port v ((egress s port v).filter fun e => decide (e.h.id ≠ id))
  | some x => setEgress s port v ((egress s port v).map fun e => if e.h.id = id then { e with msg := some x } else e)

/-- R49: the units of the packet of `e` that stand in a pair, from `e` on. -/
def pairPacket (l : List EgUnit) (e : EgUnit) : List Held := packetUnits (l.map fun f => f.h) e.h

/-- R49: `e` and all the units of its packet after it stand in a pair. -/
def packetWhole (l : List EgUnit) (e : EgUnit) : Bool := packetThere (l.map fun f => f.h) e.h

/-- R118: the units of a packet going cut-through that pair `key` still waits for. -/
def stillToCome (s : State) (key : Nat) : Nat := match tabFind? key s.swc.cutting with | some (_, _, n) => n | none => 0

/-- R118: the port has nothing of a packet that goes cut-through, and begins to wait for its next unit. -/
def gapOpens (s : State) (port : Nat) (v : Vn) : State :=
  let key := pairKey port v
  if (tabFind? key s.swc.cutting).isSome && (tabFind? key s.swc.gaps).isNone then
    { s with swc := { s.swc with gaps := tabPut key (stillToCome s key) s.swc.gaps } }
  else s

/-- R118: the unit that the port waited for has come: it resumes the packet. -/
def gapCloses (s : State) (port : Nat) (v : Vn) : State :=
  let key := pairKey port v
  match tabFind? key s.swc.gaps with
  | some n =>
    if stillToCome s key < n then bumpC { s with swc := { s.swc with gaps := tabDel key s.swc.gaps } } 0xC022 8 else s
  | none => s

/-- CUT_THROUGH_UNIT_ARRIVE (R118): the late unit of a cut-through packet has come, and the port resumes the packet. -/
def execCutThroughUnitArrive (port : Fin 112) (v : Vn) (s : State) : Host.Outcome State Fault Refusal :=
  .next (gapCloses s port.val v)

end Sys2Proof.Machine
end

