-- ==== Sys2Proof/Machine/Decoding.lean ====
section
/-!
DEFINITION. Machine/Decoding.lean: the stages that a request passes before its home: the Decode stage (R93 to R97), the Guard
stage (R231 to R235), and the placement of a line (R178).
-/

namespace Sys2Proof.Machine

/-! ### HDM decoders (R93, R94) -/

/-- Decoder `i` of VCS `v`. -/
def decoder (s : State) (v i : Nat) : Decoder := tabGet decoderReset (v * 32 + i) s.port.dec

/-- Change decoder `i` of VCS `v`. -/
def setDecoder (s : State) (v i : Nat) (d : Decoder) : State :=
  { s with port := { s.port with dec := tabSet decoderReset (v * 32 + i) d s.port.dec } }

/-- OD (2300 + v), OD (2340 + v): pool base and window length of decoder `i`. -/
def poolBase (s : State) (v i : Nat) : Nat := odGet s (0x2300 + v) (i + 1)
def poolWindow (s : State) (v i : Nat) : Nat := odGet s (0x2340 + v) (i + 1)

/-- OD (2500 + v), OD (2540 + v): base and length of dynamic-capacity region `r`. -/
def regionBase (s : State) (v r : Nat) : Nat := odGet s (0x2500 + v) (r + 1)
def regionLen (s : State) (v r : Nat) : Nat := odGet s (0x2540 + v) (r + 1)

/-- R97: decoder `i` of VCS `v` is the window of a dynamic-capacity region. -/
def isRegion (s : State) (v i : Nat) : Bool :=
  (List.range 8).any fun r =>
    decide (0 < regionLen s v r) && decide (regionBase s v r = poolBase s v i) && decide (regionLen s v r = poolWindow s v i)

/-- The extents of VCS `v`. -/
def extents (s : State) (v : Nat) : List Extent := tabGet [] v s.port.ext

/-- R98: a pool address lies in an ACCEPTED extent of VCS `v`. -/
def inExtent (s : State) (v pool : Nat) : Bool :=
  (extents s v).any fun e => decide (e.state = .accepted) && decide (e.base ≤ pool) && decide (pool < e.base + e.len)

/-- R94: the pool address that decoder `d` with base `pb` gives for host address `a`. -/
def decodeVia (d : Decoder) (pb a : Nat) : Nat :=
  let off := a - d.base
  pb + ((off / 2 ^ (d.gran + d.ways)) * 2 ^ d.gran + off % 2 ^ d.gran)

/-- R94: the global pool address of host physical address `a` of VCS `v`; none where it is undecoded. -/
def decodeAddr (s : State) (v a : Nat) : Option Nat :=
  let hit := (List.range 32).find? fun i =>
    let d := decoder s v i
    d.committed && decide (d.base ≤ a) && decide (a < d.base + d.size)
  match hit with
  | none => none
  | some i =>
    let p := decodeVia (decoder s v i) (poolBase s v i) a % 2 ^ 58
    if isRegion s v i && !inExtent s v p then none else some p

/-- R94: home switch and line of a pool address. -/
def poolLine (p : Nat) : Nat × BitVec 42 := (p / 2 ^ 48, BitVec.ofNat 42 (p / 64))

/-- R94: home switch and line of a host line address. -/
def decodeLine (s : State) (v : Nat) (hpa : BitVec 46) : Option (Nat × BitVec 42) :=
  (decodeAddr s v (hpa.toNat * 64)).map poolLine

/-- The pool address of a line at a home switch. -/
def poolAddr (home : Nat) (line : BitVec 42) : Nat := home * 2 ^ 48 + line.toNat * 64

/-- R95: an undecoded access of VCS `v` is counted and reported. -/
def undecoded (s : State) (v a : Nat) : State :=
  raiseFaultData (bumpVcs s v 22 1) (208 + v) 0 (a % 2 ^ 48) (BitVec.ofNat 192 ((hostId s v).toNat * 2 ^ 64 + a))

/-! ### Guard (R231 to R235) -/

/-- R236: stage `g` has swapped to the set of the commit under way. -/
def stageSwapped (s : State) (g : Nat) : Bool := s.map.swapped.contains g

/-- R236: the rules and default action that stage `g` applies. -/
def stageRules (s : State) (g : Nat) : List GuardRule × Nat :=
  if stageSwapped s g then (s.map.guardShadow.map Prod.snd, s.map.shadowDefault)
  else (s.map.guardActive.map Prod.snd, odGet s 0x5030 6)

/-- R231: fields of a rule. -/
def ruleValid (r : GuardRule) : Bool := r.getLsbD 0
def ruleBase (r : GuardRule) : Nat := (r.extractLsb' 96 42).toNat
def ruleLimit (r : GuardRule) : Nat := (r.extractLsb' 144 42).toNat
def ruleNames (r : GuardRule) (v : Nat) : Bool := r.getLsbD (192 + v)

/-- R231: the bits that a rule keeps; reserved bits read as zero. -/
def ruleMask (r : GuardRule) : GuardRule :=
  (r.extractLsb' 192 64) ++ 0#6 ++ (r.extractLsb' 144 42) ++ 0#6 ++ (r.extractLsb' 96 42) ++ 0#93 ++ (r.extractLsb' 0 3)

/-- R232: rule `r` covers a block. -/
def ruleCovers (r : GuardRule) (block : Nat) : Bool :=
  ruleValid r && decide (ruleBase r ≤ block) && decide (block ≤ ruleLimit r)

/-- R232: stage `g` permits an access of VCS `v` to a block, as read, write or both. -/
def permits (s : State) (g v block : Nat) (rd wr : Bool) : Bool :=
  let set := stageRules s g
  let cov := set.1.filter fun r => ruleCovers r block
  if cov.isEmpty then decide (set.2 = 0)
  else
    (!rd || cov.any fun r => ruleNames r v && r.getLsbD 1) && (!wr || cov.any fun r => ruleNames r v && r.getLsbD 2)

/-- R232, R11: stage `g` permits an access to a global pool address. -/
def permitsAddr (s : State) (g v p : Nat) (rd wr : Bool) : Bool := permits s g v (p / 65536) rd wr

/-- R234: a part refused at address `p` is counted, and the first refusal of the period raises F438. -/
def refusal (s : State) (v p : Nat) (wr : Bool) : State :=
  let s1 := bumpVcs (bumpC s 0xC025 9) v 23 1
  if s1.map.refusalRaised then s1
  else
    raiseFaultData { s1 with map := { s1.map with refusalRaised := true } } 438 0
      ((hostId s v).toNat * 2 ^ 32 + (if wr then 2 else 1) * 2 ^ 30) (BitVec.ofNat 192 p)

/-! ### Placement (R178) -/

/-- R178: five bits of a line number. -/
def fold5 (l : BitVec 42) (i : Nat) : BitVec 5 := l.extractLsb' (5 * i) 5

/-- R178: the logical home slice of a line. -/
def homeSlice (l : BitVec 42) : Nat :=
  (fold5 l 0 ^^^ fold5 l 1 ^^^ fold5 l 2 ^^^ fold5 l 3 ^^^ fold5 l 4 ^^^ fold5 l 5 ^^^ fold5 l 6 ^^^ fold5 l 7 ^^^
    (0#3 ++ l.extractLsb' 40 2)).toNat

/-- R178, R206: the partition of a line: the lowest-numbered enabled one whose range holds it, else partition 0. -/
def partitionOf (s : State) (l : BitVec 42) : Nat :=
  let a := l.toNat * 64
  (((List.range s.dir.parts.length).find? fun i =>
    match s.dir.parts[i]? with
    | some p => decide (0 < i) && p.enable && decide (p.base ≤ a) && decide (a ≤ p.limit)
    | none => false)).getD 0

/-- Partition `i` as committed. -/
def partition (s : State) (i : Nat) : Partition :=
  s.dir.parts.getD i { enable := false, base := 0, limit := 0, k := 19, setBase := 0 }

/-- R178: tag, set within the partition, snoop-filter set and directory-cache set of a line. -/
def tagOf (s : State) (l : BitVec 42) : Nat := l.toNat / 2 ^ ((partition s (partitionOf s l)).k + 5)
def indexOf (s : State) (l : BitVec 42) : Nat :=
  let k := (partition s (partitionOf s l)).k
  (l.toNat / 32 % 2 ^ k) ^^^ tagOf s l
def sfSetOf (s : State) (l : BitVec 42) : Nat := (partition s (partitionOf s l)).setBase + indexOf s l
def cacheSetOf (s : State) (l : BitVec 42) : Nat := indexOf s l % 8192

/-- R178: the line of slice `sl` whose upper bits L[41..5] are `u`. -/
def lineOf (sl : Nat) (u : Nat) : BitVec 42 :=
  let l0 := BitVec.ofNat 42 (u * 32)
  BitVec.ofNat 42 (u * 32 + (homeSlice l0 ^^^ sl))

/-- R178: the line of an entry in set `m` of partition `p` with tag `t` at slice `sl`. -/
def lineOfEntry (s : State) (sl p m t : Nat) : BitVec 42 :=
  let k := (partition s p).k
  lineOf sl (t * 2 ^ k + (m ^^^ t) % 2 ^ k)

/-- R142: where a request for a line of home switch `h` goes: its logical slice, or the switch. -/
def homePlace (s : State) (h : Nat) (l : BitVec 42) : BitVec 12 :=
  if h = ownSwitch s then slicePlace s (homeSlice l) else switchCode h

end Sys2Proof.Machine
end

