-- ==== Sys2Proof/Machine/PageLog.lean ====
section
/-!
DEFINITION. Machine/PageLog.lean: functions and their host memory (R274, R316 to R319), and dirty-page logging (R325 to
R329).
-/

namespace Sys2Proof.Machine

/-! ### Functions (R274, R318, R319) -/

/-- The OD index of function `n` (base functions at 7C00 + v). -/
def funcIdx (n : Nat) : Nat := 0x7800 + n

/-- Function `n`. -/
def func (s : State) (n : Nat) : Func := tabGet funcReset n s.ven.funcs

/-- Change function `n`. -/
def setFunc (s : State) (n : Nat) (f : Func) : State :=
  { s with ven := { s.ven with funcs := tabSet funcReset n f s.ven.funcs } }

/-- R318: OD (7800 + f).01 of an unassigned function. -/
def unassigned : Nat := 0xFF000000

/-- R318: VCS and slot of a veneer function's assignment. -/
def assignment (s : State) (f : Nat) : Option (Nat × Nat) :=
  let a := odGet s (funcIdx f) 1
  if bits a 31 24 = 0xFF then none else some (bits a 31 24, bits a 10 0)

/-- R274, R316: the VCS of a function. -/
def funcVcs (s : State) (n : Nat) : Option Nat :=
  if 1024 ≤ n then some (n - 1024) else (assignment s n).map Prod.fst

/-- R317, R319: the veneer function at VF slot `j` of VCS `v`. -/
def funcAtSlot (s : State) (v j : Nat) : Option Nat :=
  (List.range 1024).find? fun f => decide (assignment s f = some (v, j))

/-- vPPB `d` of VCS `v`. -/
def vppb (s : State) (v d : Nat) : Vppb := tabGet vppbReset (v * 32 + d) s.port.binds

/-- Change vPPB `d` of VCS `v`. -/
def setVppb (s : State) (v d : Nat) (x : Vppb) : State :=
  { s with port := { s.port with binds := tabSet vppbReset (v * 32 + d) x s.port.binds } }

/-- R317, R319: the requester ID of a function: device 0 on the bus below vPPB 1, its VF slot as function number. -/
def funcRid (s : State) (n : Nat) : BitVec 16 :=
  match funcVcs s n with
  | none => 0
  | some v => BitVec.ofNat 16 ((vppb s v 1).secBus * 256 + (if 1024 ≤ n then 0 else ((assignment s n).map Prod.snd).getD 0))

/-! ### Counters of functions (R324, R476) -/

/-- R324: the counter set that function `fn` holds. -/
def heldSet (s : State) (fn : Nat) : Option Nat :=
  if 1024 ≤ fn then some fn else (List.range 1024).find? fun f => decide (tabGet (f + 1) f s.ven.setOwner = fn + 1)

/-- R474, R476: event `e` of function `fn` counts `k`. -/
def bumpFn (s : State) (fn e k : Nat) : State :=
  let s1 :=
    match heldSet s fn with
    | some c => { s with perf := { s.perf with sets := tabMod 0 (c * 32 + e) (fun x => x + BitVec.ofNat 48 k) s.perf.sets } }
    | none => s
  match funcVcs s fn with
  | some v => bumpVcs s1 v (64 + e) k
  | none => s1

/-! ### Host memory (R277, R278, R329) -/

/-- A memory write TLP. -/
def memWriteTlp (rid : BitVec 16) (addr : Nat) (data : List Byte) (poison : Bool) : Tlp :=
  { kind := .memWrite, ld := 0, requester := rid, tag := 0, addr := BitVec.ofNat 64 addr, id := 0, byId := false, len := data.length
    hdr := 16, status := 0, poison := poison, data := data }

/-- R278: the mover writes host memory of VCS `v` for requester `rid`. -/
def hostWrite (s : State) (v : Nat) (rid : BitVec 16) (addr : Nat) (data : List Byte) (poison : Bool) : State :=
  match upstreamPort s v with
  | none => s
  | some p => sendTlp s moverStop 1 (memWriteTlp rid addr data poison) moverPlace (portPlace p) 0

/-! ### Log channels (R325 to R329) -/

/-- Channel `c`. -/
def logCh (s : State) (c : Nat) : LogCh := tabGet logReset c s.ven.chans

/-- Change channel `c`. -/
def setLogCh (s : State) (c : Nat) (x : LogCh) : State :=
  { s with ven := { s.ven with chans := tabSet logReset c x s.ven.chans } }

/-- The OD index of channel `c`: 7800 + f, or 7700 + t of tracker `t`. -/
def logIdx (c : Nat) : Nat := if c < 1024 then 0x7800 + c else 0x7700 + (c - 1024)

/-- R331: the code of a state. -/
def LogSt.code : LogSt → Nat
  | .off => 0 | .logging => 1 | .overflow => 2 | .resetting => 3

/-- R325: the VCS of a channel's window. -/
def logVcs (s : State) (c : Nat) : Option Nat :=
  if c < 1024 then funcVcs s c else some (odGet s (logIdx c) 0x18)

/-- R329: write bytes of the LCB at an offset. -/
def lcbWrite (s : State) (c off : Nat) (data : List Byte) : State :=
  let v := odGet s (logIdx c) 0x11
  hostWrite s v (funcRid s (1024 + v)) (odGet s (logIdx c) 0x12 + off) data false

/-- R329: the status word of the LCB. -/
def lcbStatus (x : LogCh) : Nat := x.state.code + (if x.outside then 4 else 0)

/-- R328: the producer index is written to the LCB. -/
def lcbProducer (s : State) (c : Nat) : State :=
  let x := logCh s c
  lcbWrite (setLogCh s c { x with unsent := 0 }) c 4 (leBytes 4 x.d.toNat)

/-- The channel's state, with OD .15 and the LCB status. -/
def logState (s : State) (c : Nat) (x : LogCh) : State :=
  lcbWrite (odSet (setLogCh s c x) (logIdx c) 0x15 x.state.code) c 32 (leBytes 4 (lcbStatus x))

/-- R328: an entry for `page` at the producer index. -/
def logEntry (s : State) (c page : Nat) (x : LogCh) : State :=
  let v := odGet s (logIdx c) 0x11
  let phase := 1 - x.d.toNat / 2 ^ x.n % 2
  let at_ := x.ring + 8 * (x.d.toNat % 2 ^ x.n)
  let s1 := hostWrite s v (funcRid s (1024 + v)) at_ (leBytes 8 (phase * 2 ^ 63 + page)) false
  let x1 := { x with d := x.d + 1, unsent := x.unsent + 1 }
  let s2 := bumpC (setLogCh s1 c x1) 0xC029 1
  if 64 ≤ x1.unsent then lcbProducer s2 c else s2

/-- R476: an event of a veneer function's channel counts in the function's set. -/
def logCount (s : State) (c e : Nat) : State := if c < 1024 then bumpFn s c e 1 else s

/-- R326, R328: an event at host address `a` of the channel's VCS. -/
def logEvent (s : State) (c a : Nat) : State :=
  let x := logCh s c
  let base := odGet s (logIdx c) 0x13
  let len := odGet s (logIdx c) 0x14
  if x.state = .off then s
  else if a < base ∨ base + len ≤ a then
    if c < 1024 then
      let s1 := odSet s (logIdx c) 0x17 ((odGet s (logIdx c) 0x17 + 1) % 2 ^ 48)
      logState s1 c { x with outside := true }
    else s
  else
    let pg := (a - base) / 4096
    let q := if x.state = .resetting then (s, false) else lpddrChecked s (0x600000000 + c * 0x800000 + pg / 8)
    if q.2 then
      if x.state = .logging then bumpC (logState (logCount q.1 c 22) c { x with state := .overflow }) 0xC029 2 else q.1
    else if x.state = .resetting ∨ x.pages.contains pg then s
    else
      let x1 := { x with pages := setInsert pg x.pages }
      if x.state = .logging then
        if (x.d - x.r).toNat < 2 ^ x.n then logEntry (logCount s c 21) c (a / 4096) x1
        else bumpC (logState (logCount s c 22) c { x1 with state := .overflow }) 0xC029 2
      else setLogCh s c x1

/-- R326: the mover has finished a write for function `f` at host address `a`. -/
def logFunc (s : State) (f a : Nat) : State := if f < 1024 then logEvent s f a else s

/-- R327: an event of VCS `v` at host address `a`: every tracker of the VCS. -/
def logTrackers (s : State) (v a : Nat) : State :=
  (List.range 64).foldl (fun t k =>
    if odGet t (0x7700 + k) 0x18 = v ∧ (logCh t (1024 + k)).state ≠ .off then logEvent t (1024 + k) a else t) s

end Sys2Proof.Machine
end

