-- ==== Sys2Proof/Machine/Proxy.lean ====
section
/-!
DEFINITION. Machine/Proxy.lean: the proxy of an upstream port (R141, R149, R150, R160 to R168).
-/

namespace Sys2Proof.Machine

/-! ### Tables (R160, R141) -/

/-- The proxy of VCS `v`. -/
def proxy (s : State) (v : Nat) : Proxy := tabGet proxyReset v s.prox.proxies

/-- Change the proxy of VCS `v`. -/
def setProxy (s : State) (v : Nat) (x : Proxy) : State :=
  { s with prox := { s.prox with proxies := tabSet proxyReset v x s.prox.proxies } }

/-- R79, R125: CXL port `p` is in L0. -/
def portUp (s : State) (p : Nat) : Bool := decide (odGet s (0x2100 + p) 0x10 = 2)

/-- R141: a free tag of the proxy's 512. -/
def Proxy.freeTag (x : Proxy) : Option Nat :=
  (List.range 512).find? fun t =>
    !(x.reqs.any fun e => decide (e.tag = t)) && !(x.evs.any fun e => decide (e.tag = t)) &&
      !(x.wrs.any fun e => decide (e.tag = t)) && (tabFind? t x.quarantine).isNone

/-- R141: the 16-bit tag of entry `t` of agent `ag`. -/
def agentTag (ag t : Nat) : BitVec 16 := BitVec.ofNat 16 (ag * 512 + t)

/-- R144: device time [37..6]. -/
def firstIssue (s : State) : BitVec 32 := s.time.devTime.extractLsb' 6 32

/-- An entry with host address `hpa`, decoded as `pool` if it has been, is for line `l` of switch `h`. -/
def entryIs (s : State) (v : Nat) (pool : Option (Nat × BitVec 42)) (hpa : BitVec 46) (h : Nat) (l : BitVec 42) : Bool :=
  match pool with
  | some q => decide (q = (h, l))
  | none => decide (decodeLine s v hpa = some (h, l))

/-- R87, R93: the host line addresses by which VCS `v` reaches line `l` of switch `h`, one for each decoder that does. -/
def hostLines (s : State) (v h : Nat) (l : BitVec 42) : List (BitVec 46) :=
  let p := poolAddr h l
  let hits := (List.range 32).filter fun i =>
    let d := decoder s v i
    d.committed && decide (poolBase s v i ≤ p) && decide (p < poolBase s v i + d.size / 2 ^ d.ways)
  hits.map fun i =>
    let d := decoder s v i
    let off := p - poolBase s v i
    let way := Config.interleaveWay v i % 2 ^ d.ways
    BitVec.ofNat 46 ((d.base + (off / 2 ^ d.gran) * 2 ^ (d.gran + d.ways) + way * 2 ^ d.gran + off % 2 ^ d.gran) / 64)

/-- The first of them, that of the lowest decoder. -/
def hostLine (s : State) (v h : Nat) (l : BitVec 42) : Option (BitVec 46) := (hostLines s v h l).head?

/-! ### Backoff (R168) -/

/-- R168: one step of the LFSR. -/
def lfsrStep (x : BitVec 32) : BitVec 32 := if x.getLsbD 0 then (x >>> 1) ^^^ 0x80200003#32 else x >>> 1

/-- R168: the seed of agent `ag` with host ID `id`. -/
def lfsrSeed (id : BitVec 16) (ag : Nat) : BitVec 32 := id ++ BitVec.ofNat 16 (0x8000 + ag)

/-- R168: the wait in ns after the `n`-th Nack, with the LFSR before and after. -/
def backoffWait (n : Nat) (x : BitVec 32) : Nat × BitVec 32 :=
  if 8 ≤ n then (2048, x)
  else
    let y := lfsrStep x
    (64 * (1 + y.toNat % 2 ^ min (n - 1) 5), y)

/-! ### Messages to the host (R150, R163) -/

/-- R126: a unit is flushed. -/
def flushed (s : State) (p : Nat) (u : FUnit) : State := moverWriteGone (traceUnit (bumpC s 0xC022 4) 7 p 0 u) u

/-- The unit `id` of a pair becomes message `m` to the host; while the port is down nothing more is sent (R163). -/
def answerHost (s : State) (p : Nat) (vn : Vn) (id : Nat) (m : LinkMsg) : State :=
  egressTaken s p vn id (if portUp s p then some m else none)

/-- A message to the host that no unit brought. -/
def tellHost (s : State) (p : Nat) (vn : Vn) (m : LinkMsg) : State := if portUp s p then hostSend s p vn m else s

/-- R150: the meta value of a grant. -/
def grantMeta (g : Nat) : Meta := match g with | 0 => .i | 1 => .s | _ => .a

/-! ### Issuing (R150, R162) -/

/-- R18: a request of the proxy at port `p` goes to its island's network interface, still undecoded; `since`: when it came to its
ingress pair, whose residence is its first Age (R45, R120). -/
def issueUnit (s : State) (v p ty : Nat) (vn : Vn) (tag : Nat) (hpa : BitVec 46) (payload : BitVec 512) (poison : Bool)
    (since : Nat) : State :=
  let u := { blankUnit vn ty (portPlace p) 0 (agentTag v tag) 0 with
    payload := payload, poison := poison, age := agedBy s since 0 }
  sendAt s (bridgeStop (p / 6)) (1 + p % 6) u none (some (v, hpa))

/-- R144: the request body of an entry. -/
def bodyOf (s : State) (v nacks : Nat) (senior : Bool) (first : BitVec 32) (mask : BitVec 64) : BitVec 512 :=
  packReq { host := hostId s v, mover := false, senior := senior, nacks := min nacks 15, first := first, mask := mask }

/-- R474: the event number of a request kind. -/
def kindEvent (k : Nat) : Nat := if k = 6 then 7 else k

/-- R162: a request-table entry is issued. -/
def issueReq (s : State) (v p : Nat) (e : ProxyReq) (since : Nat) : State :=
  issueUnit s v p e.kind .req e.tag e.hpa (bodyOf s v e.nacks e.senior e.first 0) false since

/-- R162: a write-buffer entry is issued. -/
def issueWrite (s : State) (v p : Nat) (e : ProxyWrite) (since : Nat) : State :=
  issueUnit s v p (if e.full then 4 else 5) .req e.tag e.hpa
    (bodyOf s v e.nacks e.senior e.first (if e.full then 0 else e.mask)) false since

/-- R162: an eviction entry is issued. -/
def issueEvict (s : State) (v p : Nat) (e : ProxyEvict) (since : Nat) : State :=
  issueUnit (bumpVcs s v 6 1) v p (if e.keepS then 1 else 0) .wb e.tag e.hpa e.data e.poison since

/-- R162, PROXY_EVICTION_FREED: entries of host line `hpa` that waited for its eviction are issued. -/
def evictionFreed (s : State) (v p : Nat) (hpa : BitVec 46) : State :=
  let x := proxy s v
  let rs := x.reqs.filter fun e => decide (e.st = .waiting) && decide (e.hpa = hpa)
  let ws := x.wrs.filter fun e => decide (e.st = .waiting) && decide (e.hpa = hpa)
  let now := firstIssue s
  let x1 := { x with
    reqs := x.reqs.map fun e => if e.st = .waiting ∧ e.hpa = hpa then { e with st := .issued, first := now } else e
    wrs := x.wrs.map fun e => if e.st = .waiting ∧ e.hpa = hpa then { e with st := .sent, first := now } else e }
  let s1 := rs.foldl (fun t e => issueReq (bumpVcs t v (kindEvent e.kind) 1) v p { e with first := now } (s.time.clock - (e.started - e.arrived))) (setProxy s v x1)
  ws.foldl (fun t e => issueWrite (bumpVcs t v (if e.full then 4 else 5) 1) v p { e with first := now } (s.time.clock - (e.started - e.arrived))) s1

/-! ### Snoops (R161, R164, R127) -/

/-- A unit from the proxy's place. -/
def proxyUnit (vn : Vn) (ty p : Nat) (dst : BitVec 12) (tag : BitVec 16) (l : BitVec 42) : FUnit :=
  blankUnit vn ty (portPlace p) dst tag l

/-- R164: the replies to a snoop, with the data that the host or the eviction buffer gave and whether S is kept; the data
goes before the reply. R474: a forward from the host's cache counts. -/
def snoopReply (s : State) (v p : Nat) (sn : ProxySnoop) (dirty : Option (LineData × Bool)) (keptS : Bool) : State :=
  let rsp := fun ty => { proxyUnit .rsp ty p sn.src sn.tag sn.line with payload := packRsp (hostId s v) 0 0 false }
  match dirty with
  | none => send s (rsp (if keptS && !sn.inv then 1 else 0))
  | some (d, poison) =>
    let fwd := { proxyUnit .dat (4 + sn.body.grant) p (resolved s sn.body.fwdTo sn.body.fwdTag) sn.body.fwdTag sn.line with payload := d, poison := poison }
    let wb := fun ty => { proxyUnit .wb ty p sn.src sn.tag sn.line with payload := d, poison := poison }
    let s1 :=
      if sn.inv && !sn.body.fwd then send s (wb 4)
      else send (send (bumpVcs s v 27 1) fwd) (wb (if keptS && !sn.inv then 3 else 2))
    match hostLine s v sn.home sn.line with
    | some h => logTrackers s1 v (h.toNat * 64)
    | none => s1

/-- R127, R126: the reply for a host whose port is down. -/
def snoopLost (s : State) (v p : Nat) (src : BitVec 12) (tag : BitVec 16) (l : BitVec 42) : State :=
  send (bumpC s 0xC022 5)
    { proxyUnit .rsp 0 p src tag l with payload := packRsp (hostId s v) 0 0 false, synth := true, poison := true }

/-- R164: the eviction entry with data for the snoop's line. -/
def evictFor (s : State) (v : Nat) (sn : ProxySnoop) : Option ProxyEvict :=
  (proxy s v).evs.find? fun e => entryIs s v e.pool e.hpa sn.home sn.line

/-- Take a snoop out of the table. -/
def dropSnoop (s : State) (v bt : Nat) : State :=
  let x := proxy s v
  setProxy s v { x with snps := x.snps.filter fun e => decide (e.biTag ≠ bt) }

/-- R164: send the host a BISnp; the entry is outstanding, holding what the eviction buffer gave. -/
def sendBiSnp (s : State) (v p : Nat) (sn : ProxySnoop) (d : Option (LineData × Bool)) : State :=
  match hostLine s v sn.home sn.line with
  | none => snoopReply (dropSnoop s v sn.biTag) v p sn d false
  | some h =>
    let x := proxy s v
    let s1 := setProxy s v { x with
      snps := x.snps.map fun e => if e.biTag = sn.biTag then { e with out := true, dirty := d } else e }
    hostSend (bumpVcs s1 v (if sn.inv then 25 else 24) 1) p .snp
      (.biSnp (if sn.inv then .inv else .data) h (BitVec.ofNat 16 sn.biTag))

/-- R164: a snoop that nothing holds back is answered from the eviction buffer or passed to the host. -/
def snoopAct (s : State) (v p : Nat) (sn : ProxySnoop) : State :=
  match evictFor s v sn with
  | some e =>
    let x := proxy s v
    let s1 := bumpVcs (setProxy s v { x with
      evs := x.evs.map fun y => if y.tag = e.tag then { y with snooped := true } else y }) v 28 1
    if sn.inv && e.keepS && portUp s p then sendBiSnp s1 v p sn (some (e.data, e.poison))
    else snoopReply (dropSnoop s1 v sn.biTag) v p sn (some (e.data, e.poison)) (e.keepS && portUp s p)
  | none =>
    if portUp s p then sendBiSnp s v p sn none
    else snoopLost (dropSnoop s v sn.biTag) v p sn.src sn.tag sn.line

/-- R161: a request of the proxy's own for the line has been issued and not answered. -/
def ownOutstanding (s : State) (v h : Nat) (l : BitVec 42) : Bool :=
  let x := proxy s v
  (x.reqs.any fun e => decide (e.st = .issued) && entryIs s v e.pool e.hpa h l) ||
    (x.wrs.any fun e => decide (e.st = .sent) && entryIs s v e.pool e.hpa h l)

/-- R161: held snoops that nothing holds back any more are answered in arrival order. -/
def releaseSnoops (s : State) (v p : Nat) : State :=
  (proxy s v).snps.foldl (fun t sn =>
    if !sn.out && !ownOutstanding t v sn.home sn.line then snoopAct t v p sn else t) s

/-- R164, R161: the proxy takes the first snoop of its port's pair, while its snoop table has room. -/
def proxySnoop (s : State) (v p : Nat) : State :=
  match egressHead s p .snp with
  | none => s
  | some h =>
    let x := proxy s v
    if 1024 ≤ x.snps.length then s
    else
      let sn : ProxySnoop :=
        { biTag := x.nextBi, inv := decide (h.u.type = 1), line := h.u.line, home := (switchOf h.u.src).getD (ownSwitch s)
          src := h.u.src, tag := h.u.tag, body := unpackSnp h.u.payload, out := false, dirty := none }
      let s1 := setProxy (egressTaken s p .snp h.id none) v { x with snps := x.snps ++ [sn], nextBi := (x.nextBi + 1) % 65536 }
      if ownOutstanding s1 v sn.home sn.line then s1 else snoopAct s1 v p sn

/-- PROXY_SNOOP (R160, R164). -/
def execProxySnoop (v : Fin 64) (s : State) : Host.Outcome State Fault Refusal :=
  match upstreamPort s v.val with
  | some p => .next (proxySnoop s v.val p)
  | none => .next s

/-! ### The host side (R150, R162, R164, R165) -/

/-- R150: the request kind that a host request maps to; `none`: nothing is issued and Cmp is answered. -/
def mapRequest : HostReqKind → Meta → Option Nat
  | .memRd, .s => some 0
  | .memRd, .a => some 1
  | .memRd, _ => some 2
  | .memRdData, _ => some 0
  | .memInv, .a => some 3
  | .memInv, .i => some 6
  | .memInv, _ => none
  | .memClnEvct, _ => some 6
  | .memSpecRd, _ => none

/-- The head of an ingress pair has been taken. -/
def ingressTaken (s : State) (p : Nat) (vn : Vn) : State := setIngress s p vn (ingress s p vn).tail

/-- R150, R162: the proxy takes host request `(k, m, hpa, tag)`. A full table leaves it where it is. -/
def hostRequest (s : State) (v p : Nat) (k : HostReqKind) (m : Meta) (hpa : BitVec 46) (tag : BitVec 16) (since : Nat) : State :=
  let x := proxy s v
  if k = .memSpecRd then bumpVcs (bumpC (ingressTaken s p .req) 0xC023 0x0A) v 30 1
  else
    match mapRequest k m with
    | none => tellHost (ingressTaken s p .req) p .rsp (.cmp tag false)
    | some kind =>
      match x.freeTag with
      | none => s
      | some t =>
        if 512 ≤ x.reqs.length then s
        else
          let waits := x.evs.any fun e => decide (e.hpa = hpa)
          let e : ProxyReq :=
            { tag := t, kind := kind, hpa := hpa, hostTag := tag, st := if waits then .waiting else .issued, nacks := 0
              senior := false, first := firstIssue s, pool := none, arrived := since, started := s.time.clock, due := 0 }
          let s1 := setProxy (ingressTaken s p .req) v { x with reqs := x.reqs ++ [e] }
          if waits then s1 else issueReq (bumpVcs s1 v (kindEvent kind) 1) v p e since

/-- PROXY_HOST_REQUEST (R150, R162). -/
def execProxyHostRequest (v : Fin 64) (s : State) : Host.Outcome State Fault Refusal :=
  match upstreamPort s v.val with
  | none => .next s
  | some p =>
    match ingress s p .req with
    | { msg := .req k m a t, since := z } :: _ =>
      if bridgeOpen s (p / 6) .req then .next (hostRequest s v.val p k m a t z) else .next s
    | _ => .next s

/-- R161: a request of host line `hpa` is outstanding. -/
def lineBusy (x : Proxy) (hpa : BitVec 46) : Bool :=
  (x.reqs.any fun e => decide (e.hpa = hpa)) || (x.wrs.any fun e => decide (e.hpa = hpa))

/-- R164: a BISnp for host line `hpa` is outstanding. -/
def biSnpFor (s : State) (v : Nat) (hpa : BitVec 46) : Option ProxySnoop :=
  (proxy s v).snps.find? fun e => e.out && decide (hostLine s v e.home e.line = some hpa)

/-- R150, R162: the proxy takes a host write: the data of a snoop reply while a BISnp of the line is outstanding, else an
eviction, or a write of its own. -/
def hostWriteMsg (s : State) (v p : Nat) (part : Bool) (m : Meta) (hpa : BitVec 46) (tag : BitVec 16) (mask : BitVec 64)
    (poison : Bool) (data : LineData) (since : Nat) : State :=
  let x := proxy s v
  match if part then none else biSnpFor s v hpa with
  | some sn =>
    let s1 := setProxy (ingressTaken s p .wb) v { x with
      snps := x.snps.map fun e => if e.biTag = sn.biTag then { e with dirty := some (data, poison) } else e }
    tellHost s1 p .rsp (.cmp tag false)
  | none =>
    match x.freeTag with
    | none => s
    | some t =>
      if part then
        if 128 ≤ x.wrs.length then s
        else
          let waits := x.evs.any fun e => decide (e.hpa = hpa)
          let e : ProxyWrite :=
            { tag := t, hpa := hpa, hostTag := tag, full := false, mask := mask, data := data, poison := poison
              st := if waits then .waiting else .sent, nacks := 0, senior := false, first := firstIssue s, pool := none, due := 0, arrived := since
              started := s.time.clock }
          let s1 := setProxy (ingressTaken s p .wb) v { x with wrs := x.wrs ++ [e] }
          if waits then s1 else issueWrite (bumpVcs s1 v 5 1) v p e since
      else if 256 ≤ x.evs.length ∨ lineBusy x hpa then s
      else
        let e : ProxyEvict :=
          { tag := t, hpa := hpa, hostTag := tag, keepS := decide (m = .s), snooped := false, data := data, poison := poison
            pool := none, issued := true, reissued := false, started := s.time.clock }
        issueEvict (setProxy (ingressTaken s p .wb) v { x with evs := x.evs ++ [e] }) v p e since

/-- PROXY_HOST_WRITE (R150, R162, R164). -/
def execProxyHostWrite (v : Fin 64) (s : State) : Host.Outcome State Fault Refusal :=
  match upstreamPort s v.val with
  | none => .next s
  | some p =>
    match ingress s p .wb with
    | { msg := .rwd part m a t k z d, since := w } :: _ =>
      if bridgeOpen s (p / 6) .wb then .next (hostWriteMsg s v.val p part m a t k z d w) else .next s
    | _ => .next s

/-- R164: the host's BIRsp `k` for the snoop with BI tag `bt`. -/
def biRsp (s : State) (v p : Nat) (k : BiRspKind) (bt : BitVec 16) : State :=
  let s1 := bumpVcs (ingressTaken s p .rsp) v 26 1
  match (proxy s v).snps.find? fun e => e.out && decide (e.biTag = bt.toNat) with
  | none => s1
  | some sn =>
    snoopReply (dropSnoop s1 v sn.biTag) v p sn sn.dirty (decide (k = .s))

/-- PROXY_BIRSP (R164). -/
def execProxyBirsp (v : Fin 64) (s : State) : Host.Outcome State Fault Refusal :=
  match upstreamPort s v.val with
  | none => .next s
  | some p =>
    match ingress s p .rsp with
    | { msg := .biRsp k t, since := _ } :: _ =>
      if bridgeOpen s (p / 6) .rsp then .next (biRsp s v.val p k t) else .next s
    | _ => .next s

/-- BICONFLICT (R165): the acknowledgement goes out behind every S2M response already sent. -/
def execBiconflict (v : Fin 64) (s : State) : Host.Outcome State Fault Refusal :=
  match upstreamPort s v.val with
  | none => .next s
  | some p =>
    match ingress s p .req with
    | { msg := .biConflict _ t, since := _ } :: _ =>
      .next (tellHost (bumpVcs (ingressTaken s p .req) v.val 29 1) p .rsp (.conflictAck t))
    | _ => .next s

/-! ### Responses (R150, R162, R163, R425) -/

/-- R474: the latency event of a read that took `d` ns. -/
def latencyEvent (d : Nat) : Nat :=
  if d < 100 then 8 else if d < 200 then 9 else if d < 400 then 10 else if d < 800 then 11 else if d < 1600 then 12
  else if d < 3200 then 13 else if d < 6400 then 14 else 15

/-- Take entry `t` out of the tables. -/
def dropEntry (s : State) (v t : Nat) : State :=
  let x := proxy s v
  setProxy s v { x with reqs := x.reqs.filter (fun e => decide (e.tag ≠ t)), evs := x.evs.filter (fun e => decide (e.tag ≠ t))
                        wrs := x.wrs.filter (fun e => decide (e.tag ≠ t)), mute := setRemove t x.mute }

/-- What an answer does to the unit that brought it: a message in its place, or one of its own where no unit came. -/
def give (s : State) (p : Nat) (vn : Vn) (unit : Option Nat) (m : LinkMsg) : State :=
  match unit with
  | some id => answerHost s p vn id m
  | none => tellHost s p vn m

/-- R163, R128: the answer to a request that the host made before the link last went down is discarded. -/
def giveNothing (s : State) (p : Nat) (vn : Vn) (unit : Option Nat) : State :=
  match unit with
  | some id =>
    let s1 := egressTaken s p vn id none
    if portUp s p then
      match (egress s p vn).find? fun e => decide (e.h.id = id) with
      | some e => flushed s1 p e.h.u
      | none => s1
    else s1
  | none => s

/-- R162, R163: entry `t` leaves the proxy's tables, and message `m` answers the host. -/
def finishEntry (s : State) (v p t : Nat) (vn : Vn) (unit : Option Nat) (m : LinkMsg) : State :=
  let s1 := dropEntry s v t
  if (proxy s v).mute.contains t then giveNothing s1 p vn unit else give s1 p vn unit m

/-- R162: data with grant `g` completes request `e`. -/
def reqData (s : State) (v p : Nat) (unit : Option Nat) (e : ProxyReq) (g : Nat) (poison : Bool) (d : LineData) : State :=
  let s1 := bumpVcs (bumpVcs s v (latencyEvent (s.time.clock - e.arrived)) 1) v (16 + g) 1
  let s2 := bumpVcs (if poison then bumpVcs s1 v 19 1 else s1) v 48 64
  let s3 := finishEntry s2 v p e.tag .dat unit (.memData e.hostTag (grantMeta g) poison d)
  releaseSnoops (if e.kind = 1 ∧ g = 2 then logTrackers s3 v (e.hpa.toNat * 64) else s3) v p

/-- R162: NackWb: the eviction moves to the write buffer and WrOwn is issued; requests that waited for it are issued. -/
def nackWb (s : State) (v p : Nat) (e : ProxyEvict) : State :=
  let x := proxy s v
  let w : ProxyWrite :=
    { tag := e.tag, hpa := e.hpa, hostTag := e.hostTag, full := true, mask := 0, data := e.data, poison := e.poison, st := .sent
      nacks := 0, senior := false, first := firstIssue s, pool := e.pool, due := 0, arrived := s.time.clock, started := s.time.clock }
  let s1 := setProxy s v { x with evs := x.evs.filter (fun y => decide (y.tag ≠ e.tag)), wrs := x.wrs ++ [w] }
  evictionFreed (issueWrite (bumpVcs s1 v 4 1) v p w s.time.clock) v p e.hpa

/-- R160, R162: NackWb: while the write buffer is full the eviction keeps its place, to move when one is free. -/
def evictRefused (s : State) (v p : Nat) (e : ProxyEvict) : State :=
  let x := proxy s v
  if x.wrs.length < 128 then nackWb s v p e
  else setProxy s v { x with evs := x.evs.map fun y => if y.tag = e.tag then { y with issued := false } else y }

/-- R160: a place of the write buffer is free: the first eviction that waits for one moves. -/
def writeFreed (s : State) (v p : Nat) : State :=
  let x := proxy s v
  match x.evs.find? fun e => !e.issued with
  | some e => if x.wrs.length < 128 then nackWb s v p e else s
  | none => s

/-- R123, R234: entry `t` is completed without its real answer: poisoned data for a read, else a completion. -/
def failEntry (s : State) (v p t : Nat) (unit : Option Nat) (poison : Bool) : State :=
  let x := proxy s v
  match x.reqs.find? fun e => decide (e.tag = t) with
  | some e =>
    if e.kind ≤ 2 then reqData s v p unit e 0 true Config.poisonData
    else releaseSnoops (finishEntry s v p t .rsp unit (.cmp e.hostTag poison)) v p
  | none =>
    match x.wrs.find? fun e => decide (e.tag = t) with
    | some e => releaseSnoops (writeFreed (finishEntry s v p t .rsp unit (.cmp e.hostTag poison)) v p) v p
    | none =>
      match x.evs.find? fun e => decide (e.tag = t) with
      | some e => evictionFreed (finishEntry s v p t .rsp unit (.cmp e.hostTag poison)) v p e.hpa
      | none => s

/-- R168, R474: entry `t` has been answered Nack. -/
def nackEntry (s : State) (v p t : Nat) : State :=
  let x := proxy s v
  let lf := x.lfsr.getD (lfsrSeed (BitVec.ofNat 16 (s.prox.seed * 64 + v)) v)
  let count := fun (n : Nat) (s : State) => if n + 1 = 8 then bumpVcs (bumpC s 0xC023 2) v 21 1 else s
  let s1 := bumpVcs s v 20 1
  match x.reqs.find? fun e => decide (e.tag = t) with
  | some e =>
    let w := backoffWait (e.nacks + 1) lf
    let e1 := { e with nacks := e.nacks + 1, senior := decide (8 ≤ e.nacks + 1), st := .backoff, due := s.time.clock + w.1 }
    releaseSnoops (count e.nacks (setProxy s1 v { x with
      reqs := x.reqs.map (fun y => if y.tag = t then e1 else y), lfsr := some w.2 })) v p
  | none =>
    match x.wrs.find? fun e => decide (e.tag = t) with
    | some e =>
      let w := backoffWait (e.nacks + 1) lf
      let e1 := { e with nacks := e.nacks + 1, senior := decide (8 ≤ e.nacks + 1), st := .backoff, due := s.time.clock + w.1 }
      releaseSnoops (count e.nacks (setProxy s1 v { x with
        wrs := x.wrs.map (fun y => if y.tag = t then e1 else y), lfsr := some w.2 })) v p
    | none => s

/-- R162: GoWr: the data of write `e` goes to the line's home. -/
def goWrite (s : State) (v p : Nat) (e : ProxyWrite) (h : Nat) (l : BitVec 42) : State :=
  let x := proxy s v
  let s1 := setProxy s v { x with wrs := x.wrs.map fun y => if y.tag = e.tag then { y with st := .go } else y }
  releaseSnoops (send s1 { proxyUnit .wb 5 p (homePlace s h l) (agentTag v e.tag) l with
    payload := e.data, poison := e.poison }) v p

/-- R162, R170: a response without data of type `ty` for request `e`. -/
def rspReq (s : State) (v p : Nat) (h : Held) (e : ProxyReq) : State :=
  let t := e.tag
  match h.u.type.toNat with
  | 0x09 => -- CmpE
    let s1 := finishEntry s v p t .rsp (some h.id) (.cmpE e.hostTag)
    releaseSnoops (logTrackers s1 v (e.hpa.toNat * 64)) v p
  | 0x08 => -- Cmp
    if e.kind ≤ 2 then failEntry s v p t (some h.id) h.u.poison
    else releaseSnoops (finishEntry s v p t .rsp (some h.id) (.cmp e.hostTag h.u.poison)) v p
  | 0x10 => nackEntry (egressTaken s p .rsp h.id none) v p t
  | 0x3F => failEntry s v p t (some h.id) true
  | _ => egressTaken s p .rsp h.id none

/-- R162: a response for write `e`. -/
def rspWrite (s : State) (v p : Nat) (h : Held) (e : ProxyWrite) : State :=
  let t := e.tag
  match h.u.type.toNat with
  | 0x0A => goWrite (egressTaken s p .rsp h.id none) v p e (match e.pool with | some q => q.1 | none => ownSwitch s) h.u.line
  | 0x08 =>
    let s1 := bumpVcs (finishEntry s v p t .rsp (some h.id) (.cmp e.hostTag h.u.poison)) v 49 64
    releaseSnoops (writeFreed (logTrackers s1 v (e.hpa.toNat * 64)) v p) v p
  | 0x10 => nackEntry (egressTaken s p .rsp h.id none) v p t
  | 0x3F => failEntry s v p t (some h.id) true
  | _ => egressTaken s p .rsp h.id none

/-- R162: a response for eviction `e`. -/
def rspEvict (s : State) (v p : Nat) (h : Held) (e : ProxyEvict) : State :=
  match h.u.type.toNat with
  | 0x0C =>
    if e.reissued then failEntry s v p e.tag (some h.id) false else evictRefused (egressTaken s p .rsp h.id none) v p e
  | 0x3F => failEntry s v p e.tag (some h.id) true
  | ty =>
    let s0 := if ty = 0x0B then bumpVcs s v 31 1 else s
    let s1 := bumpVcs (finishEntry s0 v p e.tag .rsp (some h.id) (.cmp e.hostTag h.u.poison)) v 49 64
    evictionFreed (logTrackers s1 v (e.hpa.toNat * 64)) v p e.hpa

/-- R425: an isolation or the safe state is in force. -/
def isolated (s : State) : Bool :=
  s.flt.safe || !s.flt.isoPorts.isEmpty || !s.flt.isoAulum.isEmpty || !s.flt.isoIslands.isEmpty || !s.flt.isoSlices.isEmpty

/-- R263: the unit's line is not that of the entry its tag names. -/
def wrongLine (u : FUnit) (pool : Option (Nat × BitVec 42)) : Bool :=
  match pool with
  | some (_, l) => decide (l ≠ u.line)
  | none => false

/-- R263: a unit for an entry in quarantine, or with another line, is discarded. -/
def discardQuarantined (s : State) (p : Nat) (vn : Vn) (id : Nat) : State :=
  bumpC (egressTaken s p vn id none) 0xC026 0x0C

/-- R168: the unit that an agent takes from its queue `l`: the first, but of the Nacks that came in one cycle the one with the lowest
Tag. -/
def nackFirst (l : List Held) : Option Held :=
  match l with
  | [] => none
  | h :: rest =>
    if h.u.vn = .rsp ∧ h.u.type = 0x10 then
      some (rest.foldl (fun b g =>
        if g.u.vn = .rsp ∧ g.u.type = 0x10 ∧ g.since = h.since ∧ g.u.tag.toNat < b.u.tag.toNat then g else b) h)
    else some h

/-- The response that the proxy at port `p` takes next from its pair `vn`. -/
def nextResponse (s : State) (p : Nat) (vn : Vn) : Option Held :=
  nackFirst (((egress s p vn).filter fun e => e.msg.isNone).map fun e => e.h)

/-- R162, R168, R263, R425: the proxy takes the next response of its port's RSP or DAT pair. -/
def proxyResponse (s : State) (v p : Nat) (vn : Vn) : State :=
  match nextResponse s p vn with
  | none => s
  | some h =>
    let x := proxy s v
    let t := h.u.tag.toNat % 512
    if (tabFind? t x.quarantine).isSome then discardQuarantined s p vn h.id
    else
      match x.reqs.find? (fun e => decide (e.tag = t)), x.wrs.find? (fun e => decide (e.tag = t)),
          x.evs.find? (fun e => decide (e.tag = t)) with
      | some e, _, _ =>
        if wrongLine h.u e.pool then discardQuarantined s p vn h.id
        else if vn = .dat then reqData s v p (some h.id) e (h.u.type.toNat % 4) h.u.poison h.u.payload
        else rspReq s v p h e
      | none, some e, _ =>
        if wrongLine h.u e.pool then discardQuarantined s p vn h.id
        else if vn = .dat then egressTaken s p vn h.id none
        else rspWrite s v p h e
      | none, none, some e =>
        if wrongLine h.u e.pool then discardQuarantined s p vn h.id
        else if vn = .dat then egressTaken s p vn h.id none
        else rspEvict s v p h e
      | none, none, none =>
        let s1 := egressTaken s p vn h.id none
        if isolated s then bumpC s1 0xC02D 7 else s1

/-- R126, R163: a RSP or DAT unit for the proxy of VCS `v` reaches its port `p`, which is down: it is discarded, and counts; the proxy
has its entry's answer, and serves its home. -/
def downResponse (s : State) (v p : Nat) (h : Held) : State :=
  let vn := h.u.vn
  let others := egress s p vn
  let s1 := flushed (setEgress s p vn [{ h := h, cell := true, msg := none }]) p h.u
  let s2 := proxyResponse s1 v p vn
  setEgress s2 p vn (others ++ egress s2 p vn)

/-- PROXY_RESPONSE (R162): on RSP, or on DAT. -/
def execProxyResponse (v : Fin 64) (dat : Bool) (s : State) : Host.Outcome State Fault Refusal :=
  match upstreamPort s v.val with
  | some p => .next (proxyResponse s v.val p (if dat then .dat else .rsp))
  | none => .next s

/-- R168: a wait ends, and the entry is issued again with its new count. -/
def backoffEnd (s : State) (v p t : Nat) : State :=
  let x := proxy s v
  match x.reqs.find? (fun e => decide (e.tag = t)), x.wrs.find? (fun e => decide (e.tag = t)) with
  | some e, _ =>
    if e.st = .backoff then
      let e1 := { e with st := .issued }
      issueReq (setProxy s v { x with reqs := x.reqs.map fun y => if y.tag = t then e1 else y }) v p e1 s.time.clock
    else s
  | none, some e =>
    if e.st = .backoff then
      let e1 := { e with st := .sent }
      issueWrite (setProxy s v { x with wrs := x.wrs.map fun y => if y.tag = t then e1 else y }) v p e1 s.time.clock
    else s
  | none, none => s

end Sys2Proof.Machine
end

