-- ==== Sys2Proof/Machine/Fabric.lean ====
section
/-!
DEFINITION. Machine/Fabric.lean: the rings (R51 to R58, R62 to R70): what a unit does at each stop, delivery to agents, and
what the egress of a port that is down answers (R126).
-/

namespace Sys2Proof.Machine

/-! ### Buffers (R51) -/

/-- The key of a ring buffer, or of a turn queue, of stop `n` for direction `d`. -/
def ringKey (n d : Nat) (v : Vn) : Nat := (n * 4 + d) * 8 + vnCode v

/-- Ring buffers, turn queues and ejection queues. -/
def ringBuf (s : State) (n d : Nat) (v : Vn) : List Held := tabGet [] (ringKey n d v) s.fab.ring
def setRingBuf (s : State) (n d : Nat) (v : Vn) (l : List Held) : State :=
  { s with fab := { s.fab with ring := tabSet [] (ringKey n d v) l s.fab.ring } }
def turnBuf (s : State) (n d : Nat) (v : Vn) : List Held := tabGet [] (ringKey n d v) s.fab.turn
def setTurnBuf (s : State) (n d : Nat) (v : Vn) (l : List Held) : State :=
  { s with fab := { s.fab with turn := tabSet [] (ringKey n d v) l s.fab.turn } }
def ejectBuf (s : State) (n a : Nat) (v : Vn) : List Held := tabGet [] (agentKey n a v) s.fab.eject
def setEjectBuf (s : State) (n a : Nat) (v : Vn) (l : List Held) : State :=
  { s with fab := { s.fab with eject := tabSet [] (agentKey n a v) l s.fab.eject } }

/-- The opposite direction. -/
def opposite (d : Nat) : Nat := match d with | 0 => 1 | 1 => 0 | 2 => 3 | _ => 2

/-- The stop whose segment in direction `d` leads to stop `n`. -/
def prevStop (s : State) (n d : Nat) : Nat :=
  let m := neighbour n (opposite d)
  if s.fab.bypass.contains m then neighbour m (opposite d) else m

/-- R36: the crossing of the segment that leaves stop `n` in direction `d`, if its ends lie in two islands. -/
def segCrossing (s : State) (n d : Nat) : Option Nat :=
  if ringIsland n = ringIsland (nextStop s n d) then none else some (n * 4 + d)

/-- R52: the slots taken in a ring buffer, with those of units on their way into it. -/
def ringLoad (s : State) (n d : Nat) (v : Vn) : Nat :=
  (ringBuf s n d v).length +
    match segCrossing s (prevStop s n d) d with
    | some c => ((crossingUnits s c).filter fun h => decide (h.u.vn = v)).length
    | none => 0

/-! ### Ports and pool port agents -/

/-- R84: CXL port `p` is a POOL port: DOWNSTREAM with an LD in its pool mask. -/
def poolPort (s : State) (p : Nat) : Bool := decide (odGet s (0x2100 + p) 1 = 2) && decide (odGet s (0x2100 + p) 8 ≠ 0)

/-- The pool port agent of port `p`. -/
def poolAgent (s : State) (p : Nat) : PoolAgent := tabGet poolReset p s.prox.pools

/-- Change the pool port agent of port `p`. -/
def setPool (s : State) (p : Nat) (x : PoolAgent) : State :=
  { s with prox := { s.prox with pools := tabSet poolReset p x s.prox.pools } }

/-- The VCS whose upstream port is `p`, whatever the port's role is now. -/
def hostOfPort (s : State) (p : Nat) : Option Nat := (List.range 64).find? fun v => decide (upstreamPort s v = some p)

/-- R88: the VCS and vPPB that LD `ld` of port `p` is bound to. -/
def boundTo (s : State) (p ld : Nat) : Option (Nat × Nat) :=
  (s.port.binds.find? fun b => decide (b.2.port = p) && decide (b.2.ld = ld) && decide (b.2.state ≠ .unbound)).map fun b =>
    (b.1 / 32, b.1 % 32)

/-- R92: the AER registers of the upstream port, or of the vPPB, through which LD `ld` of port `p` is seen. -/
def aerAt (s : State) (p ld : Nat) (f : AerState → AerState) : State :=
  match hostOfPort s p with
  | some v => { s with port := { s.port with upAer := tabMod aerReset v f s.port.upAer } }
  | none =>
    match boundTo s p ld with
    | some (v, d) => let x := vppb s v d; setVppb s v d { x with aer := f x.aer }
    | none => s

/-- R10, R88: the VCS that traffic of LD `ld` of port `p` belongs to. -/
def trafficVcs (s : State) (p ld : Nat) : Option Nat :=
  match hostOfPort s p with
  | some v => some v
  | none => (boundTo s p ld).map Prod.fst

/-- An event of the VCS of LD `ld` of port `p`. -/
def bumpPort (s : State) (p ld e k : Nat) : State :=
  match trafficVcs s p ld with
  | some v => bumpVcs s v e k
  | none => s

/-- R92: an Unsupported Request is recorded for packet `t` of port `p`, as an advisory non-fatal error. -/
def aerUnsupported (s : State) (p : Nat) (t : Tlp) : State :=
  bumpPort (aerAt s p t.ld fun a => { a with unsupported := true, advisory := true, header := some t }) p t.ld 42 1

/-- R25: the record `n` is that of the request of requester `rid` with tag `tag` from the link of port `p`. -/
def isRequest (p : Nat) (rid tag : BitVec 16) (n : NonPosted) : Bool :=
  decide (n.fromPort = p) && decide (n.tag = tag) && decide (n.tlp.requester = rid)

/-- R25: the request has been answered for good. -/
def npDrop (s : State) (p : Nat) (rid tag : BitVec 16) : State :=
  { s with port := { s.port with np := s.port.np.filter fun n => !isRequest p rid tag n } }

/-- R89: port `p` answers the non-posted request of its own link with that requester and tag, if it is still unanswered. -/
def npAnswer (s : State) (p : Nat) (rid tag : BitVec 16) (st : Nat) : State :=
  match s.port.np.find? (isRequest p rid tag) with
  | none => s
  | some n => hostSend (npDrop s p rid tag) p .ioc (.tlp (completionOf n.tlp st []))

/-- R25, R91: unit `h` of a completion has reached the port of its requester; none where the request has been answered
already. The completion that brings the last byte, or a status other than success, ends the request. -/
def npArrived (s : State) (p : Nat) (h : Held) : Option State :=
  match h.tlp with
  | none => none
  | some t =>
    match s.port.np.find? (isRequest p t.id h.u.tag) with
    | none => none
    | some n =>
      if h.u.follow ≠ 0 then some s
      else if t.status ≠ 0 ∨ n.tlp.kind ≠ .memRead ∨ n.tlp.len ≤ n.got + t.data.length then some (npDrop s p t.id h.u.tag)
      else
        some { s with port := { s.port with
          np := s.port.np.map fun m => if isRequest p t.id h.u.tag m then { m with got := m.got + t.data.length } else m } }

/-- R92: an UNREACHABLE unit returns on IOC to port `p`. -/
def ioUnreachable (s : State) (p : Nat) (h : Held) : State :=
  match h.tlp with
  | none => s
  | some t =>
    let s1 := aerUnsupported s p { t with ld := t.origin }
    if originalVn h.u = .ion then npAnswer s1 p t.requester h.u.tag 1 else s1

/-! ### Ports that are down (R126) -/

/-- A unit that the egress of port `p` synthesises. -/
def synthUnit (vn : Vn) (ty p : Nat) (dst : BitVec 12) (tag : BitVec 16) (l : BitVec 42) (payload : BitVec 512) : FUnit :=
  { blankUnit vn ty (portPlace p) dst tag l with payload := payload, poison := true, synth := true }

/-- R126: the answers to a MemRd toward port `p`. -/
def answerMemRd (s : State) (p : Nat) (u : FUnit) : State :=
  let b := unpackMem u.payload
  send (send (bumpCBy s 0xC022 5 2) (synthUnit .dat b.grant p b.deliver b.tag u.line Config.poisonData))
    (synthUnit .rsp 0x18 p u.src u.tag u.line (packRsp 0 3 0 false))

/-- R126: the answer to a MemWr, or to the data of one, toward port `p`. -/
def answerMemWr (s : State) (p : Nat) (u : FUnit) : State :=
  send (bumpC s 0xC022 5) (synthUnit .rsp 0x19 p u.src u.tag u.line (packRsp 0 3 0 false))

/-- The write that MemData `u` belongs to leaves the pool port agent. -/
def dropPoolWrite (s : State) (p : Nat) (u : FUnit) : State :=
  let x := poolAgent s p
  setPool s p { x with writes := x.writes.filter fun w => !(decide (w.u.src = u.src) && decide (w.u.tag = u.tag)) }

/-- A completion of request `u` of packet `t`, from port `p`. -/
def ioAnswer (s : State) (p : Nat) (u : FUnit) (t : Tlp) (st : Nat) : State :=
  sendSynth s (bridgeStop (p / 6)) (1 + p % 6) (completionOf { t with ld := t.origin } st []) (portPlace p) u.src u.tag

/-- R126, R127: a snoop toward a host port that is down, answered from the eviction buffer where it holds the line. -/
def downSnoop (s : State) (p : Nat) (u : FUnit) : State :=
  match hostOfPort s p with
  | none => s
  | some v =>
    snoopAct s v p
      { biTag := 65536, inv := decide (u.type = 1), line := u.line, home := (switchOf u.src).getD (ownSwitch s), src := u.src
        tag := u.tag, body := unpackSnp u.payload, out := false, dirty := none }

/-- R126: a unit toward port `p`, which is down. -/
def downArrival (s : State) (p : Nat) (h : Held) : State :=
  let u := h.u
  let s1 := flushed s p u
  match u.vn with
  | .snp => downSnoop s1 p u
  | .req => if u.type = 8 then answerMemRd s1 p u else if u.type = 9 then answerMemWr s1 p u else s1
  | .dat => if u.type = 0xC then answerMemWr (dropPoolWrite s1 p u) p u else s1
  | .ion =>
    match h.tlp with
    | some t => if u.follow = 0 then ioAnswer (bumpC s1 0xC022 5) p u t 1 else s1
    | none => s1
  | _ => s1

/-- R115, R126, R163: a unit reaches the egress of CXL port `p`. -/
def portArrive (s : State) (p : Nat) (h : Held) : State :=
  let up := portUp s p
  if h.u.vn = .ioc then
    if !up then flushed s p h.u
    else if h.u.type = 0x3F then ioUnreachable s p h
    else
      match npArrived s p h with
      | some t => egressPush t p h none
      | none => flushed s p h.u
  else if up then
    -- A RSP unit for a port that has no host is of no use to it.
    if h.u.vn = .rsp ∧ (hostOfPort s p).isNone then flushed s p h.u else egressPush s p h none
  else
    match h.u.vn, hostOfPort s p with
    | .rsp, some v => downResponse s v p h
    | .dat, some v => downResponse s v p h
    | _, _ => downArrival s p h

/-! ### Delivery -/

/-- R62: the VCSs of a snoop's host vector whose upstream ports lie in island `k`. -/
def snoopHosts (s : State) (k : Nat) (u : FUnit) : List Nat :=
  let b := unpackSnp u.payload
  (List.range 64).filter fun v => b.hosts.getLsbD v && match upstreamPort s v with | some p => decide (p / 6 = k) | none => false

/-- R63: the port die delivers a snoop to the proxy of each targeted host in its island. -/
def snoopDeliver (s : State) (k : Nat) (h : Held) : State :=
  (snoopHosts s k h.u).foldl (fun t v =>
    match upstreamPort t v with
    | some p => portArrive t p { h with u := { h.u with mc := false } }
    | none => t) s

/-- R44, R55, R63: the agent of stop `n` that takes a unit which has come there; 9 stands for the port agents of an island that a
snoop names by its host vector. A switch code is for the Aulum port. -/
def takingAgent (n : Nat) (u : FUnit) : Nat :=
  if (switchOf u.dst).isSome then 7
  else if decide (u.vn = .snp) && (bridgeAt n).isSome then
    if u.mc || (decide (1 ≤ agentOf u.dst) && decide (agentOf u.dst ≤ 6)) then 9 else agentOf u.dst
  else if decide (u.vn = .snp) && u.mc && decide (n = moverStop) then 2
  else agentOf u.dst

/-- A unit has crossed into the island of agent `a`, or `a` has no island of its own. -/
def deliver (s : State) (n a : Nat) (h : Held) : State :=
  if a = 0 then s
  else
    let h1 := { h with since := s.time.clock }
    match bridgeAt n with
    | some k =>
      if a = 9 then snoopDeliver s k h1
      else if a ≤ 6 then portArrive s (6 * k + (a - 1)) h1
      else if a = 7 then egressPush s (96 + k) h1 none
      else setEjectBuf s n a h.u.vn (ejectBuf s n a h.u.vn ++ [h1])
    | none => setEjectBuf s n a h.u.vn (ejectBuf s n a h.u.vn ++ [h1])

/-- Units of a VN on their way to agent `a` through its island's crossing. -/
def comingTo (s : State) (n a : Nat) (v : Vn) : List Held :=
  match crossingIn n a with
  | some c => (crossingUnits s c).filter fun h => decide (takingAgent n h.u = a) && decide (h.u.vn = v)
  | none => []

/-- R270: an Aulum egress pair has room for a unit of its dateline class. -/
def aulumRoom (s : State) (k : Nat) (u : FUnit) (coming : List Held) : Bool :=
  let cls := datelineClass s u
  let held := ((egress s (96 + k) u.vn).filter fun e => e.cell && decide (datelineClass s e.h.u = cls)).length
  let more := (coming.filter fun h => decide (datelineClass s h.u = cls)).length
  decide (held + more < classLimit s (96 + k) (vnCode u.vn) cls)

/-- R51, R110, R152: the ejection queue of agent `a` for a unit has a free slot. -/
def ejectRoom (s : State) (n a : Nat) (h : Held) : Bool :=
  let v := h.u.vn
  let coming := comingTo s n a v
  if a = 0 then true
  else
    match bridgeAt n with
    | some k =>
      if a = 9 then
        decide (coming.length < 4) && (snoopHosts s k h.u).all fun x =>
          match upstreamPort s x with
          | some p => !portUp s p || egressRoom s p .snp coming.length
          | none => true
      else if a ≤ 6 then
        let p := 6 * k + (a - 1)
        decide (coming.length < 4) && (!portUp s p || egressRoom s p v coming.length)
      else if a = 7 then decide (coming.length < 4) && aulumRoom s k h.u coming
      else decide ((ejectBuf s n a v).length + coming.length < 4)
    | none =>
      if (sliceAt n).isSome && decide (v = .req) then
        !((ejectBuf s n a v ++ coming).any fun g => decide (g.inp = h.inp))
      else decide ((ejectBuf s n a v).length + coming.length < 4)

/-- A unit enters the ejection queue of agent `a`. -/
def ejected (s : State) (n a : Nat) (h : Held) : State :=
  let s1 := if h.u.mc then bumpC s 0xC021 4 else s
  match crossingIn n a with
  | some c => crossSend s1 c h
  | none => deliver s1 n a h

/-! ### Missed queues (R53) -/

/-- The key of the list of units that missed an ejection queue. -/
def missKey (n a : Nat) (v : Vn) (inp : Nat) : Nat :=
  agentKey n a v * 4 + (if (sliceAt n).isSome && decide (v = .req) then inp else 0)

/-- R53: a unit passes the stop; the next free slot is held for it. -/
def missedEject (s : State) (key id : Nat) : State :=
  let l := tabGet [] key s.fab.missEject
  bumpC { s with fab := { s.fab with missEject := tabSet [] key (if l.contains id then l else l ++ [id]) s.fab.missEject } }
    0xC021 1
def missedTurn (s : State) (key id : Nat) : State :=
  let l := tabGet [] key s.fab.missTurn
  bumpC { s with fab := { s.fab with missTurn := tabSet [] key (if l.contains id then l else l ++ [id]) s.fab.missTurn } }
    0xC021 1

/-- R53: no unit stands before `id` in a list of units that missed. -/
def firstMissed (l : List Nat) (id : Nat) : Bool := l.isEmpty || decide (l.head? = some id)

/-- R51, R53: a unit enters the ejection queue, or finds no place in it. -/
def tryEject (s : State) (n a : Nat) (h : Held) : Option State :=
  let key := missKey n a h.u.vn h.inp
  let l := tabGet [] key s.fab.missEject
  if ejectRoom s n a h && firstMissed l h.id then
    some (ejected { s with fab := { s.fab with missEject := tabSet [] key l.tail s.fab.missEject } } n a h)
  else none

/-- R51, R53: a unit enters the turn queue of stop `n` for direction `w`, or finds no place in it. -/
def tryTurn (s : State) (n w : Nat) (h : Held) : Option State :=
  let key := ringKey n w h.u.vn
  let l := tabGet [] key s.fab.missTurn
  let q := turnBuf s n w h.u.vn
  if decide (q.length < 4) && firstMissed l h.id then
    some (setTurnBuf { s with fab := { s.fab with missTurn := tabSet [] key l.tail s.fab.missTurn } } n w h.u.vn (q ++ [h]))
  else none

/-- A unit stays on its ring. -/
def ringPush (s : State) (n d : Nat) (h : Held) : State := setRingBuf s n d h.u.vn (ringBuf s n d h.u.vn ++ [h])

/-! ### Arrival at a stop (R47, R53, R55, R63, R65, R68) -/

/-- R47, R144: the unit is reserved in some field that every stop checks. -/
def reservedUnit (u : FUnit) : Bool :=
  (!u.mc && reservedForm u.dst) || reservedType u.vn u.type.toNat || reservedFollow u ||
    (decide (u.vn = .req) && decide (u.type.toNat ≤ 6) && reservedKind u.payload)

/-- R65: stop `n` answers a snoop for each targeted host of island `k`. -/
def synthRspI (s : State) (n k : Nat) (u : FUnit) : State :=
  (snoopHosts s k u).foldl (fun t v =>
    match upstreamPort t v with
    | some p =>
      sendAt (bumpC t 0xC021 3) n 0
        { blankUnit .rsp 0 (portPlace p) u.src u.tag u.line with synth := true, payload := packRsp (hostId t v) 0 0 false }
        none none
    | none => t) s

/-- R123: the answer that stands for request unit `u`, from `src` to `dst`: poisoned data where data is expected, else the completion
that the request expects, CmpE for InvOwn and Cmp for the others, with poison. -/
def lostAnswer (u : FUnit) (src dst : BitVec 12) : FUnit :=
  if u.type.toNat ≤ 2 then
    { blankUnit .dat 8 src dst u.tag u.line with poison := true, synth := true, payload := Config.poisonData }
  else { homeRsp (if u.type = 3 then 9 else 8) src dst u.tag u.line with poison := true, synth := true }

/-- R123: the answer to a discarded REQ, from agent `a` of stop `n`. The switch that it came from goes with the answer, for the
remote agent that returns it. -/
def answerReq (s : State) (n a : Nat) (h : Held) : State :=
  sendAt s n a (lostAnswer h.u (place n a) h.u.src) none (remoteOrigin h)

/-- R424: the stop is that of an isolated slice. -/
def isolatedStop (s : State) (n : Nat) : Bool :=
  match (sliceAt n).bind (logicalOf s) with
  | some l => s.flt.isoSlices.contains l
  | none => false

/-- R424: a unit that reaches the stop of an isolated slice is discarded; a request of another switch is answered for its remote
agent. -/
def isolatedUnit (s : State) (n : Nat) (h : Held) : State :=
  let s1 := bumpC s 0xC02D 4
  if decide (h.u.vn = .req) && (remoteOrigin h).isSome then answerReq s1 n 0 h else s1

/-- R47, R65, R68, R424: a unit for agent `a` has reached its stop: what happens instead of delivery, if anything. -/
def refusedAt (s : State) (n a : Nat) (h : Held) : Option State :=
  if (if a = 9 then false else !agentExists n a) then some (bounce s n h)
  else if isolatedStop s n && decide (a ≠ 0) then some (isolatedUnit s n h)
  else
    match bridgeAt n with
    | some k =>
      if a = 0 then none
      else if h.u.vn = .snp ∧ a = 9 then
        if markedClosed s k || markedClosing s k then some (synthRspI s n k h.u) else none
      else if markedClosed s k then some (bounce s n h)
      else none
    | none => none

/-- R53: a unit that missed an ejection queue has left its ring otherwise: no place is held for it any longer. -/
def missForgot (s : State) (key id : Nat) : State :=
  { s with fab := { s.fab with missEject := tabSet [] key (setRemove id (tabGet [] key s.fab.missEject)) s.fab.missEject } }

/-- R53: a unit that has reached its stop on a ring is ejected there, or passes. -/
def arriveHome (s : State) (n d a : Nat) (h : Held) : State :=
  match refusedAt s n a h with
  | some t => missForgot t (missKey n a h.u.vn d) h.id
  | none =>
    let h1 := { h with inp := d }
    match tryEject s n a h1 with
    | some t => t
    | none => ringPush (missedEject s (missKey n a h.u.vn d) h.id) n d h

/-- R63: the stops that a multicast snoop still has to reach. -/
def snoopStops (u : FUnit) : List Nat :=
  let b := unpackSnp u.payload
  ((List.range 16).filter fun k => b.islands.getLsbD k).map bridgeStop ++ (if b.mover then [moverStop] else [])

/-- R62: the copy of a multicast snoop for the targets at the given stops. -/
def narrow (u : FUnit) (keep : Nat → Bool) : FUnit :=
  let b := unpackSnp u.payload
  let isl := (List.range 16).foldl (fun (m : BitVec 16) k =>
    if b.islands.getLsbD k && keep (bridgeStop k) then m ||| BitVec.twoPow 16 k else m) 0
  { u with payload := packSnp { b with islands := isl, mover := b.mover && keep moverStop } }

/-- R63: at stop `n`, the direction on its column of a target in that column. -/
def columnDir (n t : Nat) : Nat := ringDir 2 3 (stopY n) (stopY t)

/-- R63: at a stop of its route a copy gives off part `part` of its targets by `give`; where that finds no place, the copy
keeps them. -/
def giveOff (s : State) (u : FUnit) (part : Nat → Bool) (give : State → FUnit → Option State) (miss : State → State) :
    State × FUnit :=
  if (snoopStops u).any part then
    match give s (narrow u part) with
    | some t => (t, narrow u fun x => !part x)
    | none => (miss s, u)
  else (s, u)

/-- R63, R65: a copy reaches stop `n` on direction `d`. -/
def arriveCopy (s : State) (n d : Nat) (h : Held) : State :=
  let a := takingAgent n h.u
  let here := fun (s : State) (u : FUnit) =>
    match refusedAt s n a { h with u := u } with
    | some t => some (missForgot t (missKey n a .snp d) h.id)
    | none => tryEject s n a { h with u := u, inp := d }
  let r0 := giveOff s h.u (fun x => decide (x = n)) here (fun s => missedEject s (missKey n a .snp d) h.id)
  let turn := fun (w : Nat) (r : State × FUnit) =>
    giveOff r.1 r.2 (fun x => decide (x ≠ n) && decide (stopX x = stopX n) && decide (columnDir n x = w))
      (fun s u => (tryTurn s n w { h with u := u, id := if (tabGet [] (ringKey n w .snp) s.fab.missTurn).contains h.id
        then h.id else s.fab.nextId }).map nextUnit)
      (fun s => missedTurn s (ringKey n w .snp) h.id)
  let r2 := if onRow d then turn 3 (turn 2 r0) else r0
  if (snoopStops r2.2).isEmpty then r2.1 else ringPush r2.1 n d { h with u := r2.2 }

/-- A unit reaches stop `n` on direction `d`. -/
def arrive (s : State) (n d : Nat) (h : Held) : State :=
  if reservedUnit h.u then bounce s n h
  else if h.u.mc then arriveCopy s n d h
  else
    match steer s h.u with
    | none => bounce s n h
    | some (t, _) =>
      match wantDir n t h.u.yx with
      | none => arriveHome s n d (takingAgent n h.u) h
      | some w =>
        if onRow w = onRow d then ringPush s n d h
        else
          match tryTurn s n w h with
          | some r => r
          | none => ringPush (missedTurn s (ringKey n w h.u.vn) h.id) n d h

/-- R28, R29: a unit that crossing `i` has delivered goes on: at the next stop of its ring, at the agent of an island, slice or device
stop, or at the network interface towards the ring. -/
def carriedOn (s : State) (i : Nat) (h : Held) : State :=
  if i < 576 then arrive s (nextStop s (i / 4) (i % 4)) (i % 4) h
  else
    let n :=
      if i < 608 then bridgeStop ((i - 576) / 2)
      else if i < 676 then sliceStop ((i - 608) / 2)
      else if i < 684 then memStop ((i - 676) / 2)
      else moverStop
    if i % 2 = 0 then deliver s n (takingAgent n h.u) h else niPush s n h.inp h

/-- CROSSING_UNIT_RECEIVE (R29 to R31): crossing `c` receives the bits `w`. -/
def execCrossingUnitReceive (c : Fin 686) (w : UnitBits) (s : State) : Host.Outcome State Fault Refusal :=
  let r := crossReceive s c.val w
  match r.2 with
  | none => .next r.1
  | some h => .next (carriedOn r.1 c.val h)

/-! ### Injection queues and entry into rings (R52, R54, R61) -/

/-- R22: what entry `t` of the proxy of VCS `v` has been decoded to. -/
def entryPool (s : State) (v t : Nat) : Option (Nat × BitVec 42) :=
  let x := proxy s v
  match x.reqs.find? fun e => decide (e.tag = t) with
  | some e => e.pool
  | none =>
    match x.wrs.find? fun e => decide (e.tag = t) with
    | some e => e.pool
    | none => (x.evs.find? fun e => decide (e.tag = t)).bind fun e => e.pool

/-- R22, R94: home switch and line of request unit `u` of VCS `v` for host line address `a`: those that its entry was decoded to when
it first passed Decode, else those that Decode gives now. -/
def decodeFor (s : State) (v : Nat) (u : FUnit) (a : BitVec 46) : Option (Nat × BitVec 42) :=
  match entryPool s v (u.tag.toNat % 512) with
  | some q => some q
  | none => decodeLine s v a

/-- R94, R19: the unit with the destination that Decode gives it; none where it is undecoded. -/
def decodedUnit (s : State) (h : Held) : Option FUnit :=
  match h.hpa with
  | none => some h.u
  | some (v, a) =>
    if 64 ≤ v then some h.u
    else (decodeFor s v h.u a).map fun q => { h.u with dst := homePlace s q.1 q.2, line := q.2 }

/-- R58, R61: the unit as it would be injected now at stop `n`. -/
def stamped (s : State) (n : Nat) (u : FUnit) : FUnit :=
  let u1 := { u with epoch := activeEpoch s }
  match steer s u1 with
  | some (t, _) => { u1 with yx := !u.mc && overridden s n t }
  | none => u1

/-- R63: the direction in which a home sends the copy that holds a target. R63 names none for a target at the injecting stop itself:
its copy goes north and round the column (DESIGN CHOICE, log entry 23). -/
def copyDir (n t : Nat) : Nat := if stopX t = stopX n then columnDir n t else ringDir 0 1 (stopX n) (stopX t)

/-- The directions in which a unit enters a ring at stop `n`. -/
def entryDirs (s : State) (n : Nat) (h : Held) : List Nat :=
  match decodedUnit s h with
  | none => []
  | some u =>
    if u.mc then
      let ds := (snoopStops u).map (copyDir n)
      (List.range 4).filter fun d => ds.contains d
    else
      let v := stamped s n u
      match steer s v with
      | some (t, _) => (wantDir n t v.yx).toList
      | none => []

/-- R61: step 4: the unit's switch has different entries in the two banks while a commit drains. -/
def heldByCommit (s : State) (u : FUnit) : Bool :=
  match switchOf u.dst with
  | none => false
  | some w =>
    decide (odGet s 0x3033 3 = 1) &&
      (decide (groupFor s false u w ≠ groupFor s true u w) || decide (srcEntry s false w ≠ srcEntry s true w) ||
        match groupFor s false u w with
        | some g => decide (linkMask s false g ≠ linkMask s true g)
        | none => false)

/-- The injection queue of agent `a` at stop `n`, and its first unit that no commit holds. -/
def niBuf (s : State) (n a : Nat) (v : Vn) : List Held := tabGet [] (agentKey n a v) s.fab.ni
def setNiBuf (s : State) (n a : Nat) (v : Vn) (l : List Held) : State :=
  { s with fab := { s.fab with ni := tabSet [] (agentKey n a v) l s.fab.ni } }
def niHead (s : State) (n a : Nat) (v : Vn) : Option Held :=
  (niBuf s n a v).find? fun h =>
    match decodedUnit s h with
    | some u => !heldByCommit s u
    | none => true

/-- The segment into stop `n` in direction `d` has a unit of VN `v` ready to move. -/
def transitWaits (s : State) (n d : Nat) (v : Vn) : Bool :=
  let q := prevStop s n d
  !(ringBuf s q d v).isEmpty &&
    match segCrossing s q d with
    | some c => !(xing s c).stopped && decide ((crossingUnits s c).length < 4)
    | none => true

/-- R52, R54: a unit may enter the ring buffer of stop `n` for direction `d`. -/
def entryOpen (s : State) (n d : Nat) (v : Vn) (urgent : Bool) : Bool :=
  decide (ringLoad s n d v ≤ 2) && (urgent || !transitWaits s n d v)

/-- R54: a unit that the starvation guard puts first waits to enter the ring buffer. -/
def urgentEntry (s : State) (n d : Nat) (v : Vn) : Bool :=
  decide (ringLoad s n d v ≤ 2) && !s.fab.urgent.isEmpty &&
    ((match turnBuf s n d v with | h :: _ => s.fab.urgent.contains h.id | [] => false) ||
      (List.range 16).any fun a =>
        match niHead s n a v with
        | some h => s.fab.urgent.contains h.id && (entryDirs s n h).contains d
        | none => false)

/-- R54: an injection waits for the ring buffer. -/
def injectionWaits (s : State) (n d : Nat) (v : Vn) : Bool :=
  (List.range 16).any fun a =>
    match niHead s n a v with
    | some h => (entryDirs s n h).contains d
    | none => false

/-- A unit has entered a ring. -/
def entered (s : State) (n d : Nat) (v : Vn) (turn : Bool) (id : Nat) : State :=
  let key := ringKey n d v
  { s with fab := { s.fab with
    lastTurn := if turn then setInsert key s.fab.lastTurn else setRemove key s.fab.lastTurn
    urgent := setRemove id s.fab.urgent } }

/-- R52, R54: the first unit of a turn queue enters its ring. -/
def enterTurn (s : State) (n d : Nat) (v : Vn) : State :=
  match turnBuf s n d v with
  | [] => s
  | h :: rest =>
    let urgent := s.fab.urgent.contains h.id
    if entryOpen s n d v urgent && (urgent || !(s.fab.lastTurn.contains (ringKey n d v) && injectionWaits s n d v)) then
      entered (ringPush (setTurnBuf s n d v rest) n d h) n d v true h.id
    else s

/-- R52: the first unit of a ring buffer can move on. -/
def canHop (s : State) (n d : Nat) (v : Vn) : Bool :=
  let m := nextStop s n d
  !(ringBuf s n d v).isEmpty && decide (ringLoad s m d v < 4) && !urgentEntry s m d v &&
    match segCrossing s n d with
    | some c => !(xing s c).stopped && decide ((crossingUnits s c).length < 4)
    | none => true

/-- R54: the segment carries the first unit of the next VN, in round-robin order, that can move. -/
def hop (s : State) (n d : Nat) : State :=
  let seg := n * 4 + d
  let start := tabGet 0 seg s.fab.rrVn
  match ((List.range 8).map fun i => vnOf ((start + i) % 8)).find? fun v => canHop s n d v with
  | none => s
  | some v =>
    match ringBuf s n d v with
    | [] => s
    | h :: rest =>
      let s1 := setRingBuf { s with fab := { s.fab with rrVn := tabSet 0 seg ((vnCode v + 1) % 8) s.fab.rrVn } } n d v rest
      match segCrossing s n d with
      | some c => crossSend s1 c h
      | none => arrive s1 (nextStop s n d) d h

/-- RING_HOP (R52 to R56). -/
def execRingHop (m : RingMove) (s : State) : Host.Outcome State Fault Refusal :=
  match m with
  | .hop n d => .next (hop s n.val d.val)
  | .enter n d v => .next (enterTurn s n.val d.val v)

/-- STARVATION_GUARD (R54): the first unit of a queue has waited for the starvation guard. -/
def execStarvationGuard (q : RingEntry) (s : State) : Host.Outcome State Fault Refusal :=
  let h :=
    match q with
    | .turn n d v => (turnBuf s n.val d.val v).head?
    | .inject n a v => niHead s n.val a.val v
  match h with
  | some g =>
    if s.fab.urgent.contains g.id then .next s
    else .next (bumpC { s with fab := { s.fab with urgent := setInsert g.id s.fab.urgent } } 0xC021 5)
  | none => .next s

/-! ### Route banks (R59 to R61) -/

/-- R60: the units on the fabric die of which `f` holds. -/
def onDie (s : State) (f : FUnit → Bool) : Nat :=
  let rings := (s.fab.ring.flatMap Prod.snd) ++ s.fab.turn.flatMap Prod.snd
  let segs := (s.fab.xing.filter fun p => decide (p.1 < 576)).flatMap fun p => p.2.hold.map Prod.snd ++ p.2.wait
  ((rings ++ segs).filter fun h => f h.u).length

/-- OD 3033.04. -/
def oldEpochDrain (s : State) : Nat := onDie s fun u => decide (u.epoch ≠ activeEpoch s)

/-- R268: reserved bits of a source route entry stay zero. -/
def sourceMask (e : BitVec 64) : BitVec 64 := e &&& 0x000000F0FFFFFFFF#64

/-- The table of a list of values, in which zero is not listed. -/
def tabOf {w : Nat} (l : List (BitVec w)) : Tab (BitVec w) :=
  ((List.range l.length).zip l).filter fun p => decide (p.2 ≠ 0)

/-- R59: a write to the inactive bank. -/
def routeWrite (s : State) (t : RouteTable) : State × Status :=
  if 0 < oldEpochDrain s then (s, .busy)
  else
    let bank1 := !activeEpoch s
    match t with
    | .links m =>
      let l := tabOf m.toList
      (if bank1 then { s with fab := { s.fab with links1 := l } } else { s with fab := { s.fab with links0 := l } }, .ok)
    | .sources e =>
      let l := tabOf (e.toList.map sourceMask)
      (if bank1 then { s with fab := { s.fab with src1 := l } } else { s with fab := { s.fab with src0 := l } }, .ok)

/-- ROUTE_TABLE_WRITE (R59, R268, R272): a write of OD 6010.00 or OD 6011.00. -/
def execRouteTableWrite (t : RouteTable) (s : State) : Host.Outcome State Fault Refusal := answered (routeWrite s t)

/-- ROUTE_DRAIN_COMPLETE (R61): the last unit of the old epoch has left the die. -/
def execRouteDrainComplete (s : State) : Host.Outcome State Fault Refusal :=
  if odGet s 0x3033 3 = 1 ∧ oldEpochDrain s = 0 then .next (bumpC (odSet s 0x3033 3 2) 0xC021 6) else .next s

end Sys2Proof.Machine
end

