-- ==== Sys2Proof/Machine/EgressOut.lean ====
section
/-!
DEFINITION. Machine/EgressOut.lean: a message leaves on a CXL link (R115, R118, R503), and ageing (R119 to R123).
-/

namespace Sys2Proof.Machine

/-! ### Sending (R33, R118, R503) -/

/-- R33: flits sent, and sent flits that carry messages. -/
def countSent (s : State) (p : Nat) : State := bump (bump s (8 * p + 1) 1) (8 * p + 3) 1

/-- R89: the place of the agent that a non-posted request came from: a CXL port, or 96 for the mover. -/
def npPlace (p : Nat) : BitVec 12 := if p < 96 then portPlace p else moverPlace

/-- R89: a non-posted packet has left on the target's link. -/
def npSent (s : State) (p : Nat) (u : FUnit) : State :=
  { s with port := { s.port with
    np := s.port.np.map fun n =>
      if n.toPort = p ∧ n.tag = u.tag ∧ npPlace n.fromPort = u.src then { n with sent := true } else n } }

/-- R474: CXL.io payload bytes to the host. -/
def countToHost (s : State) (p n : Nat) : State :=
  match hostOfPort s p with
  | some v => bumpVcs s v 46 n
  | none => s

/-- R161, R165: message `e` does not leave before an answer that the port's agent gave earlier: a BISnp goes after every answer on
the RSP and DAT networks, a BIConflictAck after every data message (DESIGN CHOICE, log 21: whatever their lines). -/
def mayLeave (s : State) (p : Nat) (e : EgUnit) : Bool :=
  let older := fun (v : Vn) => (egress s p v).any fun f => f.msg.isSome && decide (f.h.id < e.h.id)
  match e.msg with
  | some (.biSnp _ _ _) => !older .rsp && !older .dat
  | some (.conflictAck _) => !older .dat
  | _ => true

/-- R132: the units of a packet at the egress tap. -/
def traceSent (s : State) (p : Nat) (l : List Held) : State := l.foldl (fun t h => traceUnit t 3 p 0 h.u) s

/-- R503: the first message of a pair is handed to the transmitter, and its cells are freed. A packet that started
cut-through and whose next unit is not there leaves idle flits (R118). -/
def egressSent (s : State) (p : Nat) (v : Vn) : State :=
  let l := egress s p v
  match l with
  | [] => gapOpens s p v
  | e :: rest =>
    match e.msg with
    | some m =>
      if mayLeave s p e then
        let n := match m with | .tlp t => t.data.length | _ => 0
        countToHost (emit (countSent (traceUnit (setEgress s p v rest) 3 p 0 e.h.u) p) (.link p m)) p n
      else s
    | none =>
      match e.h.tlp with
      | none => s
      | some t =>
        if packetWhole l e then
          let mine := pairPacket l e
          let s1 := setEgress s p v (l.filter fun f => !(mine.any fun g => decide (g.id = f.h.id)))
          let s2 := npSent (moverWriteGone (traceSent (gapCloses s1 p v) p mine) { e.h.u with follow := 0 }) p e.h.u
          countToHost (emit (countSent s2 p) (.link p (.tlp { t with origin := 0 }))) p t.data.length
        else if e.cell then s
        else gapOpens s p v

/-- EGRESS_FLIT_SENT (R503). -/
def execEgressFlitSent (port : Fin 96) (vn : Vn) (s : State) : Host.Outcome State Fault Refusal :=
  if portUp s port.val then .next (egressSent s port.val vn) else .next s

/-! ### Ageing (R119 to R123) -/

/-- R121: the age limit of a VN, in ns. -/
def ageLimit (s : State) (v : Vn) : Nat := if v = .req then odGet s 0x3040 1 * 1000 else odGet s 0x3040 2 * 1000000

/-- R119: the unit is aged: one of REQ, IOP or ION that no home slice issued. -/
def unitAges (u : FUnit) : Bool := vnAged u.vn && !(decide (u.vn = .req) && decide (8 ≤ u.type.toNat))

/-- R121: the unit has reached its limit. -/
def overAge (s : State) (h : Held) : Bool :=
  unitAges h.u && decide (ageLimit s h.u.vn ≤ h.u.age.toNat * 1000 + (s.time.clock - h.since))

/-- R123: the ageing source is raised, with the unit's header. -/
def ageRaised (s : State) (port : Nat) (h : Held) : State :=
  let us := (s.time.clock - h.since) / 1000
  raiseFaultData (traceUnit s 6 port (us % 2 ^ 32 + h.u.age.toNat * 2 ^ 32) h.u) 431 0 (port * 256 + vnCode h.u.vn)
    (BitVec.ofNat 192 (unitHeader h.u).toNat)

/-- R123: the packet of the port that a unit came from is logged. -/
def ageLogged (s : State) (p : Nat) (t : Tlp) (nonPosted : Bool) : State :=
  bumpPort (aerAt s p t.ld fun a =>
    if nonPosted then { a with completerAbort := true, header := some t }
    else { a with advisory := true, header := some t }) p t.ld (if nonPosted then 43 else 44) 1

/-- R123: the discarded unit `h` of a queue of agent `a` at stop `n` is answered. -/
def ageAnswer (s : State) (n a port : Nat) (h : Held) : State :=
  let s1 := ageRaised s port h
  match h.u.vn with
  | .req => answerReq (bumpC s1 0xC022 1) n a h
  | .ion =>
    match h.tlp with
    | none => bumpC s1 0xC022 2
    | some t =>
      let s2 := match portOf h.u.src with | some p => ageLogged s1 p { t with ld := t.origin } true | none => s1
      sendSynth (bumpC s2 0xC022 2) n a (completionOf { t with ld := t.origin } 4 []) (place n a) h.u.src h.u.tag
  | _ =>
    match h.tlp, portOf h.u.src with
    | some t, some p => ageLogged (bumpC s1 0xC022 3) p { t with ld := t.origin } false
    | _, _ => moverWriteGone (bumpC s1 0xC022 3) { h.u with follow := 0 }

/-- R121: the packet of `h`, if it is one of CXL.io, stands whole in a queue. -/
def tlpWhole (l : List Held) (h : Held) : Bool :=
  match h.tlp with
  | none => packetThere l h
  | some t => decide (tlpUnits t = unitsLeft h.u + 1) && packetThere l h

/-- R121: one examination of a queue of agent `a` at stop `n`: the discarded units are answered, and the rest stay. -/
def ageQueue (s : State) (n a port : Nat) (l : List Held) : State × List Held :=
  l.foldl (fun (r : State × List Held) h =>
    if (r.2.any fun g => decide (g.id = h.id)) && overAge s h && tlpWhole r.2 h then
      (ageAnswer r.1 n a port h, packetRemoved r.2 h)
    else r) (s, l)

/-! ### Parse's units (R42, R90, R132, R150) -/

/-- R132: the units that a message stands for where it is received: those of a packet, the request that a host message maps to (not
yet decoded, so with no destination), and the response or snoop reply that an answer becomes. -/
def parseUnits (s : State) (p : Nat) (vn : Vn) (m : PortMsg) : List FUnit :=
  let me := portPlace p
  match m with
  | .req k mv a t => [blankUnit vn ((mapRequest k mv).getD 0) me 0 t (a.setWidth 42)]
  | .biConflict a t => [blankUnit vn 0 me 0 t (a.setWidth 42)]
  | .rwd part mv a t _ z d =>
    [{ blankUnit vn (if part then 5 else if mv = .s then 1 else 0) me 0 t (a.setWidth 42) with payload := d, poison := z }]
  | .biRsp k t =>
    match (hostOfPort s p).bind fun v => (proxy s v).snps.find? fun e => e.out && decide (e.biTag = t.toNat) with
    | some e => [blankUnit vn (if k = .s then 1 else 0) me e.src e.tag e.line]
    | none => [blankUnit vn 0 me 0 t 0]
  | .ndr t =>
    match (poolAgent s p).writes.find? fun w => w.sent && decide (w.link = t.toNat) with
    | some w => [homeRsp 0x19 me w.u.src w.u.tag w.u.line]
    | none => [blankUnit vn 0x19 me 0 t 0]
  | .drs t z d =>
    match (poolAgent s p).reads.find? fun q => decide (q.1 = t.toNat) with
    | some (_, u) =>
      let b := unpackMem u.payload
      [{ blankUnit vn b.grant me b.deliver b.tag u.line with payload := d, poison := z }]
    | none => [{ blankUnit vn 0 me 0 t 0 with payload := d, poison := z }]
  | .tlp t => tlpUnitsOf t me 0 (t.tag.setWidth 16)

/-- R119, R121: a message of an ingress pair has reached its limit. -/
def lateMsg (s : State) (v : Vn) (m : InMsg) : Bool :=
  decide (ageLimit s v ≤ s.time.clock - m.since) && match m.msg with | .req _ _ _ _ => true | .tlp _ => true | _ => false

/-- R121, R123: the messages of an ingress pair that have reached their limit are answered. -/
def ageIngress (s : State) (p : Nat) (v : Vn) : State :=
  let l := ingress s p v
  let s0 := setIngress s p v (l.filter fun m => !lateMsg s v m)
  (l.filter (lateMsg s v)).foldl (fun t m =>
    let h : Held :=
      { id := 0, u := (parseUnits s p v m.msg).headD (blankUnit v 0 (portPlace p) 0 0 0), tlp := none, hpa := none, inp := 0
        since := m.since }
    let t1 := ageRaised t p h
    match m.msg with
    | .req k mv _ tag =>
      let t2 := bumpC t1 0xC022 1
      match k with
      | .memRd => tellHost t2 p .dat (.memData tag .i true Config.poisonData)
      | .memRdData => tellHost t2 p .dat (.memData tag .i true Config.poisonData)
      | .memSpecRd => t2
      | _ => tellHost t2 p .rsp (if mapRequest k mv = some 3 then .cmpE tag else .cmp tag true)
    | .tlp x =>
      if v = .ion then hostSend (ageLogged (bumpC t1 0xC022 2) p x true) p .ioc (.tlp (completionOf x 4 []))
      else ageLogged (bumpC t1 0xC022 3) p x false
    | _ => t1) s0

/-- R132: the port code of a stop's agent. -/
def portCode (s : State) (n a : Nat) : Nat :=
  match bridgeAt n with
  | some k => if 1 ≤ a ∧ a ≤ 6 then 6 * k + (a - 1) else if a = 7 ∨ a = 8 then 0x60 + k else 0xFF
  | none =>
    match (sliceAt n).bind (logicalOf s) with
    | some l => 0x80 + l
    | none => if n = moverStop then 0x70 else if n = windowStop then 0x71 else 0xFF

/-- R121, R248: the units of Aulum port `a`'s ingress pair that have reached their limit are answered; their cells are free. -/
def ageLink (s : State) (a : Nat) (v : Vn) : State :=
  let r := ageQueue (setLinkQueue s a v []) (bridgeStop a) 7 (96 + a) (linkQueue s a v)
  linkFreed (setLinkQueue r.1 a v r.2) a ((linkQueue s a v).filter fun h => !(r.2.any fun g => decide (g.id = h.id)))

/-- R121: one examination of an egress pair. -/
def ageEgress (s : State) (port n a : Nat) (v : Vn) : State :=
  let l := egress s port v
  let r := ageQueue s n a port ((l.filter fun e => e.msg.isNone).map fun e => e.h)
  setEgress r.1 port v ((egress r.1 port v).filter fun e => e.msg.isSome || r.2.any fun g => decide (g.id = e.h.id))

/-- R121: one examination of a holding point. -/
def ageExamine (s : State) (hp : HoldPoint) : State :=
  match hp with
  | .ingress p v => if !vnAged v then s else if p.val < 96 then ageIngress s p.val v else ageLink s (p.val - 96) v
  | .egress p v =>
    if p.val < 96 then ageEgress s p.val (bridgeStop (p.val / 6)) (1 + p.val % 6) v
    else ageEgress s p.val (bridgeStop (p.val - 96)) 7 v
  | .injection n a v =>
    let r := ageQueue (setNiBuf s n.val a.val v []) n.val 0 (portCode s n.val a.val) (niBuf s n.val a.val v)
    setNiBuf r.1 n.val a.val v (r.2 ++ niBuf r.1 n.val a.val v)
  | .input n a v =>
    let r := ageQueue s n.val a.val (portCode s n.val a.val) (ejectBuf s n.val a.val v)
    setEjectBuf r.1 n.val a.val v r.2

/-- AGEING_EXAMINATION (R121). -/
def execAgeingExamination (hp : HoldPoint) (s : State) : Host.Outcome State Fault Refusal := .next (ageExamine s hp)

end Sys2Proof.Machine
end

