-- ==== Sys2Proof/Machine/Inject.lean ====
section
/-!
DEFINITION. Machine/Inject.lean: injection at a network interface (R52, R54, R61, R63, R67), with the Decode and Guard stages
that a proxy's request passes there (R18, R94, R95, R232 to R234).
-/

namespace Sys2Proof.Machine

/-- R233: a request of type `ty` is checked as read, and as write. -/
def checkedRead (ty : Nat) : Bool := decide (ty ≤ 2)
def checkedWrite (ty : Nat) : Bool := decide (3 ≤ ty) && decide (ty ≤ 5)

/-- R94: the proxy knows where entry `t` has been decoded to. -/
def entryDecoded (s : State) (v t : Nat) (q : Nat × BitVec 42) : State :=
  let x := proxy s v
  setProxy s v { x with
    reqs := x.reqs.map fun e => if e.tag = t then { e with pool := some q } else e
    wrs := x.wrs.map fun e => if e.tag = t then { e with pool := some q } else e
    evs := x.evs.map fun e => if e.tag = t then { e with pool := some q } else e }

/-- R424: a request for line `l` of switch `h` is for an isolated slice of this switch. -/
def sliceGone (s : State) (h : Nat) (l : BitVec 42) : Bool :=
  decide (h = ownSwitch s) && s.flt.isoSlices.contains (homeSlice l)

/-- Take unit `id` out of the injection queue of agent `a` at stop `n`. -/
def niTake (s : State) (n a : Nat) (v : Vn) (id : Nat) : State :=
  setNiBuf s n a v ((niBuf s n a v).filter fun h => decide (h.id ≠ id))

/-- R95, R234, R424: what keeps a proxy's request of VCS `v` from its home: its entry is answered. -/
def requestStopped (s : State) (v : Nat) (h : Held) (a : BitVec 46) : Option State :=
  let t := h.u.tag.toNat % 512
  match upstreamPort s v with
  | none => none
  | some p =>
    let ty := h.u.type.toNat
    let rd := decide (h.u.vn = .req) && checkedRead ty
    let wr := decide (h.u.vn = .req) && checkedWrite ty
    match decodeFor s v h.u a with
    | none => some (failEntry (undecoded s v (a.toNat * 64)) v p t none false)
    | some (w, l) =>
      if (rd || wr) && !permitsAddr s (portIsland p) v (poolAddr w l) rd wr then
        some (failEntry (refusal s v (poolAddr w l) wr) v p t none false)
      else if decide (h.u.vn = .req) && sliceGone s w l then some (failEntry s v p t none true)
      else none

/-- R94: the entry of a proxy's request that goes on to its home learns its line. -/
def requestDecoded (s : State) (h : Held) : State :=
  match h.hpa with
  | some (v, a) =>
    match decodeFor s v h.u a with
    | some q => if v < 64 then entryDecoded s v (h.u.tag.toNat % 512) q else s
    | none => s
  | none => s

/-- R67: what a network interface does with a unit addressed to an agent of a marked island. -/
def markedUnit (s : State) (n : Nat) (h : Held) : Option State :=
  match addressedIsland s h.u with
  | none => none
  | some k =>
    let marked := markedClosed s k || markedClosing s k
    if h.u.mc then none
    else if h.u.vn = .snp ∧ (switchOf h.u.dst).isNone then if marked then some (synthRspI s n k h.u) else none
    else if h.u.vn = .req ∨ h.u.vn = .ion ∨ h.u.vn = .iop then if marked then some (bounce s n h) else none
    else if markedClosed s k then some (bounce s n h) else none

/-- R52, R54: an injection of unit `h` may enter the ring of stop `n` for direction `d`. -/
def injectOpen (s : State) (n d : Nat) (v : Vn) (id : Nat) : Bool :=
  let urgent := s.fab.urgent.contains id
  entryOpen s n d v urgent &&
    (urgent || !(!s.fab.lastTurn.contains (ringKey n d v) && !(turnBuf s n d v).isEmpty))

/-- R63: the copies of a multicast snoop enter the rings of stop `n`. -/
def injectCopies (s : State) (n : Nat) (h : Held) (ds : List Nat) : State :=
  ds.foldl (fun t d =>
    let u := narrow h.u fun x => decide (copyDir n x = d)
    entered (ringPush (nextUnit t) n d { h with u := u, id := t.fab.nextId }) n d h.u.vn false h.id) s

/-- R52, R58, R61: the unit that would enter a ring of stop `n` for the waiting unit `h`, decoded as `u`. -/
def injected (s : State) (n : Nat) (h : Held) (u : FUnit) : Held :=
  { h with u := { stamped s n u with age := agedBy s h.since u.age } }

/-- R52, R61: the first unit of an injection queue that no commit holds enters a ring, or turns around at its own stop. -/
def inject (s : State) (n a : Nat) (v : Vn) : State :=
  match niHead s n a v with
  | none => s
  | some h =>
    let took := niTake s n a v h.id
    match (match h.hpa with | some (w, x) => if w < 64 then requestStopped took w h x else none | none => none) with
    | some t => t
    | none =>
      match decodedUnit s h with
      | none => s
      | some u0 =>
        let g := injected s n h u0
        let u1 := g.u
        let s1 := requestDecoded took h
        match markedUnit s1 n g with
        | some t => t
        | none =>
          if u1.mc then
            let ds := entryDirs s n h
            if ds.all fun d => injectOpen s n d v h.id then injectCopies s1 n g ds else s
          else
            match steer s u1 with
            | none => bounce s1 n g
            | some (t, _) =>
              match wantDir n t u1.yx with
              | none =>
                if reservedUnit u1 then bounce s1 n g else
                let ag := takingAgent n u1
                match refusedAt s1 n ag g with
                | some r => r
                | none =>
                  match tryEject s1 n ag { g with inp := 4 } with
                  | some r => r
                  | none => s
              | some d => if injectOpen s n d v h.id then entered (ringPush s1 n d g) n d v false h.id else s

/-- UNIT_INJECTION (R52): the injection queue of agent `a` at stop `n` for VN `v`. -/
def execUnitInjection (n : Fin 144) (a : Fin 16) (v : Vn) (s : State) : Host.Outcome State Fault Refusal :=
  .next (inject s n.val a.val v)

end Sys2Proof.Machine
end

