-- ==== Sys2Proof/Machine/CheckUnit.lean ====
section
/-!
DEFINITION. Machine/CheckUnit.lean: the check units' algorithms and alive checking (R310 to R313).
-/

namespace Sys2Proof.Machine

/-- R311: the context of a check unit. -/
structure CheckCtx where
  running : BitVec 64
  finished : BitVec 64
  bytes : BitVec 64
  block : BitVec 32
  last : BitVec 32
  firstFault : BitVec 32
  faults : BitVec 30
  kind : BitVec 2
  size : BitVec 32
  alive : BitVec 32
  alg : BitVec 8
  width : BitVec 8
  valid : Bool
  deriving DecidableEq, Repr

/-- R311: the 64 bytes of a context; its reserved bits are zero. -/
def packCtx (c : CheckCtx) : BitVec 512 :=
  c.running ++ c.finished ++ c.bytes ++ c.block ++ c.last ++ c.firstFault ++ c.faults ++ c.kind ++ c.size ++ c.alive ++ c.alg ++
    c.width ++ (0 : BitVec 7) ++ BitVec.ofNat 1 (if c.valid then 1 else 0) ++ (0 : BitVec 104)

/-- R311: the fields of a context. -/
def unpackCtx (w : BitVec 512) : CheckCtx :=
  { running := w.extractLsb' 448 64, finished := w.extractLsb' 384 64, bytes := w.extractLsb' 320 64, block := w.extractLsb' 288 32
    last := w.extractLsb' 256 32, firstFault := w.extractLsb' 224 32, faults := w.extractLsb' 194 30, kind := w.extractLsb' 192 2
    size := w.extractLsb' 160 32, alive := w.extractLsb' 128 32, alg := w.extractLsb' 120 8, width := w.extractLsb' 112 8
    valid := w.getLsbD 104 }

/-- R311: the algorithm and the alive width are in range. -/
def ctxInRange (w : BitVec 512) : Bool :=
  decide ((unpackCtx w).alg.toNat ≤ 3) && decide ((unpackCtx w).width.toNat ≤ 2)

/-- R312: the raw register of an algorithm before the first byte. -/
def checkInit (alg : BitVec 8) : BitVec 64 :=
  if alg = 3 then 0 else if alg = 2 then BitVec.allOnes 64 else 0xFFFFFFFF#64

/-- R310, R312: the initial context. -/
def ctxInitial (size alive : BitVec 32) (alg width : BitVec 8) : CheckCtx :=
  { running := checkInit alg, finished := 0, bytes := 0, block := 0, last := 0, firstFault := 0, faults := 0, kind := 0
    size := size, alive := alive, alg := alg, width := width, valid := false }

/-- R312: one byte of a reflected CRC with polynomial `poly`. -/
def crcByte (poly x : BitVec 64) (b : Byte) : BitVec 64 :=
  (List.range 8).foldl (fun y _ => if y.getLsbD 0 then (y >>> 1) ^^^ poly else y >>> 1) (x ^^^ b.setWidth 64)

/-- R312: the polynomials, and the final XOR. -/
def crcPoly (alg : BitVec 8) : BitVec 64 :=
  if alg = 0 then 0x82F63B78#64 else if alg = 1 then 0xEDB88320#64 else 0xC96C5795D7870F42#64

/-- R311: the register of a CRC: the CRC-32 forms use [479..448] of the context. -/
def crcRegister (c : CheckCtx) : BitVec 64 := if c.alg = 2 then c.running else (c.running.extractLsb' 0 32).setWidth 64

/-- R312: a word of Fletcher-64. -/
def fletcherWord (x : BitVec 64) (w : Nat) : BitVec 64 :=
  let s1 := ((x.extractLsb' 0 32).toNat + w) % (2 ^ 32 - 1)
  let s2 := ((x.extractLsb' 32 32).toNat + s1) % (2 ^ 32 - 1)
  BitVec.ofNat 64 (s2 * 2 ^ 32 + s1)

/-- R313: bytes of the alive counter. -/
def aliveBytes (w : BitVec 8) : Nat := if w = 1 then 2 else if w = 2 then 4 else 0

/-- A context in use, with the bytes of the word and of the counter that are being read, and the faults found since it was
taken into use. -/
structure CheckRun where
  ctx : CheckCtx
  word : List Byte
  counter : List Byte
  faults : Nat
  deriving DecidableEq, Repr

/-- R313: a block has been consumed. -/
def checkBlock (r : CheckRun) : CheckRun :=
  let c := r.ctx
  let n := aliveBytes c.width
  if n = 0 then { r with ctx := { c with block := c.block + 1 } }
  else
    let v := BitVec.ofNat 32 (leValue r.counter)
    let kind := if !c.valid then 0 else if v = c.last then 1 else if v.toNat = (c.last.toNat + 1) % 256 ^ n then 0 else 2
    let c1 := if kind = 0 then c else
      { c with
        faults := if c.faults = BitVec.allOnes 30 then c.faults else c.faults + 1
        firstFault := if c.faults = 0 then c.block else c.firstFault
        kind := if c.faults = 0 then BitVec.ofNat 2 kind else c.kind }
    { r with ctx := { c1 with last := v, valid := true, block := c.block + 1 }, counter := []
             faults := r.faults + (if kind = 0 then 0 else 1) }

/-- R296, R312, R313: one byte is consumed. -/
def checkByte (r : CheckRun) (b : Byte) : CheckRun :=
  let c := r.ctx
  let size := c.size.toNat
  let pos := if size = 0 then 0 else c.bytes.toNat % size
  let n := aliveBytes c.width
  let cnt := if 0 < n ∧ 0 < size ∧ c.alive.toNat ≤ pos ∧ pos < c.alive.toNat + n then r.counter ++ [b] else r.counter
  let r1 :=
    if c.alg = 3 then
      let w := r.word ++ [b]
      if w.length = 4 then { r with ctx := { c with running := fletcherWord c.running (leValue w) }, word := [] }
      else { r with word := w }
    else { r with ctx := { c with running := crcByte (crcPoly c.alg) (crcRegister c) b } }
  let r2 := { r1 with ctx := { r1.ctx with bytes := c.bytes + 1 }, counter := cnt }
  if 0 < size ∧ pos + 1 = size then checkBlock r2 else r2

/-- R312: Final: the finished value. -/
def checkFinal (r : CheckRun) : CheckRun :=
  let c := r.ctx
  let run := if c.alg = 3 then (if r.word ≠ [] then fletcherWord c.running (leValue r.word) else c.running) else crcRegister c
  let v := if c.alg = 3 then run else if c.alg = 2 then run ^^^ BitVec.allOnes 64 else run ^^^ 0xFFFFFFFF#64
  { r with ctx := { c with running := run, finished := v }, word := [] }

end Sys2Proof.Machine
end

