-- ==== Sys2Proof/Machine/MovAccess.lean ====
section
/-!
DEFINITION. Machine/MovAccess.lean: how the mover reaches pool and host memory (R168, R277, R278, R302): accesses, their parts
and what answers them.
-/

namespace Sys2Proof.Machine

/-! ### Parts (R235, R277, R278) -/

/-- The next number of the mover. -/
def takeNo (s : State) : State := { s with mov := { s.mov with nextNo := s.mov.nextNo + 1 } }

/-- A part that has not been issued. -/
def freshPart (off len addr : Nat) (pool : Option (Nat × BitVec 42)) (data : List Byte) (poison : Bool) : MovPart :=
  { off := off, len := len, addr := addr, pool := pool, st := .wait, tag := 0, nacks := 0, senior := false, first := 0, due := 0, issued := 0
    data := data, poison := poison, bad := [] }

/-- R277, R278, R302: `len` bytes at host address `a` of VCS `v`, as parts: lines of the pool, and host TLPs of at most `mx` bytes, of
which one with poison carries no more than the bytes of one line. -/
def cutParts (s : State) (v mx : Nat) (poison : Nat → Bool) : Nat → Nat → Nat → Nat → List Byte → List MovPart
  | 0, _, _, _, _ => []
  | f + 1, off, a, len, data =>
    if len = 0 then []
    else
      let q := decodeAddr s v a
      let k := match q with
        | some _ => min len (64 - a % 64)
        | none =>
          let n := min len (mx - a % mx)
          if (List.range n).any fun i => poison (off + i) then min len (64 - a % 64) else n
      let bad := (List.range k).any fun i => poison (off + i)
      freshPart off k a (q.map poolLine) (data.take k) bad ::
        cutParts s v mx poison f (off + k) (a + k) (len - k) (data.drop k)

/-- R278: the largest TLP of a function's access. -/
def tlpLimit (s : State) (fn : Option Nat) (write : Bool) : Nat :=
  match fn with
  | some f => max 64 (if write then (func s f).mps else (func s f).mrrs)
  | none => 64

/-- R232, R234: a part that Guard refuses at stage 16 is not performed. -/
def guardPart (s : State) (v : Nat) (rd wr : Bool) (x : MovPart) : State × MovPart :=
  match x.pool with
  | none => (s, x)
  | some (h, l) =>
    if permitsAddr s 16 v (poolAddr h l) rd wr then (s, x)
    else (refusal s v (poolAddr h l) wr, { x with st := .bad 0x20 })

/-- R232: the parts of an access after Guard. -/
def guardParts (s : State) (v : Nat) (rd wr : Bool) (ps : List MovPart) : State × List MovPart :=
  ps.foldl (fun (r : State × List MovPart) x => let g := guardPart r.1 v rd wr x; (g.1, r.2 ++ [g.2])) (s, [])

/-- Start an access: number, parts and Guard; its parts are issued by `issueParts`. -/
def openAccess (s : State) (fn : Option Nat) (v : Nat) (write guarded : Bool) (use : MovUse) (addr len : Nat) (data : List Byte)
    (poison : Nat → Bool) : State :=
  let ps :=
    if len = 0 then [freshPart 0 0 addr none [] false]
    else cutParts s v (tlpLimit s fn write) poison (len + 1) 0 addr len data
  let r := if guarded then guardParts s v (!write) write ps else (s, ps)
  -- R309: a CXL.io request goes to no host: a read of no bytes is done, and a part that no decoder covers fails.
  let own := match use with | .tlp _ => true | _ => false
  let stay := fun (x : MovPart) => if own && x.pool.isNone then { x with st := if len = 0 then .done else .bad 0x24 } else x
  let a : MovAcc := { id := s.mov.nextNo, fn := fn, vcs := v, write := write, use := use, parts := r.2.map stay }
  takeNo { r.1 with mov := { r.1.mov with accs := r.1.mov.accs ++ [a] } }

/-- Change the part at offset `off` of access `id`. -/
def setPart (s : State) (id off : Nat) (f : MovPart → MovPart) : State :=
  { s with mov := { s.mov with accs := s.mov.accs.map fun a =>
      if a.id = id then { a with parts := a.parts.map fun x => if x.off = off then f x else x } else a } }

/-- The part has been issued and not answered. -/
def MovPart.live (x : MovPart) : Bool := decide (x.st = .out) || decide (x.st = .back) || decide (x.st = .go)

/-- The part has finished. -/
def MovPart.over (x : MovPart) : Bool := decide (x.st ≠ .wait) && !x.live

/-- R278: a free tag of the 3,584 for queue work. -/
def workTag (s : State) : Option Nat :=
  let used := s.mov.accs.flatMap fun a => (a.parts.filter fun x => x.live && x.pool.isSome).map fun x => x.tag
  ((List.range 3584).map (· + 65 * 512)).find? fun t => !used.contains t && (tabFind? t s.mov.quar).isNone

/-- A free tag of a host access. -/
def hostTag (s : State) : Option Nat :=
  let used := s.mov.accs.flatMap fun a => (a.parts.filter fun x => x.live && x.pool.isNone).map fun x => x.tag
  ((List.range 16383).map (· + 1)).find? fun t => !used.contains t && !s.mov.gone.contains t

/-- R140: the mover cache's host ID. -/
def cacheHost (s : State) : BitVec 16 := BitVec.ofNat 16 (ownSwitch s * 64)

/-- R144, R278: a request of the mover cache agent. -/
def cacheRequest (s : State) (ty tag h : Nat) (l : BitVec 42) (nacks : Nat) (senior : Bool) (first : BitVec 32)
    (mask : BitVec 64) : State :=
  send s { blankUnit .req ty cachePlace (homePlace s h l) (BitVec.ofNat 16 tag) l with
    payload := packReq { host := cacheHost s, mover := true, senior := senior, nacks := min nacks 15, first := first, mask := mask } }

/-- R9, R278: the byte mask of a part. -/
def MovPart.mask (x : MovPart) : BitVec 64 := BitVec.ofNat 64 ((2 ^ x.len - 1) * 2 ^ (x.addr % 64))

/-- The request that carries a part: RdCur, WrOwn or WrPtl. -/
def partKind (write : Bool) (x : MovPart) : Nat := if !write then 2 else if x.len = 64 then 4 else 5

/-- R278: send the request of a part of pool memory. -/
def sendPart (s : State) (write : Bool) (x : MovPart) (h : Nat) (l : BitVec 42) : State :=
  let ty := partKind write x
  cacheRequest s ty x.tag h l x.nacks x.senior x.first (if ty = 5 then x.mask else 0)

/-- R278: send the TLP of a part of host memory, and note a read until it is answered. -/
def sendHostPart (s : State) (fn : Option Nat) (v p : Nat) (write : Bool) (x : MovPart) : State :=
  let rid := match fn with | some f => funcRid s f | none => funcRid s (1024 + v)
  if write then
    sendTlp s moverStop 1 (memWriteTlp rid x.addr x.data x.poison) moverPlace (portPlace p) (BitVec.ofNat 16 x.tag)
  else
    let t : Tlp :=
      { kind := .memRead, ld := 0, requester := rid, tag := BitVec.ofNat 14 x.tag, addr := BitVec.ofNat 64 x.addr, id := 0, byId := false
        len := x.len, hdr := 16, status := 0, poison := false, data := [] }
    let n : NonPosted :=
      { vcs := v, fromPort := 96, toPort := p, ld := 0, tag := BitVec.ofNat 16 x.tag, tlp := t, sent := false, refused := false, got := 0 }
    sendTlp { s with port := { s.port with np := s.port.np ++ [n] } } moverStop 1 t moverPlace (portPlace p) (BitVec.ofNat 16 x.tag)

/-- Issue part `off` of access `a`, if it waits and a tag is free. A part for an isolated slice is answered as R424 says. -/
def issuePart (s : State) (a : MovAcc) (x : MovPart) : State :=
  match x.pool with
  | some (h, l) =>
    if sliceGone s h l then setPart s a.id x.off fun y => { y with st := .bad 0x21, poison := true }
    else
      match workTag s with
      | none => s
      | some t =>
        let y := { x with st := .out, tag := t, first := firstIssue s }
        sendPart (setPart s a.id x.off fun _ => y) a.write y h l
  | none =>
    match upstreamPort s a.vcs, hostTag s with
    | none, _ => setPart s a.id x.off fun y => { y with st := .bad 0x24 }
    | some _, none => s
    | some p, some t =>
      let y := { x with st := .out, tag := t, issued := s.time.clock }
      sendHostPart (setPart s a.id x.off fun _ => y) a.fn a.vcs p a.write y

/-- Issue every part that waits, in order. -/
def issueParts (s : State) : State :=
  (s.mov.accs.flatMap fun a => (a.parts.filter fun x => decide (x.st = .wait)).map fun x => (a, x)).foldl
    (fun t q => issuePart t q.1 q.2) s

/-! ### Answers from host memory (R278, R297) -/

/-- The part of a host access with tag `t`. -/
def hostPart (s : State) (t : Nat) : Option (MovAcc × MovPart) :=
  (s.mov.accs.flatMap fun a => a.parts.map fun x => (a, x)).find? fun q =>
    q.2.pool.isNone && decide (q.2.st = .out) && decide (q.2.tag = t)

/-- R301: the status of a completion that failed. -/
def hostStatus (st : Nat) : Nat := if st = 1 then 0x22 else if st = 4 then 0x23 else 0x24

/-- R25: the mover's request has been answered. -/
def npDone (s : State) (tag : BitVec 16) : State :=
  { s with port := { s.port with np := s.port.np.filter fun n => !(decide (n.fromPort = 96) && decide (n.tag = tag)) } }

/-- R278: a unit on IOC at the mover. -/
def hostUnit (s : State) (h : Held) : State :=
  match hostPart s h.u.tag.toNat with
  | none => s
  | some (a, x) =>
    if h.u.type = 0x3F then npDone (setPart s a.id x.off fun y => { y with st := .bad 0x24 }) h.u.tag
    else if h.u.follow ≠ 0 then s
    else
      match h.tlp with
      | none => s
      | some t =>
        if t.status ≠ 0 then npDone (setPart s a.id x.off fun y => { y with st := .bad (hostStatus t.status) }) h.u.tag
        else
          let d := x.data ++ t.data
          let pz := x.poison || t.poison
          let bad := if t.poison then x.bad ++ [(x.data.length, t.data.length)] else x.bad
          if x.len ≤ d.length then
            npDone (setPart s a.id x.off fun y =>
              { y with data := d, poison := pz, bad := bad, st := if pz then .bad 0x21 else .done }) h.u.tag
          else setPart s a.id x.off fun y => { y with data := d, poison := pz, bad := bad }

/-- R297: host writes that have left are finished. -/
def writesGone (s : State) : State :=
  let g := s.mov.gone
  { s with mov := { s.mov with gone := [], accs := s.mov.accs.map fun a =>
      if a.write then { a with parts := a.parts.map fun x =>
        if x.pool.isNone ∧ x.st = .out ∧ g.contains x.tag then { x with st := .done } else x } else a } }

/-- R278, R301: reads of host memory that have waited for their completion timeout (an open value, log entry 39) fail. -/
def hostTimeouts (s : State) : State :=
  let late := fun (x : MovPart) =>
    x.pool.isNone && decide (x.st = .out) && decide (Config.completionTimeout ≤ s.time.clock - x.issued)
  let tags := (s.mov.accs.filter fun a => !a.write).flatMap fun a => (a.parts.filter late).map fun x => x.tag
  let s1 := tags.foldl (fun t g => npDone t (BitVec.ofNat 16 g)) s
  { s1 with mov := { s1.mov with accs := s1.mov.accs.map fun a =>
      if a.write then a else { a with parts := a.parts.map fun x => if late x then { x with st := .bad 0x24 } else x } } }

/-- What has come for host accesses is taken, and what comes no more is given up. -/
def absorbHost (s : State) : State :=
  let l := ejectBuf s moverStop 1 .ioc
  hostTimeouts (writesGone (l.foldl hostUnit (setEjectBuf s moverStop 1 .ioc [])))

/-! ### Answers from pool memory (R168, R278) -/

/-- The part of a pool access with tag `t`. -/
def poolPart (s : State) (t : Nat) : Option (MovAcc × MovPart) :=
  (s.mov.accs.flatMap fun a => a.parts.map fun x => (a, x)).find? fun q => q.2.pool.isSome && q.2.live && decide (q.2.tag = t)

/-- R168: the mover cache agent's LFSR. -/
def cacheLfsr (s : State) : BitVec 32 := s.mov.lfsr.getD (lfsrSeed (BitVec.ofNat 16 (s.prox.seed * 64)) 64)

/-- R168: the wait after the `n`-th Nack, and the LFSR stepped. -/
def cacheBackoff (s : State) (n : Nat) : State × Nat :=
  let w := backoffWait n (cacheLfsr s)
  ({ s with mov := { s.mov with lfsr := some w.2 } }, s.time.clock + w.1)

/-- R168: a request that became SENIOR is counted. -/
def countSenior (s : State) (n : Nat) : State := if n = 8 then bumpC s 0xC023 2 else s

/-- R9: `len` bytes of a line from byte `i`. -/
def lineBytes (d : LineData) (i len : Nat) : List Byte := ((leBytes 64 d.toNat).drop i).take len

/-- The 64 bytes of a line with `bs` at byte `i`. -/
def lineWith (i : Nat) (bs : List Byte) : LineData := BitVec.ofNat 512 (leValue bs * 2 ^ (8 * i))

/-- R278: an answer `u` for a part of a pool access. -/
def partAnswer (s : State) (a : MovAcc) (x : MovPart) (u : FUnit) : State :=
  let mark := fun (s : State) (st : PartSt) => setPart s a.id x.off fun y => { y with st := st }
  match u.vn with
  | .dat =>
    if a.write then s
    else setPart s a.id x.off fun y =>
      { y with data := lineBytes u.payload (x.addr % 64) x.len, poison := u.poison, st := if u.poison then .bad 0x21 else .done }
  | _ =>
    match u.type.toNat, x.pool with
    | 0x3F, _ => mark s (.bad 0x24)
    | 0x10, _ =>
      let r := cacheBackoff (countSenior s (x.nacks + 1)) (x.nacks + 1)
      setPart r.1 a.id x.off fun y =>
        { y with st := .back, nacks := x.nacks + 1, senior := decide (8 ≤ x.nacks + 1), due := r.2 }
    | 0x0A, some (h, l) =>
      if a.write then
        send (mark s .go) { blankUnit .wb 5 cachePlace (homePlace s h l) (BitVec.ofNat 16 x.tag) l with
          payload := lineWith (x.addr % 64) x.data, poison := x.poison }
      else s
    | 0x08, _ => mark s (if u.poison || !a.write then .bad 0x21 else .done)
    | _, _ => s

/-- R168: the wait of part `off` of access `a` ends. Guard checks a reissue again (R233). -/
def partAgain (s : State) (a : MovAcc) (x : MovPart) : State :=
  match x.pool with
  | none => s
  | some (h, l) =>
    let guarded := match a.use with | .tlp _ => false | _ => true
    if guarded && !permitsAddr s 16 a.vcs (poolAddr h l) (!a.write) a.write then
      setPart (refusal s a.vcs (poolAddr h l) a.write) a.id x.off fun y => { y with st := .bad 0x20 }
    else if sliceGone s h l then setPart s a.id x.off fun y => { y with st := .bad 0x21, poison := true }
    else sendPart (setPart s a.id x.off fun y => { y with st := .out }) a.write x h l

/-! ### What an access came to -/

/-- The access has finished. -/
def MovAcc.over (a : MovAcc) : Bool := a.parts.all MovPart.over

/-- The bytes that a read has brought, in order; what a failed part did not bring reads as zero. -/
def MovAcc.bytes (a : MovAcc) : List Byte :=
  a.parts.flatMap fun x => x.data.take x.len ++ List.replicate (x.len - x.data.length) 0

/-- R302: where the failure of a part begins: at poison that came, else behind the bytes that a read of the host brought before it
failed. -/
def MovPart.failsAt (write : Bool) (x : MovPart) : Nat :=
  match x.bad.head? with
  | some q => q.1
  | none => if !write && x.pool.isNone then x.data.length else 0

/-- R302: the first 64-byte part that failed: its offset, at the start of its line, and its status. -/
def MovAcc.fail (a : MovAcc) : Option (Nat × Nat) :=
  (a.parts.find? fun x => match x.st with | .bad _ => true | _ => false).map fun x =>
    let k := x.failsAt a.write
    let at_ := x.off + k
    (at_ - min at_ ((x.addr + k) % 64), match x.st with | .bad st => st | _ => 0)

/-- The access was refused or failed in some part. -/
def MovAcc.failed (a : MovAcc) : Bool := a.fail.isSome

/-- R302: offsets of the parts that returned poison, with their lengths. -/
def MovAcc.poisoned (a : MovAcc) : List (Nat × Nat) := 
  (a.parts.filter fun x => x.poison).flatMap fun x => if x.bad.isEmpty then [(x.off, x.len)] else x.bad.map fun q => (x.off + q.1, q.2)

/-- The access touched host memory. -/
def MovAcc.host (a : MovAcc) : Bool := a.parts.any fun x => x.pool.isNone

/-- R326, R474, R476: a finished access of queue work is counted, and its writes are logged. -/
def accessCounted (s : State) (a : MovAcc) : State :=
  match a.fn with
  | none => s
  | some f =>
    a.parts.foldl (fun t x =>
      if x.st = .done then
        let n := x.len
        let e := if a.write then (if x.pool.isSome then 9 else 10) else (if x.pool.isSome then 7 else 8)
        let t1 := bumpFn t f e n
        if a.write then
          ((List.range ((x.addr + n + 4095) / 4096 - x.addr / 4096)).map fun i => (x.addr / 4096 + i) * 4096).foldl
            (fun r pg => logFunc r f (max pg x.addr)) (bumpCBy t1 0xC028 4 n)
        else t1
      else t) s

end Sys2Proof.Machine
end

