-- ==== Sys2Proof/Machine/MovCache.lean ====
section
/-!
DEFINITION. Machine/MovCache.lean: the mover cache and the operations that it performs (R164, R171, R293, R306, R308).
-/

namespace Sys2Proof.Machine

/-! ### Lines (R306) -/

/-- R306: the set of a line: 8,192 sets of 16 ways. -/
def mcSet (l : BitVec 42) : Nat := l.toNat % 8192

/-- The lines of a set. -/
def mcLines (s : State) (k : Nat) : List CacheLine := tabGet [] k s.mov.lines
def setMcLines (s : State) (k : Nat) (ls : List CacheLine) : State :=
  { s with mov := { s.mov with lines := tabSet [] k ls s.mov.lines } }

/-- The line of the mover cache, if it holds it. -/
def mcFind (s : State) (h : Nat) (l : BitVec 42) : Option CacheLine :=
  (mcLines s (mcSet l)).find? fun x => decide (x.home = h) && decide (x.line = l)

/-- Put a line in place of its earlier content. -/
def mcPut (s : State) (x : CacheLine) : State :=
  let k := mcSet x.line
  setMcLines s k (x :: (mcLines s k).filter fun y => !(decide (y.home = x.home) && decide (y.line = x.line)))

/-- The line leaves the cache. -/
def mcDrop (s : State) (h : Nat) (l : BitVec 42) : State :=
  let k := mcSet l
  setMcLines s k ((mcLines s k).filter fun y => !(decide (y.home = h) && decide (y.line = l)))

/-- An eviction of the line is outstanding. -/
def evictOf (s : State) (h : Nat) (l : BitVec 42) : Option CacheEvict :=
  s.mov.evs.find? fun e => decide (e.home = h) && decide (e.line = l)

/-- A RdOwn of the line is outstanding. -/
def fillOf (s : State) (h : Nat) (l : BitVec 42) : Option CacheFill :=
  s.mov.fills.find? fun e => decide (e.home = h) && decide (e.line = l)

/-- R141: a free tag of the mover cache's 512. -/
def cacheTag (s : State) : Option Nat :=
  ((List.range 512).map (· + 64 * 512)).find? fun t =>
    !(s.mov.fills.any fun e => decide (e.tag = t)) && !(s.mov.evs.any fun e => decide (e.tag = t)) &&
      (tabFind? t s.mov.quar).isNone

/-! ### Evictions (R162, R306) -/

/-- Change an eviction. -/
def setEvict (s : State) (e : CacheEvict) : State :=
  { s with mov := { s.mov with evs := s.mov.evs.map fun y => if y.tag = e.tag then e else y } }

/-- Send the message of an eviction. -/
def sendEvict (s : State) (e : CacheEvict) : State :=
  match e.st with
  | .wb => send s { blankUnit .wb 0 cachePlace (homePlace s e.home e.line) (BitVec.ofNat 16 e.tag) e.line with
      payload := e.data, poison := e.poison }
  | .clean => cacheRequest s 6 e.tag e.home e.line e.nacks e.senior e.first 0
  | .wrOwn => cacheRequest s 4 e.tag e.home e.line e.nacks e.senior e.first 0
  | .go => send s { blankUnit .wb 5 cachePlace (homePlace s e.home e.line) (BitVec.ofNat 16 e.tag) e.line with
      payload := e.data, poison := e.poison }

/-- R306: line `x` is evicted: by WbDirty, or by EvictClean. -/
def evictLine (s : State) (x : CacheLine) : Option (State × Nat) :=
  (cacheTag s).map fun t =>
    let e : CacheEvict :=
      { tag := t, home := x.home, line := x.line, st := if x.dirty then .wb else .clean, data := x.data, poison := x.poison
        snooped := false, back := false, nacks := 0, senior := false, first := firstIssue s, due := 0, owner := x.owner, reissued := false }
    let s1 := mcDrop s x.home x.line
    let s2 := { s1 with mov := { s1.mov with evs := s1.mov.evs ++ [e] } }
    (sendEvict (if x.dirty then bumpC s2 0xC028 0x0B else s2) e, t)

/-- R306: the least recently used line of a full set. -/
def victim (ls : List CacheLine) : Option CacheLine :=
  if ls.length < 16 then none
  else ls.foldl (fun (b : Option CacheLine) x =>
    match b with
    | some y => if x.used < y.used then some x else b
    | none => some x) none

/-! ### Operations (R293, R308) -/

/-- R293: what an operation makes of the old value: the new value and whether it is written. -/
def atomResult (o : AtomOp) (old : Nat) : Nat × Bool :=
  match o.kind with
  | .fetchAdd => ((old + o.a.toNat) % 256 ^ o.width, true)
  | .swap => (o.a.toNat % 256 ^ o.width, true)
  | .cas => if old = o.a.toNat % 256 ^ o.width then (o.b.toNat % 256 ^ o.width, true) else (old, false)

/-- What came of an operation: the old value and whether the new one was written, or the status of a failure. -/
inductive AtomEnd where
  | value (old : Nat) (wrote : Bool)
  | failed (status : Nat)
  deriving DecidableEq, Repr

/-- R171, R293: operation `o` is applied to a line that the cache holds. A poisoned line gives no value. -/
def applyAtom (s : State) (x : CacheLine) (o : AtomOp) : State × AtomEnd :=
  let y := { x with used := s.mov.clock + 1 }
  let s1 := { s with mov := { s.mov with clock := s.mov.clock + 1 } }
  if x.poison then (mcPut s1 y, .failed 0x21)
  else
    let old := leValue (lineBytes x.data o.off o.width)
    let r := atomResult o old
    let m : LineData := BitVec.ofNat 512 ((256 ^ o.width - 1) * 256 ^ o.off)
    let d := if r.2 then (x.data &&& ~~~ m) ||| BitVec.ofNat 512 (r.1 * 256 ^ o.off) else x.data
    (bumpC (mcPut s1 { y with data := d, dirty := x.dirty || r.2, owner := if r.2 then o.owner else x.owner }) 0xC028 9, .value old r.2)

/-- R308: the operations that wait for a line are applied in order, or fail. -/
def runOps (s : State) (h : Nat) (l : BitVec 42) (fail : Option Nat) : State × List (AtomOp × AtomEnd) :=
  let mine := fun (o : AtomOp) => decide (o.home = h) && decide (o.line = l)
  let s0 := { s with mov := { s.mov with ops := s.mov.ops.filter fun o => !mine o } }
  (s.mov.ops.filter mine).foldl (fun (r : State × List (AtomOp × AtomEnd)) o =>
    match fail, mcFind r.1 h l with
    | none, some x => let q := applyAtom r.1 x o; (q.1, r.2 ++ [(o, q.2)])
    | some st, _ => (r.1, r.2 ++ [(o, .failed st)])
    | none, none => (r.1, r.2 ++ [(o, .failed 0x24)])) (s0, [])

/-- R171: the cache asks for a line, on behalf of `owner`, unless it is on its way in or out. -/
def askLine (s : State) (h : Nat) (l : BitVec 42) (owner : Option Nat) : State :=
  if (fillOf s h l).isSome || (evictOf s h l).isSome || (mcFind s h l).isSome then s
  else
    match cacheTag s with
    | none => s
    | some t =>
      let f : CacheFill :=
        { tag := t, home := h, line := l, back := false, nacks := 0, senior := false, first := firstIssue s, due := 0, owner := owner }
      cacheRequest { s with mov := { s.mov with fills := s.mov.fills ++ [f] } } 1 t h l 0 false f.first 0

/-- Operations that found no tag ask again. -/
def askLines (s : State) : State := s.mov.ops.foldl (fun t o => askLine t o.home o.line o.owner) s

/-- R308: an operation reaches the cache: it is applied at once, or waits for its line. -/
def startOp (s : State) (o : AtomOp) : State × List (AtomOp × AtomEnd) :=
  let s1 := { s with mov := { s.mov with ops := s.mov.ops ++ [o] } }
  if sliceGone s o.home o.line then runOps s1 o.home o.line (some 0x21)
  else if (mcFind s o.home o.line).isSome then runOps s1 o.home o.line none
  else (askLine s1 o.home o.line o.owner, [])

/-! ### Answers (R162, R168, R278) -/

/-- R171: the line comes in and is used; the victim of its set is evicted. -/
def fillData (s : State) (f : CacheFill) (d : LineData) (poison : Bool) : State × List (AtomOp × AtomEnd) :=
  let s1 := { s with mov := { s.mov with fills := s.mov.fills.filter fun e => decide (e.tag ≠ f.tag) } }
  let s2 :=
    match victim (mcLines s1 (mcSet f.line)) with
    | some v => ((evictLine s1 v).map Prod.fst).getD (mcDrop s1 v.home v.line)
    | none => s1
  runOps (mcPut s2 { home := f.home, line := f.line, data := d, poison := poison, dirty := false, owner := none, used := s2.mov.clock }) f.home
    f.line none

/-- An answer `u` for a RdOwn. -/
def fillAnswer (s : State) (f : CacheFill) (u : FUnit) : State × List (AtomOp × AtomEnd) :=
  let gone := { s with mov := { s.mov with fills := s.mov.fills.filter fun e => decide (e.tag ≠ f.tag) } }
  match u.vn with
  | .dat =>
    if u.type.toNat % 4 = 2 then fillData s f u.payload u.poison
    else runOps gone f.home f.line (some 0x21)
  | _ =>
    match u.type.toNat with
    | 0x10 =>
      let r := cacheBackoff (countSenior s (f.nacks + 1)) (f.nacks + 1)
      let g := { f with back := true, nacks := f.nacks + 1, senior := decide (8 ≤ f.nacks + 1), due := r.2 }
      ({ r.1 with mov := { r.1.mov with fills := r.1.mov.fills.map fun e => if e.tag = f.tag then g else e } }, [])
    | 0x3F => runOps gone f.home f.line (some 0x24)
    | 0x08 => runOps gone f.home f.line (some 0x21)
    | _ => (s, [])

/-- R298: an eviction has been answered: the FLUSHes that awaited it go on. -/
def evictDone (s : State) (e : CacheEvict) : State :=
  askLines { s with mov := { s.mov with
    evs := s.mov.evs.filter fun y => decide (y.tag ≠ e.tag)
    execs := s.mov.execs.map fun x => { x with flush := x.flush.filter fun t => decide (t ≠ e.tag) } } }

/-- R233, R234: the WrOwn of an eviction is issued, unless Guard refuses it, which discards its data. -/
def evictWrOwn (s : State) (e : CacheEvict) : State :=
  let a := poolAddr e.home e.line
  match e.owner with
  | some v => if permitsAddr s 16 v a false true then sendEvict (setEvict s e) e else evictDone (refusal s v a true) e
  | none => sendEvict (setEvict s e) e

/-- R162, R263: an answer `u` for an eviction. -/
def evictAnswer (s : State) (e : CacheEvict) (u : FUnit) : State :=
  match u.vn with
  | .dat => s
  | _ =>
    match u.type.toNat, e.st with
    | 0x0C, .wb => if e.reissued then evictDone s e else evictWrOwn s { e with st := .wrOwn }
    | 0x0A, .wrOwn => let f := { e with st := .go }; sendEvict (setEvict s f) f
    | 0x10, _ =>
      let r := cacheBackoff (countSenior s (e.nacks + 1)) (e.nacks + 1)
      setEvict r.1 { e with back := true, nacks := e.nacks + 1, senior := decide (8 ≤ e.nacks + 1), due := r.2 }
    | 0x08, _ => evictDone s e
    | 0x0B, _ => evictDone s e
    | 0x0C, _ => evictDone s e
    | 0x3F, _ => evictDone s e
    | _, _ => s

/-- R233, R234: Guard refuses RdOwn `f` for VCS `v`: the operations of that VCS fail, and the others ask for the line anew. -/
def fillRefused (s : State) (f : CacheFill) (v : Nat) : State × List (AtomOp × AtomEnd) :=
  let mine := fun (o : AtomOp) => decide (o.home = f.home) && decide (o.line = f.line) && decide (o.owner = some v)
  let s1 := refusal s v (poolAddr f.home f.line) false
  (askLines { s1 with mov := { s1.mov with
    fills := s1.mov.fills.filter fun e => decide (e.tag ≠ f.tag), ops := s1.mov.ops.filter fun o => !mine o } },
   (s.mov.ops.filter mine).map fun o => (o, .failed 0x20))

/-- R168, R233: the wait of RdOwn `f` ends, and Guard checks it again. -/
def fillAgain (s : State) (f : CacheFill) : State × List (AtomOp × AtomEnd) :=
  let go := cacheRequest
    { s with mov := { s.mov with fills := s.mov.fills.map fun e => if e.tag = f.tag then { f with back := false } else e } }
    1 f.tag f.home f.line f.nacks f.senior f.first 0
  match f.owner with
  | some v => if permitsAddr s 16 v (poolAddr f.home f.line) true false then (go, []) else fillRefused s f v
  | none => (go, [])

/-- R168: the wait of the entry with tag `t` ends. -/
def cacheAgain (s : State) (t : Nat) : State × List (AtomOp × AtomEnd) :=
  match s.mov.fills.find? (fun e => decide (e.tag = t)), s.mov.evs.find? fun e => decide (e.tag = t) with
  | some f, _ => if f.back then fillAgain s f else (s, [])
  | none, some e =>
    if e.back then
      let g := { e with back := false }
      (if e.st = .wrOwn then evictWrOwn s g else sendEvict (setEvict s g) g, [])
    else (s, [])
  | none, none => (s, [])

/-! ### Snoops (R164, R171) -/

/-- R164: the replies to snoop `u` of switch `h` with body `b`: dirty data is forwarded or returned by a WB unit; clean data is
forwarded with RspFwdI or RspFwdS. -/
def cacheReply (s : State) (u : FUnit) (b : SnpFields) (d : LineData) (poison dirty keptS : Bool) : State :=
  let inv := decide (u.type = 1)
  let rsp := fun (ty : Nat) => { blankUnit .rsp ty cachePlace u.src u.tag u.line with payload := packRsp (cacheHost s) 1 0 false }
  let wb := fun (ty : Nat) => { blankUnit .wb ty cachePlace u.src u.tag u.line with payload := d, poison := poison }
  let fwd := { blankUnit .dat (4 + b.grant) cachePlace (resolved s b.fwdTo b.fwdTag) b.fwdTag u.line with
    payload := d, poison := poison }
  if inv && !b.fwd then send s (if dirty then wb 4 else rsp 0)
  else send (send s fwd) (if dirty then wb (if keptS && !inv then 3 else 2) else rsp (if keptS && !inv then 3 else 2))

/-- R171: the mover cache takes a snoop. A line that is snooped leaves the cache; the data of an outstanding write-back answers
as that of a proxy's eviction entry. -/
def cacheSnoop (s : State) (u : FUnit) : State :=
  let h := (switchOf u.src).getD (ownSwitch s)
  let b := unpackSnp u.payload
  match mcFind s h u.line, evictOf s h u.line with
  | some x, _ => cacheReply (mcDrop s h u.line) u b x.data x.poison x.dirty false
  | none, some e =>
    if e.st ≠ .wb then
      send s { blankUnit .rsp 0 cachePlace u.src u.tag u.line with payload := packRsp (cacheHost s) 1 0 false }
    else cacheReply (setEvict s { e with snooped := true }) u b e.data e.poison true false
  | none, none => send s { blankUnit .rsp 0 cachePlace u.src u.tag u.line with payload := packRsp (cacheHost s) 1 0 false }

/-- R161, R171: a snoop waits while a request of the cache's own for its line has been issued and not answered. -/
def snoopWaits (s : State) (u : FUnit) : Bool :=
  let h := (switchOf u.src).getD (ownSwitch s)
  match fillOf s h u.line, evictOf s h u.line with
  | some f, _ => !f.back
  | none, some e => !e.back && (decide (e.st = .wrOwn) || decide (e.st = .clean))
  | none, none => false

/-- MOVER_CACHE_SNOOP (R171): the first snoop of the mover cache's queue that nothing holds back. -/
def execMoverCacheSnoop (s : State) : Host.Outcome State Fault Refusal :=
  let l := ejectBuf s moverStop 2 .snp
  match l.find? fun h => !snoopWaits s h.u with
  | none => .next s
  | some h => .next (cacheSnoop (setEjectBuf s moverStop 2 .snp (l.filter fun g => decide (g.id ≠ h.id))) h.u)

end Sys2Proof.Machine
end

