-- ==== Sys2Proof/Machine/Slice.lean ====
section
/-!
DEFINITION. Machine/Slice.lean: home slices and who holds a line: holder sets (R180, R182 to R185), requesters and how a home
addresses them (R140 to R142), and pseudo-LRU trees (R188, R213).
-/

namespace Sys2Proof.Machine

/-! ### Slices -/

/-- Logical slice `l`. -/
def slice (s : State) (l : Nat) : HomeSlice := tabGet sliceReset l s.home.slices

/-- Change logical slice `l`. -/
def setSlice (s : State) (l : Nat) (x : HomeSlice) : State :=
  { s with home := { s.home with slices := tabSet sliceReset l x s.home.slices } }

/-- Tracker `t` of slice `l`. -/
def tracker (s : State) (l t : Nat) : Option Tracker := tabFind? t (slice s l).trk

/-- Change tracker `t` of slice `l`. -/
def setTracker (s : State) (l t : Nat) (k : Tracker) : State :=
  let x := slice s l
  setSlice s l { x with trk := tabPut t k x.trk }

/-- Data-buffer entry `b` of slice `l`. -/
def bufEntry (s : State) (l b : Nat) : Option BufEntry := tabFind? b (slice s l).buf

/-- Change data-buffer entry `b`. -/
def setBuf (s : State) (l b : Nat) (e : BufEntry) : State :=
  let x := slice s l
  setSlice s l { x with buf := tabPut b e x.buf }

/-- R141: the tag of tracker or buffer entry `t` of slice `l`. -/
def homeTag (l t : Nat) : BitVec 16 := BitVec.ofNat 16 (l * 2048 + t)

/-- The active tracker of a line. -/
def trackerFor (s : State) (l : Nat) (line : BitVec 42) : Option (Nat × Tracker) :=
  (slice s l).trk.find? fun p => decide (p.2.line = line)

/-- R154: the newest data-buffer entry of a line. -/
def newestBuf (s : State) (l : Nat) (line : BitVec 42) : Option (Nat × BufEntry) :=
  ((slice s l).buf.filter fun p => decide (p.2.line = line)).foldl (fun best p =>
    match best with
    | none => some p
    | some b => if b.2.no < p.2.no then some p else best) none

/-! ### Granules and pages (R209) -/

/-- R209: the line lies in the pool span; its granule and page. -/
def inSpan (line : BitVec 42) : Bool := decide (line.toNat < 2 ^ 38)
def granOf (line : BitVec 42) : Nat := line.toNat / 2 ^ 15 % 2 ^ 23
def pageOf (line : BitVec 42) : Nat := line.toNat / 64 % 512

/-! ### Requesters (R140, R142) -/

/-- The switch of a holder. -/
def Holder.switch (h : Holder) : Nat := h.host.toNat / 64

/-- The VCS of a holder's host. -/
def Holder.vcs (h : Holder) : Nat := h.host.toNat % 64

/-- R142: the switch from which a unit came through the remote agent of this switch. The model numbers it beside the
injection queue's VCSs (0..63: a host's undecoded request, 64 + v: a mover access of VCS v). -/
def originOf (h : Held) : Option Nat :=
  match h.hpa with
  | some (k, _) => if 128 ≤ k then some (k - 128) else none
  | none => none

/-- R140, R141: the requester that a writeback or reply names by its Source, or by its tag when it came from another
switch. -/
def unitHolder (s : State) (h : Held) : Option Holder :=
  match originOf h with
  | some w =>
    let a := h.u.tag.toNat / 512
    some (if a = 64 then { host := BitVec.ofNat 16 (w * 64), mover := true }
          else { host := BitVec.ofNat 16 (w * 64 + a), mover := false })
  | none =>
    if h.u.src = cachePlace then some { host := hostId s 0, mover := true }
    else ((portOf h.u.src).bind (hostOfPort s)).map fun v => { host := hostId s v, mover := false }

/-- R142: where the home addresses a response to a requester. -/
def respDst (s : State) (host : BitVec 16) (src : BitVec 12) : BitVec 12 :=
  if host.toNat / 64 = ownSwitch s then src else switchCode (host.toNat / 64)

/-! ### Holder sets (R180, R182 to R185) -/

/-- R183: this switch records a holder on another one, which is not being removed (R195). -/
def recordSwitch (s : State) (w : Nat) : State :=
  if w = ownSwitch s ∨ (s.dir.removals.any fun r => r.isSwitch && decide (r.id = w)) = true then s
  else { s with dir := { s.dir with remote := setInsert w s.dir.remote } }

/-- R184: the switches of the remote holder set inside a mask of groups. -/
def groupSwitches (s : State) (g : BitVec 32) : List Nat := s.dir.remote.filter fun w => g.getLsbD (w / 32)

/-- The groups of all switches in a list. -/
def groupsOf (ws : List Nat) : BitVec 32 := ws.foldl (fun m w => m ||| BitVec.twoPow 32 (w / 32)) 0

/-- The bits of the local hosts among some holders. -/
def localBits (own : Nat) (l : List Holder) : BitVec 64 :=
  l.foldl (fun m h => if h.switch = own ∧ !h.mover then m ||| BitVec.twoPow 64 h.vcs else m) 0

/-- R182: the vector form of a set: `rem` where it has holders on other switches, which lie in groups `g`. -/
def HolderSet.vector (s : State) (mov rem : Bool) (g : BitVec 32) (hosts : BitVec 64) : HolderSet :=
  if !rem then .vec mov false hosts
  else if s.dir.remote.length ≤ 32 then .vec mov true hosts
  else .coarse mov g hosts

/-- R182: the set with holder `r` added; `r`'s switch is in the remote holder set already. -/
def HolderSet.add (s : State) (h : HolderSet) (r : Holder) : HolderSet :=
  let own := ownSwitch s
  let here := decide (r.switch = own)
  let more := if here then 0 else groupsOf [r.switch]
  let bits := fun (hosts : BitVec 64) => if here && !r.mover then hosts ||| BitVec.twoPow 64 r.vcs else hosts
  match h with
  | .ptr l =>
    if l.contains r then h
    else if l.length < 4 then .ptr (l ++ [r])
    else
      let all := l ++ [r]
      let mov := all.any fun x => decide (x.switch = own) && x.mover
      let far := (all.filter fun x => decide (x.switch ≠ own)).map Holder.switch
      HolderSet.vector s mov (!far.isEmpty) (groupsOf far) (localBits own all)
  | .vec mov rem hosts =>
    HolderSet.vector s (mov || (here && r.mover)) (rem || !here) ((if rem then groupsOf s.dir.remote else 0) ||| more) (bits hosts)
  | .coarse mov g hosts =>
    HolderSet.vector s (mov || (here && r.mover)) (decide (g ≠ 0) || !here) (g ||| more) (bits hosts)

/-- R185: the set without holder `r`; a remote holder stays in a vector. -/
def HolderSet.drop (s : State) (h : HolderSet) (r : Holder) : HolderSet :=
  let here := decide (r.switch = ownSwitch s)
  let bits := fun (hosts : BitVec 64) => if r.mover then hosts else hosts &&& ~~~ BitVec.twoPow 64 r.vcs
  match h with
  | .ptr l => .ptr (l.filter fun x => decide (x ≠ r))
  | .vec mov rem hosts =>
    if here then HolderSet.vector s (mov && !r.mover) rem (groupsOf s.dir.remote) (bits hosts) else h
  | .coarse mov g hosts =>
    if here then HolderSet.vector s (mov && !r.mover) (decide (g ≠ 0)) g (bits hosts) else h

/-- R185: nobody is recorded. -/
def HolderSet.none (h : HolderSet) : Bool :=
  match h with
  | .ptr l => l.isEmpty
  | .vec mov rem hosts => !mov && !rem && decide (hosts = 0)
  | .coarse mov g hosts => !mov && decide (g = 0) && decide (hosts = 0)

/-- R155, R185: `r` may be a recorded holder. -/
def HolderSet.has (s : State) (h : HolderSet) (r : Holder) : Bool :=
  let here := decide (r.switch = ownSwitch s)
  match h with
  | .ptr l => l.contains r
  | .vec mov rem hosts => if here then (if r.mover then mov else hosts.getLsbD r.vcs) else rem && s.dir.remote.contains r.switch
  | .coarse mov g hosts =>
    if here then (if r.mover then mov else hosts.getLsbD r.vcs)
    else g.getLsbD (r.switch / 32) && s.dir.remote.contains r.switch

/-- A set as a state of its line. -/
def sharedOr (h : HolderSet) : LState := if h.none then .invalid else .shared h

/-- R184: whom a SnpInv without Forward goes to: local hosts and mover cache; other switches, each with the bits of its hosts
and of its mover cache. -/
structure Targets where
  near : List Holder
  far : List (Nat × BitVec 64 × Bool)
  deriving DecidableEq, Repr

/-- R184: the bits of one other switch among pointer slots. -/
def slotBits (l : List Holder) (w : Nat) : BitVec 64 × Bool :=
  (l.filter fun h => decide (h.switch = w)).foldl (fun (m : BitVec 64 × Bool) h =>
    if h.mover then (m.1, true) else (m.1 ||| BitVec.twoPow 64 h.vcs, m.2)) (0, false)

/-- R184: local targets of a vector. -/
def nearOf (s : State) (mov : Bool) (hosts : BitVec 64) : List Holder :=
  ((List.range 64).filter fun v => hosts.getLsbD v).map (fun v => { host := hostId s v, mover := false }) ++
    (if mov then [{ host := hostId s 0, mover := true }] else [])

/-- R184: the targets of a holder set. -/
def HolderSet.targets (s : State) (h : HolderSet) : Targets :=
  let own := ownSwitch s
  let every := fun (ws : List Nat) => ws.map fun w => (w, (BitVec.allOnes 64, true))
  match h with
  | .ptr l =>
    let ws := ((l.filter fun x => decide (x.switch ≠ own)).map Holder.switch).foldl (fun a w => setInsert w a) []
    { near := l.filter fun x => decide (x.switch = own), far := ws.map fun w => (w, slotBits l w) }
  | .vec mov rem hosts => { near := nearOf s mov hosts, far := if rem then every s.dir.remote else [] }
  | .coarse mov g hosts => { near := nearOf s mov hosts, far := every (groupSwitches s g) }

/-- R155: the targets without the requester itself. -/
def Targets.without (s : State) (t : Targets) (r : Holder) : Targets :=
  if r.switch = ownSwitch s then { t with near := t.near.filter fun h => decide (h ≠ r) }
  else
    let cut := t.far.map fun q =>
      if q.1 = r.switch then
        if r.mover then (q.1, (q.2.1, false)) else (q.1, (q.2.1 &&& ~~~ BitVec.twoPow 64 r.vcs, q.2.2))
      else q
    { t with far := cut.filter fun q => decide (q.2.1 ≠ 0) || q.2.2 }

/-- Nobody is targeted. -/
def Targets.none (t : Targets) : Bool := t.near.isEmpty && t.far.isEmpty

/-! ### Pseudo-LRU trees (R188, R213) -/

/-- A tree over `2 ^ k` ways: bit `j` of node `j` is clear when its lower half is the older one. The tree with way `w` made
the youngest. -/
def plruTouch : Nat → Nat → Nat → Nat → Nat
  | 0, _, _, bits => bits
  | k + 1, node, w, bits =>
    let up := decide (2 ^ k ≤ w % 2 ^ (k + 1))
    let bits1 := if up then (if bits.testBit node then bits - 2 ^ node else bits)
                 else (if bits.testBit node then bits else bits + 2 ^ node)
    plruTouch k (2 * node + (if up then 2 else 1)) w bits1

/-- The oldest way among those that `ok` allows, from way `base` on. -/
def plruVictim : Nat → Nat → Nat → Nat → (Nat → Bool) → Option Nat
  | 0, _, base, _, ok => if ok base then some base else none
  | k + 1, node, base, bits, ok =>
    let lower := plruVictim k (2 * node + 1) base bits ok
    let upper := plruVictim k (2 * node + 2) (base + 2 ^ k) bits ok
    if bits.testBit node then (match upper with | some w => some w | none => lower)
    else (match lower with | some w => some w | none => upper)

end Sys2Proof.Machine
end

