-- ==== Sys2Proof/Machine/Remap.lean ====
section
/-!
DEFINITION. Machine/Remap.lean: the Remap stage of a slice: entries (R211, R212), the remap cache (R213), the lookup and its
outcomes (R214, R215), the gate (R218), and the sending of MemRd and MemWr (R145, R154).
-/

namespace Sys2Proof.Machine

/-! ### Entries (R211) -/

/-- R211: the fields of an entry. -/
def entState (e : BitVec 48) : Nat := (e.extractLsb' 45 3).toNat
def entGen (e : BitVec 48) : Bool := e.getLsbD 44
def entPort (e : BitVec 48) : Nat := (e.extractLsb' 28 7).toNat
def entLd (e : BitVec 48) : Nat := (e.extractLsb' 24 4).toNat
def entGran (e : BitVec 48) : Nat := (e.extractLsb' 0 24).toNat

/-- An entry of its fields. -/
def mkEntry (st : Nat) (gen : Bool) (port ld gran : Nat) : BitVec 48 :=
  BitVec.ofNat 3 st ++ bit1 gen ++ 0#9 ++ BitVec.ofNat 7 port ++ BitVec.ofNat 4 ld ++ BitVec.ofNat 24 gran

/-- The location that an entry names. -/
def entLoc (e : BitVec 48) : Loc := { port := entPort e, ld := entLd e, gran := entGran e, gen := entGen e }

/-- R220: the entry in State `st`, its other fields unchanged. -/
def withEntState (e : BitVec 48) (st : Nat) : BitVec 48 := mkEntry st (entGen e) (entPort e) (entLd e) (entGran e)

/-- R213: the entry of granule `g` in the backing. -/
def backing (s : State) (g : Nat) : BitVec 48 := tabGet 0 g s.map.backing

/-- Write the backing. -/
def setBacking (s : State) (g : Nat) (e : BitVec 48) : State :=
  { s with map := { s.map with backing := tabSet 0 g e s.map.backing } }

/-! ### Remap cache (R213) -/

/-- R213: the set of granule `g`. -/
def remapSet (g : Nat) : Nat := (g % 2048) ^^^ (g / 2048 % 2048) ^^^ (g / 4194304 % 2)

/-- The way of a set that holds granule `g`. -/
def remapWay (x : HomeSlice) (g : Nat) : Option (Nat × BitVec 48) :=
  (List.range 8).findSome? fun w =>
    match tabFind? (8 * remapSet g + w) x.rcache with
    | some r => if r.gran = g then some (w, r.entry) else none
    | none => none

/-- R213: a use of way `w` in the set of granule `g`. -/
def remapTouch (x : HomeSlice) (g w : Nat) : HomeSlice :=
  { x with rplru := tabMod 0 (remapSet g) (fun b => BitVec.ofNat 7 (plruTouch 3 0 w b.toNat)) x.rplru }

/-- R213: fill the entry of granule `g`. -/
def remapInstall (x : HomeSlice) (g : Nat) (e : BitVec 48) : HomeSlice :=
  let k := remapSet g
  let w := (plruVictim 3 0 0 (tabGet 0 k x.rplru).toNat fun _ => true).getD 0
  remapTouch { x with rcache := tabPut (8 * k + w) { gran := g, entry := e } x.rcache } g w

/-- R213, R217: a write updates a cached entry in place. -/
def remapUpdate (x : HomeSlice) (g : Nat) (e : BitVec 48) : HomeSlice :=
  match remapWay x g with
  | some (w, _) => { x with rcache := tabPut (8 * remapSet g + w) { gran := g, entry := e } x.rcache }
  | none => x

/-- R217: every slice applies the new entry of granule `g`; R215: its first synthesised answer is to be reported again. -/
def applyEntry (s : State) (g : Nat) (e : BitVec 48) : State :=
  let s1 := (List.range 32).foldl (fun t l => setSlice t l (remapUpdate (slice t l) g e)) s
  { s1 with map := { s1.map with reported := setRemove g s1.map.reported } }

/-! ### Operations (R145, R154, R214, R215) -/

/-- R155: the grant of a request's MemRd: 0 I, 1 S, 2 E. -/
def grantOf (kind : Nat) : Nat := match kind with | 0 => 1 | 1 => 2 | _ => 0

/-- R145: where the data of a tracker's MemRd goes, and with which tag. -/
def deliverTo (s : State) (l t : Nat) (k : Tracker) : BitVec 12 × BitVec 16 :=
  match k.toHome, k.req with
  | false, some r => (respDst s r.host r.src, r.tag)
  | _, _ => (slicePlace s l, homeTag l t)

/-- The grant of a tracker's MemRd. -/
def trackerGrant (k : Tracker) : Nat :=
  match k.toHome, k.req with
  | false, some r => grantOf r.kind
  | _, _ => 0

/-- The line of an operation. -/
def opLine (s : State) (l : Nat) (op : RemapOp) : Option (BitVec 42) :=
  match op with
  | .read t => (tracker s l t).map fun k => k.line
  | .write b => (bufEntry s l b).map fun e => e.line

/-- R145: send the MemRd of tracker `t` to location `p`. -/
def sendMemRd (s : State) (l t : Nat) (k : Tracker) (p : Loc) : State :=
  let d := deliverTo s l t k
  send (setTracker s l t { k with loc := some p, phase := .mem })
    { blankUnit .req 8 (slicePlace s l) (portPlace p.port) (homeTag l t) k.line with
      payload := packMem { deliver := d.1, tag := d.2, grant := trackerGrant k, port := p.port, ld := p.ld, gran := p.gran
                           wrPoison := false } }

/-- R154: the MemWr of the slice that are outstanding to a port. -/
def outstandingTo (s : State) (l port : Nat) : Nat :=
  ((slice s l).buf.filter fun q =>
    (decide (q.2.stage = .sent) || decide (q.2.stage = .pulled)) && decide (q.2.loc.map (fun p => p.port) = some port)).length

/-- R145, R154: send the MemWr of buffer entry `b` to location `p`, or let it wait for one of the port's 16. -/
def sendMemWr (s : State) (l b : Nat) (e : BufEntry) (p : Loc) : State :=
  if 16 ≤ outstandingTo s l p.port then setBuf s l b { e with loc := some p, stage := .waiting }
  else
    send (setBuf s l b { e with loc := some p, stage := .sent })
      { blankUnit .req 9 (slicePlace s l) (portPlace p.port) (homeTag l b) e.line with
        payload := packMem { deliver := 0, tag := 0, grant := 0, port := p.port, ld := p.ld, gran := p.gran
                             wrPoison := e.wrPoison } }

/-- R215: the answers to an operation that reaches no expander. -/
def remapAnswer (s : State) (l : Nat) (op : RemapOp) : State :=
  let me := slicePlace s l
  let s1 := bumpC s 0xC025 8
  let mark := fun (u : FUnit) => { u with poison := true, synth := true }
  match op with
  | .read t =>
    match tracker s l t with
    | none => s
    | some k =>
      let d := deliverTo s l t k
      let s2 := setTracker s1 l t { k with phase := .mem }
      send (send s2 (mark { blankUnit .dat (trackerGrant k) me d.1 d.2 k.line with payload := Config.poisonData }))
        (mark (homeRsp 0x18 me me (homeTag l t) k.line))
  | .write b =>
    match bufEntry s l b with
    | none => s
    | some e => send (setBuf s1 l b { e with stage := .sent }) (mark (homeRsp 0x19 me me (homeTag l b) e.line))

/-- R215: the first synthesised answer for a granule since its entry was written is reported. Beyond the span, whose granules
have no entry (R209), granules are told apart by all of address bits [47..21]; the report names bits [43..21]. -/
def unmappedReport (s : State) (l g : Nat) : State :=
  if s.map.reported.contains g then s
  else
    raiseFault { s with map := { s.map with reported := setInsert g s.map.reported } } 436 0 (l * 2 ^ 24 + g % 2 ^ 23)

/-- R214, R103: the location is up and its LD is not lost. -/
def locUp (s : State) (p : Loc) : Bool :=
  portUp s p.port && !(tabGet 0 p.port s.port.lost).getLsbD p.ld

/-- Send an operation to a location, or answer it where the location is down. -/
def remapSend (s : State) (l : Nat) (op : RemapOp) (p : Loc) : State :=
  if locUp s p then
    match op with
    | .read t => match tracker s l t with | some k => sendMemRd s l t k p | none => s
    | .write b => match bufEntry s l b with | some e => sendMemWr s l b e p | none => s
  else remapAnswer s l op

/-- R222: the move of granule `g`. -/
def moveOf (s : State) (g : Nat) : Option (Nat × Move) := s.map.moves.find? fun p => decide (p.2.gran = g)

/-- R214, R223: hold an operation at the page being copied. -/
def remapHold (s : State) (l g page : Nat) (op : RemapOp) : State :=
  let x := slice s l
  let s1 := bumpC (setSlice s l { x with paged := x.paged ++ [(g, page, op)] }) 0xC025 7
  match op with
  | .read t =>
    match tracker s1 l t with
    | some k => bumpC (setTracker s1 l t { k with phase := .moveHold }) 0xC023 9
    | none => s1
  | .write b =>
    match bufEntry s1 l b with
    | some e => setBuf s1 l b { e with stage := .held }
    | none => s1

/-- R214: the lookup of an operation with entry `e` of its granule. -/
def remapWith (s : State) (l g page : Nat) (op : RemapOp) (e : BitVec 48) : State :=
  match entState e with
  | 1 => remapSend s l op (entLoc e)
  | 3 => remapSend s l op (entLoc e)
  | 2 =>
    match moveOf s g with
    | none => remapSend s l op (entLoc e)
    | some (_, m) =>
      if page < m.front then remapSend s l op { m.dest with gen := entGen e }
      else if page = m.front ∧ m.copying then remapHold s l g page op
      else remapSend s l op (entLoc e)
  | _ => unmappedReport (remapAnswer s l op) l g

/-- R214: an operation past the gate is looked up; a miss waits for its fill. -/
def remapLookup (s : State) (l : Nat) (op : RemapOp) : State :=
  match opLine s l op with
  | none => s
  | some line =>
    if inSpan line then
      let g := granOf line
      let x := slice s l
      match remapWay x g with
      | some (w, e) => remapWith (bumpC (setSlice s l (remapTouch x g w)) 0xC025 1) l g (pageOf line) op e
      | none => bumpC (setSlice s l { x with fills := x.fills ++ [(g, op)] }) 0xC025 2
    else unmappedReport (remapAnswer s l op) l (line.toNat / 2 ^ 15)

/-- R218: a memory operation reaches Remap; the closed gate holds it. -/
def remapOp (s : State) (l : Nat) (op : RemapOp) : State :=
  if odGet s 0x5012 2 = 1 then remapLookup s l op
  else
    let x := slice s l
    setSlice s l { x with gated := x.gated ++ [op] }

/-- R211, R213: the backing read of granule `g` returns at slice `l`; the operations that wait for it go on in order. -/
def remapFill (s : State) (l g : Nat) (bad : Bool) : State :=
  let x := slice s l
  let ops := x.fills.filter fun q => decide (q.1 = g)
  if ops.isEmpty then s
  else
    let e := backing s g
    let q := lpddrChecked s (0x500000000 + 8 * g)
    let lost := bad || q.2
    let s1 := if bad && !q.2 then raiseFault q.1 448 0 (0x500000000 + 8 * g) else q.1
    let s2 := if !lost && decide (5 ≤ entState e) then raiseFault s1 435 0 g else s1
    let e1 := if lost || decide (5 ≤ entState e) then withEntState e 4 else e
    let s3 := setSlice s2 l (remapInstall { x with fills := x.fills.filter fun q => decide (q.1 ≠ g) } g e1)
    ops.foldl (fun t q =>
      match opLine t l q.2 with
      | some line => remapWith t l g (pageOf line) q.2 e1
      | none => t) s3

/-- REMAP_CACHE_FILL (R213, R420): the backing read of granule `g` for slice `l` returns; `bad` with an uncorrectable
error. -/
def execRemapCacheFill (l : Fin 32) (g : Fin 8388608) (bad : Bool) (s : State) : Host.Outcome State Fault Refusal :=
  .next (remapFill s l.val g.val bad)

/-- R218: the gate opens, and held operations resolve in arrival order. -/
def openGate (s : State) : State :=
  if odGet s 0x5012 2 = 1 then s
  else
    (List.range 32).foldl (fun t l =>
      let x := slice t l
      x.gated.foldl (fun r op => remapLookup r l op) (setSlice t l { x with gated := [] })) (odSet s 0x5012 2 1)

/-- OPEN_REMAP_GATE (R218): COMMAND on OD 5012.01. -/
def execOpenRemapGate (s : State) : Host.Outcome State Fault Refusal := answered (openGate s, .ok)

/-- R154: a place for one more MemWr to a port: the first entry that waits for one is sent. -/
def nextMemWr (s : State) (l port : Nat) : State :=
  match (slice s l).buf.find? fun q =>
      decide (q.2.stage = .waiting) && decide (q.2.loc.map (fun p => p.port) = some port) with
  | some (b, e) => match e.loc with | some p => remapSend s l (.write b) p | none => s
  | none => s

/-- R154: a free place of the slice's data buffer. -/
def bufFree (x : HomeSlice) : Option Nat := (List.range 256).find? fun b => (tabFind? b x.buf).isNone

/-- R154: dirty data enters a buffer entry and its MemWr goes to Remap. What a full buffer has to take besides WB units (a poison
write of R156, a merge of R155) waits for a place. -/
def bufAdd (s : State) (l : Nat) (line : BitVec 42) (data : LineData) (poison wrPoison : Bool) : State :=
  let x := slice s l
  let no := x.buf.foldl (fun m q => max m (q.2.no + 1)) 0
  let e : BufEntry := { line := line, data := data, poison := poison, wrPoison := wrPoison || poison, stage := .waiting
                        loc := none, no := no }
  match bufFree x with
  | some b => remapOp (setSlice s l { x with buf := tabPut b e x.buf }) l (.write b)
  | none => setSlice s l { x with buf := tabPut (x.buf.foldl (fun m q => max m (q.1 + 1)) 2048) e x.buf }

/-- R154: the entry that has waited longest takes the place `b` that has become free, and its MemWr goes to Remap. -/
def bufNext (s : State) (l b : Nat) : State :=
  let x := slice s l
  match x.buf.find? fun q => decide (2048 ≤ q.1) with
  | none => s
  | some (k, e) =>
    let trk := x.trk.map fun p => if p.2.served = some k then (p.1, { p.2 with served := some b }) else p
    remapOp (setSlice s l { x with buf := tabPut b e (tabDel k x.buf), trk := trk }) l (.write b)

end Sys2Proof.Machine
end

