-- ==== Sys2Proof/Machine/Directory.lean ====
section
/-!
DEFINITION. Machine/Directory.lean: the directory cache and the snoop filter: the state of a line, listed removals, and how an
entry is pinned, evicted and inserted (R175 to R191, R195).
-/

namespace Sys2Proof.Machine

/-! ### Removals (R194, R195) -/

/-- R195: an owner, or a pointer slot, that the removals name. -/
def removed (s : State) (h : Holder) : Bool :=
  s.dir.removals.any fun r =>
    if r.isSwitch then decide (h.switch = r.id) else !h.mover && decide (h.host.toNat = r.id)

/-- R195: the vector bits that the removals clear. -/
def removedBits (s : State) : BitVec 64 :=
  (s.dir.removals.filter fun r => !r.isSwitch && decide (r.id / 64 = ownSwitch s)).foldl
    (fun m r => m ||| BitVec.twoPow 64 (r.id % 64)) 0

/-- R195: a holder set after every listed removal. -/
def cleanHolders (s : State) (h : HolderSet) : HolderSet :=
  match h with
  | .ptr l => .ptr (l.filter fun x => !removed s x)
  | .vec mov rem hosts => .vec mov rem (hosts &&& ~~~ removedBits s)
  | .coarse mov g hosts => .coarse mov g (hosts &&& ~~~ removedBits s)

/-- R195: a line state after every listed removal; second, that its owner was removed. -/
def cleanState (s : State) (st : LState) : LState × Bool :=
  match st with
  | .owned o => if removed s o then (.poisoned, true) else (st, false)
  | .shared h => (sharedOr (cleanHolders s h), false)
  | _ => (st, false)

/-! ### Directory cache (R175, R178, R188) -/

/-- The key of way `w` of the directory-cache set of a line. -/
def cacheKey (s : State) (l : Nat) (line : BitVec 42) (w : Nat) : Nat := (l * 8192 + cacheSetOf s line) * 16 + w

/-- The way that holds a line, with its entry. -/
def cacheFind (s : State) (l : Nat) (line : BitVec 42) : Option (Nat × DirEntry) :=
  (List.range 16).findSome? fun w =>
    match tabFind? (cacheKey s l line w) s.dir.cache with
    | some e => if e.line = line then some (w, e) else none
    | none => none

/-- Change a way of the line's set, or free it. -/
def cacheSet (s : State) (l : Nat) (line : BitVec 42) (w : Nat) (e : Option DirEntry) : State :=
  let k := cacheKey s l line w
  { s with dir := { s.dir with cache := match e with | some x => tabPut k x s.dir.cache | none => tabDel k s.dir.cache } }

/-- R188: a use of way `w`. -/
def cacheTouch (s : State) (l : Nat) (line : BitVec 42) (w : Nat) : State :=
  { s with dir := { s.dir with
    plru := tabMod 0 (l * 8192 + cacheSetOf s line) (fun b => BitVec.ofNat 15 (plruTouch 4 0 w b.toNat)) s.dir.plru } }

/-- OD 4012: way `w` of slice `l` is retired. -/
def wayRetired (s : State) (l w : Nat) : Bool := (odGet s 0x4012 (l + 1)).testBit w

/-- R181: the entry of a free way that has just been pinned for a line: it has no copy, so it is dirty. -/
def freshEntry (s : State) (line : BitVec 42) : DirEntry :=
  { line := line, part := partitionOf s line, sfWay := none, dirty := true, pinned := true, st := .invalid }

/-! ### Snoop filter (R176, R179, R190) -/

/-- The snoop-filter set of a line: its key and its ways. -/
def sfKey (s : State) (l : Nat) (line : BitVec 42) : Nat := l * 4194304 + sfSetOf s line

/-- R180: the reset contents of a set: every way free, each with its number as Order. -/
def sfFree : List SfWay := (List.range 8).map fun w => { tag := 0, st := .invalid, order := w }

/-- Set `k`. -/
def sfSet (s : State) (k : Nat) : List SfWay := tabGet sfFree k s.dir.sf

/-- Change set `k`. -/
def setSf (s : State) (k : Nat) (ws : List SfWay) : State :=
  { s with dir := { s.dir with sf := tabSet sfFree k ws s.dir.sf } }

/-- The valid way of the line's set that holds it. -/
def sfFind (s : State) (l : Nat) (line : BitVec 42) : Option (Nat × SfWay) :=
  let ws := sfSet s (sfKey s l line)
  (List.range 8).findSome? fun i =>
    match ws[i]? with
    | some w => if w.st ≠ .invalid ∧ w.tag = tagOf s line then some (i, w) else none
    | none => none

/-- R189: write way `i` of the line's set, Order unchanged. -/
def sfWrite (s : State) (l : Nat) (line : BitVec 42) (i : Nat) (st : LState) : State :=
  let k := sfKey s l line
  setSf s k ((List.range 8).filterMap fun j =>
    (sfSet s k)[j]?.map fun w => if j = i then { w with tag := tagOf s line, st := st } else w)

/-- R178: the line of way `i` of set `k` (of slice `k / 4194304`). -/
def sfLine (s : State) (k : Nat) (w : SfWay) : BitVec 42 :=
  let l := k / 4194304
  let set := k % 4194304
  let p := ((List.range s.dir.parts.length).find? fun i =>
    match s.dir.parts[i]? with
    | some q => q.enable && decide (q.setBase ≤ set) && decide (set < q.setBase + 2 ^ q.k)
    | none => false).getD 0
  lineOfEntry s l p (set - (partition s p).setBase) w.tag

/-- R190: the way that an insertion into set `k` takes: the free way, else the valid way of a line that is not in the cache,
with the highest Order. -/
def sfChoose (s : State) (k : Nat) : Option (Nat × SfWay) :=
  let ws := (List.range 8).filterMap fun i => (sfSet s k)[i]?.map fun w => (i, w)
  let best := fun (l : List (Nat × SfWay)) => l.foldl (fun (b : Option (Nat × SfWay)) q =>
    match b with
    | none => some q
    | some c => if c.2.order < q.2.order then some q else b) none
  match best (ws.filter fun q => decide (q.2.st = .invalid)) with
  | some q => some q
  | none => best (ws.filter fun q => (cacheFind s (k / 4194304) (sfLine s k q.2)).isNone)

/-- R190: set `k` with a new entry in way `i` at Order 0, younger ones moved up. -/
def sfPut (s : State) (k i : Nat) (tag : Nat) (st : LState) : State :=
  let ws := sfSet s k
  let o := (ws[i]?.map fun w => w.order).getD 0
  setSf s k ((List.range 8).filterMap fun j =>
    ws[j]?.map fun (w : SfWay) =>
      if j = i then { tag := tag, st := st, order := 0 }
      else if w.order < o then { w with order := w.order + 1 } else w)

/-! ### The state of a line (R177, R192) -/

/-- The entry of a line that has been evicted and waits to be inserted. -/
def insertingFor (s : State) (l : Nat) (line : BitVec 42) : Option DirEntry :=
  (s.dir.inserting.find? fun q => decide (q.1 = l) && decide (q.2.line = line)).map Prod.snd

/-- R177: the state of a line, from the cache, else from an insertion under way, else from the snoop filter. -/
def rawState (s : State) (l : Nat) (line : BitVec 42) : LState :=
  match cacheFind s l line with
  | some (_, e) => e.st
  | none =>
    match insertingFor s l line with
    | some e => e.st
    | none =>
      match sfFind s l line with
      | some (_, w) => w.st
      | none => .invalid

/-- Record the state of a line where its entry is; with none, only POISONED needs one, and takes a free way. -/
def putState (s : State) (l : Nat) (line : BitVec 42) (st : LState) : State :=
  match cacheFind s l line with
  | some (w, e) => cacheSet s l line w (some { e with st := st, dirty := e.dirty || decide (e.st ≠ st) })
  | none =>
    match insertingFor s l line with
    | some e =>
      let rest := s.dir.inserting.filter fun q => !(decide (q.1 = l) && decide (q.2.line = line))
      { s with dir := { s.dir with
        inserting := if st = .invalid ∨ st = .poisoned then rest else rest ++ [(l, { e with st := st })] } }
    | none =>
      match sfFind s l line with
      | some (i, _) => sfWrite s l line i (if st = .poisoned then .invalid else st)
      | none =>
        if st = .poisoned then
          match (List.range 16).find? fun w => !wayRetired s l w && (tabFind? (cacheKey s l line w) s.dir.cache).isNone with
          | some w => cacheSet s l line w (some { freshEntry s line with st := .poisoned, dirty := true, pinned := false })
          | none => s
        else s

/-- R156: a line that enters POISONED is counted, and memory is written with Write poison. -/
def poisonWrite (s : State) (l : Nat) (line : BitVec 42) : State := bufAdd (bumpC s 0xC023 7) l line Config.poisonData true true

/-- R156: a line enters POISONED. -/
def poisonLine (s : State) (l : Nat) (line : BitVec 42) : State :=
  if s.flt.safe then s else poisonWrite (putState s l line .poisoned) l line

/-- R195: the state of a line, with every listed removal applied to its entry. -/
def lineState (s : State) (l : Nat) (line : BitVec 42) : State × LState :=
  let raw := rawState s l line
  let c := cleanState s raw
  if c.1 = raw then (s, raw)
  else if c.2 then (poisonLine (bumpC (bumpC s 0xC024 6) 0xC024 7) l line, .poisoned)
  else (putState (bumpC s 0xC024 6) l line c.1, c.1)

/-! ### Pinning and eviction (R186 to R190) -/

/-- R153: the number of a free general tracker. -/
def freeGeneral (s : State) (l : Nat) : Option Nat :=
  (List.range' 0 2040).find? fun t => (tracker s l t).isNone && (tabFind? t (slice s l).quar).isNone

/-- R191: two general trackers are free: one for the request that pins a way, one for an overflow victim. -/
def spareGeneral (s : State) (l : Nat) : Bool :=
  match freeGeneral s l with
  | some t => (List.range' 0 2040).any fun n => decide (t < n) && (tracker s l n).isNone && (tabFind? n (slice s l).quar).isNone
  | none => false

/-- R189, R190: an entry can leave the cache. -/
def evictable (s : State) (l : Nat) (e : DirEntry) : Bool :=
  if e.pinned then false
  else if !e.dirty || decide (e.st = .invalid) || decide (e.st = .poisoned) || e.sfWay.isSome then true
  else
    match sfChoose s (sfKey s l e.line) with
    | some (_, w) => decide (w.st = .invalid) || spareGeneral s l
    | none => false

/-- R188: the way of the line's set to take: free, unpinned in state free or POISONED, clean, then dirty. -/
def victimWay (s : State) (l : Nat) (line : BitVec 42) : Option Nat :=
  let at_ := fun w => tabFind? (cacheKey s l line w) s.dir.cache
  let ways := (List.range 16).filter fun w => !wayRetired s l w
  let bits := (tabGet 0 (l * 8192 + cacheSetOf s line) s.dir.plru).toNat
  let byTree := fun (ok : DirEntry → Bool) =>
    plruVictim 4 0 0 bits fun w => ways.contains w && match at_ w with | some e => ok e | none => false
  match ways.find? fun w => (at_ w).isNone with
  | some w => some w
  | none =>
    match ways.find? fun w =>
        match at_ w with | some e => !e.pinned && (decide (e.st = .invalid) || decide (e.st = .poisoned)) | none => false with
    | some w => some w
    | none =>
      match byTree fun e => !e.pinned && !e.dirty with
      | some w => some w
      | none => byTree fun e => e.dirty && evictable s l e

/-- R189: the entry of a way leaves the cache. -/
def evictEntry (s : State) (l : Nat) (e : DirEntry) : State :=
  if !e.dirty then s
  else if e.st = .invalid ∨ e.st = .poisoned then
    match e.sfWay with
    | some i => sfWrite s l e.line i .invalid
    | none => s
  else
    match e.sfWay with
    | some i => sfWrite s l e.line i e.st
    | none => { s with dir := { s.dir with inserting := s.dir.inserting ++ [(l, { e with pinned := false })] } }

/-- R189, R195: the entry at key `k` of slice `l`'s cache leaves it, with every listed removal applied. -/
def evictAt (s : State) (l k : Nat) : State :=
  match tabFind? k s.dir.cache with
  | none => s
  | some e0 =>
    let s1 := (lineState s l e0.line).1
    match tabFind? k s1.dir.cache with
    | none => s1
    | some e => evictEntry { s1 with dir := { s1.dir with cache := tabDel k s1.dir.cache } } l e

/-- R186, R187: a way of the line's set is pinned for it; none where no way can be. -/
def pinLine (s : State) (l : Nat) (line : BitVec 42) : Option State :=
  match cacheFind s l line with
  | some (w, e) => some (cacheTouch (cacheSet s l line w (some { e with pinned := true })) l line w)
  | none =>
    match victimWay s l line with
    | none => none
    | some w =>
      let s1 := evictAt s l (cacheKey s l line w)
      let e1 := match insertingFor s1 l line with
        | some e => { e with pinned := true }
        | none => freshEntry s line
      let s2 := { s1 with dir := { s1.dir with
        inserting := s1.dir.inserting.filter fun q => !(decide (q.1 = l) && decide (q.2.line = line)) } }
      some (cacheTouch (cacheSet s2 l line w (some e1)) l line w)

/-- The line's entry is no longer pinned; R205: it leaves a way that has been retired meanwhile. -/
def unpinLine (s : State) (l : Nat) (line : BitVec 42) : State :=
  match cacheFind s l line with
  | none => s
  | some (w, e) =>
    let s1 := cacheSet s l line w (some { e with pinned := false })
    if wayRetired s l w then evictAt s1 l (cacheKey s l line w) else s1

/-- R186: the slice fills the pinned entry from the snoop filter; second, that a way held the line. An entry that has become
POISONED since it was pinned keeps its state. -/
def fillLine (s : State) (l : Nat) (line : BitVec 42) : State × Bool :=
  match cacheFind s l line, sfFind s l line with
  | some (w, e), some (i, x) =>
    let e1 := if e.st = .poisoned then { e with sfWay := some i } else { e with st := x.st, sfWay := some i, dirty := false }
    (cacheSet s l line w (some e1), true)
  | _, _ => (s, false)

end Sys2Proof.Machine
end

