-- ==== Sys2Proof/Machine/Home.lean ====
section
/-!
DEFINITION. Machine/Home.lean: the home of a line: trackers, the transition table of R155, the senior register (R169) and the
intake of a slice (R152).
-/

namespace Sys2Proof.Machine

/-! ### Answers (R142, R147, R150) -/

/-- The holder that a request comes from. -/
def ReqInfo.holder (r : ReqInfo) : Holder := { host := r.host, mover := r.mover }

/-- A response of type `ty` without data to a requester. -/
def answerRsp (s : State) (l ty : Nat) (r : ReqInfo) (line : BitVec 42) (poison synth : Bool) : State :=
  send s { homeRsp ty (slicePlace s l) (respDst s r.host r.src) r.tag line with poison := poison, synth := synth }

/-- DatHome with grant `g` to a requester. -/
def answerDat (s : State) (l g : Nat) (r : ReqInfo) (line : BitVec 42) (data : LineData) (poison synth : Bool) : State :=
  send s { blankUnit .dat (8 + g) (slicePlace s l) (respDst s r.host r.src) r.tag line with
    payload := data, poison := poison, synth := synth }

/-! ### Senior register (R169) -/

/-- R169: `a` was first issued before `b`; ties go to the lower host ID. -/
def olderSenior (f1 : BitVec 32) (h1 : BitVec 16) (f2 : BitVec 32) (h2 : BitVec 16) : Bool :=
  decide (f1.toNat < f2.toNat) || (decide (f1 = f2) && decide (h1.toNat < h2.toNat))

/-- The request is in the slice's senior register. -/
def registered (x : HomeSlice) (r : ReqInfo) : Bool :=
  x.senior.any fun e => decide (e.host = r.host) && decide (e.tag = r.tag)

/-- R169: OD 4001.06, the hold window in ns. -/
def holdWindow (s : State) : Nat := odGet s 0x4001 6

/-- R169: a SENIOR request that is answered Nack enters the register, if it may; `mark`: its line is transient. -/
def seniorEnter (s : State) (l : Nat) (r : ReqInfo) (line : BitVec 42) (mark : Bool) : State × Bool :=
  let x := slice s l
  let e : SeniorEntry := { host := r.host, tag := r.tag, line := line, first := r.first
                           until_ := s.time.clock + holdWindow s, marked := mark }
  if registered x r then
    (setSlice s l { x with senior := x.senior.map fun y => if y.host = r.host ∧ y.tag = r.tag then e else y }, true)
  else if x.senior.length < 8 then (setSlice s l { x with senior := x.senior ++ [e] }, true)
  else
    match x.senior with
    | [] => (s, false)
    | y :: ys =>
      let young := ys.foldl (fun (b : SeniorEntry) z => if olderSenior b.first b.host z.first z.host then z else b) y
      if olderSenior r.first r.host young.first young.host then
        (setSlice s l { x with senior := (x.senior.filter fun z => decide (z ≠ young)) ++ [e] }, true)
      else (s, false)

/-- R153, R169: Nack with its reason: 0 no tracker, 1 line transient, 2 held for a SENIOR request. -/
def nack (s : State) (l : Nat) (r : ReqInfo) (line : BitVec 42) (reason : Nat) : State :=
  let q := if r.senior then seniorEnter s l r line (decide (reason = 1)) else (s, false)
  let s1 := bump (bumpC q.1 0xC023 1) (897 + 4 * l) 1
  send s1 { homeRsp 0x10 (slicePlace s l) (respDst s r.host r.src) r.tag line with payload := packRsp 0 3 reason q.2 }

/-- R169: the line of a tracker that completes is held for the oldest registered request that it was marked for. -/
def seniorHold (s : State) (l : Nat) (line : BitVec 42) : State :=
  let x := slice s l
  let pick := (x.senior.filter fun e => e.marked && decide (e.line = line)).foldl (fun (b : Option SeniorEntry) e =>
    match b with
    | none => some e
    | some c => if olderSenior e.first e.host c.first c.host then some e else b) none
  match pick with
  | none => s
  | some e =>
    setSlice s l { x with
      holds := x.holds ++ [(line, e.host, e.tag, s.time.clock + holdWindow s)]
      senior := x.senior.map fun y => if y.line = line then { y with marked := false } else y }

/-- R155: who the line is held for. -/
def heldFor (x : HomeSlice) (line : BitVec 42) : Option (BitVec 16 × BitVec 16) :=
  (x.holds.find? fun q => decide (q.1 = line)).map fun q => (q.2.1, q.2.2.1)

/-- The hold of a line ends. -/
def dropHold (s : State) (l : Nat) (line : BitVec 42) : State :=
  let x := slice s l
  setSlice s l { x with holds := x.holds.filter fun q => decide (q.1 ≠ line) }

/-! ### The end of a tracker (R151, R155, R156) -/

/-- R183: a tracker that completes in state `st` records its requester's switch. -/
def recordFinal (s : State) (k : Tracker) (st : LState) : State :=
  match st, k.req with
  | .owned o, _ => recordSwitch s o.switch
  | .shared _, some r => if k.join then recordSwitch s r.holder.switch else s
  | _, _ => s

/-- R182: the state that a tracker completing in state `st` leaves. A requester being removed does not join the sharers (R195). A
line whose buffered write was lost meanwhile is POISONED (R126), unless its granule is released (R227). -/
def Tracker.final (s : State) (k : Tracker) (st : LState) : LState :=
  if k.spoilt || decide (st = .poisoned) then (if k.release then .invalid else .poisoned)
  else
    match st, k.req with
    | .shared h, some r => if k.join && !removed s r.holder then .shared (h.add s r.holder) else sharedOr h
    | .shared h, none => sharedOr h
    | _, _ => st

/-- R151: tracker `t` completes and its line takes state `st`; in the safe state the directory is not changed (R430). -/
def complete (s : State) (l t : Nat) (st : LState) : State :=
  match tracker s l t with
  | none => s
  | some k =>
    let life := s.time.clock - k.started
    let x := slice s l
    let s1 := setSlice s l { x with trk := tabDel t x.trk }
    let s2 := if odGet s 0x4002 (l + 1) < life then odSet s1 0x4002 (l + 1) life else s1
    let s3 := if s.flt.safe then s2 else let s4 := recordFinal s2 k st; putState s4 l k.line (k.final s4 st)
    seniorHold (unpinLine (lineState s3 l k.line).1 l k.line) l k.line

/-- R156: tracker `t` completes and its line enters POISONED. -/
def completePoisoned (s : State) (l t : Nat) : State :=
  match tracker s l t with
  | none => s
  | some k => if k.release then complete s l t .invalid else complete (poisonLine s l k.line) l t .poisoned

/-! ### Memory reads (R154) -/

/-- R154: tracker `t` reads memory: from the data buffer where it holds the line, else by a MemRd. -/
def memRead (s : State) (l t : Nat) (k : Tracker) : State :=
  match newestBuf s l k.line, k.req with
  | some (b, e), some r =>
    answerDat (bumpC (setTracker s l t { k with phase := .mem, served := some b }) 0xC023 8) l (grantOf r.kind) r k.line e.data
      e.poison false
  | _, _ => remapOp (setTracker s l t { k with phase := .mem }) l (.read t)

/-! ### Requests from INVALID and POISONED (R155) -/

/-- R155: the rows from INVALID, and from SHARED where nobody is snooped; `base`: the sharers that stay. -/
def fromInvalid (s : State) (l t : Nat) (k : Tracker) (r : ReqInfo) (base : HolderSet) : State :=
  match r.kind with
  | 0 => memRead s l t { k with fin := .shared base, join := true }
  | 1 => memRead s l t { k with fin := .owned r.holder }
  | 2 => memRead s l t { k with fin := .shared base }
  | 3 => answerRsp (complete s l t (.owned r.holder)) l 9 r k.line false false
  | _ => answerRsp (setTracker s l t { k with phase := .wb, fin := .invalid }) l 0xA r k.line false false

/-- R155: the rows on POISONED. -/
def fromPoisoned (s : State) (l t : Nat) (k : Tracker) (r : ReqInfo) : State :=
  if r.kind ≤ 2 then answerDat (complete s l t .poisoned) l 0 r k.line Config.poisonData true true
  else if r.kind = 3 then answerRsp (complete s l t (.owned r.holder)) l 9 r k.line false false
  else if r.kind = 4 then answerRsp (setTracker s l t { k with phase := .wb, fin := .invalid }) l 0xA r k.line false false
  else answerRsp (complete s l t .poisoned) l 8 r k.line false false

/-! ### Snoops (R157, R62 to R64, R146) -/

/-- R62, R146: the fields of a snoop with given targets. -/
def snoopBody (k : Tracker) (hosts : BitVec 64) (mover : Bool) (islands : BitVec 16) (fwdTo : BitVec 12) (fwd : Bool) :
    SnpFields :=
  match k.req with
  | some r =>
    { hosts := hosts, mover := mover, islands := islands, fwdTo := if fwd then fwdTo else 0, fwdTag := if fwd then r.tag else 0
      fwd := fwd, grant := if fwd then grantOf r.kind else 0, reason := k.reason }
  | none => { hosts := hosts, mover := mover, islands := islands, fwdTo := 0, fwdTag := 0, fwd := false, grant := 0
              reason := k.reason }

/-- A snoop is counted and sent. -/
def sendSnoop (s : State) (l : Nat) (u : FUnit) : State := send (bump (bumpC s 0xC023 4) (899 + 4 * l) 1) u

/-- R62: host and island vectors of some local targets. -/
def nearBits (s : State) (l : List Holder) : BitVec 64 × BitVec 16 :=
  (l.filter fun h => !h.mover).foldl (fun (m : BitVec 64 × BitVec 16) h =>
    match upstreamPort s h.vcs with
    | some p => (m.1 ||| BitVec.twoPow 64 h.vcs, m.2 ||| BitVec.twoPow 16 (p / 6))
    | none => m) (0, 0)

/-- The stop of a local target. -/
def targetStop (s : State) (h : Holder) : Nat :=
  if h.mover then moverStop
  else match upstreamPort s h.vcs with
    | some p => bridgeStop (p / 6)
    | none => 0

/-- R64: the local target lies in the column of a bypassed stop of the home's row. -/
def bypassedColumn (s : State) (l : Nat) (h : Holder) : Bool :=
  let me := sliceStop (physicalOf s l)
  s.fab.bypass.any fun b => decide (stopY b = stopY me) && decide (stopX b = stopX (targetStop s h))

/-- R64, R157: one unicast snoop for each stop among some local targets. -/
def snoopStopsOf (s : State) (l : List Holder) : List Nat :=
  (l.map (targetStop s)).foldl (fun a n => setInsert n a) []

/-- R157: send the snoop of tracker `t` to its targets: `inv` SnpInv, `fwd` with forwarding, as unicast. A unicast snoop to an
island names the port of its first targeted host (DESIGN CHOICE, log entry 23). -/
def sendSnoops (s : State) (l t : Nat) (k : Tracker) (inv fwd : Bool) (g : Targets) : State :=
  let me := slicePlace s l
  let ty := if inv then 1 else 0
  let toNear := match k.req with | some r => respDst s r.host r.src | none => 0
  let toFar := match k.req with | some r => switchCode (r.host.toNat / 64) | none => 0
  let single := g.near.filter fun h => fwd || bypassedColumn s l h
  let many := g.near.filter fun h => !(fwd || bypassedColumn s l h)
  let s1 := (snoopStopsOf s single).foldl (fun r n =>
    let here := single.filter fun h => decide (targetStop s h = n)
    let b := nearBits s here
    let mov := here.any fun h => h.mover
    let dst := if mov then cachePlace else
      match here.head? with
      | some h => (match upstreamPort s h.vcs with | some p => portPlace p | none => place n 1)
      | none => place n 1
    sendSnoop r l { blankUnit .snp ty me dst (homeTag l t) k.line with payload := packSnp (snoopBody k b.1 mov b.2 toNear fwd) }) s
  let s2 :=
    if many.isEmpty then s1
    else
      let b := nearBits s many
      sendSnoop s1 l { blankUnit .snp ty me 0 (homeTag l t) k.line with
        mc := true, payload := packSnp (snoopBody k b.1 (many.any fun h => h.mover) b.2 toNear fwd) }
  g.far.foldl (fun r q =>
    sendSnoop r l { blankUnit .snp ty me (switchCode q.1) (homeTag l t) k.line with
      payload := packSnp (snoopBody k q.2.1 q.2.2 0 toFar fwd) }) s2

/-- R159: `h` is the owner that the directory records for the tracker's line. -/
def isOwner (k : Tracker) (h : Holder) : Bool := match k.was with | .owned o => decide (o = h) | _ => false

/-- R155: the last reply of an SNP_PENDING tracker has come. -/
def lastReply (s : State) (l t : Nat) : State :=
  match tracker s l t with
  | none => s
  | some k =>
    match k.req with
    | none => if k.ownerLost then completePoisoned s l t else complete s l t k.fin
    | some r =>
      if k.ownerLost then fromPoisoned (poisonLine s l k.line) l t k r
      else fromInvalid s l t k r (.ptr [])

/-- R155: tracker `t` snoops: SNP_PENDING, or FWD_PENDING with `fwd`. A local host without a port cannot reply, and counts as
a synthesised RspI. -/
def startSnoop (s : State) (l t : Nat) (k : Tracker) (inv fwd : Bool) (g : Targets) : State :=
  let gone := g.near.filter fun h => !h.mover && (upstreamPort s h.vcs).isNone
  let live := g.near.filter fun h => h.mover || (upstreamPort s h.vcs).isSome
  let k1 := { k with phase := if fwd then .fwd else .snp, waitHosts := live, waitSwitches := g.far.map Prod.fst
                     ownerLost := gone.any (isOwner k) }
  let s1 := sendSnoops (setTracker s l t k1) l t k1 inv fwd { g with near := live }
  if k1.waitHosts.isEmpty && k1.waitSwitches.isEmpty then lastReply s1 l t else s1

/-- The owner as the target of a forwarding snoop, or of an invalidation. -/
def ownerTarget (s : State) (o : Holder) : Targets :=
  if o.switch = ownSwitch s then { near := [o], far := [] }
  else { near := [], far := [(o.switch, (if o.mover then 0 else BitVec.twoPow 64 o.vcs, o.mover))] }

/-- R155: the request of tracker `t` acts on its line in state `st`. -/
def proceed (s : State) (l t : Nat) (k0 : Tracker) (r : ReqInfo) (st : LState) : State :=
  let k := { k0 with was := st }
  match st with
  | .invalid => fromInvalid s l t k r (.ptr [])
  | .poisoned => fromPoisoned s l t k r
  | .shared h =>
    if r.kind = 0 ∨ r.kind = 2 then fromInvalid s l t k r h
    else
      let g := (h.targets s).without s r.holder
      if g.none then fromInvalid s l t k r (.ptr []) else startSnoop s l t k true false g
  | .owned o =>
    if o = r.holder then
      if r.kind = 3 then answerRsp (complete s l t st) l 9 r k.line false false else fromInvalid s l t k r (.ptr [])
    else
      match r.kind with
      | 0 => startSnoop s l t k false true (ownerTarget s o)
      | 2 => startSnoop s l t k false true (ownerTarget s o)
      | 1 => startSnoop s l t k true true (ownerTarget s o)
      | _ => startSnoop s l t k true false (ownerTarget s o)

/-! ### Home invalidations (R155, R191, R199) -/

/-- An empty tracker of a line. -/
def blankTracker (s : State) (line : BitVec 42) (ph : TPhase) : Tracker :=
  { line := line, phase := ph, req := none, was := .invalid, fin := .invalid, waitHosts := [], waitSwitches := []
    ownerLost := false, back := none, join := false, spoilt := false, merge := none, toHome := false, served := none, reason := 0, loc := none
    release := false, started := s.time.clock }

/-- R155: a home invalidation of a line in state `st` by tracker `t`: targets, what is left and the reason (R146). -/
def invalidateWith (s : State) (l t : Nat) (line : BitVec 42) (st fin : LState) (g : Targets) (reason : Nat) : State :=
  let k := { blankTracker s line .snp with was := st, fin := fin, reason := reason }
  startSnoop (bump (setTracker s l t k) (896 + 4 * l) 1) l t k true false g

/-- The targets of a line's whole holder set. -/
def allTargets (s : State) (st : LState) : Targets :=
  match st with
  | .owned o => ownerTarget s o
  | .shared h => h.targets s
  | _ => { near := [], far := [] }

/-! ### Snoop replies (R155, R157 to R159) -/

/-- R157: a reply is counted for its sender, if the tracker awaits it: the tracker, and whether it was the owner's. -/
def countReply (s : State) (k : Tracker) (h : Held) : Option (Tracker × Bool) :=
  let far := fun (w : Nat) =>
    if k.waitSwitches.contains w then
      some ({ k with waitSwitches := setRemove w k.waitSwitches },
        match k.was with | .owned o => decide (o.switch = w) | _ => false)
    else none
  match originOf h with
  | some w => far w
  | none =>
    if rspKind h.u.payload = 2 ∧ h.u.vn = .rsp then far ((rspReplier h.u.payload).toNat / 64)
    else
      match unitHolder s h with
      | some x =>
        if k.waitHosts.contains x then some ({ k with waitHosts := k.waitHosts.filter fun y => decide (y ≠ x) }, isOwner k x)
        else none
      | none => none

/-- R155: a FWD_PENDING tracker with what it completes with, as the owner keeps S or not. -/
def fwdFinal (k : Tracker) (keepsS : Bool) : Tracker :=
  match k.was, k.req with
  | .owned o, some r =>
    let kept := HolderSet.ptr (if keepsS then [o] else [])
    match r.kind with
    | 0 => { k with fin := .shared kept, join := true }
    | 2 => { k with fin := .shared kept }
    | _ => { k with fin := .owned r.holder }
  | _, _ => k

/-- R263: a unit is discarded whose tag names an entry in quarantine, or one of another line. -/
def strayed (s : State) : State := bumpC s 0xC026 0x0C

/-- R263: a unit is discarded whose tag names no tracker; it is counted where the tracker is in quarantine. -/
def noTracker (s : State) (l t : Nat) : State := if (tabFind? t (slice s l).quar).isSome then strayed s else s

/-- R155: a reply reaches tracker `t`. -/
def homeReply (s : State) (l t : Nat) (h : Held) : State :=
  match tracker s l t with
  | none => noTracker s l t
  | some k0 =>
    if k0.line ≠ h.u.line then strayed s
    else
      match countReply s k0 h with
      | none => s
      | some (k1, fromOwner) =>
        let ty := h.u.type.toNat
        let wb := decide (h.u.vn = .wb)
        let lost := h.u.synth && fromOwner && !wb && decide (ty = 0)
        let k := { k1 with ownerLost := k1.ownerLost || lost
                           back := if wb then some (h.u.payload, h.u.poison) else k1.back }
        let s1 := setTracker s l t k
        match k.phase with
        | .snp =>
          let s2 := if wb then bufAdd s1 l k.line h.u.payload h.u.poison false else s1
          if k.waitHosts.isEmpty && k.waitSwitches.isEmpty then lastReply s2 l t else s2
        | .fwd =>
          let keeps := if wb then decide (ty = 3) else decide (ty = 1) || decide (ty = 3)
          let f := fwdFinal k keeps
          let s2 := setTracker s l t f
          if wb then complete (bufAdd (bumpC s2 0xC023 5) l k.line h.u.payload h.u.poison false) l t f.fin
          else if ty = 2 ∨ ty = 3 then complete (bumpC s2 0xC023 5) l t f.fin
          else if lost then
            match k.req with
            | some r => fromPoisoned (poisonLine s1 l k.line) l t k r
            | none => s1
          else memRead s2 l t f
        | _ => s1

/-! ### Writebacks (R155) -/

/-- CmpDrop, NackWb or Cmp to the writer of a writeback. -/
def answerWb (s : State) (l ty : Nat) (h : Held) (r : Holder) (synth : Bool) : State :=
  let s1 := if ty = 8 then s else bumpC s 0xC023 6
  send s1 { homeRsp ty (slicePlace s l) (respDst s r.host h.u.src) h.u.tag h.u.line with synth := synth }

/-- R201: the line lies in a recovery range in RECOVERY. -/
def inRecovery (s : State) (line : BitVec 42) : Bool :=
  let a := line.toNat * 64
  s.dir.recov.any fun q => q.2.active && decide (q.2.base ≤ a) && decide (a ≤ q.2.limit)

/-- R155: `r` is a snoop target of tracker `k` that has not replied. -/
def awaited (s : State) (k : Tracker) (r : Holder) : Bool :=
  let asker := match k.req with | some q => decide (q.holder = r) | none => false
  k.waitHosts.contains r || (k.waitSwitches.contains r.switch && !asker &&
    match k.was with
    | .owned o => decide (o = r)
    | .shared h => h.has s r
    | _ => false)

/-- R185: a WbDirty in a vector mode takes its local writer out of the holders. -/
def vectorDrop (s : State) (l : Nat) (line : BitVec 42) (st : LState) (r : Holder) : State :=
  match st with
  | .shared (.ptr _) => s
  | .shared h => if h.has s r then putState s l line (sharedOr (h.drop s r)) else s
  | _ => s

/-- R155: a WbDirty or WbDirtyS. A writer that is no owner is answered NackWb, also where R185 takes it out of the holders. -/
def homeWriteback (s : State) (l : Nat) (h : Held) : State :=
  match unitHolder s h with
  | none => s
  | some r =>
    let line := h.u.line
    let take := fun (t : State) => bufAdd t l line h.u.payload h.u.poison false
    if s.flt.safe then answerWb (take s) l 8 h r true
    else if inRecovery s line then answerWb (take s) l 8 h r false
    else
      match trackerFor s l line with
      | some (_, k) =>
        if awaited s k r then answerWb s l 0xB h r false
        else answerWb s l 0xC h r false
      | none =>
        let q := lineState s l line
        if q.2 = .owned r then
          answerWb (take (putState q.1 l line (if h.u.type = 1 then .shared (.ptr [r]) else .invalid))) l 8 h r false
        else answerWb (if h.u.type = 0 then vectorDrop q.1 l line q.2 r else q.1) l 0xC h r false

/-- R155: merge the enabled bytes of `d` into `old`. -/
def mergeLine (old d : LineData) (mask : BitVec 64) : LineData :=
  (List.range 64).foldl (fun (a : LineData) i =>
    let m : LineData := 255#512 <<< (8 * i)
    if mask.getLsbD i then (a &&& ~~~ m) ||| (d &&& m) else a) old

/-- R155: WrData of a WrOwn or WrPtl. -/
def homeWrData (s : State) (l : Nat) (u : FUnit) : State :=
  match (slice s l).trk.find? fun p =>
      decide (p.2.line = u.line) && decide (p.2.phase = .wb) &&
        match p.2.req with | some r => decide (r.tag = u.tag) | none => false with
  | none => s
  | some (t, k) =>
    match k.req with
    | none => s
    | some r =>
      if r.kind = 4 then
        answerRsp (complete (bufAdd s l k.line u.payload u.poison false) l t .invalid) l 8 r k.line false false
      else
        let held := match newestBuf s l k.line with
          | some (_, e) => some (e.data, e.poison)
          | none => k.back
        match held with
        | some (d, p) =>
          answerRsp (complete (bufAdd s l k.line (mergeLine d u.payload r.mask) (u.poison || p) false) l t .invalid) l 8 r k.line
            false false
        | none =>
          remapOp (setTracker s l t { k with phase := .mem, toHome := true, merge := some (u.payload, u.poison) }) l (.read t)

/-! ### Memory answers (R154, R155) -/

/-- R155: MemCmp for tracker `t`. -/
def homeMemCmp (s : State) (l : Nat) (u : FUnit) : State :=
  let t := u.tag.toNat % 2048
  match tracker s l t with
  | none => noTracker s l t
  | some k =>
    if k.line ≠ u.line then strayed s
    else if k.phase ≠ .mem ∨ k.toHome ∨ k.served.isSome then s
    else if u.poison then completePoisoned s l t
    else complete s l t k.fin

/-- R155: DatMem to the home, for the merge of a WrPtl. -/
def homeDatMem (s : State) (l : Nat) (u : FUnit) : State :=
  let t := u.tag.toNat % 2048
  match tracker s l t with
  | none => noTracker s l t
  | some k =>
    if k.line ≠ u.line then strayed s
    else
    match k.req, k.merge with
    | some r, some (d, p) =>
      if k.phase ≠ .mem then s
      else if u.poison then answerRsp (completePoisoned s l t) l 8 r k.line false false
      else
        answerRsp (complete (bufAdd s l k.line (mergeLine u.payload d r.mask) p false) l t .invalid) l 8 r k.line false false
    | _, _ => s

/-- R126, R215: a buffered write of a line was lost: the line becomes POISONED, with an active tracker as that tracker's state
allows. -/
def lineLost (s : State) (l : Nat) (line : BitVec 42) : State :=
  match trackerFor s l line with
  | none => poisonLine s l line
  | some (t, k) =>
    match k.phase with
    | .fill => poisonLine s l line
    | .snp => poisonWrite (setTracker s l t { k with ownerLost := true }) l line
    | .wb => poisonWrite s l line
    | _ => poisonWrite (setTracker s l t { k with spoilt := true }) l line

/-- R154, R126: buffer entry `b` has its MemWrCmp: it is freed, the trackers that it served complete, and poison of a write
that carried none is a loss. -/
def bufDone (s : State) (l b : Nat) (poison : Bool) : State :=
  match bufEntry s l b with
  | none => s
  | some e =>
    let x := slice s l
    let s1 := bufNext (setSlice s l { x with buf := tabDel b x.buf }) l b
    let s2 := match e.loc with | some p => nextMemWr s1 l p.port | none => s1
    let loss := poison && !e.wrPoison
    match (slice s2 l).trk.find? fun p => decide (p.2.served = some b) && decide (p.2.line = e.line) with
    | some (t, k) => if loss then completePoisoned s2 l t else complete s2 l t k.fin
    | none => if loss then lineLost s2 l e.line else s2

/-- R154: MemWrCmp for a buffer entry. -/
def homeMemWrCmp (s : State) (l : Nat) (u : FUnit) : State :=
  let b := u.tag.toNat % 2048
  match bufEntry s l b with
  | some e => if e.line = u.line then bufDone s l b u.poison else strayed s
  | none => s

/-- R154: WrPull: the data of a MemWr goes to the pool port agent. -/
def homePull (s : State) (l : Nat) (u : FUnit) : State :=
  let b := u.tag.toNat % 2048
  match bufEntry s l b with
  | some e =>
    if e.line ≠ u.line then strayed s
    else if e.stage = .sent then
      send (setBuf s l b { e with stage := .pulled })
        { blankUnit .dat 0xC (slicePlace s l) u.src u.tag u.line with payload := e.data, poison := e.poison }
    else s
  | none => s

/-- R159, R261: tracker `t` counts a synthesised RspI from each host that it targeted on switch `w`. -/
def switchLost (s : State) (l t w : Nat) : State :=
  match tracker s l t with
  | none => s
  | some k =>
    if k.waitSwitches.contains w then
      let owner := match k.was with | .owned o => decide (o.switch = w) | _ => false
      let k1 := { k with waitSwitches := setRemove w k.waitSwitches, ownerLost := k.ownerLost || owner }
      let s1 := setTracker s l t k1
      if k1.phase = .fwd then
        match k.req with
        | some r => fromPoisoned (poisonLine s1 l k.line) l t k1 r
        | none => s1
      else if k1.waitHosts.isEmpty && k1.waitSwitches.isEmpty then lastReply s1 l t
      else s1
    else s

/-- R155, R70: an UNREACHABLE answer to a unit of this home. -/
def homeUnreachable (s : State) (l : Nat) (u : FUnit) : State :=
  let n := u.tag.toNat % 2048
  match originalVn u with
  | .req =>
    if (unpackMem u.payload).deliver = 0 then homeMemWrCmp s l { u with poison := true }
    else
      match tracker s l n with
      | none => s
      | some k =>
        if k.line ≠ u.line ∨ k.phase ≠ .mem then s
        else
          match k.req with
          | none => s
          | some r =>
            if k.toHome then answerRsp (completePoisoned s l n) l 8 r k.line false false
            else answerDat (completePoisoned s l n) l 0 r k.line Config.poisonData true true
  | .dat => homeMemWrCmp s l { u with poison := true }
  | .rsp =>
    match (slice s l).trk.find? fun p =>
        decide (p.2.line = u.line) && decide (p.2.phase = .wb) &&
          match p.2.req with | some r => decide (r.tag = u.tag) | none => false with
    | some (t, _) => complete s l t .invalid
    | none => s
  | .snp =>
    match tracker s l n with
    | none => s
    | some k =>
      match k.waitSwitches with
      | w :: _ => switchLost s l n w
      | [] => s
  | _ => s

/-! ### Requests (R153, R155, R186, R197, R202, R430) -/

/-- The request that a unit carries. -/
def reqOf (u : FUnit) : ReqInfo :=
  let b := unpackReq u.payload
  { kind := u.type.toNat, src := u.src, tag := u.tag, host := b.host, mover := b.mover, senior := b.senior, nacks := b.nacks
    first := b.first, mask := b.mask, age := u.age }

/-- R155: EvictClean. -/
def homeEvictClean (s : State) (l : Nat) (r : ReqInfo) (line : BitVec 42) (poison synth : Bool) : State :=
  let stable := (trackerFor s l line).isNone && (heldFor (slice s l) line).isNone && !s.flt.safe && !s.dir.clearing &&
    !inRecovery s line
  let s1 :=
    if stable then
      let q := lineState s l line
      match q.2 with
      | .owned o => if o = r.holder then putState q.1 l line .invalid else q.1
      | .shared h => if h.has q.1 r.holder then putState q.1 l line (sharedOr (h.drop q.1 r.holder)) else q.1
      | _ => q.1
    else s
  answerRsp s1 l 8 r line poison synth

/-- R430: a request in the safe state. -/
def safeRequest (s : State) (l : Nat) (r : ReqInfo) (line : BitVec 42) : State :=
  if r.kind ≤ 2 then answerDat s l 0 r line Config.poisonData true true
  else if r.kind = 3 then answerRsp s l 8 r line true true
  else answerRsp (bufAdd s l line Config.poisonData true true) l 8 r line false true

/-- R123, R197: a request from a switch that is listed. -/
def lostRequest (s : State) (l : Nat) (r : ReqInfo) (line : BitVec 42) : State :=
  if r.kind ≤ 2 then answerDat s l 0 r line Config.poisonData true true else answerRsp s l 8 r line true true

/-- R194, R197: the host waits in, or for, the removal list. -/
def hostListed (s : State) (r : ReqInfo) : Bool :=
  !r.mover && ((s.dir.removals.any fun q => !q.isSwitch && decide (q.id = r.host.toNat)) || s.dir.hostWait.contains r.host.toNat)

/-- R153, R169: the number of a tracker for a request: a general one, or a reserve for a registered request. -/
def pickTracker (s : State) (l : Nat) (r : ReqInfo) : Option Nat :=
  match freeGeneral s l with
  | some t => some t
  | none =>
    if registered (slice s l) r then
      (List.range 8).findSome? fun i =>
        if (tracker s l (2040 + i)).isNone && (tabFind? (2040 + i) (slice s l).quar).isNone then some (2040 + i) else none
    else none

/-- R153, R186: a request that needs a tracker finds its line stable. -/
def acceptRequest (s : State) (l : Nat) (h : Held) (r : ReqInfo) (line : BitVec 42) : State :=
  match pickTracker s l r with
  | none => nack s l r line 0
  | some t =>
    let hit := (cacheFind s l line).isSome || (insertingFor s l line).isSome
    match pinLine s l line with
    | none => nack s l r line 0
    | some s1 =>
      let x := slice s1 l
      let k := { blankTracker s line .fill with req := some r }
      let s2 := setSlice s1 l { x with
        trk := tabPut t k x.trk
        senior := x.senior.filter fun e => !(decide (e.host = r.host) && decide (e.tag = r.tag))
        holds := x.holds.filter fun q => decide (q.1 ≠ line) }
      let s3 := bump (traceUnit s2 2 (0x80 + l) t h.u) (896 + 4 * l) 1
      let s4 := if 2040 ≤ t then bumpC s3 0xC023 3 else s3
      if hit then
        let q := lineState (bumpC s4 0xC024 1) l line
        proceed q.1 l t k r q.2
      else bump (bumpC s4 0xC024 2) (898 + 4 * l) 1

/-- R155: a request is taken. -/
def homeRequest (s : State) (l : Nat) (h : Held) : State :=
  let r := reqOf h.u
  let line := h.u.line
  let lost := s.dir.removals.any fun q => q.isSwitch && decide (q.id = r.holder.switch)
  if r.kind = 6 then homeEvictClean s l r line lost (s.flt.safe || lost)
  else if 6 < r.kind then s
  else if s.flt.safe then safeRequest s l r line
  else if lost then lostRequest s l r line
  else if s.dir.clearing || hostListed s r then nack s l r line 0
  else if inRecovery s line then nack s l r line 1
  else
    match trackerFor s l line with
    | some _ => nack s l r line 1
    | none =>
      match heldFor (slice s l) line with
      | some q => if q = (r.host, r.tag) then acceptRequest s l h r line else nack s l r line 2
      | none => acceptRequest s l h r line

/-! ### Lines whose holders were lost (R204) -/

/-- R204: every local host, the mover cache and every switch of the remote holder set. -/
def everyHolder (s : State) : HolderSet := .vec true (!s.dir.remote.isEmpty) (BitVec.allOnes 64)

/-- R204: the home invalidation of one line at everyone; none where it has to wait for a tracker or a way. -/
def lostLine (s : State) (l : Nat) (line : BitVec 42) : Option State :=
  if (trackerFor s l line).isSome then none
  else
    match freeGeneral s l with
    | none => none
    | some t =>
      let cached := (cacheFind s l line).isSome || (insertingFor s l line).isSome
      match pinLine s l line with
      | none => none
      | some s1 =>
        let s2 := if cached then s1 else (fillLine s1 l line).1
        let q := lineState s2 l line
        some (invalidateWith q.1 l t line q.2 .invalid ((everyHolder q.1).targets q.1) 3)

/-- R204: the lines of slice `l` whose recorded holders were lost are invalidated as trackers allow. -/
def lostSweep (s : State) (l : Nat) : State :=
  (slice s l).lostLines.foldl (fun t line =>
    match lostLine t l line with
    | some r =>
      let x := slice r l
      setSlice r l { x with lostLines := x.lostLines.filter fun y => decide (y ≠ line) }
    | none => t) s

/-! ### Intake (R152) -/

/-- R155: a WB unit is taken. -/
def homeWb (s : State) (l : Nat) (h : Held) : State :=
  match h.u.type.toNat with
  | 0 => homeWriteback s l h
  | 1 => homeWriteback s l h
  | 5 => homeWrData s l h.u
  | _ =>
    -- R430: a late data-bearing reply goes to the data buffer.
    if s.flt.safe then bufAdd s l h.u.line h.u.payload h.u.poison false else homeReply s l (h.u.tag.toNat % 2048) h

/-- R155: an RSP unit is taken. -/
def homeRspTaken (s : State) (l : Nat) (h : Held) : State :=
  match h.u.type.toNat with
  | 0x18 => homeMemCmp s l h.u
  | 0x19 => homeMemWrCmp s l h.u
  | 0x1A => homePull s l h.u
  | 0x3F => homeUnreachable s l h.u
  | _ => if s.flt.safe then s else homeReply s l (h.u.tag.toNat % 2048) h

/-- The stop of slice `l`. -/
def homeStop (s : State) (l : Nat) : Nat := sliceStop (physicalOf s l)

/-- Take at most `n` units of a VN, while `ok` holds, and apply them in order. -/
def takeUnits (s : State) (l n : Nat) (v : Vn) (ok : State → Bool) (f : State → Held → State) : State :=
  (List.range n).foldl (fun t _ =>
    match ejectBuf t (homeStop t l) 1 v with
    | [] => t
    | h :: rest => if ok t then f (setEjectBuf t (homeStop t l) 1 v rest) h else t) s

/-- R152: at most two REQ units, from the round-robin pointer upward. -/
def takeRequests (s : State) (l : Nat) : State :=
  let p := odGet s 0x4003 (l + 1)
  let q := ejectBuf s (homeStop s l) 1 .req
  let order := (List.range 4).map fun i => (p + i) % 4
  let picks := (order.filterMap fun i => q.find? fun h => decide (h.inp = i)).take 2
  let s1 := setEjectBuf s (homeStop s l) 1 .req (q.filter fun h => !(picks.any fun g => decide (g.id = h.id)))
  let s2 := match picks.getLast? with
    | some h => odSet s1 0x4003 (l + 1) ((h.inp + 1) % 4)
    | none => s1
  picks.foldl (fun t h => homeRequest t l h) s2

/-- R152, R154: one cycle of a slice: WB, RSP, DAT, REQ. -/
def homeIntake (s : State) (l : Nat) : State :=
  let s1 := takeUnits s l 2 .wb (fun t => (bufFree (slice t l)).isSome) (fun t h => homeWb t l h)
  let s2 := takeUnits s1 l 2 .rsp (fun _ => true) (fun t h => homeRspTaken t l h)
  let s3 := takeUnits s2 l 1 .dat (fun _ => true)
    (fun t h => if h.u.type = 0x3F then homeUnreachable t l h.u else homeDatMem t l h.u)
  lostSweep (takeRequests s3 l) l

/-- HOME_INTAKE_CYCLE (R152). -/
def execHomeIntakeCycle (l : Fin 32) (s : State) : Host.Outcome State Fault Refusal := .next (homeIntake s l.val)

/-- SENIOR_HOLD_EXPIRE (R155, R169): the hold window of a line ends. -/
def execSeniorHoldExpire (l : Fin 32) (line : BitVec 42) (s : State) : Host.Outcome State Fault Refusal :=
  .next (dropHold s l.val line)

/-- SENIOR_ENTRY_TIMEOUT (R169): the request of entry `i` has not reappeared within the hold window. -/
def execSeniorEntryTimeout (l : Fin 32) (i : Fin 8) (s : State) : Host.Outcome State Fault Refusal :=
  let x := slice s l.val
  .next (setSlice s l.val { x with senior := x.senior.eraseIdx i.val })

/-! ### Fills and insertions (R186, R190, R191) -/

/-- SNOOP_FILTER_FILL (R186): the set's blocks have been read for tracker `t` of slice `l`. -/
def execSnoopFilterFill (l : Fin 32) (t : Fin 2048) (s : State) : Host.Outcome State Fault Refusal :=
  match tracker s l.val t.val with
  | none => .next s
  | some k =>
    match k.phase, k.req with
    | .fill, some r =>
      let f := fillLine s l.val k.line
      let s1 := if f.2 then bumpC f.1 0xC024 3 else f.1
      let q := lineState s1 l.val k.line
      .next (proceed q.1 l.val t.val k r q.2)
    | _, _ => .next s

/-- The entry of a line no longer waits to be inserted. -/
def notInserting (s : State) (l : Nat) (line : BitVec 42) : State :=
  { s with dir := { s.dir with inserting := s.dir.inserting.filter fun q => !(decide (q.1 = l) && decide (q.2.line = line)) } }

/-- R190, R191: the eviction of entry `e` is abandoned: it returns to the cache, which takes its next candidate (R188). -/
def evictAbandon (s : State) (l : Nat) (e : DirEntry) : State :=
  match victimWay s l e.line with
  | none => s
  | some w => cacheSet (evictAt (notInserting s l e.line) l (cacheKey s l e.line w)) l e.line w (some e)

/-- R190, R191: entry `e` takes a way of its set; a valid way taken becomes an overflow victim. -/
def insertEntry (s : State) (l : Nat) (e : DirEntry) : State :=
  let k := sfKey s l e.line
  match sfChoose s k with
  | none => evictAbandon s l e
  | some (i, w) =>
    let line := sfLine s k w
    let s1 := if w.st = .invalid then s else (lineState s l line).1
    let st := ((sfSet s1 k)[i]?.map fun (x : SfWay) => x.st).getD .invalid
    let g := allTargets s1 st
    let put := fun (t : State) => bumpC (sfPut (notInserting t l e.line) k i (tagOf t e.line) e.st) 0xC024 4
    if g.none then put s1
    else
      match freeGeneral s1 l with
      | none => evictAbandon s1 l e
      | some t => invalidateWith (bumpC (put s1) 0xC024 5) l t line st .invalid g 1

/-- R190, R195: the first entry of slice `l` that waits is inserted, with every listed removal applied. -/
def sfInsert (s : State) (l : Nat) : State :=
  match s.dir.inserting.find? fun q => decide (q.1 = l) with
  | none => s
  | some (_, e0) =>
    let s1 := (lineState s l e0.line).1
    match insertingFor s1 l e0.line with
    | none => s1
    | some e => insertEntry s1 l e

/-- SNOOP_FILTER_INSERTION (R190). -/
def execSnoopFilterInsertion (l : Fin 32) (s : State) : Host.Outcome State Fault Refusal := .next (sfInsert s l.val)

end Sys2Proof.Machine
end

