-- ==== Sys2Proof/Machine/Pool.lean ====
section
/-!
DEFINITION. Machine/Pool.lean: the pool port agent (R145, R149, R154), Parse's place for its expander's answers, and what it
answers when its port goes down (R126).
-/

namespace Sys2Proof.Machine

/-- R103, R145: the device address of a unit. -/
def deviceAddr (u : FUnit) : Nat := (unpackMem u.payload).gran * 2 ^ 21 + u.line.toNat % 2 ^ 15 * 64

/-- R149: the first MemRd of the port's pair is sent as an M2S request. -/
def poolMemRd (s : State) (p : Nat) : State :=
  match egressHead s p .req with
  | none => s
  | some h =>
    if h.u.type = 8 then
      let x := poolAgent s p
      let g := x.nextTag
      egressTaken (setPool s p { x with reads := x.reads ++ [(g, h.u)], nextTag := (g + 1) % 65536 }) p .req h.id
        (some (.memRd (unpackMem h.u.payload).ld (deviceAddr h.u) (BitVec.ofNat 16 g)))
    else s

/-- POOL_PORT_MEMRD (R149). -/
def execPoolPortMemrd (p : Fin 96) (s : State) : Host.Outcome State Fault Refusal := .next (poolMemRd s p.val)

/-- R154: the agent takes the first MemWr of its pair, while it holds fewer than 512. -/
def poolMemWr (s : State) (p : Nat) : State :=
  match egressHead s p .req with
  | none => s
  | some h =>
    let x := poolAgent s p
    if h.u.type = 9 ∧ x.writes.length < 512 then
      egressTaken (setPool s p { x with writes := x.writes ++ [{ u := h.u, pulled := false, sent := false, link := 0 }] }) p .req
        h.id none
    else s

/-- POOL_PORT_MEMWR (R154). -/
def execPoolPortMemwr (p : Fin 96) (s : State) : Host.Outcome State Fault Refusal := .next (poolMemWr s p.val)

/-- R154: the M2S RwD of write `w` stands in the egress pair of port `p`: it has not been sent on the link. -/
def rwdStands (s : State) (p : Nat) (w : PoolWrite) : Bool :=
  w.sent && (egress s p .dat).any fun e => match e.msg with | some (.memWr _ _ t _ _) => decide (t.toNat = w.link) | _ => false

/-- R154: a line of the write buffer is free: the oldest MemWr not yet pulled is answered WrPull. -/
def wrPull (s : State) (p : Nat) : State :=
  let x := poolAgent s p
  if 256 ≤ (x.writes.filter fun w => w.pulled && (!w.sent || rwdStands s p w)).length then s
  else
    match x.writes.find? fun w => !w.pulled with
    | none => s
    | some w =>
      let ws := x.writes.map fun y => if y = w then { y with pulled := true } else y
      send (setPool s p { x with writes := ws }) (homeRsp 0x1A (portPlace p) w.u.src w.u.tag w.u.line)

/-- WRPULL (R154). -/
def execWrpull (p : Fin 96) (s : State) : Host.Outcome State Fault Refusal := .next (wrPull s p.val)

/-- R154: the first MemData of the port's pair becomes an M2S RwD, whose leaving on the link frees its line of the write buffer. -/
def poolMemData (s : State) (p : Nat) : State :=
  match egressHead s p .dat with
  | none => s
  | some h =>
    let x := poolAgent s p
    match x.writes.find? fun w => w.pulled && !w.sent && decide (w.u.src = h.u.src) && decide (w.u.tag = h.u.tag) with
    | none => egressTaken s p .dat h.id none
    | some w =>
      let g := x.nextTag
      let b := unpackMem w.u.payload
      egressTaken (setPool s p { x with
        writes := x.writes.map fun y => if y = w then { y with sent := true, link := g } else y
        nextTag := (g + 1) % 65536 }) p .dat h.id
        (some (.memWr b.ld (deviceAddr w.u) (BitVec.ofNat 16 g) (h.u.poison || b.wrPoison) h.u.payload))

/-- POOL_PORT_MEMDATA (R154). -/
def execPoolPortMemdata (p : Fin 96) (s : State) : Host.Outcome State Fault Refusal := .next (poolMemData s p.val)

/-- R154: an S2M response of the expander: data for a read, with its MemCmp, or the completion of a write. -/
def expanderResponse (s : State) (p : Nat) (dat : Bool) : State :=
  let x := poolAgent s p
  if dat then
    match ingress s p .dat with
    | { msg := .drs tag poison data, since := _ } :: _ =>
      let s1 := ingressTaken s p .dat
      match x.reads.find? fun q => decide (q.1 = tag.toNat) with
      | none => s1
      | some (g, u) =>
        let b := unpackMem u.payload
        let s2 := setPool s1 p { x with reads := x.reads.filter fun q => decide (q.1 ≠ g) }
        send (send s2 { blankUnit .dat b.grant (portPlace p) b.deliver b.tag u.line with payload := data, poison := poison })
          { homeRsp 0x18 (portPlace p) u.src u.tag u.line with poison := poison }
    | _ => s
  else
    match ingress s p .rsp with
    | { msg := .ndr tag, since := _ } :: _ =>
      let s1 := ingressTaken s p .rsp
      match x.writes.find? fun w => w.sent && decide (w.link = tag.toNat) with
      | none => s1
      | some w =>
        send (setPool s1 p { x with writes := x.writes.filter fun y => decide (y ≠ w) })
          (homeRsp 0x19 (portPlace p) w.u.src w.u.tag w.u.line)
    | _ => s

/-- POOL_PORT_EXPANDER_RESPONSE (R154): the first response on RSP, or on DAT. -/
def execPoolPortExpanderResponse (p : Fin 96) (dat : Bool) (s : State) : Host.Outcome State Fault Refusal :=
  if bridgeOpen s (p.val / 6) (if dat then .dat else .rsp) then .next (expanderResponse s p.val dat) else .next s

/-- R128: the expander's answer with link tag `g` stands in the ingress pair of port `p`. -/
def expanderCame (s : State) (p g : Nat) : Bool :=
  ((ingress s p .dat).any fun m => match m.msg with | .drs t _ _ => decide (t.toNat = g) | _ => false) ||
    (ingress s p .rsp).any fun m => match m.msg with | .ndr t => decide (t.toNat = g) | _ => false

/-- R126, R128: the agent of a port that goes down answers what it has sent and has no answer to, and every MemWr it has not pulled;
data on its way to it is answered when it comes. -/
def poolDown (s : State) (p : Nat) : State :=
  let x := poolAgent s p
  let lostRd := fun (q : Nat × FUnit) => !expanderCame s p q.1
  let lostWr := fun (w : PoolWrite) => if w.sent then !expanderCame s p w.link else !w.pulled
  let s1 := setPool s p { x with reads := x.reads.filter fun q => !lostRd q, writes := x.writes.filter fun w => !lostWr w }
  let s2 := (x.reads.filter lostRd).foldl (fun t q => answerMemRd t p q.2) s1
  (x.writes.filter lostWr).foldl (fun t w => answerMemWr t p w.u) s2

end Sys2Proof.Machine
end

