-- ==== Sys2Proof/Machine/Sess.lean ====
section
/-!
DEFINITION. Machine/Sess.lean: the session's own values of the session-scoped entries (R393), and the closing of sessions (R403).
-/

namespace Sys2Proof.Machine

/-- R393: the value that session `id` holds of entry `idx.sub`. -/
def sessGet (s : State) (id idx sub : Nat) : Nat :=
  match s.spr.sessions.find? fun x => decide (x.id = id) with
  | some x => tabGet (dictDefault idx sub) (odKey idx sub) x.values
  | none => dictDefault idx sub

/-- R393: set the value that session `id` holds of entry `idx.sub`; other sessions keep theirs. -/
def sessSet (s : State) (id idx sub v : Nat) : State :=
  { s with spr := { s.spr with
    sessions := s.spr.sessions.map fun x =>
      if x.id = id then { x with values := tabSet (dictDefault idx sub) (odKey idx sub) v x.values } else x } }

/-- R403, R405: close sessions: their values, subscriptions, notifies and segmented writes are gone. -/
def closeSessions (s : State) (p : Session → Bool) : State :=
  let gone := (s.spr.sessions.filter p).map fun x => x.id
  { s with spr := { s.spr with sessions := s.spr.sessions.filter fun x => !p x
                               segs := s.spr.segs.filter fun g => !gone.contains g.session } }

end Sys2Proof.Machine
end

