-- ==== Sys2Proof/Machine/Moves.lean ====
section
/-!
DEFINITION. Machine/Moves.lean: writing remap entries (R211, R217 to R220), granule moves, salvages and restores (R221 to R229,
R501), and the poison sweep (R103).
-/

namespace Sys2Proof.Machine

/-! ### Move records (R222) -/

/-- Move record `m`, unless it is FREE. -/
def moveRec (s : State) (m : Nat) : Option Move := tabFind? m s.map.moves

/-- Change move record `m`. -/
def setMove (s : State) (m : Nat) (x : Move) : State := { s with map := { s.map with moves := tabPut m x s.map.moves } }

/-- R223, R226: every line of the page in progress has its MemWrCmp, or none is in progress. -/
def Move.settled (x : Move) : Bool := x.lines.all fun l => decide (l = .done)

/-- R228: the move has a page in copy. -/
def Move.inCopy (x : Move) : Bool := x.copying || !x.settled

/-- R501: the layout of a location. -/
def locBits (p : Loc) : Nat := p.port * 2 ^ 28 + p.ld * 2 ^ 24 + p.gran

/-- R222: the 16 bytes of a record. -/
def Move.bits (x : Move) : Nat :=
  let st := match x.state with | .starting => 1 | .copying => 2 | .finishing => 3 | .salvaging => 4 | .restoring => 5
  st * 2 ^ 125 + (if x.copying then 2 ^ 124 else 0) + (if x.restore then 2 ^ 123 else 0) + x.front * 2 ^ 113 +
    x.attempts * 2 ^ 105 + x.gran * 2 ^ 82 + locBits x.dest * 2 ^ 47 + x.abandons

/-- OD 5022.00: the move table. -/
def moveTableBytes (s : State) : List Byte :=
  (List.range 1024).flatMap fun m => leBytes 16 (match moveRec s m with | some x => x.bits | none => 0)

/-! ### The remap write engine (R217, R220) -/

/-- R217: the engine takes a write: it writes the backing and sends the entry to all slices. -/
def startWrite (s : State) (w : RemapWrite) : State :=
  setBacking { s with map := { s.map with write := some w } } w.gran w.entry

/-- R220: the tier mover asks for a write. -/
def askWrite (s : State) (w : RemapWrite) : State :=
  match s.map.write with
  | none => startWrite s w
  | some _ => { s with map := { s.map with waiting := s.map.waiting ++ [w] } }

/-- A write of the granule's entry is applying or waits. -/
def writingGran (s : State) (g : Nat) : Bool :=
  (match s.map.write with | some w => decide (w.gran = g) | none => false) || s.map.waiting.any fun w => decide (w.gran = g)

/-- R211: a software write of this value is refused. -/
def entryRefused (v : Nat) : Bool :=
  let st := bits v 47 45
  decide (st = 2) || decide (4 < st) || decide (95 < bits v 34 28)

/-- R211: the entry that a software write leaves: Generation as it was, reserved bits zero. -/
def writtenEntry (s : State) (g v : Nat) : BitVec 48 :=
  mkEntry (bits v 47 45) (entGen (backing s g)) (bits v 34 28) (bits v 27 24) (bits v 23 0)

/-- R217: a software write of the entry of granule `g`. -/
def remapEntryWrite (s : State) (g v : Nat) : State × Status :=
  if entryRefused v then (s, .outOfRange)
  else if (moveOf s g).isSome || s.map.write.isSome then (s, .busy)
  else (odSet (startWrite s { gran := g, entry := writtenEntry s g v, writer := .software }) 0x5010 3 1, .ok)

/-- REMAP_ENTRY_WRITE (R217): a write of OD 5010.02 with granule `g` selected. -/
def execRemapEntryWrite (g : Fin 8388608) (v : BitVec 64) (s : State) : Host.Outcome State Fault Refusal :=
  answered (remapEntryWrite s g.val v.toNat)

/-! ### The end of a move (R224, R501) -/

/-- R501: the location that the notify names. -/
def Move.named (x : Move) : Loc :=
  match x.outcome with
  | 0 => x.old | 1 => x.old | 3 => x.old
  | _ => x.dest

/-- R501, R223: the record of move `m` is freed. -/
def moveFree (s : State) (m : Nat) : State :=
  match moveRec s m with
  | none => s
  | some x =>
    let left := tabDel m s.map.moves
    let s1 := { s with map := { s.map with
      moves := left
      ended := match x.owner with | some o => s.map.ended ++ [(o, x.outcome, x.front)] | none => s.map.ended } }
    let s2 := if x.outcome = 0 ∨ x.outcome = 4 then bumpC s1 0xC025 4 else s1
    notify (odSet s2 0x5020 4 left.length) 0x5020 4 left.length
      (BitVec.ofNat 64 (m * 2 ^ 54 + x.front * 2 ^ 44 + x.outcome * 2 ^ 40 + locBits x.named))

/-- R224: a memory operation on granule `g` that carries Generation `gen` is outstanding in slice `x`. -/
def usesGen (x : HomeSlice) (g : Nat) (gen : Bool) : Bool :=
  let hit := fun (line : BitVec 42) (p : Option Loc) =>
    inSpan line && decide (granOf line = g) && match p with | some q => decide (q.gen = gen) | none => false
  (x.trk.any fun k => decide (k.2.phase = .mem) && hit k.2.line k.2.loc) || (x.buf.any fun e => hit e.2.line e.2.loc)

/-- R224: every slice reports granule `g` clear of Generation `gen`. -/
def granuleClear (s : State) (g : Nat) (gen : Bool) : Bool := s.home.slices.all fun p => !usesGen p.2 g gen

/-- R227: a line of granule `g` is still to be released from POISONED by its tracker. -/
def releasing (s : State) (g : Nat) : Bool :=
  s.home.slices.any fun p => p.2.trk.any fun k => k.2.release && inSpan k.2.line && decide (granOf k.2.line = g)

/-- R223 step 8, R224, R227: the record of an ended move whose entry has been written is freed once the granule is clear, or, after
a restore, released. -/
def moveClear (s : State) (m : Nat) : State :=
  match moveRec s m with
  | none => s
  | some x =>
    let clear :=
      if x.outcome = 6 then true
      else if x.outcome = 4 then !releasing s x.gran
      else granuleClear s x.gran x.old.gen
    if x.finalDone && x.settled && clear then moveFree s m else s

/-- MOVE_GRANULE_CLEAR (R224): every slice reports the granule of move `m` clear. -/
def execMoveGranuleClear (m : Fin 1024) (s : State) : Host.Outcome State Fault Refusal := .next (moveClear s m.val)

/-! ### Poison release (R227) -/

/-- R227: every slice releases the POISONED lines of granule `g`; a line with an active tracker when that completes. -/
def poisonRelease (s : State) (g : Nat) : State :=
  let mine := fun (line : BitVec 42) => inSpan line && decide (granOf line = g)
  let s1 := (List.range 32).foldl (fun t l =>
    let x := slice t l
    setSlice t l { x with trk := x.trk.map fun p => if mine p.2.line then (p.1, { p.2 with release := true }) else p }) s
  s1.dir.cache.foldl (fun t p =>
    if mine p.2.line && decide (p.2.st = .poisoned) && !p.2.pinned then putState t (homeSlice p.2.line) p.2.line .invalid else t) s1

/-! ### Losses (R103, R502) -/

/-- The location lies on port `p` at an LD of the mask. -/
def onLost (p : Nat) (mask : BitVec 16) (q : Loc) : Bool := decide (q.port = p) && mask.getLsbD q.ld

/-- R220: the sweep sets an entry to POISONED, its location unchanged. -/
def sweepEntry (s : State) (g : Nat) : State :=
  let e := withEntState (backing s g) 4
  bumpC (applyEntry (setBacking s g e) g e) 0xC025 3

/-- R103: an entry just written at a location that is down or lost is swept with it. -/
def sweepIfLost (s : State) (g : Nat) : State :=
  let e := backing s g
  if entState e = 1 ∧ !locUp s (entLoc e) then sweepEntry s g else s

/-! ### Completion of a write (R217, R223, R227) -/

/-- R223, R225 to R227: the entry that move `m` asked for has been applied: its last one, or MOVING. -/
def moveWritten (s : State) (m g : Nat) (last : Bool) : State :=
  match moveRec s m with
  | none => s
  | some x =>
    if last then
      let s1 := sweepIfLost (setMove s m { x with finalDone := true }) g
      if x.outcome = 4 then moveClear (poisonRelease s1 g) m
      else if x.outcome = 6 then moveClear s1 m
      else s1
    else if x.state = .starting then setMove s m { x with state := .copying }
    else s

/-- R217: every slice has applied the entry, and the write completes; R220: the next one is taken. -/
def writeDone (s : State) : State :=
  match s.map.write with
  | none => s
  | some w =>
    let s1 := bumpC (applyEntry { s with map := { s.map with write := none } } w.gran w.entry) 0xC025 3
    let s2 := match w.writer with
      | .software => odSet s1 0x5010 3 2
      | .mover m => moveWritten s1 m w.gran (decide (entState w.entry ≠ 2))
    match s2.map.waiting with
    | [] => s2
    | n :: rest => startWrite { s2 with map := { s2.map with waiting := rest } } n

/-- REMAP_WRITE_COMPLETE (R217). -/
def execRemapWriteComplete (s : State) : Host.Outcome State Fault Refusal := .next (writeDone s)

/-! ### Bulk load (R219) -/

/-- R219: one run record is applied to the backing; none where it is refused. -/
def applyRun (s : State) (r : BitVec 128) : Option State :=
  let n := (r.extractLsb' 96 32).toNat
  let g := (r.extractLsb' 64 23).toNat
  let e := (r.extractLsb' 0 48).toNat
  if n = 0 ∨ 8388608 < g + n ∨ 2 ^ 24 < bits e 23 0 + n ∨ entryRefused e then none
  else
    some ((List.range n).foldl (fun t i =>
      setBacking t (g + i)
        (mkEntry (bits e 47 45) (entGen (backing t (g + i))) (bits e 34 28) (bits e 27 24) (bits e 23 0 + i))) s)

/-- R219: run records in order; the transfer stops at a refused one. -/
def applyRuns (s : State) : List (BitVec 128) → State × Status
  | [] => (s, .ok)
  | r :: rest =>
    match applyRun s r with
    | none => (s, .outOfRange)
    | some t => applyRuns t rest

/-- R219: a bulk load. -/
def bulkLoad (s : State) (rs : List (BitVec 128)) : State × Status :=
  if odGet s 0x5012 2 = 1 then (s, .busy) else applyRuns s rs

/-- REMAP_BULK_LOAD (R219): a segment of OD 5011.00. -/
def execRemapBulkLoad (records : List (BitVec 128)) (s : State) : Host.Outcome State Fault Refusal :=
  answered (bulkLoad s records)

/-! ### Starting a move (R221, R230) -/

/-- R221: start a move or a restore: the record taken, or the refusal. -/
def startMove (s : State) (g : Nat) (dest : Nat) (restore : Bool) (owner : Option (Nat × Nat)) : State × Except Status Nat :=
  let e := backing s g
  if (moveOf s g).isSome || writingGran s g then (s, .error .busy)
  else
    match (List.range 1024).find? fun m => (moveRec s m).isNone with
    | none => (s, .error .tableFull)
    | some m =>
      if entState e ≠ (if restore then 4 else 1) then (s, .error .wrongState)
      else
        let x : Move :=
          { state := if restore then .restoring else .starting, copying := false, restore := restore, front := 0, attempts := 0
            gran := g, dest := { port := bits dest 34 28, ld := bits dest 27 24, gran := bits dest 23 0, gen := !entGen e }
            abandons := 0, old := entLoc e, clear := false, lines := [], stale := none, started := 0, notBefore := 0, stalled := false
            lostSrc := false, lostDst := false, salvage := [], finalAsked := false, finalDone := false, outcome := 0
            owner := owner }
        let s1 := setMove s m x
        let s2 := odSet s1 0x5020 4 s1.map.moves.length
        (if restore then s2 else askWrite s2 { gran := g, entry := withEntState e 2, writer := .mover m }, .ok m)

/-- R221: the status of the move command, in the values of session `sess`. -/
def moveExecute (s : State) (sess g dest : Nat) (restore : Bool) : State × Status :=
  match startMove s g dest restore none with
  | (s1, .ok m) => (sessSet (sessSet s1 sess 0x5021 5 1) sess 0x5021 6 m, .ok)
  | (s1, .error st) =>
    (sessSet s1 sess 0x5021 5 (match st with | .busy => 2 | .tableFull => 3 | _ => 4), st)

/-- MOVE_EXECUTE (R221): COMMAND on OD 5021.04 in session `sess`, with the parameters of OD 5021.01 to .03. -/
def execMoveExecute (sess : BitVec 32) (g : Fin 8388608) (dest : BitVec 64) (restore : Bool) (s : State) :
    Host.Outcome State Fault Refusal :=
  answered (moveExecute s sess.toNat g.val dest.toNat restore)

/-! ### Pages (R223, R224, R228) -/

/-- The line `i` of page `p` of a granule. -/
def pageLine (g p i : Nat) : BitVec 42 := BitVec.ofNat 42 (g * 2 ^ 15 + p * 64 + i)

/-- The tag of line `i` of move `m`. -/
def moveTag (m i : Nat) : BitVec 16 := BitVec.ofNat 16 (m * 64 + i)

/-- R223, R145: the tier mover's MemRd or MemWr of line `i` of page `p` at a location. -/
def moverMem (ty m : Nat) (x : Move) (p i : Nat) (q : Loc) (wrPoison : Bool) : FUnit :=
  { blankUnit .req ty moverPlace (portPlace q.port) (moveTag m i) (pageLine x.gran p i) with
    payload := packMem { deliver := if ty = 8 then moverPlace else 0, tag := if ty = 8 then moveTag m i else 0, grant := 0
                         port := q.port, ld := q.ld, gran := q.gran, wrPoison := wrPoison } }

/-- The location that the page in progress is written to. -/
def Move.target (x : Move) : Loc := if x.state = .salvaging ∧ x.lostDst then x.old else x.dest

/-- The page in progress. -/
def Move.page (x : Move) : Nat :=
  match x.stale with
  | some p => p
  | none => if x.state = .salvaging then x.salvage.headD x.front else x.front

/-- The attempt in progress ends; its lines stay listed until they have been answered. -/
def Move.halt (x : Move) : Move := { x with stale := if x.lines.isEmpty then none else some x.page }

/-- R228: a page may start: fewer than 64 are in copy, the bandwidth limit and the governor allow it, and the device is not in
the safe state (R229). -/
def pageToken? (s : State) (cost : Nat) : Option State :=
  if s.flt.safe || decide (64 ≤ (s.map.moves.filter fun p => p.2.inCopy).length) then none else spend? s 1 cost

/-- R228: the pacing of bytes read or zero-filled: a page's 4,096 bytes at the limit in bytes per ns, rounded up to whole ns. -/
def paced (s : State) : State :=
  let limit := odGet s 0x5020 1
  { s with map := { s.map with paceNext := max s.time.clock s.map.paceNext + (4096 + limit - 1) / limit } }

/-- A page is written with the same data in every line: MemWr of its 64 lines are sent. -/
def writePage (s : State) (m : Nat) (x : Move) (data : LineData) (poison : Bool) : State :=
  let x1 := { x with lines := List.replicate 64 (.got data poison), stale := none }
  sendAll (setMove s m x1) ((List.range 64).map fun i => moverMem 9 m x1 x1.page i x1.target poison)

/-- R223 step 3, R227: the page at Front becomes the page being copied, or a restore fills it. -/
def pageStart (s : State) (m : Nat) : State :=
  match moveRec s m with
  | none => s
  | some x =>
    if x.inCopy || decide (512 ≤ x.front) || decide (s.time.clock < x.notBefore) || decide (s.time.clock < s.map.paceNext) then s
    else
      match x.state with
      | .copying =>
        if x.finalAsked then s
        else
          match pageToken? s 30 with
          | some s1 =>
            setMove (paced s1) m { x with copying := true, clear := false, started := s.time.clock, lines := [], stale := none }
          | none => s
      | .restoring =>
        match pageToken? s 15 with
        | some s1 => writePage (paced s1) m x 0 false
        | none => s
      | _ => s

/-- MOVE_PAGE_START (R223). -/
def execMovePageStart (m : Fin 1024) (s : State) : Host.Outcome State Fault Refusal := .next (pageStart s m.val)

/-- R223 step 4: slice `x` holds an operation on a page resolved to location `q`. -/
def usesPage (x : HomeSlice) (g p : Nat) (q : Loc) : Bool :=
  let hit := fun (line : BitVec 42) (r : Option Loc) =>
    inSpan line && decide (granOf line = g) && decide (pageOf line = p) &&
      match r with | some z => decide (z.port = q.port ∧ z.ld = q.ld ∧ z.gran = q.gran) | none => false
  (x.trk.any fun k => decide (k.2.phase = .mem) && hit k.2.line k.2.loc) || (x.buf.any fun e => hit e.2.line e.2.loc)

/-- R223 steps 4 and 5: every slice reports the page clear, and its 64 lines are read. -/
def pageClear (s : State) (m : Nat) : State :=
  match moveRec s m with
  | none => s
  | some x =>
    if x.copying && !x.clear && !(s.home.slices.any fun p => usesPage p.2 x.gran x.front x.old) then
      let x1 := { x with clear := true, lines := List.replicate 64 .reading }
      sendAll (setMove s m x1) ((List.range 64).map fun i => moverMem 8 m x1 x1.front i x1.old false)
    else s

/-- MOVE_PAGE_CLEAR (R223). -/
def execMovePageClear (m : Fin 1024) (s : State) : Host.Outcome State Fault Refusal := .next (pageClear s m.val)

/-- R223: operations held at a page resolve in arrival order with the entry as it now is. -/
def releasePage (s : State) (g p : Nat) : State :=
  let mine := fun (q : Nat × Nat × RemapOp) => decide (q.1 = g) && decide (q.2.1 = p)
  (List.range 32).foldl (fun t l =>
    let x := slice t l
    let held := x.paged.filter mine
    held.foldl (fun r q =>
      let r1 := match q.2.2 with
        | .read k => (match tracker r l k with | some y => setTracker r l k { y with phase := .mem } | none => r)
        | .write b => (match bufEntry r l b with | some y => setBuf r l b { y with stage := .waiting } | none => r)
      remapWith r1 l g p q.2.2 (backing r1 g)) (setSlice t l { x with paged := x.paged.filter fun q => !mine q })) s

/-- R226, R217: the entry at the end of a salvage; in the safe state it stays MOVING (R229). -/
def salvageEnd (s : State) (m : Nat) (x : Move) : State :=
  let e := backing s x.gran
  let both := x.lostSrc && x.lostDst
  let to_ := if x.lostDst then x.old else x.dest
  let e1 := if both then withEntState e 4 else mkEntry 1 (!entGen e) to_.port to_.ld to_.gran
  let out := if both then 3 else if x.lostSrc then 1 else 2
  let y := { x.halt with salvage := [] }
  if s.flt.safe then setMove s m y
  else askWrite (setMove s m { y with finalAsked := true, outcome := out }) { gran := x.gran, entry := e1, writer := .mover m }

/-- R223 step 6: the last MemWrCmp of the page has come. In the safe state the entry stays MOVING after the last page (R229). -/
def pageComplete (s : State) (m : Nat) : State :=
  match moveRec s m with
  | none => s
  | some x =>
    if x.lines.isEmpty || !x.settled then s
    else if x.stale.isSome then setMove s m { x with lines := [], stale := none }
    else if x.copying then
      let x1 := { x with front := x.front + 1, copying := false, clear := false, lines := [], attempts := 0, notBefore := 0 }
      let s1 := releasePage (bumpC (setMove s m x1) 0xC025 5) x.gran x.front
      if x1.front = 512 ∧ !s.flt.safe then
        askWrite (setMove s1 m { x1 with state := .finishing, finalAsked := true, outcome := 0 })
          { gran := x.gran, entry := mkEntry 1 (!x.old.gen) x.dest.port x.dest.ld x.dest.gran, writer := .mover m }
      else s1
    else
      match x.state with
      | .restoring => setMove s m { x with front := x.front + 1, lines := [] }
      | .salvaging => setMove s m { x with salvage := x.salvage.tail, lines := [] }
      | _ => setMove s m { x with lines := [] }

/-- MOVE_PAGE_COMPLETE (R223). -/
def execMovePageComplete (m : Fin 1024) (s : State) : Host.Outcome State Fault Refusal := .next (pageComplete s m.val)

/-- R224: the attempt on the page at Front is abandoned. Lines on their way stay listed until they have been answered. -/
def abandonPage (s : State) (m : Nat) (x : Move) : State :=
  let tries := min 255 (x.attempts + 1)
  let limit := decide (odGet s 0x5020 3 ≤ tries)
  let x1 :=
    { x.halt with
      copying := false, clear := false, attempts := tries, abandons := min 65535 (x.abandons + 1), stalled := x.stalled || limit
      notBefore := s.time.clock + (if limit then 1000000 else 16000) }
  let s1 := bumpC (setMove s m x1) 0xC025 6
  let s2 := if limit && !x.stalled then raiseFault s1 437 0 (m * 2 ^ 32 + x.gran) else s1
  releasePage s2 x.gran x.front

/-- MOVE_PAGE_ABANDON (R224): the page hold limit passes before the page of move `m` completes. -/
def execMovePageAbandon (m : Fin 1024) (s : State) : Host.Outcome State Fault Refusal :=
  match moveRec s m.val with
  | some x => if x.copying then .next (abandonPage s m.val x) else .next s
  | none => .next s

/-! ### Salvage and restore (R226, R227) -/

/-- R226: the next page of a salvage is written with Write poison; after the last, the entry is written. -/
def salvagePage (s : State) (m : Nat) : State :=
  match moveRec s m with
  | none => s
  | some x =>
    if x.state ≠ .salvaging ∨ x.restore ∨ x.finalAsked ∨ !x.lines.isEmpty then s
    else
      match x.salvage with
      | [] => salvageEnd s m x
      | _ :: _ =>
        match pageToken? s 30 with
        | some s1 => writePage s1 m x Config.poisonData true
        | none => s

/-- SALVAGE_PAGE (R226). -/
def execSalvagePage (m : Fin 1024) (s : State) : Host.Outcome State Fault Refusal :=
  .next (salvagePage (pageComplete s m.val) m.val)

/-- R227: the zero-fill has completed, and the entry is written MAPPED at the destination, unless in the safe state (R229). -/
def restoreFilled (s : State) (m : Nat) : State :=
  match moveRec s m with
  | none => s
  | some x =>
    if x.state = .restoring ∧ x.front = 512 ∧ !x.finalAsked ∧ !s.flt.safe then
      askWrite (setMove s m { x with finalAsked := true, outcome := 4 })
        { gran := x.gran, entry := mkEntry 1 (!x.old.gen) x.dest.port x.dest.ld x.dest.gran, writer := .mover m }
    else s

/-- RESTORE_FILL_COMPLETE (R227). -/
def execRestoreFillComplete (m : Fin 1024) (s : State) : Host.Outcome State Fault Refusal := .next (restoreFilled s m.val)

/-- The write that move `m` waits to have taken is withdrawn. -/
def dropWaiting (s : State) (m : Nat) : State :=
  { s with map := { s.map with
    waiting := s.map.waiting.filter fun w => match w.writer with | .mover k => decide (k ≠ m) | .software => true } }

/-- R227: a restore ends without MAPPED. -/
def restoreLost (s : State) (m : Nat) (x : Move) : State :=
  setMove (dropWaiting s m) m
    { x.halt with state := .salvaging, outcome := 5, finalAsked := true, finalDone := true, lostDst := true }

/-- The write of a restore's final entry has been taken. -/
def finalTaken (s : State) (x : Move) : Bool :=
  x.finalAsked && !(s.map.waiting.any fun w => decide (w.gran = x.gran))

/-- R226, R227: locations on port `p` at an LD of the mask are lost to move `m`. Once the engine has taken its last write, a loss is
one of a mapped location (R103). -/
def moveLost (s : State) (p : Nat) (mask : BitVec 16) (m : Nat) : State :=
  match moveRec s m with
  | none => s
  | some x =>
    let dst := onLost p mask x.dest
    let src := onLost p mask x.old
    if x.restore then
      if dst && decide (x.state = .restoring) && !finalTaken s x then restoreLost s m x else s
    else if !(src || dst) || finalTaken s x || (x.finalAsked && decide (x.state ≠ .finishing)) || x.finalDone then s
    else
      let s0 := if x.finalAsked then setMove (dropWaiting s m) m { x with finalAsked := false } else s
      let s1 := if x.copying then abandonPage s0 m x else s0
      match moveRec s1 m with
      | none => s1
      | some y =>
        let z := { y with state := .salvaging, lostSrc := y.lostSrc || src, lostDst := y.lostDst || dst, notBefore := 0 }
        if z.lostSrc && z.lostDst then salvageEnd s1 m z
        else if y.state = .salvaging then setMove s1 m z
        else
          let pages := (List.range 512).filter fun i => if z.lostSrc then decide (z.front ≤ i) else decide (i < z.front)
          if pages.isEmpty then salvageEnd s1 m { z with salvage := [] } else setMove s1 m { z with salvage := pages }

/-- R226: a loss reaches every move. -/
def moveLoss (s : State) (p : Nat) (mask : BitVec 16) : State :=
  (tabKeys s.map.moves).foldl (fun t m => moveLost t p mask m) s

/-- R225: the move may be cancelled. -/
def moveCancel (s : State) (m : Nat) : State × Status :=
  match moveRec s m with
  | none => (s, .busy)
  | some x =>
    if x.state = .copying ∧ x.front = 0 ∧ !x.copying ∧ !x.finalAsked then
      (askWrite (setMove s m { x with finalAsked := true, outcome := 6 })
        { gran := x.gran, entry := withEntState (backing s x.gran) 1, writer := .mover m }, .ok)
    else (s, .busy)

/-- MOVE_CANCEL (R225): COMMAND on OD 5023.01 with move number `m`. -/
def execMoveCancel (m : Fin 1024) (s : State) : Host.Outcome State Fault Refusal := answered (moveCancel s m.val)

/-! ### Answers to the tier mover (R223) -/

/-- Line `i` of move `m` comes to `st`. -/
def setLine (s : State) (m : Nat) (x : Move) (i : Nat) (st : LineSt) : State :=
  setMove s m { x with lines := x.lines.set i st }

/-- R223: data for a line that is being read: it is written to the destination, unless the attempt has been abandoned. -/
def lineRead (s : State) (m : Nat) (x : Move) (i : Nat) (d : LineData) (poison : Bool) : State :=
  if x.copying then send (setLine s m x i (.got d poison)) (moverMem 9 m x x.front i x.dest poison)
  else setLine s m x i .done

/-- The unit from the pool port agent, for line `tag % 64` of move `tag / 64`. -/
def moverAnswer (s : State) (u : FUnit) : State :=
  let m := u.tag.toNat / 64
  let i := u.tag.toNat % 64
  match moveRec s m with
  | none => s
  | some x =>
    match x.lines[i]? with
    | none => s
    | some st =>
      if u.line ≠ pageLine x.gran x.page i then s
      else if u.vn = .dat then (if st = .reading then lineRead s m x i u.payload u.poison else s)
      else
        match u.type.toNat with
        | 0x1A =>
          match st with
          | .got d poison =>
            send (setLine s m x i .writing)
              { blankUnit .dat 0xC moverPlace u.src u.tag u.line with payload := d, poison := poison }
          | _ => s
        | 0x19 => if st = .reading then s else setLine s m x i .done
        | 0x3F => if st = .reading then lineRead s m x i Config.poisonData true else setLine s m x i .done
        | _ => s

/-- TIER_MOVER_RESPONSE (R223): the tier mover takes the first unit of its DAT or RSP queue. -/
def execTierMoverResponse (dat : Bool) (s : State) : Host.Outcome State Fault Refusal :=
  let v := if dat then Vn.dat else Vn.rsp
  match ejectBuf s moverStop 1 v with
  | [] => .next s
  | h :: rest => .next (moverAnswer (setEjectBuf s moverStop 1 v rest) h.u)

/-! ### Sweep and abandons (R103, R201, R220) -/

/-- R220: the sweep changes an entry: MAPPED or SHARED-TARGET at a lost location, and not the entry of a move. -/
def sweeps (s : State) (p : Nat) (mask : BitVec 16) (g : Nat) : Bool :=
  let e := backing s g
  (decide (entState e = 1) || decide (entState e = 3)) && onLost p mask (entLoc e) &&
    match moveOf s g with
    | some (_, x) => x.finalDone
    | none => true

/-- R103: the first sweep handles the next 512 entries, which is 4 KiB of the backing. -/
def sweepStep (s : State) : State :=
  match s.port.sweeps with
  | [] => s
  | (p, mask, g) :: rest =>
    let hits := (List.range 512).filter fun i => sweeps s p mask (g + i)
    if (List.range 512).any fun i => writingGran s (g + i) && sweeps s p mask (g + i) then s
    else
      match spend? s 0 (if hits.isEmpty then 22 else 45) with
      | none => s
      | some s1 =>
        let s2 := hits.foldl (fun t i => sweepEntry t (g + i)) s1
        { s2 with port := { s2.port with
          sweeps := if 8388608 ≤ g + 512 then rest else (p, mask, g + 512) :: rest } }

/-- POISON_SWEEP_STEP (R103). -/
def execPoisonSweepStep (s : State) : Host.Outcome State Fault Refusal := .next (sweepStep s)

/-- R103: a location is lost: moves that use it are settled, and a sweep starts. -/
def poolLost (s : State) (p : Nat) (mask : BitVec 16) : State :=
  let s1 := moveLoss s p mask
  { s1 with port := { s1.port with sweeps := s1.port.sweeps ++ [(p, mask, 0)] } }

/-- R220: an abandon reaches granule `g`. -/
def abandonGranule (s : State) (g : Nat) : State :=
  let s0 := match s.map.write with
    | some w => if w.gran = g then writeDone s else s
    | none => s
  match moveOf s0 g with
  | none => sweepEntry s0 g
  | some (m, x) =>
    if x.restore then
      if x.state = .restoring ∧ !x.finalDone then restoreLost s0 m x else sweepEntry s0 g
    else if x.finalDone then sweepEntry s0 g
    else
      let s1 := sweepEntry (dropWaiting s0 m) g
      let s2 := if x.copying then abandonPage s1 m x else s1
      match moveRec s2 m with
      | none => s2
      | some y => setMove s2 m { (if y.stale.isSome then y else y.halt) with state := .finishing, finalAsked := true, finalDone := true, outcome := 3 }

/-- R201: the granules of local pool addresses `lo` to `hi` are set POISONED. -/
def abandonRange (s : State) (lo hi : Nat) : State :=
  let a := lo / 2 ^ 21
  let b := min (hi / 2 ^ 21) 8388607
  (List.range (b + 1 - a)).foldl (fun t i => abandonGranule t (a + i)) s

end Sys2Proof.Machine
end

