-- ==== Sys2Proof/Machine/MovExec.lean ====
section
/-!
DEFINITION. Machine/MovExec.lean: descriptors and their execution (R289 to R299, R301, R302, R310, R313).
-/

namespace Sys2Proof.Machine

/-! ### Queues -/

/-- Submission queue `q` and completion queue `q`, by global number. -/
def sq (s : State) (q : Nat) : SubQ := tabGet subReset q s.mov.sqs
def setSq (s : State) (q : Nat) (x : SubQ) : State := { s with mov := { s.mov with sqs := tabSet subReset q x s.mov.sqs } }
def cq (s : State) (q : Nat) : CompQ := tabGet compReset q s.mov.cqs
def setCq (s : State) (q : Nat) (x : CompQ) : State := { s with mov := { s.mov with cqs := tabSet compReset q x s.mov.cqs } }

/-- R273: the global number of local queue `loc` of function `fn`. -/
def sqOf (s : State) (fn loc : Nat) : Option Nat :=
  (s.mov.sqs.find? fun p => decide (p.2.owner = fn + 1) && decide (p.2.loc = loc)).map Prod.fst
def cqOf (s : State) (fn loc : Nat) : Option Nat :=
  (s.mov.cqs.find? fun p => decide (p.2.owner = fn + 1) && decide (p.2.loc = loc)).map Prod.fst

/-! ### Descriptor fields (R289, R291, R292) -/

def dMark (d : BitVec 512) : Nat := (d.extractLsb' 504 8).toNat
def dUnit (d : BitVec 512) : Nat := (d.extractLsb' 480 8).toNat
def dFlag (d : BitVec 512) (i : Nat) : Bool := d.getLsbD (464 + i)
def dVer (d : BitVec 512) : Nat := (d.extractLsb' 456 8).toNat
def dOp (d : BitVec 512) : Nat := (d.extractLsb' 448 8).toNat
def dByte (d : BitVec 512) (i : Nat) : BitVec 8 := d.extractLsb' (192 + 8 * i) 8
def dAux (d : BitVec 512) : Nat := (d.extractLsb' 160 32).toNat
def dLen (d : BitVec 512) : Nat := (d.extractLsb' 128 32).toNat
def dB (d : BitVec 512) : Nat := (d.extractLsb' 64 64).toNat
def dA (d : BitVec 512) : Nat := (d.extractLsb' 0 64).toNat

/-- R291: flags. -/
def fInterrupt (d : BitVec 512) : Bool := dFlag d 15
def fQuiet (d : BitVec 512) : Bool := dFlag d 14
def fFence (d : BitVec 512) : Bool := dFlag d 13
def fCheck (d : BitVec 512) : Bool := dFlag d 12
def fResume (d : BitVec 512) : Bool := dFlag d 11
def fSave (d : BitVec 512) : Bool := dFlag d 10
def fFinal (d : BitVec 512) : Bool := dFlag d 9
def fCompare (d : BitVec 512) : Bool := dFlag d 8

/-- R292: operands of a CHECK. -/
def cExpected (d : BitVec 512) : BitVec 64 := d.extractLsb' 192 64
def cAlive (d : BitVec 512) : BitVec 32 := d.extractLsb' 256 32
def cWidth (d : BitVec 512) : BitVec 8 := dByte d 12
def cAlg (d : BitVec 512) : BitVec 8 := dByte d 13
def cContext (d : BitVec 512) : Nat := (d.extractLsb' 320 64).toNat

/-- R291: the descriptor runs a check unit. -/
def usesUnit (d : BitVec 512) : Bool := decide (dOp d = 5) || (decide (dOp d = 1) && fCheck d)

/-- R293: operation and width of an ATOMIC. -/
def aKind (d : BitVec 512) : Option AtomKind :=
  match dUnit d / 16 with | 0 => some .fetchAdd | 1 => some .swap | 2 => some .cas | _ => none
def aWidth (d : BitVec 512) : Nat := if dUnit d % 16 = 4 then 16 else 8

/-- R287: the mark of a device-owned descriptor at index `i` of a ring of 2^n. -/
def ownMark (n : Nat) (i : BitVec 32) : Nat := 0x80 + i.toNat / 2 ^ n % 2

/-- The rows of the table of commands that dispatch descriptors. -/
inductive DescRow where
  | nop | copy | fill | zero | compare | check | fetchAdd | swap | cas | flush | fence | mark | migrate
  deriving DecidableEq, Repr

/-- R290, R293: what a descriptor read with mark `own` is; none where its opcode or operation is reserved, or its mark is not
that of a device-owned descriptor. -/
def rowOf (own : Nat) (d : BitVec 512) : Option DescRow :=
  if dMark d ≠ own then none
  else
    match dOp d with
    | 0 => some .nop | 1 => some .copy | 2 => some .fill | 3 => some .zero | 4 => some .compare | 5 => some .check
    | 6 => match aKind d with | some .fetchAdd => some .fetchAdd | some .swap => some .swap | some .cas => some .cas | none => none
    | 7 => some .flush | 8 => some .fence | 9 => some .mark | 10 => some .migrate
    | _ => none

/-! ### Checks (R294) -/

/-- R290: the opcode is not defined for the queue's version or the function. -/
def badOpcode (fmt fn : Nat) (d : BitVec 512) : Bool :=
  decide (10 < dOp d) || (decide (fmt < 2) && decide (9 ≤ dOp d)) || (decide (dOp d = 10) && decide (fn < 1024))

/-- R292: Length, or Aux, outside the opcode's range. Alive checking needs a block that holds the counter. -/
def badLength (d : BitVec 512) : Bool :=
  let len := dLen d
  let blockBad :=
    let legal := decide (64 ≤ dAux d) && decide (dAux d ≤ 16777216) && decide (dAux d % 64 = 0)
    if cWidth d = 0 then decide (dAux d ≠ 0) && !legal
    else !legal || decide (len % max 1 (dAux d) ≠ 0) || decide (dAux d < (cAlive d).toNat + aliveBytes (cWidth d))
  let unitBad := usesUnit d && (blockBad || (decide (cAlg d = 3) && !fFinal d && decide (len % 4 ≠ 0)))
  match dOp d with
  | 1 => decide (len = 0) || unitBad
  | 2 => decide (len = 0) || !(decide (dAux d = 8) || decide (dAux d = 16) || decide (dAux d = 32))
  | 3 => decide (len = 0)
  | 4 => decide (len = 0)
  | 5 => decide (len = 0) || unitBad
  | 6 => decide (len ≠ 0) || !(decide (dUnit d % 16 = 3) || decide (dUnit d % 16 = 4)) ||
      (decide (dUnit d % 16 = 4) && decide (dB d = 0))
  | 7 => decide (len % 64 ≠ 0)
  | _ => decide (len ≠ 0)

/-- R291, R293, R312: a flag that is not allowed, a reserved atomic operation, an operand beyond the width, or an algorithm or
width that is out of range. -/
def badFlags (vectors : Bool) (d : BitVec 512) : Bool :=
  let op := dOp d
  let unit := usesUnit d
  decide ((d.extractLsb' 464 8) ≠ 0) ||
    (fCheck d && decide (op ≠ 1)) ||
    (!unit && (fResume d || fSave d || fFinal d || fCompare d)) ||
    (fCompare d && !fFinal d) ||
    (fInterrupt d && !vectors) ||
    (unit && (decide (3 < (cAlg d).toNat) || decide (2 < (cWidth d).toNat))) ||
    (decide (op = 6) && ((aKind d).isNone ||
      (decide (dUnit d % 16 = 3) && (decide (d.extractLsb' 256 64 ≠ 0) || decide (d.extractLsb' 384 64 ≠ 0)))))

/-- R294: the lowest status of the checks that fail. -/
def malformed (s : State) (fmt fn own : Nat) (v : Nat) (d : BitVec 512) : Option Nat :=
  if dMark d ≠ own then some 0x16
  else if badOpcode fmt fn d then some 0x10
  else if badLength d then some 0x11
  else if badFlags (!(func s fn).vecOn.isEmpty) d then some 0x12
  else if dVer d ≠ fmt then some 0x13
  else if dOp d = 6 ∧ dA d % aWidth d ≠ 0 then some 0x14
  else if usesUnit d ∧ (15 < dUnit d ∨ odGet s (0x7400 + dUnit d) 1 ≠ fn) then some 0x15
  else if dOp d = 6 ∧ (decodeAddr s v (dA d)).isNone then some 0x17
  else none

/-! ### Executions -/

/-- Execution `x`, and its change. -/
def execOf (s : State) (x : Nat) : Option Exec := s.mov.execs.find? fun e => decide (e.id = x)
def setExec (s : State) (e : Exec) : State :=
  { s with mov := { s.mov with execs := s.mov.execs.map fun y => if y.id = e.id then e else y } }

/-- The lower of two failures (R302). -/
def lower (a b : Option (Nat × Nat)) : Option (Nat × Nat) :=
  match a, b with
  | some x, some y => if y.1 < x.1 then some y else some x
  | some x, none => some x
  | none, y => y

/-- R296: the boundary that cuts pieces is that of the destination, or of the source of a COMPARE or CHECK. -/
def cutBase (d : BitVec 512) : Nat := if dOp d = 4 ∨ dOp d = 5 then dA d else dB d

/-- R359: the tokens of a piece. -/
def pieceCost (d : BitVec 512) : Nat :=
  match dOp d with
  | 1 => if fCheck d then 35 else 30
  | 4 => 30
  | 5 => 20
  | _ => 15

/-- R292: the bytes of a FILL, or zeros, from offset `off`. -/
def patternBytes (d : BitVec 512) (off len : Nat) : List Byte :=
  if dOp d = 2 then (List.range len).map fun j => dByte d ((dB d + off + j) % max 1 (dAux d))
  else List.replicate len 0

/-- No byte is poisoned. -/
def clean (_ : Nat) : Bool := false

/-- The execution has pieces. -/
def hasPieces (d : BitVec 512) : Bool := decide (1 ≤ dOp d) && decide (dOp d ≤ 5)

/-- R296: start the next piece of `e`. -/
def startPiece (s : State) (e : Exec) : State :=
  let d := e.desc
  let off := e.next
  let len := min (dLen d - off) (4096 - (cutBase d + off) % 4096)
  let p : Piece :=
    { off := off, len := len, ready := false, eaten := false, writing := false, written := false, data := [], poison := []
      fail := none }
  let put := fun (p : Piece) => setExec s { e with next := off + len, pieces := e.pieces ++ [p] }
  let rd := fun (s : State) (role addr : Nat) =>
    openAccess s (some e.fn) e.vcs false true (.piece e.id off role) (addr + off) len [] clean
  match dOp d with
  | 1 => rd (put p) 0 (dA d)
  | 4 => rd (rd (put { p with written := true }) 0 (dA d)) 1 (dB d)
  | 5 => rd (put { p with written := true }) 0 (dA d)
  | _ =>
    openAccess (put { p with ready := true, writing := true }) (some e.fn) e.vcs true true (.piece e.id off 2) (dB d + off) len
      (patternBytes d off len) clean

/-- R323, R476: function `fn` draws class B2 tokens. -/
def spendFor? (s : State) (fn cost : Nat) : Option State :=
  (spend? s 2 cost).map fun t =>
    bumpFn { t with mov := { t.mov with shares := tabMod 0 fn (· + cost) t.mov.shares } } fn 20 cost

/-- R296, R358: pieces start in ascending offset, at most 16 at once, none after a failure, while tokens last. -/
def startPieces (s : State) (x : Nat) : Nat → State
  | 0 => s
  | n + 1 =>
    match execOf s x with
    | none => s
    | some e =>
      if e.started && !e.dropped && !e.safe && e.fail.isNone && (e.pieces.all fun p => p.fail.isNone) && decide (e.pieces.length < 16) &&
          hasPieces e.desc && decide (e.next < dLen e.desc) && e.result.isNone then
        match spendFor? s e.fn (pieceCost e.desc) with
        | none => s
        | some t => startPieces (startPiece t e) x n
      else s

/-- R295, R310: the execution that runs on check unit `u`: the oldest that names it. -/
def unitRunner (s : State) (u : Nat) : Option Nat :=
  (s.mov.execs.find? fun e => usesUnit e.desc && decide (dUnit e.desc = u) && e.result.isNone && !e.dropped).map fun e => e.id

/-- OD (7400 + u).03. -/
def unitsShown (s : State) : State :=
  (List.range 16).foldl (fun t u => odSet t (0x7400 + u) 3 (if (unitRunner t u).isSome then 1 else 0)) s

/-- R310: the initial context of a descriptor. -/
def ownCtx (d : BitVec 512) : BitVec 512 :=
  packCtx (ctxInitial (BitVec.ofNat 32 (dAux d)) (cAlive d) (cAlg d) (cWidth d))

/-- R295, R310: start `x`, once it has its check unit, and once its context is loaded where it resumes. -/
def startExec (s : State) (x : Nat) : State :=
  match execOf s x with
  | none => s
  | some e =>
    if e.started || e.dropped || e.safe || e.result.isSome || e.fail.isSome then s
    else if usesUnit e.desc && decide (unitRunner s (dUnit e.desc) ≠ some x) then s
    else if usesUnit e.desc && fResume e.desc then
      if s.mov.accs.any fun a => decide (a.use = .context x) then s
      else openAccess s (some e.fn) e.vcs false true (.context x) (cContext e.desc) 64 [] clean
    else
      startPieces (setExec s { e with started := true, ctx := if usesUnit e.desc then ownCtx e.desc else e.ctx }) x 16

/-- R310: every execution that waits for its unit starts if it can. -/
def startWaiting (s : State) : State := s.mov.execs.foldl (fun t e => startExec t e.id) s

/-! ### What an access of an execution came to -/

/-- Change the piece of `e` at offset `off`. -/
def Exec.modPiece (e : Exec) (off : Nat) (f : Piece → Piece) : Exec :=
  { e with pieces := e.pieces.map fun p => if p.off = off then f p else p }

/-- R296, R310, R313: the check unit consumes ready pieces in ascending offset, up to the first failing byte. -/
def eatPieces (s : State) (x : Nat) : Nat → State
  | 0 => s
  | n + 1 =>
    match execOf s x with
    | none => s
    | some e =>
      match e.pieces.find? fun p => p.ready && !p.eaten && decide (p.off = e.eaten) with
      | none => s
      | some p =>
        if usesUnit e.desc && e.fail.isNone then
          let k := match p.fail with | some (o, _) => o | none => p.len
          let r0 : CheckRun := { ctx := unpackCtx e.ctx, word := e.word, counter := e.counter, faults := e.faults }
          let r := (p.data.take k).foldl checkByte r0
          let e1 :=
            { (e.modPiece p.off fun y => { y with eaten := true }) with
              eaten := if p.fail.isSome then e.eaten else p.off + p.len
              ctx := packCtx r.ctx, word := r.word, counter := r.counter, faults := r.faults }
          let s1 := bumpCBy (bumpFn (bumpFn (setExec s e1) e.fn 11 k) e.fn 12 (r.faults - e.faults)) 0xC028 0x0A (r.faults - e.faults)
          eatPieces s1 x n
        else s

/-- The bytes of a read up to its first part that failed otherwise than by poison. -/
def readable (a : MovAcc) : Nat :=
  match a.parts.find? fun x => match x.st with | .bad st => decide (st ≠ 0x21) | _ => false with
  | some x => x.off
  | none => (a.parts.map fun x => x.len).foldl (· + ·) 0

/-- R296, R302: the source of a COPY or CHECK piece has come. -/
def sourceDone (s : State) (e : Exec) (off : Nat) (a : MovAcc) : State :=
  let k := readable a
  let pz := a.poisoned
  let isBad := fun (i : Nat) => pz.any fun q => decide (q.1 ≤ i) && decide (i < q.1 + q.2)
  let copy := decide (dOp e.desc = 1)
  let e1 := e.modPiece off fun p =>
    { p with ready := true, data := a.bytes, fail := lower p.fail a.fail
             writing := copy && decide (0 < k), written := p.written || (copy && decide (k = 0)) }
  let s1 := eatPieces (setExec s e1) e.id 17
  if copy && decide (0 < k) then
    openAccess s1 (some e.fn) e.vcs true true (.piece e.id off 2) (dB e.desc + off) k (a.bytes.take k) isBad
  else s1

/-- The offset of the first byte in which two lists differ. -/
def firstDiff : List Byte → List Byte → Nat → Option Nat
  | a :: as, b :: bs, i => if a = b then firstDiff as bs (i + 1) else some i
  | _, _, _ => none

/-- R301: both sources of a COMPARE piece have come. -/
def compareDone (s : State) (e : Exec) (off : Nat) (a b : MovAcc) : State :=
  let f := lower a.fail b.fail
  let k := match f with | some (o, _) => o | none => a.bytes.length
  let df := (firstDiff (a.bytes.take k) (b.bytes.take k) 0).map (· + off)
  setExec s
    { (e.modPiece off fun p => { p with ready := true, fail := f }) with
      diff := match e.diff, df with
        | some x, some y => some (min x y)
        | some x, none => some x
        | none, y => y }

/-- R296: the destination of a piece is written, or has failed. -/
def destDone (s : State) (e : Exec) (off : Nat) (a : MovAcc) : State :=
  setExec s
    { (e.modPiece off fun p => { p with written := true, fail := lower p.fail a.fail }) with wroteHost := e.wroteHost || a.host }

/-- R310, R311: a context has been loaded. -/
def contextDone (s : State) (e : Exec) (a : MovAcc) : State :=
  match a.fail with
  | some (_, st) => setExec s { e with fail := some (0, st) }
  | none =>
    let c := unpackCtx (BitVec.ofNat 512 (leValue a.bytes))
    let w := packCtx c
    let d := e.desc
    if ctxInRange w && decide (c.size.toNat = dAux d) && decide (c.alive = cAlive d) && decide (c.alg = cAlg d) &&
        decide (c.width = cWidth d) then
      startPieces (setExec s { e with started := true, ctx := w }) e.id 16
    else startWaiting (setExec s { e with result := some (0x12, 0) })

/-- An operation of an ATOMIC descriptor has ended (R293). -/
def atomDone (s : State) (x : Nat) (r : AtomEnd) : State :=
  match execOf s x with
  | none => s
  | some e =>
    match r with
    | .failed st => setExec s { e with fail := some (0, st) }
    | .value old wrote =>
      let d := e.desc
      let res : BitVec 64 := if aWidth d = 8 then BitVec.ofNat 64 old else 0
      let s1 := bumpFn (setExec s { e with result := some (if wrote then 0 else 4, res) }) e.fn 13 1
      let s2 := if wrote ∧ !e.dropped then logFunc s1 e.fn (dA d) else s1
      if dB d ≠ 0 ∧ !e.dropped then
        openAccess s2 (some e.fn) e.vcs true true (.record x) (dB d) (aWidth d) (leBytes (aWidth d) old) clean
      else s2

/-! ### The end of a descriptor (R297, R301) -/

/-- Every piece, operation and eviction of `e` is over. -/
def bodyOver (s : State) (e : Exec) : Bool :=
  let d := e.desc
  e.pieces.isEmpty && e.flush.isEmpty &&
    (e.dropped || e.safe || e.result.isSome || e.fail.isSome ||
      (if hasPieces d then e.started && decide (dLen d ≤ e.next)
       else if dOp d = 6 then false
       else if dOp d = 7 then decide (e.next = 1)
       else if dOp d = 10 then s.map.ended.any fun m => decide (m.1 = (e.sq, e.index.toNat))
       else true)) &&
    !(s.mov.ops.any fun o => o.exec && decide (o.no = e.id))

/-- An access of `e` is outstanding. -/
def execBusy (s : State) (x : Nat) : Bool :=
  s.mov.accs.any fun a =>
    match a.use with
    | .piece y _ _ => decide (y = x)
    | .record y => decide (y = x)
    | .context y => decide (y = x)
    | .zero y => decide (y = x)
    | _ => false

/-- R297: the CQ ring lies in pool memory. -/
def cqInPool (s : State) (e : Exec) : Bool := (decodeAddr s e.vcs (cq s e.cq).ring).isSome

/-- R297, R310: once its body is over, `e` finishes and saves its context, and reads from the host that it wrote. -/
def wrapUp (s : State) (x : Nat) : State :=
  match execOf s x with
  | none => s
  | some e =>
    let d := e.desc
    if e.dropped || !bodyOver s e then s
    else
      let s1 :=
        if usesUnit d && e.started && !e.saved && e.result.isNone then
          let r : CheckRun := { ctx := unpackCtx e.ctx, word := e.word, counter := e.counter, faults := e.faults }
          let r1 := if fFinal d && e.fail.isNone then checkFinal r else r
          let w := packCtx r1.ctx
          let t := setExec { s with mov := { s.mov with ctx := tabSet 0 (dUnit d) w s.mov.ctx } }
            { e with ctx := w, saved := true, wroteHost := e.wroteHost || (fSave d && (decodeAddr s e.vcs (cContext d)).isNone) }
          if fSave d then
            openAccess t (some e.fn) e.vcs true true (.record x) (cContext d) 64 (leBytes 64 w.toNat) clean
          else t
        else s
      match execOf s1 x with
      | none => s1
      | some f =>
        if execBusy s1 x || f.zeroed || !(f.wroteHost && cqInPool s1 f) then s1
        else openAccess (setExec s1 { f with zeroed := true }) (some f.fn) f.vcs false false (.zero x) (dB d) 0 [] clean

/-- R299, R501: status and result of an ended MIGRATE-GRANULE. -/
def migrateEnd (o front move : Nat) : Nat × BitVec 64 :=
  match o with
  | 0 => (0, BitVec.ofNat 64 move)
  | 1 => (0x35, BitVec.ofNat 64 (front * 2 ^ 16 + move))
  | 2 => (0x35, BitVec.ofNat 64 (front * 2 ^ 16 + move))
  | 6 => (0x36, BitVec.ofNat 64 move)
  | _ => (0x21, BitVec.ofNat 64 move)

/-- R301, R314: status and result of a descriptor. -/
def execEnd (s : State) (e : Exec) : Nat × BitVec 64 :=
  let d := e.desc
  if e.safe then
    let o := if hasPieces d then min e.next (match e.fail with | some (o, _) => o | none => e.next) else 0
    (0x3D, BitVec.ofNat 64 (o * 2 ^ 32 + o))
  else
  match e.fail with
  | some (o, st) => (st, BitVec.ofNat 64 (o * 2 ^ 32 + o))
  | none =>
    match e.result with
    | some r => r
    | none =>
      let c := unpackCtx e.ctx
      if dOp d = 10 then
        match s.map.ended.find? fun m => decide (m.1 = (e.sq, e.index.toNat)) with
        | some (_, o, fr) => migrateEnd o fr e.next
        | none => (0, 0)
      else if usesUnit d then
        if 0 < e.faults then (3, c.firstFault ++ c.kind ++ c.faults)
        else
          let fin := if fFinal d then c.finished else 0
          let m : BitVec 64 := if (cAlg d).toNat ≤ 1 then 0xFFFFFFFF#64 else BitVec.allOnes 64
          if fCompare d ∧ c.finished &&& m ≠ cExpected d &&& m then (2, c.finished) else (0, fin)
      else if dOp d = 4 then
        match e.diff with
        | some o => (1, BitVec.ofNat 64 o)
        | none => (0, BitVec.allOnes 64)
      else (0, 0)

/-! ### Accesses that settle by themselves -/

/-- The access has finished, and so has what it is compared with; its end is the matter of no command of its own. -/
def settles (s : State) (a : MovAcc) : Bool :=
  a.over &&
    match a.use with
    | .enable _ _ => false | .sqQcb _ => false | .cqQcb _ => false | .fetch _ _ => false | .relog _ => false
    | .tlp _ => false
    | .piece x off role =>
      if role = 2 then true
      else
        match execOf s x with
        | some e =>
          decide (dOp e.desc ≠ 4) ||
            s.mov.accs.any fun b => b.over && decide (b.use = .piece x off (1 - role))
        | none => true
    | _ => true

/-- Take an access out. -/
def dropAccess (s : State) (id : Nat) : State :=
  { s with mov := { s.mov with accs := s.mov.accs.filter fun a => decide (a.id ≠ id) } }

/-- R330: an LCB has been read: the entries from the re-armed index up to its consumer index are read back. -/
def lcbDone (s : State) (c : Nat) (a : MovAcc) : State :=
  let x := logCh s c
  let i := BitVec.ofNat 32 (leValue (a.bytes.take 4))
  let k := (i - x.r).toNat
  if a.failed || decide (k = 0) || decide (2 ^ x.n < k) || x.rearm.isSome || decide (x.state = .off) then s
  else
    let at_ := x.r.toNat % 2 ^ x.n
    let k1 := min k (2 ^ x.n - at_)
    let rd := fun (s : State) (o n : Nat) =>
      if n = 0 then s else openAccess s none a.vcs false false (.relog c) (x.ring + 8 * o) (8 * n) [] clean
    rd (rd (setLogCh s c { x with rearm := some i }) at_ k1) 0 (k - k1)

/-- What a finished access brings about. -/
def settleOne (s : State) (a : MovAcc) : State :=
  let s1 := accessCounted (dropAccess s a.id) a
  match a.use with
  | .piece x off role =>
    match execOf s1 x with
    | none => s1
    | some e =>
      if role = 2 then destDone s1 e off a
      else if dOp e.desc = 4 then
        match s1.mov.accs.find? fun b => decide (b.use = .piece x off (1 - role)) with
        | some b => compareDone (accessCounted (dropAccess s1 b.id) b) e off a b
        | none => s1
      else sourceDone s1 e off a
  | .record x =>
    match execOf s1 x with
    | some e =>
      wrapUp (setExec s1 { e with
        fail := if usesUnit e.desc then e.fail else lower e.fail (a.fail.map fun f => (0, f.2))
        wroteHost := e.wroteHost || a.host }) x
    | none => s1
  | .lcb c => lcbDone s1 c a
  | .context x => match execOf s1 x with | some e => contextDone s1 e a | none => s1
  | _ => s1

/-- Settle accesses until none is left that settles by itself. -/
def settleAll : Nat → State → State
  | 0, s => s
  | n + 1, s =>
    match s.mov.accs.find? (settles s) with
    | none => s
    | some a => settleAll n (settleOne s a)

/-- R298: line `x` of the mover cache lies in the range that a FLUSH resolves from A and Length; Length 0 names the whole cache. -/
def flushHits (s : State) (e : Exec) (x : CacheLine) : Bool :=
  let d := e.desc
  decide (dLen d = 0) || (hostLines s e.vcs x.home x.line).any fun l =>
    decide (dA d < l.toNat * 64 + 64) && decide (l.toNat * 64 < dA d + dLen d)

/-- Evict the cached lines that `hit` names while tags last: the tags taken, and whether no line is left. -/
def evictRange (s : State) (hit : CacheLine → Bool) : State × List Nat × Bool :=
  ((s.mov.lines.flatMap Prod.snd).filter hit).foldl
    (fun (r : State × List Nat × Bool) x =>
      match evictLine r.1 x with
      | some (t, g) => (t, r.2.1 ++ [g], r.2.2)
      | none => (r.1, r.2.1, false)) (s, [], true)

/-- R298: a FLUSH evicts the lines of its range, and awaits the write-backs already under way there. -/
def flushScan (s : State) (x : Nat) : State :=
  match execOf s x with
  | none => s
  | some e =>
    if dOp e.desc = 7 ∧ e.next = 0 ∧ e.result.isNone ∧ e.safe = false then
      let r := evictRange s (flushHits s e)
      setExec r.1 { e with next := if r.2.2 then 1 else 0, flush := e.flush ++ r.2.1 }
    else s

/-- R298: OD 7003.01 goes on. -/
def flushAllScan (s : State) : State :=
  if s.mov.flushAll then
    let r := evictRange s fun _ => true
    { r.1 with mov := { r.1.mov with flushAll := !r.2.2 } }
  else s

/-- A step of the mover ends: waiting parts are issued, and what has finished is settled. -/
def moverTurn (s : State) : State :=
  let s1 := settleAll 4096 (issueParts s)
  let s2 := s1.mov.execs.foldl (fun t e => wrapUp (flushScan t e.id) e.id) s1
  issueParts (flushAllScan s2)

end Sys2Proof.Machine
end

