-- ==== Sys2Proof/Machine/MovQueue.lean ====
section
/-!
DEFINITION. Machine/MovQueue.lean: queues, doorbells, descriptor fetch, dispatch and completions (R276, R279 to R288, R294 to
R305), the mover cache's answers (R278) and the check units' entries (R310, R311).
-/

namespace Sys2Proof.Machine

/-! ### Vectors and errors (R305, R320, R321) -/

/-- R320: vector `v` of function `fn` is raised, or pends. -/
def raiseVector (s : State) (fn v : Nat) : State :=
  let f := func s fn
  if f.vecOn.contains v then emit s (.msix fn v) else setFunc s fn { f with vecPending := setInsert v f.vecPending }

/-- R276: the code of a state. -/
def QueueSt.code : QueueSt → Nat
  | .disabled => 0 | .enabled => 1 | .stopping => 2 | .error => 3

/-- The VCS of a function, for its accesses. -/
def vcsOfFn (s : State) (fn : Nat) : Nat := (funcVcs s fn).getD 64

/-- A write of the mover for function `fn` that nothing awaits. -/
def silentWrite (s : State) (fn addr : Nat) (data : List Byte) : State :=
  openAccess s (some fn) (vcsOfFn s fn) true true .silent addr data.length data clean

/-- R279, R282: the status word of a QCB. -/
def qcbStatus (s : State) (owner qcb : Nat) (st : QueueSt) (full : Bool) (err : Nat) : State :=
  silentWrite s (owner - 1) (qcb + 28) (leBytes 4 (st.code + (if full then 16 else 0) + err * 256))
def sqStatus (s : State) (q : Nat) : State := let x := sq s q; qcbStatus s x.owner x.qcb x.st false x.err
def cqStatus (s : State) (q : Nat) : State := let x := cq s q; qcbStatus s x.owner x.qcb x.st x.full x.err

/-- R282, R304: the device index of a QCB. -/
def sqIndex (s : State) (q : Nat) : State :=
  let x := sq s q
  silentWrite (setSq s q { x with since := 0 }) (x.owner - 1) (x.qcb + 4) (leBytes 4 x.c.toNat)
def cqIndex (s : State) (q : Nat) : State :=
  let x := cq s q
  silentWrite s (x.owner - 1) (x.qcb + 4) (leBytes 4 x.d.toNat)

/-- R321: a queue of function `fn` has entered ERROR. -/
def queueError (s : State) (fn : Nat) (isCq : Bool) (loc : Nat) : State :=
  let f := func s fn
  let s1 := setFunc s fn { f with qErr := true, qErrCq := isCq, qErrNum := loc }
  if f.errEnable then raiseVector s1 fn f.errVector else s1

/-- R283, R288: what is being fetched for SQ `q` is of no use to it any more: it is discarded when it comes. -/
def cancelFetches (s : State) (q : Nat) : State :=
  { s with mov := { s.mov with accs := s.mov.accs.map fun a =>
      match a.use with
      | .fetch r _ => if r = q then { a with use := .silent } else a
      | _ => a } }

/-- The SQ enters ERROR. -/
def sqError (s : State) (q code : Nat) : State :=
  let x := sq s q
  queueError (sqStatus (setSq (cancelFetches s q) q { x with st := .error, err := code, kept := [], fetching := [], pend := false }) q)
    (x.owner - 1) false x.loc

/-! ### QCB reads (R280, R285, R286) -/

/-- R285, R473, R476: a QCB read starts. -/
def qcbRead (s : State) (fn addr : Nat) (use : MovUse) : State :=
  openAccess (bumpFn (bumpC s 0xC028 6) fn 16 1) (some fn) (vcsOfFn s fn) false true use addr 64 [] clean

/-- R285: the pending QCB read of an SQ starts, when none is outstanding. -/
def sqRead (s : State) (q : Nat) : State :=
  let x := sq s q
  if x.st = .enabled ∧ x.pend ∧ !x.reading then
    qcbRead (setSq s q { x with pend := false, reading := true }) (x.owner - 1) x.qcb (.sqQcb q)
  else s

/-- R286: the QCB read of a CQ. -/
def cqRead (s : State) (q : Nat) : State :=
  let x := cq s q
  if x.st = .enabled ∧ x.pend ∧ !x.reading then
    qcbRead (setCq s q { x with pend := false, reading := true }) (x.owner - 1) x.qcb (.cqQcb q)
  else s

/-- The finished access for a use, taken out. -/
def takeAccess (s : State) (use : MovUse) : Option (State × MovAcc) :=
  (s.mov.accs.find? fun a => decide (a.use = use) && a.over).map fun a => (accessCounted (dropAccess s a.id) a, a)

/-- A little-endian field of a QCB. -/
def qcbField (a : MovAcc) (lo n : Nat) : Nat := leValue ((a.bytes.drop lo).take n)

/-- R334: a function whose reset is pending takes no doorbell and no write. -/
def resetPending (s : State) (fn : Nat) : Bool := (func s fn).resetPending

/-- R280: Enable is written 1 in the register of queue `q`, with its QCB address. -/
def queueEnable (s : State) (fn : Nat) (isCq : Bool) (loc addr : Nat) : State :=
  let a := addr / 64 * 64
  if resetPending s fn then s
  else if isCq then
    match cqOf s fn loc with
    | none => s
    | some q =>
      let x := cq s q
      if x.st = .disabled ∧ !x.reading then qcbRead (setCq s q { x with qcb := a, reading := true }) fn a (.enable true q) else s
  else
    match sqOf s fn loc with
    | none => s
    | some q =>
      let x := sq s q
      if x.st = .disabled ∧ !x.reading then qcbRead (setSq s q { x with qcb := a, reading := true }) fn a (.enable false q) else s

/-- QUEUE_ENABLE (R280): a write of the register of local queue `loc` of function `fn`. -/
def execQueueEnable (fn : Fin 1088) (isCq : Bool) (loc : Fin 4096) (addr : BitVec 64) (s : State) :
    Host.Outcome State Fault Refusal := .next (moverTurn (queueEnable s fn.val isCq loc.val addr.toNat))

/-- R280: the checks common to both kinds, in order of code. -/
def qcbCommon (a : MovAcc) (kind : Nat) : Option Nat :=
  if a.failed then some 6
  else if qcbField a 23 1 ≠ kind then some 1
  else if qcbField a 16 1 < 4 ∨ 16 < qcbField a 16 1 ∨ qcbField a 8 8 % 4096 ≠ 0 then some 2
  else none

/-- R280: an SQ's QCB is checked. -/
def sqCheck (s : State) (fn : Nat) (a : MovAcc) : Option Nat :=
  match qcbCommon a 1 with
  | some c => some c
  | none =>
    let f := qcbField a 22 1
    if f < 1 ∨ 2 < f ∨ odGet s (funcIdx fn) 2 < f then some 3
    else if (match cqOf s fn (qcbField a 18 2) with | some c => decide ((cq s c).st ≠ .enabled) | none => true) = true then some 4
    else if qcbField a 0 4 ≠ qcbField a 4 4 then some 5
    else none

/-- R280, R320: a CQ's QCB is checked. -/
def cqCheck (a : MovAcc) : Option Nat :=
  match qcbCommon a 2 with
  | some c => some c
  | none => if qcbField a 0 4 ≠ qcbField a 4 4 then some 5 else if 63 < qcbField a 18 2 then some 8 else none

/-- R280: the enable-time read of an SQ's QCB has returned. -/
def sqEnabled (s : State) (q : Nat) : State :=
  match takeAccess s (.enable false q) with
  | none => s
  | some (t, a) =>
    let x := { sq t q with reading := false }
    let fn := x.owner - 1
    match sqCheck t fn a with
    | some code => sqError (setSq t q x) q code
    | none =>
      let i := BitVec.ofNat 32 (qcbField a 0 4)
      sqStatus (setSq t q { x with
        st := .enabled, err := 0, fmt := qcbField a 22 1, cq := (cqOf t fn (qcbField a 18 2)).getD 0, n := qcbField a 16 1
        ring := qcbField a 8 8, c := i, p := i, next := i, fetching := [], kept := [], looked := [], pend := false, idle := true
        since := 0 }) q

/-- R280: the enable-time read of a CQ's QCB has returned. -/
def cqEnabled (s : State) (q : Nat) : State :=
  match takeAccess s (.enable true q) with
  | none => s
  | some (t, a) =>
    let x := { cq t q with reading := false }
    match cqCheck a with
    | some code =>
      queueError (cqStatus (setCq t q { x with st := .error, err := code }) q) (x.owner - 1) true x.loc
    | none =>
      let i := BitVec.ofNat 32 (qcbField a 0 4)
      cqStatus (setCq t q { x with
        st := .enabled, err := 0, vec := qcbField a 18 2, intFail := decide (qcbField a 20 1 % 2 = 1), n := qcbField a 16 1
        ring := qcbField a 8 8, d := i, c := i, pend := false, hold := [], slots := 0, full := false }) q

/-- QCB_ENABLE_READ_DONE (R280): of global queue `q`. -/
def execQcbEnableReadDone (isCq : Bool) (q : Fin 4096) (s : State) : Host.Outcome State Fault Refusal :=
  let s1 := absorbHost s
  .next (moverTurn (if isCq then cqEnabled s1 q.val else sqEnabled s1 q.val))

/-- R280, R283: Enable is written 0. -/
def queueDisable (s : State) (fn : Nat) (isCq : Bool) (loc : Nat) : State :=
  if resetPending s fn then s
  else if isCq then
    match cqOf s fn loc with
    | none => s
    | some q =>
      let x := cq s q
      let bound := s.mov.sqs.any fun p => decide (p.2.owner = fn + 1) && decide (p.2.cq = q) && decide (p.2.st ≠ .disabled)
      if x.st ≠ .disabled ∧ !bound then cqStatus (setCq s q { x with st := .disabled, err := 0 }) q else s
  else
    match sqOf s fn loc with
    | none => s
    | some q =>
      let x := sq s q
      match x.st with
      | .error => sqStatus (setSq s q { x with st := .disabled, err := 0 }) q
      | .enabled =>
        sqStatus (setSq (cancelFetches s q) q { x with st := .stopping, kept := [], fetching := [], pend := false }) q
      | _ => s

/-- QUEUE_DISABLE (R283). -/
def execQueueDisable (fn : Fin 1088) (isCq : Bool) (loc : Fin 4096) (s : State) : Host.Outcome State Fault Refusal :=
  .next (moverTurn (queueDisable s fn.val isCq loc.val))

/-- R283: nothing of a STOPPING SQ executes any more. -/
def stopComplete (s : State) (q : Nat) : State :=
  let x := sq s q
  if x.st = .stopping ∧ !(s.mov.execs.any fun e => decide (e.sq = q)) then
    sqStatus (sqIndex (setSq s q { x with st := .disabled }) q) q
  else s

/-- SQ_STOP_COMPLETE (R283). -/
def execSqStopComplete (q : Fin 4096) (s : State) : Host.Outcome State Fault Refusal := .next (moverTurn (stopComplete s q.val))

/-! ### Doorbells (R284 to R286) -/

/-- R284, R334: a doorbell that is ignored. -/
def doorbellIgnored (s : State) (fn : Nat) : State := bumpFn (bumpC s 0xC028 8) fn 15 1

/-- R285: a doorbell for local SQ `loc` of function `fn`, and whether it was taken. -/
def sqDoorbell (s : State) (fn loc : Nat) : State × Bool :=
  match sqOf s fn loc with
  | some q =>
    let x := sq s q
    if x.st = .enabled ∧ !resetPending s fn then
      (sqRead (setSq (bumpFn s fn 14 1) q { x with pend := true, idle := false }) q, true)
    else (doorbellIgnored s fn, false)
  | none => (doorbellIgnored s fn, false)

/-- R286: a doorbell for local CQ `loc` of function `fn`. -/
def cqDoorbell (s : State) (fn loc : Nat) : State × Bool :=
  match cqOf s fn loc with
  | some q =>
    let x := cq s q
    if x.st = .enabled ∧ !resetPending s fn then (cqRead (setCq (bumpFn s fn 14 1) q { x with pend := true }) q, true)
    else (doorbellIgnored s fn, false)
  | none => (doorbellIgnored s fn, false)

/-- R284, R482: a value is written to the doorbell register of function `fn`. -/
def ringDoorbell (s : State) (fn value : Nat) : State × Bool :=
  let r := if value.testBit 12 then cqDoorbell s fn (value % 4096) else sqDoorbell s fn (value % 4096)
  (moverTurn r.1, r.2)

/-- SQ_DOORBELL (R285). -/
def execSqDoorbell (fn : Fin 1088) (loc : Fin 4096) (s : State) : Host.Outcome State Fault Refusal :=
  .next (moverTurn (sqDoorbell s fn.val loc.val).1)

/-- CQ_DOORBELL (R286). -/
def execCqDoorbell (fn : Fin 1088) (loc : Fin 4096) (s : State) : Host.Outcome State Fault Refusal :=
  .next (moverTurn (cqDoorbell s fn.val loc.val).1)

/-! ### Completions (R300 to R305) -/

/-- R300: the 16 bytes of a completion at producer index `d` of a ring of 2^n. -/
def completionBytes (c : Completion) (n : Nat) (d : BitVec 32) : List Byte :=
  leBytes 8 c.result.toNat ++ leBytes 4 c.index.toNat ++
    leBytes 4 ((1 - d.toNat / 2 ^ n % 2) * 2 ^ 31 + c.status * 2 ^ 16 + c.sq * 2 ^ 4)

/-- R303: held completions are written while the ring has room: whether any of them raises the vector. -/
def writeHeld (s : State) (q : Nat) (raise : Bool) : Nat → State × Bool
  | 0 => (s, raise)
  | n + 1 =>
    let x := cq s q
    match x.hold with
    | [] => (s, raise)
    | c :: rest =>
      if (x.d - x.c).toNat < 2 ^ x.n then
        let s1 := silentWrite s (x.owner - 1) (x.ring + 16 * (x.d.toNat % 2 ^ x.n)) (completionBytes c x.n x.d)
        writeHeld (setCq s1 q { cq s1 q with hold := rest, d := x.d + 1, slots := x.slots - 1 }) q
          (raise || c.interrupt || (x.intFail && decide (16 ≤ c.status))) n
      else (s, raise)

/-- OD 7003.02. -/
def poolShown (s : State) : State := odSet s 0x7003 2 ((s.mov.cqs.map fun p => p.2.slots).foldl (· + ·) 0)

/-- R303 to R305: held completions of CQ `q`. -/
def drainHold (s : State) (q : Nat) : State :=
  let r := writeHeld s q false 65
  let x := cq r.1 q
  let fn := x.owner - 1
  let s1 := if r.2 then cqIndex (raiseVector r.1 fn x.vec) q else r.1
  let s2 :=
    if x.hold.isEmpty then
      if x.full then cqIndex (cqStatus (setCq s1 q { cq s1 q with full := false }) q) q else s1
    else if x.full then s1
    else bumpFn (bumpC (cqIndex (raiseVector (cqStatus (setCq s1 q { cq s1 q with full := true }) q) fn x.vec) q) 0xC028 7) fn 18 1
  poolShown s2

/-- R303: a slot of CQ `q` is free again without a completion. -/
def freeSlot (s : State) (q : Nat) : State := let x := cq s q; poolShown (setCq s q { x with slots := x.slots - 1 })

/-- R473, R476: a completion of status `st` is counted. -/
def countStatus (s : State) (fn st : Nat) : State :=
  let s1 := bumpFn (bumpC s 0xC028 1) fn 1 1
  if st = 0 then bumpFn s1 fn 2 1
  else if st < 0x10 then bumpFn s1 fn 3 1
  else if st < 0x20 then bumpFn (bumpC s1 0xC028 3) fn 4 1
  else if st < 0x30 ∨ st = 0x3D then bumpFn (bumpC s1 0xC028 2) fn 5 1
  else bumpFn s1 fn 6 1

/-- R297, R303: execution `x` ends with its completion. -/
def completeExec (s : State) (e : Exec) : State :=
  let r := execEnd s e
  let key := (e.sq, e.index.toNat)
  let s1 := { s with
    mov := { s.mov with execs := s.mov.execs.filter fun y => decide (y.id ≠ e.id) }
    map := { s.map with ended := s.map.ended.filter fun m => decide (m.1 ≠ key) } }
  let s2 := startWaiting (unitsShown s1)
  if e.dropped then s2
  else
    let s3 := countStatus s2 e.fn r.1
    if fQuiet e.desc ∧ r.1 = 0 then freeSlot s3 e.cq
    else
      let c : Completion :=
        { status := r.1, sq := (sq s e.sq).loc, index := e.index, result := r.2, interrupt := fInterrupt e.desc }
      let x := cq s3 e.cq
      drainHold (setCq s3 e.cq { x with hold := x.hold ++ [c] }) e.cq

/-- CQ_QCB_READ_DONE (R286, R303). -/
def cqReadDone (s : State) (q : Nat) : State :=
  match takeAccess s (.cqQcb q) with
  | none => s
  | some (t, a) =>
    let x := cq t q
    let c := if a.failed then x.c else BitVec.ofNat 32 (qcbField a 0 4)
    cqRead (drainHold (setCq t q { x with reading := false, c := c }) q) q

/-! ### Fetch (R287, R288) -/

/-- R281, R288: index `i` lies below `p`. -/
def below (i p : BitVec 32) : Bool := decide (0 < (p - i).toNat) && decide ((p - i).toNat ≤ 65536)

/-- R288: fetch from index `x.next` up to min(p + 8, c + 2^n). -/
def fetchMore (s : State) (q : Nat) : Nat → State
  | 0 => s
  | n + 1 =>
    let x := sq s q
    let room := min ((x.p - x.c).toNat + 8) (2 ^ x.n)
    if x.st = .enabled ∧ (x.next - x.c).toNat < room then
      let i := x.next
      let s1 := setSq s q { x with next := i + 1 }
      if x.fetching.contains i || x.kept.any fun k => decide (k.1 = i) then fetchMore s1 q n
      else
        let s2 := setSq s q { x with next := i + 1, fetching := x.fetching ++ [i] }
        fetchMore (openAccess s2 (some (x.owner - 1)) (vcsOfFn s (x.owner - 1)) false true (.fetch q i)
          (x.ring + 64 * (i.toNat % 2 ^ x.n)) 64 [] clean) q n
    else s

/-- The most that one call of `fetchMore` can fetch. -/
def fetchFuel : Nat := 65552

/-- SQ_QCB_READ_DONE (R281, R285, R288). -/
def sqReadDone (s : State) (q : Nat) : State :=
  match takeAccess s (.sqQcb q) with
  | none => s
  | some (t, a) =>
    let x := { sq t q with reading := false }
    let t1 := setSq t q x
    if x.st ≠ .enabled then t1
    else if a.failed then sqRead t1 q
    else
      let p := BitVec.ofNat 32 (qcbField a 0 4)
      if 2 ^ x.n < (p - x.c).toNat then sqError t1 q 7
      else
        let t2 := setSq t1 q { x with p := p, next := x.c, idle := decide (p = x.c) }
        sqRead (fetchMore (if p = x.c then sqIndex t2 q else t2) q fetchFuel) q

/-- R288: one fetched descriptor is judged. -/
def fetched (s : State) (q : Nat) (i : BitVec 32) (a : MovAcc) : State :=
  let x := sq s q
  let d : BitVec 512 := BitVec.ofNat 512 (leValue a.bytes)
  let x1 := { x with fetching := x.fetching.filter fun j => decide (j ≠ i) }
  let keep := setSq s q { x1 with kept := x1.kept ++ [(i, d)], looked := x1.looked.filter fun j => decide (j ≠ i) }
  if x.st ≠ .enabled then setSq s q x1
  else if !a.failed && decide (dMark d = ownMark x.n i) then keep
  else if below i x.p then
    if x.looked.contains i then keep else setSq s q { x1 with looked := x1.looked ++ [i] }
  else bumpFn (bumpC (setSq s q x1) 0xC028 5) (x.owner - 1) 17 1

/-! ### Dispatch (R282, R294, R295, R303) -/

/-- The descriptor at the consumer index, if it is known and lies below the producer index. -/
def headDesc (s : State) (q : Nat) : Option (BitVec 512) :=
  let x := sq s q
  if x.st = .enabled ∧ below x.c x.p then (x.kept.find? fun k => decide (k.1 = x.c)).map Prod.snd else none

/-- R303: slots in use of the device-wide pool. -/
def poolUsed (s : State) : Nat := (s.mov.cqs.map fun p => p.2.slots).foldl (· + ·) 0

/-- R295, R303, R314, R334: the head of SQ `q` could be dispatched. -/
def headReady (s : State) (q : Nat) : Bool :=
  let x := sq s q
  match headDesc s q with
  | none => false
  | some d =>
    let mine := s.mov.execs.filter fun e => decide (e.sq = q)
    !s.flt.safe && !resetPending s (x.owner - 1) && (funcVcs s (x.owner - 1)).isSome && decide (mine.length < 8) &&
      (!(fFence d || decide (dOp d = 8)) || mine.isEmpty) && decide ((cq s x.cq).slots < 64) && decide (poolUsed s < 16384)

/-- R295, R323: a function of weight 0 is served only when no function with a nonzero weight has dispatchable work. The tokens of an
epoch are divided by the weights: a function is served while no other with dispatchable work has drawn less for its weight (DESIGN
CHOICE, log entry 37: the spec gives no order). -/
def mayServe (s : State) (q : Nat) : Bool :=
  let fn := fun (q : Nat) => (sq s q).owner - 1
  let w := fun (q : Nat) => odGet s (funcIdx (fn q)) 3
  let drawn := fun (q : Nat) => tabGet 0 (fn q) s.mov.shares
  s.mov.sqs.all fun p => decide (w p.1 = 0) || !headReady s p.1 || (decide (w q ≠ 0) && decide (drawn q * w p.1 ≤ drawn p.1 * w q))

/-- R359: the tokens of a dispatch, beyond those of its pieces. -/
def dispatchCost (d : BitVec 512) : Nat :=
  match dOp d with
  | 6 => 1 + 2
  | 7 => 1 + 5 * ((if dLen d = 0 then 131072 else dLen d / 64) + 63) / 64
  | _ => 1

/-- R298: the record of a MARK. -/
def markBytes (s : State) (loc : Nat) (i : BitVec 32) (d : BitVec 512) : List Byte :=
  leBytes 8 s.time.devTime.toNat ++ leBytes 4 i.toNat ++ leBytes 2 loc ++
    leBytes 2 ((if undisciplined s then 1 else 0) + (dByte d 0).toNat * 256)

/-- R230, R299: a MIGRATE-GRANULE starts its move, or its status. -/
def startMigrate (s : State) (e : Exec) : State × Except (Nat × BitVec 64) Nat :=
  let d := e.desc
  let v := e.vcs
  if odGet s (0x5100 + v) 1 = 0 then (s, .error (0x30, 0))
  else
    match decodeAddr s v (dA d) with
    | none => (s, .error (0x31, 0))
    | some p =>
      if p / 2 ^ 48 ≠ ownSwitch s then (s, .error (0x31, 0))
      else
        let g := p % 2 ^ 48 / 2 ^ 21
        let base := p / 2 ^ 21 * 2 ^ 21
        match (List.range 32).find? fun b => !permitsAddr s 16 v (base + b * 65536) false true with
        | some b => (refusal s v (base + b * 65536) true, .error (0x20, BitVec.ofNat 64 (b * 65536 * 2 ^ 32)))
        | none =>
          match startMove s g (d.extractLsb' 192 35).toNat false (some (e.sq, e.index.toNat)) with
          | (t, .ok m) => (t, .ok m)
          | (t, .error .tableFull) => (t, .error (0x33, 0))
          | (t, .error .wrongState) => (t, .error (0x34, 0))
          | (t, .error _) => (t, .error (0x32, 0))

/-- R293: the operation of an ATOMIC on a line. -/
def atomOf (e : Exec) (k : AtomKind) (h : Nat) (l : BitVec 42) : AtomOp :=
  let d := e.desc
  { home := h, line := l, off := dA d % 64, width := aWidth d, kind := k, a := d.extractLsb' 192 128, b := d.extractLsb' 320 128
    exec := true, no := e.id, owner := some e.vcs }

/-- R232, R293: an ATOMIC goes to the mover cache after Guard. -/
def startAtom (s : State) (e : Exec) (k : AtomKind) : State × List (AtomOp × AtomEnd) :=
  match (decodeAddr s e.vcs (dA e.desc)).map poolLine with
  | none => (s, [])
  | some (h, l) =>
    if permitsAddr s 16 e.vcs (poolAddr h l) true true then startOp s (atomOf e k h l)
    else (setExec (refusal s e.vcs (poolAddr h l) true) { e with fail := some (0, 0x20) }, [])

/-- R290: what a dispatched descriptor that passed its checks starts with. -/
def startDesc (s : State) (e : Exec) : State :=
  let d := e.desc
  match dOp d with
  | 0 => setExec s { e with result := some (0, 0) }
  | 8 => setExec s { e with result := some (0, 0) }
  | 6 =>
    match aKind d with
    | some k => let r := startAtom s e k; r.2.foldl (fun t q => if q.1.exec then atomDone t q.1.no q.2 else t) r.1
    | none => s
  | 7 => flushScan s e.id
  | 9 =>
    openAccess (setExec s { e with result := some (0, s.time.devTime) }) (some e.fn) e.vcs true true (.record e.id) (dB d) 16
      (markBytes s (sq s e.sq).loc e.index d) clean
  | 10 =>
    match startMigrate s e with
    | (t, .ok m) => setExec t { e with next := m }
    | (t, .error r) => setExec t { e with result := some r }
  | _ => startExec s e.id

/-- R282, R294, R303: the descriptor `d` at the head of SQ `q` is dispatched, with its tokens. -/
def dispatch (s0 : State) (q : Nat) (d : BitVec 512) : State :=
  let x := sq s0 q
  let fn := x.owner - 1
  let v := vcsOfFn s0 fn
  -- R420: an uncorrectable error of the descriptor staging completes the descriptor POISONED.
  let staged := lpddrUnplaced s0
  let s := staged.1
  let bad := if staged.2 then some 0x21 else malformed s x.fmt fn (ownMark x.n x.c) v d
  let cost := if bad.isSome then 1 else dispatchCost d
  match spendFor? s fn cost with
  | none => s0
  | some s1 =>
    let e : Exec :=
      { id := s1.mov.nextNo, sq := q, index := x.c, fn := fn, vcs := v, cq := x.cq, desc := d, started := false, next := 0
        pieces := [], fail := none, diff := none, eaten := 0, ctx := 0, word := [], counter := [], faults := 0
        result := bad.map fun c => (c, 0), flush := [], saved := false, zeroed := false, wroteHost := false, dropped := false
        safe := false }
    let y := cq s1 x.cq
    let s2 := setCq (setSq s1 q { x with c := x.c + 1, since := x.since + 1, kept := x.kept.filter fun k => decide (k.1 ≠ x.c) })
      x.cq { y with slots := y.slots + 1 }
    let s3 := takeNo { s2 with mov := { s2.mov with execs := s2.mov.execs ++ [e] } }
    let s4 := poolShown (bumpFn s3 fn 0 1)
    unitsShown (if bad.isSome then s4 else startDesc s4 e)

/-- R282, R285: what follows a dispatch: the consumer index after 16 of them, more fetches, and one more QCB read once all is
dispatched, after one that is outstanding. -/
def afterDispatch (s : State) (q : Nat) : State :=
  let x := sq s q
  let s1 := if 16 ≤ x.since then sqIndex s q else s
  let s2 := fetchMore s1 q fetchFuel
  let y := sq s2 q
  if y.st = .enabled ∧ y.c = y.p ∧ !y.idle then sqRead (setSq s2 q { y with pend := true }) q else s2

/-- R290, R293: a descriptor at the head that no row of the table names is dispatched and ends malformed. -/
def dispatchReserved (s : State) (q : Nat) : Nat → State
  | 0 => s
  | n + 1 =>
    match headDesc s q with
    | none => s
    | some d =>
      let x := sq s q
      if (rowOf (ownMark x.n x.c) d).isNone && headReady s q && mayServe s q then
        let t := dispatch s q d
        if (sq t q).c = x.c then s else dispatchReserved (afterDispatch t q) q n
      else s

/-- R303, R476: a dispatch withheld by a full hold is counted. -/
def withheld (s : State) (q : Nat) : State :=
  let x := sq s q
  if (headDesc s q).isSome ∧ (64 ≤ (cq s x.cq).slots ∨ 16384 ≤ poolUsed s) then bumpFn s (x.owner - 1) 19 1 else s

/-- R295: the head of SQ `q` is dispatched, if it is of row `r` and may be. -/
def dispatchRow (s : State) (q : Nat) (r : DescRow) : State :=
  match headDesc s q with
  | none => s
  | some d =>
    let x := sq s q
    if rowOf (ownMark x.n x.c) d = some r then
      if headReady s q && mayServe s q then
        moverTurn (dispatchReserved (afterDispatch (dispatch s q d) q) q 16)
      else withheld s q
    else s

/-- SQ_QCB_READ_DONE (R285): of global SQ `q`. -/
def execSqQcbReadDone (q : Fin 4096) (s : State) : Host.Outcome State Fault Refusal :=
  .next (moverTurn (dispatchReserved (sqReadDone (absorbHost s) q.val) q.val 16))

/-- CQ_QCB_READ_DONE (R286): of global CQ `q`. -/
def execCqQcbReadDone (q : Fin 1024) (s : State) : Host.Outcome State Fault Refusal :=
  .next (moverTurn (cqReadDone (absorbHost s) q.val))

/-- The next fetch of SQ `q` that has finished, in order of issue. -/
def fetchedNext (s : State) (q : Nat) : Option (BitVec 32 × MovAcc) :=
  (s.mov.accs.find? fun a => a.over && match a.use with | .fetch r _ => decide (r = q) | _ => false).bind fun a =>
    match a.use with | .fetch _ i => some (i, a) | _ => none

/-- Every finished fetch of SQ `q` is judged. -/
def fetchDone (s : State) (q : Nat) : Nat → State
  | 0 => s
  | n + 1 =>
    match fetchedNext s q with
    | none => s
    | some (i, a) => fetchDone (fetched (accessCounted (dropAccess s a.id) a) q i a) q n

/-- DESCRIPTOR_FETCH_DONE (R288): of global SQ `q`. -/
def execDescriptorFetchDone (q : Fin 4096) (s : State) : Host.Outcome State Fault Refusal :=
  .next (moverTurn (dispatchReserved (fetchDone (absorbHost s) q.val 4096) q.val 16))

/-- NOP (R290): dispatched from global SQ `q`. -/
def execNop (q : Fin 4096) (s : State) : Host.Outcome State Fault Refusal := .next (dispatchRow s q.val .nop)

/-- COPY (R292, R296). -/
def execCopy (q : Fin 4096) (s : State) : Host.Outcome State Fault Refusal := .next (dispatchRow s q.val .copy)

/-- FILL (R292). -/
def execFill (q : Fin 4096) (s : State) : Host.Outcome State Fault Refusal := .next (dispatchRow s q.val .fill)

/-- ZERO (R290). -/
def execZero (q : Fin 4096) (s : State) : Host.Outcome State Fault Refusal := .next (dispatchRow s q.val .zero)

/-- COMPARE (R290). -/
def execCompare (q : Fin 4096) (s : State) : Host.Outcome State Fault Refusal := .next (dispatchRow s q.val .compare)

/-- CHECK (R310). -/
def execCheck (q : Fin 4096) (s : State) : Host.Outcome State Fault Refusal := .next (dispatchRow s q.val .check)

/-- ATOMIC_FETCH_ADD (R293). -/
def execAtomicFetchAdd (q : Fin 4096) (s : State) : Host.Outcome State Fault Refusal := .next (dispatchRow s q.val .fetchAdd)

/-- ATOMIC_SWAP (R293). -/
def execAtomicSwap (q : Fin 4096) (s : State) : Host.Outcome State Fault Refusal := .next (dispatchRow s q.val .swap)

/-- ATOMIC_COMPARE_AND_SWAP (R293). -/
def execAtomicCompareAndSwap (q : Fin 4096) (s : State) : Host.Outcome State Fault Refusal := .next (dispatchRow s q.val .cas)

/-- FLUSH (R298). -/
def execFlush (q : Fin 4096) (s : State) : Host.Outcome State Fault Refusal := .next (dispatchRow s q.val .flush)

/-- FENCE (R295). -/
def execFence (q : Fin 4096) (s : State) : Host.Outcome State Fault Refusal := .next (dispatchRow s q.val .fence)

/-- MARK (R298). -/
def execMark (q : Fin 4096) (s : State) : Host.Outcome State Fault Refusal := .next (dispatchRow s q.val .mark)

/-- MIGRATE_GRANULE (R299). -/
def execMigrateGranule (q : Fin 4096) (s : State) : Host.Outcome State Fault Refusal := .next (dispatchRow s q.val .migrate)

/-! ### Ends (R296, R297) -/

/-- The execution of index `i` of SQ `q`. -/
def execAt (s : State) (q : Nat) (i : BitVec 32) : Option Exec :=
  s.mov.execs.find? fun e => decide (e.sq = q) && decide (e.index = i)

/-- The piece has finished: its data is written, and the check unit has consumed it or will not. -/
def pieceOver (e : Exec) (p : Piece) : Bool :=
  p.ready && p.written && (!usesUnit e.desc || p.eaten || e.dropped || e.fail.isSome ||
    e.pieces.any fun r => decide (r.off < p.off) && r.fail.isSome)

/-- R296, R302: finished pieces of `e` are taken away, and further ones start. -/
def pieceComplete (s : State) (e : Exec) : State :=
  let gone := e.pieces.filter (pieceOver e)
  let f := gone.foldl (fun f p => lower f (p.fail.map fun q => (p.off + q.1, q.2))) e.fail
  startPieces (setExec s { e with pieces := e.pieces.filter fun p => !pieceOver e p, fail := f }) e.id 16

/-- PIECE_COMPLETE (R296): of the descriptor at index `i` of global SQ `q`. -/
def execPieceComplete (q : Fin 4096) (i : BitVec 32) (s : State) : Host.Outcome State Fault Refusal :=
  let s1 := settleAll 4096 (absorbHost s)
  match execAt s1 q.val i with
  | some e => .next (moverTurn (pieceComplete s1 e))
  | none => .next (moverTurn s1)

/-- R297: every access of the descriptor has finished. -/
def descriptorComplete (s : State) (q : Nat) (i : BitVec 32) : State :=
  match execAt s q i with
  | none => s
  | some e =>
    if bodyOver s e && !execBusy s e.id then
      dispatchReserved (completeExec s e) q 16
    else s

/-- DESCRIPTOR_COMPLETE (R297). -/
def execDescriptorComplete (q : Fin 4096) (i : BitVec 32) (s : State) : Host.Outcome State Fault Refusal :=
  .next (moverTurn (descriptorComplete (moverTurn (absorbHost s)) q.val i))

/-! ### Safe state and function reset (R314, R333) -/

/-- R314: in the safe state each descriptor executing, of which something is still to be done, ends at its next 4 KiB boundary; an
operation of it that waits for its line is not performed. -/
def moverSafe (s : State) : State :=
  let stops := fun (e : Exec) => !e.dropped && !(bodyOver s e && !execBusy s e.id)
  let ids := (s.mov.execs.filter stops).map fun e => e.id
  { s with mov := { s.mov with
    execs := s.mov.execs.map fun e => if stops e then { e with safe := true, flush := [] } else e
    ops := s.mov.ops.filter fun o => !(o.exec && ids.contains o.no) } }

/-- R333: the use of an access whose result is discarded. -/
def discardUse (fn : Nat) (a : MovAcc) : MovAcc :=
  if a.fn = some fn then
    match a.use with
    | .piece _ _ _ => a
    | .tlp _ => a
    | _ => { a with use := .silent }
  else a

/-- R333: the reset point of function `fn`. -/
def functionWorkStops (s : State) (fn : Nat) : State :=
  let mine := fun (o : Nat) => decide (o = fn + 1)
  let s1 := { s with mov := { s.mov with
    execs := s.mov.execs.map fun e => if e.fn = fn then { e with dropped := true } else e
    accs := s.mov.accs.map (discardUse fn)
    sqs := s.mov.sqs.map fun p => if mine p.2.owner then (p.1, { subReset with owner := p.2.owner, loc := p.2.loc }) else p
    cqs := s.mov.cqs.map fun p => if mine p.2.owner then (p.1, { compReset with owner := p.2.owner, loc := p.2.loc }) else p } }
  unitsShown (poolShown s1)

/-- Dropped executions that nothing is outstanding for leave. -/
def dropGone (s : State) : State :=
  { s with mov := { s.mov with execs := s.mov.execs.filter fun e => !(e.dropped && e.pieces.isEmpty && !execBusy s e.id &&
      !(s.mov.ops.any fun o => o.exec && decide (o.no = e.id))) } }

/-- R334: an access of function `fn` is outstanding. -/
def fnBusy (s : State) (fn : Nat) : Bool :=
  (s.mov.accs.any fun a => decide (a.fn = some fn)) ||
    s.mov.execs.any fun e => decide (e.fn = fn) && e.dropped &&
      ((!e.pieces.isEmpty) || s.mov.ops.any fun o => o.exec && decide (o.no = e.id))

/-! ### The mover cache's answers and flush (R278, R298) -/

/-- FLUSH_WHOLE_MOVER_CACHE (R298): COMMAND on OD 7003.01. -/
def execFlushWholeMoverCache (s : State) : Host.Outcome State Fault Refusal :=
  answered (flushAllScan { s with mov := { s.mov with flushAll := true } }, .ok)

/-! ### Check units (R310, R311) -/

/-- R310: OD (7400 + u).01. -/
def unitOwner (s : State) (u fn : Nat) : State × Status :=
  if odGet s (0x7400 + u) 3 = 1 then (s, .busy)
  else if 1087 < fn ∧ fn ≠ 0xFFFF then (s, .outOfRange)
  else (odSet s (0x7400 + u) 1 fn, .ok)

/-- CHECK_UNIT_OWNER_WRITE (R310). -/
def execCheckUnitOwnerWrite (u : Fin 16) (fn : BitVec 16) (s : State) : Host.Outcome State Fault Refusal :=
  answered (unitOwner s u.val fn.toNat)

/-- R311: OD (7400 + u).02. -/
def unitContext (s : State) (u : Nat) (w : BitVec 512) : State × Status :=
  if odGet s (0x7400 + u) 3 = 1 then (s, .busy)
  else if ctxInRange w then ({ s with mov := { s.mov with ctx := tabSet 0 u (packCtx (unpackCtx w)) s.mov.ctx } }, .ok)
  else (s, .outOfRange)

/-- CHECK_UNIT_CONTEXT_WRITE (R311). -/
def execCheckUnitContextWrite (u : Fin 16) (ctx : BitVec 512) (s : State) : Host.Outcome State Fault Refusal :=
  answered (unitContext s u.val ctx)

end Sys2Proof.Machine
end

