-- ==== Sys2Proof/Machine/MovPool.lean ====
section
/-!
DEFINITION. Machine/MovPool.lean: CXL.io requests to pool memory that the mover carries out (R307 to R309), what answers the
mover cache agent (R278), and the end of a backoff (R168).
-/

namespace Sys2Proof.Machine

/-! ### Requests (R309) -/

/-- The packet at the head of the mover's IOP or ION queue, with the places of its units, once it is whole. -/
def headPacket (s : State) (vn : Vn) : Option (Held × Tlp) :=
  let l := ejectBuf s moverStop 1 vn
  match l with
  | [] => none
  | h :: _ =>
    match h.tlp with
    | none => none
    | some t => some (h, t)

/-- Take the units of the packet of `h` that have come. A packet's last unit stands for it whole. -/
def takePacket (s : State) (vn : Vn) (h : Held) : State :=
  setEjectBuf s moverStop 1 vn (packetRemoved (ejectBuf s moverStop 1 vn) h)

/-- The last unit of the packet of `h` has come. -/
def packetLast (s : State) (vn : Vn) (h : Held) : Bool :=
  (packetUnits (ejectBuf s moverStop 1 vn) h).any fun g => decide (unitsLeft g.u = 0)

/-- Units of a packet before its last one have been taken into the mover's assembly, so that the queue goes on. -/
def takeEarlier (s : State) (vn : Vn) (h : Held) : State :=
  let mine := packetUnits (ejectBuf s moverStop 1 vn) h
  setEjectBuf s moverStop 1 vn ((ejectBuf s moverStop 1 vn).filter fun g =>
    !(decide (unitsLeft g.u ≠ 0) && mine.any fun x => decide (x.id = g.id)))

/-- R88, R133: the VCS of the port that a request came from. -/
def tlpVcs (s : State) (src : BitVec 12) (ld : Nat) : Option Nat := (portOf src).bind fun p => trafficVcs s p ld

/-- R309: the mover completes request `w`. -/
def tlpComplete (s : State) (w : TlpWork) (t : Tlp) : State :=
  sendTlp s moverStop 1 t moverPlace w.src w.tag

/-- The work of request `w` is over. -/
def dropWork (s : State) (w : TlpWork) : State :=
  { s with mov := { s.mov with tlps := s.mov.tlps.filter fun y => decide (y.no ≠ w.no) } }

/-- R309: a posted write of requester `rid` that came to the mover by time `t` still stands in its queue. -/
def postedQueued (s : State) (rid : BitVec 16) (t : Nat) : Bool :=
  (ejectBuf s moverStop 1 .iop).any fun h =>
    match h.tlp with
    | some x => decide (x.kind = .memWrite) && decide (x.requester = rid) && decide (h.since ≤ t)
    | none => false

/-- R309: an earlier posted write of the same requester is still under way. -/
def behindPosted (s : State) (w : TlpWork) : Bool :=
  s.mov.tlps.any fun y => decide (y.no < w.no) && decide (y.tlp.kind = .memWrite) && decide (y.tlp.requester = w.tlp.requester)

/-- The operation of an AtomicOp: kind, width and operands; none for a size that the mover does not support (R307). -/
def tlpAtom (w : TlpWork) (h : Nat) (l : BitVec 42) : Option AtomOp :=
  let t := w.tlp
  let n := t.data.length
  let mk := fun (k : AtomKind) (wd : Nat) (a b : Nat) =>
    some { home := h, line := l, off := t.addr.toNat % 64, width := wd, kind := k, a := BitVec.ofNat 128 a, b := BitVec.ofNat 128 b
           exec := false, no := w.no, owner := none : AtomOp }
  match t.kind with
  | .fetchAdd => if n = 4 ∨ n = 8 then mk .fetchAdd n (leValue t.data) 0 else none
  | .swap => if n = 4 ∨ n = 8 then mk .swap n (leValue t.data) 0 else none
  | .cas =>
    if n = 8 ∨ n = 16 ∨ n = 32 then mk .cas (n / 2) (leValue (t.data.take (n / 2))) (leValue (t.data.drop (n / 2))) else none
  | _ => none

/-- R307: the end of an AtomicOp. -/
def tlpAtomDone (s : State) (no : Nat) (width : Nat) (r : AtomEnd) : State :=
  match s.mov.tlps.find? fun w => decide (w.no = no) with
  | none => s
  | some w =>
    let s1 := dropWork s w
    match r with
    | .value old wrote =>
      let s2 := if wrote then logTrackers s1 w.vcs w.tlp.addr.toNat else s1
      tlpComplete s2 w (completionOf w.tlp 0 (leBytes width old))
    | .failed 0x21 => tlpComplete s1 w { completionOf w.tlp 0 (List.replicate width 0) with poison := true }
    | .failed _ => tlpComplete s1 w (completionOf w.tlp 4 [])

/-- Operations that have ended go to what asked for them. -/
def atomsDone (s : State) (rs : List (AtomOp × AtomEnd)) : State :=
  rs.foldl (fun t q => if q.1.exec then atomDone t q.1.no q.2 else tlpAtomDone t q.1.no q.1.width q.2) s

/-- R307, R309: the work of request `w` starts: a part that no decoder covers any more fails. -/
def startWork (s : State) (w : TlpWork) : State :=
  let t := w.tlp
  let write := decide (t.kind = .memWrite) || decide (t.kind = .deferrableWrite)
  let started := fun (s : State) (id : Nat) => { s with mov := { s.mov with
    tlps := s.mov.tlps.map fun y => if y.no = w.no then { y with acc := some id } else y } }
  if t.kind = .memRead ∨ write then
    openAccess (started s s.mov.nextNo) none w.vcs write false (.tlp w.no) t.addr.toNat (if write then t.data.length else t.len)
      t.data (fun _ => t.poison)
  else
    match (decodeAddr s w.vcs t.addr.toNat).map poolLine with
    | none => tlpAtomDone s w.no 0 (.failed 0x24)
    | some (h, l) =>
      match tlpAtom w h l with
      | none => tlpComplete (dropWork s w) w (completionOf t 1 [])
      | some o => let r := startOp (started s 0) o; atomsDone r.1 r.2

/-- R309: every request that need not wait for a posted write starts. -/
def startWorks (s : State) : State :=
  s.mov.tlps.foldl (fun t w =>
    match t.mov.tlps.find? fun y => decide (y.no = w.no) with
    | some y => if y.acc.isNone && !behindPosted t y then startWork t y else t
    | none => t) s

/-! ### The end of a request (R309) -/

/-- R309: consecutive parts of equal poison up to `mx` bytes. -/
def joinParts (mx : Nat) : List (List Byte × Bool) → List (List Byte × Bool)
  | [] => []
  | (d, p) :: rest =>
    match joinParts mx rest with
    | [] => [(d, p)]
    | (e, q) :: more => if p = q ∧ d.length + e.length ≤ mx then (d ++ e, p) :: more else (d, p) :: (e, q) :: more

/-- R309: completions with data of a read, and Completer Abort for what follows a part that failed. -/
def readEnd (s : State) (w : TlpWork) (a : MovAcc) : State :=
  let ok := a.parts.takeWhile fun x => decide (x.st = .done) || decide (x.st = .bad 0x21)
  let mx := match portOf w.src with | some p => tabGet 128 p s.port.mps | none => 128
  let s1 := (joinParts mx (ok.map fun x => (x.data, x.poison))).foldl (fun t c =>
    tlpComplete t w { completionOf w.tlp 0 c.1 with poison := c.2 }) s
  let n := (ok.map fun x => x.len).foldl (· + ·) 0
  let s2 := bumpVcs s1 w.vcs 48 n
  if ok.length < a.parts.length then tlpComplete s2 w (completionOf w.tlp 4 []) else s2

/-- R235, R309: the writes of request `w` have finished. -/
def writeEnd (s : State) (w : TlpWork) (a : MovAcc) : State :=
  let good := a.parts.filter fun x => decide (x.st = .done)
  let s1 := good.foldl (fun t x => logTrackers (bumpVcs t w.vcs 49 x.len) w.vcs x.addr) s
  if w.tlp.kind = .memWrite then
    match a.failed, portOf w.src with
    | true, some p => aerUnsupported s1 p w.tlp
    | _, _ => s1
  else
    let refused := s.port.np.any fun n => decide (some n.fromPort = portOf w.src) && decide (n.tag = w.tag) &&
      decide (n.tlp.requester = w.tlp.requester) && n.refused
    tlpComplete s1 w (completionOf w.tlp (if refused then 1 else if a.failed then 4 else 0) [])

/-- R309: requests whose access has finished end. -/
def endWorks (s : State) : State :=
  s.mov.tlps.foldl (fun t w =>
    match t.mov.accs.find? fun a => decide (a.use = .tlp w.no) && a.over with
    | none => t
    | some a =>
      let t1 := dropAccess t a.id
      let t2 := if w.tlp.kind = .memRead then readEnd t1 w a else writeEnd t1 w a
      dropWork t2 w) s

/-- A step of the mover with its CXL.io requests. -/
def poolTurn (s : State) : State := moverTurn (startWorks (endWorks (moverTurn (startWorks s))))

/-- R307, R309: a request of kind `k` at the head of the mover's queue enters the mover, once it is whole; a read, a
deferrable write or an AtomicOp not before a posted write of its requester that came earlier. In the safe state no
AtomicOp is accepted (R314). -/
def takeRequest (s : State) (vn : Vn) (k : TlpKind) (atomic : Bool) : State :=
  match headPacket s vn with
  | none => s
  | some (h, t) =>
    if t.kind ≠ k ∨ (vn = .ion ∧ postedQueued s t.requester h.since = true) then s
    else if !packetLast s vn h then takeEarlier s vn h
    else
      let s1 := takePacket s vn h
      let w : TlpWork := { no := s.mov.nextNo, src := h.u.src, tag := h.u.tag, vcs := (tlpVcs s h.u.src t.ld).getD 64, tlp := t, acc := none }
      if atomic && s.flt.safe then tlpComplete s1 w (completionOf t 1 [])
      else
        let s2 := if atomic then bumpVcs s1 w.vcs 45 1 else s1
        poolTurn (takeNo { s2 with mov := { s2.mov with tlps := s2.mov.tlps ++ [w] } })

/-- POOL_MEMORY_READ (R309). -/
def execPoolMemoryRead (s : State) : Host.Outcome State Fault Refusal := .next (takeRequest s .ion .memRead false)

/-- POOL_MEMORY_WRITE (R309). -/
def execPoolMemoryWrite (s : State) : Host.Outcome State Fault Refusal := .next (takeRequest s .iop .memWrite false)

/-- POOL_DEFERRABLE_MEMORY_WRITE (R309). -/
def execPoolDeferrableMemoryWrite (s : State) : Host.Outcome State Fault Refusal :=
  .next (takeRequest s .ion .deferrableWrite false)

/-- POOL_FETCHADD (R307). -/
def execPoolFetchadd (s : State) : Host.Outcome State Fault Refusal := .next (takeRequest s .ion .fetchAdd true)

/-- POOL_SWAP (R307). -/
def execPoolSwap (s : State) : Host.Outcome State Fault Refusal := .next (takeRequest s .ion .swap true)

/-- POOL_CAS (R307). -/
def execPoolCas (s : State) : Host.Outcome State Fault Refusal := .next (takeRequest s .ion .cas true)

/-! ### Answers to the mover cache agent (R278) -/

/-- R263: the entry that a tag names is in quarantine, or is for another line. -/
def cacheStray (s : State) (u : FUnit) : Bool :=
  let t := u.tag.toNat
  let line : Option (BitVec 42) :=
    match poolPart s t, s.mov.fills.find? (fun f => decide (f.tag = t)), s.mov.evs.find? fun e => decide (e.tag = t) with
    | some (_, x), _, _ => x.pool.map Prod.snd
    | none, some f, _ => some f.line
    | none, none, some e => some e.line
    | none, none, none => none
  (tabFind? t s.mov.quar).isSome || (match line with | some l => decide (l ≠ u.line) | none => false)

/-- R278: the mover cache agent takes an answer. -/
def cacheAnswer (s : State) (u : FUnit) : State :=
  let t := u.tag.toNat
  if cacheStray s u then bumpC s 0xC026 0x0C
  else
    match poolPart s t, s.mov.fills.find? (fun f => decide (f.tag = t)), s.mov.evs.find? fun e => decide (e.tag = t) with
    | some (a, x), _, _ => partAnswer s a x u
    | none, some f, _ => let r := fillAnswer s f u; atomsDone r.1 r.2
    | none, none, some e => evictAnswer s e u
    | none, none, none => if isolated s then bumpC s 0xC02D 7 else s

/-- MOVER_CACHE_RESPONSE (R278, R168): the next unit on RSP, or on DAT. -/
def execMoverCacheResponse (dat : Bool) (s : State) : Host.Outcome State Fault Refusal :=
  let vn : Vn := if dat then .dat else .rsp
  let l := ejectBuf s moverStop 2 vn
  match nackFirst l with
  | none => .next s
  | some h => .next (poolTurn (cacheAnswer (setEjectBuf s moverStop 2 vn (l.filter fun g => decide (g.id ≠ h.id))) h.u))

/-! ### Backoff (R168) -/

/-- R168: the wait of entry `t` of the mover cache agent ends. -/
def cacheBackoffEnd (s : State) (t : Nat) : State :=
  match poolPart s t with
  | some (a, x) => if x.st = .back then poolTurn (partAgain s a x) else s
  | none => let r := cacheAgain s t; atomsDone r.1 r.2

/-- PROXY_BACKOFF_END (R168): of entry `t` of the proxy of VCS `ag`, or of the mover cache agent (`ag` = 64), whose 4,096 entries
have the tags from 64 × 512 on (R278). -/
def execProxyBackoffEnd (ag : Fin 65) (t : Fin 4096) (s : State) : Host.Outcome State Fault Refusal :=
  if ag.val = 64 then .next (cacheBackoffEnd s (64 * 512 + t.val))
  else
    match upstreamPort s ag.val with
    | some p => .next (backoffEnd s ag.val p t.val)
    | none => .next s

end Sys2Proof.Machine
end

