-- ==== Sys2Proof/Machine/AulCode.lean ====
section
/-!
DEFINITION. Machine/AulCode.lean: what travels on an Aulum link: the forward error correction of a FEC block (R242 to R244),
the CRC-64 (R247), the flit (R245, R246, R461) and the control flit (R258).
-/

namespace Sys2Proof.Machine

/-! ### GF(2^10) with x^10 + x^3 + 1 (R243) -/

/-- Multiplication by α. -/
def gfDouble (a : BitVec 10) : BitVec 10 := if a.getLsbD 9 then (a <<< 1) ^^^ 0x009#10 else a <<< 1

/-- The product of two symbols. -/
def gfMul (a b : BitVec 10) : BitVec 10 :=
  ((List.range 10).foldl (fun (r : BitVec 10 × BitVec 10) i =>
    (if b.getLsbD i then r.1 ^^^ r.2 else r.1, gfDouble r.2)) (0#10, a)).1

/-- α to the power `n`. -/
def gfPow (n : Nat) : BitVec 10 := (List.range n).foldl (fun a _ => gfDouble a) 1#10

/-- The inverse of a symbol, its 1,022nd power. -/
def gfInv (a : BitVec 10) : BitVec 10 :=
  ((List.range 9).foldl (fun (r : BitVec 10 × BitVec 10) _ =>
    let q := gfMul r.2 r.2
    (gfMul r.1 q, q)) (1#10, a)).1

/-! ### The codewords (R243) -/

/-- The generator polynomial, without its leading 1, highest degree first. -/
def rsGenerator : List (BitVec 10) :=
  (List.range 4).foldl (fun g k =>
    let r := gfPow k
    -- (x − α^k) times what there is, with its leading coefficient left out.
    let full := 1#10 :: g
    ((full.drop 1 ++ [0#10]).zip full).map fun p => p.1 ^^^ gfMul r p.2) []

/-- The four check symbols of data symbols, highest degree first. -/
def rsCheck (data : List (BitVec 10)) : List (BitVec 10) :=
  data.foldl (fun r d =>
    let fb := d ^^^ r.headD 0
    ((r.drop 1 ++ [0#10]).zip rsGenerator).map fun p => p.1 ^^^ gfMul fb p.2) [0#10, 0#10, 0#10, 0#10]

/-- The value of a codeword, highest degree first, at `x`. -/
def rsEval (w : List (BitVec 10)) (x : BitVec 10) : BitVec 10 := w.foldl (fun r c => gfMul r x ^^^ c) 0#10

/-- Add `e` to the symbol of degree `d` of a codeword of `n` symbols. -/
def rsAdd (w : List (BitVec 10)) (d : Nat) (e : BitVec 10) : List (BitVec 10) :=
  let i := w.length - 1 - d
  w.set i (w.getD i 0 ^^^ e)

/-- R243: a codeword with up to two symbol errors corrected, and their number; none where it is uncorrectable. -/
def rsCorrect (w : List (BitVec 10)) : Option (List (BitVec 10) × Nat) :=
  let s0 := rsEval w (gfPow 0)
  let s1 := rsEval w (gfPow 1)
  let s2 := rsEval w (gfPow 2)
  let s3 := rsEval w (gfPow 3)
  if s0 = 0 ∧ s1 = 0 ∧ s2 = 0 ∧ s3 = 0 then some (w, 0)
  else
    let x := gfMul s1 (gfInv s0)
    let single := decide (s0 ≠ 0) && decide (s1 ≠ 0) && decide (gfMul s1 x = s2) && decide (gfMul s2 x = s3)
    if single then
      match (List.range w.length).find? fun d => decide (gfPow d = x) with
      | some d => some (rsAdd w d s0, 1)
      | none => none
    else
      let det := gfMul s0 s2 ^^^ gfMul s1 s1
      if det = 0 then none
      else
        let di := gfInv det
        -- σ(x) = x² + a x + b has the two error locators as roots.
        let a := gfMul di (gfMul s0 s3 ^^^ gfMul s1 s2)
        let b := gfMul di (gfMul s1 s3 ^^^ gfMul s2 s2)
        match (List.range w.length).filter fun d => decide (gfMul (gfPow d) (gfPow d) ^^^ gfMul a (gfPow d) ^^^ b = 0) with
        | [d1, d2] =>
          let y2 := gfMul (gfMul s0 (gfPow d1) ^^^ s1) (gfInv (gfPow d1 ^^^ gfPow d2))
          some (rsAdd (rsAdd w d1 (s0 ^^^ y2)) d2 y2, 2)
        | _ => none

/-- R243: the data symbols of codeword `c` of a flit, in order. -/
def dataSymbols (flit : BitVec 2048) (c : Nat) : List (BitVec 10) :=
  ((List.range 205).filter fun j => decide (j % 3 = c)).map fun j => flit.extractLsb' (10 * j) 10

/-- R243: the position of check symbol `k` of codeword `c`. -/
def checkPosition (c k : Nat) : Nat := 3 * k + (c + 2) % 3

/-- R243: the FEC block of a flit. -/
def fecEncode (flit : BitVec 2048) : BitVec 2168 :=
  let chk : Nat := (List.range 3).foldl (fun m c =>
    (((List.range 4).zip (rsCheck (dataSymbols flit c))).foldl (fun n p => n + p.2.toNat * 2 ^ (10 * checkPosition c p.1)) m)) 0
  BitVec.ofNat 120 chk ++ flit

/-- R243, R244: the flit of a received FEC block with the number of symbols corrected; none where a codeword is
uncorrectable. -/
def fecDecode (b : BitVec 2168) : Option (BitVec 2048 × Nat) :=
  let flit : BitVec 2048 := b.extractLsb' 0 2048
  let word := fun (c : Nat) =>
    dataSymbols flit c ++ (List.range 4).map fun k => b.extractLsb' (2048 + 10 * checkPosition c k) 10
  match rsCorrect (word 0), rsCorrect (word 1), rsCorrect (word 2) with
  | some w0, some w1, some w2 =>
    let sym := fun (j : Nat) => (if j % 3 = 0 then w0.1 else if j % 3 = 1 then w1.1 else w2.1).getD (j / 3) 0#10
    let v : Nat := (List.range 205).foldl (fun n j => n + (sym j).toNat * 2 ^ (10 * j)) 0
    some (BitVec.ofNat 2048 v, w0.2 + w1.2 + w2.2)
  | _, _, _ => none

/-! ### Lane blocks (R242, R244, R253, R256) -/

/-- R242: the sync headers. R242 gives them as numbers and their two positions; bit `p` of the header lies at position `p` (log 26). -/
def dataSync : BitVec 2 := 0b01#2
def controlSync : BitVec 2 := 0b10#2

/-- R244, R256: the lane block that lane `i` of `w` sends in flit time `t` of a FEC block: FEC bit `b` is bit `b / w` of lane `b mod w`,
and goes after the header. -/
def laneBlock (sync : BitVec 2) (w : Nat) (b : BitVec 2168) (i t : Nat) : BitVec 544 :=
  (List.range 542).foldl (fun m p => if b.getLsbD ((542 * t + p) * w + i) then m ||| BitVec.twoPow 544 (p + 2) else m)
    (sync.setWidth 544)

/-- R242: the lane blocks of a FEC block at width `w`. -/
def laneBlocks (sync : BitVec 2) (w : Nat) (b : BitVec 2168) : LaneBlocks :=
  Vector.ofFn fun k => laneBlock sync w b (k.val % w) (k.val / w)

/-- R244, R256: the FEC block that lane blocks carry at width `w`. -/
def fecBlock (w : Nat) (l : LaneBlocks) : BitVec 2168 :=
  (List.range 2168).foldl (fun m b =>
    if (l.toList.getD (b / w / 542 * w + b % w) 0).getLsbD (2 + b / w % 542) then m ||| BitVec.twoPow 2168 b else m) 0

/-- R253: the parity of the 544 bits of a lane block. -/
def blockParity (x : BitVec 544) : Bool := (List.range 544).foldl (fun q n => q ^^ x.getLsbD n) false

/-- R253: the lane parities of the last lane blocks that the given lanes carried, by logical lane. -/
def laneParity (lanes : List Nat) (l : LaneBlocks) : BitVec 4 :=
  ((l.toList.drop (4 - lanes.length)).zip lanes).foldl (fun (m : BitVec 4) p =>
    if blockParity p.1 then m ||| BitVec.twoPow 4 p.2 else m) 0

/-! ### CRC-64 (R247) -/

/-- One byte of the CRC-64, most significant bit first. -/
def crc64Byte (c : BitVec 64) (b : Byte) : BitVec 64 :=
  (List.range 8).foldl (fun x _ => if x.getLsbD 63 then (x <<< 1) ^^^ 0x42F0E1EBA9EA3693#64 else x <<< 1)
    (c ^^^ (b.setWidth 64 <<< 56))

/-- R247: the CRC-64 of bytes in ascending order. -/
def crc64 (bs : List Byte) : BitVec 64 := ~~~ (bs.foldl crc64Byte (BitVec.allOnes 64))

/-- R247: the CRC of a flit's bytes 0 to 247. -/
def flitCrc (body : BitVec 1984) : BitVec 64 := crc64 (leBytes 248 body.toNat)

/-! ### Flits (R245, R246) -/

/-- R245: a flit without its CRC. -/
structure Flit where
  seq : BitVec 12
  ack : BitVec 12
  type : Nat
  parity : BitVec 4
  group : Nat
  credits : BitVec 24
  cls : BitVec 3
  valid : BitVec 3
  slots : BitVec 1920
  deriving DecidableEq, Repr

/-- R245: the header. -/
def flitHeader (f : Flit) : BitVec 64 :=
  f.seq ++ f.ack ++ BitVec.ofNat 4 f.type ++ f.parity ++ BitVec.ofNat 2 f.group ++ f.credits ++ f.cls ++ f.valid

/-- R245, R247: the 256 bytes of a flit. -/
def flitBits (f : Flit) : BitVec 2048 :=
  let body := f.slots ++ flitHeader f
  flitCrc body ++ body

/-- R245: the flit that received bits spell; none where its CRC is bad or its Type has no meaning (R246). -/
def flitOf (w : BitVec 2048) : Option Flit :=
  let h : BitVec 64 := w.extractLsb' 0 64
  let t := (h.extractLsb' 36 4).toNat
  if flitCrc (w.extractLsb' 0 1984) = w.extractLsb' 1984 64 ∧ t ≤ 3 then
    some { seq := h.extractLsb' 52 12, ack := h.extractLsb' 40 12, type := t, parity := h.extractLsb' 32 4
           group := (h.extractLsb' 30 2).toNat, credits := h.extractLsb' 6 24, cls := h.extractLsb' 3 3, valid := h.extractLsb' 0 3
           slots := w.extractLsb' 64 1920 }
  else none

/-- R245: the unit in slot `i`. -/
def slotUnit (slots : BitVec 1920) (i : Nat) : FUnit := unpackUnit (slots.extractLsb' (640 * i) 640)

/-- R245: slots that hold units, from slot 0. -/
def packSlots (us : List FUnit) : BitVec 1920 :=
  BitVec.ofNat 1920 (((List.range 3).zip us).foldl (fun n p => n + (packUnit p.2).toNat * 2 ^ (640 * p.1)) 0)

/-- R461: the additional data of a DATA flit. -/
def flitAad (seq : BitVec 12) (cls valid : BitVec 3) : BitVec 24 := 0#2 ++ seq ++ 1#4 ++ cls ++ valid

/-- R461: the payload of a MAC flit, without its tag. -/
def macFields (first : BitVec 12) (next set : Bool) (count : Nat) (counter : BitVec 64) : BitVec 92 :=
  first ++ 0#6 ++ bit1 next ++ bit1 set ++ BitVec.ofNat 8 count ++ counter

/-- R461: the tag of a group. -/
def groupTag (key : BitVec 256) (epoch : BitVec 32) (group : List (BitVec 24 × BitVec 1920)) (fields : BitVec 92) : BitVec 128 :=
  Config.gcmTag key (epoch ++ fields.extractLsb' 0 64)
    ((group.flatMap fun g => leBytes 3 g.1.toNat) ++ leBytes 12 fields.toNat) (group.map Prod.snd)

/-! ### Control flits (R258) -/

/-- R258: the fields of a control flit. -/
structure Control where
  credits : BitVec 128
  kind : Nat
  versions : BitVec 8
  switch : Nat
  port : Nat
  width : Nat
  epoch : BitVec 32
  recorded : BitVec 32
  next : BitVec 12
  lane : Nat
  spare : Nat
  swEpoch : BitVec 32
  deriving DecidableEq, Repr

/-- R256, R258: the code of a width. -/
def widthCode (w : Nat) : Nat := match w with | 4 => 0 | 2 => 1 | _ => 2

/-- R258: the bits of a control flit. -/
def controlBits (c : Control) : BitVec 384 :=
  c.credits ++ BitVec.ofNat 8 c.kind ++ c.versions ++ BitVec.ofNat 10 c.switch ++ BitVec.ofNat 4 c.port ++ BitVec.ofNat 2 (widthCode c.width) ++
    c.epoch ++ c.recorded ++ c.next ++ BitVec.ofNat 4 c.lane ++ BitVec.ofNat 8 c.spare ++ 0#8 ++ c.swEpoch ++ 0#96

/-- R247, R258: the FEC block of a control flit: bytes 0 to 47 hold its fields, bytes 48 to 247 are zero. -/
def controlBlock (c : Control) : BitVec 2168 :=
  let body : BitVec 1984 := (controlBits c).setWidth 1984
  fecEncode (flitCrc body ++ body)

/-- R258: the fields of a received control flit block at width `w`; none where its FEC cannot be corrected or its CRC is bad. -/
def controlFields (w : Nat) (l : LaneBlocks) : Option (BitVec 384) :=
  match fecDecode (fecBlock w l) with
  | some (f, _) => if flitCrc (f.extractLsb' 0 1984) = f.extractLsb' 1984 64 then some (f.extractLsb' 0 384) else none
  | none => none

/-- R258: the control flit that fields spell; none where it is invalid, or not of the kind asked for. -/
def controlRead (kind : Nat) (w : BitVec 384) : Option Control :=
  let wc := (w.extractLsb' 224 2).toNat
  if (w.extractLsb' 248 8).toNat = kind ∧ wc ≠ 3 then
    some { credits := w.extractLsb' 256 128, kind := kind, versions := w.extractLsb' 240 8, switch := (w.extractLsb' 230 10).toNat
           port := (w.extractLsb' 226 4).toNat, width := match wc with | 0 => 4 | 1 => 2 | _ => 1
           epoch := w.extractLsb' 192 32, recorded := w.extractLsb' 160 32, next := w.extractLsb' 148 12
           lane := (w.extractLsb' 144 4).toNat, spare := (w.extractLsb' 136 8).toNat, swEpoch := w.extractLsb' 96 32 }
  else none

/-- R256, R258: the control flit of kind `kind` that lane blocks carry, at the first of the widths ×4, ×2 and ×1 at which its checks
pass. -/
def controlOf (kind : Nat) (l : LaneBlocks) : Option Control :=
  ([4, 2, 1].findSome? fun w => controlFields w l).bind (controlRead kind)

end Sys2Proof.Machine
end

