-- ==== Sys2Proof/Machine/Cullet.lean ====
section
/-!
DEFINITION. Machine/Cullet.lean: the hold-up energy check (R342, R343) and the records of the cullet map (R436 to R438).
-/

namespace Sys2Proof.Machine

/-! ### Hold-up energy -/

/-- R342: usable energy, µJ, of a reservoir of `c` µF at `v` mV: `0.9 × 0.5 × C × (V² − 8²)`. -/
def usableEnergy (c v : Nat) : Nat :=
  if v ≤ 8000 then 0 else 9 * c * (v * v - 8000 * 8000) / 20000000

/-- R342: OD 8030.02. -/
def eu (s : State) : Nat := usableEnergy s.pow.capUf s.pow.resMv

/-- R343: the energy check for a write of `b` bytes: `Eu ≥ 1.5 × (6 mJ + b × 12.5 nJ)`, in units of 0.25 nJ. -/
def holdupPasses (s : State) (b : Nat) : Bool :=
  decide (6 * (6000000 + b * 25 / 2) ≤ 4000 * eu s)

/-! ### Cullet records -/

/-- R436: the 16 bytes of a cullet record. -/
def Cullet.bits (r : Cullet) : Nat :=
  let st := match r.state with | .free => 0 | .pending => 1 | .active => 2 | .withdrawn => 3
  r.time.toNat * 2 ^ 64 + r.kind.toNat * 2 ^ 56 + st * 2 ^ 54 + r.origin.toNat * 2 ^ 52 + r.location.toNat

/-- A free record number. -/
def culletFree? (s : State) : Option Nat :=
  (List.range' 0 4096).find? fun n => (tabFind? n s.flt.cullet).isNone

/-- R438, R343: start the write of record `n` to MRAM, or leave it for the retry when the energy check fails. -/
def culletWrite (s : State) (n : Nat) : State :=
  if holdupPasses s 16 then { s with flt := { s.flt with writing := setInsert n s.flt.writing } }
  else bumpC s 0xC02A 1

/-- R438: a record is made, logged, and its write started. A full map takes no record. -/
def culletMake (s : State) (kind origin location : Nat) (st : CulletState) : State :=
  match culletFree? s with
  | none => s
  | some n =>
    let r : Cullet :=
      { time := s.time.devTime, kind := BitVec.ofNat 8 kind, state := st, origin := BitVec.ofNat 2 origin,
        location := BitVec.ofNat 48 location, written := false }
    let s1 := { s with flt := { s.flt with cullet := tabPut n r s.flt.cullet } }
    culletWrite (logInfo s1 0xFFFF 0x0010 (BitVec.ofNat 192 r.bits)) n

/-- R437, R438: slice retirements that are PENDING or ACTIVE. -/
def sliceRetirements (s : State) : Nat :=
  (s.flt.cullet.filter fun p => decide (p.2.kind = 3) && (decide (p.2.state = .pending) || decide (p.2.state = .active))).length

/-- R436: the location of a slice record. -/
def sliceLocation (s : State) (phys : Nat) : Nat :=
  match logicalOf s phys with
  | some l => l * 256 + phys
  | none => 0x3F * 256 + phys

/-- R437, R438: a PENDING record retiring physical slice `phys`; beyond two retirements F453 is raised instead. -/
def sliceRetire (s : State) (phys origin : Nat) : State :=
  if 2 ≤ sliceRetirements s then raiseFault s 453 0 (3 * 2 ^ 40 + sliceLocation s phys)
  else culletMake s 3 origin (sliceLocation s phys) .pending

/-- R205, R437: retirements of cache ways of physical slice `phys`. -/
def wayRetirements (s : State) (phys : Nat) : Nat :=
  (s.flt.cullet.filter fun p =>
    decide (p.2.kind = 5) && decide (p.2.location.toNat / 256 = phys) && decide (p.2.state ≠ .withdrawn)).length

end Sys2Proof.Machine
end

