-- ==== Sys2Proof/Machine/DirOps.lean ====
section
/-!
DEFINITION. Machine/DirOps.lean: what acts on the directory as a whole: removals and their passes (R194 to R198), range walks
(R199), RECOVERY (R200 to R203), errors, the marver pass and retired ways (R204, R205), and partitions (R206).
-/

namespace Sys2Proof.Machine

/-! ### The removal list (R194, R196, R198) -/

/-- OD 4020.01: entries in use. -/
def showRemovals (s : State) : State := odSet s 0x4020 1 s.dir.removals.length

/-- R198: the layout of an entry of OD 4020.02. -/
def Removal.bits (r : Removal) : Nat := (if r.isSwitch then 2 else 1) * 2 ^ 30 + r.id

/-- OD 4020.02: the list, 16 entries. -/
def removalBytes (s : State) : List Byte :=
  (List.range 16).flatMap fun i => leBytes 4 (match s.dir.removals[i]? with | some r => r.bits | none => 0)

/-- R196: a pass starts when the list holds a removal that no running pass covers. -/
def passStart (s : State) : State :=
  if s.dir.pass.isSome || s.dir.removals.isEmpty then s
  else
    odSet { s with dir := { s.dir with pass := some 0, removals := s.dir.removals.map fun r => { r with covered := true } } }
      0x4020 5 0

/-- The switch or host is listed. -/
def isListed (s : State) (sw : Bool) (id : Nat) : Bool :=
  s.dir.removals.any fun r => decide (r.isSwitch = sw) && decide (r.id = id)

/-- R194: an entry is added to a list that has room. -/
def listRemoval (s : State) (sw : Bool) (id : Nat) : State :=
  passStart (showRemovals { s with dir := { s.dir with
    removals := s.dir.removals ++ [{ isSwitch := sw, id := id, covered := false }] } })

/-- R194: the host of VCS `v` is to be removed; with a full list it waits for a free entry. -/
def removeHost (s : State) (v : Nat) : State :=
  let id := (hostId s v).toNat
  if isListed s false id || s.dir.hostWait.contains id then s
  else if 16 ≤ s.dir.removals.length then { s with dir := { s.dir with hostWait := s.dir.hostWait ++ [id] } }
  else listRemoval s false id

/-- The way of a cached entry's copy has been freed. -/
def detached (e : DirEntry) : DirEntry := { e with sfWay := none, dirty := true }

/-- R195: way `i` of a line's set, whose entry in the cache is `e` at way `c`, with every listed removal applied: the copy of that
entry, or, before the entry has been filled, the line's own state. -/
def passCached (s : State) (l : Nat) (line : BitVec 42) (c : Nat) (e : DirEntry) (i : Nat) (w : SfWay) : State :=
  let q := cleanState s w.st
  if q.1 = w.st then s
  else if e.sfWay = some i then
    if q.1 = .poisoned ∨ q.1 = .invalid then cacheSet (sfWrite s l line i .invalid) l line c (some (detached e))
    else sfWrite s l line i q.1
  else
    let s1 := bumpC s 0xC024 6
    if q.2 then poisonLine (bumpC (sfWrite s1 l line i .invalid) 0xC024 7) l line else sfWrite s1 l line i q.1

/-- R195: a snoop-filter way with its line's removals applied. -/
def passWay (s : State) (k : Nat) (w : SfWay) : State :=
  let l := k / 4194304
  let line := sfLine s k w
  if w.st = .invalid then s
  else
    match cacheFind s l line, sfFind s l line with
    | some (c, e), some (i, _) => passCached s l line c e i w
    | _, _ => (lineState s l line).1

/-- R196: the removals are applied to the snoop-filter sets `n` to `n + 24` of every slice, and at the start of the pass to
the directory caches and to the entries on their way from them. -/
def passApply (s : State) (n : Nat) : State :=
  let lines := (s.dir.cache.map fun p => p.2.line) ++ s.dir.inserting.map fun p => p.2.line
  let s1 := if n = 0 then lines.foldl (fun t line => (lineState t (homeSlice line) line).1) s else s
  let keys := (tabKeys s1.dir.sf).filter fun k => decide (n ≤ k % 4194304) && decide (k % 4194304 < n + 25)
  keys.foldl (fun t k => (sfSet t k).foldl (fun r w => passWay r k w) t) s1

/-- R196, R359: the next 25 sets of each slice, which are 4 KiB of its snoop filter. -/
def passStep (s : State) : State :=
  match s.dir.pass with
  | none => s
  | some n =>
    if 4194304 ≤ n then s
    else
      let s1 := passApply s n
      let changed := ((List.range 32).filter fun l =>
        s1.dir.sf.any fun p => decide (p.1 / 4194304 = l) && decide (tabFind? p.1 s.dir.sf ≠ some p.2)).length
      match spend? s1 0 (22 * 32 + 23 * changed) with
      | none => s
      | some s2 => odSet { s2 with dir := { s2.dir with pass := some (n + 25) } } 0x4020 5 (min 65535 ((n + 25) / 64))

/-- REMOVAL_PASS_STEP (R196). -/
def execRemovalPassStep (s : State) : Host.Outcome State Fault Refusal :=
  if s.flt.safe then .next s else .next (passStep s)

/-- R198: a removal leaves the list with its notify. -/
def leaveList (s : State) (r : Removal) : State :=
  let s1 := showRemovals { s with dir := { s.dir with removals := s.dir.removals.filter fun x => decide (x ≠ r) } }
  notify s1 0x4020 1 s1.dir.removals.length (BitVec.ofNat 64 r.bits)

/-- R194: hosts that wait take the entries that have become free. -/
def takeWaiting (s : State) : State :=
  let n := 16 - s.dir.removals.length
  let go := s.dir.hostWait.take n
  let s1 := { s with dir := { s.dir with hostWait := s.dir.hostWait.drop n
                                         removals := s.dir.removals ++ go.map fun id => { isSwitch := false, id := id, covered := false } } }
  showRemovals s1

/-- R196, R198: the pass has completed in all slices. -/
def passComplete (s : State) : State :=
  match s.dir.pass with
  | none => s
  | some n =>
    if n < 4194304 then s
    else
      let done := s.dir.removals.filter fun r => r.covered
      let s1 := odSet { s with dir := { s.dir with pass := none } } 0x4020 5 65535
      passStart (takeWaiting (done.foldl leaveList s1))

/-- REMOVAL_PASS_COMPLETE (R196, R198). -/
def execRemovalPassComplete (s : State) : Host.Outcome State Fault Refusal := .next (passComplete s)

/-! ### RECOVERY (R200 to R203) -/

/-- Recovery range `i`. -/
def recovery (s : State) (i : Nat) : Recovery := tabGet recoveryReset i s.dir.recov

/-- R208: what OD 4030 + i and OD 4022.01 report. -/
def showRecovery (s : State) (i : Nat) : State :=
  let r := recovery s i
  let s1 := odSet (odSet (odSet s (0x4030 + i) 6 (if r.active then 1 else 0)) (0x4030 + i) 7 r.vcs.toNat) (0x4030 + i) 8
    r.switches.length
  odSet s1 0x4022 1 (if s1.dir.recov.any fun p => p.2.active then 1 else 0)

/-- Change recovery range `i`. -/
def setRecovery (s : State) (i : Nat) (r : Recovery) : State :=
  showRecovery { s with dir := { s.dir with recov := tabSet recoveryReset i r s.dir.recov } } i

/-- OD (4030 + i).09. -/
def recoverySwitchBytes (s : State) (i : Nat) : List Byte :=
  leBytes 128 ((recovery s i).switches.foldl (fun m w => m ||| 2 ^ w) 0)

/-- R201: a range whose pending set is empty becomes NORMAL. -/
def recoverySettle (s : State) (i : Nat) (tell : Bool) : State :=
  let r := recovery s i
  if r.active && decide (r.vcs = 0) && r.switches.isEmpty then
    let s1 := setRecovery s i { r with active := false }
    if tell then notify s1 (0x4030 + i) 6 0 0 else s1
  else s

/-- R201: VCS `v` leaves the pending set of range `i`. -/
def recoveryDropVcs (s : State) (v i : Nat) : State :=
  let r := recovery s i
  if r.active && r.vcs.getLsbD v then
    recoverySettle (setRecovery s i { r with vcs := r.vcs &&& ~~~ BitVec.twoPow 64 v }) i true
  else s

/-- R201: switch `w` leaves the pending set of range `i`. -/
def recoveryDropSwitch (s : State) (w i : Nat) : State :=
  let r := recovery s i
  if r.active && r.switches.contains w then
    recoverySettle (setRecovery s i { r with switches := setRemove w r.switches }) i false
  else s

/-- R203, R262: RecoveryDone goes to each home whose request waits for nothing any more, unless a grace runs. -/
def recoveryAnswers (s : State) : State :=
  if !s.aul.graces.isEmpty then s
  else
    s.dir.askedBy.foldl (fun t p =>
      if p.2.isEmpty then emit { t with dir := { t.dir with askedBy := tabDel p.1 t.dir.askedBy } } (.peer p.1 .recoveryDone)
      else t) s

/-- R203: VCS `v` has flushed or been reset, for the homes that asked this switch; a home for which it was the last gets
RecoveryDone. -/
def askedDone (s : State) (v : Nat) : State :=
  recoveryAnswers { s with dir := { s.dir with askedBy := s.dir.askedBy.map fun p => (p.1, setRemove v p.2) } }

/-- R201, R203: VCS `v` has flushed, or PERST_N has been asserted at its upstream port. -/
def recoveryVcs (s : State) (v : Nat) : State :=
  askedDone ((List.range 64).foldl (fun t i => recoveryDropVcs t v i) s) v

/-- R201: VCS `v` has become ACTIVE: it is asked for a flush where it is pending. -/
def recoveryAsk (s : State) (v : Nat) : State :=
  if s.dir.recov.any fun p => p.2.active && p.2.vcs.getLsbD v then
    { s with port := { s.port with flushAsked := setInsert v s.port.flushAsked } }
  else s

/-- RECOVERY_FLUSH_COMPLETE (R201): mailbox command 0xC610 from the host of VCS `v`. -/
def execRecoveryFlushComplete (v : Fin 64) (s : State) : Host.Outcome State Fault Refusal := .next (recoveryVcs s v.val)

/-- GPF_COMPLETION (R201): global persistent flush completes at the pool endpoint of VCS `v`. -/
def execGpfCompletion (v : Fin 64) (s : State) : Host.Outcome State Fault Refusal := .next (recoveryVcs s v.val)

/-- RECOVERYDONE (R201): from switch `w`. -/
def execRecoverydone (w : Fin 1024) (s : State) : Host.Outcome State Fault Refusal :=
  .next ((List.range 64).foldl (fun t i => recoveryDropSwitch t w.val i) s)

/-- R201: every granule of range `i` is set POISONED. -/
def recoveryPoison (s : State) (i : Nat) : State := abandonRange s (recovery s i).base (recovery s i).limit

/-- R201: VCS `v` of range `i` is abandoned. -/
def abandonVcs (s : State) (i v : Nat) : State :=
  let r := recovery s i
  if r.active && r.vcs.getLsbD v then
    let s1 := recoveryPoison s i
    recoverySettle (setRecovery s1 i { r with vcs := r.vcs &&& ~~~ BitVec.twoPow 64 v }) i false
  else s

/-- ABANDON_VCS (R201): COMMAND on OD (4030 + i).0A. -/
def execAbandonVcs (i : Fin 64) (v : Fin 64) (s : State) : Host.Outcome State Fault Refusal :=
  answered (abandonVcs s i.val v.val, .ok)

/-- R201: switch `w` of range `i` is abandoned. -/
def abandonSwitch (s : State) (i w : Nat) : State :=
  let r := recovery s i
  if r.active && r.switches.contains w then recoveryDropSwitch (recoveryPoison s i) w i else s

/-- ABANDON_SWITCH (R201): COMMAND on OD (4030 + i).0B. -/
def execAbandonSwitch (i : Fin 64) (w : Fin 1024) (s : State) : Host.Outcome State Fault Refusal :=
  answered (abandonSwitch s i.val w.val, .ok)

/-- RECOVERY_TIMEOUT (R201): the recovery timeout passes with range `i` in RECOVERY. -/
def execRecoveryTimeout (i : Fin 64) (s : State) : Host.Outcome State Fault Refusal :=
  let r := recovery s i.val
  if r.active && !r.timeoutRaised then .next (raiseFault (setRecovery s i.val { r with timeoutRaised := true }) 434 0 i.val)
  else .next s

/-! ### A lost peer (R194, R198) -/

/-- R198 step 2: trackers that await a reply from switch `w` count it as synthesised. -/
def peerTrackers (s : State) (w : Nat) : State :=
  (List.range 32).foldl (fun t l => (tabKeys (slice t l).trk).foldl (fun r n => switchLost r l n w) t) s

/-- R194, R198: the fabric manager declares switch `w` lost. -/
def declareLost (s : State) (w : Nat) : State × Status :=
  if w = ownSwitch s ∨ isListed s true w = true ∨ 16 ≤ s.dir.removals.length then (s, .busy)
  else
    let s1 := listRemoval { s with dir := { s.dir with remote := setRemove w s.dir.remote } } true w
    ((List.range 64).foldl (fun t i => abandonSwitch t i w) (peerTrackers s1 w), .ok)

/-- DECLARE_PEER_LOST (R198): COMMAND on OD 4020.03. -/
def execDeclarePeerLost (w : Fin 1024) (s : State) : Host.Outcome State Fault Refusal := answered (declareLost s w.val)

/-! ### Range walks (R199) -/

/-- R199: a walk starts. -/
def addWalk (s : State) (ext : Option (Nat × Nat × Nat)) (base limit : Nat) : State :=
  { s with dir := { s.dir with walks := s.dir.walks ++ [{ extent := ext, base := base / 64, limit := limit / 64, next := base / 64 }] } }

/-- R208: a 2 MiB-aligned local range. -/
def rangeOk (base limit : Nat) : Bool :=
  decide (base % 2 ^ 21 = 0) && decide ((limit + 1) % 2 ^ 21 = 0) && decide (base ≤ limit) && decide (limit < 2 ^ 48)

/-- R199: the flush of a local pool range. -/
def flushRange (s : State) (base limit : Nat) : State × Status :=
  if !rangeOk base limit then (s, .outOfRange)
  else if s.dir.walks.any fun w => w.extent.isNone then (s, .busy)
  else (odSet (addWalk s none base limit) 0x4021 4 0, .ok)

/-- FLUSH_RANGE_EXECUTE (R199): COMMAND on OD 4021.03 with the range of OD 4021.01 and .02. -/
def execFlushRangeExecute (base limit : BitVec 64) (s : State) : Host.Outcome State Fault Refusal :=
  answered (flushRange s base.toNat limit.toNat)

/-- R199: whom a walk snoops at a line in state `st`, what is left of the state, and the reason. -/
def walkTargets (s : State) (w : Walk) (st : LState) : Targets × LState × Nat :=
  match w.extent with
  | none => (allTargets s st, .invalid, 3)
  | some (v, _, _) =>
    let me : Holder := { host := hostId s v, mover := false }
    let none_ : Targets := { near := [], far := [] }
    match st with
    | .owned o => if o = me then ({ near := [me], far := [] }, .invalid, 2) else (none_, st, 2)
    | .shared h => if h.has s me then ({ near := [me], far := [] }, sharedOr (h.drop s me), 2) else (none_, st, 2)
    | _ => (none_, st, 2)

/-- R199: the home invalidation of one line; none where it has to wait for a tracker or a way. -/
def walkLine (s : State) (w : Walk) (line : BitVec 42) : Option State :=
  let l := (homeSlice line)
  if (trackerFor s l line).isSome then none
  else
    let q := lineState s l line
    let g := walkTargets q.1 w q.2
    if g.1.none then some q.1
    else
      match freeGeneral q.1 l with
      | none => none
      | some t =>
        let cached := (cacheFind q.1 l line).isSome || (insertingFor q.1 l line).isSome
        match pinLine q.1 l line with
        | none => none
        | some s1 =>
          let s2 := if cached then s1 else (fillLine s1 l line).1
          some (invalidateWith s2 l t line q.2 g.2.1 g.1 g.2.2)

/-- R199: at most `n` further lines of a walk. -/
def walkLines (s : State) (w : Walk) : Nat → Nat → State × Nat
  | 0, x => (s, x)
  | n + 1, x =>
    if w.limit < x then (s, x)
    else
      match walkLine s w (BitVec.ofNat 42 x) with
      | none => (s, x)
      | some t => walkLines t w n (x + 1)

/-- OD 4021.04 while a flush walks. -/
def walkProgress (w : Walk) (x : Nat) : Nat := min 65535 ((x - w.base) * 65536 / (w.limit + 1 - w.base))

/-- R199, R359: walk `i` handles the next 128 lines, whose headers are 4 KiB. -/
def walkStep (s : State) (i : Nat) : State :=
  match s.dir.walks[i]? with
  | none => s
  | some w =>
    if w.limit < w.next then s
    else
      match spend? s 0 22 with
      | none => s
      | some s1 =>
        let r := walkLines s1 w 128 w.next
        let s2 := { r.1 with dir := { r.1.dir with walks := r.1.dir.walks.set i { w with next := r.2 } } }
        if w.extent.isNone then odSet s2 0x4021 4 (walkProgress w r.2) else s2

/-- RANGE_WALK_STEP (R199): walk `i` of those under way. -/
def execRangeWalkStep (i : Fin 65536) (s : State) : Host.Outcome State Fault Refusal :=
  if s.flt.safe then .next s else .next (walkStep s i.val)

/-- R199: every line of walk `w` has been handled, and no invalidation of it is under way. -/
def walkOver (s : State) (w : Walk) : Bool :=
  decide (w.limit < w.next) &&
    !(s.home.slices.any fun p => p.2.trk.any fun k =>
      k.2.req.isNone && decide (w.base ≤ k.2.line.toNat) && decide (k.2.line.toNat ≤ w.limit))

/-- R199: walk `i` completes. An extent's walk stays listed until the extent is removed (R99). -/
def walkComplete (s : State) (i : Nat) : State :=
  match s.dir.walks[i]? with
  | none => s
  | some w =>
    if walkOver s w && w.extent.isNone then
      odSet { s with dir := { s.dir with walks := s.dir.walks.eraseIdx i } } 0x4021 4 65535
    else s

/-- RANGE_WALK_COMPLETE (R199). -/
def execRangeWalkComplete (i : Fin 65536) (s : State) : Host.Outcome State Fault Refusal := .next (walkComplete s i.val)

/-! ### Errors (R204, R205) -/

/-- R205, R437: a directory-cache way of slice `l` is retired online: its entries leave it by R189. -/
def retireWay (s : State) (l w : Nat) : State :=
  let phys := physicalOf s l
  if 4 ≤ wayRetirements s phys then raiseFault s 453 0 (5 * 2 ^ 40 + phys * 256 + w)
  else
    let gone := s.dir.cache.filter fun p => decide (p.1 % 16 = w) && decide (p.1 / 131072 = l) && !p.2.pinned
    let s1 := gone.foldl (fun t p => evictAt t l p.1) s
    let s2 := odSet s1 0x4012 (l + 1) (odGet s1 0x4012 (l + 1) ||| 2 ^ w)
    culletMake s2 5 1 (phys * 256 + w) .active

/-- R205: a corrected error of a cache way is counted; with as many as the threshold in the last hour the way is retired. -/
def cacheCorrected (s : State) (l w : Nat) : State :=
  let old := (tabGet [] (l * 16 + w) s.dir.corrected).filter fun t => decide (s.time.clock < t + 3600000000000)
  let n := old.length + 1
  let s1 := bumpC { s with dir := { s.dir with corrected := tabPut (l * 16 + w) (old ++ [s.time.clock]) s.dir.corrected } } 0xC024 8
  if odGet s 0x4022 4 ≤ n ∧ !wayRetired s l w then retireWay s1 l w else s1

/-- R204: the holders of way `j` of set `k` are lost, and its line is invalidated everywhere. An entry in the cache is written back
again. -/
def payloadLost (s : State) (k j : Nat) : State :=
  match (sfSet s k)[j]? with
  | none => s
  | some w =>
    let l := k / 4194304
    let line := sfLine s k w
    if w.st = .invalid then s
    else
      let s1 := match cacheFind s l line with
        | some (c, e) => if e.sfWay = some j then cacheSet s l line c (some { e with dirty := true }) else sfWrite s l line j (.shared (everyHolder s))
        | none => sfWrite s l line j (.shared (everyHolder s))
      let x := slice s1 l
      lostSweep (setSlice s1 l { x with lostLines := x.lostLines ++ [line] }) l

/-- R204: an uncorrectable error in a directory store. -/
def directoryError (s : State) (e : DirError) : State :=
  match e with
  | .cache l w set =>
    let k := (l.val * 8192 + set.val) * 16 + w.val
    match tabFind? k s.dir.cache with
    | none => s
    | some x =>
      if x.dirty then raiseFault s 432 0 (l.val * 2 ^ 32 + w.val * 2 ^ 16 + set.val)
      else if x.pinned then s
      else { s with dir := { s.dir with cache := tabDel k s.dir.cache } }
  | .payload l set b =>
    let k := l.val * 4194304 + set.val
    payloadLost (payloadLost s k (2 * b.val)) k (2 * b.val + 1)
  | .header l set => raiseFault s 433 0 (l.val * 2 ^ 32 + set.val)

/-- DIRECTORY_UNCORRECTABLE (R204). -/
def execDirectoryUncorrectable (e : DirError) (s : State) : Host.Outcome State Fault Refusal := .next (directoryError s e)

/-- R205, R359: the marver pass reads the next 4 KiB of the snoop filter, of whose blocks `blocks` have a corrected error and
are rewritten; `way`: a way of a slice's cache in which an error has been corrected. -/
def marverStep (s : State) (blocks : Nat) (way : Option (Fin 32 × Fin 16)) : State :=
  match spend? s 0 (if blocks = 0 then 22 else 45) with
  | none => s
  | some s1 =>
    let s2 := bumpCBy { s1 with dir := { s1.dir with marver := (s1.dir.marver + 1) % 5242880 } } 0xC024 8 blocks
    match way with
    | some (l, w) => cacheCorrected s2 l.val w.val
    | none => s2

/-- MARVER_PASS_STEP (R205). -/
def execMarverPassStep (blocks : Fin 129) (way : Option (Fin 32 × Fin 16)) (s : State) : Host.Outcome State Fault Refusal :=
  if s.flt.safe then .next s else .next (marverStep s blocks.val way)

/-! ### Partitions (R206) -/

/-- R206: partition `p` as staged; partition 0 is always enabled. -/
def stagedPartition (s : State) (p : Nat) : Partition :=
  { enable := decide (p = 0) || decide (odGet s (0x4014 + p) 1 = 1), base := odGet s (0x4014 + p) 2
    limit := odGet s (0x4014 + p) 3, k := odGet s (0x4014 + p) 4, setBase := odGet s (0x4014 + p) 5 }

/-- R206: the set range of a partition is one that it may have. -/
def partitionFits (p : Partition) : Bool := decide (p.setBase % 2 ^ p.k = 0) && decide (p.setBase + 2 ^ p.k ≤ 4194304)

/-- R206: two set ranges overlap. -/
def partitionsMeet (p q : Partition) : Bool :=
  decide (p.setBase < q.setBase + 2 ^ q.k) && decide (q.setBase < p.setBase + 2 ^ p.k)

/-- R206: no two partitions of a list overlap. -/
def disjointParts : List Partition → Bool
  | [] => true
  | p :: rest => (rest.all fun q => !partitionsMeet p q) && disjointParts rest

/-- R206: the partition commit. -/
def partitionCommit (s : State) : State × Status :=
  let ps := (List.range 8).map (stagedPartition s)
  let on := ps.filter fun p => p.enable
  if s.dir.clearing then (s, .busy)
  else if (on.all partitionFits && disjointParts on) = false then (odSet s 0x4013 2 3, .overlap)
  else
    (odSet { s with dir := { s.dir with parts := ps, clearing := true, sf := [], cache := [], plru := [], inserting := [] } }
      0x4013 2 1, .ok)

/-- PARTITION_COMMIT (R206): COMMAND on OD 4013.01. -/
def execPartitionCommit (s : State) : Host.Outcome State Fault Refusal := answered (partitionCommit s)

/-- PARTITION_CLEAR_DONE (R206): the clearing completes. -/
def execPartitionClearDone (s : State) : Host.Outcome State Fault Refusal :=
  if s.dir.clearing then .next (odSet { s with dir := { s.dir with clearing := false } } 0x4013 2 2) else .next s

end Sys2Proof.Machine
end

