-- ==== Sys2Proof/Machine/Aulum.lean ====
section
/-!
DEFINITION. Machine/Aulum.lean: Aulum ports: their state and partner, control flits, the restart rules and graces (R257 to
R263), restart notices and RecoveryRequest (R203, R262), and training (R240, R254 to R257, R264, R265).
-/

namespace Sys2Proof.Machine

/-! ### Ports (R257, R272) -/

/-- The OD index of port `a`. -/
def aulIdx (a : Nat) : Nat := 0x6100 + a

/-- R257: the link states, as OD (6100 + a).10 numbers them. -/
def linkDisabled : Nat := 0
def linkDown : Nat := 1
def linkTraining : Nat := 2
def linkUp : Nat := 3
def linkPaused : Nat := 4

/-- OD (6100 + a).10. -/
def linkState (s : State) (a : Nat) : Nat := odGet s (aulIdx a) 0x10
def setLink (s : State) (a st : Nat) : State := odSetNotify s (aulIdx a) 0x10 st (BitVec.ofNat 64 a)

/-- OD (6100 + a).11: the version in use. -/
def linkVersion (s : State) (a : Nat) : Nat := odGet s (aulIdx a) 0x11

/-- R253, R240: the physical lane of logical lane `i`; a port that nothing has set up uses its own lanes. -/
def ownLane (a i : Nat) : Nat := 18 * (a / 4) + 4 * (a % 4) + i
def physLane (s : State) (a i : Nat) : Nat := bits (odGet s (aulIdx a) 0x17) (8 * i + 7) (8 * i)

/-- R240: the lane map of a port that uses its own lanes. -/
def ownLanes (a : Nat) : Nat := (List.range 4).foldl (fun n i => n + ownLane a i * 2 ^ (8 * i)) 0

/-- R240: the physical lane of spare `j` of the die of port `a`. -/
def spareLane (a j : Nat) : Nat := 18 * (a / 4) + 16 + j

/-- The ports of the die of port `a`. -/
def diePorts (a : Nat) : List Nat := (List.range 4).map fun q => 4 * (a / 4) + q

/-- R254, R255: physical lane `k` is carrying no logical lane of the die of port `a`, and no request or move names it. -/
def spareFree (s : State) (a k : Nat) : Bool :=
  (diePorts a).all fun b =>
    let x := aulPort s b
    ((List.range 4).all fun i => decide (physLane s b i ≠ k)) && decide (x.asking.map Prod.snd ≠ some k) &&
      decide (x.moving.map Prod.snd ≠ some k)

/-- R258: the initial credits that this end offers: free cells of each class half. -/
def initialCredits (s : State) (a : Nat) : BitVec 128 :=
  let held := fun (v : Nat) => ((linkQueue s a (vnOf (v / 2))).filter fun h => decide (h.inp % 2 = v % 2)).length
  BitVec.ofNat 128 ((List.range 16).foldl (fun n v =>
    n + min 255 (if v % 2 = 1 ∧ odGet s 0x6000 2 = 0 then 0 else classLimit s (96 + a) (8 + v / 2) (v % 2) - held v) * 2 ^ (8 * v)) 0)

/-- R264: the versions that this end offers. -/
def versionsOffered (s : State) (a : Nat) : BitVec 8 := if odGet s (aulIdx a) 2 = 1 then 1 else 3

/-- R258: a control flit of this end. -/
def ownControl (s : State) (a kind lane spare : Nat) : Control :=
  let x := aulPort s a
  { credits := if kind = 1 then initialCredits s a else 0, kind := kind, versions := versionsOffered s a, switch := ownSwitch s, port := a
    width := x.lanes.length, epoch := BitVec.ofNat 32 (odGet s (aulIdx a) 0x15)
    recorded := BitVec.ofNat 32 (odGet s (aulIdx a) 0x16), next := x.expect, lane := lane, spare := spare
    swEpoch := BitVec.ofNat 32 (odGet s 0x6000 5) }

/-- R253, R258: a control flit is sent; no lane parity is taken over it. -/
def sendControl (s : State) (a kind lane spare : Nat) : State :=
  let x := aulPort s a
  emit (setAulPort s a { x with parOut := none })
    (.aulumControl a (laneBlocks controlSync x.lanes.length (controlBlock (ownControl s a kind lane spare))))

/-- R253: a control flit has been received: no lane parity is compared against its block. -/
def gotControl (s : State) (a : Nat) : State := setAulPort s a { aulPort s a with parIn := none }

/-- R257, R259: the link goes DOWN; its replay buffer and transmit queue are held. -/
def aulumDown (s : State) (a : Nat) : State :=
  let x := aulPort s a
  setLink (setAulPort s a { x with resend := none, nakIn := false, nakDue := false, nakAt := none, parIn := none, parOut := none
                                   asking := none, moving := none }) a linkDown

/-- R257: an UP or PAUSED link, or one in TRAINING, loses its link (a reference clock or a lane is lost). -/
def aulumLinkLost (s : State) (a : Nat) : State :=
  if linkState s a = linkUp ∨ linkState s a = linkPaused ∨ linkState s a = linkTraining then aulumDown s a else s

/-- R257, R340, R492: port `a` may train: start-up has come to its training, its island is OPEN and the reference clock of its die
is stable. -/
def aulMayTrain (s : State) (a : Nat) : Bool :=
  s.pow.mainOn && decide (8 ≤ s.pow.step) && decide (islandState s a = 0) && decide (odGet s 0x8042 (a / 4 + 1) = 1)

/-- R257: training starts. -/
def startTraining (s : State) (a : Nat) : State :=
  sendControl (setLink (setAulPort s a { aulPort s a with lanes := [0, 1, 2, 3], agreed := false }) a linkTraining) a 1 0 0

/-- R257, R492: port `a` starts training, or stays DOWN while it may not. -/
def tryTraining (s : State) (a : Nat) : State := if aulMayTrain s a then startTraining s a else setLink s a linkDown

/-- A nonzero 32-bit draw of the security core (R260). -/
def drawEpoch (s : State) : State × Nat :=
  let e := (freshVal s).toNat % 2 ^ 32
  (drawn s, if e = 0 then 1 else e)

/-- R260, R461: port `a` draws a port epoch. -/
def drawPortEpoch (s : State) (a : Nat) : State :=
  let q := drawEpoch s
  odSet (odSet q.1 (aulIdx a) 0x15 q.2) (0xB100 + a) 9 0

/-- R66, R74, R260: the island of port `a` has opened. -/
def aulumIslandOpen (s : State) (a : Nat) : State :=
  let s1 := drawPortEpoch s a
  if odGet s1 (aulIdx a) 1 = 1 ∧ !s.flt.isoAulum.contains a then tryTraining s1 a else s1

/-! ### The restart rules (R261, R263) -/

/-- R261: what the rules apply to: entries that involve switch `w`, or any other switch, that were there at `start`. -/
def involves (s : State) (w : Option Nat) (h : Nat) : Bool :=
  match w with
  | some n => decide (h = n)
  | none => decide (h ≠ ownSwitch s)

/-- R261: an answer is synthesised. -/
def restartAnswer (s : State) : State := bumpC s 0xC026 0x0B

/-- R263: entry `t` of the proxy of VCS `v` enters quarantine. -/
def proxyQuarantine (s : State) (v t : Nat) (l : BitVec 42) : State :=
  let x := proxy s v
  setProxy s v { x with quarantine := tabPut t l x.quarantine }

/-- R261: the entries of the proxy of VCS `v`. -/
def restartProxy (s : State) (w : Option Nat) (start v : Nat) : State :=
  match upstreamPort s v with
  | none => s
  | some p =>
    let x := proxy s v
    let hit := fun (q : Option (Nat × BitVec 42)) (t : Nat) =>
      match q with
      | some (h, _) => involves s w h && decide (t ≤ start)
      | none => false
    let reqs := x.reqs.filter fun e => decide (e.st = .issued) && hit e.pool e.started
    let evs := x.evs.filter fun e => e.issued && hit e.pool e.started
    let wrs := x.wrs.filter fun e => (decide (e.st = .sent) || decide (e.st = .go)) && hit e.pool e.started
    let s1 := reqs.foldl (fun t e =>
      proxyQuarantine (restartAnswer (failEntry t v p e.tag none true)) v e.tag ((e.pool.map Prod.snd).getD 0)) s
    let s2 := evs.foldl (fun t e =>
      let y := proxy t v
      issueEvict (bumpC (setProxy t v { y with evs := y.evs.map fun z => if z.tag = e.tag then { z with reissued := true } else z })
        0xC026 0x0D) v p e t.time.clock) s1
    wrs.foldl (fun t e =>
      let y := proxy t v
      let e1 := { e with st := .sent }
      issueWrite (bumpC (setProxy t v { y with wrs := y.wrs.map fun z => if z.tag = e.tag then e1 else z }) 0xC026 0x0D) v p e1 t.time.clock) s2

/-- R159, R261: the targets that tracker `k` has at switch `n`. -/
def targetsAt (s : State) (k : Tracker) (n : Nat) : Nat :=
  match k.was with
  | .shared h =>
    (((h.targets s).far.filter fun q => decide (q.1 = n)).map fun q =>
      ((List.range 64).filter fun v => q.2.1.getLsbD v).length + if q.2.2 then 1 else 0).foldl (· + ·) 0
  | _ => 1

/-- R261: the trackers of slice `l`. Each target's synthesised answer counts. -/
def restartSlice (s : State) (w : Option Nat) (start l : Nat) : State :=
  (slice s l).trk.foldl (fun t p =>
    if p.2.started ≤ start then
      (p.2.waitSwitches.filter fun n => involves s w n).foldl (fun r n =>
        let r1 := bumpCBy (switchLost r l p.1 n) 0xC026 0x0B (targetsAt r p.2 n)
        let x := slice r1 l
        setSlice r1 l { x with quar := tabPut p.1 p.2.line x.quar }) t
    else t) s

/-- A tag of the mover cache agent enters quarantine (R263). -/
def moverQuarantine (s : State) (t : Nat) (l : BitVec 42) : State :=
  { s with mov := { s.mov with quar := tabPut t l s.mov.quar } }

/-- R261: a RdOwn of the mover cache is answered with poison. -/
def fillFailed (s : State) (f : CacheFill) : State :=
  let r := fillAnswer s f { homeRsp 8 cachePlace cachePlace (BitVec.ofNat 16 f.tag) f.line with poison := true, synth := true }
  atomsDone r.1 r.2

/-- R261, R263, R233: an eviction of the mover cache is issued again. -/
def evictReissue (s : State) (e : CacheEvict) : State :=
  let f := { e with st := if e.st = .go then .wrOwn else e.st, reissued := true }
  if f.st = .wrOwn then evictWrOwn s f else sendEvict (setEvict s f) f

/-- R261: the requests and lines of the mover: `only`: the tags that the rules reach, or all. -/
def restartMover (s : State) (w : Option Nat) (only : Option (List Nat)) : State :=
  let reach := fun (t : Nat) => match only with | some l => l.contains t | none => true
  let partHit := fun (x : MovPart) =>
    match x.pool with
    | some (h, _) => (decide (x.st = .out) || decide (x.st = .go)) && involves s w h && reach x.tag
    | none => false
  let parts := s.mov.accs.flatMap fun a => a.parts.filter partHit
  let bad := fun (a : MovAcc) => { a with parts := a.parts.map fun x => if partHit x then { x with st := .bad 0x21 } else x }
  let s1 := { s with mov := { s.mov with accs := s.mov.accs.map bad } }
  let s2 := parts.foldl (fun t x => moverQuarantine (restartAnswer t) x.tag ((x.pool.map Prod.snd).getD 0)) s1
  let fills := s.mov.fills.filter fun f => !f.back && involves s w f.home && reach f.tag
  let s3 := fills.foldl (fun t f => moverQuarantine (restartAnswer (fillFailed t f)) f.tag f.line) s2
  let evs := s.mov.evs.filter fun e => !e.back && involves s w e.home && reach e.tag
  evs.foldl (fun t e => evictReissue (bumpC t 0xC026 0x0D) e) s3

/-- R261: the tags of the mover that are outstanding to another switch. -/
def moverTags (s : State) : List Nat :=
  (s.mov.accs.flatMap fun a => (a.parts.filter fun x =>
    match x.pool with
    | some (h, _) => (decide (x.st = .out) || decide (x.st = .go)) && decide (h ≠ ownSwitch s)
    | none => false).map fun x => x.tag) ++
    (s.mov.fills.filter fun f => decide (f.home ≠ ownSwitch s)).map (fun f => f.tag) ++
      (s.mov.evs.filter fun e => decide (e.home ≠ ownSwitch s)).map (fun e => e.tag)

/-- R261: the immediate part for switch `n`. -/
def restartImmediate (s : State) (n : Nat) : State :=
  let s1 := (List.range 64).foldl (fun t v => restartProxy t (some n) s.time.clock v) s
  let s2 := (List.range 32).foldl (fun t l => restartSlice t (some n) s.time.clock l) s1
  restartMover s2 (some n) none

/-- R261: a grace starts. -/
def startGrace (s : State) : State :=
  { s with aul := { s.aul with graces := s.aul.graces ++ [{ start := s.time.clock, tags := moverTags s }] } }

/-- R261: the rules for switch `n`, once for each of its epochs, the first that is known of it among them. -/
def switchEpoch (s : State) (n : Nat) (e : BitVec 32) : State :=
  if tabFind? n s.aul.epochs = some e then s
  else startGrace (restartImmediate { s with aul := { s.aul with epochs := tabPut n e s.aul.epochs } } n)

/-- R261: the oldest grace ends. -/
def graceEnd (s : State) : State :=
  match s.aul.graces with
  | [] => s
  | g :: rest =>
    let s0 := { s with aul := { s.aul with graces := rest } }
    let s1 := (List.range 64).foldl (fun t v => restartProxy t none g.start v) s0
    let s2 := (List.range 32).foldl (fun t l => restartSlice t none g.start l) s1
    recoveryAnswers (restartMover s2 none (some g.tags))

/-- RESTART_GRACE_EXPIRE (R261). -/
def execRestartGraceExpire (s : State) : Host.Outcome State Fault Refusal := .next (graceEnd s)

/-! ### Restart notices and recovery (R203, R262) -/

/-- R262: the path to switch `w` is up: a member port of the group toward it is UP. -/
def pathUp (s : State) (w : Nat) : Bool :=
  match groupFor s (activeEpoch s) (blankUnit .ion 0 0 (switchCode w) 0 0) w with
  | some g => (maskPorts (linkMask s (activeEpoch s) g)).any fun a => decide (linkState s a = linkUp)
  | none => false

/-- R262: the restart notice is sent to member `w`. -/
def noticeTo (s : State) (w : Nat) : State :=
  emit { s with aul := { s.aul with noticed := setInsert w s.aul.noticed } }
    (.peer w (.restartNotice (BitVec.ofNat 32 (odGet s 0x6000 5))))

/-- R262: a link has come UP, or routes or members have changed: members whose path is up now get the notice. -/
def noticeMembers (s : State) : State :=
  (List.range 1024).foldl (fun t w =>
    if isMember s w && decide (w ≠ ownSwitch s) && !s.aul.noticed.contains w && pathUp s w then noticeTo t w else t) s

/-- R61, R262: the commit of the inactive bank; members to which it opens a path get their notice. -/
def routeCommit (s : State) : State × Status :=
  if odGet s 0x3033 3 = 1 then (s, .busy)
  else (noticeMembers (odSet (odSet s 0x3033 2 (1 - odGet s 0x3033 2)) 0x3033 3 1), .ok)

/-- ROUTE_COMMIT (R61): COMMAND on OD 3033.01. -/
def execRouteCommit (s : State) : Host.Outcome State Fault Refusal := answered (routeCommit s)

/-- RESTART_NOTICE_REPEAT (R262): 10 ms after the last notice to member `w`. -/
def execRestartNoticeRepeat (w : Fin 1024) (s : State) : Host.Outcome State Fault Refusal :=
  if isMember s w.val ∧ w.val ≠ ownSwitch s ∧ !s.aul.acked.contains w.val ∧ pathUp s w.val then .next (noticeTo s w.val) else .next s

/-- RESTART_NOTICE (R261, R262): from switch `w`, with its switch epoch. -/
def execRestartNotice (w : Fin 1024) (epoch : BitVec 32) (s : State) : Host.Outcome State Fault Refusal :=
  .next (emit (switchEpoch s w.val epoch) (.peer w.val .restartAck))

/-- R203, R262: member `w` has acknowledged the notice; it is asked for recovery where a range awaits it. -/
def noticeAck (s : State) (w : Nat) : State :=
  let s1 := { s with aul := { s.aul with acked := setInsert w s.aul.acked, noticed := setInsert w s.aul.noticed } }
  if (s.dir.recov.any fun p => p.2.active && p.2.switches.contains w) && !s.dir.asked.contains w then
    emit { s1 with dir := { s1.dir with asked := setInsert w s1.dir.asked } } (.peer w .recoveryRequest)
  else s1

/-- RESTART_NOTICE_ACK (R262). -/
def execRestartNoticeAck (w : Fin 1024) (s : State) : Host.Outcome State Fault Refusal := .next (noticeAck s w.val)

/-- R203: an ACTIVE VCS that has a committed decoder whose pool base names switch `w`. -/
def decodesTo (s : State) (v w : Nat) : Bool :=
  decide (odGet s (0x2200 + v) 3 = 2) &&
    (List.range 32).any fun i => (decoder s v i).committed && decide (poolBase s v i / 2 ^ 48 = w)

/-- R203: RecoveryRequest from home switch `w`. -/
def recoveryRequested (s : State) (w : Nat) : State :=
  let vs := (List.range 64).filter fun v => decodesTo s v w
  let s1 := { s with dir := { s.dir with askedBy := tabPut w vs s.dir.askedBy } }
  let s2 := vs.foldl (fun t v => { t with port := { t.port with flushAsked := setInsert v t.port.flushAsked } }) s1
  recoveryAnswers (evictRange s2 fun x => decide (x.home = w)).1

/-- RECOVERY_REQUEST_RECEIVE (R203). -/
def execRecoveryRequestReceive (w : Fin 1024) (s : State) : Host.Outcome State Fault Refusal := .next (recoveryRequested s w.val)

/-- QUARANTINE_EXPIRE (R263). -/
def execQuarantineExpire (q : QuarEntry) (s : State) : Host.Outcome State Fault Refusal :=
  match q with
  | .proxyEntry v t =>
    let x := proxy s v.val
    .next (setProxy s v.val { x with quarantine := tabDel t.val x.quarantine })
  | .trackerEntry l t =>
    let x := slice s l.val
    .next (setSlice s l.val { x with quar := tabDel t.val x.quar })
  | .moverEntry t => .next { s with mov := { s.mov with quar := tabDel t.val s.mov.quar } }

/-! ### Sparing (R254, R255) -/

/-- R254: the faults of logical lane `i` inside the window now. -/
def lanesFaults (s : State) (x : AulPort) (i : Nat) : Nat :=
  ((tabGet [] i x.faults).filter fun t => decide (s.time.clock < t + odGet s 0x6130 2 * 1000000)).length

/-- R254: a logical lane in use that has reached the threshold. -/
def badLane (s : State) (x : AulPort) : Option Nat := x.lanes.find? fun i => decide (odGet s 0x6130 1 ≤ lanesFaults s x i)

/-- R254: port `a` may ask for a spare: sparing is enabled, both ends run version 2, and no request or move is under way. -/
def maySpare (s : State) (a : Nat) : Bool :=
  let x := aulPort s a
  decide (odGet s 0x6130 3 ≠ 0) && decide (linkVersion s a = 2) && decide (linkState s a = linkUp) && x.asking.isNone

/-- R240, R255: the spares that port `a` may use: free, connected to its partner, and not refused by it. -/
def sparesFor (s : State) (a : Nat) : List Nat :=
  let x := aulPort s a
  [0, 1].filter fun j => x.spares.getLsbD j && !x.denied.getLsbD j && spareFree s a (spareLane a j)

/-- R255: the spares that lower-numbered ports of the die of port `a` take, whose lanes have reached the threshold too. -/
def sparesTaken (s : State) (a : Nat) : List Nat :=
  ((diePorts a).filter fun b => decide (b < a)).foldl (fun l b =>
    if maySpare s b && (badLane s (aulPort s b)).isSome then
      (match (sparesFor s b).find? fun j => !l.contains j with
       | some j => l ++ [j]
       | none => l)
    else l) []

/-- R254, R255: port `a` asks for a spare where a lane is above the threshold, or reports that there is none. -/
def seekSpare (s : State) (a : Nat) : State :=
  let x := aulPort s a
  if !maySpare s a then s
  else
    match badLane s x with
    | none => s
    | some i =>
      match (sparesFor s a).find? fun j => !(sparesTaken s a).contains j with
      | some j => sendControl (setAulPort s a { x with asking := some (i, spareLane a j) }) a 2 i (spareLane a j)
      | none =>
        if x.sparesOut then s
        else raiseFault (setAulPort s a { x with sparesOut := true }) (97 + 4 * a) 0 (ownLane a i)

/-- R254 step 3: both ends stop sending DATA and MAC, and move lane `i` onto the spare: the link pauses. -/
def pauseFor (s : State) (a i k : Nat) : State :=
  setLink (setAulPort s a { aulPort s a with asking := none, moving := some (i, k) }) a linkPaused

/-- R255: a SPARE_REQ is received. -/
def spareReq (s : State) (a : Nat) (c : Control) : State :=
  let x := aulPort s a
  let k := spareLane a ((c.spare % 18) - 16)
  let partner := (x.partner.map fun q => q.switch).getD 0
  let first := x.asking.isSome && decide (ownSwitch s < partner)
  let s1 := if first then s else setAulPort s a { x with asking := none }
  if linkState s a ≠ linkUp ∨ linkVersion s a ≠ 2 then s
  else if !first && decide (16 ≤ c.spare % 18) && x.spares.getLsbD ((c.spare % 18) - 16) && spareFree s1 a k && decide (c.lane < 4) then
    pauseFor (sendControl s1 a 3 c.lane k) a c.lane k
  else sendControl s a 4 0 0

/-- SPARE_REQ (R254, R255). -/
def execSpareReq (a : Fin 16) (blocks : LaneBlocks) (s : State) : Host.Outcome State Fault Refusal :=
  match controlOf 2 blocks with
  | some c => .next (spareReq (gotControl s a.val) a.val c)
  | none => .next (gotControl s a.val)

/-- SPARE_ACK (R254). -/
def execSpareAck (a : Fin 16) (blocks : LaneBlocks) (s : State) : Host.Outcome State Fault Refusal :=
  let s1 := gotControl s a.val
  match controlOf 3 blocks, (aulPort s a.val).asking with
  | some _, some (i, k) => if linkState s a.val = linkUp then .next (pauseFor s1 a.val i k) else .next s1
  | _, _ => .next s1

/-- R255: the partner refuses the spare that port `a` asked for: it is not asked for again before RESUME. -/
def spareRefused (s : State) (a : Nat) : State :=
  let x := aulPort s a
  match x.asking with
  | some (_, k) => seekSpare (setAulPort s a { x with asking := none, denied := x.denied ||| BitVec.twoPow 2 (k % 18 - 16) }) a
  | none => s

/-- SPARE_REFUSE (R255): the request is made again after RESUME. -/
def execSpareRefuse (a : Fin 16) (blocks : LaneBlocks) (s : State) : Host.Outcome State Fault Refusal :=
  match controlOf 4 blocks with
  | some _ => .next (spareRefused (gotControl s a.val) a.val)
  | none => .next (gotControl s a.val)

/-- R254, R260: unacknowledged flits before the peer's next expected sequence are acknowledged, and the others are replayed. -/
def replayFrom (x : AulPort) (next : BitVec 12) : AulPort :=
  let n := (next - (x.replay.headD { seq := next, mac := false, cls := 0, valid := 0, slots := 0, tries := 0 }).seq).toNat
  let kept := if n ≤ x.replay.length then x.replay.drop n else x.replay
  { x with replay := kept, resend := if kept.isEmpty then none else some 0 }

/-- R254: the lane of port `a` that is being moved is on its spare. -/
def laneMoved (s : State) (a i k : Nat) : State :=
  let old := physLane s a i
  let m := odGet s (aulIdx a) 0x17
  let s1 := bumpC (odSet s (aulIdx a) 0x17 (m - old * 2 ^ (8 * i) + k * 2 ^ (8 * i))) 0xC026 8
  let x := aulPort s1 a
  culletMake (setAulPort s1 a { x with moving := none, faults := tabDel i x.faults }) 1 1 (a * 2 ^ 16 + k * 256 + old) .active

/-- R254 steps 4 and 5: the lane of a PAUSED port has been moved, and RESUME goes out with the next expected sequence as it is now. -/
def sendResume (s : State) (a : Nat) : State :=
  match (aulPort s a).moving with
  | some (i, k) => sendControl (laneMoved s a i k) a 5 0 0
  | none => s

/-- R254, R257: RESUME is received: this end, if it has not done so, moves its lane and sends its own. -/
def resume (s : State) (a : Nat) (c : Control) : State :=
  if linkState s a = linkPaused then
    let s1 := sendResume s a
    let x := aulPort s1 a
    seekSpare (setLink (setAulPort s1 a { replayFrom x c.next with denied := 0 }) a linkUp) a
  else s

/-- RESUME (R254). -/
def execResume (a : Fin 16) (blocks : LaneBlocks) (s : State) : Host.Outcome State Fault Refusal :=
  match controlOf 5 blocks with
  | some c => .next (resume (gotControl s a.val) a.val c)
  | none => .next (gotControl s a.val)

/-- PAUSE_TIMEOUT (R257): 2 µs pass in PAUSED. -/
def execPauseTimeout (a : Fin 16) (s : State) : Host.Outcome State Fault Refusal :=
  if linkState s a.val = linkPaused then .next (aulumDown s a.val) else .next s

/-! ### Training (R256, R257, R260, R264) -/

/-- R256: the lanes on which a port trains, of those that work. -/
def trainLanes (work : BitVec 4) : List Nat :=
  if work = 0xF then [0, 1, 2, 3]
  else if work.getLsbD 0 && work.getLsbD 1 then [0, 1]
  else if work.getLsbD 2 && work.getLsbD 3 then [2, 3]
  else ((List.range 4).filter fun i => work.getLsbD i).take 1

/-- R264: the highest version that both ends offer. -/
def agreedVersion (s : State) (a : Nat) (c : Control) : Option Nat :=
  let m := versionsOffered s a &&& c.versions
  if m.getLsbD 1 then some 2 else if m.getLsbD 0 then some 1 else none

/-- R260: units in flits. -/
def unitsIn (l : List FlitRec) : Nat :=
  (l.map fun f => if f.mac then 0 else ((List.range 3).filter fun i => f.valid.getLsbD i).length).foldl (· + ·) 0

/-- R260, R462: a link reset of port `a`. The open transmit group ends with its flits. -/
def linkReset (s : State) (a : Nat) : State :=
  let x := aulPort s a
  let s1 := bumpCBy (bumpC s 0xC026 9) 0xC026 0x0A (unitsIn x.replay)
  let c := odGet s (0xB100 + a) 9
  let s2 := if x.txGroup.isEmpty then s1 else odSet s1 (0xB100 + a) 9 (c + 1)
  setAulPort s2 a { x with seq := 0, expect := 0, ack := 4095, accepted := 0, replay := [], resend := none, rxGroup := [], txGroup := []
                           macDue := false, rxCount := 0, rollMac := none }

/-- R257, R260: port `a` enters UP with a partner. -/
def enterUp (s : State) (a v : Nat) (lanes : List Nat) (c : Control) : State :=
  let x := aulPort s a
  let me : Partner := { switch := c.switch, port := c.port, epoch := c.epoch, swEpoch := c.swEpoch }
  let s1 :=
    match x.partner with
    | none => setAulPort s a { x with seq := 0, expect := 0, ack := 4095, accepted := 0 }
    | some q =>
      if q.switch ≠ c.switch then raiseFault (startGrace (linkReset s a)) (99 + 4 * a) 0 (c.switch * 16 + c.port)
      else if q.swEpoch ≠ c.swEpoch then linkReset s a
      else if q.port ≠ c.port then raiseFault (startGrace (linkReset s a)) (99 + 4 * a) 0 (c.switch * 16 + c.port)
      else if q.epoch ≠ c.epoch then startGrace (linkReset s a)
      else setAulPort s a (replayFrom x c.next)
  let y := aulPort s1 a
  let init := ((List.range 16).map fun v => (v, (c.credits.extractLsb' (8 * v) 8).toNat)).filter fun p => decide (p.2 ≠ 0)
  let s2 := setAulPort s1 a { y with
    partner := some me, credInit := init, seen := [], freedTotal := [], sent := [], freed := [], told := [], group := 0, parIn := none
    parOut := none, lanes := lanes, nakIn := false, nakDue := false, nakAt := none, denied := 0, refused := false, agreed := false }
  let i := aulIdx a
  let s3 := odSet (odSet (odSet (odSet (odSet s2 i 0x11 v) i 0x12 lanes.length) i 0x13 c.switch) i 0x14 c.port) i 0x16 c.epoch.toNat
  let s4 := setLink s3 a linkUp
  let s5 := if lanes.length < 4 then raiseFault s4 (96 + 4 * a) 0 lanes.length else s4
  noticeMembers s5

/-- R257, R265, R464: the port may not come UP at version 1. -/
def versionRefused (s : State) (a v : Nat) : Bool :=
  decide (v = 1) && (decide (odGet s 0x6000 2 = 1) || s.sec.cert.encRequired.getLsbD a)

/-- R257: a TS is received; `work`: the logical lanes that work; `spares`: the spares that training found connected to the
same partner switch and port die. -/
def trainingSet (s : State) (a : Nat) (work : BitVec 4) (spares : BitVec 2) (c : Control) : State :=
  let st := linkState s a
  if st = linkUp then aulumDown (switchEpoch s c.switch c.swEpoch) a
  else if st = linkTraining then
    let s1 := switchEpoch s c.switch c.swEpoch
    let lanes := trainLanes work
    match agreedVersion s1 a c with
    | none => s1
    | some v =>
      if lanes.length ≠ c.width ∨ lanes.isEmpty then
        sendControl (setAulPort s1 a { aulPort s1 a with lanes := lanes }) a 1 0 0
      else if versionRefused s1 a v then
        let x := aulPort s1 a
        let s2 := setAulPort s1 a { x with refused := true, agreed := true }
        if x.refused then s2 else raiseFault s2 (98 + 4 * a) 0 c.switch
      else
        let s2 := sendControl (setAulPort s1 a { aulPort s1 a with lanes := lanes, spares := spares }) a 1 0 0
        enterUp s2 a v lanes c
  else s

/-- TS (R257, R260). -/
def execTs (a : Fin 16) (work : BitVec 4) (spares : BitVec 2) (blocks : LaneBlocks) (s : State) :
    Host.Outcome State Fault Refusal :=
  match controlOf 1 blocks with
  | some c => .next (trainingSet (gotControl s a.val) a.val work spares c)
  | none => .next (gotControl s a.val)

/-- TRAINING_TIMEOUT (R257): no agreement within 100 ms; a version that was refused is an agreement. -/
def execTrainingTimeout (a : Fin 16) (s : State) : Host.Outcome State Fault Refusal :=
  if linkState s a.val = linkTraining ∧ !(aulPort s a.val).agreed then .next (aulumDown s a.val) else .next s

/-- RETRAIN_INTERVAL (R257): a DOWN port trains again, and a refused version is tried again. -/
def execRetrainInterval (a : Fin 16) (s : State) : Host.Outcome State Fault Refusal :=
  if aulMayTrain s a ∧ (linkState s a.val = linkDown ∨ (linkState s a.val = linkTraining ∧ (aulPort s a.val).agreed)) then
    .next (startTraining s a.val)
  else .next s

/-- SYNC_LOSS (R257): invalid sync on a used lane for 64 consecutive blocks. -/
def execSyncLoss (a : Fin 16) (s : State) : Host.Outcome State Fault Refusal :=
  if linkState s a.val = linkUp then .next (aulumDown s a.val) else .next s

/-- R257: a write of 1 to the port enable. An isolated port leaves DISABLED by it (R424). -/
def aulumEnable (s : State) (a : Nat) : State × Status :=
  let s1 := { odSet s (aulIdx a) 1 1 with flt := { s.flt with isoAulum := setRemove a s.flt.isoAulum } }
  if linkState s a = linkDisabled ∧ islandState s a = 0 then (tryTraining s1 a, .ok) else (s1, .ok)

/-- AULUM_PORT_ENABLE (R257). -/
def execAulumPortEnable (a : Fin 16) (s : State) : Host.Outcome State Fault Refusal := answered (aulumEnable s a.val)

/-- R257: the replay buffer and the transmit queue of port `a` are empty. -/
def aulumEmpty (s : State) (a : Nat) : Bool :=
  (aulPort s a).replay.isEmpty && allVns.all fun v => (egress s (96 + a) v).isEmpty

/-- R257: a write of 0 to the port enable. -/
def aulumDisable (s : State) (a : Nat) : State × Status :=
  if linkState s a = linkDisabled then (odSet s (aulIdx a) 1 0, .ok)
  else if aulumEmpty s a then (setLink (odSet (aulumDown s a) (aulIdx a) 1 0) a linkDisabled, .ok)
  else (s, .portActive)

/-- AULUM_PORT_DISABLE (R257). -/
def execAulumPortDisable (a : Fin 16) (s : State) : Host.Outcome State Fault Refusal := answered (aulumDisable s a.val)

/-- R424: port `a` is isolated: what it holds is discarded, REQ and IO units with their answers (R123), and the grace part of
R261 applies. -/
def aulumIsolate (s : State) (a : Nat) : State :=
  let x := aulPort s a
  let ofFlit := fun (f : FlitRec) =>
    if f.mac then [] else ((List.range 3).filter fun i => f.valid.getLsbD i).map fun i => slotUnit f.slots i
  let held := (x.replay.flatMap ofFlit).map (fun u => newHeld s u none none) ++
    allVns.flatMap fun v => (egress s (96 + a) v).map fun e => e.h
  let s1 := allVns.foldl (fun t v => setEgress t (96 + a) v []) (linkReset s a)
  let back := fun (h : Held) => { h with u := { h.u with src := resolved s h.u.src h.u.tag } }
  let s2 := held.foldl (fun t h =>
    if (h.u.vn = .req ∧ h.u.type.toNat ≤ 6) ∨ (vnIsIo h.u.vn ∧ h.u.follow = 0) then ageAnswer t (bridgeStop a) 7 (0x60 + a) (back h)
    else t) s1
  let s3 := startGrace (aulumDown s2 a)
  setLink (setAulPort s3 a { aulPort s3 a with partner := none }) a linkDisabled

/-! ### Numbering (R267) -/

/-- R267: the four values allow each other. -/
def numberingOk (own mode nx ny : Nat) : Bool :=
  decide (mode ≤ 1) && decide (1 ≤ nx) && decide (nx ≤ 32) && decide (1 ≤ ny) && decide (ny ≤ 32) &&
    (if mode = 0 then decide (own ≤ 31) else decide (own % 32 < nx) && decide (own / 32 < ny))

/-- R267: a write of OD 6000.01 to .04. -/
def numberingWrite (s : State) (i v : Nat) : State × Status :=
  let val := fun (j : Nat) => if j = i then v else odGet s 0x6000 j
  if (List.range 16).any fun a => decide (odGet s (aulIdx a) 1 = 1) then (s, .portActive)
  else if numberingOk (val 1) (val 2) (val 3) (val 4) then (odSet s 0x6000 i v, .ok)
  else (s, .outOfRange)

/-- SYSTEM_NUMBERING_WRITE (R267): OD 6000.`i + 1`. -/
def execSystemNumberingWrite (i : Fin 4) (v : BitVec 16) (s : State) : Host.Outcome State Fault Refusal :=
  answered (numberingWrite s (i.val + 1) v.toNat)

end Sys2Proof.Machine
end

