-- ==== Sys2Proof/Machine/AulFlit.lean ====
section
/-!
DEFINITION. Machine/AulFlit.lean: flits on an Aulum link: receiving, acknowledgement, replay and credits (R248 to R253),
transmitting (R246, R270), and encryption (R266, R460 to R464).
-/

namespace Sys2Proof.Machine

/-! ### Keys (R460, R463) -/

/-- OD (B100 + a).08: the active receive and transmit sets. -/
def rxSet (s : State) (a : Nat) : Bool := (odGet s (0xB100 + a) 8).testBit 1
def txSet (s : State) (a : Nat) : Bool := (odGet s (0xB100 + a) 8).testBit 0
def setSets (s : State) (a : Nat) (rx tx : Bool) : State :=
  odSet s (0xB100 + a) 8 ((if rx then 2 else 0) + (if tx then 1 else 0))

/-- The key of a set. -/
def AulPort.rxKey (x : AulPort) (k : Bool) : Option (BitVec 256) := if k then x.rxKey1 else x.rxKey0
def AulPort.txKey (x : AulPort) (k : Bool) : Option (BitVec 256) := if k then x.txKey1 else x.txKey0
def AulPort.setRx (x : AulPort) (k : Bool) (v : Option (BitVec 256)) : AulPort :=
  if k then { x with rxKey1 := v } else { x with rxKey0 := v }
def AulPort.setTx (x : AulPort) (k : Bool) (v : Option (BitVec 256)) : AulPort :=
  if k then { x with txKey1 := v } else { x with txKey0 := v }

/-- R264, R266: port `a` encrypts. -/
def encrypts (s : State) (a : Nat) : Bool := decide (odGet s (0xB100 + a) 1 = 1) && decide (linkVersion s a = 2)

/-- R460: a write of a key: `tx`: transmit; `k`: the set. A set that is active holds a key; one whose retirement is pending is
that which a rollover leaves. -/
def keyWrite (s : State) (a : Nat) (tx k : Bool) (key : BitVec 256) (mode : Mode) : State × Status :=
  let x := aulPort s a
  if mode ≠ .encrypted then (s, .notPermitted)
  else if tx then
    let retiring := x.rollMac.isSome && (x.txKey k).isSome
    if ((x.txKey k).isSome && decide (txSet s a = k)) || retiring then (s, .busy)
    else (setAulPort s a (x.setTx k (some key)), .ok)
  else if (x.rxKey k).isSome && decide (rxSet s a = k) then (s, .busy)
  else (setAulPort s a (x.setRx k (some key)), .ok)

/-- AULUM_KEY_WRITE (R460). -/
def execAulumKeyWrite (a : Fin 16) (tx k : Bool) (key : BitVec 256) (mode : Mode) (s : State) :
    Host.Outcome State Fault Refusal :=
  answered (keyWrite s a.val tx k key mode)

/-- R463: a transmit rollover. -/
def rollover (s : State) (a : Nat) : State × Status :=
  if ((aulPort s a).txKey (!txSet s a)).isNone then (s, .wrongState) else (odSet s (0xB100 + a) 7 1, .ok)

/-- TRANSMIT_ROLLOVER (R463): COMMAND on OD (B100 + a).06. -/
def execTransmitRollover (a : Fin 16) (s : State) : Host.Outcome State Fault Refusal := answered (rollover s a.val)

/-- R462: a tag fails, or a MAC flit is missing or unexpected. -/
def tagFailure (s : State) (a : Nat) : State := aulumDown (raiseFault s 451 4 a) a

/-! ### Receiving (R248 to R253) -/

/-- R253: the parities that a flit carries against those of the block before it. -/
def parityCheck (s : State) (a : Nat) (got : BitVec 4) : State :=
  let x := aulPort s a
  match x.parIn with
  | none => s
  | some p =>
    (x.lanes.filter fun i => decide (got.getLsbD i ≠ p.getLsbD i)).foldl (fun t i =>
      let y := aulPort t a
      let live := (tabGet [] i y.faults).filter fun c => decide (t.time.clock < c + odGet t 0x6130 2 * 1000000)
      bumpC (setAulPort t a { y with faults := tabSet [] i (live ++ [t.time.clock]) y.faults }) 0xC027 (physLane s a i + 1)) s

/-- R250, R252, R463: an Ack covers every flit up to it; the transmitter clears a retired key. -/
def takeAck (s : State) (a : Nat) (ack : BitVec 12) : State :=
  let x := aulPort s a
  match (List.range x.replay.length).find? fun i => decide ((x.replay.map fun f => f.seq).getD i 0 = ack) with
  | none => s
  | some i =>
    let gone := x.replay.take (i + 1)
    let kept := x.replay.drop (i + 1)
    let r := x.resend.map fun k => k - (i + 1)
    let y := { x with replay := kept, resend := if kept.isEmpty then none else r }
    if gone.any fun f => decide (x.rollMac = some f.seq) then
      odSet (setAulPort s a ({ y with rollMac := none }.setTx (!txSet s a) none)) (0xB100 + a) 7 0
    else setAulPort s a y

/-- R248: cells freed by the partner, from the Credits field. -/
def takeCredits (s : State) (a g : Nat) (c : BitVec 24) : State :=
  let x := aulPort s a
  setAulPort s a ((List.range 4).foldl (fun y i =>
    let v := 4 * g + i
    let n := (c.extractLsb' (6 * i) 6).toNat
    let old := tabGet 0 v y.seen
    { y with seen := tabSet 0 v n y.seen, freedTotal := tabMod 0 v (· + (n + 64 - old) % 64) y.freedTotal }) x)

/-- R251: a flit is discarded: one NAK is sent in the next flit time, and no further one until a flit is accepted or a replay
timer period has passed. -/
def discardFlit (s : State) (a : Nat) : State :=
  let x := aulPort s a
  let again := match x.nakAt with | none => true | some t => decide (t + odGet s 0x6120 4 ≤ s.time.clock)
  if again then setAulPort s a { x with nakDue := true, nakAt := some s.time.clock } else s

/-- R110, R270: a unit that has come over the link takes a cell of its ingress pair. -/
def linkUnit (s : State) (a cls : Nat) (u : FUnit) : State :=
  let s1 := traceUnit s 5 (0x60 + a) 0 u
  let own := decide (u.dst = switchCode (ownSwitch s))
  let w := (switchOf u.src).getD (ownSwitch s)
  let h := { newHeld s1 u none (if own then some (128 + w, 1) else none) with inp := cls }
  setLinkQueue (nextUnit s1) a u.vn (linkQueue s1 a u.vn ++ [h])

/-- R31: a unit whose CRC-16 fails is discarded, since its header is about to be written anew; its cell is free at once. -/
def badSlot (s : State) (a cls : Nat) (u : FUnit) : State :=
  linkFreed (bumpC s 0xC020 1) a [{ newHeld s u none none with inp := cls }]

/-- R249: the slots of an accepted flit are delivered in order. -/
def deliverSlots (s : State) (a : Nat) (f : Flit) : State :=
  (List.range 3).foldl (fun t i =>
    if f.valid.getLsbD i then
      let cls := if f.cls.getLsbD i then 1 else 0
      let u := slotUnit f.slots i
      if crcOk (f.slots.extractLsb' (640 * i) 640) then linkUnit t a cls u else badSlot t a cls u
    else t) s

/-- R44, R110, R248: the first unit of a dateline class of an ingress pair goes on, if there is room: to the remote agent of its island
(R142), or by the die bridge to its network interface; its cell is free again. -/
def linkMove (s : State) (a : Nat) (v : Vn) (cls : Nat) : Option State :=
  let l := linkQueue s a v
  match l.find? fun h => decide (h.inp % 2 = cls) with
  | none => none
  | some h =>
    let s1 := linkFreed (setLinkQueue s a v (l.filter fun g => decide (g.id ≠ h.id))) a [h]
    let u := { h.u with age := agedBy s h.since h.u.age }
    let n := bridgeStop a
    if h.hpa.isSome then
      if (ejectBuf s n 8 v).length + (comingTo s n 8 v).length < 4 then
        some (setEjectBuf s1 n 8 v (ejectBuf s n 8 v ++ [{ h with u := u, inp := 8, since := s.time.clock }]))
      else none
    else if bridgeOpen s a v then some (sendAt s1 n 7 u none none)
    else none

/-- Units of a class of an ingress pair go on while they can, at most `n`. -/
def linkMoves (s : State) (a : Nat) (v : Vn) (cls : Nat) : Nat → State
  | 0 => s
  | n + 1 =>
    match linkMove s a v cls with
    | some t => linkMoves t a v cls n
    | none => s

/-- R110, R270: the units of the ingress pairs of port `a` go on, each VN and class apart from the others. -/
def linkDrain (s : State) (a : Nat) : State :=
  allVns.foldl (fun t v => [0, 1].foldl (fun r cls => linkMoves r a v cls (linkQueue r a v).length) t) s

/-- R462: an accepted DATA flit of an encrypted link is decrypted and delivered. -/
def acceptData (s : State) (a : Nat) (f : Flit) : State :=
  if encrypts s a then
    let x := aulPort s a
    if 64 ≤ x.rxGroup.length then tagFailure s a
    else
      let iv := ((x.partner.map fun q => q.epoch).getD 0) ++ x.rxCount
      let plain := f.slots ^^^ Config.gcmStream ((x.rxKey (rxSet s a)).getD 0) iv x.rxGroup.length
      deliverSlots (setAulPort s a { x with rxGroup := x.rxGroup ++ [(flitAad f.seq f.cls f.valid, f.slots)] }) a
        { f with slots := plain }
  else deliverSlots s a f

/-- R462, R463: an accepted MAC flit: the tag is verified, and the receiver switches to the set that it names. -/
def acceptMac (s : State) (a : Nat) (f : Flit) : State :=
  let x := aulPort s a
  let fields : BitVec 92 := f.slots.extractLsb' 128 92
  let set := f.slots.getLsbD 200
  let next := f.slots.getLsbD 201
  let epoch := (x.partner.map fun q => q.epoch).getD 0
  let good := encrypts s a && decide (set = rxSet s a) && decide ((f.slots.extractLsb' 192 8).toNat = x.rxGroup.length) &&
    decide (groupTag ((x.rxKey set).getD 0) epoch x.rxGroup fields = f.slots.extractLsb' 0 128)
  if good then
    let y := { x with rxGroup := [], rxCount := f.slots.extractLsb' 128 64 + 1 }
    if next = set then setAulPort s a y else setSets (setAulPort s a (y.setRx set none)) a next (txSet s a)
  else tagFailure s a

/-- R249, R250: a DATA or MAC flit with sequence E is accepted. -/
def acceptFlit (s : State) (a : Nat) (f : Flit) : State :=
  let x := aulPort s a
  let point := decide (16 ≤ x.accepted + 1)
  let y := { x with expect := x.expect + 1, nakAt := none, accepted := if point then 0 else x.accepted + 1
                    ack := if point then x.expect else x.ack }
  let s1 := bumpC (setAulPort s a y) 0xC026 2
  if f.type = 1 then acceptData s1 a f else acceptMac s1 a f

/-- R249: a flit with a good CRC. -/
def goodFlit (s : State) (a : Nat) (f : Flit) : State :=
  let s1 := takeCredits (takeAck (parityCheck s a f.parity) a f.ack) a f.group f.credits
  let x := aulPort s1 a
  if f.type = 0 then s1
  else if f.type = 3 then setAulPort s1 a { x with nakIn := true }
  else if f.seq = x.expect then acceptFlit s1 a f
  else
    let d := (x.expect - f.seq).toNat
    if 1 ≤ d ∧ d ≤ 2048 then bumpC s1 0xC026 4 else discardFlit s1 a

/-- R265: the lane parity of a received block is kept for the next flit's header. -/
def keepParity (s : State) (a : Nat) (par : BitVec 4) : State := setAulPort s a { aulPort s a with parIn := some par }

/-- R247, R248: a block that holds no good flit. -/
def badBlock (s : State) (a : Nat) (par : BitVec 4) : State := keepParity (discardFlit (bumpC s 0xC026 3) a) a par

/-- R251, R253 to R256: what follows a block's flit, or a block whose flit is not good (`none`). -/
def flitTaken (s : State) (a : Nat) (par : BitVec 4) : Option Flit → State
  | none => badBlock s a par
  | some f =>
    let s2 := goodFlit s a f
    if linkState s2 a = linkDown then s2 else seekSpare (keepParity s2 a par) a

/-- R247 to R250: the flit of a block that passed or was corrected. -/
def blockTaken (s : State) (a : Nat) (par : BitVec 4) (w : BitVec 2048) : State := flitTaken s a par (flitOf w)

/-- AULUM_FLIT_RECEIVE (R249): port `a` receives the lane blocks of a data flit block. -/
def flitReceive (s : State) (a : Nat) (l : LaneBlocks) : State :=
  if linkState s a = linkUp ∨ linkState s a = linkPaused then
    let lanes := (aulPort s a).lanes
    let par := laneParity lanes l
    match fecDecode (fecBlock lanes.length l) with
    | none => badBlock s a par
    | some (w, n) => linkDrain (blockTaken (bumpCBy s 0xC026 7 n) a par w) a
  else s

/-- AULUM_FLIT_RECEIVE (R249). -/
def execAulumFlitReceive (a : Fin 16) (blocks : LaneBlocks) (s : State) : Host.Outcome State Fault Refusal :=
  .next (flitReceive s a.val blocks)

/-- ACK_TIMER_EXPIRE (R250). -/
def execAckTimerExpire (a : Fin 16) (s : State) : Host.Outcome State Fault Refusal :=
  let x := aulPort s a.val
  if x.accepted = 0 then .next s else .next (setAulPort s a.val { x with ack := x.expect - 1, accepted := 0 })

/-- R252: every unacknowledged flit is to be replayed, or the replay limit is reached. -/
def startReplay (s : State) (a : Nat) : State :=
  let x := aulPort s a
  match x.replay with
  | [] => setAulPort s a { x with nakIn := false }
  | f :: _ =>
    if odGet s 0x6120 6 ≤ f.tries then aulumDown s a
    else setAulPort s a { x with nakIn := false, resend := some 0 }

/-- NAK_RECEIVED (R251). -/
def execNakReceived (a : Fin 16) (s : State) : Host.Outcome State Fault Refusal :=
  if linkState s a.val = linkUp ∧ (aulPort s a.val).nakIn then .next (startReplay s a.val) else .next s

/-- REPLAY_TIMER_EXPIRE (R252). -/
def execReplayTimerExpire (a : Fin 16) (s : State) : Host.Outcome State Fault Refusal :=
  if linkState s a.val = linkUp ∧ !(aulPort s a.val).replay.isEmpty then .next (startReplay s a.val) else .next s

/-! ### Transmitting (R246, R248, R252, R461) -/

/-- R248: credit of a virtual channel. -/
def credit (x : AulPort) (v : Nat) : Nat := tabGet 0 v x.credInit + tabGet 0 v x.freedTotal - tabGet 0 v x.sent

/-- R248: the Credits field of group `g`, and the port after it: a count rises by at most 63 between two flits. -/
def creditField (x : AulPort) (g : Nat) : BitVec 24 × AulPort :=
  (List.range 4).foldl (fun (r : BitVec 24 × AulPort) i =>
    let v := 4 * g + i
    let t := min (tabGet 0 v r.2.freed) (tabGet 0 v r.2.told + 63)
    (r.1 ||| BitVec.ofNat 24 (t % 64 * 2 ^ (6 * i)), { r.2 with told := tabSet 0 v t r.2.told })) (0, x)

/-- R115: a unit of an egress pair may be sent: its packet goes cut-through, or all that is left of it is there. -/
def unitReady (l : List EgUnit) (e : EgUnit) : Bool :=
  !e.cell || packetWhole l e

/-- R270: the first unit of a VC in its egress pair, if it is ready and the VC has credit. -/
def readyUnit (s : State) (a v : Nat) : Option EgUnit :=
  let l := egress s (96 + a) (vnOf (v / 2))
  match l.find? fun e => decide (datelineClass s e.h.u = v % 2) with
  | some e => if unitReady l e && decide (0 < credit (aulPort s a) v) then some e else none
  | none => none

/-- R44, R45, R503: the unit leaves its egress pair for a slot. -/
def takeUnit (s : State) (a v : Nat) (e : EgUnit) : State × FUnit :=
  let vn := vnOf (v / 2)
  let u := { e.h.u with src := if (switchOf e.h.u.src).isSome then e.h.u.src else switchCode (ownSwitch s)
                        age := agedBy s e.h.since e.h.u.age }
  let rest := (egress s (96 + a) vn).filter fun f => decide (f.h.id ≠ e.h.id)
  let s1 := gapCloses (traceUnit (setEgress s (96 + a) vn rest) 4 (0x60 + a) 0 u) (96 + a) vn
  let x := aulPort s1 a
  (setAulPort s1 a { x with sent := tabMod 0 v (· + 1) x.sent, turn := (v + 1) % 16 }, u)

/-- R246: up to three units that are ready now, with their classes. -/
def gather (s : State) (a : Nat) : Nat → State × List (FUnit × Nat)
  | 0 => (s, [])
  | n + 1 =>
    match ((List.range 16).map fun i => ((aulPort s a).turn + i) % 16).findSome? fun v => (readyUnit s a v).map fun e => (v, e) with
    | none => (s, [])
    | some (v, e) =>
      let q := takeUnit s a v e
      let r := gather q.1 a n
      (r.1, (q.2, v % 2) :: r.2)

/-- A flit goes out, with current Ack, credits and lane parity. -/
def sendFlit (s : State) (a : Nat) (type : Nat) (seq : BitVec 12) (cls valid : BitVec 3) (slots : BitVec 1920) : State :=
  let x := aulPort s a
  let c := creditField x x.group
  let f : Flit :=
    { seq := seq, ack := if type = 3 then x.expect - 1 else x.ack, type := type, parity := x.parOut.getD 0, group := x.group
      credits := c.1, cls := cls, valid := valid, slots := slots }
  let l := laneBlocks dataSync x.lanes.length (fecEncode (flitBits f))
  emit (setAulPort s a { c.2 with group := (x.group + 1) % 4, parOut := some (laneParity x.lanes l) }) (.aulumFlit a l)

/-- R252: a new DATA or MAC flit is kept and sent. -/
def sendNew (s : State) (a : Nat) (mac : Bool) (cls valid : BitVec 3) (slots : BitVec 1920) : State :=
  let x := aulPort s a
  let f : FlitRec := { seq := x.seq, mac := mac, cls := cls, valid := valid, slots := slots, tries := 0 }
  sendFlit (bumpC (setAulPort s a { x with seq := x.seq + 1, replay := x.replay ++ [f] }) 0xC026 1) a (if mac then 2 else 1) x.seq cls
    valid slots

/-- R252: the next flit of a replay. -/
def sendReplay (s : State) (a k : Nat) (f : FlitRec) : State :=
  let x := aulPort s a
  let l := x.replay.set k { f with tries := f.tries + 1 }
  sendFlit (bumpC (setAulPort s a { x with replay := l, resend := if k + 1 < l.length then some (k + 1) else none }) 0xC026 6) a
    (if f.mac then 2 else 1) f.seq f.cls f.valid f.slots

/-- R246: IDLE, or NAK (R251). -/
def sendIdle (s : State) (a type : Nat) : State := sendFlit s a type (aulPort s a).seq 0 0 0

/-- R461, R463: the MAC flit that closes the group; a rollover that is pending takes place here. -/
def sendMac (s : State) (a : Nat) : State :=
  let x := aulPort s a
  let set := txSet s a
  let roll := decide (odGet s (0xB100 + a) 7 = 1) && x.rollMac.isNone
  let next := if roll then !set else set
  let n := odGet s (0xB100 + a) 9
  let fields := macFields x.txFirst next set x.txGroup.length (BitVec.ofNat 64 n)
  let tag := groupTag ((x.txKey set).getD 0) (BitVec.ofNat 32 (odGet s (aulIdx a) 0x15)) x.txGroup fields
  let slots : BitVec 1920 := (fields ++ tag).setWidth 1920
  let y := { x with txGroup := [], macDue := false, rollMac := if roll then some x.seq else x.rollMac }
  let s1 := odSet (setSets (setAulPort s a y) a (rxSet s a) next) (0xB100 + a) 9 (n + 1)
  sendNew s1 a true 0 0 slots

/-- R246, R461: a DATA flit of the units that are ready. -/
def sendData (s : State) (a : Nat) : State :=
  let q := gather s a 3
  let us := q.2
  if us.isEmpty then sendIdle (allVns.foldl (fun t v => gapOpens t (96 + a) v) s) a 0
  else
    let cls := BitVec.ofNat 3 (((List.range 3).zip us).foldl (fun n p => n + p.2.2 * 2 ^ p.1) 0)
    let valid := BitVec.ofNat 3 (2 ^ us.length - 1)
    let plain := packSlots (us.map Prod.fst)
    let x := aulPort q.1 a
    if encrypts s a then
      let iv := BitVec.ofNat 32 (odGet s (aulIdx a) 0x15) ++ BitVec.ofNat 64 (odGet s (0xB100 + a) 9)
      let text := plain ^^^ Config.gcmStream ((x.txKey (txSet s a)).getD 0) iv x.txGroup.length
      let g := x.txGroup ++ [(flitAad x.seq cls valid, text)]
      let y := { x with txGroup := g, txFirst := if x.txGroup.isEmpty then x.seq else x.txFirst, macDue := decide (64 ≤ g.length) }
      sendNew (setAulPort q.1 a y) a false cls valid text
    else sendNew q.1 a false cls valid plain

/-- One flit time of the transmitter of port `a` (R246, R251, R252, R254, R464). -/
def flitSend (s : State) (a : Nat) : State :=
  let x := aulPort s a
  if linkState s a ≠ linkUp ∧ linkState s a ≠ linkPaused then s
  else if x.nakDue then sendIdle (bumpC (setAulPort s a { x with nakDue := false }) 0xC026 5) a 3
  else if linkState s a = linkPaused then (if x.moving.isSome then sendResume s a else sendIdle s a 0)
  else
    match x.resend.bind fun k => x.replay[k]?.map fun f => (k, f) with
    | some (k, f) => sendReplay s a k f
    | none =>
      if odGet s 0x6120 1 ≤ x.replay.length then sendIdle s a 0
      else if x.macDue then sendMac s a
      else if encrypts s a && (x.txKey (txSet s a)).isNone then sendIdle s a 0
      else sendData s a

/-- AULUM_FLIT_TRANSMIT: one flit time of port `a`, in which waiting units of its ingress pairs go on too. -/
def flitTransmit (s : State) (a : Nat) : State := linkDrain (flitSend s a) a

/-- AULUM_FLIT_TRANSMIT (R246). -/
def execAulumFlitTransmit (a : Fin 16) (s : State) : Host.Outcome State Fault Refusal := .next (flitTransmit s a.val)

/-- MAC_GROUP_TIMEOUT (R461): 100 ns pass with no DATA flit ready. -/
def execMacGroupTimeout (a : Fin 16) (s : State) : Host.Outcome State Fault Refusal :=
  let x := aulPort s a.val
  let ready := (List.range 16).any fun v => (readyUnit s a.val v).isSome
  if x.txGroup.isEmpty || ready then .next s else .next (setAulPort s a.val { x with macDue := true })

end Sys2Proof.Machine
end

