-- ==== Sys2Proof/Machine/Remote.lean ====
section
/-!
DEFINITION. Machine/Remote.lean: the remote agent of an Aulum port: units for this switch (R44, R142) and snoops that it fans
out (R158).
-/

namespace Sys2Proof.Machine

/-- The place of the remote agent of port `a`. -/
def remotePlace (a : Nat) : BitVec 12 := place (bridgeStop a) 8

/-- The remote agent of port `a` injects a unit with its own place as Source; the switch `w` that it came from goes with it. -/
def reinject (s : State) (a w : Nat) (dst : BitVec 12) (u : FUnit) : State :=
  sendAt s (bridgeStop a) 8 { u with src := remotePlace a, dst := dst } none (some (128 + w, 0))

/-! ### Fan-out (R158) -/

/-- R158: how a reply ranks: with data, with a forward, S kept, or none of these. -/
def replyRank (u : FUnit) : Nat :=
  if u.vn = .wb then 3 else if u.type = 2 ∨ u.type = 3 then 2 else if u.type = 1 then 1 else 0

/-- R158: a local reply is counted. -/
def fanReply (f : FanOut) (h : Holder) (u : FUnit) : FanOut :=
  { f with
    waiting := f.waiting.filter fun x => decide (x ≠ h)
    reply := match f.reply with
      | none => some u
      | some r => if replyRank r < replyRank u then some u else some r
    poison := f.poison || u.poison
    synth := f.synth || u.synth }

/-- R158: a snoop for this switch is delivered to the local targets of its host vector by R63. A target without an upstream port
replies as one behind a port that is down. -/
def fanOut (s : State) (a : Nat) (u : FUnit) : State :=
  let b := unpackSnp u.payload
  let vs := (List.range 64).filter fun v => b.hosts.getLsbD v
  let near := vs.filter fun v => (upstreamPort s v).isSome
  let far := vs.filter fun v => (upstreamPort s v).isNone
  let isl := near.foldl (fun (m : BitVec 16) v =>
    match upstreamPort s v with | some p => m ||| BitVec.twoPow 16 (p / 6) | none => m) 0
  let f0 : FanOut :=
    { island := a, u := u, waiting := (if b.mover then [{ host := hostId s 0, mover := true }] else []) ++
        near.map fun v => { host := hostId s v, mover := false }
      reply := none, poison := false, synth := false }
  let f := far.foldl (fun g v =>
    fanReply g { host := hostId s v, mover := false }
      { blankUnit .rsp 0 (remotePlace a) u.src u.tag u.line with synth := true, payload := packRsp (hostId s v) 0 0 false }) f0
  let s1 := { s with prox := { s.prox with fans := s.prox.fans ++ [f] } }
  if f.waiting.isEmpty then s1
  else
    sendAt s1 (bridgeStop a) 8 { u with
      src := remotePlace a, dst := place 0 0, mc := true
      payload := packSnp { b with hosts := near.foldl (fun m v => m ||| BitVec.twoPow 64 v) 0, islands := isl } } none none

/-- R158: the fan-out of port `a` that a local reply belongs to. -/
def fanOf (s : State) (a : Nat) (h : Holder) (u : FUnit) : Option FanOut :=
  s.prox.fans.find? fun f => decide (f.island = a) && decide (f.u.tag = u.tag) && decide (f.u.line = u.line) && f.waiting.contains h

/-- R147: the local target that a reply names by its Replier, or by the proxy that sent it. -/
def localReplier (s : State) (u : FUnit) : Option Holder :=
  if u.vn = .rsp then some { host := rspReplier u.payload, mover := decide (rspKind u.payload = 1) }
  else if u.src = cachePlace then some { host := hostId s 0, mover := true }
  else ((portOf u.src).bind (hostOfPort s)).map fun v => { host := hostId s v, mover := false }

/-- R158: a local reply reaches the remote agent. -/
def localReply (s : State) (a : Nat) (u : FUnit) : State :=
  match localReplier s u with
  | none => s
  | some h =>
    match fanOf s a h u with
    | none => s
    | some f => { s with prox := { s.prox with fans := s.prox.fans.map fun g => if g = f then fanReply f h u else g } }

/-- R70, R158: a fanned-out snoop has come back UNREACHABLE: its targets count as synthesised RspI. -/
def fanLost (s : State) (a : Nat) (u : FUnit) : State :=
  match s.prox.fans.find? fun f => decide (f.island = a) && decide (f.u.tag = u.tag) && decide (f.u.line = u.line) with
  | none => s
  | some f =>
    let g := f.waiting.foldl (fun g h =>
      fanReply g h { blankUnit .rsp 0 (remotePlace a) f.u.src u.tag u.line with synth := true, payload := packRsp h.host 0 0 false }) f
    { s with prox := { s.prox with fans := s.prox.fans.map fun x => if x = f then g else x } }

/-- R158: the first fan-out of port `a` whose targets have all replied is answered. -/
def combinedReply (s : State) (a : Nat) : State :=
  match s.prox.fans.find? fun f => decide (f.island = a) && f.waiting.isEmpty with
  | none => s
  | some f =>
    let body := packRsp (BitVec.ofNat 16 (ownSwitch s * 64)) 2 0 false
    let base := f.reply.getD { blankUnit .rsp 0 (remotePlace a) f.u.src f.u.tag f.u.line with payload := body }
    let u := { base with src := remotePlace a, dst := f.u.src, tag := f.u.tag, line := f.u.line, poison := f.poison, synth := f.synth
                         payload := if base.vn = .rsp then body else base.payload }
    sendAt { s with prox := { s.prox with fans := s.prox.fans.erase f } } (bridgeStop a) 8 u none none

/-- COMBINED_REPLY (R158). -/
def execCombinedReply (a : Fin 16) (s : State) : Host.Outcome State Fault Refusal := .next (combinedReply s a.val)

/-! ### Units for this switch (R142) -/

/-- R142, R178: the home slice of a unit: the one that Tag [15..11] names for a unit that answers a snoop. A request, a writeback of a
requester's own and WrData bear the requester's tag (R141) and go to the slice of their line (log 26). -/
def remoteHome (s : State) (u : FUnit) : BitVec 12 :=
  let answers := (decide (u.vn = .rsp) && decide (u.type.toNat < 8)) ||
    (decide (u.vn = .wb) && decide (2 ≤ u.type.toNat) && decide (u.type.toNat ≤ 4))
  let lost := decide (u.type = 0x3F) && (decide (originalVn u = .snp) || decide (originalVn u = .rsp))
  slicePlace s (if answers || lost then u.tag.toNat / 2048 else homeSlice u.line)

/-- R142: a unit that came over the link from switch `w`. -/
def remoteUnit (s : State) (a w : Nat) (u : FUnit) : State :=
  let home := remoteHome s u
  let agent := tagAgent s u.tag
  let toAgent := fun (t : State) => if agent = 0 then t else reinject t a w agent u
  if u.type = 0x3F then
    match originalVn u with
    | .req => toAgent s
    | .wb => toAgent s
    | .snp => reinject s a w home u
    | .rsp => reinject s a w home u
    | _ => s
  else
    match u.vn with
    | .req =>
      -- R424: a request for an isolated slice is answered as R123 answers a discarded one.
      if s.flt.isoSlices.contains (homeSlice u.line) then
        sendAt s (bridgeStop a) 8 (lostAnswer u (remotePlace a) (switchCode w)) none none
      else reinject s a w home u
    | .wb => reinject s a w home u
    | .snp => fanOut s a u
    | .rsp => if u.type.toNat < 8 then reinject s a w home u else toAgent s
    | .dat => toAgent s
    | _ => s

/-- R70, R123: a unit that this switch's agents sent to the remote agent: a reply, or what has become of a unit that it had
re-injected, which goes back to the switch that sent that. -/
def returnedUnit (s : State) (a : Nat) (h : Held) : State :=
  let u := h.u
  match h.hpa with
  | some (k, _) =>
    if 128 ≤ k then sendAt s (bridgeStop a) 8 { u with src := remotePlace a, dst := switchCode (k - 128) } none none else s
  | none =>
    if u.type = 0x3F then (if originalVn u = .snp then fanLost s a u else s)
    else if u.vn = .wb ∨ u.vn = .rsp then localReply s a u
    else s

/-- R142: the remote agent of port `a` takes the first unit of VN `v` from its input queue. -/
def remoteReceive (s : State) (a : Nat) (v : Vn) : State :=
  let n := bridgeStop a
  match ejectBuf s n 8 v with
  | [] => s
  | h :: rest =>
    let s1 := setEjectBuf s n 8 v rest
    let g := { h with u := { h.u with age := agedBy s h.since h.u.age } }
    let s2 :=
      match g.hpa with
      | some (k, mark) => if mark = 1 ∧ 128 ≤ k then remoteUnit s1 a (k - 128) g.u else returnedUnit s1 a g
      | none => returnedUnit s1 a g
    linkDrain s2 a

/-- REMOTE_AGENT_RECEIVE (R142). -/
def execRemoteAgentReceive (a : Fin 16) (v : Vn) (s : State) : Host.Outcome State Fault Refusal :=
  .next (remoteReceive s a.val v)

end Sys2Proof.Machine
end

