-- ==== Sys2Proof/Machine/Binding.lean ====
section
/-!
DEFINITION. Machine/Binding.lean: vPPBs and their bindings (R86 to R89), and the slot channel of a bound port (R102, R351).
-/

namespace Sys2Proof.Machine

/-! ### What a vPPB shows (R88, R102, R108) -/

/-- R108: the code of a binding's state. -/
def BindState.code : BindState → Nat
  | .unbound => 0 | .binding => 1 | .bound => 2 | .unbinding => 3

/-- R108: what OD (2400 + v) subindex d + 1 reports of a vPPB. -/
def Vppb.shown (x : Vppb) : Nat :=
  if x.state = .unbound then 0 else x.state.code * 2 ^ 14 + x.port * 16 + x.ld

/-- Change vPPB `d` of VCS `v`, with what the dictionary shows of it. -/
def putVppb (s : State) (v d : Nat) (x : Vppb) : State := odSet (setVppb s v d x) (0x2400 + v) (d + 1) x.shown

/-- R102: the slot channel of port `p`, if it has one. -/
def slotOfPort (s : State) (p : Nat) : Option Nat :=
  let c := odGet s (0x2100 + p) 5
  if odGet s (0x2100 + p) 1 = 2 ∧ c < 48 then some c else none

/-- R102: the port that names slot channel `c`. -/
def portOfSlot (s : State) (c : Nat) : Option Nat := (List.range 96).find? fun p => decide (slotOfPort s p = some c)

/-- R88, R102: a partner is present at port `p`: by its slot channel, or by what its link has found. -/
def partnerPresent (s : State) (p : Nat) : Bool :=
  match slotOfPort s p with
  | some c => (tabGet slotReset c s.pow.slots).present
  | none => decide (odGet s (0x2100 + p) 0x14 ≠ 0)

/-- The bindings of port `p`, with their VCS and device number. -/
def bindsOf (s : State) (p : Nat) : List (Nat × Nat × Vppb) :=
  (s.port.binds.filter fun b => decide (b.2.port = p) && decide (b.2.state ≠ .unbound)).map fun b => (b.1 / 32, b.1 % 32, b.2)

/-- R351: the request of slot channel `c` in force, whoever gives it. -/
def slotRequestNow (s : State) (c : Nat) : Bool :=
  match (tabGet slotReset c s.pow.slots).hostRequest with
  | some b => b
  | none => decide (odGet s (0x8200 + c) 2 = 1)

/-- R351: who gives the request of slot channel `c`. -/
def setHostRequest (s : State) (c : Nat) (r : Option Bool) : State :=
  { s with pow := { s.pow with slots := tabMod slotReset c (fun x => { x with hostRequest := r }) s.pow.slots } }

/-! ### The outcome of a background command (R101) -/

/-- R101: background operation `op` on `obj` starts; those that are done need be reported no more. -/
def bgStart (s : State) (op obj : Nat) : State :=
  { s with port := { s.port with
    bgOps := (op, obj, 1) :: s.port.bgOps.filter fun q => decide (q.2.2 = 1) && !(decide (q.1 = op) && decide (q.2.1 = obj)) } }

/-- R101: background operation `op` on `obj` is done. -/
def bgDone (s : State) (op obj : Nat) : State :=
  { s with port := { s.port with bgOps := s.port.bgOps.map fun q => if q = (op, obj, 1) then (op, obj, 0) else q } }

/-- R101, R393: OD 2010.06 of the session that gave a command. -/
def bindStatus (s : State) (asker st : Nat) : State := if asker = 0 then s else sessSet s asker 0x2010 6 st

/-- R101: the binding command `op` of vPPB `d` of VCS `v` has completed. -/
def bindDone (s : State) (v d op : Nat) : State :=
  let x := vppb s v d
  notify (bgDone (bindStatus s x.asker 0) op (v * 32 + d)) (0x2400 + v) (d + 1) x.shown 0

/-- R101: the code of OD 2010.06 and the status that a return code gives a session. -/
def bindCode : FmRc → Nat
  | .started => 1 | .success => 0 | _ => 2
def rcStatus : FmRc → Status
  | .started => .ok | .success => .ok | .busy => .busy | _ => .wrongState

/-- The session of a source, 0 for none. -/
def askerOf : FmSource → Nat
  | .fmapi => 0
  | .session id => id.toNat

/-- R101, R393: the outcome of a binding command in the values of its session. -/
def bindNote (s : State) (src : FmSource) (rc : FmRc) : State := bindStatus s (askerOf src) (bindCode rc)

/-- R101: the answer to a binding command. -/
def bindSay (s : State) (src : FmSource) (rc : FmRc) : State :=
  match src with
  | .fmapi => emit s (.fmapi rc [])
  | .session _ => emit s (.status (rcStatus rc))

/-- A binding command refused with a return code. -/
def bindRefused (s : State) (src : FmSource) (rc : FmRc) : State × FmRc := (bindNote s src rc, rc)

/-! ### Binding (R88) -/

/-- R88: LD `l` of port `p` may be bound; LD 0 exists without a partner too (DESIGN CHOICE, log entry 30). -/
def mayBind (s : State) (p l : Nat) : Bool :=
  decide (odGet s (0x2100 + p) 1 = 2) && decide (l < max 1 (odGet s (0x2100 + p) 0x15)) &&
    !(BitVec.ofNat 16 (odGet s (0x2100 + p) 8)).getLsbD l && (boundTo s p l).isNone

/-- R88: Bind vPPB `d` of VCS `v` to LD `l` of port `p`: the state and the return code. A Bind of a BOUND vPPB, for which the table
has no row, is Invalid Input (DESIGN CHOICE, log entry 31). -/
def bindVppb (s : State) (src : FmSource) (v d p l : Nat) : State × FmRc :=
  let x := vppb s v d
  if d < 2 ∨ 31 < d ∨ 63 < v ∨ 95 < p then bindRefused s src .invalidInput
  else
    match x.state with
    | .binding => bindRefused s src .busy
    | .unbinding => bindRefused s src .busy
    | .bound => bindRefused s src .invalidInput
    | .unbound =>
      if mayBind s p l then
        let y := { x with state := .binding, port := p, ld := l, presence := partnerPresent s p, asker := askerOf src }
        (bindNote (bgStart (putVppb s v d y) 0x5201 (v * 32 + d)) src .started, .started)
      else bindRefused s src .invalidInput

/-- BIND_VPPB (R88, R100): vPPB `d` (2..31) of VCS `v` to port `p`, LD `l`. -/
def execBindVppb (src : FmSource) (v : Fin 64) (d : Fin 32) (p : Fin 96) (l : Fin 16) (s : State) :
    Host.Outcome State Fault Refusal :=
  let r := bindVppb s src v.val d.val p.val l.val
  .next (bindSay r.1 src r.2)

/-- R88: an event of vPPB `d` of VCS `v` raises its hot-plug interrupt, if its host has enabled it. -/
def hotplug (s : State) (v d : Nat) : State := if (vppb s v d).hotplugOn then emit s (.hotplug v d) else s

/-- R88, R351: vPPB `d` of VCS `v` becomes BOUND; the host's Power Controller Control starts at the request in force. -/
def becomeBound (s : State) (v d : Nat) : State :=
  let x := vppb s v d
  let s1 := hotplug (putVppb s v d { x with
    state := .bound, presence := partnerPresent s x.port, presenceChanged := true, linkChanged := true }) v d
  let s2 :=
    match slotOfPort s1 x.port with
    | some c => setHostRequest s1 c (some (slotRequestNow s1 c))
    | none => s1
  bindDone s2 v d 0x5201

/-- VPPB_PARTNER_L0 (R88): the partner of a BINDING vPPB is in L0. -/
def execVppbPartnerL0 (v : Fin 64) (d : Fin 32) (s : State) : Host.Outcome State Fault Refusal :=
  let x := vppb s v.val d.val
  if x.state = .binding ∧ portUp s x.port = true then .next (becomeBound s v.val d.val) else .next s

/-! ### Unbinding (R88, R89) -/

/-- R89: a non-posted request between the device of vPPB `x` of VCS `v` and its host, or another port of the VCS. -/
def ofBinding (v : Nat) (x : Vppb) (n : NonPosted) : Bool :=
  decide (n.vcs = v) && (decide (n.fromPort = x.port) || decide (n.toPort = x.port)) && decide (n.fromPort < 96) &&
    decide (n.toPort < 96) &&
    decide ((if n.toPort = x.port then n.ld else n.tlp.ld) = x.ld)

/-- R89: posted requests of LD `ld` of port `p` that have not passed Route are discarded and counted. -/
def dropPosted (s : State) (v p ld : Nat) : State :=
  let mine := fun (m : InMsg) => match m.msg with | .tlp t => decide (t.ld = ld) | _ => false
  let l := ingress s p .iop
  bumpVcs (setIngress s p .iop (l.filter fun m => !mine m)) v 42 (l.filter mine).length

/-- R89, R351: the binding of vPPB `d` of VCS `v` ends: the outstanding non-posted requests are answered Unsupported Request,
and the slot's request is the last of the host. -/
def bindingEnds (s : State) (v d : Nat) : State :=
  let x := vppb s v d
  let gone := s.port.np.filter (ofBinding v x)
  let s1 := gone.foldl (fun t n => bumpVcs (npAnswer t n.fromPort n.tlp.requester n.tag 1) v 42 1) s
  let s2 := dropPosted s1 v x.port x.ld
  let s3 :=
    match slotOfPort s2 x.port with
    | some c =>
      (match (tabGet slotReset c s2.pow.slots).hostRequest with
       | some b => odSet (setHostRequest s2 c none) (0x8200 + c) 2 (if b then 1 else 0)
       | none => s2)
    | none => s2
  let s4 := putVppb s3 v d { x with
    state := .unbound, port := 0, ld := 0, option := 0, attention := false, presence := false
    presenceChanged := x.presenceChanged || x.presence }
  bindDone s4 v d 0x5202

/-- R88, R101: an Unbind of an UNBOUND vPPB is Invalid Input (DESIGN CHOICE, log entry 31); a surprise removal completes at once. Unbind
vPPB `d` of VCS `v` with an option: 0 wait for link down, 1 managed hot-remove, 2 surprise hot-remove. -/
def unbindVppb (s : State) (src : FmSource) (v d opt : Nat) : State × FmRc :=
  let x := vppb s v d
  if d < 2 ∨ 31 < d ∨ 63 < v then bindRefused s src .invalidInput
  else
    match x.state with
    | .binding => bindRefused s src .busy
    | .unbinding => bindRefused s src .busy
    | .unbound => bindRefused s src .invalidInput
    | .bound =>
      let y := { x with state := .unbinding, option := opt, attention := decide (opt = 1), asker := askerOf src }
      if opt = 2 then (bindNote (bindingEnds (putVppb s v d y) v d) src .success, .success)
      else
        let s1 := bindNote (bgStart (putVppb s v d y) 0x5202 (v * 32 + d)) src .started
        (if opt = 1 then hotplug s1 v d else s1, .started)

/-- UNBIND_VPPB (R88, R100). -/
def execUnbindVppb (src : FmSource) (v : Fin 64) (d : Fin 32) (opt : Fin 3) (s : State) : Host.Outcome State Fault Refusal :=
  let r := unbindVppb s src v.val d.val opt.val
  .next (bindSay r.1 src r.2)

/-- MANAGED_REMOVE_TIMEOUT (R88): 30 s have passed in a managed hot-remove. -/
def execManagedRemoveTimeout (v : Fin 64) (d : Fin 32) (s : State) : Host.Outcome State Fault Refusal :=
  let x := vppb s v.val d.val
  if x.state = .unbinding ∧ x.option = 1 then .next (bindingEnds s v.val d.val) else .next s

/-- R88: the host has cleared Power Controller Control of slot channel `c`: a managed removal ends. -/
def hostPowerOff (s : State) (c : Nat) : State :=
  match portOfSlot s c with
  | none => s
  | some p =>
    (bindsOf s p).foldl (fun t b =>
      if b.2.2.state = .unbinding ∧ b.2.2.option = 1 then bindingEnds t b.1 b.2.1 else t) s

/-- R88, R125: the link of port `p` has gone down, for its bindings: waiting unbinds end, a BINDING vPPB becomes BOUND as in a
surprise removal, and a BOUND one shows the change of its link. -/
def bindsLinkDown (s : State) (p : Nat) : State :=
  (bindsOf s p).foldl (fun t b =>
    let x := vppb t b.1 b.2.1
    match x.state with
    | .unbinding => if x.option = 0 then bindingEnds t b.1 b.2.1 else t
    | .binding => becomeBound t b.1 b.2.1
    | .bound => hotplug (putVppb t b.1 b.2.1 { x with linkChanged := true }) b.1 b.2.1
    | .unbound => t) s

/-- R88, R102: the presence of the partner of port `p` as its bindings show it. -/
def bindsPresence (s : State) (p : Nat) : State :=
  (bindsOf s p).foldl (fun t b =>
    let x := vppb t b.1 b.2.1
    let now := partnerPresent t p
    if x.presence = now then t else hotplug (putVppb t b.1 b.2.1 { x with presence := now, presenceChanged := true }) b.1 b.2.1) s

/-- R102: a fault of slot channel `c` shows in the slot status of the vPPBs bound to its port. -/
def slotFaultShown (s : State) (c : Nat) : State :=
  match portOfSlot s c with
  | none => s
  | some p =>
    (bindsOf s p).foldl (fun t b => hotplug (putVppb t b.1 b.2.1 { vppb t b.1 b.2.1 with powerFault := true }) b.1 b.2.1) s

/-- R102: a change of presence at slot channel `c` shows in the slot status. -/
def slotPresenceShown (s : State) (c : Nat) : State :=
  match portOfSlot s c with
  | none => s
  | some p => bindsPresence s p

end Sys2Proof.Machine
end

