-- ==== Sys2Proof/Machine/Veneer.lean ====
section
/-!
DEFINITION. Machine/Veneer.lean: functions and the resources they hold (R316 to R324), log channels (R328 to R331) and function
reset (R332 to R334).
-/

namespace Sys2Proof.Machine

/-! ### Function reset (R332 to R334) -/

/-- R333: the reset point of function `n`. -/
def functionReset (s : State) (n : Nat) : State :=
  if resetPending s n then s
  else
    let f := func s n
    odSet (dropGone (functionWorkStops (setFunc s n { f with resetPending := true, vecPending := [] }) n)) (funcIdx n) 6 1

/-- The veneer functions in the slots of VCS `v`. -/
def veneersOf (s : State) (v : Nat) : List Nat :=
  (List.range 1024).filter fun f => decide ((assignment s f).map Prod.fst = some v)

/-- R332: the veneer functions of VCS `v` are reset. -/
def resetVeneers (s : State) (v : Nat) : State := (veneersOf s v).foldl functionReset s

/-- R332: VCS `v` has entered IN_RESET, or its base function has a Function Level Reset. -/
def resetFunctions (s : State) (v : Nat) : State := resetVeneers (functionReset s (1024 + v)) v

/-- R318, R334: no access of function `n` is outstanding any more. -/
def resetComplete (s : State) (n : Nat) : State :=
  let s1 := dropGone s
  let f := func s1 n
  if f.resetPending ∧ !fnBusy s1 n then
    let s2 := bumpFn (bumpC (odSet (setFunc s1 n { f with resetPending := false, leaving := false }) (funcIdx n) 6 0) 0xC029 3) n 23 1
    if f.leaving then odSet s2 (funcIdx n) 1 unassigned else s2
  else s1

/-- The pieces of dropped executions that have ended are taken away. -/
def dropPieces (s : State) : State :=
  s.mov.execs.foldl (fun t e => if e.dropped then match execOf t e.id with | some f => pieceComplete t f | none => t else t) s

/-- FUNCTION_RESET_COMPLETE (R334). -/
def execFunctionResetComplete (n : Fin 1088) (s : State) : Host.Outcome State Fault Refusal :=
  .next (resetComplete (dropPieces (moverTurn (absorbHost s))) n.val)

/-- CONTROL_PAGE_RESET (R321, R332). -/
def execControlPageReset (n : Fin 1088) (s : State) : Host.Outcome State Fault Refusal := .next (functionReset s n.val)

/-- R332: a Function Level Reset; that of a base function also resets the veneer functions of its VCS. -/
def functionLevelReset (s : State) (n : Nat) : State :=
  if 1024 ≤ n then resetFunctions s (n - 1024) else functionReset s n

/-- FUNCTION_LEVEL_RESET (R332). -/
def execFunctionLevelReset (n : Fin 1088) (s : State) : Host.Outcome State Fault Refusal := .next (functionLevelReset s n.val)

/-- VF_ENABLE_CLEAR (R332). -/
def execVfEnableClear (v : Fin 64) (s : State) : Host.Outcome State Fault Refusal :=
  .next (resetVeneers { s with ven := { s.ven with vfEnable := setRemove v.val s.ven.vfEnable } } v.val)

/-- FUNCTION_RESET (R332): COMMAND on OD (7800 + n).05. -/
def execFunctionReset (n : Fin 1088) (s : State) : Host.Outcome State Fault Refusal := answered (functionReset s n.val, .ok)

/-! ### Assignment (R318, R319) -/

/-- R318: OD (7800+f).01 with a VCS and a slot. -/
def assignedValue (v j : Nat) : Nat := v * 2 ^ 24 + j

/-- R318: function `f` is assigned to slot `j` of VCS `v`. -/
def functionAssign (s : State) (f v j : Nat) : State × Status :=
  match assignment s f with
  | some q => if q = (v, j) ∧ !resetPending s f then (s, .ok) else (s, .busy)
  | none =>
    if 63 < v ∨ j = 0 ∨ odGet s (0x7C00 + v) 9 < j then (s, .outOfRange)
    else if (funcAtSlot s v j).isSome then (s, .slotTaken)
    else if resetPending s f then (s, .busy)
    else
      let a := assignedValue v j
      let s1 := odSet s (funcIdx f) 1 a
      if s.ven.vfEnable.contains v && decide (j ≤ tabGet 0 v s.ven.numVfs) then (notify s1 (funcIdx f) 1 a 0, .ok) else (s1, .ok)

/-- FUNCTION_ASSIGN (R318). -/
def execFunctionAssign (f : Fin 1024) (v : Fin 255) (slot : Fin 2048) (s : State) : Host.Outcome State Fault Refusal :=
  answered (functionAssign s f.val v.val slot.val)

/-- R318: 0xFF in [31..24]: function `f` leaves its slot when its reset completes. -/
def functionUnassign (s : State) (f : Nat) : State × Status :=
  if resetPending s f then (s, .busy)
  else if (assignment s f).isNone then (s, .ok)
  else
    let s1 := functionReset s f
    (setFunc s1 f { func s1 f with leaving := true }, .ok)

/-- FUNCTION_UNASSIGN (R318). -/
def execFunctionUnassign (f : Fin 1024) (s : State) : Host.Outcome State Fault Refusal := answered (functionUnassign s f.val)

/-! ### Moving resources (R322 to R324) -/

/-- R335: OD (7800 + n).07 and .08. -/
def queuesShown (s : State) (n : Nat) : State :=
  odSet (odSet s (funcIdx n) 7 (s.mov.sqs.filter fun p => decide (p.2.owner = n + 1)).length) (funcIdx n) 8
    (s.mov.cqs.filter fun p => decide (p.2.owner = n + 1)).length

/-- The counts of the old and the new owner. -/
def ownersShown (s : State) (old new : Nat) : State :=
  let s1 := if old = 0 then s else queuesShown s (old - 1)
  if new = 0 then s1 else queuesShown s1 (new - 1)

/-- R322: a reset of an owner (function plus 1) is pending. -/
def ownerPending (s : State) (o : Nat) : Bool := decide (o ≠ 0) && resetPending s (o - 1)

/-- R322: the outcome of a queue move: the state, and the code of OD 7020.06. -/
def queueMove (s : State) (isCq : Bool) (q new loc : Nat) : State × Nat :=
  if isCq then
    let x := cq s q
    if x.st ≠ .disabled ∨ x.reading then (s, 1)
    else if new ≠ 0 ∧ (match cqOf s (new - 1) loc with | some r => decide (r ≠ q) | none => false) = true then (s, 2)
    else if !x.hold.isEmpty then (s, 3)
    else if ownerPending s x.owner || ownerPending s new then (s, 4)
    else (ownersShown (bumpC (setCq s q { compReset with owner := new, loc := if new = 0 then 0 else loc }) 0xC029 4) x.owner new, 0)
  else
    let x := sq s q
    if x.st ≠ .disabled ∨ x.reading then (s, 1)
    else if new ≠ 0 ∧ (match sqOf s (new - 1) loc with | some r => decide (r ≠ q) | none => false) = true then (s, 2)
    else if ownerPending s x.owner || ownerPending s new then (s, 4)
    else (ownersShown (bumpC (setSq s q { subReset with owner := new, loc := if new = 0 then 0 else loc }) 0xC029 4) x.owner new, 0)

/-- R322: the status of an outcome. -/
def moveStatus : Nat → Status
  | 0 => .ok | 1 => .queueActive | 2 => .localTaken | 3 => .holdPending | _ => .busy

/-- R322: the command of session `sess`, with the number and local number in the range of the kind. -/
def queueMoveCmd (s : State) (sess : Nat) (isCq : Bool) (q new loc : Nat) : State × Status :=
  if isCq ∧ (1024 ≤ q ∨ 1024 ≤ loc) then (s, .outOfRange)
  else
    let r := queueMove s isCq q new loc
    (sessSet r.1 sess 0x7020 6 r.2, moveStatus r.2)

/-- QUEUE_MOVE (R322): queue `q` moves to function `owner`, with none for no owner, as local queue `loc`. -/
def execQueueMove (sess : BitVec 32) (isCq : Bool) (q : Fin 4096) (owner : Option (Fin 1088)) (loc : Fin 4096) (s : State) :
    Host.Outcome State Fault Refusal :=
  answered (queueMoveCmd s sess.toNat isCq q.val (match owner with | some f => f.val + 1 | none => 0) loc.val)

/-- R323: weight moves from function `a` to function `b`. -/
def shareMove (s : State) (a b n : Nat) : State × Status :=
  let wa := odGet s (funcIdx a) 3
  let wb := odGet s (funcIdx b) 3
  if wa < n then (s, .shareShort)
  else if a = b then (s, .ok)
  else if 65535 < wb + n then (s, .outOfRange)
  else (odSet (odSet s (funcIdx a) 3 (wa - n)) (funcIdx b) 3 (wb + n), .ok)

/-- SHARE_MOVE (R323). -/
def execShareMove (a b : Fin 1088) (n : BitVec 16) (s : State) : Host.Outcome State Fault Refusal :=
  answered (shareMove s a.val b.val n.toNat)

/-- R324: counter set `c` moves to function `new` (plus 1; 0 none). -/
def setMoveTo (s : State) (c new : Nat) : State × Status :=
  let old := tabGet (c + 1) c s.ven.setOwner
  if new ≠ 0 ∧ (match heldSet s (new - 1) with | some d => decide (d ≠ c) | none => false) = true then (s, .setTaken)
  else
    let s1 := { s with ven := { s.ven with setOwner := tabSet (c + 1) c new s.ven.setOwner } }
    let s2 := if old = 0 then s1 else odSet s1 (funcIdx (old - 1)) 4 0xFFFF
    (if new = 0 then s2 else odSet s2 (funcIdx (new - 1)) 4 c, .ok)

/-- COUNTER_SET_MOVE (R324): to function `fn`, with none for no function. -/
def execCounterSetMove (c : Fin 1024) (fn : Option (Fin 1024)) (s : State) : Host.Outcome State Fault Refusal :=
  answered (setMoveTo s c.val (match fn with | some f => f.val + 1 | none => 0))

/-! ### Log channels (R328 to R331) -/

/-- LOG_PRODUCER_WRITEBACK (R328): of channel `c`. -/
def execLogProducerWriteback (c : Fin 1088) (s : State) : Host.Outcome State Fault Refusal :=
  if (logCh s c.val).unsent = 0 then .next s else .next (lcbProducer s c.val)

/-- R330: the log doorbell of the base function of VCS `v` is written with channel `c`. -/
def logDoorbell (s : State) (v c : Nat) : State :=
  if odGet s (logIdx c) 0x11 = v ∧ (logCh s c).state ≠ .off then
    moverTurn (openAccess s none v false false (.lcb c) (odGet s (logIdx c) 0x12) 64 [] clean)
  else s

/-- LOG_DOORBELL (R330). -/
def execLogDoorbell (v : Fin 64) (c : Fin 1088) (s : State) : Host.Outcome State Fault Refusal :=
  .next (logDoorbell s v.val c.val)

/-- The pages that entries of a log name, as pages of the channel's window. -/
def entryPages (base : Nat) : Nat → List Byte → List Nat
  | 0, _ => []
  | n + 1, bs => (leValue (bs.take 8) % 2 ^ 52 - base / 4096) :: entryPages base n (bs.drop 8)

/-- R330: the entries have been read back: their page bits are cleared, and the new re-armed index is written. -/
def rearmDone (s : State) (c : Nat) : State :=
  let x := logCh s c
  let mine := s.mov.accs.filter fun a => decide (a.use = .relog c)
  match x.rearm with
  | none => s
  | some i =>
    if mine.all MovAcc.over then
      let s1 := { s with mov := { s.mov with accs := s.mov.accs.filter fun a => decide (a.use ≠ .relog c) } }
      if x.state = .off ∨ mine.any MovAcc.failed then setLogCh s1 c { x with rearm := none }
      else
        let bs := mine.flatMap MovAcc.bytes
        let pg := entryPages (odGet s (logIdx c) 0x13) (bs.length / 8) bs
        lcbWrite (setLogCh s1 c { x with rearm := none, r := i, pages := x.pages.filter fun p => !pg.contains p }) c 28
          (leBytes 4 i.toNat)
    else s

/-- LOG_REARM_DONE (R330): of channel `c`. -/
def execLogRearmDone (c : Fin 1088) (s : State) : Host.Outcome State Fault Refusal :=
  .next (rearmDone (moverTurn (absorbHost s)) c.val)

/-- R325: the channel's window is valid. -/
def windowValid (s : State) (c : Nat) : Bool :=
  let b := odGet s (logIdx c) 0x13
  let l := odGet s (logIdx c) 0x14
  decide (b % 2 ^ 21 = 0) && decide (l % 2 ^ 21 = 0) && decide (2 ^ 21 ≤ l) && decide (l ≤ 2 ^ 38) && (logVcs s c).isSome

/-- R331: a channel starts to clear its bitmap. -/
def logResetting (s : State) (c : Nat) (x : LogCh) (i : BitVec 32) : State :=
  logState s c { x with state := .resetting, d := i, r := i, pages := [], outside := false, unsent := 0, rearm := none }

/-- R331: Enable is written 1; `lcb` is the LCB as read, none where it cannot be read. -/
def logEnable (s : State) (c : Nat) (lcb : Option (BitVec 512)) : State × Status :=
  let x := logCh s c
  if x.state ≠ .off then (s, .ok)
  else
    match lcb with
    | none => (s, .lcbInvalid)
    | some w =>
      let n := (w.extractLsb' 192 8).toNat
      let ring := (w.extractLsb' 128 64).toNat
      if 9 ≤ n ∧ n ≤ 20 ∧ ring % 4096 = 0 ∧ windowValid s c then
        (logResetting (odSet s (logIdx c) 0x10 1) c { x with n := n, ring := ring } (w.extractLsb' 0 32), .ok)
      else (s, .lcbInvalid)

/-- LOG_ENABLE (R331): of channel `c`, with the LCB that the device reads. -/
def execLogEnable (c : Fin 1088) (lcb : Option (BitVec 512)) (s : State) : Host.Outcome State Fault Refusal :=
  answered (logEnable s c.val lcb)

/-- R331: Enable is written 0. -/
def logDisable (s : State) (c : Nat) : State × Status :=
  let x := logCh s c
  if x.state = .off then (s, .ok)
  else (logState (odSet s (logIdx c) 0x10 0) c { x with state := .off, rearm := none }, .ok)

/-- LOG_DISABLE (R331). -/
def execLogDisable (c : Fin 1088) (s : State) : Host.Outcome State Fault Refusal := answered (logDisable s c.val)

/-- R331: Reset bitmap, with the consumer index that the device reads. -/
def resetBitmap (s : State) (c : Nat) (i : BitVec 32) : State × Status :=
  let x := logCh s c
  if x.state = .logging ∨ x.state = .overflow then (logResetting s c x i, .ok) else (s, .ok)

/-- RESET_BITMAP (R331): COMMAND on OD .16 of channel `c`. -/
def execResetBitmap (c : Fin 1088) (i : BitVec 32) (s : State) : Host.Outcome State Fault Refusal := answered (resetBitmap s c.val i)

/-- R331: the clear of the bitmap is done. -/
def bitmapCleared (s : State) (c : Nat) : State :=
  let x := logCh s c
  if x.state = .resetting then notify (logState s c { x with state := .logging }) (logIdx c) 0x15 1 0 else s

/-- BITMAP_CLEAR_DONE (R331). -/
def execBitmapClearDone (c : Fin 1088) (s : State) : Host.Outcome State Fault Refusal := .next (bitmapCleared s c.val)

end Sys2Proof.Machine
end

