-- ==== Sys2Proof/Machine/Ports.lean ====
section
/-!
DEFINITION. Machine/Ports.lean: CXL ports: lanes and widths (R76 to R78), training (R79 to R83), what going down does (R105,
R125 to R128), resets and PERST (R104 to R107) and lost LDs (R502).
-/

namespace Sys2Proof.Machine

/-! ### Entries of a port (R108) -/

/-- OD 2100 + p. -/
def portIdx (p : Nat) : Nat := 0x2100 + p

/-- OD (2100 + p).01 and .02. -/
def role (s : State) (p : Nat) : Nat := odGet s (portIdx p) 1
def portWidth (s : State) (p : Nat) : Nat := odGet s (portIdx p) 2

/-- R76: port `p` is absorbed by a wider port of its island. -/
def absorbed (s : State) (p : Nat) : Bool :=
  [1, 2, 3].any fun j => decide (j ≤ p % 6) && decide (4 * j < portWidth s (p - j))

/-- OD (2100 + p).10. -/
def setLinkState (s : State) (p n : Nat) : State := odSet s (portIdx p) 0x10 n

/-- R77, R108: ABSORBED shows in the link states of island `k`, on the ports that are absorbed (DEDUCED, log entry 40). -/
def showAbsorbed (s : State) (k : Nat) : State :=
  (List.range 6).foldl (fun t i =>
    let p := 6 * k + i
    if absorbed t p then setLinkState t p 3 else if odGet t (portIdx p) 0x10 = 3 then setLinkState t p 0 else t) s

/-! ### Training starts (R74, R78, R107, R125) -/

/-- R340, R125: port `p` may train: start-up has come to its training, its role is not DISABLED, its island is OPEN, and it is
neither absorbed nor isolated, nor contained by DPC (R75). -/
def mayTrain (s : State) (p : Nat) : Bool :=
  s.pow.mainOn && decide (8 ≤ s.pow.step) && decide (role s p ≠ 0) && !absorbed s p && decide (islandState s (p / 6) = 0) &&
    !s.flt.isoPorts.contains p && !((bindsOf s p).any fun b => b.2.2.dpc)

/-- R107: step 1 has been reached for port `p`: its slot has power, or it has no slot channel. -/
def slotReady (s : State) (p : Nat) : Bool :=
  match slotOfPort s p with
  | some c => (tabGet slotReset c s.pow.slots).powerGood
  | none => true

/-- R492: the reference clock of port `p` is stable. -/
def refStable (s : State) (p : Nat) : Bool := decide (odGet s 0x8041 (p / 6 + 1) = 1)

/-- R74, R78, R125: port `p` starts training, if it may. A DOWNSTREAM port whose PERST_N is low begins with R107. -/
def trainPort (s : State) (p : Nat) : State :=
  if !mayTrain s p then s
  else if role s p = 2 ∧ s.pins.perstLow.contains p then
    if slotReady s p then { s with port := { s.port with perstWait := setInsert p s.port.perstWait } } else s
  else if refStable s p then setLinkState s p 1 else s

/-- R107 step 3: the reference of port `p` is stable and the PERST deassert delay is over. -/
def perstRelease (s : State) (p : Nat) : State :=
  if s.port.perstWait.contains p ∧ refStable s p = true ∧ mayTrain s p = true then
    setLinkState { s with port := { s.port with perstWait := setRemove p s.port.perstWait }
                          pins := { s.pins with perstLow := setRemove p s.pins.perstLow } } p 1
  else s

/-- PERST_RELEASE (R107). -/
def execPerstRelease (p : Fin 96) (s : State) : Host.Outcome State Fault Refusal := .next (perstRelease s p.val)

/-- R107 step 5: PERST_N of port `p` is driven low. -/
def perstDrive (s : State) (p : Nat) : State :=
  { s with port := { s.port with perstWait := setRemove p s.port.perstWait }
           pins := { s.pins with perstLow := setInsert p s.pins.perstLow } }

/-! ### The flush of a port (R125 to R128) -/

/-- R126, R163: the units of an egress pair of port `p`, which is down, are flushed; the proxy of a host has the answers that its RSP
and DAT brought. -/
def flushPair (s : State) (p : Nat) (v : Vn) : State :=
  (egress s p v).foldl (fun t e =>
    match e.msg with
    | some _ => flushed t p e.h.u
    | none => portArrive t p e.h) (setEgress s p v [])

/-- R128: the host's answer to the snoop with BI tag `bt` stands in the ingress pair of port `p`. -/
def biRspCame (s : State) (p bt : Nat) : Bool :=
  (ingress s p .rsp).any fun m => match m.msg with | .biRsp _ t => decide (t.toNat = bt) | _ => false

/-- R127: data that a host's MemWr brought for a delivered snoop, and that its eviction buffer does not hold already, goes to the home as
a writeback. -/
def flushDirty (s : State) (v p : Nat) (sn : ProxySnoop) : State :=
  match sn.dirty, evictFor s v sn, hostLine s v sn.home sn.line, (proxy s v).freeTag with
  | some (d, z), none, some hpa, some t =>
    let x := proxy s v
    let e : ProxyEvict :=
      { tag := t, hpa := hpa, hostTag := 0, keepS := false, snooped := true, data := d, poison := z, pool := none, issued := true
        reissued := false, started := s.time.clock }
    issueEvict (setProxy s v { x with evs := x.evs ++ [e], mute := setInsert t x.mute }) v p e s.time.clock
  | _, _, _, _ => s

/-- R127: the snoops that the proxy has delivered to its host, and that the host has not answered, are answered. -/
def flushSnoops (s : State) (v p : Nat) : State :=
  ((proxy s v).snps.filter fun e => e.out && !biRspCame s p e.biTag).foldl (fun t e =>
    flushDirty (snoopLost (dropSnoop t v e.biTag) v p e.src e.tag e.line) v p e) s

/-- R163: nothing more is sent to the host for the entries that the proxy of VCS `v` holds. -/
def muteEntries (s : State) (v : Nat) : State :=
  let x := proxy s v
  setProxy s v { x with
    mute := (x.reqs.map (·.tag) ++ x.evs.map (·.tag) ++ x.wrs.map (·.tag)).foldl (fun l t => setInsert t l) x.mute }

/-- R25: requests that have left on the link of port `p`, which is down, are answered Unsupported Request, and those of the FM-API
as failed. -/
def flushSent (s : State) (p : Nat) : State :=
  let mine := s.port.np.filter fun n => decide (n.toPort = p) && n.sent
  let s1 := { s with port := { s.port with np := s.port.np.filter fun n => !(decide (n.toPort = p) && decide (n.fromPort = 97)) } }
  mine.foldl (fun t n =>
    if n.fromPort = 97 then emit t (.fmapi .internalError [])
    else sendSynth (bumpC t 0xC022 5) (bridgeStop (p / 6)) (1 + p % 6) (completionOf n.tlp 1 []) (portPlace p) (npPlace n.fromPort) n.tag) s1

/-- R128: requests in the ingress pairs, and the records of requests from the link that is down, are discarded. -/
def flushIngress (s : State) (p : Nat) : State :=
  let s1 := [Vn.req, .iop, .ion].foldl (fun t v => setIngress t p v []) s
  { s1 with port := { s1.port with np := s1.port.np.filter fun n => decide (n.fromPort ≠ p) } }

/-- `f` for the VCS whose host is at port `p`, if there is one. -/
def forHost (s : State) (f : State → Nat → State) : Option Nat → State
  | some v => f s v
  | none => s

/-- R125 to R128: everything that stands at port `p`, whose link is down, is flushed. -/
def flushPort (s : State) (p : Nat) : State :=
  let key := fun (k : Nat) => decide (k / 8 ≠ p)
  let s0 := forHost s muteEntries (hostOfPort s p)
  let s1 := allVns.foldl (fun t v => flushPair t p v) s0
  let s2 := { s1 with swc := { s1.swc with
    cutting := s1.swc.cutting.filter (fun q => key q.1), gaps := s1.swc.gaps.filter (fun q => key q.1) } }
  let s3 := flushIngress (flushSent (poolDown s2 p) p) p
  forHost s3 (fun t v => flushSnoops t v p) (hostOfPort s3 p)

/-! ### Going down (R105, R125) -/

/-- R459: the IDE streams of a link end with it. -/
def ideEnds (s : State) (p : Nat) : State := { s with sec := { s.sec with ide := tabDel p s.sec.ide } }

/-- R125: the link of port `p` goes down, and the port starts training again where it may; what this does to a VCS is R105. -/
def linkFalls (s : State) (p : Nat) : State :=
  let up := portUp s p
  let s1 := if absorbed s p then s else setLinkState s p 0
  let s2 := [0x11, 0x12, 0x13, 0x16, 0x17].foldl (fun t i => odSet t (portIdx p) i 0) s1
  let s3 := { s2 with port := { s2.port with
    l0p := setRemove p s2.port.l0p, narrowed := setRemove p s2.port.narrowed, recovering := setRemove p s2.port.recovering
    retry := setRemove p s2.port.retry, margin := s2.port.margin.filter fun q => decide (q.1 / 16 ≠ p) } }
  if up then
    let s4 := bindsLinkDown (flushPort (ideEnds s3 p) p) p
    trainPort (if poolPort s4 p then poolLost s4 p (BitVec.allOnes 16) else s4) p
  else trainPort s3 p

/-- R105: a BOUND vPPB propagates a hot reset to its device; that of an LD of a multi-logical device leaves the link up. -/
def hotReset (s : State) (p : Nat) : State :=
  let s1 := emit s (.deviceReset p 1)
  if odGet s1 (portIdx p) 0x14 = 4 then s1 else linkFalls s1 p

/-- R105: what a reset of its hierarchy clears in the vPPBs of VCS `v`, the enable of hot-plug interrupts and DPC's trigger among it. -/
def vppbsReset (s : State) (v : Nat) : State :=
  { s with port := { s.port with
    upBus := tabDel v s.port.upBus
    binds := (s.port.binds.map fun b =>
      if b.1 / 32 = v then
        (b.1, { b.2 with secBus := 0, subBus := 0, memBase := 0, memLimit := 0, prefBase := 0, prefLimit := 0, hotplugOn := false, dpc := false })
      else b).filter fun b => decide (b.2 ≠ vppbReset) } }

/-- R105: the decoders of the pool endpoint of VCS `v` are uncommitted. -/
def uncommitDecoders (s : State) (v : Nat) : State :=
  { s with port := { s.port with dec := (s.port.dec.map fun q =>
      if q.1 / 32 = v then (q.1, { q.2 with committed := false }) else q).filter fun q => decide (q.2 ≠ decoderReset) } }

/-- R105: VCS `v` enters IN_RESET. -/
def vcsReset (s : State) (v : Nat) : State :=
  let st := odGet s (0x2200 + v) 3
  if st = 0 ∨ st = 3 then s
  else
    let s1 := closeSessions (odSet s (0x2200 + v) 3 3) fun x => decide (x.transport = .mailbox v)
    let s2 := resetFunctions (vppbsReset (uncommitDecoders s1 v) v) v
    let bound := s2.port.binds.filter fun b => decide (b.1 / 32 = v) && decide (b.2.state = .bound)
    removeHost (bound.foldl (fun t b => hotReset t b.2.port) s2) v

/-- R105, R125: port `p` goes down; the VCS of an upstream port enters IN_RESET, and its host is removed (R194). -/
def portDown (s : State) (p : Nat) : State :=
  let up := portUp s p
  let s1 := linkFalls s p
  match vcsOfPort s p with
  | some v => if up then removeHost (vcsReset s1 v) v else s1
  | none => s1

/-- PORT_DOWN (R125): the Data Link Layer of port `p` leaves DL_Active. -/
def execPortDown (p : Fin 96) (s : State) : Host.Outcome State Fault Refusal :=
  if portUp s p.val then .next (portDown s p.val) else .next s

/-- The link of port `p` is lost, as with its reference clock (R492). -/
def portLinkLost (s : State) (p : Nat) : State := if odGet s (portIdx p) 0x10 = 1 ∨ portUp s p then portDown s p else s

/-! ### Virtual switches (R105) -/

/-- R201: VCS `v` becomes ACTIVE. -/
def vcsActive (s : State) (v : Nat) : State := recoveryAsk (odSet s (0x2200 + v) 3 2) v

/-- R105: the link of VCS `v`'s upstream port `p` is in L0 and its PERST_N input is high. -/
def vcsLinkUp (s : State) (v p : Nat) : State :=
  let st := odGet s (0x2200 + v) 3
  if portUp s p && !s.pins.perstIn.contains p && (decide (st = 1) || decide (st = 3)) then vcsActive s v else s

/-- R105, R201: PERST_N of port `p` is asserted, or its host sends a hot reset. -/
def perstAssert (s : State) (p : Nat) (hot : Bool) : State :=
  if role s p ≠ 1 ∨ absorbed s p = true then s
  else
    let s1 := if hot then s else { s with pins := { s.pins with perstIn := setInsert p s.pins.perstIn } }
    match vcsOfPort s1 p with
    | none => s1
    | some v => vcsReset (portDown (if hot then s1 else recoveryVcs s1 v) p) v

/-- PERST_ASSERT (R105): `hot`: a hot reset instead of the input. -/
def execPerstAssert (p : Fin 96) (hot : Bool) (s : State) : Host.Outcome State Fault Refusal :=
  if s.pins.perstIn.contains p.val then .next s else .next (perstAssert s p.val hot)

/-- VCS_RESET_RELEASE (R105): the PERST_N input of port `p` deasserts; its VCS leaves IN_RESET once the link is in L0. -/
def execVcsResetRelease (p : Fin 96) (s : State) : Host.Outcome State Fault Refusal :=
  let s1 := { s with pins := { s.pins with perstIn := setRemove p.val s.pins.perstIn } }
  match vcsOfPort s1 p.val with
  | some v => .next (vcsLinkUp s1 v p.val)
  | none => .next s1

/-- R105: the enable of VCS `v` is cleared: the effects of IN_RESET, with the port-down rules for the host's traffic, then
DISABLED. -/
def vcsDisable (s : State) (v : Nat) : State :=
  let s1 :=
    match upstreamPort s v with
    | some p =>
      if portUp s p then setLinkState (flushPort (setLinkState s p 0) p) p 2 else s
    | none => s
  odSet (vcsReset s1 v) (0x2200 + v) 3 0

/-- R105: a write of the VCS enable. -/
def vcsEnable (s : State) (v : Nat) (on : Bool) : State :=
  let s1 := odSet s (0x2200 + v) 1 (if on then 1 else 0)
  let st := odGet s (0x2200 + v) 3
  if on then
    if st = 0 then
      let s2 := odSet s1 (0x2200 + v) 3 1
      match upstreamPort s2 v with
      | some p => if vcsOfPort s2 p = some v then vcsLinkUp s2 v p else s2
      | none => s2
    else s1
  else vcsDisable s1 v

/-- VCS_ENABLE_WRITE (R105). -/
def execVcsEnableWrite (v : Fin 64) (on : Bool) (s : State) : Host.Outcome State Fault Refusal :=
  answered (vcsEnable s v.val on, .ok)

/-! ### Roles, widths and settings (R77, R78, R82) -/

/-- R78, R82: OD (2200 + v).02 follows a new role of port `p`: it names `p` for the VCS of an UPSTREAM port, and no VCS names a
port that has become DOWNSTREAM. -/
def nameUpstream (s : State) (p r : Nat) : State :=
  let s1 := if r = 0 then s else
    (List.range 64).foldl (fun t v => if upstreamPort t v = some p then odSet t (0x2200 + v) 2 0xFF else t) s
  if r = 1 then odSet s1 (0x2200 + odGet s (portIdx p) 4) 2 p else s1

/-- R78, R107, R424: the role of port `p` becomes DISABLED. -/
def roleOff (s : State) (p : Nat) : State :=
  let r := role s p
  -- The port is not to train again in its old role.
  let s1 := portDown { s with flt := { s.flt with isoPorts := setInsert p s.flt.isoPorts } } p
  let s2 := { s1 with flt := { s1.flt with isoPorts := s.flt.isoPorts } }
  let s3 := odSet (odSet (odSet s2 (portIdx p) 1 0) (portIdx p) 0x14 0) (portIdx p) 0x15 0
  if r = 2 then perstDrive s3 p else s3

/-- R78, R82: a role write. -/
def roleWrite (s : State) (p r : Nat) : State × Status :=
  let v := odGet s (portIdx p) 4
  if 2 < r then (s, .outOfRange)
  else if absorbed s p then (s, .laneConflict)
  else if r = 1 ∧ 63 < v then (s, .outOfRange)
  else if r = 1 ∧ ((List.range 96).any fun q => decide (q ≠ p) && decide (role s q ≠ 0) && decide (odGet s (portIdx q) 4 = v)) then
    (s, .vcsTaken)
  else
    let s0 := if r = 0 then { s with flt := { s.flt with isoPorts := setRemove p s.flt.isoPorts } } else s
    if r = role s p then (s0, .ok)
    else
      let s1 := if role s p = 0 then s0 else roleOff s0 p
      (trainPort (nameUpstream (odSet s1 (portIdx p) 1 r) p r) p, .ok)

/-- PORT_ROLE_WRITE (R78, R82): a write of OD (2100 + p).01. -/
def execPortRoleWrite (p : Fin 96) (r : Byte) (s : State) : Host.Outcome State Fault Refusal :=
  answered (roleWrite s p.val r.toNat)

/-- R76: a port at slot `n` of its island may have width `w`. -/
def widthAllowed (n w : Nat) : Bool := decide (w = 4) || (decide (w = 8) && decide (n % 2 = 0)) || (decide (w = 16) && decide (n = 0 ∨ n = 2))

/-- R77, R78: a width write. -/
def widthWrite (s : State) (p w : Nat) : State × Status :=
  let eaten := (List.range (w / 4 - 1)).map fun i => p + 1 + i
  if w ≠ 4 ∧ w ≠ 8 ∧ w ≠ 16 then (s, .outOfRange)
  else if role s p ≠ 0 then (s, .portActive)
  else if !widthAllowed (p % 6) w || absorbed s p || eaten.any fun q => decide (role s q ≠ 0) || decide (4 < portWidth s q) then
    (s, .laneConflict)
  else (showAbsorbed (odSet s (portIdx p) 2 w) (p / 6), .ok)

/-- PORT_WIDTH_WRITE (R77): a write of OD (2100 + p).02. -/
def execPortWidthWrite (p : Fin 96) (w : Byte) (s : State) : Host.Outcome State Fault Refusal :=
  answered (widthWrite s p.val w.toNat)

/-- R108: subindex and value of a setting, and whether the value is in its range. -/
def settingSub : PortSetting → Nat
  | .speed _ => 3 | .vcs _ => 4 | .slot _ => 5 | .poolMask _ => 8 | .perstDelay _ => 9
def settingValue : PortSetting → Nat
  | .speed v => v.toNat | .vcs v => v.toNat | .slot v => v.toNat | .poolMask v => v.toNat | .perstDelay v => v.toNat
def settingInRange : PortSetting → Bool
  | .speed v => decide (1 ≤ v.toNat) && decide (v.toNat ≤ 6)
  | .vcs v => decide (v.toNat ≤ 63) || decide (v = 255)
  | .slot v => decide (v.toNat ≤ 47) || decide (v = 255)
  | .poolMask _ => true
  | .perstDelay v => decide (100 ≤ v.toNat) && decide (v.toNat ≤ 1000)

/-- R78, R102: a write of a setting of port `p`. -/
def portConfig (s : State) (p : Nat) (x : PortSetting) : State × Status :=
  if !settingInRange x then (s, .outOfRange)
  else if role s p ≠ 0 then (s, .portActive)
  else if settingSub x = 5 ∧ settingValue x ≠ 255 ∧ ((List.range 96).any fun q => decide (q ≠ p) && decide (odGet s (portIdx q) 5 = settingValue x)) then
    (s, .vcsTaken)
  else (odSet s (portIdx p) (settingSub x) (settingValue x), .ok)

/-- PORT_CONFIG_WRITE (R78): a write of OD (2100 + p).03, .04, .05, .08 or .09. -/
def execPortConfigWrite (p : Fin 96) (x : PortSetting) (s : State) : Host.Outcome State Fault Refusal :=
  answered (portConfig s p.val x)

/-! ### Training completes (R79, R83) -/

/-- R79: the width that port `p` trains to: the widest at which lanes 0 to w − 1 pass; none where not even lane 0 does. -/
def trainedWidth (s : State) (p : Nat) (x : LinkPartner) : Option Nat :=
  [16, 8, 4, 2, 1].find? fun w =>
    decide (w ≤ portWidth s p) && decide (w ≤ x.width) && (List.range w).all fun i => x.lanes.getLsbD i

/-- R75, R79: the speed code: the highest that both ends support, up to the limit; outside 256-byte flit mode 64 GT/s is not
reached. -/
def trainedSpeed (s : State) (p : Nat) (x : LinkPartner) : Nat :=
  min (min (odGet s (portIdx p) 3) x.speed) (if x.flit = 2 then 6 else 5)

/-- R79, R83: the partner suits the role of port `p`. -/
def compatible (s : State) (p : Nat) (x : LinkPartner) : Bool :=
  if role s p = 1 then decide (x.kind = 6) && decide (x.flit = 2) else decide (1 ≤ x.kind.val) && decide (x.kind.val ≤ 4)

/-- R79, R83: a partner that the port cannot use. -/
def incompatible (s : State) (p : Nat) : State :=
  let s1 := if odGet s (portIdx p) 0x14 = 5 then s else raiseFault (odSet s (portIdx p) 0x14 5) p 2 0
  if role s p = 1 then { s1 with port := { s1.port with retry := setInsert p s1.port.retry } } else s1

/-- R83: the LDs of a Type 3 partner. -/
def ldCount (x : LinkPartner) : Nat := if x.kind = 3 then 1 else if x.kind = 4 then min 16 x.ldCount else 0

/-- R79, R108: what the entries of port `p` show of its link at width `w`. -/
def linkShown (s : State) (p w : Nat) (x : LinkPartner) : State :=
  [(0x10, 2), (0x11, w), (0x12, trainedSpeed s p x), (0x13, x.flit.val), (0x14, x.kind.val), (0x15, ldCount x), (0x16, w),
    (0x17, if x.reversed then 1 else 0)].foldl (fun t q => odSet t (portIdx p) q.1 q.2) s

/-- R84, R105: the bindings and the VCS of port `p`, whose link has come to L0. -/
def linkNoticed (s : State) (p : Nat) : State :=
  let s1 := (bindsOf s p).foldl (fun t b =>
    let y := vppb t b.1 b.2.1
    if y.state = .bound then hotplug (putVppb t b.1 b.2.1 { y with linkChanged := true }) b.1 b.2.1 else t) (bindsPresence s p)
  match vcsOfPort s1 p with
  | some v => vcsLinkUp s1 v p
  | none => s1

/-- R79, R83, R84, R502: port `p` is in L0 at width `w`; a POOL device is enumerated and set up, and the LDs that its enumeration has
not found are lost. -/
def portLinkUp (s : State) (p w : Nat) (x : LinkPartner) : State :=
  let s1 := linkShown s p w x
  let s2 := { s1 with port := { s1.port with
    l0p := if x.l0p then setInsert p s1.port.l0p else setRemove p s1.port.l0p
    lost := tabSet 0 p (~~~ x.found) s1.port.lost } }
  let s3 := if poolPort s2 p then emit s2 (.poolSetup p (odGet s2 (portIdx p) 8)) else s2
  linkNoticed (if w < portWidth s p then raiseFault s3 p 1 w else s3) p

/-- R79: training of port `p` has found partner `x`; a link in Recovery is back in L0. -/
def trained (s : State) (p : Nat) (x : LinkPartner) : State :=
  if portUp s p then { s with port := { s.port with recovering := setRemove p s.port.recovering } }
  else if odGet s (portIdx p) 0x10 ≠ 1 ∨ s.port.retry.contains p then s
  else if x.kind = 0 then odSet (odSet s (portIdx p) 0x14 0) (portIdx p) 0x15 0
  else if !compatible s p x then incompatible s p
  else
    match trainedWidth s p x with
    | some w => portLinkUp s p w x
    | none => s

/-- PORT_TRAINED (R79, R83). -/
def execPortTrained (p : Fin 96) (x : LinkPartner) (s : State) : Host.Outcome State Fault Refusal := .next (trained s p.val x)

/-- UPSTREAM_TRAINING_RETRY (R79): 1 s has passed since port `p` failed to reach 256-byte flit mode. -/
def execUpstreamTrainingRetry (p : Fin 96) (s : State) : Host.Outcome State Fault Refusal :=
  if s.port.retry.contains p.val then
    .next (trainPort { s with port := { s.port with retry := setRemove p.val s.port.retry } } p.val)
  else .next s

/-! ### L0p and margining (R80, R81, R360) -/

/-- R360: the partner of port `p` supports L0p. -/
def partnerL0p (s : State) (p : Nat) : Bool := s.port.l0p.contains p

/-- R80, R473: the current width of port `p` changes; no unit is lost. -/
def putWidth (s : State) (p w : Nat) : State :=
  if odGet s (portIdx p) 0x16 = w then s else bump (odSet s (portIdx p) 0x16 w) (8 * p + 6) 1

/-- R80, R360: the part narrows port `p`. -/
def setL0pWidth (s : State) (p w : Nat) : State :=
  putWidth { s with port := { s.port with narrowed := setInsert p s.port.narrowed } } p w

/-- R80, R360: the part restores the full width of a port that it has narrowed. -/
def restoreWidth (s : State) (p : Nat) : State :=
  if s.port.narrowed.contains p then
    putWidth { s with port := { s.port with narrowed := setRemove p s.port.narrowed } } p (odGet s (portIdx p) 0x11)
  else s

/-- R80: the partner of port `p` asks for width `w`. -/
def l0pRequest (s : State) (p w : Nat) : State :=
  if portUp s p && decide (odGet s (portIdx p) 6 = 1) && partnerL0p s p && [1, 2, 4, 8, 16].contains w &&
      decide (odGet s (portIdx p) 7 ≤ w) && decide (w ≤ odGet s (portIdx p) 0x11) then putWidth s p w
  else s

/-- L0P_WIDTH_REQUEST (R80). -/
def execL0pWidthRequest (p : Fin 96) (w : Fin 17) (s : State) : Host.Outcome State Fault Refusal := .next (l0pRequest s p.val w.val)

/-- R81: the sample point of a lane moves, in timing by up to 20 steps or in voltage by up to 32, either way, and the error
sampler counts there (a free value, log entry 29); the link stays in L0. -/
def margin (s : State) (p lane : Nat) (timing : Bool) (steps : Int) : State :=
  if portUp s p && decide (lane < odGet s (portIdx p) 0x11) && decide (steps.natAbs ≤ (if timing then 20 else 32)) then
    let errors := (freshVal s).toNat % 64
    let to1 := fun (q : Int × Int × Nat) => if timing then (steps, q.2.1, errors) else (q.1, steps, errors)
    let s1 := drawn s
    { s1 with port := { s1.port with margin := tabMod (0, 0, 0) (p * 16 + lane) to1 s1.port.margin } }
  else s

/-- LANE_MARGINING (R81). -/
def execLaneMargining (p : Fin 96) (lane : Fin 16) (timing : Bool) (steps : Int) (s : State) : Host.Outcome State Fault Refusal :=
  .next (margin s p.val lane.val timing steps)

/-! ### Resets of devices (R106) -/

/-- SECONDARY_BUS_RESET (R106): in vPPB `d` of VCS `v`. -/
def execSecondaryBusReset (v : Fin 64) (d : Fin 32) (s : State) : Host.Outcome State Fault Refusal :=
  let x := vppb s v.val d.val
  if x.state = .bound then .next (hotReset s x.port) else .next s

/-- R106: a port command is refused at port `p`. -/
def commandRefused (s : State) (p : Nat) : Bool := decide (role s p ≠ 2) || absorbed s p || decide (islandState s (p / 6) ≠ 0)

/-- R106: command 1, hot reset. -/
def portHotReset (s : State) (p : Nat) : State × Status :=
  if commandRefused s p then (s, .wrongState) else (linkFalls (emit s (.deviceReset p 1)) p, .ok)

/-- PORT_HOT_RESET (R106). -/
def execPortHotReset (p : Fin 96) (s : State) : Host.Outcome State Fault Refusal := answered (portHotReset s p.val)

/-- R106, R107: command 2, fundamental reset: PERST_N goes low, and the sequence of R107 resumes at its step 3. -/
def portFundamentalReset (s : State) (p : Nat) : State × Status :=
  if commandRefused s p then (s, .wrongState)
  else (linkFalls (perstDrive s p) p, .ok)

/-- PORT_FUNDAMENTAL_RESET (R106). -/
def execPortFundamentalReset (p : Fin 96) (s : State) : Host.Outcome State Fault Refusal := answered (portFundamentalReset s p.val)

/-- R106: command 3, retrain: the link goes through Recovery, which is not a port down. -/
def portRetrain (s : State) (p : Nat) : State × Status :=
  if commandRefused s p then (s, .wrongState)
  else if portUp s p then
    (bump (emit { s with port := { s.port with recovering := setInsert p s.port.recovering } } (.deviceReset p 3)) (8 * p + 7) 1, .ok)
  else (trainPort s p, .ok)

/-- PORT_RETRAIN (R106). -/
def execPortRetrain (p : Fin 96) (s : State) : Host.Outcome State Fault Refusal := answered (portRetrain s p.val)

/-- R106, R103: command 4, CXL Reset, which takes the link down (DESIGN CHOICE, log entry 41); a POOL device loses its contents. -/
def portCxlReset (s : State) (p : Nat) : State × Status :=
  if commandRefused s p then (s, .wrongState) else (linkFalls (emit s (.deviceReset p 4)) p, .ok)

/-- PORT_CXL_RESET (R106). -/
def execPortCxlReset (p : Fin 96) (s : State) : Host.Outcome State Fault Refusal := answered (portCxlReset s p.val)

/-! ### Slot power and reference clocks (R107, R354, R492) -/

/-- R354, R107: power-good of slot channel `c` is withdrawn. -/
def slotPowerLost (s : State) (c : Nat) : State :=
  match portOfSlot s c with
  | some p => portDown (perstDrive s p) p
  | none => s

/-- R107: power-good of slot channel `c`. -/
def slotPowerGood (s : State) (c : Nat) : State :=
  match portOfSlot s c with
  | some p => if portUp s p then s else trainPort s p
  | none => s

/-- R492, R125: reference `k` has become stable: ports of the island that stayed DOWN for want of it start training. -/
def refclkStable (s : State) (k : Nat) : State :=
  (List.range 6).foldl (fun t i => if odGet t (portIdx (6 * k + i)) 0x10 = 0 then trainPort t (6 * k + i) else t) s

/-! ### Lost LDs (R502) -/

/-- R502, R103: LDs of POOL port `p` are lost while its link stays up. -/
def ldLost (s : State) (p : Nat) (mask : BitVec 16) : State :=
  let new := mask &&& BitVec.ofNat 16 (odGet s (portIdx p) 8) &&& ~~~ (tabGet 0 p s.port.lost)
  if poolPort s p && portUp s p && decide (new ≠ 0) then
    poolLost { s with port := { s.port with lost := tabMod 0 p (· ||| new) s.port.lost } } p new
  else s

/-- POOL_LD_LOST (R502): the device reports LDs failed or unavailable, their allocation is withdrawn, or a viral indication
loses all of them. -/
def execPoolLdLost (p : Fin 96) (mask : BitVec 16) (s : State) : Host.Outcome State Fault Refusal := .next (ldLost s p.val mask)

end Sys2Proof.Machine
end

