-- ==== Sys2Proof/Machine/Islands.lean ====
section
/-!
DEFINITION. Machine/Islands.lean: the states of the port islands (R66, R69, R74).
-/

namespace Sys2Proof.Machine

/-- OD 3032. -/
def setIsland (s : State) (k st : Nat) : State := odSet s 0x3032 (k + 1) st

/-- OD 3031. -/
def storeRequest (s : State) (k r : Nat) : State := odSet s 0x3031 (k + 1) r

/-- R66: the closing drain timer of island `k` stops. -/
def drainTimerOff (s : State) (k : Nat) : State := { s with fab := { s.fab with drainTimer := setRemove k s.fab.drainTimer } }

/-- R66: every port of island `k` is disabled. -/
def allDisabled (s : State) (k : Nat) : Bool :=
  ((List.range 6).all fun i => decide (role s (6 * k + i) = 0)) && decide (odGet s (aulIdx k) 1 = 0)

/-- R66: unit `u` is addressed to agents of island `k`. -/
def forIsland (s : State) (k : Nat) (u : FUnit) : Bool :=
  if u.mc then (unpackSnp u.payload).islands.getLsbD k else decide (addressedIsland s u = some k)

/-- R66, OD 3034: units on the die addressed to agents of island `k` that have not entered an ejection queue of its stop: on the rings, in
injection queues, and on the crossings into the fabric die. -/
def islandDrain (s : State) (k : Nat) : Nat :=
  let waiting := (s.fab.ni.flatMap Prod.snd) ++
    (s.fab.xing.filter fun p => decide (576 ≤ p.1) && decide (p.1 ≠ 576 + 2 * k)).flatMap fun p => p.2.hold.map Prod.snd ++ p.2.wait
  onDie s (forIsland s k) + (waiting.filter fun h =>
    (match h.hpa with | some (v, _) => decide (128 ≤ v) | none => true) && forIsland s k h.u).length

/-- R66: the bridge buffers of island `k` are empty. -/
def bridgeEmpty (s : State) (k : Nat) : Bool := (crossingUnits s (576 + 2 * k)).isEmpty && (crossingUnits s (577 + 2 * k)).isEmpty

/-- R66, R74: a request to close island `k`. -/
def requestClosed (s : State) (k : Nat) : State × Status :=
  if s.fab.heldClosed.contains k ∨ s.pow.mainOn = false then (storeRequest s k 1, .ok)
  else
    match islandState s k with
    | 0 =>
      if allDisabled s k then
        (setIsland { storeRequest s k 1 with fab := { s.fab with drainTimer := setInsert k s.fab.drainTimer } } k 1, .ok)
      else (s, .portsActive)
    | 3 => (s, .busy)
    | _ => (storeRequest s k 1, .ok)

/-- ISLAND_REQUEST_CLOSED (R66). -/
def execIslandRequestClosed (k : Fin 16) (s : State) : Host.Outcome State Fault Refusal := answered (requestClosed s k.val)

/-- R74: island `k` has entered OPEN: its ports start training. -/
def islandOpened (s : State) (k : Nat) : State :=
  aulumIslandOpen ((List.range 6).foldl (fun t i => trainPort t (6 * k + i)) (setIsland s k 0)) k

/-- R66, R74: a request to open island `k`. -/
def requestOpen (s : State) (k : Nat) : State × Status :=
  let s1 := storeRequest s k 0
  if s.fab.heldClosed.contains k ∨ s.pow.mainOn = false then (s1, .ok)
  else
    match islandState s k with
    | 1 => (islandOpened (drainTimerOff s1 k) k, .ok)
    | 2 => (setIsland s1 k 3, .ok)
    | _ => (s1, .ok)

/-- ISLAND_REQUEST_OPEN (R66). -/
def execIslandRequestOpen (k : Fin 16) (s : State) : Host.Outcome State Fault Refusal := answered (requestOpen s k.val)

/-- ISLAND_DRAIN_COMPLETE (R66, R69). -/
def execIslandDrainComplete (k : Fin 16) (s : State) : Host.Outcome State Fault Refusal :=
  if islandState s k.val = 1 ∧ islandDrain s k.val = 0 ∧ bridgeEmpty s k.val = true then
    .next (setIsland (drainTimerOff s k.val) k.val 2)
  else .next s

/-- CLOSING_DRAIN_TIMEOUT (R66): draining goes on. -/
def execClosingDrainTimeout (k : Fin 16) (s : State) : Host.Outcome State Fault Refusal :=
  if islandState s k.val = 1 ∧ s.fab.drainTimer.contains k.val then .next (raiseFault (drainTimerOff s k.val) 428 0 k.val)
  else .next s

/-- BRIDGE_READY (R66): the self-check has passed and the crossings have handshaken. -/
def execBridgeReady (k : Fin 16) (s : State) : Host.Outcome State Fault Refusal :=
  if islandState s k.val = 3 then .next (islandOpened s k.val) else .next s

/-- R66, R419: the bridge of island `k` fails its self-check: F427, kind 3. -/
def bridgeFails (s : State) (k : Nat) : State := raiseFault (setIsland s k 2) 427 0 (3 * 2 ^ 40 + k)

/-- BRIDGE_SELF_CHECK_FAIL (R66). -/
def execBridgeSelfCheckFail (k : Fin 16) (s : State) : Host.Outcome State Fault Refusal :=
  if islandState s k.val = 3 then .next (bridgeFails s k.val) else .next s

/-- OPENING_TIMEOUT (R66): 50 µs have passed in OPENING. -/
def execOpeningTimeout (k : Fin 16) (s : State) : Host.Outcome State Fault Refusal :=
  if islandState s k.val = 3 then .next (bridgeFails s k.val) else .next s

/-- R424: island `k` is held CLOSED until reset, without draining. -/
def islandHeldClosed (s : State) (k : Nat) : State :=
  setIsland { s with fab := { s.fab with heldClosed := setInsert k s.fab.heldClosed, drainTimer := setRemove k s.fab.drainTimer } } k 2

end Sys2Proof.Machine
end

