-- ==== Sys2Proof/Machine/Lpddr.lean ====
section
/-!
DEFINITION. Machine/Lpddr.lean: what the configuration window reads in LPDDR6 (R176, R179, R180, R213, R325, R377), and the agents
whose registers it reaches (R379).
-/

namespace Sys2Proof.Machine

/-! ### Snoop-filter sets (R179, R180) -/

/-- R180: the code of a state. -/
def stateBits : LState → Nat
  | .invalid => 0 | .shared _ => 1 | .owned _ => 2 | .poisoned => 3

/-- R180: the holders that a way records. -/
def wayHolders : LState → HolderSet
  | .shared h => h
  | .owned o => .ptr [o]
  | _ => .ptr []

/-- R180: the code of a mode, and the Mover bit of a vector mode. -/
def modeBits : HolderSet → Nat
  | .ptr _ => 0 | .vec _ _ _ => 1 | .coarse _ _ _ => 2
def moverBit : HolderSet → Bool
  | .ptr _ => false | .vec m _ _ => m | .coarse m _ _ => m

/-- R180: bits [159..128] of a way. -/
def wayHeader (w : SfWay) : Nat :=
  let h := wayHolders w.st
  w.tag % 2 ^ 18 * 2 ^ 14 + stateBits w.st * 2 ^ 12 + modeBits h * 2 ^ 10 + w.order % 8 * 2 ^ 7 + (if moverBit h then 2 ^ 6 else 0)

/-- R180: bits [127..0] of a way. -/
def wayPayload (w : SfWay) : Nat :=
  match wayHolders w.st with
  | .ptr l =>
    ((List.range l.length).zip l).foldl (fun m q => m + q.2.host.toNat * 2 ^ (16 * q.1) + (if q.2.mover then 2 ^ (64 + q.1) else 0))
      (l.length * 2 ^ 125)
  | .vec _ rem hosts => (if rem then 2 ^ 64 else 0) + hosts.toNat
  | .coarse _ g hosts => g.toNat * 2 ^ 96 + hosts.toNat

/-- R176, R179: byte `a` of the snoop filter. -/
def sfByte (s : State) (a : Nat) : Nat :=
  let o := a % 0x28000000
  let ws := sfSet s (a / 0x28000000 * 4194304 + o / 160)
  let b := o % 160
  let way := ws.getD (if b < 32 then b / 4 else (b - 32) / 16) { tag := 0, st := .invalid, order := 0 }
  if b < 32 then wayHeader way / 256 ^ (b % 4) else wayPayload way / 256 ^ ((b - 32) % 16)

/-! ### The map of LPDDR6 (R176, R213, R325) -/

/-- R325: byte `o` of a bitmap. -/
def bitmapByte (x : LogCh) (o : Nat) : Nat :=
  (List.range 8).foldl (fun m i => m + (if x.pages.contains (8 * o + i) then 2 ^ i else 0)) 0

/-- Byte `a` of LPDDR6; what the manual gives no place or content is an open value. -/
def lpddrByte (s : State) (a : Nat) : Byte :=
  if a < 0x500000000 then BitVec.ofNat 8 (sfByte s a)
  else if a < 0x504000000 then BitVec.ofNat 8 ((backing s ((a - 0x500000000) / 8)).toNat / 256 ^ (a % 8))
  else if 0x600000000 ≤ a ∧ a < 0x820000000 then
    BitVec.ofNat 8 (bitmapByte (logCh s ((a - 0x600000000) / 0x800000)) (a % 0x800000))
  else Config.deviceByte a s.fresh

/-- `n` bytes of LPDDR6 from `a`. -/
def lpddrRead (s : State) (a n : Nat) : List Byte := (List.range n).map fun i => lpddrByte s (a + i)

/-! ### Agent registers (R66, R377, R379) -/

/-- R379: the registers of agent `g` of stop `n` answer: those of a stop's own control always, those of other agents unless their
island is CLOSED or their slice isolated. -/
def agentReachable (s : State) (n g : Nat) : Bool :=
  agentExists n g && (decide (g = 0) || match bridgeAt n with | some k => !markedClosed s k | none => !isolatedStop s n)

end Sys2Proof.Machine
end

