-- ==== Sys2Proof/Machine/Management.lean ====
section
/-!
DEFINITION. Machine/Management.lean: chapter 12: the bus matrix of the Nalta management complex, its privilege levels, its
MPUs and the fabric configuration window (R364 to R385), with the collector's post register (R434).
-/

namespace Sys2Proof.Machine

/-! ### Masters, levels and bus errors (R364, R365, R376) -/

/-- Core `k` as it stands. -/
def coreSt (s : State) (k : Nat) : CoreSt := tabGet coreReset k s.mgmt.cores

/-- Change core `k`. -/
def setCore (s : State) (k : Nat) (c : CoreSt) : State :=
  { s with mgmt := { s.mgmt with cores := tabSet coreReset k c s.mgmt.cores } }

/-- R365: the code of a level, as OD 9005 reports it. -/
def Level.code : Level → Nat
  | .p0 => 0
  | .p1 => 1
  | .p2 => 2

/-- R365: a core enters P0 on every exception and interrupt, recording the level it leaves. -/
def enterP0 (c : CoreSt) : CoreSt := { c with level := .p0, saved := c.level :: c.saved }

/-- R365: an interrupt takes the four cores to P0. -/
def coresInterrupted (s : State) : State := (List.range 4).foldl (fun t k => setCore t k (enterP0 (coreSt t k))) s

/-- R376: the code of a kind of bus error. -/
def BusErr.code : BusErr → Nat
  | .noPath => 1
  | .locked => 2
  | .unmapped => 3
  | .timeout => 4
  | .target => 5
  | .mpu => 6
  | .mainOff => 7

/-- R376: a bus error returns to the master: to a core as a precise exception at P0, to the debug port and the DMA as an
error status; OD C02B.01 counts it and OD 9004.01 records it. -/
def busError (s : State) (master id addr : Nat) (e : BusErr) : State :=
  let s1 := odSet (bumpC s 0xC02B 1) 0x9004 1 (master * 2 ^ 40 + e.code * 2 ^ 32 + addr)
  let s2 := if master < 4 then setCore s1 master { enterP0 (coreSt s1 master) with lastExc := some e } else s1
  emit s2 (.busError master id e)

/-- Answer a read with its data. -/
def busData (s : State) (master id : Nat) (d : List Byte) : State := emit s (.busData master id d)

/-- Acknowledge a write. -/
def busAck (s : State) (master id : Nat) : State := emit s (.busAck master id)

/-! ### Address map and path matrix (R366, R370, R374) -/

/-- R366: the targets of the management address space. -/
inductive Target where
  | sram | mramGeneral | keyStore | certParams | mramCtl | odEngine | usb | ethernet | i3c | collector | timers
  | checkWindow | windowCtl | eventLog | mpuRegs | mailbox | securityCore | aperture
  deriving DecidableEq, Repr

/-- The number under which the state keeps a target's arbitration. -/
def Target.no : Target → Nat
  | .sram => 0 | .mramGeneral => 1 | .keyStore => 2 | .certParams => 3 | .mramCtl => 4 | .odEngine => 5 | .usb => 6
  | .ethernet => 7 | .i3c => 8 | .collector => 9 | .timers => 10 | .checkWindow => 11 | .windowCtl => 12
  | .eventLog => 13 | .mpuRegs => 14 | .mailbox => 15 | .securityCore => 16 | .aperture => 17

/-- R366: the address map. -/
def targetOf (a : Nat) : Option Target :=
  if a < 0x00400000 then some .sram
  else if 0x04000000 ≤ a ∧ a < 0x07F00000 then some .mramGeneral
  else if 0x07F00000 ≤ a ∧ a < 0x07F80000 then some .keyStore
  else if 0x07F80000 ≤ a ∧ a < 0x08000000 then some .certParams
  else if 0x08000000 ≤ a ∧ a < 0x08010000 then some .mramCtl
  else if 0x08100000 ≤ a ∧ a < 0x08200000 then some .odEngine
  else if 0x08200000 ≤ a ∧ a < 0x08300000 then some .usb
  else if 0x08300000 ≤ a ∧ a < 0x08400000 then some .ethernet
  else if 0x08400000 ≤ a ∧ a < 0x08500000 then some .i3c
  else if 0x08500000 ≤ a ∧ a < 0x08600000 then some .collector
  else if 0x08600000 ≤ a ∧ a < 0x08700000 then some .timers
  else if 0x08700000 ≤ a ∧ a < 0x08800000 then some .checkWindow
  else if 0x08800000 ≤ a ∧ a < 0x08801000 then some .windowCtl
  else if 0x0C000000 ≤ a ∧ a < 0x0C400000 then some .eventLog
  else if 0x0E000000 ≤ a ∧ a < 0x0E004000 then some .mpuRegs
  else if 0x0E100000 ≤ a ∧ a < 0x0E101000 then some .mailbox
  else if 0x0F000000 ≤ a ∧ a < 0x10000000 then some .securityCore
  else if 0x80000000 ≤ a ∧ a < 0xC0000000 then some .aperture
  else none

/-- What the path matrix gives a master at a target. -/
inductive BusPath where
  | none | locked | r | rw | own
  deriving DecidableEq, Repr

/-- R370: the column of the cores. -/
def corePath : Target → BusPath
  | .sram => .rw | .mramGeneral => .r | .keyStore => .none | .certParams => .none | .mramCtl => .rw | .odEngine => .rw
  | .usb => .rw | .ethernet => .rw | .i3c => .rw | .collector => .rw | .timers => .rw | .checkWindow => .rw
  | .windowCtl => .rw | .aperture => .rw | .eventLog => .r | .mpuRegs => .own | .mailbox => .rw | .securityCore => .none

/-- R370: the DBG column, which applies while debug is unlocked. -/
def debugPath : Target → BusPath
  | .sram => .rw | .mramGeneral => .r | .keyStore => .locked | .certParams => .locked | .mramCtl => .r | .odEngine => .rw
  | .usb => .rw | .ethernet => .rw | .i3c => .rw | .collector => .rw | .timers => .r | .checkWindow => .rw
  | .windowCtl => .rw | .aperture => .rw | .eventLog => .r | .mpuRegs => .r | .mailbox => .rw | .securityCore => .locked

/-- R370: the SDMA column. -/
def dmaPath : Target → BusPath
  | .sram => .rw | .mramGeneral => .r | .keyStore => .r | .certParams => .r | .mramCtl => .rw | .odEngine => .rw
  | .usb => .none | .ethernet => .none | .i3c => .none | .collector => .none | .timers => .r | .checkWindow => .none
  | .windowCtl => .none | .aperture => .none | .eventLog => .none | .mpuRegs => .none | .mailbox => .rw | .securityCore => .rw

/-- R374: locked regions. -/
def Target.lockedRegion : Target → Bool
  | .keyStore => true
  | .certParams => true
  | .securityCore => true
  | _ => false

/-- R370, R374, R466, R467: the path that the debug port finds: a locked region is locked in every debug state, the mailbox
is always reached, the configuration window needs permission 2 and every other target permission 0. -/
def debugPathNow (s : State) (t : Target) : BusPath :=
  if t.lockedRegion then .locked
  else if t = .mailbox then .rw
  else if t = .windowCtl ∨ t = .aperture then
    if s.sec.unlocked && s.sec.permissions.getLsbD 2 then debugPath t else .none
  else if s.sec.unlocked && s.sec.permissions.getLsbD 0 then debugPath t else .none

/-- R370: the path of master `m` to target `t` for an access at `addr`. -/
def pathOf (s : State) (m : Nat) (t : Target) (addr : Nat) : BusPath :=
  if m < 4 then
    match corePath t with
    | .own => if addr / 0x1000 % 4 = m ∧ (coreSt s m).level = .p0 then .rw else .none
    | p => p
  else if m = 4 then debugPathNow s t
  else dmaPath t

/-! ### The MPU (R380 to R384) -/

/-- R381: a region register's fields. -/
def regLimit (r : BitVec 128) : Nat := r.toNat / 2 ^ 102
def regBase (r : BitVec 128) : Nat := r.toNat / 2 ^ 70 % 2 ^ 26
def regEnable (r : BitVec 128) : Bool := r.getLsbD 15

/-- R381: reserved bits read as zero. -/
def regMask (r : BitVec 128) : BitVec 128 :=
  BitVec.ofNat 128 (regLimit r * 2 ^ 102 + regBase r * 2 ^ 70 + (if regEnable r then 2 ^ 15 else 0) + r.toNat % 2 ^ 9)

/-- R381: the reset value of region `j` of set A or B. -/
def regReset (setB : Bool) (j : Nat) : BitVec 128 :=
  if !setB && decide (j = 0) then BitVec.ofNat 128 (0xFFFF * 2 ^ 102 + 2 ^ 15 + 7) else 0

/-- Region `j` of a set. -/
def regionOf (c : CoreSt) (setB : Bool) (j : Nat) : BitVec 128 :=
  tabGet (regReset setB j) j (if setB then c.setB else c.setA)

/-- Write region `j` of a set. -/
def setRegion (c : CoreSt) (setB : Bool) (j : Nat) (v : BitVec 128) : CoreSt :=
  if setB then { c with setB := tabSet (regReset true j) j (regMask v) c.setB }
  else { c with setA := tabSet (regReset false j) j (regMask v) c.setA }

/-- R381: the region covers the 64-byte block numbered `b`. -/
def regCovers (r : BitVec 128) (b : Nat) : Bool :=
  regEnable r && decide (regBase r ≤ b) && decide (b ≤ regLimit r)

/-- The access kinds that the MPU tells apart. -/
inductive MpuKind where
  | read | write | execute | atomic
  deriving DecidableEq, Repr

/-- R381: the region grants the kind at the level. -/
def regGrants (r : BitVec 128) (lv : Level) (k : MpuKind) : Bool :=
  let o := 3 * lv.code
  match k with
  | .read => r.getLsbD o
  | .write => r.getLsbD (o + 1)
  | .execute => r.getLsbD (o + 2)
  | .atomic => r.getLsbD o && r.getLsbD (o + 1)

/-- R382: the lowest-numbered enabled region of the active set that covers the part decides; where none covers it, P0 reads
and writes are permitted. -/
def partPermitted (c : CoreSt) (k : MpuKind) (b : Nat) : Bool :=
  match (List.range 32).find? fun j => regCovers (regionOf c c.activeB j) b with
  | some j => regGrants (regionOf c c.activeB j) c.level k
  | none => decide (c.level = .p0) && decide (k ≠ .execute)

/-- R382: the aligned 64-byte blocks that an access of `len` bytes at `a` touches. -/
def partsOf (a len : Nat) : List Nat :=
  (List.range ((a + len - 1) / 64 + 1 - a / 64)).map fun i => a / 64 + i

/-- The kind the MPU checks an access as. -/
def kindMpu : BusKind → MpuKind
  | .read _ => .read
  | .fetch _ => .execute
  | .write _ => .write
  | .swap _ => .atomic
  | .cas _ _ => .atomic

/-- The number of an access kind. -/
def kindNo : BusKind → Nat
  | .read _ => 0
  | .fetch _ => 1
  | .write _ => 2
  | .swap _ => 3
  | .cas _ _ => 4

/-- The bytes that an access reaches. -/
def kindLen : BusKind → Nat
  | .read n => n
  | .fetch n => n
  | .write d => d.length
  | .swap d => d.length
  | .cas _ d => d.length

/-- R382: the parts refused, in address order. -/
def partsRefused (c : CoreSt) (a : Nat) (k : BusKind) : List Nat :=
  (partsOf a (kindLen k)).filter fun b => !partPermitted c (kindMpu k) b

/-- R382: an MPU fault: the fault record, OD C02B.02 and a bus error of kind MPU. -/
def mpuFault (s : State) (m id : Nat) (k : BusKind) (part : Nat) : State :=
  let c := coreSt s m
  let s1 := setCore s m { c with faultRec := Config.mpuFaultRecord (BitVec.ofNat 32 (part * 64)) (kindNo k) c.level.code c.activeB }
  busError (bumpC s1 0xC02B 2) m id (part * 64) .mpu

/-- R384: swap the active and the shadow set of core `k`. -/
def mpuCommit (s : State) (k : Nat) : State :=
  let c := coreSt s k
  bumpC (setCore s k { c with activeB := !c.activeB, epoch := c.epoch + 1, refetch := true }) 0xC02B 6

/-- R383: copy the active set to the shadow set. -/
def mpuCopy (s : State) (k : Nat) : State :=
  let c := coreSt s k
  setCore s k ((List.range 32).foldl (fun d j => setRegion d (!c.activeB) j (regionOf c c.activeB j)) c)

/-- MPU_COMMIT (R383, R384): core `k` writes Commit to its control register. -/
def execMpuCommit (k : Fin 4) (s : State) : Host.Outcome State Fault Refusal := .next (mpuCommit s k)

/-- MPU_COPY (R383): core `k` writes Copy to its control register. -/
def execMpuCopy (k : Fin 4) (s : State) : Host.Outcome State Fault Refusal := .next (mpuCopy s k)

/-- The level of a code. -/
def Level.ofCode (n : Nat) : Level := if n = 0 then .p0 else if n = 1 then .p1 else .p2

/-- R365: the level recorded at the entry that the core returns from; the manual says none for the entry at reset, so that one
is a free value (log entry 27). -/
def recordedLevel (c : CoreSt) (n : Nat) : Level :=
  match c.saved with
  | [] => Level.ofCode (Config.levelAtReset n).val
  | l :: _ => l

/-- EXCEPTION_RETURN (R365): the core returns to the level recorded at entry; a return never raises the level. -/
def execExceptionReturn (k : Fin 4) (s : State) : Host.Outcome State Fault Refusal :=
  let c := coreSt s k
  let l := recordedLevel c s.fresh
  .next (setCore (drawn s) k { c with level := if c.level.code ≤ l.code then l else c.level, saved := c.saved.drop 1 })

/-! ### Memory targets (R367 to R369) -/

/-- R340, R365: what an SRAM byte holds that nothing has written: step 2 loads the management firmware, whose bytes the manual
does not give (a free value of the image, log entry 28); before it, 0 (log entry 20). -/
def sramLoaded (s : State) (a : Nat) : Byte :=
  match tabFind? 2 s.sec.running with
  | some im => Config.firmwareByte im.measurement a
  | none => 0

/-- SRAM byte. -/
def sramByte (s : State) (a : Nat) : Byte := tabGet (sramLoaded s a) a s.mgmt.sram

/-- `n` bytes of SRAM from `a`. -/
def sramRead (s : State) (a n : Nat) : List Byte := (List.range n).map fun i => sramByte s (a + i)

/-- Write bytes to SRAM from `a`, those that `ok` admits. -/
def sramWrite (s : State) (ok : Nat → Bool) : Nat → List Byte → State
  | _, [] => s
  | a, b :: t =>
    let s1 := if ok a then { s with mgmt := { s.mgmt with sram := tabSet (sramLoaded s a) a b s.mgmt.sram } } else s
    sramWrite s1 ok (a + 1) t

/-- R432: the 64 bytes of a log entry. -/
def LogEntry.bits (e : LogEntry) : Nat :=
  e.time.toNat * 2 ^ 448 + e.seq.toNat * 2 ^ 384 + e.source.toNat * 2 ^ 368 + e.code.toNat * 2 ^ 352 +
    e.severity.toNat * 2 ^ 344 + (if e.rail then 2 ^ 337 else 0) + (if e.undisciplined then 2 ^ 336 else 0) +
    e.syndrome.toNat * 2 ^ 192 + e.data.toNat

/-- Byte `i` of a number, least significant first. -/
def byteOf (v i : Nat) : Byte := BitVec.ofNat 8 (v / 256 ^ i)

/-- R368, R451: byte `o` of a certificate chain area; the manual gives no content past the chain's end. -/
def chainByte (slot : Fin 2) (o n : Nat) : Byte :=
  match (Config.certChain slot)[o]? with
  | some b => b
  | none => Config.deviceByte (0x06050000 + slot.val * 0x10000 + o) n

/-- R368: a byte of the general MRAM range. The bytes of the firmware banks and of the stored images are open values (log
entry 6). -/
def mramByte (s : State) (a : Nat) : Byte :=
  if 0x06000000 ≤ a ∧ a < 0x06010000 then
    let o := a - 0x06000000
    match tabFind? (o / 16) s.flt.cullet with
    | some r => if r.written then byteOf r.bits (o % 16) else 0
    | none => 0
  else if 0x06010000 ≤ a ∧ a < 0x06050000 then
    let o := a - 0x06010000
    match s.flt.crash[o / 64]? with
    | some e => byteOf e.bits (o % 64)
    | none => 0
  else if a < 0x06000000 then Config.deviceByte a s.fresh
  else if 0x06050000 ≤ a ∧ a < 0x06060000 then chainByte 0 (a - 0x06050000) s.fresh
  else if 0x06060000 ≤ a ∧ a < 0x06070000 then chainByte 1 (a - 0x06060000) s.fresh
  else 0

/-- R432: a byte of the event log window: the entry of sequence `n` at slot `n` modulo 65,536. -/
def eventLogByte (s : State) (o : Nat) : Byte :=
  match s.flt.log.find? fun e => decide (e.seq.toNat % 65536 = o / 64) with
  | some e => byteOf e.bits (o % 64)
  | none => 0

/-- Bytes that the manual gives no content for, as this access finds them. -/
def freeBytes (s : State) (a n : Nat) : List Byte := (List.range n).map fun i => Config.deviceByte (a + i) s.fresh

/-! ### The post register and the configuration window (R377 to R379, R434) -/

/-- R433, R434: a software post with code 0x8000 to 0xFFFF is logged. -/
def eventPost (s : State) (code : Nat) (data : BitVec 192) : Option State :=
  if 0x8000 ≤ code ∧ code < 0x10000 then some (logInfo s 0x0200 code data) else none

/-- EVENT_LOG_POST (R434): a 32-byte write to the collector's post register; any other code is a TARGET bus error. -/
def execEventLogPost (m : Fin 6) (id : Fin 16) (code : BitVec 16) (data : BitVec 192) (s : State) :
    Host.Outcome State Fault Refusal :=
  match eventPost s code.toNat data with
  | some t => .next (busAck t m id)
  | none => .next (busError s m id 0x08500100 .target)

/-- R378: the aperture select register holds fabric address bits 39..30. -/
def apertureSelect (s : State) (v : Nat) : State := odSet s 0x9006 1 (v % 1024)

/-- APERTURE_SELECT_WRITE (R377, R378). -/
def execApertureSelectWrite (v : BitVec 32) (s : State) : Host.Outcome State Fault Refusal :=
  .next (apertureSelect s v.toNat)

/-- R377: what a fabric address is. -/
inductive FabricAddr where
  | lpddr (a : Nat)
  | agent (stop agent : Nat)
  | unmapped
  deriving DecidableEq, Repr

/-- R377: the fabric address map. -/
def fabricAddr (a : Nat) : FabricAddr :=
  if a < 0x2000000000 then .lpddr a
  else if a < 0x2000000000 + 144 * 0x100000 then
    .agent ((a - 0x2000000000) / 0x100000) ((a - 0x2000000000) % 0x100000 / 0x10000)
  else .unmapped

/-- R377, R440: an agent register is written through the aperture (UM-20). The layouts of these registers are internal, and the data path may
be in any state afterwards: a free value (log entry 25). Nothing else changes, so that R14 holds. -/
def agentWritten (s : State) : State :=
  let t := drawn s
  match Config.dataPathAfter s.fresh with
  | some d =>
    { t with fab := d.fab, swc := d.swc, port := d.port, home := d.home, prox := d.prox, dir := d.dir, map := d.map, aul := d.aul, mov := d.mov }
  | none => t

/-- R377, R379: an aperture access at offset `o`. -/
def apertureAccess (s : State) (m id o : Nat) (k : BusKind) : State :=
  let a := 0x80000000 + o
  if !s.pow.mainOn then busError s m id a .mainOff
  else
    match fabricAddr (odGet s 0x9006 1 * 2 ^ 30 + o), k with
    | .lpddr x, .read n => busData (drawn s) m id (lpddrRead s x n)
    | .lpddr x, .fetch n => busData (drawn s) m id (lpddrRead s x n)
    | .agent n g, .read l =>
      if agentReachable s n g then busData (drawn s) m id (freeBytes s a l) else busError s m id a .target
    | .agent n g, .fetch l =>
      if agentReachable s n g then busData (drawn s) m id (freeBytes s a l) else busError s m id a .target
    | .agent n g, .write _ =>
      if agentReachable s n g then busAck (agentWritten s) m id else busError s m id a .target
    | _, _ => busError s m id a .target

/-- APERTURE_ACCESS (R377, R379): the window control accepts an access to aperture byte `o`. -/
def execApertureAccess (m : Fin 6) (id : Fin 16) (o : Fin 0x40000000) (k : BusKind) (s : State) :
    Host.Outcome State Fault Refusal :=
  .next (apertureAccess s m id o k)

/-! ### Serving an access (R370 to R376) -/

/-- R371: outstanding transactions of a master. -/
def outstanding (s : State) (m : Nat) : List BusTxn := tabGet [] m s.mgmt.outstanding

/-- R373: of the masters presenting to target `t` in a cycle, the one accepted. -/
def arbitrate (s : State) (t : Nat) (reqs : List BusReq) : Option BusReq :=
  let dma := reqs.find? fun r => decide (r.master.val = 5)
  let others := reqs.filter fun r => decide (r.master.val ≠ 5)
  let ptr := tabGet 0 t s.mgmt.rrPtr
  let rr := (List.range 5).findSome? fun i => others.find? fun r => decide (r.master.val = (ptr + i) % 5)
  match dma with
  | some d => if tabGet false t s.mgmt.lastDma && !others.isEmpty then rr else some d
  | none => rr

/-- R373: the target's pointer moves past the master served; the DMA leaves it. -/
def accepted (s : State) (t : Nat) (r : BusReq) : State :=
  if r.master.val = 5 then { s with mgmt := { s.mgmt with lastDma := tabSet false t true s.mgmt.lastDma } }
  else { s with mgmt := { s.mgmt with lastDma := tabSet false t false s.mgmt.lastDma
                                      rrPtr := tabSet 0 t ((r.master.val + 1) % 5) s.mgmt.rrPtr } }

/-- R369: an atomic at SRAM: cores only, 4 or 8 bytes aligned to its width. -/
def sramAtomic (s : State) (m id a : Nat) (cmp : Option (List Byte)) (d : List Byte) : State :=
  if m < 4 ∧ (d.length = 4 ∨ d.length = 8) ∧ a % d.length = 0 then
    let old := sramRead s a d.length
    let go := match cmp with | some c => decide (c = old) | none => true
    busData (if go then sramWrite s (fun _ => true) a d else s) m id old
  else busError s m id a .target

/-- R380, R381, R383: byte `o` of the MPU registers of a core. -/
def mpuByte (c : CoreSt) (o : Nat) : Byte :=
  if o < 0x400 then byteOf (regionOf c (decide (0x200 ≤ o)) (o % 0x200 / 16)).toNat (o % 16)
  else if o < 0x404 then byteOf ((if c.activeB then 2 ^ 16 else 0) + c.epoch.toNat) (o % 16)
  else if 0x410 ≤ o ∧ o < 0x420 then byteOf c.faultRec.toNat (o % 16) else 0

/-- Write one byte of a region register. -/
def setRegionByte (c : CoreSt) (o : Nat) (b : Byte) : CoreSt :=
  let setB := decide (0x200 ≤ o)
  let j := o % 0x200 / 16
  let old := (regionOf c setB j).toNat
  setRegion c setB j (BitVec.ofNat 128 (old - (byteOf old (o % 16)).toNat * 256 ^ (o % 16) + b.toNat * 256 ^ (o % 16)))

/-- Write bytes from offset `o`, those that fall in region registers. -/
def setRegionBytes : CoreSt → Nat → List Byte → CoreSt
  | c, _, [] => c
  | c, o, b :: t => setRegionBytes (if o < 0x400 then setRegionByte c o b else c) (o + 1) t

/-- R383: what a write of `d` from offset `o` gives the top byte of the control register. -/
def controlByte (o : Nat) (d : List Byte) : Nat :=
  if o ≤ 0x403 then match d[0x403 - o]? with | some b => b.toNat | none => 0 else 0

/-- R380: a write of `n` bytes from `o` touches a region of the active set. -/
def touchesActive (c : CoreSt) (o n : Nat) : Bool :=
  (List.range n).any fun i => decide (o + i < 0x400) && decide (0x200 ≤ o + i) == c.activeB

/-- R380, R383: an access to the MPU registers of the core that the address names. -/
def mpuRegAccess (s : State) (m id a : Nat) (k : BusKind) : State :=
  let core := a / 0x1000 % 4
  let o := a % 0x1000
  let c := coreSt s core
  match k with
  | .read n => busData s m id ((List.range n).map fun i => mpuByte c (o + i))
  | .write d =>
    let v := controlByte o d
    if touchesActive c o d.length || decide (192 ≤ v) then busError s m id a .target
    else
      let s1 := setCore s core (setRegionBytes c o d)
      busAck (if 128 ≤ v then mpuCommit s1 core else if 64 ≤ v then mpuCopy s1 core else s1) m id
  | _ => busError s m id a .target

/-- The access as its target serves it, the paths and the MPU having let it through; `ok` says which addresses of a write
the MPU permitted. A controller whose registers the manual does not lay out answers a read with open values and acknowledges a
write (log entry 43). -/
def serveTarget (s : State) (r : BusReq) (t : Target) (ok : Nat → Bool) : State :=
  let m := r.master.val
  let id := r.id.val
  let a := r.addr.toNat
  match t, r.kind with
  | .sram, .read n => busData s m id (sramRead s a n)
  | .sram, .fetch n => busData s m id (sramRead s a n)
  | .sram, .write d => busAck (sramWrite s ok a d) m id
  | .sram, .swap d => sramAtomic s m id a none d
  | .sram, .cas c d => sramAtomic s m id a (some c) d
  | .mramGeneral, .read n => busData (drawn s) m id ((List.range n).map fun i => mramByte s (a + i))
  | .mramGeneral, .fetch n => busData (drawn s) m id ((List.range n).map fun i => mramByte s (a + i))
  | .eventLog, .read n => busData s m id ((List.range n).map fun i => eventLogByte s (a - 0x0C000000 + i))
  | .mpuRegs, k => mpuRegAccess s m id a k
  | .aperture, k => apertureAccess s m id (a - 0x80000000) k
  | .windowCtl, .read n => busData s m id ((List.range n).map fun i => byteOf (odGet s 0x9006 1) (a % 0x1000 + i))
  | .windowCtl, .write d => busAck (if a % 0x1000 = 0 && ok a then apertureSelect s (leValue (d.take 4)) else s) m id
  | .collector, .write d =>
    if a = 0x08500100 ∧ d.length = 32 then
      match eventPost s (leValue (d.take 2)) (BitVec.ofNat 192 (leValue (d.drop 8))) with
      | some u => busAck u m id
      | none => busError s m id a .target
    else busAck s m id
  | _, .read n => busData (drawn s) m id (freeBytes s a n)
  | _, .write _ => busAck s m id
  | _, _ => busError s m id a .target

/-- R374: a debug access to a locked region: no byte is read or written; logged, reported, counted. -/
def lockedAccess (s : State) (id a : Nat) (k : BusKind) : State :=
  let detail := (Config.accessCode (kindNo k)).toNat * 2 ^ 32 + a
  busError (bumpC (raiseFault s 445 0 detail) 0xC02B 3) 4 id a .locked

/-- R370: the access is a write on its path. -/
def kindWrites : BusKind → Bool
  | .read _ => false
  | .fetch _ => false
  | .write _ => true
  | .swap _ => true
  | .cas _ _ => true

/-- R370, R374: the crossbar carries the access to its target, or answers it. -/
def crossbar (s : State) (r : BusReq) : State ⊕ Target :=
  let m := r.master.val
  let a := r.addr.toNat
  match targetOf a with
  | none => .inl (busError s m r.id a .unmapped)
  | some t =>
    match pathOf s m t a with
    | .none => .inl (busError s m r.id a .noPath)
    | .own => .inl (busError s m r.id a .noPath)
    | .locked => .inl (lockedAccess s r.id a r.kind)
    | .r => if kindWrites r.kind then .inl (busError s m r.id a .target) else .inr t
    | .rw => .inr t

/-- R382: the 64-byte blocks of an access that the core's MPU refuses; a core's access to its own MPU registers is not checked,
nor are the debug port and the security core DMA. -/
def refusedParts (s : State) (r : BusReq) : List Nat :=
  if r.master.val < 4 ∧ ¬ (targetOf r.addr.toNat = some .mpuRegs ∧ r.addr.toNat / 0x1000 % 4 = r.master.val) then
    partsRefused (coreSt s r.master) r.addr.toNat r.kind
  else []

/-- R372, R375: an earlier request to target `t` has had no response yet. -/
def targetWaits (s : State) (t : Target) : Bool := s.mgmt.held.any fun h => decide (h.target = t.no)

/-- A request that target `t` holds, with the blocks that the MPU refused. -/
def hold (s : State) (r : BusReq) (t : Target) (deny : List Nat) : State :=
  { s with mgmt := { s.mgmt with held := s.mgmt.held ++ [{ target := t.no, req := r, deny := deny, silent := !deny.isEmpty, late := false }] } }

/-- The request becomes outstanding. -/
def addOutstanding (s : State) (r : BusReq) (t : Target) : State :=
  { s with mgmt := { s.mgmt with
    outstanding := tabSet [] r.master.val (outstanding s r.master ++ [{ id := r.id, addr := r.addr.toNat, target := t.no }]) s.mgmt.outstanding } }

/-- What the target did, its response being discarded. -/
def unanswered (s t : State) : State :=
  match t.out.getLast? with
  | some (.busError _ _ _) => s
  | _ => { t with out := s.out }

/-- R382: the addresses of a write that the MPU let through. -/
def letsThrough (deny : List Nat) (x : Nat) : Bool := !(deny.contains (x / 64))

/-- R382: a write of which the MPU refuses some parts: the others are written, and the core takes the MPU fault. -/
def partWrite (s : State) (r : BusReq) (p : Nat) (deny : List Nat) : State :=
  let s1 :=
    if (partsOf r.addr.toNat (kindLen r.kind)).all fun b => deny.contains b then s
    else
      match crossbar s r with
      | .inl _ => s
      | .inr t =>
        if r.stalls || targetWaits s t then hold s r t deny else unanswered s (serveTarget s r t (letsThrough deny))
  mpuFault s1 r.master r.id r.kind p

/-- R370, R371, R375: an access that the MPU lets through. One that its target stalls, or that stands behind such a one, stays
outstanding. -/
def wholeAccess (s : State) (r : BusReq) : State :=
  match crossbar s r with
  | .inl u => u
  | .inr t =>
    if r.stalls || targetWaits s t then hold (addOutstanding s r t) r t [] else serveTarget s r t (fun _ => true)

/-- R384: an instruction fetch of core `m` fetches under the set that is active now. -/
def fetchAgain (s : State) (r : BusReq) : State :=
  match r.kind with
  | .fetch _ => if r.master.val < 4 then setCore s r.master { coreSt s r.master with refetch := false } else s
  | _ => s

/-- R371, R382: the access of a master that has fewer than 16 transactions outstanding: a core's is divided into parts and
checked by its MPU, then carried to its target. -/
def busIssue (s : State) (r : BusReq) : State :=
  if 16 ≤ (outstanding s r.master).length then s
  else
    let s1 := fetchAgain s r
    match refusedParts s1 r with
    | [] => wholeAccess s1 r
    | p :: more =>
      match r.kind with
      | .write _ => partWrite s1 r p (p :: more)
      | k => mpuFault s1 r.master r.id k p

/-- BUS_ACCESS (R370 to R376, R382): in one cycle the masters in `reqs` present accesses to one target, which accepts one
of them by R373 and serves it. -/
def execBusAccess (reqs : List BusReq) (s : State) : Host.Outcome State Fault Refusal :=
  let t := match reqs with
    | r :: _ => (match targetOf r.addr.toNat with | some t => t.no | none => 31)
    | [] => 31
  match arbitrate s t reqs with
  | some r => .next (busIssue (accepted s t r) r)
  | none => .next s

/-- Transaction `id` of master `m` is no longer outstanding. -/
def notOutstanding (s : State) (m : Nat) (x : BusTxn) : State :=
  { s with mgmt := { s.mgmt with outstanding := tabSet [] m ((outstanding s m).erase x) s.mgmt.outstanding } }

/-- The held request that transaction `id` of master `m` is. -/
def heldBy (m id : Nat) (late : Bool) (h : HeldTxn) : Bool :=
  decide (h.req.master.val = m) && decide (h.req.id.val = id) && !h.silent && h.late == late

/-- Change the first of a list that `p` picks. -/
def mapFirst {α : Type} (p : α → Bool) (f : α → α) : List α → List α
  | [] => []
  | x :: t => if p x then f x :: t else x :: mapFirst p f t

/-- BUS_TIMEOUT (R375): a transaction of master `m` has had no response for the bus timeout. -/
def execBusTimeout (m : Fin 6) (id : Fin 16) (s : State) : Host.Outcome State Fault Refusal :=
  match (outstanding s m).find? fun x => decide (x.id = id.val) with
  | some x =>
    let s0 := notOutstanding s m x
    let s1 := { s0 with mgmt := { s0.mgmt with held := mapFirst (heldBy m id false) (fun h => { h with late := true }) s.mgmt.held } }
    let s2 := bumpC (raiseFault s1 446 0 (m.val * 2 ^ 40 + x.addr)) 0xC02B 4
    .next (busError s2 m id x.addr .timeout)
  | none => .next s

/-- Target number `n` serves what it holds. -/
def serveHeld (s : State) (h : HeldTxn) : State :=
  match targetOf h.req.addr.toNat with
  | none => s
  | some t =>
    let u := serveTarget s h.req t (letsThrough h.deny)
    if h.late then bumpC (unanswered s u) 0xC02B 5
    else if h.silent then unanswered s u
    else
      match (outstanding u h.req.master).find? fun x => decide (x.id = h.req.id.val) with
      | some x => notOutstanding u h.req.master x
      | none => u

/-- R372, R375: the requests that wait at target `n` behind the one answered are served in order, up to the next that the target
stalls. -/
def serveNext (n : Nat) : Nat → State → State
  | 0, s => s
  | fuel + 1, s =>
    match s.mgmt.held.find? fun h => decide (h.target = n) with
    | some h =>
      if h.req.stalls then s
      else serveNext n fuel (serveHeld { s with mgmt := { s.mgmt with held := s.mgmt.held.erase h } } h)
    | none => s

/-- LATE_RESPONSE (R372, R375): the target answers a transaction that has timed out: what it asks for is done, and the answer is
discarded and counted. A target answers in the order in which it accepted: the requests that wait behind it follow. -/
def execLateResponse (m : Fin 6) (id : Fin 16) (s : State) : Host.Outcome State Fault Refusal :=
  match s.mgmt.held.find? (heldBy m id true) with
  | some h =>
    if (s.mgmt.held.find? fun x => decide (x.target = h.target)) = some h then
      let s1 := serveHeld { s with mgmt := { s.mgmt with held := s.mgmt.held.erase h } } h
      .next (serveNext h.target s1.mgmt.held.length s1)
    else .next s
  | none => .next s

/-- R379: aperture accesses outstanding when the main domain is lost are answered MAIN_OFF. -/
def apertureLost (s : State) : State :=
  let s0 := { s with mgmt := { s.mgmt with held := s.mgmt.held.filter fun h => decide (h.target ≠ 17) } }
  (List.range 6).foldl (fun t m =>
    ((outstanding t m).filter fun x => decide (x.target = 17)).foldl (fun u x => busError (notOutstanding u m x) m x.id x.addr .mainOff) t) s0

end Sys2Proof.Machine
end

