-- ==== Sys2Proof/Machine/Reset.lean ====
section
/-!
DEFINITION. Machine/Reset.lean: what a loss of the main domain, a reset and a loss of the auxiliary domain do to the state
(R15, R338, R346, R494), and reaching a step of start-up (R340).
-/

namespace Sys2Proof.Machine

/-- R338: the entries that report link and switch state show the loss at once. -/
def linksShowDown (s : State) : State :=
  let s1 := (List.range 96).foldl (fun t p =>
    if odGet t (0x2100 + p) 0x10 = 3 then t else odSet t (0x2100 + p) 0x10 0) s
  let s2 := (List.range 16).foldl (fun t a =>
    if odGet t (0x6100 + a) 1 = 1 then odSet t (0x6100 + a) 0x10 1 else odSet t (0x6100 + a) 0x10 0) s1
  (List.range 64).foldl (fun t v => if odGet t (0x2200 + v) 1 = 1 then odSet t (0x2200 + v) 3 3 else t) s2

/-- R105, R403: the session came through the mailbox of a pool endpoint. -/
def viaMailbox (x : Session) : Bool := match x.transport with | .mailbox _ => true | _ => false

/-- R15, R338: the main domain is switched off: the data path, the packet buffers, the directory cache and LPDDR6 are lost. What
the fabric manager has set of bindings, extents, route tables, guard sets, check unit contexts and counter sets stays with the
dictionary; the other entries of the main domain report what they last reported. -/
def mainDomainOff (s : State) : State :=
  if s.pow.mainOn then
    let s1 := closeSessions (linksShowDown s) viaMailbox
    { s1 with
      pow := { s1.pow with mainOn := false }
      fab := { fabReset with links0 := s1.fab.links0, links1 := s1.fab.links1, src0 := s1.fab.src0, src1 := s1.fab.src1 }
      port := { portReset with
        binds := (s1.port.binds.map fun b => (b.1, { b.2 with dpc := false, hotplugOn := false })).filter fun b => decide (b.2 ≠ vppbReset)
        ext := s1.port.ext, respLimit := s1.port.respLimit, bgOps := s1.port.bgOps }
      swc := swcReset
      home := homeReset
      prox := proxReset
      dir := dirReset
      map := { mapReset with
        guardActive := s1.map.guardActive, guardShadow := s1.map.guardShadow, shadowDefault := s1.map.shadowDefault }
      aul := aulReset
      mov := { movReset with ctx := s1.mov.ctx }
      ven := { venReset with setOwner := s1.ven.setOwner }
      last := some { fab := s.fab, swc := s.swc, dir := s.dir, map := s.map, aul := s.aul, mov := s.mov, ven := s.ven } }
  else s

/-- R340: start-up step `n` is reached: OD 8010.01, the step's time and the log entry of R433. -/
def startupReached (s : State) (n : Nat) : State :=
  let s1 := { s with pow := { s.pow with step := n, stepTimes := tabSet 0 n s.time.devTime s.pow.stepTimes } }
  logInfo s1 0xFFFF 0x0020 (BitVec.ofNat 192 n)

/-- The entries of slot channels, which keep their settings through a reset until step 3 of start-up (R494). -/
def slotEntries (od : Tab Nat) : Tab Nat :=
  od.filter fun p => decide (0x8200 ≤ p.1 / 256) && decide (p.1 / 256 < 0x8230)

/-- R492: the entries of the clock monitor, which runs from VAUX power-good. -/
def clockEntries (od : Tab Nat) : Tab Nat :=
  od.filter fun p => decide (0x8041 ≤ p.1 / 256) && decide (p.1 / 256 ≤ 0x8043)

/-- R346, R494: what no loss of power takes away: the fuses and the MRAM. -/
def nonVolatile (s : State) (r : State) : State :=
  { r with
    spr := { r.spr with slot0 := s.spr.slot0, slot1 := s.spr.slot1 }
    flt := { r.flt with crash := s.flt.crash, cullet := s.flt.cullet.filter fun p => p.2.written }
    sec := { secReset with fuseHash := s.sec.fuseHash, revoked := s.sec.revoked, counters := s.sec.counters,
                           banks := s.sec.banks, bootSec := s.sec.bootSec, bootMgmt := s.sec.bootMgmt,
                           cert := s.sec.certNext.getD s.sec.cert }
    od := tabSet 0 (odKey 0x8030 4) (odGet s 0x8030 4) r.od
    time := { r.time with clock := s.time.clock }
    fresh := s.fresh
    out := s.out
    pending := s.pending }

/-- R494 steps 4 and 5: the state in which start-up runs again after a reset. VAUX, the reservoir, the event log, the slot
channels and the counters outside the main domain keep their state; device time counts from the reset (R12). -/
def resetState (s : State) : State :=
  let r := nonVolatile s State.reset
  { r with
    pow := { r.pow with vin12 := s.pow.vin12, vaux := s.pow.vaux, vauxGood := s.pow.vauxGood,
                        vinQualified := s.pow.vinQualified, resMv := s.pow.resMv, capUf := s.pow.capUf,
                        slots := s.pow.slots.map (fun p => (p.1, { p.2 with dropped := false, hostRequest := none })),
                        powSamples := s.pow.powSamples, powSum := s.pow.powSum, powAvg := s.pow.powAvg }
    od := r.od ++ clockEntries s.od ++ slotEntries s.od
    flt := { r.flt with log := s.flt.log, nextSeq := s.flt.nextSeq, cullet := s.flt.cullet }
    perf := { r.perf with cnt := s.perf.cnt, vcs := s.perf.vcs, sets := s.perf.sets }
    pins := { r.pins with resetN := s.pins.resetN, perstIn := s.pins.perstIn } }

/-- R494 step 5, R495: start-up runs from step 2, with step 1 taken as reached. -/
def restart (s : State) : State := startupReached (resetState s) 1

/-- R346: VAUX has returned before the domain was off: a reset follows and start-up runs from step 1. -/
def vauxReturned (s : State) : State :=
  let r := resetState s
  { r with pow := { r.pow with vauxGood := false, step := 0 } }

/-- R346 step 5: the auxiliary domain is off. -/
def auxiliaryOff (s : State) : State :=
  let r := nonVolatile s State.reset
  { r with pow := { r.pow with vaux := s.pow.vaux, vin12 := s.pow.vin12, resMv := s.pow.resMv }
           pins := { r.pins with resetN := s.pins.resetN, perstIn := s.pins.perstIn } }

/-- Something is being written to MRAM, which a reset lets run to its end (R494 step 3). -/
def mramBusy (s : State) : Bool := s.spr.commit.isSome || !s.flt.writing.isEmpty

/-- R494 step 4: once nothing is being written, the main domain is switched off. -/
def resetStep4 (s : State) : State :=
  if s.pins.inReset && !mramBusy s then mainDomainOff s else s

/-- R494 step 2: a reset is recognised: READY low, every PERST_N output low, FAULT_N released, no further Sprineno request
taken, and every session closed (R403). -/
def resetRecognised (s : State) : State :=
  if s.pins.inReset then s else
    resetStep4
      { s with
        pins := { s.pins with inReset := true, ready := false, faultLow := false, perstLow := List.range 96 }
        spr := { s.spr with sessions := [], segs := [], serving := false } }

end Sys2Proof.Machine
end

