-- ==== Sys2Proof/Machine/Power.lean ====
section
/-!
DEFINITION. Machine/Power.lean: chapter 11: supplies, start-up, the hold-up reservoir, the slot channels and the Lehr
governor (R336 to R363), with the reference clocks of R492.
-/

namespace Sys2Proof.Machine

/-! ### Supplies (R336 to R339, R346) -/

/-- R336: one supply after a sample, with its thresholds in mV: good, lost, overvoltage, overvoltage cleared. -/
def supplySample (p : Supply) (good lost ovp clear mV mA : Nat) : Supply :=
  let nGood := if good < mV then p.nGood + 1 else 0
  let nLost := if mV < lost then p.nLost + 1 else 0
  let nOver := if ovp < mV then p.nOver + 1 else 0
  let nClear := if mV < clear then p.nClear + 1 else 0
  let ovp' := if 2 ≤ nOver then true else if p.ovp && decide (2 ≤ nClear) then false else p.ovp
  let good' := if ovp' then false else if 2 ≤ nLost then false else if 2 ≤ nGood then true else p.good
  { mV := mV, mA := mA, good := good', ovp := ovp', nGood := nGood, nLost := nLost, nOver := nOver, nClear := nClear }

/-- R339: add a sample to the 100 µs average of module input power. -/
def powerSample (s : State) (vinMv vinMa vauxMv vauxMa : Nat) : State :=
  let sum := s.pow.powSum + vinMv * vinMa + vauxMv * vauxMa
  if s.pow.powSamples + 1 < 10 then
    { s with pow := { s.pow with powSamples := s.pow.powSamples + 1, powSum := sum } }
  else
    { s with pow := { s.pow with powSamples := 0, powSum := 0, powAvg := sum / 10000000 } }

/-- R346: every slot channel's gate and 3.3 V switch off and every SPnn_PFAIL_N low. -/
def slotsOff (s : State) : State :=
  { s with pow := { s.pow with slots := [] } }

/-- R338: VIN12 is lost or over its overvoltage threshold while the main domain is on. -/
def mainLoss (s : State) : State :=
  let ovp := s.pow.vin12.ovp
  let s1 := raiseFault s 439 0 (if ovp then 2 else 1)
  let s2 := apertureLost (mainDomainOff (bumpC s1 0xC02A 7))
  { s2 with pow := { s2.pow with step := 3, restarting := decide (odGet s2 0x8010 4 = 1) },
            pins := { s2.pins with ready := false } }

/-- R346 step 2, R403: VAUX is lost. -/
def vauxLoss (s : State) : State :=
  let s1 := mainDomainOff s
  let s2 := slotsOff s1
  { s2 with pow := { s2.pow with vauxGood := false, vauxStage := .onReservoir }
            spr := { s2.spr with sessions := [], segs := [], serving := false }
            pins := { s2.pins with ready := false } }

/-- SUPPLY_SAMPLE (R336, R338, R339, R346): both supplies and the reservoir are sampled. -/
def execSupplySample (vinMv vinMa vauxMv vauxMa resMv : Nat) (s : State) : Host.Outcome State Fault Refusal :=
  let vin := supplySample s.pow.vin12 10600 10400 14000 13500 vinMv vinMa
  let vaux := supplySample s.pow.vaux 2650 2550 5800 5600 vauxMv vauxMa
  let s1 := powerSample
    { s with pow := { s.pow with vin12 := vin, vaux := vaux, resMv := resMv,
                                 vinQualified := s.pow.vinQualified && vin.good } } vinMv vinMa vauxMv vauxMa
  if s1.pow.vauxGood && !vaux.good then .next (vauxLoss s1)
  else if vaux.good && decide (s1.pow.vauxStage = .snapshotDone) then .next (vauxReturned s1)
  else if s1.pow.mainOn && !vin.good then .next (mainLoss s1)
  else .next s1

/-- VAUX_POWER_GOOD (R337, R340 step 1): VAUX has been good for 1 ms; every counter is 0 and the event log is empty
(R432, R471). -/
def execVauxPowerGood (s : State) : Host.Outcome State Fault Refusal :=
  if s.pow.vaux.good && !s.pow.vauxGood && decide (s.pow.vauxStage = .none) then
    .next (startupReached
      { s with pow := { s.pow with vauxGood := true }, perf := perfReset
               flt := { s.flt with log := [], nextSeq := 0, frozen := false } } 1)
  else .next s

/-- VIN12_QUALIFIED (R337, R338): VIN12 has been good for the qualification delay. The main domain is enabled when start-up
waits for it at step 3, and a lost main domain starts again from step 4. -/
def execVin12Qualified (s : State) : Host.Outcome State Fault Refusal :=
  if s.pow.vin12.good then .next { s with pow := { s.pow with vinQualified := true } } else .next s

/-- CRASH_SNAPSHOT (R346 step 4, R343, R435): the log is frozen and, if the check passes for 262,144 bytes, its last 4,096
entries are written. A commit in progress runs to its end first. -/
def execCrashSnapshot (s : State) : Host.Outcome State Fault Refusal :=
  if decide (s.pow.vauxStage = .onReservoir) && s.spr.commit.isNone then
    let ok := holdupPasses s 262144
    let l := s.flt.log
    let s1 := { s with flt := { s.flt with frozen := true, crash := if ok then l.drop (l.length - 4096) else s.flt.crash }
                       pow := { s.pow with vauxStage := .snapshotDone } }
    let s2 := odSet s1 0x8030 4 (if ok then 1 else 2)
    if s2.pow.vaux.good then .next (vauxReturned s2) else .next s2
  else .next s

/-- AUXILIARY_DOMAIN_OFF (R346 step 5): after the snapshot, or when the reservoir reaches 8 V, the auxiliary domain is off
and the volatile event log is lost. -/
def execAuxiliaryDomainOff (s : State) : Host.Outcome State Fault Refusal :=
  if !s.pow.vaux.good &&
      (decide (s.pow.vauxStage = .snapshotDone) || (decide (s.pow.vauxStage = .onReservoir) && decide (s.pow.resMv ≤ 8000))) then
    .next (auxiliaryOff s)
  else .next s

/-! ### Slot channels (R347 to R355) -/

/-- The channel as it stands. -/
def slotCh (s : State) (c : Nat) : SlotCh := tabGet slotReset c s.pow.slots

/-- Change the channel. -/
def setSlot (s : State) (c : Nat) (x : SlotCh) : State :=
  { s with pow := { s.pow with slots := tabSet slotReset c x s.pow.slots } }

/-- R351: the power request in force: the host's Power Controller Control while the slot's port is bound, else
OD (8200 + c).02; a channel that the safe state dropped stays off (R354). -/
def slotRequest (s : State) (c : Nat) (x : SlotCh) : Bool :=
  if x.dropped then false else
    match x.hostRequest with
    | some b => b
    | none => decide (odGet s (0x8200 + c) 2 = 1)

/-- R349: the state drives the slot. -/
def SlotState.driving : SlotState → Bool
  | .ramping => true
  | .on => true
  | .limiting => true
  | _ => false

/-- R349: the 3.3 V switch is on. -/
def slotAuxOn (s : State) (c : Nat) (x : SlotCh) : Bool :=
  x.qualified && decide (odGet s (0x8200 + c) 0x13 = 1) &&
    (match x.state with
     | .idle => true | .qualifying => true | .ramping => true | .on => true | .limiting => true | _ => false)

/-- Leave a driving state: gate off, power-good withdrawn, PFAIL_N low, the drive's timers cleared. -/
def SlotCh.gateOff (x : SlotCh) (st : SlotState) : SlotCh :=
  { x with state := st, powerGood := false, pfail := true, faultTimer := false, rampTimer := false, gateWindow := false,
           fullDrive := false, lowTicks := 0, goodTicks := 0 }

/-- R349: what every entry into TRIPPED does to the channel. -/
def SlotCh.trip (x : SlotCh) (cause : Nat) : SlotCh :=
  { x.gateOff .tripped with cause := cause, retries := min (x.retries + 1) 255, retryTimer := true }

/-- R349: the channel trips with its count and fault source F(160 + c). -/
def slotTrip (s : State) (c cause : Nat) (x : SlotCh) : State :=
  raiseFault (bumpC (setSlot s c (x.trip cause)) 0xC02A 2) (160 + c) cause 0

/-- R349: the ramp starts. -/
def SlotCh.ramp (x : SlotCh) : SlotCh :=
  { x with state := .ramping, rampTimer := true, insertTimer := false, fullDrive := false }

/-- R352: temperature over its limit, by the NTC or by the energy model. -/
def slotHot (s : State) (c : Nat) (x : SlotCh) : Bool :=
  if odGet s (0x8200 + c) 0xD = 1 then decide ((odGet s (0x8200 + c) 0xE : Int) < x.temp)
  else decide ((odGet s (0x8200 + c) 0xF : Int) * 1000000000 < x.energy)

/-- R352: cool enough for the retry timer to expire after a TEMP trip. -/
def slotCool (s : State) (c : Nat) (x : SlotCh) : Bool :=
  if odGet s (0x8200 + c) 0xD = 1 then decide (x.temp ≤ (odGet s (0x8200 + c) 0xE : Int) - 20)
  else decide (x.energy * 4 < (odGet s (0x8200 + c) 0xF : Int) * 1000000000)

/-- R350: the input window with its hysteresis of 100 mV. -/
def slotInWindow (s : State) (c vin : Nat) (was : Bool) : Bool :=
  let lo := odGet s (0x8200 + c) 3
  let hi := odGet s (0x8200 + c) 4
  if was then decide (lo ≤ vin) && decide (vin ≤ hi) else decide (lo + 100 ≤ vin) && decide (vin ≤ hi - 100)

/-- R353: input change over the last 8 ticks, mV per 80 µs. -/
def slotSlope (x : SlotCh) : Int :=
  match x.history with
  | [] => 0
  | v :: t => (v : Int) - ((t.getLast?.getD v : Nat) : Int)

/-- R353: SPnn_PFAIL_N of a channel in ON after a tick's sample; the second component counts an assertion. -/
def slotPfail (s : State) (c : Nat) (x : SlotCh) : SlotCh × Bool :=
  if x.state = .on then
    let slope := slotSlope x
    let uv : Int := odGet s (0x8200 + c) 3
    let span : Int := x.history.length - 1
    let warn := (decide (slope < 0) && decide (((x.vin : Int) - uv) * (10 * span) ≤ (odGet s (0x8200 + c) 0x11 : Int) * (-slope)))
      || decide ((x.vin : Int) < uv + 100)
    if warn then ({ x with pfail := true, goodTicks := 0 }, !x.pfail)
    else
      let n := if x.inWindow && decide (0 ≤ slope) then x.goodTicks + 1 else 0
      if x.pfail && decide (100 ≤ n) then ({ x with pfail := false, goodTicks := n }, false)
      else ({ x with goodTicks := n }, false)
  else ({ x with pfail := true }, false)

/-- R347: the sample of one tick put into the channel. -/
def slotSampled (s : State) (c : Nat) (x : SlotCh) (m : SlotSample) : SlotCh :=
  let tau := odGet s (0x8200 + c) 0x10
  { x with
    present := m.present, vin := m.vin, vout := m.vout, cur := m.cur, temp := m.ntc
    history := (m.vin :: x.history).take 9
    inWindow := slotInWindow s c m.vin x.inWindow
    qualified := x.qualified && m.present
    energy := Config.fetDecay tau x.energy + ((m.vin : Int) - (m.vout : Int)) * (m.cur : Int) * 10 }

/-- R348: the current reaches the limit, of the 12 V rail or of the 3.3 V switch. -/
def slotLimiting (s : State) (c : Nat) (x : SlotCh) (m : SlotSample) : Bool :=
  decide (odGet s (0x8200 + c) 8 ≤ m.cur) || (slotAuxOn s c x && decide (3300 ≤ m.auxCur))

/-- R347, R349: the transition that a tick takes in RAMPING, ON and LIMITING, first condition first. `x` holds the tick's
sample. After LIMITING, power-good is asserted at the tick after the one that enters ON. -/
def slotDriveTick (s : State) (c : Nat) (x : SlotCh) (m : SlotSample) : State :=
  let lim := odGet s (0x8200 + c) 8
  let ovp := slotLimiting s c x m
  let low := x.state = .on ∧ x.vout * 100 < x.vin * 90
  let x1 := { x with faultTimer := ovp, lowTicks := if low then x.lowTicks + 1 else 0 }
  if 2 * lim ≤ m.cur then slotTrip s c 1 x1
  else if slotHot s c x1 then slotTrip s c 2 x1
  else if 2 ≤ x1.lowTicks ∧ ovp = false then slotTrip s c 4 x1
  else if !x1.present then setSlot s c { x1.gateOff .empty with qualified := false, insertTimer := false }
  else if !x1.inWindow then setSlot s c { x1.gateOff .qualifying with insertTimer := true }
  else if !slotRequest s c x1 then setSlot s c (x1.gateOff .idle)
  else
    match x1.state with
    | .ramping =>
      let full := x1.fullDrive || decide (x1.vin * 95 ≤ x1.vout * 100)
      let x2 := { x1 with fullDrive := full, gateWindow := full }
      if decide (x2.vin + 8000 ≤ m.gate) && decide (x2.vin * 95 ≤ x2.vout * 100) && !ovp then
        setSlot s c { x2 with state := .on, powerGood := true, pfail := false, gateWindow := false, rampTimer := false }
      else setSlot s c x2
    | .on =>
      if ovp then setSlot s c { x1 with state := .limiting, powerGood := false, pfail := true }
      else
        let r := slotPfail s c { x1 with powerGood := true }
        let s1 := setSlot s c r.1
        if r.2 then bumpC s1 0xC02A 4 else s1
    | .limiting =>
      if ovp then setSlot s c x1 else setSlot s c { x1 with state := .on, pfail := false }
    | _ => setSlot s c x1

/-- R347, R349: one tick of a channel. -/
def slotTick (s : State) (c : Nat) (m : SlotSample) : State :=
  let x := slotSampled s c (slotCh s c) m
  match x.state with
  | .empty => if x.present then setSlot s c { x with state := .qualifying, insertTimer := true } else setSlot s c x
  | .qualifying =>
    if !x.present then setSlot s c { x with state := .empty, insertTimer := false, qualified := false }
    else setSlot s c { x with insertTimer := true }
  | .idle =>
    if !x.present then setSlot s c { x with state := .empty, qualified := false }
    else if slotRequest s c x then setSlot s c { x with state := .qualifying, insertTimer := true }
    else setSlot s c x
  | .ramping => slotDriveTick s c x m
  | .on => slotDriveTick s c x m
  | .limiting => slotDriveTick s c x m
  | .disabled => setSlot s c x
  | .tripped => setSlot s c x
  | .latched => setSlot s c x

/-- OD (8200 + c).18: the code of a state. -/
def slotStateCode : SlotState → Nat
  | .disabled => 0 | .empty => 1 | .qualifying => 2 | .idle => 3 | .ramping => 4 | .on => 5 | .limiting => 6 | .tripped => 7
  | .latched => 8

/-- R102: trips and changes of presence show in the slot status of a bound port; a POOL port's are notified. -/
def slotShown (before after : State) (c : Nat) : State :=
  let x := slotCh before c
  let y := slotCh after c
  let moved := decide (x.state ≠ y.state)
  let s1 := if moved && (decide (y.state = .tripped) || decide (y.state = .latched)) then slotFaultShown after c else after
  let s2 := if x.present ≠ y.present then slotPresenceShown s1 c else s1
  match portOfSlot s2 c with
  | some p => if moved && poolPort s2 p then notify s2 (0x8200 + c) 0x18 (slotStateCode y.state) 0 else s2
  | none => s2

/-- R354, R107: what a change of the channel's power-good does to PERST_N of its port. -/
def slotPower (before after : State) (c : Nat) : State :=
  let s1 := slotShown before after c
  match (slotCh before c).powerGood, (slotCh after c).powerGood with
  | true, false => slotPowerLost s1 c
  | false, true => slotPowerGood s1 c
  | _, _ => s1

/-- SLOT_TICK (R347 to R355): a slot controller samples its channel and takes at most one transition. -/
def execSlotTick (c : Fin 48) (m : SlotSample) (s : State) : Host.Outcome State Fault Refusal :=
  if s.pow.vauxGood then .next (slotPower s (slotTick s c m) c) else .next s

/-- INSERTION_DELAY_EXPIRE (R349): presence has been continuous for the insertion delay. -/
def execInsertionDelayExpire (c : Fin 48) (s : State) : Host.Outcome State Fault Refusal :=
  let x := slotCh s c
  if x.state = .qualifying ∧ x.insertTimer then
    let y := { x with qualified := true, insertTimer := false }
    if slotRequest s c y then .next (setSlot s c y.ramp) else .next (setSlot s c { y with state := .idle })
  else .next s

/-- FAULT_TIMER_EXPIRE (R348, R349): the fault timer runs out; the channel trips with cause CURRENT. -/
def execFaultTimerExpire (c : Fin 48) (s : State) : Host.Outcome State Fault Refusal :=
  let x := slotCh s c
  if x.state.driving && x.faultTimer then .next (slotPower s (slotTrip s c 1 x) c) else .next s

/-- RETRY_TIMER_EXPIRE (R349, R352): a tripped channel is retried, or latched at the retry limit; after a TEMP trip not
before it has cooled. -/
def execRetryTimerExpire (c : Fin 48) (s : State) : Host.Outcome State Fault Refusal :=
  let x := slotCh s c
  if x.state = .tripped ∧ x.retryTimer ∧ (x.cause ≠ 2 ∨ slotCool s c x) then
    let lim := odGet s (0x8200 + c) 0xC
    if lim = 0 ∨ x.retries < lim then
      .next (setSlot s c { x with state := if x.present then .qualifying else .empty, retryTimer := false,
                                  insertTimer := x.present })
    else
      .next (slotPower s (raiseFault (bumpC (setSlot s c { x with state := .latched, cause := 6, retryTimer := false }) 0xC02A 3)
        (160 + c) 6 0) c)
  else .next s

/-- RAMP_TIMEOUT (R349): the ramp timeout passes; with the output below 95 % of the input the channel trips. -/
def execRampTimeout (c : Fin 48) (s : State) : Host.Outcome State Fault Refusal :=
  let x := slotCh s c
  if x.state = .ramping ∧ x.rampTimer then
    if x.vout * 100 < x.vin * 95 then .next (slotPower s (slotTrip s c 3 x) c) else .next (setSlot s c { x with rampTimer := false })
  else .next s

/-- GATE_WONT_RISE_EXPIRE (R349): the gate-won't-rise window expires in RAMPING; the channel latches with cause GATE. -/
def execGateWontRiseExpire (c : Fin 48) (s : State) : Host.Outcome State Fault Refusal :=
  let x := slotCh s c
  if x.state = .ramping ∧ x.gateWindow then
    .next (slotPower s (raiseFault (bumpC (setSlot s c { x.gateOff .latched with cause := 5 }) 0xC02A 3) (160 + c) 5 0) c)
  else .next s

/-- RETRY_COUNT_CLEAR (R349): 10 s of continuous ON. -/
def execRetryCountClear (c : Fin 48) (s : State) : Host.Outcome State Fault Refusal :=
  let x := slotCh s c
  if x.state = .on then .next (setSlot s c { x with retries := 0 }) else .next s

/-- R349: the enable is written 1 or 0. -/
def slotEnable (s : State) (c : Nat) (on : Bool) : State :=
  let x := slotCh s c
  let s1 := odSet s (0x8200 + c) 1 (if on then 1 else 0)
  if on then
    if x.state = .disabled then setSlot s1 c { x with state := .empty } else s1
  else
    slotPower s (setSlot s1 c { x.gateOff .disabled with insertTimer := false, retryTimer := false }) c

/-- SLOT_CHANNEL_ENABLE (R349): OD (8200 + c).01 is written 1. -/
def execSlotChannelEnable (c : Fin 48) (s : State) : Host.Outcome State Fault Refusal :=
  answered (slotEnable s c true, .ok)

/-- SLOT_CHANNEL_DISABLE (R349): OD (8200 + c).01 is written 0. -/
def execSlotChannelDisable (c : Fin 48) (s : State) : Host.Outcome State Fault Refusal :=
  answered (slotEnable s c false, .ok)

/-- R349: OD (8200 + c).14: a latched channel is cleared, unless power is still requested. -/
def slotClear (s : State) (c : Nat) : State × Status :=
  let x := slotCh s c
  if x.state = .latched then
    if slotRequest s c x then (s, .busy) else (setSlot s c { x with state := .empty, cause := 0 }, .ok)
  else (s, .ok)

/-- CLEAR_LATCH (R349). -/
def execClearLatch (c : Fin 48) (s : State) : Host.Outcome State Fault Refusal :=
  answered (slotClear s c)

/-- R351: power is requested or withdrawn, by OD (8200 + c).02 or by the host of a bound port. A request that is off takes
effect at once in a driving state. -/
def slotSetRequest (s : State) (c : Nat) (on byHost : Bool) : State :=
  let x := slotCh s c
  let s1 := if byHost then
      (match x.hostRequest with
       | some _ => setSlot s c { x with hostRequest := some on }
       | none => s)
    else odSet s (0x8200 + c) 2 (if on then 1 else 0)
  let y := slotCh s1 c
  if y.state.driving && !slotRequest s1 c y then slotPower s (setSlot s1 c (y.gateOff .idle)) c
  else if y.state = .idle ∧ slotRequest s1 c y then setSlot s1 c { y with state := .qualifying, insertTimer := true }
  else s1

/-- POWER_REQUEST (R351, R102, R88): a power request is written by the fabric manager, or by the host through the vPPB's
Power Controller Control, which may end a managed removal. -/
def execPowerRequest (c : Fin 48) (on byHost : Bool) (s : State) : Host.Outcome State Fault Refusal :=
  let s1 := slotSetRequest s c on byHost
  answered (if byHost && !on then hostPowerOff s1 c else s1, .ok)

/-! ### The Lehr governor (R356 to R362) -/

/-- R357: what OD 8110 reports for sensor `n`. -/
def sensorTemp (s : State) (n : Nat) : Int := tabGet (-32768) n s.pow.sensors

/-- R357: the governor's view of sensor `n`: only readings taken while the main domain is powered. -/
def sensorUsed (s : State) (n : Nat) : Int := if n = 57 ∧ !s.pow.gov.dieRead then -32768 else sensorTemp s n

/-- R356: `min(1, max(0, (Thard − T) / (Thard − Ttarget)))` of one sensor, as a fraction. -/
def sensorFactor (s : State) (n : Nat) : Nat × Nat :=
  let hard : Int := odGet s 0x8112 (n + 1)
  let target : Int := odGet s 0x8111 (n + 1)
  let t := sensorUsed s n
  if target ≥ hard then (1, 1) else
    let num := max 0 (hard - t)
    let den := hard - target
    if num ≥ den then (1, 1) else (num.toNat, den.toNat)

/-- The smaller of two fractions. -/
def minFrac (a b : Nat × Nat) : Nat × Nat := if a.1 * b.2 ≤ b.1 * a.2 then a else b

/-- R356: F over the 64 sensors. -/
def thermalFactor (s : State) : Nat × Nat :=
  (List.range 64).foldl (fun f n => minFrac f (sensorFactor s n)) (1, 1)

/-- R356: the forecast of foreground power, from measured power and tokens spent in the last epoch (1 token per epoch is
0.1 mW; powers here in 0.1 mW). -/
def forecast (measured spent : Nat) (prevPfg : Int) : Int × Int :=
  let pfg : Int := (measured * 10000 : Nat) - (spent : Int)
  (pfg, pfg + 2 * max 0 (pfg - prevPfg))

/-- R356: `floor(max(0, cap − Pfc − margin) × 100 µs / 10 nJ × F)`. -/
def budget (cap margin : Nat) (pfc : Int) (f : Nat × Nat) : Nat :=
  (max 0 ((cap : Int) * 10000 - pfc - (margin : Int) * 10000)).toNat * f.1 / f.2

/-- R358: tokens left after the minima, given in class order up to the smaller of demand and ceiling. -/
def grantRest : Nat → List (Nat × Nat × Nat) → List Nat
  | _, [] => []
  | rest, (mn, demand, ceil) :: t =>
    let more := min rest (min demand ceil - mn)
    (mn + more) :: grantRest (rest - more) t

/-- R358: the grants of an epoch before deficits are taken off. -/
def grants (b : Nat) (onlyMinima : Bool) (classes : List (Nat × Nat × Nat)) : List Nat :=
  let minima := (classes.map fun c => c.1).foldl (· + ·) 0
  grantRest (if onlyMinima then 0 else b - minima) classes

/-- R358: take what is owed from past epochs off each grant. -/
def payDeficits : List Nat → List Nat → List (Nat × Nat)
  | [], _ => []
  | g :: gs, [] => (g, 0) :: payDeficits gs []
  | g :: gs, d :: ds => (g - d, d - g) :: payDeficits gs ds

/-- R357: readings taken at an epoch boundary while the main domain is powered. -/
def sensorsRead (s : State) (readings : List (Fin 64 × Int)) : State :=
  readings.foldl (fun t r =>
    if t.pow.mainOn || decide (r.1.val = 57) then
      let die := t.pow.gov.dieRead || (t.pow.mainOn && decide (r.1.val = 57))
      { t with pow := { t.pow with sensors := tabSet (-32768) r.1.val r.2 t.pow.sensors, gov := { t.pow.gov with dieRead := die } } }
    else t) s

/-- R360: a sensor at its hard limit starts the thermal response; a sensor that reaches 115 °C, having been below it in
`old`, raises F(363 + n). -/
def overTemperature (old s : State) : State :=
  let hot := (List.range 64).any fun n => decide ((odGet s 0x8112 (n + 1) : Int) ≤ sensorUsed s n)
  let s1 := if hot && !s.pow.gov.thermal then
      odSet { s with pow := { s.pow with gov := { s.pow.gov with thermal := true, alerted := false } } } 0x8113 1 1
    else s
  (List.range 64).foldl (fun t n => if (115 : Int) ≤ sensorTemp t n ∧ sensorTemp old n < 115 then raiseFault t (363 + n) 0 0 else t) s1

/-- R356 to R362: an epoch boundary with the measured power of the last epoch, W, and the demands of the four classes. -/
def governorEpoch (s : State) (measured : Nat) (demand : List Nat) : State :=
  let g := s.pow.gov
  let spent := g.drawn.foldl (· + ·) 0
  let n := g.epochs.getD 0
  let first := decide (n < 20000)
  let fc := forecast measured spent g.prevPfg
  let pfc : Int := if first then 5600000 else fc.2
  let f := thermalFactor s
  let b := budget (odGet s 0x8100 1) (odGet s 0x8100 2) pfc f
  let cls := (List.range 4).map fun k => (odGet s 0x8102 (k + 1), demand.getD k 0, odGet s 0x8103 (k + 1))
  let minima := (cls.map fun c => c.1).foldl (· + ·) 0
  let limited := first || g.thermal || decide (b ≤ minima)
  let onlyMinima := limited || s.flt.safe
  let cls' := if s.flt.safe then cls.zipIdx.map (fun p => if p.2 = 3 then p.1 else (0, 0, 0)) else cls
  let paid := payDeficits (grants b onlyMinima cls') g.deficit
  let aboveMin := (g.grants.zip (cls.map fun c => c.1)).any fun p => decide (p.2 < p.1)
  let ovp := decide (odGet s 0x8100 1 < measured) && !aboveMin
  let s1 := { s with mov := { s.mov with shares := [] }, pow := { s.pow with gov :=
    { g with grants := paid.map Prod.fst, drawn := [0, 0, 0, 0], deficit := paid.map Prod.snd, power := measured,
             pfc := (max 0 pfc).toNat / 10000, factor := f.1 * 256 / f.2, budget := b, prevPfg := fc.1,
             epochs := some (n + 1), overCap := if ovp then g.overCap + 1 else 0 } } }
  if limited then bumpC s1 0xC02A 5 else s1

/-- GOVERNOR_EPOCH (R356 to R362): an epoch boundary. -/
def execGovernorEpoch (measured : Nat) (readings : List (Fin 64 × Int)) (demand : List Nat) (s : State) :
    Host.Outcome State Fault Refusal :=
  let s1 := sensorsRead s readings
  if s1.pow.mainOn then .next (governorEpoch (overTemperature s s1) measured demand) else .next s1

/-- R360: ports that a thermal narrowing can narrow: enabled, UP, partner with L0p, current width above the L0p minimum; whether or
not OD (2100 + p).06 lets the partner narrow the link (DESIGN CHOICE, log entry 38). -/
def narrowable (s : State) (p : Nat) : Bool :=
  decide (odGet s (0x2100 + p) 1 ≠ 0) && decide (odGet s (0x2100 + p) 0x10 = 2) && partnerL0p s p &&
    decide (odGet s (0x2100 + p) 7 < odGet s (0x2100 + p) 0x16)

/-- THERMAL_NARROWING (R360, R80): every 10 ms of the thermal response each port that can be narrowed is halved; when none
can, the thermal alert is raised once. -/
def execThermalNarrowing (s : State) : Host.Outcome State Fault Refusal :=
  if s.pow.gov.thermal then
    let ps := (List.range 96).filter (narrowable s)
    if ps.isEmpty then
      if s.pow.gov.alerted then .next s
      else
        let hot := ((List.range 64).filter fun n => decide ((odGet s 0x8112 (n + 1) : Int) ≤ sensorTemp s n)).headD 0
        .next (raiseFault { s with pow := { s.pow with gov := { s.pow.gov with alerted := true } } } 443 0 hot)
    else
      .next (ps.foldl (fun t p =>
        bumpC (setL0pWidth t p (max (odGet t (0x2100 + p) 7) (odGet t (0x2100 + p) 0x16 / 2))) 0xC02A 6) s)
  else .next s

/-- THERMAL_RESPONSE_END (R360): every sensor has been 5 °C below its target for 100 ms; widths are restored. -/
def execThermalResponseEnd (s : State) : Host.Outcome State Fault Refusal :=
  let cool := (List.range 64).all fun n => decide (sensorUsed s n < (odGet s 0x8111 (n + 1) : Int) - 5)
  if s.pow.gov.thermal && cool then
    let s1 := odSet { s with pow := { s.pow with gov := { s.pow.gov with thermal := false, alerted := false } } } 0x8113 1 0
    .next ((List.range 96).foldl restoreWidth s1)
  else .next s

/-- POWER_CAP_EXCEEDED (R361): measured power above the cap in 100 consecutive epochs without a grant above a minimum. -/
def execPowerCapExceeded (s : State) : Host.Outcome State Fault Refusal :=
  if 100 ≤ s.pow.gov.overCap then .next (raiseFault s 444 0 s.pow.gov.power) else .next s

/-! ### Reference clocks (R492) -/

/-- REFCLK_STABLE (R492, R107): the monitor has found reference `r` within tolerance for 1 ms: 0..15 REFCLK_CXLk, 16..19
REFCLK_AULd, 20 REFCLK_SYS. -/
def execRefclkStable (r : Fin 21) (s : State) : Host.Outcome State Fault Refusal :=
  if s.pow.vauxGood then
    if r.val < 16 then .next (refclkStable (odSet s 0x8041 (r.val + 1) 1) r.val)
    else if r.val < 20 then .next (odSet s 0x8042 (r.val - 15) 1)
    else .next (odSet s 0x8043 1 1)
  else .next s

/-- REFCLK_LOST (R492): a reference leaves tolerance or is absent: the ports that it feeds go or stay DOWN. -/
def execRefclkLost (r : Fin 21) (s : State) : Host.Outcome State Fault Refusal :=
  if r.val < 16 then
    .next ((List.range 6).foldl (fun t i => portLinkLost t (6 * r.val + i)) (odSet s 0x8041 (r.val + 1) 0))
  else if r.val < 20 then
    .next ((List.range 4).foldl (fun t i => aulumLinkLost t (4 * (r.val - 16) + i)) (odSet s 0x8042 (r.val - 15) 0))
  else .next (odSet s 0x8043 1 0)

end Sys2Proof.Machine
end

