-- ==== Sys2Proof/Machine/Safe.lean ====
section
/-!
DEFINITION. Machine/Safe.lean: what isolation of a slice (R424) and entry into the safe state (R430, R314) do to the data path.
-/

namespace Sys2Proof.Machine

/-! ### Isolation of a slice (R424) -/

/-- R424: the request has its home at logical slice `l` of this switch. -/
def homedAt (s : State) (l : Nat) (q : Option (Nat × BitVec 42)) : Bool :=
  match q with
  | some (h, x) => decide (h = ownSwitch s) && decide (homeSlice x = l)
  | none => false

/-- R424: the proxy of VCS `v` completes what it holds outstanding to slice `l`. -/
def proxySliceLost (s : State) (l v : Nat) : State :=
  match upstreamPort s v with
  | none => s
  | some p =>
    let x := proxy s v
    let tags := (x.reqs.filter fun e => homedAt s l e.pool).map (fun e => e.tag) ++
      (x.wrs.filter fun e => homedAt s l e.pool).map (fun e => e.tag) ++ (x.evs.filter fun e => homedAt s l e.pool).map fun e => e.tag
    tags.foldl (fun t n => failEntry t v p n none true) s

/-- R424: the mover cache agent completes what it holds outstanding to slice `l`. -/
def moverSliceLost (s : State) (l : Nat) : State :=
  let hit := fun (x : MovPart) => x.live && homedAt s l x.pool
  let bad := fun (a : MovAcc) => { a with parts := a.parts.map fun x => if hit x then { x with st := .bad 0x21, poison := true } else x }
  let s1 := { s with mov := { s.mov with accs := s.mov.accs.map bad } }
  let fills := s1.mov.fills.filter fun f => homedAt s l (some (f.home, f.line))
  let s2 := fills.foldl fillFailed s1
  let evs := s2.mov.evs.filter fun e => homedAt s l (some (e.home, e.line))
  poolTurn (evs.foldl evictDone s2)

/-- R424: the remote agents complete the requests of other switches that slice `l` holds. -/
def remoteSliceLost (s : State) (l : Nat) : State :=
  (slice s l).trk.foldl (fun t p =>
    match p.2.req with
    | some r =>
      if r.host.toNat / 64 = ownSwitch s then t
      else send t (lostAnswer { blankUnit .req r.kind 0 0 r.tag p.2.line with dst := 0 } r.src (respDst t r.host r.src))
    | none => t) s

/-- R424: slice `l` holds nothing more; what stood in its input queues is discarded. -/
def sliceEmptied (s : State) (l : Nat) : State :=
  let n := sliceStop (physicalOf s l)
  let s1 := allVns.foldl (fun t v =>
    (ejectBuf t n 1 v).foldl (fun r h => isolatedUnit r n h) (setEjectBuf t n 1 v [])) s
  setSlice s1 l sliceReset

/-- R424: every requester answers what it holds outstanding to slice `l`. -/
def sliceAnswered (s : State) (l : Nat) : State :=
  sliceEmptied (remoteSliceLost (moverSliceLost ((List.range 64).foldl (fun t v => proxySliceLost t l v) s) l) l) l

/-! ### Entry into the safe state (R430) -/

/-- R430: an active tracker that is not in WB_PENDING completes at once with the poisoned answer of its request. -/
def trackerSafe (s : State) (l t : Nat) (k : Tracker) : State :=
  if k.phase = .wb then s
  else
    let x := slice s l
    let s1 := unpinLine (setSlice s l { x with trk := tabDel t x.trk }) l k.line
    match k.req with
    | some r => safeRequest s1 l r k.line
    | none => s1

/-- R430: the active trackers of slice `l`; the senior register and its holds serve no one any more. -/
def sliceSafe (s : State) (l : Nat) : State :=
  let s1 := (slice s l).trk.foldl (fun t p => trackerSafe t l p.1 p.2) s
  setSlice s1 l { slice s1 l with senior := [], holds := [] }

/-- R314, R430: the data path enters the safe state. -/
def dataPathSafe (s : State) : State := moverSafe ((List.range 32).foldl sliceSafe s)

end Sys2Proof.Machine
end

