-- ==== Sys2Proof/Machine/Faults.lean ====
section
/-!
DEFINITION. Machine/Faults.lean: chapter 14: reports and reactions, isolation, first error, injection, the safe state, the
crash snapshot and the cullet map (R416 to R438).
-/

namespace Sys2Proof.Machine

/-! ### Isolation (R424) -/

/-- R416: the unit that isolation of source `f` acts on, with the detail of its report. -/
def unitOf (s : State) (f detail : Nat) : Option FaultUnit :=
  if f < 96 then some (.port f)
  else if f < 160 then some (.aulum ((f - 96) / 4))
  else if 208 ≤ f ∧ f < 272 then
    let p := odGet s (0x2200 + (f - 208)) 2
    if p < 96 then some (.port p) else none
  else if 308 ≤ f ∧ f < 342 then (logicalOf s (f - 308)).map .slice
  else if 342 ≤ f ∧ f < 358 then some (.island (f - 342))
  else if f = 428 then some (.island (detail % 16))
  else if f = 432 ∨ f = 433 then some (.slice (bits detail 36 32))
  else none

/-- R433: the log entry of an isolation, and its count (OD C02D.04). -/
def isolationLogged (s : State) (kind n : Nat) : State :=
  bumpC (logInfo s 0xFFFF 0x0005 (BitVec.ofNat 192 (kind * 256 + n))) 0xC02D 4

/-- R424: a CXL port is isolated. -/
def isolatePort (s : State) (p : Nat) : State :=
  if s.flt.isoPorts.contains p then s else
    isolationLogged (portDown { s with flt := { s.flt with isoPorts := setInsert p s.flt.isoPorts } } p) 1 p

/-- R424: an Aulum port is isolated. -/
def isolateAulum (s : State) (a : Nat) : State :=
  if s.flt.isoAulum.contains a then s else
    isolationLogged (aulumIsolate { s with flt := { s.flt with isoAulum := setInsert a s.flt.isoAulum } } a) 2 a

/-- R424: a port island is isolated: every port of it, then the island marked CLOSED without draining. -/
def isolateIsland (s : State) (k : Nat) : State :=
  if s.flt.isoIslands.contains k then s else
    let s1 := (List.range 6).foldl (fun t i => isolatePort t (6 * k + i))
      { s with flt := { s.flt with isoIslands := setInsert k s.flt.isoIslands } }
    isolationLogged (islandHeldClosed (isolateAulum s1 k) k) 3 k

/-- R424: a logical slice is isolated: its requesters answer its requests, and a PENDING record retires its physical
slice. -/
def isolateSlice (s : State) (l : Nat) : State :=
  if s.flt.isoSlices.contains l then s else
    let s1 := sliceAnswered { s with flt := { s.flt with isoSlices := setInsert l s.flt.isoSlices } } l
    sliceRetire (isolationLogged s1 4 l) (physicalOf s l) 1

/-- R424: isolation of a unit. -/
def isolate (s : State) : FaultUnit → State
  | .port p => isolatePort s p
  | .aulum a => isolateAulum s a
  | .island k => isolateIsland s k
  | .slice l => isolateSlice s l

/-! ### The safe state (R429, R430) -/

/-- R354: channels whose safe-state action is drop go to IDLE. -/
def slotsSafe (s : State) : State :=
  (List.range 48).foldl (fun t c =>
    let x := slotCh t c
    if odGet t (0x8200 + c) 0x12 = 1 ∧ x.state ≠ .disabled then
      slotPower t (setSlot t c { x.gateOff .idle with dropped := true, insertTimer := false, retryTimer := false }) c
    else t) s

/-- R429: the safe state is entered. -/
def enterSafe (s : State) (cause : Nat) : State :=
  if s.flt.safe then s else
    let s1 := logInfo s 0xFFFF 0x0006 (BitVec.ofNat 192 cause)
    let s2 := { s1 with flt := { s1.flt with safe := true, safeCause := cause, timers := [], frozen := true }
                        pins := { s1.pins with faultLow := true } }
    slotsSafe (dataPathSafe (notify s2 0xA050 3 1 (BitVec.ofNat 64 cause)))

/-! ### Reports (R417, R421, R426, R433) -/

/-- R421: the reaction of class C1. -/
def interruptCores (s : State) (f : Nat) (syn : BitVec 64) : State :=
  let s1 := coresInterrupted s
  let s2 := { s1 with flt := { s1.flt with lastInterrupt := f } }
  emit (notify s2 0xA020 3 f syn) (.coreInterrupt f)

/-- R424, R429, R416: an escalation or class that isolates; a source with no unit now reacts as C1, and in the safe state no
isolation is carried out. -/
def isolateOr (s : State) (f detail : Nat) (syn : BitVec 64) : State :=
  if s.flt.safe then s else
    match unitOf s f detail with
    | some u => isolate s u
    | none => interruptCores s f syn

/-- R421: the reaction of the source's class. -/
def react (s : State) (f : Nat) (r : Report) : State :=
  let rec0 := srcRecord s f
  match recClass rec0 with
  | 0 => s
  | 1 => interruptCores s f r.syndrome
  | 2 =>
    let s1 := interruptCores s f r.syndrome
    if s.flt.safe || (tabFind? f s.flt.timers).isSome then s1
    else { s1 with flt := { s1.flt with timers := tabPut f (recSafe rec0, r.detail.toNat) s1.flt.timers } }
  | 3 => isolateOr s f r.detail.toNat r.syndrome
  | _ => enterSafe s f

/-- R433: log a report, unless an entry of the source was written less than 100 µs earlier or the log is frozen. -/
def logReport (s : State) (f : Nat) (r : Report) : State :=
  let recent := match tabFind? f s.flt.lastLogged with
    | some t => decide (s.time.clock < t + 100000)
    | none => false
  if s.flt.frozen || recent then bumpC s 0xC02D 5
  else
    let s1 := logAppend s f 0x0001 (recClass (srcRecord s f) + 1) r.rail r.syndrome r.data
    { s1 with flt := { s1.flt with lastLogged := tabPut f s1.time.clock s1.flt.lastLogged } }

/-- R426: sticky bit, first-error latch and counts of a report. -/
def recordReport (s : State) (f : Nat) (r : Report) : State :=
  let s1 := bumpC s 0xC02D 1
  { s1 with flt := { s1.flt with
      sticky := setInsert f s1.flt.sticky
      counts := tabMod 0 f (fun c => c + 1) s1.flt.counts
      latch := if s1.flt.latch.isSome then s1.flt.latch else some (f, s1.time.devTime, r.syndrome)
      overflow := s1.flt.overflow || s1.flt.latch.isSome } }

/-- R421: the collector takes report `r` of source `f`. -/
def report (s : State) (f : Nat) (r : Report) : State := react (logReport (recordReport s f r) f r) f r

/-- R417: the source's pair is ignored: its domain or island is unpowered. -/
def pairIgnored (s : State) (f : Nat) : Bool :=
  (mainSource f && !s.pow.mainOn) ||
    (match islandSource f with
     | some k => decide (odGet s 0x3032 (k + 1) = 2) || decide (odGet s 0x3032 (k + 1) = 3)
     | none => false)

/-- FAULT_REPORT (R416, R417, R421): the collector captures the report that source `f` holds, and its pair returns to
idle; where none is held, `own` is what a checker outside the model reports at this moment (an on-die SRAM or MRAM error of
R420, say). A reserved source is never generated. -/
def execFaultReport (f : Fin 512) (own : Option (BitVec 8 × BitVec 48 × BitVec 192)) (s : State) :
    Host.Outcome State Fault Refusal :=
  if 454 ≤ f.val then .next s
  else
    match tabFind? f.val s.flt.pairs with
    | some r =>
      let s1 := { s with flt := { s.flt with pairs := tabDel f.val s.flt.pairs } }
      if pairIgnored s f then .next s1 else .next (report s1 f r)
    | none =>
      match own with
      | some (c, d, x) =>
        if pairIgnored s f then .next s
        else
          .next (report (checkDone s f) f
            { injected := checkInverted s f, rail := false, cause := c, detail := d, data := x })
      | none => .next s

/-- RAIL_FAULT (R417, R428): a pair reads 0b00 or 0b11 for 4 consecutive samples, a rail fault reported once until it reads
valid again (`invalid = false`). -/
def execRailFault (f : Fin 512) (invalid : Bool) (s : State) : Host.Outcome State Fault Refusal :=
  if invalid then
    if s.flt.railFaults.contains f.val || pairIgnored s f then .next s
    else
      let inj := s.flt.railDriven.contains f.val
      let s1 := { s with flt := { s.flt with
        railDriven := setRemove f.val s.flt.railDriven
        railFaults := if inj then s.flt.railFaults else setInsert f.val s.flt.railFaults } }
      .next (report (bumpC s1 0xC02D 2) f { injected := inj, rail := true, cause := 0, detail := 0, data := 0 })
  else .next { s with flt := { s.flt with railFaults := setRemove f.val s.flt.railFaults } }

/-- HANDLING_TIMER_EXPIRE (R423): the escalation that the timer started with is taken and logged. -/
def execHandlingTimerExpire (f : Fin 512) (s : State) : Host.Outcome State Fault Refusal :=
  match tabFind? f.val s.flt.timers with
  | none => .next s
  | some (safe, detail) =>
    let s1 := bumpC { s with flt := { s.flt with timers := tabDel f.val s.flt.timers } } 0xC02D 3
    let s2 := logInfo s1 f 0x0004 (if safe then 1 else 0)
    if safe then .next (enterSafe s2 f) else .next (isolateOr s2 f detail 0)

/-- R423: an acknowledgement of source `n` by session `sid`. -/
def acknowledge (s : State) (n sid : Nat) : State × Status :=
  if 511 < n then (s, .outOfRange)
  else
    match tabFind? n s.flt.timers with
    | none => (s, .ok)
    | some _ =>
      (logInfo { s with flt := { s.flt with timers := tabDel n s.flt.timers } } n 0x0003 (BitVec.ofNat 192 sid), .ok)

/-- ACKNOWLEDGE_C2_SOURCE (R423). -/
def execAcknowledgeC2Source (n : BitVec 16) (sid : BitVec 32) (s : State) : Host.Outcome State Fault Refusal :=
  answered (acknowledge s n.toNat sid.toNat)

/-- ENTER_SAFE_STATE (R429): COMMAND on OD A050.01. -/
def execEnterSafeState (s : State) : Host.Outcome State Fault Refusal := answered (enterSafe s 0x0200, .ok)

/-- RESET_FJQ_9640 (R494): COMMAND on OD A050.02, a low pulse of 1 µs; no effect while a reset is in force. -/
def execResetFjq9640 (s : State) : Host.Outcome State Fault Refusal := .next (resetRecognised (emit s (.status .ok)))

/-- R426: clear one sticky bit, or all. -/
def clearSticky (s : State) (n : Nat) : State × Status :=
  if n = 0xFFFF then ({ s with flt := { s.flt with sticky := [] } }, .ok)
  else if n ≤ 511 then ({ s with flt := { s.flt with sticky := setRemove n s.flt.sticky } }, .ok)
  else (s, .outOfRange)

/-- CLEAR_STICKY_BIT (R426). -/
def execClearStickyBit (n : BitVec 16) (s : State) : Host.Outcome State Fault Refusal := answered (clearSticky s n.toNat)

/-- R426: clear the latch and the overflow bit. -/
def clearLatch (s : State) : State :=
  let prev := match s.flt.latch with | some l => l.1 | none => 0xFFFF
  logInfo { s with flt := { s.flt with latch := none, overflow := false } } 0xFFFF 0x0007 (BitVec.ofNat 192 prev)

/-- CLEAR_FIRST_ERROR_LATCH (R426). -/
def execClearFirstErrorLatch (s : State) : Host.Outcome State Fault Refusal := answered (clearLatch s, .ok)

/-! ### Injection (R428) -/

/-- The mode of an open session. -/
def sessionMode (s : State) (sid : Nat) : Option Mode :=
  (s.spr.sessions.find? fun x => decide (x.id = sid)).map fun x => x.mode

/-- R428: unlock from a session in mode AUTHENTICATED or ENCRYPTED. -/
def injectionUnlock (s : State) (sid : Nat) : State × Status :=
  match sessionMode s sid with
  | some .authenticated => ({ s with flt := { s.flt with unlocked := true } }, .ok)
  | some .encrypted => ({ s with flt := { s.flt with unlocked := true } }, .ok)
  | _ => (s, .notPermitted)

/-- INJECTION_UNLOCK (R428): COMMAND on OD A040.01, argument 1, by session `sid`. -/
def execInjectionUnlock (sid : BitVec 32) (s : State) : Host.Outcome State Fault Refusal :=
  answered (injectionUnlock s sid.toNat)

/-- R428: lock. -/
def injectionLock (s : State) : State := { s with flt := { s.flt with unlocked := false } }

/-- INJECTION_LOCK (R428): argument 0. -/
def execInjectionLock (s : State) : Host.Outcome State Fault Refusal := answered (injectionLock s, .ok)

/-- R428: COMMAND on OD A040.04 with mode `mode` on source `f`. -/
def injectFault (s : State) (mode f : Nat) : State × Status :=
  if !s.flt.unlocked then (s, .notPermitted)
  else if 511 < f then (s, .outOfRange)
  else if !injectable f then (s, .notPermitted)
  else if (mode = 1 ∨ mode = 2) ∧ checkInjectable f = false then (s, .notPermitted)
  else
    let s1 := bumpC (logInfo s f 0x0008 (BitVec.ofNat 192 (mode * 2 ^ 16 + f))) 0xC02D 6
    let flt := match mode with
      | 0 => { s1.flt with continuous := setRemove f s1.flt.continuous }
      | 1 => { s1.flt with oneShot := setInsert f s1.flt.oneShot }
      | 2 => { s1.flt with continuous := setInsert f s1.flt.continuous }
      | _ => { s1.flt with railDriven := setInsert f s1.flt.railDriven }
    ({ s1 with flt := flt }, .ok)

/-- INJECT_STOP (R428, mode 0). -/
def execInjectStop (f : BitVec 16) (s : State) : Host.Outcome State Fault Refusal := answered (injectFault s 0 f.toNat)
/-- INJECT_ONE_SHOT (R428, mode 1). -/
def execInjectOneShot (f : BitVec 16) (s : State) : Host.Outcome State Fault Refusal := answered (injectFault s 1 f.toNat)
/-- INJECT_CONTINUOUS (R428, mode 2). -/
def execInjectContinuous (f : BitVec 16) (s : State) : Host.Outcome State Fault Refusal := answered (injectFault s 2 f.toNat)
/-- INJECT_RAIL (R428, mode 3): the pair is driven 0b00 for 8 samples; its rail fault follows as `RAIL_FAULT`. -/
def execInjectRail (f : BitVec 16) (s : State) : Host.Outcome State Fault Refusal := answered (injectFault s 3 f.toNat)

/-! ### Configuration, self-error, snapshot, cullet commands -/

/-- R422: replace the source configuration whole, or refuse it whole. -/
def sourceConfig (s : State) (rs : List (BitVec 64)) : State × Status :=
  if rs.length = 512 ∧ rs.zipIdx.all (fun p => recordOk p.2 p.1) then
    let cfg := rs.zipIdx.foldl (fun t p => tabSet (defaultRecord p.2) p.2 (recMask p.1) t) []
    ({ s with flt := { s.flt with cfg := cfg } }, .ok)
  else (s, .outOfRange)

/-- SOURCE_CONFIGURATION_WRITE (R422). -/
def execSourceConfigurationWrite (rs : List (BitVec 64)) (s : State) : Host.Outcome State Fault Refusal :=
  answered (sourceConfig s rs)

/-- COLLECTOR_SELF_ERROR (R427): an uncorrectable error in the collector enters the safe state at once; F511 takes the
first-error latch if it is empty. -/
def execCollectorSelfError (s : State) : Host.Outcome State Fault Refusal :=
  let s1 := { s with flt := { s.flt with latch := if s.flt.latch.isSome then s.flt.latch else some (511, s.time.devTime, 0) } }
  .next (enterSafe s1 511)

/-- R435, R343: the crash snapshot on command. -/
def snapshotNow (s : State) : State × Status :=
  if holdupPasses s 262144 then
    ({ s with flt := { s.flt with crash := s.flt.log.drop (s.flt.log.length - 4096) } }, .ok)
  else (bumpC s 0xC02A 1, .holdupLow)

/-- WRITE_SNAPSHOT_NOW (R435). -/
def execWriteSnapshotNow (s : State) : Host.Outcome State Fault Refusal := answered (snapshotNow s)

/-- R438: withdraw a PENDING record. -/
def culletWithdraw (s : State) (n : Nat) : State × Status :=
  if 4095 < n then (s, .outOfRange)
  else
    match tabFind? n s.flt.cullet with
    | some r =>
      if r.state = .pending then
        (culletWrite { s with flt := { s.flt with cullet := tabPut n { r with state := .withdrawn, written := false } s.flt.cullet } } n, .ok)
      else (s, .wrongState)
    | none => (s, .wrongState)

/-- WITHDRAW_PENDING_RECORD (R438). -/
def execWithdrawPendingRecord (n : BitVec 16) (s : State) : Host.Outcome State Fault Refusal :=
  answered (culletWithdraw s n.toNat)

/-- R438: a PENDING slice record by command. -/
def retireSlice (s : State) (n : Nat) : State × Status :=
  if 33 < n then (s, .outOfRange)
  else if 2 ≤ sliceRetirements s then (s, .wrongState)
  else (culletMake s 3 2 (sliceLocation s n) .pending, .ok)

/-- RETIRE_PHYSICAL_SLICE (R438). -/
def execRetirePhysicalSlice (n : Byte) (s : State) : Host.Outcome State Fault Refusal :=
  answered (retireSlice s n.toNat)

/-- CULLET_WRITE_RETRY (R438): every 100 ms the writes that were refused for energy are tried again. -/
def execCulletWriteRetry (s : State) : Host.Outcome State Fault Refusal :=
  .next ((s.flt.cullet.filter fun p => !p.2.written && !s.flt.writing.contains p.1).foldl (fun t p => culletWrite t p.1) s)

/-- CULLET_RECORD_WRITE_DONE (R438): record `n` has been written to MRAM. -/
def execCulletRecordWriteDone (n : Fin 4096) (s : State) : Host.Outcome State Fault Refusal :=
  if s.flt.writing.contains n.val then
    let s1 := { s with flt := { s.flt with
      writing := setRemove n.val s.flt.writing
      cullet := s.flt.cullet.map fun p => if p.1 = n.val then (p.1, { p.2 with written := true }) else p } }
    .next (resetStep4 (logInfo s1 0xFFFF 0x0011 (BitVec.ofNat 192 n.val)))
  else .next s

end Sys2Proof.Machine
end

