-- ==== Sys2Proof/Machine/Extents.lean ====
section
/-!
DEFINITION. Machine/Extents.lean: HDM decoders and their pool windows (R93), and dynamic capacity (R97 to R99).
-/

namespace Sys2Proof.Machine

/-! ### HDM decoders (R93) -/

/-- R93: 256 MiB. -/
def hdmUnit : Nat := 2 ^ 28

/-- R93: a host's commit of decoder `i` of VCS `v` is in order: its base lies at or above the end of every lower-numbered
committed decoder. -/
def decoderOrder (s : State) (v i base : Nat) : Bool :=
  (List.range i).all fun j => let d := decoder s v j; !d.committed || decide (d.base + d.size ≤ base)

/-- R93: the commit succeeds. -/
def commitOk (s : State) (v i base size ways : Nat) : Bool :=
  decide (poolWindow s v i ≠ 0) && decide (size / 2 ^ ways ≤ poolWindow s v i) && decide (0 < size) &&
    decide (size % (2 ^ ways * hdmUnit) = 0) && decoderOrder s v i base

/-- R93: the host commits decoder `i`, or uncommits it (R96). A committed decoder keeps its registers. -/
def decoderCommit (s : State) (v i base size ways gran : Nat) (commit : Bool) : State :=
  let d := decoder s v i
  if odGet s (0x2200 + v) 1 = 0 then s
  else if !commit then setDecoder s v i { d with committed := false, error := false }
  else if d.committed then s
  else
    setDecoder s v i { base := base, size := size, ways := ways, gran := gran, committed := commitOk s v i base size ways
                       error := !commitOk s v i base size ways }

/-- HDM_DECODER_COMMIT (R93): base and size in units of 256 MiB, log2 of the ways (0..4), granularity 256 B shifted left by
`gran` (0..6). -/
def execHdmDecoderCommit (v : Fin 64) (i : Fin 32) (base size : BitVec 24) (ways : Fin 5) (gran : Fin 7) (commit : Bool)
    (s : State) : Host.Outcome State Fault Refusal :=
  .next (decoderCommit s v.val i.val (base.toNat * hdmUnit) (size.toNat * hdmUnit) ways.val (gran.val + 8) commit)

/-- R93: a write of the pool base (`len` false) or window length of a decoder. -/
def poolWindowWrite (s : State) (v i : Nat) (len : Bool) (x : Nat) : State × Status :=
  let idx := (if len then 0x2340 else 0x2300) + v
  if x % 2 ^ 21 ≠ 0 ∨ (len = false ∧ 2 ^ 58 ≤ x) then (s, .outOfRange)
  else if (decoder s v i).committed ∧ odGet s idx (i + 1) ≠ x then (s, .portActive)
  else (odSet s idx (i + 1) x, .ok)

/-- DECODER_POOL_WINDOW_WRITE (R93): a write of OD (2300 + v) or OD (2340 + v), subindex i + 1. -/
def execDecoderPoolWindowWrite (v : Fin 64) (i : Fin 32) (len : Bool) (x : BitVec 64) (s : State) :
    Host.Outcome State Fault Refusal :=
  answered (poolWindowWrite s v.val i.val len x.toNat)

/-! ### Extents (R97, R98) -/

/-- Change the extents of VCS `v`, with OD (2200 + v).05: those that are ACCEPTED or RELEASING. -/
def setExtents (s : State) (v : Nat) (l : List Extent) : State :=
  odSet { s with port := { s.port with ext := tabSet [] v l s.port.ext } } (0x2200 + v) 5
    (l.filter fun e => decide (e.state ≠ .offered)).length

/-- R97: base and length of a part of a region, in bytes. -/
def partBase (s : State) (v : Nat) (x : DcPart) : Nat := regionBase s v x.region.val + x.off * 2 ^ 21
def partLen (x : DcPart) : Nat := x.len * 2 ^ 21

/-- R97: the part lies within its region, and is not empty and meets no extent (DESIGN CHOICE, log entry 32). -/
def partFits (s : State) (v : Nat) (l : List Extent) (x : DcPart) : Bool :=
  decide (0 < x.len) && decide (x.off * 2 ^ 21 + partLen x ≤ regionLen s v x.region.val) &&
    l.all fun e => decide (e.base + e.len ≤ partBase s v x) || decide (partBase s v x + partLen x ≤ e.base)

/-- R97, R98: extents are offered one after another; none where one does not fit. -/
def offerAll (s : State) (v : Nat) : List DcPart → List Extent → Option (List Extent)
  | [], l => some l
  | x :: rest, l =>
    if partFits s v l x then
      offerAll s v rest (l ++ [{ region := x.region.val, base := partBase s v x, len := partLen x, state := .offered, forced := false, batch := 0 }])
    else none

/-- R97: Initiate Dynamic Capacity Add; one without a part is refused too (DESIGN CHOICE, log entry 32). -/
def dcAdd (s : State) (v : Nat) (xs : List DcPart) : State × FmRc :=
  let l := extents s v
  if odGet s (0x2200 + v) 4 < l.length + xs.length ∨ xs.isEmpty then (s, .invalidInput)
  else
    match offerAll s v xs l with
    | none => (s, .invalidInput)
    | some m => (emitAll (setExtents s v m) ((m.drop l.length).map fun e => .dcEvent v 0 e.base e.len), .success)

/-- INITIATE_DYNAMIC_CAPACITY_ADD (R97, R98). -/
def execInitiateDynamicCapacityAdd (v : Fin 64) (xs : List DcPart) (s : State) : Host.Outcome State Fault Refusal :=
  let r := dcAdd s v.val xs
  .next (emit r.1 (.fmapi r.2 []))

/-- R98: the host's response: of the extents OFFERED to it, those whose bases it lists become ACCEPTED; it has not
taken the others, which are dropped (DESIGN CHOICE, log entry 33). -/
def dcResponse (s : State) (v : Nat) (bases : List (BitVec 64)) : State :=
  let taken := fun (e : Extent) => bases.any fun b => decide (b.toNat = e.base)
  setExtents s v (((extents s v).filter fun e => decide (e.state ≠ .offered) || taken e).map fun e =>
    if e.state = .offered then { e with state := .accepted } else e)

/-- ADD_DC_RESPONSE (R98). -/
def execAddDcResponse (v : Fin 64) (bases : List (BitVec 64)) (s : State) : Host.Outcome State Fault Refusal :=
  .next (emit (dcResponse s v.val bases) (.endpoint v.val true))

/-! ### Release (R98, R99) -/

/-- R99 step 1, step 3: extent `e` of VCS `v` enters RELEASING; the home back-invalidates the lines of an extent that is local to
this switch. -/
def startRelease (s : State) (v : Nat) (e : Extent) (forced : Bool) : State :=
  let s1 := setExtents s v ((extents s v).map fun x => if x = e then { x with state := .releasing, forced := forced } else x)
  if e.base / 2 ^ 48 = ownSwitch s then
    addWalk s1 (some (v, e.base, e.len)) (e.base % 2 ^ 48) (e.base % 2 ^ 48 + e.len - 1)
  else s1

/-- The ACCEPTED extents of VCS `v` with the given bases; none where one is not there. -/
def acceptedAt (s : State) (v : Nat) : List Nat → Option (List Extent)
  | [] => some []
  | b :: rest =>
    match (extents s v).find? fun e => decide (e.state = .accepted) && decide (e.base = b), acceptedAt s v rest with
    | some e, some l => some (e :: l)
    | _, _ => none

/-- R98: the host releases extents. -/
def hostRelease (s : State) (v : Nat) (bases : List (BitVec 64)) : State :=
  match acceptedAt s v (bases.map fun b => b.toNat) with
  | none => emit s (.endpoint v false)
  | some l => emit (l.foldl (fun t e => startRelease t v e false) s) (.endpoint v true)

/-- RELEASE_DYNAMIC_CAPACITY (R98): of the host, of its own accord or accepting a request of the fabric manager. -/
def execReleaseDynamicCapacity (v : Fin 64) (bases : List (BitVec 64)) (s : State) : Host.Outcome State Fault Refusal :=
  .next (hostRelease s v.val bases)

/-- R98, R101: the fabric manager asks for a release, or forces it; either goes on in the background. -/
def fmRelease (s : State) (v : Nat) (bases : List Nat) (forced : Bool) : State × FmRc :=
  match acceptedAt s v bases with
  | none => (s, .invalidInput)
  | some [] => (s, .invalidInput)
  | some l =>
    let batch := 1 + bases.getLast?.getD 0
    let mark := fun (e : Extent) => { e with batch := batch }
    let s0 := setExtents s v ((extents s v).map fun x => if l.contains x then mark x else x)
    let s1 := bgStart s0 0x5605 (v * 2 ^ 64 + (batch - 1))
    if forced then
      (l.foldl (fun t e => emit (startRelease t v (mark e) true) (.dcEvent v 2 e.base e.len)) s1, .started)
    else (emitAll s1 (l.map fun e => .dcEvent v 1 e.base e.len), .started)

/-- INITIATE_DYNAMIC_CAPACITY_RELEASE (R98, R99). -/
def execInitiateDynamicCapacityRelease (v : Fin 64) (bases : List (BitVec 64)) (forced : Bool) (s : State) :
    Host.Outcome State Fault Refusal :=
  let r := fmRelease s v.val (bases.map fun b => b.toNat) forced
  .next (emit r.1 (.fmapi r.2 []))

/-- R99 step 2: no request of VCS `v` that was decoded into an extent is outstanding. -/
def extentQuiet (s : State) (v : Nat) (e : Extent) : Bool :=
  let x := proxy s v
  let hit := fun (p : Option (Nat × BitVec 42)) =>
    match p with
    | some (h, l) => decide (e.base ≤ poolAddr h l) && decide (poolAddr h l < e.base + e.len)
    | none => false
  !(x.reqs.any fun r => hit r.pool) && !(x.wrs.any fun r => hit r.pool) && !(x.evs.any fun r => hit r.pool)

/-- R99 step 3: the walk of an extent is over. -/
def extentWalked (s : State) (v : Nat) (e : Extent) : Bool :=
  s.dir.walks.all fun w => decide (w.extent ≠ some (v, e.base, e.len)) || walkOver s w

/-- R99 step 4, R101: the extent of VCS `v` at `base` is removed, and the fabric manager notified; the release it belongs to is done with
the last of its extents. -/
def extentRemoved (s : State) (v base : Nat) : State :=
  match (extents s v).find? fun e => decide (e.state = .releasing) && decide (e.base = base) with
  | none => s
  | some e =>
    if extentQuiet s v e && extentWalked s v e then
      let s1 := setExtents s v ((extents s v).filter fun x => decide (x ≠ e))
      let s2 := { s1 with dir := { s1.dir with walks := s1.dir.walks.filter fun w => decide (w.extent ≠ some (v, e.base, e.len)) } }
      let last := !((extents s2 v).any fun x => decide (x.batch = e.batch))
      notify (if last then bgDone s2 0x5605 (v * 2 ^ 64 + (e.batch - 1)) else s2) (0x2200 + v) 5 (odGet s2 (0x2200 + v) 5) (BitVec.ofNat 64 base)
    else s

/-- EXTENT_REMOVED (R99). -/
def execExtentRemoved (v : Fin 64) (base : BitVec 64) (s : State) : Host.Outcome State Fault Refusal :=
  .next (extentRemoved s v.val base.toNat)

end Sys2Proof.Machine
end

