-- ==== Sys2Proof/Machine/FmApi.lean ====
section
/-!
DEFINITION. Machine/FmApi.lean: the FM-API subset (R100, R101) beyond binding and dynamic capacity. An answer is `Out.fmapi`
with the fields as numbers, in the order that each command gives.
-/

namespace Sys2Proof.Machine

/-- The answer to an FM-API command. -/
def fmAnswer (s : State) (rc : FmRc) (vals : List Nat) : Host.Outcome State Fault Refusal := .next (emit s (.fmapi rc vals))

/-! ### Information and status -/

/-- IDENTIFY (R100): PCI vendor ID (OD 1000.07), hardware revision, and the characters of the serial number. -/
def execIdentify (s : State) : Host.Outcome State Fault Refusal :=
  fmAnswer s .success
    ([odGet s 0x1000 7, Config.hardwareRevision.toNat] ++ (List.range 32).map fun i => (Config.serial (Fin.ofNat 32 i)).toNat)

/-- BACKGROUND_OPERATION_STATUS (R101): opcode, what it acts on, and 0 done or 1 running, of the operations from the last on. -/
def execBackgroundOperationStatus (s : State) : Host.Outcome State Fault Refusal :=
  fmAnswer s .success (s.port.bgOps.flatMap fun q => [q.1, q.2.1, q.2.2])

/-- GET_RESPONSE_MESSAGE_LIMIT (R100): log2 of the limit in bytes. -/
def execGetResponseMessageLimit (s : State) : Host.Outcome State Fault Refusal := fmAnswer s .success [s.port.respLimit]

/-- R100: how many items of `item` bytes an answer with `head` bytes before them may carry (PRESUMED: the sizes of the CXL
Specification's response payloads, log entry 34). -/
def respItems (s : State) (head item : Nat) : Nat := (2 ^ s.port.respLimit - head) / item

/-- SET_RESPONSE_MESSAGE_LIMIT (R100): `n` is log2 of the limit, 256 bytes to 1 MiB (DESIGN CHOICE, log entry 34). -/
def execSetResponseMessageLimit (n : Byte) (s : State) : Host.Outcome State Fault Refusal :=
  if 8 ≤ n.toNat ∧ n.toNat ≤ 20 then
    fmAnswer { s with port := { s.port with respLimit := n.toNat } } .success [n.toNat]
  else fmAnswer s .invalidInput []

/-! ### Physical switch -/

/-- IDENTIFY_SWITCH_DEVICE (R100): ports, VCSs, a mask of the ports in L0, a mask of the VCSs ACTIVE, vPPBs in all, vPPBs not
UNBOUND, HDM decoders of each pool endpoint. -/
def execIdentifySwitchDevice (s : State) : Host.Outcome State Fault Refusal :=
  let mask := fun (n : Nat) (f : Nat → Bool) => (List.range n).foldl (fun m i => if f i then m + 2 ^ i else m) 0
  fmAnswer s .success
    [96, 64, mask 96 (portUp s), mask 64 fun v => decide (odGet s (0x2200 + v) 3 = 2), 64 * 32,
     (s.port.binds.filter fun b => decide (b.2.state ≠ .unbound)).length, 32]

/-- What the FM-API reports of a physical port: its number and OD (2100 + p).01, .10 to .17. -/
def portState (s : State) (p : Nat) : List Nat :=
  [p, role s p] ++ (List.range 8).map fun i => odGet s (portIdx p) (0x10 + i)

/-- GET_PHYSICAL_PORT_STATE (R100): the ports that the response limit leaves room for. -/
def execGetPhysicalPortState (ps : List (Fin 96)) (s : State) : Host.Outcome State Fault Refusal :=
  fmAnswer s .success ((ps.take (respItems s 16 16)).flatMap fun p => portState s p.val)

/-- R100, R107: Physical Port Control on a POOL or bindable port: 0 asserts PERST_N, 1 deasserts it by the sequence of R107,
2 resets the port as a hot reset. -/
def portControl (s : State) (p op : Nat) : State × FmRc :=
  if commandRefused s p then (s, .invalidInput)
  else
    match op with
    | 0 =>
      let s1 := linkFalls (perstDrive s p) p
      ({ s1 with port := { s1.port with perstWait := setRemove p s1.port.perstWait } }, .success)
    | 1 => (if s.pins.perstLow.contains p then trainPort s p else s, .success)
    | _ => ((portHotReset s p).1, .success)

/-- PHYSICAL_PORT_CONTROL (R100). -/
def execPhysicalPortControl (p : Fin 96) (op : Fin 3) (s : State) : Host.Outcome State Fault Refusal :=
  let r := portControl s p.val op.val
  fmAnswer r.1 r.2 []

/-- The key of configuration register `reg` (in double words) of space `sp`: 0..95 the PPB of a physical port, 128 + v * 64 +
d the vPPB `d` of VCS `v` (`d` = 32 its upstream port, 33 its pool endpoint), 8192 + n function `n`. -/
def cfgKey (sp reg : Nat) : Nat := sp * 1024 + reg

/-- A register of a configuration space. -/
def cfgReg (s : State) (sp reg : Nat) : Nat := tabGet 0 (cfgKey sp reg) s.port.cfgRegs

/-- Write a register of a configuration space. -/
def cfgRegSet (s : State) (sp reg v : Nat) : State :=
  { s with port := { s.port with cfgRegs := tabPut (cfgKey sp reg) (v % 2 ^ 32) s.port.cfgRegs } }

/-- A register with a capability that the manual names and gives no place. -/
def capReg (i : Fin 11) : Nat := (Config.capRegister i).val

/-- Four bytes of a register to which the manual gives no content (R377's free bytes). -/
def openBytes (s : State) (a n : Nat) : State × List Byte :=
  (drawn s, (List.range n).map fun i => Config.deviceByte (a + i) s.fresh)

/-- Bits of a register that the manual fixes: a mask and what stands there. -/
structure Shown where
  mask : Nat
  value : Nat
  deriving DecidableEq, Repr

/-- R91: Device Capabilities stand before Device Control: Max_Payload_Size Supported of 512 bytes, code 2 in [2..0]. -/
def shownMps (reg : Nat) : Shown := if reg + 1 = capReg 0 then ⟨7, 2⟩ else ⟨0, 0⟩

/-- R81: the Lane Margining register of lane `reg - capReg 6` of port `p`: the errors that the sampler has counted, in [21..16]. -/
def shownMargin (s : State) (p reg : Nat) : Shown :=
  if capReg 6 ≤ reg ∧ reg < capReg 6 + 16 then
    ⟨63 * 2 ^ 16, (tabGet (0, 0, 0) (p * 16 + (reg - capReg 6)) s.port.margin).2.2 % 64 * 2 ^ 16⟩
  else ⟨0, 0⟩

/-- What is read of a register: what was last written, or the vendor ID in register 0 (OD 1000.07) over open bits, with the bits that
the manual fixes. -/
def cfgReadWith (s : State) (sp reg : Nat) (x : Shown) : State × List Byte :=
  let shown := fun (v : Nat) => leBytes 4 ((v &&& (2 ^ 32 - 1 - x.mask)) ||| x.value)
  match tabFind? (cfgKey sp reg) s.port.cfgRegs with
  | some v => (s, shown v)
  | none =>
    let r := openBytes s (cfgKey sp reg * 4) 4
    (r.1, if reg = 0 then leBytes 2 (odGet s 0x1000 7) ++ r.2.drop 2 else shown (leValue r.2))

/-- A register of the PPB of physical port `p`. -/
def ppbRead (s : State) (p reg : Nat) : State × List Byte :=
  let x := shownMps reg
  cfgReadWith s p reg (if x.mask = 0 then shownMargin s p reg else x)

/-- SEND_PPB_CXLIO_CONFIG_REQUEST (R100, R81): a read or write of a register of the PPB of physical port `p`. -/
def execSendPpbCxlioConfigRequest (p : Fin 96) (reg : Fin 1024) (w : Option (BitVec 32)) (s : State) :
    Host.Outcome State Fault Refusal :=
  match w with
  | some v => fmAnswer (cfgRegSet s p.val reg.val v.toNat) .success []
  | none => let r := ppbRead s p.val reg.val; fmAnswer r.1 .success [leValue r.2]

/-! ### Virtual switch -/

/-- GET_VIRTUAL_CXL_SWITCH_INFO (R100): number, state, upstream port (0xFF none), number of vPPBs, then OD (2400 + v).03 to .20, as
many as the response limit leaves room for. -/
def execGetVirtualCxlSwitchInfo (v : Fin 64) (s : State) : Host.Outcome State Fault Refusal :=
  fmAnswer s .success ([v.val, odGet s (0x2200 + v.val) 3, ((upstreamPort s v.val).filter fun p => decide (vcsOfPort s p = some v.val)).getD 0xFF, 32] ++
    (List.range (min 30 (respItems s 16 4))).map fun i => (vppb s v.val (i + 2)).shown)

/-- GENERATE_AER_EVENT (R100): `err` is logged in the AER capability of vPPB `d` of VCS `v`, which must be bound. -/
def execGenerateAerEvent (v : Fin 64) (d : Fin 32) (err : BitVec 32) (s : State) : Host.Outcome State Fault Refusal :=
  let x := vppb s v.val d.val
  if x.state = .bound then fmAnswer (setVppb s v.val d.val { x with aer := { x.aer with injected := err.toNat } }) .success []
  else fmAnswer s .invalidInput []

/-! ### MLD port -/

/-- R83: port `p` is in L0 with a multi-logical device. -/
def mldPort (s : State) (p : Nat) : Bool := portUp s p && decide (role s p = 2) && decide (odGet s (portIdx p) 0x14 = 4)

/-- TUNNEL_MANAGEMENT_COMMAND (R100): it reaches the FM-owned LD of an MLD of which no LD is assigned to a host. The answer carries
the device's, whose content the spec does not give: a free value, as one number (log entry 35). -/
def execTunnelManagementCommand (p : Fin 96) (bytes : List Byte) (s : State) : Host.Outcome State Fault Refusal :=
  if mldPort s p.val && (bindsOf s p.val).isEmpty then fmAnswer (drawn (emit s (.tunnel p.val bytes))) .success [(freshVal s).toNat]
  else fmAnswer s .invalidInput []

/-- The packet of a request of the FM-API for LD `ld`. -/
def fmTlp (cfg : Bool) (tag : BitVec 14) (ld : Nat) (a : FmAccess) : Tlp :=
  let k : TlpKind :=
    match a with
    | .read _ _ => if cfg then .cfgRead else .memRead
    | .write _ _ => if cfg then .cfgWrite else .memWrite
  let reg := match a with | .read r _ => r | .write r _ => r
  let data := match a with | .read _ _ => [] | .write _ d => d
  let n := match a with | .read _ n => n | .write _ d => d.length
  { kind := k, ld := ld, requester := 0, tag := tag, addr := reg, id := 0, byId := cfg, len := n, hdr := 16, status := 0
    poison := false, data := data }

/-- R100: a request goes to LD `ld` of MLD port `p`. One that is answered waits for its completion (`fromPort` 97), which
carries the answer to the fabric manager. -/
def fmSend (s : State) (cfg : Bool) (p ld : Nat) (a : FmAccess) : State :=
  let tag := (List.range 4096).find? fun t => !(s.port.np.any fun n => decide (n.fromPort = 97) && decide (n.tag.toNat = t))
  if mldPort s p && decide (ld < odGet s (portIdx p) 0x15) then
    match tag with
    | none => emit s (.fmapi .busy [])
    | some t =>
      let x := fmTlp cfg (BitVec.ofNat 14 t) ld a
      let s1 := hostSend s p (tlpType x.kind).1 (.tlp x)
      if x.kind = .memWrite then emit s1 (.fmapi .success [])
      else
        { s1 with port := { s1.port with np := s1.port.np ++
          [{ vcs := 64, fromPort := 97, toPort := p, ld := ld, tag := BitVec.ofNat 16 t, tlp := x, sent := true, refused := false, got := 0 }] } }
  else emit s (.fmapi .invalidInput [])

/-- SEND_LD_CXLIO_CONFIG_REQUEST (R100). -/
def execSendLdCxlioConfigRequest (p : Fin 96) (ld : Fin 16) (a : FmAccess) (s : State) : Host.Outcome State Fault Refusal :=
  .next (fmSend s true p.val ld.val a)

/-- SEND_LD_CXLIO_MEMORY_REQUEST (R100). -/
def execSendLdCxlioMemoryRequest (p : Fin 96) (ld : Fin 16) (a : FmAccess) (s : State) : Host.Outcome State Fault Refusal :=
  .next (fmSend s false p.val ld.val a)

/-! ### DCD management -/

/-- GET_DCD_INFO (R97, R100): hosts, regions of each, block size in bytes, and the extents that the endpoints may hold. -/
def execGetDcdInfo (s : State) : Host.Outcome State Fault Refusal := fmAnswer s .success [64, 8, 2 ^ 21, 4096]

/-- GET_HOST_DC_REGION_CONFIGURATION (R100): base and length of the eight regions of VCS `v`. -/
def execGetHostDcRegionConfiguration (v : Fin 64) (s : State) : Host.Outcome State Fault Refusal :=
  fmAnswer s .success ((List.range 8).flatMap fun r => [regionBase s v.val r, regionLen s v.val r])

/-- R100: the values of OD 2500 and OD 2540. -/
def regionConfig (s : State) (v r base len : Nat) : State × FmRc :=
  if base % 2 ^ 21 ≠ 0 ∨ 2 ^ 58 ≤ base ∨ len % 2 ^ 21 ≠ 0 then (s, .invalidInput)
  else (odSet (odSet s (0x2500 + v) (r + 1) base) (0x2540 + v) (r + 1) len, .success)

/-- SET_DC_REGION_CONFIGURATION (R100). -/
def execSetDcRegionConfiguration (v : Fin 64) (r : Fin 8) (base len : BitVec 64) (s : State) : Host.Outcome State Fault Refusal :=
  let x := regionConfig s v.val r.val base.toNat len.toNat
  fmAnswer x.1 x.2 []

/-- R98: the code of an extent's state. -/
def ExtState.code : ExtState → Nat
  | .offered => 0 | .accepted => 1 | .releasing => 2

/-- GET_DC_REGION_EXTENT_LISTS (R100): from extent `from_` on, `n` extents of VCS `v`: the number there are, then region, base,
length and state of each, as many as the response limit leaves room for. -/
def execGetDcRegionExtentLists (v : Fin 64) (from_ n : BitVec 16) (s : State) : Host.Outcome State Fault Refusal :=
  let l := extents s v.val
  fmAnswer s .success (l.length :: (((l.drop from_.toNat).take (min n.toNat (respItems s 20 40))).flatMap fun e => [e.region, e.base, e.len, e.state.code]))

/-- FMAPI_UNSUPPORTED (R100): any other FM-API command. -/
def execFmapiUnsupported (opcode : BitVec 16) (s : State) : Host.Outcome State Fault Refusal :=
  fmAnswer s .unsupported [opcode.toNat]

end Sys2Proof.Machine
end

