-- ==== Sys2Proof/Machine/Guard.lean ====
section
/-!
DEFINITION. Machine/Guard.lean: the dovetail swap of the guard sets (R236, R237).
-/

namespace Sys2Proof.Machine

/-- R237: the rules of the shadow set and its default action. -/
def shadowRule (s : State) (i : Nat) : GuardRule := tabGet 0 i s.map.guardShadow

/-- R236: write a rule of the shadow set; reserved bits stay zero. -/
def setShadowRule (s : State) (i : Nat) (r : GuardRule) : State :=
  { s with map := { s.map with guardShadow := tabSet 0 i (ruleMask r) s.map.guardShadow } }

/-- R236: the sets are being swapped. -/
def guardSwapping (s : State) : Bool := decide (odGet s 0x5030 2 = 1)

/-- R236 step 1: a valid rule whose Limit block lies below its Base block. -/
def ruleInvalid (r : GuardRule) : Bool := ruleValid r && decide (ruleLimit r < ruleBase r)

/-- R236: the commit of the shadow set. -/
def guardCommit (s : State) : State × Status :=
  if guardSwapping s then (s, .busy)
  else if s.map.guardShadow.any fun p => ruleInvalid p.2 then (odSet s 0x5030 2 3, .ruleInvalid)
  else (odSet { s with map := { s.map with swapped := [] } } 0x5030 2 1, .ok)

/-- GUARD_COMMIT (R236): COMMAND on OD 5030.01. -/
def execGuardCommit (s : State) : Host.Outcome State Fault Refusal := answered (guardCommit s)

/-- R236 step 4, R237: every stage reports the target epoch: the sets exchange roles, and the first refusal under the new set
is reported again (R234). -/
def guardComplete (s : State) : State :=
  let act := odGet s 0x5030 6
  let s1 := { s with map := { s.map with
    guardActive := s.map.guardShadow, guardShadow := s.map.guardActive, shadowDefault := act, swapped := []
    refusalRaised := false } }
  let s2 := odSet (odSet s1 0x5030 6 s.map.shadowDefault) 0x5030 3 ((odGet s 0x5030 3 + 1) % 2 ^ 32)
  notify (bumpC (odSet s2 0x5030 2 2) 0xC025 0x0A) 0x5030 2 2 0

/-- R236 step 3: stage `g` swaps between two requests. -/
def guardSwap (s : State) (g : Nat) : State :=
  if guardSwapping s && !s.map.swapped.contains g then
    let s1 := { s with map := { s.map with swapped := setInsert g s.map.swapped } }
    let s2 := odSet s1 0x5033 (g + 1) ((odGet s 0x5030 3 + 1) % 2 ^ 32)
    if s2.map.swapped.length = 17 then guardComplete s2 else s2
  else s

/-- GUARD_STAGE_SWAP (R236): stages 0 to 15 are those of the port islands, 16 that of the mover. -/
def execGuardStageSwap (g : Fin 17) (s : State) : Host.Outcome State Fault Refusal := .next (guardSwap s g.val)

/-- R237: the active set is copied to the shadow. -/
def guardCopy (s : State) : State × Status :=
  if guardSwapping s then (s, .busy)
  else ({ s with map := { s.map with guardShadow := s.map.guardActive, shadowDefault := odGet s 0x5030 6 } }, .ok)

/-- COPY_ACTIVE_SET_TO_SHADOW (R237): COMMAND on OD 5030.04. -/
def execCopyActiveSetToShadow (s : State) : Host.Outcome State Fault Refusal := answered (guardCopy s)

end Sys2Proof.Machine
end

