-- ==== Sys2Proof/Machine/Perf.lean ====
section
/-!
DEFINITION. Machine/Perf.lean: chapter 16: counters and their snapshot, samplers, device time and its discipline, and the
timestamp inputs (R471 to R483).
-/

namespace Sys2Proof.Machine

/-! ### Snapshot (R472) -/

/-- R472: all device-wide counters copied in one cycle. -/
def takeSnapshot (s : State) : State :=
  odSet { s with perf := { s.perf with snapshot := s.perf.cnt, snapNo := s.perf.snapNo + 1 } } 0xC030 5 s.time.devTime.toNat

/-- TAKE_SNAPSHOT (R472): COMMAND on OD C030.04. -/
def execTakeSnapshot (s : State) : Host.Outcome State Fault Refusal := answered (takeSnapshot s, .ok)

/-! ### Samplers (R475, R477, R478) -/

/-- R477: the value of the counter that device sampler `k` watches. -/
def samplerCounter (s : State) (k : Nat) : Counter :=
  let sel := odGet s (0xC040 + k) 3
  match odGet s (0xC040 + k) 2 with
  | 0 => counter s (bits sel 10 0)
  | 1 => tabGet 0 (bits sel 14 8 * 128 + bits sel 6 0) s.perf.vcs
  | _ => tabGet 0 (bits sel 26 16 * 32 + bits sel 4 0) s.perf.sets

/-- R477: (C040 + k).01 is written; writing 1 sets the threshold to the counter's value plus the period. -/
def samplerEnable (s : State) (k : Nat) (on : Bool) : State :=
  let s1 := odSet s (0xC040 + k) 1 (if on then 1 else 0)
  if on then odSet s1 (0xC040 + k) 6 ((samplerCounter s k + BitVec.ofNat 48 (odGet s (0xC040 + k) 4)).toNat) else s1

/-- SAMPLER_ENABLE (R477). -/
def execSamplerEnable (k : Fin 8) (on : Bool) (s : State) : Host.Outcome State Fault Refusal :=
  answered (samplerEnable s k on, .ok)

/-- The sampler of VCS `v`'s host. -/
def hostSampler (s : State) (v : Nat) : HostSampler := tabGet hostSamplerReset v s.perf.host

/-- R475: the period of a host sampler. -/
def HostSampler.period (h : HostSampler) : Nat := h.periodHigh * 2 ^ 32 + h.periodLow

/-- HOST_SAMPLER_ENABLE (R475, R477): the host writes its DVSEC registers; Sampler enable 1 with a period outside 1,024 to
2^47 leaves the sampler disabled. -/
def execHostSamplerEnable (v : Fin 64) (on : Bool) (vector event : Fin 128) (periodLow : BitVec 32) (periodHigh : BitVec 16)
    (s : State) : Host.Outcome State Fault Refusal :=
  let p := periodHigh.toNat * 2 ^ 32 + periodLow.toNat
  let good := decide (1024 ≤ p) && decide (p ≤ 2 ^ 47)
  let c := tabGet 0 (v.val * 128 + event.val) s.perf.vcs
  let h : HostSampler :=
    { enable := on && good, vector := vector, event := event, periodLow := periodLow.toNat, periodHigh := periodHigh.toNat
      threshold := if on && good then (c + BitVec.ofNat 48 p).toNat else (hostSampler s v).threshold }
  .next { s with perf := { s.perf with host := tabSet hostSamplerReset v.val h s.perf.host } }

/-- R478: what a sampler with threshold `t` captures of a counter at `c`, if the counter has reached the threshold: at most
64 beyond it. -/
def captured (t c : Counter) : Option Counter :=
  let d := (c - t).toNat
  if d < 2 ^ 47 then some (t + BitVec.ofNat 48 (min d 64)) else none

/-- R477, R478: the header of the unit whose event was counted at capture, zero for an event without a unit. The model keeps no unit
with a count: a free value (log entry 45). -/
def sampledHeader (s : State) : BitVec 128 := Config.freeValue s.fresh ++ Config.freeValue (s.fresh + 1)

/-- R477, R478: device sampler `k` fires. -/
def samplerFire (s : State) (k : Nat) : State :=
  let t := BitVec.ofNat 48 (odGet s (0xC040 + k) 6)
  match captured t (samplerCounter s k) with
  | none => s
  | some c =>
    let skid := decide (c ≠ t)
    let act := odGet s (0xC040 + k) 5
    let s1 := odSet s (0xC040 + k) 6 ((t + BitVec.ofNat 48 (odGet s (0xC040 + k) 4)).toNat)
    let s2 := bumpCBy (bumpC s1 0xC02F 1) 0xC02F 2 (if skid then 1 else 0)
    let s3 := if bits act 0 0 = 1 then emit (coresInterrupted s2) (.samplerInterrupt k) else s2
    let s4 := if bits act 1 1 = 1 then
        notify s3 (0xC040 + k) 6 (odGet s3 (0xC040 + k) 6) (BitVec.ofNat 64 (c.toNat + (if skid then 2 ^ 63 else 0)))
      else s3
    if bits act 2 2 = 1 then
      let v := if odGet s (0xC040 + k) 2 = 1 then bits (odGet s (0xC040 + k) 3) 14 8 else 0xFF
      match traceSpecial (drawn (drawn s4)) 0x10 c.toNat v skid (sampledHeader s4) with
      | (s5, some seq) => odSet s5 (0xC040 + k) 7 seq
      | (s5, none) => s5
    else s4

/-- R477, R478: the host sampler of VCS `v` fires. -/
def hostSamplerFire (s : State) (v : Nat) : State :=
  let h := hostSampler s v
  let t := BitVec.ofNat 48 h.threshold
  match captured t (tabGet 0 (v * 128 + h.event) s.perf.vcs) with
  | none => s
  | some c =>
    let skid := decide (c ≠ t)
    let h' := { h with threshold := (t + BitVec.ofNat 48 h.period).toNat }
    let s1 := { s with perf := { s.perf with host := tabSet hostSamplerReset v h' s.perf.host } }
    let s2 := bumpCBy (bumpC s1 0xC02F 1) 0xC02F 2 (if skid then 1 else 0)
    (traceSpecial (emit (drawn (drawn s2)) (.msixPool v h.vector)) 0x10 c.toNat v skid (sampledHeader s2)).1

/-- SAMPLER_FIRE (R477, R478): a sampler's counter reaches its threshold: samplers 0..7 the device's, 8 + v the host's. -/
def execSamplerFire (k : Fin 72) (s : State) : Host.Outcome State Fault Refusal :=
  if k.val < 8 then
    if odGet s (0xC040 + k.val) 1 = 1 then .next (samplerFire s k) else .next s
  else if (hostSampler s (k.val - 8)).enable then .next (hostSamplerFire s (k.val - 8)) else .next s

/-! ### Device time (R479, R480) -/

/-- R480: step the device time by `d` ns. -/
def timeStep (s : State) (d : Int) : State :=
  bumpC { s with time := { s.time with devTime := s.time.devTime + BitVec.ofInt 64 d, slewLeft := 0 } } 0xC02F 7

/-- R480: an offset of network time from device time, ns, is measured on the time port. -/
def timeOffset (s : State) (off : Int) (gm : BitVec 64) : State :=
  let s1 := odSet { s with time := { s.time with grandmaster := gm, lossReported := false } } 0xC050 7 (BitVec.ofInt 64 off).toNat
  let s2 := odSet s1 0xC050 6 1
  if odGet s 0xC050 6 = 0 then timeStep s2 off
  else if off.natAbs ≤ odGet s 0xC050 4 then { s2 with time := { s2.time with slewLeft := off } }
  else notify (timeStep s2 off) 0xC050 7 (odGet s2 0xC050 7) 0

/-- TIME_OFFSET_MEASURED (R479, R480). No frame is taken while no time port is selected. -/
def execTimeOffsetMeasured (off : Int) (gm : BitVec 64) (s : State) : Host.Outcome State Fault Refusal :=
  if odGet s 0xC050 1 = 0xFF then .next s else .next (timeOffset s off gm)

/-- R480: LOCKED to HOLDOVER, the last frequency correction held. -/
def toHoldover (s : State) : State :=
  if odGet s 0xC050 6 = 1 then
    let s1 := odSet s 0xC050 6 2
    { s1 with time := { s1.time with lossReported := false } }
  else s

/-- SYNC_TIMEOUT (R480): no Sync for 3 s. -/
def execSyncTimeout (s : State) : Host.Outcome State Fault Refusal := .next (toHoldover s)

/-- HOLDOVER_LIMIT (R480): the holdover limit passes; F452 is reported once, with cause 1. -/
def execHoldoverLimit (s : State) : Host.Outcome State Fault Refusal :=
  if odGet s 0xC050 6 = 2 ∧ s.time.lossReported = false then
    let port := odGet s 0xC050 1
    let d := (port % 4) * 2 ^ 40 + odGet s 0xC050 7 % 2 ^ 32
    let s1 := raiseFault s 452 1 d
    .next (bumpC { s1 with time := { s1.time with lossReported := true } } 0xC02F 8)
  else .next s

/-- R479, R480: one nanosecond passes: device time advances, slewed by at most 100 ppm, that is 1 ns in each 10,000. -/
def tick (s : State) : State :=
  let t := s.time
  let dir : Int := if t.slewLeft > 0 then 1 else if t.slewLeft < 0 then -1 else 0
  let locked := decide (odGet s 0xC050 6 = 1)
  let now := decide (t.clock % 10000 = 9999)
  let step : Int := if now then (if locked then dir else if t.correction > 0 then 1 else if t.correction < 0 then -1 else 0) else 0
  { s with time :=
    { t with clock := t.clock + 1, devTime := t.devTime + 1 + BitVec.ofInt 64 step
             slewLeft := if now && locked then t.slewLeft - dir else t.slewLeft
             correction := if locked then 100 * dir else t.correction } }

/-! ### Timestamp inputs (R481, R482) -/

/-- Input `i` as it stands. -/
def tsi (s : State) (i : Nat) : TsiState := tabGet tsiReset i s.perf.tsi

/-- Change input `i`. -/
def setTsi (s : State) (i : Nat) (t : TsiState) : State :=
  { s with perf := { s.perf with tsi := tabSet tsiReset i t s.perf.tsi } }

/-- R481: the edges that (C060 + i).02 selects. -/
def edgeSelected (sel : Nat) (rising : Bool) : Bool :=
  match sel with
  | 1 => rising
  | 2 => !rising
  | _ => true

/-- R481: capture an edge into the input's queue; a full queue loses the record. -/
def captureEdge (s : State) (i : Nat) (rising : Bool) : State :=
  let t := tsi s i
  let s1 := bump (bumpC s 0xC02F 3) (1472 + i) 1
  let n := t.edges + 1
  if 64 ≤ t.queue.length then
    bump (bumpC (setTsi s1 i { t with edges := n, lost := true }) 0xC02F 4) (1488 + i) 1
  else
    let r : EdgeRec :=
      { time := s.time.devTime, count := BitVec.ofNat 32 n, lostBefore := t.lost, undisciplined := undisciplined s,
        rising := rising }
    setTsi s1 i { queue := t.queue ++ [r], edges := n, lost := false }

/-- R482: the captured edge rings its target function's doorbell. -/
def inputDoorbell (s : State) (i : Nat) : State :=
  let f := odGet s (0xC060 + i) 4
  if f = 0xFFFF then s
  else
    match ringDoorbell s f (odGet s (0xC060 + i) 5) with
    | (s1, true) => bump (bumpC s1 0xC02F 5) (1496 + i) 1
    | (s1, false) => bumpC s1 0xC02F 6

/-- TSI_EDGE (R481, R482): a level change on input `i` has persisted for the filter width. -/
def execTsiEdge (i : Fin 8) (rising : Bool) (s : State) : Host.Outcome State Fault Refusal :=
  if odGet s (0xC060 + i.val) 1 = 1 ∧ edgeSelected (odGet s (0xC060 + i.val) 2) rising then
    .next (inputDoorbell (traceSpecial (captureEdge s i rising) 0x11 i.val 0xFF false 0).1 i)
  else .next s

/-- TSI_PULSE_FILTERED (R481): a pulse of `width` ns, shorter than the filter width. -/
def execTsiPulseFiltered (i : Fin 8) (width : Nat) (s : State) : Host.Outcome State Fault Refusal :=
  if odGet s (0xC060 + i.val) 1 = 1 ∧ width < odGet s (0xC060 + i.val) 3 then .next (bump s (1480 + i.val) 1) else .next s

/-- R481: the 16 bytes of a capture record. -/
def EdgeRec.bits (r : EdgeRec) : Nat :=
  r.time.toNat * 2 ^ 64 + r.count.toNat * 2 ^ 32 + (if r.lostBefore then 8 else 0) + (if r.undisciplined then 4 else 0) +
    (if r.rising then 1 else 2)

/-- R481, R405: take up to `n` records off the queue of input `i`, with their bytes. -/
def captureRead (s : State) (i n : Nat) : State × List Byte :=
  let t := tsi s i
  (setTsi s i { t with queue := t.queue.drop n }, (t.queue.take n).flatMap fun r => leBytes 16 r.bits)

/-- CAPTURE_QUEUE_READ (R481): records are read and consumed through OD (C060 + i).07. -/
def execCaptureQueueRead (i : Fin 8) (n : Nat) (s : State) : Host.Outcome State Fault Refusal :=
  let r := captureRead s i n
  .next (emit r.1 (.domainData .ok r.2))

end Sys2Proof.Machine
end

