-- ==== Sys2Proof/Machine/CfgSpace.lean ====
section
/-!
DEFINITION. Machine/CfgSpace.lean: configuration spaces and BARs that the part serves itself: the upstream ports, the vPPBs, the
pool endpoints (R86, R87, R475) and the mover functions (R275, R276, R320, R321).
-/

namespace Sys2Proof.Machine

/-! ### Spaces (R86, R316) -/

/-- The number of a space, as `cfgKey` counts: vPPB `d` of VCS `v`, its upstream port, its pool endpoint; function `n`. -/
def vppbSpace (v d : Nat) : Nat := 128 + v * 64 + d
def upSpace (v : Nat) : Nat := vppbSpace v 32
def poolSpace (v : Nat) : Nat := vppbSpace v 33
def fnSpace (n : Nat) : Nat := 8192 + n

/-! ### What the spaces show (R86, R88, R91, R102; places by the PCI Express Base Specification, log entry 36) -/

/-- R88, R102: Slot Status of a vPPB in [31..16]: attention, power fault, presence changed, presence, link changed, and (a place of the
model's choice, bit 25) power-good of its slot channel; Slot Control in [15..0]. -/
def slotStatus (s : State) (b : Vppb) : Nat :=
  let good := match slotOfPort s b.port with | some c => (tabGet slotReset c s.pow.slots).powerGood | none => false
  let on := match slotOfPort s b.port with | some c => slotRequestNow s c | none => true
  [(16, b.attention), (17, b.powerFault), (19, b.presenceChanged), (22, b.presence), (24, b.linkChanged),
    (25, decide (b.state ≠ .unbound) && good), (5, b.hotplugOn), (10, !on)].foldl (fun m q => if q.2 then m + 2 ^ q.1 else m) 0

/-- R102, R88, R75: the fixed bits of vPPB `d` of VCS `v`: a bridge; a bindable one has a slot with a power controller and surprise
hot-plug and without button, sensor and indicators, reports its link, and has DPC. -/
def shownVppb (s : State) (v d reg : Nat) : Shown :=
  let r := capReg 0
  let b := vppb s v d
  if reg + 1 = r then ⟨7, 2⟩
  else if reg = 2 then ⟨0xFFFFFF00, 0x06040000⟩
  else if reg = 3 then ⟨0x7F0000, 0x010000⟩
  else if d < 2 then ⟨0, 0⟩
  else if reg = r + 1 then ⟨2 ^ 20, 2 ^ 20⟩
  else if reg = r + 3 then ⟨0x7F, 0x62⟩
  else if reg = r + 4 then ⟨0x34B0420, slotStatus s b⟩
  else if reg = capReg 7 then ⟨2 ^ 16, if b.dpc then 2 ^ 16 else 0⟩
  else if b.state ≠ .unbound then shownMargin s b.port reg
  else ⟨0, 0⟩

/-- The fixed bits of the upstream port of VCS `v`. -/
def shownUp (s : State) (v reg : Nat) : Shown :=
  if reg = 2 then ⟨0xFFFFFF00, 0x06040000⟩
  else if reg = 3 then ⟨0x7F0000, 0x010000⟩
  else
    let x := shownMps reg
    if x.mask ≠ 0 then x
    else match upstreamPort s v with | some p => shownMargin s p reg | none => ⟨0, 0⟩

/-- R86, R97: what the CDAT of VCS `v`'s pool endpoint lists: base and length of each committed decoder's window and of each
dynamic-capacity region. -/
def cdatRanges (s : State) (v : Nat) : List (Nat × Nat) :=
  (((List.range 32).filter fun i => (decoder s v i).committed).map fun i =>
      (odGet s (0x2300 + v) (i + 1), poolWindow s v i)) ++
    ((List.range 8).filter fun r => decide (0 < regionLen s v r)).map fun r => (regionBase s v r, regionLen s v r)

/-- R32: what the part adds to a read with a local home: 38 ns on the way out and 30 ns on the way back. -/
def localReadNs : Nat := 68

/-- R86: entry `i` of the CDAT as double words: DSMAS with handle `i`, base and length, then DSLBIS with the read latency of a local
home in ns. -/
def cdatEntry (i base len : Nat) : List Nat :=
  [0x180000, i, base % 2 ^ 32, base / 2 ^ 32, len % 2 ^ 32, len / 2 ^ 32, 0x180001, 0x20000 + i, 1000, 0, localReadNs, 0]

/-- R86: the answer of the pool endpoint's DOE to a request: a CDAT entry for one of CDAT; nothing for one that the spec gives no
answer to. -/
def doeAnswer (s : State) (v : Nat) (req : List Nat) : List Nat :=
  match req with
  | [0x21E98, _, x] =>
    let i := x / 2 ^ 16
    match (cdatRanges s v)[i]? with
    | some (base, len) =>
      let next := if i + 1 < (cdatRanges s v).length then i + 1 else 0xFFFF
      let body := cdatEntry i base len
      [0x21E98, body.length + 3, next * 2 ^ 16] ++ body
    | none => []
  | _ => []

/-- R86: the fixed bits of VCS `v`'s pool endpoint: a CXL memory device, whose DOE shows whether an answer is ready, and its next double
word. -/
def shownPool (s : State) (v reg : Nat) : Shown :=
  let x := tabGet ([], []) v s.port.doe
  if reg = 2 then ⟨0xFFFFFF00, 0x05021000⟩
  else if reg = 3 then ⟨0x7F0000, 0⟩
  else if reg = capReg 8 + 3 then ⟨2 ^ 31, if x.2.isEmpty then 0 else 2 ^ 31⟩
  else if reg = capReg 8 + 5 then ⟨0xFFFFFFFF, x.2.headD 0⟩
  else shownMps reg

/-- R317, R320, R332: the fixed bits of function `n`: a Function Level Reset; MSI-X with 64 vectors, its table and pending bits in BAR 0;
in a base function SR-IOV, with as many VFs as the VCS has slots, First VF Offset 1 and VF Stride 1, and ARI. -/
def shownFn (s : State) (n reg : Nat) : Shown :=
  if reg + 1 = capReg 0 then ⟨2 ^ 28 + 7, 2 ^ 28 + 2⟩
  else if reg = capReg 9 then ⟨0x7FF00FF, 0x3F0011⟩
  else if reg = capReg 9 + 1 then ⟨0xFFFFFFFF, 0x6000⟩
  else if reg = capReg 9 + 2 then ⟨0xFFFFFFFF, 0x7000⟩
  else if n < 1024 then ⟨0, 0⟩
  else if reg = capReg 2 + 1 then ⟨0xFFFFFFFF, odGet s (funcIdx n) 9 * 65537⟩
  else if reg = capReg 3 + 1 then ⟨0xFFFFFFFF, 0x10001⟩
  else if reg = capReg 10 then ⟨0xFFFFF, 0x1000E⟩
  else ⟨0, 0⟩

/-- A write to the pool endpoint of VCS `v`: its DOE takes a request double word by double word, and answers at Go; a write of its read
mailbox takes the next double word of the answer. -/
def poolCfgWrite (s : State) (v reg x : Nat) : State :=
  let d := tabGet ([], []) v s.port.doe
  let put := fun (y : List Nat × List Nat) => { s with port := { s.port with doe := tabSet ([], []) v y s.port.doe } }
  if reg = capReg 8 + 4 then put (d.1 ++ [x], d.2)
  else if reg = capReg 8 + 5 then put (d.1, d.2.tail)
  else if reg = capReg 8 + 2 then
    if x % 2 = 1 then put ([], [])
    else if x.testBit 31 then put ([], doeAnswer s v d.1)
    else s
  else cfgRegSet s (poolSpace v) reg x

/-- R91: a write of Device Control: Max_Payload_Size in [7..5] and Max_Read_Request_Size in [14..12], as the PCI Express Base
Specification codes them. -/
def deviceControl (x : Nat) : Nat × Nat := (128 * 2 ^ min 2 (bits x 7 5), 128 * 2 ^ min 5 (bits x 14 12))

/-- R87: what a host programs into a bridge: bus numbers and windows. -/
def bridgeWrite (b : Vppb) (reg x : Nat) : Vppb :=
  match reg with
  | 6 => { b with secBus := bits x 15 8, subBus := bits x 23 16 }
  | 8 => { b with memBase := bits x 15 4 * 2 ^ 20, memLimit := bits x 31 20 * 2 ^ 20 + (2 ^ 20 - 1) }
  | 9 => { b with prefBase := b.prefBase / 2 ^ 32 * 2 ^ 32 + bits x 15 4 * 2 ^ 20
                  prefLimit := b.prefLimit / 2 ^ 32 * 2 ^ 32 + bits x 31 20 * 2 ^ 20 + (2 ^ 20 - 1) }
  | 10 => { b with prefBase := x * 2 ^ 32 + b.prefBase % 2 ^ 32 }
  | 11 => { b with prefLimit := x * 2 ^ 32 + b.prefLimit % 2 ^ 32 }
  | _ => b

/-- R88, R102: a write of Slot Control and Slot Status of bindable vPPB `d` of VCS `v`: events clear with a 1, bit 5 enables the
interrupt, and Power Controller Control (bit 10, 1 off) starts or stops the slot's channel; clearing it ends a managed removal. -/
def slotWrite (s : State) (v d x : Nat) : State :=
  let b := vppb s v d
  let keep := fun (on : Bool) (i : Nat) => on && !x.testBit i
  let s1 := setVppb s v d { b with
    attention := keep b.attention 16, powerFault := keep b.powerFault 17, presenceChanged := keep b.presenceChanged 19
    linkChanged := keep b.linkChanged 24, hotplugOn := x.testBit 5 }
  let s2 :=
    match slotOfPort s1 b.port with
    | some c => if b.state = .bound ∨ b.state = .unbinding then setHostRequest s1 c (some (!x.testBit 10)) else s1
    | none => s1
  if b.state = .unbinding ∧ b.option = 1 ∧ x.testBit 10 = true then bindingEnds s2 v d else s2

/-- R75: the host clears the DPC trigger of vPPB `d` of VCS `v`, and its port may train again. -/
def dpcRelease (s : State) (v d : Nat) : State :=
  let b := vppb s v d
  if b.dpc then trainPort (setVppb s v d { b with dpc := false }) b.port else s

/-- A write to vPPB `d` of VCS `v`. -/
def vppbCfgWrite (s : State) (v d reg x : Nat) : State :=
  let b := vppb s v d
  let s1 := setVppb (cfgRegSet s (vppbSpace v d) reg x) v d (bridgeWrite b reg x)
  if reg = capReg 0 ∧ b.state ≠ .unbound then
    { s1 with port := { s1.port with mps := tabSet 128 b.port (deviceControl x).1 s1.port.mps } }
  else if 2 ≤ d ∧ reg = capReg 0 + 4 then slotWrite s1 v d x
  else if 2 ≤ d ∧ reg = capReg 7 ∧ x.testBit 16 = true then dpcRelease s1 v d
  else s1

/-- A write to the upstream port of VCS `v`. -/
def upCfgWrite (s : State) (v reg x : Nat) : State :=
  let s1 := cfgRegSet s (upSpace v) reg x
  if reg = 6 then { s1 with port := { s1.port with upBus := tabSet (0, 0) v (bits x 15 8, bits x 23 16) s1.port.upBus } }
  else
    match upstreamPort s v with
    | some p =>
      if reg = capReg 0 then { s1 with port := { s1.port with mps := tabSet 128 p (deviceControl x).1 s1.port.mps } } else s1
    | none => s1

/-- R317, R278, R332: a write to function `n`: SR-IOV of a base function, the sizes of its packets, and a Function Level Reset (bit 15
of Device Control, which reads 0). -/
def fnCfgWrite (s : State) (n reg x : Nat) : State :=
  let dc := decide (reg = capReg 0)
  let s1 := cfgRegSet s (fnSpace n) reg (if dc && x.testBit 15 then x - 2 ^ 15 else x)
  let f := func s1 n
  let s2 :=
    if dc then
      let t := setFunc s1 n { f with mps := (deviceControl x).1, mrrs := (deviceControl x).2 }
      if x.testBit 15 then functionLevelReset t n else t
    else s1
  if n < 1024 then s2
  else
    let v := n - 1024
    if reg = capReg 3 then
      { s2 with ven := { s2.ven with numVfs := tabSet 0 v (min (bits x 15 0) (odGet s2 (0x7C00 + v) 9)) s2.ven.numVfs } }
    else if reg = capReg 2 then
      if x % 2 = 1 then { s2 with ven := { s2.ven with vfEnable := setInsert v s2.ven.vfEnable } }
      else if s2.ven.vfEnable.contains v then
        resetVeneers { s2 with ven := { s2.ven with vfEnable := setRemove v s2.ven.vfEnable } } v
      else s2
    else s2

/-! ### Functions below vPPB 1 (R316 to R319) -/

/-- R317, R319: what stands at function number `j` below vPPB 1 of VCS `v`: the base function, a veneer function, or (`none`
inside) a VF slot without a function; `none` where there is no such VF. -/
def fnAt (s : State) (v j : Nat) : Option (Option Nat) :=
  if j = 0 then some (some (1024 + v))
  else if s.ven.vfEnable.contains v && decide (j ≤ tabGet 0 v s.ven.numVfs) then some (funcAtSlot s v j)
  else none

/-- R275: BAR 0 of function number `j`: the base function's BAR, or its slice of the VF BAR. -/
def bar0 (s : State) (v j : Nat) : Nat :=
  let b := fnSpace (1024 + v)
  if j = 0 then (cfgReg s b 5 * 2 ^ 32 + cfgReg s b 4) / 2 ^ 17 * 2 ^ 17
  else (cfgReg s b (capReg 5) * 2 ^ 32 + cfgReg s b (capReg 4)) / 2 ^ 17 * 2 ^ 17 + (j - 1) * 2 ^ 17

/-- R275: function number and offset of a host address in the functions' BARs of VCS `v`. -/
def fnBarHit (s : State) (v a : Nat) : Option (Nat × Nat) :=
  let vf0 := bar0 s v 1
  if 0 < bar0 s v 0 ∧ bar0 s v 0 ≤ a ∧ a < bar0 s v 0 + 2 ^ 17 then some (0, a - bar0 s v 0)
  else if 0 < vf0 ∧ vf0 ≤ a ∧ a < vf0 + tabGet 0 v s.ven.numVfs * 2 ^ 17 then some (1 + (a - vf0) / 2 ^ 17, (a - vf0) % 2 ^ 17)
  else none

/-! ### BAR 0 of a function (R275, R276, R320, R321) -/

/-- R276, R280: the register of a queue: QCB address, error code, state and Enable, which is 1 too while the read of an enable is
outstanding (`asked`). -/
def queueReg (qcb err : Nat) (st : QueueSt) (asked : Bool) : Nat :=
  let code := match st with | .disabled => 0 | .enabled => 1 | .stopping => 2 | .error => 3
  qcb * 2 ^ 64 + err * 2 ^ 16 + code * 2 ^ 4 + (if st = .enabled ∨ st = .error ∨ (st = .disabled ∧ asked = true) then 1 else 0)

/-- R275: a queue register that names no queue of the function reads as zero. -/
def cqReg (s : State) (n j : Nat) : Nat :=
  match cqOf s n j with
  | some q => let x := cq s q; queueReg x.qcb x.err x.st x.reading
  | none => 0
def sqReg (s : State) (n j : Nat) : Nat :=
  match sqOf s n j with
  | some q => let x := sq s q; queueReg x.qcb x.err x.st x.reading
  | none => 0

/-- R321: a 32-bit register of the control page. -/
def controlReg (s : State) (n off : Nat) : Nat :=
  let f := func s n
  match off with
  | 0 => (if 1024 ≤ n then 2 ^ 31 else 0) + ((funcVcs s n).getD 0) * 2 ^ 16 + n
  | 4 => (s.mov.sqs.filter fun p => decide (p.2.owner = n + 1)).length * 2 ^ 16 +
      (s.mov.cqs.filter fun p => decide (p.2.owner = n + 1)).length
  | 8 => odGet s (funcIdx n) 2 * 2 ^ 16 + (if f.errEnable then 2 ^ 15 else 0) + f.errVector
  | 12 => (if f.resetPending then 2 ^ 31 else 0) + (if f.qErr then 2 ^ 30 else 0) + (if f.qErrCq then 2 ^ 12 else 0) + f.qErrNum
  | 16 => odGet s (funcIdx n) 3
  | _ => 0

/-- R275, R320, R321, R476: byte `o` of BAR 0 of function `n`. -/
def fnByte (s : State) (n o : Nat) : Byte :=
  let byteOf := fun (v i : Nat) => BitVec.ofNat 8 (v / 2 ^ (8 * i))
  if o < 0x1000 then 0
  else if o < 0x2000 then byteOf (controlReg s n ((o - 0x1000) / 4 * 4)) (o % 4)
  else if o < 0x6000 then byteOf (cqReg s n ((o - 0x2000) / 16)) (o % 16)
  else if o < 0x6400 then byteOf (if (o - 0x6000) % 16 / 4 = 3 then (if (func s n).vecOn.contains ((o - 0x6000) / 16) then 0 else 1)
    else cfgReg s (fnSpace n) (768 + (o - 0x6000) / 16 * 4 + (o - 0x6000) % 16 / 4)) (o % 4)
  else if 0x7000 ≤ o ∧ o < 0x7008 then byteOf ((func s n).vecPending.foldl (fun m i => m + 2 ^ i) 0) (o % 8)
  else if 0x8000 ≤ o ∧ o < 0x8100 then
    (match heldSet s n with
     | some c => byteOf (tabGet 0 (c * 32 + (o - 0x8000) / 8) s.perf.sets).toNat (o % 8)
     | none => 0)
  else if 0x10000 ≤ o then byteOf (sqReg s n ((o - 0x10000) / 16)) (o % 16)
  else 0

/-- R321: a read of the status register clears the record of the last queue error. -/
def fnReadEffect (s : State) (n off len : Nat) : State :=
  if off ≤ 0x100F ∧ 0x100C < off + len then setFunc s n { func s n with qErr := false, qErrCq := false, qErrNum := 0 } else s

/-- A host reads BAR 0 of function `n`; of a VF slot without a function it reads what a function without queues has. -/
def fnRead (s : State) (fn : Option Nat) (off len : Nat) : State × List Byte :=
  match fn with
  | some n => (fnReadEffect s n off len, (List.range len).map fun i => fnByte s n (off + i))
  | none => (s, List.replicate len 0)

/-- R320: the mask of vector `i` of function `n` is written; a vector that becomes enabled sends what is pending. -/
def vectorMask (s : State) (n i : Nat) (masked : Bool) : State :=
  let f := func s n
  if masked then setFunc s n { f with vecOn := setRemove i f.vecOn }
  else
    let s1 := setFunc s n { f with vecOn := setInsert i f.vecOn, vecPending := setRemove i f.vecPending }
    if f.vecPending.contains i then emit s1 (.msix n i) else s1

/-- R276: the QCB address of local queue `loc` of function `n` is written; while its State is not DISABLED that is ignored. -/
def queueAddrWrite (s : State) (n : Nat) (isCq : Bool) (loc x : Nat) : State :=
  if resetPending s n then s
  else if isCq then
    match cqOf s n loc with
    | some q => if (cq s q).st = .disabled then setCq s q { cq s q with qcb := x / 64 * 64 } else s
    | none => s
  else
    match sqOf s n loc with
    | some q => if (sq s q).st = .disabled then setSq s q { sq s q with qcb := x / 64 * 64 } else s
    | none => s

/-- R276, R283: Enable of a queue is written; a write of what it holds changes nothing. -/
def queueEnableWrite (s : State) (n : Nat) (isCq : Bool) (loc : Nat) (on : Bool) : State :=
  let cur := if isCq then cqReg s n loc else sqReg s n loc
  if on then (if cur % 2 = 1 then s else queueEnable s n isCq loc (cur / 2 ^ 64))
  else queueDisable s n isCq loc

/-- R276: bytes `data` are written to a queue register at byte `o` of it: what they cover of the QCB address, then Enable. -/
def queueRegWrite (s : State) (n : Nat) (isCq : Bool) (loc o : Nat) (data : List Byte) : State :=
  let old := leBytes 16 (if isCq then cqReg s n loc else sqReg s n loc)
  let x := leValue (old.take o ++ data ++ old.drop (o + data.length))
  let s1 := if 8 < o + data.length then queueAddrWrite s n isCq loc (x / 2 ^ 64) else s
  if o = 0 ∧ data ≠ [] then moverTurn (queueEnableWrite s1 n isCq loc (x.testBit 0)) else s1

/-- A write as its parts within aligned `k`-byte registers: offset and bytes; the first argument bounds their count. -/
def regParts (k : Nat) : Nat → Nat → List Byte → List (Nat × List Byte)
  | 0, _, _ => []
  | _, _, [] => []
  | f + 1, off, data =>
    let n := k - off % k
    (off, data.take n) :: regParts k f (off + n) (data.drop n)

/-- R321: bytes `data` written from byte `off` of the control page, over the register that they fall in. -/
def controlMerge (s : State) (n off : Nat) (data : List Byte) : Nat :=
  let old := leBytes 4 (controlReg s n ((off - 0x1000) / 4 * 4))
  leValue (old.take (off % 4) ++ data ++ old.drop (off % 4 + data.length))

/-- A host writes within one 16-byte register, or within one of 4 bytes, of BAR 0 of function `n`. -/
def fnRegWrite (s : State) (n off : Nat) (data : List Byte) : State :=
  let x := if off < 0x2000 then controlMerge s n off data else leValue data
  if off / 4 * 4 = 0x1008 then
    let f := func s n
    let s1 := setFunc s n { f with errEnable := x.testBit 15, errVector := x % 64 }
    if x.testBit 31 then functionReset s1 n else s1
  else if off = 0x1014 then
    if 1024 ≤ n ∧ x % 2048 < 1088 then logDoorbell s (n - 1024) (x % 2048) else s
  else if 0x2000 ≤ off ∧ off < 0x6000 then queueRegWrite s n true ((off - 0x2000) / 16) (off % 16) data
  else if 0x6000 ≤ off ∧ off < 0x6400 ∧ off % 4 = 0 then
    if off % 16 = 12 then vectorMask s n ((off - 0x6000) / 16) (x.testBit 0)
    else cfgRegSet s (fnSpace n) (768 + (off - 0x6000) / 16 * 4 + off % 16 / 4) x
  else if 0x10000 ≤ off then queueRegWrite s n false ((off - 0x10000) / 16) (off % 16) data
  else s

/-- A host writes BAR 0 of function `n` at offset `off`. R284: the doorbell takes writes of 32 bits. -/
def fnWriteAt (s : State) (n off : Nat) (data : List Byte) : State :=
  if off < 0x1000 then (if off = 0 ∧ data.length = 4 then (ringDoorbell s n (leValue data)).1 else s)
  else
    (regParts (if 0x2000 ≤ off ∧ off < 0x6000 ∨ 0x10000 ≤ off then 16 else 4) (data.length + 1) off data).foldl
      (fun t q => fnRegWrite t n q.1 q.2) s

/-- R319: a VF slot without a function ignores its doorbells, which are counted. -/
def fnWrite (s : State) (fn : Option Nat) (off : Nat) (data : List Byte) : State :=
  match fn with
  | some n => fnWriteAt s n off data
  | none => if off = 0 ∧ data.length = 4 then bumpC s 0xC028 8 else s

/-! ### BARs of the pool endpoint (R475) -/

/-- R475: BAR 2 of the pool endpoint holds the 128 counters of its VCS. -/
def poolBar2 (s : State) (v : Nat) : Nat := (cfgReg s (poolSpace v) 7 * 2 ^ 32 + cfgReg s (poolSpace v) 6) / 1024 * 1024

/-- A read of the pool endpoint's BARs at host address `a`. -/
def poolBarRead (s : State) (v a len : Nat) : State × List Byte :=
  let b := poolBar2 s v
  if 0 < b ∧ b ≤ a ∧ a + len ≤ b + 1024 then
    (s, (List.range len).map fun i =>
      BitVec.ofNat 8 ((tabGet 0 (v * 128 + (a - b + i) / 8) s.perf.vcs).toNat / 2 ^ (8 * ((a - b + i) % 8))))
  else openBytes s a len

end Sys2Proof.Machine
end

