-- ==== Sys2Proof/Machine/CxlIo.lean ====
section
/-!
DEFINITION. Machine/CxlIo.lean: Parse (R18, R91, R149, R459) and the routing of CXL.io within a virtual switch (R87, R235, R309,
R316, R430).
-/

namespace Sys2Proof.Machine

/-! ### Parse (R18, R149) -/

/-- R458: the IDE of port `p`. -/
def idePort (s : State) (p : Nat) : IdePort := tabGet ideReset p s.sec.ide

/-- R459: the port may carry only configuration and DOE: its IDE is required and not established. -/
def ideBlocks (s : State) (p : Nat) : Bool := s.sec.cert.ideRequired.getLsbD p && !(idePort s p).established

/-- R459: the message is one that a port without its IDE streams still carries. -/
def ideCarries : PortMsg → Bool
  | .tlp t =>
    (match t.kind with
     | .cfgRead => true | .cfgWrite => true | .completion => true | .completionData => true
     | _ => false)
  | _ => false

/-- R90, R149: the VN into which Parse places a message of an UPSTREAM port, or of a POOL port; none where that port's protocol
has no such message. -/
def parseVn (up pool : Bool) : PortMsg → Option Vn
  | .req _ _ _ _ => if up then some .req else none
  | .biConflict _ _ => if up then some .req else none
  | .rwd _ _ _ _ _ _ _ => if up then some .wb else none
  | .biRsp _ _ => if up then some .rsp else none
  | .ndr _ => if pool then some .rsp else none
  | .drs _ _ _ => if pool then some .dat else none
  | .tlp t => some (tlpType t.kind).1

/-- R474: the event of a CXL.io request received. -/
def tlpEvent (t : Tlp) : Option Nat :=
  match tlpType t.kind with
  | (.iop, c) => some (32 + c)
  | (.ion, c) => some (35 + c)
  | _ => none

/-- R75: DPC of the vPPB below which port `p` stands, if its host has enabled it (PRESUMED: DPC Trigger Enable, [1..0] of DPC control,
log entry 36), contains the port: its link goes down and stays so until the host clears the trigger. -/
def dpcTrigger (s : State) (p ld : Nat) : State :=
  match boundTo s p ld with
  | some (v, d) =>
    if cfgReg s (vppbSpace v d) (capReg 7) % 4 = 0 then s
    else linkFalls (setVppb s v d { vppb s v d with dpc := true }) p
  | none => s

/-- R91: a Malformed TLP is logged where it arrived. -/
def malformedTlp (s : State) (p : Nat) (t : Tlp) : State :=
  dpcTrigger (raiseFault (aerAt s p t.ld fun a => { a with malformed := true, header := some t }) p 3 (2 ^ 18)) p t.ld

/-- R75: a request in I/O space or a locked one is answered Unsupported Request. -/
def ioSpace (s : State) (p : Nat) (t : Tlp) : State :=
  hostSend (aerUnsupported s p t) p .ioc (.tlp (completionOf t 1 []))

/-- R474: a packet that port `p` accepts counts by its type, and with its payload where a host sends it. -/
def countTlp (s : State) (p : Nat) (t : Tlp) : State :=
  let s1 := match tlpEvent t with | some e => bumpPort s p t.ld e 1 | none => s
  match hostOfPort s p with
  | some v => bumpVcs s1 v 47 t.data.length
  | none => s1

/-- R110: the ingress pair has room for the message. -/
def ingressRoom (s : State) (p : Nat) (vn : Vn) (m : PortMsg) : Bool :=
  decide (cellsAt s p (8 + vnCode vn) + msgCells m ≤ activeLimit s p (8 + vnCode vn))

/-- R18: the message enters its ingress pair. Credit was advertised only up to the free cells of the pair (R111): a message for
which there are none stays with the partner. -/
def parsePlace (s : State) (p : Nat) (vn : Vn) (m : PortMsg) : State :=
  if ingressRoom s p vn m then
    let s1 := (parseUnits s p vn m).foldl (fun r u => traceUnit r 1 p 0 u) s
    let s2 := match m with | .tlp t => countTlp s1 p t | _ => s1
    setIngress s2 p vn (ingress s2 p vn ++ [{ msg := m, since := s2.time.clock }])
  else s

/-- R18: one message of a received flit. -/
def parseMsg (s : State) (p : Nat) (m : PortMsg) : State :=
  if ideBlocks s p && !ideCarries m then s
  else
    match parseVn (hostOfPort s p).isSome (poolPort s p) m with
    | none => s
    | some vn =>
      match m with
      | .tlp t =>
        if tabGet 128 p s.port.mps < t.data.length then malformedTlp s p t
        else if t.kind = .unsupported then ioSpace s p t
        else parsePlace s p vn m
      | _ => parsePlace s p vn m

/-- R18, R33: port `p` receives a flit. -/
def parseFlit (s : State) (p : Nat) (ms : List PortMsg) : State :=
  let s1 := bump s (8 * p) 1
  ms.foldl (fun t m => parseMsg t p m) (if ms.isEmpty then s1 else bump s1 (8 * p + 2) 1)

/-- PARSE_INGRESS (R18): port `p` receives a flit with the messages `ms`, in order; none: an idle flit. -/
def execParseIngress (p : Fin 96) (ms : List PortMsg) (s : State) : Host.Outcome State Fault Refusal :=
  if portUp s p.val then .next (parseFlit s p.val ms) else .next s

/-! ### Answers of the port itself -/

/-- R25: an Unsupported Request: a completion for a non-posted request; a posted one is discarded and logged (R92). -/
def refuseTlp (s : State) (p : Nat) (t : Tlp) : State :=
  if (tlpType t.kind).1 = .ion then hostSend s p .ioc (.tlp (completionOf t 1 [])) else aerUnsupported s p t

/-- R91: `bs` in pieces of at most `mx` bytes; the first argument bounds the count of pieces. -/
def pieces (mx : Nat) : Nat → List Byte → List (List Byte)
  | 0, _ => []
  | _, [] => []
  | n + 1, bs => bs.take mx :: pieces mx n (bs.drop mx)

/-- R91: the data of a read goes back in parts no larger than the Max_Payload_Size in force. -/
def answerData (s : State) (p : Nat) (t : Tlp) (bs : List Byte) : State :=
  (pieces (max 1 (tabGet 128 p s.port.mps)) bs.length bs).foldl (fun r d =>
    hostSend r p .ioc (.tlp (completionOf t 0 d))) s

/-- A request that the port serves without data. -/
def answerDone (s : State) (p : Nat) (t : Tlp) : State := hostSend s p .ioc (.tlp (completionOf t 0 []))

/-! ### Forwarding (R87, R89) -/

/-- R25: the record of a non-posted request of port `p` for LD `ld` of port `q`. -/
def npRecord (s : State) (v p q ld : Nat) (t : Tlp) (refused : Bool) : State :=
  if (tlpType t.kind).1 = .ion then
    { s with port := { s.port with np := s.port.np ++
      [{ vcs := v, fromPort := p, toPort := q, ld := ld, tag := t.tag.setWidth 16, tlp := t, sent := false, refused := refused, got := 0 }] } }
  else s

/-- R45, R120: a packet of port `p` goes through the fabric to agent `dst`; `since`: when it came to its ingress pair, whose
residence is its first Age. -/
def forward (s : State) (p : Nat) (dst : BitVec 12) (t : Tlp) (since : Nat) : State :=
  sendTlpBy s (bridgeStop (p / 6)) (1 + p % 6) { t with origin := t.ld } (portPlace p) dst (t.tag.setWidth 16) fun u =>
    { u with age := agedBy s since 0 }

/-- A packet of port `p` goes to port `q`, for its LD `ld`. -/
def forwardPort (s : State) (v p q ld : Nat) (t : Tlp) (since : Nat) : State :=
  sendTlpBy (npRecord s v p q ld t false) (bridgeStop (p / 6)) (1 + p % 6) { t with origin := t.ld, ld := ld } (portPlace p)
    (portPlace q) (t.tag.setWidth 16) fun u => { u with age := agedBy s since 0 }

/-! ### Pool memory (R235, R309) -/

/-- R235: address and length of the aligned 64-byte parts of a request. -/
def lineParts (a len : Nat) : List (Nat × Nat) :=
  (List.range ((a % 64 + len + 63) / 64)).map fun i =>
    let lo := max a (a / 64 * 64 + 64 * i)
    (lo, min (a + len) (a / 64 * 64 + 64 * i + 64) - lo)

/-- R232, R235: stage `p / 6` refuses the part at host address `a`, with its pool address. A part that no decoder covers is left
to the mover. -/
def partRefused (s : State) (v p a : Nat) (rd wr : Bool) : Option Nat :=
  (decodeAddr s v a).bind fun x => if permitsAddr s (p / 6) v x rd wr then none else some x

/-- R235: the runs of permitted parts: address and length. -/
def permittedRuns : List ((Nat × Nat) × Bool) → List (Nat × Nat)
  | [] => []
  | ((_, _), false) :: rest => permittedRuns rest
  | ((a, n), true) :: rest =>
    match permittedRuns rest with
    | [] => [(a, n)]
    | (b, m) :: more => if b = a + n then (a, n + m) :: more else (a, n) :: (b, m) :: more

/-- The packet of a run of a write. -/
def runTlp (t : Tlp) (kind : TlpKind) (r : Nat × Nat) : Tlp :=
  { t with kind := kind, addr := BitVec.ofNat 64 r.1, len := r.2, data := (t.data.drop (r.1 - t.addr.toNat)).take r.2 }

/-- R235: the permitted parts of a write, some of whose parts are refused, go to the mover. -/
def forwardRuns (s : State) (v p : Nat) (t : Tlp) (runs : List (Nat × Nat)) (since : Nat) : State :=
  if t.kind = .memWrite then
    runs.foldl (fun r x => forward r p moverPlace (runTlp t .memWrite x) since) (aerUnsupported s p t)
  else
    match runs.getLast? with
    | none => refuseTlp s p t
    | some z =>
      forward (runs.dropLast.foldl (fun r x => forward r p moverPlace (runTlp t .memWrite x) since) (npRecord s v p 96 0 t true)) p
        moverPlace (runTlp t .deferrableWrite z) since

/-- R233, R235, R309: a request of VCS `v` at port `p` to pool memory passes Guard on its way to the mover. -/
def poolRequest (s : State) (v p : Nat) (t : Tlp) (since : Nat) : State :=
  let write := decide (t.kind = .memWrite) || decide (t.kind = .deferrableWrite)
  let atomic := decide (t.kind = .fetchAdd) || decide (t.kind = .swap) || decide (t.kind = .cas)
  let rd := !write
  let wr := write || atomic
  let parts := if atomic then [(t.addr.toNat, 1)] else lineParts t.addr.toNat (if write then t.data.length else max 1 t.len)
  let bad := parts.filterMap fun x => partRefused s v p x.1 rd wr
  let s1 := bad.foldl (fun r x => refusal r v x wr) s
  if bad.isEmpty then forward (npRecord s1 v p 96 0 t false) p moverPlace t since
  else if write then forwardRuns s1 v p t (permittedRuns (parts.map fun x => (x, (partRefused s v p x.1 rd wr).isNone))) since
  else refuseTlp s1 p t

/-! ### Where a request goes (R87, R316) -/

/-- R87: what a memory request is for. -/
inductive IoTarget where
  | pool
  | function (j off : Nat)
  | poolBar
  | device (d : Nat)
  | host
  | nowhere
  deriving DecidableEq, Repr

/-- R87: address `a` lies in a window of vPPB `b`. -/
def inWindow (b : Vppb) (a : Nat) : Bool :=
  (decide (b.memLimit ≠ 0) && decide (b.memBase ≤ a) && decide (a ≤ b.memLimit)) ||
    (decide (b.prefLimit ≠ 0) && decide (b.prefBase ≤ a) && decide (a ≤ b.prefLimit))

/-- R87: the vPPB whose windows hold address `a`. -/
def windowOf (s : State) (v a : Nat) : Option Nat := (List.range 32).find? fun d => inWindow (vppb s v d) a

/-- R87: a request between vPPBs of VCS `v` that comes from vPPB `d` is redirected to the host: bit 2, P2P Request Redirect, of its
ACS control. -/
def acsRedirect (s : State) (v d : Nat) : Bool := (cfgReg s (vppbSpace v d) (capReg 1)).testBit 2

/-- R87: where an address outside the pool and the function BARs goes, for a packet from the host or from device `frm`. -/
def windowTarget (s : State) (v : Nat) (frm : Option Nat) (redirected : Bool) : Option Nat → IoTarget
  | some d =>
    if frm = some d then .nowhere
    else if redirected then .host
    else if d = 0 then .poolBar
    else if 2 ≤ d ∧ (vppb s v d).state ≠ .unbound then .device d
    else .nowhere
  | none => if frm.isSome then .host else .nowhere

/-- R87: where an address outside the pool goes, `hit` being the function BAR that holds it. -/
def barTarget (s : State) (v : Nat) (frm : Option Nat) (redirected : Bool) (a : Nat) : Option (Nat × Nat) → IoTarget
  | some (j, off) => if redirected then .host else .function j off
  | none => windowTarget s v frm redirected (windowOf s v a)

/-- R87, R94, R309: the target of a memory request at address `a` from the host, or from the device below vPPB `d`. -/
def ioTarget (s : State) (v : Nat) (frm : Option Nat) (a : Nat) : IoTarget :=
  let redirected := match frm with | some d => acsRedirect s v d | none => false
  if (decodeAddr s v a).isSome then .pool else barTarget s v frm redirected a (fnBarHit s v a)

/-- R430: in the safe state no ION reaches a bound device or pool memory, and no IOP goes on. -/
def safeRefuses (s : State) (t : Tlp) (x : IoTarget) : Bool :=
  s.flt.safe &&
    (decide ((tlpType t.kind).1 = .iop) ||
      (match x with
       | .pool => true
       | .device _ => true
       | _ => false))

/-- R275, R475: a memory request to registers that the part serves: a read has its bytes, a write its effect, and an AtomicOp none. -/
def servedRequest (s : State) (p : Nat) (t : Tlp) (rd : State → State × List Byte) (wr : State → State) : State :=
  if t.kind = .memRead then let r := rd s; answerData r.1 p t r.2
  else if t.kind = .memWrite then wr s
  else if t.kind = .deferrableWrite then answerDone (wr s) p t
  else refuseTlp s p t

/-- R87: a memory request is routed by its address. -/
def routeMemory (s : State) (v p : Nat) (frm : Option Nat) (t : Tlp) (since : Nat) : State :=
  let a := t.addr.toNat
  let x := ioTarget s v frm a
  if safeRefuses s t x then refuseTlp s p t
  else
    match x with
    | .pool => poolRequest s v p t since
    | .function j off =>
      let fn := (fnAt s v j).getD none
      servedRequest s p t (fun s => fnRead s fn off t.len) fun s => fnWrite s fn off t.data
    | .poolBar => servedRequest s p t (fun s => poolBarRead s v a t.len) fun s => s
    | .device d => let b := vppb s v d; forwardPort s v p b.port b.ld t since
    | .host => match upstreamPort s v with | some q => forwardPort s v p q 0 t since | none => refuseTlp s p t
    | .nowhere => refuseTlp s p t

/-! ### Configuration (R86, R316) -/

/-- What a configuration request is for: the upstream port, a vPPB, the pool endpoint, a function or VF slot, or a bound device. -/
inductive CfgTarget where
  | up
  | vppb (d : Nat)
  | pool
  | function (n : Nat)
  | emptySlot (j : Nat)
  | device (d : Nat)
  | nowhere
  deriving DecidableEq, Repr

/-- R87: what the bus, device and function numbers `id` of a host's configuration request name. -/
def cfgTarget (s : State) (v : Nat) (id : BitVec 16) : CfgTarget :=
  let bus := bits id.toNat 15 8
  let ub := tabGet (0, 0) v s.port.upBus
  if ub.1 = 0 ∨ bus < ub.1 ∨ ub.2 < bus then .up
  else if bus = ub.1 then (if bits id.toNat 2 0 = 0 then .vppb (bits id.toNat 7 3) else .nowhere)
  else
    match (List.range 32).find? fun d => let b := vppb s v d; decide (0 < b.secBus) && decide (b.secBus ≤ bus) && decide (bus ≤ b.subBus) with
    | none => .nowhere
    | some d =>
      let rid := (bus - (vppb s v d).secBus) * 256 + bits id.toNat 7 0
      if d = 0 then (if rid = 0 then .pool else .nowhere)
      else if d = 1 then
        match fnAt s v rid with
        | some (some n) => .function n
        | some none => .emptySlot rid
        | none => .nowhere
      else if (vppb s v d).state ≠ .unbound then .device d
      else .nowhere

/-- A configuration write of fewer than four bytes leaves the register's other bytes. -/
def mergeReg (old off : Nat) (data : List Byte) : Nat :=
  leValue ((leBytes 4 old).take off ++ (data.take (4 - off)) ++ (leBytes 4 old).drop (off + data.length))

/-- R87: a configuration request that the part serves in space `sp`, of whose registers it fixes the bits `x`, a write taking effect by
`wr` of register and value. -/
def serveCfg (s : State) (p sp : Nat) (t : Tlp) (x : Nat → Shown) (wr : State → Nat → Nat → State) : State :=
  let reg := t.addr.toNat / 4 % 1024
  let off := t.addr.toNat % 4
  if t.kind = .cfgRead then let r := cfgReadWith s sp reg (x reg); answerData r.1 p t ((r.2.drop off).take (max 1 t.len))
  else answerDone (wr s reg (mergeReg (cfgReg s sp reg) off t.data)) p t

/-- R86, R87: a host's configuration request. -/
def routeCfg (s : State) (v p : Nat) (t : Tlp) (since : Nat) : State :=
  match cfgTarget s v t.id with
  | .up => serveCfg s p (upSpace v) t (shownUp s v) fun s reg x => upCfgWrite s v reg x
  | .vppb d => serveCfg s p (vppbSpace v d) t (shownVppb s v d) fun s reg x => vppbCfgWrite s v d reg x
  | .pool => serveCfg s p (poolSpace v) t (shownPool s v) fun s reg x => poolCfgWrite s v reg x
  | .function n => serveCfg s p (fnSpace n) t (shownFn s n) fun s reg x => fnCfgWrite s n reg x
  | .emptySlot j => serveCfg s p (9280 + v * 1024 + j) t shownMps fun s _ _ => s
  | .device d => if s.flt.safe then refuseTlp s p t else let b := vppb s v d; forwardPort s v p b.port b.ld t since
  | .nowhere => refuseTlp s p t

/-! ### Messages and completions -/

/-- A message: by ID where it carries one, else from a device to the host, and from the host to every bound device. -/
def routeMessage (s : State) (v p : Nat) (frm : Option Nat) (t : Tlp) (since : Nat) : State :=
  let toHost := fun (s : State) => match upstreamPort s v with | some q => forwardPort s v p q 0 t since | none => s
  if s.flt.safe then aerUnsupported s p t
  else if t.byId then
    match cfgTarget s v t.id with
    | .device d => if frm = some d then aerUnsupported s p t else let b := vppb s v d; forwardPort s v p b.port b.ld t since
    | .up => if frm.isSome then toHost s else s
    | .nowhere => aerUnsupported s p t
    | _ => s
  else if frm.isSome then toHost s
  else
    ((List.range 32).filter fun d => decide (2 ≤ d) && decide ((vppb s v d).state = .bound)).foldl
      (fun r d => let b := vppb s v d; forwardPort r v p b.port b.ld t since) s

/-- R25, R87: a completion that the partner of port `p` returns goes to the requester; one that nothing waits for is discarded. -/
def routeCompletion (s : State) (p : Nat) (t : Tlp) (since : Nat) : State :=
  match s.port.np.find? fun n => decide (n.toPort = p) && n.sent && decide (n.tlp.requester = t.id) && decide (n.tlp.tag = t.tag) with
  | none => s
  | some n =>
    if n.fromPort = 97 then
      emit { s with port := { s.port with np := s.port.np.filter fun m => decide (m ≠ n) } }
        (.fmapi (if t.status = 0 then .success else .unsupported) (t.data.map BitVec.toNat))
    else
      sendTlpBy s (bridgeStop (p / 6)) (1 + p % 6) { t with ld := n.tlp.ld } (portPlace p) (npPlace n.fromPort) n.tag fun u =>
        { u with age := agedBy s since 0 }

/-- R75, R87: ACS Source Validation (PRESUMED bit 0 of ACS control, log entry 36): a request from below vPPB `d` whose requester is on
none of the buses below it. -/
def acsBlocks (s : State) (v d : Nat) (t : Tlp) : Bool :=
  let b := vppb s v d
  let bus := bits t.requester.toNat 15 8
  (cfgReg s (vppbSpace v d) (capReg 1)).testBit 0 && (decide (bus < b.secBus) || decide (b.subBus < bus))

/-- R75: an ACS violation: Completer Abort to a non-posted request. -/
def acsViolation (s : State) (p : Nat) (t : Tlp) : State :=
  let s1 := aerAt s p t.ld fun a => { a with completerAbort := true, header := some t }
  if (tlpType t.kind).1 = .ion then hostSend s1 p .ioc (.tlp (completionOf t 4 [])) else s1

/-- R87: a packet is routed. -/
def routeTlp (s : State) (p : Nat) (t : Tlp) (since : Nat) : State :=
  if (tlpType t.kind).1 = .ioc then routeCompletion s p t since
  else
    match trafficVcs s p t.ld with
    | none => refuseTlp s p t
    | some v =>
      let frm := if (hostOfPort s p).isSome then none else (boundTo s p t.ld).map Prod.snd
      if odGet s (0x2200 + v) 1 ≠ 1 then refuseTlp s p t
      else if (match frm with | some d => acsBlocks s v d t | none => false) = true then acsViolation s p t
      else
        match t.kind with
        | .message => routeMessage s v p frm t since
        | .messageData => routeMessage s v p frm t since
        | .cfgRead => if frm.isNone then routeCfg s v p t since else refuseTlp s p t
        | .cfgWrite => if frm.isNone then routeCfg s v p t since else refuseTlp s p t
        | _ => routeMemory s v p frm t since

/-- CXLIO_ROUTE (R87): the first packet of an IO virtual network of port `p` is routed. -/
def execCxlioRoute (p : Fin 96) (vn : Vn) (s : State) : Host.Outcome State Fault Refusal :=
  if vnIsIo vn then
    match ingress s p.val vn with
    | { msg := .tlp t, since := z } :: _ =>
      if bridgeOpen s (p.val / 6) vn then .next (routeTlp (ingressTaken s p.val vn) p.val t z) else .next s
    | _ => .next s
  else .next s

end Sys2Proof.Machine
end

