-- ==== Sys2Proof/Machine/Security.lean ====
section
/-!
DEFINITION. Machine/Security.lean: chapter 15: images and rollback, certified configuration, the SPDM responder, CXL IDE
and debug (R442 to R459, R466 to R470). What a signature, hash or tag check gives is an operand of the command.
-/

namespace Sys2Proof.Machine

/-! ### Images, rollback and key slots (R445 to R449) -/

/-- R445: the image is valid. -/
def imageValid (s : State) (i : FwImage) : Bool :=
  i.headerOk && decide (i.keySlot < 4) && !s.sec.revoked.contains i.keySlot &&
    decide (tabFind? i.keySlot s.sec.fuseHash = some i.keyHash) && i.hashOk && i.signatureOk &&
    decide (tabGet 0 i.counter s.sec.counters ≤ i.svn) && decide (i.svn ≤ 64)

/-- R444: the approved-mode indicator. -/
def approvedMode (s : State) : Bool := s.sec.cert.approved && s.sec.selfTests && !s.sec.healthFailed && !s.sec.unlocked

/-- R404, R448: the session is in mode ENCRYPTED. -/
def encryptedSession (s : State) (sid : Nat) : Bool :=
  s.spr.sessions.any fun x => decide (x.id = sid) && decide (x.mode = .encrypted)

/-- R447: raise counter `c` to the SVN of the running image that names it. -/
def raiseRollback (s : State) (c : Nat) : State × Status :=
  if 63 < c then (s, .outOfRange)
  else
    match (s.sec.running.filter fun p => decide (p.2.counter = c)).map fun p => p.2.svn with
    | [] => (s, .wrongState)
    | svns =>
      let v := svns.foldl max (tabGet 0 c s.sec.counters)
      ({ s with sec := { s.sec with counters := tabSet 0 c v s.sec.counters } }, .ok)

/-- RAISE_ROLLBACK_COUNTER (R447): COMMAND on OD B011.01. -/
def execRaiseRollbackCounter (c : Byte) (s : State) : Host.Outcome State Fault Refusal := answered (raiseRollback s c.toNat)

/-- R448: install an image in the inactive bank of its kind. -/
def installImage (s : State) (i : FwImage) : State × Status :=
  if i.kind ≠ 1 ∧ i.kind ≠ 2 then (s, .wrongState)
  else if !holdupPasses s i.size then (bumpC s 0xC02A 1, .holdupLow)
  else
    let bankB := if i.kind = 1 then !s.sec.runSecB else !s.sec.runMgmtB
    let s1 := { s with sec := { s.sec with banks := tabPut (2 * i.kind + (if bankB then 1 else 0)) i s.sec.banks } }
    if imageValid s i then
      if i.kind = 1 then ({ s1 with sec := { s1.sec with bootSec := bankB } }, .ok)
      else ({ s1 with sec := { s1.sec with bootMgmt := bankB } }, .ok)
    else (s1, .wrongState)

/-- FIRMWARE_IMAGE (R448): the last segment of an image written to OD B030.00 in session `sid`, or, with no session, an
image given to the recovery service of R446. -/
def execFirmwareImage (sid : Option (BitVec 32)) (i : FwImage) (s : State) : Host.Outcome State Fault Refusal :=
  match sid with
  | some x => if encryptedSession s x.toNat then answered (installImage s i) else answered (s, .notPermitted)
  | none => if s.sec.recovery then answered (installImage s i) else answered (s, .notPermitted)

/-- R449: revoke a key slot. -/
def revokeSlot (s : State) (sid k : Nat) : State × Status :=
  if !encryptedSession s sid then (s, .notPermitted)
  else if 3 < k then (s, .outOfRange)
  else
    let left := (List.range 4).any fun j =>
      decide (j ≠ k) && !s.sec.revoked.contains j && (tabFind? j s.sec.fuseHash).isSome
    if left then ({ s with sec := { s.sec with revoked := setInsert k s.sec.revoked } }, .ok) else (s, .wrongState)

/-- REVOKE_KEY_SLOT (R449): COMMAND on OD B012.01. -/
def execRevokeKeySlot (sid : BitVec 32) (k : Byte) (s : State) : Host.Outcome State Fault Refusal :=
  answered (revokeSlot s sid.toNat k.toNat)

/-! ### Certified configuration (R456, R457) -/

/-- R456: one record applied, if it names a stored-certified entry with a value in range. -/
def certRecord (c : CertConfig) (r : Nat × Nat) : Option CertConfig :=
  match r.1 with
  | 1 => if r.2 < 2 ^ 256 then some { c with ownerHash := BitVec.ofNat 256 r.2 } else none
  | 2 => if r.2 ≤ 1 then some { c with approved := decide (r.2 = 1) } else none
  | 3 => if r.2 ≤ 2 then some { c with debugPolicy := r.2 } else none
  | 4 => if r.2 < 2 ^ 256 then some { c with debugHash := BitVec.ofNat 256 r.2 } else none
  | 5 => if r.2 < 2 ^ 96 then some { c with ideRequired := BitVec.ofNat 96 r.2 } else none
  | 6 => if r.2 < 2 ^ 16 then some { c with encRequired := BitVec.ofNat 16 r.2 } else none
  | 7 => if r.2 < 2 ^ 64 then some { c with generation := BitVec.ofNat 64 r.2 } else none
  | _ => none

/-- R456: every record applied in order, or none. -/
def certRecords : CertConfig → List (Nat × Nat) → Option CertConfig
  | c, [] => some c
  | c, r :: t =>
    match certRecord c r with
    | some d => certRecords d t
    | none => none

/-- R457: the signature verified under a key that may sign packages. -/
def packageSigned (s : State) (p : CertPackage) : Bool :=
  p.signatureOk &&
    (if s.sec.cert.ownerHash = 0 then
      (List.range 4).any fun k => !s.sec.revoked.contains k && decide (tabFind? k s.sec.fuseHash = some p.signerHash)
    else decide (p.signerHash = s.sec.cert.ownerHash))

/-- R457: a package is accepted whole, for the next reset, or refused. -/
def certPackage (s : State) (sid : Nat) (p : CertPackage) : State × Status :=
  if !encryptedSession s sid then (s, .notPermitted)
  else if !(p.magicOk && p.deviceOk && packageSigned s p && decide (s.sec.cert.generation.toNat < p.generation.toNat)) then
    (s, .wrongState)
  else
    match certRecords (s.sec.certNext.getD s.sec.cert) p.records with
    | none => (s, .wrongState)
    | some c =>
      if holdupPasses s p.size then
        ({ s with sec := { s.sec with certNext := some { c with generation := p.generation } } }, .ok)
      else (bumpC s 0xC02A 1, .holdupLow)

/-- CERTIFIED_PACKAGE (R457): the last segment of a package written to OD B020.00. -/
def execCertifiedPackage (sid : BitVec 32) (p : CertPackage) (s : State) : Host.Outcome State Fault Refusal :=
  answered (certPackage s sid.toNat p)

/-! ### SPDM (R452 to R455) -/

/-- The connection numbered `c`. -/
def spdmConn (s : State) (c : Nat) : SpdmConn := tabGet spdmReset c s.sec.spdm

/-- Change connection `c` and send its answer. -/
def spdmAnswer (s : State) (c : Nat) (x : SpdmConn) (r : SpdmReply) : State :=
  emit { s with sec := { s.sec with spdm := tabSet spdmReset c x s.sec.spdm, spdmReply := tabPut c r s.sec.spdmReply } } (.spdm c r)

/-- R453, R454: answer a request that only a connection with negotiated algorithms may make. -/
def spdmReady (s : State) (c : Nat) (f : SpdmConn → Nat → State) : State :=
  let x := spdmConn s c
  match x.latched, x.slot with
  | false, some k => f x k
  | _, _ => spdmAnswer s c x .unexpectedRequest

/-- R454: a connection whose algorithms were refused answers every request with UnexpectedRequest until GET_VERSION. -/
def unlessLatched (s : State) (c : Nat) (t : State) : State :=
  let x := spdmConn s c
  if x.latched then spdmAnswer s c x .unexpectedRequest else t

/-- R451, R453: sign with the key of slot `k`: one signing at a time. -/
def spdmSign (s : State) (c : Nat) (x : SpdmConn) (k : Nat) (r : SpdmReply) : State :=
  if s.time.clock < s.sec.signUntil then spdmAnswer s c x .responseNotReady
  else
    let dur := if k = 0 then 20000000 else 2000000
    spdmAnswer { s with sec := { s.sec with signUntil := s.time.clock + dur } } c x r

/-- R444: refused with BUSY once a health test has failed. -/
def spdmRandom (s : State) (c : Nat) (x : SpdmConn) (next : State) : State :=
  if s.sec.healthFailed then spdmAnswer s c x .busyError else next

/-- GET_VERSION (R452, R453): SPDM versions 1.2 and 1.3; a new connection starts. -/
def execGetVersion (c : Nat) (s : State) : Host.Outcome State Fault Refusal :=
  .next (spdmAnswer s c { spdmReset with versioned := true, sessions := (spdmConn s c).sessions } .version)

/-- GET_CAPABILITIES (R453) at SPDM version `v` (0x12 or 0x13). -/
def execGetCapabilities (c : Nat) (v : Byte) (s : State) : Host.Outcome State Fault Refusal :=
  let x := spdmConn s c
  if x.latched || !x.versioned then .next (spdmAnswer s c x .unexpectedRequest)
  else if v = 0x12 ∨ v = 0x13 then .next (spdmAnswer s c { x with capable := true, version := v.toNat } .capabilities)
  else .next (spdmAnswer s c x .invalidRequest)

/-- NEGOTIATE_ALGORITHMS (R454): a requester that selects 128s is served from slot 0, 128f from slot 1; neither latches the
connection. -/
def execNegotiateAlgorithms (c : Nat) (algs : List (BitVec 16)) (s : State) : Host.Outcome State Fault Refusal :=
  let x := spdmConn s c
  if x.latched || !x.capable then .next (spdmAnswer s c x .unexpectedRequest)
  else if algs.contains 0x5301 then .next (spdmAnswer s c { x with slot := some 0 } (.algorithms 0))
  else if algs.contains 0x5302 then .next (spdmAnswer s c { x with slot := some 1 } (.algorithms 1))
  else .next (spdmAnswer s c { x with slot := none, latched := true } .invalidRequest)

/-- GET_DIGESTS (R453). -/
def execGetDigests (c : Nat) (s : State) : Host.Outcome State Fault Refusal :=
  .next (spdmReady s c fun x _ => spdmAnswer s c x .digests)

/-- GET_CERTIFICATE (R451): part of the chain of an SPDM slot, at most what it holds from the offset. -/
def execGetCertificate (c : Nat) (slot : Fin 16) (offset length : BitVec 16) (s : State) :
    Host.Outcome State Fault Refusal :=
  .next (spdmReady s c fun x _ =>
    if h : slot.val < 2 then
      let n := (Config.certChain ⟨slot.val, h⟩).length
      if offset.toNat < n then
        spdmAnswer s c x (.certificate slot offset.toNat (min length.toNat (n - offset.toNat)))
      else spdmAnswer s c x .invalidRequest
    else spdmAnswer s c x .invalidRequest)

/-- CHALLENGE (R453). -/
def execChallenge (c : Nat) (s : State) : Host.Outcome State Fault Refusal :=
  .next (spdmReady s c fun x k => spdmRandom s c x (spdmSign s c x k (.challengeAuth k)))

/-- R456: the stored-certified entries in index order, as bytes. -/
def certBytes (c : CertConfig) : List Byte :=
  leBytes 32 c.ownerHash.toNat ++ leBytes 1 (if c.approved then 1 else 0) ++ leBytes 1 c.debugPolicy ++
    leBytes 32 c.debugHash.toNat ++ leBytes 12 c.ideRequired.toNat ++ leBytes 2 c.encRequired.toNat ++
    leBytes 8 c.generation.toNat

/-- R455: the value of measurement block `i`. -/
def measurement (s : State) (i : Nat) : Nat :=
  match i with
  | 1 => Config.bootRomIdentity.toNat
  | 2 => match tabFind? 1 s.sec.running with | some f => f.measurement.toNat | none => 0
  | 3 => match tabFind? 2 s.sec.running with | some f => f.measurement.toNat | none => 0
  | 4 => (Config.sha256 (certBytes s.sec.cert)).toNat
  | 5 => (List.range 64).foldl (fun v k => v + tabGet 0 k s.sec.counters * 256 ^ k) 0
  | 6 => if s.sec.unlocked then 1 + s.sec.permissions.toNat * 256 else 0
  | _ => if approvedMode s then 1 else 0

/-- GET_MEASUREMENTS (R455): block `op` 1 to 7, the number of blocks for 0, every block for 255. -/
def execGetMeasurements (c : Nat) (op : Byte) (signed : Bool) (s : State) : Host.Outcome State Fault Refusal :=
  .next (spdmReady s c fun x k =>
    let o := op.toNat
    let blocks? : Option (List (Nat × Nat)) :=
      if o = 0 then some [(0, 7)]
      else if o ≤ 7 then some [(o, measurement s o)]
      else if o = 255 then some ((List.range 7).map fun i => (i + 1, measurement s (i + 1)))
      else none
    match blocks? with
    | none => spdmAnswer s c x .invalidRequest
    | some b =>
      if signed then spdmRandom s c x (spdmSign s c x k (.measurements b true)) else spdmAnswer s c x (.measurements b false))

/-- KEY_EXCHANGE (R453): a secure session opens and awaits FINISH. -/
def execKeyExchange (c : Nat) (s : State) : Host.Outcome State Fault Refusal :=
  .next (spdmReady s c fun x k =>
    spdmRandom s c x
      (if s.time.clock < s.sec.signUntil then spdmAnswer s c x .responseNotReady
       else
        let id := s.sec.nextSpdm
        spdmSign { s with sec := { s.sec with nextSpdm := id + 1 } } c { x with opening := x.opening ++ [id] } k
          (.keyExchange id)))

/-- FINISH (R453): `verified`: the requester's verify data is good. -/
def execFinish (c sid : Nat) (verified : Bool) (s : State) : Host.Outcome State Fault Refusal :=
  let x := spdmConn s c
  if x.latched then .next (spdmAnswer s c x .unexpectedRequest)
  else if x.opening.contains sid then
    if verified then .next (spdmAnswer s c { x with opening := setRemove sid x.opening, sessions := setInsert sid x.sessions } .finish)
    else .next (spdmAnswer s c { x with opening := setRemove sid x.opening } .invalidRequest)
  else .next (spdmAnswer s c x .unexpectedRequest)

/-- A message that belongs to an established secure session. -/
def spdmInSession (s : State) (c sid : Nat) (r : SpdmReply) : State :=
  let x := spdmConn s c
  if !x.latched && x.sessions.contains sid then spdmAnswer s c x r else spdmAnswer s c x .unexpectedRequest

/-- HEARTBEAT (R453). -/
def execHeartbeat (c sid : Nat) (s : State) : Host.Outcome State Fault Refusal := .next (spdmInSession s c sid .heartbeat)

/-- KEY_UPDATE (R453). -/
def execKeyUpdate (c sid : Nat) (s : State) : Host.Outcome State Fault Refusal := .next (spdmInSession s c sid .keyUpdate)

/-- R403, R465: every Sprineno session bound to SPDM session `sid` closes. -/
def spdmSessionEnds (s : State) (sid : Nat) : State :=
  { s with spr := { s.spr with
      sessions := s.spr.sessions.filter fun x => decide (x.spdm ≠ some sid)
      segs := s.spr.segs.filter fun g =>
        s.spr.sessions.any fun x => decide (x.id = g.session) && decide (x.spdm ≠ some sid) } }

/-- END_SESSION (R453, R465). -/
def execEndSession (c sid : Nat) (s : State) : Host.Outcome State Fault Refusal :=
  let x := spdmConn s c
  if !x.latched && x.sessions.contains sid then
    .next (spdmAnswer (spdmSessionEnds s sid) c { x with sessions := setRemove sid x.sessions } .endSession)
  else .next (spdmAnswer s c x .unexpectedRequest)

/-- CHUNK_SEND (R453): one chunk of a large request, in order, at most 4,096 bytes, 65,536 in all; the request itself then
arrives as its own command. -/
def execChunkSend (c seq : Nat) (data : List Byte) (last : Bool) (s : State) : Host.Outcome State Fault Refusal :=
  let x := spdmConn s c
  if x.latched then .next (spdmAnswer s c x .unexpectedRequest)
  else if seq = x.chunkNext ∧ data.length ≤ 4096 ∧ x.chunkIn.length + data.length ≤ 65536 then
    .next (spdmAnswer s c { x with chunkIn := if last then [] else x.chunkIn ++ data, chunkNext := if last then 0 else seq + 1 }
      .chunkAck)
  else .next (spdmAnswer s c { x with chunkIn := [], chunkNext := 0 } .invalidRequest)

/-- CHUNK_GET (R453): the next chunk of a large response of `total` bytes. -/
def execChunkGet (c seq total : Nat) (s : State) : Host.Outcome State Fault Refusal :=
  let x := spdmConn s c
  let left := if seq = 0 then min total 65536 else x.chunkOut
  if x.latched then .next (spdmAnswer s c x .unexpectedRequest)
  else if (seq = 0 ∨ seq = x.chunkOutSeq) ∧ 0 < left then
    let n := min left 4096
    .next (spdmAnswer s c { x with chunkOut := left - n, chunkOutSeq := seq + 1 } (.chunk seq n))
  else .next (spdmAnswer s c x .invalidRequest)

/-- VENDOR_DEFINED_REQUEST (R453). -/
def execVendorDefinedRequest (c : Nat) (s : State) : Host.Outcome State Fault Refusal :=
  .next (spdmReady s c fun x _ => spdmAnswer s c x .vendor)

/-- SPDM_UNSUPPORTED_REQUEST (R453): any other message. -/
def execSpdmUnsupportedRequest (c : Nat) (s : State) : Host.Outcome State Fault Refusal :=
  .next (unlessLatched s c (spdmAnswer s c (spdmConn s c) .unsupportedRequest))

/-! ### CXL IDE (R458, R459) -/

/-- R458: the root's hash is an entry of the trust-anchor list (OD B060.00); an entry of zeros is free. -/
def trustAnchor (s : State) (root : BitVec 256) : Bool :=
  decide (root ≠ 0) && (List.range 16).any fun i => decide (odGet s 0xB060 0 / 2 ^ (256 * i) % 2 ^ 256 = root.toNat)

/-- R458: what a key-management message does to a port's IDE. -/
def ideStep (s : State) (x : IdePort) (op : IdeOp) : IdePort :=
  let k (b : Bool) : Nat := if b then 1 else 0
  match op with
  | .chain root => { x with trusted := trustAnchor s root }
  | .program stream set => { x with programmed := setInsert (stream * 2 + k set) x.programmed }
  | .go set => if x.programmed.any (fun n => decide (n % 2 = k set)) then { x with established := true, keySet := set } else x
  | .stop => { x with established := false, programmed := [] }

/-- R458: the op answers the expander's certificate chain. -/
def chainOp : IdeOp → Bool
  | .chain _ => true
  | _ => false

/-- The IDE of port `p`. -/
def setIde (s : State) (p : Nat) (y : IdePort) : State := { s with sec := { s.sec with ide := tabSet ideReset p y s.sec.ide } }

/-- IDE_KM (R458): a key-management message for port `p`. At an upstream port the device responds, over SPDM secure session `sid`
of connection `c`; at a POOL port it is the requester, and goes on only with an expander whose certificate chain it has accepted;
bindable ports support no IDE. -/
def execIdeKm (p : Fin 96) (c sid : Nat) (op : IdeOp) (s : State) : Host.Outcome State Fault Refusal :=
  let x := idePort s p
  if poolPort s p then
    if chainOp op || x.trusted then .next (setIde s p (ideStep s x op)) else .next s
  else if !(spdmConn s c).sessions.contains sid then .next (spdmAnswer s c (spdmConn s c) .unexpectedRequest)
  else if decide (odGet s (0x2100 + p.val) 1 = 1) && !chainOp op then
    .next (spdmAnswer (setIde s p (ideStep s x op)) c (spdmConn s c) .vendor)
  else .next (spdmAnswer s c (spdmConn s c) .unsupportedRequest)

/-- IDE_CHECK_FAILURE (R459): the link goes down and F(p) reports cause 3. -/
def execIdeCheckFailure (p : Fin 96) (s : State) : Host.Outcome State Fault Refusal :=
  if (idePort s p).established then
    let s1 := { s with sec := { s.sec with ide := tabSet ideReset p.val ideReset s.sec.ide } }
    .next (raiseFault (portDown s1 p) p.val 3 (2 ^ 28))
  else .next s

/-! ### Debug (R466 to R468) and health tests (R444) -/

/-- R468: seconds left of the token's lifetime. -/
def debugSeconds (s : State) : Nat :=
  if s.sec.unlocked then (s.sec.expiresAt - s.time.clock + 999999999) / 1000000000 else 0

/-- R468: OD B050.03. -/
def debugState (s : State) : Nat := (if s.sec.unlocked then 2 ^ 63 else 0) + debugSeconds s

/-- R468: the log entry and notify of a change of debug state. -/
def debugChanged (s : State) : State :=
  notify (logInfo s 0xFFFF Config.unlistedLogCode.toNat (BitVec.ofNat 192 (debugState s))) 0xB050 3 (debugState s) 0

/-- R466: the token is accepted. -/
def tokenAccepted (s : State) (t : DebugToken) : Bool :=
  t.formOk && t.signatureOk && t.deviceOk && decide (t.nonce = s.sec.nonce) &&
    decide (1 ≤ t.lifetime) && decide (t.lifetime ≤ 86400) && decide (t.permissions.toNat < 8) &&
    (if t.owner then decide (1 ≤ s.sec.cert.debugPolicy) && decide (t.keyHash = s.sec.cert.debugHash)
     else decide (s.sec.cert.debugPolicy = 2) &&
       (List.range 4).any fun k => !s.sec.revoked.contains k && decide (tabFind? k s.sec.fuseHash = some t.keyHash))

/-- R466, R468: a token is presented. -/
def presentToken (s : State) (t : DebugToken) : State × Status :=
  if tokenAccepted s t then
    (debugChanged { s with sec := { s.sec with unlocked := true, permissions := t.permissions,
                                               expiresAt := s.time.clock + t.lifetime * 1000000000 } }, .ok)
  else (logInfo s 0xFFFF Config.unlistedLogCode.toNat 0, .wrongState)

/-- DEBUG_TOKEN (R466): through the security mailbox (no session), or by OD B050.00 in an ENCRYPTED session. -/
def execDebugToken (sid : Option (BitVec 32)) (t : DebugToken) (s : State) : Host.Outcome State Fault Refusal :=
  match sid with
  | some x => if encryptedSession s x.toNat then answered (presentToken s t) else answered (s, .notPermitted)
  | none => answered (presentToken s t)

/-- R468: debug is locked. -/
def lockDebug (s : State) : State :=
  if s.sec.unlocked then debugChanged { s with sec := { s.sec with unlocked := false, permissions := 0, expiresAt := 0 } }
  else s

/-- LOCK_DEBUG (R468): COMMAND on OD B050.01. -/
def execLockDebug (s : State) : Host.Outcome State Fault Refusal := answered (lockDebug s, .ok)

/-- DEBUG_TOKEN_EXPIRE (R468): the token's lifetime ends. -/
def execDebugTokenExpire (s : State) : Host.Outcome State Fault Refusal := .next (lockDebug s)

/-- HEALTH_TEST_FAILURE (R444, R469): F451 with cause 3; random numbers are refused until reset. -/
def execHealthTestFailure (s : State) : Host.Outcome State Fault Refusal :=
  .next (raiseFault { s with sec := { s.sec with healthFailed := true } } 451 3 0)

end Sys2Proof.Machine
end

