-- ==== Sys2Proof/Machine/SecFormats.lean ====
section
/-!
DEFINITION. Machine/SecFormats.lean: the byte layouts of firmware images (R445), certified-configuration packages (R457) and
debug tokens (R466), as a segmented write brings them.
-/

namespace Sys2Proof.Machine

/-- `n` bytes from offset `o`. -/
def byteSlice (b : List Byte) (o n : Nat) : List Byte := (b.drop o).take n

/-- The little-endian number of the `n` bytes from offset `o`. -/
def leAt (b : List Byte) (o n : Nat) : Nat := leValue (byteSlice b o n)

/-- R445: the length of an SLH-DSA-SHA2-128s signature, of a 128f one (R466), and of a public key. -/
def sigSmall : Nat := 7856
def sigFast : Nat := 17088
def keyLength : Nat := 32

/-- R445: the image that the bytes spell, with what the checks of its header, hash and signature give. The header is 64 bytes,
little-endian: the payload hash lowest, the magic highest. -/
def parseImage (b : List Byte) : FwImage :=
  let len := leAt b 48 4
  let payload := byteSlice b 64 len
  let whole := decide (b.length = 64 + len + sigSmall + keyLength)
  let kind := leAt b 58 1
  { kind := kind
    counter := leAt b 57 1 / 4
    svn := leAt b 55 1
    keySlot := leAt b 54 1
    keyHash := Config.sha256 (byteSlice b (64 + len + sigSmall) keyLength)
    headerOk := whole && decide (leAt b 60 4 = 0x5E17A0C4) && decide (leAt b 59 1 = 1) && decide (len ≤ 4186352)
    hashOk := decide ((Config.sha256 payload).toNat = leAt b 0 32)
    signatureOk := Config.slhDsaVerifies false (byteSlice b (64 + len + sigSmall) keyLength)
      (byteSlice b (64 + len) sigSmall) (b.take (64 + len))
    measurement := Config.sha256 (b.take (64 + len))
    size := b.length }

/-- R387, R456: type code and length in bytes of the value of entry B010.`sub`. -/
def certForm : Nat → Nat × Nat
  | 1 => (0xA, 32) | 2 => (1, 1) | 3 => (2, 1) | 4 => (0xA, 32) | 5 => (0xA, 12) | 6 => (3, 2) | 7 => (5, 8) | _ => (0, 0)

/-- R457: `n` records of the layout of R399; `none` where one does not parse. The second component is what follows them. -/
def parseRecords : Nat → List Byte → Option (List (Nat × Nat) × List Byte)
  | 0, b => some ([], b)
  | n + 1, b =>
    let sub := leAt b 2 1
    let len := leAt b 4 2
    let room := (len + 3) / 4 * 4
    if b.length < 8 + room ∨ leAt b 0 2 ≠ 0xB010 ∨ certForm sub ≠ (leAt b 3 1, len) then none
    else
      match parseRecords n (b.drop (8 + room)) with
      | some (rs, t) => some ((sub, leAt b 8 len) :: rs, t)
      | none => none

/-- R457: the package that the bytes spell: a header of 64 bytes, its records, the signature over both and the public key
(DEDUCED: always after the signature). -/
def parsePackage (b : List Byte) : CertPackage :=
  match parseRecords (leAt b 48 4) (b.drop 64) with
  | none =>
    { magicOk := false, generation := 0, deviceOk := false, records := [], signatureOk := false, signerHash := 0
      size := b.length }
  | some (rs, t) =>
    let signed := b.length - t.length
    let key := byteSlice t sigSmall keyLength
    { magicOk := decide (leAt b 0 4 = 0xC0E71A55) && decide (t.length = sigSmall + keyLength)
      generation := BitVec.ofNat 64 (leAt b 8 8)
      deviceOk := decide (leAt b 16 32 = Config.deviceIdentifier.toNat)
      records := rs
      signatureOk := Config.slhDsaVerifies false key (byteSlice t 0 sigSmall) (b.take signed)
      signerHash := Config.sha256 key
      size := b.length }

/-- R466: the other bytes of a token's body are zero. -/
def tokenZeros (b : List Byte) : Bool :=
  decide (leAt b 6 2 = 0) && decide (leAt b 20 4 = 0) && decide (leAt b 64 32 = 0)

/-- R466: the token that the bytes spell. -/
def parseToken (b : List Byte) : DebugToken :=
  let fast := decide (leAt b 4 1 = 1)
  let sig := if fast then sigFast else sigSmall
  let key := byteSlice b (96 + sig) keyLength
  { formOk := decide (leAt b 0 4 = 0xDB610C3E) && decide (leAt b 4 1 ≤ 1) && decide (leAt b 5 1 ≤ 1) && tokenZeros b &&
      decide (b.length = 96 + sig + keyLength)
    owner := decide (leAt b 5 1 = 1)
    permissions := BitVec.ofNat 64 (leAt b 8 8)
    lifetime := leAt b 16 4
    nonce := BitVec.ofNat 64 (leAt b 24 8)
    deviceOk := decide (leAt b 32 32 = Config.deviceIdentifier.toNat)
    keyHash := Config.sha256 key
    signatureOk := Config.slhDsaVerifies fast key (byteSlice b 96 sig) (b.take 96) }

end Sys2Proof.Machine
end

