-- ==== Sys2Proof/Machine/Entries.lean ====
section
/-!
DEFINITION. Machine/Entries.lean: what each entry of the object dictionary reads as, and what a write or a COMMAND to it does: the
same operations that the commands with a row of their own perform (R386 to R396, R405).
-/

namespace Sys2Proof.Machine

/-! ### Reading scalars -/

/-- R338: the state that entries report: while the main domain is off, its values are the last ones. -/
def shown (s : State) : State :=
  match s.last with
  | none => s
  | some l =>
    { s with
      fab := { l.fab with links0 := s.fab.links0, links1 := s.fab.links1, src0 := s.fab.src0, src1 := s.fab.src1 }
      swc := l.swc, dir := l.dir, aul := l.aul
      map := { l.map with
        guardActive := s.map.guardActive, guardShadow := s.map.guardShadow, shadowDefault := s.map.shadowDefault }
      mov := { l.mov with ctx := s.mov.ctx }
      ven := { l.ven with setOwner := s.ven.setOwner } }

/-- R393: the entries that hold one value for each session. -/
def sessionScoped (idx sub : Nat) : Bool :=
  match idx with
  | 0x2010 => decide (1 ≤ sub) && decide (sub ≤ 6) && decide (sub ≠ 5)
  | 0x4021 => decide (sub = 1) || decide (sub = 2)
  | 0x5010 => decide (sub = 1)
  | 0x5021 => decide (1 ≤ sub) && decide (sub ≤ 6) && decide (sub ≠ 4)
  | 0x7001 => decide (sub = 1)
  | 0x7002 => decide (sub = 1)
  | 0x7020 => decide (1 ≤ sub) && decide (sub ≤ 6) && decide (sub ≠ 5)
  | 0x7021 => decide (1 ≤ sub) && decide (sub ≤ 3)
  | 0x7022 => decide (1 ≤ sub) && decide (sub ≤ 2)
  | _ => false

/-- R276: the number of a queue state. -/
def queueStCode : QueueSt → Nat
  | .disabled => 0 | .enabled => 1 | .stopping => 2 | .error => 3

/-- An owner function held as its number plus 1, as OD 7001.02 reports it. -/
def ownerCode (o : Nat) : Nat := if o = 0 then 0xFFFF else o - 1

/-- A signed value in two's complement of 16 bits (R387). -/
def signed16 (v : Int) : Nat := (BitVec.ofInt 16 v).toNat

/-- R365: the number of a level. -/
def levelCode : Level → Nat
  | .p0 => 0 | .p1 => 1 | .p2 => 2

/-- A mask with the bits of a list. -/
def maskOf (l : List Nat) : Nat := l.foldl (fun m n => m ||| 2 ^ n) 0

/-- Entries of indices 1000 to 3FFF whose value is worked out from the rest of the state. -/
def lowEntry (s : State) (idx sub : Nat) : Option Nat :=
  let sh := shown s
  if idx = 0x1000 ∧ sub = 5 then some Config.hardwareRevision.toNat
  else if idx = 0x1000 ∧ sub = 6 then
    some (Config.firmwareVersion (match tabFind? 2 s.sec.running with | some f => f.measurement | none => 0)).toNat
  else if idx = 0x1100 ∧ sub = 2 then some s.spr.sessions.length
  else if (idx = 0x1110 ∨ idx = 0x1111) ∧ sub = 9 then some (if Config.ethernetLink (idx - 0x1110) s.time.clock then 1 else 0)
  else if 0x2200 ≤ idx ∧ idx < 0x2240 ∧ sub = 2 then
    some (match upstreamPort s (idx - 0x2200) with | some p => if odGet s (portIdx p) 1 = 1 then p else 0xFF | none => 0xFF)
  else if idx = 0x3011 then some (cellsInUse sh (sub - 1))
  else if idx = 0x3033 ∧ sub = 4 then some (oldEpochDrain sh)
  else if idx = 0x3034 then some (islandDrain sh (sub - 1))
  else if 0x3200 ≤ idx ∧ idx < 0x3260 then some (activeLimit sh (idx - 0x3200) (sub - 1))
  else if 0x3260 ≤ idx ∧ idx < 0x3270 then some (activeLimit sh (96 + (idx - 0x3260)) (sub - 1))
  else none

/-- Entries of indices 5000 to 7FFF whose value is worked out from the rest of the state; `x` is the session that reads. -/
def midEntry (s : State) (x : Session) (idx sub : Nat) : Option Nat :=
  let sh := shown s
  if idx = 0x5010 ∧ sub = 2 then some (backing sh (sessGet s x.id 0x5010 1)).toNat
  else if idx = 0x5030 ∧ sub = 5 then some s.map.shadowDefault
  else if 0x6100 ≤ idx ∧ idx < 0x6110 ∧ sub = 0x18 then some (aulPort sh (idx - 0x6100)).replay.length
  else if idx = 0x7001 ∧ 2 ≤ sub then
    let q := sq sh (sessGet s x.id 0x7001 1)
    match sub with
    | 2 => some (ownerCode q.owner * 2 ^ 16 + q.loc)
    | 3 => some (queueStCode q.st)
    | 4 => some q.p.toNat
    | _ => some q.c.toNat
  else if idx = 0x7002 ∧ 2 ≤ sub then
    let q := cq sh (sessGet s x.id 0x7002 1)
    match sub with
    | 2 => some (queueStCode q.st + (if q.full then 16 else 0))
    | 3 => some q.slots
    | _ => some q.d.toNat
  else if 0x7800 ≤ idx ∧ idx < 0x7C40 ∧ sub = 4 then some ((heldSet s (idx - 0x7800)).getD 0xFFFF)
  else none

/-- Entries of indices 8000 to 9FFF whose value is worked out from the rest of the state. -/
def powerEntry (s : State) (idx sub : Nat) : Option Nat :=
  match idx, sub with
  | 0x8000, 1 => some s.pow.vin12.mV
  | 0x8000, 2 => some s.pow.vin12.mA
  | 0x8000, 3 => some s.pow.vaux.mV
  | 0x8000, 4 => some s.pow.vaux.mA
  | 0x8000, 5 => some s.pow.powAvg
  | 0x8010, 1 => some s.pow.step
  | 0x8021, i =>
    let lo := odGet s 0x8020 1
    some (lo + Config.ringClock (i - 1) s.time.clock % (odGet s 0x8020 2 - lo + 1))
  | 0x8030, 1 => some s.pow.resMv
  | 0x8030, 2 => some (eu s)
  | 0x8030, 3 => some s.pow.capUf
  | 0x8101, 1 => some s.pow.gov.power
  | 0x8101, 2 => some s.pow.gov.pfc
  | 0x8101, 3 => some s.pow.gov.budget
  | 0x8101, 4 => some s.pow.gov.factor
  | 0x8104, i => some (s.pow.gov.grants.getD (i - 1) 0)
  | 0x8110, i => some (signed16 (sensorTemp s (i - 1)))
  | 0x9001, i => some (tabGet [] (i - 1) s.mgmt.outstanding).length
  | 0x9002, i => some (if (coreSt s (i - 1)).activeB then 1 else 0)
  | 0x9003, i => some (coreSt s (i - 1)).epoch.toNat
  | 0x9005, i => some (levelCode (coreSt s (i - 1)).level)
  | _, _ =>
    if 0x8200 ≤ idx ∧ idx < 0x8230 then
      let y := slotCh s (idx - 0x8200)
      match sub with
      | 0x18 => some (slotStateCode y.state)
      | 0x19 => some y.vin
      | 0x1A => some y.vout
      | 0x1B => some y.cur
      | 0x1C => some (signed16 y.temp)
      | 0x1D => some y.cause
      | 0x1E => some y.retries
      | _ => none
    else none

/-- Entries of indices A000 to CFFF whose value is worked out from the rest of the state. -/
def highEntry (s : State) (idx sub : Nat) : Option Nat :=
  let b (p : Bool) : Nat := if p then 1 else 0
  match idx, sub with
  | 0xA020, 3 => some s.flt.lastInterrupt
  | 0xA030, 1 => some (match s.flt.latch with | some l => l.1 | none => 0xFFFF)
  | 0xA030, 2 => some (match s.flt.latch with | some l => l.2.1.toNat | none => 0)
  | 0xA030, 3 => some (match s.flt.latch with | some l => l.2.2.toNat | none => 0)
  | 0xA030, 4 => some (b s.flt.overflow)
  | 0xA040, 2 => some (b s.flt.unlocked)
  | 0xA050, 3 => some (b s.flt.safe)
  | 0xA050, 4 => some s.flt.safeCause
  | 0xA061, 1 => some s.flt.nextSeq
  | 0xA061, 2 => some (b s.flt.frozen)
  | 0xA072, 1 => some s.flt.cullet.length
  | 0xB000, 2 => some Config.moduleVersion.toNat
  | 0xB001, 3 => some (b (approvedMode s))
  | 0xB010, 2 => some (b s.sec.cert.approved)
  | 0xB010, 3 => some s.sec.cert.debugPolicy
  | 0xB010, 6 => some s.sec.cert.encRequired.toNat
  | 0xB010, 7 => some s.sec.cert.generation.toNat
  | 0xB011, 3 => some (b s.sec.bootSec + 2 * b s.sec.bootMgmt)
  | 0xB012, 2 => some (maskOf s.sec.revoked)
  | 0xB050, 2 => some s.sec.nonce.toNat
  | 0xB050, 3 => some (debugState s)
  | 0xC050, 9 => some s.time.devTime.toNat
  | _, _ =>
    if 0xC000 ≤ idx ∧ idx < 0xC030 ∧ 1 ≤ sub then some (counter s (counterNo idx sub)).toNat else none

/-- R386, R393: the value of a scalar entry as session `x` reads it. -/
def entryValue (s : State) (x : Session) (idx sub : Nat) : Nat :=
  if sessionScoped idx sub then sessGet s x.id idx sub
  else
    match (if idx < 0x4000 then lowEntry s idx sub else if idx < 0x8000 then midEntry s x idx sub
           else if idx < 0xA000 then powerEntry s idx sub else highEntry s idx sub) with
    | some v => v
    | none => odGet s idx sub

/-- R398: the default that DESCRIBE gives: of an OD (7800 + n).04, the function's own set. -/
def entryDefault (idx sub : Nat) : Nat :=
  if 0x7800 ≤ idx ∧ idx < 0x7C40 ∧ sub = 4 then idx - 0x7800 else dictDefault idx sub

/-! ### Reading strings -/

/-- The bytes of an ASCII string (R387). -/
def asciiBytes (n : String) : List Byte := n.toList.map fun c => BitVec.ofNat 8 c.toNat

/-- R398: the 32 bytes of the serial number. -/
def serialBytes : List Byte := List.ofFn Config.serial

/-- R387: the bytes of an OCTET_STRING or VISIBLE_STRING entry. -/
def stringBytes (s : State) (idx sub : Nat) : List Byte :=
  match idx, sub with
  | 0x1000, 1 => asciiBytes "Uhlex"
  | 0x1000, 2 => asciiBytes "FJQ-9640"
  | 0x1000, 3 => asciiBytes "FJQ-9640-LC"
  | 0x1000, 4 => serialBytes
  | 0x1110, 8 => leBytes 6 (Config.macAddress 0).toNat
  | 0x1111, 8 => leBytes 6 (Config.macAddress 1).toNat
  | 0xB000, 1 => asciiBytes "Fjarique FJQ-9640 Security Core"
  | 0xB002, 1 => leBytes 32 Config.deviceIdentifier.toNat
  | 0xB010, 1 => leBytes 32 s.sec.cert.ownerHash.toNat
  | 0xB010, 4 => leBytes 32 s.sec.cert.debugHash.toNat
  | 0xB010, 5 => leBytes 12 s.sec.cert.ideRequired.toNat
  | 0xB011, 2 => (List.range 64).map fun k => BitVec.ofNat 8 (tabGet 0 k s.sec.counters)
  | 0xC050, 8 => leBytes 8 s.time.grandmaster.toNat
  | _, _ => leBytes 16 (odGet s idx sub)

/-- R387: the number of value bytes of a scalar type; 0 for strings and DOMAINs. -/
def typeBytes : OdType → Nat
  | .boolean => 1 | .u8 => 1 | .u16 => 2 | .u32 => 4 | .u64 => 8 | .i8 => 1 | .i16 => 2 | .i32 => 4 | .i64 => 8
  | .octets => 0 | .visible => 0 | .domain => 0

/-- R399: the value bytes of an entry. -/
def entryBytes (s : State) (x : Session) (idx sub : Nat) (r : DictRow) : List Byte :=
  match r.type with
  | .octets => stringBytes s idx sub
  | .visible => stringBytes s idx sub
  | t => leBytes (typeBytes t) (entryValue s x idx sub)

/-- R388: a read of an rwc object clears it. -/
def odClear (s : State) (idx sub : Nat) : State := odSet s idx sub 0

/-! ### Versions (R396) -/

/-- R396: a session below 2.0 and a value that the old meaning cannot express. -/
def versionConflict (s : State) (x : Session) (idx sub v : Nat) : Bool :=
  decide (x.odVersion < 0x0200) &&
    ((decide (idx = 0x6000) && decide (sub = 1) && decide (odGet s 0x6000 2 = 1)) ||
     (decide (idx = 0x3050) && decide (sub = 1) && decide (1024 < v)))

/-- R396: a read tests the current value. -/
def readConflict (s : State) (x : Session) (idx sub : Nat) : Bool := versionConflict s x idx sub (odGet s idx sub)

/-- R396: a write tests the value being written. -/
def writeConflict (s : State) (x : Session) (idx sub v : Nat) : Bool := versionConflict s x idx sub v

/-! ### Writing scalars -/

/-- Set the entry, with no other effect. -/
def setPlain (s : State) (idx sub v : Nat) : State × Status := (odSet s idx sub v, .ok)

/-- Set the entry unless `p`; then `st`. -/
def setUnless (s : State) (idx sub v : Nat) (p : Bool) (st : Status) : State × Status :=
  if p then (s, st) else setPlain s idx sub v

/-- R403, R410: a change of the address settings of Ethernet port `e` closes the sessions that used the old address. -/
def addressWrite (s : State) (e sub v : Nat) : State × Status :=
  if odGet s (0x1110 + e) sub = v then (s, .ok)
  else
    let gone (x : Session) : Bool :=
      match x.transport with
      | .udp4 p _ _ => decide (p = e) && decide (sub ≤ 4)
      | .udp6 p _ _ => decide (p = e) && decide (5 ≤ sub)
      | _ => false
    (closeSessions (odSet s (0x1110 + e) sub v) gone, .ok)

/-- A base that is aligned to 2 MiB and lies in the local pool. -/
def granuleBase (v : Nat) : Bool := decide (v % 2 ^ 21 = 0) && decide (v < 2 ^ 48)

/-- A limit that ends a granule of the local pool and does not lie below `base`. -/
def granuleLimit (base v : Nat) : Bool := decide ((v + 1) % 2 ^ 21 = 0) && decide (v < 2 ^ 48) && decide (base ≤ v)

/-- R199, R200, R206: base and limit of a range, in subindices `b` and `b + 1`. -/
def rangeBad (base : Nat) (isLimit : Bool) (v : Nat) : Bool := if isLimit then !granuleLimit base v else !granuleBase v

/-- R135, R136: trace capture is enabled or disabled; enabling starts an empty ring. -/
def traceEnable (s : State) (v : Nat) : State :=
  if v = 1 ∧ odGet s 0x3050 3 = 0 then
    odSet (odSet (odSet { s with swc := { s.swc with ring := [], traceSeq := 0, lastTrace := none } } 0x3050 3 1) 0x3050 4 0) 0x3050 5 0
  else odSet s 0x3050 3 v

/-- R481: an input that is enabled counts its edges from 0. -/
def inputEnable (s : State) (i v : Nat) : State :=
  let s1 := if v = 1 ∧ odGet s (0xC060 + i) 1 = 0 then setTsi s i { tsi s i with edges := 0 } else s
  odSet s1 (0xC060 + i) 1 v

/-- R76 to R84: a write to an entry of OD (2100 + p). -/
def portEntryWrite (s : State) (p sub v : Nat) : State × Status :=
  match sub with
  | 1 => roleWrite s p v
  | 2 => widthWrite s p v
  | 3 => portConfig s p (.speed (BitVec.ofNat 8 v))
  | 4 => portConfig s p (.vcs (BitVec.ofNat 8 v))
  | 5 => portConfig s p (.slot (BitVec.ofNat 8 v))
  | 8 => portConfig s p (.poolMask (BitVec.ofNat 16 v))
  | 9 => portConfig s p (.perstDelay (BitVec.ofNat 16 v))
  | _ => setPlain s (0x2100 + p) sub v

/-- Writes to entries of indices 1000 to 3FFF. -/
def writeLow (s : State) (idx sub v : Nat) : State × Status :=
  if 0x1110 ≤ idx ∧ idx ≤ 0x1111 then addressWrite s (idx - 0x1110) sub v
  else if idx = 0x1120 then
    if v = 0 then (closeSessions (odSet s idx sub v) fun x => decide (x.transport = .usb), .ok) else setPlain s idx sub v
  else if 0x2100 ≤ idx ∧ idx < 0x2160 then
    portEntryWrite s (idx - 0x2100) sub v
  else if 0x2200 ≤ idx ∧ idx < 0x2240 ∧ sub = 1 then (vcsEnable s (idx - 0x2200) (decide (v = 1)), .ok)
  else if 0x2300 ≤ idx ∧ idx < 0x2340 then poolWindowWrite s (idx - 0x2300) (sub - 1) false v
  else if 0x2340 ≤ idx ∧ idx < 0x2380 then poolWindowWrite s (idx - 0x2340) (sub - 1) true v
  else if 0x2500 ≤ idx ∧ idx < 0x2540 then setUnless s idx sub v (decide (v % 2 ^ 21 ≠ 0) || decide (2 ^ 58 ≤ v)) .outOfRange
  else if 0x2540 ≤ idx ∧ idx < 0x2580 then setUnless s idx sub v (decide (v % 2 ^ 21 ≠ 0)) .outOfRange
  else if idx = 0x3031 then if v = 1 then requestClosed s (sub - 1) else requestOpen s (sub - 1)
  else if idx = 0x3050 ∧ sub = 1 then setUnless s idx sub v (decide (odGet s 0x3050 3 = 1)) .busy
  else if idx = 0x3050 ∧ sub = 3 then (traceEnable s v, .ok)
  else if 0x3060 ≤ idx ∧ idx < 0x30A0 ∧ sub = 7 then setUnless s idx sub v (decide (odGet s idx 8 < v)) .outOfRange
  else if 0x3060 ≤ idx ∧ idx < 0x30A0 ∧ sub = 8 then setUnless s idx sub v (decide (v < odGet s idx 7)) .outOfRange
  else setPlain s idx sub v

/-- R318: a write of the assignment of function `n`; of a base function it is read-only. -/
def assignmentWrite (s : State) (n v : Nat) : State × Status :=
  if 1024 ≤ n then (s, .readOnly)
  else if bits v 31 24 = 0xFF then functionUnassign s n
  else functionAssign s n (bits v 31 24) (bits v 10 0)

/-- R331: a write of Log enable of channel `c`. The LCB that the device then reads, and whether it can be read, is a free
value here (log entry 18). -/
def logEnableWrite (s : State) (c v : Nat) : State × Status :=
  if v = 0 then logDisable s c
  else
    let f (k : Nat) : BitVec 64 := Config.freeValue (s.fresh + k)
    let lcb : BitVec 512 := f 8 ++ f 7 ++ f 6 ++ f 5 ++ f 4 ++ f 3 ++ f 2 ++ f 1
    logEnable { s with fresh := s.fresh + 9 } c (if (f 0).getLsbD 0 then some lcb else none)

/-- Writes to the entries of a log channel (R331). -/
def writeLog (s : State) (c idx sub v : Nat) : State × Status :=
  match sub with
  | 0x10 => logEnableWrite s c v
  | _ => setUnless s idx sub v (decide ((logCh s c).state ≠ .off)) .busy

/-- Writes to entries of indices 4000 to 7FFF. -/
def writeMid (s : State) (x : Session) (idx sub v : Nat) : State × Status :=
  if idx = 0x4014 ∧ sub = 1 then setUnless s idx sub v (decide (v = 0)) .outOfRange
  else if ((0x4014 ≤ idx ∧ idx < 0x401C) ∨ (0x4030 ≤ idx ∧ idx < 0x4070)) ∧ (sub = 2 ∨ sub = 3) then
    setUnless s idx sub v (rangeBad (odGet s idx 2) (decide (sub = 3)) v) .outOfRange
  else if idx = 0x5010 ∧ sub = 2 then remapEntryWrite s (sessGet s x.id 0x5010 1) v
  else if idx = 0x5030 ∧ sub = 5 then
    if guardSwapping s then (s, .busy) else ({ s with map := { s.map with shadowDefault := v } }, .ok)
  else if idx = 0x6000 then numberingWrite s sub v
  else if 0x6100 ≤ idx ∧ idx < 0x6110 ∧ sub = 1 then
    if v = 1 then aulumEnable s (idx - 0x6100) else aulumDisable s (idx - 0x6100)
  else if 0x7400 ≤ idx ∧ idx < 0x7410 ∧ sub = 1 then unitOwner s (idx - 0x7400) v
  else if 0x7700 ≤ idx ∧ idx < 0x7740 then writeLog s (1024 + (idx - 0x7700)) idx sub v
  else if 0x7800 ≤ idx ∧ idx < 0x7C40 then
    let n := idx - 0x7800
    if sub = 1 then assignmentWrite s n v
    else if sub = 9 then setUnless s idx sub v (decide (odGet s (0x2200 + (n - 1024)) 1 = 1)) .portActive
    else if 0x10 ≤ sub then writeLog s n idx sub v
    else setPlain s idx sub v
  else setPlain s idx sub v

/-- R492: a reference mode changes only while every port of its island is DISABLED. -/
def islandBusy (s : State) (k : Nat) : Bool := (List.range 6).any fun i => decide (odGet s (portIdx (6 * k + i)) 1 ≠ 0)

/-- R348: the product of current limit and shunt stays within 5 mV to 100 mV (in nV: mA times µΩ). -/
def senseBad (ma uohm : Nat) : Bool := decide (ma * uohm < 5000000) || decide (100000000 < ma * uohm)

/-- Writes to entries of indices 8000 to FFFF. -/
def writeHigh (s : State) (idx sub v : Nat) : State × Status :=
  if idx = 0x8020 then
    setUnless s idx sub v (if sub = 1 then decide (odGet s idx 2 < v) else decide (v < odGet s idx 1)) .outOfRange
  else if idx = 0x8040 then setUnless s idx sub v (islandBusy s (sub - 1)) .portActive
  else if idx = 0x8111 then setUnless s idx sub v (decide (odGet s 0x8112 sub ≤ v)) .outOfRange
  else if 0x8200 ≤ idx ∧ idx < 0x8230 then
    let c := idx - 0x8200
    match sub with
    | 1 => (slotEnable s c (decide (v = 1)), .ok)
    | 2 => (slotSetRequest s c (decide (v = 1)) false, .ok)
    | 8 => setUnless s idx sub v (senseBad v (odGet s idx 9)) .outOfRange
    | _ => setPlain s idx sub v
  else if 0xC040 ≤ idx ∧ idx < 0xC048 then
    match sub with
    | 1 => (samplerEnable s (idx - 0xC040) (decide (v = 1)), .ok)
    | 5 => setPlain s idx sub v
    | _ => setUnless s idx sub v (decide (odGet s idx 1 = 1)) .busy
  else if idx = 0xC050 ∧ sub = 1 then
    let s1 := odSet s idx sub v
    (if v = 0xFF then toHoldover s1 else s1, .ok)
  else if 0xC060 ≤ idx ∧ idx < 0xC068 ∧ sub = 1 then (inputEnable s (idx - 0xC060) v, .ok)
  -- R9, R284: bits [31..13] of a doorbell value are reserved.
  else if 0xC060 ≤ idx ∧ idx < 0xC068 ∧ sub = 5 then setPlain s idx sub (v % 2 ^ 13)
  else setPlain s idx sub v

/-- R388: a write of a scalar entry whose value is in its stated range, under the rules of its chapter. -/
def writeEntry (s : State) (x : Session) (idx sub v : Nat) : State × Status :=
  if sessionScoped idx sub then
    if idx = 0x4021 ∧ rangeBad (sessGet s x.id 0x4021 1) (decide (sub = 2)) v = true then (s, .outOfRange)
    else (sessSet s x.id idx sub v, .ok)
  else if idx < 0x4000 then writeLow s idx sub v
  else if idx < 0x8000 then writeMid s x idx sub v
  else writeHigh s idx sub v

/-- R387, R460: a write of a string entry. -/
def writeOctets (s : State) (x : Session) (idx sub : Nat) (b : List Byte) : State × Status :=
  if (idx = 0x1110 ∨ idx = 0x1111) ∧ sub = 6 then
    if b.length = 16 then addressWrite s (idx - 0x1110) 6 (leValue b) else (s, .wrongType)
  else if 0xB100 ≤ idx ∧ idx < 0xB110 ∧ 2 ≤ sub ∧ sub ≤ 5 then
    if b.length = 32 then
      keyWrite s (idx - 0xB100) (decide (4 ≤ sub)) (decide (sub % 2 = 1)) (BitVec.ofNat 256 (leValue b)) x.mode
    else (s, .wrongType)
  else (s, .wrongType)

/-! ### COMMAND (R388) -/

/-- R106: a port command. -/
def portCommand (s : State) (p arg : Nat) : State × Status :=
  match arg with
  | 1 => portHotReset s p
  | 2 => portFundamentalReset s p
  | 3 => portRetrain s p
  | 4 => portCxlReset s p
  | _ => (s, .outOfRange)

/-- R101: the binding command of a session. -/
def bindCommand (s : State) (x : Session) (arg : Nat) : State × Status :=
  let v := sessGet s x.id 0x2010 1
  let d := sessGet s x.id 0x2010 2
  let pl := sessGet s x.id 0x2010 3
  let src : FmSource := .session (BitVec.ofNat 32 x.id)
  let fin (r : State × FmRc) : State × Status := (r.1, rcStatus r.2)
  match arg with
  | 1 => fin (bindVppb s src v d (bits pl 10 4) (bits pl 3 0))
  | 2 => fin (unbindVppb s src v d (sessGet s x.id 0x2010 4))
  | _ => (s, .outOfRange)

/-- R322: the queue move of a session. -/
def queueMoveEntry (s : State) (x : Session) : State × Status :=
  let kind := sessGet s x.id 0x7020 1
  let q := sessGet s x.id 0x7020 2
  let own := sessGet s x.id 0x7020 3
  let loc := sessGet s x.id 0x7020 4
  if 1 < kind ∨ 4095 < q ∨ 4095 < loc ∨ (1087 < own ∧ own ≠ 0xFFFF) then (s, .outOfRange)
  else queueMoveCmd s x.id (decide (kind = 1)) q (if own = 0xFFFF then 0 else own + 1) loc

/-- R323: the share move of a session. -/
def shareMoveEntry (s : State) (x : Session) : State × Status :=
  let a := sessGet s x.id 0x7021 1
  let b := sessGet s x.id 0x7021 2
  if 1087 < a ∨ 1087 < b then (s, .outOfRange) else shareMove s a b (sessGet s x.id 0x7021 3)

/-- R324: the counter set move of a session. -/
def setMoveEntry (s : State) (x : Session) : State × Status :=
  let c := sessGet s x.id 0x7022 1
  let f := sessGet s x.id 0x7022 2
  if 1023 < c ∨ (1023 < f ∧ f ≠ 0xFFFF) then (s, .outOfRange) else setMoveTo s c (if f = 0xFFFF then 0 else f + 1)

/-- COMMANDs of indices 2000 to 5FFF. -/
def commandLow (s : State) (x : Session) (idx sub arg : Nat) : State × Status :=
  match idx, sub with
  | 0x2010, _ => bindCommand s x arg
  | 0x3010, _ => bufferCommit s
  | 0x3033, _ => routeCommit s
  | 0x4013, _ => partitionCommit s
  | 0x4020, _ => if 1023 < arg then (s, .outOfRange) else declareLost s arg
  | 0x4021, _ => flushRange s (sessGet s x.id 0x4021 1) (sessGet s x.id 0x4021 2)
  | 0x5012, _ => (openGate s, .ok)
  | 0x5021, _ =>
    moveExecute s x.id (sessGet s x.id 0x5021 1) (sessGet s x.id 0x5021 2) (decide (sessGet s x.id 0x5021 3 % 2 = 1))
  | 0x5023, _ => if 1023 < arg then (s, .outOfRange) else moveCancel s arg
  | 0x5030, 1 => guardCommit s
  | 0x5030, _ => guardCopy s
  | _, 0x0A =>
    if idx < 0x4000 then portCommand s (idx - 0x2100) arg
    else if 63 < arg then (s, .outOfRange)
    else (abandonVcs s (idx - 0x4030) arg, .ok)
  | _, _ => if 1023 < arg then (s, .outOfRange) else (abandonSwitch s (idx - 0x4030) arg, .ok)

/-- R331: COMMAND on OD .16 of channel `c`; the consumer index that the device reads is a free value here (log entry 18). -/
def resetBitmapEntry (s : State) (c : Nat) : State × Status :=
  resetBitmap (drawn s) c ((freshVal s).extractLsb' 0 32)

/-- COMMANDs of indices 7000 to 8FFF. -/
def commandMid (s : State) (x : Session) (idx sub : Nat) : State × Status :=
  match idx with
  | 0x7003 => (flushAllScan { s with mov := { s.mov with flushAll := true } }, .ok)
  | 0x7020 => queueMoveEntry s x
  | 0x7021 => shareMoveEntry s x
  | 0x7022 => setMoveEntry s x
  | _ =>
    if 0x8200 ≤ idx then slotClear s (idx - 0x8200)
    else if idx < 0x7800 then resetBitmapEntry s (1024 + (idx - 0x7700))
    else if sub = 0x16 then resetBitmapEntry s (idx - 0x7800)
    else (functionReset s (idx - 0x7800), .ok)

/-- COMMANDs of indices A000 to CFFF. -/
def commandHigh (s : State) (x : Session) (idx sub arg : Nat) : State × Status :=
  match idx, sub with
  | 0xA012, _ => clearSticky s arg
  | 0xA020, _ => acknowledge s arg x.id
  | 0xA030, _ => (clearLatch s, .ok)
  | 0xA040, 1 =>
    match arg with
    | 0 => (injectionLock s, .ok)
    | 1 => injectionUnlock s x.id
    | _ => (s, .outOfRange)
  | 0xA040, _ => injectFault s (bits arg 17 16) (bits arg 15 0)
  | 0xA050, 1 => (enterSafe s 0x0200, .ok)
  | 0xA050, _ => (resetRecognised s, .ok)
  | 0xA063, _ => snapshotNow s
  | 0xA071, 1 => culletWithdraw s arg
  | 0xA071, _ => retireSlice s arg
  | 0xB011, _ => raiseRollback s arg
  | 0xB012, _ => revokeSlot s x.id arg
  | 0xB050, _ => (lockDebug s, .ok)
  | 0xC030, _ => (takeSnapshot s, .ok)
  | _, _ => rollover s (idx - 0xB100)

/-- R388: a COMMAND on a cmd entry, by its chapter. -/
def commandEntry (s : State) (x : Session) (idx sub arg : Nat) : State × Status :=
  if idx < 0x6000 then commandLow s x idx sub arg
  else if idx < 0x9000 then commandMid s x idx sub
  else commandHigh s x idx sub arg

/-! ### DOMAINs (R405) -/

/-- The bytes that a DOMAIN of a fixed size holds, and the most that a written one takes. -/
def domainMax (idx : Nat) : Nat :=
  match idx with
  | 0x3035 => 4608 | 0x4011 => 128 | 0x4020 => 64 | 0x5011 => 134217728 | 0x5022 => 16384 | 0x5031 => 32768 | 0x5032 => 32768
  | 0x6001 => 128 | 0x6010 => 30 | 0x6012 => 30 | 0x6011 => 256 | 0x6013 => 256 | 0x8010 => 72 | 0x8105 => 48
  | 0xA010 => 4096 | 0xA011 => 64 | 0xA020 => 64 | 0xA040 => 64 | 0xA062 => 262144 | 0xA070 => 65536
  | 0xB020 => 4194304 | 0xB030 => 4194304 | 0xB040 => 65536 | 0xB050 => 17216 | 0xB060 => 512
  | 0xC02E => 4096 | 0xC100 => 12288 | 0xC101 => 12288
  | _ =>
    if 0x4030 ≤ idx ∧ idx < 0x4070 then 128
    else if 0x7400 ≤ idx ∧ idx < 0x7410 then 64
    else if 0xC200 ≤ idx ∧ idx < 0xC240 then 1024
    else if 0xC400 ≤ idx ∧ idx < 0xC840 then 256
    else 0xFFFFFFFF

/-- R405: the entry can hold `total` bytes: an rw DOMAIN its own size; a wo DOMAIN up to what its chapter takes. -/
def domainHolds (idx _sub total : Nat) : Bool :=
  match idx with
  | 0x5011 => decide (total % 16 = 0) && decide (total ≤ domainMax idx)
  | 0xB020 => decide (total ≤ domainMax idx)
  | 0xB030 => decide (total ≤ domainMax idx)
  | 0xB040 => decide (total ≤ domainMax idx)
  | 0xB050 => decide (total ≤ domainMax idx)
  | _ => decide (total = domainMax idx)

/-- R398: the maximum length that DESCRIBE gives a DOMAIN, 0xFFFF for one that is longer. -/
def domainDescribed (idx : Nat) : Nat := min (domainMax idx) 0xFFFF

/-- R58: the 16 entries of the override table of stop `a`, 2 bytes each. -/
def overrideBytes (s : State) (a : Nat) : List Byte :=
  let ds := (List.range 144).filter fun d => overridden s a d
  (List.range 16).flatMap fun i => leBytes 2 (match ds[i]? with | some d => 0x8000 + d | none => 0)

/-- R231: a guard set, in rule order. -/
def guardBytes (t : Tab GuardRule) : List Byte := (List.range 1024).flatMap fun i => leBytes 32 (tabGet 0 i t).toNat

/-- R268: the link table and the source route table of a bank. -/
def linkBytes (t : Tab (BitVec 16)) : List Byte := (List.range 15).flatMap fun i => leBytes 2 (tabGet 0 i t).toNat
def sourceBytes (t : Tab (BitVec 64)) : List Byte := (List.range 32).flatMap fun i => leBytes 8 (tabGet 0 i t).toNat

/-- Counters `base` to `base + n − 1` of a table, zero-extended to 64 bits (R472). -/
def counterBytes (t : Tab Counter) (base n : Nat) : List Byte :=
  (List.range n).flatMap fun i => leBytes 8 (tabGet 0 (base + i) t).toNat

/-- R359: the cost table. -/
def costTable : List Nat := [1, 15, 30, 20, 35, 2, 5, 30, 15, 22, 23, 1]

/-- The active bank is bank 1. -/
def bankOne (s : State) : Bool := activeEpoch s

/-- The contents of DOMAINs of indices 3000 to 7FFF that are read whole. -/
def domainMid (s : State) (idx : Nat) : List Byte :=
  let sh := shown s
  match idx with
  | 0x3035 => (List.range 144).flatMap (overrideBytes sh)
  | 0x4011 => leBytes 128 (maskOf sh.dir.remote)
  | 0x4020 => removalBytes sh
  | 0x5022 => moveTableBytes sh
  | 0x5031 => guardBytes s.map.guardShadow
  | 0x5032 => guardBytes s.map.guardActive
  | 0x6001 => leBytes 128 (odGet s 0x6001 0)
  | 0x6010 => linkBytes (if bankOne s then s.fab.links0 else s.fab.links1)
  | 0x6011 => sourceBytes (if bankOne s then s.fab.src0 else s.fab.src1)
  | 0x6012 => linkBytes (if bankOne s then s.fab.links1 else s.fab.links0)
  | 0x6013 => sourceBytes (if bankOne s then s.fab.src1 else s.fab.src0)
  | _ =>
    if 0x4030 ≤ idx ∧ idx < 0x4070 then recoverySwitchBytes sh (idx - 0x4030)
    else leBytes 64 (tabGet 0 (idx - 0x7400) s.mov.ctx).toNat

/-- The contents of DOMAINs of indices 8000 to CFFF that are read whole; `x` is the session that reads. -/
def domainHigh (s : State) (x : Session) (idx : Nat) : List Byte :=
  match idx with
  | 0x8010 => (List.range 9).flatMap fun i => leBytes 8 (tabGet 0 (i + 1) s.pow.stepTimes).toNat
  | 0x8105 => costTable.flatMap (leBytes 4)
  | 0xA010 => (List.range 512).flatMap fun f => leBytes 8 (tabGet (defaultRecord f) f s.flt.cfg).toNat
  | 0xA011 => leBytes 64 (maskOf s.flt.sticky)
  | 0xA020 => leBytes 64 (maskOf (tabKeys s.flt.timers))
  | 0xA040 => leBytes 64 (maskOf s.flt.continuous)
  | 0xA062 => s.flt.crash.flatMap fun e => leBytes 64 e.bits
  | 0xA070 =>
    (List.range 4096).flatMap fun n => leBytes 16 (match tabFind? n s.flt.cullet with | some r => r.bits | none => 0)
  | 0xB003 => Config.certChain 0
  | 0xB004 => Config.certChain 1
  | 0xB041 => match tabFind? (65 + x.id) s.sec.spdmReply with | some r => Config.spdmBytes r | none => []
  | 0xB060 => leBytes 512 (odGet s 0xB060 0)
  | 0xC02E => counterBytes s.flt.counts 0 512
  | 0xC100 => counterBytes s.perf.cnt 0 1536
  | 0xC101 => counterBytes s.perf.snapshot 0 1536
  | _ =>
    if idx < 0xC400 then counterBytes s.perf.vcs ((idx - 0xC200) * 128) 128
    else counterBytes s.perf.sets ((idx - 0xC400) * 32) 32

/-- R434: the event log at offset `o`: entries from sequence `o / 64` onward. -/
def logRead (s : State) (o n : Nat) : Status × Nat × List Byte :=
  let size := 64 * s.flt.nextSeq
  if o % 64 ≠ 0 ∨ o / 64 + 65536 < s.flt.nextSeq then (.outOfRange, size, [])
  else
    let first := s.flt.nextSeq - s.flt.log.length
    let es := (s.flt.log.drop (o / 64 - first)).take (n / 64 + 1)
    (.ok, size, (es.flatMap fun e => leBytes 64 e.bits).take n)

/-- R472: note in the session which snapshot its segmented read of OD C101.00 is in. -/
def snapMark (s : State) (x : Session) (m : Option Nat) : State :=
  { s with spr := { s.spr with
    sessions := s.spr.sessions.map fun y => if y.id = x.id then { y with snapRead := m } else y } }

/-- R405: `n` bytes of the DOMAIN from offset `o`: the new state, the status, the DOMAIN's size and the bytes. A DOMAIN whose
reading consumes ignores the offset (R136, R481). -/
def readDomain (s : State) (x : Session) (idx _sub o n : Nat) : State × Status × Nat × List Byte :=
  if idx = 0x3050 then
    let r := traceRead s (n / 64)
    let b := r.2.flatMap traceBytes
    (r.1, .ok, b.length, b)
  else if 0xC060 ≤ idx ∧ idx < 0xC068 then
    let r := captureRead s (idx - 0xC060) (n / 16)
    (r.1, .ok, r.2.length, r.2)
  else if idx = 0xA060 then
    let r := logRead s o n
    (s, r.1, r.2.1, r.2.2)
  else if idx = 0xC101 ∧ 0 < o ∧ x.snapRead.isSome = true ∧ x.snapRead ≠ some s.perf.snapNo then
    (snapMark s x none, .segment, 0, [])
  else
    let b := if idx < 0x8000 then domainMid s idx else domainHigh s x idx
    let s1 := if idx = 0xC101 then snapMark s x (if o + n < b.length then some s.perf.snapNo else none) else s
    (s1, .ok, b.length, byteSlice b o n)

/-- The records of `n` bytes that the bytes hold, as numbers. -/
def recordsOf (n count : Nat) (b : List Byte) : List Nat := (List.range count).map fun i => leAt b (i * n) n

/-- R405: the value of an rw DOMAIN is replaced whole, under the entry's own rules. -/
def writeDomain (s : State) (_x : Session) (idx sub : Nat) (b : List Byte) : State × Status :=
  match idx with
  | 0x5031 =>
    if guardSwapping s then (s, .busy)
    else
      ((recordsOf 32 1024 b).zipIdx.foldl (fun t p => setShadowRule t p.2 (BitVec.ofNat 256 p.1)) s, .ok)
  | 0x6010 => routeWrite s (.links (Vector.ofFn fun i : Fin 15 => BitVec.ofNat 16 (leAt b (i.val * 2) 2)))
  | 0x6011 => routeWrite s (.sources (Vector.ofFn fun i : Fin 32 => BitVec.ofNat 64 (leAt b (i.val * 8) 8)))
  | 0x6001 => (noticeMembers (odSet s idx sub (leValue b)), .ok)
  | 0xA010 => sourceConfig s ((recordsOf 8 512 b).map (BitVec.ofNat 64))
  | _ =>
    if 0x7400 ≤ idx ∧ idx < 0x7410 then unitContext s (idx - 0x7400) (BitVec.ofNat 512 (leValue b))
    else (odSet s idx sub (leValue b), .ok)

/-- R219: the records that a segment of a bulk load completes: `before` are the bytes that came before it. -/
def loadRecords (before data : List Byte) : List (BitVec 128) :=
  let b := before.drop (before.length / 16 * 16) ++ data
  (recordsOf 16 (b.length / 16) b).map (BitVec.ofNat 128)

/-- R405: a segment of a wo DOMAIN is applied as it arrives; what is judged whole (R445, R457, R466) is judged with the last. An
SPDM request (R452) then arrives as a command of its own. -/
def applySegment (s : State) (x : Session) (idx _sub : Nat) (before data : List Byte) (last : Bool) : State × Status :=
  let whole := before ++ data
  match idx with
  | 0x5011 => bulkLoad s (loadRecords before data)
  | 0xB040 => (s, .ok)
  | _ =>
    if !encryptedSession s x.id then (s, .notPermitted)
    else if !last then (s, .ok)
    else
      match idx with
      | 0xB020 => certPackage s x.id (parsePackage whole)
      | 0xB030 => installImage s (parseImage whole)
      | _ => presentToken s (parseToken whole)

/-! ### The stored image (R389, R412 to R414) -/

/-- R389: the entry is stored. OD 8030.04, which the device keeps in MRAM itself, is not part of the image. -/
def storedEntry (k : Nat) : Bool :=
  match dictRow? (k / 256) (k % 256) with
  | some r => decide (r.persist = .stored) && decide (k ≠ odKey 0x8030 4)
  | none => false

/-- List the value of a DOMAIN. -/
def putDomain (t : Tab Nat) (idx : Nat) (b : List Byte) : Tab Nat := tabPut (odKey idx 0) (leValue b) t

/-- R412 step 2: the running values of every stored entry. -/
def storedImage (s : State) : ImageSlot :=
  let od := [0x6010, 0x6011, 0x6012, 0x6013].foldl (fun t i => putDomain t i (domainMid s i))
    (s.od.filter fun p => storedEntry p.1)
  { valid := true, generation := 0, od := od, srcCfg := s.flt.cfg
    guard := (List.range 1024).map fun i => tabGet 0 i s.map.guardActive }

/-- R413: slot 0 holds the newest valid image. -/
def newestIs0 (s : State) : Bool :=
  s.spr.slot0.valid && (!s.spr.slot1.valid || decide (s.spr.slot1.generation ≤ s.spr.slot0.generation))

/-- R413: the newest valid image. -/
def newestSlot (s : State) : ImageSlot :=
  if newestIs0 s then s.spr.slot0 else if s.spr.slot1.valid then s.spr.slot1 else imageReset

end Sys2Proof.Machine
end

