-- ==== Sys2Proof/Machine/Sprineno.lean ====
section
/-!
DEFINITION. Machine/Sprineno.lean: chapter 13: the Sprineno protocol: sessions, requests and their answers, notifies,
segmented transfer and commits (R394 to R414).
-/

namespace Sys2Proof.Machine

/-! ### Status codes and headers (R397, R401) -/

/-- R401: code and Since of a status. -/
def Status.code : Status → Nat × Nat
  | .ok => (0x00, 0x0100) | .notFound => (0x01, 0x0100) | .readOnly => (0x02, 0x0100) | .writeOnly => (0x03, 0x0100)
  | .wrongType => (0x04, 0x0100) | .outOfRange => (0x05, 0x0100) | .busy => (0x06, 0x0100) | .holdupLow => (0x07, 0x0100)
  | .certified => (0x08, 0x0100) | .notPermitted => (0x09, 0x0100) | .versionConflict => (0x0A, 0x0100)
  | .malformed => (0x0B, 0x0100) | .segment => (0x0C, 0x0100) | .noSession => (0x0D, 0x0100) | .refused => (0x0E, 0x0100)
  | .stale => (0x0F, 0x0100) | .unsupported => (0x10, 0x0100) | .notAttempted => (0x11, 0x0202)
  | .portActive => (0x20, 0x0100) | .portsActive => (0x21, 0x0100) | .laneConflict => (0x22, 0x0100)
  | .vcsTaken => (0x23, 0x0100) | .bufferOver => (0x24, 0x0100) | .belowMinimum => (0x25, 0x0100)
  | .overlap => (0x26, 0x0101) | .ruleInvalid => (0x27, 0x0100) | .tableFull => (0x28, 0x0100)
  | .wrongState => (0x29, 0x0100) | .queueActive => (0x2A, 0x0100) | .localTaken => (0x2B, 0x0100)
  | .holdPending => (0x2C, 0x0100) | .shareShort => (0x2D, 0x0100) | .setTaken => (0x2E, 0x0100)
  | .slotTaken => (0x2F, 0x0100) | .lcbInvalid => (0x30, 0x0200)

/-- R395: the code sent to a session of protocol version `v`. -/
def Status.sent (st : Status) (v : Nat) : Nat := if st.code.2 ≤ v then st.code.1 else 0x0E

/-- R397: a message: header and body. `flags`: 0x80 in a response, 0x40 in a NOTIFY. -/
def message (seq type flags status session reqId : Nat) (body : List Byte) : List Byte :=
  leBytes 4 seq ++ [0, BitVec.ofNat 8 type, BitVec.ofNat 8 flags, BitVec.ofNat 8 status] ++ leBytes 4 session ++
    leBytes 2 reqId ++ leBytes 2 body.length ++ body

/-! ### Sessions (R400 to R404) -/

/-- The open session `id`. -/
def session? (s : State) (id : Nat) : Option Session := s.spr.sessions.find? fun x => decide (x.id = id)

/-- Change session `id`. -/
def updSession (s : State) (id : Nat) (f : Session → Session) : State :=
  { s with spr := { s.spr with sessions := s.spr.sessions.map fun x => if x.id = id then f x else x } }

/-- R402, R409: Since, maximum message and OD 1101 subindex of a transport. -/
def transportSince : Transport → Nat
  | .udp4 .. => 0x0100
  | .udp6 .. => 0x0102
  | .usb => 0x0102
  | .mctp _ => 0x0201
  | .mailbox _ => 0x0201
def transportMax : Transport → Nat
  | .udp4 .. => 1232
  | .udp6 .. => 1232
  | .usb => 16384
  | .mctp _ => 1024
  | .mailbox _ => 4096
def transportNo : Transport → Nat
  | .udp4 .. => 0
  | .udp6 .. => 0
  | .usb => 1
  | .mctp _ => 2
  | .mailbox _ => 3

/-- R404: the code of a mode. -/
def modeCode : Mode → Nat
  | .plain => 0
  | .authenticated => 1
  | .encrypted => 2

/-- R410: the transport is enabled for the client. -/
def transportEnabled (s : State) : Transport → Bool
  | .usb => decide (odGet s 0x1120 1 = 1)
  | .mailbox v => (BitVec.ofNat 64 (odGet s 0x1130 1)).getLsbD v
  | _ => true

/-- R410: the mailbox answers Unsupported instead of taking the request. -/
def mailboxOf : Transport → Nat
  | .mailbox v => v
  | _ => 0
def transportRefuses (s : State) (via : Transport) : Bool :=
  match via with
  | .mailbox _ => !transportEnabled s via
  | _ => false

/-- R395: count and send an answer; a status other than OK counts in OD C02C.02. -/
def sendAnswer (s : State) (via : Transport) (st : Status) (msg : List Byte) : State :=
  let s1 := if st = .ok then s else bumpC s 0xC02C 2
  emit s1 (.message via msg)

/-- R400: the answer of an executed request: sent, kept with the last 8, and counted. -/
def finish (s : State) (id seq reqId type : Nat) (via : Transport) (st : Status) (body : List Byte) : State :=
  let v := match session? s id with | some x => x.protocol | none => 0x0203
  let msg := message seq type 0x80 (st.sent v) id reqId body
  let s1 := updSession s id fun x =>
    { x with kept := ((seq, msg) :: x.kept).take 8, executing := x.executing.filter fun e => decide (e.1 ≠ seq) }
  sendAnswer (bumpC s1 0xC02C 1) via st msg

/-- R394, R400, R404, R411: a request of message type `type`, of Since `since`, before and after its execution by `f`.
`f` answers the new state and, unless the answer comes later, the status and the body. -/
def withRequest (s : State) (r : Req) (type since : Nat) (f : State → Session → State × Option (Status × List Byte)) : State :=
  if !s.spr.serving then s
  else if transportRefuses s r.via then emit s (.mailboxUnsupported (mailboxOf r.via))
  else
    match session? s r.session with
    | none => sendAnswer s r.via .noSession (message r.seq type 0x80 0x0D r.session r.reqId [])
    | some x0 =>
      if x0.mode ≠ .plain ∧ r.tagOk = false then
        raiseFault s 447 0 (transportNo r.via * 2 ^ 40 + r.session)
      else
        let s0 := updSession s r.session fun x => { x with lastRequest := s.time.clock, source := r.via }
        let x := { x0 with lastRequest := s.time.clock, source := r.via }
        let fresh := match x.high with | some h => decide (h < r.seq) | none => true
        if !fresh then
          match x.kept.find? fun k => decide (k.1 = r.seq) with
          | some k => emit s0 (.message r.via k.2)
          | none =>
            if x.executing.any fun e => decide (e.1 = r.seq) then
              updSession s0 r.session fun y =>
                { y with executing := y.executing.map fun e => if e.1 = r.seq then (e.1, r.via) else e }
            else sendAnswer (bumpC s0 0xC02C 6) r.via .stale (message r.seq type 0x80 0x0F r.session r.reqId [])
        else if 8 ≤ x.executing.length then
          sendAnswer s0 r.via .busy (message r.seq type 0x80 0x06 r.session r.reqId [])
        else
          let s1 := updSession s0 r.session fun y => { y with high := some r.seq }
          if x.protocol < since then finish s1 r.session r.seq r.reqId type r.via .unsupported []
          else
            match f s1 { x with high := some r.seq } with
            | (s2, some (st, body)) => finish s2 r.session r.seq r.reqId type r.via st body
            | (s2, none) =>
              updSession s2 r.session fun y => { y with executing := y.executing ++ [(r.seq, r.via)] }

/-- R402: what HELLO chooses and why it is refused. -/
def helloRefusal (s : State) (via : Transport) (pmax omax maxMsg : Nat) (mode : Mode) (spdm : Option Nat) : Option Status :=
  let proto := min pmax 0x0203
  if pmax < 0x0100 ∨ omax < 0x0100 ∨ maxMsg < 256 ∨ proto < transportSince via then some .unsupported
  else if modeCode mode < odGet s 0x1101 (transportNo via + 1) ∨ (mode ≠ .plain ∧ proto < 0x0200) ∨ transportEnabled s via = false then
    some .notPermitted
  else if mode ≠ .plain ∧ (match spdm with | some i => s.sec.spdm.any (fun c => c.2.sessions.contains i) | none => false) = false then
    some .notPermitted
  else if 32 ≤ s.spr.sessions.length then some .busy
  else none

/-- R402: the maximum message that HELLO negotiates. -/
def helloMax (via : Transport) (pmax maxMsg : Nat) : Nat :=
  min (min maxMsg (transportMax via)) (if min pmax 0x0203 < 0x0102 then 1232 else (transportMax via))

/-- R402: a session as it opens. -/
def newSession (s : State) (via : Transport) (pmax omax maxMsg : Nat) (mode : Mode) (name : List Byte) (spdm : Option Nat) :
    Session :=
  { id := s.spr.nextSession, transport := via, protocol := min pmax 0x0203, odVersion := min omax 0x0203, mode := mode
    maxMessage := helloMax via pmax maxMsg, clientName := name, high := none, kept := [], executing := [], values := []
    subs := [], nextSub := 1, queue := [], lost := 0, notifySeq := 0, lastRequest := s.time.clock, source := via
    snapRead := none, spdm := if mode = .plain then none else spdm }

/-- R402: a session ID follows the last one, never 0. -/
def nextSessionId (n : Nat) : Nat := if 0xFFFFFFFF ≤ n then 1 else n + 1

/-- HELLO (R398, R402, R410): opens a session. `pmax`, `omax`: the client's maxima; `spdm`: the SPDM session ID of R465. -/
def execHello (seq reqId : BitVec 32) (via : Transport) (pmax omax : BitVec 16) (mode : Mode) (maxMsg : BitVec 32)
    (name : List Byte) (spdm : Option Nat) (s : State) : Host.Outcome State Fault Refusal :=
  if !s.spr.serving then .next s
  else
    match via, transportEnabled s via with
    | .mailbox v, false => .next (emit s (.mailboxUnsupported v))
    | _, _ =>
      match helloRefusal s via pmax.toNat omax.toNat maxMsg.toNat mode spdm with
      | some st =>
        .next (bumpC (sendAnswer s via st (message seq.toNat 0x01 0x80 st.code.1 0 reqId.toNat [])) 0xC02C 1)
      | none =>
        let x := newSession s via pmax.toNat omax.toNat maxMsg.toNat mode name spdm
        let body := leBytes 2 x.protocol ++ leBytes 2 x.odVersion ++ [BitVec.ofNat 8 (modeCode mode), 0, 0, 0] ++
          leBytes 4 x.maxMessage ++ leBytes 2 (odGet s 0x1100 3) ++ leBytes 2 (odGet s 0x6000 1) ++ serialBytes
        let s1 := { s with spr := { s.spr with sessions := s.spr.sessions ++ [x], nextSession := nextSessionId x.id } }
        let s2 := bumpC (bumpC s1 0xC02C 4) 0xC02C 1
        .next (sendAnswer s2 via .ok (message seq.toNat 0x01 0x80 0 x.id reqId.toNat body))

/-- BYE (R403). -/
def execBye (r : Req) (s : State) : Host.Outcome State Fault Refusal :=
  .next (withRequest s r 0x02 0x0100 fun t x => (closeSessions t fun y => decide (y.id = x.id), some (.ok, [])))

/-- KEEPALIVE (R398, R403). -/
def execKeepalive (r : Req) (s : State) : Host.Outcome State Fault Refusal :=
  .next (withRequest s r 0x03 0x0100 fun t _ => (t, some (.ok, [])))

/-- SESSION_TIMEOUT (R403): no request has arrived in session `id` for the session timeout. -/
def execSessionTimeout (id : BitVec 32) (s : State) : Host.Outcome State Fault Refusal :=
  .next (closeSessions s fun y => decide (y.id = id.toNat))

/-- USB_DETACH (R403): the USB function detaches. -/
def execUsbDetach (s : State) : Host.Outcome State Fault Refusal :=
  .next (closeSessions s fun y => decide (y.transport = .usb))

/-! ### Items (R386 to R399) -/

/-- R387: the code of a type. -/
def OdType.code : OdType → Nat
  | .boolean => 1 | .u8 => 2 | .u16 => 3 | .u32 => 4 | .u64 => 5 | .i8 => 6 | .i16 => 7 | .i32 => 8 | .i64 => 9
  | .octets => 0xA | .visible => 0xB | .domain => 0xC

/-- R399: value bytes padded to a multiple of 4. -/
def padded (b : List Byte) : List Byte := b ++ List.replicate ((4 - b.length % 4) % 4) 0

/-- R399: a response item. -/
def itemBytes (idx sub type status : Nat) (value : List Byte) : List Byte :=
  leBytes 2 idx ++ [BitVec.ofNat 8 sub, BitVec.ofNat 8 type] ++ leBytes 2 value.length ++ [0, BitVec.ofNat 8 status] ++
    padded value

/-- R386, R395: the row of an entry that the session sees. -/
def visibleRow? (x : Session) (idx sub : Nat) : Option DictRow :=
  match dictRow? idx sub with
  | some r => if r.since ≤ x.odVersion then some r else none
  | none => none

/-- R386: subindex 0 of a record or array: the highest subindex in use. -/
def highestSub? (x : Session) (idx sub : Nat) : Option Nat :=
  if sub = 0 ∧ (dictRow? idx 0).isNone then
    match dictHighestSub? idx with
    | some n => if (visibleRow? x idx n).isSome ∨ (visibleRow? x idx 1).isSome then some n else none
    | none => none
  else none

/-- R386, R388: why a COMMAND or a segment finds no row: subindex 0 of a record is an UNSIGNED8 const; else nothing is there. -/
def absent (x : Session) (idx sub : Nat) : Status := if (highestSub? x idx sub).isSome then .wrongType else .notFound

/-- R388, R396: one read item: status, type code and value bytes. An rwc object is cleared in the same step. -/
def readItem (s : State) (x : Session) (idx sub : Nat) : State × Status × Nat × List Byte :=
  match highestSub? x idx sub with
  | some n => (s, .ok, 2, leBytes 1 n)
  | none =>
    match visibleRow? x idx sub with
    | none => (s, .notFound, 0, [])
    | some r =>
      match r.access, r.type with
      | .wo, _ => (s, .writeOnly, r.type.code, [])
      | .cmd, _ => (s, .writeOnly, r.type.code, [])
      | _, .domain => (s, .wrongType, r.type.code, [])
      | .rwc, ty => (odClear s idx sub, .ok, ty.code, entryBytes s x idx sub r)
      | _, ty =>
        if readConflict s x idx sub then (s, .versionConflict, ty.code, []) else (s, .ok, ty.code, entryBytes s x idx sub r)

/-- R399: every read item in order. -/
def readItems (s : State) (x : Session) : List (Nat × Nat) → State × Status × List Byte
  | [] => (s, .ok, [])
  | (i, u) :: t =>
    let (s1, st, ty, v) := readItem s x i u
    let (s2, st2, b) := readItems s1 x t
    (s2, if st = .ok then st2 else st, itemBytes i u ty (st.sent x.protocol) v ++ b)

/-- R399: the number of items a session's protocol version allows. -/
def maxItems (v : Nat) : Nat := if v < 0x0202 then 1 else 32

/-- READ (R388, R399). -/
def execRead (r : Req) (items : List (BitVec 16 × Byte)) (s : State) : Host.Outcome State Fault Refusal :=
  .next (withRequest s r 0x04 0x0100 fun t x =>
    if items.isEmpty ∨ maxItems x.protocol < items.length then (t, some (.malformed, []))
    else
      let (t1, st, b) := readItems t x (items.map fun i => (i.1.toNat, i.2.toNat))
      (t1, some (st, b)))

/-- R388, R389, R399: one write item. -/
def writeItem (s : State) (x : Session) (w : WriteItem) : State × Status :=
  match highestSub? x w.index w.sub with
  | some _ => (s, .readOnly)
  | none =>
    match visibleRow? x w.index w.sub with
    | none => (s, .notFound)
    | some r =>
      if r.persist = .certified then (s, .certified)
      else
        match r.access with
        | .ro => (s, .readOnly)
        | .const => (s, .readOnly)
        | .cmd => (s, .wrongType)
        | _ =>
          if r.type = .domain ∨ w.type ≠ r.type.code then (s, .wrongType)
          else if r.type = .octets ∨ r.type = .visible then
            if r.maxLen < w.value.length then (s, .wrongType) else writeOctets s x w.index w.sub w.value
          else if w.value.length ≠ typeBytes r.type then (s, .wrongType)
          else
            let v := leValue w.value
            if writeConflict s x w.index w.sub v then (s, .versionConflict)
            else if r.inRange v = false then (s, .outOfRange)
            else writeEntry s x w.index w.sub v

/-- R412: a write to a stored entry counts in OD 1010.03. -/
def countStored (s : State) (idx sub : Nat) : State :=
  match dictRow? idx sub with
  | some r => if r.persist = .stored then odSet s 0x1010 3 ((odGet s 0x1010 3 + 1) % 2 ^ 32) else s
  | none => s

/-- R399: write items in order up to the first refused one; the later ones answer NOT_ATTEMPTED. -/
def writeItems (s : State) (x : Session) : List WriteItem → State × Status × List Byte
  | [] => (s, .ok, [])
  | w :: t =>
    match writeItem s x w with
    | (s1, .ok) =>
      let x1 := (session? s1 x.id).getD x
      let (s2, st, b) := writeItems (countStored s1 w.index w.sub) x1 t
      (s2, st, itemBytes w.index w.sub w.type 0 [] ++ b)
    | (s1, st) =>
      (s1, st, itemBytes w.index w.sub w.type (st.sent x.protocol) [] ++
        t.flatMap fun u => itemBytes u.index u.sub u.type (Status.notAttempted.sent x.protocol) [])

/-- WRITE (R388, R399): the items are applied in order in one step. -/
def execWrite (r : Req) (items : List WriteItem) (s : State) : Host.Outcome State Fault Refusal :=
  .next (withRequest s r 0x05 0x0100 fun t x =>
    if items.isEmpty ∨ maxItems x.protocol < items.length then (t, some (.malformed, []))
    else
      let (t1, st, b) := writeItems t x items
      (t1, some (st, b)))

/-- R398: the bytes of a name, zero-padded to 48. -/
def nameBytes (n : String) : List Byte :=
  let b := (n.toUTF8.toList.map fun c => BitVec.ofNat 8 c.toNat).take 48
  b ++ List.replicate (48 - b.length) 0

/-- R388: the access code. -/
def Access.code : Access → Nat
  | .ro => 0 | .wo => 1 | .rw => 2 | .rwc => 3 | .cmd => 4 | .const => 5

/-- R398: the persistence code under DESCRIBE. -/
def Persist.code : Persist → Nat
  | .volatile => 0 | .stored => 1 | .certified => 2 | .none => 3

/-- DESCRIBE (R398). -/
def execDescribe (r : Req) (idx : BitVec 16) (sub : Byte) (s : State) : Host.Outcome State Fault Refusal :=
  .next (withRequest s r 0x06 0x0100 fun t x =>
    match highestSub? x idx.toNat sub.toNat with
    | some n =>
      (t, some (.ok, [2, 5, 3, 0] ++ leBytes 2 0x0100 ++ leBytes 2 0 ++ leBytes 8 n ++ leBytes 8 n ++ leBytes 8 n ++
        nameBytes "Highest subindex"))
    | none =>
      match visibleRow? x idx.toNat sub.toNat with
      | none => (t, some (.notFound, []))
      | some d =>
        let scalar := decide (typeBytes d.type ≠ 0)
        (t, some (.ok, [BitVec.ofNat 8 d.type.code, BitVec.ofNat 8 d.access.code, BitVec.ofNat 8 d.persist.code, 0] ++
          leBytes 2 d.since ++ leBytes 2 (if d.type = .domain then domainDescribed idx.toNat else d.maxLen) ++ leBytes 8 (if scalar then entryDefault idx.toNat sub.toNat else 0) ++
          leBytes 8 (if scalar then d.lo else 0) ++ leBytes 8 (if scalar then d.hi else 0) ++ nameBytes d.name)))

/-! ### Segmented transfer (R405, R406) -/

/-- SEG_READ (R405): data of a DOMAIN at any offset, at most the maximum message less 20 bytes. -/
def execSegRead (r : Req) (idx : BitVec 16) (sub : Byte) (offset length : BitVec 32) (s : State) :
    Host.Outcome State Fault Refusal :=
  .next (withRequest s r 0x07 0x0100 fun t x =>
    match visibleRow? x idx.toNat sub.toNat with
    | none => (t, some (absent x idx.toNat sub.toNat, []))
    | some d =>
      if d.type ≠ .domain then (t, some (.wrongType, []))
      else if d.access = .wo then (t, some (.writeOnly, []))
      else
        match readDomain t x idx.toNat sub.toNat offset.toNat (min length.toNat (x.maxMessage - 20)) with
        | (t1, .ok, size, b) => (t1, some (.ok, leBytes 4 size ++ b))
        | (t1, st, _, _) => (t1, some (st, [])))

/-- The segmented write that is open on an entry. -/
def openSeg? (s : State) (idx sub : Nat) : Option SegWrite :=
  s.spr.segs.find? fun g => decide (g.index = idx) && decide (g.sub = sub)

/-- End the segmented write of an entry. -/
def endSeg (s : State) (idx sub : Nat) : State :=
  { s with spr := { s.spr with segs := s.spr.segs.filter fun g => decide (g.index ≠ idx) || decide (g.sub ≠ sub) } }

/-- R405: a segment taken by the open write `g`. -/
def segTake (s : State) (x : Session) (rw : Bool) (g : SegWrite) (last : Bool) (data : List Byte) : State × Status :=
  let got := g.received ++ data
  if g.total < got.length ∨ (last ∧ got.length ≠ g.total) then (endSeg s g.index g.sub, .segment)
  else
    let s1 := endSeg s g.index g.sub
    let r : State × Status := if rw then (s1, .ok) else applySegment s1 x g.index g.sub g.received data last
    match r with
    | (s2, .ok) =>
      if last then (if rw then writeDomain s2 x g.index g.sub got else (s2, .ok))
      else ({ s2 with spr := { s2.spr with segs := s2.spr.segs ++ [{ g with received := got }] } }, .ok)
    | (s2, st) => (s2, st)

/-- SEG_WRITE (R405, R406). -/
def execSegWrite (r : Req) (idx : BitVec 16) (sub : Byte) (first last : Bool) (offset total : BitVec 32) (data : List Byte)
    (s : State) : Host.Outcome State Fault Refusal :=
  .next (withRequest s r 0x08 0x0100 fun t x =>
    match visibleRow? x idx.toNat sub.toNat with
    | none => (t, some (absent x idx.toNat sub.toNat, []))
    | some d =>
      if d.type ≠ .domain then (t, some (.wrongType, []))
      else if d.access = .ro ∨ d.access = .const then (t, some (.readOnly, []))
      else
        let g? := openSeg? t idx.toNat sub.toNat
        let rw := decide (d.access = .rw)
        if first then
          match g? with
          | some g =>
            if g.session ≠ x.id then (t, some (.busy, []))
            else (endSeg t idx.toNat sub.toNat, some (.segment, []))
          | none =>
            if offset.toNat ≠ 0 then (t, some (.segment, []))
            else if domainHolds idx.toNat sub.toNat total.toNat = false then (t, some (.outOfRange, []))
            else
              let g : SegWrite := { index := idx.toNat, sub := sub.toNat, session := x.id, total := total.toNat, received := [] }
              let q := segTake t x rw g last data
              (q.1, some (q.2, []))
        else
          match g? with
          | some g =>
            if g.session ≠ x.id ∨ offset.toNat ≠ g.received.length then
              (if g.session = x.id then endSeg t idx.toNat sub.toNat else t, some (.segment, []))
            else
              let q := segTake t x rw g last data
              (q.1, some (q.2, []))
          | none => (t, some (.segment, [])))

/-! ### Subscriptions and notifies (R407, R408) -/

/-- R407: an entry of at most 8 bytes that is not cmd or wo. -/
def subscribable (r : DictRow) : Bool :=
  decide (typeBytes r.type ≠ 0) && decide (r.access ≠ .cmd) && decide (r.access ≠ .wo)

/-- R386, R407: whether the entry that the session names may be subscribed to, if it sees it. -/
def subscribed? (x : Session) (idx sub : Nat) : Option Bool :=
  if (highestSub? x idx sub).isSome then some true else (visibleRow? x idx sub).map subscribable

/-- SUBSCRIBE (R407): kind 1 an entry, kind 2 an event group 1 to 12. -/
def execSubscribe (r : Req) (kind : Fin 256) (sub : Byte) (idx : BitVec 16) (interval : BitVec 32) (s : State) :
    Host.Outcome State Fault Refusal :=
  .next (withRequest s r 0x0C 0x0200 fun t x =>
    let all := (t.spr.sessions.map fun y => y.subs.length).foldl (· + ·) 0
    let add (n : Subscription) : State × Option (Status × List Byte) :=
      if 64 ≤ x.subs.length ∨ 1024 ≤ all then (t, some (.busy, []))
      else (updSession t x.id fun y => { y with subs := y.subs ++ [n], nextSub := y.nextSub + 1 },
            some (.ok, leBytes 2 x.nextSub))
    if kind.val = 1 then
      match subscribed? x idx.toNat sub.toNat with
      | none => (t, some (.notFound, []))
      | some p =>
        if p = false then (t, some (.wrongType, []))
        else if interval.toNat < 1 ∨ 60000 < interval.toNat then (t, some (.outOfRange, []))
        else add { number := x.nextSub, kind := 1, index := idx.toNat, sub := sub.toNat, intervalMs := interval.toNat,
                   lastValue := none, lastTime := 0 }
    else if kind.val = 2 then
      if 1 ≤ sub.toNat ∧ sub.toNat ≤ 12 then
        add { number := x.nextSub, kind := 2, index := 0, sub := sub.toNat, intervalMs := 0, lastValue := none, lastTime := 0 }
      else (t, some (.outOfRange, []))
    else (t, some (.outOfRange, [])))

/-- UNSUBSCRIBE (R407). -/
def execUnsubscribe (r : Req) (n : BitVec 16) (s : State) : Host.Outcome State Fault Refusal :=
  .next (withRequest s r 0x0D 0x0200 fun t x =>
    if x.subs.any fun b => decide (b.number = n.toNat) then
      (updSession t x.id fun y => { y with subs := y.subs.filter fun b => decide (b.number ≠ n.toNat) }, some (.ok, []))
    else (t, some (.notFound, [])))

/-- R407: the entry subscriptions that have a record to send now, each with its current value. -/
def dueRecords (s : State) (x : Session) : List (Subscription × Nat) :=
  x.subs.filterMap fun b =>
    if b.kind = 1 then
      let v := match highestSub? x b.index b.sub with | some n => n | none => entryValue s x b.index b.sub
      if b.lastValue = some v then none
      else if b.lastValue.isSome && decide (s.time.clock < b.lastTime + b.intervalMs * 1000000) then none
      else some (b, v)
    else none

/-- R407: put the due ENTRY records into the session's queue. -/
def queueDue (s : State) (x : Session) : Session × Nat :=
  (dueRecords s x).foldl (fun a d =>
    let r : NotifyRec :=
      { time := s.time.devTime, detail := 0, value := BitVec.ofNat 64 d.2, kind := 1, undisciplined := undisciplined s,
        index := d.1.index, sub := d.1.sub, lost := 0 }
    let q := queueRecord a.1 r
    let subs := q.1.subs.map fun b =>
      if b.number = d.1.number then { b with lastValue := some d.2, lastTime := s.time.clock } else b
    ({ q.1 with subs := subs }, if q.2 then a.2 + 1 else a.2)) (x, 0)

/-- R408: the 32 bytes of a record. -/
def NotifyRec.bytes (r : NotifyRec) : List Byte :=
  leBytes 3 r.lost ++ leBytes 1 r.sub ++ leBytes 2 r.index ++ leBytes 1 (if r.undisciplined then 1 else 0) ++
    leBytes 1 r.kind ++ leBytes 8 r.value.toNat ++ leBytes 8 r.detail.toNat ++ leBytes 8 r.time.toNat

/-- R408: one NOTIFY of a session: as many queued records as its maximum message carries. -/
def sendNotify (s : State) (id : Nat) : State :=
  match session? s id with
  | none => s
  | some x0 =>
    let (x, lost) := queueDue s x0
    let n := (x.maxMessage - 16) / 32
    let s1 := bumpCBy s 0xC02C 5 lost
    if x.queue.isEmpty then updSession s1 id fun _ => x
    else
      let body := (x.queue.take n).flatMap NotifyRec.bytes
      let s2 := updSession s1 id fun _ => { x with queue := x.queue.drop n, notifySeq := (x.notifySeq + 1) % 2 ^ 32 }
      emit s2 (.message x.source (message x.notifySeq 0x0E 0x40 0 id 0 body))

/-- R409: the session's notifies are pushed. -/
def transportPushed : Transport → Bool
  | .mailbox _ => false
  | _ => true

/-- NOTIFY (R407, R408): the device sends a NOTIFY to session `id`, unless its notifies are fetched. -/
def execNotify (id : BitVec 32) (s : State) : Host.Outcome State Fault Refusal :=
  match session? s id.toNat with
  | some x => if transportPushed x.transport then .next (sendNotify s id.toNat) else .next s
  | none => .next s

/-- MAILBOX_NOTIFY_FETCH (R409, R410): vendor command 0xC601 in the mailbox of VCS `v`. -/
def execMailboxNotifyFetch (v : Fin 64) (s : State) : Host.Outcome State Fault Refusal :=
  if !s.spr.serving then .next s
  else if transportEnabled s (.mailbox v.val) then
    .next (((s.spr.sessions.filter fun x => decide (x.transport = .mailbox v.val)).map fun x => x.id).foldl sendNotify s)
  else .next (emit s (.mailboxUnsupported v))

/-! ### Commit (R412 to R414) -/

/-- R412: the response body of a COMMIT. -/
def commitBody (s : State) (gen size : Nat) : List Byte := leBytes 8 gen ++ leBytes 4 size ++ leBytes 4 (eu s)

/-- R412 steps 1 to 3: take a snapshot `w` and check its energy; the check-only option ends here. -/
def startImage (s : State) (w : ImageWrite) (checkOnly : Bool) : State × Option (Status × List Byte) :=
  if s.spr.commit.isSome ∨ s.pow.vauxStage ≠ .none then (s, some (.busy, []))
  else
    let s1 := odSet (odSet s 0x8030 5 w.size) 0x1010 3 0
    if !holdupPasses s1 w.size then (odSet (bumpC s1 0xC02A 1) 0x1010 2 2, some (.holdupLow, []))
    else if checkOnly then (s1, some (.ok, commitBody s1 (odGet s1 0x1010 1) w.size))
    else ({ s1 with spr := { s1.spr with commit := some w } }, none)

/-- COMMIT (R412): option bit 0 is check only, from protocol version 2.3. -/
def execCommit (r : Req) (options : Byte) (s : State) : Host.Outcome State Fault Refusal :=
  .next (withRequest s r 0x09 0x0100 fun t x =>
    let im := storedImage t
    startImage t { asker := some (x.id, r.seq), msgType := 0x09, reqId := r.reqId, od := im.od, srcCfg := im.srcCfg,
                   guard := im.guard, size := (Config.imageBytes im.od).val }
      (options.getLsbD 0 && decide (0x0203 ≤ x.protocol)))

/-- R414: start a default-image write. Argument 0 keeps the stored values of indices 1100 to 113F. -/
def defaultImage (s : State) (asker : Option (Nat × Nat)) (reqId arg : Nat) : State × Option (Status × List Byte) :=
  if 1 < arg then (s, some (.outOfRange, []))
  else
    let kept := if arg = 0 then
        (newestSlot s).od.filter fun p => decide (0x1100 ≤ p.1 / 256) && decide (p.1 / 256 ≤ 0x113F)
      else []
    startImage s { asker := asker, msgType := 0x0A, reqId := reqId, od := kept, srcCfg := [], guard := []
                   size := (Config.imageBytes kept).val } false

/-- WRITE_DEFAULT_IMAGE (R414): COMMAND on OD 1010.04; the answer comes when the image has been written. -/
def execWriteDefaultImage (arg : Byte) (s : State) : Host.Outcome State Fault Refusal :=
  match defaultImage s none 0 arg.toNat with
  | (t, some (st, _)) => answered (t, st)
  | (t, none) => .next t

/-- R412 steps 4 to 6: the image and its journal record have been written to the slot that does not hold the newest valid
image. -/
def commitDone (s : State) (w : ImageWrite) : State :=
  let gen := odGet s 0x1010 1 + 1
  let im : ImageSlot := { valid := true, generation := gen, od := w.od, srcCfg := w.srcCfg, guard := w.guard }
  let spr := if newestIs0 s then { s.spr with slot1 := im, commit := none } else { s.spr with slot0 := im, commit := none }
  let s1 := odSet (odSet { s with spr := spr } 0x1010 1 gen) 0x1010 2 1
  let s2 := bumpC (odSet s1 0x1010 5 ((if s1.spr.slot0.valid then 1 else 0) + (if s1.spr.slot1.valid then 2 else 0))) 0xC02C 3
  match w.asker with
  | none => emit s2 (.status .ok)
  | some (id, seq) =>
    match session? s2 id with
    | some x =>
      let via := match x.executing.find? fun e => decide (e.1 = seq) with | some e => e.2 | none => x.source
      finish s2 id seq w.reqId w.msgType via .ok (if w.msgType = 0x09 then commitBody s2 gen w.size else [])
    | none => s2

/-- COMMIT_WRITE_DONE (R412, R413). -/
def execCommitWriteDone (s : State) : Host.Outcome State Fault Refusal :=
  match s.spr.commit with
  | none => .next s
  | some w => .next (resetStep4 (commitDone s w))

/-! ### COMMAND (R388, R398) -/

/-- COMMAND (R388, R398): execute a cmd entry. The argument must fit the entry's type. -/
def execCommand (r : Req) (idx : BitVec 16) (sub : Byte) (type : Byte) (arg : BitVec 64) (s : State) :
    Host.Outcome State Fault Refusal :=
  .next (withRequest s r 0x0A 0x0100 fun t x =>
    match visibleRow? x idx.toNat sub.toNat with
    | none => (t, some (absent x idx.toNat sub.toNat, []))
    | some d =>
      if d.persist = .certified then (t, some (.certified, []))
      else if d.access ≠ .cmd ∨ type.toNat ≠ d.type.code ∨ 256 ^ typeBytes d.type ≤ arg.toNat then (t, some (.wrongType, []))
      else if idx.toNat = 0x1010 then defaultImage t (some (x.id, r.seq)) r.reqId arg.toNat
      else
        let q := commandEntry t x idx.toNat sub.toNat arg.toNat
        (q.1, some (q.2, [])))

end Sys2Proof.Machine
end

