-- ==== Sys2Proof/Machine/Startup.lean ====
section
/-!
DEFINITION. Machine/Startup.lean: the steps of start-up (R340, R341): secure boot (R446), the loading of the stored image (R413),
the start of the main domain (R338, R471), the fabric self-test and the cullet map (R437 to R439), recovery (R200) and training; and
the reset (R494, R495).
-/

namespace Sys2Proof.Machine

/-! ### Step 2: secure boot (R444, R446) -/

/-- R446: the image of kind `k` in bank A or B. -/
def bankImage (s : State) (k : Nat) (bankB : Bool) : Option FwImage := tabFind? (2 * k + (if bankB then 1 else 0)) s.sec.banks

/-- R446: bank `bankB` of kind `k` passes its check. -/
def bankPasses (s : State) (k : Nat) (bankB : Bool) : Bool :=
  match bankImage s k bankB with
  | some i => decide (i.kind = k) && imageValid s i
  | none => false

/-- R446: the bank that kind `k` boots from: that of OD B011.03, else the other; none where both fail. -/
def bootBank (s : State) (k : Nat) : Option Bool :=
  let b := if k = 1 then s.sec.bootSec else s.sec.bootMgmt
  if bankPasses s k b then some b else if bankPasses s k (!b) then some (!b) else none

/-- R446: kind `k` runs from bank `b`; where that is not the bank of OD B011.03, F451 reports cause 1 with the kind and the bank
that failed. -/
def bootKind (s : State) (k : Nat) (b : Bool) : State :=
  let asked := if k = 1 then s.sec.bootSec else s.sec.bootMgmt
  let run := match bankImage s k b with | some i => tabPut k i s.sec.running | none => s.sec.running
  let sec := if k = 1 then { s.sec with running := run, runSecB := b } else { s.sec with running := run, runMgmtB := b }
  let s1 := { s with sec := sec }
  if asked = b then s1 else raiseFault s1 451 1 (k * 256 + (if asked then 1 else 0))

/-- R341, R446: firmware verification or a self-test fails: only the recovery service runs, and FAULT_N is driven low. -/
def bootFails (s : State) : State :=
  { s with sec := { s.sec with recovery := true }, pow := { s.pow with stopped := true }, pins := { s.pins with faultLow := true } }

/-- R444, R446, R466: step 2. -/
def startBoot (s : State) (f : StartupFind) : State :=
  match bootBank s 1, bootBank s 2 with
  | some a, some b =>
    if f.selfTestsPass then
      let s1 := bootKind (bootKind s 1 a) 2 b
      let s2 := drawn { s1 with sec := { s1.sec with selfTests := true, nonce := freshVal s1 }, mgmt := { s1.mgmt with sram := [] } }
      startupReached s2 2
    else bootFails s
  | _, _ => bootFails s

/-! ### Step 3: the stored image (R341, R342, R413) -/

/-- The table of a guard set from its rules in order. -/
def ruleTable (l : List GuardRule) : Tab GuardRule := tabOf l

/-- R272, R413: the number that a stored DOMAIN holds, if the image lists it. -/
def storedDomain (od : Tab Nat) (idx : Nat) : Option (List Byte) := (tabFind? (odKey idx 0) od).map (leBytes 256)

/-- R268: a link table or a source route table from its bytes. -/
def linkTable (b : List Byte) : Tab (BitVec 16) := tabOf ((List.range 15).map fun i => BitVec.ofNat 16 (leAt b (i * 2) 2))
def sourceTable (b : List Byte) : Tab (BitVec 64) := tabOf ((List.range 32).map fun i => BitVec.ofNat 64 (leAt b (i * 8) 8))

/-- The entries that a stored image holds as running values of the dictionary. -/
def imageEntries (od : Tab Nat) : Tab Nat := od.filter fun p => storedEntry p.1 && !(decide (0x6010 ≤ p.1 / 256) && decide (p.1 / 256 ≤ 0x6013))

/-- R413: the entries of `im` become the running values; an entry that it lacks takes its default. -/
def loadEntries (s : State) (im : ImageSlot) : State :=
  let kept := s.od.filter fun p => !storedEntry p.1
  { s with od := (imageEntries im.od).foldl (fun t p => tabPut p.1 p.2 t) kept
           spr := { s.spr with loaded := im.od } }

/-- R59, R413: the route banks: the active bank is bank 0, with epoch 0. -/
def loadRoutes (s : State) (im : ImageSlot) : State :=
  let links (idx : Nat) (d : Tab (BitVec 16)) := match storedDomain im.od idx with | some b => linkTable b | none => d
  let srcs (idx : Nat) := match storedDomain im.od idx with | some b => sourceTable b | none => []
  { s with fab := { s.fab with
      links0 := links 0x6012 fabReset.links0, links1 := links 0x6010 fabReset.links1, src0 := srcs 0x6013, src1 := srcs 0x6011 } }

/-- R237, R413, R422: the active guard set, of which the shadow set starts as a copy, and the source configuration. -/
def loadSets (s : State) (im : ImageSlot) : State :=
  let g := ruleTable im.guard
  { s with map := { s.map with guardActive := g, guardShadow := g, shadowDefault := odGet s 0x5030 6 }
           flt := { s.flt with cfg := im.srcCfg } }

/-- OD 1010.05: the valid slots. -/
def validSlots (s : State) : Nat := (if s.spr.slot0.valid then 1 else 0) + (if s.spr.slot1.valid then 2 else 0)

/-- R413: what OD 1010.01 and .05 read. -/
def showSlots (s : State) : State := odSet (odSet s 0x1010 1 (newestSlot s).generation) 0x1010 5 (validSlots s)

/-- R341: F440, where neither slot is valid. -/
def imageCheck (s : State) : State := if validSlots s = 0 then raiseFault s 440 0 0 else s

/-- R108: OD (2200 + v).02 follows the stored roles. -/
def nameAll (s : State) : State := (List.range 96).foldl (fun t p => if role t p = 1 then nameUpstream t p 1 else t) s

/-- R351, R494: the stored settings of each channel are taken over without interrupting it; a channel that is DISABLED and enabled
starts. -/
def slotsStart (s : State) : State :=
  (List.range 48).foldl (fun t c => if odGet t (0x8200 + c) 1 = 1 then slotEnable t c true else t) s

/-- R342: the measured capacitance, with F442 below 396 µF. -/
def reservoirMeasured (s : State) (uf : Nat) : State :=
  let s1 := { s with pow := { s.pow with capUf := uf } }
  if uf < 396 then raiseFault s1 442 0 (uf % 2 ^ 16) else s1

/-- Step 3: the dictionary is loaded, and the engine takes requests (R411). -/
def startDictionary (s : State) (f : StartupFind) : State :=
  let im := newestSlot s
  let s1 := showSlots (loadSets (loadRoutes (loadEntries s im) im) im)
  let s2 := reservoirMeasured (imageCheck (nameAll s1)) f.capUf
  startupReached (slotsStart { s2 with spr := { s2.spr with serving := true } }) 3

/-! ### Step 4: the main domain -/

/-- The entries, kept with the dictionary, that report state of the main domain and start again with it. -/
def mainEntry (k : Nat) : Bool :=
  let idx := k / 256
  let sub := k % 256
  match idx with
  | 0x3010 => decide (2 ≤ sub)
  | 0x3032 => true
  | 0x3033 => decide (sub = 3)
  | 0x3050 => decide (sub = 4) || decide (sub = 5)
  | 0x4002 => true
  | 0x4003 => true
  | 0x4012 => true
  | 0x4013 => true
  | 0x4020 => decide (sub = 1) || decide (sub = 5)
  | 0x4021 => true
  | 0x5010 => true
  | 0x5012 => true
  | 0x5020 => decide (sub = 4)
  | 0x5030 => decide (sub = 2)
  | 0x7003 => true
  | _ =>
    if 0x2100 ≤ idx ∧ idx < 0x2160 then decide (0x10 ≤ sub)
    else if 0x2200 ≤ idx ∧ idx < 0x2240 then decide (sub = 3)
    else if 0x3060 ≤ idx ∧ idx < 0x30A0 then decide (sub = 0x0B)
    else if idx = 0x4022 then decide (sub = 1)
    else if 0x4030 ≤ idx ∧ idx < 0x4070 then decide (6 ≤ sub)
    else if 0x6100 ≤ idx ∧ idx < 0x6110 then decide (0x10 ≤ sub)
    else if 0x7400 ≤ idx ∧ idx < 0x7410 then decide (sub = 3)
    else if 0x7700 ≤ idx ∧ idx < 0x7740 then decide (sub = 0x10) || decide (sub = 0x15) || decide (sub = 0x17)
    else if 0x7800 ≤ idx ∧ idx < 0x7C40 then
      (decide (6 ≤ sub) && decide (sub ≤ 8)) || decide (sub = 0x10) || decide (sub = 0x15) || decide (sub = 0x17)
    else if 0xB100 ≤ idx ∧ idx < 0xB110 then decide (7 ≤ sub)
    else false

/-- R471: the counters of the main domain start again at 0, and OD C030.03 gives the time. -/
def countersRestart (s : State) : State :=
  odSet { s with perf := { s.perf with cnt := s.perf.cnt.filter (fun p => decide (1344 ≤ p.1)), vcs := [], sets := [] } } 0xC030 3
    s.time.devTime.toNat

/-- R74, R105, R257: the states of islands, virtual switches and Aulum ports as the main domain starts. -/
def statesStart (s : State) : State :=
  let s1 := (List.range 16).foldl (fun t k =>
    let u := setIsland t k (if odGet t 0x3031 (k + 1) = 1 ∨ t.flt.isoIslands.contains k then 2 else 0)
    showAbsorbed u k) s
  let s2 := (List.range 64).foldl (fun t v => odSet t (0x2200 + v) 3 (if odGet t (0x2200 + v) 1 = 1 then 1 else 0)) s1
  let s3 := (List.range 16).foldl (fun t a => odSet t (aulIdx a) 0x10 (if odGet t (aulIdx a) 1 = 1 then linkDown else linkDisabled)) s2
  { s3 with fab := { s3.fab with heldClosed := s3.flt.isoIslands } }

/-- R113: the staged limits are committed; if that is refused, the defaults of R112 apply and F430 is raised. -/
def limitsStart (s : State) : State :=
  match bufferCommit s with
  | (t, .ok) => (List.range 4).foldl raiseLimits t
  | (t, st) => raiseFault t 430 0 (st.code.1 * 256 + odGet t 0x3010 4)

/-- R236: after a restart every guard stage holds the active set. -/
def stagesStart (s : State) : State := (List.range 17).foldl (fun t i => odSet t 0x5033 (i + 1) (odGet t 0x5030 3)) s

/-- Step 4: main power-good; the governor's first epoch (R362). -/
def startMain (s : State) : State :=
  let s1 := { s with
    od := s.od.filter (fun p => !mainEntry p.1)
    mov := movReset
    last := none
    pow := { s.pow with mainOn := true, restarting := false, gov := { govReset with epochs := some 0 }
                        sensors := s.pow.sensors.filter fun p => decide (p.1 = 57) } }
  let s2 := { s1 with prox := { s1.prox with seed := ownSwitch s1 } }
  startupReached (limitsStart (stagesStart (statesStart (countersRestart s2)))) 4

/-! ### Step 5: the fabric self-test and the cullet map (R39, R57, R437 to R439) -/

/-- R438: every written PENDING record becomes ACTIVE. -/
def culletActive (s : State) : State :=
  { s with flt := { s.flt with cullet := s.flt.cullet.map fun p =>
      if p.2.state = .pending ∧ p.2.written = true then (p.1, { p.2 with state := .active }) else p } }

/-- The locations of the ACTIVE records of a kind, in record order. -/
def activeRepairs (s : State) (kind : Nat) : List Nat :=
  (s.flt.cullet.filter fun p => decide (p.2.state = .active) && decide (p.2.kind.toNat = kind)).map fun p => p.2.location.toNat

/-- R39: the logical number of a retired physical slice passes to the lowest-numbered spare not yet in use. -/
def retireOne (retired : List Nat) (m : Tab Nat) (phys : Nat) : Tab Nat :=
  let carried (h : Nat) : Option Nat := (List.range 32).find? fun l => decide (tabGet l l m = h)
  match carried phys, [32, 33].find? fun h => !retired.contains h && (carried h).isNone with
  | some l, some h => tabSet l l h m
  | _, _ => m

/-- R39: which physical slice carries each logical one. -/
def sliceMapping (retired : List Nat) : Tab Nat := retired.foldl (retireOne retired) []

/-- R57: stop `n` has no agent but stop control and a home slice that is retired. -/
def stopIdle (retired : List Nat) (n : Nat) : Bool :=
  !((List.range 16).any fun k => decide (bridgeStop k = n)) && decide (n ≠ moverStop) && decide (n ≠ windowStop) &&
    (memAt n).isNone && (match sliceAt n with | some h => retired.contains h | none => true)

/-- R57: with the stops `l` bypassed, at most one lies on each ring, and every pair of stops that hold agents keeps a route that
turns at none of them. Every stop counts as holding an agent, its stop control (DESIGN CHOICE, log entry 23). -/
def bypassesAllow (l : List Nat) : Bool :=
  l.all fun p => l.all fun q =>
    decide (p = q) ||
      (decide (stopX p ≠ stopX q) && decide (stopY p ≠ stopY q) &&
        (l.contains (stopAt (stopX p) (stopY q)) || l.contains (stopAt (stopX q) (stopY p))))

/-- R57, R58: no network interface needs more than 16 override entries. -/
def overridesFit (s : State) : Bool :=
  s.fab.bypass.isEmpty || (List.range 144).all fun a => decide (((List.range 144).filter fun d => overridden s a d).length ≤ 16)

/-- R57: the bypass of stop `n` is applied, or F427 reports it as a defect that cannot be repaired; the flag then stops start-up. -/
def bypassStop (retired : List Nat) (r : State × Bool) (n : Nat) : State × Bool :=
  let t := { r.1 with fab := { r.1.fab with bypass := setInsert n r.1.fab.bypass } }
  if stopIdle retired n && bypassesAllow t.fab.bypass && overridesFit t then (t, r.2)
  else (raiseFault r.1 427 0 (2 ^ 40 + n), true)

/-- R205, R437: a retired cache way of a slice, in OD 4012. -/
def retiredWay (s : State) (loc : Nat) : State :=
  match logicalOf s (bits loc 13 8) with
  | some l => odSet s 0x4012 (l + 1) (odGet s 0x4012 (l + 1) ||| 2 ^ bits loc 3 0)
  | none => s

/-- R39, R57, R438: the cullet map is applied. -/
def culletApply (s : State) : State × Bool :=
  let s1 := culletActive s
  let retired := (activeRepairs s1 3).map fun loc => bits loc 5 0
  let s2 := { s1 with fab := { s1.fab with sliceMap := sliceMapping retired, bypass := [] } }
  let s3 := (activeRepairs s2 5).foldl retiredWay s2
  (activeRepairs s3 2).foldl (fun r loc => bypassStop retired r (bits loc 7 0)) (s3, false)

/-- R437: stop records that are PENDING or ACTIVE on the rings of stop `n`. -/
def ringRepaired (s : State) (n : Nat) : Bool :=
  s.flt.cullet.any fun p =>
    decide (p.2.kind = 2) && (decide (p.2.state = .pending) || decide (p.2.state = .active)) &&
      (decide (stopX (bits p.2.location.toNat 7 0) = stopX n) || decide (stopY (bits p.2.location.toNat 7 0) = stopY n))

/-- R439: a defect: a repair for the next reset; an island held CLOSED; or, where no repair can cover it, F427, and start-up stops. -/
def selfTestDefect (r : State × Bool) (d : SelfTestDefect) : State × Bool :=
  let s := r.1
  match d with
  | .island k =>
    let t := raiseFault s 427 0 (3 * 2 ^ 40 + k.val)
    (setIsland { t with fab := { t.fab with heldClosed := setInsert k.val t.fab.heldClosed } } k.val 2, r.2)
  | .slice h =>
    if 2 ≤ sliceRetirements s then (raiseFault (sliceRetire s h.val 0) 427 0 (2 * 2 ^ 40 + h.val), true)
    else (sliceRetire s h.val 0, r.2)
  | .stop n =>
    if ringRepaired s n.val then (raiseFault (raiseFault s 453 0 (2 * 2 ^ 40 + n.val)) 427 0 (2 ^ 40 + n.val), true)
    else if stopIdle (List.range 34) n.val then (culletMake s 2 0 n.val .pending, r.2)
    else (raiseFault s 427 0 (2 ^ 40 + n.val), true)
  | .row array row spare =>
    if spare then (culletMake s 4 0 (array.toNat * 2 ^ 16 + row.toNat) .pending, r.2)
    else (raiseFault (raiseFault s 453 0 (4 * 2 ^ 40 + array.toNat * 2 ^ 16 + row.toNat)) 427 0 (4 * 2 ^ 40 + row.toNat), true)

/-- Start-up stops at the step it has come to (R341, R439). -/
def startupStops (s : State) : State := { s with pow := { s.pow with stopped := true } }

/-- Step 5. -/
def startSelfTest (s : State) (f : StartupFind) : State :=
  let r := f.defects.foldl selfTestDefect (culletApply s)
  let s1 := startupReached r.1 5
  if r.2 then startupStops s1 else s1

/-- Step 6: LPDDR6 training; a channel that fails stops start-up with F441. -/
def startMemory (s : State) (f : StartupFind) : State :=
  let s1 := startupReached s 6
  match f.channel with
  | some c => startupStops (raiseFault s1 441 0 c.val)
  | none => s1

/-! ### Step 7: the snoop filter, the remap backing and RECOVERY (R200) -/

/-- R200: entry `idx.sub` as the image that start-up loaded at step 3 stores it, else its default. -/
def loadedEntry (s : State) (idx sub : Nat) : Nat := tabGet (dictDefault idx sub) (odKey idx sub) s.spr.loaded

/-- R200: the VCSs of a mask whose enable the loaded image stores as 1. -/
def storedVcs (s : State) (mask : BitVec 64) : BitVec 64 :=
  (List.range 64).foldl (fun m v =>
    if mask.getLsbD v ∧ loadedEntry s (0x2200 + v) 1 = 1 then m ||| BitVec.twoPow 64 v else m) 0

/-- R200: every other member switch of the loaded image. -/
def storedMembers (s : State) : List Nat :=
  (List.range 1024).filter fun w => (loadedEntry s 0x6001 0).testBit w && decide (w ≠ ownSwitch s)

/-- R200: a range starts in RECOVERY unless its pending set is empty. -/
def startRange (s : State) (i base limit : Nat) (vcs : BitVec 64) (sw : List Nat) : State :=
  setRecovery s i
    { active := !(decide (vcs = 0) && sw.isEmpty), base := base, limit := limit, vcs := vcs, switches := sw, timeoutRaised := false }

/-- R200: the ranges that the loaded image enables, or the implicit one. -/
def startRecovery (s : State) : State :=
  let on := (List.range 64).filter fun i => decide (loadedEntry s (0x4030 + i) 1 = 1)
  if on.isEmpty then
    startRange { s with dir := { s.dir with implicitRange := true } } 0 0 (2 ^ 44 - 1) (storedVcs s (BitVec.allOnes 64)) (storedMembers s)
  else
    on.foldl (fun t i =>
      let e := loadedEntry t (0x4030 + i)
      startRange t i (e 2) (e 3) (storedVcs t (BitVec.ofNat 64 (e 4))) (if e 5 = 1 then storedMembers t else [])) s

/-- Step 7: the snoop filter is cleared and the remap backing set UNMAPPED (R213). -/
def startDirectory (s : State) : State :=
  let s1 := { s with dir := { s.dir with sf := [], cache := [] }, map := { s.map with backing := [] } }
  startupReached (startRecovery s1) 7

/-! ### Steps 8 and 9: epochs, training and readiness -/

/-- R240, R437: the lane map of port `a`: its own lanes, with those that a repair has moved. -/
def startLanes (s : State) (a : Nat) : Nat :=
  let moved := (activeRepairs s 1).filter fun loc => decide (bits loc 19 16 = a)
  (List.range 4).foldl (fun n i =>
    let own := ownLane a i
    let lane := moved.foldl (fun k loc => if bits loc 7 0 = k then bits loc 15 8 else k) own
    n + lane * 2 ^ (8 * i)) 0

/-- R260: the switch epoch and the port epochs are drawn. -/
def drawEpochs (s : State) : State :=
  let q := drawEpoch s
  (List.range 16).foldl (fun t a => odSet (drawPortEpoch t a) (aulIdx a) 0x17 (startLanes t a)) (odSet q.1 0x6000 5 q.2)

/-- R107 step 1: PERST_N of a DOWNSTREAM port without a slot channel is low when start-up comes to its training. -/
def perstAtStart (s : State) (p : Nat) : State :=
  if role s p = 2 ∧ (slotOfPort s p).isNone then perstDrive s p else s

/-- R340, R107: enabled CXL and Aulum ports start training. -/
def trainAll (s : State) : State :=
  let s1 := (List.range 96).foldl (fun t p => trainPort (perstAtStart t p) p) s
  (List.range 16).foldl (fun t a =>
    if odGet t (aulIdx a) 1 = 1 ∧ islandState t a = 0 ∧ !t.flt.isoAulum.contains a then tryTraining t a else t) s1

/-- Step 8. -/
def startLinks (s : State) : State := trainAll (startupReached (drawEpochs s) 8)

/-- Step 9: READY high, and the notify of readiness. -/
def startReady (s : State) : State :=
  let s1 := startupReached s 9
  notify { s1 with pins := { s1.pins with ready := true } } 0x8010 1 9 0

/-- R337, R338, R341, R492: main power may be switched on: VIN12 is qualified and REFCLK_SYS stable, and a lost main domain is to
restart. -/
def mainMayStart (s : State) : Bool :=
  s.pow.vinQualified && decide (odGet s 0x8043 1 = 1) && (s.last.isNone || s.pow.restarting)

/-- STARTUP_STEP_COMPLETE (R340, R341): the step after the one reached completes, or start-up holds or stops there. -/
def execStartupStepComplete (f : StartupFind) (s : State) : Host.Outcome State Fault Refusal :=
  if !s.pow.vauxGood || s.pow.stopped || s.pins.inReset then .next s
  else
    match s.pow.step with
    | 1 => if s.pins.resetN then .next (startBoot s f) else .next s
    | 2 => .next (startDictionary s f)
    | 3 => if mainMayStart s then .next (startMain s) else .next s
    | 4 => .next (startSelfTest s f)
    | 5 => .next (startMemory s f)
    | 6 => .next (startDirectory s)
    | 7 => .next (startLinks s)
    | 8 => .next (startReady s)
    | _ => .next s

/-! ### Reset (R494, R495) -/

/-- RESET_N_FALL (R494): RESET_N has been low for 1 µs. Without VAUX power-good it only holds start-up at step 1 (R495). -/
def execResetNFall (s : State) : Host.Outcome State Fault Refusal :=
  let s1 := { s with pins := { s.pins with resetN := false } }
  if s.pow.vauxGood then .next (resetRecognised s1) else .next s1

/-- RESET_RELEASE (R494 step 5): RESET_N is high; with nothing being written and the main domain off, start-up runs again. -/
def execResetRelease (s : State) : Host.Outcome State Fault Refusal :=
  let s1 := { s with pins := { s.pins with resetN := true } }
  if s1.pins.inReset && s1.pow.vauxGood && !mramBusy s1 && !s1.pow.mainOn then .next (restart s1) else .next s1

end Sys2Proof.Machine
end

