-- ==== Sys2Proof/Machine/Dispatch.lean ====
section
/-! DEFINITION. Machine/Dispatch.lean: each command's meaning. -/

namespace Sys2Proof.Machine

def exec (i : Instr) (s : State) : Host.Outcome State Fault Refusal :=
  match i with
  | .crossingUnitReceive c w => Sys2Proof.Machine.execCrossingUnitReceive c w s
  | .crossingResend c => Sys2Proof.Machine.execCrossingResend c s
  | .unitInjection n a v => Sys2Proof.Machine.execUnitInjection n a v s
  | .ringHop m => Sys2Proof.Machine.execRingHop m s
  | .starvationGuard q => Sys2Proof.Machine.execStarvationGuard q s
  | .routeTableWrite t => Sys2Proof.Machine.execRouteTableWrite t s
  | .routeCommit => Sys2Proof.Machine.execRouteCommit s
  | .routeDrainComplete => Sys2Proof.Machine.execRouteDrainComplete s
  | .islandRequestClosed k => Sys2Proof.Machine.execIslandRequestClosed k s
  | .islandRequestOpen k => Sys2Proof.Machine.execIslandRequestOpen k s
  | .islandDrainComplete k => Sys2Proof.Machine.execIslandDrainComplete k s
  | .closingDrainTimeout k => Sys2Proof.Machine.execClosingDrainTimeout k s
  | .bridgeReady k => Sys2Proof.Machine.execBridgeReady k s
  | .bridgeSelfCheckFail k => Sys2Proof.Machine.execBridgeSelfCheckFail k s
  | .openingTimeout k => Sys2Proof.Machine.execOpeningTimeout k s
  | .portRoleWrite p r => Sys2Proof.Machine.execPortRoleWrite p r s
  | .portWidthWrite p w => Sys2Proof.Machine.execPortWidthWrite p w s
  | .portConfigWrite p x => Sys2Proof.Machine.execPortConfigWrite p x s
  | .portTrained p x => Sys2Proof.Machine.execPortTrained p x s
  | .upstreamTrainingRetry p => Sys2Proof.Machine.execUpstreamTrainingRetry p s
  | .l0pWidthRequest p w => Sys2Proof.Machine.execL0pWidthRequest p w s
  | .laneMargining p lane timing steps => Sys2Proof.Machine.execLaneMargining p lane timing steps s
  | .bindVppb src v d p l => Sys2Proof.Machine.execBindVppb src v d p l s
  | .unbindVppb src v d opt => Sys2Proof.Machine.execUnbindVppb src v d opt s
  | .vppbPartnerL0 v d => Sys2Proof.Machine.execVppbPartnerL0 v d s
  | .managedRemoveTimeout v d => Sys2Proof.Machine.execManagedRemoveTimeout v d s
  | .parseIngress p ms => Sys2Proof.Machine.execParseIngress p ms s
  | .cxlioRoute p vn => Sys2Proof.Machine.execCxlioRoute p vn s
  | .hdmDecoderCommit v ix base size ways gran commit => Sys2Proof.Machine.execHdmDecoderCommit v ix base size ways gran commit s
  | .decoderPoolWindowWrite v ix len x => Sys2Proof.Machine.execDecoderPoolWindowWrite v ix len x s
  | .initiateDynamicCapacityAdd v xs => Sys2Proof.Machine.execInitiateDynamicCapacityAdd v xs s
  | .addDcResponse v bases => Sys2Proof.Machine.execAddDcResponse v bases s
  | .releaseDynamicCapacity v bases => Sys2Proof.Machine.execReleaseDynamicCapacity v bases s
  | .initiateDynamicCapacityRelease v bases forced => Sys2Proof.Machine.execInitiateDynamicCapacityRelease v bases forced s
  | .extentRemoved v base => Sys2Proof.Machine.execExtentRemoved v base s
  | .identify => Sys2Proof.Machine.execIdentify s
  | .backgroundOperationStatus => Sys2Proof.Machine.execBackgroundOperationStatus s
  | .getResponseMessageLimit => Sys2Proof.Machine.execGetResponseMessageLimit s
  | .setResponseMessageLimit n => Sys2Proof.Machine.execSetResponseMessageLimit n s
  | .identifySwitchDevice => Sys2Proof.Machine.execIdentifySwitchDevice s
  | .getPhysicalPortState ps => Sys2Proof.Machine.execGetPhysicalPortState ps s
  | .physicalPortControl p op => Sys2Proof.Machine.execPhysicalPortControl p op s
  | .sendPpbCxlioConfigRequest p reg w => Sys2Proof.Machine.execSendPpbCxlioConfigRequest p reg w s
  | .getVirtualCxlSwitchInfo v => Sys2Proof.Machine.execGetVirtualCxlSwitchInfo v s
  | .generateAerEvent v d err => Sys2Proof.Machine.execGenerateAerEvent v d err s
  | .tunnelManagementCommand p bytes => Sys2Proof.Machine.execTunnelManagementCommand p bytes s
  | .sendLdCxlioConfigRequest p ld a => Sys2Proof.Machine.execSendLdCxlioConfigRequest p ld a s
  | .sendLdCxlioMemoryRequest p ld a => Sys2Proof.Machine.execSendLdCxlioMemoryRequest p ld a s
  | .getDcdInfo => Sys2Proof.Machine.execGetDcdInfo s
  | .getHostDcRegionConfiguration v => Sys2Proof.Machine.execGetHostDcRegionConfiguration v s
  | .setDcRegionConfiguration v r base len => Sys2Proof.Machine.execSetDcRegionConfiguration v r base len s
  | .getDcRegionExtentLists v from_ n => Sys2Proof.Machine.execGetDcRegionExtentLists v from_ n s
  | .fmapiUnsupported opcode => Sys2Proof.Machine.execFmapiUnsupported opcode s
  | .poolLdLost p mask => Sys2Proof.Machine.execPoolLdLost p mask s
  | .poisonSweepStep => Sys2Proof.Machine.execPoisonSweepStep s
  | .vcsEnableWrite v on => Sys2Proof.Machine.execVcsEnableWrite v on s
  | .perstAssert p hot => Sys2Proof.Machine.execPerstAssert p hot s
  | .vcsResetRelease p => Sys2Proof.Machine.execVcsResetRelease p s
  | .secondaryBusReset v d => Sys2Proof.Machine.execSecondaryBusReset v d s
  | .portHotReset p => Sys2Proof.Machine.execPortHotReset p s
  | .portFundamentalReset p => Sys2Proof.Machine.execPortFundamentalReset p s
  | .portRetrain p => Sys2Proof.Machine.execPortRetrain p s
  | .portCxlReset p => Sys2Proof.Machine.execPortCxlReset p s
  | .perstRelease p => Sys2Proof.Machine.execPerstRelease p s
  | .bufferLimitCommit => Sys2Proof.Machine.execBufferLimitCommit s
  | .raisedLimitsActive d => Sys2Proof.Machine.execRaisedLimitsActive d s
  | .cutThroughUnitArrive port v => Sys2Proof.Machine.execCutThroughUnitArrive port v s
  | .egressFlitSent port vn => Sys2Proof.Machine.execEgressFlitSent port vn s
  | .ageingExamination hp => Sys2Proof.Machine.execAgeingExamination hp s
  | .portDown p => Sys2Proof.Machine.execPortDown p s
  | .traceRingRead n => Sys2Proof.Machine.execTraceRingRead n s
  | .traceReadIndexWrite ix => Sys2Proof.Machine.execTraceReadIndexWrite ix s
  | .homeIntakeCycle l => Sys2Proof.Machine.execHomeIntakeCycle l s
  | .seniorHoldExpire l line => Sys2Proof.Machine.execSeniorHoldExpire l line s
  | .seniorEntryTimeout l ix => Sys2Proof.Machine.execSeniorEntryTimeout l ix s
  | .remapCacheFill l g bad => Sys2Proof.Machine.execRemapCacheFill l g bad s
  | .poolPortMemrd p => Sys2Proof.Machine.execPoolPortMemrd p s
  | .poolPortMemwr p => Sys2Proof.Machine.execPoolPortMemwr p s
  | .wrpull p => Sys2Proof.Machine.execWrpull p s
  | .poolPortMemdata p => Sys2Proof.Machine.execPoolPortMemdata p s
  | .poolPortExpanderResponse p dat => Sys2Proof.Machine.execPoolPortExpanderResponse p dat s
  | .proxyHostRequest v => Sys2Proof.Machine.execProxyHostRequest v s
  | .proxyHostWrite v => Sys2Proof.Machine.execProxyHostWrite v s
  | .proxyResponse v dat => Sys2Proof.Machine.execProxyResponse v dat s
  | .proxyBackoffEnd ag t => Sys2Proof.Machine.execProxyBackoffEnd ag t s
  | .proxySnoop v => Sys2Proof.Machine.execProxySnoop v s
  | .proxyBirsp v => Sys2Proof.Machine.execProxyBirsp v s
  | .biconflict v => Sys2Proof.Machine.execBiconflict v s
  | .remoteAgentReceive a v => Sys2Proof.Machine.execRemoteAgentReceive a v s
  | .combinedReply a => Sys2Proof.Machine.execCombinedReply a s
  | .moverCacheSnoop => Sys2Proof.Machine.execMoverCacheSnoop s
  | .snoopFilterFill l t => Sys2Proof.Machine.execSnoopFilterFill l t s
  | .snoopFilterInsertion l => Sys2Proof.Machine.execSnoopFilterInsertion l s
  | .declarePeerLost w => Sys2Proof.Machine.execDeclarePeerLost w s
  | .removalPassStep => Sys2Proof.Machine.execRemovalPassStep s
  | .removalPassComplete => Sys2Proof.Machine.execRemovalPassComplete s
  | .flushRangeExecute base limit => Sys2Proof.Machine.execFlushRangeExecute base limit s
  | .rangeWalkStep ix => Sys2Proof.Machine.execRangeWalkStep ix s
  | .rangeWalkComplete ix => Sys2Proof.Machine.execRangeWalkComplete ix s
  | .recoveryFlushComplete v => Sys2Proof.Machine.execRecoveryFlushComplete v s
  | .gpfCompletion v => Sys2Proof.Machine.execGpfCompletion v s
  | .recoverydone w => Sys2Proof.Machine.execRecoverydone w s
  | .abandonVcs ix v => Sys2Proof.Machine.execAbandonVcs ix v s
  | .abandonSwitch ix w => Sys2Proof.Machine.execAbandonSwitch ix w s
  | .recoveryTimeout ix => Sys2Proof.Machine.execRecoveryTimeout ix s
  | .recoveryRequestReceive w => Sys2Proof.Machine.execRecoveryRequestReceive w s
  | .directoryUncorrectable e => Sys2Proof.Machine.execDirectoryUncorrectable e s
  | .marverPassStep blocks way => Sys2Proof.Machine.execMarverPassStep blocks way s
  | .partitionCommit => Sys2Proof.Machine.execPartitionCommit s
  | .partitionClearDone => Sys2Proof.Machine.execPartitionClearDone s
  | .remapEntryWrite g v => Sys2Proof.Machine.execRemapEntryWrite g v s
  | .remapWriteComplete => Sys2Proof.Machine.execRemapWriteComplete s
  | .openRemapGate => Sys2Proof.Machine.execOpenRemapGate s
  | .remapBulkLoad records => Sys2Proof.Machine.execRemapBulkLoad records s
  | .moveExecute sess g dest restore => Sys2Proof.Machine.execMoveExecute sess g dest restore s
  | .movePageStart m => Sys2Proof.Machine.execMovePageStart m s
  | .movePageClear m => Sys2Proof.Machine.execMovePageClear m s
  | .movePageComplete m => Sys2Proof.Machine.execMovePageComplete m s
  | .movePageAbandon m => Sys2Proof.Machine.execMovePageAbandon m s
  | .moveGranuleClear m => Sys2Proof.Machine.execMoveGranuleClear m s
  | .moveCancel m => Sys2Proof.Machine.execMoveCancel m s
  | .salvagePage m => Sys2Proof.Machine.execSalvagePage m s
  | .restoreFillComplete m => Sys2Proof.Machine.execRestoreFillComplete m s
  | .guardCommit => Sys2Proof.Machine.execGuardCommit s
  | .guardStageSwap g => Sys2Proof.Machine.execGuardStageSwap g s
  | .copyActiveSetToShadow => Sys2Proof.Machine.execCopyActiveSetToShadow s
  | .aulumFlitReceive a blocks => Sys2Proof.Machine.execAulumFlitReceive a blocks s
  | .aulumFlitTransmit a => Sys2Proof.Machine.execAulumFlitTransmit a s
  | .ackTimerExpire a => Sys2Proof.Machine.execAckTimerExpire a s
  | .nakReceived a => Sys2Proof.Machine.execNakReceived a s
  | .replayTimerExpire a => Sys2Proof.Machine.execReplayTimerExpire a s
  | .spareReq a blocks => Sys2Proof.Machine.execSpareReq a blocks s
  | .spareAck a blocks => Sys2Proof.Machine.execSpareAck a blocks s
  | .spareRefuse a blocks => Sys2Proof.Machine.execSpareRefuse a blocks s
  | .resume a blocks => Sys2Proof.Machine.execResume a blocks s
  | .pauseTimeout a => Sys2Proof.Machine.execPauseTimeout a s
  | .ts a work spares blocks => Sys2Proof.Machine.execTs a work spares blocks s
  | .trainingTimeout a => Sys2Proof.Machine.execTrainingTimeout a s
  | .retrainInterval a => Sys2Proof.Machine.execRetrainInterval a s
  | .syncLoss a => Sys2Proof.Machine.execSyncLoss a s
  | .aulumPortEnable a => Sys2Proof.Machine.execAulumPortEnable a s
  | .aulumPortDisable a => Sys2Proof.Machine.execAulumPortDisable a s
  | .restartGraceExpire => Sys2Proof.Machine.execRestartGraceExpire s
  | .restartNotice w epoch => Sys2Proof.Machine.execRestartNotice w epoch s
  | .restartNoticeRepeat w => Sys2Proof.Machine.execRestartNoticeRepeat w s
  | .restartNoticeAck w => Sys2Proof.Machine.execRestartNoticeAck w s
  | .quarantineExpire q => Sys2Proof.Machine.execQuarantineExpire q s
  | .systemNumberingWrite ix v => Sys2Proof.Machine.execSystemNumberingWrite ix v s
  | .queueEnable fn isCq loc addr => Sys2Proof.Machine.execQueueEnable fn isCq loc addr s
  | .qcbEnableReadDone isCq q => Sys2Proof.Machine.execQcbEnableReadDone isCq q s
  | .queueDisable fn isCq loc => Sys2Proof.Machine.execQueueDisable fn isCq loc s
  | .sqStopComplete q => Sys2Proof.Machine.execSqStopComplete q s
  | .sqDoorbell fn loc => Sys2Proof.Machine.execSqDoorbell fn loc s
  | .cqDoorbell fn loc => Sys2Proof.Machine.execCqDoorbell fn loc s
  | .sqQcbReadDone q => Sys2Proof.Machine.execSqQcbReadDone q s
  | .descriptorFetchDone q => Sys2Proof.Machine.execDescriptorFetchDone q s
  | .nop q => Sys2Proof.Machine.execNop q s
  | .copy q => Sys2Proof.Machine.execCopy q s
  | .fill q => Sys2Proof.Machine.execFill q s
  | .zero q => Sys2Proof.Machine.execZero q s
  | .compare q => Sys2Proof.Machine.execCompare q s
  | .check q => Sys2Proof.Machine.execCheck q s
  | .atomicFetchAdd q => Sys2Proof.Machine.execAtomicFetchAdd q s
  | .atomicSwap q => Sys2Proof.Machine.execAtomicSwap q s
  | .atomicCompareAndSwap q => Sys2Proof.Machine.execAtomicCompareAndSwap q s
  | .flush q => Sys2Proof.Machine.execFlush q s
  | .fence q => Sys2Proof.Machine.execFence q s
  | .mark q => Sys2Proof.Machine.execMark q s
  | .migrateGranule q => Sys2Proof.Machine.execMigrateGranule q s
  | .pieceComplete q ix => Sys2Proof.Machine.execPieceComplete q ix s
  | .descriptorComplete q ix => Sys2Proof.Machine.execDescriptorComplete q ix s
  | .poolMemoryRead => Sys2Proof.Machine.execPoolMemoryRead s
  | .poolMemoryWrite => Sys2Proof.Machine.execPoolMemoryWrite s
  | .poolDeferrableMemoryWrite => Sys2Proof.Machine.execPoolDeferrableMemoryWrite s
  | .poolFetchadd => Sys2Proof.Machine.execPoolFetchadd s
  | .poolSwap => Sys2Proof.Machine.execPoolSwap s
  | .poolCas => Sys2Proof.Machine.execPoolCas s
  | .flushWholeMoverCache => Sys2Proof.Machine.execFlushWholeMoverCache s
  | .checkUnitOwnerWrite u fn => Sys2Proof.Machine.execCheckUnitOwnerWrite u fn s
  | .checkUnitContextWrite u ctx => Sys2Proof.Machine.execCheckUnitContextWrite u ctx s
  | .functionAssign f v slot => Sys2Proof.Machine.execFunctionAssign f v slot s
  | .functionUnassign f => Sys2Proof.Machine.execFunctionUnassign f s
  | .queueMove sess isCq q owner loc => Sys2Proof.Machine.execQueueMove sess isCq q owner loc s
  | .shareMove a b n => Sys2Proof.Machine.execShareMove a b n s
  | .counterSetMove c fn => Sys2Proof.Machine.execCounterSetMove c fn s
  | .logProducerWriteback c => Sys2Proof.Machine.execLogProducerWriteback c s
  | .logDoorbell v c => Sys2Proof.Machine.execLogDoorbell v c s
  | .logRearmDone c => Sys2Proof.Machine.execLogRearmDone c s
  | .logEnable c lcb => Sys2Proof.Machine.execLogEnable c lcb s
  | .logDisable c => Sys2Proof.Machine.execLogDisable c s
  | .resetBitmap c ix => Sys2Proof.Machine.execResetBitmap c ix s
  | .bitmapClearDone c => Sys2Proof.Machine.execBitmapClearDone c s
  | .controlPageReset n => Sys2Proof.Machine.execControlPageReset n s
  | .functionLevelReset n => Sys2Proof.Machine.execFunctionLevelReset n s
  | .vfEnableClear v => Sys2Proof.Machine.execVfEnableClear v s
  | .functionReset n => Sys2Proof.Machine.execFunctionReset n s
  | .functionResetComplete n => Sys2Proof.Machine.execFunctionResetComplete n s
  | .supplySample vinMv vinMa vauxMv vauxMa resMv => Sys2Proof.Machine.execSupplySample vinMv vinMa vauxMv vauxMa resMv s
  | .vauxPowerGood => Sys2Proof.Machine.execVauxPowerGood s
  | .vin12Qualified => Sys2Proof.Machine.execVin12Qualified s
  | .startupStepComplete f => Sys2Proof.Machine.execStartupStepComplete f s
  | .crashSnapshot => Sys2Proof.Machine.execCrashSnapshot s
  | .auxiliaryDomainOff => Sys2Proof.Machine.execAuxiliaryDomainOff s
  | .slotTick c m => Sys2Proof.Machine.execSlotTick c m s
  | .insertionDelayExpire c => Sys2Proof.Machine.execInsertionDelayExpire c s
  | .faultTimerExpire c => Sys2Proof.Machine.execFaultTimerExpire c s
  | .retryTimerExpire c => Sys2Proof.Machine.execRetryTimerExpire c s
  | .rampTimeout c => Sys2Proof.Machine.execRampTimeout c s
  | .gateWontRiseExpire c => Sys2Proof.Machine.execGateWontRiseExpire c s
  | .retryCountClear c => Sys2Proof.Machine.execRetryCountClear c s
  | .slotChannelEnable c => Sys2Proof.Machine.execSlotChannelEnable c s
  | .slotChannelDisable c => Sys2Proof.Machine.execSlotChannelDisable c s
  | .clearLatch c => Sys2Proof.Machine.execClearLatch c s
  | .powerRequest c on byHost => Sys2Proof.Machine.execPowerRequest c on byHost s
  | .governorEpoch measured readings demand => Sys2Proof.Machine.execGovernorEpoch measured readings demand s
  | .thermalNarrowing => Sys2Proof.Machine.execThermalNarrowing s
  | .thermalResponseEnd => Sys2Proof.Machine.execThermalResponseEnd s
  | .powerCapExceeded => Sys2Proof.Machine.execPowerCapExceeded s
  | .busAccess reqs => Sys2Proof.Machine.execBusAccess reqs s
  | .busTimeout m id => Sys2Proof.Machine.execBusTimeout m id s
  | .lateResponse m id => Sys2Proof.Machine.execLateResponse m id s
  | .apertureSelectWrite v => Sys2Proof.Machine.execApertureSelectWrite v s
  | .apertureAccess m id o k => Sys2Proof.Machine.execApertureAccess m id o k s
  | .mpuCommit k => Sys2Proof.Machine.execMpuCommit k s
  | .mpuCopy k => Sys2Proof.Machine.execMpuCopy k s
  | .exceptionReturn k => Sys2Proof.Machine.execExceptionReturn k s
  | .eventLogPost m id code data => Sys2Proof.Machine.execEventLogPost m id code data s
  | .hello seq reqId via pmax omax mode maxMsg name spdm => Sys2Proof.Machine.execHello seq reqId via pmax omax mode maxMsg name spdm s
  | .bye r => Sys2Proof.Machine.execBye r s
  | .keepalive r => Sys2Proof.Machine.execKeepalive r s
  | .read r items => Sys2Proof.Machine.execRead r items s
  | .write r items => Sys2Proof.Machine.execWrite r items s
  | .describe r idx sub => Sys2Proof.Machine.execDescribe r idx sub s
  | .segRead r idx sub offset length => Sys2Proof.Machine.execSegRead r idx sub offset length s
  | .segWrite r idx sub first last offset total data => Sys2Proof.Machine.execSegWrite r idx sub first last offset total data s
  | .commit r options => Sys2Proof.Machine.execCommit r options s
  | .commitWriteDone => Sys2Proof.Machine.execCommitWriteDone s
  | .writeDefaultImage arg => Sys2Proof.Machine.execWriteDefaultImage arg s
  | .subscribe r kind sub idx interval => Sys2Proof.Machine.execSubscribe r kind sub idx interval s
  | .unsubscribe r n => Sys2Proof.Machine.execUnsubscribe r n s
  | .notify id => Sys2Proof.Machine.execNotify id s
  | .sessionTimeout id => Sys2Proof.Machine.execSessionTimeout id s
  | .usbDetach => Sys2Proof.Machine.execUsbDetach s
  | .mailboxNotifyFetch v => Sys2Proof.Machine.execMailboxNotifyFetch v s
  | .faultReport f own => Sys2Proof.Machine.execFaultReport f own s
  | .railFault f invalid => Sys2Proof.Machine.execRailFault f invalid s
  | .handlingTimerExpire f => Sys2Proof.Machine.execHandlingTimerExpire f s
  | .acknowledgeC2Source n sid => Sys2Proof.Machine.execAcknowledgeC2Source n sid s
  | .enterSafeState => Sys2Proof.Machine.execEnterSafeState s
  | .resetFjq9640 => Sys2Proof.Machine.execResetFjq9640 s
  | .clearStickyBit n => Sys2Proof.Machine.execClearStickyBit n s
  | .clearFirstErrorLatch => Sys2Proof.Machine.execClearFirstErrorLatch s
  | .injectionUnlock sid => Sys2Proof.Machine.execInjectionUnlock sid s
  | .injectionLock => Sys2Proof.Machine.execInjectionLock s
  | .injectStop f => Sys2Proof.Machine.execInjectStop f s
  | .injectOneShot f => Sys2Proof.Machine.execInjectOneShot f s
  | .injectContinuous f => Sys2Proof.Machine.execInjectContinuous f s
  | .injectRail f => Sys2Proof.Machine.execInjectRail f s
  | .sourceConfigurationWrite rs => Sys2Proof.Machine.execSourceConfigurationWrite rs s
  | .collectorSelfError => Sys2Proof.Machine.execCollectorSelfError s
  | .writeSnapshotNow => Sys2Proof.Machine.execWriteSnapshotNow s
  | .withdrawPendingRecord n => Sys2Proof.Machine.execWithdrawPendingRecord n s
  | .retirePhysicalSlice n => Sys2Proof.Machine.execRetirePhysicalSlice n s
  | .culletWriteRetry => Sys2Proof.Machine.execCulletWriteRetry s
  | .raiseRollbackCounter c => Sys2Proof.Machine.execRaiseRollbackCounter c s
  | .firmwareImage sid ix => Sys2Proof.Machine.execFirmwareImage sid ix s
  | .revokeKeySlot sid k => Sys2Proof.Machine.execRevokeKeySlot sid k s
  | .certifiedPackage sid p => Sys2Proof.Machine.execCertifiedPackage sid p s
  | .getVersion c => Sys2Proof.Machine.execGetVersion c s
  | .getCapabilities c v => Sys2Proof.Machine.execGetCapabilities c v s
  | .negotiateAlgorithms c algs => Sys2Proof.Machine.execNegotiateAlgorithms c algs s
  | .getDigests c => Sys2Proof.Machine.execGetDigests c s
  | .getCertificate c slot offset length => Sys2Proof.Machine.execGetCertificate c slot offset length s
  | .challenge c => Sys2Proof.Machine.execChallenge c s
  | .getMeasurements c op signed => Sys2Proof.Machine.execGetMeasurements c op signed s
  | .keyExchange c => Sys2Proof.Machine.execKeyExchange c s
  | .finish c sid verified => Sys2Proof.Machine.execFinish c sid verified s
  | .heartbeat c sid => Sys2Proof.Machine.execHeartbeat c sid s
  | .keyUpdate c sid => Sys2Proof.Machine.execKeyUpdate c sid s
  | .endSession c sid => Sys2Proof.Machine.execEndSession c sid s
  | .chunkSend c seq data last => Sys2Proof.Machine.execChunkSend c seq data last s
  | .chunkGet c seq total => Sys2Proof.Machine.execChunkGet c seq total s
  | .vendorDefinedRequest c => Sys2Proof.Machine.execVendorDefinedRequest c s
  | .spdmUnsupportedRequest c => Sys2Proof.Machine.execSpdmUnsupportedRequest c s
  | .ideKm p c sid op => Sys2Proof.Machine.execIdeKm p c sid op s
  | .ideCheckFailure p => Sys2Proof.Machine.execIdeCheckFailure p s
  | .aulumKeyWrite a tx k key mode => Sys2Proof.Machine.execAulumKeyWrite a tx k key mode s
  | .transmitRollover a => Sys2Proof.Machine.execTransmitRollover a s
  | .macGroupTimeout a => Sys2Proof.Machine.execMacGroupTimeout a s
  | .debugToken sid t => Sys2Proof.Machine.execDebugToken sid t s
  | .lockDebug => Sys2Proof.Machine.execLockDebug s
  | .debugTokenExpire => Sys2Proof.Machine.execDebugTokenExpire s
  | .healthTestFailure => Sys2Proof.Machine.execHealthTestFailure s
  | .takeSnapshot => Sys2Proof.Machine.execTakeSnapshot s
  | .samplerEnable k on => Sys2Proof.Machine.execSamplerEnable k on s
  | .hostSamplerEnable v on vector event periodLow periodHigh => Sys2Proof.Machine.execHostSamplerEnable v on vector event periodLow periodHigh s
  | .samplerFire k => Sys2Proof.Machine.execSamplerFire k s
  | .timeOffsetMeasured off gm => Sys2Proof.Machine.execTimeOffsetMeasured off gm s
  | .syncTimeout => Sys2Proof.Machine.execSyncTimeout s
  | .holdoverLimit => Sys2Proof.Machine.execHoldoverLimit s
  | .tsiEdge ix rising => Sys2Proof.Machine.execTsiEdge ix rising s
  | .tsiPulseFiltered ix width => Sys2Proof.Machine.execTsiPulseFiltered ix width s
  | .captureQueueRead ix n => Sys2Proof.Machine.execCaptureQueueRead ix n s
  | .resetNFall => Sys2Proof.Machine.execResetNFall s
  | .resetRelease => Sys2Proof.Machine.execResetRelease s
  | .refclkStable r => Sys2Proof.Machine.execRefclkStable r s
  | .refclkLost r => Sys2Proof.Machine.execRefclkLost r s
  | .cqQcbReadDone q => Sys2Proof.Machine.execCqQcbReadDone q s
  | .moverCacheResponse dat => Sys2Proof.Machine.execMoverCacheResponse dat s
  | .tierMoverResponse dat => Sys2Proof.Machine.execTierMoverResponse dat s
  | .culletRecordWriteDone n => Sys2Proof.Machine.execCulletRecordWriteDone n s
  | .command r idx sub type arg => Sys2Proof.Machine.execCommand r idx sub type arg s

end Sys2Proof.Machine
end

