-- ==== Sys2Proof/Laws/Tab.lean ====
section
/-!
SUPPORT. Laws/Tab.lean: reading a sparse table, a set of numbers, or an entry of the dictionary after it has been changed.
-/

namespace Sys2Proof.Laws

open Sys2Proof.Machine

/-! ### Tables -/

@[simp] theorem tabFind_put_same {α : Type} (k : Nat) (v : α) (t : Tab α) : tabFind? k (tabPut k v t) = some v := by
  induction t with
  | nil => simp [tabPut, tabFind?]
  | cons p t ih =>
    obtain ⟨j, w⟩ := p
    simp only [tabPut]
    split
    · simp [tabFind?]
    · split
      · simp [tabFind?]
      · rename_i h; simp [tabFind?, Ne.symm h, ih]

theorem tabFind_put_other {α : Type} {k m : Nat} (h : m ≠ k) (v : α) (t : Tab α) :
    tabFind? m (tabPut k v t) = tabFind? m t := by
  induction t with
  | nil => simp [tabPut, tabFind?, Ne.symm h]
  | cons p t ih =>
    obtain ⟨j, w⟩ := p
    simp only [tabPut]
    split
    · simp [tabFind?, Ne.symm h]
    · split
      · rename_i e; subst e; simp [tabFind?, Ne.symm h]
      · simp [tabFind?, ih]

@[simp] theorem tabFind_del_same {α : Type} (k : Nat) (t : Tab α) : tabFind? k (tabDel k t) = none := by
  induction t with
  | nil => rfl
  | cons p t ih =>
    obtain ⟨j, w⟩ := p
    by_cases h : j = k
    · subst h; simpa [tabDel] using ih
    · simp only [tabDel, List.filter, ne_eq, h, not_false_eq_true, decide_true, tabFind?, if_false]
      exact ih

theorem tabFind_del_other {α : Type} {k m : Nat} (h : m ≠ k) (t : Tab α) : tabFind? m (tabDel k t) = tabFind? m t := by
  induction t with
  | nil => rfl
  | cons p t ih =>
    obtain ⟨j, w⟩ := p
    by_cases e : j = k
    · subst e
      simp only [tabDel, List.filter, ne_eq, not_true_eq_false, decide_false, tabFind?, Ne.symm h, if_false]
      exact ih
    · simp only [tabDel, List.filter, ne_eq, e, not_false_eq_true, decide_true, tabFind?]
      split
      · rfl
      · exact ih

/-- A number reads as what was last set there. -/
@[simp] theorem tabGet_set_same {α : Type} [DecidableEq α] (d : α) (k : Nat) (v : α) (t : Tab α) :
    tabGet d k (tabSet d k v t) = v := by
  unfold tabSet tabGet
  split
  · rename_i h; simp [h]
  · simp

/-- Setting one number leaves every other as it reads, whatever an unlisted number reads as there. -/
theorem tabGet_set_other {α : Type} [DecidableEq α] {k m : Nat} (h : m ≠ k) (d d' : α) (v : α) (t : Tab α) :
    tabGet d' m (tabSet d k v t) = tabGet d' m t := by
  unfold tabSet tabGet
  split
  · rw [tabFind_del_other h]
  · rw [tabFind_put_other h]

@[simp] theorem tabGet_mod_same {α : Type} [DecidableEq α] (d : α) (k : Nat) (f : α → α) (t : Tab α) :
    tabGet d k (tabMod d k f t) = f (tabGet d k t) := by
  simp [tabMod]

theorem tabGet_mod_other {α : Type} [DecidableEq α] {k m : Nat} (h : m ≠ k) (d d' : α) (f : α → α) (t : Tab α) :
    tabGet d' m (tabMod d k f t) = tabGet d' m t := by
  simp [tabMod, tabGet_set_other h]

/-! ### Sets -/

@[simp] theorem mem_setInsert (n m : Nat) (l : List Nat) : m ∈ setInsert n l ↔ m = n ∨ m ∈ l := by
  induction l with
  | nil => simp [setInsert]
  | cons a l ih =>
    simp only [setInsert]
    split
    · simp
    · split
      · rename_i h; subst h; simp
      · simp only [List.mem_cons, ih]; tauto

@[simp] theorem mem_setRemove (n m : Nat) (l : List Nat) : m ∈ setRemove n l ↔ m ∈ l ∧ m ≠ n := by
  simp [setRemove]

/-! ### Entries of the dictionary -/

/-- An entry reads as what the device last set it to. -/
@[simp] theorem odGet_odSet_same (s : State) (i j v : Nat) : odGet (odSet s i j v) i j = v := by
  simp [odGet, odSet]

/-- Setting an entry leaves every other entry as it reads. -/
theorem odGet_odSet_other (s : State) (i j v : Nat) {i' j' : Nat} (h : odKey i' j' ≠ odKey i j) :
    odGet (odSet s i j v) i' j' = odGet s i' j' := by
  simp [odGet, odSet, tabGet_set_other h]

/-- Entries of one index differ by their subindex. -/
theorem odGet_odSet_sub (s : State) (i j v : Nat) {j' : Nat} (h : j' ≠ j) : odGet (odSet s i j v) i j' = odGet s i j' :=
  odGet_odSet_other s i j v (by unfold odKey; omega)

/-- Entries of different indices differ. -/
theorem odGet_odSet_index (s : State) (i j v : Nat) {i' j' : Nat} (h : i' ≠ i) (hj : j < 256) (hj' : j' < 256) :
    odGet (odSet s i j v) i' j' = odGet s i' j' :=
  odGet_odSet_other s i j v (by unfold odKey; omega)

/-- Two states with the same table of running values show the same entries. -/
theorem odGet_congr {s t : State} (h : s.od = t.od) (i j : Nat) : odGet s i j = odGet t i j := by
  simp [odGet, h]

/-! ### The canonical form of a table of bytes -/

/-- The form of a table from its first entry on: what follows is in the form and lies above. -/
theorem Memory.wf_cons (z : Nat → Byte) (a : Nat) (b : Byte) (t : Tab Byte) :
    Memory.wf z ((a, b) :: t) = true ↔ b ≠ z a ∧ (∀ p, t.head? = some p → a < p.1) ∧ Memory.wf z t = true := by
  cases t with
  | nil => simp [Memory.wf]
  | cons p t => obtain ⟨c, d⟩ := p; simp [Memory.wf]; tauto

/-- In a table in its form, every later address is above the first. -/
theorem Memory.wf_above (z : Nat → Byte) (t : Tab Byte) : ∀ a b, Memory.wf z ((a, b) :: t) = true → ∀ p ∈ t, a < p.1 := by
  induction t with
  | nil => simp
  | cons q t ih =>
    intro a b h p hp
    obtain ⟨c, d⟩ := q
    obtain ⟨-, h1, h2⟩ := (Memory.wf_cons ..).1 h
    have h1 := h1 (c, d) rfl
    rcases List.mem_cons.1 hp with rfl | hp
    · exact h1
    · exact h1.trans (ih c d h2 p hp)

theorem Memory.wf_put (z : Nat → Byte) (k : Nat) (v : Byte) (t : Tab Byte) (hv : v ≠ z k) :
    Memory.wf z t = true → Memory.wf z (tabPut k v t) = true := by
  induction t with
  | nil => intro _; exact decide_eq_true hv
  | cons q t ih =>
    intro h
    obtain ⟨c, d⟩ := q
    obtain ⟨h0, h1, h2⟩ := (Memory.wf_cons ..).1 h
    simp only [tabPut]
    split
    · exact (Memory.wf_cons ..).2 ⟨hv, by simpa, h⟩
    · split
      · next e => subst e; exact (Memory.wf_cons ..).2 ⟨hv, h1, h2⟩
      · refine (Memory.wf_cons ..).2 ⟨h0, ?_, ih h2⟩
        intro p hp
        cases t with
        | nil => simp only [tabPut, List.head?_cons, Option.some.injEq] at hp; subst hp; show c < k; omega
        | cons r t =>
          obtain ⟨x, y⟩ := r
          have := h1 _ rfl
          simp only [tabPut] at hp
          split at hp
          · simp at hp; subst hp; show c < k; omega
          · split at hp
            · simp at hp; subst hp; show c < k; omega
            · simp at hp; subst hp; exact this

theorem Memory.wf_del (z : Nat → Byte) (k : Nat) (t : Tab Byte) : Memory.wf z t = true → Memory.wf z (tabDel k t) = true := by
  induction t with
  | nil => intro h; exact h
  | cons q t ih =>
    intro h
    obtain ⟨c, d⟩ := q
    obtain ⟨h0, -, h2⟩ := (Memory.wf_cons ..).1 h
    have e : tabDel k ((c, d) :: t) = if c = k then tabDel k t else (c, d) :: tabDel k t := by
      by_cases x : c = k <;> simp [tabDel, x]
    rw [e]
    split
    · exact ih h2
    · refine (Memory.wf_cons ..).2 ⟨h0, fun p hp => ?_, ih h2⟩
      exact Memory.wf_above z t c d h p (List.mem_filter.1 (List.mem_of_mem_head? hp)).1

/-- Writing a byte keeps the canonical form: a byte that an unlisted address reads as is not listed. -/
theorem Memory.wf_set (z : Nat → Byte) (k : Nat) (v : Byte) (t : Tab Byte) (h : Memory.wf z t = true) : Memory.wf z (tabSet (z k) k v t) = true := by
  unfold tabSet
  split
  · exact Memory.wf_del z k t h
  · next e => exact Memory.wf_put z k v t e h

end Sys2Proof.Laws
end

