-- ==== Sys2Proof/Laws/State.lean ====
section
/-!
SUPPORT. Laws/State.lean: the parts of the state that each shared operation leaves as they are, one lemma for each part and
operation, so that no proof unfolds a record update.
-/

namespace Sys2Proof.Laws

open Sys2Proof.Machine

/-! ### odSet -/

@[simp] theorem odSet_time (s : State) (i j v : Nat) : (odSet s i j v).time = s.time := (rfl)
@[simp] theorem odSet_spr (s : State) (i j v : Nat) : (odSet s i j v).spr = s.spr := (rfl)
@[simp] theorem odSet_flt (s : State) (i j v : Nat) : (odSet s i j v).flt = s.flt := (rfl)
@[simp] theorem odSet_pow (s : State) (i j v : Nat) : (odSet s i j v).pow = s.pow := (rfl)
@[simp] theorem odSet_mgmt (s : State) (i j v : Nat) : (odSet s i j v).mgmt = s.mgmt := (rfl)
@[simp] theorem odSet_perf (s : State) (i j v : Nat) : (odSet s i j v).perf = s.perf := (rfl)
@[simp] theorem odSet_pins (s : State) (i j v : Nat) : (odSet s i j v).pins = s.pins := (rfl)
@[simp] theorem odSet_fab (s : State) (i j v : Nat) : (odSet s i j v).fab = s.fab := (rfl)
@[simp] theorem odSet_swc (s : State) (i j v : Nat) : (odSet s i j v).swc = s.swc := (rfl)
@[simp] theorem odSet_port (s : State) (i j v : Nat) : (odSet s i j v).port = s.port := (rfl)
@[simp] theorem odSet_home (s : State) (i j v : Nat) : (odSet s i j v).home = s.home := (rfl)
@[simp] theorem odSet_prox (s : State) (i j v : Nat) : (odSet s i j v).prox = s.prox := (rfl)
@[simp] theorem odSet_dir (s : State) (i j v : Nat) : (odSet s i j v).dir = s.dir := (rfl)
@[simp] theorem odSet_map (s : State) (i j v : Nat) : (odSet s i j v).map = s.map := (rfl)
@[simp] theorem odSet_aul (s : State) (i j v : Nat) : (odSet s i j v).aul = s.aul := (rfl)
@[simp] theorem odSet_mov (s : State) (i j v : Nat) : (odSet s i j v).mov = s.mov := (rfl)
@[simp] theorem odSet_ven (s : State) (i j v : Nat) : (odSet s i j v).ven = s.ven := (rfl)
@[simp] theorem odSet_sec (s : State) (i j v : Nat) : (odSet s i j v).sec = s.sec := (rfl)
@[simp] theorem odSet_last (s : State) (i j v : Nat) : (odSet s i j v).last = s.last := (rfl)
@[simp] theorem odSet_out (s : State) (i j v : Nat) : (odSet s i j v).out = s.out := (rfl)
@[simp] theorem odSet_fresh (s : State) (i j v : Nat) : (odSet s i j v).fresh = s.fresh := (rfl)
@[simp] theorem odSet_pending (s : State) (i j v : Nat) : (odSet s i j v).pending = s.pending := (rfl)

/-! ### bump -/

@[simp] theorem bump_time (s : State) (n k : Nat) : (bump s n k).time = s.time := (rfl)
@[simp] theorem bump_od (s : State) (n k : Nat) : (bump s n k).od = s.od := (rfl)
@[simp] theorem bump_spr (s : State) (n k : Nat) : (bump s n k).spr = s.spr := (rfl)
@[simp] theorem bump_flt (s : State) (n k : Nat) : (bump s n k).flt = s.flt := (rfl)
@[simp] theorem bump_pow (s : State) (n k : Nat) : (bump s n k).pow = s.pow := (rfl)
@[simp] theorem bump_mgmt (s : State) (n k : Nat) : (bump s n k).mgmt = s.mgmt := (rfl)
@[simp] theorem bump_pins (s : State) (n k : Nat) : (bump s n k).pins = s.pins := (rfl)
@[simp] theorem bump_fab (s : State) (n k : Nat) : (bump s n k).fab = s.fab := (rfl)
@[simp] theorem bump_swc (s : State) (n k : Nat) : (bump s n k).swc = s.swc := (rfl)
@[simp] theorem bump_port (s : State) (n k : Nat) : (bump s n k).port = s.port := (rfl)
@[simp] theorem bump_home (s : State) (n k : Nat) : (bump s n k).home = s.home := (rfl)
@[simp] theorem bump_prox (s : State) (n k : Nat) : (bump s n k).prox = s.prox := (rfl)
@[simp] theorem bump_dir (s : State) (n k : Nat) : (bump s n k).dir = s.dir := (rfl)
@[simp] theorem bump_map (s : State) (n k : Nat) : (bump s n k).map = s.map := (rfl)
@[simp] theorem bump_aul (s : State) (n k : Nat) : (bump s n k).aul = s.aul := (rfl)
@[simp] theorem bump_mov (s : State) (n k : Nat) : (bump s n k).mov = s.mov := (rfl)
@[simp] theorem bump_ven (s : State) (n k : Nat) : (bump s n k).ven = s.ven := (rfl)
@[simp] theorem bump_sec (s : State) (n k : Nat) : (bump s n k).sec = s.sec := (rfl)
@[simp] theorem bump_last (s : State) (n k : Nat) : (bump s n k).last = s.last := (rfl)
@[simp] theorem bump_out (s : State) (n k : Nat) : (bump s n k).out = s.out := (rfl)
@[simp] theorem bump_fresh (s : State) (n k : Nat) : (bump s n k).fresh = s.fresh := (rfl)
@[simp] theorem bump_pending (s : State) (n k : Nat) : (bump s n k).pending = s.pending := (rfl)
@[simp] theorem odGet_bump (s : State) (n k : Nat) (p q : Nat) : odGet (bump s n k) p q = odGet s p q := odGet_congr (bump_od _ _ _) p q

/-! ### bumpC -/

@[simp] theorem bumpC_time (s : State) (i j : Nat) : (bumpC s i j).time = s.time := (rfl)
@[simp] theorem bumpC_od (s : State) (i j : Nat) : (bumpC s i j).od = s.od := (rfl)
@[simp] theorem bumpC_spr (s : State) (i j : Nat) : (bumpC s i j).spr = s.spr := (rfl)
@[simp] theorem bumpC_flt (s : State) (i j : Nat) : (bumpC s i j).flt = s.flt := (rfl)
@[simp] theorem bumpC_pow (s : State) (i j : Nat) : (bumpC s i j).pow = s.pow := (rfl)
@[simp] theorem bumpC_mgmt (s : State) (i j : Nat) : (bumpC s i j).mgmt = s.mgmt := (rfl)
@[simp] theorem bumpC_pins (s : State) (i j : Nat) : (bumpC s i j).pins = s.pins := (rfl)
@[simp] theorem bumpC_fab (s : State) (i j : Nat) : (bumpC s i j).fab = s.fab := (rfl)
@[simp] theorem bumpC_swc (s : State) (i j : Nat) : (bumpC s i j).swc = s.swc := (rfl)
@[simp] theorem bumpC_port (s : State) (i j : Nat) : (bumpC s i j).port = s.port := (rfl)
@[simp] theorem bumpC_home (s : State) (i j : Nat) : (bumpC s i j).home = s.home := (rfl)
@[simp] theorem bumpC_prox (s : State) (i j : Nat) : (bumpC s i j).prox = s.prox := (rfl)
@[simp] theorem bumpC_dir (s : State) (i j : Nat) : (bumpC s i j).dir = s.dir := (rfl)
@[simp] theorem bumpC_map (s : State) (i j : Nat) : (bumpC s i j).map = s.map := (rfl)
@[simp] theorem bumpC_aul (s : State) (i j : Nat) : (bumpC s i j).aul = s.aul := (rfl)
@[simp] theorem bumpC_mov (s : State) (i j : Nat) : (bumpC s i j).mov = s.mov := (rfl)
@[simp] theorem bumpC_ven (s : State) (i j : Nat) : (bumpC s i j).ven = s.ven := (rfl)
@[simp] theorem bumpC_sec (s : State) (i j : Nat) : (bumpC s i j).sec = s.sec := (rfl)
@[simp] theorem bumpC_last (s : State) (i j : Nat) : (bumpC s i j).last = s.last := (rfl)
@[simp] theorem bumpC_out (s : State) (i j : Nat) : (bumpC s i j).out = s.out := (rfl)
@[simp] theorem bumpC_fresh (s : State) (i j : Nat) : (bumpC s i j).fresh = s.fresh := (rfl)
@[simp] theorem bumpC_pending (s : State) (i j : Nat) : (bumpC s i j).pending = s.pending := (rfl)
@[simp] theorem odGet_bumpC (s : State) (i j : Nat) (p q : Nat) : odGet (bumpC s i j) p q = odGet s p q := odGet_congr (bumpC_od _ _ _) p q

/-! ### bumpCBy -/

@[simp] theorem bumpCBy_time (s : State) (i j k : Nat) : (bumpCBy s i j k).time = s.time := (rfl)
@[simp] theorem bumpCBy_od (s : State) (i j k : Nat) : (bumpCBy s i j k).od = s.od := (rfl)
@[simp] theorem bumpCBy_spr (s : State) (i j k : Nat) : (bumpCBy s i j k).spr = s.spr := (rfl)
@[simp] theorem bumpCBy_flt (s : State) (i j k : Nat) : (bumpCBy s i j k).flt = s.flt := (rfl)
@[simp] theorem bumpCBy_pow (s : State) (i j k : Nat) : (bumpCBy s i j k).pow = s.pow := (rfl)
@[simp] theorem bumpCBy_mgmt (s : State) (i j k : Nat) : (bumpCBy s i j k).mgmt = s.mgmt := (rfl)
@[simp] theorem bumpCBy_pins (s : State) (i j k : Nat) : (bumpCBy s i j k).pins = s.pins := (rfl)
@[simp] theorem bumpCBy_fab (s : State) (i j k : Nat) : (bumpCBy s i j k).fab = s.fab := (rfl)
@[simp] theorem bumpCBy_swc (s : State) (i j k : Nat) : (bumpCBy s i j k).swc = s.swc := (rfl)
@[simp] theorem bumpCBy_port (s : State) (i j k : Nat) : (bumpCBy s i j k).port = s.port := (rfl)
@[simp] theorem bumpCBy_home (s : State) (i j k : Nat) : (bumpCBy s i j k).home = s.home := (rfl)
@[simp] theorem bumpCBy_prox (s : State) (i j k : Nat) : (bumpCBy s i j k).prox = s.prox := (rfl)
@[simp] theorem bumpCBy_dir (s : State) (i j k : Nat) : (bumpCBy s i j k).dir = s.dir := (rfl)
@[simp] theorem bumpCBy_map (s : State) (i j k : Nat) : (bumpCBy s i j k).map = s.map := (rfl)
@[simp] theorem bumpCBy_aul (s : State) (i j k : Nat) : (bumpCBy s i j k).aul = s.aul := (rfl)
@[simp] theorem bumpCBy_mov (s : State) (i j k : Nat) : (bumpCBy s i j k).mov = s.mov := (rfl)
@[simp] theorem bumpCBy_ven (s : State) (i j k : Nat) : (bumpCBy s i j k).ven = s.ven := (rfl)
@[simp] theorem bumpCBy_sec (s : State) (i j k : Nat) : (bumpCBy s i j k).sec = s.sec := (rfl)
@[simp] theorem bumpCBy_last (s : State) (i j k : Nat) : (bumpCBy s i j k).last = s.last := (rfl)
@[simp] theorem bumpCBy_out (s : State) (i j k : Nat) : (bumpCBy s i j k).out = s.out := (rfl)
@[simp] theorem bumpCBy_fresh (s : State) (i j k : Nat) : (bumpCBy s i j k).fresh = s.fresh := (rfl)
@[simp] theorem bumpCBy_pending (s : State) (i j k : Nat) : (bumpCBy s i j k).pending = s.pending := (rfl)
@[simp] theorem odGet_bumpCBy (s : State) (i j k : Nat) (p q : Nat) : odGet (bumpCBy s i j k) p q = odGet s p q := odGet_congr (bumpCBy_od _ _ _ _) p q

/-! ### bumpVcs -/

@[simp] theorem bumpVcs_time (s : State) (v e k : Nat) : (bumpVcs s v e k).time = s.time := (rfl)
@[simp] theorem bumpVcs_od (s : State) (v e k : Nat) : (bumpVcs s v e k).od = s.od := (rfl)
@[simp] theorem bumpVcs_spr (s : State) (v e k : Nat) : (bumpVcs s v e k).spr = s.spr := (rfl)
@[simp] theorem bumpVcs_flt (s : State) (v e k : Nat) : (bumpVcs s v e k).flt = s.flt := (rfl)
@[simp] theorem bumpVcs_pow (s : State) (v e k : Nat) : (bumpVcs s v e k).pow = s.pow := (rfl)
@[simp] theorem bumpVcs_mgmt (s : State) (v e k : Nat) : (bumpVcs s v e k).mgmt = s.mgmt := (rfl)
@[simp] theorem bumpVcs_pins (s : State) (v e k : Nat) : (bumpVcs s v e k).pins = s.pins := (rfl)
@[simp] theorem bumpVcs_fab (s : State) (v e k : Nat) : (bumpVcs s v e k).fab = s.fab := (rfl)
@[simp] theorem bumpVcs_swc (s : State) (v e k : Nat) : (bumpVcs s v e k).swc = s.swc := (rfl)
@[simp] theorem bumpVcs_port (s : State) (v e k : Nat) : (bumpVcs s v e k).port = s.port := (rfl)
@[simp] theorem bumpVcs_home (s : State) (v e k : Nat) : (bumpVcs s v e k).home = s.home := (rfl)
@[simp] theorem bumpVcs_prox (s : State) (v e k : Nat) : (bumpVcs s v e k).prox = s.prox := (rfl)
@[simp] theorem bumpVcs_dir (s : State) (v e k : Nat) : (bumpVcs s v e k).dir = s.dir := (rfl)
@[simp] theorem bumpVcs_map (s : State) (v e k : Nat) : (bumpVcs s v e k).map = s.map := (rfl)
@[simp] theorem bumpVcs_aul (s : State) (v e k : Nat) : (bumpVcs s v e k).aul = s.aul := (rfl)
@[simp] theorem bumpVcs_mov (s : State) (v e k : Nat) : (bumpVcs s v e k).mov = s.mov := (rfl)
@[simp] theorem bumpVcs_ven (s : State) (v e k : Nat) : (bumpVcs s v e k).ven = s.ven := (rfl)
@[simp] theorem bumpVcs_sec (s : State) (v e k : Nat) : (bumpVcs s v e k).sec = s.sec := (rfl)
@[simp] theorem bumpVcs_last (s : State) (v e k : Nat) : (bumpVcs s v e k).last = s.last := (rfl)
@[simp] theorem bumpVcs_out (s : State) (v e k : Nat) : (bumpVcs s v e k).out = s.out := (rfl)
@[simp] theorem bumpVcs_fresh (s : State) (v e k : Nat) : (bumpVcs s v e k).fresh = s.fresh := (rfl)
@[simp] theorem bumpVcs_pending (s : State) (v e k : Nat) : (bumpVcs s v e k).pending = s.pending := (rfl)
@[simp] theorem odGet_bumpVcs (s : State) (v e k : Nat) (p q : Nat) : odGet (bumpVcs s v e k) p q = odGet s p q := odGet_congr (bumpVcs_od _ _ _ _) p q

/-! ### drawn -/

@[simp] theorem drawn_time (s : State) : (drawn s).time = s.time := (rfl)
@[simp] theorem drawn_od (s : State) : (drawn s).od = s.od := (rfl)
@[simp] theorem drawn_spr (s : State) : (drawn s).spr = s.spr := (rfl)
@[simp] theorem drawn_flt (s : State) : (drawn s).flt = s.flt := (rfl)
@[simp] theorem drawn_pow (s : State) : (drawn s).pow = s.pow := (rfl)
@[simp] theorem drawn_mgmt (s : State) : (drawn s).mgmt = s.mgmt := (rfl)
@[simp] theorem drawn_perf (s : State) : (drawn s).perf = s.perf := (rfl)
@[simp] theorem drawn_pins (s : State) : (drawn s).pins = s.pins := (rfl)
@[simp] theorem drawn_fab (s : State) : (drawn s).fab = s.fab := (rfl)
@[simp] theorem drawn_swc (s : State) : (drawn s).swc = s.swc := (rfl)
@[simp] theorem drawn_port (s : State) : (drawn s).port = s.port := (rfl)
@[simp] theorem drawn_home (s : State) : (drawn s).home = s.home := (rfl)
@[simp] theorem drawn_prox (s : State) : (drawn s).prox = s.prox := (rfl)
@[simp] theorem drawn_dir (s : State) : (drawn s).dir = s.dir := (rfl)
@[simp] theorem drawn_map (s : State) : (drawn s).map = s.map := (rfl)
@[simp] theorem drawn_aul (s : State) : (drawn s).aul = s.aul := (rfl)
@[simp] theorem drawn_mov (s : State) : (drawn s).mov = s.mov := (rfl)
@[simp] theorem drawn_ven (s : State) : (drawn s).ven = s.ven := (rfl)
@[simp] theorem drawn_sec (s : State) : (drawn s).sec = s.sec := (rfl)
@[simp] theorem drawn_last (s : State) : (drawn s).last = s.last := (rfl)
@[simp] theorem drawn_out (s : State) : (drawn s).out = s.out := (rfl)
@[simp] theorem drawn_pending (s : State) : (drawn s).pending = s.pending := (rfl)
@[simp] theorem odGet_drawn (s : State) (p q : Nat) : odGet (drawn s) p q = odGet s p q := odGet_congr (drawn_od _) p q

/-! ### emit -/

@[simp] theorem emit_time (s : State) (o : Out) : (emit s o).time = s.time := (rfl)
@[simp] theorem emit_od (s : State) (o : Out) : (emit s o).od = s.od := (rfl)
@[simp] theorem emit_spr (s : State) (o : Out) : (emit s o).spr = s.spr := (rfl)
@[simp] theorem emit_flt (s : State) (o : Out) : (emit s o).flt = s.flt := (rfl)
@[simp] theorem emit_pow (s : State) (o : Out) : (emit s o).pow = s.pow := (rfl)
@[simp] theorem emit_mgmt (s : State) (o : Out) : (emit s o).mgmt = s.mgmt := (rfl)
@[simp] theorem emit_perf (s : State) (o : Out) : (emit s o).perf = s.perf := (rfl)
@[simp] theorem emit_pins (s : State) (o : Out) : (emit s o).pins = s.pins := (rfl)
@[simp] theorem emit_fab (s : State) (o : Out) : (emit s o).fab = s.fab := (rfl)
@[simp] theorem emit_swc (s : State) (o : Out) : (emit s o).swc = s.swc := (rfl)
@[simp] theorem emit_port (s : State) (o : Out) : (emit s o).port = s.port := (rfl)
@[simp] theorem emit_home (s : State) (o : Out) : (emit s o).home = s.home := (rfl)
@[simp] theorem emit_prox (s : State) (o : Out) : (emit s o).prox = s.prox := (rfl)
@[simp] theorem emit_dir (s : State) (o : Out) : (emit s o).dir = s.dir := (rfl)
@[simp] theorem emit_map (s : State) (o : Out) : (emit s o).map = s.map := (rfl)
@[simp] theorem emit_aul (s : State) (o : Out) : (emit s o).aul = s.aul := (rfl)
@[simp] theorem emit_mov (s : State) (o : Out) : (emit s o).mov = s.mov := (rfl)
@[simp] theorem emit_ven (s : State) (o : Out) : (emit s o).ven = s.ven := (rfl)
@[simp] theorem emit_sec (s : State) (o : Out) : (emit s o).sec = s.sec := (rfl)
@[simp] theorem emit_last (s : State) (o : Out) : (emit s o).last = s.last := (rfl)
@[simp] theorem emit_fresh (s : State) (o : Out) : (emit s o).fresh = s.fresh := (rfl)
@[simp] theorem emit_pending (s : State) (o : Out) : (emit s o).pending = s.pending := (rfl)
@[simp] theorem odGet_emit (s : State) (o : Out) (p q : Nat) : odGet (emit s o) p q = odGet s p q := odGet_congr (emit_od _ _) p q

/-! ### emitAll -/

@[simp] theorem emitAll_time (s : State) (os : List Out) : (emitAll s os).time = s.time := (rfl)
@[simp] theorem emitAll_od (s : State) (os : List Out) : (emitAll s os).od = s.od := (rfl)
@[simp] theorem emitAll_spr (s : State) (os : List Out) : (emitAll s os).spr = s.spr := (rfl)
@[simp] theorem emitAll_flt (s : State) (os : List Out) : (emitAll s os).flt = s.flt := (rfl)
@[simp] theorem emitAll_pow (s : State) (os : List Out) : (emitAll s os).pow = s.pow := (rfl)
@[simp] theorem emitAll_mgmt (s : State) (os : List Out) : (emitAll s os).mgmt = s.mgmt := (rfl)
@[simp] theorem emitAll_perf (s : State) (os : List Out) : (emitAll s os).perf = s.perf := (rfl)
@[simp] theorem emitAll_pins (s : State) (os : List Out) : (emitAll s os).pins = s.pins := (rfl)
@[simp] theorem emitAll_fab (s : State) (os : List Out) : (emitAll s os).fab = s.fab := (rfl)
@[simp] theorem emitAll_swc (s : State) (os : List Out) : (emitAll s os).swc = s.swc := (rfl)
@[simp] theorem emitAll_port (s : State) (os : List Out) : (emitAll s os).port = s.port := (rfl)
@[simp] theorem emitAll_home (s : State) (os : List Out) : (emitAll s os).home = s.home := (rfl)
@[simp] theorem emitAll_prox (s : State) (os : List Out) : (emitAll s os).prox = s.prox := (rfl)
@[simp] theorem emitAll_dir (s : State) (os : List Out) : (emitAll s os).dir = s.dir := (rfl)
@[simp] theorem emitAll_map (s : State) (os : List Out) : (emitAll s os).map = s.map := (rfl)
@[simp] theorem emitAll_aul (s : State) (os : List Out) : (emitAll s os).aul = s.aul := (rfl)
@[simp] theorem emitAll_mov (s : State) (os : List Out) : (emitAll s os).mov = s.mov := (rfl)
@[simp] theorem emitAll_ven (s : State) (os : List Out) : (emitAll s os).ven = s.ven := (rfl)
@[simp] theorem emitAll_sec (s : State) (os : List Out) : (emitAll s os).sec = s.sec := (rfl)
@[simp] theorem emitAll_last (s : State) (os : List Out) : (emitAll s os).last = s.last := (rfl)
@[simp] theorem emitAll_fresh (s : State) (os : List Out) : (emitAll s os).fresh = s.fresh := (rfl)
@[simp] theorem emitAll_pending (s : State) (os : List Out) : (emitAll s os).pending = s.pending := (rfl)
@[simp] theorem odGet_emitAll (s : State) (os : List Out) (p q : Nat) : odGet (emitAll s os) p q = odGet s p q := odGet_congr (emitAll_od _ _) p q

/-! ### notify -/

@[simp] theorem notify_time (s : State) (i j v : Nat) (d : BitVec 64) : (notify s i j v d).time = s.time := (rfl)
@[simp] theorem notify_od (s : State) (i j v : Nat) (d : BitVec 64) : (notify s i j v d).od = s.od := (rfl)
@[simp] theorem notify_flt (s : State) (i j v : Nat) (d : BitVec 64) : (notify s i j v d).flt = s.flt := (rfl)
@[simp] theorem notify_pow (s : State) (i j v : Nat) (d : BitVec 64) : (notify s i j v d).pow = s.pow := (rfl)
@[simp] theorem notify_mgmt (s : State) (i j v : Nat) (d : BitVec 64) : (notify s i j v d).mgmt = s.mgmt := (rfl)
@[simp] theorem notify_pins (s : State) (i j v : Nat) (d : BitVec 64) : (notify s i j v d).pins = s.pins := (rfl)
@[simp] theorem notify_fab (s : State) (i j v : Nat) (d : BitVec 64) : (notify s i j v d).fab = s.fab := (rfl)
@[simp] theorem notify_swc (s : State) (i j v : Nat) (d : BitVec 64) : (notify s i j v d).swc = s.swc := (rfl)
@[simp] theorem notify_port (s : State) (i j v : Nat) (d : BitVec 64) : (notify s i j v d).port = s.port := (rfl)
@[simp] theorem notify_home (s : State) (i j v : Nat) (d : BitVec 64) : (notify s i j v d).home = s.home := (rfl)
@[simp] theorem notify_prox (s : State) (i j v : Nat) (d : BitVec 64) : (notify s i j v d).prox = s.prox := (rfl)
@[simp] theorem notify_dir (s : State) (i j v : Nat) (d : BitVec 64) : (notify s i j v d).dir = s.dir := (rfl)
@[simp] theorem notify_map (s : State) (i j v : Nat) (d : BitVec 64) : (notify s i j v d).map = s.map := (rfl)
@[simp] theorem notify_aul (s : State) (i j v : Nat) (d : BitVec 64) : (notify s i j v d).aul = s.aul := (rfl)
@[simp] theorem notify_mov (s : State) (i j v : Nat) (d : BitVec 64) : (notify s i j v d).mov = s.mov := (rfl)
@[simp] theorem notify_ven (s : State) (i j v : Nat) (d : BitVec 64) : (notify s i j v d).ven = s.ven := (rfl)
@[simp] theorem notify_sec (s : State) (i j v : Nat) (d : BitVec 64) : (notify s i j v d).sec = s.sec := (rfl)
@[simp] theorem notify_last (s : State) (i j v : Nat) (d : BitVec 64) : (notify s i j v d).last = s.last := (rfl)
@[simp] theorem notify_out (s : State) (i j v : Nat) (d : BitVec 64) : (notify s i j v d).out = s.out := (rfl)
@[simp] theorem notify_fresh (s : State) (i j v : Nat) (d : BitVec 64) : (notify s i j v d).fresh = s.fresh := (rfl)
@[simp] theorem notify_pending (s : State) (i j v : Nat) (d : BitVec 64) : (notify s i j v d).pending = s.pending := (rfl)
@[simp] theorem odGet_notify (s : State) (i j v : Nat) (d : BitVec 64) (p q : Nat) : odGet (notify s i j v d) p q = odGet s p q := odGet_congr (notify_od _ _ _ _ _) p q

/-! ### odSetNotify -/

@[simp] theorem odSetNotify_time (s : State) (i j v : Nat) (d : BitVec 64) : (odSetNotify s i j v d).time = s.time := (rfl)
@[simp] theorem odSetNotify_flt (s : State) (i j v : Nat) (d : BitVec 64) : (odSetNotify s i j v d).flt = s.flt := (rfl)
@[simp] theorem odSetNotify_pow (s : State) (i j v : Nat) (d : BitVec 64) : (odSetNotify s i j v d).pow = s.pow := (rfl)
@[simp] theorem odSetNotify_mgmt (s : State) (i j v : Nat) (d : BitVec 64) : (odSetNotify s i j v d).mgmt = s.mgmt := (rfl)
@[simp] theorem odSetNotify_pins (s : State) (i j v : Nat) (d : BitVec 64) : (odSetNotify s i j v d).pins = s.pins := (rfl)
@[simp] theorem odSetNotify_fab (s : State) (i j v : Nat) (d : BitVec 64) : (odSetNotify s i j v d).fab = s.fab := (rfl)
@[simp] theorem odSetNotify_swc (s : State) (i j v : Nat) (d : BitVec 64) : (odSetNotify s i j v d).swc = s.swc := (rfl)
@[simp] theorem odSetNotify_port (s : State) (i j v : Nat) (d : BitVec 64) : (odSetNotify s i j v d).port = s.port := (rfl)
@[simp] theorem odSetNotify_home (s : State) (i j v : Nat) (d : BitVec 64) : (odSetNotify s i j v d).home = s.home := (rfl)
@[simp] theorem odSetNotify_prox (s : State) (i j v : Nat) (d : BitVec 64) : (odSetNotify s i j v d).prox = s.prox := (rfl)
@[simp] theorem odSetNotify_dir (s : State) (i j v : Nat) (d : BitVec 64) : (odSetNotify s i j v d).dir = s.dir := (rfl)
@[simp] theorem odSetNotify_map (s : State) (i j v : Nat) (d : BitVec 64) : (odSetNotify s i j v d).map = s.map := (rfl)
@[simp] theorem odSetNotify_aul (s : State) (i j v : Nat) (d : BitVec 64) : (odSetNotify s i j v d).aul = s.aul := (rfl)
@[simp] theorem odSetNotify_mov (s : State) (i j v : Nat) (d : BitVec 64) : (odSetNotify s i j v d).mov = s.mov := (rfl)
@[simp] theorem odSetNotify_ven (s : State) (i j v : Nat) (d : BitVec 64) : (odSetNotify s i j v d).ven = s.ven := (rfl)
@[simp] theorem odSetNotify_sec (s : State) (i j v : Nat) (d : BitVec 64) : (odSetNotify s i j v d).sec = s.sec := (rfl)
@[simp] theorem odSetNotify_last (s : State) (i j v : Nat) (d : BitVec 64) : (odSetNotify s i j v d).last = s.last := (rfl)
@[simp] theorem odSetNotify_out (s : State) (i j v : Nat) (d : BitVec 64) : (odSetNotify s i j v d).out = s.out := (rfl)
@[simp] theorem odSetNotify_fresh (s : State) (i j v : Nat) (d : BitVec 64) : (odSetNotify s i j v d).fresh = s.fresh := (rfl)
@[simp] theorem odSetNotify_pending (s : State) (i j v : Nat) (d : BitVec 64) : (odSetNotify s i j v d).pending = s.pending := (rfl)

/-! ### raiseReport -/

@[simp] theorem raiseReport_time (s : State) (f : Nat) (r : Report) : (raiseReport s f r).time = s.time := by unfold raiseReport; split <;> rfl
@[simp] theorem raiseReport_od (s : State) (f : Nat) (r : Report) : (raiseReport s f r).od = s.od := by unfold raiseReport; split <;> rfl
@[simp] theorem raiseReport_spr (s : State) (f : Nat) (r : Report) : (raiseReport s f r).spr = s.spr := by unfold raiseReport; split <;> rfl
@[simp] theorem raiseReport_pow (s : State) (f : Nat) (r : Report) : (raiseReport s f r).pow = s.pow := by unfold raiseReport; split <;> rfl
@[simp] theorem raiseReport_mgmt (s : State) (f : Nat) (r : Report) : (raiseReport s f r).mgmt = s.mgmt := by unfold raiseReport; split <;> rfl
@[simp] theorem raiseReport_perf (s : State) (f : Nat) (r : Report) : (raiseReport s f r).perf = s.perf := by unfold raiseReport; split <;> rfl
@[simp] theorem raiseReport_pins (s : State) (f : Nat) (r : Report) : (raiseReport s f r).pins = s.pins := by unfold raiseReport; split <;> rfl
@[simp] theorem raiseReport_fab (s : State) (f : Nat) (r : Report) : (raiseReport s f r).fab = s.fab := by unfold raiseReport; split <;> rfl
@[simp] theorem raiseReport_swc (s : State) (f : Nat) (r : Report) : (raiseReport s f r).swc = s.swc := by unfold raiseReport; split <;> rfl
@[simp] theorem raiseReport_port (s : State) (f : Nat) (r : Report) : (raiseReport s f r).port = s.port := by unfold raiseReport; split <;> rfl
@[simp] theorem raiseReport_home (s : State) (f : Nat) (r : Report) : (raiseReport s f r).home = s.home := by unfold raiseReport; split <;> rfl
@[simp] theorem raiseReport_prox (s : State) (f : Nat) (r : Report) : (raiseReport s f r).prox = s.prox := by unfold raiseReport; split <;> rfl
@[simp] theorem raiseReport_dir (s : State) (f : Nat) (r : Report) : (raiseReport s f r).dir = s.dir := by unfold raiseReport; split <;> rfl
@[simp] theorem raiseReport_map (s : State) (f : Nat) (r : Report) : (raiseReport s f r).map = s.map := by unfold raiseReport; split <;> rfl
@[simp] theorem raiseReport_aul (s : State) (f : Nat) (r : Report) : (raiseReport s f r).aul = s.aul := by unfold raiseReport; split <;> rfl
@[simp] theorem raiseReport_mov (s : State) (f : Nat) (r : Report) : (raiseReport s f r).mov = s.mov := by unfold raiseReport; split <;> rfl
@[simp] theorem raiseReport_ven (s : State) (f : Nat) (r : Report) : (raiseReport s f r).ven = s.ven := by unfold raiseReport; split <;> rfl
@[simp] theorem raiseReport_sec (s : State) (f : Nat) (r : Report) : (raiseReport s f r).sec = s.sec := by unfold raiseReport; split <;> rfl
@[simp] theorem raiseReport_last (s : State) (f : Nat) (r : Report) : (raiseReport s f r).last = s.last := by unfold raiseReport; split <;> rfl
@[simp] theorem raiseReport_out (s : State) (f : Nat) (r : Report) : (raiseReport s f r).out = s.out := by unfold raiseReport; split <;> rfl
@[simp] theorem raiseReport_fresh (s : State) (f : Nat) (r : Report) : (raiseReport s f r).fresh = s.fresh := by unfold raiseReport; split <;> rfl
@[simp] theorem raiseReport_pending (s : State) (f : Nat) (r : Report) : (raiseReport s f r).pending = s.pending := by unfold raiseReport; split <;> rfl
@[simp] theorem odGet_raiseReport (s : State) (f : Nat) (r : Report) (p q : Nat) : odGet (raiseReport s f r) p q = odGet s p q := odGet_congr (raiseReport_od _ _ _) p q

/-! ### raiseFault -/

@[simp] theorem raiseFault_time (s : State) (f c d : Nat) : (raiseFault s f c d).time = s.time := raiseReport_time _ _ _
@[simp] theorem raiseFault_od (s : State) (f c d : Nat) : (raiseFault s f c d).od = s.od := raiseReport_od _ _ _
@[simp] theorem raiseFault_spr (s : State) (f c d : Nat) : (raiseFault s f c d).spr = s.spr := raiseReport_spr _ _ _
@[simp] theorem raiseFault_pow (s : State) (f c d : Nat) : (raiseFault s f c d).pow = s.pow := raiseReport_pow _ _ _
@[simp] theorem raiseFault_mgmt (s : State) (f c d : Nat) : (raiseFault s f c d).mgmt = s.mgmt := raiseReport_mgmt _ _ _
@[simp] theorem raiseFault_perf (s : State) (f c d : Nat) : (raiseFault s f c d).perf = s.perf := raiseReport_perf _ _ _
@[simp] theorem raiseFault_pins (s : State) (f c d : Nat) : (raiseFault s f c d).pins = s.pins := raiseReport_pins _ _ _
@[simp] theorem raiseFault_fab (s : State) (f c d : Nat) : (raiseFault s f c d).fab = s.fab := raiseReport_fab _ _ _
@[simp] theorem raiseFault_swc (s : State) (f c d : Nat) : (raiseFault s f c d).swc = s.swc := raiseReport_swc _ _ _
@[simp] theorem raiseFault_port (s : State) (f c d : Nat) : (raiseFault s f c d).port = s.port := raiseReport_port _ _ _
@[simp] theorem raiseFault_home (s : State) (f c d : Nat) : (raiseFault s f c d).home = s.home := raiseReport_home _ _ _
@[simp] theorem raiseFault_prox (s : State) (f c d : Nat) : (raiseFault s f c d).prox = s.prox := raiseReport_prox _ _ _
@[simp] theorem raiseFault_dir (s : State) (f c d : Nat) : (raiseFault s f c d).dir = s.dir := raiseReport_dir _ _ _
@[simp] theorem raiseFault_map (s : State) (f c d : Nat) : (raiseFault s f c d).map = s.map := raiseReport_map _ _ _
@[simp] theorem raiseFault_aul (s : State) (f c d : Nat) : (raiseFault s f c d).aul = s.aul := raiseReport_aul _ _ _
@[simp] theorem raiseFault_mov (s : State) (f c d : Nat) : (raiseFault s f c d).mov = s.mov := raiseReport_mov _ _ _
@[simp] theorem raiseFault_ven (s : State) (f c d : Nat) : (raiseFault s f c d).ven = s.ven := raiseReport_ven _ _ _
@[simp] theorem raiseFault_sec (s : State) (f c d : Nat) : (raiseFault s f c d).sec = s.sec := raiseReport_sec _ _ _
@[simp] theorem raiseFault_last (s : State) (f c d : Nat) : (raiseFault s f c d).last = s.last := raiseReport_last _ _ _
@[simp] theorem raiseFault_out (s : State) (f c d : Nat) : (raiseFault s f c d).out = s.out := raiseReport_out _ _ _
@[simp] theorem raiseFault_fresh (s : State) (f c d : Nat) : (raiseFault s f c d).fresh = s.fresh := raiseReport_fresh _ _ _
@[simp] theorem raiseFault_pending (s : State) (f c d : Nat) : (raiseFault s f c d).pending = s.pending := raiseReport_pending _ _ _
@[simp] theorem odGet_raiseFault (s : State) (f c d : Nat) (p q : Nat) : odGet (raiseFault s f c d) p q = odGet s p q := odGet_congr (raiseFault_od _ _ _ _) p q

/-! ### raiseFaultData -/

@[simp] theorem raiseFaultData_time (s : State) (f c d : Nat) (x : BitVec 192) : (raiseFaultData s f c d x).time = s.time := raiseReport_time _ _ _
@[simp] theorem raiseFaultData_od (s : State) (f c d : Nat) (x : BitVec 192) : (raiseFaultData s f c d x).od = s.od := raiseReport_od _ _ _
@[simp] theorem raiseFaultData_spr (s : State) (f c d : Nat) (x : BitVec 192) : (raiseFaultData s f c d x).spr = s.spr := raiseReport_spr _ _ _
@[simp] theorem raiseFaultData_pow (s : State) (f c d : Nat) (x : BitVec 192) : (raiseFaultData s f c d x).pow = s.pow := raiseReport_pow _ _ _
@[simp] theorem raiseFaultData_mgmt (s : State) (f c d : Nat) (x : BitVec 192) : (raiseFaultData s f c d x).mgmt = s.mgmt := raiseReport_mgmt _ _ _
@[simp] theorem raiseFaultData_perf (s : State) (f c d : Nat) (x : BitVec 192) : (raiseFaultData s f c d x).perf = s.perf := raiseReport_perf _ _ _
@[simp] theorem raiseFaultData_pins (s : State) (f c d : Nat) (x : BitVec 192) : (raiseFaultData s f c d x).pins = s.pins := raiseReport_pins _ _ _
@[simp] theorem raiseFaultData_fab (s : State) (f c d : Nat) (x : BitVec 192) : (raiseFaultData s f c d x).fab = s.fab := raiseReport_fab _ _ _
@[simp] theorem raiseFaultData_swc (s : State) (f c d : Nat) (x : BitVec 192) : (raiseFaultData s f c d x).swc = s.swc := raiseReport_swc _ _ _
@[simp] theorem raiseFaultData_port (s : State) (f c d : Nat) (x : BitVec 192) : (raiseFaultData s f c d x).port = s.port := raiseReport_port _ _ _
@[simp] theorem raiseFaultData_home (s : State) (f c d : Nat) (x : BitVec 192) : (raiseFaultData s f c d x).home = s.home := raiseReport_home _ _ _
@[simp] theorem raiseFaultData_prox (s : State) (f c d : Nat) (x : BitVec 192) : (raiseFaultData s f c d x).prox = s.prox := raiseReport_prox _ _ _
@[simp] theorem raiseFaultData_dir (s : State) (f c d : Nat) (x : BitVec 192) : (raiseFaultData s f c d x).dir = s.dir := raiseReport_dir _ _ _
@[simp] theorem raiseFaultData_map (s : State) (f c d : Nat) (x : BitVec 192) : (raiseFaultData s f c d x).map = s.map := raiseReport_map _ _ _
@[simp] theorem raiseFaultData_aul (s : State) (f c d : Nat) (x : BitVec 192) : (raiseFaultData s f c d x).aul = s.aul := raiseReport_aul _ _ _
@[simp] theorem raiseFaultData_mov (s : State) (f c d : Nat) (x : BitVec 192) : (raiseFaultData s f c d x).mov = s.mov := raiseReport_mov _ _ _
@[simp] theorem raiseFaultData_ven (s : State) (f c d : Nat) (x : BitVec 192) : (raiseFaultData s f c d x).ven = s.ven := raiseReport_ven _ _ _
@[simp] theorem raiseFaultData_sec (s : State) (f c d : Nat) (x : BitVec 192) : (raiseFaultData s f c d x).sec = s.sec := raiseReport_sec _ _ _
@[simp] theorem raiseFaultData_last (s : State) (f c d : Nat) (x : BitVec 192) : (raiseFaultData s f c d x).last = s.last := raiseReport_last _ _ _
@[simp] theorem raiseFaultData_out (s : State) (f c d : Nat) (x : BitVec 192) : (raiseFaultData s f c d x).out = s.out := raiseReport_out _ _ _
@[simp] theorem raiseFaultData_fresh (s : State) (f c d : Nat) (x : BitVec 192) : (raiseFaultData s f c d x).fresh = s.fresh := raiseReport_fresh _ _ _
@[simp] theorem raiseFaultData_pending (s : State) (f c d : Nat) (x : BitVec 192) : (raiseFaultData s f c d x).pending = s.pending := raiseReport_pending _ _ _
@[simp] theorem odGet_raiseFaultData (s : State) (f c d : Nat) (x : BitVec 192) (p q : Nat) : odGet (raiseFaultData s f c d x) p q = odGet s p q := odGet_congr (raiseFaultData_od _ _ _ _ _) p q

/-! ### logAppend -/

@[simp] theorem logAppend_time (s : State) (a b c : Nat) (r : Bool) (y : BitVec 64) (x : BitVec 192) : (logAppend s a b c r y x).time = s.time := by unfold logAppend; split <;> rfl
@[simp] theorem logAppend_od (s : State) (a b c : Nat) (r : Bool) (y : BitVec 64) (x : BitVec 192) : (logAppend s a b c r y x).od = s.od := by unfold logAppend; split <;> rfl
@[simp] theorem logAppend_spr (s : State) (a b c : Nat) (r : Bool) (y : BitVec 64) (x : BitVec 192) : (logAppend s a b c r y x).spr = s.spr := by unfold logAppend; split <;> rfl
@[simp] theorem logAppend_pow (s : State) (a b c : Nat) (r : Bool) (y : BitVec 64) (x : BitVec 192) : (logAppend s a b c r y x).pow = s.pow := by unfold logAppend; split <;> rfl
@[simp] theorem logAppend_mgmt (s : State) (a b c : Nat) (r : Bool) (y : BitVec 64) (x : BitVec 192) : (logAppend s a b c r y x).mgmt = s.mgmt := by unfold logAppend; split <;> rfl
@[simp] theorem logAppend_perf (s : State) (a b c : Nat) (r : Bool) (y : BitVec 64) (x : BitVec 192) : (logAppend s a b c r y x).perf = s.perf := by unfold logAppend; split <;> rfl
@[simp] theorem logAppend_pins (s : State) (a b c : Nat) (r : Bool) (y : BitVec 64) (x : BitVec 192) : (logAppend s a b c r y x).pins = s.pins := by unfold logAppend; split <;> rfl
@[simp] theorem logAppend_fab (s : State) (a b c : Nat) (r : Bool) (y : BitVec 64) (x : BitVec 192) : (logAppend s a b c r y x).fab = s.fab := by unfold logAppend; split <;> rfl
@[simp] theorem logAppend_swc (s : State) (a b c : Nat) (r : Bool) (y : BitVec 64) (x : BitVec 192) : (logAppend s a b c r y x).swc = s.swc := by unfold logAppend; split <;> rfl
@[simp] theorem logAppend_port (s : State) (a b c : Nat) (r : Bool) (y : BitVec 64) (x : BitVec 192) : (logAppend s a b c r y x).port = s.port := by unfold logAppend; split <;> rfl
@[simp] theorem logAppend_home (s : State) (a b c : Nat) (r : Bool) (y : BitVec 64) (x : BitVec 192) : (logAppend s a b c r y x).home = s.home := by unfold logAppend; split <;> rfl
@[simp] theorem logAppend_prox (s : State) (a b c : Nat) (r : Bool) (y : BitVec 64) (x : BitVec 192) : (logAppend s a b c r y x).prox = s.prox := by unfold logAppend; split <;> rfl
@[simp] theorem logAppend_dir (s : State) (a b c : Nat) (r : Bool) (y : BitVec 64) (x : BitVec 192) : (logAppend s a b c r y x).dir = s.dir := by unfold logAppend; split <;> rfl
@[simp] theorem logAppend_map (s : State) (a b c : Nat) (r : Bool) (y : BitVec 64) (x : BitVec 192) : (logAppend s a b c r y x).map = s.map := by unfold logAppend; split <;> rfl
@[simp] theorem logAppend_aul (s : State) (a b c : Nat) (r : Bool) (y : BitVec 64) (x : BitVec 192) : (logAppend s a b c r y x).aul = s.aul := by unfold logAppend; split <;> rfl
@[simp] theorem logAppend_mov (s : State) (a b c : Nat) (r : Bool) (y : BitVec 64) (x : BitVec 192) : (logAppend s a b c r y x).mov = s.mov := by unfold logAppend; split <;> rfl
@[simp] theorem logAppend_ven (s : State) (a b c : Nat) (r : Bool) (y : BitVec 64) (x : BitVec 192) : (logAppend s a b c r y x).ven = s.ven := by unfold logAppend; split <;> rfl
@[simp] theorem logAppend_sec (s : State) (a b c : Nat) (r : Bool) (y : BitVec 64) (x : BitVec 192) : (logAppend s a b c r y x).sec = s.sec := by unfold logAppend; split <;> rfl
@[simp] theorem logAppend_last (s : State) (a b c : Nat) (r : Bool) (y : BitVec 64) (x : BitVec 192) : (logAppend s a b c r y x).last = s.last := by unfold logAppend; split <;> rfl
@[simp] theorem logAppend_out (s : State) (a b c : Nat) (r : Bool) (y : BitVec 64) (x : BitVec 192) : (logAppend s a b c r y x).out = s.out := by unfold logAppend; split <;> rfl
@[simp] theorem logAppend_fresh (s : State) (a b c : Nat) (r : Bool) (y : BitVec 64) (x : BitVec 192) : (logAppend s a b c r y x).fresh = s.fresh := by unfold logAppend; split <;> rfl
@[simp] theorem logAppend_pending (s : State) (a b c : Nat) (r : Bool) (y : BitVec 64) (x : BitVec 192) : (logAppend s a b c r y x).pending = s.pending := by unfold logAppend; split <;> rfl
@[simp] theorem odGet_logAppend (s : State) (a b c : Nat) (r : Bool) (y : BitVec 64) (x : BitVec 192) (p q : Nat) : odGet (logAppend s a b c r y x) p q = odGet s p q := odGet_congr (logAppend_od _ _ _ _ _ _ _) p q

/-! ### logInfo -/

@[simp] theorem logInfo_time (s : State) (a b : Nat) (x : BitVec 192) : (logInfo s a b x).time = s.time := logAppend_time _ _ _ _ _ _ _
@[simp] theorem logInfo_od (s : State) (a b : Nat) (x : BitVec 192) : (logInfo s a b x).od = s.od := logAppend_od _ _ _ _ _ _ _
@[simp] theorem logInfo_spr (s : State) (a b : Nat) (x : BitVec 192) : (logInfo s a b x).spr = s.spr := logAppend_spr _ _ _ _ _ _ _
@[simp] theorem logInfo_pow (s : State) (a b : Nat) (x : BitVec 192) : (logInfo s a b x).pow = s.pow := logAppend_pow _ _ _ _ _ _ _
@[simp] theorem logInfo_mgmt (s : State) (a b : Nat) (x : BitVec 192) : (logInfo s a b x).mgmt = s.mgmt := logAppend_mgmt _ _ _ _ _ _ _
@[simp] theorem logInfo_perf (s : State) (a b : Nat) (x : BitVec 192) : (logInfo s a b x).perf = s.perf := logAppend_perf _ _ _ _ _ _ _
@[simp] theorem logInfo_pins (s : State) (a b : Nat) (x : BitVec 192) : (logInfo s a b x).pins = s.pins := logAppend_pins _ _ _ _ _ _ _
@[simp] theorem logInfo_fab (s : State) (a b : Nat) (x : BitVec 192) : (logInfo s a b x).fab = s.fab := logAppend_fab _ _ _ _ _ _ _
@[simp] theorem logInfo_swc (s : State) (a b : Nat) (x : BitVec 192) : (logInfo s a b x).swc = s.swc := logAppend_swc _ _ _ _ _ _ _
@[simp] theorem logInfo_port (s : State) (a b : Nat) (x : BitVec 192) : (logInfo s a b x).port = s.port := logAppend_port _ _ _ _ _ _ _
@[simp] theorem logInfo_home (s : State) (a b : Nat) (x : BitVec 192) : (logInfo s a b x).home = s.home := logAppend_home _ _ _ _ _ _ _
@[simp] theorem logInfo_prox (s : State) (a b : Nat) (x : BitVec 192) : (logInfo s a b x).prox = s.prox := logAppend_prox _ _ _ _ _ _ _
@[simp] theorem logInfo_dir (s : State) (a b : Nat) (x : BitVec 192) : (logInfo s a b x).dir = s.dir := logAppend_dir _ _ _ _ _ _ _
@[simp] theorem logInfo_map (s : State) (a b : Nat) (x : BitVec 192) : (logInfo s a b x).map = s.map := logAppend_map _ _ _ _ _ _ _
@[simp] theorem logInfo_aul (s : State) (a b : Nat) (x : BitVec 192) : (logInfo s a b x).aul = s.aul := logAppend_aul _ _ _ _ _ _ _
@[simp] theorem logInfo_mov (s : State) (a b : Nat) (x : BitVec 192) : (logInfo s a b x).mov = s.mov := logAppend_mov _ _ _ _ _ _ _
@[simp] theorem logInfo_ven (s : State) (a b : Nat) (x : BitVec 192) : (logInfo s a b x).ven = s.ven := logAppend_ven _ _ _ _ _ _ _
@[simp] theorem logInfo_sec (s : State) (a b : Nat) (x : BitVec 192) : (logInfo s a b x).sec = s.sec := logAppend_sec _ _ _ _ _ _ _
@[simp] theorem logInfo_last (s : State) (a b : Nat) (x : BitVec 192) : (logInfo s a b x).last = s.last := logAppend_last _ _ _ _ _ _ _
@[simp] theorem logInfo_out (s : State) (a b : Nat) (x : BitVec 192) : (logInfo s a b x).out = s.out := logAppend_out _ _ _ _ _ _ _
@[simp] theorem logInfo_fresh (s : State) (a b : Nat) (x : BitVec 192) : (logInfo s a b x).fresh = s.fresh := logAppend_fresh _ _ _ _ _ _ _
@[simp] theorem logInfo_pending (s : State) (a b : Nat) (x : BitVec 192) : (logInfo s a b x).pending = s.pending := logAppend_pending _ _ _ _ _ _ _
@[simp] theorem odGet_logInfo (s : State) (a b : Nat) (x : BitVec 192) (p q : Nat) : odGet (logInfo s a b x) p q = odGet s p q := odGet_congr (logInfo_od _ _ _ _) p q

/-! ### What each operation writes -/

/-- An event counter rises by what it counts, modulo 2^48 (R471). -/
@[simp] theorem counter_bump_same (s : State) (n k : Nat) : counter (bump s n k) n = counter s n + BitVec.ofNat 48 k := by
  simp [counter, bump]

theorem counter_bump_other (s : State) {n m : Nat} (h : m ≠ n) (k : Nat) : counter (bump s n k) m = counter s m := by
  simp [counter, bump, tabGet_mod_other h]

@[simp] theorem emit_out (s : State) (o : Out) : (emit s o).out = s.out ++ [o] := (rfl)

@[simp] theorem emitAll_out (s : State) (os : List Out) : (emitAll s os).out = s.out ++ os := (rfl)

/-- R417: a source whose pair is idle holds the report. -/
theorem raiseReport_idle (s : State) (f : Nat) (r : Report) (h : tabFind? f s.flt.pairs = none) :
    (raiseReport s f r).flt = { s.flt with pairs := tabPut f r s.flt.pairs } := by
  simp [raiseReport, h]

/-- R417: a source that holds a report goes on holding it. -/
theorem raiseReport_held (s : State) (f : Nat) (r q : Report) (h : tabFind? f s.flt.pairs = some q) :
    raiseReport s f r = s := by
  simp [raiseReport, h]

/-- R417: after a source has been raised it holds a report. -/
theorem raiseReport_some (s : State) (f : Nat) (r : Report) : (tabFind? f (raiseReport s f r).flt.pairs).isSome = true := by
  unfold raiseReport
  split
  · rename_i h; simp [h]
  · simp

/-- R417: raising one source leaves the pair of every other. -/
theorem raiseReport_other (s : State) {f g : Nat} (h : g ≠ f) (r : Report) :
    tabFind? g (raiseReport s f r).flt.pairs = tabFind? g s.flt.pairs := by
  unfold raiseReport
  split
  · rfl
  · simp [tabFind_put_other h]

/-- R433: no append takes the log beyond 65,536 entries. -/
theorem logAppend_bounded (s : State) (a b c : Nat) (r : Bool) (y : BitVec 64) (x : BitVec 192)
    (h : s.flt.log.length ≤ 65536) : (logAppend s a b c r y x).flt.log.length ≤ 65536 := by
  unfold logAppend
  split
  · exact h
  · simp; omega

/-- R408: a queue never holds more than 256 records. -/
theorem queueRecord_bounded (ss : Session) (r : NotifyRec) (h : ss.queue.length ≤ 256) :
    (queueRecord ss r).1.queue.length ≤ 256 := by
  unfold queueRecord
  split
  · exact h
  · split
    · simp; omega
    · dsimp only
      split <;> simp <;> omega

/-- R408: a notify opens and closes no session. -/
@[simp] theorem notify_sessions (s : State) (i j v : Nat) (d : BitVec 64) :
    (notify s i j v d).spr.sessions.length = s.spr.sessions.length := by
  simp [notify]

end Sys2Proof.Laws
end

