-- ==== Sys2Proof/Safety.lean ====
section
/-!
DEFINITION. Safety.lean: what a safe state of the device is, in the terms that claims use: the limits that the rules set to what it
holds, and the misuses of R440 that a state can show.
-/

namespace Sys2Proof.Safety

open Sys2Proof.Machine

/-- R371: no master has more than 16 transactions outstanding. -/
def mastersBounded (s : State) : Bool := s.mgmt.outstanding.all fun p => decide (p.2.length ≤ 16)

/-- R365 to R371: the management complex is sound: no master has more than 16 transactions outstanding, and its memory is in the
canonical form. -/
def managementSound (s : State) : Bool := mastersBounded s && Memory.wf (sramLoaded s) s.mgmt.sram

/-- R402: at most 32 sessions are open. -/
def sessionsBounded (s : State) : Bool := decide (s.spr.sessions.length ≤ 32)

/-- R408: no session queues more than 256 records. -/
def queuesBounded (s : State) : Bool := s.spr.sessions.all fun x => decide (x.queue.length ≤ 256)

/-- R433: the event log holds at most 65,536 entries. -/
def logBounded (s : State) : Bool := decide (s.flt.log.length ≤ 65536)

/-- R15, R340: the main domain is on only from step 4 of start-up on, and READY is high only at step 9. -/
def stepConsistent (s : State) : Bool :=
  (!s.pow.mainOn || decide (4 ≤ s.pow.step)) && (!s.pins.ready || decide (s.pow.step = 9))

/-- R394, R400, R404, R410: request `r` of a message type of Since `since` will be executed in the open session `x`: its tag is right
where the session has one, its Sequence is new, and fewer than 8 requests of the session are executing. -/
def freshRequest (s : State) (r : Req) (x : Session) (since : Nat) : Prop :=
  s.spr.serving = true ∧ transportRefuses s r.via = false ∧ session? s r.session = some x ∧ (x.mode = .plain ∨ r.tagOk = true) ∧
    (∀ h, x.high = some h → h < r.seq) ∧ x.executing.length < 8 ∧ since ≤ x.protocol ∧ 0x0100 ≤ x.protocol

/-- R400, R403, R409: the session of request `r` as its execution finds it. -/
def takenSession (s : State) (r : Req) (x : Session) : Session :=
  { x with lastRequest := s.time.clock, source := r.via, high := some r.seq }

/-- R400: the state that the execution of request `r` finds. -/
def takenState (s : State) (r : Req) : State := updSession s r.session (takenSession s r)

/-- R364 to R376, R379, R421, R423, R434, R494: the commands that can reach the Nalta management complex: accesses of its masters, the
events of its cores, reports that interrupt its cores, losses of power and resets that end with it, and the load of its firmware. -/
def reachesManagement : Instr → Bool
  | .busAccess _ | .busTimeout _ _ | .lateResponse _ _ | .apertureAccess _ _ _ _ | .eventLogPost _ _ _ _ => true
  | .mpuCommit _ | .mpuCopy _ | .exceptionReturn _ => true
  | .faultReport _ _ | .railFault _ _ | .handlingTimerExpire _ | .samplerFire _ => true
  | .supplySample _ _ _ _ _ | .crashSnapshot | .auxiliaryDomainOff | .resetRelease | .startupStepComplete _ => true
  | _ => false

/-- UM-03: two remap entries in MAPPED name one device granule. -/
def doubleTarget (s : State) : Bool :=
  s.map.backing.any fun p => s.map.backing.any fun q =>
    decide (p.1 ≠ q.1) && decide (entState p.2 = 1) && decide (entState q.2 = 1) && decide (entPort p.2 = entPort q.2) &&
      decide (entLd p.2 = entLd q.2) && decide (entGran p.2 = entGran q.2)

/-- UM-10: an entry in MAPPED names a port that is no pool port. -/
def foreignTarget (s : State) : Bool :=
  s.map.backing.any fun p => decide (entState p.2 = 1) && !poolPort s (entPort p.2)

/-- R440: none of the misuses that the remap table shows. -/
def remapSafe (s : State) : Bool := !doubleTarget s && !foreignTarget s

end Sys2Proof.Safety
end

