-- ==== Sys2Proof/Certificates/Slice0/Obligations.lean ====
section
/-!
DEFINITION. Certificates/Slice0/Obligations.lean: the statements about the model that the provers are asked to prove.
-/

open Sys2Proof Sys2Proof.Machine Sys2Proof.Safety

/-- R15, R340, R365, R371, R385, R400, R471: the state after reset: no supply is good, the main domain is off, no session is open, every
counter is 0, the cores are at P0 and nothing is outstanding or waits. -/
def Obligations.ResetState : Prop :=
  State.reset.pow.mainOn = false ∧ State.reset.pow.vauxGood = false ∧ State.reset.pow.step = 0 ∧ State.reset.pins.ready = false ∧
    State.reset.spr.sessions = [] ∧ State.reset.flt.log = [] ∧ State.reset.flt.safe = false ∧ State.reset.pending = [] ∧
    (∀ n : Nat, counter State.reset n = 0) ∧ (∀ k : Nat, k < 4 → (coreSt State.reset k).level = .p0) ∧
    Safety.managementSound State.reset = true

/-- What step does: the command at the front of the queue is carried out on the state with the rest of the queue. -/
def Obligations.StepRunsFront : Prop :=
  ∀ (c : Instr) (rest : List Instr) (s : State), s.pending = c :: rest → step s = exec c { s with pending := rest }

/-- The model's choice (log entry 1), with R479 and R480: on an empty queue one nanosecond passes, and device time with it, one more or
less at each 10,000th while an offset is being slewed out. -/
def Obligations.IdleTick : Prop :=
  ∀ s : State, s.pending = [] → ∃ t : State, step s = .next t ∧ t.time.clock = s.time.clock + 1 ∧
    (s.time.clock % 10000 ≠ 9999 → t.time.devTime = s.time.devTime + 1 ∧ t.time.slewLeft = s.time.slewLeft) ∧
    (s.time.clock % 10000 = 9999 → odGet s 0xC050 6 = 1 → 0 < s.time.slewLeft →
      t.time.devTime = s.time.devTime + 2 ∧ t.time.slewLeft = s.time.slewLeft - 1) ∧
    (s.time.clock % 10000 = 9999 → odGet s 0xC050 6 = 1 → s.time.slewLeft < 0 →
      t.time.devTime = s.time.devTime ∧ t.time.slewLeft = s.time.slewLeft + 1) ∧ t = { s with time := t.time }

/-- R369: the SRAM serves reads and writes of 1 to 256 bytes of every master that its path and its MPU let through, atomic swap and
compare-and-swap of 4 or 8 aligned bytes for the cores, each as one access, and answers an atomic of the debug port or of the
security core DMA with a bus error of kind TARGET. Of each of these commands it concludes that exec answers the next state of its
own effect: busAccess. -/
def Obligations.SramAccesses : Prop :=
  ∀ (r : BusReq) (s : State), targetOf r.addr.toNat = some .sram → r.stalls = false → (outstanding s r.master).length < 16 →
    targetWaits s .sram = false →
    (r.master.val < 4 → partsRefused (coreSt s r.master) r.addr.toNat r.kind = []) →
    (r.master.val = 4 → s.sec.unlocked = true ∧ s.sec.permissions.getLsbD 0 = true) →
    (∀ n : Nat, r.kind = .read n → 1 ≤ n → n ≤ 256 →
      ∃ t : State, exec (.busAccess [r]) s = .next t ∧ t.out = s.out ++ [Out.busData r.master r.id (sramRead s r.addr.toNat n)] ∧
        t = { s with mgmt := { s.mgmt with rrPtr := t.mgmt.rrPtr, lastDma := t.mgmt.lastDma }, out := t.out }) ∧
    (∀ n : Nat, r.kind = .fetch n → 1 ≤ n → n ≤ 256 →
      ∃ t : State, exec (.busAccess [r]) s = .next t ∧ t.out = s.out ++ [Out.busData r.master r.id (sramRead s r.addr.toNat n)] ∧
        t = { s with mgmt := { s.mgmt with rrPtr := t.mgmt.rrPtr, lastDma := t.mgmt.lastDma, cores := t.mgmt.cores }, out := t.out }) ∧
    (∀ d : List Byte, r.kind = .write d → 1 ≤ d.length → d.length ≤ 256 →
      ∃ t : State, exec (.busAccess [r]) s = .next t ∧ t.out = s.out ++ [Out.busAck r.master r.id] ∧
        (∀ i : Nat, i < d.length → sramByte t (r.addr.toNat + i) = d.getD i 0) ∧
        (∀ a : Nat, a < r.addr.toNat ∨ r.addr.toNat + d.length ≤ a → sramByte t a = sramByte s a) ∧
        t = { s with mgmt := { s.mgmt with rrPtr := t.mgmt.rrPtr, lastDma := t.mgmt.lastDma, sram := t.mgmt.sram }, out := t.out }) ∧
    (∀ d : List Byte, r.master.val < 4 → r.kind = .swap d → d.length = 4 ∨ d.length = 8 → r.addr.toNat % d.length = 0 →
      ∃ t : State, exec (.busAccess [r]) s = .next t ∧ t.out = s.out ++ [Out.busData r.master r.id (sramRead s r.addr.toNat d.length)] ∧
        (∀ i : Nat, i < d.length → sramByte t (r.addr.toNat + i) = d.getD i 0) ∧
        (∀ a : Nat, a < r.addr.toNat ∨ r.addr.toNat + d.length ≤ a → sramByte t a = sramByte s a) ∧
        t = { s with mgmt := { s.mgmt with rrPtr := t.mgmt.rrPtr, lastDma := t.mgmt.lastDma, sram := t.mgmt.sram }, out := t.out }) ∧
    (∀ c d : List Byte, r.master.val < 4 → r.kind = .cas c d → d.length = 4 ∨ d.length = 8 → r.addr.toNat % d.length = 0 →
      ∃ t : State, exec (.busAccess [r]) s = .next t ∧ t.out = s.out ++ [Out.busData r.master r.id (sramRead s r.addr.toNat d.length)] ∧
        (c ≠ sramRead s r.addr.toNat d.length → t.mgmt.sram = s.mgmt.sram) ∧
        (c = sramRead s r.addr.toNat d.length → (∀ i : Nat, i < d.length → sramByte t (r.addr.toNat + i) = d.getD i 0) ∧
          ∀ a : Nat, a < r.addr.toNat ∨ r.addr.toNat + d.length ≤ a → sramByte t a = sramByte s a) ∧
        t = { s with mgmt := { s.mgmt with rrPtr := t.mgmt.rrPtr, lastDma := t.mgmt.lastDma, sram := t.mgmt.sram }, out := t.out }) ∧
    (∀ c d : List Byte, 4 ≤ r.master.val → r.kind = .swap d ∨ r.kind = .cas c d →
      ∃ t : State, exec (.busAccess [r]) s = .next t ∧ t.out = s.out ++ [Out.busError r.master r.id .target] ∧ t.mgmt.sram = s.mgmt.sram)

/-- R435: the command writes the last 4,096 entries of the log as the crash snapshot whenever the energy check of R343 passes, in every
state, and is answered HOLDUP_LOW when it does not; OD A062.00 reads the snapshot, entry after entry. Of each of these commands it
concludes that exec answers the next state of its own effect: writeSnapshotNow. -/
def Obligations.SnapshotCommand : Prop :=
  (∀ s : State, holdupPasses s 262144 = true → ∃ t : State, exec .writeSnapshotNow s = .next t ∧
    t.flt.crash = s.flt.log.drop (s.flt.log.length - 4096) ∧ t.out = s.out ++ [Out.status .ok] ∧
    t = { s with flt := { s.flt with crash := t.flt.crash }, out := t.out }) ∧
  (∀ s : State, holdupPasses s 262144 = false → ∃ t : State, exec .writeSnapshotNow s = .next t ∧ t.out = s.out ++ [Out.status .holdupLow] ∧
    counter t (counterNo 0xC02A 1) = counter s (counterNo 0xC02A 1) + 1 ∧ t = { s with perf := t.perf, out := t.out }) ∧
  (∀ (x : Session) (s : State), domainHigh s x 0xA062 = s.flt.crash.flatMap fun e => leBytes 64 e.bits)

/-- R449: a key slot is revoked in an ENCRYPTED session alone, and not where no slot would be left that is unrevoked and holds a key
hash; a revoked slot stays revoked. Of each of these commands it concludes that exec answers the next state of its own effect:
revokeKeySlot. -/
def Obligations.KeySlotRevocation : Prop :=
  (∀ (x : BitVec 32) (k : Byte) (s : State), encryptedSession s x.toNat = true → k.toNat ≤ 3 →
    (∃ j : Nat, j < 4 ∧ j ≠ k.toNat ∧ j ∉ s.sec.revoked ∧ (tabFind? j s.sec.fuseHash).isSome = true) →
    ∃ t : State, exec (.revokeKeySlot x k) s = .next t ∧ k.toNat ∈ t.sec.revoked ∧ (∀ j ∈ s.sec.revoked, j ∈ t.sec.revoked) ∧
      (∀ j ∈ t.sec.revoked, j ∈ s.sec.revoked ∨ j = k.toNat) ∧ t.out = s.out ++ [Out.status .ok] ∧
      t = { s with sec := { s.sec with revoked := t.sec.revoked }, out := t.out }) ∧
  (∀ (x : BitVec 32) (k : Byte) (s : State), encryptedSession s x.toNat = true → k.toNat ≤ 3 →
    (∀ j : Nat, j < 4 → j ≠ k.toNat → j ∈ s.sec.revoked ∨ tabFind? j s.sec.fuseHash = none) →
    exec (.revokeKeySlot x k) s = .next (emit s (.status .wrongState))) ∧
  (∀ (x : BitVec 32) (k : Byte) (s : State), encryptedSession s x.toNat = false →
    ∃ st : Status, st ≠ .ok ∧ exec (.revokeKeySlot x k) s = .next (emit s (.status st)))

/-- R29, R30: a unit that passes its check at a crossing whose receiver waits for nothing else is delivered and its slot freed; one that
fails is discarded, counted once in OD C020.01 and returned by its number, and the sender goes back to it, counted once in OD
C020.02. Of each of these commands it concludes that exec answers the next state of its own effect: crossingUnitReceive,
crossingResend. -/
def Obligations.CrossingUnits : Prop :=
  (∀ (c : Fin 686) (w : UnitBits) (s : State) (q : Nat) (rest : List Nat),
    (xing s c.val).flight = q :: rest → (xing s c.val).stopped = false → (xing s c.val).failed = none →
    crcOk w = true → checkInverted s (crossingSource s c.val) = false → ∀ p : Held, (q, p) ∈ (xing s c.val).hold →
    ∃ (r : State) (h : Held), (xing r c.val).failed = none ∧ (xing r c.val).nak = none ∧ (xing r c.val).count = 0 ∧
      r.perf = s.perf ∧ r.od = s.od ∧ h.u = unpackUnit w ∧
      exec (.crossingUnitReceive c w) s = .next (carriedOn r c.val h)) ∧
  (∀ (c : Fin 686) (w : UnitBits) (s : State) (q : Nat) (rest : List Nat),
    (xing s c.val).flight = q :: rest → (xing s c.val).stopped = false → (xing s c.val).failed = none → crcOk w = false →
    1 ≤ odGet s 0x3020 1 →
    ∃ t : State, exec (.crossingUnitReceive c w) s = .next t ∧ (xing t c.val).nak = some q ∧ (xing t c.val).failed = some q ∧
      (xing t c.val).hold = (xing s c.val).hold ∧ (xing t c.val).stopped = false ∧
      counter t (counterNo 0xC020 1) = counter s (counterNo 0xC020 1) + 1 ∧ t.fab.ring = s.fab.ring ∧ t.fab.ni = s.fab.ni) ∧
  (∀ (c : Fin 686) (s : State) (q : Nat), (xing s c.val).nak = some q → (xing s c.val).stopped = false →
    ∃ t : State, exec (.crossingResend c) s = .next t ∧ (xing t c.val).nak = none ∧
      (xing t c.val).flight =
        (xing s c.val).flight ++ ((xing s c.val).hold.map Prod.fst).dropWhile (fun r => decide (r ≠ q)) ∧
      counter t (counterNo 0xC020 2) = counter s (counterNo 0xC020 2) + 1 ∧
      (∀ d : Nat, d ≠ c.val → xing t d = xing s d) ∧ t = { s with fab := t.fab, perf := t.perf })

/-- R52, R54, R55: a unit enters a ring from its network interface or from a turn queue when the ring buffer has two free slots and
nothing goes before it, moves on when it can, and the starvation guard puts a waiting unit first, counted in OD C021.05. Of each of
these commands it concludes that exec answers the next state of its own effect: unitInjection, ringHop, starvationGuard. -/
def Obligations.RingMoves : Prop :=
  (∀ (n : Fin 144) (a : Fin 16) (v : Vn) (s : State) (h : Held) (q : Nat × Nat) (d : Nat),
    niHead s n.val a.val v = some h → h.hpa = none → h.u.mc = false → h.u.vn = v →
    markedUnit (niTake s n.val a.val v h.id) n.val (injected s n.val h h.u) = none →
    steer s (injected s n.val h h.u).u = some q → wantDir n.val q.1 (injected s n.val h h.u).u.yx = some d →
    injectOpen s n.val d v h.id = true →
    ∃ t : State, ∃ g : Held, exec (.unitInjection n a v) s = .next t ∧ g.id = h.id ∧ g.u.line = h.u.line ∧ g.u.epoch = activeEpoch s ∧
      ringBuf t n.val d v = ringBuf s n.val d v ++ [g] ∧
      niBuf t n.val a.val v = (niBuf s n.val a.val v).filter (fun x => decide (x.id ≠ h.id)) ∧
      t = { s with fab := t.fab }) ∧
  (∀ (n : Fin 144) (d : Fin 4) (v : Vn) (s : State) (h : Held) (rest : List Held),
    turnBuf s n.val d.val v = h :: rest → h.u.vn = v → entryOpen s n.val d.val v (s.fab.urgent.contains h.id) = true →
    (s.fab.urgent.contains h.id ||
      !(s.fab.lastTurn.contains (ringKey n.val d.val v) && injectionWaits s n.val d.val v)) = true →
    ∃ t : State, exec (.ringHop (.enter n d v)) s = .next t ∧ turnBuf t n.val d.val v = rest ∧
      ringBuf t n.val d.val v = ringBuf s n.val d.val v ++ [h] ∧ t = { s with fab := t.fab }) ∧
  (∀ (n : Fin 144) (d : Fin 4) (s : State) (v : Vn) (h : Held) (rest : List Held) (c : Nat),
    (((List.range 8).map fun i => vnOf ((tabGet 0 (n.val * 4 + d.val) s.fab.rrVn + i) % 8)).find? fun v =>
      canHop s n.val d.val v) = some v →
    ringBuf s n.val d.val v = h :: rest → segCrossing s n.val d.val = some c →
    ∃ t : State, exec (.ringHop (.hop n d)) s = .next t ∧ ringBuf t n.val d.val v = rest ∧
      tabGet 0 (n.val * 4 + d.val) t.fab.rrVn = (vnCode v + 1) % 8 ∧
      crossingUnits t c = crossingUnits s c ++ [h] ∧ t = { s with fab := t.fab }) ∧
  (∀ (n : Fin 144) (d : Fin 4) (v : Vn) (s : State) (h : Held) (rest : List Held),
    turnBuf s n.val d.val v = h :: rest → s.fab.urgent.contains h.id = false →
    ∃ t : State, exec (.starvationGuard (.turn n d v)) s = .next t ∧ h.id ∈ t.fab.urgent ∧
      counter t (counterNo 0xC021 5) = counter s (counterNo 0xC021 5) + 1 ∧ t = { s with fab := t.fab, perf := t.perf }) ∧
  (∀ (n : Fin 144) (a : Fin 16) (v : Vn) (s : State) (h : Held), niHead s n.val a.val v = some h →
    s.fab.urgent.contains h.id = false →
    ∃ t : State, exec (.starvationGuard (.inject n a v)) s = .next t ∧ h.id ∈ t.fab.urgent ∧
      counter t (counterNo 0xC021 5) = counter s (counterNo 0xC021 5) + 1 ∧ t = { s with fab := t.fab, perf := t.perf })

/-- R59, R61: while no unit of the old epoch is left, a write of a route table goes to the inactive bank alone and is refused with BUSY
before; a commit makes the inactive bank active and starts the drain, which ends when the last unit of the old epoch has left,
counted in OD C021.06. Of each of these commands it concludes that exec answers the next state of its own effect: routeTableWrite,
routeCommit, routeDrainComplete. -/
def Obligations.RouteBanks : Prop :=
  (∀ (m : Vector (BitVec 16) 15) (s : State), oldEpochDrain s = 0 →
    ∃ t : State, exec (.routeTableWrite (.links m)) s = .next t ∧ t.out = s.out ++ [Out.status .ok] ∧
      (∀ i : Nat, (h : i < 15) → linkMask t (!activeEpoch s) i = m[i]) ∧ (∀ i : Nat, linkMask t (activeEpoch s) i = linkMask s (activeEpoch s) i) ∧
      t = { s with fab := t.fab, out := t.out }) ∧
  (∀ (e : Vector (BitVec 64) 32) (s : State), oldEpochDrain s = 0 →
    ∃ t : State, exec (.routeTableWrite (.sources e)) s = .next t ∧ t.out = s.out ++ [Out.status .ok] ∧
      (∀ i : Nat, (h : i < 32) → srcEntry t (!activeEpoch s) i = sourceMask e[i]) ∧
      (∀ i : Nat, srcEntry t (activeEpoch s) i = srcEntry s (activeEpoch s) i) ∧ t = { s with fab := t.fab, out := t.out }) ∧
  (∀ (r : RouteTable) (s : State), 0 < oldEpochDrain s → exec (.routeTableWrite r) s = .next (emit s (.status .busy))) ∧
  (∀ s : State, odGet s 0x3033 3 ≠ 1 →
    ∃ t : State, exec .routeCommit s = .next t ∧ t.out.getLast? = some (Out.status .ok) ∧ odGet t 0x3033 3 = 1 ∧
      odGet t 0x3033 2 = 1 - odGet s 0x3033 2 ∧ (∀ i j : Nat, i ≠ 0x3033 → i < 65536 → j < 256 → odGet t i j = odGet s i j) ∧
      t = { s with od := t.od, aul := { s.aul with noticed := t.aul.noticed }, out := t.out }) ∧
  (∀ s : State, odGet s 0x3033 3 = 1 → exec .routeCommit s = .next (emit s (.status .busy))) ∧
  (∀ s : State, odGet s 0x3033 3 = 1 → oldEpochDrain s = 0 →
    ∃ t : State, exec .routeDrainComplete s = .next t ∧ odGet t 0x3033 3 = 2 ∧
      counter t (counterNo 0xC021 6) = counter s (counterNo 0xC021 6) + 1 ∧ t = { s with od := t.od, perf := t.perf })

/-- R66, R74: the transition table of a port island. A request that finds the main domain off, or the island held CLOSED, is only
stored. Of each of these commands it concludes that exec answers the next state of its own effect: islandRequestClosed,
islandRequestOpen, islandDrainComplete, closingDrainTimeout, bridgeReady, bridgeSelfCheckFail, openingTimeout. -/
def Obligations.IslandTransitions : Prop :=
  (∀ (k : Fin 16) (s : State), s.pow.mainOn = true → k.val ∉ s.fab.heldClosed →
    (islandState s k.val = 0 → allDisabled s k.val = true →
      ∃ t : State, exec (.islandRequestClosed k) s = .next t ∧ islandState t k.val = 1 ∧ odGet t 0x3031 (k.val + 1) = 1 ∧
        k.val ∈ t.fab.drainTimer ∧ t.out = s.out ++ [Out.status .ok] ∧ t = { s with od := t.od, fab := t.fab, out := t.out }) ∧
    (islandState s k.val = 0 → allDisabled s k.val = false →
      exec (.islandRequestClosed k) s = .next (emit s (.status .portsActive))) ∧
    (islandState s k.val = 3 → exec (.islandRequestClosed k) s = .next (emit s (.status .busy))) ∧
    (islandState s k.val = 2 →
      ∃ t : State, exec (.islandRequestOpen k) s = .next t ∧ islandState t k.val = 3 ∧ odGet t 0x3031 (k.val + 1) = 0 ∧
        t.out = s.out ++ [Out.status .ok] ∧ t = { s with od := t.od, out := t.out }) ∧
    (islandState s k.val = 1 →
      ∃ t : State, exec (.islandRequestOpen k) s = .next t ∧ islandState t k.val = 0 ∧ k.val ∉ t.fab.drainTimer ∧
        t.out.getLast? = some (Out.status .ok) ∧ t.pins = s.pins ∧ t.flt = s.flt ∧ t.mgmt = s.mgmt) ∧
    (islandState s k.val = 1 ∨ islandState s k.val = 2 →
      ∃ t : State, exec (.islandRequestClosed k) s = .next t ∧ islandState t k.val = islandState s k.val ∧
        odGet t 0x3031 (k.val + 1) = 1 ∧ t.out = s.out ++ [Out.status .ok] ∧ t = { s with od := t.od, out := t.out })) ∧
  (∀ (k : Fin 16) (s : State), s.pow.mainOn = false ∨ k.val ∈ s.fab.heldClosed →
    (∃ t : State, exec (.islandRequestClosed k) s = .next t ∧ odGet t 0x3031 (k.val + 1) = 1 ∧ islandState t k.val = islandState s k.val ∧
      t.out = s.out ++ [Out.status .ok] ∧ t = { s with od := t.od, out := t.out }) ∧
    (∃ t : State, exec (.islandRequestOpen k) s = .next t ∧ odGet t 0x3031 (k.val + 1) = 0 ∧ islandState t k.val = islandState s k.val ∧
      t.out = s.out ++ [Out.status .ok] ∧ t = { s with od := t.od, out := t.out })) ∧
  (∀ (k : Fin 16) (s : State),
    (islandState s k.val = 1 → islandDrain s k.val = 0 → bridgeEmpty s k.val = true →
      ∃ t : State, exec (.islandDrainComplete k) s = .next t ∧ islandState t k.val = 2 ∧ k.val ∉ t.fab.drainTimer ∧
        t = { s with od := t.od, fab := t.fab }) ∧
    (islandState s k.val = 1 → k.val ∈ s.fab.drainTimer → tabFind? 428 s.flt.pairs = none →
      ∃ t : State, ∃ r : Report, exec (.closingDrainTimeout k) s = .next t ∧ islandState t k.val = 1 ∧ k.val ∉ t.fab.drainTimer ∧
        tabFind? 428 t.flt.pairs = some r ∧ t = { s with fab := t.fab, flt := t.flt }) ∧
    (islandState s k.val = 3 → ∃ t : State, exec (.bridgeReady k) s = .next t ∧ islandState t k.val = 0 ∧ t.flt = s.flt ∧
      t.pins = s.pins ∧ t.mgmt = s.mgmt) ∧
    (islandState s k.val = 3 → tabFind? 427 s.flt.pairs = none →
      ∃ t : State, ∃ r : Report, exec (.bridgeSelfCheckFail k) s = .next t ∧ exec (.openingTimeout k) s = .next t ∧ islandState t k.val = 2 ∧
        tabFind? 427 t.flt.pairs = some r ∧ t = { s with od := t.od, flt := t.flt }))

/-- R77, R78, R82, R108: writes of the settings of a port: the width and the settings change only while the role is DISABLED, a role
that the port may take is taken, and anything else is refused by a status with nothing changed. R80, R81: the partner of a port
changes its width, or the sample point of a lane, while the link stays up. Of each of these commands it concludes that exec answers
the next state of its own effect: portRoleWrite, portWidthWrite, portConfigWrite, l0pWidthRequest, laneMargining. -/
def Obligations.PortSettings : Prop :=
  (∀ (p : Fin 96) (w : Byte) (s : State), role s p.val = 0 → (w.toNat = 4 ∨ w.toNat = 8 ∨ w.toNat = 16) →
    widthAllowed (p.val % 6) w.toNat = true → absorbed s p.val = false →
    (∀ q : Nat, q < p.val + w.toNat / 4 → p.val < q → role s q = 0 ∧ portWidth s q ≤ 4) →
    ∃ t : State, exec (.portWidthWrite p w) s = .next t ∧ portWidth t p.val = w.toNat ∧ t.out = s.out ++ [Out.status .ok] ∧
      (∀ i j : Nat, i < 65536 → j < 256 → j ≠ 0x10 → (i ≠ portIdx p.val ∨ j ≠ 2) → odGet t i j = odGet s i j) ∧
      t = { s with od := t.od, out := t.out }) ∧
  (∀ (p : Fin 96) (w : Byte) (s : State), role s p.val ≠ 0 → (w.toNat = 4 ∨ w.toNat = 8 ∨ w.toNat = 16) →
    exec (.portWidthWrite p w) s = .next (emit s (.status .portActive))) ∧
  (∀ (p : Fin 96) (w : Byte) (s : State), w.toNat ≠ 4 → w.toNat ≠ 8 → w.toNat ≠ 16 →
    exec (.portWidthWrite p w) s = .next (emit s (.status .outOfRange))) ∧
  (∀ (p : Fin 96) (x : PortSetting) (s : State), role s p.val = 0 → settingInRange x = true →
    (settingSub x = 5 → settingValue x = 255 ∨ ∀ q : Nat, q < 96 → q ≠ p.val → odGet s (portIdx q) 5 ≠ settingValue x) →
    ∃ t : State, exec (.portConfigWrite p x) s = .next t ∧ odGet t (portIdx p.val) (settingSub x) = settingValue x ∧
      t.out = s.out ++ [Out.status .ok] ∧
      (∀ i j : Nat, i < 65536 → j < 256 → (i ≠ portIdx p.val ∨ j ≠ settingSub x) → odGet t i j = odGet s i j) ∧
      t = { s with od := t.od, out := t.out }) ∧
  (∀ (p : Fin 96) (x : PortSetting) (s : State), role s p.val ≠ 0 → settingInRange x = true →
    exec (.portConfigWrite p x) s = .next (emit s (.status .portActive))) ∧
  (∀ (p : Fin 96) (x : PortSetting) (s : State), settingInRange x = false →
    exec (.portConfigWrite p x) s = .next (emit s (.status .outOfRange))) ∧
  (∀ (p : Fin 96) (r : Byte) (s : State), r.toNat ≤ 2 → absorbed s p.val = false →
    (r.toNat = 1 → odGet s (portIdx p.val) 4 ≤ 63 ∧
      ∀ q : Nat, q < 96 → q ≠ p.val → role s q ≠ 0 → odGet s (portIdx q) 4 ≠ odGet s (portIdx p.val) 4) →
    ∃ t : State, exec (.portRoleWrite p r) s = .next t ∧ role t p.val = r.toNat ∧ t.out.getLast? = some (.status .ok)) ∧
  (∀ (p : Fin 96) (r : Byte) (s : State), 2 < r.toNat → exec (.portRoleWrite p r) s = .next (emit s (.status .outOfRange))) ∧
  (∀ (p : Fin 96) (r : Byte) (s : State), r.toNat ≤ 2 → absorbed s p.val = true →
    exec (.portRoleWrite p r) s = .next (emit s (.status .laneConflict))) ∧
  (∀ (p : Fin 96) (q : Fin 96) (r : Byte) (s : State), r.toNat = 1 → absorbed s p.val = false → odGet s (portIdx p.val) 4 ≤ 63 → q ≠ p →
    role s q.val ≠ 0 → odGet s (portIdx q.val) 4 = odGet s (portIdx p.val) 4 →
    exec (.portRoleWrite p r) s = .next (emit s (.status .vcsTaken))) ∧
  (∀ (p : Fin 96) (w : Fin 17) (s : State), portUp s p.val = true → odGet s (portIdx p.val) 6 = 1 → partnerL0p s p.val = true →
    w.val ∈ [1, 2, 4, 8, 16] → odGet s (portIdx p.val) 7 ≤ w.val → w.val ≤ odGet s (portIdx p.val) 0x11 →
    ∃ t : State, exec (.l0pWidthRequest p w) s = .next t ∧ odGet t (portIdx p.val) 0x16 = w.val ∧
      counter t (8 * p.val + 6) =
        counter s (8 * p.val + 6) + (if odGet s (portIdx p.val) 0x16 = w.val then 0 else 1) ∧
      (∀ i j : Nat, i < 65536 → j < 256 → (i ≠ portIdx p.val ∨ j ≠ 0x16) → odGet t i j = odGet s i j) ∧
      t = { s with od := t.od, perf := t.perf }) ∧
  (∀ (p : Fin 96) (w : Fin 17) (s : State), odGet s (portIdx p.val) 6 ≠ 1 ∨ partnerL0p s p.val = false ∨ portUp s p.val = false →
    exec (.l0pWidthRequest p w) s = .next s) ∧
  (∀ (p : Fin 96) (l : Fin 16) (b : Bool) (n : Int) (s : State), portUp s p.val = true → l.val < odGet s (portIdx p.val) 0x11 →
    n.natAbs ≤ (if b then 20 else 32) →
    ∃ t : State, exec (.laneMargining p l b n) s = .next t ∧
      (if b then (tabGet (0, 0, 0) (p.val * 16 + l.val) t.port.margin).1 = n
       else (tabGet (0, 0, 0) (p.val * 16 + l.val) t.port.margin).2.1 = n) ∧
      (tabGet (0, 0, 0) (p.val * 16 + l.val) t.port.margin).2.2 ≤ 63 ∧
      (∀ k : Nat, k ≠ p.val * 16 + l.val → tabGet (0, 0, 0) k t.port.margin = tabGet (0, 0, 0) k s.port.margin) ∧
      t = { s with fresh := t.fresh, port := { s.port with margin := t.port.margin } })

/-- R79, R83, R107, R502: what training finds, and what starts it again. Of each of these commands it concludes that exec answers the
next state of its own effect: portTrained, upstreamTrainingRetry, poolLdLost, perstRelease. -/
def Obligations.PortTraining : Prop :=
  (∀ (p : Fin 96) (x : LinkPartner) (w : Nat) (s : State), odGet s (portIdx p.val) 0x10 = 1 → p.val ∉ s.port.retry → x.kind ≠ 0 →
    compatible s p.val x = true → trainedWidth s p.val x = some w →
    ∃ t : State, exec (.portTrained p x) s = .next t ∧ portUp t p.val = true ∧ odGet t (portIdx p.val) 0x11 = w ∧
      odGet t (portIdx p.val) 0x12 = trainedSpeed s p.val x ∧ odGet t (portIdx p.val) 0x13 = x.flit.val ∧
      odGet t (portIdx p.val) 0x14 = x.kind.val ∧ odGet t (portIdx p.val) 0x15 = ldCount x ∧ odGet t (portIdx p.val) 0x16 = w) ∧
  (∀ (p : Fin 96) (x : LinkPartner) (s : State), portUp s p.val = true →
    ∃ t : State, exec (.portTrained p x) s = .next t ∧ p.val ∉ t.port.recovering ∧
      t = { s with port := { s.port with recovering := t.port.recovering } }) ∧
  (∀ (p : Fin 96) (x : LinkPartner) (s : State), odGet s (portIdx p.val) 0x10 = 1 → p.val ∉ s.port.retry → x.kind ≠ 0 →
    compatible s p.val x = false →
    ∃ t : State, exec (.portTrained p x) s = .next t ∧ odGet t (portIdx p.val) 0x14 = 5 ∧ odGet t (portIdx p.val) 0x10 = 1 ∧
      (role s p.val = 1 → p.val ∈ t.port.retry) ∧ t = { s with od := t.od, flt := t.flt, port := t.port }) ∧
  (∀ (p : Fin 96) (s : State), p.val ∈ s.port.retry →
    ∃ t : State, exec (.upstreamTrainingRetry p) s = .next t ∧ p.val ∉ t.port.retry ∧
      (mayTrain s p.val = true → role s p.val = 1 → refStable s p.val = true → odGet t (portIdx p.val) 0x10 = 1) ∧
      t = { s with od := t.od, port := t.port }) ∧
  (∀ (p : Fin 96) (s : State), p.val ∈ s.port.perstWait → refStable s p.val = true → mayTrain s p.val = true →
    ∃ t : State, exec (.perstRelease p) s = .next t ∧ odGet t (portIdx p.val) 0x10 = 1 ∧ p.val ∉ t.pins.perstLow ∧
      p.val ∉ t.port.perstWait ∧ (∀ q : Nat, q ≠ p.val → (q ∈ t.pins.perstLow ↔ q ∈ s.pins.perstLow)) ∧
      t = { s with od := t.od, port := { s.port with perstWait := t.port.perstWait }, pins := { s.pins with perstLow := t.pins.perstLow } }) ∧
  (∀ (p : Fin 96) (m : BitVec 16) (s : State), poolPort s p.val = true → portUp s p.val = true →
    m &&& BitVec.ofNat 16 (odGet s (portIdx p.val) 8) &&& ~~~ (tabGet 0 p.val s.port.lost) ≠ 0 →
    ∃ t : State, exec (.poolLdLost p m) s = .next t ∧
      tabGet 0 p.val t.port.lost = tabGet 0 p.val s.port.lost ||| (m &&& BitVec.ofNat 16 (odGet s (portIdx p.val) 8)) ∧
      (p.val, m &&& BitVec.ofNat 16 (odGet s (portIdx p.val) 8) &&& ~~~ (tabGet 0 p.val s.port.lost), 0) ∈ t.port.sweeps ∧
      t.od = s.od ∧ t.mgmt = s.mgmt)

/-- R105, R125, R459: a link that goes down ends the IDE streams of its port; PERST_N of an upstream port is held until it deasserts,
when the VCS of a port whose link is in L0 becomes ACTIVE; and the enable of a VCS switches it. R105, R106: the resets of a device:
a bound vPPB's bridge sends a hot reset, which takes the link down unless the device has several logical devices; a command of a
port that is not DOWNSTREAM, is absorbed or has no OPEN island is refused. Of each of these commands it concludes that exec answers
the next state of its own effect: vcsEnableWrite, perstAssert, vcsResetRelease, portDown, secondaryBusReset, portHotReset,
portFundamentalReset, portRetrain, portCxlReset. -/
def Obligations.PortDownAndDeviceResets : Prop :=
  (∀ (p : Fin 96) (s : State), portUp s p.val = true →
    ∃ t : State, exec (.portDown p) s = .next t ∧ t.sec = { s.sec with ide := tabDel p.val s.sec.ide } ∧ t.pins = s.pins ∧ t.mgmt = s.mgmt) ∧
  (∀ (p : Fin 96) (s : State), role s p.val = 1 → absorbed s p.val = false → p.val ∉ s.pins.perstIn →
    ∃ t : State, exec (.perstAssert p false) s = .next t ∧ p.val ∈ t.pins.perstIn ∧ t.pins = { s.pins with perstIn := t.pins.perstIn } ∧
      t.mgmt = s.mgmt) ∧
  (∀ (p : Fin 96) (v : Nat) (s : State), vcsOfPort s p.val = some v → portUp s p.val = true →
    (odGet s (0x2200 + v) 3 = 1 ∨ odGet s (0x2200 + v) 3 = 3) →
    ∃ t : State, exec (.vcsResetRelease p) s = .next t ∧ p.val ∉ t.pins.perstIn ∧ odGet t (0x2200 + v) 3 = 2 ∧
      t = { s with od := t.od, pins := { s.pins with perstIn := t.pins.perstIn }, port := t.port }) ∧
  (∀ (v : Fin 64) (s : State), ∃ t : State, exec (.vcsEnableWrite v false) s = .next t ∧ odGet t (0x2200 + v.val) 3 = 0 ∧
      t.out.getLast? = some (.status .ok)) ∧
  (∀ (v : Fin 64) (s : State), odGet s (0x2200 + v.val) 3 = 0 → upstreamPort s v.val = none →
    ∃ t : State, exec (.vcsEnableWrite v true) s = .next t ∧ odGet t (0x2200 + v.val) 1 = 1 ∧ odGet t (0x2200 + v.val) 3 = 1 ∧
      t.out = s.out ++ [Out.status .ok] ∧ t = { s with od := t.od, out := t.out }) ∧
  (∀ (v : Fin 64) (d : Fin 32) (s : State), (vppb s v.val d.val).state = .bound →
    odGet s (portIdx (vppb s v.val d.val).port) 0x14 = 4 →
    exec (.secondaryBusReset v d) s = .next (emit s (.deviceReset (vppb s v.val d.val).port 1))) ∧
  (∀ (v : Fin 64) (d : Fin 32) (s : State), (vppb s v.val d.val).state = .bound →
    odGet s (portIdx (vppb s v.val d.val).port) 0x14 ≠ 4 → portUp s (vppb s v.val d.val).port = true →
    ∃ t : State, exec (.secondaryBusReset v d) s = .next t ∧
      t.sec = { s.sec with ide := tabDel (vppb s v.val d.val).port s.sec.ide } ∧ t.pins = s.pins ∧ t.mgmt = s.mgmt) ∧
  (∀ (v : Fin 64) (d : Fin 32) (s : State), (vppb s v.val d.val).state ≠ .bound → exec (.secondaryBusReset v d) s = .next s) ∧
  (∀ (p : Fin 96) (s : State), commandRefused s p.val = false → portUp s p.val = true →
    (∃ t : State, exec (.portHotReset p) s = .next t ∧ t.sec = { s.sec with ide := tabDel p.val s.sec.ide } ∧ t.pins = s.pins ∧
      t.out.getLast? = some (.status .ok)) ∧
    (∃ t : State, exec (.portCxlReset p) s = .next t ∧ t.sec = { s.sec with ide := tabDel p.val s.sec.ide } ∧ t.pins = s.pins ∧
      t.out.getLast? = some (.status .ok)) ∧
    (∃ t : State, exec (.portFundamentalReset p) s = .next t ∧ t.sec = { s.sec with ide := tabDel p.val s.sec.ide } ∧
      p.val ∈ t.pins.perstLow ∧ (∀ q : Nat, q ≠ p.val → (q ∈ t.pins.perstLow ↔ q ∈ s.pins.perstLow)) ∧
      t.out.getLast? = some (.status .ok)) ∧
    (∃ t : State, exec (.portRetrain p) s = .next t ∧ p.val ∈ t.port.recovering ∧
      counter t (8 * p.val + 7) = counter s (8 * p.val + 7) + 1 ∧
      t.out = s.out ++ [Out.deviceReset p.val 3, .status .ok] ∧
      t = { s with port := { s.port with recovering := t.port.recovering }, perf := t.perf, out := t.out })) ∧
  (∀ (p : Fin 96) (s : State), commandRefused s p.val = true →
    exec (.portHotReset p) s = .next (emit s (.status .wrongState)) ∧
    exec (.portFundamentalReset p) s = .next (emit s (.status .wrongState)) ∧
    exec (.portRetrain p) s = .next (emit s (.status .wrongState)) ∧
    exec (.portCxlReset p) s = .next (emit s (.status .wrongState)))

/-- R88, R89, R101: the binding commands of a vPPB of a device number 2 to 31: a bind that R88 allows makes it BINDING, the link of its
partner BOUND; an unbind makes it UNBINDING, or, as a surprise removal, UNBOUND at once, as the end of a managed removal's 30 s
does. Of each of these commands it concludes that exec answers the next state of its own effect: bindVppb, unbindVppb,
vppbPartnerL0, managedRemoveTimeout. -/
def Obligations.Bindings : Prop :=
  (∀ (src : FmSource) (v : Fin 64) (d : Fin 32) (p : Fin 96) (l : Fin 16) (s : State), 2 ≤ d.val →
    (vppb s v.val d.val).state = .unbound → mayBind s p.val l.val = true →
    ∃ t : State, exec (.bindVppb src v d p l) s = .next t ∧
      vppb t v.val d.val = { vppb s v.val d.val with
        state := .binding, port := p.val, ld := l.val, presence := partnerPresent s p.val, asker := askerOf src } ∧
      odGet t (0x2400 + v.val) (d.val + 1) = 2 ^ 14 + p.val * 16 + l.val ∧
      (∀ w e : Nat, w < 64 → e < 32 → (w ≠ v.val ∨ e ≠ d.val) → vppb t w e = vppb s w e) ∧
      t.out = s.out ++ [if src = .fmapi then .fmapi .started [] else .status .ok] ∧
      t = { s with od := t.od, spr := t.spr, port := t.port, out := t.out }) ∧
  (∀ (src : FmSource) (v : Fin 64) (d : Fin 32) (p : Fin 96) (l : Fin 16) (s : State),
    d.val < 2 ∨ (vppb s v.val d.val).state = .bound ∨
      ((vppb s v.val d.val).state = .unbound ∧ mayBind s p.val l.val = false) →
    ∃ t : State, exec (.bindVppb src v d p l) s = .next t ∧ t.out = s.out ++ [if src = .fmapi then .fmapi .invalidInput [] else .status .wrongState] ∧
      t = { s with spr := t.spr, out := t.out }) ∧
  (∀ (v : Fin 64) (d : Fin 32) (s : State), (vppb s v.val d.val).state = .binding → portUp s (vppb s v.val d.val).port = true →
    ∃ t : State, exec (.vppbPartnerL0 v d) s = .next t ∧
      vppb t v.val d.val = { vppb s v.val d.val with
        state := .bound, presence := partnerPresent s (vppb s v.val d.val).port, presenceChanged := true, linkChanged := true } ∧
      t.out = s.out ++ (if (vppb s v.val d.val).hotplugOn = true then [Out.hotplug v.val d.val] else []) ∧ t.mgmt = s.mgmt) ∧
  (∀ (src : FmSource) (v : Fin 64) (d : Fin 32) (o : Fin 3) (s : State), 2 ≤ d.val → o.val ≠ 2 →
    (vppb s v.val d.val).state = .bound →
    ∃ t : State, exec (.unbindVppb src v d o) s = .next t ∧
      vppb t v.val d.val = { vppb s v.val d.val with
        state := .unbinding, option := o.val, attention := decide (o.val = 1), asker := askerOf src } ∧
      t.out = s.out ++ (if o.val = 1 ∧ (vppb s v.val d.val).hotplugOn = true then [Out.hotplug v.val d.val] else []) ++
        [if src = .fmapi then .fmapi .started [] else .status .ok] ∧
      t = { s with od := t.od, spr := t.spr, port := t.port, out := t.out }) ∧
  (∀ (src : FmSource) (v : Fin 64) (d : Fin 32) (o : Fin 3) (s : State), 2 ≤ d.val → o.val = 2 →
    (vppb s v.val d.val).state = .bound →
    ∃ t : State, exec (.unbindVppb src v d o) s = .next t ∧ (vppb t v.val d.val).state = .unbound ∧ (vppb t v.val d.val).port = 0 ∧
      odGet t (0x2400 + v.val) (d.val + 1) = 0 ∧
      t.out.getLast? = some (if src = .fmapi then .fmapi .success [] else .status .ok)) ∧
  (∀ (v : Fin 64) (d : Fin 32) (s : State), (vppb s v.val d.val).state = .unbinding → (vppb s v.val d.val).option = 1 →
    ∃ t : State, exec (.managedRemoveTimeout v d) s = .next t ∧ (vppb t v.val d.val).state = .unbound ∧ (vppb t v.val d.val).port = 0 ∧
      odGet t (0x2400 + v.val) (d.val + 1) = 0)

/-- R97, R100, R101: the commands of the FM-API that only report answer with what the state holds, and change nothing else. R97, R100:
the commands of the FM-API that set something set exactly that, and refuse a value or an object that is out of range. R83, R100,
R106, R107: the commands of the FM-API that reach a device: Physical Port Control drives PERST_N of a port that a port command may
act on, and a tunnelled command or a request to an LD goes out only on the link of a multi-logical device. Of each of these commands
it concludes that exec answers the next state of its own effect: identify, backgroundOperationStatus, getResponseMessageLimit,
identifySwitchDevice, getPhysicalPortState, getVirtualCxlSwitchInfo, getDcdInfo, getHostDcRegionConfiguration,
getDcRegionExtentLists, fmapiUnsupported, setResponseMessageLimit, sendPpbCxlioConfigRequest, generateAerEvent,
setDcRegionConfiguration, physicalPortControl, tunnelManagementCommand, sendLdCxlioConfigRequest, sendLdCxlioMemoryRequest. -/
def Obligations.FmApiReportsAndSettings : Prop :=
  (∀ s : State,
    (∃ vals : List Nat, exec .identify s = .next (emit s (.fmapi .success (odGet s 0x1000 7 :: vals))) ∧ vals.length = 33) ∧
    exec .backgroundOperationStatus s = .next (emit s (.fmapi .success (s.port.bgOps.flatMap fun q => [q.1, q.2.1, q.2.2]))) ∧
    exec .getResponseMessageLimit s = .next (emit s (.fmapi .success [s.port.respLimit])) ∧
    (∃ (ups act : Nat),
      exec .identifySwitchDevice s = .next (emit s (.fmapi .success
        [96, 64, ups, act, 2048, (s.port.binds.filter fun b => decide (b.2.state ≠ .unbound)).length, 32])) ∧
      (∀ p : Nat, p < 96 → (ups.testBit p = true ↔ portUp s p = true)) ∧
      (∀ v : Nat, v < 64 → (act.testBit v = true ↔ odGet s (0x2200 + v) 3 = 2))) ∧
    (∀ ps : List (Fin 96), ∃ vals : List Nat, exec (.getPhysicalPortState ps) s = .next (emit s (.fmapi .success vals)) ∧
      vals.length = 10 * min (respItems s 16 16) ps.length ∧
      (∀ k : Nat, (h : k < ps.length) → k < respItems s 16 16 → vals[10 * k]? = some (ps[k].val) ∧ vals[10 * k + 1]? = some (role s ps[k].val) ∧
        ∀ i : Nat, i < 8 → vals[10 * k + 2 + i]? = some (odGet s (portIdx ps[k].val) (0x10 + i)))) ∧
    (∀ v : Fin 64, exec (.getVirtualCxlSwitchInfo v) s = .next (emit s (.fmapi .success
      ([v.val, odGet s (0x2200 + v.val) 3, ((upstreamPort s v.val).filter fun p => decide (vcsOfPort s p = some v.val)).getD 0xFF, 32] ++
        (List.range (min 30 (respItems s 16 4))).map fun i => (vppb s v.val (i + 2)).shown)))) ∧
    exec .getDcdInfo s = .next (emit s (.fmapi .success [64, 8, 2 ^ 21, 4096])) ∧
    (∀ v : Fin 64, exec (.getHostDcRegionConfiguration v) s = .next (emit s (.fmapi .success
      ((List.range 8).flatMap fun r => [odGet s (0x2500 + v.val) (r + 1), odGet s (0x2540 + v.val) (r + 1)])))) ∧
    (∀ (v : Fin 64) (a n : BitVec 16), ∃ l : List Extent, l = ((extents s v.val).drop a.toNat).take (min n.toNat (respItems s 20 40)) ∧
      exec (.getDcRegionExtentLists v a n) s = .next (emit s (.fmapi .success
        ((extents s v.val).length :: l.flatMap fun e => [e.region, e.base, e.len, e.state.code])))) ∧
    (∀ c : BitVec 16, exec (.fmapiUnsupported c) s = .next (emit s (.fmapi .unsupported [c.toNat])))) ∧
  (∀ (n : Byte) (s : State), 8 ≤ n.toNat → n.toNat ≤ 20 →
    ∃ t : State, exec (.setResponseMessageLimit n) s = .next t ∧ t.port.respLimit = n.toNat ∧ t.out = s.out ++ [Out.fmapi .success [n.toNat]] ∧
      t = { s with port := { s.port with respLimit := t.port.respLimit }, out := t.out }) ∧
  (∀ (n : Byte) (s : State), n.toNat < 8 ∨ 20 < n.toNat →
    exec (.setResponseMessageLimit n) s = .next (emit s (.fmapi .invalidInput []))) ∧
  (∀ (p : Fin 96) (r : Fin 1024) (x : BitVec 32) (s : State),
    ∃ t : State, exec (.sendPpbCxlioConfigRequest p r (some x)) s = .next t ∧ t.out = s.out ++ [Out.fmapi .success []] ∧
      (∀ m : Shown, m = (if (shownMps r.val).mask = 0 then shownMargin s p.val r.val else shownMps r.val) →
        exec (.sendPpbCxlioConfigRequest p r none) t =
          .next (emit t (.fmapi .success [leValue (leBytes 4 ((x.toNat &&& (2 ^ 32 - 1 - m.mask)) ||| m.value))]))) ∧
      (∀ sp reg : Nat, reg < 1024 → (sp ≠ p.val ∨ reg ≠ r.val) → cfgReg t sp reg = cfgReg s sp reg) ∧
      t = { s with port := { s.port with cfgRegs := t.port.cfgRegs }, out := t.out }) ∧
  (∀ (v : Fin 64) (d : Fin 32) (x : BitVec 32) (s : State), (vppb s v.val d.val).state = .bound →
    ∃ t : State, exec (.generateAerEvent v d x) s = .next t ∧ (vppb t v.val d.val).aer.injected = x.toNat ∧
      t.out = s.out ++ [Out.fmapi .success []] ∧ t = { s with port := { s.port with binds := t.port.binds }, out := t.out }) ∧
  (∀ (v : Fin 64) (d : Fin 32) (x : BitVec 32) (s : State), (vppb s v.val d.val).state ≠ .bound →
    exec (.generateAerEvent v d x) s = .next (emit s (.fmapi .invalidInput []))) ∧
  (∀ (v : Fin 64) (r : Fin 8) (b n : BitVec 64) (s : State), b.toNat % 2 ^ 21 = 0 → b.toNat < 2 ^ 58 → n.toNat % 2 ^ 21 = 0 →
    ∃ t : State, exec (.setDcRegionConfiguration v r b n) s = .next t ∧ regionBase t v.val r.val = b.toNat ∧
      regionLen t v.val r.val = n.toNat ∧ t.out = s.out ++ [Out.fmapi .success []] ∧
      (∀ i j : Nat, i < 65536 → j < 256 → (j ≠ r.val + 1 ∨ (i ≠ 0x2500 + v.val ∧ i ≠ 0x2540 + v.val)) → odGet t i j = odGet s i j) ∧
      t = { s with od := t.od, out := t.out }) ∧
  (∀ (v : Fin 64) (r : Fin 8) (b n : BitVec 64) (s : State),
    b.toNat % 2 ^ 21 ≠ 0 ∨ 2 ^ 58 ≤ b.toNat ∨ n.toNat % 2 ^ 21 ≠ 0 →
    exec (.setDcRegionConfiguration v r b n) s = .next (emit s (.fmapi .invalidInput []))) ∧
  (∀ (p : Fin 96) (s : State), commandRefused s p.val = false →
    ∃ t : State, exec (.physicalPortControl p 0) s = .next t ∧ p.val ∈ t.pins.perstLow ∧ p.val ∉ t.port.perstWait ∧
      (∀ q : Nat, q ≠ p.val → (q ∈ t.pins.perstLow ↔ q ∈ s.pins.perstLow)) ∧ t.out.getLast? = some (.fmapi .success [])) ∧
  (∀ (p : Fin 96) (s : State), commandRefused s p.val = false → p.val ∈ s.pins.perstLow → mayTrain s p.val = true →
    slotReady s p.val = true →
    ∃ t : State, exec (.physicalPortControl p 1) s = .next t ∧ p.val ∈ t.port.perstWait ∧ t.out = s.out ++ [Out.fmapi .success []] ∧
      t = { s with port := { s.port with perstWait := t.port.perstWait }, out := t.out }) ∧
  (∀ (p : Fin 96) (o : Fin 3) (s : State), commandRefused s p.val = true →
    exec (.physicalPortControl p o) s = .next (emit s (.fmapi .invalidInput []))) ∧
  (∀ (p : Fin 96) (b : List Byte) (s : State), mldPort s p.val = true → bindsOf s p.val = [] →
    exec (.tunnelManagementCommand p b) s = .next (emit (drawn (emit s (.tunnel p.val b))) (.fmapi .success [(freshVal s).toNat]))) ∧
  (∀ (p : Fin 96) (b : List Byte) (s : State), mldPort s p.val = false ∨ bindsOf s p.val ≠ [] →
    exec (.tunnelManagementCommand p b) s = .next (emit s (.fmapi .invalidInput []))) ∧
  (∀ (p : Fin 96) (l : Fin 16) (a : FmAccess) (s : State), mldPort s p.val = true → l.val < odGet s (portIdx p.val) 0x15 →
    (∀ n ∈ s.port.np, n.fromPort ≠ 97) →
    ∃ t : State, ∃ r : NonPosted, exec (.sendLdCxlioConfigRequest p l a) s = .next t ∧ t.port.np = s.port.np ++ [r] ∧ r.fromPort = 97 ∧ r.toPort = p.val ∧
      r.sent = true ∧ r.tlp.ld = l.val ∧ (r.tlp.kind = .cfgRead ∨ r.tlp.kind = .cfgWrite) ∧
      t = { s with fab := t.fab, swc := t.swc, port := t.port }) ∧
  (∀ (p : Fin 96) (l : Fin 16) (a : BitVec 64) (n : Nat) (s : State), mldPort s p.val = true → l.val < odGet s (portIdx p.val) 0x15 →
    (∀ n ∈ s.port.np, n.fromPort ≠ 97) →
    ∃ t : State, ∃ r : NonPosted, exec (.sendLdCxlioMemoryRequest p l (.read a n)) s = .next t ∧ t.port.np = s.port.np ++ [r] ∧ r.fromPort = 97 ∧
      r.toPort = p.val ∧ r.tlp.ld = l.val ∧ r.tlp.kind = .memRead ∧ r.tlp.len = n ∧
      t = { s with fab := t.fab, swc := t.swc, port := t.port }) ∧
  (∀ (p : Fin 96) (l : Fin 16) (a : BitVec 64) (d : List Byte) (s : State), mldPort s p.val = true →
    l.val < odGet s (portIdx p.val) 0x15 → (∀ n ∈ s.port.np, n.fromPort ≠ 97) →
    ∃ t : State, exec (.sendLdCxlioMemoryRequest p l (.write a d)) s = .next t ∧ t.port = s.port ∧
      t.out = s.out ++ [Out.fmapi .success []] ∧ t = { s with fab := t.fab, swc := t.swc, out := t.out }) ∧
  (∀ (p : Fin 96) (l : Fin 16) (a : FmAccess) (s : State), mldPort s p.val = false ∨ odGet s (portIdx p.val) 0x15 ≤ l.val →
    exec (.sendLdCxlioConfigRequest p l a) s = .next (emit s (.fmapi .invalidInput [])) ∧
    exec (.sendLdCxlioMemoryRequest p l a) s = .next (emit s (.fmapi .invalidInput [])))

/-- R18, R25, R33, R87: a port in L0 counts every flit and puts a message of its protocol into its ingress pair, if there is room; the
first packet of a pair is routed: a host's read of a device's window goes to the device and is recorded until it is answered, a
request that no target takes is answered Unsupported Request, and a completion that nothing waits for is discarded. Of each of these
commands it concludes that exec answers the next state of its own effect: parseIngress, cxlioRoute. -/
def Obligations.IngressAndRoute : Prop :=
  (∀ (p : Fin 96) (s : State), portUp s p.val = true → exec (.parseIngress p []) s = .next (bump s (8 * p.val) 1)) ∧
  (∀ (p : Fin 96) (m : PortMsg) (vn : Vn) (s : State), portUp s p.val = true → (∀ t : Tlp, m ≠ .tlp t) → ideBlocks s p.val = false →
    parseVn (hostOfPort s p.val).isSome (poolPort s p.val) m = some vn → ingressRoom s p.val vn m = true →
    ∃ t : State, exec (.parseIngress p [m]) s = .next t ∧
      ingress t p.val vn = ingress s p.val vn ++ [{ msg := m, since := s.time.clock }] ∧ t.out = s.out ∧ t.mgmt = s.mgmt) ∧
  (∀ (p : Fin 96) (ms : List PortMsg) (s : State), portUp s p.val = false → exec (.parseIngress p ms) s = .next s) ∧
  (∀ (p : Fin 96) (vn : Vn) (t : Tlp) (z v d : Nat) (rest : List InMsg) (s : State), vnIsIo vn = true →
    bridgeOpen s (p.val / 6) vn = true → ingress s p.val vn = { msg := .tlp t, since := z } :: rest → t.kind = .memRead → s.flt.safe = false →
    hostOfPort s p.val = some v → odGet s (0x2200 + v) 1 = 1 → ioTarget s v none t.addr.toNat = .device d →
    ∃ (r : State) (x : NonPosted), exec (.cxlioRoute p vn) s = .next r ∧ ingress r p.val vn = rest ∧ r.port.np = s.port.np ++ [x] ∧
      x.vcs = v ∧ x.fromPort = p.val ∧ x.toPort = (vppb s v d).port ∧ x.tlp = t ∧ x.sent = false ∧
      r = { s with fab := r.fab, swc := r.swc, port := { s.port with np := r.port.np } }) ∧
  (∀ (p : Fin 96) (vn : Vn) (t : Tlp) (z v : Nat) (rest : List InMsg) (s : State), vnIsIo vn = true →
    bridgeOpen s (p.val / 6) vn = true → ingress s p.val vn = { msg := .tlp t, since := z } :: rest → t.kind = .memRead → s.flt.safe = false →
    hostOfPort s p.val = some v → odGet s (0x2200 + v) 1 = 1 → ioTarget s v none t.addr.toNat = .nowhere →
    ∃ (r : State) (e : EgUnit), exec (.cxlioRoute p vn) s = .next r ∧ ingress r p.val vn = rest ∧
      egress r p.val .ioc = egress s p.val .ioc ++ [e] ∧ e.msg = some (.tlp (completionOf t 1 [])) ∧
      r = { s with fab := r.fab, swc := r.swc }) ∧
  (∀ (p : Fin 96) (vn : Vn) (t : Tlp) (z : Nat) (rest : List InMsg) (s : State), vnIsIo vn = true →
    bridgeOpen s (p.val / 6) vn = true → ingress s p.val vn = { msg := .tlp t, since := z } :: rest → (tlpType t.kind).1 = .ioc → (∀ n ∈ s.port.np, n.toPort ≠ p.val) →
    ∃ r : State, exec (.cxlioRoute p vn) s = .next r ∧ ingress r p.val vn = rest ∧ r = { s with swc := r.swc })

/-- R93, R96: a host's commit of a decoder whose registers are in order commits it, and one out of order sets Error Not Committed; a
committed decoder keeps its registers until it is uncommitted, and its pool window is then refused. Of each of these commands it
concludes that exec answers the next state of its own effect: hdmDecoderCommit, decoderPoolWindowWrite. -/
def Obligations.HdmDecoders : Prop :=
  (∀ (v : Fin 64) (i : Fin 32) (b n : BitVec 24) (w : Fin 5) (g : Fin 7) (s : State), odGet s (0x2200 + v.val) 1 ≠ 0 →
    (decoder s v.val i.val).committed = false →
    ∃ t : State, exec (.hdmDecoderCommit v i b n w g true) s = .next t ∧
      decoder t v.val i.val = {
        base := b.toNat * 2 ^ 28, size := n.toNat * 2 ^ 28, ways := w.val, gran := g.val + 8,
        committed := commitOk s v.val i.val (b.toNat * 2 ^ 28) (n.toNat * 2 ^ 28) w.val,
        error := !commitOk s v.val i.val (b.toNat * 2 ^ 28) (n.toNat * 2 ^ 28) w.val } ∧
      (∀ x j : Nat, x < 64 → j < 32 → (x ≠ v.val ∨ j ≠ i.val) → decoder t x j = decoder s x j) ∧
      t = { s with port := { s.port with dec := t.port.dec } }) ∧
  (∀ (v : Fin 64) (i : Fin 32) (b n : BitVec 24) (w : Fin 5) (g : Fin 7) (s : State), odGet s (0x2200 + v.val) 1 ≠ 0 →
    (decoder s v.val i.val).committed = true → exec (.hdmDecoderCommit v i b n w g true) s = .next s) ∧
  (∀ (v : Fin 64) (i : Fin 32) (b n : BitVec 24) (w : Fin 5) (g : Fin 7) (s : State), odGet s (0x2200 + v.val) 1 ≠ 0 →
    ∃ t : State, exec (.hdmDecoderCommit v i b n w g false) s = .next t ∧
      decoder t v.val i.val = { decoder s v.val i.val with committed := false, error := false } ∧
      t = { s with port := { s.port with dec := t.port.dec } }) ∧
  (∀ (v : Fin 64) (i : Fin 32) (len : Bool) (x : BitVec 64) (s : State), x.toNat % 2 ^ 21 = 0 → (len = false → x.toNat < 2 ^ 58) →
    (decoder s v.val i.val).committed = false →
    ∃ t : State, exec (.decoderPoolWindowWrite v i len x) s = .next t ∧
      odGet t ((if len then 0x2340 else 0x2300) + v.val) (i.val + 1) = x.toNat ∧ t.out = s.out ++ [Out.status .ok] ∧
      (∀ a j : Nat, a < 65536 → j < 256 → (a ≠ (if len then 0x2340 else 0x2300) + v.val ∨ j ≠ i.val + 1) → odGet t a j = odGet s a j) ∧
      t = { s with od := t.od, out := t.out }) ∧
  (∀ (v : Fin 64) (i : Fin 32) (len : Bool) (x : BitVec 64) (s : State), x.toNat % 2 ^ 21 ≠ 0 →
    exec (.decoderPoolWindowWrite v i len x) s = .next (emit s (.status .outOfRange)))

/-- R97 to R99: dynamic capacity: an add that fits offers its extents, the host's response accepts those that it lists and drops the
others, a release makes an accepted extent RELEASING, and an extent whose walk is over and to which nothing is outstanding is
removed. Of each of these commands it concludes that exec answers the next state of its own effect: initiateDynamicCapacityAdd,
addDcResponse, releaseDynamicCapacity, initiateDynamicCapacityRelease, extentRemoved. -/
def Obligations.DynamicCapacity : Prop :=
  (∀ (v : Fin 64) (xs : List DcPart) (m : List Extent) (s : State),
    (extents s v.val).length + xs.length ≤ odGet s (0x2200 + v.val) 4 → xs ≠ [] →
    offerAll s v.val xs (extents s v.val) = some m →
    ∃ t : State, exec (.initiateDynamicCapacityAdd v xs) s = .next t ∧ extents t v.val = m ∧
      (extents t v.val).length = (extents s v.val).length + xs.length ∧
      (∀ w : Nat, w ≠ v.val → extents t w = extents s w) ∧ t.out.getLast? = some (.fmapi .success []) ∧
      t = { s with od := t.od, port := { s.port with ext := t.port.ext }, out := t.out }) ∧
  (∀ (v : Fin 64) (xs : List DcPart) (s : State), odGet s (0x2200 + v.val) 4 < (extents s v.val).length + xs.length →
    exec (.initiateDynamicCapacityAdd v xs) s = .next (emit s (.fmapi .invalidInput []))) ∧
  (∀ (v : Fin 64) (bs : List (BitVec 64)) (s : State),
    ∃ t : State, exec (.addDcResponse v bs) s = .next t ∧
      (∀ e ∈ extents t v.val, e.state ≠ .offered) ∧
      (∀ e ∈ extents s v.val, e.state = .offered → (∃ b ∈ bs, b.toNat = e.base) → { e with state := .accepted } ∈ extents t v.val) ∧
      (∀ e ∈ extents s v.val, e.state ≠ .offered → e ∈ extents t v.val) ∧
      odGet t (0x2200 + v.val) 5 = (extents t v.val).length ∧ t.out = s.out ++ [Out.endpoint v.val true] ∧
      t = { s with od := t.od, port := { s.port with ext := t.port.ext }, out := t.out }) ∧
  (∀ (v : Fin 64) (b : BitVec 64) (e : Extent) (s : State),
    ((extents s v.val).find? fun x => decide (x.state = .accepted) && decide (x.base = b.toNat)) = some e →
    (∃ t : State, exec (.releaseDynamicCapacity v [b]) s = .next t ∧ { e with state := .releasing, forced := false } ∈ extents t v.val ∧
      t.out = s.out ++ [Out.endpoint v.val true] ∧
      t = { s with od := t.od, port := { s.port with ext := t.port.ext }, dir := { s.dir with walks := t.dir.walks }, out := t.out }) ∧
    (∃ t : State, exec (.initiateDynamicCapacityRelease v [b] true) s = .next t ∧
      { e with state := .releasing, forced := true, batch := b.toNat + 1 } ∈ extents t v.val ∧
      t.out = s.out ++ [Out.dcEvent v.val 2 e.base e.len, .fmapi .started []] ∧
      t = { s with od := t.od, port := { s.port with ext := t.port.ext, bgOps := t.port.bgOps },
                   dir := { s.dir with walks := t.dir.walks }, out := t.out }) ∧
    (∃ t : State, exec (.initiateDynamicCapacityRelease v [b] false) s = .next t ∧
      extents t v.val = (extents s v.val).map (fun x => if x = e then { x with batch := b.toNat + 1 } else x) ∧
      t.out = s.out ++ [Out.dcEvent v.val 1 e.base e.len, .fmapi .started []] ∧
      t = { s with od := t.od, port := { s.port with ext := t.port.ext, bgOps := t.port.bgOps }, out := t.out })) ∧
  (∀ (v : Fin 64) (bs : List (BitVec 64)) (s : State), acceptedAt s v.val (bs.map fun b => b.toNat) = none →
    exec (.releaseDynamicCapacity v bs) s = .next (emit s (.endpoint v.val false)) ∧
    exec (.initiateDynamicCapacityRelease v bs true) s = .next (emit s (.fmapi .invalidInput []))) ∧
  (∀ (v : Fin 64) (b : BitVec 64) (e : Extent) (s : State),
    ((extents s v.val).find? fun x => decide (x.state = .releasing) && decide (x.base = b.toNat)) = some e →
    extentQuiet s v.val e = true → extentWalked s v.val e = true →
    ∃ t : State, exec (.extentRemoved v b) s = .next t ∧ extents t v.val = (extents s v.val).filter (fun x => decide (x ≠ e)) ∧
      (∀ w : Nat, w ≠ v.val → extents t w = extents s w) ∧ t.out = s.out ∧ t.mgmt = s.mgmt)

/-- R113, R114: a commit of the staged buffer limits lowers what is lowered at once and starts the wait for the rest; a die whose pairs
hold no more than their new limits takes the raised ones, and the last die completes the commit. R132 to R137: a read of the trace
ring hands out the oldest records and moves the read index past them; a write of the read index sets it. Of each of these commands
it concludes that exec answers the next state of its own effect: bufferLimitCommit, raisedLimitsActive, traceRingRead,
traceReadIndexWrite. -/
def Obligations.BufferLimitsAndTrace : Prop :=
  (∀ s : State, s.swc.raising = [] → (∀ d : Nat, d < 4 → stagedTotal s d ≤ 262144) →
    (∀ p : Nat, p < 112 → portCounts s p = true → ∀ i : Nat, i < 16 → 9 ≤ stagedLimit s p i) →
    ∃ t : State, exec .bufferLimitCommit s = .next t ∧ odGet t 0x3010 2 = 1 ∧
      (∀ p i : Nat, p < 112 → i < 16 → activeLimit t p i = min (stagedLimit s p i) (activeLimit s p i)) ∧
      (∀ d : Nat, d < 4 → ∃ up : List (Nat × Nat), tabFind? d t.swc.raising = some up ∧
        ∀ p i : Nat, p ∈ portsOfDie d → i < 16 → activeLimit s p i < stagedLimit s p i → (p * 16 + i, stagedLimit s p i) ∈ up) ∧
      t.out = s.out ++ [Out.status .ok] ∧ t = { s with od := t.od, swc := t.swc, out := t.out }) ∧
  (∀ (p : Nat) (s : State), s.swc.raising = [] → (∀ d : Nat, d < 4 → stagedTotal s d ≤ 262144) →
    (List.range 112).find? (fun p => portCounts s p && (List.range 16).any fun i => decide (stagedLimit s p i < 9)) = some p →
    ∃ t : State, exec .bufferLimitCommit s = .next t ∧ odGet t 0x3010 2 = 4 ∧ odGet t 0x3010 4 = dieOf p ∧
      t.out = s.out ++ [Out.status .belowMinimum] ∧ t = { s with od := t.od, out := t.out }) ∧
  (∀ s : State, s.swc.raising ≠ [] → exec .bufferLimitCommit s = .next (emit (odSet s 0x3010 2 5) (.status .busy))) ∧
  (∀ (d : Nat) (s : State), s.swc.raising = [] → d < 4 → (∀ e : Nat, e < d → stagedTotal s e ≤ 262144) → 262144 < stagedTotal s d →
    ∃ t : State, exec .bufferLimitCommit s = .next t ∧ odGet t 0x3010 2 = 3 ∧ odGet t 0x3010 3 = stagedTotal s d - 262144 ∧
      odGet t 0x3010 4 = d ∧ t.out = s.out ++ [Out.status .bufferOver] ∧ t = { s with od := t.od, out := t.out }) ∧
  (∀ (d : Fin 4) (up : List (Nat × Nat)) (s : State), tabFind? d.val s.swc.raising = some up → (up.map Prod.fst).Nodup →
    dieSettled s d.val = true →
    ∃ t : State, exec (.raisedLimitsActive d) s = .next t ∧ tabFind? d.val t.swc.raising = none ∧
      (∀ q ∈ up, activeLimit t (q.1 / 16) (q.1 % 16) = q.2) ∧
      (t.swc.raising = [] → odGet t 0x3010 2 = 2) ∧ t = { s with od := t.od, swc := t.swc }) ∧
  (∀ (d : Fin 4) (s : State), tabFind? d.val s.swc.raising = none ∨ dieSettled s d.val = false →
    exec (.raisedLimitsActive d) s = .next s) ∧
  (∀ (n : Fin 65537) (r : Nat) (s : State),
    r = (if odGet s 0x3050 2 = 0 then max (odGet s 0x3050 5) (odGet s 0x3050 4 - traceCapacity s) else odGet s 0x3050 5) →
    ∃ t : State, ∃ bs : List Byte, exec (.traceRingRead n) s = .next t ∧ odGet t 0x3050 5 = r + min n.val (odGet s 0x3050 4 - r) ∧
      t.out = s.out ++ [Out.domainData .ok bs] ∧ (n.val = 0 → bs = []) ∧
      (∀ i j : Nat, i < 65536 → j < 256 → (i ≠ 0x3050 ∨ j ≠ 5) → odGet t i j = odGet s i j) ∧
      t = { s with od := t.od, flt := t.flt, fresh := t.fresh, out := t.out }) ∧
  (∀ (i : BitVec 64) (s : State),
    ∃ t : State, exec (.traceReadIndexWrite i) s = .next t ∧ odGet t 0x3050 5 = i.toNat ∧ t.out = s.out ++ [Out.status .ok] ∧
      (∀ k j : Nat, k < 65536 → j < 256 → (k ≠ 0x3050 ∨ j ≠ 5) → odGet t k j = odGet s k j) ∧ t = { s with od := t.od, out := t.out })

/-- R118, R119, R121, R123, R503: what leaves a packet buffer: the first message of a pair goes to the transmitter, a packet that waits
for its late unit goes on when that comes, and an examination takes out every unit that has reached its age limit. Of each of these
commands it concludes that exec answers the next state of its own effect: cutThroughUnitArrive, egressFlitSent, ageingExamination.
-/
def Obligations.EgressAndAgeing : Prop :=
  (∀ (p : Fin 96) (vn : Vn) (e : EgUnit) (m : LinkMsg) (rest : List EgUnit) (s : State), portUp s p.val = true →
    egress s p.val vn = e :: rest → e.msg = some m → mayLeave s p.val e = true →
    ∃ t : State, exec (.egressFlitSent p vn) s = .next t ∧ egress t p.val vn = rest ∧ t.out = s.out ++ [Out.link p.val m] ∧ t.fab = s.fab ∧
      t.mgmt = s.mgmt) ∧
  (∀ (p : Fin 96) (vn : Vn) (s : State), portUp s p.val = false → exec (.egressFlitSent p vn) s = .next s) ∧
  (∀ (p : Fin 112) (vn : Vn) (n : Nat) (s : State), tabFind? (pairKey p.val vn) s.swc.gaps = some n →
    stillToCome s (pairKey p.val vn) < n →
    ∃ t : State, exec (.cutThroughUnitArrive p vn) s = .next t ∧ tabFind? (pairKey p.val vn) t.swc.gaps = none ∧
      counter t (counterNo 0xC022 8) = counter s (counterNo 0xC022 8) + 1 ∧
      t = { s with swc := { s.swc with gaps := t.swc.gaps }, perf := t.perf }) ∧
  (∀ (n : Fin 144) (a : Fin 16) (v : Vn) (s : State),
    ∃ t : State, exec (.ageingExamination (.input n a v)) s = .next t ∧ (∀ g ∈ ejectBuf t n.val a.val v, g ∈ ejectBuf s n.val a.val v) ∧
      (∀ h ∈ ejectBuf s n.val a.val v, h.tlp = none → overAge s h = true → ∀ g ∈ ejectBuf t n.val a.val v, g.id ≠ h.id) ∧
      t.mgmt = s.mgmt) ∧
  (∀ (n : Fin 144) (a : Fin 16) (v : Vn) (s : State),
    ∃ t : State, exec (.ageingExamination (.injection n a v)) s = .next t ∧ t.mgmt = s.mgmt) ∧
  (∀ (p : Fin 112) (v : Vn) (s : State), vnAged v = true → p.val < 96 →
    ∃ t : State, exec (.ageingExamination (.ingress p v)) s = .next t ∧
      ingress t p.val v = (ingress s p.val v).filter (fun m => !lateMsg s v m) ∧ t.mgmt = s.mgmt) ∧
  (∀ (p : Fin 112) (v : Vn) (s : State), vnAged v = true → 96 ≤ p.val →
    ∃ t : State, exec (.ageingExamination (.ingress p v)) s = .next t ∧ t.mgmt = s.mgmt ∧
      ∀ h ∈ linkQueue s (p.val - 96) v, h.tlp = none → overAge s h = true → ∀ g ∈ linkQueue t (p.val - 96) v, g.id ≠ h.id) ∧
  (∀ (p : Fin 112) (v : Vn) (s : State),
    ∃ t : State, exec (.ageingExamination (.egress p v)) s = .next t ∧ t.mgmt = s.mgmt ∧
      ∀ e ∈ egress s p.val v, e.msg = none → e.h.tlp = none → overAge s e.h = true →
        ∀ f ∈ egress t p.val v, f.msg = none → f.h.id ≠ e.h.id)

/-- R150, R161, R162: the proxy of a VCS takes the first request of its host's pair into its request table under a free tag, issued
unless an eviction of the line is on its way; a request that R150 maps to nothing is answered Cmp, and a MemSpecRd is only counted.
A host's write becomes a snoop's data, a partial write or an eviction. Of each of these commands it concludes that exec answers the
next state of its own effect: proxyHostRequest, proxyHostWrite. -/
def Obligations.ProxyHostSide : Prop :=
  (∀ (v : Fin 64) (p tag kind z : Nat) (k : HostReqKind) (m : Meta) (a : BitVec 46) (t : BitVec 16) (rest : List InMsg) (s : State),
    upstreamPort s v.val = some p → ingress s p .req = { msg := .req k m a t, since := z } :: rest → mapRequest k m = some kind →
    k ≠ .memSpecRd → bridgeOpen s (p / 6) .req = true → (proxy s v.val).freeTag = some tag → (proxy s v.val).reqs.length < 512 →
    ∃ (r : State) (e : ProxyReq), exec (.proxyHostRequest v) s = .next r ∧ (proxy r v.val).reqs = (proxy s v.val).reqs ++ [e] ∧ e.tag = tag ∧
      e.kind = kind ∧ e.hpa = a ∧ e.hostTag = t ∧
      e.st = (if (proxy s v.val).evs.any (fun x => decide (x.hpa = a)) then .waiting else .issued) ∧
      ingress r p .req = rest ∧ r = { s with fab := r.fab, perf := r.perf, swc := r.swc, prox := r.prox }) ∧
  (∀ (v : Fin 64) (p z : Nat) (m : Meta) (a : BitVec 46) (t : BitVec 16) (rest : List InMsg) (s : State),
    upstreamPort s v.val = some p → ingress s p .req = { msg := .req .memSpecRd m a t, since := z } :: rest →
    bridgeOpen s (p / 6) .req = true →
    ∃ r : State, exec (.proxyHostRequest v) s = .next r ∧ ingress r p .req = rest ∧ r = { s with perf := r.perf, swc := r.swc }) ∧
  (∀ (v : Fin 64) (p z : Nat) (a : BitVec 46) (t : BitVec 16) (rest : List InMsg) (s : State),
    upstreamPort s v.val = some p → ingress s p .req = { msg := .req .memInv .s a t, since := z } :: rest → portUp s p = true →
    bridgeOpen s (p / 6) .req = true →
    ∃ (r : State) (e : EgUnit), exec (.proxyHostRequest v) s = .next r ∧ ingress r p .req = rest ∧ egress r p .rsp = egress s p .rsp ++ [e] ∧
      e.msg = some (.cmp t false) ∧ r = { s with fab := r.fab, swc := r.swc }) ∧
  (∀ (v : Fin 64) (p tag z : Nat) (m : Meta) (a : BitVec 46) (t : BitVec 16) (mask : BitVec 64) (poison : Bool) (d : LineData)
    (rest : List InMsg) (s : State), upstreamPort s v.val = some p →
    ingress s p .wb = { msg := .rwd false m a t mask poison d, since := z } :: rest →
    bridgeOpen s (p / 6) .wb = true → biSnpFor s v.val a = none →
    (proxy s v.val).freeTag = some tag → (proxy s v.val).evs.length < 256 → lineBusy (proxy s v.val) a = false →
    ∃ (r : State) (e : ProxyEvict), exec (.proxyHostWrite v) s = .next r ∧ (proxy r v.val).evs = (proxy s v.val).evs ++ [e] ∧ e.tag = tag ∧ e.hpa = a ∧
      e.hostTag = t ∧ e.keepS = decide (m = .s) ∧ e.data = d ∧ e.poison = poison ∧ ingress r p .wb = rest ∧
      r = { s with fab := r.fab, perf := r.perf, swc := r.swc, prox := r.prox }) ∧
  (∀ (v : Fin 64) (p tag z : Nat) (m : Meta) (a : BitVec 46) (t : BitVec 16) (mask : BitVec 64) (poison : Bool) (d : LineData)
    (rest : List InMsg) (s : State), upstreamPort s v.val = some p →
    ingress s p .wb = { msg := .rwd true m a t mask poison d, since := z } :: rest → (proxy s v.val).freeTag = some tag →
    (proxy s v.val).wrs.length < 128 → bridgeOpen s (p / 6) .wb = true →
    ∃ (r : State) (e : ProxyWrite), exec (.proxyHostWrite v) s = .next r ∧ (proxy r v.val).wrs = (proxy s v.val).wrs ++ [e] ∧ e.tag = tag ∧ e.hpa = a ∧
      e.hostTag = t ∧ e.mask = mask ∧ e.full = false ∧ e.data = d ∧ ingress r p .wb = rest ∧
      r = { s with fab := r.fab, perf := r.perf, swc := r.swc, prox := r.prox })

/-- R161, R164, R165: the proxy takes a snoop into its table, holding it while a request of its own for the line is outstanding and
passing it to the host otherwise; the host's BIRsp ends it, and a BIConflict is acknowledged behind every response already sent. Of
each of these commands it concludes that exec answers the next state of its own effect: proxySnoop, proxyBirsp, biconflict. -/
def Obligations.ProxySnoops : Prop :=
  (∀ (v : Fin 64) (p : Nat) (h : Held) (s : State), upstreamPort s v.val = some p → egressHead s p .snp = some h →
    (proxy s v.val).snps.length < 1024 → ownOutstanding s v.val ((switchOf h.u.src).getD (ownSwitch s)) h.u.line = true →
    ∃ (r : State) (sn : ProxySnoop), exec (.proxySnoop v) s = .next r ∧ (proxy r v.val).snps = (proxy s v.val).snps ++ [sn] ∧ sn.out = false ∧
      sn.biTag = (proxy s v.val).nextBi ∧ sn.src = h.u.src ∧ sn.tag = h.u.tag ∧ sn.line = h.u.line ∧
      (proxy r v.val).nextBi = ((proxy s v.val).nextBi + 1) % 65536 ∧ r = { s with swc := r.swc, prox := r.prox }) ∧
  (∀ (v : Fin 64) (p : Nat) (h : Held) (a : BitVec 46) (s : State), upstreamPort s v.val = some p → egressHead s p .snp = some h →
    (proxy s v.val).snps.length < 1024 → ownOutstanding s v.val ((switchOf h.u.src).getD (ownSwitch s)) h.u.line = false →
    (∀ e ∈ (proxy s v.val).evs, entryIs s v.val e.pool e.hpa ((switchOf h.u.src).getD (ownSwitch s)) h.u.line = false) →
    portUp s p = true → hostLine s v.val ((switchOf h.u.src).getD (ownSwitch s)) h.u.line = some a →
    ∃ (r : State) (sn : ProxySnoop), exec (.proxySnoop v) s = .next r ∧ sn ∈ (proxy r v.val).snps ∧ sn.out = true ∧ sn.biTag = (proxy s v.val).nextBi ∧
      sn.src = h.u.src ∧ sn.tag = h.u.tag ∧ sn.line = h.u.line ∧
      r = { s with fab := r.fab, perf := r.perf, swc := r.swc, prox := r.prox }) ∧
  (∀ (v : Fin 64) (p z : Nat) (k : BiRspKind) (t : BitVec 16) (sn : ProxySnoop) (rest : List InMsg) (s : State),
    upstreamPort s v.val = some p → ingress s p .rsp = { msg := .biRsp k t, since := z } :: rest →
    ((proxy s v.val).snps.find? fun e => e.out && decide (e.biTag = t.toNat)) = some sn → bridgeOpen s (p / 6) .rsp = true →
    ∃ r : State, exec (.proxyBirsp v) s = .next r ∧ ingress r p .rsp = rest ∧
      (proxy r v.val).snps = (proxy s v.val).snps.filter (fun e => decide (e.biTag ≠ sn.biTag)) ∧ r.mgmt = s.mgmt ∧ r.out = s.out) ∧
  (∀ (v : Fin 64) (p z : Nat) (a : BitVec 46) (t : BitVec 16) (rest : List InMsg) (s : State), upstreamPort s v.val = some p →
    ingress s p .req = { msg := .biConflict a t, since := z } :: rest → portUp s p = true →
    ∃ (r : State) (e : EgUnit), exec (.biconflict v) s = .next r ∧ ingress r p .req = rest ∧ egress r p .rsp = egress s p .rsp ++ [e] ∧
      e.msg = some (.conflictAck t) ∧ r = { s with fab := r.fab, perf := r.perf, swc := r.swc })

/-- R162, R168, R263: the response that a request of the proxy waits for ends it, a response for an entry in quarantine is discarded and
counted, and an entry whose wait after a Nack is over is issued again. R142, R158: the remote agent of an Aulum port takes the first
unit of its input queue, fanning a snoop of another switch out to the local targets, and answers a fan-out once every target has
replied. Of each of these commands it concludes that exec answers the next state of its own effect: proxyResponse, proxyBackoffEnd,
remoteAgentReceive, combinedReply. -/
def Obligations.ProxyAnswersAndRemoteAgents : Prop :=
  (∀ (v : Fin 64) (p : Nat) (h : Held) (e : ProxyReq) (s : State), upstreamPort s v.val = some p → nextResponse s p .dat = some h →
    tabFind? (h.u.tag.toNat % 512) (proxy s v.val).quarantine = none →
    ((proxy s v.val).reqs.find? fun x => decide (x.tag = h.u.tag.toNat % 512)) = some e → wrongLine h.u e.pool = false →
    ∃ r : State, exec (.proxyResponse v true) s = .next r ∧
      (proxy r v.val).reqs = (proxy s v.val).reqs.filter (fun x => decide (x.tag ≠ e.tag)) ∧ r.mgmt = s.mgmt ∧ r.out = s.out) ∧
  (∀ (v : Fin 64) (b : Bool) (p : Nat) (h : Held) (l : BitVec 42) (s : State), upstreamPort s v.val = some p →
    nextResponse s p (if b then .dat else .rsp) = some h → tabFind? (h.u.tag.toNat % 512) (proxy s v.val).quarantine = some l →
    ∃ r : State, exec (.proxyResponse v b) s = .next r ∧ (proxy r v.val) = (proxy s v.val) ∧
      counter r (counterNo 0xC026 0x0C) = counter s (counterNo 0xC026 0x0C) + 1 ∧ r = { s with perf := r.perf, swc := r.swc }) ∧
  (∀ (v : Fin 65) (t : Fin 4096) (p : Nat) (e : ProxyReq) (s : State), v.val < 64 → upstreamPort s v.val = some p →
    ((proxy s v.val).reqs.find? fun x => decide (x.tag = t.val)) = some e → e.st = .backoff →
    ∃ r : State, exec (.proxyBackoffEnd v t) s = .next r ∧
      (proxy r v.val).reqs = (proxy s v.val).reqs.map (fun x => if x.tag = t.val then { e with st := .issued } else x) ∧
      r = { s with fab := r.fab, prox := r.prox }) ∧
  (∀ (a : Fin 16) (v : Vn) (h : Held) (rest : List Held) (s : State), ejectBuf s (bridgeStop a.val) 8 v = h :: rest →
    ∃ r : State, exec (.remoteAgentReceive a v) s = .next r ∧ (s.aul.inq = [] → ejectBuf r (bridgeStop a.val) 8 v = rest) ∧
      r = { s with fab := r.fab, prox := { s.prox with fans := r.prox.fans }, aul := r.aul }) ∧
  (∀ (a : Fin 16) (h : Held) (k : Nat) (rest : List Held) (s : State), ejectBuf s (bridgeStop a.val) 8 .snp = h :: rest →
    h.u.vn = .snp → h.u.type ≠ 0x3F → h.hpa = some (k, 1) → 128 ≤ k →
    ∃ (r : State) (f : FanOut), exec (.remoteAgentReceive a .snp) s = .next r ∧ r.prox.fans = s.prox.fans ++ [f] ∧ f.island = a.val ∧ f.u.tag = h.u.tag ∧
      f.u.line = h.u.line) ∧
  (∀ (a : Fin 16) (f : FanOut) (s : State), (s.prox.fans.find? fun g => decide (g.island = a.val) && g.waiting.isEmpty) = some f →
    ∃ r : State, exec (.combinedReply a) s = .next r ∧ r.prox.fans = s.prox.fans.erase f ∧
      r = { s with fab := r.fab, prox := { s.prox with fans := r.prox.fans } })

/-- R149, R154: the pool port agent: a MemRd becomes an M2S request with a tag of its own, a MemWr waits until a line of the write
buffer pulls its data, the data leaves as M2S RwD, and the expander's answer ends the access and answers its home. Of each of these
commands it concludes that exec answers the next state of its own effect: poolPortMemrd, poolPortMemwr, wrpull, poolPortMemdata,
poolPortExpanderResponse. -/
def Obligations.PoolPort : Prop :=
  (∀ (p : Fin 96) (h : Held) (s : State), egressHead s p.val .req = some h → h.u.type = 8 →
    ∃ r : State, exec (.poolPortMemrd p) s = .next r ∧
      (poolAgent r p.val).reads = (poolAgent s p.val).reads ++ [((poolAgent s p.val).nextTag, h.u)] ∧
      (poolAgent r p.val).nextTag = ((poolAgent s p.val).nextTag + 1) % 65536 ∧
      (∃ e ∈ egress r p.val .req, e.msg =
        some (.memRd (unpackMem h.u.payload).ld (deviceAddr h.u) (BitVec.ofNat 16 (poolAgent s p.val).nextTag))) ∧
      r = { s with swc := r.swc, prox := { s.prox with pools := r.prox.pools } }) ∧
  (∀ (p : Fin 96) (h : Held) (s : State), egressHead s p.val .req = some h → h.u.type = 9 →
    (poolAgent s p.val).writes.length < 512 →
    ∃ (r : State) (w : PoolWrite), exec (.poolPortMemwr p) s = .next r ∧ (poolAgent r p.val).writes = (poolAgent s p.val).writes ++ [w] ∧ w.u = h.u ∧
      w.pulled = false ∧ w.sent = false ∧ r = { s with swc := r.swc, prox := { s.prox with pools := r.prox.pools } }) ∧
  (∀ (p : Fin 96) (w : PoolWrite) (s : State),
    ((poolAgent s p.val).writes.filter fun x => x.pulled && (!x.sent || rwdStands s p.val x)).length < 256 →
    ((poolAgent s p.val).writes.find? fun x => !x.pulled) = some w →
    ∃ r : State, exec (.wrpull p) s = .next r ∧
      (poolAgent r p.val).writes = (poolAgent s p.val).writes.map (fun x => if x = w then { x with pulled := true } else x) ∧
      r = { s with fab := r.fab, prox := { s.prox with pools := r.prox.pools } }) ∧
  (∀ (p : Fin 96) (h : Held) (w : PoolWrite) (s : State), egressHead s p.val .dat = some h →
    ((poolAgent s p.val).writes.find? fun x => x.pulled && !x.sent && decide (x.u.src = h.u.src) && decide (x.u.tag = h.u.tag)) =
      some w →
    ∃ r : State, exec (.poolPortMemdata p) s = .next r ∧
      (poolAgent r p.val).writes = (poolAgent s p.val).writes.map (fun x =>
        if x = w then { x with sent := true, link := (poolAgent s p.val).nextTag } else x) ∧
      (poolAgent r p.val).nextTag = ((poolAgent s p.val).nextTag + 1) % 65536 ∧
      (∃ e ∈ egress r p.val .dat, e.msg = some (.memWr (unpackMem w.u.payload).ld (deviceAddr w.u)
        (BitVec.ofNat 16 (poolAgent s p.val).nextTag) (h.u.poison || (unpackMem w.u.payload).wrPoison) h.u.payload)) ∧
      r = { s with swc := r.swc, prox := { s.prox with pools := r.prox.pools } }) ∧
  (∀ (p : Fin 96) (t : BitVec 16) (poison : Bool) (d : LineData) (z : Nat) (q : Nat × FUnit) (rest : List InMsg) (s : State),
    ingress s p.val .dat = { msg := .drs t poison d, since := z } :: rest → bridgeOpen s (p.val / 6) .dat = true →
    ((poolAgent s p.val).reads.find? fun x => decide (x.1 = t.toNat)) = some q →
    ∃ r : State, exec (.poolPortExpanderResponse p true) s = .next r ∧ ingress r p.val .dat = rest ∧
      (poolAgent r p.val).reads = (poolAgent s p.val).reads.filter (fun x => decide (x.1 ≠ q.1)) ∧
      r = { s with fab := r.fab, swc := r.swc, prox := { s.prox with pools := r.prox.pools } }) ∧
  (∀ (p : Fin 96) (t : BitVec 16) (z : Nat) (w : PoolWrite) (rest : List InMsg) (s : State),
    ingress s p.val .rsp = { msg := .ndr t, since := z } :: rest → bridgeOpen s (p.val / 6) .rsp = true →
    ((poolAgent s p.val).writes.find? fun x => x.sent && decide (x.link = t.toNat)) = some w →
    ∃ r : State, exec (.poolPortExpanderResponse p false) s = .next r ∧ ingress r p.val .rsp = rest ∧
      (poolAgent r p.val).writes = (poolAgent s p.val).writes.filter (fun x => decide (x ≠ w)) ∧
      r = { s with fab := r.fab, swc := r.swc, prox := { s.prox with pools := r.prox.pools } })

/-- R152, R153, R155, R169, R186, R190: a home takes a request for a stable line into a tracker that reads the line's directory entry
and answers Nack while the line has a tracker; a fill lets the request act on the line's state; a hold and a senior entry end with
their windows; and an evicted entry enters its set of the snoop filter as the youngest. Of each of these commands it concludes that
exec answers the next state of its own effect: homeIntakeCycle, seniorHoldExpire, seniorEntryTimeout, snoopFilterFill,
snoopFilterInsertion. -/
def Obligations.HomeIntake : Prop :=
  (∀ (l : Fin 32) (h : Held) (n : Nat) (s1 s : State), h.inp < 4 → ejectBuf s (homeStop s l.val) 1 .req = [h] →
    ejectBuf s (homeStop s l.val) 1 .wb = [] → ejectBuf s (homeStop s l.val) 1 .rsp = [] →
    ejectBuf s (homeStop s l.val) 1 .dat = [] → h.u.type.toNat ≤ 5 → s.flt.safe = false → s.dir.removals = [] → s.dir.hostWait = [] →
    s.dir.clearing = false → (slice s l.val).lostLines = [] → inRecovery s h.u.line = false → trackerFor s l.val h.u.line = none →
    heldFor (slice s l.val) h.u.line = none → cacheFind s l.val h.u.line = none → insertingFor s l.val h.u.line = none →
    pickTracker s l.val (reqOf h.u) = some n →
    pinLine (odSet (setEjectBuf s (homeStop s l.val) 1 .req []) 0x4003 (l.val + 1) ((h.inp + 1) % 4)) l.val h.u.line = some s1 →
    ∃ t : State, ∃ k : Tracker, exec (.homeIntakeCycle l) s = .next t ∧ tracker t l.val n = some k ∧ k.phase = .fill ∧ k.line = h.u.line ∧
      k.req = some (reqOf h.u) ∧ k.started = s.time.clock ∧ ejectBuf t (homeStop s l.val) 1 .req = [] ∧
      odGet t 0x4003 (l.val + 1) = (h.inp + 1) % 4 ∧ t.mgmt = s.mgmt) ∧
  (∀ (l : Fin 32) (h : Held) (k : Nat × Tracker) (s : State), h.inp < 4 → ejectBuf s (homeStop s l.val) 1 .req = [h] →
    ejectBuf s (homeStop s l.val) 1 .wb = [] → ejectBuf s (homeStop s l.val) 1 .rsp = [] →
    ejectBuf s (homeStop s l.val) 1 .dat = [] → h.u.type.toNat ≤ 5 → (reqOf h.u).senior = false → s.flt.safe = false →
    s.dir.removals = [] → s.dir.hostWait = [] → s.dir.clearing = false → (slice s l.val).lostLines = [] → inRecovery s h.u.line = false →
    trackerFor s l.val h.u.line = some k →
    ∃ t : State, exec (.homeIntakeCycle l) s = .next t ∧ t.home = s.home ∧ t.dir = s.dir ∧
      counter t (counterNo 0xC023 1) = counter s (counterNo 0xC023 1) + 1 ∧
      counter t (897 + 4 * l.val) = counter s (897 + 4 * l.val) + 1 ∧
      t = { s with od := t.od, perf := t.perf, fab := t.fab }) ∧
  (∀ (l : Fin 32) (x : BitVec 42) (s : State),
    ∃ t : State, exec (.seniorHoldExpire l x) s = .next t ∧
      (slice t l.val).holds = (slice s l.val).holds.filter (fun q => decide (q.1 ≠ x)) ∧
      (∀ j : Nat, j ≠ l.val → slice t j = slice s j) ∧ t = { s with home := t.home }) ∧
  (∀ (l : Fin 32) (i : Fin 8) (s : State),
    ∃ t : State, exec (.seniorEntryTimeout l i) s = .next t ∧ (slice t l.val).senior = (slice s l.val).senior.eraseIdx i.val ∧
      (∀ j : Nat, j ≠ l.val → slice t j = slice s j) ∧ t = { s with home := t.home }) ∧
  (∀ (l : Fin 32) (n : Fin 2048) (k : Tracker) (r : ReqInfo) (s1 s2 s : State), tracker s l.val n.val = some k → k.phase = .fill →
    k.req = some r → (r.kind = 4 ∨ r.kind = 5) → fillLine s l.val k.line = (s1, false) → lineState s1 l.val k.line = (s2, .invalid) →
    ∃ (t : State) (k' : Tracker), exec (.snoopFilterFill l n) s = .next t ∧ tracker t l.val n.val = some k' ∧ k'.phase = .wb ∧ k'.line = k.line ∧
      k'.req = some r ∧ t.mgmt = s.mgmt) ∧
  (∀ (l : Fin 32) (e : DirEntry) (i : Nat) (w x : SfWay) (s : State), (s.dir.inserting.find? fun q => decide (q.1 = l.val)) = some (l.val, e) →
    lineState s l.val e.line = (s, e.st) → sfChoose s (sfKey s l.val e.line) = some (i, w) → w.st = .invalid → i < 8 →
    (sfSet s (sfKey s l.val e.line))[i]? = some x →
    ∃ t : State, exec (.snoopFilterInsertion l) s = .next t ∧ (l.val, e) ∉ t.dir.inserting ∧
      (sfSet t (sfKey s l.val e.line)).length ≤ 8 ∧
      { tag := tagOf s e.line, st := e.st, order := 0 } ∈ sfSet t (sfKey s l.val e.line) ∧
      counter t (counterNo 0xC024 4) = counter s (counterNo 0xC024 4) + 1 ∧ t = { s with dir := t.dir, perf := t.perf })

/-- R211, R213, R217 to R220: a software write of a remap entry leaves Generation as it was, writes the backing and is applied to every
slice before the write completes; while the gate is closed a bulk load writes whole runs; and the gate opens. Of each of these
commands it concludes that exec answers the next state of its own effect: remapCacheFill, remapEntryWrite, remapWriteComplete,
openRemapGate, remapBulkLoad. -/
def Obligations.RemapTable : Prop :=
  (∀ (g : Fin 8388608) (x : BitVec 64) (s : State), entryRefused x.toNat = false → moveOf s g.val = none → s.map.write = none →
    ∃ t : State, exec (.remapEntryWrite g x) s = .next t ∧ backing t g.val = writtenEntry s g.val x.toNat ∧
      (∀ h : Nat, h ≠ g.val → backing t h = backing s h) ∧ (∃ w : RemapWrite, t.map.write = some w ∧ w.gran = g.val ∧ w.writer = .software) ∧
      odGet t 0x5010 3 = 1 ∧ t.out = s.out ++ [Out.status .ok] ∧ t = { s with od := t.od, map := t.map, out := t.out }) ∧
  (∀ (g : Fin 8388608) (x : BitVec 64) (s : State), entryRefused x.toNat = true →
    exec (.remapEntryWrite g x) s = .next (emit s (.status .outOfRange))) ∧
  (∀ (g : Fin 8388608) (x : BitVec 64) (s : State), entryRefused x.toNat = false → (moveOf s g.val).isSome ∨ s.map.write.isSome →
    exec (.remapEntryWrite g x) s = .next (emit s (.status .busy))) ∧
  (∀ (w : RemapWrite) (s : State), s.map.write = some w → w.writer = .software → s.map.waiting = [] →
    ∃ t : State, exec .remapWriteComplete s = .next t ∧ t.map.write = none ∧ odGet t 0x5010 3 = 2 ∧ t.map.backing = s.map.backing ∧
      counter t (counterNo 0xC025 3) = counter s (counterNo 0xC025 3) + 1 ∧
      t = { s with od := t.od, perf := t.perf, home := t.home, map := t.map }) ∧
  (∀ (r : BitVec 128) (n g e : Nat) (s : State), odGet s 0x5012 2 ≠ 1 → n = (r.extractLsb' 96 32).toNat →
    g = (r.extractLsb' 64 23).toNat → e = (r.extractLsb' 0 48).toNat → 0 < n → g + n ≤ 8388608 → bits e 23 0 + n ≤ 2 ^ 24 →
    entryRefused e = false →
    ∃ t : State, exec (.remapBulkLoad [r]) s = .next t ∧
      (∀ i : Nat, i < n → backing t (g + i) =
        mkEntry (bits e 47 45) (entGen (backing s (g + i))) (bits e 34 28) (bits e 27 24) (bits e 23 0 + i)) ∧
      (∀ h : Nat, h < g ∨ g + n ≤ h → backing t h = backing s h) ∧ t.out = s.out ++ [Out.status .ok] ∧
      t = { s with map := t.map, out := t.out }) ∧
  (∀ (rs : List (BitVec 128)) (s : State), odGet s 0x5012 2 = 1 → exec (.remapBulkLoad rs) s = .next (emit s (.status .busy))) ∧
  (∀ s : State, odGet s 0x5012 2 ≠ 1 →
    ∃ t : State, exec .openRemapGate s = .next t ∧ odGet t 0x5012 2 = 1 ∧ t.out = s.out ++ [Out.status .ok] ∧ t.mgmt = s.mgmt) ∧
  (∀ (l : Fin 32) (g : Fin 8388608) (b : Bool) (op : RemapOp) (s : State), (g.val, op) ∈ (slice s l.val).fills →
    ∃ t : State, exec (.remapCacheFill l g b) s = .next t ∧
      (slice t l.val).fills = (slice s l.val).fills.filter (fun q => decide (q.1 ≠ g.val)) ∧ t.mgmt = s.mgmt)

/-- R221, R225: a move starts with a free record, its destination and the opposite Generation, and can be cancelled while nothing has
been copied. Of each of these commands it concludes that exec answers the next state of its own effect: moveExecute,
moveGranuleClear, moveCancel. -/
def Obligations.MoveCommands : Prop :=
  (∀ (sess : BitVec 32) (g : Fin 8388608) (d : BitVec 64) (m : Nat) (s : State), moveOf s g.val = none → writingGran s g.val = false →
    s.map.write = none → ((List.range 1024).find? fun i => (moveRec s i).isNone) = some m → entState (backing s g.val) = 1 →
    ∃ t : State, ∃ x : Move, exec (.moveExecute sess g d false) s = .next t ∧ moveRec t m = some x ∧ x.gran = g.val ∧ x.state = .starting ∧
      x.dest = { port := bits d.toNat 34 28, ld := bits d.toNat 27 24, gran := bits d.toNat 23 0, gen := !entGen (backing s g.val) } ∧
      x.front = 0 ∧ backing t g.val = withEntState (backing s g.val) 2 ∧ t.out = s.out ++ [Out.status .ok] ∧
      t = { s with od := t.od, spr := t.spr, map := t.map, out := t.out }) ∧
  (∀ (sess : BitVec 32) (g : Fin 8388608) (d : BitVec 64) (m : Nat) (s : State), moveOf s g.val = none → writingGran s g.val = false →
    ((List.range 1024).find? fun i => (moveRec s i).isNone) = some m → entState (backing s g.val) = 4 →
    ∃ t : State, ∃ x : Move, exec (.moveExecute sess g d true) s = .next t ∧ moveRec t m = some x ∧ x.gran = g.val ∧ x.state = .restoring ∧
      x.restore = true ∧ t.map.backing = s.map.backing ∧ t.out = s.out ++ [Out.status .ok] ∧
      t = { s with od := t.od, spr := t.spr, map := t.map, out := t.out }) ∧
  (∀ (sess : BitVec 32) (g : Fin 8388608) (d : BitVec 64) (b : Bool) (s : State), (moveOf s g.val).isSome →
    ∃ t : State, exec (.moveExecute sess g d b) s = .next t ∧ t.map = s.map ∧ t.out = s.out ++ [Out.status .busy] ∧
      t = { s with spr := t.spr, out := t.out }) ∧
  (∀ (m : Fin 1024) (x : Move) (s : State), moveRec s m.val = some x → x.state = .copying → x.front = 0 → x.copying = false →
    x.finalAsked = false →
    ∃ t : State, exec (.moveCancel m) s = .next t ∧ moveRec t m.val = some { x with finalAsked := true, outcome := 6 } ∧
      t.out = s.out ++ [Out.status .ok] ∧ t = { s with map := t.map, out := t.out }) ∧
  (∀ (m : Fin 1024) (s : State), moveRec s m.val = none → exec (.moveCancel m) s = .next (emit s (.status .busy))) ∧
  (∀ (m : Fin 1024) (x : Move) (s : State), moveRec s m.val = some x → x.finalDone = true → x.settled = true →
    x.outcome ≠ 4 → granuleClear s x.gran x.old.gen = true →
    ∃ t : State, exec (.moveGranuleClear m) s = .next t ∧ moveRec t m.val = none ∧ (∀ n : Nat, n ≠ m.val → moveRec t n = moveRec s n) ∧
      odGet t 0x5020 4 = t.map.moves.length ∧ t.out = s.out ∧ t.mgmt = s.mgmt)

/-- R103, R220, R223, R224, R226, R227: a page of a move starts when tokens and pacing allow, is read once every slice has left it, and
moves Front when its last line is written; an abandoned page is tried again later; a salvage and a restore write whole pages; the
tier mover writes on what it has read; and the sweep goes on by 512 entries. Of each of these commands it concludes that exec
answers the next state of its own effect: poisonSweepStep, movePageStart, movePageClear, movePageComplete, movePageAbandon,
salvagePage, restoreFillComplete, tierMoverResponse. -/
def Obligations.MovePages : Prop :=
  (∀ (m : Fin 1024) (x : Move) (s1 s : State), moveRec s m.val = some x → x.state = .copying → x.inCopy = false → x.front < 512 →
    x.notBefore ≤ s.time.clock → s.map.paceNext ≤ s.time.clock → x.finalAsked = false → pageToken? s 30 = some s1 →
    ∃ t : State, exec (.movePageStart m) s = .next t ∧
      moveRec t m.val = some { x with copying := true, clear := false, started := s.time.clock, lines := [], stale := none } ∧
      t.map.paceNext = s.time.clock + (4096 + odGet s 0x5020 1 - 1) / odGet s 0x5020 1 ∧ t = { s with pow := t.pow, map := t.map }) ∧
  (∀ (m : Fin 1024) (x : Move) (s : State), moveRec s m.val = some x → x.copying = true → x.clear = false →
    (s.home.slices.any fun p => usesPage p.2 x.gran x.front x.old) = false →
    ∃ t : State, exec (.movePageClear m) s = .next t ∧
      moveRec t m.val = some { x with clear := true, lines := List.replicate 64 .reading } ∧ t = { s with fab := t.fab, map := t.map }) ∧
  (∀ (m : Fin 1024) (x : Move) (s : State), moveRec s m.val = some x → x.copying = true → x.lines ≠ [] → x.settled = true →
    x.stale = none → x.front + 1 ≠ 512 →
    ∃ t : State, exec (.movePageComplete m) s = .next t ∧
      moveRec t m.val = some { x with
        front := x.front + 1, copying := false, clear := false, lines := [], attempts := 0, notBefore := 0 } ∧ t.mgmt = s.mgmt) ∧
  (∀ (m : Fin 1024) (x : Move) (s : State), moveRec s m.val = some x → x.copying = true →
    ∃ t : State, ∃ y : Move, exec (.movePageAbandon m) s = .next t ∧ moveRec t m.val = some y ∧ y.copying = false ∧ y.front = x.front ∧
      y.attempts = min 255 (x.attempts + 1) ∧ s.time.clock < y.notBefore ∧ t.mgmt = s.mgmt) ∧
  (∀ (m : Fin 1024) (x : Move) (p : Nat) (rest : List Nat) (s1 s : State), moveRec s m.val = some x → x.state = .salvaging →
    x.restore = false → x.finalAsked = false → x.lines = [] → x.salvage = p :: rest → pageToken? s 30 = some s1 →
    ∃ t : State, exec (.salvagePage m) s = .next t ∧
      moveRec t m.val = some { x with lines := List.replicate 64 (.got Config.poisonData true), stale := none } ∧
      t = { s with pow := t.pow, fab := t.fab, map := t.map }) ∧
  (∀ (m : Fin 1024) (x : Move) (s : State), moveRec s m.val = some x → x.state = .restoring → x.front = 512 → x.finalAsked = false →
    s.flt.safe = false →
    ∃ t : State, exec (.restoreFillComplete m) s = .next t ∧ moveRec t m.val = some { x with finalAsked := true, outcome := 4 } ∧
      (s.map.write = none → backing t x.gran = mkEntry 1 (!x.old.gen) x.dest.port x.dest.ld x.dest.gran) ∧ t = { s with map := t.map }) ∧
  (∀ (h : Held) (rest : List Held) (m i : Nat) (x : Move) (s : State), ejectBuf s moverStop 1 .dat = h :: rest → h.u.vn = .dat →
    m = h.u.tag.toNat / 64 → i = h.u.tag.toNat % 64 → moveRec s m = some x → x.lines[i]? = some .reading → x.copying = true →
    h.u.line = pageLine x.gran x.page i →
    ∃ t : State, exec (.tierMoverResponse true) s = .next t ∧ ejectBuf t moverStop 1 .dat = rest ∧
      moveRec t m = some { x with lines := x.lines.set i (.got h.u.payload h.u.poison) } ∧ t = { s with fab := t.fab, map := t.map }) ∧
  (∀ (p g : Nat) (mask : BitVec 16) (rest : List (Nat × BitVec 16 × Nat)) (s1 s : State), s.port.sweeps = (p, mask, g) :: rest →
    (∀ i : Nat, i < 512 → sweeps s p mask (g + i) = false) → spend? s 0 22 = some s1 →
    ∃ t : State, exec .poisonSweepStep s = .next t ∧ t.port.sweeps = (if 8388608 ≤ g + 512 then rest else (p, mask, g + 512) :: rest) ∧
      t = { s with pow := t.pow, port := { s.port with sweeps := t.port.sweeps } })

/-- R194 to R196, R198, R205: a declared peer enters the removal list and a pass starts that covers the list; the pass goes over every
set and then takes the removals it covered off the list. An uncorrectable error in a clean cached entry drops it, one in a dirty
entry or a header is a fault, and the marver pass counts the blocks it corrects. R200 to R203: a range in RECOVERY waits for VCSs
and switches: a flush or a persistent flush takes a VCS out of every pending set, RecoveryDone a switch, and an abandon the one that
it names; the timeout raises F434 once. Of each of these commands it concludes that exec answers the next state of its own effect:
declarePeerLost, removalPassStep, removalPassComplete, directoryUncorrectable, marverPassStep, recoveryFlushComplete, gpfCompletion,
recoverydone, abandonVcs, abandonSwitch, recoveryTimeout. -/
def Obligations.DirectoryRemovalAndRecovery : Prop :=
  (∀ (w : Fin 1024) (s : State), w.val ≠ ownSwitch s → isListed s true w.val = false → s.dir.removals.length < 16 →
    ∃ t : State, exec (.declarePeerLost w) s = .next t ∧ t.out.getLast? = some (.status .ok) ∧ t.mgmt = s.mgmt ∧ t.time = s.time ∧
      isListed t true w.val = true) ∧
  (∀ (w : Fin 1024) (s : State), w.val = ownSwitch s ∨ isListed s true w.val = true ∨ 16 ≤ s.dir.removals.length →
    exec (.declarePeerLost w) s = .next (emit s (.status .busy))) ∧
  (∀ (n : Nat) (s1 s : State), s.dir.pass = some n → n < 4194304 → s.flt.safe = false → s.dir.cache = [] → s.dir.sf = [] →
    s.dir.inserting = [] → spend? s 0 704 = some s1 →
    ∃ t : State, exec .removalPassStep s = .next t ∧ t.dir.pass = some (n + 25) ∧ odGet t 0x4020 5 = min 65535 ((n + 25) / 64) ∧
      t = { s with od := t.od, pow := t.pow, dir := { s.dir with pass := t.dir.pass } }) ∧
  (∀ (n : Nat) (s : State), s.dir.pass = some n → 4194304 ≤ n →
    ∃ t : State, exec .removalPassComplete s = .next t ∧ (∀ r ∈ t.dir.removals, r ∈ s.dir.removals → r.covered = false ∨ t.dir.pass = some 0) ∧
      (s.dir.hostWait = [] → (∀ r ∈ s.dir.removals, r.covered = true) → t.dir.removals = [] ∧ t.dir.pass = none) ∧
      t.out = s.out ∧ t.mgmt = s.mgmt) ∧
  (∀ (l : Fin 32) (w : Fin 16) (b : Fin 8192) (x : DirEntry) (s : State),
    tabFind? ((l.val * 8192 + b.val) * 16 + w.val) s.dir.cache = some x → x.dirty = false → x.pinned = false →
    ∃ t : State, exec (.directoryUncorrectable (.cache l w b)) s = .next t ∧
      tabFind? ((l.val * 8192 + b.val) * 16 + w.val) t.dir.cache = none ∧ t = { s with dir := { s.dir with cache := t.dir.cache } }) ∧
  (∀ (l : Fin 32) (w : Fin 16) (b : Fin 8192) (x : DirEntry) (s : State),
    tabFind? ((l.val * 8192 + b.val) * 16 + w.val) s.dir.cache = some x → x.dirty = true → tabFind? 432 s.flt.pairs = none →
    ∃ t : State, ∃ r : Report, exec (.directoryUncorrectable (.cache l w b)) s = .next t ∧ tabFind? 432 t.flt.pairs = some r ∧
      r.detail = BitVec.ofNat 48 (l.val * 2 ^ 32 + w.val * 2 ^ 16 + b.val) ∧ t = { s with flt := t.flt }) ∧
  (∀ (b : Fin 129) (s1 s : State), s.flt.safe = false → spend? s 0 (if b.val = 0 then 22 else 45) = some s1 →
    ∃ t : State, exec (.marverPassStep b none) s = .next t ∧ t.dir.marver = (s.dir.marver + 1) % 5242880 ∧
      counter t (counterNo 0xC024 8) = counter s (counterNo 0xC024 8) + BitVec.ofNat 48 b.val ∧
      t = { s with pow := t.pow, perf := t.perf, dir := { s.dir with marver := t.dir.marver } }) ∧
  (∀ (v : Fin 64) (s : State), ∃ t : State, exec (.recoveryFlushComplete v) s = .next t ∧ exec (.gpfCompletion v) s = .next t ∧
    (∀ i : Nat, i < 64 → (recovery t i).active = true → (recovery t i).vcs.getLsbD v.val = false) ∧
    (∀ i : Nat, i < 64 → (recovery t i).switches = (recovery s i).switches) ∧ t.mgmt = s.mgmt) ∧
  (∀ (w : Fin 1024) (s : State), ∃ t : State, exec (.recoverydone w) s = .next t ∧
    (∀ i : Nat, i < 64 → (recovery t i).active = true → w.val ∉ (recovery t i).switches) ∧
    (∀ i : Nat, i < 64 → (recovery t i).vcs = (recovery s i).vcs) ∧ t.out = s.out ∧ t.mgmt = s.mgmt) ∧
  (∀ (i v : Fin 64) (s : State), (recovery s i.val).active = true → (recovery s i.val).vcs.getLsbD v.val = true →
    ∃ t : State, exec (.abandonVcs i v) s = .next t ∧ (recovery t i.val).vcs.getLsbD v.val = false ∧
      t.out = s.out ++ [Out.status .ok] ∧ t.mgmt = s.mgmt) ∧
  (∀ (i : Fin 64) (w : Fin 1024) (s : State), (recovery s i.val).active = true → w.val ∈ (recovery s i.val).switches →
    ∃ t : State, exec (.abandonSwitch i w) s = .next t ∧ w.val ∉ (recovery t i.val).switches ∧
      t.out = s.out ++ [Out.status .ok] ∧ t.mgmt = s.mgmt) ∧
  (∀ (i : Fin 64) (s : State), (recovery s i.val).active = true → (recovery s i.val).timeoutRaised = false →
    ∃ t : State, exec (.recoveryTimeout i) s = .next t ∧ recovery t i.val = { recovery s i.val with timeoutRaised := true } ∧
      (tabFind? 434 t.flt.pairs).isSome = true ∧ t = { s with od := t.od, flt := t.flt, dir := { s.dir with recov := t.dir.recov } })

/-- R199, R206, R208: a flush of an aligned local range starts a walk, whose steps go over its lines and whose end is shown; a commit of
partitions whose set ranges fit and are disjoint empties the directory and starts the clearing, which ends. Of each of these
commands it concludes that exec answers the next state of its own effect: flushRangeExecute, rangeWalkStep, rangeWalkComplete,
partitionCommit, partitionClearDone. -/
def Obligations.WalksAndPartitions : Prop :=
  (∀ (b e : BitVec 64) (s : State), rangeOk b.toNat e.toNat = true → (∀ w ∈ s.dir.walks, w.extent ≠ none) →
    ∃ t : State, exec (.flushRangeExecute b e) s = .next t ∧
      t.dir.walks = s.dir.walks ++ [{ extent := none, base := b.toNat / 64, limit := e.toNat / 64, next := b.toNat / 64 }] ∧
      odGet t 0x4021 4 = 0 ∧ t.out = s.out ++ [Out.status .ok] ∧
      t = { s with od := t.od, dir := { s.dir with walks := t.dir.walks }, out := t.out }) ∧
  (∀ (b e : BitVec 64) (s : State), rangeOk b.toNat e.toNat = false →
    exec (.flushRangeExecute b e) s = .next (emit s (.status .outOfRange))) ∧
  (∀ (i : Fin 65536) (w : Walk) (s1 s : State), s.dir.walks[i.val]? = some w → w.next ≤ w.limit → s.flt.safe = false →
    spend? s 0 22 = some s1 → (∀ x : Nat, w.next ≤ x → x ≤ w.limit →
      trackerFor s (homeSlice (BitVec.ofNat 42 x)) (BitVec.ofNat 42 x) = none ∧
      lineState s1 (homeSlice (BitVec.ofNat 42 x)) (BitVec.ofNat 42 x) = (s1, .invalid)) →
    ∃ t : State, exec (.rangeWalkStep i) s = .next t ∧ t.dir.walks = s.dir.walks.set i.val { w with next := min (w.next + 128) (w.limit + 1) } ∧
      t = { s with od := t.od, pow := t.pow, dir := { s.dir with walks := t.dir.walks } }) ∧
  (∀ (i : Fin 65536) (w : Walk) (s : State), s.dir.walks[i.val]? = some w → w.extent = none → walkOver s w = true →
    ∃ t : State, exec (.rangeWalkComplete i) s = .next t ∧ t.dir.walks = s.dir.walks.eraseIdx i.val ∧ odGet t 0x4021 4 = 65535 ∧
      t = { s with od := t.od, dir := { s.dir with walks := t.dir.walks } }) ∧
  (∀ s : State, s.dir.clearing = false →
    (((List.range 8).map (stagedPartition s)).filter fun p => p.enable).all partitionFits = true →
    disjointParts (((List.range 8).map (stagedPartition s)).filter fun p => p.enable) = true →
    ∃ t : State, exec .partitionCommit s = .next t ∧ t.dir.parts = (List.range 8).map (stagedPartition s) ∧ t.dir.clearing = true ∧
      t.dir.sf = [] ∧ t.dir.cache = [] ∧ odGet t 0x4013 2 = 1 ∧ t.out = s.out ++ [Out.status .ok] ∧
      t = { s with od := t.od, dir := t.dir, out := t.out }) ∧
  (∀ s : State, s.dir.clearing = true → exec .partitionCommit s = .next (emit s (.status .busy))) ∧
  (∀ s : State, s.dir.clearing = true →
    ∃ t : State, exec .partitionClearDone s = .next t ∧ t.dir.clearing = false ∧ odGet t 0x4013 2 = 2 ∧
      t = { s with od := t.od, dir := { s.dir with clearing := false } })

/-- R236, R237: a commit of a shadow set without an invalid rule starts the swap of the stages; the last stage to swap exchanges the
sets and counts the epoch; and the active set can be copied to the shadow while none swaps. Of each of these commands it concludes
that exec answers the next state of its own effect: guardCommit, guardStageSwap, copyActiveSetToShadow. -/
def Obligations.GuardSets : Prop :=
  (∀ s : State, guardSwapping s = false → (∀ p ∈ s.map.guardShadow, ruleInvalid p.2 = false) →
    ∃ t : State, exec .guardCommit s = .next t ∧ odGet t 0x5030 2 = 1 ∧ t.map.swapped = [] ∧ t.out = s.out ++ [Out.status .ok] ∧
      t = { s with od := t.od, map := { s.map with swapped := [] }, out := t.out }) ∧
  (∀ (p : Nat × GuardRule) (s : State), guardSwapping s = false → p ∈ s.map.guardShadow → ruleInvalid p.2 = true →
    exec .guardCommit s = .next (emit (odSet s 0x5030 2 3) (.status .ruleInvalid))) ∧
  (∀ s : State, guardSwapping s = true → exec .guardCommit s = .next (emit s (.status .busy)) ∧
    exec .copyActiveSetToShadow s = .next (emit s (.status .busy))) ∧
  (∀ (g : Fin 17) (s : State), guardSwapping s = true → g.val ∉ s.map.swapped → (setInsert g.val s.map.swapped).length ≠ 17 →
    ∃ t : State, exec (.guardStageSwap g) s = .next t ∧ g.val ∈ t.map.swapped ∧ odGet t 0x5033 (g.val + 1) = (odGet s 0x5030 3 + 1) % 2 ^ 32 ∧
      t = { s with od := t.od, map := { s.map with swapped := t.map.swapped } }) ∧
  (∀ (g : Fin 17) (s : State), guardSwapping s = true → g.val ∉ s.map.swapped → (setInsert g.val s.map.swapped).length = 17 →
    ∃ t : State, exec (.guardStageSwap g) s = .next t ∧ t.map.guardActive = s.map.guardShadow ∧ t.map.guardShadow = s.map.guardActive ∧
      odGet t 0x5030 3 = (odGet s 0x5030 3 + 1) % 2 ^ 32 ∧ odGet t 0x5030 2 = 2 ∧ t.map.refusalRaised = false ∧
      counter t (counterNo 0xC025 0x0A) = counter s (counterNo 0xC025 0x0A) + 1 ∧ t.mgmt = s.mgmt) ∧
  (∀ s : State, guardSwapping s = false →
    ∃ t : State, exec .copyActiveSetToShadow s = .next t ∧ t.map.guardShadow = s.map.guardActive ∧ t.map.shadowDefault = odGet s 0x5030 6 ∧
      t.out = s.out ++ [Out.status .ok] ∧ t = { s with map := t.map, out := t.out })

/-- R257, R264: how the state of an Aulum port moves: enable and disable, the timeouts that take the link DOWN and keep its replay
buffer, the training that starts and the TS with which it comes UP. Of each of these commands it concludes that exec answers the
next state of its own effect: ts, retrainInterval, aulumPortEnable, aulumPortDisable, pauseTimeout, trainingTimeout, syncLoss. -/
def Obligations.AulumLinkStates : Prop :=
  (∀ (a : Fin 16) (s : State), ∃ t : State, exec (.aulumPortEnable a) s = .next t ∧ odGet t (aulIdx a.val) 1 = 1 ∧
    a.val ∉ t.flt.isoAulum ∧ t.out.getLast? = some (.status .ok) ∧
    (linkState s a.val = linkDisabled → aulMayTrain s a.val = true →
      linkState t a.val = linkTraining ∧ (aulPort t a.val).lanes = [0, 1, 2, 3]) ∧
    t = { s with od := t.od, spr := t.spr, perf := t.perf, flt := { s.flt with isoAulum := t.flt.isoAulum }, aul := t.aul, out := t.out }) ∧
  (∀ (a : Fin 16) (s : State), linkState s a.val = linkDisabled ∨ aulumEmpty s a.val = true →
    ∃ t : State, exec (.aulumPortDisable a) s = .next t ∧ odGet t (aulIdx a.val) 1 = 0 ∧ linkState t a.val = linkDisabled ∧
      t.out = s.out ++ [Out.status .ok] ∧ t = { s with od := t.od, spr := t.spr, perf := t.perf, aul := t.aul, out := t.out }) ∧
  (∀ (a : Fin 16) (s : State), linkState s a.val ≠ linkDisabled → aulumEmpty s a.val = false →
    exec (.aulumPortDisable a) s = .next (emit s (.status .portActive))) ∧
  (∀ (a : Fin 16) (c : Instr) (s : State),
    (c = .trainingTimeout a ∧ linkState s a.val = linkTraining ∧ (aulPort s a.val).agreed = false) ∨
      (c = .syncLoss a ∧ linkState s a.val = linkUp) ∨ (c = .pauseTimeout a ∧ linkState s a.val = linkPaused) →
    ∃ t : State, exec c s = .next t ∧ linkState t a.val = linkDown ∧ (aulPort t a.val).replay = (aulPort s a.val).replay ∧
      (aulPort t a.val).partner = (aulPort s a.val).partner ∧ (aulPort t a.val).resend = none ∧
      (∀ b : Nat, b ≠ a.val → aulPort t b = aulPort s b) ∧
      t = { s with od := t.od, spr := t.spr, perf := t.perf, aul := { s.aul with ports := t.aul.ports } }) ∧
  (∀ (a : Fin 16) (s : State), aulMayTrain s a.val = true →
    linkState s a.val = linkDown ∨ (linkState s a.val = linkTraining ∧ (aulPort s a.val).agreed = true) →
    ∃ t : State, exec (.retrainInterval a) s = .next t ∧ linkState t a.val = linkTraining ∧ (aulPort t a.val).lanes = [0, 1, 2, 3] ∧
      t.out.length = s.out.length + 1 ∧
      t = { s with od := t.od, spr := t.spr, perf := t.perf, aul := { s.aul with ports := t.aul.ports }, out := t.out }) ∧
  (∀ (a : Fin 16) (spares : BitVec 2) (f : LaneBlocks) (c : Control) (v : Nat) (s : State),
    controlOf 1 f = some c → linkState s a.val = linkTraining → c.width = 4 → agreedVersion s a.val c = some v →
    versionRefused s a.val v = false → tabFind? c.switch s.aul.epochs = some c.swEpoch →
    (aulPort s a.val).partner = none ∨ (aulPort s a.val).partner =
      some { switch := c.switch, port := c.port, epoch := c.epoch, swEpoch := c.swEpoch } →
    ∃ t : State, exec (.ts a 15 spares f) s = .next t ∧ linkState t a.val = linkUp ∧ linkVersion t a.val = v ∧
      odGet t (aulIdx a.val) 0x12 = 4 ∧ odGet t (aulIdx a.val) 0x13 = c.switch ∧ odGet t (aulIdx a.val) 0x16 = c.epoch.toNat ∧
      (aulPort t a.val).lanes = [0, 1, 2, 3] ∧ (aulPort t a.val).sent = [] ∧
      ((aulPort s a.val).partner = none → (aulPort t a.val).expect = 0) ∧
      ((aulPort s a.val).partner ≠ none → (aulPort t a.val).replay = (replayFrom (aulPort s a.val) c.next).replay) ∧
      t = { s with od := t.od, spr := t.spr, perf := t.perf, aul := t.aul, out := t.out }) ∧
  (∀ (a : Fin 16) (work : BitVec 4) (spares : BitVec 2) (f : LaneBlocks) (c : Control) (s : State),
    controlOf 1 f = some c → linkState s a.val = linkUp →
    ∃ t : State, exec (.ts a work spares f) s = .next t ∧ linkState t a.val = linkDown ∧ t.mgmt = s.mgmt)

/-- R254, R255: lane sparing: a request for a free spare pauses the link and is acknowledged, any other is refused; an answer is
followed by the pause or by a new request later; RESUME makes the move and takes the link UP with what the partner misses replayed.
R460, R461, R463: keys of an encrypted link are written by a secure agent to a set that is not in use, a rollover waits for the
other set's key, and a group that no flit has followed is closed. Of each of these commands it concludes that exec answers the next
state of its own effect: spareReq, spareAck, spareRefuse, resume, aulumKeyWrite, transmitRollover, macGroupTimeout. -/
def Obligations.AulumSparingAndKeys : Prop :=
  (∀ (a : Fin 16) (f : LaneBlocks) (c : Control) (s : State), controlOf 2 f = some c → linkState s a.val = linkUp →
    linkVersion s a.val = 2 → (aulPort s a.val).asking = none → 16 ≤ c.spare % 18 → c.lane < 4 →
    (aulPort s a.val).spares.getLsbD (c.spare % 18 - 16) = true → spareFree s a.val (spareLane a.val (c.spare % 18 - 16)) = true →
    ∃ t : State, exec (.spareReq a f) s = .next t ∧ linkState t a.val = linkPaused ∧
      (aulPort t a.val).moving = some (c.lane, spareLane a.val (c.spare % 18 - 16)) ∧ t.out.length = s.out.length + 1 ∧
      t = { s with od := t.od, spr := t.spr, perf := t.perf, aul := { s.aul with ports := t.aul.ports }, out := t.out }) ∧
  (∀ (a : Fin 16) (f : LaneBlocks) (c : Control) (s : State), controlOf 2 f = some c → linkState s a.val = linkUp →
    linkVersion s a.val = 2 → (aulPort s a.val).asking = none → c.spare % 18 < 16 ∨ 4 ≤ c.lane →
    ∃ t : State, exec (.spareReq a f) s = .next t ∧ t.out = s.out ++ [Out.aulumControl a.val
        (laneBlocks controlSync (aulPort s a.val).lanes.length (controlBlock (ownControl s a.val 4 0 0)))] ∧
      linkState t a.val = linkUp ∧ t = { s with aul := { s.aul with ports := t.aul.ports }, out := t.out }) ∧
  (∀ (a : Fin 16) (f : LaneBlocks) (c : Control) (i k : Nat) (s : State), controlOf 3 f = some c → linkState s a.val = linkUp →
    (aulPort s a.val).asking = some (i, k) →
    ∃ t : State, exec (.spareAck a f) s = .next t ∧ linkState t a.val = linkPaused ∧ (aulPort t a.val).moving = some (i, k) ∧
      (aulPort t a.val).asking = none ∧
      t = { s with od := t.od, spr := t.spr, perf := t.perf, aul := { s.aul with ports := t.aul.ports } }) ∧
  (∀ (a : Fin 16) (f : LaneBlocks) (c : Control) (i k : Nat) (s : State), controlOf 4 f = some c → (aulPort s a.val).asking = some (i, k) →
    ∃ t : State, exec (.spareRefuse a f) s = .next t ∧
      (aulPort t a.val).denied = (aulPort s a.val).denied ||| BitVec.twoPow 2 (k % 18 - 16) ∧
      (∀ b : Nat, b ≠ a.val → aulPort t b = aulPort s b) ∧
      t = { s with flt := t.flt, aul := { s.aul with ports := t.aul.ports }, out := t.out }) ∧
  (∀ (a : Fin 16) (f : LaneBlocks) (c : Control) (s : State), controlOf 4 f = some c → (aulPort s a.val).asking = none →
    ∃ t : State, exec (.spareRefuse a f) s = .next t ∧ aulPort t a.val = { aulPort s a.val with parIn := none } ∧
      (∀ b : Nat, b ≠ a.val → aulPort t b = aulPort s b) ∧ t = { s with aul := { s.aul with ports := t.aul.ports } }) ∧
  (∀ (a : Fin 16) (f : LaneBlocks) (c : Control) (s : State), controlOf 5 f = some c → linkState s a.val = linkPaused →
    ∃ t : State, exec (.resume a f) s = .next t ∧ linkState t a.val = linkUp ∧
      (aulPort t a.val).replay = (replayFrom (aulPort s a.val) c.next).replay ∧ (aulPort t a.val).moving = none ∧
      (∀ i k : Nat, (aulPort s a.val).moving = some (i, k) → odGet t (aulIdx a.val) 0x17 =
        odGet s (aulIdx a.val) 0x17 - physLane s a.val i * 2 ^ (8 * i) + k * 2 ^ (8 * i)) ∧ t.mgmt = s.mgmt) ∧
  (∀ (a : Fin 16) (tx k : Bool) (key : BitVec 256) (m : Mode) (s : State), m ≠ .encrypted →
    exec (.aulumKeyWrite a tx k key m) s = .next (emit s (.status .notPermitted))) ∧
  (∀ (a : Fin 16) (k : Bool) (key : BitVec 256) (s : State), (aulPort s a.val).rxKey k = none ∨ rxSet s a.val ≠ k →
    ∃ t : State, exec (.aulumKeyWrite a false k key .encrypted) s = .next t ∧ (aulPort t a.val).rxKey k = some key ∧
      (aulPort t a.val).rxKey (!k) = (aulPort s a.val).rxKey (!k) ∧ t.out = s.out ++ [Out.status .ok] ∧
      t = { s with aul := { s.aul with ports := t.aul.ports }, out := t.out }) ∧
  (∀ (a : Fin 16) (k : Bool) (key : BitVec 256) (s : State), (aulPort s a.val).txKey k = none →
    ∃ t : State, exec (.aulumKeyWrite a true k key .encrypted) s = .next t ∧ (aulPort t a.val).txKey k = some key ∧
      (aulPort t a.val).txKey (!k) = (aulPort s a.val).txKey (!k) ∧ t.out = s.out ++ [Out.status .ok] ∧
      t = { s with aul := { s.aul with ports := t.aul.ports }, out := t.out }) ∧
  (∀ (a : Fin 16) (tx k : Bool) (key : BitVec 256) (s : State),
    (if tx then (aulPort s a.val).txKey k ≠ none ∧ txSet s a.val = k else (aulPort s a.val).rxKey k ≠ none ∧ rxSet s a.val = k) →
    exec (.aulumKeyWrite a tx k key .encrypted) s = .next (emit s (.status .busy))) ∧
  (∀ (a : Fin 16) (s : State), (aulPort s a.val).txKey (!txSet s a.val) ≠ none →
    ∃ t : State, exec (.transmitRollover a) s = .next t ∧ odGet t (0xB100 + a.val) 7 = 1 ∧ t.out = s.out ++ [Out.status .ok] ∧
      t = { s with od := t.od, out := t.out }) ∧
  (∀ (a : Fin 16) (s : State), (aulPort s a.val).txKey (!txSet s a.val) = none →
    exec (.transmitRollover a) s = .next (emit s (.status .wrongState))) ∧
  (∀ (a : Fin 16) (s : State), (aulPort s a.val).txGroup ≠ [] → (∀ v : Nat, v < 16 → readyUnit s a.val v = none) →
    ∃ t : State, exec (.macGroupTimeout a) s = .next t ∧ aulPort t a.val = { aulPort s a.val with macDue := true } ∧
      t = { s with aul := { s.aul with ports := t.aul.ports } })

/-- R248 to R252: a DATA flit in order is accepted and counted, a block that cannot be corrected is discarded and a NAK is due; the Ack
timer moves the Ack field; a NAK or the replay timer replays every unacknowledged flit, or takes the link DOWN at the limit. R246,
R251, R252: what a port sends in a flit time: a NAK that is due, the next flit of a replay, IDLE while nothing is ready, and a new
flit, kept for replay under the next sequence number, where a unit is ready. Of each of these commands it concludes that exec
answers the next state of its own effect: aulumFlitReceive, ackTimerExpire, nakReceived, replayTimerExpire, aulumFlitTransmit. -/
def Obligations.AulumFlitsAndTransmit : Prop :=
  (∀ (a : Fin 16) (b : LaneBlocks) (w : BitVec 2048) (n : Nat) (f : Flit) (s : State),
    linkState s a.val = linkUp → fecDecode (fecBlock (aulPort s a.val).lanes.length b) = some (w, n) → flitOf w = some f → f.type = 1 →
    f.seq = (aulPort s a.val).expect → encrypts s a.val = false →
    ∃ t : State, exec (.aulumFlitReceive a b) s = .next t ∧ (aulPort t a.val).expect = (aulPort s a.val).expect + 1 ∧
      counter t (counterNo 0xC026 2) = counter s (counterNo 0xC026 2) + 1 ∧ (aulPort t a.val).nakAt = none ∧
      (∀ b : Nat, b ≠ a.val → aulPort t b = aulPort s b) ∧ linkState t a.val = linkUp ∧ t.mgmt = s.mgmt) ∧
  (∀ (a : Fin 16) (b : LaneBlocks) (s : State), linkState s a.val = linkUp ∨ linkState s a.val = linkPaused →
    fecDecode (fecBlock (aulPort s a.val).lanes.length b) = none → (aulPort s a.val).nakAt = none →
    ∃ t : State, exec (.aulumFlitReceive a b) s = .next t ∧ (aulPort t a.val).nakDue = true ∧
      (aulPort t a.val).nakAt = some s.time.clock ∧ (aulPort t a.val).expect = (aulPort s a.val).expect ∧
      counter t (counterNo 0xC026 3) = counter s (counterNo 0xC026 3) + 1 ∧
      t = { s with perf := t.perf, aul := { s.aul with ports := t.aul.ports } }) ∧
  (∀ (a : Fin 16) (s : State), (aulPort s a.val).accepted ≠ 0 →
    ∃ t : State, exec (.ackTimerExpire a) s = .next t ∧
      aulPort t a.val = { aulPort s a.val with ack := (aulPort s a.val).expect - 1, accepted := 0 } ∧
      t = { s with aul := { s.aul with ports := t.aul.ports } }) ∧
  (∀ (a : Fin 16) (c : Instr) (f : FlitRec) (rest : List FlitRec) (s : State), linkState s a.val = linkUp →
    (c = .nakReceived a ∧ (aulPort s a.val).nakIn = true) ∨ c = .replayTimerExpire a → (aulPort s a.val).replay = f :: rest →
    ∃ t : State, exec c s = .next t ∧ (aulPort t a.val).nakIn = false ∧ (aulPort t a.val).replay = f :: rest ∧
      (f.tries < odGet s 0x6120 6 → (aulPort t a.val).resend = some 0 ∧ linkState t a.val = linkUp) ∧
      (odGet s 0x6120 6 ≤ f.tries → (aulPort t a.val).resend = none ∧ linkState t a.val = linkDown) ∧
      t = { s with od := t.od, spr := t.spr, perf := t.perf, aul := { s.aul with ports := t.aul.ports } }) ∧
  (∀ (a : Fin 16) (s : State), linkState s a.val = linkUp ∨ linkState s a.val = linkPaused → (aulPort s a.val).nakDue = true →
    (∀ v ∈ allVns, linkQueue s a.val v = []) →
    ∃ t : State, ∃ b : LaneBlocks, exec (.aulumFlitTransmit a) s = .next t ∧ t.out = s.out ++ [Out.aulumFlit a.val b] ∧ (aulPort t a.val).nakDue = false ∧
      counter t (counterNo 0xC026 5) = counter s (counterNo 0xC026 5) + 1 ∧ (aulPort t a.val).seq = (aulPort s a.val).seq ∧
      t = { s with perf := t.perf, aul := { s.aul with ports := t.aul.ports }, out := t.out }) ∧
  (∀ (a : Fin 16) (k : Nat) (f : FlitRec) (s : State), linkState s a.val = linkUp → (aulPort s a.val).nakDue = false →
    (∀ v ∈ allVns, linkQueue s a.val v = []) →
    (aulPort s a.val).resend = some k → (aulPort s a.val).replay[k]? = some f →
    ∃ t : State, ∃ b : LaneBlocks, exec (.aulumFlitTransmit a) s = .next t ∧ t.out = s.out ++ [Out.aulumFlit a.val b] ∧
      (aulPort t a.val).replay = (aulPort s a.val).replay.set k { f with tries := f.tries + 1 } ∧
      (aulPort t a.val).resend = (if k + 1 < (aulPort s a.val).replay.length then some (k + 1) else none) ∧
      counter t (counterNo 0xC026 6) = counter s (counterNo 0xC026 6) + 1 ∧
      t = { s with perf := t.perf, aul := { s.aul with ports := t.aul.ports }, out := t.out }) ∧
  (∀ (a : Fin 16) (s : State), linkState s a.val = linkUp → (aulPort s a.val).nakDue = false →
    (∀ v ∈ allVns, linkQueue s a.val v = []) → (aulPort s a.val).resend = none →
    (aulPort s a.val).macDue = false → (∀ v : Nat, v < 16 → readyUnit s a.val v = none) →
    ∃ t : State, ∃ b : LaneBlocks, exec (.aulumFlitTransmit a) s = .next t ∧ t.out = s.out ++ [Out.aulumFlit a.val b] ∧
      (aulPort t a.val).seq = (aulPort s a.val).seq ∧ (aulPort t a.val).replay = (aulPort s a.val).replay ∧
      t = { s with swc := t.swc, aul := { s.aul with ports := t.aul.ports }, out := t.out }) ∧
  (∀ (a v : Fin 16) (s : State), linkState s a.val = linkUp → (aulPort s a.val).nakDue = false →
    (∀ v ∈ allVns, linkQueue s a.val v = []) → (aulPort s a.val).resend = none →
    (aulPort s a.val).macDue = false → encrypts s a.val = false → (aulPort s a.val).replay.length < odGet s 0x6120 1 →
    (readyUnit s a.val v.val).isSome = true →
    ∃ t : State, ∃ (b : LaneBlocks) (f : FlitRec), exec (.aulumFlitTransmit a) s = .next t ∧ t.out = s.out ++ [Out.aulumFlit a.val b] ∧
      f.seq = (aulPort s a.val).seq ∧ f.mac = false ∧ f.tries = 0 ∧ (aulPort t a.val).replay = (aulPort s a.val).replay ++ [f] ∧
      (aulPort t a.val).seq = (aulPort s a.val).seq + 1 ∧
      counter t (counterNo 0xC026 1) = counter s (counterNo 0xC026 1) + 1 ∧
      t = { s with od := t.od, pow := t.pow, perf := t.perf, swc := t.swc, aul := { s.aul with ports := t.aul.ports }, out := t.out })

/-- R203, R261 to R263, R267: a restart notice is acknowledged, repeated while it is not, and its switch asked for recovery; a grace
ends; a quarantined tag is free again; and the four numbering values are written together while every port is disabled. Of each of
these commands it concludes that exec answers the next state of its own effect: recoveryRequestReceive, restartGraceExpire,
restartNotice, restartNoticeRepeat, restartNoticeAck, quarantineExpire, systemNumberingWrite. -/
def Obligations.RestartsAndNumbering : Prop :=
  (∀ (w : Fin 1024) (e : BitVec 32) (s : State), ∃ t : State, exec (.restartNotice w e) s = .next t ∧
    t.out.getLast? = some (.peer w.val .restartAck) ∧ t.mgmt = s.mgmt) ∧
  (∀ (w : Fin 1024) (e : BitVec 32) (s : State), tabFind? w.val s.aul.epochs = some e →
    exec (.restartNotice w e) s = .next { s with out := s.out ++ [Out.peer w.val .restartAck] }) ∧
  (∀ (w : Fin 1024) (s : State), isMember s w.val = true → w.val ≠ ownSwitch s → w.val ∉ s.aul.acked → pathUp s w.val = true →
    ∃ t : State, exec (.restartNoticeRepeat w) s = .next t ∧
      t.out = s.out ++ [Out.peer w.val (.restartNotice (BitVec.ofNat 32 (odGet s 0x6000 5)))] ∧ w.val ∈ t.aul.noticed ∧
      t = { s with aul := { s.aul with noticed := t.aul.noticed }, out := t.out }) ∧
  (∀ (w : Fin 1024) (s : State), ∃ t : State, exec (.restartNoticeAck w) s = .next t ∧ w.val ∈ t.aul.acked ∧ w.val ∈ t.aul.noticed ∧
    ((∃ p ∈ s.dir.recov, p.2.active = true ∧ w.val ∈ p.2.switches) → w.val ∉ s.dir.asked →
      t.out = s.out ++ [Out.peer w.val .recoveryRequest] ∧ w.val ∈ t.dir.asked) ∧
    ((∀ p ∈ s.dir.recov, p.2.active = false ∨ w.val ∉ p.2.switches) → t.out = s.out ∧ t.dir = s.dir) ∧
    t = { s with dir := { s.dir with asked := t.dir.asked }, aul := { s.aul with acked := t.aul.acked, noticed := t.aul.noticed },
                 out := t.out }) ∧
  (∀ (g : Grace) (rest : List Grace) (s : State), s.aul.graces = g :: rest →
    ∃ t : State, exec .restartGraceExpire s = .next t ∧ t.aul.graces = rest ∧ t.mgmt = s.mgmt) ∧
  (∀ (w : Fin 1024) (s : State), (∀ v : Nat, v < 64 → decodesTo s v w.val = false) → s.mov.lines = [] → s.aul.graces = [] →
    ∃ t : State, exec (.recoveryRequestReceive w) s = .next t ∧ .peer w.val .recoveryDone ∈ t.out ∧
      t = { s with dir := { s.dir with askedBy := t.dir.askedBy }, out := t.out }) ∧
  (∀ (v : Fin 64) (t : Fin 512) (s : State), ∃ r : State, exec (.quarantineExpire (.proxyEntry v t)) s = .next r ∧
    tabFind? t.val (proxy r v.val).quarantine = none ∧ r = { s with prox := r.prox }) ∧
  (∀ (i : Fin 4) (v : BitVec 16) (s : State), (∀ a : Nat, a < 16 → odGet s (aulIdx a) 1 ≠ 1) →
    (let val := fun (j : Nat) => if j = i.val + 1 then v.toNat else odGet s 0x6000 j
     (numberingOk (val 1) (val 2) (val 3) (val 4) = true →
       ∃ t : State, exec (.systemNumberingWrite i v) s = .next t ∧ odGet t 0x6000 (i.val + 1) = v.toNat ∧
         t.out = s.out ++ [Out.status .ok] ∧ t = { s with od := t.od, out := t.out }) ∧
     (numberingOk (val 1) (val 2) (val 3) (val 4) = false →
       exec (.systemNumberingWrite i v) s = .next (emit s (.status .outOfRange))))) ∧
  (∀ (i : Fin 4) (v : BitVec 16) (a : Fin 16) (s : State), odGet s (aulIdx a.val) 1 = 1 →
    exec (.systemNumberingWrite i v) s = .next (emit s (.status .portActive)))

/-- R280, R283 to R286: the states of a queue: enabling reads its QCB and takes what it says or the ERROR state; disabling stops it; a
doorbell to an enabled queue has its QCB read, one to another is ignored and counted. Of each of these commands it concludes that
exec answers the next state of its own effect: queueEnable, qcbEnableReadDone, queueDisable, sqStopComplete, sqDoorbell, cqDoorbell.
-/
def Obligations.MoverQueues : Prop :=
  (∀ (fn : Fin 1088) (loc : Fin 4096) (addr : BitVec 64) (q : Nat) (s : State), resetPending s fn.val = false →
    sqOf s fn.val loc.val = some q → (sq s q).st = .disabled → (sq s q).reading = false →
    ∃ t : State, exec (.queueEnable fn false loc addr) s = .next t ∧
      sq t q = { sq s q with qcb := addr.toNat / 64 * 64, reading := true } ∧ t.mov.cqs = s.mov.cqs ∧ t.mgmt = s.mgmt) ∧
  (∀ (fn : Fin 1088) (loc : Fin 4096) (addr : BitVec 64) (q : Nat) (s : State), resetPending s fn.val = false →
    cqOf s fn.val loc.val = some q → (cq s q).st = .disabled → (cq s q).reading = false →
    ∃ t : State, exec (.queueEnable fn true loc addr) s = .next t ∧
      cq t q = { cq s q with qcb := addr.toNat / 64 * 64, reading := true } ∧ t.mov.sqs = s.mov.sqs ∧ t.mgmt = s.mgmt) ∧
  (∀ (q : Fin 4096) (u : State) (a : MovAcc) (s : State), takeAccess (absorbHost s) (.enable false q.val) = some (u, a) →
    ∃ t : State, exec (.qcbEnableReadDone false q) s = .next t ∧ (sq t q.val).reading = false ∧ (sq t q.val).qcb = (sq s q.val).qcb ∧
      t.mgmt = s.mgmt ∧
      (∀ code : Nat, sqCheck u ((sq s q.val).owner - 1) a = some code → (sq t q.val).st = .error ∧ (sq t q.val).err = code) ∧
      (sqCheck u ((sq s q.val).owner - 1) a = none → (sq t q.val).st = .enabled ∧ (sq t q.val).err = 0 ∧
        (sq t q.val).n = qcbField a 16 1 ∧ (sq t q.val).ring = qcbField a 8 8 ∧
        (sq t q.val).c = BitVec.ofNat 32 (qcbField a 0 4) ∧ (sq t q.val).p = (sq t q.val).c)) ∧
  (∀ (q : Fin 4096) (u : State) (a : MovAcc) (s : State), takeAccess (absorbHost s) (.enable true q.val) = some (u, a) →
    ∃ t : State, exec (.qcbEnableReadDone true q) s = .next t ∧ (cq t q.val).reading = false ∧ t.mgmt = s.mgmt ∧
      (∀ code : Nat, cqCheck a = some code → (cq t q.val).st = .error ∧ (cq t q.val).err = code) ∧
      (cqCheck a = none → (cq t q.val).st = .enabled ∧ (cq t q.val).n = qcbField a 16 1 ∧ (cq t q.val).ring = qcbField a 8 8 ∧
        (cq t q.val).vec = qcbField a 18 2 ∧ (cq t q.val).d = BitVec.ofNat 32 (qcbField a 0 4) ∧ (cq t q.val).hold = [])) ∧
  (∀ (fn : Fin 1088) (loc : Fin 4096) (q : Nat) (s : State), resetPending s fn.val = false → sqOf s fn.val loc.val = some q →
    ∃ t : State, exec (.queueDisable fn false loc) s = .next t ∧ t.mov.cqs = s.mov.cqs ∧ t.mgmt = s.mgmt ∧
      ((sq s q).st = .enabled → sq t q = { sq s q with st := .stopping, kept := [], fetching := [], pend := false }) ∧
      ((sq s q).st = .error → sq t q = { sq s q with st := .disabled, err := 0 }) ∧
      ((sq s q).st = .disabled ∨ (sq s q).st = .stopping → t.mov.sqs = s.mov.sqs)) ∧
  (∀ (fn : Fin 1088) (loc : Fin 4096) (q : Nat) (s : State), resetPending s fn.val = false → cqOf s fn.val loc.val = some q →
    ∃ t : State, exec (.queueDisable fn true loc) s = .next t ∧ t.mov.sqs = s.mov.sqs ∧ t.mgmt = s.mgmt ∧
      ((cq s q).st ≠ .disabled → (∀ p ∈ s.mov.sqs, p.2.owner = fn.val + 1 → p.2.cq = q → p.2.st = .disabled) →
        cq t q = { cq s q with st := .disabled, err := 0 }) ∧
      ((∃ p ∈ s.mov.sqs, p.2.owner = fn.val + 1 ∧ p.2.cq = q ∧ p.2.st ≠ .disabled) → t.mov.cqs = s.mov.cqs)) ∧
  (∀ (q : Fin 4096) (s : State), (sq s q.val).st = .stopping → (∀ e ∈ s.mov.execs, e.sq ≠ q.val) →
    ∃ t : State, exec (.sqStopComplete q) s = .next t ∧ sq t q.val = { sq s q.val with st := .disabled, since := 0 } ∧
      t.mov.cqs = s.mov.cqs ∧ t.mgmt = s.mgmt) ∧
  (∀ (fn : Fin 1088) (loc : Fin 4096) (q : Nat) (s : State), resetPending s fn.val = false → sqOf s fn.val loc.val = some q →
    (sq s q).st = .enabled →
    ∃ t : State, exec (.sqDoorbell fn loc) s = .next t ∧ t.mov.cqs = s.mov.cqs ∧ t.mgmt = s.mgmt ∧
      sq t q = { sq s q with idle := false, reading := true, pend := (sq s q).reading }) ∧
  (∀ (fn : Fin 1088) (loc : Fin 4096) (q : Nat) (s : State), resetPending s fn.val = false → cqOf s fn.val loc.val = some q →
    (cq s q).st = .enabled →
    ∃ t : State, exec (.cqDoorbell fn loc) s = .next t ∧ t.mov.sqs = s.mov.sqs ∧ t.mgmt = s.mgmt ∧
      cq t q = { cq s q with reading := true, pend := (cq s q).reading }) ∧
  (∀ (fn : Fin 1088) (loc : Fin 4096) (s : State),
    (sqOf s fn.val loc.val = none → ∃ t : State, exec (.sqDoorbell fn loc) s = .next (moverTurn t) ∧ t = { s with perf := t.perf } ∧
      counter t (counterNo 0xC028 8) = counter s (counterNo 0xC028 8) + 1) ∧
    (cqOf s fn.val loc.val = none → ∃ t : State, exec (.cqDoorbell fn loc) s = .next (moverTurn t) ∧ t = { s with perf := t.perf } ∧
      counter t (counterNo 0xC028 8) = counter s (counterNo 0xC028 8) + 1))

/-- R281, R285, R286, R288: a QCB read gives the producer index of an SQ or the consumer index of a CQ, a producer index too far ahead
is an error, and a fetched descriptor with a device-owned mark is kept for dispatch. R296, R297, R303: finished pieces leave an
execution and further ones start, and an execution that nothing keeps ends with its completion. Of each of these commands it
concludes that exec answers the next state of its own effect: sqQcbReadDone, descriptorFetchDone, cqQcbReadDone, pieceComplete,
descriptorComplete. -/
def Obligations.MoverReadsAndEnds : Prop :=
  (∀ (q : Fin 4096) (u : State) (a : MovAcc) (s : State), takeAccess (absorbHost s) (.sqQcb q.val) = some (u, a) →
    (sq s q.val).st = .enabled → a.failed = false →
    ∃ t : State, exec (.sqQcbReadDone q) s = .next (moverTurn (dispatchReserved t q.val 16)) ∧ t.mgmt = s.mgmt ∧
      ((BitVec.ofNat 32 (qcbField a 0 4) - (sq s q.val).c).toNat ≤ 2 ^ (sq s q.val).n →
        (sq t q.val).st = .enabled ∧ (sq t q.val).p = BitVec.ofNat 32 (qcbField a 0 4) ∧ (sq t q.val).c = (sq s q.val).c) ∧
      (2 ^ (sq s q.val).n < (BitVec.ofNat 32 (qcbField a 0 4) - (sq s q.val).c).toNat →
        (sq t q.val).st = .error ∧ (sq t q.val).err = 7 ∧ (sq t q.val).kept = [])) ∧
  (∀ (q : Fin 1024) (u : State) (a : MovAcc) (s : State), takeAccess (absorbHost s) (.cqQcb q.val) = some (u, a) → a.failed = false →
    ∃ t : State, exec (.cqQcbReadDone q) s = .next t ∧ (cq t q.val).c = BitVec.ofNat 32 (qcbField a 0 4) ∧ t.mov.sqs = s.mov.sqs ∧
      t.mgmt = s.mgmt) ∧
  (∀ (q : Fin 4096) (i : BitVec 32) (a : MovAcc) (s : State), fetchedNext (absorbHost s) q.val = some (i, a) → a.failed = false →
    (sq s q.val).st = .enabled → dMark (BitVec.ofNat 512 (leValue a.bytes)) = ownMark (sq s q.val).n i →
    ∃ t : State, exec (.descriptorFetchDone q) s = .next (moverTurn (dispatchReserved t q.val 16)) ∧ t.mgmt = s.mgmt ∧
      (i, BitVec.ofNat 512 (leValue a.bytes)) ∈ (sq t q.val).kept ∧ (sq t q.val).st = .enabled) ∧
  (∀ (q : Fin 4096) (i : BitVec 32) (e : Exec) (s : State), execAt (settleAll 4096 (absorbHost s)) q.val i = some e →
    ∃ u : State, exec (.pieceComplete q i) s = .next (moverTurn (startPieces u e.id 16)) ∧
      (∀ x ∈ u.mov.execs, x.id = e.id → x.pieces = e.pieces.filter (fun p => !pieceOver e p)) ∧ u.mgmt = s.mgmt ∧
      u.mov.sqs = s.mov.sqs) ∧
  (∀ (q : Fin 4096) (i : BitVec 32) (e : Exec) (s : State),
    execAt (moverTurn (absorbHost s)) q.val i = some e → bodyOver (moverTurn (absorbHost s)) e = true →
    execBusy (moverTurn (absorbHost s)) e.id = false →
    ∃ t : State, exec (.descriptorComplete q i) s = .next (moverTurn (dispatchReserved t q.val 16)) ∧ (∀ x ∈ t.mov.execs, x.id ≠ e.id) ∧
      t.mov.sqs = s.mov.sqs ∧ t.mgmt = s.mgmt ∧
      (e.dropped = true → t.mov.cqs = s.mov.cqs))

/-- R282, R290, R294: the descriptor at the head of an SQ is dispatched by the command of its row alone: the consumer index counts it, a
completion slot is taken, and an execution of it exists, which the command's operation starts. Of each of these commands it
concludes that exec answers the next state of its own effect: nop, copy, fill, zero, compare, check, atomicFetchAdd, atomicSwap,
atomicCompareAndSwap, flush, fence, mark, migrateGranule. -/
def Obligations.DescriptorDispatch : Prop :=
  ∀ (q : Fin 4096) (i : Instr) (r : DescRow) (d : BitVec 512) (s1 s : State),
    (i, r) ∈ [(Instr.nop q, DescRow.nop), (.copy q, .copy), (.fill q, .fill), (.zero q, .zero), (.compare q, .compare),
      (.check q, .check), (.atomicFetchAdd q, .fetchAdd), (.atomicSwap q, .swap), (.atomicCompareAndSwap q, .cas), (.flush q, .flush),
      (.fence q, .fence), (.mark q, .mark), (.migrateGranule q, .migrate)] →
    headDesc s q.val = some d → rowOf (ownMark (sq s q.val).n (sq s q.val).c) d = some r → headReady s q.val = true →
    mayServe s q.val = true →
    (let x := sq s q.val
     let staged := lpddrUnplaced s
     let bad := if staged.2 then some 0x21
       else malformed staged.1 x.fmt (x.owner - 1) (ownMark x.n x.c) (vcsOfFn s (x.owner - 1)) d
     spendFor? staged.1 (x.owner - 1) (if bad.isSome then 1 else dispatchCost d) = some s1 →
     ∃ u : State, ∃ e : Exec, exec i s = .next (moverTurn (dispatchReserved (afterDispatch
         (unitsShown (if bad.isSome then u else startDesc u e)) q.val) q.val 16)) ∧
       u.mov.execs = s.mov.execs ++ [e] ∧ e.id = s.mov.nextNo ∧ e.sq = q.val ∧ e.index = x.c ∧ e.desc = d ∧ e.fn = x.owner - 1 ∧
       e.cq = x.cq ∧ e.result = bad.map (fun c => (c, 0)) ∧ (sq u q.val).c = x.c + 1 ∧ (∀ k ∈ (sq u q.val).kept, k.1 ≠ x.c) ∧
       (cq u x.cq).slots = (cq s x.cq).slots + 1 ∧ u.mgmt = s.mgmt ∧ u.time = s.time)

/-- R307, R309: a CXL.io request at the head of the mover's queues that is whole leaves its queue and becomes work of the mover; its
command takes no other kind; and in the safe state an AtomicOp is turned away. R171, R263, R278, R298, R310, R311: the mover cache
gives up a line that is snooped, takes the line that it asked for, discards a stray answer and is flushed whole on command; a check
unit's owner and context are written while nothing uses it. Of each of these commands it concludes that exec answers the next state
of its own effect: poolMemoryRead, poolMemoryWrite, poolDeferrableMemoryWrite, poolFetchadd, poolSwap, poolCas, moverCacheSnoop,
flushWholeMoverCache, checkUnitOwnerWrite, checkUnitContextWrite, moverCacheResponse. -/
def Obligations.PoolRequestsAndCache : Prop :=
  (∀ (i : Instr) (vn : Vn) (k : TlpKind) (atomic : Bool) (h : Held) (p : Tlp) (s : State),
    (i, vn, k, atomic) ∈ [(Instr.poolMemoryRead, Vn.ion, TlpKind.memRead, false), (.poolMemoryWrite, .iop, .memWrite, false),
      (.poolDeferrableMemoryWrite, .ion, .deferrableWrite, false), (.poolFetchadd, .ion, .fetchAdd, true),
      (.poolSwap, .ion, .swap, true), (.poolCas, .ion, .cas, true)] →
    headPacket s vn = some (h, p) →
    (p.kind ≠ k → exec i s = .next s) ∧
    (vn = .ion → postedQueued s p.requester h.since = true → exec i s = .next s) ∧
    (p.kind = k → packetLast s vn h = true → vn = .iop ∨ postedQueued s p.requester h.since = false →
      atomic = false ∨ s.flt.safe = false →
      ∃ u : State, ∃ w : TlpWork, exec i s = .next (poolTurn u) ∧ u.mov.tlps = s.mov.tlps ++ [w] ∧ w.tlp = p ∧ w.src = h.u.src ∧ w.tag = h.u.tag ∧
        w.acc = none ∧ ejectBuf u moverStop 1 vn = packetRemoved (ejectBuf s moverStop 1 vn) h ∧ u.mgmt = s.mgmt ∧ u.mov.sqs = s.mov.sqs) ∧
    (p.kind = k → packetLast s vn h = true → postedQueued s p.requester h.since = false → atomic = true → s.flt.safe = true →
      ∃ t : State, exec i s = .next t ∧ t.mov.tlps = s.mov.tlps ∧ t.mgmt = s.mgmt)) ∧
  (∀ (h : Held) (s : State), ((ejectBuf s moverStop 2 .snp).find? fun g => !snoopWaits s g.u) = some h →
    ∃ t : State, exec .moverCacheSnoop s = .next t ∧ mcFind t ((switchOf h.u.src).getD (ownSwitch s)) h.u.line = none ∧
      t.mov.sqs = s.mov.sqs ∧ t.mgmt = s.mgmt) ∧
  (∀ (dat : Bool) (h : Held) (s : State), nackFirst (ejectBuf s moverStop 2 (if dat then .dat else .rsp)) = some h →
    (tabFind? h.u.tag.toNat s.mov.quar).isSome = true →
    ∃ u : State, exec (.moverCacheResponse dat) s = .next (poolTurn u) ∧ u.mov = s.mov ∧
      counter u (counterNo 0xC026 0x0C) = counter s (counterNo 0xC026 0x0C) + 1 ∧ u.mgmt = s.mgmt) ∧
  (∀ (h : Held) (f : CacheFill) (s : State), nackFirst (ejectBuf s moverStop 2 .dat) = some h → h.u.vn = .dat →
    h.u.type.toNat % 4 = 2 → cacheStray s h.u = false → poolPart s h.u.tag.toNat = none →
    (s.mov.fills.find? fun g => decide (g.tag = h.u.tag.toNat)) = some f →
    ∃ u : State, exec (.moverCacheResponse true) s = .next (poolTurn u) ∧ (∀ g ∈ u.mov.fills, g.tag ≠ f.tag) ∧
      (mcFind u f.home f.line).isSome = true ∧ u.mov.sqs = s.mov.sqs ∧ u.mgmt = s.mgmt) ∧
  (∀ s : State, ∃ t : State, exec .flushWholeMoverCache s = .next t ∧ t.out = s.out ++ [Out.status .ok] ∧ t.mov.sqs = s.mov.sqs ∧
    t.mgmt = s.mgmt ∧ (s.mov.lines = [] → t = { s with mov := { s.mov with flushAll := false }, out := t.out })) ∧
  (∀ (u : Fin 16) (fn : BitVec 16) (s : State), odGet s (0x7400 + u.val) 3 ≠ 1 →
    (fn.toNat ≤ 1087 ∨ fn = 0xFFFF →
      ∃ t : State, exec (.checkUnitOwnerWrite u fn) s = .next t ∧ odGet t (0x7400 + u.val) 1 = fn.toNat ∧ t.out = s.out ++ [Out.status .ok] ∧
        t = { s with od := t.od, out := t.out }) ∧
    (1087 < fn.toNat → fn ≠ 0xFFFF → exec (.checkUnitOwnerWrite u fn) s = .next (emit s (.status .outOfRange)))) ∧
  (∀ (u : Fin 16) (w : BitVec 512) (s : State), odGet s (0x7400 + u.val) 3 ≠ 1 →
    (ctxInRange w = true →
      ∃ t : State, exec (.checkUnitContextWrite u w) s = .next t ∧ tabGet 0 u.val t.mov.ctx = packCtx (unpackCtx w) ∧ t.out = s.out ++ [Out.status .ok] ∧
        t = { s with mov := { s.mov with ctx := t.mov.ctx }, out := t.out }) ∧
    (ctxInRange w = false → exec (.checkUnitContextWrite u w) s = .next (emit s (.status .outOfRange)))) ∧
  (∀ (u : Fin 16) (fn : BitVec 16) (w : BitVec 512) (s : State), odGet s (0x7400 + u.val) 3 = 1 →
    exec (.checkUnitOwnerWrite u fn) s = .next (emit s (.status .busy)) ∧
      exec (.checkUnitContextWrite u w) s = .next (emit s (.status .busy)))

/-- R318, R319, R322 to R324: a function goes to a free slot of its VCS and leaves it through a reset; a disabled queue moves with its
reset contents, share moves in whole amounts and a counter set moves to a function that holds none; each is refused otherwise. Of
each of these commands it concludes that exec answers the next state of its own effect: functionAssign, functionUnassign, queueMove,
shareMove, counterSetMove. -/
def Obligations.FunctionsAndResources : Prop :=
  (∀ (f : Fin 1024) (v : Fin 255) (j : Fin 2048) (s : State), assignment s f.val = none → v.val ≤ 63 → j.val ≠ 0 →
    j.val ≤ odGet s (0x7C00 + v.val) 9 → funcAtSlot s v.val j.val = none → resetPending s f.val = false →
    ∃ t : State, exec (.functionAssign f v j) s = .next t ∧ assignment t f.val = some (v.val, j.val) ∧ t.out = s.out ++ [Out.status .ok] ∧
      t = { s with od := t.od, spr := t.spr, perf := t.perf, out := t.out }) ∧
  (∀ (f : Fin 1024) (v : Fin 255) (j : Fin 2048) (s : State), assignment s f.val = none →
    (63 < v.val ∨ j.val = 0 ∨ odGet s (0x7C00 + v.val) 9 < j.val →
      exec (.functionAssign f v j) s = .next (emit s (.status .outOfRange))) ∧
    (v.val ≤ 63 → j.val ≠ 0 → j.val ≤ odGet s (0x7C00 + v.val) 9 → funcAtSlot s v.val j.val ≠ none →
      exec (.functionAssign f v j) s = .next (emit s (.status .slotTaken)))) ∧
  (∀ (f : Fin 1024) (s : State), assignment s f.val ≠ none → resetPending s f.val = false →
    ∃ t : State, exec (.functionUnassign f) s = .next t ∧ (func t f.val).leaving = true ∧ (func t f.val).resetPending = true ∧
      odGet t (funcIdx f.val) 6 = 1 ∧ t.out = s.out ++ [Out.status .ok] ∧
      t = { s with od := t.od, mov := t.mov, ven := { s.ven with funcs := t.ven.funcs }, out := t.out }) ∧
  (∀ (f : Fin 1024) (s : State), resetPending s f.val = true →
    exec (.functionUnassign f) s = .next (emit s (.status .busy))) ∧
  (∀ (x : BitVec 32) (q : Fin 4096) (o : Option (Fin 1088)) (loc : Fin 4096) (s : State),
    (sq s q.val).st = .disabled → (sq s q.val).reading = false → ownerPending s (sq s q.val).owner = false →
    (∀ n : Fin 1088, o = some n → resetPending s n.val = false ∧ ∀ r : Nat, sqOf s n.val loc.val = some r → r = q.val) →
    ∃ t : State, exec (.queueMove x false q o loc) s = .next t ∧ (sq t q.val).owner = (match o with | some n => n.val + 1 | none => 0) ∧
      (sq t q.val).st = .disabled ∧ (∀ r : Nat, r ≠ q.val → sq t r = sq s r) ∧
      counter t (counterNo 0xC029 4) = counter s (counterNo 0xC029 4) + 1 ∧ t.out = s.out ++ [Out.status .ok] ∧
      t = { s with od := t.od, spr := { s.spr with sessions := t.spr.sessions }, perf := t.perf,
                   mov := { s.mov with sqs := t.mov.sqs }, out := t.out }) ∧
  (∀ (x : BitVec 32) (q : Fin 4096) (o : Option (Fin 1088)) (loc : Fin 4096) (s : State), q.val < 1024 → loc.val < 1024 →
    (cq s q.val).st = .disabled → (cq s q.val).reading = false → (cq s q.val).hold = [] → ownerPending s (cq s q.val).owner = false →
    (∀ n : Fin 1088, o = some n → resetPending s n.val = false ∧ ∀ r : Nat, cqOf s n.val loc.val = some r → r = q.val) →
    ∃ t : State, exec (.queueMove x true q o loc) s = .next t ∧ (cq t q.val).owner = (match o with | some n => n.val + 1 | none => 0) ∧
      (cq t q.val).st = .disabled ∧ (∀ r : Nat, r ≠ q.val → cq t r = cq s r) ∧ t.out = s.out ++ [Out.status .ok] ∧
      t = { s with od := t.od, spr := { s.spr with sessions := t.spr.sessions }, perf := t.perf,
                   mov := { s.mov with cqs := t.mov.cqs }, out := t.out }) ∧
  (∀ (x : BitVec 32) (q : Fin 4096) (o : Option (Fin 1088)) (loc : Fin 4096) (s : State), (sq s q.val).st ≠ .disabled →
    ∃ t : State, exec (.queueMove x false q o loc) s = .next t ∧ t.out = s.out ++ [Out.status .queueActive] ∧
      t = { s with spr := { s.spr with sessions := t.spr.sessions }, out := t.out }) ∧
  (∀ (a b : Fin 1088) (n : BitVec 16) (s : State), a ≠ b → n.toNat ≤ odGet s (funcIdx a.val) 3 →
    odGet s (funcIdx b.val) 3 + n.toNat ≤ 65535 →
    ∃ t : State, exec (.shareMove a b n) s = .next t ∧ odGet t (funcIdx a.val) 3 = odGet s (funcIdx a.val) 3 - n.toNat ∧
      odGet t (funcIdx b.val) 3 = odGet s (funcIdx b.val) 3 + n.toNat ∧ t.out = s.out ++ [Out.status .ok] ∧
      t = { s with od := t.od, out := t.out }) ∧
  (∀ (a b : Fin 1088) (n : BitVec 16) (s : State), odGet s (funcIdx a.val) 3 < n.toNat →
    exec (.shareMove a b n) s = .next (emit s (.status .shareShort))) ∧
  (∀ (c : Fin 1024) (f : Fin 1024) (s : State), (∀ d : Nat, heldSet s f.val = some d → d = c.val) →
    ∃ t : State, exec (.counterSetMove c (some f)) s = .next t ∧ tabGet (c.val + 1) c.val t.ven.setOwner = f.val + 1 ∧
      odGet t (funcIdx f.val) 4 = c.val ∧ t.out = s.out ++ [Out.status .ok] ∧
      t = { s with od := t.od, ven := { s.ven with setOwner := t.ven.setOwner }, out := t.out }) ∧
  (∀ (c : Fin 1024) (s : State), ∃ t : State, exec (.counterSetMove c none) s = .next t ∧
    tabGet (c.val + 1) c.val t.ven.setOwner = 0 ∧ t.out = s.out ++ [Out.status .ok] ∧
    t = { s with od := t.od, ven := { s.ven with setOwner := t.ven.setOwner }, out := t.out }) ∧
  (∀ (c : Fin 1024) (f : Fin 1024) (d : Nat) (s : State), heldSet s f.val = some d → d ≠ c.val →
    exec (.counterSetMove c (some f)) s = .next (emit s (.status .setTaken)))

/-- R332 to R334: every kind of reset of a function stops its queues and marks it until nothing of it is outstanding, when the reset
completes and an unassigned function leaves its slot. Of each of these commands it concludes that exec answers the next state of its
own effect: functionLevelReset, vfEnableClear, functionResetComplete, controlPageReset, functionReset. -/
def Obligations.FunctionResets : Prop :=
  (∀ (n : Fin 1088) (i : Instr) (s : State), i = .controlPageReset n ∨ i = .functionReset n ∨ (i = .functionLevelReset n ∧ n.val < 1024) →
    resetPending s n.val = false →
    ∃ t : State, exec i s = .next t ∧ resetPending t n.val = true ∧ (func t n.val).vecPending = [] ∧ odGet t (funcIdx n.val) 6 = 1 ∧
      (∀ p ∈ t.mov.sqs, p.2.owner = n.val + 1 → p.2.st = .disabled) ∧ (∀ p ∈ t.mov.cqs, p.2.owner = n.val + 1 → p.2.st = .disabled) ∧
      (∀ e ∈ t.mov.execs, e.fn = n.val → e.dropped = true) ∧
      t = { s with od := t.od, mov := t.mov, ven := { s.ven with funcs := t.ven.funcs }, out := t.out }) ∧
  (∀ (v : Fin 64) (n : Fin 1088) (s : State), n.val = 1024 + v.val → ∃ t : State, exec (.functionLevelReset n) s = .next t ∧
    resetPending t n.val = true ∧ (∀ f : Nat, f < 1024 → (assignment s f).map Prod.fst = some v.val → resetPending t f = true) ∧
    t = { s with od := t.od, mov := t.mov, ven := { s.ven with funcs := t.ven.funcs } }) ∧
  (∀ (v : Fin 64) (s : State), ∃ t : State, exec (.vfEnableClear v) s = .next t ∧ v.val ∉ t.ven.vfEnable ∧
    (∀ f : Nat, f < 1024 → (assignment s f).map Prod.fst = some v.val → resetPending t f = true) ∧
    t = { s with od := t.od, mov := t.mov, ven := { s.ven with funcs := t.ven.funcs, vfEnable := t.ven.vfEnable } }) ∧
  (∀ (n : Fin 1088) (u s : State), u = dropGone (dropPieces (moverTurn (absorbHost s))) → (func u n.val).resetPending = true →
    fnBusy u n.val = false →
    ∃ t : State, exec (.functionResetComplete n) s = .next t ∧ func t n.val = { func u n.val with resetPending := false, leaving := false } ∧
      odGet t (funcIdx n.val) 6 = 0 ∧ counter t (counterNo 0xC029 3) = counter u (counterNo 0xC029 3) + 1 ∧
      ((func u n.val).leaving = true → odGet t (funcIdx n.val) 1 = unassigned) ∧
      t = { u with od := t.od, perf := t.perf, ven := { u.ven with funcs := t.ven.funcs } })

/-- R328, R330, R331: a log channel: enabled with a valid block it clears its bitmap and then logs; disabled it is OFF; its producer
index is written back, its control block is read on a doorbell, and entries that have been read are re-armed. Of each of these
commands it concludes that exec answers the next state of its own effect: logProducerWriteback, logDoorbell, logRearmDone,
logEnable, logDisable, resetBitmap, bitmapClearDone. -/
def Obligations.LogChannels : Prop :=
  (∀ (c : Fin 1088) (w : BitVec 512) (s : State), (logCh s c.val).state = .off → 9 ≤ (w.extractLsb' 192 8).toNat →
    (w.extractLsb' 192 8).toNat ≤ 20 → (w.extractLsb' 128 64).toNat % 4096 = 0 → windowValid s c.val = true →
    ∃ t : State, exec (.logEnable c (some w)) s = .next t ∧ odGet t (logIdx c.val) 0x10 = 1 ∧ t.out.getLast? = some (.status .ok) ∧
      logCh t c.val = { logCh s c.val with
        state := .resetting, n := (w.extractLsb' 192 8).toNat, ring := (w.extractLsb' 128 64).toNat, d := w.extractLsb' 0 32,
        r := w.extractLsb' 0 32, pages := [], outside := false, unsent := 0, rearm := none } ∧
      (∀ d : Nat, d ≠ c.val → logCh t d = logCh s d) ∧ t.mgmt = s.mgmt) ∧
  (∀ (c : Fin 1088) (lcb : Option (BitVec 512)) (s : State), (logCh s c.val).state = .off →
    lcb = none ∨ windowValid s c.val = false → exec (.logEnable c lcb) s = .next (emit s (.status .lcbInvalid))) ∧
  (∀ (c : Fin 1088) (s : State), (logCh s c.val).state ≠ .off →
    ∃ t : State, exec (.logDisable c) s = .next t ∧ odGet t (logIdx c.val) 0x10 = 0 ∧ odGet t (logIdx c.val) 0x15 = 0 ∧
      logCh t c.val = { logCh s c.val with state := .off, rearm := none } ∧ (∀ d : Nat, d ≠ c.val → logCh t d = logCh s d) ∧
      t.mgmt = s.mgmt) ∧
  (∀ (c : Fin 1088) (i : BitVec 32) (s : State), (logCh s c.val).state = .logging ∨ (logCh s c.val).state = .overflow →
    ∃ t : State, exec (.resetBitmap c i) s = .next t ∧ (∀ d : Nat, d ≠ c.val → logCh t d = logCh s d) ∧ t.mgmt = s.mgmt ∧
      logCh t c.val = { logCh s c.val with
        state := .resetting, d := i, r := i, pages := [], outside := false, unsent := 0, rearm := none }) ∧
  (∀ (c : Fin 1088) (s : State), (logCh s c.val).state = .resetting →
    ∃ t : State, exec (.bitmapClearDone c) s = .next t ∧ logCh t c.val = { logCh s c.val with state := .logging } ∧
      odGet t (logIdx c.val) 0x15 = 1 ∧ t.mgmt = s.mgmt) ∧
  (∀ (c : Fin 1088) (s : State), (logCh s c.val).unsent ≠ 0 →
    ∃ t : State, exec (.logProducerWriteback c) s = .next t ∧ logCh t c.val = { logCh s c.val with unsent := 0 } ∧
      (∀ d : Nat, d ≠ c.val → logCh t d = logCh s d) ∧ t.mgmt = s.mgmt) ∧
  (∀ (v : Fin 64) (c : Fin 1088) (s : State), odGet s (logIdx c.val) 0x11 = v.val → (logCh s c.val).state ≠ .off →
    ∃ u : State, ∃ a : MovAcc, exec (.logDoorbell v c) s = .next (moverTurn u) ∧ u.mov.accs = s.mov.accs ++ [a] ∧ a.use = .lcb c.val ∧ a.write = false ∧
      u = { s with mov := { s.mov with accs := u.mov.accs, nextNo := u.mov.nextNo } }) ∧
  (∀ (c : Fin 1088) (i : BitVec 32) (u s : State), u = moverTurn (absorbHost s) → (logCh u c.val).rearm = some i →
    (∀ a ∈ u.mov.accs, a.use = .relog c.val → a.over = true ∧ a.failed = false) → (logCh u c.val).state ≠ .off →
    ∃ t : State, exec (.logRearmDone c) s = .next t ∧ (logCh t c.val).rearm = none ∧ (logCh t c.val).r = i ∧
      (∀ p ∈ (logCh t c.val).pages, p ∈ (logCh u c.val).pages) ∧ t.mgmt = s.mgmt)

/-- R336 to R338, R340, R346: supplies: two samples in a row above or below a threshold decide, the loss of VIN12 takes the main domain
with it, start-up begins when VAUX is good, and after a loss of VAUX the log is saved and the auxiliary domain ends. R356 to R362,
R492: an epoch of the governor grants what the budget allows, a hot sensor narrows ports until every sensor is cool, power over the
cap is reported, and a reference clock's stability is shown and decides what may train. Of each of these commands it concludes that
exec answers the next state of its own effect: supplySample, vauxPowerGood, vin12Qualified, crashSnapshot, auxiliaryDomainOff,
governorEpoch, thermalNarrowing, thermalResponseEnd, powerCapExceeded, refclkStable, refclkLost. -/
def Obligations.SuppliesAndClocks : Prop :=
  (∀ (vinMv vinMa vauxMv vauxMa resMv : Nat) (s : State), s.pow.vauxGood = false → s.pow.vauxStage = .none → s.pow.mainOn = false →
    ∃ t : State, exec (.supplySample vinMv vinMa vauxMv vauxMa resMv) s = .next t ∧ t.pow.vin12.mV = vinMv ∧ t.pow.resMv = resMv ∧
      (10600 < vinMv → vinMv ≤ 14000 → s.pow.vin12.ovp = false → 1 ≤ s.pow.vin12.nGood → t.pow.vin12.good = true) ∧
      (10600 < vinMv → s.pow.vin12.good = false → s.pow.vin12.nGood = 0 → t.pow.vin12.good = false) ∧
      (vinMv < 10400 → 1 ≤ s.pow.vin12.nLost → t.pow.vin12.good = false) ∧
      (14000 < vinMv → 1 ≤ s.pow.vin12.nOver → t.pow.vin12.ovp = true ∧ t.pow.vin12.good = false) ∧
      (2650 < vauxMv → vauxMv ≤ 5800 → s.pow.vaux.ovp = false → 1 ≤ s.pow.vaux.nGood → t.pow.vaux.good = true) ∧
      t = { s with pow := t.pow }) ∧
  (∀ (vinMv vinMa vauxMv vauxMa resMv : Nat) (s : State), s.pow.vauxGood = true → s.pow.vauxStage = .none → s.pow.mainOn = true →
    s.pow.vaux.good = true → s.pow.vaux.ovp = false → 2650 < vauxMv → vauxMv ≤ 5600 → vinMv < 10400 → 1 ≤ s.pow.vin12.nLost →
    ∃ t : State, exec (.supplySample vinMv vinMa vauxMv vauxMa resMv) s = .next t ∧ t.pow.mainOn = false ∧ t.pow.step = 3 ∧
      t.pins.ready = false ∧ t.pow.vauxGood = true) ∧
  (∀ s : State, s.pow.vaux.good = true → s.pow.vauxGood = false → s.pow.vauxStage = .none →
    ∃ t : State, exec .vauxPowerGood s = .next t ∧ t.pow.vauxGood = true ∧ t.pow.step = 1 ∧ t.perf = perfReset ∧ t.flt.log.length = 1 ∧
      t = { s with flt := t.flt, pow := t.pow, perf := t.perf }) ∧
  (∀ s : State, s.pow.vin12.good = true → exec .vin12Qualified s = .next { s with pow := { s.pow with vinQualified := true } }) ∧
  (∀ s : State, s.pow.vauxStage = .onReservoir → s.spr.commit = none → s.pow.vaux.good = false →
    ∃ t : State, exec .crashSnapshot s = .next t ∧ t.flt.frozen = true ∧ t.pow.vauxStage = .snapshotDone ∧
      (holdupPasses s 262144 = true → odGet t 0x8030 4 = 1 ∧ t.flt.crash = s.flt.log.drop (s.flt.log.length - 4096)) ∧
      (holdupPasses s 262144 = false → odGet t 0x8030 4 = 2 ∧ t.flt.crash = s.flt.crash) ∧
      t = { s with od := t.od, flt := { s.flt with frozen := true, crash := t.flt.crash },
                   pow := { s.pow with vauxStage := .snapshotDone } }) ∧
  (∀ s : State, s.pow.vaux.good = false → s.pow.vauxStage = .snapshotDone ∨ (s.pow.vauxStage = .onReservoir ∧ s.pow.resMv ≤ 8000) →
    ∃ t : State, exec .auxiliaryDomainOff s = .next t ∧ t.flt.log = [] ∧ t.flt.crash = s.flt.crash ∧ t.mgmt.cores = State.reset.mgmt.cores ∧
      t.mgmt.sram = [] ∧ t.spr.slot0 = s.spr.slot0 ∧ t.spr.slot1 = s.spr.slot1 ∧ t.spr.sessions = [] ∧ t.sec.counters = s.sec.counters ∧
      t.sec.banks = s.sec.banks ∧ t.pow.vauxGood = false ∧ t.pending = s.pending ∧ odGet t 0x8030 4 = odGet s 0x8030 4) ∧
  (∀ (w : Nat) (d : List Nat) (s : State), s.pow.mainOn = true →
    ∃ t : State, exec (.governorEpoch w [] d) s = .next t ∧ t.pow.gov.drawn = [0, 0, 0, 0] ∧ t.pow.gov.power = w ∧
      t.pow.gov.epochs = some (s.pow.gov.epochs.getD 0 + 1) ∧ t.pow.gov.grants.length = 4 ∧
      (∀ k : Nat, k < 4 → t.pow.gov.grants.getD k 0 ≤ max (odGet s 0x8102 (k + 1)) (odGet s 0x8103 (k + 1))) ∧
      t = { s with od := t.od, flt := t.flt, pow := { s.pow with gov := t.pow.gov }, perf := t.perf, mov := { s.mov with shares := [] } }) ∧
  (∀ s : State, s.pow.gov.thermal = true → s.pow.gov.alerted = false → (∀ p : Nat, p < 96 → narrowable s p = false) →
    ∃ t : State, exec .thermalNarrowing s = .next t ∧ t.pow.gov.alerted = true ∧ (tabFind? 443 t.flt.pairs).isSome = true ∧
      t = { s with flt := t.flt, pow := { s.pow with gov := { s.pow.gov with alerted := true } } }) ∧
  (∀ (p : Fin 96) (s : State), s.pow.gov.thermal = true → narrowable s p.val = true →
    ∃ t : State, exec .thermalNarrowing s = .next t ∧ p.val ∈ t.port.narrowed ∧
      odGet t (0x2100 + p.val) 0x16 = max (odGet s (0x2100 + p.val) 7) (odGet s (0x2100 + p.val) 0x16 / 2) ∧
      t = { s with od := t.od, perf := t.perf, port := { s.port with narrowed := t.port.narrowed } }) ∧
  (∀ s : State, s.pow.gov.thermal = true → (∀ n : Nat, n < 64 → sensorUsed s n < (odGet s 0x8111 (n + 1) : Int) - 5) →
    ∃ t : State, exec .thermalResponseEnd s = .next t ∧ t.pow.gov.thermal = false ∧ odGet t 0x8113 1 = 0 ∧
      (∀ p : Nat, p < 96 → p ∉ t.port.narrowed) ∧
      t = { s with od := t.od, perf := t.perf, pow := { s.pow with gov := { s.pow.gov with thermal := false, alerted := false } },
                   port := { s.port with narrowed := t.port.narrowed } }) ∧
  (∀ s : State, 100 ≤ s.pow.gov.overCap →
    ∃ t : State, exec .powerCapExceeded s = .next t ∧ (tabFind? 444 t.flt.pairs).isSome = true ∧
      t = { s with flt := { s.flt with pairs := t.flt.pairs } }) ∧
  (∀ (r : Fin 21) (s : State), s.pow.vauxGood = true →
    ∃ t : State, exec (.refclkStable r) s = .next t ∧
      odGet t (if r.val < 16 then 0x8041 else if r.val < 20 then 0x8042 else 0x8043)
        (if r.val < 16 then r.val + 1 else if r.val < 20 then r.val - 15 else 1) = 1 ∧ t = { s with od := t.od, port := t.port }) ∧
  (∀ (r : Fin 21) (s : State), r.val < 16 →
    ∃ u : State, exec (.refclkLost r) s = .next ((List.range 6).foldl (fun t i => portLinkLost t (6 * r.val + i)) u) ∧
      odGet u 0x8041 (r.val + 1) = 0 ∧ u = { s with od := u.od }) ∧
  (∀ (r : Fin 21) (s : State), 16 ≤ r.val → ∃ t : State, exec (.refclkLost r) s = .next t ∧
    (r.val < 20 → odGet t 0x8042 (r.val - 15) = 0 ∧ ∀ i : Nat, i < 4 → linkState t (4 * (r.val - 16) + i) ≠ linkUp) ∧
    (r.val = 20 → odGet t 0x8043 1 = 0) ∧ t = { s with od := t.od, spr := t.spr, perf := t.perf, aul := t.aul })

/-- R347 to R350, R354: what a slot channel's tick and its timers do to its state; what the change does to its port follows. R349, R351:
a slot channel is enabled, disabled and cleared by the dictionary, and its power requested and withdrawn. Of each of these commands
it concludes that exec answers the next state of its own effect: slotTick, insertionDelayExpire, retryTimerExpire,
gateWontRiseExpire, retryCountClear, faultTimerExpire, rampTimeout, slotChannelEnable, slotChannelDisable, clearLatch, powerRequest.
-/
def Obligations.SlotChannels : Prop :=
  (∀ (c : Fin 48) (m : SlotSample) (s : State), s.pow.vauxGood = true →
    ∃ u : State, exec (.slotTick c m) s = .next (slotPower s u c.val) ∧ (∀ d : Nat, d ≠ c.val → slotCh u d = slotCh s d) ∧
      u = { s with flt := u.flt, pow := { s.pow with slots := u.pow.slots }, perf := u.perf } ∧
      ((slotCh s c.val).state = .empty → m.present = true →
        (slotCh u c.val).state = .qualifying ∧ (slotCh u c.val).insertTimer = true) ∧
      ((slotCh s c.val).state = .qualifying ∨ (slotCh s c.val).state = .idle → m.present = false → (slotCh u c.val).state = .empty) ∧
      ((slotCh s c.val).state = .idle → m.present = true → slotRequest s c.val (slotCh s c.val) = true →
        (slotCh u c.val).state = .qualifying) ∧
      ((slotCh s c.val).state.driving = true → 2 * odGet s (0x8200 + c.val) 8 ≤ m.cur →
        (slotCh u c.val).state = .tripped ∧ (slotCh u c.val).cause = 1 ∧ (slotCh u c.val).powerGood = false ∧
          (slotCh u c.val).pfail = true ∧ (slotCh u c.val).retryTimer = true ∧
          counter u (counterNo 0xC02A 2) = counter s (counterNo 0xC02A 2) + 1 ∧ (tabFind? (160 + c.val) u.flt.pairs).isSome = true) ∧
      ((slotCh s c.val).state = .disabled ∨ (slotCh s c.val).state = .tripped ∨ (slotCh s c.val).state = .latched →
        (slotCh u c.val).state = (slotCh s c.val).state ∧ (slotCh u c.val).vin = m.vin)) ∧
  (∀ (c : Fin 48) (m : SlotSample) (x : SlotCh) (s : State), s.pow.vauxGood = true → (slotCh s c.val).state = .ramping →
    x = slotSampled s c.val (slotCh s c.val) m → m.cur < 2 * odGet s (0x8200 + c.val) 8 →
    slotHot s c.val { x with faultTimer := false, lowTicks := 0 } = false → slotLimiting s c.val x m = false → m.present = true →
    x.inWindow = true → slotRequest s c.val (slotCh s c.val) = true → m.vin * 95 ≤ m.vout * 100 → m.vin + 8000 ≤ m.gate →
    ∃ u : State, exec (.slotTick c m) s = .next (slotPower s u c.val) ∧ (slotCh u c.val).state = .on ∧ (slotCh u c.val).powerGood = true ∧
      (slotCh u c.val).pfail = false ∧ (∀ d : Nat, d ≠ c.val → slotCh u d = slotCh s d) ∧
      u = { s with pow := { s.pow with slots := u.pow.slots } }) ∧
  (∀ (c : Fin 48) (s : State), (slotCh s c.val).state = .qualifying → (slotCh s c.val).insertTimer = true →
    ∃ t : State, exec (.insertionDelayExpire c) s = .next t ∧ (slotCh t c.val).qualified = true ∧
      (slotCh t c.val).state = (if slotRequest s c.val (slotCh s c.val) then .ramping else .idle) ∧
      (∀ d : Nat, d ≠ c.val → slotCh t d = slotCh s d) ∧ t = { s with pow := { s.pow with slots := t.pow.slots } }) ∧
  (∀ (c : Fin 48) (i : Instr) (k : Nat) (s : State),
    (i = .faultTimerExpire c ∧ k = 1 ∧ (slotCh s c.val).state.driving = true ∧ (slotCh s c.val).faultTimer = true) ∨
      (i = .rampTimeout c ∧ k = 3 ∧ (slotCh s c.val).state = .ramping ∧ (slotCh s c.val).rampTimer = true ∧
        (slotCh s c.val).vout * 100 < (slotCh s c.val).vin * 95) →
    ∃ u : State, exec i s = .next (slotPower s u c.val) ∧ slotCh u c.val = (slotCh s c.val).trip k ∧
      counter u (counterNo 0xC02A 2) = counter s (counterNo 0xC02A 2) + 1 ∧ (tabFind? (160 + c.val) u.flt.pairs).isSome = true ∧
      u = { s with flt := u.flt, pow := { s.pow with slots := u.pow.slots }, perf := u.perf }) ∧
  (∀ (c : Fin 48) (s : State), (slotCh s c.val).state = .ramping → (slotCh s c.val).gateWindow = true →
    ∃ u : State, exec (.gateWontRiseExpire c) s = .next (slotPower s u c.val) ∧ (slotCh u c.val).state = .latched ∧
      (slotCh u c.val).cause = 5 ∧ counter u (counterNo 0xC02A 3) = counter s (counterNo 0xC02A 3) + 1 ∧
      u = { s with flt := u.flt, pow := { s.pow with slots := u.pow.slots }, perf := u.perf }) ∧
  (∀ (c : Fin 48) (s : State), (slotCh s c.val).state = .tripped → (slotCh s c.val).retryTimer = true →
    (slotCh s c.val).cause ≠ 2 →
    (odGet s (0x8200 + c.val) 0xC = 0 ∨ (slotCh s c.val).retries < odGet s (0x8200 + c.val) 0xC →
      ∃ t : State, exec (.retryTimerExpire c) s = .next t ∧
        (slotCh t c.val).state = (if (slotCh s c.val).present then .qualifying else .empty) ∧
        t = { s with pow := { s.pow with slots := t.pow.slots } }) ∧
    (0 < odGet s (0x8200 + c.val) 0xC → odGet s (0x8200 + c.val) 0xC ≤ (slotCh s c.val).retries →
      ∃ u : State, exec (.retryTimerExpire c) s = .next (slotPower s u c.val) ∧ (slotCh u c.val).state = .latched ∧
        (slotCh u c.val).cause = 6 ∧ u = { s with flt := u.flt, pow := { s.pow with slots := u.pow.slots }, perf := u.perf })) ∧
  (∀ (c : Fin 48) (s : State), (slotCh s c.val).state = .on →
    ∃ t : State, exec (.retryCountClear c) s = .next t ∧ slotCh t c.val = { slotCh s c.val with retries := 0 } ∧
      (∀ d : Nat, d ≠ c.val → slotCh t d = slotCh s d) ∧ t = { s with pow := { s.pow with slots := t.pow.slots } }) ∧
  (∀ (c : Fin 48) (s : State), ∃ t : State, exec (.slotChannelEnable c) s = .next t ∧ odGet t (0x8200 + c.val) 1 = 1 ∧
    (slotCh t c.val).state = (if (slotCh s c.val).state = .disabled then .empty else (slotCh s c.val).state) ∧
    t.out = s.out ++ [Out.status .ok] ∧ t = { s with od := t.od, pow := { s.pow with slots := t.pow.slots }, out := t.out }) ∧
  (∀ (c : Fin 48) (s : State), ∃ u : State, exec (.slotChannelDisable c) s = .next (emit (slotPower s u c.val) (.status .ok)) ∧
    odGet u (0x8200 + c.val) 1 = 0 ∧ (slotCh u c.val).state = .disabled ∧ (slotCh u c.val).powerGood = false ∧
    u = { s with od := u.od, pow := { s.pow with slots := u.pow.slots } }) ∧
  (∀ (c : Fin 48) (s : State), (slotCh s c.val).state = .latched →
    (slotRequest s c.val (slotCh s c.val) = false →
      ∃ t : State, exec (.clearLatch c) s = .next t ∧ slotCh t c.val = { slotCh s c.val with state := .empty, cause := 0 } ∧
        t.out = s.out ++ [Out.status .ok] ∧ t = { s with pow := { s.pow with slots := t.pow.slots }, out := t.out }) ∧
    (slotRequest s c.val (slotCh s c.val) = true → exec (.clearLatch c) s = .next (emit s (.status .busy)))) ∧
  (∀ (c : Fin 48) (s : State), (slotCh s c.val).state = .idle → (slotCh s c.val).hostRequest = none → (slotCh s c.val).dropped = false →
    ∃ t : State, exec (.powerRequest c true false) s = .next t ∧ odGet t (0x8200 + c.val) 2 = 1 ∧ (slotCh t c.val).state = .qualifying ∧
      (slotCh t c.val).insertTimer = true ∧ t.out = s.out ++ [Out.status .ok] ∧
      t = { s with od := t.od, pow := { s.pow with slots := t.pow.slots }, out := t.out }) ∧
  (∀ (c : Fin 48) (s : State), (slotCh s c.val).state.driving = true → (slotCh s c.val).hostRequest = none →
    ∃ u : State, exec (.powerRequest c false false) s = .next (emit (slotPower s u c.val) (.status .ok)) ∧
      (slotCh u c.val).state = .idle ∧ (slotCh u c.val).powerGood = false ∧ odGet u (0x8200 + c.val) 2 = 0)

/-- R367, R370 to R374, R376: an access that its MPU or the path matrix does not let through is answered by the bus error that the rules
name, with nothing else done; one that its target stalls is outstanding; and of two masters the arbiter takes one. Of each of these
commands it concludes that exec answers the next state of its own effect: busAccess. -/
def Obligations.BusAccesses : Prop :=
  (∀ (r : BusReq) (s : State), r.master.val = 4 → targetOf r.addr.toNat = none → r.stalls = false →
    (outstanding s r.master).length < 16 →
    ∃ t : State, exec (.busAccess [r]) s = .next t ∧ t.out = s.out ++ [Out.busError 4 r.id .unmapped] ∧
      counter t (counterNo 0xC02B 1) = counter s (counterNo 0xC02B 1) + 1 ∧
      odGet t 0x9004 1 = 4 * 2 ^ 40 + 3 * 2 ^ 32 + r.addr.toNat ∧
      t = { s with od := t.od, perf := t.perf, mgmt := { s.mgmt with rrPtr := t.mgmt.rrPtr, lastDma := t.mgmt.lastDma }, out := t.out }) ∧
  (∀ (r : BusReq) (tg : Target) (s : State), r.master.val = 4 → targetOf r.addr.toNat = some tg → tg.lockedRegion = true →
    r.stalls = false → (outstanding s r.master).length < 16 →
    ∃ t : State, exec (.busAccess [r]) s = .next t ∧ t.out = s.out ++ [Out.busError 4 r.id .locked] ∧
      counter t (counterNo 0xC02B 3) = counter s (counterNo 0xC02B 3) + 1 ∧ (tabFind? 445 t.flt.pairs).isSome = true ∧
      t = { s with od := t.od, flt := t.flt, perf := t.perf, mgmt := { s.mgmt with rrPtr := t.mgmt.rrPtr, lastDma := t.mgmt.lastDma }, out := t.out }) ∧
  (∀ (r : BusReq) (n p : Nat) (l : List Nat) (s : State), r.master.val < 4 → r.kind = .read n → targetOf r.addr.toNat ≠ some .mpuRegs →
    r.stalls = false → (outstanding s r.master).length < 16 → partsRefused (coreSt s r.master) r.addr.toNat r.kind = p :: l →
    ∃ t : State, exec (.busAccess [r]) s = .next t ∧ t.out = s.out ++ [Out.busError r.master r.id .mpu] ∧
      counter t (counterNo 0xC02B 2) = counter s (counterNo 0xC02B 2) + 1 ∧ (coreSt t r.master).level = .p0 ∧
      (coreSt t r.master).saved = (coreSt s r.master).level :: (coreSt s r.master).saved ∧
      (coreSt t r.master).lastExc = some .mpu ∧ (∀ k : Nat, k ≠ r.master.val → coreSt t k = coreSt s k) ∧
      t.mgmt.sram = s.mgmt.sram) ∧
  (∀ (r : BusReq) (d : List Byte) (s : State), r.master.val = 5 → targetOf r.addr.toNat = some .mramGeneral → r.kind = .write d →
    r.stalls = false → (outstanding s r.master).length < 16 →
    ∃ t : State, exec (.busAccess [r]) s = .next t ∧ t.out = s.out ++ [Out.busError 5 r.id .target] ∧
      t = { s with od := t.od, perf := t.perf, mgmt := { s.mgmt with rrPtr := t.mgmt.rrPtr, lastDma := t.mgmt.lastDma }, out := t.out }) ∧
  (∀ (r : BusReq) (tg : Target) (s : State), r.stalls = true → (outstanding s r.master).length < 16 → refusedParts s r = [] →
    crossbar s r = .inr tg →
    ∃ t : State, exec (.busAccess [r]) s = .next t ∧
      outstanding t r.master = outstanding s r.master ++ [{ id := r.id, addr := r.addr.toNat, target := tg.no }] ∧
      t.mgmt.held = s.mgmt.held ++ [{ target := tg.no, req := r, deny := [], silent := false, late := false }] ∧
      t = { s with mgmt := { s.mgmt with rrPtr := t.mgmt.rrPtr, lastDma := t.mgmt.lastDma, cores := t.mgmt.cores, outstanding := t.mgmt.outstanding, held := t.mgmt.held } }) ∧
  (∀ (r : BusReq) (s : State), 16 ≤ (outstanding s r.master).length →
    ∃ t : State, exec (.busAccess [r]) s = .next t ∧
      t = { s with mgmt := { s.mgmt with rrPtr := t.mgmt.rrPtr, lastDma := t.mgmt.lastDma } }) ∧
  (∀ (c d : BusReq) (n m : Nat) (s : State), c.master.val = 4 → d.master.val = 5 → s.sec.unlocked = true →
    s.sec.permissions.getLsbD 0 = true → targetOf c.addr.toNat = some .sram → targetOf d.addr.toNat = some .sram →
    c.kind = .read n → d.kind = .read m → c.stalls = false → d.stalls = false → targetWaits s .sram = false → (outstanding s 4).length < 16 →
    (outstanding s 5).length < 16 →
    ∃ t : State, exec (.busAccess [c, d]) s = .next t ∧
      t.out = s.out ++ [if tabGet false 0 s.mgmt.lastDma then .busData 4 c.id (sramRead s c.addr.toNat n)
        else .busData 5 d.id (sramRead s d.addr.toNat m)])

/-- R365, R375, R377 to R379, R383, R384, R434: the timeout of a transaction and its late response, the window into the fabric, a core's
MPU registers, the return from an exception and the post register. Of each of these commands it concludes that exec answers the next
state of its own effect: busTimeout, lateResponse, apertureSelectWrite, apertureAccess, mpuCommit, mpuCopy, exceptionReturn,
eventLogPost. -/
def Obligations.ManagementEvents : Prop :=
  (∀ (m : Fin 6) (i : Fin 16) (x : BusTxn) (s : State), (outstanding s m).find? (fun y => decide (y.id = i.val)) = some x →
    ∃ t : State, exec (.busTimeout m i) s = .next t ∧ outstanding t m = (outstanding s m).erase x ∧
      t.mgmt.held = mapFirst (heldBy m.val i.val false) (fun h => { h with late := true }) s.mgmt.held ∧
      t.out = s.out ++ [Out.busError m i .timeout] ∧ (tabFind? 446 t.flt.pairs).isSome = true ∧
      counter t (counterNo 0xC02B 4) = counter s (counterNo 0xC02B 4) + 1 ∧
      t = { s with od := t.od, flt := t.flt, perf := t.perf, mgmt := { s.mgmt with outstanding := t.mgmt.outstanding, held := t.mgmt.held, cores := t.mgmt.cores }, out := t.out }) ∧
  (∀ (m : Fin 6) (i : Fin 16) (h : HeldTxn) (tg : Target) (s : State), s.mgmt.held.find? (heldBy m.val i.val true) = some h →
    s.mgmt.held.find? (fun x => decide (x.target = h.target)) = some h → targetOf h.req.addr.toNat = some tg →
    (∀ x : HeldTxn, x ∈ s.mgmt.held.erase h → x.target ≠ h.target) →
    ∃ t : State, exec (.lateResponse m i) s = .next t ∧ t.out = s.out ∧ t.mgmt.held = s.mgmt.held.erase h ∧
      counter t (counterNo 0xC02B 5) = counter s (counterNo 0xC02B 5) + 1) ∧
  (∀ (m : Fin 6) (i : Fin 16) (h : HeldTxn) (d : List Byte) (s : State), s.mgmt.held.find? (heldBy m.val i.val true) = some h →
    s.mgmt.held.find? (fun x => decide (x.target = h.target)) = some h → targetOf h.req.addr.toNat = some .sram →
    h.req.kind = .write d → (∀ x : HeldTxn, x ∈ s.mgmt.held.erase h → x.target ≠ h.target) →
    exec (.lateResponse m i) s = .next (bumpC (sramWrite { s with mgmt := { s.mgmt with held := s.mgmt.held.erase h } }
      (letsThrough h.deny) h.req.addr.toNat d) 0xC02B 5)) ∧
  (∀ (v : BitVec 32) (s : State), ∃ t : State, exec (.apertureSelectWrite v) s = .next t ∧ odGet t 0x9006 1 = v.toNat % 1024 ∧
    t = { s with od := t.od }) ∧
  (∀ (m : Fin 6) (i : Fin 16) (o : Fin 0x40000000) (x n : Nat) (s : State), s.pow.mainOn = true →
    fabricAddr (odGet s 0x9006 1 * 2 ^ 30 + o.val) = .lpddr x →
    ∃ t : State, exec (.apertureAccess m i o (.read n)) s = .next t ∧ t.out = s.out ++ [Out.busData m i (lpddrRead s x n)] ∧
      t = { s with fresh := s.fresh + 1, out := t.out }) ∧
  (∀ (m : Fin 6) (i : Fin 16) (o : Fin 0x40000000) (k : BusKind) (s : State), s.pow.mainOn = false →
    ∃ t : State, exec (.apertureAccess m i o k) s = .next t ∧ t.out = s.out ++ [Out.busError m i .mainOff]) ∧
  (∀ (m : Fin 6) (i : Fin 16) (o : Fin 0x40000000) (n g : Nat) (d : List Byte) (s : State), s.pow.mainOn = true →
    fabricAddr (odGet s 0x9006 1 * 2 ^ 30 + o.val) = .agent n g → agentReachable s n g = true →
    exec (.apertureAccess m i o (.write d)) s = .next (busAck (agentWritten s) m i)) ∧
  (∀ (k : Fin 4) (s : State), ∃ t : State, exec (.mpuCommit k) s = .next t ∧
    coreSt t k = { coreSt s k with activeB := !(coreSt s k).activeB, epoch := (coreSt s k).epoch + 1, refetch := true } ∧
    (∀ j : Nat, j ≠ k.val → coreSt t j = coreSt s j) ∧ counter t (counterNo 0xC02B 6) = counter s (counterNo 0xC02B 6) + 1 ∧
    t = { s with perf := t.perf, mgmt := { s.mgmt with cores := t.mgmt.cores } }) ∧
  (∀ (k : Fin 4) (s : State), ∃ t : State, exec (.mpuCopy k) s = .next t ∧ (coreSt t k).activeB = (coreSt s k).activeB ∧
    (∀ j : Nat, j < 32 → regionOf (coreSt t k) (!(coreSt s k).activeB) j = regMask (regionOf (coreSt s k) (coreSt s k).activeB j) ∧
      regionOf (coreSt t k) (coreSt s k).activeB j = regionOf (coreSt s k) (coreSt s k).activeB j) ∧
    (∀ j : Nat, j ≠ k.val → coreSt t j = coreSt s j) ∧ t = { s with mgmt := { s.mgmt with cores := t.mgmt.cores } }) ∧
  (∀ (k : Fin 4) (l : Level) (rest : List Level) (s : State), (coreSt s k).saved = l :: rest →
    ∃ t : State, exec (.exceptionReturn k) s = .next t ∧ coreSt t k = { coreSt s k with
      level := if (coreSt s k).level.code ≤ l.code then l else (coreSt s k).level, saved := rest } ∧
      (∀ j : Nat, j ≠ k.val → coreSt t j = coreSt s j) ∧ t = { s with fresh := s.fresh + 1, mgmt := { s.mgmt with cores := t.mgmt.cores } }) ∧
  (∀ (m : Fin 6) (i : Fin 16) (code : BitVec 16) (d : BitVec 192) (s : State), 0x8000 ≤ code.toNat → s.flt.frozen = false →
    ∃ t : State, ∃ e : LogEntry, exec (.eventLogPost m i code d) s = .next t ∧ t.out = s.out ++ [Out.busAck m i] ∧ t.flt.log.getLast? = some e ∧
      e.source = 0x0200 ∧ e.code = code ∧ e.data = d ∧ e.seq = BitVec.ofNat 64 s.flt.nextSeq ∧ t.flt.nextSeq = s.flt.nextSeq + 1 ∧
      t = { s with flt := { s.flt with log := t.flt.log, nextSeq := t.flt.nextSeq }, out := t.out }) ∧
  (∀ (m : Fin 6) (i : Fin 16) (code : BitVec 16) (d : BitVec 192) (s : State), code.toNat < 0x8000 →
    exec (.eventLogPost m i code d) s = .next (busError s m i 0x08500100 .target))

/-- R395, R397, R400: the answer of an executed request is sent with the status code of the session's version, kept among the last 8 and
counted; a repeated request is answered with the message kept, one of which nothing is kept with STALE, one in no open session with
NO_SESSION, and one with a wrong tag is discarded and reported. Of each of these commands it concludes that exec answers the next
state of its own effect: keepalive. -/
def Obligations.RequestAnswers : Prop :=
  (∀ (id seq reqId type : Nat) (via : Transport) (st : Status) (body : List Byte) (x : Session) (s : State), session? s id = some x →
    (let t := finish s id seq reqId type via st body
     let msg := message seq type 0x80 (st.sent x.protocol) id reqId body
     t.out = s.out ++ [Out.message via msg] ∧ counter t (counterNo 0xC02C 1) = counter s (counterNo 0xC02C 1) + 1 ∧
       (st ≠ .ok → counter t (counterNo 0xC02C 2) = counter s (counterNo 0xC02C 2) + 1) ∧
       (∀ y : Session, session? t id = some y → y.kept = ((seq, msg) :: x.kept).take 8 ∧ ∀ e ∈ y.executing, e.1 ≠ seq) ∧
       t = { s with spr := { s.spr with sessions := t.spr.sessions }, perf := t.perf, out := t.out })) ∧
  (∀ (r : Req) (x : Session) (h : Nat) (msg : List Byte) (s : State), s.spr.serving = true → transportRefuses s r.via = false →
    session? s r.session = some x → x.mode = .plain ∨ r.tagOk = true → x.high = some h → r.seq ≤ h →
    (x.kept.find? fun k => decide (k.1 = r.seq)) = some (r.seq, msg) →
    ∃ t : State, exec (.keepalive r) s = .next t ∧ t.out = s.out ++ [Out.message r.via msg] ∧
      t = { s with spr := { s.spr with sessions := t.spr.sessions }, out := t.out }) ∧
  (∀ (r : Req) (x : Session) (h : Nat) (s : State), s.spr.serving = true → transportRefuses s r.via = false →
    session? s r.session = some x → x.mode = .plain ∨ r.tagOk = true → x.high = some h → r.seq ≤ h →
    (∀ k ∈ x.kept, k.1 ≠ r.seq) → (∀ e ∈ x.executing, e.1 ≠ r.seq) →
    ∃ t : State, exec (.keepalive r) s = .next t ∧ t.out = s.out ++ [Out.message r.via (message r.seq 3 0x80 0x0F r.session r.reqId [])] ∧
      counter t (counterNo 0xC02C 6) = counter s (counterNo 0xC02C 6) + 1) ∧
  (∀ (r : Req) (s : State), s.spr.serving = true → transportRefuses s r.via = false → session? s r.session = none →
    ∃ t : State, exec (.keepalive r) s = .next t ∧ t.out = s.out ++ [Out.message r.via (message r.seq 3 0x80 0x0D r.session r.reqId [])] ∧
      t = { s with perf := t.perf, out := t.out }) ∧
  (∀ (r : Req) (x : Session) (s : State), s.spr.serving = true → transportRefuses s r.via = false → session? s r.session = some x →
    x.mode ≠ .plain → r.tagOk = false →
    ∃ t : State, exec (.keepalive r) s = .next t ∧ (tabFind? 447 t.flt.pairs).isSome = true ∧ t = { s with flt := t.flt })

/-- R402, R403, R407 to R410: sessions open, live and close, and subscriptions with them; a NOTIFY carries what is queued. Of each of
these commands it concludes that exec answers the next state of its own effect: hello, bye, keepalive, subscribe, unsubscribe,
notify, sessionTimeout, usbDetach, mailboxNotifyFetch. -/
def Obligations.Sessions : Prop :=
  (∀ (seq reqId : BitVec 32) (via : Transport) (pmax omax : BitVec 16) (m : Mode) (mx : BitVec 32) (name : List Byte)
      (spdm : Option Nat) (s : State), s.spr.serving = true → transportEnabled s via = true →
    (helloRefusal s via pmax.toNat omax.toNat mx.toNat m spdm = none →
      ∃ t : State, ∃ (x : Session) (body : List Byte), exec (.hello seq reqId via pmax omax m mx name spdm) s = .next t ∧ t.spr.sessions = s.spr.sessions ++ [x] ∧
        x.id = s.spr.nextSession ∧ x.transport = via ∧ x.mode = m ∧ x.protocol = min pmax.toNat 0x0203 ∧ x.subs = [] ∧ x.high = none ∧
        t.out = s.out ++ [Out.message via (message seq.toNat 1 0x80 0 x.id reqId.toNat body)] ∧
        counter t (counterNo 0xC02C 4) = counter s (counterNo 0xC02C 4) + 1 ∧
        t = { s with spr := { s.spr with sessions := t.spr.sessions, nextSession := t.spr.nextSession }, perf := t.perf, out := t.out }) ∧
    (∀ st : Status, helloRefusal s via pmax.toNat omax.toNat mx.toNat m spdm = some st →
      ∃ t : State, exec (.hello seq reqId via pmax omax m mx name spdm) s = .next t ∧
        t.out = s.out ++ [Out.message via (message seq.toNat 1 0x80 st.code.1 0 reqId.toNat [])] ∧
        t = { s with perf := t.perf, out := t.out })) ∧
  (∀ (r : Req) (x : Session) (s : State), freshRequest s r x 0x0100 →
    exec (.keepalive r) s = .next (finish (takenState s r) r.session r.seq r.reqId 3 r.via .ok [])) ∧
  (∀ (r : Req) (x : Session) (s : State), freshRequest s r x 0x0100 →
    ∃ t : State, exec (.bye r) s = .next t ∧ session? t r.session = none ∧ (∀ g ∈ t.spr.segs, g.session ≠ r.session) ∧
      t.out = s.out ++ [Out.message r.via (message r.seq 2 0x80 0 r.session r.reqId [])] ∧
      t = { s with spr := { s.spr with sessions := t.spr.sessions, segs := t.spr.segs }, perf := t.perf, out := t.out }) ∧
  (∀ (id : BitVec 32) (s : State), ∃ t : State, exec (.sessionTimeout id) s = .next t ∧ session? t id.toNat = none ∧
    (∀ x ∈ s.spr.sessions, x.id ≠ id.toNat → x ∈ t.spr.sessions) ∧
    t = { s with spr := { s.spr with sessions := t.spr.sessions, segs := t.spr.segs } }) ∧
  (∀ s : State, ∃ t : State, exec .usbDetach s = .next t ∧ (∀ x ∈ t.spr.sessions, x.transport ≠ .usb) ∧
    (∀ x ∈ s.spr.sessions, x.transport ≠ .usb → x ∈ t.spr.sessions) ∧
    t = { s with spr := { s.spr with sessions := t.spr.sessions, segs := t.spr.segs } }) ∧
  (∀ (r : Req) (x : Session) (g : Byte) (i : BitVec 16) (n : BitVec 32) (s : State), freshRequest s r x 0x0200 → 1 ≤ g.toNat →
    g.toNat ≤ 12 → x.subs.length < 64 → (s.spr.sessions.map fun y => y.subs.length).foldl (· + ·) 0 < 1024 →
    ∃ u : State, exec (.subscribe r 2 g i n) s = .next (finish u r.session r.seq r.reqId 0x0C r.via .ok (leBytes 2 x.nextSub)) ∧
      (∀ y : Session, session? u r.session = some y → y.nextSub = x.nextSub + 1 ∧ y.subs = x.subs ++
        [{ number := x.nextSub, kind := 2, index := 0, sub := g.toNat, intervalMs := 0, lastValue := none, lastTime := 0 }]) ∧
      u = { s with spr := { s.spr with sessions := u.spr.sessions } }) ∧
  (∀ (r : Req) (x : Session) (b : Subscription) (n : BitVec 16) (s : State), freshRequest s r x 0x0200 → b ∈ x.subs →
    b.number = n.toNat →
    ∃ u : State, exec (.unsubscribe r n) s = .next (finish u r.session r.seq r.reqId 0x0D r.via .ok []) ∧
      (∀ y : Session, session? u r.session = some y → y.subs = x.subs.filter fun c => decide (c.number ≠ n.toNat)) ∧
      u = { s with spr := { s.spr with sessions := u.spr.sessions } }) ∧
  (∀ (id : BitVec 32) (x : Session) (s : State), session? s id.toNat = some x → transportPushed x.transport = true →
    x.queue ≠ [] → dueRecords s x = [] →
    ∃ t : State, exec (.notify id) s = .next t ∧ t.out = s.out ++ [Out.message x.source (message x.notifySeq 0x0E 0x40 0 id.toNat 0
        ((x.queue.take ((x.maxMessage - 16) / 32)).flatMap NotifyRec.bytes))] ∧
      (∀ y : Session, session? t id.toNat = some y → y.queue = x.queue.drop ((x.maxMessage - 16) / 32)) ∧
      t = { s with spr := { s.spr with sessions := t.spr.sessions }, perf := t.perf, out := t.out }) ∧
  (∀ (v : Fin 64) (x : Session) (s : State), s.spr.serving = true → transportEnabled s (.mailbox v.val) = true →
    (s.spr.sessions.filter fun y => decide (y.transport = .mailbox v.val)) = [x] → session? s x.id = some x → x.queue ≠ [] →
    dueRecords s x = [] →
    ∃ t : State, exec (.mailboxNotifyFetch v) s = .next t ∧ t.out = s.out ++ [Out.message x.source (message x.notifySeq 0x0E 0x40 0 x.id 0
        ((x.queue.take ((x.maxMessage - 16) / 32)).flatMap NotifyRec.bytes))] ∧
      t = { s with spr := { s.spr with sessions := t.spr.sessions }, perf := t.perf, out := t.out }) ∧
  (∀ (v : Fin 64) (s : State), s.spr.serving = true → transportEnabled s (.mailbox v.val) = false →
    exec (.mailboxNotifyFetch v) s = .next (emit s (.mailboxUnsupported v)))

/-- R386, R388, R389, R393, R398, R399, R405, R406: READ and WRITE treat their items in order; DESCRIBE, segmented transfer and COMMAND
name one entry; and each refuses what the entry's row does not allow. Of each of these commands it concludes that exec answers the
next state of its own effect: read, write, describe, segRead, segWrite, command. -/
def Obligations.DictionaryRequests : Prop :=
  (∀ (r : Req) (x : Session) (items : List (BitVec 16 × Byte)) (s : State), freshRequest s r x 0x0100 →
    (items ≠ [] → items.length ≤ maxItems x.protocol →
      ∃ u : State, ∃ (st : Status) (b : List Byte), exec (.read r items) s = .next (finish u r.session r.seq r.reqId 4 r.via st b) ∧
        (u, st, b) = readItems (takenState s r) (takenSession s r x) (items.map fun i => (i.1.toNat, i.2.toNat))) ∧
    (items = [] ∨ maxItems x.protocol < items.length →
      exec (.read r items) s = .next (finish (takenState s r) r.session r.seq r.reqId 4 r.via .malformed []))) ∧
  (∀ (x : Session) (i u : Nat) (d : DictRow) (s : State), highestSub? x i u = none → visibleRow? x i u = some d →
    (d.access = .ro ∨ d.access = .const ∨ d.access = .rw → d.type ≠ .domain → readConflict s x i u = false →
      readItem s x i u = (s, .ok, d.type.code, entryBytes s x i u d)) ∧
    (d.access = .wo ∨ d.access = .cmd → readItem s x i u = (s, .writeOnly, d.type.code, []))) ∧
  (∀ (r : Req) (x : Session) (items : List WriteItem) (s : State), freshRequest s r x 0x0100 → items ≠ [] →
    items.length ≤ maxItems x.protocol →
    ∃ u : State, ∃ (st : Status) (b : List Byte), exec (.write r items) s = .next (finish u r.session r.seq r.reqId 5 r.via st b) ∧
      (u, st, b) = writeItems (takenState s r) (takenSession s r x) items) ∧
  (∀ (x : Session) (w : WriteItem) (d : DictRow) (s : State), highestSub? x w.index w.sub = none →
    visibleRow? x w.index w.sub = some d →
    (d.persist = .certified → writeItem s x w = (s, .certified)) ∧
    (d.persist ≠ .certified → d.access = .ro ∨ d.access = .const → writeItem s x w = (s, .readOnly)) ∧
    (d.persist ≠ .certified → d.access = .rw → d.type ≠ .domain → w.type ≠ d.type.code → writeItem s x w = (s, .wrongType)) ∧
    (d.persist ≠ .certified → d.access = .rw → d.type = .u32 → w.type = 4 → w.value.length = 4 →
      writeConflict s x w.index w.sub (leValue w.value) = false → d.inRange (leValue w.value) = false →
      writeItem s x w = (s, .outOfRange)) ∧
    (d.persist ≠ .certified → d.access = .rw → d.type = .u32 → w.type = 4 → w.value.length = 4 →
      writeConflict s x w.index w.sub (leValue w.value) = false → d.inRange (leValue w.value) = true →
      sessionScoped w.index w.sub = true → w.index ≠ 0x4021 →
      ∃ t : State, writeItem s x w = (t, .ok) ∧ (session? s x.id ≠ none → sessGet t x.id w.index w.sub = leValue w.value) ∧
        (∀ id : Nat, id ≠ x.id → sessGet t id w.index w.sub = sessGet s id w.index w.sub) ∧
        t = { s with spr := { s.spr with sessions := t.spr.sessions } })) ∧
  (∀ (r : Req) (x : Session) (i : BitVec 16) (u : Byte) (d : DictRow) (s : State), freshRequest s r x 0x0100 →
    highestSub? x i.toNat u.toNat = none → visibleRow? x i.toNat u.toNat = some d →
    ∃ b : List Byte, exec (.describe r i u) s = .next (finish (takenState s r) r.session r.seq r.reqId 6 r.via .ok b) ∧ b.length = 80 ∧
      b.take 4 = [BitVec.ofNat 8 d.type.code, BitVec.ofNat 8 d.access.code, BitVec.ofNat 8 d.persist.code, 0]) ∧
  (∀ (r : Req) (x : Session) (i : BitVec 16) (u : Byte) (s : State), freshRequest s r x 0x0100 →
    highestSub? x i.toNat u.toNat = none → visibleRow? x i.toNat u.toNat = none →
    exec (.describe r i u) s = .next (finish (takenState s r) r.session r.seq r.reqId 6 r.via .notFound [])) ∧
  (∀ (r : Req) (x : Session) (i : BitVec 16) (u : Byte) (o n : BitVec 32) (d : DictRow) (v : State) (size : Nat) (b : List Byte)
      (s : State), freshRequest s r x 0x0100 → visibleRow? x i.toNat u.toNat = some d → d.type = .domain → d.access ≠ .wo →
    readDomain (takenState s r) (takenSession s r x) i.toNat u.toNat o.toNat (min n.toNat (x.maxMessage - 20)) = (v, .ok, size, b) →
    exec (.segRead r i u o n) s = .next (finish v r.session r.seq r.reqId 7 r.via .ok (leBytes 4 size ++ b))) ∧
  (∀ (r : Req) (x : Session) (i : BitVec 16) (u : Byte) (n : BitVec 32) (data : List Byte) (d : DictRow) (s : State),
    freshRequest s r x 0x0100 → visibleRow? x i.toNat u.toNat = some d → d.type = .domain → d.access = .rw →
    openSeg? s i.toNat u.toNat = none → domainHolds i.toNat u.toNat n.toNat = true → data.length ≤ n.toNat →
    ∃ v : State, exec (.segWrite r i u true false 0 n data) s = .next (finish v r.session r.seq r.reqId 8 r.via .ok []) ∧
      v.spr.segs = s.spr.segs ++ [{ index := i.toNat, sub := u.toNat, session := x.id, total := n.toNat, received := data }] ∧
      v = { s with spr := { s.spr with sessions := v.spr.sessions, segs := v.spr.segs } }) ∧
  (∀ (r : Req) (x : Session) (i : BitVec 16) (u : Byte) (last : Bool) (o n : BitVec 32) (data : List Byte) (d : DictRow)
      (g : SegWrite) (s : State), freshRequest s r x 0x0100 → visibleRow? x i.toNat u.toNat = some d → d.type = .domain →
    d.access = .rw → openSeg? s i.toNat u.toNat = some g → g.session ≠ x.id →
    exec (.segWrite r i u true last o n data) s = .next (finish (takenState s r) r.session r.seq r.reqId 8 r.via .busy [])) ∧
  (∀ (r : Req) (x : Session) (i : BitVec 16) (u ty : Byte) (a : BitVec 64) (d : DictRow) (s : State), freshRequest s r x 0x0100 →
    visibleRow? x i.toNat u.toNat = some d → d.persist ≠ .certified →
    (d.access = .cmd → ty.toNat = d.type.code → a.toNat < 256 ^ typeBytes d.type → i ≠ 0x1010 →
      ∃ (v : State) (st : Status), exec (.command r i u ty a) s = .next (finish v r.session r.seq r.reqId 0x0A r.via st []) ∧
        (v, st) = commandEntry (takenState s r) (takenSession s r x) i.toNat u.toNat a.toNat) ∧
    (d.access ≠ .cmd →
      exec (.command r i u ty a) s = .next (finish (takenState s r) r.session r.seq r.reqId 0x0A r.via .wrongType [])))

/-- R412 to R414: a commit or a default-image write takes its snapshot when the energy is there and none is under way, is refused
otherwise, and when the image has been written it is the newest one, in the slot that held the older. Of each of these commands it
concludes that exec answers the next state of its own effect: commit, commitWriteDone, writeDefaultImage. -/
def Obligations.Commits : Prop :=
  (∀ (r : Req) (x : Session) (o : Byte) (s : State), freshRequest s r x 0x0100 → s.spr.commit = none → s.pow.vauxStage = .none →
    o.getLsbD 0 = false → holdupPasses s (Config.imageBytes (storedImage (takenState s r)).od).val = true →
    ∃ t : State, ∃ w : ImageWrite, exec (.commit r o) s = .next t ∧ t.spr.commit = some w ∧ w.asker = some (x.id, r.seq) ∧ w.msgType = 9 ∧
      w.od = (storedImage (takenState s r)).od ∧ odGet t 0x1010 3 = 0 ∧ t.out = s.out ∧
      (∀ y : Session, session? t r.session = some y → (r.seq, r.via) ∈ y.executing) ∧
      t = { s with od := t.od, spr := { s.spr with sessions := t.spr.sessions, commit := some w } }) ∧
  (∀ (r : Req) (x : Session) (o : Byte) (s : State), freshRequest s r x 0x0100 → s.spr.commit = none → s.pow.vauxStage = .none →
    holdupPasses s (Config.imageBytes (storedImage (takenState s r)).od).val = false →
    ∃ u : State, exec (.commit r o) s = .next (finish u r.session r.seq r.reqId 9 r.via .holdupLow []) ∧ odGet u 0x1010 2 = 2 ∧
      u.spr.commit = none ∧ counter u (counterNo 0xC02A 1) = counter s (counterNo 0xC02A 1) + 1) ∧
  (∀ (r : Req) (x : Session) (o : Byte) (w : ImageWrite) (s : State), freshRequest s r x 0x0100 → s.spr.commit = some w →
    exec (.commit r o) s = .next (finish (takenState s r) r.session r.seq r.reqId 9 r.via .busy [])) ∧
  (∀ (w : ImageWrite) (s : State), s.spr.commit = some w → s.pins.inReset = false →
    ∃ t : State, exec .commitWriteDone s = .next t ∧ t.spr.commit = none ∧ odGet t 0x1010 1 = odGet s 0x1010 1 + 1 ∧
      odGet t 0x1010 2 = 1 ∧ (if newestIs0 s then t.spr.slot1 else t.spr.slot0) =
        { valid := true, generation := odGet s 0x1010 1 + 1, od := w.od, srcCfg := w.srcCfg, guard := w.guard } ∧
      (if newestIs0 s then t.spr.slot0 else t.spr.slot1) = (if newestIs0 s then s.spr.slot0 else s.spr.slot1) ∧
      t = { s with od := t.od, spr := t.spr, perf := t.perf, out := t.out }) ∧
  (∀ (a : Byte) (s : State), 1 < a.toNat → exec (.writeDefaultImage a) s = .next (emit s (.status .outOfRange))) ∧
  (∀ (a : Byte) (s : State), a.toNat ≤ 1 → s.spr.commit = none → s.pow.vauxStage = .none →
    (∀ n : Nat, n ≤ 2 ^ 21 → holdupPasses s n = true) →
    ∃ t : State, ∃ w : ImageWrite, exec (.writeDefaultImage a) s = .next t ∧ t.spr.commit = some w ∧ w.asker = none ∧ w.srcCfg = [] ∧ w.guard = [] ∧
      (a.toNat = 1 → w.od = []) ∧ t = { s with od := t.od, spr := { s.spr with commit := some w } })

/-- R416, R417, R421, R426, R428, R433: a report that a pair holds is recorded and reacted to by its class, and its pair is idle again;
a rail fault is reported once until its pair reads valid. Of each of these commands it concludes that exec answers the next state of
its own effect: faultReport, railFault. -/
def Obligations.FaultReports : Prop :=
  (∀ (f : Fin 512) (own : Option (BitVec 8 × BitVec 48 × BitVec 192)) (r : Report) (s : State), f.val < 454 →
    tabFind? f.val s.flt.pairs = some r → pairIgnored s f.val = false →
    ∃ v : State, exec (.faultReport f own) s = .next (react v f.val r) ∧ f.val ∈ v.flt.sticky ∧ tabFind? f.val v.flt.pairs = none ∧
      tabGet 0 f.val v.flt.counts = tabGet 0 f.val s.flt.counts + 1 ∧
      (s.flt.latch = none → v.flt.latch = some (f.val, s.time.devTime, r.syndrome) ∧ v.flt.overflow = s.flt.overflow) ∧
      (s.flt.latch ≠ none → v.flt.latch = s.flt.latch ∧ v.flt.overflow = true) ∧
      counter v (counterNo 0xC02D 1) = counter s (counterNo 0xC02D 1) + 1 ∧ v = { s with flt := v.flt, perf := v.perf }) ∧
  (∀ (f : Fin 512) (own : Option (BitVec 8 × BitVec 48 × BitVec 192)) (r : Report) (s : State), f.val < 454 →
    tabFind? f.val s.flt.pairs = some r → pairIgnored s f.val = true →
    ∃ t : State, exec (.faultReport f own) s = .next t ∧ tabFind? f.val t.flt.pairs = none ∧
      t = { s with flt := { s.flt with pairs := t.flt.pairs } }) ∧
  (∀ (f : Fin 512) (s : State), f.val ∉ s.flt.railFaults → pairIgnored s f.val = false →
    ∃ v : State, exec (.railFault f true) s = .next (react v f.val
        { injected := s.flt.railDriven.contains f.val, rail := true, cause := 0, detail := 0, data := 0 }) ∧
      (f.val ∈ v.flt.railFaults ↔ f.val ∉ s.flt.railDriven) ∧ f.val ∉ v.flt.railDriven ∧
      counter v (counterNo 0xC02D 2) = counter s (counterNo 0xC02D 2) + 1 ∧ f.val ∈ v.flt.sticky ∧
      v = { s with flt := v.flt, perf := v.perf }) ∧
  (∀ (f : Fin 512) (s : State), ∃ t : State, exec (.railFault f false) s = .next t ∧ f.val ∉ t.flt.railFaults ∧
    t = { s with flt := { s.flt with railFaults := t.flt.railFaults } }) ∧
  (∀ (f : Nat) (r : Report) (v : State),
    (recClass (srcRecord v f) = 0 → react v f r = v) ∧
    (recClass (srcRecord v f) = 1 ∨ recClass (srcRecord v f) = 2 → (react v f r).out = v.out ++ [Out.coreInterrupt f] ∧
      (react v f r).flt.lastInterrupt = f ∧ (∀ k : Nat, k < 4 → (coreSt (react v f r) k).level = .p0)) ∧
    (recClass (srcRecord v f) = 2 → v.flt.safe = false → tabFind? f v.flt.timers = none →
      tabFind? f (react v f r).flt.timers = some (recSafe (srcRecord v f), r.detail.toNat)) ∧
    (recClass (srcRecord v f) = 3 → v.flt.safe = true → react v f r = v) ∧
    (recClass (srcRecord v f) = 3 → v.flt.safe = false → ∀ u : FaultUnit, unitOf v f r.detail.toNat = some u → react v f r = isolate v u) ∧
    (recClass (srcRecord v f) = 4 → (react v f r).flt.safe = true))

/-- R423, R426, R427, R429, R494: a handling timer that expires escalates, an acknowledgement stops it, the safe state is entered once
and freezes the log, and sticky bits and the first-error latch are cleared by command. Of each of these commands it concludes that
exec answers the next state of its own effect: handlingTimerExpire, acknowledgeC2Source, enterSafeState, resetFjq9640,
clearStickyBit, clearFirstErrorLatch, collectorSelfError. -/
def Obligations.FaultHandling : Prop :=
  (∀ (f : Fin 512) (d : Nat) (s : State), tabFind? f.val s.flt.timers = some (true, d) →
    ∃ t : State, exec (.handlingTimerExpire f) s = .next t ∧ t.flt.safe = true ∧
      (s.flt.safe = false → t.flt.timers = [] ∧ t.flt.frozen = true ∧ t.pins.faultLow = true ∧ t.flt.safeCause = f.val)) ∧
  (∀ (f : Fin 512) (d : Nat) (s : State), tabFind? f.val s.flt.timers = some (false, d) → s.flt.safe = false →
    unitOf s f.val d = none →
    ∃ t : State, exec (.handlingTimerExpire f) s = .next t ∧ tabFind? f.val t.flt.timers = none ∧ t.flt.lastInterrupt = f.val ∧
      counter t (counterNo 0xC02D 3) = counter s (counterNo 0xC02D 3) + 1 ∧ t.out = s.out ++ [Out.coreInterrupt f.val]) ∧
  (∀ (n : BitVec 16) (sid : BitVec 32) (s : State), n.toNat ≤ 511 →
    ∃ t : State, exec (.acknowledgeC2Source n sid) s = .next t ∧ tabFind? n.toNat t.flt.timers = none ∧ t.out = s.out ++ [Out.status .ok] ∧
      (∀ m : Nat, m ≠ n.toNat → tabFind? m t.flt.timers = tabFind? m s.flt.timers) ∧
      t = { s with flt := { s.flt with timers := t.flt.timers, log := t.flt.log, nextSeq := t.flt.nextSeq }, out := t.out }) ∧
  (∀ (n : BitVec 16) (sid : BitVec 32) (s : State), 511 < n.toNat →
    exec (.acknowledgeC2Source n sid) s = .next (emit s (.status .outOfRange))) ∧
  (∀ s : State, ∃ t : State, exec .enterSafeState s = .next t ∧ t.flt.safe = true ∧
    (s.flt.safe = false → t.flt.timers = [] ∧ t.flt.frozen = true ∧ t.pins.faultLow = true ∧ t.flt.safeCause = 0x0200) ∧
    (s.flt.safe = true → t = { s with out := s.out ++ [Out.status .ok] })) ∧
  (∀ s : State, ∃ t : State, exec .collectorSelfError s = .next t ∧ t.flt.safe = true ∧
    (s.flt.latch = none → t.flt.latch = some (511, s.time.devTime, 0)) ∧ (s.flt.latch ≠ none → t.flt.latch = s.flt.latch)) ∧
  (∀ s : State, ∃ t : State, exec .resetFjq9640 s = .next t ∧ t.pins.inReset = true ∧ t.out.getLast? ≠ none ∧
    (s.pins.inReset = false → t.pins.ready = false ∧ t.spr.sessions = [] ∧ t.spr.serving = false) ∧
    (s.pins.inReset = true → t = { s with out := s.out ++ [Out.status .ok] })) ∧
  (∀ (n : BitVec 16) (s : State),
    (n.toNat ≤ 511 ∨ n = 0xFFFF → ∃ t : State, exec (.clearStickyBit n) s = .next t ∧
      (∀ f : Nat, f ∈ t.flt.sticky ↔ f ∈ s.flt.sticky ∧ n ≠ 0xFFFF ∧ f ≠ n.toNat) ∧ t.out = s.out ++ [Out.status .ok] ∧
      t = { s with flt := { s.flt with sticky := t.flt.sticky }, out := t.out }) ∧
    (511 < n.toNat → n ≠ 0xFFFF → exec (.clearStickyBit n) s = .next (emit s (.status .outOfRange)))) ∧
  (∀ s : State, ∃ t : State, exec .clearFirstErrorLatch s = .next t ∧ t.flt.latch = none ∧ t.flt.overflow = false ∧
    t.out = s.out ++ [Out.status .ok] ∧
    t = { s with flt := { s.flt with latch := none, overflow := false, log := t.flt.log, nextSeq := t.flt.nextSeq }, out := t.out })

/-- R422, R428: injection is unlocked by a secured session alone and acts on the sources that it may; a source configuration is taken
whole or not at all. R436 to R438: a record of the cullet map: made by a command, withdrawn while it is pending, written when the
energy is there, again while it was not, and shown written at the end. Of each of these commands it concludes that exec answers the
next state of its own effect: injectionUnlock, injectionLock, injectStop, injectOneShot, injectContinuous, injectRail,
sourceConfigurationWrite, withdrawPendingRecord, retirePhysicalSlice, culletWriteRetry, culletRecordWriteDone. -/
def Obligations.InjectionAndCullet : Prop :=
  (∀ (sid : BitVec 32) (s : State),
    (sessionMode s sid.toNat = some .authenticated ∨ sessionMode s sid.toNat = some .encrypted →
      exec (.injectionUnlock sid) s = .next (emit { s with flt := { s.flt with unlocked := true } } (.status .ok))) ∧
    (sessionMode s sid.toNat = none ∨ sessionMode s sid.toNat = some .plain →
      exec (.injectionUnlock sid) s = .next (emit s (.status .notPermitted)))) ∧
  (∀ s : State, exec .injectionLock s = .next (emit { s with flt := { s.flt with unlocked := false } } (.status .ok))) ∧
  (∀ (f : BitVec 16) (s : State), s.flt.unlocked = false →
    exec (.injectStop f) s = .next (emit s (.status .notPermitted)) ∧
    exec (.injectOneShot f) s = .next (emit s (.status .notPermitted)) ∧
    exec (.injectContinuous f) s = .next (emit s (.status .notPermitted)) ∧
    exec (.injectRail f) s = .next (emit s (.status .notPermitted))) ∧
  (∀ (f : BitVec 16) (i : Instr) (m : Nat) (s : State), s.flt.unlocked = true → f.toNat ≤ 511 → f ≠ 451 → f ≠ 511 →
    (i = .injectStop f ∧ m = 0) ∨ (i = .injectOneShot f ∧ m = 1 ∧ checkInjectable f.toNat = true) ∨
      (i = .injectContinuous f ∧ m = 2 ∧ checkInjectable f.toNat = true) ∨ (i = .injectRail f ∧ m = 3) →
    ∃ t : State, exec i s = .next t ∧ t.out = s.out ++ [Out.status .ok] ∧
      counter t (counterNo 0xC02D 6) = counter s (counterNo 0xC02D 6) + 1 ∧
      (m = 0 → f.toNat ∉ t.flt.continuous) ∧ (m = 1 → f.toNat ∈ t.flt.oneShot) ∧ (m = 2 → f.toNat ∈ t.flt.continuous) ∧
      (m = 3 → f.toNat ∈ t.flt.railDriven) ∧ t = { s with flt := t.flt, perf := t.perf, out := t.out }) ∧
  (∀ (rs : List (BitVec 64)) (s : State), rs.length = 512 → (∀ p ∈ rs.zipIdx, recordOk p.2 p.1 = true) →
    ∃ t : State, exec (.sourceConfigurationWrite rs) s = .next t ∧ (∀ f : Nat, f < 512 → srcRecord t f = recMask (rs.getD f 0)) ∧
      t.out = s.out ++ [Out.status .ok] ∧ t = { s with flt := { s.flt with cfg := t.flt.cfg }, out := t.out }) ∧
  (∀ (rs : List (BitVec 64)) (s : State), rs.length ≠ 512 ∨ (∃ p ∈ rs.zipIdx, recordOk p.2 p.1 = false) →
    exec (.sourceConfigurationWrite rs) s = .next (emit s (.status .outOfRange))) ∧
  (∀ (n : Byte) (m : Nat) (s : State), n.toNat ≤ 33 → sliceRetirements s < 2 → culletFree? s = some m →
    ∃ t : State, ∃ r : Cullet, exec (.retirePhysicalSlice n) s = .next t ∧ tabFind? m t.flt.cullet = some r ∧ r.kind = 3 ∧ r.state = .pending ∧
      r.origin = 2 ∧ r.written = false ∧ r.location.toNat % 256 = n.toNat ∧ t.out = s.out ++ [Out.status .ok] ∧
      t = { s with flt := t.flt, perf := t.perf, out := t.out }) ∧
  (∀ (n : Byte) (s : State), (33 < n.toNat → exec (.retirePhysicalSlice n) s = .next (emit s (.status .outOfRange))) ∧
    (n.toNat ≤ 33 → 2 ≤ sliceRetirements s → exec (.retirePhysicalSlice n) s = .next (emit s (.status .wrongState)))) ∧
  (∀ (n : BitVec 16) (r : Cullet) (s : State), n.toNat ≤ 4095 → tabFind? n.toNat s.flt.cullet = some r →
    (r.state = .pending → ∃ t : State, exec (.withdrawPendingRecord n) s = .next t ∧
      tabFind? n.toNat t.flt.cullet = some { r with state := .withdrawn, written := false } ∧ t.out = s.out ++ [Out.status .ok] ∧
      t = { s with flt := { s.flt with cullet := t.flt.cullet, writing := t.flt.writing }, perf := t.perf, out := t.out }) ∧
    (r.state ≠ .pending → exec (.withdrawPendingRecord n) s = .next (emit s (.status .wrongState)))) ∧
  (∀ s : State, holdupPasses s 16 = true → ∃ t : State, exec .culletWriteRetry s = .next t ∧
    (∀ p ∈ s.flt.cullet, p.2.written = false → p.1 ∈ t.flt.writing) ∧ (∀ n ∈ s.flt.writing, n ∈ t.flt.writing) ∧
    t = { s with flt := { s.flt with writing := t.flt.writing } }) ∧
  (∀ (n : Fin 4096) (s : State), n.val ∈ s.flt.writing → s.pins.inReset = false →
    ∃ t : State, exec (.culletRecordWriteDone n) s = .next t ∧ n.val ∉ t.flt.writing ∧
      (∀ p ∈ t.flt.cullet, p.1 = n.val → p.2.written = true) ∧
      t = { s with flt := { s.flt with
        writing := t.flt.writing, cullet := t.flt.cullet, log := t.flt.log, nextSeq := t.flt.nextSeq } })

/-- R444, R447, R448, R456, R457, R466, R468: images, rollback counters, certified configuration and debug: each is changed by what the
rules accept from a session that may, and refused otherwise. R458, R459: CXL IDE is keyed over a secure session for an upstream or
pool port alone, and a check that fails ends it and the link. Of each of these commands it concludes that exec answers the next
state of its own effect: raiseRollbackCounter, firmwareImage, certifiedPackage, debugToken, lockDebug, debugTokenExpire,
healthTestFailure, ideKm, ideCheckFailure. -/
def Obligations.SecurityUpdatesAndIde : Prop :=
  (∀ (c : Byte) (q : Nat × FwImage) (s : State), c.toNat ≤ 63 → q ∈ s.sec.running → q.2.counter = c.toNat →
    ∃ t : State, exec (.raiseRollbackCounter c) s = .next t ∧ q.2.svn ≤ tabGet 0 c.toNat t.sec.counters ∧
      tabGet 0 c.toNat s.sec.counters ≤ tabGet 0 c.toNat t.sec.counters ∧
      (∀ d : Nat, d ≠ c.toNat → tabGet 0 d t.sec.counters = tabGet 0 d s.sec.counters) ∧ t.out = s.out ++ [Out.status .ok] ∧
      t = { s with sec := { s.sec with counters := t.sec.counters }, out := t.out }) ∧
  (∀ (x : BitVec 32) (i : FwImage) (s : State), encryptedSession s x.toNat = false →
    exec (.firmwareImage (some x) i) s = .next (emit s (.status .notPermitted))) ∧
  (∀ (x : BitVec 32) (i : FwImage) (s : State), encryptedSession s x.toNat = true → i.kind = 1 → holdupPasses s i.size = true →
    ∃ t : State, exec (.firmwareImage (some x) i) s = .next t ∧
      tabFind? (2 + if !s.sec.runSecB then 1 else 0) t.sec.banks = some i ∧
      (imageValid s i = true → t.sec.bootSec = !s.sec.runSecB ∧ t.out = s.out ++ [Out.status .ok]) ∧
      (imageValid s i = false → t.sec.bootSec = s.sec.bootSec ∧ t.out = s.out ++ [Out.status .wrongState]) ∧
      t = { s with sec := { s.sec with banks := t.sec.banks, bootSec := t.sec.bootSec }, out := t.out }) ∧
  (∀ (x : BitVec 32) (p : CertPackage) (c : CertConfig) (s : State), encryptedSession s x.toNat = true → p.magicOk = true →
    p.deviceOk = true → packageSigned s p = true → s.sec.cert.generation.toNat < p.generation.toNat →
    certRecords (s.sec.certNext.getD s.sec.cert) p.records = some c → holdupPasses s p.size = true →
    ∃ t : State, exec (.certifiedPackage x p) s = .next t ∧ t.sec.certNext = some { c with generation := p.generation } ∧
      t.sec.cert = s.sec.cert ∧ t.out = s.out ++ [Out.status .ok] ∧
      t = { s with sec := { s.sec with certNext := t.sec.certNext }, out := t.out }) ∧
  (∀ (x : BitVec 32) (p : CertPackage) (s : State), encryptedSession s x.toNat = true →
    packageSigned s p = false ∨ p.generation.toNat ≤ s.sec.cert.generation.toNat →
    exec (.certifiedPackage x p) s = .next (emit s (.status .wrongState))) ∧
  (∀ (d : DebugToken) (s : State), tokenAccepted s d = true →
    ∃ t : State, exec (.debugToken none d) s = .next t ∧ t.sec.unlocked = true ∧ t.sec.permissions = d.permissions ∧
      t.sec.expiresAt = s.time.clock + d.lifetime * 1000000000 ∧ t.out = s.out ++ [Out.status .ok] ∧
      t = { s with spr := t.spr, flt := t.flt, perf := t.perf, sec := t.sec, out := t.out }) ∧
  (∀ (d : DebugToken) (s : State), tokenAccepted s d = false →
    ∃ t : State, exec (.debugToken none d) s = .next t ∧ t.sec = s.sec ∧ t.out = s.out ++ [Out.status .wrongState] ∧
      t = { s with flt := t.flt, out := t.out }) ∧
  (∀ s : State, s.sec.unlocked = true → ∃ t : State, ∃ u : State, exec .lockDebug s = .next t ∧ exec .debugTokenExpire s = .next u ∧
    t = emit u (.status .ok) ∧ u.sec = { s.sec with unlocked := false, permissions := 0, expiresAt := 0 } ∧
    u = { s with spr := u.spr, flt := u.flt, perf := u.perf, sec := u.sec }) ∧
  (∀ s : State, ∃ t : State, exec .healthTestFailure s = .next t ∧ t.sec = { s.sec with healthFailed := true } ∧
    (tabFind? 451 t.flt.pairs).isSome = true ∧ t = { s with flt := { s.flt with pairs := t.flt.pairs }, sec := t.sec }) ∧
  (∀ (p : Fin 96) (c i : Nat) (op : IdeOp) (s : State), i ∈ (spdmConn s c).sessions → odGet s (0x2100 + p.val) 1 ≠ 1 →
    poolPort s p.val = false → exec (.ideKm p c i op) s = .next (spdmAnswer s c (spdmConn s c) .unsupportedRequest)) ∧
  (∀ (p : Fin 96) (c i n : Nat) (b : Bool) (s : State), i ∈ (spdmConn s c).sessions →
    (odGet s (0x2100 + p.val) 1 = 1 ∧ poolPort s p.val = false) ∨ (poolPort s p.val = true ∧ (idePort s p.val).trusted = true) →
    ∃ t : State, exec (.ideKm p c i (.program n b)) s = .next t ∧ (n * 2 + if b then 1 else 0) ∈ (idePort t p.val).programmed ∧
      (idePort t p.val).established = (idePort s p.val).established ∧ (∀ q : Nat, q ≠ p.val → idePort t q = idePort s q) ∧
      t.out = s.out ++ (if poolPort s p.val then [] else [Out.spdm c .vendor]) ∧ t = { s with sec := t.sec, out := t.out }) ∧
  (∀ (p : Fin 96) (c i n : Nat) (b : Bool) (s : State), i ∈ (spdmConn s c).sessions →
    (odGet s (0x2100 + p.val) 1 = 1 ∧ poolPort s p.val = false) ∨ (poolPort s p.val = true ∧ (idePort s p.val).trusted = true) →
    (n * 2 + if b then 1 else 0) ∈ (idePort s p.val).programmed →
    ∃ t : State, exec (.ideKm p c i (.go b)) s = .next t ∧ (idePort t p.val).established = true ∧ (idePort t p.val).keySet = b ∧
      (∀ q : Nat, q ≠ p.val → idePort t q = idePort s q) ∧ t = { s with sec := t.sec, out := t.out }) ∧
  (∀ (p : Fin 96) (c i : Nat) (root : BitVec 256) (s : State), poolPort s p.val = true →
    ∃ t : State, exec (.ideKm p c i (.chain root)) s = .next t ∧ idePort t p.val = { idePort s p.val with trusted := trustAnchor s root } ∧
      (∀ q : Nat, q ≠ p.val → idePort t q = idePort s q) ∧ t = { s with sec := { s.sec with ide := t.sec.ide } }) ∧
  (∀ (p : Fin 96) (c i n : Nat) (b : Bool) (s : State), poolPort s p.val = true → (idePort s p.val).trusted = false →
    exec (.ideKm p c i (.program n b)) s = .next s ∧ exec (.ideKm p c i (.go b)) s = .next s ∧ exec (.ideKm p c i .stop) s = .next s) ∧
  (∀ (p : Fin 96) (s : State), (idePort s p.val).established = true →
    ∃ u : State, exec (.ideCheckFailure p) s = .next (raiseFault (portDown u p.val) p.val 3 (2 ^ 28)) ∧ idePort u p.val = ideReset ∧
      (∀ q : Nat, q ≠ p.val → idePort u q = idePort s q) ∧ u = { s with sec := { s.sec with ide := u.sec.ide } })

/-- R444, R451 to R455: what the SPDM responder answers on a connection, and what the connection then holds. Every answer goes out once,
and no request changes anything but the responder. Of each of these commands it concludes that exec answers the next state of its
own effect: getVersion, getCapabilities, negotiateAlgorithms, getDigests, getCertificate, challenge, getMeasurements, keyExchange,
finish, heartbeat, keyUpdate, endSession, chunkSend, chunkGet, vendorDefinedRequest, spdmUnsupportedRequest. -/
def Obligations.SpdmAnswers : Prop :=
  (∀ (c : Nat) (x : SpdmConn) (r : SpdmReply) (s : State),
    (let t := spdmAnswer s c x r
     spdmConn t c = x ∧ tabFind? c t.sec.spdmReply = some r ∧ t.out = s.out ++ [Out.spdm c r] ∧ (∀ d : Nat, d ≠ c → spdmConn t d = spdmConn s d) ∧
       t = { s with sec := { s.sec with spdm := t.sec.spdm, spdmReply := t.sec.spdmReply }, out := t.out })) ∧
  (∀ (c : Nat) (s : State), exec (.getVersion c) s =
    .next (spdmAnswer s c { spdmReset with versioned := true, sessions := (spdmConn s c).sessions } .version)) ∧
  (∀ (c : Nat) (v : Byte) (s : State), (spdmConn s c).latched = false → (spdmConn s c).versioned = true → v = 0x12 ∨ v = 0x13 →
    exec (.getCapabilities c v) s = .next (spdmAnswer s c { spdmConn s c with capable := true, version := v.toNat } .capabilities)) ∧
  (∀ (c : Nat) (l : List (BitVec 16)) (s : State), (spdmConn s c).latched = false → (spdmConn s c).capable = true →
    exec (.negotiateAlgorithms c l) s = .next (spdmAnswer s c
      (if 0x5301 ∈ l then { spdmConn s c with slot := some 0 } else if 0x5302 ∈ l then { spdmConn s c with slot := some 1 }
       else { spdmConn s c with slot := none, latched := true })
      (if 0x5301 ∈ l then .algorithms 0 else if 0x5302 ∈ l then .algorithms 1 else .invalidRequest))) ∧
  (∀ (c : Nat) (i : Instr) (s : State), (spdmConn s c).latched = true ∨ (spdmConn s c).slot = none →
    i ∈ [Instr.getDigests c, .getCertificate c 0 0 0, .challenge c, .getMeasurements c 1 true, .keyExchange c, .vendorDefinedRequest c] →
    exec i s = .next (spdmAnswer s c (spdmConn s c) .unexpectedRequest)) ∧
  (∀ (c k : Nat) (s : State), (spdmConn s c).latched = false → (spdmConn s c).slot = some k →
    exec (.getDigests c) s = .next (spdmAnswer s c (spdmConn s c) .digests) ∧
    exec (.vendorDefinedRequest c) s = .next (spdmAnswer s c (spdmConn s c) .vendor) ∧
    (∀ o : Byte, 1 ≤ o.toNat → o.toNat ≤ 7 → exec (.getMeasurements c o false) s =
      .next (spdmAnswer s c (spdmConn s c) (.measurements [(o.toNat, measurement s o.toNat)] false))) ∧
    (s.sec.healthFailed = true → exec (.challenge c) s = .next (spdmAnswer s c (spdmConn s c) .busyError)) ∧
    (s.sec.healthFailed = false → s.time.clock < s.sec.signUntil →
      exec (.challenge c) s = .next (spdmAnswer s c (spdmConn s c) .responseNotReady) ∧
        exec (.keyExchange c) s = .next (spdmAnswer s c (spdmConn s c) .responseNotReady)) ∧
    (s.sec.healthFailed = false → s.sec.signUntil ≤ s.time.clock → ∃ t : State, ∃ u : State, exec (.challenge c) s = .next t ∧
      t.out = s.out ++ [Out.spdm c (.challengeAuth k)] ∧ t.sec.signUntil = s.time.clock + (if k = 0 then 20000000 else 2000000) ∧
      exec (.keyExchange c) s = .next u ∧ u.out = s.out ++ [Out.spdm c (.keyExchange s.sec.nextSpdm)] ∧
      u.sec.nextSpdm = s.sec.nextSpdm + 1 ∧ (spdmConn u c).opening = (spdmConn s c).opening ++ [s.sec.nextSpdm])) ∧
  (∀ (c k : Nat) (slot : Fin 16) (o n : BitVec 16) (h : slot.val < 2) (s : State), (spdmConn s c).latched = false →
    (spdmConn s c).slot = some k → exec (.getCertificate c slot o n) s = .next (spdmAnswer s c (spdmConn s c)
      (if o.toNat < (Config.certChain ⟨slot.val, h⟩).length then
        .certificate slot o.toNat (min n.toNat ((Config.certChain ⟨slot.val, h⟩).length - o.toNat)) else .invalidRequest))) ∧
  (∀ (c i : Nat) (b : Bool) (s : State), (spdmConn s c).latched = false → i ∈ (spdmConn s c).opening →
    ∃ t : State, exec (.finish c i b) s = .next t ∧ i ∉ (spdmConn t c).opening ∧ (b = true → i ∈ (spdmConn t c).sessions) ∧
      t.out = s.out ++ [Out.spdm c (if b then .finish else .invalidRequest)] ∧ t = { s with sec := t.sec, out := t.out }) ∧
  (∀ (c i : Nat) (s : State), (spdmConn s c).latched = false → i ∈ (spdmConn s c).sessions →
    exec (.heartbeat c i) s = .next (spdmAnswer s c (spdmConn s c) .heartbeat) ∧
    exec (.keyUpdate c i) s = .next (spdmAnswer s c (spdmConn s c) .keyUpdate) ∧
    ∃ t : State, exec (.endSession c i) s = .next t ∧ i ∉ (spdmConn t c).sessions ∧ (∀ x ∈ t.spr.sessions, x.spdm ≠ some i) ∧
      t.out = s.out ++ [Out.spdm c .endSession] ∧
      t = { s with spr := { s.spr with sessions := t.spr.sessions, segs := t.spr.segs }, sec := t.sec, out := t.out }) ∧
  (∀ (c n : Nat) (d : List Byte) (last : Bool) (s : State), (spdmConn s c).latched = false → n = (spdmConn s c).chunkNext → d.length ≤ 4096 →
    (spdmConn s c).chunkIn.length + d.length ≤ 65536 →
    ∃ t : State, exec (.chunkSend c n d last) s = .next t ∧ t.out = s.out ++ [Out.spdm c .chunkAck] ∧
      (spdmConn t c).chunkIn = (if last then [] else (spdmConn s c).chunkIn ++ d) ∧
      (spdmConn t c).chunkNext = (if last then 0 else n + 1) ∧ t = { s with sec := t.sec, out := t.out }) ∧
  (∀ (c n : Nat) (s : State), (spdmConn s c).latched = false → 0 < n → ∃ t : State, exec (.chunkGet c 0 n) s = .next t ∧
    t.out = s.out ++ [Out.spdm c (.chunk 0 (min (min n 65536) 4096))] ∧
    (spdmConn t c).chunkOut = min n 65536 - min (min n 65536) 4096 ∧ (spdmConn t c).chunkOutSeq = 1 ∧
    t = { s with sec := t.sec, out := t.out }) ∧
  (∀ (c : Nat) (s : State), (spdmConn s c).latched = false →
    exec (.spdmUnsupportedRequest c) s = .next (spdmAnswer s c (spdmConn s c) .unsupportedRequest)) ∧
  (∀ (c n : Nat) (v : Byte) (l : List (BitVec 16)) (b : Bool) (d : List Byte) (i : Instr) (s : State), (spdmConn s c).latched = true →
    i ∈ [Instr.getCapabilities c v, .negotiateAlgorithms c l, .finish c n b, .heartbeat c n, .keyUpdate c n, .endSession c n,
      .chunkSend c n d b, .chunkGet c n n, .spdmUnsupportedRequest c] →
    exec i s = .next (spdmAnswer s c (spdmConn s c) .unexpectedRequest))

/-- R472, R475, R477, R478: the snapshot copies every device-wide counter; a sampler is armed one period ahead and fires when its
counter has come to the threshold, with what it has been told to do. R479 to R482: device time steps to network time on the first
measurement and on a large offset, and is slewed on a small one; the loss of the time source is held over and reported once; edges
are captured in order, with what their input's queue has lost. Of each of these commands it concludes that exec answers the next
state of its own effect: takeSnapshot, samplerEnable, hostSamplerEnable, samplerFire, timeOffsetMeasured, syncTimeout,
holdoverLimit, tsiEdge, tsiPulseFiltered, captureQueueRead. -/
def Obligations.SamplersAndDeviceTime : Prop :=
  (∀ s : State, ∃ t : State, exec .takeSnapshot s = .next t ∧ t.perf.snapshot = s.perf.cnt ∧ t.perf.snapNo = s.perf.snapNo + 1 ∧
    odGet t 0xC030 5 = s.time.devTime.toNat ∧ t.out = s.out ++ [Out.status .ok] ∧
    t = { s with od := t.od, perf := { s.perf with snapshot := t.perf.snapshot, snapNo := t.perf.snapNo }, out := t.out }) ∧
  (∀ (k : Fin 8) (on : Bool) (s : State), ∃ t : State, exec (.samplerEnable k on) s = .next t ∧
    odGet t (0xC040 + k.val) 1 = (if on then 1 else 0) ∧
    (on = true → odGet t (0xC040 + k.val) 6 = (samplerCounter s k.val + BitVec.ofNat 48 (odGet s (0xC040 + k.val) 4)).toNat) ∧
    t.out = s.out ++ [Out.status .ok] ∧ t = { s with od := t.od, out := t.out }) ∧
  (∀ (v : Fin 64) (x e : Fin 128) (lo : BitVec 32) (hi : BitVec 16) (s : State),
    (let p := hi.toNat * 2 ^ 32 + lo.toNat
     ∃ t : State, exec (.hostSamplerEnable v true x e lo hi) s = .next t ∧
       ((hostSampler t v.val).enable = true ↔ 1024 ≤ p ∧ p ≤ 2 ^ 47) ∧ (hostSampler t v.val).vector = x.val ∧
       (1024 ≤ p → p ≤ 2 ^ 47 → (hostSampler t v.val).threshold =
         (tabGet 0 (v.val * 128 + e.val) s.perf.vcs + BitVec.ofNat 48 p).toNat) ∧
       (∀ w : Nat, w ≠ v.val → hostSampler t w = hostSampler s w) ∧ t = { s with perf := { s.perf with host := t.perf.host } })) ∧
  (∀ (k : Fin 72) (s : State), k.val < 8 → odGet s (0xC040 + k.val) 1 = 1 → bits (odGet s (0xC040 + k.val) 5) 0 0 = 1 →
    bits (odGet s (0xC040 + k.val) 5) 1 1 = 0 → bits (odGet s (0xC040 + k.val) 5) 2 2 = 0 →
    (samplerCounter s k.val - BitVec.ofNat 48 (odGet s (0xC040 + k.val) 6)).toNat < 2 ^ 47 →
    ∃ t : State, exec (.samplerFire k) s = .next t ∧ t.out = s.out ++ [Out.samplerInterrupt k.val] ∧
      odGet t (0xC040 + k.val) 6 = (BitVec.ofNat 48 (odGet s (0xC040 + k.val) 6) + BitVec.ofNat 48 (odGet s (0xC040 + k.val) 4)).toNat ∧
      counter t (counterNo 0xC02F 1) = counter s (counterNo 0xC02F 1) + 1 ∧ (∀ j : Nat, j < 4 → (coreSt t j).level = .p0) ∧
      t = { s with od := t.od, perf := t.perf, mgmt := { s.mgmt with cores := t.mgmt.cores }, out := t.out }) ∧
  (∀ (k : Fin 72) (s : State), 8 ≤ k.val → (hostSampler s (k.val - 8)).enable = true →
    (tabGet 0 ((k.val - 8) * 128 + (hostSampler s (k.val - 8)).event) s.perf.vcs -
      BitVec.ofNat 48 (hostSampler s (k.val - 8)).threshold).toNat < 2 ^ 47 →
    ∃ t : State, exec (.samplerFire k) s = .next t ∧ t.out = s.out ++ [Out.msixPool (k.val - 8) (hostSampler s (k.val - 8)).vector] ∧
      (hostSampler t (k.val - 8)).threshold = (BitVec.ofNat 48 (hostSampler s (k.val - 8)).threshold +
        BitVec.ofNat 48 (hostSampler s (k.val - 8)).period).toNat ∧ t.fresh = s.fresh + 2 ∧ t.mgmt = s.mgmt ∧ t.mov = s.mov ∧ t.home = s.home) ∧
  (∀ (k : Fin 72) (s : State), k.val < 8 → odGet s (0xC040 + k.val) 1 = 1 →
    2 ^ 47 ≤ (samplerCounter s k.val - BitVec.ofNat 48 (odGet s (0xC040 + k.val) 6)).toNat → exec (.samplerFire k) s = .next s) ∧
  (∀ (off : Int) (gm : BitVec 64) (s : State), odGet s 0xC050 1 ≠ 0xFF →
    ∃ t : State, exec (.timeOffsetMeasured off gm) s = .next t ∧ odGet t 0xC050 6 = 1 ∧ t.time.grandmaster = gm ∧
      t.time.clock = s.time.clock ∧
      (odGet s 0xC050 6 = 0 ∨ odGet s 0xC050 4 < off.natAbs →
        t.time.devTime = s.time.devTime + BitVec.ofInt 64 off ∧ t.time.slewLeft = 0 ∧
        counter t (counterNo 0xC02F 7) = counter s (counterNo 0xC02F 7) + 1) ∧
      (odGet s 0xC050 6 ≠ 0 → off.natAbs ≤ odGet s 0xC050 4 → t.time.devTime = s.time.devTime ∧ t.time.slewLeft = off) ∧
      t = { s with time := t.time, od := t.od, spr := t.spr, perf := t.perf }) ∧
  (∀ s : State, odGet s 0xC050 6 = 1 → ∃ t : State, exec .syncTimeout s = .next t ∧ odGet t 0xC050 6 = 2 ∧ t.time.lossReported = false ∧
    t = { s with time := t.time, od := t.od }) ∧
  (∀ s : State, odGet s 0xC050 6 = 2 → s.time.lossReported = false →
    ∃ t : State, exec .holdoverLimit s = .next t ∧ t.time.lossReported = true ∧ (tabFind? 452 t.flt.pairs).isSome = true ∧
      counter t (counterNo 0xC02F 8) = counter s (counterNo 0xC02F 8) + 1 ∧
      t = { s with time := { s.time with lossReported := true }, flt := t.flt, perf := t.perf }) ∧
  (∀ (i : Fin 8) (b : Bool) (s : State), odGet s (0xC060 + i.val) 1 = 1 → edgeSelected (odGet s (0xC060 + i.val) 2) b = true →
    ∃ u : State, exec (.tsiEdge i b) s = .next (inputDoorbell (traceSpecial u 0x11 i.val 0xFF false 0).1 i.val) ∧
      (tsi u i.val).edges = (tsi s i.val).edges + 1 ∧
      ((tsi s i.val).queue.length < 64 → (tsi u i.val).lost = false ∧ ∃ r : EdgeRec, (tsi u i.val).queue = (tsi s i.val).queue ++ [r] ∧
        r.time = s.time.devTime ∧ r.rising = b ∧ r.lostBefore = (tsi s i.val).lost) ∧
      (64 ≤ (tsi s i.val).queue.length → (tsi u i.val).lost = true ∧ (tsi u i.val).queue = (tsi s i.val).queue) ∧
      (∀ j : Nat, j ≠ i.val → tsi u j = tsi s j) ∧ u = { s with perf := u.perf }) ∧
  (∀ (i : Fin 8) (w : Nat) (s : State), odGet s (0xC060 + i.val) 1 = 1 → w < odGet s (0xC060 + i.val) 3 →
    ∃ t : State, exec (.tsiPulseFiltered i w) s = .next t ∧ counter t (1480 + i.val) = counter s (1480 + i.val) + 1 ∧
      t = { s with perf := t.perf }) ∧
  (∀ (i : Fin 8) (n : Nat) (s : State), ∃ t : State, exec (.captureQueueRead i n) s = .next t ∧
    (tsi t i.val).queue = (tsi s i.val).queue.drop n ∧
    t.out = s.out ++ [Out.domainData .ok (((tsi s i.val).queue.take n).flatMap fun r => leBytes 16 r.bits)] ∧
    (∀ j : Nat, j ≠ i.val → tsi t j = tsi s j) ∧ t = { s with perf := { s.perf with tsi := t.perf.tsi }, out := t.out })

/-- R337, R340, R341, R446: each step of start-up leads to the next one, or start-up stops where a rule says so. R494, R495: RESET_N low
puts the device in reset while VAUX is good, and once it is high again, with nothing being written and the main domain off, start-up
runs again with what is not volatile kept. Of each of these commands it concludes that exec answers the next state of its own
effect: startupStepComplete, resetNFall, resetRelease. -/
def Obligations.StartupAndReset : Prop :=
  (∀ (f : StartupFind) (a b : Bool) (s : State), s.pow.vauxGood = true → s.pow.stopped = false → s.pins.inReset = false →
    s.pow.step = 1 → s.pins.resetN = true → bootBank s 1 = some a → bootBank s 2 = some b → f.selfTestsPass = true →
    ∃ t : State, exec (.startupStepComplete f) s = .next t ∧ t.pow.step = 2 ∧ t.sec.selfTests = true ∧ t.sec.runSecB = a ∧
      t.sec.runMgmtB = b ∧ t.fresh = s.fresh + 1 ∧
      t = { s with flt := t.flt, pow := t.pow, mgmt := { s.mgmt with sram := [] }, sec := t.sec, fresh := t.fresh }) ∧
  (∀ (f : StartupFind) (s : State), s.pow.vauxGood = true → s.pow.stopped = false → s.pins.inReset = false → s.pow.step = 1 →
    s.pins.resetN = true → bootBank s 1 = none ∨ bootBank s 2 = none ∨ f.selfTestsPass = false →
    exec (.startupStepComplete f) s = .next { s with sec := { s.sec with recovery := true }, pow := { s.pow with stopped := true }, pins := { s.pins with faultLow := true } }) ∧
  (∀ (f : StartupFind) (s : State), s.pow.vauxGood = true → s.pow.stopped = false → s.pins.inReset = false → s.pow.step = 2 →
    ∃ t : State, exec (.startupStepComplete f) s = .next t ∧ t.pow.step = 3 ∧ t.spr.serving = true ∧ t.pow.capUf = f.capUf ∧
      t.mgmt = s.mgmt) ∧
  (∀ (f : StartupFind) (s : State), s.pow.vauxGood = true → s.pow.stopped = false → s.pins.inReset = false → s.pow.step = 3 →
    (mainMayStart s = true → ∃ t : State, exec (.startupStepComplete f) s = .next t ∧ t.pow.step = 4 ∧ t.pow.mainOn = true ∧ t.last = none ∧
      t.pow.gov.epochs = some 0 ∧ t.mgmt = s.mgmt) ∧
    (mainMayStart s = false → exec (.startupStepComplete f) s = .next s)) ∧
  (∀ (f : StartupFind) (s : State), s.pow.vauxGood = true → s.pow.stopped = false → s.pins.inReset = false → s.pow.step = 4 →
    f.defects = [] → ∃ t : State, exec (.startupStepComplete f) s = .next t ∧ t.pow.step = 5 ∧ t.mgmt = s.mgmt) ∧
  (∀ (f : StartupFind) (s : State), s.pow.vauxGood = true → s.pow.stopped = false → s.pins.inReset = false → s.pow.step = 5 →
    ∃ t : State, exec (.startupStepComplete f) s = .next t ∧ t.pow.step = 6 ∧ (f.channel = none → t.pow.stopped = false) ∧
      (∀ c : Fin 16, f.channel = some c → t.pow.stopped = true ∧ (tabFind? 441 t.flt.pairs).isSome = true) ∧
      t = { s with flt := t.flt, pow := t.pow }) ∧
  (∀ (f : StartupFind) (s : State), s.pow.vauxGood = true → s.pow.stopped = false → s.pins.inReset = false → s.pow.step = 6 →
    ∃ t : State, exec (.startupStepComplete f) s = .next t ∧ t.pow.step = 7 ∧ t.dir.sf = [] ∧ t.dir.cache = [] ∧ t.map.backing = [] ∧
      t.mgmt = s.mgmt) ∧
  (∀ (f : StartupFind) (s : State), s.pow.vauxGood = true → s.pow.stopped = false → s.pins.inReset = false → s.pow.step = 7 →
    ∃ t : State, exec (.startupStepComplete f) s = .next t ∧ t.pow.step = 8 ∧ t.mgmt = s.mgmt) ∧
  (∀ (f : StartupFind) (s : State), s.pow.vauxGood = true → s.pow.stopped = false → s.pins.inReset = false → s.pow.step = 8 →
    ∃ t : State, exec (.startupStepComplete f) s = .next t ∧ t.pow.step = 9 ∧ t.pins.ready = true ∧
      t = { s with spr := t.spr, flt := t.flt, pow := t.pow, perf := t.perf, pins := { s.pins with ready := true } }) ∧
  (∀ s : State, s.pow.vauxGood = true → s.pins.inReset = false → mramBusy s = false → s.pow.mainOn = false →
    ∃ t : State, exec .resetNFall s = .next t ∧ t.pins.resetN = false ∧ t.pins.inReset = true ∧ t.pins.ready = false ∧
      t.pins.faultLow = false ∧ t.spr.sessions = [] ∧ t.spr.serving = false ∧ t = { s with spr := t.spr, pins := t.pins }) ∧
  (∀ s : State, s.pow.vauxGood = false → exec .resetNFall s = .next { s with pins := { s.pins with resetN := false } }) ∧
  (∀ s : State, s.pins.inReset = true → s.pow.vauxGood = true → mramBusy s = false → s.pow.mainOn = false →
    ∃ t : State, exec .resetRelease s = .next t ∧ t.pow.step = 1 ∧ t.pins.inReset = false ∧ t.pins.resetN = true ∧ t.flt.safe = false ∧
      t.flt.crash = s.flt.crash ∧ t.mgmt = State.reset.mgmt ∧ t.spr.slot0 = s.spr.slot0 ∧
      t.spr.slot1 = s.spr.slot1 ∧ t.sec.counters = s.sec.counters ∧ t.sec.revoked = s.sec.revoked ∧ t.sec.banks = s.sec.banks ∧
      t.sec.cert = s.sec.certNext.getD s.sec.cert ∧ t.sec.healthFailed = false ∧ t.perf.cnt = s.perf.cnt ∧ t.pending = s.pending) ∧
  (∀ s : State, mramBusy s = true ∨ s.pow.mainOn = true →
    exec .resetRelease s = .next { s with pins := { s.pins with resetN := true } })

/-- Every command answers a next state in every state, neither a fault nor a refusal, and no command changes the queue of those that
wait: whatever a command does, the commands behind it are still there. -/
def Obligations.QueueKept : Prop :=
  ∀ (c : Instr) (s : State), ∃ t : State, exec c s = .next t ∧ t.pending = s.pending

/-- R364, R421: only the commands of `reachesManagement` change the management complex: no traffic of the switch, the fabric, the
directory, the links, the mover or the dictionary reaches its cores, memories or masters. -/
def Obligations.ManagementIsolated : Prop :=
  ∀ (c : Instr) (s t : State), Safety.reachesManagement c = false → exec c s = .next t → t.mgmt = s.mgmt

/-- R365 to R371: every step keeps the management complex sound: each master has 16 outstanding transactions at most, and the SRAM stays
in its canonical form. -/
def Obligations.ManagementSoundKept : Prop :=
  ∀ s t : State, Safety.managementSound s = true → step s = .next t → Safety.managementSound t = true
end

