-- ==== Sys2Proof/Laws/Crc.lean ====
section
/-!
SUPPORT. Laws/Crc.lean: the CRC-16 of a unit (R43): which bits it stands over, and that a unit carries its own.
-/

namespace Sys2Proof.Laws

open Sys2Proof.Machine

/-- Where a bit of a unit lies: the payload below the CRC below the rest of the header (R42). -/
theorem bit_of_unit (h : BitVec 112) (c : BitVec 16) (p : BitVec 512) (k : Nat) :
    (h ++ c ++ p : UnitBits).getLsbD k =
      if k < 512 then p.getLsbD k else if k - 512 < 16 then c.getLsbD (k - 512) else h.getLsbD (k - 512 - 16) := by
  have a := BitVec.getLsbD_append (x := h ++ c) (y := p) (i := k)
  rw [BitVec.getLsbD_append (x := h) (y := c)] at a
  exact a

/-- A unit passes the check exactly when its CRC field is the CRC of the rest. -/
theorem crcOk_append (h : BitVec 112) (c : BitVec 16) (p : BitVec 512) :
    crcOk (h ++ c ++ p) = decide (crc16 (h ++ p) = c) := by
  have e1 : (h ++ c ++ p : UnitBits).extractLsb' 528 112 = h := by
    ext i hi
    rw [BitVec.getElem_extractLsb', bit_of_unit]
    simp [show ¬ (528 + i < 512) by omega, show ¬ (528 + i - 512 < 16) by omega, show 528 + i - 512 - 16 = i by omega,
      BitVec.getLsbD_eq_getElem hi]
  have e2 : (h ++ c ++ p : UnitBits).extractLsb' 0 512 = p := by
    ext i hi
    rw [BitVec.getElem_extractLsb', bit_of_unit]
    simp [hi, BitVec.getLsbD_eq_getElem hi]
  have e3 : (h ++ c ++ p : UnitBits).extractLsb' 512 16 = c := by
    ext i hi
    rw [BitVec.getElem_extractLsb', bit_of_unit]
    simp [hi, BitVec.getLsbD_eq_getElem hi]
  unfold crcOk
  rw [e1, e2, e3]

/-- Every unit as it crosses passes the check. -/
theorem crcOk_packUnit (u : FUnit) : crcOk (packUnit u) = true := by
  unfold packUnit
  rw [crcOk_append]
  simp [unitCrc]

end Sys2Proof.Laws
end

