-- ==== Sys2Proof/Laws/FrameBase.lean ====
section
/-!
SUPPORT. Laws/FrameBase.lean: what it says that an operation keeps the management complex and the queue of commands, and folds over such operations.
-/

namespace Sys2Proof.Laws
open Sys2Proof.Machine

/-- An outcome whose next state keeps the management complex and the queue of commands. -/
def okept (s : State) : Host.Outcome State Fault Refusal → Prop
  | .next t => t.mgmt = s.mgmt ∧ t.pending = s.pending
  | _ => True
@[simp] theorem okept_next (s t : State) : okept s (.next t) ↔ t.mgmt = s.mgmt ∧ t.pending = s.pending := Iff.rfl
@[simp] theorem okept_answered (s : State) (r : State × Status) :
  okept s (answered r) ↔ r.1.mgmt = s.mgmt ∧ r.1.pending = s.pending := Iff.rfl
/-- The same of a state that may be absent. -/
def optKept (s : State) : Option State → Prop
  | some t => t.mgmt = s.mgmt ∧ t.pending = s.pending
  | none => True
/-- The same of a state beside a value, which may be absent. -/
def optKept1 {α : Type} (s : State) : Option (State × α) → Prop
  | some t => t.1.mgmt = s.mgmt ∧ t.1.pending = s.pending
  | none => True
@[simp] theorem optKept_some (s t : State) : optKept s (some t) ↔ t.mgmt = s.mgmt ∧ t.pending = s.pending := Iff.rfl
@[simp] theorem optKept_none (s : State) : optKept s none := trivial
@[simp] theorem optKept1_some {α : Type} (s : State) (t : State × α) : optKept1 s (some t) ↔ t.1.mgmt = s.mgmt ∧ t.1.pending = s.pending := Iff.rfl
@[simp] theorem optKept1_none {α : Type} (s : State) : optKept1 s (none : Option (State × α)) := trivial

theorem foldl_keep {α : Type} (f : State → α → State) (l : List α) (s : State)
    (h : ∀ s a, (f s a).mgmt = s.mgmt ∧ (f s a).pending = s.pending) :
    (l.foldl f s).mgmt = s.mgmt ∧ (l.foldl f s).pending = s.pending := by
  induction l generalizing s with
  | nil => simp
  | cons a l ih => simp [ih, h]
@[simp] theorem foldl_mgmt {α : Type} (f : State → α → State) (l : List α) (s : State) (h : ∀ s a, (f s a).mgmt = s.mgmt) :
    (l.foldl f s).mgmt = s.mgmt := by
  induction l generalizing s with
  | nil => simp
  | cons a l ih => simp [ih, h]
@[simp] theorem foldl_pending {α : Type} (f : State → α → State) (l : List α) (s : State) (h : ∀ s a, (f s a).pending = s.pending) :
    (l.foldl f s).pending = s.pending := by
  induction l generalizing s with
  | nil => simp
  | cons a l ih => simp [ih, h]
theorem foldl_fst_mgmt {α β : Type} (f : State × β → α → State × β) (l : List α) (x : State × β)
    (h : ∀ x a, (f x a).1.mgmt = x.1.mgmt) : (l.foldl f x).1.mgmt = x.1.mgmt := by
  induction l generalizing x with
  | nil => simp
  | cons a l ih => simp [ih, h]
theorem foldl_fst_pending {α β : Type} (f : State × β → α → State × β) (l : List α) (x : State × β)
    (h : ∀ x a, (f x a).1.pending = x.1.pending) : (l.foldl f x).1.pending = x.1.pending := by
  induction l generalizing x with
  | nil => simp
  | cons a l ih => simp [ih, h]
@[simp] theorem ite_mgmt (c : Prop) [Decidable c] (a b : State) : (if c then a else b).mgmt = if c then a.mgmt else b.mgmt := by split <;> rfl
@[simp] theorem ite_pending (c : Prop) [Decidable c] (a b : State) : (if c then a else b).pending = if c then a.pending else b.pending := by split <;> rfl
@[simp] theorem ite_fst {α β : Type} (c : Prop) [Decidable c] (a b : α × β) : (if c then a else b).1 = if c then a.1 else b.1 := by split <;> rfl
theorem foldl_from {α : Type} (s : State) (f : State → α → State) (s0 : State) (l : List α)
    (h0 : s0.mgmt = s.mgmt ∧ s0.pending = s.pending)
    (h : ∀ s a, (f s a).mgmt = s.mgmt ∧ (f s a).pending = s.pending) :
    (l.foldl f s0).mgmt = s.mgmt ∧ (l.foldl f s0).pending = s.pending :=
  ⟨(foldl_keep f l s0 h).1.trans h0.1, (foldl_keep f l s0 h).2.trans h0.2⟩
theorem foldl_fst_from {α β : Type} (s : State) (f : State × β → α → State × β) (x : State × β) (l : List α)
    (h0 : x.1.mgmt = s.mgmt ∧ x.1.pending = s.pending)
    (h : ∀ x a, (f x a).1.mgmt = x.1.mgmt ∧ (f x a).1.pending = x.1.pending) :
    (l.foldl f x).1.mgmt = s.mgmt ∧ (l.foldl f x).1.pending = s.pending :=
  ⟨(foldl_fst_mgmt f l x fun x a => (h x a).1).trans h0.1, (foldl_fst_pending f l x fun x a => (h x a).2).trans h0.2⟩
end Sys2Proof.Laws
end

