-- ==== Sys2Proof/Laws/FrameFabric.lean ====
section
/-!
SUPPORT. Laws/FrameFabric.lean: which operations keep the management complex and the queue of commands: the fabric: crossings, rings, route banks, proxies, ingress and egress.
-/

set_option Elab.async false
set_option linter.all false
set_option linter.unusedSimpArgs false

namespace Sys2Proof.Laws

open Sys2Proof.Machine

/-! ### Machine/FaultCfg.lean -/

@[simp] theorem checkDone_keep (s : State) (f : Nat) :
    (checkDone s f).mgmt = s.mgmt ∧ (checkDone s f).pending = s.pending := by
  constructor <;> rfl

@[simp] theorem lpddrChecked_keep (s : State) (a : Nat) :
    (lpddrChecked s a).1.mgmt = s.mgmt ∧ (lpddrChecked s a).1.pending = s.pending := by
  constructor <;> first | rfl | (unfold lpddrChecked; rfl) | (simp [lpddrChecked]; done) | (unfold lpddrChecked; split <;> simp; done) | (unfold lpddrChecked; (try dsimp only); (repeat' split) <;> (try dsimp only) <;> simp) | (unfold lpddrChecked; (try dsimp only); (repeat' split) <;> (try dsimp only) <;> first | (simp; done) | ((simp; done)) | (((try simp); first | refine (foldl_mgmt _ _ _ ?_).trans ?_ | refine (foldl_pending _ _ _ ?_).trans ?_ | refine (foldl_fst_mgmt _ _ _ ?_).trans ?_ | refine (foldl_fst_pending _ _ _ ?_).trans ?_) <;> (try intro t a) <;> (try dsimp only) <;> (repeat' split) <;> (simp; done)))

@[simp] theorem lpddrUnplaced_keep (s : State) :
    (lpddrUnplaced s).1.mgmt = s.mgmt ∧ (lpddrUnplaced s).1.pending = s.pending := by
  constructor <;> first | rfl | (unfold lpddrUnplaced; rfl) | (simp [lpddrUnplaced]; done) | (unfold lpddrUnplaced; split <;> simp; done) | (unfold lpddrUnplaced; (try dsimp only); (repeat' split) <;> (try dsimp only) <;> simp) | (unfold lpddrUnplaced; (try dsimp only); (repeat' split) <;> (try dsimp only) <;> first | (simp; done) | ((simp; done)) | (((try simp); first | refine (foldl_mgmt _ _ _ ?_).trans ?_ | refine (foldl_pending _ _ _ ?_).trans ?_ | refine (foldl_fst_mgmt _ _ _ ?_).trans ?_ | refine (foldl_fst_pending _ _ _ ?_).trans ?_) <;> (try intro t a) <;> (try dsimp only) <;> (repeat' split) <;> (simp; done)))

/-! ### Machine/Tokens.lean -/

theorem spend?_keep (s : State) (k cost : Nat) (t : State) (h : spend? s k cost = some t) : t.mgmt = s.mgmt ∧ t.pending = s.pending := by
  simp only [spend?, Option.map_eq_some_iff] at h
  obtain ⟨g, -, rfl⟩ := h
  exact ⟨rfl, rfl⟩

/-! ### Machine/Trace.lean -/

@[simp] theorem traceWrite_keep (s : State) (mk : Nat → TraceRec) :
    (traceWrite s mk).mgmt = s.mgmt ∧ (traceWrite s mk).pending = s.pending := by
  unfold traceWrite
  dsimp only
  split
  · exact ⟨rfl, rfl⟩
  · split
    · exact ⟨rfl, rfl⟩
    · rename_i h; simpa using spend?_keep _ _ _ _ h


@[simp] theorem filterCount_keep (s : State) (f : Nat) :
    (filterCount s f).1.mgmt = s.mgmt ∧ (filterCount s f).1.pending = s.pending := by
  constructor <;> rfl

@[simp] theorem traceUnit_keep (s : State) (tap port data : Nat) (u : FUnit) :
    (traceUnit s tap port data u).mgmt = s.mgmt ∧ (traceUnit s tap port data u).pending = s.pending := by
  unfold traceUnit
  split
  · dsimp only
    generalize hr : List.foldl _ _ _ = r
    have h : r.1.mgmt = s.mgmt ∧ r.1.pending = s.pending := by
      rw [← hr]
      refine foldl_fst_from s _ _ _ ⟨rfl, rfl⟩ fun x a => ?_
      simp
    split
    · exact h
    · simpa using h
  · exact ⟨rfl, rfl⟩


@[simp] theorem traceSpecial_keep (s : State) (tap : Nat) (data : Nat) (vcs : Nat) (skid : Bool) (header : BitVec 128) :
    (traceSpecial s tap data vcs skid header).1.mgmt = s.mgmt ∧ (traceSpecial s tap data vcs skid header).1.pending = s.pending := by
  constructor <;> (simp [traceSpecial]; done)

theorem traceRecord_kept (x : State × List (Option TraceRec)) (i : Nat) :
    (traceRecord x i).1.mgmt = x.1.mgmt ∧ (traceRecord x i).1.pending = x.1.pending := by
  unfold traceRecord
  dsimp only
  split <;> simp

@[simp] theorem traceRead_keep (s : State) (n : Nat) :
    (traceRead s n).1.mgmt = s.mgmt ∧ (traceRead s n).1.pending = s.pending := by
  have key : ∀ (l : List Nat) (r : Nat) (x : State × List (Option TraceRec)),
      (l.foldl (fun a i => traceRecord a (r + i)) x).1.mgmt = x.1.mgmt ∧ (l.foldl (fun a i => traceRecord a (r + i)) x).1.pending = x.1.pending := by
    intro l r x
    exact ⟨foldl_fst_mgmt _ _ _ (fun x a => (traceRecord_kept x (r + a)).1), foldl_fst_pending _ _ _ (fun x a => (traceRecord_kept x (r + a)).2)⟩
  unfold traceRead
  simp [key]



theorem execTraceRingRead_keep (n : Fin 65537) (s : State) : okept s (execTraceRingRead n s) := by
  (simp [execTraceRingRead]; done)

theorem execTraceReadIndexWrite_keep (i : BitVec 64) (s : State) : okept s (execTraceReadIndexWrite i s) := by
  (simp [execTraceReadIndexWrite]; done)

/-! ### Machine/Crossing.lean -/

@[simp] theorem setXing_keep (s : State) (c : Nat) (x : Crossing) :
    (setXing s c x).mgmt = s.mgmt ∧ (setXing s c x).pending = s.pending := by
  constructor <;> rfl

@[simp] theorem crossSend_keep (s : State) (c : Nat) (h : Held) :
    (crossSend s c h).mgmt = s.mgmt ∧ (crossSend s c h).pending = s.pending := by
  constructor <;> rfl

@[simp] theorem niPush_keep (s : State) (n : Nat) (a : Nat) (h : Held) :
    (niPush s n a h).mgmt = s.mgmt ∧ (niPush s n a h).pending = s.pending := by
  constructor <;> rfl

@[simp] theorem nextUnit_keep (s : State) :
    (nextUnit s).mgmt = s.mgmt ∧ (nextUnit s).pending = s.pending := by
  constructor <;> rfl

@[simp] theorem sendAt_keep (s : State) (n : Nat) (a : Nat) (u : FUnit) (t : Option Tlp) (hpa : Option (Nat × BitVec 46)) :
    (sendAt s n a u t hpa).mgmt = s.mgmt ∧ (sendAt s n a u t hpa).pending = s.pending := by
  constructor <;> (unfold sendAt; split <;> simp; done)

@[simp] theorem send_keep (s : State) (u : FUnit) :
    (send s u).mgmt = s.mgmt ∧ (send s u).pending = s.pending := by
  constructor <;> (simp [send]; done)

@[simp] theorem sendAll_keep (s : State) (us : List FUnit) :
    (sendAll s us).mgmt = s.mgmt ∧ (sendAll s us).pending = s.pending := by
  constructor <;> (simp [sendAll]; done)

@[simp] theorem sendTlpBy_keep (s : State) (n : Nat) (a : Nat) (t : Tlp) (src : BitVec 12) (dst : BitVec 12) (tag : BitVec 16) (f : FUnit → FUnit) :
    (sendTlpBy s n a t src dst tag f).mgmt = s.mgmt ∧ (sendTlpBy s n a t src dst tag f).pending = s.pending := by
  constructor <;> first | rfl | (unfold sendTlpBy; rfl) | (simp [sendTlpBy]; done) | (unfold sendTlpBy; split <;> simp; done) | (unfold sendTlpBy; (try dsimp only); (repeat' split) <;> (try dsimp only) <;> simp) | (unfold sendTlpBy; (try dsimp only); (repeat' split) <;> (try dsimp only) <;> first | (simp; done) | ((simp; done)) | (((try simp); first | refine (foldl_mgmt _ _ _ ?_).trans ?_ | refine (foldl_pending _ _ _ ?_).trans ?_ | refine (foldl_fst_mgmt _ _ _ ?_).trans ?_ | refine (foldl_fst_pending _ _ _ ?_).trans ?_) <;> (try intro t a) <;> (try dsimp only) <;> (repeat' split) <;> (simp; done)))

@[simp] theorem sendTlp_keep (s : State) (n : Nat) (a : Nat) (t : Tlp) (src : BitVec 12) (dst : BitVec 12) (tag : BitVec 16) :
    (sendTlp s n a t src dst tag).mgmt = s.mgmt ∧ (sendTlp s n a t src dst tag).pending = s.pending := by
  constructor <;> (simp [sendTlp]; done)

@[simp] theorem sendSynth_keep (s : State) (n : Nat) (a : Nat) (t : Tlp) (src : BitVec 12) (dst : BitVec 12) (tag : BitVec 16) :
    (sendSynth s n a t src dst tag).mgmt = s.mgmt ∧ (sendSynth s n a t src dst tag).pending = s.pending := by
  constructor <;> first | rfl | (unfold sendSynth; rfl) | (simp [sendSynth]; done) | (unfold sendSynth; split <;> simp; done) | (unfold sendSynth; (try dsimp only); (repeat' split) <;> (try dsimp only) <;> simp) | (unfold sendSynth; (try dsimp only); (repeat' split) <;> (try dsimp only) <;> first | (simp; done) | ((simp; done)) | (((try simp); first | refine (foldl_mgmt _ _ _ ?_).trans ?_ | refine (foldl_pending _ _ _ ?_).trans ?_ | refine (foldl_fst_mgmt _ _ _ ?_).trans ?_ | refine (foldl_fst_pending _ _ _ ?_).trans ?_) <;> (try intro t a) <;> (try dsimp only) <;> (repeat' split) <;> (simp; done)))

@[simp] theorem bounce_keep (s : State) (n : Nat) (h : Held) :
    (bounce s n h).mgmt = s.mgmt ∧ (bounce s n h).pending = s.pending := by
  constructor <;> (simp [bounce]; done)

@[simp] theorem moverWriteGone_keep (s : State) (u : FUnit) :
    (moverWriteGone s u).mgmt = s.mgmt ∧ (moverWriteGone s u).pending = s.pending := by
  constructor <;> (simp [moverWriteGone]; done)

@[simp] theorem crossReceive_keep (s : State) (c : Nat) (w : UnitBits) :
    (crossReceive s c w).1.mgmt = s.mgmt ∧ (crossReceive s c w).1.pending = s.pending := by
  constructor <;> (unfold crossReceive; (try dsimp only); (repeat' split) <;> (try dsimp only) <;> simp)

@[simp] theorem crossResend_keep (s : State) (c : Nat) :
    (crossResend s c).mgmt = s.mgmt ∧ (crossResend s c).pending = s.pending := by
  constructor <;> (unfold crossResend; (try dsimp only); (repeat' split) <;> (try dsimp only) <;> simp)

theorem execCrossingResend_keep (c : Fin 686) (s : State) : okept s (execCrossingResend c s) := by
  (simp [execCrossingResend]; done)

/-! ### Machine/Egress.lean -/

@[simp] theorem setEgress_keep (s : State) (port : Nat) (v : Vn) (l : List EgUnit) :
    (setEgress s port v l).mgmt = s.mgmt ∧ (setEgress s port v l).pending = s.pending := by
  constructor <;> rfl

@[simp] theorem setIngress_keep (s : State) (port : Nat) (v : Vn) (l : List InMsg) :
    (setIngress s port v l).mgmt = s.mgmt ∧ (setIngress s port v l).pending = s.pending := by
  constructor <;> rfl

@[simp] theorem setAulPort_keep (s : State) (a : Nat) (x : AulPort) :
    (setAulPort s a x).mgmt = s.mgmt ∧ (setAulPort s a x).pending = s.pending := by
  constructor <;> rfl

@[simp] theorem linkFreed_keep (s : State) (a : Nat) (l : List Held) :
    (linkFreed s a l).mgmt = s.mgmt ∧ (linkFreed s a l).pending = s.pending := by
  constructor <;> first | rfl | (unfold linkFreed; rfl) | (simp [linkFreed]; done) | (unfold linkFreed; split <;> simp; done) | (unfold linkFreed; (try dsimp only); (repeat' split) <;> (try dsimp only) <;> simp) | (unfold linkFreed; (try dsimp only); (repeat' split) <;> (try dsimp only) <;> first | (simp; done) | ((simp; done)) | (((try simp); first | refine (foldl_mgmt _ _ _ ?_).trans ?_ | refine (foldl_pending _ _ _ ?_).trans ?_ | refine (foldl_fst_mgmt _ _ _ ?_).trans ?_ | refine (foldl_fst_pending _ _ _ ?_).trans ?_) <;> (try intro t a) <;> (try dsimp only) <;> (repeat' split) <;> (simp; done)))

@[simp] theorem setLinkQueue_keep (s : State) (a : Nat) (v : Vn) (l : List Held) :
    (setLinkQueue s a v l).mgmt = s.mgmt ∧ (setLinkQueue s a v l).pending = s.pending := by
  constructor <;> first | rfl | (unfold setLinkQueue; rfl) | (simp [setLinkQueue]; done) | (unfold setLinkQueue; split <;> simp; done) | (unfold setLinkQueue; (try dsimp only); (repeat' split) <;> (try dsimp only) <;> simp) | (unfold setLinkQueue; (try dsimp only); (repeat' split) <;> (try dsimp only) <;> first | (simp; done) | ((simp; done)) | (((try simp); first | refine (foldl_mgmt _ _ _ ?_).trans ?_ | refine (foldl_pending _ _ _ ?_).trans ?_ | refine (foldl_fst_mgmt _ _ _ ?_).trans ?_ | refine (foldl_fst_pending _ _ _ ?_).trans ?_) <;> (try intro t a) <;> (try dsimp only) <;> (repeat' split) <;> (simp; done)))

@[simp] theorem setActive_keep (s : State) (port : Nat) (i : Nat) (v : Nat) :
    (setActive s port i v).mgmt = s.mgmt ∧ (setActive s port i v).pending = s.pending := by
  constructor <;> rfl

@[simp] theorem applyLimits_keep (s : State) (d : Nat) :
    (applyLimits s d).mgmt = s.mgmt ∧ (applyLimits s d).pending = s.pending := by
  constructor <;> (simp [applyLimits]; done)

@[simp] theorem raiseLimits_keep (s : State) (d : Nat) :
    (raiseLimits s d).mgmt = s.mgmt ∧ (raiseLimits s d).pending = s.pending := by
  constructor <;> (unfold raiseLimits; split <;> simp; done)

@[simp] theorem bufferCommit_keep (s : State) :
    (bufferCommit s).1.mgmt = s.mgmt ∧ (bufferCommit s).1.pending = s.pending := by
  unfold bufferCommit
  split
  · simp
  · split
    · simp
    · split
      · simp
      · exact foldl_from s _ _ _ (by simp) fun t d => by simp


theorem execBufferLimitCommit_keep (s : State) : okept s (execBufferLimitCommit s) := by
  (simp [execBufferLimitCommit]; done)

theorem execRaisedLimitsActive_keep (d : Fin 4) (s : State) : okept s (execRaisedLimitsActive d s) := by
  (simp [execRaisedLimitsActive]; done)

@[simp] theorem egressPush_keep (s : State) (port : Nat) (h : Held) (m : Option LinkMsg) :
    (egressPush s port h m).mgmt = s.mgmt ∧ (egressPush s port h m).pending = s.pending := by
  constructor <;> (unfold egressPush; (try dsimp only); (repeat' split) <;> (try dsimp only) <;> simp)

@[simp] theorem hostSend_keep (s : State) (port : Nat) (v : Vn) (m : LinkMsg) :
    (hostSend s port v m).mgmt = s.mgmt ∧ (hostSend s port v m).pending = s.pending := by
  constructor <;> rfl

@[simp] theorem egressTaken_keep (s : State) (port : Nat) (v : Vn) (id : Nat) (m : Option LinkMsg) :
    (egressTaken s port v id m).mgmt = s.mgmt ∧ (egressTaken s port v id m).pending = s.pending := by
  constructor <;> (unfold egressTaken; split <;> simp; done)

@[simp] theorem gapOpens_keep (s : State) (port : Nat) (v : Vn) :
    (gapOpens s port v).mgmt = s.mgmt ∧ (gapOpens s port v).pending = s.pending := by
  constructor <;> first | rfl | (unfold gapOpens; rfl) | (simp [gapOpens]; done) | (unfold gapOpens; split <;> simp; done) | (unfold gapOpens; (try dsimp only); (repeat' split) <;> (try dsimp only) <;> simp) | (unfold gapOpens; (try dsimp only); (repeat' split) <;> (try dsimp only) <;> first | (simp; done) | ((simp; done)) | (((try simp); first | refine (foldl_mgmt _ _ _ ?_).trans ?_ | refine (foldl_pending _ _ _ ?_).trans ?_ | refine (foldl_fst_mgmt _ _ _ ?_).trans ?_ | refine (foldl_fst_pending _ _ _ ?_).trans ?_) <;> (try intro t a) <;> (try dsimp only) <;> (repeat' split) <;> (simp; done)))

@[simp] theorem gapCloses_keep (s : State) (port : Nat) (v : Vn) :
    (gapCloses s port v).mgmt = s.mgmt ∧ (gapCloses s port v).pending = s.pending := by
  constructor <;> first | rfl | (unfold gapCloses; rfl) | (simp [gapCloses]; done) | (unfold gapCloses; split <;> simp; done) | (unfold gapCloses; (try dsimp only); (repeat' split) <;> (try dsimp only) <;> simp) | (unfold gapCloses; (try dsimp only); (repeat' split) <;> (try dsimp only) <;> first | (simp; done) | ((simp; done)) | (((try simp); first | refine (foldl_mgmt _ _ _ ?_).trans ?_ | refine (foldl_pending _ _ _ ?_).trans ?_ | refine (foldl_fst_mgmt _ _ _ ?_).trans ?_ | refine (foldl_fst_pending _ _ _ ?_).trans ?_) <;> (try intro t a) <;> (try dsimp only) <;> (repeat' split) <;> (simp; done)))

theorem execCutThroughUnitArrive_keep (port : Fin 112) (v : Vn) (s : State) : okept s (execCutThroughUnitArrive port v s) := by
  (unfold execCutThroughUnitArrive; (try dsimp only); (repeat' split) <;> (try dsimp only) <;> simp)

/-! ### Machine/Decoding.lean -/

@[simp] theorem setDecoder_keep (s : State) (v : Nat) (i : Nat) (d : Decoder) :
    (setDecoder s v i d).mgmt = s.mgmt ∧ (setDecoder s v i d).pending = s.pending := by
  constructor <;> rfl

@[simp] theorem undecoded_keep (s : State) (v : Nat) (a : Nat) :
    (undecoded s v a).mgmt = s.mgmt ∧ (undecoded s v a).pending = s.pending := by
  constructor <;> (simp [undecoded]; done)

@[simp] theorem refusal_keep (s : State) (v : Nat) (p : Nat) (wr : Bool) :
    (refusal s v p wr).mgmt = s.mgmt ∧ (refusal s v p wr).pending = s.pending := by
  constructor <;> (simp [refusal]; done)

/-! ### Machine/PageLog.lean -/

@[simp] theorem setFunc_keep (s : State) (n : Nat) (f : Func) :
    (setFunc s n f).mgmt = s.mgmt ∧ (setFunc s n f).pending = s.pending := by
  constructor <;> rfl

@[simp] theorem setVppb_keep (s : State) (v : Nat) (d : Nat) (x : Vppb) :
    (setVppb s v d x).mgmt = s.mgmt ∧ (setVppb s v d x).pending = s.pending := by
  constructor <;> rfl

@[simp] theorem bumpFn_keep (s : State) (fn : Nat) (e : Nat) (k : Nat) :
    (bumpFn s fn e k).mgmt = s.mgmt ∧ (bumpFn s fn e k).pending = s.pending := by
  constructor <;> (unfold bumpFn; (try dsimp only); (repeat' split) <;> (try dsimp only) <;> simp)

@[simp] theorem hostWrite_keep (s : State) (v : Nat) (rid : BitVec 16) (addr : Nat) (data : List Byte) (poison : Bool) :
    (hostWrite s v rid addr data poison).mgmt = s.mgmt ∧ (hostWrite s v rid addr data poison).pending = s.pending := by
  constructor <;> (unfold hostWrite; split <;> simp; done)

@[simp] theorem setLogCh_keep (s : State) (c : Nat) (x : LogCh) :
    (setLogCh s c x).mgmt = s.mgmt ∧ (setLogCh s c x).pending = s.pending := by
  constructor <;> rfl

@[simp] theorem lcbWrite_keep (s : State) (c : Nat) (off : Nat) (data : List Byte) :
    (lcbWrite s c off data).mgmt = s.mgmt ∧ (lcbWrite s c off data).pending = s.pending := by
  constructor <;> (simp [lcbWrite]; done)

@[simp] theorem lcbProducer_keep (s : State) (c : Nat) :
    (lcbProducer s c).mgmt = s.mgmt ∧ (lcbProducer s c).pending = s.pending := by
  constructor <;> (simp [lcbProducer]; done)

@[simp] theorem logState_keep (s : State) (c : Nat) (x : LogCh) :
    (logState s c x).mgmt = s.mgmt ∧ (logState s c x).pending = s.pending := by
  constructor <;> (simp [logState]; done)

@[simp] theorem logEntry_keep (s : State) (c : Nat) (page : Nat) (x : LogCh) :
    (logEntry s c page x).mgmt = s.mgmt ∧ (logEntry s c page x).pending = s.pending := by
  constructor <;> (simp [logEntry]; done)

@[simp] theorem logCount_keep (s : State) (c : Nat) (e : Nat) :
    (logCount s c e).mgmt = s.mgmt ∧ (logCount s c e).pending = s.pending := by
  constructor <;> (simp [logCount]; done)

@[simp] theorem logEvent_keep (s : State) (c : Nat) (a : Nat) :
    (logEvent s c a).mgmt = s.mgmt ∧ (logEvent s c a).pending = s.pending := by
  constructor <;> (simp [logEvent]; done)

@[simp] theorem logFunc_keep (s : State) (f : Nat) (a : Nat) :
    (logFunc s f a).mgmt = s.mgmt ∧ (logFunc s f a).pending = s.pending := by
  constructor <;> (simp [logFunc]; done)

@[simp] theorem logTrackers_keep (s : State) (v a : Nat) :
    (logTrackers s v a).mgmt = s.mgmt ∧ (logTrackers s v a).pending = s.pending :=
  foldl_keep _ _ _ fun t k => by split <;> simp

/-! ### Machine/Proxy.lean -/

@[simp] theorem setProxy_keep (s : State) (v : Nat) (x : Proxy) :
    (setProxy s v x).mgmt = s.mgmt ∧ (setProxy s v x).pending = s.pending := by
  constructor <;> rfl

@[simp] theorem flushed_keep (s : State) (p : Nat) (u : FUnit) :
    (flushed s p u).mgmt = s.mgmt ∧ (flushed s p u).pending = s.pending := by
  constructor <;> (simp [flushed]; done)

@[simp] theorem answerHost_keep (s : State) (p : Nat) (vn : Vn) (id : Nat) (m : LinkMsg) :
    (answerHost s p vn id m).mgmt = s.mgmt ∧ (answerHost s p vn id m).pending = s.pending := by
  constructor <;> (simp [answerHost]; done)

@[simp] theorem tellHost_keep (s : State) (p : Nat) (vn : Vn) (m : LinkMsg) :
    (tellHost s p vn m).mgmt = s.mgmt ∧ (tellHost s p vn m).pending = s.pending := by
  constructor <;> (simp [tellHost]; done)

@[simp] theorem issueUnit_keep (s : State) (v : Nat) (p : Nat) (ty : Nat) (vn : Vn) (tag : Nat) (hpa : BitVec 46) (payload : BitVec 512) (poison : Bool) (since : Nat) :
    (issueUnit s v p ty vn tag hpa payload poison since).mgmt = s.mgmt ∧ (issueUnit s v p ty vn tag hpa payload poison since).pending = s.pending := by
  constructor <;> (simp [issueUnit]; done)

@[simp] theorem issueReq_keep (s : State) (v : Nat) (p : Nat) (e : ProxyReq) (since : Nat) :
    (issueReq s v p e since).mgmt = s.mgmt ∧ (issueReq s v p e since).pending = s.pending := by
  constructor <;> (simp [issueReq]; done)

@[simp] theorem issueWrite_keep (s : State) (v : Nat) (p : Nat) (e : ProxyWrite) (since : Nat) :
    (issueWrite s v p e since).mgmt = s.mgmt ∧ (issueWrite s v p e since).pending = s.pending := by
  constructor <;> (simp [issueWrite]; done)

@[simp] theorem issueEvict_keep (s : State) (v : Nat) (p : Nat) (e : ProxyEvict) (since : Nat) :
    (issueEvict s v p e since).mgmt = s.mgmt ∧ (issueEvict s v p e since).pending = s.pending := by
  constructor <;> (simp [issueEvict]; done)

@[simp] theorem evictionFreed_keep (s : State) (v : Nat) (p : Nat) (hpa : BitVec 46) :
    (evictionFreed s v p hpa).mgmt = s.mgmt ∧ (evictionFreed s v p hpa).pending = s.pending := by
  constructor <;> (simp [evictionFreed]; done)

@[simp] theorem snoopReply_keep (s : State) (v : Nat) (p : Nat) (sn : ProxySnoop) (dirty : Option (LineData × Bool)) (keptS : Bool) :
    (snoopReply s v p sn dirty keptS).mgmt = s.mgmt ∧ (snoopReply s v p sn dirty keptS).pending = s.pending := by
  constructor <;> (unfold snoopReply; (try dsimp only); (repeat' split) <;> (try dsimp only) <;> simp)

@[simp] theorem snoopLost_keep (s : State) (v : Nat) (p : Nat) (src : BitVec 12) (tag : BitVec 16) (l : BitVec 42) :
    (snoopLost s v p src tag l).mgmt = s.mgmt ∧ (snoopLost s v p src tag l).pending = s.pending := by
  constructor <;> (simp [snoopLost]; done)

@[simp] theorem dropSnoop_keep (s : State) (v : Nat) (bt : Nat) :
    (dropSnoop s v bt).mgmt = s.mgmt ∧ (dropSnoop s v bt).pending = s.pending := by
  constructor <;> rfl

@[simp] theorem sendBiSnp_keep (s : State) (v : Nat) (p : Nat) (sn : ProxySnoop) (d : Option (LineData × Bool)) :
    (sendBiSnp s v p sn d).mgmt = s.mgmt ∧ (sendBiSnp s v p sn d).pending = s.pending := by
  constructor <;> (unfold sendBiSnp; split <;> simp; done)

@[simp] theorem snoopAct_keep (s : State) (v : Nat) (p : Nat) (sn : ProxySnoop) :
    (snoopAct s v p sn).mgmt = s.mgmt ∧ (snoopAct s v p sn).pending = s.pending := by
  constructor <;> (unfold snoopAct; split <;> simp; done)

@[simp] theorem releaseSnoops_keep (s : State) (v : Nat) (p : Nat) :
    (releaseSnoops s v p).mgmt = s.mgmt ∧ (releaseSnoops s v p).pending = s.pending := by
  constructor <;> (simp [releaseSnoops]; done)

@[simp] theorem proxySnoop_keep (s : State) (v : Nat) (p : Nat) :
    (proxySnoop s v p).mgmt = s.mgmt ∧ (proxySnoop s v p).pending = s.pending := by
  constructor <;> (unfold proxySnoop; split <;> simp; done)

theorem execProxySnoop_keep (v : Fin 64) (s : State) : okept s (execProxySnoop v s) := by
  (unfold execProxySnoop; (try dsimp only); (repeat' split) <;> (try dsimp only) <;> simp)

@[simp] theorem ingressTaken_keep (s : State) (p : Nat) (vn : Vn) :
    (ingressTaken s p vn).mgmt = s.mgmt ∧ (ingressTaken s p vn).pending = s.pending := by
  constructor <;> rfl

@[simp] theorem hostRequest_keep (s : State) (v : Nat) (p : Nat) (k : HostReqKind) (m : Meta) (hpa : BitVec 46) (tag : BitVec 16) (since : Nat) :
    (hostRequest s v p k m hpa tag since).mgmt = s.mgmt ∧ (hostRequest s v p k m hpa tag since).pending = s.pending := by
  constructor <;> (unfold hostRequest; (try dsimp only); (repeat' split) <;> (try dsimp only) <;> simp)

theorem execProxyHostRequest_keep (v : Fin 64) (s : State) : okept s (execProxyHostRequest v s) := by
  (unfold execProxyHostRequest; (try dsimp only); (repeat' split) <;> (try dsimp only) <;> simp)

@[simp] theorem hostWriteMsg_keep (s : State) (v : Nat) (p : Nat) (part : Bool) (m : Meta) (hpa : BitVec 46) (tag : BitVec 16) (mask : BitVec 64) (poison : Bool) (data : LineData) (since : Nat) :
    (hostWriteMsg s v p part m hpa tag mask poison data since).mgmt = s.mgmt ∧ (hostWriteMsg s v p part m hpa tag mask poison data since).pending = s.pending := by
  constructor <;> (unfold hostWriteMsg; (try dsimp only); (repeat' split) <;> (try dsimp only) <;> simp)

theorem execProxyHostWrite_keep (v : Fin 64) (s : State) : okept s (execProxyHostWrite v s) := by
  (unfold execProxyHostWrite; (try dsimp only); (repeat' split) <;> (try dsimp only) <;> simp)

@[simp] theorem biRsp_keep (s : State) (v : Nat) (p : Nat) (k : BiRspKind) (bt : BitVec 16) :
    (biRsp s v p k bt).mgmt = s.mgmt ∧ (biRsp s v p k bt).pending = s.pending := by
  constructor <;> (unfold biRsp; split <;> simp; done)

theorem execProxyBirsp_keep (v : Fin 64) (s : State) : okept s (execProxyBirsp v s) := by
  (unfold execProxyBirsp; (try dsimp only); (repeat' split) <;> (try dsimp only) <;> simp)

theorem execBiconflict_keep (v : Fin 64) (s : State) : okept s (execBiconflict v s) := by
  (unfold execBiconflict; (try dsimp only); (repeat' split) <;> (try dsimp only) <;> simp)

@[simp] theorem dropEntry_keep (s : State) (v : Nat) (t : Nat) :
    (dropEntry s v t).mgmt = s.mgmt ∧ (dropEntry s v t).pending = s.pending := by
  constructor <;> rfl

@[simp] theorem give_keep (s : State) (p : Nat) (vn : Vn) (unit : Option Nat) (m : LinkMsg) :
    (give s p vn unit m).mgmt = s.mgmt ∧ (give s p vn unit m).pending = s.pending := by
  constructor <;> (unfold give; split <;> simp; done)

@[simp] theorem giveNothing_keep (s : State) (p : Nat) (vn : Vn) (unit : Option Nat) :
    (giveNothing s p vn unit).mgmt = s.mgmt ∧ (giveNothing s p vn unit).pending = s.pending := by
  constructor <;> first | rfl | (unfold giveNothing; rfl) | (simp [giveNothing]; done) | (unfold giveNothing; split <;> simp; done) | (unfold giveNothing; (try dsimp only); (repeat' split) <;> (try dsimp only) <;> simp) | (unfold giveNothing; (try dsimp only); (repeat' split) <;> (try dsimp only) <;> first | (simp; done) | ((simp; done)) | (((try simp); first | refine (foldl_mgmt _ _ _ ?_).trans ?_ | refine (foldl_pending _ _ _ ?_).trans ?_ | refine (foldl_fst_mgmt _ _ _ ?_).trans ?_ | refine (foldl_fst_pending _ _ _ ?_).trans ?_) <;> (try intro t a) <;> (try dsimp only) <;> (repeat' split) <;> (simp; done)))

@[simp] theorem finishEntry_keep (s : State) (v : Nat) (p : Nat) (t : Nat) (vn : Vn) (unit : Option Nat) (m : LinkMsg) :
    (finishEntry s v p t vn unit m).mgmt = s.mgmt ∧ (finishEntry s v p t vn unit m).pending = s.pending := by
  constructor <;> first | rfl | (unfold finishEntry; rfl) | (simp [finishEntry]; done) | (unfold finishEntry; split <;> simp; done) | (unfold finishEntry; (try dsimp only); (repeat' split) <;> (try dsimp only) <;> simp) | (unfold finishEntry; (try dsimp only); (repeat' split) <;> (try dsimp only) <;> first | (simp; done) | ((simp; done)) | (((try simp); first | refine (foldl_mgmt _ _ _ ?_).trans ?_ | refine (foldl_pending _ _ _ ?_).trans ?_ | refine (foldl_fst_mgmt _ _ _ ?_).trans ?_ | refine (foldl_fst_pending _ _ _ ?_).trans ?_) <;> (try intro t a) <;> (try dsimp only) <;> (repeat' split) <;> (simp; done)))

@[simp] theorem reqData_keep (s : State) (v : Nat) (p : Nat) (unit : Option Nat) (e : ProxyReq) (g : Nat) (poison : Bool) (d : LineData) :
    (reqData s v p unit e g poison d).mgmt = s.mgmt ∧ (reqData s v p unit e g poison d).pending = s.pending := by
  constructor <;> (simp [reqData]; done)

@[simp] theorem nackWb_keep (s : State) (v : Nat) (p : Nat) (e : ProxyEvict) :
    (nackWb s v p e).mgmt = s.mgmt ∧ (nackWb s v p e).pending = s.pending := by
  constructor <;> (simp [nackWb]; done)

@[simp] theorem evictRefused_keep (s : State) (v : Nat) (p : Nat) (e : ProxyEvict) :
    (evictRefused s v p e).mgmt = s.mgmt ∧ (evictRefused s v p e).pending = s.pending := by
  constructor <;> first | rfl | (unfold evictRefused; rfl) | (simp [evictRefused]; done) | (unfold evictRefused; split <;> simp; done) | (unfold evictRefused; (try dsimp only); (repeat' split) <;> (try dsimp only) <;> simp) | (unfold evictRefused; (try dsimp only); (repeat' split) <;> (try dsimp only) <;> first | (simp; done) | ((simp; done)) | (((try simp); first | refine (foldl_mgmt _ _ _ ?_).trans ?_ | refine (foldl_pending _ _ _ ?_).trans ?_ | refine (foldl_fst_mgmt _ _ _ ?_).trans ?_ | refine (foldl_fst_pending _ _ _ ?_).trans ?_) <;> (try intro t a) <;> (try dsimp only) <;> (repeat' split) <;> (simp; done)))

@[simp] theorem writeFreed_keep (s : State) (v : Nat) (p : Nat) :
    (writeFreed s v p).mgmt = s.mgmt ∧ (writeFreed s v p).pending = s.pending := by
  constructor <;> first | rfl | (unfold writeFreed; rfl) | (simp [writeFreed]; done) | (unfold writeFreed; split <;> simp; done) | (unfold writeFreed; (try dsimp only); (repeat' split) <;> (try dsimp only) <;> simp) | (unfold writeFreed; (try dsimp only); (repeat' split) <;> (try dsimp only) <;> first | (simp; done) | ((simp; done)) | (((try simp); first | refine (foldl_mgmt _ _ _ ?_).trans ?_ | refine (foldl_pending _ _ _ ?_).trans ?_ | refine (foldl_fst_mgmt _ _ _ ?_).trans ?_ | refine (foldl_fst_pending _ _ _ ?_).trans ?_) <;> (try intro t a) <;> (try dsimp only) <;> (repeat' split) <;> (simp; done)))

@[simp] theorem failEntry_keep (s : State) (v : Nat) (p : Nat) (t : Nat) (unit : Option Nat) (poison : Bool) :
    (failEntry s v p t unit poison).mgmt = s.mgmt ∧ (failEntry s v p t unit poison).pending = s.pending := by
  constructor <;> (unfold failEntry; (try dsimp only); (repeat' split) <;> (try dsimp only) <;> simp)

@[simp] theorem nackEntry_keep (s : State) (v : Nat) (p : Nat) (t : Nat) :
    (nackEntry s v p t).mgmt = s.mgmt ∧ (nackEntry s v p t).pending = s.pending := by
  constructor <;> (unfold nackEntry; (try dsimp only); (repeat' split) <;> (try dsimp only) <;> simp)

@[simp] theorem goWrite_keep (s : State) (v : Nat) (p : Nat) (e : ProxyWrite) (h : Nat) (l : BitVec 42) :
    (goWrite s v p e h l).mgmt = s.mgmt ∧ (goWrite s v p e h l).pending = s.pending := by
  constructor <;> (simp [goWrite]; done)

@[simp] theorem rspReq_keep (s : State) (v : Nat) (p : Nat) (h : Held) (e : ProxyReq) :
    (rspReq s v p h e).mgmt = s.mgmt ∧ (rspReq s v p h e).pending = s.pending := by
  constructor <;> (unfold rspReq; split <;> simp; done)

@[simp] theorem rspWrite_keep (s : State) (v : Nat) (p : Nat) (h : Held) (e : ProxyWrite) :
    (rspWrite s v p h e).mgmt = s.mgmt ∧ (rspWrite s v p h e).pending = s.pending := by
  constructor <;> (unfold rspWrite; split <;> simp; done)

@[simp] theorem rspEvict_keep (s : State) (v : Nat) (p : Nat) (h : Held) (e : ProxyEvict) :
    (rspEvict s v p h e).mgmt = s.mgmt ∧ (rspEvict s v p h e).pending = s.pending := by
  constructor <;> (unfold rspEvict; split <;> simp; done)

@[simp] theorem discardQuarantined_keep (s : State) (p : Nat) (vn : Vn) (id : Nat) :
    (discardQuarantined s p vn id).mgmt = s.mgmt ∧ (discardQuarantined s p vn id).pending = s.pending := by
  constructor <;> rfl

@[simp] theorem proxyResponse_keep (s : State) (v : Nat) (p : Nat) (vn : Vn) :
    (proxyResponse s v p vn).mgmt = s.mgmt ∧ (proxyResponse s v p vn).pending = s.pending := by
  constructor <;> (unfold proxyResponse; (try dsimp only); (repeat' split) <;> (try dsimp only) <;> simp)

@[simp] theorem downResponse_keep (s : State) (v : Nat) (p : Nat) (h : Held) :
    (downResponse s v p h).mgmt = s.mgmt ∧ (downResponse s v p h).pending = s.pending := by
  constructor <;> first | rfl | (unfold downResponse; rfl) | (simp [downResponse]; done) | (unfold downResponse; split <;> simp; done) | (unfold downResponse; (try dsimp only); (repeat' split) <;> (try dsimp only) <;> simp) | (unfold downResponse; (try dsimp only); (repeat' split) <;> (try dsimp only) <;> first | (simp; done) | ((simp; done)) | (((try simp); first | refine (foldl_mgmt _ _ _ ?_).trans ?_ | refine (foldl_pending _ _ _ ?_).trans ?_ | refine (foldl_fst_mgmt _ _ _ ?_).trans ?_ | refine (foldl_fst_pending _ _ _ ?_).trans ?_) <;> (try intro t a) <;> (try dsimp only) <;> (repeat' split) <;> (simp; done)))

theorem execProxyResponse_keep (v : Fin 64) (dat : Bool) (s : State) : okept s (execProxyResponse v dat s) := by
  (unfold execProxyResponse; (try dsimp only); (repeat' split) <;> (try dsimp only) <;> simp)

@[simp] theorem backoffEnd_keep (s : State) (v : Nat) (p : Nat) (t : Nat) :
    (backoffEnd s v p t).mgmt = s.mgmt ∧ (backoffEnd s v p t).pending = s.pending := by
  constructor <;> (unfold backoffEnd; (try dsimp only); (repeat' split) <;> (try dsimp only) <;> simp)

/-! ### Machine/Fabric.lean -/

@[simp] theorem setRingBuf_keep (s : State) (n : Nat) (d : Nat) (v : Vn) (l : List Held) :
    (setRingBuf s n d v l).mgmt = s.mgmt ∧ (setRingBuf s n d v l).pending = s.pending := by
  constructor <;> rfl

@[simp] theorem setTurnBuf_keep (s : State) (n : Nat) (d : Nat) (v : Vn) (l : List Held) :
    (setTurnBuf s n d v l).mgmt = s.mgmt ∧ (setTurnBuf s n d v l).pending = s.pending := by
  constructor <;> rfl

@[simp] theorem setEjectBuf_keep (s : State) (n : Nat) (a : Nat) (v : Vn) (l : List Held) :
    (setEjectBuf s n a v l).mgmt = s.mgmt ∧ (setEjectBuf s n a v l).pending = s.pending := by
  constructor <;> rfl

@[simp] theorem setPool_keep (s : State) (p : Nat) (x : PoolAgent) :
    (setPool s p x).mgmt = s.mgmt ∧ (setPool s p x).pending = s.pending := by
  constructor <;> rfl

@[simp] theorem aerAt_keep (s : State) (p : Nat) (ld : Nat) (f : AerState → AerState) :
    (aerAt s p ld f).mgmt = s.mgmt ∧ (aerAt s p ld f).pending = s.pending := by
  constructor <;> (unfold aerAt; (try dsimp only); (repeat' split) <;> (try dsimp only) <;> simp)

@[simp] theorem bumpPort_keep (s : State) (p : Nat) (ld : Nat) (e : Nat) (k : Nat) :
    (bumpPort s p ld e k).mgmt = s.mgmt ∧ (bumpPort s p ld e k).pending = s.pending := by
  constructor <;> (unfold bumpPort; split <;> simp; done)

@[simp] theorem aerUnsupported_keep (s : State) (p : Nat) (t : Tlp) :
    (aerUnsupported s p t).mgmt = s.mgmt ∧ (aerUnsupported s p t).pending = s.pending := by
  constructor <;> (simp [aerUnsupported]; done)

@[simp] theorem npDrop_keep (s : State) (p : Nat) (rid : BitVec 16) (tag : BitVec 16) :
    (npDrop s p rid tag).mgmt = s.mgmt ∧ (npDrop s p rid tag).pending = s.pending := by
  constructor <;> rfl

@[simp] theorem npAnswer_keep (s : State) (p : Nat) (rid : BitVec 16) (tag : BitVec 16) (st : Nat) :
    (npAnswer s p rid tag st).mgmt = s.mgmt ∧ (npAnswer s p rid tag st).pending = s.pending := by
  constructor <;> (unfold npAnswer; split <;> simp; done)

theorem npArrived_keep (s : State) (p : Nat) (h : Held) (t : State) (h : npArrived s p h = some t) : t.mgmt = s.mgmt ∧ t.pending = s.pending := by
  unfold npArrived at h
  (try dsimp only at h)
  (repeat' split at h) <;> simp at h <;> (try subst h) <;> simp

@[simp] theorem ioUnreachable_keep (s : State) (p : Nat) (h : Held) :
    (ioUnreachable s p h).mgmt = s.mgmt ∧ (ioUnreachable s p h).pending = s.pending := by
  constructor <;> (unfold ioUnreachable; split <;> simp; done)

@[simp] theorem answerMemRd_keep (s : State) (p : Nat) (u : FUnit) :
    (answerMemRd s p u).mgmt = s.mgmt ∧ (answerMemRd s p u).pending = s.pending := by
  constructor <;> (simp [answerMemRd]; done)

@[simp] theorem answerMemWr_keep (s : State) (p : Nat) (u : FUnit) :
    (answerMemWr s p u).mgmt = s.mgmt ∧ (answerMemWr s p u).pending = s.pending := by
  constructor <;> (simp [answerMemWr]; done)

@[simp] theorem dropPoolWrite_keep (s : State) (p : Nat) (u : FUnit) :
    (dropPoolWrite s p u).mgmt = s.mgmt ∧ (dropPoolWrite s p u).pending = s.pending := by
  constructor <;> rfl

@[simp] theorem ioAnswer_keep (s : State) (p : Nat) (u : FUnit) (t : Tlp) (st : Nat) :
    (ioAnswer s p u t st).mgmt = s.mgmt ∧ (ioAnswer s p u t st).pending = s.pending := by
  constructor <;> (simp [ioAnswer]; done)

@[simp] theorem downSnoop_keep (s : State) (p : Nat) (u : FUnit) :
    (downSnoop s p u).mgmt = s.mgmt ∧ (downSnoop s p u).pending = s.pending := by
  constructor <;> (unfold downSnoop; split <;> simp; done)

@[simp] theorem downArrival_keep (s : State) (p : Nat) (h : Held) :
    (downArrival s p h).mgmt = s.mgmt ∧ (downArrival s p h).pending = s.pending := by
  constructor <;> (unfold downArrival; (try dsimp only); (repeat' split) <;> (try dsimp only) <;> simp)

@[simp] theorem portArrive_keep (s : State) (p : Nat) (h : Held) :
    (portArrive s p h).mgmt = s.mgmt ∧ (portArrive s p h).pending = s.pending := by
  unfold portArrive
  dsimp only
  split
  · split
    · simp
    · split
      · simp
      · split
        · rename_i e; have k := npArrived_keep _ _ _ _ e; simp [k]
        · simp
  · split
    · split <;> simp
    · split <;> simp



@[simp] theorem snoopDeliver_keep (s : State) (k : Nat) (h : Held) :
    (snoopDeliver s k h).mgmt = s.mgmt ∧ (snoopDeliver s k h).pending = s.pending := by
  constructor <;> (unfold snoopDeliver; (try dsimp only); (repeat' split) <;> (try dsimp only) <;> first | (simp; done) | (first | (simp; done) | (simp; grind only [npArrived_keep])) | (((try simp); first | refine (foldl_mgmt _ _ _ ?_).trans ?_ | refine (foldl_pending _ _ _ ?_).trans ?_ | refine (foldl_fst_mgmt _ _ _ ?_).trans ?_ | refine (foldl_fst_pending _ _ _ ?_).trans ?_) <;> (try intro t a) <;> (try dsimp only) <;> (repeat' split) <;> first | (simp; done) | (simp; grind only [npArrived_keep])))

@[simp] theorem deliver_keep (s : State) (n : Nat) (a : Nat) (h : Held) :
    (deliver s n a h).mgmt = s.mgmt ∧ (deliver s n a h).pending = s.pending := by
  constructor <;> (unfold deliver; (try dsimp only); (repeat' split) <;> (try dsimp only) <;> simp)

@[simp] theorem ejected_keep (s : State) (n : Nat) (a : Nat) (h : Held) :
    (ejected s n a h).mgmt = s.mgmt ∧ (ejected s n a h).pending = s.pending := by
  constructor <;> (unfold ejected; (try dsimp only); (repeat' split) <;> (try dsimp only) <;> simp)

@[simp] theorem missedEject_keep (s : State) (key : Nat) (id : Nat) :
    (missedEject s key id).mgmt = s.mgmt ∧ (missedEject s key id).pending = s.pending := by
  constructor <;> rfl

@[simp] theorem missedTurn_keep (s : State) (key : Nat) (id : Nat) :
    (missedTurn s key id).mgmt = s.mgmt ∧ (missedTurn s key id).pending = s.pending := by
  constructor <;> rfl

theorem tryEject_keep (s : State) (n : Nat) (a : Nat) (h : Held) (t : State) (h : tryEject s n a h = some t) : t.mgmt = s.mgmt ∧ t.pending = s.pending := by
  unfold tryEject at h
  (try dsimp only at h)
  (repeat' split at h) <;> simp at h <;> (try subst h) <;> simp

theorem tryTurn_keep (s : State) (n : Nat) (w : Nat) (h : Held) (t : State) (h : tryTurn s n w h = some t) : t.mgmt = s.mgmt ∧ t.pending = s.pending := by
  unfold tryTurn at h
  (try dsimp only at h)
  (repeat' split at h) <;> simp at h <;> (try subst h) <;> simp

@[simp] theorem ringPush_keep (s : State) (n : Nat) (d : Nat) (h : Held) :
    (ringPush s n d h).mgmt = s.mgmt ∧ (ringPush s n d h).pending = s.pending := by
  constructor <;> rfl

@[simp] theorem synthRspI_keep (s : State) (n : Nat) (k : Nat) (u : FUnit) :
    (synthRspI s n k u).mgmt = s.mgmt ∧ (synthRspI s n k u).pending = s.pending := by
  constructor <;> (unfold synthRspI; (try dsimp only); (repeat' split) <;> (try dsimp only) <;> first | (simp; done) | (first | (simp; done) | (simp; grind only [npArrived_keep, tryEject_keep, tryTurn_keep])) | (((try simp); first | refine (foldl_mgmt _ _ _ ?_).trans ?_ | refine (foldl_pending _ _ _ ?_).trans ?_ | refine (foldl_fst_mgmt _ _ _ ?_).trans ?_ | refine (foldl_fst_pending _ _ _ ?_).trans ?_) <;> (try intro t a) <;> (try dsimp only) <;> (repeat' split) <;> first | (simp; done) | (simp; grind only [npArrived_keep, tryEject_keep, tryTurn_keep])))

@[simp] theorem answerReq_keep (s : State) (n : Nat) (a : Nat) (h : Held) :
    (answerReq s n a h).mgmt = s.mgmt ∧ (answerReq s n a h).pending = s.pending := by
  constructor <;> (simp [answerReq]; done)

@[simp] theorem isolatedUnit_keep (s : State) (n : Nat) (h : Held) :
    (isolatedUnit s n h).mgmt = s.mgmt ∧ (isolatedUnit s n h).pending = s.pending := by
  constructor <;> (simp [isolatedUnit]; done)

theorem refusedAt_keep (s : State) (n : Nat) (a : Nat) (h : Held) (t : State) (h : refusedAt s n a h = some t) : t.mgmt = s.mgmt ∧ t.pending = s.pending := by
  unfold refusedAt at h
  (try dsimp only at h)
  (repeat' split at h) <;> simp at h <;> (try subst h) <;> simp

@[simp] theorem missForgot_keep (s : State) (key : Nat) (id : Nat) :
    (missForgot s key id).mgmt = s.mgmt ∧ (missForgot s key id).pending = s.pending := by
  constructor <;> first | rfl | (unfold missForgot; rfl) | (simp [missForgot]; done) | (unfold missForgot; split <;> simp; done) | (unfold missForgot; (try dsimp only); (repeat' split) <;> (try dsimp only) <;> simp) | (unfold missForgot; (try dsimp only); (repeat' split) <;> (try dsimp only) <;> first | (simp; done) | (first | (simp; done) | (simp; grind only [npArrived_keep, tryEject_keep, tryTurn_keep, refusedAt_keep])) | (((try simp); first | refine (foldl_mgmt _ _ _ ?_).trans ?_ | refine (foldl_pending _ _ _ ?_).trans ?_ | refine (foldl_fst_mgmt _ _ _ ?_).trans ?_ | refine (foldl_fst_pending _ _ _ ?_).trans ?_) <;> (try intro t a) <;> (try dsimp only) <;> (repeat' split) <;> first | (simp; done) | (simp; grind only [npArrived_keep, tryEject_keep, tryTurn_keep, refusedAt_keep])))

@[simp] theorem arriveHome_keep (s : State) (n d a : Nat) (h : Held) :
    (arriveHome s n d a h).mgmt = s.mgmt ∧ (arriveHome s n d a h).pending = s.pending := by
  unfold arriveHome
  split
  · rename_i e; have k := refusedAt_keep _ _ _ _ _ e; simp [k]
  · dsimp only
    split
    · rename_i e; have k := tryEject_keep _ _ _ _ _ e; simp [k]
    · simp



theorem giveOff_keep (s : State) (u : FUnit) (part : Nat → Bool) (give : State → FUnit → Option State)
    (miss : State → State) (hg : ∀ s u t, give s u = some t → t.mgmt = s.mgmt ∧ t.pending = s.pending)
    (hm : ∀ s, (miss s).mgmt = s.mgmt ∧ (miss s).pending = s.pending) :
    (giveOff s u part give miss).1.mgmt = s.mgmt ∧ (giveOff s u part give miss).1.pending = s.pending := by
  unfold giveOff
  split
  · split
    · rename_i e; exact hg _ _ _ e
    · exact hm _
  · simp


@[simp] theorem arriveCopy_keep (s : State) (n d : Nat) (h : Held) :
    (arriveCopy s n d h).mgmt = s.mgmt ∧ (arriveCopy s n d h).pending = s.pending := by
  unfold arriveCopy
  dsimp only
  have here : ∀ (s : State) (u : FUnit) (t : State),
      (match refusedAt s n (takingAgent n h.u) { h with u := u } with
        | some t => some (missForgot t (missKey n (takingAgent n h.u) .snp d) h.id)
        | none => tryEject s n (takingAgent n h.u) { h with u := u, inp := d }) = some t → t.mgmt = s.mgmt ∧ t.pending = s.pending := by
    intro s u t e
    split at e
    · rename_i e1; have k := refusedAt_keep _ _ _ _ _ e1; cases e; simp [k]
    · exact tryEject_keep _ _ _ _ _ e
  have turn : ∀ (w : Nat) (s : State) (u : FUnit) (t : State),
      ((tryTurn s n w { h with u := u, id := if (tabGet [] (ringKey n w .snp) s.fab.missTurn).contains h.id then h.id else s.fab.nextId }).map nextUnit) = some t →
      t.mgmt = s.mgmt ∧ t.pending = s.pending := by
    intro w s u t e
    rw [Option.map_eq_some_iff] at e
    obtain ⟨r, e, rfl⟩ := e
    have k := tryTurn_keep _ _ _ _ _ e
    simp [k]
  have k0 := fun u p m hm => giveOff_keep s u p _ m here hm
  have k1 := fun w s u p m hm => giveOff_keep s u p _ m (turn w) hm
  have a := k0 h.u (fun x => decide (x = n)) (fun s => missedEject s (missKey n (takingAgent n h.u) .snp d) h.id) (fun s => by simp)
  generalize giveOff s h.u (fun x => decide (x = n)) _ _ = r0 at a ⊢
  have b := fun w (r : State × FUnit) => k1 w r.1 r.2 (fun x => decide (x ≠ n) && decide (stopX x = stopX n) && decide (columnDir n x = w))
      (fun s => missedTurn s (ringKey n w .snp) h.id) (fun s => by simp)
  have fin : ∀ x : State × FUnit, (x.1.mgmt = s.mgmt ∧ x.1.pending = s.pending) →
      (if (snoopStops x.2).isEmpty then x.1 else ringPush x.1 n d { h with u := x.2 }).mgmt = s.mgmt ∧
        (if (snoopStops x.2).isEmpty then x.1 else ringPush x.1 n d { h with u := x.2 }).pending = s.pending := by
    intro x k; split <;> simp [k]
  apply fin
  split
  · exact ⟨((b 3 _).1.trans (b 2 _).1).trans a.1, ((b 3 _).2.trans (b 2 _).2).trans a.2⟩
  · exact a



@[simp] theorem arrive_keep (s : State) (n d : Nat) (h : Held) :
    (arrive s n d h).mgmt = s.mgmt ∧ (arrive s n d h).pending = s.pending := by
  unfold arrive
  (repeat' split) <;> (try simp)
  all_goals rename_i e; first | exact refusedAt_keep _ _ _ _ _ e | exact tryTurn_keep _ _ _ _ _ e


@[simp] theorem carriedOn_keep (s : State) (i : Nat) (h : Held) :
    (carriedOn s i h).mgmt = s.mgmt ∧ (carriedOn s i h).pending = s.pending := by
  unfold carriedOn
  dsimp only
  split
  · simp
  · split <;> simp



theorem execCrossingUnitReceive_keep (c : Fin 686) (w : UnitBits) (s : State) : okept s (execCrossingUnitReceive c w s) := by
  unfold execCrossingUnitReceive
  dsimp only
  split <;> simp




@[simp] theorem setNiBuf_keep (s : State) (n : Nat) (a : Nat) (v : Vn) (l : List Held) :
    (setNiBuf s n a v l).mgmt = s.mgmt ∧ (setNiBuf s n a v l).pending = s.pending := by
  constructor <;> rfl

@[simp] theorem entered_keep (s : State) (n : Nat) (d : Nat) (v : Vn) (turn : Bool) (id : Nat) :
    (entered s n d v turn id).mgmt = s.mgmt ∧ (entered s n d v turn id).pending = s.pending := by
  constructor <;> rfl

@[simp] theorem enterTurn_keep (s : State) (n : Nat) (d : Nat) (v : Vn) :
    (enterTurn s n d v).mgmt = s.mgmt ∧ (enterTurn s n d v).pending = s.pending := by
  constructor <;> (unfold enterTurn; split <;> simp; done)

@[simp] theorem hop_keep (s : State) (n : Nat) (d : Nat) :
    (hop s n d).mgmt = s.mgmt ∧ (hop s n d).pending = s.pending := by
  constructor <;> (unfold hop; (try dsimp only); (repeat' split) <;> (try dsimp only) <;> simp)

theorem execRingHop_keep (m : RingMove) (s : State) : okept s (execRingHop m s) := by
  (unfold execRingHop; (try dsimp only); (repeat' split) <;> (try dsimp only) <;> simp)

theorem execStarvationGuard_keep (q : RingEntry) (s : State) : okept s (execStarvationGuard q s) := by
  (unfold execStarvationGuard; (try dsimp only); (repeat' split) <;> (try dsimp only) <;> simp)

@[simp] theorem routeWrite_keep (s : State) (t : RouteTable) :
    (routeWrite s t).1.mgmt = s.mgmt ∧ (routeWrite s t).1.pending = s.pending := by
  constructor <;> (unfold routeWrite; (try dsimp only); (repeat' split) <;> (try dsimp only) <;> simp)

theorem execRouteTableWrite_keep (t : RouteTable) (s : State) : okept s (execRouteTableWrite t s) := by
  (simp [execRouteTableWrite]; done)

theorem execRouteDrainComplete_keep (s : State) : okept s (execRouteDrainComplete s) := by
  (unfold execRouteDrainComplete; (try dsimp only); (repeat' split) <;> (try dsimp only) <;> simp)

/-! ### Machine/EgressOut.lean -/

@[simp] theorem countSent_keep (s : State) (p : Nat) :
    (countSent s p).mgmt = s.mgmt ∧ (countSent s p).pending = s.pending := by
  constructor <;> rfl

@[simp] theorem npSent_keep (s : State) (p : Nat) (u : FUnit) :
    (npSent s p u).mgmt = s.mgmt ∧ (npSent s p u).pending = s.pending := by
  constructor <;> rfl

@[simp] theorem countToHost_keep (s : State) (p : Nat) (n : Nat) :
    (countToHost s p n).mgmt = s.mgmt ∧ (countToHost s p n).pending = s.pending := by
  constructor <;> (unfold countToHost; split <;> simp; done)

@[simp] theorem traceSent_keep (s : State) (p : Nat) (l : List Held) :
    (traceSent s p l).mgmt = s.mgmt ∧ (traceSent s p l).pending = s.pending := by
  constructor <;> first | rfl | (unfold traceSent; rfl) | (simp [traceSent]; done) | (unfold traceSent; split <;> simp; done) | (unfold traceSent; (try dsimp only); (repeat' split) <;> (try dsimp only) <;> simp) | (unfold traceSent; (try dsimp only); (repeat' split) <;> (try dsimp only) <;> first | (simp; done) | (first | (simp; done) | (simp; grind only [npArrived_keep, tryEject_keep, tryTurn_keep, refusedAt_keep])) | (((try simp); first | refine (foldl_mgmt _ _ _ ?_).trans ?_ | refine (foldl_pending _ _ _ ?_).trans ?_ | refine (foldl_fst_mgmt _ _ _ ?_).trans ?_ | refine (foldl_fst_pending _ _ _ ?_).trans ?_) <;> (try intro t a) <;> (try dsimp only) <;> (repeat' split) <;> first | (simp; done) | (simp; grind only [npArrived_keep, tryEject_keep, tryTurn_keep, refusedAt_keep])))

@[simp] theorem egressSent_keep (s : State) (p : Nat) (v : Vn) :
    (egressSent s p v).mgmt = s.mgmt ∧ (egressSent s p v).pending = s.pending := by
  constructor <;> (unfold egressSent; (try dsimp only); (repeat' split) <;> (try dsimp only) <;> simp)

theorem execEgressFlitSent_keep (port : Fin 96) (vn : Vn) (s : State) : okept s (execEgressFlitSent port vn s) := by
  (unfold execEgressFlitSent; (try dsimp only); (repeat' split) <;> (try dsimp only) <;> simp)

@[simp] theorem ageRaised_keep (s : State) (port : Nat) (h : Held) :
    (ageRaised s port h).mgmt = s.mgmt ∧ (ageRaised s port h).pending = s.pending := by
  constructor <;> (simp [ageRaised]; done)

@[simp] theorem ageLogged_keep (s : State) (p : Nat) (t : Tlp) (nonPosted : Bool) :
    (ageLogged s p t nonPosted).mgmt = s.mgmt ∧ (ageLogged s p t nonPosted).pending = s.pending := by
  constructor <;> (simp [ageLogged]; done)

@[simp] theorem ageAnswer_keep (s : State) (n : Nat) (a : Nat) (port : Nat) (h : Held) :
    (ageAnswer s n a port h).mgmt = s.mgmt ∧ (ageAnswer s n a port h).pending = s.pending := by
  constructor <;> (unfold ageAnswer; (try dsimp only); (repeat' split) <;> (try dsimp only) <;> simp)

@[simp] theorem ageQueue_keep (s : State) (n a port : Nat) (l : List Held) :
    (ageQueue s n a port l).1.mgmt = s.mgmt ∧ (ageQueue s n a port l).1.pending = s.pending :=
  foldl_fst_from s _ _ _ ⟨rfl, rfl⟩ fun x a => by split <;> simp


@[simp] theorem ageIngress_keep (s : State) (p : Nat) (v : Vn) :
    (ageIngress s p v).mgmt = s.mgmt ∧ (ageIngress s p v).pending = s.pending :=
  foldl_from s _ _ _ (by simp) fun t m => by
    dsimp only
    (repeat' split) <;> simp


@[simp] theorem ageLink_keep (s : State) (a : Nat) (v : Vn) :
    (ageLink s a v).mgmt = s.mgmt ∧ (ageLink s a v).pending = s.pending := by
  constructor <;> first | rfl | (unfold ageLink; rfl) | (simp [ageLink]; done) | (unfold ageLink; split <;> simp; done) | (unfold ageLink; (try dsimp only); (repeat' split) <;> (try dsimp only) <;> simp) | (unfold ageLink; (try dsimp only); (repeat' split) <;> (try dsimp only) <;> first | (simp; done) | (first | (simp; done) | (simp; grind only [npArrived_keep, tryEject_keep, tryTurn_keep, refusedAt_keep])) | (((try simp); first | refine (foldl_mgmt _ _ _ ?_).trans ?_ | refine (foldl_pending _ _ _ ?_).trans ?_ | refine (foldl_fst_mgmt _ _ _ ?_).trans ?_ | refine (foldl_fst_pending _ _ _ ?_).trans ?_) <;> (try intro t a) <;> (try dsimp only) <;> (repeat' split) <;> first | (simp; done) | (simp; grind only [npArrived_keep, tryEject_keep, tryTurn_keep, refusedAt_keep])))

@[simp] theorem ageEgress_keep (s : State) (port : Nat) (n : Nat) (a : Nat) (v : Vn) :
    (ageEgress s port n a v).mgmt = s.mgmt ∧ (ageEgress s port n a v).pending = s.pending := by
  constructor <;> first | rfl | (unfold ageEgress; rfl) | (simp [ageEgress]; done) | (unfold ageEgress; split <;> simp; done) | (unfold ageEgress; (try dsimp only); (repeat' split) <;> (try dsimp only) <;> simp) | (unfold ageEgress; (try dsimp only); (repeat' split) <;> (try dsimp only) <;> first | (simp; done) | (first | (simp; done) | (simp; grind only [npArrived_keep, tryEject_keep, tryTurn_keep, refusedAt_keep])) | (((try simp); first | refine (foldl_mgmt _ _ _ ?_).trans ?_ | refine (foldl_pending _ _ _ ?_).trans ?_ | refine (foldl_fst_mgmt _ _ _ ?_).trans ?_ | refine (foldl_fst_pending _ _ _ ?_).trans ?_) <;> (try intro t a) <;> (try dsimp only) <;> (repeat' split) <;> first | (simp; done) | (simp; grind only [npArrived_keep, tryEject_keep, tryTurn_keep, refusedAt_keep])))

@[simp] theorem ageExamine_keep (s : State) (hp : HoldPoint) :
    (ageExamine s hp).mgmt = s.mgmt ∧ (ageExamine s hp).pending = s.pending := by
  constructor <;> (unfold ageExamine; split <;> simp; done)

theorem execAgeingExamination_keep (hp : HoldPoint) (s : State) : okept s (execAgeingExamination hp s) := by
  (simp [execAgeingExamination]; done)

end Sys2Proof.Laws
end

