-- ==== Sys2Proof/Laws/FrameHome.lean ====
section
/-!
SUPPORT. Laws/FrameHome.lean: which operations keep the management complex and the queue of commands: the home: slices, remap tables, directories, page moves, guard sets.
-/

set_option Elab.async false
set_option linter.all false
set_option linter.unusedSimpArgs false

namespace Sys2Proof.Laws

open Sys2Proof.Machine

/-! ### Machine/Slice.lean -/

@[simp] theorem setSlice_keep (s : State) (l : Nat) (x : HomeSlice) :
    (setSlice s l x).mgmt = s.mgmt ∧ (setSlice s l x).pending = s.pending := by
  constructor <;> rfl

@[simp] theorem setTracker_keep (s : State) (l : Nat) (t : Nat) (k : Tracker) :
    (setTracker s l t k).mgmt = s.mgmt ∧ (setTracker s l t k).pending = s.pending := by
  constructor <;> rfl

@[simp] theorem setBuf_keep (s : State) (l : Nat) (b : Nat) (e : BufEntry) :
    (setBuf s l b e).mgmt = s.mgmt ∧ (setBuf s l b e).pending = s.pending := by
  constructor <;> rfl

@[simp] theorem recordSwitch_keep (s : State) (w : Nat) :
    (recordSwitch s w).mgmt = s.mgmt ∧ (recordSwitch s w).pending = s.pending := by
  constructor <;> (simp [recordSwitch]; done)

/-! ### Machine/Remap.lean -/

@[simp] theorem setBacking_keep (s : State) (g : Nat) (e : BitVec 48) :
    (setBacking s g e).mgmt = s.mgmt ∧ (setBacking s g e).pending = s.pending := by
  constructor <;> rfl

@[simp] theorem applyEntry_keep (s : State) (g : Nat) (e : BitVec 48) :
    (applyEntry s g e).mgmt = s.mgmt ∧ (applyEntry s g e).pending = s.pending := by
  unfold applyEntry
  generalize h : List.foldl _ _ _ = r
  have k : r.mgmt = s.mgmt ∧ r.pending = s.pending := by
    rw [← h]; exact foldl_keep _ _ _ fun t l => ⟨rfl, rfl⟩
  exact k


@[simp] theorem sendMemRd_keep (s : State) (l : Nat) (t : Nat) (k : Tracker) (p : Loc) :
    (sendMemRd s l t k p).mgmt = s.mgmt ∧ (sendMemRd s l t k p).pending = s.pending := by
  constructor <;> (simp [sendMemRd]; done)

@[simp] theorem sendMemWr_keep (s : State) (l : Nat) (b : Nat) (e : BufEntry) (p : Loc) :
    (sendMemWr s l b e p).mgmt = s.mgmt ∧ (sendMemWr s l b e p).pending = s.pending := by
  constructor <;> (simp [sendMemWr]; done)

@[simp] theorem remapAnswer_keep (s : State) (l : Nat) (op : RemapOp) :
    (remapAnswer s l op).mgmt = s.mgmt ∧ (remapAnswer s l op).pending = s.pending := by
  constructor <;> (unfold remapAnswer; (try dsimp only); (repeat' split) <;> (try dsimp only) <;> simp)

@[simp] theorem unmappedReport_keep (s : State) (l : Nat) (g : Nat) :
    (unmappedReport s l g).mgmt = s.mgmt ∧ (unmappedReport s l g).pending = s.pending := by
  constructor <;> (simp [unmappedReport]; done)

@[simp] theorem remapSend_keep (s : State) (l : Nat) (op : RemapOp) (p : Loc) :
    (remapSend s l op p).mgmt = s.mgmt ∧ (remapSend s l op p).pending = s.pending := by
  constructor <;> (unfold remapSend; (try dsimp only); (repeat' split) <;> (try dsimp only) <;> simp)

@[simp] theorem remapHold_keep (s : State) (l : Nat) (g : Nat) (page : Nat) (op : RemapOp) :
    (remapHold s l g page op).mgmt = s.mgmt ∧ (remapHold s l g page op).pending = s.pending := by
  constructor <;> (unfold remapHold; (try dsimp only); (repeat' split) <;> (try dsimp only) <;> simp)

@[simp] theorem remapWith_keep (s : State) (l : Nat) (g : Nat) (page : Nat) (op : RemapOp) (e : BitVec 48) :
    (remapWith s l g page op e).mgmt = s.mgmt ∧ (remapWith s l g page op e).pending = s.pending := by
  constructor <;> (unfold remapWith; (try dsimp only); (repeat' split) <;> (try dsimp only) <;> simp)

@[simp] theorem remapLookup_keep (s : State) (l : Nat) (op : RemapOp) :
    (remapLookup s l op).mgmt = s.mgmt ∧ (remapLookup s l op).pending = s.pending := by
  constructor <;> (unfold remapLookup; (try dsimp only); (repeat' split) <;> (try dsimp only) <;> simp)

@[simp] theorem remapOp_keep (s : State) (l : Nat) (op : RemapOp) :
    (remapOp s l op).mgmt = s.mgmt ∧ (remapOp s l op).pending = s.pending := by
  constructor <;> (simp [remapOp]; done)

@[simp] theorem remapFill_keep (s : State) (l g : Nat) (bad : Bool) :
    (remapFill s l g bad).mgmt = s.mgmt ∧ (remapFill s l g bad).pending = s.pending := by
  unfold remapFill
  dsimp only
  split
  · simp
  · refine foldl_from s _ _ _ ?_ ?_
    · constructor <;> (repeat' split) <;> simp
    · intro t q; split <;> simp


theorem execRemapCacheFill_keep (l : Fin 32) (g : Fin 8388608) (bad : Bool) (s : State) : okept s (execRemapCacheFill l g bad s) := by
  (simp [execRemapCacheFill]; done)

@[simp] theorem openGate_keep (s : State) :
    (openGate s).mgmt = s.mgmt ∧ (openGate s).pending = s.pending := by
  constructor <;> (simp [openGate]; done)

theorem execOpenRemapGate_keep (s : State) : okept s (execOpenRemapGate s) := by
  (simp [execOpenRemapGate]; done)

@[simp] theorem nextMemWr_keep (s : State) (l : Nat) (port : Nat) :
    (nextMemWr s l port).mgmt = s.mgmt ∧ (nextMemWr s l port).pending = s.pending := by
  constructor <;> (unfold nextMemWr; (try dsimp only); (repeat' split) <;> (try dsimp only) <;> simp)

@[simp] theorem bufAdd_keep (s : State) (l : Nat) (line : BitVec 42) (data : LineData) (poison wrPoison : Bool) :
    (bufAdd s l line data poison wrPoison).mgmt = s.mgmt ∧ (bufAdd s l line data poison wrPoison).pending = s.pending := by
  unfold bufAdd
  dsimp only
  split <;> simp


@[simp] theorem bufNext_keep (s : State) (l : Nat) (b : Nat) :
    (bufNext s l b).mgmt = s.mgmt ∧ (bufNext s l b).pending = s.pending := by
  constructor <;> first | rfl | (unfold bufNext; rfl) | (simp [bufNext]; done) | (unfold bufNext; split <;> simp; done) | (unfold bufNext; (try dsimp only); (repeat' split) <;> (try dsimp only) <;> simp) | (unfold bufNext; (try dsimp only); (repeat' split) <;> (try dsimp only) <;> first | (simp; done) | (first | (simp; done) | (simp; grind only [npArrived_keep, tryEject_keep, tryTurn_keep, refusedAt_keep])) | (((try simp); first | refine (foldl_mgmt _ _ _ ?_).trans ?_ | refine (foldl_pending _ _ _ ?_).trans ?_ | refine (foldl_fst_mgmt _ _ _ ?_).trans ?_ | refine (foldl_fst_pending _ _ _ ?_).trans ?_) <;> (try intro t a) <;> (try dsimp only) <;> (repeat' split) <;> first | (simp; done) | (simp; grind only [npArrived_keep, tryEject_keep, tryTurn_keep, refusedAt_keep])))

/-! ### Machine/Directory.lean -/

@[simp] theorem cacheSet_keep (s : State) (l : Nat) (line : BitVec 42) (w : Nat) (e : Option DirEntry) :
    (cacheSet s l line w e).mgmt = s.mgmt ∧ (cacheSet s l line w e).pending = s.pending := by
  constructor <;> rfl

@[simp] theorem cacheTouch_keep (s : State) (l : Nat) (line : BitVec 42) (w : Nat) :
    (cacheTouch s l line w).mgmt = s.mgmt ∧ (cacheTouch s l line w).pending = s.pending := by
  constructor <;> rfl

@[simp] theorem setSf_keep (s : State) (k : Nat) (ws : List SfWay) :
    (setSf s k ws).mgmt = s.mgmt ∧ (setSf s k ws).pending = s.pending := by
  constructor <;> rfl

@[simp] theorem sfWrite_keep (s : State) (l : Nat) (line : BitVec 42) (i : Nat) (st : LState) :
    (sfWrite s l line i st).mgmt = s.mgmt ∧ (sfWrite s l line i st).pending = s.pending := by
  constructor <;> rfl

@[simp] theorem sfPut_keep (s : State) (k : Nat) (i : Nat) (tag : Nat) (st : LState) :
    (sfPut s k i tag st).mgmt = s.mgmt ∧ (sfPut s k i tag st).pending = s.pending := by
  constructor <;> rfl

@[simp] theorem putState_keep (s : State) (l : Nat) (line : BitVec 42) (st : LState) :
    (putState s l line st).mgmt = s.mgmt ∧ (putState s l line st).pending = s.pending := by
  constructor <;> (unfold putState; (try dsimp only); (repeat' split) <;> (try dsimp only) <;> simp)

@[simp] theorem poisonWrite_keep (s : State) (l : Nat) (line : BitVec 42) :
    (poisonWrite s l line).mgmt = s.mgmt ∧ (poisonWrite s l line).pending = s.pending := by
  constructor <;> first | rfl | (unfold poisonWrite; rfl) | (simp [poisonWrite]; done) | (unfold poisonWrite; split <;> simp; done) | (unfold poisonWrite; (try dsimp only); (repeat' split) <;> (try dsimp only) <;> simp) | (unfold poisonWrite; (try dsimp only); (repeat' split) <;> (try dsimp only) <;> first | (simp; done) | (first | (simp; done) | (simp; grind only [npArrived_keep, tryEject_keep, tryTurn_keep, refusedAt_keep])) | (((try simp); first | refine (foldl_mgmt _ _ _ ?_).trans ?_ | refine (foldl_pending _ _ _ ?_).trans ?_ | refine (foldl_fst_mgmt _ _ _ ?_).trans ?_ | refine (foldl_fst_pending _ _ _ ?_).trans ?_) <;> (try intro t a) <;> (try dsimp only) <;> (repeat' split) <;> first | (simp; done) | (simp; grind only [npArrived_keep, tryEject_keep, tryTurn_keep, refusedAt_keep])))

@[simp] theorem poisonLine_keep (s : State) (l : Nat) (line : BitVec 42) :
    (poisonLine s l line).mgmt = s.mgmt ∧ (poisonLine s l line).pending = s.pending := by
  constructor <;> (simp [poisonLine]; done)

@[simp] theorem lineState_keep (s : State) (l : Nat) (line : BitVec 42) :
    (lineState s l line).1.mgmt = s.mgmt ∧ (lineState s l line).1.pending = s.pending := by
  constructor <;> (simp [lineState]; done)

@[simp] theorem evictEntry_keep (s : State) (l : Nat) (e : DirEntry) :
    (evictEntry s l e).mgmt = s.mgmt ∧ (evictEntry s l e).pending = s.pending := by
  constructor <;> (unfold evictEntry; (try dsimp only); (repeat' split) <;> (try dsimp only) <;> simp)

@[simp] theorem evictAt_keep (s : State) (l : Nat) (k : Nat) :
    (evictAt s l k).mgmt = s.mgmt ∧ (evictAt s l k).pending = s.pending := by
  constructor <;> first | rfl | (unfold evictAt; rfl) | (simp [evictAt]; done) | (unfold evictAt; split <;> simp; done) | (unfold evictAt; (try dsimp only); (repeat' split) <;> (try dsimp only) <;> simp) | (unfold evictAt; (try dsimp only); (repeat' split) <;> (try dsimp only) <;> first | (simp; done) | (first | (simp; done) | (simp; grind only [npArrived_keep, tryEject_keep, tryTurn_keep, refusedAt_keep])) | (((try simp); first | refine (foldl_mgmt _ _ _ ?_).trans ?_ | refine (foldl_pending _ _ _ ?_).trans ?_ | refine (foldl_fst_mgmt _ _ _ ?_).trans ?_ | refine (foldl_fst_pending _ _ _ ?_).trans ?_) <;> (try intro t a) <;> (try dsimp only) <;> (repeat' split) <;> first | (simp; done) | (simp; grind only [npArrived_keep, tryEject_keep, tryTurn_keep, refusedAt_keep])))

theorem pinLine_keep (s : State) (l : Nat) (line : BitVec 42) (t : State) (h : pinLine s l line = some t) : t.mgmt = s.mgmt ∧ t.pending = s.pending := by
  unfold pinLine at h
  (try dsimp only at h)
  (repeat' split at h) <;> simp at h <;> (try subst h) <;> simp

@[simp] theorem unpinLine_keep (s : State) (l : Nat) (line : BitVec 42) :
    (unpinLine s l line).mgmt = s.mgmt ∧ (unpinLine s l line).pending = s.pending := by
  constructor <;> (unfold unpinLine; split <;> simp; done)

@[simp] theorem fillLine_keep (s : State) (l : Nat) (line : BitVec 42) :
    (fillLine s l line).1.mgmt = s.mgmt ∧ (fillLine s l line).1.pending = s.pending := by
  constructor <;> (unfold fillLine; split <;> simp; done)

/-! ### Machine/Home.lean -/

@[simp] theorem answerRsp_keep (s : State) (l : Nat) (ty : Nat) (r : ReqInfo) (line : BitVec 42) (poison : Bool) (synth : Bool) :
    (answerRsp s l ty r line poison synth).mgmt = s.mgmt ∧ (answerRsp s l ty r line poison synth).pending = s.pending := by
  constructor <;> (simp [answerRsp]; done)

@[simp] theorem answerDat_keep (s : State) (l : Nat) (g : Nat) (r : ReqInfo) (line : BitVec 42) (data : LineData) (poison : Bool) (synth : Bool) :
    (answerDat s l g r line data poison synth).mgmt = s.mgmt ∧ (answerDat s l g r line data poison synth).pending = s.pending := by
  constructor <;> (simp [answerDat]; done)

@[simp] theorem seniorEnter_keep (s : State) (l : Nat) (r : ReqInfo) (line : BitVec 42) (mark : Bool) :
    (seniorEnter s l r line mark).1.mgmt = s.mgmt ∧ (seniorEnter s l r line mark).1.pending = s.pending := by
  constructor <;> (unfold seniorEnter; (try dsimp only); (repeat' split) <;> (try dsimp only) <;> simp)

@[simp] theorem nack_keep (s : State) (l : Nat) (r : ReqInfo) (line : BitVec 42) (reason : Nat) :
    (nack s l r line reason).mgmt = s.mgmt ∧ (nack s l r line reason).pending = s.pending := by
  constructor <;> (simp [nack]; done)

@[simp] theorem seniorHold_keep (s : State) (l : Nat) (line : BitVec 42) :
    (seniorHold s l line).mgmt = s.mgmt ∧ (seniorHold s l line).pending = s.pending := by
  constructor <;> (unfold seniorHold; (try dsimp only); (repeat' split) <;> (try dsimp only) <;> simp)

@[simp] theorem dropHold_keep (s : State) (l : Nat) (line : BitVec 42) :
    (dropHold s l line).mgmt = s.mgmt ∧ (dropHold s l line).pending = s.pending := by
  constructor <;> rfl

@[simp] theorem recordFinal_keep (s : State) (k : Tracker) (st : LState) :
    (recordFinal s k st).mgmt = s.mgmt ∧ (recordFinal s k st).pending = s.pending := by
  constructor <;> first | rfl | (unfold recordFinal; rfl) | (simp [recordFinal]; done) | (unfold recordFinal; split <;> simp; done) | (unfold recordFinal; (try dsimp only); (repeat' split) <;> (try dsimp only) <;> simp) | (unfold recordFinal; (try dsimp only); (repeat' split) <;> (try dsimp only) <;> first | (simp; done) | (first | (simp; done) | (simp; grind only [npArrived_keep, tryEject_keep, tryTurn_keep, refusedAt_keep, pinLine_keep])) | (((try simp); first | refine (foldl_mgmt _ _ _ ?_).trans ?_ | refine (foldl_pending _ _ _ ?_).trans ?_ | refine (foldl_fst_mgmt _ _ _ ?_).trans ?_ | refine (foldl_fst_pending _ _ _ ?_).trans ?_) <;> (try intro t a) <;> (try dsimp only) <;> (repeat' split) <;> first | (simp; done) | (simp; grind only [npArrived_keep, tryEject_keep, tryTurn_keep, refusedAt_keep, pinLine_keep])))

@[simp] theorem complete_keep (s : State) (l : Nat) (t : Nat) (st : LState) :
    (complete s l t st).mgmt = s.mgmt ∧ (complete s l t st).pending = s.pending := by
  constructor <;> (unfold complete; split <;> simp; done)

@[simp] theorem completePoisoned_keep (s : State) (l : Nat) (t : Nat) :
    (completePoisoned s l t).mgmt = s.mgmt ∧ (completePoisoned s l t).pending = s.pending := by
  constructor <;> (unfold completePoisoned; split <;> simp; done)

@[simp] theorem memRead_keep (s : State) (l : Nat) (t : Nat) (k : Tracker) :
    (memRead s l t k).mgmt = s.mgmt ∧ (memRead s l t k).pending = s.pending := by
  constructor <;> (unfold memRead; split <;> simp; done)

@[simp] theorem fromInvalid_keep (s : State) (l : Nat) (t : Nat) (k : Tracker) (r : ReqInfo) (base : HolderSet) :
    (fromInvalid s l t k r base).mgmt = s.mgmt ∧ (fromInvalid s l t k r base).pending = s.pending := by
  constructor <;> (unfold fromInvalid; split <;> simp; done)

@[simp] theorem fromPoisoned_keep (s : State) (l : Nat) (t : Nat) (k : Tracker) (r : ReqInfo) :
    (fromPoisoned s l t k r).mgmt = s.mgmt ∧ (fromPoisoned s l t k r).pending = s.pending := by
  constructor <;> (simp [fromPoisoned]; done)

@[simp] theorem sendSnoop_keep (s : State) (l : Nat) (u : FUnit) :
    (sendSnoop s l u).mgmt = s.mgmt ∧ (sendSnoop s l u).pending = s.pending := by
  constructor <;> (simp [sendSnoop]; done)

@[simp] theorem sendSnoops_keep (s : State) (l : Nat) (t : Nat) (k : Tracker) (inv : Bool) (fwd : Bool) (g : Targets) :
    (sendSnoops s l t k inv fwd g).mgmt = s.mgmt ∧ (sendSnoops s l t k inv fwd g).pending = s.pending := by
  constructor <;> (simp [sendSnoops]; done)

@[simp] theorem lastReply_keep (s : State) (l : Nat) (t : Nat) :
    (lastReply s l t).mgmt = s.mgmt ∧ (lastReply s l t).pending = s.pending := by
  constructor <;> (unfold lastReply; (try dsimp only); (repeat' split) <;> (try dsimp only) <;> simp)

@[simp] theorem startSnoop_keep (s : State) (l : Nat) (t : Nat) (k : Tracker) (inv : Bool) (fwd : Bool) (g : Targets) :
    (startSnoop s l t k inv fwd g).mgmt = s.mgmt ∧ (startSnoop s l t k inv fwd g).pending = s.pending := by
  constructor <;> (simp [startSnoop]; done)

@[simp] theorem proceed_keep (s : State) (l : Nat) (t : Nat) (k0 : Tracker) (r : ReqInfo) (st : LState) :
    (proceed s l t k0 r st).mgmt = s.mgmt ∧ (proceed s l t k0 r st).pending = s.pending := by
  constructor <;> (unfold proceed; (try dsimp only); (repeat' split) <;> (try dsimp only) <;> simp)

@[simp] theorem invalidateWith_keep (s : State) (l : Nat) (t : Nat) (line : BitVec 42) (st : LState) (fin : LState) (g : Targets) (reason : Nat) :
    (invalidateWith s l t line st fin g reason).mgmt = s.mgmt ∧ (invalidateWith s l t line st fin g reason).pending = s.pending := by
  constructor <;> (simp [invalidateWith]; done)

@[simp] theorem strayed_keep (s : State) :
    (strayed s).mgmt = s.mgmt ∧ (strayed s).pending = s.pending := by
  constructor <;> first | rfl | (unfold strayed; rfl) | (simp [strayed]; done) | (unfold strayed; split <;> simp; done) | (unfold strayed; (try dsimp only); (repeat' split) <;> (try dsimp only) <;> simp) | (unfold strayed; (try dsimp only); (repeat' split) <;> (try dsimp only) <;> first | (simp; done) | (first | (simp; done) | (simp; grind only [npArrived_keep, tryEject_keep, tryTurn_keep, refusedAt_keep, pinLine_keep])) | (((try simp); first | refine (foldl_mgmt _ _ _ ?_).trans ?_ | refine (foldl_pending _ _ _ ?_).trans ?_ | refine (foldl_fst_mgmt _ _ _ ?_).trans ?_ | refine (foldl_fst_pending _ _ _ ?_).trans ?_) <;> (try intro t a) <;> (try dsimp only) <;> (repeat' split) <;> first | (simp; done) | (simp; grind only [npArrived_keep, tryEject_keep, tryTurn_keep, refusedAt_keep, pinLine_keep])))

@[simp] theorem noTracker_keep (s : State) (l : Nat) (t : Nat) :
    (noTracker s l t).mgmt = s.mgmt ∧ (noTracker s l t).pending = s.pending := by
  constructor <;> first | rfl | (unfold noTracker; rfl) | (simp [noTracker]; done) | (unfold noTracker; split <;> simp; done) | (unfold noTracker; (try dsimp only); (repeat' split) <;> (try dsimp only) <;> simp) | (unfold noTracker; (try dsimp only); (repeat' split) <;> (try dsimp only) <;> first | (simp; done) | (first | (simp; done) | (simp; grind only [npArrived_keep, tryEject_keep, tryTurn_keep, refusedAt_keep, pinLine_keep])) | (((try simp); first | refine (foldl_mgmt _ _ _ ?_).trans ?_ | refine (foldl_pending _ _ _ ?_).trans ?_ | refine (foldl_fst_mgmt _ _ _ ?_).trans ?_ | refine (foldl_fst_pending _ _ _ ?_).trans ?_) <;> (try intro t a) <;> (try dsimp only) <;> (repeat' split) <;> first | (simp; done) | (simp; grind only [npArrived_keep, tryEject_keep, tryTurn_keep, refusedAt_keep, pinLine_keep])))

@[simp] theorem homeReply_keep (s : State) (l : Nat) (t : Nat) (h : Held) :
    (homeReply s l t h).mgmt = s.mgmt ∧ (homeReply s l t h).pending = s.pending := by
  constructor <;> (unfold homeReply; (try dsimp only); (repeat' split) <;> (try dsimp only) <;> simp)

@[simp] theorem answerWb_keep (s : State) (l : Nat) (ty : Nat) (h : Held) (r : Holder) (synth : Bool) :
    (answerWb s l ty h r synth).mgmt = s.mgmt ∧ (answerWb s l ty h r synth).pending = s.pending := by
  constructor <;> (simp [answerWb]; done)

@[simp] theorem vectorDrop_keep (s : State) (l : Nat) (line : BitVec 42) (st : LState) (r : Holder) :
    (vectorDrop s l line st r).mgmt = s.mgmt ∧ (vectorDrop s l line st r).pending = s.pending := by
  constructor <;> first | rfl | (unfold vectorDrop; rfl) | (simp [vectorDrop]; done) | (unfold vectorDrop; split <;> simp; done) | (unfold vectorDrop; (try dsimp only); (repeat' split) <;> (try dsimp only) <;> simp) | (unfold vectorDrop; (try dsimp only); (repeat' split) <;> (try dsimp only) <;> first | (simp; done) | (first | (simp; done) | (simp; grind only [npArrived_keep, tryEject_keep, tryTurn_keep, refusedAt_keep, pinLine_keep])) | (((try simp); first | refine (foldl_mgmt _ _ _ ?_).trans ?_ | refine (foldl_pending _ _ _ ?_).trans ?_ | refine (foldl_fst_mgmt _ _ _ ?_).trans ?_ | refine (foldl_fst_pending _ _ _ ?_).trans ?_) <;> (try intro t a) <;> (try dsimp only) <;> (repeat' split) <;> first | (simp; done) | (simp; grind only [npArrived_keep, tryEject_keep, tryTurn_keep, refusedAt_keep, pinLine_keep])))

@[simp] theorem homeWriteback_keep (s : State) (l : Nat) (h : Held) :
    (homeWriteback s l h).mgmt = s.mgmt ∧ (homeWriteback s l h).pending = s.pending := by
  constructor <;> (unfold homeWriteback; (try dsimp only); (repeat' split) <;> (try dsimp only) <;> simp)

@[simp] theorem homeWrData_keep (s : State) (l : Nat) (u : FUnit) :
    (homeWrData s l u).mgmt = s.mgmt ∧ (homeWrData s l u).pending = s.pending := by
  constructor <;> (unfold homeWrData; (try dsimp only); (repeat' split) <;> (try dsimp only) <;> simp)

@[simp] theorem homeMemCmp_keep (s : State) (l : Nat) (u : FUnit) :
    (homeMemCmp s l u).mgmt = s.mgmt ∧ (homeMemCmp s l u).pending = s.pending := by
  constructor <;> (unfold homeMemCmp; (try dsimp only); (repeat' split) <;> (try dsimp only) <;> simp)

@[simp] theorem homeDatMem_keep (s : State) (l : Nat) (u : FUnit) :
    (homeDatMem s l u).mgmt = s.mgmt ∧ (homeDatMem s l u).pending = s.pending := by
  constructor <;> (unfold homeDatMem; (try dsimp only); (repeat' split) <;> (try dsimp only) <;> simp)

@[simp] theorem lineLost_keep (s : State) (l : Nat) (line : BitVec 42) :
    (lineLost s l line).mgmt = s.mgmt ∧ (lineLost s l line).pending = s.pending := by
  constructor <;> first | rfl | (unfold lineLost; rfl) | (simp [lineLost]; done) | (unfold lineLost; split <;> simp; done) | (unfold lineLost; (try dsimp only); (repeat' split) <;> (try dsimp only) <;> simp) | (unfold lineLost; (try dsimp only); (repeat' split) <;> (try dsimp only) <;> first | (simp; done) | (first | (simp; done) | (simp; grind only [npArrived_keep, tryEject_keep, tryTurn_keep, refusedAt_keep, pinLine_keep])) | (((try simp); first | refine (foldl_mgmt _ _ _ ?_).trans ?_ | refine (foldl_pending _ _ _ ?_).trans ?_ | refine (foldl_fst_mgmt _ _ _ ?_).trans ?_ | refine (foldl_fst_pending _ _ _ ?_).trans ?_) <;> (try intro t a) <;> (try dsimp only) <;> (repeat' split) <;> first | (simp; done) | (simp; grind only [npArrived_keep, tryEject_keep, tryTurn_keep, refusedAt_keep, pinLine_keep])))

@[simp] theorem bufDone_keep (s : State) (l : Nat) (b : Nat) (poison : Bool) :
    (bufDone s l b poison).mgmt = s.mgmt ∧ (bufDone s l b poison).pending = s.pending := by
  constructor <;> (unfold bufDone; (try dsimp only); (repeat' split) <;> (try dsimp only) <;> simp)

@[simp] theorem homeMemWrCmp_keep (s : State) (l : Nat) (u : FUnit) :
    (homeMemWrCmp s l u).mgmt = s.mgmt ∧ (homeMemWrCmp s l u).pending = s.pending := by
  constructor <;> (unfold homeMemWrCmp; (try dsimp only); (repeat' split) <;> (try dsimp only) <;> simp)

@[simp] theorem homePull_keep (s : State) (l : Nat) (u : FUnit) :
    (homePull s l u).mgmt = s.mgmt ∧ (homePull s l u).pending = s.pending := by
  constructor <;> (unfold homePull; (try dsimp only); (repeat' split) <;> (try dsimp only) <;> simp)

@[simp] theorem switchLost_keep (s : State) (l : Nat) (t : Nat) (w : Nat) :
    (switchLost s l t w).mgmt = s.mgmt ∧ (switchLost s l t w).pending = s.pending := by
  constructor <;> (unfold switchLost; (try dsimp only); (repeat' split) <;> (try dsimp only) <;> simp)

@[simp] theorem homeUnreachable_keep (s : State) (l : Nat) (u : FUnit) :
    (homeUnreachable s l u).mgmt = s.mgmt ∧ (homeUnreachable s l u).pending = s.pending := by
  constructor <;> (unfold homeUnreachable; (try dsimp only); (repeat' split) <;> (try dsimp only) <;> simp)

@[simp] theorem homeEvictClean_keep (s : State) (l : Nat) (r : ReqInfo) (line : BitVec 42) (poison : Bool) (synth : Bool) :
    (homeEvictClean s l r line poison synth).mgmt = s.mgmt ∧ (homeEvictClean s l r line poison synth).pending = s.pending := by
  constructor <;> (unfold homeEvictClean; (try dsimp only); (repeat' split) <;> (try dsimp only) <;> simp)

@[simp] theorem safeRequest_keep (s : State) (l : Nat) (r : ReqInfo) (line : BitVec 42) :
    (safeRequest s l r line).mgmt = s.mgmt ∧ (safeRequest s l r line).pending = s.pending := by
  constructor <;> (simp [safeRequest]; done)

@[simp] theorem lostRequest_keep (s : State) (l : Nat) (r : ReqInfo) (line : BitVec 42) :
    (lostRequest s l r line).mgmt = s.mgmt ∧ (lostRequest s l r line).pending = s.pending := by
  constructor <;> (simp [lostRequest]; done)

@[simp] theorem acceptRequest_keep (s : State) (l : Nat) (h : Held) (r : ReqInfo) (line : BitVec 42) :
    (acceptRequest s l h r line).mgmt = s.mgmt ∧ (acceptRequest s l h r line).pending = s.pending := by
  unfold acceptRequest
  split
  · simp
  · dsimp only
    split
    · simp
    · rename_i e
      have h := pinLine_keep _ _ _ _ e
      constructor <;> (repeat' split) <;> simp [h]


@[simp] theorem homeRequest_keep (s : State) (l : Nat) (h : Held) :
    (homeRequest s l h).mgmt = s.mgmt ∧ (homeRequest s l h).pending = s.pending := by
  constructor <;> (unfold homeRequest; (try dsimp only); (repeat' split) <;> (try dsimp only) <;> simp)

theorem lostLine_keep (s : State) (l : Nat) (line : BitVec 42) (t : State) (h : lostLine s l line = some t) :
    t.mgmt = s.mgmt ∧ t.pending = s.pending := by
  unfold lostLine at h
  split at h
  · cases h
  · split at h
    · cases h
    · dsimp only at h
      split at h
      · cases h
      · rename_i e
        have k := pinLine_keep _ _ _ _ e
        simp only [Option.some.injEq] at h
        subst h
        simp [k]



@[simp] theorem lostSweep_keep (s : State) (l : Nat) :
    (lostSweep s l).mgmt = s.mgmt ∧ (lostSweep s l).pending = s.pending := by
  refine foldl_keep _ _ _ fun t a => ?_
  split
  · rename_i e; have k := lostLine_keep _ _ _ _ e; simp [k]
  · simp



@[simp] theorem homeWb_keep (s : State) (l : Nat) (h : Held) :
    (homeWb s l h).mgmt = s.mgmt ∧ (homeWb s l h).pending = s.pending := by
  constructor <;> (unfold homeWb; split <;> simp; done)

@[simp] theorem homeRspTaken_keep (s : State) (l : Nat) (h : Held) :
    (homeRspTaken s l h).mgmt = s.mgmt ∧ (homeRspTaken s l h).pending = s.pending := by
  constructor <;> (unfold homeRspTaken; split <;> simp; done)

theorem takeUnits_keep (s : State) (l n : Nat) (v : Vn) (ok : State → Bool) (f : State → Held → State)
    (hf : ∀ s h, (f s h).mgmt = s.mgmt ∧ (f s h).pending = s.pending) :
    (takeUnits s l n v ok f).mgmt = s.mgmt ∧ (takeUnits s l n v ok f).pending = s.pending :=
  foldl_keep _ _ _ fun t _ => by
    (repeat' split) <;> simp [hf]


@[simp] theorem takeRequests_keep (s : State) (l : Nat) :
    (takeRequests s l).mgmt = s.mgmt ∧ (takeRequests s l).pending = s.pending := by
  constructor <;> (unfold takeRequests; (try dsimp only); (repeat' split) <;> (try dsimp only) <;> simp)

@[simp] theorem homeIntake_keep (s : State) (l : Nat) :
    (homeIntake s l).mgmt = s.mgmt ∧ (homeIntake s l).pending = s.pending := by
  unfold homeIntake
  dsimp only
  have k1 := takeUnits_keep s l 2 .wb (fun t => (bufFree (slice t l)).isSome) (fun t h => homeWb t l h) (fun s h => by simp)
  generalize takeUnits s l 2 .wb (fun t => (bufFree (slice t l)).isSome) (fun t h => homeWb t l h) = s1 at k1 ⊢
  have k2 := takeUnits_keep s1 l 2 .rsp (fun _ => true) (fun t h => homeRspTaken t l h) (fun s h => by simp)
  generalize takeUnits s1 l 2 .rsp (fun _ => true) (fun t h => homeRspTaken t l h) = s2 at k2 ⊢
  have k3 := takeUnits_keep s2 l 1 .dat (fun _ => true) (fun t h => if h.u.type = 0x3F then homeUnreachable t l h.u else homeDatMem t l h.u)
    (fun s h => by split <;> simp)
  generalize takeUnits s2 l 1 .dat (fun _ => true) (fun t h => if h.u.type = 0x3F then homeUnreachable t l h.u else homeDatMem t l h.u) = s3 at k3 ⊢
  simp [k1, k2, k3]



theorem execHomeIntakeCycle_keep (l : Fin 32) (s : State) : okept s (execHomeIntakeCycle l s) := by
  (simp [execHomeIntakeCycle]; done)

theorem execSeniorHoldExpire_keep (l : Fin 32) (line : BitVec 42) (s : State) : okept s (execSeniorHoldExpire l line s) := by
  (simp [execSeniorHoldExpire]; done)

theorem execSeniorEntryTimeout_keep (l : Fin 32) (i : Fin 8) (s : State) : okept s (execSeniorEntryTimeout l i s) := by
  (simp [execSeniorEntryTimeout]; done)

theorem execSnoopFilterFill_keep (l : Fin 32) (t : Fin 2048) (s : State) : okept s (execSnoopFilterFill l t s) := by
  (unfold execSnoopFilterFill; (try dsimp only); (repeat' split) <;> (try dsimp only) <;> simp)

@[simp] theorem notInserting_keep (s : State) (l : Nat) (line : BitVec 42) :
    (notInserting s l line).mgmt = s.mgmt ∧ (notInserting s l line).pending = s.pending := by
  constructor <;> first | rfl | (unfold notInserting; rfl) | (simp [notInserting]; done) | (unfold notInserting; split <;> simp; done) | (unfold notInserting; (try dsimp only); (repeat' split) <;> (try dsimp only) <;> simp) | (unfold notInserting; (try dsimp only); (repeat' split) <;> (try dsimp only) <;> first | (simp; done) | (first | (simp; done) | (simp; grind only [npArrived_keep, tryEject_keep, tryTurn_keep, refusedAt_keep, pinLine_keep, lostLine_keep])) | (((try simp); first | refine (foldl_mgmt _ _ _ ?_).trans ?_ | refine (foldl_pending _ _ _ ?_).trans ?_ | refine (foldl_fst_mgmt _ _ _ ?_).trans ?_ | refine (foldl_fst_pending _ _ _ ?_).trans ?_) <;> (try intro t a) <;> (try dsimp only) <;> (repeat' split) <;> first | (simp; done) | (simp; grind only [npArrived_keep, tryEject_keep, tryTurn_keep, refusedAt_keep, pinLine_keep, lostLine_keep])))

@[simp] theorem evictAbandon_keep (s : State) (l : Nat) (e : DirEntry) :
    (evictAbandon s l e).mgmt = s.mgmt ∧ (evictAbandon s l e).pending = s.pending := by
  constructor <;> first | rfl | (unfold evictAbandon; rfl) | (simp [evictAbandon]; done) | (unfold evictAbandon; split <;> simp; done) | (unfold evictAbandon; (try dsimp only); (repeat' split) <;> (try dsimp only) <;> simp) | (unfold evictAbandon; (try dsimp only); (repeat' split) <;> (try dsimp only) <;> first | (simp; done) | (first | (simp; done) | (simp; grind only [npArrived_keep, tryEject_keep, tryTurn_keep, refusedAt_keep, pinLine_keep, lostLine_keep])) | (((try simp); first | refine (foldl_mgmt _ _ _ ?_).trans ?_ | refine (foldl_pending _ _ _ ?_).trans ?_ | refine (foldl_fst_mgmt _ _ _ ?_).trans ?_ | refine (foldl_fst_pending _ _ _ ?_).trans ?_) <;> (try intro t a) <;> (try dsimp only) <;> (repeat' split) <;> first | (simp; done) | (simp; grind only [npArrived_keep, tryEject_keep, tryTurn_keep, refusedAt_keep, pinLine_keep, lostLine_keep])))

@[simp] theorem insertEntry_keep (s : State) (l : Nat) (e : DirEntry) :
    (insertEntry s l e).mgmt = s.mgmt ∧ (insertEntry s l e).pending = s.pending := by
  constructor <;> first | rfl | (unfold insertEntry; rfl) | (simp [insertEntry]; done) | (unfold insertEntry; split <;> simp; done) | (unfold insertEntry; (try dsimp only); (repeat' split) <;> (try dsimp only) <;> simp) | (unfold insertEntry; (try dsimp only); (repeat' split) <;> (try dsimp only) <;> first | (simp; done) | (first | (simp; done) | (simp; grind only [npArrived_keep, tryEject_keep, tryTurn_keep, refusedAt_keep, pinLine_keep, lostLine_keep])) | (((try simp); first | refine (foldl_mgmt _ _ _ ?_).trans ?_ | refine (foldl_pending _ _ _ ?_).trans ?_ | refine (foldl_fst_mgmt _ _ _ ?_).trans ?_ | refine (foldl_fst_pending _ _ _ ?_).trans ?_) <;> (try intro t a) <;> (try dsimp only) <;> (repeat' split) <;> first | (simp; done) | (simp; grind only [npArrived_keep, tryEject_keep, tryTurn_keep, refusedAt_keep, pinLine_keep, lostLine_keep])))

@[simp] theorem sfInsert_keep (s : State) (l : Nat) :
    (sfInsert s l).mgmt = s.mgmt ∧ (sfInsert s l).pending = s.pending := by
  constructor <;> (unfold sfInsert; (try dsimp only); (repeat' split) <;> (try dsimp only) <;> simp)

theorem execSnoopFilterInsertion_keep (l : Fin 32) (s : State) : okept s (execSnoopFilterInsertion l s) := by
  (simp [execSnoopFilterInsertion]; done)

/-! ### Machine/Pool.lean -/

@[simp] theorem poolMemRd_keep (s : State) (p : Nat) :
    (poolMemRd s p).mgmt = s.mgmt ∧ (poolMemRd s p).pending = s.pending := by
  constructor <;> (unfold poolMemRd; split <;> simp; done)

theorem execPoolPortMemrd_keep (p : Fin 96) (s : State) : okept s (execPoolPortMemrd p s) := by
  (simp [execPoolPortMemrd]; done)

@[simp] theorem poolMemWr_keep (s : State) (p : Nat) :
    (poolMemWr s p).mgmt = s.mgmt ∧ (poolMemWr s p).pending = s.pending := by
  constructor <;> (unfold poolMemWr; split <;> simp; done)

theorem execPoolPortMemwr_keep (p : Fin 96) (s : State) : okept s (execPoolPortMemwr p s) := by
  (simp [execPoolPortMemwr]; done)

@[simp] theorem wrPull_keep (s : State) (p : Nat) :
    (wrPull s p).mgmt = s.mgmt ∧ (wrPull s p).pending = s.pending := by
  constructor <;> (unfold wrPull; (try dsimp only); (repeat' split) <;> (try dsimp only) <;> simp)

theorem execWrpull_keep (p : Fin 96) (s : State) : okept s (execWrpull p s) := by
  (simp [execWrpull]; done)

@[simp] theorem poolMemData_keep (s : State) (p : Nat) :
    (poolMemData s p).mgmt = s.mgmt ∧ (poolMemData s p).pending = s.pending := by
  constructor <;> (unfold poolMemData; (try dsimp only); (repeat' split) <;> (try dsimp only) <;> simp)

theorem execPoolPortMemdata_keep (p : Fin 96) (s : State) : okept s (execPoolPortMemdata p s) := by
  (simp [execPoolPortMemdata]; done)

@[simp] theorem expanderResponse_keep (s : State) (p : Nat) (dat : Bool) :
    (expanderResponse s p dat).mgmt = s.mgmt ∧ (expanderResponse s p dat).pending = s.pending := by
  constructor <;> (unfold expanderResponse; (try dsimp only); (repeat' split) <;> (try dsimp only) <;> simp)

theorem execPoolPortExpanderResponse_keep (p : Fin 96) (dat : Bool) (s : State) : okept s (execPoolPortExpanderResponse p dat s) := by
  unfold execPoolPortExpanderResponse
  generalize bridgeOpen _ _ _ = b
  cases b <;> simp



@[simp] theorem poolDown_keep (s : State) (p : Nat) :
    (poolDown s p).mgmt = s.mgmt ∧ (poolDown s p).pending = s.pending := by
  constructor <;> (simp [poolDown]; done)

/-! ### Machine/Sess.lean -/

@[simp] theorem sessSet_keep (s : State) (id : Nat) (idx : Nat) (sub : Nat) (v : Nat) :
    (sessSet s id idx sub v).mgmt = s.mgmt ∧ (sessSet s id idx sub v).pending = s.pending := by
  constructor <;> rfl

@[simp] theorem closeSessions_keep (s : State) (p : Session → Bool) :
    (closeSessions s p).mgmt = s.mgmt ∧ (closeSessions s p).pending = s.pending := by
  constructor <;> rfl

/-! ### Machine/Cullet.lean -/

@[simp] theorem culletWrite_keep (s : State) (n : Nat) :
    (culletWrite s n).mgmt = s.mgmt ∧ (culletWrite s n).pending = s.pending := by
  constructor <;> (simp [culletWrite]; done)

@[simp] theorem culletMake_keep (s : State) (kind origin location : Nat) (st : CulletState) :
    (culletMake s kind origin location st).mgmt = s.mgmt ∧ (culletMake s kind origin location st).pending = s.pending := by
  unfold culletMake
  split <;> simp


@[simp] theorem sliceRetire_keep (s : State) (phys : Nat) (origin : Nat) :
    (sliceRetire s phys origin).mgmt = s.mgmt ∧ (sliceRetire s phys origin).pending = s.pending := by
  constructor <;> (simp [sliceRetire]; done)

/-! ### Machine/Moves.lean -/

@[simp] theorem setMove_keep (s : State) (m : Nat) (x : Move) :
    (setMove s m x).mgmt = s.mgmt ∧ (setMove s m x).pending = s.pending := by
  constructor <;> rfl

@[simp] theorem startWrite_keep (s : State) (w : RemapWrite) :
    (startWrite s w).mgmt = s.mgmt ∧ (startWrite s w).pending = s.pending := by
  constructor <;> rfl

@[simp] theorem askWrite_keep (s : State) (w : RemapWrite) :
    (askWrite s w).mgmt = s.mgmt ∧ (askWrite s w).pending = s.pending := by
  constructor <;> (unfold askWrite; split <;> simp; done)

@[simp] theorem remapEntryWrite_keep (s : State) (g : Nat) (v : Nat) :
    (remapEntryWrite s g v).1.mgmt = s.mgmt ∧ (remapEntryWrite s g v).1.pending = s.pending := by
  constructor <;> (simp [remapEntryWrite]; done)

theorem execRemapEntryWrite_keep (g : Fin 8388608) (v : BitVec 64) (s : State) : okept s (execRemapEntryWrite g v s) := by
  (simp [execRemapEntryWrite]; done)

@[simp] theorem moveFree_keep (s : State) (m : Nat) :
    (moveFree s m).mgmt = s.mgmt ∧ (moveFree s m).pending = s.pending := by
  constructor <;> (unfold moveFree; split <;> simp; done)

@[simp] theorem moveClear_keep (s : State) (m : Nat) :
    (moveClear s m).mgmt = s.mgmt ∧ (moveClear s m).pending = s.pending := by
  constructor <;> (unfold moveClear; split <;> simp; done)

theorem execMoveGranuleClear_keep (m : Fin 1024) (s : State) : okept s (execMoveGranuleClear m s) := by
  (simp [execMoveGranuleClear]; done)

@[simp] theorem poisonRelease_keep (s : State) (g : Nat) :
    (poisonRelease s g).mgmt = s.mgmt ∧ (poisonRelease s g).pending = s.pending := by
  unfold poisonRelease
  refine foldl_from s _ _ _ (foldl_keep _ _ _ fun t l => ⟨rfl, rfl⟩) fun t p => ?_
  split <;> simp


@[simp] theorem sweepEntry_keep (s : State) (g : Nat) :
    (sweepEntry s g).mgmt = s.mgmt ∧ (sweepEntry s g).pending = s.pending := by
  simp [sweepEntry, setBacking]


@[simp] theorem sweepIfLost_keep (s : State) (g : Nat) :
    (sweepIfLost s g).mgmt = s.mgmt ∧ (sweepIfLost s g).pending = s.pending := by
  constructor <;> (simp [sweepIfLost]; done)

@[simp] theorem moveWritten_keep (s : State) (m : Nat) (g : Nat) (last : Bool) :
    (moveWritten s m g last).mgmt = s.mgmt ∧ (moveWritten s m g last).pending = s.pending := by
  constructor <;> (unfold moveWritten; split <;> simp; done)

@[simp] theorem writeDone_keep (s : State) :
    (writeDone s).mgmt = s.mgmt ∧ (writeDone s).pending = s.pending := by
  constructor <;> (unfold writeDone; (try dsimp only); (repeat' split) <;> (try dsimp only) <;> simp)

theorem execRemapWriteComplete_keep (s : State) : okept s (execRemapWriteComplete s) := by
  (simp [execRemapWriteComplete]; done)

theorem applyRun_keep (s : State) (r : BitVec 128) (t : State) (h : applyRun s r = some t) : t.mgmt = s.mgmt ∧ t.pending = s.pending := by
  unfold applyRun at h
  (try dsimp only at h)
  (repeat' split at h) <;> simp at h <;> (try subst h) <;> simp

@[simp] theorem applyRuns_keep (s : State) (rs : List (BitVec 128)) :
    (applyRuns s rs).1.mgmt = s.mgmt ∧ (applyRuns s rs).1.pending = s.pending := by
  induction rs generalizing s with
  | nil => exact ⟨rfl, rfl⟩
  | cons r rest ih =>
    unfold applyRuns
    split
    · exact ⟨rfl, rfl⟩
    · rename_i t e
      have h := applyRun_keep _ _ _ e
      simp [ih, h]


@[simp] theorem bulkLoad_keep (s : State) (rs : List (BitVec 128)) :
    (bulkLoad s rs).1.mgmt = s.mgmt ∧ (bulkLoad s rs).1.pending = s.pending := by
  constructor <;> (simp [bulkLoad]; done)

theorem execRemapBulkLoad_keep (records : List (BitVec 128)) (s : State) : okept s (execRemapBulkLoad records s) := by
  (simp [execRemapBulkLoad]; done)

@[simp] theorem startMove_keep (s : State) (g : Nat) (dest : Nat) (restore : Bool) (owner : Option (Nat × Nat)) :
    (startMove s g dest restore owner).1.mgmt = s.mgmt ∧ (startMove s g dest restore owner).1.pending = s.pending := by
  constructor <;> (unfold startMove; (try dsimp only); (repeat' split) <;> (try dsimp only) <;> simp)

theorem startMove_fst (s : State) (g dest : Nat) (restore : Bool) (owner : Option (Nat × Nat)) (t : State)
    (r : Except Status Nat) (h : startMove s g dest restore owner = (t, r)) : t.mgmt = s.mgmt ∧ t.pending = s.pending := by
  have := startMove_keep s g dest restore owner
  rw [h] at this
  exact this
@[simp] theorem moveExecute_keep (s : State) (sess g dest : Nat) (restore : Bool) :
    (moveExecute s sess g dest restore).1.mgmt = s.mgmt ∧ (moveExecute s sess g dest restore).1.pending = s.pending := by
  unfold moveExecute
  split <;> (rename_i e; simpa using startMove_fst _ _ _ _ _ _ _ e)


theorem execMoveExecute_keep (sess : BitVec 32) (g : Fin 8388608) (dest : BitVec 64) (restore : Bool) (s : State) : okept s (execMoveExecute sess g dest restore s) := by
  (simp [execMoveExecute]; done)

theorem pageToken?_keep (s : State) (cost : Nat) (t : State) (h : pageToken? s cost = some t) :
    t.mgmt = s.mgmt ∧ t.pending = s.pending := by
  unfold pageToken? at h
  split at h
  · cases h
  · exact spend?_keep _ _ _ _ h


@[simp] theorem paced_keep (s : State) :
    (paced s).mgmt = s.mgmt ∧ (paced s).pending = s.pending := by
  constructor <;> rfl

@[simp] theorem writePage_keep (s : State) (m : Nat) (x : Move) (data : LineData) (poison : Bool) :
    (writePage s m x data poison).mgmt = s.mgmt ∧ (writePage s m x data poison).pending = s.pending := by
  constructor <;> (simp [writePage]; done)

@[simp] theorem pageStart_keep (s : State) (m : Nat) :
    (pageStart s m).mgmt = s.mgmt ∧ (pageStart s m).pending = s.pending := by
  unfold pageStart
  (repeat' split) <;> (try simp)
  all_goals (rename_i e; simpa using pageToken?_keep _ _ _ e)


theorem execMovePageStart_keep (m : Fin 1024) (s : State) : okept s (execMovePageStart m s) := by
  (simp [execMovePageStart]; done)

@[simp] theorem pageClear_keep (s : State) (m : Nat) :
    (pageClear s m).mgmt = s.mgmt ∧ (pageClear s m).pending = s.pending := by
  constructor <;> (unfold pageClear; split <;> simp; done)

theorem execMovePageClear_keep (m : Fin 1024) (s : State) : okept s (execMovePageClear m s) := by
  (simp [execMovePageClear]; done)

@[simp] theorem releasePage_keep (s : State) (g p : Nat) :
    (releasePage s g p).mgmt = s.mgmt ∧ (releasePage s g p).pending = s.pending := by
  refine foldl_keep _ _ _ fun t l => ?_
  refine foldl_from t _ _ _ ⟨rfl, rfl⟩ fun r q => ?_
  (repeat' split) <;> simp


@[simp] theorem salvageEnd_keep (s : State) (m : Nat) (x : Move) :
    (salvageEnd s m x).mgmt = s.mgmt ∧ (salvageEnd s m x).pending = s.pending := by
  constructor <;> (simp [salvageEnd]; done)

@[simp] theorem pageComplete_keep (s : State) (m : Nat) :
    (pageComplete s m).mgmt = s.mgmt ∧ (pageComplete s m).pending = s.pending := by
  constructor <;> (unfold pageComplete; (try dsimp only); (repeat' split) <;> (try dsimp only) <;> simp)

theorem execMovePageComplete_keep (m : Fin 1024) (s : State) : okept s (execMovePageComplete m s) := by
  (simp [execMovePageComplete]; done)

@[simp] theorem abandonPage_keep (s : State) (m : Nat) (x : Move) :
    (abandonPage s m x).mgmt = s.mgmt ∧ (abandonPage s m x).pending = s.pending := by
  unfold abandonPage
  dsimp only
  constructor <;> (split <;> simp)


theorem execMovePageAbandon_keep (m : Fin 1024) (s : State) : okept s (execMovePageAbandon m s) := by
  (unfold execMovePageAbandon; (try dsimp only); (repeat' split) <;> (try dsimp only) <;> simp)

@[simp] theorem salvagePage_keep (s : State) (m : Nat) :
    (salvagePage s m).mgmt = s.mgmt ∧ (salvagePage s m).pending = s.pending := by
  unfold salvagePage
  (repeat' split) <;> (try simp)
  all_goals (rename_i e; simpa using pageToken?_keep _ _ _ e)


theorem execSalvagePage_keep (m : Fin 1024) (s : State) : okept s (execSalvagePage m s) := by
  (simp [execSalvagePage]; done)

@[simp] theorem restoreFilled_keep (s : State) (m : Nat) :
    (restoreFilled s m).mgmt = s.mgmt ∧ (restoreFilled s m).pending = s.pending := by
  constructor <;> (unfold restoreFilled; split <;> simp; done)

theorem execRestoreFillComplete_keep (m : Fin 1024) (s : State) : okept s (execRestoreFillComplete m s) := by
  (simp [execRestoreFillComplete]; done)

@[simp] theorem dropWaiting_keep (s : State) (m : Nat) :
    (dropWaiting s m).mgmt = s.mgmt ∧ (dropWaiting s m).pending = s.pending := by
  constructor <;> rfl

@[simp] theorem restoreLost_keep (s : State) (m : Nat) (x : Move) :
    (restoreLost s m x).mgmt = s.mgmt ∧ (restoreLost s m x).pending = s.pending := by
  constructor <;> rfl

@[simp] theorem moveLost_keep (s : State) (p : Nat) (mask : BitVec 16) (m : Nat) :
    (moveLost s p mask m).mgmt = s.mgmt ∧ (moveLost s p mask m).pending = s.pending := by
  constructor <;> (unfold moveLost; (try dsimp only); (repeat' split) <;> (try dsimp only) <;> simp)

@[simp] theorem moveLoss_keep (s : State) (p : Nat) (mask : BitVec 16) :
    (moveLoss s p mask).mgmt = s.mgmt ∧ (moveLoss s p mask).pending = s.pending := by
  constructor <;> (simp [moveLoss]; done)

@[simp] theorem moveCancel_keep (s : State) (m : Nat) :
    (moveCancel s m).1.mgmt = s.mgmt ∧ (moveCancel s m).1.pending = s.pending := by
  constructor <;> (unfold moveCancel; split <;> simp; done)

theorem execMoveCancel_keep (m : Fin 1024) (s : State) : okept s (execMoveCancel m s) := by
  (simp [execMoveCancel]; done)

@[simp] theorem setLine_keep (s : State) (m : Nat) (x : Move) (i : Nat) (st : LineSt) :
    (setLine s m x i st).mgmt = s.mgmt ∧ (setLine s m x i st).pending = s.pending := by
  constructor <;> rfl

@[simp] theorem lineRead_keep (s : State) (m : Nat) (x : Move) (i : Nat) (d : LineData) (poison : Bool) :
    (lineRead s m x i d poison).mgmt = s.mgmt ∧ (lineRead s m x i d poison).pending = s.pending := by
  constructor <;> (simp [lineRead]; done)

@[simp] theorem moverAnswer_keep (s : State) (u : FUnit) :
    (moverAnswer s u).mgmt = s.mgmt ∧ (moverAnswer s u).pending = s.pending := by
  constructor <;> (unfold moverAnswer; (try dsimp only); (repeat' split) <;> (try dsimp only) <;> simp)

theorem execTierMoverResponse_keep (dat : Bool) (s : State) : okept s (execTierMoverResponse dat s) := by
  (unfold execTierMoverResponse; (try dsimp only); (repeat' split) <;> (try dsimp only) <;> simp)

@[simp] theorem sweepStep_keep (s : State) :
    (sweepStep s).mgmt = s.mgmt ∧ (sweepStep s).pending = s.pending := by
  unfold sweepStep
  split
  · exact ⟨rfl, rfl⟩
  · dsimp only
    split
    · exact ⟨rfl, rfl⟩
    · split
      · exact ⟨rfl, rfl⟩
      · rename_i e
        generalize hr : List.foldl _ _ _ = r
        have k : r.mgmt = s.mgmt ∧ r.pending = s.pending := by
          rw [← hr]
          exact foldl_from s _ _ _ (spend?_keep _ _ _ _ e) fun t i => sweepEntry_keep _ _
        exact k


theorem execPoisonSweepStep_keep (s : State) : okept s (execPoisonSweepStep s) := by
  (simp [execPoisonSweepStep]; done)

@[simp] theorem poolLost_keep (s : State) (p : Nat) (mask : BitVec 16) :
    (poolLost s p mask).mgmt = s.mgmt ∧ (poolLost s p mask).pending = s.pending := by
  constructor <;> (simp [poolLost]; done)

@[simp] theorem abandonGranule_keep (s : State) (g : Nat) :
    (abandonGranule s g).mgmt = s.mgmt ∧ (abandonGranule s g).pending = s.pending := by
  constructor <;> (unfold abandonGranule; (try dsimp only); (repeat' split) <;> (try dsimp only) <;> simp)

@[simp] theorem abandonRange_keep (s : State) (lo : Nat) (hi : Nat) :
    (abandonRange s lo hi).mgmt = s.mgmt ∧ (abandonRange s lo hi).pending = s.pending := by
  constructor <;> (simp [abandonRange]; done)

/-! ### Machine/DirOps.lean -/

@[simp] theorem showRemovals_keep (s : State) :
    (showRemovals s).mgmt = s.mgmt ∧ (showRemovals s).pending = s.pending := by
  constructor <;> rfl

@[simp] theorem passStart_keep (s : State) :
    (passStart s).mgmt = s.mgmt ∧ (passStart s).pending = s.pending := by
  constructor <;> (simp [passStart]; done)

@[simp] theorem listRemoval_keep (s : State) (sw : Bool) (id : Nat) :
    (listRemoval s sw id).mgmt = s.mgmt ∧ (listRemoval s sw id).pending = s.pending := by
  constructor <;> (simp [listRemoval]; done)

@[simp] theorem removeHost_keep (s : State) (v : Nat) :
    (removeHost s v).mgmt = s.mgmt ∧ (removeHost s v).pending = s.pending := by
  constructor <;> (simp [removeHost]; done)

@[simp] theorem passCached_keep (s : State) (l : Nat) (line : BitVec 42) (c : Nat) (e : DirEntry) (i : Nat) (w : SfWay) :
    (passCached s l line c e i w).mgmt = s.mgmt ∧ (passCached s l line c e i w).pending = s.pending := by
  constructor <;> first | rfl | (unfold passCached; rfl) | (simp [passCached]; done) | (unfold passCached; split <;> simp; done) | (unfold passCached; (try dsimp only); (repeat' split) <;> (try dsimp only) <;> simp) | (unfold passCached; (try dsimp only); (repeat' split) <;> (try dsimp only) <;> first | (simp; done) | (first | (simp; done) | (simp; grind only [npArrived_keep, tryEject_keep, tryTurn_keep, refusedAt_keep, pinLine_keep, lostLine_keep, applyRun_keep, pageToken?_keep])) | (((try simp); first | refine (foldl_mgmt _ _ _ ?_).trans ?_ | refine (foldl_pending _ _ _ ?_).trans ?_ | refine (foldl_fst_mgmt _ _ _ ?_).trans ?_ | refine (foldl_fst_pending _ _ _ ?_).trans ?_) <;> (try intro t a) <;> (try dsimp only) <;> (repeat' split) <;> first | (simp; done) | (simp; grind only [npArrived_keep, tryEject_keep, tryTurn_keep, refusedAt_keep, pinLine_keep, lostLine_keep, applyRun_keep, pageToken?_keep])))

@[simp] theorem passWay_keep (s : State) (k : Nat) (w : SfWay) :
    (passWay s k w).mgmt = s.mgmt ∧ (passWay s k w).pending = s.pending := by
  constructor <;> (unfold passWay; (try dsimp only); (repeat' split) <;> (try dsimp only) <;> simp)

@[simp] theorem passApply_keep (s : State) (n : Nat) :
    (passApply s n).mgmt = s.mgmt ∧ (passApply s n).pending = s.pending := by
  constructor <;> (simp [passApply]; done)

@[simp] theorem passStep_keep (s : State) : (passStep s).mgmt = s.mgmt ∧ (passStep s).pending = s.pending := by
  unfold passStep
  split
  · exact ⟨rfl, rfl⟩
  · split
    · exact ⟨rfl, rfl⟩
    · dsimp only
      split
      · exact ⟨rfl, rfl⟩
      · rename_i e
        simpa using spend?_keep _ _ _ _ e


theorem execRemovalPassStep_keep (s : State) : okept s (execRemovalPassStep s) := by
  (unfold execRemovalPassStep; (try dsimp only); (repeat' split) <;> (try dsimp only) <;> simp)

@[simp] theorem leaveList_keep (s : State) (r : Removal) :
    (leaveList s r).mgmt = s.mgmt ∧ (leaveList s r).pending = s.pending := by
  constructor <;> rfl

@[simp] theorem takeWaiting_keep (s : State) :
    (takeWaiting s).mgmt = s.mgmt ∧ (takeWaiting s).pending = s.pending := by
  constructor <;> rfl

@[simp] theorem passComplete_keep (s : State) :
    (passComplete s).mgmt = s.mgmt ∧ (passComplete s).pending = s.pending := by
  constructor <;> (unfold passComplete; split <;> simp; done)

theorem execRemovalPassComplete_keep (s : State) : okept s (execRemovalPassComplete s) := by
  (simp [execRemovalPassComplete]; done)

@[simp] theorem showRecovery_keep (s : State) (i : Nat) :
    (showRecovery s i).mgmt = s.mgmt ∧ (showRecovery s i).pending = s.pending := by
  constructor <;> rfl

@[simp] theorem setRecovery_keep (s : State) (i : Nat) (r : Recovery) :
    (setRecovery s i r).mgmt = s.mgmt ∧ (setRecovery s i r).pending = s.pending := by
  constructor <;> rfl

@[simp] theorem recoverySettle_keep (s : State) (i : Nat) (tell : Bool) :
    (recoverySettle s i tell).mgmt = s.mgmt ∧ (recoverySettle s i tell).pending = s.pending := by
  constructor <;> (simp [recoverySettle]; done)

@[simp] theorem recoveryDropVcs_keep (s : State) (v : Nat) (i : Nat) :
    (recoveryDropVcs s v i).mgmt = s.mgmt ∧ (recoveryDropVcs s v i).pending = s.pending := by
  constructor <;> (simp [recoveryDropVcs]; done)

@[simp] theorem recoveryDropSwitch_keep (s : State) (w : Nat) (i : Nat) :
    (recoveryDropSwitch s w i).mgmt = s.mgmt ∧ (recoveryDropSwitch s w i).pending = s.pending := by
  constructor <;> (simp [recoveryDropSwitch]; done)

@[simp] theorem recoveryAnswers_keep (s : State) :
    (recoveryAnswers s).mgmt = s.mgmt ∧ (recoveryAnswers s).pending = s.pending := by
  unfold recoveryAnswers
  split
  · exact ⟨rfl, rfl⟩
  · exact foldl_keep _ _ _ fun t p => by split <;> exact ⟨rfl, rfl⟩


@[simp] theorem askedDone_keep (s : State) (v : Nat) :
    (askedDone s v).mgmt = s.mgmt ∧ (askedDone s v).pending = s.pending := by
  constructor <;> (simp [askedDone]; done)

@[simp] theorem recoveryVcs_keep (s : State) (v : Nat) :
    (recoveryVcs s v).mgmt = s.mgmt ∧ (recoveryVcs s v).pending = s.pending := by
  unfold recoveryVcs
  have h := foldl_keep (fun t i => recoveryDropVcs t v i) (List.range 64) s fun t i => by simp
  simpa using h


@[simp] theorem recoveryAsk_keep (s : State) (v : Nat) :
    (recoveryAsk s v).mgmt = s.mgmt ∧ (recoveryAsk s v).pending = s.pending := by
  constructor <;> (simp [recoveryAsk]; done)

theorem execRecoveryFlushComplete_keep (v : Fin 64) (s : State) : okept s (execRecoveryFlushComplete v s) := by
  (simp [execRecoveryFlushComplete]; done)

theorem execGpfCompletion_keep (v : Fin 64) (s : State) : okept s (execGpfCompletion v s) := by
  (simp [execGpfCompletion]; done)

theorem execRecoverydone_keep (w : Fin 1024) (s : State) : okept s (execRecoverydone w s) := by
  (simp [execRecoverydone]; done)

@[simp] theorem recoveryPoison_keep (s : State) (i : Nat) :
    (recoveryPoison s i).mgmt = s.mgmt ∧ (recoveryPoison s i).pending = s.pending := by
  constructor <;> (simp [recoveryPoison]; done)

@[simp] theorem abandonVcs_keep (s : State) (i : Nat) (v : Nat) :
    (abandonVcs s i v).mgmt = s.mgmt ∧ (abandonVcs s i v).pending = s.pending := by
  constructor <;> (simp [abandonVcs]; done)

theorem execAbandonVcs_keep (i : Fin 64) (v : Fin 64) (s : State) : okept s (execAbandonVcs i v s) := by
  (simp [execAbandonVcs]; done)

@[simp] theorem abandonSwitch_keep (s : State) (i : Nat) (w : Nat) :
    (abandonSwitch s i w).mgmt = s.mgmt ∧ (abandonSwitch s i w).pending = s.pending := by
  constructor <;> (simp [abandonSwitch]; done)

theorem execAbandonSwitch_keep (i : Fin 64) (w : Fin 1024) (s : State) : okept s (execAbandonSwitch i w s) := by
  (simp [execAbandonSwitch]; done)

theorem execRecoveryTimeout_keep (i : Fin 64) (s : State) : okept s (execRecoveryTimeout i s) := by
  (unfold execRecoveryTimeout; (try dsimp only); (repeat' split) <;> (try dsimp only) <;> simp)

@[simp] theorem peerTrackers_keep (s : State) (w : Nat) :
    (peerTrackers s w).mgmt = s.mgmt ∧ (peerTrackers s w).pending = s.pending :=
  foldl_keep _ _ _ fun t l => foldl_keep _ _ _ fun r n => by simp


@[simp] theorem declareLost_keep (s : State) (w : Nat) :
    (declareLost s w).1.mgmt = s.mgmt ∧ (declareLost s w).1.pending = s.pending := by
  constructor <;> (simp [declareLost]; done)

theorem execDeclarePeerLost_keep (w : Fin 1024) (s : State) : okept s (execDeclarePeerLost w s) := by
  (simp [execDeclarePeerLost]; done)

@[simp] theorem addWalk_keep (s : State) (ext : Option (Nat × Nat × Nat)) (base : Nat) (limit : Nat) :
    (addWalk s ext base limit).mgmt = s.mgmt ∧ (addWalk s ext base limit).pending = s.pending := by
  constructor <;> rfl

@[simp] theorem flushRange_keep (s : State) (base : Nat) (limit : Nat) :
    (flushRange s base limit).1.mgmt = s.mgmt ∧ (flushRange s base limit).1.pending = s.pending := by
  constructor <;> (simp [flushRange]; done)

theorem execFlushRangeExecute_keep (base : BitVec 64) (limit : BitVec 64) (s : State) : okept s (execFlushRangeExecute base limit s) := by
  (simp [execFlushRangeExecute]; done)

theorem walkLine_keep (s : State) (w : Walk) (line : BitVec 42) (t : State) (h : walkLine s w line = some t) :
    t.mgmt = s.mgmt ∧ t.pending = s.pending := by
  unfold walkLine at h
  dsimp only at h
  split at h
  · cases h
  · split at h
    · cases h; simp
    · split at h
      · cases h
      · split at h
        · cases h
        · rename_i e
          have k := pinLine_keep _ _ _ _ e
          simp only [Option.some.injEq] at h
          subst h
          simp only [invalidateWith_keep]
          split <;> simpa using k


@[simp] theorem walkLines_keep (s : State) (w : Walk) (n x : Nat) :
    (walkLines s w n x).1.mgmt = s.mgmt ∧ (walkLines s w n x).1.pending = s.pending := by
  induction n generalizing s x with
  | zero => exact ⟨rfl, rfl⟩
  | succ n ih =>
    unfold walkLines
    split
    · exact ⟨rfl, rfl⟩
    · split
      · exact ⟨rfl, rfl⟩
      · rename_i e
        have h := walkLine_keep _ _ _ _ e
        simp [ih, h]


@[simp] theorem walkStep_keep (s : State) (i : Nat) : (walkStep s i).mgmt = s.mgmt ∧ (walkStep s i).pending = s.pending := by
  unfold walkStep
  split
  · exact ⟨rfl, rfl⟩
  · split
    · exact ⟨rfl, rfl⟩
    · split
      · exact ⟨rfl, rfl⟩
      · rename_i e
        have h := spend?_keep _ _ _ _ e
        dsimp only
        split <;> simp [h]


theorem execRangeWalkStep_keep (i : Fin 65536) (s : State) : okept s (execRangeWalkStep i s) := by
  (unfold execRangeWalkStep; (try dsimp only); (repeat' split) <;> (try dsimp only) <;> simp)

@[simp] theorem walkComplete_keep (s : State) (i : Nat) :
    (walkComplete s i).mgmt = s.mgmt ∧ (walkComplete s i).pending = s.pending := by
  constructor <;> (unfold walkComplete; split <;> simp; done)

theorem execRangeWalkComplete_keep (i : Fin 65536) (s : State) : okept s (execRangeWalkComplete i s) := by
  (simp [execRangeWalkComplete]; done)

@[simp] theorem retireWay_keep (s : State) (l : Nat) (w : Nat) :
    (retireWay s l w).mgmt = s.mgmt ∧ (retireWay s l w).pending = s.pending := by
  constructor <;> (simp [retireWay]; done)

@[simp] theorem cacheCorrected_keep (s : State) (l : Nat) (w : Nat) :
    (cacheCorrected s l w).mgmt = s.mgmt ∧ (cacheCorrected s l w).pending = s.pending := by
  constructor <;> (simp [cacheCorrected]; done)

@[simp] theorem payloadLost_keep (s : State) (k j : Nat) :
    (payloadLost s k j).mgmt = s.mgmt ∧ (payloadLost s k j).pending = s.pending := by
  have key : ∀ (s1 : State) (l : Nat) (x : HomeSlice), s1.mgmt = s.mgmt ∧ s1.pending = s.pending →
      (lostSweep (setSlice s1 l x) l).mgmt = s.mgmt ∧ (lostSweep (setSlice s1 l x) l).pending = s.pending := by
    intro s1 l x h; simp [h]
  unfold payloadLost
  split
  · exact ⟨rfl, rfl⟩
  · dsimp only
    split
    · exact ⟨rfl, rfl⟩
    · apply key
      split
      · split <;> simp
      · simp



@[simp] theorem directoryError_keep (s : State) (e : DirError) :
    (directoryError s e).mgmt = s.mgmt ∧ (directoryError s e).pending = s.pending := by
  constructor <;> (unfold directoryError; (try dsimp only); (repeat' split) <;> (try dsimp only) <;> simp)

theorem execDirectoryUncorrectable_keep (e : DirError) (s : State) : okept s (execDirectoryUncorrectable e s) := by
  (simp [execDirectoryUncorrectable]; done)

@[simp] theorem marverStep_keep (s : State) (blocks : Nat) (way : Option (Fin 32 × Fin 16)) :
    (marverStep s blocks way).mgmt = s.mgmt ∧ (marverStep s blocks way).pending = s.pending := by
  unfold marverStep
  split
  · exact ⟨rfl, rfl⟩
  · rename_i e
    have h := spend?_keep _ _ _ _ e
    dsimp only
    split <;> simpa using h


theorem execMarverPassStep_keep (blocks : Fin 129) (way : Option (Fin 32 × Fin 16)) (s : State) : okept s (execMarverPassStep blocks way s) := by
  (unfold execMarverPassStep; (try dsimp only); (repeat' split) <;> (try dsimp only) <;> simp)

@[simp] theorem partitionCommit_keep (s : State) :
    (partitionCommit s).1.mgmt = s.mgmt ∧ (partitionCommit s).1.pending = s.pending := by
  constructor <;> (simp [partitionCommit]; done)

theorem execPartitionCommit_keep (s : State) : okept s (execPartitionCommit s) := by
  (simp [execPartitionCommit]; done)

theorem execPartitionClearDone_keep (s : State) : okept s (execPartitionClearDone s) := by
  (unfold execPartitionClearDone; (try dsimp only); (repeat' split) <;> (try dsimp only) <;> simp)

/-! ### Machine/Guard.lean -/

@[simp] theorem setShadowRule_keep (s : State) (i : Nat) (r : GuardRule) :
    (setShadowRule s i r).mgmt = s.mgmt ∧ (setShadowRule s i r).pending = s.pending := by
  constructor <;> rfl

@[simp] theorem guardCommit_keep (s : State) :
    (guardCommit s).1.mgmt = s.mgmt ∧ (guardCommit s).1.pending = s.pending := by
  constructor <;> (simp [guardCommit]; done)

theorem execGuardCommit_keep (s : State) : okept s (execGuardCommit s) := by
  (simp [execGuardCommit]; done)

@[simp] theorem guardComplete_keep (s : State) :
    (guardComplete s).mgmt = s.mgmt ∧ (guardComplete s).pending = s.pending := by
  constructor <;> rfl

@[simp] theorem guardSwap_keep (s : State) (g : Nat) :
    (guardSwap s g).mgmt = s.mgmt ∧ (guardSwap s g).pending = s.pending := by
  constructor <;> (simp [guardSwap]; done)

theorem execGuardStageSwap_keep (g : Fin 17) (s : State) : okept s (execGuardStageSwap g s) := by
  (simp [execGuardStageSwap]; done)

@[simp] theorem guardCopy_keep (s : State) :
    (guardCopy s).1.mgmt = s.mgmt ∧ (guardCopy s).1.pending = s.pending := by
  constructor <;> (simp [guardCopy]; done)

theorem execCopyActiveSetToShadow_keep (s : State) : okept s (execCopyActiveSetToShadow s) := by
  (simp [execCopyActiveSetToShadow]; done)

/-! ### Machine/Inject.lean -/

@[simp] theorem entryDecoded_keep (s : State) (v : Nat) (t : Nat) (q : Nat × BitVec 42) :
    (entryDecoded s v t q).mgmt = s.mgmt ∧ (entryDecoded s v t q).pending = s.pending := by
  constructor <;> rfl

@[simp] theorem niTake_keep (s : State) (n : Nat) (a : Nat) (v : Vn) (id : Nat) :
    (niTake s n a v id).mgmt = s.mgmt ∧ (niTake s n a v id).pending = s.pending := by
  constructor <;> rfl

theorem requestStopped_keep (s : State) (v : Nat) (h : Held) (a : BitVec 46) (t : State) (h : requestStopped s v h a = some t) : t.mgmt = s.mgmt ∧ t.pending = s.pending := by
  unfold requestStopped at h
  (try dsimp only at h)
  (repeat' split at h) <;> simp at h <;> (try subst h) <;> simp

@[simp] theorem requestDecoded_keep (s : State) (h : Held) :
    (requestDecoded s h).mgmt = s.mgmt ∧ (requestDecoded s h).pending = s.pending := by
  constructor <;> (unfold requestDecoded; (try dsimp only); (repeat' split) <;> (try dsimp only) <;> simp)

theorem markedUnit_keep (s : State) (n : Nat) (h : Held) (t : State) (h : markedUnit s n h = some t) : t.mgmt = s.mgmt ∧ t.pending = s.pending := by
  unfold markedUnit at h
  (try dsimp only at h)
  (repeat' split at h) <;> simp at h <;> (try subst h) <;> simp

@[simp] theorem injectCopies_keep (s : State) (n : Nat) (h : Held) (ds : List Nat) :
    (injectCopies s n h ds).mgmt = s.mgmt ∧ (injectCopies s n h ds).pending = s.pending := by
  constructor <;> (simp [injectCopies]; done)

@[simp] theorem inject_keep (s : State) (n a : Nat) (v : Vn) :
    (inject s n a v).mgmt = s.mgmt ∧ (inject s n a v).pending = s.pending := by
  unfold inject
  split
  · exact ⟨rfl, rfl⟩
  · dsimp only
    split
    · rename_i e
      split at e
      · split at e
        · have k := requestStopped_keep _ _ _ _ _ e; simp [k]
        · cases e
      · cases e
    · split
      · exact ⟨rfl, rfl⟩
      · split
        · rename_i e; have k := markedUnit_keep _ _ _ _ e; simp [k]
        · split
          · split <;> simp
          · split
            · simp
            · split
              · split
                · simp
                · split
                  · rename_i e; have k := refusedAt_keep _ _ _ _ _ e; simp [k]
                  · split
                    · rename_i e; have k := tryEject_keep _ _ _ _ _ e; simp [k]
                    · simp
              · split <;> simp



theorem execUnitInjection_keep (n : Fin 144) (a : Fin 16) (v : Vn) (s : State) : okept s (execUnitInjection n a v s) := by
  (simp [execUnitInjection]; done)

end Sys2Proof.Laws
end

