-- ==== Sys2Proof/Laws/FrameMover.lean ====
section
/-!
SUPPORT. Laws/FrameMover.lean: which operations keep the management complex and the queue of commands: the mover and the Veneer functions.
-/

set_option Elab.async false
set_option linter.all false
set_option linter.unusedSimpArgs false

namespace Sys2Proof.Laws

open Sys2Proof.Machine

/-! ### Machine/MovAccess.lean -/

@[simp] theorem takeNo_keep (s : State) :
    (takeNo s).mgmt = s.mgmt ∧ (takeNo s).pending = s.pending := by
  constructor <;> rfl

@[simp] theorem guardPart_keep (s : State) (v : Nat) (rd : Bool) (wr : Bool) (x : MovPart) :
    (guardPart s v rd wr x).1.mgmt = s.mgmt ∧ (guardPart s v rd wr x).1.pending = s.pending := by
  constructor <;> (unfold guardPart; split <;> simp; done)

@[simp] theorem guardParts_keep (s : State) (v : Nat) (rd wr : Bool) (ps : List MovPart) :
    (guardParts s v rd wr ps).1.mgmt = s.mgmt ∧ (guardParts s v rd wr ps).1.pending = s.pending :=
  foldl_fst_from s _ _ _ ⟨rfl, rfl⟩ fun r x => by simp


@[simp] theorem openAccess_keep (s : State) (fn : Option Nat) (v : Nat) (write : Bool) (guarded : Bool) (use : MovUse) (addr : Nat) (len : Nat) (data : List Byte) (poison : Nat → Bool) :
    (openAccess s fn v write guarded use addr len data poison).mgmt = s.mgmt ∧ (openAccess s fn v write guarded use addr len data poison).pending = s.pending := by
  constructor <;> (simp [openAccess]; done)

@[simp] theorem setPart_keep (s : State) (id : Nat) (off : Nat) (f : MovPart → MovPart) :
    (setPart s id off f).mgmt = s.mgmt ∧ (setPart s id off f).pending = s.pending := by
  constructor <;> rfl

@[simp] theorem cacheRequest_keep (s : State) (ty : Nat) (tag : Nat) (h : Nat) (l : BitVec 42) (nacks : Nat) (senior : Bool) (first : BitVec 32) (mask : BitVec 64) :
    (cacheRequest s ty tag h l nacks senior first mask).mgmt = s.mgmt ∧ (cacheRequest s ty tag h l nacks senior first mask).pending = s.pending := by
  constructor <;> (simp [cacheRequest]; done)

@[simp] theorem sendPart_keep (s : State) (write : Bool) (x : MovPart) (h : Nat) (l : BitVec 42) :
    (sendPart s write x h l).mgmt = s.mgmt ∧ (sendPart s write x h l).pending = s.pending := by
  constructor <;> (simp [sendPart]; done)

@[simp] theorem sendHostPart_keep (s : State) (fn : Option Nat) (v : Nat) (p : Nat) (write : Bool) (x : MovPart) :
    (sendHostPart s fn v p write x).mgmt = s.mgmt ∧ (sendHostPart s fn v p write x).pending = s.pending := by
  constructor <;> (simp [sendHostPart]; done)

@[simp] theorem issuePart_keep (s : State) (a : MovAcc) (x : MovPart) :
    (issuePart s a x).mgmt = s.mgmt ∧ (issuePart s a x).pending = s.pending := by
  constructor <;> (unfold issuePart; (try dsimp only); (repeat' split) <;> (try dsimp only) <;> simp)

@[simp] theorem issueParts_keep (s : State) :
    (issueParts s).mgmt = s.mgmt ∧ (issueParts s).pending = s.pending := by
  constructor <;> (simp [issueParts]; done)

@[simp] theorem npDone_keep (s : State) (tag : BitVec 16) :
    (npDone s tag).mgmt = s.mgmt ∧ (npDone s tag).pending = s.pending := by
  constructor <;> rfl

@[simp] theorem hostUnit_keep (s : State) (h : Held) :
    (hostUnit s h).mgmt = s.mgmt ∧ (hostUnit s h).pending = s.pending := by
  constructor <;> (unfold hostUnit; (try dsimp only); (repeat' split) <;> (try dsimp only) <;> simp)

@[simp] theorem writesGone_keep (s : State) :
    (writesGone s).mgmt = s.mgmt ∧ (writesGone s).pending = s.pending := by
  constructor <;> rfl

@[simp] theorem hostTimeouts_keep (s : State) :
    (hostTimeouts s).mgmt = s.mgmt ∧ (hostTimeouts s).pending = s.pending := by
  constructor <;> first | rfl | (unfold hostTimeouts; rfl) | (simp [hostTimeouts]; done) | (unfold hostTimeouts; split <;> simp; done) | (unfold hostTimeouts; (try dsimp only); (repeat' split) <;> (try dsimp only) <;> simp) | (unfold hostTimeouts; (try dsimp only); (repeat' split) <;> (try dsimp only) <;> first | (simp; done) | (first | (simp; done) | (simp; grind only [npArrived_keep, tryEject_keep, tryTurn_keep, refusedAt_keep, pinLine_keep, lostLine_keep, applyRun_keep, pageToken?_keep, walkLine_keep, requestStopped_keep, markedUnit_keep])) | (((try simp); first | refine (foldl_mgmt _ _ _ ?_).trans ?_ | refine (foldl_pending _ _ _ ?_).trans ?_ | refine (foldl_fst_mgmt _ _ _ ?_).trans ?_ | refine (foldl_fst_pending _ _ _ ?_).trans ?_) <;> (try intro t a) <;> (try dsimp only) <;> (repeat' split) <;> first | (simp; done) | (simp; grind only [npArrived_keep, tryEject_keep, tryTurn_keep, refusedAt_keep, pinLine_keep, lostLine_keep, applyRun_keep, pageToken?_keep, walkLine_keep, requestStopped_keep, markedUnit_keep])))

@[simp] theorem absorbHost_keep (s : State) :
    (absorbHost s).mgmt = s.mgmt ∧ (absorbHost s).pending = s.pending := by
  constructor <;> (simp [absorbHost]; done)

@[simp] theorem cacheBackoff_keep (s : State) (n : Nat) :
    (cacheBackoff s n).1.mgmt = s.mgmt ∧ (cacheBackoff s n).1.pending = s.pending := by
  constructor <;> rfl

@[simp] theorem countSenior_keep (s : State) (n : Nat) :
    (countSenior s n).mgmt = s.mgmt ∧ (countSenior s n).pending = s.pending := by
  constructor <;> (simp [countSenior]; done)

@[simp] theorem partAnswer_keep (s : State) (a : MovAcc) (x : MovPart) (u : FUnit) :
    (partAnswer s a x u).mgmt = s.mgmt ∧ (partAnswer s a x u).pending = s.pending := by
  constructor <;> (unfold partAnswer; (try dsimp only); (repeat' split) <;> (try dsimp only) <;> simp)

@[simp] theorem partAgain_keep (s : State) (a : MovAcc) (x : MovPart) :
    (partAgain s a x).mgmt = s.mgmt ∧ (partAgain s a x).pending = s.pending := by
  constructor <;> (unfold partAgain; split <;> simp; done)

@[simp] theorem accessCounted_keep (s : State) (a : MovAcc) :
    (accessCounted s a).mgmt = s.mgmt ∧ (accessCounted s a).pending = s.pending := by
  unfold accessCounted
  split
  · exact ⟨rfl, rfl⟩
  · refine foldl_keep _ _ _ fun t x => ?_
    split
    · dsimp only
      split
      · exact foldl_from t _ _ _ (by simp) fun r pg => by simp
      · simp
    · exact ⟨rfl, rfl⟩

/-! ### Machine/MovCache.lean -/

@[simp] theorem setMcLines_keep (s : State) (k : Nat) (ls : List CacheLine) :
    (setMcLines s k ls).mgmt = s.mgmt ∧ (setMcLines s k ls).pending = s.pending := by
  constructor <;> rfl

@[simp] theorem mcPut_keep (s : State) (x : CacheLine) :
    (mcPut s x).mgmt = s.mgmt ∧ (mcPut s x).pending = s.pending := by
  constructor <;> rfl

@[simp] theorem mcDrop_keep (s : State) (h : Nat) (l : BitVec 42) :
    (mcDrop s h l).mgmt = s.mgmt ∧ (mcDrop s h l).pending = s.pending := by
  constructor <;> rfl

@[simp] theorem setEvict_keep (s : State) (e : CacheEvict) :
    (setEvict s e).mgmt = s.mgmt ∧ (setEvict s e).pending = s.pending := by
  constructor <;> rfl

@[simp] theorem sendEvict_keep (s : State) (e : CacheEvict) :
    (sendEvict s e).mgmt = s.mgmt ∧ (sendEvict s e).pending = s.pending := by
  constructor <;> (unfold sendEvict; split <;> simp; done)

theorem evictLine_keep (s : State) (x : CacheLine) (t : State × Nat) (h : evictLine s x = some t) :
    t.1.mgmt = s.mgmt ∧ t.1.pending = s.pending := by
  simp only [evictLine, Option.map_eq_some_iff] at h
  obtain ⟨n, -, h⟩ := h
  rw [← h]
  simp


@[simp] theorem applyAtom_keep (s : State) (x : CacheLine) (o : AtomOp) :
    (applyAtom s x o).1.mgmt = s.mgmt ∧ (applyAtom s x o).1.pending = s.pending := by
  constructor <;> (simp [applyAtom]; done)

@[simp] theorem runOps_keep (s : State) (h : Nat) (l : BitVec 42) (fail : Option Nat) :
    (runOps s h l fail).1.mgmt = s.mgmt ∧ (runOps s h l fail).1.pending = s.pending := by
  unfold runOps
  refine foldl_fst_from s _ _ _ ⟨rfl, rfl⟩ fun r o => ?_
  dsimp only
  split <;> simp


@[simp] theorem askLine_keep (s : State) (h : Nat) (l : BitVec 42) (owner : Option Nat) :
    (askLine s h l owner).mgmt = s.mgmt ∧ (askLine s h l owner).pending = s.pending := by
  constructor <;> (unfold askLine; (try dsimp only); (repeat' split) <;> (try dsimp only) <;> simp)

@[simp] theorem askLines_keep (s : State) :
    (askLines s).mgmt = s.mgmt ∧ (askLines s).pending = s.pending := by
  constructor <;> (simp [askLines]; done)

@[simp] theorem startOp_keep (s : State) (o : AtomOp) :
    (startOp s o).1.mgmt = s.mgmt ∧ (startOp s o).1.pending = s.pending := by
  constructor <;> (simp [startOp]; done)

@[simp] theorem fillData_keep (s : State) (f : CacheFill) (d : LineData) (poison : Bool) :
    (fillData s f d poison).1.mgmt = s.mgmt ∧ (fillData s f d poison).1.pending = s.pending := by
  unfold fillData
  dsimp only
  split
  · rename_i v _
    cases h : evictLine { s with mov := { s.mov with fills := s.mov.fills.filter fun e => decide (e.tag ≠ f.tag) } } v with
    | none => simp
    | some t => simpa using evictLine_keep _ _ _ h
  · simp


@[simp] theorem fillAnswer_keep (s : State) (f : CacheFill) (u : FUnit) :
    (fillAnswer s f u).1.mgmt = s.mgmt ∧ (fillAnswer s f u).1.pending = s.pending := by
  constructor <;> (unfold fillAnswer; (try dsimp only); (repeat' split) <;> (try dsimp only) <;> simp)

@[simp] theorem evictDone_keep (s : State) (e : CacheEvict) :
    (evictDone s e).mgmt = s.mgmt ∧ (evictDone s e).pending = s.pending := by
  constructor <;> (simp [evictDone]; done)

@[simp] theorem evictWrOwn_keep (s : State) (e : CacheEvict) :
    (evictWrOwn s e).mgmt = s.mgmt ∧ (evictWrOwn s e).pending = s.pending := by
  constructor <;> first | rfl | (unfold evictWrOwn; rfl) | (simp [evictWrOwn]; done) | (unfold evictWrOwn; split <;> simp; done) | (unfold evictWrOwn; (try dsimp only); (repeat' split) <;> (try dsimp only) <;> simp) | (unfold evictWrOwn; (try dsimp only); (repeat' split) <;> (try dsimp only) <;> first | (simp; done) | (first | (simp; done) | (simp; grind only [npArrived_keep, tryEject_keep, tryTurn_keep, refusedAt_keep, pinLine_keep, lostLine_keep, applyRun_keep, pageToken?_keep, walkLine_keep, requestStopped_keep, markedUnit_keep, evictLine_keep])) | (((try simp); first | refine (foldl_mgmt _ _ _ ?_).trans ?_ | refine (foldl_pending _ _ _ ?_).trans ?_ | refine (foldl_fst_mgmt _ _ _ ?_).trans ?_ | refine (foldl_fst_pending _ _ _ ?_).trans ?_) <;> (try intro t a) <;> (try dsimp only) <;> (repeat' split) <;> first | (simp; done) | (simp; grind only [npArrived_keep, tryEject_keep, tryTurn_keep, refusedAt_keep, pinLine_keep, lostLine_keep, applyRun_keep, pageToken?_keep, walkLine_keep, requestStopped_keep, markedUnit_keep, evictLine_keep])))

@[simp] theorem evictAnswer_keep (s : State) (e : CacheEvict) (u : FUnit) :
    (evictAnswer s e u).mgmt = s.mgmt ∧ (evictAnswer s e u).pending = s.pending := by
  constructor <;> (unfold evictAnswer; (try dsimp only); (repeat' split) <;> (try dsimp only) <;> simp)

@[simp] theorem fillRefused_keep (s : State) (f : CacheFill) (v : Nat) :
    (fillRefused s f v).1.mgmt = s.mgmt ∧ (fillRefused s f v).1.pending = s.pending := by
  constructor <;> first | rfl | (unfold fillRefused; rfl) | (simp [fillRefused]; done) | (unfold fillRefused; split <;> simp; done) | (unfold fillRefused; (try dsimp only); (repeat' split) <;> (try dsimp only) <;> simp) | (unfold fillRefused; (try dsimp only); (repeat' split) <;> (try dsimp only) <;> first | (simp; done) | (first | (simp; done) | (simp; grind only [npArrived_keep, tryEject_keep, tryTurn_keep, refusedAt_keep, pinLine_keep, lostLine_keep, applyRun_keep, pageToken?_keep, walkLine_keep, requestStopped_keep, markedUnit_keep, evictLine_keep])) | (((try simp); first | refine (foldl_mgmt _ _ _ ?_).trans ?_ | refine (foldl_pending _ _ _ ?_).trans ?_ | refine (foldl_fst_mgmt _ _ _ ?_).trans ?_ | refine (foldl_fst_pending _ _ _ ?_).trans ?_) <;> (try intro t a) <;> (try dsimp only) <;> (repeat' split) <;> first | (simp; done) | (simp; grind only [npArrived_keep, tryEject_keep, tryTurn_keep, refusedAt_keep, pinLine_keep, lostLine_keep, applyRun_keep, pageToken?_keep, walkLine_keep, requestStopped_keep, markedUnit_keep, evictLine_keep])))

@[simp] theorem fillAgain_keep (s : State) (f : CacheFill) :
    (fillAgain s f).1.mgmt = s.mgmt ∧ (fillAgain s f).1.pending = s.pending := by
  constructor <;> first | rfl | (unfold fillAgain; rfl) | (simp [fillAgain]; done) | (unfold fillAgain; split <;> simp; done) | (unfold fillAgain; (try dsimp only); (repeat' split) <;> (try dsimp only) <;> simp) | (unfold fillAgain; (try dsimp only); (repeat' split) <;> (try dsimp only) <;> first | (simp; done) | (first | (simp; done) | (simp; grind only [npArrived_keep, tryEject_keep, tryTurn_keep, refusedAt_keep, pinLine_keep, lostLine_keep, applyRun_keep, pageToken?_keep, walkLine_keep, requestStopped_keep, markedUnit_keep, evictLine_keep])) | (((try simp); first | refine (foldl_mgmt _ _ _ ?_).trans ?_ | refine (foldl_pending _ _ _ ?_).trans ?_ | refine (foldl_fst_mgmt _ _ _ ?_).trans ?_ | refine (foldl_fst_pending _ _ _ ?_).trans ?_) <;> (try intro t a) <;> (try dsimp only) <;> (repeat' split) <;> first | (simp; done) | (simp; grind only [npArrived_keep, tryEject_keep, tryTurn_keep, refusedAt_keep, pinLine_keep, lostLine_keep, applyRun_keep, pageToken?_keep, walkLine_keep, requestStopped_keep, markedUnit_keep, evictLine_keep])))

@[simp] theorem cacheAgain_keep (s : State) (t : Nat) :
    (cacheAgain s t).1.mgmt = s.mgmt ∧ (cacheAgain s t).1.pending = s.pending := by
  constructor <;> (unfold cacheAgain; split <;> simp; done)

@[simp] theorem cacheReply_keep (s : State) (u : FUnit) (b : SnpFields) (d : LineData) (poison : Bool) (dirty : Bool) (keptS : Bool) :
    (cacheReply s u b d poison dirty keptS).mgmt = s.mgmt ∧ (cacheReply s u b d poison dirty keptS).pending = s.pending := by
  constructor <;> (simp [cacheReply]; done)

@[simp] theorem cacheSnoop_keep (s : State) (u : FUnit) :
    (cacheSnoop s u).mgmt = s.mgmt ∧ (cacheSnoop s u).pending = s.pending := by
  constructor <;> (unfold cacheSnoop; (try dsimp only); (repeat' split) <;> (try dsimp only) <;> simp)

theorem execMoverCacheSnoop_keep (s : State) : okept s (execMoverCacheSnoop s) := by
  (unfold execMoverCacheSnoop; (try dsimp only); (repeat' split) <;> (try dsimp only) <;> simp)

/-! ### Machine/MovExec.lean -/

@[simp] theorem setSq_keep (s : State) (q : Nat) (x : SubQ) :
    (setSq s q x).mgmt = s.mgmt ∧ (setSq s q x).pending = s.pending := by
  constructor <;> rfl

@[simp] theorem setCq_keep (s : State) (q : Nat) (x : CompQ) :
    (setCq s q x).mgmt = s.mgmt ∧ (setCq s q x).pending = s.pending := by
  constructor <;> rfl

@[simp] theorem setExec_keep (s : State) (e : Exec) :
    (setExec s e).mgmt = s.mgmt ∧ (setExec s e).pending = s.pending := by
  constructor <;> rfl

@[simp] theorem startPiece_keep (s : State) (e : Exec) :
    (startPiece s e).mgmt = s.mgmt ∧ (startPiece s e).pending = s.pending := by
  constructor <;> (unfold startPiece; (try dsimp only); (repeat' split) <;> (try dsimp only) <;> simp)

theorem spendFor?_keep (s : State) (fn cost : Nat) (t : State) (h : spendFor? s fn cost = some t) :
    t.mgmt = s.mgmt ∧ t.pending = s.pending := by
  unfold spendFor? at h
  rw [Option.map_eq_some_iff] at h
  obtain ⟨u, e, rfl⟩ := h
  have k := spend?_keep _ _ _ _ e
  simp [k]



@[simp] theorem startPieces_keep (s : State) (x n : Nat) :
    (startPieces s x n).mgmt = s.mgmt ∧ (startPieces s x n).pending = s.pending := by
  induction n generalizing s with
  | zero => exact ⟨rfl, rfl⟩
  | succ n ih =>
    unfold startPieces
    split
    · simp
    · split
      · split
        · simp
        · rename_i e; have k := spendFor?_keep _ _ _ _ e; simp [ih, k]
      · simp



@[simp] theorem unitsShown_keep (s : State) : (unitsShown s).mgmt = s.mgmt ∧ (unitsShown s).pending = s.pending :=
  foldl_keep _ _ _ fun t u => by simp


@[simp] theorem startExec_keep (s : State) (x : Nat) :
    (startExec s x).mgmt = s.mgmt ∧ (startExec s x).pending = s.pending := by
  constructor <;> (unfold startExec; split <;> simp; done)

@[simp] theorem startWaiting_keep (s : State) :
    (startWaiting s).mgmt = s.mgmt ∧ (startWaiting s).pending = s.pending := by
  constructor <;> (simp [startWaiting]; done)

@[simp] theorem eatPieces_keep (s : State) (x n : Nat) :
    (eatPieces s x n).mgmt = s.mgmt ∧ (eatPieces s x n).pending = s.pending := by
  induction n generalizing s with
  | zero => exact ⟨rfl, rfl⟩
  | succ n ih =>
    unfold eatPieces
    split
    · exact ⟨rfl, rfl⟩
    · split
      · exact ⟨rfl, rfl⟩
      · split
        · simp [ih]
        · exact ⟨rfl, rfl⟩


@[simp] theorem sourceDone_keep (s : State) (e : Exec) (off : Nat) (a : MovAcc) :
    (sourceDone s e off a).mgmt = s.mgmt ∧ (sourceDone s e off a).pending = s.pending := by
  constructor <;> (simp [sourceDone]; done)

@[simp] theorem compareDone_keep (s : State) (e : Exec) (off : Nat) (a : MovAcc) (b : MovAcc) :
    (compareDone s e off a b).mgmt = s.mgmt ∧ (compareDone s e off a b).pending = s.pending := by
  constructor <;> rfl

@[simp] theorem destDone_keep (s : State) (e : Exec) (off : Nat) (a : MovAcc) :
    (destDone s e off a).mgmt = s.mgmt ∧ (destDone s e off a).pending = s.pending := by
  constructor <;> rfl

@[simp] theorem contextDone_keep (s : State) (e : Exec) (a : MovAcc) :
    (contextDone s e a).mgmt = s.mgmt ∧ (contextDone s e a).pending = s.pending := by
  constructor <;> (unfold contextDone; split <;> simp; done)

@[simp] theorem atomDone_keep (s : State) (x : Nat) (r : AtomEnd) :
    (atomDone s x r).mgmt = s.mgmt ∧ (atomDone s x r).pending = s.pending := by
  constructor <;> (unfold atomDone; (try dsimp only); (repeat' split) <;> (try dsimp only) <;> simp)

@[simp] theorem wrapUp_keep (s : State) (x : Nat) :
    (wrapUp s x).mgmt = s.mgmt ∧ (wrapUp s x).pending = s.pending := by
  constructor <;> (unfold wrapUp; (try dsimp only); (repeat' split) <;> (try dsimp only) <;> simp)

@[simp] theorem dropAccess_keep (s : State) (id : Nat) :
    (dropAccess s id).mgmt = s.mgmt ∧ (dropAccess s id).pending = s.pending := by
  constructor <;> rfl

@[simp] theorem lcbDone_keep (s : State) (c : Nat) (a : MovAcc) :
    (lcbDone s c a).mgmt = s.mgmt ∧ (lcbDone s c a).pending = s.pending := by
  constructor <;> (simp [lcbDone]; done)

@[simp] theorem settleOne_keep (s : State) (a : MovAcc) :
    (settleOne s a).mgmt = s.mgmt ∧ (settleOne s a).pending = s.pending := by
  constructor <;> (unfold settleOne; (try dsimp only); (repeat' split) <;> (try dsimp only) <;> simp)

@[simp] theorem settleAll_keep (n : Nat) (s : State) :
    (settleAll n s).mgmt = s.mgmt ∧ (settleAll n s).pending = s.pending := by
  induction n generalizing s with
  | zero => exact ⟨rfl, rfl⟩
  | succ n ih =>
    unfold settleAll
    split
    · exact ⟨rfl, rfl⟩
    · simp [ih]


@[simp] theorem evictRange_keep (s : State) (hit : CacheLine → Bool) :
    (evictRange s hit).1.mgmt = s.mgmt ∧ (evictRange s hit).1.pending = s.pending := by
  unfold evictRange
  refine foldl_fst_from s _ _ _ ⟨rfl, rfl⟩ fun r a => ?_
  split
  · rename_i e; have k := evictLine_keep _ _ _ e; exact k
  · simp



@[simp] theorem flushScan_keep (s : State) (x : Nat) :
    (flushScan s x).mgmt = s.mgmt ∧ (flushScan s x).pending = s.pending := by
  constructor <;> (unfold flushScan; (try dsimp only); (repeat' split) <;> (try dsimp only) <;> simp)

@[simp] theorem flushAllScan_keep (s : State) :
    (flushAllScan s).mgmt = s.mgmt ∧ (flushAllScan s).pending = s.pending := by
  constructor <;> (simp [flushAllScan]; done)

@[simp] theorem moverTurn_keep (s : State) :
    (moverTurn s).mgmt = s.mgmt ∧ (moverTurn s).pending = s.pending := by
  constructor <;> (simp [moverTurn]; done)

/-! ### Machine/MovQueue.lean -/

@[simp] theorem raiseVector_keep (s : State) (fn : Nat) (v : Nat) :
    (raiseVector s fn v).mgmt = s.mgmt ∧ (raiseVector s fn v).pending = s.pending := by
  constructor <;> (simp [raiseVector]; done)

@[simp] theorem silentWrite_keep (s : State) (fn : Nat) (addr : Nat) (data : List Byte) :
    (silentWrite s fn addr data).mgmt = s.mgmt ∧ (silentWrite s fn addr data).pending = s.pending := by
  constructor <;> (simp [silentWrite]; done)

@[simp] theorem qcbStatus_keep (s : State) (owner : Nat) (qcb : Nat) (st : QueueSt) (full : Bool) (err : Nat) :
    (qcbStatus s owner qcb st full err).mgmt = s.mgmt ∧ (qcbStatus s owner qcb st full err).pending = s.pending := by
  constructor <;> (simp [qcbStatus]; done)

@[simp] theorem sqStatus_keep (s : State) (q : Nat) :
    (sqStatus s q).mgmt = s.mgmt ∧ (sqStatus s q).pending = s.pending := by
  constructor <;> (simp [sqStatus]; done)

@[simp] theorem cqStatus_keep (s : State) (q : Nat) :
    (cqStatus s q).mgmt = s.mgmt ∧ (cqStatus s q).pending = s.pending := by
  constructor <;> (simp [cqStatus]; done)

@[simp] theorem sqIndex_keep (s : State) (q : Nat) :
    (sqIndex s q).mgmt = s.mgmt ∧ (sqIndex s q).pending = s.pending := by
  constructor <;> (simp [sqIndex]; done)

@[simp] theorem cqIndex_keep (s : State) (q : Nat) :
    (cqIndex s q).mgmt = s.mgmt ∧ (cqIndex s q).pending = s.pending := by
  constructor <;> (simp [cqIndex]; done)

@[simp] theorem queueError_keep (s : State) (fn : Nat) (isCq : Bool) (loc : Nat) :
    (queueError s fn isCq loc).mgmt = s.mgmt ∧ (queueError s fn isCq loc).pending = s.pending := by
  constructor <;> (simp [queueError]; done)

@[simp] theorem cancelFetches_keep (s : State) (q : Nat) :
    (cancelFetches s q).mgmt = s.mgmt ∧ (cancelFetches s q).pending = s.pending := by
  constructor <;> first | rfl | (unfold cancelFetches; rfl) | (simp [cancelFetches]; done) | (unfold cancelFetches; split <;> simp; done) | (unfold cancelFetches; (try dsimp only); (repeat' split) <;> (try dsimp only) <;> simp) | (unfold cancelFetches; (try dsimp only); (repeat' split) <;> (try dsimp only) <;> first | (simp; done) | (first | (simp; done) | (simp; grind only [npArrived_keep, tryEject_keep, tryTurn_keep, refusedAt_keep, pinLine_keep, lostLine_keep, applyRun_keep, pageToken?_keep, walkLine_keep, requestStopped_keep, markedUnit_keep, evictLine_keep, spendFor?_keep])) | (((try simp); first | refine (foldl_mgmt _ _ _ ?_).trans ?_ | refine (foldl_pending _ _ _ ?_).trans ?_ | refine (foldl_fst_mgmt _ _ _ ?_).trans ?_ | refine (foldl_fst_pending _ _ _ ?_).trans ?_) <;> (try intro t a) <;> (try dsimp only) <;> (repeat' split) <;> first | (simp; done) | (simp; grind only [npArrived_keep, tryEject_keep, tryTurn_keep, refusedAt_keep, pinLine_keep, lostLine_keep, applyRun_keep, pageToken?_keep, walkLine_keep, requestStopped_keep, markedUnit_keep, evictLine_keep, spendFor?_keep])))

@[simp] theorem sqError_keep (s : State) (q : Nat) (code : Nat) :
    (sqError s q code).mgmt = s.mgmt ∧ (sqError s q code).pending = s.pending := by
  constructor <;> (simp [sqError]; done)

@[simp] theorem qcbRead_keep (s : State) (fn : Nat) (addr : Nat) (use : MovUse) :
    (qcbRead s fn addr use).mgmt = s.mgmt ∧ (qcbRead s fn addr use).pending = s.pending := by
  constructor <;> (simp [qcbRead]; done)

@[simp] theorem sqRead_keep (s : State) (q : Nat) :
    (sqRead s q).mgmt = s.mgmt ∧ (sqRead s q).pending = s.pending := by
  constructor <;> (simp [sqRead]; done)

@[simp] theorem cqRead_keep (s : State) (q : Nat) :
    (cqRead s q).mgmt = s.mgmt ∧ (cqRead s q).pending = s.pending := by
  constructor <;> (simp [cqRead]; done)

theorem takeAccess_keep (s : State) (use : MovUse) (t : State × MovAcc) (h : takeAccess s use = some t) :
    t.1.mgmt = s.mgmt ∧ t.1.pending = s.pending := by
  simp only [takeAccess, Option.map_eq_some_iff] at h
  obtain ⟨a, -, rfl⟩ := h
  simp


@[simp] theorem queueEnable_keep (s : State) (fn : Nat) (isCq : Bool) (loc : Nat) (addr : Nat) :
    (queueEnable s fn isCq loc addr).mgmt = s.mgmt ∧ (queueEnable s fn isCq loc addr).pending = s.pending := by
  constructor <;> (unfold queueEnable; (try dsimp only); (repeat' split) <;> (try dsimp only) <;> simp)

theorem execQueueEnable_keep (fn : Fin 1088) (isCq : Bool) (loc : Fin 4096) (addr : BitVec 64) (s : State) : okept s (execQueueEnable fn isCq loc addr s) := by
  (simp [execQueueEnable]; done)

@[simp] theorem sqEnabled_keep (s : State) (q : Nat) :
    (sqEnabled s q).mgmt = s.mgmt ∧ (sqEnabled s q).pending = s.pending := by
  unfold sqEnabled
  split
  · exact ⟨rfl, rfl⟩
  · rename_i e
    have h := takeAccess_keep _ _ _ e
    dsimp only
    split <;> simpa using h


@[simp] theorem cqEnabled_keep (s : State) (q : Nat) :
    (cqEnabled s q).mgmt = s.mgmt ∧ (cqEnabled s q).pending = s.pending := by
  unfold cqEnabled
  split
  · exact ⟨rfl, rfl⟩
  · rename_i e
    have h := takeAccess_keep _ _ _ e
    dsimp only
    split <;> simpa using h


theorem execQcbEnableReadDone_keep (isCq : Bool) (q : Fin 4096) (s : State) : okept s (execQcbEnableReadDone isCq q s) := by
  (simp [execQcbEnableReadDone]; done)

@[simp] theorem queueDisable_keep (s : State) (fn : Nat) (isCq : Bool) (loc : Nat) :
    (queueDisable s fn isCq loc).mgmt = s.mgmt ∧ (queueDisable s fn isCq loc).pending = s.pending := by
  constructor <;> (unfold queueDisable; (try dsimp only); (repeat' split) <;> (try dsimp only) <;> simp)

theorem execQueueDisable_keep (fn : Fin 1088) (isCq : Bool) (loc : Fin 4096) (s : State) : okept s (execQueueDisable fn isCq loc s) := by
  (simp [execQueueDisable]; done)

@[simp] theorem stopComplete_keep (s : State) (q : Nat) :
    (stopComplete s q).mgmt = s.mgmt ∧ (stopComplete s q).pending = s.pending := by
  constructor <;> (simp [stopComplete]; done)

theorem execSqStopComplete_keep (q : Fin 4096) (s : State) : okept s (execSqStopComplete q s) := by
  (simp [execSqStopComplete]; done)

@[simp] theorem doorbellIgnored_keep (s : State) (fn : Nat) :
    (doorbellIgnored s fn).mgmt = s.mgmt ∧ (doorbellIgnored s fn).pending = s.pending := by
  constructor <;> (simp [doorbellIgnored]; done)

@[simp] theorem sqDoorbell_keep (s : State) (fn : Nat) (loc : Nat) :
    (sqDoorbell s fn loc).1.mgmt = s.mgmt ∧ (sqDoorbell s fn loc).1.pending = s.pending := by
  constructor <;> (unfold sqDoorbell; split <;> simp; done)

@[simp] theorem cqDoorbell_keep (s : State) (fn : Nat) (loc : Nat) :
    (cqDoorbell s fn loc).1.mgmt = s.mgmt ∧ (cqDoorbell s fn loc).1.pending = s.pending := by
  constructor <;> (unfold cqDoorbell; split <;> simp; done)

@[simp] theorem ringDoorbell_keep (s : State) (fn value : Nat) :
    (ringDoorbell s fn value).1.mgmt = s.mgmt ∧ (ringDoorbell s fn value).1.pending = s.pending := by
  unfold ringDoorbell
  dsimp only
  split <;> simp


theorem execSqDoorbell_keep (fn : Fin 1088) (loc : Fin 4096) (s : State) : okept s (execSqDoorbell fn loc s) := by
  (simp [execSqDoorbell]; done)

theorem execCqDoorbell_keep (fn : Fin 1088) (loc : Fin 4096) (s : State) : okept s (execCqDoorbell fn loc s) := by
  (simp [execCqDoorbell]; done)

@[simp] theorem writeHeld_keep (s : State) (q : Nat) (raise : Bool) (n : Nat) :
    (writeHeld s q raise n).1.mgmt = s.mgmt ∧ (writeHeld s q raise n).1.pending = s.pending := by
  induction n generalizing s raise with
  | zero => exact ⟨rfl, rfl⟩
  | succ n ih =>
    unfold writeHeld
    dsimp only
    split
    · exact ⟨rfl, rfl⟩
    · split
      · simp [ih]
      · exact ⟨rfl, rfl⟩


@[simp] theorem poolShown_keep (s : State) :
    (poolShown s).mgmt = s.mgmt ∧ (poolShown s).pending = s.pending := by
  constructor <;> rfl

@[simp] theorem drainHold_keep (s : State) (q : Nat) :
    (drainHold s q).mgmt = s.mgmt ∧ (drainHold s q).pending = s.pending := by
  constructor <;> (simp [drainHold]; done)

@[simp] theorem freeSlot_keep (s : State) (q : Nat) :
    (freeSlot s q).mgmt = s.mgmt ∧ (freeSlot s q).pending = s.pending := by
  constructor <;> rfl

@[simp] theorem countStatus_keep (s : State) (fn : Nat) (st : Nat) :
    (countStatus s fn st).mgmt = s.mgmt ∧ (countStatus s fn st).pending = s.pending := by
  constructor <;> (simp [countStatus]; done)

@[simp] theorem completeExec_keep (s : State) (e : Exec) :
    (completeExec s e).mgmt = s.mgmt ∧ (completeExec s e).pending = s.pending := by
  constructor <;> (simp [completeExec]; done)

@[simp] theorem cqReadDone_keep (s : State) (q : Nat) :
    (cqReadDone s q).mgmt = s.mgmt ∧ (cqReadDone s q).pending = s.pending := by
  unfold cqReadDone
  split
  · exact ⟨rfl, rfl⟩
  · rename_i e; simpa using takeAccess_keep _ _ _ e


@[simp] theorem fetchMore_keep (s : State) (q n : Nat) :
    (fetchMore s q n).mgmt = s.mgmt ∧ (fetchMore s q n).pending = s.pending := by
  induction n generalizing s with
  | zero => exact ⟨rfl, rfl⟩
  | succ n ih =>
    unfold fetchMore
    dsimp only
    split
    · split <;> simp [ih]
    · exact ⟨rfl, rfl⟩


@[simp] theorem sqReadDone_keep (s : State) (q : Nat) :
    (sqReadDone s q).mgmt = s.mgmt ∧ (sqReadDone s q).pending = s.pending := by
  unfold sqReadDone
  split
  · exact ⟨rfl, rfl⟩
  · rename_i e
    have h := takeAccess_keep _ _ _ e
    dsimp only
    split
    · simpa using h
    · split
      · simpa using h
      · split
        · simpa using h
        · split <;> simpa using h


@[simp] theorem fetched_keep (s : State) (q : Nat) (i : BitVec 32) (a : MovAcc) :
    (fetched s q i a).mgmt = s.mgmt ∧ (fetched s q i a).pending = s.pending := by
  constructor <;> (simp [fetched]; done)

@[simp] theorem startMigrate_keep (s : State) (e : Exec) :
    (startMigrate s e).1.mgmt = s.mgmt ∧ (startMigrate s e).1.pending = s.pending := by
  unfold startMigrate
  dsimp only
  split
  · exact ⟨rfl, rfl⟩
  · split
    · exact ⟨rfl, rfl⟩
    · split
      · exact ⟨rfl, rfl⟩
      · split
        · simp
        · split <;> (rename_i e; exact startMove_fst _ _ _ _ _ _ _ e)


@[simp] theorem startAtom_keep (s : State) (e : Exec) (k : AtomKind) :
    (startAtom s e k).1.mgmt = s.mgmt ∧ (startAtom s e k).1.pending = s.pending := by
  constructor <;> (unfold startAtom; split <;> simp; done)

@[simp] theorem startDesc_keep (s : State) (e : Exec) :
    (startDesc s e).mgmt = s.mgmt ∧ (startDesc s e).pending = s.pending := by
  unfold startDesc
  dsimp only
  split
  · simp
  · simp
  · split
    · exact foldl_from s _ _ _ (by simp) fun t q => by split <;> simp
    · exact ⟨rfl, rfl⟩
  · simp
  · simp
  · have h := startMigrate_keep s e
    split <;> (rename_i k; rw [k] at h; simpa using h)
  · simp


@[simp] theorem dispatch_keep (s : State) (q : Nat) (d : BitVec 512) :
    (dispatch s q d).mgmt = s.mgmt ∧ (dispatch s q d).pending = s.pending := by
  unfold dispatch
  dsimp only
  split
  · exact ⟨rfl, rfl⟩
  · rename_i e
    have k := spendFor?_keep _ _ _ _ e
    split <;> simp [k]



@[simp] theorem afterDispatch_keep (s : State) (q : Nat) :
    (afterDispatch s q).mgmt = s.mgmt ∧ (afterDispatch s q).pending = s.pending := by
  constructor <;> (simp [afterDispatch]; done)

@[simp] theorem dispatchReserved_keep (s : State) (q n : Nat) :
    (dispatchReserved s q n).mgmt = s.mgmt ∧ (dispatchReserved s q n).pending = s.pending := by
  induction n generalizing s with
  | zero => exact ⟨rfl, rfl⟩
  | succ n ih =>
    unfold dispatchReserved
    split
    · exact ⟨rfl, rfl⟩
    · dsimp only
      split
      · split
        · exact ⟨rfl, rfl⟩
        · simp [ih]
      · exact ⟨rfl, rfl⟩


@[simp] theorem withheld_keep (s : State) (q : Nat) :
    (withheld s q).mgmt = s.mgmt ∧ (withheld s q).pending = s.pending := by
  constructor <;> (simp [withheld]; done)

@[simp] theorem dispatchRow_keep (s : State) (q : Nat) (r : DescRow) :
    (dispatchRow s q r).mgmt = s.mgmt ∧ (dispatchRow s q r).pending = s.pending := by
  constructor <;> (unfold dispatchRow; split <;> simp; done)

theorem execSqQcbReadDone_keep (q : Fin 4096) (s : State) : okept s (execSqQcbReadDone q s) := by
  (simp [execSqQcbReadDone]; done)

theorem execCqQcbReadDone_keep (q : Fin 1024) (s : State) : okept s (execCqQcbReadDone q s) := by
  (simp [execCqQcbReadDone]; done)

@[simp] theorem fetchDone_keep (s : State) (q n : Nat) :
    (fetchDone s q n).mgmt = s.mgmt ∧ (fetchDone s q n).pending = s.pending := by
  induction n generalizing s with
  | zero => exact ⟨rfl, rfl⟩
  | succ n ih =>
    unfold fetchDone
    split
    · exact ⟨rfl, rfl⟩
    · simp [ih]


theorem execDescriptorFetchDone_keep (q : Fin 4096) (s : State) : okept s (execDescriptorFetchDone q s) := by
  (simp [execDescriptorFetchDone]; done)

theorem execNop_keep (q : Fin 4096) (s : State) : okept s (execNop q s) := by
  (simp [execNop]; done)

theorem execCopy_keep (q : Fin 4096) (s : State) : okept s (execCopy q s) := by
  (simp [execCopy]; done)

theorem execFill_keep (q : Fin 4096) (s : State) : okept s (execFill q s) := by
  (simp [execFill]; done)

theorem execZero_keep (q : Fin 4096) (s : State) : okept s (execZero q s) := by
  (simp [execZero]; done)

theorem execCompare_keep (q : Fin 4096) (s : State) : okept s (execCompare q s) := by
  (simp [execCompare]; done)

theorem execCheck_keep (q : Fin 4096) (s : State) : okept s (execCheck q s) := by
  (simp [execCheck]; done)

theorem execAtomicFetchAdd_keep (q : Fin 4096) (s : State) : okept s (execAtomicFetchAdd q s) := by
  (simp [execAtomicFetchAdd]; done)

theorem execAtomicSwap_keep (q : Fin 4096) (s : State) : okept s (execAtomicSwap q s) := by
  (simp [execAtomicSwap]; done)

theorem execAtomicCompareAndSwap_keep (q : Fin 4096) (s : State) : okept s (execAtomicCompareAndSwap q s) := by
  (simp [execAtomicCompareAndSwap]; done)

theorem execFlush_keep (q : Fin 4096) (s : State) : okept s (execFlush q s) := by
  (simp [execFlush]; done)

theorem execFence_keep (q : Fin 4096) (s : State) : okept s (execFence q s) := by
  (simp [execFence]; done)

theorem execMark_keep (q : Fin 4096) (s : State) : okept s (execMark q s) := by
  (simp [execMark]; done)

theorem execMigrateGranule_keep (q : Fin 4096) (s : State) : okept s (execMigrateGranule q s) := by
  (simp [execMigrateGranule]; done)

@[simp] theorem pieceComplete_keep (s : State) (e : Exec) :
    (pieceComplete s e).mgmt = s.mgmt ∧ (pieceComplete s e).pending = s.pending := by
  constructor <;> (simp [pieceComplete]; done)

theorem execPieceComplete_keep (q : Fin 4096) (i : BitVec 32) (s : State) : okept s (execPieceComplete q i s) := by
  (unfold execPieceComplete; (try dsimp only); (repeat' split) <;> (try dsimp only) <;> simp)

@[simp] theorem descriptorComplete_keep (s : State) (q : Nat) (i : BitVec 32) :
    (descriptorComplete s q i).mgmt = s.mgmt ∧ (descriptorComplete s q i).pending = s.pending := by
  constructor <;> (unfold descriptorComplete; split <;> simp; done)

theorem execDescriptorComplete_keep (q : Fin 4096) (i : BitVec 32) (s : State) : okept s (execDescriptorComplete q i s) := by
  (simp [execDescriptorComplete]; done)

@[simp] theorem moverSafe_keep (s : State) :
    (moverSafe s).mgmt = s.mgmt ∧ (moverSafe s).pending = s.pending := by
  constructor <;> rfl

@[simp] theorem functionWorkStops_keep (s : State) (fn : Nat) :
    (functionWorkStops s fn).mgmt = s.mgmt ∧ (functionWorkStops s fn).pending = s.pending := by
  unfold functionWorkStops
  dsimp only
  generalize h : ({ s with mov := _ } : State) = r
  have k : r.mgmt = s.mgmt ∧ r.pending = s.pending := by rw [← h]; exact ⟨rfl, rfl⟩
  simpa using k


@[simp] theorem dropGone_keep (s : State) :
    (dropGone s).mgmt = s.mgmt ∧ (dropGone s).pending = s.pending := by
  constructor <;> rfl

theorem execFlushWholeMoverCache_keep (s : State) : okept s (execFlushWholeMoverCache s) := by
  (simp [execFlushWholeMoverCache]; done)

@[simp] theorem unitOwner_keep (s : State) (u : Nat) (fn : Nat) :
    (unitOwner s u fn).1.mgmt = s.mgmt ∧ (unitOwner s u fn).1.pending = s.pending := by
  constructor <;> (simp [unitOwner]; done)

theorem execCheckUnitOwnerWrite_keep (u : Fin 16) (fn : BitVec 16) (s : State) : okept s (execCheckUnitOwnerWrite u fn s) := by
  (simp [execCheckUnitOwnerWrite]; done)

@[simp] theorem unitContext_keep (s : State) (u : Nat) (w : BitVec 512) :
    (unitContext s u w).1.mgmt = s.mgmt ∧ (unitContext s u w).1.pending = s.pending := by
  constructor <;> (simp [unitContext]; done)

theorem execCheckUnitContextWrite_keep (u : Fin 16) (ctx : BitVec 512) (s : State) : okept s (execCheckUnitContextWrite u ctx s) := by
  (simp [execCheckUnitContextWrite]; done)

/-! ### Machine/MovPool.lean -/

@[simp] theorem takePacket_keep (s : State) (vn : Vn) (h : Held) :
    (takePacket s vn h).mgmt = s.mgmt ∧ (takePacket s vn h).pending = s.pending := by
  constructor <;> rfl

@[simp] theorem takeEarlier_keep (s : State) (vn : Vn) (h : Held) :
    (takeEarlier s vn h).mgmt = s.mgmt ∧ (takeEarlier s vn h).pending = s.pending := by
  constructor <;> rfl

@[simp] theorem tlpComplete_keep (s : State) (w : TlpWork) (t : Tlp) :
    (tlpComplete s w t).mgmt = s.mgmt ∧ (tlpComplete s w t).pending = s.pending := by
  constructor <;> (simp [tlpComplete]; done)

@[simp] theorem dropWork_keep (s : State) (w : TlpWork) :
    (dropWork s w).mgmt = s.mgmt ∧ (dropWork s w).pending = s.pending := by
  constructor <;> rfl

@[simp] theorem tlpAtomDone_keep (s : State) (no : Nat) (width : Nat) (r : AtomEnd) :
    (tlpAtomDone s no width r).mgmt = s.mgmt ∧ (tlpAtomDone s no width r).pending = s.pending := by
  constructor <;> (unfold tlpAtomDone; (try dsimp only); (repeat' split) <;> (try dsimp only) <;> simp)

@[simp] theorem atomsDone_keep (s : State) (rs : List (AtomOp × AtomEnd)) :
    (atomsDone s rs).mgmt = s.mgmt ∧ (atomsDone s rs).pending = s.pending :=
  foldl_keep _ _ _ fun t q => by split <;> simp


@[simp] theorem startWork_keep (s : State) (w : TlpWork) :
    (startWork s w).mgmt = s.mgmt ∧ (startWork s w).pending = s.pending := by
  constructor <;> (unfold startWork; (try dsimp only); (repeat' split) <;> (try dsimp only) <;> simp)

@[simp] theorem startWorks_keep (s : State) : (startWorks s).mgmt = s.mgmt ∧ (startWorks s).pending = s.pending :=
  foldl_keep _ _ _ fun t w => by
    split
    · split <;> simp
    · exact ⟨rfl, rfl⟩


@[simp] theorem readEnd_keep (s : State) (w : TlpWork) (a : MovAcc) :
    (readEnd s w a).mgmt = s.mgmt ∧ (readEnd s w a).pending = s.pending := by
  constructor <;> (simp [readEnd]; done)

@[simp] theorem writeEnd_keep (s : State) (w : TlpWork) (a : MovAcc) :
    (writeEnd s w a).mgmt = s.mgmt ∧ (writeEnd s w a).pending = s.pending := by
  constructor <;> (unfold writeEnd; (try dsimp only); (repeat' split) <;> (try dsimp only) <;> simp)

@[simp] theorem endWorks_keep (s : State) : (endWorks s).mgmt = s.mgmt ∧ (endWorks s).pending = s.pending :=
  foldl_keep _ _ _ fun t w => by
    split
    · exact ⟨rfl, rfl⟩
    · dsimp only
      split <;> simp


@[simp] theorem poolTurn_keep (s : State) : (poolTurn s).mgmt = s.mgmt ∧ (poolTurn s).pending = s.pending := by
  simp [poolTurn]


@[simp] theorem takeRequest_keep (s : State) (vn : Vn) (k : TlpKind) (atomic : Bool) :
    (takeRequest s vn k atomic).mgmt = s.mgmt ∧ (takeRequest s vn k atomic).pending = s.pending := by
  constructor <;> (unfold takeRequest; split <;> simp; done)

theorem execPoolMemoryRead_keep (s : State) : okept s (execPoolMemoryRead s) := by
  (simp [execPoolMemoryRead]; done)

theorem execPoolMemoryWrite_keep (s : State) : okept s (execPoolMemoryWrite s) := by
  (simp [execPoolMemoryWrite]; done)

theorem execPoolDeferrableMemoryWrite_keep (s : State) : okept s (execPoolDeferrableMemoryWrite s) := by
  (simp [execPoolDeferrableMemoryWrite]; done)

theorem execPoolFetchadd_keep (s : State) : okept s (execPoolFetchadd s) := by
  (simp [execPoolFetchadd]; done)

theorem execPoolSwap_keep (s : State) : okept s (execPoolSwap s) := by
  (simp [execPoolSwap]; done)

theorem execPoolCas_keep (s : State) : okept s (execPoolCas s) := by
  (simp [execPoolCas]; done)

@[simp] theorem cacheAnswer_keep (s : State) (u : FUnit) :
    (cacheAnswer s u).mgmt = s.mgmt ∧ (cacheAnswer s u).pending = s.pending := by
  constructor <;> (unfold cacheAnswer; (try dsimp only); (repeat' split) <;> (try dsimp only) <;> simp)

theorem execMoverCacheResponse_keep (dat : Bool) (s : State) : okept s (execMoverCacheResponse dat s) := by
  (unfold execMoverCacheResponse; (try dsimp only); (repeat' split) <;> (try dsimp only) <;> simp)

@[simp] theorem cacheBackoffEnd_keep (s : State) (t : Nat) :
    (cacheBackoffEnd s t).mgmt = s.mgmt ∧ (cacheBackoffEnd s t).pending = s.pending := by
  constructor <;> (unfold cacheBackoffEnd; split <;> simp; done)

theorem execProxyBackoffEnd_keep (ag : Fin 65) (t : Fin 4096) (s : State) : okept s (execProxyBackoffEnd ag t s) := by
  (unfold execProxyBackoffEnd; (try dsimp only); (repeat' split) <;> (try dsimp only) <;> simp)

/-! ### Machine/Veneer.lean -/

@[simp] theorem functionReset_keep (s : State) (n : Nat) :
    (functionReset s n).mgmt = s.mgmt ∧ (functionReset s n).pending = s.pending := by
  constructor <;> (simp [functionReset]; done)

@[simp] theorem resetVeneers_keep (s : State) (v : Nat) :
    (resetVeneers s v).mgmt = s.mgmt ∧ (resetVeneers s v).pending = s.pending :=
  foldl_keep _ _ _ fun t n => by simp


@[simp] theorem resetFunctions_keep (s : State) (v : Nat) :
    (resetFunctions s v).mgmt = s.mgmt ∧ (resetFunctions s v).pending = s.pending := by
  simp [resetFunctions]


@[simp] theorem resetComplete_keep (s : State) (n : Nat) :
    (resetComplete s n).mgmt = s.mgmt ∧ (resetComplete s n).pending = s.pending := by
  constructor <;> (simp [resetComplete]; done)

@[simp] theorem dropPieces_keep (s : State) : (dropPieces s).mgmt = s.mgmt ∧ (dropPieces s).pending = s.pending :=
  foldl_keep _ _ _ fun t e => by
    split
    · split <;> simp
    · exact ⟨rfl, rfl⟩


theorem execFunctionResetComplete_keep (n : Fin 1088) (s : State) : okept s (execFunctionResetComplete n s) := by
  (simp [execFunctionResetComplete]; done)

theorem execControlPageReset_keep (n : Fin 1088) (s : State) : okept s (execControlPageReset n s) := by
  (simp [execControlPageReset]; done)

@[simp] theorem functionLevelReset_keep (s : State) (n : Nat) :
    (functionLevelReset s n).mgmt = s.mgmt ∧ (functionLevelReset s n).pending = s.pending := by
  constructor <;> (simp [functionLevelReset]; done)

theorem execFunctionLevelReset_keep (n : Fin 1088) (s : State) : okept s (execFunctionLevelReset n s) := by
  (simp [execFunctionLevelReset]; done)

theorem execVfEnableClear_keep (v : Fin 64) (s : State) : okept s (execVfEnableClear v s) := by
  (simp [execVfEnableClear]; done)

theorem execFunctionReset_keep (n : Fin 1088) (s : State) : okept s (execFunctionReset n s) := by
  (simp [execFunctionReset]; done)

@[simp] theorem functionAssign_keep (s : State) (f v j : Nat) :
    (functionAssign s f v j).1.mgmt = s.mgmt ∧ (functionAssign s f v j).1.pending = s.pending := by
  unfold functionAssign
  dsimp only
  (repeat' split) <;> simp


theorem execFunctionAssign_keep (f : Fin 1024) (v : Fin 255) (slot : Fin 2048) (s : State) : okept s (execFunctionAssign f v slot s) := by
  (simp [execFunctionAssign]; done)

@[simp] theorem functionUnassign_keep (s : State) (f : Nat) :
    (functionUnassign s f).1.mgmt = s.mgmt ∧ (functionUnassign s f).1.pending = s.pending := by
  constructor <;> (simp [functionUnassign]; done)

theorem execFunctionUnassign_keep (f : Fin 1024) (s : State) : okept s (execFunctionUnassign f s) := by
  (simp [execFunctionUnassign]; done)

@[simp] theorem queuesShown_keep (s : State) (n : Nat) :
    (queuesShown s n).mgmt = s.mgmt ∧ (queuesShown s n).pending = s.pending := by
  constructor <;> rfl

@[simp] theorem ownersShown_keep (s : State) (old : Nat) (new : Nat) :
    (ownersShown s old new).mgmt = s.mgmt ∧ (ownersShown s old new).pending = s.pending := by
  constructor <;> (simp [ownersShown]; done)

@[simp] theorem queueMove_keep (s : State) (isCq : Bool) (q : Nat) (new : Nat) (loc : Nat) :
    (queueMove s isCq q new loc).1.mgmt = s.mgmt ∧ (queueMove s isCq q new loc).1.pending = s.pending := by
  constructor <;> (simp [queueMove]; done)

@[simp] theorem queueMoveCmd_keep (s : State) (sess : Nat) (isCq : Bool) (q : Nat) (new : Nat) (loc : Nat) :
    (queueMoveCmd s sess isCq q new loc).1.mgmt = s.mgmt ∧ (queueMoveCmd s sess isCq q new loc).1.pending = s.pending := by
  constructor <;> (simp [queueMoveCmd]; done)

theorem execQueueMove_keep (sess : BitVec 32) (isCq : Bool) (q : Fin 4096) (owner : Option (Fin 1088)) (loc : Fin 4096) (s : State) : okept s (execQueueMove sess isCq q owner loc s) := by
  (simp [execQueueMove]; done)

@[simp] theorem shareMove_keep (s : State) (a : Nat) (b : Nat) (n : Nat) :
    (shareMove s a b n).1.mgmt = s.mgmt ∧ (shareMove s a b n).1.pending = s.pending := by
  constructor <;> (simp [shareMove]; done)

theorem execShareMove_keep (a : Fin 1088) (b : Fin 1088) (n : BitVec 16) (s : State) : okept s (execShareMove a b n s) := by
  (simp [execShareMove]; done)

@[simp] theorem setMoveTo_keep (s : State) (c : Nat) (new : Nat) :
    (setMoveTo s c new).1.mgmt = s.mgmt ∧ (setMoveTo s c new).1.pending = s.pending := by
  constructor <;> (simp [setMoveTo]; done)

theorem execCounterSetMove_keep (c : Fin 1024) (fn : Option (Fin 1024)) (s : State) : okept s (execCounterSetMove c fn s) := by
  (simp [execCounterSetMove]; done)

theorem execLogProducerWriteback_keep (c : Fin 1088) (s : State) : okept s (execLogProducerWriteback c s) := by
  (unfold execLogProducerWriteback; (try dsimp only); (repeat' split) <;> (try dsimp only) <;> simp)

@[simp] theorem logDoorbell_keep (s : State) (v : Nat) (c : Nat) :
    (logDoorbell s v c).mgmt = s.mgmt ∧ (logDoorbell s v c).pending = s.pending := by
  constructor <;> (simp [logDoorbell]; done)

theorem execLogDoorbell_keep (v : Fin 64) (c : Fin 1088) (s : State) : okept s (execLogDoorbell v c s) := by
  (simp [execLogDoorbell]; done)

@[simp] theorem rearmDone_keep (s : State) (c : Nat) :
    (rearmDone s c).mgmt = s.mgmt ∧ (rearmDone s c).pending = s.pending := by
  constructor <;> (unfold rearmDone; (try dsimp only); (repeat' split) <;> (try dsimp only) <;> simp)

theorem execLogRearmDone_keep (c : Fin 1088) (s : State) : okept s (execLogRearmDone c s) := by
  (simp [execLogRearmDone]; done)

@[simp] theorem logResetting_keep (s : State) (c : Nat) (x : LogCh) (i : BitVec 32) :
    (logResetting s c x i).mgmt = s.mgmt ∧ (logResetting s c x i).pending = s.pending := by
  constructor <;> (simp [logResetting]; done)

@[simp] theorem logEnable_keep (s : State) (c : Nat) (lcb : Option (BitVec 512)) :
    (logEnable s c lcb).1.mgmt = s.mgmt ∧ (logEnable s c lcb).1.pending = s.pending := by
  constructor <;> (unfold logEnable; split <;> simp; done)

theorem execLogEnable_keep (c : Fin 1088) (lcb : Option (BitVec 512)) (s : State) : okept s (execLogEnable c lcb s) := by
  (simp [execLogEnable]; done)

@[simp] theorem logDisable_keep (s : State) (c : Nat) :
    (logDisable s c).1.mgmt = s.mgmt ∧ (logDisable s c).1.pending = s.pending := by
  constructor <;> (simp [logDisable]; done)

theorem execLogDisable_keep (c : Fin 1088) (s : State) : okept s (execLogDisable c s) := by
  (simp [execLogDisable]; done)

@[simp] theorem resetBitmap_keep (s : State) (c : Nat) (i : BitVec 32) :
    (resetBitmap s c i).1.mgmt = s.mgmt ∧ (resetBitmap s c i).1.pending = s.pending := by
  constructor <;> (simp [resetBitmap]; done)

theorem execResetBitmap_keep (c : Fin 1088) (i : BitVec 32) (s : State) : okept s (execResetBitmap c i s) := by
  (simp [execResetBitmap]; done)

@[simp] theorem bitmapCleared_keep (s : State) (c : Nat) :
    (bitmapCleared s c).mgmt = s.mgmt ∧ (bitmapCleared s c).pending = s.pending := by
  constructor <;> (simp [bitmapCleared]; done)

theorem execBitmapClearDone_keep (c : Fin 1088) (s : State) : okept s (execBitmapClearDone c s) := by
  (simp [execBitmapClearDone]; done)

end Sys2Proof.Laws
end

