-- ==== Sys2Proof/Laws/FrameAulum.lean ====
section
/-!
SUPPORT. Laws/FrameAulum.lean: which operations keep the management complex and the queue of commands: the Aulum ports and the remote agents.
-/

set_option Elab.async false
set_option linter.all false
set_option linter.unusedSimpArgs false

namespace Sys2Proof.Laws

open Sys2Proof.Machine

/-! ### Machine/Aulum.lean -/

@[simp] theorem setLink_keep (s : State) (a : Nat) (st : Nat) :
    (setLink s a st).mgmt = s.mgmt ∧ (setLink s a st).pending = s.pending := by
  constructor <;> rfl

@[simp] theorem sendControl_keep (s : State) (a : Nat) (kind : Nat) (lane : Nat) (spare : Nat) :
    (sendControl s a kind lane spare).mgmt = s.mgmt ∧ (sendControl s a kind lane spare).pending = s.pending := by
  constructor <;> rfl

@[simp] theorem gotControl_keep (s : State) (a : Nat) :
    (gotControl s a).mgmt = s.mgmt ∧ (gotControl s a).pending = s.pending := by
  constructor <;> first | rfl | (unfold gotControl; rfl) | (simp [gotControl]; done) | (unfold gotControl; split <;> simp; done) | (unfold gotControl; (try dsimp only); (repeat' split) <;> (try dsimp only) <;> simp) | (unfold gotControl; (try dsimp only); (repeat' split) <;> (try dsimp only) <;> first | (simp; done) | (first | (simp; done) | (simp; grind only [npArrived_keep, tryEject_keep, tryTurn_keep, refusedAt_keep, pinLine_keep, lostLine_keep, applyRun_keep, pageToken?_keep, walkLine_keep, requestStopped_keep, markedUnit_keep, evictLine_keep, spendFor?_keep, takeAccess_keep])) | (((try simp); first | refine (foldl_mgmt _ _ _ ?_).trans ?_ | refine (foldl_pending _ _ _ ?_).trans ?_ | refine (foldl_fst_mgmt _ _ _ ?_).trans ?_ | refine (foldl_fst_pending _ _ _ ?_).trans ?_) <;> (try intro t a) <;> (try dsimp only) <;> (repeat' split) <;> first | (simp; done) | (simp; grind only [npArrived_keep, tryEject_keep, tryTurn_keep, refusedAt_keep, pinLine_keep, lostLine_keep, applyRun_keep, pageToken?_keep, walkLine_keep, requestStopped_keep, markedUnit_keep, evictLine_keep, spendFor?_keep, takeAccess_keep])))

@[simp] theorem aulumDown_keep (s : State) (a : Nat) :
    (aulumDown s a).mgmt = s.mgmt ∧ (aulumDown s a).pending = s.pending := by
  constructor <;> rfl

@[simp] theorem aulumLinkLost_keep (s : State) (a : Nat) :
    (aulumLinkLost s a).mgmt = s.mgmt ∧ (aulumLinkLost s a).pending = s.pending := by
  constructor <;> (simp [aulumLinkLost]; done)

@[simp] theorem startTraining_keep (s : State) (a : Nat) :
    (startTraining s a).mgmt = s.mgmt ∧ (startTraining s a).pending = s.pending := by
  constructor <;> rfl

@[simp] theorem tryTraining_keep (s : State) (a : Nat) :
    (tryTraining s a).mgmt = s.mgmt ∧ (tryTraining s a).pending = s.pending := by
  constructor <;> (simp [tryTraining]; done)

@[simp] theorem drawEpoch_keep (s : State) :
    (drawEpoch s).1.mgmt = s.mgmt ∧ (drawEpoch s).1.pending = s.pending := by
  constructor <;> rfl

@[simp] theorem drawPortEpoch_keep (s : State) (a : Nat) :
    (drawPortEpoch s a).mgmt = s.mgmt ∧ (drawPortEpoch s a).pending = s.pending := by
  constructor <;> rfl

@[simp] theorem aulumIslandOpen_keep (s : State) (a : Nat) :
    (aulumIslandOpen s a).mgmt = s.mgmt ∧ (aulumIslandOpen s a).pending = s.pending := by
  constructor <;> (simp [aulumIslandOpen]; done)

@[simp] theorem restartAnswer_keep (s : State) :
    (restartAnswer s).mgmt = s.mgmt ∧ (restartAnswer s).pending = s.pending := by
  constructor <;> rfl

@[simp] theorem proxyQuarantine_keep (s : State) (v : Nat) (t : Nat) (l : BitVec 42) :
    (proxyQuarantine s v t l).mgmt = s.mgmt ∧ (proxyQuarantine s v t l).pending = s.pending := by
  constructor <;> rfl

@[simp] theorem restartProxy_keep (s : State) (w : Option Nat) (start : Nat) (v : Nat) :
    (restartProxy s w start v).mgmt = s.mgmt ∧ (restartProxy s w start v).pending = s.pending := by
  constructor <;> (unfold restartProxy; split <;> simp; done)

@[simp] theorem restartSlice_keep (s : State) (w : Option Nat) (start l : Nat) :
    (restartSlice s w start l).mgmt = s.mgmt ∧ (restartSlice s w start l).pending = s.pending :=
  foldl_keep _ _ _ fun t p => by
    split
    · exact foldl_keep _ _ _ fun r n => by simp
    · exact ⟨rfl, rfl⟩


@[simp] theorem moverQuarantine_keep (s : State) (t : Nat) (l : BitVec 42) :
    (moverQuarantine s t l).mgmt = s.mgmt ∧ (moverQuarantine s t l).pending = s.pending := by
  constructor <;> rfl

@[simp] theorem fillFailed_keep (s : State) (f : CacheFill) :
    (fillFailed s f).mgmt = s.mgmt ∧ (fillFailed s f).pending = s.pending := by
  constructor <;> (simp [fillFailed]; done)

@[simp] theorem evictReissue_keep (s : State) (e : CacheEvict) :
    (evictReissue s e).mgmt = s.mgmt ∧ (evictReissue s e).pending = s.pending := by
  constructor <;> (simp [evictReissue]; done)

@[simp] theorem restartMover_keep (s : State) (w : Option Nat) (only : Option (List Nat)) :
    (restartMover s w only).mgmt = s.mgmt ∧ (restartMover s w only).pending = s.pending := by
  constructor <;> (simp [restartMover]; done)

@[simp] theorem restartImmediate_keep (s : State) (n : Nat) :
    (restartImmediate s n).mgmt = s.mgmt ∧ (restartImmediate s n).pending = s.pending := by
  unfold restartImmediate
  simp only [restartMover_keep]
  refine foldl_from s _ _ _ (foldl_keep _ _ _ fun t v => ?_) fun t l => ?_ <;> simp


@[simp] theorem startGrace_keep (s : State) :
    (startGrace s).mgmt = s.mgmt ∧ (startGrace s).pending = s.pending := by
  constructor <;> rfl

@[simp] theorem switchEpoch_keep (s : State) (n : Nat) (e : BitVec 32) :
    (switchEpoch s n e).mgmt = s.mgmt ∧ (switchEpoch s n e).pending = s.pending := by
  constructor <;> (unfold switchEpoch; (try dsimp only); (repeat' split) <;> (try dsimp only) <;> simp)

@[simp] theorem graceEnd_keep (s : State) :
    (graceEnd s).mgmt = s.mgmt ∧ (graceEnd s).pending = s.pending := by
  constructor <;> (unfold graceEnd; split <;> simp; done)

theorem execRestartGraceExpire_keep (s : State) : okept s (execRestartGraceExpire s) := by
  (simp [execRestartGraceExpire]; done)

@[simp] theorem noticeTo_keep (s : State) (w : Nat) :
    (noticeTo s w).mgmt = s.mgmt ∧ (noticeTo s w).pending = s.pending := by
  constructor <;> rfl

@[simp] theorem noticeMembers_keep (s : State) : (noticeMembers s).mgmt = s.mgmt ∧ (noticeMembers s).pending = s.pending :=
  foldl_keep _ _ _ fun t w => by split <;> simp


@[simp] theorem routeCommit_keep (s : State) :
    (routeCommit s).1.mgmt = s.mgmt ∧ (routeCommit s).1.pending = s.pending := by
  constructor <;> (simp [routeCommit]; done)

theorem execRouteCommit_keep (s : State) : okept s (execRouteCommit s) := by
  (simp [execRouteCommit]; done)

theorem execRestartNoticeRepeat_keep (w : Fin 1024) (s : State) : okept s (execRestartNoticeRepeat w s) := by
  (unfold execRestartNoticeRepeat; (try dsimp only); (repeat' split) <;> (try dsimp only) <;> simp)

theorem execRestartNotice_keep (w : Fin 1024) (epoch : BitVec 32) (s : State) : okept s (execRestartNotice w epoch s) := by
  (simp [execRestartNotice]; done)

@[simp] theorem noticeAck_keep (s : State) (w : Nat) :
    (noticeAck s w).mgmt = s.mgmt ∧ (noticeAck s w).pending = s.pending := by
  constructor <;> (simp [noticeAck]; done)

theorem execRestartNoticeAck_keep (w : Fin 1024) (s : State) : okept s (execRestartNoticeAck w s) := by
  (simp [execRestartNoticeAck]; done)

@[simp] theorem recoveryRequested_keep (s : State) (w : Nat) :
    (recoveryRequested s w).mgmt = s.mgmt ∧ (recoveryRequested s w).pending = s.pending := by
  unfold recoveryRequested
  simp only [recoveryAnswers_keep, evictRange_keep]
  exact foldl_from s _ _ _ ⟨rfl, rfl⟩ fun t v => ⟨rfl, rfl⟩


theorem execRecoveryRequestReceive_keep (w : Fin 1024) (s : State) : okept s (execRecoveryRequestReceive w s) := by
  (simp [execRecoveryRequestReceive]; done)

theorem execQuarantineExpire_keep (q : QuarEntry) (s : State) : okept s (execQuarantineExpire q s) := by
  (unfold execQuarantineExpire; (try dsimp only); (repeat' split) <;> (try dsimp only) <;> simp)

@[simp] theorem seekSpare_keep (s : State) (a : Nat) :
    (seekSpare s a).mgmt = s.mgmt ∧ (seekSpare s a).pending = s.pending := by
  constructor <;> (unfold seekSpare; (try dsimp only); (repeat' split) <;> (try dsimp only) <;> simp)

@[simp] theorem pauseFor_keep (s : State) (a : Nat) (i : Nat) (k : Nat) :
    (pauseFor s a i k).mgmt = s.mgmt ∧ (pauseFor s a i k).pending = s.pending := by
  constructor <;> rfl

@[simp] theorem spareReq_keep (s : State) (a : Nat) (c : Control) :
    (spareReq s a c).mgmt = s.mgmt ∧ (spareReq s a c).pending = s.pending := by
  constructor <;> (simp [spareReq]; done)

theorem execSpareReq_keep (a : Fin 16) (blocks : LaneBlocks) (s : State) : okept s (execSpareReq a blocks s) := by
  (unfold execSpareReq; (try dsimp only); (repeat' split) <;> (try dsimp only) <;> simp)

theorem execSpareAck_keep (a : Fin 16) (blocks : LaneBlocks) (s : State) : okept s (execSpareAck a blocks s) := by
  (unfold execSpareAck; (try dsimp only); (repeat' split) <;> (try dsimp only) <;> simp)

@[simp] theorem spareRefused_keep (s : State) (a : Nat) :
    (spareRefused s a).mgmt = s.mgmt ∧ (spareRefused s a).pending = s.pending := by
  constructor <;> first | rfl | (unfold spareRefused; rfl) | (simp [spareRefused]; done) | (unfold spareRefused; split <;> simp; done) | (unfold spareRefused; (try dsimp only); (repeat' split) <;> (try dsimp only) <;> simp) | (unfold spareRefused; (try dsimp only); (repeat' split) <;> (try dsimp only) <;> first | (simp; done) | (first | (simp; done) | (simp; grind only [npArrived_keep, tryEject_keep, tryTurn_keep, refusedAt_keep, pinLine_keep, lostLine_keep, applyRun_keep, pageToken?_keep, walkLine_keep, requestStopped_keep, markedUnit_keep, evictLine_keep, spendFor?_keep, takeAccess_keep])) | (((try simp); first | refine (foldl_mgmt _ _ _ ?_).trans ?_ | refine (foldl_pending _ _ _ ?_).trans ?_ | refine (foldl_fst_mgmt _ _ _ ?_).trans ?_ | refine (foldl_fst_pending _ _ _ ?_).trans ?_) <;> (try intro t a) <;> (try dsimp only) <;> (repeat' split) <;> first | (simp; done) | (simp; grind only [npArrived_keep, tryEject_keep, tryTurn_keep, refusedAt_keep, pinLine_keep, lostLine_keep, applyRun_keep, pageToken?_keep, walkLine_keep, requestStopped_keep, markedUnit_keep, evictLine_keep, spendFor?_keep, takeAccess_keep])))

theorem execSpareRefuse_keep (a : Fin 16) (blocks : LaneBlocks) (s : State) : okept s (execSpareRefuse a blocks s) := by
  (unfold execSpareRefuse; (try dsimp only); (repeat' split) <;> (try dsimp only) <;> simp)

@[simp] theorem laneMoved_keep (s : State) (a i k : Nat) :
    (laneMoved s a i k).mgmt = s.mgmt ∧ (laneMoved s a i k).pending = s.pending := by
  simp [laneMoved]


@[simp] theorem sendResume_keep (s : State) (a : Nat) :
    (sendResume s a).mgmt = s.mgmt ∧ (sendResume s a).pending = s.pending := by
  constructor <;> first | rfl | (unfold sendResume; rfl) | (simp [sendResume]; done) | (unfold sendResume; split <;> simp; done) | (unfold sendResume; (try dsimp only); (repeat' split) <;> (try dsimp only) <;> simp) | (unfold sendResume; (try dsimp only); (repeat' split) <;> (try dsimp only) <;> first | (simp; done) | (first | (simp; done) | (simp; grind only [npArrived_keep, tryEject_keep, tryTurn_keep, refusedAt_keep, pinLine_keep, lostLine_keep, applyRun_keep, pageToken?_keep, walkLine_keep, requestStopped_keep, markedUnit_keep, evictLine_keep, spendFor?_keep, takeAccess_keep])) | (((try simp); first | refine (foldl_mgmt _ _ _ ?_).trans ?_ | refine (foldl_pending _ _ _ ?_).trans ?_ | refine (foldl_fst_mgmt _ _ _ ?_).trans ?_ | refine (foldl_fst_pending _ _ _ ?_).trans ?_) <;> (try intro t a) <;> (try dsimp only) <;> (repeat' split) <;> first | (simp; done) | (simp; grind only [npArrived_keep, tryEject_keep, tryTurn_keep, refusedAt_keep, pinLine_keep, lostLine_keep, applyRun_keep, pageToken?_keep, walkLine_keep, requestStopped_keep, markedUnit_keep, evictLine_keep, spendFor?_keep, takeAccess_keep])))

@[simp] theorem resume_keep (s : State) (a : Nat) (c : Control) :
    (resume s a c).mgmt = s.mgmt ∧ (resume s a c).pending = s.pending := by
  constructor <;> (unfold resume; (try dsimp only); (repeat' split) <;> (try dsimp only) <;> simp)

theorem execResume_keep (a : Fin 16) (blocks : LaneBlocks) (s : State) : okept s (execResume a blocks s) := by
  (unfold execResume; (try dsimp only); (repeat' split) <;> (try dsimp only) <;> simp)

theorem execPauseTimeout_keep (a : Fin 16) (s : State) : okept s (execPauseTimeout a s) := by
  (unfold execPauseTimeout; (try dsimp only); (repeat' split) <;> (try dsimp only) <;> simp)

@[simp] theorem linkReset_keep (s : State) (a : Nat) :
    (linkReset s a).mgmt = s.mgmt ∧ (linkReset s a).pending = s.pending := by
  constructor <;> (simp [linkReset]; done)

@[simp] theorem enterUp_keep (s : State) (a v : Nat) (lanes : List Nat) (c : Control) :
    (enterUp s a v lanes c).mgmt = s.mgmt ∧ (enterUp s a v lanes c).pending = s.pending := by
  unfold enterUp
  dsimp only
  simp only [noticeMembers_keep]
  constructor <;> split <;> simp <;> (repeat' split) <;> simp


@[simp] theorem trainingSet_keep (s : State) (a : Nat) (work : BitVec 4) (spares : BitVec 2) (c : Control) :
    (trainingSet s a work spares c).mgmt = s.mgmt ∧ (trainingSet s a work spares c).pending = s.pending := by
  constructor <;> (unfold trainingSet; (try dsimp only); (repeat' split) <;> (try dsimp only) <;> simp)

theorem execTs_keep (a : Fin 16) (work : BitVec 4) (spares : BitVec 2) (blocks : LaneBlocks) (s : State) : okept s (execTs a work spares blocks s) := by
  (unfold execTs; (try dsimp only); (repeat' split) <;> (try dsimp only) <;> simp)

theorem execTrainingTimeout_keep (a : Fin 16) (s : State) : okept s (execTrainingTimeout a s) := by
  (unfold execTrainingTimeout; (try dsimp only); (repeat' split) <;> (try dsimp only) <;> simp)

theorem execRetrainInterval_keep (a : Fin 16) (s : State) : okept s (execRetrainInterval a s) := by
  (unfold execRetrainInterval; (try dsimp only); (repeat' split) <;> (try dsimp only) <;> simp)

theorem execSyncLoss_keep (a : Fin 16) (s : State) : okept s (execSyncLoss a s) := by
  (unfold execSyncLoss; (try dsimp only); (repeat' split) <;> (try dsimp only) <;> simp)

@[simp] theorem aulumEnable_keep (s : State) (a : Nat) :
    (aulumEnable s a).1.mgmt = s.mgmt ∧ (aulumEnable s a).1.pending = s.pending := by
  constructor <;> (simp [aulumEnable]; done)

theorem execAulumPortEnable_keep (a : Fin 16) (s : State) : okept s (execAulumPortEnable a s) := by
  (simp [execAulumPortEnable]; done)

@[simp] theorem aulumDisable_keep (s : State) (a : Nat) :
    (aulumDisable s a).1.mgmt = s.mgmt ∧ (aulumDisable s a).1.pending = s.pending := by
  constructor <;> (simp [aulumDisable]; done)

theorem execAulumPortDisable_keep (a : Fin 16) (s : State) : okept s (execAulumPortDisable a s) := by
  (simp [execAulumPortDisable]; done)

@[simp] theorem aulumIsolate_keep (s : State) (a : Nat) :
    (aulumIsolate s a).mgmt = s.mgmt ∧ (aulumIsolate s a).pending = s.pending := by
  unfold aulumIsolate
  dsimp only
  simp only [setLink_keep, setAulPort_keep, startGrace_keep, aulumDown_keep]
  refine foldl_from s _ _ _ (foldl_from s _ _ _ (by simp) fun t v => ?_) fun t h => ?_
  · simp
  · split <;> simp


@[simp] theorem numberingWrite_keep (s : State) (i : Nat) (v : Nat) :
    (numberingWrite s i v).1.mgmt = s.mgmt ∧ (numberingWrite s i v).1.pending = s.pending := by
  constructor <;> (simp [numberingWrite]; done)

theorem execSystemNumberingWrite_keep (i : Fin 4) (v : BitVec 16) (s : State) : okept s (execSystemNumberingWrite i v s) := by
  (simp [execSystemNumberingWrite]; done)

/-! ### Machine/AulFlit.lean -/

@[simp] theorem setSets_keep (s : State) (a : Nat) (rx : Bool) (tx : Bool) :
    (setSets s a rx tx).mgmt = s.mgmt ∧ (setSets s a rx tx).pending = s.pending := by
  constructor <;> rfl

@[simp] theorem keyWrite_keep (s : State) (a : Nat) (tx : Bool) (k : Bool) (key : BitVec 256) (mode : Mode) :
    (keyWrite s a tx k key mode).1.mgmt = s.mgmt ∧ (keyWrite s a tx k key mode).1.pending = s.pending := by
  constructor <;> (simp [keyWrite]; done)

theorem execAulumKeyWrite_keep (a : Fin 16) (tx : Bool) (k : Bool) (key : BitVec 256) (mode : Mode) (s : State) : okept s (execAulumKeyWrite a tx k key mode s) := by
  (simp [execAulumKeyWrite]; done)

@[simp] theorem rollover_keep (s : State) (a : Nat) :
    (rollover s a).1.mgmt = s.mgmt ∧ (rollover s a).1.pending = s.pending := by
  constructor <;> (simp [rollover]; done)

theorem execTransmitRollover_keep (a : Fin 16) (s : State) : okept s (execTransmitRollover a s) := by
  (simp [execTransmitRollover]; done)

@[simp] theorem tagFailure_keep (s : State) (a : Nat) :
    (tagFailure s a).mgmt = s.mgmt ∧ (tagFailure s a).pending = s.pending := by
  constructor <;> (simp [tagFailure]; done)

@[simp] theorem parityCheck_keep (s : State) (a : Nat) (got : BitVec 4) :
    (parityCheck s a got).mgmt = s.mgmt ∧ (parityCheck s a got).pending = s.pending := by
  constructor <;> (unfold parityCheck; (try dsimp only); (repeat' split) <;> (try dsimp only) <;> simp)

@[simp] theorem takeAck_keep (s : State) (a : Nat) (ack : BitVec 12) :
    (takeAck s a ack).mgmt = s.mgmt ∧ (takeAck s a ack).pending = s.pending := by
  constructor <;> (unfold takeAck; (try dsimp only); (repeat' split) <;> (try dsimp only) <;> simp)

@[simp] theorem takeCredits_keep (s : State) (a : Nat) (g : Nat) (c : BitVec 24) :
    (takeCredits s a g c).mgmt = s.mgmt ∧ (takeCredits s a g c).pending = s.pending := by
  constructor <;> rfl

@[simp] theorem discardFlit_keep (s : State) (a : Nat) :
    (discardFlit s a).mgmt = s.mgmt ∧ (discardFlit s a).pending = s.pending := by
  constructor <;> (simp [discardFlit]; done)

@[simp] theorem linkUnit_keep (s : State) (a : Nat) (cls : Nat) (u : FUnit) :
    (linkUnit s a cls u).mgmt = s.mgmt ∧ (linkUnit s a cls u).pending = s.pending := by
  constructor <;> (simp [linkUnit]; done)

@[simp] theorem badSlot_keep (s : State) (a : Nat) (cls : Nat) (u : FUnit) :
    (badSlot s a cls u).mgmt = s.mgmt ∧ (badSlot s a cls u).pending = s.pending := by
  constructor <;> first | rfl | (unfold badSlot; rfl) | (simp [badSlot]; done) | (unfold badSlot; split <;> simp; done) | (unfold badSlot; (try dsimp only); (repeat' split) <;> (try dsimp only) <;> simp) | (unfold badSlot; (try dsimp only); (repeat' split) <;> (try dsimp only) <;> first | (simp; done) | (first | (simp; done) | (simp; grind only [npArrived_keep, tryEject_keep, tryTurn_keep, refusedAt_keep, pinLine_keep, lostLine_keep, applyRun_keep, pageToken?_keep, walkLine_keep, requestStopped_keep, markedUnit_keep, evictLine_keep, spendFor?_keep, takeAccess_keep])) | (((try simp); first | refine (foldl_mgmt _ _ _ ?_).trans ?_ | refine (foldl_pending _ _ _ ?_).trans ?_ | refine (foldl_fst_mgmt _ _ _ ?_).trans ?_ | refine (foldl_fst_pending _ _ _ ?_).trans ?_) <;> (try intro t a) <;> (try dsimp only) <;> (repeat' split) <;> first | (simp; done) | (simp; grind only [npArrived_keep, tryEject_keep, tryTurn_keep, refusedAt_keep, pinLine_keep, lostLine_keep, applyRun_keep, pageToken?_keep, walkLine_keep, requestStopped_keep, markedUnit_keep, evictLine_keep, spendFor?_keep, takeAccess_keep])))

@[simp] theorem deliverSlots_keep (s : State) (a : Nat) (f : Flit) :
    (deliverSlots s a f).mgmt = s.mgmt ∧ (deliverSlots s a f).pending = s.pending := by
  constructor <;> first | rfl | (unfold deliverSlots; rfl) | (simp [deliverSlots]; done) | (unfold deliverSlots; split <;> simp; done) | (unfold deliverSlots; (try dsimp only); (repeat' split) <;> (try dsimp only) <;> simp) | (unfold deliverSlots; (try dsimp only); (repeat' split) <;> (try dsimp only) <;> first | (simp; done) | (first | (simp; done) | (simp; grind only [npArrived_keep, tryEject_keep, tryTurn_keep, refusedAt_keep, pinLine_keep, lostLine_keep, applyRun_keep, pageToken?_keep, walkLine_keep, requestStopped_keep, markedUnit_keep, evictLine_keep, spendFor?_keep, takeAccess_keep])) | (((try simp); first | refine (foldl_mgmt _ _ _ ?_).trans ?_ | refine (foldl_pending _ _ _ ?_).trans ?_ | refine (foldl_fst_mgmt _ _ _ ?_).trans ?_ | refine (foldl_fst_pending _ _ _ ?_).trans ?_) <;> (try intro t a) <;> (try dsimp only) <;> (repeat' split) <;> first | (simp; done) | (simp; grind only [npArrived_keep, tryEject_keep, tryTurn_keep, refusedAt_keep, pinLine_keep, lostLine_keep, applyRun_keep, pageToken?_keep, walkLine_keep, requestStopped_keep, markedUnit_keep, evictLine_keep, spendFor?_keep, takeAccess_keep])))

theorem linkMove_keep (s : State) (a : Nat) (v : Vn) (cls : Nat) (t : State) (h : linkMove s a v cls = some t) : t.mgmt = s.mgmt ∧ t.pending = s.pending := by
  unfold linkMove at h
  (try dsimp only at h)
  (repeat' split at h) <;> simp at h <;> (try subst h) <;> simp

@[simp] theorem linkMoves_keep (s : State) (a : Nat) (v : Vn) (cls n : Nat) :
    (linkMoves s a v cls n).mgmt = s.mgmt ∧ (linkMoves s a v cls n).pending = s.pending := by
  induction n generalizing s with
  | zero => exact ⟨rfl, rfl⟩
  | succ n ih =>
    unfold linkMoves
    split
    · rename_i e; have k := linkMove_keep _ _ _ _ _ e; simp [ih, k]
    · simp



@[simp] theorem linkDrain_keep (s : State) (a : Nat) :
    (linkDrain s a).mgmt = s.mgmt ∧ (linkDrain s a).pending = s.pending :=
  foldl_keep _ _ _ fun t v => foldl_keep _ _ _ fun r c => linkMoves_keep r a v c _



@[simp] theorem acceptData_keep (s : State) (a : Nat) (f : Flit) :
    (acceptData s a f).mgmt = s.mgmt ∧ (acceptData s a f).pending = s.pending := by
  constructor <;> (simp [acceptData]; done)

@[simp] theorem acceptMac_keep (s : State) (a : Nat) (f : Flit) :
    (acceptMac s a f).mgmt = s.mgmt ∧ (acceptMac s a f).pending = s.pending := by
  constructor <;> (simp [acceptMac]; done)

@[simp] theorem acceptFlit_keep (s : State) (a : Nat) (f : Flit) :
    (acceptFlit s a f).mgmt = s.mgmt ∧ (acceptFlit s a f).pending = s.pending := by
  constructor <;> (simp [acceptFlit]; done)

@[simp] theorem goodFlit_keep (s : State) (a : Nat) (f : Flit) :
    (goodFlit s a f).mgmt = s.mgmt ∧ (goodFlit s a f).pending = s.pending := by
  constructor <;> (simp [goodFlit]; done)

@[simp] theorem keepParity_keep (s : State) (a : Nat) (par : BitVec 4) :
    (keepParity s a par).mgmt = s.mgmt ∧ (keepParity s a par).pending = s.pending := by
  constructor <;> rfl

@[simp] theorem badBlock_keep (s : State) (a : Nat) (par : BitVec 4) :
    (badBlock s a par).mgmt = s.mgmt ∧ (badBlock s a par).pending = s.pending := by
  constructor <;> (simp [badBlock]; done)

@[simp] theorem flitTaken_keep (s : State) (a : Nat) (par : BitVec 4) (o : Option Flit) :
    (flitTaken s a par o).mgmt = s.mgmt ∧ (flitTaken s a par o).pending = s.pending := by
  cases o with
  | none => exact badBlock_keep s a par
  | some f =>
    have k := goodFlit_keep s a f
    unfold flitTaken
    dsimp only
    split
    · exact k
    · simpa using k

@[simp] theorem blockTaken_keep (s : State) (a : Nat) (par : BitVec 4) (w : BitVec 2048) :
    (blockTaken s a par w).mgmt = s.mgmt ∧ (blockTaken s a par w).pending = s.pending :=
  flitTaken_keep s a par (flitOf w)



@[simp] theorem flitReceive_keep (s : State) (a : Nat) (l : LaneBlocks) :
    (flitReceive s a l).mgmt = s.mgmt ∧ (flitReceive s a l).pending = s.pending := by
  constructor <;> first | rfl | (unfold flitReceive; rfl) | (simp [flitReceive]; done) | (unfold flitReceive; split <;> simp; done) | (unfold flitReceive; (try dsimp only); (repeat' split) <;> (try dsimp only) <;> simp) | (unfold flitReceive; (try dsimp only); (repeat' split) <;> (try dsimp only) <;> first | (simp; done) | (first | (simp; done) | (simp; grind only [npArrived_keep, tryEject_keep, tryTurn_keep, refusedAt_keep, pinLine_keep, lostLine_keep, applyRun_keep, pageToken?_keep, walkLine_keep, requestStopped_keep, markedUnit_keep, evictLine_keep, spendFor?_keep, takeAccess_keep, linkMove_keep])) | (((try simp); first | refine (foldl_mgmt _ _ _ ?_).trans ?_ | refine (foldl_pending _ _ _ ?_).trans ?_ | refine (foldl_fst_mgmt _ _ _ ?_).trans ?_ | refine (foldl_fst_pending _ _ _ ?_).trans ?_) <;> (try intro t a) <;> (try dsimp only) <;> (repeat' split) <;> first | (simp; done) | (simp; grind only [npArrived_keep, tryEject_keep, tryTurn_keep, refusedAt_keep, pinLine_keep, lostLine_keep, applyRun_keep, pageToken?_keep, walkLine_keep, requestStopped_keep, markedUnit_keep, evictLine_keep, spendFor?_keep, takeAccess_keep, linkMove_keep])))

theorem execAulumFlitReceive_keep (a : Fin 16) (blocks : LaneBlocks) (s : State) : okept s (execAulumFlitReceive a blocks s) := by
  (simp [execAulumFlitReceive]; done)

theorem execAckTimerExpire_keep (a : Fin 16) (s : State) : okept s (execAckTimerExpire a s) := by
  (unfold execAckTimerExpire; (try dsimp only); (repeat' split) <;> (try dsimp only) <;> simp)

@[simp] theorem startReplay_keep (s : State) (a : Nat) :
    (startReplay s a).mgmt = s.mgmt ∧ (startReplay s a).pending = s.pending := by
  constructor <;> (unfold startReplay; (try dsimp only); (repeat' split) <;> (try dsimp only) <;> simp)

theorem execNakReceived_keep (a : Fin 16) (s : State) : okept s (execNakReceived a s) := by
  (unfold execNakReceived; (try dsimp only); (repeat' split) <;> (try dsimp only) <;> simp)

theorem execReplayTimerExpire_keep (a : Fin 16) (s : State) : okept s (execReplayTimerExpire a s) := by
  (unfold execReplayTimerExpire; (try dsimp only); (repeat' split) <;> (try dsimp only) <;> simp)

@[simp] theorem takeUnit_keep (s : State) (a : Nat) (v : Nat) (e : EgUnit) :
    (takeUnit s a v e).1.mgmt = s.mgmt ∧ (takeUnit s a v e).1.pending = s.pending := by
  constructor <;> (simp [takeUnit]; done)

@[simp] theorem gather_keep (s : State) (a n : Nat) :
    (gather s a n).1.mgmt = s.mgmt ∧ (gather s a n).1.pending = s.pending := by
  induction n generalizing s with
  | zero => exact ⟨rfl, rfl⟩
  | succ n ih =>
    unfold gather
    split
    · exact ⟨rfl, rfl⟩
    · simp [ih]


@[simp] theorem sendFlit_keep (s : State) (a : Nat) (type : Nat) (seq : BitVec 12) (cls : BitVec 3) (valid : BitVec 3) (slots : BitVec 1920) :
    (sendFlit s a type seq cls valid slots).mgmt = s.mgmt ∧ (sendFlit s a type seq cls valid slots).pending = s.pending := by
  constructor <;> rfl

@[simp] theorem sendNew_keep (s : State) (a : Nat) (mac : Bool) (cls : BitVec 3) (valid : BitVec 3) (slots : BitVec 1920) :
    (sendNew s a mac cls valid slots).mgmt = s.mgmt ∧ (sendNew s a mac cls valid slots).pending = s.pending := by
  unfold sendNew
  dsimp only
  simp only [sendFlit_keep, bumpC_mgmt, bumpC_pending, setAulPort_keep, and_self]



@[simp] theorem sendReplay_keep (s : State) (a : Nat) (k : Nat) (f : FlitRec) :
    (sendReplay s a k f).mgmt = s.mgmt ∧ (sendReplay s a k f).pending = s.pending := by
  unfold sendReplay
  dsimp only
  simp only [sendFlit_keep, bumpC_mgmt, bumpC_pending, setAulPort_keep, and_self]


@[simp] theorem sendIdle_keep (s : State) (a : Nat) (type : Nat) :
    (sendIdle s a type).mgmt = s.mgmt ∧ (sendIdle s a type).pending = s.pending := by
  constructor <;> rfl

@[simp] theorem sendMac_keep (s : State) (a : Nat) :
    (sendMac s a).mgmt = s.mgmt ∧ (sendMac s a).pending = s.pending := by
  constructor <;> rfl

@[simp] theorem sendData_keep (s : State) (a : Nat) :
    (sendData s a).mgmt = s.mgmt ∧ (sendData s a).pending = s.pending := by
  constructor <;> (simp [sendData]; done)

@[simp] theorem flitSend_keep (s : State) (a : Nat) :
    (flitSend s a).mgmt = s.mgmt ∧ (flitSend s a).pending = s.pending := by
  constructor <;> first | rfl | (unfold flitSend; rfl) | (simp [flitSend]; done) | (unfold flitSend; split <;> simp; done) | (unfold flitSend; (try dsimp only); (repeat' split) <;> (try dsimp only) <;> simp) | (unfold flitSend; (try dsimp only); (repeat' split) <;> (try dsimp only) <;> first | (simp; done) | (first | (simp; done) | (simp; grind only [npArrived_keep, tryEject_keep, tryTurn_keep, refusedAt_keep, pinLine_keep, lostLine_keep, applyRun_keep, pageToken?_keep, walkLine_keep, requestStopped_keep, markedUnit_keep, evictLine_keep, spendFor?_keep, takeAccess_keep, linkMove_keep])) | (((try simp); first | refine (foldl_mgmt _ _ _ ?_).trans ?_ | refine (foldl_pending _ _ _ ?_).trans ?_ | refine (foldl_fst_mgmt _ _ _ ?_).trans ?_ | refine (foldl_fst_pending _ _ _ ?_).trans ?_) <;> (try intro t a) <;> (try dsimp only) <;> (repeat' split) <;> first | (simp; done) | (simp; grind only [npArrived_keep, tryEject_keep, tryTurn_keep, refusedAt_keep, pinLine_keep, lostLine_keep, applyRun_keep, pageToken?_keep, walkLine_keep, requestStopped_keep, markedUnit_keep, evictLine_keep, spendFor?_keep, takeAccess_keep, linkMove_keep])))

@[simp] theorem flitTransmit_keep (s : State) (a : Nat) :
    (flitTransmit s a).mgmt = s.mgmt ∧ (flitTransmit s a).pending = s.pending := by
  constructor <;> (unfold flitTransmit; (try dsimp only); (repeat' split) <;> (try dsimp only) <;> simp)

theorem execAulumFlitTransmit_keep (a : Fin 16) (s : State) : okept s (execAulumFlitTransmit a s) := by
  (simp [execAulumFlitTransmit]; done)

theorem execMacGroupTimeout_keep (a : Fin 16) (s : State) : okept s (execMacGroupTimeout a s) := by
  (unfold execMacGroupTimeout; (try dsimp only); (repeat' split) <;> (try dsimp only) <;> simp)

/-! ### Machine/Remote.lean -/

@[simp] theorem reinject_keep (s : State) (a : Nat) (w : Nat) (dst : BitVec 12) (u : FUnit) :
    (reinject s a w dst u).mgmt = s.mgmt ∧ (reinject s a w dst u).pending = s.pending := by
  constructor <;> (simp [reinject]; done)

@[simp] theorem fanOut_keep (s : State) (a : Nat) (u : FUnit) :
    (fanOut s a u).mgmt = s.mgmt ∧ (fanOut s a u).pending = s.pending := by
  constructor <;> (simp [fanOut]; done)

@[simp] theorem localReply_keep (s : State) (a : Nat) (u : FUnit) :
    (localReply s a u).mgmt = s.mgmt ∧ (localReply s a u).pending = s.pending := by
  constructor <;> (unfold localReply; (try dsimp only); (repeat' split) <;> (try dsimp only) <;> simp)

@[simp] theorem fanLost_keep (s : State) (a : Nat) (u : FUnit) :
    (fanLost s a u).mgmt = s.mgmt ∧ (fanLost s a u).pending = s.pending := by
  constructor <;> (unfold fanLost; split <;> simp; done)

@[simp] theorem combinedReply_keep (s : State) (a : Nat) :
    (combinedReply s a).mgmt = s.mgmt ∧ (combinedReply s a).pending = s.pending := by
  constructor <;> (unfold combinedReply; split <;> simp; done)

theorem execCombinedReply_keep (a : Fin 16) (s : State) : okept s (execCombinedReply a s) := by
  (simp [execCombinedReply]; done)

@[simp] theorem remoteUnit_keep (s : State) (a : Nat) (w : Nat) (u : FUnit) :
    (remoteUnit s a w u).mgmt = s.mgmt ∧ (remoteUnit s a w u).pending = s.pending := by
  constructor <;> (unfold remoteUnit; (try dsimp only); (repeat' split) <;> (try dsimp only) <;> simp)

@[simp] theorem returnedUnit_keep (s : State) (a : Nat) (h : Held) :
    (returnedUnit s a h).mgmt = s.mgmt ∧ (returnedUnit s a h).pending = s.pending := by
  constructor <;> (unfold returnedUnit; split <;> simp; done)

@[simp] theorem remoteReceive_keep (s : State) (a : Nat) (v : Vn) :
    (remoteReceive s a v).mgmt = s.mgmt ∧ (remoteReceive s a v).pending = s.pending := by
  constructor <;> (unfold remoteReceive; (try dsimp only); (repeat' split) <;> (try dsimp only) <;> simp)

theorem execRemoteAgentReceive_keep (a : Fin 16) (v : Vn) (s : State) : okept s (execRemoteAgentReceive a v s) := by
  (simp [execRemoteAgentReceive]; done)

end Sys2Proof.Laws
end

