-- ==== Sys2Proof/Laws/FramePorts.lean ====
section
/-!
SUPPORT. Laws/FramePorts.lean: which operations keep the management complex and the queue of commands: bindings, ports, islands, extents, the fabric manager interface, CXL.io.
-/

set_option Elab.async false
set_option linter.all false
set_option linter.unusedSimpArgs false

namespace Sys2Proof.Laws

open Sys2Proof.Machine

/-! ### Machine/Binding.lean -/

@[simp] theorem putVppb_keep (s : State) (v : Nat) (d : Nat) (x : Vppb) :
    (putVppb s v d x).mgmt = s.mgmt ∧ (putVppb s v d x).pending = s.pending := by
  constructor <;> rfl

@[simp] theorem setHostRequest_keep (s : State) (c : Nat) (r : Option Bool) :
    (setHostRequest s c r).mgmt = s.mgmt ∧ (setHostRequest s c r).pending = s.pending := by
  constructor <;> rfl

@[simp] theorem bgStart_keep (s : State) (op : Nat) (obj : Nat) :
    (bgStart s op obj).mgmt = s.mgmt ∧ (bgStart s op obj).pending = s.pending := by
  constructor <;> rfl

@[simp] theorem bgDone_keep (s : State) (op : Nat) (obj : Nat) :
    (bgDone s op obj).mgmt = s.mgmt ∧ (bgDone s op obj).pending = s.pending := by
  constructor <;> (simp [bgDone]; done)

@[simp] theorem bindStatus_keep (s : State) (asker : Nat) (st : Nat) :
    (bindStatus s asker st).mgmt = s.mgmt ∧ (bindStatus s asker st).pending = s.pending := by
  constructor <;> (simp [bindStatus]; done)

@[simp] theorem bindDone_keep (s : State) (v : Nat) (d : Nat) (op : Nat) :
    (bindDone s v d op).mgmt = s.mgmt ∧ (bindDone s v d op).pending = s.pending := by
  constructor <;> (simp [bindDone]; done)

@[simp] theorem bindNote_keep (s : State) (src : FmSource) (rc : FmRc) :
    (bindNote s src rc).mgmt = s.mgmt ∧ (bindNote s src rc).pending = s.pending := by
  constructor <;> (simp [bindNote]; done)

@[simp] theorem bindSay_keep (s : State) (src : FmSource) (rc : FmRc) :
    (bindSay s src rc).mgmt = s.mgmt ∧ (bindSay s src rc).pending = s.pending := by
  constructor <;> (unfold bindSay; split <;> simp; done)

@[simp] theorem bindRefused_keep (s : State) (src : FmSource) (rc : FmRc) :
    (bindRefused s src rc).1.mgmt = s.mgmt ∧ (bindRefused s src rc).1.pending = s.pending := by
  constructor <;> (simp [bindRefused]; done)

@[simp] theorem bindVppb_keep (s : State) (src : FmSource) (v : Nat) (d : Nat) (p : Nat) (l : Nat) :
    (bindVppb s src v d p l).1.mgmt = s.mgmt ∧ (bindVppb s src v d p l).1.pending = s.pending := by
  constructor <;> (unfold bindVppb; (try dsimp only); (repeat' split) <;> (try dsimp only) <;> simp)

theorem execBindVppb_keep (src : FmSource) (v : Fin 64) (d : Fin 32) (p : Fin 96) (l : Fin 16) (s : State) : okept s (execBindVppb src v d p l s) := by
  (simp [execBindVppb]; done)

@[simp] theorem hotplug_keep (s : State) (v : Nat) (d : Nat) :
    (hotplug s v d).mgmt = s.mgmt ∧ (hotplug s v d).pending = s.pending := by
  constructor <;> first | rfl | (unfold hotplug; rfl) | (simp [hotplug]; done) | (unfold hotplug; split <;> simp; done) | (unfold hotplug; (try dsimp only); (repeat' split) <;> (try dsimp only) <;> simp) | (unfold hotplug; (try dsimp only); (repeat' split) <;> (try dsimp only) <;> first | (simp; done) | (first | (simp; done) | (simp; grind only [npArrived_keep, tryEject_keep, tryTurn_keep, refusedAt_keep, pinLine_keep, lostLine_keep, applyRun_keep, pageToken?_keep, walkLine_keep, requestStopped_keep, markedUnit_keep, evictLine_keep, spendFor?_keep, takeAccess_keep, linkMove_keep])) | (((try simp); first | refine (foldl_mgmt _ _ _ ?_).trans ?_ | refine (foldl_pending _ _ _ ?_).trans ?_ | refine (foldl_fst_mgmt _ _ _ ?_).trans ?_ | refine (foldl_fst_pending _ _ _ ?_).trans ?_) <;> (try intro t a) <;> (try dsimp only) <;> (repeat' split) <;> first | (simp; done) | (simp; grind only [npArrived_keep, tryEject_keep, tryTurn_keep, refusedAt_keep, pinLine_keep, lostLine_keep, applyRun_keep, pageToken?_keep, walkLine_keep, requestStopped_keep, markedUnit_keep, evictLine_keep, spendFor?_keep, takeAccess_keep, linkMove_keep])))

@[simp] theorem becomeBound_keep (s : State) (v d : Nat) :
    (becomeBound s v d).mgmt = s.mgmt ∧ (becomeBound s v d).pending = s.pending := by
  unfold becomeBound
  dsimp only
  simp only [bindDone_keep]
  split <;> simp


theorem execVppbPartnerL0_keep (v : Fin 64) (d : Fin 32) (s : State) : okept s (execVppbPartnerL0 v d s) := by
  (unfold execVppbPartnerL0; (try dsimp only); (repeat' split) <;> (try dsimp only) <;> simp)

@[simp] theorem dropPosted_keep (s : State) (v : Nat) (p : Nat) (ld : Nat) :
    (dropPosted s v p ld).mgmt = s.mgmt ∧ (dropPosted s v p ld).pending = s.pending := by
  constructor <;> rfl

@[simp] theorem bindingEnds_keep (s : State) (v : Nat) (d : Nat) :
    (bindingEnds s v d).mgmt = s.mgmt ∧ (bindingEnds s v d).pending = s.pending := by
  constructor <;> (unfold bindingEnds; (try dsimp only); (repeat' split) <;> (try dsimp only) <;> simp)

@[simp] theorem unbindVppb_keep (s : State) (src : FmSource) (v : Nat) (d : Nat) (opt : Nat) :
    (unbindVppb s src v d opt).1.mgmt = s.mgmt ∧ (unbindVppb s src v d opt).1.pending = s.pending := by
  constructor <;> (unfold unbindVppb; (try dsimp only); (repeat' split) <;> (try dsimp only) <;> simp)

theorem execUnbindVppb_keep (src : FmSource) (v : Fin 64) (d : Fin 32) (opt : Fin 3) (s : State) : okept s (execUnbindVppb src v d opt s) := by
  (simp [execUnbindVppb]; done)

theorem execManagedRemoveTimeout_keep (v : Fin 64) (d : Fin 32) (s : State) : okept s (execManagedRemoveTimeout v d s) := by
  (unfold execManagedRemoveTimeout; (try dsimp only); (repeat' split) <;> (try dsimp only) <;> simp)

@[simp] theorem hostPowerOff_keep (s : State) (c : Nat) :
    (hostPowerOff s c).mgmt = s.mgmt ∧ (hostPowerOff s c).pending = s.pending := by
  unfold hostPowerOff
  split
  · exact ⟨rfl, rfl⟩
  · exact foldl_keep _ _ _ fun t b => by split <;> simp


@[simp] theorem bindsLinkDown_keep (s : State) (p : Nat) :
    (bindsLinkDown s p).mgmt = s.mgmt ∧ (bindsLinkDown s p).pending = s.pending :=
  foldl_keep _ _ _ fun t b => by
    dsimp only
    (repeat' split) <;> simp


@[simp] theorem bindsPresence_keep (s : State) (p : Nat) :
    (bindsPresence s p).mgmt = s.mgmt ∧ (bindsPresence s p).pending = s.pending :=
  foldl_keep _ _ _ fun t b => by
    dsimp only
    split <;> simp


@[simp] theorem slotFaultShown_keep (s : State) (c : Nat) :
    (slotFaultShown s c).mgmt = s.mgmt ∧ (slotFaultShown s c).pending = s.pending := by
  constructor <;> (unfold slotFaultShown; split <;> simp; done)

@[simp] theorem slotPresenceShown_keep (s : State) (c : Nat) :
    (slotPresenceShown s c).mgmt = s.mgmt ∧ (slotPresenceShown s c).pending = s.pending := by
  constructor <;> (unfold slotPresenceShown; split <;> simp; done)

/-! ### Machine/Ports.lean -/

@[simp] theorem setLinkState_keep (s : State) (p : Nat) (n : Nat) :
    (setLinkState s p n).mgmt = s.mgmt ∧ (setLinkState s p n).pending = s.pending := by
  constructor <;> rfl

@[simp] theorem showAbsorbed_keep (s : State) (k : Nat) :
    (showAbsorbed s k).mgmt = s.mgmt ∧ (showAbsorbed s k).pending = s.pending :=
  foldl_keep _ _ _ fun t i => by
    dsimp only
    (repeat' split) <;> simp


@[simp] theorem trainPort_keep (s : State) (p : Nat) :
    (trainPort s p).mgmt = s.mgmt ∧ (trainPort s p).pending = s.pending := by
  constructor <;> (simp [trainPort]; done)

@[simp] theorem perstRelease_keep (s : State) (p : Nat) :
    (perstRelease s p).mgmt = s.mgmt ∧ (perstRelease s p).pending = s.pending := by
  constructor <;> (simp [perstRelease]; done)

theorem execPerstRelease_keep (p : Fin 96) (s : State) : okept s (execPerstRelease p s) := by
  (simp [execPerstRelease]; done)

@[simp] theorem perstDrive_keep (s : State) (p : Nat) :
    (perstDrive s p).mgmt = s.mgmt ∧ (perstDrive s p).pending = s.pending := by
  constructor <;> rfl

@[simp] theorem flushPair_keep (s : State) (p : Nat) (v : Vn) :
    (flushPair s p v).mgmt = s.mgmt ∧ (flushPair s p v).pending = s.pending := by
  refine foldl_from s _ _ _ (by simp) fun t e => ?_
  split <;> simp


@[simp] theorem flushDirty_keep (s : State) (v : Nat) (p : Nat) (sn : ProxySnoop) :
    (flushDirty s v p sn).mgmt = s.mgmt ∧ (flushDirty s v p sn).pending = s.pending := by
  constructor <;> first | rfl | (unfold flushDirty; rfl) | (simp [flushDirty]; done) | (unfold flushDirty; split <;> simp; done) | (unfold flushDirty; (try dsimp only); (repeat' split) <;> (try dsimp only) <;> simp) | (unfold flushDirty; (try dsimp only); (repeat' split) <;> (try dsimp only) <;> first | (simp; done) | ((simp; done)) | (((try simp); first | refine (foldl_mgmt _ _ _ ?_).trans ?_ | refine (foldl_pending _ _ _ ?_).trans ?_ | refine (foldl_fst_mgmt _ _ _ ?_).trans ?_ | refine (foldl_fst_pending _ _ _ ?_).trans ?_) <;> (try intro t a) <;> (try dsimp only) <;> (repeat' split) <;> (simp; done)))

@[simp] theorem flushSnoops_keep (s : State) (v p : Nat) :
    (flushSnoops s v p).mgmt = s.mgmt ∧ (flushSnoops s v p).pending = s.pending :=
  foldl_keep _ _ _ fun t e => by simp



@[simp] theorem muteEntries_keep (s : State) (v : Nat) :
    (muteEntries s v).mgmt = s.mgmt ∧ (muteEntries s v).pending = s.pending := by
  constructor <;> first | rfl | (unfold muteEntries; rfl) | (simp [muteEntries]; done) | (unfold muteEntries; split <;> simp; done) | (unfold muteEntries; (try dsimp only); (repeat' split) <;> (try dsimp only) <;> simp) | (unfold muteEntries; (try dsimp only); (repeat' split) <;> (try dsimp only) <;> first | (simp; done) | ((simp; done)) | (((try simp); first | refine (foldl_mgmt _ _ _ ?_).trans ?_ | refine (foldl_pending _ _ _ ?_).trans ?_ | refine (foldl_fst_mgmt _ _ _ ?_).trans ?_ | refine (foldl_fst_pending _ _ _ ?_).trans ?_) <;> (try intro t a) <;> (try dsimp only) <;> (repeat' split) <;> (simp; done)))

@[simp] theorem flushSent_keep (s : State) (p : Nat) :
    (flushSent s p).mgmt = s.mgmt ∧ (flushSent s p).pending = s.pending := by
  refine foldl_from s _ _ _ ⟨rfl, rfl⟩ fun t n => ?_
  split <;> simp


@[simp] theorem flushIngress_keep (s : State) (p : Nat) :
    (flushIngress s p).mgmt = s.mgmt ∧ (flushIngress s p).pending = s.pending := by
  constructor <;> rfl

@[simp] theorem flushPort_keep (s : State) (p : Nat) : (flushPort s p).mgmt = s.mgmt ∧ (flushPort s p).pending = s.pending := by
  have hm : ∀ (t : State) (o : Option Nat), (forHost t muteEntries o).mgmt = t.mgmt ∧ (forHost t muteEntries o).pending = t.pending := by
    intro t o
    cases o with
    | none => exact ⟨rfl, rfl⟩
    | some v => exact muteEntries_keep t v
  have hf : ∀ (t : State) (o : Option Nat), (forHost t (fun r v => flushSnoops r v p) o).mgmt = t.mgmt ∧
      (forHost t (fun r v => flushSnoops r v p) o).pending = t.pending := by
    intro t o
    cases o with
    | none => exact ⟨rfl, rfl⟩
    | some v => exact flushSnoops_keep t v p
  have hp : ∀ t : State, (allVns.foldl (fun r v => flushPair r p v) t).mgmt = t.mgmt ∧
      (allVns.foldl (fun r v => flushPair r p v) t).pending = t.pending := fun t => foldl_keep _ _ _ fun r v => flushPair_keep r p v
  unfold flushPort
  dsimp only
  constructor <;> simp only [hf, hp, hm, flushIngress_keep, flushSent_keep, poolDown_keep]





@[simp] theorem ideEnds_keep (s : State) (p : Nat) :
    (ideEnds s p).mgmt = s.mgmt ∧ (ideEnds s p).pending = s.pending := by
  constructor <;> rfl

@[simp] theorem linkFalls_keep (s : State) (p : Nat) :
    (linkFalls s p).mgmt = s.mgmt ∧ (linkFalls s p).pending = s.pending := by
  constructor <;> (simp [linkFalls]; done)

@[simp] theorem hotReset_keep (s : State) (p : Nat) :
    (hotReset s p).mgmt = s.mgmt ∧ (hotReset s p).pending = s.pending := by
  constructor <;> (simp [hotReset]; done)

@[simp] theorem vppbsReset_keep (s : State) (v : Nat) :
    (vppbsReset s v).mgmt = s.mgmt ∧ (vppbsReset s v).pending = s.pending := by
  constructor <;> rfl

@[simp] theorem uncommitDecoders_keep (s : State) (v : Nat) :
    (uncommitDecoders s v).mgmt = s.mgmt ∧ (uncommitDecoders s v).pending = s.pending := by
  constructor <;> rfl

@[simp] theorem vcsReset_keep (s : State) (v : Nat) :
    (vcsReset s v).mgmt = s.mgmt ∧ (vcsReset s v).pending = s.pending := by
  constructor <;> (simp [vcsReset]; done)

@[simp] theorem portDown_keep (s : State) (p : Nat) :
    (portDown s p).mgmt = s.mgmt ∧ (portDown s p).pending = s.pending := by
  constructor <;> (unfold portDown; split <;> simp; done)

theorem execPortDown_keep (p : Fin 96) (s : State) : okept s (execPortDown p s) := by
  (unfold execPortDown; (try dsimp only); (repeat' split) <;> (try dsimp only) <;> simp)

@[simp] theorem portLinkLost_keep (s : State) (p : Nat) :
    (portLinkLost s p).mgmt = s.mgmt ∧ (portLinkLost s p).pending = s.pending := by
  constructor <;> (simp [portLinkLost]; done)

@[simp] theorem vcsActive_keep (s : State) (v : Nat) :
    (vcsActive s v).mgmt = s.mgmt ∧ (vcsActive s v).pending = s.pending := by
  constructor <;> (simp [vcsActive]; done)

@[simp] theorem vcsLinkUp_keep (s : State) (v : Nat) (p : Nat) :
    (vcsLinkUp s v p).mgmt = s.mgmt ∧ (vcsLinkUp s v p).pending = s.pending := by
  constructor <;> (simp [vcsLinkUp]; done)

@[simp] theorem perstAssert_keep (s : State) (p : Nat) (hot : Bool) :
    (perstAssert s p hot).mgmt = s.mgmt ∧ (perstAssert s p hot).pending = s.pending := by
  constructor <;> (unfold perstAssert; (try dsimp only); (repeat' split) <;> (try dsimp only) <;> simp)

theorem execPerstAssert_keep (p : Fin 96) (hot : Bool) (s : State) : okept s (execPerstAssert p hot s) := by
  (unfold execPerstAssert; (try dsimp only); (repeat' split) <;> (try dsimp only) <;> simp)

theorem execVcsResetRelease_keep (p : Fin 96) (s : State) : okept s (execVcsResetRelease p s) := by
  (unfold execVcsResetRelease; (try dsimp only); (repeat' split) <;> (try dsimp only) <;> simp)

@[simp] theorem vcsDisable_keep (s : State) (v : Nat) :
    (vcsDisable s v).mgmt = s.mgmt ∧ (vcsDisable s v).pending = s.pending := by
  constructor <;> (unfold vcsDisable; split <;> simp; done)

@[simp] theorem vcsEnable_keep (s : State) (v : Nat) (on : Bool) :
    (vcsEnable s v on).mgmt = s.mgmt ∧ (vcsEnable s v on).pending = s.pending := by
  constructor <;> (unfold vcsEnable; (try dsimp only); (repeat' split) <;> (try dsimp only) <;> simp)

theorem execVcsEnableWrite_keep (v : Fin 64) (on : Bool) (s : State) : okept s (execVcsEnableWrite v on s) := by
  (simp [execVcsEnableWrite]; done)

@[simp] theorem nameUpstream_keep (s : State) (p r : Nat) :
    (nameUpstream s p r).mgmt = s.mgmt ∧ (nameUpstream s p r).pending = s.pending := by
  unfold nameUpstream
  dsimp only
  have h := foldl_keep (fun t v => if upstreamPort t v = some p then odSet t (0x2200 + v) 2 0xFF else t) (List.range 64) s
    fun t v => by split <;> simp
  constructor <;> split <;> split <;> simp [h]


@[simp] theorem roleOff_keep (s : State) (p : Nat) :
    (roleOff s p).mgmt = s.mgmt ∧ (roleOff s p).pending = s.pending := by
  constructor <;> (simp [roleOff]; done)

@[simp] theorem roleWrite_keep (s : State) (p : Nat) (r : Nat) :
    (roleWrite s p r).1.mgmt = s.mgmt ∧ (roleWrite s p r).1.pending = s.pending := by
  constructor <;> (simp [roleWrite]; done)

theorem execPortRoleWrite_keep (p : Fin 96) (r : Byte) (s : State) : okept s (execPortRoleWrite p r s) := by
  (simp [execPortRoleWrite]; done)

@[simp] theorem widthWrite_keep (s : State) (p : Nat) (w : Nat) :
    (widthWrite s p w).1.mgmt = s.mgmt ∧ (widthWrite s p w).1.pending = s.pending := by
  constructor <;> (simp [widthWrite]; done)

theorem execPortWidthWrite_keep (p : Fin 96) (w : Byte) (s : State) : okept s (execPortWidthWrite p w s) := by
  (simp [execPortWidthWrite]; done)

@[simp] theorem portConfig_keep (s : State) (p : Nat) (x : PortSetting) :
    (portConfig s p x).1.mgmt = s.mgmt ∧ (portConfig s p x).1.pending = s.pending := by
  constructor <;> (simp [portConfig]; done)

theorem execPortConfigWrite_keep (p : Fin 96) (x : PortSetting) (s : State) : okept s (execPortConfigWrite p x s) := by
  (simp [execPortConfigWrite]; done)

@[simp] theorem incompatible_keep (s : State) (p : Nat) :
    (incompatible s p).mgmt = s.mgmt ∧ (incompatible s p).pending = s.pending := by
  constructor <;> (simp [incompatible]; done)

@[simp] theorem linkShown_keep (s : State) (p : Nat) (w : Nat) (x : LinkPartner) :
    (linkShown s p w x).mgmt = s.mgmt ∧ (linkShown s p w x).pending = s.pending := by
  constructor <;> rfl

@[simp] theorem linkNoticed_keep (s : State) (p : Nat) :
    (linkNoticed s p).mgmt = s.mgmt ∧ (linkNoticed s p).pending = s.pending := by
  constructor <;> (unfold linkNoticed; (try dsimp only); (repeat' split) <;> (try dsimp only) <;> simp)

@[simp] theorem portLinkUp_keep (s : State) (p : Nat) (w : Nat) (x : LinkPartner) :
    (portLinkUp s p w x).mgmt = s.mgmt ∧ (portLinkUp s p w x).pending = s.pending := by
  constructor <;> (simp [portLinkUp]; done)

@[simp] theorem trained_keep (s : State) (p : Nat) (x : LinkPartner) :
    (trained s p x).mgmt = s.mgmt ∧ (trained s p x).pending = s.pending := by
  constructor <;> (unfold trained; (try dsimp only); (repeat' split) <;> (try dsimp only) <;> simp)

theorem execPortTrained_keep (p : Fin 96) (x : LinkPartner) (s : State) : okept s (execPortTrained p x s) := by
  (simp [execPortTrained]; done)

theorem execUpstreamTrainingRetry_keep (p : Fin 96) (s : State) : okept s (execUpstreamTrainingRetry p s) := by
  (unfold execUpstreamTrainingRetry; (try dsimp only); (repeat' split) <;> (try dsimp only) <;> simp)

@[simp] theorem putWidth_keep (s : State) (p : Nat) (w : Nat) :
    (putWidth s p w).mgmt = s.mgmt ∧ (putWidth s p w).pending = s.pending := by
  constructor <;> (simp [putWidth]; done)

@[simp] theorem setL0pWidth_keep (s : State) (p : Nat) (w : Nat) :
    (setL0pWidth s p w).mgmt = s.mgmt ∧ (setL0pWidth s p w).pending = s.pending := by
  constructor <;> (simp [setL0pWidth]; done)

@[simp] theorem restoreWidth_keep (s : State) (p : Nat) :
    (restoreWidth s p).mgmt = s.mgmt ∧ (restoreWidth s p).pending = s.pending := by
  constructor <;> (simp [restoreWidth]; done)

@[simp] theorem l0pRequest_keep (s : State) (p : Nat) (w : Nat) :
    (l0pRequest s p w).mgmt = s.mgmt ∧ (l0pRequest s p w).pending = s.pending := by
  constructor <;> (simp [l0pRequest]; done)

theorem execL0pWidthRequest_keep (p : Fin 96) (w : Fin 17) (s : State) : okept s (execL0pWidthRequest p w s) := by
  (simp [execL0pWidthRequest]; done)

@[simp] theorem margin_keep (s : State) (p : Nat) (lane : Nat) (timing : Bool) (steps : Int) :
    (margin s p lane timing steps).mgmt = s.mgmt ∧ (margin s p lane timing steps).pending = s.pending := by
  constructor <;> (simp [margin]; done)

theorem execLaneMargining_keep (p : Fin 96) (lane : Fin 16) (timing : Bool) (steps : Int) (s : State) : okept s (execLaneMargining p lane timing steps s) := by
  (simp [execLaneMargining]; done)

theorem execSecondaryBusReset_keep (v : Fin 64) (d : Fin 32) (s : State) : okept s (execSecondaryBusReset v d s) := by
  (unfold execSecondaryBusReset; (try dsimp only); (repeat' split) <;> (try dsimp only) <;> simp)

@[simp] theorem portHotReset_keep (s : State) (p : Nat) :
    (portHotReset s p).1.mgmt = s.mgmt ∧ (portHotReset s p).1.pending = s.pending := by
  constructor <;> (simp [portHotReset]; done)

theorem execPortHotReset_keep (p : Fin 96) (s : State) : okept s (execPortHotReset p s) := by
  (simp [execPortHotReset]; done)

@[simp] theorem portFundamentalReset_keep (s : State) (p : Nat) :
    (portFundamentalReset s p).1.mgmt = s.mgmt ∧ (portFundamentalReset s p).1.pending = s.pending := by
  constructor <;> (simp [portFundamentalReset]; done)

theorem execPortFundamentalReset_keep (p : Fin 96) (s : State) : okept s (execPortFundamentalReset p s) := by
  (simp [execPortFundamentalReset]; done)

@[simp] theorem portRetrain_keep (s : State) (p : Nat) :
    (portRetrain s p).1.mgmt = s.mgmt ∧ (portRetrain s p).1.pending = s.pending := by
  constructor <;> (simp [portRetrain]; done)

theorem execPortRetrain_keep (p : Fin 96) (s : State) : okept s (execPortRetrain p s) := by
  (simp [execPortRetrain]; done)

@[simp] theorem portCxlReset_keep (s : State) (p : Nat) :
    (portCxlReset s p).1.mgmt = s.mgmt ∧ (portCxlReset s p).1.pending = s.pending := by
  constructor <;> (simp [portCxlReset]; done)

theorem execPortCxlReset_keep (p : Fin 96) (s : State) : okept s (execPortCxlReset p s) := by
  (simp [execPortCxlReset]; done)

@[simp] theorem slotPowerLost_keep (s : State) (c : Nat) :
    (slotPowerLost s c).mgmt = s.mgmt ∧ (slotPowerLost s c).pending = s.pending := by
  constructor <;> (unfold slotPowerLost; split <;> simp; done)

@[simp] theorem slotPowerGood_keep (s : State) (c : Nat) :
    (slotPowerGood s c).mgmt = s.mgmt ∧ (slotPowerGood s c).pending = s.pending := by
  constructor <;> (unfold slotPowerGood; split <;> simp; done)

@[simp] theorem refclkStable_keep (s : State) (k : Nat) :
    (refclkStable s k).mgmt = s.mgmt ∧ (refclkStable s k).pending = s.pending :=
  foldl_keep _ _ _ fun t i => by split <;> simp


@[simp] theorem ldLost_keep (s : State) (p : Nat) (mask : BitVec 16) :
    (ldLost s p mask).mgmt = s.mgmt ∧ (ldLost s p mask).pending = s.pending := by
  constructor <;> (simp [ldLost]; done)

theorem execPoolLdLost_keep (p : Fin 96) (mask : BitVec 16) (s : State) : okept s (execPoolLdLost p mask s) := by
  (simp [execPoolLdLost]; done)

/-! ### Machine/Islands.lean -/

@[simp] theorem setIsland_keep (s : State) (k : Nat) (st : Nat) :
    (setIsland s k st).mgmt = s.mgmt ∧ (setIsland s k st).pending = s.pending := by
  constructor <;> rfl

@[simp] theorem storeRequest_keep (s : State) (k : Nat) (r : Nat) :
    (storeRequest s k r).mgmt = s.mgmt ∧ (storeRequest s k r).pending = s.pending := by
  constructor <;> rfl

@[simp] theorem drainTimerOff_keep (s : State) (k : Nat) :
    (drainTimerOff s k).mgmt = s.mgmt ∧ (drainTimerOff s k).pending = s.pending := by
  constructor <;> rfl

@[simp] theorem requestClosed_keep (s : State) (k : Nat) :
    (requestClosed s k).1.mgmt = s.mgmt ∧ (requestClosed s k).1.pending = s.pending := by
  constructor <;> (unfold requestClosed; (try dsimp only); (repeat' split) <;> (try dsimp only) <;> simp)

theorem execIslandRequestClosed_keep (k : Fin 16) (s : State) : okept s (execIslandRequestClosed k s) := by
  (simp [execIslandRequestClosed]; done)

@[simp] theorem islandOpened_keep (s : State) (k : Nat) :
    (islandOpened s k).mgmt = s.mgmt ∧ (islandOpened s k).pending = s.pending := by
  constructor <;> (simp [islandOpened]; done)

@[simp] theorem requestOpen_keep (s : State) (k : Nat) :
    (requestOpen s k).1.mgmt = s.mgmt ∧ (requestOpen s k).1.pending = s.pending := by
  constructor <;> (unfold requestOpen; (try dsimp only); (repeat' split) <;> (try dsimp only) <;> simp)

theorem execIslandRequestOpen_keep (k : Fin 16) (s : State) : okept s (execIslandRequestOpen k s) := by
  (simp [execIslandRequestOpen]; done)

theorem execIslandDrainComplete_keep (k : Fin 16) (s : State) : okept s (execIslandDrainComplete k s) := by
  (unfold execIslandDrainComplete; (try dsimp only); (repeat' split) <;> (try dsimp only) <;> simp)

theorem execClosingDrainTimeout_keep (k : Fin 16) (s : State) : okept s (execClosingDrainTimeout k s) := by
  (unfold execClosingDrainTimeout; (try dsimp only); (repeat' split) <;> (try dsimp only) <;> simp)

theorem execBridgeReady_keep (k : Fin 16) (s : State) : okept s (execBridgeReady k s) := by
  (unfold execBridgeReady; (try dsimp only); (repeat' split) <;> (try dsimp only) <;> simp)

@[simp] theorem bridgeFails_keep (s : State) (k : Nat) :
    (bridgeFails s k).mgmt = s.mgmt ∧ (bridgeFails s k).pending = s.pending := by
  constructor <;> (simp [bridgeFails]; done)

theorem execBridgeSelfCheckFail_keep (k : Fin 16) (s : State) : okept s (execBridgeSelfCheckFail k s) := by
  (unfold execBridgeSelfCheckFail; (try dsimp only); (repeat' split) <;> (try dsimp only) <;> simp)

theorem execOpeningTimeout_keep (k : Fin 16) (s : State) : okept s (execOpeningTimeout k s) := by
  (unfold execOpeningTimeout; (try dsimp only); (repeat' split) <;> (try dsimp only) <;> simp)

@[simp] theorem islandHeldClosed_keep (s : State) (k : Nat) :
    (islandHeldClosed s k).mgmt = s.mgmt ∧ (islandHeldClosed s k).pending = s.pending := by
  constructor <;> rfl

/-! ### Machine/Extents.lean -/

@[simp] theorem decoderCommit_keep (s : State) (v : Nat) (i : Nat) (base : Nat) (size : Nat) (ways : Nat) (gran : Nat) (commit : Bool) :
    (decoderCommit s v i base size ways gran commit).mgmt = s.mgmt ∧ (decoderCommit s v i base size ways gran commit).pending = s.pending := by
  constructor <;> (simp [decoderCommit]; done)

theorem execHdmDecoderCommit_keep (v : Fin 64) (i : Fin 32) (base : BitVec 24) (size : BitVec 24) (ways : Fin 5) (gran : Fin 7) (commit : Bool) (s : State) : okept s (execHdmDecoderCommit v i base size ways gran commit s) := by
  (simp [execHdmDecoderCommit]; done)

@[simp] theorem poolWindowWrite_keep (s : State) (v : Nat) (i : Nat) (len : Bool) (x : Nat) :
    (poolWindowWrite s v i len x).1.mgmt = s.mgmt ∧ (poolWindowWrite s v i len x).1.pending = s.pending := by
  constructor <;> (simp [poolWindowWrite]; done)

theorem execDecoderPoolWindowWrite_keep (v : Fin 64) (i : Fin 32) (len : Bool) (x : BitVec 64) (s : State) : okept s (execDecoderPoolWindowWrite v i len x s) := by
  (simp [execDecoderPoolWindowWrite]; done)

@[simp] theorem setExtents_keep (s : State) (v : Nat) (l : List Extent) :
    (setExtents s v l).mgmt = s.mgmt ∧ (setExtents s v l).pending = s.pending := by
  constructor <;> rfl

@[simp] theorem dcAdd_keep (s : State) (v : Nat) (xs : List DcPart) :
    (dcAdd s v xs).1.mgmt = s.mgmt ∧ (dcAdd s v xs).1.pending = s.pending := by
  constructor <;> (unfold dcAdd; (try dsimp only); (repeat' split) <;> (try dsimp only) <;> simp)

theorem execInitiateDynamicCapacityAdd_keep (v : Fin 64) (xs : List DcPart) (s : State) : okept s (execInitiateDynamicCapacityAdd v xs s) := by
  (simp [execInitiateDynamicCapacityAdd]; done)

@[simp] theorem dcResponse_keep (s : State) (v : Nat) (bases : List (BitVec 64)) :
    (dcResponse s v bases).mgmt = s.mgmt ∧ (dcResponse s v bases).pending = s.pending := by
  constructor <;> rfl

theorem execAddDcResponse_keep (v : Fin 64) (bases : List (BitVec 64)) (s : State) : okept s (execAddDcResponse v bases s) := by
  (simp [execAddDcResponse]; done)

@[simp] theorem startRelease_keep (s : State) (v : Nat) (e : Extent) (forced : Bool) :
    (startRelease s v e forced).mgmt = s.mgmt ∧ (startRelease s v e forced).pending = s.pending := by
  constructor <;> (simp [startRelease]; done)

@[simp] theorem hostRelease_keep (s : State) (v : Nat) (bases : List (BitVec 64)) :
    (hostRelease s v bases).mgmt = s.mgmt ∧ (hostRelease s v bases).pending = s.pending := by
  constructor <;> (unfold hostRelease; split <;> simp; done)

theorem execReleaseDynamicCapacity_keep (v : Fin 64) (bases : List (BitVec 64)) (s : State) : okept s (execReleaseDynamicCapacity v bases s) := by
  (simp [execReleaseDynamicCapacity]; done)

@[simp] theorem fmRelease_keep (s : State) (v : Nat) (bases : List Nat) (forced : Bool) :
    (fmRelease s v bases forced).1.mgmt = s.mgmt ∧ (fmRelease s v bases forced).1.pending = s.pending := by
  constructor <;> (unfold fmRelease; split <;> simp; done)

theorem execInitiateDynamicCapacityRelease_keep (v : Fin 64) (bases : List (BitVec 64)) (forced : Bool) (s : State) : okept s (execInitiateDynamicCapacityRelease v bases forced s) := by
  (simp [execInitiateDynamicCapacityRelease]; done)

@[simp] theorem extentRemoved_keep (s : State) (v : Nat) (base : Nat) :
    (extentRemoved s v base).mgmt = s.mgmt ∧ (extentRemoved s v base).pending = s.pending := by
  constructor <;> (unfold extentRemoved; split <;> simp; done)

theorem execExtentRemoved_keep (v : Fin 64) (base : BitVec 64) (s : State) : okept s (execExtentRemoved v base s) := by
  (simp [execExtentRemoved]; done)

/-! ### Machine/FmApi.lean -/

theorem fmAnswer_keep (s : State) (rc : FmRc) (vals : List Nat) : okept s (fmAnswer s rc vals) := by
  (simp [fmAnswer]; done)

theorem execIdentify_keep (s : State) : okept s (execIdentify s) := ⟨rfl, rfl⟩


theorem execBackgroundOperationStatus_keep (s : State) : okept s (execBackgroundOperationStatus s) := by
  (unfold execBackgroundOperationStatus; (try dsimp only); (repeat' split) <;> (try simp) <;> (try constructor) <;> first | (simp; done) | ((simp; done)) | (((try simp); first | refine (foldl_mgmt _ _ _ ?_).trans ?_ | refine (foldl_pending _ _ _ ?_).trans ?_ | refine (foldl_fst_mgmt _ _ _ ?_).trans ?_ | refine (foldl_fst_pending _ _ _ ?_).trans ?_) <;> (try intro t a) <;> (try dsimp only) <;> (repeat' split) <;> (simp; done)))

theorem execGetResponseMessageLimit_keep (s : State) : okept s (execGetResponseMessageLimit s) := by
  (unfold execGetResponseMessageLimit; (try dsimp only); (repeat' split) <;> (try simp) <;> (try constructor) <;> first | (simp; done) | ((simp; done)) | (((try simp); first | refine (foldl_mgmt _ _ _ ?_).trans ?_ | refine (foldl_pending _ _ _ ?_).trans ?_ | refine (foldl_fst_mgmt _ _ _ ?_).trans ?_ | refine (foldl_fst_pending _ _ _ ?_).trans ?_) <;> (try intro t a) <;> (try dsimp only) <;> (repeat' split) <;> (simp; done)))

theorem execSetResponseMessageLimit_keep (n : Byte) (s : State) : okept s (execSetResponseMessageLimit n s) := by
  (unfold execSetResponseMessageLimit; (try dsimp only); (repeat' split) <;> (try simp) <;> (try constructor) <;> first | (simp; done) | ((simp; done)) | (((try simp); first | refine (foldl_mgmt _ _ _ ?_).trans ?_ | refine (foldl_pending _ _ _ ?_).trans ?_ | refine (foldl_fst_mgmt _ _ _ ?_).trans ?_ | refine (foldl_fst_pending _ _ _ ?_).trans ?_) <;> (try intro t a) <;> (try dsimp only) <;> (repeat' split) <;> (simp; done)))

theorem execIdentifySwitchDevice_keep (s : State) : okept s (execIdentifySwitchDevice s) := ⟨rfl, rfl⟩


theorem execGetPhysicalPortState_keep (ps : List (Fin 96)) (s : State) : okept s (execGetPhysicalPortState ps s) := by
  (unfold execGetPhysicalPortState; (try dsimp only); (repeat' split) <;> (try simp) <;> (try constructor) <;> first | (simp; done) | ((simp; done)) | (((try simp); first | refine (foldl_mgmt _ _ _ ?_).trans ?_ | refine (foldl_pending _ _ _ ?_).trans ?_ | refine (foldl_fst_mgmt _ _ _ ?_).trans ?_ | refine (foldl_fst_pending _ _ _ ?_).trans ?_) <;> (try intro t a) <;> (try dsimp only) <;> (repeat' split) <;> (simp; done)))

@[simp] theorem okept_fmAnswer (s t : State) (rc : FmRc) (vals : List Nat) :
    okept s (fmAnswer t rc vals) ↔ t.mgmt = s.mgmt ∧ t.pending = s.pending := Iff.rfl

@[simp] theorem portControl_keep (s : State) (p : Nat) (op : Nat) :
    (portControl s p op).1.mgmt = s.mgmt ∧ (portControl s p op).1.pending = s.pending := by
  constructor <;> (unfold portControl; (try dsimp only); (repeat' split) <;> (try dsimp only) <;> simp)

theorem execPhysicalPortControl_keep (p : Fin 96) (op : Fin 3) (s : State) : okept s (execPhysicalPortControl p op s) := by
  (simp [execPhysicalPortControl]; done)

@[simp] theorem cfgRegSet_keep (s : State) (sp : Nat) (reg : Nat) (v : Nat) :
    (cfgRegSet s sp reg v).mgmt = s.mgmt ∧ (cfgRegSet s sp reg v).pending = s.pending := by
  constructor <;> rfl

@[simp] theorem openBytes_keep (s : State) (a : Nat) (n : Nat) :
    (openBytes s a n).1.mgmt = s.mgmt ∧ (openBytes s a n).1.pending = s.pending := by
  constructor <;> rfl

@[simp] theorem cfgReadWith_keep (s : State) (sp : Nat) (reg : Nat) (x : Shown) :
    (cfgReadWith s sp reg x).1.mgmt = s.mgmt ∧ (cfgReadWith s sp reg x).1.pending = s.pending := by
  constructor <;> first | rfl | (unfold cfgReadWith; rfl) | (simp [cfgReadWith]; done) | (unfold cfgReadWith; split <;> simp; done) | (unfold cfgReadWith; (try dsimp only); (repeat' split) <;> (try dsimp only) <;> simp) | (unfold cfgReadWith; (try dsimp only); (repeat' split) <;> (try dsimp only) <;> first | (simp; done) | ((simp; done)) | (((try simp); first | refine (foldl_mgmt _ _ _ ?_).trans ?_ | refine (foldl_pending _ _ _ ?_).trans ?_ | refine (foldl_fst_mgmt _ _ _ ?_).trans ?_ | refine (foldl_fst_pending _ _ _ ?_).trans ?_) <;> (try intro t a) <;> (try dsimp only) <;> (repeat' split) <;> (simp; done)))

@[simp] theorem ppbRead_keep (s : State) (p : Nat) (reg : Nat) :
    (ppbRead s p reg).1.mgmt = s.mgmt ∧ (ppbRead s p reg).1.pending = s.pending := by
  constructor <;> first | rfl | (unfold ppbRead; rfl) | (simp [ppbRead]; done) | (unfold ppbRead; split <;> simp; done) | (unfold ppbRead; (try dsimp only); (repeat' split) <;> (try dsimp only) <;> simp) | (unfold ppbRead; (try dsimp only); (repeat' split) <;> (try dsimp only) <;> first | (simp; done) | ((simp; done)) | (((try simp); first | refine (foldl_mgmt _ _ _ ?_).trans ?_ | refine (foldl_pending _ _ _ ?_).trans ?_ | refine (foldl_fst_mgmt _ _ _ ?_).trans ?_ | refine (foldl_fst_pending _ _ _ ?_).trans ?_) <;> (try intro t a) <;> (try dsimp only) <;> (repeat' split) <;> (simp; done)))

theorem execSendPpbCxlioConfigRequest_keep (p : Fin 96) (reg : Fin 1024) (w : Option (BitVec 32)) (s : State) : okept s (execSendPpbCxlioConfigRequest p reg w s) := by
  (unfold execSendPpbCxlioConfigRequest; (try dsimp only); (repeat' split) <;> (try dsimp only) <;> simp)

theorem execGetVirtualCxlSwitchInfo_keep (v : Fin 64) (s : State) : okept s (execGetVirtualCxlSwitchInfo v s) := by
  (simp [execGetVirtualCxlSwitchInfo]; done)

theorem execGenerateAerEvent_keep (v : Fin 64) (d : Fin 32) (err : BitVec 32) (s : State) : okept s (execGenerateAerEvent v d err s) := by
  (unfold execGenerateAerEvent; (try dsimp only); (repeat' split) <;> (try dsimp only) <;> simp)

theorem execTunnelManagementCommand_keep (p : Fin 96) (bytes : List Byte) (s : State) : okept s (execTunnelManagementCommand p bytes s) := by
  (unfold execTunnelManagementCommand; (try dsimp only); (repeat' split) <;> (try dsimp only) <;> simp)

@[simp] theorem fmSend_keep (s : State) (cfg : Bool) (p : Nat) (ld : Nat) (a : FmAccess) :
    (fmSend s cfg p ld a).mgmt = s.mgmt ∧ (fmSend s cfg p ld a).pending = s.pending := by
  constructor <;> (unfold fmSend; (try dsimp only); (repeat' split) <;> (try dsimp only) <;> simp)

theorem execSendLdCxlioConfigRequest_keep (p : Fin 96) (ld : Fin 16) (a : FmAccess) (s : State) : okept s (execSendLdCxlioConfigRequest p ld a s) := by
  (simp [execSendLdCxlioConfigRequest]; done)

theorem execSendLdCxlioMemoryRequest_keep (p : Fin 96) (ld : Fin 16) (a : FmAccess) (s : State) : okept s (execSendLdCxlioMemoryRequest p ld a s) := by
  (simp [execSendLdCxlioMemoryRequest]; done)

theorem execGetDcdInfo_keep (s : State) : okept s (execGetDcdInfo s) := by
  (simp [execGetDcdInfo]; done)

theorem execGetHostDcRegionConfiguration_keep (v : Fin 64) (s : State) : okept s (execGetHostDcRegionConfiguration v s) := by
  (simp [execGetHostDcRegionConfiguration]; done)

@[simp] theorem regionConfig_keep (s : State) (v : Nat) (r : Nat) (base : Nat) (len : Nat) :
    (regionConfig s v r base len).1.mgmt = s.mgmt ∧ (regionConfig s v r base len).1.pending = s.pending := by
  constructor <;> (simp [regionConfig]; done)

theorem execSetDcRegionConfiguration_keep (v : Fin 64) (r : Fin 8) (base : BitVec 64) (len : BitVec 64) (s : State) : okept s (execSetDcRegionConfiguration v r base len s) := by
  (simp [execSetDcRegionConfiguration]; done)

theorem execGetDcRegionExtentLists_keep (v : Fin 64) (from_ : BitVec 16) (n : BitVec 16) (s : State) : okept s (execGetDcRegionExtentLists v from_ n s) := by
  (simp [execGetDcRegionExtentLists]; done)

theorem execFmapiUnsupported_keep (opcode : BitVec 16) (s : State) : okept s (execFmapiUnsupported opcode s) := by
  (simp [execFmapiUnsupported]; done)

/-! ### Machine/CfgSpace.lean -/

@[simp] theorem poolCfgWrite_keep (s : State) (v : Nat) (reg : Nat) (x : Nat) :
    (poolCfgWrite s v reg x).mgmt = s.mgmt ∧ (poolCfgWrite s v reg x).pending = s.pending := by
  constructor <;> first | rfl | (unfold poolCfgWrite; rfl) | (simp [poolCfgWrite]; done) | (unfold poolCfgWrite; split <;> simp; done) | (unfold poolCfgWrite; (try dsimp only); (repeat' split) <;> (try dsimp only) <;> simp) | (unfold poolCfgWrite; (try dsimp only); (repeat' split) <;> (try dsimp only) <;> first | (simp; done) | ((simp; done)) | (((try simp); first | refine (foldl_mgmt _ _ _ ?_).trans ?_ | refine (foldl_pending _ _ _ ?_).trans ?_ | refine (foldl_fst_mgmt _ _ _ ?_).trans ?_ | refine (foldl_fst_pending _ _ _ ?_).trans ?_) <;> (try intro t a) <;> (try dsimp only) <;> (repeat' split) <;> (simp; done)))

@[simp] theorem slotWrite_keep (s : State) (v : Nat) (d : Nat) (x : Nat) :
    (slotWrite s v d x).mgmt = s.mgmt ∧ (slotWrite s v d x).pending = s.pending := by
  constructor <;> first | rfl | (unfold slotWrite; rfl) | (simp [slotWrite]; done) | (unfold slotWrite; split <;> simp; done) | (unfold slotWrite; (try dsimp only); (repeat' split) <;> (try dsimp only) <;> simp) | (unfold slotWrite; (try dsimp only); (repeat' split) <;> (try dsimp only) <;> first | (simp; done) | ((simp; done)) | (((try simp); first | refine (foldl_mgmt _ _ _ ?_).trans ?_ | refine (foldl_pending _ _ _ ?_).trans ?_ | refine (foldl_fst_mgmt _ _ _ ?_).trans ?_ | refine (foldl_fst_pending _ _ _ ?_).trans ?_) <;> (try intro t a) <;> (try dsimp only) <;> (repeat' split) <;> (simp; done)))

@[simp] theorem dpcRelease_keep (s : State) (v : Nat) (d : Nat) :
    (dpcRelease s v d).mgmt = s.mgmt ∧ (dpcRelease s v d).pending = s.pending := by
  constructor <;> first | rfl | (unfold dpcRelease; rfl) | (simp [dpcRelease]; done) | (unfold dpcRelease; split <;> simp; done) | (unfold dpcRelease; (try dsimp only); (repeat' split) <;> (try dsimp only) <;> simp) | (unfold dpcRelease; (try dsimp only); (repeat' split) <;> (try dsimp only) <;> first | (simp; done) | ((simp; done)) | (((try simp); first | refine (foldl_mgmt _ _ _ ?_).trans ?_ | refine (foldl_pending _ _ _ ?_).trans ?_ | refine (foldl_fst_mgmt _ _ _ ?_).trans ?_ | refine (foldl_fst_pending _ _ _ ?_).trans ?_) <;> (try intro t a) <;> (try dsimp only) <;> (repeat' split) <;> (simp; done)))

@[simp] theorem vppbCfgWrite_keep (s : State) (v : Nat) (d : Nat) (reg : Nat) (x : Nat) :
    (vppbCfgWrite s v d reg x).mgmt = s.mgmt ∧ (vppbCfgWrite s v d reg x).pending = s.pending := by
  constructor <;> (simp [vppbCfgWrite]; done)

@[simp] theorem upCfgWrite_keep (s : State) (v : Nat) (reg : Nat) (x : Nat) :
    (upCfgWrite s v reg x).mgmt = s.mgmt ∧ (upCfgWrite s v reg x).pending = s.pending := by
  constructor <;> (unfold upCfgWrite; (try dsimp only); (repeat' split) <;> (try dsimp only) <;> simp)

@[simp] theorem fnCfgWrite_keep (s : State) (n : Nat) (reg : Nat) (x : Nat) :
    (fnCfgWrite s n reg x).mgmt = s.mgmt ∧ (fnCfgWrite s n reg x).pending = s.pending := by
  constructor <;> (simp [fnCfgWrite]; done)

@[simp] theorem fnReadEffect_keep (s : State) (n : Nat) (off : Nat) (len : Nat) :
    (fnReadEffect s n off len).mgmt = s.mgmt ∧ (fnReadEffect s n off len).pending = s.pending := by
  constructor <;> (simp [fnReadEffect]; done)

@[simp] theorem fnRead_keep (s : State) (fn : Option Nat) (off : Nat) (len : Nat) :
    (fnRead s fn off len).1.mgmt = s.mgmt ∧ (fnRead s fn off len).1.pending = s.pending := by
  constructor <;> (unfold fnRead; split <;> simp; done)

@[simp] theorem vectorMask_keep (s : State) (n : Nat) (i : Nat) (masked : Bool) :
    (vectorMask s n i masked).mgmt = s.mgmt ∧ (vectorMask s n i masked).pending = s.pending := by
  constructor <;> (simp [vectorMask]; done)

@[simp] theorem queueAddrWrite_keep (s : State) (n : Nat) (isCq : Bool) (loc : Nat) (x : Nat) :
    (queueAddrWrite s n isCq loc x).mgmt = s.mgmt ∧ (queueAddrWrite s n isCq loc x).pending = s.pending := by
  constructor <;> first | rfl | (unfold queueAddrWrite; rfl) | (simp [queueAddrWrite]; done) | (unfold queueAddrWrite; split <;> simp; done) | (unfold queueAddrWrite; (try dsimp only); (repeat' split) <;> (try dsimp only) <;> simp) | (unfold queueAddrWrite; (try dsimp only); (repeat' split) <;> (try dsimp only) <;> first | (simp; done) | ((simp; done)) | (((try simp); first | refine (foldl_mgmt _ _ _ ?_).trans ?_ | refine (foldl_pending _ _ _ ?_).trans ?_ | refine (foldl_fst_mgmt _ _ _ ?_).trans ?_ | refine (foldl_fst_pending _ _ _ ?_).trans ?_) <;> (try intro t a) <;> (try dsimp only) <;> (repeat' split) <;> (simp; done)))

@[simp] theorem queueEnableWrite_keep (s : State) (n : Nat) (isCq : Bool) (loc : Nat) (on : Bool) :
    (queueEnableWrite s n isCq loc on).mgmt = s.mgmt ∧ (queueEnableWrite s n isCq loc on).pending = s.pending := by
  constructor <;> first | rfl | (unfold queueEnableWrite; rfl) | (simp [queueEnableWrite]; done) | (unfold queueEnableWrite; split <;> simp; done) | (unfold queueEnableWrite; (try dsimp only); (repeat' split) <;> (try dsimp only) <;> simp) | (unfold queueEnableWrite; (try dsimp only); (repeat' split) <;> (try dsimp only) <;> first | (simp; done) | ((simp; done)) | (((try simp); first | refine (foldl_mgmt _ _ _ ?_).trans ?_ | refine (foldl_pending _ _ _ ?_).trans ?_ | refine (foldl_fst_mgmt _ _ _ ?_).trans ?_ | refine (foldl_fst_pending _ _ _ ?_).trans ?_) <;> (try intro t a) <;> (try dsimp only) <;> (repeat' split) <;> (simp; done)))

@[simp] theorem queueRegWrite_keep (s : State) (n : Nat) (isCq : Bool) (loc : Nat) (o : Nat) (data : List Byte) :
    (queueRegWrite s n isCq loc o data).mgmt = s.mgmt ∧ (queueRegWrite s n isCq loc o data).pending = s.pending := by
  constructor <;> (unfold queueRegWrite; (try dsimp only); (repeat' split) <;> (try dsimp only) <;> simp)

@[simp] theorem fnRegWrite_keep (s : State) (n : Nat) (off : Nat) (data : List Byte) :
    (fnRegWrite s n off data).mgmt = s.mgmt ∧ (fnRegWrite s n off data).pending = s.pending := by
  constructor <;> first | rfl | (unfold fnRegWrite; rfl) | (simp [fnRegWrite]; done) | (unfold fnRegWrite; split <;> simp; done) | (unfold fnRegWrite; (try dsimp only); (repeat' split) <;> (try dsimp only) <;> simp) | (unfold fnRegWrite; (try dsimp only); (repeat' split) <;> (try dsimp only) <;> first | (simp; done) | ((simp; done)) | (((try simp); first | refine (foldl_mgmt _ _ _ ?_).trans ?_ | refine (foldl_pending _ _ _ ?_).trans ?_ | refine (foldl_fst_mgmt _ _ _ ?_).trans ?_ | refine (foldl_fst_pending _ _ _ ?_).trans ?_) <;> (try intro t a) <;> (try dsimp only) <;> (repeat' split) <;> (simp; done)))

@[simp] theorem fnWriteAt_keep (s : State) (n : Nat) (off : Nat) (data : List Byte) :
    (fnWriteAt s n off data).mgmt = s.mgmt ∧ (fnWriteAt s n off data).pending = s.pending := by
  constructor <;> (simp [fnWriteAt]; done)

@[simp] theorem fnWrite_keep (s : State) (fn : Option Nat) (off : Nat) (data : List Byte) :
    (fnWrite s fn off data).mgmt = s.mgmt ∧ (fnWrite s fn off data).pending = s.pending := by
  constructor <;> (unfold fnWrite; split <;> simp; done)

@[simp] theorem poolBarRead_keep (s : State) (v a len : Nat) :
    (poolBarRead s v a len).1.mgmt = s.mgmt ∧ (poolBarRead s v a len).1.pending = s.pending := by
  unfold poolBarRead
  extract_lets b
  clear_value b
  by_cases h : 0 < b ∧ b ≤ a ∧ a + len ≤ b + 1024
  · rw [if_pos h]; exact ⟨rfl, rfl⟩
  · rw [if_neg h]; exact openBytes_keep _ _ _

/-! ### Machine/CxlIo.lean -/

@[simp] theorem dpcTrigger_keep (s : State) (p : Nat) (ld : Nat) :
    (dpcTrigger s p ld).mgmt = s.mgmt ∧ (dpcTrigger s p ld).pending = s.pending := by
  constructor <;> first | rfl | (unfold dpcTrigger; rfl) | (simp [dpcTrigger]; done) | (unfold dpcTrigger; split <;> simp; done) | (unfold dpcTrigger; (try dsimp only); (repeat' split) <;> (try dsimp only) <;> simp) | (unfold dpcTrigger; (try dsimp only); (repeat' split) <;> (try dsimp only) <;> first | (simp; done) | ((simp; done)) | (((try simp); first | refine (foldl_mgmt _ _ _ ?_).trans ?_ | refine (foldl_pending _ _ _ ?_).trans ?_ | refine (foldl_fst_mgmt _ _ _ ?_).trans ?_ | refine (foldl_fst_pending _ _ _ ?_).trans ?_) <;> (try intro t a) <;> (try dsimp only) <;> (repeat' split) <;> (simp; done)))

@[simp] theorem malformedTlp_keep (s : State) (p : Nat) (t : Tlp) :
    (malformedTlp s p t).mgmt = s.mgmt ∧ (malformedTlp s p t).pending = s.pending := by
  constructor <;> (simp [malformedTlp]; done)

@[simp] theorem ioSpace_keep (s : State) (p : Nat) (t : Tlp) :
    (ioSpace s p t).mgmt = s.mgmt ∧ (ioSpace s p t).pending = s.pending := by
  constructor <;> (simp [ioSpace]; done)

@[simp] theorem countTlp_keep (s : State) (p : Nat) (t : Tlp) :
    (countTlp s p t).mgmt = s.mgmt ∧ (countTlp s p t).pending = s.pending := by
  constructor <;> (unfold countTlp; (try dsimp only); (repeat' split) <;> (try dsimp only) <;> simp)

@[simp] theorem parsePlace_keep (s : State) (p : Nat) (vn : Vn) (m : PortMsg) :
    (parsePlace s p vn m).mgmt = s.mgmt ∧ (parsePlace s p vn m).pending = s.pending := by
  constructor <;> (unfold parsePlace; (try dsimp only); (repeat' split) <;> (try dsimp only) <;> simp)

@[simp] theorem parseMsg_keep (s : State) (p : Nat) (m : PortMsg) :
    (parseMsg s p m).mgmt = s.mgmt ∧ (parseMsg s p m).pending = s.pending := by
  constructor <;> (unfold parseMsg; (try dsimp only); (repeat' split) <;> (try dsimp only) <;> simp)

@[simp] theorem parseFlit_keep (s : State) (p : Nat) (ms : List PortMsg) :
    (parseFlit s p ms).mgmt = s.mgmt ∧ (parseFlit s p ms).pending = s.pending := by
  constructor <;> (simp [parseFlit]; done)

theorem execParseIngress_keep (p : Fin 96) (ms : List PortMsg) (s : State) : okept s (execParseIngress p ms s) := by
  (unfold execParseIngress; (try dsimp only); (repeat' split) <;> (try dsimp only) <;> simp)

@[simp] theorem refuseTlp_keep (s : State) (p : Nat) (t : Tlp) :
    (refuseTlp s p t).mgmt = s.mgmt ∧ (refuseTlp s p t).pending = s.pending := by
  constructor <;> (simp [refuseTlp]; done)

@[simp] theorem answerData_keep (s : State) (p : Nat) (t : Tlp) (bs : List Byte) :
    (answerData s p t bs).mgmt = s.mgmt ∧ (answerData s p t bs).pending = s.pending := by
  constructor <;> (simp [answerData]; done)

@[simp] theorem answerDone_keep (s : State) (p : Nat) (t : Tlp) :
    (answerDone s p t).mgmt = s.mgmt ∧ (answerDone s p t).pending = s.pending := by
  constructor <;> rfl

@[simp] theorem npRecord_keep (s : State) (v : Nat) (p : Nat) (q : Nat) (ld : Nat) (t : Tlp) (refused : Bool) :
    (npRecord s v p q ld t refused).mgmt = s.mgmt ∧ (npRecord s v p q ld t refused).pending = s.pending := by
  constructor <;> (simp [npRecord]; done)

@[simp] theorem forward_keep (s : State) (p : Nat) (dst : BitVec 12) (t : Tlp) (since : Nat) :
    (forward s p dst t since).mgmt = s.mgmt ∧ (forward s p dst t since).pending = s.pending := by
  constructor <;> (simp [forward]; done)

@[simp] theorem forwardPort_keep (s : State) (v : Nat) (p : Nat) (q : Nat) (ld : Nat) (t : Tlp) (since : Nat) :
    (forwardPort s v p q ld t since).mgmt = s.mgmt ∧ (forwardPort s v p q ld t since).pending = s.pending := by
  constructor <;> (simp [forwardPort]; done)

@[simp] theorem forwardRuns_keep (s : State) (v : Nat) (p : Nat) (t : Tlp) (runs : List (Nat × Nat)) (since : Nat) :
    (forwardRuns s v p t runs since).mgmt = s.mgmt ∧ (forwardRuns s v p t runs since).pending = s.pending := by
  constructor <;> (unfold forwardRuns; (try dsimp only); (repeat' split) <;> (try dsimp only) <;> simp)

@[simp] theorem poolRequest_keep (s : State) (v : Nat) (p : Nat) (t : Tlp) (since : Nat) :
    (poolRequest s v p t since).mgmt = s.mgmt ∧ (poolRequest s v p t since).pending = s.pending := by
  constructor <;> (simp [poolRequest]; done)

theorem servedRequest_keep (s : State) (p : Nat) (t : Tlp) (rd : State → State × List Byte) (wr : State → State)
    (hr : ∀ x, rd s = x → x.1.mgmt = s.mgmt ∧ x.1.pending = s.pending) (hw : (wr s).mgmt = s.mgmt ∧ (wr s).pending = s.pending) :
    (servedRequest s p t rd wr).mgmt = s.mgmt ∧ (servedRequest s p t rd wr).pending = s.pending := by
  unfold servedRequest
  split
  · simpa using hr _ rfl
  · split
    · exact hw
    · split
      · simpa using hw
      · simp


@[simp] theorem routeMemory_keep (s : State) (v p : Nat) (frm : Option Nat) (t : Tlp) (n : Nat) :
    (routeMemory s v p frm t n).mgmt = s.mgmt ∧ (routeMemory s v p frm t n).pending = s.pending := by
  unfold routeMemory
  extract_lets a x
  clear_value x
  split
  · exact refuseTlp_keep _ _ _
  · split
    · exact poolRequest_keep _ _ _ _ _
    · refine servedRequest_keep _ _ _ _ _ (fun x h => ?_) (fnWrite_keep _ _ _ _)
      have h' : fnRead _ _ _ _ = x := h
      rw [← h']
      exact fnRead_keep _ _ _ _
    · refine servedRequest_keep _ _ _ _ _ (fun x h => ?_) ⟨rfl, rfl⟩
      have h' : poolBarRead _ _ _ _ = x := h
      rw [← h']
      exact poolBarRead_keep _ _ _ _
    · exact forwardPort_keep _ _ _ _ _ _ _
    · split <;> simp
    · simp



theorem serveCfg_keep (s : State) (p sp : Nat) (t : Tlp) (x : Nat → Shown) (wr : State → Nat → Nat → State)
    (hw : ∀ a b, (wr s a b).mgmt = s.mgmt ∧ (wr s a b).pending = s.pending) :
    (serveCfg s p sp t x wr).mgmt = s.mgmt ∧ (serveCfg s p sp t x wr).pending = s.pending := by
  unfold serveCfg
  dsimp only
  split
  · simp
  · simpa using hw _ _



@[simp] theorem routeCfg_keep (s : State) (v p : Nat) (t : Tlp) (n : Nat) :
    (routeCfg s v p t n).mgmt = s.mgmt ∧ (routeCfg s v p t n).pending = s.pending := by
  unfold routeCfg
  split
  · exact serveCfg_keep _ _ _ _ _ _ (by simp)
  · exact serveCfg_keep _ _ _ _ _ _ (by simp)
  · exact serveCfg_keep _ _ _ _ _ _ (by simp)
  · exact serveCfg_keep _ _ _ _ _ _ (by simp)
  · exact serveCfg_keep _ _ _ _ _ _ (by simp)
  · split <;> simp
  · simp



@[simp] theorem routeMessage_keep (s : State) (v : Nat) (p : Nat) (frm : Option Nat) (t : Tlp) (since : Nat) :
    (routeMessage s v p frm t since).mgmt = s.mgmt ∧ (routeMessage s v p frm t since).pending = s.pending := by
  constructor <;> (unfold routeMessage; (try dsimp only); (repeat' split) <;> (try dsimp only) <;> simp)

@[simp] theorem routeCompletion_keep (s : State) (p : Nat) (t : Tlp) (since : Nat) :
    (routeCompletion s p t since).mgmt = s.mgmt ∧ (routeCompletion s p t since).pending = s.pending := by
  constructor <;> (unfold routeCompletion; split <;> simp; done)

@[simp] theorem acsViolation_keep (s : State) (p : Nat) (t : Tlp) :
    (acsViolation s p t).mgmt = s.mgmt ∧ (acsViolation s p t).pending = s.pending := by
  constructor <;> first | rfl | (unfold acsViolation; rfl) | (simp [acsViolation]; done) | (unfold acsViolation; split <;> simp; done) | (unfold acsViolation; (try dsimp only); (repeat' split) <;> (try dsimp only) <;> simp) | (unfold acsViolation; (try dsimp only); (repeat' split) <;> (try dsimp only) <;> first | (simp; done) | ((simp; done)) | (((try simp); first | refine (foldl_mgmt _ _ _ ?_).trans ?_ | refine (foldl_pending _ _ _ ?_).trans ?_ | refine (foldl_fst_mgmt _ _ _ ?_).trans ?_ | refine (foldl_fst_pending _ _ _ ?_).trans ?_) <;> (try intro t a) <;> (try dsimp only) <;> (repeat' split) <;> (simp; done)))

@[simp] theorem routeTlp_keep (s : State) (p : Nat) (t : Tlp) (since : Nat) :
    (routeTlp s p t since).mgmt = s.mgmt ∧ (routeTlp s p t since).pending = s.pending := by
  constructor <;> (unfold routeTlp; (try dsimp only); (repeat' split) <;> (try dsimp only) <;> simp)

theorem execCxlioRoute_keep (p : Fin 96) (vn : Vn) (s : State) : okept s (execCxlioRoute p vn s) := by
  (unfold execCxlioRoute; (try dsimp only); (repeat' split) <;> (try dsimp only) <;> simp)

/-! ### Machine/Reset.lean -/

@[simp] theorem linksShowDown_keep (s : State) : (linksShowDown s).mgmt = s.mgmt ∧ (linksShowDown s).pending = s.pending := by
  unfold linksShowDown
  refine foldl_from s _ _ _ (foldl_from s _ _ _ (foldl_keep _ _ _ fun t p => ?_) fun t a => ?_) fun t v => ?_ <;>
    split <;> simp


@[simp] theorem mainDomainOff_keep (s : State) :
    (mainDomainOff s).mgmt = s.mgmt ∧ (mainDomainOff s).pending = s.pending := by
  constructor <;> (simp [mainDomainOff]; done)

@[simp] theorem startupReached_keep (s : State) (n : Nat) :
    (startupReached s n).mgmt = s.mgmt ∧ (startupReached s n).pending = s.pending := by
  constructor <;> (simp [startupReached]; done)

theorem nonVolatile_keep (s r : State) : (nonVolatile s r).mgmt = r.mgmt ∧ (nonVolatile s r).pending = s.pending := ⟨rfl, rfl⟩



@[simp] theorem resetStep4_keep (s : State) :
    (resetStep4 s).mgmt = s.mgmt ∧ (resetStep4 s).pending = s.pending := by
  constructor <;> (simp [resetStep4]; done)

@[simp] theorem resetRecognised_keep (s : State) :
    (resetRecognised s).mgmt = s.mgmt ∧ (resetRecognised s).pending = s.pending := by
  constructor <;> (simp [resetRecognised]; done)

end Sys2Proof.Laws
end

