-- ==== Sys2Proof/Laws/FramePower.lean ====
section
/-!
SUPPORT. Laws/FramePower.lean: which operations keep the management complex and the queue of commands: the management complex, power, performance, faults.
-/

set_option Elab.async false
set_option linter.all false
set_option linter.unusedSimpArgs false

namespace Sys2Proof.Laws

open Sys2Proof.Machine

/-! ### Machine/Management.lean -/

@[simp] theorem busData_keep (s : State) (master : Nat) (id : Nat) (d : List Byte) :
    (busData s master id d).mgmt = s.mgmt ∧ (busData s master id d).pending = s.pending := by
  constructor <;> rfl

@[simp] theorem busAck_keep (s : State) (master : Nat) (id : Nat) :
    (busAck s master id).mgmt = s.mgmt ∧ (busAck s master id).pending = s.pending := by
  constructor <;> rfl

theorem eventPost_keep (s : State) (code : Nat) (data : BitVec 192) (t : State) (h : eventPost s code data = some t) : t.mgmt = s.mgmt ∧ t.pending = s.pending := by
  unfold eventPost at h
  (try dsimp only at h)
  (repeat' split at h) <;> simp at h <;> (try subst h) <;> simp

@[simp] theorem apertureSelect_keep (s : State) (v : Nat) :
    (apertureSelect s v).mgmt = s.mgmt ∧ (apertureSelect s v).pending = s.pending := by
  constructor <;> rfl

theorem execApertureSelectWrite_keep (v : BitVec 32) (s : State) : okept s (execApertureSelectWrite v s) := by
  (simp [execApertureSelectWrite]; done)

@[simp] theorem agentWritten_keep (s : State) :
    (agentWritten s).mgmt = s.mgmt ∧ (agentWritten s).pending = s.pending := by
  constructor <;> first | rfl | (unfold agentWritten; rfl) | (simp [agentWritten]; done) | (unfold agentWritten; split <;> simp; done) | (unfold agentWritten; (try dsimp only); (repeat' split) <;> (try dsimp only) <;> simp) | (unfold agentWritten; (try dsimp only); (repeat' split) <;> (try dsimp only) <;> first | (simp; done) | (first | (simp; done) | (simp; grind only [eventPost_keep])) | (((try simp); first | refine (foldl_mgmt _ _ _ ?_).trans ?_ | refine (foldl_pending _ _ _ ?_).trans ?_ | refine (foldl_fst_mgmt _ _ _ ?_).trans ?_ | refine (foldl_fst_pending _ _ _ ?_).trans ?_) <;> (try intro t a) <;> (try dsimp only) <;> (repeat' split) <;> first | (simp; done) | (simp; grind only [eventPost_keep])))

theorem unanswered_keep (s t : State) (h : t.pending = s.pending) : (unanswered s t).pending = s.pending := by
  unfold unanswered
  split <;> simp [h]

/-! ### Machine/Power.lean -/

@[simp] theorem powerSample_keep (s : State) (vinMv : Nat) (vinMa : Nat) (vauxMv : Nat) (vauxMa : Nat) :
    (powerSample s vinMv vinMa vauxMv vauxMa).mgmt = s.mgmt ∧ (powerSample s vinMv vinMa vauxMv vauxMa).pending = s.pending := by
  constructor <;> (simp [powerSample]; done)

@[simp] theorem slotsOff_keep (s : State) :
    (slotsOff s).mgmt = s.mgmt ∧ (slotsOff s).pending = s.pending := by
  constructor <;> rfl

@[simp] theorem vauxLoss_keep (s : State) :
    (vauxLoss s).mgmt = s.mgmt ∧ (vauxLoss s).pending = s.pending := by
  constructor <;> (simp [vauxLoss]; done)

theorem execVauxPowerGood_keep (s : State) : okept s (execVauxPowerGood s) := by
  (unfold execVauxPowerGood; (try dsimp only); (repeat' split) <;> (try dsimp only) <;> simp)

theorem execVin12Qualified_keep (s : State) : okept s (execVin12Qualified s) := by
  (unfold execVin12Qualified; (try dsimp only); (repeat' split) <;> (try dsimp only) <;> simp)

@[simp] theorem setSlot_keep (s : State) (c : Nat) (x : SlotCh) :
    (setSlot s c x).mgmt = s.mgmt ∧ (setSlot s c x).pending = s.pending := by
  constructor <;> rfl

@[simp] theorem slotTrip_keep (s : State) (c : Nat) (cause : Nat) (x : SlotCh) :
    (slotTrip s c cause x).mgmt = s.mgmt ∧ (slotTrip s c cause x).pending = s.pending := by
  constructor <;> (simp [slotTrip]; done)

@[simp] theorem slotDriveTick_keep (s : State) (c : Nat) (x : SlotCh) (m : SlotSample) :
    (slotDriveTick s c x m).mgmt = s.mgmt ∧ (slotDriveTick s c x m).pending = s.pending := by
  unfold slotDriveTick
  extract_lets lim ovp low x1
  clear_value x1
  (repeat' split) <;> (try extract_lets) <;> (repeat' split) <;>
    first
    | exact slotTrip_keep _ _ _ _
    | exact setSlot_keep _ _ _
    | exact ⟨(bumpC_mgmt ..).trans (setSlot_keep ..).1, (bumpC_pending ..).trans (setSlot_keep ..).2⟩
    | skip


@[simp] theorem slotTick_keep (s : State) (c : Nat) (m : SlotSample) :
    (slotTick s c m).mgmt = s.mgmt ∧ (slotTick s c m).pending = s.pending := by
  constructor <;> (unfold slotTick; (try dsimp only); (repeat' split) <;> (try dsimp only) <;> simp)

@[simp] theorem slotShown_keep (before after : State) (c : Nat) :
    (slotShown before after c).mgmt = after.mgmt ∧ (slotShown before after c).pending = after.pending := by
  unfold slotShown
  dsimp only
  (repeat' split) <;> simp


@[simp] theorem slotPower_keep (before after : State) (c : Nat) :
    (slotPower before after c).mgmt = after.mgmt ∧ (slotPower before after c).pending = after.pending := by
  unfold slotPower
  dsimp only
  split <;> simp


theorem execSlotTick_keep (c : Fin 48) (m : SlotSample) (s : State) : okept s (execSlotTick c m s) := by
  (unfold execSlotTick; (try dsimp only); (repeat' split) <;> (try dsimp only) <;> simp)

theorem execInsertionDelayExpire_keep (c : Fin 48) (s : State) : okept s (execInsertionDelayExpire c s) := by
  (unfold execInsertionDelayExpire; (try dsimp only); (repeat' split) <;> (try dsimp only) <;> simp)

theorem execFaultTimerExpire_keep (c : Fin 48) (s : State) : okept s (execFaultTimerExpire c s) := by
  (unfold execFaultTimerExpire; (try dsimp only); (repeat' split) <;> (try dsimp only) <;> simp)

theorem execRetryTimerExpire_keep (c : Fin 48) (s : State) : okept s (execRetryTimerExpire c s) := by
  (unfold execRetryTimerExpire; (try dsimp only); (repeat' split) <;> (try dsimp only) <;> simp)

theorem execRampTimeout_keep (c : Fin 48) (s : State) : okept s (execRampTimeout c s) := by
  (unfold execRampTimeout; (try dsimp only); (repeat' split) <;> (try dsimp only) <;> simp)

theorem execGateWontRiseExpire_keep (c : Fin 48) (s : State) : okept s (execGateWontRiseExpire c s) := by
  (unfold execGateWontRiseExpire; (try dsimp only); (repeat' split) <;> (try dsimp only) <;> simp)

theorem execRetryCountClear_keep (c : Fin 48) (s : State) : okept s (execRetryCountClear c s) := by
  (unfold execRetryCountClear; (try dsimp only); (repeat' split) <;> (try dsimp only) <;> simp)

@[simp] theorem slotEnable_keep (s : State) (c : Nat) (on : Bool) :
    (slotEnable s c on).mgmt = s.mgmt ∧ (slotEnable s c on).pending = s.pending := by
  constructor <;> (simp [slotEnable]; done)

theorem execSlotChannelEnable_keep (c : Fin 48) (s : State) : okept s (execSlotChannelEnable c s) := by
  (simp [execSlotChannelEnable]; done)

theorem execSlotChannelDisable_keep (c : Fin 48) (s : State) : okept s (execSlotChannelDisable c s) := by
  (simp [execSlotChannelDisable]; done)

@[simp] theorem slotClear_keep (s : State) (c : Nat) :
    (slotClear s c).1.mgmt = s.mgmt ∧ (slotClear s c).1.pending = s.pending := by
  constructor <;> (simp [slotClear]; done)

theorem execClearLatch_keep (c : Fin 48) (s : State) : okept s (execClearLatch c s) := by
  (simp [execClearLatch]; done)

@[simp] theorem slotSetRequest_keep (s : State) (c : Nat) (on : Bool) (byHost : Bool) :
    (slotSetRequest s c on byHost).mgmt = s.mgmt ∧ (slotSetRequest s c on byHost).pending = s.pending := by
  constructor <;> (unfold slotSetRequest; (try dsimp only); (repeat' split) <;> (try dsimp only) <;> simp)

theorem execPowerRequest_keep (c : Fin 48) (on : Bool) (byHost : Bool) (s : State) : okept s (execPowerRequest c on byHost s) := by
  (simp [execPowerRequest]; done)

@[simp] theorem sensorsRead_keep (s : State) (rs : List (Fin 64 × Int)) :
    (sensorsRead s rs).mgmt = s.mgmt ∧ (sensorsRead s rs).pending = s.pending :=
  foldl_keep _ _ _ fun t r => by split <;> exact ⟨rfl, rfl⟩


@[simp] theorem overTemperature_keep (old s : State) :
    (overTemperature old s).mgmt = s.mgmt ∧ (overTemperature old s).pending = s.pending := by
  unfold overTemperature
  refine foldl_from s _ _ _ ?_ fun t n => ?_
  · constructor <;> split <;> simp
  · split <;> simp


@[simp] theorem governorEpoch_keep (s : State) (measured : Nat) (demand : List Nat) :
    (governorEpoch s measured demand).mgmt = s.mgmt ∧ (governorEpoch s measured demand).pending = s.pending := by
  constructor <;> (simp [governorEpoch]; done)

theorem execGovernorEpoch_keep (measured : Nat) (readings : List (Fin 64 × Int)) (demand : List Nat) (s : State) : okept s (execGovernorEpoch measured readings demand s) := by
  (unfold execGovernorEpoch; (try dsimp only); (repeat' split) <;> (try dsimp only) <;> simp)

theorem execThermalNarrowing_keep (s : State) : okept s (execThermalNarrowing s) := by
  (unfold execThermalNarrowing; (try dsimp only); (repeat' split) <;> (try dsimp only) <;> simp)

theorem execThermalResponseEnd_keep (s : State) : okept s (execThermalResponseEnd s) := by
  (unfold execThermalResponseEnd; (try dsimp only); (repeat' split) <;> (try dsimp only) <;> simp)

theorem execPowerCapExceeded_keep (s : State) : okept s (execPowerCapExceeded s) := by
  (unfold execPowerCapExceeded; (try dsimp only); (repeat' split) <;> (try dsimp only) <;> simp)

theorem execRefclkStable_keep (r : Fin 21) (s : State) : okept s (execRefclkStable r s) := by
  (unfold execRefclkStable; (try dsimp only); (repeat' split) <;> (try dsimp only) <;> simp)

theorem execRefclkLost_keep (r : Fin 21) (s : State) : okept s (execRefclkLost r s) := by
  (unfold execRefclkLost; (try dsimp only); (repeat' split) <;> (try dsimp only) <;> simp)

/-! ### Machine/Perf.lean -/

@[simp] theorem takeSnapshot_keep (s : State) :
    (takeSnapshot s).mgmt = s.mgmt ∧ (takeSnapshot s).pending = s.pending := by
  constructor <;> rfl

theorem execTakeSnapshot_keep (s : State) : okept s (execTakeSnapshot s) := by
  (simp [execTakeSnapshot]; done)

@[simp] theorem samplerEnable_keep (s : State) (k : Nat) (on : Bool) :
    (samplerEnable s k on).mgmt = s.mgmt ∧ (samplerEnable s k on).pending = s.pending := by
  constructor <;> (simp [samplerEnable]; done)

theorem execSamplerEnable_keep (k : Fin 8) (on : Bool) (s : State) : okept s (execSamplerEnable k on s) := by
  (simp [execSamplerEnable]; done)

theorem execHostSamplerEnable_keep (v : Fin 64) (on : Bool) (vector event : Fin 128) (periodLow : BitVec 32)
    (periodHigh : BitVec 16) (s : State) : okept s (execHostSamplerEnable v on vector event periodLow periodHigh s) :=
  ⟨rfl, rfl⟩


@[simp] theorem hostSamplerFire_keep (s : State) (v : Nat) :
    (hostSamplerFire s v).mgmt = s.mgmt ∧ (hostSamplerFire s v).pending = s.pending := by
  unfold hostSamplerFire
  extract_lets h t
  generalize captured t _ = r
  split
  · exact ⟨rfl, rfl⟩
  · generalize (tabSet hostSamplerReset v _ s.perf.host) = q
    constructor <;> simp only [traceSpecial_keep, emit_mgmt, emit_pending, bumpCBy_mgmt, bumpCBy_pending, bumpC_mgmt, bumpC_pending] <;> rfl


@[simp] theorem timeStep_keep (s : State) (d : Int) :
    (timeStep s d).mgmt = s.mgmt ∧ (timeStep s d).pending = s.pending := by
  constructor <;> rfl

@[simp] theorem timeOffset_keep (s : State) (off : Int) (gm : BitVec 64) :
    (timeOffset s off gm).mgmt = s.mgmt ∧ (timeOffset s off gm).pending = s.pending := by
  constructor <;> (simp [timeOffset]; done)

theorem execTimeOffsetMeasured_keep (off : Int) (gm : BitVec 64) (s : State) : okept s (execTimeOffsetMeasured off gm s) := by
  (unfold execTimeOffsetMeasured; (try dsimp only); (repeat' split) <;> (try dsimp only) <;> simp)

@[simp] theorem toHoldover_keep (s : State) :
    (toHoldover s).mgmt = s.mgmt ∧ (toHoldover s).pending = s.pending := by
  constructor <;> (simp [toHoldover]; done)

theorem execSyncTimeout_keep (s : State) : okept s (execSyncTimeout s) := by
  (simp [execSyncTimeout]; done)

theorem execHoldoverLimit_keep (s : State) : okept s (execHoldoverLimit s) := by
  (unfold execHoldoverLimit; (try dsimp only); (repeat' split) <;> (try dsimp only) <;> simp)

@[simp] theorem tick_keep (s : State) :
    (tick s).mgmt = s.mgmt ∧ (tick s).pending = s.pending := by
  constructor <;> rfl

@[simp] theorem setTsi_keep (s : State) (i : Nat) (t : TsiState) :
    (setTsi s i t).mgmt = s.mgmt ∧ (setTsi s i t).pending = s.pending := by
  constructor <;> rfl

@[simp] theorem captureEdge_keep (s : State) (i : Nat) (rising : Bool) :
    (captureEdge s i rising).mgmt = s.mgmt ∧ (captureEdge s i rising).pending = s.pending := by
  constructor <;> (simp [captureEdge]; done)

@[simp] theorem inputDoorbell_keep (s : State) (i : Nat) :
    (inputDoorbell s i).mgmt = s.mgmt ∧ (inputDoorbell s i).pending = s.pending := by
  unfold inputDoorbell
  dsimp only
  split
  · exact ⟨rfl, rfl⟩
  · have h := ringDoorbell_keep s (odGet s (0xC060 + i) 4) (odGet s (0xC060 + i) 5)
    split <;> (rename_i e; rw [e] at h; simpa using h)


theorem execTsiEdge_keep (i : Fin 8) (rising : Bool) (s : State) : okept s (execTsiEdge i rising s) := by
  (unfold execTsiEdge; (try dsimp only); (repeat' split) <;> (try dsimp only) <;> simp)

theorem execTsiPulseFiltered_keep (i : Fin 8) (width : Nat) (s : State) : okept s (execTsiPulseFiltered i width s) := by
  (unfold execTsiPulseFiltered; (try dsimp only); (repeat' split) <;> (try dsimp only) <;> simp)

@[simp] theorem captureRead_keep (s : State) (i : Nat) (n : Nat) :
    (captureRead s i n).1.mgmt = s.mgmt ∧ (captureRead s i n).1.pending = s.pending := by
  constructor <;> rfl

theorem execCaptureQueueRead_keep (i : Fin 8) (n : Nat) (s : State) : okept s (execCaptureQueueRead i n s) := by
  (simp [execCaptureQueueRead]; done)

/-! ### Machine/Safe.lean -/

@[simp] theorem proxySliceLost_keep (s : State) (l : Nat) (v : Nat) :
    (proxySliceLost s l v).mgmt = s.mgmt ∧ (proxySliceLost s l v).pending = s.pending := by
  constructor <;> (unfold proxySliceLost; split <;> simp; done)

@[simp] theorem moverSliceLost_keep (s : State) (l : Nat) :
    (moverSliceLost s l).mgmt = s.mgmt ∧ (moverSliceLost s l).pending = s.pending := by
  unfold moverSliceLost
  dsimp only
  simp only [poolTurn_keep]
  refine foldl_from s _ _ _ (foldl_from s _ _ _ ⟨rfl, rfl⟩ fun t f => ?_) fun t e => ?_ <;> simp


@[simp] theorem remoteSliceLost_keep (s : State) (l : Nat) :
    (remoteSliceLost s l).mgmt = s.mgmt ∧ (remoteSliceLost s l).pending = s.pending :=
  foldl_keep _ _ _ fun t p => by
    split
    · split <;> simp
    · exact ⟨rfl, rfl⟩


@[simp] theorem sliceEmptied_keep (s : State) (l : Nat) :
    (sliceEmptied s l).mgmt = s.mgmt ∧ (sliceEmptied s l).pending = s.pending := by
  unfold sliceEmptied
  simp only [setSlice_keep]
  exact foldl_keep _ _ _ fun t v => foldl_from t _ _ _ (by simp) fun r h => by simp


@[simp] theorem sliceAnswered_keep (s : State) (l : Nat) :
    (sliceAnswered s l).mgmt = s.mgmt ∧ (sliceAnswered s l).pending = s.pending := by
  unfold sliceAnswered
  simp only [sliceEmptied_keep, remoteSliceLost_keep, moverSliceLost_keep]
  exact foldl_keep _ _ _ fun t v => by simp


@[simp] theorem trackerSafe_keep (s : State) (l : Nat) (t : Nat) (k : Tracker) :
    (trackerSafe s l t k).mgmt = s.mgmt ∧ (trackerSafe s l t k).pending = s.pending := by
  constructor <;> (unfold trackerSafe; (try dsimp only); (repeat' split) <;> (try dsimp only) <;> simp)

@[simp] theorem sliceSafe_keep (s : State) (l : Nat) :
    (sliceSafe s l).mgmt = s.mgmt ∧ (sliceSafe s l).pending = s.pending := by
  constructor <;> (simp [sliceSafe]; done)

@[simp] theorem dataPathSafe_keep (s : State) : (dataPathSafe s).mgmt = s.mgmt ∧ (dataPathSafe s).pending = s.pending := by
  unfold dataPathSafe
  simp only [moverSafe_keep]
  exact foldl_keep _ _ _ fun t l => by simp

/-! ### Machine/Faults.lean -/

@[simp] theorem isolationLogged_keep (s : State) (kind : Nat) (n : Nat) :
    (isolationLogged s kind n).mgmt = s.mgmt ∧ (isolationLogged s kind n).pending = s.pending := by
  constructor <;> (simp [isolationLogged]; done)

@[simp] theorem isolatePort_keep (s : State) (p : Nat) :
    (isolatePort s p).mgmt = s.mgmt ∧ (isolatePort s p).pending = s.pending := by
  constructor <;> (simp [isolatePort]; done)

@[simp] theorem isolateAulum_keep (s : State) (a : Nat) :
    (isolateAulum s a).mgmt = s.mgmt ∧ (isolateAulum s a).pending = s.pending := by
  constructor <;> (simp [isolateAulum]; done)

@[simp] theorem isolateIsland_keep (s : State) (k : Nat) :
    (isolateIsland s k).mgmt = s.mgmt ∧ (isolateIsland s k).pending = s.pending := by
  constructor <;> (simp [isolateIsland]; done)

@[simp] theorem isolateSlice_keep (s : State) (l : Nat) :
    (isolateSlice s l).mgmt = s.mgmt ∧ (isolateSlice s l).pending = s.pending := by
  constructor <;> (simp [isolateSlice]; done)

@[simp] theorem isolate_keep (s : State) (z1 : FaultUnit) :
    (isolate s z1).mgmt = s.mgmt ∧ (isolate s z1).pending = s.pending := by
  constructor <;> (unfold isolate; split <;> simp; done)

@[simp] theorem slotsSafe_keep (s : State) : (slotsSafe s).mgmt = s.mgmt ∧ (slotsSafe s).pending = s.pending :=
  foldl_keep _ _ _ fun t c => by
    dsimp only
    split <;> simp


@[simp] theorem enterSafe_keep (s : State) (cause : Nat) :
    (enterSafe s cause).mgmt = s.mgmt ∧ (enterSafe s cause).pending = s.pending := by
  constructor <;> (simp [enterSafe]; done)

@[simp] theorem logReport_keep (s : State) (f : Nat) (r : Report) :
    (logReport s f r).mgmt = s.mgmt ∧ (logReport s f r).pending = s.pending := by
  constructor <;> (simp [logReport]; done)

@[simp] theorem recordReport_keep (s : State) (f : Nat) (r : Report) :
    (recordReport s f r).mgmt = s.mgmt ∧ (recordReport s f r).pending = s.pending := by
  constructor <;> rfl

@[simp] theorem acknowledge_keep (s : State) (n : Nat) (sid : Nat) :
    (acknowledge s n sid).1.mgmt = s.mgmt ∧ (acknowledge s n sid).1.pending = s.pending := by
  constructor <;> (unfold acknowledge; (try dsimp only); (repeat' split) <;> (try dsimp only) <;> simp)

theorem execAcknowledgeC2Source_keep (n : BitVec 16) (sid : BitVec 32) (s : State) : okept s (execAcknowledgeC2Source n sid s) := by
  (simp [execAcknowledgeC2Source]; done)

theorem execEnterSafeState_keep (s : State) : okept s (execEnterSafeState s) := by
  (simp [execEnterSafeState]; done)

theorem execResetFjq9640_keep (s : State) : okept s (execResetFjq9640 s) := by
  (simp [execResetFjq9640]; done)

@[simp] theorem clearSticky_keep (s : State) (n : Nat) :
    (clearSticky s n).1.mgmt = s.mgmt ∧ (clearSticky s n).1.pending = s.pending := by
  constructor <;> (simp [clearSticky]; done)

theorem execClearStickyBit_keep (n : BitVec 16) (s : State) : okept s (execClearStickyBit n s) := by
  (simp [execClearStickyBit]; done)

@[simp] theorem clearLatch_keep (s : State) :
    (clearLatch s).mgmt = s.mgmt ∧ (clearLatch s).pending = s.pending := by
  constructor <;> (simp [clearLatch]; done)

theorem execClearFirstErrorLatch_keep (s : State) : okept s (execClearFirstErrorLatch s) := by
  (simp [execClearFirstErrorLatch]; done)

@[simp] theorem injectionUnlock_keep (s : State) (sid : Nat) :
    (injectionUnlock s sid).1.mgmt = s.mgmt ∧ (injectionUnlock s sid).1.pending = s.pending := by
  constructor <;> (unfold injectionUnlock; split <;> simp; done)

theorem execInjectionUnlock_keep (sid : BitVec 32) (s : State) : okept s (execInjectionUnlock sid s) := by
  (simp [execInjectionUnlock]; done)

@[simp] theorem injectionLock_keep (s : State) :
    (injectionLock s).mgmt = s.mgmt ∧ (injectionLock s).pending = s.pending := by
  constructor <;> rfl

theorem execInjectionLock_keep (s : State) : okept s (execInjectionLock s) := by
  (simp [execInjectionLock]; done)

@[simp] theorem injectFault_keep (s : State) (mode : Nat) (f : Nat) :
    (injectFault s mode f).1.mgmt = s.mgmt ∧ (injectFault s mode f).1.pending = s.pending := by
  constructor <;> (simp [injectFault]; done)

theorem execInjectStop_keep (f : BitVec 16) (s : State) : okept s (execInjectStop f s) := by
  (simp [execInjectStop]; done)

theorem execInjectOneShot_keep (f : BitVec 16) (s : State) : okept s (execInjectOneShot f s) := by
  (simp [execInjectOneShot]; done)

theorem execInjectContinuous_keep (f : BitVec 16) (s : State) : okept s (execInjectContinuous f s) := by
  (simp [execInjectContinuous]; done)

theorem execInjectRail_keep (f : BitVec 16) (s : State) : okept s (execInjectRail f s) := by
  (simp [execInjectRail]; done)

@[simp] theorem sourceConfig_keep (s : State) (rs : List (BitVec 64)) :
    (sourceConfig s rs).1.mgmt = s.mgmt ∧ (sourceConfig s rs).1.pending = s.pending := by
  constructor <;> (simp [sourceConfig]; done)

theorem execSourceConfigurationWrite_keep (rs : List (BitVec 64)) (s : State) : okept s (execSourceConfigurationWrite rs s) := by
  (simp [execSourceConfigurationWrite]; done)

theorem execCollectorSelfError_keep (s : State) : okept s (execCollectorSelfError s) := by
  (simp [execCollectorSelfError]; done)

theorem mk_keep (a : TimeState) (b : Tab Nat) (c : SprState) (d : FltState) (e : PowState) (f : MgmtState) (g : PerfState)
    (h : PinState) (i : FabState) (j : SwcState) (k : PortState) (l : HomeState) (m : ProxState) (n : DirState) (o : MapState)
    (p : AulState) (q : MovState) (r : VenState) (s : SecState) (t : Option LastMain) (u : List Out) (v : Nat) (w : List Instr) :
    (State.mk a b c d e f g h i j k l m n o p q r s t u v w).mgmt = f ∧
      (State.mk a b c d e f g h i j k l m n o p q r s t u v w).pending = w := ⟨rfl, rfl⟩
@[simp] theorem snapshotNow_keep (s : State) : (snapshotNow s).1.mgmt = s.mgmt ∧ (snapshotNow s).1.pending = s.pending := by
  unfold snapshotNow
  generalize s.flt.log.drop _ = l
  split
  · exact mk_keep ..
  · exact ⟨bumpC_mgmt .., bumpC_pending ..⟩


theorem execWriteSnapshotNow_keep (s : State) : okept s (execWriteSnapshotNow s) := by
  (simp [execWriteSnapshotNow]; done)

@[simp] theorem culletWithdraw_keep (s : State) (n : Nat) :
    (culletWithdraw s n).1.mgmt = s.mgmt ∧ (culletWithdraw s n).1.pending = s.pending := by
  constructor <;> (unfold culletWithdraw; (try dsimp only); (repeat' split) <;> (try dsimp only) <;> simp)

theorem execWithdrawPendingRecord_keep (n : BitVec 16) (s : State) : okept s (execWithdrawPendingRecord n s) := by
  (simp [execWithdrawPendingRecord]; done)

@[simp] theorem retireSlice_keep (s : State) (n : Nat) :
    (retireSlice s n).1.mgmt = s.mgmt ∧ (retireSlice s n).1.pending = s.pending := by
  constructor <;> (simp [retireSlice]; done)

theorem execRetirePhysicalSlice_keep (n : Byte) (s : State) : okept s (execRetirePhysicalSlice n s) := by
  (simp [execRetirePhysicalSlice]; done)

theorem execCulletWriteRetry_keep (s : State) : okept s (execCulletWriteRetry s) := by
  (simp [execCulletWriteRetry]; done)

theorem execCulletRecordWriteDone_keep (n : Fin 4096) (s : State) : okept s (execCulletRecordWriteDone n s) := by
  (unfold execCulletRecordWriteDone; (try dsimp only); (repeat' split) <;> (try dsimp only) <;> simp)

end Sys2Proof.Laws
end

