-- ==== Sys2Proof/Laws/FrameSprineno.lean ====
section
/-!
SUPPORT. Laws/FrameSprineno.lean: which operations keep the management complex and the queue of commands: security, the dictionary, requests, start-up.
-/

set_option Elab.async false
set_option linter.all false
set_option linter.unusedSimpArgs false

namespace Sys2Proof.Laws

open Sys2Proof.Machine

/-! ### Machine/Security.lean -/

@[simp] theorem raiseRollback_keep (s : State) (c : Nat) :
    (raiseRollback s c).1.mgmt = s.mgmt ∧ (raiseRollback s c).1.pending = s.pending := by
  constructor <;> (unfold raiseRollback; (try dsimp only); (repeat' split) <;> (try dsimp only) <;> simp)

theorem execRaiseRollbackCounter_keep (c : Byte) (s : State) : okept s (execRaiseRollbackCounter c s) := by
  (simp [execRaiseRollbackCounter]; done)

@[simp] theorem installImage_keep (s : State) (i : FwImage) :
    (installImage s i).1.mgmt = s.mgmt ∧ (installImage s i).1.pending = s.pending := by
  constructor <;> (simp [installImage]; done)

theorem execFirmwareImage_keep (sid : Option (BitVec 32)) (i : FwImage) (s : State) : okept s (execFirmwareImage sid i s) := by
  (unfold execFirmwareImage; (try dsimp only); (repeat' split) <;> (try dsimp only) <;> simp)

@[simp] theorem revokeSlot_keep (s : State) (sid : Nat) (k : Nat) :
    (revokeSlot s sid k).1.mgmt = s.mgmt ∧ (revokeSlot s sid k).1.pending = s.pending := by
  constructor <;> (simp [revokeSlot]; done)

theorem execRevokeKeySlot_keep (sid : BitVec 32) (k : Byte) (s : State) : okept s (execRevokeKeySlot sid k s) := by
  (simp [execRevokeKeySlot]; done)

@[simp] theorem certPackage_keep (s : State) (sid : Nat) (p : CertPackage) :
    (certPackage s sid p).1.mgmt = s.mgmt ∧ (certPackage s sid p).1.pending = s.pending := by
  constructor <;> (unfold certPackage; (try dsimp only); (repeat' split) <;> (try dsimp only) <;> simp)

theorem execCertifiedPackage_keep (sid : BitVec 32) (p : CertPackage) (s : State) : okept s (execCertifiedPackage sid p s) := by
  (simp [execCertifiedPackage]; done)

@[simp] theorem spdmAnswer_keep (s : State) (c : Nat) (x : SpdmConn) (r : SpdmReply) :
    (spdmAnswer s c x r).mgmt = s.mgmt ∧ (spdmAnswer s c x r).pending = s.pending := by
  constructor <;> rfl

theorem spdmReady_keep (s : State) (c : Nat) (f : SpdmConn → Nat → State)
    (hf : ∀ x k, (f x k).mgmt = s.mgmt ∧ (f x k).pending = s.pending) :
    (spdmReady s c f).mgmt = s.mgmt ∧ (spdmReady s c f).pending = s.pending := by
  unfold spdmReady
  dsimp only
  split
  · exact hf _ _
  · simp


theorem unlessLatched_keep (s : State) (c : Nat) (t : State) (h : t.mgmt = s.mgmt ∧ t.pending = s.pending) :
    (unlessLatched s c t).mgmt = s.mgmt ∧ (unlessLatched s c t).pending = s.pending := by
  unfold unlessLatched
  dsimp only
  split <;> simp [h]



@[simp] theorem spdmSign_keep (s : State) (c : Nat) (x : SpdmConn) (k : Nat) (r : SpdmReply) :
    (spdmSign s c x k r).mgmt = s.mgmt ∧ (spdmSign s c x k r).pending = s.pending := by
  constructor <;> (simp [spdmSign]; done)

theorem spdmRandom_keep (s : State) (c : Nat) (x : SpdmConn) (next : State)
    (hn : next.mgmt = s.mgmt ∧ next.pending = s.pending) :
    (spdmRandom s c x next).mgmt = s.mgmt ∧ (spdmRandom s c x next).pending = s.pending := by
  unfold spdmRandom
  split
  · simp
  · exact hn


theorem execGetVersion_keep (c : Nat) (s : State) : okept s (execGetVersion c s) := by
  (simp [execGetVersion]; done)

theorem execGetCapabilities_keep (c : Nat) (v : Byte) (s : State) : okept s (execGetCapabilities c v s) := by
  (unfold execGetCapabilities; (try dsimp only); (repeat' split) <;> (try dsimp only) <;> simp)

theorem execNegotiateAlgorithms_keep (c : Nat) (algs : List (BitVec 16)) (s : State) : okept s (execNegotiateAlgorithms c algs s) := by
  (unfold execNegotiateAlgorithms; (try dsimp only); (repeat' split) <;> (try dsimp only) <;> simp)

theorem execGetDigests_keep (c : Nat) (s : State) : okept s (execGetDigests c s) :=
  spdmReady_keep _ _ _ fun x k => by simp


theorem execGetCertificate_keep (c : Nat) (slot : Fin 16) (offset length : BitVec 16) (s : State) :
    okept s (execGetCertificate c slot offset length s) := by
  unfold execGetCertificate
  refine spdmReady_keep _ _ _ fun x k => ?_
  (repeat' split) <;> simp


theorem execChallenge_keep (c : Nat) (s : State) : okept s (execChallenge c s) :=
  spdmReady_keep _ _ _ fun x k => spdmRandom_keep _ _ _ _ (by simp)


theorem execGetMeasurements_keep (c : Nat) (op : Byte) (signed : Bool) (s : State) :
    okept s (execGetMeasurements c op signed s) := by
  unfold execGetMeasurements
  refine spdmReady_keep _ _ _ fun x k => ?_
  dsimp only
  split
  · simp
  · split
    · exact spdmRandom_keep _ _ _ _ (by simp)
    · simp


theorem execKeyExchange_keep (c : Nat) (s : State) : okept s (execKeyExchange c s) := by
  unfold execKeyExchange
  refine spdmReady_keep _ _ _ fun x k => ?_
  refine spdmRandom_keep _ _ _ _ ?_
  (repeat' split) <;> simp


theorem execFinish_keep (c : Nat) (sid : Nat) (verified : Bool) (s : State) : okept s (execFinish c sid verified s) := by
  (unfold execFinish; (try dsimp only); (repeat' split) <;> (try dsimp only) <;> simp)

@[simp] theorem spdmInSession_keep (s : State) (c : Nat) (sid : Nat) (r : SpdmReply) :
    (spdmInSession s c sid r).mgmt = s.mgmt ∧ (spdmInSession s c sid r).pending = s.pending := by
  constructor <;> (simp [spdmInSession]; done)

theorem execHeartbeat_keep (c : Nat) (sid : Nat) (s : State) : okept s (execHeartbeat c sid s) := by
  (simp [execHeartbeat]; done)

theorem execKeyUpdate_keep (c : Nat) (sid : Nat) (s : State) : okept s (execKeyUpdate c sid s) := by
  (simp [execKeyUpdate]; done)

@[simp] theorem spdmSessionEnds_keep (s : State) (sid : Nat) :
    (spdmSessionEnds s sid).mgmt = s.mgmt ∧ (spdmSessionEnds s sid).pending = s.pending := by
  constructor <;> rfl

theorem execEndSession_keep (c : Nat) (sid : Nat) (s : State) : okept s (execEndSession c sid s) := by
  (unfold execEndSession; (try dsimp only); (repeat' split) <;> (try dsimp only) <;> simp)

theorem execChunkSend_keep (c : Nat) (seq : Nat) (data : List Byte) (last : Bool) (s : State) : okept s (execChunkSend c seq data last s) := by
  (unfold execChunkSend; (try dsimp only); (repeat' split) <;> (try dsimp only) <;> simp)

theorem execChunkGet_keep (c : Nat) (seq : Nat) (total : Nat) (s : State) : okept s (execChunkGet c seq total s) := by
  (unfold execChunkGet; (try dsimp only); (repeat' split) <;> (try dsimp only) <;> simp)

theorem execVendorDefinedRequest_keep (c : Nat) (s : State) : okept s (execVendorDefinedRequest c s) :=
  spdmReady_keep _ _ _ fun x k => by simp


theorem execSpdmUnsupportedRequest_keep (c : Nat) (s : State) : okept s (execSpdmUnsupportedRequest c s) := by
  unfold execSpdmUnsupportedRequest
  rw [okept_next]
  exact unlessLatched_keep _ _ _ (by simp)



@[simp] theorem setIde_keep (s : State) (p : Nat) (y : IdePort) :
    (setIde s p y).mgmt = s.mgmt ∧ (setIde s p y).pending = s.pending := by
  constructor <;> first | rfl | (unfold setIde; rfl) | (simp [setIde]; done) | (unfold setIde; split <;> simp; done) | (unfold setIde; (try dsimp only); (repeat' split) <;> (try dsimp only) <;> simp) | (unfold setIde; (try dsimp only); (repeat' split) <;> (try dsimp only) <;> first | (simp; done) | (first | (simp; done) | (simp; grind only [eventPost_keep])) | (((try simp); first | refine (foldl_mgmt _ _ _ ?_).trans ?_ | refine (foldl_pending _ _ _ ?_).trans ?_ | refine (foldl_fst_mgmt _ _ _ ?_).trans ?_ | refine (foldl_fst_pending _ _ _ ?_).trans ?_) <;> (try intro t a) <;> (try dsimp only) <;> (repeat' split) <;> first | (simp; done) | (simp; grind only [eventPost_keep])))

theorem execIdeKm_keep (p : Fin 96) (c : Nat) (sid : Nat) (op : IdeOp) (s : State) : okept s (execIdeKm p c sid op s) := by
  (unfold execIdeKm; (try dsimp only); (repeat' split) <;> (try dsimp only) <;> simp)

theorem execIdeCheckFailure_keep (p : Fin 96) (s : State) : okept s (execIdeCheckFailure p s) := by
  (unfold execIdeCheckFailure; (try dsimp only); (repeat' split) <;> (try dsimp only) <;> simp)

@[simp] theorem debugChanged_keep (s : State) :
    (debugChanged s).mgmt = s.mgmt ∧ (debugChanged s).pending = s.pending := by
  constructor <;> (simp [debugChanged]; done)

@[simp] theorem presentToken_keep (s : State) (t : DebugToken) :
    (presentToken s t).1.mgmt = s.mgmt ∧ (presentToken s t).1.pending = s.pending := by
  constructor <;> (simp [presentToken]; done)

theorem execDebugToken_keep (sid : Option (BitVec 32)) (t : DebugToken) (s : State) : okept s (execDebugToken sid t s) := by
  (unfold execDebugToken; (try dsimp only); (repeat' split) <;> (try dsimp only) <;> simp)

@[simp] theorem lockDebug_keep (s : State) :
    (lockDebug s).mgmt = s.mgmt ∧ (lockDebug s).pending = s.pending := by
  constructor <;> (simp [lockDebug]; done)

theorem execLockDebug_keep (s : State) : okept s (execLockDebug s) := by
  (simp [execLockDebug]; done)

theorem execDebugTokenExpire_keep (s : State) : okept s (execDebugTokenExpire s) := by
  (simp [execDebugTokenExpire]; done)

theorem execHealthTestFailure_keep (s : State) : okept s (execHealthTestFailure s) := by
  (simp [execHealthTestFailure]; done)

/-! ### Machine/Entries.lean -/

@[simp] theorem shown_keep (s : State) :
    (shown s).mgmt = s.mgmt ∧ (shown s).pending = s.pending := by
  constructor <;> (unfold shown; split <;> simp; done)

@[simp] theorem odClear_keep (s : State) (idx : Nat) (sub : Nat) :
    (odClear s idx sub).mgmt = s.mgmt ∧ (odClear s idx sub).pending = s.pending := by
  constructor <;> rfl

@[simp] theorem setPlain_keep (s : State) (idx : Nat) (sub : Nat) (v : Nat) :
    (setPlain s idx sub v).1.mgmt = s.mgmt ∧ (setPlain s idx sub v).1.pending = s.pending := by
  constructor <;> rfl

@[simp] theorem setUnless_keep (s : State) (idx : Nat) (sub : Nat) (v : Nat) (p : Bool) (st : Status) :
    (setUnless s idx sub v p st).1.mgmt = s.mgmt ∧ (setUnless s idx sub v p st).1.pending = s.pending := by
  constructor <;> (simp [setUnless]; done)

@[simp] theorem addressWrite_keep (s : State) (e : Nat) (sub : Nat) (v : Nat) :
    (addressWrite s e sub v).1.mgmt = s.mgmt ∧ (addressWrite s e sub v).1.pending = s.pending := by
  constructor <;> (simp [addressWrite]; done)

@[simp] theorem traceEnable_keep (s : State) (v : Nat) :
    (traceEnable s v).mgmt = s.mgmt ∧ (traceEnable s v).pending = s.pending := by
  constructor <;> (simp [traceEnable]; done)

@[simp] theorem inputEnable_keep (s : State) (i : Nat) (v : Nat) :
    (inputEnable s i v).mgmt = s.mgmt ∧ (inputEnable s i v).pending = s.pending := by
  constructor <;> (simp [inputEnable]; done)

@[simp] theorem portEntryWrite_keep (s : State) (p sub v : Nat) :
    (portEntryWrite s p sub v).1.mgmt = s.mgmt ∧ (portEntryWrite s p sub v).1.pending = s.pending := by
  unfold portEntryWrite
  split <;> simp


@[simp] theorem writeLow_keep (s : State) (idx sub v : Nat) :
    (writeLow s idx sub v).1.mgmt = s.mgmt ∧ (writeLow s idx sub v).1.pending = s.pending := by
  unfold writeLow
  constructor <;> (repeat' split) <;> simp


@[simp] theorem assignmentWrite_keep (s : State) (n : Nat) (v : Nat) :
    (assignmentWrite s n v).1.mgmt = s.mgmt ∧ (assignmentWrite s n v).1.pending = s.pending := by
  constructor <;> (simp [assignmentWrite]; done)

@[simp] theorem logEnableWrite_keep (s : State) (c : Nat) (v : Nat) :
    (logEnableWrite s c v).1.mgmt = s.mgmt ∧ (logEnableWrite s c v).1.pending = s.pending := by
  constructor <;> (simp [logEnableWrite]; done)

@[simp] theorem writeLog_keep (s : State) (c : Nat) (idx : Nat) (sub : Nat) (v : Nat) :
    (writeLog s c idx sub v).1.mgmt = s.mgmt ∧ (writeLog s c idx sub v).1.pending = s.pending := by
  constructor <;> (unfold writeLog; split <;> simp; done)

@[simp] theorem writeMid_keep (s : State) (x : Session) (idx sub v : Nat) :
    (writeMid s x idx sub v).1.mgmt = s.mgmt ∧ (writeMid s x idx sub v).1.pending = s.pending := by
  unfold writeMid
  dsimp only
  (repeat' split) <;> first | exact ⟨rfl, rfl⟩ | simp


@[simp] theorem writeHigh_keep (s : State) (idx : Nat) (sub : Nat) (v : Nat) :
    (writeHigh s idx sub v).1.mgmt = s.mgmt ∧ (writeHigh s idx sub v).1.pending = s.pending := by
  constructor <;> (unfold writeHigh; (try dsimp only); (repeat' split) <;> (try dsimp only) <;> simp)

@[simp] theorem writeEntry_keep (s : State) (x : Session) (idx : Nat) (sub : Nat) (v : Nat) :
    (writeEntry s x idx sub v).1.mgmt = s.mgmt ∧ (writeEntry s x idx sub v).1.pending = s.pending := by
  constructor <;> (simp [writeEntry]; done)

@[simp] theorem writeOctets_keep (s : State) (x : Session) (idx : Nat) (sub : Nat) (b : List Byte) :
    (writeOctets s x idx sub b).1.mgmt = s.mgmt ∧ (writeOctets s x idx sub b).1.pending = s.pending := by
  constructor <;> (simp [writeOctets]; done)

@[simp] theorem portCommand_keep (s : State) (p : Nat) (arg : Nat) :
    (portCommand s p arg).1.mgmt = s.mgmt ∧ (portCommand s p arg).1.pending = s.pending := by
  constructor <;> (unfold portCommand; split <;> simp; done)

@[simp] theorem bindCommand_keep (s : State) (x : Session) (arg : Nat) :
    (bindCommand s x arg).1.mgmt = s.mgmt ∧ (bindCommand s x arg).1.pending = s.pending := by
  constructor <;> (unfold bindCommand; split <;> simp; done)

@[simp] theorem queueMoveEntry_keep (s : State) (x : Session) :
    (queueMoveEntry s x).1.mgmt = s.mgmt ∧ (queueMoveEntry s x).1.pending = s.pending := by
  constructor <;> (simp [queueMoveEntry]; done)

@[simp] theorem shareMoveEntry_keep (s : State) (x : Session) :
    (shareMoveEntry s x).1.mgmt = s.mgmt ∧ (shareMoveEntry s x).1.pending = s.pending := by
  constructor <;> (simp [shareMoveEntry]; done)

@[simp] theorem setMoveEntry_keep (s : State) (x : Session) :
    (setMoveEntry s x).1.mgmt = s.mgmt ∧ (setMoveEntry s x).1.pending = s.pending := by
  constructor <;> (simp [setMoveEntry]; done)

@[simp] theorem commandLow_keep (s : State) (x : Session) (idx : Nat) (sub : Nat) (arg : Nat) :
    (commandLow s x idx sub arg).1.mgmt = s.mgmt ∧ (commandLow s x idx sub arg).1.pending = s.pending := by
  constructor <;> (unfold commandLow; split <;> simp; done)

@[simp] theorem resetBitmapEntry_keep (s : State) (c : Nat) :
    (resetBitmapEntry s c).1.mgmt = s.mgmt ∧ (resetBitmapEntry s c).1.pending = s.pending := by
  constructor <;> (simp [resetBitmapEntry]; done)

@[simp] theorem commandMid_keep (s : State) (x : Session) (idx : Nat) (sub : Nat) :
    (commandMid s x idx sub).1.mgmt = s.mgmt ∧ (commandMid s x idx sub).1.pending = s.pending := by
  constructor <;> (unfold commandMid; split <;> simp; done)

@[simp] theorem commandHigh_keep (s : State) (x : Session) (idx : Nat) (sub : Nat) (arg : Nat) :
    (commandHigh s x idx sub arg).1.mgmt = s.mgmt ∧ (commandHigh s x idx sub arg).1.pending = s.pending := by
  constructor <;> (unfold commandHigh; (try dsimp only); (repeat' split) <;> (try dsimp only) <;> simp)

@[simp] theorem commandEntry_keep (s : State) (x : Session) (idx : Nat) (sub : Nat) (arg : Nat) :
    (commandEntry s x idx sub arg).1.mgmt = s.mgmt ∧ (commandEntry s x idx sub arg).1.pending = s.pending := by
  constructor <;> (simp [commandEntry]; done)

@[simp] theorem snapMark_keep (s : State) (x : Session) (m : Option Nat) :
    (snapMark s x m).mgmt = s.mgmt ∧ (snapMark s x m).pending = s.pending := by
  constructor <;> rfl

@[simp] theorem readDomain_keep (s : State) (x : Session) (idx : Nat) (_sub : Nat) (o : Nat) (n : Nat) :
    (readDomain s x idx _sub o n).1.mgmt = s.mgmt ∧ (readDomain s x idx _sub o n).1.pending = s.pending := by
  constructor <;> (simp [readDomain]; done)

@[simp] theorem writeDomain_keep (s : State) (_x : Session) (idx : Nat) (sub : Nat) (b : List Byte) :
    (writeDomain s _x idx sub b).1.mgmt = s.mgmt ∧ (writeDomain s _x idx sub b).1.pending = s.pending := by
  constructor <;> (unfold writeDomain; split <;> simp; done)

@[simp] theorem applySegment_keep (s : State) (x : Session) (idx : Nat) (_sub : Nat) (before : List Byte) (data : List Byte) (last : Bool) :
    (applySegment s x idx _sub before data last).1.mgmt = s.mgmt ∧ (applySegment s x idx _sub before data last).1.pending = s.pending := by
  constructor <;> (unfold applySegment; (try dsimp only); (repeat' split) <;> (try dsimp only) <;> simp)

/-! ### Machine/Sprineno.lean -/

@[simp] theorem updSession_keep (s : State) (id : Nat) (f : Session → Session) :
    (updSession s id f).mgmt = s.mgmt ∧ (updSession s id f).pending = s.pending := by
  constructor <;> rfl

@[simp] theorem sendAnswer_keep (s : State) (via : Transport) (st : Status) (msg : List Byte) :
    (sendAnswer s via st msg).mgmt = s.mgmt ∧ (sendAnswer s via st msg).pending = s.pending := by
  constructor <;> (simp [sendAnswer]; done)

@[simp] theorem finish_keep (s : State) (id : Nat) (seq : Nat) (reqId : Nat) (type : Nat) (via : Transport) (st : Status) (body : List Byte) :
    (finish s id seq reqId type via st body).mgmt = s.mgmt ∧ (finish s id seq reqId type via st body).pending = s.pending := by
  constructor <;> (simp [finish]; done)

theorem withRequest_keep (s : State) (r : Req) (type since : Nat)
    (f : State → Session → State × Option (Status × List Byte))
    (hf : ∀ s x, (f s x).1.mgmt = s.mgmt ∧ (f s x).1.pending = s.pending) :
    (withRequest s r type since f).mgmt = s.mgmt ∧ (withRequest s r type since f).pending = s.pending := by
  unfold withRequest
  split
  · exact ⟨rfl, rfl⟩
  · split
    · simp
    · split
      · simp
      · split
        · simp
        · extract_lets s0 x fresh s1
          have k1 : s1.mgmt = s.mgmt ∧ s1.pending = s.pending := by simp [s1, s0]
          have k0 : s0.mgmt = s.mgmt ∧ s0.pending = s.pending := by simp [s0]
          have k2 := hf s1 { x with high := some r.seq }
          generalize f s1 { x with high := some r.seq } = q at k2 ⊢
          clear_value s0 s1 x fresh
          obtain ⟨s2, o⟩ := q
          cases o with
          | none => (repeat' split) <;> simp_all
          | some a => (repeat' split) <;> simp_all


theorem execHello_keep (seq : BitVec 32) (reqId : BitVec 32) (via : Transport) (pmax : BitVec 16) (omax : BitVec 16) (mode : Mode) (maxMsg : BitVec 32) (name : List Byte) (spdm : Option Nat) (s : State) : okept s (execHello seq reqId via pmax omax mode maxMsg name spdm s) := by
  (unfold execHello; (try dsimp only); (repeat' split) <;> (try dsimp only) <;> simp)

theorem execBye_keep (r : Req) (s : State) : okept s (execBye r s) :=
  withRequest_keep _ _ _ _ _ fun t x => by simp


theorem execKeepalive_keep (r : Req) (s : State) : okept s (execKeepalive r s) :=
  withRequest_keep _ _ _ _ _ fun t x => ⟨rfl, rfl⟩


theorem execSessionTimeout_keep (id : BitVec 32) (s : State) : okept s (execSessionTimeout id s) := by
  (simp [execSessionTimeout]; done)

theorem execUsbDetach_keep (s : State) : okept s (execUsbDetach s) := by
  (simp [execUsbDetach]; done)

@[simp] theorem readItem_keep (s : State) (x : Session) (idx : Nat) (sub : Nat) :
    (readItem s x idx sub).1.mgmt = s.mgmt ∧ (readItem s x idx sub).1.pending = s.pending := by
  constructor <;> (unfold readItem; (try dsimp only); (repeat' split) <;> (try dsimp only) <;> simp)

@[simp] theorem readItems_keep (s : State) (x : Session) (l : List (Nat × Nat)) :
    (readItems s x l).1.mgmt = s.mgmt ∧ (readItems s x l).1.pending = s.pending := by
  induction l generalizing s with
  | nil => exact ⟨rfl, rfl⟩
  | cons q l ih =>
    have h := readItem_keep s x q.1 q.2
    simp [readItems, ih, h]


theorem execRead_keep (r : Req) (items : List (BitVec 16 × Byte)) (s : State) : okept s (execRead r items s) :=
  withRequest_keep _ _ _ _ _ fun t x => by split <;> simp


@[simp] theorem writeItem_keep (s : State) (x : Session) (w : WriteItem) :
    (writeItem s x w).1.mgmt = s.mgmt ∧ (writeItem s x w).1.pending = s.pending := by
  constructor <;> (unfold writeItem; (try dsimp only); (repeat' split) <;> (try dsimp only) <;> simp)

@[simp] theorem countStored_keep (s : State) (idx : Nat) (sub : Nat) :
    (countStored s idx sub).mgmt = s.mgmt ∧ (countStored s idx sub).pending = s.pending := by
  constructor <;> (unfold countStored; split <;> simp; done)

@[simp] theorem writeItems_keep (s : State) (x : Session) (l : List WriteItem) :
    (writeItems s x l).1.mgmt = s.mgmt ∧ (writeItems s x l).1.pending = s.pending := by
  induction l generalizing s x with
  | nil => exact ⟨rfl, rfl⟩
  | cons w l ih =>
    have h := writeItem_keep s x w
    unfold writeItems
    generalize writeItem s x w = q at h ⊢
    obtain ⟨s1, st⟩ := q
    by_cases e : st = .ok
    · subst e
      have k := ih (countStored s1 w.index w.sub) ((session? s1 x.id).getD x)
      dsimp only at h ⊢
      rw [k.1, k.2]
      simpa using h
    · split
      · rename_i e'; cases e'; exact absurd rfl e
      · rename_i e'; cases e'; exact h


theorem execWrite_keep (r : Req) (items : List WriteItem) (s : State) : okept s (execWrite r items s) :=
  withRequest_keep _ _ _ _ _ fun t x => by split <;> simp


theorem execDescribe_keep (r : Req) (idx : BitVec 16) (sub : Byte) (s : State) : okept s (execDescribe r idx sub s) :=
  withRequest_keep _ _ _ _ _ fun t x => by (repeat' split) <;> simp


theorem execSegRead_keep (r : Req) (idx : BitVec 16) (sub : Byte) (offset length : BitVec 32) (s : State) :
    okept s (execSegRead r idx sub offset length s) :=
  withRequest_keep _ _ _ _ _ fun t x => by
    have h := readDomain_keep t x idx.toNat sub.toNat offset.toNat (min length.toNat (x.maxMessage - 20))
    generalize readDomain t x idx.toNat sub.toNat offset.toNat (min length.toNat (x.maxMessage - 20)) = q at h ⊢
    (repeat' split) <;> first | exact ⟨rfl, rfl⟩ | exact h


@[simp] theorem endSeg_keep (s : State) (idx : Nat) (sub : Nat) :
    (endSeg s idx sub).mgmt = s.mgmt ∧ (endSeg s idx sub).pending = s.pending := by
  constructor <;> rfl

@[simp] theorem segTake_keep (s : State) (x : Session) (rw : Bool) (g : SegWrite) (last : Bool) (data : List Byte) :
    (segTake s x rw g last data).1.mgmt = s.mgmt ∧ (segTake s x rw g last data).1.pending = s.pending := by
  unfold segTake
  dsimp only
  split
  · simp
  · generalize h : (if rw = true then _ else _ : State × Status) = r
    have k : r.1.mgmt = s.mgmt ∧ r.1.pending = s.pending := by
      rw [← h]; split <;> simp
    split
    · split
      · split <;> simpa using k
      · simpa using k
    · simpa using k


theorem execSegWrite_keep (r : Req) (idx : BitVec 16) (sub : Byte) (first last : Bool) (offset total : BitVec 32)
    (data : List Byte) (s : State) : okept s (execSegWrite r idx sub first last offset total data s) :=
  withRequest_keep _ _ _ _ _ fun t x => by
    dsimp only
    (repeat' split) <;> simp


theorem execSubscribe_keep (r : Req) (kind : Fin 256) (sub : Byte) (idx : BitVec 16) (interval : BitVec 32) (s : State) :
    okept s (execSubscribe r kind sub idx interval s) :=
  withRequest_keep _ _ _ _ _ fun t x => by
    dsimp only
    (repeat' split) <;> simp


theorem execUnsubscribe_keep (r : Req) (n : BitVec 16) (s : State) : okept s (execUnsubscribe r n s) :=
  withRequest_keep _ _ _ _ _ fun t x => by (repeat' split) <;> simp


@[simp] theorem sendNotify_keep (s : State) (id : Nat) :
    (sendNotify s id).mgmt = s.mgmt ∧ (sendNotify s id).pending = s.pending := by
  constructor <;> (unfold sendNotify; split <;> simp; done)

theorem execNotify_keep (id : BitVec 32) (s : State) : okept s (execNotify id s) := by
  (unfold execNotify; (try dsimp only); (repeat' split) <;> (try dsimp only) <;> simp)

theorem execMailboxNotifyFetch_keep (v : Fin 64) (s : State) : okept s (execMailboxNotifyFetch v s) := by
  (unfold execMailboxNotifyFetch; (try dsimp only); (repeat' split) <;> (try dsimp only) <;> simp)

@[simp] theorem startImage_keep (s : State) (w : ImageWrite) (checkOnly : Bool) :
    (startImage s w checkOnly).1.mgmt = s.mgmt ∧ (startImage s w checkOnly).1.pending = s.pending := by
  constructor <;> (simp [startImage]; done)

theorem execCommit_keep (r : Req) (options : Byte) (s : State) : okept s (execCommit r options s) :=
  withRequest_keep _ _ _ _ _ fun t x => by simp


@[simp] theorem defaultImage_keep (s : State) (asker : Option (Nat × Nat)) (reqId : Nat) (arg : Nat) :
    (defaultImage s asker reqId arg).1.mgmt = s.mgmt ∧ (defaultImage s asker reqId arg).1.pending = s.pending := by
  constructor <;> (simp [defaultImage]; done)

theorem execWriteDefaultImage_keep (arg : Byte) (s : State) : okept s (execWriteDefaultImage arg s) := by
  unfold execWriteDefaultImage
  have h := defaultImage_keep s none 0 arg.toNat
  split <;> (rename_i e; rw [e] at h; simpa using h)


@[simp] theorem commitDone_keep (s : State) (w : ImageWrite) :
    (commitDone s w).mgmt = s.mgmt ∧ (commitDone s w).pending = s.pending := by
  constructor <;> (unfold commitDone; (try dsimp only); (repeat' split) <;> (try dsimp only) <;> simp)

theorem execCommitWriteDone_keep (s : State) : okept s (execCommitWriteDone s) := by
  (unfold execCommitWriteDone; (try dsimp only); (repeat' split) <;> (try dsimp only) <;> simp)

theorem execCommand_keep (r : Req) (idx : BitVec 16) (sub : Byte) (type : Byte) (arg : BitVec 64) (s : State) :
    okept s (execCommand r idx sub type arg s) :=
  withRequest_keep _ _ _ _ _ fun t x => by
    dsimp only
    (repeat' split) <;> simp

/-! ### Machine/Startup.lean -/

@[simp] theorem bootKind_keep (s : State) (k : Nat) (b : Bool) :
    (bootKind s k b).mgmt = s.mgmt ∧ (bootKind s k b).pending = s.pending := by
  constructor <;> (simp [bootKind]; done)

@[simp] theorem bootFails_keep (s : State) :
    (bootFails s).mgmt = s.mgmt ∧ (bootFails s).pending = s.pending := by
  constructor <;> rfl

@[simp] theorem loadEntries_keep (s : State) (im : ImageSlot) :
    (loadEntries s im).mgmt = s.mgmt ∧ (loadEntries s im).pending = s.pending := by
  constructor <;> rfl

@[simp] theorem loadRoutes_keep (s : State) (im : ImageSlot) :
    (loadRoutes s im).mgmt = s.mgmt ∧ (loadRoutes s im).pending = s.pending := by
  constructor <;> rfl

@[simp] theorem loadSets_keep (s : State) (im : ImageSlot) :
    (loadSets s im).mgmt = s.mgmt ∧ (loadSets s im).pending = s.pending := by
  constructor <;> rfl

@[simp] theorem showSlots_keep (s : State) :
    (showSlots s).mgmt = s.mgmt ∧ (showSlots s).pending = s.pending := by
  constructor <;> rfl

@[simp] theorem imageCheck_keep (s : State) :
    (imageCheck s).mgmt = s.mgmt ∧ (imageCheck s).pending = s.pending := by
  constructor <;> (simp [imageCheck]; done)

@[simp] theorem nameAll_keep (s : State) : (nameAll s).mgmt = s.mgmt ∧ (nameAll s).pending = s.pending :=
  foldl_keep _ _ _ fun t p => by split <;> simp


@[simp] theorem slotsStart_keep (s : State) : (slotsStart s).mgmt = s.mgmt ∧ (slotsStart s).pending = s.pending :=
  foldl_keep _ _ _ fun t c => by split <;> simp


@[simp] theorem reservoirMeasured_keep (s : State) (uf : Nat) :
    (reservoirMeasured s uf).mgmt = s.mgmt ∧ (reservoirMeasured s uf).pending = s.pending := by
  constructor <;> (simp [reservoirMeasured]; done)

@[simp] theorem startDictionary_keep (s : State) (f : StartupFind) :
    (startDictionary s f).mgmt = s.mgmt ∧ (startDictionary s f).pending = s.pending := by
  simp [startDictionary]


@[simp] theorem countersRestart_keep (s : State) :
    (countersRestart s).mgmt = s.mgmt ∧ (countersRestart s).pending = s.pending := by
  constructor <;> rfl

@[simp] theorem statesStart_keep (s : State) : (statesStart s).mgmt = s.mgmt ∧ (statesStart s).pending = s.pending := by
  unfold statesStart
  dsimp only
  refine foldl_from s _ _ _ (foldl_from s _ _ _ (foldl_keep _ _ _ fun t k => ?_) fun t v => ?_) fun t a => ?_ <;> simp


@[simp] theorem limitsStart_keep (s : State) : (limitsStart s).mgmt = s.mgmt ∧ (limitsStart s).pending = s.pending := by
  unfold limitsStart
  have h := bufferCommit_keep s
  split <;> (rename_i e; rw [e] at h)
  · exact foldl_from s _ _ _ h fun t d => by simp
  · simpa using h


@[simp] theorem stagesStart_keep (s : State) : (stagesStart s).mgmt = s.mgmt ∧ (stagesStart s).pending = s.pending :=
  foldl_keep _ _ _ fun t i => by simp


@[simp] theorem startMain_keep (s : State) : (startMain s).mgmt = s.mgmt ∧ (startMain s).pending = s.pending := by
  simp [startMain]


@[simp] theorem culletActive_keep (s : State) :
    (culletActive s).mgmt = s.mgmt ∧ (culletActive s).pending = s.pending := by
  constructor <;> rfl

@[simp] theorem retiredWay_keep (s : State) (loc : Nat) :
    (retiredWay s loc).mgmt = s.mgmt ∧ (retiredWay s loc).pending = s.pending := by
  constructor <;> (unfold retiredWay; split <;> simp; done)

@[simp] theorem bypassStop_keep (retired : List Nat) (r : State × Bool) (n : Nat) :
    (bypassStop retired r n).1.mgmt = r.1.mgmt ∧ (bypassStop retired r n).1.pending = r.1.pending := by
  unfold bypassStop
  dsimp only
  split <;> simp
@[simp] theorem selfTestDefect_keep (r : State × Bool) (d : SelfTestDefect) :
    (selfTestDefect r d).1.mgmt = r.1.mgmt ∧ (selfTestDefect r d).1.pending = r.1.pending := by
  unfold selfTestDefect
  dsimp only
  (repeat' split) <;> simp
@[simp] theorem culletApply_keep (s : State) : (culletApply s).1.mgmt = s.mgmt ∧ (culletApply s).1.pending = s.pending := by
  unfold culletApply
  dsimp only
  refine foldl_fst_from s _ _ _ ?_ fun x a => bypassStop_keep _ _ _
  exact foldl_from s _ _ _ (by simp) fun t a => by simp


@[simp] theorem startupStops_keep (s : State) :
    (startupStops s).mgmt = s.mgmt ∧ (startupStops s).pending = s.pending := by
  constructor <;> rfl

@[simp] theorem startSelfTest_keep (s : State) (f : StartupFind) :
    (startSelfTest s f).mgmt = s.mgmt ∧ (startSelfTest s f).pending = s.pending := by
  unfold startSelfTest
  have h : (f.defects.foldl selfTestDefect (culletApply s)).1.mgmt = s.mgmt ∧
      (f.defects.foldl selfTestDefect (culletApply s)).1.pending = s.pending :=
    foldl_fst_from s _ _ _ (culletApply_keep s) fun x a => selfTestDefect_keep x a
  dsimp only
  split <;> simpa using h


@[simp] theorem startMemory_keep (s : State) (f : StartupFind) :
    (startMemory s f).mgmt = s.mgmt ∧ (startMemory s f).pending = s.pending := by
  constructor <;> (unfold startMemory; split <;> simp; done)

@[simp] theorem startRange_keep (s : State) (i : Nat) (base : Nat) (limit : Nat) (vcs : BitVec 64) (sw : List Nat) :
    (startRange s i base limit vcs sw).mgmt = s.mgmt ∧ (startRange s i base limit vcs sw).pending = s.pending := by
  constructor <;> rfl

@[simp] theorem startRecovery_keep (s : State) :
    (startRecovery s).mgmt = s.mgmt ∧ (startRecovery s).pending = s.pending := by
  constructor <;> (simp [startRecovery]; done)

@[simp] theorem startDirectory_keep (s : State) :
    (startDirectory s).mgmt = s.mgmt ∧ (startDirectory s).pending = s.pending := by
  constructor <;> (simp [startDirectory]; done)

@[simp] theorem drawEpochs_keep (s : State) : (drawEpochs s).mgmt = s.mgmt ∧ (drawEpochs s).pending = s.pending := by
  unfold drawEpochs
  exact foldl_from s _ _ _ (by simp) fun t a => by simp


@[simp] theorem perstAtStart_keep (s : State) (p : Nat) :
    (perstAtStart s p).mgmt = s.mgmt ∧ (perstAtStart s p).pending = s.pending := by
  constructor <;> first | rfl | (unfold perstAtStart; rfl) | (simp [perstAtStart]; done) | (unfold perstAtStart; split <;> simp; done) | (unfold perstAtStart; (try dsimp only); (repeat' split) <;> (try dsimp only) <;> simp) | (unfold perstAtStart; (try dsimp only); (repeat' split) <;> (try dsimp only) <;> first | (simp; done) | (first | (simp; done) | (simp; grind only [eventPost_keep])) | (((try simp); first | refine (foldl_mgmt _ _ _ ?_).trans ?_ | refine (foldl_pending _ _ _ ?_).trans ?_ | refine (foldl_fst_mgmt _ _ _ ?_).trans ?_ | refine (foldl_fst_pending _ _ _ ?_).trans ?_) <;> (try intro t a) <;> (try dsimp only) <;> (repeat' split) <;> first | (simp; done) | (simp; grind only [eventPost_keep])))

@[simp] theorem trainAll_keep (s : State) : (trainAll s).mgmt = s.mgmt ∧ (trainAll s).pending = s.pending := by
  unfold trainAll
  exact foldl_from s _ _ _ (foldl_keep _ _ _ fun t p => by simp) fun t a => by split <;> simp


@[simp] theorem startLinks_keep (s : State) : (startLinks s).mgmt = s.mgmt ∧ (startLinks s).pending = s.pending := by
  simp [startLinks]


@[simp] theorem startReady_keep (s : State) :
    (startReady s).mgmt = s.mgmt ∧ (startReady s).pending = s.pending := by
  constructor <;> (simp [startReady]; done)

theorem execResetNFall_keep (s : State) : okept s (execResetNFall s) := by
  (unfold execResetNFall; (try dsimp only); (repeat' split) <;> (try dsimp only) <;> simp)

end Sys2Proof.Laws
end

