-- ==== Sys2Proof/Laws/Management.lean ====
section
/-!
SUPPORT. Laws/Management.lean: what the operations that reach the management complex leave: the queue of commands, and the
transactions that its masters have outstanding.
-/

namespace Sys2Proof.Laws

open Sys2Proof.Machine

/-! ### One core, one bus error -/

@[simp] theorem setCore_pending (s : State) (k : Nat) (c : CoreSt) : (setCore s k c).pending = s.pending := rfl
@[simp] theorem setCore_outstanding (s : State) (k : Nat) (c : CoreSt) :
    (setCore s k c).mgmt.outstanding = s.mgmt.outstanding := rfl
@[simp] theorem setCore_sram (s : State) (k : Nat) (c : CoreSt) : (setCore s k c).mgmt.sram = s.mgmt.sram := rfl

@[simp] theorem busError_pending (s : State) (m i a : Nat) (e : BusErr) : (busError s m i a e).pending = s.pending := by
  unfold busError; dsimp only; split <;> simp
@[simp] theorem busError_outstanding (s : State) (m i a : Nat) (e : BusErr) :
    (busError s m i a e).mgmt.outstanding = s.mgmt.outstanding := by
  unfold busError; dsimp only; split <;> simp
@[simp] theorem busError_sram (s : State) (m i a : Nat) (e : BusErr) : (busError s m i a e).mgmt.sram = s.mgmt.sram := by
  unfold busError; dsimp only; split <;> simp

@[simp] theorem mpuFault_pending (s : State) (m i : Nat) (k : BusKind) (p : Nat) : (mpuFault s m i k p).pending = s.pending := by
  simp [mpuFault]
@[simp] theorem mpuFault_outstanding (s : State) (m i : Nat) (k : BusKind) (p : Nat) :
    (mpuFault s m i k p).mgmt.outstanding = s.mgmt.outstanding := by simp [mpuFault]
@[simp] theorem mpuCommit_pending (s : State) (k : Nat) : (mpuCommit s k).pending = s.pending := by simp [mpuCommit]
@[simp] theorem mpuCommit_outstanding (s : State) (k : Nat) : (mpuCommit s k).mgmt.outstanding = s.mgmt.outstanding := by
  simp [mpuCommit]
@[simp] theorem mpuCopy_pending (s : State) (k : Nat) : (mpuCopy s k).pending = s.pending := by simp [mpuCopy]
@[simp] theorem mpuCopy_outstanding (s : State) (k : Nat) : (mpuCopy s k).mgmt.outstanding = s.mgmt.outstanding := by simp [mpuCopy]
@[simp] theorem busData_pending (s : State) (m i : Nat) (d : List Byte) : (busData s m i d).pending = s.pending := rfl
@[simp] theorem busData_mgmt (s : State) (m i : Nat) (d : List Byte) : (busData s m i d).mgmt = s.mgmt := rfl
@[simp] theorem busAck_pending (s : State) (m i : Nat) : (busAck s m i).pending = s.pending := rfl
@[simp] theorem busAck_mgmt (s : State) (m i : Nat) : (busAck s m i).mgmt = s.mgmt := rfl

@[simp] theorem sramWrite_pending (ok : Nat → Bool) (l : List Byte) :
    ∀ (s : State) (a : Nat), (sramWrite s ok a l).pending = s.pending := by
  induction l with
  | nil => intro s a; rfl
  | cons b l ih => intro s a; simp only [sramWrite]; rw [ih]; split <;> rfl
@[simp] theorem sramWrite_outstanding (ok : Nat → Bool) (l : List Byte) :
    ∀ (s : State) (a : Nat), (sramWrite s ok a l).mgmt.outstanding = s.mgmt.outstanding := by
  induction l with
  | nil => intro s a; rfl
  | cons b l ih => intro s a; simp only [sramWrite]; rw [ih]; split <;> rfl
@[simp] theorem sramWrite_sec (ok : Nat → Bool) (l : List Byte) :
    ∀ (s : State) (a : Nat), (sramWrite s ok a l).sec = s.sec := by
  induction l with
  | nil => intro s a; rfl
  | cons b l ih => intro s a; simp only [sramWrite]; rw [ih]; split <;> rfl

/-- What the SRAM holds without a write depends on the running firmware alone. -/
theorem sramLoaded_of_sec {s t : State} (h : t.sec = s.sec) : sramLoaded t = sramLoaded s := by
  funext a; simp only [sramLoaded, h]

/-- R366, R369: a write keeps the canonical form of the SRAM, whichever bytes the MPU lets through. -/
theorem sramWrite_wf (ok : Nat → Bool) (l : List Byte) :
    ∀ (s : State) (a : Nat), Memory.wf (sramLoaded s) s.mgmt.sram = true →
      Memory.wf (sramLoaded s) (sramWrite s ok a l).mgmt.sram = true := by
  induction l with
  | nil => intro s a h; exact h
  | cons b l ih =>
    intro s a h
    simp only [sramWrite]
    split
    · exact ih { s with mgmt := { s.mgmt with sram := tabSet (sramLoaded s a) a b s.mgmt.sram } } _ (Memory.wf_set _ _ _ _ h)
    · exact ih _ _ h

theorem reset_sram_wf : Memory.wf (sramLoaded State.reset) State.reset.mgmt.sram = true := rfl

/-! ### Accesses -/

@[simp] theorem agentWritten_kept (s : State) : (agentWritten s).pending = s.pending ∧ (agentWritten s).mgmt = s.mgmt := by
  unfold agentWritten; dsimp only; split <;> simp

theorem apertureAccess_kept (s : State) (m i o : Nat) (k : BusKind) :
    (apertureAccess s m i o k).pending = s.pending ∧ (apertureAccess s m i o k).mgmt.outstanding = s.mgmt.outstanding := by
  unfold apertureAccess
  dsimp only
  repeat' split
  all_goals simp

@[simp] theorem sramAtomic_pending (s : State) (m i a : Nat) (c : Option (List Byte)) (d : List Byte) :
    (sramAtomic s m i a c d).pending = s.pending := by
  unfold sramAtomic; dsimp only; repeat' split
  all_goals simp
@[simp] theorem sramAtomic_outstanding (s : State) (m i a : Nat) (c : Option (List Byte)) (d : List Byte) :
    (sramAtomic s m i a c d).mgmt.outstanding = s.mgmt.outstanding := by
  unfold sramAtomic; dsimp only; repeat' split
  all_goals simp

@[simp] theorem mpuRegAccess_pending (s : State) (m i a : Nat) (k : BusKind) : (mpuRegAccess s m i a k).pending = s.pending := by
  unfold mpuRegAccess; dsimp only; repeat' split
  all_goals simp
@[simp] theorem mpuRegAccess_outstanding (s : State) (m i a : Nat) (k : BusKind) :
    (mpuRegAccess s m i a k).mgmt.outstanding = s.mgmt.outstanding := by
  unfold mpuRegAccess; dsimp only; repeat' split
  all_goals simp

theorem eventPost_kept (s t : State) (c : Nat) (d : BitVec 192) (h : eventPost s c d = some t) :
    t.pending = s.pending ∧ t.mgmt = s.mgmt := by
  unfold eventPost at h
  split at h
  · cases h; simp
  · cases h

theorem serveTarget_kept (s : State) (r : BusReq) (t : Target) (ok : Nat → Bool) :
    (serveTarget s r t ok).pending = s.pending ∧ (serveTarget s r t ok).mgmt.outstanding = s.mgmt.outstanding := by
  unfold serveTarget
  dsimp only
  split
  all_goals first
    | exact apertureAccess_kept ..
    | (repeat' split) <;> first
        | (simp; done)
        | (rename_i h; have := eventPost_kept _ _ _ _ h; simp [this])

@[simp] theorem lockedAccess_pending (s : State) (i a : Nat) (k : BusKind) : (lockedAccess s i a k).pending = s.pending := by
  simp [lockedAccess]
@[simp] theorem lockedAccess_outstanding (s : State) (i a : Nat) (k : BusKind) :
    (lockedAccess s i a k).mgmt.outstanding = s.mgmt.outstanding := by simp [lockedAccess]

/-- The crossbar's own answers leave the queue and the outstanding transactions. -/
theorem crossbar_kept (s u : State) (r : BusReq) (h : crossbar s r = .inl u) :
    u.pending = s.pending ∧ u.mgmt.outstanding = s.mgmt.outstanding := by
  unfold crossbar at h
  dsimp only at h
  (repeat' split at h) <;> cases h <;> simp

theorem accepted_outstanding (s : State) (t : Nat) (r : BusReq) :
    (accepted s t r).pending = s.pending ∧ (accepted s t r).mgmt.outstanding = s.mgmt.outstanding := by
  unfold accepted; split <;> exact ⟨rfl, rfl⟩

theorem fetchAgain_kept (s : State) (r : BusReq) :
    (fetchAgain s r).pending = s.pending ∧ (fetchAgain s r).mgmt.outstanding = s.mgmt.outstanding := by
  unfold fetchAgain; repeat' split
  all_goals simp

theorem unanswered_kept (s t : State) (h : t.pending = s.pending ∧ t.mgmt.outstanding = s.mgmt.outstanding) :
    (unanswered s t).pending = s.pending ∧ (unanswered s t).mgmt.outstanding = s.mgmt.outstanding := by
  unfold unanswered; split
  · exact ⟨rfl, rfl⟩
  · exact h

/-- R371, R382: what a partly refused write leaves of the outstanding transactions. -/
theorem partWrite_kept (s : State) (r : BusReq) (p : Nat) (deny : List Nat) :
    (partWrite s r p deny).pending = s.pending ∧ (partWrite s r p deny).mgmt.outstanding = s.mgmt.outstanding := by
  unfold partWrite
  extract_lets s1
  have k : s1.pending = s.pending ∧ s1.mgmt.outstanding = s.mgmt.outstanding := by
    unfold s1
    split
    · exact ⟨rfl, rfl⟩
    · split
      · exact ⟨rfl, rfl⟩
      · split
        · exact ⟨rfl, rfl⟩
        · exact unanswered_kept _ _ (serveTarget_kept ..)
  clear_value s1
  simp [k]

/-- R371: what an access leaves of the outstanding transactions: all of them, or one more of its master. -/
theorem wholeAccess_kept (s : State) (r : BusReq) :
    (wholeAccess s r).pending = s.pending ∧
      ((wholeAccess s r).mgmt.outstanding = s.mgmt.outstanding ∨
        ∃ x, (wholeAccess s r).mgmt.outstanding = tabSet [] r.master.val (outstanding s r.master ++ [x]) s.mgmt.outstanding) := by
  unfold wholeAccess
  split
  · rename_i e; have k := crossbar_kept _ _ _ e; exact ⟨k.1, .inl k.2⟩
  · split
    · exact ⟨rfl, .inr ⟨_, rfl⟩⟩
    · have k := serveTarget_kept s r; exact ⟨(k _ _).1, .inl (k _ _).2⟩

/-! ### Reports -/

@[simp] theorem coresInterrupted_pending (s : State) : (coresInterrupted s).pending = s.pending :=
  foldl_pending _ _ _ fun t k => by simp
@[simp] theorem coresInterrupted_outstanding (s : State) : (coresInterrupted s).mgmt.outstanding = s.mgmt.outstanding := rfl
@[simp] theorem interruptCores_pending (s : State) (f : Nat) (x : BitVec 64) : (interruptCores s f x).pending = s.pending := by
  simp [interruptCores]
@[simp] theorem interruptCores_outstanding (s : State) (f : Nat) (x : BitVec 64) :
    (interruptCores s f x).mgmt.outstanding = s.mgmt.outstanding := by
  simp [interruptCores]
@[simp] theorem isolateOr_pending (s : State) (f d : Nat) (x : BitVec 64) : (isolateOr s f d x).pending = s.pending := by
  unfold isolateOr; repeat' split
  all_goals simp
@[simp] theorem isolateOr_outstanding (s : State) (f d : Nat) (x : BitVec 64) :
    (isolateOr s f d x).mgmt.outstanding = s.mgmt.outstanding := by
  unfold isolateOr; repeat' split
  all_goals simp
@[simp] theorem react_pending (s : State) (f : Nat) (r : Report) : (react s f r).pending = s.pending := by
  unfold react; dsimp only; repeat' split
  all_goals simp
@[simp] theorem react_outstanding (s : State) (f : Nat) (r : Report) : (react s f r).mgmt.outstanding = s.mgmt.outstanding := by
  unfold react; dsimp only; repeat' split
  all_goals simp
@[simp] theorem report_pending (s : State) (f : Nat) (r : Report) : (report s f r).pending = s.pending := by simp [report]
@[simp] theorem report_outstanding (s : State) (f : Nat) (r : Report) :
    (report s f r).mgmt.outstanding = s.mgmt.outstanding := by simp [report]

/-! ### Losses of power and resets -/

@[simp] theorem resetState_pending (s : State) : (resetState s).pending = s.pending := rfl
@[simp] theorem resetState_mgmt (s : State) : (resetState s).mgmt = State.reset.mgmt := rfl
@[simp] theorem restart_pending (s : State) : (restart s).pending = s.pending := by simp [restart]
@[simp] theorem restart_mgmt (s : State) : (restart s).mgmt = State.reset.mgmt := by simp [restart]
@[simp] theorem vauxReturned_pending (s : State) : (vauxReturned s).pending = s.pending := rfl
@[simp] theorem vauxReturned_mgmt (s : State) : (vauxReturned s).mgmt = State.reset.mgmt := rfl
@[simp] theorem auxiliaryOff_pending (s : State) : (auxiliaryOff s).pending = s.pending := rfl
@[simp] theorem auxiliaryOff_mgmt (s : State) : (auxiliaryOff s).mgmt = State.reset.mgmt := rfl

theorem apertureLost_pending (s : State) : (apertureLost s).pending = s.pending := by
  unfold apertureLost
  refine (foldl_pending _ _ _ fun t m => ?_).trans rfl
  refine foldl_pending _ _ _ fun u x => ?_
  simp [notOutstanding]
@[simp] theorem mainLoss_pending (s : State) : (mainLoss s).pending = s.pending := by
  simp [mainLoss, apertureLost_pending]

end Sys2Proof.Laws
end

