-- ==== Sys2Proof/Machine/Contacts.lean ====
section
/-!
DEFINITION. Machine/Contacts.lean: where the contacts of the package lie (R484 to R487): the wiring between the device and the board,
fixed data that no command changes.
-/

namespace Sys2Proof.Machine

/-- A position C(row, column) of the 88 × 88 grid, counted from 1. -/
abbrev Position := Nat × Nat

/-- R485: the global position of local position `(r, c)` of quadrant `d`. -/
def quadrantAt (d r c : Nat) : Position := ((if d < 2 then r else 48 + r), (if d % 2 = 0 then c else 48 + c))

/-- R486: TXP, TXN, RXP and RXN of a lane in place `k` of row `r` of quadrant `d`; the third of its five columns is GND. -/
def laneAt (d r k : Nat) : List Position := [1, 2, 4, 5].map fun c => quadrantAt d r (5 * k + c)

/-- R486: the contacts of CXL lane `n`. -/
def cxlLaneAt (n : Nat) : List Position := laneAt (n / 96) (2 * (n % 96 / 8) + 1) (n % 96 % 8)

/-- R486: the contacts of Aulum lane `n`. -/
def aulumLaneAt (n : Nat) : List Position := laneAt (n / 18) (27 + 2 * (n % 18 / 8)) (n % 18 % 8)

/-- R486: P and N of the reference clock of port island `k`. -/
def cxlClockAt (k : Nat) : List Position := [1, 2].map fun c => quadrantAt (k / 4) 33 (5 * (k % 4) + c)

/-- R486: P and N of the Aulum reference clock of port die `d`. -/
def aulumClockAt (d : Nat) : List Position := [21, 22].map fun c => quadrantAt d 33 c

/-- R486: PERST_N of CXL port `p`. -/
def perstAt (p : Nat) : Position := quadrantAt (p / 24) 35 (p % 24 + 1)

/-- R486: GATE, VIN, VOUT, SNSP, SNSN, PRSNT_N, NTC, PFAIL_N and the three AUX of slot channel `n`. -/
def slotAt (n : Nat) : List Position :=
  (List.range 11).map fun i => quadrantAt (n / 12) (37 + n % 12 / 3) (13 * (n % 12 % 3) + 1 + i)

/-- The positions of rows `r` to `r'` and columns `c` to `c'`. -/
def blockAt (r r' c c' : Nat) : List Position :=
  (List.range (r' + 1 - r)).flatMap fun i => (List.range (c' + 1 - c)).map fun j => (r + i, c + j)

/-- R487: the supplies. -/
def mainSupplyAt : List Position := blockAt 43 46 29 60
def auxSupplyAt : List Position := blockAt 41 41 41 48 ++ blockAt 48 48 41 48
def slotSupplyAt (n : Nat) : List Position :=
  let c := if n % 2 = 0 then 41 else 45
  if n < 2 then blockAt 35 40 c (c + 3) else blockAt 83 88 c (c + 3)

/-- R487: the management and control contacts, by name. -/
def controlAt : List (String × Position) :=
  [ ("ETH0_TXP", (2, 41)), ("ETH0_TXN", (2, 42)), ("ETH0_RXP", (2, 44)), ("ETH0_RXN", (2, 45))
  , ("ETH1_TXP", (4, 41)), ("ETH1_TXN", (4, 42)), ("ETH1_RXP", (4, 44)), ("ETH1_RXN", (4, 45))
  , ("USB4_TX0P", (6, 41)), ("USB4_TX0N", (6, 42)), ("USB4_RX0P", (6, 44)), ("USB4_RX0N", (6, 45))
  , ("USB4_TX1P", (8, 41)), ("USB4_TX1N", (8, 42)), ("USB4_RX1P", (8, 44)), ("USB4_RX1N", (8, 45))
  , ("USB4_SBTX", (10, 41)), ("USB4_SBRX", (10, 42)), ("REFCLK_SYS_P", (10, 44)), ("REFCLK_SYS_N", (10, 45))
  , ("XTAL_AUX_IN", (10, 47)), ("XTAL_AUX_OUT", (10, 48)), ("I3C_SCL", (12, 41)), ("I3C_SDA", (12, 42))
  , ("RESET_N", (12, 44)), ("FAULT_N", (12, 45)), ("READY", (12, 47)), ("DBG_TCK", (14, 41)), ("DBG_TMS", (14, 42))
  , ("DBG_TDI", (14, 43)), ("DBG_TDO", (14, 44)), ("DBG_TRST_N", (14, 45)), ("TSI0", (16, 41)), ("TSI1", (16, 42))
  , ("TSI2", (16, 43)), ("TSI3", (16, 44)), ("TSI4", (16, 45)), ("TSI5", (16, 46)), ("TSI6", (16, 47)), ("TSI7", (16, 48))
  , ("VIN12_SENSE_P", (18, 41)), ("VIN12_SENSE_N", (18, 42)) ]

/-- R484: every position that a rule assigns; all others are GND. -/
def assigned : List Position :=
  (List.range 384).flatMap cxlLaneAt ++ (List.range 72).flatMap aulumLaneAt ++ (List.range 16).flatMap cxlClockAt ++
    (List.range 4).flatMap aulumClockAt ++ (List.range 96).map perstAt ++ (List.range 48).flatMap slotAt ++ mainSupplyAt ++
    auxSupplyAt ++ (List.range 4).flatMap slotSupplyAt ++ controlAt.map Prod.snd

/-- R484: the position is ground. -/
def groundAt (x : Position) : Bool := !assigned.contains x

end Sys2Proof.Machine
end

