-- ==== Sys2Proof/WellFormed.lean ====
section
/-!
DEFINITION. WellFormed.lean: what the fields of a command hold on the wire, where an operand's type admits more: the header and item
fields of a Sprineno request (R397 to R399), the addresses of its transports (R409), the fields of a CXL.io packet (R90), of a link
partner (R79, R83) and of a binding or port operand.
-/

namespace Sys2Proof

/-- R409, R415: a transport's address fields. -/
def Transport.wf : Transport → Bool
  | .udp4 e a p => decide (e < 2) && decide (a < 2 ^ 32) && decide (p < 65536)
  | .udp6 e a p => decide (e < 2) && decide (a < 2 ^ 128) && decide (p < 65536)
  | .usb => true
  | .mctp e => decide (e < 256)
  | .mailbox v => decide (v < 64)

/-- R397: the header fields of a request. -/
def Req.wf (r : Req) : Bool :=
  decide (r.session < 2 ^ 32) && decide (r.seq < 2 ^ 32) && decide (r.reqId < 65536) && r.via.wf

/-- R399: the fields of a write item. -/
def WriteItem.wf (w : WriteItem) : Bool :=
  decide (w.index < 65536) && decide (w.sub < 256) && decide (w.type < 256) && decide (w.value.length < 65536)

/-- R90, R91: a packet carries as many bytes as it says, and its header is one of those of a CXL.io packet. -/
def Tlp.wf (t : Tlp) : Bool :=
  decide (t.data.length ≤ 4096) && decide (t.ld < 16) && decide (12 ≤ t.hdr) && decide (t.status < 8) &&
    (match t.kind with
     | .memWrite => decide (t.data.length = t.len)
     | .completionData => decide (t.data.length = t.len)
     | _ => true)

/-- R79, R83: a partner's width and speed code. -/
def LinkPartner.wf (x : LinkPartner) : Bool :=
  [1, 2, 4, 8, 16].contains x.width && decide (1 ≤ x.speed) && decide (x.speed ≤ 6) && decide (x.ldCount ≤ 16)

/-- R91: the message of a link. -/
def PortMsg.wf : PortMsg → Bool
  | .tlp t => t.wf
  | _ => true

/-- The command's fields are those that its carrier can hold. -/
def Instr.wf : Instr → Bool
  | .hello _ _ via _ _ _ _ name spdm =>
    via.wf && decide (name.length ≤ 32) && (match spdm with | some i => decide (i < 2 ^ 32) | none => true)
  | .bye r => r.wf
  | .keepalive r => r.wf
  | .read r items => r.wf && decide (items.length ≤ 16383)
  | .write r items => r.wf && items.all WriteItem.wf
  | .describe r _ _ => r.wf
  | .segRead r _ _ _ _ => r.wf
  | .segWrite r _ _ _ _ _ _ data => r.wf && decide (data.length < 65536)
  | .subscribe r _ _ _ _ => r.wf
  | .unsubscribe r _ => r.wf
  | .commit r _ => r.wf
  | .command r _ _ _ _ => r.wf
  | .portTrained _ x => x.wf
  | .parseIngress _ msgs => msgs.all PortMsg.wf
  | _ => true

end Sys2Proof
end

