-- ==== Sys2Proof/Tests/Slice0.lean ====
section
/-!
SUPPORT. Tests/Slice0.lean: ill-formed commands that WellFormed.lean refuses, values that the specification works out, and, for
the statements of Certificates/Slice0/Obligations.lean, states and operands that meet the hypotheses of each of their clauses.
-/

set_option Elab.async false
set_option linter.unusedSimpArgs false
set_option linter.unusedVariables false

namespace Sys2Proof.Tests

open Sys2Proof Sys2Proof.Machine Sys2Proof.Laws Sys2Proof.Safety

/-- The state after reset with running values of the dictionary set: index, subindex, value. -/
def withOd (l : List (Nat × Nat × Nat)) : State := l.foldl (fun s x => odSet s x.1 x.2.1 x.2.2) State.reset

/-- A unit of virtual network `v` with all other fields 0. -/
def unitOn (v : Vn) : FUnit :=
  { vn := v, type := 0, dst := 0, src := 0, tag := 0, epoch := false, age := 0, mc := false, line := 0, poison := false, follow := 0
    synth := false, yx := false, payload := 0 }

/-- The unit `u` held under the number `id`. -/
def heldAs (id : Nat) (u : FUnit) : Held := { id := id, u := u, tlp := none, hpa := none, inp := 0, since := 0 }

/-- A partner of kind `k`: 4 lanes, 64 GT/s, `n` logical devices. -/
def partnerOf (k : Fin 7) (f : Fin 3) (n : Nat) : LinkPartner :=
  { kind := k, width := 4, speed := 6, lanes := 0xF, flit := f, ldCount := n, found := 0xFFFF, reversed := false, l0p := true }

/-- The main domain is on and start-up has finished. -/
def running (s : State) : State := { s with pow := { s.pow with mainOn := true, step := 8 } }

/-- Port 0 is DOWNSTREAM in an OPEN island with its link in L0 at 4 lanes. -/
def portZeroUp : State :=
  running (withOd [(0x2100, 1, 2), (0x2100, 0x10, 2), (0x2100, 0x11, 4), (0x2100, 0x16, 4), (0x2100, 6, 1), (0x2100, 0x14, 2), (0x3032, 1, 0)])

/-- Port 0 is UPSTREAM for VCS 0 with its link in L0; VCS 0 is enabled and in state `n`. -/
def hostUp (n : Nat) : State :=
  running (withOd [(0x2100, 1, 1), (0x2100, 4, 0), (0x2100, 0x10, 2), (0x2100, 0x14, 6), (0x2200, 1, 1), (0x2200, 2, 0), (0x2200, 3, n), (0x3032, 1, 0)])

/-- vPPB 2 of VCS 0 is bound to LD 0 of port 0, whose partner is of kind `k`. -/
def boundTo (k : Nat) : State :=
  { odSet portZeroUp 0x2100 0x14 k with port := { State.reset.port with binds := [(2, { vppbReset with state := .bound, port := 0 })] } }

/-- A read of 4 bytes at address 0 by requester 0. -/
def readTlp : Tlp :=
  { kind := .memRead, ld := 0, requester := 0, tag := 0, addr := 0, id := 0, byId := false, len := 4, hdr := 16, status := 0
    poison := false, data := [] }

/-- The host of port 0 is up for VCS 0, whose vPPB 2 is bound to LD 0 of port 7, with a window of 1 MiB from address 0 on. -/
def hostAndDevice : State :=
  { odSet (odSet (hostUp 2) 0x2107 1 2) 0x2107 0x10 2 with
    port := { State.reset.port with binds := [(2, { vppbReset with state := .bound, port := 7, memBase := 0, memLimit := 0xFFFFF })] } }

/-- `s` with `m` received at port 0 and waiting in the ingress pair of `v`. -/
def received (s : State) (v : Vn) (m : PortMsg) : State := setIngress s 0 v [{ msg := m, since := 0 }]

/-- No unit waits for a place of a bridge, whatever the number of its places. -/
theorem bridgeOpen_of_nothing {s : State} {k : Nat} {v : Vn} (h : ((xing s (577 + 2 * k)).wait.filter fun h => decide (h.u.vn = v)) = []) :
    bridgeOpen s k v = true := by
  simp [bridgeOpen, h]

/-- The governor has tokens for everything. -/
def rich (s : State) : State := { s with pow := { s.pow with gov := { s.pow.gov with grants := List.replicate 8 1000, drawn := List.replicate 8 0 } } }

/-- `s` after `cost` tokens of kind `k` have been drawn. -/
def spent (s : State) (k cost : Nat) : State := (spend? s k cost).getD s

/-! ### Ill-formed commands that `WellFormed.lean` refuses -/

/-- A request over USB with every field in range. -/
def plainReq : Req := { session := 7, seq := 5, reqId := 9, via := .usb, tagOk := true }

/-- A memory read of 64 bytes with every field in range. -/
def plainTlp : Tlp :=
  { kind := .memRead, ld := 0, requester := 0, tag := 0, addr := 0, id := 0, byId := false, len := 64, hdr := 16, status := 0
    poison := false, data := [] }

/-- A read request whose transport is `v`. -/
def requestOver (v : Transport) : Instr := .bye { plainReq with via := v }

/-- A link's message that is the packet `t`. -/
def linkTlp (t : Tlp) : Instr := .parseIngress 0 [.tlp t]

/-- Well-formed commands are accepted. -/
theorem test_well_formed : (Instr.bye plainReq).wf = true ∧ (linkTlp plainTlp).wf = true ∧
    (Instr.portTrained 0 (partnerOf 1 2 16)).wf = true := by decide

/-- R415: there are two management Ethernet ports. -/
theorem test_udp4_port : (requestOver (.udp4 2 0 0)).wf = false := by decide
/-- R409: an IPv4 address has 32 bits. -/
theorem test_udp4_addr : (requestOver (.udp4 0 (2 ^ 32) 0)).wf = false := by decide
/-- R409: a UDP port number has 16 bits. -/
theorem test_udp4_number : (requestOver (.udp4 0 0 65536)).wf = false := by decide
/-- R415: the same of IPv6. -/
theorem test_udp6_port : (requestOver (.udp6 2 0 0)).wf = false := by decide
/-- R409: an IPv6 address has 128 bits. -/
theorem test_udp6_addr : (requestOver (.udp6 0 (2 ^ 128) 0)).wf = false := by decide
/-- R409: a UDP port number has 16 bits. -/
theorem test_udp6_number : (requestOver (.udp6 0 0 65536)).wf = false := by decide
/-- R409: an endpoint ID has 8 bits. -/
theorem test_mctp : (requestOver (.mctp 256)).wf = false := by decide
/-- R409: there are 64 mailboxes. -/
theorem test_mailbox : (requestOver (.mailbox 64)).wf = false := by decide
/-- R397: the fields of a request header. -/
theorem test_header : (Instr.bye { plainReq with session := 2 ^ 32 }).wf = false ∧
    (Instr.bye { plainReq with seq := 2 ^ 32 }).wf = false ∧ (Instr.bye { plainReq with reqId := 65536 }).wf = false := by decide
/-- R397: every request carries a header. -/
theorem test_every_request : (Instr.keepalive { plainReq with seq := 2 ^ 32 }).wf = false ∧
    (Instr.read { plainReq with seq := 2 ^ 32 } []).wf = false ∧ (Instr.commit { plainReq with seq := 2 ^ 32 } 0).wf = false := by decide
/-- R399: the fields of a write item. -/
theorem test_write_item : (Instr.write plainReq [{ index := 65536, sub := 0, type := 0, value := [] }]).wf = false ∧
    (Instr.write plainReq [{ index := 0, sub := 256, type := 0, value := [] }]).wf = false ∧
    (Instr.write plainReq [{ index := 0, sub := 0, type := 256, value := [] }]).wf = false := by decide
/-- R398: a client's name is at most 32 bytes. -/
theorem test_hello_name : (Instr.hello 0 0 .usb 0 0 .plain 0 (List.replicate 33 0) none).wf = false := by decide
/-- R398: a session number of SPDM has 32 bits. -/
theorem test_hello_spdm : (Instr.hello 0 0 .usb 0 0 .plain 0 [] (some (2 ^ 32))).wf = false := by decide
/-- R90: the LD of a packet is one of 16. -/
theorem test_tlp_ld : (linkTlp { plainTlp with ld := 16 }).wf = false := by decide
/-- R90: a header has at least 12 bytes. -/
theorem test_tlp_header : (linkTlp { plainTlp with hdr := 8 }).wf = false := by decide
/-- R90: a completion status has 3 bits. -/
theorem test_tlp_status : (linkTlp { plainTlp with status := 8 }).wf = false := by decide
/-- R90: a write and a completion carry as many bytes as they say. -/
theorem test_tlp_length : (linkTlp { plainTlp with kind := .memWrite }).wf = false ∧
    (linkTlp { plainTlp with kind := .completionData }).wf = false := by decide
/-- R79, R83: widths, speeds and the number of LDs of a partner. -/
theorem test_partner : (Instr.portTrained 0 { partnerOf 1 2 16 with width := 3 }).wf = false ∧
    (Instr.portTrained 0 { partnerOf 1 2 16 with speed := 7 }).wf = false ∧
    (Instr.portTrained 0 { partnerOf 1 2 16 with speed := 0 }).wf = false ∧
    (Instr.portTrained 0 (partnerOf 1 2 17)).wf = false := by decide

/-! ### Values that the specification works out -/

/-- The ASCII bytes of "123456789". -/
def digits : List Byte := [0x31, 0x32, 0x33, 0x34, 0x35, 0x36, 0x37, 0x38, 0x39]

/-- The finished value of algorithm `alg` over `digits`, from the initial context. -/
def finishedOf (alg : BitVec 8) : BitVec 64 :=
  (checkFinal (digits.foldl checkByte
    { ctx := ctxInitial 0 0 alg 0, word := [], counter := [], faults := 0 })).ctx.finished

/-- R312: the four values over "123456789". -/
theorem test_check_values : finishedOf 0 = 0xE3069283 ∧ finishedOf 1 = 0xCBF43926 ∧
    finishedOf 2 = 0x995DC9BBDF1939FA ∧ finishedOf 3 = 0x0D0803376C6A689F := by decide +kernel
/-- R10: VCS17 on switch 300 has host ID 0x4B11. -/
theorem test_host_id : hostId (withOd [(0x6000, 1, 300)]) 17 = 0x4B11 := by decide +kernel
/-- R179's worked example: slice 3, index 0x145678, tag 1 and cache set 0x1678 for local pool address 0x0002_A2B3_CC40. -/
theorem test_line_places : homeSlice 0x0A8ACF31 = 3 ∧ tagOf State.reset 0x0A8ACF31 = 1 ∧ indexOf State.reset 0x0A8ACF31 = 0x145678 ∧
    cacheSetOf State.reset 0x0A8ACF31 = 0x1678 := by decide +kernel
/-- R486: CXL lane 216 (place 0 of local row 7 of quadrant 2, the worked example of R487) and PERST_N of port 54. -/
theorem test_contacts : cxlLaneAt 216 = [(55, 1), (55, 2), (55, 4), (55, 5)] ∧ perstAt 54 = (83, 7) ∧
    (slotAt 25).head? = some (85, 14) := by decide +kernel

/-! ### The hypotheses of the statements can be met -/

/-- A crossing with one unit in flight, which has been sent as number 5. -/
def oneFlight : State :=
  { State.reset with fab := { State.reset.fab with xing := [(0, { crossingReset with hold := [(5, heldAs 0 (unitOn .rsp))], flight := [5], next := 6 })] } }

/-- A crossing whose receiver has returned number 5. -/
def oneNak : State :=
  { State.reset with fab := { State.reset.fab with xing := [(0, { crossingReset with hold := [(5, heldAs 0 (unitOn .rsp))], nak := some 5, next := 6 })] } }

/-- A unit for stop 3 that waits in a queue of stop 0. -/
def eastBound : Held := heldAs 7 { unitOn .rsp with dst := BitVec.ofNat 12 (3 * 16) }

/-- The bits of a unit with the last bit of its CRC inverted. -/
def badBits (u : FUnit) : UnitBits := headerTop u ++ (unitCrc u ^^^ 1) ++ u.payload

/-- The CRC of `badBits u` is wrong. -/
theorem crcOk_badBits (u : FUnit) : crcOk (badBits u) = false := by
  unfold badBits
  rw [crcOk_append, decide_eq_false_iff_not]
  intro h
  have := congrArg (fun v : BitVec 16 => v ^^^ unitCrc u) h
  simp [unitCrc, BitVec.xor_comm] at this

/-- States and operands that meet the hypotheses of each clause of `Obligations.CrossingUnits`. -/
theorem witness_CrossingUnits :
    (∃ (c : Fin 686) (w : UnitBits) (s : State) (q : Nat) (rest : List Nat) (p : Held), ((xing s c.val).flight = q :: rest) ∧ ((xing s c.val).stopped = false) ∧ ((xing s c.val).failed = none) ∧ (crcOk w = true) ∧ (checkInverted s (crossingSource s c.val) = false) ∧ (q, p) ∈ (xing s c.val).hold) ∧
    (∃ (c : Fin 686) (w : UnitBits) (s : State) (q : Nat) (rest : List Nat), ((xing s c.val).flight = q :: rest) ∧ ((xing s c.val).stopped = false) ∧ ((xing s c.val).failed = none) ∧ (crcOk w = false) ∧ 1 ≤ odGet s 0x3020 1) ∧
    (∃ (c : Fin 686) (s : State) (q : Nat), ((xing s c.val).nak = some q) ∧ ((xing s c.val).stopped = false)) :=
  ⟨⟨0, packUnit (unitOn .rsp), oneFlight, 5, [], heldAs 0 (unitOn .rsp), by rw [crcOk_packUnit]; decide +kernel⟩,
   ⟨0, badBits (unitOn .rsp), oneFlight, 5, [], by rw [crcOk_badBits]; decide +kernel⟩,
   ⟨0, oneNak, 5, by decide +kernel⟩⟩

/-- States and operands that meet the hypotheses of each clause of `Obligations.RingMoves`. -/
theorem witness_RingMoves :
    (∃ (n : Fin 144) (a : Fin 16) (v : Vn) (s : State) (h : Held) (q : Nat × Nat) (d : Nat), (niHead s n.val a.val v = some h) ∧ (h.hpa = none) ∧ (h.u.mc = false) ∧ (h.u.vn = v) ∧ (markedUnit (niTake s n.val a.val v h.id) n.val (injected s n.val h h.u) = none) ∧ (steer s (injected s n.val h h.u).u = some q) ∧ (wantDir n.val q.1 (injected s n.val h h.u).u.yx = some d) ∧ (injectOpen s n.val d v h.id = true)) ∧
    (∃ (n : Fin 144) (d : Fin 4) (v : Vn) (s : State) (h : Held) (rest : List Held), (turnBuf s n.val d.val v = h :: rest) ∧ (h.u.vn = v) ∧ (entryOpen s n.val d.val v (s.fab.urgent.contains h.id) = true) ∧ ((s.fab.urgent.contains h.id || !(s.fab.lastTurn.contains (ringKey n.val d.val v) && injectionWaits s n.val d.val v)) = true)) ∧
    (∃ (n : Fin 144) (d : Fin 4) (s : State) (v : Vn) (h : Held) (rest : List Held) (c : Nat), ((((List.range 8).map fun i => vnOf ((tabGet 0 (n.val * 4 + d.val) s.fab.rrVn + i) % 8)).find? fun v => canHop s n.val d.val v) = some v) ∧ (ringBuf s n.val d.val v = h :: rest) ∧ (segCrossing s n.val d.val = some c)) ∧
    (∃ (n : Fin 144) (d : Fin 4) (v : Vn) (s : State) (h : Held) (rest : List Held), (turnBuf s n.val d.val v = h :: rest) ∧ (s.fab.urgent.contains h.id = false)) ∧
    (∃ (n : Fin 144) (a : Fin 16) (v : Vn) (s : State) (h : Held), (niHead s n.val a.val v = some h) ∧ (s.fab.urgent.contains h.id = false)) :=
  ⟨⟨0, 2, .rsp, { State.reset with fab := { State.reset.fab with ni := [(agentKey 0 2 .rsp, [eastBound])] } }, eastBound, (3, 0), 0, by decide +kernel⟩,
   ⟨0, 0, .rsp, { State.reset with fab := { State.reset.fab with turn := [(ringKey 0 0 .rsp, [eastBound])] } }, eastBound, [], by decide +kernel⟩,
   ⟨1, 0, { State.reset with fab := { State.reset.fab with ring := [(ringKey 1 0 .rsp, [eastBound])] } }, .rsp, eastBound, [], 4, by decide +kernel⟩,
   ⟨0, 0, .rsp, { State.reset with fab := { State.reset.fab with turn := [(ringKey 0 0 .rsp, [eastBound])] } }, eastBound, [], by decide +kernel⟩,
   ⟨0, 2, .rsp, { State.reset with fab := { State.reset.fab with ni := [(agentKey 0 2 .rsp, [eastBound])] } }, eastBound, by decide +kernel⟩⟩

/-- States and operands that meet the hypotheses of each clause of `Obligations.RouteBanks`. -/
theorem witness_RouteBanks :
    (∃ (m : Vector (BitVec 16) 15) (s : State), (oldEpochDrain s = 0)) ∧
    (∃ (e : Vector (BitVec 64) 32) (s : State), (oldEpochDrain s = 0)) ∧
    (∃ (r : RouteTable) (s : State), 0 < oldEpochDrain s) ∧
    (∃ (s : State), odGet s 0x3033 3 ≠ 1) ∧
    (∃ (s : State), (odGet s 0x3033 3 = 1)) ∧
    (∃ (s : State), (odGet s 0x3033 3 = 1) ∧ (oldEpochDrain s = 0)) :=
  ⟨⟨Vector.replicate 15 1, State.reset, by decide +kernel⟩,
   ⟨Vector.replicate 32 1, State.reset, by decide +kernel⟩,
   ⟨.links (Vector.replicate 15 1), { State.reset with fab := { State.reset.fab with ring := [(0, [heldAs 0 { unitOn .req with epoch := true }])] } }, by decide +kernel⟩,
   ⟨State.reset, by decide +kernel⟩,
   ⟨withOd [(0x3033, 3, 1)], by decide +kernel⟩,
   ⟨withOd [(0x3033, 3, 1)], by decide +kernel⟩⟩

/-- States and operands that meet the hypotheses of each clause of `Obligations.IslandTransitions`. -/
theorem witness_IslandTransitions :
    (∃ (k : Fin 16) (s : State), (s.pow.mainOn = true) ∧ k.val ∉ s.fab.heldClosed ∧ (islandState s k.val = 0) ∧ (allDisabled s k.val = true)) ∧
    (∃ (k : Fin 16) (s : State), (s.pow.mainOn = true) ∧ k.val ∉ s.fab.heldClosed ∧ (islandState s k.val = 0) ∧ (allDisabled s k.val = false)) ∧
    (∃ (k : Fin 16) (s : State), (s.pow.mainOn = true) ∧ k.val ∉ s.fab.heldClosed ∧ (islandState s k.val = 3)) ∧
    (∃ (k : Fin 16) (s : State), (s.pow.mainOn = true) ∧ k.val ∉ s.fab.heldClosed ∧ (islandState s k.val = 2)) ∧
    (∃ (k : Fin 16) (s : State), (s.pow.mainOn = true) ∧ k.val ∉ s.fab.heldClosed ∧ (islandState s k.val = 1)) ∧
    (∃ (k : Fin 16) (s : State), (s.pow.mainOn = true) ∧ k.val ∉ s.fab.heldClosed ∧ (islandState s k.val = 1 ∨ islandState s k.val = 2)) ∧
    (∃ (k : Fin 16) (s : State), (s.pow.mainOn = false ∨ k.val ∈ s.fab.heldClosed)) ∧
    (∃ (k : Fin 16) (s : State), (s.pow.mainOn = false ∨ k.val ∈ s.fab.heldClosed)) ∧
    (∃ (k : Fin 16) (s : State), (islandState s k.val = 1) ∧ (islandDrain s k.val = 0) ∧ (bridgeEmpty s k.val = true)) ∧
    (∃ (k : Fin 16) (s : State), (islandState s k.val = 1) ∧ k.val ∈ s.fab.drainTimer ∧ (tabFind? 428 s.flt.pairs = none)) ∧
    (∃ (k : Fin 16) (s : State), (islandState s k.val = 3)) ∧
    (∃ (k : Fin 16) (s : State), (islandState s k.val = 3) ∧ (tabFind? 427 s.flt.pairs = none)) :=
  ⟨⟨0, { withOd [(0x3032, 1, 0)] with pow := { State.reset.pow with mainOn := true } }, by decide +kernel⟩,
   ⟨0, { withOd [(0x3032, 1, 0), (0x2100, 1, 2)] with pow := { State.reset.pow with mainOn := true } }, by decide +kernel⟩,
   ⟨0, { withOd [(0x3032, 1, 3)] with pow := { State.reset.pow with mainOn := true } }, by decide +kernel⟩,
   ⟨0, { withOd [(0x3032, 1, 2)] with pow := { State.reset.pow with mainOn := true } }, by decide +kernel⟩,
   ⟨0, { withOd [(0x3032, 1, 1)] with pow := { State.reset.pow with mainOn := true } }, by decide +kernel⟩,
   ⟨0, { withOd [(0x3032, 1, 1)] with pow := { State.reset.pow with mainOn := true } }, by decide +kernel⟩,
   ⟨0, State.reset, by decide +kernel⟩,
   ⟨0, State.reset, by decide +kernel⟩,
   ⟨0, withOd [(0x3032, 1, 1)], by decide +kernel⟩,
   ⟨0, { withOd [(0x3032, 1, 1)] with fab := { State.reset.fab with drainTimer := [0] } }, by decide +kernel⟩,
   ⟨0, withOd [(0x3032, 1, 3)], by decide +kernel⟩,
   ⟨0, withOd [(0x3032, 1, 3)], by decide +kernel⟩⟩

/-- States and operands that meet the hypotheses of each clause of `Obligations.PortSettings`. -/
theorem witness_PortSettings :
    (∃ (p : Fin 96) (w : Byte) (s : State), (role s p.val = 0) ∧ (w.toNat = 4 ∨ w.toNat = 8 ∨ w.toNat = 16) ∧ (widthAllowed (p.val % 6) w.toNat = true) ∧ (absorbed s p.val = false) ∧ (∀ q : Nat, q < p.val + w.toNat / 4 → p.val < q → role s q = 0 ∧ portWidth s q ≤ 4)) ∧
    (∃ (p : Fin 96) (w : Byte) (s : State), role s p.val ≠ 0 ∧ (w.toNat = 4 ∨ w.toNat = 8 ∨ w.toNat = 16)) ∧
    (∃ (p : Fin 96) (w : Byte) (s : State), w.toNat ≠ 4 ∧ w.toNat ≠ 8 ∧ w.toNat ≠ 16) ∧
    (∃ (p : Fin 96) (x : PortSetting) (s : State), (role s p.val = 0) ∧ (settingInRange x = true) ∧ (settingSub x = 5 → settingValue x = 255 ∨ ∀ q : Nat, q < 96 → q ≠ p.val → odGet s (portIdx q) 5 ≠ settingValue x)) ∧
    (∃ (p : Fin 96) (x : PortSetting) (s : State), role s p.val ≠ 0 ∧ (settingInRange x = true)) ∧
    (∃ (p : Fin 96) (x : PortSetting) (s : State), (settingInRange x = false)) ∧
    (∃ (p : Fin 96) (r : Byte) (s : State), r.toNat ≤ 2 ∧ (absorbed s p.val = false) ∧ (r.toNat = 1 → odGet s (portIdx p.val) 4 ≤ 63 ∧ ∀ q : Nat, q < 96 → q ≠ p.val → role s q ≠ 0 → odGet s (portIdx q) 4 ≠ odGet s (portIdx p.val) 4)) ∧
    (∃ (p : Fin 96) (r : Byte) (s : State), 2 < r.toNat) ∧
    (∃ (p : Fin 96) (r : Byte) (s : State), r.toNat ≤ 2 ∧ (absorbed s p.val = true)) ∧
    (∃ (p : Fin 96) (q : Fin 96) (r : Byte) (s : State), (r.toNat = 1) ∧ (absorbed s p.val = false) ∧ odGet s (portIdx p.val) 4 ≤ 63 ∧ q ≠ p ∧ role s q.val ≠ 0 ∧ (odGet s (portIdx q.val) 4 = odGet s (portIdx p.val) 4)) :=
  ⟨⟨0, 8, withOd [(0x2100, 2, 4)], by decide +kernel⟩,
   ⟨0, 4, withOd [(0x2100, 1, 2)], by decide +kernel⟩,
   ⟨0, 3, State.reset, by decide +kernel⟩,
   ⟨0, .slot 1, withOd [(0x2101, 5, 2)], by decide +kernel⟩,
   ⟨0, .vcs 3, withOd [(0x2100, 1, 2)], by decide +kernel⟩,
   ⟨0, .speed 7, State.reset, by decide +kernel⟩,
   ⟨0, 1, withOd [(0x2100, 4, 63), (0x2101, 4, 63)], by decide +kernel⟩,
   ⟨0, 3, State.reset, by decide +kernel⟩,
   ⟨1, 2, withOd [(0x2100, 2, 8)], by decide +kernel⟩,
   ⟨0, 1, 1, withOd [(0x2100, 4, 63), (0x2101, 4, 63), (0x2101, 1, 2)], by decide +kernel⟩⟩

/-- States and operands that meet the hypotheses of each clause of `Obligations.PortWidthAndMargin`. -/
theorem witness_PortWidthAndMargin :
    (∃ (p : Fin 96) (w : Fin 17) (s : State), (portUp s p.val = true) ∧ (odGet s (portIdx p.val) 6 = 1) ∧ (partnerL0p s p.val = true) ∧ w.val ∈ [1, 2, 4, 8, 16] ∧ odGet s (portIdx p.val) 7 ≤ w.val ∧ w.val ≤ odGet s (portIdx p.val) 0x11) ∧
    (∃ (p : Fin 96) (w : Fin 17) (s : State), (odGet s (portIdx p.val) 6 ≠ 1 ∨ partnerL0p s p.val = false ∨ portUp s p.val = false)) ∧
    (∃ (p : Fin 96) (l : Fin 16) (b : Bool) (n : Int) (s : State), (portUp s p.val = true) ∧ l.val < odGet s (portIdx p.val) 0x11 ∧ n.natAbs ≤ (if b then 20 else 32)) :=
  ⟨⟨0, 2, { portZeroUp with port := { portZeroUp.port with l0p := [0] } }, by decide +kernel⟩,
   ⟨0, 2, State.reset, by decide +kernel⟩,
   ⟨0, 3, true, -20, portZeroUp, by decide +kernel⟩⟩

/-- States and operands that meet the hypotheses of each clause of `Obligations.PortTraining`. -/
theorem witness_PortTraining :
    (∃ (p : Fin 96) (x : LinkPartner) (w : Nat) (s : State), (odGet s (portIdx p.val) 0x10 = 1) ∧ p.val ∉ s.port.retry ∧ x.kind ≠ 0 ∧ (compatible s p.val x = true) ∧ (trainedWidth s p.val x = some w)) ∧
    (∃ (p : Fin 96) (x : LinkPartner) (s : State), (portUp s p.val = true)) ∧
    (∃ (p : Fin 96) (x : LinkPartner) (s : State), (odGet s (portIdx p.val) 0x10 = 1) ∧ p.val ∉ s.port.retry ∧ x.kind ≠ 0 ∧ (compatible s p.val x = false)) ∧
    (∃ (p : Fin 96) (s : State), p.val ∈ s.port.retry) ∧
    (∃ (p : Fin 96) (s : State), p.val ∈ s.port.perstWait ∧ (refStable s p.val = true) ∧ (mayTrain s p.val = true)) ∧
    (∃ (p : Fin 96) (m : BitVec 16) (s : State), (poolPort s p.val = true) ∧ (portUp s p.val = true) ∧ m &&& BitVec.ofNat 16 (odGet s (portIdx p.val) 8) &&& ~~~ (tabGet 0 p.val s.port.lost) ≠ 0) :=
  ⟨⟨0, partnerOf 2 2 1, 4, running (withOd [(0x2100, 1, 2), (0x2100, 0x10, 1)]), by decide +kernel⟩,
   ⟨0, partnerOf 2 2 1, { portZeroUp with port := { portZeroUp.port with recovering := [0] } }, by decide +kernel⟩,
   ⟨0, partnerOf 2 2 1, running (withOd [(0x2100, 1, 1), (0x2100, 0x10, 1)]), by decide +kernel⟩,
   ⟨0, { hostUp 1 with port := { State.reset.port with retry := [0] } }, by decide +kernel⟩,
   ⟨0, { running (withOd [(0x2100, 1, 2), (0x8041, 1, 1), (0x3032, 1, 0)]) with port := { State.reset.port with perstWait := [0] }, pins := { State.reset.pins with perstLow := [0] } }, by decide +kernel⟩,
   ⟨0, 1, odSet portZeroUp 0x2100 8 1, by decide +kernel⟩⟩

/-- States and operands that meet the hypotheses of each clause of `Obligations.PortDownAndVcs`. -/
theorem witness_PortDownAndVcs :
    (∃ (p : Fin 96) (s : State), (portUp s p.val = true)) ∧
    (∃ (p : Fin 96) (s : State), (role s p.val = 1) ∧ (absorbed s p.val = false) ∧ p.val ∉ s.pins.perstIn) ∧
    (∃ (p : Fin 96) (v : Nat) (s : State), (vcsOfPort s p.val = some v) ∧ (portUp s p.val = true) ∧ (odGet s (0x2200 + v) 3 = 1 ∨ odGet s (0x2200 + v) 3 = 3)) ∧
    (∃ (v : Fin 64) (s : State), (odGet s (0x2200 + v.val) 3 = 0) ∧ (upstreamPort s v.val = none)) :=
  ⟨⟨0, { portZeroUp with sec := { portZeroUp.sec with ide := [(0, ideReset)] } }, by decide +kernel⟩,
   ⟨0, hostUp 2, by decide +kernel⟩,
   ⟨0, 0, { hostUp 3 with pins := { State.reset.pins with perstIn := [0] } }, by decide +kernel⟩,
   ⟨63, State.reset, by decide +kernel⟩⟩

/-- States and operands that meet the hypotheses of each clause of `Obligations.DeviceResets`. -/
theorem witness_DeviceResets :
    (∃ (v : Fin 64) (d : Fin 32) (s : State), ((vppb s v.val d.val).state = .bound) ∧ (odGet s (portIdx (vppb s v.val d.val).port) 0x14 = 4)) ∧
    (∃ (v : Fin 64) (d : Fin 32) (s : State), ((vppb s v.val d.val).state = .bound) ∧ odGet s (portIdx (vppb s v.val d.val).port) 0x14 ≠ 4 ∧ (portUp s (vppb s v.val d.val).port = true)) ∧
    (∃ (v : Fin 64) (d : Fin 32) (s : State), (vppb s v.val d.val).state ≠ .bound) ∧
    (∃ (p : Fin 96) (s : State), (commandRefused s p.val = false) ∧ (portUp s p.val = true)) ∧
    (∃ (p : Fin 96) (s : State), (commandRefused s p.val = false) ∧ (portUp s p.val = true)) ∧
    (∃ (p : Fin 96) (s : State), (commandRefused s p.val = false) ∧ (portUp s p.val = true)) ∧
    (∃ (p : Fin 96) (s : State), (commandRefused s p.val = false) ∧ (portUp s p.val = true)) ∧
    (∃ (p : Fin 96) (s : State), (commandRefused s p.val = true)) :=
  ⟨⟨0, 2, boundTo 4, by decide +kernel⟩,
   ⟨0, 2, boundTo 2, by decide +kernel⟩,
   ⟨0, 2, State.reset, by decide +kernel⟩,
   ⟨0, portZeroUp, by decide +kernel⟩,
   ⟨0, portZeroUp, by decide +kernel⟩,
   ⟨0, portZeroUp, by decide +kernel⟩,
   ⟨0, portZeroUp, by decide +kernel⟩,
   ⟨0, State.reset, by decide +kernel⟩⟩

/-- States and operands that meet the hypotheses of each clause of `Obligations.Bindings`. -/
theorem witness_Bindings :
    (∃ (src : FmSource) (v : Fin 64) (d : Fin 32) (p : Fin 96) (l : Fin 16) (s : State), 2 ≤ d.val ∧ ((vppb s v.val d.val).state = .unbound) ∧ (mayBind s p.val l.val = true)) ∧
    (∃ (src : FmSource) (v : Fin 64) (d : Fin 32) (p : Fin 96) (l : Fin 16) (s : State), (d.val < 2 ∨ (vppb s v.val d.val).state = .bound ∨ ((vppb s v.val d.val).state = .unbound ∧ mayBind s p.val l.val = false))) ∧
    (∃ (v : Fin 64) (d : Fin 32) (s : State), ((vppb s v.val d.val).state = .binding) ∧ (portUp s (vppb s v.val d.val).port = true)) ∧
    (∃ (src : FmSource) (v : Fin 64) (d : Fin 32) (o : Fin 3) (s : State), 2 ≤ d.val ∧ o.val ≠ 2 ∧ ((vppb s v.val d.val).state = .bound)) ∧
    (∃ (src : FmSource) (v : Fin 64) (d : Fin 32) (o : Fin 3) (s : State), 2 ≤ d.val ∧ (o.val = 2) ∧ ((vppb s v.val d.val).state = .bound)) ∧
    (∃ (v : Fin 64) (d : Fin 32) (s : State), ((vppb s v.val d.val).state = .unbinding) ∧ ((vppb s v.val d.val).option = 1)) :=
  ⟨⟨.fmapi, 0, 31, 0, 0, portZeroUp, by decide +kernel⟩,
   ⟨.session 1, 0, 31, 0, 0, State.reset, by decide +kernel⟩,
   ⟨0, 2, { boundTo 2 with port := { State.reset.port with binds := [(2, { vppbReset with state := .binding, port := 0, hotplugOn := true })] } }, by decide +kernel⟩,
   ⟨.fmapi, 0, 2, 1, { boundTo 2 with port := { State.reset.port with binds := [(2, { vppbReset with state := .bound, port := 0, hotplugOn := true })] } }, by decide +kernel⟩,
   ⟨.fmapi, 0, 2, 2, boundTo 2, by decide +kernel⟩,
   ⟨0, 2, { boundTo 2 with port := { State.reset.port with binds := [(2, { vppbReset with state := .unbinding, option := 1, port := 0 })] } }, by decide +kernel⟩⟩

/-- Port 0 in L0 with a multi-logical device of 4 LDs. -/
def mldUp : State := odSet (odSet portZeroUp 0x2100 0x14 4) 0x2100 0x15 4

/-- States and operands that meet the hypotheses of each clause of `Obligations.FmApiSettings`. -/
theorem witness_FmApiSettings :
    (∃ (n : Byte) (s : State), 8 ≤ n.toNat ∧ n.toNat ≤ 20) ∧
    (∃ (n : Byte) (s : State), (n.toNat < 8 ∨ 20 < n.toNat)) ∧
    (∃ (v : Fin 64) (d : Fin 32) (x : BitVec 32) (s : State), ((vppb s v.val d.val).state = .bound)) ∧
    (∃ (v : Fin 64) (d : Fin 32) (x : BitVec 32) (s : State), (vppb s v.val d.val).state ≠ .bound) ∧
    (∃ (v : Fin 64) (r : Fin 8) (b : BitVec 64) (n : BitVec 64) (s : State), (b.toNat % 2 ^ 21 = 0) ∧ b.toNat < 2 ^ 58 ∧ (n.toNat % 2 ^ 21 = 0)) ∧
    (∃ (v : Fin 64) (r : Fin 8) (b : BitVec 64) (n : BitVec 64) (s : State), (b.toNat % 2 ^ 21 ≠ 0 ∨ 2 ^ 58 ≤ b.toNat ∨ n.toNat % 2 ^ 21 ≠ 0)) :=
  ⟨⟨20, State.reset, by decide +kernel⟩,
   ⟨7, State.reset, by decide +kernel⟩,
   ⟨0, 2, 7, boundTo 2, by decide +kernel⟩,
   ⟨0, 2, 7, State.reset, by decide +kernel⟩,
   ⟨0, 7, 0x200000, 0x400000, State.reset, by decide +kernel⟩,
   ⟨0, 7, 0x200000, 1, State.reset, by decide +kernel⟩⟩

/-- States and operands that meet the hypotheses of each clause of `Obligations.FmApiDevices`. -/
theorem witness_FmApiDevices :
    (∃ (p : Fin 96) (s : State), (commandRefused s p.val = false)) ∧
    (∃ (p : Fin 96) (s : State), (commandRefused s p.val = false) ∧ p.val ∈ s.pins.perstLow ∧ (mayTrain s p.val = true) ∧ (slotReady s p.val = true)) ∧
    (∃ (p : Fin 96) (o : Fin 3) (s : State), (commandRefused s p.val = true)) ∧
    (∃ (p : Fin 96) (b : List Byte) (s : State), (mldPort s p.val = true) ∧ (bindsOf s p.val = [])) ∧
    (∃ (p : Fin 96) (b : List Byte) (s : State), (mldPort s p.val = false ∨ bindsOf s p.val ≠ [])) ∧
    (∃ (p : Fin 96) (l : Fin 16) (a : FmAccess) (s : State), (mldPort s p.val = true) ∧ l.val < odGet s (portIdx p.val) 0x15 ∧ (∀ n ∈ s.port.np, n.fromPort ≠ 97)) ∧
    (∃ (p : Fin 96) (l : Fin 16) (a : BitVec 64) (n : Nat) (s : State), (mldPort s p.val = true) ∧ l.val < odGet s (portIdx p.val) 0x15 ∧ (∀ n ∈ s.port.np, n.fromPort ≠ 97)) ∧
    (∃ (p : Fin 96) (l : Fin 16) (a : BitVec 64) (d : List Byte) (s : State), (mldPort s p.val = true) ∧ l.val < odGet s (portIdx p.val) 0x15 ∧ (∀ n ∈ s.port.np, n.fromPort ≠ 97)) ∧
    (∃ (p : Fin 96) (l : Fin 16) (a : FmAccess) (s : State), (mldPort s p.val = false ∨ odGet s (portIdx p.val) 0x15 ≤ l.val)) :=
  ⟨⟨0, portZeroUp, by decide +kernel⟩,
   ⟨0, { portZeroUp with pins := { State.reset.pins with perstLow := [0] } }, by decide +kernel⟩,
   ⟨0, 2, State.reset, by decide +kernel⟩,
   ⟨0, [1], mldUp, by decide +kernel⟩,
   ⟨0, [1], State.reset, by decide +kernel⟩,
   ⟨0, 3, .read 0 4, mldUp, by decide +kernel⟩,
   ⟨0, 3, 0, 4, mldUp, by decide +kernel⟩,
   ⟨0, 3, 0, [1], mldUp, by decide +kernel⟩,
   ⟨0, 4, .read 0 4, mldUp, by decide +kernel⟩⟩

/-- States and operands that meet the hypotheses of each clause of `Obligations.IngressAndRoute`. -/
theorem witness_IngressAndRoute :
    (∃ (p : Fin 96) (s : State), (portUp s p.val = true)) ∧
    (∃ (p : Fin 96) (m : PortMsg) (vn : Vn) (s : State), (portUp s p.val = true) ∧ (∀ t : Tlp, m ≠ .tlp t) ∧ (ideBlocks s p.val = false) ∧ (parseVn (hostOfPort s p.val).isSome (poolPort s p.val) m = some vn) ∧ (ingressRoom s p.val vn m = true)) ∧
    (∃ (p : Fin 96) (ms : List PortMsg) (s : State), (portUp s p.val = false)) ∧
    (∃ (p : Fin 96) (vn : Vn) (t : Tlp) (z : Nat) (v : Nat) (d : Nat) (rest : List InMsg) (s : State), (vnIsIo vn = true) ∧ (bridgeOpen s (p.val / 6) vn = true) ∧ (ingress s p.val vn = { msg := .tlp t, since := z } :: rest) ∧ (t.kind = .memRead) ∧ (s.flt.safe = false) ∧ (hostOfPort s p.val = some v) ∧ (odGet s (0x2200 + v) 1 = 1) ∧ (ioTarget s v none t.addr.toNat = .device d)) ∧
    (∃ (p : Fin 96) (vn : Vn) (t : Tlp) (z : Nat) (v : Nat) (rest : List InMsg) (s : State), (vnIsIo vn = true) ∧ (bridgeOpen s (p.val / 6) vn = true) ∧ (ingress s p.val vn = { msg := .tlp t, since := z } :: rest) ∧ (t.kind = .memRead) ∧ (s.flt.safe = false) ∧ (hostOfPort s p.val = some v) ∧ (odGet s (0x2200 + v) 1 = 1) ∧ (ioTarget s v none t.addr.toNat = .nowhere)) ∧
    (∃ (p : Fin 96) (vn : Vn) (t : Tlp) (z : Nat) (rest : List InMsg) (s : State), (vnIsIo vn = true) ∧ (bridgeOpen s (p.val / 6) vn = true) ∧ (ingress s p.val vn = { msg := .tlp t, since := z } :: rest) ∧ ((tlpType t.kind).1 = .ioc) ∧ (∀ n ∈ s.port.np, n.toPort ≠ p.val)) :=
  ⟨⟨0, portZeroUp, by decide +kernel⟩,
   ⟨0, .req .memRd .a 0 0, .req, hostUp 2, ⟨by decide +kernel, by simp, by decide +kernel⟩⟩,
   ⟨0, [], State.reset, by decide +kernel⟩,
   ⟨0, .ion, readTlp, 0, 0, 2, [], received hostAndDevice .ion (.tlp readTlp), ⟨by decide, bridgeOpen_of_nothing rfl, by decide +kernel⟩⟩,
   ⟨0, .ion, readTlp, 0, 0, [], received (hostUp 2) .ion (.tlp readTlp), ⟨by decide, bridgeOpen_of_nothing rfl, by decide +kernel⟩⟩,
   ⟨0, .ioc, { readTlp with kind := .completion }, 0, [], received (hostUp 2) .ioc (.tlp { readTlp with kind := .completion }), ⟨by decide, bridgeOpen_of_nothing rfl, by decide +kernel⟩⟩⟩

/-- States and operands that meet the hypotheses of each clause of `Obligations.HdmDecoders`. -/
theorem witness_HdmDecoders :
    (∃ (v : Fin 64) (i : Fin 32) (b : BitVec 24) (n : BitVec 24) (w : Fin 5) (g : Fin 7) (s : State), odGet s (0x2200 + v.val) 1 ≠ 0 ∧ ((decoder s v.val i.val).committed = false)) ∧
    (∃ (v : Fin 64) (i : Fin 32) (b : BitVec 24) (n : BitVec 24) (w : Fin 5) (g : Fin 7) (s : State), odGet s (0x2200 + v.val) 1 ≠ 0 ∧ ((decoder s v.val i.val).committed = true)) ∧
    (∃ (v : Fin 64) (i : Fin 32) (b : BitVec 24) (n : BitVec 24) (w : Fin 5) (g : Fin 7) (s : State), odGet s (0x2200 + v.val) 1 ≠ 0) ∧
    (∃ (v : Fin 64) (i : Fin 32) (len : Bool) (x : BitVec 64) (s : State), (x.toNat % 2 ^ 21 = 0) ∧ (len = false → x.toNat < 2 ^ 58) ∧ ((decoder s v.val i.val).committed = false)) ∧
    (∃ (v : Fin 64) (i : Fin 32) (len : Bool) (x : BitVec 64) (s : State), x.toNat % 2 ^ 21 ≠ 0) :=
  ⟨⟨0, 0, 1, 1, 0, 0, withOd [(0x2200, 1, 1), (0x2340, 1, 0x10000000)], by decide +kernel⟩,
   ⟨0, 0, 1, 1, 0, 0, { withOd [(0x2200, 1, 1)] with port := { State.reset.port with dec := [(0, { decoderReset with committed := true })] } }, by decide +kernel⟩,
   ⟨0, 0, 1, 1, 0, 0, withOd [(0x2200, 1, 1)], by decide +kernel⟩,
   ⟨0, 0, false, 0x200000, State.reset, by decide +kernel⟩,
   ⟨0, 0, false, 1, State.reset, by decide +kernel⟩⟩

/-- An extent of VCS 0 of 2 MiB at pool address 0. -/
def extentIn (x : ExtState) : Extent := { region := 0, base := 0, len := 2 ^ 21, state := x, forced := false, batch := 0 }

/-- VCS 0 with one extent, one region of 4 MiB, and room for 16 extents. -/
def withExtent (x : ExtState) : State :=
  { withOd [(0x2200, 4, 16), (0x2200, 5, 1), (0x2540, 1, 0x400000)] with port := { State.reset.port with ext := [(0, [extentIn x])] } }

/-- States and operands that meet the hypotheses of each clause of `Obligations.DynamicCapacity`. -/
theorem witness_DynamicCapacity :
    (∃ (v : Fin 64) (xs : List DcPart) (m : List Extent) (s : State), (extents s v.val).length + xs.length ≤ odGet s (0x2200 + v.val) 4 ∧ xs ≠ [] ∧ (offerAll s v.val xs (extents s v.val) = some m)) ∧
    (∃ (v : Fin 64) (xs : List DcPart) (s : State), odGet s (0x2200 + v.val) 4 < (extents s v.val).length + xs.length) ∧
    (∃ (v : Fin 64) (b : BitVec 64) (e : Extent) (s : State), (((extents s v.val).find? fun x => decide (x.state = .accepted) && decide (x.base = b.toNat)) = some e)) ∧
    (∃ (v : Fin 64) (b : BitVec 64) (e : Extent) (s : State), (((extents s v.val).find? fun x => decide (x.state = .accepted) && decide (x.base = b.toNat)) = some e)) ∧
    (∃ (v : Fin 64) (b : BitVec 64) (e : Extent) (s : State), (((extents s v.val).find? fun x => decide (x.state = .accepted) && decide (x.base = b.toNat)) = some e)) ∧
    (∃ (v : Fin 64) (bs : List (BitVec 64)) (s : State), (acceptedAt s v.val (bs.map fun b => b.toNat) = none)) ∧
    (∃ (v : Fin 64) (b : BitVec 64) (e : Extent) (s : State), (((extents s v.val).find? fun x => decide (x.state = .releasing) && decide (x.base = b.toNat)) = some e) ∧ (extentQuiet s v.val e = true) ∧ (extentWalked s v.val e = true)) :=
  ⟨⟨0, [{ region := 0, off := 1, len := 1 }], [extentIn .accepted, { extentIn .offered with base := 2 ^ 21 }], withExtent .accepted, by decide +kernel⟩,
   ⟨0, List.replicate 16 { region := 0, off := 1, len := 1 }, withExtent .accepted, by decide +kernel⟩,
   ⟨0, 0, extentIn .accepted, withExtent .accepted, by decide +kernel⟩,
   ⟨0, 0, extentIn .accepted, withExtent .accepted, by decide +kernel⟩,
   ⟨0, 0, extentIn .accepted, withExtent .accepted, by decide +kernel⟩,
   ⟨0, [0], withExtent .offered, by decide +kernel⟩,
   ⟨0, 0, extentIn .releasing, withExtent .releasing, by decide +kernel⟩⟩

/-- A message for the host of a port. -/
def outgoing : EgUnit := { h := heldAs 0 (unitOn .rsp), cell := false, msg := some (.cmp 5 false) }

/-- States and operands that meet the hypotheses of each clause of `Obligations.BufferLimits`. -/
theorem witness_BufferLimits :
    (∃ (s : State), (s.swc.raising = []) ∧ (∀ d : Nat, d < 4 → stagedTotal s d ≤ 262144) ∧ (∀ p : Nat, p < 112 → portCounts s p = true → ∀ i : Nat, i < 16 → 9 ≤ stagedLimit s p i)) ∧
    (∃ (p : Nat) (s : State), (s.swc.raising = []) ∧ (∀ d : Nat, d < 4 → stagedTotal s d ≤ 262144) ∧ ((List.range 112).find? (fun p => portCounts s p && (List.range 16).any fun i => decide (stagedLimit s p i < 9)) = some p)) ∧
    (∃ (s : State), s.swc.raising ≠ []) ∧
    (∃ (d : Nat) (s : State), (s.swc.raising = []) ∧ d < 4 ∧ (∀ e : Nat, e < d → stagedTotal s e ≤ 262144) ∧ 262144 < stagedTotal s d) ∧
    (∃ (d : Fin 4) (up : List (Nat × Nat)) (s : State), (tabFind? d.val s.swc.raising = some up) ∧ (up.map Prod.fst).Nodup ∧ (dieSettled s d.val = true)) ∧
    (∃ (d : Fin 4) (s : State), (tabFind? d.val s.swc.raising = none ∨ dieSettled s d.val = false)) :=
  ⟨⟨State.reset, ⟨by decide +kernel, by decide +kernel, by decide +kernel⟩⟩,
   ⟨0, withOd [(0x2100, 1, 2), (0x3100, 1, 8)], by decide +kernel⟩,
   ⟨{ State.reset with swc := { State.reset.swc with raising := [(0, [])] } }, by decide +kernel⟩,
   ⟨0, withOd [(0x3100, 1, 262145)], by decide +kernel⟩,
   ⟨3, [(0, 100)], { State.reset with swc := { State.reset.swc with raising := [(3, [(0, 100)])] } }, by decide +kernel⟩,
   ⟨0, State.reset, by decide +kernel⟩⟩

/-- States and operands that meet the hypotheses of each clause of `Obligations.EgressAndAgeing`. -/
theorem witness_EgressAndAgeing :
    (∃ (p : Fin 96) (vn : Vn) (e : EgUnit) (m : LinkMsg) (rest : List EgUnit) (s : State), (portUp s p.val = true) ∧ (egress s p.val vn = e :: rest) ∧ (e.msg = some m) ∧ (mayLeave s p.val e = true)) ∧
    (∃ (p : Fin 96) (vn : Vn) (s : State), (portUp s p.val = false)) ∧
    (∃ (p : Fin 112) (vn : Vn) (n : Nat) (s : State), (tabFind? (pairKey p.val vn) s.swc.gaps = some n) ∧ stillToCome s (pairKey p.val vn) < n) ∧
    (∃ (p : Fin 112) (v : Vn) (s : State), (vnAged v = true) ∧ p.val < 96) ∧
    (∃ (p : Fin 112) (v : Vn) (s : State), (vnAged v = true) ∧ 96 ≤ p.val) :=
  ⟨⟨0, .rsp, outgoing, .cmp 5 false, [], setEgress portZeroUp 0 .rsp [outgoing], by decide +kernel⟩,
   ⟨0, .rsp, State.reset, by decide +kernel⟩,
   ⟨111, .dat, 3, { State.reset with swc := { State.reset.swc with gaps := [(pairKey 111 .dat, 3)], cutting := [(pairKey 111 .dat, 0, 0, 2)] } }, by decide +kernel⟩,
   ⟨0, .req, { setIngress portZeroUp 0 .req [{ msg := .req .memRd .a 0 7, since := 0 }] with time := { State.reset.time with clock := 10 ^ 12 } }, by decide +kernel⟩,
   ⟨96, .req, State.reset, by decide +kernel⟩⟩

/-- States and operands that meet the hypotheses of each clause of `Obligations.TraceRing`. -/
theorem witness_TraceRing :
    (∃ (n : Fin 65537) (r : Nat) (s : State), (r = (if odGet s 0x3050 2 = 0 then max (odGet s 0x3050 5) (odGet s 0x3050 4 - traceCapacity s) else odGet s 0x3050 5))) :=
  ⟨0, 0, State.reset, by decide +kernel⟩

/-- The host of VCS 0 is up, and `m` waits in the ingress pair of port 0 for `v`. -/
def hostSends (v : Vn) (m : PortMsg) : State := received (hostUp 2) v m

/-- A unit waits for the agent of its port. -/
def waits (u : FUnit) : EgUnit := { h := heldAs 0 u, cell := true, msg := none }

/-- A request of the proxy for line 5 of this switch. -/
def aRequest (st : ReqSt) : ProxyReq :=
  { tag := 3, kind := 1, hpa := 5, hostTag := 9, st := st, nacks := 1, senior := false, first := 0, pool := some (0, 5), arrived := 0
    started := 0, due := 0 }

/-- A snoop of line 5 that has been passed to the host. -/
def aSnoop : ProxySnoop :=
  { biTag := 4, inv := false, line := 5, home := 0, src := 0, tag := 0, body := unpackSnp 0, out := true, dirty := none }

/-- VCS 0 with a committed decoder of 256 MiB. -/
def decoding (s : State) : State :=
  { s with port := { s.port with dec := [(0, { decoderReset with size := 2 ^ 28, committed := true })] } }

/-- A MemWr of port 0's agent. -/
def aWrite (pulled sent : Bool) : PoolWrite := { u := { unitOn .req with type := 9 }, pulled := pulled, sent := sent, link := 0 }

/-- The agent of port 0 with reads and writes under way. -/
def poolWith (rs : List (Nat × FUnit)) (ws : List PoolWrite) (s : State) : State :=
  setPool s 0 { writes := ws, reads := rs, nextTag := 7 }

/-- A snoop that the remote agent of port 0 has fanned out, with no reply to come. -/
def aFanOut : FanOut := { island := 0, u := unitOn .snp, waiting := [], reply := none, poison := false, synth := false }

/-- States and operands that meet the hypotheses of each clause of `Obligations.ProxyHostSide`. -/
theorem witness_ProxyHostSide :
    (∃ (v : Fin 64) (p : Nat) (tag : Nat) (kind : Nat) (z : Nat) (k : HostReqKind) (m : Meta) (a : BitVec 46) (t : BitVec 16) (rest : List InMsg) (s : State), (upstreamPort s v.val = some p) ∧ (ingress s p .req = { msg := .req k m a t, since := z } :: rest) ∧ (mapRequest k m = some kind) ∧ k ≠ .memSpecRd ∧ (bridgeOpen s (p / 6) .req = true) ∧ ((proxy s v.val).freeTag = some tag) ∧ (proxy s v.val).reqs.length < 512) ∧
    (∃ (v : Fin 64) (p : Nat) (z : Nat) (m : Meta) (a : BitVec 46) (t : BitVec 16) (rest : List InMsg) (s : State), (upstreamPort s v.val = some p) ∧ (ingress s p .req = { msg := .req .memSpecRd m a t, since := z } :: rest) ∧ (bridgeOpen s (p / 6) .req = true)) ∧
    (∃ (v : Fin 64) (p : Nat) (z : Nat) (a : BitVec 46) (t : BitVec 16) (rest : List InMsg) (s : State), (upstreamPort s v.val = some p) ∧ (ingress s p .req = { msg := .req .memInv .s a t, since := z } :: rest) ∧ (portUp s p = true) ∧ (bridgeOpen s (p / 6) .req = true)) ∧
    (∃ (v : Fin 64) (p : Nat) (tag : Nat) (z : Nat) (m : Meta) (a : BitVec 46) (t : BitVec 16) (mask : BitVec 64) (poison : Bool) (d : LineData) (rest : List InMsg) (s : State), (upstreamPort s v.val = some p) ∧ (ingress s p .wb = { msg := .rwd false m a t mask poison d, since := z } :: rest) ∧ (bridgeOpen s (p / 6) .wb = true) ∧ (biSnpFor s v.val a = none) ∧ ((proxy s v.val).freeTag = some tag) ∧ (proxy s v.val).evs.length < 256 ∧ (lineBusy (proxy s v.val) a = false)) ∧
    (∃ (v : Fin 64) (p : Nat) (tag : Nat) (z : Nat) (m : Meta) (a : BitVec 46) (t : BitVec 16) (mask : BitVec 64) (poison : Bool) (d : LineData) (rest : List InMsg) (s : State), (upstreamPort s v.val = some p) ∧ (ingress s p .wb = { msg := .rwd true m a t mask poison d, since := z } :: rest) ∧ ((proxy s v.val).freeTag = some tag) ∧ (proxy s v.val).wrs.length < 128 ∧ (bridgeOpen s (p / 6) .wb = true)) :=
  ⟨⟨0, 0, 0, 1, 0, .memRd, .a, 5, 9, [], hostSends .req (.req .memRd .a 5 9), ⟨by decide +kernel, by decide +kernel, by decide, by decide, bridgeOpen_of_nothing rfl, by decide +kernel⟩⟩,
   ⟨0, 0, 0, .a, 5, 9, [], hostSends .req (.req .memSpecRd .a 5 9), ⟨by decide +kernel, by decide +kernel, bridgeOpen_of_nothing rfl⟩⟩,
   ⟨0, 0, 0, 5, 9, [], hostSends .req (.req .memInv .s 5 9), ⟨by decide +kernel, by decide +kernel, by decide +kernel, bridgeOpen_of_nothing rfl⟩⟩,
   ⟨0, 0, 0, 0, .s, 5, 9, 0, false, 0, [], hostSends .wb (.rwd false .s 5 9 0 false 0), ⟨by decide +kernel, by decide +kernel, bridgeOpen_of_nothing rfl, by decide +kernel⟩⟩,
   ⟨0, 0, 0, 0, .s, 5, 9, 0, false, 0, [], hostSends .wb (.rwd true .s 5 9 0 false 0), ⟨by decide +kernel, by decide +kernel, by decide +kernel, by decide +kernel, bridgeOpen_of_nothing rfl⟩⟩⟩

/-- States and operands that meet the hypotheses of each clause of `Obligations.ProxySnoops`. -/
theorem witness_ProxySnoops :
    (∃ (v : Fin 64) (p : Nat) (h : Held) (s : State), (upstreamPort s v.val = some p) ∧ (egressHead s p .snp = some h) ∧ (proxy s v.val).snps.length < 1024 ∧ (ownOutstanding s v.val ((switchOf h.u.src).getD (ownSwitch s)) h.u.line = true)) ∧
    (∃ (v : Fin 64) (p : Nat) (h : Held) (a : BitVec 46) (s : State), (upstreamPort s v.val = some p) ∧ (egressHead s p .snp = some h) ∧ (proxy s v.val).snps.length < 1024 ∧ (ownOutstanding s v.val ((switchOf h.u.src).getD (ownSwitch s)) h.u.line = false) ∧ (∀ e ∈ (proxy s v.val).evs, entryIs s v.val e.pool e.hpa ((switchOf h.u.src).getD (ownSwitch s)) h.u.line = false) ∧ (portUp s p = true) ∧ (hostLine s v.val ((switchOf h.u.src).getD (ownSwitch s)) h.u.line = some a)) ∧
    (∃ (v : Fin 64) (p : Nat) (z : Nat) (k : BiRspKind) (t : BitVec 16) (sn : ProxySnoop) (rest : List InMsg) (s : State), (upstreamPort s v.val = some p) ∧ (ingress s p .rsp = { msg := .biRsp k t, since := z } :: rest) ∧ (((proxy s v.val).snps.find? fun e => e.out && decide (e.biTag = t.toNat)) = some sn) ∧ (bridgeOpen s (p / 6) .rsp = true)) ∧
    (∃ (v : Fin 64) (p : Nat) (z : Nat) (a : BitVec 46) (t : BitVec 16) (rest : List InMsg) (s : State), (upstreamPort s v.val = some p) ∧ (ingress s p .req = { msg := .biConflict a t, since := z } :: rest) ∧ (portUp s p = true)) :=
  ⟨⟨0, 0, heldAs 0 { unitOn .snp with line := 5 }, setEgress (setProxy (hostUp 2) 0 { proxyReset with reqs := [aRequest .issued] }) 0 .snp [waits { unitOn .snp with line := 5 }], by decide +kernel⟩,
   ⟨0, 0, heldAs 0 { unitOn .snp with line := 4 }, BitVec.ofNat 46 ((0 + (4 * 64 / 2 ^ 8) * 2 ^ (8 + 0) + Config.interleaveWay 0 0 % 2 ^ 0 * 2 ^ 8 + 4 * 64 % 2 ^ 8) / 64), setEgress (decoding (hostUp 2)) 0 .snp [waits { unitOn .snp with line := 4 }], ⟨by decide +kernel, by decide +kernel, by decide +kernel, by decide +kernel, by decide +kernel, by decide +kernel, by set_option maxRecDepth 100000 in rfl⟩⟩,
   ⟨0, 0, 0, .i, 4, aSnoop, [], setProxy (hostSends .rsp (.biRsp .i 4)) 0 { proxyReset with snps := [aSnoop] }, ⟨by decide +kernel, by decide +kernel, by decide +kernel, bridgeOpen_of_nothing rfl⟩⟩,
   ⟨0, 0, 0, 5, 9, [], hostSends .req (.biConflict 5 9), by decide +kernel⟩⟩

/-- States and operands that meet the hypotheses of each clause of `Obligations.ProxyAnswers`. -/
theorem witness_ProxyAnswers :
    (∃ (v : Fin 64) (p : Nat) (h : Held) (e : ProxyReq) (s : State), (upstreamPort s v.val = some p) ∧ (nextResponse s p .dat = some h) ∧ (tabFind? (h.u.tag.toNat % 512) (proxy s v.val).quarantine = none) ∧ (((proxy s v.val).reqs.find? fun x => decide (x.tag = h.u.tag.toNat % 512)) = some e) ∧ (wrongLine h.u e.pool = false)) ∧
    (∃ (v : Fin 64) (b : Bool) (p : Nat) (h : Held) (l : BitVec 42) (s : State), (upstreamPort s v.val = some p) ∧ (nextResponse s p (if b then .dat else .rsp) = some h) ∧ (tabFind? (h.u.tag.toNat % 512) (proxy s v.val).quarantine = some l)) ∧
    (∃ (v : Fin 65) (t : Fin 4096) (p : Nat) (e : ProxyReq) (s : State), v.val < 64 ∧ (upstreamPort s v.val = some p) ∧ (((proxy s v.val).reqs.find? fun x => decide (x.tag = t.val)) = some e) ∧ (e.st = .backoff)) :=
  ⟨⟨0, 0, heldAs 0 { unitOn .dat with line := 5, tag := 3 }, aRequest .issued, setEgress (setProxy (hostUp 2) 0 { proxyReset with reqs := [aRequest .issued] }) 0 .dat [waits { unitOn .dat with line := 5, tag := 3 }], by decide +kernel⟩,
   ⟨0, true, 0, heldAs 0 { unitOn .dat with line := 5, tag := 3 }, 8, setEgress (setProxy (hostUp 2) 0 { proxyReset with quarantine := [(3, 8)] }) 0 .dat [waits { unitOn .dat with line := 5, tag := 3 }], by decide +kernel⟩,
   ⟨0, 3, 0, aRequest .backoff, setProxy (hostUp 2) 0 { proxyReset with reqs := [aRequest .backoff] }, by decide +kernel⟩⟩

/-- States and operands that meet the hypotheses of each clause of `Obligations.PoolPort`. -/
theorem witness_PoolPort :
    (∃ (p : Fin 96) (h : Held) (s : State), (egressHead s p.val .req = some h) ∧ (h.u.type = 8)) ∧
    (∃ (p : Fin 96) (h : Held) (s : State), (egressHead s p.val .req = some h) ∧ (h.u.type = 9) ∧ (poolAgent s p.val).writes.length < 512) ∧
    (∃ (p : Fin 96) (w : PoolWrite) (s : State), (((poolAgent s p.val).writes.filter fun x => x.pulled && (!x.sent || rwdStands s p.val x)).length < 256) ∧ (((poolAgent s p.val).writes.find? fun x => !x.pulled) = some w)) ∧
    (∃ (p : Fin 96) (h : Held) (w : PoolWrite) (s : State), (egressHead s p.val .dat = some h) ∧ (((poolAgent s p.val).writes.find? fun x => x.pulled && !x.sent && decide (x.u.src = h.u.src) && decide (x.u.tag = h.u.tag)) = some w)) ∧
    (∃ (p : Fin 96) (t : BitVec 16) (poison : Bool) (d : LineData) (z : Nat) (q : Nat × FUnit) (rest : List InMsg) (s : State), (ingress s p.val .dat = { msg := .drs t poison d, since := z } :: rest) ∧ (bridgeOpen s (p.val / 6) .dat = true) ∧ (((poolAgent s p.val).reads.find? fun x => decide (x.1 = t.toNat)) = some q)) ∧
    (∃ (p : Fin 96) (t : BitVec 16) (z : Nat) (w : PoolWrite) (rest : List InMsg) (s : State), (ingress s p.val .rsp = { msg := .ndr t, since := z } :: rest) ∧ (bridgeOpen s (p.val / 6) .rsp = true) ∧ (((poolAgent s p.val).writes.find? fun x => x.sent && decide (x.link = t.toNat)) = some w)) :=
  ⟨⟨0, heldAs 0 { unitOn .req with type := 8 }, setEgress State.reset 0 .req [waits { unitOn .req with type := 8 }], by decide +kernel⟩,
   ⟨0, heldAs 0 { unitOn .req with type := 9 }, setEgress State.reset 0 .req [waits { unitOn .req with type := 9 }], by decide +kernel⟩,
   ⟨0, aWrite false false, poolWith [] [aWrite false false] State.reset, by decide +kernel⟩,
   ⟨0, heldAs 0 (unitOn .dat), aWrite true false, setEgress (poolWith [] [aWrite true false] State.reset) 0 .dat [waits (unitOn .dat)], by decide +kernel⟩,
   ⟨0, 6, false, 0, 0, (6, { unitOn .req with type := 8 }), [], received (poolWith [(6, { unitOn .req with type := 8 })] [] State.reset) .dat (.drs 6 false 0), ⟨by decide +kernel, bridgeOpen_of_nothing rfl, by decide +kernel⟩⟩,
   ⟨0, 0, 0, aWrite true true, [], received (poolWith [] [aWrite true true] State.reset) .rsp (.ndr 0), ⟨by decide +kernel, bridgeOpen_of_nothing rfl, by decide +kernel⟩⟩⟩

/-- States and operands that meet the hypotheses of each clause of `Obligations.RemoteAgents`. -/
theorem witness_RemoteAgents :
    (∃ (a : Fin 16) (v : Vn) (h : Held) (rest : List Held) (s : State), (ejectBuf s (bridgeStop a.val) 8 v = h :: rest)) ∧
    (∃ (a : Fin 16) (h : Held) (k : Nat) (rest : List Held) (s : State), (ejectBuf s (bridgeStop a.val) 8 .snp = h :: rest) ∧ (h.u.vn = .snp) ∧ h.u.type ≠ 0x3F ∧ (h.hpa = some (k, 1)) ∧ 128 ≤ k) ∧
    (∃ (a : Fin 16) (f : FanOut) (s : State), ((s.prox.fans.find? fun g => decide (g.island = a.val) && g.waiting.isEmpty) = some f)) :=
  ⟨⟨0, .rsp, heldAs 0 (unitOn .rsp), [], setEjectBuf State.reset 0 8 .rsp [heldAs 0 (unitOn .rsp)], by decide +kernel⟩,
   ⟨0, { heldAs 0 (unitOn .snp) with hpa := some (130, 1) }, 130, [], setEjectBuf State.reset 0 8 .snp [{ heldAs 0 (unitOn .snp) with hpa := some (130, 1) }], by decide +kernel⟩,
   ⟨0, aFanOut, { State.reset with prox := { State.reset.prox with fans := [aFanOut] } }, by decide +kernel⟩⟩

/-- One REQ unit at the home of slice 0. -/
def atHome (u : FUnit) : State := setEjectBuf State.reset (homeStop State.reset 0) 1 .req [heldAs 0 u]

/-- A tracker of line 5 that waits for the fill of its directory entry. -/
def filling (r : Option ReqInfo) : Tracker := { blankTracker State.reset 5 .fill with req := r }

/-- `s` with line `x` pinned in slice 0. -/
def pinned (s : State) (x : BitVec 42) : State := (pinLine s 0 x).getD s

/-- A directory entry of line 5 that waits to be written to the snoop filter. -/
def leaving : DirEntry := { freshEntry State.reset 5 with pinned := false }
/-- States and operands that meet the hypotheses of each clause of `Obligations.HomeIntake`. -/
theorem witness_HomeIntake :
    (∃ (l : Fin 32) (h : Held) (n : Nat) (s1 : State) (s : State), h.inp < 4 ∧ (ejectBuf s (homeStop s l.val) 1 .req = [h]) ∧ (ejectBuf s (homeStop s l.val) 1 .wb = []) ∧ (ejectBuf s (homeStop s l.val) 1 .rsp = []) ∧ (ejectBuf s (homeStop s l.val) 1 .dat = []) ∧ h.u.type.toNat ≤ 5 ∧ (s.flt.safe = false) ∧ (s.dir.removals = []) ∧ (s.dir.hostWait = []) ∧ (s.dir.clearing = false) ∧ ((slice s l.val).lostLines = []) ∧ (inRecovery s h.u.line = false) ∧ (trackerFor s l.val h.u.line = none) ∧ (heldFor (slice s l.val) h.u.line = none) ∧ (cacheFind s l.val h.u.line = none) ∧ (insertingFor s l.val h.u.line = none) ∧ (pickTracker s l.val (reqOf h.u) = some n) ∧ (pinLine (odSet (setEjectBuf s (homeStop s l.val) 1 .req []) 0x4003 (l.val + 1) ((h.inp + 1) % 4)) l.val h.u.line = some s1)) ∧
    (∃ (l : Fin 32) (h : Held) (k : Nat × Tracker) (s : State), h.inp < 4 ∧ (ejectBuf s (homeStop s l.val) 1 .req = [h]) ∧ (ejectBuf s (homeStop s l.val) 1 .wb = []) ∧ (ejectBuf s (homeStop s l.val) 1 .rsp = []) ∧ (ejectBuf s (homeStop s l.val) 1 .dat = []) ∧ h.u.type.toNat ≤ 5 ∧ ((reqOf h.u).senior = false) ∧ (s.flt.safe = false) ∧ (s.dir.removals = []) ∧ (s.dir.hostWait = []) ∧ (s.dir.clearing = false) ∧ ((slice s l.val).lostLines = []) ∧ (inRecovery s h.u.line = false) ∧ (trackerFor s l.val h.u.line = some k)) ∧
    (∃ (l : Fin 32) (n : Fin 2048) (k : Tracker) (r : ReqInfo) (s1 : State) (s2 : State) (s : State), (tracker s l.val n.val = some k) ∧ (k.phase = .fill) ∧ (k.req = some r) ∧ (r.kind = 4 ∨ r.kind = 5) ∧ (fillLine s l.val k.line = (s1, false)) ∧ (lineState s1 l.val k.line = (s2, .invalid))) ∧
    (∃ (l : Fin 32) (e : DirEntry) (i : Nat) (w : SfWay) (x : SfWay) (s : State), ((s.dir.inserting.find? fun q => decide (q.1 = l.val)) = some (l.val, e)) ∧ (lineState s l.val e.line = (s, e.st)) ∧ (sfChoose s (sfKey s l.val e.line) = some (i, w)) ∧ (w.st = .invalid) ∧ i < 8 ∧ ((sfSet s (sfKey s l.val e.line))[i]? = some x)) :=
  ⟨⟨0, heldAs 0 { unitOn .req with line := 5 }, 0, pinned (odSet (setEjectBuf (atHome { unitOn .req with line := 5 }) (homeStop State.reset 0) 1 .req []) 0x4003 1 1) 5, atHome { unitOn .req with line := 5 }, ⟨by decide +kernel, by decide +kernel, by decide +kernel, by decide +kernel, by decide +kernel, by decide +kernel, by decide +kernel, by decide +kernel, by decide +kernel, by decide +kernel, by decide +kernel, by decide +kernel, by decide +kernel, by decide +kernel, by decide +kernel, by decide +kernel, by decide +kernel, by decide +kernel⟩⟩,
   ⟨0, heldAs 0 { unitOn .req with line := 5 }, (3, filling none), setTracker (atHome { unitOn .req with line := 5 }) 0 3 (filling none), by decide +kernel⟩,
   ⟨0, 3, filling (some { reqOf (unitOn .req) with kind := 4 }), { reqOf (unitOn .req) with kind := 4 }, setTracker State.reset 0 3 (filling (some { reqOf (unitOn .req) with kind := 4 })), setTracker State.reset 0 3 (filling (some { reqOf (unitOn .req) with kind := 4 })), setTracker State.reset 0 3 (filling (some { reqOf (unitOn .req) with kind := 4 })), by decide +kernel⟩,
   ⟨0, leaving, 7, { tag := 0, st := .invalid, order := 7 }, { tag := 0, st := .invalid, order := 7 }, { State.reset with dir := { State.reset.dir with inserting := [(0, leaving)] } }, by decide +kernel⟩⟩

/-- A granule's entry in the backing. -/
def entryAt (g : Nat) (e : BitVec 48) (s : State) : State := setBacking s g e

/-- Granule 3, mapped to port 1. -/
def mappedThree : State := entryAt 3 (mkEntry 1 false 1 0 8) State.reset

/-- A move of granule 3 in state `st`. -/
def aMove (st : MoveSt) : Move :=
  { state := st, copying := false, restore := false, front := 0, attempts := 0, gran := 3, dest := { port := 2, ld := 0, gran := 9, gen := true }
    abandons := 0, old := { port := 1, ld := 0, gran := 8, gen := false }, clear := false, lines := [], stale := none, started := 0
    notBefore := 0, stalled := false, lostSrc := false, lostDst := false, salvage := [], finalAsked := false, finalDone := false
    outcome := 0, owner := none }

/-- Move record 5 holds `x`. -/
def moving (x : Move) : State := setMove State.reset 5 x

/-- A software write of granule 3 that is applying. -/
def applying : RemapWrite := { gran := 3, entry := mkEntry 1 false 1 0 8, writer := .software }

/-- States and operands that meet the hypotheses of each clause of `Obligations.MoveCommands`. -/
theorem witness_MoveCommands :
    (∃ (sess : BitVec 32) (g : Fin 8388608) (d : BitVec 64) (m : Nat) (s : State), (moveOf s g.val = none) ∧ (writingGran s g.val = false) ∧ (s.map.write = none) ∧ (((List.range 1024).find? fun i => (moveRec s i).isNone) = some m) ∧ (entState (backing s g.val) = 1)) ∧
    (∃ (sess : BitVec 32) (g : Fin 8388608) (d : BitVec 64) (m : Nat) (s : State), (moveOf s g.val = none) ∧ (writingGran s g.val = false) ∧ (((List.range 1024).find? fun i => (moveRec s i).isNone) = some m) ∧ (entState (backing s g.val) = 4)) ∧
    (∃ (sess : BitVec 32) (g : Fin 8388608) (d : BitVec 64) (b : Bool) (s : State), (moveOf s g.val).isSome) ∧
    (∃ (m : Fin 1024) (x : Move) (s : State), (moveRec s m.val = some x) ∧ (x.state = .copying) ∧ (x.front = 0) ∧ (x.copying = false) ∧ (x.finalAsked = false)) ∧
    (∃ (m : Fin 1024) (s : State), (moveRec s m.val = none)) ∧
    (∃ (m : Fin 1024) (x : Move) (s : State), (moveRec s m.val = some x) ∧ (x.finalDone = true) ∧ (x.settled = true) ∧ x.outcome ≠ 4 ∧ (granuleClear s x.gran x.old.gen = true)) :=
  ⟨⟨1, 3, 9, 0, mappedThree, by decide +kernel⟩,
   ⟨1, 3, 9, 0, entryAt 3 (mkEntry 4 false 1 0 8) State.reset, by decide +kernel⟩,
   ⟨1, 3, 9, false, moving (aMove .copying), by decide +kernel⟩,
   ⟨5, aMove .copying, moving (aMove .copying), by decide +kernel⟩,
   ⟨5, State.reset, by decide +kernel⟩,
   ⟨5, { aMove .finishing with finalDone := true }, moving { aMove .finishing with finalDone := true }, by decide +kernel⟩⟩

/-- States and operands that meet the hypotheses of each clause of `Obligations.MovePages`. -/
theorem witness_MovePages :
    (∃ (m : Fin 1024) (x : Move) (s1 : State) (s : State), (moveRec s m.val = some x) ∧ (x.state = .copying) ∧ (x.inCopy = false) ∧ x.front < 512 ∧ x.notBefore ≤ s.time.clock ∧ s.map.paceNext ≤ s.time.clock ∧ (x.finalAsked = false) ∧ (pageToken? s 30 = some s1)) ∧
    (∃ (m : Fin 1024) (x : Move) (s : State), (moveRec s m.val = some x) ∧ (x.copying = true) ∧ (x.clear = false) ∧ ((s.home.slices.any fun p => usesPage p.2 x.gran x.front x.old) = false)) ∧
    (∃ (m : Fin 1024) (x : Move) (s : State), (moveRec s m.val = some x) ∧ (x.copying = true) ∧ x.lines ≠ [] ∧ (x.settled = true) ∧ (x.stale = none) ∧ x.front + 1 ≠ 512) ∧
    (∃ (m : Fin 1024) (x : Move) (s : State), (moveRec s m.val = some x) ∧ (x.copying = true)) ∧
    (∃ (m : Fin 1024) (x : Move) (p : Nat) (rest : List Nat) (s1 : State) (s : State), (moveRec s m.val = some x) ∧ (x.state = .salvaging) ∧ (x.restore = false) ∧ (x.finalAsked = false) ∧ (x.lines = []) ∧ (x.salvage = p :: rest) ∧ (pageToken? s 30 = some s1)) ∧
    (∃ (m : Fin 1024) (x : Move) (s : State), (moveRec s m.val = some x) ∧ (x.state = .restoring) ∧ (x.front = 512) ∧ (x.finalAsked = false) ∧ (s.flt.safe = false)) ∧
    (∃ (h : Held) (rest : List Held) (m : Nat) (i : Nat) (x : Move) (s : State), (ejectBuf s moverStop 1 .dat = h :: rest) ∧ (h.u.vn = .dat) ∧ (m = h.u.tag.toNat / 64) ∧ (i = h.u.tag.toNat % 64) ∧ (moveRec s m = some x) ∧ (x.lines[i]? = some .reading) ∧ (x.copying = true) ∧ (h.u.line = pageLine x.gran x.page i)) ∧
    (∃ (p : Nat) (g : Nat) (mask : BitVec 16) (rest : List (Nat × BitVec 16 × Nat)) (s1 : State) (s : State), (s.port.sweeps = (p, mask, g) :: rest) ∧ (∀ i : Nat, i < 512 → sweeps s p mask (g + i) = false) ∧ (spend? s 0 22 = some s1)) :=
  ⟨⟨5, aMove .copying, spent (rich (moving (aMove .copying))) 1 30, rich (moving (aMove .copying)), by decide +kernel⟩,
   ⟨5, { aMove .copying with copying := true }, moving { aMove .copying with copying := true }, by decide +kernel⟩,
   ⟨5, { aMove .copying with copying := true, lines := [.done] }, moving { aMove .copying with copying := true, lines := [.done] }, by decide +kernel⟩,
   ⟨5, { aMove .copying with copying := true }, moving { aMove .copying with copying := true }, by decide +kernel⟩,
   ⟨5, { aMove .salvaging with salvage := [0] }, 0, [], spent (rich (moving { aMove .salvaging with salvage := [0] })) 1 30, rich (moving { aMove .salvaging with salvage := [0] }), by decide +kernel⟩,
   ⟨5, { aMove .restoring with restore := true, front := 512 }, moving { aMove .restoring with restore := true, front := 512 }, by decide +kernel⟩,
   ⟨heldAs 0 { unitOn .dat with tag := moveTag 5 0, line := pageLine 3 0 0 }, [], 5, 0, { aMove .copying with copying := true, lines := [.reading] }, setEjectBuf (moving { aMove .copying with copying := true, lines := [.reading] }) moverStop 1 .dat [heldAs 0 { unitOn .dat with tag := moveTag 5 0, line := pageLine 3 0 0 }], by decide +kernel⟩,
   ⟨4, 0, 1, [], spent (rich { State.reset with port := { State.reset.port with sweeps := [(4, 1, 0)] } }) 0 22, rich { State.reset with port := { State.reset.port with sweeps := [(4, 1, 0)] } }, by decide +kernel⟩⟩

/-- The reset state with the directory state `d`. -/
def withDir (d : DirState) : State := { State.reset with dir := d }

/-- A cached entry of line 5. -/
def cachedFive (d : Bool) : DirEntry := { freshEntry State.reset 5 with pinned := false, dirty := d }

/-- Range 2 is in RECOVERY and waits for VCS 3 and switch 7. -/
def recovering : Recovery := { recoveryReset with active := true, base := 0, limit := 2 ^ 21 - 1, vcs := 8, switches := [7] }

/-- A walk of lines 0 and 1, at line `n`. -/
def aWalk (n : Nat) : Walk := { extent := none, base := 0, limit := 1, next := n }

/-- The sets of the guard are being swapped. -/
def swapping (s : State) : State := odSet s 0x5030 2 1
/-- States and operands that meet the hypotheses of each clause of `Obligations.DirectoryRemovals`. -/
theorem witness_DirectoryRemovals :
    (∃ (w : Fin 1024) (s : State), w.val ≠ ownSwitch s ∧ (isListed s true w.val = false) ∧ s.dir.removals.length < 16) ∧
    (∃ (w : Fin 1024) (s : State), (w.val = ownSwitch s ∨ isListed s true w.val = true ∨ 16 ≤ s.dir.removals.length)) ∧
    (∃ (n : Nat) (s1 : State) (s : State), (s.dir.pass = some n) ∧ n < 4194304 ∧ (s.flt.safe = false) ∧ (s.dir.cache = []) ∧ (s.dir.sf = []) ∧ (s.dir.inserting = []) ∧ (spend? s 0 704 = some s1)) ∧
    (∃ (n : Nat) (s : State), (s.dir.pass = some n) ∧ 4194304 ≤ n) ∧
    (∃ (l : Fin 32) (w : Fin 16) (b : Fin 8192) (x : DirEntry) (s : State), (tabFind? ((l.val * 8192 + b.val) * 16 + w.val) s.dir.cache = some x) ∧ (x.dirty = false) ∧ (x.pinned = false)) ∧
    (∃ (l : Fin 32) (w : Fin 16) (b : Fin 8192) (x : DirEntry) (s : State), (tabFind? ((l.val * 8192 + b.val) * 16 + w.val) s.dir.cache = some x) ∧ (x.dirty = true) ∧ (tabFind? 432 s.flt.pairs = none)) ∧
    (∃ (b : Fin 129) (s1 : State) (s : State), (s.flt.safe = false) ∧ (spend? s 0 (if b.val = 0 then 22 else 45) = some s1)) :=
  ⟨⟨9, State.reset, by decide +kernel⟩,
   ⟨0, State.reset, by decide +kernel⟩,
   ⟨50, spent (rich (withDir { dirReset with pass := some 50 })) 0 704, rich (withDir { dirReset with pass := some 50 }), by decide +kernel⟩,
   ⟨4194304, withDir { dirReset with pass := some 4194304, removals := [{ isSwitch := true, id := 9, covered := true }] }, by decide +kernel⟩,
   ⟨1, 2, 3, cachedFive false, withDir { dirReset with cache := [((1 * 8192 + 3) * 16 + 2, cachedFive false)] }, by decide +kernel⟩,
   ⟨1, 2, 3, cachedFive true, withDir { dirReset with cache := [((1 * 8192 + 3) * 16 + 2, cachedFive true)] }, by decide +kernel⟩,
   ⟨2, spent (rich State.reset) 0 45, rich State.reset, by decide +kernel⟩⟩

/-- States and operands that meet the hypotheses of each clause of `Obligations.DirectoryRecovery`. -/
theorem witness_DirectoryRecovery :
    (∃ (i : Fin 64) (v : Fin 64) (s : State), ((recovery s i.val).active = true) ∧ ((recovery s i.val).vcs.getLsbD v.val = true)) ∧
    (∃ (i : Fin 64) (w : Fin 1024) (s : State), ((recovery s i.val).active = true) ∧ w.val ∈ (recovery s i.val).switches) ∧
    (∃ (i : Fin 64) (s : State), ((recovery s i.val).active = true) ∧ ((recovery s i.val).timeoutRaised = false)) :=
  ⟨⟨2, 3, withDir { dirReset with recov := [(2, recovering)] }, by decide +kernel⟩,
   ⟨2, 7, withDir { dirReset with recov := [(2, recovering)] }, by decide +kernel⟩,
   ⟨2, withDir { dirReset with recov := [(2, recovering)] }, by decide +kernel⟩⟩

/-- States and operands that meet the hypotheses of each clause of `Obligations.WalksAndPartitions`. -/
theorem witness_WalksAndPartitions :
    (∃ (b : BitVec 64) (e : BitVec 64) (s : State), (rangeOk b.toNat e.toNat = true) ∧ (∀ w ∈ s.dir.walks, w.extent ≠ none)) ∧
    (∃ (b : BitVec 64) (e : BitVec 64) (s : State), (rangeOk b.toNat e.toNat = false)) ∧
    (∃ (i : Fin 65536) (w : Walk) (s1 : State) (s : State), (s.dir.walks[i.val]? = some w) ∧ w.next ≤ w.limit ∧ (s.flt.safe = false) ∧ (spend? s 0 22 = some s1) ∧ (∀ x : Nat, w.next ≤ x → x ≤ w.limit → trackerFor s (homeSlice (BitVec.ofNat 42 x)) (BitVec.ofNat 42 x) = none ∧ lineState s1 (homeSlice (BitVec.ofNat 42 x)) (BitVec.ofNat 42 x) = (s1, .invalid))) ∧
    (∃ (i : Fin 65536) (w : Walk) (s : State), (s.dir.walks[i.val]? = some w) ∧ (w.extent = none) ∧ (walkOver s w = true)) ∧
    (∃ (s : State), (s.dir.clearing = false) ∧ ((((List.range 8).map (stagedPartition s)).filter fun p => p.enable).all partitionFits = true) ∧ (disjointParts (((List.range 8).map (stagedPartition s)).filter fun p => p.enable) = true)) ∧
    (∃ (s : State), (s.dir.clearing = true)) ∧
    (∃ (s : State), (s.dir.clearing = true)) :=
  ⟨⟨0, 2097151, State.reset, by decide +kernel⟩,
   ⟨1, 2097151, State.reset, by decide +kernel⟩,
   ⟨0, aWalk 0, spent (rich (withDir { dirReset with walks := [aWalk 0] })) 0 22, rich (withDir { dirReset with walks := [aWalk 0] }), ⟨by decide +kernel, by decide +kernel, by decide +kernel, by decide +kernel, fun x _ h => match x, h with | 0, _ => by decide +kernel | 1, _ => by decide +kernel⟩⟩,
   ⟨0, aWalk 2, withDir { dirReset with walks := [aWalk 2] }, by decide +kernel⟩,
   ⟨State.reset, by decide +kernel⟩,
   ⟨withDir { dirReset with clearing := true }, by decide +kernel⟩,
   ⟨withDir { dirReset with clearing := true }, by decide +kernel⟩⟩

/-- States and operands that meet the hypotheses of each clause of `Obligations.GuardSets`. -/
theorem witness_GuardSets :
    (∃ (s : State), (guardSwapping s = false) ∧ (∀ p ∈ s.map.guardShadow, ruleInvalid p.2 = false)) ∧
    (∃ (p : Nat × GuardRule) (s : State), (guardSwapping s = false) ∧ p ∈ s.map.guardShadow ∧ (ruleInvalid p.2 = true)) ∧
    (∃ (s : State), (guardSwapping s = true)) ∧
    (∃ (g : Fin 17) (s : State), (guardSwapping s = true) ∧ g.val ∉ s.map.swapped ∧ (setInsert g.val s.map.swapped).length ≠ 17) ∧
    (∃ (g : Fin 17) (s : State), (guardSwapping s = true) ∧ g.val ∉ s.map.swapped ∧ ((setInsert g.val s.map.swapped).length = 17)) ∧
    (∃ (s : State), (guardSwapping s = false)) :=
  ⟨⟨State.reset, by decide +kernel⟩,
   ⟨(0, BitVec.ofNat 256 (1 + 2 ^ 96)), { State.reset with map := { State.reset.map with guardShadow := [(0, BitVec.ofNat 256 (1 + 2 ^ 96))] } }, by decide +kernel⟩,
   ⟨swapping State.reset, by decide +kernel⟩,
   ⟨4, swapping State.reset, by decide +kernel⟩,
   ⟨16, swapping { State.reset with map := { State.reset.map with swapped := List.range 16 } }, by decide +kernel⟩,
   ⟨State.reset, by decide +kernel⟩⟩

/-- A control flit of kind `k`. -/
def aControl (k : Nat) : Control :=
  { credits := 0, kind := k, versions := 3, switch := 9, port := 2, width := 4, epoch := 5, recorded := 0, next := 0, lane := 1, spare := 16
    swEpoch := 7 }

/-- The lane blocks of `aControl 1`. -/
def blocks1 : LaneBlocks :=
  #v[0xbac9c0c8cc780000000000000000000000000000000000000000000000000000000000000000000000000000000000000000000000000000000000014004006004000002#544,
    0x1317e23368040000000000000000000000000000000000000000000000000000000000000000000000000000000000000000000000000000000000005000000004000002#544,
    0x7652a181565c0000000000000000000000000000000000000000000000000000000000000000000000000000000000000000000000000000000000000804000004000002#544,
    0x8b3f68d4c9e80000000000000000000000000000000000000000000000000000000000000000000000000000000000000000000000000000000000000400000000000002#544]

set_option maxRecDepth 100000 in
/-- R256, R258: they are read as that control flit. -/
theorem control_blocks1 : controlOf 1 blocks1 = some (aControl 1) := by decide +kernel

/-- The lane blocks of `aControl 2`. -/
def blocks2 : LaneBlocks :=
  #v[0xcaf70400db240000000000000000000000000000000000000000000000000000000000000000000000000000000000000000000000000000000000004004006004000002#544,
    0x1a9caab72ae40000000000000000000000000000000000000000000000000000000000000000000000000000000000000000000000000000000000015000000004000002#544,
    0xfbdc24fc73580000000000000000000000000000000000000000000000000000000000000000000000000000000000000000000000000000000000000804000004000002#544,
    0xf4be8c34cee00000000000000000000000000000000000000000000000000000000000000000000000000000000000000000000000000000000000000400000000000002#544]

set_option maxRecDepth 100000 in
/-- R256, R258: they are read as that control flit. -/
theorem control_blocks2 : controlOf 2 blocks2 = some (aControl 2) := by decide +kernel

/-- The lane blocks of `aControl 3`. -/
def blocks3 : LaneBlocks :=
  #v[0x7cee57302b740000000000000000000000000000000000000000000000000000000000000000000000000000000000000000000000000000000000014004006004000002#544,
    0x674eedba36a00000000000000000000000000000000000000000000000000000000000000000000000000000000000000000000000000000000000015000000004000002#544,
    0x9e4826b6e2880000000000000000000000000000000000000000000000000000000000000000000000000000000000000000000000000000000000000804000004000002#544,
    0xe79af0af7f00000000000000000000000000000000000000000000000000000000000000000000000000000000000000000000000000000000000000400000000000002#544]

set_option maxRecDepth 100000 in
/-- R256, R258: they are read as that control flit. -/
theorem control_blocks3 : controlOf 3 blocks3 = some (aControl 3) := by decide +kernel

/-- The lane blocks of `aControl 4`. -/
def blocks4 : LaneBlocks :=
  #v[0x3b76535cd5340000000000000000000000000000000000000000000000000000000000000000000000000000000000000000000000000000000000004004006004000002#544,
    0xeb24e0c73db80000000000000000000000000000000000000000000000000000000000000000000000000000000000000000000000000000000000005000000004000002#544,
    0x77dbabe031b80000000000000000000000000000000000000000000000000000000000000000000000000000000000000000000000000000000000010804000004000002#544,
    0xfef1dd45ebe40000000000000000000000000000000000000000000000000000000000000000000000000000000000000000000000000000000000000400000000000002#544]

set_option maxRecDepth 100000 in
/-- R256, R258: they are read as that control flit. -/
theorem control_blocks4 : controlOf 4 blocks4 = some (aControl 4) := by decide +kernel

/-- The lane blocks of `aControl 5`. -/
def blocks5 : LaneBlocks :=
  #v[0x8d6f006c25640000000000000000000000000000000000000000000000000000000000000000000000000000000000000000000000000000000000014004006004000002#544,
    0x96f6a7ca21fc0000000000000000000000000000000000000000000000000000000000000000000000000000000000000000000000000000000000005000000004000002#544,
    0x124fa9aaa0680000000000000000000000000000000000000000000000000000000000000000000000000000000000000000000000000000000000010804000004000002#544,
    0x436fe7bd2f40000000000000000000000000000000000000000000000000000000000000000000000000000000000000000000000000000000000000400000000000002#544]

set_option maxRecDepth 100000 in
/-- R256, R258: they are read as that control flit. -/
theorem control_blocks5 : controlOf 5 blocks5 = some (aControl 5) := by decide +kernel

/-- The lane blocks of `aControl 2` with a lane that the link does not have. -/
def blocks6 : LaneBlocks :=
  #v[0xe989aaa3d3c00000000000000000000000000000000000000000000000000000000000000000000000000000000000000000000000000000000000004004006004000002#544,
    0x5a5190b5e8f80000000000000000000000000000000000000000000000000000000000000000000000000000000000000000000000000000000000015000000004000002#544,
    0x86f92bcb2db80000000000000000000000000000000000000000000000000000000000000000000000000000000000000000000000000000000000000804004004000002#544,
    0x5402f9f5c1c40000000000000000000000000000000000000000000000000000000000000000000000000000000000000000000000000000000000000400000000000002#544]

set_option maxRecDepth 100000 in
/-- R256, R258: they are read as that control flit. -/
theorem control_blocks6 : controlOf 2 blocks6 = some { aControl 2 with lane := 5 } := by decide +kernel

/-- A DATA flit with sequence number 0 and no unit. -/
def aFlit : Flit := { seq := 0, ack := 4095, type := 1, parity := 0, group := 0, credits := 0, cls := 0, valid := 0, slots := 0 }

/-- Its 256 bytes. -/
def aFlitBits : BitVec 2048 :=
  0x5d007a7d117063f9000000000000000000000000000000000000000000000000000000000000000000000000000000000000000000000000000000000000000000000000000000000000000000000000000000000000000000000000000000000000000000000000000000000000000000000000000000000000000000000000000000000000000000000000000000000000000000000000000000000000000000000000000000000000000000000000000000000000000000000000000000000000000000000000000000000000000000000000000000000000000000000000000000000000000000000000000000000000000000000000000fff1000000000#2048

/-- The lane blocks of `aFlit`. -/
def dataBlocks : LaneBlocks :=
  #v[0xa85257bb2f9c0000000000000000000000000000000000000000000000000000000000000000000000000000000000000000000000000000000000000000000000007801#544,
    0xd4cfb5c038b80000000000000000000000000000000000000000000000000000000000000000000000000000000000000000000000000000000000000000000000007001#544,
    0x9c24d8232ca80000000000000000000000000000000000000000000000000000000000000000000000000000000000000000000000000000000000000000000000007001#544,
    0xaa5b7911140c0000000000000000000000000000000000000000000000000000000000000000000000000000000000000000000000000000000000000000000000007001#544]

set_option maxRecDepth 100000 in
/-- R247, R249: they are read as that flit. -/
theorem data_blocks : fecDecode (fecBlock 4 dataBlocks) = some (aFlitBits, 0) ∧ flitOf aFlitBits = some aFlit := by decide +kernel

/-- Lane blocks with errors that cannot be corrected. -/
def badBlocks : LaneBlocks := #v[3#544, 5#544, 9#544, 0x777777777777777777777#544]

set_option maxRecDepth 100000 in
/-- R244: they are not corrected. -/
theorem bad_blocks : fecDecode (fecBlock 4 badBlocks) = none := by decide +kernel

/-- The link of Aulum port 1 in state `st` with the port state `x`. -/
def linkIs (st : Nat) (x : AulPort) : State :=
  setAulPort (running (withOd [(0x6101, 0x10, st), (0x6101, 0x11, 2), (0x8042, 1, 1), (0x3032, 2, 0), (0x6120, 1, 64), (0x6120, 6, 3)])) 1 x

/-- A flit that waits for its acknowledgement. -/
def aRecord : FlitRec := { seq := 0, mac := false, cls := 0, valid := 0, slots := 0, tries := 0 }

/-- A REQ unit waits in the egress pair of Aulum port 1. -/
def unitWaits (s : State) : State := setEgress s 97 .req [{ h := heldAs 0 { unitOn .req with dst := switchCode 9 }, cell := false, msg := none }]

/-- Switch 9 is a member, and a port toward it is UP. -/
def memberUp : State :=
  let s := linkIs linkUp aulPortReset
  { odSet s 0x6001 0 (2 ^ 9) with fab := { s.fab with src0 := [(9, BitVec.ofNat 64 (2 ^ 36))] } }
/-- States and operands that meet the hypotheses of each clause of `Obligations.AulumLinkStates`. -/
theorem witness_AulumLinkStates :
    (∃ (a : Fin 16) (s : State), (linkState s a.val = linkDisabled ∨ aulumEmpty s a.val = true)) ∧
    (∃ (a : Fin 16) (s : State), linkState s a.val ≠ linkDisabled ∧ (aulumEmpty s a.val = false)) ∧
    (∃ (a : Fin 16) (c : Instr) (s : State), ((c = .trainingTimeout a ∧ linkState s a.val = linkTraining ∧ (aulPort s a.val).agreed = false) ∨ (c = .syncLoss a ∧ linkState s a.val = linkUp) ∨ (c = .pauseTimeout a ∧ linkState s a.val = linkPaused))) ∧
    (∃ (a : Fin 16) (s : State), (aulMayTrain s a.val = true) ∧ (linkState s a.val = linkDown ∨ (linkState s a.val = linkTraining ∧ (aulPort s a.val).agreed = true))) ∧
    (∃ (a : Fin 16) (spares : BitVec 2) (f : LaneBlocks) (c : Control) (v : Nat) (s : State), (controlOf 1 f = some c) ∧ (linkState s a.val = linkTraining) ∧ (c.width = 4) ∧ (agreedVersion s a.val c = some v) ∧ (versionRefused s a.val v = false) ∧ (tabFind? c.switch s.aul.epochs = some c.swEpoch) ∧ ((aulPort s a.val).partner = none ∨ (aulPort s a.val).partner = some { switch := c.switch, port := c.port, epoch := c.epoch, swEpoch := c.swEpoch })) ∧
    (∃ (a : Fin 16) (work : BitVec 4) (spares : BitVec 2) (f : LaneBlocks) (c : Control) (s : State), (controlOf 1 f = some c) ∧ (linkState s a.val = linkUp)) :=
  ⟨⟨1, linkIs linkDown aulPortReset, by decide +kernel⟩,
   ⟨1, linkIs linkDown { aulPortReset with replay := [aRecord] }, by decide +kernel⟩,
   ⟨1, .syncLoss 1, linkIs linkUp { aulPortReset with replay := [aRecord] }, (Or.inr (Or.inl ⟨rfl, by decide +kernel⟩))⟩,
   ⟨1, linkIs linkDown aulPortReset, by decide +kernel⟩,
   ⟨1, 1, blocks1, aControl 1, 2, { linkIs linkTraining aulPortReset with aul := { (linkIs linkTraining aulPortReset).aul with epochs := [(9, 7)] } }, ⟨control_blocks1, by decide +kernel, by decide +kernel, by decide +kernel, by decide +kernel, by decide +kernel, by decide +kernel⟩⟩,
   ⟨1, 15, 0, blocks1, aControl 1, linkIs linkUp aulPortReset, ⟨control_blocks1, by decide +kernel⟩⟩⟩

/-- States and operands that meet the hypotheses of each clause of `Obligations.AulumSparing`. -/
theorem witness_AulumSparing :
    (∃ (a : Fin 16) (f : LaneBlocks) (c : Control) (s : State), (controlOf 2 f = some c) ∧ (linkState s a.val = linkUp) ∧ (linkVersion s a.val = 2) ∧ ((aulPort s a.val).asking = none) ∧ 16 ≤ c.spare % 18 ∧ c.lane < 4 ∧ ((aulPort s a.val).spares.getLsbD (c.spare % 18 - 16) = true) ∧ (spareFree s a.val (spareLane a.val (c.spare % 18 - 16)) = true)) ∧
    (∃ (a : Fin 16) (f : LaneBlocks) (c : Control) (s : State), (controlOf 2 f = some c) ∧ (linkState s a.val = linkUp) ∧ (linkVersion s a.val = 2) ∧ ((aulPort s a.val).asking = none) ∧ (c.spare % 18 < 16 ∨ 4 ≤ c.lane)) ∧
    (∃ (a : Fin 16) (f : LaneBlocks) (c : Control) (i : Nat) (k : Nat) (s : State), (controlOf 3 f = some c) ∧ (linkState s a.val = linkUp) ∧ ((aulPort s a.val).asking = some (i, k))) ∧
    (∃ (a : Fin 16) (f : LaneBlocks) (c : Control) (i : Nat) (k : Nat) (s : State), (controlOf 4 f = some c) ∧ ((aulPort s a.val).asking = some (i, k))) ∧
    (∃ (a : Fin 16) (f : LaneBlocks) (c : Control) (s : State), (controlOf 4 f = some c) ∧ ((aulPort s a.val).asking = none)) ∧
    (∃ (a : Fin 16) (f : LaneBlocks) (c : Control) (s : State), (controlOf 5 f = some c) ∧ (linkState s a.val = linkPaused)) :=
  ⟨⟨1, blocks2, aControl 2, linkIs linkUp { aulPortReset with spares := 1 }, ⟨control_blocks2, by decide +kernel, by decide +kernel, by decide +kernel, by decide +kernel, by decide +kernel, by decide +kernel, by decide +kernel⟩⟩,
   ⟨1, blocks6, { aControl 2 with lane := 5 }, linkIs linkUp aulPortReset, ⟨control_blocks6, by decide +kernel, by decide +kernel, by decide +kernel, by decide +kernel⟩⟩,
   ⟨1, blocks3, aControl 3, 1, 16, linkIs linkUp { aulPortReset with asking := some (1, 16) }, ⟨control_blocks3, by decide +kernel, by decide +kernel⟩⟩,
   ⟨1, blocks4, aControl 4, 1, 16, linkIs linkUp { aulPortReset with asking := some (1, 16) }, ⟨control_blocks4, by decide +kernel⟩⟩,
   ⟨1, blocks4, aControl 4, linkIs linkUp aulPortReset, ⟨control_blocks4, by decide +kernel⟩⟩,
   ⟨1, blocks5, aControl 5, linkIs linkPaused { aulPortReset with moving := some (1, 16), replay := [aRecord] }, ⟨control_blocks5, by decide +kernel⟩⟩⟩

/-- States and operands that meet the hypotheses of each clause of `Obligations.AulumFlits`. -/
theorem witness_AulumFlits :
    (∃ (a : Fin 16) (b : LaneBlocks) (w : BitVec 2048) (n : Nat) (f : Flit) (s : State), (linkState s a.val = linkUp) ∧ (fecDecode (fecBlock (aulPort s a.val).lanes.length b) = some (w, n)) ∧ (flitOf w = some f) ∧ (f.type = 1) ∧ (f.seq = (aulPort s a.val).expect) ∧ (encrypts s a.val = false)) ∧
    (∃ (a : Fin 16) (b : LaneBlocks) (s : State), (linkState s a.val = linkUp ∨ linkState s a.val = linkPaused) ∧ (fecDecode (fecBlock (aulPort s a.val).lanes.length b) = none) ∧ ((aulPort s a.val).nakAt = none)) ∧
    (∃ (a : Fin 16) (s : State), (aulPort s a.val).accepted ≠ 0) ∧
    (∃ (a : Fin 16) (c : Instr) (f : FlitRec) (rest : List FlitRec) (s : State), (linkState s a.val = linkUp) ∧ ((c = .nakReceived a ∧ (aulPort s a.val).nakIn = true) ∨ c = .replayTimerExpire a) ∧ ((aulPort s a.val).replay = f :: rest)) :=
  ⟨⟨1, dataBlocks, aFlitBits, 0, aFlit, linkIs linkUp aulPortReset, ⟨by decide +kernel, data_blocks.1, data_blocks.2, by decide +kernel, by decide +kernel, by decide +kernel⟩⟩,
   ⟨1, badBlocks, linkIs linkUp aulPortReset, ⟨by decide +kernel, bad_blocks, by decide +kernel⟩⟩,
   ⟨1, linkIs linkUp { aulPortReset with accepted := 2, expect := 2 }, by decide +kernel⟩,
   ⟨1, .replayTimerExpire 1, aRecord, [], linkIs linkUp { aulPortReset with replay := [aRecord] }, ⟨by decide +kernel, Or.inr rfl, by decide +kernel⟩⟩⟩

/-- States and operands that meet the hypotheses of each clause of `Obligations.AulumTransmit`. -/
theorem witness_AulumTransmit :
    (∃ (a : Fin 16) (s : State), (linkState s a.val = linkUp ∨ linkState s a.val = linkPaused) ∧ ((aulPort s a.val).nakDue = true) ∧ (∀ v ∈ allVns, linkQueue s a.val v = [])) ∧
    (∃ (a : Fin 16) (k : Nat) (f : FlitRec) (s : State), (linkState s a.val = linkUp) ∧ ((aulPort s a.val).nakDue = false) ∧ (∀ v ∈ allVns, linkQueue s a.val v = []) ∧ ((aulPort s a.val).resend = some k) ∧ ((aulPort s a.val).replay[k]? = some f)) ∧
    (∃ (a : Fin 16) (s : State), (linkState s a.val = linkUp) ∧ ((aulPort s a.val).nakDue = false) ∧ (∀ v ∈ allVns, linkQueue s a.val v = []) ∧ ((aulPort s a.val).resend = none) ∧ ((aulPort s a.val).macDue = false) ∧ (∀ v : Nat, v < 16 → readyUnit s a.val v = none)) ∧
    (∃ (a : Fin 16) (v : Fin 16) (s : State), (linkState s a.val = linkUp) ∧ ((aulPort s a.val).nakDue = false) ∧ (∀ v ∈ allVns, linkQueue s a.val v = []) ∧ ((aulPort s a.val).resend = none) ∧ ((aulPort s a.val).macDue = false) ∧ (encrypts s a.val = false) ∧ (aulPort s a.val).replay.length < odGet s 0x6120 1 ∧ ((readyUnit s a.val v.val).isSome = true)) :=
  ⟨⟨1, linkIs linkUp { aulPortReset with nakDue := true }, by decide +kernel⟩,
   ⟨1, 0, aRecord, linkIs linkUp { aulPortReset with replay := [aRecord], resend := some 0 }, by decide +kernel⟩,
   ⟨1, linkIs linkUp aulPortReset, by decide +kernel⟩,
   ⟨1, 0, unitWaits (linkIs linkUp { aulPortReset with credInit := [(0, 1)] }), by decide +kernel⟩⟩

/-- States and operands that meet the hypotheses of each clause of `Obligations.AulumKeys`. -/
theorem witness_AulumKeys :
    (∃ (a : Fin 16) (tx : Bool) (k : Bool) (key : BitVec 256) (m : Mode) (s : State), m ≠ .encrypted) ∧
    (∃ (a : Fin 16) (k : Bool) (key : BitVec 256) (s : State), ((aulPort s a.val).rxKey k = none ∨ rxSet s a.val ≠ k)) ∧
    (∃ (a : Fin 16) (k : Bool) (key : BitVec 256) (s : State), ((aulPort s a.val).txKey k = none)) ∧
    (∃ (a : Fin 16) (tx : Bool) (k : Bool) (key : BitVec 256) (s : State), (if tx then (aulPort s a.val).txKey k ≠ none ∧ txSet s a.val = k else (aulPort s a.val).rxKey k ≠ none ∧ rxSet s a.val = k)) ∧
    (∃ (a : Fin 16) (s : State), (aulPort s a.val).txKey (!txSet s a.val) ≠ none) ∧
    (∃ (a : Fin 16) (s : State), ((aulPort s a.val).txKey (!txSet s a.val) = none)) ∧
    (∃ (a : Fin 16) (s : State), (aulPort s a.val).txGroup ≠ [] ∧ (∀ v : Nat, v < 16 → readyUnit s a.val v = none)) :=
  ⟨⟨1, false, false, 5, .plain, State.reset, by decide +kernel⟩,
   ⟨1, true, 5, State.reset, by decide +kernel⟩,
   ⟨1, true, 5, State.reset, by decide +kernel⟩,
   ⟨1, true, false, 5, linkIs linkUp { aulPortReset with txKey0 := some 3 }, by decide +kernel⟩,
   ⟨1, linkIs linkUp { aulPortReset with txKey1 := some 3 }, by decide +kernel⟩,
   ⟨1, State.reset, by decide +kernel⟩,
   ⟨1, linkIs linkUp { aulPortReset with txGroup := [(0, 0)] }, by decide +kernel⟩⟩

/-- States and operands that meet the hypotheses of each clause of `Obligations.RestartsAndNumbering`. -/
theorem witness_RestartsAndNumbering :
    (∃ (w : Fin 1024) (e : BitVec 32) (s : State), (tabFind? w.val s.aul.epochs = some e)) ∧
    (∃ (w : Fin 1024) (s : State), (isMember s w.val = true) ∧ w.val ≠ ownSwitch s ∧ w.val ∉ s.aul.acked ∧ (pathUp s w.val = true)) ∧
    (∃ (g : Grace) (rest : List Grace) (s : State), (s.aul.graces = g :: rest)) ∧
    (∃ (w : Fin 1024) (s : State), (∀ v : Nat, v < 64 → decodesTo s v w.val = false) ∧ (s.mov.lines = []) ∧ (s.aul.graces = [])) ∧
    (∃ (i : Fin 4) (v : BitVec 16) (s : State), (∀ a : Nat, a < 16 → odGet s (aulIdx a) 1 ≠ 1)) ∧
    (∃ (i : Fin 4) (v : BitVec 16) (a : Fin 16) (s : State), (odGet s (aulIdx a.val) 1 = 1)) :=
  ⟨⟨9, 7, { State.reset with aul := { State.reset.aul with epochs := [(9, 7)] } }, by decide +kernel⟩,
   ⟨9, memberUp, by decide +kernel⟩,
   ⟨{ start := 0, tags := [] }, [], { State.reset with aul := { State.reset.aul with graces := [{ start := 0, tags := [] }] } }, by decide +kernel⟩,
   ⟨9, State.reset, by decide +kernel⟩,
   ⟨0, 3, odSet (odSet State.reset 0x6000 3 1) 0x6000 4 1, by decide +kernel⟩,
   ⟨0, 3, 2, odSet State.reset 0x6102 1 1, by decide +kernel⟩⟩

/-- SQ 5 of function 1024, in state `st`, bound to CQ 6. -/
def aSq (st : QueueSt) : SubQ := { subReset with owner := 1025, loc := 0, st := st, cq := 6, n := 4 }

/-- CQ 6 of function 1024, in state `st`. -/
def aCq (st : QueueSt) : CompQ := { compReset with owner := 1025, loc := 0, st := st, n := 4 }

/-- The reset state with these two queues; the governor has tokens. -/
def queues (x : SubQ) (y : CompQ) : State := rich { State.reset with mov := { State.reset.mov with sqs := [(5, x)], cqs := [(6, y)] } }

/-- An access for `use` that has returned `bytes`. -/
def returned (use : MovUse) (bytes : List Byte) : MovAcc :=
  { id := 9, fn := some 1024, vcs := 0, write := false, use := use, parts := [{ freshPart 0 64 0 none bytes false with st := .done }] }

/-- `s` with the access `a` under way. -/
def withAccess (a : MovAcc) (s : State) : State := { s with mov := { s.mov with accs := [a] } }

/-- What is left of `s` once the finished access for `use` has been taken. -/
def taken (s : State) (use : MovUse) : State := ((takeAccess (absorbHost s) use).map Prod.fst).getD s

/-- The QCB of an SQ of 16 descriptors in format 1. -/
def sqBytes : List Byte := leBytes 64 (4 * 2 ^ 128 + 2 ^ 176 + 2 ^ 184)

/-- The QCB of a CQ of 16 completions. -/
def cqBytes : List Byte := leBytes 64 (4 * 2 ^ 128 + 2 * 2 ^ 184)

/-- A descriptor of command `op`, with the mark of the first round. -/
def descOf (op : Nat) : BitVec 512 := BitVec.ofNat 512 (0x80 * 2 ^ 504 + op * 2 ^ 448)

/-- The queues with `d` at the head of SQ 5. -/
def atHead (d : BitVec 512) : State := queues { aSq .enabled with p := 1, kept := [(0, d)] } (aCq .enabled)

/-- An execution from SQ 5 with the result `r`. -/
def anExec (r : Option (Nat × BitVec 64)) : Exec :=
  { id := 3, sq := 5, index := 0, fn := 1024, vcs := 0, cq := 6, desc := descOf 0, started := false, next := 0, pieces := [], fail := none
    diff := none, eaten := 0, ctx := 0, word := [], counter := [], faults := 0, result := r, flush := [], saved := false, zeroed := false
    wroteHost := false, dropped := false, safe := false }

/-- The queues while `e` executes. -/
def executing (e : Exec) : State :=
  let s := queues (aSq .enabled) { aCq .enabled with slots := 1 }
  { s with mov := { s.mov with execs := [e] } }

/-- A one-unit packet of `k` for the mover. -/
def aPacket (vn : Vn) (k : TlpKind) : Held := { heldAs 0 (unitOn vn) with tlp := some { readTlp with kind := k } }

/-- It waits in the mover's queue. -/
def forMover (vn : Vn) (k : TlpKind) (s : State) : State := setEjectBuf s moverStop 1 vn [aPacket vn k]

/-- The mover cache has asked for line 5. -/
def aFill : CacheFill :=
  { tag := 32768, home := 0, line := 5, back := false, nacks := 0, senior := false, first := 0, due := 0, owner := none }
/-- States and operands that meet the hypotheses of each clause of `Obligations.MoverQueues`. -/
theorem witness_MoverQueues :
    (∃ (fn : Fin 1088) (loc : Fin 4096) (addr : BitVec 64) (q : Nat) (s : State), (resetPending s fn.val = false) ∧ (sqOf s fn.val loc.val = some q) ∧ ((sq s q).st = .disabled) ∧ ((sq s q).reading = false)) ∧
    (∃ (fn : Fin 1088) (loc : Fin 4096) (addr : BitVec 64) (q : Nat) (s : State), (resetPending s fn.val = false) ∧ (cqOf s fn.val loc.val = some q) ∧ ((cq s q).st = .disabled) ∧ ((cq s q).reading = false)) ∧
    (∃ (q : Fin 4096) (u : State) (a : MovAcc) (s : State), (takeAccess (absorbHost s) (.enable false q.val) = some (u, a))) ∧
    (∃ (q : Fin 4096) (u : State) (a : MovAcc) (s : State), (takeAccess (absorbHost s) (.enable true q.val) = some (u, a))) ∧
    (∃ (fn : Fin 1088) (loc : Fin 4096) (q : Nat) (s : State), (resetPending s fn.val = false) ∧ (sqOf s fn.val loc.val = some q)) ∧
    (∃ (fn : Fin 1088) (loc : Fin 4096) (q : Nat) (s : State), (resetPending s fn.val = false) ∧ (cqOf s fn.val loc.val = some q)) ∧
    (∃ (q : Fin 4096) (s : State), ((sq s q.val).st = .stopping) ∧ (∀ e ∈ s.mov.execs, e.sq ≠ q.val)) ∧
    (∃ (fn : Fin 1088) (loc : Fin 4096) (q : Nat) (s : State), (resetPending s fn.val = false) ∧ (sqOf s fn.val loc.val = some q) ∧ ((sq s q).st = .enabled)) ∧
    (∃ (fn : Fin 1088) (loc : Fin 4096) (q : Nat) (s : State), (resetPending s fn.val = false) ∧ (cqOf s fn.val loc.val = some q) ∧ ((cq s q).st = .enabled)) ∧
    (∃ (fn : Fin 1088) (loc : Fin 4096) (s : State), (sqOf s fn.val loc.val = none)) ∧
    (∃ (fn : Fin 1088) (loc : Fin 4096) (s : State), (cqOf s fn.val loc.val = none)) :=
  ⟨⟨1024, 0, 4096, 5, queues (aSq .disabled) (aCq .enabled), by decide +kernel⟩,
   ⟨1024, 0, 4096, 6, queues (aSq .disabled) (aCq .disabled), by decide +kernel⟩,
   ⟨5, taken (withAccess (returned (.enable false 5) sqBytes) (queues { aSq .disabled with reading := true } (aCq .enabled))) (.enable false 5), returned (.enable false 5) sqBytes, withAccess (returned (.enable false 5) sqBytes) (queues { aSq .disabled with reading := true } (aCq .enabled)), by decide +kernel⟩,
   ⟨6, taken (withAccess (returned (.enable true 6) cqBytes) (queues (aSq .disabled) { aCq .disabled with reading := true })) (.enable true 6), returned (.enable true 6) cqBytes, withAccess (returned (.enable true 6) cqBytes) (queues (aSq .disabled) { aCq .disabled with reading := true }), by decide +kernel⟩,
   ⟨1024, 0, 5, queues (aSq .enabled) (aCq .enabled), by decide +kernel⟩,
   ⟨1024, 0, 6, queues (aSq .disabled) (aCq .enabled), by decide +kernel⟩,
   ⟨5, queues (aSq .stopping) (aCq .enabled), by decide +kernel⟩,
   ⟨1024, 0, 5, queues (aSq .enabled) (aCq .enabled), by decide +kernel⟩,
   ⟨1024, 0, 6, queues (aSq .enabled) (aCq .enabled), by decide +kernel⟩,
   ⟨3, 4, State.reset, by decide +kernel⟩,
   ⟨3, 4, State.reset, by decide +kernel⟩⟩

/-- States and operands that meet the hypotheses of each clause of `Obligations.MoverReads`. -/
theorem witness_MoverReads :
    (∃ (q : Fin 4096) (u : State) (a : MovAcc) (s : State), (takeAccess (absorbHost s) (.sqQcb q.val) = some (u, a)) ∧ ((sq s q.val).st = .enabled) ∧ (a.failed = false)) ∧
    (∃ (q : Fin 1024) (u : State) (a : MovAcc) (s : State), (takeAccess (absorbHost s) (.cqQcb q.val) = some (u, a)) ∧ (a.failed = false)) ∧
    (∃ (q : Fin 4096) (i : BitVec 32) (a : MovAcc) (s : State), (fetchedNext (absorbHost s) q.val = some (i, a)) ∧ (a.failed = false) ∧ ((sq s q.val).st = .enabled) ∧ (dMark (BitVec.ofNat 512 (leValue a.bytes)) = ownMark (sq s q.val).n i)) :=
  ⟨⟨5, taken (withAccess (returned (.sqQcb 5) (leBytes 64 2)) (queues { aSq .enabled with reading := true } (aCq .enabled))) (.sqQcb 5), returned (.sqQcb 5) (leBytes 64 2), withAccess (returned (.sqQcb 5) (leBytes 64 2)) (queues { aSq .enabled with reading := true } (aCq .enabled)), by decide +kernel⟩,
   ⟨6, taken (withAccess (returned (.cqQcb 6) (leBytes 64 2)) (queues (aSq .enabled) { aCq .enabled with reading := true })) (.cqQcb 6), returned (.cqQcb 6) (leBytes 64 2), withAccess (returned (.cqQcb 6) (leBytes 64 2)) (queues (aSq .enabled) { aCq .enabled with reading := true }), by decide +kernel⟩,
   ⟨5, 0, returned (.fetch 5 0) (leBytes 64 (descOf 0).toNat), withAccess (returned (.fetch 5 0) (leBytes 64 (descOf 0).toNat)) (queues { aSq .enabled with p := 1, fetching := [0] } (aCq .enabled)), by decide +kernel⟩⟩

/-- States and operands that meet the hypotheses of each clause of `Obligations.DescriptorDispatch`. -/
theorem witness_DescriptorDispatch :
    (∃ (q : Fin 4096) (i : Instr) (r : DescRow) (d : BitVec 512) (s1 : State) (s : State), (i, r) ∈ [(Instr.nop q, DescRow.nop), (.copy q, .copy), (.fill q, .fill), (.zero q, .zero), (.compare q, .compare), (.check q, .check), (.atomicFetchAdd q, .fetchAdd), (.atomicSwap q, .swap), (.atomicCompareAndSwap q, .cas), (.flush q, .flush), (.fence q, .fence), (.mark q, .mark), (.migrateGranule q, .migrate)] ∧ (headDesc s q.val = some d) ∧ (rowOf (ownMark (sq s q.val).n (sq s q.val).c) d = some r) ∧ (headReady s q.val = true) ∧ (mayServe s q.val = true)) :=
  ⟨5, .nop 5, .nop, descOf 0, (spendFor? (atHead (descOf 0)) 1024 1).getD State.reset, atHead (descOf 0), by decide +kernel⟩

/-- States and operands that meet the hypotheses of each clause of `Obligations.DescriptorEnds`. -/
theorem witness_DescriptorEnds :
    (∃ (q : Fin 4096) (i : BitVec 32) (e : Exec) (s : State), (execAt (settleAll 4096 (absorbHost s)) q.val i = some e)) ∧
    (∃ (q : Fin 4096) (i : BitVec 32) (e : Exec) (s : State), (execAt (moverTurn (absorbHost s)) q.val i = some e) ∧ (bodyOver (moverTurn (absorbHost s)) e = true) ∧ (execBusy (moverTurn (absorbHost s)) e.id = false)) :=
  ⟨⟨5, 0, anExec none, executing (anExec none), by decide +kernel⟩,
   ⟨5, 0, anExec (some (0, 0)), executing (anExec (some (0, 0))), by decide +kernel⟩⟩

/-- States and operands that meet the hypotheses of each clause of `Obligations.PoolRequests`. -/
theorem witness_PoolRequests :
    (∃ (i : Instr) (vn : Vn) (k : TlpKind) (atomic : Bool) (h : Held) (p : Tlp) (s : State), (i, vn, k, atomic) ∈ [(Instr.poolMemoryRead, Vn.ion, TlpKind.memRead, false), (.poolMemoryWrite, .iop, .memWrite, false), (.poolDeferrableMemoryWrite, .ion, .deferrableWrite, false), (.poolFetchadd, .ion, .fetchAdd, true), (.poolSwap, .ion, .swap, true), (.poolCas, .ion, .cas, true)] ∧ (headPacket s vn = some (h, p)) ∧ p.kind ≠ k) ∧
    (∃ (i : Instr) (vn : Vn) (k : TlpKind) (atomic : Bool) (h : Held) (p : Tlp) (s : State), (i, vn, k, atomic) ∈ [(Instr.poolMemoryRead, Vn.ion, TlpKind.memRead, false), (.poolMemoryWrite, .iop, .memWrite, false), (.poolDeferrableMemoryWrite, .ion, .deferrableWrite, false), (.poolFetchadd, .ion, .fetchAdd, true), (.poolSwap, .ion, .swap, true), (.poolCas, .ion, .cas, true)] ∧ (headPacket s vn = some (h, p)) ∧ (vn = .ion) ∧ (postedQueued s p.requester h.since = true)) ∧
    (∃ (i : Instr) (vn : Vn) (k : TlpKind) (atomic : Bool) (h : Held) (p : Tlp) (s : State), (i, vn, k, atomic) ∈ [(Instr.poolMemoryRead, Vn.ion, TlpKind.memRead, false), (.poolMemoryWrite, .iop, .memWrite, false), (.poolDeferrableMemoryWrite, .ion, .deferrableWrite, false), (.poolFetchadd, .ion, .fetchAdd, true), (.poolSwap, .ion, .swap, true), (.poolCas, .ion, .cas, true)] ∧ (headPacket s vn = some (h, p)) ∧ (p.kind = k) ∧ (packetLast s vn h = true) ∧ (vn = .iop ∨ postedQueued s p.requester h.since = false) ∧ (atomic = false ∨ s.flt.safe = false)) ∧
    (∃ (i : Instr) (vn : Vn) (k : TlpKind) (atomic : Bool) (h : Held) (p : Tlp) (s : State), (i, vn, k, atomic) ∈ [(Instr.poolMemoryRead, Vn.ion, TlpKind.memRead, false), (.poolMemoryWrite, .iop, .memWrite, false), (.poolDeferrableMemoryWrite, .ion, .deferrableWrite, false), (.poolFetchadd, .ion, .fetchAdd, true), (.poolSwap, .ion, .swap, true), (.poolCas, .ion, .cas, true)] ∧ (headPacket s vn = some (h, p)) ∧ (p.kind = k) ∧ (packetLast s vn h = true) ∧ (postedQueued s p.requester h.since = false) ∧ (atomic = true) ∧ (s.flt.safe = true)) :=
  ⟨⟨.poolMemoryRead, .ion, .memRead, false, aPacket .ion .swap, { readTlp with kind := .swap }, forMover .ion .swap State.reset, by decide +kernel⟩,
   ⟨.poolMemoryRead, .ion, .memRead, false, aPacket .ion .memRead, readTlp, setEjectBuf (forMover .ion .memRead State.reset) moverStop 1 .iop [aPacket .iop .memWrite], by decide +kernel⟩,
   ⟨.poolMemoryRead, .ion, .memRead, false, aPacket .ion .memRead, readTlp, forMover .ion .memRead State.reset, by decide +kernel⟩,
   ⟨.poolSwap, .ion, .swap, true, aPacket .ion .swap, { readTlp with kind := .swap }, forMover .ion .swap { State.reset with flt := { State.reset.flt with safe := true } }, by decide +kernel⟩⟩

/-- States and operands that meet the hypotheses of each clause of `Obligations.MoverCache`. -/
theorem witness_MoverCache :
    (∃ (h : Held) (s : State), (((ejectBuf s moverStop 2 .snp).find? fun g => !snoopWaits s g.u) = some h)) ∧
    (∃ (dat : Bool) (h : Held) (s : State), (nackFirst (ejectBuf s moverStop 2 (if dat then .dat else .rsp)) = some h) ∧ ((tabFind? h.u.tag.toNat s.mov.quar).isSome = true)) ∧
    (∃ (h : Held) (f : CacheFill) (s : State), (nackFirst (ejectBuf s moverStop 2 .dat) = some h) ∧ (h.u.vn = .dat) ∧ (h.u.type.toNat % 4 = 2) ∧ (cacheStray s h.u = false) ∧ (poolPart s h.u.tag.toNat = none) ∧ ((s.mov.fills.find? fun g => decide (g.tag = h.u.tag.toNat)) = some f)) ∧
    (∃ (u : Fin 16) (fn : BitVec 16) (s : State), odGet s (0x7400 + u.val) 3 ≠ 1 ∧ (fn.toNat ≤ 1087 ∨ fn = 0xFFFF)) ∧
    (∃ (u : Fin 16) (fn : BitVec 16) (s : State), odGet s (0x7400 + u.val) 3 ≠ 1 ∧ 1087 < fn.toNat ∧ fn ≠ 0xFFFF) ∧
    (∃ (u : Fin 16) (w : BitVec 512) (s : State), odGet s (0x7400 + u.val) 3 ≠ 1 ∧ (ctxInRange w = true)) ∧
    (∃ (u : Fin 16) (w : BitVec 512) (s : State), odGet s (0x7400 + u.val) 3 ≠ 1 ∧ (ctxInRange w = false)) ∧
    (∃ (u : Fin 16) (fn : BitVec 16) (w : BitVec 512) (s : State), (odGet s (0x7400 + u.val) 3 = 1)) :=
  ⟨⟨heldAs 0 { unitOn .snp with line := 5 }, setEjectBuf State.reset moverStop 2 .snp [heldAs 0 { unitOn .snp with line := 5 }], by decide +kernel⟩,
   ⟨true, heldAs 0 { unitOn .dat with tag := 7 }, setEjectBuf { State.reset with mov := { State.reset.mov with quar := [(7, 3)] } } moverStop 2 .dat [heldAs 0 { unitOn .dat with tag := 7 }], by decide +kernel⟩,
   ⟨heldAs 0 { unitOn .dat with type := 2, tag := 32768, line := 5 }, aFill, setEjectBuf { State.reset with mov := { State.reset.mov with fills := [aFill] } } moverStop 2 .dat [heldAs 0 { unitOn .dat with type := 2, tag := 32768, line := 5 }], by decide +kernel⟩,
   ⟨3, 1024, State.reset, by decide +kernel⟩,
   ⟨3, 2000, State.reset, by decide +kernel⟩,
   ⟨3, 0, State.reset, by decide +kernel⟩,
   ⟨3, BitVec.ofNat 512 (2 ^ 512 - 1), State.reset, by decide +kernel⟩,
   ⟨3, 1024, 0, odSet State.reset 0x7403 3 1, by decide +kernel⟩⟩

/-- Function 3 in slot 2 of VCS 0, which has 8 slots. -/
def assigned : State := withOd [(funcIdx 3, 1, 2), (0x7C00, 9, 8), (funcIdx 3, 3, 100), (funcIdx 4, 3, 5)]

/-- Function 3 belongs to no VCS. -/
def unslotted : State := odSet assigned (funcIdx 3) 1 unassigned

/-- The reset of function `n` is pending. -/
def resetting (s : State) (n : Nat) : State := setFunc s n { func s n with resetPending := true }

/-- SQ 5 and CQ 6 belong to no function. -/
def freeQueues (st : QueueSt) : State :=
  { State.reset with mov := { State.reset.mov with sqs := [(5, { subReset with st := st })], cqs := [(6, compReset)] } }

/-- The channel of function 3 in state `st`, with a window of 2 MiB. -/
def logIn (st : LogSt) : State := setLogCh (odSet (odSet assigned (logIdx 3) 0x13 0) (logIdx 3) 0x14 (2 ^ 21)) 3 { logReset with state := st }
/-- States and operands that meet the hypotheses of each clause of `Obligations.FunctionsAndResources`. -/
theorem witness_FunctionsAndResources :
    (∃ (f : Fin 1024) (v : Fin 255) (j : Fin 2048) (s : State), (assignment s f.val = none) ∧ v.val ≤ 63 ∧ j.val ≠ 0 ∧ j.val ≤ odGet s (0x7C00 + v.val) 9 ∧ (funcAtSlot s v.val j.val = none) ∧ (resetPending s f.val = false)) ∧
    (∃ (f : Fin 1024) (v : Fin 255) (j : Fin 2048) (s : State), (assignment s f.val = none) ∧ (63 < v.val ∨ j.val = 0 ∨ odGet s (0x7C00 + v.val) 9 < j.val)) ∧
    (∃ (f : Fin 1024) (v : Fin 255) (j : Fin 2048) (s : State), (assignment s f.val = none) ∧ v.val ≤ 63 ∧ j.val ≠ 0 ∧ j.val ≤ odGet s (0x7C00 + v.val) 9 ∧ funcAtSlot s v.val j.val ≠ none) ∧
    (∃ (f : Fin 1024) (s : State), assignment s f.val ≠ none ∧ (resetPending s f.val = false)) ∧
    (∃ (f : Fin 1024) (s : State), (resetPending s f.val = true)) ∧
    (∃ (x : BitVec 32) (q : Fin 4096) (o : Option (Fin 1088)) (loc : Fin 4096) (s : State), ((sq s q.val).st = .disabled) ∧ ((sq s q.val).reading = false) ∧ (ownerPending s (sq s q.val).owner = false) ∧ (∀ n : Fin 1088, o = some n → resetPending s n.val = false ∧ ∀ r : Nat, sqOf s n.val loc.val = some r → r = q.val)) ∧
    (∃ (x : BitVec 32) (q : Fin 4096) (o : Option (Fin 1088)) (loc : Fin 4096) (s : State), q.val < 1024 ∧ loc.val < 1024 ∧ ((cq s q.val).st = .disabled) ∧ ((cq s q.val).reading = false) ∧ ((cq s q.val).hold = []) ∧ (ownerPending s (cq s q.val).owner = false) ∧ (∀ n : Fin 1088, o = some n → resetPending s n.val = false ∧ ∀ r : Nat, cqOf s n.val loc.val = some r → r = q.val)) ∧
    (∃ (x : BitVec 32) (q : Fin 4096) (o : Option (Fin 1088)) (loc : Fin 4096) (s : State), (sq s q.val).st ≠ .disabled) ∧
    (∃ (a : Fin 1088) (b : Fin 1088) (n : BitVec 16) (s : State), a ≠ b ∧ n.toNat ≤ odGet s (funcIdx a.val) 3 ∧ odGet s (funcIdx b.val) 3 + n.toNat ≤ 65535) ∧
    (∃ (a : Fin 1088) (b : Fin 1088) (n : BitVec 16) (s : State), odGet s (funcIdx a.val) 3 < n.toNat) ∧
    (∃ (c : Fin 1024) (f : Fin 1024) (s : State), (∀ d : Nat, heldSet s f.val = some d → d = c.val)) ∧
    (∃ (c : Fin 1024) (f : Fin 1024) (d : Nat) (s : State), (heldSet s f.val = some d) ∧ d ≠ c.val) :=
  ⟨⟨3, 0, 4, unslotted, by decide +kernel⟩,
   ⟨3, 64, 4, unslotted, by decide +kernel⟩,
   ⟨4, 0, 2, odSet assigned (funcIdx 4) 1 unassigned, by decide +kernel⟩,
   ⟨3, assigned, by decide +kernel⟩,
   ⟨3, resetting assigned 3, by decide +kernel⟩,
   ⟨1, 5, some 3, 0, freeQueues .disabled, ⟨by decide +kernel, by decide +kernel, by decide +kernel, fun n h => by obtain rfl := Option.some.inj h; exact ⟨by decide +kernel, fun r h2 => nomatch h2.symm.trans (show sqOf (freeQueues .disabled) 3 0 = none by decide +kernel)⟩⟩⟩,
   ⟨1, 6, some 3, 0, freeQueues .disabled, ⟨by decide +kernel, by decide +kernel, by decide +kernel, by decide +kernel, by decide +kernel, by decide +kernel, fun n h => by obtain rfl := Option.some.inj h; exact ⟨by decide +kernel, fun r h2 => nomatch h2.symm.trans (show cqOf (freeQueues .disabled) 3 0 = none by decide +kernel)⟩⟩⟩,
   ⟨1, 5, none, 0, freeQueues .enabled, by decide +kernel⟩,
   ⟨3, 4, 100, assigned, by decide +kernel⟩,
   ⟨3, 4, 101, assigned, by decide +kernel⟩,
   ⟨7, 7, State.reset, fun d h => by have : some d = some 7 := h.symm.trans (by decide +kernel); exact Option.some.inj this⟩,
   ⟨7, 8, 8, State.reset, by decide +kernel⟩⟩

/-- States and operands that meet the hypotheses of each clause of `Obligations.FunctionResets`. -/
theorem witness_FunctionResets :
    (∃ (n : Fin 1088) (i : Instr) (s : State), (i = .controlPageReset n ∨ i = .functionReset n ∨ (i = .functionLevelReset n ∧ n.val < 1024)) ∧ (resetPending s n.val = false)) ∧
    (∃ (v : Fin 64) (n : Fin 1088) (s : State), (n.val = 1024 + v.val)) ∧
    (∃ (n : Fin 1088) (u : State) (s : State), (u = dropGone (dropPieces (moverTurn (absorbHost s)))) ∧ ((func u n.val).resetPending = true) ∧ (fnBusy u n.val = false)) :=
  ⟨⟨3, .functionReset 3, assigned, by decide +kernel⟩,
   ⟨0, 1024, assigned, by decide +kernel⟩,
   ⟨3, dropGone (dropPieces (moverTurn (absorbHost (resetting assigned 3)))), resetting assigned 3, by decide +kernel⟩⟩

/-- States and operands that meet the hypotheses of each clause of `Obligations.LogChannels`. -/
theorem witness_LogChannels :
    (∃ (c : Fin 1088) (w : BitVec 512) (s : State), ((logCh s c.val).state = .off) ∧ 9 ≤ (w.extractLsb' 192 8).toNat ∧ (w.extractLsb' 192 8).toNat ≤ 20 ∧ ((w.extractLsb' 128 64).toNat % 4096 = 0) ∧ (windowValid s c.val = true)) ∧
    (∃ (c : Fin 1088) (lcb : Option (BitVec 512)) (s : State), ((logCh s c.val).state = .off) ∧ (lcb = none ∨ windowValid s c.val = false)) ∧
    (∃ (c : Fin 1088) (s : State), (logCh s c.val).state ≠ .off) ∧
    (∃ (c : Fin 1088) (i : BitVec 32) (s : State), ((logCh s c.val).state = .logging ∨ (logCh s c.val).state = .overflow)) ∧
    (∃ (c : Fin 1088) (s : State), ((logCh s c.val).state = .resetting)) ∧
    (∃ (c : Fin 1088) (s : State), (logCh s c.val).unsent ≠ 0) ∧
    (∃ (v : Fin 64) (c : Fin 1088) (s : State), (odGet s (logIdx c.val) 0x11 = v.val) ∧ (logCh s c.val).state ≠ .off) ∧
    (∃ (c : Fin 1088) (i : BitVec 32) (u : State) (s : State), (u = moverTurn (absorbHost s)) ∧ ((logCh u c.val).rearm = some i) ∧ (∀ a ∈ u.mov.accs, a.use = .relog c.val → a.over = true ∧ a.failed = false) ∧ (logCh u c.val).state ≠ .off) :=
  ⟨⟨3, BitVec.ofNat 512 (9 * 2 ^ 192), logIn .off, by decide +kernel⟩,
   ⟨3, none, logIn .off, by decide +kernel⟩,
   ⟨3, logIn .logging, by decide +kernel⟩,
   ⟨3, 5, logIn .overflow, by decide +kernel⟩,
   ⟨3, logIn .resetting, by decide +kernel⟩,
   ⟨3, setLogCh (logIn .logging) 3 { logReset with state := .logging, unsent := 2 }, by decide +kernel⟩,
   ⟨0, 3, logIn .logging, by decide +kernel⟩,
   ⟨3, 5, moverTurn (absorbHost (setLogCh (logIn .logging) 3 { logReset with state := .logging, rearm := some 5 })), setLogCh (logIn .logging) 3 { logReset with state := .logging, rearm := some 5 }, by decide +kernel⟩⟩

/-- A slot channel in state `st` with a device in the slot. -/
def aSlot (st : SlotState) : SlotCh := { slotReset with state := st, present := true, qualified := true, vin := 12000, vout := 12000 }

/-- VAUX is good; slot channel 4 is `x`, its power is requested, and its sensor is an NTC with a limit of 90 °C. -/
def slotIs (x : SlotCh) : State :=
  let s := withOd [(0x8204, 1, 1), (0x8204, 2, 1), (0x8204, 3, 10800), (0x8204, 4, 13200), (0x8204, 8, 5000), (0x8204, 0xD, 1), (0x8204, 0xE, 90)]
  { s with pow := { s.pow with vauxGood := true, slots := [(4, x)] } }

/-- A sample of a slot channel that carries 1 A. -/
def slotSample : SlotSample := { vin := 12000, vout := 12000, gate := 20000, cur := 1000, auxCur := 0, present := true, ntc := 30 }

/-- The main domain is on and in the thermal response. -/
def hot : State := { portZeroUp with pow := { portZeroUp.pow with gov := { portZeroUp.pow.gov with thermal := true } } }

/-- The supplies with 12 V and VAUX good. -/
def supplied (main aux : Bool) (st : VauxStage) : State :=
  { State.reset with pow := { State.reset.pow with
      vin12 := { supplyReset with mV := 12000, good := true, nLost := 1 }, vaux := { supplyReset with mV := 3300, good := true }
      mainOn := main, vauxGood := aux, vauxStage := st } }

/-- VAUX is lost. -/
def unsupplied (st : VauxStage) : State := { State.reset with pow := { State.reset.pow with vauxStage := st } }
/-- States and operands that meet the hypotheses of each clause of `Obligations.Supplies`. -/
theorem witness_Supplies :
    (∃ (vinMv : Nat) (vinMa : Nat) (vauxMv : Nat) (vauxMa : Nat) (resMv : Nat) (s : State), (s.pow.vauxGood = false) ∧ (s.pow.vauxStage = .none) ∧ (s.pow.mainOn = false)) ∧
    (∃ (vinMv : Nat) (vinMa : Nat) (vauxMv : Nat) (vauxMa : Nat) (resMv : Nat) (s : State), (s.pow.vauxGood = true) ∧ (s.pow.vauxStage = .none) ∧ (s.pow.mainOn = true) ∧ (s.pow.vaux.good = true) ∧ (s.pow.vaux.ovp = false) ∧ 2650 < vauxMv ∧ vauxMv ≤ 5600 ∧ vinMv < 10400 ∧ 1 ≤ s.pow.vin12.nLost) ∧
    (∃ (s : State), (s.pow.vaux.good = true) ∧ (s.pow.vauxGood = false) ∧ (s.pow.vauxStage = .none)) ∧
    (∃ (s : State), (s.pow.vin12.good = true)) ∧
    (∃ (s : State), (s.pow.vauxStage = .onReservoir) ∧ (s.spr.commit = none) ∧ (s.pow.vaux.good = false)) ∧
    (∃ (s : State), (s.pow.vaux.good = false) ∧ (s.pow.vauxStage = .snapshotDone ∨ (s.pow.vauxStage = .onReservoir ∧ s.pow.resMv ≤ 8000))) :=
  ⟨⟨12000, 1000, 3300, 100, 11000, State.reset, by decide +kernel⟩,
   ⟨10000, 1000, 3300, 100, 11000, supplied true true .none, by decide +kernel⟩,
   ⟨supplied false false .none, by decide +kernel⟩,
   ⟨supplied false true .none, by decide +kernel⟩,
   ⟨unsupplied .onReservoir, by decide +kernel⟩,
   ⟨unsupplied .snapshotDone, by decide +kernel⟩⟩

/-- States and operands that meet the hypotheses of each clause of `Obligations.SlotTicks`. -/
theorem witness_SlotTicks :
    (∃ (c : Fin 48) (m : SlotSample) (s : State), (s.pow.vauxGood = true)) ∧
    (∃ (c : Fin 48) (m : SlotSample) (x : SlotCh) (s : State), (s.pow.vauxGood = true) ∧ ((slotCh s c.val).state = .ramping) ∧ (x = slotSampled s c.val (slotCh s c.val) m) ∧ m.cur < 2 * odGet s (0x8200 + c.val) 8 ∧ (slotHot s c.val { x with faultTimer := false, lowTicks := 0 } = false) ∧ (slotLimiting s c.val x m = false) ∧ (m.present = true) ∧ (x.inWindow = true) ∧ (slotRequest s c.val (slotCh s c.val) = true) ∧ m.vin * 95 ≤ m.vout * 100 ∧ m.vin + 8000 ≤ m.gate) ∧
    (∃ (c : Fin 48) (s : State), ((slotCh s c.val).state = .qualifying) ∧ ((slotCh s c.val).insertTimer = true)) ∧
    (∃ (c : Fin 48) (i : Instr) (k : Nat) (s : State), ((i = .faultTimerExpire c ∧ k = 1 ∧ (slotCh s c.val).state.driving = true ∧ (slotCh s c.val).faultTimer = true) ∨ (i = .rampTimeout c ∧ k = 3 ∧ (slotCh s c.val).state = .ramping ∧ (slotCh s c.val).rampTimer = true ∧ (slotCh s c.val).vout * 100 < (slotCh s c.val).vin * 95))) ∧
    (∃ (c : Fin 48) (s : State), ((slotCh s c.val).state = .ramping) ∧ ((slotCh s c.val).gateWindow = true)) ∧
    (∃ (c : Fin 48) (s : State), ((slotCh s c.val).state = .tripped) ∧ ((slotCh s c.val).retryTimer = true) ∧ (slotCh s c.val).cause ≠ 2 ∧ (odGet s (0x8200 + c.val) 0xC = 0 ∨ (slotCh s c.val).retries < odGet s (0x8200 + c.val) 0xC)) ∧
    (∃ (c : Fin 48) (s : State), ((slotCh s c.val).state = .tripped) ∧ ((slotCh s c.val).retryTimer = true) ∧ (slotCh s c.val).cause ≠ 2 ∧ 0 < odGet s (0x8200 + c.val) 0xC ∧ odGet s (0x8200 + c.val) 0xC ≤ (slotCh s c.val).retries) ∧
    (∃ (c : Fin 48) (s : State), ((slotCh s c.val).state = .on)) :=
  ⟨⟨4, slotSample, slotIs (aSlot .idle), by decide +kernel⟩,
   ⟨4, slotSample, slotSampled (slotIs (aSlot .ramping)) 4 (aSlot .ramping) slotSample, slotIs (aSlot .ramping), ⟨by decide +kernel, by decide +kernel, rfl, by decide +kernel, by decide +kernel, by decide +kernel, by decide +kernel, by decide +kernel, by decide +kernel, by decide +kernel, by decide +kernel⟩⟩,
   ⟨4, slotIs { aSlot .qualifying with insertTimer := true }, by decide +kernel⟩,
   ⟨4, .faultTimerExpire 4, 1, slotIs { aSlot .limiting with faultTimer := true }, (Or.inl ⟨rfl, rfl, by decide +kernel, by decide +kernel⟩)⟩,
   ⟨4, slotIs { aSlot .ramping with gateWindow := true }, by decide +kernel⟩,
   ⟨4, slotIs { aSlot .tripped with retryTimer := true }, by decide +kernel⟩,
   ⟨4, odSet (slotIs { aSlot .tripped with retryTimer := true, retries := 3 }) 0x8204 0xC 3, by decide +kernel⟩,
   ⟨4, slotIs { aSlot .on with retries := 3 }, by decide +kernel⟩⟩

/-- States and operands that meet the hypotheses of each clause of `Obligations.SlotCommands`. -/
theorem witness_SlotCommands :
    (∃ (c : Fin 48) (s : State), ((slotCh s c.val).state = .latched) ∧ (slotRequest s c.val (slotCh s c.val) = false)) ∧
    (∃ (c : Fin 48) (s : State), ((slotCh s c.val).state = .latched) ∧ (slotRequest s c.val (slotCh s c.val) = true)) ∧
    (∃ (c : Fin 48) (s : State), ((slotCh s c.val).state = .idle) ∧ ((slotCh s c.val).hostRequest = none) ∧ ((slotCh s c.val).dropped = false)) ∧
    (∃ (c : Fin 48) (s : State), ((slotCh s c.val).state.driving = true) ∧ ((slotCh s c.val).hostRequest = none)) :=
  ⟨⟨4, odSet (slotIs (aSlot .latched)) 0x8204 2 0, by decide +kernel⟩,
   ⟨4, slotIs (aSlot .latched), by decide +kernel⟩,
   ⟨4, odSet (slotIs (aSlot .idle)) 0x8204 2 0, by decide +kernel⟩,
   ⟨4, slotIs (aSlot .on), by decide +kernel⟩⟩

/-- States and operands that meet the hypotheses of each clause of `Obligations.GovernorAndClocks`. -/
theorem witness_GovernorAndClocks :
    (∃ (w : Nat) (d : List Nat) (s : State), (s.pow.mainOn = true)) ∧
    (∃ (s : State), (s.pow.gov.thermal = true) ∧ (s.pow.gov.alerted = false) ∧ (∀ p : Nat, p < 96 → narrowable s p = false)) ∧
    (∃ (p : Fin 96) (s : State), (s.pow.gov.thermal = true) ∧ (narrowable s p.val = true)) ∧
    (∃ (s : State), (s.pow.gov.thermal = true) ∧ (∀ n : Nat, n < 64 → sensorUsed s n < (odGet s 0x8111 (n + 1) : Int) - 5)) ∧
    (∃ (s : State), 100 ≤ s.pow.gov.overCap) ∧
    (∃ (r : Fin 21) (s : State), (s.pow.vauxGood = true)) ∧
    (∃ (r : Fin 21) (s : State), r.val < 16) ∧
    (∃ (r : Fin 21) (s : State), 16 ≤ r.val) :=
  ⟨⟨300, [5, 5, 5, 5], running State.reset, by decide +kernel⟩,
   ⟨hot, by decide +kernel⟩,
   ⟨0, odSet (odSet { hot with port := { hot.port with l0p := [0] } } 0x2100 7 1) 0x2100 0x16 4, by decide +kernel⟩,
   ⟨hot, by decide +kernel⟩,
   ⟨{ hot with pow := { hot.pow with gov := { hot.pow.gov with overCap := 100 } } }, by decide +kernel⟩,
   ⟨3, slotIs slotReset, by decide +kernel⟩,
   ⟨3, portZeroUp, by decide +kernel⟩,
   ⟨17, odSet portZeroUp 0x6104 0x10 3, by decide +kernel⟩⟩

/-- A read of 4 bytes at `a` by master `m` with transaction number 3. -/
def busRead (m : Fin 6) (a : BitVec 32) (st : Bool) : BusReq := { master := m, id := 3, addr := a, kind := .read 4, stalls := st }

/-- Master 1 has 16 transactions outstanding. -/
def fullMaster : State :=
  { State.reset with mgmt := { State.reset.mgmt with outstanding := [(1, (List.range 16).map fun i => { id := i, addr := 64 * i, target := 0 })] } }

/-- The DMA's write of one byte at address 0 waits at the SRAM; `l`: it has timed out. -/
def waitsAtSram (l : Bool) : HeldTxn :=
  { target := 0, req := { master := 5, id := 2, addr := 0, kind := .write [7], stalls := true }, deny := [], silent := false, late := l }

/-- The debug port is unlocked with permission 0. -/
def debugOpen : State := { State.reset with sec := { State.reset.sec with unlocked := true, permissions := 1 } }

/-- Core 1 has entered P0 from P1. -/
def enteredFromP1 : State := setCore State.reset 1 { coreSt State.reset 1 with saved := [.p1] }
/-- States and operands that meet the hypotheses of each clause of `Obligations.BusAccesses`. -/
theorem witness_BusAccesses :
    (∃ (r : BusReq) (s : State), (r.master.val = 4) ∧ (targetOf r.addr.toNat = none) ∧ (r.stalls = false) ∧ (outstanding s r.master).length < 16) ∧
    (∃ (r : BusReq) (tg : Target) (s : State), (r.master.val = 4) ∧ (targetOf r.addr.toNat = some tg) ∧ (tg.lockedRegion = true) ∧ (r.stalls = false) ∧ (outstanding s r.master).length < 16) ∧
    (∃ (r : BusReq) (n : Nat) (p : Nat) (l : List Nat) (s : State), r.master.val < 4 ∧ (r.kind = .read n) ∧ targetOf r.addr.toNat ≠ some .mpuRegs ∧ (r.stalls = false) ∧ (outstanding s r.master).length < 16 ∧ (partsRefused (coreSt s r.master) r.addr.toNat r.kind = p :: l)) ∧
    (∃ (r : BusReq) (d : List Byte) (s : State), (r.master.val = 5) ∧ (targetOf r.addr.toNat = some .mramGeneral) ∧ (r.kind = .write d) ∧ (r.stalls = false) ∧ (outstanding s r.master).length < 16) ∧
    (∃ (r : BusReq) (tg : Target) (s : State), (r.stalls = true) ∧ (outstanding s r.master).length < 16 ∧ (refusedParts s r = []) ∧ (crossbar s r = .inr tg)) ∧
    (∃ (r : BusReq) (s : State), 16 ≤ (outstanding s r.master).length) ∧
    (∃ (c : BusReq) (d : BusReq) (n : Nat) (m : Nat) (s : State), (c.master.val = 4) ∧ (d.master.val = 5) ∧ (s.sec.unlocked = true) ∧ (s.sec.permissions.getLsbD 0 = true) ∧ (targetOf c.addr.toNat = some .sram) ∧ (targetOf d.addr.toNat = some .sram) ∧ (c.kind = .read n) ∧ (d.kind = .read m) ∧ (c.stalls = false) ∧ (d.stalls = false) ∧ (targetWaits s .sram = false) ∧ (outstanding s 4).length < 16 ∧ (outstanding s 5).length < 16) :=
  ⟨⟨busRead 4 0x20000000 false, State.reset, by decide +kernel⟩,
   ⟨busRead 4 0x07F00000 false, .keyStore, State.reset, by decide +kernel⟩,
   ⟨busRead 1 0x10 false, 4, 0, [], setCore State.reset 1 { coreSt State.reset 1 with level := .p1, setA := [(0, 0)] }, by decide +kernel⟩,
   ⟨{ busRead 5 0x04000000 false with kind := .write [1] }, [1], State.reset, by decide +kernel⟩,
   ⟨busRead 5 0x100 true, .sram, State.reset, by decide +kernel⟩,
   ⟨busRead 1 0x100 false, fullMaster, by decide +kernel⟩,
   ⟨busRead 4 0x100 false, busRead 5 0x200 false, 4, 4, debugOpen, by decide +kernel⟩⟩

/-- States and operands that meet the hypotheses of each clause of `Obligations.ManagementEvents`. -/
theorem witness_ManagementEvents :
    (∃ (m : Fin 6) (i : Fin 16) (x : BusTxn) (s : State), ((outstanding s m).find? (fun y => decide (y.id = i.val)) = some x)) ∧
    (∃ (m : Fin 6) (i : Fin 16) (h : HeldTxn) (tg : Target) (s : State), (s.mgmt.held.find? (heldBy m.val i.val true) = some h) ∧ (s.mgmt.held.find? (fun x => decide (x.target = h.target)) = some h) ∧ (targetOf h.req.addr.toNat = some tg) ∧ (∀ x : HeldTxn, x ∈ s.mgmt.held.erase h → x.target ≠ h.target)) ∧
    (∃ (m : Fin 6) (i : Fin 16) (h : HeldTxn) (d : List Byte) (s : State), (s.mgmt.held.find? (heldBy m.val i.val true) = some h) ∧ (s.mgmt.held.find? (fun x => decide (x.target = h.target)) = some h) ∧ (targetOf h.req.addr.toNat = some .sram) ∧ (h.req.kind = .write d) ∧ (∀ x : HeldTxn, x ∈ s.mgmt.held.erase h → x.target ≠ h.target)) ∧
    (∃ (m : Fin 6) (i : Fin 16) (o : Fin 0x40000000) (x : Nat) (n : Nat) (s : State), (s.pow.mainOn = true) ∧ (fabricAddr (odGet s 0x9006 1 * 2 ^ 30 + o.val) = .lpddr x)) ∧
    (∃ (m : Fin 6) (i : Fin 16) (o : Fin 0x40000000) (k : BusKind) (s : State), (s.pow.mainOn = false)) ∧
    (∃ (m : Fin 6) (i : Fin 16) (o : Fin 0x40000000) (n : Nat) (g : Nat) (d : List Byte) (s : State), (s.pow.mainOn = true) ∧ (fabricAddr (odGet s 0x9006 1 * 2 ^ 30 + o.val) = .agent n g) ∧ (agentReachable s n g = true)) ∧
    (∃ (k : Fin 4) (l : Level) (rest : List Level) (s : State), ((coreSt s k).saved = l :: rest)) ∧
    (∃ (m : Fin 6) (i : Fin 16) (code : BitVec 16) (d : BitVec 192) (s : State), 0x8000 ≤ code.toNat ∧ (s.flt.frozen = false)) ∧
    (∃ (m : Fin 6) (i : Fin 16) (code : BitVec 16) (d : BitVec 192) (s : State), code.toNat < 0x8000) :=
  ⟨⟨5, 2, { id := 2, addr := 0, target := 0 }, { State.reset with mgmt := { State.reset.mgmt with outstanding := [(5, [{ id := 2, addr := 0, target := 0 }])], held := [waitsAtSram false] } }, by decide +kernel⟩,
   ⟨5, 2, waitsAtSram true, .sram, { State.reset with mgmt := { State.reset.mgmt with held := [waitsAtSram true] } }, by decide +kernel⟩,
   ⟨5, 2, waitsAtSram true, [7], { State.reset with mgmt := { State.reset.mgmt with held := [waitsAtSram true] } }, by decide +kernel⟩,
   ⟨0, 1, 0x40, 0x40, 8, running State.reset, by decide +kernel⟩,
   ⟨0, 1, 0x40, .read 8, State.reset, by decide +kernel⟩,
   ⟨0, 1, 0x10000, 0, 1, [1], running (withOd [(0x9006, 1, 128), (0x3032, 1, 0)]), by decide +kernel⟩,
   ⟨1, .p1, [], enteredFromP1, by decide +kernel⟩,
   ⟨0, 1, 0x8001, 5, State.reset, by decide +kernel⟩,
   ⟨0, 1, 0x7FFF, 5, State.reset, by decide +kernel⟩⟩

/-- A PLAIN session over USB at the latest versions. -/
def aSession : Session :=
  { id := 7, transport := .usb, protocol := 0x0203, odVersion := 0x0203, mode := .plain, maxMessage := 1024, clientName := []
    high := none, kept := [], executing := [], values := [], subs := [], nextSub := 1, queue := [], lost := 0, notifySeq := 0
    lastRequest := 0, source := .usb, snapRead := none, spdm := none }

/-- A queued record. -/
def aRecord18 : NotifyRec :=
  { time := 1, detail := 2, value := 3, kind := 2, undisciplined := false, index := 0x2100, sub := 2, lost := 0 }

/-- The session `x` is open. -/
def opened (x : Session) : State := { State.reset with spr := { State.reset.spr with serving := true, sessions := [x] } }

/-- A request of session 7 with sequence number 5. -/
def aRequest18 : Req := { session := 7, seq := 5, reqId := 9, via := .usb, tagOk := true }

/-- The dictionary's row of an entry. -/
def rowOf (i u : Nat) : DictRow :=
  match dictRow? i u with
  | some d => d
  | none => ⟨0, 0, 0, 0, .u8, .ro, 0, .none, 0, 0, 0, [], 0, ""⟩

/-- A request that nothing of its session stands before is fresh. -/
theorem fresh_of {s : State} {x : Session} {n : Nat} (h : s.spr.serving = true) (f : session? s 7 = some x) (m : x.mode = .plain)
    (g : x.high = none) (e : x.executing.length < 8) (p : n ≤ x.protocol) (q : 0x0100 ≤ x.protocol) : freshRequest s aRequest18 x n :=
  ⟨h, rfl, f, .inl m, by simp [g], e, p, q⟩

/-- The reservoir of `s` is charged. -/
def charged (s : State) : State := { s with pow := { s.pow with capUf := 11000, resMv := 12000 } }

/-- A charged hold-up supply passes every test of at most 2^21. -/
theorem holdup_charged (s : State) (n : Nat) (h : n ≤ 2 ^ 21) : holdupPasses (charged s) n = true := by
  have e : eu (charged s) = 396000 := show usableEnergy 11000 12000 = 396000 by decide
  simp only [holdupPasses, e, decide_eq_true_eq]; omega

/-- A flat hold-up supply passes no test. -/
theorem holdup_flat (s : State) (n : Nat) (h : eu s = 0) : holdupPasses s n = false := by
  simp only [holdupPasses, h, decide_eq_false_iff_not]; omega

/-- An image that is being written. -/
def anImage : ImageWrite := { asker := none, msgType := 10, reqId := 0, od := [], srcCfg := [], guard := [], size := 64 }
/-- States and operands that meet the hypotheses of each clause of `Obligations.RequestAnswers`. -/
theorem witness_RequestAnswers :
    (∃ (id : Nat) (seq : Nat) (reqId : Nat) (type : Nat) (via : Transport) (st : Status) (body : List Byte) (x : Session) (s : State), (session? s id = some x)) ∧
    (∃ (r : Req) (x : Session) (h : Nat) (msg : List Byte) (s : State), (s.spr.serving = true) ∧ (transportRefuses s r.via = false) ∧ (session? s r.session = some x) ∧ (x.mode = .plain ∨ r.tagOk = true) ∧ (x.high = some h) ∧ r.seq ≤ h ∧ ((x.kept.find? fun k => decide (k.1 = r.seq)) = some (r.seq, msg))) ∧
    (∃ (r : Req) (x : Session) (h : Nat) (s : State), (s.spr.serving = true) ∧ (transportRefuses s r.via = false) ∧ (session? s r.session = some x) ∧ (x.mode = .plain ∨ r.tagOk = true) ∧ (x.high = some h) ∧ r.seq ≤ h ∧ (∀ k ∈ x.kept, k.1 ≠ r.seq) ∧ (∀ e ∈ x.executing, e.1 ≠ r.seq)) ∧
    (∃ (r : Req) (s : State), (s.spr.serving = true) ∧ (transportRefuses s r.via = false) ∧ (session? s r.session = none)) ∧
    (∃ (r : Req) (x : Session) (s : State), (s.spr.serving = true) ∧ (transportRefuses s r.via = false) ∧ (session? s r.session = some x) ∧ x.mode ≠ .plain ∧ (r.tagOk = false)) :=
  ⟨⟨7, 5, 9, 3, .usb, .ok, [], aSession, opened aSession, by decide +kernel⟩,
   ⟨aRequest18, { aSession with high := some 5, kept := [(5, [1])] }, 5, [1], opened { aSession with high := some 5, kept := [(5, [1])] }, by decide +kernel⟩,
   ⟨aRequest18, { aSession with high := some 6, kept := [(6, [1])] }, 6, opened { aSession with high := some 6, kept := [(6, [1])] }, by decide +kernel⟩,
   ⟨{ aRequest18 with session := 8 }, opened aSession, by decide +kernel⟩,
   ⟨{ aRequest18 with tagOk := false }, { aSession with mode := .authenticated }, opened { aSession with mode := .authenticated }, by decide +kernel⟩⟩

/-- States and operands that meet the hypotheses of each clause of `Obligations.Sessions`. -/
theorem witness_Sessions :
    (∃ (seq : BitVec 32) (reqId : BitVec 32) (via : Transport) (pmax : BitVec 16) (omax : BitVec 16) (m : Mode) (mx : BitVec 32) (name : List Byte) (spdm : Option Nat) (s : State), (s.spr.serving = true) ∧ (transportEnabled s via = true) ∧ (helloRefusal s via pmax.toNat omax.toNat mx.toNat m spdm = none)) ∧
    (∃ (seq : BitVec 32) (reqId : BitVec 32) (via : Transport) (pmax : BitVec 16) (omax : BitVec 16) (m : Mode) (mx : BitVec 32) (name : List Byte) (spdm : Option Nat) (s : State) (st : Status), (s.spr.serving = true) ∧ (transportEnabled s via = true) ∧ (helloRefusal s via pmax.toNat omax.toNat mx.toNat m spdm = some st)) ∧
    (∃ (r : Req) (x : Session) (s : State), freshRequest s r x 0x0100) ∧
    (∃ (r : Req) (x : Session) (s : State), freshRequest s r x 0x0100) ∧
    (∃ (r : Req) (x : Session) (g : Byte) (i : BitVec 16) (n : BitVec 32) (s : State), freshRequest s r x 0x0200 ∧ 1 ≤ g.toNat ∧ g.toNat ≤ 12 ∧ x.subs.length < 64 ∧ ((s.spr.sessions.map fun y => y.subs.length).foldl (· + ·) 0 < 1024)) ∧
    (∃ (r : Req) (x : Session) (b : Subscription) (n : BitVec 16) (s : State), freshRequest s r x 0x0200 ∧ b ∈ x.subs ∧ (b.number = n.toNat)) ∧
    (∃ (id : BitVec 32) (x : Session) (s : State), (session? s id.toNat = some x) ∧ (transportPushed x.transport = true) ∧ x.queue ≠ [] ∧ (dueRecords s x = [])) ∧
    (∃ (v : Fin 64) (x : Session) (s : State), (s.spr.serving = true) ∧ (transportEnabled s (.mailbox v.val) = true) ∧ ((s.spr.sessions.filter fun y => decide (y.transport = .mailbox v.val)) = [x]) ∧ (session? s x.id = some x) ∧ x.queue ≠ [] ∧ (dueRecords s x = [])) ∧
    (∃ (v : Fin 64) (s : State), (s.spr.serving = true) ∧ (transportEnabled s (.mailbox v.val) = false)) :=
  ⟨⟨1, 2, .usb, 0x0203, 0x0203, .plain, 1024, [], none, opened aSession, by decide +kernel⟩,
   ⟨1, 2, .usb, 0x0203, 0x0203, .plain, 255, [], none, opened aSession, .unsupported, by decide +kernel⟩,
   ⟨aRequest18, aSession, opened aSession, fresh_of rfl (by decide +kernel) rfl rfl (by decide) (by decide) (by decide)⟩,
   ⟨aRequest18, aSession, opened aSession, fresh_of rfl (by decide +kernel) rfl rfl (by decide) (by decide) (by decide)⟩,
   ⟨aRequest18, aSession, 12, 0, 0, opened aSession, ⟨fresh_of rfl (by decide +kernel) rfl rfl (by decide) (by decide) (by decide), by decide, by decide, by decide, by decide⟩⟩,
   ⟨aRequest18, { aSession with subs := [{ number := 1, kind := 2, index := 0, sub := 3, intervalMs := 0, lastValue := none, lastTime := 0 }] }, { number := 1, kind := 2, index := 0, sub := 3, intervalMs := 0, lastValue := none, lastTime := 0 }, 1, opened { aSession with subs := [{ number := 1, kind := 2, index := 0, sub := 3, intervalMs := 0, lastValue := none, lastTime := 0 }] }, ⟨fresh_of rfl (by decide +kernel) rfl rfl (by decide) (by decide) (by decide), by decide, by decide⟩⟩,
   ⟨7, { aSession with queue := [aRecord18] }, opened { aSession with queue := [aRecord18] }, by decide +kernel⟩,
   ⟨3, { aSession with queue := [aRecord18], transport := .mailbox 3 }, odSet (opened { aSession with queue := [aRecord18], transport := .mailbox 3 }) 0x1130 1 8, by decide +kernel⟩,
   ⟨3, opened aSession, by decide +kernel⟩⟩

/-- States and operands that meet the hypotheses of each clause of `Obligations.DictionaryRequests`. -/
theorem witness_DictionaryRequests :
    (∃ (r : Req) (x : Session) (items : List (BitVec 16 × Byte)) (s : State), freshRequest s r x 0x0100 ∧ items ≠ [] ∧ items.length ≤ maxItems x.protocol) ∧
    (∃ (r : Req) (x : Session) (items : List (BitVec 16 × Byte)) (s : State), freshRequest s r x 0x0100 ∧ (items = [] ∨ maxItems x.protocol < items.length)) ∧
    (∃ (x : Session) (i : Nat) (u : Nat) (d : DictRow) (s : State), (highestSub? x i u = none) ∧ (visibleRow? x i u = some d) ∧ (d.access = .ro ∨ d.access = .const ∨ d.access = .rw) ∧ d.type ≠ .domain ∧ (readConflict s x i u = false)) ∧
    (∃ (x : Session) (i : Nat) (u : Nat) (d : DictRow) (s : State), (highestSub? x i u = none) ∧ (visibleRow? x i u = some d) ∧ (d.access = .wo ∨ d.access = .cmd)) ∧
    (∃ (r : Req) (x : Session) (items : List WriteItem) (s : State), freshRequest s r x 0x0100 ∧ items ≠ [] ∧ items.length ≤ maxItems x.protocol) ∧
    (∃ (x : Session) (w : WriteItem) (d : DictRow) (s : State), (highestSub? x w.index w.sub = none) ∧ (visibleRow? x w.index w.sub = some d) ∧ (d.persist = .certified)) ∧
    (∃ (x : Session) (w : WriteItem) (d : DictRow) (s : State), (highestSub? x w.index w.sub = none) ∧ (visibleRow? x w.index w.sub = some d) ∧ d.persist ≠ .certified ∧ (d.access = .ro ∨ d.access = .const)) ∧
    (∃ (x : Session) (w : WriteItem) (d : DictRow) (s : State), (highestSub? x w.index w.sub = none) ∧ (visibleRow? x w.index w.sub = some d) ∧ d.persist ≠ .certified ∧ (d.access = .rw) ∧ d.type ≠ .domain ∧ w.type ≠ d.type.code) ∧
    (∃ (x : Session) (w : WriteItem) (d : DictRow) (s : State), (highestSub? x w.index w.sub = none) ∧ (visibleRow? x w.index w.sub = some d) ∧ d.persist ≠ .certified ∧ (d.access = .rw) ∧ (d.type = .u32) ∧ (w.type = 4) ∧ (w.value.length = 4) ∧ (writeConflict s x w.index w.sub (leValue w.value) = false) ∧ (d.inRange (leValue w.value) = false)) ∧
    (∃ (x : Session) (w : WriteItem) (d : DictRow) (s : State), (highestSub? x w.index w.sub = none) ∧ (visibleRow? x w.index w.sub = some d) ∧ d.persist ≠ .certified ∧ (d.access = .rw) ∧ (d.type = .u32) ∧ (w.type = 4) ∧ (w.value.length = 4) ∧ (writeConflict s x w.index w.sub (leValue w.value) = false) ∧ (d.inRange (leValue w.value) = true) ∧ (sessionScoped w.index w.sub = true) ∧ w.index ≠ 0x4021) ∧
    (∃ (r : Req) (x : Session) (i : BitVec 16) (u : Byte) (d : DictRow) (s : State), freshRequest s r x 0x0100 ∧ (highestSub? x i.toNat u.toNat = none) ∧ (visibleRow? x i.toNat u.toNat = some d)) ∧
    (∃ (r : Req) (x : Session) (i : BitVec 16) (u : Byte) (s : State), freshRequest s r x 0x0100 ∧ (highestSub? x i.toNat u.toNat = none) ∧ (visibleRow? x i.toNat u.toNat = none)) ∧
    (∃ (r : Req) (x : Session) (i : BitVec 16) (u : Byte) (o : BitVec 32) (n : BitVec 32) (d : DictRow) (v : State) (size : Nat) (b : List Byte) (s : State), freshRequest s r x 0x0100 ∧ (visibleRow? x i.toNat u.toNat = some d) ∧ (d.type = .domain) ∧ d.access ≠ .wo ∧ (readDomain (takenState s r) (takenSession s r x) i.toNat u.toNat o.toNat (min n.toNat (x.maxMessage - 20)) = (v, .ok, size, b))) ∧
    (∃ (r : Req) (x : Session) (i : BitVec 16) (u : Byte) (n : BitVec 32) (data : List Byte) (d : DictRow) (s : State), freshRequest s r x 0x0100 ∧ (visibleRow? x i.toNat u.toNat = some d) ∧ (d.type = .domain) ∧ (d.access = .rw) ∧ (openSeg? s i.toNat u.toNat = none) ∧ (domainHolds i.toNat u.toNat n.toNat = true) ∧ data.length ≤ n.toNat) ∧
    (∃ (r : Req) (x : Session) (i : BitVec 16) (u : Byte) (last : Bool) (o : BitVec 32) (n : BitVec 32) (data : List Byte) (d : DictRow) (g : SegWrite) (s : State), freshRequest s r x 0x0100 ∧ (visibleRow? x i.toNat u.toNat = some d) ∧ (d.type = .domain) ∧ (d.access = .rw) ∧ (openSeg? s i.toNat u.toNat = some g) ∧ g.session ≠ x.id) ∧
    (∃ (r : Req) (x : Session) (i : BitVec 16) (u : Byte) (ty : Byte) (a : BitVec 64) (d : DictRow) (s : State), freshRequest s r x 0x0100 ∧ (visibleRow? x i.toNat u.toNat = some d) ∧ d.persist ≠ .certified ∧ (d.access = .cmd) ∧ (ty.toNat = d.type.code) ∧ a.toNat < 256 ^ typeBytes d.type ∧ i ≠ 0x1010) ∧
    (∃ (r : Req) (x : Session) (i : BitVec 16) (u : Byte) (ty : Byte) (a : BitVec 64) (d : DictRow) (s : State), freshRequest s r x 0x0100 ∧ (visibleRow? x i.toNat u.toNat = some d) ∧ d.persist ≠ .certified ∧ d.access ≠ .cmd) :=
  ⟨⟨aRequest18, aSession, [(0x1010, 1), (0x9999, 1)], opened aSession, ⟨fresh_of rfl (by decide +kernel) rfl rfl (by decide) (by decide) (by decide), by decide, by decide⟩⟩,
   ⟨aRequest18, aSession, [], opened aSession, ⟨fresh_of rfl (by decide +kernel) rfl rfl (by decide) (by decide) (by decide), by decide⟩⟩,
   ⟨aSession, 0x1110, 2, rowOf 0x1110 2, opened aSession, by decide +kernel⟩,
   ⟨aSession, 0x7020, 5, rowOf 0x7020 5, opened aSession, by decide +kernel⟩,
   ⟨aRequest18, aSession, [{ index := 0x1110, sub := 2, type := 4, value := [1, 2, 3, 4] }], opened aSession, ⟨fresh_of rfl (by decide +kernel) rfl rfl (by decide) (by decide) (by decide), by decide, by decide⟩⟩,
   ⟨aSession, { index := 0xB010, sub := 2, type := 1, value := [1] }, rowOf 0xB010 2, opened aSession, by decide +kernel⟩,
   ⟨aSession, { index := 0x1010, sub := 1, type := 5, value := [1] }, rowOf 0x1010 1, opened aSession, by decide +kernel⟩,
   ⟨aSession, { index := 0x1110, sub := 2, type := 3, value := [1] }, rowOf 0x1110 2, opened aSession, by decide +kernel⟩,
   ⟨aSession, { index := 0x5010, sub := 1, type := 4, value := [0, 0, 0x80, 0] }, rowOf 0x5010 1, opened aSession, by decide +kernel⟩,
   ⟨aSession, { index := 0x5010, sub := 1, type := 4, value := [0xFF, 0xFF, 0x7F, 0] }, rowOf 0x5010 1, opened aSession, by decide +kernel⟩,
   ⟨aRequest18, aSession, 0x1010, 1, rowOf 0x1010 1, opened aSession, ⟨fresh_of rfl (by decide +kernel) rfl rfl (by decide) (by decide) (by decide), by decide +kernel, by decide +kernel⟩⟩,
   ⟨aRequest18, aSession, 0x1010, 9, opened aSession, ⟨fresh_of rfl (by decide +kernel) rfl rfl (by decide) (by decide) (by decide), by decide +kernel, by decide +kernel⟩⟩,
   ⟨aRequest18, aSession, 0x6010, 0, 0, 8, rowOf 0x6010 0, takenState (opened aSession) aRequest18, 30, (readDomain (takenState (opened aSession) aRequest18) (takenSession (opened aSession) aRequest18 aSession) 0x6010 0 0 8).2.2.2, opened aSession, ⟨fresh_of rfl (by decide +kernel) rfl rfl (by decide) (by decide) (by decide), by decide +kernel, by decide +kernel, by decide +kernel, by decide +kernel⟩⟩,
   ⟨aRequest18, aSession, 0x6010, 0, 30, [1, 2], rowOf 0x6010 0, opened aSession, ⟨fresh_of rfl (by decide +kernel) rfl rfl (by decide) (by decide) (by decide), by decide +kernel, by decide +kernel, by decide +kernel, by decide +kernel, by decide +kernel, by decide +kernel⟩⟩,
   ⟨aRequest18, aSession, 0x6010, 0, false, 0, 30, [], rowOf 0x6010 0, { index := 0x6010, sub := 0, session := 8, total := 30, received := [] }, { opened aSession with spr := { (opened aSession).spr with segs := [{ index := 0x6010, sub := 0, session := 8, total := 30, received := [] }] } }, ⟨fresh_of rfl (by decide +kernel) rfl rfl (by decide) (by decide) (by decide), by decide +kernel, by decide +kernel, by decide +kernel, by decide +kernel, by decide +kernel⟩⟩,
   ⟨aRequest18, aSession, 0x7020, 5, 2, 1, rowOf 0x7020 5, opened aSession, ⟨fresh_of rfl (by decide +kernel) rfl rfl (by decide) (by decide) (by decide), by decide +kernel, by decide +kernel, by decide +kernel, by decide +kernel, by decide +kernel, by decide⟩⟩,
   ⟨aRequest18, aSession, 0x1110, 2, 4, 1, rowOf 0x1110 2, opened aSession, ⟨fresh_of rfl (by decide +kernel) rfl rfl (by decide) (by decide) (by decide), by decide +kernel, by decide +kernel, by decide +kernel⟩⟩⟩

/-- States and operands that meet the hypotheses of each clause of `Obligations.Commits`. -/
theorem witness_Commits :
    (∃ (r : Req) (x : Session) (o : Byte) (s : State), freshRequest s r x 0x0100 ∧ (s.spr.commit = none) ∧ (s.pow.vauxStage = .none) ∧ (o.getLsbD 0 = false) ∧ (holdupPasses s (Config.imageBytes (storedImage (takenState s r)).od).val = true)) ∧
    (∃ (r : Req) (x : Session) (o : Byte) (s : State), freshRequest s r x 0x0100 ∧ (s.spr.commit = none) ∧ (s.pow.vauxStage = .none) ∧ (holdupPasses s (Config.imageBytes (storedImage (takenState s r)).od).val = false)) ∧
    (∃ (r : Req) (x : Session) (o : Byte) (w : ImageWrite) (s : State), freshRequest s r x 0x0100 ∧ (s.spr.commit = some w)) ∧
    (∃ (w : ImageWrite) (s : State), (s.spr.commit = some w) ∧ (s.pins.inReset = false)) ∧
    (∃ (a : Byte) (s : State), 1 < a.toNat) ∧
    (∃ (a : Byte) (s : State), a.toNat ≤ 1 ∧ (s.spr.commit = none) ∧ (s.pow.vauxStage = .none) ∧ (∀ n : Nat, n ≤ 2 ^ 21 → holdupPasses s n = true)) :=
  ⟨⟨aRequest18, aSession, 0, charged (opened aSession), ⟨fresh_of rfl (by decide +kernel) rfl rfl (by decide) (by decide) (by decide), rfl, rfl, by decide, holdup_charged _ _ (by omega)⟩⟩,
   ⟨aRequest18, aSession, 0, opened aSession, ⟨fresh_of rfl (by decide +kernel) rfl rfl (by decide) (by decide) (by decide), rfl, rfl, holdup_flat _ _ (by decide +kernel)⟩⟩,
   ⟨aRequest18, aSession, 0, anImage, { opened aSession with spr := { (opened aSession).spr with commit := some anImage } }, ⟨fresh_of rfl (by decide +kernel) rfl rfl (by decide) (by decide) (by decide), rfl⟩⟩,
   ⟨anImage, { opened aSession with spr := { (opened aSession).spr with commit := some anImage }, pins := { State.reset.pins with inReset := false } }, by decide +kernel⟩,
   ⟨2, State.reset, by decide +kernel⟩,
   ⟨1, charged State.reset, ⟨by decide, rfl, rfl, holdup_charged _⟩⟩⟩

/-- A report of cause 1. -/
def aReport : Report := { injected := false, rail := false, cause := 1, detail := 5, data := 0 }

/-- Source `f` has class `c` with the safe state as escalation and a timer of 1 s. -/
def classed (f c : Nat) : State :=
  { State.reset with flt := { State.reset.flt with cfg := [(f, BitVec.ofNat 64 (1000000 * 2 ^ 32 + 128 + c))] } }

/-- Source `f` holds a report on its pair. -/
def reporting (f : Nat) : State := { State.reset with flt := { State.reset.flt with pairs := [(f, aReport)] } }

/-- The handling timer of source `f` runs. -/
def handling (f : Nat) (safe : Bool) : State := { State.reset with flt := { State.reset.flt with timers := [(f, (safe, 0))] } }

/-- Session 7 is open in mode `m`. -/
def sessionIn (m : Mode) : State :=
  { State.reset with spr := { State.reset.spr with sessions :=
    [{ id := 7, transport := .usb, protocol := 0x0203, odVersion := 0x0203, mode := m, maxMessage := 1024, clientName := []
       high := none, kept := [], executing := [], values := [], subs := [], nextSub := 1, queue := [], lost := 0, notifySeq := 0
       lastRequest := 0, source := .usb, snapRead := none, spdm := none }] } }

/-- Injection is unlocked. -/
def injecting : State := { State.reset with flt := { State.reset.flt with unlocked := true } }

/-- A record of the cullet map in state `c`. -/
def aCullet (c : CulletState) : Cullet := { time := 1, kind := 3, state := c, origin := 2, location := 4, written := false }

/-- Records 0 and 1 of the cullet map are in state `c`. -/
def mapped (c : CulletState) : State := { State.reset with flt := { State.reset.flt with cullet := [(0, aCullet c), (1, aCullet c)] } }

/-- The reservoir of `s` is charged. -/
def chargedUp (s : State) : State := { s with pow := { s.pow with capUf := 11000, resMv := 12000 } }

/-- A source configuration whose records are all allowed. -/
def allRecords : List (BitVec 64) := List.replicate 511 (BitVec.ofNat 64 (1000000 * 2 ^ 32 + 128 + 1)) ++ [BitVec.ofNat 64 (1000000 * 2 ^ 32 + 128 + 4)]
/-- States and operands that meet the hypotheses of each clause of `Obligations.FaultReports`. -/
theorem witness_FaultReports :
    (∃ (f : Fin 512) (own : Option (BitVec 8 × BitVec 48 × BitVec 192)) (r : Report) (s : State), f.val < 454 ∧ (tabFind? f.val s.flt.pairs = some r) ∧ (pairIgnored s f.val = false)) ∧
    (∃ (f : Fin 512) (own : Option (BitVec 8 × BitVec 48 × BitVec 192)) (r : Report) (s : State), f.val < 454 ∧ (tabFind? f.val s.flt.pairs = some r) ∧ (pairIgnored s f.val = true)) ∧
    (∃ (f : Fin 512) (s : State), f.val ∉ s.flt.railFaults ∧ (pairIgnored s f.val = false)) ∧
    (∃ (f : Nat) (r : Report) (v : State), (recClass (srcRecord v f) = 0)) ∧
    (∃ (f : Nat) (r : Report) (v : State), (recClass (srcRecord v f) = 1 ∨ recClass (srcRecord v f) = 2)) ∧
    (∃ (f : Nat) (r : Report) (v : State) (k : Nat), (recClass (srcRecord v f) = 1 ∨ recClass (srcRecord v f) = 2) ∧ k < 4) ∧
    (∃ (f : Nat) (r : Report) (v : State), (recClass (srcRecord v f) = 2) ∧ (v.flt.safe = false) ∧ (tabFind? f v.flt.timers = none)) ∧
    (∃ (f : Nat) (r : Report) (v : State), (recClass (srcRecord v f) = 3) ∧ (v.flt.safe = true)) ∧
    (∃ (f : Nat) (r : Report) (v : State) (u : FaultUnit), (recClass (srcRecord v f) = 3) ∧ (v.flt.safe = false) ∧ (unitOf v f r.detail.toNat = some u)) ∧
    (∃ (f : Nat) (r : Report) (v : State), (recClass (srcRecord v f) = 4)) :=
  ⟨⟨445, none, aReport, reporting 445, by decide +kernel⟩,
   ⟨3, none, aReport, reporting 3, by decide +kernel⟩,
   ⟨445, State.reset, by decide +kernel⟩,
   ⟨445, aReport, classed 445 0, by decide +kernel⟩,
   ⟨445, aReport, classed 445 1, by decide +kernel⟩,
   ⟨445, aReport, classed 445 1, 2, by decide +kernel⟩,
   ⟨445, aReport, classed 445 2, by decide +kernel⟩,
   ⟨3, aReport, { classed 3 3 with flt := { (classed 3 3).flt with safe := true } }, by decide +kernel⟩,
   ⟨3, aReport, classed 3 3, .port 3, by decide +kernel⟩,
   ⟨511, aReport, classed 511 4, by decide +kernel⟩⟩

/-- States and operands that meet the hypotheses of each clause of `Obligations.FaultHandling`. -/
theorem witness_FaultHandling :
    (∃ (f : Fin 512) (d : Nat) (s : State), (tabFind? f.val s.flt.timers = some (true, d))) ∧
    (∃ (f : Fin 512) (d : Nat) (s : State), (tabFind? f.val s.flt.timers = some (false, d)) ∧ (s.flt.safe = false) ∧ (unitOf s f.val d = none)) ∧
    (∃ (n : BitVec 16) (sid : BitVec 32) (s : State), n.toNat ≤ 511) ∧
    (∃ (n : BitVec 16) (sid : BitVec 32) (s : State), 511 < n.toNat) ∧
    (∃ (n : BitVec 16) (s : State), (n.toNat ≤ 511 ∨ n = 0xFFFF)) ∧
    (∃ (n : BitVec 16) (s : State), 511 < n.toNat ∧ n ≠ 0xFFFF) :=
  ⟨⟨445, 0, handling 445 true, by decide +kernel⟩,
   ⟨445, 0, handling 445 false, by decide +kernel⟩,
   ⟨445, 7, handling 445 true, by decide +kernel⟩,
   ⟨512, 7, State.reset, by decide +kernel⟩,
   ⟨511, { State.reset with flt := { State.reset.flt with sticky := [3, 511] } }, by decide +kernel⟩,
   ⟨512, State.reset, by decide +kernel⟩⟩

/-- States and operands that meet the hypotheses of each clause of `Obligations.InjectionAndConfiguration`. -/
theorem witness_InjectionAndConfiguration :
    (∃ (sid : BitVec 32) (s : State), (sessionMode s sid.toNat = some .authenticated ∨ sessionMode s sid.toNat = some .encrypted)) ∧
    (∃ (sid : BitVec 32) (s : State), (sessionMode s sid.toNat = none ∨ sessionMode s sid.toNat = some .plain)) ∧
    (∃ (f : BitVec 16) (s : State), (s.flt.unlocked = false)) ∧
    (∃ (f : BitVec 16) (i : Instr) (m : Nat) (s : State), (s.flt.unlocked = true) ∧ f.toNat ≤ 511 ∧ f ≠ 451 ∧ f ≠ 511 ∧ ((i = .injectStop f ∧ m = 0) ∨ (i = .injectOneShot f ∧ m = 1 ∧ checkInjectable f.toNat = true) ∨ (i = .injectContinuous f ∧ m = 2 ∧ checkInjectable f.toNat = true) ∨ (i = .injectRail f ∧ m = 3))) ∧
    (∃ (rs : List (BitVec 64)) (s : State), (rs.length = 512) ∧ (∀ p ∈ rs.zipIdx, recordOk p.2 p.1 = true)) ∧
    (∃ (rs : List (BitVec 64)) (s : State), (rs.length ≠ 512 ∨ (∃ p ∈ rs.zipIdx, recordOk p.2 p.1 = false))) :=
  ⟨⟨7, sessionIn .encrypted, by decide +kernel⟩,
   ⟨7, sessionIn .plain, by decide +kernel⟩,
   ⟨445, State.reset, by decide +kernel⟩,
   ⟨3, .injectContinuous 3, 2, injecting, ⟨rfl, by decide, by decide, by decide, .inr (.inr (.inl ⟨rfl, rfl, by decide +kernel⟩))⟩⟩,
   ⟨allRecords, State.reset, by decide +kernel⟩,
   ⟨[], State.reset, .inl (by decide)⟩⟩

/-- States and operands that meet the hypotheses of each clause of `Obligations.CulletRecords`. -/
theorem witness_CulletRecords :
    (∃ (n : Byte) (m : Nat) (s : State), n.toNat ≤ 33 ∧ sliceRetirements s < 2 ∧ (culletFree? s = some m)) ∧
    (∃ (n : Byte) (s : State), 33 < n.toNat) ∧
    (∃ (n : Byte) (s : State), n.toNat ≤ 33 ∧ 2 ≤ sliceRetirements s) ∧
    (∃ (n : BitVec 16) (r : Cullet) (s : State), n.toNat ≤ 4095 ∧ (tabFind? n.toNat s.flt.cullet = some r) ∧ (r.state = .pending)) ∧
    (∃ (n : BitVec 16) (r : Cullet) (s : State), n.toNat ≤ 4095 ∧ (tabFind? n.toNat s.flt.cullet = some r) ∧ r.state ≠ .pending) ∧
    (∃ (s : State), (holdupPasses s 16 = true)) ∧
    (∃ (n : Fin 4096) (s : State), n.val ∈ s.flt.writing ∧ (s.pins.inReset = false)) :=
  ⟨⟨33, 0, State.reset, by decide +kernel⟩,
   ⟨34, State.reset, by decide +kernel⟩,
   ⟨33, mapped .pending, by decide +kernel⟩,
   ⟨1, aCullet .pending, mapped .pending, by decide +kernel⟩,
   ⟨1, aCullet .active, mapped .active, by decide +kernel⟩,
   ⟨chargedUp (mapped .pending), by decide +kernel⟩,
   ⟨1, { mapped .pending with flt := { (mapped .pending).flt with writing := [1] }, pins := { State.reset.pins with inReset := false } }, by decide +kernel⟩⟩

/-- Session 7 is open in mode `m`, and the reservoir is charged. -/
def secured (m : Mode) : State :=
  { State.reset with
    pow := { State.reset.pow with capUf := 11000, resMv := 12000 }
    spr := { State.reset.spr with sessions :=
      [{ id := 7, transport := .usb, protocol := 0x0203, odVersion := 0x0203, mode := m, maxMessage := 1024, clientName := []
         high := none, kept := [], executing := [], values := [], subs := [], nextSub := 1, queue := [], lost := 0, notifySeq := 0
         lastRequest := 0, source := .usb, snapRead := none, spdm := some 9 }] } }

/-- An image of kind `k` with security version 3 under rollback counter 5. -/
def anImageOf (k : Nat) : FwImage :=
  { kind := k, counter := 5, svn := 3, keySlot := 0, keyHash := 1, headerOk := true, hashOk := true, signatureOk := true
    measurement := 2, size := 1000 }

/-- The image `anImageOf 2` runs. -/
def runsImage : State := { State.reset with sec := { State.reset.sec with running := [(2, anImageOf 2)] } }

/-- A package of generation `g` that sets OD B010.03. -/
def aPackage (g : BitVec 64) : CertPackage :=
  { magicOk := true, generation := g, deviceOk := true, records := [(3, 2)], signatureOk := true, signerHash := 1, size := 200 }

/-- `s` with the key hash 1 in fuse slot 0. -/
def fused (s : State) : State := { s with sec := { s.sec with fuseHash := [(0, 1)], revoked := [] } }

/-- A debug token of the owner for the reset state. -/
def aToken (sig : Bool) : DebugToken :=
  { formOk := true, owner := true, permissions := 3, lifetime := 60, nonce := State.reset.sec.nonce, deviceOk := true, keyHash := 0
    signatureOk := sig }

/-- Connection 2 is `x`. -/
def connected (x : SpdmConn) : State := { State.reset with sec := { State.reset.sec with spdm := [(2, x)] } }

/-- A connection that has negotiated its algorithms. -/
def negotiated : SpdmConn := { spdmReset with versioned := true, capable := true, slot := some 0, sessions := [9], opening := [10] }

/-- Port 3 has role `r` in pool mask `m`, its IDE is `x` and connection 2 has secure session 9. -/
def idePortIs (r m : Nat) (x : IdePort) : State :=
  { odSet (odSet (connected negotiated) 0x2103 1 r) 0x2103 8 m with sec := { (connected negotiated).sec with ide := [(3, x)] } }
/-- States and operands that meet the hypotheses of each clause of `Obligations.SecurityUpdates`. -/
theorem witness_SecurityUpdates :
    (∃ (c : Byte) (q : Nat × FwImage) (s : State), c.toNat ≤ 63 ∧ q ∈ s.sec.running ∧ (q.2.counter = c.toNat)) ∧
    (∃ (x : BitVec 32) (i : FwImage) (s : State), (encryptedSession s x.toNat = false)) ∧
    (∃ (x : BitVec 32) (i : FwImage) (s : State), (encryptedSession s x.toNat = true) ∧ (i.kind = 1) ∧ (holdupPasses s i.size = true)) ∧
    (∃ (x : BitVec 32) (p : CertPackage) (c : CertConfig) (s : State), (encryptedSession s x.toNat = true) ∧ (p.magicOk = true) ∧ (p.deviceOk = true) ∧ (packageSigned s p = true) ∧ s.sec.cert.generation.toNat < p.generation.toNat ∧ (certRecords (s.sec.certNext.getD s.sec.cert) p.records = some c) ∧ (holdupPasses s p.size = true)) ∧
    (∃ (x : BitVec 32) (p : CertPackage) (s : State), (encryptedSession s x.toNat = true) ∧ (packageSigned s p = false ∨ p.generation.toNat ≤ s.sec.cert.generation.toNat)) ∧
    (∃ (d : DebugToken) (s : State), (tokenAccepted s d = true)) ∧
    (∃ (d : DebugToken) (s : State), (tokenAccepted s d = false)) ∧
    (∃ (s : State), (s.sec.unlocked = true)) :=
  ⟨⟨5, (2, anImageOf 2), runsImage, by decide +kernel⟩,
   ⟨7, anImageOf 1, secured .plain, by decide +kernel⟩,
   ⟨7, anImageOf 1, fused (secured .encrypted), by decide +kernel⟩,
   ⟨7, aPackage 1, { certReset with debugPolicy := 2 }, fused (secured .encrypted), by decide +kernel⟩,
   ⟨7, aPackage 0, fused (secured .encrypted), by decide +kernel⟩,
   ⟨aToken true, State.reset, by decide +kernel⟩,
   ⟨aToken false, State.reset, by decide +kernel⟩,
   ⟨{ State.reset with sec := { State.reset.sec with unlocked := true, permissions := 3 } }, by decide +kernel⟩⟩

/-- States and operands that meet the hypotheses of each clause of `Obligations.SpdmAnswers`. -/
theorem witness_SpdmAnswers :
    (∃ (c : Nat) (v : Byte) (s : State), ((spdmConn s c).latched = false) ∧ ((spdmConn s c).versioned = true) ∧ (v = 0x12 ∨ v = 0x13)) ∧
    (∃ (c : Nat) (l : List (BitVec 16)) (s : State), ((spdmConn s c).latched = false) ∧ ((spdmConn s c).capable = true)) ∧
    (∃ (c : Nat) (i : Instr) (s : State), ((spdmConn s c).latched = true ∨ (spdmConn s c).slot = none) ∧ i ∈ [Instr.getDigests c, .getCertificate c 0 0 0, .challenge c, .getMeasurements c 1 true, .keyExchange c, .vendorDefinedRequest c]) ∧
    (∃ (c : Nat) (k : Nat) (s : State), ((spdmConn s c).latched = false) ∧ ((spdmConn s c).slot = some k)) ∧
    (∃ (c : Nat) (k : Nat) (s : State) (o : Byte), ((spdmConn s c).latched = false) ∧ ((spdmConn s c).slot = some k) ∧ 1 ≤ o.toNat ∧ o.toNat ≤ 7) ∧
    (∃ (c : Nat) (k : Nat) (s : State), ((spdmConn s c).latched = false) ∧ ((spdmConn s c).slot = some k) ∧ (s.sec.healthFailed = true)) ∧
    (∃ (c : Nat) (k : Nat) (s : State), ((spdmConn s c).latched = false) ∧ ((spdmConn s c).slot = some k) ∧ (s.sec.healthFailed = false) ∧ s.time.clock < s.sec.signUntil) ∧
    (∃ (c : Nat) (k : Nat) (s : State), ((spdmConn s c).latched = false) ∧ ((spdmConn s c).slot = some k) ∧ (s.sec.healthFailed = false) ∧ s.sec.signUntil ≤ s.time.clock) ∧
    (∃ (c : Nat) (k : Nat) (slot : Fin 16) (o : BitVec 16) (n : BitVec 16) (h : slot.val < 2) (s : State), ((spdmConn s c).latched = false) ∧ ((spdmConn s c).slot = some k)) ∧
    (∃ (c : Nat) (i : Nat) (b : Bool) (s : State), ((spdmConn s c).latched = false) ∧ i ∈ (spdmConn s c).opening) ∧
    (∃ (c : Nat) (i : Nat) (s : State), ((spdmConn s c).latched = false) ∧ i ∈ (spdmConn s c).sessions) ∧
    (∃ (c : Nat) (n : Nat) (d : List Byte) (last : Bool) (s : State), ((spdmConn s c).latched = false) ∧ (n = (spdmConn s c).chunkNext) ∧ d.length ≤ 4096 ∧ (spdmConn s c).chunkIn.length + d.length ≤ 65536) ∧
    (∃ (c : Nat) (n : Nat) (s : State), ((spdmConn s c).latched = false) ∧ 0 < n) ∧
    (∃ (c : Nat) (s : State), ((spdmConn s c).latched = false)) ∧
    (∃ (c : Nat) (n : Nat) (v : Byte) (l : List (BitVec 16)) (b : Bool) (d : List Byte) (i : Instr) (s : State), ((spdmConn s c).latched = true) ∧ i ∈ [Instr.getCapabilities c v, .negotiateAlgorithms c l, .finish c n b, .heartbeat c n, .keyUpdate c n, .endSession c n, .chunkSend c n d b, .chunkGet c n n, .spdmUnsupportedRequest c]) :=
  ⟨⟨2, 0x12, connected { spdmReset with versioned := true }, by decide +kernel⟩,
   ⟨2, [0x5302], connected { spdmReset with versioned := true, capable := true }, by decide +kernel⟩,
   ⟨2, .challenge 2, State.reset, by decide +kernel⟩,
   ⟨2, 0, connected negotiated, by decide +kernel⟩,
   ⟨2, 0, connected negotiated, 7, by decide +kernel⟩,
   ⟨2, 0, { connected negotiated with sec := { (connected negotiated).sec with healthFailed := true } }, by decide +kernel⟩,
   ⟨2, 0, { connected negotiated with sec := { (connected negotiated).sec with signUntil := 10 } }, by decide +kernel⟩,
   ⟨2, 0, connected negotiated, by decide +kernel⟩,
   ⟨2, 0, 1, 0, 100, by decide, connected negotiated, by decide +kernel⟩,
   ⟨2, 10, true, connected negotiated, by decide +kernel⟩,
   ⟨2, 9, connected negotiated, by decide +kernel⟩,
   ⟨2, 0, [1, 2], false, connected negotiated, by decide +kernel⟩,
   ⟨2, 5000, connected negotiated, by decide +kernel⟩,
   ⟨2, connected negotiated, by decide +kernel⟩,
   ⟨2, 0, 0x12, [], true, [], .heartbeat 2 0, connected { negotiated with latched := true }, by decide +kernel⟩⟩

/-- States and operands that meet the hypotheses of each clause of `Obligations.CxlIde`. -/
theorem witness_CxlIde :
    (∃ (p : Fin 96) (c : Nat) (i : Nat) (op : IdeOp) (s : State), i ∈ (spdmConn s c).sessions ∧ odGet s (0x2100 + p.val) 1 ≠ 1 ∧ (poolPort s p.val = false)) ∧
    (∃ (p : Fin 96) (c : Nat) (i : Nat) (n : Nat) (b : Bool) (s : State), i ∈ (spdmConn s c).sessions ∧ ((odGet s (0x2100 + p.val) 1 = 1 ∧ poolPort s p.val = false) ∨ (poolPort s p.val = true ∧ (idePort s p.val).trusted = true))) ∧
    (∃ (p : Fin 96) (c : Nat) (i : Nat) (n : Nat) (b : Bool) (s : State), i ∈ (spdmConn s c).sessions ∧ ((odGet s (0x2100 + p.val) 1 = 1 ∧ poolPort s p.val = false) ∨ (poolPort s p.val = true ∧ (idePort s p.val).trusted = true)) ∧ (n * 2 + if b then 1 else 0) ∈ (idePort s p.val).programmed) ∧
    (∃ (p : Fin 96) (c : Nat) (i : Nat) (root : BitVec 256) (s : State), (poolPort s p.val = true)) ∧
    (∃ (p : Fin 96) (c : Nat) (i : Nat) (n : Nat) (b : Bool) (s : State), (poolPort s p.val = true) ∧ ((idePort s p.val).trusted = false)) ∧
    (∃ (p : Fin 96) (s : State), ((idePort s p.val).established = true)) :=
  ⟨⟨3, 2, 9, .stop, idePortIs 2 0 ideReset, by decide +kernel⟩,
   ⟨3, 2, 9, 1, true, idePortIs 1 0 ideReset, by decide +kernel⟩,
   ⟨3, 2, 9, 1, true, idePortIs 2 1 { ideReset with trusted := true, programmed := [3] }, by decide +kernel⟩,
   ⟨3, 2, 9, 0x1234, idePortIs 2 1 ideReset, by decide +kernel⟩,
   ⟨3, 2, 9, 1, true, idePortIs 2 1 ideReset, by decide +kernel⟩,
   ⟨3, idePortIs 1 0 { ideReset with established := true }, by decide +kernel⟩⟩

/-- Device sampler 3 on device-wide counter 5 with threshold `t`, period 2,000 and action `a`. -/
def samplingAt (t a : Nat) : State :=
  { withOd [(0xC043, 1, 1), (0xC043, 3, 5), (0xC043, 4, 2000), (0xC043, 5, a), (0xC043, 6, t)] with
    perf := { State.reset.perf with cnt := [(5, 100)] } }

/-- The host sampler of VCS 2 is armed at threshold 0. -/
def hostSampling : State :=
  { State.reset with perf := { State.reset.perf with host :=
    [(2, { enable := true, vector := 4, event := 6, periodLow := 2000, periodHigh := 0, threshold := 0 })] } }

/-- An edge that an input has captured. -/
def anEdge : EdgeRec := { time := 9, count := 1, lostBefore := false, undisciplined := false, rising := true }
/-- States and operands that meet the hypotheses of each clause of `Obligations.Samplers`. -/
theorem witness_Samplers :
    (∃ (k : Fin 72) (s : State), k.val < 8 ∧ (odGet s (0xC040 + k.val) 1 = 1) ∧ (bits (odGet s (0xC040 + k.val) 5) 0 0 = 1) ∧ (bits (odGet s (0xC040 + k.val) 5) 1 1 = 0) ∧ (bits (odGet s (0xC040 + k.val) 5) 2 2 = 0) ∧ (samplerCounter s k.val - BitVec.ofNat 48 (odGet s (0xC040 + k.val) 6)).toNat < 2 ^ 47) ∧
    (∃ (k : Fin 72) (s : State), 8 ≤ k.val ∧ ((hostSampler s (k.val - 8)).enable = true) ∧ (tabGet 0 ((k.val - 8) * 128 + (hostSampler s (k.val - 8)).event) s.perf.vcs - BitVec.ofNat 48 (hostSampler s (k.val - 8)).threshold).toNat < 2 ^ 47) ∧
    (∃ (k : Fin 72) (s : State), k.val < 8 ∧ (odGet s (0xC040 + k.val) 1 = 1) ∧ 2 ^ 47 ≤ (samplerCounter s k.val - BitVec.ofNat 48 (odGet s (0xC040 + k.val) 6)).toNat) :=
  ⟨⟨3, samplingAt 90 1, by decide +kernel⟩,
   ⟨10, hostSampling, by decide +kernel⟩,
   ⟨3, samplingAt 101 1, by decide +kernel⟩⟩

/-- States and operands that meet the hypotheses of each clause of `Obligations.DeviceTime`. -/
theorem witness_DeviceTime :
    (∃ (off : Int) (gm : BitVec 64) (s : State), odGet s 0xC050 1 ≠ 0xFF) ∧
    (∃ (s : State), (odGet s 0xC050 6 = 1)) ∧
    (∃ (s : State), (odGet s 0xC050 6 = 2) ∧ (s.time.lossReported = false)) ∧
    (∃ (i : Fin 8) (b : Bool) (s : State), (odGet s (0xC060 + i.val) 1 = 1) ∧ (edgeSelected (odGet s (0xC060 + i.val) 2) b = true)) ∧
    (∃ (i : Fin 8) (w : Nat) (s : State), (odGet s (0xC060 + i.val) 1 = 1) ∧ w < odGet s (0xC060 + i.val) 3) :=
  ⟨⟨-50, 7, withOd [(0xC050, 1, 0), (0xC050, 6, 1), (0xC050, 4, 1000)], by decide +kernel⟩,
   ⟨withOd [(0xC050, 6, 1)], by decide +kernel⟩,
   ⟨withOd [(0xC050, 6, 2)], by decide +kernel⟩,
   ⟨5, true, withOd [(0xC065, 1, 1), (0xC065, 2, 1), (0xC065, 4, 0xFFFF)], by decide +kernel⟩,
   ⟨5, 10, withOd [(0xC065, 1, 1), (0xC065, 3, 11)], by decide +kernel⟩⟩

/-- Start-up has reached step `n` with VAUX good. -/
def reachedStep (n : Nat) : State :=
  { State.reset with pow := { State.reset.pow with vauxGood := true, step := n }, pins := { State.reset.pins with resetN := true, inReset := false } }

/-- What start-up finds with no defect. -/
def allWell : StartupFind := { selfTestsPass := true, capUf := 11000, defects := [], channel := none }

/-- A valid image of kind `k` under key slot 0, whose hash is 1. -/
def goodImage (k : Nat) : FwImage :=
  { kind := k, counter := 5, svn := 3, keySlot := 0, keyHash := 1, headerOk := true, hashOk := true, signatureOk := true
    measurement := 2, size := 1000 }

/-- At step 1 with a valid image in bank A of each kind. -/
def mayBoot : State :=
  { reachedStep 1 with sec := { State.reset.sec with
      fuseHash := [(0, 1)], revoked := [], counters := [], banks := [(2, goodImage 1), (4, goodImage 2)], bootSec := false, bootMgmt := false } }

/-- Step 3 has been reached, with VIN12 qualified and REFCLK_SYS as `r`. -/
def mayPower (r : Nat) : State :=
  odSet { reachedStep 3 with pow := { (reachedStep 3).pow with vinQualified := true } } 0x8043 1 r
/-- States and operands that meet the hypotheses of each clause of `Obligations.StartupSteps`. -/
theorem witness_StartupSteps :
    (∃ (f : StartupFind) (a : Bool) (b : Bool) (s : State), (s.pow.vauxGood = true) ∧ (s.pow.stopped = false) ∧ (s.pins.inReset = false) ∧ (s.pow.step = 1) ∧ (s.pins.resetN = true) ∧ (bootBank s 1 = some a) ∧ (bootBank s 2 = some b) ∧ (f.selfTestsPass = true)) ∧
    (∃ (f : StartupFind) (s : State), (s.pow.vauxGood = true) ∧ (s.pow.stopped = false) ∧ (s.pins.inReset = false) ∧ (s.pow.step = 1) ∧ (s.pins.resetN = true) ∧ (bootBank s 1 = none ∨ bootBank s 2 = none ∨ f.selfTestsPass = false)) ∧
    (∃ (f : StartupFind) (s : State), (s.pow.vauxGood = true) ∧ (s.pow.stopped = false) ∧ (s.pins.inReset = false) ∧ (s.pow.step = 2)) ∧
    (∃ (f : StartupFind) (s : State), (s.pow.vauxGood = true) ∧ (s.pow.stopped = false) ∧ (s.pins.inReset = false) ∧ (s.pow.step = 3) ∧ (mainMayStart s = true)) ∧
    (∃ (f : StartupFind) (s : State), (s.pow.vauxGood = true) ∧ (s.pow.stopped = false) ∧ (s.pins.inReset = false) ∧ (s.pow.step = 3) ∧ (mainMayStart s = false)) ∧
    (∃ (f : StartupFind) (s : State), (s.pow.vauxGood = true) ∧ (s.pow.stopped = false) ∧ (s.pins.inReset = false) ∧ (s.pow.step = 4) ∧ (f.defects = [])) ∧
    (∃ (f : StartupFind) (s : State), (s.pow.vauxGood = true) ∧ (s.pow.stopped = false) ∧ (s.pins.inReset = false) ∧ (s.pow.step = 5)) ∧
    (∃ (f : StartupFind) (s : State), (s.pow.vauxGood = true) ∧ (s.pow.stopped = false) ∧ (s.pins.inReset = false) ∧ (s.pow.step = 6)) ∧
    (∃ (f : StartupFind) (s : State), (s.pow.vauxGood = true) ∧ (s.pow.stopped = false) ∧ (s.pins.inReset = false) ∧ (s.pow.step = 7)) ∧
    (∃ (f : StartupFind) (s : State), (s.pow.vauxGood = true) ∧ (s.pow.stopped = false) ∧ (s.pins.inReset = false) ∧ (s.pow.step = 8)) :=
  ⟨⟨allWell, false, false, mayBoot, by decide +kernel⟩,
   ⟨{ allWell with selfTestsPass := false }, mayBoot, by decide +kernel⟩,
   ⟨allWell, reachedStep 2, by decide +kernel⟩,
   ⟨allWell, mayPower 1, by decide +kernel⟩,
   ⟨allWell, mayPower 0, by decide +kernel⟩,
   ⟨allWell, { reachedStep 4 with pow := { (reachedStep 4).pow with mainOn := true } }, by decide +kernel⟩,
   ⟨{ allWell with channel := some 3 }, reachedStep 5, by decide +kernel⟩,
   ⟨allWell, reachedStep 6, by decide +kernel⟩,
   ⟨allWell, reachedStep 7, by decide +kernel⟩,
   ⟨allWell, reachedStep 8, by decide +kernel⟩⟩

/-- States and operands that meet the hypotheses of each clause of `Obligations.ResetPin`. -/
theorem witness_ResetPin :
    (∃ (s : State), (s.pow.vauxGood = true) ∧ (s.pins.inReset = false) ∧ (mramBusy s = false) ∧ (s.pow.mainOn = false)) ∧
    (∃ (s : State), (s.pow.vauxGood = false)) ∧
    (∃ (s : State), (s.pins.inReset = true) ∧ (s.pow.vauxGood = true) ∧ (mramBusy s = false) ∧ (s.pow.mainOn = false)) ∧
    (∃ (s : State), (mramBusy s = true ∨ s.pow.mainOn = true)) :=
  ⟨⟨reachedStep 9, by decide +kernel⟩,
   ⟨State.reset, by decide +kernel⟩,
   ⟨{ reachedStep 9 with pins := { State.reset.pins with inReset := true } }, by decide +kernel⟩,
   ⟨{ reachedStep 9 with pins := { State.reset.pins with inReset := true }, pow := { (reachedStep 9).pow with mainOn := true } }, by decide +kernel⟩⟩

/-- States and operands that meet the hypotheses of each clause of `Obligations.StepRunsFront`. -/
theorem witness_StepRunsFront :
    (∃ (c : Instr) (rest : List Instr) (s : State), (s.pending = c :: rest)) :=
  ⟨.usbDetach, [.resetNFall], { State.reset with pending := [.usbDetach, .resetNFall] }, by decide +kernel⟩

/-- States and operands that meet the hypotheses of each clause of `Obligations.IdleTick`. -/
theorem witness_IdleTick :
    (∃ (s : State), (s.pending = [])) :=
  ⟨withOd [(0xC050, 6, 1)], by decide +kernel⟩

/-- States and operands that meet the hypotheses of each clause of `Obligations.QueueKept`. -/
theorem witness_QueueKept :
    (∃ (c : Instr) (s : State) (t : State), (exec c s = .next t)) :=
  ⟨.injectionLock, { State.reset with pending := [.usbDetach] }, emit { State.reset with pending := [.usbDetach], flt := { State.reset.flt with unlocked := false } } (.status .ok), by rfl⟩

/-- States and operands that meet the hypotheses of each clause of `Obligations.ManagementIsolated`. -/
theorem witness_ManagementIsolated :
    (∃ (c : Instr) (s : State) (t : State), (Safety.reachesManagement c = false) ∧ (exec c s = .next t)) :=
  ⟨.injectionLock, State.reset, emit { State.reset with flt := { State.reset.flt with unlocked := false } } (.status .ok), ⟨rfl, by rfl⟩⟩

/-- States and operands that meet the hypotheses of each clause of `Obligations.ManagementSoundKept`. -/
theorem witness_ManagementSoundKept :
    (∃ (s : State) (t : State), (Safety.managementSound s = true) ∧ (step s = .next t)) :=
  ⟨State.reset, tick State.reset, ⟨by decide +kernel, by rfl⟩⟩

/-- A request at the SRAM from master `m`. -/
def sramReq (m : Fin 6) (a : BitVec 32) (k : BusKind) : BusReq := { master := m, id := 3, addr := a, kind := k, stalls := false }

/-- Session 7 is ENCRYPTED; fuse slots 0 and 1 hold hashes. -/
def mayRevoke (m : Mode) (revoked : List Nat) : State :=
  { State.reset with
    sec := { State.reset.sec with fuseHash := [(0, 1), (1, 2)], revoked := revoked }
    spr := { State.reset.spr with sessions :=
      [{ id := 7, transport := .usb, protocol := 0x0203, odVersion := 0x0203, mode := m, maxMessage := 1024, clientName := []
         high := none, kept := [], executing := [], values := [], subs := [], nextSub := 1, queue := [], lost := 0, notifySeq := 0
         lastRequest := 0, source := .usb, snapRead := none, spdm := some 9 }] } }
/-- States and operands that meet the hypotheses of each clause of `Obligations.SramAccesses`. -/
theorem witness_SramAccesses :
    (∃ (r : BusReq) (s : State) (n : Nat), (targetOf r.addr.toNat = some .sram) ∧ (r.stalls = false) ∧ (outstanding s r.master).length < 16 ∧ (targetWaits s .sram = false) ∧ (r.master.val < 4 → partsRefused (coreSt s r.master) r.addr.toNat r.kind = []) ∧ (r.master.val = 4 → s.sec.unlocked = true ∧ s.sec.permissions.getLsbD 0 = true) ∧ (r.kind = .read n) ∧ 1 ≤ n ∧ n ≤ 256) ∧
    (∃ (r : BusReq) (s : State) (n : Nat), (targetOf r.addr.toNat = some .sram) ∧ (r.stalls = false) ∧ (outstanding s r.master).length < 16 ∧ (targetWaits s .sram = false) ∧ (r.master.val < 4 → partsRefused (coreSt s r.master) r.addr.toNat r.kind = []) ∧ (r.master.val = 4 → s.sec.unlocked = true ∧ s.sec.permissions.getLsbD 0 = true) ∧ (r.kind = .fetch n) ∧ 1 ≤ n ∧ n ≤ 256) ∧
    (∃ (r : BusReq) (s : State) (d : List Byte), (targetOf r.addr.toNat = some .sram) ∧ (r.stalls = false) ∧ (outstanding s r.master).length < 16 ∧ (targetWaits s .sram = false) ∧ (r.master.val < 4 → partsRefused (coreSt s r.master) r.addr.toNat r.kind = []) ∧ (r.master.val = 4 → s.sec.unlocked = true ∧ s.sec.permissions.getLsbD 0 = true) ∧ (r.kind = .write d) ∧ 1 ≤ d.length ∧ d.length ≤ 256) ∧
    (∃ (r : BusReq) (s : State) (d : List Byte), (targetOf r.addr.toNat = some .sram) ∧ (r.stalls = false) ∧ (outstanding s r.master).length < 16 ∧ (targetWaits s .sram = false) ∧ (r.master.val < 4 → partsRefused (coreSt s r.master) r.addr.toNat r.kind = []) ∧ (r.master.val = 4 → s.sec.unlocked = true ∧ s.sec.permissions.getLsbD 0 = true) ∧ r.master.val < 4 ∧ (r.kind = .swap d) ∧ (d.length = 4 ∨ d.length = 8) ∧ (r.addr.toNat % d.length = 0)) ∧
    (∃ (r : BusReq) (s : State) (c : List Byte) (d : List Byte), (targetOf r.addr.toNat = some .sram) ∧ (r.stalls = false) ∧ (outstanding s r.master).length < 16 ∧ (targetWaits s .sram = false) ∧ (r.master.val < 4 → partsRefused (coreSt s r.master) r.addr.toNat r.kind = []) ∧ (r.master.val = 4 → s.sec.unlocked = true ∧ s.sec.permissions.getLsbD 0 = true) ∧ r.master.val < 4 ∧ (r.kind = .cas c d) ∧ (d.length = 4 ∨ d.length = 8) ∧ (r.addr.toNat % d.length = 0)) ∧
    (∃ (r : BusReq) (s : State) (c : List Byte) (d : List Byte), (targetOf r.addr.toNat = some .sram) ∧ (r.stalls = false) ∧ (outstanding s r.master).length < 16 ∧ (targetWaits s .sram = false) ∧ (r.master.val < 4 → partsRefused (coreSt s r.master) r.addr.toNat r.kind = []) ∧ (r.master.val = 4 → s.sec.unlocked = true ∧ s.sec.permissions.getLsbD 0 = true) ∧ 4 ≤ r.master.val ∧ (r.kind = .swap d ∨ r.kind = .cas c d)) :=
  ⟨⟨sramReq 1 0x10 (.read 4), State.reset, 4, by decide +kernel⟩,
   ⟨sramReq 1 0x10 (.fetch 4), State.reset, 4, by decide +kernel⟩,
   ⟨sramReq 5 0x3FFFFE (.write [7, 8, 9]), State.reset, [7, 8, 9], by decide +kernel⟩,
   ⟨sramReq 2 0x10 (.swap [1, 2, 3, 4]), State.reset, [1, 2, 3, 4], by decide +kernel⟩,
   ⟨sramReq 2 0x18 (.cas [0, 0, 0, 0, 0, 0, 0, 0] [1, 2, 3, 4, 5, 6, 7, 8]), State.reset, [0, 0, 0, 0, 0, 0, 0, 0], [1, 2, 3, 4, 5, 6, 7, 8], by decide +kernel⟩,
   ⟨sramReq 5 0x10 (.swap [1, 2, 3, 4]), State.reset, [], [1, 2, 3, 4], by decide +kernel⟩⟩

/-- States and operands that meet the hypotheses of each clause of `Obligations.SnapshotCommand`. -/
theorem witness_SnapshotCommand :
    (∃ (s : State), (holdupPasses s 262144 = true)) ∧
    (∃ (s : State), (holdupPasses s 262144 = false)) :=
  ⟨⟨{ State.reset with pow := { State.reset.pow with capUf := 11000, resMv := 12000 } }, by decide +kernel⟩,
   ⟨State.reset, by decide +kernel⟩⟩

/-- States and operands that meet the hypotheses of each clause of `Obligations.KeySlotRevocation`. -/
theorem witness_KeySlotRevocation :
    (∃ (x : BitVec 32) (k : Byte) (s : State), (encryptedSession s x.toNat = true) ∧ k.toNat ≤ 3 ∧ (∃ j : Nat, j < 4 ∧ j ≠ k.toNat ∧ j ∉ s.sec.revoked ∧ (tabFind? j s.sec.fuseHash).isSome = true)) ∧
    (∃ (x : BitVec 32) (k : Byte) (s : State), (encryptedSession s x.toNat = true) ∧ k.toNat ≤ 3 ∧ (∀ j : Nat, j < 4 → j ≠ k.toNat → j ∈ s.sec.revoked ∨ tabFind? j s.sec.fuseHash = none)) ∧
    (∃ (x : BitVec 32) (k : Byte) (s : State), (encryptedSession s x.toNat = false)) :=
  ⟨⟨7, 0, mayRevoke .encrypted [], ⟨by decide +kernel, by decide, 1, by decide, by decide, by decide, by decide⟩⟩,
   ⟨7, 0, mayRevoke .encrypted [1], ⟨by decide +kernel, by decide, by decide +kernel⟩⟩,
   ⟨7, 0, mayRevoke .plain [], by decide +kernel⟩⟩

end Sys2Proof.Tests
end

/-!
Accesses to the SRAM (R369): what a store leaves of its bytes, and what serves an access that the crossbar and the MPU let through.
-/

namespace Sys2Proof.Proofs.Sram

open Sys2Proof Sys2Proof.Machine Sys2Proof.Laws

/-! ### Bytes of the SRAM -/

/-- The running firmware and the table of written bytes decide what every byte of the SRAM reads as. -/
theorem sramByte_congr {s t : State} (hsec : t.sec = s.sec) (hsram : t.mgmt.sram = s.mgmt.sram) : sramByte t = sramByte s := by
  funext a
  simp only [sramByte, sramLoaded_of_sec hsec, hsram]

theorem sramRead_congr {s t : State} (hsec : t.sec = s.sec) (hsram : t.mgmt.sram = s.mgmt.sram) (a n : Nat) :
    sramRead t a n = sramRead s a n := by
  simp only [sramRead, sramByte_congr hsec hsram]

/-- Storing one byte, which every store repeats. -/
def storeByte (s : State) (a : Nat) (b : Byte) : State :=
  { s with mgmt := { s.mgmt with sram := tabSet (sramLoaded s a) a b s.mgmt.sram } }

theorem sramWrite_all_cons (s : State) (a : Nat) (b : Byte) (d : List Byte) :
    sramWrite s (fun _ => true) a (b :: d) = sramWrite (storeByte s a b) (fun _ => true) (a + 1) d := rfl

theorem sramByte_storeByte_same (s : State) (a : Nat) (b : Byte) : sramByte (storeByte s a b) a = b :=
  tabGet_set_same _ a b _

theorem sramByte_storeByte_other (s : State) {a x : Nat} (h : x ≠ a) (b : Byte) :
    sramByte (storeByte s a b) x = sramByte s x :=
  tabGet_set_other h _ _ b _

theorem sramByte_sramWrite_outside (d : List Byte) : ∀ (s : State) (a x : Nat), x < a ∨ a + d.length ≤ x →
    sramByte (sramWrite s (fun _ => true) a d) x = sramByte s x := by
  induction d with
  | nil => intro s a x _; rfl
  | cons b d ih =>
    intro s a x hx
    rw [List.length_cons] at hx
    rw [sramWrite_all_cons, ih _ _ _ (by omega), sramByte_storeByte_other s (by omega)]

theorem sramByte_sramWrite_inside (d : List Byte) : ∀ (s : State) (a i : Nat), i < d.length →
    sramByte (sramWrite s (fun _ => true) a d) (a + i) = d.getD i 0 := by
  induction d with
  | nil => intro s a i hi; exact absurd hi (Nat.not_lt_zero i)
  | cons b d ih =>
    intro s a i hi
    rw [sramWrite_all_cons]
    cases i with
    | zero => rw [sramByte_sramWrite_outside d _ _ _ (by omega)]; exact sramByte_storeByte_same s a b
    | succ i =>
      rw [show a + (i + 1) = a + 1 + i by omega, ih _ _ _ (Nat.lt_of_succ_lt_succ hi), List.getD_cons_succ]

/-- A store changes nothing but the SRAM. -/
theorem sramWrite_frame (d : List Byte) : ∀ (s : State) (a : Nat), sramWrite s (fun _ => true) a d =
    { s with mgmt := { s.mgmt with sram := (sramWrite s (fun _ => true) a d).mgmt.sram } } := by
  induction d with
  | nil => intro s a; rfl
  | cons b d ih => intro s a; exact ih (storeByte s a b) (a + 1)

/-! ### Atomics -/

/-- R369: the core and the bytes of an atomic that the SRAM performs. -/
def AtomicServed (m a : Nat) (d : List Byte) : Prop := m < 4 ∧ (d.length = 4 ∨ d.length = 8) ∧ a % d.length = 0

theorem sramAtomic_swap (s : State) (id : Nat) {m a : Nat} {d : List Byte} (h : AtomicServed m a d) :
    sramAtomic s m id a none d = busData (sramWrite s (fun _ => true) a d) m id (sramRead s a d.length) :=
  if_pos h

theorem sramAtomic_cas_equal (s : State) (id : Nat) {m a : Nat} {c d : List Byte} (h : AtomicServed m a d)
    (hc : c = sramRead s a d.length) :
    sramAtomic s m id a (some c) d = busData (sramWrite s (fun _ => true) a d) m id (sramRead s a d.length) := by
  subst hc
  exact (if_pos h).trans (by simp)

theorem sramAtomic_cas_unequal (s : State) (id : Nat) {m a : Nat} {c d : List Byte} (h : AtomicServed m a d)
    (hc : c ≠ sramRead s a d.length) : sramAtomic s m id a (some c) d = busData s m id (sramRead s a d.length) :=
  (if_pos h).trans (by simp [hc])

theorem sramAtomic_notCore (s : State) (id a : Nat) {m : Nat} (hm : 4 ≤ m) (c : Option (List Byte)) (d : List Byte) :
    sramAtomic s m id a c d = busError s m id a .target :=
  if_neg fun h => absurd h.1 (Nat.not_lt.2 hm)

@[simp] theorem setCore_out (s : State) (k : Nat) (c : CoreSt) : (setCore s k c).out = s.out := rfl

@[simp] theorem busError_out (s : State) (m i a : Nat) (e : BusErr) : (busError s m i a e).out = s.out ++ [Out.busError m i e] := by
  unfold busError
  dsimp only
  split <;> simp

/-! ### From the crossbar to the SRAM -/

/-- R370 to R373, R382: what lets access `r` through to the SRAM: it is the SRAM's, which answers and has nothing waiting, its master
may issue it, its MPU refuses no part of it, and debug is unlocked with permission 0 where the debug port issues it. -/
structure Admitted (s : State) (r : BusReq) : Prop where
  target : targetOf r.addr.toNat = some .sram
  answers : r.stalls = false
  room : (outstanding s r.master).length < 16
  idle : targetWaits s .sram = false
  mpu : r.master.val < 4 → partsRefused (coreSt s r.master) r.addr.toNat r.kind = []
  debug : r.master.val = 4 → s.sec.unlocked = true ∧ s.sec.permissions.getLsbD 0 = true

/-- R373: the round robin's turn comes round to every core and to the debug port. -/
theorem exists_turn (ptr : Nat) {m : Nat} (h : m < 5) : ∃ i ∈ List.range 5, m = (ptr + i) % 5 :=
  ⟨(m + 5 - ptr % 5) % 5, List.mem_range.2 (by omega), by omega⟩

theorem findSome?_find?_singleton {α β : Type} {p : α → β → Bool} {l : List α} {i : α} {b : β} (hi : i ∈ l)
    (hp : p i b = true) : (l.findSome? fun j => [b].find? (p j)) = some b := by
  cases e : l.findSome? fun j => [b].find? (p j) with
  | none => exact absurd (List.findSome?_eq_none_iff.1 e i hi) (by simp [hp])
  | some x =>
    obtain ⟨j, -, hj⟩ := List.exists_of_findSome?_eq_some e
    rw [List.mem_singleton.1 (List.mem_of_find?_eq_some hj)]

/-- R373: a master that presents alone is accepted. -/
theorem arbitrate_alone (s : State) (t : Nat) (r : BusReq) : arbitrate s t [r] = some r := by
  by_cases dma : r.master.val = 5
  · simp [arbitrate, dma]
  · have noDma : ([r].find? fun r => decide (r.master.val = 5)) = none := by simp [dma]
    have others : ([r].filter fun r => decide (r.master.val ≠ 5)) = [r] := by simp [dma]
    obtain ⟨i, hi, turn⟩ := exists_turn (tabGet 0 t s.mgmt.rrPtr) (show r.master.val < 5 by omega)
    simp only [arbitrate, noDma, others]
    exact findSome?_find?_singleton hi (decide_eq_true turn)

theorem accepted_frame (s : State) (t : Nat) (r : BusReq) : accepted s t r =
    { s with mgmt := { s.mgmt with rrPtr := (accepted s t r).mgmt.rrPtr, lastDma := (accepted s t r).mgmt.lastDma } } := by
  unfold accepted
  split <;> rfl

@[simp] theorem accepted_out (s : State) (t : Nat) (r : BusReq) : (accepted s t r).out = s.out := by rw [accepted_frame]
@[simp] theorem accepted_sec (s : State) (t : Nat) (r : BusReq) : (accepted s t r).sec = s.sec := by rw [accepted_frame]
@[simp] theorem accepted_sram (s : State) (t : Nat) (r : BusReq) : (accepted s t r).mgmt.sram = s.mgmt.sram := by
  rw [accepted_frame]

theorem Admitted.after_accepted {s : State} {r : BusReq} (h : Admitted s r) (t : Nat) : Admitted (accepted s t r) r := by
  rw [accepted_frame]
  exact ⟨h.target, h.answers, h.room, h.idle, h.mpu, h.debug⟩

theorem fetchAgain_frame (s : State) (r : BusReq) :
    fetchAgain s r = { s with mgmt := { s.mgmt with cores := (fetchAgain s r).mgmt.cores } } := by
  unfold fetchAgain
  repeat' split
  all_goals rfl

theorem fetchAgain_data (s : State) {r : BusReq} (h : ∀ n, r.kind ≠ .fetch n) : fetchAgain s r = s := by
  unfold fetchAgain
  split
  · next n hk => exact absurd hk (h n)
  · rfl

/-- R384: that a core fetches again under the active set changes nothing that its MPU decides by. -/
theorem partsRefused_fetchAgain (s : State) (r : BusReq) (a : Nat) (k : BusKind) :
    partsRefused (coreSt (fetchAgain s r) r.master) a k = partsRefused (coreSt s r.master) a k := by
  unfold fetchAgain
  split
  · split
    · rw [show ∀ c, coreSt (setCore s r.master c) r.master = c from fun c => tabGet_set_same _ _ c _]; rfl
    · rfl
  · rfl

theorem Admitted.after_fetchAgain {s : State} {r : BusReq} (h : Admitted s r) : Admitted (fetchAgain s r) r where
  target := h.target
  answers := h.answers
  room := by rw [fetchAgain_frame]; exact h.room
  idle := by rw [fetchAgain_frame]; exact h.idle
  mpu hm := (partsRefused_fetchAgain s r _ _).trans (h.mpu hm)
  debug := by rw [fetchAgain_frame]; exact h.debug

theorem Admitted.pathOf_eq {s : State} {r : BusReq} (h : Admitted s r) : pathOf s r.master .sram r.addr.toNat = .rw := by
  unfold pathOf
  split
  · rfl
  · split
    · next hm => simp [debugPathNow, Target.lockedRegion, h.debug hm, debugPath]
    · rfl

theorem Admitted.crossbar_eq {s : State} {r : BusReq} (h : Admitted s r) : crossbar s r = .inr .sram := by
  simp only [crossbar, h.target, h.pathOf_eq]

theorem Admitted.refusedParts_eq {s : State} {r : BusReq} (h : Admitted s r) : refusedParts s r = [] := by
  unfold refusedParts
  split
  · next hm => exact h.mpu hm.1
  · rfl

theorem Admitted.busIssue_eq {s : State} {r : BusReq} (h : Admitted s r) :
    busIssue s r = serveTarget (fetchAgain s r) r .sram fun _ => true := by
  have hf := h.after_fetchAgain
  simp [busIssue, Nat.not_le.2 h.room, hf.refusedParts_eq, wholeAccess, hf.crossbar_eq, hf.answers, hf.idle]

/-- An access that reaches the SRAM is served by it in the step in which it is presented. -/
theorem Admitted.exec_eq {s : State} {r : BusReq} (h : Admitted s r) :
    exec (.busAccess [r]) s = .next (serveTarget (fetchAgain (accepted s 0 r) r) r .sram fun _ => true) := by
  show execBusAccess [r] s = _
  simp only [execBusAccess, h.target, arbitrate_alone, Target.no, (h.after_accepted 0).busIssue_eq]

theorem Admitted.exec_data {s : State} {r : BusReq} (h : Admitted s r) (hk : ∀ n, r.kind ≠ .fetch n) :
    exec (.busAccess [r]) s = .next (serveTarget (accepted s 0 r) r .sram fun _ => true) := by
  rw [h.exec_eq, fetchAgain_data _ hk]

/-! ### What each kind of access does -/

section Kinds
variable {s : State} {r : BusReq} {n : Nat} {c d : List Byte}

@[simp] theorem sramRead_accepted (s : State) (t : Nat) (r : BusReq) (a n : Nat) :
    sramRead (accepted s t r) a n = sramRead s a n :=
  sramRead_congr (accepted_sec s t r) (accepted_sram s t r) a n

/-- The SRAM after `r` has been accepted and its bytes `d` have been stored, before the answer is sent. -/
def stored (s : State) (r : BusReq) (d : List Byte) : State :=
  sramWrite (accepted s 0 r) (fun _ => true) r.addr.toNat d

theorem Admitted.exec_read (h : Admitted s r) (hk : r.kind = .read n) : exec (.busAccess [r]) s =
    .next (emit (accepted s 0 r) (.busData r.master r.id (sramRead s r.addr.toNat n))) := by
  rw [h.exec_data (by simp [hk])]
  simp [serveTarget, hk, busData]

theorem Admitted.exec_fetch (h : Admitted s r) (hk : r.kind = .fetch n) : exec (.busAccess [r]) s =
    .next (emit (fetchAgain (accepted s 0 r) r) (.busData r.master r.id (sramRead s r.addr.toNat n))) := by
  have bytes := sramRead_congr (s := accepted s 0 r) (t := fetchAgain (accepted s 0 r) r)
    (by rw [fetchAgain_frame]) (by rw [fetchAgain_frame]) r.addr.toNat n
  rw [h.exec_eq]
  simp [serveTarget, hk, busData, bytes]

theorem Admitted.exec_write (h : Admitted s r) (hk : r.kind = .write d) :
    exec (.busAccess [r]) s = .next (emit (stored s r d) (.busAck r.master r.id)) := by
  rw [h.exec_data (by simp [hk])]
  simp [serveTarget, hk, busAck, stored]

theorem Admitted.exec_swap (h : Admitted s r) (hk : r.kind = .swap d) (hd : AtomicServed r.master r.addr.toNat d) :
    exec (.busAccess [r]) s =
      .next (emit (stored s r d) (.busData r.master r.id (sramRead s r.addr.toNat d.length))) := by
  rw [h.exec_data (by simp [hk])]
  simp [serveTarget, hk, sramAtomic_swap _ _ hd, busData, stored]

theorem Admitted.exec_cas_equal (h : Admitted s r) (hk : r.kind = .cas c d) (hd : AtomicServed r.master r.addr.toNat d)
    (hc : c = sramRead s r.addr.toNat d.length) : exec (.busAccess [r]) s =
      .next (emit (stored s r d) (.busData r.master r.id (sramRead s r.addr.toNat d.length))) := by
  rw [h.exec_data (by simp [hk])]
  simp [serveTarget, hk, sramAtomic_cas_equal (accepted s 0 r) _ hd (by simpa using hc), busData, stored]

theorem Admitted.exec_cas_unequal (h : Admitted s r) (hk : r.kind = .cas c d) (hd : AtomicServed r.master r.addr.toNat d)
    (hc : c ≠ sramRead s r.addr.toNat d.length) : exec (.busAccess [r]) s =
      .next (emit (accepted s 0 r) (.busData r.master r.id (sramRead s r.addr.toNat d.length))) := by
  rw [h.exec_data (by simp [hk])]
  simp [serveTarget, hk, sramAtomic_cas_unequal (accepted s 0 r) _ hd (by simpa using hc), busData]

theorem Admitted.exec_atomic_notCore (h : Admitted s r) (hm : 4 ≤ r.master.val) (hk : r.kind = .swap d ∨ r.kind = .cas c d) :
    exec (.busAccess [r]) s =
      .next (busError (accepted s 0 r) r.master r.id r.addr.toNat .target) := by
  rcases hk with hk | hk
  · rw [h.exec_data (by simp [hk])]
    simp [serveTarget, hk, sramAtomic_notCore _ _ _ hm]
  · rw [h.exec_data (by simp [hk])]
    simp [serveTarget, hk, sramAtomic_notCore _ _ _ hm]

end Kinds

/-! ### What a store leaves -/

/-- R369: `t` is `s` with bytes `d` stored where `r` asks and the answer `o` sent. -/
def StoredAndAnswered (s : State) (r : BusReq) (d : List Byte) (o : Out) (t : State) : Prop :=
  t.out = s.out ++ [o] ∧ (∀ i : Nat, i < d.length → sramByte t (r.addr.toNat + i) = d.getD i 0) ∧
    (∀ a : Nat, a < r.addr.toNat ∨ r.addr.toNat + d.length ≤ a → sramByte t a = sramByte s a) ∧
    t = { s with mgmt := { s.mgmt with rrPtr := t.mgmt.rrPtr, lastDma := t.mgmt.lastDma, sram := t.mgmt.sram }, out := t.out }

theorem stored_frame (s : State) (r : BusReq) (d : List Byte) : stored s r d =
    { s with mgmt := { s.mgmt with rrPtr := (stored s r d).mgmt.rrPtr, lastDma := (stored s r d).mgmt.lastDma
                                   sram := (stored s r d).mgmt.sram } } := by
  unfold stored
  rw [sramWrite_frame, accepted_frame]

theorem stored_answered (s : State) (r : BusReq) (d : List Byte) (o : Out) :
    StoredAndAnswered s r d o (emit (stored s r d) o) := by
  have byte : sramByte (emit (stored s r d) o) = sramByte (stored s r d) := sramByte_congr rfl rfl
  refine ⟨?_, fun i hi => ?_, fun a ha => ?_, ?_⟩
  · rw [stored_frame]; rfl
  · rw [byte]; exact sramByte_sramWrite_inside d _ _ i hi
  · rw [byte]
    exact (sramByte_sramWrite_outside d _ _ a ha).trans
      (congrFun (sramByte_congr (accepted_sec s 0 r) (accepted_sram s 0 r)) a)
  · rw [stored_frame]; rfl

/-- Settles O4: each admitted access is answered in its step, and only a store reaches the SRAM's bytes. -/
theorem sramAccesses : Obligations.SramAccesses := by
  intro r s target answers room idle mpu debug
  have h : Admitted s r := ⟨target, answers, room, idle, mpu, debug⟩
  refine ⟨fun n hk _ _ => ⟨_, h.exec_read hk, by simp, by rw [accepted_frame]; rfl⟩,
    fun n hk _ _ => ⟨_, h.exec_fetch hk, by rw [fetchAgain_frame]; simp, by rw [fetchAgain_frame, accepted_frame]; rfl⟩,
    fun d hk _ _ => ⟨_, h.exec_write hk, stored_answered s r d _⟩,
    fun d core hk width aligned => ⟨_, h.exec_swap hk ⟨core, width, aligned⟩, stored_answered s r d _⟩,
    fun c d core hk width aligned => ?_,
    fun c d notCore hk => ⟨_, h.exec_atomic_notCore notCore hk, by simp, by simp⟩⟩
  by_cases hc : c = sramRead s r.addr.toNat d.length
  · obtain ⟨out, inside, outside, frame⟩ :=
      stored_answered s r d (.busData r.master r.id (sramRead s r.addr.toNat d.length))
    exact ⟨_, h.exec_cas_equal hk ⟨core, width, aligned⟩ hc, out, fun ne => absurd hc ne, fun _ => ⟨inside, outside⟩, frame⟩
  · exact ⟨_, h.exec_cas_unequal hk ⟨core, width, aligned⟩ hc, by simp, fun _ => by simp, fun eq => absurd eq hc,
      by rw [accepted_frame]; rfl⟩

end Sys2Proof.Proofs.Sram

/-!
The crash snapshot on command (R435): what the command does on each outcome of the hold-up energy check of R343, and how the snapshot
is read.
-/

namespace Sys2Proof.Proofs.Snapshot

open Sys2Proof Sys2Proof.Machine Sys2Proof.Laws

/-- The bytes of a written snapshot: its entries, in order, as 64-byte records. -/
theorem domainHigh_crash (s : State) (x : Session) :
    domainHigh s x 0xA062 = s.flt.crash.flatMap fun e => leBytes 64 e.bits := rfl

/-- `s` with the snapshot `c` written in place of the one that was there. The entries are a variable: a check by `rfl` that meets
`length - 4096` in their place counts down from the literal. -/
def withCrash (s : State) (c : List LogEntry) : State :=
  { s with flt := { s.flt with crash := c } }

@[simp] theorem withCrash_crash (s : State) (c : List LogEntry) : (withCrash s c).flt.crash = c := (rfl)

@[simp] theorem withCrash_out (s : State) (c : List LogEntry) : (withCrash s c).out = s.out := (rfl)

theorem emit_withCrash_frame (s : State) (c : List LogEntry) (o : Out) : emit (withCrash s c) o =
    { s with flt := { s.flt with crash := (emit (withCrash s c) o).flt.crash }, out := (emit (withCrash s c) o).out } := rfl

/-- R435: the entries that a snapshot takes, the log's last 4,096. -/
def lastEntries (s : State) : List LogEntry := s.flt.log.drop (s.flt.log.length - 4096)

theorem snapshotNow_of_passes {s : State} (h : holdupPasses s 262144 = true) :
    snapshotNow s = (withCrash s (lastEntries s), .ok) :=
  if_pos h

theorem snapshotNow_of_fails {s : State} (h : holdupPasses s 262144 = false) :
    snapshotNow s = (bumpC s 0xC02A 1, .holdupLow) :=
  if_neg (by simp [h])

/-- The command sends the status that the write of the snapshot ends with. -/
theorem exec_writeSnapshotNow (s : State) :
    exec .writeSnapshotNow s = .next (emit (snapshotNow s).1 (.status (snapshotNow s).2)) := rfl

theorem exec_writeSnapshotNow_of_passes {s : State} (h : holdupPasses s 262144 = true) :
    exec .writeSnapshotNow s = .next (emit (withCrash s (lastEntries s)) (.status .ok)) := by
  rw [exec_writeSnapshotNow, snapshotNow_of_passes h]

theorem exec_writeSnapshotNow_of_fails {s : State} (h : holdupPasses s 262144 = false) :
    exec .writeSnapshotNow s = .next (emit (bumpC s 0xC02A 1) (.status .holdupLow)) := by
  rw [exec_writeSnapshotNow, snapshotNow_of_fails h]

/-- R471: one event raises its counter by one, and the answer that follows leaves it so. -/
theorem counter_emit_bumpC (s : State) (i j : Nat) (o : Out) :
    counter (emit (bumpC s i j) o) (counterNo i j) = counter s (counterNo i j) + 1 :=
  counter_bump_same s (counterNo i j) 1

/-- Settles O5: the two outcomes of the energy check, and the entry that reads the snapshot. -/
theorem snapshotCommand : Obligations.SnapshotCommand := by
  refine ⟨fun s passes => ?_, fun s fails => ?_, fun x s => domainHigh_crash s x⟩
  · exact ⟨_, exec_writeSnapshotNow_of_passes passes, by simp [lastEntries], by simp, emit_withCrash_frame s _ _⟩
  · exact ⟨_, exec_writeSnapshotNow_of_fails fails, by simp, counter_emit_bumpC s 0xC02A 1 _, rfl⟩

end Sys2Proof.Proofs.Snapshot

/-!
Revocation of key slots (R449): the check that a slot with a key hash is left, and what the command does on each of its outcomes.
-/

namespace Sys2Proof.Proofs.KeySlots

open Sys2Proof Sys2Proof.Machine Sys2Proof.Laws

/-- R449: without slot `k`, a slot is left that is unrevoked and holds a key hash. -/
def leavesSlot (s : State) (k : Nat) : Bool :=
  (List.range 4).any fun j => decide (j ≠ k) && !s.sec.revoked.contains j && (tabFind? j s.sec.fuseHash).isSome

theorem leavesSlot_iff (s : State) (k : Nat) : leavesSlot s k = true ↔
    ∃ j : Nat, j < 4 ∧ j ≠ k ∧ j ∉ s.sec.revoked ∧ (tabFind? j s.sec.fuseHash).isSome = true := by
  simp [leavesSlot, and_assoc]

theorem leavesSlot_eq_false {s : State} {k : Nat}
    (none_left : ∀ j : Nat, j < 4 → j ≠ k → j ∈ s.sec.revoked ∨ tabFind? j s.sec.fuseHash = none) : leavesSlot s k = false := by
  rw [Bool.eq_false_iff, ne_eq, leavesSlot_iff]
  rintro ⟨j, hj, hne, unrevoked, holds⟩
  rcases none_left j hj hne with revoked | empty
  · exact unrevoked revoked
  · simp [empty] at holds

/-- `s` with the revoke fuse of slot `k` blown. -/
def withRevoked (s : State) (k : Nat) : State :=
  { s with sec := { s.sec with revoked := setInsert k s.sec.revoked } }

@[simp] theorem withRevoked_revoked (s : State) (k : Nat) : (withRevoked s k).sec.revoked = setInsert k s.sec.revoked := (rfl)

@[simp] theorem withRevoked_out (s : State) (k : Nat) : (withRevoked s k).out = s.out := (rfl)

theorem emit_withRevoked_frame (s : State) (k : Nat) (o : Out) : emit (withRevoked s k) o =
    { s with sec := { s.sec with revoked := (emit (withRevoked s k) o).sec.revoked }, out := (emit (withRevoked s k) o).out } := rfl

/-- The order of the checks of R449: the session, the slot's number, the slots that are left. -/
theorem revokeSlot_eq (s : State) (sid k : Nat) : revokeSlot s sid k =
    if encryptedSession s sid = false then (s, .notPermitted)
    else if 3 < k then (s, .outOfRange)
    else if leavesSlot s k = true then (withRevoked s k, .ok) else (s, .wrongState) := by
  simp only [revokeSlot, Bool.not_eq_true']
  rfl

theorem revokeSlot_of_not_encrypted {s : State} {sid : Nat} (plain : encryptedSession s sid = false) (k : Nat) :
    revokeSlot s sid k = (s, .notPermitted) := by
  rw [revokeSlot_eq, if_pos plain]

theorem revokeSlot_of_encrypted {s : State} {sid k : Nat} (encrypted : encryptedSession s sid = true) (hk : k ≤ 3) :
    revokeSlot s sid k = if leavesSlot s k = true then (withRevoked s k, .ok) else (s, .wrongState) := by
  rw [revokeSlot_eq, if_neg (by simp [encrypted]), if_neg (by omega)]

/-- The command sends the status that the revocation ends with. -/
theorem exec_revokeKeySlot (x : BitVec 32) (k : Byte) (s : State) : exec (.revokeKeySlot x k) s =
    .next (emit (revokeSlot s x.toNat k.toNat).1 (.status (revokeSlot s x.toNat k.toNat).2)) := rfl

section Encrypted

variable {x : BitVec 32} {k : Byte} {s : State} (encrypted : encryptedSession s x.toNat = true) (hk : k.toNat ≤ 3)
include encrypted hk

theorem exec_revokeKeySlot_of_leavesSlot (left : leavesSlot s k.toNat = true) :
    exec (.revokeKeySlot x k) s = .next (emit (withRevoked s k.toNat) (.status .ok)) := by
  rw [exec_revokeKeySlot, revokeSlot_of_encrypted encrypted hk, if_pos left]

theorem exec_revokeKeySlot_of_last (last : leavesSlot s k.toNat = false) :
    exec (.revokeKeySlot x k) s = .next (emit s (.status .wrongState)) := by
  rw [exec_revokeKeySlot, revokeSlot_of_encrypted encrypted hk, if_neg (by simp [last])]

end Encrypted

theorem exec_revokeKeySlot_of_not_encrypted {x : BitVec 32} {s : State} (plain : encryptedSession s x.toNat = false) (k : Byte) :
    exec (.revokeKeySlot x k) s = .next (emit s (.status .notPermitted)) := by
  rw [exec_revokeKeySlot, revokeSlot_of_not_encrypted plain]

/-- Settles O6: the revocation, the refusal where no slot would be left, and the refusal outside an ENCRYPTED session. -/
theorem keySlotRevocation : Obligations.KeySlotRevocation := by
  refine ⟨fun x k s encrypted hk left => ?_, fun x k s encrypted hk none_left => ?_, fun x k s plain => ?_⟩
  · have answer := exec_revokeKeySlot_of_leavesSlot encrypted hk ((leavesSlot_iff s k.toNat).mpr left)
    exact ⟨_, answer, by simp, fun j hj => by simp [hj], fun j hj => by simpa [or_comm] using hj, by simp,
      emit_withRevoked_frame s k.toNat _⟩
  · exact exec_revokeKeySlot_of_last encrypted hk (leavesSlot_eq_false none_left)
  · exact ⟨.notPermitted, by decide, exec_revokeKeySlot_of_not_encrypted plain k⟩

end Sys2Proof.Proofs.KeySlots

/-!
Rules that the proofs of several families use: what a raised source and a notice leave, and folds over operations that keep something.
-/

namespace Sys2Proof.Proofs.Shared

open Sys2Proof Sys2Proof.Machine Sys2Proof.Laws

/-! ### Commands that answer with a status -/

/-- What a command that answers with a status answers, from what its operation answers. -/
theorem answered_of {q : State × Status} {t : State} {st : Status} (h : q = (t, st)) : answered q = .next (emit t (.status st)) := by
  rw [h]
  rfl

/-! ### Fault sources (R417) -/

theorem raiseReport_frame (s : State) (f : Nat) (r : Report) :
    raiseReport s f r = { s with flt := { s.flt with pairs := (raiseReport s f r).flt.pairs } } := by
  unfold raiseReport
  split <;> rfl

/-- Raising a source changes nothing but the pairs. -/
theorem raiseFault_frame (s : State) (f c d : Nat) :
    raiseFault s f c d = { s with flt := { s.flt with pairs := (raiseFault s f c d).flt.pairs } } :=
  raiseReport_frame s f _

/-- A raised source holds a report. -/
theorem exists_report (s : State) (f c d : Nat) : ∃ r, tabFind? f (raiseFault s f c d).flt.pairs = some r :=
  Option.isSome_iff_exists.1 (raiseReport_some s f _)

/-- R417: a source whose pair is free holds the report that it raises. -/
theorem raiseFault_free {s : State} {f : Nat} (free : tabFind? f s.flt.pairs = none) (c d : Nat) :
    tabFind? f (raiseFault s f c d).flt.pairs =
      some { injected := false, rail := false, cause := BitVec.ofNat 8 c, detail := BitVec.ofNat 48 d, data := 0 } := by
  unfold raiseFault raiseReport
  rw [free]
  exact tabFind_put_same ..

/-- A notice counts the records that it lost, and nothing else. -/
theorem counter_notify (s : State) (i j v : Nat) (d : BitVec 64) {n : Nat} (other : n ≠ counterNo 0xC02C 5) :
    counter (notify s i j v d) n = counter s n := counter_bump_other _ other _

/-! ### The cullet map and the event log (R432, R435) -/

theorem logAppend_frame (s : State) (source code severity : Nat) (rail : Bool) (syndrome : BitVec 64) (data : BitVec 192) :
    ∃ flt, logAppend s source code severity rail syndrome data = { s with flt := flt } := by
  unfold logAppend
  split
  · exact ⟨_, rfl⟩
  · exact ⟨_, rfl⟩

theorem culletWrite_frame (s : State) (n : Nat) : ∃ flt perf, culletWrite s n = { s with flt := flt, perf := perf } := by
  unfold culletWrite
  split
  · exact ⟨_, _, rfl⟩
  · exact ⟨_, _, rfl⟩

/-- R432: a record of the cullet map is kept, logged and written, or that it could not be is counted. -/
theorem culletMake_frame (s : State) (kind origin location : Nat) (st : CulletState) :
    ∃ flt perf, culletMake s kind origin location st = { s with flt := flt, perf := perf } := by
  unfold culletMake
  split
  · exact ⟨_, _, rfl⟩
  · next n _ =>
    extract_lets r flt0 s1
    obtain ⟨flt1, logged⟩ := logAppend_frame s1 0xFFFF 0x0010 0 false 0 (BitVec.ofNat 192 r.bits)
    obtain ⟨flt, perf, written⟩ := culletWrite_frame (logInfo s1 0xFFFF 0x0010 (BitVec.ofNat 192 r.bits)) n
    rw [written, logInfo, logged]
    exact ⟨_, _, rfl⟩

/-! ### The governor's tokens (R361) -/

theorem spend_frame {s t : State} {k cost : Nat} (drawn : spend? s k cost = some t) : ∃ pow, t = { s with pow := pow } := by
  obtain ⟨_, -, rfl⟩ := Option.map_eq_some_iff.1 drawn
  exact ⟨_, rfl⟩

/-! ### Entries of the dictionary -/

/-- Setting an entry leaves every entry of another index or another subindex. -/
theorem odGet_odSet_ne (s : State) {i j : Nat} (v : Nat) {i' j' : Nat} (h : i' ≠ i ∨ j' ≠ j) (hj : j < 256) (hj' : j' < 256) :
    odGet (odSet s i j v) i' j' = odGet s i' j' :=
  odGet_odSet_other s i j v (by unfold odKey; omega)

/-- Entries of different subindices differ, whatever their indices. -/
theorem odGet_odSet_subs (s : State) (i : Nat) {j : Nat} (v i' : Nat) {j' : Nat} (h : j' ≠ j) (hj : j < 256) (hj' : j' < 256) :
    odGet (odSet s i j v) i' j' = odGet s i' j' :=
  odGet_odSet_ne s v (.inr h) hj hj'

/-! ### The fabric and the buffers of ports -/

/-- R40: a unit that is sent enters the fabric, and touches nothing else. -/
theorem sendAt_frame (s : State) (n a : Nat) (u : FUnit) (t : Option Tlp) (hpa : Option (Nat × BitVec 46)) :
    sendAt s n a u t hpa = { s with fab := (sendAt s n a u t hpa).fab } := by
  unfold sendAt
  dsimp only
  split <;> rfl

theorem send_frame (s : State) (u : FUnit) : send s u = { s with fab := (send s u).fab } := sendAt_frame ..

theorem sendAll_frame (s : State) (l : List FUnit) : sendAll s l = { s with fab := (sendAll s l).fab } := by
  refine List.foldlRecOn _ _ (motive := fun r : State => r = { s with fab := r.fab }) rfl fun r hr u _ => ?_
  rw [hr, send_frame]

/-- R87: the units of a packet enter the fabric, and touch nothing else. -/
theorem sendTlpBy_frame (s : State) (n a : Nat) (t : Tlp) (src dst : BitVec 12) (tag : BitVec 16) (f : FUnit → FUnit) :
    sendTlpBy s n a t src dst tag f = { s with fab := (sendTlpBy s n a t src dst tag f).fab } := by
  refine List.foldlRecOn _ _ (motive := fun r : State => r = { s with fab := r.fab }) rfl fun r hr u _ => ?_
  rw [hr, sendAt_frame]

@[simp] theorem ingress_setIngress (s : State) (p : Nat) (vn : Vn) (l : List InMsg) : ingress (setIngress s p vn l) p vn = l :=
  tabGet_set_same ..

@[simp] theorem egress_setEgress (s : State) (p : Nat) (vn : Vn) (l : List EgUnit) : egress (setEgress s p vn l) p vn = l :=
  tabGet_set_same ..

theorem ingress_congr {s t : State} (h : t.swc.ingress = s.swc.ingress) : ingress t = ingress s := by
  funext p v; simp only [ingress, h]

theorem egress_congr {s t : State} (h : t.swc.egress = s.swc.egress) : egress t = egress s := by
  funext p v; simp only [egress, h]

/-- R149, R162: taking a unit of an egress pair touches the egress pairs alone. -/
theorem egressTaken_frame (s : State) (p : Nat) (v : Vn) (id : Nat) (m : Option LinkMsg) :
    egressTaken s p v id m = { s with swc := { s.swc with egress := (egressTaken s p v id m).swc.egress } } := by
  unfold egressTaken
  split <;> rfl

/-- The message that a unit becomes on the link of its port. -/
theorem egressTaken_msg {s : State} {p : Nat} {v : Vn} {h : Held} (head : egressHead s p v = some h) (m : LinkMsg) :
    ∃ e ∈ egress (egressTaken s p v h.id (some m)) p v, e.msg = some m := by
  obtain ⟨e, found, rfl⟩ := Option.map_eq_some_iff.1 head
  refine ⟨{ e with msg := some m }, ?_, rfl⟩
  unfold egressTaken
  dsimp only
  rw [egress_setEgress]
  exact List.mem_map.2 ⟨e, List.mem_of_find?_eq_some found, if_pos rfl⟩

/-! ### The memory path -/

/-- What the operations on the way from a slice to the pool ports touch: the fabric, outside the buffers of agents, the slices, the
granules reported as not mapped, the counters and the fault sources. -/
structure Routed (s t : State) : Prop where
  touched : ∃ fab home reported perf flt,
    t = { s with fab := fab, home := home, map := { s.map with reported := reported }, perf := perf, flt := flt } ∧ fab.eject = s.fab.eject

namespace Routed

variable {s t u : State}

theorem refl (s : State) : Routed s s := ⟨_, _, _, _, _, rfl, rfl⟩

theorem trans (h : Routed s t) (g : Routed t u) : Routed s u := by
  obtain ⟨_, _, _, _, _, rfl, eject⟩ := h
  obtain ⟨_, _, _, _, _, rfl, eject'⟩ := g
  exact ⟨_, _, _, _, _, rfl, eject'.trans eject⟩

theorem foldl {α : Type} {f : State → α → State} (step : ∀ t a, Routed t (f t a)) (l : List α) (s : State) : Routed s (l.foldl f s) :=
  List.foldlRecOn _ _ (motive := Routed s) (refl s) fun t h a _ => h.trans (step t a)

theorem moves (h : Routed s t) : t.map.moves = s.map.moves := by obtain ⟨_, _, _, _, _, rfl, -⟩ := h; rfl
theorem eject (h : Routed s t) : t.fab.eject = s.fab.eject := by obtain ⟨_, _, _, _, _, rfl, eject⟩ := h; exact eject

theorem raiseFault (s : State) (f c d : Nat) : Routed s (raiseFault s f c d) := ⟨_, _, _, _, _, raiseFault_frame s f c d, rfl⟩
theorem bumpC (s : State) (i j : Nat) : Routed s (bumpC s i j) := ⟨_, _, _, _, _, rfl, rfl⟩
theorem setSlice (s : State) (l : Nat) (x : HomeSlice) : Routed s (setSlice s l x) := ⟨_, _, _, _, _, rfl, rfl⟩
theorem setTracker (s : State) (l t : Nat) (k : Tracker) : Routed s (setTracker s l t k) := ⟨_, _, _, _, _, rfl, rfl⟩
theorem setBuf (s : State) (l b : Nat) (e : BufEntry) : Routed s (setBuf s l b e) := ⟨_, _, _, _, _, rfl, rfl⟩

theorem sendAt (s : State) (n a : Nat) (u : FUnit) (t : Option Tlp) (hpa : Option (Nat × BitVec 46)) : Routed s (sendAt s n a u t hpa) := by
  unfold Machine.sendAt
  dsimp only
  split <;> exact ⟨_, _, _, _, _, rfl, rfl⟩

theorem send (s : State) (u : FUnit) : Routed s (send s u) := sendAt s _ _ u none none

theorem sendAll (s : State) (l : List FUnit) : Routed s (sendAll s l) := foldl send l s


theorem remapAnswer (s : State) (l : Nat) (op : RemapOp) : Routed s (remapAnswer s l op) := by
  unfold Machine.remapAnswer
  dsimp only
  split
  · split
    · exact refl s
    · exact (bumpC s _ _).trans ((setTracker _ _ _ _).trans ((send _ _).trans (send _ _)))
  · split
    · exact refl s
    · exact (bumpC s _ _).trans ((setBuf _ _ _ _).trans (send _ _))

theorem unmappedReport (s : State) (l g : Nat) : Routed s (unmappedReport s l g) := by
  unfold Machine.unmappedReport
  split
  · exact refl s
  · exact trans ⟨_, _, _, _, _, rfl, rfl⟩ (raiseFault _ _ _ _)

theorem sendMemRd (s : State) (l t : Nat) (k : Tracker) (p : Loc) : Routed s (sendMemRd s l t k p) :=
  (setTracker s _ _ _).trans (send _ _)

theorem sendMemWr (s : State) (l b : Nat) (e : BufEntry) (p : Loc) : Routed s (sendMemWr s l b e p) := by
  unfold Machine.sendMemWr
  split
  · exact setBuf s _ _ _
  · exact (setBuf s _ _ _).trans (send _ _)

theorem remapSend (s : State) (l : Nat) (op : RemapOp) (p : Loc) : Routed s (remapSend s l op p) := by
  unfold Machine.remapSend
  split
  · split
    · split
      · exact sendMemRd s _ _ _ _
      · exact refl s
    · split
      · exact sendMemWr s _ _ _ _
      · exact refl s
  · exact remapAnswer s l op

theorem remapHold (s : State) (l g page : Nat) (op : RemapOp) : Routed s (remapHold s l g page op) := by
  unfold Machine.remapHold
  dsimp only
  have held := (setSlice s l { slice s l with paged := (slice s l).paged ++ [(g, page, op)] }).trans (bumpC _ 0xC025 7)
  split
  · split
    · exact held.trans ((setTracker _ _ _ _).trans (bumpC _ _ _))
    · exact held
  · split
    · exact held.trans (setBuf _ _ _ _)
    · exact held

theorem remapWith (s : State) (l g page : Nat) (op : RemapOp) (e : BitVec 48) : Routed s (remapWith s l g page op e) := by
  unfold Machine.remapWith
  split
  · exact remapSend s _ _ _
  · exact remapSend s _ _ _
  · split
    · exact remapSend s _ _ _
    · split
      · exact remapSend s _ _ _
      · split
        · exact remapHold s _ _ _ _
        · exact remapSend s _ _ _
  · exact (remapAnswer s _ _).trans (unmappedReport _ _ _)

theorem releasePage (s : State) (g p : Nat) : Routed s (releasePage s g p) := by
  unfold Machine.releasePage
  generalize List.range 32 = l
  refine foldl (fun t l => ?_) l s
  dsimp only
  refine (setSlice t l _).trans (foldl (fun r q => ?_) _ _)
  refine trans ?_ (remapWith _ _ _ _ _ _)
  split
  · split
    · exact setTracker _ _ _ _
    · exact refl r
  · split
    · exact setBuf _ _ _ _
    · exact refl r

end Routed

/-- What the moves touch besides: the whole state of the map. -/
structure MemPath (s t : State) : Prop where
  touched : ∃ fab home map perf flt, t = { s with fab := fab, home := home, map := map, perf := perf, flt := flt }

namespace MemPath

variable {s t u : State}

theorem refl (s : State) : MemPath s s := ⟨_, _, _, _, _, rfl⟩

theorem trans (h : MemPath s t) (g : MemPath t u) : MemPath s u := by
  obtain ⟨_, _, _, _, _, rfl⟩ := h
  obtain ⟨_, _, _, _, _, rfl⟩ := g
  exact ⟨_, _, _, _, _, rfl⟩

theorem foldl {α : Type} {f : State → α → State} (step : ∀ t a, MemPath t (f t a)) (l : List α) (s : State) : MemPath s (l.foldl f s) :=
  List.foldlRecOn _ _ (motive := MemPath s) (refl s) fun t h a _ => h.trans (step t a)

theorem of_routed (h : Routed s t) : MemPath s t := by
  obtain ⟨_, _, _, _, _, rfl, -⟩ := h
  exact ⟨_, _, _, _, _, rfl⟩

theorem od (h : MemPath s t) : t.od = s.od := by obtain ⟨_, _, _, _, _, rfl⟩ := h; rfl
theorem port (h : MemPath s t) : t.port = s.port := by obtain ⟨_, _, _, _, _, rfl⟩ := h; rfl

theorem out (h : MemPath s t) : t.out = s.out := by obtain ⟨_, _, _, _, _, rfl⟩ := h; rfl

theorem raiseFault (s : State) (f c d : Nat) : MemPath s (raiseFault s f c d) := ⟨_, _, _, _, _, raiseFault_frame s f c d⟩
theorem bumpC (s : State) (i j : Nat) : MemPath s (bumpC s i j) := ⟨_, _, _, _, _, rfl⟩
theorem setSlice (s : State) (l : Nat) (x : HomeSlice) : MemPath s (setSlice s l x) := ⟨_, _, _, _, _, rfl⟩
theorem setTracker (s : State) (l t : Nat) (k : Tracker) : MemPath s (setTracker s l t k) := ⟨_, _, _, _, _, rfl⟩
theorem setBuf (s : State) (l b : Nat) (e : BufEntry) : MemPath s (setBuf s l b e) := ⟨_, _, _, _, _, rfl⟩
theorem setMove (s : State) (m : Nat) (x : Move) : MemPath s (setMove s m x) := ⟨_, _, _, _, _, rfl⟩

theorem sendAll (s : State) (l : List FUnit) : MemPath s (sendAll s l) := of_routed (.sendAll _ _)
theorem remapAnswer (s : State) (l : Nat) (op : RemapOp) : MemPath s (remapAnswer s l op) := of_routed (.remapAnswer _ _ _)
theorem unmappedReport (s : State) (l g : Nat) : MemPath s (unmappedReport s l g) := of_routed (.unmappedReport _ _ _)
theorem sendMemWr (s : State) (l b : Nat) (e : BufEntry) (p : Loc) : MemPath s (sendMemWr s l b e p) := of_routed (.sendMemWr _ _ _ _ _)
theorem remapSend (s : State) (l : Nat) (op : RemapOp) (p : Loc) : MemPath s (remapSend s l op p) := of_routed (.remapSend _ _ _ _)
theorem remapHold (s : State) (l g page : Nat) (op : RemapOp) : MemPath s (remapHold s l g page op) := of_routed (.remapHold _ _ _ _ _)
theorem remapWith (s : State) (l g page : Nat) (op : RemapOp) (e : BitVec 48) : MemPath s (remapWith s l g page op e) := of_routed (.remapWith _ _ _ _ _ _)
theorem releasePage (s : State) (g p : Nat) : MemPath s (releasePage s g p) := of_routed (.releasePage _ _ _)

/-! Moves (R220, R223 to R226) -/

theorem askWrite (s : State) (w : RemapWrite) : MemPath s (askWrite s w) := by
  unfold Machine.askWrite
  split <;> exact ⟨_, _, _, _, _, rfl⟩

theorem abandonPage (s : State) (m : Nat) (x : Move) : MemPath s (abandonPage s m x) := by
  unfold Machine.abandonPage
  dsimp only
  refine trans ?_ (releasePage _ _ _)
  split
  · exact (setMove s m _).trans ((bumpC _ _ _).trans (raiseFault _ _ _ _))
  · exact (setMove s m _).trans (bumpC _ _ _)

theorem salvageEnd (s : State) (m : Nat) (x : Move) : MemPath s (salvageEnd s m x) := by
  unfold Machine.salvageEnd
  dsimp only
  split
  · exact setMove s _ _
  · exact (setMove s _ _).trans (askWrite _ _)

theorem restoreLost (s : State) (m : Nat) (x : Move) : MemPath s (restoreLost s m x) :=
  trans (t := dropWaiting s m) ⟨_, _, _, _, _, rfl⟩ (setMove _ _ _)

theorem moveLost (s : State) (p : Nat) (mask : BitVec 16) (m : Nat) : MemPath s (moveLost s p mask m) := by
  unfold Machine.moveLost
  split
  · exact refl s
  · next x _ =>
    extract_lets dst src s0 s1
    have dropped : MemPath s s0 := by
      unfold s0
      split
      · exact trans (t := dropWaiting s m) ⟨_, _, _, _, _, rfl⟩ (setMove _ _ _)
      · exact refl s
    have left : MemPath s s1 := by
      unfold s1
      split
      · exact dropped.trans (abandonPage _ _ _)
      · exact dropped
    clear_value s1
    split
    · split
      · exact restoreLost s _ _
      · exact refl s
    · split
      · exact refl s
      · split
        · exact left
        · dsimp only
          split
          · exact left.trans (salvageEnd _ _ _)
          · split
            · exact left.trans (setMove _ _ _)
            · generalize List.filter _ (List.range 512) = pages
              split
              · exact left.trans (salvageEnd _ _ _)
              · exact left.trans (setMove _ _ _)

theorem moveLoss (s : State) (p : Nat) (mask : BitVec 16) : MemPath s (moveLoss s p mask) := foldl (fun t m => moveLost t p mask m) _ s

end MemPath

/-! ### Records of moves, and the writes that they ask for (R220) -/

@[simp] theorem moveRec_setMove (s : State) (m : Nat) (x : Move) : moveRec (setMove s m x) m = some x := tabFind_put_same ..

theorem moveRec_congr {s t : State} (h : t.map.moves = s.map.moves) : moveRec t = moveRec s := by
  funext m; simp only [moveRec, h]

theorem askWrite_moves (s : State) (w : RemapWrite) : (askWrite s w).map.moves = s.map.moves := by
  unfold askWrite
  split <;> rfl

theorem askWrite_frame (s : State) (w : RemapWrite) : ∃ map, askWrite s w = { s with map := map } := by
  unfold askWrite
  split <;> exact ⟨_, rfl⟩

theorem askWrite_backing {s : State} (idle : s.map.write = none) (w : RemapWrite) : backing (askWrite s w) w.gran = w.entry := by
  unfold askWrite
  rw [idle]
  exact tabGet_set_same ..

/-! ### Dirty-page logging -/

/-- What the units that a proxy sends and the log channels that it serves touch: the dictionary, the fault sources, the counters, the
fabric and the veneer. -/
structure Noted (s t : State) : Prop where
  touched : ∃ od flt perf fab ven, t = { s with od := od, flt := flt, perf := perf, fab := fab, ven := ven }

namespace Noted

variable {s t u : State}

theorem refl (s : State) : Noted s s := ⟨_, _, _, _, _, rfl⟩

theorem trans (h : Noted s t) (g : Noted t u) : Noted s u := by
  obtain ⟨_, _, _, _, _, rfl⟩ := h
  obtain ⟨_, _, _, _, _, rfl⟩ := g
  exact ⟨_, _, _, _, _, rfl⟩

theorem swc (h : Noted s t) : t.swc = s.swc := by obtain ⟨_, _, _, _, _, rfl⟩ := h; rfl
theorem prox (h : Noted s t) : t.prox = s.prox := by obtain ⟨_, _, _, _, _, rfl⟩ := h; rfl
theorem out (h : Noted s t) : t.out = s.out := by obtain ⟨_, _, _, _, _, rfl⟩ := h; rfl
theorem mgmt (h : Noted s t) : t.mgmt = s.mgmt := by obtain ⟨_, _, _, _, _, rfl⟩ := h; rfl

theorem bumpC (s : State) (i j : Nat) : Noted s (bumpC s i j) := ⟨_, _, _, _, _, rfl⟩
theorem bumpVcs (s : State) (v e k : Nat) : Noted s (bumpVcs s v e k) := ⟨_, _, _, _, _, rfl⟩
theorem setLogCh (s : State) (c : Nat) (x : LogCh) : Noted s (setLogCh s c x) := ⟨_, _, _, _, _, rfl⟩
theorem odSet (s : State) (i j v : Nat) : Noted s (odSet s i j v) := ⟨_, _, _, _, _, rfl⟩

theorem send (s : State) (u : FUnit) : Noted s (send s u) := by rw [send_frame]; exact ⟨_, _, _, _, _, rfl⟩

theorem hostWrite (s : State) (v : Nat) (rid : BitVec 16) (addr : Nat) (data : List Byte) (poison : Bool) :
    Noted s (hostWrite s v rid addr data poison) := by
  unfold Machine.hostWrite
  split
  · exact refl s
  · unfold sendTlp
    rw [sendTlpBy_frame]
    exact ⟨_, _, _, _, _, rfl⟩

theorem lcbWrite (s : State) (c off : Nat) (data : List Byte) : Noted s (lcbWrite s c off data) := hostWrite ..

theorem lcbProducer (s : State) (c : Nat) : Noted s (lcbProducer s c) := (setLogCh s _ _).trans (lcbWrite ..)

theorem logState (s : State) (c : Nat) (x : LogCh) : Noted s (logState s c x) :=
  (setLogCh s c x).trans ((odSet _ _ _ _).trans (lcbWrite ..))

theorem bumpFn (s : State) (fn e k : Nat) : Noted s (bumpFn s fn e k) := by
  unfold Machine.bumpFn
  extract_lets perf s1
  have counted : Noted s s1 := by
    unfold s1
    split
    · exact ⟨_, _, _, _, _, rfl⟩
    · exact refl s
  clear_value s1
  split
  · exact counted.trans (bumpVcs ..)
  · exact counted

theorem logCount (s : State) (c e : Nat) : Noted s (logCount s c e) := by
  unfold Machine.logCount
  split
  · exact bumpFn ..
  · exact refl s

theorem logEntry (s : State) (c page : Nat) (x : LogCh) : Noted s (logEntry s c page x) := by
  unfold Machine.logEntry
  extract_lets v phase place s1 x1 s2
  have written : Noted s s2 := (hostWrite ..).trans ((setLogCh _ _ _).trans (bumpC ..))
  clear_value s2
  split
  · exact written.trans (lcbProducer ..)
  · exact written

theorem lpddrChecked (s : State) (a : Nat) : Noted s (lpddrChecked s a).1 := by
  unfold Machine.lpddrChecked
  split
  · dsimp only
    rw [raiseReport_frame]
    exact ⟨_, _, _, _, _, rfl⟩
  · exact refl s

theorem logEvent (s : State) (c a : Nat) : Noted s (logEvent s c a) := by
  unfold Machine.logEvent
  extract_lets x base len s1 pg q x1
  have checked : Noted s q.1 := by
    unfold q
    split
    · exact refl s
    · exact lpddrChecked ..
  clear_value q
  split
  · exact refl s
  · split
    · split
      · exact (odSet s _ _ _).trans (logState ..)
      · exact refl s
    · split
      · split
        · exact checked.trans ((logCount ..).trans ((logState ..).trans (bumpC ..)))
        · exact checked
      · split
        · exact refl s
        · split
          · split
            · exact (logCount ..).trans (logEntry ..)
            · exact (logCount ..).trans ((logState ..).trans (bumpC ..))
          · exact setLogCh ..

theorem logTrackers (s : State) (v a : Nat) : Noted s (logTrackers s v a) := by
  unfold Machine.logTrackers
  generalize List.range 64 = l
  refine List.foldlRecOn _ _ (motive := Noted s) (refl s) fun t h k _ => ?_
  split
  · exact h.trans (logEvent ..)
  · exact h

end Noted

end Sys2Proof.Proofs.Shared

/-!
Every command answers a next state, keeps the queue behind it and, outside `reachesManagement`, the management complex.
-/

namespace Sys2Proof.Proofs.Frames

open Sys2Proof Sys2Proof.Machine Sys2Proof.Laws Sys2Proof.Safety

/-- No branch of any meaning ends in a fault or a refusal: the commands named below choose between next states, every other one has
one next state. -/
theorem exec_answers (c : Instr) (s : State) : ∃ t : State, exec c s = .next t := by
  cases c
  case crossingUnitReceive | ringHop | starvationGuard | routeTableWrite | routeDrainComplete | islandDrainComplete |
    closingDrainTimeout | bridgeReady | bridgeSelfCheckFail | openingTimeout | upstreamTrainingRetry | vppbPartnerL0 |
    managedRemoveTimeout | parseIngress | cxlioRoute | setResponseMessageLimit | sendPpbCxlioConfigRequest | generateAerEvent |
    tunnelManagementCommand | perstAssert | vcsResetRelease | secondaryBusReset | egressFlitSent | portDown |
    poolPortExpanderResponse | proxyHostRequest | proxyHostWrite | proxyResponse | proxyBackoffEnd | proxySnoop | proxyBirsp |
    biconflict | moverCacheSnoop | snoopFilterFill | removalPassStep | rangeWalkStep | recoveryTimeout | marverPassStep |
    partitionClearDone | movePageAbandon | ackTimerExpire | nakReceived | replayTimerExpire | spareReq | spareAck | spareRefuse |
    resume | pauseTimeout | ts | trainingTimeout | retrainInterval | syncLoss | restartNoticeRepeat | quarantineExpire |
    pieceComplete | logProducerWriteback | supplySample | vauxPowerGood | vin12Qualified | startupStepComplete | crashSnapshot |
    auxiliaryDomainOff | slotTick | insertionDelayExpire | faultTimerExpire | retryTimerExpire | rampTimeout | gateWontRiseExpire |
    retryCountClear | governorEpoch | thermalNarrowing | thermalResponseEnd | powerCapExceeded | busAccess | busTimeout |
    lateResponse | eventLogPost | hello | commitWriteDone | writeDefaultImage | notify | mailboxNotifyFetch | faultReport | railFault |
    handlingTimerExpire | firmwareImage | getCapabilities | negotiateAlgorithms | finish | endSession | chunkSend | chunkGet | ideKm |
    ideCheckFailure | macGroupTimeout | debugToken | samplerFire | timeOffsetMeasured | holdoverLimit | tsiEdge | tsiPulseFiltered |
    resetNFall | resetRelease | refclkStable | refclkLost | moverCacheResponse | tierMoverResponse | culletRecordWriteDone =>
    simp only [exec, execCrossingUnitReceive, execRingHop, execStarvationGuard, execRouteTableWrite, execRouteDrainComplete,
      execIslandDrainComplete, execClosingDrainTimeout, execBridgeReady, execBridgeSelfCheckFail, execOpeningTimeout,
      execUpstreamTrainingRetry, execVppbPartnerL0, execManagedRemoveTimeout, execParseIngress, execCxlioRoute,
      execSetResponseMessageLimit, execSendPpbCxlioConfigRequest, execGenerateAerEvent, execTunnelManagementCommand, execPerstAssert,
      execVcsResetRelease, execSecondaryBusReset, execEgressFlitSent, execPortDown, execPoolPortExpanderResponse, execProxyHostRequest,
      execProxyHostWrite, execProxyResponse, execProxyBackoffEnd, execProxySnoop, execProxyBirsp, execBiconflict, execMoverCacheSnoop,
      execSnoopFilterFill, execRemovalPassStep, execRangeWalkStep, execRecoveryTimeout, execMarverPassStep, execPartitionClearDone,
      execMovePageAbandon, execAckTimerExpire, execNakReceived, execReplayTimerExpire, execSpareReq, execSpareAck, execSpareRefuse,
      execResume, execPauseTimeout, execTs, execTrainingTimeout, execRetrainInterval, execSyncLoss, execRestartNoticeRepeat,
      execQuarantineExpire, execPieceComplete, execLogProducerWriteback, execSupplySample, execVauxPowerGood, execVin12Qualified,
      execStartupStepComplete, execCrashSnapshot, execAuxiliaryDomainOff, execSlotTick, execInsertionDelayExpire, execFaultTimerExpire,
      execRetryTimerExpire, execRampTimeout, execGateWontRiseExpire, execRetryCountClear, execGovernorEpoch, execThermalNarrowing,
      execThermalResponseEnd, execPowerCapExceeded, execBusAccess, execBusTimeout, execLateResponse, execEventLogPost, execHello,
      execCommitWriteDone, execWriteDefaultImage, execNotify, execMailboxNotifyFetch, execFaultReport, execRailFault,
      execHandlingTimerExpire, execFirmwareImage, execGetCapabilities, execNegotiateAlgorithms, execFinish, execEndSession,
      execChunkSend, execChunkGet, execIdeKm, execIdeCheckFailure, execMacGroupTimeout, execDebugToken, execSamplerFire,
      execTimeOffsetMeasured, execHoldoverLimit, execTsiEdge, execTsiPulseFiltered, execResetNFall, execResetRelease, execRefclkStable,
      execRefclkLost, execMoverCacheResponse, execTierMoverResponse, execCulletRecordWriteDone]
    (repeat' split) <;> exact ⟨_, rfl⟩
  all_goals exact ⟨_, rfl⟩

/-- Each command outside `reachesManagement` keeps the management complex and the queue, by the frame lemma of its meaning. -/
theorem exec_okept (c : Instr) (s : State) (h : reachesManagement c = false) : okept s (exec c s) := by
  cases c
  case busAccess | busTimeout | lateResponse | apertureAccess | eventLogPost | mpuCommit | mpuCopy | exceptionReturn | faultReport |
    railFault | handlingTimerExpire | samplerFire | supplySample | crashSnapshot | auxiliaryDomainOff | resetRelease |
    startupStepComplete => cases h
  case crossingUnitReceive c w => exact execCrossingUnitReceive_keep c w s
  case crossingResend c => exact execCrossingResend_keep c s
  case unitInjection n a v => exact execUnitInjection_keep n a v s
  case ringHop m => exact execRingHop_keep m s
  case starvationGuard q => exact execStarvationGuard_keep q s
  case routeTableWrite t => exact execRouteTableWrite_keep t s
  case routeCommit => exact execRouteCommit_keep s
  case routeDrainComplete => exact execRouteDrainComplete_keep s
  case islandRequestClosed k => exact execIslandRequestClosed_keep k s
  case islandRequestOpen k => exact execIslandRequestOpen_keep k s
  case islandDrainComplete k => exact execIslandDrainComplete_keep k s
  case closingDrainTimeout k => exact execClosingDrainTimeout_keep k s
  case bridgeReady k => exact execBridgeReady_keep k s
  case bridgeSelfCheckFail k => exact execBridgeSelfCheckFail_keep k s
  case openingTimeout k => exact execOpeningTimeout_keep k s
  case portRoleWrite p r => exact execPortRoleWrite_keep p r s
  case portWidthWrite p w => exact execPortWidthWrite_keep p w s
  case portConfigWrite p x => exact execPortConfigWrite_keep p x s
  case portTrained p x => exact execPortTrained_keep p x s
  case upstreamTrainingRetry p => exact execUpstreamTrainingRetry_keep p s
  case l0pWidthRequest p w => exact execL0pWidthRequest_keep p w s
  case laneMargining p lane timing steps => exact execLaneMargining_keep p lane timing steps s
  case bindVppb src v d p l => exact execBindVppb_keep src v d p l s
  case unbindVppb src v d opt => exact execUnbindVppb_keep src v d opt s
  case vppbPartnerL0 v d => exact execVppbPartnerL0_keep v d s
  case managedRemoveTimeout v d => exact execManagedRemoveTimeout_keep v d s
  case parseIngress p ms => exact execParseIngress_keep p ms s
  case cxlioRoute p vn => exact execCxlioRoute_keep p vn s
  case hdmDecoderCommit v ix base size ways gran commit => exact execHdmDecoderCommit_keep v ix base size ways gran commit s
  case decoderPoolWindowWrite v ix len x => exact execDecoderPoolWindowWrite_keep v ix len x s
  case initiateDynamicCapacityAdd v xs => exact execInitiateDynamicCapacityAdd_keep v xs s
  case addDcResponse v bases => exact execAddDcResponse_keep v bases s
  case releaseDynamicCapacity v bases => exact execReleaseDynamicCapacity_keep v bases s
  case initiateDynamicCapacityRelease v bases forced => exact execInitiateDynamicCapacityRelease_keep v bases forced s
  case extentRemoved v base => exact execExtentRemoved_keep v base s
  case identify => exact execIdentify_keep s
  case backgroundOperationStatus => exact execBackgroundOperationStatus_keep s
  case getResponseMessageLimit => exact execGetResponseMessageLimit_keep s
  case setResponseMessageLimit n => exact execSetResponseMessageLimit_keep n s
  case identifySwitchDevice => exact execIdentifySwitchDevice_keep s
  case getPhysicalPortState ps => exact execGetPhysicalPortState_keep ps s
  case physicalPortControl p op => exact execPhysicalPortControl_keep p op s
  case sendPpbCxlioConfigRequest p reg w => exact execSendPpbCxlioConfigRequest_keep p reg w s
  case getVirtualCxlSwitchInfo v => exact execGetVirtualCxlSwitchInfo_keep v s
  case generateAerEvent v d err => exact execGenerateAerEvent_keep v d err s
  case tunnelManagementCommand p bytes => exact execTunnelManagementCommand_keep p bytes s
  case sendLdCxlioConfigRequest p ld a => exact execSendLdCxlioConfigRequest_keep p ld a s
  case sendLdCxlioMemoryRequest p ld a => exact execSendLdCxlioMemoryRequest_keep p ld a s
  case getDcdInfo => exact execGetDcdInfo_keep s
  case getHostDcRegionConfiguration v => exact execGetHostDcRegionConfiguration_keep v s
  case setDcRegionConfiguration v r base len => exact execSetDcRegionConfiguration_keep v r base len s
  case getDcRegionExtentLists v from_ n => exact execGetDcRegionExtentLists_keep v from_ n s
  case fmapiUnsupported opcode => exact execFmapiUnsupported_keep opcode s
  case poolLdLost p mask => exact execPoolLdLost_keep p mask s
  case poisonSweepStep => exact execPoisonSweepStep_keep s
  case vcsEnableWrite v on => exact execVcsEnableWrite_keep v on s
  case perstAssert p hot => exact execPerstAssert_keep p hot s
  case vcsResetRelease p => exact execVcsResetRelease_keep p s
  case secondaryBusReset v d => exact execSecondaryBusReset_keep v d s
  case portHotReset p => exact execPortHotReset_keep p s
  case portFundamentalReset p => exact execPortFundamentalReset_keep p s
  case portRetrain p => exact execPortRetrain_keep p s
  case portCxlReset p => exact execPortCxlReset_keep p s
  case perstRelease p => exact execPerstRelease_keep p s
  case bufferLimitCommit => exact execBufferLimitCommit_keep s
  case raisedLimitsActive d => exact execRaisedLimitsActive_keep d s
  case cutThroughUnitArrive port v => exact execCutThroughUnitArrive_keep port v s
  case egressFlitSent port vn => exact execEgressFlitSent_keep port vn s
  case ageingExamination hp => exact execAgeingExamination_keep hp s
  case portDown p => exact execPortDown_keep p s
  case traceRingRead n => exact execTraceRingRead_keep n s
  case traceReadIndexWrite ix => exact execTraceReadIndexWrite_keep ix s
  case homeIntakeCycle l => exact execHomeIntakeCycle_keep l s
  case seniorHoldExpire l line => exact execSeniorHoldExpire_keep l line s
  case seniorEntryTimeout l ix => exact execSeniorEntryTimeout_keep l ix s
  case remapCacheFill l g bad => exact execRemapCacheFill_keep l g bad s
  case poolPortMemrd p => exact execPoolPortMemrd_keep p s
  case poolPortMemwr p => exact execPoolPortMemwr_keep p s
  case wrpull p => exact execWrpull_keep p s
  case poolPortMemdata p => exact execPoolPortMemdata_keep p s
  case poolPortExpanderResponse p dat => exact execPoolPortExpanderResponse_keep p dat s
  case proxyHostRequest v => exact execProxyHostRequest_keep v s
  case proxyHostWrite v => exact execProxyHostWrite_keep v s
  case proxyResponse v dat => exact execProxyResponse_keep v dat s
  case proxyBackoffEnd ag t => exact execProxyBackoffEnd_keep ag t s
  case proxySnoop v => exact execProxySnoop_keep v s
  case proxyBirsp v => exact execProxyBirsp_keep v s
  case biconflict v => exact execBiconflict_keep v s
  case remoteAgentReceive a v => exact execRemoteAgentReceive_keep a v s
  case combinedReply a => exact execCombinedReply_keep a s
  case moverCacheSnoop => exact execMoverCacheSnoop_keep s
  case snoopFilterFill l t => exact execSnoopFilterFill_keep l t s
  case snoopFilterInsertion l => exact execSnoopFilterInsertion_keep l s
  case declarePeerLost w => exact execDeclarePeerLost_keep w s
  case removalPassStep => exact execRemovalPassStep_keep s
  case removalPassComplete => exact execRemovalPassComplete_keep s
  case flushRangeExecute base limit => exact execFlushRangeExecute_keep base limit s
  case rangeWalkStep ix => exact execRangeWalkStep_keep ix s
  case rangeWalkComplete ix => exact execRangeWalkComplete_keep ix s
  case recoveryFlushComplete v => exact execRecoveryFlushComplete_keep v s
  case gpfCompletion v => exact execGpfCompletion_keep v s
  case recoverydone w => exact execRecoverydone_keep w s
  case abandonVcs ix v => exact execAbandonVcs_keep ix v s
  case abandonSwitch ix w => exact execAbandonSwitch_keep ix w s
  case recoveryTimeout ix => exact execRecoveryTimeout_keep ix s
  case recoveryRequestReceive w => exact execRecoveryRequestReceive_keep w s
  case directoryUncorrectable e => exact execDirectoryUncorrectable_keep e s
  case marverPassStep blocks way => exact execMarverPassStep_keep blocks way s
  case partitionCommit => exact execPartitionCommit_keep s
  case partitionClearDone => exact execPartitionClearDone_keep s
  case remapEntryWrite g v => exact execRemapEntryWrite_keep g v s
  case remapWriteComplete => exact execRemapWriteComplete_keep s
  case openRemapGate => exact execOpenRemapGate_keep s
  case remapBulkLoad records => exact execRemapBulkLoad_keep records s
  case moveExecute sess g dest restore => exact execMoveExecute_keep sess g dest restore s
  case movePageStart m => exact execMovePageStart_keep m s
  case movePageClear m => exact execMovePageClear_keep m s
  case movePageComplete m => exact execMovePageComplete_keep m s
  case movePageAbandon m => exact execMovePageAbandon_keep m s
  case moveGranuleClear m => exact execMoveGranuleClear_keep m s
  case moveCancel m => exact execMoveCancel_keep m s
  case salvagePage m => exact execSalvagePage_keep m s
  case restoreFillComplete m => exact execRestoreFillComplete_keep m s
  case guardCommit => exact execGuardCommit_keep s
  case guardStageSwap g => exact execGuardStageSwap_keep g s
  case copyActiveSetToShadow => exact execCopyActiveSetToShadow_keep s
  case aulumFlitReceive a blocks => exact execAulumFlitReceive_keep a blocks s
  case aulumFlitTransmit a => exact execAulumFlitTransmit_keep a s
  case ackTimerExpire a => exact execAckTimerExpire_keep a s
  case nakReceived a => exact execNakReceived_keep a s
  case replayTimerExpire a => exact execReplayTimerExpire_keep a s
  case spareReq a blocks => exact execSpareReq_keep a blocks s
  case spareAck a blocks => exact execSpareAck_keep a blocks s
  case spareRefuse a blocks => exact execSpareRefuse_keep a blocks s
  case resume a blocks => exact execResume_keep a blocks s
  case pauseTimeout a => exact execPauseTimeout_keep a s
  case ts a work spares blocks => exact execTs_keep a work spares blocks s
  case trainingTimeout a => exact execTrainingTimeout_keep a s
  case retrainInterval a => exact execRetrainInterval_keep a s
  case syncLoss a => exact execSyncLoss_keep a s
  case aulumPortEnable a => exact execAulumPortEnable_keep a s
  case aulumPortDisable a => exact execAulumPortDisable_keep a s
  case restartGraceExpire => exact execRestartGraceExpire_keep s
  case restartNotice w epoch => exact execRestartNotice_keep w epoch s
  case restartNoticeRepeat w => exact execRestartNoticeRepeat_keep w s
  case restartNoticeAck w => exact execRestartNoticeAck_keep w s
  case quarantineExpire q => exact execQuarantineExpire_keep q s
  case systemNumberingWrite ix v => exact execSystemNumberingWrite_keep ix v s
  case queueEnable fn isCq loc addr => exact execQueueEnable_keep fn isCq loc addr s
  case qcbEnableReadDone isCq q => exact execQcbEnableReadDone_keep isCq q s
  case queueDisable fn isCq loc => exact execQueueDisable_keep fn isCq loc s
  case sqStopComplete q => exact execSqStopComplete_keep q s
  case sqDoorbell fn loc => exact execSqDoorbell_keep fn loc s
  case cqDoorbell fn loc => exact execCqDoorbell_keep fn loc s
  case sqQcbReadDone q => exact execSqQcbReadDone_keep q s
  case descriptorFetchDone q => exact execDescriptorFetchDone_keep q s
  case nop q => exact execNop_keep q s
  case copy q => exact execCopy_keep q s
  case fill q => exact execFill_keep q s
  case zero q => exact execZero_keep q s
  case compare q => exact execCompare_keep q s
  case check q => exact execCheck_keep q s
  case atomicFetchAdd q => exact execAtomicFetchAdd_keep q s
  case atomicSwap q => exact execAtomicSwap_keep q s
  case atomicCompareAndSwap q => exact execAtomicCompareAndSwap_keep q s
  case flush q => exact execFlush_keep q s
  case fence q => exact execFence_keep q s
  case mark q => exact execMark_keep q s
  case migrateGranule q => exact execMigrateGranule_keep q s
  case pieceComplete q ix => exact execPieceComplete_keep q ix s
  case descriptorComplete q ix => exact execDescriptorComplete_keep q ix s
  case poolMemoryRead => exact execPoolMemoryRead_keep s
  case poolMemoryWrite => exact execPoolMemoryWrite_keep s
  case poolDeferrableMemoryWrite => exact execPoolDeferrableMemoryWrite_keep s
  case poolFetchadd => exact execPoolFetchadd_keep s
  case poolSwap => exact execPoolSwap_keep s
  case poolCas => exact execPoolCas_keep s
  case flushWholeMoverCache => exact execFlushWholeMoverCache_keep s
  case checkUnitOwnerWrite u fn => exact execCheckUnitOwnerWrite_keep u fn s
  case checkUnitContextWrite u ctx => exact execCheckUnitContextWrite_keep u ctx s
  case functionAssign f v slot => exact execFunctionAssign_keep f v slot s
  case functionUnassign f => exact execFunctionUnassign_keep f s
  case queueMove sess isCq q owner loc => exact execQueueMove_keep sess isCq q owner loc s
  case shareMove a b n => exact execShareMove_keep a b n s
  case counterSetMove c fn => exact execCounterSetMove_keep c fn s
  case logProducerWriteback c => exact execLogProducerWriteback_keep c s
  case logDoorbell v c => exact execLogDoorbell_keep v c s
  case logRearmDone c => exact execLogRearmDone_keep c s
  case logEnable c lcb => exact execLogEnable_keep c lcb s
  case logDisable c => exact execLogDisable_keep c s
  case resetBitmap c ix => exact execResetBitmap_keep c ix s
  case bitmapClearDone c => exact execBitmapClearDone_keep c s
  case controlPageReset n => exact execControlPageReset_keep n s
  case functionLevelReset n => exact execFunctionLevelReset_keep n s
  case vfEnableClear v => exact execVfEnableClear_keep v s
  case functionReset n => exact execFunctionReset_keep n s
  case functionResetComplete n => exact execFunctionResetComplete_keep n s
  case vauxPowerGood => exact execVauxPowerGood_keep s
  case vin12Qualified => exact execVin12Qualified_keep s
  case slotTick c m => exact execSlotTick_keep c m s
  case insertionDelayExpire c => exact execInsertionDelayExpire_keep c s
  case faultTimerExpire c => exact execFaultTimerExpire_keep c s
  case retryTimerExpire c => exact execRetryTimerExpire_keep c s
  case rampTimeout c => exact execRampTimeout_keep c s
  case gateWontRiseExpire c => exact execGateWontRiseExpire_keep c s
  case retryCountClear c => exact execRetryCountClear_keep c s
  case slotChannelEnable c => exact execSlotChannelEnable_keep c s
  case slotChannelDisable c => exact execSlotChannelDisable_keep c s
  case clearLatch c => exact execClearLatch_keep c s
  case powerRequest c on byHost => exact execPowerRequest_keep c on byHost s
  case governorEpoch measured readings demand => exact execGovernorEpoch_keep measured readings demand s
  case thermalNarrowing => exact execThermalNarrowing_keep s
  case thermalResponseEnd => exact execThermalResponseEnd_keep s
  case powerCapExceeded => exact execPowerCapExceeded_keep s
  case apertureSelectWrite v => exact execApertureSelectWrite_keep v s
  case hello seq reqId via pmax omax mode maxMsg name spdm => exact execHello_keep seq reqId via pmax omax mode maxMsg name spdm s
  case bye r => exact execBye_keep r s
  case keepalive r => exact execKeepalive_keep r s
  case read r items => exact execRead_keep r items s
  case write r items => exact execWrite_keep r items s
  case describe r idx sub => exact execDescribe_keep r idx sub s
  case segRead r idx sub offset length => exact execSegRead_keep r idx sub offset length s
  case segWrite r idx sub first last offset total data => exact execSegWrite_keep r idx sub first last offset total data s
  case commit r options => exact execCommit_keep r options s
  case commitWriteDone => exact execCommitWriteDone_keep s
  case writeDefaultImage arg => exact execWriteDefaultImage_keep arg s
  case subscribe r kind sub idx interval => exact execSubscribe_keep r kind sub idx interval s
  case unsubscribe r n => exact execUnsubscribe_keep r n s
  case notify id => exact execNotify_keep id s
  case sessionTimeout id => exact execSessionTimeout_keep id s
  case usbDetach => exact execUsbDetach_keep s
  case mailboxNotifyFetch v => exact execMailboxNotifyFetch_keep v s
  case acknowledgeC2Source n sid => exact execAcknowledgeC2Source_keep n sid s
  case enterSafeState => exact execEnterSafeState_keep s
  case resetFjq9640 => exact execResetFjq9640_keep s
  case clearStickyBit n => exact execClearStickyBit_keep n s
  case clearFirstErrorLatch => exact execClearFirstErrorLatch_keep s
  case injectionUnlock sid => exact execInjectionUnlock_keep sid s
  case injectionLock => exact execInjectionLock_keep s
  case injectStop f => exact execInjectStop_keep f s
  case injectOneShot f => exact execInjectOneShot_keep f s
  case injectContinuous f => exact execInjectContinuous_keep f s
  case injectRail f => exact execInjectRail_keep f s
  case sourceConfigurationWrite rs => exact execSourceConfigurationWrite_keep rs s
  case collectorSelfError => exact execCollectorSelfError_keep s
  case writeSnapshotNow => exact execWriteSnapshotNow_keep s
  case withdrawPendingRecord n => exact execWithdrawPendingRecord_keep n s
  case retirePhysicalSlice n => exact execRetirePhysicalSlice_keep n s
  case culletWriteRetry => exact execCulletWriteRetry_keep s
  case raiseRollbackCounter c => exact execRaiseRollbackCounter_keep c s
  case firmwareImage sid ix => exact execFirmwareImage_keep sid ix s
  case revokeKeySlot sid k => exact execRevokeKeySlot_keep sid k s
  case certifiedPackage sid p => exact execCertifiedPackage_keep sid p s
  case getVersion c => exact execGetVersion_keep c s
  case getCapabilities c v => exact execGetCapabilities_keep c v s
  case negotiateAlgorithms c algs => exact execNegotiateAlgorithms_keep c algs s
  case getDigests c => exact execGetDigests_keep c s
  case getCertificate c slot offset length => exact execGetCertificate_keep c slot offset length s
  case challenge c => exact execChallenge_keep c s
  case getMeasurements c op signed => exact execGetMeasurements_keep c op signed s
  case keyExchange c => exact execKeyExchange_keep c s
  case finish c sid verified => exact execFinish_keep c sid verified s
  case heartbeat c sid => exact execHeartbeat_keep c sid s
  case keyUpdate c sid => exact execKeyUpdate_keep c sid s
  case endSession c sid => exact execEndSession_keep c sid s
  case chunkSend c seq data last => exact execChunkSend_keep c seq data last s
  case chunkGet c seq total => exact execChunkGet_keep c seq total s
  case vendorDefinedRequest c => exact execVendorDefinedRequest_keep c s
  case spdmUnsupportedRequest c => exact execSpdmUnsupportedRequest_keep c s
  case ideKm p c sid op => exact execIdeKm_keep p c sid op s
  case ideCheckFailure p => exact execIdeCheckFailure_keep p s
  case aulumKeyWrite a tx k key mode => exact execAulumKeyWrite_keep a tx k key mode s
  case transmitRollover a => exact execTransmitRollover_keep a s
  case macGroupTimeout a => exact execMacGroupTimeout_keep a s
  case debugToken sid t => exact execDebugToken_keep sid t s
  case lockDebug => exact execLockDebug_keep s
  case debugTokenExpire => exact execDebugTokenExpire_keep s
  case healthTestFailure => exact execHealthTestFailure_keep s
  case takeSnapshot => exact execTakeSnapshot_keep s
  case samplerEnable k on => exact execSamplerEnable_keep k on s
  case hostSamplerEnable v on vector event periodLow periodHigh => exact execHostSamplerEnable_keep v on vector event periodLow periodHigh s
  case timeOffsetMeasured off gm => exact execTimeOffsetMeasured_keep off gm s
  case syncTimeout => exact execSyncTimeout_keep s
  case holdoverLimit => exact execHoldoverLimit_keep s
  case tsiEdge ix rising => exact execTsiEdge_keep ix rising s
  case tsiPulseFiltered ix width => exact execTsiPulseFiltered_keep ix width s
  case captureQueueRead ix n => exact execCaptureQueueRead_keep ix n s
  case resetNFall => exact execResetNFall_keep s
  case refclkStable r => exact execRefclkStable_keep r s
  case refclkLost r => exact execRefclkLost_keep r s
  case cqQcbReadDone q => exact execCqQcbReadDone_keep q s
  case moverCacheResponse dat => exact execMoverCacheResponse_keep dat s
  case tierMoverResponse dat => exact execTierMoverResponse_keep dat s
  case culletRecordWriteDone n => exact execCulletRecordWriteDone_keep n s
  case command r idx sub type arg => exact execCommand_keep r idx sub type arg s
/-! ### The queue behind the commands that reach the management complex -/

/-- An outcome whose next state keeps the queue of commands. -/
def KeepsQueue (s : State) (o : Host.Outcome State Fault Refusal) : Prop := ∀ t, o = .next t → t.pending = s.pending

theorem keepsQueue_next {s t : State} (h : t.pending = s.pending) : KeepsQueue s (.next t) := by
  rintro _ ⟨⟩; exact h

theorem KeepsQueue.ite {s : State} {c : Prop} [Decidable c] {o p : Host.Outcome State Fault Refusal} (ho : KeepsQueue s o)
    (hp : KeepsQueue s p) : KeepsQueue s (if c then o else p) := by
  split <;> assumption

theorem keepsQueue_of_okept {s : State} {o : Host.Outcome State Fault Refusal} (h : okept s o) : KeepsQueue s o := by
  rintro t rfl; exact h.2

@[simp] theorem accepted_pending (s : State) (t : Nat) (r : BusReq) : (accepted s t r).pending = s.pending :=
  (accepted_outstanding s t r).1
@[simp] theorem fetchAgain_pending (s : State) (r : BusReq) : (fetchAgain s r).pending = s.pending := (fetchAgain_kept s r).1
@[simp] theorem serveTarget_pending (s : State) (r : BusReq) (t : Target) (ok : Nat → Bool) :
    (serveTarget s r t ok).pending = s.pending := (serveTarget_kept s r t ok).1
@[simp] theorem notOutstanding_pending (s : State) (m : Nat) (x : BusTxn) : (notOutstanding s m x).pending = s.pending := rfl

@[simp] theorem unanswered_pending {s t : State} (h : t.pending = s.pending) : (unanswered s t).pending = s.pending := by
  unfold unanswered; split
  · rfl
  · exact h

@[simp] theorem busIssue_pending (s : State) (r : BusReq) : (busIssue s r).pending = s.pending := by
  unfold busIssue
  split
  · rfl
  · dsimp only
    split
    · simp [(wholeAccess_kept _ r).1]
    · split
      · simp [(partWrite_kept _ r _ _).1]
      · simp

theorem serveHeld_pending (s : State) (h : HeldTxn) : (serveHeld s h).pending = s.pending := by
  unfold serveHeld
  split
  · rfl
  · dsimp only
    split
    · simp
    · split
      · simp
      · split <;> simp

theorem serveNext_pending (n fuel : Nat) : ∀ s : State, (serveNext n fuel s).pending = s.pending := by
  induction fuel with
  | zero => intro s; rfl
  | succ fuel ih =>
    intro s
    unfold serveNext
    split
    · split
      · rfl
      · rw [ih, serveHeld_pending]
    · rfl

theorem execBusAccess_queue (l : List BusReq) (s : State) : KeepsQueue s (execBusAccess l s) := by
  unfold execBusAccess
  dsimp only
  split <;> exact keepsQueue_next (by simp)

theorem execBusTimeout_queue (m : Fin 6) (i : Fin 16) (s : State) : KeepsQueue s (execBusTimeout m i s) := by
  unfold execBusTimeout
  split <;> exact keepsQueue_next (by simp)

theorem execLateResponse_queue (m : Fin 6) (i : Fin 16) (s : State) : KeepsQueue s (execLateResponse m i s) := by
  unfold execLateResponse
  split
  · exact .ite (keepsQueue_next (by rw [serveNext_pending, serveHeld_pending])) (keepsQueue_next rfl)
  · exact keepsQueue_next rfl

theorem execApertureAccess_queue (m : Fin 6) (i : Fin 16) (o : Fin 0x40000000) (k : BusKind) (s : State) :
    KeepsQueue s (execApertureAccess m i o k s) := keepsQueue_next (apertureAccess_kept s m i o k).1

theorem execEventLogPost_queue (m : Fin 6) (i : Fin 16) (c : BitVec 16) (d : BitVec 192) (s : State) :
    KeepsQueue s (execEventLogPost m i c d s) := by
  unfold execEventLogPost
  split
  · next e => exact keepsQueue_next (eventPost_kept _ _ _ _ e).1
  · exact keepsQueue_next (by simp)

theorem execExceptionReturn_queue (k : Fin 4) (s : State) : KeepsQueue s (execExceptionReturn k s) := keepsQueue_next rfl

theorem execFaultReport_queue (f : Fin 512) (own : Option (BitVec 8 × BitVec 48 × BitVec 192)) (s : State) :
    KeepsQueue s (execFaultReport f own s) := by
  unfold execFaultReport
  refine .ite (keepsQueue_next rfl) ?_
  split
  · exact .ite (keepsQueue_next rfl) (keepsQueue_next (by simp))
  · split
    · exact .ite (keepsQueue_next rfl) (keepsQueue_next (by simp))
    · exact keepsQueue_next rfl

theorem execRailFault_queue (f : Fin 512) (b : Bool) (s : State) : KeepsQueue s (execRailFault f b s) :=
  .ite (.ite (keepsQueue_next rfl) (keepsQueue_next (by simp))) (keepsQueue_next rfl)

theorem execHandlingTimerExpire_queue (f : Fin 512) (s : State) : KeepsQueue s (execHandlingTimerExpire f s) := by
  unfold execHandlingTimerExpire
  split
  · exact keepsQueue_next rfl
  · exact .ite (keepsQueue_next (by simp)) (keepsQueue_next (by simp))

theorem traceSpecial_pending {s u : State} {tap d v : Nat} {k : Bool} {h : BitVec 128} {o : Option Nat}
    (e : traceSpecial s tap d v k h = (u, o)) : u.pending = s.pending := by
  rw [← (traceSpecial_keep s tap d v k h).2, e]

@[simp] theorem samplerFire_pending (s : State) (k : Nat) : (samplerFire s k).pending = s.pending := by
  unfold samplerFire
  dsimp only
  split
  · rfl
  · split
    · split
      · next e => simp [traceSpecial_pending e]
      · next e => simp [traceSpecial_pending e]
    · simp

theorem execSamplerFire_queue (k : Fin 72) (s : State) : KeepsQueue s (execSamplerFire k s) :=
  .ite (.ite (keepsQueue_next (by simp)) (keepsQueue_next rfl)) (.ite (keepsQueue_next (by simp)) (keepsQueue_next rfl))

theorem execSupplySample_queue (a b c d e : Nat) (s : State) : KeepsQueue s (execSupplySample a b c d e s) := by
  unfold execSupplySample
  exact .ite (keepsQueue_next (by simp)) (.ite (keepsQueue_next (by simp)) (.ite (keepsQueue_next (by simp)) (keepsQueue_next (by simp))))

theorem execCrashSnapshot_queue (s : State) : KeepsQueue s (execCrashSnapshot s) := by
  unfold execCrashSnapshot
  exact .ite (.ite (keepsQueue_next (by simp)) (keepsQueue_next (by simp))) (keepsQueue_next rfl)

theorem execAuxiliaryDomainOff_queue (s : State) : KeepsQueue s (execAuxiliaryDomainOff s) :=
  .ite (keepsQueue_next (by simp)) (keepsQueue_next rfl)

theorem execResetRelease_queue (s : State) : KeepsQueue s (execResetRelease s) :=
  .ite (keepsQueue_next (by simp)) (keepsQueue_next rfl)

@[simp] theorem bootKind_pending (s : State) (k : Nat) (b : Bool) : (bootKind s k b).pending = s.pending := by
  unfold bootKind
  dsimp only
  split <;> simp

@[simp] theorem startBoot_pending (s : State) (f : StartupFind) : (startBoot s f).pending = s.pending := by
  unfold startBoot
  split
  · split
    · simp
    · rfl
  · rfl

theorem execStartupStepComplete_queue (f : StartupFind) (s : State) : KeepsQueue s (execStartupStepComplete f s) := by
  unfold execStartupStepComplete
  refine .ite (keepsQueue_next rfl) ?_
  split
  · exact .ite (keepsQueue_next (by simp)) (keepsQueue_next rfl)
  · exact keepsQueue_next (by simp)
  · exact .ite (keepsQueue_next (by simp)) (keepsQueue_next rfl)
  all_goals exact keepsQueue_next (by simp)

/-- The queue behind a command, whichever complex the command reaches. -/
theorem exec_keepsQueue (c : Instr) (s : State) : KeepsQueue s (exec c s) := by
  by_cases h : reachesManagement c = false
  · exact keepsQueue_of_okept (exec_okept c s h)
  · cases c
    case busAccess l => exact execBusAccess_queue l s
    case busTimeout m i => exact execBusTimeout_queue m i s
    case lateResponse m i => exact execLateResponse_queue m i s
    case apertureAccess m i o k => exact execApertureAccess_queue m i o k s
    case eventLogPost m i c d => exact execEventLogPost_queue m i c d s
    case mpuCommit k => exact keepsQueue_next (mpuCommit_pending s k)
    case mpuCopy k => exact keepsQueue_next (mpuCopy_pending s k)
    case exceptionReturn k => exact execExceptionReturn_queue k s
    case faultReport f own => exact execFaultReport_queue f own s
    case railFault f b => exact execRailFault_queue f b s
    case handlingTimerExpire f => exact execHandlingTimerExpire_queue f s
    case samplerFire k => exact execSamplerFire_queue k s
    case supplySample a b c d e => exact execSupplySample_queue a b c d e s
    case crashSnapshot => exact execCrashSnapshot_queue s
    case auxiliaryDomainOff => exact execAuxiliaryDomainOff_queue s
    case resetRelease => exact execResetRelease_queue s
    case startupStepComplete f => exact execStartupStepComplete_queue f s
    all_goals exact absurd rfl h

/-- Settles O58: every meaning ends in a next state, and keeps the queue. -/
theorem queueKept : Obligations.QueueKept := fun c s =>
  have ⟨t, ht⟩ := exec_answers c s
  ⟨t, ht, exec_keepsQueue c s t ht⟩

/-- Settles O59: the frame of every command outside `reachesManagement`. -/
theorem managementIsolated : Obligations.ManagementIsolated := by
  intro c s t h ht
  have kept := exec_okept c s h
  rw [ht] at kept
  exact kept.1

end Sys2Proof.Proofs.Frames

/-!
The state after reset, and what a step does on a queue and on an empty one.
-/

namespace Sys2Proof.Proofs.Steps

open Sys2Proof Sys2Proof.Machine Sys2Proof.Laws

theorem coreSt_reset (k : Nat) : coreSt State.reset k = coreReset := rfl

theorem counter_reset (n : Nat) : counter State.reset n = 0 := rfl

theorem managementSound_reset : Safety.managementSound State.reset = true := rfl

/-- Settles O1: no table of the reset state lists a counter, a core or an outstanding transaction. -/
theorem resetState : Obligations.ResetState :=
  ⟨rfl, rfl, rfl, rfl, rfl, rfl, rfl, rfl, counter_reset, fun k _ => by rw [coreSt_reset]; rfl, managementSound_reset⟩

/-- Settles O2: the front of the queue decides which branch `step` takes. -/
theorem stepRunsFront : Obligations.StepRunsFront := by
  intro c rest s h
  simp only [step, h]

theorem step_of_empty {s : State} (h : s.pending = []) : step s = .next (tick s) := by
  simp only [step, h]

/-- R480: what a nanosecond adds to device time where nothing is slewed out at it. -/
theorem tick_between {s : State} (h : s.time.clock % 10000 ≠ 9999) :
    (tick s).time.devTime = s.time.devTime + 1 ∧ (tick s).time.slewLeft = s.time.slewLeft := by
  simp [tick, h]

/-- R480: at each 10,000th nanosecond a LOCKED device slews one out, forward or back. -/
theorem tick_forward {s : State} (h : s.time.clock % 10000 = 9999) (locked : odGet s 0xC050 6 = 1) (left : 0 < s.time.slewLeft) :
    (tick s).time.devTime = s.time.devTime + 2 ∧ (tick s).time.slewLeft = s.time.slewLeft - 1 := by
  simp [tick, h, locked, left, BitVec.add_assoc]

theorem tick_back {s : State} (h : s.time.clock % 10000 = 9999) (locked : odGet s 0xC050 6 = 1) (left : s.time.slewLeft < 0) :
    (tick s).time.devTime = s.time.devTime ∧ (tick s).time.slewLeft = s.time.slewLeft + 1 := by
  simp [tick, h, locked, left, not_lt.2 left.le, BitVec.add_assoc]

/-- Settles O3: the nanosecond, with what is slewed out at it. -/
theorem idleTick : Obligations.IdleTick := fun s h =>
  ⟨tick s, step_of_empty h, rfl, tick_between, tick_forward, tick_back, rfl⟩

end Sys2Proof.Proofs.Steps

/-!
Entry into rings (R52, R54, R55): the queues of a stop, the units that a crossing carries, and who may enter a ring buffer.
-/

namespace Sys2Proof.Proofs.Rings

open Sys2Proof Sys2Proof.Machine Sys2Proof.Laws

/-! ### Queues of a stop -/

@[simp] theorem ringBuf_setRingBuf (s : State) (n d : Nat) (v : Vn) (l : List Held) : ringBuf (setRingBuf s n d v l) n d v = l :=
  tabGet_set_same [] _ l _

@[simp] theorem turnBuf_setTurnBuf (s : State) (n d : Nat) (v : Vn) (l : List Held) : turnBuf (setTurnBuf s n d v l) n d v = l :=
  tabGet_set_same [] _ l _

@[simp] theorem niBuf_setNiBuf (s : State) (n a : Nat) (v : Vn) (l : List Held) : niBuf (setNiBuf s n a v l) n a v = l :=
  tabGet_set_same [] _ l _

/-- A unit that stays on, or has entered, a ring is the last of its ring buffer. -/
theorem ringBuf_ringPush (s : State) {n d : Nat} {v : Vn} {h : Held} (hv : h.u.vn = v) :
    ringBuf (ringPush s n d h) n d v = ringBuf s n d v ++ [h] := by
  subst hv; exact ringBuf_setRingBuf ..

/-- The marks that an entry leaves touch no queue of the stop. -/
theorem ringBuf_entered (s : State) (n d : Nat) (v : Vn) (b : Bool) (id : Nat) :
    ringBuf (entered s n d v b id) = ringBuf s := rfl

/-! ### Units on a crossing -/

theorem zip_range_map_snd {α β : Type} (f : Nat → α) (l : List β) (n : Nat) :
    (((List.range n).map f).zip l).map Prod.snd = l.take n := by
  rw [List.zip_eq_zip_take_min, List.map_snd_zip (by simp)]
  simp

/-- R29: units that move on from the wait to the hold buffer stay on the crossing, in their order. -/
theorem pump_units (x : Crossing) : (pump x).hold.map Prod.snd ++ (pump x).wait = x.hold.map Prod.snd ++ x.wait := by
  simp only [pump, List.map_append, List.append_assoc, zip_range_map_snd, List.take_append_drop]

theorem crossingUnits_crossSend (s : State) (c : Nat) (h : Held) :
    crossingUnits (crossSend s c h) c = crossingUnits s c ++ [h] := by
  simp only [crossingUnits, crossSend, xing, setXing, tabGet_set_same, pump_units, List.append_assoc]

/-! ### A unit enters from its network interface -/

section Injection

variable {s : State} {n a d : Nat} {v : Vn} {h : Held} {q : Nat × Nat}

@[simp] theorem stamped_vn (s : State) (n : Nat) (u : FUnit) : (stamped s n u).vn = u.vn := by
  unfold stamped; dsimp only; split <;> rfl

@[simp] theorem stamped_line (s : State) (n : Nat) (u : FUnit) : (stamped s n u).line = u.line := by
  unfold stamped; dsimp only; split <;> rfl

@[simp] theorem stamped_mc (s : State) (n : Nat) (u : FUnit) : (stamped s n u).mc = u.mc := by
  unfold stamped; dsimp only; split <;> rfl

/-- R61: a unit is stamped with the active epoch. -/
@[simp] theorem stamped_epoch (s : State) (n : Nat) (u : FUnit) : (stamped s n u).epoch = activeEpoch s := by
  unfold stamped; dsimp only; split <;> rfl

/-- R52: the unit of an agent that needs no Decode enters the ring that leads to its destination. -/
theorem inject_enters (head : niHead s n a v = some h) (decoded : h.hpa = none) (single : h.u.mc = false)
    (unmarked : markedUnit (niTake s n a v h.id) n (injected s n h h.u) = none)
    (steered : steer s (injected s n h h.u).u = some q) (wants : wantDir n q.1 (injected s n h h.u).u.yx = some d)
    (isOpen : injectOpen s n d v h.id = true) :
    inject s n a v = entered (ringPush (niTake s n a v h.id) n d (injected s n h h.u)) n d v false h.id := by
  have single' : (injected s n h h.u).u.mc = false := by simp [injected, single]
  simp only [inject, head, decoded, decodedUnit, requestDecoded, unmarked, single', steered, wants, isOpen]
  rfl

end Injection

/-! ### A unit enters from a turn queue, or moves on -/

theorem enterTurn_enters {s : State} {n d : Nat} {v : Vn} {h : Held} {rest : List Held} (queue : turnBuf s n d v = h :: rest)
    (isOpen : entryOpen s n d v (s.fab.urgent.contains h.id) = true)
    (turn : (s.fab.urgent.contains h.id || !(s.fab.lastTurn.contains (ringKey n d v) && injectionWaits s n d v)) = true) :
    enterTurn s n d v = entered (ringPush (setTurnBuf s n d v rest) n d h) n d v true h.id := by
  simp only [enterTurn, queue, isOpen, turn, Bool.and_self, if_true]

/-- R54: the segment `n`, `d` has served VN `v`, whose ring buffer holds `rest` after it. -/
def served (s : State) (n d : Nat) (v : Vn) (rest : List Held) : State :=
  setRingBuf { s with fab := { s.fab with rrVn := tabSet 0 (n * 4 + d) ((vnCode v + 1) % 8) s.fab.rrVn } } n d v rest

theorem hop_crosses {s : State} {n d : Nat} {v : Vn} {h : Held} {rest : List Held} {c : Nat}
    (next : (((List.range 8).map fun i => vnOf ((tabGet 0 (n * 4 + d) s.fab.rrVn + i) % 8)).find? fun v => canHop s n d v) = some v)
    (queue : ringBuf s n d v = h :: rest) (crossing : segCrossing s n d = some c) :
    hop s n d = crossSend (served s n d v rest) c h := by
  simp only [hop, next, queue, crossing, served]

/-! ### The starvation guard -/

/-- R54: the guard puts the unit of number `id` first and counts it. -/
def guarded (s : State) (id : Nat) : State :=
  bumpC { s with fab := { s.fab with urgent := setInsert id s.fab.urgent } } 0xC021 5

/-- R54: what the guard leaves: the unit is first, counted once, and nothing else has changed. -/
theorem guarded_leaves (s : State) (id : Nat) : id ∈ (guarded s id).fab.urgent ∧
    counter (guarded s id) (counterNo 0xC021 5) = counter s (counterNo 0xC021 5) + 1 ∧
    guarded s id = { s with fab := (guarded s id).fab, perf := (guarded s id).perf } :=
  ⟨by simp [guarded], counter_bump_same _ _ 1, rfl⟩

theorem exec_starvationGuard_turn {s : State} {n : Fin 144} {d : Fin 4} {v : Vn} {h : Held} {rest : List Held}
    (queue : turnBuf s n.val d.val v = h :: rest) (waiting : s.fab.urgent.contains h.id = false) :
    exec (.starvationGuard (.turn n d v)) s = .next (guarded s h.id) := by
  simp only [exec, execStarvationGuard, queue, List.head?_cons, waiting]
  rfl

theorem exec_starvationGuard_inject {s : State} {n : Fin 144} {a : Fin 16} {v : Vn} {h : Held}
    (head : niHead s n.val a.val v = some h) (waiting : s.fab.urgent.contains h.id = false) :
    exec (.starvationGuard (.inject n a v)) s = .next (guarded s h.id) := by
  simp only [exec, execStarvationGuard, head, waiting]
  rfl

/-- Settles O8: the three ways on, and the guard on each kind of queue. -/
theorem ringMoves : Obligations.RingMoves := by
  refine ⟨fun n a v s h q d head decoded single hv unmarked steered wants isOpen => ?_,
    fun n d v s h rest queue hv isOpen turn => ?_, fun n d s v h rest c next queue crossing => ?_,
    fun n d v s h rest queue waiting => ⟨_, exec_starvationGuard_turn queue waiting, guarded_leaves s h.id⟩,
    fun n a v s h head waiting => ⟨_, exec_starvationGuard_inject head waiting, guarded_leaves s h.id⟩⟩
  · refine ⟨_, injected s n.val h h.u,
      congrArg Host.Outcome.next (inject_enters head decoded single unmarked steered wants isOpen), rfl, by simp [injected], by simp [injected],
      ?_, ?_, rfl⟩
    · rw [ringBuf_entered, ringBuf_ringPush _ (by simp [injected, hv])]
      rfl
    · exact niBuf_setNiBuf s n.val a.val v _
  · refine ⟨_, congrArg Host.Outcome.next (enterTurn_enters queue isOpen turn), turnBuf_setTurnBuf s n.val d.val v rest, ?_, rfl⟩
    rw [ringBuf_entered, ringBuf_ringPush _ hv]
    rfl
  · refine ⟨_, congrArg Host.Outcome.next (hop_crosses next queue crossing), ringBuf_setRingBuf _ n.val d.val v rest, ?_, ?_, rfl⟩
    · exact tabGet_set_same 0 _ _ _
    · rw [crossingUnits_crossSend]
      rfl

end Sys2Proof.Proofs.Rings

/-!
The route banks (R59 to R61): a table from a list of values, a write to the inactive bank, and the commit with its notices (R262).
-/

namespace Sys2Proof.Proofs.Routes

open Sys2Proof Sys2Proof.Machine Sys2Proof.Laws

/-! ### A table from a list -/

/-- An entry of the table of values numbered from `k` on, those that are zero not being listed. -/
theorem tabGet_numbered {w : Nat} (l : List (BitVec w)) : ∀ k i : Nat,
    tabGet 0 (k + i) (((List.range' k l.length).zip l).filter fun p => decide (p.2 ≠ 0)) = l.getD i 0 := by
  induction l with
  | nil => intro k i; rfl
  | cons x l ih =>
    intro k i
    rw [List.length_cons, List.range'_succ, List.zip_cons_cons]
    cases i with
    | zero =>
      by_cases hx : x = 0#w
      · subst hx
        have later := tabGet_absent (((List.range' (k + 1) l.length).zip l).filter fun p => decide (p.2 ≠ 0)) (k + 0) (0 : BitVec w)
          fun p hp => by
            have := List.of_mem_zip (List.mem_of_mem_filter hp)
            have := List.mem_range'_1.1 this.1
            omega
        simpa using later
      · simp [hx, tabGet, tabFind?]
    | succ i =>
      have rest := ih (k + 1) i
      rw [show k + 1 + i = k + (i + 1) by omega] at rest
      by_cases hx : x = 0#w
      · simpa [List.filter_cons, hx] using rest
      · simpa [List.filter_cons, hx, tabGet, tabFind?] using rest
where
  /-- A number that a table does not list reads as the default. -/
  tabGet_absent {α : Type} (t : Tab α) (i : Nat) (d : α) (h : ∀ p ∈ t, p.1 ≠ i) : tabGet d i t = d := by
    induction t with
    | nil => rfl
    | cons p t ih =>
      obtain ⟨j, v⟩ := p
      have hj : j ≠ i := h (j, v) List.mem_cons_self
      simpa [tabGet, tabFind?, hj] using ih fun q hq => h q (List.mem_cons_of_mem _ hq)

theorem tabGet_tabOf {w : Nat} (l : List (BitVec w)) (i : Nat) : tabGet 0 i (tabOf l) = l.getD i 0 := by
  have numbered := tabGet_numbered l 0 i
  rwa [Nat.zero_add, ← List.range_eq_range'] at numbered

/-! ### Writes of a bank -/

/-- The link table of bank `b` becomes `l`, and the source route table of bank `b` becomes `l`. -/
def withLinks (s : State) (b : Bool) (l : Tab (BitVec 16)) : State :=
  if b then { s with fab := { s.fab with links1 := l } } else { s with fab := { s.fab with links0 := l } }
def withSources (s : State) (b : Bool) (l : Tab (BitVec 64)) : State :=
  if b then { s with fab := { s.fab with src1 := l } } else { s with fab := { s.fab with src0 := l } }

theorem withLinks_frame (s : State) (b : Bool) (l : Tab (BitVec 16)) :
    withLinks s b l = { s with fab := (withLinks s b l).fab } := by cases b <;> rfl
theorem withSources_frame (s : State) (b : Bool) (l : Tab (BitVec 64)) :
    withSources s b l = { s with fab := (withSources s b l).fab } := by cases b <;> rfl

@[simp] theorem withLinks_out (s : State) (b : Bool) (l : Tab (BitVec 16)) : (withLinks s b l).out = s.out := by
  rw [withLinks_frame]
@[simp] theorem withSources_out (s : State) (b : Bool) (l : Tab (BitVec 64)) : (withSources s b l).out = s.out := by
  rw [withSources_frame]

theorem linkMask_withLinks (s : State) (b : Bool) (l : Tab (BitVec 16)) (i : Nat) :
    linkMask (withLinks s b l) b i = tabGet 0 i l := by cases b <;> rfl
theorem linkMask_withLinks_other (s : State) (b : Bool) (l : Tab (BitVec 16)) (i : Nat) :
    linkMask (withLinks s (!b) l) b i = linkMask s b i := by cases b <;> rfl
theorem srcEntry_withSources (s : State) (b : Bool) (l : Tab (BitVec 64)) (i : Nat) :
    srcEntry (withSources s b l) b i = tabGet 0 i l := by cases b <;> rfl
theorem srcEntry_withSources_other (s : State) (b : Bool) (l : Tab (BitVec 64)) (i : Nat) :
    srcEntry (withSources s (!b) l) b i = srcEntry s b i := by cases b <;> rfl

theorem exec_routeTableWrite (r : RouteTable) (s : State) : exec (.routeTableWrite r) s =
    .next (emit (routeWrite s r).1 (.status (routeWrite s r).2)) := rfl

section Drained

variable {s : State} (drained : oldEpochDrain s = 0)
include drained

theorem exec_routeTableWrite_links (m : Vector (BitVec 16) 15) : exec (.routeTableWrite (.links m)) s =
    .next (emit (withLinks s (!activeEpoch s) (tabOf m.toList)) (.status .ok)) := by
  simp only [exec_routeTableWrite, routeWrite, drained]
  rfl

theorem exec_routeTableWrite_sources (e : Vector (BitVec 64) 32) : exec (.routeTableWrite (.sources e)) s =
    .next (emit (withSources s (!activeEpoch s) (tabOf (e.toList.map sourceMask))) (.status .ok)) := by
  simp only [exec_routeTableWrite, routeWrite, drained]
  rfl

end Drained

theorem exec_routeTableWrite_draining {s : State} (draining : 0 < oldEpochDrain s) (r : RouteTable) :
    exec (.routeTableWrite r) s = .next (emit s (.status .busy)) := by
  simp only [exec_routeTableWrite, routeWrite, draining, if_true]

/-! ### The commit -/

/-- R262: `t` is `s` but for the members noticed and what has been sent. -/
def OnlyNotices (s t : State) : Prop := t = { s with aul := { s.aul with noticed := t.aul.noticed }, out := t.out }

theorem OnlyNotices.od {s t : State} (h : OnlyNotices s t) : t.od = s.od := by
  rw [h]

theorem OnlyNotices.noticeTo {s t : State} (h : OnlyNotices s t) (w : Nat) : OnlyNotices s (noticeTo t w) := by
  unfold OnlyNotices at h ⊢
  rw [h]
  rfl

theorem onlyNotices_foldl {s : State} (p : Nat → Bool) (l : List Nat) : ∀ t : State, OnlyNotices s t →
    OnlyNotices s (l.foldl (fun t w => if p w = true then Machine.noticeTo t w else t) t) := by
  induction l with
  | nil => intro t h; exact h
  | cons w l ih =>
    intro t h
    rw [List.foldl_cons]
    split
    · exact ih _ (h.noticeTo w)
    · exact ih _ h

theorem noticeMembers_onlyNotices (s : State) : OnlyNotices s (noticeMembers s) := by
  unfold noticeMembers
  generalize List.range 1024 = l
  exact onlyNotices_foldl _ l s rfl

@[simp] theorem odGet_noticeMembers (s : State) (i j : Nat) : odGet (noticeMembers s) i j = odGet s i j :=
  odGet_congr (noticeMembers_onlyNotices s).od i j

/-- A notice and the status that follows it leave everything but what the command itself has set. -/
theorem OnlyNotices.emitted {s t : State} {o : Tab Nat} (h : OnlyNotices { s with od := o } t) (st : Status) : emit t (.status st) =
    { s with od := (emit t (.status st)).od, aul := { s.aul with noticed := (emit t (.status st)).aul.noticed }
             out := (emit t (.status st)).out } := by
  rw [h]
  rfl

/-- R61: the other bank becomes active and the drain is under way, the notices not yet sent. -/
def switched (s : State) : State := odSet (odSet s 0x3033 2 (1 - odGet s 0x3033 2)) 0x3033 3 1

theorem exec_routeCommit {s : State} (idle : odGet s 0x3033 3 ≠ 1) :
    exec .routeCommit s = .next (emit (noticeMembers (switched s)) (.status .ok)) := by
  simp only [exec, execRouteCommit, answered, routeCommit, if_neg idle, switched]

theorem exec_routeCommit_busy {s : State} (busy : odGet s 0x3033 3 = 1) :
    exec .routeCommit s = .next (emit s (.status .busy)) := by
  show answered (routeCommit s) = _
  rw [routeCommit, if_pos busy]
  rfl

/-- Settles O9: the writes, the commit and the end of its drain, with the refusals. -/
theorem routeBanks : Obligations.RouteBanks := by
  refine ⟨fun m s drained => ⟨_, exec_routeTableWrite_links drained m, by simp, fun i h => ?_, fun i => ?_, ?_⟩,
    fun e s drained => ⟨_, exec_routeTableWrite_sources drained e, by simp, fun i h => ?_, fun i => ?_, ?_⟩,
    fun r s draining => exec_routeTableWrite_draining draining r,
    fun s idle => ⟨_, exec_routeCommit idle, by simp, ?_, ?_, fun i j hi _ hj => ?_, ?_⟩,
    fun s busy => exec_routeCommit_busy busy,
    fun s draining drained => ⟨bumpC (odSet s 0x3033 3 2) 0xC021 6, if_pos ⟨draining, drained⟩, by simp, counter_bump_same _ _ 1, rfl⟩⟩
  · exact (linkMask_withLinks s _ _ i).trans ((tabGet_tabOf _ i).trans (by simp [h]))
  · exact linkMask_withLinks_other s _ _ i
  · rw [withLinks_frame]; rfl
  · exact (srcEntry_withSources s _ _ i).trans ((tabGet_tabOf _ i).trans (by simp [h]))
  · exact srcEntry_withSources_other s _ _ i
  · rw [withSources_frame]; rfl
  · simp [switched]
  · simp [switched, odGet_odSet_sub]
  · simp [switched, odGet_odSet_index, hi, hj]
  · exact (noticeMembers_onlyNotices (switched s)).emitted .ok

end Sys2Proof.Proofs.Routes

/-!
The transition table of a port island (R66, R74): what a request stores, what each event makes of the island's state, and what the
opening of an island starts.
-/

namespace Sys2Proof.Proofs.Islands

open Sys2Proof Sys2Proof.Machine Sys2Proof.Laws Sys2Proof.Proofs.Shared

/-! ### The entries of an island -/

@[simp] theorem islandState_setIsland (s : State) (k n : Nat) : islandState (setIsland s k n) k = n := odGet_odSet_same ..

@[simp] theorem islandState_storeRequest (s : State) {k : Nat} (hk : k < 16) (r : Nat) :
    islandState (storeRequest s k r) k = islandState s k :=
  odGet_odSet_index _ _ _ _ (by decide) (by omega) (by omega)

@[simp] theorem request_storeRequest (s : State) (k r : Nat) : odGet (storeRequest s k r) 0x3031 (k + 1) = r := odGet_odSet_same ..

@[simp] theorem request_setIsland (s : State) {k : Nat} (hk : k < 16) (n : Nat) :
    odGet (setIsland s k n) 0x3031 (k + 1) = odGet s 0x3031 (k + 1) :=
  odGet_odSet_index _ _ _ _ (by decide) (by omega) (by omega)

@[simp] theorem islandState_emit (s : State) (o : Out) (k : Nat) : islandState (emit s o) k = islandState s k := rfl
@[simp] theorem islandState_drainTimerOff (s : State) (j k : Nat) : islandState (drainTimerOff s j) k = islandState s k := rfl
@[simp] theorem drainTimerOff_drainTimer (s : State) (k : Nat) : (drainTimerOff s k).fab.drainTimer = setRemove k s.fab.drainTimer := rfl

/-! ### The opening of an island -/

/-- R74: an opening touches no fault, no contact, no queue of the fabric, no core, and leaves the state of island `k`. -/
structure OpeningKeeps (k : Nat) (s t : State) : Prop where
  island : islandState t k = islandState s k
  fab : t.fab = s.fab
  pins : t.pins = s.pins
  flt : t.flt = s.flt
  mgmt : t.mgmt = s.mgmt

theorem OpeningKeeps.refl (k : Nat) (s : State) : OpeningKeeps k s s := ⟨rfl, rfl, rfl, rfl, rfl⟩

theorem OpeningKeeps.trans {k : Nat} {s t u : State} (h : OpeningKeeps k s t) (g : OpeningKeeps k t u) : OpeningKeeps k s u :=
  ⟨g.island.trans h.island, g.fab.trans h.fab, g.pins.trans h.pins, g.flt.trans h.flt, g.mgmt.trans h.mgmt⟩

section Opening

variable {k : Nat} (hk : k < 16)
include hk

theorem opening_odSet (s : State) {i j : Nat} (v : Nat) (hi : i ≠ 0x3032) (hj : j < 256) : OpeningKeeps k s (odSet s i j v) :=
  ⟨odGet_odSet_index _ _ _ _ hi.symm hj (by omega), rfl, rfl, rfl, rfl⟩

theorem opening_trainPort (s : State) {p : Nat} (hp : p < 96) : OpeningKeeps k s (trainPort s p) := by
  unfold trainPort
  split
  · exact .refl k s
  · split
    · split <;> exact ⟨rfl, rfl, rfl, rfl, rfl⟩
    · split
      · exact opening_odSet hk s 1 (by unfold portIdx; omega) (by decide)
      · exact .refl k s

theorem opening_setLink (s : State) {a : Nat} (ha : a < 16) (n : Nat) : OpeningKeeps k s (setLink s a n) := by
  have set := opening_odSet hk s (i := aulIdx a) (j := 0x10) n (by unfold aulIdx; omega) (by decide)
  exact set.trans ⟨odGet_notify .., notify_fab .., notify_pins .., notify_flt .., notify_mgmt ..⟩

theorem opening_tryTraining (s : State) {a : Nat} (ha : a < 16) : OpeningKeeps k s (tryTraining s a) := by
  unfold tryTraining
  split
  · have link := opening_setLink hk (setAulPort s a { aulPort s a with lanes := [0, 1, 2, 3], agreed := false }) ha linkTraining
    exact ⟨link.island, link.fab, link.pins, link.flt, link.mgmt⟩
  · exact opening_setLink hk s ha linkDown

theorem opening_drawPortEpoch (s : State) {a : Nat} (ha : a < 16) : OpeningKeeps k s (drawPortEpoch s a) :=
  (OpeningKeeps.mk rfl rfl rfl rfl rfl : OpeningKeeps k s (drawEpoch s).1).trans
    ((opening_odSet hk _ _ (by unfold aulIdx; omega) (by decide)).trans (opening_odSet hk _ _ (by omega) (by decide)))

theorem opening_aulumIslandOpen (s : State) {a : Nat} (ha : a < 16) : OpeningKeeps k s (aulumIslandOpen s a) := by
  unfold aulumIslandOpen
  dsimp only
  split
  · exact (opening_drawPortEpoch hk s ha).trans (opening_tryTraining hk _ ha)
  · exact opening_drawPortEpoch hk s ha

/-- R74: the island's entry reads OPEN, and all that has changed besides lies in its ports. -/
theorem islandOpened_keeps (s : State) : OpeningKeeps k (setIsland s k 0) (islandOpened s k) := by
  refine .trans ?_ (opening_aulumIslandOpen hk _ hk)
  refine List.foldlRecOn _ _ (motive := OpeningKeeps k (setIsland s k 0)) (.refl k _) fun t ht i hi => ?_
  exact ht.trans (opening_trainPort hk t (by have := List.mem_range.1 hi; omega))

theorem islandState_islandOpened (s : State) : islandState (islandOpened s k) k = 0 :=
  (islandOpened_keeps hk s).island.trans (islandState_setIsland s k 0)

end Opening

/-! ### Requests -/

theorem exec_islandRequestClosed (k : Fin 16) (s : State) : exec (.islandRequestClosed k) s =
    .next (emit (requestClosed s k.val).1 (.status (requestClosed s k.val).2)) := rfl

theorem exec_islandRequestOpen (k : Fin 16) (s : State) : exec (.islandRequestOpen k) s =
    .next (emit (requestOpen s k.val).1 (.status (requestOpen s k.val).2)) := rfl

/-- R66: the drain of island `k` begins. -/
def closing (s : State) (k : Nat) : State :=
  setIsland { storeRequest s k 1 with fab := { s.fab with drainTimer := setInsert k s.fab.drainTimer } } k 1

section Requests

variable {s : State} {k : Nat}

theorem requestClosed_held (held : s.pow.mainOn = false ∨ k ∈ s.fab.heldClosed) : requestClosed s k = (storeRequest s k 1, .ok) :=
  if_pos (by simpa [or_comm] using held)

theorem requestOpen_held (held : s.pow.mainOn = false ∨ k ∈ s.fab.heldClosed) : requestOpen s k = (storeRequest s k 0, .ok) :=
  if_pos (by simpa [or_comm] using held)

section Free

variable (on : s.pow.mainOn = true) (free : k ∉ s.fab.heldClosed)
include on free

theorem requestClosed_free : requestClosed s k =
    match islandState s k with
    | 0 => if allDisabled s k then (closing s k, .ok) else (s, .portsActive)
    | 3 => (s, .busy)
    | _ => (storeRequest s k 1, .ok) :=
  if_neg (by simp [on, free])

theorem requestOpen_free : requestOpen s k =
    match islandState s k with
    | 1 => (islandOpened (drainTimerOff (storeRequest s k 0) k) k, .ok)
    | 2 => (setIsland (storeRequest s k 0) k 3, .ok)
    | _ => (storeRequest s k 0, .ok) :=
  if_neg (by simp [on, free])

end Free
end Requests

/-- A request that is only stored: the state of the island stays, the request reads as it was made. -/
theorem stored_leaves (s : State) {k : Nat} (hk : k < 16) (r : Nat) :
    odGet (emit (storeRequest s k r) (.status .ok)) 0x3031 (k + 1) = r ∧
      islandState (emit (storeRequest s k r) (.status .ok)) k = islandState s k ∧
      (emit (storeRequest s k r) (.status .ok)).out = s.out ++ [Out.status .ok] ∧
      emit (storeRequest s k r) (.status .ok) =
        { s with od := (emit (storeRequest s k r) (.status .ok)).od, out := (emit (storeRequest s k r) (.status .ok)).out } :=
  ⟨by simp, by simp [hk], rfl, rfl⟩

/-- R66: the six rows of the table that a request takes while the main domain is on and nothing holds the island. -/
theorem requests_free (k : Fin 16) (s : State) (on : s.pow.mainOn = true) (free : k.val ∉ s.fab.heldClosed) :
    (islandState s k.val = 0 → allDisabled s k.val = true →
      ∃ t : State, exec (.islandRequestClosed k) s = .next t ∧ islandState t k.val = 1 ∧ odGet t 0x3031 (k.val + 1) = 1 ∧
        k.val ∈ t.fab.drainTimer ∧ t.out = s.out ++ [Out.status .ok] ∧ t = { s with od := t.od, fab := t.fab, out := t.out }) ∧
    (islandState s k.val = 0 → allDisabled s k.val = false →
      exec (.islandRequestClosed k) s = .next (emit s (.status .portsActive))) ∧
    (islandState s k.val = 3 → exec (.islandRequestClosed k) s = .next (emit s (.status .busy))) ∧
    (islandState s k.val = 2 →
      ∃ t : State, exec (.islandRequestOpen k) s = .next t ∧ islandState t k.val = 3 ∧ odGet t 0x3031 (k.val + 1) = 0 ∧
        t.out = s.out ++ [Out.status .ok] ∧ t = { s with od := t.od, out := t.out }) ∧
    (islandState s k.val = 1 →
      ∃ t : State, exec (.islandRequestOpen k) s = .next t ∧ islandState t k.val = 0 ∧ k.val ∉ t.fab.drainTimer ∧
        t.out.getLast? = some (Out.status .ok) ∧ t.pins = s.pins ∧ t.flt = s.flt ∧ t.mgmt = s.mgmt) ∧
    (islandState s k.val = 1 ∨ islandState s k.val = 2 →
      ∃ t : State, exec (.islandRequestClosed k) s = .next t ∧ islandState t k.val = islandState s k.val ∧
        odGet t 0x3031 (k.val + 1) = 1 ∧ t.out = s.out ++ [Out.status .ok] ∧ t = { s with od := t.od, out := t.out }) := by
  have hk := k.isLt
  rw [exec_islandRequestClosed, exec_islandRequestOpen, requestClosed_free on free, requestOpen_free on free]
  refine ⟨fun i d => ?_, fun i d => ?_, fun i => ?_, fun i => ?_, fun i => ?_, fun i => ?_⟩
  · simp only [i, d, if_true]
    refine ⟨_, rfl, by simp [closing], (request_setIsland _ hk 1).trans (request_storeRequest s k.val 1), by simp [closing, setIsland], rfl, rfl⟩
  · simp [i, d]
  · simp [i]
  · simp only [i]
    exact ⟨_, rfl, by simp, by simp [hk], rfl, rfl⟩
  · simp only [i]
    have keeps := islandOpened_keeps hk (drainTimerOff (storeRequest s k.val 0) k.val)
    refine ⟨_, rfl, by simp [islandState_islandOpened hk], ?_, by simp, ?_, ?_, ?_⟩
    · rw [emit_fab, keeps.fab]
      simp [setIsland]
    · rw [emit_pins, keeps.pins]; rfl
    · rw [emit_flt, keeps.flt]; rfl
    · rw [emit_mgmt, keeps.mgmt]; rfl
  · obtain ⟨request, state, out, frame⟩ := stored_leaves s hk 1
    rcases i with i | i <;> simp only [i] <;> exact ⟨_, rfl, state.trans i, request, out, frame⟩

/-! ### Events of the bridge -/

section Events

variable {k : Fin 16} {s : State}

theorem exec_islandDrainComplete (closing : islandState s k.val = 1) (drained : islandDrain s k.val = 0)
    (empty : bridgeEmpty s k.val = true) :
    exec (.islandDrainComplete k) s = .next (setIsland (drainTimerOff s k.val) k.val 2) :=
  if_pos ⟨closing, drained, empty⟩

theorem exec_closingDrainTimeout (closing : islandState s k.val = 1) (runs : k.val ∈ s.fab.drainTimer) :
    exec (.closingDrainTimeout k) s = .next (raiseFault (drainTimerOff s k.val) 428 0 k.val) :=
  if_pos ⟨closing, by simpa using runs⟩

variable (opening : islandState s k.val = 3)
include opening

theorem exec_bridgeReady : exec (.bridgeReady k) s = .next (islandOpened s k.val) := if_pos opening
theorem exec_bridgeSelfCheckFail : exec (.bridgeSelfCheckFail k) s = .next (bridgeFails s k.val) := if_pos opening
theorem exec_openingTimeout : exec (.openingTimeout k) s = .next (bridgeFails s k.val) := if_pos opening

end Events

/-- Settles O10: the rows of the table, request by request and event by event. -/
theorem islandTransitions : Obligations.IslandTransitions := by
  refine ⟨requests_free, fun k s held => ?_, fun k s => ⟨fun closing drained empty => ?_, fun closing runs _ => ?_,
    fun opening => ?_, fun opening _ => ?_⟩⟩
  · rw [exec_islandRequestClosed, exec_islandRequestOpen, requestClosed_held held, requestOpen_held held]
    exact ⟨⟨_, rfl, stored_leaves s k.isLt 1⟩, _, rfl, stored_leaves s k.isLt 0⟩
  · exact ⟨_, exec_islandDrainComplete closing drained empty, by simp, by simp [setIsland], rfl⟩
  · obtain ⟨r, hr⟩ := exists_report (drainTimerOff s k.val) 428 0 k.val
    refine ⟨_, r, exec_closingDrainTimeout closing runs, ?_, by simp, hr, ?_⟩
    · simp [islandState] at closing ⊢
      exact closing
    · rw [raiseFault_frame]; rfl
  · have keeps := islandOpened_keeps k.isLt s
    exact ⟨_, exec_bridgeReady opening, islandState_islandOpened k.isLt s, keeps.flt, keeps.pins, keeps.mgmt⟩
  · obtain ⟨r, hr⟩ := exists_report (setIsland s k.val 2) 427 0 (3 * 2 ^ 40 + k.val)
    refine ⟨_, r, exec_bridgeSelfCheckFail opening, exec_openingTimeout opening, ?_, hr, ?_⟩
    · unfold bridgeFails islandState
      rw [odGet_raiseFault]
      exact islandState_setIsland s k.val 2
    · unfold bridgeFails
      rw [raiseFault_frame]
      rfl

end Sys2Proof.Proofs.Islands

/-!
Writes of a port's role, width and settings (R77, R78, R82, R108), and what its partner may change while the link stays up (R80, R81).
-/

namespace Sys2Proof.Proofs.PortSettings

open Sys2Proof Sys2Proof.Machine Sys2Proof.Laws Sys2Proof.Proofs.Shared

theorem exec_portWidthWrite (p : Fin 96) (w : Byte) (s : State) : exec (.portWidthWrite p w) s =
    .next (emit (widthWrite s p.val w.toNat).1 (.status (widthWrite s p.val w.toNat).2)) := rfl

theorem exec_portConfigWrite (p : Fin 96) (x : PortSetting) (s : State) : exec (.portConfigWrite p x) s =
    .next (emit (portConfig s p.val x).1 (.status (portConfig s p.val x).2)) := rfl

theorem exec_portRoleWrite (p : Fin 96) (r : Byte) (s : State) : exec (.portRoleWrite p r) s =
    .next (emit (roleWrite s p.val r.toNat).1 (.status (roleWrite s p.val r.toNat).2)) := rfl

/-! ### Widths -/

/-- R77: `t` is `s` but for link states. -/
def OnlyLinkStates (s t : State) : Prop :=
  (∀ i j : Nat, j < 256 → j ≠ 0x10 → odGet t i j = odGet s i j) ∧ t = { s with od := t.od }

theorem OnlyLinkStates.setLinkState {s t : State} (h : OnlyLinkStates s t) (p n : Nat) : OnlyLinkStates s (setLinkState t p n) := by
  obtain ⟨entries, frame⟩ := h
  refine ⟨fun i j hj hne => (odGet_odSet_subs t _ n i hne (by decide) hj).trans (entries i j hj hne), ?_⟩
  rw [frame]
  rfl

theorem showAbsorbed_onlyLinkStates (s : State) (k : Nat) : OnlyLinkStates s (showAbsorbed s k) := by
  refine List.foldlRecOn _ _ (motive := OnlyLinkStates s) ⟨fun _ _ _ _ => rfl, rfl⟩ fun t ht i _ => ?_
  dsimp only
  split
  · exact ht.setLinkState _ _
  · split
    · exact ht.setLinkState _ _
    · exact ht

section Width

variable {s : State} {p w : Nat} (width : w = 4 ∨ w = 8 ∨ w = 16)
include width

theorem widthWrite_active (active : role s p ≠ 0) : widthWrite s p w = (s, .portActive) := by
  rw [widthWrite, if_neg (by omega), if_pos active]

/-- R77: the width of a DISABLED port, where its place allows it and nothing that it absorbs is in use. -/
theorem widthWrite_taken (disabled : role s p = 0) (allowed : widthAllowed (p % 6) w = true) (own : absorbed s p = false)
    (unused : ∀ q : Nat, q < p + w / 4 → p < q → role s q = 0 ∧ portWidth s q ≤ 4) :
    widthWrite s p w = (showAbsorbed (odSet s (portIdx p) 2 w) (p / 6), .ok) := by
  have free : (((List.range (w / 4 - 1)).map fun i => p + 1 + i).any fun q => decide (role s q ≠ 0) || decide (4 < portWidth s q)) = false := by
    simp only [List.any_map, List.any_eq_false, List.mem_range, Function.comp]
    intro i hi
    have := unused (p + 1 + i) (by omega) (by omega)
    simp [this.1, this.2]
  rw [widthWrite, if_neg (by omega), if_neg (by simp [disabled]), if_neg (by simp only [allowed, own, free]; decide)]

end Width

theorem widthWrite_outOfRange {w : Nat} (s : State) (p : Nat) (h : w ≠ 4 ∧ w ≠ 8 ∧ w ≠ 16) : widthWrite s p w = (s, .outOfRange) :=
  if_pos h

/-! ### Settings -/

theorem settingSub_lt (x : PortSetting) : settingSub x < 256 := by cases x <;> simp [settingSub]

theorem portConfig_outOfRange (s : State) (p : Nat) {x : PortSetting} (h : settingInRange x = false) :
    portConfig s p x = (s, .outOfRange) := by
  rw [portConfig, if_pos (by simp [h])]

theorem portConfig_active {s : State} {p : Nat} {x : PortSetting} (inRange : settingInRange x = true) (active : role s p ≠ 0) :
    portConfig s p x = (s, .portActive) := by
  rw [portConfig, if_neg (by simp [inRange]), if_pos active]

/-- R78: a setting of a DISABLED port; a slot channel only where no other port names it. -/
theorem portConfig_taken {s : State} {p : Nat} {x : PortSetting} (inRange : settingInRange x = true) (disabled : role s p = 0)
    (slot : settingSub x = 5 → settingValue x = 255 ∨ ∀ q : Nat, q < 96 → q ≠ p → odGet s (portIdx q) 5 ≠ settingValue x) :
    portConfig s p x = (odSet s (portIdx p) (settingSub x) (settingValue x), .ok) := by
  have free : ¬ (settingSub x = 5 ∧ settingValue x ≠ 255 ∧
      ((List.range 96).any fun q => decide (q ≠ p) && decide (odGet s (portIdx q) 5 = settingValue x)) = true) := by
    rintro ⟨sub, named, taken⟩
    obtain ⟨q, hq, same⟩ := List.any_eq_true.1 taken
    simp only [Bool.and_eq_true, decide_eq_true_eq] at same
    exact (slot sub).elim named fun others => others q (List.mem_range.1 hq) same.1 same.2
  rw [portConfig, if_neg (by simp [inRange]), if_neg (by simp [disabled]), if_neg free]

/-! ### Roles -/

theorem role_trainPort (s : State) (p q : Nat) : role (trainPort s p) q = role s q := by
  unfold trainPort
  split
  · rfl
  · split
    · split <;> rfl
    · split
      · exact odGet_odSet_subs s _ 1 _ (by decide) (by decide) (by decide)
      · rfl

theorem role_nameUpstream (s : State) (p r q : Nat) : role (nameUpstream s p r) q = role s q := by
  have named : ∀ (t : State) (i v : Nat), role (odSet t i 2 v) q = role t q := fun t i v =>
    odGet_odSet_subs t i v _ (by decide) (by decide) (by decide)
  have cleared : role ((List.range 64).foldl (fun t v => if upstreamPort t v = some p then odSet t (0x2200 + v) 2 0xFF else t) s) q =
      role s q := by
    refine List.foldlRecOn _ _ (motive := fun t => role t q = role s q) rfl fun t ht v _ => ?_
    split
    · exact (named _ _ _).trans ht
    · exact ht
  have first : role (if r = 0 then s else
      (List.range 64).foldl (fun t v => if upstreamPort t v = some p then odSet t (0x2200 + v) 2 0xFF else t) s) q = role s q := by
    split
    · rfl
    · exact cleared
  unfold nameUpstream
  dsimp only
  split
  · exact (named _ _ _).trans first
  · exact first

theorem roleWrite_outOfRange (s : State) (p : Nat) {r : Nat} (h : 2 < r) : roleWrite s p r = (s, .outOfRange) := if_pos h

theorem roleWrite_absorbed {s : State} {p r : Nat} (h : r ≤ 2) (gone : absorbed s p = true) : roleWrite s p r = (s, .laneConflict) := by
  rw [roleWrite, if_neg (by omega), if_pos gone]

/-- R82: port `q` holds the VCS that port `p` asks for. -/
theorem roleWrite_taken {s : State} {p q : Nat} (own : absorbed s p = false) (inRange : odGet s (portIdx p) 4 ≤ 63) (hq : q < 96)
    (other : q ≠ p) (used : role s q ≠ 0) (same : odGet s (portIdx q) 4 = odGet s (portIdx p) 4) :
    roleWrite s p 1 = (s, .vcsTaken) := by
  have taken : ((List.range 96).any fun q => decide (q ≠ p) && decide (role s q ≠ 0) &&
      decide (odGet s (portIdx q) 4 = odGet s (portIdx p) 4)) = true :=
    List.any_eq_true.2 ⟨q, List.mem_range.2 hq, by simp [other, used, same]⟩
  rw [roleWrite, if_neg (by decide), if_neg (by simp [own]), if_neg (by omega), if_pos ⟨rfl, taken⟩]

/-- R78: a role that the port may take is taken. -/
theorem roleWrite_ok {s : State} {p r : Nat} (h : r ≤ 2) (own : absorbed s p = false)
    (vcs : r = 1 → odGet s (portIdx p) 4 ≤ 63 ∧
      ∀ q : Nat, q < 96 → q ≠ p → role s q ≠ 0 → odGet s (portIdx q) 4 ≠ odGet s (portIdx p) 4) :
    role (roleWrite s p r).1 p = r ∧ (roleWrite s p r).2 = .ok := by
  have free : ¬ (r = 1 ∧ ((List.range 96).any fun q => decide (q ≠ p) && decide (role s q ≠ 0) &&
      decide (odGet s (portIdx q) 4 = odGet s (portIdx p) 4)) = true) := by
    rintro ⟨one, taken⟩
    obtain ⟨q, hq, same⟩ := List.any_eq_true.1 taken
    simp only [Bool.and_eq_true, decide_eq_true_eq] at same
    exact (vcs one).2 q (List.mem_range.1 hq) same.1.1 same.1.2 same.2
  have room : ¬ (r = 1 ∧ 63 < odGet s (portIdx p) 4) := fun big => by have := (vcs big.1).1; omega
  rw [roleWrite, if_neg (by omega), if_neg (by simp [own]), if_neg room, if_neg free]
  dsimp only
  split
  · next same => exact ⟨by split <;> exact same.symm, rfl⟩
  · refine ⟨?_, rfl⟩
    rw [role_trainPort, role_nameUpstream]
    exact odGet_odSet_same ..

/-! ### What the partner changes -/

theorem putWidth_frame (s : State) (p w : Nat) : putWidth s p w = { s with od := (putWidth s p w).od, perf := (putWidth s p w).perf } := by
  unfold putWidth
  split <;> rfl

theorem odGet_putWidth (s : State) (p w : Nat) : odGet (putWidth s p w) (portIdx p) 0x16 = w := by
  unfold putWidth
  split
  · assumption
  · exact odGet_odSet_same ..

theorem odGet_putWidth_other (s : State) (p w : Nat) {i j : Nat} (hj : j < 256) (h : i ≠ portIdx p ∨ j ≠ 0x16) :
    odGet (putWidth s p w) i j = odGet s i j := by
  unfold putWidth
  split
  · rfl
  · exact odGet_odSet_ne s w h (by decide) hj

/-- R473: a change of width is counted, a request for the present width is not. -/
theorem counter_putWidth (s : State) (p w : Nat) : counter (putWidth s p w) (8 * p + 6) =
    counter s (8 * p + 6) + (if odGet s (portIdx p) 0x16 = w then 0 else 1) := by
  unfold putWidth
  split
  · simp
  · exact counter_bump_same _ _ 1

theorem l0pRequest_granted {s : State} {p w : Nat} (up : portUp s p = true) (on : odGet s (portIdx p) 6 = 1)
    (partner : partnerL0p s p = true) (width : w ∈ [1, 2, 4, 8, 16]) (low : odGet s (portIdx p) 7 ≤ w)
    (high : w ≤ odGet s (portIdx p) 0x11) : l0pRequest s p w = putWidth s p w :=
  if_pos (by simpa [up, on, partner, low, high] using width)

theorem l0pRequest_refused {s : State} {p : Nat} (w : Nat)
    (h : odGet s (portIdx p) 6 ≠ 1 ∨ partnerL0p s p = false ∨ portUp s p = false) : l0pRequest s p w = s :=
  if_neg (by rcases h with h | h | h <;> simp [h])

/-- R81: the sample point of a lane moves: the point of one kind is `n`, the errors counted there are at most 63. -/
def marginTo (timing : Bool) (n : Int) (errors : Nat) (q : Int × Int × Nat) : Int × Int × Nat :=
  if timing then (n, q.2.1, errors) else (q.1, n, errors)

theorem margin_moves {s : State} {p lane : Nat} {timing : Bool} {n : Int} (up : portUp s p = true)
    (inUse : lane < odGet s (portIdx p) 0x11) (steps : n.natAbs ≤ (if timing then 20 else 32)) :
    margin s p lane timing n = { drawn s with port := { s.port with
      margin := tabMod (0, 0, 0) (p * 16 + lane) (marginTo timing n ((freshVal s).toNat % 64)) s.port.margin } } := by
  rw [margin, if_pos (by simp [up, inUse, steps])]
  rfl

/-- Settles O11: the writes with their refusals, the partner's width requests, and margining. -/
theorem portSettings : Obligations.PortSettings := by
  refine ⟨fun p w s disabled width allowed own unused => ?_, fun p w s active width => ?_, fun p w s h4 h8 h16 => ?_,
    fun p x s disabled inRange slot => ?_, fun p x s active inRange => ?_, fun p x s bad => ?_,
    fun p r s h own vcs => ?_, fun p r s h => ?_, fun p r s h gone => ?_, fun p q r s one own inRange other used same => ?_,
    fun p w s up on partner width low high => ?_, fun p w s refused => congrArg Host.Outcome.next (l0pRequest_refused w.val refused),
    fun p l b n s up inUse steps => ?_⟩
  · have eq := widthWrite_taken width disabled allowed own unused
    obtain ⟨entries, frame⟩ := showAbsorbed_onlyLinkStates (odSet s (portIdx p.val) 2 w.toNat) (p.val / 6)
    rw [exec_portWidthWrite, eq]
    refine ⟨_, rfl, ?_, ?_, fun i j _ hj ne other => ?_, ?_⟩
    · exact (entries _ _ (by decide) (by decide)).trans (odGet_odSet_same ..)
    · rw [frame]; rfl
    · exact (entries i j hj ne).trans (odGet_odSet_ne s _ other (by decide) hj)
    · rw [frame]; rfl
  · rw [exec_portWidthWrite, widthWrite_active width active]
  · rw [exec_portWidthWrite, widthWrite_outOfRange s p.val ⟨h4, h8, h16⟩]
  · rw [exec_portConfigWrite, portConfig_taken inRange disabled slot]
    exact ⟨_, rfl, odGet_odSet_same .., rfl, fun i j _ hj other => odGet_odSet_ne s _ other (settingSub_lt x) hj, rfl⟩
  · rw [exec_portConfigWrite, portConfig_active inRange active]
  · rw [exec_portConfigWrite, portConfig_outOfRange s p.val bad]
  · obtain ⟨taken, ok⟩ := roleWrite_ok h own vcs
    rw [exec_portRoleWrite, ok]
    exact ⟨_, rfl, taken, by simp⟩
  · rw [exec_portRoleWrite, roleWrite_outOfRange s p.val h]
  · rw [exec_portRoleWrite, roleWrite_absorbed h gone]
  · rw [exec_portRoleWrite, one, roleWrite_taken own inRange q.isLt (Fin.val_ne_of_ne other) used same]
  · exact ⟨_, congrArg Host.Outcome.next (l0pRequest_granted up on partner width low high), odGet_putWidth s p.val w.val,
      counter_putWidth s p.val w.val, fun i j _ hj other => odGet_putWidth_other s p.val w.val hj other, putWidth_frame s p.val w.val⟩
  · refine ⟨_, congrArg Host.Outcome.next (margin_moves up inUse steps), ?_, ?_, fun k hk => ?_, rfl⟩
    · cases b <;> simp [marginTo]
    · cases b <;> simp [marginTo] <;> omega
    · exact tabGet_mod_other hk _ _ _ _

end Sys2Proof.Proofs.PortSettings

/-!
Training of a port (R79, R83, R107, R502): what its entries show once the link is in L0, what an unsuitable partner leaves, what starts
training again, and what lost LDs start.
-/

namespace Sys2Proof.Proofs.PortTraining

open Sys2Proof Sys2Proof.Machine Sys2Proof.Laws Sys2Proof.Proofs.Shared

/-! ### What the bindings and the VCS of a port change -/

/-- R84, R105: `t` shows the entries of every port as `s` does. -/
def SamePorts (s t : State) : Prop := ∀ p j : Nat, p < 96 → j < 256 → odGet t (portIdx p) j = odGet s (portIdx p) j

theorem SamePorts.trans {s t u : State} (h : SamePorts s t) (g : SamePorts t u) : SamePorts s u :=
  fun p j hp hj => (g p j hp hj).trans (h p j hp hj)

theorem SamePorts.of_od {s t : State} (h : t.od = s.od) : SamePorts s t := fun p j _ _ => odGet_congr h (portIdx p) j

theorem samePorts_odSet (s : State) {i j : Nat} (v : Nat) (hi : 0x2160 ≤ i) (hj : j < 256) : SamePorts s (odSet s i j v) :=
  fun _ _ hp hj' => odGet_odSet_index _ _ _ _ (by unfold portIdx; omega) hj hj'

theorem samePorts_hotplug (s : State) (v d : Nat) : SamePorts s (hotplug s v d) :=
  .of_od (by unfold hotplug; split <;> rfl)

theorem samePorts_putVppb (s : State) (v : Nat) {d : Nat} (x : Vppb) (hd : d < 32) : SamePorts s (putVppb s v d x) :=
  (SamePorts.of_od (t := setVppb s v d x) rfl).trans (samePorts_odSet _ _ (by omega) (by omega))

theorem device_of_mem_bindsOf {s : State} {p : Nat} {b : Nat × Nat × Vppb} (h : b ∈ bindsOf s p) : b.2.1 < 32 := by
  obtain ⟨q, -, rfl⟩ := List.mem_map.1 h
  exact Nat.mod_lt _ (by decide)

theorem samePorts_foldl {α : Type} {s : State} {f : State → α → State} (l : List α) (step : ∀ t, ∀ a ∈ l, SamePorts t (f t a)) (t : State)
    (h : SamePorts s t) : SamePorts s (l.foldl f t) :=
  List.foldlRecOn _ _ (motive := SamePorts s) h fun t ht a ha => ht.trans (step t a ha)

theorem samePorts_bindsPresence (s : State) (p : Nat) : SamePorts s (bindsPresence s p) := by
  refine samePorts_foldl _ (fun t b hb => ?_) s fun _ _ _ _ => rfl
  dsimp only
  split
  · exact fun _ _ _ _ => rfl
  · exact (samePorts_putVppb t _ _ (device_of_mem_bindsOf hb)).trans (samePorts_hotplug _ _ _)

theorem recoveryAsk_od (s : State) (v : Nat) : (recoveryAsk s v).od = s.od := by unfold recoveryAsk; split <;> rfl

theorem samePorts_vcsLinkUp (s : State) (v p : Nat) : SamePorts s (vcsLinkUp s v p) := by
  unfold vcsLinkUp
  dsimp only
  split
  · exact (samePorts_odSet s 2 (by omega) (by decide)).trans (.of_od (recoveryAsk_od _ v))
  · exact fun _ _ _ _ => rfl

theorem samePorts_linkNoticed (s : State) (p : Nat) : SamePorts s (linkNoticed s p) := by
  have bindings := samePorts_foldl (s := s)
    (f := fun t b => if (vppb t b.1 b.2.1).state = .bound then
      hotplug (putVppb t b.1 b.2.1 { vppb t b.1 b.2.1 with linkChanged := true }) b.1 b.2.1 else t) (bindsOf s p)
    (fun t b hb => by
      split
      · exact (samePorts_putVppb t _ _ (device_of_mem_bindsOf hb)).trans (samePorts_hotplug _ _ _)
      · exact fun _ _ _ _ => rfl) (bindsPresence s p) (samePorts_bindsPresence s p)
  unfold linkNoticed
  dsimp only
  split
  · exact bindings.trans (samePorts_vcsLinkUp _ _ _)
  · exact bindings

/-! ### A link that comes to L0 -/

/-- R79, R108: what the entries of a port show of its link. -/
structure Shows (t : State) (p w speed : Nat) (x : LinkPartner) : Prop where
  state : odGet t (portIdx p) 0x10 = 2
  width : odGet t (portIdx p) 0x11 = w
  speed : odGet t (portIdx p) 0x12 = speed
  flit : odGet t (portIdx p) 0x13 = x.flit.val
  kind : odGet t (portIdx p) 0x14 = x.kind.val
  lds : odGet t (portIdx p) 0x15 = ldCount x
  current : odGet t (portIdx p) 0x16 = w

theorem Shows.of_samePorts {s t : State} {p w sp : Nat} {x : LinkPartner} (hp : p < 96) (h : Shows s p w sp x) (g : SamePorts s t) :
    Shows t p w sp x :=
  have same := fun j (hj : j < 256) => g p j hp hj
  ⟨(same _ (by decide)).trans h.state, (same _ (by decide)).trans h.width, (same _ (by decide)).trans h.speed,
    (same _ (by decide)).trans h.flit, (same _ (by decide)).trans h.kind, (same _ (by decide)).trans h.lds,
    (same _ (by decide)).trans h.current⟩

theorem linkShown_shows (s : State) (p w : Nat) (x : LinkPartner) : Shows (linkShown s p w x) p w (trainedSpeed s p x) x := by
  constructor <;> simp [linkShown, odGet_odSet_sub]

theorem portLinkUp_shows (s : State) {p : Nat} (hp : p < 96) (w : Nat) (x : LinkPartner) :
    Shows (portLinkUp s p w x) p w (trainedSpeed s p x) x := by
  refine (linkShown_shows s p w x).of_samePorts hp (.trans (.of_od ?_) (samePorts_linkNoticed _ p))
  simp only [apply_ite State.od, raiseFault_od, emit_od, ite_self]

section Trained

variable {s : State} {p : Nat} {x : LinkPartner} (training : odGet s (portIdx p) 0x10 = 1) (ready : p ∉ s.port.retry) (found : x.kind ≠ 0)
include training ready found

theorem trained_eq : trained s p x =
    if !compatible s p x then incompatible s p
    else match trainedWidth s p x with
      | some w => portLinkUp s p w x
      | none => s := by
  have down : portUp s p = false := decide_eq_false fun up => by
    rw [show odGet s (0x2100 + p) 0x10 = 1 from training] at up
    exact absurd up (by decide)
  rw [trained, if_neg (by simp [down]), if_neg (by simp [training, ready]), if_neg found] <;> rfl

theorem trained_compatible {w : Nat} (suits : compatible s p x = true) (width : trainedWidth s p x = some w) :
    trained s p x = portLinkUp s p w x := by
  rw [trained_eq training ready found, if_neg (by simp [suits]), width]

theorem trained_incompatible (unfit : compatible s p x = false) : trained s p x = incompatible s p := by
  rw [trained_eq training ready found, if_pos (by simp [unfit])]

end Trained

theorem trained_up {s : State} {p : Nat} (up : portUp s p = true) (x : LinkPartner) :
    trained s p x = { s with port := { s.port with recovering := setRemove p s.port.recovering } } :=
  if_pos up

/-! ### A partner that the port cannot use -/

/-- R79: the entry shows the partner, which is reported once. -/
def unfitShown (s : State) (p : Nat) : State :=
  if odGet s (portIdx p) 0x14 = 5 then s else raiseFault (odSet s (portIdx p) 0x14 5) p 2 0

theorem unfitShown_frame (s : State) (p : Nat) : unfitShown s p = { s with od := (unfitShown s p).od, flt := (unfitShown s p).flt } := by
  unfold unfitShown
  split
  · rfl
  · rw [raiseFault_frame]; rfl

theorem unfitShown_kind (s : State) (p : Nat) : odGet (unfitShown s p) (portIdx p) 0x14 = 5 := by
  unfold unfitShown
  split
  · assumption
  · simp

theorem unfitShown_state (s : State) (p : Nat) : odGet (unfitShown s p) (portIdx p) 0x10 = odGet s (portIdx p) 0x10 := by
  unfold unfitShown
  split
  · rfl
  · simp [odGet_odSet_sub]

theorem incompatible_eq (s : State) (p : Nat) : incompatible s p =
    if role s p = 1 then
      { unfitShown s p with port := { (unfitShown s p).port with retry := setInsert p (unfitShown s p).port.retry } }
    else unfitShown s p := rfl

theorem incompatible_leaves (s : State) (p : Nat) :
    odGet (incompatible s p) (portIdx p) 0x14 = 5 ∧
      odGet (incompatible s p) (portIdx p) 0x10 = odGet s (portIdx p) 0x10 ∧
      (role s p = 1 → p ∈ (incompatible s p).port.retry) ∧
      incompatible s p = { s with od := (incompatible s p).od, flt := (incompatible s p).flt, port := (incompatible s p).port } := by
  rw [incompatible_eq]
  split
  · exact ⟨unfitShown_kind s p, unfitShown_state s p, fun _ => by simp, by rw [unfitShown_frame]⟩
  · next other =>
    exact ⟨unfitShown_kind s p, unfitShown_state s p, fun one => absurd one other, by rw [unfitShown_frame]⟩

/-! ### Training starts again -/

theorem trainPort_frame (s : State) (p : Nat) : trainPort s p = { s with od := (trainPort s p).od, port := (trainPort s p).port } := by
  unfold trainPort
  split
  · rfl
  · split
    · split <;> rfl
    · split <;> rfl

theorem trainPort_retry (s : State) (p : Nat) : (trainPort s p).port.retry = s.port.retry := by
  unfold trainPort
  split
  · rfl
  · split
    · split <;> rfl
    · split <;> rfl

theorem trainPort_upstream {s : State} {p : Nat} (may : mayTrain s p = true) (upstream : role s p = 1) (stable : refStable s p = true) :
    odGet (trainPort s p) (portIdx p) 0x10 = 1 := by
  rw [trainPort, if_neg (by simp [may]), if_neg (by simp [upstream]), if_pos stable]
  exact odGet_odSet_same ..

theorem upstreamTrainingRetry_leaves {p : Fin 96} {s : State} (waits : p.val ∈ s.port.retry) :
    ∃ t : State, exec (.upstreamTrainingRetry p) s = .next t ∧ p.val ∉ t.port.retry ∧
      (mayTrain s p.val = true → role s p.val = 1 → refStable s p.val = true → odGet t (portIdx p.val) 0x10 = 1) ∧
      t = { s with od := t.od, port := t.port } := by
  refine ⟨_, if_pos (List.contains_iff_mem.2 waits), ?_, fun may upstream stable => ?_, ?_⟩
  · rw [trainPort_retry]; simp
  · exact trainPort_upstream (s := { s with port := { s.port with retry := setRemove p.val s.port.retry } }) may upstream stable
  · rw [trainPort_frame]

theorem perstRelease_eq {s : State} {p : Nat} (waits : p ∈ s.port.perstWait) (stable : refStable s p = true) (may : mayTrain s p = true) :
    perstRelease s p = setLinkState { s with port := { s.port with perstWait := setRemove p s.port.perstWait }
                                             pins := { s.pins with perstLow := setRemove p s.pins.perstLow } } p 1 :=
  if_pos ⟨List.contains_iff_mem.2 waits, stable, may⟩

/-! ### Lost LDs -/

/-- R502: the LDs of the mask that are in the pool mask of port `p` and have not been lost before. -/
def newlyLost (s : State) (p : Nat) (m : BitVec 16) : BitVec 16 :=
  m &&& BitVec.ofNat 16 (odGet s (portIdx p) 8) &&& ~~~ (tabGet 0 p s.port.lost)

/-- `s` with those LDs recorded as lost. -/
def withLost (s : State) (p : Nat) (m : BitVec 16) : State :=
  { s with port := { s.port with lost := tabMod 0 p (· ||| newlyLost s p m) s.port.lost } }

theorem ldLost_eq {s : State} {p : Nat} {m : BitVec 16} (pool : poolPort s p = true) (up : portUp s p = true) (new : newlyLost s p m ≠ 0) :
    ldLost s p m = poolLost (withLost s p m) p (newlyLost s p m) := by
  exact if_pos (by rw [pool, up]; exact decide_eq_true new)

theorem poolLost_port (s : State) (p : Nat) (m : BitVec 16) :
    (poolLost s p m).port = { s.port with sweeps := s.port.sweeps ++ [(p, m, 0)] } := by
  unfold poolLost
  dsimp only
  rw [(MemPath.moveLoss s p m).port]

theorem poolLost_od (s : State) (p : Nat) (m : BitVec 16) : (poolLost s p m).od = s.od := (MemPath.moveLoss s p m).od

/-- What was lost before and is lost newly is lost. -/
theorem or_and_not_self (a b : BitVec 16) : a ||| (b &&& ~~~ a) = a ||| b := by
  ext i hi
  by_cases h : a[i] <;> simp [h]

/-- Settles O12: what training finds, by partner; what starts it again; and lost LDs. -/
theorem portTraining : Obligations.PortTraining := by
  refine ⟨fun p x w s training ready found suits width => ?_, fun p x s up => ?_, fun p x s training ready found unfit => ?_,
    fun p s waits => upstreamTrainingRetry_leaves waits, fun p s waits stable may => ?_, fun p m s pool up new => ?_⟩
  · have shows := portLinkUp_shows s p.isLt w x
    exact ⟨_, congrArg Host.Outcome.next (trained_compatible training ready found suits width), decide_eq_true shows.state,
      shows.width, shows.speed, shows.flit, shows.kind, shows.lds, shows.current⟩
  · exact ⟨_, congrArg Host.Outcome.next (trained_up up x), by simp, rfl⟩
  · obtain ⟨kind, state, retry, frame⟩ := incompatible_leaves s p.val
    exact ⟨_, congrArg Host.Outcome.next (trained_incompatible training ready found unfit), kind, state.trans training, retry, frame⟩
  · refine ⟨_, congrArg Host.Outcome.next (perstRelease_eq waits stable may), odGet_odSet_same .., ?_, ?_, fun q hq => ?_, rfl⟩
    · simp [setLinkState]
    · simp [setLinkState]
    · simp [setLinkState, hq]
  · refine ⟨_, congrArg Host.Outcome.next (ldLost_eq pool up new), ?_, ?_, poolLost_od _ _ _, ?_⟩
    · rw [poolLost_port]
      exact (tabGet_mod_same 0 p.val (· ||| newlyLost s p.val m) s.port.lost).trans (or_and_not_self _ _)
    · rw [poolLost_port]
      exact List.mem_append_right _ List.mem_cons_self
    · exact (poolLost_keep _ _ _).1

end Sys2Proof.Proofs.PortTraining

/-!
What the traffic of the switch, the homes and the pool leaves alone: the contacts of the device. One rule per operation that a link
which goes down calls on, in the order of the model.
-/

namespace Sys2Proof.Proofs.Traffic

open Sys2Proof Sys2Proof.Machine Sys2Proof.Laws Sys2Proof.Proofs.Shared

@[simp] theorem ite_pins (c : Prop) [Decidable c] (a b : State) : (if c then a else b).pins = if c then a.pins else b.pins :=
  apply_ite State.pins c a b

@[simp] theorem foldl_pins {α : Type} (f : State → α → State) (l : List α) (s : State) (h : ∀ s a, (f s a).pins = s.pins) :
    (l.foldl f s).pins = s.pins :=
  List.foldlRecOn _ _ (motive := fun t : State => t.pins = s.pins) rfl fun t ht a _ => (h t a).trans ht
@[simp] theorem checkDone_pins (s : State) (f : Nat) : (checkDone s f).pins = s.pins := rfl

@[simp] theorem lpddrChecked_pins (s : State) (a : Nat) : (lpddrChecked s a).1.pins = s.pins := by simp [lpddrChecked]

theorem spend?_pins {s t : State} {e n : Nat} (h : spend? s e n = some t) : t.pins = s.pins := by
  obtain ⟨g, -, rfl⟩ := Option.map_eq_some_iff.1 h
  rfl

@[simp] theorem traceWrite_pins (s : State) (mk : Nat → TraceRec) :
    (traceWrite s mk).pins = s.pins := by
  unfold traceWrite
  dsimp only
  split
  · rfl
  · split
    · rfl
    · next spent =>
      simpa using spend?_pins spent

@[simp] theorem filterCount_pins (s : State) (f : Nat) : (filterCount s f).1.pins = s.pins := rfl

@[simp] theorem traceUnit_pins (s : State) (tap port data : Nat) (u : FUnit) :
    (traceUnit s tap port data u).pins = s.pins := by
  unfold traceUnit
  split
  · dsimp only
    have counted : ((List.range 64).foldl (fun (q : State × Option Nat) f =>
        if filterMatches s f tap port (unitVcs s u) u then
          ((filterCount q.1 f).1, if (filterCount q.1 f).2 && q.2.isNone then some f else q.2)
        else q) (s, none)).1.pins = s.pins := by
      refine List.foldlRecOn _ _ (motive := fun q : State × Option Nat => q.1.pins = s.pins) rfl fun q hq f _ => ?_
      split
      · exact (filterCount_pins ..).trans hq
      · exact hq
    split
    · exact counted
    · exact (traceWrite_pins ..).trans counted
  · rfl

@[simp] theorem setXing_pins (s : State) (c : Nat) (x : Crossing) : (setXing s c x).pins = s.pins := rfl

@[simp] theorem crossSend_pins (s : State) (c : Nat) (h : Held) : (crossSend s c h).pins = s.pins := rfl

@[simp] theorem niPush_pins (s : State) (n : Nat) (a : Nat) (h : Held) : (niPush s n a h).pins = s.pins := rfl

@[simp] theorem nextUnit_pins (s : State) : (nextUnit s).pins = s.pins := rfl

@[simp] theorem sendAt_pins (s : State) (n : Nat) (a : Nat) (u : FUnit) (t : Option Tlp) (hpa : Option (Nat × BitVec 46)) :
    (sendAt s n a u t hpa).pins = s.pins := by
  unfold sendAt; split <;> rfl

@[simp] theorem send_pins (s : State) (u : FUnit) : (send s u).pins = s.pins := by simp [send]

@[simp] theorem sendTlpBy_pins (s : State) (n : Nat) (a : Nat) (t : Tlp) (src : BitVec 12) (dst : BitVec 12) (tag : BitVec 16) (f : FUnit → FUnit) :
    (sendTlpBy s n a t src dst tag f).pins = s.pins := by
  simp [sendTlpBy]

@[simp] theorem sendTlp_pins (s : State) (n : Nat) (a : Nat) (t : Tlp) (src : BitVec 12) (dst : BitVec 12) (tag : BitVec 16) :
    (sendTlp s n a t src dst tag).pins = s.pins := by
  simp [sendTlp]

@[simp] theorem sendSynth_pins (s : State) (n : Nat) (a : Nat) (t : Tlp) (src : BitVec 12) (dst : BitVec 12) (tag : BitVec 16) :
    (sendSynth s n a t src dst tag).pins = s.pins := by
  simp [sendSynth]

@[simp] theorem moverWriteGone_pins (s : State) (u : FUnit) : (moverWriteGone s u).pins = s.pins := by simp [moverWriteGone]

@[simp] theorem setEgress_pins (s : State) (port : Nat) (v : Vn) (l : List EgUnit) : (setEgress s port v l).pins = s.pins := rfl

@[simp] theorem setIngress_pins (s : State) (port : Nat) (v : Vn) (l : List InMsg) : (setIngress s port v l).pins = s.pins := rfl

@[simp] theorem egressPush_pins (s : State) (port : Nat) (h : Held) (m : Option LinkMsg) : (egressPush s port h m).pins = s.pins := by
  simp [egressPush]

@[simp] theorem hostSend_pins (s : State) (port : Nat) (v : Vn) (m : LinkMsg) : (hostSend s port v m).pins = s.pins := rfl

@[simp] theorem egressTaken_pins (s : State) (port : Nat) (v : Vn) (id : Nat) (m : Option LinkMsg) :
    (egressTaken s port v id m).pins = s.pins := by
  unfold egressTaken; split <;> rfl

@[simp] theorem setVppb_pins (s : State) (v : Nat) (d : Nat) (x : Vppb) : (setVppb s v d x).pins = s.pins := rfl

@[simp] theorem bumpFn_pins (s : State) (fn : Nat) (e : Nat) (k : Nat) : (bumpFn s fn e k).pins = s.pins := by
  unfold bumpFn; repeat' split
  <;> simp

@[simp] theorem hostWrite_pins (s : State) (v : Nat) (rid : BitVec 16) (addr : Nat) (data : List Byte) (poison : Bool) :
    (hostWrite s v rid addr data poison).pins = s.pins := by
  unfold hostWrite; split <;> simp

@[simp] theorem setLogCh_pins (s : State) (c : Nat) (x : LogCh) : (setLogCh s c x).pins = s.pins := rfl

@[simp] theorem lcbWrite_pins (s : State) (c : Nat) (off : Nat) (data : List Byte) : (lcbWrite s c off data).pins = s.pins := by
  simp [lcbWrite]

@[simp] theorem lcbProducer_pins (s : State) (c : Nat) : (lcbProducer s c).pins = s.pins := by simp [lcbProducer]

@[simp] theorem logState_pins (s : State) (c : Nat) (x : LogCh) : (logState s c x).pins = s.pins := by simp [logState]

@[simp] theorem logEntry_pins (s : State) (c : Nat) (page : Nat) (x : LogCh) : (logEntry s c page x).pins = s.pins := by simp [logEntry]

@[simp] theorem logCount_pins (s : State) (c : Nat) (e : Nat) : (logCount s c e).pins = s.pins := by simp [logCount]

@[simp] theorem logEvent_pins (s : State) (c : Nat) (a : Nat) : (logEvent s c a).pins = s.pins := by simp [logEvent]

@[simp] theorem logTrackers_pins (s : State) (v a : Nat) : (logTrackers s v a).pins = s.pins := by simp [logTrackers]

@[simp] theorem setProxy_pins (s : State) (v : Nat) (x : Proxy) : (setProxy s v x).pins = s.pins := rfl

@[simp] theorem flushed_pins (s : State) (p : Nat) (u : FUnit) : (flushed s p u).pins = s.pins := by simp [flushed]

@[simp] theorem answerHost_pins (s : State) (p : Nat) (vn : Vn) (id : Nat) (m : LinkMsg) : (answerHost s p vn id m).pins = s.pins := by
  simp [answerHost]

@[simp] theorem tellHost_pins (s : State) (p : Nat) (vn : Vn) (m : LinkMsg) : (tellHost s p vn m).pins = s.pins := by simp [tellHost]

@[simp] theorem issueUnit_pins (s : State) (v : Nat) (p : Nat) (ty : Nat) (vn : Vn) (tag : Nat) (hpa : BitVec 46) (payload : BitVec 512) (poison : Bool) (since : Nat) :
    (issueUnit s v p ty vn tag hpa payload poison since).pins = s.pins := by
  simp [issueUnit]

@[simp] theorem issueReq_pins (s : State) (v : Nat) (p : Nat) (e : ProxyReq) (since : Nat) : (issueReq s v p e since).pins = s.pins := by
  simp [issueReq]

@[simp] theorem issueWrite_pins (s : State) (v : Nat) (p : Nat) (e : ProxyWrite) (since : Nat) :
    (issueWrite s v p e since).pins = s.pins := by
  simp [issueWrite]

@[simp] theorem issueEvict_pins (s : State) (v : Nat) (p : Nat) (e : ProxyEvict) (since : Nat) :
    (issueEvict s v p e since).pins = s.pins := by
  simp [issueEvict]

@[simp] theorem evictionFreed_pins (s : State) (v : Nat) (p : Nat) (hpa : BitVec 46) : (evictionFreed s v p hpa).pins = s.pins := by
  simp [evictionFreed]

@[simp] theorem snoopReply_pins (s : State) (v : Nat) (p : Nat) (sn : ProxySnoop) (dirty : Option (LineData × Bool)) (keptS : Bool) :
    (snoopReply s v p sn dirty keptS).pins = s.pins := by
  unfold snoopReply; repeat' split
  <;> simp

@[simp] theorem snoopLost_pins (s : State) (v : Nat) (p : Nat) (src : BitVec 12) (tag : BitVec 16) (l : BitVec 42) :
    (snoopLost s v p src tag l).pins = s.pins := by
  simp [snoopLost]

@[simp] theorem dropSnoop_pins (s : State) (v : Nat) (bt : Nat) : (dropSnoop s v bt).pins = s.pins := rfl

@[simp] theorem sendBiSnp_pins (s : State) (v : Nat) (p : Nat) (sn : ProxySnoop) (d : Option (LineData × Bool)) :
    (sendBiSnp s v p sn d).pins = s.pins := by
  unfold sendBiSnp; split <;> simp

@[simp] theorem snoopAct_pins (s : State) (v : Nat) (p : Nat) (sn : ProxySnoop) : (snoopAct s v p sn).pins = s.pins := by
  unfold snoopAct; split <;> simp

@[simp] theorem releaseSnoops_pins (s : State) (v : Nat) (p : Nat) : (releaseSnoops s v p).pins = s.pins := by simp [releaseSnoops]

@[simp] theorem ingressTaken_pins (s : State) (p : Nat) (vn : Vn) : (ingressTaken s p vn).pins = s.pins := rfl

@[simp] theorem hostRequest_pins (s : State) (v : Nat) (p : Nat) (k : HostReqKind) (m : Meta) (hpa : BitVec 46) (tag : BitVec 16) (since : Nat) :
    (hostRequest s v p k m hpa tag since).pins = s.pins := by
  unfold hostRequest
  dsimp only
  (repeat' split) <;> (try dsimp only) <;> simp

@[simp] theorem dropEntry_pins (s : State) (v : Nat) (t : Nat) : (dropEntry s v t).pins = s.pins := rfl

@[simp] theorem give_pins (s : State) (p : Nat) (vn : Vn) (unit : Option Nat) (m : LinkMsg) : (give s p vn unit m).pins = s.pins := by
  unfold give; split <;> simp

@[simp] theorem giveNothing_pins (s : State) (p : Nat) (vn : Vn) (unit : Option Nat) : (giveNothing s p vn unit).pins = s.pins := by
  unfold giveNothing; repeat' split
  <;> simp

@[simp] theorem finishEntry_pins (s : State) (v : Nat) (p : Nat) (t : Nat) (vn : Vn) (unit : Option Nat) (m : LinkMsg) :
    (finishEntry s v p t vn unit m).pins = s.pins := by
  simp [finishEntry]

@[simp] theorem reqData_pins (s : State) (v : Nat) (p : Nat) (unit : Option Nat) (e : ProxyReq) (g : Nat) (poison : Bool) (d : LineData) :
    (reqData s v p unit e g poison d).pins = s.pins := by
  simp [reqData]

@[simp] theorem nackWb_pins (s : State) (v : Nat) (p : Nat) (e : ProxyEvict) : (nackWb s v p e).pins = s.pins := by simp [nackWb]

@[simp] theorem evictRefused_pins (s : State) (v : Nat) (p : Nat) (e : ProxyEvict) : (evictRefused s v p e).pins = s.pins := by
  simp [evictRefused]

@[simp] theorem writeFreed_pins (s : State) (v : Nat) (p : Nat) : (writeFreed s v p).pins = s.pins := by
  unfold writeFreed; dsimp only; split <;> simp

@[simp] theorem failEntry_pins (s : State) (v : Nat) (p : Nat) (t : Nat) (unit : Option Nat) (poison : Bool) :
    (failEntry s v p t unit poison).pins = s.pins := by
  unfold failEntry
  dsimp only
  split
  · split <;> simp
  · split
    · simp
    · split <;> simp

@[simp] theorem nackEntry_pins (s : State) (v : Nat) (p : Nat) (t : Nat) :
    (nackEntry s v p t).pins = s.pins := by
  unfold nackEntry
  dsimp only
  split
  · rw [releaseSnoops_pins]
    split <;> simp
  · split
    · rw [releaseSnoops_pins]
      split <;> simp
    · rfl

@[simp] theorem goWrite_pins (s : State) (v : Nat) (p : Nat) (e : ProxyWrite) (h : Nat) (l : BitVec 42) :
    (goWrite s v p e h l).pins = s.pins := by
  simp [goWrite]

@[simp] theorem rspReq_pins (s : State) (v : Nat) (p : Nat) (h : Held) (e : ProxyReq) : (rspReq s v p h e).pins = s.pins := by
  unfold rspReq; split <;> simp

@[simp] theorem rspWrite_pins (s : State) (v : Nat) (p : Nat) (h : Held) (e : ProxyWrite) : (rspWrite s v p h e).pins = s.pins := by
  unfold rspWrite; split <;> simp

@[simp] theorem rspEvict_pins (s : State) (v : Nat) (p : Nat) (h : Held) (e : ProxyEvict) : (rspEvict s v p h e).pins = s.pins := by
  unfold rspEvict; split <;> simp

@[simp] theorem discardQuarantined_pins (s : State) (p : Nat) (vn : Vn) (id : Nat) : (discardQuarantined s p vn id).pins = s.pins := rfl

@[simp] theorem proxyResponse_pins (s : State) (v : Nat) (p : Nat) (vn : Vn) : (proxyResponse s v p vn).pins = s.pins := by
  unfold proxyResponse; repeat' split
  <;> simp

@[simp] theorem downResponse_pins (s : State) (v : Nat) (p : Nat) (h : Held) : (downResponse s v p h).pins = s.pins := by
  simp [downResponse]

@[simp] theorem setEjectBuf_pins (s : State) (n : Nat) (a : Nat) (v : Vn) (l : List Held) : (setEjectBuf s n a v l).pins = s.pins := rfl

@[simp] theorem setPool_pins (s : State) (p : Nat) (x : PoolAgent) : (setPool s p x).pins = s.pins := rfl

@[simp] theorem aerAt_pins (s : State) (p : Nat) (ld : Nat) (f : AerState → AerState) : (aerAt s p ld f).pins = s.pins := by
  unfold aerAt; repeat' split
  <;> simp

@[simp] theorem bumpPort_pins (s : State) (p : Nat) (ld : Nat) (e : Nat) (k : Nat) : (bumpPort s p ld e k).pins = s.pins := by
  unfold bumpPort; split <;> rfl

@[simp] theorem aerUnsupported_pins (s : State) (p : Nat) (t : Tlp) : (aerUnsupported s p t).pins = s.pins := by simp [aerUnsupported]

@[simp] theorem npDrop_pins (s : State) (p : Nat) (rid : BitVec 16) (tag : BitVec 16) : (npDrop s p rid tag).pins = s.pins := rfl

@[simp] theorem npAnswer_pins (s : State) (p : Nat) (rid : BitVec 16) (tag : BitVec 16) (st : Nat) :
    (npAnswer s p rid tag st).pins = s.pins := by
  unfold npAnswer; split <;> rfl

@[simp] theorem ioUnreachable_pins (s : State) (p : Nat) (h : Held) : (ioUnreachable s p h).pins = s.pins := by
  unfold ioUnreachable; split <;> simp

@[simp] theorem answerMemRd_pins (s : State) (p : Nat) (u : FUnit) : (answerMemRd s p u).pins = s.pins := by simp [answerMemRd]

@[simp] theorem answerMemWr_pins (s : State) (p : Nat) (u : FUnit) : (answerMemWr s p u).pins = s.pins := by simp [answerMemWr]

@[simp] theorem dropPoolWrite_pins (s : State) (p : Nat) (u : FUnit) : (dropPoolWrite s p u).pins = s.pins := rfl

@[simp] theorem ioAnswer_pins (s : State) (p : Nat) (u : FUnit) (t : Tlp) (st : Nat) : (ioAnswer s p u t st).pins = s.pins := by
  simp [ioAnswer]

@[simp] theorem downSnoop_pins (s : State) (p : Nat) (u : FUnit) : (downSnoop s p u).pins = s.pins := by
  unfold downSnoop; split <;> simp

@[simp] theorem downArrival_pins (s : State) (p : Nat) (h : Held) : (downArrival s p h).pins = s.pins := by
  unfold downArrival; repeat' split
  <;> simp

theorem npArrived_pins {s t : State} {p : Nat} {h : Held} (arrived : npArrived s p h = some t) : t.pins = s.pins := by
  unfold npArrived at arrived
  repeat' split at arrived
  all_goals
    cases arrived
  all_goals simp

@[simp] theorem portArrive_pins (s : State) (p : Nat) (h : Held) :
    (portArrive s p h).pins = s.pins := by
  unfold portArrive
  dsimp only
  split
  · split
    · simp
    · split
      · simp
      · split
        · next arrived => exact (egressPush_pins ..).trans (npArrived_pins arrived)
        · simp
  · split
    · split <;> simp
    · split <;> simp

@[simp] theorem snoopDeliver_pins (s : State) (k : Nat) (h : Held) :
    (snoopDeliver s k h).pins = s.pins :=
  foldl_pins _ _ _ fun t v => by
    dsimp only
    split <;> simp

@[simp] theorem deliver_pins (s : State) (n : Nat) (a : Nat) (h : Held) :
    (deliver s n a h).pins = s.pins := by
  unfold deliver
  split
  · rfl
  · dsimp only
    split
    · (repeat' split) <;> simp
    · simp

@[simp] theorem setSlice_pins (s : State) (l : Nat) (x : HomeSlice) : (setSlice s l x).pins = s.pins := rfl

@[simp] theorem setTracker_pins (s : State) (l : Nat) (t : Nat) (k : Tracker) : (setTracker s l t k).pins = s.pins := rfl

@[simp] theorem setBuf_pins (s : State) (l : Nat) (b : Nat) (e : BufEntry) : (setBuf s l b e).pins = s.pins := rfl

@[simp] theorem setBacking_pins (s : State) (g : Nat) (e : BitVec 48) : (setBacking s g e).pins = s.pins := rfl

@[simp] theorem sendMemRd_pins (s : State) (l : Nat) (t : Nat) (k : Tracker) (p : Loc) : (sendMemRd s l t k p).pins = s.pins := by
  simp [sendMemRd]

@[simp] theorem sendMemWr_pins (s : State) (l : Nat) (b : Nat) (e : BufEntry) (p : Loc) : (sendMemWr s l b e p).pins = s.pins := by
  simp [sendMemWr]

@[simp] theorem remapAnswer_pins (s : State) (l : Nat) (op : RemapOp) : (remapAnswer s l op).pins = s.pins := by
  unfold remapAnswer; repeat' split
  <;> simp

@[simp] theorem unmappedReport_pins (s : State) (l : Nat) (g : Nat) : (unmappedReport s l g).pins = s.pins := by simp [unmappedReport]

@[simp] theorem remapSend_pins (s : State) (l : Nat) (op : RemapOp) (p : Loc) :
    (remapSend s l op p).pins = s.pins := by
  unfold remapSend
  split
  · split
    · split <;> simp
    · split <;> simp
  · simp

@[simp] theorem remapHold_pins (s : State) (l : Nat) (g : Nat) (page : Nat) (op : RemapOp) : (remapHold s l g page op).pins = s.pins := by
  unfold remapHold; repeat' split
  <;> simp

@[simp] theorem remapWith_pins (s : State) (l : Nat) (g : Nat) (page : Nat) (op : RemapOp) (e : BitVec 48) :
    (remapWith s l g page op e).pins = s.pins := by
  unfold remapWith; repeat' split
  <;> simp

@[simp] theorem remapLookup_pins (s : State) (l : Nat) (op : RemapOp) : (remapLookup s l op).pins = s.pins := by
  unfold remapLookup; repeat' split
  <;> simp

@[simp] theorem remapOp_pins (s : State) (l : Nat) (op : RemapOp) : (remapOp s l op).pins = s.pins := by simp [remapOp]

@[simp] theorem answerDat_pins (s : State) (l : Nat) (g : Nat) (r : ReqInfo) (line : BitVec 42) (data : LineData) (poison : Bool) (synth : Bool) :
    (answerDat s l g r line data poison synth).pins = s.pins := by
  simp [answerDat]

@[simp] theorem memRead_pins (s : State) (l : Nat) (t : Nat) (k : Tracker) : (memRead s l t k).pins = s.pins := by
  unfold memRead; split <;> simp

@[simp] theorem poolDown_pins (s : State) (p : Nat) : (poolDown s p).pins = s.pins := by simp [poolDown]

@[simp] theorem sessSet_pins (s : State) (id : Nat) (idx : Nat) (sub : Nat) (v : Nat) : (sessSet s id idx sub v).pins = s.pins := rfl

@[simp] theorem setMove_pins (s : State) (m : Nat) (x : Move) : (setMove s m x).pins = s.pins := rfl

@[simp] theorem startWrite_pins (s : State) (w : RemapWrite) : (startWrite s w).pins = s.pins := rfl

@[simp] theorem askWrite_pins (s : State) (w : RemapWrite) : (askWrite s w).pins = s.pins := by unfold askWrite; split <;> rfl

@[simp] theorem releasePage_pins (s : State) (g p : Nat) :
    (releasePage s g p).pins = s.pins := by
  unfold releasePage
  generalize List.range 32 = l
  refine foldl_pins _ _ _ fun t l => (foldl_pins _ _ _ fun r q => ?_).trans (setSlice_pins ..)
  rw [remapWith_pins]
  (repeat' split) <;> simp

@[simp] theorem salvageEnd_pins (s : State) (m : Nat) (x : Move) : (salvageEnd s m x).pins = s.pins := by simp [salvageEnd]

@[simp] theorem abandonPage_pins (s : State) (m : Nat) (x : Move) : (abandonPage s m x).pins = s.pins := by simp [abandonPage]

@[simp] theorem dropWaiting_pins (s : State) (m : Nat) : (dropWaiting s m).pins = s.pins := rfl

@[simp] theorem restoreLost_pins (s : State) (m : Nat) (x : Move) : (restoreLost s m x).pins = s.pins := rfl

@[simp] theorem moveLost_pins (s : State) (p : Nat) (mask : BitVec 16) (m : Nat) : (moveLost s p mask m).pins = s.pins := by
  unfold moveLost; repeat' split
  <;> simp

@[simp] theorem moveLoss_pins (s : State) (p : Nat) (mask : BitVec 16) : (moveLoss s p mask).pins = s.pins := by simp [moveLoss]

@[simp] theorem poolLost_pins (s : State) (p : Nat) (mask : BitVec 16) : (poolLost s p mask).pins = s.pins := by simp [poolLost]

@[simp] theorem putVppb_pins (s : State) (v : Nat) (d : Nat) (x : Vppb) : (putVppb s v d x).pins = s.pins := rfl

@[simp] theorem setHostRequest_pins (s : State) (c : Nat) (r : Option Bool) : (setHostRequest s c r).pins = s.pins := rfl

@[simp] theorem bgDone_pins (s : State) (op : Nat) (obj : Nat) : (bgDone s op obj).pins = s.pins := rfl

@[simp] theorem bindStatus_pins (s : State) (asker : Nat) (st : Nat) : (bindStatus s asker st).pins = s.pins := by simp [bindStatus]

@[simp] theorem bindDone_pins (s : State) (v : Nat) (d : Nat) (op : Nat) : (bindDone s v d op).pins = s.pins := by simp [bindDone]

@[simp] theorem hotplug_pins (s : State) (v : Nat) (d : Nat) : (hotplug s v d).pins = s.pins := by simp [hotplug]

@[simp] theorem becomeBound_pins (s : State) (v d : Nat) : (becomeBound s v d).pins = s.pins := by
  unfold becomeBound; dsimp only; split <;> simp

@[simp] theorem dropPosted_pins (s : State) (v : Nat) (p : Nat) (ld : Nat) : (dropPosted s v p ld).pins = s.pins := rfl

@[simp] theorem bindingEnds_pins (s : State) (v : Nat) (d : Nat) :
    (bindingEnds s v d).pins = s.pins := by
  unfold bindingEnds
  dsimp only
  rw [bindDone_pins, putVppb_pins]
  (repeat' split) <;> simp

@[simp] theorem bindsLinkDown_pins (s : State) (p : Nat) :
    (bindsLinkDown s p).pins = s.pins :=
  foldl_pins _ _ _ fun t b => by
    dsimp only
    (repeat' split) <;> simp

@[simp] theorem setLinkState_pins (s : State) (p : Nat) (n : Nat) : (setLinkState s p n).pins = s.pins := rfl

@[simp] theorem trainPort_pins (s : State) (p : Nat) : (trainPort s p).pins = s.pins := by simp [trainPort]

@[simp] theorem flushPair_pins (s : State) (p : Nat) (v : Vn) :
    (flushPair s p v).pins = s.pins :=
  (foldl_pins _ _ _ fun t e => by split <;> simp).trans rfl

@[simp] theorem flushDirty_pins (s : State) (v : Nat) (p : Nat) (sn : ProxySnoop) : (flushDirty s v p sn).pins = s.pins := by
  unfold flushDirty; split <;> simp

@[simp] theorem flushSnoops_pins (s : State) (v p : Nat) : (flushSnoops s v p).pins = s.pins := by simp [flushSnoops]

@[simp] theorem muteEntries_pins (s : State) (v : Nat) : (muteEntries s v).pins = s.pins := rfl

@[simp] theorem flushSent_pins (s : State) (p : Nat) : (flushSent s p).pins = s.pins := by simp [flushSent]

@[simp] theorem flushIngress_pins (s : State) (p : Nat) : (flushIngress s p).pins = s.pins := rfl

theorem forHost_pins {f : State → Nat → State} (s : State) (o : Option Nat) (h : ∀ t v, (f t v).pins = t.pins) :
    (forHost s f o).pins = s.pins := by
  cases o with
  | none => rfl
  | some v => exact h s v

@[simp] theorem flushPort_pins (s : State) (p : Nat) :
    (flushPort s p).pins = s.pins := by
  unfold flushPort
  extract_lets key s0 s1 swc s2 s3
  have pairs : s1.pins = s.pins :=
    (foldl_pins (fun t v => flushPair t p v) allVns s0 fun t v => flushPair_pins t p v).trans (forHost_pins s _ muteEntries_pins)
  clear_value s1
  rw [forHost_pins _ _ fun t v => flushSnoops_pins t v p, flushIngress_pins, flushSent_pins, poolDown_pins]
  exact pairs

@[simp] theorem ideEnds_pins (s : State) (p : Nat) : (ideEnds s p).pins = s.pins := rfl

@[simp] theorem linkFalls_pins (s : State) (p : Nat) : (linkFalls s p).pins = s.pins := by simp [linkFalls]

@[simp] theorem margin_pins (s : State) (p : Nat) (lane : Nat) (timing : Bool) (steps : Int) :
    (margin s p lane timing steps).pins = s.pins := by
  simp [margin]

@[simp] theorem shown_pins (s : State) : (shown s).pins = s.pins := by unfold shown; split <;> rfl

end Sys2Proof.Proofs.Traffic

/-!
Bindings of a vPPB (R88, R89, R101): its record and what the dictionary shows of it, the answer to a binding command, and the two ways in
which a binding ends.
-/

namespace Sys2Proof.Proofs.Bindings

open Sys2Proof Sys2Proof.Machine Sys2Proof.Laws Sys2Proof.Proofs.Shared

/-! ### The record of a vPPB -/

@[simp] theorem vppb_putVppb (s : State) (v d : Nat) (x : Vppb) : vppb (putVppb s v d x) v d = x := tabGet_set_same vppbReset _ x _

theorem vppb_putVppb_other (s : State) {v d w e : Nat} (x : Vppb) (hd : d < 32) (he : e < 32) (h : w ≠ v ∨ e ≠ d) :
    vppb (putVppb s v d x) w e = vppb s w e :=
  tabGet_set_other (by omega) _ _ _ _

@[simp] theorem shown_putVppb (s : State) (v d : Nat) (x : Vppb) : odGet (putVppb s v d x) (0x2400 + v) (d + 1) = x.shown :=
  odGet_odSet_same ..

theorem putVppb_frame (s : State) (v d : Nat) (x : Vppb) :
    putVppb s v d x = { s with od := (putVppb s v d x).od, port := (putVppb s v d x).port } := rfl

theorem vppb_congr {s t : State} (h : t.port.binds = s.port.binds) : vppb t = vppb s := by
  funext v d; simp only [vppb, h]

theorem vppb_emit (s : State) (o : Out) : vppb (emit s o) = vppb s := vppb_congr (congrArg PortState.binds (emit_port s o))

/-! ### The outcome of a command -/

/-- R393: the values of a session change, and nothing else. -/
theorem bindStatus_frame (s : State) (asker st : Nat) : bindStatus s asker st = { s with spr := (bindStatus s asker st).spr } := by
  unfold bindStatus
  split <;> rfl

@[simp] theorem bindStatus_port (s : State) (a st : Nat) : (bindStatus s a st).port = s.port := by rw [bindStatus_frame]
@[simp] theorem bindStatus_out (s : State) (a st : Nat) : (bindStatus s a st).out = s.out := by rw [bindStatus_frame]
@[simp] theorem bindStatus_od (s : State) (a st : Nat) : (bindStatus s a st).od = s.od := by rw [bindStatus_frame]

@[simp] theorem bgStart_binds (s : State) (op obj : Nat) : (bgStart s op obj).port.binds = s.port.binds := rfl
@[simp] theorem bgDone_binds (s : State) (op obj : Nat) : (bgDone s op obj).port.binds = s.port.binds := rfl

/-- R101: vPPB `d` of VCS `v` has become `x`, and a background operation has started on it for its source. -/
def startedWith (s : State) (src : FmSource) (v d op : Nat) (x : Vppb) : State :=
  bindNote (bgStart (putVppb s v d x) op (v * 32 + d)) src .started

theorem startedWith_frame (s : State) (src : FmSource) (v d op : Nat) (x : Vppb) : startedWith s src v d op x =
    { s with od := (startedWith s src v d op x).od, spr := (startedWith s src v d op x).spr
             port := (startedWith s src v d op x).port } := by
  unfold startedWith bindNote
  rw [bindStatus_frame]
  rfl

theorem vppb_startedWith (s : State) (src : FmSource) (v d op : Nat) (x : Vppb) :
    vppb (startedWith s src v d op x) = vppb (putVppb s v d x) := by
  refine vppb_congr ?_
  unfold startedWith bindNote
  rw [bindStatus_port, bgStart_binds]

theorem odGet_startedWith (s : State) (src : FmSource) (v d op : Nat) (x : Vppb) (i j : Nat) :
    odGet (startedWith s src v d op x) i j = odGet (putVppb s v d x) i j := by
  refine odGet_congr ?_ i j
  unfold startedWith bindNote
  rw [bindStatus_od]
  rfl

@[simp] theorem startedWith_out (s : State) (src : FmSource) (v d op : Nat) (x : Vppb) : (startedWith s src v d op x).out = s.out := by
  rw [startedWith_frame]

/-- R101: a command that has completed leaves the records and the entries of all vPPBs, and sends nothing by itself. -/
theorem bindDone_leaves (s : State) (v d op : Nat) : (bindDone s v d op).port.binds = s.port.binds ∧ (bindDone s v d op).od = s.od ∧
    (bindDone s v d op).out = s.out := by
  unfold bindDone
  dsimp only
  rw [notify_port, notify_od, notify_out]
  refine ⟨?_, ?_, ?_⟩
  · simp
  · exact bindStatus_od ..
  · exact bindStatus_out ..

/-- R101: the answer that a binding command gives its source. -/
def answerTo (src : FmSource) (rc : FmRc) : Out :=
  match src with
  | .fmapi => .fmapi rc []
  | .session _ => .status (rcStatus rc)

theorem bindSay_eq (s : State) (src : FmSource) (rc : FmRc) : bindSay s src rc = emit s (answerTo src rc) := by cases src <;> rfl

theorem answerTo_ok (src : FmSource) {rc : FmRc} (h : rcStatus rc = .ok) :
    answerTo src rc = if src = .fmapi then .fmapi rc [] else .status .ok := by
  cases src <;> simp [answerTo, h]

theorem answerTo_invalidInput (src : FmSource) :
    answerTo src .invalidInput = if src = .fmapi then .fmapi .invalidInput [] else .status .wrongState := by
  cases src <;> simp [answerTo, rcStatus]

theorem exec_bindVppb (src : FmSource) (v : Fin 64) (d : Fin 32) (p : Fin 96) (l : Fin 16) (s : State) :
    exec (.bindVppb src v d p l) s = .next (emit (bindVppb s src v.val d.val p.val l.val).1
      (answerTo src (bindVppb s src v.val d.val p.val l.val).2)) :=
  congrArg Host.Outcome.next (bindSay_eq ..)

theorem exec_unbindVppb (src : FmSource) (v : Fin 64) (d : Fin 32) (o : Fin 3) (s : State) :
    exec (.unbindVppb src v d o) s = .next (emit (unbindVppb s src v.val d.val o.val).1
      (answerTo src (unbindVppb s src v.val d.val o.val).2)) :=
  congrArg Host.Outcome.next (bindSay_eq ..)

/-! ### Bind -/

/-- R88: vPPB `d` of VCS `v` as a Bind makes it BINDING. -/
def bindingRecord (s : State) (src : FmSource) (v d p l : Nat) : Vppb :=
  { vppb s v d with state := .binding, port := p, ld := l, presence := partnerPresent s p, asker := askerOf src }

section Bind

variable {s : State} {src : FmSource} {v : Fin 64} {d : Fin 32} {p : Fin 96} {l : Fin 16}

theorem bindVppb_row (device : 2 ≤ d.val) : bindVppb s src v.val d.val p.val l.val =
    match (vppb s v.val d.val).state with
    | .binding => bindRefused s src .busy
    | .unbinding => bindRefused s src .busy
    | .bound => bindRefused s src .invalidInput
    | .unbound =>
      if mayBind s p.val l.val then
        (startedWith s src v.val d.val 0x5201 (bindingRecord s src v.val d.val p.val l.val), .started)
      else bindRefused s src .invalidInput :=
  if_neg (by omega)

theorem bindVppb_starts (device : 2 ≤ d.val) (unbound : (vppb s v.val d.val).state = .unbound) (may : mayBind s p.val l.val = true) :
    bindVppb s src v.val d.val p.val l.val =
      (startedWith s src v.val d.val 0x5201 (bindingRecord s src v.val d.val p.val l.val), .started) := by
  simp only [bindVppb_row device, unbound, may, if_true]

theorem bindVppb_refused (h : d.val < 2 ∨ (vppb s v.val d.val).state = .bound ∨
    ((vppb s v.val d.val).state = .unbound ∧ mayBind s p.val l.val = false)) :
    bindVppb s src v.val d.val p.val l.val = bindRefused s src .invalidInput := by
  by_cases small : d.val < 2
  · exact if_pos (.inl small)
  · rw [bindVppb_row (by omega)]
    rcases h with h | h | ⟨h, no⟩
    · exact absurd h small
    · simp only [h]
    · simp only [h, no, Bool.false_eq_true, if_false]

end Bind

/-! ### The partner comes up -/

/-- R88: vPPB `d` of VCS `v` as it becomes BOUND. -/
def boundRecord (s : State) (v d : Nat) : Vppb :=
  { vppb s v d with
    state := .bound, presence := partnerPresent s (vppb s v d).port, presenceChanged := true, linkChanged := true }

theorem hotplug_port (s : State) (v d : Nat) : (hotplug s v d).port = s.port := by unfold hotplug; split <;> rfl

theorem hotplug_out (s : State) (v d : Nat) :
    (hotplug s v d).out = s.out ++ (if (vppb s v d).hotplugOn = true then [Out.hotplug v d] else []) := by
  unfold hotplug
  split <;> simp

theorem becomeBound_leaves (s : State) (v d : Nat) : vppb (becomeBound s v d) v d = boundRecord s v d ∧
    (becomeBound s v d).out = s.out ++ (if (vppb s v d).hotplugOn = true then [Out.hotplug v d] else []) := by
  have shown : (hotplug (putVppb s v d (boundRecord s v d)) v d).port = (putVppb s v d (boundRecord s v d)).port ∧
      (hotplug (putVppb s v d (boundRecord s v d)) v d).out =
        s.out ++ (if (vppb s v d).hotplugOn = true then [Out.hotplug v d] else []) := by
    refine ⟨hotplug_port .., ?_⟩
    rw [hotplug_out, vppb_putVppb]
    rfl
  obtain ⟨port, out⟩ := shown
  obtain ⟨binds, -, sent⟩ := bindDone_leaves
    (match slotOfPort (hotplug (putVppb s v d (boundRecord s v d)) v d) (vppb s v d).port with
      | some c => setHostRequest (hotplug (putVppb s v d (boundRecord s v d)) v d) c
        (some (slotRequestNow (hotplug (putVppb s v d (boundRecord s v d)) v d) c))
      | none => hotplug (putVppb s v d (boundRecord s v d)) v d) v d 0x5201
  constructor
  · refine (congrFun (congrFun (vppb_congr (s := putVppb s v d (boundRecord s v d)) (binds.trans ?_)) v) d).trans (vppb_putVppb ..)
    split <;> exact congrArg PortState.binds port
  · refine sent.trans (.trans ?_ out)
    split <;> rfl

/-! ### Unbind -/

/-- R88: vPPB `d` of VCS `v` as an Unbind makes it UNBINDING. -/
def unbindingRecord (s : State) (src : FmSource) (v d o : Nat) : Vppb :=
  { vppb s v d with state := .unbinding, option := o, attention := decide (o = 1), asker := askerOf src }

/-- The command under way. -/
def unbindStarted (s : State) (src : FmSource) (v d o : Nat) : State := startedWith s src v d 0x5202 (unbindingRecord s src v d o)

section Unbind

variable {s : State} {src : FmSource} {v : Fin 64} {d : Fin 32} {o : Fin 3} (device : 2 ≤ d.val)
  (bound : (vppb s v.val d.val).state = .bound)
include device bound

theorem unbindVppb_row : unbindVppb s src v.val d.val o.val =
    if o.val = 2 then
      (bindNote (bindingEnds (putVppb s v.val d.val (unbindingRecord s src v.val d.val o.val)) v.val d.val) src .success, .success)
    else
      (if o.val = 1 then hotplug (unbindStarted s src v.val d.val o.val) v.val d.val else unbindStarted s src v.val d.val o.val,
        .started) := by
  have inRange : ¬ (d.val < 2 ∨ 31 < d.val ∨ 63 < v.val) := by omega
  simp only [unbindVppb, if_neg inRange, bound]
  rfl

theorem unbindVppb_waits (wait : o.val ≠ 2) : unbindVppb s src v.val d.val o.val =
    (if o.val = 1 then hotplug (unbindStarted s src v.val d.val o.val) v.val d.val else unbindStarted s src v.val d.val o.val,
      .started) := by
  rw [unbindVppb_row device bound, if_neg wait]

theorem unbindVppb_surprise (surprise : o.val = 2) : unbindVppb s src v.val d.val o.val =
    (bindNote (bindingEnds (putVppb s v.val d.val (unbindingRecord s src v.val d.val o.val)) v.val d.val) src .success, .success) := by
  rw [unbindVppb_row device bound, if_pos surprise]

end Unbind

/-- R88: what an Unbind that waits leaves of vPPB `d` of VCS `v`, and what it has sent. -/
theorem unbindWaits_leaves (s : State) (src : FmSource) (v d o : Nat) {t : State}
    (ht : t = if o = 1 then hotplug (unbindStarted s src v d o) v d else unbindStarted s src v d o) :
    vppb t v d = unbindingRecord s src v d o ∧
      t.out = s.out ++ (if o = 1 ∧ (vppb s v d).hotplugOn = true then [Out.hotplug v d] else []) ∧
      t = { s with od := t.od, spr := t.spr, port := t.port, out := t.out } := by
  have record : vppb (unbindStarted s src v d o) v d = unbindingRecord s src v d o := by
    rw [unbindStarted, vppb_startedWith, vppb_putVppb]
  have frame : unbindStarted s src v d o = { s with
      od := (unbindStarted s src v d o).od, spr := (unbindStarted s src v d o).spr, port := (unbindStarted s src v d o).port } :=
    startedWith_frame ..
  subst ht
  split
  · next managed =>
    refine ⟨?_, ?_, ?_⟩
    · rw [vppb_congr (congrArg PortState.binds (hotplug_port _ v d)), record]
    · rw [hotplug_out, record, frame]
      simp [managed, unbindingRecord]
    · unfold hotplug
      rw [frame]
      split <;> rfl
  · next other =>
    refine ⟨record, ?_, ?_⟩
    · rw [frame]; simp [other]
    · rw [frame]

/-! ### A binding ends -/

/-- R88, R89: whatever else the end of a binding settles, the vPPB is UNBOUND and the dictionary shows nothing of it. -/
theorem bindingEnds_leaves (s : State) (v d : Nat) :
    (vppb (bindingEnds s v d) v d).state = .unbound ∧ (vppb (bindingEnds s v d) v d).port = 0 ∧
      odGet (bindingEnds s v d) (0x2400 + v) (d + 1) = 0 := by
  unfold bindingEnds
  extract_lets x gone s1 s2 s3 s4
  obtain ⟨binds, od, -⟩ := bindDone_leaves s4 v d 0x5202
  rw [vppb_congr binds, odGet_congr od]
  unfold s4
  rw [vppb_putVppb, shown_putVppb]
  exact ⟨rfl, rfl, rfl⟩

theorem bindNote_keepsBindings (s : State) (src : FmSource) (rc : FmRc) (v d : Nat) (o : Out) :
    vppb (emit (bindNote s src rc) o) v d = vppb s v d ∧ odGet (emit (bindNote s src rc) o) = odGet s := by
  refine ⟨?_, ?_⟩
  · rw [vppb_emit, vppb_congr (t := bindNote s src rc) (congrArg PortState.binds (bindStatus_port s _ _))]
  · funext i j
    exact odGet_congr (bindStatus_od s _ _) i j

/-- Settles O14: Bind by its rows, the link of its partner, and the three kinds of Unbind with their ends. -/
theorem bindings : Obligations.Bindings := by
  refine ⟨fun src v d p l s device unbound may => ?_, fun src v d p l s refused => ?_, fun v d s binding up => ?_,
    fun src v d o s device wait bound => ?_, fun src v d o s device surprise bound => ?_, fun v d s unbinding managed => ?_⟩
  · rw [exec_bindVppb, bindVppb_starts device unbound may]
    refine ⟨_, rfl, ?_, ?_, fun w e _ he other => ?_, ?_, ?_⟩
    · rw [vppb_emit, vppb_startedWith, vppb_putVppb]
      rfl
    · rw [odGet_emit, odGet_startedWith, shown_putVppb]
      simp [Vppb.shown, bindingRecord, BindState.code]
    · rw [vppb_emit, vppb_startedWith, vppb_putVppb_other s _ d.isLt he other]
    · rw [← answerTo_ok src rfl]
      simp
    · rw [startedWith_frame]
      rfl
  · rw [exec_bindVppb, bindVppb_refused refused]
    refine ⟨_, rfl, ?_, ?_⟩
    · rw [← answerTo_invalidInput]
      exact congrArg (· ++ [answerTo src .invalidInput]) (bindStatus_out ..)
    · unfold bindRefused bindNote
      dsimp only
      rw [bindStatus_frame]
      rfl
  · obtain ⟨record, out⟩ := becomeBound_leaves s v.val d.val
    exact ⟨_, if_pos ⟨binding, up⟩, record, out, (becomeBound_keep s v.val d.val).1⟩
  · rw [exec_unbindVppb, unbindVppb_waits device bound wait]
    obtain ⟨record, out, frame⟩ := unbindWaits_leaves s src v.val d.val o.val rfl
    refine ⟨_, rfl, record, ?_, ?_⟩
    · rw [← answerTo_ok src rfl]
      exact congrArg (· ++ [answerTo src .started]) out
    · rw [frame]
      rfl
  · rw [exec_unbindVppb, unbindVppb_surprise device bound surprise]
    obtain ⟨state, port, shown⟩ :=
      bindingEnds_leaves (putVppb s v.val d.val (unbindingRecord s src v.val d.val o.val)) v.val d.val
    obtain ⟨record, entries⟩ := bindNote_keepsBindings
      (bindingEnds (putVppb s v.val d.val (unbindingRecord s src v.val d.val o.val)) v.val d.val) src .success v.val d.val
      (answerTo src .success)
    refine ⟨_, rfl, by rw [record, state], by rw [record, port], by rw [entries, shown], ?_⟩
    rw [← answerTo_ok src rfl]
    simp
  · exact ⟨_, if_pos ⟨unbinding, managed⟩, bindingEnds_leaves s v.val d.val⟩

end Sys2Proof.Proofs.Bindings

/-!
The commands of the FM-API (R83, R97, R100, R101, R106, R107): the reports, the settings, and what goes out on the link of a port.
-/

namespace Sys2Proof.Proofs.FmApi

open Sys2Proof Sys2Proof.Machine Sys2Proof.Laws Sys2Proof.Proofs.Shared Sys2Proof.Proofs.Traffic

/-! ### Masks of ports and of VCSs -/

/-- R100: the mask of the numbers below `n` of which `f` holds, as `execIdentifySwitchDevice` gathers it. -/
def maskOf (n : Nat) (f : Nat → Bool) : Nat := (List.range n).foldl (fun m i => if f i then m + 2 ^ i else m) 0

theorem maskOf_succ (n : Nat) (f : Nat → Bool) : maskOf (n + 1) f = if f n then maskOf n f + 2 ^ n else maskOf n f := by
  simp [maskOf, List.range_succ]

theorem maskOf_lt (f : Nat → Bool) (n : Nat) : maskOf n f < 2 ^ n := by
  induction n with
  | zero => exact Nat.one_pos
  | succ n ih => rw [maskOf_succ, Nat.pow_succ]; split <;> omega

theorem testBit_maskOf (f : Nat → Bool) (n : Nat) {i : Nat} (h : i < n) : (maskOf n f).testBit i = f i := by
  induction n with
  | zero => omega
  | succ n ih =>
    have top := maskOf_lt f n
    rw [maskOf_succ]
    rcases Nat.lt_succ_iff_lt_or_eq.1 h with below | rfl
    · split
      · rw [Nat.add_comm, Nat.testBit_two_pow_add_gt below, ih below]
      · exact ih below
    · split
      · next on => rw [Nat.add_comm, Nat.testBit_two_pow_add_eq, Nat.testBit_lt_two_pow top, on]; rfl
      · next off => rw [Nat.testBit_lt_two_pow top]; exact (Bool.not_eq_true _ ▸ off).symm

/-! ### The report on physical ports -/

theorem portState_length (s : State) (p : Nat) : (portState s p).length = 10 := by simp [portState]

theorem getElem_flatMap_fixed {α : Type} (f : α → List Nat) {w : Nat} (wide : ∀ a, (f a).length = w) (l : List α) {k i : Nat}
    (hk : k < l.length) (hi : i < w) : (l.flatMap f)[w * k + i]? = (f l[k])[i]? := by
  induction l generalizing k with
  | nil => exact absurd hk (Nat.not_lt_zero k)
  | cons a l ih =>
    rw [List.flatMap_cons]
    cases k with
    | zero => rw [List.getElem?_append_left (by rw [wide]; omega)]; simp
    | succ k =>
      rw [List.getElem?_append_right (by rw [wide, Nat.mul_succ]; omega), wide,
        show w * (k + 1) + i - w = w * k + i by rw [Nat.mul_succ]; omega]
      exact ih (Nat.lt_of_succ_lt_succ hk)

theorem portStates_length (s : State) (l : List (Fin 96)) : (l.flatMap fun p => portState s p.val).length = 10 * l.length := by
  induction l with
  | nil => rfl
  | cons p l ih => rw [List.flatMap_cons, List.length_append, portState_length, ih, List.length_cons]; omega

/-- R100: the ten fields of the `k`th port that the report has room for. -/
theorem portStates_field (s : State) (ps : List (Fin 96)) {n k : Nat} (hk : k < ps.length) (room : k < n) {i : Nat} (hi : i < 10) :
    ((ps.take n).flatMap fun p => portState s p.val)[10 * k + i]? = (portState s ps[k].val)[i]? := by
  have shown : k < (ps.take n).length := by rw [List.length_take]; omega
  rw [getElem_flatMap_fixed (fun p : Fin 96 => portState s p.val) (fun p => portState_length s p.val) _ shown hi, List.getElem_take]

/-! ### Registers of a PPB -/

theorem cfgReg_cfgRegSet_other (s : State) {sp reg sp' reg' : Nat} (x : Nat) (hr : reg < 1024) (hr' : reg' < 1024)
    (h : sp' ≠ sp ∨ reg' ≠ reg) : cfgReg (cfgRegSet s sp reg x) sp' reg' = cfgReg s sp' reg' := by
  have apart : cfgKey sp' reg' ≠ cfgKey sp reg := by unfold cfgKey; omega
  unfold cfgReg cfgRegSet tabGet
  rw [tabFind_put_other apart]

/-- R100: what a register that has been written reads as, under the bits that the manual fixes. -/
theorem ppbRead_cfgRegSet (s : State) (p reg : Nat) (x : BitVec 32) : ppbRead (emit (cfgRegSet s p reg x.toNat) (.fmapi .success [])) p reg =
    (emit (cfgRegSet s p reg x.toNat) (.fmapi .success []),
      leBytes 4 ((x.toNat &&& (2 ^ 32 - 1 - (if (shownMps reg).mask = 0 then shownMargin s p reg else shownMps reg).mask)) |||
        (if (shownMps reg).mask = 0 then shownMargin s p reg else shownMps reg).value)) := by
  have written : tabFind? (cfgKey p reg) (emit (cfgRegSet s p reg x.toNat) (.fmapi .success [])).port.cfgRegs = some x.toNat := by
    rw [emit_port]
    exact (tabFind_put_same ..).trans (congrArg some (Nat.mod_eq_of_lt x.isLt))
  unfold ppbRead cfgReadWith
  dsimp only
  rw [written]
  rfl

/-! ### Requests to an LD of a multi-logical device -/

/-- R100: with no request of the fabric manager outstanding, tag 0 is free. -/
theorem fmTag_zero {s : State} (none97 : ∀ n ∈ s.port.np, n.fromPort ≠ 97) :
    ((List.range 4096).find? fun t => !(s.port.np.any fun n => decide (n.fromPort = 97) && decide (n.tag.toNat = t))) = some 0 := by
  have free : ∀ t : Nat, (s.port.np.any fun n => decide (n.fromPort = 97) && decide (n.tag.toNat = t)) = false := fun t =>
    List.any_eq_false.2 fun n hn => by simp [none97 n hn]
  simp only [free, Bool.not_false]
  rw [show 4096 = 4095 + 1 from rfl, List.range_succ_eq_map]
  rfl

/-- The packet that waits for its completion at the fabric manager. -/
def fmWait (p ld : Nat) (x : Tlp) : NonPosted :=
  { vcs := 64, fromPort := 97, toPort := p, ld := ld, tag := BitVec.ofNat 16 0, tlp := x, sent := true, refused := false, got := 0 }

section Requests

variable {s : State} {p ld : Nat} (mld : mldPort s p = true) (has : ld < odGet s (portIdx p) 0x15)
  (none97 : ∀ n ∈ s.port.np, n.fromPort ≠ 97)
include mld has none97

theorem fmSend_eq (cfg : Bool) (a : FmAccess) : fmSend s cfg p ld a =
    if (fmTlp cfg 0 ld a).kind = .memWrite then
      emit (hostSend s p (tlpType (fmTlp cfg 0 ld a).kind).1 (.tlp (fmTlp cfg 0 ld a))) (.fmapi .success [])
    else
      { hostSend s p (tlpType (fmTlp cfg 0 ld a).kind).1 (.tlp (fmTlp cfg 0 ld a)) with
        port := { s.port with np := s.port.np ++ [fmWait p ld (fmTlp cfg 0 ld a)] } } := by
  unfold fmSend
  rw [fmTag_zero none97, if_pos (by simp [mld, has])]
  rfl

theorem fmSend_waits (cfg : Bool) {a : FmAccess} (answered : (fmTlp cfg 0 ld a).kind ≠ .memWrite) :
    (fmSend s cfg p ld a).port.np = s.port.np ++ [fmWait p ld (fmTlp cfg 0 ld a)] ∧
      fmSend s cfg p ld a = { s with
        fab := (fmSend s cfg p ld a).fab, swc := (fmSend s cfg p ld a).swc, port := (fmSend s cfg p ld a).port } := by
  rw [fmSend_eq mld has none97, if_neg answered]
  exact ⟨rfl, rfl⟩

theorem fmSend_posted (cfg : Bool) {a : FmAccess} (posted : (fmTlp cfg 0 ld a).kind = .memWrite) :
    (fmSend s cfg p ld a).out = s.out ++ [.fmapi .success []] ∧
      fmSend s cfg p ld a = { s with
        fab := (fmSend s cfg p ld a).fab, swc := (fmSend s cfg p ld a).swc, out := (fmSend s cfg p ld a).out } := by
  rw [fmSend_eq mld has none97, if_pos posted]
  exact ⟨rfl, rfl⟩

end Requests

theorem fmSend_refused {s : State} {p ld : Nat} (h : mldPort s p = false ∨ odGet s (portIdx p) 0x15 ≤ ld) (cfg : Bool) (a : FmAccess) :
    fmSend s cfg p ld a = emit s (.fmapi .invalidInput []) := by
  unfold fmSend
  refine if_neg fun both => ?_
  obtain ⟨mld, has⟩ := Bool.and_eq_true_iff.1 both
  rcases h with no | few
  · simp [no] at mld
  · exact absurd (of_decide_eq_true has) (by omega)

/-! ### Settings -/

theorem regionConfig_set {s : State} {v r : Nat} (b n : Nat) (hr : r < 8) :
    let t := odSet (odSet s (0x2500 + v) (r + 1) b) (0x2540 + v) (r + 1) n
    regionBase t v r = b ∧ regionLen t v r = n ∧
      ∀ i j : Nat, j < 256 → (j ≠ r + 1 ∨ (i ≠ 0x2500 + v ∧ i ≠ 0x2540 + v)) → odGet t i j = odGet s i j := by
  refine ⟨?_, odGet_odSet_same .., fun i j hj other => ?_⟩
  · exact (odGet_odSet_index _ _ _ _ (by omega) (by omega) (by omega)).trans (odGet_odSet_same ..)
  · rw [odGet_odSet_ne _ _ (by omega) (by omega) hj, odGet_odSet_ne _ _ (by omega) (by omega) hj]

/-- R100: IDENTIFY and IDENTIFY_SWITCH_DEVICE. -/
theorem identify_answers (s : State) :
    (∃ vals : List Nat, exec .identify s = .next (emit s (.fmapi .success (odGet s 0x1000 7 :: vals))) ∧ vals.length = 33) ∧
    (∃ (ups act : Nat),
      exec .identifySwitchDevice s = .next (emit s (.fmapi .success
        [96, 64, ups, act, 2048, (s.port.binds.filter fun b => decide (b.2.state ≠ .unbound)).length, 32])) ∧
      (∀ p : Nat, p < 96 → (ups.testBit p = true ↔ portUp s p = true)) ∧
      (∀ v : Nat, v < 64 → (act.testBit v = true ↔ odGet s (0x2200 + v) 3 = 2))) := by
  refine ⟨⟨_, rfl, by simp⟩, maskOf 96 (portUp s), maskOf 64 fun v => decide (odGet s (0x2200 + v) 3 = 2), rfl, fun p hp => ?_, fun v hv => ?_⟩
  · rw [testBit_maskOf _ _ hp]
  · rw [testBit_maskOf _ _ hv, decide_eq_true_iff]

/-- Settles O15: the reports, the settings and the requests to a device of the FM-API, each by its own rule. -/
theorem fmApiReportsAndSettings : Obligations.FmApiReportsAndSettings := by
  refine ⟨fun s => ?_, fun n s low high => ?_, fun n s bad => ?_, fun p r x s => ?_, fun v d x s bound => ?_, fun v d x s unbound => ?_,
    fun v r b n s al small al' => ?_, fun v r b n s bad => ?_, fun p s may => ?_, fun p s may low train ready => ?_, fun p o s no => ?_,
    fun p b s mld unassigned => ?_, fun p b s no => ?_, fun p l a s mld has none97 => ?_, fun p l a n s mld has none97 => ?_,
    fun p l a d s mld has none97 => ?_, fun p l a s no => ⟨?_, ?_⟩⟩
  · obtain ⟨identify, switch⟩ := identify_answers s
    refine ⟨identify, rfl, rfl, switch, fun ps => ⟨_, rfl, ?_, fun k hk room => ⟨?_, ?_, fun i hi => ?_⟩⟩, fun v => rfl, rfl, fun v => rfl,
      fun v a n => ⟨_, rfl, rfl⟩, fun c => rfl⟩
    · rw [portStates_length, List.length_take]
    · exact portStates_field s ps hk room (i := 0) (by decide)
    · exact portStates_field s ps hk room (i := 1) (by decide)
    · rw [Nat.add_assoc, portStates_field s ps hk room (by omega)]
      simp [portState, Nat.add_comm 2 i, hi]
  · exact ⟨_, if_pos ⟨low, high⟩, rfl, rfl, rfl⟩
  · exact if_neg (by omega)
  · refine ⟨_, rfl, rfl, fun m hm => ?_, fun sp reg hr other => ?_, rfl⟩
    · subst hm
      exact congrArg (fun r : State × List Byte => Host.Outcome.next (emit r.1 (.fmapi .success [leValue r.2])))
        (ppbRead_cfgRegSet s p.val r.val x)
    · exact cfgReg_cfgRegSet_other s x.toNat r.isLt hr other
  · refine ⟨_, if_pos bound, ?_, rfl, rfl⟩
    exact congrArg (fun y : Vppb => y.aer.injected) (tabGet_set_same vppbReset _ _ _)
  · exact if_neg unbound
  · have set : regionConfig s v.val r.val b.toNat n.toNat = _ := if_neg (by omega)
    obtain ⟨base, len, others⟩ := regionConfig_set (s := s) b.toNat n.toNat r.isLt
    refine ⟨_, congrArg (fun x : State × FmRc => Host.Outcome.next (emit x.1 (.fmapi x.2 []))) set, base, len, rfl,
      fun i j _ hj other => others i j hj other, rfl⟩
  · have refused : regionConfig s v.val r.val b.toNat n.toNat = _ := if_pos (by omega)
    exact congrArg (fun x : State × FmRc => Host.Outcome.next (emit x.1 (.fmapi x.2 []))) refused
  · have driven : portControl s p.val 0 = _ := if_neg (by simp [may])
    refine ⟨_, congrArg (fun x : State × FmRc => Host.Outcome.next (emit x.1 (.fmapi x.2 []))) driven, ?_, ?_, fun q other => ?_, ?_⟩
    · rw [emit_pins]
      simp [linkFalls_pins, perstDrive]
    · rw [emit_port]
      simp
    · rw [emit_pins]
      simp [linkFalls_pins, perstDrive, other]
    · simp
  · have released : portControl s p.val 1 = (trainPort s p.val, .success) := by
      unfold portControl
      rw [if_neg (by simp [may])]
      exact congrArg (·, FmRc.success) (if_pos (List.contains_iff_mem.2 low))
    have waits : trainPort s p.val = { s with port := { s.port with perstWait := setInsert p.val s.port.perstWait } } := by
      have down : role s p.val = 2 := by
        by_contra other
        simp [commandRefused, other] at may
      unfold trainPort
      rw [if_neg (by simp [train]), if_pos ⟨down, List.contains_iff_mem.2 low⟩, if_pos ready]
    refine ⟨_, congrArg (fun x : State × FmRc => Host.Outcome.next (emit x.1 (.fmapi x.2 []))) released, ?_, ?_, ?_⟩
    · rw [waits]
      exact (mem_setInsert ..).2 (.inl rfl)
    · rw [waits]
      rfl
    · rw [waits]
      rfl
  · have refused : portControl s p.val o.val = _ := if_pos no
    exact congrArg (fun x : State × FmRc => Host.Outcome.next (emit x.1 (.fmapi x.2 []))) refused
  · exact if_pos (by simp [mld, unassigned])
  · exact if_neg (by rcases no with no | no <;> simp [no])
  · have answered : (fmTlp true 0 l.val a).kind ≠ .memWrite := by cases a <;> exact nofun
    obtain ⟨waits, frame⟩ := fmSend_waits mld has none97 true answered
    refine ⟨_, _, rfl, waits, rfl, rfl, rfl, rfl, ?_, frame⟩
    cases a
    · exact .inl rfl
    · exact .inr rfl
  · obtain ⟨waits, frame⟩ := fmSend_waits mld has none97 false (a := .read a n) (by exact nofun)
    exact ⟨_, _, rfl, waits, rfl, rfl, rfl, rfl, rfl, frame⟩
  · obtain ⟨sent, frame⟩ := fmSend_posted mld has none97 false (a := .write a d) rfl
    exact ⟨_, rfl, by rw [frame], sent, frame⟩
  · exact congrArg Host.Outcome.next (fmSend_refused no true a)
  · exact congrArg Host.Outcome.next (fmSend_refused no false a)

end Sys2Proof.Proofs.FmApi

/-!
A link that goes down (R118, R458): O13 says that only the IDE stream of that port ends, and R105 resets the bound devices of its VCS.
-/

namespace Sys2Proof.Proofs.PortDown

open Sys2Proof Sys2Proof.Machine Sys2Proof.Laws Sys2Proof.Proofs.Shared

/-- Port 0 is the upstream port of VCS 0, which is ACTIVE; vPPB 2 is bound to port 1, whose link is in L0 with an IDE stream. -/
def boundStream : State := { State.reset with
  od := [(0x210001, 1), (0x210004, 0), (0x210010, 2), (0x210110, 2), (0x220002, 0), (0x220003, 2)]
  port := { portReset with binds := [(2, { vppbReset with state := .bound, port := 1 })] }
  sec := { State.reset.sec with ide := [(1, ⟨true, true, [], false⟩)] } }

/-- R105: the reset of VCS 0 sends a hot reset to port 1, whose link goes down with its stream. -/
theorem portDown_boundStream : (portDown boundStream 0).sec.ide = [] := by decide +kernel

theorem exec_portDown {s : State} {p : Fin 96} (up : portUp s p.val = true) : exec (.portDown p) s = .next (portDown s p.val) :=
  if_pos up

/-- Refutes O13: when port 0 of `boundStream` goes down, the stream of port 1 ends too. -/
theorem not_portDownAndDeviceResets : ¬ Obligations.PortDownAndDeviceResets := by
  rintro ⟨down, -⟩
  obtain ⟨t, next, sec, -⟩ := down 0 boundStream (by decide)
  have reached : exec (.portDown 0) boundStream = .next (portDown boundStream 0) := exec_portDown (by decide)
  obtain rfl := Host.Outcome.next.inj (reached.symm.trans next)
  have ends := congrArg SecState.ide sec
  rw [portDown_boundStream] at ends
  exact absurd ends (by decide)

end Sys2Proof.Proofs.PortDown

/-!
Ingress of a port (R18, R25, R33) and the routing of CXL.io packets (R87).
-/

namespace Sys2Proof.Proofs.Ingress

open Sys2Proof Sys2Proof.Machine Sys2Proof.Laws Sys2Proof.Proofs.Shared

/-! ### Trace capture (R132 to R136) -/

/-- What the capture of a unit touches: filter counts and the write index, the governor's tokens, counters, and the trace ring. -/
structure Traced (s t : State) : Prop where
  touched : ∃ od pow perf q r l,
    t = { s with od := od, pow := pow, perf := perf, swc := { s.swc with traceSeq := q, ring := r, lastTrace := l } }
  entries : ∀ i j, 0x30A0 ≤ i → j < 256 → odGet t i j = odGet s i j
  counters : ∀ n, n ≠ counterNo 0xC022 9 → n ≠ counterNo 0xC022 0x0A → counter t n = counter s n

namespace Traced

variable {s t u : State}

theorem refl (s : State) : Traced s s := ⟨⟨_, _, _, _, _, _, rfl⟩, fun _ _ _ _ => rfl, fun _ _ _ => rfl⟩

theorem trans (h : Traced s t) (g : Traced t u) : Traced s u := by
  refine ⟨?_, fun i j hi hj => (g.entries i j hi hj).trans (h.entries i j hi hj),
    fun n h9 hA => (g.counters n h9 hA).trans (h.counters n h9 hA)⟩
  obtain ⟨_, _, _, _, _, _, rfl⟩ := h.touched
  obtain ⟨_, _, _, _, _, _, rfl⟩ := g.touched
  exact ⟨_, _, _, _, _, _, rfl⟩

theorem ingress (h : Traced s t) : ingress t = ingress s := by obtain ⟨_, _, _, _, _, _, rfl⟩ := h.touched; rfl
theorem home (h : Traced s t) : t.home = s.home := by obtain ⟨_, _, _, _, _, _, rfl⟩ := h.touched; rfl
theorem fab (h : Traced s t) : t.fab = s.fab := by obtain ⟨_, _, _, _, _, _, rfl⟩ := h.touched; rfl
theorem out (h : Traced s t) : t.out = s.out := by obtain ⟨_, _, _, _, _, _, rfl⟩ := h.touched; rfl
theorem time (h : Traced s t) : t.time = s.time := by obtain ⟨_, _, _, _, _, _, rfl⟩ := h.touched; rfl
theorem mgmt (h : Traced s t) : t.mgmt = s.mgmt := by obtain ⟨_, _, _, _, _, _, rfl⟩ := h.touched; rfl

theorem filterCount (s : State) {f : Nat} (hf : f < 64) : Traced s (filterCount s f).1 :=
  ⟨⟨_, _, _, _, _, _, rfl⟩, fun _ _ _ hj => odGet_odSet_index _ _ _ _ (by omega) (by decide) hj, fun _ _ _ => rfl⟩

theorem write (s : State) (mk : Nat → TraceRec) : Traced s (traceWrite s mk) := by
  unfold traceWrite
  dsimp only
  split
  · exact ⟨⟨_, _, _, _, _, _, rfl⟩, fun _ _ _ _ => rfl, fun _ _ hA => counter_bump_other _ hA 1⟩
  · split
    · exact ⟨⟨_, _, _, _, _, _, rfl⟩, fun _ _ _ _ => rfl, fun _ _ hA => counter_bump_other _ hA 1⟩
    · next spent =>
      obtain ⟨g, -, rfl⟩ := Option.map_eq_some_iff.1 spent
      exact ⟨⟨_, _, _, _, _, _, rfl⟩, fun _ _ _ hj => (odGet_bumpC ..).trans (odGet_odSet_index _ _ _ _ (by omega) (by decide) hj),
        fun _ h9 _ => counter_bump_other _ h9 1⟩

theorem unit (s : State) (tap port data : Nat) (u : FUnit) : Traced s (traceUnit s tap port data u) := by
  unfold traceUnit
  split
  · extract_lets v r
    have counted : Traced s r.1 := by
      refine List.foldlRecOn _ _ (motive := fun q : State × Option Nat => Traced s q.1) (refl s) fun q hq f hf => ?_
      split
      · exact hq.trans (filterCount _ (List.mem_range.1 hf))
      · exact hq
    clear_value r
    split
    · exact counted
    · exact counted.trans (write _ _)
  · exact refl s

theorem units (l : List FUnit) (s : State) (p : Nat) : Traced s (l.foldl (fun r u => traceUnit r 1 p 0 u) s) :=
  List.foldlRecOn _ _ (motive := Traced s) (refl s) fun _ h _ _ => h.trans (unit ..)

end Traced

/-! ### A message that is no packet -/

/-- R18, R111: such a message for which its pair has room enters it. -/
theorem parseMsg_places {s : State} {p : Nat} {m : PortMsg} {vn : Vn} (noTlp : ∀ t : Tlp, m ≠ .tlp t) (clear : ideBlocks s p = false)
    (own : parseVn (hostOfPort s p).isSome (poolPort s p) m = some vn) (room : ingressRoom s p vn m = true) :
    ∃ t, Traced s t ∧ parseMsg s p m = setIngress t p vn (ingress t p vn ++ [{ msg := m, since := t.time.clock }]) := by
  have traced := Traced.units (parseUnits s p vn m) s p
  have placed : parsePlace s p vn m = setIngress ((parseUnits s p vn m).foldl (fun r u => traceUnit r 1 p 0 u) s) p vn
      (ingress ((parseUnits s p vn m).foldl (fun r u => traceUnit r 1 p 0 u) s) p vn ++
        [{ msg := m, since := ((parseUnits s p vn m).foldl (fun r u => traceUnit r 1 p 0 u) s).time.clock }]) := by
    unfold parsePlace
    rw [if_pos room]
    cases m
    case tlp t => exact absurd rfl (noTlp t)
    all_goals rfl
  refine ⟨_, traced, .trans ?_ placed⟩
  unfold parseMsg
  rw [if_neg (by simp [clear]), own]
  cases m
  case tlp t => exact absurd rfl (noTlp t)
  all_goals rfl

theorem hostOfPort_bump (s : State) (n k : Nat) : hostOfPort (bump s n k) = hostOfPort s := by unfold hostOfPort; rfl
theorem poolPort_bump (s : State) (n k : Nat) : poolPort (bump s n k) = poolPort s := by unfold poolPort; rfl
theorem ideBlocks_bump (s : State) (n k : Nat) : ideBlocks (bump s n k) = ideBlocks s := rfl
theorem ingressRoom_bump (s : State) (n k : Nat) : ingressRoom (bump s n k) = ingressRoom s := by unfold ingressRoom; rfl

theorem parseMsg_leaves {s : State} {p : Nat} {m : PortMsg} {vn : Vn} (noTlp : ∀ t : Tlp, m ≠ .tlp t) (clear : ideBlocks s p = false)
    (own : parseVn (hostOfPort s p).isSome (poolPort s p) m = some vn) (room : ingressRoom s p vn m = true) :
    ingress (parseMsg s p m) p vn = ingress s p vn ++ [{ msg := m, since := s.time.clock }] ∧ (parseMsg s p m).out = s.out ∧
      (parseMsg s p m).mgmt = s.mgmt := by
  obtain ⟨t, traced, placed⟩ := parseMsg_places noTlp clear own room
  rw [placed, ingress_setIngress, traced.ingress, traced.time]
  exact ⟨rfl, traced.out, traced.mgmt⟩

/-! ### What a taken packet leaves of the routes -/

section Swc

variable (s : State) (x : SwcState)

theorem hostOfPort_swc : hostOfPort { s with swc := x } = hostOfPort s := by unfold hostOfPort; rfl
theorem decodeAddr_swc : decodeAddr { s with swc := x } = decodeAddr s := by unfold decodeAddr; rfl
theorem windowOf_swc : windowOf { s with swc := x } = windowOf s := by unfold windowOf; rfl
theorem cfgReg_swc : cfgReg { s with swc := x } = cfgReg s := rfl
theorem acsRedirect_swc : acsRedirect { s with swc := x } = acsRedirect s := rfl
theorem bar0_swc : bar0 { s with swc := x } = bar0 s := by unfold bar0; rw [cfgReg_swc]
theorem fnBarHit_swc : fnBarHit { s with swc := x } = fnBarHit s := by unfold fnBarHit; rw [bar0_swc]

theorem windowTarget_swc : windowTarget { s with swc := x } = windowTarget s := by
  funext v frm r o
  cases o <;> rfl

theorem barTarget_swc : barTarget { s with swc := x } = barTarget s := by
  funext v frm r a o
  cases o with
  | none => exact congrArg₂ (fun f g => f v frm r (g v a)) (windowTarget_swc s x) (windowOf_swc s x)
  | some => rfl

theorem ioTarget_swc : ioTarget { s with swc := x } = ioTarget s := by
  unfold ioTarget
  rw [decodeAddr_swc, fnBarHit_swc, acsRedirect_swc, barTarget_swc]

end Swc

theorem hostOfPort_setIngress (s : State) (p : Nat) (vn : Vn) (l : List InMsg) : hostOfPort (setIngress s p vn l) = hostOfPort s :=
  hostOfPort_swc s _

theorem ioTarget_setIngress (s : State) (p : Nat) (vn : Vn) (l : List InMsg) : ioTarget (setIngress s p vn l) = ioTarget s :=
  ioTarget_swc s _

/-! ### Routing -/

/-- R87: the packet at the head of an IO pair whose bridge has room is routed. -/
theorem exec_cxlioRoute {s : State} {p : Fin 96} {vn : Vn} {t : Tlp} {z : Nat} {rest : List InMsg} (io : vnIsIo vn = true)
    (room : bridgeOpen s (p.val / 6) vn = true) (head : ingress s p.val vn = { msg := .tlp t, since := z } :: rest) :
    exec (.cxlioRoute p vn) s = .next (routeTlp (setIngress s p.val vn rest) p.val t z) := by
  show execCxlioRoute p vn s = _
  unfold execCxlioRoute ingressTaken
  simp only [io, head, room, if_true, List.tail_cons]

section Read

variable {s : State} {p v : Nat} {t : Tlp} (read : t.kind = .memRead) (calm : s.flt.safe = false) (host : hostOfPort s p = some v)
  (on : odGet s (0x2200 + v) 1 = 1)

include read host on in
theorem routeTlp_read (z : Nat) : routeTlp s p t z = routeMemory s v p none t z := by
  have traffic : trafficVcs s p t.ld = some v := by unfold trafficVcs; rw [host]
  unfold routeTlp
  rw [if_neg (by rw [read]; exact nofun), traffic]
  dsimp only
  rw [if_neg (by simp [on]), host, read]
  rfl

include calm in
theorem routeMemory_device {d : Nat} (target : ioTarget s v none t.addr.toNat = .device d) (z : Nat) :
    routeMemory s v p none t z = forwardPort s v p (vppb s v d).port (vppb s v d).ld t z := by
  unfold routeMemory
  dsimp only
  rw [target, if_neg (by simp [safeRefuses, calm])]

include read calm in
theorem routeMemory_nowhere (target : ioTarget s v none t.addr.toNat = .nowhere) (z : Nat) :
    routeMemory s v p none t z = hostSend s p .ioc (.tlp (completionOf t 1 [])) := by
  unfold routeMemory
  dsimp only
  rw [target, if_neg (by simp [safeRefuses, calm])]
  exact if_pos (by rw [read]; rfl)

end Read

/-- R25: the record of a request that has been routed to another port and waits for its answer. -/
def routedRequest (v p q ld : Nat) (t : Tlp) : NonPosted :=
  { vcs := v, fromPort := p, toPort := q, ld := ld, tag := t.tag.setWidth 16, tlp := t, sent := false, refused := false, got := 0 }

theorem forwardPort_read (s : State) (v p q ld : Nat) {t : Tlp} (read : t.kind = .memRead) (z : Nat) :
    ∃ fab, forwardPort s v p q ld t z =
      { s with fab := fab, port := { s.port with np := s.port.np ++ [routedRequest v p q ld t] } } := by
  have recorded : npRecord s v p q ld t false =
      { s with port := { s.port with np := s.port.np ++ [routedRequest v p q ld t] } } := if_pos (by rw [read]; rfl)
  unfold forwardPort
  rw [recorded, sendTlpBy_frame]
  exact ⟨_, rfl⟩

theorem hostSend_egress (s : State) (p : Nat) (v : Vn) (m : LinkMsg) :
    ∃ e : EgUnit, egress (hostSend s p v m) p v = egress s p v ++ [e] ∧ e.msg = some m :=
  ⟨_, tabGet_set_same .., rfl⟩

/-- R25: a completion that nothing waits for is discarded. -/
theorem routeTlp_stray {s : State} {p : Nat} {t : Tlp} (answer : (tlpType t.kind).1 = .ioc) (none' : ∀ n ∈ s.port.np, n.toPort ≠ p)
    (z : Nat) : routeTlp s p t z = s := by
  have nobody : (s.port.np.find? fun n => decide (n.toPort = p) && n.sent && decide (n.tlp.requester = t.id) && decide (n.tlp.tag = t.tag)) =
      none := List.find?_eq_none.2 fun n hn => by simp [none' n hn]
  unfold routeTlp routeCompletion
  rw [if_pos answer, nobody]

/-- Settles O16: the ingress of a message, and the routes of a host's read and of a completion that nothing waits for. -/
theorem ingressAndRoute : Obligations.IngressAndRoute := by
  refine ⟨fun p s up => if_pos up, fun p m vn s up noTlp clear own room => ?_, fun p ms s down => if_neg (by simp [down]),
    fun p vn t z v d rest s io room head read calm host on target => ?_,
    fun p vn t z v rest s io room head read calm host on target => ?_, fun p vn t z rest s io room head answer nobody => ?_⟩
  · obtain ⟨placed, out, mgmt⟩ := parseMsg_leaves (s := bump (bump s (8 * p.val) 1) (8 * p.val + 2) 1) noTlp
      (by rw [ideBlocks_bump, ideBlocks_bump]; exact clear)
      (by rw [hostOfPort_bump, hostOfPort_bump, poolPort_bump, poolPort_bump]; exact own)
      (by rw [ingressRoom_bump, ingressRoom_bump]; exact room)
    exact ⟨_, if_pos up, placed, out, mgmt⟩
  · obtain ⟨fab, sent⟩ := forwardPort_read (setIngress s p.val vn rest) v p.val (vppb s v d).port (vppb s v d).ld read z
    rw [exec_cxlioRoute io room head, routeTlp_read (s := setIngress s p.val vn rest) read (by rwa [hostOfPort_setIngress]) on,
      routeMemory_device (s := setIngress s p.val vn rest) calm (by rwa [ioTarget_setIngress])]
    exact ⟨_, _, congrArg Host.Outcome.next sent, ingress_setIngress s p.val vn rest, rfl, rfl, rfl, rfl, rfl, rfl, rfl⟩
  · obtain ⟨e, sent, msg⟩ := hostSend_egress (setIngress s p.val vn rest) p.val .ioc (.tlp (completionOf t 1 []))
    rw [exec_cxlioRoute io room head, routeTlp_read (s := setIngress s p.val vn rest) read (by rwa [hostOfPort_setIngress]) on,
      routeMemory_nowhere (s := setIngress s p.val vn rest) read calm
        (by rwa [ioTarget_setIngress])]
    exact ⟨_, e, rfl, ingress_setIngress s p.val vn rest, sent, msg, rfl⟩
  · rw [exec_cxlioRoute io room head, routeTlp_stray (s := setIngress s p.val vn rest) answer nobody]
    exact ⟨_, rfl, ingress_setIngress s p.val vn rest, rfl⟩

end Sys2Proof.Proofs.Ingress

/-!
Dynamic capacity (R97 to R99): extents are offered, accepted, released and removed.
-/

namespace Sys2Proof.Proofs.DynamicCapacity

open Sys2Proof Sys2Proof.Machine Sys2Proof.Laws Sys2Proof.Proofs.Shared

/-! ### The extents of a VCS -/

theorem extents_congr {s t : State} (h : t.port.ext = s.port.ext) : extents t = extents s := by
  funext v; simp only [extents, h]

theorem extents_emit (s : State) (o : Out) : extents (emit s o) = extents s := extents_congr (congrArg PortState.ext (emit_port s o))

@[simp] theorem extents_setExtents (s : State) (v : Nat) (l : List Extent) : extents (setExtents s v l) v = l := tabGet_set_same ..

theorem extents_setExtents_other (s : State) {v w : Nat} (l : List Extent) (h : w ≠ v) : extents (setExtents s v l) w = extents s w :=
  tabGet_set_other h ..

theorem setExtents_frame (s : State) (v : Nat) (l : List Extent) : setExtents s v l =
    { s with od := (setExtents s v l).od, port := { s.port with ext := (setExtents s v l).port.ext } } := rfl

theorem shown_setExtents (s : State) (v : Nat) (l : List Extent) :
    odGet (setExtents s v l) (0x2200 + v) 5 = (l.filter fun e => decide (e.state ≠ .offered)).length :=
  odGet_odSet_same ..

/-! ### Add and response -/

theorem offerAll_length {s : State} {v : Nat} {xs : List DcPart} {l m : List Extent} (h : offerAll s v xs l = some m) :
    m.length = l.length + xs.length := by
  induction xs generalizing l with
  | nil => cases h; rfl
  | cons x xs ih =>
    unfold offerAll at h
    split at h
    · rw [ih h, List.length_append, List.length_cons (as := xs), List.length_singleton]; omega
    · cases h

theorem dcAdd_offers {s : State} {v : Nat} {xs : List DcPart} {m : List Extent} (room : (extents s v).length + xs.length ≤ odGet s (0x2200 + v) 4)
    (some' : xs ≠ []) (fits : offerAll s v xs (extents s v) = some m) : dcAdd s v xs =
      (emitAll (setExtents s v m) ((m.drop (extents s v).length).map fun e => .dcEvent v 0 e.base e.len), .success) := by
  unfold dcAdd
  dsimp only
  rw [if_neg (by simp [some', room]), fits]

/-- R98: what a response makes of the extents of its VCS. -/
def responded (bs : List (BitVec 64)) (l : List Extent) : List Extent :=
  (l.filter fun e => decide (e.state ≠ .offered) || bs.any fun b => decide (b.toNat = e.base)).map fun e =>
    if e.state = .offered then { e with state := .accepted } else e

theorem mem_responded {bs : List (BitVec 64)} {l : List Extent} {x : Extent} : x ∈ responded bs l ↔
    (∃ e ∈ l, e.state = .offered ∧ (∃ b ∈ bs, b.toNat = e.base) ∧ x = { e with state := .accepted }) ∨ (x ∈ l ∧ x.state ≠ .offered) := by
  unfold responded
  simp only [List.mem_map, List.mem_filter, Bool.or_eq_true, decide_eq_true_eq, List.any_eq_true]
  constructor
  · rintro ⟨e, ⟨he, kept⟩, rfl⟩
    by_cases offered : e.state = .offered
    · rw [if_pos offered]
      exact .inl ⟨e, he, offered, kept.resolve_left (· offered), rfl⟩
    · rw [if_neg offered]
      exact .inr ⟨he, offered⟩
  · rintro (⟨e, he, offered, taken, rfl⟩ | ⟨hx, old⟩)
    · exact ⟨e, ⟨he, .inr taken⟩, if_pos offered⟩
    · exact ⟨x, ⟨hx, .inl old⟩, if_neg old⟩

theorem responded_not_offered {bs : List (BitVec 64)} {l : List Extent} {x : Extent} (h : x ∈ responded bs l) : x.state ≠ .offered := by
  rcases mem_responded.1 h with ⟨e, -, -, -, rfl⟩ | ⟨-, old⟩
  · exact nofun
  · exact old

/-! ### Release -/

/-- R99: the walk that a release starts, if the extent is local, is all that the directory sees of it. -/
theorem startRelease_leaves (s : State) (v : Nat) (e : Extent) (forced : Bool) :
    extents (startRelease s v e forced) v =
      (extents s v).map (fun x => if x = e then { x with state := .releasing, forced := forced } else x) ∧
    ∃ od ext walks, startRelease s v e forced = { s with
      od := od, port := { s.port with ext := ext }, dir := { s.dir with walks := walks } } := by
  unfold startRelease
  dsimp only
  split
  · exact ⟨extents_setExtents .., _, _, _, rfl⟩
  · exact ⟨extents_setExtents .., _, _, _, rfl⟩

theorem acceptedAt_single {s : State} {v b : Nat} {e : Extent}
    (found : ((extents s v).find? fun x => decide (x.state = .accepted) && decide (x.base = b)) = some e) :
    acceptedAt s v [b] = some [e] := by
  simp only [acceptedAt, found]

/-- R98, R101: extent `e` of VCS `v` belongs to the release that is asked for, which goes on in the background. -/
def asked (s : State) (v b : Nat) (e : Extent) : State :=
  bgStart (setExtents s v ((extents s v).map fun x => if x = e then { x with batch := b + 1 } else x)) 0x5605 (v * 2 ^ 64 + b)

theorem extents_asked (s : State) (v b : Nat) (e : Extent) :
    extents (asked s v b e) v = (extents s v).map fun x => if x = e then { x with batch := b + 1 } else x :=
  extents_setExtents ..

theorem fmRelease_single {s : State} {v b : Nat} {e : Extent}
    (found : ((extents s v).find? fun x => decide (x.state = .accepted) && decide (x.base = b)) = some e) (forced : Bool) :
    fmRelease s v [b] forced =
      (if forced then emit (startRelease (asked s v b e) v { e with batch := b + 1 } true) (.dcEvent v 2 e.base e.len)
       else emit (asked s v b e) (.dcEvent v 1 e.base e.len), .started) := by
  have mark : (fun x : Extent => if [e].contains x then { x with batch := 1 + b } else x) =
      fun x => if x = e then { x with batch := b + 1 } else x := by
    funext x
    simp [Nat.add_comm 1 b]
  unfold fmRelease asked
  rw [acceptedAt_single found]
  simp only [List.getLast?_singleton, Option.getD_some, Nat.add_sub_cancel_left, mark]
  cases forced <;> simp [Nat.add_comm 1 b, emitAll, emit]

/-! ### Removal -/

theorem extentRemoved_eq {s : State} {v b : Nat} {e : Extent}
    (found : ((extents s v).find? fun x => decide (x.state = .releasing) && decide (x.base = b)) = some e)
    (quiet : extentQuiet s v e = true) (walked : extentWalked s v e = true) :
    (extentRemoved s v b).port.ext = (setExtents s v ((extents s v).filter fun x => decide (x ≠ e))).port.ext ∧
      (extentRemoved s v b).out = s.out := by
  unfold extentRemoved
  rw [found]
  dsimp only
  rw [if_pos (by simp [quiet, walked]), notify_port, notify_out]
  split <;> exact ⟨rfl, rfl⟩

/-- Settles O18: add, response, the three releases and removal. -/
theorem dynamicCapacity : Obligations.DynamicCapacity := by
  refine ⟨fun v xs m s room some' fits => ?_, fun v xs s full => ?_, fun v bs s => ?_, fun v b e s found => ⟨?_, ?_, ?_⟩,
    fun v bs s unknown => ⟨?_, ?_⟩, fun v b e s found quiet walked => ?_⟩
  · have added := dcAdd_offers room some' fits
    have held : extents (emit (dcAdd s v.val xs).1 (.fmapi (dcAdd s v.val xs).2 [])) v.val = m := by
      rw [added]
      exact extents_setExtents s v.val m
    refine ⟨_, rfl, held, by rw [held, offerAll_length fits], fun w other => ?_, ?_, ?_⟩
    · rw [added]
      exact extents_setExtents_other s m other
    · rw [added]
      simp
    · rw [added]
      rfl
  · have refused : dcAdd s v.val xs = (s, .invalidInput) := if_pos (.inl full)
    exact congrArg (fun r : State × FmRc => Host.Outcome.next (emit r.1 (.fmapi r.2 []))) refused
  · have held : extents (emit (dcResponse s v.val bs) (.endpoint v.val true)) v.val = responded bs (extents s v.val) :=
      extents_setExtents ..
    refine ⟨_, rfl, ?_, ?_, ?_, ?_, rfl, rfl⟩
    · rw [held]
      exact fun e => responded_not_offered
    · rw [held]
      exact fun e he offered taken => mem_responded.2 (.inl ⟨e, he, offered, taken, rfl⟩)
    · rw [held]
      exact fun e he old => mem_responded.2 (.inr ⟨he, old⟩)
    · rw [held]
      refine (shown_setExtents s v.val (responded bs (extents s v.val))).trans (congrArg List.length (List.filter_eq_self.2 fun x hx => ?_))
      exact decide_eq_true (responded_not_offered hx)
  · obtain ⟨held, od, ext, walks, frame⟩ := startRelease_leaves s v.val e false
    have here : e ∈ extents s v.val := List.mem_of_find?_eq_some found
    have released : hostRelease s v.val [b] = emit (startRelease s v.val e false) (.endpoint v.val true) := by
      unfold hostRelease
      rw [List.map_singleton, acceptedAt_single found]
      rfl
    refine ⟨_, congrArg Host.Outcome.next released, ?_, ?_, ?_⟩
    · rw [extents_emit, held]
      exact List.mem_map.2 ⟨e, here, if_pos rfl⟩
    · rw [frame]
      rfl
    · rw [frame]
      rfl
  · obtain ⟨held, od, ext, walks, frame⟩ := startRelease_leaves (asked s v.val b.toNat e) v.val { e with batch := b.toNat + 1 } true
    have here : e ∈ extents s v.val := List.mem_of_find?_eq_some found
    have marked : { e with batch := b.toNat + 1 } ∈ extents (asked s v.val b.toNat e) v.val := by
      rw [extents_asked]
      exact List.mem_map.2 ⟨e, here, if_pos rfl⟩
    have reached : exec (.initiateDynamicCapacityRelease v [b] true) s =
        .next (emit (emit (startRelease (asked s v.val b.toNat e) v.val { e with batch := b.toNat + 1 } true)
          (.dcEvent v.val 2 e.base e.len)) (.fmapi .started [])) :=
      congrArg (fun r : State × FmRc => Host.Outcome.next (emit r.1 (.fmapi r.2 []))) (fmRelease_single found true)
    refine ⟨_, reached, ?_, ?_, ?_⟩
    · rw [extents_emit, extents_emit, held]
      exact List.mem_map.2 ⟨_, marked, if_pos rfl⟩
    · rw [frame]
      exact List.append_assoc ..
    · rw [frame]
      rfl
  · refine ⟨_, congrArg (fun r : State × FmRc => Host.Outcome.next (emit r.1 (.fmapi r.2 []))) (fmRelease_single found false), ?_, ?_, rfl⟩
    · exact extents_asked ..
    · exact List.append_assoc ..
  · have refused : hostRelease s v.val bs = emit s (.endpoint v.val false) := by
      unfold hostRelease
      rw [unknown]
    exact congrArg Host.Outcome.next refused
  · have refused : fmRelease s v.val (bs.map fun b => b.toNat) true = (s, .invalidInput) := by
      unfold fmRelease
      rw [unknown]
    exact congrArg (fun r : State × FmRc => Host.Outcome.next (emit r.1 (.fmapi r.2 []))) refused
  · obtain ⟨ext, out⟩ := extentRemoved_eq found quiet walked
    refine ⟨_, rfl, ?_, fun w other => ?_, out, (extentRemoved_keep s v.val b.toNat).1⟩
    · rw [extents_congr ext, extents_setExtents]
    · rw [extents_congr ext, extents_setExtents_other s _ other]

end Sys2Proof.Proofs.DynamicCapacity

/-!
The commit of buffer limits (R113, R114) and the window of the trace ring (R136).
-/

namespace Sys2Proof.Proofs.Buffers

open Sys2Proof Sys2Proof.Machine Sys2Proof.Laws Sys2Proof.Proofs.Shared

/-! ### Active limits -/

theorem activeLimit_congr {s t : State} (h : t.swc.active = s.swc.active) : activeLimit t = activeLimit s := by
  funext p i; simp only [activeLimit, h]

theorem activeLimit_raising (s : State) (r : Tab (List (Nat × Nat))) :
    activeLimit { s with swc := { s.swc with raising := r } } = activeLimit s := rfl

@[simp] theorem activeLimit_setActive (s : State) (p i v : Nat) : activeLimit (setActive s p i v) p i = v := tabGet_set_same ..

theorem activeLimit_setActive_other (s : State) {p i q j : Nat} (v : Nat) (hi : i < 16) (hj : j < 16) (h : (q, j) ≠ (p, i)) :
    activeLimit (setActive s p i v) q j = activeLimit s q j := by
  refine tabGet_set_other ?_ _ _ _ _
  rintro same
  exact h (Prod.ext (by omega) (by omega))

theorem stagedLimit_congr {s t : State} (h : t.od = s.od) : stagedLimit t = stagedLimit s := by
  funext p i; exact odGet_congr h _ _

theorem stagedLimit_status (s : State) (v : Nat) {p i : Nat} (hp : p < 112) (hi : i < 16) :
    stagedLimit (odSet s 0x3010 2 v) p i = stagedLimit s p i := by
  refine odGet_odSet_index _ _ _ _ ?_ (by decide) (by omega)
  unfold stagedIdx
  split <;> omega

/-! ### The dies of a commit -/

/-- The pairs of a die: each port with each offset. -/
def diePairs (d : Nat) : List (Nat × Nat) := (portsOfDie d).flatMap fun p => (List.range 16).map fun i => (p, i)

theorem mem_diePairs {d p i : Nat} : (p, i) ∈ diePairs d ↔ p ∈ portsOfDie d ∧ i < 16 := by
  simp [diePairs]

theorem mem_portsOfDie {d p : Nat} : p ∈ portsOfDie d ↔ (24 * d ≤ p ∧ p < 24 * d + 24) ∨ (96 + 4 * d ≤ p ∧ p < 96 + 4 * d + 4) := by
  simp only [portsOfDie, List.mem_append, List.mem_map, List.mem_range]
  constructor
  · rintro (⟨a, _, rfl⟩ | ⟨a, _, rfl⟩) <;> omega
  · rintro (⟨low, high⟩ | ⟨low, high⟩)
    · exact .inl ⟨p - 24 * d, by omega, by omega⟩
    · exact .inr ⟨p - (96 + 4 * d), by omega, by omega⟩

theorem exists_die {p : Nat} (hp : p < 112) : ∃ d < 4, p ∈ portsOfDie d := by
  simp only [mem_portsOfDie]
  by_cases h : p < 96
  · exact ⟨p / 24, by omega, .inl (by omega)⟩
  · exact ⟨(p - 96) / 4, by omega, .inr (by omega)⟩

/-- Lowering the pairs of `l` by the limits of `s`, in whatever state. -/
def lowerAll (s t : State) (l : List (Nat × Nat)) : State :=
  l.foldl (fun t q => if stagedLimit s q.1 q.2 < activeLimit s q.1 q.2 then setActive t q.1 q.2 (stagedLimit s q.1 q.2) else t) t

theorem lowerAll_frame (s t : State) (l : List (Nat × Nat)) :
    lowerAll s t l = { t with swc := { t.swc with active := (lowerAll s t l).swc.active } } := by
  refine List.foldlRecOn _ _ (motive := fun r : State => r = { t with swc := { t.swc with active := r.swc.active } }) rfl fun r hr q _ => ?_
  split
  · rw [hr]
    rfl
  · exact hr

theorem activeLimit_lowerAll (s : State) (l : List (Nat × Nat)) (wide : ∀ q ∈ l, q.2 < 16) (t : State) {p i : Nat} (hi : i < 16) :
    activeLimit (lowerAll s t l) p i =
      if (p, i) ∈ l ∧ stagedLimit s p i < activeLimit s p i then stagedLimit s p i else activeLimit t p i := by
  induction l generalizing t with
  | nil => simp [lowerAll]
  | cons q l ih =>
    have here : q.2 < 16 := wide q List.mem_cons_self
    refine (ih (fun r hr => wide r (List.mem_cons_of_mem q hr)) _).trans ?_
    by_cases same : (p, i) = q
    · subst same
      by_cases lower : stagedLimit s p i < activeLimit s p i
      · simp [lower]
      · simp [lower]
    · have other : activeLimit (if stagedLimit s q.1 q.2 < activeLimit s q.1 q.2 then setActive t q.1 q.2 (stagedLimit s q.1 q.2) else t) p i =
          activeLimit t p i := by
        split
        · exact activeLimit_setActive_other t _ here hi same
        · rfl
      rw [other]
      simp [same]

/-- The raised limits of die `d`, which wait. -/
def raisedOf (s : State) (d : Nat) : List (Nat × Nat) :=
  ((diePairs d).filter fun q => decide (activeLimit s q.1 q.2 < stagedLimit s q.1 q.2)).map fun q =>
    (q.1 * 16 + q.2, stagedLimit s q.1 q.2)

theorem mem_raisedOf {s : State} {d p i : Nat} (hp : p ∈ portsOfDie d) (hi : i < 16) (h : activeLimit s p i < stagedLimit s p i) :
    (p * 16 + i, stagedLimit s p i) ∈ raisedOf s d :=
  List.mem_map.2 ⟨(p, i), List.mem_filter.2 ⟨mem_diePairs.2 ⟨hp, hi⟩, decide_eq_true h⟩, rfl⟩

theorem applyLimits_eq (s : State) (d : Nat) : applyLimits s d =
    { lowerAll s s (diePairs d) with swc :=
      { (lowerAll s s (diePairs d)).swc with raising := tabPut d (raisedOf s d) (lowerAll s s (diePairs d)).swc.raising } } := rfl

theorem applyLimits_frame (s : State) (d : Nat) :
    ∃ active, applyLimits s d = { s with swc := { s.swc with active := active, raising := tabPut d (raisedOf s d) s.swc.raising } } := by
  rw [applyLimits_eq, lowerAll_frame]
  exact ⟨_, rfl⟩

theorem activeLimit_applyLimits (s : State) (d : Nat) {p i : Nat} (hi : i < 16) :
    activeLimit (applyLimits s d) p i = if p ∈ portsOfDie d then min (stagedLimit s p i) (activeLimit s p i) else activeLimit s p i := by
  have lowered := activeLimit_lowerAll s (diePairs d) (fun q hq => (mem_diePairs.1 hq).2) s (p := p) hi
  simp only [mem_diePairs, hi, and_true] at lowered
  refine .trans ?_ (lowered.trans ?_)
  · rw [applyLimits_eq, activeLimit_raising]
  · by_cases own : p ∈ portsOfDie d
    · by_cases lower : stagedLimit s p i < activeLimit s p i
      · simp [own, lower, Nat.min_eq_left lower.le]
      · simp [own, lower, Nat.min_eq_right (Nat.le_of_not_lt lower)]
    · simp [own]

/-- R114: the limits of the dies below `n` have been applied. -/
structure Applied (s : State) (n : Nat) (t : State) : Prop where
  frame : ∃ active raising, t = { s with swc := { s.swc with active := active, raising := raising } }
  done : ∀ d < n, ∀ p ∈ portsOfDie d, ∀ i < 16, activeLimit t p i = min (stagedLimit s p i) (activeLimit s p i)
  rest : ∀ p i, i < 16 → activeLimit t p i = activeLimit s p i ∨ activeLimit t p i = min (stagedLimit s p i) (activeLimit s p i)
  waits : ∀ d < n, ∃ up, tabFind? d t.swc.raising = some up ∧
    ∀ p ∈ portsOfDie d, ∀ i < 16, activeLimit s p i < stagedLimit s p i → (p * 16 + i, stagedLimit s p i) ∈ up

theorem applied_range (s : State) (n : Nat) : Applied s n ((List.range n).foldl applyLimits s) := by
  induction n with
  | zero => exact ⟨⟨_, _, rfl⟩, fun _ h => absurd h (Nat.not_lt_zero _), fun _ _ _ => .inl rfl, fun _ h => absurd h (Nat.not_lt_zero _)⟩
  | succ n ih =>
    rw [List.range_succ, List.foldl_append, List.foldl_cons, List.foldl_nil]
    generalize (List.range n).foldl applyLimits s = t at ih
    obtain ⟨⟨active, raising, frame⟩, done, rest, waits⟩ := ih
    obtain ⟨active', next⟩ := applyLimits_frame t n
    have staged : stagedLimit t = stagedLimit s := stagedLimit_congr (by rw [frame])
    have value := fun (p i : Nat) (hi : i < 16) => activeLimit_applyLimits t n (p := p) hi
    rw [staged] at value
    have twice : ∀ p i, i < 16 → min (stagedLimit s p i) (activeLimit t p i) = min (stagedLimit s p i) (activeLimit s p i) := fun p i hi => by
      rcases rest p i hi with h | h <;> rw [h]
      omega
    refine ⟨⟨active', _, next.trans (by rw [frame])⟩, fun d hd p hp i hi => ?_, fun p i hi => ?_, fun d hd => ?_⟩
    · rw [value p i hi]
      by_cases own : p ∈ portsOfDie n
      · rw [if_pos own, twice p i hi]
      · rcases Nat.lt_succ_iff_lt_or_eq.1 hd with below | rfl
        · rw [if_neg own, done d below p hp i hi]
        · exact absurd hp own
    · rw [value p i hi]
      split
      · exact .inr (twice p i hi)
      · exact rest p i hi
    · rcases Nat.lt_succ_iff_lt_or_eq.1 hd with below | rfl
      · obtain ⟨up, found, all⟩ := waits d below
        exact ⟨up, by rw [next]; exact (tabFind_put_other (Nat.ne_of_lt below) _ _).trans found, all⟩
      · refine ⟨_, by rw [next]; exact tabFind_put_same .., fun p hp i hi raised => ?_⟩
        have same : activeLimit t p i = activeLimit s p i := by
          rcases rest p i hi with h | h
          · exact h
          · rw [h, Nat.min_eq_right raised.le]
        rw [← staged]
        exact mem_raisedOf hp hi (by rw [same, staged]; exact raised)

/-! ### The refusals of a commit -/

theorem exec_bufferLimitCommit (s : State) :
    exec .bufferLimitCommit s = .next (emit (bufferCommit s).1 (.status (bufferCommit s).2)) := rfl

theorem no_excess {s : State} (fits : ∀ d < 4, stagedTotal s d ≤ 262144) : ((List.range 4).find? fun d => decide (0 < dieExcess s d)) = none := by
  refine List.find?_eq_none.2 fun d hd => ?_
  have := fits d (List.mem_range.1 hd)
  rw [decide_eq_true_eq, Nat.not_lt, Nat.le_zero]
  exact Nat.sub_eq_zero_of_le this

/-- R113: what a commit shows that asks for `k` cells more than die `d` has. -/
def overFull (s : State) (k d : Nat) : State := odSet (odSet (odSet s 0x3010 2 3) 0x3010 3 k) 0x3010 4 d

theorem overFull_shows (s : State) (k d : Nat) :
    let t := emit (overFull s k d) (.status .bufferOver)
    odGet t 0x3010 2 = 3 ∧ odGet t 0x3010 3 = k ∧ odGet t 0x3010 4 = d ∧ t.out = s.out ++ [Out.status .bufferOver] ∧
      t = { s with od := t.od, out := t.out } := by
  refine ⟨?_, ?_, ?_, rfl, rfl⟩
  · simp [overFull, odGet_odSet_sub]
  · simp [overFull, odGet_odSet_sub]
  · simp [overFull]

section Commit

variable {s : State} (idle : s.swc.raising = [])
include idle

theorem bufferCommit_over {d : Nat} (hd : d < 4) (below : ∀ e < d, stagedTotal s e ≤ 262144) (beyond : 262144 < stagedTotal s d) :
    bufferCommit s = (overFull s (stagedTotal s d - 262144) d, .bufferOver) := by
  have first : ((List.range 4).find? fun d => decide (0 < dieExcess s d)) = some d := by
    refine List.find?_range_eq_some.2 ⟨decide_eq_true (Nat.sub_pos_of_lt beyond), List.mem_range.2 hd, fun e he => ?_⟩
    rw [Bool.not_eq_true', decide_eq_false_iff_not, Nat.not_lt, Nat.le_zero]
    exact Nat.sub_eq_zero_of_le (below e he)
  unfold bufferCommit
  rw [if_neg (by simp [idle]), first]
  rfl

theorem bufferCommit_minimum {p : Nat} (fits : ∀ d < 4, stagedTotal s d ≤ 262144)
    (low : ((List.range 112).find? fun p => portCounts s p && (List.range 16).any fun i => decide (stagedLimit s p i < 9)) = some p) :
    bufferCommit s = (odSet (odSet s 0x3010 2 4) 0x3010 4 (dieOf p), .belowMinimum) := by
  unfold bufferCommit
  rw [if_neg (by simp [idle]), no_excess fits, low]

theorem bufferCommit_applies (fits : ∀ d < 4, stagedTotal s d ≤ 262144)
    (enough : ∀ p < 112, portCounts s p = true → ∀ i < 16, 9 ≤ stagedLimit s p i) :
    bufferCommit s = ((List.range 4).foldl applyLimits (odSet s 0x3010 2 1), .ok) := by
  have none' : ((List.range 112).find? fun p => portCounts s p && (List.range 16).any fun i => decide (stagedLimit s p i < 9)) = none := by
    refine List.find?_eq_none.2 fun p hp both => ?_
    obtain ⟨counts, low⟩ := Bool.and_eq_true_iff.1 both
    obtain ⟨i, hi, few⟩ := List.any_eq_true.1 low
    have := enough p (List.mem_range.1 hp) counts i (List.mem_range.1 hi)
    exact absurd (of_decide_eq_true few) (Nat.not_lt.2 this)
  unfold bufferCommit
  rw [if_neg (by simp [idle]), no_excess fits, none']

end Commit

/-! ### Raised limits -/

/-- The limits of `up`, all made active. -/
def raiseAll (s : State) (up : List (Nat × Nat)) : State := up.foldl (fun t q => setActive t (q.1 / 16) (q.1 % 16) q.2) s

theorem raiseAll_frame (s : State) (up : List (Nat × Nat)) :
    ∃ active, raiseAll s up = { s with swc := { s.swc with active := active } } := by
  refine List.foldlRecOn _ _ (motive := fun r : State => ∃ active, r = { s with swc := { s.swc with active := active } }) ⟨_, rfl⟩ fun r hr q _ => ?_
  obtain ⟨active, rfl⟩ := hr
  exact ⟨_, rfl⟩

theorem activeLimit_raiseAll_other (up : List (Nat × Nat)) (s : State) {k : Nat} (h : k ∉ up.map Prod.fst) :
    activeLimit (raiseAll s up) (k / 16) (k % 16) = activeLimit s (k / 16) (k % 16) := by
  induction up generalizing s with
  | nil => rfl
  | cons q up ih =>
    rw [List.map_cons, List.mem_cons, not_or] at h
    refine (ih _ h.2).trans (activeLimit_setActive_other s q.2 (Nat.mod_lt _ (by decide)) (Nat.mod_lt _ (by decide)) fun same => h.1 ?_)
    rw [Prod.mk.injEq] at same
    omega

theorem activeLimit_raiseAll (up : List (Nat × Nat)) (s : State) (distinct : (up.map Prod.fst).Nodup) :
    ∀ q ∈ up, activeLimit (raiseAll s up) (q.1 / 16) (q.1 % 16) = q.2 := by
  induction up generalizing s with
  | nil => exact fun _ h => absurd h List.not_mem_nil
  | cons q up ih =>
    obtain ⟨new, rest⟩ := List.nodup_cons.1 (List.map_cons .. ▸ distinct)
    intro r hr
    rcases List.mem_cons.1 hr with rfl | later
    · exact (activeLimit_raiseAll_other up _ new).trans (activeLimit_setActive ..)
    · exact ih _ rest r later

/-- R114: die `d` has taken its raised limits. -/
def raisedDie (s : State) (d : Nat) (up : List (Nat × Nat)) : State :=
  { raiseAll s up with swc := { (raiseAll s up).swc with raising := tabDel d (raiseAll s up).swc.raising } }

theorem raiseLimits_eq {s : State} {d : Nat} {up : List (Nat × Nat)} (waits : tabFind? d s.swc.raising = some up)
    (settled : dieSettled s d = true) : raiseLimits s d =
      if (raisedDie s d up).swc.raising.isEmpty then odSet (raisedDie s d up) 0x3010 2 2 else raisedDie s d up := by
  unfold raiseLimits
  rw [waits]
  exact if_pos settled

/-! ### The window of the trace ring -/

/-- R420: reading a record touches the fault sources and the free values, and nothing else. -/
theorem traceRecord_frame (q : State × List (Option TraceRec)) (i : Nat) :
    ∃ flt fresh, (traceRecord q i).1 = { q.1 with flt := flt, fresh := fresh } := by
  unfold traceRecord
  split
  · unfold lpddrUnplaced
    dsimp only
    split
    · unfold lpddrChecked
      split
      · dsimp only
        rw [raiseReport_frame]
        exact ⟨_, _, rfl⟩
      · exact ⟨_, _, rfl⟩
    · exact ⟨_, _, rfl⟩
  · exact ⟨_, _, rfl⟩

theorem traceRecords_frame (l : List Nat) (r : Nat) (s : State) :
    ∃ flt fresh, (l.foldl (fun a i => traceRecord a (r + i)) (s, [])).1 = { s with flt := flt, fresh := fresh } := by
  refine List.foldlRecOn _ _ (motive := fun q : State × List (Option TraceRec) => ∃ flt fresh, q.1 = { s with flt := flt, fresh := fresh })
    ⟨_, _, rfl⟩ fun q hq i _ => ?_
  obtain ⟨_, _, before⟩ := hq
  obtain ⟨flt, fresh, after⟩ := traceRecord_frame q (r + i)
  exact ⟨flt, fresh, by rw [after, before]⟩

/-- R136: the first record that a read hands out. -/
def firstRecord (s : State) : Nat :=
  if odGet s 0x3050 2 = 0 ∧ traceCapacity s < odGet s 0x3050 4 - odGet s 0x3050 5 then odGet s 0x3050 4 - traceCapacity s
  else odGet s 0x3050 5

theorem firstRecord_eq (s : State) : firstRecord s =
    if odGet s 0x3050 2 = 0 then max (odGet s 0x3050 5) (odGet s 0x3050 4 - traceCapacity s) else odGet s 0x3050 5 := by
  unfold firstRecord
  generalize traceCapacity s = c
  split <;> split <;> omega

theorem traceRead_eq (s : State) (n : Nat) : traceRead s n =
    let q := (List.range (min n (odGet s 0x3050 4 - firstRecord s))).foldl (fun a i => traceRecord a (firstRecord s + i)) (s, [])
    (odSet q.1 0x3050 5 (firstRecord s + min n (odGet s 0x3050 4 - firstRecord s)), q.2) := rfl

theorem traceRead_none (s : State) : (traceRead s 0).2 = [] := by
  rw [traceRead_eq, Nat.zero_min]
  rfl

/-- R136: the read index after the read, and what else the read touches. -/
theorem traceRead_leaves (s : State) (n : Nat) : ∃ flt fresh, (traceRead s n).1 =
    odSet { s with flt := flt, fresh := fresh } 0x3050 5 (firstRecord s + min n (odGet s 0x3050 4 - firstRecord s)) := by
  obtain ⟨flt, fresh, frame⟩ := traceRecords_frame (List.range (min n (odGet s 0x3050 4 - firstRecord s))) (firstRecord s) s
  exact ⟨flt, fresh, by rw [traceRead_eq]; dsimp only; rw [frame]⟩

/-- Settles O19: the commit of limits by its refusals and its application, the raised limits, and the trace window. -/
theorem bufferLimitsAndTrace : Obligations.BufferLimitsAndTrace := by
  refine ⟨fun s idle fits enough => ?_, fun p s idle fits low => ?_, fun s busy => ?_, fun d s idle hd below beyond => ?_,
    fun d up s waits distinct settled => ?_, fun d s no => ?_, fun n r s hr => ?_, fun i s => ?_⟩
  · obtain ⟨⟨active, raising, frame⟩, done, -, waits⟩ := applied_range (odSet s 0x3010 2 1) 4
    have reached : exec .bufferLimitCommit s =
        .next (emit ((List.range 4).foldl applyLimits (odSet s 0x3010 2 1)) (.status .ok)) := by
      rw [exec_bufferLimitCommit, bufferCommit_applies idle fits enough]
    generalize (List.range 4).foldl applyLimits (odSet s 0x3010 2 1) = t at frame done waits reached
    have staged := fun (p i : Nat) (hp : p < 112) (hi : i < 16) => stagedLimit_status s 1 hp hi
    refine ⟨_, reached, ?_, fun p i hp hi => ?_, fun d hd => ?_, ?_, ?_⟩
    · rw [odGet_emit, frame]
      exact odGet_odSet_same s 0x3010 2 1
    · obtain ⟨d, hd, own⟩ := exists_die hp
      exact (done d hd p own i hi).trans (by rw [staged p i hp hi]; rfl)
    · obtain ⟨up, found, all⟩ := waits d hd
      refine ⟨up, found, fun p i own hi raised => ?_⟩
      have hp : p < 112 := by rw [mem_portsOfDie] at own; omega
      exact staged p i hp hi ▸ all p own i hi (by rw [staged p i hp hi]; exact raised)
    · rw [frame]
      rfl
    · rw [frame]
      rfl
  · rw [exec_bufferLimitCommit, bufferCommit_minimum idle fits low]
    refine ⟨_, rfl, ?_, ?_, rfl, rfl⟩
    · simp [odGet_odSet_sub]
    · simp
  · have refused : bufferCommit s = (odSet s 0x3010 2 5, .busy) := if_pos (by simpa using busy)
    rw [exec_bufferLimitCommit, refused]
  · obtain ⟨result, excess, die, out, frame⟩ := overFull_shows s (stagedTotal s d - 262144) d
    exact ⟨_, (exec_bufferLimitCommit s).trans (by rw [bufferCommit_over idle hd below beyond]), result, excess, die, out, frame⟩
  · have raised := raiseLimits_eq waits settled
    have limits := activeLimit_raiseAll up s distinct
    obtain ⟨active, frame⟩ := raiseAll_frame s up
    refine ⟨_, congrArg Host.Outcome.next raised, ?_, fun q hq => ?_, fun all => ?_, ?_⟩
    · rw [apply_ite State.swc, odSet_swc, ite_self]
      exact tabFind_del_same ..
    · refine (congrFun (congrFun (activeLimit_congr (s := raiseAll s up) ?_) _) _).trans (limits q hq)
      rw [apply_ite State.swc, odSet_swc, ite_self]
      rfl
    · rw [apply_ite State.swc, odSet_swc, ite_self] at all
      rw [if_pos (by simp [all])]
      exact odGet_odSet_same ..
    · unfold raisedDie
      rw [frame]
      split <;> rfl
  · refine congrArg Host.Outcome.next ?_
    unfold raiseLimits
    rcases no with none' | unsettled
    · rw [none']
    · split
      · rfl
      · rw [if_neg (by simp [unsettled])]
  · rw [← firstRecord_eq] at hr
    subst hr
    obtain ⟨flt, fresh, read⟩ := traceRead_leaves s n.val
    refine ⟨_, (traceRead s n.val).2.flatMap traceBytes, rfl, ?_, ?_, fun zero => ?_, fun i j _ hj other => ?_, ?_⟩
    · rw [odGet_emit, read, odGet_odSet_same]
    · rw [read]
      rfl
    · rw [zero, traceRead_none]
      rfl
    · rw [odGet_emit, read, odGet_odSet_ne _ _ other (by decide) hj]
      rfl
    · rw [read]
      rfl
  · exact ⟨_, rfl, odGet_odSet_same .., rfl, fun k j _ hj other => odGet_odSet_ne _ _ other (by decide) hj, rfl⟩

end Sys2Proof.Proofs.Buffers

/-!
The pool port agent (R149, R154).
-/

namespace Sys2Proof.Proofs.PoolPort

open Sys2Proof Sys2Proof.Machine Sys2Proof.Laws Sys2Proof.Proofs.Shared

@[simp] theorem poolAgent_setPool (s : State) (p : Nat) (x : PoolAgent) : poolAgent (setPool s p x) p = x := tabGet_set_same ..

theorem poolAgent_congr {s t : State} (h : t.prox.pools = s.prox.pools) : poolAgent t = poolAgent s := by
  funext p; simp only [poolAgent, h]

/-- R149: port `p` has taken unit `h` of its pair `v`, as message `m` or for good, and its agent has become `x`. -/
def agentTakes (s : State) (p : Nat) (v : Vn) (h : Held) (m : Option LinkMsg) (x : PoolAgent) : State :=
  egressTaken (setPool s p x) p v h.id m

theorem agentTakes_leaves (s : State) (p : Nat) (v : Vn) (h : Held) (m : Option LinkMsg) (x : PoolAgent) :
    poolAgent (agentTakes s p v h m x) p = x ∧ agentTakes s p v h m x = { s with
      swc := (agentTakes s p v h m x).swc, prox := { s.prox with pools := (agentTakes s p v h m x).prox.pools } } := by
  unfold agentTakes
  rw [egressTaken_frame]
  exact ⟨poolAgent_setPool s p x, rfl⟩

theorem agentTakes_msg {s : State} {p : Nat} {v : Vn} {h : Held} (head : egressHead s p v = some h) (m : LinkMsg) (x : PoolAgent) :
    ∃ e ∈ egress (agentTakes s p v h (some m) x) p v, e.msg = some m :=
  egressTaken_msg (s := setPool s p x) head m

/-- R154: the agent of port `p` becomes `x`, and answers a home. -/
theorem agentAnswers_leaves (s : State) (p : Nat) (x : PoolAgent) (u : FUnit) :
    poolAgent (send (setPool s p x) u) p = x ∧ ∃ fab pools, send (setPool s p x) u =
      { s with fab := fab, prox := { s.prox with pools := pools } } := by
  rw [send_frame]
  exact ⟨poolAgent_setPool s p x, _, _, rfl⟩

/-! ### What becomes of the agent -/

/-- R149: the agent with a read of its own tag. -/
def withRead (x : PoolAgent) (u : FUnit) : PoolAgent := { x with reads := x.reads ++ [(x.nextTag, u)], nextTag := (x.nextTag + 1) % 65536 }

/-- R154: the agent with a write that waits for its pull. -/
def withWrite (x : PoolAgent) (u : FUnit) : PoolAgent := { x with writes := x.writes ++ [{ u := u, pulled := false, sent := false, link := 0 }] }

/-- R154: the agent that has pulled the data of `w`. -/
def withPull (x : PoolAgent) (w : PoolWrite) : PoolAgent := { x with writes := x.writes.map fun y => if y = w then { y with pulled := true } else y }

/-- R154: the agent that has sent the data of `w`. -/
def withData (x : PoolAgent) (w : PoolWrite) : PoolAgent :=
  { x with writes := x.writes.map (fun y => if y = w then { y with sent := true, link := x.nextTag } else y), nextTag := (x.nextTag + 1) % 65536 }

theorem poolMemRd_takes {s : State} {p : Nat} {h : Held} (head : egressHead s p .req = some h) (read : h.u.type = 8) : poolMemRd s p =
    agentTakes s p .req h (some (.memRd (unpackMem h.u.payload).ld (deviceAddr h.u) (BitVec.ofNat 16 (poolAgent s p).nextTag)))
      (withRead (poolAgent s p) h.u) := by
  unfold poolMemRd
  rw [head]
  exact if_pos read

theorem poolMemWr_takes {s : State} {p : Nat} {h : Held} (head : egressHead s p .req = some h) (write : h.u.type = 9)
    (room : (poolAgent s p).writes.length < 512) : poolMemWr s p = agentTakes s p .req h none (withWrite (poolAgent s p) h.u) := by
  unfold poolMemWr
  rw [head]
  exact if_pos ⟨write, room⟩

theorem wrPull_pulls {s : State} {p : Nat} {w : PoolWrite}
    (room : ((poolAgent s p).writes.filter fun x => x.pulled && (!x.sent || rwdStands s p x)).length < 256)
    (oldest : ((poolAgent s p).writes.find? fun x => !x.pulled) = some w) : wrPull s p =
      send (setPool s p (withPull (poolAgent s p) w)) (homeRsp 0x1A (portPlace p) w.u.src w.u.tag w.u.line) := by
  unfold wrPull
  dsimp only
  rw [if_neg (Nat.not_le.2 room), oldest]
  rfl

theorem poolMemData_takes {s : State} {p : Nat} {h : Held} {w : PoolWrite} (head : egressHead s p .dat = some h)
    (pulled : ((poolAgent s p).writes.find? fun x => x.pulled && !x.sent && decide (x.u.src = h.u.src) && decide (x.u.tag = h.u.tag)) =
      some w) : poolMemData s p =
    agentTakes s p .dat h (some (.memWr (unpackMem w.u.payload).ld (deviceAddr w.u) (BitVec.ofNat 16 (poolAgent s p).nextTag)
      (h.u.poison || (unpackMem w.u.payload).wrPoison) h.u.payload)) (withData (poolAgent s p) w) := by
  unfold poolMemData
  rw [head]
  dsimp only
  rw [pulled]
  rfl

/-! ### The answers of the expander -/

theorem expanderRead_leaves {s : State} {p z : Nat} {t : BitVec 16} {poison : Bool} {d : LineData} {q : Nat × FUnit} {rest : List InMsg}
    (head : ingress s p .dat = { msg := .drs t poison d, since := z } :: rest)
    (found : ((poolAgent s p).reads.find? fun x => decide (x.1 = t.toNat)) = some q) :
    ∃ fab pools, expanderResponse s p true =
        { setIngress s p .dat rest with fab := fab, prox := { s.prox with pools := pools } } ∧
      poolAgent (expanderResponse s p true) p = { poolAgent s p with reads := (poolAgent s p).reads.filter fun x => decide (x.1 ≠ q.1) } := by
  have answered : expanderResponse s p true =
      send (send (setPool (setIngress s p .dat rest) p
          { poolAgent s p with reads := (poolAgent s p).reads.filter fun x => decide (x.1 ≠ q.1) })
        { blankUnit .dat (unpackMem q.2.payload).grant (portPlace p) (unpackMem q.2.payload).deliver (unpackMem q.2.payload).tag q.2.line with
          payload := d, poison := poison })
        { homeRsp 0x18 (portPlace p) q.2.src q.2.tag q.2.line with poison := poison } := by
    unfold expanderResponse ingressTaken
    simp only [if_true, head, found, List.tail_cons]
  rw [answered, send_frame, send_frame]
  exact ⟨_, _, rfl, poolAgent_setPool (setIngress s p .dat rest) p _⟩

theorem expanderWrite_leaves {s : State} {p z : Nat} {t : BitVec 16} {w : PoolWrite} {rest : List InMsg}
    (head : ingress s p .rsp = { msg := .ndr t, since := z } :: rest)
    (found : ((poolAgent s p).writes.find? fun x => x.sent && decide (x.link = t.toNat)) = some w) :
    ∃ fab pools, expanderResponse s p false =
        { setIngress s p .rsp rest with fab := fab, prox := { s.prox with pools := pools } } ∧
      poolAgent (expanderResponse s p false) p = { poolAgent s p with writes := (poolAgent s p).writes.filter fun x => decide (x ≠ w) } := by
  have answered : expanderResponse s p false =
      send (setPool (setIngress s p .rsp rest) p { poolAgent s p with writes := (poolAgent s p).writes.filter fun x => decide (x ≠ w) })
        (homeRsp 0x19 (portPlace p) w.u.src w.u.tag w.u.line) := by
    unfold expanderResponse ingressTaken
    simp only [Bool.false_eq_true, if_false, head, found, List.tail_cons]
  rw [answered, send_frame]
  exact ⟨_, _, rfl, poolAgent_setPool (setIngress s p .rsp rest) p _⟩

/-- Settles O24: a MemRd, a MemWr, its pull and its data at the agent, and the two answers of the expander. -/
theorem poolPort : Obligations.PoolPort := by
  refine ⟨fun p h s head read => ?_, fun p h s head write room => ?_, fun p w s room oldest => ?_, fun p h w s head pulled => ?_,
    fun p t poison d z q rest s head room found => ?_, fun p t z w rest s head room found => ?_⟩
  · obtain ⟨agent, frame⟩ := agentTakes_leaves s p.val .req h
      (some (.memRd (unpackMem h.u.payload).ld (deviceAddr h.u) (BitVec.ofNat 16 (poolAgent s p.val).nextTag)))
      (withRead (poolAgent s p.val) h.u)
    exact ⟨_, congrArg Host.Outcome.next (poolMemRd_takes head read), by rw [agent]; rfl, by rw [agent]; rfl, agentTakes_msg head _ _, frame⟩
  · obtain ⟨agent, frame⟩ := agentTakes_leaves s p.val .req h none (withWrite (poolAgent s p.val) h.u)
    exact ⟨_, _, congrArg Host.Outcome.next (poolMemWr_takes head write room), by rw [agent]; rfl, rfl, rfl, rfl, frame⟩
  · obtain ⟨agent, fab, pools, frame⟩ := agentAnswers_leaves s p.val (withPull (poolAgent s p.val) w)
      (homeRsp 0x1A (portPlace p.val) w.u.src w.u.tag w.u.line)
    exact ⟨_, congrArg Host.Outcome.next (wrPull_pulls room oldest), by rw [agent]; rfl, by rw [frame]⟩
  · obtain ⟨agent, frame⟩ := agentTakes_leaves s p.val .dat h
      (some (.memWr (unpackMem w.u.payload).ld (deviceAddr w.u) (BitVec.ofNat 16 (poolAgent s p.val).nextTag)
        (h.u.poison || (unpackMem w.u.payload).wrPoison) h.u.payload)) (withData (poolAgent s p.val) w)
    exact ⟨_, congrArg Host.Outcome.next (poolMemData_takes head pulled), by rw [agent]; rfl, by rw [agent]; rfl, agentTakes_msg head _ _, frame⟩
  · obtain ⟨fab, pools, frame, agent⟩ := expanderRead_leaves head found
    exact ⟨_, if_pos room, by rw [frame]; exact ingress_setIngress .., by rw [agent], by rw [frame]; rfl⟩
  · obtain ⟨fab, pools, frame, agent⟩ := expanderWrite_leaves head found
    exact ⟨_, if_pos room, by rw [frame]; exact ingress_setIngress .., by rw [agent], by rw [frame]; rfl⟩

end Sys2Proof.Proofs.PoolPort

/-!
Snoops at the proxy of a host (R160, R161, R164, R165): the table, the message to the host and its answer.
-/

namespace Sys2Proof.Proofs.ProxySnoops

open Sys2Proof Sys2Proof.Machine Sys2Proof.Laws Sys2Proof.Proofs.Shared

/-! ### The tables of a proxy -/

@[simp] theorem proxy_setProxy (s : State) (v : Nat) (x : Proxy) : proxy (setProxy s v x) v = x := tabGet_set_same ..

theorem proxy_congr {s t : State} (h : t.prox.proxies = s.prox.proxies) : proxy t = proxy s := by
  funext v; simp only [proxy, h]

/-- R93: what a host address is decoded to does not depend on the packet buffers or on the tables of the proxies. -/
theorem decodeLine_taken (s : State) (x : SwcState) (y : ProxState) : decodeLine { s with swc := x, prox := y } = decodeLine s := by
  have address : decodeAddr { s with swc := x, prox := y } = decodeAddr s := by unfold decodeAddr; rfl
  unfold decodeLine
  rw [address]

theorem entryIs_taken (s : State) (x : SwcState) (y : ProxState) : entryIs { s with swc := x, prox := y } = entryIs s := by
  unfold entryIs
  rw [decodeLine_taken]

theorem hostLine_taken (s : State) (x : SwcState) (y : ProxState) : hostLine { s with swc := x, prox := y } = hostLine s := by
  unfold hostLine hostLines
  rfl

/-! ### A snoop is taken (R164) -/

/-- R164: the snoop that unit `h` brings to the proxy of VCS `v`. -/
def snoopOf (s : State) (v : Nat) (h : Held) : ProxySnoop :=
  { biTag := (proxy s v).nextBi, inv := decide (h.u.type = 1), line := h.u.line, home := (switchOf h.u.src).getD (ownSwitch s)
    src := h.u.src, tag := h.u.tag, body := unpackSnp h.u.payload, out := false, dirty := none }

/-- R164: its table with the snoop. -/
def withSnoop (s : State) (v : Nat) (h : Held) : Proxy :=
  { proxy s v with snps := (proxy s v).snps ++ [snoopOf s v h], nextBi := ((proxy s v).nextBi + 1) % 65536 }

/-- R164: the snoop has been taken from the pair of port `p`. -/
def snoopTaken (s : State) (v p : Nat) (h : Held) : State := setProxy (egressTaken s p .snp h.id none) v (withSnoop s v h)

theorem snoopTaken_frame (s : State) (v p : Nat) (h : Held) :
    ∃ swc prox, snoopTaken s v p h = { s with swc := swc, prox := prox } := by
  unfold snoopTaken
  rw [egressTaken_frame]
  exact ⟨_, _, rfl⟩

theorem proxy_snoopTaken (s : State) (v p : Nat) (h : Held) : proxy (snoopTaken s v p h) v = withSnoop s v h := proxy_setProxy ..

theorem ownOutstanding_snoopTaken (s : State) (v p : Nat) (h : Held) (n : Nat) (l : BitVec 42) :
    ownOutstanding (snoopTaken s v p h) v n l = ownOutstanding s v n l := by
  obtain ⟨swc, prox, frame⟩ := snoopTaken_frame s v p h
  have entries : entryIs (snoopTaken s v p h) = entryIs s := by rw [frame, entryIs_taken]
  unfold ownOutstanding
  rw [proxy_snoopTaken, entries]
  rfl

section Snoop

variable {s : State} {v p : Nat} {h : Held} (head : egressHead s p .snp = some h) (room : (proxy s v).snps.length < 1024)
include head room

theorem proxySnoop_eq : proxySnoop s v p =
    if ownOutstanding s v (snoopOf s v h).home h.u.line then snoopTaken s v p h else snoopAct (snoopTaken s v p h) v p (snoopOf s v h) := by
  unfold proxySnoop
  rw [head]
  dsimp only
  rw [if_neg (Nat.not_le.2 room), ← ownOutstanding_snoopTaken s v p h]
  rfl

theorem proxySnoop_held (own : ownOutstanding s v ((switchOf h.u.src).getD (ownSwitch s)) h.u.line = true) :
    proxySnoop s v p = snoopTaken s v p h :=
  (proxySnoop_eq head room).trans (if_pos own)

theorem proxySnoop_acts (free : ownOutstanding s v ((switchOf h.u.src).getD (ownSwitch s)) h.u.line = false) :
    proxySnoop s v p = snoopAct (snoopTaken s v p h) v p (snoopOf s v h) :=
  (proxySnoop_eq head room).trans (if_neg (ne_true_of_eq_false free))

end Snoop

/-! ### A snoop goes to the host (R164) -/

/-- R164: the table in which the snoop with BI tag `b` has gone to the host. -/
def withSent (x : Proxy) (b : Nat) (d : Option (LineData × Bool)) : Proxy :=
  { x with snps := x.snps.map fun e => if e.biTag = b then { e with out := true, dirty := d } else e }

theorem sendBiSnp_leaves {s : State} {v p : Nat} {sn : ProxySnoop} {a : BitVec 46} (known : hostLine s v sn.home sn.line = some a)
    (d : Option (LineData × Bool)) :
    proxy (sendBiSnp s v p sn d) v = withSent (proxy s v) sn.biTag d ∧
      ∃ fab perf swc prox, sendBiSnp s v p sn d = { s with fab := fab, perf := perf, swc := swc, prox := prox } := by
  unfold sendBiSnp
  rw [known]
  exact ⟨proxy_setProxy s v (withSent (proxy s v) sn.biTag d), _, _, _, _, rfl⟩

theorem snoopAct_passes {s : State} {v p : Nat} {sn : ProxySnoop} (noEviction : evictFor s v sn = none) (up : portUp s p = true) :
    snoopAct s v p sn = sendBiSnp s v p sn none := by
  unfold snoopAct
  rw [noEviction]
  exact if_pos up

theorem evictFor_snoopTaken {s : State} {v p : Nat} {h : Held}
    (none' : ∀ e ∈ (proxy s v).evs, entryIs s v e.pool e.hpa ((switchOf h.u.src).getD (ownSwitch s)) h.u.line = false) :
    evictFor (snoopTaken s v p h) v (snoopOf s v h) = none := by
  obtain ⟨swc, prox, frame⟩ := snoopTaken_frame s v p h
  have entries : entryIs (snoopTaken s v p h) = entryIs s := by rw [frame, entryIs_taken]
  unfold evictFor
  rw [proxy_snoopTaken, entries]
  exact List.find?_eq_none.2 fun e he => by
    rw [show entryIs s v e.pool e.hpa (snoopOf s v h).home (snoopOf s v h).line = false from none' e he]
    exact Bool.false_ne_true

/-! ### The host answers (R164) -/

theorem snoopReply_noted (s : State) (v p : Nat) (sn : ProxySnoop) (d : Option (LineData × Bool)) (k : Bool) :
    Noted s (snoopReply s v p sn d k) := by
  unfold snoopReply
  cases d with
  | none => exact Noted.send s _
  | some d =>
    dsimp -zeta only
    extract_lets rsp fwd wb s1
    have sent : Noted s s1 := by
      unfold s1
      split
      · exact Noted.send s _
      · exact (Noted.bumpVcs s _ _ _).trans ((Noted.send _ _).trans (Noted.send _ _))
    clear_value s1
    split
    · exact sent.trans (Noted.logTrackers ..)
    · exact sent

/-- R164: the table without the snoop with BI tag `b`. -/
def withoutSnoop (x : Proxy) (b : Nat) : Proxy := { x with snps := x.snps.filter fun e => decide (e.biTag ≠ b) }

theorem biRsp_leaves {s : State} {v p : Nat} {t : BitVec 16} {sn : ProxySnoop} {m : InMsg} {rest : List InMsg}
    (head : ingress s p .rsp = m :: rest) (found : ((proxy s v).snps.find? fun e => e.out && decide (e.biTag = t.toNat)) = some sn)
    (k : BiRspKind) :
    ingress (biRsp s v p k t) p .rsp = rest ∧ proxy (biRsp s v p k t) v = withoutSnoop (proxy s v) sn.biTag ∧
      (biRsp s v p k t).mgmt = s.mgmt ∧ (biRsp s v p k t).out = s.out := by
  let s1 := dropSnoop (bumpVcs (setIngress s p .rsp rest) v 26 1) v sn.biTag
  have reply : biRsp s v p k t = snoopReply s1 v p sn sn.dirty (decide (k = .s)) := by
    unfold biRsp ingressTaken
    rw [found, head]
    rfl
  have noted : Noted s1 (biRsp s v p k t) := reply ▸ snoopReply_noted ..
  refine ⟨?_, ?_, noted.mgmt, noted.out⟩
  · rw [ingress_congr (congrArg SwcState.ingress noted.swc)]
    exact ingress_setIngress ..
  · rw [proxy_congr (congrArg ProxState.proxies noted.prox)]
    exact proxy_setProxy ..

/-- Settles O22: a snoop that is held, one that goes to the host, the host's answer, and a conflict. -/
theorem proxySnoops : Obligations.ProxySnoops := by
  refine ⟨fun v p h s up head room own => ?_, fun v p h a s up head room free noEviction link known => ?_,
    fun v p z k t sn rest s up head found room => ?_, fun v p z a t rest s up head link => ?_⟩
  · have reached : exec (.proxySnoop v) s = .next (snoopTaken s v.val p h) := by
      rw [show exec (.proxySnoop v) s = execProxySnoop v s from rfl, execProxySnoop, up]
      exact congrArg Host.Outcome.next (proxySnoop_held head room own)
    obtain ⟨swc, prox, frame⟩ := snoopTaken_frame s v.val p h
    exact ⟨_, snoopOf s v.val h, reached, by rw [proxy_snoopTaken]; rfl, rfl, rfl, rfl, rfl, rfl, by rw [proxy_snoopTaken]; rfl,
      by rw [frame]⟩
  · obtain ⟨swc, prox, frame⟩ := snoopTaken_frame s v.val p h
    have reached : exec (.proxySnoop v) s = .next (sendBiSnp (snoopTaken s v.val p h) v.val p (snoopOf s v.val h) none) := by
      rw [show exec (.proxySnoop v) s = execProxySnoop v s from rfl, execProxySnoop, up]
      refine congrArg Host.Outcome.next ((proxySnoop_acts head room free).trans (snoopAct_passes (evictFor_snoopTaken noEviction) ?_))
      rw [frame]
      exact link
    obtain ⟨table, fab, perf, swc', prox', frame'⟩ := sendBiSnp_leaves (s := snoopTaken s v.val p h) (v := v.val) (p := p)
      (sn := snoopOf s v.val h) (by rw [frame, hostLine_taken]; exact known) none
    refine ⟨_, { snoopOf s v.val h with out := true }, reached, ?_, rfl, rfl, rfl, rfl, rfl, ?_⟩
    · rw [table, proxy_snoopTaken]
      exact List.mem_map.2 ⟨snoopOf s v.val h, List.mem_append_right _ (List.mem_singleton.2 rfl), if_pos rfl⟩
    · rw [frame', frame]
  · have reached : exec (.proxyBirsp v) s = .next (biRsp s v.val p k t) := by
      rw [show exec (.proxyBirsp v) s = execProxyBirsp v s from rfl, execProxyBirsp, up]
      dsimp only
      rw [head]
      exact if_pos room
    obtain ⟨taken, table, mgmt, out⟩ := biRsp_leaves head found k
    exact ⟨_, reached, taken, by rw [table]; rfl, mgmt, out⟩
  · have reached : exec (.biconflict v) s =
        .next (hostSend (bumpVcs (setIngress s p .req rest) v.val 29 1) p .rsp (.conflictAck t)) := by
      rw [show exec (.biconflict v) s = execBiconflict v s from rfl, execBiconflict, up]
      dsimp only
      rw [head]
      refine congrArg Host.Outcome.next ?_
      unfold tellHost ingressTaken
      rw [head]
      exact if_pos link
    exact ⟨_, _, reached, ingress_setIngress s p .req rest, egress_setEgress .., rfl, rfl⟩

end Sys2Proof.Proofs.ProxySnoops

/-!
Answers at the proxy of a host (R162, R168, R263), and the remote agent of an Aulum port (R142, R158).
-/

namespace Sys2Proof.Proofs.ProxyAnswers

open Sys2Proof Sys2Proof.Machine Sys2Proof.Laws Sys2Proof.Proofs.Shared Sys2Proof.Proofs.Ingress Sys2Proof.Proofs.ProxySnoops

/-! ### What a proxy does for its snoops and its host -/

/-- What an answer to the host and the release of held snoops touch; no request of a proxy is among it. -/
structure HostPath (s t : State) : Prop where
  touched : ∃ od flt pow perf fab swc prox mov ven,
    t = { s with od := od, flt := flt, pow := pow, perf := perf, fab := fab, swc := swc, prox := prox, mov := mov, ven := ven }
  requests : ∀ v, (proxy t v).reqs = (proxy s v).reqs

namespace HostPath

variable {s t u : State}

theorem refl (s : State) : HostPath s s := ⟨⟨_, _, _, _, _, _, _, _, _, rfl⟩, fun _ => rfl⟩

theorem trans (h : HostPath s t) (g : HostPath t u) : HostPath s u := by
  refine ⟨?_, fun v => (g.requests v).trans (h.requests v)⟩
  obtain ⟨_, _, _, _, _, _, _, _, _, rfl⟩ := h.touched
  obtain ⟨_, _, _, _, _, _, _, _, _, rfl⟩ := g.touched
  exact ⟨_, _, _, _, _, _, _, _, _, rfl⟩

theorem out (h : HostPath s t) : t.out = s.out := by obtain ⟨⟨_, _, _, _, _, _, _, _, _, rfl⟩, -⟩ := h; rfl
theorem mgmt (h : HostPath s t) : t.mgmt = s.mgmt := by obtain ⟨⟨_, _, _, _, _, _, _, _, _, rfl⟩, -⟩ := h; rfl

theorem of_noted (h : Noted s t) : HostPath s t := by
  obtain ⟨_, _, _, _, _, rfl⟩ := h.touched
  exact ⟨⟨_, _, _, _, _, _, _, _, _, rfl⟩, fun _ => rfl⟩

theorem of_traced (h : Traced s t) : HostPath s t := by
  obtain ⟨_, _, _, _, _, _, rfl⟩ := h.touched
  exact ⟨⟨_, _, _, _, _, _, _, _, _, rfl⟩, fun _ => rfl⟩

theorem bumpVcs (s : State) (v e k : Nat) : HostPath s (bumpVcs s v e k) := of_noted (.bumpVcs ..)

theorem egressTaken (s : State) (p : Nat) (v : Vn) (id : Nat) (m : Option LinkMsg) : HostPath s (egressTaken s p v id m) := by
  rw [egressTaken_frame]
  exact ⟨⟨_, _, _, _, _, _, _, _, _, rfl⟩, fun _ => rfl⟩

theorem hostSend (s : State) (p : Nat) (v : Vn) (m : LinkMsg) : HostPath s (hostSend s p v m) :=
  ⟨⟨_, _, _, _, _, _, _, _, _, rfl⟩, fun _ => rfl⟩

theorem setProxy (s : State) (v : Nat) {x : Proxy} (same : x.reqs = (proxy s v).reqs) : HostPath s (setProxy s v x) := by
  refine ⟨⟨_, _, _, _, _, _, _, _, _, rfl⟩, fun w => ?_⟩
  by_cases own : w = v
  · subst own
    rw [proxy_setProxy, same]
  · exact congrArg Proxy.reqs (tabGet_set_other own _ _ _ _)

theorem moverWriteGone (s : State) (u : FUnit) : HostPath s (moverWriteGone s u) := by
  unfold Machine.moverWriteGone
  split <;> exact ⟨⟨_, _, _, _, _, _, _, _, _, rfl⟩, fun _ => rfl⟩

theorem flushed (s : State) (p : Nat) (u : FUnit) : HostPath s (flushed s p u) :=
  (of_noted (.bumpC s _ _)).trans ((of_traced (.unit ..)).trans (moverWriteGone ..))

/-! Snoops (R161, R164) -/

theorem dropSnoop (s : State) (v b : Nat) : HostPath s (dropSnoop s v b) := setProxy s v rfl

theorem snoopReply (s : State) (v p : Nat) (sn : ProxySnoop) (d : Option (LineData × Bool)) (k : Bool) :
    HostPath s (snoopReply s v p sn d k) := of_noted (snoopReply_noted ..)

theorem snoopLost (s : State) (v p : Nat) (src : BitVec 12) (tag : BitVec 16) (l : BitVec 42) : HostPath s (snoopLost s v p src tag l) :=
  of_noted ((Noted.bumpC s _ _).trans (.send ..))

theorem sendBiSnp (s : State) (v p : Nat) (sn : ProxySnoop) (d : Option (LineData × Bool)) : HostPath s (sendBiSnp s v p sn d) := by
  unfold Machine.sendBiSnp
  split
  · exact (dropSnoop ..).trans (snoopReply ..)
  · refine (setProxy s v ?_).trans ((bumpVcs ..).trans (hostSend ..))
    rfl

theorem snoopAct (s : State) (v p : Nat) (sn : ProxySnoop) : HostPath s (snoopAct s v p sn) := by
  unfold Machine.snoopAct
  split
  · extract_lets x s1
    have marked : HostPath s s1 := by
      refine (setProxy s v ?_).trans (bumpVcs ..)
      rfl
    clear_value s1
    split
    · exact marked.trans (sendBiSnp ..)
    · exact marked.trans ((dropSnoop ..).trans (snoopReply ..))
  · split
    · exact sendBiSnp ..
    · exact (dropSnoop ..).trans (snoopLost ..)

theorem releaseSnoops (s : State) (v p : Nat) : HostPath s (releaseSnoops s v p) := by
  refine List.foldlRecOn _ _ (motive := HostPath s) (refl s) fun t h sn _ => ?_
  split
  · exact h.trans (snoopAct ..)
  · exact h

/-! Messages to the host (R150, R163) -/

theorem give (s : State) (p : Nat) (vn : Vn) (unit : Option Nat) (m : LinkMsg) : HostPath s (give s p vn unit m) := by
  unfold Machine.give
  split
  · exact egressTaken ..
  · unfold tellHost
    split
    · exact hostSend ..
    · exact refl s

theorem giveNothing (s : State) (p : Nat) (vn : Vn) (unit : Option Nat) : HostPath s (giveNothing s p vn unit) := by
  unfold Machine.giveNothing
  split
  · dsimp only
    split
    · split
      · exact (egressTaken ..).trans (flushed ..)
      · exact egressTaken ..
    · exact egressTaken ..
  · exact refl s

end HostPath

/-- R162: once the data has reached the host, the request is gone. -/
theorem reqData_leaves (s : State) (v p : Nat) (unit : Option Nat) (e : ProxyReq) (g : Nat) (poison : Bool) (d : LineData) :
    (proxy (reqData s v p unit e g poison d) v).reqs = (proxy s v).reqs.filter (fun x => decide (x.tag ≠ e.tag)) ∧
      (reqData s v p unit e g poison d).mgmt = s.mgmt ∧ (reqData s v p unit e g poison d).out = s.out := by
  unfold reqData
  extract_lets s1 s2 s3
  have counted : HostPath s s2 := by
    refine .trans ?_ (HostPath.bumpVcs ..)
    have latency : HostPath s s1 := (HostPath.bumpVcs ..).trans (HostPath.bumpVcs ..)
    split
    · exact latency.trans (HostPath.bumpVcs ..)
    · exact latency
  clear_value s2
  have told : HostPath (dropEntry s2 v e.tag) s3 := by
    unfold s3 finishEntry
    dsimp only
    split
    · exact HostPath.giveNothing ..
    · exact HostPath.give ..
  clear_value s3
  have released : HostPath (dropEntry s2 v e.tag)
      (releaseSnoops (if e.kind = 1 ∧ g = 2 then logTrackers s3 v (e.hpa.toNat * 64) else s3) v p) := by
    refine .trans ?_ (HostPath.releaseSnoops ..)
    split
    · exact told.trans (.of_noted (.logTrackers ..))
    · exact told
  refine ⟨(released.requests v).trans ?_, released.mgmt.trans counted.mgmt, released.out.trans counted.out⟩
  rw [← counted.requests v]
  exact congrArg Proxy.reqs (proxy_setProxy s2 v _)

theorem proxyResponse_data {s : State} {v p : Nat} {h : Held} {e : ProxyReq} (next : nextResponse s p .dat = some h)
    (free : tabFind? (h.u.tag.toNat % 512) (proxy s v).quarantine = none)
    (found : ((proxy s v).reqs.find? fun x => decide (x.tag = h.u.tag.toNat % 512)) = some e) (right : wrongLine h.u e.pool = false) :
    proxyResponse s v p .dat = reqData s v p (some h.id) e (h.u.type.toNat % 4) h.u.poison h.u.payload := by
  unfold proxyResponse
  rw [next]
  dsimp only
  rw [free, if_neg (by exact Bool.false_ne_true), found]
  dsimp only
  rw [if_neg (ne_true_of_eq_false right), if_pos rfl]

theorem proxyResponse_quarantined {s : State} {v p : Nat} {vn : Vn} {h : Held} {l : BitVec 42} (next : nextResponse s p vn = some h)
    (held : tabFind? (h.u.tag.toNat % 512) (proxy s v).quarantine = some l) :
    proxyResponse s v p vn = discardQuarantined s p vn h.id := by
  unfold proxyResponse
  rw [next]
  dsimp only
  rw [held]
  rfl

theorem exec_proxyResponse {s : State} {v : Fin 64} {p : Nat} (up : upstreamPort s v.val = some p) (b : Bool) :
    exec (.proxyResponse v b) s = .next (proxyResponse s v.val p (if b then .dat else .rsp)) := by
  rw [show exec (.proxyResponse v b) s = execProxyResponse v b s from rfl, execProxyResponse, up]

/-! ### The remote agent of an Aulum port (R142, R158) -/

/-- What the remote agent touches: the fabric, outside the buffers of agents, and the fan-outs. -/
structure Relayed (s t : State) : Prop where
  touched : ∃ fab fans, t = { s with fab := fab, prox := { s.prox with fans := fans } } ∧ fab.eject = s.fab.eject

namespace Relayed

variable {s t u : State}

theorem refl (s : State) : Relayed s s := ⟨_, _, rfl, rfl⟩

theorem trans (h : Relayed s t) (g : Relayed t u) : Relayed s u := by
  obtain ⟨_, _, rfl, eject⟩ := h
  obtain ⟨_, _, rfl, eject'⟩ := g
  exact ⟨_, _, rfl, eject'.trans eject⟩

theorem fans (s : State) (l : List FanOut) : Relayed s { s with prox := { s.prox with fans := l } } := ⟨_, _, rfl, rfl⟩

theorem sendAt (s : State) (n a : Nat) (u : FUnit) (t : Option Tlp) (hpa : Option (Nat × BitVec 46)) : Relayed s (sendAt s n a u t hpa) := by
  unfold Machine.sendAt
  dsimp only
  split <;> exact ⟨_, _, rfl, rfl⟩

theorem fanOut (s : State) (a : Nat) (u : FUnit) : Relayed s (fanOut s a u) := by
  unfold Machine.fanOut
  extract_lets b vs near far isl f0 f s1
  split
  · exact fans ..
  · exact (fans s _).trans (sendAt ..)

theorem localReply (s : State) (a : Nat) (u : FUnit) : Relayed s (localReply s a u) := by
  unfold Machine.localReply
  split
  · exact refl s
  · split
    · exact refl s
    · exact fans ..

theorem fanLost (s : State) (a : Nat) (u : FUnit) : Relayed s (fanLost s a u) := by
  unfold Machine.fanLost
  split
  · exact refl s
  · exact fans ..

theorem toAgent (s : State) (a w : Nat) (agent : BitVec 12) (u : FUnit) :
    Relayed s (if agent = 0 then s else reinject s a w agent u) := by
  split
  · exact refl s
  · exact sendAt ..

theorem remoteUnit (s : State) (a w : Nat) (u : FUnit) : Relayed s (remoteUnit s a w u) := by
  unfold Machine.remoteUnit
  dsimp only
  split
  · split
    · exact toAgent ..
    · exact toAgent ..
    · exact sendAt ..
    · exact sendAt ..
    · exact refl s
  · split
    · split <;> exact sendAt ..
    · exact sendAt ..
    · exact fanOut ..
    · split
      · exact sendAt ..
      · exact toAgent ..
    · exact toAgent ..
    · exact refl s

theorem returnedUnit (s : State) (a : Nat) (h : Held) : Relayed s (returnedUnit s a h) := by
  unfold Machine.returnedUnit
  dsimp only
  split
  · split
    · exact sendAt ..
    · exact refl s
  · split
    · split
      · exact fanLost ..
      · exact refl s
    · split
      · exact localReply ..
      · exact refl s

end Relayed

/-- Units of the ingress pairs that go on touch the fabric and the Aulum ports. -/
structure Drained (s t : State) : Prop where
  touched : ∃ fab aul, t = { s with fab := fab, aul := aul }

namespace Drained

variable {s t u : State}

theorem refl (s : State) : Drained s s := ⟨_, _, rfl⟩

theorem trans (h : Drained s t) (g : Drained t u) : Drained s u := by
  obtain ⟨_, _, rfl⟩ := h
  obtain ⟨_, _, rfl⟩ := g
  exact ⟨_, _, rfl⟩

theorem linkFreed (s : State) (a : Nat) (l : List Held) : Drained s (linkFreed s a l) :=
  List.foldlRecOn _ _ (motive := Drained s) (refl s) fun _ h _ _ => h.trans ⟨_, _, rfl⟩

theorem linkMove {s t : State} {a : Nat} {v : Vn} {cls : Nat} (moved : linkMove s a v cls = some t) : Drained s t := by
  unfold Machine.linkMove at moved
  dsimp only at moved
  split at moved
  · cases moved
  · next h _ =>
    have freed : Drained s (Machine.linkFreed (setLinkQueue s a v ((linkQueue s a v).filter fun g => decide (g.id ≠ h.id))) a [h]) :=
      trans (t := setLinkQueue s a v _) ⟨_, _, rfl⟩ (linkFreed ..)
    split at moved
    · split at moved
      · cases moved
        exact freed.trans ⟨_, _, rfl⟩
      · cases moved
    · split at moved
      · cases moved
        refine freed.trans ?_
        rw [sendAt_frame]
        exact ⟨_, _, rfl⟩
      · cases moved

theorem linkMoves (a : Nat) (v : Vn) (cls n : Nat) (s : State) : Drained s (linkMoves s a v cls n) := by
  induction n generalizing s with
  | zero => exact refl s
  | succ n ih =>
    unfold Machine.linkMoves
    split
    · next t moved => exact (linkMove moved).trans (ih t)
    · exact refl s

theorem linkDrain (s : State) (a : Nat) : Drained s (linkDrain s a) :=
  List.foldlRecOn _ _ (motive := Drained s) (refl s) fun _ h _ _ =>
    List.foldlRecOn _ _ (motive := Drained s) h fun _ g _ _ => g.trans (linkMoves ..)

end Drained

theorem linkDrain_empty {s : State} (a : Nat) (empty : s.aul.inq = []) : linkDrain s a = s := by
  have nothing : ∀ v, linkQueue s a v = [] := fun v => by unfold linkQueue; rw [empty]; rfl
  refine List.foldlRecOn _ _ (motive := fun t : State => t = s) rfl fun t ht v _ => ?_
  refine List.foldlRecOn _ _ (motive := fun t : State => t = s) ht fun r hr cls _ => ?_
  rw [hr, nothing]
  rfl

/-- R142: the head of an input queue of the remote agent has been taken, and what it brought done. -/
theorem remoteReceive_relays {s : State} {a : Nat} {v : Vn} {h : Held} {rest : List Held} (head : ejectBuf s (bridgeStop a) 8 v = h :: rest) :
    ∃ t, Relayed (setEjectBuf s (bridgeStop a) 8 v rest) t ∧ remoteReceive s a v = linkDrain t a := by
  unfold remoteReceive
  dsimp only
  rw [head]
  dsimp only
  split
  · split
    · exact ⟨_, Relayed.remoteUnit .., rfl⟩
    · exact ⟨_, Relayed.returnedUnit .., rfl⟩
  · exact ⟨_, Relayed.returnedUnit .., rfl⟩

/-- R158: the fan-out that a snoop starts stands for the port and the unit. -/
theorem fanOut_adds (s : State) (a : Nat) (u : FUnit) :
    ∃ f : FanOut, (fanOut s a u).prox.fans = s.prox.fans ++ [f] ∧ f.island = a ∧ f.u = u := by
  unfold fanOut
  extract_lets b vs near far isl f0 blank f s1
  have stands : f.island = a ∧ f.u = u :=
    List.foldlRecOn _ _ (motive := fun g : FanOut => g.island = a ∧ g.u = u) ⟨rfl, rfl⟩ fun _ hg _ _ => hg
  refine ⟨f, ?_, stands.1, stands.2⟩
  split
  · rfl
  · rw [sendAt_frame]

theorem remoteUnit_snoop {s : State} {a w : Nat} {u : FUnit} (snoop : u.vn = .snp) (reached : u.type ≠ 0x3F) :
    remoteUnit s a w u = fanOut s a u := by
  unfold remoteUnit
  dsimp only
  rw [if_neg reached, snoop]

/-- R45: the unit that is held, with the time it has waited. -/
def agedUnit (s : State) (h : Held) : FUnit := { h.u with age := agedBy s h.since h.u.age }

theorem remoteReceive_fansOut {s : State} {a k : Nat} {h : Held} {rest : List Held}
    (head : ejectBuf s (bridgeStop a) 8 .snp = h :: rest) (snoop : h.u.vn = .snp) (reached : h.u.type ≠ 0x3F)
    (came : h.hpa = some (k, 1)) (link : 128 ≤ k) :
    ∃ f : FanOut, (remoteReceive s a .snp).prox.fans = s.prox.fans ++ [f] ∧ f.island = a ∧ f.u.tag = h.u.tag ∧ f.u.line = h.u.line := by
  obtain ⟨f, added, island, unit⟩ := fanOut_adds (setEjectBuf s (bridgeStop a) 8 .snp rest) a (agedUnit s h)
  have received : remoteReceive s a .snp = linkDrain (fanOut (setEjectBuf s (bridgeStop a) 8 .snp rest) a (agedUnit s h)) a := by
    unfold remoteReceive
    dsimp only
    rw [head]
    simp only [came, link, and_self, if_true]
    exact congrArg (fun t => linkDrain t a) (remoteUnit_snoop (u := agedUnit s h) snoop reached)
  obtain ⟨fab, aul, drained⟩ := (Drained.linkDrain (fanOut (setEjectBuf s (bridgeStop a) 8 .snp rest) a (agedUnit s h)) a).touched
  refine ⟨f, ?_, island, by rw [unit]; rfl, by rw [unit]; rfl⟩
  rw [received, drained]
  dsimp only
  rw [added]
  rfl

/-- R158: the unit that answers fan-out `f` of port `a`. -/
def combinedUnit (s : State) (a : Nat) (f : FanOut) : FUnit :=
  let body := packRsp (BitVec.ofNat 16 (ownSwitch s * 64)) 2 0 false
  let base := f.reply.getD { blankUnit .rsp 0 (remotePlace a) f.u.src f.u.tag f.u.line with payload := body }
  { base with src := remotePlace a, dst := f.u.src, tag := f.u.tag, line := f.u.line, poison := f.poison, synth := f.synth
              payload := if base.vn = .rsp then body else base.payload }

/-- R168: the request is issued once more. -/
theorem backoffEnd_issues {s : State} {v t : Nat} {e : ProxyReq} (found : ((proxy s v).reqs.find? fun x => decide (x.tag = t)) = some e)
    (waits : e.st = .backoff) (p : Nat) : ∃ fab, backoffEnd s v p t =
      { setProxy s v { proxy s v with reqs := (proxy s v).reqs.map fun x => if x.tag = t then { e with st := .issued } else x } with
        fab := fab } := by
  unfold backoffEnd
  dsimp only
  rw [found]
  dsimp only
  rw [if_pos waits]
  unfold issueReq issueUnit
  rw [sendAt_frame]
  exact ⟨_, rfl⟩

/-- Settles O23: data for a request, quarantine, the end of a back-off, and the remote agent's units and fan-outs. -/
theorem proxyAnswersAndRemoteAgents : Obligations.ProxyAnswersAndRemoteAgents := by
  refine ⟨fun v p h e s up next free found right => ?_, fun v b p h l s up next held => ?_, fun v t p e s small up found waits => ?_,
    fun a v h rest s head => ?_, fun a h k rest s head snoop reached came link => ?_, fun a f s found => ?_⟩
  · obtain ⟨requests, mgmt, out⟩ := reqData_leaves s v.val p (some h.id) e (h.u.type.toNat % 4) h.u.poison h.u.payload
    exact ⟨_, (exec_proxyResponse up true).trans (congrArg Host.Outcome.next (proxyResponse_data next free found right)), requests, mgmt, out⟩
  · have reached := (exec_proxyResponse up b).trans (congrArg Host.Outcome.next (proxyResponse_quarantined next held))
    unfold discardQuarantined at reached
    rw [egressTaken_frame] at reached
    exact ⟨_, reached, rfl, counter_bump_same _ _ 1, rfl⟩
  · have reached : exec (.proxyBackoffEnd v t) s = .next (backoffEnd s v.val p t.val) := by
      rw [show exec (.proxyBackoffEnd v t) s = execProxyBackoffEnd v t s from rfl, execProxyBackoffEnd, if_neg (by omega), up]
    obtain ⟨fab, again⟩ := backoffEnd_issues found waits p
    refine ⟨_, reached.trans (congrArg Host.Outcome.next again), ?_, rfl⟩
    exact congrArg Proxy.reqs (proxy_setProxy s v.val _)
  · obtain ⟨t, relayed, received⟩ := remoteReceive_relays head
    obtain ⟨fab, fans, rfl, eject⟩ := relayed.touched
    refine ⟨_, congrArg Host.Outcome.next received, fun empty => ?_, ?_⟩
    · rw [linkDrain_empty]
      · unfold ejectBuf
        rw [eject]
        exact tabGet_set_same ..
      · exact empty
    · generalize hd : linkDrain _ a.val = r
      obtain ⟨fab', aul, drained⟩ := (hd ▸ Drained.linkDrain _ a.val : Drained _ r).touched
      rw [drained]
      rfl
  · obtain ⟨f, added, island, tag, line⟩ := remoteReceive_fansOut head snoop reached came link
    exact ⟨_, f, rfl, added, island, tag, line⟩
  · have replied : combinedReply s a.val = sendAt { s with prox := { s.prox with fans := s.prox.fans.erase f } } (bridgeStop a.val) 8
        (combinedUnit s a.val f) none none := by
      unfold combinedReply
      rw [found]
      rfl
    rw [sendAt_frame] at replied
    exact ⟨_, congrArg Host.Outcome.next replied, rfl, rfl⟩

end Sys2Proof.Proofs.ProxyAnswers

/-!
Intake of a home slice (R152, R153, R155, R169), the end of holds and senior entries, and the fills and insertions of the snoop filter
(R186, R190).
-/

namespace Sys2Proof.Proofs.HomeIntake

open Sys2Proof Sys2Proof.Machine Sys2Proof.Laws Sys2Proof.Proofs.Shared Sys2Proof.Proofs.Ingress

/-! ### Slices and trackers -/

@[simp] theorem slice_setSlice (s : State) (l : Nat) (x : HomeSlice) : slice (setSlice s l x) l = x := tabGet_set_same ..

theorem setSlice_od (s : State) (l : Nat) (x : HomeSlice) : (setSlice s l x).od = s.od := rfl

theorem perf_od (s : State) (x : PerfState) : { s with perf := x }.od = s.od := rfl

theorem slice_setSlice_other (s : State) {l j : Nat} (x : HomeSlice) (h : j ≠ l) : slice (setSlice s l x) j = slice s j :=
  tabGet_set_other h ..

theorem slice_congr {s t : State} (h : t.home = s.home) : slice t = slice s := by
  funext l; simp only [slice, h]

theorem tracker_congr {s t : State} (h : t.home = s.home) : tracker t = tracker s := by
  unfold tracker
  rw [slice_congr h]

theorem tracker_setTracker (s : State) (l n : Nat) (k : Tracker) : tracker (setTracker s l n k) l n = some k := by
  unfold tracker setTracker
  dsimp only
  rw [slice_setSlice]
  exact tabFind_put_same ..

/-! ### The units that a cycle takes (R152) -/

theorem takeUnits_none {s : State} {l : Nat} {v : Vn} (empty : ejectBuf s (homeStop s l) 1 v = []) (n : Nat) (ok : State → Bool)
    (f : State → Held → State) : takeUnits s l n v ok f = s := by
  refine List.foldlRecOn _ _ (motive := fun t : State => t = s) rfl fun t ht _ _ => ?_
  rw [ht, empty]

/-- R152: the one request has been taken, and the pointer stands behind its input. -/
def turned (s : State) (l : Nat) (h : Held) : State :=
  odSet (setEjectBuf s (homeStop s l) 1 .req []) 0x4003 (l + 1) ((h.inp + 1) % 4)

/-- The round-robin order finds one unit once, wherever the pointer stands. -/
theorem picks_one {p : Nat} {h : Held} (small : h.inp < 4) :
    ((((List.range 4).map fun i => (p + i) % 4).filterMap fun i => [h].find? fun g => decide (g.inp = i)).take 2) = [h] := by
  have order : ((List.range 4).map fun i => (p + i) % 4) = [p % 4, (p + 1) % 4, (p + 2) % 4, (p + 3) % 4] := rfl
  have finds : ∀ i, ([h].find? fun g => decide (g.inp = i)) = if h.inp = i then some h else none := fun i => by
    by_cases same : h.inp = i <;> simp [same]
  rw [order]
  simp only [List.filterMap_cons, List.filterMap_nil, finds]
  have cases4 : p % 4 = 0 ∨ p % 4 = 1 ∨ p % 4 = 2 ∨ p % 4 = 3 := by omega
  have next1 : (p + 1) % 4 = (p % 4 + 1) % 4 := by omega
  have next2 : (p + 2) % 4 = (p % 4 + 2) % 4 := by omega
  have next3 : (p + 3) % 4 = (p % 4 + 3) % 4 := by omega
  rw [next1, next2, next3]
  generalize h.inp = b at small
  rcases cases4 with c | c | c | c <;> rw [c] <;> interval_cases b <;> rfl

theorem takeRequests_one {s : State} {l : Nat} {h : Held} (small : h.inp < 4) (one : ejectBuf s (homeStop s l) 1 .req = [h]) :
    takeRequests s l = homeRequest (turned s l h) l h := by
  unfold takeRequests
  dsimp only
  rw [one, picks_one small]
  simp [turned]

theorem lostSweep_none {s : State} {l : Nat} (none' : (slice s l).lostLines = []) : lostSweep s l = s := by
  unfold lostSweep
  rw [none']
  rfl

theorem homeIntake_one {s : State} {l : Nat} {h : Held} (small : h.inp < 4) (one : ejectBuf s (homeStop s l) 1 .req = [h])
    (wb : ejectBuf s (homeStop s l) 1 .wb = []) (rsp : ejectBuf s (homeStop s l) 1 .rsp = []) (dat : ejectBuf s (homeStop s l) 1 .dat = []) :
    homeIntake s l = lostSweep (homeRequest (turned s l h) l h) l := by
  unfold homeIntake
  dsimp only
  rw [takeUnits_none wb, takeUnits_none rsp, takeUnits_none dat, takeRequests_one small one]

section Calm

variable {s : State} {l : Nat} {h : Held} (needs : h.u.type.toNat ≤ 5) (safe : s.flt.safe = false) (listed : s.dir.removals = [])
  (waits : s.dir.hostWait = []) (clear : s.dir.clearing = false) (calm : inRecovery s h.u.line = false)
include needs safe listed waits clear calm

/-- R155: with nothing listed, cleared or in RECOVERY, the trackers and the holds of the line decide. -/
theorem homeRequest_calm : homeRequest s l h =
    if (trackerFor s l h.u.line).isSome then nack s l (reqOf h.u) h.u.line 1
    else match heldFor (slice s l) h.u.line with
      | some q => if q = ((reqOf h.u).host, (reqOf h.u).tag) then acceptRequest s l h (reqOf h.u) h.u.line
        else nack s l (reqOf h.u) h.u.line 2
      | none => acceptRequest s l h (reqOf h.u) h.u.line := by
  have kind : (reqOf h.u).kind ≤ 5 := needs
  have hosts : hostListed s (reqOf h.u) = false := by simp [hostListed, listed, waits]
  unfold homeRequest
  dsimp only
  rw [if_neg (by omega), if_neg (by omega), if_neg (by simp [safe]), if_neg (by simp [listed]), if_neg (by simp [clear, hosts]),
    if_neg (by simp [calm])]
  cases trackerFor s l h.u.line <;> rfl

theorem homeRequest_tracked {k : Nat × Tracker} (found : trackerFor s l h.u.line = some k) :
    homeRequest s l h = nack s l (reqOf h.u) h.u.line 1 := by
  rw [homeRequest_calm needs safe listed waits clear calm, found]
  rfl

theorem homeRequest_stable (free : trackerFor s l h.u.line = none) (unheld : heldFor (slice s l) h.u.line = none) :
    homeRequest s l h = acceptRequest s l h (reqOf h.u) h.u.line := by
  rw [homeRequest_calm needs safe listed waits clear calm, free, unheld]
  rfl

end Calm

/-! ### The directory, with no removal listed -/

/-- A line's state and the entries that leave or enter the cache touch the directory and its counters. -/
structure Looked (s t : State) : Prop where
  touched : ∃ dir perf, t = { s with dir := dir, perf := perf }

namespace Looked

variable {s t u : State}

theorem refl (s : State) : Looked s s := ⟨_, _, rfl⟩

theorem trans (h : Looked s t) (g : Looked t u) : Looked s u := by
  obtain ⟨_, _, rfl⟩ := h
  obtain ⟨_, _, rfl⟩ := g
  exact ⟨_, _, rfl⟩

theorem home (h : Looked s t) : t.home = s.home := by obtain ⟨_, _, rfl⟩ := h; rfl
theorem fab (h : Looked s t) : t.fab = s.fab := by obtain ⟨_, _, rfl⟩ := h; rfl
theorem od (h : Looked s t) : t.od = s.od := by obtain ⟨_, _, rfl⟩ := h; rfl
theorem mgmt (h : Looked s t) : t.mgmt = s.mgmt := by obtain ⟨_, _, rfl⟩ := h; rfl

theorem cacheSet (s : State) (l : Nat) (line : BitVec 42) (w : Nat) (e : Option DirEntry) : Looked s (cacheSet s l line w e) := ⟨_, _, rfl⟩
theorem sfWrite (s : State) (l : Nat) (line : BitVec 42) (i : Nat) (st : LState) : Looked s (sfWrite s l line i st) := ⟨_, _, rfl⟩

theorem putState (s : State) (l : Nat) (line : BitVec 42) (st : LState) : Looked s (putState s l line st) := by
  unfold Machine.putState
  split
  · exact cacheSet ..
  · split
    · exact ⟨_, _, rfl⟩
    · split
      · exact sfWrite ..
      · split
        · split
          · exact cacheSet ..
          · exact refl s
        · exact refl s

/-- R195: with no removal listed no owner has gone. -/
theorem cleanState_none (listed : s.dir.removals = []) (st : LState) : (cleanState s st).2 = false := by
  unfold cleanState
  split
  · rw [if_neg (by simp [removed, listed])]
  · rfl
  · rfl

theorem lineState (listed : s.dir.removals = []) (l : Nat) (line : BitVec 42) : Looked s (lineState s l line).1 := by
  unfold Machine.lineState
  dsimp only
  rw [cleanState_none listed]
  split
  · exact refl s
  · exact trans (t := bumpC s 0xC024 6) ⟨_, _, rfl⟩ (putState ..)

theorem evictEntry (s : State) (l : Nat) (e : DirEntry) : Looked s (evictEntry s l e) := by
  unfold Machine.evictEntry
  split
  · exact refl s
  · split
    · split
      · exact sfWrite ..
      · exact refl s
    · split
      · exact sfWrite ..
      · exact ⟨_, _, rfl⟩

theorem evictAt (listed : s.dir.removals = []) (l k : Nat) : Looked s (evictAt s l k) := by
  unfold Machine.evictAt
  split
  · exact refl s
  · next e0 _ =>
    dsimp only
    have applied := lineState listed l e0.line
    generalize (Machine.lineState s l e0.line).1 = r at applied
    split
    · exact applied
    · exact applied.trans (trans (t := { r with dir := { r.dir with cache := tabDel k r.dir.cache } }) ⟨_, _, rfl⟩ (evictEntry ..))

theorem pinLine (listed : s.dir.removals = []) {l : Nat} {line : BitVec 42} (pinned : pinLine s l line = some t) : Looked s t := by
  unfold Machine.pinLine at pinned
  split at pinned
  · cases pinned
    exact ⟨_, _, rfl⟩
  · split at pinned
    · cases pinned
    · next w _ =>
      cases pinned
      exact (evictAt listed l (cacheKey s l line w)).trans ⟨_, _, rfl⟩

end Looked

/-! ### A request that gets a tracker (R153, R186) -/

/-- The tracker that starts for request `r` of `line`. -/
def startedTracker (s : State) (line : BitVec 42) (r : ReqInfo) : Tracker := { blankTracker s line .fill with req := some r }

/-- R153: the slice with the tracker at `n`; a senior entry or a hold of the request has ended. -/
def withTracker (x : HomeSlice) (n : Nat) (k : Tracker) (r : ReqInfo) (line : BitVec 42) : HomeSlice :=
  { x with
    trk := tabPut n k x.trk
    senior := x.senior.filter fun e => !(decide (e.host = r.host) && decide (e.tag = r.tag))
    holds := x.holds.filter fun q => decide (q.1 ≠ line) }

/-- A count changes the counters alone. -/
structure Counted (s t : State) : Prop where
  touched : ∃ perf, t = { s with perf := perf }

namespace Counted

variable {s t u : State}

theorem refl (s : State) : Counted s s := ⟨_, rfl⟩

theorem trans (h : Counted s t) (g : Counted t u) : Counted s u := by
  obtain ⟨_, rfl⟩ := h
  obtain ⟨_, rfl⟩ := g
  exact ⟨_, rfl⟩

theorem bump (s : State) (n k : Nat) : Counted s (bump s n k) := ⟨_, rfl⟩

/-- R472: the counts of a request whose entry is not in the cache. -/
theorem miss (s : State) (l : Nat) (reserve : Prop) [Decidable reserve] :
    Counted s (Machine.bump (bumpC (if reserve then bumpC (Machine.bump s (896 + 4 * l) 1) 0xC023 3 else Machine.bump s (896 + 4 * l) 1)
      0xC024 2) (898 + 4 * l) 1) := by
  refine trans (trans ?_ (bump _ _ _)) (bump _ _ _)
  split
  · exact (bump s _ _).trans (bump _ _ _)
  · exact bump s _ _

end Counted

theorem acceptRequest_misses {s s1 : State} {l n : Nat} {h : Held} {r : ReqInfo} {line : BitVec 42} (tracker : pickTracker s l r = some n)
    (uncached : cacheFind s l line = none) (settled : insertingFor s l line = none) (pinned : pinLine s l line = some s1) :
    ∃ perf, acceptRequest s l h r line =
      { traceUnit (setSlice s1 l (withTracker (slice s1 l) n (startedTracker s line r) r line)) 2 (0x80 + l) n h.u with perf := perf } := by
  unfold acceptRequest
  rw [tracker]
  dsimp only
  rw [pinned, uncached, settled]
  dsimp only
  rw [if_neg (by exact Bool.false_ne_true)]
  exact (Counted.miss ..).touched

/-! ### Nack (R152, R168) -/

/-- R168: a Nack to a request that is not senior is counted at the device and at the slice, and sent. -/
theorem nack_junior {s : State} {l : Nat} {r : ReqInfo} (junior : r.senior = false) (line : BitVec 42) (reason : Nat) :
    ∃ fab, nack s l r line reason = { bump (bumpC s 0xC023 1) (897 + 4 * l) 1 with fab := fab } := by
  unfold nack
  rw [junior, if_neg Bool.false_ne_true]
  dsimp only
  rw [send_frame]
  exact ⟨_, rfl⟩

section Counts

variable (s : State) {n : Nat} (apart : counterNo 0xC023 1 ≠ n)
include apart

theorem counter_nacks : counter (bump (bumpC s 0xC023 1) n 1) (counterNo 0xC023 1) = counter s (counterNo 0xC023 1) + 1 := by
  rw [counter_bump_other _ apart]
  exact counter_bump_same s _ 1

theorem counter_refusals : counter (bump (bumpC s 0xC023 1) n 1) n = counter s n + 1 := by
  rw [counter_bump_same]
  exact congrArg (· + 1) (counter_bump_other s apart.symm 1)

end Counts

/-! ### Insertion into the snoop filter (R190) -/

/-- The younger of the candidates so far and `q`, as `sfChoose` compares them. -/
def younger (b : Option (Nat × SfWay)) (q : Nat × SfWay) : Option (Nat × SfWay) :=
  match b with
  | none => some q
  | some c => if c.2.order < q.2.order then some q else b

theorem younger_mem {ws l : List (Nat × SfWay)} (sub : ∀ q ∈ l, q ∈ ws) {c : Nat × SfWay} (best : l.foldl younger none = some c) : c ∈ ws := by
  refine List.foldlRecOn l younger (motive := fun b => ∀ c, b = some c → c ∈ ws) (by rintro _ ⟨⟩) (fun b hb q hq c hc => ?_) c best
  unfold younger at hc
  split at hc
  · cases hc
    exact sub q hq
  · next d =>
    split at hc
    · cases hc
      exact sub q hq
    · exact hb c hc

/-- The chosen way is one of the set's. -/
theorem sfChoose_way {s : State} {k i : Nat} {w : SfWay} (chosen : sfChoose s k = some (i, w)) : (sfSet s k)[i]? = some w := by
  have picked : (i, w) ∈ (List.range 8).filterMap fun i => (sfSet s k)[i]?.map fun w => (i, w) := by
    unfold sfChoose at chosen
    extract_lets ws best at chosen
    have among : ∀ {p : Nat × SfWay → Bool} {c}, best (ws.filter p) = some c → c ∈ ws := fun h =>
      younger_mem (fun _ hq => (List.mem_filter.1 hq).1) h
    split at chosen
    · next found =>
      cases chosen
      exact among found
    · exact among chosen
  obtain ⟨j, -, found⟩ := List.mem_filterMap.1 picked
  obtain ⟨v, at', pair⟩ := Option.map_eq_some_iff.1 found
  cases pair
  exact at'

/-- R190: the set of the entry with its way at `i` taken, and the others that are younger one older. -/
theorem sfSet_sfPut (s : State) (k i tag : Nat) (st : LState) :
    sfSet (sfPut s k i tag st) k = (List.range 8).filterMap fun j => (sfSet s k)[j]?.map fun w =>
      if j = i then { tag := tag, st := st, order := 0 }
      else if w.order < ((sfSet s k)[i]?.map fun w => w.order).getD 0 then { w with order := w.order + 1 } else w :=
  tabGet_set_same ..

theorem sfPut_length (s : State) (k i tag : Nat) (st : LState) : (sfSet (sfPut s k i tag st) k).length ≤ 8 := by
  rw [sfSet_sfPut]
  exact (List.length_filterMap_le ..).trans (by rw [List.length_range])

theorem mem_sfPut {s : State} {k i : Nat} {x : SfWay} (small : i < 8) (held : (sfSet s k)[i]? = some x) (tag : Nat) (st : LState) :
    { tag := tag, st := st, order := 0 } ∈ sfSet (sfPut s k i tag st) k := by
  rw [sfSet_sfPut]
  exact List.mem_filterMap.2 ⟨i, List.mem_range.2 small, by rw [held]; simp⟩

theorem insertEntry_free {s : State} {l i : Nat} {e : DirEntry} {w : SfWay} (chosen : sfChoose s (sfKey s l e.line) = some (i, w))
    (free : w.st = .invalid) :
    insertEntry s l e = bumpC (sfPut (notInserting s l e.line) (sfKey s l e.line) i (tagOf s e.line) e.st) 0xC024 4 := by
  unfold insertEntry
  dsimp only
  rw [chosen]
  dsimp only
  rw [if_pos free, sfChoose_way chosen]
  simp only [Option.map_some, Option.getD_some, free, allTargets, Targets.none, List.isEmpty_nil, Bool.and_self, if_true]

theorem find?_of_imp {α : Type} {p q : α → Bool} {l : List α} {a : α} (found : l.find? p = some a) (imp : ∀ x, q x = true → p x = true)
    (holds : q a = true) : l.find? q = some a := by
  induction l with
  | nil => cases found
  | cons x l ih =>
    rw [List.find?_cons] at found ⊢
    cases hp : p x with
    | true =>
      rw [hp] at found
      cases found
      rw [holds]
    | false =>
      rw [hp] at found
      rw [show q x = false from Bool.eq_false_iff.2 fun h => by simp [imp x h] at hp]
      exact ih found

theorem sfInsert_free {s : State} {l i : Nat} {e : DirEntry} {w : SfWay}
    (waits : (s.dir.inserting.find? fun q => decide (q.1 = l)) = some (l, e)) (same : lineState s l e.line = (s, e.st))
    (chosen : sfChoose s (sfKey s l e.line) = some (i, w)) (free : w.st = .invalid) :
    sfInsert s l = bumpC (sfPut (notInserting s l e.line) (sfKey s l e.line) i (tagOf s e.line) e.st) 0xC024 4 := by
  have still : insertingFor s l e.line = some e := by
    unfold insertingFor
    rw [find?_of_imp waits (fun q h => (Bool.and_eq_true_iff.1 h).1) (by simp)]
    rfl
  unfold sfInsert
  rw [waits]
  dsimp only
  rw [same]
  dsimp only
  rw [still]
  exact insertEntry_free chosen free

theorem ejectBuf_setEjectBuf (s : State) (n a : Nat) (v : Vn) (q : List Held) : ejectBuf (setEjectBuf s n a v q) n a v = q :=
  tabGet_set_same ..

/-! ### What a cycle reads, after the taken unit has gone -/

section Turned

variable (s : State) (l : Nat) (h : Held)

theorem turned_slice (j : Nat) : slice (turned s l h) j = slice s j := rfl
theorem turned_trackerFor (line : BitVec 42) : trackerFor (turned s l h) l line = trackerFor s l line := by unfold trackerFor; rfl
theorem turned_insertingFor (line : BitVec 42) : insertingFor (turned s l h) l line = insertingFor s l line := by unfold insertingFor; rfl
theorem turned_inRecovery (line : BitVec 42) : inRecovery (turned s l h) line = inRecovery s line := by unfold inRecovery; rfl
theorem turned_cacheFind (line : BitVec 42) : cacheFind (turned s l h) l line = cacheFind s l line := by unfold cacheFind; rfl

theorem turned_freeGeneral : freeGeneral (turned s l h) l = freeGeneral s l := by unfold freeGeneral; rfl

theorem turned_pickTracker (r : ReqInfo) : pickTracker (turned s l h) l r = pickTracker s l r := by
  unfold pickTracker
  rw [turned_freeGeneral]
  rfl

theorem turned_taken : ejectBuf (turned s l h) (homeStop s l) 1 .req = [] := ejectBuf_setEjectBuf ..

theorem turned_pointer : odGet (turned s l h) 0x4003 (l + 1) = (h.inp + 1) % 4 := odGet_odSet_same ..

end Turned

/-! ### A fill of a request for an invalid line (R186) -/

theorem tracker_send (s : State) (u : FUnit) (l n : Nat) : tracker (send s u) l n = tracker s l n := by
  rw [send_frame]
  exact congrFun₂ (tracker_congr rfl) l n

/-- A request to write back, or to write and invalidate, of an invalid line waits for its data. -/
theorem proceed_write {s : State} {l n : Nat} {k : Tracker} {r : ReqInfo} (kind : r.kind = 4 ∨ r.kind = 5) :
    tracker (proceed s l n k r .invalid) l n = some { k with was := .invalid, phase := .wb, fin := .invalid } := by
  unfold proceed fromInvalid
  dsimp only
  rcases kind with kind | kind <;> rw [kind] <;> exact (tracker_send ..).trans (tracker_setTracker ..)

/-- Settles O25: the cycle of a home with one waiting request, the ends of holds and senior entries, and the fills and insertions of the
snoop filter. -/
theorem homeIntake : Obligations.HomeIntake := by
  unfold Obligations.HomeIntake
  refine ⟨?accept, ?nack, ?hold, ?senior, ?fill, ?insert⟩
  case accept =>
    intro l h n s1 s small one wb rsp dat needs safe listed waits clear lost calm free unheld uncached settled picked pinned
    have accepted := homeRequest_stable (s := turned s l.val h) (l := l.val) needs safe listed waits clear
      ((turned_inRecovery ..).trans calm) ((turned_trackerFor ..).trans free) unheld
    obtain ⟨perf, eq⟩ := acceptRequest_misses (h := h) ((turned_pickTracker ..).trans picked) ((turned_cacheFind ..).trans uncached)
      ((turned_insertingFor ..).trans settled) pinned
    have looked : Looked (turned s l.val h) s1 := Looked.pinLine listed pinned
    have traced := Traced.unit (setSlice s1 l (withTracker (slice s1 l) n (startedTracker (turned s l h) h.u.line (reqOf h.u)) (reqOf h.u) h.u.line))
      2 (0x80 + l) n h.u
    generalize traceUnit _ _ _ _ _ = traced' at traced eq
    have sliced : slice { traced' with perf := perf } l.val =
        withTracker (slice s l.val) n (startedTracker (turned s l h) h.u.line (reqOf h.u)) (reqOf h.u) h.u.line := by
      rw [slice_congr (t := { traced' with perf := perf }) traced.home, slice_setSlice, slice_congr looked.home, turned_slice]
    have swept : Machine.homeIntake s l.val = { traced' with perf := perf } := by
      rw [homeIntake_one small one wb rsp dat, accepted, eq]
      exact lostSweep_none (by rw [sliced]; exact lost)
    refine ⟨_, startedTracker (turned s l h) h.u.line (reqOf h.u), congrArg Host.Outcome.next swept, ?_, rfl, rfl, rfl, rfl, ?_, ?_, ?_⟩
    · unfold tracker
      rw [sliced]
      exact tabFind_put_same ..
    · exact (congrArg (tabGet [] _) (congrArg FabState.eject (traced.fab.trans looked.fab))).trans (turned_taken ..)
    · have pointer : odGet s1 0x4003 (l.val + 1) = (h.inp + 1) % 4 := (odGet_congr looked.od _ _).trans (turned_pointer ..)
      have kept : odGet traced' 0x4003 (l.val + 1) = odGet s1 0x4003 (l.val + 1) :=
        (traced.entries 0x4003 _ (by decide) (by omega)).trans (odGet_congr (setSlice_od ..) _ _)
      exact (odGet_congr (perf_od ..) _ _).trans (kept.trans pointer)
    · exact traced.mgmt.trans looked.mgmt
  case nack =>
    intro l h k s small one wb rsp dat needs junior safe listed waits clear lost calm found
    have nacked := homeRequest_tracked (s := turned s l.val h) (l := l.val) needs safe listed waits clear
      ((turned_inRecovery ..).trans calm) ((turned_trackerFor ..).trans found)
    obtain ⟨fab, eq⟩ := nack_junior (s := turned s l.val h) (l := l.val) junior h.u.line 1
    have apart : counterNo 0xC023 1 ≠ 897 + 4 * l.val := by
      rw [show counterNo 0xC023 1 = 1120 from rfl]
      omega
    refine ⟨_, congrArg Host.Outcome.next ((homeIntake_one small one wb rsp dat).trans
      ((congrArg (lostSweep · l.val) (nacked.trans eq)).trans (lostSweep_none lost))), rfl, rfl, ?_, ?_, rfl⟩
    · exact counter_nacks (turned s l.val h) apart
    · exact counter_refusals (turned s l.val h) apart
  case hold =>
    intro l x s
    exact ⟨_, rfl, congrArg HomeSlice.holds (slice_setSlice ..), fun j hj => slice_setSlice_other _ _ hj, rfl⟩
  case senior =>
    intro l i s
    exact ⟨_, rfl, congrArg HomeSlice.senior (slice_setSlice ..), fun j hj => slice_setSlice_other _ _ hj, rfl⟩
  case fill =>
    intro l n k r s1 s2 s found phase req kind filled state
    have run : execSnoopFilterFill l n s = .next (proceed s2 l.val n.val k r .invalid) := by
      unfold execSnoopFilterFill
      rw [found]
      dsimp only
      rw [phase, req]
      dsimp only
      rw [filled]
      dsimp only
      rw [if_neg Bool.false_ne_true, state]
    have kept := execSnoopFilterFill_keep l n s
    rw [run] at kept
    exact ⟨_, _, run, proceed_write kind, rfl, rfl, req, kept.1⟩
  case insert =>
    intro l e i w x s waits same chosen free small held
    refine ⟨_, congrArg Host.Outcome.next (sfInsert_free waits same chosen free), ?_, ?_, ?_, ?_, rfl⟩
    · intro still
      have kept := (List.mem_filter.1 still).2
      simp at kept
    · exact sfPut_length ..
    · exact mem_sfPut small held ..
    · exact (counter_bump_same _ _ 1).trans rfl

end Sys2Proof.Proofs.HomeIntake

/-!
The remap table: a software write and its end (R211, R220), a bulk load and the gate (R213, R217 to R219), and a fill of a slice's cache.
-/

namespace Sys2Proof.Proofs.RemapTable

open Sys2Proof Sys2Proof.Machine Sys2Proof.Laws Sys2Proof.Proofs.Shared

/-! ### The backing -/

@[simp] theorem backing_setBacking (s : State) (g : Nat) (e : BitVec 48) : backing (setBacking s g e) g = e := tabGet_set_same ..

theorem backing_setBacking_other (s : State) {g h : Nat} (e : BitVec 48) (apart : h ≠ g) : backing (setBacking s g e) h = backing s h :=
  tabGet_set_other apart ..

/-! ### Bulk load (R217) -/

/-- R217: entry `i` of a run that starts at `g`. -/
def runEntry (s : State) (g e i : Nat) : BitVec 48 :=
  mkEntry (bits e 47 45) (entGen (backing s (g + i))) (bits e 34 28) (bits e 27 24) (bits e 23 0 + i)

/-- R217: the first `n` entries of a run have been written. -/
def loaded (s : State) (g e n : Nat) : State := (List.range n).foldl (fun t i => setBacking t (g + i) (runEntry t g e i)) s

theorem loaded_succ (s : State) (g e n : Nat) :
    loaded s g e (n + 1) = setBacking (loaded s g e n) (g + n) (runEntry (loaded s g e n) g e n) := by
  unfold loaded
  rw [List.range_succ, List.foldl_append]
  rfl

theorem loaded_frame (s : State) (g e n : Nat) : ∃ map, loaded s g e n = { s with map := map } := by
  refine List.foldlRecOn _ _ (motive := fun t : State => ∃ map, t = { s with map := map }) ⟨_, rfl⟩ fun t ht i _ => ?_
  obtain ⟨_, rfl⟩ := ht
  exact ⟨_, rfl⟩

theorem backing_loaded_outside (s : State) {g e h : Nat} : ∀ {n}, (h < g ∨ g + n ≤ h) → backing (loaded s g e n) h = backing s h
  | 0, _ => rfl
  | n + 1, outside => by
    rw [loaded_succ, backing_setBacking_other _ _ (by omega)]
    exact backing_loaded_outside s (by omega)

theorem backing_loaded (s : State) {g e i : Nat} : ∀ {n}, i < n → backing (loaded s g e n) (g + i) = runEntry s g e i
  | n + 1, inside => by
    rw [loaded_succ]
    by_cases last : i = n
    · rw [last, backing_setBacking, runEntry, backing_loaded_outside s (.inr (le_refl _))]
      rfl
    · rw [backing_setBacking_other _ _ (by omega)]
      exact backing_loaded s (by omega)

theorem bulkLoad_one {s : State} {r : BitVec 128} {n g e : Nat} (shut : odGet s 0x5012 2 ≠ 1) (hn : n = (r.extractLsb' 96 32).toNat)
    (hg : g = (r.extractLsb' 64 23).toNat) (he : e = (r.extractLsb' 0 48).toNat) (some' : 0 < n) (fits : g + n ≤ 8388608)
    (granules : bits e 23 0 + n ≤ 2 ^ 24) (taken : entryRefused e = false) : bulkLoad s [r] = (loaded s g e n, .ok) := by
  have run : applyRun s r = some (loaded s g e n) := by
    unfold applyRun
    dsimp only
    rw [← hn, ← hg, ← he, taken, if_neg (by simp; omega)]
    rfl
  unfold bulkLoad
  rw [if_neg shut, applyRuns, run]
  rfl

/-! ### A software write (R211, R220) -/

theorem remapEntryWrite_ok {s : State} {g v : Nat} (taken : entryRefused v = false) (still : moveOf s g = none) (idle : s.map.write = none) :
    remapEntryWrite s g v =
      (odSet (startWrite s { gran := g, entry := writtenEntry s g v, writer := .software }) 0x5010 3 1, .ok) := by
  unfold remapEntryWrite
  rw [taken, still, idle]
  rfl

theorem remapEntryWrite_refused {s : State} {g v : Nat} (refused : entryRefused v = true) : remapEntryWrite s g v = (s, .outOfRange) :=
  if_pos refused

theorem remapEntryWrite_busy {s : State} {g v : Nat} (taken : entryRefused v = false) (busy : (moveOf s g).isSome ∨ s.map.write.isSome) :
    remapEntryWrite s g v = (s, .busy) := by
  unfold remapEntryWrite
  rw [taken, if_neg Bool.false_ne_true, if_pos (by simpa using busy)]

/-- R220: an entry is applied to the caches of the slices, and the granule is no longer one that has been reported. -/
theorem applyEntry_frame (s : State) (g : Nat) (e : BitVec 48) :
    ∃ home reported, applyEntry s g e = { s with home := home, map := { s.map with reported := reported } } := by
  unfold applyEntry
  extract_lets t
  have sliced : ∃ home, t = { s with home := home } := by
    unfold t
    refine List.foldlRecOn _ _ (motive := fun t : State => ∃ home, t = { s with home := home }) ⟨_, rfl⟩ fun t ht i _ => ?_
    obtain ⟨_, rfl⟩ := ht
    exact ⟨_, rfl⟩
  clear_value t
  obtain ⟨_, rfl⟩ := sliced
  exact ⟨_, _, rfl⟩

/-- R220: a software write has been applied to every slice, and nothing waits behind it. -/
theorem writeDone_software {s : State} {w : RemapWrite} (written : s.map.write = some w) (software : w.writer = .software)
    (last : s.map.waiting = []) :
    ∃ home reported, writeDone s =
      odSet (bumpC { s with home := home, map := { s.map with write := none, reported := reported } } 0xC025 3) 0x5010 3 2 := by
  obtain ⟨home, reported, frame⟩ := applyEntry_frame { s with map := { s.map with write := none } } w.gran w.entry
  refine ⟨home, reported, ?_⟩
  unfold writeDone
  rw [written]
  dsimp only
  rw [software, frame]
  dsimp only
  rw [show (odSet (bumpC { s with home := home, map := { s.map with write := none, reported := reported } } 0xC025 3) 0x5010 3 2).map.waiting =
    [] from last]

/-! ### The gate (R218) -/

namespace MemPath

variable {s t : State}

theorem remapLookup (s : State) (l : Nat) (op : RemapOp) : MemPath s (remapLookup s l op) := by
  unfold Machine.remapLookup
  split
  · exact .refl s
  · split
    · dsimp only
      split
      · exact ((MemPath.setSlice s _ _).trans (.bumpC ..)).trans (.remapWith ..)
      · exact (MemPath.setSlice s _ _).trans (.bumpC ..)
    · exact (MemPath.remapAnswer s _ _).trans (.unmappedReport ..)

end MemPath

/-- R218: the requests that waited for the gate go on, and the entry says that it is open. -/
theorem openGate_shut {s : State} (shut : odGet s 0x5012 2 ≠ 1) : MemPath (odSet s 0x5012 2 1) (openGate s) := by
  unfold openGate
  rw [if_neg shut]
  exact MemPath.foldl (fun t l => (MemPath.setSlice t l _).trans (MemPath.foldl (fun r op => MemPath.remapLookup r l op) _ _)) _ _

/-! ### The fills that wait at a slice -/

/-- The fills of every slice are the same. -/
def SameFills (s t : State) : Prop := ∀ l, (slice t l).fills = (slice s l).fills

namespace SameFills

variable {s t u : State}

theorem refl (s : State) : SameFills s s := fun _ => rfl
theorem trans (h : SameFills s t) (g : SameFills t u) : SameFills s u := fun l => (g l).trans (h l)

theorem of_home (h : t.home = s.home) : SameFills s t := fun l => by
  unfold slice
  rw [h]

theorem setSlice (s : State) {l : Nat} {x : HomeSlice} (h : x.fills = (slice s l).fills) : SameFills s (setSlice s l x) := fun j => by
  unfold slice Machine.setSlice
  dsimp only
  by_cases same : j = l
  · rw [same, tabGet_set_same]
    exact h
  · rw [tabGet_set_other same]

theorem bumpC (s : State) (i j : Nat) : SameFills s (bumpC s i j) := of_home rfl
theorem setTracker (s : State) (l t : Nat) (k : Tracker) : SameFills s (setTracker s l t k) := setSlice s rfl
theorem setBuf (s : State) (l b : Nat) (e : BufEntry) : SameFills s (setBuf s l b e) := setSlice s rfl
theorem send (s : State) (u : FUnit) : SameFills s (send s u) := of_home (by rw [send_frame])

theorem remapAnswer (s : State) (l : Nat) (op : RemapOp) : SameFills s (remapAnswer s l op) := by
  unfold Machine.remapAnswer
  dsimp only
  split
  · split
    · exact refl s
    · exact (bumpC s _ _).trans ((setTracker _ _ _ _).trans ((send _ _).trans (send _ _)))
  · split
    · exact refl s
    · exact (bumpC s _ _).trans ((setBuf _ _ _ _).trans (send _ _))

theorem unmappedReport (s : State) (l g : Nat) : SameFills s (unmappedReport s l g) := by
  unfold Machine.unmappedReport
  split
  · exact refl s
  · exact of_home (by rw [raiseFault_frame])

theorem sendMemWr (s : State) (l b : Nat) (e : BufEntry) (p : Loc) : SameFills s (sendMemWr s l b e p) := by
  unfold Machine.sendMemWr
  split
  · exact setBuf s _ _ _
  · exact (setBuf s _ _ _).trans (send _ _)

theorem remapSend (s : State) (l : Nat) (op : RemapOp) (p : Loc) : SameFills s (remapSend s l op p) := by
  unfold Machine.remapSend
  split
  · split
    · split
      · exact (setTracker s _ _ _).trans (send _ _)
      · exact refl s
    · split
      · exact sendMemWr s _ _ _ _
      · exact refl s
  · exact remapAnswer s l op

theorem remapHold (s : State) (l g page : Nat) (op : RemapOp) : SameFills s (remapHold s l g page op) := by
  unfold Machine.remapHold
  extract_lets x s1
  have held : SameFills s s1 :=
    (setSlice s (x := { x with paged := x.paged ++ [(g, page, op)] }) rfl).trans (bumpC _ _ _)
  clear_value s1
  split
  · split
    · exact held.trans ((setTracker _ _ _ _).trans (bumpC _ _ _))
    · exact held
  · split
    · exact held.trans (setBuf _ _ _ _)
    · exact held

theorem remapWith (s : State) (l g page : Nat) (op : RemapOp) (e : BitVec 48) : SameFills s (remapWith s l g page op e) := by
  unfold Machine.remapWith
  split
  · exact remapSend s _ _ _
  · exact remapSend s _ _ _
  · split
    · exact remapSend s _ _ _
    · split
      · exact remapSend s _ _ _
      · split
        · exact remapHold s _ _ _ _
        · exact remapSend s _ _ _
  · exact (remapAnswer s _ _).trans (unmappedReport _ _ _)

end SameFills

theorem lpddrChecked_home (s : State) (a : Nat) : (lpddrChecked s a).1.home = s.home := by
  unfold lpddrChecked
  split
  · rw [raiseReport_frame]
    rfl
  · rfl

/-- R214: a fill ends the wait of every request for its granule. -/
theorem remapFill_fills {s : State} {l g : Nat} {op : RemapOp} (waits : (g, op) ∈ (slice s l).fills) (bad : Bool) :
    (slice (remapFill s l g bad) l).fills = (slice s l).fills.filter fun q => decide (q.1 ≠ g) := by
  have mine : ((slice s l).fills.filter fun q => decide (q.1 = g)).isEmpty = false := by
    rw [List.isEmpty_eq_false_iff_exists_mem]
    exact ⟨(g, op), List.mem_filter.2 ⟨waits, decide_eq_true rfl⟩⟩
  unfold remapFill
  extract_lets x ops e q lost s1 s2 e1 s3
  rw [if_neg (by rw [mine]; exact Bool.false_ne_true)]
  have ended : (slice s3 l).fills = (slice s l).fills.filter fun q => decide (q.1 ≠ g) :=
    congrArg HomeSlice.fills (tabGet_set_same ..)
  clear_value s3 e1
  have same : SameFills s3 (ops.foldl (fun t q =>
      match opLine t l q.2 with
      | some line => remapWith t l g (pageOf line) q.2 e1
      | none => t) s3) := by
    refine List.foldlRecOn _ _ (motive := SameFills s3) (SameFills.refl s3) fun t h q _ => ?_
    split
    · exact h.trans (.remapWith _ _ _ _ _ _)
    · exact h
  exact (same l).trans ended

/-- Settles O26: writes of the remap table, their ends, the gate and the fills. -/
theorem remapTable : Obligations.RemapTable := by
  unfold Obligations.RemapTable
  refine ⟨?write, ?refused, ?busy, ?done, ?load, ?shut, ?gate, ?fill⟩
  case write =>
    intro g x s taken still idle
    refine ⟨_, answered_of (remapEntryWrite_ok taken still idle),
      backing_setBacking .., fun h apart => backing_setBacking_other _ _ apart, ⟨_, rfl, rfl, rfl⟩, ?_, rfl, rfl⟩
    rw [odGet_emit]
    exact odGet_odSet_same ..
  case refused =>
    intro g x s refused
    exact answered_of (remapEntryWrite_refused refused)
  case busy =>
    intro g x s taken busy
    exact answered_of (remapEntryWrite_busy taken busy)
  case done =>
    intro w s written software last
    obtain ⟨home, reported, eq⟩ := writeDone_software written software last
    refine ⟨_, congrArg Host.Outcome.next eq, rfl, odGet_odSet_same .., rfl, ?_, rfl⟩
    exact (counter_bump_same _ _ 1).trans rfl
  case load =>
    intro r n g e s shut hn hg he some' fits granules taken
    obtain ⟨map, frame⟩ := loaded_frame s g e n
    refine ⟨_, answered_of
      (bulkLoad_one shut hn hg he some' fits granules taken), fun i hi => backing_loaded s hi,
      fun h outside => backing_loaded_outside s outside, ?_, ?_⟩
    · rw [frame]
      rfl
    · rw [frame]
      rfl
  case shut =>
    intro rs s opened
    exact answered_of (if_pos opened)
  case gate =>
    intro s shut
    have path := openGate_shut shut
    refine ⟨_, rfl, ?_, ?_, (execOpenRemapGate_keep s).1⟩
    · rw [odGet_emit]
      exact (odGet_congr path.od _ _).trans (odGet_odSet_same ..)
    · exact congrArg (· ++ [Out.status .ok]) path.out
  case fill =>
    intro l g b op s waits
    exact ⟨_, rfl, remapFill_fills waits b, (execRemapCacheFill_keep l g b s).1⟩

end Sys2Proof.Proofs.RemapTable

/-!
Start and cancellation of a granule move (R221, R225), and the end of a record whose granule is clear.
-/

namespace Sys2Proof.Proofs.MoveCommands

open Sys2Proof Sys2Proof.Machine Sys2Proof.Laws Sys2Proof.Proofs.Shared

/-- A value that a session sets for itself touches the sessions alone. -/
theorem sessSet_frame (s : State) (id i j v : Nat) : ∃ spr, sessSet s id i j v = { s with spr := spr } := ⟨_, rfl⟩

/-! ### Start (R221) -/

/-- R221: the record of a move of granule `g` that starts, or of a restore of it. -/
def newMove (s : State) (g dest : Nat) (restore : Bool) : Move :=
  { state := if restore then .restoring else .starting, copying := false, restore := restore, front := 0, attempts := 0
    gran := g
    dest := { port := bits dest 34 28, ld := bits dest 27 24, gran := bits dest 23 0, gen := !entGen (backing s g) }
    abandons := 0, old := entLoc (backing s g), clear := false, lines := [], stale := none, started := 0, notBefore := 0
    stalled := false, lostSrc := false, lostDst := false, salvage := [], finalAsked := false, finalDone := false, outcome := 0
    owner := none }

/-- R221: the record has been taken, and OD 5020.04 counts it. -/
def recorded (s : State) (m : Nat) (x : Move) : State := odSet (setMove s m x) 0x5020 4 (setMove s m x).map.moves.length

section Start

variable {s : State} {g m : Nat} (still : moveOf s g = none) (unwritten : writingGran s g = false)
  (free : ((List.range 1024).find? fun i => (moveRec s i).isNone) = some m)
include still unwritten free

theorem startMove_free (dest : Nat) {restore : Bool} (held : entState (backing s g) = if restore then 4 else 1) :
    startMove s g dest restore none =
      (if restore then recorded s m (newMove s g dest restore)
        else askWrite (recorded s m (newMove s g dest restore)) { gran := g, entry := withEntState (backing s g) 2, writer := .mover m },
        .ok m) := by
  unfold startMove
  dsimp only
  rw [if_neg (by simp [still, unwritten]), free]
  dsimp only
  rw [if_neg (by simp [held])]
  rfl

end Start

theorem moveExecute_ok {s t : State} {g dest m : Nat} {restore : Bool} (started : startMove s g dest restore none = (t, .ok m)) (sess : Nat) :
    moveExecute s sess g dest restore = (sessSet (sessSet t sess 0x5021 5 1) sess 0x5021 6 m, .ok) := by
  unfold moveExecute
  rw [started]

theorem moveExecute_busy {s : State} {g : Nat} (moving : (moveOf s g).isSome) (sess dest : Nat) (restore : Bool) :
    moveExecute s sess g dest restore = (sessSet s sess 0x5021 5 2, .busy) := by
  unfold moveExecute startMove
  dsimp only
  rw [if_pos (by simp [moving])]

/-! ### Cancellation (R225) -/

theorem moveCancel_ok {s : State} {m : Nat} {x : Move} (found : moveRec s m = some x) (copying : x.state = .copying) (front : x.front = 0)
    (idle : x.copying = false) (unasked : x.finalAsked = false) :
    moveCancel s m = (askWrite (setMove s m { x with finalAsked := true, outcome := 6 })
      { gran := x.gran, entry := withEntState (backing s x.gran) 1, writer := .mover m }, .ok) := by
  unfold moveCancel
  rw [found]
  dsimp only
  rw [if_pos (by simp [copying, front, idle, unasked])]

theorem moveCancel_none {s : State} {m : Nat} (free : moveRec s m = none) : moveCancel s m = (s, .busy) := by
  unfold moveCancel
  rw [free]

/-! ### The end of a move (R226) -/

theorem moveClear_done {s : State} {m : Nat} {x : Move} (found : moveRec s m = some x) (final : x.finalDone = true)
    (settled : x.settled = true) (outcome : x.outcome ≠ 4) (clear : granuleClear s x.gran x.old.gen = true) :
    moveClear s m = moveFree s m := by
  unfold moveClear
  rw [found]
  dsimp only
  rw [if_neg outcome, clear, final, settled]
  simp

/-- R226: the record is free, and OD 5020.04 counts those that are left. -/
theorem moveFree_leaves {s : State} {m : Nat} {x : Move} (found : moveRec s m = some x) :
    (moveFree s m).map.moves = tabDel m s.map.moves ∧ odGet (moveFree s m) 0x5020 4 = (moveFree s m).map.moves.length ∧
      (moveFree s m).out = s.out := by
  unfold moveFree
  rw [found]
  dsimp -zeta only
  extract_lets left map s1 s2
  have gone : s2.map.moves = left := by
    unfold s2
    split <;> rfl
  have out : s2.out = s.out := by
    unfold s2
    split <;> rfl
  clear_value s2
  refine ⟨gone, ?_, out⟩
  rw [odGet_notify, odGet_odSet_same, notify_map, odSet_map, gone]

/-- Settles O27: a move is started, refused, cancelled and ended as its records say. -/
theorem moveCommands : Obligations.MoveCommands := by
  unfold Obligations.MoveCommands
  refine ⟨?start, ?restore, ?busy, ?cancel, ?none, ?clear⟩
  case start =>
    intro sess g d m s still unwritten idle free held
    have started := startMove_free still unwritten free d.toNat (restore := false) held
    obtain ⟨map, frame⟩ := askWrite_frame (recorded s m (newMove s g d.toNat false))
      { gran := g, entry := withEntState (backing s g) 2, writer := .mover m }
    refine ⟨_, newMove s g d.toNat false, answered_of (moveExecute_ok started sess.toNat), ?_, rfl, rfl, rfl, rfl, ?_, ?_, ?_⟩
    · rw [← moveRec_setMove s m (newMove s g d.toNat false)]
      exact congrFun (moveRec_congr (askWrite_moves ..)) m
    · exact askWrite_backing (s := recorded s m (newMove s g d.toNat false)) idle
        { gran := g, entry := withEntState (backing s g) 2, writer := .mover m }
    · rw [if_neg Bool.false_ne_true, frame]
      rfl
    · rw [if_neg Bool.false_ne_true, frame]
      rfl
  case restore =>
    intro sess g d m s still unwritten free held
    have started := startMove_free still unwritten free d.toNat (restore := true) held
    exact ⟨_, newMove s g d.toNat true, answered_of (moveExecute_ok started sess.toNat), moveRec_setMove .., rfl, rfl, rfl, rfl, rfl, rfl⟩
  case busy =>
    intro sess g d b s moving
    exact ⟨_, answered_of (moveExecute_busy moving sess.toNat d.toNat b), rfl, rfl, rfl⟩
  case cancel =>
    intro m x s found copying front idle unasked
    obtain ⟨map, frame⟩ := askWrite_frame (setMove s m { x with finalAsked := true, outcome := 6 })
      { gran := x.gran, entry := withEntState (backing s x.gran) 1, writer := .mover m }
    refine ⟨_, answered_of (moveCancel_ok found copying front idle unasked), ?_, ?_, ?_⟩
    · rw [← moveRec_setMove s m { x with finalAsked := true, outcome := 6 }]
      exact congrFun (moveRec_congr (askWrite_moves ..)) m.val
    · rw [frame]
      rfl
    · rw [frame]
      rfl
  case none =>
    intro m s free
    exact answered_of (moveCancel_none free)
  case clear =>
    intro m x s found final settled outcome clear
    obtain ⟨moves, counted, out⟩ := moveFree_leaves found
    refine ⟨_, congrArg Host.Outcome.next (moveClear_done found final settled outcome clear), ?_, fun n apart => ?_, counted, out, ?_⟩
    · unfold moveRec
      rw [moves, tabFind_del_same]
    · unfold moveRec
      rw [moves, tabFind_del_other apart]
    · exact (moveFree_keep s m).1

end Sys2Proof.Proofs.MoveCommands

/-!
What the trackers of a home and the traffic that they start leave alone when a peer is lost (R194): the clock and the removal list. One rule per
operation, in the order of the model.
-/

namespace Sys2Proof.Proofs.Calm

open Sys2Proof Sys2Proof.Machine Sys2Proof.Laws Sys2Proof.Proofs.Shared

@[simp] theorem ite_time (c : Prop) [Decidable c] (a b : State) : (if c then a else b).time = if c then a.time else b.time :=
  apply_ite State.time c a b

@[simp] theorem ite_removals (c : Prop) [Decidable c] (a b : State) :
    (if c then a else b).dir.removals = if c then a.dir.removals else b.dir.removals :=
  apply_ite (fun s : State => s.dir.removals) c a b

theorem foldl_calm {α : Type} (f : State → α → State) (l : List α) (s : State)
    (h : ∀ s a, (f s a).time = s.time ∧ (f s a).dir.removals = s.dir.removals) :
    (l.foldl f s).time = s.time ∧ (l.foldl f s).dir.removals = s.dir.removals :=
  List.foldlRecOn _ _ (motive := fun t : State => t.time = s.time ∧ t.dir.removals = s.dir.removals) ⟨rfl, rfl⟩
    fun t ht a _ => ⟨(h t a).1.trans ht.1, (h t a).2.trans ht.2⟩

@[simp] theorem foldl_time {α : Type} (f : State → α → State) (l : List α) (s : State) (h : ∀ s a, (f s a).time = s.time) :
    (l.foldl f s).time = s.time :=
  List.foldlRecOn _ _ (motive := fun t : State => t.time = s.time) rfl fun t ht a _ => (h t a).trans ht

@[simp] theorem foldl_removals {α : Type} (f : State → α → State) (l : List α) (s : State)
    (h : ∀ s a, (f s a).dir.removals = s.dir.removals) : (l.foldl f s).dir.removals = s.dir.removals :=
  List.foldlRecOn _ _ (motive := fun t : State => t.dir.removals = s.dir.removals) rfl fun t ht a _ => (h t a).trans ht

@[simp] theorem checkDone_calm (s : State) (f : Nat) :
    (checkDone s f).time = s.time ∧ (checkDone s f).dir.removals = s.dir.removals := ⟨rfl, rfl⟩

@[simp] theorem lpddrChecked_calm (s : State) (a : Nat) :
    (lpddrChecked s a).1.time = s.time ∧ (lpddrChecked s a).1.dir.removals = s.dir.removals := by simp [lpddrChecked]

theorem spend?_calm {s t : State} {k n : Nat} (h : spend? s k n = some t) : t.time = s.time ∧ t.dir.removals = s.dir.removals := by
  obtain ⟨g, -, rfl⟩ := Option.map_eq_some_iff.1 h
  exact ⟨rfl, rfl⟩

@[simp] theorem traceWrite_calm (s : State) (mk : Nat → TraceRec) :
    (traceWrite s mk).time = s.time ∧ (traceWrite s mk).dir.removals = s.dir.removals := by
  unfold traceWrite
  dsimp only
  split
  · exact ⟨rfl, rfl⟩
  · split
    · exact ⟨rfl, rfl⟩
    · next spent =>
      simpa using spend?_calm spent

@[simp] theorem filterCount_calm (s : State) (f : Nat) :
    (filterCount s f).1.time = s.time ∧ (filterCount s f).1.dir.removals = s.dir.removals := ⟨rfl, rfl⟩

@[simp] theorem traceUnit_calm (s : State) (tap port data : Nat) (u : FUnit) :
    (traceUnit s tap port data u).time = s.time ∧ (traceUnit s tap port data u).dir.removals = s.dir.removals := by
  unfold traceUnit
  split
  · extract_lets v r
    have counted : r.1.time = s.time ∧ r.1.dir.removals = s.dir.removals := by
      refine List.foldlRecOn _ _ (motive := fun q : State × Option Nat => q.1.time = s.time ∧ q.1.dir.removals = s.dir.removals) ⟨rfl, rfl⟩
        fun q hq f _ => ?_
      split
      · exact hq
      · exact hq
    clear_value r
    split
    · exact counted
    · exact ⟨(traceWrite_calm ..).1.trans counted.1, (traceWrite_calm ..).2.trans counted.2⟩
  · exact ⟨rfl, rfl⟩

@[simp] theorem setXing_calm (s : State) (c : Nat) (x : Crossing) :
    (setXing s c x).time = s.time ∧ (setXing s c x).dir.removals = s.dir.removals := ⟨rfl, rfl⟩

@[simp] theorem crossSend_calm (s : State) (c : Nat) (h : Held) :
    (crossSend s c h).time = s.time ∧ (crossSend s c h).dir.removals = s.dir.removals := ⟨rfl, rfl⟩

@[simp] theorem niPush_calm (s : State) (n : Nat) (a : Nat) (h : Held) :
    (niPush s n a h).time = s.time ∧ (niPush s n a h).dir.removals = s.dir.removals := ⟨rfl, rfl⟩

@[simp] theorem nextUnit_calm (s : State) : (nextUnit s).time = s.time ∧ (nextUnit s).dir.removals = s.dir.removals := ⟨rfl, rfl⟩

@[simp] theorem sendAt_calm (s : State) (n : Nat) (a : Nat) (u : FUnit) (t : Option Tlp) (hpa : Option (Nat × BitVec 46)) :
    (sendAt s n a u t hpa).time = s.time ∧ (sendAt s n a u t hpa).dir.removals = s.dir.removals := by
  unfold sendAt
  split <;> simp

@[simp] theorem send_calm (s : State) (u : FUnit) : (send s u).time = s.time ∧ (send s u).dir.removals = s.dir.removals := by
  simp [send]

@[simp] theorem sendTlpBy_calm (s : State) (n : Nat) (a : Nat) (t : Tlp) (src : BitVec 12) (dst : BitVec 12) (tag : BitVec 16) (f : FUnit → FUnit) :
    (sendTlpBy s n a t src dst tag f).time = s.time ∧ (sendTlpBy s n a t src dst tag f).dir.removals = s.dir.removals := by
  simp [sendTlpBy]

@[simp] theorem sendTlp_calm (s : State) (n : Nat) (a : Nat) (t : Tlp) (src : BitVec 12) (dst : BitVec 12) (tag : BitVec 16) :
    (sendTlp s n a t src dst tag).time = s.time ∧ (sendTlp s n a t src dst tag).dir.removals = s.dir.removals := by simp [sendTlp]

@[simp] theorem sendSynth_calm (s : State) (n : Nat) (a : Nat) (t : Tlp) (src : BitVec 12) (dst : BitVec 12) (tag : BitVec 16) :
    (sendSynth s n a t src dst tag).time = s.time ∧ (sendSynth s n a t src dst tag).dir.removals = s.dir.removals := by
  simp [sendSynth]

@[simp] theorem moverWriteGone_calm (s : State) (u : FUnit) :
    (moverWriteGone s u).time = s.time ∧ (moverWriteGone s u).dir.removals = s.dir.removals := by simp [moverWriteGone]

@[simp] theorem setEgress_calm (s : State) (port : Nat) (v : Vn) (l : List EgUnit) :
    (setEgress s port v l).time = s.time ∧ (setEgress s port v l).dir.removals = s.dir.removals := ⟨rfl, rfl⟩

@[simp] theorem egressPush_calm (s : State) (port : Nat) (h : Held) (m : Option LinkMsg) :
    (egressPush s port h m).time = s.time ∧ (egressPush s port h m).dir.removals = s.dir.removals := by simp [egressPush]

@[simp] theorem hostSend_calm (s : State) (port : Nat) (v : Vn) (m : LinkMsg) :
    (hostSend s port v m).time = s.time ∧ (hostSend s port v m).dir.removals = s.dir.removals := ⟨rfl, rfl⟩

@[simp] theorem egressTaken_calm (s : State) (port : Nat) (v : Vn) (id : Nat) (m : Option LinkMsg) :
    (egressTaken s port v id m).time = s.time ∧ (egressTaken s port v id m).dir.removals = s.dir.removals := by
  unfold egressTaken
  split <;> simp

@[simp] theorem setVppb_calm (s : State) (v : Nat) (d : Nat) (x : Vppb) :
    (setVppb s v d x).time = s.time ∧ (setVppb s v d x).dir.removals = s.dir.removals := ⟨rfl, rfl⟩

@[simp] theorem bumpFn_calm (s : State) (fn : Nat) (e : Nat) (k : Nat) :
    (bumpFn s fn e k).time = s.time ∧ (bumpFn s fn e k).dir.removals = s.dir.removals := by
  unfold bumpFn
  (repeat' split) <;> simp

@[simp] theorem hostWrite_calm (s : State) (v : Nat) (rid : BitVec 16) (addr : Nat) (data : List Byte) (poison : Bool) :
    (hostWrite s v rid addr data poison).time = s.time ∧ (hostWrite s v rid addr data poison).dir.removals = s.dir.removals := by
  unfold hostWrite
  split <;> simp

@[simp] theorem setLogCh_calm (s : State) (c : Nat) (x : LogCh) :
    (setLogCh s c x).time = s.time ∧ (setLogCh s c x).dir.removals = s.dir.removals := ⟨rfl, rfl⟩

@[simp] theorem lcbWrite_calm (s : State) (c : Nat) (off : Nat) (data : List Byte) :
    (lcbWrite s c off data).time = s.time ∧ (lcbWrite s c off data).dir.removals = s.dir.removals := by simp [lcbWrite]

@[simp] theorem lcbProducer_calm (s : State) (c : Nat) :
    (lcbProducer s c).time = s.time ∧ (lcbProducer s c).dir.removals = s.dir.removals := by simp [lcbProducer]

@[simp] theorem logState_calm (s : State) (c : Nat) (x : LogCh) :
    (logState s c x).time = s.time ∧ (logState s c x).dir.removals = s.dir.removals := by simp [logState]

@[simp] theorem logEntry_calm (s : State) (c : Nat) (page : Nat) (x : LogCh) :
    (logEntry s c page x).time = s.time ∧ (logEntry s c page x).dir.removals = s.dir.removals := by simp [logEntry]

@[simp] theorem logCount_calm (s : State) (c : Nat) (e : Nat) :
    (logCount s c e).time = s.time ∧ (logCount s c e).dir.removals = s.dir.removals := by simp [logCount]

@[simp] theorem logEvent_calm (s : State) (c : Nat) (a : Nat) :
    (logEvent s c a).time = s.time ∧ (logEvent s c a).dir.removals = s.dir.removals := by simp [logEvent]

@[simp] theorem logTrackers_calm (s : State) (v a : Nat) :
    (logTrackers s v a).time = s.time ∧ (logTrackers s v a).dir.removals = s.dir.removals := by simp [logTrackers]

@[simp] theorem setProxy_calm (s : State) (v : Nat) (x : Proxy) :
    (setProxy s v x).time = s.time ∧ (setProxy s v x).dir.removals = s.dir.removals := ⟨rfl, rfl⟩

@[simp] theorem flushed_calm (s : State) (p : Nat) (u : FUnit) :
    (flushed s p u).time = s.time ∧ (flushed s p u).dir.removals = s.dir.removals := by simp [flushed]

@[simp] theorem answerHost_calm (s : State) (p : Nat) (vn : Vn) (id : Nat) (m : LinkMsg) :
    (answerHost s p vn id m).time = s.time ∧ (answerHost s p vn id m).dir.removals = s.dir.removals := by simp [answerHost]

@[simp] theorem tellHost_calm (s : State) (p : Nat) (vn : Vn) (m : LinkMsg) :
    (tellHost s p vn m).time = s.time ∧ (tellHost s p vn m).dir.removals = s.dir.removals := by simp [tellHost]

@[simp] theorem issueUnit_calm (s : State) (v : Nat) (p : Nat) (ty : Nat) (vn : Vn) (tag : Nat) (hpa : BitVec 46) (payload : BitVec 512) (poison : Bool) (since : Nat) :
    (issueUnit s v p ty vn tag hpa payload poison since).time = s.time ∧ (issueUnit s v p ty vn tag hpa payload poison since).dir.removals = s.dir.removals := by
  simp [issueUnit]

@[simp] theorem issueReq_calm (s : State) (v : Nat) (p : Nat) (e : ProxyReq) (since : Nat) :
    (issueReq s v p e since).time = s.time ∧ (issueReq s v p e since).dir.removals = s.dir.removals := by simp [issueReq]

@[simp] theorem issueWrite_calm (s : State) (v : Nat) (p : Nat) (e : ProxyWrite) (since : Nat) :
    (issueWrite s v p e since).time = s.time ∧ (issueWrite s v p e since).dir.removals = s.dir.removals := by simp [issueWrite]

@[simp] theorem evictionFreed_calm (s : State) (v : Nat) (p : Nat) (hpa : BitVec 46) :
    (evictionFreed s v p hpa).time = s.time ∧ (evictionFreed s v p hpa).dir.removals = s.dir.removals := by simp [evictionFreed]

@[simp] theorem snoopReply_calm (s : State) (v : Nat) (p : Nat) (sn : ProxySnoop) (dirty : Option (LineData × Bool)) (keptS : Bool) :
    (snoopReply s v p sn dirty keptS).time = s.time ∧ (snoopReply s v p sn dirty keptS).dir.removals = s.dir.removals := by
  unfold snoopReply
  (repeat' split) <;> simp

@[simp] theorem snoopLost_calm (s : State) (v : Nat) (p : Nat) (src : BitVec 12) (tag : BitVec 16) (l : BitVec 42) :
    (snoopLost s v p src tag l).time = s.time ∧ (snoopLost s v p src tag l).dir.removals = s.dir.removals := by simp [snoopLost]

@[simp] theorem dropSnoop_calm (s : State) (v : Nat) (bt : Nat) :
    (dropSnoop s v bt).time = s.time ∧ (dropSnoop s v bt).dir.removals = s.dir.removals := ⟨rfl, rfl⟩

@[simp] theorem sendBiSnp_calm (s : State) (v : Nat) (p : Nat) (sn : ProxySnoop) (d : Option (LineData × Bool)) :
    (sendBiSnp s v p sn d).time = s.time ∧ (sendBiSnp s v p sn d).dir.removals = s.dir.removals := by
  unfold sendBiSnp
  split <;> simp

@[simp] theorem snoopAct_calm (s : State) (v : Nat) (p : Nat) (sn : ProxySnoop) :
    (snoopAct s v p sn).time = s.time ∧ (snoopAct s v p sn).dir.removals = s.dir.removals := by
  unfold snoopAct
  split <;> simp

@[simp] theorem releaseSnoops_calm (s : State) (v : Nat) (p : Nat) :
    (releaseSnoops s v p).time = s.time ∧ (releaseSnoops s v p).dir.removals = s.dir.removals := by simp [releaseSnoops]

@[simp] theorem dropEntry_calm (s : State) (v : Nat) (t : Nat) :
    (dropEntry s v t).time = s.time ∧ (dropEntry s v t).dir.removals = s.dir.removals := ⟨rfl, rfl⟩

@[simp] theorem give_calm (s : State) (p : Nat) (vn : Vn) (unit : Option Nat) (m : LinkMsg) :
    (give s p vn unit m).time = s.time ∧ (give s p vn unit m).dir.removals = s.dir.removals := by
  unfold give
  split <;> simp

@[simp] theorem giveNothing_calm (s : State) (p : Nat) (vn : Vn) (unit : Option Nat) :
    (giveNothing s p vn unit).time = s.time ∧ (giveNothing s p vn unit).dir.removals = s.dir.removals := by
  unfold giveNothing
  (repeat' split) <;> simp

@[simp] theorem finishEntry_calm (s : State) (v : Nat) (p : Nat) (t : Nat) (vn : Vn) (unit : Option Nat) (m : LinkMsg) :
    (finishEntry s v p t vn unit m).time = s.time ∧ (finishEntry s v p t vn unit m).dir.removals = s.dir.removals := by
  simp [finishEntry]

@[simp] theorem reqData_calm (s : State) (v : Nat) (p : Nat) (unit : Option Nat) (e : ProxyReq) (g : Nat) (poison : Bool) (d : LineData) :
    (reqData s v p unit e g poison d).time = s.time ∧ (reqData s v p unit e g poison d).dir.removals = s.dir.removals := by
  simp [reqData]

@[simp] theorem nackWb_calm (s : State) (v : Nat) (p : Nat) (e : ProxyEvict) :
    (nackWb s v p e).time = s.time ∧ (nackWb s v p e).dir.removals = s.dir.removals := by simp [nackWb]

@[simp] theorem evictRefused_calm (s : State) (v : Nat) (p : Nat) (e : ProxyEvict) :
    (evictRefused s v p e).time = s.time ∧ (evictRefused s v p e).dir.removals = s.dir.removals := by simp [evictRefused]

@[simp] theorem writeFreed_calm (s : State) (v : Nat) (p : Nat) :
    (writeFreed s v p).time = s.time ∧ (writeFreed s v p).dir.removals = s.dir.removals := by
  unfold writeFreed
  dsimp only
  split <;> simp

@[simp] theorem failEntry_calm (s : State) (v : Nat) (p : Nat) (t : Nat) (unit : Option Nat) (poison : Bool) :
    (failEntry s v p t unit poison).time = s.time ∧ (failEntry s v p t unit poison).dir.removals = s.dir.removals := by
  unfold failEntry
  dsimp only
  (repeat' split) <;> simp

@[simp] theorem nackEntry_calm (s : State) (v : Nat) (p : Nat) (t : Nat) :
    (nackEntry s v p t).time = s.time ∧ (nackEntry s v p t).dir.removals = s.dir.removals := by
  unfold nackEntry
  dsimp only
  (repeat' split) <;> simp

@[simp] theorem goWrite_calm (s : State) (v : Nat) (p : Nat) (e : ProxyWrite) (h : Nat) (l : BitVec 42) :
    (goWrite s v p e h l).time = s.time ∧ (goWrite s v p e h l).dir.removals = s.dir.removals := by simp [goWrite]

@[simp] theorem rspReq_calm (s : State) (v : Nat) (p : Nat) (h : Held) (e : ProxyReq) :
    (rspReq s v p h e).time = s.time ∧ (rspReq s v p h e).dir.removals = s.dir.removals := by
  unfold rspReq
  split <;> simp

@[simp] theorem rspWrite_calm (s : State) (v : Nat) (p : Nat) (h : Held) (e : ProxyWrite) :
    (rspWrite s v p h e).time = s.time ∧ (rspWrite s v p h e).dir.removals = s.dir.removals := by
  unfold rspWrite
  split <;> simp

@[simp] theorem rspEvict_calm (s : State) (v : Nat) (p : Nat) (h : Held) (e : ProxyEvict) :
    (rspEvict s v p h e).time = s.time ∧ (rspEvict s v p h e).dir.removals = s.dir.removals := by
  unfold rspEvict
  split <;> simp

@[simp] theorem discardQuarantined_calm (s : State) (p : Nat) (vn : Vn) (id : Nat) :
    (discardQuarantined s p vn id).time = s.time ∧ (discardQuarantined s p vn id).dir.removals = s.dir.removals := ⟨rfl, rfl⟩

@[simp] theorem proxyResponse_calm (s : State) (v : Nat) (p : Nat) (vn : Vn) :
    (proxyResponse s v p vn).time = s.time ∧ (proxyResponse s v p vn).dir.removals = s.dir.removals := by
  unfold proxyResponse
  dsimp only
  (repeat' split) <;> simp

@[simp] theorem downResponse_calm (s : State) (v : Nat) (p : Nat) (h : Held) :
    (downResponse s v p h).time = s.time ∧ (downResponse s v p h).dir.removals = s.dir.removals := by simp [downResponse]

@[simp] theorem setEjectBuf_calm (s : State) (n : Nat) (a : Nat) (v : Vn) (l : List Held) :
    (setEjectBuf s n a v l).time = s.time ∧ (setEjectBuf s n a v l).dir.removals = s.dir.removals := ⟨rfl, rfl⟩

@[simp] theorem setPool_calm (s : State) (p : Nat) (x : PoolAgent) :
    (setPool s p x).time = s.time ∧ (setPool s p x).dir.removals = s.dir.removals := ⟨rfl, rfl⟩

@[simp] theorem aerAt_calm (s : State) (p : Nat) (ld : Nat) (f : AerState → AerState) :
    (aerAt s p ld f).time = s.time ∧ (aerAt s p ld f).dir.removals = s.dir.removals := by
  unfold aerAt
  (repeat' split) <;> simp

@[simp] theorem bumpPort_calm (s : State) (p : Nat) (ld : Nat) (e : Nat) (k : Nat) :
    (bumpPort s p ld e k).time = s.time ∧ (bumpPort s p ld e k).dir.removals = s.dir.removals := by
  unfold bumpPort
  split <;> simp

@[simp] theorem aerUnsupported_calm (s : State) (p : Nat) (t : Tlp) :
    (aerUnsupported s p t).time = s.time ∧ (aerUnsupported s p t).dir.removals = s.dir.removals := by simp [aerUnsupported]

@[simp] theorem npDrop_calm (s : State) (p : Nat) (rid : BitVec 16) (tag : BitVec 16) :
    (npDrop s p rid tag).time = s.time ∧ (npDrop s p rid tag).dir.removals = s.dir.removals := ⟨rfl, rfl⟩

@[simp] theorem npAnswer_calm (s : State) (p : Nat) (rid : BitVec 16) (tag : BitVec 16) (st : Nat) :
    (npAnswer s p rid tag st).time = s.time ∧ (npAnswer s p rid tag st).dir.removals = s.dir.removals := by
  unfold npAnswer
  split <;> simp

@[simp] theorem ioUnreachable_calm (s : State) (p : Nat) (h : Held) :
    (ioUnreachable s p h).time = s.time ∧ (ioUnreachable s p h).dir.removals = s.dir.removals := by
  unfold ioUnreachable
  split <;> simp

@[simp] theorem answerMemRd_calm (s : State) (p : Nat) (u : FUnit) :
    (answerMemRd s p u).time = s.time ∧ (answerMemRd s p u).dir.removals = s.dir.removals := by simp [answerMemRd]

@[simp] theorem answerMemWr_calm (s : State) (p : Nat) (u : FUnit) :
    (answerMemWr s p u).time = s.time ∧ (answerMemWr s p u).dir.removals = s.dir.removals := by simp [answerMemWr]

@[simp] theorem dropPoolWrite_calm (s : State) (p : Nat) (u : FUnit) :
    (dropPoolWrite s p u).time = s.time ∧ (dropPoolWrite s p u).dir.removals = s.dir.removals := ⟨rfl, rfl⟩

@[simp] theorem ioAnswer_calm (s : State) (p : Nat) (u : FUnit) (t : Tlp) (st : Nat) :
    (ioAnswer s p u t st).time = s.time ∧ (ioAnswer s p u t st).dir.removals = s.dir.removals := by simp [ioAnswer]

@[simp] theorem downSnoop_calm (s : State) (p : Nat) (u : FUnit) :
    (downSnoop s p u).time = s.time ∧ (downSnoop s p u).dir.removals = s.dir.removals := by
  unfold downSnoop
  split <;> simp

@[simp] theorem downArrival_calm (s : State) (p : Nat) (h : Held) :
    (downArrival s p h).time = s.time ∧ (downArrival s p h).dir.removals = s.dir.removals := by
  unfold downArrival
  dsimp only
  (repeat' split) <;> simp

theorem npArrived_calm {s t : State} {p : Nat} {h : Held} (arrived : npArrived s p h = some t) :
    t.time = s.time ∧ t.dir.removals = s.dir.removals := by
  unfold npArrived at arrived
  repeat' split at arrived
  all_goals
    cases arrived
  all_goals simp

@[simp] theorem portArrive_calm (s : State) (p : Nat) (h : Held) :
    (portArrive s p h).time = s.time ∧ (portArrive s p h).dir.removals = s.dir.removals := by
  unfold portArrive
  dsimp only
  split
  · split
    · simp
    · split
      · simp
      · split
        · next arrived => simpa using npArrived_calm arrived
        · simp
  · split
    · split <;> simp
    · split <;> simp

@[simp] theorem snoopDeliver_calm (s : State) (k : Nat) (h : Held) :
    (snoopDeliver s k h).time = s.time ∧ (snoopDeliver s k h).dir.removals = s.dir.removals :=
  foldl_calm _ _ _ fun t v => by
    dsimp only
    split <;> simp

@[simp] theorem deliver_calm (s : State) (n : Nat) (a : Nat) (h : Held) :
    (deliver s n a h).time = s.time ∧ (deliver s n a h).dir.removals = s.dir.removals := by
  unfold deliver
  (repeat' split) <;> simp

@[simp] theorem setSlice_calm (s : State) (l : Nat) (x : HomeSlice) :
    (setSlice s l x).time = s.time ∧ (setSlice s l x).dir.removals = s.dir.removals := ⟨rfl, rfl⟩

@[simp] theorem setTracker_calm (s : State) (l : Nat) (t : Nat) (k : Tracker) :
    (setTracker s l t k).time = s.time ∧ (setTracker s l t k).dir.removals = s.dir.removals := ⟨rfl, rfl⟩

@[simp] theorem setBuf_calm (s : State) (l : Nat) (b : Nat) (e : BufEntry) :
    (setBuf s l b e).time = s.time ∧ (setBuf s l b e).dir.removals = s.dir.removals := ⟨rfl, rfl⟩

@[simp] theorem recordSwitch_calm (s : State) (w : Nat) :
    (recordSwitch s w).time = s.time ∧ (recordSwitch s w).dir.removals = s.dir.removals := by simp [recordSwitch]

@[simp] theorem sendMemRd_calm (s : State) (l : Nat) (t : Nat) (k : Tracker) (p : Loc) :
    (sendMemRd s l t k p).time = s.time ∧ (sendMemRd s l t k p).dir.removals = s.dir.removals := by simp [sendMemRd]

@[simp] theorem sendMemWr_calm (s : State) (l : Nat) (b : Nat) (e : BufEntry) (p : Loc) :
    (sendMemWr s l b e p).time = s.time ∧ (sendMemWr s l b e p).dir.removals = s.dir.removals := by simp [sendMemWr]

@[simp] theorem remapAnswer_calm (s : State) (l : Nat) (op : RemapOp) :
    (remapAnswer s l op).time = s.time ∧ (remapAnswer s l op).dir.removals = s.dir.removals := by
  unfold remapAnswer
  (repeat' split) <;> simp

@[simp] theorem unmappedReport_calm (s : State) (l : Nat) (g : Nat) :
    (unmappedReport s l g).time = s.time ∧ (unmappedReport s l g).dir.removals = s.dir.removals := by simp [unmappedReport]

@[simp] theorem remapSend_calm (s : State) (l : Nat) (op : RemapOp) (p : Loc) :
    (remapSend s l op p).time = s.time ∧ (remapSend s l op p).dir.removals = s.dir.removals := by
  unfold remapSend
  (repeat' split) <;> simp

@[simp] theorem remapHold_calm (s : State) (l : Nat) (g : Nat) (page : Nat) (op : RemapOp) :
    (remapHold s l g page op).time = s.time ∧ (remapHold s l g page op).dir.removals = s.dir.removals := by
  unfold remapHold
  dsimp only
  (repeat' split) <;> simp

@[simp] theorem remapWith_calm (s : State) (l : Nat) (g : Nat) (page : Nat) (op : RemapOp) (e : BitVec 48) :
    (remapWith s l g page op e).time = s.time ∧ (remapWith s l g page op e).dir.removals = s.dir.removals := by
  unfold remapWith
  (repeat' split) <;> simp

@[simp] theorem remapLookup_calm (s : State) (l : Nat) (op : RemapOp) :
    (remapLookup s l op).time = s.time ∧ (remapLookup s l op).dir.removals = s.dir.removals := by
  unfold remapLookup
  dsimp only
  (repeat' split) <;> simp

@[simp] theorem remapOp_calm (s : State) (l : Nat) (op : RemapOp) :
    (remapOp s l op).time = s.time ∧ (remapOp s l op).dir.removals = s.dir.removals := by simp [remapOp]

@[simp] theorem bufAdd_calm (s : State) (l : Nat) (line : BitVec 42) (data : LineData) (poison wrPoison : Bool) :
    (bufAdd s l line data poison wrPoison).time = s.time ∧ (bufAdd s l line data poison wrPoison).dir.removals = s.dir.removals := by
  unfold bufAdd
  dsimp only
  split <;> simp

@[simp] theorem cacheSet_calm (s : State) (l : Nat) (line : BitVec 42) (w : Nat) (e : Option DirEntry) :
    (cacheSet s l line w e).time = s.time ∧ (cacheSet s l line w e).dir.removals = s.dir.removals := ⟨rfl, rfl⟩

@[simp] theorem setSf_calm (s : State) (k : Nat) (ws : List SfWay) :
    (setSf s k ws).time = s.time ∧ (setSf s k ws).dir.removals = s.dir.removals := ⟨rfl, rfl⟩

@[simp] theorem sfWrite_calm (s : State) (l : Nat) (line : BitVec 42) (i : Nat) (st : LState) :
    (sfWrite s l line i st).time = s.time ∧ (sfWrite s l line i st).dir.removals = s.dir.removals := ⟨rfl, rfl⟩

@[simp] theorem putState_calm (s : State) (l : Nat) (line : BitVec 42) (st : LState) :
    (putState s l line st).time = s.time ∧ (putState s l line st).dir.removals = s.dir.removals := by
  unfold putState
  (repeat' split) <;> simp

@[simp] theorem poisonWrite_calm (s : State) (l : Nat) (line : BitVec 42) :
    (poisonWrite s l line).time = s.time ∧ (poisonWrite s l line).dir.removals = s.dir.removals := by simp [poisonWrite]

@[simp] theorem poisonLine_calm (s : State) (l : Nat) (line : BitVec 42) :
    (poisonLine s l line).time = s.time ∧ (poisonLine s l line).dir.removals = s.dir.removals := by simp [poisonLine]

@[simp] theorem lineState_calm (s : State) (l : Nat) (line : BitVec 42) :
    (lineState s l line).1.time = s.time ∧ (lineState s l line).1.dir.removals = s.dir.removals := by simp [lineState]

@[simp] theorem evictEntry_calm (s : State) (l : Nat) (e : DirEntry) :
    (evictEntry s l e).time = s.time ∧ (evictEntry s l e).dir.removals = s.dir.removals := by
  unfold evictEntry
  (repeat' split) <;> simp

@[simp] theorem evictAt_calm (s : State) (l : Nat) (k : Nat) :
    (evictAt s l k).time = s.time ∧ (evictAt s l k).dir.removals = s.dir.removals := by
  unfold evictAt
  dsimp only
  (repeat' split) <;> simp

@[simp] theorem unpinLine_calm (s : State) (l : Nat) (line : BitVec 42) :
    (unpinLine s l line).time = s.time ∧ (unpinLine s l line).dir.removals = s.dir.removals := by
  unfold unpinLine
  split <;> simp

@[simp] theorem answerRsp_calm (s : State) (l : Nat) (ty : Nat) (r : ReqInfo) (line : BitVec 42) (poison : Bool) (synth : Bool) :
    (answerRsp s l ty r line poison synth).time = s.time ∧ (answerRsp s l ty r line poison synth).dir.removals = s.dir.removals := by
  simp [answerRsp]

@[simp] theorem answerDat_calm (s : State) (l : Nat) (g : Nat) (r : ReqInfo) (line : BitVec 42) (data : LineData) (poison : Bool) (synth : Bool) :
    (answerDat s l g r line data poison synth).time = s.time ∧ (answerDat s l g r line data poison synth).dir.removals = s.dir.removals := by
  simp [answerDat]

@[simp] theorem seniorHold_calm (s : State) (l : Nat) (line : BitVec 42) :
    (seniorHold s l line).time = s.time ∧ (seniorHold s l line).dir.removals = s.dir.removals := by
  unfold seniorHold
  dsimp only
  split <;> simp

@[simp] theorem recordFinal_calm (s : State) (k : Tracker) (st : LState) :
    (recordFinal s k st).time = s.time ∧ (recordFinal s k st).dir.removals = s.dir.removals := by
  unfold recordFinal
  split <;> simp

@[simp] theorem complete_calm (s : State) (l : Nat) (t : Nat) (st : LState) :
    (complete s l t st).time = s.time ∧ (complete s l t st).dir.removals = s.dir.removals := by
  unfold complete
  split <;> simp

@[simp] theorem completePoisoned_calm (s : State) (l : Nat) (t : Nat) :
    (completePoisoned s l t).time = s.time ∧ (completePoisoned s l t).dir.removals = s.dir.removals := by
  unfold completePoisoned
  split <;> simp

@[simp] theorem memRead_calm (s : State) (l : Nat) (t : Nat) (k : Tracker) :
    (memRead s l t k).time = s.time ∧ (memRead s l t k).dir.removals = s.dir.removals := by
  unfold memRead
  split <;> simp

@[simp] theorem fromInvalid_calm (s : State) (l : Nat) (t : Nat) (k : Tracker) (r : ReqInfo) (base : HolderSet) :
    (fromInvalid s l t k r base).time = s.time ∧ (fromInvalid s l t k r base).dir.removals = s.dir.removals := by
  unfold fromInvalid
  split <;> simp

@[simp] theorem fromPoisoned_calm (s : State) (l : Nat) (t : Nat) (k : Tracker) (r : ReqInfo) :
    (fromPoisoned s l t k r).time = s.time ∧ (fromPoisoned s l t k r).dir.removals = s.dir.removals := by simp [fromPoisoned]

@[simp] theorem lastReply_calm (s : State) (l : Nat) (t : Nat) :
    (lastReply s l t).time = s.time ∧ (lastReply s l t).dir.removals = s.dir.removals := by
  unfold lastReply
  (repeat' split) <;> simp

@[simp] theorem switchLost_calm (s : State) (l : Nat) (t : Nat) (w : Nat) :
    (switchLost s l t w).time = s.time ∧ (switchLost s l t w).dir.removals = s.dir.removals := by
  unfold switchLost
  (repeat' split) <;> simp

end Sys2Proof.Proofs.Calm

/-!
Pages of a granule move: their start, reading, end and abandonment (R223, R224), salvage and restore (R226, R227), the answers to the
tier mover, and the poison sweep (R103).
-/

namespace Sys2Proof.Proofs.MovePages

open Sys2Proof Sys2Proof.Machine Sys2Proof.Laws Sys2Proof.Proofs.Shared

/-! ### The governor's tokens (R361) -/

theorem pageToken_frame {s t : State} {cost : Nat} (drawn : pageToken? s cost = some t) : ∃ pow, t = { s with pow := pow } := by
  unfold pageToken? at drawn
  split at drawn
  · cases drawn
  · exact spend_frame drawn

/-! ### Pages -/

theorem pageStart_copying {s s1 : State} {m : Nat} {x : Move} (found : moveRec s m = some x) (copying : x.state = .copying)
    (idle : x.inCopy = false) (left : x.front < 512) (due : x.notBefore ≤ s.time.clock) (pace : s.map.paceNext ≤ s.time.clock)
    (unasked : x.finalAsked = false) (token : pageToken? s 30 = some s1) :
    pageStart s m =
      setMove (paced s1) m { x with copying := true, clear := false, started := s.time.clock, lines := [], stale := none } := by
  have open' : (x.inCopy || decide (512 ≤ x.front) || decide (s.time.clock < x.notBefore) || decide (s.time.clock < s.map.paceNext)) =
      false := by simp [idle, left, due, pace]
  unfold pageStart
  rw [found]
  dsimp only
  rw [open', if_neg Bool.false_ne_true, copying]
  dsimp only
  rw [unasked, if_neg Bool.false_ne_true, token]

/-- R223: the next page starts no earlier than the pace allows after this one. -/
theorem paced_next {s : State} (pace : s.map.paceNext ≤ s.time.clock) :
    (paced s).map.paceNext = s.time.clock + (4096 + odGet s 0x5020 1 - 1) / odGet s 0x5020 1 :=
  congrArg (· + (4096 + odGet s 0x5020 1 - 1) / odGet s 0x5020 1) (max_eq_left pace)

theorem paced_frame (s : State) : ∃ map, paced s = { s with map := map } := ⟨_, rfl⟩

theorem pageClear_asks {s : State} {m : Nat} {x : Move} (found : moveRec s m = some x) (copying : x.copying = true) (clear : x.clear = false)
    (unused : (s.home.slices.any fun p => usesPage p.2 x.gran x.front x.old) = false) :
    ∃ l, pageClear s m = sendAll (setMove s m { x with clear := true, lines := List.replicate 64 .reading }) l := by
  unfold pageClear
  rw [found]
  dsimp only
  rw [copying, clear, unused]
  exact ⟨_, if_pos rfl⟩

theorem pageComplete_next {s : State} {m : Nat} {x : Move} (found : moveRec s m = some x) (copying : x.copying = true)
    (lines : x.lines ≠ []) (settled : x.settled = true) (fresh : x.stale = none) (more : x.front + 1 ≠ 512) :
    pageComplete s m = releasePage (bumpC (setMove s m
      { x with front := x.front + 1, copying := false, clear := false, lines := [], attempts := 0, notBefore := 0 }) 0xC025 5)
        x.gran x.front := by
  unfold pageComplete
  rw [found]
  dsimp only
  rw [if_neg (by simp [lines, settled]), fresh, if_neg (by simp), copying, if_pos rfl, if_neg (by simp [more])]

theorem pageComplete_empty {s : State} {m : Nat} {x : Move} (found : moveRec s m = some x) (lines : x.lines = []) : pageComplete s m = s := by
  unfold pageComplete
  rw [found]
  dsimp only
  rw [lines]
  rfl

/-- R224: an abandoned page is tried again after a wait. -/
theorem abandonPage_record (s : State) (m : Nat) (x : Move) :
    ∃ y, moveRec (abandonPage s m x) m = some y ∧ y.copying = false ∧ y.front = x.front ∧ y.attempts = min 255 (x.attempts + 1) ∧
      s.time.clock < y.notBefore := by
  unfold abandonPage
  extract_lets tries limit halted x1 s1 s2
  have moves : s2.map.moves = (setMove s m x1).map.moves := by
    unfold s2
    split
    · rw [raiseFault_frame]
      rfl
    · rfl
  have wait : s.time.clock < x1.notBefore := by
    show s.time.clock < s.time.clock + (if limit then 1000000 else 16000)
    split <;> omega
  refine ⟨x1, ?_, rfl, rfl, rfl, wait⟩
  clear_value s2
  unfold moveRec
  rw [(Routed.releasePage s2 x.gran x.front).moves, moves]
  exact moveRec_setMove s m x1

/-! ### Salvage and restore -/

theorem salvagePage_writes {s s1 : State} {m p : Nat} {x : Move} {rest : List Nat} (found : moveRec s m = some x)
    (salvaging : x.state = .salvaging) (moved : x.restore = false) (unasked : x.finalAsked = false) (lines : x.lines = [])
    (left : x.salvage = p :: rest) (token : pageToken? s 30 = some s1) : salvagePage s m = writePage s1 m x Config.poisonData true := by
  unfold salvagePage
  rw [found]
  dsimp only
  rw [if_neg (by simp [salvaging, moved, unasked, lines]), left]
  dsimp only
  rw [token]

theorem writePage_sends (s : State) (m : Nat) (x : Move) (data : LineData) (poison : Bool) :
    ∃ l, writePage s m x data poison = sendAll (setMove s m { x with lines := List.replicate 64 (.got data poison), stale := none }) l :=
  ⟨_, rfl⟩

theorem restoreFilled_asks {s : State} {m : Nat} {x : Move} (found : moveRec s m = some x) (restoring : x.state = .restoring)
    (full : x.front = 512) (unasked : x.finalAsked = false) (safe : s.flt.safe = false) :
    restoreFilled s m = askWrite (setMove s m { x with finalAsked := true, outcome := 4 })
      { gran := x.gran, entry := mkEntry 1 (!x.old.gen) x.dest.port x.dest.ld x.dest.gran, writer := .mover m } := by
  unfold restoreFilled
  rw [found]
  dsimp only
  rw [if_pos (by simp [restoring, full, unasked, safe])]

/-! ### Answers to the tier mover -/

theorem moverAnswer_read {s : State} {u : FUnit} {x : Move} (dat : u.vn = .dat) (found : moveRec s (u.tag.toNat / 64) = some x)
    (reading : x.lines[u.tag.toNat % 64]? = some .reading) (copying : x.copying = true)
    (own : u.line = pageLine x.gran x.page (u.tag.toNat % 64)) :
    ∃ w, moverAnswer s u = send (setMove s (u.tag.toNat / 64)
      { x with lines := x.lines.set (u.tag.toNat % 64) (.got u.payload u.poison) }) w := by
  unfold moverAnswer
  dsimp only
  rw [found]
  dsimp only
  rw [reading]
  dsimp only
  rw [if_neg (by simp [own]), if_pos dat, if_pos rfl]
  unfold lineRead
  exact ⟨_, if_pos copying⟩

/-! ### The poison sweep (R103) -/

theorem sweepStep_clean {s s1 : State} {p g : Nat} {mask : BitVec 16} {rest : List (Nat × BitVec 16 × Nat)}
    (waits : s.port.sweeps = (p, mask, g) :: rest) (clean : ∀ i, i < 512 → sweeps s p mask (g + i) = false) (token : spend? s 0 22 = some s1) :
    ∃ l, l = (if 8388608 ≤ g + 512 then rest else (p, mask, g + 512) :: rest) ∧
      sweepStep s = { s1 with port := { s1.port with sweeps := l } } := by
  refine ⟨_, rfl, ?_⟩
  have hits : ((List.range 512).filter fun i => sweeps s p mask (g + i)) = [] :=
    List.filter_eq_nil_iff.2 fun i hi => by simp [clean i (List.mem_range.1 hi)]
  have quiet : ((List.range 512).any fun i => writingGran s (g + i) && sweeps s p mask (g + i)) = false :=
    List.any_eq_false.2 fun i hi => by simp [clean i (List.mem_range.1 hi)]
  unfold sweepStep
  rw [waits]
  dsimp only
  rw [quiet, hits]
  generalize 8388608 = last
  dsimp only [List.isEmpty_nil]
  rw [if_neg Bool.false_ne_true, if_pos rfl, token]
  rfl

/-- Settles O28: the pages of a move, salvage, restore and the sweep, each in its clause. -/
theorem movePages : Obligations.MovePages := by
  unfold Obligations.MovePages
  refine ⟨?start, ?clear, ?complete, ?abandon, ?salvage, ?restore, ?answer, ?sweep⟩
  case start =>
    intro m x s1 s found copying idle left due pace unasked token
    obtain ⟨pow, rfl⟩ := pageToken_frame token
    exact ⟨_, congrArg Host.Outcome.next (pageStart_copying found copying idle left due pace unasked token), moveRec_setMove ..,
      paced_next (s := { s with pow := pow }) pace, rfl⟩
  case clear =>
    intro m x s found copying clear unused
    obtain ⟨l, eq⟩ := pageClear_asks found copying clear unused
    refine ⟨_, congrArg Host.Outcome.next eq, ?_, ?_⟩
    · rw [moveRec_congr (Routed.sendAll _ l).moves, moveRec_setMove]
    · rw [sendAll_frame]
      rfl
  case complete =>
    intro m x s found copying lines settled fresh more
    refine ⟨_, congrArg Host.Outcome.next (pageComplete_next found copying lines settled fresh more), ?_, ?_⟩
    · rw [moveRec_congr (Routed.releasePage _ _ _).moves, moveRec_congr (Routed.bumpC _ _ _).moves, moveRec_setMove]
    · exact (releasePage_keep _ _ _).1
  case abandon =>
    intro m x s found copying
    obtain ⟨y, record, idle, front, attempts, wait⟩ := abandonPage_record s m.val x
    have run : execMovePageAbandon m s = .next (abandonPage s m.val x) := by
      unfold execMovePageAbandon
      rw [found]
      exact if_pos copying
    exact ⟨_, y, run, record, idle, front, attempts, wait, (abandonPage_keep s m.val x).1⟩
  case salvage =>
    intro m x p rest s1 s found salvaging moved unasked lines left token
    obtain ⟨pow, rfl⟩ := pageToken_frame token
    obtain ⟨l, sent⟩ := writePage_sends { s with pow := pow } m.val x Config.poisonData true
    have run : execSalvagePage m s = .next (writePage { s with pow := pow } m.val x Config.poisonData true) := by
      unfold execSalvagePage
      rw [pageComplete_empty found lines, salvagePage_writes found salvaging moved unasked lines left token]
    refine ⟨_, run, ?_, ?_⟩
    · rw [sent, moveRec_congr (Routed.sendAll _ l).moves, moveRec_setMove]
    · rw [sent, sendAll_frame]
      rfl
  case restore =>
    intro m x s found restoring full unasked safe
    obtain ⟨map, frame⟩ := askWrite_frame (setMove s m.val { x with finalAsked := true, outcome := 4 })
      { gran := x.gran, entry := mkEntry 1 (!x.old.gen) x.dest.port x.dest.ld x.dest.gran, writer := .mover m }
    refine ⟨_, congrArg Host.Outcome.next (restoreFilled_asks found restoring full unasked safe), ?_, fun idle => ?_, ?_⟩
    · rw [moveRec_congr (askWrite_moves ..), moveRec_setMove]
    · exact askWrite_backing (s := setMove s m.val { x with finalAsked := true, outcome := 4 }) idle
        { gran := x.gran, entry := mkEntry 1 (!x.old.gen) x.dest.port x.dest.ld x.dest.gran, writer := .mover m }
    · rw [frame]
      rfl
  case answer =>
    intro h rest m i x s head dat hm hi found reading copying own
    subst hm hi
    obtain ⟨w, eq⟩ := moverAnswer_read (s := setEjectBuf s moverStop 1 .dat rest) dat found reading copying own
    have run : execTierMoverResponse true s = .next (moverAnswer (setEjectBuf s moverStop 1 .dat rest) h.u) := by
      unfold execTierMoverResponse
      dsimp only
      rw [if_pos rfl, head]
    refine ⟨_, run.trans (congrArg Host.Outcome.next eq), ?_, ?_, ?_⟩
    · unfold ejectBuf
      rw [(Routed.send _ w).eject]
      exact tabGet_set_same ..
    · rw [moveRec_congr (Routed.send _ w).moves, moveRec_setMove]
    · rw [send_frame]
      rfl
  case sweep =>
    intro p g mask rest s1 s waits clean token
    obtain ⟨pow, rfl⟩ := spend_frame token
    obtain ⟨l, left, eq⟩ := sweepStep_clean waits clean token
    exact ⟨_, congrArg Host.Outcome.next eq, left, rfl⟩

end Sys2Proof.Proofs.MovePages

/-!
Removals (R194 to R196), uncorrectable errors of the directory (R198, R205), and ranges in RECOVERY (R200 to R203).
-/

namespace Sys2Proof.Proofs.RemovalAndRecovery

open Sys2Proof Sys2Proof.Machine Sys2Proof.Laws Sys2Proof.Proofs.Shared Sys2Proof.Proofs.Calm

/-! ### What an abandoned range touches (R202) -/

/-- What the granules of an abandoned range touch: moves and the remap table, with their reports, and the lines of the directory. -/
structure Swept (s t : State) : Prop where
  touched : ∃ od spr perf fab home map flt cache sf inserting,
    t = { s with od := od, spr := spr, perf := perf, fab := fab, home := home, map := map, flt := flt
                 dir := { s.dir with cache := cache, sf := sf, inserting := inserting } }

namespace Swept

variable {s t u : State}

theorem refl (s : State) : Swept s s := ⟨_, _, _, _, _, _, _, _, _, _, rfl⟩

theorem trans (h : Swept s t) (g : Swept t u) : Swept s u := by
  obtain ⟨_, _, _, _, _, _, _, _, _, _, rfl⟩ := h
  obtain ⟨_, _, _, _, _, _, _, _, _, _, rfl⟩ := g
  exact ⟨_, _, _, _, _, _, _, _, _, _, rfl⟩

theorem foldl {α : Type} {f : State → α → State} (step : ∀ t a, Swept t (f t a)) (l : List α) (s : State) : Swept s (l.foldl f s) :=
  List.foldlRecOn _ _ (motive := Swept s) (refl s) fun t h a _ => h.trans (step t a)

theorem of_memPath (h : MemPath s t) : Swept s t := by
  obtain ⟨_, _, _, _, _, rfl⟩ := h
  exact ⟨_, _, _, _, _, _, _, _, _, _, rfl⟩

theorem recov (h : Swept s t) : t.dir.recov = s.dir.recov := by obtain ⟨_, _, _, _, _, _, _, _, _, _, rfl⟩ := h; rfl
theorem removals (h : Swept s t) : t.dir.removals = s.dir.removals := by obtain ⟨_, _, _, _, _, _, _, _, _, _, rfl⟩ := h; rfl
theorem time (h : Swept s t) : t.time = s.time := by obtain ⟨_, _, _, _, _, _, _, _, _, _, rfl⟩ := h; rfl
theorem out (h : Swept s t) : t.out = s.out := by obtain ⟨_, _, _, _, _, _, _, _, _, _, rfl⟩ := h; rfl

theorem setMove (s : State) (m : Nat) (x : Move) : Swept s (setMove s m x) := of_memPath (.setMove ..)
theorem bumpC (s : State) (i j : Nat) : Swept s (bumpC s i j) := of_memPath (.bumpC ..)

theorem applyEntry (s : State) (g : Nat) (e : BitVec 48) : Swept s (applyEntry s g e) := by
  unfold Machine.applyEntry
  refine trans (t := (List.range 32).foldl (fun t l => setSlice t l (remapUpdate (slice t l) g e)) s) ?_ ⟨_, _, _, _, _, _, _, _, _, _, rfl⟩
  exact foldl (fun _ _ => of_memPath (.setSlice ..)) _ _

theorem sweepEntry (s : State) (g : Nat) : Swept s (sweepEntry s g) :=
  (trans (t := setBacking s g (withEntState (backing s g) 4)) ⟨_, _, _, _, _, _, _, _, _, _, rfl⟩ (applyEntry ..)).trans (bumpC ..)

theorem moveFree (s : State) (m : Nat) : Swept s (moveFree s m) := by
  unfold Machine.moveFree
  split
  · exact refl s
  · next x _ =>
    dsimp only
    split <;> exact ⟨_, _, _, _, _, _, _, _, _, _, rfl⟩

theorem moveClear (s : State) (m : Nat) : Swept s (moveClear s m) := by
  unfold Machine.moveClear
  split
  · exact refl s
  · extract_lets clear
    clear_value clear
    split
    · exact moveFree ..
    · exact refl s

theorem putState (s : State) (l : Nat) (line : BitVec 42) (st : LState) : Swept s (putState s l line st) := by
  unfold Machine.putState
  split
  · exact ⟨_, _, _, _, _, _, _, _, _, _, rfl⟩
  · split
    · exact ⟨_, _, _, _, _, _, _, _, _, _, rfl⟩
    · split
      · exact ⟨_, _, _, _, _, _, _, _, _, _, rfl⟩
      · split
        · split
          · exact ⟨_, _, _, _, _, _, _, _, _, _, rfl⟩
          · exact refl s
        · exact refl s

theorem poisonRelease (s : State) (g : Nat) : Swept s (poisonRelease s g) := by
  unfold Machine.poisonRelease
  extract_lets mine s1
  have released : Swept s s1 := foldl (fun _ _ => of_memPath (.setSlice ..)) _ _
  clear_value s1
  refine released.trans (foldl (fun t p => ?_) _ _)
  split
  · exact putState ..
  · exact refl t

theorem moveWritten (s : State) (m g : Nat) (last : Bool) : Swept s (moveWritten s m g last) := by
  unfold Machine.moveWritten
  split
  · exact refl s
  · next x _ =>
    split
    · extract_lets s1
      have swept : Swept s s1 := by
        unfold s1 sweepIfLost
        dsimp only
        split
        · exact (setMove ..).trans (sweepEntry ..)
        · exact setMove ..
      clear_value s1
      split
      · exact (swept.trans (poisonRelease ..)).trans (moveClear ..)
      · split
        · exact swept.trans (moveClear ..)
        · exact swept
    · split
      · exact setMove ..
      · exact refl s

theorem writeDone (s : State) : Swept s (writeDone s) := by
  unfold Machine.writeDone
  split
  · exact refl s
  · next w _ =>
    extract_lets map s1 s2
    have applied : Swept s s1 :=
      (trans (t := { s with map := { s.map with write := none } }) ⟨_, _, _, _, _, _, _, _, _, _, rfl⟩ (applyEntry ..)).trans (bumpC ..)
    have ended : Swept s s2 := by
      unfold s2
      clear_value s1
      split
      · exact applied.trans ⟨_, _, _, _, _, _, _, _, _, _, rfl⟩
      · exact applied.trans (moveWritten ..)
    clear_value s2
    split
    · exact ended
    · exact ended.trans ⟨_, _, _, _, _, _, _, _, _, _, rfl⟩

theorem abandonGranule (s : State) (g : Nat) : Swept s (abandonGranule s g) := by
  unfold Machine.abandonGranule
  extract_lets s0
  have written : Swept s s0 := by
    unfold s0
    split
    · split
      · exact writeDone s
      · exact refl s
    · exact refl s
  clear_value s0
  refine written.trans ?_
  split
  · exact sweepEntry ..
  · next m x _ =>
    split
    · split
      · exact of_memPath (.restoreLost ..)
      · exact sweepEntry ..
    · split
      · exact sweepEntry ..
      · extract_lets s1 s2
        have dropped : Swept s0 s1 := trans (t := dropWaiting s0 m) ⟨_, _, _, _, _, _, _, _, _, _, rfl⟩ (sweepEntry ..)
        have left : Swept s0 s2 := by
          unfold s2
          split
          · exact dropped.trans (of_memPath (.abandonPage ..))
          · exact dropped
        clear_value s2
        split
        · exact left
        · exact left.trans (setMove ..)

theorem abandonRange (s : State) (lo hi : Nat) : Swept s (abandonRange s lo hi) := foldl (fun _ _ => abandonGranule ..) _ _

end Swept

/-! ### The table of recoveries -/

theorem recovery_congr {s t : State} (h : t.dir.recov = s.dir.recov) : recovery t = recovery s := by
  funext i; simp only [recovery, h]

@[simp] theorem recovery_setRecovery (s : State) (i : Nat) (r : Recovery) : recovery (setRecovery s i r) i = r := tabGet_set_same ..

theorem recovery_setRecovery_other (s : State) {i j : Nat} (r : Recovery) (apart : j ≠ i) : recovery (setRecovery s i r) j = recovery s j :=
  tabGet_set_other apart ..

/-- R201: a range that waits for nobody has left RECOVERY. -/
def settled (r : Recovery) : Recovery := if r.active && decide (r.vcs = 0) && r.switches.isEmpty then { r with active := false } else r

/-- R201: the range no longer waits for VCS `v`. -/
def withoutVcs (v : Nat) (r : Recovery) : Recovery :=
  if r.active && r.vcs.getLsbD v then settled { r with vcs := r.vcs &&& ~~~ BitVec.twoPow 64 v } else r

/-- R201: the range no longer waits for switch `w`. -/
def withoutSwitch (w : Nat) (r : Recovery) : Recovery :=
  if r.active && r.switches.contains w then settled { r with switches := setRemove w r.switches } else r

theorem settled_vcs (r : Recovery) : (settled r).vcs = r.vcs := by unfold settled; split <;> rfl
theorem settled_switches (r : Recovery) : (settled r).switches = r.switches := by unfold settled; split <;> rfl

theorem withoutVcs_switches (v : Nat) (r : Recovery) : (withoutVcs v r).switches = r.switches := by
  unfold withoutVcs
  split
  · exact settled_switches _
  · rfl

theorem withoutSwitch_vcs (w : Nat) (r : Recovery) : (withoutSwitch w r).vcs = r.vcs := by
  unfold withoutSwitch
  split
  · exact settled_vcs _
  · rfl

/-- A mask without bit `v` has it clear. -/
theorem getLsbD_without (x : BitVec 64) (v : Fin 64) : (x &&& ~~~ BitVec.twoPow 64 v.val).getLsbD v.val = false := by
  simp

theorem withoutVcs_clear (v : Fin 64) (r : Recovery) (active : (withoutVcs v.val r).active = true) :
    (withoutVcs v.val r).vcs.getLsbD v.val = false := by
  unfold withoutVcs at active ⊢
  split
  · rw [settled_vcs]
    exact getLsbD_without ..
  · next keeps =>
    rw [if_neg keeps] at active
    simpa [active] using keeps

theorem withoutSwitch_clear (w : Nat) (r : Recovery) (active : (withoutSwitch w r).active = true) : w ∉ (withoutSwitch w r).switches := by
  unfold withoutSwitch at active ⊢
  split
  · rw [settled_switches]
    exact fun h => ((mem_setRemove ..).1 h).2 rfl
  · next keeps =>
    rw [if_neg keeps] at active
    simpa [active] using keeps

theorem recovery_settle (s : State) (i : Nat) (tell : Bool) : recovery (recoverySettle s i tell) i = settled (recovery s i) := by
  unfold recoverySettle settled
  dsimp only
  split
  · split
    · exact recovery_setRecovery s i { recovery s i with active := false }
    · exact recovery_setRecovery s i { recovery s i with active := false }
  · rfl

theorem recovery_settle_other (s : State) {i j : Nat} (apart : j ≠ i) (tell : Bool) :
    recovery (recoverySettle s i tell) j = recovery s j := by
  unfold recoverySettle
  dsimp only
  split
  · split
    · exact recovery_setRecovery_other s _ apart
    · exact recovery_setRecovery_other s _ apart
  · rfl

theorem recoverySettle_out (s : State) (i : Nat) (tell : Bool) : (recoverySettle s i tell).out = s.out := by
  unfold recoverySettle
  dsimp only
  split
  · split
    · rfl
    · rfl
  · rfl

theorem recovery_dropVcs (s : State) (v i : Nat) : recovery (recoveryDropVcs s v i) i = withoutVcs v (recovery s i) := by
  unfold recoveryDropVcs withoutVcs
  dsimp only
  split
  · rw [recovery_settle, recovery_setRecovery]
  · rfl

theorem recovery_dropVcs_other (s : State) (v : Nat) {i j : Nat} (apart : j ≠ i) : recovery (recoveryDropVcs s v i) j = recovery s j := by
  unfold recoveryDropVcs
  dsimp only
  split
  · rw [recovery_settle_other _ apart, recovery_setRecovery_other _ _ apart]
  · rfl

theorem recovery_dropSwitch (s : State) (w i : Nat) : recovery (recoveryDropSwitch s w i) i = withoutSwitch w (recovery s i) := by
  unfold recoveryDropSwitch withoutSwitch
  dsimp only
  split
  · rw [recovery_settle, recovery_setRecovery]
  · rfl

theorem recovery_dropSwitch_other (s : State) (w : Nat) {i j : Nat} (apart : j ≠ i) :
    recovery (recoveryDropSwitch s w i) j = recovery s j := by
  unfold recoveryDropSwitch
  dsimp only
  split
  · rw [recovery_settle_other _ apart, recovery_setRecovery_other _ _ apart]
  · rfl

/-- A fold over the ranges that treats each by itself. -/
theorem recovery_foldl {f : State → Nat → State} {g : Recovery → Recovery} (own : ∀ t i, recovery (f t i) i = g (recovery t i))
    (other : ∀ t i j, j ≠ i → recovery (f t i) j = recovery t j) (s : State) (n j : Nat) :
    recovery ((List.range n).foldl f s) j = if j < n then g (recovery s j) else recovery s j := by
  induction n with
  | zero => rfl
  | succ n ih =>
    rw [List.range_succ, List.foldl_append, List.foldl_cons, List.foldl_nil]
    by_cases last : j = n
    · subst last
      rw [own, ih, if_neg (lt_irrefl j), if_pos (Nat.lt_succ_self j)]
    · rw [other _ _ _ last, ih]
      simp only [show (j < n + 1) = (j < n) from propext (by omega)]

/-! ### Ranges in RECOVERY: the commands -/

theorem recoverySettle_keeps (s : State) (i : Nat) :
    (recoverySettle s i false).time = s.time ∧ (recoverySettle s i false).dir.removals = s.dir.removals ∧
      (recoverySettle s i false).out = s.out := by
  unfold recoverySettle
  dsimp only
  split
  · exact ⟨rfl, rfl, rfl⟩
  · exact ⟨rfl, rfl, rfl⟩

theorem recoveryDropSwitch_keeps (s : State) (w i : Nat) :
    (recoveryDropSwitch s w i).time = s.time ∧ (recoveryDropSwitch s w i).dir.removals = s.dir.removals ∧
      (recoveryDropSwitch s w i).out = s.out := by
  unfold recoveryDropSwitch
  dsimp only
  split
  · obtain ⟨time, removals, out⟩ :=
      recoverySettle_keeps (setRecovery s i { recovery s i with switches := setRemove w (recovery s i).switches }) i
    exact ⟨time, removals, out⟩
  · exact ⟨rfl, rfl, rfl⟩

theorem recoveryAnswers_recov (s : State) : (recoveryAnswers s).dir.recov = s.dir.recov := by
  unfold recoveryAnswers
  split
  · rfl
  · refine List.foldlRecOn _ _ (motive := fun t : State => t.dir.recov = s.dir.recov) rfl fun t ht p _ => ?_
    split
    · exact ht
    · exact ht

theorem recovery_recoveryVcs (s : State) (v j : Nat) :
    recovery (recoveryVcs s v) j = if j < 64 then withoutVcs v (recovery s j) else recovery s j := by
  rw [← recovery_foldl (fun t i => recovery_dropVcs t v i) (fun t i j => recovery_dropVcs_other t v) s 64 j]
  unfold recoveryVcs askedDone
  generalize List.foldl _ _ _ = t
  rw [recovery_congr (recoveryAnswers_recov _)]
  rfl

theorem abandonVcs_leaves {s : State} {i : Nat} {v : Fin 64} (active : (recovery s i).active = true)
    (pending : (recovery s i).vcs.getLsbD v.val = true) :
    (recovery (abandonVcs s i v.val) i).vcs.getLsbD v.val = false ∧ (abandonVcs s i v.val).out = s.out := by
  have swept := Swept.abandonRange s (recovery s i).base (recovery s i).limit
  unfold abandonVcs
  dsimp only
  rw [if_pos (by rw [active, pending]; rfl)]
  refine ⟨?_, ?_⟩
  · rw [recovery_settle, recovery_setRecovery, settled_vcs]
    exact getLsbD_without ..
  · exact (recoverySettle_out ..).trans swept.out

theorem abandonSwitch_drops {s : State} {w i : Nat} (active : (recovery s i).active = true) (pending : w ∈ (recovery s i).switches) :
    w ∉ (recovery (abandonSwitch s i w) i).switches := by
  have swept := Swept.abandonRange s (recovery s i).base (recovery s i).limit
  have same : recovery (recoveryPoison s i) i = recovery s i := congrFun (recovery_congr swept.recov) i
  unfold abandonSwitch
  dsimp only
  rw [if_pos (by simpa [active] using pending), recovery_dropSwitch, same]
  unfold withoutSwitch
  rw [if_pos (by simpa [active] using pending), settled_switches]
  exact fun h => ((mem_setRemove ..).1 h).2 rfl

/-- R202: what abandoning a switch leaves of a range. -/
theorem abandonSwitch_keeps (s : State) (i w : Nat) :
    (abandonSwitch s i w).time = s.time ∧ (abandonSwitch s i w).dir.removals = s.dir.removals ∧ (abandonSwitch s i w).out = s.out := by
  have swept := Swept.abandonRange s (recovery s i).base (recovery s i).limit
  unfold abandonSwitch
  dsimp only
  split
  · obtain ⟨time, removals, out⟩ := recoveryDropSwitch_keeps (recoveryPoison s i) w i
    exact ⟨time.trans swept.time, removals.trans swept.removals, out.trans swept.out⟩
  · exact ⟨rfl, rfl, rfl⟩

/-! ### The removal list (R194) -/

theorem passStart_listed (s : State) (b : Bool) (id : Nat) : isListed (passStart s) b id = isListed s b id := by
  unfold passStart
  split
  · rfl
  · unfold isListed
    rw [odSet_dir]
    exact List.any_map

theorem listRemoval_listed (s : State) (b : Bool) (id : Nat) : isListed (listRemoval s b id) b id = true := by
  unfold listRemoval
  rw [passStart_listed]
  unfold isListed showRemovals
  simp

theorem passStart_time (s : State) : (passStart s).time = s.time := by
  unfold passStart
  split <;> rfl

theorem isListed_congr {s t : State} (h : t.dir.removals = s.dir.removals) : isListed t = isListed s := by
  funext b id; simp only [isListed, h]

theorem peerTrackers_calm (s : State) (w : Nat) :
    (peerTrackers s w).time = s.time ∧ (peerTrackers s w).dir.removals = s.dir.removals := by
  unfold peerTrackers
  exact foldl_calm _ _ _ fun t l => foldl_calm _ _ _ fun r n => switchLost_calm r l n w

theorem declareLost_busy {s : State} {w : Nat} (busy : w = ownSwitch s ∨ isListed s true w = true ∨ 16 ≤ s.dir.removals.length) :
    declareLost s w = (s, .busy) := if_pos busy

theorem declareLost_ok {s : State} {w : Nat} (other : w ≠ ownSwitch s) (unlisted : isListed s true w = false)
    (room : s.dir.removals.length < 16) :
    ∃ t, declareLost s w = (t, .ok) ∧ t.time = s.time ∧ isListed t true w = true := by
  unfold declareLost
  rw [if_neg (by simp [other, unlisted, room])]
  dsimp only
  have listed := listRemoval_listed { s with dir := { s.dir with remote := setRemove w s.dir.remote } } true w
  have time : (listRemoval { s with dir := { s.dir with remote := setRemove w s.dir.remote } } true w).time = s.time := passStart_time _
  generalize listRemoval _ true w = s1 at listed time
  have peers := peerTrackers_calm s1 w
  have abandoned := foldl_calm (fun t i => abandonSwitch t i w) (List.range 64) (peerTrackers s1 w)
    fun t i => ⟨(abandonSwitch_keeps t i w).1, (abandonSwitch_keeps t i w).2.1⟩
  refine ⟨_, rfl, (abandoned.1.trans peers.1).trans time, ?_⟩
  rw [isListed_congr (abandoned.2.trans peers.2)]
  exact listed

/-! ### The pass (R195) -/

theorem passStep_empty {s s1 : State} {n : Nat} (pass : s.dir.pass = some n) (more : n < 4194304) (cache : s.dir.cache = [])
    (sf : s.dir.sf = []) (inserting : s.dir.inserting = []) (token : spend? s 0 704 = some s1) :
    passStep s = odSet { s1 with dir := { s1.dir with pass := some (n + 25) } } 0x4020 5 (min 65535 ((n + 25) / 64)) := by
  have applied : passApply s n = s := by
    unfold passApply
    dsimp only
    rw [cache, inserting]
    simp [sf, tabKeys]
  unfold passStep
  rw [pass]
  dsimp only
  rw [if_neg (by omega), applied, sf]
  rw [show ((List.range 32).filter fun l => ([] : Tab (List SfWay)).any fun p => decide (p.1 / 4194304 = l) && decide (tabFind? p.1 [] ≠ some p.2)) =
    [] from List.filter_eq_nil_iff.2 fun _ _ => Bool.false_ne_true]
  rw [show 22 * 32 + 23 * ([] : List Nat).length = 704 from rfl, token]

theorem passStart_covers (s : State) : (passStart s).dir.removals = [] ∨ (passStart s).dir.pass = s.dir.pass ∧ s.dir.pass.isSome = true ∨
    (passStart s).dir.pass = some 0 := by
  unfold passStart
  split
  · next stays =>
    cases empty : s.dir.removals with
    | nil => exact .inl rfl
    | cons r l => exact .inr (.inl ⟨rfl, by simpa [empty] using stays⟩)
  · exact .inr (.inr rfl)

/-- What taking removals off the list touches. -/
structure Delisted (s t : State) : Prop where
  touched : ∃ od spr perf removals, t = { s with od := od, spr := spr, perf := perf, dir := { s.dir with removals := removals } }

theorem leaveList_touches (s : State) (r : Removal) : Delisted s (leaveList s r) := ⟨_, _, _, _, rfl⟩

theorem leaveList_removals (s : State) (r : Removal) :
    (leaveList s r).dir.removals = s.dir.removals.filter fun x => decide (x ≠ r) := rfl

theorem leaves (l : List Removal) (s : State) : Delisted s (l.foldl leaveList s) := by
  refine List.foldlRecOn _ _ (motive := Delisted s) ⟨_, _, _, _, rfl⟩ fun t ht r _ => ?_
  obtain ⟨_, _, _, _, rfl⟩ := ht
  exact ⟨_, _, _, _, rfl⟩

theorem leaves_removals (l : List Removal) (s : State) :
    (l.foldl leaveList s).dir.removals = s.dir.removals.filter fun x => decide (x ∉ l) := by
  induction l generalizing s with
  | nil => simp
  | cons r l ih =>
    rw [List.foldl_cons, ih, leaveList_removals, List.filter_filter]
    congr 1
    funext x
    simp [Bool.and_comm, not_or]

theorem passComplete_done {s : State} {n : Nat} (pass : s.dir.pass = some n) (over' : 4194304 ≤ n) :
    ∃ u, passComplete s = passStart (takeWaiting u) ∧ u.dir.pass = none ∧ u.dir.hostWait = s.dir.hostWait ∧ u.out = s.out ∧
      u.dir.removals = s.dir.removals.filter fun x => decide (x ∉ s.dir.removals.filter fun r => r.covered) := by
  unfold passComplete
  rw [pass]
  dsimp only
  rw [if_neg (by omega)]
  have left := leaves (s.dir.removals.filter fun r => r.covered) (odSet { s with dir := { s.dir with pass := none } } 0x4020 5 65535)
  refine ⟨_, rfl, ?_, ?_, ?_, leaves_removals ..⟩
  all_goals
    obtain ⟨_, _, _, _, h⟩ := left
    rw [h]
    rfl

theorem takeWaiting_pass (s : State) : (takeWaiting s).dir.pass = s.dir.pass := rfl

theorem takeWaiting_out (s : State) : (takeWaiting s).out = s.out := rfl

theorem takeWaiting_none {s : State} (waits : s.dir.hostWait = []) : (takeWaiting s).dir.removals = s.dir.removals := by
  show s.dir.removals ++ (s.dir.hostWait.take (16 - s.dir.removals.length)).map _ = s.dir.removals
  rw [waits]
  simp

theorem passStart_out (s : State) : (passStart s).out = s.out := by
  unfold passStart
  split <;> rfl

theorem passStart_empty {s : State} (empty : s.dir.removals = []) : passStart s = s := if_pos (by rw [empty]; simp)

/-! ### Errors (R198, R205) -/

theorem directoryError_clean {s : State} {l : Fin 32} {w : Fin 16} {b : Fin 8192} {x : DirEntry}
    (found : tabFind? ((l.val * 8192 + b.val) * 16 + w.val) s.dir.cache = some x) (clean : x.dirty = false) (free : x.pinned = false) :
    directoryError s (.cache l w b) =
      { s with dir := { s.dir with cache := tabDel ((l.val * 8192 + b.val) * 16 + w.val) s.dir.cache } } := by
  unfold directoryError
  dsimp only
  rw [found]
  dsimp only
  rw [clean, free, if_neg Bool.false_ne_true, if_neg Bool.false_ne_true]

theorem directoryError_dirty {s : State} {l : Fin 32} {w : Fin 16} {b : Fin 8192} {x : DirEntry}
    (found : tabFind? ((l.val * 8192 + b.val) * 16 + w.val) s.dir.cache = some x) (dirty : x.dirty = true) :
    directoryError s (.cache l w b) = raiseFault s 432 0 (l.val * 2 ^ 32 + w.val * 2 ^ 16 + b.val) := by
  unfold directoryError
  dsimp only
  rw [found]
  exact if_pos dirty

/-- R205: the pass has gone over one block more. -/
def patrolled (s : State) (blocks : Nat) : State :=
  bumpCBy { s with dir := { s.dir with marver := (s.dir.marver + 1) % 5242880 } } 0xC024 8 blocks

theorem marverStep_plain {s s1 : State} {blocks : Nat} (token : spend? s 0 (if blocks = 0 then 22 else 45) = some s1) :
    marverStep s blocks none = patrolled s1 blocks := by
  unfold marverStep
  rw [token]
  rfl

/-- Settles O29: removals, their pass, the errors of the directory, and the ranges in RECOVERY. -/
theorem directoryRemovalAndRecovery : Obligations.DirectoryRemovalAndRecovery := by
  unfold Obligations.DirectoryRemovalAndRecovery
  refine ⟨?declare, ?busy, ?pass, ?complete, ?clean, ?dirty, ?marver, ?flush, ?done, ?vcs, ?switch, ?timeout⟩
  case declare =>
    intro w s other unlisted room
    obtain ⟨t, eq, time, listed⟩ := declareLost_ok other unlisted room
    refine ⟨_, answered_of eq, List.getLast?_concat, ?_, time, listed⟩
    have kept := execDeclarePeerLost_keep w s
    rw [show execDeclarePeerLost w s = _ from answered_of eq] at kept
    exact kept.1
  case busy =>
    intro w s busy
    exact answered_of (declareLost_busy busy)
  case pass =>
    intro n s1 s pass more safe cache sf inserting token
    obtain ⟨pow, rfl⟩ := spend_frame token
    have run : execRemovalPassStep s = _ := (if_neg (by simp [safe])).trans
      (congrArg Host.Outcome.next (passStep_empty pass more cache sf inserting token))
    exact ⟨_, run, rfl, odGet_odSet_same .., rfl⟩
  case complete =>
    intro n s pass ended
    obtain ⟨u, eq, idle, waits, out, left⟩ := passComplete_done pass ended
    refine ⟨_, congrArg Host.Outcome.next eq, fun r mem _ => ?_, fun none' covered => ?_, ?_, ?_⟩
    · rcases passStart_covers (takeWaiting u) with empty | ⟨-, busy⟩ | restarted
      · rw [empty] at mem
        exact absurd mem List.not_mem_nil
      · rw [takeWaiting_pass, idle] at busy
        cases busy
      · exact .inr restarted
    · have empty : (takeWaiting u).dir.removals = [] := by
        rw [takeWaiting_none (waits.trans none'), left]
        exact List.filter_eq_nil_iff.2 fun r mem => by simp [mem, covered r mem]
      rw [passStart_empty empty]
      exact ⟨empty, idle⟩
    · rw [passStart_out, takeWaiting_out, out]
    · rw [← eq]
      exact (passComplete_keep s).1
  case clean =>
    intro l w b x s found clean free
    exact ⟨_, congrArg Host.Outcome.next (directoryError_clean found clean free), tabFind_del_same .., rfl⟩
  case dirty =>
    intro l w b x s found dirty free
    refine ⟨_, _, congrArg Host.Outcome.next (directoryError_dirty found dirty), raiseFault_free free .., rfl, ?_⟩
    rw [raiseFault_frame]
  case marver =>
    intro b s1 s safe token
    obtain ⟨pow, rfl⟩ := spend_frame token
    have run : execMarverPassStep b none s = .next (patrolled { s with pow := pow } b) :=
      (if_neg (by simp [safe])).trans (congrArg Host.Outcome.next (marverStep_plain token))
    exact ⟨_, run, rfl, counter_bump_same _ _ b.val, rfl⟩
  case flush =>
    intro v s
    refine ⟨_, rfl, rfl, fun i hi active => ?_, fun i hi => ?_, (execRecoveryFlushComplete_keep v s).1⟩
    · rw [recovery_recoveryVcs, if_pos hi] at active ⊢
      exact withoutVcs_clear v _ active
    · rw [recovery_recoveryVcs, if_pos hi, withoutVcs_switches]
  case done =>
    intro w s
    have folded := recovery_foldl (fun t i => recovery_dropSwitch t w.val i) (fun t i j => recovery_dropSwitch_other t w.val) s 64
    refine ⟨_, rfl, fun i hi active => ?_, fun i hi => ?_, ?_, (execRecoverydone_keep w s).1⟩
    · rw [folded, if_pos hi] at active ⊢
      exact withoutSwitch_clear w.val _ active
    · rw [folded, if_pos hi, withoutSwitch_vcs]
    · exact List.foldlRecOn _ _ (motive := fun t : State => t.out = s.out) rfl fun t ht i _ => (recoveryDropSwitch_keeps t w i).2.2.trans ht
  case vcs =>
    intro i v s active pending
    obtain ⟨clear, out⟩ := abandonVcs_leaves active pending
    exact ⟨_, rfl, clear, congrArg (· ++ [Out.status .ok]) out, (execAbandonVcs_keep i v s).1⟩
  case switch =>
    intro i w s active pending
    exact ⟨_, rfl, abandonSwitch_drops active pending, congrArg (· ++ [Out.status .ok]) (abandonSwitch_keeps s i w).2.2,
      (execAbandonSwitch_keep i w s).1⟩
  case timeout =>
    intro i s active unraised
    have run : execRecoveryTimeout i s =
        .next (raiseFault (setRecovery s i { recovery s i with timeoutRaised := true }) 434 0 i) := if_pos (by simp [active, unraised])
    obtain ⟨r, report⟩ := exists_report (setRecovery s i { recovery s i with timeoutRaised := true }) 434 0 i
    refine ⟨_, run, ?_, Option.isSome_iff_exists.2 ⟨r, report⟩, ?_⟩
    · rw [recovery_congr (congrArg DirState.recov (raiseFault_dir ..)), recovery_setRecovery]
    · rw [raiseFault_frame]
      rfl

end Sys2Proof.Proofs.RemovalAndRecovery

/-!
Flush walks (R199) and the commit of snoop-filter partitions (R206, R208).
-/

namespace Sys2Proof.Proofs.Walks

open Sys2Proof Sys2Proof.Machine Sys2Proof.Laws Sys2Proof.Proofs.Shared

theorem flushRange_ok {s : State} {base limit : Nat} (ok : rangeOk base limit = true) (idle : ∀ w ∈ s.dir.walks, w.extent ≠ none) :
    flushRange s base limit = (odSet (addWalk s none base limit) 0x4021 4 0, .ok) := by
  have free : (s.dir.walks.any fun w => w.extent.isNone) = false := List.any_eq_false.2 fun w hw => by simpa using idle w hw
  unfold flushRange
  rw [ok, free]
  rfl

theorem flushRange_refused {s : State} {base limit : Nat} (bad : rangeOk base limit = false) :
    flushRange s base limit = (s, .outOfRange) := if_pos (by rw [bad]; rfl)

/-- R199: nobody holds an invalid line, so that a walk goes past it. -/
theorem walkTargets_invalid (s : State) (w : Walk) : (walkTargets s w .invalid).1.none = true := by
  unfold walkTargets
  split <;> rfl

theorem walkLine_invalid {s : State} {w : Walk} {line : BitVec 42} (free : trackerFor s (homeSlice line) line = none)
    (invalid : lineState s (homeSlice line) line = (s, .invalid)) : walkLine s w line = some s := by
  unfold walkLine
  dsimp only
  rw [free, invalid, if_neg (by simp), walkTargets_invalid, if_pos rfl]

/-- R199: a walk over invalid lines that nothing is outstanding for goes on to its end or to the number of lines of a step. -/
theorem walkLines_invalid {s : State} {w : Walk} : ∀ {n x : Nat}, x ≤ w.limit + 1 → (∀ y, x ≤ y → y ≤ w.limit →
      trackerFor s (homeSlice (BitVec.ofNat 42 y)) (BitVec.ofNat 42 y) = none ∧
      lineState s (homeSlice (BitVec.ofNat 42 y)) (BitVec.ofNat 42 y) = (s, .invalid)) →
    walkLines s w n x = (s, min (x + n) (w.limit + 1))
  | 0, x, inside, _ => by rw [walkLines, Nat.add_zero, min_eq_left inside]
  | n + 1, x, inside, clear => by
    rw [walkLines]
    by_cases past : w.limit < x
    · rw [if_pos past, show x = w.limit + 1 by omega, min_eq_right (by omega)]
    · obtain ⟨free, invalid⟩ := clear x le_rfl (by omega)
      rw [if_neg past, walkLine_invalid free invalid]
      dsimp only
      rw [walkLines_invalid (by omega) fun y hy => clear y (by omega), show x + 1 + n = x + (n + 1) by omega]

theorem trackerFor_pow (s : State) (pow : PowState) : trackerFor { s with pow := pow } = trackerFor s := by
  funext l line
  unfold trackerFor
  rfl

theorem walkStep_invalid {s s1 : State} {i : Nat} {w : Walk} (found : s.dir.walks[i]? = some w) (more : w.next ≤ w.limit)
    (token : spend? s 0 22 = some s1) (clear : ∀ x, w.next ≤ x → x ≤ w.limit →
      trackerFor s (homeSlice (BitVec.ofNat 42 x)) (BitVec.ofNat 42 x) = none ∧
      lineState s1 (homeSlice (BitVec.ofNat 42 x)) (BitVec.ofNat 42 x) = (s1, .invalid)) :
    ∃ od pow, walkStep s i = { s with od := od, pow := pow, dir :=
      { s.dir with walks := s.dir.walks.set i { w with next := min (w.next + 128) (w.limit + 1) } } } := by
  obtain ⟨pow, rfl⟩ := spend_frame token
  have lines : walkLines { s with pow := pow } w 128 w.next = ({ s with pow := pow }, min (w.next + 128) (w.limit + 1)) :=
    walkLines_invalid (by omega) fun y lo hi => by
      rw [trackerFor_pow]
      exact clear y lo hi
  unfold walkStep
  rw [found]
  dsimp only
  rw [if_neg (by omega), token]
  dsimp only
  rw [lines]
  split
  · exact ⟨_, _, rfl⟩
  · exact ⟨_, _, rfl⟩

theorem walkComplete_ends {s : State} {i : Nat} {w : Walk} (found : s.dir.walks[i]? = some w) (flush : w.extent = none)
    (ended : walkOver s w = true) :
    walkComplete s i = odSet { s with dir := { s.dir with walks := s.dir.walks.eraseIdx i } } 0x4021 4 65535 := by
  unfold walkComplete
  rw [found]
  dsimp only
  rw [ended, flush]
  rfl

theorem partitionCommit_ok {s : State} (idle : s.dir.clearing = false)
    (fit : (((List.range 8).map (stagedPartition s)).filter fun p => p.enable).all partitionFits = true)
    (apart : disjointParts (((List.range 8).map (stagedPartition s)).filter fun p => p.enable) = true) :
    partitionCommit s =
      (odSet { s with dir := { s.dir with
        parts := (List.range 8).map (stagedPartition s), clearing := true, sf := [], cache := [], plru := [], inserting := [] } } 0x4013 2 1,
        .ok) := by
  unfold partitionCommit
  dsimp only
  rw [fit, apart, idle]
  rfl

/-- Settles O30: flush walks by their list, partitions by what is staged. -/
theorem walksAndPartitions : Obligations.WalksAndPartitions := by
  unfold Obligations.WalksAndPartitions
  refine ⟨?flush, ?refused, ?step, ?complete, ?commit, ?busy, ?clear⟩
  case flush =>
    intro b e s ok idle
    exact ⟨_, answered_of (flushRange_ok ok idle), rfl, odGet_odSet_same _ 0x4021 4 0, rfl, rfl⟩
  case refused =>
    intro b e s bad
    exact answered_of (flushRange_refused bad)
  case step =>
    intro i w s1 s found more safe token clear
    obtain ⟨od, pow, eq⟩ := walkStep_invalid found more token clear
    have run : execRangeWalkStep i s = _ := (if_neg (by simp [safe])).trans (congrArg Host.Outcome.next eq)
    exact ⟨_, run, rfl, rfl⟩
  case complete =>
    intro i w s found flush ended
    exact ⟨_, congrArg Host.Outcome.next (walkComplete_ends found flush ended), rfl, odGet_odSet_same _ 0x4021 4 65535, rfl⟩
  case commit =>
    intro s idle fit apart
    exact ⟨_, answered_of (partitionCommit_ok idle fit apart), rfl, rfl, rfl, rfl, odGet_odSet_same _ 0x4013 2 1, rfl, rfl⟩
  case busy =>
    intro s busy
    exact answered_of (if_pos busy)
  case clear =>
    intro s busy
    have run : execPartitionClearDone s = _ := if_pos busy
    exact ⟨_, run, rfl, odGet_odSet_same _ 0x4013 2 2, rfl⟩

end Sys2Proof.Proofs.Walks

/-!
Rules about the ports of the Aulum links: their records, the shown state of a link, and what control flits and notices touch.
-/

namespace Sys2Proof.Proofs.Aulum

open Sys2Proof Sys2Proof.Machine Sys2Proof.Laws Sys2Proof.Proofs.Shared

@[simp] theorem aulPort_setAulPort (s : State) (a : Nat) (x : AulPort) : aulPort (setAulPort s a x) a = x := tabGet_set_same ..

theorem aulPort_setAulPort_other (s : State) {a b : Nat} (x : AulPort) (apart : b ≠ a) : aulPort (setAulPort s a x) b = aulPort s b :=
  tabGet_set_other apart ..

theorem aulPort_congr {s t : State} (h : t.aul.ports = s.aul.ports) : aulPort t = aulPort s := by
  funext a; simp only [aulPort, h]

theorem setAulPort_frame (s : State) (a : Nat) (x : AulPort) : ∃ aul, setAulPort s a x = { s with aul := aul } := ⟨_, rfl⟩

theorem linkState_congr {s t : State} (h : t.od = s.od) : linkState t = linkState s := by
  funext a; exact odGet_congr h _ _

@[simp] theorem linkState_setLink (s : State) (a st : Nat) : linkState (setLink s a st) a = st :=
  (odGet_notify ..).trans (odGet_odSet_same ..)

/-- A link's entries other than its state are as they were. -/
theorem odGet_setLink (s : State) (a st i : Nat) {j : Nat} (other : j ≠ 0x10) (small : j < 256) : odGet (setLink s a st) i j = odGet s i j :=
  (odGet_notify ..).trans (odGet_odSet_subs s _ _ i other (by decide) small)

theorem aulPort_bumpC (s : State) (i j : Nat) : aulPort (bumpC s i j) = aulPort s := rfl

theorem aulPort_setLink (s : State) (a st : Nat) : aulPort (setLink s a st) = aulPort s := rfl

theorem setLink_frame (s : State) (a st : Nat) : ∃ od spr perf, setLink s a st = { s with od := od, spr := spr, perf := perf } := ⟨_, _, _, rfl⟩

/-- R258: the port's record after a control flit has been sent. -/
theorem sendControl_frame (s : State) (a kind lane spare : Nat) :
    ∃ o, sendControl s a kind lane spare = emit (setAulPort s a { aulPort s a with parOut := none }) o := ⟨_, rfl⟩

theorem setAulPort_ports (s : State) (a : Nat) (x : AulPort) :
    ∃ ports, setAulPort s a x = { s with aul := { s.aul with ports := ports } } := ⟨_, rfl⟩

theorem sendControl_ports (s : State) (a kind lane spare : Nat) :
    ∃ ports out, sendControl s a kind lane spare = { s with aul := { s.aul with ports := ports }, out := out } := ⟨_, _, rfl⟩

theorem noticeMembers_frame (s : State) : ∃ noticed out, noticeMembers s = { s with aul := { s.aul with noticed := noticed }, out := out } := by
  unfold noticeMembers
  generalize List.range 1024 = l
  refine List.foldlRecOn l _ (motive := fun t : State => ∃ noticed out, t = { s with aul := { s.aul with noticed := noticed }, out := out })
    ⟨_, _, rfl⟩ fun t ht w _ => ?_
  obtain ⟨_, _, rfl⟩ := ht
  split
  · exact ⟨_, _, rfl⟩
  · exact ⟨_, _, rfl⟩

/-- R257: what a port's record keeps when its link goes DOWN. -/
def downPort (x : AulPort) : AulPort :=
  { x with resend := none, nakIn := false, nakDue := false, nakAt := none, parIn := none, parOut := none, asking := none, moving := none }

theorem aulumDown_eq (s : State) (a : Nat) : aulumDown s a = setLink (setAulPort s a (downPort (aulPort s a))) a linkDown := rfl

theorem switchEpoch_known {s : State} {n : Nat} {e : BitVec 32} (known : tabFind? n s.aul.epochs = some e) : switchEpoch s n e = s :=
  if_pos known

end Sys2Proof.Proofs.Aulum

/-!
Guard sets (R236, R237): commit, the swap stage by stage, and the copy to the shadow.
-/

namespace Sys2Proof.Proofs.GuardSets

open Sys2Proof Sys2Proof.Machine Sys2Proof.Laws Sys2Proof.Proofs.Shared

section Idle

variable {s : State} (idle : guardSwapping s = false)
include idle

theorem guardCommit_ok (valid : ∀ p ∈ s.map.guardShadow, ruleInvalid p.2 = false) :
    guardCommit s = (odSet { s with map := { s.map with swapped := [] } } 0x5030 2 1, .ok) := by
  have none' : (s.map.guardShadow.any fun p => ruleInvalid p.2) = false := List.any_eq_false.2 fun p hp => by simp [valid p hp]
  unfold guardCommit
  rw [idle, none']
  rfl

theorem guardCommit_invalid {p : Nat × GuardRule} (rule : p ∈ s.map.guardShadow) (invalid : ruleInvalid p.2 = true) :
    guardCommit s = (odSet s 0x5030 2 3, .ruleInvalid) := by
  have some' : (s.map.guardShadow.any fun p => ruleInvalid p.2) = true := List.any_eq_true.2 ⟨p, rule, invalid⟩
  unfold guardCommit
  rw [idle, some']
  rfl

theorem guardCopy_ok :
    guardCopy s = ({ s with map := { s.map with guardShadow := s.map.guardActive, shadowDefault := odGet s 0x5030 6 } }, .ok) := by
  unfold guardCopy
  rw [idle]
  rfl

end Idle

/-- R236: stage `g` has swapped, and shows the epoch that comes. -/
def stageSwapped (s : State) (g : Nat) : State :=
  odSet { s with map := { s.map with swapped := setInsert g s.map.swapped } } 0x5033 (g + 1) ((odGet s 0x5030 3 + 1) % 2 ^ 32)

section Swapping

variable {s : State} {g : Nat} (swapping : guardSwapping s = true) (first : g ∉ s.map.swapped)
include swapping first

theorem guardSwap_more (more : (setInsert g s.map.swapped).length ≠ 17) : guardSwap s g = stageSwapped s g := by
  unfold guardSwap
  rw [if_pos (by simp [swapping, first])]
  exact if_neg more

theorem guardSwap_last (last : (setInsert g s.map.swapped).length = 17) : guardSwap s g = guardComplete (stageSwapped s g) := by
  unfold guardSwap
  rw [if_pos (by simp [swapping, first])]
  exact if_pos last

end Swapping

/-- R236: OD 5030.03 counts the epoch, and OD 5030.02 says that the swap is over. -/
theorem guardComplete_entries (s : State) :
    odGet (guardComplete s) 0x5030 3 = (odGet s 0x5030 3 + 1) % 2 ^ 32 ∧ odGet (guardComplete s) 0x5030 2 = 2 := by
  unfold guardComplete
  dsimp only
  rw [odGet_notify, odGet_notify, odGet_bumpC, odGet_bumpC]
  refine ⟨?_, odGet_odSet_same ..⟩
  rw [odGet_odSet_subs _ _ _ _ (by decide) (by decide) (by decide), odGet_odSet_same]

theorem guardComplete_counts (s : State) :
    counter (guardComplete s) (counterNo 0xC025 0x0A) = counter s (counterNo 0xC025 0x0A) + 1 := by
  unfold guardComplete
  dsimp only
  rw [counter_notify _ _ _ _ _ (by decide)]
  exact counter_bump_same _ _ 1

theorem guardComplete_map (s : State) : (guardComplete s).map = { s.map with
    guardActive := s.map.guardShadow, guardShadow := s.map.guardActive, shadowDefault := odGet s 0x5030 6, swapped := []
    refusalRaised := false } := rfl

theorem stageSwapped_epoch (s : State) {g : Nat} (stage : g < 17) : odGet (stageSwapped s g) 0x5030 3 = odGet s 0x5030 3 :=
  odGet_odSet_ne _ _ (.inl (by decide)) (by omega) (by decide)

/-- Settles O31: the commit, the swap and the copy of guard sets. -/
theorem guardSets : Obligations.GuardSets := by
  unfold Obligations.GuardSets
  refine ⟨?commit, ?invalid, ?busy, ?stage, ?last, ?copy⟩
  case commit =>
    intro s idle valid
    exact ⟨_, answered_of (guardCommit_ok idle valid), odGet_odSet_same _ 0x5030 2 1, rfl, rfl, rfl⟩
  case invalid =>
    intro p s idle rule invalid
    exact answered_of (guardCommit_invalid idle rule invalid)
  case busy =>
    intro s swapping
    exact ⟨answered_of (if_pos swapping), answered_of (if_pos swapping)⟩
  case stage =>
    intro g s swapping first more
    exact ⟨_, congrArg Host.Outcome.next (guardSwap_more swapping first more), (mem_setInsert ..).2 (.inl rfl), odGet_odSet_same .., rfl⟩
  case last =>
    intro g s swapping first last
    obtain ⟨epoch, done⟩ := guardComplete_entries (stageSwapped s g)
    rw [stageSwapped_epoch s g.isLt] at epoch
    refine ⟨_, congrArg Host.Outcome.next (guardSwap_last swapping first last), ?_, ?_, epoch, done, ?_, ?_, rfl⟩
    · rw [guardComplete_map]
      rfl
    · rw [guardComplete_map]
      rfl
    · rw [guardComplete_map]
    · exact guardComplete_counts _
  case copy =>
    intro s idle
    exact ⟨_, answered_of (guardCopy_ok idle), rfl, rfl, rfl, rfl⟩

end Sys2Proof.Proofs.GuardSets

/-!
States of an Aulum link (R257, R264): enable and disable, the timeouts that take it DOWN, training, and the TS with which it comes UP.
-/

namespace Sys2Proof.Proofs.AulumLinks

open Sys2Proof Sys2Proof.Machine Sys2Proof.Laws Sys2Proof.Proofs.Shared Sys2Proof.Proofs.Aulum

/-! ### Training -/

/-- R257: the port's record when training starts. -/
def trainingPort (x : AulPort) : AulPort := { x with lanes := [0, 1, 2, 3], agreed := false, parOut := none }

theorem startTraining_eq (s : State) (a : Nat) : ∃ o, startTraining s a =
    emit (setAulPort (setLink (setAulPort s a { aulPort s a with lanes := [0, 1, 2, 3], agreed := false }) a linkTraining) a
      (trainingPort (aulPort s a))) o := by
  obtain ⟨o, eq⟩ := sendControl_frame (setLink (setAulPort s a { aulPort s a with lanes := [0, 1, 2, 3], agreed := false }) a linkTraining) a 1 0 0
  refine ⟨o, eq.trans ?_⟩
  rw [aulPort_setLink, aulPort_setAulPort]
  rfl

theorem startTraining_leaves (s : State) (a : Nat) : linkState (startTraining s a) a = linkTraining ∧
    (aulPort (startTraining s a) a).lanes = [0, 1, 2, 3] ∧ (startTraining s a).out.length = s.out.length + 1 ∧
    ∃ od spr perf ports out, startTraining s a = { s with od := od, spr := spr, perf := perf, aul := { s.aul with ports := ports }, out := out } := by
  obtain ⟨o, eq⟩ := startTraining_eq s a
  rw [eq]
  refine ⟨?_, ?_, List.length_append, _, _, _, _, _, rfl⟩
  · exact linkState_setLink ..
  · exact congrArg AulPort.lanes (aulPort_setAulPort ..)

theorem startTraining_entry (s : State) (a i : Nat) {j : Nat} (other : j ≠ 0x10) (small : j < 256) :
    odGet (startTraining s a) i j = odGet s i j := by
  obtain ⟨o, eq⟩ := startTraining_eq s a
  rw [eq]
  exact odGet_setLink _ a linkTraining i other small

/-! ### Enable (R257) -/

/-- R257: the port is enabled, and isolated no more. -/
def enabled (s : State) (a : Nat) : State := { odSet s (aulIdx a) 1 1 with flt := { s.flt with isoAulum := setRemove a s.flt.isoAulum } }

theorem enabled_mayTrain (s : State) {a : Nat} (port : a < 16) : aulMayTrain (enabled s a) a = aulMayTrain s a := by
  have apart : ∀ i j, i < 0x6100 ∨ 0x6110 ≤ i → j < 256 → odGet (enabled s a) i j = odGet s i j := fun i j hi hj =>
    odGet_odSet_ne s 1 (.inl (by unfold aulIdx; omega)) (by decide) hj
  unfold aulMayTrain islandState
  rw [apart 0x3032 _ (.inl (by decide)) (by omega), apart 0x8042 _ (.inr (by decide)) (by omega)]
  rfl

theorem tryTraining_leaves (s : State) (a : Nat) : odGet (tryTraining s a) (aulIdx a) 1 = odGet s (aulIdx a) 1 ∧
    ∃ od spr perf ports out, tryTraining s a = { s with od := od, spr := spr, perf := perf, aul := { s.aul with ports := ports }, out := out } := by
  unfold tryTraining
  split
  · exact ⟨startTraining_entry s a _ (by decide) (by decide), (startTraining_leaves s a).2.2.2⟩
  · exact ⟨odGet_setLink s a _ _ (by decide) (by decide), _, _, _, _, _, rfl⟩

theorem aulumEnable_leaves (s : State) {a : Nat} (port : a < 16) : ∃ t, aulumEnable s a = (t, .ok) ∧ odGet t (aulIdx a) 1 = 1 ∧
    (linkState s a = linkDisabled → aulMayTrain s a = true → linkState t a = linkTraining ∧ (aulPort t a).lanes = [0, 1, 2, 3]) ∧
    ∃ od spr perf ports out, t = { s with
      od := od, spr := spr, perf := perf, flt := { s.flt with isoAulum := setRemove a s.flt.isoAulum }, aul := { s.aul with ports := ports }
      out := out } := by
  have shown : odGet (enabled s a) (aulIdx a) 1 = 1 := odGet_odSet_same s (aulIdx a) 1 1
  unfold aulumEnable
  dsimp only
  split
  · obtain ⟨kept, od, spr, perf, ports, out, eq⟩ := tryTraining_leaves (enabled s a) a
    refine ⟨_, rfl, kept.trans shown, fun _ may => ?_, od, spr, perf, ports, out, eq⟩
    have trains : tryTraining (enabled s a) a = startTraining (enabled s a) a := if_pos ((enabled_mayTrain s port).trans may)
    obtain ⟨training, lanes, -⟩ := startTraining_leaves (enabled s a) a
    rw [← trains] at training lanes
    exact ⟨training, lanes⟩
  · next stays =>
    refine ⟨_, rfl, shown, fun disabled may => absurd ⟨disabled, ?_⟩ stays, _, _, _, _, _, rfl⟩
    simp only [aulMayTrain, Bool.and_eq_true, decide_eq_true_eq] at may
    exact may.1.2

/-! ### DOWN (R257) -/

theorem aulumDown_leaves (s : State) (a : Nat) : linkState (aulumDown s a) a = linkDown ∧
    aulPort (aulumDown s a) a = downPort (aulPort s a) ∧ (∀ b, b ≠ a → aulPort (aulumDown s a) b = aulPort s b) ∧
    ∃ od spr perf ports, aulumDown s a = { s with od := od, spr := spr, perf := perf, aul := { s.aul with ports := ports } } := by
  rw [aulumDown_eq]
  refine ⟨linkState_setLink .., ?_, fun b apart => ?_, _, _, _, _, rfl⟩
  · rw [aulPort_setLink, aulPort_setAulPort]
  · rw [aulPort_setLink, aulPort_setAulPort_other _ _ apart]

/-- R257: each of the three timeouts takes its link DOWN. -/
theorem exec_timeout {s : State} {a : Fin 16} {c : Instr}
    (late : (c = .trainingTimeout a ∧ linkState s a.val = linkTraining ∧ (aulPort s a.val).agreed = false) ∨
      (c = .syncLoss a ∧ linkState s a.val = linkUp) ∨ (c = .pauseTimeout a ∧ linkState s a.val = linkPaused)) :
    exec c s = .next (aulumDown s a) := by
  rcases late with ⟨rfl, training, open'⟩ | ⟨rfl, up⟩ | ⟨rfl, paused⟩
  · exact if_pos ⟨training, by rw [open']; rfl⟩
  · exact if_pos up
  · exact if_pos paused

/-! ### The TS with which a link comes UP (R257) -/

/-- R257: the record of a port whose link comes UP with the partner of `c`. -/
def upPort (y : AulPort) (c : Control) : AulPort :=
  { y with
    partner := some { switch := c.switch, port := c.port, epoch := c.epoch, swEpoch := c.swEpoch }
    credInit := ((List.range 16).map fun v => (v, (c.credits.extractLsb' (8 * v) 8).toNat)).filter fun p => decide (p.2 ≠ 0)
    seen := [], freedTotal := [], sent := [], freed := [], told := [], group := 0, parIn := none, parOut := none, lanes := [0, 1, 2, 3]
    nakIn := false, nakDue := false, nakAt := none, denied := 0, refused := false, agreed := false }

/-- R257: the link is UP with version `v`, on four lanes, with the partner of `c`. -/
def broughtUp (s : State) (a v : Nat) (c : Control) : State :=
  setLink (odSet (odSet (odSet (odSet (odSet (setAulPort s a (upPort (aulPort s a) c)) (aulIdx a) 0x11 v) (aulIdx a) 0x12 4)
    (aulIdx a) 0x13 c.switch) (aulIdx a) 0x14 c.port) (aulIdx a) 0x16 c.epoch.toNat) a linkUp

theorem enterUp_first {s : State} {a : Nat} (fresh : (aulPort s a).partner = none) (v : Nat) (c : Control) :
    enterUp s a v [0, 1, 2, 3] c =
      noticeMembers (broughtUp (setAulPort s a { aulPort s a with seq := 0, expect := 0, ack := 4095, accepted := 0 }) a v c) := by
  unfold enterUp
  dsimp only
  rw [fresh]
  dsimp only
  rw [if_neg (by decide)]
  rfl

theorem enterUp_again {s : State} {a : Nat} {c : Control}
    (same : (aulPort s a).partner = some { switch := c.switch, port := c.port, epoch := c.epoch, swEpoch := c.swEpoch }) (v : Nat) :
    enterUp s a v [0, 1, 2, 3] c = noticeMembers (broughtUp (setAulPort s a (replayFrom (aulPort s a) c.next)) a v c) := by
  unfold enterUp
  dsimp only
  rw [same]
  dsimp only
  simp only [ne_eq, not_true_eq_false, if_false]
  rw [if_neg (by decide)]
  rfl

/-- R257: what a port shows once its link is UP. -/
structure Up (s t : State) (a v : Nat) (c : Control) (y : AulPort) : Prop where
  state : linkState t a = linkUp
  version : linkVersion t a = v
  width : odGet t (aulIdx a) 0x12 = 4
  switch : odGet t (aulIdx a) 0x13 = c.switch
  epoch : odGet t (aulIdx a) 0x16 = c.epoch.toNat
  port : aulPort t a = upPort y c
  touched : ∃ od spr perf aul out, t = { s with od := od, spr := spr, perf := perf, aul := aul, out := out }

/-- A link that came UP from a state with another Aulum state or other outputs. -/
theorem Up.of_frame {s u t : State} {a v : Nat} {c : Control} {y : AulPort} (h : Up u t a v c y)
    (frame : ∃ aul out, u = { s with aul := aul, out := out }) : Up s t a v c y := by
  refine { h with touched := ?_ }
  obtain ⟨_, _, _, _, _, rfl⟩ := h.touched
  obtain ⟨_, _, rfl⟩ := frame
  exact ⟨_, _, _, _, _, rfl⟩

theorem broughtUp_frame (s : State) (a v : Nat) (c : Control) :
    ∃ od spr perf aul, broughtUp s a v c = { s with od := od, spr := spr, perf := perf, aul := aul } := by
  unfold broughtUp
  obtain ⟨_, set⟩ := setAulPort_frame s a (upPort (aulPort s a) c)
  obtain ⟨_, _, _, linked⟩ := setLink_frame (odSet (odSet (odSet (odSet (odSet (setAulPort s a (upPort (aulPort s a) c)) (aulIdx a) 0x11 v)
    (aulIdx a) 0x12 4) (aulIdx a) 0x13 c.switch) (aulIdx a) 0x14 c.port) (aulIdx a) 0x16 c.epoch.toNat) a linkUp
  rw [linked, set]
  exact ⟨_, _, _, _, rfl⟩

theorem broughtUp_up (s : State) (a v : Nat) (c : Control) : Up s (noticeMembers (broughtUp s a v c)) a v c (aulPort s a) := by
  obtain ⟨noticed, out, eq⟩ := noticeMembers_frame (broughtUp s a v c)
  obtain ⟨_, _, _, _, frame⟩ := broughtUp_frame s a v c
  have touched : ∃ od spr perf aul o, { broughtUp s a v c with aul := { (broughtUp s a v c).aul with noticed := noticed }, out := out } =
      { s with od := od, spr := spr, perf := perf, aul := aul, out := o } := by
    rw [frame]
    exact ⟨_, _, _, _, _, rfl⟩
  rw [eq]
  refine ⟨linkState_setLink .., ?_, ?_, ?_, ?_, aulPort_setAulPort s a (upPort (aulPort s a) c), touched⟩
  · refine (odGet_setLink _ a linkUp (aulIdx a) (by decide) (by decide)).trans ?_
    rw [odGet_odSet_subs _ _ _ _ (by decide) (by decide) (by decide), odGet_odSet_subs _ _ _ _ (by decide) (by decide) (by decide),
      odGet_odSet_subs _ _ _ _ (by decide) (by decide) (by decide), odGet_odSet_subs _ _ _ _ (by decide) (by decide) (by decide),
      odGet_odSet_same]
  · refine (odGet_setLink _ a linkUp (aulIdx a) (by decide) (by decide)).trans ?_
    rw [odGet_odSet_subs _ _ _ _ (by decide) (by decide) (by decide), odGet_odSet_subs _ _ _ _ (by decide) (by decide) (by decide),
      odGet_odSet_subs _ _ _ _ (by decide) (by decide) (by decide), odGet_odSet_same]
  · refine (odGet_setLink _ a linkUp (aulIdx a) (by decide) (by decide)).trans ?_
    rw [odGet_odSet_subs _ _ _ _ (by decide) (by decide) (by decide), odGet_odSet_subs _ _ _ _ (by decide) (by decide) (by decide),
      odGet_odSet_same]
  · refine (odGet_setLink _ a linkUp (aulIdx a) (by decide) (by decide)).trans ?_
    rw [odGet_odSet_same]

theorem aulOnly_answer (s : State) (a : Nat) (x y z : AulPort) (o : Out) :
    ∃ aul out, emit (setAulPort (setAulPort (setAulPort s a x) a y) a z) o = { s with aul := aul, out := out } := by
  obtain ⟨_, first⟩ := setAulPort_frame s a x
  obtain ⟨_, second⟩ := setAulPort_frame (setAulPort s a x) a y
  obtain ⟨_, third⟩ := setAulPort_frame (setAulPort (setAulPort s a x) a y) a z
  rw [third, second, first]
  exact ⟨_, _, rfl⟩

/-- R257: the record of a port that has answered a TS on four lanes. -/
def answeredPort (x : AulPort) (spares : BitVec 2) : AulPort := { x with parIn := none, lanes := [0, 1, 2, 3], spares := spares, parOut := none }

theorem trainingSet_up {s : State} {a v : Nat} {c : Control} (training : linkState s a = linkTraining) (width : c.width = 4)
    (agreed : agreedVersion s a c = some v) (taken : versionRefused s a v = false) (known : tabFind? c.switch s.aul.epochs = some c.swEpoch)
    (spares : BitVec 2) :
    ∃ u, trainingSet (gotControl s a) a 15 spares c = enterUp u a v [0, 1, 2, 3] c ∧ aulPort u a = answeredPort (aulPort s a) spares ∧
      ∃ aul out, u = { s with aul := aul, out := out } := by
  have lanes : trainLanes 15 = [0, 1, 2, 3] := rfl
  have shown : linkState (gotControl s a) a = linkTraining := training
  unfold trainingSet
  dsimp only
  rw [shown, if_neg (show ¬linkTraining = linkUp by decide), if_pos (show linkTraining = linkTraining from rfl), switchEpoch_known (s := gotControl s a) known, lanes]
  rw [show agreedVersion (gotControl s a) a c = some v from agreed]
  dsimp only
  rw [if_neg (show ¬([0, 1, 2, 3].length ≠ c.width ∨ [0, 1, 2, 3].isEmpty = true) by rw [width]; decide), show versionRefused (gotControl s a) a v = false from taken, if_neg Bool.false_ne_true]
  obtain ⟨o, sent⟩ := sendControl_frame (setAulPort (gotControl s a) a { aulPort (gotControl s a) a with lanes := [0, 1, 2, 3], spares := spares })
    a 1 0 0
  rw [sent]
  refine ⟨_, rfl, ?_, aulOnly_answer ..⟩
  refine (aulPort_setAulPort ..).trans ?_
  rw [aulPort_setAulPort, gotControl, aulPort_setAulPort]
  rfl

theorem replayFrom_congr {x y : AulPort} (h : y.replay = x.replay) (next : BitVec 12) :
    (replayFrom y next).replay = (replayFrom x next).replay := by
  unfold replayFrom
  rw [h]

/-- R257: the TS of a partner that the port knows, or of the first one, takes the link UP. -/
theorem trainingSet_leaves {s : State} {a v : Nat} {c : Control} (training : linkState s a = linkTraining) (width : c.width = 4)
    (agreed : agreedVersion s a c = some v) (taken : versionRefused s a v = false) (known : tabFind? c.switch s.aul.epochs = some c.swEpoch)
    (own : (aulPort s a).partner = none ∨ (aulPort s a).partner =
      some { switch := c.switch, port := c.port, epoch := c.epoch, swEpoch := c.swEpoch }) (spares : BitVec 2) :
    ∃ y, Up s (trainingSet (gotControl s a) a 15 spares c) a v c y ∧ ((aulPort s a).partner = none → y.expect = 0) ∧
      ((aulPort s a).partner ≠ none → y.replay = (replayFrom (aulPort s a) c.next).replay) := by
  obtain ⟨u, eq, port, aul, out, frame⟩ := trainingSet_up training width agreed taken known spares
  have partner : (aulPort u a).partner = (aulPort s a).partner := by rw [port]; rfl
  have framed : ∀ x, ∃ aul out, setAulPort u a x = { s with aul := aul, out := out } := fun x => by
    rw [frame]
    exact ⟨_, _, rfl⟩
  rw [eq]
  rcases own with fresh | same
  · rw [enterUp_first (partner.trans fresh)]
    have up := broughtUp_up (setAulPort u a { aulPort u a with seq := 0, expect := 0, ack := 4095, accepted := 0 }) a v c
    rw [aulPort_setAulPort] at up
    exact ⟨_, up.of_frame (framed _), fun _ => rfl, fun met => absurd fresh met⟩
  · rw [enterUp_again (partner.trans same)]
    have up := broughtUp_up (setAulPort u a (replayFrom (aulPort u a) c.next)) a v c
    rw [aulPort_setAulPort] at up
    exact ⟨_, up.of_frame (framed _), fun fresh => absurd (same.symm.trans fresh) (Option.some_ne_none _),
      fun _ => replayFrom_congr (by rw [port]; rfl) _⟩

/-- Settles O32: how an Aulum link is enabled, disabled, trained, taken DOWN and brought UP. -/
theorem aulumLinkStates : Obligations.AulumLinkStates := by
  unfold Obligations.AulumLinkStates
  refine ⟨?enable, ?disable, ?active, ?down, ?retrain, ?up, ?again⟩
  case enable =>
    intro a s
    obtain ⟨t, eq, shown, trains, od, spr, perf, ports, out, rfl⟩ := aulumEnable_leaves s a.isLt
    exact ⟨_, answered_of eq, shown, fun h => ((mem_setRemove ..).1 h).2 rfl, List.getLast?_concat, trains, rfl⟩
  case disable =>
    intro a s may
    by_cases disabled : linkState s a = linkDisabled
    · have eq : aulumDisable s a = (odSet s (aulIdx a) 1 0, .ok) := if_pos disabled
      exact ⟨_, answered_of eq, odGet_odSet_same s (aulIdx a) 1 0,
        (odGet_odSet_subs s _ _ _ (by decide) (by decide) (by decide)).trans disabled, rfl, rfl⟩
    · have eq : aulumDisable s a = (setLink (odSet (aulumDown s a) (aulIdx a) 1 0) a linkDisabled, .ok) :=
        (if_neg disabled).trans (if_pos (may.resolve_left disabled))
      obtain ⟨od, spr, perf, ports, frame⟩ := (aulumDown_leaves s a).2.2.2
      refine ⟨_, answered_of eq, ?_, linkState_setLink .., ?_, ?_⟩
      · exact (odGet_setLink _ a linkDisabled _ (by decide) (by decide)).trans (odGet_odSet_same ..)
      · rw [frame]
        rfl
      · rw [frame]
        rfl
  case active =>
    intro a s enabled waits
    have eq : aulumDisable s a = (s, .portActive) := (if_neg enabled).trans (if_neg (by rw [waits]; exact Bool.false_ne_true))
    exact answered_of eq
  case down =>
    intro a c s late
    obtain ⟨down, port, others, od, spr, perf, ports, frame⟩ := aulumDown_leaves s a
    refine ⟨_, exec_timeout late, down, ?_, ?_, ?_, others, ?_⟩
    · rw [port]
      rfl
    · rw [port]
      rfl
    · rw [port]
      rfl
    · rw [frame]
  case retrain =>
    intro a s may waits
    obtain ⟨training, lanes, out, od, spr, perf, ports, out', frame⟩ := startTraining_leaves s a
    refine ⟨_, if_pos ⟨may, waits⟩, training, lanes, out, ?_⟩
    rw [frame]
  case up =>
    intro a spares f c v s decoded training width agreed taken known own
    obtain ⟨y, up, first, again⟩ := trainingSet_leaves training width agreed taken known own spares
    have run : execTs a 15 spares f s = .next (trainingSet (gotControl s a) a 15 spares c) := by
      unfold execTs
      rw [decoded]
    refine ⟨_, run, up.state, up.version, up.width, up.switch, up.epoch, ?_, ?_, fun fresh => ?_, fun met => ?_, ?_⟩
    · rw [up.port]
      rfl
    · rw [up.port]
      rfl
    · rw [up.port]
      exact first fresh
    · rw [up.port]
      exact again met
    · obtain ⟨od, spr, perf, aul, out, frame⟩ := up.touched
      rw [frame]
  case again =>
    intro a work spares f c s decoded up
    have run : execTs a work spares f s = .next (aulumDown (switchEpoch (gotControl s a) c.switch c.swEpoch) a) := by
      unfold execTs
      rw [decoded]
      exact congrArg Host.Outcome.next (if_pos up)
    have kept := execTs_keep a work spares f s
    rw [run] at kept
    exact ⟨_, run, (aulumDown_leaves _ a).1, kept.1⟩

end Sys2Proof.Proofs.AulumLinks

/-!
Lane sparing (R254, R255) and the keys of an encrypted Aulum link (R460, R461, R463).
-/

namespace Sys2Proof.Proofs.AulumSparing

open Sys2Proof Sys2Proof.Machine Sys2Proof.Laws Sys2Proof.Proofs.Shared Sys2Proof.Proofs.Aulum

/-! ### What a control flit that has come changes -/

/-- R253: the record of a port that has received a control flit. -/
def gotPort (x : AulPort) : AulPort := { x with parIn := none }

theorem gotControl_eq (s : State) (a : Nat) : gotControl s a = setAulPort s a (gotPort (aulPort s a)) := rfl

theorem aulPort_gotControl (s : State) (a : Nat) : aulPort (gotControl s a) a = gotPort (aulPort s a) := aulPort_setAulPort ..

theorem aulPort_gotControl_other (s : State) {a b : Nat} (apart : b ≠ a) : aulPort (gotControl s a) b = aulPort s b :=
  aulPort_setAulPort_other _ _ apart

theorem gotControl_frame (s : State) (a : Nat) : ∃ ports, gotControl s a = { s with aul := { s.aul with ports := ports } } := ⟨_, rfl⟩

/-! ### Pausing for a move (R254) -/

theorem pauseFor_leaves (s : State) (a i k : Nat) : linkState (pauseFor s a i k) a = linkPaused ∧
    aulPort (pauseFor s a i k) a = { aulPort s a with asking := none, moving := some (i, k) } ∧ (pauseFor s a i k).out = s.out ∧
    ∃ od spr perf ports, pauseFor s a i k = { s with od := od, spr := spr, perf := perf, aul := { s.aul with ports := ports } } := by
  refine ⟨linkState_setLink .., ?_, rfl, _, _, _, _, rfl⟩
  unfold pauseFor
  rw [aulPort_setLink, aulPort_setAulPort]

/-- R254: whether a spare is free looks at what each port of the die asks for and moves. -/
theorem spareFree_congr {s t : State} (od : t.od = s.od) (same : ∀ b, (aulPort t b).asking = (aulPort s b).asking ∧
    (aulPort t b).moving = (aulPort s b).moving) : spareFree t = spareFree s := by
  have lanes : ∀ b i, physLane t b i = physLane s b i := fun b i => by unfold physLane; rw [odGet_congr od]
  funext a k
  unfold spareFree
  simp only [lanes, (same _).1, (same _).2]

/-! ### A request for a spare (R254) -/

section Request

variable {s : State} {a : Nat} {c : Control} (up : linkState s a = linkUp) (version : linkVersion s a = 2)
  (idle : (aulPort s a).asking = none)
include up version idle

theorem spareReq_taken (spare : 16 ≤ c.spare % 18) (lane : c.lane < 4) (connected : (aulPort s a).spares.getLsbD (c.spare % 18 - 16) = true)
    (free : spareFree s a (spareLane a (c.spare % 18 - 16)) = true) :
    spareReq s a c = pauseFor (sendControl (setAulPort s a { aulPort s a with asking := none }) a 3 c.lane (spareLane a (c.spare % 18 - 16)))
      a c.lane (spareLane a (c.spare % 18 - 16)) := by
  have still : spareFree (setAulPort s a { aulPort s a with asking := none }) = spareFree s :=
    spareFree_congr rfl fun b => by
      by_cases same : b = a
      · subst same
        rw [aulPort_setAulPort]
        exact ⟨idle.symm, rfl⟩
      · rw [aulPort_setAulPort_other _ _ same]
        exact ⟨rfl, rfl⟩
  unfold spareReq
  dsimp only
  rw [if_neg (by simp [up, version]), idle]
  simp only [Option.isSome_none, Bool.false_and, Bool.false_eq_true, if_false, Bool.not_false, Bool.true_and, still, free, connected, lane,
    spare, decide_true, if_true]

omit idle in
theorem spareReq_refused (bad : c.spare % 18 < 16 ∨ 4 ≤ c.lane) : spareReq s a c = sendControl s a 4 0 0 := by
  unfold spareReq
  dsimp only
  rw [if_neg (by simp [up, version])]
  refine if_neg fun all => ?_
  simp only [Bool.and_eq_true, decide_eq_true_eq] at all
  omega

end Request

theorem ownControl_gotControl (s : State) (a lane spare : Nat) : ownControl (gotControl s a) a 4 lane spare = ownControl s a 4 lane spare := by
  unfold ownControl
  dsimp only
  rw [aulPort_gotControl, if_neg (by decide), if_neg (by decide)]
  rfl

/-- R254: the control flits of a request come and go at the port alone. -/
theorem answered_frame (s : State) (a : Nat) (x : AulPort) (kind lane spare : Nat) :
    ∃ ports out, sendControl (setAulPort (gotControl s a) a x) a kind lane spare =
      { s with aul := { s.aul with ports := ports }, out := out } := by
  obtain ⟨_, got⟩ := gotControl_frame s a
  obtain ⟨_, set⟩ := setAulPort_ports (gotControl s a) a x
  obtain ⟨_, _, sent⟩ := sendControl_ports (setAulPort (gotControl s a) a x) a kind lane spare
  rw [sent, set, got]
  exact ⟨_, _, rfl⟩

/-! ### Another request (R255) -/

/-- What seeking a spare leaves: the port's place of the lanes it moves, what it has been denied and its replay; every other port. -/
structure Seeks (s t : State) (a : Nat) : Prop where
  denied : (aulPort t a).denied = (aulPort s a).denied
  moving : (aulPort t a).moving = (aulPort s a).moving
  replay : (aulPort t a).replay = (aulPort s a).replay
  others : ∀ b, b ≠ a → aulPort t b = aulPort s b
  touched : ∃ flt ports out, t = { s with flt := flt, aul := { s.aul with ports := ports }, out := out }

namespace Seeks

variable {s t u : State} {a : Nat}

theorem refl (s : State) (a : Nat) : Seeks s s a := ⟨rfl, rfl, rfl, fun _ _ => rfl, _, _, _, rfl⟩

theorem trans (h : Seeks s t a) (g : Seeks t u a) : Seeks s u a := by
  refine ⟨g.denied.trans h.denied, g.moving.trans h.moving, g.replay.trans h.replay, fun b apart => (g.others b apart).trans (h.others b apart), ?_⟩
  obtain ⟨_, _, _, rfl⟩ := h.touched
  obtain ⟨_, _, _, rfl⟩ := g.touched
  exact ⟨_, _, _, rfl⟩

theorem setAulPort (s : State) {a : Nat} {x : AulPort} (denied : x.denied = (aulPort s a).denied) (moving : x.moving = (aulPort s a).moving)
    (replay : x.replay = (aulPort s a).replay) : Seeks s (setAulPort s a x) a := by
  have record := aulPort_setAulPort s a x
  refine ⟨?_, ?_, ?_, fun b apart => aulPort_setAulPort_other s x apart, _, _, _, rfl⟩
  · rw [record, denied]
  · rw [record, moving]
  · rw [record, replay]

theorem emit (s : State) (a : Nat) (o : Out) : Seeks s (emit s o) a := ⟨rfl, rfl, rfl, fun _ _ => rfl, _, _, _, rfl⟩

theorem sendControl (s : State) (a kind lane spare : Nat) : Seeks s (sendControl s a kind lane spare) a :=
  (setAulPort s (x := { aulPort s a with parOut := none }) rfl rfl rfl).trans (emit ..)

theorem raiseFault (s : State) (a f c d : Nat) : Seeks s (raiseFault s f c d) a := by
  rw [raiseFault_frame]
  exact ⟨rfl, rfl, rfl, fun _ _ => rfl, _, _, _, rfl⟩

end Seeks

theorem seekSpare_seeks (s : State) (a : Nat) : Seeks s (seekSpare s a) a := by
  unfold seekSpare
  dsimp only
  split
  · exact .refl s a
  · split
    · exact .refl s a
    · next i _ =>
      split
      · next j _ =>
        exact (Seeks.setAulPort s (x := { aulPort s a with asking := some (i, spareLane a j) }) rfl rfl rfl).trans (.sendControl ..)
      · split
        · exact .refl s a
        · exact (Seeks.setAulPort s (x := { aulPort s a with sparesOut := true }) rfl rfl rfl).trans (.raiseFault ..)

theorem Seeks.od {s t : State} {a : Nat} (h : Seeks s t a) : t.od = s.od := by obtain ⟨_, _, _, rfl⟩ := h.touched; rfl

theorem spareRefused_asking {s : State} {a i k : Nat} (asks : (aulPort s a).asking = some (i, k)) :
    spareRefused s a =
      seekSpare (setAulPort s a { aulPort s a with asking := none, denied := (aulPort s a).denied ||| BitVec.twoPow 2 (k % 18 - 16) }) a := by
  unfold spareRefused
  dsimp only
  rw [asks]

theorem spareRefused_idle {s : State} {a : Nat} (idle : (aulPort s a).asking = none) : spareRefused s a = s := by
  unfold spareRefused
  dsimp only
  rw [idle]

/-! ### RESUME (R254) -/

/-- R254: the lane register after lane `i` has moved to `k`. -/
def movedLanes (s : State) (a i k : Nat) : Nat := odGet s (aulIdx a) 0x17 - physLane s a i * 2 ^ (8 * i) + k * 2 ^ (8 * i)

theorem laneMoved_leaves (s : State) (a i k : Nat) : odGet (laneMoved s a i k) (aulIdx a) 0x17 = movedLanes s a i k ∧
    linkState (laneMoved s a i k) a = linkState s a ∧
    aulPort (laneMoved s a i k) a = { aulPort s a with moving := none, faults := tabDel i (aulPort s a).faults } := by
  unfold laneMoved
  extract_lets old m s1 x
  obtain ⟨flt, perf, made⟩ := culletMake_frame (setAulPort s1 a { x with moving := none, faults := tabDel i x.faults }) 1 1
    (a * 2 ^ 16 + k * 256 + old) .active
  rw [made]
  refine ⟨?_, ?_, aulPort_setAulPort ..⟩
  · have lanes : odGet s1 (aulIdx a) 0x17 = movedLanes s a i k := (odGet_bumpC ..).trans (odGet_odSet_same ..)
    exact (odGet_congr rfl _ _).trans lanes
  · have state : odGet s1 (aulIdx a) 0x10 = odGet s (aulIdx a) 0x10 :=
      (odGet_bumpC ..).trans (odGet_odSet_subs _ _ _ _ (by decide) (by decide) (by decide))
    exact (odGet_congr rfl _ _).trans state

theorem sendControl_od (s : State) (a kind lane spare : Nat) : (sendControl s a kind lane spare).od = s.od := rfl

theorem sendControl_port (s : State) (a kind lane spare : Nat) :
    aulPort (sendControl s a kind lane spare) a = { aulPort s a with parOut := none } := aulPort_setAulPort ..

theorem sendResume_leaves (s : State) (a : Nat) : (aulPort (sendResume s a) a).moving = none ∧
    (aulPort (sendResume s a) a).replay = (aulPort s a).replay ∧
    ∀ i k, (aulPort s a).moving = some (i, k) → odGet (sendResume s a) (aulIdx a) 0x17 = movedLanes s a i k := by
  unfold sendResume
  split
  · next i k moves =>
    obtain ⟨lanes, -, port⟩ := laneMoved_leaves s a i k
    rw [sendControl_port, port]
    refine ⟨rfl, rfl, fun i' k' same => ?_⟩
    rw [moves] at same
    cases same
    exact (odGet_congr (sendControl_od ..) _ _).trans lanes
  · next rests => exact ⟨rests, rfl, fun i k moves => by rw [moves] at rests; cases rests⟩

theorem resume_paused {s : State} {a : Nat} (paused : linkState s a = linkPaused) (c : Control) :
    resume s a c =
      seekSpare (setLink (setAulPort (sendResume s a) a { replayFrom (aulPort (sendResume s a) a) c.next with denied := 0 }) a linkUp) a :=
  if_pos paused

theorem replayFrom_replay {x y : AulPort} (h : y.replay = x.replay) (next : BitVec 12) :
    (replayFrom y next).replay = (replayFrom x next).replay := by
  unfold replayFrom
  rw [h]

theorem replayFrom_moving (x : AulPort) (next : BitVec 12) : (replayFrom x next).moving = x.moving := rfl

theorem resume_leaves {s : State} {a : Nat} (paused : linkState s a = linkPaused) (c : Control) : linkState (resume s a c) a = linkUp ∧
    (aulPort (resume s a c) a).replay = (replayFrom (aulPort s a) c.next).replay ∧ (aulPort (resume s a c) a).moving = none ∧
    ∀ i k, (aulPort s a).moving = some (i, k) → odGet (resume s a c) (aulIdx a) 0x17 = movedLanes s a i k := by
  obtain ⟨moved, replay, lanes⟩ := sendResume_leaves s a
  rw [resume_paused paused]
  have seeks := seekSpare_seeks
    (setLink (setAulPort (sendResume s a) a { replayFrom (aulPort (sendResume s a) a) c.next with denied := 0 }) a linkUp) a
  have record : aulPort (setLink (setAulPort (sendResume s a) a { replayFrom (aulPort (sendResume s a) a) c.next with denied := 0 }) a linkUp) a =
      { replayFrom (aulPort (sendResume s a) a) c.next with denied := 0 } := by rw [aulPort_setLink, aulPort_setAulPort]
  refine ⟨?_, ?_, ?_, fun i k moves => ?_⟩
  · rw [linkState_congr seeks.od, linkState_setLink]
  · rw [seeks.replay, record]
    exact replayFrom_replay replay _
  · rw [seeks.moving, record]
    exact moved
  · rw [odGet_congr seeks.od, odGet_setLink _ _ _ _ (by decide) (by decide)]
    exact lanes i k moves

/-! ### Keys (R460, R461, R463) -/

theorem rxKey_setRx (x : AulPort) (k : Bool) (v : Option (BitVec 256)) : (x.setRx k v).rxKey k = v ∧ (x.setRx k v).rxKey (!k) = x.rxKey (!k) := by
  cases k
  · exact ⟨rfl, rfl⟩
  · exact ⟨rfl, rfl⟩

theorem txKey_setTx (x : AulPort) (k : Bool) (v : Option (BitVec 256)) : (x.setTx k v).txKey k = v ∧ (x.setTx k v).txKey (!k) = x.txKey (!k) := by
  cases k
  · exact ⟨rfl, rfl⟩
  · exact ⟨rfl, rfl⟩

theorem keyWrite_mode {m : Mode} (open' : m ≠ .encrypted) (s : State) (a : Nat) (tx k : Bool) (key : BitVec 256) :
    keyWrite s a tx k key m = (s, .notPermitted) := if_pos open'

theorem keyWrite_rx {s : State} {a : Nat} {k : Bool} (unused : (aulPort s a).rxKey k = none ∨ rxSet s a ≠ k) (key : BitVec 256) :
    keyWrite s a false k key .encrypted = (setAulPort s a ((aulPort s a).setRx k (some key)), .ok) := by
  unfold keyWrite
  dsimp only
  rw [if_neg (fun h => h rfl), if_neg Bool.false_ne_true, if_neg]
  rcases unused with none' | other
  · simp [none']
  · simp [other]

theorem keyWrite_tx {s : State} {a : Nat} {k : Bool} (unused : (aulPort s a).txKey k = none) (key : BitVec 256) :
    keyWrite s a true k key .encrypted = (setAulPort s a ((aulPort s a).setTx k (some key)), .ok) := by
  unfold keyWrite
  dsimp only
  rw [if_neg (fun h => h rfl), if_pos rfl, if_neg (by simp [unused])]

theorem keyWrite_busy {s : State} {a : Nat} {tx k : Bool}
    (used : if tx then (aulPort s a).txKey k ≠ none ∧ txSet s a = k else (aulPort s a).rxKey k ≠ none ∧ rxSet s a = k) (key : BitVec 256) :
    keyWrite s a tx k key .encrypted = (s, .busy) := by
  unfold keyWrite
  dsimp only
  rw [if_neg (fun h => h rfl)]
  cases tx
  · obtain ⟨held, active⟩ := used
    rw [if_neg Bool.false_ne_true, if_pos (by simp [active, Option.isSome_iff_ne_none, held])]
  · obtain ⟨held, active⟩ := used
    rw [if_pos rfl, if_pos (by simp [active, Option.isSome_iff_ne_none, held])]

theorem aulPort_emit (s : State) (o : Out) (a : Nat) : aulPort (emit s o) a = aulPort s a := rfl

/-- Settles O33: sparing of lanes, RESUME, keys, rollover and the group timeout. -/
theorem aulumSparingAndKeys : Obligations.AulumSparingAndKeys := by
  unfold Obligations.AulumSparingAndKeys
  refine ⟨?taken, ?refused, ?ack, ?refuse, ?stray, ?resume, ?mode, ?rx, ?tx, ?busy, ?rollover, ?wrong, ?mac⟩
  case taken =>
    intro a f c s decoded up version idle spare lane connected free
    have port := aulPort_gotControl s a
    have still : spareFree (gotControl s a) = spareFree s := spareFree_congr rfl fun b => by
      by_cases same : b = a
      · subst same
        rw [port]
        exact ⟨rfl, rfl⟩
      · rw [aulPort_gotControl_other _ same]
        exact ⟨rfl, rfl⟩
    have eq := spareReq_taken (s := gotControl s a) (a := a) (c := c) up version (by rw [port]; exact idle) spare lane
      (by rw [port]; exact connected) (by rw [still]; exact free)
    have run : execSpareReq a f s = .next (spareReq (gotControl s a) a c) := by
      unfold execSpareReq
      rw [decoded]
    obtain ⟨o, sent⟩ := sendControl_frame (setAulPort (gotControl s a) a { aulPort (gotControl s a) a with asking := none }) a 3 c.lane
      (spareLane a (c.spare % 18 - 16))
    obtain ⟨paused, record, out, od, spr, perf, ports, frame⟩ := pauseFor_leaves
      (sendControl (setAulPort (gotControl s a) a { aulPort (gotControl s a) a with asking := none }) a 3 c.lane
        (spareLane a (c.spare % 18 - 16))) a c.lane (spareLane a (c.spare % 18 - 16))
    rw [eq] at run
    refine ⟨_, run, paused, ?_, ?_, ?_⟩
    · rw [record]
    · rw [out, sent]
      exact List.length_append
    · obtain ⟨ports', out', answered⟩ := answered_frame s a { aulPort (gotControl s a) a with asking := none } 3 c.lane
        (spareLane a (c.spare % 18 - 16))
      rw [frame, answered]
  case refused =>
    intro a f c s decoded up version idle bad
    have eq := spareReq_refused (s := gotControl s a) (a := a) (c := c) up version bad
    have run : execSpareReq a f s = .next (sendControl (gotControl s a) a 4 0 0) := by
      unfold execSpareReq
      rw [decoded]
      exact congrArg Host.Outcome.next eq
    have still : linkState (sendControl (gotControl s a) a 4 0 0) a = linkUp := (congrFun (linkState_congr (sendControl_od ..)) a).trans up
    obtain ⟨_, got⟩ := gotControl_frame s a
    obtain ⟨_, _, sent⟩ := sendControl_ports (gotControl s a) a 4 0 0
    refine ⟨_, run, ?_, still, by rw [sent, got]⟩
    unfold sendControl
    dsimp only
    rw [aulPort_gotControl, ownControl_gotControl]
    rfl
  case ack =>
    intro a f c i k s decoded up asks
    have run : execSpareAck a f s = .next (pauseFor (gotControl s a) a i k) := by
      unfold execSpareAck
      dsimp only
      rw [decoded, asks]
      exact if_pos up
    obtain ⟨paused, record, -, od, spr, perf, ports, frame⟩ := pauseFor_leaves (gotControl s a) a i k
    refine ⟨_, run, paused, ?_, ?_, ?_⟩
    · rw [record]
    · rw [record]
    · obtain ⟨_, got⟩ := gotControl_frame s a
      rw [frame, got]
  case refuse =>
    intro a f c i k s decoded asks
    have port := aulPort_gotControl s a
    have run : execSpareRefuse a f s = .next (spareRefused (gotControl s a) a) := by
      unfold execSpareRefuse
      rw [decoded]
    rw [spareRefused_asking (by rw [port]; exact asks)] at run
    have seeks := seekSpare_seeks (setAulPort (gotControl s a) a { aulPort (gotControl s a) a with
      asking := none, denied := (aulPort (gotControl s a) a).denied ||| BitVec.twoPow 2 (k % 18 - 16) }) a
    obtain ⟨flt, ports, out, frame⟩ := seeks.touched
    refine ⟨_, run, ?_, fun b apart => ?_, ?_⟩
    · rw [seeks.denied, aulPort_setAulPort, port]
      rfl
    · rw [seeks.others b apart, aulPort_setAulPort_other _ _ apart, aulPort_gotControl_other _ apart]
    · obtain ⟨_, got⟩ := gotControl_frame s a
      obtain ⟨_, asked⟩ := setAulPort_ports (gotControl s a) a { aulPort (gotControl s a) a with
        asking := none, denied := (aulPort (gotControl s a) a).denied ||| BitVec.twoPow 2 (k % 18 - 16) }
      rw [frame, asked, got]
  case stray =>
    intro a f c s decoded idle
    have run : execSpareRefuse a f s = .next (gotControl s a) := by
      unfold execSpareRefuse
      rw [decoded]
      exact congrArg Host.Outcome.next (spareRefused_idle (by rw [aulPort_gotControl]; exact idle))
    exact ⟨_, run, aulPort_gotControl .., fun b apart => aulPort_gotControl_other s apart, rfl⟩
  case resume =>
    intro a f c s decoded paused
    have run : execResume a f s = .next (resume (gotControl s a) a c) := by
      unfold execResume
      rw [decoded]
    obtain ⟨up, replay, moving, lanes⟩ := resume_leaves (s := gotControl s a) paused c
    have kept := execResume_keep a f s
    rw [run] at kept
    refine ⟨_, run, up, ?_, moving, fun i k moves => ?_, kept.1⟩
    · rw [replay, aulPort_gotControl]
      exact replayFrom_replay rfl _
    · exact lanes i k (by rw [aulPort_gotControl]; exact moves)
  case mode =>
    intro a tx k key m s open'
    exact answered_of (keyWrite_mode open' ..)
  case rx =>
    intro a k key s unused
    obtain ⟨same, other⟩ := rxKey_setRx (aulPort s a) k (some key)
    refine ⟨_, answered_of (keyWrite_rx unused key), ?_, ?_, rfl, rfl⟩
    · rw [aulPort_emit, aulPort_setAulPort]
      exact same
    · rw [aulPort_emit, aulPort_setAulPort]
      exact other
  case tx =>
    intro a k key s unused
    obtain ⟨same, other⟩ := txKey_setTx (aulPort s a) k (some key)
    refine ⟨_, answered_of (keyWrite_tx unused key), ?_, ?_, rfl, rfl⟩
    · rw [aulPort_emit, aulPort_setAulPort]
      exact same
    · rw [aulPort_emit, aulPort_setAulPort]
      exact other
  case busy =>
    intro a tx k key s used
    exact answered_of (keyWrite_busy used key)
  case rollover =>
    intro a s held
    have eq : rollover s a = (odSet s (0xB100 + a) 7 1, .ok) := if_neg (by simpa using held)
    exact ⟨_, answered_of eq, odGet_odSet_same s (0xB100 + a) 7 1, rfl, rfl⟩
  case wrong =>
    intro a s none'
    exact answered_of (if_pos (by rw [none']; rfl))
  case mac =>
    intro a s group unready
    have quiet : ((List.range 16).any fun v => (readyUnit s a v).isSome) = false :=
      List.any_eq_false.2 fun v hv => by simp [unready v (List.mem_range.1 hv)]
    have run : execMacGroupTimeout a s = .next (setAulPort s a { aulPort s a with macDue := true }) := by
      unfold execMacGroupTimeout
      dsimp only
      rw [quiet]
      exact if_neg (by simp [group])
    exact ⟨_, run, aulPort_setAulPort .., rfl⟩

end Sys2Proof.Proofs.AulumSparing

/-!
What the restart rules (R261) and the traffic that they start leave alone: the graces that run. One rule per operation, in the
order of the model.
-/

namespace Sys2Proof.Proofs.Graces

open Sys2Proof Sys2Proof.Machine Sys2Proof.Laws Sys2Proof.Proofs.Shared

@[simp] theorem ite_graces (c : Prop) [Decidable c] (a b : State) :
    (if c then a else b).aul.graces = if c then a.aul.graces else b.aul.graces :=
  apply_ite (fun s : State => s.aul.graces) c a b

@[simp] theorem ite_fst_graces {α : Type} (c : Prop) [Decidable c] (a b : State × α) :
    (if c then a else b).1.aul.graces = if c then a.1.aul.graces else b.1.aul.graces :=
  apply_ite (fun s : State × α => s.1.aul.graces) c a b

@[simp] theorem foldl_graces {α : Type} (f : State → α → State) (l : List α) (s : State)
    (h : ∀ s a, (f s a).aul.graces = s.aul.graces) : (l.foldl f s).aul.graces = s.aul.graces :=
  List.foldlRecOn _ _ (motive := fun t : State => t.aul.graces = s.aul.graces) rfl fun t ht a _ => (h t a).trans ht

@[simp] theorem foldl_fst_graces {α β : Type} (f : State × β → α → State × β) (l : List α) (s : State × β)
    (h : ∀ s a, (f s a).1.aul.graces = s.1.aul.graces) : (l.foldl f s).1.aul.graces = s.1.aul.graces :=
  List.foldlRecOn _ _ (motive := fun t : State × β => t.1.aul.graces = s.1.aul.graces) rfl fun t ht a _ => (h t a).trans ht

@[simp] theorem checkDone_graces (s : State) (f : Nat) : (checkDone s f).aul.graces = s.aul.graces := rfl

@[simp] theorem lpddrChecked_graces (s : State) (a : Nat) : (lpddrChecked s a).1.aul.graces = s.aul.graces := by simp [lpddrChecked]

theorem spend?_graces {s t : State} {k n : Nat} (h : spend? s k n = some t) : t.aul.graces = s.aul.graces := by
  obtain ⟨g, -, rfl⟩ := Option.map_eq_some_iff.1 h
  rfl

@[simp] theorem traceWrite_graces (s : State) (mk : Nat → TraceRec) : (traceWrite s mk).aul.graces = s.aul.graces := by
  unfold traceWrite
  dsimp only
  split
  · rfl
  · split
    · rfl
    · next spent =>
      simpa using spend?_graces spent

@[simp] theorem filterCount_graces (s : State) (f : Nat) : (filterCount s f).1.aul.graces = s.aul.graces := rfl

@[simp] theorem traceUnit_graces (s : State) (tap port data : Nat) (u : FUnit) :
    (traceUnit s tap port data u).aul.graces = s.aul.graces := by
  unfold traceUnit
  dsimp only
  repeat' split
  all_goals simp

@[simp] theorem setXing_graces (s : State) (c : Nat) (x : Crossing) : (setXing s c x).aul.graces = s.aul.graces := rfl

@[simp] theorem crossSend_graces (s : State) (c : Nat) (h : Held) : (crossSend s c h).aul.graces = s.aul.graces := rfl

@[simp] theorem niPush_graces (s : State) (n : Nat) (a : Nat) (h : Held) : (niPush s n a h).aul.graces = s.aul.graces := rfl

@[simp] theorem nextUnit_graces (s : State) : (nextUnit s).aul.graces = s.aul.graces := rfl

@[simp] theorem sendAt_graces (s : State) (n : Nat) (a : Nat) (u : FUnit) (t : Option Tlp) (hpa : Option (Nat × BitVec 46)) :
    (sendAt s n a u t hpa).aul.graces = s.aul.graces := by
  unfold sendAt
  split <;> simp

@[simp] theorem send_graces (s : State) (u : FUnit) : (send s u).aul.graces = s.aul.graces := by simp [send]

@[simp] theorem sendTlpBy_graces (s : State) (n : Nat) (a : Nat) (t : Tlp) (src : BitVec 12) (dst : BitVec 12) (tag : BitVec 16)
    (f : FUnit → FUnit) :
    (sendTlpBy s n a t src dst tag f).aul.graces = s.aul.graces := by simp [sendTlpBy]

@[simp] theorem sendTlp_graces (s : State) (n : Nat) (a : Nat) (t : Tlp) (src : BitVec 12) (dst : BitVec 12) (tag : BitVec 16) :
    (sendTlp s n a t src dst tag).aul.graces = s.aul.graces := by simp [sendTlp]

@[simp] theorem moverWriteGone_graces (s : State) (u : FUnit) : (moverWriteGone s u).aul.graces = s.aul.graces := by
  simp [moverWriteGone]

@[simp] theorem setEgress_graces (s : State) (port : Nat) (v : Vn) (l : List EgUnit) :
    (setEgress s port v l).aul.graces = s.aul.graces := rfl

@[simp] theorem hostSend_graces (s : State) (port : Nat) (v : Vn) (m : LinkMsg) : (hostSend s port v m).aul.graces = s.aul.graces :=
  rfl

@[simp] theorem egressTaken_graces (s : State) (port : Nat) (v : Vn) (id : Nat) (m : Option LinkMsg) :
    (egressTaken s port v id m).aul.graces = s.aul.graces := by
  unfold egressTaken
  split <;> simp

@[simp] theorem refusal_graces (s : State) (v : Nat) (p : Nat) (wr : Bool) : (refusal s v p wr).aul.graces = s.aul.graces := by
  simp [refusal]

@[simp] theorem bumpFn_graces (s : State) (fn : Nat) (e : Nat) (k : Nat) : (bumpFn s fn e k).aul.graces = s.aul.graces := by
  unfold bumpFn
  repeat' split
  all_goals simp

@[simp] theorem hostWrite_graces (s : State) (v : Nat) (rid : BitVec 16) (addr : Nat) (data : List Byte) (poison : Bool) :
    (hostWrite s v rid addr data poison).aul.graces = s.aul.graces := by
  unfold hostWrite
  split <;> simp

@[simp] theorem setLogCh_graces (s : State) (c : Nat) (x : LogCh) : (setLogCh s c x).aul.graces = s.aul.graces := rfl

@[simp] theorem lcbWrite_graces (s : State) (c : Nat) (off : Nat) (data : List Byte) :
    (lcbWrite s c off data).aul.graces = s.aul.graces := by simp [lcbWrite]

@[simp] theorem lcbProducer_graces (s : State) (c : Nat) : (lcbProducer s c).aul.graces = s.aul.graces := by simp [lcbProducer]

@[simp] theorem logState_graces (s : State) (c : Nat) (x : LogCh) : (logState s c x).aul.graces = s.aul.graces := by simp [logState]

@[simp] theorem logEntry_graces (s : State) (c : Nat) (page : Nat) (x : LogCh) : (logEntry s c page x).aul.graces = s.aul.graces := by
  simp [logEntry]

@[simp] theorem logCount_graces (s : State) (c : Nat) (e : Nat) : (logCount s c e).aul.graces = s.aul.graces := by simp [logCount]

@[simp] theorem logEvent_graces (s : State) (c : Nat) (a : Nat) : (logEvent s c a).aul.graces = s.aul.graces := by simp [logEvent]

@[simp] theorem logFunc_graces (s : State) (f : Nat) (a : Nat) : (logFunc s f a).aul.graces = s.aul.graces := by simp [logFunc]

@[simp] theorem logTrackers_graces (s : State) (v a : Nat) : (logTrackers s v a).aul.graces = s.aul.graces := by simp [logTrackers]

@[simp] theorem setProxy_graces (s : State) (v : Nat) (x : Proxy) : (setProxy s v x).aul.graces = s.aul.graces := rfl

@[simp] theorem flushed_graces (s : State) (p : Nat) (u : FUnit) : (flushed s p u).aul.graces = s.aul.graces := by simp [flushed]

@[simp] theorem answerHost_graces (s : State) (p : Nat) (vn : Vn) (id : Nat) (m : LinkMsg) :
    (answerHost s p vn id m).aul.graces = s.aul.graces := by simp [answerHost]

@[simp] theorem tellHost_graces (s : State) (p : Nat) (vn : Vn) (m : LinkMsg) : (tellHost s p vn m).aul.graces = s.aul.graces := by
  simp [tellHost]

@[simp] theorem issueUnit_graces (s : State) (v : Nat) (p : Nat) (ty : Nat) (vn : Vn) (tag : Nat) (hpa : BitVec 46)
    (payload : BitVec 512) (poison : Bool) (since : Nat) :
    (issueUnit s v p ty vn tag hpa payload poison since).aul.graces = s.aul.graces := by simp [issueUnit]

@[simp] theorem issueReq_graces (s : State) (v : Nat) (p : Nat) (e : ProxyReq) (since : Nat) :
    (issueReq s v p e since).aul.graces = s.aul.graces := by simp [issueReq]

@[simp] theorem issueWrite_graces (s : State) (v : Nat) (p : Nat) (e : ProxyWrite) (since : Nat) :
    (issueWrite s v p e since).aul.graces = s.aul.graces := by simp [issueWrite]

@[simp] theorem issueEvict_graces (s : State) (v : Nat) (p : Nat) (e : ProxyEvict) (since : Nat) :
    (issueEvict s v p e since).aul.graces = s.aul.graces := by simp [issueEvict]

@[simp] theorem evictionFreed_graces (s : State) (v : Nat) (p : Nat) (hpa : BitVec 46) :
    (evictionFreed s v p hpa).aul.graces = s.aul.graces := by simp [evictionFreed]

@[simp] theorem snoopReply_graces (s : State) (v : Nat) (p : Nat) (sn : ProxySnoop) (dirty : Option (LineData × Bool)) (keptS : Bool) :
    (snoopReply s v p sn dirty keptS).aul.graces = s.aul.graces := by
  unfold snoopReply
  repeat' split
  all_goals simp

@[simp] theorem snoopLost_graces (s : State) (v : Nat) (p : Nat) (src : BitVec 12) (tag : BitVec 16) (l : BitVec 42) :
    (snoopLost s v p src tag l).aul.graces = s.aul.graces := by simp [snoopLost]

@[simp] theorem dropSnoop_graces (s : State) (v : Nat) (bt : Nat) : (dropSnoop s v bt).aul.graces = s.aul.graces := rfl

@[simp] theorem sendBiSnp_graces (s : State) (v : Nat) (p : Nat) (sn : ProxySnoop) (d : Option (LineData × Bool)) :
    (sendBiSnp s v p sn d).aul.graces = s.aul.graces := by
  unfold sendBiSnp
  split <;> simp

@[simp] theorem snoopAct_graces (s : State) (v : Nat) (p : Nat) (sn : ProxySnoop) : (snoopAct s v p sn).aul.graces = s.aul.graces := by
  unfold snoopAct
  split <;> simp

@[simp] theorem releaseSnoops_graces (s : State) (v : Nat) (p : Nat) : (releaseSnoops s v p).aul.graces = s.aul.graces := by
  simp [releaseSnoops]

@[simp] theorem dropEntry_graces (s : State) (v : Nat) (t : Nat) : (dropEntry s v t).aul.graces = s.aul.graces := rfl

@[simp] theorem give_graces (s : State) (p : Nat) (vn : Vn) (unit : Option Nat) (m : LinkMsg) :
    (give s p vn unit m).aul.graces = s.aul.graces := by
  unfold give
  split <;> simp

@[simp] theorem giveNothing_graces (s : State) (p : Nat) (vn : Vn) (unit : Option Nat) :
    (giveNothing s p vn unit).aul.graces = s.aul.graces := by
  unfold giveNothing
  repeat' split
  all_goals simp

@[simp] theorem finishEntry_graces (s : State) (v : Nat) (p : Nat) (t : Nat) (vn : Vn) (unit : Option Nat) (m : LinkMsg) :
    (finishEntry s v p t vn unit m).aul.graces = s.aul.graces := by simp [finishEntry]

@[simp] theorem reqData_graces (s : State) (v : Nat) (p : Nat) (unit : Option Nat) (e : ProxyReq) (g : Nat) (poison : Bool)
    (d : LineData) :
    (reqData s v p unit e g poison d).aul.graces = s.aul.graces := by simp [reqData]

@[simp] theorem nackWb_graces (s : State) (v : Nat) (p : Nat) (e : ProxyEvict) : (nackWb s v p e).aul.graces = s.aul.graces := by
  simp [nackWb]

@[simp] theorem writeFreed_graces (s : State) (v : Nat) (p : Nat) : (writeFreed s v p).aul.graces = s.aul.graces := by
  unfold writeFreed
  dsimp only
  split <;> simp

@[simp] theorem failEntry_graces (s : State) (v : Nat) (p : Nat) (t : Nat) (unit : Option Nat) (poison : Bool) :
    (failEntry s v p t unit poison).aul.graces = s.aul.graces := by
  unfold failEntry
  dsimp only
  repeat' split
  all_goals simp

@[simp] theorem setSlice_graces (s : State) (l : Nat) (x : HomeSlice) : (setSlice s l x).aul.graces = s.aul.graces := rfl

@[simp] theorem setTracker_graces (s : State) (l : Nat) (t : Nat) (k : Tracker) : (setTracker s l t k).aul.graces = s.aul.graces :=
  rfl

@[simp] theorem setBuf_graces (s : State) (l : Nat) (b : Nat) (e : BufEntry) : (setBuf s l b e).aul.graces = s.aul.graces := rfl

@[simp] theorem recordSwitch_graces (s : State) (w : Nat) : (recordSwitch s w).aul.graces = s.aul.graces := by simp [recordSwitch]

@[simp] theorem sendMemRd_graces (s : State) (l : Nat) (t : Nat) (k : Tracker) (p : Loc) :
    (sendMemRd s l t k p).aul.graces = s.aul.graces := by simp [sendMemRd]

@[simp] theorem sendMemWr_graces (s : State) (l : Nat) (b : Nat) (e : BufEntry) (p : Loc) :
    (sendMemWr s l b e p).aul.graces = s.aul.graces := by simp [sendMemWr]

@[simp] theorem remapAnswer_graces (s : State) (l : Nat) (op : RemapOp) : (remapAnswer s l op).aul.graces = s.aul.graces := by
  unfold remapAnswer
  repeat' split
  all_goals simp

@[simp] theorem unmappedReport_graces (s : State) (l : Nat) (g : Nat) : (unmappedReport s l g).aul.graces = s.aul.graces := by
  simp [unmappedReport]

@[simp] theorem remapSend_graces (s : State) (l : Nat) (op : RemapOp) (p : Loc) : (remapSend s l op p).aul.graces = s.aul.graces := by
  unfold remapSend
  repeat' split
  all_goals simp

@[simp] theorem remapHold_graces (s : State) (l : Nat) (g : Nat) (page : Nat) (op : RemapOp) :
    (remapHold s l g page op).aul.graces = s.aul.graces := by
  unfold remapHold
  dsimp only
  repeat' split
  all_goals simp

@[simp] theorem remapWith_graces (s : State) (l : Nat) (g : Nat) (page : Nat) (op : RemapOp) (e : BitVec 48) :
    (remapWith s l g page op e).aul.graces = s.aul.graces := by
  unfold remapWith
  repeat' split
  all_goals simp

@[simp] theorem remapLookup_graces (s : State) (l : Nat) (op : RemapOp) : (remapLookup s l op).aul.graces = s.aul.graces := by
  unfold remapLookup
  dsimp only
  repeat' split
  all_goals simp

@[simp] theorem remapOp_graces (s : State) (l : Nat) (op : RemapOp) : (remapOp s l op).aul.graces = s.aul.graces := by simp [remapOp]

@[simp] theorem bufAdd_graces (s : State) (l : Nat) (line : BitVec 42) (data : LineData) (poison wrPoison : Bool) :
    (bufAdd s l line data poison wrPoison).aul.graces = s.aul.graces := by
  unfold bufAdd
  dsimp only
  split <;> simp

@[simp] theorem cacheSet_graces (s : State) (l : Nat) (line : BitVec 42) (w : Nat) (e : Option DirEntry) :
    (cacheSet s l line w e).aul.graces = s.aul.graces := rfl

@[simp] theorem setSf_graces (s : State) (k : Nat) (ws : List SfWay) : (setSf s k ws).aul.graces = s.aul.graces := rfl

@[simp] theorem sfWrite_graces (s : State) (l : Nat) (line : BitVec 42) (i : Nat) (st : LState) :
    (sfWrite s l line i st).aul.graces = s.aul.graces := rfl

@[simp] theorem putState_graces (s : State) (l : Nat) (line : BitVec 42) (st : LState) :
    (putState s l line st).aul.graces = s.aul.graces := by
  unfold putState
  repeat' split
  all_goals simp

@[simp] theorem poisonWrite_graces (s : State) (l : Nat) (line : BitVec 42) : (poisonWrite s l line).aul.graces = s.aul.graces := by
  simp [poisonWrite]

@[simp] theorem poisonLine_graces (s : State) (l : Nat) (line : BitVec 42) : (poisonLine s l line).aul.graces = s.aul.graces := by
  simp [poisonLine]

@[simp] theorem lineState_graces (s : State) (l : Nat) (line : BitVec 42) : (lineState s l line).1.aul.graces = s.aul.graces := by
  simp [lineState]

@[simp] theorem evictEntry_graces (s : State) (l : Nat) (e : DirEntry) : (evictEntry s l e).aul.graces = s.aul.graces := by
  unfold evictEntry
  repeat' split
  all_goals simp

@[simp] theorem evictAt_graces (s : State) (l : Nat) (k : Nat) : (evictAt s l k).aul.graces = s.aul.graces := by
  unfold evictAt
  dsimp only
  repeat' split
  all_goals simp

@[simp] theorem unpinLine_graces (s : State) (l : Nat) (line : BitVec 42) : (unpinLine s l line).aul.graces = s.aul.graces := by
  unfold unpinLine
  split <;> simp

@[simp] theorem answerRsp_graces (s : State) (l : Nat) (ty : Nat) (r : ReqInfo) (line : BitVec 42) (poison : Bool) (synth : Bool) :
    (answerRsp s l ty r line poison synth).aul.graces = s.aul.graces := by simp [answerRsp]

@[simp] theorem answerDat_graces (s : State) (l : Nat) (g : Nat) (r : ReqInfo) (line : BitVec 42) (data : LineData) (poison : Bool)
    (synth : Bool) :
    (answerDat s l g r line data poison synth).aul.graces = s.aul.graces := by simp [answerDat]

@[simp] theorem seniorHold_graces (s : State) (l : Nat) (line : BitVec 42) : (seniorHold s l line).aul.graces = s.aul.graces := by
  unfold seniorHold
  dsimp only
  split <;> simp

@[simp] theorem recordFinal_graces (s : State) (k : Tracker) (st : LState) : (recordFinal s k st).aul.graces = s.aul.graces := by
  unfold recordFinal
  split <;> simp

@[simp] theorem complete_graces (s : State) (l : Nat) (t : Nat) (st : LState) : (complete s l t st).aul.graces = s.aul.graces := by
  unfold complete
  split <;> simp

@[simp] theorem completePoisoned_graces (s : State) (l : Nat) (t : Nat) : (completePoisoned s l t).aul.graces = s.aul.graces := by
  unfold completePoisoned
  split <;> simp

@[simp] theorem memRead_graces (s : State) (l : Nat) (t : Nat) (k : Tracker) : (memRead s l t k).aul.graces = s.aul.graces := by
  unfold memRead
  split <;> simp

@[simp] theorem fromInvalid_graces (s : State) (l : Nat) (t : Nat) (k : Tracker) (r : ReqInfo) (base : HolderSet) :
    (fromInvalid s l t k r base).aul.graces = s.aul.graces := by
  unfold fromInvalid
  split <;> simp

@[simp] theorem fromPoisoned_graces (s : State) (l : Nat) (t : Nat) (k : Tracker) (r : ReqInfo) :
    (fromPoisoned s l t k r).aul.graces = s.aul.graces := by simp [fromPoisoned]

@[simp] theorem lastReply_graces (s : State) (l : Nat) (t : Nat) : (lastReply s l t).aul.graces = s.aul.graces := by
  unfold lastReply
  repeat' split
  all_goals simp

@[simp] theorem switchLost_graces (s : State) (l : Nat) (t : Nat) (w : Nat) : (switchLost s l t w).aul.graces = s.aul.graces := by
  unfold switchLost
  repeat' split
  all_goals simp

@[simp] theorem takeNo_graces (s : State) : (takeNo s).aul.graces = s.aul.graces := rfl

@[simp] theorem guardPart_graces (s : State) (v : Nat) (rd : Bool) (wr : Bool) (x : MovPart) :
    (guardPart s v rd wr x).1.aul.graces = s.aul.graces := by
  unfold guardPart
  split <;> simp

@[simp] theorem guardParts_graces (s : State) (v : Nat) (rd wr : Bool) (ps : List MovPart) :
    (guardParts s v rd wr ps).1.aul.graces = s.aul.graces := by simp [guardParts]

@[simp] theorem openAccess_graces (s : State) (fn : Option Nat) (v : Nat) (write : Bool) (guarded : Bool) (use : MovUse) (addr : Nat)
    (len : Nat) (data : List Byte) (poison : Nat → Bool) :
    (openAccess s fn v write guarded use addr len data poison).aul.graces = s.aul.graces := by simp [openAccess]

@[simp] theorem cacheRequest_graces (s : State) (ty : Nat) (tag : Nat) (h : Nat) (l : BitVec 42) (nacks : Nat) (senior : Bool)
    (first : BitVec 32) (mask : BitVec 64) :
    (cacheRequest s ty tag h l nacks senior first mask).aul.graces = s.aul.graces := by simp [cacheRequest]

@[simp] theorem cacheBackoff_graces (s : State) (n : Nat) : (cacheBackoff s n).1.aul.graces = s.aul.graces := rfl

@[simp] theorem countSenior_graces (s : State) (n : Nat) : (countSenior s n).aul.graces = s.aul.graces := by simp [countSenior]

@[simp] theorem setMcLines_graces (s : State) (k : Nat) (ls : List CacheLine) : (setMcLines s k ls).aul.graces = s.aul.graces := rfl

@[simp] theorem mcPut_graces (s : State) (x : CacheLine) : (mcPut s x).aul.graces = s.aul.graces := rfl

@[simp] theorem mcDrop_graces (s : State) (h : Nat) (l : BitVec 42) : (mcDrop s h l).aul.graces = s.aul.graces := rfl

@[simp] theorem setEvict_graces (s : State) (e : CacheEvict) : (setEvict s e).aul.graces = s.aul.graces := rfl

@[simp] theorem sendEvict_graces (s : State) (e : CacheEvict) : (sendEvict s e).aul.graces = s.aul.graces := by
  unfold sendEvict
  split <;> simp

@[simp] theorem applyAtom_graces (s : State) (x : CacheLine) (o : AtomOp) : (applyAtom s x o).1.aul.graces = s.aul.graces := by
  simp [applyAtom]

@[simp] theorem runOps_graces (s : State) (h : Nat) (l : BitVec 42) (fail : Option Nat) :
    (runOps s h l fail).1.aul.graces = s.aul.graces := by
  unfold runOps
  refine (foldl_fst_graces _ _ _ fun r o => ?_).trans rfl
  dsimp only
  split <;> simp

@[simp] theorem askLine_graces (s : State) (h : Nat) (l : BitVec 42) (owner : Option Nat) :
    (askLine s h l owner).aul.graces = s.aul.graces := by
  unfold askLine
  repeat' split
  all_goals simp

@[simp] theorem askLines_graces (s : State) : (askLines s).aul.graces = s.aul.graces := by simp [askLines]

theorem evictLine_graces {s : State} {x : CacheLine} {r : State × Nat} (h : evictLine s x = some r) :
    r.1.aul.graces = s.aul.graces := by
  obtain ⟨t, -, rfl⟩ := Option.map_eq_some_iff.1 h
  simp

@[simp] theorem fillData_graces (s : State) (f : CacheFill) (d : LineData) (poison : Bool) :
    (fillData s f d poison).1.aul.graces = s.aul.graces := by
  unfold fillData
  extract_lets mov s1 s2
  have s2Graces : s2.aul.graces = s.aul.graces := by
    unfold s2
    split
    · next v _ =>
      cases h : evictLine s1 v with
      | none => exact mcDrop_graces ..
      | some r => exact (evictLine_graces h).trans rfl
    · rfl
  simpa using s2Graces

@[simp] theorem fillAnswer_graces (s : State) (f : CacheFill) (u : FUnit) : (fillAnswer s f u).1.aul.graces = s.aul.graces := by
  unfold fillAnswer
  repeat' split
  all_goals simp

@[simp] theorem evictDone_graces (s : State) (e : CacheEvict) : (evictDone s e).aul.graces = s.aul.graces := by simp [evictDone]

@[simp] theorem evictWrOwn_graces (s : State) (e : CacheEvict) : (evictWrOwn s e).aul.graces = s.aul.graces := by
  unfold evictWrOwn
  split <;> simp

@[simp] theorem setExec_graces (s : State) (e : Exec) : (setExec s e).aul.graces = s.aul.graces := rfl

@[simp] theorem atomDone_graces (s : State) (x : Nat) (r : AtomEnd) : (atomDone s x r).aul.graces = s.aul.graces := by
  unfold atomDone
  repeat' split
  all_goals simp

@[simp] theorem tlpComplete_graces (s : State) (w : TlpWork) (t : Tlp) : (tlpComplete s w t).aul.graces = s.aul.graces := by
  simp [tlpComplete]

@[simp] theorem dropWork_graces (s : State) (w : TlpWork) : (dropWork s w).aul.graces = s.aul.graces := rfl

@[simp] theorem tlpAtomDone_graces (s : State) (no : Nat) (width : Nat) (r : AtomEnd) :
    (tlpAtomDone s no width r).aul.graces = s.aul.graces := by
  unfold tlpAtomDone
  repeat' split
  all_goals simp

@[simp] theorem atomsDone_graces (s : State) (rs : List (AtomOp × AtomEnd)) : (atomsDone s rs).aul.graces = s.aul.graces := by
  simp [atomsDone]

@[simp] theorem restartAnswer_graces (s : State) : (restartAnswer s).aul.graces = s.aul.graces := rfl

@[simp] theorem proxyQuarantine_graces (s : State) (v : Nat) (t : Nat) (l : BitVec 42) :
    (proxyQuarantine s v t l).aul.graces = s.aul.graces := rfl

@[simp] theorem restartProxy_graces (s : State) (w : Option Nat) (start : Nat) (v : Nat) :
    (restartProxy s w start v).aul.graces = s.aul.graces := by
  unfold restartProxy
  split <;> simp

@[simp] theorem restartSlice_graces (s : State) (w : Option Nat) (start l : Nat) :
    (restartSlice s w start l).aul.graces = s.aul.graces := by simp [restartSlice]

@[simp] theorem moverQuarantine_graces (s : State) (t : Nat) (l : BitVec 42) : (moverQuarantine s t l).aul.graces = s.aul.graces :=
  rfl

@[simp] theorem fillFailed_graces (s : State) (f : CacheFill) : (fillFailed s f).aul.graces = s.aul.graces := by simp [fillFailed]

@[simp] theorem evictReissue_graces (s : State) (e : CacheEvict) : (evictReissue s e).aul.graces = s.aul.graces := by
  simp [evictReissue]

@[simp] theorem restartMover_graces (s : State) (w : Option Nat) (only : Option (List Nat)) :
    (restartMover s w only).aul.graces = s.aul.graces :=
  (foldl_graces _ _ _ fun t e => by simp).trans
    ((foldl_graces _ _ _ fun t f => by simp).trans ((foldl_graces _ _ _ fun t x => by simp).trans rfl))

end Sys2Proof.Proofs.Graces

/-!
Flits of an Aulum link: reception (R248 to R250), acknowledgement and replay (R251, R252), and what a port sends in a flit time (R246).
-/

namespace Sys2Proof.Proofs.AulumFlits

open Sys2Proof Sys2Proof.Machine Sys2Proof.Laws Sys2Proof.Proofs.Shared Sys2Proof.Proofs.Aulum Sys2Proof.Proofs.Ingress

theorem setAulPort_perf (s : State) (a : Nat) (x : AulPort) : (setAulPort s a x).perf = s.perf := rfl

theorem counter_congr {s t : State} (h : t.perf = s.perf) (n : Nat) : counter t n = counter s n := by unfold counter; rw [h]

theorem encrypts_congr {s t : State} (h : t.od = s.od) (a : Nat) : encrypts t a = encrypts s a := by
  unfold encrypts linkVersion
  rw [odGet_congr h, odGet_congr h]

/-! ### What the handling of a flit keeps, besides its acceptance -/

/-- The sequence state of port `a`, the other ports, the link's state and the count of accepted flits are as they were. -/
structure Kept (a : Nat) (s t : State) : Prop where
  expect : (aulPort t a).expect = (aulPort s a).expect
  nakAt : (aulPort t a).nakAt = (aulPort s a).nakAt
  others : ∀ b, b ≠ a → aulPort t b = aulPort s b
  state : linkState t a = linkState s a
  encrypts : encrypts t a = encrypts s a
  count : counter t (counterNo 0xC026 2) = counter s (counterNo 0xC026 2)

namespace Kept

variable {a : Nat} {s t u : State}

theorem refl (a : Nat) (s : State) : Kept a s s := ⟨rfl, rfl, fun _ _ => rfl, rfl, rfl, rfl⟩

theorem trans (h : Kept a s t) (g : Kept a t u) : Kept a s u :=
  ⟨g.expect.trans h.expect, g.nakAt.trans h.nakAt, fun b apart => (g.others b apart).trans (h.others b apart), g.state.trans h.state,
    g.encrypts.trans h.encrypts, g.count.trans h.count⟩

theorem foldl {α : Type} {f : State → α → State} {l : List α} (s : State) (step : ∀ t, ∀ x ∈ l, Kept a t (f t x)) :
    Kept a s (l.foldl f s) :=
  List.foldlRecOn _ _ (motive := Kept a s) (refl a s) fun t h x hx => h.trans (step t x hx)

/-- What leaves the ports, the dictionary and the counters alone. -/
theorem of_same (ports : t.aul.ports = s.aul.ports) (od : t.od = s.od) (perf : t.perf = s.perf) : Kept a s t :=
  ⟨by rw [aulPort_congr ports], by rw [aulPort_congr ports], fun b _ => by rw [aulPort_congr ports], by rw [linkState_congr od],
    encrypts_congr od a, counter_congr perf _⟩

theorem port (s : State) {x : AulPort} (expect : x.expect = (aulPort s a).expect) (nakAt : x.nakAt = (aulPort s a).nakAt) :
    Kept a s (setAulPort s a x) := by
  have record := aulPort_setAulPort s a x
  exact ⟨by rw [record, expect], by rw [record, nakAt], fun b apart => aulPort_setAulPort_other s x apart, rfl, rfl, rfl⟩

theorem bump (s : State) {n : Nat} (other : counterNo 0xC026 2 ≠ n) (k : Nat) : Kept a s (bump s n k) :=
  ⟨rfl, rfl, fun _ _ => rfl, rfl, rfl, counter_bump_other s other k⟩

theorem portBump (s : State) {x : AulPort} (expect : x.expect = (aulPort s a).expect) (nakAt : x.nakAt = (aulPort s a).nakAt) {i j : Nat}
    (other : counterNo 0xC026 2 ≠ counterNo i j) : Kept a s (bumpC (setAulPort s a x) i j) :=
  (port s expect nakAt).trans (bump _ other 1)

theorem traced (small : a < 16) (h : Traced s t) (aul : t.aul = s.aul) : Kept a s t := by
  have entry : ∀ i j, 0x30A0 ≤ i → j < 256 → odGet t i j = odGet s i j := h.entries
  refine ⟨by rw [aulPort_congr (congrArg AulState.ports aul)], by rw [aulPort_congr (congrArg AulState.ports aul)],
    fun b _ => by rw [aulPort_congr (congrArg AulState.ports aul)], entry _ _ (by unfold aulIdx; omega) (by decide), ?_,
    h.counters _ (by decide) (by decide)⟩
  unfold Machine.encrypts linkVersion
  rw [entry _ _ (by omega) (by decide), entry _ _ (by unfold aulIdx; omega) (by decide)]

theorem raiseFault (s : State) (f c d : Nat) : Kept a s (raiseFault s f c d) :=
  of_same (by rw [raiseFault_aul]) (raiseFault_od ..) (raiseFault_perf ..)

theorem sendAt (s : State) (n b : Nat) (u : FUnit) (t : Option Tlp) (hpa : Option (Nat × BitVec 46)) : Kept a s (sendAt s n b u t hpa) := by
  rw [sendAt_frame]
  exact of_same rfl rfl rfl

theorem sendControl (s : State) (kind lane spare : Nat) : Kept a s (sendControl s a kind lane spare) :=
  (port s (x := { aulPort s a with parOut := none }) rfl rfl).trans (of_same rfl rfl rfl)

/-! Reception (R248 to R253) -/

theorem parityCheck (s : State) (got : BitVec 4) : Kept a s (parityCheck s a got) := by
  unfold Machine.parityCheck
  dsimp only
  split
  · exact refl a s
  · refine foldl s fun t i _ => ?_
    refine portBump t ?_ ?_ ?_
    · rfl
    · rfl
    · unfold counterNo
      omega

theorem setTx_sequence (x : AulPort) (k : Bool) (v : Option (BitVec 256)) : (x.setTx k v).expect = x.expect ∧ (x.setTx k v).nakAt = x.nakAt := by
  cases k
  · exact ⟨rfl, rfl⟩
  · exact ⟨rfl, rfl⟩

/-- R463: the rollover request is cleared, which the state and the mode of the link do not depend on. -/
theorem rolled (s : State) (v : Nat) : Kept a s (odSet s (0xB100 + a) 7 v) := by
  refine ⟨rfl, rfl, fun _ _ => rfl, odGet_odSet_subs _ _ _ _ (by decide) (by decide) (by decide), ?_, rfl⟩
  unfold Machine.encrypts linkVersion
  rw [odGet_odSet_subs _ _ _ _ (by decide) (by decide) (by decide), odGet_odSet_subs _ _ _ _ (by decide) (by decide) (by decide)]

theorem portRolled (s : State) {x : AulPort} (expect : x.expect = (aulPort s a).expect) (nakAt : x.nakAt = (aulPort s a).nakAt) (v : Nat) :
    Kept a s (odSet (setAulPort s a x) (0xB100 + a) 7 v) := (port s expect nakAt).trans (rolled _ v)

theorem takeAck (s : State) (ack : BitVec 12) : Kept a s (takeAck s a ack) := by
  unfold Machine.takeAck
  dsimp only
  split
  · exact refl a s
  · split
    · refine portRolled s ?_ ?_ 0
      · exact (setTx_sequence ..).1
      · exact (setTx_sequence ..).2
    · exact port s rfl rfl

theorem takeCredits (s : State) (g : Nat) (c : BitVec 24) : Kept a s (takeCredits s a g c) := by
  unfold Machine.takeCredits
  dsimp only
  refine port s ?_ ?_
  · exact List.foldlRecOn _ _ (motive := fun y : AulPort => y.expect = (aulPort s a).expect) rfl fun _ h _ _ => h
  · exact List.foldlRecOn _ _ (motive := fun y : AulPort => y.nakAt = (aulPort s a).nakAt) rfl fun _ h _ _ => h

/-! Delivery (R44, R110, R249) -/

theorem linkFreed (s : State) (l : List Held) : Kept a s (linkFreed s a l) := foldl s fun t _ _ => port t rfl rfl

theorem setLinkQueue (s : State) (b : Nat) (v : Vn) (l : List Held) : Kept a s (setLinkQueue s b v l) := of_same rfl rfl rfl

theorem linkUnit (s : State) (small : a < 16) (cls : Nat) (u : FUnit) : Kept a s (linkUnit s a cls u) := by
  unfold Machine.linkUnit
  have traced' := Traced.unit s 5 (0x60 + a) 0 u
  extract_lets s1 own w h
  have aul : s1.aul = s.aul := by
    obtain ⟨_, _, _, _, _, _, eq⟩ := traced'.touched
    show (traceUnit s 5 (0x60 + a) 0 u).aul = s.aul
    rw [eq]
  have kept : Kept a s s1 := traced small traced' aul
  clear_value s1
  exact kept.trans (of_same rfl rfl rfl)

theorem badSlot (s : State) (cls : Nat) (u : FUnit) : Kept a s (badSlot s a cls u) := (bump s (by decide) 1).trans (linkFreed ..)

theorem deliverSlots (s : State) (small : a < 16) (f : Flit) : Kept a s (deliverSlots s a f) := by
  unfold Machine.deliverSlots
  refine foldl s fun t i _ => ?_
  split
  · dsimp only
    split
    · exact linkUnit t small ..
    · exact badSlot ..
  · exact refl a t

theorem linkMove {s t : State} {v : Vn} {cls : Nat} (moved : linkMove s a v cls = some t) : Kept a s t := by
  unfold Machine.linkMove at moved
  dsimp only at moved
  split at moved
  · cases moved
  · split at moved
    · split at moved
      · cases moved
        exact ((setLinkQueue s ..).trans (linkFreed ..)).trans (of_same rfl rfl rfl)
      · cases moved
    · split at moved
      · cases moved
        exact ((setLinkQueue s ..).trans (linkFreed ..)).trans (sendAt ..)
      · cases moved

theorem linkMoves (v : Vn) (cls : Nat) : ∀ (n : Nat) (s : State), Kept a s (linkMoves s a v cls n)
  | 0, s => refl a s
  | n + 1, s => by
    unfold Machine.linkMoves
    split
    · next moved => exact (linkMove moved).trans (linkMoves v cls n _)
    · exact refl a s

theorem linkDrain (s : State) : Kept a s (linkDrain s a) :=
  foldl s fun t v _ => foldl t fun r cls _ => linkMoves v cls _ r

/-! What follows a flit (R253 to R256) -/

theorem keepParity (s : State) (par : BitVec 4) : Kept a s (keepParity s a par) := port s rfl rfl

theorem seekSpare (s : State) : Kept a s (seekSpare s a) := by
  unfold Machine.seekSpare
  dsimp only
  split
  · exact refl a s
  · split
    · exact refl a s
    · split
      · refine Kept.trans ?_ (sendControl ..)
        exact port s rfl rfl
      · split
        · exact refl a s
        · refine Kept.trans ?_ (raiseFault ..)
          exact port s rfl rfl

end Kept

/-! ### A DATA flit in order (R249, R250) -/

/-- R250: what accepting a flit of an unencrypted link changes. -/
theorem acceptFlit_data {s : State} {a : Nat} {f : Flit} (small : a < 16) (data : f.type = 1) (clear : encrypts s a = false) :
    (aulPort (acceptFlit s a f) a).expect = (aulPort s a).expect + 1 ∧ (aulPort (acceptFlit s a f) a).nakAt = none ∧
      (∀ b, b ≠ a → aulPort (acceptFlit s a f) b = aulPort s b) ∧ linkState (acceptFlit s a f) a = linkState s a ∧
      counter (acceptFlit s a f) (counterNo 0xC026 2) = counter s (counterNo 0xC026 2) + 1 := by
  unfold acceptFlit
  extract_lets x point y s1
  have record : aulPort s1 a = y := aulPort_setAulPort ..
  have others : ∀ b, b ≠ a → aulPort s1 b = aulPort s b := fun b apart => aulPort_setAulPort_other s y apart
  have count : counter s1 (counterNo 0xC026 2) = counter s (counterNo 0xC026 2) + 1 := counter_bump_same _ _ 1
  have state : linkState s1 a = linkState s a := rfl
  have plain : encrypts s1 a = false := clear
  have kept : Kept a s1 (deliverSlots s1 a f) := .deliverSlots s1 small f
  rw [if_pos data, acceptData, plain, if_neg Bool.false_ne_true]
  clear_value s1
  refine ⟨?_, ?_, fun b apart => (kept.others b apart).trans (others b apart), kept.state.trans state, kept.count.trans count⟩
  · rw [kept.expect, record]
  · rw [kept.nakAt, record]

theorem goodFlit_data {s : State} {a : Nat} {f : Flit} (small : a < 16) (data : f.type = 1) (order : f.seq = (aulPort s a).expect)
    (clear : encrypts s a = false) :
    (aulPort (goodFlit s a f) a).expect = (aulPort s a).expect + 1 ∧ (aulPort (goodFlit s a f) a).nakAt = none ∧
      (∀ b, b ≠ a → aulPort (goodFlit s a f) b = aulPort s b) ∧ linkState (goodFlit s a f) a = linkState s a ∧
      counter (goodFlit s a f) (counterNo 0xC026 2) = counter s (counterNo 0xC026 2) + 1 := by
  unfold goodFlit
  extract_lets s1 x
  have kept : Kept a s s1 := ((Kept.parityCheck s f.parity).trans (.takeAck _ f.ack)).trans (.takeCredits ..)
  have expect : x.expect = (aulPort s a).expect := kept.expect
  clear_value x s1
  rw [if_neg (by omega), if_neg (by omega), if_pos (order.trans expect.symm)]
  obtain ⟨next, nak, others, state, count⟩ := acceptFlit_data (s := s1) small data (kept.encrypts.trans clear)
  exact ⟨by rw [next, kept.expect], nak, fun b apart => (others b apart).trans (kept.others b apart), state.trans kept.state,
    by rw [count, kept.count]⟩

theorem flitTaken_up {s : State} {a : Nat} {f : Flit} (up : linkState (goodFlit s a f) a ≠ linkDown) (par : BitVec 4) :
    flitTaken s a par (some f) = seekSpare (keepParity (goodFlit s a f) a par) a := if_neg up

theorem blockTaken_data {s : State} {a : Nat} {f : Flit} {w : BitVec 2048} (small : a < 16) (up : linkState s a = linkUp)
    (flit : flitOf w = some f) (data : f.type = 1) (order : f.seq = (aulPort s a).expect) (clear : encrypts s a = false) (par : BitVec 4) :
    Kept a (goodFlit s a f) (blockTaken s a par w) := by
  obtain ⟨-, -, -, state, -⟩ := goodFlit_data small data order clear
  have up' : linkState (goodFlit s a f) a ≠ linkDown := by
    rw [state, up]
    decide
  rw [blockTaken, flit, flitTaken_up up']
  exact (Kept.keepParity ..).trans (.seekSpare ..)

/-! ### A block without a good flit (R247, R251) -/

theorem badBlock_first {s : State} {a : Nat} (first : (aulPort s a).nakAt = none) (par : BitVec 4) :
    badBlock s a par = keepParity (setAulPort (bumpC s 0xC026 3) a { aulPort s a with nakDue := true, nakAt := some s.time.clock }) a par := by
  have again : discardFlit (bumpC s 0xC026 3) a =
      setAulPort (bumpC s 0xC026 3) a { aulPort s a with nakDue := true, nakAt := some s.time.clock } := by
    unfold discardFlit
    dsimp only
    rw [show (aulPort (bumpC s 0xC026 3) a).nakAt = none from first]
    exact if_pos rfl
  rw [badBlock, again]

/-! ### Transmission: the flit that goes out (R246, R248) -/

/-- R248: the credits of a flit change the told counts alone. -/
theorem creditField_port (x : AulPort) (g : Nat) : ∃ told, (creditField x g).2 = { x with told := told } := by
  unfold creditField
  refine List.foldlRecOn _ _ (motive := fun r : BitVec 24 × AulPort => ∃ told, r.2 = { x with told := told }) ⟨_, rfl⟩ fun r hr i _ => ?_
  obtain ⟨_, eq⟩ := hr
  dsimp only
  rw [eq]
  exact ⟨_, rfl⟩

theorem sendFlit_sent (s : State) (a type : Nat) (seq : BitVec 12) (cls valid : BitVec 3) (slots : BitVec 1920) :
    ∃ b told group par, sendFlit s a type seq cls valid slots =
      emit (setAulPort s a { aulPort s a with told := told, group := group, parOut := par }) (.aulumFlit a b) := by
  obtain ⟨told, eq⟩ := creditField_port (aulPort s a) (aulPort s a).group
  unfold sendFlit
  dsimp only
  rw [eq]
  exact ⟨_, _, _, _, rfl⟩

/-- What sending a flit leaves: one flit goes out, and the port's sequence, replay buffer and NAK are as they were. -/
structure Sent (s t : State) (a : Nat) : Prop where
  out : ∃ b, t.out = s.out ++ [Out.aulumFlit a b]
  seq : (aulPort t a).seq = (aulPort s a).seq
  replay : (aulPort t a).replay = (aulPort s a).replay
  resend : (aulPort t a).resend = (aulPort s a).resend
  nakDue : (aulPort t a).nakDue = (aulPort s a).nakDue
  perf : t.perf = s.perf
  queues : linkQueue t = linkQueue s
  touched : ∃ ports out, t = { s with aul := { s.aul with ports := ports }, out := out }

theorem Sent.of_port (s : State) {a : Nat} {x : AulPort} (b : LaneBlocks) (seq : x.seq = (aulPort s a).seq)
    (replay : x.replay = (aulPort s a).replay) (resend : x.resend = (aulPort s a).resend) (nakDue : x.nakDue = (aulPort s a).nakDue) :
    Sent s (emit (setAulPort s a x) (.aulumFlit a b)) a := by
  have record : aulPort (emit (setAulPort s a x) (.aulumFlit a b)) a = x := aulPort_setAulPort s a x
  exact ⟨⟨b, rfl⟩, by rw [record, seq], by rw [record, replay], by rw [record, resend], by rw [record, nakDue], rfl, rfl, _, _, rfl⟩

theorem sendFlit_leaves (s : State) (a type : Nat) (seq : BitVec 12) (cls valid : BitVec 3) (slots : BitVec 1920) :
    Sent s (sendFlit s a type seq cls valid slots) a := by
  obtain ⟨b, told, group, par, eq⟩ := sendFlit_sent s a type seq cls valid slots
  rw [eq]
  exact .of_port s b rfl rfl rfl rfl

/-- With empty queues nothing goes on. -/
theorem linkDrain_empty {s : State} {a : Nat} (empty : ∀ v ∈ allVns, linkQueue s a v = []) : linkDrain s a = s := by
  refine List.foldlRecOn _ _ (motive := fun t : State => t = s) rfl fun t ht v hv => ?_
  rw [ht]
  refine List.foldlRecOn _ _ (motive := fun t : State => t = s) rfl fun t ht cls _ => ?_
  rw [ht, empty v hv]
  rfl

/-! ### The units of a flit (R246) -/

/-- What taking units into a flit leaves: the entries, counters and units of egress pairs aside, the sequence of the port. -/
structure Gathered (s t : State) (a : Nat) : Prop where
  seq : (aulPort t a).seq = (aulPort s a).seq
  replay : (aulPort t a).replay = (aulPort s a).replay
  counters : ∀ n, n ≠ counterNo 0xC022 8 → n ≠ counterNo 0xC022 9 → n ≠ counterNo 0xC022 0x0A → counter t n = counter s n
  queues : linkQueue t = linkQueue s
  touched : ∃ od pow perf swc ports, t = { s with od := od, pow := pow, perf := perf, swc := swc, aul := { s.aul with ports := ports } }

namespace Gathered

variable {s t u : State} {a : Nat}

theorem refl (s : State) (a : Nat) : Gathered s s a := ⟨rfl, rfl, fun _ _ _ _ => rfl, rfl, _, _, _, _, _, rfl⟩

theorem trans (h : Gathered s t a) (g : Gathered t u a) : Gathered s u a := by
  refine ⟨g.seq.trans h.seq, g.replay.trans h.replay, fun n h8 h9 hA => (g.counters n h8 h9 hA).trans (h.counters n h8 h9 hA),
    g.queues.trans h.queues, ?_⟩
  obtain ⟨_, _, _, _, _, rfl⟩ := h.touched
  obtain ⟨_, _, _, _, _, rfl⟩ := g.touched
  exact ⟨_, _, _, _, _, rfl⟩

theorem setEgress (s : State) (a p : Nat) (v : Vn) (l : List EgUnit) : Gathered s (setEgress s p v l) a :=
  ⟨rfl, rfl, fun _ _ _ _ => rfl, rfl, _, _, _, _, _, rfl⟩

theorem traced (h : Traced s t) : Gathered s t a := by
  have counters := h.counters
  obtain ⟨_, _, _, _, _, _, rfl⟩ := h.touched
  exact ⟨rfl, rfl, fun n _ h9 hA => counters n h9 hA, rfl, _, _, _, _, _, rfl⟩

theorem gapCloses (s : State) (a p : Nat) (v : Vn) : Gathered s (gapCloses s p v) a := by
  unfold Machine.gapCloses
  dsimp only
  split
  · split
    · exact ⟨rfl, rfl, fun _ h8 _ _ => counter_bump_other _ h8 1, rfl, _, _, _, _, _, rfl⟩
    · exact refl s a
  · exact refl s a

theorem port (s : State) {a : Nat} {x : AulPort} (seq : x.seq = (aulPort s a).seq) (replay : x.replay = (aulPort s a).replay) :
    Gathered s (setAulPort s a x) a := by
  have record := aulPort_setAulPort s a x
  exact ⟨by rw [record, seq], by rw [record, replay], fun _ _ _ _ => rfl, rfl, _, _, _, _, _, rfl⟩

theorem takeUnit (s : State) (a v : Nat) (e : EgUnit) : Gathered s (takeUnit s a v e).1 a := by
  unfold Machine.takeUnit
  extract_lets vn u rest l s1 x
  have taken : Gathered s s1 a := ((setEgress s a _ _ _).trans (traced (Traced.unit ..))).trans (gapCloses ..)
  exact taken.trans (port s1 rfl rfl)

theorem gather (a : Nat) : ∀ (n : Nat) (s : State), Gathered s (gather s a n).1 a
  | 0, s => refl s a
  | n + 1, s => by
    unfold Machine.gather
    split
    · exact refl s a
    · exact (takeUnit ..).trans (gather a n _)

end Gathered

/-- R246: each VC is looked at, wherever the turn stands. -/
theorem turn_reaches (turn : Nat) {v : Nat} (vc : v < 16) : v ∈ (List.range 16).map fun i => (turn + i) % 16 :=
  List.mem_map.2 ⟨(v + 16 - turn % 16) % 16, List.mem_range.2 (by omega), by omega⟩

theorem gather_none {s : State} {a : Nat} (none' : ∀ v, v < 16 → readyUnit s a v = none) (n : Nat) : gather s a (n + 1) = (s, []) := by
  have missed : (((List.range 16).map fun i => ((aulPort s a).turn + i) % 16).findSome? fun v => (readyUnit s a v).map fun e => (v, e)) = none :=
    List.findSome?_eq_none_iff.2 fun v hv => by
      obtain ⟨i, -, rfl⟩ := List.mem_map.1 hv
      rw [none' _ (by omega)]
      rfl
  unfold gather
  rw [missed]

theorem gather_some {s : State} {a v : Nat} (vc : v < 16) (ready : (readyUnit s a v).isSome = true) (n : Nat) :
    (gather s a (n + 1)).2.isEmpty = false := by
  obtain ⟨e, found⟩ := Option.isSome_iff_exists.1 ready
  have some' : (((List.range 16).map fun i => ((aulPort s a).turn + i) % 16).findSome? fun v => (readyUnit s a v).map fun e => (v, e)) ≠ none :=
    fun h => by
      have missed := List.findSome?_eq_none_iff.1 h v (turn_reaches _ vc)
      rw [found] at missed
      cases missed
  unfold gather
  split
  · next h => exact absurd h some'
  · rfl

/-! ### One flit time (R246, R251, R252) -/

/-- R251: the NAK that was due goes out. -/
def nakSent (s : State) (a : Nat) : State := sendIdle (bumpC (setAulPort s a { aulPort s a with nakDue := false }) 0xC026 5) a 3

theorem flitSend_nak {s : State} {a : Nat} (runs : linkState s a = linkUp ∨ linkState s a = linkPaused) (due : (aulPort s a).nakDue = true) :
    flitSend s a = nakSent s a := by
  unfold flitSend
  dsimp only
  rw [if_neg (fun h => runs.elim h.1 h.2), if_pos due]
  rfl

section Up

variable {s : State} {a : Nat} (up : linkState s a = linkUp) (quiet : (aulPort s a).nakDue = false)
include up quiet

theorem flitSend_up : flitSend s a =
    match (aulPort s a).resend.bind fun k => (aulPort s a).replay[k]?.map fun f => (k, f) with
    | some (k, f) => sendReplay s a k f
    | none =>
      if odGet s 0x6120 1 ≤ (aulPort s a).replay.length then sendIdle s a 0
      else if (aulPort s a).macDue then sendMac s a
      else if encrypts s a && ((aulPort s a).txKey (txSet s a)).isNone then sendIdle s a 0
      else sendData s a := by
  unfold flitSend
  dsimp only
  rw [if_neg (fun h => h.1 up), if_neg (by rw [quiet]; exact Bool.false_ne_true), if_neg (by rw [up]; decide)] <;> rfl

theorem flitSend_replay {k : Nat} {f : FlitRec} (resend : (aulPort s a).resend = some k) (held : (aulPort s a).replay[k]? = some f) :
    flitSend s a = sendReplay s a k f := by
  rw [flitSend_up up quiet, resend]
  show (match (aulPort s a).replay[k]?.map fun f => (k, f) with
    | some (k, f) => sendReplay s a k f
    | none => _) = _
  rw [held]
  rfl

variable (rests : (aulPort s a).resend = none) (mac : (aulPort s a).macDue = false)
include rests mac

theorem flitSend_new : flitSend s a =
    if odGet s 0x6120 1 ≤ (aulPort s a).replay.length then sendIdle s a 0
    else if encrypts s a && ((aulPort s a).txKey (txSet s a)).isNone then sendIdle s a 0 else sendData s a := by
  rw [flitSend_up up quiet, rests, mac]
  simp only [Option.bind_none, Bool.false_eq_true, if_false]

theorem flitSend_data (plain : encrypts s a = false) (room : (aulPort s a).replay.length < odGet s 0x6120 1) :
    flitSend s a = sendData s a := by
  rw [flitSend_new up quiet rests mac, if_neg (by omega), plain]
  rfl

end Up

theorem gapOpens_frame (s : State) (p : Nat) (v : Vn) : ∃ swc, gapOpens s p v = { s with swc := swc } := by
  unfold gapOpens
  dsimp only
  split
  · exact ⟨_, rfl⟩
  · exact ⟨_, rfl⟩

theorem gaps_frame (s : State) (p : Nat) (l : List Vn) : ∃ swc, l.foldl (fun t v => gapOpens t p v) s = { s with swc := swc } := by
  refine List.foldlRecOn _ _ (motive := fun t : State => ∃ swc, t = { s with swc := swc }) ⟨_, rfl⟩ fun t ht v _ => ?_
  obtain ⟨_, rfl⟩ := ht
  obtain ⟨_, eq⟩ := gapOpens_frame { s with swc := _ } p v
  rw [eq]
  exact ⟨_, rfl⟩

/-- R252: a flit of a replay goes out again, and the next one follows. -/
theorem sendReplay_sent (s : State) (a k : Nat) (f : FlitRec) : Sent (bumpC (setAulPort s a { aulPort s a with
    replay := (aulPort s a).replay.set k { f with tries := f.tries + 1 }
    resend := if k + 1 < (aulPort s a).replay.length then some (k + 1) else none }) 0xC026 6) (sendReplay s a k f) a := by
  unfold sendReplay
  dsimp only
  rw [List.length_set]
  exact sendFlit_leaves ..

/-- R252: a new DATA flit is kept for replay under the sequence number in turn. -/
theorem sendNew_sent (s : State) (a : Nat) (cls valid : BitVec 3) (slots : BitVec 1920) : Sent (bumpC (setAulPort s a { aulPort s a with
    seq := (aulPort s a).seq + 1
    replay := (aulPort s a).replay ++ [{ seq := (aulPort s a).seq, mac := false, cls := cls, valid := valid, slots := slots, tries := 0 }] })
      0xC026 1) (sendNew s a false cls valid slots) a := sendFlit_leaves ..

/-- R246: an IDLE flit goes out where no unit is ready. -/
theorem sendData_idle {s : State} {a : Nat} (unready : ∀ v, v < 16 → readyUnit s a v = none) :
    ∃ swc, Sent { s with swc := swc } (sendData s a) a := by
  obtain ⟨swc, gaps⟩ := gaps_frame s (96 + a) allVns
  refine ⟨swc, ?_⟩
  unfold sendData
  dsimp only
  rw [gather_none unready 2, gaps]
  exact sendFlit_leaves ..

theorem sendData_plain {s : State} {a v : Nat} (vc : v < 16) (ready : (readyUnit s a v).isSome = true) (plain : encrypts s a = false) :
    ∃ cls valid slots, sendData s a = sendNew (gather s a 3).1 a false cls valid slots := by
  unfold sendData
  dsimp only
  rw [gather_some vc ready 2, plain]
  exact ⟨_, _, _, rfl⟩

/-- R248: a flit time in which no unit of an ingress pair waits. -/
theorem flitTransmit_of {s t : State} {a : Nat} (empty : ∀ v ∈ allVns, linkQueue s a v = []) (sent : flitSend s a = t)
    (queues : linkQueue t = linkQueue s) : flitTransmit s a = t := by
  unfold flitTransmit
  rw [sent]
  exact linkDrain_empty (by rw [queues]; exact empty)

/-- R252: a replay starts with the oldest flit. -/
theorem startReplay_held {s : State} {a : Nat} {f : FlitRec} {rest : List FlitRec} (held : (aulPort s a).replay = f :: rest) :
    startReplay s a = if odGet s 0x6120 6 ≤ f.tries then aulumDown s a
      else setAulPort s a { aulPort s a with nakIn := false, resend := some 0 } := by
  unfold startReplay
  dsimp only
  rw [held]

/-- R251, R252: what starts a replay. -/
theorem exec_replay {s : State} {a : Fin 16} {c : Instr} {f : FlitRec} {rest : List FlitRec} (up : linkState s a.val = linkUp)
    (starts : (c = .nakReceived a ∧ (aulPort s a.val).nakIn = true) ∨ c = .replayTimerExpire a)
    (held : (aulPort s a.val).replay = f :: rest) : exec c s = .next (startReplay s a) := by
  rcases starts with ⟨rfl, nak⟩ | rfl
  · exact if_pos ⟨up, nak⟩
  · exact if_pos ⟨up, by rw [held]; rfl⟩

/-- R249: what a received DATA flit in order leaves. -/
theorem flitReceive_data {s : State} {a n : Nat} {b : LaneBlocks} {w : BitVec 2048} {f : Flit} (small : a < 16) (up : linkState s a = linkUp)
    (decoded : fecDecode (fecBlock (aulPort s a).lanes.length b) = some (w, n)) (flit : flitOf w = some f) (data : f.type = 1)
    (order : f.seq = (aulPort s a).expect) (clear : encrypts s a = false) :
    (aulPort (flitReceive s a b) a).expect = (aulPort s a).expect + 1 ∧
      counter (flitReceive s a b) (counterNo 0xC026 2) = counter s (counterNo 0xC026 2) + 1 ∧ (aulPort (flitReceive s a b) a).nakAt = none ∧
      (∀ c, c ≠ a → aulPort (flitReceive s a b) c = aulPort s c) ∧ linkState (flitReceive s a b) a = linkUp := by
  have corrected : Kept a s (bumpCBy s 0xC026 7 n) := .bump s (by decide) n
  obtain ⟨expect, nak, others, state, count⟩ := goodFlit_data (s := bumpCBy s 0xC026 7 n) small data order clear
  have run : flitReceive s a b = linkDrain (blockTaken (bumpCBy s 0xC026 7 n) a (laneParity (aulPort s a).lanes b) w) a := by
    unfold flitReceive
    dsimp only
    rw [if_pos (.inl up), decoded]
  have taken := (blockTaken_data (s := bumpCBy s 0xC026 7 n) small up flit data order clear (laneParity (aulPort s a).lanes b)).trans
    (Kept.linkDrain _)
  rw [run]
  refine ⟨?_, ?_, ?_, fun c apart => ?_, ?_⟩
  · rw [taken.expect, expect, corrected.expect]
  · rw [taken.count, count, corrected.count]
  · rw [taken.nakAt, nak]
  · rw [taken.others c apart, others c apart, corrected.others c apart]
  · rw [taken.state, state, corrected.state, up]

theorem flitReceive_bad {s : State} {a : Nat} {b : LaneBlocks} (runs : linkState s a = linkUp ∨ linkState s a = linkPaused)
    (bad : fecDecode (fecBlock (aulPort s a).lanes.length b) = none) :
    flitReceive s a b = badBlock s a (laneParity (aulPort s a).lanes b) := by
  unfold flitReceive
  dsimp only
  rw [if_pos runs, bad]

/-- Settles O34: flits in order, bad blocks, Acks, replays, and what a port sends. -/
theorem aulumFlitsAndTransmit : Obligations.AulumFlitsAndTransmit := by
  unfold Obligations.AulumFlitsAndTransmit
  refine ⟨?data, ?bad, ?ack, ?replays, ?nak, ?replay, ?idle, ?new⟩
  case data =>
    intro a b w n f s up decoded flit data order clear
    obtain ⟨expect, count, nak, others, state⟩ := flitReceive_data a.isLt up decoded flit data order clear
    exact ⟨_, rfl, expect, count, nak, others, state, (execAulumFlitReceive_keep a b s).1⟩
  case bad =>
    intro a b s runs bad first
    have run : execAulumFlitReceive a b s = .next (badBlock s a (laneParity (aulPort s a).lanes b)) :=
      congrArg Host.Outcome.next (flitReceive_bad runs bad)
    rw [badBlock_first first, keepParity] at run
    have record : aulPort (setAulPort (bumpC s 0xC026 3) a { aulPort s a with nakDue := true, nakAt := some s.time.clock }) a =
        { aulPort s a with nakDue := true, nakAt := some s.time.clock } := aulPort_setAulPort ..
    rw [record] at run
    refine ⟨_, run, ?_, ?_, ?_, ?_, ?_⟩
    · rw [aulPort_setAulPort]
    · rw [aulPort_setAulPort]
    · rw [aulPort_setAulPort]
    · exact (counter_congr (setAulPort_perf ..) _).trans ((counter_congr (setAulPort_perf ..) _).trans (counter_bump_same _ _ 1))
    · rfl
  case ack =>
    intro a s some'
    exact ⟨_, if_neg some', aulPort_setAulPort .., rfl⟩
  case replays =>
    intro a c f rest s up starts held
    have run := exec_replay up starts held
    rw [startReplay_held held] at run
    by_cases tried : odGet s 0x6120 6 ≤ f.tries
    · rw [if_pos tried, aulumDown_eq] at run
      have record : aulPort (setLink (setAulPort s a (downPort (aulPort s a))) a linkDown) a = downPort (aulPort s a) := by
        rw [aulPort_setLink, aulPort_setAulPort]
      refine ⟨_, run, ?_, ?_, fun more => absurd more (by omega), fun _ => ⟨?_, linkState_setLink ..⟩, rfl⟩
      · rw [record]
        rfl
      · rw [record]
        exact held
      · rw [record]
        rfl
    · rw [if_neg tried] at run
      have record := aulPort_setAulPort s a { aulPort s a with nakIn := false, resend := some 0 }
      refine ⟨_, run, ?_, ?_, fun _ => ⟨?_, up⟩, fun done => absurd done tried, rfl⟩
      · rw [record]
      · rw [record]
        exact held
      · rw [record]
  case nak =>
    intro a s runs due empty
    have sent : Sent (bumpC (setAulPort s a { aulPort s a with nakDue := false }) 0xC026 5) (nakSent s a) a := sendFlit_leaves ..
    have record := aulPort_setAulPort s a { aulPort s a with nakDue := false }
    obtain ⟨b, out⟩ := sent.out
    obtain ⟨ports, out', frame⟩ := sent.touched
    refine ⟨_, b, congrArg Host.Outcome.next (flitTransmit_of empty (flitSend_nak runs due) sent.queues), out, ?_, ?_, ?_, ?_⟩
    · rw [sent.nakDue, aulPort_bumpC, record]
    · rw [counter_congr sent.perf]
      exact counter_bump_same _ _ 1
    · rw [sent.seq, aulPort_bumpC, record]
    · rw [frame]
      rfl
  case replay =>
    intro a k f s up quiet empty resend held
    have sent := sendReplay_sent s a k f
    have record := aulPort_setAulPort s a { aulPort s a with
      replay := (aulPort s a).replay.set k { f with tries := f.tries + 1 }
      resend := if k + 1 < (aulPort s a).replay.length then some (k + 1) else none }
    obtain ⟨b, out⟩ := sent.out
    obtain ⟨ports, out', frame⟩ := sent.touched
    refine ⟨_, b, congrArg Host.Outcome.next (flitTransmit_of empty (flitSend_replay up quiet resend held) sent.queues), out, ?_, ?_, ?_, ?_⟩
    · rw [sent.replay, aulPort_bumpC, record]
    · rw [sent.resend, aulPort_bumpC, record]
    · rw [counter_congr sent.perf]
      exact counter_bump_same _ _ 1
    · rw [frame]
      rfl
  case idle =>
    intro a s up quiet empty rests mac unready
    have idle : ∃ swc, Sent { s with swc := swc } (flitSend s a) a := by
      rw [flitSend_new up quiet rests mac]
      split
      · exact ⟨s.swc, sendFlit_leaves ..⟩
      · split
        · exact ⟨s.swc, sendFlit_leaves ..⟩
        · exact sendData_idle unready
    obtain ⟨swc, sent⟩ := idle
    obtain ⟨b, out⟩ := sent.out
    obtain ⟨ports, out', frame⟩ := sent.touched
    refine ⟨_, b, congrArg Host.Outcome.next (flitTransmit_of empty rfl sent.queues), out, sent.seq, sent.replay, ?_⟩
    rw [frame]
  case new =>
    intro a v s up quiet empty rests mac plain room ready
    obtain ⟨cls, valid, slots, data⟩ := sendData_plain v.isLt ready plain
    have taken := Gathered.gather a 3 s
    have sent := sendNew_sent (gather s a 3).1 a cls valid slots
    have record := aulPort_setAulPort (gather s a 3).1 a { aulPort (gather s a 3).1 a with
      seq := (aulPort (gather s a 3).1 a).seq + 1
      replay := (aulPort (gather s a 3).1 a).replay ++
        [{ seq := (aulPort (gather s a 3).1 a).seq, mac := false, cls := cls, valid := valid, slots := slots, tries := 0 }] }
    generalize (gather s a 3).1 = q at taken sent record data
    obtain ⟨b, out⟩ := sent.out
    obtain ⟨ports, out', frame⟩ := sent.touched
    have send := (flitSend_data up quiet rests mac plain room).trans data
    refine ⟨_, b, { seq := (aulPort q a).seq, mac := false, cls := cls, valid := valid, slots := slots, tries := 0 },
      congrArg Host.Outcome.next (flitTransmit_of empty send (sent.queues.trans taken.queues)), ?_, taken.seq, rfl, rfl, ?_, ?_, ?_, ?_⟩
    · rw [out]
      obtain ⟨_, _, _, _, _, rfl⟩ := taken.touched
      rfl
    · rw [sent.replay, ← taken.replay, aulPort_bumpC, record]
    · rw [sent.seq, ← taken.seq, aulPort_bumpC, record]
    · rw [counter_congr sent.perf, ← taken.counters _ (by decide) (by decide) (by decide)]
      exact counter_bump_same _ _ 1
    · obtain ⟨_, _, _, _, _, rfl⟩ := taken.touched
      rw [frame]
      rfl

end Sys2Proof.Proofs.AulumFlits

/-!
What the accesses of the mover, its executions and its cache leave alone: the queues. One rule per operation, in the order of the
model.
-/

namespace Sys2Proof.Proofs.MoverFrames

open Sys2Proof Sys2Proof.Machine Sys2Proof.Laws Sys2Proof.Proofs.Shared

@[simp] theorem ite_sqs (c : Prop) [Decidable c] (a b : State) :
    (if c then a else b).mov.sqs = if c then a.mov.sqs else b.mov.sqs :=
  apply_ite (fun s : State => s.mov.sqs) c a b

@[simp] theorem ite_fst_sqs {α : Type} (c : Prop) [Decidable c] (a b : State × α) :
    (if c then a else b).1.mov.sqs = if c then a.1.mov.sqs else b.1.mov.sqs :=
  apply_ite (fun s : State × α => s.1.mov.sqs) c a b

@[simp] theorem foldl_sqs {α : Type} (f : State → α → State) (l : List α) (s : State)
    (h : ∀ s a, (f s a).mov.sqs = s.mov.sqs) : (l.foldl f s).mov.sqs = s.mov.sqs :=
  List.foldlRecOn _ _ (motive := fun t : State => t.mov.sqs = s.mov.sqs) rfl fun t ht a _ => (h t a).trans ht

@[simp] theorem foldl_fst_sqs {α β : Type} (f : State × β → α → State × β) (l : List α) (s : State × β)
    (h : ∀ s a, (f s a).1.mov.sqs = s.1.mov.sqs) : (l.foldl f s).1.mov.sqs = s.1.mov.sqs :=
  List.foldlRecOn _ _ (motive := fun t : State × β => t.1.mov.sqs = s.1.mov.sqs) rfl fun t ht a _ => (h t a).trans ht

@[simp] theorem ite_cqs (c : Prop) [Decidable c] (a b : State) :
    (if c then a else b).mov.cqs = if c then a.mov.cqs else b.mov.cqs :=
  apply_ite (fun s : State => s.mov.cqs) c a b

@[simp] theorem ite_fst_cqs {α : Type} (c : Prop) [Decidable c] (a b : State × α) :
    (if c then a else b).1.mov.cqs = if c then a.1.mov.cqs else b.1.mov.cqs :=
  apply_ite (fun s : State × α => s.1.mov.cqs) c a b

@[simp] theorem foldl_cqs {α : Type} (f : State → α → State) (l : List α) (s : State)
    (h : ∀ s a, (f s a).mov.cqs = s.mov.cqs) : (l.foldl f s).mov.cqs = s.mov.cqs :=
  List.foldlRecOn _ _ (motive := fun t : State => t.mov.cqs = s.mov.cqs) rfl fun t ht a _ => (h t a).trans ht

@[simp] theorem foldl_fst_cqs {α β : Type} (f : State × β → α → State × β) (l : List α) (s : State × β)
    (h : ∀ s a, (f s a).1.mov.cqs = s.1.mov.cqs) : (l.foldl f s).1.mov.cqs = s.1.mov.cqs :=
  List.foldlRecOn _ _ (motive := fun t : State × β => t.1.mov.cqs = s.1.mov.cqs) rfl fun t ht a _ => (h t a).trans ht

theorem foldl_kept {α : Type} (f : State → α → State) (l : List α) (s : State)
    (h : ∀ t a, (f t a).mov.sqs = t.mov.sqs ∧ (f t a).mov.cqs = t.mov.cqs) :
    (l.foldl f s).mov.sqs = s.mov.sqs ∧ (l.foldl f s).mov.cqs = s.mov.cqs :=
  ⟨foldl_sqs f l s fun t a => (h t a).1, foldl_cqs f l s fun t a => (h t a).2⟩

theorem foldl_fst_kept {α β : Type} (s : State) (f : State × β → α → State × β) (l : List α) (r : State × β)
    (start : r.1.mov.sqs = s.mov.sqs ∧ r.1.mov.cqs = s.mov.cqs)
    (h : ∀ r a, (f r a).1.mov.sqs = r.1.mov.sqs ∧ (f r a).1.mov.cqs = r.1.mov.cqs) :
    (l.foldl f r).1.mov.sqs = s.mov.sqs ∧ (l.foldl f r).1.mov.cqs = s.mov.cqs :=
  ⟨(foldl_fst_sqs f l r fun r a => (h r a).1).trans start.1, (foldl_fst_cqs f l r fun r a => (h r a).2).trans start.2⟩

@[simp] theorem checkDone_queues (s : State) (f : Nat) : (checkDone s f).mov.sqs = s.mov.sqs ∧ (checkDone s f).mov.cqs = s.mov.cqs :=
  ⟨rfl, rfl⟩

@[simp] theorem lpddrChecked_queues (s : State) (a : Nat) :
    (lpddrChecked s a).1.mov.sqs = s.mov.sqs ∧ (lpddrChecked s a).1.mov.cqs = s.mov.cqs := by simp [lpddrChecked]

@[simp] theorem setXing_queues (s : State) (c : Nat) (x : Crossing) :
    (setXing s c x).mov.sqs = s.mov.sqs ∧ (setXing s c x).mov.cqs = s.mov.cqs := ⟨rfl, rfl⟩

@[simp] theorem crossSend_queues (s : State) (c : Nat) (h : Held) :
    (crossSend s c h).mov.sqs = s.mov.sqs ∧ (crossSend s c h).mov.cqs = s.mov.cqs := ⟨rfl, rfl⟩

@[simp] theorem niPush_queues (s : State) (n : Nat) (a : Nat) (h : Held) :
    (niPush s n a h).mov.sqs = s.mov.sqs ∧ (niPush s n a h).mov.cqs = s.mov.cqs := ⟨rfl, rfl⟩

@[simp] theorem nextUnit_queues (s : State) : (nextUnit s).mov.sqs = s.mov.sqs ∧ (nextUnit s).mov.cqs = s.mov.cqs := ⟨rfl, rfl⟩

@[simp] theorem sendAt_queues (s : State) (n : Nat) (a : Nat) (u : FUnit) (t : Option Tlp) (hpa : Option (Nat × BitVec 46)) :
    (sendAt s n a u t hpa).mov.sqs = s.mov.sqs ∧ (sendAt s n a u t hpa).mov.cqs = s.mov.cqs := by
  unfold sendAt
  split <;> simp

@[simp] theorem send_queues (s : State) (u : FUnit) : (send s u).mov.sqs = s.mov.sqs ∧ (send s u).mov.cqs = s.mov.cqs := by
  simp [send]

@[simp] theorem sendTlpBy_queues (s : State) (n : Nat) (a : Nat) (t : Tlp) (src : BitVec 12) (dst : BitVec 12) (tag : BitVec 16)
    (f : FUnit → FUnit) :
    (sendTlpBy s n a t src dst tag f).mov.sqs = s.mov.sqs ∧ (sendTlpBy s n a t src dst tag f).mov.cqs = s.mov.cqs := by
  simp [sendTlpBy]

@[simp] theorem sendTlp_queues (s : State) (n : Nat) (a : Nat) (t : Tlp) (src : BitVec 12) (dst : BitVec 12) (tag : BitVec 16) :
    (sendTlp s n a t src dst tag).mov.sqs = s.mov.sqs ∧ (sendTlp s n a t src dst tag).mov.cqs = s.mov.cqs := by simp [sendTlp]

@[simp] theorem refusal_queues (s : State) (v : Nat) (p : Nat) (wr : Bool) :
    (refusal s v p wr).mov.sqs = s.mov.sqs ∧ (refusal s v p wr).mov.cqs = s.mov.cqs := by simp [refusal]

@[simp] theorem setFunc_queues (s : State) (n : Nat) (f : Func) :
    (setFunc s n f).mov.sqs = s.mov.sqs ∧ (setFunc s n f).mov.cqs = s.mov.cqs := ⟨rfl, rfl⟩

@[simp] theorem setVppb_queues (s : State) (v : Nat) (d : Nat) (x : Vppb) :
    (setVppb s v d x).mov.sqs = s.mov.sqs ∧ (setVppb s v d x).mov.cqs = s.mov.cqs := ⟨rfl, rfl⟩

@[simp] theorem bumpFn_queues (s : State) (fn : Nat) (e : Nat) (k : Nat) :
    (bumpFn s fn e k).mov.sqs = s.mov.sqs ∧ (bumpFn s fn e k).mov.cqs = s.mov.cqs := by
  unfold bumpFn
  repeat' split
  all_goals simp

@[simp] theorem hostWrite_queues (s : State) (v : Nat) (rid : BitVec 16) (addr : Nat) (data : List Byte) (poison : Bool) :
    (hostWrite s v rid addr data poison).mov.sqs = s.mov.sqs ∧ (hostWrite s v rid addr data poison).mov.cqs = s.mov.cqs := by
  unfold hostWrite
  split <;> simp

@[simp] theorem setLogCh_queues (s : State) (c : Nat) (x : LogCh) :
    (setLogCh s c x).mov.sqs = s.mov.sqs ∧ (setLogCh s c x).mov.cqs = s.mov.cqs := ⟨rfl, rfl⟩

@[simp] theorem lcbWrite_queues (s : State) (c : Nat) (off : Nat) (data : List Byte) :
    (lcbWrite s c off data).mov.sqs = s.mov.sqs ∧ (lcbWrite s c off data).mov.cqs = s.mov.cqs := by simp [lcbWrite]

@[simp] theorem lcbProducer_queues (s : State) (c : Nat) :
    (lcbProducer s c).mov.sqs = s.mov.sqs ∧ (lcbProducer s c).mov.cqs = s.mov.cqs := by simp [lcbProducer]

@[simp] theorem logState_queues (s : State) (c : Nat) (x : LogCh) :
    (logState s c x).mov.sqs = s.mov.sqs ∧ (logState s c x).mov.cqs = s.mov.cqs := by simp [logState]

@[simp] theorem logEntry_queues (s : State) (c : Nat) (page : Nat) (x : LogCh) :
    (logEntry s c page x).mov.sqs = s.mov.sqs ∧ (logEntry s c page x).mov.cqs = s.mov.cqs := by simp [logEntry]

@[simp] theorem logCount_queues (s : State) (c : Nat) (e : Nat) :
    (logCount s c e).mov.sqs = s.mov.sqs ∧ (logCount s c e).mov.cqs = s.mov.cqs := by simp [logCount]

@[simp] theorem logEvent_queues (s : State) (c : Nat) (a : Nat) :
    (logEvent s c a).mov.sqs = s.mov.sqs ∧ (logEvent s c a).mov.cqs = s.mov.cqs := by simp [logEvent]

@[simp] theorem logFunc_queues (s : State) (f : Nat) (a : Nat) :
    (logFunc s f a).mov.sqs = s.mov.sqs ∧ (logFunc s f a).mov.cqs = s.mov.cqs := by simp [logFunc]

@[simp] theorem logTrackers_queues (s : State) (v a : Nat) :
    (logTrackers s v a).mov.sqs = s.mov.sqs ∧ (logTrackers s v a).mov.cqs = s.mov.cqs := by simp [logTrackers]

@[simp] theorem setEjectBuf_queues (s : State) (n : Nat) (a : Nat) (v : Vn) (l : List Held) :
    (setEjectBuf s n a v l).mov.sqs = s.mov.sqs ∧ (setEjectBuf s n a v l).mov.cqs = s.mov.cqs := ⟨rfl, rfl⟩

@[simp] theorem aerAt_queues (s : State) (p : Nat) (ld : Nat) (f : AerState → AerState) :
    (aerAt s p ld f).mov.sqs = s.mov.sqs ∧ (aerAt s p ld f).mov.cqs = s.mov.cqs := by
  unfold aerAt
  repeat' split
  all_goals simp

@[simp] theorem bumpPort_queues (s : State) (p : Nat) (ld : Nat) (e : Nat) (k : Nat) :
    (bumpPort s p ld e k).mov.sqs = s.mov.sqs ∧ (bumpPort s p ld e k).mov.cqs = s.mov.cqs := by
  unfold bumpPort
  split <;> simp

@[simp] theorem aerUnsupported_queues (s : State) (p : Nat) (t : Tlp) :
    (aerUnsupported s p t).mov.sqs = s.mov.sqs ∧ (aerUnsupported s p t).mov.cqs = s.mov.cqs := by simp [aerUnsupported]

@[simp] theorem takeNo_queues (s : State) : (takeNo s).mov.sqs = s.mov.sqs ∧ (takeNo s).mov.cqs = s.mov.cqs := ⟨rfl, rfl⟩

@[simp] theorem guardPart_queues (s : State) (v : Nat) (rd : Bool) (wr : Bool) (x : MovPart) :
    (guardPart s v rd wr x).1.mov.sqs = s.mov.sqs ∧ (guardPart s v rd wr x).1.mov.cqs = s.mov.cqs := by
  unfold guardPart
  split <;> simp

@[simp] theorem guardParts_queues (s : State) (v : Nat) (rd wr : Bool) (ps : List MovPart) :
    (guardParts s v rd wr ps).1.mov.sqs = s.mov.sqs ∧ (guardParts s v rd wr ps).1.mov.cqs = s.mov.cqs := by simp [guardParts]

@[simp] theorem openAccess_queues (s : State) (fn : Option Nat) (v : Nat) (write : Bool) (guarded : Bool) (use : MovUse) (addr : Nat)
    (len : Nat) (data : List Byte) (poison : Nat → Bool) :
    (openAccess s fn v write guarded use addr len data poison).mov.sqs = s.mov.sqs ∧
    (openAccess s fn v write guarded use addr len data poison).mov.cqs = s.mov.cqs := by
  simp [openAccess]

@[simp] theorem setPart_queues (s : State) (id : Nat) (off : Nat) (f : MovPart → MovPart) :
    (setPart s id off f).mov.sqs = s.mov.sqs ∧ (setPart s id off f).mov.cqs = s.mov.cqs := ⟨rfl, rfl⟩

@[simp] theorem cacheRequest_queues (s : State) (ty : Nat) (tag : Nat) (h : Nat) (l : BitVec 42) (nacks : Nat) (senior : Bool)
    (first : BitVec 32) (mask : BitVec 64) :
    (cacheRequest s ty tag h l nacks senior first mask).mov.sqs = s.mov.sqs ∧
    (cacheRequest s ty tag h l nacks senior first mask).mov.cqs = s.mov.cqs := by
  simp [cacheRequest]

@[simp] theorem sendPart_queues (s : State) (write : Bool) (x : MovPart) (h : Nat) (l : BitVec 42) :
    (sendPart s write x h l).mov.sqs = s.mov.sqs ∧ (sendPart s write x h l).mov.cqs = s.mov.cqs := by simp [sendPart]

@[simp] theorem sendHostPart_queues (s : State) (fn : Option Nat) (v : Nat) (p : Nat) (write : Bool) (x : MovPart) :
    (sendHostPart s fn v p write x).mov.sqs = s.mov.sqs ∧ (sendHostPart s fn v p write x).mov.cqs = s.mov.cqs := by
  simp [sendHostPart]

@[simp] theorem issuePart_queues (s : State) (a : MovAcc) (x : MovPart) :
    (issuePart s a x).mov.sqs = s.mov.sqs ∧ (issuePart s a x).mov.cqs = s.mov.cqs := by
  unfold issuePart
  repeat' split
  all_goals simp

@[simp] theorem issueParts_queues (s : State) : (issueParts s).mov.sqs = s.mov.sqs ∧ (issueParts s).mov.cqs = s.mov.cqs := by
  simp [issueParts]

@[simp] theorem npDone_queues (s : State) (tag : BitVec 16) :
    (npDone s tag).mov.sqs = s.mov.sqs ∧ (npDone s tag).mov.cqs = s.mov.cqs := ⟨rfl, rfl⟩

@[simp] theorem hostUnit_queues (s : State) (h : Held) : (hostUnit s h).mov.sqs = s.mov.sqs ∧ (hostUnit s h).mov.cqs = s.mov.cqs := by
  unfold hostUnit
  repeat' split
  all_goals simp

@[simp] theorem writesGone_queues (s : State) : (writesGone s).mov.sqs = s.mov.sqs ∧ (writesGone s).mov.cqs = s.mov.cqs := ⟨rfl, rfl⟩

@[simp] theorem hostTimeouts_queues (s : State) : (hostTimeouts s).mov.sqs = s.mov.sqs ∧ (hostTimeouts s).mov.cqs = s.mov.cqs := by
  simp [hostTimeouts]

@[simp] theorem absorbHost_queues (s : State) : (absorbHost s).mov.sqs = s.mov.sqs ∧ (absorbHost s).mov.cqs = s.mov.cqs := by
  simp [absorbHost]

@[simp] theorem cacheBackoff_queues (s : State) (n : Nat) :
    (cacheBackoff s n).1.mov.sqs = s.mov.sqs ∧ (cacheBackoff s n).1.mov.cqs = s.mov.cqs := ⟨rfl, rfl⟩

@[simp] theorem countSenior_queues (s : State) (n : Nat) :
    (countSenior s n).mov.sqs = s.mov.sqs ∧ (countSenior s n).mov.cqs = s.mov.cqs := by simp [countSenior]

@[simp] theorem partAnswer_queues (s : State) (a : MovAcc) (x : MovPart) (u : FUnit) :
    (partAnswer s a x u).mov.sqs = s.mov.sqs ∧ (partAnswer s a x u).mov.cqs = s.mov.cqs := by
  unfold partAnswer
  repeat' split
  all_goals simp

@[simp] theorem accessCounted_queues (s : State) (a : MovAcc) :
    (accessCounted s a).mov.sqs = s.mov.sqs ∧ (accessCounted s a).mov.cqs = s.mov.cqs := by
  unfold accessCounted
  split <;> simp

@[simp] theorem setMcLines_queues (s : State) (k : Nat) (ls : List CacheLine) :
    (setMcLines s k ls).mov.sqs = s.mov.sqs ∧ (setMcLines s k ls).mov.cqs = s.mov.cqs := ⟨rfl, rfl⟩

@[simp] theorem mcPut_queues (s : State) (x : CacheLine) : (mcPut s x).mov.sqs = s.mov.sqs ∧ (mcPut s x).mov.cqs = s.mov.cqs :=
  ⟨rfl, rfl⟩

@[simp] theorem mcDrop_queues (s : State) (h : Nat) (l : BitVec 42) :
    (mcDrop s h l).mov.sqs = s.mov.sqs ∧ (mcDrop s h l).mov.cqs = s.mov.cqs := ⟨rfl, rfl⟩

@[simp] theorem setEvict_queues (s : State) (e : CacheEvict) :
    (setEvict s e).mov.sqs = s.mov.sqs ∧ (setEvict s e).mov.cqs = s.mov.cqs := ⟨rfl, rfl⟩

@[simp] theorem sendEvict_queues (s : State) (e : CacheEvict) :
    (sendEvict s e).mov.sqs = s.mov.sqs ∧ (sendEvict s e).mov.cqs = s.mov.cqs := by
  unfold sendEvict
  split <;> simp

@[simp] theorem applyAtom_queues (s : State) (x : CacheLine) (o : AtomOp) :
    (applyAtom s x o).1.mov.sqs = s.mov.sqs ∧ (applyAtom s x o).1.mov.cqs = s.mov.cqs := by simp [applyAtom]

@[simp] theorem runOps_queues (s : State) (h : Nat) (l : BitVec 42) (fail : Option Nat) :
    (runOps s h l fail).1.mov.sqs = s.mov.sqs ∧ (runOps s h l fail).1.mov.cqs = s.mov.cqs := by
  unfold runOps
  refine foldl_fst_kept s _ _ _ ⟨rfl, rfl⟩ fun r o => ?_
  dsimp only
  split <;> simp

@[simp] theorem askLine_queues (s : State) (h : Nat) (l : BitVec 42) (owner : Option Nat) :
    (askLine s h l owner).mov.sqs = s.mov.sqs ∧ (askLine s h l owner).mov.cqs = s.mov.cqs := by
  unfold askLine
  repeat' split
  all_goals simp

@[simp] theorem askLines_queues (s : State) : (askLines s).mov.sqs = s.mov.sqs ∧ (askLines s).mov.cqs = s.mov.cqs := by
  simp [askLines]

@[simp] theorem startOp_queues (s : State) (o : AtomOp) : (startOp s o).1.mov.sqs = s.mov.sqs ∧ (startOp s o).1.mov.cqs = s.mov.cqs := by
  simp [startOp]

theorem evictLine_queues {s : State} {x : CacheLine} {r : State × Nat} (h : evictLine s x = some r) :
    r.1.mov.sqs = s.mov.sqs ∧ r.1.mov.cqs = s.mov.cqs := by
  obtain ⟨t, -, rfl⟩ := Option.map_eq_some_iff.1 h
  simp

@[simp] theorem fillData_queues (s : State) (f : CacheFill) (d : LineData) (poison : Bool) :
    (fillData s f d poison).1.mov.sqs = s.mov.sqs ∧ (fillData s f d poison).1.mov.cqs = s.mov.cqs := by
  unfold fillData
  extract_lets mov s1 s2
  have made : s2.mov.sqs = s.mov.sqs ∧ s2.mov.cqs = s.mov.cqs := by
    unfold s2
    split
    · next v _ =>
      cases h : evictLine s1 v with
      | none => exact mcDrop_queues ..
      | some r => exact (evictLine_queues h).imp (·.trans rfl) (·.trans rfl)
    · exact ⟨rfl, rfl⟩
  simpa using made

@[simp] theorem fillAnswer_queues (s : State) (f : CacheFill) (u : FUnit) :
    (fillAnswer s f u).1.mov.sqs = s.mov.sqs ∧ (fillAnswer s f u).1.mov.cqs = s.mov.cqs := by
  unfold fillAnswer
  repeat' split
  all_goals simp

@[simp] theorem evictDone_queues (s : State) (e : CacheEvict) :
    (evictDone s e).mov.sqs = s.mov.sqs ∧ (evictDone s e).mov.cqs = s.mov.cqs := by simp [evictDone]

@[simp] theorem evictWrOwn_queues (s : State) (e : CacheEvict) :
    (evictWrOwn s e).mov.sqs = s.mov.sqs ∧ (evictWrOwn s e).mov.cqs = s.mov.cqs := by
  unfold evictWrOwn
  split <;> simp

@[simp] theorem evictAnswer_queues (s : State) (e : CacheEvict) (u : FUnit) :
    (evictAnswer s e u).mov.sqs = s.mov.sqs ∧ (evictAnswer s e u).mov.cqs = s.mov.cqs := by
  unfold evictAnswer
  repeat' split
  all_goals simp

@[simp] theorem cacheReply_queues (s : State) (u : FUnit) (b : SnpFields) (d : LineData) (poison : Bool) (dirty : Bool) (keptS : Bool) :
    (cacheReply s u b d poison dirty keptS).mov.sqs = s.mov.sqs ∧ (cacheReply s u b d poison dirty keptS).mov.cqs = s.mov.cqs := by
  simp [cacheReply]

@[simp] theorem cacheSnoop_queues (s : State) (u : FUnit) :
    (cacheSnoop s u).mov.sqs = s.mov.sqs ∧ (cacheSnoop s u).mov.cqs = s.mov.cqs := by
  unfold cacheSnoop
  dsimp only
  split <;> simp

@[simp] theorem setExec_queues (s : State) (e : Exec) : (setExec s e).mov.sqs = s.mov.sqs ∧ (setExec s e).mov.cqs = s.mov.cqs :=
  ⟨rfl, rfl⟩

@[simp] theorem startPiece_queues (s : State) (e : Exec) :
    (startPiece s e).mov.sqs = s.mov.sqs ∧ (startPiece s e).mov.cqs = s.mov.cqs := by
  unfold startPiece
  dsimp only
  split <;> simp

theorem spendFor?_queues {s t : State} {fn k : Nat} (h : spendFor? s fn k = some t) :
    t.mov.sqs = s.mov.sqs ∧ t.mov.cqs = s.mov.cqs := by
  obtain ⟨u, spent, rfl⟩ := Option.map_eq_some_iff.1 h
  obtain ⟨g, -, rfl⟩ := Option.map_eq_some_iff.1 spent
  simp

@[simp] theorem startPieces_queues (s : State) (x n : Nat) :
    (startPieces s x n).mov.sqs = s.mov.sqs ∧ (startPieces s x n).mov.cqs = s.mov.cqs := by
  induction n generalizing s with
  | zero => exact ⟨rfl, rfl⟩
  | succ n ih =>
    unfold startPieces
    split
    · simp
    · split
      · split
        · simp
        · next spent =>
          have paid := spendFor?_queues spent
          simp [ih, paid]
      · simp

@[simp] theorem startExec_queues (s : State) (x : Nat) : (startExec s x).mov.sqs = s.mov.sqs ∧ (startExec s x).mov.cqs = s.mov.cqs := by
  unfold startExec
  split <;> simp

@[simp] theorem startWaiting_queues (s : State) : (startWaiting s).mov.sqs = s.mov.sqs ∧ (startWaiting s).mov.cqs = s.mov.cqs := by
  simp [startWaiting]

@[simp] theorem eatPieces_queues (s : State) (x n : Nat) :
    (eatPieces s x n).mov.sqs = s.mov.sqs ∧ (eatPieces s x n).mov.cqs = s.mov.cqs := by
  induction n generalizing s with
  | zero => exact ⟨rfl, rfl⟩
  | succ n ih =>
    unfold eatPieces
    repeat' split
    all_goals simp [ih]

@[simp] theorem sourceDone_queues (s : State) (e : Exec) (off : Nat) (a : MovAcc) :
    (sourceDone s e off a).mov.sqs = s.mov.sqs ∧ (sourceDone s e off a).mov.cqs = s.mov.cqs := by simp [sourceDone]

@[simp] theorem compareDone_queues (s : State) (e : Exec) (off : Nat) (a : MovAcc) (b : MovAcc) :
    (compareDone s e off a b).mov.sqs = s.mov.sqs ∧ (compareDone s e off a b).mov.cqs = s.mov.cqs := ⟨rfl, rfl⟩

@[simp] theorem destDone_queues (s : State) (e : Exec) (off : Nat) (a : MovAcc) :
    (destDone s e off a).mov.sqs = s.mov.sqs ∧ (destDone s e off a).mov.cqs = s.mov.cqs := ⟨rfl, rfl⟩

@[simp] theorem contextDone_queues (s : State) (e : Exec) (a : MovAcc) :
    (contextDone s e a).mov.sqs = s.mov.sqs ∧ (contextDone s e a).mov.cqs = s.mov.cqs := by
  unfold contextDone
  split <;> simp

@[simp] theorem atomDone_queues (s : State) (x : Nat) (r : AtomEnd) :
    (atomDone s x r).mov.sqs = s.mov.sqs ∧ (atomDone s x r).mov.cqs = s.mov.cqs := by
  unfold atomDone
  repeat' split
  all_goals simp

@[simp] theorem wrapUp_queues (s : State) (x : Nat) : (wrapUp s x).mov.sqs = s.mov.sqs ∧ (wrapUp s x).mov.cqs = s.mov.cqs := by
  unfold wrapUp
  dsimp only
  repeat' split
  all_goals simp

@[simp] theorem dropAccess_queues (s : State) (id : Nat) :
    (dropAccess s id).mov.sqs = s.mov.sqs ∧ (dropAccess s id).mov.cqs = s.mov.cqs := ⟨rfl, rfl⟩

@[simp] theorem lcbDone_queues (s : State) (c : Nat) (a : MovAcc) :
    (lcbDone s c a).mov.sqs = s.mov.sqs ∧ (lcbDone s c a).mov.cqs = s.mov.cqs := by simp [lcbDone]

@[simp] theorem settleOne_queues (s : State) (a : MovAcc) :
    (settleOne s a).mov.sqs = s.mov.sqs ∧ (settleOne s a).mov.cqs = s.mov.cqs := by
  unfold settleOne
  dsimp only
  repeat' split
  all_goals simp

@[simp] theorem settleAll_queues (n : Nat) (s : State) :
    (settleAll n s).mov.sqs = s.mov.sqs ∧ (settleAll n s).mov.cqs = s.mov.cqs := by
  induction n generalizing s with
  | zero => exact ⟨rfl, rfl⟩
  | succ n ih =>
    unfold settleAll
    split
    · exact ⟨rfl, rfl⟩
    · simp [ih]

@[simp] theorem evictRange_queues (s : State) (hit : CacheLine → Bool) :
    (evictRange s hit).1.mov.sqs = s.mov.sqs ∧ (evictRange s hit).1.mov.cqs = s.mov.cqs := by
  unfold evictRange
  refine foldl_fst_kept s _ _ _ ⟨rfl, rfl⟩ fun r x => ?_
  split
  · next evicted => exact evictLine_queues evicted
  · simp

@[simp] theorem flushScan_queues (s : State) (x : Nat) : (flushScan s x).mov.sqs = s.mov.sqs ∧ (flushScan s x).mov.cqs = s.mov.cqs := by
  unfold flushScan
  split <;> simp

@[simp] theorem flushAllScan_queues (s : State) : (flushAllScan s).mov.sqs = s.mov.sqs ∧ (flushAllScan s).mov.cqs = s.mov.cqs := by
  simp [flushAllScan]

@[simp] theorem moverTurn_queues (s : State) : (moverTurn s).mov.sqs = s.mov.sqs ∧ (moverTurn s).mov.cqs = s.mov.cqs := by
  simp [moverTurn]

@[simp] theorem raiseVector_queues (s : State) (fn : Nat) (v : Nat) :
    (raiseVector s fn v).mov.sqs = s.mov.sqs ∧ (raiseVector s fn v).mov.cqs = s.mov.cqs := by simp [raiseVector]

@[simp] theorem silentWrite_queues (s : State) (fn : Nat) (addr : Nat) (data : List Byte) :
    (silentWrite s fn addr data).mov.sqs = s.mov.sqs ∧ (silentWrite s fn addr data).mov.cqs = s.mov.cqs := by simp [silentWrite]

@[simp] theorem qcbStatus_queues (s : State) (owner : Nat) (qcb : Nat) (st : QueueSt) (full : Bool) (err : Nat) :
    (qcbStatus s owner qcb st full err).mov.sqs = s.mov.sqs ∧ (qcbStatus s owner qcb st full err).mov.cqs = s.mov.cqs := by
  simp [qcbStatus]

@[simp] theorem queueError_queues (s : State) (fn : Nat) (isCq : Bool) (loc : Nat) :
    (queueError s fn isCq loc).mov.sqs = s.mov.sqs ∧ (queueError s fn isCq loc).mov.cqs = s.mov.cqs := by simp [queueError]

@[simp] theorem qcbRead_queues (s : State) (fn : Nat) (addr : Nat) (use : MovUse) :
    (qcbRead s fn addr use).mov.sqs = s.mov.sqs ∧ (qcbRead s fn addr use).mov.cqs = s.mov.cqs := by simp [qcbRead]

@[simp] theorem tlpComplete_queues (s : State) (w : TlpWork) (t : Tlp) :
    (tlpComplete s w t).mov.sqs = s.mov.sqs ∧ (tlpComplete s w t).mov.cqs = s.mov.cqs := by simp [tlpComplete]

@[simp] theorem dropWork_queues (s : State) (w : TlpWork) : (dropWork s w).mov.sqs = s.mov.sqs ∧ (dropWork s w).mov.cqs = s.mov.cqs :=
  ⟨rfl, rfl⟩

@[simp] theorem tlpAtomDone_queues (s : State) (no : Nat) (width : Nat) (r : AtomEnd) :
    (tlpAtomDone s no width r).mov.sqs = s.mov.sqs ∧ (tlpAtomDone s no width r).mov.cqs = s.mov.cqs := by
  unfold tlpAtomDone
  repeat' split
  all_goals simp

@[simp] theorem atomsDone_queues (s : State) (rs : List (AtomOp × AtomEnd)) :
    (atomsDone s rs).mov.sqs = s.mov.sqs ∧ (atomsDone s rs).mov.cqs = s.mov.cqs := by simp [atomsDone]

@[simp] theorem startWork_queues (s : State) (w : TlpWork) :
    (startWork s w).mov.sqs = s.mov.sqs ∧ (startWork s w).mov.cqs = s.mov.cqs := by
  unfold startWork
  dsimp only
  repeat' split
  all_goals simp

@[simp] theorem startWorks_queues (s : State) : (startWorks s).mov.sqs = s.mov.sqs ∧ (startWorks s).mov.cqs = s.mov.cqs :=
  foldl_kept _ _ _ fun t w => by
    split
    · split <;> simp
    · exact ⟨rfl, rfl⟩

@[simp] theorem readEnd_queues (s : State) (w : TlpWork) (a : MovAcc) :
    (readEnd s w a).mov.sqs = s.mov.sqs ∧ (readEnd s w a).mov.cqs = s.mov.cqs := by simp [readEnd]

@[simp] theorem writeEnd_queues (s : State) (w : TlpWork) (a : MovAcc) :
    (writeEnd s w a).mov.sqs = s.mov.sqs ∧ (writeEnd s w a).mov.cqs = s.mov.cqs := by
  unfold writeEnd
  repeat' split
  all_goals simp

@[simp] theorem endWorks_queues (s : State) : (endWorks s).mov.sqs = s.mov.sqs ∧ (endWorks s).mov.cqs = s.mov.cqs :=
  foldl_kept _ _ _ fun t w => by
    split
    · exact ⟨rfl, rfl⟩
    · dsimp only
      split <;> simp

@[simp] theorem poolTurn_queues (s : State) : (poolTurn s).mov.sqs = s.mov.sqs ∧ (poolTurn s).mov.cqs = s.mov.cqs := by
  simp [poolTurn]

@[simp] theorem cacheAnswer_queues (s : State) (u : FUnit) :
    (cacheAnswer s u).mov.sqs = s.mov.sqs ∧ (cacheAnswer s u).mov.cqs = s.mov.cqs := by
  unfold cacheAnswer
  dsimp only
  repeat' split
  all_goals simp

end Sys2Proof.Proofs.MoverFrames

/-!
Restart notices, graces, recovery requests, quarantine and the four numbering values (R203, R261 to R263, R267).
-/

namespace Sys2Proof.Proofs.Restarts

open Sys2Proof Sys2Proof.Machine Sys2Proof.Laws Sys2Proof.Proofs.Shared Sys2Proof.Proofs.Graces Sys2Proof.Proofs.Aulum

/-! ### Notices -/

/-- A member whose notice waits for its Ack is sent another one. -/
theorem execRestartNoticeRepeat_waiting {w : Fin 1024} {s : State} (member : isMember s w.val = true) (other : w.val ≠ ownSwitch s)
    (waiting : w.val ∉ s.aul.acked) (up : pathUp s w.val = true) : execRestartNoticeRepeat w s = .next (noticeTo s w.val) :=
  if_pos ⟨member, other, by simpa using waiting, up⟩

/-- The Ack of a switch that a range in RECOVERY waits for, and that has not been asked. -/
theorem noticeAck_asks {s : State} {w : Nat} (waits : ∃ p ∈ s.dir.recov, p.2.active = true ∧ w ∈ p.2.switches)
    (fresh : w ∉ s.dir.asked) :
    noticeAck s w = { s with dir := { s.dir with asked := setInsert w s.dir.asked }
                             aul := { s.aul with acked := setInsert w s.aul.acked, noticed := setInsert w s.aul.noticed }
                             out := s.out ++ [Out.peer w .recoveryRequest] } := by
  refine if_pos ?_
  simpa [fresh] using waits

/-- The Ack of a switch that no range waits for, or that has been asked. -/
theorem noticeAck_silent {s : State} {w : Nat}
    (silent : ¬ ((∃ p ∈ s.dir.recov, p.2.active = true ∧ w ∈ p.2.switches) ∧ w ∉ s.dir.asked)) :
    noticeAck s w = { s with aul := { s.aul with acked := setInsert w s.aul.acked, noticed := setInsert w s.aul.noticed } } := by
  refine if_neg ?_
  simpa using silent

/-! ### Graces -/

@[simp] theorem recoveryAnswers_graces (s : State) : (recoveryAnswers s).aul.graces = s.aul.graces := by
  unfold recoveryAnswers
  split
  · rfl
  · refine foldl_graces _ _ _ fun t p => ?_
    split <;> rfl

/-- R262: the grace that ends is the oldest one, and what ends it starts no other. -/
theorem graceEnd_graces {s : State} {g : Grace} {rest : List Grace} (running : s.aul.graces = g :: rest) :
    (graceEnd s).aul.graces = rest := by
  unfold graceEnd
  rw [running]
  dsimp only
  rw [recoveryAnswers_graces, restartMover_graces, foldl_graces _ _ _ fun t l => restartSlice_graces ..,
    foldl_graces _ _ _ fun t v => restartProxy_graces ..]

/-! ### Recovery requests -/

/-- What is left of a table of askers, and what has been sent, after those that wait for nothing have been answered. -/
theorem foldl_recoveryDone (l : List (Nat × List Nat)) (s : State) :
    ∃ a o, l.foldl (fun t p =>
        if p.2.isEmpty then emit { t with dir := { t.dir with askedBy := tabDel p.1 t.dir.askedBy } } (.peer p.1 .recoveryDone)
        else t) s = { s with dir := { s.dir with askedBy := a }, out := o } ∧
      (∀ x ∈ s.out, x ∈ o) ∧ ∀ p ∈ l, p.2 = [] → Out.peer p.1 .recoveryDone ∈ o := by
  induction l generalizing s with
  | nil => exact ⟨s.dir.askedBy, s.out, rfl, fun _ h => h, fun _ h => absurd h List.not_mem_nil⟩
  | cons p l ih =>
    rw [List.foldl_cons]
    by_cases none : p.2 = []
    · rw [if_pos (List.isEmpty_iff.2 none)]
      obtain ⟨a, o, folded, kept, sent⟩ :=
        ih (emit { s with dir := { s.dir with askedBy := tabDel p.1 s.dir.askedBy } } (.peer p.1 .recoveryDone))
      have here : Out.peer p.1 .recoveryDone ∈ o := kept _ (List.mem_append_right _ List.mem_cons_self)
      refine ⟨a, o, folded, fun x h => kept x (List.mem_append_left _ h), fun q member empty => ?_⟩
      rcases List.mem_cons.1 member with rfl | later
      · exact here
      · exact sent q later empty
    · rw [if_neg (fun h => none (List.isEmpty_iff.1 h))]
      obtain ⟨a, o, folded, kept, sent⟩ := ih s
      refine ⟨a, o, folded, kept, fun q member empty => ?_⟩
      rcases List.mem_cons.1 member with rfl | later
      · exact absurd empty none
      · exact sent q later empty

theorem recoveryAnswers_sent {s : State} {w : Nat} (noGrace : s.aul.graces = []) (waits : (w, []) ∈ s.dir.askedBy) :
    ∃ a o, recoveryAnswers s = { s with dir := { s.dir with askedBy := a }, out := o } ∧ Out.peer w .recoveryDone ∈ o := by
  obtain ⟨a, o, folded, -, sent⟩ := foldl_recoveryDone s.dir.askedBy s
  refine ⟨a, o, ?_, sent _ waits rfl⟩
  unfold recoveryAnswers
  rw [noGrace]
  exact folded

theorem mem_tabPut {α : Type} (k : Nat) (v : α) (t : Tab α) : (k, v) ∈ tabPut k v t := by
  induction t with
  | nil => exact List.mem_cons_self
  | cons p t ih =>
    unfold tabPut
    split
    · exact List.mem_cons_self
    · split
      · exact List.mem_cons_self
      · exact List.mem_cons_of_mem _ ih

/-- R203: a request that finds neither a VCS that decodes to its home nor a line of the mover cache waits for nothing. -/
theorem recoveryRequested_idle {s : State} {w : Nat} (far : ∀ v, v < 64 → decodesTo s v w = false) (clean : s.mov.lines = []) :
    recoveryRequested s w = recoveryAnswers { s with dir := { s.dir with askedBy := tabPut w [] s.dir.askedBy } } := by
  have noVcs : (List.range 64).filter (fun v => decodesTo s v w) = [] :=
    List.filter_eq_nil_iff.2 fun v h => by simp [far v (List.mem_range.1 h)]
  unfold recoveryRequested
  rw [noVcs]
  dsimp only [List.foldl_nil]
  unfold evictRange
  dsimp only
  rw [clean]
  rfl

/-! ### The obligation -/

theorem numberingWrite_active {s : State} {a : Nat} (below : a < 16) (enabled : odGet s (aulIdx a) 1 = 1) (i v : Nat) :
    numberingWrite s i v = (s, .portActive) :=
  if_pos (List.any_eq_true.2 ⟨a, List.mem_range.2 below, decide_eq_true enabled⟩)

theorem numberingWrite_disabled {s : State} (disabled : ∀ a : Nat, a < 16 → odGet s (aulIdx a) 1 ≠ 1) (i v : Nat) :
    numberingWrite s i v =
      (let val := fun (j : Nat) => if j = i then v else odGet s 0x6000 j
       if numberingOk (val 1) (val 2) (val 3) (val 4) then (odSet s 0x6000 i v, Status.ok) else (s, .outOfRange)) := by
  refine if_neg fun h => ?_
  obtain ⟨a, member, enabled⟩ := List.any_eq_true.1 h
  exact disabled a (List.mem_range.1 member) (of_decide_eq_true enabled)

/-- Settles O35, clause by clause: a notice goes through `switchEpoch`, the end of a grace through what the restart rules leave alone,
and a recovery request through the table of askers. -/
theorem restartsAndNumbering : Obligations.RestartsAndNumbering := by
  unfold Obligations.RestartsAndNumbering
  refine ⟨fun w e s => ?_, fun w e s known => ?_, fun w s member other waiting up => ?_, fun w s => ?_, fun g rest s running => ?_,
    fun w s far clean noGrace => ?_, fun v t s => ?_, fun i v s disabled => ⟨fun good => ?_, fun bad => ?_⟩, fun i v a s enabled => ?_⟩
  · exact ⟨_, rfl, List.getLast?_concat, (execRestartNotice_keep w e s).1⟩
  · show Host.Outcome.next (emit (switchEpoch s w.val e) _) = _
    rw [switchEpoch_known known]
    rfl
  · exact ⟨_, execRestartNoticeRepeat_waiting member other waiting up, rfl, (mem_setInsert ..).2 (.inl rfl), rfl⟩
  · refine ⟨_, rfl, ?_⟩
    by_cases asks : (∃ p ∈ s.dir.recov, p.2.active = true ∧ w.val ∈ p.2.switches) ∧ w.val ∉ s.dir.asked
    · obtain ⟨waits, fresh⟩ := asks
      rw [noticeAck_asks waits fresh]
      refine ⟨(mem_setInsert ..).2 (.inl rfl), (mem_setInsert ..).2 (.inl rfl), fun _ _ => ⟨rfl, (mem_setInsert ..).2 (.inl rfl)⟩,
        fun idle => ?_, rfl⟩
      obtain ⟨p, member, active, pending⟩ := waits
      rcases idle p member with off | gone
      · exact absurd (active.symm.trans off) (by decide)
      · exact absurd pending gone
    · rw [noticeAck_silent asks]
      exact ⟨(mem_setInsert ..).2 (.inl rfl), (mem_setInsert ..).2 (.inl rfl), fun waits fresh => absurd ⟨waits, fresh⟩ asks,
        fun _ => ⟨rfl, rfl⟩, rfl⟩
  · exact ⟨_, rfl, graceEnd_graces running, (execRestartGraceExpire_keep s).1⟩
  · obtain ⟨a, o, run, sent⟩ :=
      recoveryAnswers_sent (s := { s with dir := { s.dir with askedBy := tabPut w.val [] s.dir.askedBy } }) noGrace (mem_tabPut ..)
    exact ⟨_, congrArg Host.Outcome.next ((recoveryRequested_idle far clean).trans run), sent, rfl⟩
  · refine ⟨_, rfl, ?_, rfl⟩
    rw [ProxySnoops.proxy_setProxy]
    exact tabFind_del_same ..
  · refine ⟨_, answered_of ((numberingWrite_disabled disabled ..).trans (if_pos good)), ?_, rfl, rfl⟩
    rw [odGet_emit, odGet_odSet_same]
  · exact answered_of ((numberingWrite_disabled disabled ..).trans (if_neg (by rw [bad]; decide)))
  · exact answered_of (numberingWrite_active a.isLt enabled ..)

end Sys2Proof.Proofs.Restarts

/-!
The states of a mover queue and its doorbells (R280, R283 to R286). Only `setSq` and `setCq` write a queue: what the mover does in its
turn, and the accesses that it opens and ends, leave both tables alone (`moverTurn_queues` and its like).
-/

namespace Sys2Proof.Proofs.MoverQueues

open Sys2Proof Sys2Proof.Machine Sys2Proof.Laws Sys2Proof.Proofs.Shared Sys2Proof.Proofs.MoverFrames

/-! ### The two tables of queues -/

@[simp] theorem sq_setSq_same (s : State) (q : Nat) (x : SubQ) : sq (setSq s q x) q = x := tabGet_set_same ..

@[simp] theorem cq_setCq_same (s : State) (q : Nat) (x : CompQ) : cq (setCq s q x) q = x := tabGet_set_same ..

theorem sq_congr {s t : State} (same : t.mov.sqs = s.mov.sqs) (q : Nat) : sq t q = sq s q := congrArg (tabGet subReset q) same

theorem cq_congr {s t : State} (same : t.mov.cqs = s.mov.cqs) (q : Nat) : cq t q = cq s q := congrArg (tabGet compReset q) same

@[simp] theorem setSq_cqs (s : State) (q : Nat) (x : SubQ) : (setSq s q x).mov.cqs = s.mov.cqs := rfl

@[simp] theorem setCq_sqs (s : State) (q : Nat) (x : CompQ) : (setCq s q x).mov.sqs = s.mov.sqs := rfl

@[simp] theorem sq_moverTurn (s : State) (q : Nat) : sq (moverTurn s) q = sq s q := sq_congr (moverTurn_queues s).1 q

@[simp] theorem cq_moverTurn (s : State) (q : Nat) : cq (moverTurn s) q = cq s q := cq_congr (moverTurn_queues s).2 q

@[simp] theorem sq_qcbRead (s : State) (fn addr : Nat) (use : MovUse) (q : Nat) : sq (qcbRead s fn addr use) q = sq s q :=
  sq_congr (qcbRead_queues s fn addr use).1 q

@[simp] theorem cq_qcbRead (s : State) (fn addr : Nat) (use : MovUse) (q : Nat) : cq (qcbRead s fn addr use) q = cq s q :=
  cq_congr (qcbRead_queues s fn addr use).2 q

@[simp] theorem sq_bumpFn (s : State) (fn e k q : Nat) : sq (bumpFn s fn e k) q = sq s q := sq_congr (bumpFn_queues s fn e k).1 q

@[simp] theorem cq_bumpFn (s : State) (fn e k q : Nat) : cq (bumpFn s fn e k) q = cq s q := cq_congr (bumpFn_queues s fn e k).2 q

/-- R283: a status write to the QCB changes no queue. -/
@[simp] theorem sqStatus_queues (s : State) (q : Nat) : (sqStatus s q).mov.sqs = s.mov.sqs ∧ (sqStatus s q).mov.cqs = s.mov.cqs :=
  qcbStatus_queues ..

@[simp] theorem cqStatus_queues (s : State) (q : Nat) : (cqStatus s q).mov.sqs = s.mov.sqs ∧ (cqStatus s q).mov.cqs = s.mov.cqs :=
  qcbStatus_queues ..

@[simp] theorem sq_sqStatus (s : State) (q n : Nat) : sq (sqStatus s q) n = sq s n := sq_congr (sqStatus_queues s q).1 n

@[simp] theorem cq_cqStatus (s : State) (q n : Nat) : cq (cqStatus s q) n = cq s n := cq_congr (cqStatus_queues s q).2 n

@[simp] theorem sq_queueError (s : State) (fn : Nat) (c : Bool) (loc q : Nat) : sq (queueError s fn c loc) q = sq s q :=
  sq_congr (queueError_queues s fn c loc).1 q

@[simp] theorem cq_queueError (s : State) (fn : Nat) (c : Bool) (loc q : Nat) : cq (queueError s fn c loc) q = cq s q :=
  cq_congr (queueError_queues s fn c loc).2 q

@[simp] theorem sq_silentWrite (s : State) (fn addr : Nat) (data : List Byte) (q : Nat) : sq (silentWrite s fn addr data) q = sq s q :=
  sq_congr (silentWrite_queues s fn addr data).1 q

theorem takeAccess_queues {s u : State} {use : MovUse} {a : MovAcc} (taken : takeAccess s use = some (u, a)) :
    u.mov.sqs = s.mov.sqs ∧ u.mov.cqs = s.mov.cqs := by
  obtain ⟨b, -, made⟩ := Option.map_eq_some_iff.1 taken
  cases made
  simp

/-! ### Enabling -/

theorem queueEnable_sq {s : State} {fn loc q : Nat} (addr : Nat) (alive : resetPending s fn = false) (found : sqOf s fn loc = some q)
    (off : (sq s q).st = .disabled) (idle : (sq s q).reading = false) :
    queueEnable s fn false loc addr =
      qcbRead (setSq s q { sq s q with qcb := addr / 64 * 64, reading := true }) fn (addr / 64 * 64) (.enable false q) := by
  unfold queueEnable
  simp [alive, found, off, idle]

theorem queueEnable_cq {s : State} {fn loc q : Nat} (addr : Nat) (alive : resetPending s fn = false) (found : cqOf s fn loc = some q)
    (off : (cq s q).st = .disabled) (idle : (cq s q).reading = false) :
    queueEnable s fn true loc addr =
      qcbRead (setCq s q { cq s q with qcb := addr / 64 * 64, reading := true }) fn (addr / 64 * 64) (.enable true q) := by
  unfold queueEnable
  simp [alive, found, off, idle]

/-- R284: an SQ whose check fails is in the ERROR state, with the code. -/
theorem sq_sqError (s : State) (q code : Nat) :
    sq (sqError s q code) q = { sq s q with st := .error, err := code, kept := [], fetching := [], pend := false } := by
  unfold sqError
  simp

/-- R284: what the QCB that has been read makes of an SQ that is being enabled. -/
theorem sq_sqEnabled {s u : State} {q : Nat} {a : MovAcc} (taken : takeAccess s (.enable false q) = some (u, a)) :
    (sq (sqEnabled s q) q).reading = false ∧ (sq (sqEnabled s q) q).qcb = (sq s q).qcb ∧
    (∀ code : Nat, sqCheck u ((sq s q).owner - 1) a = some code →
      (sq (sqEnabled s q) q).st = .error ∧ (sq (sqEnabled s q) q).err = code) ∧
    (sqCheck u ((sq s q).owner - 1) a = none →
      (sq (sqEnabled s q) q).st = .enabled ∧ (sq (sqEnabled s q) q).err = 0 ∧ (sq (sqEnabled s q) q).n = qcbField a 16 1 ∧
      (sq (sqEnabled s q) q).ring = qcbField a 8 8 ∧ (sq (sqEnabled s q) q).c = BitVec.ofNat 32 (qcbField a 0 4) ∧
      (sq (sqEnabled s q) q).p = (sq (sqEnabled s q) q).c) := by
  have same : sq u q = sq s q := sq_congr (takeAccess_queues taken).1 q
  unfold sqEnabled
  rw [taken]
  dsimp only
  rw [same]
  cases check : sqCheck u ((sq s q).owner - 1) a with
  | some code => simp [sq_sqError]
  | none => simp

/-- R284: what the QCB that has been read makes of a CQ that is being enabled. -/
theorem cq_cqEnabled {s u : State} {q : Nat} {a : MovAcc} (taken : takeAccess s (.enable true q) = some (u, a)) :
    (cq (cqEnabled s q) q).reading = false ∧
    (∀ code : Nat, cqCheck a = some code → (cq (cqEnabled s q) q).st = .error ∧ (cq (cqEnabled s q) q).err = code) ∧
    (cqCheck a = none →
      (cq (cqEnabled s q) q).st = .enabled ∧ (cq (cqEnabled s q) q).n = qcbField a 16 1 ∧ (cq (cqEnabled s q) q).ring = qcbField a 8 8 ∧
      (cq (cqEnabled s q) q).vec = qcbField a 18 2 ∧ (cq (cqEnabled s q) q).d = BitVec.ofNat 32 (qcbField a 0 4) ∧
      (cq (cqEnabled s q) q).hold = []) := by
  unfold cqEnabled
  rw [taken]
  dsimp only
  cases check : cqCheck a with
  | some code => simp
  | none => simp

/-! ### Disabling -/

theorem queueDisable_sq {s : State} {fn loc q : Nat} (alive : resetPending s fn = false) (found : sqOf s fn loc = some q) :
    (queueDisable s fn false loc).mov.cqs = s.mov.cqs ∧
    ((sq s q).st = .enabled →
      sq (queueDisable s fn false loc) q = { sq s q with st := .stopping, kept := [], fetching := [], pend := false }) ∧
    ((sq s q).st = .error → sq (queueDisable s fn false loc) q = { sq s q with st := .disabled, err := 0 }) ∧
    ((sq s q).st = .disabled ∨ (sq s q).st = .stopping → (queueDisable s fn false loc).mov.sqs = s.mov.sqs) := by
  unfold queueDisable
  simp only [alive, found, Bool.false_eq_true, if_false]
  cases st : (sq s q).st <;> simp [cancelFetches]

/-- R284: a CQ to which an SQ of its function that is not DISABLED is bound stays as it is. -/
theorem queueDisable_bound {s : State} {fn loc q : Nat} (found : cqOf s fn loc = some q)
    (bound : ∃ p ∈ s.mov.sqs, p.2.owner = fn + 1 ∧ p.2.cq = q ∧ p.2.st ≠ .disabled) : queueDisable s fn true loc = s := by
  unfold queueDisable
  rw [found]
  have tied : (s.mov.sqs.any fun p => decide (p.2.owner = fn + 1) && decide (p.2.cq = q) && decide (p.2.st ≠ .disabled)) = true := by
    simpa [and_assoc] using bound
  simp only [tied]
  simp

theorem queueDisable_cq {s : State} {fn loc q : Nat} (alive : resetPending s fn = false) (found : cqOf s fn loc = some q)
    (running : (cq s q).st ≠ .disabled) (free : ∀ p ∈ s.mov.sqs, p.2.owner = fn + 1 → p.2.cq = q → p.2.st = .disabled) :
    queueDisable s fn true loc = cqStatus (setCq s q { cq s q with st := .disabled, err := 0 }) q := by
  unfold queueDisable
  have untied : (s.mov.sqs.any fun p => decide (p.2.owner = fn + 1) && decide (p.2.cq = q) && decide (p.2.st ≠ .disabled)) = false := by
    simpa [and_assoc] using free
  simp only [alive, found, untied]
  simp [running]

theorem queueDisable_sqs_of_cq (s : State) (fn loc : Nat) : (queueDisable s fn true loc).mov.sqs = s.mov.sqs := by
  unfold queueDisable
  split
  · rfl
  · rw [if_pos rfl]
    split
    · rfl
    · dsimp only
      split <;> simp

/-- R284: a stopping SQ without an execution is DISABLED, and its consumer index has been written. -/
theorem stopComplete_eq {s : State} {q : Nat} (stopping : (sq s q).st = .stopping) (done : ∀ e ∈ s.mov.execs, e.sq ≠ q) :
    stopComplete s q = sqStatus (sqIndex (setSq s q { sq s q with st := .disabled }) q) q :=
  if_pos ⟨stopping, by simpa using done⟩

/-! ### Doorbells -/

theorem sqDoorbell_enabled {s : State} {fn loc q : Nat} (alive : resetPending s fn = false) (found : sqOf s fn loc = some q)
    (on : (sq s q).st = .enabled) :
    (sqDoorbell s fn loc).1 = sqRead (setSq (bumpFn s fn 14 1) q { sq s q with pend := true, idle := false }) q := by
  unfold sqDoorbell
  simp [alive, found, on]

theorem cqDoorbell_enabled {s : State} {fn loc q : Nat} (alive : resetPending s fn = false) (found : cqOf s fn loc = some q)
    (on : (cq s q).st = .enabled) :
    (cqDoorbell s fn loc).1 = cqRead (setCq (bumpFn s fn 14 1) q { cq s q with pend := true }) q := by
  unfold cqDoorbell
  simp [alive, found, on]

/-- R285: an enabled SQ reads its QCB, or keeps the read pending behind the one that is outstanding. -/
theorem sqRead_frame {s : State} {q : Nat} (on : (sq s q).st = .enabled) (pend : (sq s q).pend = true) :
    sq (sqRead s q) q = { sq s q with reading := true, pend := (sq s q).reading } ∧ (sqRead s q).mov.cqs = s.mov.cqs := by
  unfold sqRead
  cases reading : (sq s q).reading with
  | false => simp [on, pend, reading]
  | true =>
    rw [if_neg (by simp [reading])]
    refine ⟨?_, rfl⟩
    generalize sq s q = x at pend reading
    cases x
    simp_all

/-- R286: so does a CQ. -/
theorem cqRead_frame {s : State} {q : Nat} (on : (cq s q).st = .enabled) (pend : (cq s q).pend = true) :
    cq (cqRead s q) q = { cq s q with reading := true, pend := (cq s q).reading } ∧ (cqRead s q).mov.sqs = s.mov.sqs := by
  unfold cqRead
  cases reading : (cq s q).reading with
  | false => simp [on, pend, reading]
  | true =>
    rw [if_neg (by simp [reading])]
    refine ⟨?_, rfl⟩
    generalize cq s q = x at pend reading
    cases x
    simp_all

/-- R316: what a function's own counters count leaves the device-wide counters alone. -/
theorem bumpFn_perf (s : State) (fn e k : Nat) :
    ∃ perf, bumpFn s fn e k = { s with perf := perf } ∧ (bumpFn s fn e k).perf.cnt = s.perf.cnt := by
  unfold bumpFn
  dsimp only
  split
  · split
    · exact ⟨_, rfl, rfl⟩
    · exact ⟨_, rfl, rfl⟩
  · split
    · exact ⟨_, rfl, rfl⟩
    · exact ⟨_, rfl, rfl⟩

/-- R286: a doorbell that is ignored counts, and does nothing else. -/
theorem doorbellIgnored_frame (s : State) (fn : Nat) :
    ∃ perf, doorbellIgnored s fn = { s with perf := perf } ∧
      counter (doorbellIgnored s fn) (counterNo 0xC028 8) = counter s (counterNo 0xC028 8) + 1 := by
  obtain ⟨perf, frame, cnt⟩ := bumpFn_perf (bumpC s 0xC028 8) fn 15 1
  refine ⟨perf, frame, ?_⟩
  exact (congrArg (tabGet 0 (counterNo 0xC028 8)) cnt).trans (counter_bump_same s (counterNo 0xC028 8) 1)

/-- Settles O36, clause by clause, by what each operation makes of the queue's own record. -/
theorem moverQueues : Obligations.MoverQueues := by
  unfold Obligations.MoverQueues
  refine ⟨fun fn loc addr q s alive found off idle => ?_, fun fn loc addr q s alive found off idle => ?_, fun q u a s taken => ?_,
    fun q u a s taken => ?_, fun fn loc q s alive found => ?_, fun fn loc q s alive found => ?_, fun q s stopping done => ?_,
    fun fn loc q s alive found on => ?_, fun fn loc q s alive found on => ?_, fun fn loc s => ⟨fun absent => ?_, fun absent => ?_⟩⟩
  · refine ⟨_, rfl, ?_, ?_, (execQueueEnable_keep fn false loc addr s).1⟩
    · rw [queueEnable_sq _ alive found off idle]
      simp
    · rw [queueEnable_sq _ alive found off idle]
      simp
  · refine ⟨_, rfl, ?_, ?_, (execQueueEnable_keep fn true loc addr s).1⟩
    · rw [queueEnable_cq _ alive found off idle]
      simp
    · rw [queueEnable_cq _ alive found off idle]
      simp
  · have same : sq (absorbHost s) q.val = sq s q.val := sq_congr (absorbHost_queues s).1 _
    obtain ⟨reading, qcb, bad, good⟩ := sq_sqEnabled taken
    have turned := sq_moverTurn (sqEnabled (absorbHost s) q.val) q.val
    rw [same] at qcb bad good
    rw [← turned] at reading qcb bad good
    exact ⟨_, rfl, reading, qcb, (execQcbEnableReadDone_keep false q s).1, bad, good⟩
  · obtain ⟨reading, bad, good⟩ := cq_cqEnabled taken
    rw [← cq_moverTurn] at reading bad good
    exact ⟨_, rfl, reading, (execQcbEnableReadDone_keep true q s).1, bad, good⟩
  · obtain ⟨cqs, enabled, failed, still⟩ := queueDisable_sq alive found
    refine ⟨_, rfl, (moverTurn_queues _).2.trans cqs, (execQueueDisable_keep fn false loc s).1, fun st => ?_, fun st => ?_, fun st => ?_⟩
    · exact (sq_moverTurn ..).trans (enabled st)
    · exact (sq_moverTurn ..).trans (failed st)
    · exact (moverTurn_queues _).1.trans (still st)
  · refine ⟨_, rfl, (moverTurn_queues _).1.trans (queueDisable_sqs_of_cq ..), (execQueueDisable_keep fn true loc s).1,
      fun running free => ?_, fun bound => ?_⟩
    · rw [queueDisable_cq alive found running free]
      simp
    · rw [queueDisable_bound found bound]
      exact (moverTurn_queues s).2
  · refine ⟨_, rfl, ?_, ?_, (execSqStopComplete_keep q s).1⟩
    · rw [stopComplete_eq stopping done]
      simp [sqIndex]
    · rw [stopComplete_eq stopping done]
      simp [sqIndex]
  · obtain ⟨queue, cqs⟩ := sqRead_frame (s := setSq (bumpFn s fn.val 14 1) q { sq s q with pend := true, idle := false }) (q := q)
      (by simpa using on) (by simp)
    refine ⟨_, rfl, ?_, (execSqDoorbell_keep fn loc s).1, ?_⟩
    · rw [sqDoorbell_enabled alive found on, (moverTurn_queues _).2, cqs]
      simp
    · rw [sqDoorbell_enabled alive found on, sq_moverTurn, queue]
      simp
  · obtain ⟨queue, sqs⟩ := cqRead_frame (s := setCq (bumpFn s fn.val 14 1) q { cq s q with pend := true }) (q := q)
      (by simpa using on) (by simp)
    refine ⟨_, rfl, ?_, (execCqDoorbell_keep fn loc s).1, ?_⟩
    · rw [cqDoorbell_enabled alive found on, (moverTurn_queues _).1, sqs]
      simp
    · rw [cqDoorbell_enabled alive found on, cq_moverTurn, queue]
      simp
  · obtain ⟨perf, frame, counted⟩ := doorbellIgnored_frame s fn.val
    have run : (sqDoorbell s fn.val loc.val).1 = doorbellIgnored s fn.val := by
      unfold sqDoorbell
      rw [absent]
    exact ⟨_, congrArg (fun t => Host.Outcome.next (moverTurn t)) run, by rw [frame], counted⟩
  · obtain ⟨perf, frame, counted⟩ := doorbellIgnored_frame s fn.val
    have run : (cqDoorbell s fn.val loc.val).1 = doorbellIgnored s fn.val := by
      unfold cqDoorbell
      rw [absent]
    exact ⟨_, congrArg (fun t => Host.Outcome.next (moverTurn t)) run, by rw [frame], counted⟩

end Sys2Proof.Proofs.MoverQueues

/-!
What the ends of atomics and the messages of the mover cache leave alone: its lines and its fills. One rule per operation, in the
order of the model.
-/

namespace Sys2Proof.Proofs.CacheFrames

open Sys2Proof Sys2Proof.Machine Sys2Proof.Laws Sys2Proof.Proofs.Shared

@[simp] theorem ite_lines (c : Prop) [Decidable c] (a b : State) :
    (if c then a else b).mov.lines = if c then a.mov.lines else b.mov.lines :=
  apply_ite (fun s : State => s.mov.lines) c a b

@[simp] theorem ite_fst_lines {α : Type} (c : Prop) [Decidable c] (a b : State × α) :
    (if c then a else b).1.mov.lines = if c then a.1.mov.lines else b.1.mov.lines :=
  apply_ite (fun s : State × α => s.1.mov.lines) c a b

@[simp] theorem foldl_lines {α : Type} (f : State → α → State) (l : List α) (s : State)
    (h : ∀ s a, (f s a).mov.lines = s.mov.lines) : (l.foldl f s).mov.lines = s.mov.lines :=
  List.foldlRecOn _ _ (motive := fun t : State => t.mov.lines = s.mov.lines) rfl fun t ht a _ => (h t a).trans ht

@[simp] theorem foldl_fst_lines {α β : Type} (f : State × β → α → State × β) (l : List α) (s : State × β)
    (h : ∀ s a, (f s a).1.mov.lines = s.1.mov.lines) : (l.foldl f s).1.mov.lines = s.1.mov.lines :=
  List.foldlRecOn _ _ (motive := fun t : State × β => t.1.mov.lines = s.1.mov.lines) rfl fun t ht a _ => (h t a).trans ht

@[simp] theorem ite_fills (c : Prop) [Decidable c] (a b : State) :
    (if c then a else b).mov.fills = if c then a.mov.fills else b.mov.fills :=
  apply_ite (fun s : State => s.mov.fills) c a b

@[simp] theorem ite_fst_fills {α : Type} (c : Prop) [Decidable c] (a b : State × α) :
    (if c then a else b).1.mov.fills = if c then a.1.mov.fills else b.1.mov.fills :=
  apply_ite (fun s : State × α => s.1.mov.fills) c a b

@[simp] theorem foldl_fills {α : Type} (f : State → α → State) (l : List α) (s : State)
    (h : ∀ s a, (f s a).mov.fills = s.mov.fills) : (l.foldl f s).mov.fills = s.mov.fills :=
  List.foldlRecOn _ _ (motive := fun t : State => t.mov.fills = s.mov.fills) rfl fun t ht a _ => (h t a).trans ht

@[simp] theorem foldl_fst_fills {α β : Type} (f : State × β → α → State × β) (l : List α) (s : State × β)
    (h : ∀ s a, (f s a).1.mov.fills = s.1.mov.fills) : (l.foldl f s).1.mov.fills = s.1.mov.fills :=
  List.foldlRecOn _ _ (motive := fun t : State × β => t.1.mov.fills = s.1.mov.fills) rfl fun t ht a _ => (h t a).trans ht

@[simp] theorem checkDone_cache (s : State) (f : Nat) :
    (checkDone s f).mov.lines = s.mov.lines ∧ (checkDone s f).mov.fills = s.mov.fills := ⟨rfl, rfl⟩

@[simp] theorem lpddrChecked_cache (s : State) (a : Nat) :
    (lpddrChecked s a).1.mov.lines = s.mov.lines ∧ (lpddrChecked s a).1.mov.fills = s.mov.fills := by simp [lpddrChecked]

@[simp] theorem setXing_cache (s : State) (c : Nat) (x : Crossing) :
    (setXing s c x).mov.lines = s.mov.lines ∧ (setXing s c x).mov.fills = s.mov.fills := ⟨rfl, rfl⟩

@[simp] theorem crossSend_cache (s : State) (c : Nat) (h : Held) :
    (crossSend s c h).mov.lines = s.mov.lines ∧ (crossSend s c h).mov.fills = s.mov.fills := ⟨rfl, rfl⟩

@[simp] theorem niPush_cache (s : State) (n : Nat) (a : Nat) (h : Held) :
    (niPush s n a h).mov.lines = s.mov.lines ∧ (niPush s n a h).mov.fills = s.mov.fills := ⟨rfl, rfl⟩

@[simp] theorem nextUnit_cache (s : State) : (nextUnit s).mov.lines = s.mov.lines ∧ (nextUnit s).mov.fills = s.mov.fills := ⟨rfl, rfl⟩

@[simp] theorem sendAt_cache (s : State) (n : Nat) (a : Nat) (u : FUnit) (t : Option Tlp) (hpa : Option (Nat × BitVec 46)) :
    (sendAt s n a u t hpa).mov.lines = s.mov.lines ∧ (sendAt s n a u t hpa).mov.fills = s.mov.fills := by
  unfold sendAt
  split <;> simp

@[simp] theorem send_cache (s : State) (u : FUnit) : (send s u).mov.lines = s.mov.lines ∧ (send s u).mov.fills = s.mov.fills := by
  simp [send]

@[simp] theorem sendTlpBy_cache (s : State) (n : Nat) (a : Nat) (t : Tlp) (src : BitVec 12) (dst : BitVec 12) (tag : BitVec 16)
    (f : FUnit → FUnit) :
    (sendTlpBy s n a t src dst tag f).mov.lines = s.mov.lines ∧ (sendTlpBy s n a t src dst tag f).mov.fills = s.mov.fills := by
  simp [sendTlpBy]

@[simp] theorem sendTlp_cache (s : State) (n : Nat) (a : Nat) (t : Tlp) (src : BitVec 12) (dst : BitVec 12) (tag : BitVec 16) :
    (sendTlp s n a t src dst tag).mov.lines = s.mov.lines ∧ (sendTlp s n a t src dst tag).mov.fills = s.mov.fills := by simp [sendTlp]

@[simp] theorem refusal_cache (s : State) (v : Nat) (p : Nat) (wr : Bool) :
    (refusal s v p wr).mov.lines = s.mov.lines ∧ (refusal s v p wr).mov.fills = s.mov.fills := by simp [refusal]

@[simp] theorem bumpFn_cache (s : State) (fn : Nat) (e : Nat) (k : Nat) :
    (bumpFn s fn e k).mov.lines = s.mov.lines ∧ (bumpFn s fn e k).mov.fills = s.mov.fills := by
  unfold bumpFn
  repeat' split
  all_goals simp

@[simp] theorem hostWrite_cache (s : State) (v : Nat) (rid : BitVec 16) (addr : Nat) (data : List Byte) (poison : Bool) :
    (hostWrite s v rid addr data poison).mov.lines = s.mov.lines ∧ (hostWrite s v rid addr data poison).mov.fills = s.mov.fills := by
  unfold hostWrite
  split <;> simp

@[simp] theorem setLogCh_cache (s : State) (c : Nat) (x : LogCh) :
    (setLogCh s c x).mov.lines = s.mov.lines ∧ (setLogCh s c x).mov.fills = s.mov.fills := ⟨rfl, rfl⟩

@[simp] theorem lcbWrite_cache (s : State) (c : Nat) (off : Nat) (data : List Byte) :
    (lcbWrite s c off data).mov.lines = s.mov.lines ∧ (lcbWrite s c off data).mov.fills = s.mov.fills := by simp [lcbWrite]

@[simp] theorem lcbProducer_cache (s : State) (c : Nat) :
    (lcbProducer s c).mov.lines = s.mov.lines ∧ (lcbProducer s c).mov.fills = s.mov.fills := by simp [lcbProducer]

@[simp] theorem logState_cache (s : State) (c : Nat) (x : LogCh) :
    (logState s c x).mov.lines = s.mov.lines ∧ (logState s c x).mov.fills = s.mov.fills := by simp [logState]

@[simp] theorem logEntry_cache (s : State) (c : Nat) (page : Nat) (x : LogCh) :
    (logEntry s c page x).mov.lines = s.mov.lines ∧ (logEntry s c page x).mov.fills = s.mov.fills := by simp [logEntry]

@[simp] theorem logCount_cache (s : State) (c : Nat) (e : Nat) :
    (logCount s c e).mov.lines = s.mov.lines ∧ (logCount s c e).mov.fills = s.mov.fills := by simp [logCount]

@[simp] theorem logEvent_cache (s : State) (c : Nat) (a : Nat) :
    (logEvent s c a).mov.lines = s.mov.lines ∧ (logEvent s c a).mov.fills = s.mov.fills := by simp [logEvent]

@[simp] theorem logFunc_cache (s : State) (f : Nat) (a : Nat) :
    (logFunc s f a).mov.lines = s.mov.lines ∧ (logFunc s f a).mov.fills = s.mov.fills := by simp [logFunc]

@[simp] theorem logTrackers_cache (s : State) (v a : Nat) :
    (logTrackers s v a).mov.lines = s.mov.lines ∧ (logTrackers s v a).mov.fills = s.mov.fills := by simp [logTrackers]

@[simp] theorem takeNo_cache (s : State) : (takeNo s).mov.lines = s.mov.lines ∧ (takeNo s).mov.fills = s.mov.fills := ⟨rfl, rfl⟩

@[simp] theorem guardPart_cache (s : State) (v : Nat) (rd : Bool) (wr : Bool) (x : MovPart) :
    (guardPart s v rd wr x).1.mov.lines = s.mov.lines ∧ (guardPart s v rd wr x).1.mov.fills = s.mov.fills := by
  unfold guardPart
  split <;> simp

@[simp] theorem guardParts_cache (s : State) (v : Nat) (rd wr : Bool) (ps : List MovPart) :
    (guardParts s v rd wr ps).1.mov.lines = s.mov.lines ∧ (guardParts s v rd wr ps).1.mov.fills = s.mov.fills := by simp [guardParts]

@[simp] theorem openAccess_cache (s : State) (fn : Option Nat) (v : Nat) (write : Bool) (guarded : Bool) (use : MovUse) (addr : Nat)
    (len : Nat) (data : List Byte) (poison : Nat → Bool) :
    (openAccess s fn v write guarded use addr len data poison).mov.lines = s.mov.lines ∧
    (openAccess s fn v write guarded use addr len data poison).mov.fills = s.mov.fills := by
  simp [openAccess]

@[simp] theorem cacheRequest_cache (s : State) (ty : Nat) (tag : Nat) (h : Nat) (l : BitVec 42) (nacks : Nat) (senior : Bool)
    (first : BitVec 32) (mask : BitVec 64) :
    (cacheRequest s ty tag h l nacks senior first mask).mov.lines = s.mov.lines ∧
    (cacheRequest s ty tag h l nacks senior first mask).mov.fills = s.mov.fills := by
  simp [cacheRequest]

@[simp] theorem sendEvict_cache (s : State) (e : CacheEvict) :
    (sendEvict s e).mov.lines = s.mov.lines ∧ (sendEvict s e).mov.fills = s.mov.fills := by
  unfold sendEvict
  split <;> simp

@[simp] theorem cacheReply_cache (s : State) (u : FUnit) (b : SnpFields) (d : LineData) (poison : Bool) (dirty : Bool) (keptS : Bool) :
    (cacheReply s u b d poison dirty keptS).mov.lines = s.mov.lines ∧
    (cacheReply s u b d poison dirty keptS).mov.fills = s.mov.fills := by
  simp [cacheReply]

@[simp] theorem setExec_cache (s : State) (e : Exec) :
    (setExec s e).mov.lines = s.mov.lines ∧ (setExec s e).mov.fills = s.mov.fills := ⟨rfl, rfl⟩

@[simp] theorem atomDone_cache (s : State) (x : Nat) (r : AtomEnd) :
    (atomDone s x r).mov.lines = s.mov.lines ∧ (atomDone s x r).mov.fills = s.mov.fills := by
  unfold atomDone
  repeat' split
  all_goals simp

@[simp] theorem tlpComplete_cache (s : State) (w : TlpWork) (t : Tlp) :
    (tlpComplete s w t).mov.lines = s.mov.lines ∧ (tlpComplete s w t).mov.fills = s.mov.fills := by simp [tlpComplete]

@[simp] theorem dropWork_cache (s : State) (w : TlpWork) :
    (dropWork s w).mov.lines = s.mov.lines ∧ (dropWork s w).mov.fills = s.mov.fills := ⟨rfl, rfl⟩

@[simp] theorem tlpAtomDone_cache (s : State) (no : Nat) (width : Nat) (r : AtomEnd) :
    (tlpAtomDone s no width r).mov.lines = s.mov.lines ∧ (tlpAtomDone s no width r).mov.fills = s.mov.fills := by
  unfold tlpAtomDone
  repeat' split
  all_goals simp

@[simp] theorem atomsDone_cache (s : State) (rs : List (AtomOp × AtomEnd)) :
    (atomsDone s rs).mov.lines = s.mov.lines ∧ (atomsDone s rs).mov.fills = s.mov.fills := by simp [atomsDone]

end Sys2Proof.Proofs.CacheFrames

/-!
Dispatch of the descriptor at the head of a submission queue (R282, R290, R294).
-/

namespace Sys2Proof.Proofs.Dispatch

open Sys2Proof Sys2Proof.Machine Sys2Proof.Laws Sys2Proof.Proofs.Shared Sys2Proof.Proofs.MoverFrames Sys2Proof.Proofs.MoverQueues

/-- R420: an error of the descriptor staging is reported, and touches neither the mover nor the management complex. -/
theorem lpddrUnplaced_frame (s : State) :
    (lpddrUnplaced s).1.mov = s.mov ∧ (lpddrUnplaced s).1.mgmt = s.mgmt ∧ (lpddrUnplaced s).1.time = s.time := by
  unfold lpddrUnplaced lpddrChecked
  split
  · split
    · dsimp only
      rw [raiseReport_frame]
      exact ⟨rfl, rfl, rfl⟩
    · exact ⟨rfl, rfl, rfl⟩
  · exact ⟨rfl, rfl, rfl⟩

/-- R342: what a descriptor costs is drawn from its function's share. -/
theorem spendFor?_frame {s t : State} {fn cost : Nat} (spent : spendFor? s fn cost = some t) :
    (∃ shares, t.mov = { s.mov with shares := shares }) ∧ t.mgmt = s.mgmt ∧ t.time = s.time := by
  obtain ⟨r, drawn, rfl⟩ := Option.map_eq_some_iff.1 spent
  obtain ⟨g, -, rfl⟩ := Option.map_eq_some_iff.1 drawn
  obtain ⟨perf, frame, -⟩ := bumpFn_perf { s with pow := { s.pow with gov := g }, mov := { s.mov with
    shares := tabMod 0 fn (· + cost) s.mov.shares } } fn 20 cost
  rw [frame]
  exact ⟨⟨_, rfl⟩, rfl, rfl⟩

/-- R290: the execution of descriptor `d` of SQ `q`, as it starts: `bad`, the code of what is wrong with the descriptor. -/
def firstExec (s : State) (no q : Nat) (d : BitVec 512) (bad : Option Nat) : Exec :=
  { id := no, sq := q, index := (sq s q).c, fn := (sq s q).owner - 1, vcs := vcsOfFn s ((sq s q).owner - 1), cq := (sq s q).cq, desc := d
    started := false, next := 0, pieces := [], fail := none, diff := none, eaten := 0, ctx := 0, word := [], counter := [], faults := 0
    result := bad.map fun c => (c, 0), flush := [], saved := false, zeroed := false, wroteHost := false, dropped := false, safe := false }

/-- R282: the SQ counts the dispatch, and no longer keeps the descriptor. -/
def counted (x : SubQ) : SubQ := { x with c := x.c + 1, since := x.since + 1, kept := x.kept.filter fun k => decide (k.1 ≠ x.c) }

/-- R282, R294: the dispatch as the queues show it: a counted index and a completion slot. -/
def slotTaken (s1 : State) (q : Nat) (x : SubQ) : State :=
  setCq (setSq s1 q (counted x)) x.cq { cq s1 x.cq with slots := (cq s1 x.cq).slots + 1 }

/-- R290, R316: the slot taken, the execution `e` and the descriptor counted. -/
def underWay (s1 : State) (q : Nat) (x : SubQ) (e : Exec) : State :=
  let s2 := slotTaken s1 q x
  poolShown (bumpFn (takeNo { s2 with mov := { s2.mov with execs := s2.mov.execs ++ [e] } }) (x.owner - 1) 0 1)

/-- R295, R420: what is wrong with descriptor `d` at the head of SQ `q`, once its staging has been read. -/
def flaw (s : State) (q : Nat) (d : BitVec 512) : Option Nat :=
  if (lpddrUnplaced s).2 then some 0x21
  else malformed (lpddrUnplaced s).1 (sq s q).fmt ((sq s q).owner - 1) (ownMark (sq s q).n (sq s q).c) (vcsOfFn s ((sq s q).owner - 1)) d

theorem dispatch_spent {s s1 : State} {q : Nat} {d : BitVec 512}
    (spent : spendFor? (lpddrUnplaced s).1 ((sq s q).owner - 1) (if (flaw s q d).isSome then 1 else dispatchCost d) = some s1) :
    let e := firstExec s s1.mov.nextNo q d (flaw s q d)
    dispatch s q d =
      unitsShown (if (flaw s q d).isSome then underWay s1 q (sq s q) e else startDesc (underWay s1 q (sq s q) e) e) := by
  unfold flaw at spent
  unfold dispatch
  dsimp only
  rw [spent]
  rfl

/-- What is under way, in the parts that the queues and the executions show. -/
theorem underWay_leaves (s1 : State) (q : Nat) (x : SubQ) (e : Exec) :
    (underWay s1 q x e).mov.execs = s1.mov.execs ++ [e] ∧ sq (underWay s1 q x e) q = counted x ∧
    (cq (underWay s1 q x e) x.cq).slots = (cq s1 x.cq).slots + 1 ∧ (underWay s1 q x e).mgmt = s1.mgmt ∧
    (underWay s1 q x e).time = s1.time := by
  have queue : sq (slotTaken s1 q x) q = counted x := sq_setSq_same ..
  have slots : (cq (slotTaken s1 q x) x.cq).slots = (cq s1 x.cq).slots + 1 := congrArg CompQ.slots (cq_setCq_same ..)
  unfold underWay
  dsimp only
  obtain ⟨perf, frame, -⟩ := bumpFn_perf (takeNo { slotTaken s1 q x with mov := { (slotTaken s1 q x).mov with
    execs := (slotTaken s1 q x).mov.execs ++ [e] } }) (x.owner - 1) 0 1
  rw [frame]
  exact ⟨rfl, (sq_congr rfl q).trans queue, (congrArg CompQ.slots (cq_congr rfl x.cq)).trans slots, (odSet_mgmt ..).trans rfl,
    (odSet_time ..).trans rfl⟩

/-- A command of a row dispatches what its row names, where the head is ready and may be served. -/
theorem dispatchRow_serves {s : State} {q : Nat} {d : BitVec 512} {r : DescRow} (head : headDesc s q = some d)
    (row : rowOf (ownMark (sq s q).n (sq s q).c) d = some r) (ready : headReady s q = true) (serves : mayServe s q = true) :
    dispatchRow s q r = moverTurn (dispatchReserved (afterDispatch (dispatch s q d) q) q 16) := by
  unfold dispatchRow
  rw [head]
  dsimp only
  rw [if_pos row, if_pos (by rw [ready, serves]; rfl)]

/-- Each command of the table is the dispatch of its own row. -/
theorem exec_dispatchRow {q : Fin 4096} {i : Instr} {r : DescRow}
    (named : (i, r) ∈ [(Instr.nop q, DescRow.nop), (.copy q, .copy), (.fill q, .fill), (.zero q, .zero), (.compare q, .compare),
      (.check q, .check), (.atomicFetchAdd q, .fetchAdd), (.atomicSwap q, .swap), (.atomicCompareAndSwap q, .cas), (.flush q, .flush),
      (.fence q, .fence), (.mark q, .mark), (.migrateGranule q, .migrate)]) (s : State) :
    exec i s = .next (dispatchRow s q.val r) := by
  simp only [List.mem_cons, Prod.mk.injEq, List.not_mem_nil, or_false] at named
  rcases named with ⟨rfl, rfl⟩ | ⟨rfl, rfl⟩ | ⟨rfl, rfl⟩ | ⟨rfl, rfl⟩ | ⟨rfl, rfl⟩ | ⟨rfl, rfl⟩ | ⟨rfl, rfl⟩ | ⟨rfl, rfl⟩ |
    ⟨rfl, rfl⟩ | ⟨rfl, rfl⟩ | ⟨rfl, rfl⟩ | ⟨rfl, rfl⟩ | ⟨rfl, rfl⟩ <;> rfl

/-- Settles O38: the command's row leads to `dispatchRow`, which takes the slot and adds the execution before its operation starts. -/
theorem descriptorDispatch : Obligations.DescriptorDispatch := by
  unfold Obligations.DescriptorDispatch
  intro q i r d s1 s named head row ready serves x staged bad spent
  have paid : spendFor? (lpddrUnplaced s).1 ((sq s q.val).owner - 1) (if (flaw s q.val d).isSome then 1 else dispatchCost d) =
      some s1 := spent
  obtain ⟨⟨shares, mov⟩, mgmt, time⟩ := spendFor?_frame paid
  obtain ⟨movKept, mgmtKept, timeKept⟩ := lpddrUnplaced_frame s
  obtain ⟨execs, queue, slots, mgmtSame, timeSame⟩ :=
    underWay_leaves s1 q.val (sq s q.val) (firstExec s s1.mov.nextNo q.val d (flaw s q.val d))
  rw [movKept] at mov
  have cqs : cq s1 (sq s q.val).cq = cq s (sq s q.val).cq := cq_congr ((congrArg MovState.cqs mov).trans rfl) _
  refine ⟨underWay s1 q.val (sq s q.val) (firstExec s s1.mov.nextNo q.val d (flaw s q.val d)),
    firstExec s s1.mov.nextNo q.val d (flaw s q.val d), ?_, ?_, (congrArg MovState.nextNo mov).trans rfl, rfl, rfl, rfl, rfl,
    rfl, rfl, ?_, fun k kept => ?_, ?_, ?_, ?_⟩
  · rw [exec_dispatchRow named, dispatchRow_serves head row ready serves, dispatch_spent paid]
    rfl
  · rw [execs, mov]
  · rw [queue]
    rfl
  · rw [queue] at kept
    exact of_decide_eq_true (List.mem_filter.1 kept).2
  · rw [slots, cqs]
  · rw [mgmtSame, mgmt, mgmtKept]
  · rw [timeSame, time, timeKept]

end Sys2Proof.Proofs.Dispatch

/-!
Pool requests over CXL.io (R307, R309), the mover cache (R171, R263, R278, R298) and the check units (R310, R311).
-/

namespace Sys2Proof.Proofs.PoolRequests

open Sys2Proof Sys2Proof.Machine Sys2Proof.Laws Sys2Proof.Proofs.Shared Sys2Proof.Proofs.MoverFrames Sys2Proof.Proofs.CacheFrames

/-! ### Requests at the head of the mover's queues -/

theorem ejectBuf_takePacket (s : State) (vn : Vn) (h : Held) :
    ejectBuf (takePacket s vn h) moverStop 1 vn = packetRemoved (ejectBuf s moverStop 1 vn) h := tabGet_set_same ..

section Request

variable {s : State} {vn : Vn} {k : TlpKind} {atomic : Bool} {h : Held} {p : Tlp}

theorem takeRequest_other (head : headPacket s vn = some (h, p)) (other : p.kind ≠ k) : takeRequest s vn k atomic = s := by
  unfold takeRequest
  rw [head]
  exact if_pos (.inl other)

/-- R307: a non-posted request waits behind the writes of its requester. -/
theorem takeRequest_behind (head : headPacket s vn = some (h, p)) (ion : vn = .ion) (queued : postedQueued s p.requester h.since = true) :
    takeRequest s vn k atomic = s := by
  unfold takeRequest
  rw [head]
  exact if_pos (.inr ⟨ion, queued⟩)

/-- The work that a whole request becomes. -/
def workOf (s : State) (h : Held) (p : Tlp) : TlpWork :=
  { no := s.mov.nextNo, src := h.u.src, tag := h.u.tag, vcs := (tlpVcs s h.u.src p.ld).getD 64, tlp := p, acc := none }

/-- R307: the work is listed behind what the mover already has; an AtomicOp is counted. -/
def listed (s : State) (vn : Vn) (atomic : Bool) (h : Held) (p : Tlp) : State :=
  let w := workOf s h p
  let s2 := if atomic then bumpVcs (takePacket s vn h) w.vcs 45 1 else takePacket s vn h
  takeNo { s2 with mov := { s2.mov with tlps := s2.mov.tlps ++ [w] } }

theorem takeRequest_whole (head : headPacket s vn = some (h, p)) (kind : p.kind = k) (last : packetLast s vn h = true)
    (ahead : vn = .iop ∨ postedQueued s p.requester h.since = false) :
    takeRequest s vn k atomic =
      if atomic && s.flt.safe then tlpComplete (takePacket s vn h) (workOf s h p) (completionOf p 1 [])
      else poolTurn (listed s vn atomic h p) := by
  unfold takeRequest
  rw [head]
  dsimp only
  rw [if_neg, if_neg (by rw [last]; decide)]
  · rfl
  · rintro (other | ⟨ion, queued⟩)
    · exact other kind
    · rcases ahead with iop | free
      · exact absurd (iop.symm.trans ion) (by decide)
      · exact absurd (queued.symm.trans free) (by decide)

theorem listed_leaves (s : State) (vn : Vn) (atomic : Bool) (h : Held) (p : Tlp) :
    (listed s vn atomic h p).mov.tlps = s.mov.tlps ++ [workOf s h p] ∧
    ejectBuf (listed s vn atomic h p) moverStop 1 vn = packetRemoved (ejectBuf s moverStop 1 vn) h ∧
    (listed s vn atomic h p).mgmt = s.mgmt ∧ (listed s vn atomic h p).mov.sqs = s.mov.sqs := by
  have queue := ejectBuf_takePacket s vn h
  have mov : (takePacket s vn h).mov = s.mov := rfl
  have mgmt : (takePacket s vn h).mgmt = s.mgmt := rfl
  unfold listed
  generalize takePacket s vn h = t at queue mov mgmt
  rw [← mov, ← mgmt, ← queue]
  cases atomic with
  | false => exact ⟨rfl, rfl, rfl, rfl⟩
  | true => exact ⟨rfl, rfl, rfl, rfl⟩

end Request

/-- Each command of the table takes requests of its own queue and kind. -/
theorem exec_takeRequest {i : Instr} {vn : Vn} {k : TlpKind} {atomic : Bool}
    (named : (i, vn, k, atomic) ∈ [(Instr.poolMemoryRead, Vn.ion, TlpKind.memRead, false), (.poolMemoryWrite, .iop, .memWrite, false),
      (.poolDeferrableMemoryWrite, .ion, .deferrableWrite, false), (.poolFetchadd, .ion, .fetchAdd, true),
      (.poolSwap, .ion, .swap, true), (.poolCas, .ion, .cas, true)]) (s : State) :
    exec i s = .next (takeRequest s vn k atomic) := by
  simp only [List.mem_cons, Prod.mk.injEq, List.not_mem_nil, or_false] at named
  rcases named with ⟨rfl, rfl, rfl, rfl⟩ | ⟨rfl, rfl, rfl, rfl⟩ | ⟨rfl, rfl, rfl, rfl⟩ | ⟨rfl, rfl, rfl, rfl⟩ | ⟨rfl, rfl, rfl, rfl⟩ |
    ⟨rfl, rfl, rfl, rfl⟩ <;> rfl

theorem tlpComplete_frame (s : State) (w : TlpWork) (t : Tlp) : tlpComplete s w t = { s with fab := (tlpComplete s w t).fab } :=
  sendTlpBy_frame ..

/-! ### Lines of the mover cache -/

theorem mcFind_congr {s t : State} (same : t.mov.lines = s.mov.lines) (h : Nat) (l : BitVec 42) : mcFind t h l = mcFind s h l := by
  unfold mcFind mcLines
  rw [same]

@[simp] theorem mcLines_setMcLines (s : State) (k : Nat) (ls : List CacheLine) : mcLines (setMcLines s k ls) k = ls := tabGet_set_same ..

@[simp] theorem mcFind_mcPut (s : State) (x : CacheLine) : mcFind (mcPut s x) x.home x.line = some x := by
  unfold mcFind mcPut
  simp

@[simp] theorem mcFind_mcDrop (s : State) (h : Nat) (l : BitVec 42) : mcFind (mcDrop s h l) h l = none := by
  unfold mcFind mcDrop
  rw [mcLines_setMcLines, List.find?_eq_none]
  intro x member
  simpa [imp_iff_not_or] using (List.mem_filter.1 member).2

theorem place_of_mcFind {s : State} {h : Nat} {l : BitVec 42} {x : CacheLine} (found : mcFind s h l = some x) : x.home = h ∧ x.line = l := by
  simpa using List.find?_some found

/-- R171: a snoop leaves no line behind. -/
theorem mcFind_cacheSnoop (s : State) (u : FUnit) : mcFind (cacheSnoop s u) ((switchOf u.src).getD (ownSwitch s)) u.line = none := by
  unfold cacheSnoop
  dsimp only
  split
  · exact (mcFind_congr (cacheReply_cache ..).1 _ _).trans (mcFind_mcDrop ..)
  · next absent _ =>
    split
    · exact (mcFind_congr (send_cache ..).1 _ _).trans absent
    · exact (mcFind_congr (cacheReply_cache ..).1 _ _).trans absent
  · next absent _ => exact (mcFind_congr (send_cache ..).1 _ _).trans absent

/-! ### A fill -/

theorem applyAtom_leaves (s : State) (x : CacheLine) (o : AtomOp) :
    (mcFind (applyAtom s x o).1 x.home x.line).isSome = true ∧ (applyAtom s x o).1.mov.fills = s.mov.fills := by
  have put : ∀ (t : State) (y : CacheLine), y.home = x.home → y.line = x.line → (mcFind (mcPut t y) x.home x.line).isSome = true :=
    fun t y home line => by rw [← home, ← line, mcFind_mcPut]; rfl
  unfold applyAtom
  dsimp only
  split
  · exact ⟨put _ _ rfl rfl, rfl⟩
  · exact ⟨(congrArg Option.isSome (mcFind_congr rfl _ _)).trans (put _ _ rfl rfl), rfl⟩

/-- R298: the atomics that wait for a line find it, and leave it in the cache. -/
theorem runOps_leaves {s : State} {h : Nat} {l : BitVec 42} (held : (mcFind s h l).isSome = true) (fail : Option Nat) :
    (mcFind (runOps s h l fail).1 h l).isSome = true ∧ (runOps s h l fail).1.mov.fills = s.mov.fills := by
  unfold runOps
  refine List.foldlRecOn _ _ (motive := fun r : State × List (AtomOp × AtomEnd) =>
    (mcFind r.1 h l).isSome = true ∧ r.1.mov.fills = s.mov.fills) ⟨held, rfl⟩ fun r ⟨has, fills⟩ o _ => ?_
  dsimp only
  split
  · next x found _ =>
    obtain ⟨rfl, rfl⟩ := place_of_mcFind found
    obtain ⟨kept, same⟩ := applyAtom_leaves r.1 x o
    exact ⟨kept, same.trans fills⟩
  · exact ⟨has, fills⟩
  · exact ⟨has, fills⟩

theorem fills_evictLine {s : State} {x : CacheLine} {r : State × Nat} (evicted : evictLine s x = some r) : r.1.mov.fills = s.mov.fills := by
  obtain ⟨t, -, rfl⟩ := Option.map_eq_some_iff.1 evicted
  dsimp only
  rw [(sendEvict_cache ..).2]
  split <;> rfl

/-- The line of a fill, as it enters the cache. -/
def lineOf (f : CacheFill) (d : LineData) (poison : Bool) (clock : Nat) : CacheLine :=
  { home := f.home, line := f.line, data := d, poison := poison, dirty := false, owner := none, used := clock }

/-- R298: the line that was asked for is in the cache, and is asked for no longer. -/
theorem fillData_leaves (s : State) (f : CacheFill) (d : LineData) (poison : Bool) :
    (mcFind (fillData s f d poison).1 f.home f.line).isSome = true ∧ ∀ g ∈ (fillData s f d poison).1.mov.fills, g.tag ≠ f.tag := by
  unfold fillData
  extract_lets mov s1 s2
  have gone : s2.mov.fills = s1.mov.fills := by
    unfold s2
    split
    · next v _ =>
      cases evicted : evictLine s1 v with
      | none => rfl
      | some r => exact fills_evictLine evicted
    · rfl
  clear_value s2
  have put := mcFind_mcPut s2 (lineOf f d poison s2.mov.clock)
  obtain ⟨held, fills⟩ := runOps_leaves (Option.isSome_iff_exists.2 ⟨_, put⟩) none
  refine ⟨held, fun g member => ?_⟩
  have kept : g ∈ s1.mov.fills := ((congrArg (g ∈ ·) (fills.trans gone)).mp member)
  simpa using (List.mem_filter.1 kept).2

/-! ### A flush of the whole cache -/

theorem send_out (s : State) (u : FUnit) : (send s u).out = s.out := by rw [send_frame]

theorem sendEvict_out (s : State) (e : CacheEvict) : (sendEvict s e).out = s.out := by
  unfold sendEvict
  split <;> exact send_out ..

theorem evictRange_out (s : State) (hit : CacheLine → Bool) : (evictRange s hit).1.out = s.out := by
  refine List.foldlRecOn _ _ (motive := fun r : State × List Nat × Bool => r.1.out = s.out) rfl fun r same x _ => ?_
  split
  · next evicted =>
    obtain ⟨t, -, made⟩ := Option.map_eq_some_iff.1 evicted
    cases made
    rw [sendEvict_out]
    split <;> exact same
  · exact same

theorem flushAllScan_asked {s : State} (asked : s.mov.flushAll = true) :
    flushAllScan s = { (evictRange s fun _ => true).1 with
      mov := { (evictRange s fun _ => true).1.mov with flushAll := !(evictRange s fun _ => true).2.2 } } :=
  if_pos asked

theorem evictRange_empty {s : State} (empty : s.mov.lines = []) (hit : CacheLine → Bool) : evictRange s hit = (s, [], true) := by
  unfold evictRange
  rw [empty]
  rfl

/-! ### The check units (R310, R311) -/

theorem unitOwner_free {s : State} {u : Nat} (free : odGet s (0x7400 + u) 3 ≠ 1) (fn : Nat) :
    unitOwner s u fn = if 1087 < fn ∧ fn ≠ 0xFFFF then (s, .outOfRange) else (odSet s (0x7400 + u) 1 fn, .ok) :=
  if_neg free

theorem unitContext_free {s : State} {u : Nat} (free : odGet s (0x7400 + u) 3 ≠ 1) (w : BitVec 512) :
    unitContext s u w =
      if ctxInRange w then ({ s with mov := { s.mov with ctx := tabSet 0 u (packCtx (unpackCtx w)) s.mov.ctx } }, .ok)
      else (s, .outOfRange) :=
  if_neg free

/-! ### The obligation -/

/-- The state once the answer `h` has left its queue. -/
def answerTaken (s : State) (vn : Vn) (h : Held) : State :=
  setEjectBuf s moverStop 2 vn ((ejectBuf s moverStop 2 vn).filter fun g => decide (g.id ≠ h.id))

theorem exec_moverCacheResponse {dat : Bool} {s : State} {h : Held}
    (first : nackFirst (ejectBuf s moverStop 2 (if dat then .dat else .rsp)) = some h) :
    exec (.moverCacheResponse dat) s = .next (poolTurn (cacheAnswer (answerTaken s (if dat then .dat else .rsp) h) h.u)) := by
  show execMoverCacheResponse dat s = _
  unfold execMoverCacheResponse
  dsimp only
  rw [first]
  rfl

/-- Answers to the cache are looked up in the tables of the mover, which a message that leaves the queue does not change. -/
theorem cacheAnswer_stray {s : State} {u : FUnit} (quarantined : (tabFind? u.tag.toNat s.mov.quar).isSome = true) :
    cacheAnswer s u = bumpC s 0xC026 0x0C := by
  refine if_pos ?_
  unfold cacheStray
  dsimp only
  rw [quarantined]
  rfl

theorem cacheAnswer_fill {s : State} {u : FUnit} {f : CacheFill} (vn : u.vn = .dat) (type : u.type.toNat % 4 = 2)
    (expected : cacheStray s u = false) (noPart : poolPart s u.tag.toNat = none)
    (asked : (s.mov.fills.find? fun g => decide (g.tag = u.tag.toNat)) = some f) :
    cacheAnswer s u = atomsDone (fillData s f u.payload u.poison).1 (fillData s f u.payload u.poison).2 := by
  unfold cacheAnswer
  dsimp only
  rw [if_neg (by rw [expected]; decide), noPart, asked]
  dsimp only
  unfold fillAnswer
  dsimp only
  rw [vn]
  dsimp only
  rw [if_pos type]

/-- Settles O39: requests through `takeRequest`, the cache through what a snoop, an answer and a flush make of its lines. -/
theorem poolRequestsAndCache : Obligations.PoolRequestsAndCache := by
  unfold Obligations.PoolRequestsAndCache
  refine ⟨fun i vn k atomic h p s named head => ⟨fun other => ?_, fun ion queued => ?_, fun kind last ahead calm => ?_,
      fun kind last free atom safe => ?_⟩, fun h s found => ?_, fun dat h s first quarantined => ?_,
    fun h f s first vn type expected noPart asked => ?_, fun s => ?_, fun u fn s free => ⟨fun inRange => ?_, fun above other => ?_⟩,
    fun u w s free => ⟨fun good => ?_, fun bad => ?_⟩, fun u fn w s busy => ⟨?_, ?_⟩⟩
  · rw [exec_takeRequest named, takeRequest_other head other]
  · rw [exec_takeRequest named, takeRequest_behind head ion queued]
  · have run := exec_takeRequest named s
    rw [takeRequest_whole head kind last ahead, if_neg (by rcases calm with rfl | safe <;> simp [*])] at run
    obtain ⟨tlps, queue, mgmt, sqs⟩ := listed_leaves s vn atomic h p
    exact ⟨_, _, run, tlps, rfl, rfl, rfl, rfl, queue, mgmt, sqs⟩
  · have run := exec_takeRequest named s
    rw [takeRequest_whole head kind last (.inr free), if_pos (by rw [atom, safe]; rfl), tlpComplete_frame] at run
    exact ⟨_, run, rfl, rfl⟩
  · have run : exec .moverCacheSnoop s = .next (cacheSnoop (setEjectBuf s moverStop 2 .snp
        ((ejectBuf s moverStop 2 .snp).filter fun g => decide (g.id ≠ h.id))) h.u) := by
      show execMoverCacheSnoop s = _
      unfold execMoverCacheSnoop
      dsimp only
      rw [found]
    exact ⟨_, run, mcFind_cacheSnoop _ h.u, (cacheSnoop_queues ..).1, (cacheSnoop_keep ..).1⟩
  · have run := exec_moverCacheResponse first
    rw [cacheAnswer_stray (s := answerTaken s _ h) quarantined] at run
    exact ⟨_, run, rfl, counter_bump_same _ _ 1, rfl⟩
  · have run := exec_moverCacheResponse (dat := true) first
    rw [cacheAnswer_fill (s := answerTaken s _ h) vn type expected noPart asked] at run
    obtain ⟨held, fills⟩ := fillData_leaves (answerTaken s .dat h) f h.u.payload h.u.poison
    refine ⟨_, run, fun g member => fills g ?_, ?_, ?_, ?_⟩
    · rw [(atomsDone_cache ..).2] at member
      exact member
    · rw [mcFind_congr (atomsDone_cache ..).1]
      exact held
    · rw [(atomsDone_queues ..).1, (fillData_queues ..).1]
      rfl
    · rw [(atomsDone_keep ..).1, (fillData_keep ..).1]
      rfl
  · have eq := flushAllScan_asked (s := { s with mov := { s.mov with flushAll := true } }) rfl
    refine ⟨_, rfl, ?_, (flushAllScan_queues _).1, (flushAllScan_keep _).1, fun empty => ?_⟩
    · rw [eq]
      exact congrArg (· ++ [Out.status .ok]) (evictRange_out ..)
    · rw [eq, evictRange_empty (s := { s with mov := { s.mov with flushAll := true } }) empty]
      rfl
  · refine ⟨_, answered_of ((unitOwner_free free _).trans (if_neg ?_)), ?_, rfl, rfl⟩
    · rintro ⟨above, other⟩
      rcases inRange with small | rfl
      · omega
      · exact other rfl
    · rw [odGet_emit, odGet_odSet_same]
  · refine answered_of ((unitOwner_free free _).trans (if_pos ⟨above, fun all => other ?_⟩))
    exact BitVec.eq_of_toNat_eq all
  · exact ⟨_, answered_of ((unitContext_free free w).trans (if_pos good)), tabGet_set_same .., rfl, rfl⟩
  · exact answered_of ((unitContext_free free w).trans (if_neg (by rw [bad]; decide)))
  · exact answered_of (if_pos busy)
  · exact answered_of (if_pos busy)

end Sys2Proof.Proofs.PoolRequests

/-!
Resets of a function (R332 to R334): each of the commands comes down to `functionReset`, whose effect on the tables of the mover is
stated once (`functionReset_eq`) and carried over the functions of a VCS (`Reset`).
-/

namespace Sys2Proof.Proofs.FunctionResets

open Sys2Proof Sys2Proof.Machine Sys2Proof.Laws Sys2Proof.Proofs.Shared Sys2Proof.Proofs.MoverQueues

@[simp] theorem func_setFunc_same (s : State) (n : Nat) (f : Func) : func (setFunc s n f) n = f := tabGet_set_same ..

theorem func_setFunc_other (s : State) {n m : Nat} (apart : m ≠ n) (f : Func) : func (setFunc s n f) m = func s m :=
  tabGet_set_other apart ..

/-! ### The work of a function stops (R332) -/

/-- What is left of the mover's tables once the work of function `fn` has stopped. -/
def stoppedMov (m : MovState) (fn : Nat) : MovState :=
  { m with
    execs := m.execs.map fun e => if e.fn = fn then { e with dropped := true } else e
    accs := m.accs.map (discardUse fn)
    sqs := m.sqs.map fun p => if decide (p.2.owner = fn + 1) then (p.1, { subReset with owner := p.2.owner, loc := p.2.loc }) else p
    cqs := m.cqs.map fun p => if decide (p.2.owner = fn + 1) then (p.1, { compReset with owner := p.2.owner, loc := p.2.loc }) else p }

theorem stoppedMov_sqs {m : MovState} {fn : Nat} {p : Nat × SubQ} (member : p ∈ (stoppedMov m fn).sqs) (mine : p.2.owner = fn + 1) :
    p.2.st = .disabled := by
  obtain ⟨q, -, rfl⟩ := List.mem_map.1 member
  by_cases own : q.2.owner = fn + 1
  · simp [own, subReset]
  · simp [own] at mine

theorem stoppedMov_cqs {m : MovState} {fn : Nat} {p : Nat × CompQ} (member : p ∈ (stoppedMov m fn).cqs) (mine : p.2.owner = fn + 1) :
    p.2.st = .disabled := by
  obtain ⟨q, -, rfl⟩ := List.mem_map.1 member
  by_cases own : q.2.owner = fn + 1
  · simp [own, compReset]
  · simp [own] at mine

theorem stoppedMov_execs {m : MovState} {fn : Nat} {e : Exec} (member : e ∈ (stoppedMov m fn).execs) (mine : e.fn = fn) :
    e.dropped = true := by
  obtain ⟨x, -, rfl⟩ := List.mem_map.1 member
  by_cases own : x.fn = fn
  · simp [own]
  · simp [own] at mine

/-- The units show which of them run: sub 3 of their entries alone. -/
theorem unitsShown_frame (s : State) :
    ∃ od, unitsShown s = { s with od := od } ∧ ∀ i j, j ≠ 3 → j < 256 → odGet (unitsShown s) i j = odGet s i j := by
  have shown : (∃ od, unitsShown s = { s with od := od }) ∧ ∀ i j, j ≠ 3 → j < 256 → odGet (unitsShown s) i j = odGet s i j := by
    refine List.foldlRecOn _ _ (motive := fun t : State =>
      (∃ od, t = { s with od := od }) ∧ ∀ i j, j ≠ 3 → j < 256 → odGet t i j = odGet s i j) ⟨⟨_, rfl⟩, fun _ _ _ _ => rfl⟩ ?_
    rintro t ⟨⟨od, frame⟩, same⟩ u -
    refine ⟨⟨_, by rw [frame]; rfl⟩, fun i j other small => ?_⟩
    rw [odGet_odSet_subs _ _ _ _ other (by decide) small, same i j other small]
  obtain ⟨⟨od, frame⟩, same⟩ := shown
  exact ⟨od, frame, same⟩

theorem functionWorkStops_frame (s : State) (fn : Nat) :
    ∃ od, functionWorkStops s fn = { s with od := od, mov := stoppedMov s.mov fn } ∧
      ∀ i j, j ≠ 2 → j ≠ 3 → j < 256 → odGet (functionWorkStops s fn) i j = odGet s i j := by
  obtain ⟨od, frame, same⟩ := unitsShown_frame (poolShown { s with mov := stoppedMov s.mov fn })
  refine ⟨od, ?_, fun i j two three small => ?_⟩
  · exact frame
  · exact (same i j three small).trans (odGet_odSet_subs _ _ _ _ two (by decide) small)

/-! ### A reset (R332) -/

/-- What a reset may touch, what it leaves assigned, and that it ends no other reset. -/
structure Reset (s t : State) : Prop where
  touched : ∃ od mov funcs, t = { s with od := od, mov := mov, ven := { s.ven with funcs := funcs } }
  assigned : ∀ f, assignment t f = assignment s f
  pending : ∀ f, resetPending s f = true → resetPending t f = true

namespace Reset

theorem refl (s : State) : Reset s s := ⟨⟨_, _, _, rfl⟩, fun _ => rfl, fun _ h => h⟩

theorem trans {s t u : State} (first : Reset s t) (second : Reset t u) : Reset s u := by
  obtain ⟨od, mov, funcs, frame⟩ := first.touched
  obtain ⟨od', mov', funcs', frame'⟩ := second.touched
  refine ⟨⟨od', mov', funcs', ?_⟩, fun f => (second.assigned f).trans (first.assigned f), fun f h => second.pending f (first.pending f h)⟩
  rw [frame', frame]

end Reset

theorem functionReset_pending {s : State} {n : Nat} (again : resetPending s n = true) : functionReset s n = s := if_pos again

/-- What a function that is not being reset already becomes. -/
theorem functionReset_eq {s : State} {n : Nat} (fresh : resetPending s n = false) :
    functionReset s n = odSet (dropGone (functionWorkStops (setFunc s n { func s n with resetPending := true, vecPending := [] }) n))
      (funcIdx n) 6 1 :=
  if_neg (by rw [fresh]; decide)

/-- R332: executions that wait for nothing leave, and nothing else. -/
theorem dropGone_frame (s : State) :
    ∃ execs, dropGone s = { s with mov := { s.mov with execs := execs } } ∧ ∀ e ∈ execs, e ∈ s.mov.execs :=
  ⟨_, rfl, fun _ member => (List.mem_filter.1 member).1⟩

theorem dropGone_od (s : State) : (dropGone s).od = s.od := rfl

/-- The end of a reset's own step, from the state in which the function is marked. -/
theorem workStopped_frame (s : State) (n : Nat) :
    ∃ od mov, odSet (dropGone (functionWorkStops s n)) (funcIdx n) 6 1 = { s with od := od, mov := mov } ∧
      (∀ p ∈ mov.sqs, p.2.owner = n + 1 → p.2.st = .disabled) ∧ (∀ p ∈ mov.cqs, p.2.owner = n + 1 → p.2.st = .disabled) ∧
      (∀ e ∈ mov.execs, e.fn = n → e.dropped = true) ∧
      ∀ i j, j ≠ 2 → j ≠ 3 → j ≠ 6 → j < 256 → odGet (odSet (dropGone (functionWorkStops s n)) (funcIdx n) 6 1) i j = odGet s i j := by
  obtain ⟨od, frame, same⟩ := functionWorkStops_frame s n
  obtain ⟨execs, gone, kept⟩ := dropGone_frame (functionWorkStops s n)
  have set : ∃ od, odSet (dropGone (functionWorkStops s n)) (funcIdx n) 6 1 =
      { s with od := od, mov := { stoppedMov s.mov n with execs := execs } } := by
    rw [gone, frame]
    exact ⟨_, rfl⟩
  obtain ⟨_, set⟩ := set
  refine ⟨_, _, set, fun p member own => stoppedMov_sqs (m := s.mov) member own, fun p member own => stoppedMov_cqs (m := s.mov) member own,
    fun e member own => ?_, fun i j two three six small => ?_⟩
  · have was := kept e member
    rw [frame] at was
    exact stoppedMov_execs was own
  · exact (odGet_odSet_subs _ _ _ _ six (by decide) small).trans ((odGet_congr (dropGone_od _) i j).trans (same i j two three small))

/-- The state in which a function is marked as being reset. -/
def marked (s : State) (n : Nat) : State := setFunc s n { func s n with resetPending := true, vecPending := [] }

theorem functionReset_frame {s : State} {n : Nat} (fresh : resetPending s n = false) :
    ∃ od mov, functionReset s n = { marked s n with od := od, mov := mov } ∧
      (∀ p ∈ mov.sqs, p.2.owner = n + 1 → p.2.st = .disabled) ∧ (∀ p ∈ mov.cqs, p.2.owner = n + 1 → p.2.st = .disabled) ∧
      (∀ e ∈ mov.execs, e.fn = n → e.dropped = true) ∧
      ∀ i j, j ≠ 2 → j ≠ 3 → j ≠ 6 → j < 256 → odGet (functionReset s n) i j = odGet s i j := by
  rw [functionReset_eq fresh]
  exact workStopped_frame (marked s n) n

theorem functionReset_reset (s : State) (n : Nat) :
    Reset s (functionReset s n) ∧ resetPending (functionReset s n) n = true := by
  cases fresh : resetPending s n with
  | true =>
    rw [functionReset_pending fresh]
    exact ⟨.refl s, fresh⟩
  | false =>
    obtain ⟨od, mov, frame, -, -, -, same⟩ := functionReset_frame fresh
    have funcs : ∀ f, func (functionReset s n) f = func (marked s n) f := fun f => by rw [frame]; rfl
    have here : resetPending (functionReset s n) n = true := by
      unfold resetPending
      rw [funcs, marked, func_setFunc_same]
    refine ⟨⟨⟨od, mov, _, frame⟩, fun f => ?_, fun f pending => ?_⟩, here⟩
    · unfold assignment
      rw [same _ _ (by decide) (by decide) (by decide) (by decide)]
    · by_cases own : f = n
      · rw [own]
        exact here
      · unfold resetPending
        rw [funcs, marked, func_setFunc_other _ own]
        exact pending

/-- The functions of a list are reset one after another. -/
theorem foldl_functionReset (l : List Nat) (s : State) :
    Reset s (l.foldl functionReset s) ∧ ∀ f ∈ l, resetPending (l.foldl functionReset s) f = true := by
  induction l generalizing s with
  | nil => exact ⟨.refl s, fun _ h => absurd h List.not_mem_nil⟩
  | cons n l ih =>
    obtain ⟨first, here⟩ := functionReset_reset s n
    obtain ⟨rest, all⟩ := ih (functionReset s n)
    refine ⟨first.trans rest, fun f member => ?_⟩
    rcases List.mem_cons.1 member with rfl | later
    · exact rest.pending _ here
    · exact all f later

/-- R333: the functions of a VCS are reset, those that are assigned to it. -/
theorem resetVeneers_reset (s : State) (v : Nat) :
    Reset s (resetVeneers s v) ∧ ∀ f, f < 1024 → (assignment s f).map Prod.fst = some v → resetPending (resetVeneers s v) f = true := by
  obtain ⟨reset, all⟩ := foldl_functionReset (veneersOf s v) s
  exact ⟨reset, fun f small mine => all f (List.mem_filter.2 ⟨List.mem_range.2 small, decide_eq_true mine⟩)⟩

/-! ### A reset that ends (R334) -/

/-- The state in which the reset of a function is over, and counted. -/
def ended (u : State) (n : Nat) : State :=
  bumpFn (bumpC (odSet (setFunc u n { func u n with resetPending := false, leaving := false }) (funcIdx n) 6 0) 0xC029 3) n 23 1

theorem ended_frame (u : State) (n : Nat) :
    (∃ od perf, ended u n = { setFunc u n { func u n with resetPending := false, leaving := false } with od := od, perf := perf }) ∧
      odGet (ended u n) (funcIdx n) 6 = 0 ∧ counter (ended u n) (counterNo 0xC029 3) = counter u (counterNo 0xC029 3) + 1 := by
  unfold ended
  generalize funcs : setFunc u n { func u n with resetPending := false, leaving := false } = s
  have same : s.perf = u.perf := by rw [← funcs]; rfl
  obtain ⟨perf, frame, cnt⟩ := bumpFn_perf (bumpC (odSet s (funcIdx n) 6 0) 0xC029 3) n 23 1
  refine ⟨⟨_, perf, by rw [frame]; rfl⟩, ?_, ?_⟩
  · rw [frame]
    exact odGet_odSet_same s (funcIdx n) 6 0
  · refine (congrArg (tabGet 0 (counterNo 0xC029 3)) cnt).trans ((counter_bump_same _ (counterNo 0xC029 3) 1).trans ?_)
    unfold counter
    rw [odSet_perf, same]
    rfl

theorem resetComplete_eq {s u : State} {n : Nat} (made : u = dropGone s) (pending : (func u n).resetPending = true)
    (quiet : fnBusy u n = false) :
    resetComplete s n = if (func u n).leaving then odSet (ended u n) (funcIdx n) 1 unassigned else ended u n := by
  subst made
  exact if_pos ⟨pending, by rw [quiet]; rfl⟩

/-- What `resetComplete` leaves of a function that waits for nothing any more. -/
theorem resetComplete_leaves {s u : State} {n : Nat} (made : u = dropGone s) (pending : (func u n).resetPending = true)
    (quiet : fnBusy u n = false) :
    func (resetComplete s n) n = { func u n with resetPending := false, leaving := false } ∧ odGet (resetComplete s n) (funcIdx n) 6 = 0 ∧
      counter (resetComplete s n) (counterNo 0xC029 3) = counter u (counterNo 0xC029 3) + 1 ∧
      ((func u n).leaving = true → odGet (resetComplete s n) (funcIdx n) 1 = unassigned) ∧
      ∃ od perf funcs, resetComplete s n = { u with od := od, perf := perf, ven := { u.ven with funcs := funcs } } := by
  obtain ⟨⟨od, perf, frame⟩, shown, counted⟩ := ended_frame u n
  have here : func (ended u n) n = { func u n with resetPending := false, leaving := false } := by
    rw [frame]
    exact func_setFunc_same ..
  rw [resetComplete_eq made pending quiet]
  cases (func u n).leaving with
  | false => exact ⟨here, shown, counted, fun h => absurd h (by decide), _, _, _, frame⟩
  | true =>
    rw [if_pos rfl]
    refine ⟨here, ?_, counted, fun _ => odGet_odSet_same .., ?_⟩
    · exact (odGet_odSet_sub _ _ _ _ (by decide)).trans shown
    · rw [frame]
      exact ⟨_, _, _, rfl⟩

/-- Settles O41: every reset is one `functionReset` or a fold of it, and ends with `resetComplete`. -/
theorem functionResets : Obligations.FunctionResets := by
  unfold Obligations.FunctionResets
  refine ⟨fun n i s named fresh => ?_, fun v n s number => ?_, fun v s => ?_, fun n u s made pending quiet => ?_⟩
  · obtain ⟨od, mov, frame, sqs, cqs, execs, -⟩ := functionReset_frame fresh
    have shown : odGet (functionReset s n.val) (funcIdx n.val) 6 = 1 := by
      rw [functionReset_eq fresh]
      exact odGet_odSet_same ..
    have here : func (functionReset s n.val) n.val = { func s n.val with resetPending := true, vecPending := [] } := by
      rw [frame]
      exact func_setFunc_same ..
    have flags : resetPending (functionReset s n.val) n.val = true ∧ (func (functionReset s n.val) n.val).vecPending = [] := by
      unfold resetPending
      rw [here]
      exact ⟨rfl, rfl⟩
    obtain ⟨pending, vectors⟩ := flags
    have queues : (∀ p ∈ (functionReset s n.val).mov.sqs, p.2.owner = n.val + 1 → p.2.st = .disabled) ∧
        (∀ p ∈ (functionReset s n.val).mov.cqs, p.2.owner = n.val + 1 → p.2.st = .disabled) ∧
        ∀ e ∈ (functionReset s n.val).mov.execs, e.fn = n.val → e.dropped = true := by
      rw [frame]
      exact ⟨sqs, cqs, execs⟩
    obtain ⟨sqs, cqs, execs⟩ := queues
    rcases named with rfl | rfl | ⟨rfl, small⟩
    · exact ⟨_, rfl, pending, vectors, shown, sqs, cqs, execs, by rw [frame]; rfl⟩
    · exact ⟨_, rfl, pending, vectors, shown, sqs, cqs, execs, by rw [frame]; rfl⟩
    · refine ⟨_, congrArg Host.Outcome.next (if_neg (by omega)), pending, vectors, shown, sqs, cqs, execs, by rw [frame]; rfl⟩
  · obtain ⟨own, here⟩ := functionReset_reset s n.val
    obtain ⟨all, each⟩ := resetVeneers_reset (functionReset s n.val) v.val
    obtain ⟨od, mov, funcs, frame⟩ := (own.trans all).touched
    have eq : functionLevelReset s n.val = resetVeneers (functionReset s n.val) v.val := by
      refine (if_pos (by omega)).trans ?_
      unfold resetFunctions
      rw [show n.val - 1024 = v.val by omega, ← number]
    exact ⟨_, congrArg Host.Outcome.next eq, all.pending _ here,
      fun f small mine => each f small ((congrArg (Option.map Prod.fst) (own.assigned f)).trans mine), by rw [frame]⟩
  · obtain ⟨all, each⟩ := resetVeneers_reset { s with ven := { s.ven with vfEnable := setRemove v.val s.ven.vfEnable } } v.val
    obtain ⟨od, mov, funcs, frame⟩ := all.touched
    refine ⟨_, rfl, ?_, fun f small mine => each f small mine, by rw [frame]⟩
    rw [frame]
    simp
  · obtain ⟨func, shown, counted, leaves, od, perf, funcs, frame⟩ := resetComplete_leaves made pending quiet
    exact ⟨_, rfl, func, shown, counted, leaves, by rw [frame]⟩

end Sys2Proof.Proofs.FunctionResets

/-!
Dirty-page log channels (R328, R330, R331). Every write to a control block leaves through the fabric alone (`lcbWrite_frame`), so what
a command makes of a channel is what `setLogCh` writes.
-/

namespace Sys2Proof.Proofs.LogChannels

open Sys2Proof Sys2Proof.Machine Sys2Proof.Laws Sys2Proof.Proofs.Shared

@[simp] theorem logCh_setLogCh_same (s : State) (c : Nat) (x : LogCh) : logCh (setLogCh s c x) c = x := tabGet_set_same ..

theorem logCh_setLogCh_other (s : State) {c d : Nat} (apart : d ≠ c) (x : LogCh) : logCh (setLogCh s c x) d = logCh s d :=
  tabGet_set_other apart ..

/-- R328: a write to host memory is a packet, and touches the fabric alone. -/
theorem lcbWrite_frame (s : State) (c off : Nat) (data : List Byte) :
    lcbWrite s c off data = { s with fab := (lcbWrite s c off data).fab } := by
  unfold lcbWrite hostWrite
  dsimp only
  split
  · rfl
  · exact sendTlpBy_frame ..

/-- What a command leaves when it writes channel `c`, and shows things of it. -/
structure Written (s t : State) (c : Nat) (x : LogCh) : Prop where
  own : logCh t c = x
  others : ∀ d, d ≠ c → logCh t d = logCh s d
  mgmt : t.mgmt = s.mgmt

theorem Written.emit {s t : State} {c : Nat} {x : LogCh} (h : Written s t c x) (o : Out) : Written s (emit t o) c x :=
  ⟨h.own, h.others, h.mgmt⟩

theorem lcbWrite_written (s : State) (c : Nat) (x : LogCh) (off : Nat) (data : List Byte) :
    Written s (lcbWrite (setLogCh s c x) c off data) c x := by
  rw [lcbWrite_frame]
  exact ⟨logCh_setLogCh_same .., fun d apart => logCh_setLogCh_other s apart x, rfl⟩

/-- R331: a channel's new state is shown in its control block and in OD 15 of its entry. -/
theorem logState_leaves (s : State) (c : Nat) (x : LogCh) :
    Written s (logState s c x) c x ∧ odGet (logState s c x) (logIdx c) 0x15 = x.state.code ∧
      odGet (logState s c x) (logIdx c) 0x10 = odGet s (logIdx c) 0x10 := by
  unfold logState
  rw [lcbWrite_frame]
  refine ⟨⟨logCh_setLogCh_same s c x, fun d apart => logCh_setLogCh_other s apart x, rfl⟩,
    odGet_odSet_same (setLogCh s c x) (logIdx c) 0x15 _, ?_⟩
  exact odGet_odSet_sub (setLogCh s c x) (logIdx c) 0x15 _ (by decide)

/-! ### Enabling and disabling -/

section Commands

variable {s : State} {c : Nat}

/-- R331: a valid block: size code, alignment and window. -/
theorem logEnable_valid {w : BitVec 512} (off : (logCh s c).state = .off) (least : 9 ≤ (w.extractLsb' 192 8).toNat)
    (most : (w.extractLsb' 192 8).toNat ≤ 20) (aligned : (w.extractLsb' 128 64).toNat % 4096 = 0) (window : windowValid s c = true) :
    logEnable s c (some w) =
      (logResetting (odSet s (logIdx c) 0x10 1) c
        { logCh s c with n := (w.extractLsb' 192 8).toNat, ring := (w.extractLsb' 128 64).toNat } (w.extractLsb' 0 32), .ok) := by
  unfold logEnable
  dsimp only
  rw [if_neg (fun h => h off), if_pos ⟨least, most, aligned, window⟩]

theorem logEnable_invalid {lcb : Option (BitVec 512)} (off : (logCh s c).state = .off) (bad : lcb = none ∨ windowValid s c = false) :
    logEnable s c lcb = (s, .lcbInvalid) := by
  unfold logEnable
  dsimp only
  rw [if_neg (fun h => h off)]
  cases lcb with
  | none => rfl
  | some w =>
    refine if_neg ?_
    rintro ⟨-, -, -, window⟩
    rcases bad with absent | invalid
    · cases absent
    · exact absurd (window.symm.trans invalid) (by decide)

theorem logDisable_on (on : (logCh s c).state ≠ .off) :
    logDisable s c = (logState (odSet s (logIdx c) 0x10 0) c { logCh s c with state := .off, rearm := none }, .ok) :=
  if_neg on

theorem resetBitmap_runs (runs : (logCh s c).state = .logging ∨ (logCh s c).state = .overflow) (i : BitVec 32) :
    resetBitmap s c i = (logResetting s c (logCh s c) i, .ok) :=
  if_pos runs

theorem bitmapCleared_resetting (resetting : (logCh s c).state = .resetting) :
    bitmapCleared s c = notify (logState s c { logCh s c with state := .logging }) (logIdx c) 0x15 1 0 :=
  if_pos resetting

end Commands

/-! ### The control block read, and re-arming (R330) -/

theorem openAccess_unguarded (s : State) (fn : Option Nat) (v : Nat) (write : Bool) (use : MovUse) (addr len : Nat) (data : List Byte)
    (poison : Nat → Bool) :
    ∃ a, (openAccess s fn v write false use addr len data poison).mov.accs = s.mov.accs ++ [a] ∧ a.use = use ∧ a.write = write ∧
      openAccess s fn v write false use addr len data poison =
        { s with mov := { s.mov with accs := s.mov.accs ++ [a], nextNo := s.mov.nextNo + 1 } } :=
  ⟨_, rfl, rfl, rfl, rfl⟩

theorem logDoorbell_on {s : State} {v c : Nat} (mine : odGet s (logIdx c) 0x11 = v) (on : (logCh s c).state ≠ .off) :
    logDoorbell s v c = moverTurn (openAccess s none v false false (.lcb c) (odGet s (logIdx c) 0x12) 64 [] clean) :=
  if_pos ⟨mine, on⟩

/-- R330: once every read of the ring has ended without a failure, the pages that they name are re-armed. -/
theorem rearmDone_over {u : State} {c : Nat} {i : BitVec 32} (asked : (logCh u c).rearm = some i) (on : (logCh u c).state ≠ .off)
    (read : ∀ a ∈ u.mov.accs, a.use = .relog c → a.over = true ∧ a.failed = false) :
    ∃ pages, (∀ p ∈ pages, p ∈ (logCh u c).pages) ∧
      logCh (rearmDone u c) c = { logCh u c with rearm := none, r := i, pages := pages } := by
  have all : (u.mov.accs.filter fun a => decide (a.use = .relog c)).all MovAcc.over = true := by
    refine List.all_eq_true.2 fun a member => ?_
    obtain ⟨held, mine⟩ := List.mem_filter.1 member
    exact (read a held (of_decide_eq_true mine)).1
  have none : (u.mov.accs.filter fun a => decide (a.use = .relog c)).any MovAcc.failed = false := by
    refine List.any_eq_false.2 fun a member => ?_
    obtain ⟨held, mine⟩ := List.mem_filter.1 member
    rw [(read a held (of_decide_eq_true mine)).2]
    decide
  unfold rearmDone
  dsimp only
  rw [asked]
  dsimp only
  rw [if_pos all, if_neg (by rw [none]; simpa using on)]
  exact ⟨_, fun p member => (List.mem_filter.1 member).1, (lcbWrite_written _ c _ 28 _).own⟩

/-! ### The obligation -/

/-- Settles O42, clause by clause, by what each command writes into its own channel. -/
theorem logChannels : Obligations.LogChannels := by
  unfold Obligations.LogChannels
  refine ⟨fun c w s off least most aligned window => ?_, fun c lcb s off bad => ?_, fun c s on => ?_, fun c i s runs => ?_,
    fun c s resetting => ?_, fun c s unsent => ?_, fun v c s mine on => ?_, fun c i u s made asked read on => ?_⟩
  · obtain ⟨written, -, shown⟩ := logState_leaves (odSet s (logIdx c.val) 0x10 1) c.val
      { logCh s c.val with
        state := .resetting, n := (w.extractLsb' 192 8).toNat, ring := (w.extractLsb' 128 64).toNat, d := w.extractLsb' 0 32,
        r := w.extractLsb' 0 32, pages := [], outside := false, unsent := 0, rearm := none }
    obtain ⟨own, others, mgmt⟩ := written.emit (.status .ok)
    refine ⟨_, answered_of (logEnable_valid off least most aligned window), ?_, List.getLast?_concat, own, others, mgmt⟩
    exact (odGet_emit ..).trans (shown.trans (odGet_odSet_same ..))
  · exact answered_of (logEnable_invalid off bad)
  · obtain ⟨written, code, shown⟩ :=
      logState_leaves (odSet s (logIdx c.val) 0x10 0) c.val { logCh s c.val with state := .off, rearm := none }
    obtain ⟨own, others, mgmt⟩ := written.emit (.status .ok)
    refine ⟨_, answered_of (logDisable_on on), ?_, ?_, own, others, mgmt⟩
    · rw [odGet_emit, shown, odGet_odSet_same]
    · rw [odGet_emit, code]
      rfl
  · obtain ⟨written, -⟩ := logState_leaves s c.val { logCh s c.val with
      state := .resetting, d := i, r := i, pages := [], outside := false, unsent := 0, rearm := none }
    obtain ⟨own, others, mgmt⟩ := written.emit (.status .ok)
    exact ⟨_, answered_of (resetBitmap_runs runs i), others, mgmt, own⟩
  · obtain ⟨⟨own, others, mgmt⟩, code, -⟩ := logState_leaves s c.val { logCh s c.val with state := .logging }
    refine ⟨_, congrArg Host.Outcome.next (bitmapCleared_resetting resetting), own, ?_, mgmt⟩
    exact (odGet_notify ..).trans code
  · obtain ⟨own, others, mgmt⟩ := lcbWrite_written s c.val { logCh s c.val with unsent := 0 } 4 (leBytes 4 (logCh s c.val).d.toNat)
    have run : exec (.logProducerWriteback c) s = .next (lcbWrite (setLogCh s c.val { logCh s c.val with unsent := 0 }) c.val 4
        (leBytes 4 (logCh s c.val).d.toNat)) := if_neg unsent
    exact ⟨_, run, own, others, mgmt⟩
  · obtain ⟨a, accs, use, write, frame⟩ := openAccess_unguarded s none v.val false (.lcb c.val) (odGet s (logIdx c.val) 0x12) 64 [] clean
    exact ⟨_, a, congrArg Host.Outcome.next (logDoorbell_on mine on), accs, use, write, by rw [frame]⟩
  · obtain ⟨pages, kept, own⟩ := rearmDone_over asked on read
    have run : exec (.logRearmDone c) s = .next (rearmDone u c.val) :=
      congrArg (fun x => Host.Outcome.next (rearmDone x c.val)) made.symm
    have mgmt : (rearmDone u c.val).mgmt = s.mgmt := by
      rw [made]
      exact (execLogRearmDone_keep c s).1
    refine ⟨_, run, by rw [own], by rw [own], fun p member => ?_, mgmt⟩
    rw [own] at member
    exact kept p member

end Sys2Proof.Proofs.LogChannels

/-!
Supplies (R336 to R338, R340, R346), the governor (R356 to R362) and the reference clocks (R492).
-/

namespace Sys2Proof.Proofs.Supplies

open Sys2Proof Sys2Proof.Machine Sys2Proof.Laws Sys2Proof.Proofs.Shared Sys2Proof.Proofs.Aulum

/-! ### Samples of a supply (R336) -/

section Sample

variable {p : Supply} {good lost ovp clear mV : Nat} (mA : Nat)

theorem supplySample_good (above : good < mV) (notLost : lost ≤ mV) (below : mV ≤ ovp) (calm : p.ovp = false) (second : 1 ≤ p.nGood) :
    (supplySample p good lost ovp clear mV mA).good = true := by
  unfold supplySample
  simp [calm, above, Nat.not_lt.2 below, Nat.not_lt.2 notLost, second]

theorem supplySample_first (above : good < mV) (notYet : p.good = false) (none : p.nGood = 0) :
    (supplySample p good lost ovp clear mV mA).good = false := by
  unfold supplySample
  simp [above, notYet, none]

theorem supplySample_lost (below : mV < lost) (second : 1 ≤ p.nLost) : (supplySample p good lost ovp clear mV mA).good = false := by
  unfold supplySample
  simp [below, second]

theorem supplySample_over (above : ovp < mV) (second : 1 ≤ p.nOver) :
    (supplySample p good lost ovp clear mV mA).ovp = true ∧ (supplySample p good lost ovp clear mV mA).good = false := by
  unfold supplySample
  simp [above, second]

/-- A supply that was good stays so between its thresholds. -/
theorem supplySample_still (notLost : lost ≤ mV) (below : mV ≤ ovp) (calm : p.ovp = false) (was : p.good = true) :
    (supplySample p good lost ovp clear mV mA).good = true := by
  unfold supplySample
  simp [calm, Nat.not_lt.2 below, Nat.not_lt.2 notLost, was]

end Sample

/-- R357: the average of the power is the sampler's own. -/
theorem powerSample_frame (s : State) (vinMv vinMa vauxMv vauxMa : Nat) :
    ∃ n sum avg, powerSample s vinMv vinMa vauxMv vauxMa =
      { s with pow := { s.pow with powSamples := n, powSum := sum, powAvg := avg } } := by
  unfold powerSample
  dsimp only
  split
  · exact ⟨_, _, _, rfl⟩
  · exact ⟨_, _, _, rfl⟩

/-- The state once the samples have been taken. -/
def sampled (s : State) (vinMv vinMa vauxMv vauxMa resMv : Nat) : State :=
  powerSample
    { s with pow := { s.pow with
      vin12 := supplySample s.pow.vin12 10600 10400 14000 13500 vinMv vinMa
      vaux := supplySample s.pow.vaux 2650 2550 5800 5600 vauxMv vauxMa
      resMv := resMv
      vinQualified := s.pow.vinQualified && (supplySample s.pow.vin12 10600 10400 14000 13500 vinMv vinMa).good } }
    vinMv vinMa vauxMv vauxMa

theorem sampled_frame (s : State) (vinMv vinMa vauxMv vauxMa resMv : Nat) :
    ∃ pow, sampled s vinMv vinMa vauxMv vauxMa resMv = { s with pow := pow } ∧
      pow.vin12 = supplySample s.pow.vin12 10600 10400 14000 13500 vinMv vinMa ∧
      pow.vaux = supplySample s.pow.vaux 2650 2550 5800 5600 vauxMv vauxMa ∧ pow.resMv = resMv ∧ pow.vauxGood = s.pow.vauxGood ∧
      pow.vauxStage = s.pow.vauxStage ∧ pow.mainOn = s.pow.mainOn := by
  unfold sampled
  generalize supplySample s.pow.vin12 10600 10400 14000 13500 vinMv vinMa = vin
  generalize supplySample s.pow.vaux 2650 2550 5800 5600 vauxMv vauxMa = vaux
  obtain ⟨n, sum, avg, frame⟩ := powerSample_frame { s with pow := { s.pow with
    vin12 := vin, vaux := vaux, resMv := resMv, vinQualified := s.pow.vinQualified && vin.good } } vinMv vinMa vauxMv vauxMa
  rw [frame]
  exact ⟨_, rfl, rfl, rfl, rfl, rfl, rfl, rfl⟩

theorem exec_supplySample (s : State) (vinMv vinMa vauxMv vauxMa resMv : Nat) :
    exec (.supplySample vinMv vinMa vauxMv vauxMa resMv) s =
      (let u := sampled s vinMv vinMa vauxMv vauxMa resMv
       let vin := supplySample s.pow.vin12 10600 10400 14000 13500 vinMv vinMa
       let vaux := supplySample s.pow.vaux 2650 2550 5800 5600 vauxMv vauxMa
       if u.pow.vauxGood && !vaux.good then .next (vauxLoss u)
       else if vaux.good && decide (u.pow.vauxStage = .snapshotDone) then .next (vauxReturned u)
       else if u.pow.mainOn && !vin.good then .next (mainLoss u)
       else .next u) := rfl

/-! ### The loss of VIN12 (R337, R338) -/

theorem foldl_pow {α : Type} (f : State → α → State) (l : List α) (s : State) (h : ∀ t a, (f t a).pow = t.pow) :
    (l.foldl f s).pow = s.pow :=
  List.foldlRecOn _ _ (motive := fun t : State => t.pow = s.pow) rfl fun t ht a _ => (h t a).trans ht

theorem linksShowDown_pow (s : State) : (linksShowDown s).pow = s.pow := by
  unfold linksShowDown
  refine (foldl_pow _ _ _ fun t v => ?_).trans ((foldl_pow _ _ _ fun t a => ?_).trans (foldl_pow _ _ _ fun t p => ?_))
  · split <;> rfl
  · split <;> rfl
  · split <;> rfl

theorem closeSessions_pow (s : State) (p : Session → Bool) : (closeSessions s p).pow = s.pow := rfl

theorem mainDomainOff_pow {s : State} (on : s.pow.mainOn = true) : (mainDomainOff s).pow = { s.pow with mainOn := false } := by
  unfold mainDomainOff
  rw [if_pos on]
  dsimp only
  rw [closeSessions_pow, linksShowDown_pow]

theorem busError_pow (s : State) (m id addr : Nat) (e : BusErr) : (busError s m id addr e).pow = s.pow := by
  have counted : ∀ v, (odSet (bumpC s 0xC02B 1) 0x9004 1 v).pow = s.pow := fun v => (odSet_pow ..).trans rfl
  unfold busError
  dsimp only
  split
  · exact counted (m * 2 ^ 40 + e.code * 2 ^ 32 + addr)
  · exact counted (m * 2 ^ 40 + e.code * 2 ^ 32 + addr)

theorem apertureLost_pow (s : State) : (apertureLost s).pow = s.pow := by
  unfold apertureLost
  refine (foldl_pow _ _ _ fun t m => foldl_pow _ _ _ fun u x => ?_).trans rfl
  exact (busError_pow ..).trans rfl

theorem mainLoss_leaves {s : State} (on : s.pow.mainOn = true) :
    (mainLoss s).pow.mainOn = false ∧ (mainLoss s).pow.step = 3 ∧ (mainLoss s).pins.ready = false ∧
      (mainLoss s).pow.vauxGood = s.pow.vauxGood := by
  have off : ∀ c d, (apertureLost (mainDomainOff (bumpC (raiseFault s 439 c d) 0xC02A 7))).pow = { s.pow with mainOn := false } :=
    fun c d => by
      have pow : (bumpC (raiseFault s 439 c d) 0xC02A 7).pow = s.pow := by rw [raiseFault_frame]; rfl
      rw [apertureLost_pow, mainDomainOff_pow (by rw [pow]; exact on), pow]
  unfold mainLoss
  dsimp only
  rw [off]
  exact ⟨rfl, rfl, rfl, rfl⟩

/-! ### VAUX (R338, R340, R346) -/

theorem startupReached_frame (s : State) (n : Nat) :
    ∃ times flt, startupReached s n = { s with pow := { s.pow with step := n, stepTimes := times }, flt := flt } := by
  unfold startupReached logInfo
  obtain ⟨flt, frame⟩ := logAppend_frame { s with pow := { s.pow with step := n, stepTimes := tabSet 0 n s.time.devTime s.pow.stepTimes } }
    0xFFFF 0x0020 0 false 0 (BitVec.ofNat 192 n)
  exact ⟨_, flt, frame⟩

theorem logAppend_first {s : State} (open' : s.flt.frozen = false) (empty : s.flt.log = []) (source code severity : Nat) (rail : Bool)
    (syndrome : BitVec 64) (data : BitVec 192) : (logAppend s source code severity rail syndrome data).flt.log.length = 1 := by
  unfold logAppend
  rw [if_neg (by rw [open']; decide)]
  simp [empty]

theorem startupReached_log {s : State} (open' : s.flt.frozen = false) (empty : s.flt.log = []) (n : Nat) :
    (startupReached s n).flt.log.length = 1 :=
  logAppend_first (s := { s with pow := { s.pow with step := n, stepTimes := tabSet 0 n s.time.devTime s.pow.stepTimes } }) open' empty ..

/-- R346: the crash snapshot, with what the reservoir's energy decides. -/
def snapshotted (s : State) : State :=
  odSet { s with
    flt := { s.flt with
      frozen := true
      crash := if holdupPasses s 262144 then s.flt.log.drop (s.flt.log.length - 4096) else s.flt.crash }
    pow := { s.pow with vauxStage := .snapshotDone } } 0x8030 4 (if holdupPasses s 262144 then 1 else 2)

theorem execCrashSnapshot_eq {s : State} (stage : s.pow.vauxStage = .onReservoir) (idle : s.spr.commit = none)
    (gone : s.pow.vaux.good = false) : execCrashSnapshot s = .next (snapshotted s) := by
  unfold execCrashSnapshot
  rw [if_pos (by rw [stage, idle]; rfl)]
  exact if_neg (by show ¬ s.pow.vaux.good = true; rw [gone]; decide)

/-- R346: the state of the crash snapshot outlives the auxiliary domain. -/
theorem odGet_auxiliaryOff (s : State) : odGet (auxiliaryOff s) 0x8030 4 = odGet s 0x8030 4 := by
  have dflt : dictDefault 0x8030 4 = 0 := by decide +kernel
  have shown : ∀ v, odGet (odSet State.reset 0x8030 4 v) 0x8030 4 = v := fun v => odGet_odSet_same ..
  have own := shown (odGet s 0x8030 4)
  unfold odSet at own
  rw [dflt] at own
  exact own

/-! ### An epoch of the governor (R356 to R359) -/

/-- What the classes are granted, before deficits: a minimum, and more up to the ceiling. -/
theorem grantRest_le (rest : Nat) (cls : List (Nat × Nat × Nat)) :
    (grantRest rest cls).length = cls.length ∧
      ∀ k, (grantRest rest cls).getD k 0 ≤ max (cls.getD k (0, 0, 0)).1 (cls.getD k (0, 0, 0)).2.2 := by
  induction cls generalizing rest with
  | nil => exact ⟨rfl, fun _ => Nat.zero_le _⟩
  | cons c t ih =>
    obtain ⟨mn, demand, ceil⟩ := c
    obtain ⟨length, le⟩ := ih (rest - min rest (min demand ceil - mn))
    refine ⟨congrArg (· + 1) length, fun k => ?_⟩
    cases k with
    | zero =>
      show mn + min rest (min demand ceil - mn) ≤ max mn ceil
      omega
    | succ k => exact le k

theorem payDeficits_le (gs ds : List Nat) :
    ((payDeficits gs ds).map Prod.fst).length = gs.length ∧ ∀ k, ((payDeficits gs ds).map Prod.fst).getD k 0 ≤ gs.getD k 0 := by
  induction gs generalizing ds with
  | nil => exact ⟨rfl, fun _ => Nat.zero_le _⟩
  | cons g gs ih =>
    cases ds with
    | nil =>
      obtain ⟨length, le⟩ := ih []
      refine ⟨congrArg (· + 1) length, fun k => ?_⟩
      cases k with
      | zero => exact Nat.le_refl g
      | succ k => exact le k
    | cons d ds =>
      obtain ⟨length, le⟩ := ih ds
      refine ⟨congrArg (· + 1) length, fun k => ?_⟩
      cases k with
      | zero => exact Nat.sub_le g d
      | succ k => exact le k

/-- The power classes as an epoch finds them: minimum, demand and ceiling. -/
def classes (s : State) (demand : List Nat) : List (Nat × Nat × Nat) :=
  (List.range 4).map fun k => (odGet s 0x8102 (k + 1), demand.getD k 0, odGet s 0x8103 (k + 1))

/-- R364: in the safe state the last class alone is granted anything. -/
def servedClasses (s : State) (demand : List Nat) : List (Nat × Nat × Nat) :=
  if s.flt.safe then (classes s demand).zipIdx.map (fun p => if p.2 = 3 then p.1 else (0, 0, 0)) else classes s demand

theorem servedClasses_le (s : State) (demand : List Nat) :
    (servedClasses s demand).length = 4 ∧
      ∀ k < 4, max ((servedClasses s demand).getD k (0, 0, 0)).1 ((servedClasses s demand).getD k (0, 0, 0)).2.2 ≤
        max (odGet s 0x8102 (k + 1)) (odGet s 0x8103 (k + 1)) := by
  unfold servedClasses classes
  split
  · refine ⟨by simp, fun k small => ?_⟩
    interval_cases k <;> simp [List.range_succ]
  · refine ⟨by simp, fun k small => ?_⟩
    interval_cases k <;> simp [List.range_succ]

/-- R356, R358: what an epoch leaves. -/
theorem governorEpoch_leaves (s : State) (w : Nat) (d : List Nat) :
    ∃ gov perf, governorEpoch s w d = { s with mov := { s.mov with shares := [] }, pow := { s.pow with gov := gov }, perf := perf } ∧
      gov.drawn = [0, 0, 0, 0] ∧ gov.power = w ∧ gov.epochs = some (s.pow.gov.epochs.getD 0 + 1) ∧ gov.grants.length = 4 ∧
      ∀ k < 4, gov.grants.getD k 0 ≤ max (odGet s 0x8102 (k + 1)) (odGet s 0x8103 (k + 1)) := by
  have granted : ∀ b only, ((payDeficits (grants b only (servedClasses s d)) s.pow.gov.deficit).map Prod.fst).length = 4 ∧
      ∀ k < 4, ((payDeficits (grants b only (servedClasses s d)) s.pow.gov.deficit).map Prod.fst).getD k 0 ≤
        max (odGet s 0x8102 (k + 1)) (odGet s 0x8103 (k + 1)) := fun b only => by
    obtain ⟨length, paid⟩ := payDeficits_le (grants b only (servedClasses s d)) s.pow.gov.deficit
    obtain ⟨four, ceiling⟩ := servedClasses_le s d
    unfold grants at *
    obtain ⟨same, le⟩ := grantRest_le (if only then 0 else b - (List.map (fun c => c.1) (servedClasses s d)).foldl (· + ·) 0) (servedClasses s d)
    exact ⟨length.trans (same.trans four), fun k small => (paid k).trans ((le k).trans (ceiling k small))⟩
  unfold governorEpoch
  extract_lets g spent n first fc pfc f b cls minima limited onlyMinima cls' paid aboveMin ovp mov pow s1
  obtain ⟨length, le⟩ := granted b onlyMinima
  split
  · exact ⟨_, _, rfl, rfl, rfl, rfl, length, le⟩
  · exact ⟨_, _, rfl, rfl, rfl, rfl, length, le⟩

/-- R360: what a hot sensor starts; no sensor has become hotter without a reading. -/
theorem overTemperature_same (s : State) :
    ∃ od gov, overTemperature s s = { s with od := od, pow := { s.pow with gov := gov } } ∧ gov.epochs = s.pow.gov.epochs ∧
      ∀ i j, i ≠ 0x8113 → j < 256 → odGet (overTemperature s s) i j = odGet s i j := by
  unfold overTemperature
  extract_lets hot pow gov s1
  have calm : (List.range 64).foldl (fun t n => if (115 : Int) ≤ sensorTemp t n ∧ sensorTemp s n < 115 then raiseFault t (363 + n) 0 0 else t) s1 =
      s1 := by
    have same : sensorTemp s1 = sensorTemp s := by
      unfold s1
      split
      · rfl
      · rfl
    generalize List.range 64 = l
    refine List.foldlRecOn l _ (motive := fun t : State => t = s1) rfl fun t ht n _ => ?_
    rw [ht, same]
    exact if_neg (by omega)
  rw [calm]
  unfold s1
  split
  · exact ⟨_, _, rfl, rfl, fun i j other small => odGet_odSet_index _ 0x8113 1 1 other (by decide) small⟩
  · exact ⟨_, _, rfl, rfl, fun _ _ _ _ => rfl⟩

/-! ### Widths of ports (R361, R362) -/

/-- What a change of the width of port `p` touches, and leaves of the other entries. -/
structure Narrowed (s t : State) (p w : Nat) (narrowed : List Nat) : Prop where
  list : t.port.narrowed = narrowed
  width : odGet t (0x2100 + p) 0x16 = w
  others : ∀ i j, i ≠ 0x2100 + p ∨ j ≠ 0x16 → j < 256 → odGet t i j = odGet s i j
  touched : ∃ od perf, t = { s with od := od, perf := perf, port := { s.port with narrowed := narrowed } }

theorem putWidth_narrowed (s : State) (p w : Nat) (narrowed : List Nat) :
    Narrowed s (putWidth { s with port := { s.port with narrowed := narrowed } } p w) p w narrowed := by
  unfold putWidth
  split
  · next same => exact ⟨rfl, same, fun _ _ _ _ => rfl, _, _, rfl⟩
  · refine ⟨rfl, odGet_odSet_same { s with port := { s.port with narrowed := narrowed } } (0x2100 + p) 0x16 w, fun i j other small => ?_,
      _, _, rfl⟩
    exact odGet_odSet_ne { s with port := { s.port with narrowed := narrowed } } w other (by decide) small

/-- One step of a thermal narrowing. -/
def narrow (t : State) (p : Nat) : State :=
  bumpC (setL0pWidth t p (max (odGet t (0x2100 + p) 7) (odGet t (0x2100 + p) 0x16 / 2))) 0xC02A 6

theorem narrow_narrowed (s : State) (p : Nat) :
    Narrowed s (narrow s p) p (max (odGet s (0x2100 + p) 7) (odGet s (0x2100 + p) 0x16 / 2)) (setInsert p s.port.narrowed) := by
  obtain ⟨list, width, others, od, perf, frame⟩ :=
    putWidth_narrowed s p (max (odGet s (0x2100 + p) 7) (odGet s (0x2100 + p) 0x16 / 2)) (setInsert p s.port.narrowed)
  refine ⟨list, width, others, ?_⟩
  unfold narrow setL0pWidth
  rw [frame]
  exact ⟨_, _, rfl⟩

/-- R361: a list of ports without repetitions is narrowed, each once. -/
theorem foldl_narrow (l : List Nat) (nodup : l.Nodup) (s : State) :
    (∃ od perf narrowed, l.foldl narrow s = { s with od := od, perf := perf, port := { s.port with narrowed := narrowed } }) ∧
    (∀ p ∈ l, p ∈ (l.foldl narrow s).port.narrowed ∧
      odGet (l.foldl narrow s) (0x2100 + p) 0x16 = max (odGet s (0x2100 + p) 7) (odGet s (0x2100 + p) 0x16 / 2)) ∧
    (∀ p ∈ s.port.narrowed, p ∈ (l.foldl narrow s).port.narrowed) ∧
    ∀ p ∉ l, ∀ j < 256, odGet (l.foldl narrow s) (0x2100 + p) j = odGet s (0x2100 + p) j := by
  induction l generalizing s with
  | nil => exact ⟨⟨_, _, _, rfl⟩, fun _ h => absurd h List.not_mem_nil, fun _ h => h, fun _ _ _ _ => rfl⟩
  | cons q l ih =>
    obtain ⟨fresh, nodup⟩ := List.nodup_cons.1 nodup
    obtain ⟨list, width, others, od, perf, frame⟩ := narrow_narrowed s q
    obtain ⟨⟨od', perf', narrowed', frame'⟩, each, kept, rest⟩ := ih nodup (narrow s q)
    have apart : ∀ p ≠ q, ∀ j < 256, odGet (narrow s q) (0x2100 + p) j = odGet s (0x2100 + p) j :=
      fun p other j small => others _ j (.inl (by omega)) small
    rw [List.foldl_cons]
    refine ⟨⟨od', perf', narrowed', ?_⟩, fun p member => ?_, fun p member => kept p ?_, fun p absent j small => ?_⟩
    · rw [frame', frame]
    · rcases List.mem_cons.1 member with rfl | later
      · exact ⟨kept p (by rw [list]; exact (mem_setInsert ..).2 (.inl rfl)), (rest p fresh 0x16 (by decide)).trans width⟩
      · obtain ⟨shown, narrower⟩ := each p later
        have other : p ≠ q := fun same => fresh (same ▸ later)
        exact ⟨shown, by rw [narrower, apart p other 7 (by decide), apart p other 0x16 (by decide)]⟩
    · rw [list]
      exact (mem_setInsert ..).2 (.inr member)
    · obtain ⟨other, absent⟩ : p ≠ q ∧ p ∉ l := by simpa using absent
      rw [rest p absent j small, apart p other j small]

theorem restoreWidth_leaves (s : State) (p : Nat) :
    (∃ od perf, restoreWidth s p =
      { s with od := od, perf := perf, port := { s.port with narrowed := setRemove p s.port.narrowed } }) ∧
    ∀ i j, j ≠ 0x16 → j < 256 → odGet (restoreWidth s p) i j = odGet s i j := by
  unfold restoreWidth
  split
  · obtain ⟨-, -, others, touched⟩ := putWidth_narrowed s p (odGet s (portIdx p) 0x11) (setRemove p s.port.narrowed)
    exact ⟨touched, fun i j other small => others i j (.inr other) small⟩
  · next absent =>
    refine ⟨⟨s.od, s.perf, ?_⟩, fun _ _ _ _ => rfl⟩
    rw [show setRemove p s.port.narrowed = s.port.narrowed from List.filter_eq_self.2 fun m member => ?_]
    refine decide_eq_true fun same => absent ?_
    rw [← same]
    exact List.elem_eq_true_of_mem member

/-- R362: every port of a list has its width again. -/
theorem foldl_restoreWidth (l : List Nat) (s : State) :
    (∃ od perf narrowed, l.foldl restoreWidth s = { s with od := od, perf := perf, port := { s.port with narrowed := narrowed } } ∧
      (∀ p ∈ narrowed, p ∈ s.port.narrowed) ∧ ∀ p ∈ l, p ∉ narrowed) ∧
    ∀ i j, j ≠ 0x16 → j < 256 → odGet (l.foldl restoreWidth s) i j = odGet s i j := by
  induction l generalizing s with
  | nil => exact ⟨⟨_, _, _, rfl, fun _ h => h, fun _ h => absurd h List.not_mem_nil⟩, fun _ _ _ _ => rfl⟩
  | cons q l ih =>
    obtain ⟨⟨od, perf, frame⟩, same⟩ := restoreWidth_leaves s q
    obtain ⟨⟨od', perf', narrowed, frame', fewer, gone⟩, same'⟩ := ih (restoreWidth s q)
    have removed : ∀ p ∈ narrowed, p ∈ s.port.narrowed ∧ p ≠ q := fun p member => by
      have was := fewer p member
      rw [frame] at was
      exact (mem_setRemove ..).1 was
    rw [List.foldl_cons]
    refine ⟨⟨od', perf', narrowed, by rw [frame', frame], fun p member => (removed p member).1, fun p member => ?_⟩,
      fun i j other small => (same' i j other small).trans (same i j other small)⟩
    rcases List.mem_cons.1 member with rfl | later
    · exact fun held => (removed p held).2 rfl
    · exact gone p later

/-! ### Reference clocks (R492) -/

/-- A reference that is stable lets ports train: their link states and their waits change. -/
theorem trainPort_leaves (s : State) (p : Nat) :
    (∃ od port, trainPort s p = { s with od := od, port := port }) ∧
      ∀ i j, i ≠ 0x2100 + p → j < 256 → odGet (trainPort s p) i j = odGet s i j := by
  unfold trainPort
  split
  · exact ⟨⟨_, _, rfl⟩, fun _ _ _ _ => rfl⟩
  · split
    · split
      · exact ⟨⟨_, _, rfl⟩, fun _ _ _ _ => rfl⟩
      · exact ⟨⟨_, _, rfl⟩, fun _ _ _ _ => rfl⟩
    · split
      · exact ⟨⟨_, _, rfl⟩, fun i j other small => odGet_odSet_index s _ _ _ other (by decide) small⟩
      · exact ⟨⟨_, _, rfl⟩, fun _ _ _ _ => rfl⟩

theorem refclkStable_leaves (s : State) (k : Nat) :
    (∃ od port, refclkStable s k = { s with od := od, port := port }) ∧
      ∀ i j, 0x2100 + 6 * k + 6 ≤ i → j < 256 → odGet (refclkStable s k) i j = odGet s i j := by
  refine List.foldlRecOn _ _ (motive := fun t : State => (∃ od port, t = { s with od := od, port := port }) ∧
    ∀ i j, 0x2100 + 6 * k + 6 ≤ i → j < 256 → odGet t i j = odGet s i j) ⟨⟨_, _, rfl⟩, fun _ _ _ _ => rfl⟩ ?_
  rintro t ⟨⟨od, port, frame⟩, same⟩ n member
  have below : n < 6 := List.mem_range.1 member
  split
  · obtain ⟨⟨od', port', frame'⟩, same'⟩ := trainPort_leaves t (6 * k + n)
    exact ⟨⟨od', port', by rw [frame', frame]⟩, fun i j other small => (same' i j (by omega) small).trans (same i j other small)⟩
  · exact ⟨⟨od, port, frame⟩, same⟩

theorem linkState_aulumDown (s : State) {a b : Nat} (apart : b ≠ a) : linkState (aulumDown s a) b = linkState s b :=
  (odGet_notify ..).trans (odGet_odSet_index (setAulPort s a _) (aulIdx a) 0x10 _ (by unfold aulIdx; omega) (by decide) (by decide))

/-- A link that loses its reference is not UP, and no other link comes UP. -/
theorem aulumLinkLost_leaves (s : State) (a : Nat) :
    (∃ od spr perf aul, aulumLinkLost s a = { s with od := od, spr := spr, perf := perf, aul := aul }) ∧
      linkState (aulumLinkLost s a) a ≠ linkUp ∧ (∀ b, linkState s b ≠ linkUp → linkState (aulumLinkLost s a) b ≠ linkUp) ∧
      ∀ i j, j ≠ 0x10 → j < 256 → odGet (aulumLinkLost s a) i j = odGet s i j := by
  unfold aulumLinkLost
  split
  · have down : linkState (aulumDown s a) a ≠ linkUp := by
      rw [aulumDown_eq, linkState_setLink]
      decide
    refine ⟨?_, down, fun b was => ?_, fun i j other small => ?_⟩
    · rw [aulumDown_eq]
      obtain ⟨_, _, _, linked⟩ := setLink_frame (setAulPort s a (downPort (aulPort s a))) a linkDown
      obtain ⟨_, set⟩ := setAulPort_frame s a (downPort (aulPort s a))
      rw [linked, set]
      exact ⟨_, _, _, _, rfl⟩
    · by_cases same : b = a
      · rw [same]
        exact down
      · rw [linkState_aulumDown s same]
        exact was
    · rw [aulumDown_eq, odGet_setLink _ _ _ _ other small]
      rfl
  · next quiet => exact ⟨⟨_, _, _, _, rfl⟩, fun up => quiet (.inl up), fun _ was => was, fun _ _ _ _ => rfl⟩

theorem foldl_aulumLinkLost (g : Nat → Nat) (l : List Nat) (s : State) :
    (∃ od spr perf aul, l.foldl (fun t i => aulumLinkLost t (g i)) s = { s with od := od, spr := spr, perf := perf, aul := aul }) ∧
      (∀ i ∈ l, linkState (l.foldl (fun t i => aulumLinkLost t (g i)) s) (g i) ≠ linkUp) ∧
      (∀ b, linkState s b ≠ linkUp → linkState (l.foldl (fun t i => aulumLinkLost t (g i)) s) b ≠ linkUp) ∧
      ∀ i j, j ≠ 0x10 → j < 256 → odGet (l.foldl (fun t i => aulumLinkLost t (g i)) s) i j = odGet s i j := by
  induction l generalizing s with
  | nil => exact ⟨⟨_, _, _, _, rfl⟩, fun _ h => absurd h List.not_mem_nil, fun _ h => h, fun _ _ _ _ => rfl⟩
  | cons q l ih =>
    obtain ⟨⟨_, _, _, _, frame⟩, lost, still, same⟩ := aulumLinkLost_leaves s (g q)
    obtain ⟨⟨_, _, _, _, frame'⟩, all, still', same'⟩ := ih (aulumLinkLost s (g q))
    rw [List.foldl_cons]
    refine ⟨⟨_, _, _, _, by rw [frame', frame]⟩, fun i member => ?_, fun b was => still' b (still b was),
      fun i j other small => (same' i j other small).trans (same i j other small)⟩
    rcases List.mem_cons.1 member with rfl | later
    · exact still' _ lost
    · exact all i later

/-! ### The obligation -/

theorem execThermalNarrowing_none {s : State} (hot : s.pow.gov.thermal = true) (quiet : s.pow.gov.alerted = false)
    (none : ∀ p : Nat, p < 96 → narrowable s p = false) :
    ∃ d, execThermalNarrowing s = .next (raiseFault { s with pow := { s.pow with gov := { s.pow.gov with alerted := true } } } 443 0 d) := by
  have empty : (List.range 96).filter (narrowable s) = [] :=
    List.filter_eq_nil_iff.2 fun p member => by rw [none p (List.mem_range.1 member)]; decide
  unfold execThermalNarrowing
  rw [if_pos hot]
  dsimp only
  rw [empty, if_pos (show ([] : List Nat).isEmpty = true from rfl), if_neg (by rw [quiet]; decide)]
  exact ⟨_, rfl⟩

theorem execThermalNarrowing_some {s : State} {p : Nat} (hot : s.pow.gov.thermal = true) (small : p < 96) (wide : narrowable s p = true) :
    execThermalNarrowing s = .next (((List.range 96).filter (narrowable s)).foldl narrow s) := by
  have member : p ∈ (List.range 96).filter (narrowable s) := List.mem_filter.2 ⟨List.mem_range.2 small, wide⟩
  unfold execThermalNarrowing
  rw [if_pos hot]
  refine if_neg fun empty => ?_
  rw [List.isEmpty_iff.1 empty] at member
  exact List.not_mem_nil member

theorem execThermalResponseEnd_cool {s : State} (hot : s.pow.gov.thermal = true)
    (cool : ∀ n : Nat, n < 64 → sensorUsed s n < (odGet s 0x8111 (n + 1) : Int) - 5) :
    execThermalResponseEnd s = .next ((List.range 96).foldl restoreWidth
      (odSet { s with pow := { s.pow with gov := { s.pow.gov with thermal := false, alerted := false } } } 0x8113 1 0)) := by
  refine if_pos ?_
  rw [hot, Bool.true_and, List.all_eq_true]
  exact fun n member => decide_eq_true (cool n (List.mem_range.1 member))

/-- Settles O43: samples, the two losses, the epoch's arithmetic, and the folds over ports and links, each by its own lemma. -/
theorem suppliesAndClocks : Obligations.SuppliesAndClocks := by
  unfold Obligations.SuppliesAndClocks
  refine ⟨?samples, ?loss, ?vaux, ?vin, ?snapshot, ?off, ?epoch, ?alert, ?narrows, ?cool, ?cap, ?stable, ?lost, ?aulum⟩
  case samples =>
    intro vinMv vinMa vauxMv vauxMa resMv s down none main
    obtain ⟨pow, frame, vin, vaux, res, good, stage, on⟩ := sampled_frame s vinMv vinMa vauxMv vauxMa resMv
    have run := exec_supplySample s vinMv vinMa vauxMv vauxMa resMv
    rw [frame] at run
    dsimp only at run
    rw [if_neg (by rw [good, down]; simp), if_neg (by rw [stage, none]; simp), if_neg (by rw [on, main]; simp)] at run
    refine ⟨_, run, ?_, res, fun above below calm second => ?_, fun above bad fresh => ?_, fun below second => ?_,
      fun above second => ?_, fun above below calm second => ?_, rfl⟩
    · exact congrArg Supply.mV vin
    · rw [vin]
      exact supplySample_good _ above (by omega) below calm second
    · rw [vin]
      exact supplySample_first _ above bad fresh
    · rw [vin]
      exact supplySample_lost _ below second
    · rw [vin]
      exact supplySample_over _ above second
    · rw [vaux]
      exact supplySample_good _ above (by omega) below calm second
  case loss =>
    intro vinMv vinMa vauxMv vauxMa resMv s up none main vauxGood calm above below lost second
    obtain ⟨pow, frame, -, -, -, good, stage, on⟩ := sampled_frame s vinMv vinMa vauxMv vauxMa resMv
    have still : (supplySample s.pow.vaux 2650 2550 5800 5600 vauxMv vauxMa).good = true :=
      supplySample_still _ (by omega) (by omega) calm vauxGood
    have gone : (supplySample s.pow.vin12 10600 10400 14000 13500 vinMv vinMa).good = false := supplySample_lost _ lost second
    have run := exec_supplySample s vinMv vinMa vauxMv vauxMa resMv
    rw [frame] at run
    dsimp only at run
    rw [if_neg (by rw [still]; simp), if_neg (by rw [stage, none]; simp), if_pos (by rw [on, main, gone]; rfl)] at run
    obtain ⟨off, step, ready, vaux⟩ := mainLoss_leaves (s := { s with pow := pow }) (on.trans main)
    exact ⟨_, run, off, step, ready, vaux.trans (good.trans up)⟩
  case vaux =>
    intro s good down none
    have run : exec .vauxPowerGood s = .next (startupReached { s with
        pow := { s.pow with vauxGood := true }, perf := perfReset, flt := { s.flt with log := [], nextSeq := 0, frozen := false } } 1) :=
      if_pos (by rw [good, down, none]; rfl)
    obtain ⟨times, flt, frame⟩ := startupReached_frame { s with
      pow := { s.pow with vauxGood := true }, perf := perfReset, flt := { s.flt with log := [], nextSeq := 0, frozen := false } } 1
    have log := startupReached_log (s := { s with
      pow := { s.pow with vauxGood := true }, perf := perfReset, flt := { s.flt with log := [], nextSeq := 0, frozen := false } }) rfl rfl 1
    rw [frame] at run log
    exact ⟨_, run, rfl, rfl, rfl, log, rfl⟩
  case vin =>
    intro s good
    exact if_pos good
  case snapshot =>
    intro s stage idle gone
    refine ⟨_, execCrashSnapshot_eq stage idle gone, rfl, rfl, fun passes => ?_, fun fails => ?_, rfl⟩
    · unfold snapshotted
      rw [if_pos passes, if_pos passes]
      exact ⟨odGet_odSet_same .., by rw [odSet_flt]⟩
    · unfold snapshotted
      rw [if_neg (by rw [fails]; decide), if_neg (by rw [fails]; decide)]
      exact ⟨odGet_odSet_same .., by rw [odSet_flt]⟩
  case off =>
    intro s gone stage
    have run : exec .auxiliaryDomainOff s = .next (auxiliaryOff s) := by
      refine if_pos ?_
      rcases stage with done | ⟨reservoir, low⟩
      · simp [gone, done]
      · simp [gone, reservoir, low]
    refine ⟨_, run, rfl, rfl, rfl, rfl, rfl, rfl, rfl, rfl, rfl, rfl, rfl, ?_⟩
    exact odGet_auxiliaryOff s
  case epoch =>
    intro w d s on
    obtain ⟨od, gov, over', epochs, same⟩ := overTemperature_same s
    obtain ⟨gov', perf, frame, drawn, power, counted, length, le⟩ := governorEpoch_leaves (overTemperature s s) w d
    have run : exec (.governorEpoch w [] d) s = .next (governorEpoch (overTemperature s s) w d) := if_pos on
    have ceiling : ∀ k < 4, gov'.grants.getD k 0 ≤ max (odGet s 0x8102 (k + 1)) (odGet s 0x8103 (k + 1)) := fun k small => by
      rw [← same 0x8102 (k + 1) (by decide) (by omega), ← same 0x8103 (k + 1) (by decide) (by omega)]
      exact le k small
    rw [frame] at run
    rw [over'] at run counted
    refine ⟨_, run, drawn, power, ?_, length, ceiling, rfl⟩
    rw [← epochs]
    exact counted
  case alert =>
    intro s hot quiet none
    obtain ⟨d, run⟩ := execThermalNarrowing_none hot quiet none
    refine ⟨_, run, ?_, raiseReport_some .., ?_⟩
    · rw [raiseFault_frame]
    · rw [raiseFault_frame]
  case narrows =>
    intro p s hot wide
    obtain ⟨⟨od, perf, narrowed, frame⟩, each, -, -⟩ :=
      foldl_narrow ((List.range 96).filter (narrowable s)) (List.nodup_range.filter _) s
    obtain ⟨member, width⟩ := each p.val (List.mem_filter.2 ⟨List.mem_range.2 p.isLt, wide⟩)
    exact ⟨_, execThermalNarrowing_some hot p.isLt wide, member, width, by rw [frame]⟩
  case cool =>
    intro s hot cool
    obtain ⟨⟨od, perf, narrowed, frame, -, gone⟩, same⟩ := foldl_restoreWidth (List.range 96)
      (odSet { s with pow := { s.pow with gov := { s.pow.gov with thermal := false, alerted := false } } } 0x8113 1 0)
    refine ⟨_, execThermalResponseEnd_cool hot cool, ?_, ?_, fun p small => ?_, ?_⟩
    · rw [frame]
      rfl
    · rw [same 0x8113 1 (by decide) (by decide)]
      exact odGet_odSet_same ..
    · rw [frame]
      exact gone p (List.mem_range.2 small)
    · rw [frame]
      rfl
  case cap =>
    intro s full
    exact ⟨_, if_pos full, raiseReport_some .., raiseFault_frame ..⟩
  case stable =>
    intro r s good
    have run : exec (.refclkStable r) s = if r.val < 16 then .next (refclkStable (odSet s 0x8041 (r.val + 1) 1) r.val)
        else if r.val < 20 then .next (odSet s 0x8042 (r.val - 15) 1) else .next (odSet s 0x8043 1 1) := if_pos good
    by_cases port : r.val < 16
    · obtain ⟨⟨od, ports, frame⟩, same⟩ := refclkStable_leaves (odSet s 0x8041 (r.val + 1) 1) r.val
      rw [if_pos port] at run
      refine ⟨_, run, ?_, by rw [frame]; rfl⟩
      rw [if_pos port, if_pos port, same _ _ (by omega) (by omega)]
      exact odGet_odSet_same ..
    · rw [if_neg port] at run
      rw [if_neg port, if_neg port]
      by_cases link : r.val < 20
      · rw [if_pos link] at run
        rw [if_pos link, if_pos link]
        exact ⟨_, run, odGet_odSet_same .., rfl⟩
      · rw [if_neg link] at run
        rw [if_neg link, if_neg link]
        exact ⟨_, run, odGet_odSet_same .., rfl⟩
  case lost =>
    intro r s port
    exact ⟨_, if_pos port, odGet_odSet_same .., rfl⟩
  case aulum =>
    intro r s other
    have run : exec (.refclkLost r) s =
        if r.val < 20 then .next ((List.range 4).foldl (fun t i => aulumLinkLost t (4 * (r.val - 16) + i)) (odSet s 0x8042 (r.val - 15) 0))
        else .next (odSet s 0x8043 1 0) := if_neg (by omega)
    by_cases link : r.val < 20
    · obtain ⟨⟨_, _, _, _, frame⟩, lost, -, same⟩ :=
        foldl_aulumLinkLost (fun i => 4 * (r.val - 16) + i) (List.range 4) (odSet s 0x8042 (r.val - 15) 0)
      rw [if_pos link] at run
      refine ⟨_, run, fun _ => ⟨?_, fun i small => lost i (List.mem_range.2 small)⟩, fun last => by omega, by rw [frame]; rfl⟩
      rw [same _ _ (by omega) (by omega)]
      exact odGet_odSet_same ..
    · rw [if_neg link] at run
      exact ⟨_, run, fun below => absurd below link, fun _ => odGet_odSet_same .., rfl⟩

end Sys2Proof.Proofs.Supplies

/-!
Slot channels (R347 to R354): what ticks, timers and commands make of a channel's own record. What the change does to its port is
`slotPower`, which the statements leave as it is.
-/

namespace Sys2Proof.Proofs.SlotChannels

open Sys2Proof Sys2Proof.Machine Sys2Proof.Laws Sys2Proof.Proofs.Shared

@[simp] theorem slotCh_setSlot_same (s : State) (c : Nat) (x : SlotCh) : slotCh (setSlot s c x) c = x := tabGet_set_same ..

theorem slotCh_setSlot_other (s : State) {c d : Nat} (apart : d ≠ c) (x : SlotCh) : slotCh (setSlot s c x) d = slotCh s d :=
  tabGet_set_other apart ..

/-! ### A channel that is written, or that trips -/

/-- What a write of channel `c` alone leaves. -/
structure Put (s t : State) (c : Nat) (x : SlotCh) : Prop where
  own : slotCh t c = x
  others : ∀ d, d ≠ c → slotCh t d = slotCh s d
  touched : ∃ slots, t = { s with pow := { s.pow with slots := slots } }

theorem put_setSlot (s : State) (c : Nat) (x : SlotCh) : Put s (setSlot s c x) c x :=
  ⟨slotCh_setSlot_same .., fun _ apart => slotCh_setSlot_other s apart x, _, rfl⟩

/-- What a write of channel `c` leaves that is counted in `n` and reported by the channel's fault source. -/
structure Failed (s t : State) (c n : Nat) (x : SlotCh) : Prop where
  own : slotCh t c = x
  others : ∀ d, d ≠ c → slotCh t d = slotCh s d
  counted : counter t (counterNo 0xC02A n) = counter s (counterNo 0xC02A n) + 1
  reported : (tabFind? (160 + c) t.flt.pairs).isSome = true
  touched : ∃ flt slots perf, t = { s with flt := flt, pow := { s.pow with slots := slots }, perf := perf }

theorem failed_report (s : State) (c n cause : Nat) (x : SlotCh) :
    Failed s (raiseFault (bumpC (setSlot s c x) 0xC02A n) (160 + c) cause 0) c n x := by
  have reported := raiseReport_some (bumpC (setSlot s c x) 0xC02A n) (160 + c)
    { injected := false, rail := false, cause := BitVec.ofNat 8 cause, detail := BitVec.ofNat 48 0, data := 0 }
  refine ⟨?_, fun d apart => ?_, ?_, reported, ?_⟩
  · rw [raiseFault_frame]
    exact slotCh_setSlot_same s c x
  · rw [raiseFault_frame]
    exact slotCh_setSlot_other s apart x
  · rw [raiseFault_frame]
    exact counter_bump_same (setSlot s c x) (counterNo 0xC02A n) 1
  · rw [raiseFault_frame]
    exact ⟨_, _, _, rfl⟩

theorem failed_trip (s : State) (c cause : Nat) (x : SlotCh) : Failed s (slotTrip s c cause x) c 2 (x.trip cause) := failed_report ..

/-! ### Ticks (R347, R348, R350) -/

/-- What a tick of channel `c` may touch. -/
structure Own (s t : State) (c : Nat) : Prop where
  others : ∀ d, d ≠ c → slotCh t d = slotCh s d
  touched : ∃ flt slots perf, t = { s with flt := flt, pow := { s.pow with slots := slots }, perf := perf }

theorem own_setSlot (s : State) (c : Nat) (x : SlotCh) : Own s (setSlot s c x) c :=
  ⟨fun _ apart => slotCh_setSlot_other s apart x, _, _, _, rfl⟩

theorem own_counted (s : State) (c : Nat) (x : SlotCh) (i j : Nat) : Own s (bumpC (setSlot s c x) i j) c :=
  ⟨fun _ apart => slotCh_setSlot_other s apart x, _, _, _, rfl⟩

theorem own_trip (s : State) (c cause : Nat) (x : SlotCh) : Own s (slotTrip s c cause x) c :=
  ⟨(failed_trip s c cause x).others, (failed_trip s c cause x).touched⟩

theorem slotDriveTick_own (s : State) (c : Nat) (x : SlotCh) (m : SlotSample) : Own s (slotDriveTick s c x m) c := by
  unfold slotDriveTick
  extract_lets lim ovp low x1 removed outside ended x2 r s1
  split
  · exact own_trip ..
  split
  · exact own_trip ..
  split
  · exact own_trip ..
  split
  · exact own_setSlot ..
  split
  · exact own_setSlot ..
  split
  · exact own_setSlot ..
  split
  · split <;> exact own_setSlot ..
  · split
    · exact own_setSlot ..
    · split
      · exact own_counted ..
      · exact own_setSlot ..
  · split <;> exact own_setSlot ..
  · exact own_setSlot ..

theorem slotTick_own (s : State) (c : Nat) (m : SlotSample) : Own s (slotTick s c m) c := by
  unfold slotTick
  dsimp only
  split
  · split <;> exact own_setSlot ..
  · split <;> exact own_setSlot ..
  · split
    · exact own_setSlot ..
    · split <;> exact own_setSlot ..
  · exact slotDriveTick_own ..
  · exact slotDriveTick_own ..
  · exact slotDriveTick_own ..
  · exact own_setSlot ..
  · exact own_setSlot ..
  · exact own_setSlot ..

section Tick

variable (s : State) (c : Nat) (m : SlotSample)

theorem sampled_state : (slotSampled s c (slotCh s c) m).state = (slotCh s c).state := rfl

theorem slotTick_inserted (empty : (slotCh s c).state = .empty) (present : m.present = true) :
    slotTick s c m = setSlot s c { slotSampled s c (slotCh s c) m with state := .qualifying, insertTimer := true } := by
  unfold slotTick
  dsimp only
  rw [sampled_state, empty]
  exact if_pos present

theorem slotTick_removed (was : (slotCh s c).state = .qualifying ∨ (slotCh s c).state = .idle) (gone : m.present = false) :
    (slotCh (slotTick s c m) c).state = .empty := by
  have away : (!(slotSampled s c (slotCh s c) m).present) = true := by
    show (!m.present) = true
    rw [gone]
    rfl
  unfold slotTick
  dsimp only
  rw [sampled_state]
  rcases was with qualifying | idle
  · rw [qualifying]
    dsimp only
    rw [if_pos away, slotCh_setSlot_same]
  · rw [idle]
    dsimp only
    rw [if_pos away, slotCh_setSlot_same]

theorem slotTick_requested (idle : (slotCh s c).state = .idle) (present : m.present = true)
    (asked : slotRequest s c (slotCh s c) = true) : (slotCh (slotTick s c m) c).state = .qualifying := by
  have here : ¬ (!(slotSampled s c (slotCh s c) m).present) = true := by
    show ¬ (!m.present) = true
    rw [present]
    decide
  have wants : slotRequest s c (slotSampled s c (slotCh s c) m) = true := asked
  unfold slotTick
  dsimp only
  rw [sampled_state, idle]
  dsimp only
  rw [if_neg here, if_pos wants, slotCh_setSlot_same]

theorem slotTick_driving (driving : (slotCh s c).state.driving = true) :
    slotTick s c m = slotDriveTick s c (slotSampled s c (slotCh s c) m) m := by
  unfold slotTick
  dsimp only
  rw [sampled_state]
  cases state : (slotCh s c).state with
  | ramping => rfl
  | on => rfl
  | limiting => rfl
  | empty => rw [state] at driving; cases driving
  | qualifying => rw [state] at driving; cases driving
  | idle => rw [state] at driving; cases driving
  | disabled => rw [state] at driving; cases driving
  | tripped => rw [state] at driving; cases driving
  | latched => rw [state] at driving; cases driving

/-- R349: twice the limit trips the channel at once. -/
theorem slotDriveTick_over (x : SlotCh) (over' : 2 * odGet s (0x8200 + c) 8 ≤ m.cur) :
    ∃ y, slotDriveTick s c x m = slotTrip s c 1 y :=
  ⟨_, if_pos over'⟩

/-- R350: a channel that drives nothing keeps its state, and shows the sample. -/
theorem slotTick_still (was : (slotCh s c).state = .disabled ∨ (slotCh s c).state = .tripped ∨ (slotCh s c).state = .latched) :
    slotTick s c m = setSlot s c (slotSampled s c (slotCh s c) m) := by
  unfold slotTick
  dsimp only
  rw [sampled_state]
  rcases was with state | state | state <;> rw [state]

/-- R350: a ramp that has come to its end. -/
theorem slotDriveTick_ramped {x : SlotCh} (sampled : x = slotSampled s c (slotCh s c) m) (ramping : (slotCh s c).state = .ramping)
    (under : m.cur < 2 * odGet s (0x8200 + c) 8) (cool : slotHot s c { x with faultTimer := false, lowTicks := 0 } = false)
    (free : slotLimiting s c x m = false) (present : m.present = true) (window : x.inWindow = true)
    (asked : slotRequest s c (slotCh s c) = true) (full : m.vin * 95 ≤ m.vout * 100) (gate : m.vin + 8000 ≤ m.gate) :
    ∃ y : SlotCh, slotDriveTick s c x m = setSlot s c y ∧ y.state = .on ∧ y.powerGood = true ∧ y.pfail = false := by
  have state : x.state = .ramping := by rw [sampled]; exact ramping
  have here : x.present = true := by rw [sampled]; exact present
  have vin : x.vin = m.vin := by rw [sampled]; rfl
  have vout : x.vout = m.vout := by rw [sampled]; rfl
  have wants : slotRequest s c x = true := by rw [sampled]; exact asked
  unfold slotDriveTick
  extract_lets lim ovp low x1 removed outside ended x2 r s1
  have calm : x1 = { x with faultTimer := false, lowTicks := 0 } := by
    have notOn : ¬ low := fun h => absurd (state.symm.trans h.1) (by decide)
    show { x with faultTimer := ovp, lowTicks := if low then x.lowTicks + 1 else 0 } = _
    rw [if_neg notOn, show ovp = false from free]
  have asks : slotRequest s c x1 = true := by rw [calm]; exact wants
  rw [if_neg (by omega), if_neg (by rw [calm, cool]; decide), if_neg (fun h => absurd h.1 (by rw [calm]; simp)),
    if_neg (show ¬ (!x.present) = true by rw [here]; decide), if_neg (show ¬ (!x.inWindow) = true by rw [window]; decide),
    if_neg (by rw [asks]; decide), show x1.state = .ramping from state]
  refine ⟨_, if_pos ?_, rfl, rfl, rfl⟩
  show (decide (x.vin + 8000 ≤ m.gate) && decide (x.vin * 95 ≤ x.vout * 100) && !ovp) = true
  rw [vin, vout, decide_eq_true gate, decide_eq_true full, show ovp = false from free]
  rfl

end Tick

/-! ### The obligation -/

theorem slotRequest_congr {s : State} {c : Nat} {x y : SlotCh} (dropped : y.dropped = x.dropped) (host : y.hostRequest = x.hostRequest) :
    slotRequest s c y = slotRequest s c x := by
  unfold slotRequest
  rw [dropped, host]

theorem slotEnable_off (s : State) (c : Nat) :
    slotEnable s c false =
      slotPower s (setSlot (odSet s (0x8200 + c) 1 0) c { (slotCh s c).gateOff .disabled with insertTimer := false, retryTimer := false }) c :=
  rfl

theorem slotEnable_on (s : State) (c : Nat) :
    (slotCh (slotEnable s c true) c).state = (if (slotCh s c).state = .disabled then .empty else (slotCh s c).state) ∧
      odGet (slotEnable s c true) (0x8200 + c) 1 = 1 ∧
      ∃ od slots, slotEnable s c true = { s with od := od, pow := { s.pow with slots := slots } } := by
  have shown : odGet (odSet s (0x8200 + c) 1 1) (0x8200 + c) 1 = 1 := odGet_odSet_same ..
  unfold slotEnable
  dsimp only
  rw [if_pos rfl]
  split
  · exact ⟨congrArg SlotCh.state (slotCh_setSlot_same ..), shown, _, _, rfl⟩
  · exact ⟨rfl, shown, _, _, rfl⟩

theorem slotSetRequest_on {s : State} {c : Nat} (idle : (slotCh s c).state = .idle) (free : (slotCh s c).hostRequest = none)
    (kept : (slotCh s c).dropped = false) :
    slotSetRequest s c true false =
      setSlot (odSet s (0x8200 + c) 2 1) c { slotCh s c with state := .qualifying, insertTimer := true } := by
  have asked : slotRequest (odSet s (0x8200 + c) 2 1) c (slotCh s c) = true := by
    unfold slotRequest
    rw [kept, free]
    exact decide_eq_true (odGet_odSet_same ..)
  refine (if_neg ?_).trans (if_pos ⟨idle, asked⟩)
  show ¬ ((slotCh s c).state.driving && _) = true
  rw [idle]
  simp [SlotState.driving]

theorem slotSetRequest_off {s : State} {c : Nat} (driving : (slotCh s c).state.driving = true) (free : (slotCh s c).hostRequest = none) :
    slotSetRequest s c false false = slotPower s (setSlot (odSet s (0x8200 + c) 2 0) c ((slotCh s c).gateOff .idle)) c := by
  have refused : slotRequest (odSet s (0x8200 + c) 2 0) c (slotCh s c) = false := by
    unfold slotRequest
    rw [free]
    split
    · rfl
    · exact decide_eq_false (by rw [odGet_odSet_same]; decide)
  refine if_pos ?_
  show ((slotCh s c).state.driving && !slotRequest (odSet s (0x8200 + c) 2 0) c (slotCh s c)) = true
  rw [driving, refused]
  rfl

/-- Settles O44: ticks through `slotTick` and `slotDriveTick`, timers and commands through the record that each of them writes. -/
theorem slotChannels : Obligations.SlotChannels := by
  unfold Obligations.SlotChannels
  refine ⟨?tick, ?ramped, ?inserted, ?trips, ?gate, ?retry, ?clear, ?enable, ?disable, ?latch, ?on, ?off⟩
  case tick =>
    intro c m s good
    obtain ⟨others, flt, slots, perf, frame⟩ := slotTick_own s c.val m
    refine ⟨_, if_pos good, others, by rw [frame], fun empty present => ?_, slotTick_removed s c.val m, slotTick_requested s c.val m,
      fun driving over' => ?_, fun still => ?_⟩
    · rw [slotTick_inserted s c.val m empty present, slotCh_setSlot_same]
      exact ⟨rfl, rfl⟩
    · obtain ⟨y, trips⟩ := slotDriveTick_over s c.val m (slotSampled s c.val (slotCh s c.val) m) over'
      obtain ⟨own, -, counted, reported, -⟩ := failed_trip s c.val 1 y
      rw [slotTick_driving s c.val m driving, trips, own]
      exact ⟨rfl, rfl, rfl, rfl, rfl, counted, reported⟩
    · rw [slotTick_still s c.val m still, slotCh_setSlot_same]
      exact ⟨rfl, rfl⟩
  case ramped =>
    intro c m x s good ramping sampled under cool free present window asked full gate
    obtain ⟨y, put, state, power, pfail⟩ := slotDriveTick_ramped s c.val m sampled ramping under cool free present window asked full gate
    have eq : slotTick s c.val m = setSlot s c.val y := by
      rw [slotTick_driving s c.val m (by rw [ramping]; rfl), ← sampled, put]
    obtain ⟨own, others, slots, frame⟩ := put_setSlot s c.val y
    rw [← eq] at own others frame
    refine ⟨_, if_pos good, ?_, ?_, ?_, others, by rw [frame]⟩
    · rw [own, state]
    · rw [own, power]
    · rw [own, pfail]
  case inserted =>
    intro c s state timer
    have request : slotRequest s c.val { slotCh s c.val with qualified := true, insertTimer := false } = slotRequest s c.val (slotCh s c.val) :=
      slotRequest_congr rfl rfl
    have run : exec (.insertionDelayExpire c) s =
        if slotRequest s c.val { slotCh s c.val with qualified := true, insertTimer := false } then
          .next (setSlot s c.val (SlotCh.ramp { slotCh s c.val with qualified := true, insertTimer := false }))
        else .next (setSlot s c.val { slotCh s c.val with qualified := true, insertTimer := false, state := .idle }) := if_pos ⟨state, timer⟩
    rw [request] at run
    cases asked : slotRequest s c.val (slotCh s c.val) with
    | true =>
      rw [asked, if_pos rfl] at run
      obtain ⟨own, others, slots, frame⟩ :=
        put_setSlot s c.val (SlotCh.ramp { slotCh s c.val with qualified := true, insertTimer := false })
      exact ⟨_, run, by rw [own]; rfl, by rw [own]; rfl, others, by rw [frame]⟩
    | false =>
      rw [asked, if_neg (by decide)] at run
      obtain ⟨own, others, slots, frame⟩ :=
        put_setSlot s c.val { slotCh s c.val with qualified := true, insertTimer := false, state := .idle }
      exact ⟨_, run, by rw [own], by rw [own]; rfl, others, by rw [frame]⟩
  case trips =>
    intro c i k s named
    obtain ⟨own, -, counted, reported, flt, slots, perf, frame⟩ := failed_trip s c.val k (slotCh s c.val)
    have run : exec i s = .next (slotPower s (slotTrip s c.val k (slotCh s c.val)) c.val) := by
      rcases named with ⟨rfl, rfl, driving, timer⟩ | ⟨rfl, rfl, state, timer, low⟩
      · exact if_pos (by rw [driving, timer]; rfl)
      · exact (if_pos ⟨state, timer⟩).trans (if_pos low)
    exact ⟨_, run, own, counted, reported, by rw [frame]⟩
  case gate =>
    intro c s state window
    obtain ⟨own, -, counted, -, flt, slots, perf, frame⟩ :=
      failed_report s c.val 3 5 { (slotCh s c.val).gateOff .latched with cause := 5 }
    exact ⟨_, if_pos ⟨state, window⟩, by rw [own]; rfl, by rw [own], counted, by rw [frame]⟩
  case retry =>
    intro c s state timer cause
    have run : exec (.retryTimerExpire c) s =
        if odGet s (0x8200 + c.val) 0xC = 0 ∨ (slotCh s c.val).retries < odGet s (0x8200 + c.val) 0xC then
          .next (setSlot s c.val { slotCh s c.val with
            state := if (slotCh s c.val).present then .qualifying else .empty, retryTimer := false, insertTimer := (slotCh s c.val).present })
        else
          .next (slotPower s (raiseFault (bumpC (setSlot s c.val
            { slotCh s c.val with state := .latched, cause := 6, retryTimer := false }) 0xC02A 3) (160 + c.val) 6 0) c.val) :=
      if_pos ⟨state, timer, .inl cause⟩
    refine ⟨fun again => ?_, fun limited reached => ?_⟩
    · rw [if_pos again] at run
      obtain ⟨own, -, slots, frame⟩ := put_setSlot s c.val { slotCh s c.val with
        state := if (slotCh s c.val).present then .qualifying else .empty, retryTimer := false, insertTimer := (slotCh s c.val).present }
      exact ⟨_, run, by rw [own], by rw [frame]⟩
    · rw [if_neg (by omega)] at run
      obtain ⟨own, -, -, -, flt, slots, perf, frame⟩ :=
        failed_report s c.val 3 6 { slotCh s c.val with state := .latched, cause := 6, retryTimer := false }
      exact ⟨_, run, by rw [own], by rw [own], by rw [frame]⟩
  case clear =>
    intro c s state
    obtain ⟨own, others, slots, frame⟩ := put_setSlot s c.val { slotCh s c.val with retries := 0 }
    exact ⟨_, if_pos state, own, others, by rw [frame]⟩
  case enable =>
    intro c s
    obtain ⟨state, shown, od, slots, frame⟩ := slotEnable_on s c.val
    rw [frame] at state shown
    refine ⟨_, answered_of (Prod.ext frame rfl), shown, state, rfl, rfl⟩
  case disable =>
    intro c s
    refine ⟨_, answered_of (Prod.ext (slotEnable_off s c.val) rfl), odGet_odSet_same .., ?_, ?_, rfl⟩
    · rw [slotCh_setSlot_same]
      rfl
    · rw [slotCh_setSlot_same]
      rfl
  case latch =>
    intro c s latched
    have run : slotClear s c.val =
        if slotRequest s c.val (slotCh s c.val) then (s, .busy) else (setSlot s c.val { slotCh s c.val with state := .empty, cause := 0 }, .ok) :=
      if_pos latched
    refine ⟨fun free => ?_, fun asked => answered_of (run.trans (if_pos asked))⟩
    exact ⟨_, answered_of (run.trans (if_neg (by rw [free]; decide))), slotCh_setSlot_same .., rfl, rfl⟩
  case on =>
    intro c s idle free kept
    refine ⟨_, answered_of (Prod.ext (slotSetRequest_on idle free kept) rfl), odGet_odSet_same .., ?_, ?_, rfl, rfl⟩
    · exact congrArg SlotCh.state (slotCh_setSlot_same (odSet s (0x8200 + c.val) 2 1) c.val _)
    · exact congrArg SlotCh.insertTimer (slotCh_setSlot_same (odSet s (0x8200 + c.val) 2 1) c.val _)
  case off =>
    intro c s driving free
    refine ⟨_, answered_of (Prod.ext (slotSetRequest_off driving free) rfl), ?_, ?_, odGet_odSet_same ..⟩
    · rw [slotCh_setSlot_same]
      rfl
    · rw [slotCh_setSlot_same]
      rfl

end Sys2Proof.Proofs.SlotChannels

/-!
Accesses on the management bus (R367, R370 to R374, R376): a master that presents alone is accepted, its MPU and the crossbar decide
what becomes of the access, and of the DMA and the debug port together the arbiter takes one.
-/

namespace Sys2Proof.Proofs.BusAccesses

open Sys2Proof Sys2Proof.Machine Sys2Proof.Laws Sys2Proof.Proofs.Shared Sys2Proof.Proofs.Sram

/-! ### One core's state and one bus error -/

theorem coreSt_setCore_same (s : State) (k : Nat) (c : CoreSt) : coreSt (setCore s k c) k = c := tabGet_set_same ..

theorem coreSt_setCore_other (s : State) {j k : Nat} (c : CoreSt) (apart : j ≠ k) : coreSt (setCore s k c) j = coreSt s j :=
  tabGet_set_other apart ..

theorem coreSt_congr {s t : State} (cores : t.mgmt.cores = s.mgmt.cores) (k : Nat) : coreSt t k = coreSt s k := by
  unfold coreSt; rw [cores]

/-- What a bus error of master `m` leaves (R371, R376): it is counted and shown, and master `m` alone may take an exception. -/
structure Refused (s t : State) (m id addr : Nat) (e : BusErr) : Prop where
  answered : t.out = s.out ++ [Out.busError m id e]
  counted : counter t (counterNo 0xC02B 1) = counter s (counterNo 0xC02B 1) + 1
  counters : ∀ n, n ≠ counterNo 0xC02B 1 → counter t n = counter s n
  shown : odGet t 0x9004 1 = m * 2 ^ 40 + e.code * 2 ^ 32 + addr
  others : ∀ k, k ≠ m → coreSt t k = coreSt s k
  excepted : m < 4 → coreSt t m = { enterP0 (coreSt s m) with lastExc := some e }
  spared : 4 ≤ m → t.mgmt = s.mgmt
  touched : t = { s with od := t.od, perf := t.perf, mgmt := { s.mgmt with cores := t.mgmt.cores }, out := t.out }

/-- A bus error as it is counted and shown, before its master takes an exception. -/
def shown (s : State) (v : Nat) : State := odSet (bumpC s 0xC02B 1) 0x9004 1 v

theorem shown_frame (s : State) (v : Nat) : ∃ od perf, shown s v = { s with od := od, perf := perf } := ⟨_, _, rfl⟩

theorem odGet_shown (s : State) (v : Nat) : odGet (shown s v) 0x9004 1 = v := odGet_odSet_same ..

theorem counter_shown (s : State) (v : Nat) :
    counter (shown s v) (counterNo 0xC02B 1) = counter s (counterNo 0xC02B 1) + 1 :=
  counter_bump_same s (counterNo 0xC02B 1) 1

theorem counter_shown_other (s : State) (v : Nat) {n : Nat} (other : n ≠ counterNo 0xC02B 1) : counter (shown s v) n = counter s n :=
  counter_bump_other s other 1

theorem busError_core (s : State) {m : Nat} (core : m < 4) (id addr : Nat) (e : BusErr) :
    ∃ u, u = shown s (m * 2 ^ 40 + e.code * 2 ^ 32 + addr) ∧
    busError s m id addr e = emit (setCore u m { enterP0 (coreSt u m) with lastExc := some e }) (.busError m id e) :=
  ⟨_, rfl, by unfold busError; dsimp only; rw [if_pos core]; rfl⟩

theorem busError_other (s : State) {m : Nat} (core : ¬ m < 4) (id addr : Nat) (e : BusErr) :
    ∃ u, u = shown s (m * 2 ^ 40 + e.code * 2 ^ 32 + addr) ∧
    busError s m id addr e = emit u (.busError m id e) :=
  ⟨_, rfl, by unfold busError; dsimp only; rw [if_neg core]; rfl⟩

theorem refused_busError (s : State) (m id addr : Nat) (e : BusErr) : Refused s (busError s m id addr e) m id addr e := by
  have frame := shown_frame s (m * 2 ^ 40 + e.code * 2 ^ 32 + addr)
  have cell := odGet_shown s (m * 2 ^ 40 + e.code * 2 ^ 32 + addr)
  have count := counter_shown s (m * 2 ^ 40 + e.code * 2 ^ 32 + addr)
  have counters := fun n => counter_shown_other s (m * 2 ^ 40 + e.code * 2 ^ 32 + addr) (n := n)
  by_cases core : m < 4
  · obtain ⟨u, made, eq⟩ := busError_core s core id addr e
    rw [← made] at frame cell count counters
    rw [eq]
    clear eq made
    obtain ⟨od, perf, frame⟩ := frame
    have same : ∀ k, coreSt u k = coreSt s k := coreSt_congr (by rw [frame])
    refine ⟨?_, count, counters, cell, fun k apart => (coreSt_setCore_other u _ apart).trans (same k),
      fun _ => ?_, fun high => absurd core (Nat.not_lt.2 high), ?_⟩
    · rw [frame]; rfl
    · rw [← same m]; exact coreSt_setCore_same ..
    · rw [frame]; rfl
  · obtain ⟨u, made, eq⟩ := busError_other s core id addr e
    rw [← made] at frame cell count counters
    rw [eq]
    clear eq made
    obtain ⟨od, perf, frame⟩ := frame
    have same : ∀ k, coreSt u k = coreSt s k := coreSt_congr (by rw [frame])
    refine ⟨?_, count, counters, cell, fun k _ => same k, fun below => absurd below core, fun _ => ?_, ?_⟩
    · rw [frame]; rfl
    · rw [frame]; rfl
    · rw [frame]; rfl

/-! ### From the arbiter to the crossbar -/

theorem exec_alone (s : State) (r : BusReq) : ∃ n, exec (.busAccess [r]) s = .next (busIssue (accepted s n r) r) := by
  show ∃ n, execBusAccess [r] s = _
  unfold execBusAccess
  extract_lets n
  exact ⟨n, by rw [arbitrate_alone]⟩

theorem accepted_arbiter (s : State) (n : Nat) (r : BusReq) :
    ∃ ptr last, accepted s n r = { s with mgmt := { s.mgmt with rrPtr := ptr, lastDma := last } } := ⟨_, _, accepted_frame ..⟩

theorem busIssue_full {s : State} {r : BusReq} (full : 16 ≤ (outstanding s r.master).length) : busIssue s r = s := if_pos full

theorem busIssue_whole {s : State} {r : BusReq} (room : (outstanding s r.master).length < 16)
    (free : refusedParts (fetchAgain s r) r = []) : busIssue s r = wholeAccess (fetchAgain s r) r := by
  unfold busIssue
  rw [if_neg (Nat.not_le.2 room)]
  dsimp only
  rw [free]

theorem fetchAgain_notCore (s : State) {r : BusReq} (port : 4 ≤ r.master.val) : fetchAgain s r = s := by
  unfold fetchAgain
  split
  · exact if_neg (Nat.not_lt.2 port)
  · rfl

theorem refusedParts_notCore (s : State) {r : BusReq} (port : 4 ≤ r.master.val) : refusedParts s r = [] :=
  if_neg fun core => Nat.not_lt.2 port core.1

/-- The debug port and the DMA have no MPU: the crossbar alone decides. -/
theorem busIssue_notCore {s : State} {r : BusReq} (port : 4 ≤ r.master.val) (room : (outstanding s r.master).length < 16) :
    busIssue s r = wholeAccess s r := by
  rw [busIssue_whole room (refusedParts_notCore _ port), fetchAgain_notCore s port]

theorem wholeAccess_refused {s u : State} {r : BusReq} (answer : crossbar s r = .inl u) : wholeAccess s r = u := by
  unfold wholeAccess; rw [answer]

theorem wholeAccess_stalled {s : State} {r : BusReq} {tg : Target} (path : crossbar s r = .inr tg) (stalls : r.stalls = true) :
    wholeAccess s r = hold (addOutstanding s r tg) r tg [] := by
  unfold wholeAccess
  rw [path]
  exact if_pos (by rw [stalls, Bool.true_or])

/-! ### What the crossbar refuses -/

theorem crossbar_unmapped (s : State) {r : BusReq} (nowhere : targetOf r.addr.toNat = none) :
    crossbar s r = .inl (busError s r.master r.id r.addr.toNat .unmapped) := by
  unfold crossbar; dsimp only; rw [nowhere]

theorem pathOf_locked (s : State) {tg : Target} (locked : tg.lockedRegion = true) (a : Nat) : pathOf s 4 tg a = .locked := by
  unfold pathOf
  rw [if_neg (by omega), if_pos rfl]
  exact if_pos locked

theorem crossbar_locked (s : State) {r : BusReq} {tg : Target} (debug : r.master.val = 4) (found : targetOf r.addr.toNat = some tg)
    (locked : tg.lockedRegion = true) : crossbar s r = .inl (lockedAccess s r.id r.addr.toNat r.kind) := by
  unfold crossbar
  dsimp only
  rw [found]
  dsimp only
  rw [debug, pathOf_locked s locked]

theorem crossbar_readOnly (s : State) {r : BusReq} {d : List Byte} (dma : r.master.val = 5)
    (found : targetOf r.addr.toNat = some .mramGeneral) (kind : r.kind = .write d) :
    crossbar s r = .inl (busError s r.master r.id r.addr.toNat .target) := by
  have path : pathOf s r.master.val .mramGeneral r.addr.toNat = .r := by
    unfold pathOf
    rw [if_neg (by omega), if_neg (by omega)]
    rfl
  unfold crossbar
  dsimp only
  rw [found]
  dsimp only
  rw [path]
  dsimp only
  rw [kind]
  rfl

/-- What a debug port's access to a locked region leaves (R372, R376). -/
theorem lockedAccess_outcome (s : State) (id a : Nat) (k : BusKind) :
    (lockedAccess s id a k).out = s.out ++ [Out.busError 4 id .locked] ∧
      counter (lockedAccess s id a k) (counterNo 0xC02B 3) = counter s (counterNo 0xC02B 3) + 1 ∧
      (tabFind? 445 (lockedAccess s id a k).flt.pairs).isSome = true ∧
      ∃ od flt perf out, lockedAccess s id a k = { s with od := od, flt := flt, perf := perf, out := out } := by
  unfold lockedAccess
  extract_lets detail
  have reported : (tabFind? 445 (raiseFault s 445 0 detail).flt.pairs).isSome = true := raiseReport_some ..
  have frame : ∃ flt, raiseFault s 445 0 detail = { s with flt := flt } := ⟨_, raiseFault_frame ..⟩
  generalize raiseFault s 445 0 detail = u at reported frame ⊢
  obtain ⟨flt, frame⟩ := frame
  have refused := refused_busError (bumpC u 0xC02B 3) 4 id a .locked
  have apart : counterNo 0xC02B 3 ≠ counterNo 0xC02B 1 := by decide
  have mgmt := refused.spared (Nat.le_refl 4)
  have touched := refused.touched
  refine ⟨refused.answered.trans (by rw [frame]; rfl), (refused.counters _ apart).trans ?_, ?_, ?_⟩
  · rw [frame]; exact counter_bump_same s (counterNo 0xC02B 3) 1
  · rw [touched]; exact reported
  · generalize busError (bumpC u 0xC02B 3) 4 id a .locked = v at mgmt touched ⊢
    refine ⟨v.od, flt, v.perf, v.out, ?_⟩
    rw [touched, mgmt, frame]
    rfl

/-! ### Debug port and DMA -/

/-- The access that a debug port or a DMA presents alone is carried out on the state with the arbiter's turn moved on. -/
theorem exec_notCore {s : State} {r : BusReq} (port : 4 ≤ r.master.val) (room : (outstanding s r.master).length < 16) :
    ∃ ptr last u, u = { s with mgmt := { s.mgmt with rrPtr := ptr, lastDma := last } } ∧
      exec (.busAccess [r]) s = .next (wholeAccess u r) := by
  obtain ⟨n, run⟩ := exec_alone s r
  obtain ⟨ptr, last, turn⟩ := accepted_arbiter s n r
  refine ⟨ptr, last, accepted s n r, turn, run.trans (congrArg Host.Outcome.next (busIssue_notCore port ?_))⟩
  rw [turn]
  exact room

/-- A debug port's or a DMA's access that the crossbar answers with a bus error of kind `e` (R371, R376). -/
theorem exec_refused {s : State} {r : BusReq} {e : BusErr} (port : 4 ≤ r.master.val) (room : (outstanding s r.master).length < 16)
    (answer : ∀ u : State, crossbar u r = .inl (busError u r.master r.id r.addr.toNat e)) :
    ∃ t : State, exec (.busAccess [r]) s = .next t ∧ t.out = s.out ++ [Out.busError r.master r.id e] ∧
      counter t (counterNo 0xC02B 1) = counter s (counterNo 0xC02B 1) + 1 ∧
      odGet t 0x9004 1 = r.master.val * 2 ^ 40 + e.code * 2 ^ 32 + r.addr.toNat ∧
      t = { s with od := t.od, perf := t.perf, mgmt := { s.mgmt with rrPtr := t.mgmt.rrPtr, lastDma := t.mgmt.lastDma }, out := t.out } := by
  obtain ⟨ptr, last, u, made, run⟩ := exec_notCore port room
  rw [wholeAccess_refused (answer u)] at run
  have refused := refused_busError u r.master r.id r.addr.toNat e
  generalize busError u r.master r.id r.addr.toNat e = t at run refused
  have mgmt := refused.spared port
  have touched := refused.touched
  refine ⟨t, run, refused.answered.trans (by rw [made]), refused.counted.trans (by rw [made]; rfl), refused.shown, ?_⟩
  rw [touched, mgmt, made]

theorem unmapped_refused (r : BusReq) (s : State) (debug : r.master.val = 4) (nowhere : targetOf r.addr.toNat = none)
    (room : (outstanding s r.master).length < 16) :
    ∃ t : State, exec (.busAccess [r]) s = .next t ∧ t.out = s.out ++ [Out.busError 4 r.id .unmapped] ∧
      counter t (counterNo 0xC02B 1) = counter s (counterNo 0xC02B 1) + 1 ∧
      odGet t 0x9004 1 = 4 * 2 ^ 40 + 3 * 2 ^ 32 + r.addr.toNat ∧
      t = { s with od := t.od, perf := t.perf, mgmt := { s.mgmt with rrPtr := t.mgmt.rrPtr, lastDma := t.mgmt.lastDma }, out := t.out } := by
  have refused := exec_refused (by omega) room fun u => crossbar_unmapped u nowhere
  rw [debug] at refused
  exact refused

theorem readOnly_refused (r : BusReq) (d : List Byte) (s : State) (dma : r.master.val = 5)
    (found : targetOf r.addr.toNat = some .mramGeneral) (kind : r.kind = .write d) (room : (outstanding s r.master).length < 16) :
    ∃ t : State, exec (.busAccess [r]) s = .next t ∧ t.out = s.out ++ [Out.busError 5 r.id .target] ∧
      t = { s with od := t.od, perf := t.perf, mgmt := { s.mgmt with rrPtr := t.mgmt.rrPtr, lastDma := t.mgmt.lastDma }, out := t.out } := by
  obtain ⟨t, run, answer, -, -, touched⟩ := exec_refused (by omega) room fun u => crossbar_readOnly u dma found kind
  rw [dma] at answer
  exact ⟨t, run, answer, touched⟩

theorem locked_refused (r : BusReq) (tg : Target) (s : State) (debug : r.master.val = 4) (found : targetOf r.addr.toNat = some tg)
    (locked : tg.lockedRegion = true) (room : (outstanding s r.master).length < 16) :
    ∃ t : State, exec (.busAccess [r]) s = .next t ∧ t.out = s.out ++ [Out.busError 4 r.id .locked] ∧
      counter t (counterNo 0xC02B 3) = counter s (counterNo 0xC02B 3) + 1 ∧ (tabFind? 445 t.flt.pairs).isSome = true ∧
      t = { s with od := t.od, flt := t.flt, perf := t.perf, mgmt := { s.mgmt with rrPtr := t.mgmt.rrPtr, lastDma := t.mgmt.lastDma }, out := t.out } := by
  obtain ⟨ptr, last, u, made, run⟩ := exec_notCore (by omega) room
  rw [wholeAccess_refused (crossbar_locked u debug found locked)] at run
  obtain ⟨answer, counted, reported, touched⟩ := lockedAccess_outcome u r.id r.addr.toNat r.kind
  generalize lockedAccess u r.id r.addr.toNat r.kind = t at run answer counted reported touched
  obtain ⟨od, flt, perf, out, touched⟩ := touched
  refine ⟨t, run, answer.trans (by rw [made]), counted.trans (by rw [made]; rfl), reported, ?_⟩
  rw [touched, made]

/-! ### Cores -/

theorem refusedParts_core (s : State) {r : BusReq} (core : r.master.val < 4) (foreign : targetOf r.addr.toNat ≠ some .mpuRegs) :
    refusedParts s r = partsRefused (coreSt s r.master) r.addr.toNat r.kind :=
  if_pos ⟨core, fun own => foreign own.1⟩

/-- R382: a read of which the MPU refuses a part is not begun. -/
theorem busIssue_mpu {s : State} {r : BusReq} {n p : Nat} {l : List Nat} (room : (outstanding s r.master).length < 16)
    (core : r.master.val < 4) (kind : r.kind = .read n) (foreign : targetOf r.addr.toNat ≠ some .mpuRegs)
    (parts : partsRefused (coreSt s r.master) r.addr.toNat r.kind = p :: l) :
    busIssue s r = mpuFault s r.master r.id (.read n) p := by
  have same : fetchAgain s r = s := fetchAgain_data s fun m => by rw [kind]; exact BusKind.noConfusion
  unfold busIssue
  rw [if_neg (Nat.not_le.2 room)]
  dsimp only
  rw [same, refusedParts_core s core foreign, parts]
  dsimp only
  rw [kind]

/-- What an access that its MPU refuses leaves (R376, R382). -/
theorem mpuFault_outcome (s : State) {m : Nat} (core : m < 4) (id : Nat) (k : BusKind) (p : Nat) :
    (mpuFault s m id k p).out = s.out ++ [Out.busError m id .mpu] ∧
      counter (mpuFault s m id k p) (counterNo 0xC02B 2) = counter s (counterNo 0xC02B 2) + 1 ∧
      (coreSt (mpuFault s m id k p) m).level = .p0 ∧
      (coreSt (mpuFault s m id k p) m).saved = (coreSt s m).level :: (coreSt s m).saved ∧
      (coreSt (mpuFault s m id k p) m).lastExc = some .mpu ∧
      (∀ j, j ≠ m → coreSt (mpuFault s m id k p) j = coreSt s j) ∧ (mpuFault s m id k p).mgmt.sram = s.mgmt.sram := by
  unfold mpuFault
  extract_lets c u
  have record : coreSt u m = { c with
    faultRec := Config.mpuFaultRecord (BitVec.ofNat 32 (p * 64)) (kindNo k) c.level.code c.activeB } := coreSt_setCore_same ..
  have others : ∀ j, j ≠ m → coreSt u j = coreSt s j := fun j apart => coreSt_setCore_other s _ apart
  have frame : u.out = s.out ∧ (∀ n, counter u n = counter s n) ∧ u.mgmt.sram = s.mgmt.sram := ⟨rfl, fun _ => rfl, rfl⟩
  clear_value u
  obtain ⟨out, counters, sram⟩ := frame
  have refused := refused_busError (bumpC u 0xC02B 2) m id (p * 64) .mpu
  have apart : counterNo 0xC02B 2 ≠ counterNo 0xC02B 1 := by decide
  have excepted := refused.excepted core
  generalize busError (bumpC u 0xC02B 2) m id (p * 64) .mpu = t at refused excepted ⊢
  have own : coreSt (bumpC u 0xC02B 2) m = coreSt u m := rfl
  rw [own, record] at excepted
  refine ⟨refused.answered.trans (congrArg (· ++ _) out), ?_, ?_, ?_, ?_, fun j other => ?_, ?_⟩
  · rw [refused.counters _ apart, ← counters]
    exact counter_bump_same u (counterNo 0xC02B 2) 1
  · rw [excepted]; rfl
  · rw [excepted]; rfl
  · rw [excepted]
  · exact (refused.others j other).trans (others j other)
  · rw [refused.touched]; exact sram

theorem mpu_refused (r : BusReq) (n p : Nat) (l : List Nat) (s : State) (core : r.master.val < 4) (kind : r.kind = .read n)
    (foreign : targetOf r.addr.toNat ≠ some .mpuRegs) (room : (outstanding s r.master).length < 16)
    (parts : partsRefused (coreSt s r.master) r.addr.toNat r.kind = p :: l) :
    ∃ t : State, exec (.busAccess [r]) s = .next t ∧ t.out = s.out ++ [Out.busError r.master r.id .mpu] ∧
      counter t (counterNo 0xC02B 2) = counter s (counterNo 0xC02B 2) + 1 ∧ (coreSt t r.master).level = .p0 ∧
      (coreSt t r.master).saved = (coreSt s r.master).level :: (coreSt s r.master).saved ∧
      (coreSt t r.master).lastExc = some .mpu ∧ (∀ k : Nat, k ≠ r.master.val → coreSt t k = coreSt s k) ∧
      t.mgmt.sram = s.mgmt.sram := by
  obtain ⟨n', run⟩ := exec_alone s r
  obtain ⟨ptr, last, turn⟩ := accepted_arbiter s n' r
  generalize accepted s n' r = u at run turn
  have cores : ∀ k, coreSt u k = coreSt s k := coreSt_congr (by rw [turn])
  have issued : busIssue u r = mpuFault u r.master r.id (.read n) p :=
    busIssue_mpu (l := l) (by rw [turn]; exact room) core kind foreign (by rw [cores]; exact parts)
  obtain ⟨answer, counted, level, saved, exc, others, sram⟩ := mpuFault_outcome u core r.id (.read n) p
  rw [issued] at run
  rw [cores] at saved
  refine ⟨_, run, answer.trans (by rw [turn]), counted.trans (by rw [turn]; rfl), level, saved, exc,
    fun k apart => (others k apart).trans (cores k), sram.trans (by rw [turn])⟩

/-! ### Stalled accesses and a full master -/

theorem pathOf_congr {s t : State} (sec : t.sec = s.sec) {m : Nat} (level : (coreSt t m).level = (coreSt s m).level) (tg : Target)
    (a : Nat) : pathOf t m tg a = pathOf s m tg a := by
  unfold pathOf debugPathNow; rw [sec, level]

/-- The path that an access takes depends on the security state and on its core's level alone. -/
theorem crossbar_through {s t : State} {r : BusReq} {tg : Target} (sec : t.sec = s.sec)
    (level : (coreSt t r.master).level = (coreSt s r.master).level) (path : crossbar s r = .inr tg) : crossbar t r = .inr tg := by
  unfold crossbar at path ⊢
  dsimp only at path ⊢
  split at path
  · cases path
  · rw [pathOf_congr sec level]
    split at path
    · cases path
    · cases path
    · cases path
    · split at path
      · cases path
      · next reads => exact (if_neg reads).trans path
    · exact path

theorem fetchAgain_level (s : State) (r : BusReq) : (coreSt (fetchAgain s r) r.master).level = (coreSt s r.master).level := by
  unfold fetchAgain
  split
  · split
    · rw [coreSt_setCore_same]
    · rfl
  · rfl

theorem refusedParts_fetchAgain (s : State) (r : BusReq) : refusedParts (fetchAgain s r) r = refusedParts s r := by
  unfold refusedParts; rw [partsRefused_fetchAgain]

theorem outstanding_addOutstanding (s : State) (r : BusReq) (tg : Target) : outstanding (addOutstanding s r tg) r.master =
    outstanding s r.master ++ [{ id := r.id, addr := r.addr.toNat, target := tg.no }] := tabGet_set_same ..

theorem stalled_outstanding (r : BusReq) (tg : Target) (s : State) (stalls : r.stalls = true)
    (room : (outstanding s r.master).length < 16) (free : refusedParts s r = []) (path : crossbar s r = .inr tg) :
    ∃ t : State, exec (.busAccess [r]) s = .next t ∧
      outstanding t r.master = outstanding s r.master ++ [{ id := r.id, addr := r.addr.toNat, target := tg.no }] ∧
      t.mgmt.held = s.mgmt.held ++ [{ target := tg.no, req := r, deny := [], silent := false, late := false }] ∧
      t = { s with mgmt := { s.mgmt with rrPtr := t.mgmt.rrPtr, lastDma := t.mgmt.lastDma, cores := t.mgmt.cores,
                                         outstanding := t.mgmt.outstanding, held := t.mgmt.held } } := by
  obtain ⟨n, run⟩ := exec_alone s r
  obtain ⟨ptr, last, turn⟩ := accepted_arbiter s n r
  generalize accepted s n r = u at run turn
  have cores : ∀ k, coreSt u k = coreSt s k := coreSt_congr (by rw [turn])
  have free' : refusedParts (fetchAgain u r) r = [] := by
    rw [refusedParts_fetchAgain]
    unfold refusedParts at free ⊢
    rw [cores]
    exact free
  have again := fetchAgain_frame u r
  have path' : crossbar (fetchAgain u r) r = .inr tg :=
    crossbar_through (by rw [again, turn]) ((fetchAgain_level u r).trans (congrArg CoreSt.level (cores _))) path
  rw [busIssue_whole (by rw [turn]; exact room) free'] at run
  generalize fetchAgain u r = v at run again path'
  have before : v.mgmt.outstanding = s.mgmt.outstanding ∧ v.mgmt.held = s.mgmt.held := by rw [again, turn]; exact ⟨rfl, rfl⟩
  refine ⟨_, run.trans (congrArg _ (wholeAccess_stalled path' stalls)), ?_, ?_, ?_⟩
  · show outstanding (addOutstanding v r tg) r.master = _
    rw [outstanding_addOutstanding]
    unfold outstanding
    rw [before.1]
  · exact congrArg (· ++ _) before.2
  · rw [again, turn]; rfl

theorem full_notIssued (r : BusReq) (s : State) (full : 16 ≤ (outstanding s r.master).length) :
    ∃ t : State, exec (.busAccess [r]) s = .next t ∧
      t = { s with mgmt := { s.mgmt with rrPtr := t.mgmt.rrPtr, lastDma := t.mgmt.lastDma } } := by
  obtain ⟨n, run⟩ := exec_alone s r
  refine ⟨_, run.trans (congrArg _ (busIssue_full ?_)), accepted_frame s n r⟩
  obtain ⟨ptr, last, turn⟩ := accepted_arbiter s n r
  rw [turn]
  exact full

/-! ### Of two masters the arbiter takes one (R373) -/

/-- The DMA goes first unless it had the last turn at the target while another master waits. -/
theorem arbitrate_two (s : State) (n : Nat) {c d : BusReq} (debug : c.master.val = 4) (dma : d.master.val = 5) :
    arbitrate s n [c, d] = some (if tabGet false n s.mgmt.lastDma then c else d) := by
  have first : ([c, d].find? fun r => decide (r.master.val = 5)) = some d := by simp [debug, dma]
  have others : ([c, d].filter fun r => decide (r.master.val ≠ 5)) = [c] := by simp [debug, dma]
  obtain ⟨i, member, turn⟩ := exists_turn (tabGet 0 n s.mgmt.rrPtr) (show c.master.val < 5 by omega)
  have robin := findSome?_find?_singleton (p := fun i (r : BusReq) => decide (r.master.val = (tabGet 0 n s.mgmt.rrPtr + i) % 5))
    member (decide_eq_true turn)
  simp only [arbitrate, first, others, robin]
  cases tabGet false n s.mgmt.lastDma <;> rfl

theorem two_masters (c d : BusReq) (n m : Nat) (s : State) (debug : c.master.val = 4) (dma : d.master.val = 5)
    (unlocked : s.sec.unlocked = true) (permitted : s.sec.permissions.getLsbD 0 = true)
    (here : targetOf c.addr.toNat = some .sram) (there : targetOf d.addr.toNat = some .sram)
    (reads : c.kind = .read n) (reads' : d.kind = .read m) (answers : c.stalls = false) (answers' : d.stalls = false)
    (idle : targetWaits s .sram = false) (room : (outstanding s 4).length < 16) (room' : (outstanding s 5).length < 16) :
    ∃ t : State, exec (.busAccess [c, d]) s = .next t ∧
      t.out = s.out ++ [if tabGet false 0 s.mgmt.lastDma then .busData 4 c.id (sramRead s c.addr.toNat n)
        else .busData 5 d.id (sramRead s d.addr.toNat m)] := by
  have admitted : Admitted s c := ⟨here, answers, by rw [debug]; exact room, idle, fun core => absurd core (by omega),
    fun _ => ⟨unlocked, permitted⟩⟩
  have admitted' : Admitted s d := ⟨there, answers', by rw [dma]; exact room', idle, fun core => absurd core (by omega),
    fun debug => absurd debug (by omega)⟩
  have run : exec (.busAccess [c, d]) s = if tabGet false 0 s.mgmt.lastDma then exec (.busAccess [c]) s else exec (.busAccess [d]) s := by
    show execBusAccess [c, d] s = if _ then execBusAccess [c] s else execBusAccess [d] s
    simp only [execBusAccess, here, there, Target.no, arbitrate_alone, arbitrate_two s 0 debug dma]
    cases tabGet false 0 s.mgmt.lastDma <;> rfl
  rw [run, admitted.exec_read reads, admitted'.exec_read reads', debug, dma]
  cases tabGet false 0 s.mgmt.lastDma
  · exact ⟨_, rfl, congrArg (· ++ _) (accepted_out s 0 d)⟩
  · exact ⟨_, rfl, congrArg (· ++ _) (accepted_out s 0 c)⟩

/-- Settles O45: an access that presents alone is carried out on the state with the arbiter's turn moved on, where its MPU and the
crossbar decide. -/
theorem busAccesses : Obligations.BusAccesses :=
  ⟨fun r s debug nowhere _ room => unmapped_refused r s debug nowhere room,
   fun r tg s debug found locked _ room => locked_refused r tg s debug found locked room,
   fun r n p l s core kind foreign _ room parts => mpu_refused r n p l s core kind foreign room parts,
   fun r d s dma found kind _ room => readOnly_refused r d s dma found kind room,
   stalled_outstanding, full_notIssued, two_masters⟩

end Sys2Proof.Proofs.BusAccesses

/-!
Requests of the Sprineno protocol (R394, R400, R403, R404): what a change of one session, an answer, and the execution of a request
make of the state.
-/

namespace Sys2Proof.Proofs.Requests

open Sys2Proof Sys2Proof.Machine Sys2Proof.Laws Sys2Proof.Safety Sys2Proof.Proofs.Shared

/-! ### One session is changed -/

theorem id_of_session? {s : State} {id : Nat} {x : Session} (found : session? s id = some x) : x.id = id := by
  unfold session? at found
  simpa using List.find?_some found

theorem mem_of_session? {s : State} {id : Nat} {x : Session} (found : session? s id = some x) : x ∈ s.spr.sessions :=
  List.mem_of_find?_eq_some found

theorem session?_congr {s t : State} (same : t.spr.sessions = s.spr.sessions) (id : Nat) : session? t id = session? s id := by
  unfold session?; rw [same]

/-- A session keeps its ID under `f`. -/
def KeepsId (f : Session → Session) : Prop := ∀ x, (f x).id = x.id

/-- `f` for session `id` alone. -/
def onSession (id : Nat) (f : Session → Session) (x : Session) : Session := if x.id = id then f x else x

theorem onSession_id (id : Nat) {f : Session → Session} (keeps : KeepsId f) (x : Session) : (onSession id f x).id = x.id := by
  unfold onSession
  split
  · exact keeps x
  · rfl

theorem session?_updSession (s : State) (id j : Nat) {f : Session → Session} (keeps : KeepsId f) :
    session? (updSession s id f) j = (session? s j).map (onSession id f) := by
  unfold session?
  refine (List.find?_map ..).trans (congrArg (Option.map _) (congrArg (List.find? · _) (funext fun x => ?_)))
  exact congrArg (fun i => decide (i = j)) (onSession_id id keeps x)

theorem session?_updSession_same {s : State} {id : Nat} {x : Session} {f : Session → Session} (keeps : KeepsId f)
    (found : session? s id = some x) : session? (updSession s id f) id = some (f x) := by
  rw [session?_updSession s id id keeps, found]
  exact congrArg some (if_pos (id_of_session? found))

theorem session?_updSession_none {s : State} {id j : Nat} {f : Session → Session} (keeps : KeepsId f)
    (absent : session? s j = none) : session? (updSession s id f) j = none := by
  rw [session?_updSession s id j keeps, absent]; rfl

theorem updSession_updSession (s : State) (id : Nat) {f : Session → Session} (keeps : KeepsId f) (g : Session → Session) :
    updSession (updSession s id f) id g = updSession s id fun x => g (f x) := by
  have both : (s.spr.sessions.map (onSession id f)).map (onSession id g) = s.spr.sessions.map (onSession id fun x => g (f x)) := by
    rw [List.map_map]
    refine List.map_congr_left fun x _ => ?_
    by_cases own : x.id = id
    · simp [onSession, own, keeps x]
    · simp [onSession, own]
  exact congrArg (fun l => { s with spr := { s.spr with sessions := l } }) both

/-- A change of one session leaves what no session's change touches. -/
theorem map_updSession {α : Type} (s : State) (id : Nat) {f : Session → Session} {g : Session → α} (keeps : ∀ x, g (f x) = g x) :
    (updSession s id f).spr.sessions.map g = s.spr.sessions.map g := by
  refine List.map_map.trans (List.map_congr_left fun x _ => ?_)
  show g (if x.id = id then f x else x) = g x
  split
  · exact keeps x
  · rfl

theorem updSession_frame (s : State) (id : Nat) (f : Session → Session) :
    updSession s id f = { s with spr := { s.spr with sessions := (updSession s id f).spr.sessions } } := rfl

/-! ### Answers (R395, R400) -/

theorem sendAnswer_out (s : State) (via : Transport) (st : Status) (msg : List Byte) :
    (sendAnswer s via st msg).out = s.out ++ [Out.message via msg] := by
  unfold sendAnswer
  extract_lets u
  have same : u.out = s.out := by
    by_cases ok : st = .ok
    · rw [show u = s from if_pos ok]
    · rw [show u = bumpC s 0xC02C 2 from if_neg ok]; rfl
  exact congrArg (· ++ _) same

theorem sendAnswer_frame (s : State) (via : Transport) (st : Status) (msg : List Byte) :
    ∃ perf, sendAnswer s via st msg = { s with perf := perf, out := s.out ++ [Out.message via msg] } := by
  unfold sendAnswer
  extract_lets u
  have same : ∃ perf, u = { s with perf := perf } := by
    by_cases ok : st = .ok
    · exact ⟨_, if_pos ok⟩
    · exact ⟨_, if_neg ok⟩
  obtain ⟨perf, same⟩ := same
  exact ⟨perf, by rw [same]; rfl⟩

theorem counter_sendAnswer_other (s : State) (via : Transport) (st : Status) (msg : List Byte) {n : Nat}
    (other : n ≠ counterNo 0xC02C 2) : counter (sendAnswer s via st msg) n = counter s n := by
  unfold sendAnswer
  extract_lets u
  show counter u n = _
  by_cases ok : st = .ok
  · rw [show u = s from if_pos ok]
  · rw [show u = bumpC s 0xC02C 2 from if_neg ok]; exact counter_bump_other s other 1

theorem counter_sendAnswer_refused (s : State) (via : Transport) {st : Status} (msg : List Byte) (refused : st ≠ .ok) :
    counter (sendAnswer s via st msg) (counterNo 0xC02C 2) = counter s (counterNo 0xC02C 2) + 1 := by
  unfold sendAnswer
  rw [if_neg refused]
  exact counter_bump_same s (counterNo 0xC02C 2) 1

/-- A session once the answer `msg` to its request `seq` is kept (R400). -/
def answeredSession (seq : Nat) (msg : List Byte) (x : Session) : Session :=
  { x with kept := ((seq, msg) :: x.kept).take 8, executing := x.executing.filter fun e => decide (e.1 ≠ seq) }

/-- The protocol version that an answer in session `id` is written in (R395). -/
def answerVersion (s : State) (id : Nat) : Nat := match session? s id with | some x => x.protocol | none => 0x0203

/-- What an answer leaves: the session's own record, the counters, and the message that is sent. -/
structure Answered (s t : State) (id seq : Nat) (via : Transport) (st : Status) (msg : List Byte) : Prop where
  sent : t.out = s.out ++ [Out.message via msg]
  counted : counter t (counterNo 0xC02C 1) = counter s (counterNo 0xC02C 1) + 1
  refused : st ≠ .ok → counter t (counterNo 0xC02C 2) = counter s (counterNo 0xC02C 2) + 1
  counters : ∀ n, n ≠ counterNo 0xC02C 1 → n ≠ counterNo 0xC02C 2 → counter t n = counter s n
  sessions : t.spr.sessions = (updSession s id (answeredSession seq msg)).spr.sessions
  touched : t = { s with spr := { s.spr with sessions := t.spr.sessions }, perf := t.perf, out := t.out }

theorem answered_finish (s : State) (id seq reqId type : Nat) (via : Transport) (st : Status) (body : List Byte) :
    Answered s (finish s id seq reqId type via st body) id seq via st
      (message seq type 0x80 (st.sent (answerVersion s id)) id reqId body) := by
  have made : finish s id seq reqId type via st body = sendAnswer (bumpC (updSession s id (answeredSession seq
      (message seq type 0x80 (st.sent (answerVersion s id)) id reqId body))) 0xC02C 1) via st
      (message seq type 0x80 (st.sent (answerVersion s id)) id reqId body) := rfl
  rw [made]
  generalize message seq type 0x80 (st.sent (answerVersion s id)) id reqId body = msg
  have counters : ∀ n, counter (updSession s id (answeredSession seq msg)) n = counter s n := fun _ => rfl
  have frame := updSession_frame s id (answeredSession seq msg)
  generalize made : updSession s id (answeredSession seq msg) = u at counters frame ⊢
  obtain ⟨perf, sent⟩ := sendAnswer_frame (bumpC u 0xC02C 1) via st msg
  refine ⟨?_, ?_, fun refused => ?_, fun n one two => ?_, ?_, ?_⟩
  · rw [sendAnswer_out]; rw [frame]; rfl
  · rw [counter_sendAnswer_other _ _ _ _ (by decide), ← counters]; exact counter_bump_same u (counterNo 0xC02C 1) 1
  · rw [counter_sendAnswer_refused _ _ _ refused, ← counters (counterNo 0xC02C 2)]
    exact congrArg (· + 1) (counter_bump_other u (by decide) 1)
  · rw [counter_sendAnswer_other _ _ _ _ two, ← counters]; exact counter_bump_other u one 1
  · rw [sent, made]; rfl
  · rw [sent, frame]; rfl

theorem answerVersion_of {s : State} {id : Nat} {x : Session} (found : session? s id = some x) : answerVersion s id = x.protocol := by
  unfold answerVersion; rw [found]

/-! ### The execution of a request (R394, R400) -/

theorem takenState_eq (s : State) (r : Req) :
    updSession (updSession s r.session fun x => { x with lastRequest := s.time.clock, source := r.via }) r.session
      (fun y => { y with high := some r.seq }) = takenState s r := 
  updSession_updSession s r.session (f := fun x => { x with lastRequest := s.time.clock, source := r.via }) (fun _ => rfl) _

theorem session?_takenState {s : State} {r : Req} {x : Session} (found : session? s r.session = some x) :
    session? (takenState s r) r.session = some (takenSession s r x) :=
  session?_updSession_same (f := takenSession s r) (fun _ => rfl) found

/-- What becomes of request `r` once it has been executed: it is answered, or noted in its session while the answer comes later. -/
def concluded (r : Req) (type : Nat) : State × Option (Status × List Byte) → State
  | (u, some (st, body)) => finish u r.session r.seq r.reqId type r.via st body
  | (u, none) => updSession u r.session fun y => { y with executing := y.executing ++ [(r.seq, r.via)] }

/-- A fresh request is executed by `f` on the state and the session that it finds. -/
theorem withRequest_concluded {s : State} {r : Req} {x : Session} {since : Nat} (fresh : freshRequest s r x since) (type : Nat)
    (f : State → Session → State × Option (Status × List Byte)) :
    withRequest s r type since f = concluded r type (f (takenState s r) (takenSession s r x)) := by
  obtain ⟨serving, open', found, tag, high, room, version, -⟩ := fresh
  unfold withRequest
  rw [if_neg (by rw [serving]; decide), if_neg (by rw [open']; decide), found]
  dsimp only
  rw [if_neg (fun bad => tag.elim bad.1 fun ok => Bool.noConfusion (ok.symm.trans bad.2))]
  refine (if_neg ?_).trans ?_
  · cases e : x.high with
    | none => simp
    | some h => simp [high h e]
  · rw [if_neg (Nat.not_le.2 room), if_neg (Nat.not_lt.2 version), takenState_eq]
    rfl

theorem withRequest_fresh {s : State} {r : Req} {x : Session} {since : Nat} (fresh : freshRequest s r x since) (type : Nat)
    {f : State → Session → State × Option (Status × List Byte)} {u : State} {st : Status} {body : List Byte}
    (executed : f (takenState s r) (takenSession s r x) = (u, some (st, body))) :
    withRequest s r type since f = finish u r.session r.seq r.reqId type r.via st body := by
  rw [withRequest_concluded fresh, executed]; rfl

theorem withRequest_later {s : State} {r : Req} {x : Session} {since : Nat} (fresh : freshRequest s r x since) (type : Nat)
    {f : State → Session → State × Option (Status × List Byte)} {u : State}
    (executed : f (takenState s r) (takenSession s r x) = (u, none)) :
    withRequest s r type since f = updSession u r.session fun y => { y with executing := y.executing ++ [(r.seq, r.via)] } := by
  rw [withRequest_concluded fresh, executed]; rfl

end Sys2Proof.Proofs.Requests

/-!
Events of the management complex (R365, R375, R377 to R379, R383, R384, R434): the timeout of a transaction and its late response, the
window into the fabric, a core's MPU registers, the return from an exception and the post register.
-/

namespace Sys2Proof.Proofs.ManagementEvents

open Sys2Proof Sys2Proof.Machine Sys2Proof.Laws Sys2Proof.Proofs.Shared Sys2Proof.Proofs.BusAccesses

/-! ### The timeout of a transaction (R375) -/

theorem execBusTimeout_found {m : Fin 6} {i : Fin 16} {x : BusTxn} {s : State}
    (found : (outstanding s m).find? (fun y => decide (y.id = i.val)) = some x) :
    ∃ u : State, u = { s with mgmt := { s.mgmt with
        outstanding := tabSet [] m.val ((outstanding s m).erase x) s.mgmt.outstanding
        held := mapFirst (heldBy m.val i.val false) (fun h => { h with late := true }) s.mgmt.held } } ∧
      execBusTimeout m i s =
        .next (busError (bumpC (raiseFault u 446 0 (m.val * 2 ^ 40 + x.addr)) 0xC02B 4) m i x.addr .timeout) := by
  unfold execBusTimeout
  rw [found]
  exact ⟨_, rfl, rfl⟩

theorem timed_out (m : Fin 6) (i : Fin 16) (x : BusTxn) (s : State)
    (found : (outstanding s m).find? (fun y => decide (y.id = i.val)) = some x) :
    ∃ t : State, exec (.busTimeout m i) s = .next t ∧ outstanding t m = (outstanding s m).erase x ∧
      t.mgmt.held = mapFirst (heldBy m.val i.val false) (fun h => { h with late := true }) s.mgmt.held ∧
      t.out = s.out ++ [Out.busError m i .timeout] ∧ (tabFind? 446 t.flt.pairs).isSome = true ∧
      counter t (counterNo 0xC02B 4) = counter s (counterNo 0xC02B 4) + 1 ∧
      t = { s with od := t.od, flt := t.flt, perf := t.perf, mgmt := { s.mgmt with outstanding := t.mgmt.outstanding, held := t.mgmt.held, cores := t.mgmt.cores }, out := t.out } := by
  obtain ⟨u, made, run⟩ := execBusTimeout_found found
  have left : outstanding u m = (outstanding s m).erase x := by
    unfold outstanding; rw [made]; exact tabGet_set_same ..
  have reported : (tabFind? 446 (raiseFault u 446 0 (m.val * 2 ^ 40 + x.addr)).flt.pairs).isSome = true := raiseReport_some ..
  have frame : ∃ flt, raiseFault u 446 0 (m.val * 2 ^ 40 + x.addr) = { u with flt := flt } := ⟨_, raiseFault_frame ..⟩
  generalize raiseFault u 446 0 (m.val * 2 ^ 40 + x.addr) = v at run reported frame
  obtain ⟨flt, frame⟩ := frame
  have refused := refused_busError (bumpC v 0xC02B 4) m i x.addr .timeout
  have apart : counterNo 0xC02B 4 ≠ counterNo 0xC02B 1 := by decide
  generalize busError (bumpC v 0xC02B 4) m i x.addr .timeout = t at run refused
  have touched := refused.touched
  refine ⟨t, run, ?_, ?_, refused.answered.trans ?_, ?_, (refused.counters _ apart).trans ?_, ?_⟩
  · rw [← left, touched, frame]; rfl
  · rw [touched, frame, made]; rfl
  · rw [frame, made]; rfl
  · rw [touched]; exact reported
  · rw [frame, made]; exact counter_bump_same s (counterNo 0xC02B 4) 1
  · rw [touched, frame, made]; rfl

/-! ### What a target leaves of the transactions it holds (R369, R374, R375) -/

/-- An access that a target serves leaves the held transactions and the count of late responses. -/
structure Served (s t : State) : Prop where
  held : t.mgmt.held = s.mgmt.held
  count : counter t (counterNo 0xC02B 5) = counter s (counterNo 0xC02B 5)

theorem Served.trans {s t u : State} (first : Served s t) (next : Served t u) : Served s u :=
  ⟨next.held.trans first.held, next.count.trans first.count⟩

theorem Served.emit {s t : State} (served : Served s t) (o : Out) : Served s (emit t o) := ⟨served.held, served.count⟩

theorem served_busError (s : State) (m id a : Nat) (e : BusErr) : Served s (busError s m id a e) := by
  have refused := refused_busError s m id a e
  exact ⟨by rw [refused.touched], refused.counters _ (by decide)⟩

theorem served_busData (s : State) (m id : Nat) (d : List Byte) : Served s (busData s m id d) := ⟨rfl, rfl⟩

theorem served_drawn (s : State) (m id : Nat) (d : List Byte) : Served s (busData (drawn s) m id d) := ⟨rfl, rfl⟩

theorem served_sramWrite (ok : Nat → Bool) (d : List Byte) : ∀ (s : State) (a : Nat), Served s (sramWrite s ok a d) := by
  induction d with
  | nil => exact fun s a => ⟨rfl, rfl⟩
  | cons b d ih =>
    intro s a
    unfold sramWrite
    extract_lets mgmt u
    have first : Served s u := by
      by_cases through : ok a
      · rw [show u = _ from if_pos through]; exact ⟨rfl, rfl⟩
      · rw [show u = s from if_neg through]; exact ⟨rfl, rfl⟩
    exact first.trans (ih u (a + 1))

theorem sramWrite_quiet (ok : Nat → Bool) (d : List Byte) : ∀ (s : State) (a : Nat), (sramWrite s ok a d).out = s.out := by
  induction d with
  | nil => exact fun s a => rfl
  | cons b d ih =>
    intro s a
    unfold sramWrite
    dsimp only
    rw [ih]
    split
    · rfl
    · rfl

theorem served_sramAtomic (s : State) (m id a : Nat) (c : Option (List Byte)) (d : List Byte) : Served s (sramAtomic s m id a c d) := by
  unfold sramAtomic
  split
  · extract_lets old go
    cases go
    · exact served_busData ..
    · exact (served_sramWrite _ d s a).emit _
  · exact served_busError ..

theorem served_mpuCommit (s : State) (k : Nat) : Served s (Machine.mpuCommit s k) :=
  ⟨rfl, counter_bump_other _ (by decide) 1⟩

theorem served_mpuRegAccess (s : State) (m id a : Nat) (k : BusKind) : Served s (mpuRegAccess s m id a k) := by
  unfold mpuRegAccess
  extract_lets core o c
  split
  · exact served_busData ..
  · extract_lets v
    split
    · exact served_busError ..
    · next u granted =>
      have set : Served s u := ⟨rfl, rfl⟩
      clear_value u
      refine Served.emit ?_ _
      split
      · exact set.trans (served_mpuCommit u core)
      · split
        · exact set.trans ⟨rfl, rfl⟩
        · exact set
  · exact served_busError ..

theorem agentWritten_perf (s : State) : (agentWritten s).perf = s.perf ∧ (agentWritten s).mgmt = s.mgmt := by
  unfold agentWritten
  extract_lets t
  split
  · exact ⟨rfl, rfl⟩
  · exact ⟨rfl, rfl⟩

theorem served_agentWritten (s : State) : Served s (agentWritten s) := by
  obtain ⟨perf, mgmt⟩ := agentWritten_perf s
  exact ⟨by rw [mgmt], by unfold counter; rw [perf]⟩

theorem served_apertureAccess (s : State) (m id o : Nat) (k : BusKind) : Served s (Machine.apertureAccess s m id o k) := by
  unfold Machine.apertureAccess
  extract_lets a
  split
  · exact served_busError ..
  · split
    · exact served_drawn ..
    · exact served_drawn ..
    · split
      · exact served_drawn ..
      · exact served_busError ..
    · split
      · exact served_drawn ..
      · exact served_busError ..
    · split
      · exact (served_agentWritten s).emit _
      · exact served_busError ..
    · exact served_busError ..

theorem served_eventPost {s u : State} {code : Nat} {d : BitVec 192} (posted : eventPost s code d = some u) : Served s u := by
  unfold eventPost at posted
  split at posted
  · cases posted
    obtain ⟨flt, frame⟩ := logAppend_frame s 0x0200 code 0 false 0 d
    unfold logInfo
    rw [frame]
    exact ⟨rfl, rfl⟩
  · cases posted

theorem served_serveTarget (s : State) (r : BusReq) (tg : Target) (ok : Nat → Bool) : Served s (serveTarget s r tg ok) := by
  unfold serveTarget
  extract_lets m id a
  split
  · exact served_busData ..
  · exact served_busData ..
  · exact (served_sramWrite ..).emit _
  · exact served_sramAtomic ..
  · exact served_sramAtomic ..
  · exact served_drawn ..
  · exact served_drawn ..
  · exact served_busData ..
  · exact served_mpuRegAccess ..
  · exact served_apertureAccess ..
  · exact served_busData ..
  · refine Served.emit ?_ _
    split
    · exact ⟨rfl, rfl⟩
    · exact ⟨rfl, rfl⟩
  · split
    · split
      · next posted => exact (served_eventPost posted).emit _
      · exact served_busError ..
    · exact Served.emit ⟨rfl, rfl⟩ _
  · exact served_drawn ..
  · exact Served.emit ⟨rfl, rfl⟩ _
  · exact served_busError ..

/-! ### A late response (R374, R375) -/

/-- What a target does for a transaction that is over sends no answer. -/
theorem served_unanswered {s t : State} (served : Served s t) : Served s (unanswered s t) ∧ (unanswered s t).out = s.out := by
  unfold unanswered
  split
  · exact ⟨⟨rfl, rfl⟩, rfl⟩
  · exact ⟨⟨served.held, served.count⟩, rfl⟩

theorem serveHeld_late {s : State} {h : HeldTxn} {tg : Target} (found : targetOf h.req.addr.toNat = some tg) (late : h.late = true) :
    serveHeld s h = bumpC (unanswered s (serveTarget s h.req tg (letsThrough h.deny))) 0xC02B 5 := by
  unfold serveHeld
  rw [found]
  exact if_pos late

/-- Nothing else waits for a target that no held transaction names. -/
theorem serveNext_none {s : State} {n : Nat} (none' : ∀ x ∈ s.mgmt.held, x.target ≠ n) (fuel : Nat) : serveNext n fuel s = s := by
  cases fuel with
  | zero => rfl
  | succ fuel =>
    unfold serveNext
    rw [List.find?_eq_none.2 fun x member => by simpa using none' x member]

theorem late_of_heldBy {m id : Nat} {late : Bool} {h : HeldTxn} (by' : heldBy m id late h = true) : h.late = late := by
  unfold heldBy at by'
  exact beq_iff_eq.1 (Bool.and_eq_true_iff.1 by').2

/-- The response of the one transaction that waits for its target (R374). -/
theorem execLateResponse_last {m : Fin 6} {i : Fin 16} {h : HeldTxn} {s t : State}
    (found : s.mgmt.held.find? (heldBy m.val i.val true) = some h)
    (first : s.mgmt.held.find? (fun x => decide (x.target = h.target)) = some h)
    (served : serveHeld { s with mgmt := { s.mgmt with held := s.mgmt.held.erase h } } h = t)
    (kept : t.mgmt.held = s.mgmt.held.erase h) (last : ∀ x : HeldTxn, x ∈ s.mgmt.held.erase h → x.target ≠ h.target) :
    execLateResponse m i s = .next t := by
  unfold execLateResponse
  rw [found]
  dsimp only
  rw [first, if_pos rfl, served, serveNext_none (by rw [kept]; exact last)]

theorem late_response (m : Fin 6) (i : Fin 16) (h : HeldTxn) (tg : Target) (s : State)
    (found : s.mgmt.held.find? (heldBy m.val i.val true) = some h)
    (first : s.mgmt.held.find? (fun x => decide (x.target = h.target)) = some h) (target : targetOf h.req.addr.toNat = some tg)
    (last : ∀ x : HeldTxn, x ∈ s.mgmt.held.erase h → x.target ≠ h.target) :
    ∃ t : State, exec (.lateResponse m i) s = .next t ∧ t.out = s.out ∧ t.mgmt.held = s.mgmt.held.erase h ∧
      counter t (counterNo 0xC02B 5) = counter s (counterNo 0xC02B 5) + 1 := by
  have released : ∃ u : State, u = { s with mgmt := { s.mgmt with held := s.mgmt.held.erase h } } := ⟨_, rfl⟩
  obtain ⟨u, made⟩ := released
  obtain ⟨served, out⟩ := served_unanswered (served_serveTarget u h.req tg (letsThrough h.deny))
  have response := serveHeld_late (s := u) target (late_of_heldBy (List.find?_some found))
  generalize unanswered u (serveTarget u h.req tg (letsThrough h.deny)) = v at response served out
  have kept : (bumpC v 0xC02B 5).mgmt.held = s.mgmt.held.erase h := served.held.trans (by rw [made])
  refine ⟨bumpC v 0xC02B 5, execLateResponse_last found first (made ▸ response) kept last, out.trans (by rw [made]), kept, ?_⟩
  refine (counter_bump_same v (counterNo 0xC02B 5) 1).trans (congrArg (· + 1) (served.count.trans ?_))
  rw [made]; rfl

/-- A held write of the SRAM is performed when its response comes (log entry 50). -/
theorem late_write (m : Fin 6) (i : Fin 16) (h : HeldTxn) (d : List Byte) (s : State)
    (found : s.mgmt.held.find? (heldBy m.val i.val true) = some h)
    (first : s.mgmt.held.find? (fun x => decide (x.target = h.target)) = some h) (target : targetOf h.req.addr.toNat = some .sram)
    (kind : h.req.kind = .write d) (last : ∀ x : HeldTxn, x ∈ s.mgmt.held.erase h → x.target ≠ h.target) :
    exec (.lateResponse m i) s = .next (bumpC (sramWrite { s with mgmt := { s.mgmt with held := s.mgmt.held.erase h } }
      (letsThrough h.deny) h.req.addr.toNat d) 0xC02B 5) := by
  have released : ∃ u : State, u = { s with mgmt := { s.mgmt with held := s.mgmt.held.erase h } } := ⟨_, rfl⟩
  obtain ⟨u, made⟩ := released
  rw [← made]
  have stored : serveTarget u h.req .sram (letsThrough h.deny) =
      busAck (sramWrite u (letsThrough h.deny) h.req.addr.toNat d) h.req.master.val h.req.id.val := by
    unfold serveTarget; dsimp only; rw [kind]
  have response := serveHeld_late (s := u) target (late_of_heldBy (List.find?_some found))
  have quiet := sramWrite_quiet (letsThrough h.deny) d u h.req.addr.toNat
  have served := (served_sramWrite (letsThrough h.deny) d u h.req.addr.toNat).held
  rw [stored] at response
  generalize sramWrite u (letsThrough h.deny) h.req.addr.toNat d = v at response quiet served ⊢
  have silent : unanswered u (busAck v h.req.master.val h.req.id.val) = v := by
    unfold unanswered
    rw [show (busAck v h.req.master.val h.req.id.val).out.getLast? = some (Out.busAck h.req.master.val h.req.id.val) from
      List.getLast?_concat ..]
    show { v with out := u.out } = v
    rw [← quiet]
  rw [silent] at response
  exact execLateResponse_last found first (made ▸ response) (served.trans (by rw [made])) last

/-! ### The window into the fabric (R377 to R379) -/

theorem aperture_selected (v : BitVec 32) (s : State) :
    ∃ t : State, exec (.apertureSelectWrite v) s = .next t ∧ odGet t 0x9006 1 = v.toNat % 1024 ∧ t = { s with od := t.od } :=
  ⟨apertureSelect s v.toNat, rfl, odGet_odSet_same .., rfl⟩

theorem aperture_read (m : Fin 6) (i : Fin 16) (o : Fin 0x40000000) (x n : Nat) (s : State) (on : s.pow.mainOn = true)
    (lpddr : fabricAddr (odGet s 0x9006 1 * 2 ^ 30 + o.val) = .lpddr x) :
    Machine.apertureAccess s m.val i.val o.val (.read n) = busData (drawn s) m.val i.val (lpddrRead s x n) := by
  unfold Machine.apertureAccess
  extract_lets a
  rw [on, lpddr]
  rfl

theorem aperture_mainOff (m : Fin 6) (i : Fin 16) (o : Fin 0x40000000) (k : BusKind) (s : State) (off : s.pow.mainOn = false) :
    Machine.apertureAccess s m.val i.val o.val k = busError s m.val i.val (0x80000000 + o.val) .mainOff := by
  unfold Machine.apertureAccess
  extract_lets a
  rw [off]
  rfl

theorem aperture_write (m : Fin 6) (i : Fin 16) (o : Fin 0x40000000) (n g : Nat) (d : List Byte) (s : State) (on : s.pow.mainOn = true)
    (agent : fabricAddr (odGet s 0x9006 1 * 2 ^ 30 + o.val) = .agent n g) (reachable : agentReachable s n g = true) :
    Machine.apertureAccess s m.val i.val o.val (.write d) = busAck (agentWritten s) m.val i.val := by
  unfold Machine.apertureAccess
  extract_lets a
  rw [on, agent]
  exact if_pos reachable

/-! ### MPU registers (R383, R384) -/

theorem mpu_committed (k : Fin 4) (s : State) : ∃ t : State, exec (.mpuCommit k) s = .next t ∧
    coreSt t k = { coreSt s k with activeB := !(coreSt s k).activeB, epoch := (coreSt s k).epoch + 1, refetch := true } ∧
    (∀ j : Nat, j ≠ k.val → coreSt t j = coreSt s j) ∧ counter t (counterNo 0xC02B 6) = counter s (counterNo 0xC02B 6) + 1 ∧
    t = { s with perf := t.perf, mgmt := { s.mgmt with cores := t.mgmt.cores } } :=
  ⟨Machine.mpuCommit s k, rfl, coreSt_setCore_same .., fun _ apart => coreSt_setCore_other s _ apart,
    counter_bump_same s (counterNo 0xC02B 6) 1, rfl⟩

theorem setRegion_true (c : CoreSt) (j : Nat) (v : BitVec 128) :
    setRegion c true j v = { c with setB := tabSet (regReset true j) j (regMask v) c.setB } := if_pos rfl

theorem setRegion_false (c : CoreSt) (j : Nat) (v : BitVec 128) :
    setRegion c false j v = { c with setA := tabSet (regReset false j) j (regMask v) c.setA } := if_neg Bool.false_ne_true

theorem regionOf_true (c : CoreSt) (j : Nat) : regionOf c true j = tabGet (regReset true j) j c.setB := by
  unfold regionOf; rw [if_pos rfl]

theorem regionOf_false (c : CoreSt) (j : Nat) : regionOf c false j = tabGet (regReset false j) j c.setA := by
  unfold regionOf; rw [if_neg Bool.false_ne_true]

theorem setRegion_active (c : CoreSt) (b : Bool) (j : Nat) (v : BitVec 128) : (setRegion c b j v).activeB = c.activeB := by
  cases b
  · rw [setRegion_false]
  · rw [setRegion_true]

theorem regionOf_setRegion_same (c : CoreSt) (b : Bool) (j : Nat) (v : BitVec 128) : regionOf (setRegion c b j v) b j = regMask v := by
  cases b
  · rw [setRegion_false, regionOf_false, tabGet_set_same]
  · rw [setRegion_true, regionOf_true, tabGet_set_same]

theorem regionOf_setRegion_other (c : CoreSt) (b : Bool) {i j : Nat} (apart : i ≠ j) (v : BitVec 128) :
    regionOf (setRegion c b j v) b i = regionOf c b i := by
  cases b
  · rw [setRegion_false, regionOf_false, tabGet_set_other apart, regionOf_false]
  · rw [setRegion_true, regionOf_true, tabGet_set_other apart, regionOf_true]

theorem regionOf_setRegion_not (c : CoreSt) (b : Bool) (i j : Nat) (v : BitVec 128) :
    regionOf (setRegion c (!b) j v) b i = regionOf c b i := by
  cases b
  · rw [Bool.not_false, setRegion_true, regionOf_false, regionOf_false]
  · rw [Bool.not_true, setRegion_false, regionOf_true, regionOf_true]

/-- The copy of a set's regions `l` into the inactive set. -/
def copied (c d : CoreSt) (l : List Nat) : CoreSt :=
  l.foldl (fun d j => setRegion d (!c.activeB) j (regionOf c c.activeB j)) d

theorem copied_active (c : CoreSt) (l : List Nat) : ∀ d, (copied c d l).activeB = d.activeB := by
  induction l with
  | nil => exact fun _ => rfl
  | cons j l ih => exact fun d => (ih _).trans (setRegion_active ..)

theorem regionOf_copied_source (c : CoreSt) (i : Nat) (l : List Nat) :
    ∀ d, regionOf (copied c d l) c.activeB i = regionOf d c.activeB i := by
  induction l with
  | nil => exact fun _ => rfl
  | cons j l ih => exact fun d => (ih _).trans (regionOf_setRegion_not ..)

theorem regionOf_copied_absent (c : CoreSt) {i : Nat} (l : List Nat) (absent : i ∉ l) :
    ∀ d, regionOf (copied c d l) (!c.activeB) i = regionOf d (!c.activeB) i := by
  induction l with
  | nil => exact fun _ => rfl
  | cons j l ih =>
    obtain ⟨apart, rest⟩ := not_or.1 (fun h => absent (List.mem_cons.2 h))
    exact fun d => (ih rest _).trans (regionOf_setRegion_other _ _ apart _)

theorem regionOf_copied (c : CoreSt) {i : Nat} (l : List Nat) (member : i ∈ l) :
    ∀ d, regionOf (copied c d l) (!c.activeB) i = regMask (regionOf c c.activeB i) := by
  induction l with
  | nil => exact absurd member List.not_mem_nil
  | cons j l ih =>
    intro d
    by_cases again : i ∈ l
    · exact ih again _
    · have same : i = j := (List.mem_cons.1 member).resolve_right again
      refine (regionOf_copied_absent c l again _).trans ?_
      rw [same]
      exact regionOf_setRegion_same ..

theorem mpu_copied (k : Fin 4) (s : State) : ∃ t : State, exec (.mpuCopy k) s = .next t ∧ (coreSt t k).activeB = (coreSt s k).activeB ∧
    (∀ j : Nat, j < 32 → regionOf (coreSt t k) (!(coreSt s k).activeB) j = regMask (regionOf (coreSt s k) (coreSt s k).activeB j) ∧
      regionOf (coreSt t k) (coreSt s k).activeB j = regionOf (coreSt s k) (coreSt s k).activeB j) ∧
    (∀ j : Nat, j ≠ k.val → coreSt t j = coreSt s j) ∧ t = { s with mgmt := { s.mgmt with cores := t.mgmt.cores } } := by
  have run : exec (.mpuCopy k) s = .next (setCore s k (copied (coreSt s k) (coreSt s k) (List.range 32))) := rfl
  have own := coreSt_setCore_same s k (copied (coreSt s k) (coreSt s k) (List.range 32))
  refine ⟨_, run, ?_, fun j below => ⟨?_, ?_⟩, fun j apart => coreSt_setCore_other s _ apart, rfl⟩
  · rw [own]; exact copied_active ..
  · rw [own]; exact regionOf_copied _ _ (List.mem_range.2 below) _
  · rw [own]; exact regionOf_copied_source ..

/-! ### The return from an exception (R365) -/

theorem exception_returned (k : Fin 4) (l : Level) (rest : List Level) (s : State) (saved : (coreSt s k).saved = l :: rest) :
    ∃ t : State, exec (.exceptionReturn k) s = .next t ∧ coreSt t k = { coreSt s k with
      level := if (coreSt s k).level.code ≤ l.code then l else (coreSt s k).level, saved := rest } ∧
      (∀ j : Nat, j ≠ k.val → coreSt t j = coreSt s j) ∧
      t = { s with fresh := s.fresh + 1, mgmt := { s.mgmt with cores := t.mgmt.cores } } := by
  have recorded : recordedLevel (coreSt s k) s.fresh = l := by unfold recordedLevel; rw [saved]
  refine ⟨_, rfl, (coreSt_setCore_same ..).trans ?_, fun j apart => coreSt_setCore_other (drawn s) _ apart, rfl⟩
  rw [recorded, saved]
  rfl

/-! ### The post register (R434) -/

/-- The record that `logAppend` makes. -/
def recordOf (s : State) (source code severity : Nat) (rail : Bool) (syndrome : BitVec 64) (data : BitVec 192) : LogEntry :=
  { time := s.time.devTime, seq := BitVec.ofNat 64 s.flt.nextSeq, source := BitVec.ofNat 16 source, code := BitVec.ofNat 16 code,
    severity := BitVec.ofNat 8 severity, rail := rail, undisciplined := undisciplined s, syndrome := syndrome, data := data }

/-- A record that the log takes is its last one, under the next sequence number. -/
theorem logAppend_open {s : State} (thawed : s.flt.frozen = false) (source code severity : Nat) (rail : Bool) (syndrome : BitVec 64)
    (data : BitVec 192) : ∃ log, log.getLast? = some (recordOf s source code severity rail syndrome data) ∧
      logAppend s source code severity rail syndrome data =
        { s with flt := { s.flt with log := log, nextSeq := s.flt.nextSeq + 1 } } := by
  have made : logAppend s source code severity rail syndrome data = { s with flt := { s.flt with
      log := (s.flt.log ++ [recordOf s source code severity rail syndrome data]).drop
        ((s.flt.log ++ [recordOf s source code severity rail syndrome data]).length - 65536)
      nextSeq := s.flt.nextSeq + 1 } } := if_neg (by rw [thawed]; exact Bool.false_ne_true)
  refine ⟨_, ?_, made⟩
  have short : (s.flt.log ++ [recordOf s source code severity rail syndrome data]).length - 65536 ≤ s.flt.log.length := by
    rw [List.length_append, List.length_singleton]; omega
  rw [List.drop_append_of_le_length short]
  exact List.getLast?_concat ..

theorem event_posted (m : Fin 6) (i : Fin 16) (code : BitVec 16) (d : BitVec 192) (s : State) (high : 0x8000 ≤ code.toNat)
    (thawed : s.flt.frozen = false) :
    ∃ t : State, ∃ e : LogEntry, exec (.eventLogPost m i code d) s = .next t ∧ t.out = s.out ++ [Out.busAck m i] ∧
      t.flt.log.getLast? = some e ∧ e.source = 0x0200 ∧ e.code = code ∧ e.data = d ∧ e.seq = BitVec.ofNat 64 s.flt.nextSeq ∧
      t.flt.nextSeq = s.flt.nextSeq + 1 ∧
      t = { s with flt := { s.flt with log := t.flt.log, nextSeq := t.flt.nextSeq }, out := t.out } := by
  obtain ⟨log, newest, logged⟩ := logAppend_open thawed 0x0200 code.toNat 0 false 0 d
  generalize made : { s with flt := { s.flt with log := log, nextSeq := s.flt.nextSeq + 1 } } = u at logged
  have post : eventPost s code.toNat d = some u := (if_pos ⟨high, code.isLt⟩).trans (congrArg some logged)
  have run : execEventLogPost m i code d s = .next (busAck u m i) := by unfold execEventLogPost; rw [post]
  rw [← made] at run
  exact ⟨_, recordOf s 0x0200 code.toNat 0 false 0 d, run, rfl, newest, rfl, (BitVec.ofNat_toNat 16 code).trans (BitVec.setWidth_eq code),
    rfl, rfl, rfl, rfl⟩

theorem event_refused (m : Fin 6) (i : Fin 16) (code : BitVec 16) (d : BitVec 192) (s : State) (low : code.toNat < 0x8000) :
    exec (.eventLogPost m i code d) s = .next (busError s m i 0x08500100 .target) := by
  have post : eventPost s code.toNat d = none := if_neg fun high => Nat.not_lt.2 high.1 low
  show execEventLogPost m i code d s = _
  unfold execEventLogPost
  rw [post]

/-- Settles O46: each event's own effect, with what a target leaves of the transactions it holds (`Served`) for the late response. -/
theorem managementEvents : Obligations.ManagementEvents :=
  ⟨timed_out, late_response, late_write, aperture_selected,
   fun m i o x n s on lpddr => ⟨_, congrArg Host.Outcome.next (aperture_read m i o x n s on lpddr), rfl, rfl⟩,
   fun m i o k s off => ⟨_, congrArg Host.Outcome.next (aperture_mainOff m i o k s off), (refused_busError ..).answered⟩,
   fun m i o n g d s on agent reachable => congrArg Host.Outcome.next (aperture_write m i o n g d s on agent reachable),
   mpu_committed, mpu_copied, exception_returned, event_posted, event_refused⟩

end Sys2Proof.Proofs.ManagementEvents

/-!
Answers of the Sprineno protocol (R395, R397, R400): an executed request, a repeated one, one in no open session, and one with a wrong tag.
-/

namespace Sys2Proof.Proofs.RequestAnswers

open Sys2Proof Sys2Proof.Machine Sys2Proof.Laws Sys2Proof.Proofs.Shared Sys2Proof.Proofs.Requests

theorem session?_answered {s t : State} {id seq : Nat} {via : Transport} {st : Status} {msg : List Byte} {x : Session}
    (answer : Answered s t id seq via st msg) (found : session? s id = some x) :
    session? t id = some (answeredSession seq msg x) :=
  (session?_congr answer.sessions id).trans (session?_updSession_same (fun _ => rfl) found)

theorem executed_answer (id seq reqId type : Nat) (via : Transport) (st : Status) (body : List Byte) (x : Session) (s : State)
    (found : session? s id = some x) :
    let t := finish s id seq reqId type via st body
    let msg := message seq type 0x80 (st.sent x.protocol) id reqId body
    t.out = s.out ++ [Out.message via msg] ∧ counter t (counterNo 0xC02C 1) = counter s (counterNo 0xC02C 1) + 1 ∧
      (st ≠ .ok → counter t (counterNo 0xC02C 2) = counter s (counterNo 0xC02C 2) + 1) ∧
      (∀ y : Session, session? t id = some y → y.kept = ((seq, msg) :: x.kept).take 8 ∧ ∀ e ∈ y.executing, e.1 ≠ seq) ∧
      t = { s with spr := { s.spr with sessions := t.spr.sessions }, perf := t.perf, out := t.out } := by
  intro t msg
  have answer := answered_finish s id seq reqId type via st body
  rw [answerVersion_of found] at answer
  refine ⟨answer.sent, answer.counted, answer.refused, fun y open' => ?_, answer.touched⟩
  obtain rfl : answeredSession seq msg x = y := Option.some.inj ((session?_answered answer found).symm.trans open')
  exact ⟨rfl, fun e member => of_decide_eq_true (List.mem_filter.1 member).2⟩

/-! ### Requests that are not executed -/

/-- The session of request `r` once the request has arrived (R403, R409). -/
def heard (s : State) (r : Req) : State := updSession s r.session fun x => { x with lastRequest := s.time.clock, source := r.via }

/-- Request `r` arrives in the open session `x` with a right tag and a Sequence that has been taken before. -/
structure Old (s : State) (r : Req) (x : Session) (h : Nat) : Prop where
  serving : s.spr.serving = true
  enabled : transportRefuses s r.via = false
  found : session? s r.session = some x
  tag : x.mode = .plain ∨ r.tagOk = true
  high : x.high = some h
  taken : r.seq ≤ h

theorem withRequest_kept {s : State} {r : Req} {x : Session} {h : Nat} (old : Old s r x h) {msg : List Byte}
    (kept : (x.kept.find? fun k => decide (k.1 = r.seq)) = some (r.seq, msg)) (type since : Nat)
    (f : State → Session → State × Option (Status × List Byte)) :
    withRequest s r type since f = emit (heard s r) (.message r.via msg) := by
  obtain ⟨serving, enabled, found, tag, high, taken⟩ := old
  unfold withRequest
  rw [if_neg (by rw [serving]; decide), if_neg (by rw [enabled]; decide), found]
  dsimp only
  rw [if_neg (fun bad => tag.elim bad.1 fun ok => Bool.noConfusion (ok.symm.trans bad.2)), high, kept]
  exact if_pos (by simpa using taken)

theorem withRequest_stale {s : State} {r : Req} {x : Session} {h : Nat} (old : Old s r x h) (gone : ∀ k ∈ x.kept, k.1 ≠ r.seq)
    (idle : ∀ e ∈ x.executing, e.1 ≠ r.seq) (type since : Nat) (f : State → Session → State × Option (Status × List Byte)) :
    withRequest s r type since f =
      sendAnswer (bumpC (heard s r) 0xC02C 6) r.via .stale (message r.seq type 0x80 0x0F r.session r.reqId []) := by
  obtain ⟨serving, enabled, found, tag, high, taken⟩ := old
  have none' : (x.kept.find? fun k => decide (k.1 = r.seq)) = none := List.find?_eq_none.2 fun k member => by simpa using gone k member
  have waits : (x.executing.any fun e => decide (e.1 = r.seq)) = false := by simpa using idle
  unfold withRequest
  rw [if_neg (by rw [serving]; decide), if_neg (by rw [enabled]; decide), found]
  dsimp only
  rw [if_neg (fun bad => tag.elim bad.1 fun ok => Bool.noConfusion (ok.symm.trans bad.2)), high, none']
  refine (if_pos (by simpa using taken)).trans ?_
  dsimp only
  rw [waits]
  rfl

theorem withRequest_noSession {s : State} {r : Req} (serving : s.spr.serving = true) (enabled : transportRefuses s r.via = false)
    (absent : session? s r.session = none) (type since : Nat) (f : State → Session → State × Option (Status × List Byte)) :
    withRequest s r type since f = sendAnswer s r.via .noSession (message r.seq type 0x80 0x0D r.session r.reqId []) := by
  unfold withRequest
  rw [if_neg (by rw [serving]; decide), if_neg (by rw [enabled]; decide), absent]

theorem withRequest_badTag {s : State} {r : Req} {x : Session} (serving : s.spr.serving = true)
    (enabled : transportRefuses s r.via = false) (found : session? s r.session = some x) (secured : x.mode ≠ .plain)
    (tag : r.tagOk = false) (type since : Nat) (f : State → Session → State × Option (Status × List Byte)) :
    withRequest s r type since f = raiseFault s 447 0 (transportNo r.via * 2 ^ 40 + r.session) := by
  unfold withRequest
  rw [if_neg (by rw [serving]; decide), if_neg (by rw [enabled]; decide), found]
  exact if_pos ⟨secured, tag⟩

/-- Settles O47: what an answer leaves (`Answered`), and `withRequest` by what the session has taken and kept. -/
theorem requestAnswers : Obligations.RequestAnswers := by
  refine ⟨executed_answer, fun r x h msg s serving enabled found tag high taken kept => ?_,
    fun r x h s serving enabled found tag high taken gone idle => ?_, fun r s serving enabled absent => ?_,
    fun r x s serving enabled found secured tag => ?_⟩
  · exact ⟨_, congrArg Host.Outcome.next (withRequest_kept ⟨serving, enabled, found, tag, high, taken⟩ kept ..), rfl, rfl⟩
  · refine ⟨_, congrArg Host.Outcome.next (withRequest_stale ⟨serving, enabled, found, tag, high, taken⟩ gone idle ..),
      sendAnswer_out .., ?_⟩
    rw [counter_sendAnswer_other _ _ _ _ (by decide)]
    exact counter_bump_same (heard s r) (counterNo 0xC02C 6) 1
  · obtain ⟨perf, frame⟩ := sendAnswer_frame s r.via .noSession (message r.seq 3 0x80 0x0D r.session r.reqId [])
    refine ⟨_, congrArg Host.Outcome.next ((withRequest_noSession serving enabled absent ..).trans frame), rfl, rfl⟩
  · refine ⟨_, congrArg Host.Outcome.next (withRequest_badTag serving enabled found secured tag ..), raiseReport_some .., ?_⟩
    rw [raiseFault_frame]

end Sys2Proof.Proofs.RequestAnswers

/-!
Sessions, subscriptions and notifies (R402, R403, R407 to R410).
-/

namespace Sys2Proof.Proofs.Sessions

open Sys2Proof Sys2Proof.Machine Sys2Proof.Laws Sys2Proof.Safety Sys2Proof.Proofs.Shared Sys2Proof.Proofs.Requests

/-! ### HELLO (R402, R410) -/

/-- What HELLO answers on an enabled transport. -/
def greeted (seq reqId : BitVec 32) (via : Transport) (pmax omax : BitVec 16) (m : Mode) (mx : BitVec 32) (name : List Byte)
    (spdm : Option Nat) (s : State) : Option Status → State
  | some st => bumpC (sendAnswer s via st (message seq.toNat 1 0x80 st.code.1 0 reqId.toNat [])) 0xC02C 1
  | none =>
    let x := newSession s via pmax.toNat omax.toNat mx.toNat m name spdm
    let body := leBytes 2 x.protocol ++ leBytes 2 x.odVersion ++ [BitVec.ofNat 8 (modeCode m), 0, 0, 0] ++
      leBytes 4 x.maxMessage ++ leBytes 2 (odGet s 0x1100 3) ++ leBytes 2 (odGet s 0x6000 1) ++ serialBytes
    let u := { s with spr := { s.spr with sessions := s.spr.sessions ++ [x], nextSession := nextSessionId x.id } }
    sendAnswer (bumpC (bumpC u 0xC02C 4) 0xC02C 1) via .ok (message seq.toNat 1 0x80 0 x.id reqId.toNat body)

theorem execHello_enabled {seq reqId : BitVec 32} {via : Transport} {pmax omax : BitVec 16} {m : Mode} {mx : BitVec 32}
    {name : List Byte} {spdm : Option Nat} {s : State} (serving : s.spr.serving = true) (enabled : transportEnabled s via = true) :
    execHello seq reqId via pmax omax m mx name spdm s =
      .next (greeted seq reqId via pmax omax m mx name spdm s (helloRefusal s via pmax.toNat omax.toNat mx.toNat m spdm)) := by
  unfold execHello
  rw [if_neg (by rw [serving]; decide)]
  generalize helloRefusal s via pmax.toNat omax.toNat mx.toNat m spdm = refusal
  split
  · next off => exact absurd (enabled.symm.trans off) (by decide)
  · cases refusal with
    | none => rfl
    | some st => rfl

theorem hello_opens (seq reqId : BitVec 32) (via : Transport) (pmax omax : BitVec 16) (m : Mode) (mx : BitVec 32) (name : List Byte)
    (spdm : Option Nat) (s : State) (serving : s.spr.serving = true) (enabled : transportEnabled s via = true)
    (accepted : helloRefusal s via pmax.toNat omax.toNat mx.toNat m spdm = none) :
    ∃ t : State, ∃ (x : Session) (body : List Byte), exec (.hello seq reqId via pmax omax m mx name spdm) s = .next t ∧
      t.spr.sessions = s.spr.sessions ++ [x] ∧ x.id = s.spr.nextSession ∧ x.transport = via ∧ x.mode = m ∧
      x.protocol = min pmax.toNat 0x0203 ∧ x.subs = [] ∧ x.high = none ∧
      t.out = s.out ++ [Out.message via (message seq.toNat 1 0x80 0 x.id reqId.toNat body)] ∧
      counter t (counterNo 0xC02C 4) = counter s (counterNo 0xC02C 4) + 1 ∧
      t = { s with spr := { s.spr with sessions := t.spr.sessions, nextSession := t.spr.nextSession }, perf := t.perf, out := t.out } := by
  have run := execHello_enabled (seq := seq) (reqId := reqId) (name := name) serving enabled (pmax := pmax) (omax := omax) (mx := mx)
    (m := m) (spdm := spdm)
  rw [accepted] at run
  unfold greeted at run
  extract_lets x body spr u at run
  have opened : ∃ l n, u = { s with spr := { s.spr with sessions := l, nextSession := n } } ∧ l = s.spr.sessions ++ [x] :=
    ⟨_, _, rfl, rfl⟩
  have count : counter (bumpC (bumpC u 0xC02C 4) 0xC02C 1) (counterNo 0xC02C 4) = counter u (counterNo 0xC02C 4) + 1 :=
    (counter_bump_other (bumpC u 0xC02C 4) (by decide) 1).trans (counter_bump_same u (counterNo 0xC02C 4) 1)
  have frame : ∃ perf, bumpC (bumpC u 0xC02C 4) 0xC02C 1 = { u with perf := perf } := ⟨_, rfl⟩
  generalize bumpC (bumpC u 0xC02C 4) 0xC02C 1 = v at run count frame
  clear_value u
  obtain ⟨perf, frame⟩ := frame
  obtain ⟨l, n, opened, listed⟩ := opened
  have counted := counter_sendAnswer_other v via .ok (message seq.toNat 1 0x80 0 x.id reqId.toNat body)
    (n := counterNo 0xC02C 4) (by decide)
  obtain ⟨perf', sent⟩ := sendAnswer_frame v via .ok (message seq.toNat 1 0x80 0 x.id reqId.toNat body)
  generalize sendAnswer v via .ok (message seq.toNat 1 0x80 0 x.id reqId.toNat body) = t at run counted sent
  refine ⟨t, x, body, run, ?_, rfl, rfl, rfl, rfl, rfl, rfl, ?_, ?_, ?_⟩
  · rw [sent, frame, opened]; exact listed
  · rw [sent, frame, opened]
  · rw [counted, count, opened]; rfl
  · rw [sent, frame, opened]

theorem hello_refused (seq reqId : BitVec 32) (via : Transport) (pmax omax : BitVec 16) (m : Mode) (mx : BitVec 32) (name : List Byte)
    (spdm : Option Nat) (s : State) (serving : s.spr.serving = true) (enabled : transportEnabled s via = true) (st : Status)
    (refused : helloRefusal s via pmax.toNat omax.toNat mx.toNat m spdm = some st) :
    ∃ t : State, exec (.hello seq reqId via pmax omax m mx name spdm) s = .next t ∧
      t.out = s.out ++ [Out.message via (message seq.toNat 1 0x80 st.code.1 0 reqId.toNat [])] ∧
      t = { s with perf := t.perf, out := t.out } := by
  have run := execHello_enabled (seq := seq) (reqId := reqId) (name := name) serving enabled (pmax := pmax) (omax := omax) (mx := mx)
    (m := m) (spdm := spdm)
  rw [refused] at run
  obtain ⟨perf, sent⟩ := sendAnswer_frame s via st (message seq.toNat 1 0x80 st.code.1 0 reqId.toNat [])
  have done : greeted seq reqId via pmax omax m mx name spdm s (some st) = bumpC
    { s with perf := perf, out := s.out ++ [Out.message via (message seq.toNat 1 0x80 st.code.1 0 reqId.toNat [])] } 0xC02C 1 :=
    congrArg (bumpC · 0xC02C 1) sent
  exact ⟨_, run.trans (congrArg Host.Outcome.next done), rfl, rfl⟩

/-! ### Sessions that close (R403) -/

theorem session?_closeSessions (s : State) {id : Nat} {p : Session → Bool} (closed : ∀ x : Session, x.id = id → p x = true) :
    session? (closeSessions s p) id = none := by
  refine List.find?_eq_none.2 fun x member named => ?_
  have open' := (List.mem_filter.1 member).2
  rw [closed x (of_decide_eq_true named)] at open'
  exact absurd open' (by decide)

theorem mem_closeSessions {s : State} {p : Session → Bool} {x : Session} (member : x ∈ s.spr.sessions) (kept : p x = false) :
    x ∈ (closeSessions s p).spr.sessions := List.mem_filter.2 ⟨member, by rw [kept]; rfl⟩

theorem closeSessions_frame (s : State) (p : Session → Bool) : closeSessions s p =
    { s with spr := { s.spr with sessions := (closeSessions s p).spr.sessions, segs := (closeSessions s p).spr.segs } } := rfl

theorem segs_closeSessions {s : State} {p : Session → Bool} {x : Session} (member : x ∈ s.spr.sessions) (closed : p x = true) :
    ∀ g ∈ (closeSessions s p).spr.segs, g.session ≠ x.id := by
  intro g left same
  have absent := (List.mem_filter.1 left).2
  have gone : ((s.spr.sessions.filter p).map fun x => x.id).contains g.session = true :=
    List.contains_iff_mem.2 (same ▸ List.mem_map.2 ⟨x, List.mem_filter.2 ⟨member, closed⟩, rfl⟩)
  rw [gone] at absent
  exact absurd absent (by decide)

theorem bye_closes (r : Req) (x : Session) (s : State) (fresh : freshRequest s r x 0x0100) :
    ∃ t : State, exec (.bye r) s = .next t ∧ session? t r.session = none ∧ (∀ g ∈ t.spr.segs, g.session ≠ r.session) ∧
      t.out = s.out ++ [Out.message r.via (message r.seq 2 0x80 0 r.session r.reqId [])] ∧
      t = { s with spr := { s.spr with sessions := t.spr.sessions, segs := t.spr.segs }, perf := t.perf, out := t.out } := by
  have run : exec (.bye r) s = .next (finish (closeSessions (takenState s r) fun y => decide (y.id = (takenSession s r x).id))
    r.session r.seq r.reqId 0x02 r.via .ok []) := congrArg Host.Outcome.next (withRequest_fresh fresh 0x02 rfl)
  obtain ⟨serving, enabled, found, rest⟩ := fresh
  have taken := session?_takenState found
  have own : (takenSession s r x).id = r.session := id_of_session? taken
  have absent : session? (closeSessions (takenState s r) fun y => decide (y.id = (takenSession s r x).id)) r.session = none :=
    session?_closeSessions _ fun y named => decide_eq_true (named.trans own.symm)
  have segs := segs_closeSessions (p := fun y => decide (y.id = (takenSession s r x).id)) (mem_of_session? taken) (decide_eq_true rfl)
  have frame : ∃ l g, closeSessions (takenState s r) (fun y => decide (y.id = (takenSession s r x).id)) =
    { s with spr := { s.spr with sessions := l, segs := g } } := ⟨_, _, rfl⟩
  generalize closeSessions (takenState s r) (fun y => decide (y.id = (takenSession s r x).id)) = u at run absent segs frame
  obtain ⟨l, g, frame⟩ := frame
  have answer := answered_finish u r.session r.seq r.reqId 0x02 r.via .ok []
  generalize finish u r.session r.seq r.reqId 0x02 r.via .ok [] = t at run answer
  have version : Status.ok.sent (answerVersion u r.session) = 0 := by unfold answerVersion; rw [absent]; rfl
  have touched := answer.touched
  rw [version] at answer
  refine ⟨t, run, (session?_congr answer.sessions _).trans (session?_updSession_none (fun _ => rfl) absent), ?_, ?_, ?_⟩
  · rw [touched]; exact fun g left same => segs g left (same.trans own.symm)
  · rw [answer.sent, frame]
  · rw [touched, frame]

/-! ### Subscriptions (R407) -/

/-- The subscriptions of all sessions. -/
def allSubs (s : State) : Nat := (s.spr.sessions.map fun y => y.subs.length).foldl (· + ·) 0

theorem allSubs_takenState (s : State) (r : Req) : allSubs (takenState s r) = allSubs s :=
  congrArg (List.foldl (· + ·) 0) (map_updSession s r.session (g := fun y => y.subs.length) fun _ => rfl)

/-- A change `f` of the session that a fresh request finds. -/
theorem session?_executed {s : State} {r : Req} {x : Session} (found : session? s r.session = some x) {f : Session → Session}
    (keeps : KeepsId f) : session? (updSession (takenState s r) (takenSession s r x).id f) r.session = some (f (takenSession s r x)) := by
  have taken := session?_takenState found
  rw [id_of_session? taken]
  exact session?_updSession_same keeps taken

theorem subscribe_group (r : Req) (x : Session) (g : Byte) (i : BitVec 16) (n : BitVec 32) (s : State) (fresh : freshRequest s r x 0x0200)
    (low : 1 ≤ g.toNat) (high : g.toNat ≤ 12) (own : x.subs.length < 64)
    (all : (s.spr.sessions.map fun y => y.subs.length).foldl (· + ·) 0 < 1024) :
    ∃ u : State, exec (.subscribe r 2 g i n) s = .next (finish u r.session r.seq r.reqId 0x0C r.via .ok (leBytes 2 x.nextSub)) ∧
      (∀ y : Session, session? u r.session = some y → y.nextSub = x.nextSub + 1 ∧ y.subs = x.subs ++
        [{ number := x.nextSub, kind := 2, index := 0, sub := g.toNat, intervalMs := 0, lastValue := none, lastTime := 0 }]) ∧
      u = { s with spr := { s.spr with sessions := u.spr.sessions } } := by
  have room : ¬ (64 ≤ (takenSession s r x).subs.length ∨ 1024 ≤ allSubs (takenState s r)) := by
    rw [allSubs_takenState]
    exact fun full => full.elim (Nat.not_le.2 own) (Nat.not_le.2 all)
  have found : session? s r.session = some x := fresh.2.2.1
  refine ⟨_, congrArg Host.Outcome.next (withRequest_fresh fresh 0x0C
    (((if_neg (by decide)).trans (if_pos rfl)).trans ((if_pos ⟨low, high⟩).trans (if_neg room)))), fun y open' => ?_, rfl⟩
  have made := session?_executed found (f := fun y => { y with
    subs := y.subs ++ [{ number := x.nextSub, kind := 2, index := 0, sub := g.toNat, intervalMs := 0, lastValue := none, lastTime := 0 }]
    nextSub := y.nextSub + 1 }) fun _ => rfl
  obtain rfl := Option.some.inj (made.symm.trans open')
  exact ⟨rfl, rfl⟩

theorem unsubscribe_one (r : Req) (x : Session) (b : Subscription) (n : BitVec 16) (s : State) (fresh : freshRequest s r x 0x0200)
    (member : b ∈ x.subs) (number : b.number = n.toNat) :
    ∃ u : State, exec (.unsubscribe r n) s = .next (finish u r.session r.seq r.reqId 0x0D r.via .ok []) ∧
      (∀ y : Session, session? u r.session = some y → y.subs = x.subs.filter fun c => decide (c.number ≠ n.toNat)) ∧
      u = { s with spr := { s.spr with sessions := u.spr.sessions } } := by
  have known : ((takenSession s r x).subs.any fun b => decide (b.number = n.toNat)) = true :=
    List.any_eq_true.2 ⟨b, member, decide_eq_true number⟩
  have found : session? s r.session = some x := fresh.2.2.1
  refine ⟨_, congrArg Host.Outcome.next (withRequest_fresh fresh 0x0D (if_pos known)), fun y open' => ?_, rfl⟩
  have made := session?_executed found (f := fun y => { y with subs := y.subs.filter fun b => decide (b.number ≠ n.toNat) }) fun _ => rfl
  obtain rfl := Option.some.inj (made.symm.trans open')
  rfl

/-! ### Notifies (R408, R409) -/

/-- A session once a NOTIFY has carried the first `n` records of its queue. -/
def notified (n : Nat) (x : Session) : Session := { x with queue := x.queue.drop n, notifySeq := (x.notifySeq + 1) % 2 ^ 32 }

theorem sendNotify_queued {s : State} {id : Nat} {x : Session} (found : session? s id = some x) (queued : x.queue ≠ [])
    (quiet : dueRecords s x = []) : sendNotify s id =
      emit (updSession (bumpCBy s 0xC02C 5 0) id fun _ => notified ((x.maxMessage - 16) / 32) x)
        (.message x.source (message x.notifySeq 0x0E 0x40 0 id 0
          ((x.queue.take ((x.maxMessage - 16) / 32)).flatMap NotifyRec.bytes))) := by
  have due : queueDue s x = (x, 0) := by unfold queueDue; rw [quiet]; rfl
  unfold sendNotify
  rw [found]
  dsimp only
  rw [due]
  exact if_neg (by simpa using queued)

theorem notify_sends (id : Nat) (x : Session) (s : State) (found : session? s id = some x) (queued : x.queue ≠ [])
    (quiet : dueRecords s x = []) : ∃ t : State, sendNotify s id = t ∧ t.out = s.out ++ [Out.message x.source (message x.notifySeq 0x0E 0x40 0 id 0
        ((x.queue.take ((x.maxMessage - 16) / 32)).flatMap NotifyRec.bytes))] ∧
      (∀ y : Session, session? t id = some y → y.queue = x.queue.drop ((x.maxMessage - 16) / 32)) ∧
      t = { s with spr := { s.spr with sessions := t.spr.sessions }, perf := t.perf, out := t.out } := by
  refine ⟨_, sendNotify_queued found queued quiet, rfl, fun y open' => ?_, rfl⟩
  have member := List.mem_of_find?_eq_some (show List.find? _ _ = some y from open')
  have named : y.id = id := id_of_session? open'
  obtain ⟨z, -, made⟩ := List.mem_map.1 member
  by_cases own : z.id = id
  · rw [if_pos own] at made; rw [← made]; rfl
  · rw [if_neg own] at made; exact absurd (made ▸ named) own

theorem mailbox_disabled (v : Fin 64) (s : State) (serving : s.spr.serving = true) (off : transportEnabled s (.mailbox v.val) = false) :
    exec (.mailboxNotifyFetch v) s = .next (emit s (.mailboxUnsupported v)) := by
  show execMailboxNotifyFetch v s = _
  unfold execMailboxNotifyFetch
  rw [if_neg (by rw [serving]; decide), if_neg (by rw [off]; decide)]

theorem mailbox_fetches (v : Fin 64) (x : Session) (s : State) (serving : s.spr.serving = true)
    (on : transportEnabled s (.mailbox v.val) = true)
    (single : (s.spr.sessions.filter fun y => decide (y.transport = .mailbox v.val)) = [x]) :
    exec (.mailboxNotifyFetch v) s = .next (sendNotify s x.id) := by
  show execMailboxNotifyFetch v s = _
  unfold execMailboxNotifyFetch
  rw [if_neg (by rw [serving]; decide), if_pos on, single]
  rfl

/-- Settles O48: HELLO by what it refuses, the requests by their execution on the state and session that they find, NOTIFY by what is
queued. -/
theorem sessions : Obligations.Sessions := by
  refine ⟨fun seq reqId via pmax omax m mx name spdm s serving enabled =>
      ⟨hello_opens seq reqId via pmax omax m mx name spdm s serving enabled,
       hello_refused seq reqId via pmax omax m mx name spdm s serving enabled⟩,
    fun r x s fresh => congrArg Host.Outcome.next (withRequest_fresh fresh 0x03 rfl), bye_closes,
    fun id s => ⟨_, rfl, session?_closeSessions s fun x named => decide_eq_true named,
      fun x member other => mem_closeSessions member (decide_eq_false other), rfl⟩,
    fun s => ⟨_, rfl, fun x member usb => ?_, fun x member other => mem_closeSessions member (decide_eq_false other), rfl⟩,
    subscribe_group, unsubscribe_one, fun id x s found pushed queued quiet => ?_,
    fun v x s serving on single found queued quiet => ?_, mailbox_disabled⟩
  · have open' : (!decide (x.transport = .usb)) = true := (List.mem_filter.1 member).2
    rw [decide_eq_true usb] at open'
    exact absurd open' (by decide)
  · obtain ⟨t, sent, out, queue, touched⟩ := notify_sends id.toNat x s found queued quiet
    refine ⟨t, ?_, out, queue, touched⟩
    show execNotify id s = _
    unfold execNotify
    rw [found]
    exact (if_pos pushed).trans (congrArg Host.Outcome.next sent)
  · obtain ⟨t, sent, out, -, touched⟩ := notify_sends x.id x s found queued quiet
    exact ⟨t, (mailbox_fetches v x s serving on single).trans (congrArg Host.Outcome.next sent), out, touched⟩

end Sys2Proof.Proofs.Sessions

/-!
READ, WRITE, DESCRIBE, segmented transfer and COMMAND (R386, R388, R389, R393, R398, R399, R405, R406): each is executed on the state
and the session that its request finds.
-/

namespace Sys2Proof.Proofs.DictionaryRequests

open Sys2Proof Sys2Proof.Machine Sys2Proof.Laws Sys2Proof.Safety Sys2Proof.Proofs.Shared Sys2Proof.Proofs.Requests

/-! ### READ (R386, R388, R399) -/

theorem read_items (r : Req) (x : Session) (items : List (BitVec 16 × Byte)) (s : State) (fresh : freshRequest s r x 0x0100)
    (some' : items ≠ []) (few : items.length ≤ maxItems x.protocol) :
    ∃ u : State, ∃ (st : Status) (b : List Byte), exec (.read r items) s = .next (finish u r.session r.seq r.reqId 4 r.via st b) ∧
      (u, st, b) = readItems (takenState s r) (takenSession s r x) (items.map fun i => (i.1.toNat, i.2.toNat)) :=
  ⟨_, _, _, congrArg Host.Outcome.next (withRequest_fresh fresh 0x04
    (if_neg fun bad => bad.elim (fun none' => some' (List.isEmpty_iff.1 none')) (Nat.not_lt.2 few))), rfl⟩

theorem read_malformed (r : Req) (x : Session) (items : List (BitVec 16 × Byte)) (s : State) (fresh : freshRequest s r x 0x0100)
    (bad : items = [] ∨ maxItems x.protocol < items.length) :
    exec (.read r items) s = .next (finish (takenState s r) r.session r.seq r.reqId 4 r.via .malformed []) :=
  congrArg Host.Outcome.next (withRequest_fresh fresh 0x04 (if_pos (bad.imp_left List.isEmpty_iff.2)))

theorem readItem_readable (x : Session) (i u : Nat) (d : DictRow) (s : State) (single : highestSub? x i u = none)
    (row : visibleRow? x i u = some d) (access : d.access = .ro ∨ d.access = .const ∨ d.access = .rw) (scalar : d.type ≠ .domain)
    (free : readConflict s x i u = false) : readItem s x i u = (s, .ok, d.type.code, entryBytes s x i u d) := by
  unfold readItem
  rw [single, row]
  dsimp only
  rcases access with access | access | access <;> rw [access]
  all_goals
    cases type : d.type with
    | domain => exact absurd type scalar
    | _ => exact if_neg (by rw [free]; decide)

theorem readItem_writeOnly (x : Session) (i u : Nat) (d : DictRow) (s : State) (single : highestSub? x i u = none)
    (row : visibleRow? x i u = some d) (access : d.access = .wo ∨ d.access = .cmd) :
    readItem s x i u = (s, .writeOnly, d.type.code, []) := by
  unfold readItem
  rw [single, row]
  dsimp only
  rcases access with access | access <;> rw [access]

/-! ### WRITE (R388, R389, R393, R399) -/

theorem write_items (r : Req) (x : Session) (items : List WriteItem) (s : State) (fresh : freshRequest s r x 0x0100)
    (some' : items ≠ []) (few : items.length ≤ maxItems x.protocol) :
    ∃ u : State, ∃ (st : Status) (b : List Byte), exec (.write r items) s = .next (finish u r.session r.seq r.reqId 5 r.via st b) ∧
      (u, st, b) = writeItems (takenState s r) (takenSession s r x) items :=
  ⟨_, _, _, congrArg Host.Outcome.next (withRequest_fresh fresh 0x05
    (if_neg fun bad => bad.elim (fun none' => some' (List.isEmpty_iff.1 none')) (Nat.not_lt.2 few))), rfl⟩

section Writes
variable {x : Session} {w : WriteItem} {d : DictRow} {s : State} (single : highestSub? x w.index w.sub = none)
  (row : visibleRow? x w.index w.sub = some d)
include single row

theorem writeItem_certified (certified : d.persist = .certified) : writeItem s x w = (s, .certified) := by
  unfold writeItem
  rw [single, row]
  exact if_pos certified

theorem writeItem_readOnly (open' : d.persist ≠ .certified) (access : d.access = .ro ∨ d.access = .const) :
    writeItem s x w = (s, .readOnly) := by
  unfold writeItem
  rw [single, row]
  refine (if_neg open').trans ?_
  rcases access with access | access <;> rw [access]

theorem writeItem_wrongType (open' : d.persist ≠ .certified) (access : d.access = .rw) (other : w.type ≠ d.type.code) :
    writeItem s x w = (s, .wrongType) := by
  unfold writeItem
  rw [single, row]
  refine (if_neg open').trans ?_
  rw [access]
  exact if_pos (.inr other)

/-- A value of four bytes for a u32 entry comes before the entry's own rules when nothing of its version conflicts. -/
theorem writeItem_u32 (open' : d.persist ≠ .certified) (access : d.access = .rw) (type : d.type = .u32) (sent : w.type = 4)
    (size : w.value.length = 4) (free : writeConflict s x w.index w.sub (leValue w.value) = false) :
    writeItem s x w = if d.inRange (leValue w.value) = false then (s, .outOfRange) else writeEntry s x w.index w.sub (leValue w.value) := by
  unfold writeItem
  rw [single, row]
  refine (if_neg open').trans ?_
  rw [access, type]
  refine (if_neg (by rw [sent]; decide)).trans ((if_neg (by decide)).trans ((if_neg (by rw [size]; decide)).trans ?_))
  exact if_neg (by rw [free]; decide)

end Writes

/-- A session-scoped entry other than OD 4021 is written in the session alone (R393). -/
theorem writeEntry_scoped (s : State) (x : Session) {idx sub : Nat} (v : Nat) (own : sessionScoped idx sub = true) (free : idx ≠ 0x4021) :
    writeEntry s x idx sub v = (sessSet s x.id idx sub v, .ok) := by
  unfold writeEntry
  rw [if_pos own]
  exact if_neg fun bad => free bad.1

/-- A session with an entry of its own written. -/
def withValue (idx sub v : Nat) (x : Session) : Session :=
  { x with values := tabSet (dictDefault idx sub) (odKey idx sub) v x.values }

theorem session?_sessSet (s : State) (id idx sub v j : Nat) :
    session? (sessSet s id idx sub v) j = (session? s j).map (onSession id (withValue idx sub v)) :=
  session?_updSession s id j fun _ => rfl

/-- What a session reads of a session-scoped entry. -/
theorem sessGet_eq (s : State) (id idx sub : Nat) : sessGet s id idx sub =
    ((session? s id).map fun x => tabGet (dictDefault idx sub) (odKey idx sub) x.values).getD (dictDefault idx sub) := by
  show (match session? s id with | some x => _ | none => _) = _
  cases session? s id <;> rfl

theorem sessGet_sessSet_same {s : State} {id : Nat} (open' : session? s id ≠ none) (idx sub v : Nat) :
    sessGet (sessSet s id idx sub v) id idx sub = v := by
  obtain ⟨y, found⟩ := Option.ne_none_iff_exists'.1 open'
  have set : session? (sessSet s id idx sub v) id = some (withValue idx sub v y) :=
    session?_updSession_same (f := withValue idx sub v) (fun _ => rfl) found
  rw [sessGet_eq, set]
  exact tabGet_set_same ..

theorem sessGet_sessSet_other (s : State) {id j : Nat} (apart : j ≠ id) (idx sub v : Nat) :
    sessGet (sessSet s id idx sub v) j idx sub = sessGet s j idx sub := by
  rw [sessGet_eq, sessGet_eq, session?_sessSet]
  cases found : session? s j with
  | none => rfl
  | some y =>
    have other : onSession id (withValue idx sub v) y = y := if_neg fun same => apart ((id_of_session? found).symm.trans same)
    rw [Option.map_some, other]

/-! ### DESCRIBE (R398) -/

theorem leBytes_length (n : Nat) : ∀ v, (leBytes n v).length = n := by
  induction n with
  | zero => exact fun v => rfl
  | succ n ih => exact fun v => congrArg (· + 1) (ih (v / 256))

theorem nameBytes_length (n : String) : (nameBytes n).length = 48 := by
  unfold nameBytes
  simp

/-- What DESCRIBE answers of an entry after its type, access and persistence. -/
def described (d : DictRow) (i u : Nat) : List Byte :=
  leBytes 2 d.since ++ leBytes 2 (if d.type = .domain then domainDescribed i else d.maxLen) ++
    leBytes 8 (if decide (typeBytes d.type ≠ 0) then entryDefault i u else 0) ++
    leBytes 8 (if decide (typeBytes d.type ≠ 0) then d.lo else 0) ++ leBytes 8 (if decide (typeBytes d.type ≠ 0) then d.hi else 0) ++
    nameBytes d.name

theorem described_length (d : DictRow) (i u : Nat) : (described d i u).length = 76 := by
  unfold described
  simp only [List.length_append, leBytes_length, nameBytes_length]

theorem visibleRow?_taken (s : State) (r : Req) (x : Session) (i u : Nat) :
    visibleRow? (takenSession s r x) i u = visibleRow? x i u := rfl

theorem highestSub?_taken (s : State) (r : Req) (x : Session) (i u : Nat) :
    highestSub? (takenSession s r x) i u = highestSub? x i u := rfl

theorem describe_entry (r : Req) (x : Session) (i : BitVec 16) (u : Byte) (d : DictRow) (s : State) (fresh : freshRequest s r x 0x0100)
    (single : highestSub? x i.toNat u.toNat = none) (row : visibleRow? x i.toNat u.toNat = some d) :
    ∃ b : List Byte, exec (.describe r i u) s = .next (finish (takenState s r) r.session r.seq r.reqId 6 r.via .ok b) ∧ b.length = 80 ∧
      b.take 4 = [BitVec.ofNat 8 d.type.code, BitVec.ofNat 8 d.access.code, BitVec.ofNat 8 d.persist.code, 0] := by
  refine ⟨[BitVec.ofNat 8 d.type.code, BitVec.ofNat 8 d.access.code, BitVec.ofNat 8 d.persist.code, 0] ++ described d i.toNat u.toNat,
    congrArg Host.Outcome.next (withRequest_fresh fresh 0x06 ?_), ?_, List.take_left' rfl⟩
  · rw [highestSub?_taken, visibleRow?_taken, single, row]
    simp only [described, List.append_assoc]
  · rw [List.length_append, described_length]
    rfl

theorem describe_notFound (r : Req) (x : Session) (i : BitVec 16) (u : Byte) (s : State) (fresh : freshRequest s r x 0x0100)
    (single : highestSub? x i.toNat u.toNat = none) (row : visibleRow? x i.toNat u.toNat = none) :
    exec (.describe r i u) s = .next (finish (takenState s r) r.session r.seq r.reqId 6 r.via .notFound []) := by
  refine congrArg Host.Outcome.next (withRequest_fresh fresh 0x06 ?_)
  rw [highestSub?_taken, visibleRow?_taken, single, row]

/-! ### Segmented transfer (R405, R406) -/

theorem segRead_reads (r : Req) (x : Session) (i : BitVec 16) (u : Byte) (o n : BitVec 32) (d : DictRow) (v : State) (size : Nat)
    (b : List Byte) (s : State) (fresh : freshRequest s r x 0x0100) (row : visibleRow? x i.toNat u.toNat = some d)
    (type : d.type = .domain) (access : d.access ≠ .wo)
    (read : readDomain (takenState s r) (takenSession s r x) i.toNat u.toNat o.toNat (min n.toNat (x.maxMessage - 20)) =
      (v, .ok, size, b)) :
    exec (.segRead r i u o n) s = .next (finish v r.session r.seq r.reqId 7 r.via .ok (leBytes 4 size ++ b)) := by
  refine congrArg Host.Outcome.next (withRequest_fresh fresh 0x07 ?_)
  rw [visibleRow?_taken, row]
  dsimp only
  rw [if_neg (not_not_intro type), if_neg access]
  show (match readDomain (takenState s r) (takenSession s r x) i.toNat u.toNat o.toNat (min n.toNat (x.maxMessage - 20)) with
    | (t1, .ok, size, b) => (t1, some (Status.ok, leBytes 4 size ++ b))
    | (t1, st, _, _) => (t1, some (st, []))) = _
  rw [read]

/-- An entry of which no segmented write is open has none to end. -/
theorem endSeg_none {s : State} {i u : Nat} (free : openSeg? s i u = none) : endSeg s i u = s := by
  have all : s.spr.segs.filter (fun g => decide (g.index ≠ i) || decide (g.sub ≠ u)) = s.spr.segs := by
    refine List.filter_eq_self.2 fun g member => ?_
    have other := List.find?_eq_none.1 free g member
    by_cases index : g.index = i
    · have sub : g.sub ≠ u := fun same => other (by simp [index, same])
      simp [sub]
    · simp [index]
  exact congrArg (fun l => { s with spr := { s.spr with segs := l } }) all

/-- A first segment that is not the last one opens a segmented write. -/
theorem segTake_open {s : State} {x : Session} {g : SegWrite} {data : List Byte} (free : openSeg? s g.index g.sub = none)
    (fits : (g.received ++ data).length ≤ g.total) : segTake s x true g false data =
      ({ s with spr := { s.spr with segs := s.spr.segs ++ [{ g with received := g.received ++ data }] } }, .ok) := by
  unfold segTake
  dsimp only
  rw [if_neg (fun bad => bad.elim (Nat.not_lt.2 fits) fun last => Bool.noConfusion last.1), endSeg_none free]
  rfl

theorem segWrite_opens (r : Req) (x : Session) (i : BitVec 16) (u : Byte) (n : BitVec 32) (data : List Byte) (d : DictRow) (s : State)
    (fresh : freshRequest s r x 0x0100) (row : visibleRow? x i.toNat u.toNat = some d) (type : d.type = .domain) (access : d.access = .rw)
    (free : openSeg? s i.toNat u.toNat = none) (holds : domainHolds i.toNat u.toNat n.toNat = true) (fits : data.length ≤ n.toNat) :
    ∃ v : State, exec (.segWrite r i u true false 0 n data) s = .next (finish v r.session r.seq r.reqId 8 r.via .ok []) ∧
      v.spr.segs = s.spr.segs ++ [{ index := i.toNat, sub := u.toNat, session := x.id, total := n.toNat, received := data }] ∧
      v = { s with spr := { s.spr with sessions := v.spr.sessions, segs := v.spr.segs } } := by
  have none' : openSeg? (takenState s r) i.toNat u.toNat = none := free
  obtain ⟨v, taken, segs, touched⟩ : ∃ v : State, segTake (takenState s r) (takenSession s r x) true
        { index := i.toNat, sub := u.toNat, session := x.id, total := n.toNat, received := [] } false data = (v, .ok) ∧
      v.spr.segs = s.spr.segs ++ [{ index := i.toNat, sub := u.toNat, session := x.id, total := n.toNat, received := data }] ∧
      v = { s with spr := { s.spr with sessions := v.spr.sessions, segs := v.spr.segs } } := ⟨_, segTake_open none' fits, rfl, rfl⟩
  refine ⟨v, congrArg Host.Outcome.next (withRequest_fresh fresh 0x08 ?_), segs, touched⟩
  rw [visibleRow?_taken, row]
  dsimp only
  rw [if_neg (not_not_intro type), if_neg (by rw [access]; decide), if_pos rfl, none']
  dsimp only
  rw [if_neg (by decide), if_neg (by rw [holds]; decide), access]
  exact congrArg (fun q : State × Status => (q.1, some (q.2, ([] : List Byte)))) taken

theorem segWrite_busy (r : Req) (x : Session) (i : BitVec 16) (u : Byte) (last : Bool) (o n : BitVec 32) (data : List Byte) (d : DictRow)
    (g : SegWrite) (s : State) (fresh : freshRequest s r x 0x0100) (row : visibleRow? x i.toNat u.toNat = some d)
    (type : d.type = .domain) (access : d.access = .rw) (open' : openSeg? s i.toNat u.toNat = some g) (foreign : g.session ≠ x.id) :
    exec (.segWrite r i u true last o n data) s = .next (finish (takenState s r) r.session r.seq r.reqId 8 r.via .busy []) := by
  have some' : openSeg? (takenState s r) i.toNat u.toNat = some g := open'
  refine congrArg Host.Outcome.next (withRequest_fresh fresh 0x08 ?_)
  rw [visibleRow?_taken, row]
  dsimp only
  rw [if_neg (not_not_intro type), if_neg (by rw [access]; decide), if_pos rfl, some']
  exact if_pos foreign

/-! ### COMMAND (R399) -/

theorem command_executed (r : Req) (x : Session) (i : BitVec 16) (u ty : Byte) (a : BitVec 64) (d : DictRow) (s : State)
    (fresh : freshRequest s r x 0x0100) (row : visibleRow? x i.toNat u.toNat = some d) (open' : d.persist ≠ .certified)
    (access : d.access = .cmd) (type : ty.toNat = d.type.code) (fits : a.toNat < 256 ^ typeBytes d.type) (other : i ≠ 0x1010) :
    ∃ (v : State) (st : Status), exec (.command r i u ty a) s = .next (finish v r.session r.seq r.reqId 0x0A r.via st []) ∧
      (v, st) = commandEntry (takenState s r) (takenSession s r x) i.toNat u.toNat a.toNat := by
  refine ⟨(commandEntry (takenState s r) (takenSession s r x) i.toNat u.toNat a.toNat).1,
    (commandEntry (takenState s r) (takenSession s r x) i.toNat u.toNat a.toNat).2,
    congrArg Host.Outcome.next (withRequest_fresh fresh 0x0A ?_), rfl⟩
  rw [visibleRow?_taken, row]
  dsimp only
  have valid : ¬ (d.access ≠ .cmd ∨ ty.toNat ≠ d.type.code ∨ 256 ^ typeBytes d.type ≤ a.toNat) := fun bad =>
    bad.elim (fun h => h access) fun h => h.elim (fun h => h type) (Nat.not_le.2 fits)
  have index : i.toNat ≠ 0x1010 := fun same => other (BitVec.eq_of_toNat_eq same)
  rw [if_neg open', if_neg valid, if_neg index]

theorem command_wrongType (r : Req) (x : Session) (i : BitVec 16) (u ty : Byte) (a : BitVec 64) (d : DictRow) (s : State)
    (fresh : freshRequest s r x 0x0100) (row : visibleRow? x i.toNat u.toNat = some d) (open' : d.persist ≠ .certified)
    (access : d.access ≠ .cmd) :
    exec (.command r i u ty a) s = .next (finish (takenState s r) r.session r.seq r.reqId 0x0A r.via .wrongType []) := by
  refine congrArg Host.Outcome.next (withRequest_fresh fresh 0x0A ?_)
  rw [visibleRow?_taken, row]
  exact (if_neg open').trans (if_pos (.inl access))

/-- Settles O49: each request by its execution on the state and session that it finds. -/
theorem dictionaryRequests : Obligations.DictionaryRequests := by
  refine ⟨fun r x items s fresh => ⟨read_items r x items s fresh, read_malformed r x items s fresh⟩,
    fun x i u d s single row => ⟨readItem_readable x i u d s single row, readItem_writeOnly x i u d s single row⟩,
    write_items, fun x w d s single row => ⟨writeItem_certified single row, writeItem_readOnly single row,
      fun open' access _ other => writeItem_wrongType single row open' access other,
      fun open' access type sent size free bad => ?_, fun open' access type sent size free good own other => ?_⟩,
    describe_entry, describe_notFound, segRead_reads, segWrite_opens, segWrite_busy,
    fun r x i u ty a d s fresh row open' => ⟨command_executed r x i u ty a d s fresh row open',
      command_wrongType r x i u ty a d s fresh row open'⟩⟩
  · rw [writeItem_u32 single row open' access type sent size free, if_pos bad]
  · rw [writeItem_u32 single row open' access type sent size free, if_neg (by rw [good]; decide), writeEntry_scoped s x _ own other]
    exact ⟨_, rfl, fun open' => sessGet_sessSet_same open' .., fun id apart => sessGet_sessSet_other s apart .., rfl⟩

end Sys2Proof.Proofs.DictionaryRequests

/-!
What the traffic and the slot channels leave of the collector (R416 to R429): all but the reports that are held and the log, and FAULT_N.
One rule per operation that the safe state's entry calls on, in the order of the model.
-/

namespace Sys2Proof.Machine

/-- The collector's state without the reports that are held, the one-shot injections and the log. -/
def FltState.quiet (f : FltState) : FltState := { f with pairs := [], oneShot := [], log := [], nextSeq := 0 }

end Sys2Proof.Machine

namespace Sys2Proof.Proofs.QuietFrames

open Sys2Proof Sys2Proof.Machine Sys2Proof.Laws Sys2Proof.Proofs.Shared

@[simp] theorem raiseReport_quiet (s : State) (f : Nat) (r : Report) :
    (raiseReport s f r).flt.quiet = s.flt.quiet ∧ (raiseReport s f r).pins.faultLow = s.pins.faultLow := by
  rw [raiseReport_frame]; exact ⟨rfl, rfl⟩

@[simp] theorem raiseFault_quiet (s : State) (f c d : Nat) :
    (raiseFault s f c d).flt.quiet = s.flt.quiet ∧ (raiseFault s f c d).pins.faultLow = s.pins.faultLow := by
  rw [raiseFault_frame]; exact ⟨rfl, rfl⟩

theorem logAppend_tail (s : State) (source code severity : Nat) (rail : Bool) (syndrome : BitVec 64) (data : BitVec 192) :
    ∃ log n, logAppend s source code severity rail syndrome data = { s with flt := { s.flt with log := log, nextSeq := n } } := by
  unfold logAppend
  split
  · exact ⟨s.flt.log, s.flt.nextSeq, rfl⟩
  · exact ⟨_, _, rfl⟩

@[simp] theorem logInfo_quiet (s : State) (a b : Nat) (x : BitVec 192) : (logInfo s a b x).flt.quiet = s.flt.quiet := by
  obtain ⟨log, n, frame⟩ := logAppend_tail s a b 0 false 0 x
  unfold logInfo
  rw [frame]
  rfl


@[simp] theorem ite_quiet (c : Prop) [Decidable c] (a b : State) :
    (if c then a else b).flt.quiet = if c then a.flt.quiet else b.flt.quiet :=
  apply_ite (fun s : State => s.flt.quiet) c a b

@[simp] theorem ite_fst_quiet {α : Type} (c : Prop) [Decidable c] (a b : State × α) :
    (if c then a else b).1.flt.quiet = if c then a.1.flt.quiet else b.1.flt.quiet :=
  apply_ite (fun s : State × α => s.1.flt.quiet) c a b

@[simp] theorem foldl_quiet {α : Type} (f : State → α → State) (l : List α) (s : State)
    (h : ∀ s a, (f s a).flt.quiet = s.flt.quiet) : (l.foldl f s).flt.quiet = s.flt.quiet :=
  List.foldlRecOn _ _ (motive := fun t : State => t.flt.quiet = s.flt.quiet) rfl fun t ht a _ => (h t a).trans ht

@[simp] theorem foldl_fst_quiet {α β : Type} (f : State × β → α → State × β) (l : List α) (s : State × β)
    (h : ∀ s a, (f s a).1.flt.quiet = s.1.flt.quiet) : (l.foldl f s).1.flt.quiet = s.1.flt.quiet :=
  List.foldlRecOn _ _ (motive := fun t : State × β => t.1.flt.quiet = s.1.flt.quiet) rfl fun t ht a _ => (h t a).trans ht

@[simp] theorem ite_faultLow (c : Prop) [Decidable c] (a b : PinState) :
    (if c then a else b).faultLow = if c then a.faultLow else b.faultLow :=
  apply_ite PinState.faultLow c a b

@[simp] theorem ite_state_faultLow (c : Prop) [Decidable c] (a b : State) :
    (if c then a else b).pins.faultLow = if c then a.pins.faultLow else b.pins.faultLow :=
  apply_ite (fun s : State => s.pins.faultLow) c a b

@[simp] theorem ite_fst_faultLow {α : Type} (c : Prop) [Decidable c] (a b : State × α) :
    (if c then a else b).1.pins.faultLow = if c then a.1.pins.faultLow else b.1.pins.faultLow :=
  apply_ite (fun s : State × α => s.1.pins.faultLow) c a b

@[simp] theorem foldl_faultLow {α : Type} (f : State → α → State) (l : List α) (s : State)
    (h : ∀ s a, (f s a).pins.faultLow = s.pins.faultLow) : (l.foldl f s).pins.faultLow = s.pins.faultLow :=
  List.foldlRecOn _ _ (motive := fun t : State => t.pins.faultLow = s.pins.faultLow) rfl fun t ht a _ => (h t a).trans ht

@[simp] theorem foldl_fst_faultLow {α β : Type} (f : State × β → α → State × β) (l : List α) (s : State × β)
    (h : ∀ s a, (f s a).1.pins.faultLow = s.1.pins.faultLow) : (l.foldl f s).1.pins.faultLow = s.1.pins.faultLow :=
  List.foldlRecOn _ _ (motive := fun t : State × β => t.1.pins.faultLow = s.1.pins.faultLow) rfl fun t ht a _ => (h t a).trans ht

theorem foldl_kept {α : Type} (f : State → α → State) (l : List α) (s : State)
    (h : ∀ s a, (f s a).flt.quiet = s.flt.quiet ∧ (f s a).pins.faultLow = s.pins.faultLow) :
    (l.foldl f s).flt.quiet = s.flt.quiet ∧ (l.foldl f s).pins.faultLow = s.pins.faultLow :=
  ⟨foldl_quiet f l s fun t a => (h t a).1, foldl_faultLow f l s fun t a => (h t a).2⟩

@[simp] theorem checkDone_quiet (s : State) (f : Nat) :
    (checkDone s f).flt.quiet = s.flt.quiet ∧ (checkDone s f).pins.faultLow = s.pins.faultLow := ⟨rfl, rfl⟩

@[simp] theorem lpddrChecked_quiet (s : State) (a : Nat) :
    (lpddrChecked s a).1.flt.quiet = s.flt.quiet ∧ (lpddrChecked s a).1.pins.faultLow = s.pins.faultLow := by simp [lpddrChecked]

theorem spend?_quiet {s t : State} {k n : Nat} (h : spend? s k n = some t) :
    t.flt.quiet = s.flt.quiet ∧ t.pins.faultLow = s.pins.faultLow := by
  obtain ⟨g, -, rfl⟩ := Option.map_eq_some_iff.1 h
  exact ⟨rfl, rfl⟩

@[simp] theorem traceWrite_quiet (s : State) (mk : Nat → TraceRec) :
    (traceWrite s mk).flt.quiet = s.flt.quiet ∧ (traceWrite s mk).pins.faultLow = s.pins.faultLow := by
  unfold traceWrite
  dsimp only
  split
  · exact ⟨rfl, rfl⟩
  · split
    · exact ⟨rfl, rfl⟩
    · next spent => simpa using spend?_quiet spent

@[simp] theorem filterCount_quiet (s : State) (f : Nat) :
    (filterCount s f).1.flt.quiet = s.flt.quiet ∧ (filterCount s f).1.pins.faultLow = s.pins.faultLow := ⟨rfl, rfl⟩

@[simp] theorem traceUnit_quiet (s : State) (tap port data : Nat) (u : FUnit) :
    (traceUnit s tap port data u).flt.quiet = s.flt.quiet ∧ (traceUnit s tap port data u).pins.faultLow = s.pins.faultLow := by
  unfold traceUnit
  dsimp only
  repeat' split
  all_goals simp

@[simp] theorem setXing_quiet (s : State) (c : Nat) (x : Crossing) :
    (setXing s c x).flt.quiet = s.flt.quiet ∧ (setXing s c x).pins.faultLow = s.pins.faultLow := ⟨rfl, rfl⟩

@[simp] theorem crossSend_quiet (s : State) (c : Nat) (h : Held) :
    (crossSend s c h).flt.quiet = s.flt.quiet ∧ (crossSend s c h).pins.faultLow = s.pins.faultLow := ⟨rfl, rfl⟩

@[simp] theorem niPush_quiet (s : State) (n : Nat) (a : Nat) (h : Held) :
    (niPush s n a h).flt.quiet = s.flt.quiet ∧ (niPush s n a h).pins.faultLow = s.pins.faultLow := ⟨rfl, rfl⟩

@[simp] theorem nextUnit_quiet (s : State) : (nextUnit s).flt.quiet = s.flt.quiet ∧ (nextUnit s).pins.faultLow = s.pins.faultLow :=
  ⟨rfl, rfl⟩

@[simp] theorem sendAt_quiet (s : State) (n : Nat) (a : Nat) (u : FUnit) (t : Option Tlp) (hpa : Option (Nat × BitVec 46)) :
    (sendAt s n a u t hpa).flt.quiet = s.flt.quiet ∧ (sendAt s n a u t hpa).pins.faultLow = s.pins.faultLow := by
  unfold sendAt
  split <;> simp

@[simp] theorem send_quiet (s : State) (u : FUnit) :
    (send s u).flt.quiet = s.flt.quiet ∧ (send s u).pins.faultLow = s.pins.faultLow := by simp [send]

@[simp] theorem sendTlpBy_quiet (s : State) (n : Nat) (a : Nat) (t : Tlp) (src : BitVec 12) (dst : BitVec 12) (tag : BitVec 16) (f :
    FUnit → FUnit) :
    (sendTlpBy s n a t src dst tag f).flt.quiet = s.flt.quiet ∧ (sendTlpBy s n a t src dst tag f).pins.faultLow = s.pins.faultLow := by
  simp [sendTlpBy]

@[simp] theorem sendTlp_quiet (s : State) (n : Nat) (a : Nat) (t : Tlp) (src : BitVec 12) (dst : BitVec 12) (tag : BitVec 16) :
    (sendTlp s n a t src dst tag).flt.quiet = s.flt.quiet ∧ (sendTlp s n a t src dst tag).pins.faultLow = s.pins.faultLow := by
  simp [sendTlp]

@[simp] theorem sendSynth_quiet (s : State) (n : Nat) (a : Nat) (t : Tlp) (src : BitVec 12) (dst : BitVec 12) (tag : BitVec 16) :
    (sendSynth s n a t src dst tag).flt.quiet = s.flt.quiet ∧ (sendSynth s n a t src dst tag).pins.faultLow = s.pins.faultLow := by
  simp [sendSynth]

@[simp] theorem moverWriteGone_quiet (s : State) (u : FUnit) :
    (moverWriteGone s u).flt.quiet = s.flt.quiet ∧ (moverWriteGone s u).pins.faultLow = s.pins.faultLow := by simp [moverWriteGone]

@[simp] theorem setEgress_quiet (s : State) (port : Nat) (v : Vn) (l : List EgUnit) :
    (setEgress s port v l).flt.quiet = s.flt.quiet ∧ (setEgress s port v l).pins.faultLow = s.pins.faultLow := ⟨rfl, rfl⟩

@[simp] theorem setIngress_quiet (s : State) (port : Nat) (v : Vn) (l : List InMsg) :
    (setIngress s port v l).flt.quiet = s.flt.quiet ∧ (setIngress s port v l).pins.faultLow = s.pins.faultLow := ⟨rfl, rfl⟩

@[simp] theorem egressPush_quiet (s : State) (port : Nat) (h : Held) (m : Option LinkMsg) :
    (egressPush s port h m).flt.quiet = s.flt.quiet ∧ (egressPush s port h m).pins.faultLow = s.pins.faultLow := by simp [egressPush]

@[simp] theorem hostSend_quiet (s : State) (port : Nat) (v : Vn) (m : LinkMsg) :
    (hostSend s port v m).flt.quiet = s.flt.quiet ∧ (hostSend s port v m).pins.faultLow = s.pins.faultLow := ⟨rfl, rfl⟩

@[simp] theorem egressTaken_quiet (s : State) (port : Nat) (v : Vn) (id : Nat) (m : Option LinkMsg) :
    (egressTaken s port v id m).flt.quiet = s.flt.quiet ∧ (egressTaken s port v id m).pins.faultLow = s.pins.faultLow := by
  unfold egressTaken
  split <;> simp

@[simp] theorem setFunc_quiet (s : State) (n : Nat) (f : Func) :
    (setFunc s n f).flt.quiet = s.flt.quiet ∧ (setFunc s n f).pins.faultLow = s.pins.faultLow := ⟨rfl, rfl⟩

@[simp] theorem setVppb_quiet (s : State) (v : Nat) (d : Nat) (x : Vppb) :
    (setVppb s v d x).flt.quiet = s.flt.quiet ∧ (setVppb s v d x).pins.faultLow = s.pins.faultLow := ⟨rfl, rfl⟩

@[simp] theorem bumpFn_quiet (s : State) (fn : Nat) (e : Nat) (k : Nat) :
    (bumpFn s fn e k).flt.quiet = s.flt.quiet ∧ (bumpFn s fn e k).pins.faultLow = s.pins.faultLow := by
  unfold bumpFn
  repeat' split
  all_goals simp

@[simp] theorem hostWrite_quiet (s : State) (v : Nat) (rid : BitVec 16) (addr : Nat) (data : List Byte) (poison : Bool) :
    (hostWrite s v rid addr data poison).flt.quiet = s.flt.quiet ∧
    (hostWrite s v rid addr data poison).pins.faultLow = s.pins.faultLow := by
  unfold hostWrite
  split <;> simp

@[simp] theorem setLogCh_quiet (s : State) (c : Nat) (x : LogCh) :
    (setLogCh s c x).flt.quiet = s.flt.quiet ∧ (setLogCh s c x).pins.faultLow = s.pins.faultLow := ⟨rfl, rfl⟩

@[simp] theorem lcbWrite_quiet (s : State) (c : Nat) (off : Nat) (data : List Byte) :
    (lcbWrite s c off data).flt.quiet = s.flt.quiet ∧ (lcbWrite s c off data).pins.faultLow = s.pins.faultLow := by simp [lcbWrite]

@[simp] theorem lcbProducer_quiet (s : State) (c : Nat) :
    (lcbProducer s c).flt.quiet = s.flt.quiet ∧ (lcbProducer s c).pins.faultLow = s.pins.faultLow := by simp [lcbProducer]

@[simp] theorem logState_quiet (s : State) (c : Nat) (x : LogCh) :
    (logState s c x).flt.quiet = s.flt.quiet ∧ (logState s c x).pins.faultLow = s.pins.faultLow := by simp [logState]

@[simp] theorem logEntry_quiet (s : State) (c : Nat) (page : Nat) (x : LogCh) :
    (logEntry s c page x).flt.quiet = s.flt.quiet ∧ (logEntry s c page x).pins.faultLow = s.pins.faultLow := by simp [logEntry]

@[simp] theorem logCount_quiet (s : State) (c : Nat) (e : Nat) :
    (logCount s c e).flt.quiet = s.flt.quiet ∧ (logCount s c e).pins.faultLow = s.pins.faultLow := by simp [logCount]

@[simp] theorem logEvent_quiet (s : State) (c : Nat) (a : Nat) :
    (logEvent s c a).flt.quiet = s.flt.quiet ∧ (logEvent s c a).pins.faultLow = s.pins.faultLow := by simp [logEvent]

@[simp] theorem logTrackers_quiet (s : State) (v a : Nat) :
    (logTrackers s v a).flt.quiet = s.flt.quiet ∧ (logTrackers s v a).pins.faultLow = s.pins.faultLow := by simp [logTrackers]

@[simp] theorem setProxy_quiet (s : State) (v : Nat) (x : Proxy) :
    (setProxy s v x).flt.quiet = s.flt.quiet ∧ (setProxy s v x).pins.faultLow = s.pins.faultLow := ⟨rfl, rfl⟩

@[simp] theorem flushed_quiet (s : State) (p : Nat) (u : FUnit) :
    (flushed s p u).flt.quiet = s.flt.quiet ∧ (flushed s p u).pins.faultLow = s.pins.faultLow := by simp [flushed]

@[simp] theorem answerHost_quiet (s : State) (p : Nat) (vn : Vn) (id : Nat) (m : LinkMsg) :
    (answerHost s p vn id m).flt.quiet = s.flt.quiet ∧ (answerHost s p vn id m).pins.faultLow = s.pins.faultLow := by
  simp [answerHost]

@[simp] theorem tellHost_quiet (s : State) (p : Nat) (vn : Vn) (m : LinkMsg) :
    (tellHost s p vn m).flt.quiet = s.flt.quiet ∧ (tellHost s p vn m).pins.faultLow = s.pins.faultLow := by simp [tellHost]

@[simp] theorem issueUnit_quiet (s : State) (v : Nat) (p : Nat) (ty : Nat) (vn : Vn) (tag : Nat) (hpa : BitVec 46) (payload : BitVec
    512) (poison : Bool) (since : Nat) :
    (issueUnit s v p ty vn tag hpa payload poison since).flt.quiet = s.flt.quiet ∧
    (issueUnit s v p ty vn tag hpa payload poison since).pins.faultLow = s.pins.faultLow := by
  simp [issueUnit]

@[simp] theorem issueReq_quiet (s : State) (v : Nat) (p : Nat) (e : ProxyReq) (since : Nat) :
    (issueReq s v p e since).flt.quiet = s.flt.quiet ∧ (issueReq s v p e since).pins.faultLow = s.pins.faultLow := by simp [issueReq]

@[simp] theorem issueWrite_quiet (s : State) (v : Nat) (p : Nat) (e : ProxyWrite) (since : Nat) :
    (issueWrite s v p e since).flt.quiet = s.flt.quiet ∧ (issueWrite s v p e since).pins.faultLow = s.pins.faultLow := by
  simp [issueWrite]

@[simp] theorem issueEvict_quiet (s : State) (v : Nat) (p : Nat) (e : ProxyEvict) (since : Nat) :
    (issueEvict s v p e since).flt.quiet = s.flt.quiet ∧ (issueEvict s v p e since).pins.faultLow = s.pins.faultLow := by
  simp [issueEvict]

@[simp] theorem evictionFreed_quiet (s : State) (v : Nat) (p : Nat) (hpa : BitVec 46) :
    (evictionFreed s v p hpa).flt.quiet = s.flt.quiet ∧ (evictionFreed s v p hpa).pins.faultLow = s.pins.faultLow := by
  simp [evictionFreed]

@[simp] theorem snoopReply_quiet (s : State) (v : Nat) (p : Nat) (sn : ProxySnoop) (dirty : Option (LineData × Bool)) (keptS : Bool) :
    (snoopReply s v p sn dirty keptS).flt.quiet = s.flt.quiet ∧ (snoopReply s v p sn dirty keptS).pins.faultLow = s.pins.faultLow := by
  unfold snoopReply
  repeat' split
  all_goals simp

@[simp] theorem snoopLost_quiet (s : State) (v : Nat) (p : Nat) (src : BitVec 12) (tag : BitVec 16) (l : BitVec 42) :
    (snoopLost s v p src tag l).flt.quiet = s.flt.quiet ∧ (snoopLost s v p src tag l).pins.faultLow = s.pins.faultLow := by
  simp [snoopLost]

@[simp] theorem dropSnoop_quiet (s : State) (v : Nat) (bt : Nat) :
    (dropSnoop s v bt).flt.quiet = s.flt.quiet ∧ (dropSnoop s v bt).pins.faultLow = s.pins.faultLow := ⟨rfl, rfl⟩

@[simp] theorem sendBiSnp_quiet (s : State) (v : Nat) (p : Nat) (sn : ProxySnoop) (d : Option (LineData × Bool)) :
    (sendBiSnp s v p sn d).flt.quiet = s.flt.quiet ∧ (sendBiSnp s v p sn d).pins.faultLow = s.pins.faultLow := by
  unfold sendBiSnp
  split <;> simp

@[simp] theorem snoopAct_quiet (s : State) (v : Nat) (p : Nat) (sn : ProxySnoop) :
    (snoopAct s v p sn).flt.quiet = s.flt.quiet ∧ (snoopAct s v p sn).pins.faultLow = s.pins.faultLow := by
  unfold snoopAct
  split <;> simp

@[simp] theorem releaseSnoops_quiet (s : State) (v : Nat) (p : Nat) :
    (releaseSnoops s v p).flt.quiet = s.flt.quiet ∧ (releaseSnoops s v p).pins.faultLow = s.pins.faultLow := by simp [releaseSnoops]

@[simp] theorem dropEntry_quiet (s : State) (v : Nat) (t : Nat) :
    (dropEntry s v t).flt.quiet = s.flt.quiet ∧ (dropEntry s v t).pins.faultLow = s.pins.faultLow := ⟨rfl, rfl⟩

@[simp] theorem give_quiet (s : State) (p : Nat) (vn : Vn) (unit : Option Nat) (m : LinkMsg) :
    (give s p vn unit m).flt.quiet = s.flt.quiet ∧ (give s p vn unit m).pins.faultLow = s.pins.faultLow := by
  unfold give
  split <;> simp

@[simp] theorem giveNothing_quiet (s : State) (p : Nat) (vn : Vn) (unit : Option Nat) :
    (giveNothing s p vn unit).flt.quiet = s.flt.quiet ∧ (giveNothing s p vn unit).pins.faultLow = s.pins.faultLow := by
  unfold giveNothing
  repeat' split
  all_goals simp

@[simp] theorem finishEntry_quiet (s : State) (v : Nat) (p : Nat) (t : Nat) (vn : Vn) (unit : Option Nat) (m : LinkMsg) :
    (finishEntry s v p t vn unit m).flt.quiet = s.flt.quiet ∧ (finishEntry s v p t vn unit m).pins.faultLow = s.pins.faultLow := by
  simp [finishEntry]

@[simp] theorem reqData_quiet (s : State) (v : Nat) (p : Nat) (unit : Option Nat) (e : ProxyReq) (g : Nat) (poison : Bool) (d :
    LineData) :
    (reqData s v p unit e g poison d).flt.quiet = s.flt.quiet ∧ (reqData s v p unit e g poison d).pins.faultLow = s.pins.faultLow := by
  simp [reqData]

@[simp] theorem nackWb_quiet (s : State) (v : Nat) (p : Nat) (e : ProxyEvict) :
    (nackWb s v p e).flt.quiet = s.flt.quiet ∧ (nackWb s v p e).pins.faultLow = s.pins.faultLow := by simp [nackWb]

@[simp] theorem evictRefused_quiet (s : State) (v : Nat) (p : Nat) (e : ProxyEvict) :
    (evictRefused s v p e).flt.quiet = s.flt.quiet ∧ (evictRefused s v p e).pins.faultLow = s.pins.faultLow := by simp [evictRefused]

@[simp] theorem writeFreed_quiet (s : State) (v : Nat) (p : Nat) :
    (writeFreed s v p).flt.quiet = s.flt.quiet ∧ (writeFreed s v p).pins.faultLow = s.pins.faultLow := by
  unfold writeFreed
  dsimp only
  split <;> simp

@[simp] theorem failEntry_quiet (s : State) (v : Nat) (p : Nat) (t : Nat) (unit : Option Nat) (poison : Bool) :
    (failEntry s v p t unit poison).flt.quiet = s.flt.quiet ∧ (failEntry s v p t unit poison).pins.faultLow = s.pins.faultLow := by
  unfold failEntry
  dsimp only
  repeat' split
  all_goals simp

@[simp] theorem nackEntry_quiet (s : State) (v : Nat) (p : Nat) (t : Nat) :
    (nackEntry s v p t).flt.quiet = s.flt.quiet ∧ (nackEntry s v p t).pins.faultLow = s.pins.faultLow := by
  unfold nackEntry
  dsimp only
  repeat' split
  all_goals simp

@[simp] theorem goWrite_quiet (s : State) (v : Nat) (p : Nat) (e : ProxyWrite) (h : Nat) (l : BitVec 42) :
    (goWrite s v p e h l).flt.quiet = s.flt.quiet ∧ (goWrite s v p e h l).pins.faultLow = s.pins.faultLow := by simp [goWrite]

@[simp] theorem rspReq_quiet (s : State) (v : Nat) (p : Nat) (h : Held) (e : ProxyReq) :
    (rspReq s v p h e).flt.quiet = s.flt.quiet ∧ (rspReq s v p h e).pins.faultLow = s.pins.faultLow := by
  unfold rspReq
  split <;> simp

@[simp] theorem rspWrite_quiet (s : State) (v : Nat) (p : Nat) (h : Held) (e : ProxyWrite) :
    (rspWrite s v p h e).flt.quiet = s.flt.quiet ∧ (rspWrite s v p h e).pins.faultLow = s.pins.faultLow := by
  unfold rspWrite
  split <;> simp

@[simp] theorem rspEvict_quiet (s : State) (v : Nat) (p : Nat) (h : Held) (e : ProxyEvict) :
    (rspEvict s v p h e).flt.quiet = s.flt.quiet ∧ (rspEvict s v p h e).pins.faultLow = s.pins.faultLow := by
  unfold rspEvict
  split <;> simp

@[simp] theorem discardQuarantined_quiet (s : State) (p : Nat) (vn : Vn) (id : Nat) :
    (discardQuarantined s p vn id).flt.quiet = s.flt.quiet ∧ (discardQuarantined s p vn id).pins.faultLow = s.pins.faultLow :=
  ⟨rfl, rfl⟩

@[simp] theorem proxyResponse_quiet (s : State) (v : Nat) (p : Nat) (vn : Vn) :
    (proxyResponse s v p vn).flt.quiet = s.flt.quiet ∧ (proxyResponse s v p vn).pins.faultLow = s.pins.faultLow := by
  unfold proxyResponse
  dsimp only
  repeat' split
  all_goals simp

@[simp] theorem downResponse_quiet (s : State) (v : Nat) (p : Nat) (h : Held) :
    (downResponse s v p h).flt.quiet = s.flt.quiet ∧ (downResponse s v p h).pins.faultLow = s.pins.faultLow := by simp [downResponse]

@[simp] theorem setPool_quiet (s : State) (p : Nat) (x : PoolAgent) :
    (setPool s p x).flt.quiet = s.flt.quiet ∧ (setPool s p x).pins.faultLow = s.pins.faultLow := ⟨rfl, rfl⟩

@[simp] theorem aerAt_quiet (s : State) (p : Nat) (ld : Nat) (f : AerState → AerState) :
    (aerAt s p ld f).flt.quiet = s.flt.quiet ∧ (aerAt s p ld f).pins.faultLow = s.pins.faultLow := by
  unfold aerAt
  repeat' split
  all_goals simp

@[simp] theorem bumpPort_quiet (s : State) (p : Nat) (ld : Nat) (e : Nat) (k : Nat) :
    (bumpPort s p ld e k).flt.quiet = s.flt.quiet ∧ (bumpPort s p ld e k).pins.faultLow = s.pins.faultLow := by
  unfold bumpPort
  split <;> simp

@[simp] theorem aerUnsupported_quiet (s : State) (p : Nat) (t : Tlp) :
    (aerUnsupported s p t).flt.quiet = s.flt.quiet ∧ (aerUnsupported s p t).pins.faultLow = s.pins.faultLow := by
  simp [aerUnsupported]

@[simp] theorem npDrop_quiet (s : State) (p : Nat) (rid : BitVec 16) (tag : BitVec 16) :
    (npDrop s p rid tag).flt.quiet = s.flt.quiet ∧ (npDrop s p rid tag).pins.faultLow = s.pins.faultLow := ⟨rfl, rfl⟩

@[simp] theorem npAnswer_quiet (s : State) (p : Nat) (rid : BitVec 16) (tag : BitVec 16) (st : Nat) :
    (npAnswer s p rid tag st).flt.quiet = s.flt.quiet ∧ (npAnswer s p rid tag st).pins.faultLow = s.pins.faultLow := by
  unfold npAnswer
  split <;> simp

@[simp] theorem ioUnreachable_quiet (s : State) (p : Nat) (h : Held) :
    (ioUnreachable s p h).flt.quiet = s.flt.quiet ∧ (ioUnreachable s p h).pins.faultLow = s.pins.faultLow := by
  unfold ioUnreachable
  split <;> simp

@[simp] theorem answerMemRd_quiet (s : State) (p : Nat) (u : FUnit) :
    (answerMemRd s p u).flt.quiet = s.flt.quiet ∧ (answerMemRd s p u).pins.faultLow = s.pins.faultLow := by simp [answerMemRd]

@[simp] theorem answerMemWr_quiet (s : State) (p : Nat) (u : FUnit) :
    (answerMemWr s p u).flt.quiet = s.flt.quiet ∧ (answerMemWr s p u).pins.faultLow = s.pins.faultLow := by simp [answerMemWr]

@[simp] theorem dropPoolWrite_quiet (s : State) (p : Nat) (u : FUnit) :
    (dropPoolWrite s p u).flt.quiet = s.flt.quiet ∧ (dropPoolWrite s p u).pins.faultLow = s.pins.faultLow := ⟨rfl, rfl⟩

@[simp] theorem ioAnswer_quiet (s : State) (p : Nat) (u : FUnit) (t : Tlp) (st : Nat) :
    (ioAnswer s p u t st).flt.quiet = s.flt.quiet ∧ (ioAnswer s p u t st).pins.faultLow = s.pins.faultLow := by simp [ioAnswer]

@[simp] theorem downSnoop_quiet (s : State) (p : Nat) (u : FUnit) :
    (downSnoop s p u).flt.quiet = s.flt.quiet ∧ (downSnoop s p u).pins.faultLow = s.pins.faultLow := by
  unfold downSnoop
  split <;> simp

@[simp] theorem downArrival_quiet (s : State) (p : Nat) (h : Held) :
    (downArrival s p h).flt.quiet = s.flt.quiet ∧ (downArrival s p h).pins.faultLow = s.pins.faultLow := by
  unfold downArrival
  dsimp only
  repeat' split
  all_goals simp

theorem npArrived_quiet {s t : State} {p : Nat} {h : Held} (arrived : npArrived s p h = some t) :
    t.flt.quiet = s.flt.quiet ∧ t.pins.faultLow = s.pins.faultLow := by
  unfold npArrived at arrived
  repeat' split at arrived
  all_goals
    cases arrived
  all_goals simp

@[simp] theorem portArrive_quiet (s : State) (p : Nat) (h : Held) :
    (portArrive s p h).flt.quiet = s.flt.quiet ∧ (portArrive s p h).pins.faultLow = s.pins.faultLow := by
  unfold portArrive
  dsimp only
  split
  · split
    · simp
    · split
      · simp
      · split
        · next arrived => simpa using npArrived_quiet arrived
        · simp
  · split
    · split <;> simp
    · split <;> simp

@[simp] theorem setSlice_quiet (s : State) (l : Nat) (x : HomeSlice) :
    (setSlice s l x).flt.quiet = s.flt.quiet ∧ (setSlice s l x).pins.faultLow = s.pins.faultLow := ⟨rfl, rfl⟩

@[simp] theorem setTracker_quiet (s : State) (l : Nat) (t : Nat) (k : Tracker) :
    (setTracker s l t k).flt.quiet = s.flt.quiet ∧ (setTracker s l t k).pins.faultLow = s.pins.faultLow := ⟨rfl, rfl⟩

@[simp] theorem setBuf_quiet (s : State) (l : Nat) (b : Nat) (e : BufEntry) :
    (setBuf s l b e).flt.quiet = s.flt.quiet ∧ (setBuf s l b e).pins.faultLow = s.pins.faultLow := ⟨rfl, rfl⟩

@[simp] theorem setBacking_quiet (s : State) (g : Nat) (e : BitVec 48) :
    (setBacking s g e).flt.quiet = s.flt.quiet ∧ (setBacking s g e).pins.faultLow = s.pins.faultLow := ⟨rfl, rfl⟩

@[simp] theorem sendMemRd_quiet (s : State) (l : Nat) (t : Nat) (k : Tracker) (p : Loc) :
    (sendMemRd s l t k p).flt.quiet = s.flt.quiet ∧ (sendMemRd s l t k p).pins.faultLow = s.pins.faultLow := by simp [sendMemRd]

@[simp] theorem sendMemWr_quiet (s : State) (l : Nat) (b : Nat) (e : BufEntry) (p : Loc) :
    (sendMemWr s l b e p).flt.quiet = s.flt.quiet ∧ (sendMemWr s l b e p).pins.faultLow = s.pins.faultLow := by simp [sendMemWr]

@[simp] theorem remapAnswer_quiet (s : State) (l : Nat) (op : RemapOp) :
    (remapAnswer s l op).flt.quiet = s.flt.quiet ∧ (remapAnswer s l op).pins.faultLow = s.pins.faultLow := by
  unfold remapAnswer
  repeat' split
  all_goals simp

@[simp] theorem unmappedReport_quiet (s : State) (l : Nat) (g : Nat) :
    (unmappedReport s l g).flt.quiet = s.flt.quiet ∧ (unmappedReport s l g).pins.faultLow = s.pins.faultLow := by
  simp [unmappedReport]

@[simp] theorem remapSend_quiet (s : State) (l : Nat) (op : RemapOp) (p : Loc) :
    (remapSend s l op p).flt.quiet = s.flt.quiet ∧ (remapSend s l op p).pins.faultLow = s.pins.faultLow := by
  unfold remapSend
  repeat' split
  all_goals simp

@[simp] theorem remapHold_quiet (s : State) (l : Nat) (g : Nat) (page : Nat) (op : RemapOp) :
    (remapHold s l g page op).flt.quiet = s.flt.quiet ∧ (remapHold s l g page op).pins.faultLow = s.pins.faultLow := by
  unfold remapHold
  dsimp only
  repeat' split
  all_goals simp

@[simp] theorem remapWith_quiet (s : State) (l : Nat) (g : Nat) (page : Nat) (op : RemapOp) (e : BitVec 48) :
    (remapWith s l g page op e).flt.quiet = s.flt.quiet ∧ (remapWith s l g page op e).pins.faultLow = s.pins.faultLow := by
  unfold remapWith
  repeat' split
  all_goals simp

@[simp] theorem remapLookup_quiet (s : State) (l : Nat) (op : RemapOp) :
    (remapLookup s l op).flt.quiet = s.flt.quiet ∧ (remapLookup s l op).pins.faultLow = s.pins.faultLow := by
  unfold remapLookup
  dsimp only
  repeat' split
  all_goals simp

@[simp] theorem remapOp_quiet (s : State) (l : Nat) (op : RemapOp) :
    (remapOp s l op).flt.quiet = s.flt.quiet ∧ (remapOp s l op).pins.faultLow = s.pins.faultLow := by simp [remapOp]

@[simp] theorem bufAdd_quiet (s : State) (l : Nat) (line : BitVec 42) (data : LineData) (poison wrPoison : Bool) :
    (bufAdd s l line data poison wrPoison).flt.quiet = s.flt.quiet ∧
    (bufAdd s l line data poison wrPoison).pins.faultLow = s.pins.faultLow := by
  unfold bufAdd
  dsimp only
  split <;> simp

@[simp] theorem cacheSet_quiet (s : State) (l : Nat) (line : BitVec 42) (w : Nat) (e : Option DirEntry) :
    (cacheSet s l line w e).flt.quiet = s.flt.quiet ∧ (cacheSet s l line w e).pins.faultLow = s.pins.faultLow := ⟨rfl, rfl⟩

@[simp] theorem setSf_quiet (s : State) (k : Nat) (ws : List SfWay) :
    (setSf s k ws).flt.quiet = s.flt.quiet ∧ (setSf s k ws).pins.faultLow = s.pins.faultLow := ⟨rfl, rfl⟩

@[simp] theorem sfWrite_quiet (s : State) (l : Nat) (line : BitVec 42) (i : Nat) (st : LState) :
    (sfWrite s l line i st).flt.quiet = s.flt.quiet ∧ (sfWrite s l line i st).pins.faultLow = s.pins.faultLow := ⟨rfl, rfl⟩

@[simp] theorem putState_quiet (s : State) (l : Nat) (line : BitVec 42) (st : LState) :
    (putState s l line st).flt.quiet = s.flt.quiet ∧ (putState s l line st).pins.faultLow = s.pins.faultLow := by
  unfold putState
  repeat' split
  all_goals simp

@[simp] theorem poisonWrite_quiet (s : State) (l : Nat) (line : BitVec 42) :
    (poisonWrite s l line).flt.quiet = s.flt.quiet ∧ (poisonWrite s l line).pins.faultLow = s.pins.faultLow := by simp [poisonWrite]

@[simp] theorem poisonLine_quiet (s : State) (l : Nat) (line : BitVec 42) :
    (poisonLine s l line).flt.quiet = s.flt.quiet ∧ (poisonLine s l line).pins.faultLow = s.pins.faultLow := by simp [poisonLine]

@[simp] theorem lineState_quiet (s : State) (l : Nat) (line : BitVec 42) :
    (lineState s l line).1.flt.quiet = s.flt.quiet ∧ (lineState s l line).1.pins.faultLow = s.pins.faultLow := by simp [lineState]

@[simp] theorem evictEntry_quiet (s : State) (l : Nat) (e : DirEntry) :
    (evictEntry s l e).flt.quiet = s.flt.quiet ∧ (evictEntry s l e).pins.faultLow = s.pins.faultLow := by
  unfold evictEntry
  repeat' split
  all_goals simp

@[simp] theorem evictAt_quiet (s : State) (l : Nat) (k : Nat) :
    (evictAt s l k).flt.quiet = s.flt.quiet ∧ (evictAt s l k).pins.faultLow = s.pins.faultLow := by
  unfold evictAt
  dsimp only
  repeat' split
  all_goals simp

@[simp] theorem unpinLine_quiet (s : State) (l : Nat) (line : BitVec 42) :
    (unpinLine s l line).flt.quiet = s.flt.quiet ∧ (unpinLine s l line).pins.faultLow = s.pins.faultLow := by
  unfold unpinLine
  split <;> simp

@[simp] theorem answerRsp_quiet (s : State) (l : Nat) (ty : Nat) (r : ReqInfo) (line : BitVec 42) (poison : Bool) (synth : Bool) :
    (answerRsp s l ty r line poison synth).flt.quiet = s.flt.quiet ∧
    (answerRsp s l ty r line poison synth).pins.faultLow = s.pins.faultLow := by
  simp [answerRsp]

@[simp] theorem answerDat_quiet (s : State) (l : Nat) (g : Nat) (r : ReqInfo) (line : BitVec 42) (data : LineData) (poison : Bool)
    (synth : Bool) :
    (answerDat s l g r line data poison synth).flt.quiet = s.flt.quiet ∧
    (answerDat s l g r line data poison synth).pins.faultLow = s.pins.faultLow := by
  simp [answerDat]

@[simp] theorem safeRequest_quiet (s : State) (l : Nat) (r : ReqInfo) (line : BitVec 42) :
    (safeRequest s l r line).flt.quiet = s.flt.quiet ∧ (safeRequest s l r line).pins.faultLow = s.pins.faultLow := by
  simp [safeRequest]

@[simp] theorem poolDown_quiet (s : State) (p : Nat) :
    (poolDown s p).flt.quiet = s.flt.quiet ∧ (poolDown s p).pins.faultLow = s.pins.faultLow := by simp [poolDown]

@[simp] theorem sessSet_quiet (s : State) (id : Nat) (idx : Nat) (sub : Nat) (v : Nat) :
    (sessSet s id idx sub v).flt.quiet = s.flt.quiet ∧ (sessSet s id idx sub v).pins.faultLow = s.pins.faultLow := ⟨rfl, rfl⟩

@[simp] theorem closeSessions_quiet (s : State) (p : Session → Bool) :
    (closeSessions s p).flt.quiet = s.flt.quiet ∧ (closeSessions s p).pins.faultLow = s.pins.faultLow := ⟨rfl, rfl⟩

@[simp] theorem setMove_quiet (s : State) (m : Nat) (x : Move) :
    (setMove s m x).flt.quiet = s.flt.quiet ∧ (setMove s m x).pins.faultLow = s.pins.faultLow := ⟨rfl, rfl⟩

@[simp] theorem startWrite_quiet (s : State) (w : RemapWrite) :
    (startWrite s w).flt.quiet = s.flt.quiet ∧ (startWrite s w).pins.faultLow = s.pins.faultLow := ⟨rfl, rfl⟩

@[simp] theorem askWrite_quiet (s : State) (w : RemapWrite) :
    (askWrite s w).flt.quiet = s.flt.quiet ∧ (askWrite s w).pins.faultLow = s.pins.faultLow := by
  unfold askWrite
  split <;> simp

@[simp] theorem releasePage_quiet (s : State) (g p : Nat) :
    (releasePage s g p).flt.quiet = s.flt.quiet ∧ (releasePage s g p).pins.faultLow = s.pins.faultLow := by
  unfold releasePage
  generalize List.range 32 = l
  refine foldl_kept _ _ _ fun t l => ?_
  refine ⟨(foldl_quiet _ _ _ fun r q => ?_).trans (setSlice_quiet ..).1, (foldl_faultLow _ _ _ fun r q => ?_).trans (setSlice_quiet ..).2⟩
  · rw [(remapWith_quiet ..).1]
    (repeat' split) <;> simp
  · rw [(remapWith_quiet ..).2]
    (repeat' split) <;> simp

@[simp] theorem salvageEnd_quiet (s : State) (m : Nat) (x : Move) :
    (salvageEnd s m x).flt.quiet = s.flt.quiet ∧ (salvageEnd s m x).pins.faultLow = s.pins.faultLow := by simp [salvageEnd]

@[simp] theorem abandonPage_quiet (s : State) (m : Nat) (x : Move) :
    (abandonPage s m x).flt.quiet = s.flt.quiet ∧ (abandonPage s m x).pins.faultLow = s.pins.faultLow := by simp [abandonPage]

@[simp] theorem dropWaiting_quiet (s : State) (m : Nat) :
    (dropWaiting s m).flt.quiet = s.flt.quiet ∧ (dropWaiting s m).pins.faultLow = s.pins.faultLow := ⟨rfl, rfl⟩

@[simp] theorem restoreLost_quiet (s : State) (m : Nat) (x : Move) :
    (restoreLost s m x).flt.quiet = s.flt.quiet ∧ (restoreLost s m x).pins.faultLow = s.pins.faultLow := ⟨rfl, rfl⟩

@[simp] theorem moveLost_quiet (s : State) (p : Nat) (mask : BitVec 16) (m : Nat) :
    (moveLost s p mask m).flt.quiet = s.flt.quiet ∧ (moveLost s p mask m).pins.faultLow = s.pins.faultLow := by
  unfold moveLost
  dsimp only
  repeat' split
  all_goals simp

@[simp] theorem moveLoss_quiet (s : State) (p : Nat) (mask : BitVec 16) :
    (moveLoss s p mask).flt.quiet = s.flt.quiet ∧ (moveLoss s p mask).pins.faultLow = s.pins.faultLow := by simp [moveLoss]

@[simp] theorem poolLost_quiet (s : State) (p : Nat) (mask : BitVec 16) :
    (poolLost s p mask).flt.quiet = s.flt.quiet ∧ (poolLost s p mask).pins.faultLow = s.pins.faultLow := by simp [poolLost]

@[simp] theorem showRemovals_quiet (s : State) :
    (showRemovals s).flt.quiet = s.flt.quiet ∧ (showRemovals s).pins.faultLow = s.pins.faultLow := ⟨rfl, rfl⟩

@[simp] theorem passStart_quiet (s : State) : (passStart s).flt.quiet = s.flt.quiet ∧ (passStart s).pins.faultLow = s.pins.faultLow := by
  simp [passStart]

@[simp] theorem listRemoval_quiet (s : State) (sw : Bool) (id : Nat) :
    (listRemoval s sw id).flt.quiet = s.flt.quiet ∧ (listRemoval s sw id).pins.faultLow = s.pins.faultLow := by simp [listRemoval]

@[simp] theorem removeHost_quiet (s : State) (v : Nat) :
    (removeHost s v).flt.quiet = s.flt.quiet ∧ (removeHost s v).pins.faultLow = s.pins.faultLow := by simp [removeHost]

@[simp] theorem unitsShown_quiet (s : State) :
    (unitsShown s).flt.quiet = s.flt.quiet ∧ (unitsShown s).pins.faultLow = s.pins.faultLow := by simp [unitsShown]

@[simp] theorem poolShown_quiet (s : State) : (poolShown s).flt.quiet = s.flt.quiet ∧ (poolShown s).pins.faultLow = s.pins.faultLow :=
  ⟨rfl, rfl⟩

@[simp] theorem moverSafe_quiet (s : State) : (moverSafe s).flt.quiet = s.flt.quiet ∧ (moverSafe s).pins.faultLow = s.pins.faultLow :=
  ⟨rfl, rfl⟩

@[simp] theorem functionWorkStops_quiet (s : State) (fn : Nat) :
    (functionWorkStops s fn).flt.quiet = s.flt.quiet ∧ (functionWorkStops s fn).pins.faultLow = s.pins.faultLow := by
  simp [functionWorkStops]

@[simp] theorem dropGone_quiet (s : State) : (dropGone s).flt.quiet = s.flt.quiet ∧ (dropGone s).pins.faultLow = s.pins.faultLow :=
  ⟨rfl, rfl⟩

@[simp] theorem functionReset_quiet (s : State) (n : Nat) :
    (functionReset s n).flt.quiet = s.flt.quiet ∧ (functionReset s n).pins.faultLow = s.pins.faultLow := by simp [functionReset]

@[simp] theorem resetVeneers_quiet (s : State) (v : Nat) :
    (resetVeneers s v).flt.quiet = s.flt.quiet ∧ (resetVeneers s v).pins.faultLow = s.pins.faultLow := by simp [resetVeneers]

@[simp] theorem resetFunctions_quiet (s : State) (v : Nat) :
    (resetFunctions s v).flt.quiet = s.flt.quiet ∧ (resetFunctions s v).pins.faultLow = s.pins.faultLow := by simp [resetFunctions]

@[simp] theorem putVppb_quiet (s : State) (v : Nat) (d : Nat) (x : Vppb) :
    (putVppb s v d x).flt.quiet = s.flt.quiet ∧ (putVppb s v d x).pins.faultLow = s.pins.faultLow := ⟨rfl, rfl⟩

@[simp] theorem setHostRequest_quiet (s : State) (c : Nat) (r : Option Bool) :
    (setHostRequest s c r).flt.quiet = s.flt.quiet ∧ (setHostRequest s c r).pins.faultLow = s.pins.faultLow := ⟨rfl, rfl⟩

@[simp] theorem bgDone_quiet (s : State) (op : Nat) (obj : Nat) :
    (bgDone s op obj).flt.quiet = s.flt.quiet ∧ (bgDone s op obj).pins.faultLow = s.pins.faultLow := ⟨rfl, rfl⟩

@[simp] theorem bindStatus_quiet (s : State) (asker : Nat) (st : Nat) :
    (bindStatus s asker st).flt.quiet = s.flt.quiet ∧ (bindStatus s asker st).pins.faultLow = s.pins.faultLow := by simp [bindStatus]

@[simp] theorem bindDone_quiet (s : State) (v : Nat) (d : Nat) (op : Nat) :
    (bindDone s v d op).flt.quiet = s.flt.quiet ∧ (bindDone s v d op).pins.faultLow = s.pins.faultLow := by simp [bindDone]

@[simp] theorem hotplug_quiet (s : State) (v : Nat) (d : Nat) :
    (hotplug s v d).flt.quiet = s.flt.quiet ∧ (hotplug s v d).pins.faultLow = s.pins.faultLow := by simp [hotplug]

@[simp] theorem becomeBound_quiet (s : State) (v d : Nat) :
    (becomeBound s v d).flt.quiet = s.flt.quiet ∧ (becomeBound s v d).pins.faultLow = s.pins.faultLow := by
  unfold becomeBound
  dsimp only
  split <;> simp

@[simp] theorem dropPosted_quiet (s : State) (v : Nat) (p : Nat) (ld : Nat) :
    (dropPosted s v p ld).flt.quiet = s.flt.quiet ∧ (dropPosted s v p ld).pins.faultLow = s.pins.faultLow := ⟨rfl, rfl⟩

@[simp] theorem bindingEnds_quiet (s : State) (v : Nat) (d : Nat) :
    (bindingEnds s v d).flt.quiet = s.flt.quiet ∧ (bindingEnds s v d).pins.faultLow = s.pins.faultLow := by
  unfold bindingEnds
  dsimp only
  repeat' split
  all_goals simp

@[simp] theorem bindsLinkDown_quiet (s : State) (p : Nat) :
    (bindsLinkDown s p).flt.quiet = s.flt.quiet ∧ (bindsLinkDown s p).pins.faultLow = s.pins.faultLow :=
  foldl_kept _ _ _ fun t b => by
    dsimp only
    (repeat' split) <;> simp

@[simp] theorem bindsPresence_quiet (s : State) (p : Nat) :
    (bindsPresence s p).flt.quiet = s.flt.quiet ∧ (bindsPresence s p).pins.faultLow = s.pins.faultLow := by simp [bindsPresence]

@[simp] theorem slotFaultShown_quiet (s : State) (c : Nat) :
    (slotFaultShown s c).flt.quiet = s.flt.quiet ∧ (slotFaultShown s c).pins.faultLow = s.pins.faultLow := by
  unfold slotFaultShown
  split <;> simp

@[simp] theorem slotPresenceShown_quiet (s : State) (c : Nat) :
    (slotPresenceShown s c).flt.quiet = s.flt.quiet ∧ (slotPresenceShown s c).pins.faultLow = s.pins.faultLow := by
  unfold slotPresenceShown
  split <;> simp

@[simp] theorem setLinkState_quiet (s : State) (p : Nat) (n : Nat) :
    (setLinkState s p n).flt.quiet = s.flt.quiet ∧ (setLinkState s p n).pins.faultLow = s.pins.faultLow := ⟨rfl, rfl⟩

@[simp] theorem trainPort_quiet (s : State) (p : Nat) :
    (trainPort s p).flt.quiet = s.flt.quiet ∧ (trainPort s p).pins.faultLow = s.pins.faultLow := by simp [trainPort]

@[simp] theorem perstDrive_quiet (s : State) (p : Nat) :
    (perstDrive s p).flt.quiet = s.flt.quiet ∧ (perstDrive s p).pins.faultLow = s.pins.faultLow := ⟨rfl, rfl⟩

@[simp] theorem flushPair_quiet (s : State) (p : Nat) (v : Vn) :
    (flushPair s p v).flt.quiet = s.flt.quiet ∧ (flushPair s p v).pins.faultLow = s.pins.faultLow :=
  foldl_kept _ _ _ fun t e => by split <;> simp

@[simp] theorem flushDirty_quiet (s : State) (v : Nat) (p : Nat) (sn : ProxySnoop) :
    (flushDirty s v p sn).flt.quiet = s.flt.quiet ∧ (flushDirty s v p sn).pins.faultLow = s.pins.faultLow := by
  unfold flushDirty
  split <;> simp

@[simp] theorem flushSnoops_quiet (s : State) (v p : Nat) :
    (flushSnoops s v p).flt.quiet = s.flt.quiet ∧ (flushSnoops s v p).pins.faultLow = s.pins.faultLow := by simp [flushSnoops]

@[simp] theorem muteEntries_quiet (s : State) (v : Nat) :
    (muteEntries s v).flt.quiet = s.flt.quiet ∧ (muteEntries s v).pins.faultLow = s.pins.faultLow := ⟨rfl, rfl⟩

@[simp] theorem flushSent_quiet (s : State) (p : Nat) :
    (flushSent s p).flt.quiet = s.flt.quiet ∧ (flushSent s p).pins.faultLow = s.pins.faultLow := by simp [flushSent]

@[simp] theorem flushIngress_quiet (s : State) (p : Nat) :
    (flushIngress s p).flt.quiet = s.flt.quiet ∧ (flushIngress s p).pins.faultLow = s.pins.faultLow := ⟨rfl, rfl⟩

theorem forHost_quiet {f : State → Nat → State} (s : State) (o : Option Nat)
    (h : ∀ t v, (f t v).flt.quiet = t.flt.quiet ∧ (f t v).pins.faultLow = t.pins.faultLow) :
    (forHost s f o).flt.quiet = s.flt.quiet ∧ (forHost s f o).pins.faultLow = s.pins.faultLow := by
  cases o with
  | none => exact ⟨rfl, rfl⟩
  | some v => exact h s v

@[simp] theorem flushPort_quiet (s : State) (p : Nat) :
    (flushPort s p).flt.quiet = s.flt.quiet ∧ (flushPort s p).pins.faultLow = s.pins.faultLow := by
  unfold flushPort
  generalize allVns = vns
  extract_lets key s0 s1 swc s2 s3
  have muted : s0.flt.quiet = s.flt.quiet ∧ s0.pins.faultLow = s.pins.faultLow :=
    forHost_quiet s (hostOfPort s p) muteEntries_quiet
  clear_value s0
  have pairs : s1.flt.quiet = s0.flt.quiet ∧ s1.pins.faultLow = s0.pins.faultLow :=
    foldl_kept _ _ _ fun t v => flushPair_quiet t p v
  clear_value s1
  have cut : s2.flt = s1.flt ∧ s2.pins = s1.pins := ⟨rfl, rfl⟩
  clear_value s2
  obtain ⟨flt, pins⟩ := cut
  have pool := poolDown_quiet s2 p
  have sent := flushSent_quiet (poolDown s2 p) p
  have ingress : s3.flt.quiet = _ ∧ s3.pins.faultLow = _ := flushIngress_quiet (flushSent (poolDown s2 p) p) p
  clear_value s3
  have last := forHost_quiet s3 (hostOfPort s3 p) fun t v => flushSnoops_quiet t v p
  rw [last.1, last.2, ingress.1, ingress.2, sent.1, sent.2, pool.1, pool.2, flt, pins, pairs.1, pairs.2]
  exact muted

@[simp] theorem ideEnds_quiet (s : State) (p : Nat) :
    (ideEnds s p).flt.quiet = s.flt.quiet ∧ (ideEnds s p).pins.faultLow = s.pins.faultLow := ⟨rfl, rfl⟩

@[simp] theorem linkFalls_quiet (s : State) (p : Nat) :
    (linkFalls s p).flt.quiet = s.flt.quiet ∧ (linkFalls s p).pins.faultLow = s.pins.faultLow := by simp [linkFalls]

@[simp] theorem hotReset_quiet (s : State) (p : Nat) :
    (hotReset s p).flt.quiet = s.flt.quiet ∧ (hotReset s p).pins.faultLow = s.pins.faultLow := by simp [hotReset]

@[simp] theorem vppbsReset_quiet (s : State) (v : Nat) :
    (vppbsReset s v).flt.quiet = s.flt.quiet ∧ (vppbsReset s v).pins.faultLow = s.pins.faultLow := ⟨rfl, rfl⟩

@[simp] theorem uncommitDecoders_quiet (s : State) (v : Nat) :
    (uncommitDecoders s v).flt.quiet = s.flt.quiet ∧ (uncommitDecoders s v).pins.faultLow = s.pins.faultLow := ⟨rfl, rfl⟩

@[simp] theorem vcsReset_quiet (s : State) (v : Nat) :
    (vcsReset s v).flt.quiet = s.flt.quiet ∧ (vcsReset s v).pins.faultLow = s.pins.faultLow := by simp [vcsReset]

@[simp] theorem portDown_quiet (s : State) (p : Nat) :
    (portDown s p).flt.quiet = s.flt.quiet ∧ (portDown s p).pins.faultLow = s.pins.faultLow := by
  unfold portDown
  split <;> simp

@[simp] theorem slotPowerLost_quiet (s : State) (c : Nat) :
    (slotPowerLost s c).flt.quiet = s.flt.quiet ∧ (slotPowerLost s c).pins.faultLow = s.pins.faultLow := by
  unfold slotPowerLost
  split <;> simp

@[simp] theorem slotPowerGood_quiet (s : State) (c : Nat) :
    (slotPowerGood s c).flt.quiet = s.flt.quiet ∧ (slotPowerGood s c).pins.faultLow = s.pins.faultLow := by
  unfold slotPowerGood
  split <;> simp

@[simp] theorem setSlot_quiet (s : State) (c : Nat) (x : SlotCh) :
    (setSlot s c x).flt.quiet = s.flt.quiet ∧ (setSlot s c x).pins.faultLow = s.pins.faultLow := ⟨rfl, rfl⟩

@[simp] theorem slotShown_quiet (before after : State) (c : Nat) :
    (slotShown before after c).flt.quiet = after.flt.quiet ∧ (slotShown before after c).pins.faultLow = after.pins.faultLow := by
  unfold slotShown
  dsimp only
  repeat' split
  all_goals simp

@[simp] theorem slotPower_quiet (before after : State) (c : Nat) :
    (slotPower before after c).flt.quiet = after.flt.quiet ∧ (slotPower before after c).pins.faultLow = after.pins.faultLow := by
  unfold slotPower
  dsimp only
  split <;> simp

@[simp] theorem trackerSafe_quiet (s : State) (l : Nat) (t : Nat) (k : Tracker) :
    (trackerSafe s l t k).flt.quiet = s.flt.quiet ∧ (trackerSafe s l t k).pins.faultLow = s.pins.faultLow := by
  unfold trackerSafe
  repeat' split
  all_goals simp

@[simp] theorem sliceSafe_quiet (s : State) (l : Nat) :
    (sliceSafe s l).flt.quiet = s.flt.quiet ∧ (sliceSafe s l).pins.faultLow = s.pins.faultLow := by simp [sliceSafe]

@[simp] theorem dataPathSafe_quiet (s : State) :
    (dataPathSafe s).flt.quiet = s.flt.quiet ∧ (dataPathSafe s).pins.faultLow = s.pins.faultLow := by simp [dataPathSafe]

@[simp] theorem slotsSafe_quiet (s : State) :
    (slotsSafe s).flt.quiet = s.flt.quiet ∧ (slotsSafe s).pins.faultLow = s.pins.faultLow := by
  unfold slotsSafe
  generalize List.range 48 = l
  refine foldl_kept _ _ _ fun t c => ?_
  dsimp only
  split
  · exact slotPower_quiet ..
  · exact ⟨rfl, rfl⟩

end Sys2Proof.Proofs.QuietFrames

/-!
The collector's reactions (R421, R423, R424, R426, R429): what a report records, an interrupt of the cores, and the safe state.
-/

namespace Sys2Proof.Proofs.Collector

open Sys2Proof Sys2Proof.Machine Sys2Proof.Laws Sys2Proof.Proofs.Shared Sys2Proof.Proofs.QuietFrames

/-! ### An interrupt of the cores (R421) -/

/-- The cores of `l` enter P0. -/
def entered (s : State) (l : List Nat) : State := l.foldl (fun t k => setCore t k (enterP0 (coreSt t k))) s

theorem entered_frame (l : List Nat) : ∀ s, ∃ cores, entered s l = { s with mgmt := { s.mgmt with cores := cores } } := by
  induction l with
  | nil => exact fun s => ⟨_, rfl⟩
  | cons k l ih =>
    intro s
    obtain ⟨cores, frame⟩ := ih (setCore s k (enterP0 (coreSt s k)))
    exact ⟨cores, frame⟩

theorem level_enterP0 (s : State) (j k : Nat) (p0 : k = j ∨ (coreSt s k).level = .p0) :
    (coreSt (setCore s j (enterP0 (coreSt s j))) k).level = .p0 := by
  by_cases same : k = j
  · rw [same]
    exact congrArg CoreSt.level (tabGet_set_same coreReset j (enterP0 (coreSt s j)) s.mgmt.cores)
  · exact (congrArg CoreSt.level (tabGet_set_other same coreReset coreReset (enterP0 (coreSt s j)) s.mgmt.cores)).trans
      (p0.resolve_left same)

theorem level_entered (k : Nat) (l : List Nat) : ∀ s, (k ∈ l ∨ (coreSt s k).level = .p0) → (coreSt (entered s l) k).level = .p0 := by
  induction l with
  | nil => exact fun s p0 => p0.resolve_left List.not_mem_nil
  | cons j l ih =>
    intro s p0
    refine ih _ ?_
    by_cases later : k ∈ l
    · exact .inl later
    · exact .inr (level_enterP0 s j k (p0.imp_left fun member => (List.mem_cons.1 member).resolve_right later))

/-- What an interrupt by source `f` leaves. -/
structure Interrupted (s t : State) (f : Nat) : Prop where
  sent : t.out = s.out ++ [Out.coreInterrupt f]
  collector : t.flt = { s.flt with lastInterrupt := f }
  levels : ∀ k, k < 4 → (coreSt t k).level = .p0
  counters : ∀ n, n ≠ counterNo 0xC02C 5 → counter t n = counter s n

theorem interrupted (s : State) (f : Nat) (syn : BitVec 64) : Interrupted s (interruptCores s f syn) f := by
  have all : coresInterrupted s = entered s (List.range 4) := rfl
  have levels := fun k (below : k < 4) => level_entered k (List.range 4) s (.inl (List.mem_range.2 below))
  obtain ⟨cores, frame⟩ := entered_frame (List.range 4) s
  rw [← all] at frame levels
  unfold interruptCores
  extract_lets u flt v
  have out : u.out = s.out := by rw [show u = _ from frame]
  have collector : v.flt = { s.flt with lastInterrupt := f } := by
    show { u.flt with lastInterrupt := f } = _
    rw [show u = _ from frame]
  have same : v.out = u.out ∧ v.mgmt = u.mgmt ∧ v.perf = u.perf := ⟨rfl, rfl, rfl⟩
  have perf : u.perf = s.perf := by rw [show u = _ from frame]
  clear_value v
  obtain ⟨vout, vmgmt, vperf⟩ := same
  refine ⟨?_, collector, fun k below => ?_, fun n other => ?_⟩
  · show (notify v 0xA020 3 f syn).out ++ _ = _
    rw [notify_out, vout, out]
  · have here : coreSt v k = coreSt u k := by unfold coreSt; rw [vmgmt]
    show (coreSt v k).level = _
    rw [here]
    exact levels k below
  · refine (counter_notify v 0xA020 3 f syn other).trans ?_
    unfold counter
    rw [vperf, perf]

/-! ### The safe state (R429) -/

/-- What the entry into the safe state leaves of the collector and of FAULT_N. -/
structure Safe (s t : State) (cause : Nat) : Prop where
  safe : t.flt.safe = true
  cause' : t.flt.safeCause = cause
  timers : t.flt.timers = []
  frozen : t.flt.frozen = true
  latch : t.flt.latch = s.flt.latch
  faultLow : t.pins.faultLow = true

theorem enterSafe_enters {s : State} (running : s.flt.safe = false) (cause : Nat) : Safe s (enterSafe s cause) cause := by
  obtain ⟨log, n, frame⟩ := logAppend_tail s 0xFFFF 0x0006 0 false 0 (BitVec.ofNat 192 cause)
  unfold enterSafe logInfo
  rw [if_neg (by rw [running]; decide), frame]
  extract_lets u flt frozen pins v
  have begun : v.flt = { s.flt with log := log, nextSeq := n, safe := true, safeCause := cause, timers := [], frozen := true } ∧
      v.pins.faultLow = true := ⟨rfl, rfl⟩
  clear_value v
  obtain ⟨collector, low⟩ := begun
  have slots := slotsSafe_quiet (dataPathSafe (notify v 0xA050 3 1 (BitVec.ofNat 64 cause)))
  have path := dataPathSafe_quiet (notify v 0xA050 3 1 (BitVec.ofNat 64 cause))
  rw [path.1, path.2, notify_flt, notify_pins, low] at slots
  obtain ⟨quiet, pin⟩ := slots
  generalize slotsSafe (dataPathSafe (notify v 0xA050 3 1 (BitVec.ofNat 64 cause))) = t at quiet pin
  rw [collector] at quiet
  exact ⟨congrArg FltState.safe quiet, congrArg FltState.safeCause quiet, congrArg FltState.timers quiet, congrArg FltState.frozen quiet,
    (congrArg FltState.latch quiet :), pin⟩

theorem enterSafe_again {s : State} (safe : s.flt.safe = true) (cause : Nat) : enterSafe s cause = s := if_pos safe

theorem enterSafe_safe (s : State) (cause : Nat) : (enterSafe s cause).flt.safe = true := by
  by_cases safe : s.flt.safe = true
  · rw [enterSafe_again safe]; exact safe
  · exact (enterSafe_enters (Bool.eq_false_iff.2 safe) cause).safe

theorem enterSafe_latch (s : State) (cause : Nat) : (enterSafe s cause).flt.latch = s.flt.latch := by
  by_cases safe : s.flt.safe = true
  · rw [enterSafe_again safe]
  · exact (enterSafe_enters (Bool.eq_false_iff.2 safe) cause).latch

end Sys2Proof.Proofs.Collector

/-!
Commits of the stored image (R412 to R414).
-/

namespace Sys2Proof.Proofs.Commits

open Sys2Proof Sys2Proof.Machine Sys2Proof.Laws Sys2Proof.Safety Sys2Proof.Proofs.Shared Sys2Proof.Proofs.Requests

/-! ### The start of an image write (R412) -/

theorem holdupPasses_congr {s t : State} (pow : t.pow = s.pow) (n : Nat) : holdupPasses t n = holdupPasses s n := by
  unfold holdupPasses eu
  rw [pow]

/-- The state in which the energy for `w` is checked. -/
def measured (s : State) (w : ImageWrite) : State := odSet (odSet s 0x8030 5 w.size) 0x1010 3 0

theorem startImage_idle {s : State} {w : ImageWrite} (idle : s.spr.commit = none) (vaux : s.pow.vauxStage = .none) (check : Bool) :
    startImage s w check = if !holdupPasses s w.size then (odSet (bumpC (measured s w) 0xC02A 1) 0x1010 2 2, some (.holdupLow, []))
      else if check then (measured s w, some (.ok, commitBody (measured s w) (odGet (measured s w) 0x1010 1) w.size))
      else ({ measured s w with spr := { s.spr with commit := some w } }, none) := by
  unfold startImage
  rw [if_neg (by rw [idle, vaux]; decide)]
  dsimp only
  rw [holdupPasses_congr (s := s) rfl]
  rfl

theorem startImage_starts {s : State} {w : ImageWrite} (idle : s.spr.commit = none) (vaux : s.pow.vauxStage = .none)
    (energy : holdupPasses s w.size = true) :
    startImage s w false = ({ measured s w with spr := { s.spr with commit := some w } }, none) := by
  rw [startImage_idle idle vaux, energy]; rfl

theorem startImage_low {s : State} {w : ImageWrite} (idle : s.spr.commit = none) (vaux : s.pow.vauxStage = .none) (check : Bool)
    (energy : holdupPasses s w.size = false) :
    startImage s w check = (odSet (bumpC (measured s w) 0xC02A 1) 0x1010 2 2, some (.holdupLow, [])) := by
  rw [startImage_idle idle vaux, energy]; rfl

theorem startImage_busy {s : State} {w v : ImageWrite} (under : s.spr.commit = some v) (check : Bool) :
    startImage s w check = (s, some (.busy, [])) := by
  unfold startImage
  exact if_pos (.inl (by rw [under]; rfl))

/-- What a state leaves whose energy has been measured. -/
theorem measured_frame (s : State) (w : ImageWrite) : ∃ od, measured s w = { s with od := od } := ⟨_, rfl⟩

theorem odGet_measured (s : State) (w : ImageWrite) : odGet (measured s w) 0x1010 3 = 0 := odGet_odSet_same ..

/-! ### COMMIT (R412) -/

/-- The image write that a COMMIT of request `r` starts. -/
def commitOf (s : State) (r : Req) (x : Session) : ImageWrite :=
  { asker := some (x.id, r.seq), msgType := 0x09, reqId := r.reqId, od := (storedImage (takenState s r)).od
    srcCfg := (storedImage (takenState s r)).srcCfg, guard := (storedImage (takenState s r)).guard
    size := (Config.imageBytes (storedImage (takenState s r)).od).val }

theorem commit_starts (r : Req) (x : Session) (o : Byte) (s : State) (fresh : freshRequest s r x 0x0100) (idle : s.spr.commit = none)
    (vaux : s.pow.vauxStage = .none) (whole : o.getLsbD 0 = false)
    (energy : holdupPasses s (Config.imageBytes (storedImage (takenState s r)).od).val = true) :
    ∃ t : State, ∃ w : ImageWrite, exec (.commit r o) s = .next t ∧ t.spr.commit = some w ∧ w.asker = some (x.id, r.seq) ∧ w.msgType = 9 ∧
      w.od = (storedImage (takenState s r)).od ∧ odGet t 0x1010 3 = 0 ∧ t.out = s.out ∧
      (∀ y : Session, session? t r.session = some y → (r.seq, r.via) ∈ y.executing) ∧
      t = { s with od := t.od, spr := { s.spr with sessions := t.spr.sessions, commit := some w } } := by
  have start := startImage_starts (s := takenState s r) (w := commitOf s r x) idle vaux energy
  have found := session?_takenState fresh.2.2.1
  obtain ⟨od, frame⟩ := measured_frame (takenState s r) (commitOf s r x)
  have counted := odGet_measured (takenState s r) (commitOf s r x)
  generalize measured (takenState s r) (commitOf s r x) = m at start frame counted
  generalize begun : { m with spr := { (takenState s r).spr with commit := some (commitOf s r x) } } = u at start
  have run : exec (.commit r o) s = .next (updSession u r.session fun y => { y with executing := y.executing ++ [(r.seq, r.via)] }) := by
    refine congrArg Host.Outcome.next (withRequest_later fresh 0x09 ?_)
    rw [whole]
    exact start
  have here : session? u r.session = some (takenSession s r x) := by
    rw [← begun]; exact found
  have noted := session?_updSession_same (f := fun y => { y with executing := y.executing ++ [(r.seq, r.via)] }) (fun _ => rfl) here
  refine ⟨_, commitOf s r x, run, ?_, rfl, rfl, rfl, ?_, ?_, fun y open' => ?_, ?_⟩
  · rw [← begun]; rfl
  · rw [← begun]; exact counted
  · rw [← begun, frame]; rfl
  · obtain rfl := Option.some.inj (noted.symm.trans open')
    exact List.mem_append_right _ (List.mem_singleton.2 rfl)
  · rw [← begun, frame]; rfl

theorem commit_low (r : Req) (x : Session) (o : Byte) (s : State) (fresh : freshRequest s r x 0x0100) (idle : s.spr.commit = none)
    (vaux : s.pow.vauxStage = .none) (energy : holdupPasses s (Config.imageBytes (storedImage (takenState s r)).od).val = false) :
    ∃ u : State, exec (.commit r o) s = .next (finish u r.session r.seq r.reqId 9 r.via .holdupLow []) ∧ odGet u 0x1010 2 = 2 ∧
      u.spr.commit = none ∧ counter u (counterNo 0xC02A 1) = counter s (counterNo 0xC02A 1) + 1 :=
  ⟨_, congrArg Host.Outcome.next (withRequest_fresh fresh 0x09 (startImage_low (s := takenState s r) (w := commitOf s r x) idle vaux _ energy)),
    odGet_odSet_same .., idle, counter_bump_same (measured (takenState s r) (commitOf s r x)) (counterNo 0xC02A 1) 1⟩

theorem commit_busy (r : Req) (x : Session) (o : Byte) (w : ImageWrite) (s : State) (fresh : freshRequest s r x 0x0100)
    (under : s.spr.commit = some w) :
    exec (.commit r o) s = .next (finish (takenState s r) r.session r.seq r.reqId 9 r.via .busy []) :=
  congrArg Host.Outcome.next (withRequest_fresh fresh 0x09 (startImage_busy (s := takenState s r) (w := commitOf s r x) under _))

/-! ### The image has been written (R412, R413) -/

/-- The slots once image `im` has been written. -/
def slotsWith (s : State) (im : ImageSlot) : SprState :=
  if newestIs0 s then { s.spr with slot1 := im, commit := none } else { s.spr with slot0 := im, commit := none }

/-- What the end of an image write leaves before its asker is answered: `im` is in the slot that held the older image. -/
structure Written (s t : State) (im : ImageSlot) : Prop where
  idle : t.spr.commit = none
  generation : odGet t 0x1010 1 = im.generation
  status : odGet t 0x1010 2 = 1
  new : (if newestIs0 s then t.spr.slot1 else t.spr.slot0) = im
  old : (if newestIs0 s then t.spr.slot0 else t.spr.slot1) = (if newestIs0 s then s.spr.slot0 else s.spr.slot1)
  touched : t = { s with od := t.od, spr := t.spr, perf := t.perf, out := t.out }

theorem slotsWith_new (s : State) (im : ImageSlot) : (if newestIs0 s then (slotsWith s im).slot1 else (slotsWith s im).slot0) = im := by
  unfold slotsWith; split <;> rfl

theorem slotsWith_old (s : State) (im : ImageSlot) : (if newestIs0 s then (slotsWith s im).slot0 else (slotsWith s im).slot1) =
    (if newestIs0 s then s.spr.slot0 else s.spr.slot1) := by
  unfold slotsWith; split <;> rfl

theorem slotsWith_commit (s : State) (im : ImageSlot) : (slotsWith s im).commit = none := by
  unfold slotsWith; split <;> rfl

theorem written_slots (s : State) (im : ImageSlot) (k : Nat) : Written s (bumpC (odSet (odSet (odSet { s with spr := slotsWith s im }
    0x1010 1 im.generation) 0x1010 2 1) 0x1010 5 k) 0xC02C 3) im := by
  have generation : odGet (odSet (odSet (odSet { s with spr := slotsWith s im } 0x1010 1 im.generation) 0x1010 2 1) 0x1010 5 k) 0x1010 1 =
      im.generation := by
    rw [odGet_odSet_sub _ _ _ _ (by decide), odGet_odSet_sub _ _ _ _ (by decide), odGet_odSet_same]
  have status : odGet (odSet (odSet (odSet { s with spr := slotsWith s im } 0x1010 1 im.generation) 0x1010 2 1) 0x1010 5 k) 0x1010 2 = 1 := by
    rw [odGet_odSet_sub _ _ _ _ (by decide), odGet_odSet_same]
  exact ⟨slotsWith_commit s im, generation, status, slotsWith_new s im, slotsWith_old s im, rfl⟩

theorem Written.emit {s t : State} {im : ImageSlot} (written : Written s t im) (o : Out) : Written s (emit t o) im :=
  ⟨written.idle, written.generation, written.status, written.new, written.old, by
    show { t with out := _ } = _
    rw [written.touched]
    rfl⟩

theorem Written.finish {s t : State} {im : ImageSlot} (written : Written s t im) (id seq reqId type : Nat) (via : Transport) (st : Status)
    (body : List Byte) : Written s (finish t id seq reqId type via st body) im := by
  have answer := answered_finish t id seq reqId type via st body
  generalize Machine.finish t id seq reqId type via st body = u at answer
  have od : u.od = t.od := by rw [answer.touched]
  have slots : u.spr.slot0 = t.spr.slot0 ∧ u.spr.slot1 = t.spr.slot1 ∧ u.spr.commit = t.spr.commit := by
    rw [answer.touched]; exact ⟨rfl, rfl, rfl⟩
  obtain ⟨slot0, slot1, commit⟩ := slots
  refine ⟨commit.trans written.idle, (odGet_congr od ..).trans written.generation, (odGet_congr od ..).trans written.status, ?_, ?_, ?_⟩
  · rw [slot0, slot1]; exact written.new
  · rw [slot0, slot1]; exact written.old
  · rw [answer.touched, written.touched]

/-- The numbers of OD 1010.05 after slots `spr`: one bit for each valid slot. -/
def validSlots (spr : SprState) : Nat := (if spr.slot0.valid then 1 else 0) + (if spr.slot1.valid then 2 else 0)

/-- The image that `w` leaves in its slot. -/
def imageOf (s : State) (w : ImageWrite) : ImageSlot :=
  { valid := true, generation := odGet s 0x1010 1 + 1, od := w.od, srcCfg := w.srcCfg, guard := w.guard }

theorem written_commitDone (s : State) (w : ImageWrite) : Written s (commitDone s w) (imageOf s w) := by
  have written := written_slots s (imageOf s w) (validSlots (slotsWith s (imageOf s w)))
  unfold commitDone
  extract_lets gen im spr slots u v
  have made : v = bumpC (odSet (odSet (odSet { s with spr := slotsWith s (imageOf s w) } 0x1010 1 (imageOf s w).generation) 0x1010 2 1)
      0x1010 5 (validSlots (slotsWith s (imageOf s w)))) 0xC02C 3 := rfl
  rw [← made] at written
  clear_value v
  cases w.asker with
  | none => exact written.emit _
  | some asker =>
    dsimp only
    split
    · exact written.finish ..
    · exact written

theorem commit_done (w : ImageWrite) (s : State) (under : s.spr.commit = some w) (running : s.pins.inReset = false) :
    ∃ t : State, exec .commitWriteDone s = .next t ∧ t.spr.commit = none ∧ odGet t 0x1010 1 = odGet s 0x1010 1 + 1 ∧
      odGet t 0x1010 2 = 1 ∧ (if newestIs0 s then t.spr.slot1 else t.spr.slot0) =
        { valid := true, generation := odGet s 0x1010 1 + 1, od := w.od, srcCfg := w.srcCfg, guard := w.guard } ∧
      (if newestIs0 s then t.spr.slot0 else t.spr.slot1) = (if newestIs0 s then s.spr.slot0 else s.spr.slot1) ∧
      t = { s with od := t.od, spr := t.spr, perf := t.perf, out := t.out } := by
  have written := written_commitDone s w
  have stays : resetStep4 (commitDone s w) = commitDone s w := by
    unfold resetStep4
    rw [show (commitDone s w).pins = s.pins by rw [written.touched], running]
    rfl
  have run : exec .commitWriteDone s = .next (commitDone s w) := by
    show execCommitWriteDone s = _
    unfold execCommitWriteDone
    rw [under]
    exact congrArg Host.Outcome.next stays
  exact ⟨_, run, written.idle, written.generation, written.status, written.new, written.old, written.touched⟩

/-! ### The default image (R414) -/

theorem default_outOfRange (a : Byte) (s : State) (high : 1 < a.toNat) :
    exec (.writeDefaultImage a) s = .next (emit s (.status .outOfRange)) := by
  show execWriteDefaultImage a s = _
  unfold execWriteDefaultImage
  rw [show defaultImage s none 0 a.toNat = (s, some (.outOfRange, [])) from if_pos high]
  rfl

/-- The entries that a default image with argument `a` keeps. -/
def keptEntries (s : State) (a : Nat) : List (Nat × Nat) :=
  if a = 0 then (newestSlot s).od.filter fun p => decide (0x1100 ≤ p.1 / 256) && decide (p.1 / 256 ≤ 0x113F) else []

/-- The write of a default image that keeps `kept`. -/
def defaultWrite (kept : List (Nat × Nat)) : ImageWrite :=
  { asker := none, msgType := 0x0A, reqId := 0, od := kept, srcCfg := [], guard := [], size := (Config.imageBytes kept).val }

theorem default_starts (a : Byte) (s : State) (low : a.toNat ≤ 1) (idle : s.spr.commit = none) (vaux : s.pow.vauxStage = .none)
    (energy : ∀ n : Nat, n ≤ 2 ^ 21 → holdupPasses s n = true) :
    ∃ t : State, ∃ w : ImageWrite, exec (.writeDefaultImage a) s = .next t ∧ t.spr.commit = some w ∧ w.asker = none ∧ w.srcCfg = [] ∧
      w.guard = [] ∧ (a.toNat = 1 → w.od = []) ∧ t = { s with od := t.od, spr := { s.spr with commit := some w } } := by
  have start := startImage_starts (w := defaultWrite (keptEntries s a.toNat)) idle vaux
    (energy _ (Nat.le_of_lt_succ (Config.imageBytes (keptEntries s a.toNat)).isLt))
  have chosen : defaultImage s none 0 a.toNat = startImage s (defaultWrite (keptEntries s a.toNat)) false := if_neg (Nat.not_lt.2 low)
  have none' : a.toNat = 1 → keptEntries s a.toNat = [] := fun one => if_neg (by rw [one]; decide)
  generalize keptEntries s a.toNat = kept at start chosen none'
  obtain ⟨od, frame⟩ := measured_frame s (defaultWrite kept)
  rw [start, frame] at chosen
  refine ⟨{ s with od := od, spr := { s.spr with commit := some (defaultWrite kept) } }, defaultWrite kept, ?_, rfl, rfl, rfl, rfl, none', rfl⟩
  show execWriteDefaultImage a s = _
  unfold execWriteDefaultImage
  rw [chosen]

/-- Settles O50: a commit or a default image starts when the energy is there and none is under way (`startImage`), and its end is
`Written`, whoever is answered. -/
theorem commits : Obligations.Commits :=
  ⟨commit_starts, commit_low, commit_busy, commit_done, default_outOfRange, default_starts⟩

end Sys2Proof.Proofs.Commits

/-!
Reports of fault sources and rail faults (R416, R417, R421, R426, R428, R433): a report is recorded, logged and reacted to by its class.
-/

namespace Sys2Proof.Proofs.FaultReports

open Sys2Proof Sys2Proof.Machine Sys2Proof.Laws Sys2Proof.Proofs.Shared Sys2Proof.Proofs.QuietFrames Sys2Proof.Proofs.Collector

/-! ### What is recorded (R426, R433) -/

/-- The time at which source `f` has last been logged is now. -/
def stampedNow (s : State) (f : Nat) : State :=
  { s with flt := { s.flt with lastLogged := tabPut f s.time.clock s.flt.lastLogged } }

theorem logReport_eq (s : State) (f : Nat) (r : Report) : ∃ closed : Bool, logReport s f r =
    if closed then bumpC s 0xC02D 5
    else stampedNow (logAppend s f 0x0001 (recClass (srcRecord s f) + 1) r.rail r.syndrome r.data) f := ⟨_, rfl⟩

theorem logReport_frame (s : State) (f : Nat) (r : Report) : ∃ log n last perf, logReport s f r =
      { s with flt := { s.flt with log := log, nextSeq := n, lastLogged := last }, perf := perf } ∧
    ∀ n, n ≠ counterNo 0xC02D 5 → counter (logReport s f r) n = counter s n := by
  obtain ⟨closed, eq⟩ := logReport_eq s f r
  rw [eq]
  cases closed
  · obtain ⟨log, n, frame⟩ := logAppend_tail s f 0x0001 (recClass (srcRecord s f) + 1) r.rail r.syndrome r.data
    rw [frame]
    exact ⟨log, n, _, s.perf, rfl, fun _ _ => rfl⟩
  · exact ⟨s.flt.log, s.flt.nextSeq, s.flt.lastLogged, _, rfl, fun n other => counter_bump_other s other 1⟩

/-- What recording report `r` of source `f` leaves (R426, R433), before the reaction of its class. -/
structure Recorded (s v : State) (f : Nat) (r : Report) : Prop where
  sticky : f ∈ v.flt.sticky
  counted : tabGet 0 f v.flt.counts = tabGet 0 f s.flt.counts + 1
  first : s.flt.latch = none → v.flt.latch = some (f, s.time.devTime, r.syndrome) ∧ v.flt.overflow = s.flt.overflow
  later : s.flt.latch ≠ none → v.flt.latch = s.flt.latch ∧ v.flt.overflow = true
  reports : counter v (counterNo 0xC02D 1) = counter s (counterNo 0xC02D 1) + 1
  counters : ∀ n, n ≠ counterNo 0xC02D 1 → n ≠ counterNo 0xC02D 5 → counter v n = counter s n
  pairs : v.flt.pairs = s.flt.pairs
  rails : v.flt.railFaults = s.flt.railFaults ∧ v.flt.railDriven = s.flt.railDriven
  touched : v = { s with flt := v.flt, perf := v.perf }

theorem recorded_recordReport (s : State) (f : Nat) (r : Report) : Recorded s (recordReport s f r) f r := by
  refine ⟨(mem_setInsert ..).2 (.inl rfl), tabGet_mod_same 0 f (· + 1) s.flt.counts, fun none' => ?_, fun some' => ?_,
    counter_bump_same s (counterNo 0xC02D 1) 1, fun n one _ => counter_bump_other s one 1, rfl, ⟨rfl, rfl⟩, rfl⟩
  · show (if s.flt.latch.isSome then s.flt.latch else some (f, s.time.devTime, r.syndrome)) = _ ∧
      (s.flt.overflow || s.flt.latch.isSome) = _
    rw [none']
    exact ⟨rfl, Bool.or_false _⟩
  · obtain ⟨l, held⟩ := Option.ne_none_iff_exists'.1 some'
    show (if s.flt.latch.isSome then s.flt.latch else some (f, s.time.devTime, r.syndrome)) = _ ∧
      (s.flt.overflow || s.flt.latch.isSome) = _
    rw [held]
    exact ⟨rfl, Bool.or_true _⟩

/-- A report as it is recorded and logged. -/
def noted (s : State) (f : Nat) (r : Report) : State := logReport (recordReport s f r) f r

theorem recorded_noted (s : State) (f : Nat) (r : Report) : Recorded s (noted s f r) f r := by
  unfold noted
  have recorded := recorded_recordReport s f r
  generalize recordReport s f r = u at recorded ⊢
  obtain ⟨log, n, last, perf, frame, counters⟩ := logReport_frame u f r
  generalize logReport u f r = v at frame counters ⊢
  refine ⟨?_, ?_, fun none' => ?_, fun some' => ?_, (counters _ (by decide)).trans recorded.reports,
    fun n one five => (counters n five).trans (recorded.counters n one five), ?_, ?_, ?_⟩
  · rw [frame]; exact recorded.sticky
  · rw [frame]; exact recorded.counted
  · rw [frame]; exact recorded.first none'
  · rw [frame]; exact recorded.later some'
  · rw [frame]; exact recorded.pairs
  · rw [frame]; exact recorded.rails
  · rw [frame, recorded.touched]

theorem report_eq (s : State) (f : Nat) (r : Report) : report s f r = react (noted s f r) f r := rfl

/-! ### The commands (R417, R428) -/

/-- The report of source `f` has been taken off its pair. -/
def pairTaken (s : State) (f : Nat) : State := { s with flt := { s.flt with pairs := tabDel f s.flt.pairs } }

theorem execFaultReport_held {f : Fin 512} {own : Option (BitVec 8 × BitVec 48 × BitVec 192)} {r : Report} {s : State} (source : f.val < 454)
    (held : tabFind? f.val s.flt.pairs = some r) : execFaultReport f own s =
      if pairIgnored s f.val then .next (pairTaken s f.val) else .next (react (noted (pairTaken s f.val) f.val r) f.val r) := by
  unfold execFaultReport
  rw [if_neg (Nat.not_le.2 source), held]
  rfl

theorem report_taken (f : Fin 512) (own : Option (BitVec 8 × BitVec 48 × BitVec 192)) (r : Report) (s : State) (source : f.val < 454)
    (held : tabFind? f.val s.flt.pairs = some r) (heard : pairIgnored s f.val = false) :
    ∃ v : State, exec (.faultReport f own) s = .next (react v f.val r) ∧ f.val ∈ v.flt.sticky ∧ tabFind? f.val v.flt.pairs = none ∧
      tabGet 0 f.val v.flt.counts = tabGet 0 f.val s.flt.counts + 1 ∧
      (s.flt.latch = none → v.flt.latch = some (f.val, s.time.devTime, r.syndrome) ∧ v.flt.overflow = s.flt.overflow) ∧
      (s.flt.latch ≠ none → v.flt.latch = s.flt.latch ∧ v.flt.overflow = true) ∧
      counter v (counterNo 0xC02D 1) = counter s (counterNo 0xC02D 1) + 1 ∧ v = { s with flt := v.flt, perf := v.perf } := by
  have recorded := recorded_noted (pairTaken s f.val) f.val r
  refine ⟨_, (execFaultReport_held source held).trans (if_neg (by rw [heard]; decide)), recorded.sticky, ?_, recorded.counted,
    recorded.first, recorded.later, recorded.reports, recorded.touched⟩
  rw [recorded.pairs]
  exact tabFind_del_same f.val s.flt.pairs

theorem report_ignored (f : Fin 512) (own : Option (BitVec 8 × BitVec 48 × BitVec 192)) (r : Report) (s : State) (source : f.val < 454)
    (held : tabFind? f.val s.flt.pairs = some r) (ignored : pairIgnored s f.val = true) :
    ∃ t : State, exec (.faultReport f own) s = .next t ∧ tabFind? f.val t.flt.pairs = none ∧
      t = { s with flt := { s.flt with pairs := t.flt.pairs } } :=
  ⟨pairTaken s f.val, (execFaultReport_held source held).trans (if_pos ignored), tabFind_del_same f.val s.flt.pairs, rfl⟩

/-- A rail fault of source `f` as its pair has been read, before it is recorded. -/
def railRead (s : State) (f : Nat) : State :=
  { s with flt := { s.flt with
    railDriven := setRemove f s.flt.railDriven
    railFaults := if s.flt.railDriven.contains f then s.flt.railFaults else setInsert f s.flt.railFaults } }

theorem rail_reported (f : Fin 512) (s : State) (new : f.val ∉ s.flt.railFaults) (heard : pairIgnored s f.val = false) :
    ∃ v : State, exec (.railFault f true) s = .next (react v f.val
        { injected := s.flt.railDriven.contains f.val, rail := true, cause := 0, detail := 0, data := 0 }) ∧
      (f.val ∈ v.flt.railFaults ↔ f.val ∉ s.flt.railDriven) ∧ f.val ∉ v.flt.railDriven ∧
      counter v (counterNo 0xC02D 2) = counter s (counterNo 0xC02D 2) + 1 ∧ f.val ∈ v.flt.sticky ∧
      v = { s with flt := v.flt, perf := v.perf } := by
  have recorded := recorded_noted (bumpC (railRead s f.val) 0xC02D 2) f.val
    { injected := s.flt.railDriven.contains f.val, rail := true, cause := 0, detail := 0, data := 0 }
  have run : exec (.railFault f true) s = .next (react (noted (bumpC (railRead s f.val) 0xC02D 2) f.val
      { injected := s.flt.railDriven.contains f.val, rail := true, cause := 0, detail := 0, data := 0 }) f.val
      { injected := s.flt.railDriven.contains f.val, rail := true, cause := 0, detail := 0, data := 0 }) := by
    have waits : ¬ (s.flt.railFaults.contains f.val || pairIgnored s f.val) = true := by
      rw [heard, Bool.or_false]; exact fun known => new (List.contains_iff_mem.1 known)
    show execRailFault f true s = _
    unfold execRailFault
    rw [if_pos rfl, if_neg waits]
    rfl
  refine ⟨_, run, ?_, ?_, ?_, recorded.sticky, recorded.touched⟩
  · rw [recorded.rails.1]
    show f.val ∈ (if s.flt.railDriven.contains f.val then s.flt.railFaults else setInsert f.val s.flt.railFaults) ↔ _
    by_cases driven : f.val ∈ s.flt.railDriven
    · rw [if_pos (List.contains_iff_mem.2 driven)]
      exact ⟨fun known => absurd known new, fun free => absurd driven free⟩
    · rw [if_neg fun member => driven (List.contains_iff_mem.1 member)]
      exact ⟨fun _ => driven, fun _ => (mem_setInsert ..).2 (.inl rfl)⟩
  · rw [recorded.rails.2]
    exact fun driven => ((mem_setRemove ..).1 driven).2 rfl
  · rw [recorded.counters _ (by decide) (by decide)]
    exact counter_bump_same (railRead s f.val) (counterNo 0xC02D 2) 1

/-! ### The reaction of a class (R421, R423, R424, R429) -/

section Classes
variable {f : Nat} {r : Report} {v : State}

theorem react_none (c : recClass (srcRecord v f) = 0) : react v f r = v := by
  unfold react; dsimp only; rw [c]; rfl

theorem react_interrupt (c : recClass (srcRecord v f) = 1) : react v f r = interruptCores v f r.syndrome := by
  unfold react; dsimp only; rw [c]; rfl

/-- A state in which the handling timer of source `f` starts (R423). -/
def timerStarted (t v : State) (f : Nat) (r : Report) : State :=
  { t with flt := { t.flt with timers := tabPut f (recSafe (srcRecord v f), r.detail.toNat) t.flt.timers } }

theorem react_handled (c : recClass (srcRecord v f) = 2) : react v f r =
    if v.flt.safe || (tabFind? f v.flt.timers).isSome then interruptCores v f r.syndrome
    else timerStarted (interruptCores v f r.syndrome) v f r := by
  unfold react; dsimp only; rw [c]; rfl

theorem react_isolates (c : recClass (srcRecord v f) = 3) : react v f r = isolateOr v f r.detail.toNat r.syndrome := by
  unfold react; dsimp only; rw [c]; rfl

theorem react_enters (c : recClass (srcRecord v f) = 4) : react v f r = enterSafe v f := by
  unfold react; dsimp only; rw [c]; rfl

theorem react_interrupts (c : recClass (srcRecord v f) = 1 ∨ recClass (srcRecord v f) = 2) :
    (react v f r).out = v.out ++ [Out.coreInterrupt f] ∧ (react v f r).flt.lastInterrupt = f ∧
      ∀ k, k < 4 → (coreSt (react v f r) k).level = .p0 := by
  obtain ⟨sent, collector, levels, -⟩ := interrupted v f r.syndrome
  have last : (interruptCores v f r.syndrome).flt.lastInterrupt = f := by rw [collector]
  rcases c with c | c
  · rw [react_interrupt c]
    exact ⟨sent, last, levels⟩
  · rw [react_handled c]
    split
    · exact ⟨sent, last, levels⟩
    · exact ⟨sent, last, levels⟩

theorem react_timer (c : recClass (srcRecord v f) = 2) (running : v.flt.safe = false) (idle : tabFind? f v.flt.timers = none) :
    tabFind? f (react v f r).flt.timers = some (recSafe (srcRecord v f), r.detail.toNat) := by
  rw [react_handled c, if_neg (by rw [running, idle]; decide)]
  exact tabFind_put_same ..

theorem isolateOr_safe (safe : v.flt.safe = true) (d : Nat) (syn : BitVec 64) : isolateOr v f d syn = v := if_pos safe

theorem isolateOr_unit (running : v.flt.safe = false) {d : Nat} {u : FaultUnit} (unit' : unitOf v f d = some u) (syn : BitVec 64) :
    isolateOr v f d syn = isolate v u := by
  unfold isolateOr
  rw [if_neg (by rw [running]; decide), unit']

theorem react_safe (c : recClass (srcRecord v f) = 4) : (react v f r).flt.safe = true := by
  rw [react_enters c]
  exact enterSafe_safe v f

end Classes

/-- Settles O51: a report is noted (`Recorded`), and `react` by the class of its source. -/
theorem faultReports : Obligations.FaultReports := by
  refine ⟨report_taken, report_ignored, rail_reported, fun f s => ⟨_, rfl, fun known => ((mem_setRemove ..).1 known).2 rfl, rfl⟩,
    fun f r v => ⟨react_none, react_interrupts, react_timer, fun c safe => ?_, fun c running u unit' => ?_, react_safe⟩⟩
  · rw [react_isolates c, isolateOr_safe safe]
  · rw [react_isolates c, isolateOr_unit running unit']

end Sys2Proof.Proofs.FaultReports

/-!
Handling timers, the safe state, and the commands that clear fault state (R423, R426, R427, R429, R494).
-/

namespace Sys2Proof.Proofs.FaultHandling

open Sys2Proof Sys2Proof.Machine Sys2Proof.Laws Sys2Proof.Proofs.Shared Sys2Proof.Proofs.QuietFrames Sys2Proof.Proofs.Collector

theorem logInfo_tail (s : State) (source code : Nat) (data : BitVec 192) :
    ∃ log n, logInfo s source code data = { s with flt := { s.flt with log := log, nextSeq := n } } := logAppend_tail ..

/-! ### Handling timers (R423) -/

/-- The handling timer of source `f` has expired. -/
def timerTaken (s : State) (f : Nat) : State :=
  bumpC { s with flt := { s.flt with timers := tabDel f s.flt.timers } } 0xC02D 3

theorem execHandlingTimerExpire_running {f : Fin 512} {safe : Bool} {d : Nat} {s : State}
    (running : tabFind? f.val s.flt.timers = some (safe, d)) : ∃ log n, execHandlingTimerExpire f s =
      if safe then .next (enterSafe { timerTaken s f.val with flt := { (timerTaken s f.val).flt with log := log, nextSeq := n } } f.val)
      else .next (isolateOr { timerTaken s f.val with flt := { (timerTaken s f.val).flt with log := log, nextSeq := n } } f.val d 0) := by
  obtain ⟨log, n, frame⟩ := logInfo_tail (timerTaken s f.val) f.val 0x0004 (if safe then 1 else 0)
  refine ⟨log, n, ?_⟩
  unfold execHandlingTimerExpire
  rw [running, ← frame]
  rfl

theorem timer_safe (f : Fin 512) (d : Nat) (s : State) (running : tabFind? f.val s.flt.timers = some (true, d)) :
    ∃ t : State, exec (.handlingTimerExpire f) s = .next t ∧ t.flt.safe = true ∧
      (s.flt.safe = false → t.flt.timers = [] ∧ t.flt.frozen = true ∧ t.pins.faultLow = true ∧ t.flt.safeCause = f.val) := by
  obtain ⟨log, n, run⟩ := execHandlingTimerExpire_running running
  refine ⟨_, run.trans (if_pos rfl), enterSafe_safe .., fun was => ?_⟩
  have safe := enterSafe_enters (s := { timerTaken s f.val with flt := { (timerTaken s f.val).flt with log := log, nextSeq := n } })
    was f.val
  exact ⟨safe.timers, safe.frozen, safe.faultLow, safe.cause'⟩

theorem timer_interrupts (f : Fin 512) (d : Nat) (s : State) (running : tabFind? f.val s.flt.timers = some (false, d))
    (calm' : s.flt.safe = false) (none' : unitOf s f.val d = none) :
    ∃ t : State, exec (.handlingTimerExpire f) s = .next t ∧ tabFind? f.val t.flt.timers = none ∧ t.flt.lastInterrupt = f.val ∧
      counter t (counterNo 0xC02D 3) = counter s (counterNo 0xC02D 3) + 1 ∧ t.out = s.out ++ [Out.coreInterrupt f.val] := by
  obtain ⟨log, n, run⟩ := execHandlingTimerExpire_running running
  have count : counter (timerTaken s f.val) (counterNo 0xC02D 3) = counter s (counterNo 0xC02D 3) + 1 :=
    counter_bump_same { s with flt := { s.flt with timers := tabDel f.val s.flt.timers } } (counterNo 0xC02D 3) 1
  have gone : tabFind? f.val (timerTaken s f.val).flt.timers = none := tabFind_del_same f.val s.flt.timers
  generalize logged : { timerTaken s f.val with flt := { (timerTaken s f.val).flt with log := log, nextSeq := n } } = u at run
  have chosen : isolateOr u f.val d 0 = interruptCores u f.val 0 := by
    have free : unitOf u f.val d = none := by rw [← logged]; exact none'
    have safe : u.flt.safe = false := by rw [← logged]; exact calm'
    unfold isolateOr
    rw [if_neg (by rw [safe]; decide), free]
  rw [chosen] at run
  obtain ⟨sent, collector, -, counters⟩ := interrupted u f.val 0
  refine ⟨_, run.trans (if_neg Bool.false_ne_true), ?_, ?_, ?_, sent.trans ?_⟩
  · rw [collector, ← logged]; exact gone
  · rw [collector]
  · rw [counters _ (by decide), ← logged]; exact count
  · rw [← logged]; rfl

/-! ### Acknowledgement (R423) -/

theorem acknowledged (n : BitVec 16) (sid : BitVec 32) (s : State) (low : n.toNat ≤ 511) :
    ∃ t : State, exec (.acknowledgeC2Source n sid) s = .next t ∧ tabFind? n.toNat t.flt.timers = none ∧ t.out = s.out ++ [Out.status .ok] ∧
      (∀ m : Nat, m ≠ n.toNat → tabFind? m t.flt.timers = tabFind? m s.flt.timers) ∧
      t = { s with flt := { s.flt with timers := t.flt.timers, log := t.flt.log, nextSeq := t.flt.nextSeq }, out := t.out } := by
  have choose : acknowledge s n.toNat sid.toNat = match tabFind? n.toNat s.flt.timers with
    | none => (s, .ok)
    | some _ =>
      (logInfo { s with flt := { s.flt with timers := tabDel n.toNat s.flt.timers } } n.toNat 0x0003 (BitVec.ofNat 192 sid.toNat), .ok) :=
    if_neg (Nat.not_lt.2 low)
  cases held : tabFind? n.toNat s.flt.timers with
  | none =>
    rw [held] at choose
    exact ⟨_, answered_of choose, held, rfl, fun _ _ => rfl, rfl⟩
  | some x =>
    obtain ⟨log, k, frame⟩ := logInfo_tail { s with flt := { s.flt with timers := tabDel n.toNat s.flt.timers } } n.toNat 0x0003
      (BitVec.ofNat 192 sid.toNat)
    rw [held] at choose
    dsimp only at choose
    rw [frame] at choose
    exact ⟨_, answered_of choose, tabFind_del_same n.toNat s.flt.timers, rfl, fun m other => tabFind_del_other other s.flt.timers, rfl⟩

theorem acknowledge_outOfRange (n : BitVec 16) (sid : BitVec 32) (s : State) (high : 511 < n.toNat) :
    exec (.acknowledgeC2Source n sid) s = .next (emit s (.status .outOfRange)) := answered_of (if_pos high)

/-! ### The safe state (R427, R429) -/

theorem safe_entered (s : State) : ∃ t : State, exec .enterSafeState s = .next t ∧ t.flt.safe = true ∧
    (s.flt.safe = false → t.flt.timers = [] ∧ t.flt.frozen = true ∧ t.pins.faultLow = true ∧ t.flt.safeCause = 0x0200) ∧
    (s.flt.safe = true → t = { s with out := s.out ++ [Out.status .ok] }) := by
  refine ⟨emit (enterSafe s 0x0200) (.status .ok), rfl, enterSafe_safe s 0x0200, fun was => ?_, fun safe => ?_⟩
  · have entered := enterSafe_enters was 0x0200
    exact ⟨entered.timers, entered.frozen, entered.faultLow, entered.cause'⟩
  · rw [enterSafe_again safe]; rfl

/-- The first-error latch as a self error of the collector leaves it (R427; log entry 49). -/
def selfLatched (s : State) : State :=
  { s with flt := { s.flt with latch := if s.flt.latch.isSome then s.flt.latch else some (511, s.time.devTime, 0) } }

theorem self_error (s : State) : ∃ t : State, exec .collectorSelfError s = .next t ∧ t.flt.safe = true ∧
    (s.flt.latch = none → t.flt.latch = some (511, s.time.devTime, 0)) ∧ (s.flt.latch ≠ none → t.flt.latch = s.flt.latch) := by
  have latch : (enterSafe (selfLatched s) 511).flt.latch = if s.flt.latch.isSome then s.flt.latch else some (511, s.time.devTime, 0) :=
    enterSafe_latch (selfLatched s) 511
  refine ⟨enterSafe (selfLatched s) 511, rfl, enterSafe_safe .., fun none' => ?_, fun some' => ?_⟩
  · rw [latch, none']; rfl
  · rw [latch, if_pos (Option.isSome_iff_ne_none.2 some')]

/-! ### A reset (R494) -/

theorem foldl_od {α : Type} (f : State → α → State) (keeps : ∀ t a, ∃ od, f t a = { t with od := od }) (l : List α) :
    ∀ s, ∃ od, l.foldl f s = { s with od := od } := by
  induction l with
  | nil => exact fun s => ⟨_, rfl⟩
  | cons a l ih =>
    intro s
    obtain ⟨od, first⟩ := keeps s a
    obtain ⟨od', rest⟩ := ih (f s a)
    exact ⟨od', rest.trans (by rw [first])⟩

theorem linksShowDown_frame (s : State) : ∃ od, linksShowDown s = { s with od := od } := by
  unfold linksShowDown
  generalize List.range 96 = ports
  generalize List.range 16 = links
  generalize List.range 64 = vcss
  dsimp only
  obtain ⟨od, first⟩ := foldl_od (fun t p => if odGet t (0x2100 + p) 0x10 = 3 then t else odSet t (0x2100 + p) 0x10 0)
    (fun t p => by split <;> exact ⟨_, rfl⟩) ports s
  rw [first]
  obtain ⟨od', second⟩ := foldl_od
    (fun t a => if odGet t (0x6100 + a) 1 = 1 then odSet t (0x6100 + a) 0x10 1 else odSet t (0x6100 + a) 0x10 0)
    (fun t a => by split <;> exact ⟨_, rfl⟩) links { s with od := od }
  rw [second]
  exact foldl_od (fun t v => if odGet t (0x2200 + v) 1 = 1 then odSet t (0x2200 + v) 3 3 else t)
    (fun t v => by split <;> exact ⟨_, rfl⟩) vcss { s with od := od' }

/-- What the loss of the main domain leaves of the contacts, the sessions and the messages sent. -/
theorem resetStep4_kept (s : State) : (resetStep4 s).pins = s.pins ∧ (resetStep4 s).out = s.out ∧
    (resetStep4 s).spr.serving = s.spr.serving ∧ (s.spr.sessions = [] → (resetStep4 s).spr.sessions = []) := by
  unfold resetStep4 mainDomainOff
  split
  · split
    · obtain ⟨od, frame⟩ := linksShowDown_frame s
      rw [frame]
      refine ⟨rfl, rfl, rfl, fun empty => ?_⟩
      show s.spr.sessions.filter _ = []
      rw [empty]
      rfl
    · exact ⟨rfl, rfl, rfl, id⟩
  · exact ⟨rfl, rfl, rfl, id⟩

/-- The contacts and sessions of a device in reset. -/
def heldInReset (s : State) : State :=
  { s with
    pins := { s.pins with inReset := true, ready := false, faultLow := false, perstLow := List.range 96 }
    spr := { s.spr with sessions := [], segs := [], serving := false } }

theorem reset_commanded (s : State) : ∃ t : State, exec .resetFjq9640 s = .next t ∧ t.pins.inReset = true ∧ t.out.getLast? ≠ none ∧
    (s.pins.inReset = false → t.pins.ready = false ∧ t.spr.sessions = [] ∧ t.spr.serving = false) ∧
    (s.pins.inReset = true → t = { s with out := s.out ++ [Out.status .ok] }) := by
  have run : exec .resetFjq9640 s = .next (if s.pins.inReset then emit s (.status .ok)
    else resetStep4 (heldInReset (emit s (.status .ok)))) := rfl
  have spoken : (emit s (.status .ok)).out.getLast? ≠ none := by
    rw [show (emit s (.status .ok)).out.getLast? = some (Out.status .ok) from List.getLast?_concat ..]
    exact Option.some_ne_none _
  cases inReset : s.pins.inReset with
  | true =>
    rw [inReset] at run
    exact ⟨_, run, inReset, spoken, fun was => Bool.noConfusion was, fun _ => rfl⟩
  | false =>
    rw [inReset] at run
    obtain ⟨pins, out, serving, sessions⟩ := resetStep4_kept (heldInReset (emit s (.status .ok)))
    generalize resetStep4 (heldInReset (emit s (.status .ok))) = t at run pins out serving sessions
    refine ⟨t, run, ?_, ?_, fun _ => ⟨?_, sessions rfl, serving⟩, fun was => Bool.noConfusion was⟩
    · rw [pins]; rfl
    · rw [out]; exact spoken
    · rw [pins]; rfl

/-! ### What is cleared (R426) -/

theorem sticky_cleared (n : BitVec 16) (s : State) (valid : n.toNat ≤ 511 ∨ n = 0xFFFF) :
    ∃ t : State, exec (.clearStickyBit n) s = .next t ∧
      (∀ f : Nat, f ∈ t.flt.sticky ↔ f ∈ s.flt.sticky ∧ n ≠ 0xFFFF ∧ f ≠ n.toNat) ∧ t.out = s.out ++ [Out.status .ok] ∧
      t = { s with flt := { s.flt with sticky := t.flt.sticky }, out := t.out } := by
  by_cases all : n = 0xFFFF
  · have cleared : clearSticky s n.toNat = ({ s with flt := { s.flt with sticky := [] } }, .ok) := if_pos (by rw [all]; rfl)
    exact ⟨_, answered_of cleared, fun f => ⟨fun member => absurd member List.not_mem_nil, fun kept => absurd all kept.2.1⟩, rfl, rfl⟩
  · have some' : n.toNat ≠ 0xFFFF := fun same => all (BitVec.eq_of_toNat_eq same)
    have cleared : clearSticky s n.toNat = ({ s with flt := { s.flt with sticky := setRemove n.toNat s.flt.sticky } }, .ok) :=
      (if_neg some').trans (if_pos (valid.resolve_right all))
    refine ⟨_, answered_of cleared, fun f => (mem_setRemove ..).trans ?_, rfl, rfl⟩
    exact ⟨fun kept => ⟨kept.1, all, kept.2⟩, fun kept => ⟨kept.1, kept.2.2⟩⟩

theorem sticky_outOfRange (n : BitVec 16) (s : State) (high : 511 < n.toNat) (some' : n ≠ 0xFFFF) :
    exec (.clearStickyBit n) s = .next (emit s (.status .outOfRange)) :=
  answered_of ((if_neg fun same => some' (BitVec.eq_of_toNat_eq same)).trans (if_neg (Nat.not_le.2 high)))

theorem latch_cleared (s : State) : ∃ t : State, exec .clearFirstErrorLatch s = .next t ∧ t.flt.latch = none ∧ t.flt.overflow = false ∧
    t.out = s.out ++ [Out.status .ok] ∧
    t = { s with flt := { s.flt with latch := none, overflow := false, log := t.flt.log, nextSeq := t.flt.nextSeq }, out := t.out } := by
  obtain ⟨data, cleared⟩ : ∃ data, clearLatch s =
    logInfo { s with flt := { s.flt with latch := none, overflow := false } } 0xFFFF 0x0007 data := ⟨_, rfl⟩
  obtain ⟨log, n, frame⟩ := logInfo_tail { s with flt := { s.flt with latch := none, overflow := false } } 0xFFFF 0x0007 data
  have run : exec .clearFirstErrorLatch s = .next (emit (clearLatch s) (.status .ok)) := rfl
  rw [cleared, frame] at run
  exact ⟨_, run, rfl, rfl, rfl, rfl⟩

/-- Settles O52: the timers and the self error by what they make of the safe state (`Safe`) or of the cores (`Interrupted`). -/
theorem faultHandling : Obligations.FaultHandling :=
  ⟨timer_safe, timer_interrupts, acknowledged, acknowledge_outOfRange, safe_entered, self_error, reset_commanded,
   fun n s => ⟨sticky_cleared n s, sticky_outOfRange n s⟩, latch_cleared⟩

end Sys2Proof.Proofs.FaultHandling

/-!
Fault injection, source configuration and the cullet map (R422, R428, R436 to R438).
-/

namespace Sys2Proof.Proofs.InjectionAndCullet

open Sys2Proof Sys2Proof.Machine Sys2Proof.Laws Sys2Proof.Proofs.Shared Sys2Proof.Proofs.QuietFrames

/-! ### Injection (R428) -/

theorem unlock_secured (sid : BitVec 32) (s : State)
    (secured : sessionMode s sid.toNat = some .authenticated ∨ sessionMode s sid.toNat = some .encrypted) :
    exec (.injectionUnlock sid) s = .next (emit { s with flt := { s.flt with unlocked := true } } (.status .ok)) := by
  have unlocked : injectionUnlock s sid.toNat = ({ s with flt := { s.flt with unlocked := true } }, .ok) := by
    unfold injectionUnlock
    rcases secured with mode | mode
    · rw [mode]
    · rw [mode]
  exact answered_of unlocked

theorem unlock_refused (sid : BitVec 32) (s : State)
    (open' : sessionMode s sid.toNat = none ∨ sessionMode s sid.toNat = some .plain) :
    exec (.injectionUnlock sid) s = .next (emit s (.status .notPermitted)) := by
  have refused : injectionUnlock s sid.toNat = (s, .notPermitted) := by
    unfold injectionUnlock
    rcases open' with mode | mode
    · rw [mode]
    · rw [mode]
  exact answered_of refused

theorem inject_locked {s : State} (locked : s.flt.unlocked = false) (m f : Nat) : injectFault s m f = (s, .notPermitted) :=
  if_pos (by rw [locked]; rfl)

/-- The collector once an injection of mode `m` acts on source `f`. -/
def injected (m f : Nat) (flt : FltState) : FltState :=
  match m with
  | 0 => { flt with continuous := setRemove f flt.continuous }
  | 1 => { flt with oneShot := setInsert f flt.oneShot }
  | 2 => { flt with continuous := setInsert f flt.continuous }
  | _ => { flt with railDriven := setInsert f flt.railDriven }

/-- An injection that the rules allow is logged, counted, and acts on its source. -/
theorem injectFault_allowed {s : State} {m f : Nat} (unlocked : s.flt.unlocked = true) (source : f ≤ 511) (may : injectable f = true)
    (check : m = 1 ∨ m = 2 → checkInjectable f = true) : ∃ t : State, injectFault s m f = (t, .ok) ∧ t.out = s.out ∧
      counter t (counterNo 0xC02D 6) = counter s (counterNo 0xC02D 6) + 1 ∧ (∃ flt, t.flt = injected m f flt) ∧
      t = { s with flt := t.flt, perf := t.perf } := by
  obtain ⟨flt, logged⟩ := logAppend_frame s f 0x0008 0 false 0 (BitVec.ofNat 192 (m * 2 ^ 16 + f))
  have run : injectFault s m f = ({ bumpC (logInfo s f 0x0008 (BitVec.ofNat 192 (m * 2 ^ 16 + f))) 0xC02D 6 with
      flt := injected m f (bumpC (logInfo s f 0x0008 (BitVec.ofNat 192 (m * 2 ^ 16 + f))) 0xC02D 6).flt }, .ok) := by
    unfold injectFault
    rw [if_neg (by rw [unlocked]; decide), if_neg (Nat.not_lt.2 source), if_neg (by rw [may]; decide),
      if_neg (fun bad => by rw [check bad.1] at bad; exact Bool.noConfusion bad.2)]
    rfl
  rw [logInfo, logged] at run
  exact ⟨_, run, rfl, counter_bump_same { s with flt := flt } (counterNo 0xC02D 6) 1, ⟨flt, rfl⟩, rfl⟩

theorem injectable_of {f : BitVec 16} (one : f ≠ 451) (two : f ≠ 511) : injectable f.toNat = true := by
  have first : f.toNat ≠ 451 := fun same => one (BitVec.eq_of_toNat_eq same)
  have second : f.toNat ≠ 511 := fun same => two (BitVec.eq_of_toNat_eq same)
  unfold injectable
  rw [decide_eq_true first, decide_eq_true second]
  rfl

/-- The command of mode `m` on source `f`, where it may act. -/
def InjectsBy (f : BitVec 16) (i : Instr) (m : Nat) : Prop :=
  (i = .injectStop f ∧ m = 0) ∨ (i = .injectOneShot f ∧ m = 1 ∧ checkInjectable f.toNat = true) ∨
    (i = .injectContinuous f ∧ m = 2 ∧ checkInjectable f.toNat = true) ∨ (i = .injectRail f ∧ m = 3)

theorem exec_injects {f : BitVec 16} {i : Instr} {m : Nat} (by' : InjectsBy f i m) (s : State) :
    exec i s = answered (injectFault s m f.toNat) ∧ (m = 1 ∨ m = 2 → checkInjectable f.toNat = true) := by
  rcases by' with ⟨rfl, rfl⟩ | ⟨rfl, rfl, check⟩ | ⟨rfl, rfl, check⟩ | ⟨rfl, rfl⟩
  · exact ⟨rfl, fun bad => absurd bad (by decide)⟩
  · exact ⟨rfl, fun _ => check⟩
  · exact ⟨rfl, fun _ => check⟩
  · exact ⟨rfl, fun bad => absurd bad (by decide)⟩

theorem inject_acts (f : BitVec 16) (i : Instr) (m : Nat) (s : State) (unlocked : s.flt.unlocked = true) (source : f.toNat ≤ 511)
    (one : f ≠ 451) (two : f ≠ 511) (by' : InjectsBy f i m) :
    ∃ t : State, exec i s = .next t ∧ t.out = s.out ++ [Out.status .ok] ∧
      counter t (counterNo 0xC02D 6) = counter s (counterNo 0xC02D 6) + 1 ∧
      (m = 0 → f.toNat ∉ t.flt.continuous) ∧ (m = 1 → f.toNat ∈ t.flt.oneShot) ∧ (m = 2 → f.toNat ∈ t.flt.continuous) ∧
      (m = 3 → f.toNat ∈ t.flt.railDriven) ∧ t = { s with flt := t.flt, perf := t.perf, out := t.out } := by
  obtain ⟨run, check⟩ := exec_injects by' s
  obtain ⟨u, done, out, counted, ⟨flt, acted⟩, touched⟩ := injectFault_allowed unlocked source (injectable_of one two) check
  refine ⟨emit u (.status .ok), run.trans (answered_of done), congrArg (· ++ _) out, counted, fun mode => ?_, fun mode => ?_, fun mode => ?_,
    fun mode => ?_, ?_⟩
  · show f.toNat ∉ u.flt.continuous
    rw [acted, mode]
    exact fun member => ((mem_setRemove ..).1 member).2 rfl
  · show f.toNat ∈ u.flt.oneShot
    rw [acted, mode]
    exact (mem_setInsert ..).2 (.inl rfl)
  · show f.toNat ∈ u.flt.continuous
    rw [acted, mode]
    exact (mem_setInsert ..).2 (.inl rfl)
  · show f.toNat ∈ u.flt.railDriven
    rw [acted, mode]
    exact (mem_setInsert ..).2 (.inl rfl)
  · show { u with out := _ } = _
    rw [touched]
    rfl

/-! ### The source configuration (R422) -/

/-- The records `l` with their numbers, as they are stored. -/
def recordTable (l : List (BitVec 64 × Nat)) (t : Tab (BitVec 64)) : Tab (BitVec 64) :=
  l.foldl (fun t p => tabSet (defaultRecord p.2) p.2 (recMask p.1) t) t

theorem recordTable_cons (p : BitVec 64 × Nat) (l : List (BitVec 64 × Nat)) (t : Tab (BitVec 64)) :
    recordTable (p :: l) t = recordTable l (tabSet (defaultRecord p.2) p.2 (recMask p.1) t) := List.foldl_cons ..

theorem recordTable_other {f : Nat} (l : List (BitVec 64 × Nat)) (absent : ∀ p ∈ l, f ≠ p.2) :
    ∀ t, tabGet (defaultRecord f) f (recordTable l t) = tabGet (defaultRecord f) f t := by
  induction l with
  | nil => exact fun _ => rfl
  | cons p l ih =>
    intro t
    rw [recordTable_cons, ih fun q member => absent q (List.mem_cons_of_mem p member)]
    exact tabGet_set_other (absent p List.mem_cons_self) ..

/-- Records whose numbers count up from `k` are read back by their number. -/
theorem recordTable_zipIdx (f : Nat) (rs : List (BitVec 64)) : ∀ (k : Nat) (t : Tab (BitVec 64)), k ≤ f → f < k + rs.length →
    tabGet (defaultRecord f) f (recordTable (rs.zipIdx k) t) = recMask (rs.getD (f - k) 0) := by
  induction rs with
  | nil => exact fun k t low high => absurd high (Nat.not_lt.2 low)
  | cons r rs ih =>
    intro k t low high
    rw [List.zipIdx_cons, recordTable_cons]
    by_cases here : f = k
    · have later : ∀ p ∈ rs.zipIdx (k + 1), f ≠ p.2 := fun p member same => by
        have := (List.mem_zipIdx member).1
        omega
      rw [recordTable_other _ later, here, Nat.sub_self, tabGet_set_same, List.getD_cons_zero]
    · rw [ih (k + 1) _ (by omega) (by simp only [List.length_cons] at high; omega), show f - k = (f - (k + 1)) + 1 by omega,
        List.getD_cons_succ]

theorem config_taken (rs : List (BitVec 64)) (s : State) (whole : rs.length = 512) (valid : ∀ p ∈ rs.zipIdx, recordOk p.2 p.1 = true) :
    ∃ t : State, exec (.sourceConfigurationWrite rs) s = .next t ∧ (∀ f : Nat, f < 512 → srcRecord t f = recMask (rs.getD f 0)) ∧
      t.out = s.out ++ [Out.status .ok] ∧ t = { s with flt := { s.flt with cfg := t.flt.cfg }, out := t.out } := by
  have taken : sourceConfig s rs = ({ s with flt := { s.flt with cfg := recordTable rs.zipIdx [] } }, .ok) :=
    if_pos ⟨whole, List.all_eq_true.2 valid⟩
  refine ⟨_, answered_of taken, fun f below => ?_, rfl, rfl⟩
  exact recordTable_zipIdx f rs 0 [] (Nat.zero_le f) (by rw [whole]; omega)

theorem config_refused (rs : List (BitVec 64)) (s : State) (bad : rs.length ≠ 512 ∨ ∃ p ∈ rs.zipIdx, recordOk p.2 p.1 = false) :
    exec (.sourceConfigurationWrite rs) s = .next (emit s (.status .outOfRange)) := by
  have refused : sourceConfig s rs = (s, .outOfRange) := if_neg fun good =>
    bad.elim (fun short => short good.1) fun ⟨p, member, invalid⟩ =>
      Bool.noConfusion (invalid.symm.trans (List.all_eq_true.1 good.2 p member))
  exact answered_of refused

/-! ### Records of the cullet map (R436 to R438) -/

/-- A record's write to MRAM leaves the map itself. -/
theorem culletWrite_cullet (s : State) (n : Nat) : (culletWrite s n).flt.cullet = s.flt.cullet := by
  unfold culletWrite; split <;> rfl

/-- The record that the retirement of physical slice `n` makes. -/
def retirement (s : State) (n : Nat) : Cullet :=
  { time := s.time.devTime, kind := BitVec.ofNat 8 3, state := .pending, origin := BitVec.ofNat 2 2
    location := BitVec.ofNat 48 (sliceLocation s n), written := false }

theorem logInfo_cullet (s : State) (source code : Nat) (data : BitVec 192) :
    (logInfo s source code data).flt.cullet = s.flt.cullet := by
  obtain ⟨log, n, frame⟩ := logAppend_tail s source code 0 false 0 data
  rw [logInfo, frame]

theorem culletMake_record {s : State} {m : Nat} (free : culletFree? s = some m) (n : Nat) :
    tabFind? m (culletMake s 3 2 (sliceLocation s n) .pending).flt.cullet = some (retirement s n) := by
  have made : culletMake s 3 2 (sliceLocation s n) .pending =
      culletWrite (logInfo { s with flt := { s.flt with cullet := tabPut m (retirement s n) s.flt.cullet } } 0xFFFF 0x0010
        (BitVec.ofNat 192 (retirement s n).bits)) m := by
    unfold culletMake
    rw [free]
    rfl
  rw [made, culletWrite_cullet, logInfo_cullet]
  exact tabFind_put_same m (retirement s n) s.flt.cullet

theorem retirement_location (s : State) {n : Nat} (low : n ≤ 33) : (retirement s n).location.toNat % 256 = n := by
  show (BitVec.ofNat 48 (sliceLocation s n)).toNat % 256 = n
  unfold sliceLocation
  rw [BitVec.toNat_ofNat]
  split
  · omega
  · omega

theorem slice_retired (n : Byte) (m : Nat) (s : State) (low : n.toNat ≤ 33) (few : sliceRetirements s < 2) (free : culletFree? s = some m) :
    ∃ t : State, ∃ r : Cullet, exec (.retirePhysicalSlice n) s = .next t ∧ tabFind? m t.flt.cullet = some r ∧ r.kind = 3 ∧ r.state = .pending ∧
      r.origin = 2 ∧ r.written = false ∧ r.location.toNat % 256 = n.toNat ∧ t.out = s.out ++ [Out.status .ok] ∧
      t = { s with flt := t.flt, perf := t.perf, out := t.out } := by
  have retired : retireSlice s n.toNat = (culletMake s 3 2 (sliceLocation s n.toNat) .pending, .ok) :=
    (if_neg (Nat.not_lt.2 low)).trans (if_neg (Nat.not_le.2 few))
  have record := culletMake_record free n.toNat
  obtain ⟨flt, perf, frame⟩ := culletMake_frame s 3 2 (sliceLocation s n.toNat) .pending
  rw [frame] at retired record
  exact ⟨_, retirement s n.toNat, answered_of retired, record, rfl, rfl, rfl, rfl, retirement_location s low, rfl, rfl⟩

theorem slice_outOfRange (n : Byte) (s : State) (high : 33 < n.toNat) :
    exec (.retirePhysicalSlice n) s = .next (emit s (.status .outOfRange)) := answered_of (if_pos high)

theorem slice_wrongState (n : Byte) (s : State) (low : n.toNat ≤ 33) (both : 2 ≤ sliceRetirements s) :
    exec (.retirePhysicalSlice n) s = .next (emit s (.status .wrongState)) :=
  answered_of ((if_neg (Nat.not_lt.2 low)).trans (if_pos both))

/-- Record `n` of the cullet map is withdrawn, and its write to MRAM is due. -/
def withdrawn (s : State) (n : Nat) (r : Cullet) : State :=
  { s with flt := { s.flt with cullet := tabPut n { r with state := .withdrawn, written := false } s.flt.cullet } }

theorem culletWithdraw_known {s : State} {n : Nat} {r : Cullet} (low : n ≤ 4095) (known : tabFind? n s.flt.cullet = some r) :
    culletWithdraw s n = if r.state = .pending then (culletWrite (withdrawn s n r) n, .ok) else (s, .wrongState) := by
  unfold culletWithdraw
  rw [if_neg (Nat.not_lt.2 low), known]
  rfl

/-- A record's write to MRAM is in progress, or that there was no energy for it is counted. -/
theorem culletWrite_writing (s : State) (n : Nat) :
    ∃ writing perf, culletWrite s n = { s with flt := { s.flt with writing := writing }, perf := perf } := by
  unfold culletWrite
  split
  · exact ⟨_, s.perf, rfl⟩
  · exact ⟨s.flt.writing, _, rfl⟩

theorem record_withdrawn (n : BitVec 16) (r : Cullet) (s : State) (low : n.toNat ≤ 4095) (known : tabFind? n.toNat s.flt.cullet = some r)
    (pending : r.state = .pending) : ∃ t : State, exec (.withdrawPendingRecord n) s = .next t ∧
      tabFind? n.toNat t.flt.cullet = some { r with state := .withdrawn, written := false } ∧ t.out = s.out ++ [Out.status .ok] ∧
      t = { s with flt := { s.flt with cullet := t.flt.cullet, writing := t.flt.writing }, perf := t.perf, out := t.out } := by
  have done : culletWithdraw s n.toNat = (culletWrite (withdrawn s n.toNat r) n.toNat, .ok) :=
    (culletWithdraw_known low known).trans (if_pos pending)
  obtain ⟨writing, perf, frame⟩ := culletWrite_writing (withdrawn s n.toNat r) n.toNat
  rw [frame] at done
  have record : tabFind? n.toNat (withdrawn s n.toNat r).flt.cullet = some { r with state := .withdrawn, written := false } :=
    tabFind_put_same ..
  exact ⟨_, answered_of done, record, rfl, rfl⟩

theorem record_notPending (n : BitVec 16) (r : Cullet) (s : State) (low : n.toNat ≤ 4095) (known : tabFind? n.toNat s.flt.cullet = some r)
    (other : r.state ≠ .pending) : exec (.withdrawPendingRecord n) s = .next (emit s (.status .wrongState)) :=
  answered_of ((culletWithdraw_known low known).trans (if_neg other))

/-! ### Writes of records to MRAM (R437) -/

/-- With the energy there, the records of `l` are written. -/
theorem writes_begin (l : List (Nat × Cullet)) : ∀ s : State, holdupPasses s 16 = true → ∃ writing,
    l.foldl (fun t p => culletWrite t p.1) s = { s with flt := { s.flt with writing := writing } } ∧
      ∀ n, n ∈ writing ↔ n ∈ s.flt.writing ∨ ∃ p ∈ l, p.1 = n := by
  induction l with
  | nil =>
    exact fun s _ => ⟨s.flt.writing, rfl, fun n =>
      ⟨.inl, fun known => known.resolve_right fun ⟨p, member, _⟩ => absurd member List.not_mem_nil⟩⟩
  | cons q l ih =>
    intro s energy
    have first : culletWrite s q.1 = { s with flt := { s.flt with writing := setInsert q.1 s.flt.writing } } := if_pos energy
    obtain ⟨writing, done, members⟩ := ih { s with flt := { s.flt with writing := setInsert q.1 s.flt.writing } } energy
    refine ⟨writing, ?_, fun n => (members n).trans ?_⟩
    · rw [List.foldl_cons, first]
      exact done
    · rw [mem_setInsert, List.exists_mem_cons_iff]
      constructor
      · rintro ((rfl | known) | later)
        · exact .inr (.inl rfl)
        · exact .inl known
        · exact .inr (.inr later)
      · rintro (known | (rfl | later))
        · exact .inl (.inr known)
        · exact .inl (.inl rfl)
        · exact .inr later

theorem writes_retried (s : State) (energy : holdupPasses s 16 = true) : ∃ t : State, exec .culletWriteRetry s = .next t ∧
    (∀ p ∈ s.flt.cullet, p.2.written = false → p.1 ∈ t.flt.writing) ∧ (∀ n ∈ s.flt.writing, n ∈ t.flt.writing) ∧
    t = { s with flt := { s.flt with writing := t.flt.writing } } := by
  obtain ⟨writing, done, members⟩ := writes_begin (s.flt.cullet.filter fun p => !p.2.written && !s.flt.writing.contains p.1) s energy
  refine ⟨_, congrArg Host.Outcome.next done, fun p member due => (members p.1).2 ?_, fun n known => (members n).2 (.inl known), rfl⟩
  by_cases under : p.1 ∈ s.flt.writing
  · exact .inl under
  · refine .inr ⟨p, List.mem_filter.2 ⟨member, ?_⟩, rfl⟩
    simp [due, under]

/-- Record `n` of the cullet map has been written. -/
def recordWritten (s : State) (n : Nat) : State :=
  { s with flt := { s.flt with
    writing := setRemove n s.flt.writing
    cullet := s.flt.cullet.map fun p => if p.1 = n then (p.1, { p.2 with written := true }) else p } }

theorem write_done (n : Fin 4096) (s : State) (under : n.val ∈ s.flt.writing) (running : s.pins.inReset = false) :
    ∃ t : State, exec (.culletRecordWriteDone n) s = .next t ∧ n.val ∉ t.flt.writing ∧
      (∀ p ∈ t.flt.cullet, p.1 = n.val → p.2.written = true) ∧
      t = { s with flt := { s.flt with
        writing := t.flt.writing, cullet := t.flt.cullet, log := t.flt.log, nextSeq := t.flt.nextSeq } } := by
  obtain ⟨log, k, frame⟩ := logAppend_tail (recordWritten s n.val) 0xFFFF 0x0011 0 false 0 (BitVec.ofNat 192 n.val)
  have run : exec (.culletRecordWriteDone n) s =
      .next (resetStep4 (logAppend (recordWritten s n.val) 0xFFFF 0x0011 0 false 0 (BitVec.ofNat 192 n.val))) :=
    if_pos (List.contains_iff_mem.2 under)
  have stays : ∀ u : State, u.pins = s.pins → resetStep4 u = u := fun u same => by
    unfold resetStep4
    rw [same, running]
    rfl
  rw [frame] at run
  refine ⟨_, run.trans (congrArg Host.Outcome.next (stays _ rfl)), fun member => ((mem_setRemove ..).1 member).2 rfl, fun p member own => ?_, rfl⟩
  obtain ⟨q, -, rfl⟩ := List.mem_map.1 member
  by_cases same : q.1 = n.val
  · rw [if_pos same]
  · rw [if_neg same] at own
    exact absurd own same

/-- Settles O53: each command by what it makes of the collector's record of it; a record's write begins when the energy is there. -/
theorem injectionAndCullet : Obligations.InjectionAndCullet :=
  ⟨fun sid s => ⟨unlock_secured sid s, unlock_refused sid s⟩, fun _ => rfl,
   fun f _ locked => ⟨answered_of (inject_locked locked 0 f.toNat), answered_of (inject_locked locked 1 f.toNat),
     answered_of (inject_locked locked 2 f.toNat), answered_of (inject_locked locked 3 f.toNat)⟩,
   inject_acts, config_taken, config_refused, slice_retired, fun n s => ⟨slice_outOfRange n s, slice_wrongState n s⟩,
   fun n r s low known => ⟨record_withdrawn n r s low known, record_notPending n r s low known⟩, writes_retried, write_done⟩

end Sys2Proof.Proofs.InjectionAndCullet

/-!
Images, rollback counters, certified configuration, debug and CXL IDE (R444, R447, R448, R456 to R459, R466, R468).
-/

namespace Sys2Proof.Proofs.SecurityUpdates

open Sys2Proof Sys2Proof.Machine Sys2Proof.Laws Sys2Proof.Proofs.Shared Sys2Proof.Proofs.QuietFrames

/-! ### Rollback counters (R447) -/

theorem le_foldl_max (l : List Nat) : ∀ b, b ≤ l.foldl max b ∧ ∀ a ∈ l, a ≤ l.foldl max b := by
  induction l with
  | nil => exact fun b => ⟨Nat.le_refl b, fun a member => absurd member List.not_mem_nil⟩
  | cons c l ih =>
    intro b
    obtain ⟨base, all⟩ := ih (max b c)
    refine ⟨(Nat.le_max_left b c).trans base, fun a member => ?_⟩
    rcases List.mem_cons.1 member with rfl | later
    · exact (Nat.le_max_right b a).trans base
    · exact all a later

/-- The SVNs of the running images that name counter `c`. -/
def runningSvns (s : State) (c : Nat) : List Nat := (s.sec.running.filter fun p => decide (p.2.counter = c)).map fun p => p.2.svn

theorem raiseRollback_raises {s : State} {c : Nat} (low : c ≤ 63) (some' : runningSvns s c ≠ []) : raiseRollback s c =
    ({ s with sec := { s.sec with
      counters := tabSet 0 c ((runningSvns s c).foldl max (tabGet 0 c s.sec.counters)) s.sec.counters } }, .ok) := by
  unfold raiseRollback
  rw [if_neg (Nat.not_lt.2 low)]
  show (match runningSvns s c with
    | [] => (s, Status.wrongState)
    | svns => ({ s with sec := { s.sec with
        counters := tabSet 0 c (svns.foldl max (tabGet 0 c s.sec.counters)) s.sec.counters } }, Status.ok)) = _
  cases svns : runningSvns s c with
  | nil => exact absurd svns some'
  | cons a l => rfl

theorem counter_raised (c : Byte) (q : Nat × FwImage) (s : State) (low : c.toNat ≤ 63) (runs : q ∈ s.sec.running)
    (named : q.2.counter = c.toNat) :
    ∃ t : State, exec (.raiseRollbackCounter c) s = .next t ∧ q.2.svn ≤ tabGet 0 c.toNat t.sec.counters ∧
      tabGet 0 c.toNat s.sec.counters ≤ tabGet 0 c.toNat t.sec.counters ∧
      (∀ d : Nat, d ≠ c.toNat → tabGet 0 d t.sec.counters = tabGet 0 d s.sec.counters) ∧ t.out = s.out ++ [Out.status .ok] ∧
      t = { s with sec := { s.sec with counters := t.sec.counters }, out := t.out } := by
  have member : q.2.svn ∈ runningSvns s c.toNat := List.mem_map.2 ⟨q, List.mem_filter.2 ⟨runs, decide_eq_true named⟩, rfl⟩
  have raised := raiseRollback_raises low (List.ne_nil_of_mem member)
  obtain ⟨base, all⟩ := le_foldl_max (runningSvns s c.toNat) (tabGet 0 c.toNat s.sec.counters)
  generalize (runningSvns s c.toNat).foldl max (tabGet 0 c.toNat s.sec.counters) = v at raised base all
  have read : tabGet 0 c.toNat (tabSet 0 c.toNat v s.sec.counters) = v := tabGet_set_same ..
  exact ⟨_, answered_of raised, (all _ member).trans (Nat.le_of_eq read.symm), base.trans (Nat.le_of_eq read.symm),
    fun d other => tabGet_set_other other 0 0 v s.sec.counters, rfl, rfl⟩

/-! ### Images (R445, R446, R448) -/

theorem firmware_notPermitted (x : BitVec 32) (i : FwImage) (s : State) (open' : encryptedSession s x.toNat = false) :
    exec (.firmwareImage (some x) i) s = .next (emit s (.status .notPermitted)) := by
  show (if encryptedSession s x.toNat then _ else answered (s, Status.notPermitted)) = _
  rw [open']
  rfl

/-- The image is in the bank of the security firmware that does not run. -/
def banked (s : State) (i : FwImage) : State :=
  { s with sec := { s.sec with banks := tabPut (2 + if !s.sec.runSecB then 1 else 0) i s.sec.banks } }

theorem installImage_security {s : State} {i : FwImage} (kind : i.kind = 1) (energy : holdupPasses s i.size = true) :
    installImage s i = if imageValid s i
      then ({ banked s i with sec := { (banked s i).sec with bootSec := !s.sec.runSecB } }, .ok) else (banked s i, .wrongState) := by
  unfold installImage
  rw [if_neg fun bad => bad.1 kind, if_neg (by rw [energy]; decide), kind]
  rfl

theorem firmware_installed (x : BitVec 32) (i : FwImage) (s : State) (encrypted : encryptedSession s x.toNat = true) (kind : i.kind = 1)
    (energy : holdupPasses s i.size = true) :
    ∃ t : State, exec (.firmwareImage (some x) i) s = .next t ∧
      tabFind? (2 + if !s.sec.runSecB then 1 else 0) t.sec.banks = some i ∧
      (imageValid s i = true → t.sec.bootSec = !s.sec.runSecB ∧ t.out = s.out ++ [Out.status .ok]) ∧
      (imageValid s i = false → t.sec.bootSec = s.sec.bootSec ∧ t.out = s.out ++ [Out.status .wrongState]) ∧
      t = { s with sec := { s.sec with banks := t.sec.banks, bootSec := t.sec.bootSec }, out := t.out } := by
  have run : exec (.firmwareImage (some x) i) s = answered (installImage s i) := if_pos encrypted
  have installed := installImage_security kind energy
  have bank : tabFind? (2 + if !s.sec.runSecB then 1 else 0) (banked s i).sec.banks = some i := tabFind_put_same ..
  cases valid : imageValid s i with
  | true =>
    rw [valid] at installed
    exact ⟨_, run.trans (answered_of installed), bank, fun _ => ⟨rfl, rfl⟩, fun bad => Bool.noConfusion bad, rfl⟩
  | false =>
    rw [valid] at installed
    exact ⟨_, run.trans (answered_of installed), bank, fun bad => Bool.noConfusion bad, fun _ => ⟨rfl, rfl⟩, rfl⟩

/-! ### Certified configuration (R456, R457) -/

theorem certPackage_taken {s : State} {x : Nat} {p : CertPackage} {c : CertConfig} (encrypted : encryptedSession s x = true)
    (magic : p.magicOk = true) (device : p.deviceOk = true) (signed : packageSigned s p = true)
    (newer : s.sec.cert.generation.toNat < p.generation.toNat)
    (records : certRecords (s.sec.certNext.getD s.sec.cert) p.records = some c) (energy : holdupPasses s p.size = true) :
    certPackage s x p = ({ s with sec := { s.sec with certNext := some { c with generation := p.generation } } }, .ok) := by
  unfold certPackage
  rw [if_neg (by rw [encrypted]; decide), if_neg (by rw [magic, device, signed, decide_eq_true newer]; decide), records]
  exact if_pos energy

theorem certPackage_refused {s : State} {x : Nat} {p : CertPackage} (encrypted : encryptedSession s x = true)
    (bad : packageSigned s p = false ∨ p.generation.toNat ≤ s.sec.cert.generation.toNat) : certPackage s x p = (s, .wrongState) := by
  unfold certPackage
  rw [if_neg (by rw [encrypted]; decide)]
  refine if_pos ?_
  rcases bad with unsigned | older
  · rw [unsigned, Bool.and_false, Bool.false_and]; rfl
  · rw [decide_eq_false (Nat.not_lt.2 older), Bool.and_false]; rfl

/-! ### Debug (R444, R466 to R468) -/

/-- A change of debug is logged and told to the sessions. -/
theorem debugChanged_frame (s : State) : (debugChanged s).sec = s.sec ∧ ∃ spr flt perf, debugChanged s =
    { s with spr := spr, flt := flt, perf := perf } := by
  unfold debugChanged
  obtain ⟨flt, frame⟩ := logAppend_frame s 0xFFFF Config.unlistedLogCode.toNat 0 false 0 (BitVec.ofNat 192 (debugState s))
  rw [logInfo, frame]
  exact ⟨rfl, _, _, _, rfl⟩

theorem token_taken (d : DebugToken) (s : State) (accepted : tokenAccepted s d = true) :
    ∃ t : State, exec (.debugToken none d) s = .next t ∧ t.sec.unlocked = true ∧ t.sec.permissions = d.permissions ∧
      t.sec.expiresAt = s.time.clock + d.lifetime * 1000000000 ∧ t.out = s.out ++ [Out.status .ok] ∧
      t = { s with spr := t.spr, flt := t.flt, perf := t.perf, sec := t.sec, out := t.out } := by
  obtain ⟨u, made⟩ : ∃ u : State, u = { s with sec := { s.sec with
    unlocked := true, permissions := d.permissions, expiresAt := s.time.clock + d.lifetime * 1000000000 } } := ⟨_, rfl⟩
  have taken : presentToken s d = (debugChanged u, .ok) := by rw [made]; exact if_pos accepted
  obtain ⟨sec, spr, flt, perf, frame⟩ := debugChanged_frame u
  generalize debugChanged u = v at taken sec frame
  refine ⟨emit v (.status .ok), answered_of taken, ?_, ?_, ?_, ?_, ?_⟩
  · show v.sec.unlocked = true
    rw [sec, made]
  · show v.sec.permissions = _
    rw [sec, made]
  · show v.sec.expiresAt = _
    rw [sec, made]
  · show v.out ++ _ = _
    rw [frame, made]
  · rw [frame, made]; rfl

theorem token_refused (d : DebugToken) (s : State) (refused : tokenAccepted s d = false) :
    ∃ t : State, exec (.debugToken none d) s = .next t ∧ t.sec = s.sec ∧ t.out = s.out ++ [Out.status .wrongState] ∧
      t = { s with flt := t.flt, out := t.out } := by
  obtain ⟨flt, frame⟩ := logAppend_frame s 0xFFFF Config.unlistedLogCode.toNat 0 false 0 0
  have done : presentToken s d = ({ s with flt := flt }, .wrongState) := by
    rw [← frame]
    exact if_neg (by rw [refused]; decide)
  exact ⟨_, answered_of done, rfl, rfl, rfl⟩

theorem debug_locked (s : State) (unlocked : s.sec.unlocked = true) : ∃ t : State, ∃ u : State, exec .lockDebug s = .next t ∧
    exec .debugTokenExpire s = .next u ∧ t = emit u (.status .ok) ∧
    u.sec = { s.sec with unlocked := false, permissions := 0, expiresAt := 0 } ∧
    u = { s with spr := u.spr, flt := u.flt, perf := u.perf, sec := u.sec } := by
  obtain ⟨v, made⟩ : ∃ v : State, v = { s with sec := { s.sec with unlocked := false, permissions := 0, expiresAt := 0 } } := ⟨_, rfl⟩
  have locked : Machine.lockDebug s = debugChanged v := by rw [made]; exact if_pos unlocked
  obtain ⟨sec, spr, flt, perf, frame⟩ := debugChanged_frame v
  have lock : exec .lockDebug s = .next (emit (debugChanged v) (.status .ok)) := answered_of (congrArg (·, Status.ok) locked)
  have expire : exec .debugTokenExpire s = .next (debugChanged v) := congrArg Host.Outcome.next locked
  generalize debugChanged v = u at lock expire sec frame
  refine ⟨_, u, lock, expire, rfl, sec.trans (by rw [made]), ?_⟩
  rw [frame, made]

theorem health_failed (s : State) : ∃ t : State, exec .healthTestFailure s = .next t ∧ t.sec = { s.sec with healthFailed := true } ∧
    (tabFind? 451 t.flt.pairs).isSome = true ∧ t = { s with flt := { s.flt with pairs := t.flt.pairs }, sec := t.sec } := by
  refine ⟨raiseFault { s with sec := { s.sec with healthFailed := true } } 451 3 0, rfl, ?_, raiseReport_some .., ?_⟩
  · rw [raiseFault_frame]
  · rw [raiseFault_frame]

/-! ### CXL IDE (R458, R459) -/

theorem idePort_setIde_same (s : State) (p : Nat) (y : IdePort) : idePort (setIde s p y) p = y := tabGet_set_same ..

theorem idePort_setIde_other (s : State) {p q : Nat} (y : IdePort) (apart : q ≠ p) : idePort (setIde s p y) q = idePort s q :=
  tabGet_set_other apart ..

/-- The number of key set `b`. -/
def setNo (b : Bool) : Nat := if b then 1 else 0

theorem ideKm_wrongPort (p : Fin 96) (c i : Nat) (op : IdeOp) (s : State) (session : i ∈ (spdmConn s c).sessions)
    (role : odGet s (0x2100 + p.val) 1 ≠ 1) (host : poolPort s p.val = false) :
    exec (.ideKm p c i op) s = .next (spdmAnswer s c (spdmConn s c) .unsupportedRequest) := by
  have known : (spdmConn s c).sessions.contains i = true := List.contains_iff_mem.2 session
  show execIdeKm p c i op s = _
  unfold execIdeKm
  dsimp only
  rw [if_neg (by rw [host]; decide), if_neg (by rw [known]; decide), decide_eq_false role]
  rfl

/-- Port `p` is keyed over session `i` of connection `c` (R458): an upstream port, or a pool port whose expander is trusted. -/
def Keyed (s : State) (p : Fin 96) : Prop :=
  (odGet s (0x2100 + p.val) 1 = 1 ∧ poolPort s p.val = false) ∨ (poolPort s p.val = true ∧ (idePort s p.val).trusted = true)

/-- A message of IDE_KM that keys a port acts on that port's IDE alone, and is answered unless the device is the requester. -/
theorem ideKm_acts (p : Fin 96) (c i : Nat) (op : IdeOp) (s : State) (session : i ∈ (spdmConn s c).sessions) (keyed : Keyed s p)
    (key : chainOp op = false) : ∃ t : State, exec (.ideKm p c i op) s = .next t ∧ idePort t p.val = ideStep s (idePort s p.val) op ∧
      (∀ q : Nat, q ≠ p.val → idePort t q = idePort s q) ∧
      t.out = s.out ++ (if poolPort s p.val then [] else [Out.spdm c .vendor]) ∧ t = { s with sec := t.sec, out := t.out } := by
  have own := idePort_setIde_same s p.val (ideStep s (idePort s p.val) op)
  have others := fun q => idePort_setIde_other s (p := p.val) (q := q) (ideStep s (idePort s p.val) op)
  rcases keyed with ⟨role, host⟩ | ⟨pool, trusted⟩
  · have known : (spdmConn s c).sessions.contains i = true := List.contains_iff_mem.2 session
    have run : exec (.ideKm p c i op) s =
        .next (spdmAnswer (setIde s p.val (ideStep s (idePort s p.val) op)) c (spdmConn s c) .vendor) := by
      show execIdeKm p c i op s = _
      unfold execIdeKm
      dsimp only
      rw [if_neg (by rw [host]; decide), if_neg (by rw [known]; decide), decide_eq_true role, key]
      rfl
    rw [host]
    exact ⟨_, run, own, others, rfl, rfl⟩
  · have run : exec (.ideKm p c i op) s = .next (setIde s p.val (ideStep s (idePort s p.val) op)) := by
      show execIdeKm p c i op s = _
      unfold execIdeKm
      dsimp only
      rw [if_pos pool, trusted, Bool.or_true]
      rfl
    rw [pool]
    exact ⟨_, run, own, others, (List.append_nil s.out).symm, rfl⟩

theorem ideKm_program (p : Fin 96) (c i n : Nat) (b : Bool) (s : State) (session : i ∈ (spdmConn s c).sessions) (keyed : Keyed s p) :
    ∃ t : State, exec (.ideKm p c i (.program n b)) s = .next t ∧ (n * 2 + if b then 1 else 0) ∈ (idePort t p.val).programmed ∧
      (idePort t p.val).established = (idePort s p.val).established ∧ (∀ q : Nat, q ≠ p.val → idePort t q = idePort s q) ∧
      t.out = s.out ++ (if poolPort s p.val then [] else [Out.spdm c .vendor]) ∧ t = { s with sec := t.sec, out := t.out } := by
  obtain ⟨t, run, own, others, out, touched⟩ := ideKm_acts p c i (.program n b) s session keyed rfl
  refine ⟨t, run, ?_, ?_, others, out, touched⟩
  · rw [own]; exact (mem_setInsert ..).2 (.inl rfl)
  · rw [own]; rfl

theorem ideStep_go {s : State} {x : IdePort} {n : Nat} {b : Bool} (programmed : (n * 2 + if b then 1 else 0) ∈ x.programmed) :
    ideStep s x (.go b) = { x with established := true, keySet := b } := by
  refine if_pos (List.any_eq_true.2 ⟨_, programmed, decide_eq_true ?_⟩)
  cases b
  · exact Nat.mul_mod_left n 2
  · show (n * 2 + 1) % 2 = 1
    omega

theorem ideKm_go (p : Fin 96) (c i n : Nat) (b : Bool) (s : State) (session : i ∈ (spdmConn s c).sessions) (keyed : Keyed s p)
    (programmed : (n * 2 + if b then 1 else 0) ∈ (idePort s p.val).programmed) :
    ∃ t : State, exec (.ideKm p c i (.go b)) s = .next t ∧ (idePort t p.val).established = true ∧ (idePort t p.val).keySet = b ∧
      (∀ q : Nat, q ≠ p.val → idePort t q = idePort s q) ∧ t = { s with sec := t.sec, out := t.out } := by
  obtain ⟨t, run, own, others, -, touched⟩ := ideKm_acts p c i (.go b) s session keyed rfl
  rw [ideStep_go programmed] at own
  exact ⟨t, run, by rw [own], by rw [own], others, touched⟩

theorem ideKm_chain (p : Fin 96) (c i : Nat) (root : BitVec 256) (s : State) (pool : poolPort s p.val = true) :
    ∃ t : State, exec (.ideKm p c i (.chain root)) s = .next t ∧ idePort t p.val = { idePort s p.val with trusted := trustAnchor s root } ∧
      (∀ q : Nat, q ≠ p.val → idePort t q = idePort s q) ∧ t = { s with sec := { s.sec with ide := t.sec.ide } } := by
  have run : exec (.ideKm p c i (.chain root)) s = .next (setIde s p.val { idePort s p.val with trusted := trustAnchor s root }) := if_pos pool
  exact ⟨_, run, idePort_setIde_same .., fun _ => idePort_setIde_other s _, rfl⟩

theorem ideKm_untrusted (p : Fin 96) (c i : Nat) (op : IdeOp) (s : State) (pool : poolPort s p.val = true)
    (untrusted : (idePort s p.val).trusted = false) (key : chainOp op = false) : exec (.ideKm p c i op) s = .next s := by
  show execIdeKm p c i op s = _
  unfold execIdeKm
  dsimp only
  rw [if_pos pool, untrusted, key]
  rfl

theorem ide_fails (p : Fin 96) (s : State) (up : (idePort s p.val).established = true) :
    ∃ u : State, exec (.ideCheckFailure p) s = .next (raiseFault (portDown u p.val) p.val 3 (2 ^ 28)) ∧ idePort u p.val = ideReset ∧
      (∀ q : Nat, q ≠ p.val → idePort u q = idePort s q) ∧ u = { s with sec := { s.sec with ide := u.sec.ide } } :=
  ⟨setIde s p.val ideReset, if_pos up, idePort_setIde_same .., fun _ => idePort_setIde_other s _, rfl⟩

/-- Settles O54: each update by what the rules accept, and IDE_KM by what it makes of its port's own IDE (`ideStep`). -/
theorem securityUpdatesAndIde : Obligations.SecurityUpdatesAndIde :=
  ⟨counter_raised, firmware_notPermitted, firmware_installed,
   fun _ _ c _ encrypted magic device signed newer records energy =>
     ⟨_, answered_of (certPackage_taken (c := c) encrypted magic device signed newer records energy), rfl, rfl, rfl, rfl⟩,
   fun _ _ _ encrypted bad => answered_of (certPackage_refused encrypted bad),
   token_taken, token_refused, debug_locked, health_failed, ideKm_wrongPort, ideKm_program, ideKm_go, ideKm_chain,
   fun p c i n b s pool untrusted => ⟨ideKm_untrusted p c i (.program n b) s pool untrusted rfl,
     ideKm_untrusted p c i (.go b) s pool untrusted rfl, ideKm_untrusted p c i .stop s pool untrusted rfl⟩,
   ide_fails⟩

end Sys2Proof.Proofs.SecurityUpdates

/-!
What the SPDM responder answers on a connection, and what the connection then holds (R444, R451 to R455).
-/

namespace Sys2Proof.Proofs.SpdmAnswers

open Sys2Proof Sys2Proof.Machine Sys2Proof.Laws Sys2Proof.Proofs.Shared

/-! ### An answer on a connection -/

@[simp] theorem spdmConn_spdmAnswer (s : State) (c : Nat) (x : SpdmConn) (r : SpdmReply) : spdmConn (spdmAnswer s c x r) c = x :=
  tabGet_set_same ..

theorem spdmConn_spdmAnswer_other (s : State) {c d : Nat} (other : d ≠ c) (x : SpdmConn) (r : SpdmReply) :
    spdmConn (spdmAnswer s c x r) d = spdmConn s d := tabGet_set_other other ..

theorem answer_effect (c : Nat) (x : SpdmConn) (r : SpdmReply) (s : State) :
    let t := spdmAnswer s c x r
    spdmConn t c = x ∧ tabFind? c t.sec.spdmReply = some r ∧ t.out = s.out ++ [Out.spdm c r] ∧
      (∀ d : Nat, d ≠ c → spdmConn t d = spdmConn s d) ∧
      t = { s with sec := { s.sec with spdm := t.sec.spdm, spdmReply := t.sec.spdmReply }, out := t.out } :=
  ⟨spdmConn_spdmAnswer .., tabFind_put_same .., rfl, fun _ other => spdmConn_spdmAnswer_other s other x r, rfl⟩

/-! ### Connections with negotiated algorithms, and latched ones (R453, R454) -/

section
variable {s : State} {c k : Nat}

theorem spdmReady_negotiated (open' : (spdmConn s c).latched = false) (slot : (spdmConn s c).slot = some k)
    (f : SpdmConn → Nat → State) : spdmReady s c f = f (spdmConn s c) k := by
  unfold spdmReady
  dsimp only
  rw [open', slot]

theorem spdmReady_unexpected (closed : (spdmConn s c).latched = true ∨ (spdmConn s c).slot = none) (f : SpdmConn → Nat → State) :
    spdmReady s c f = spdmAnswer s c (spdmConn s c) .unexpectedRequest := by
  unfold spdmReady
  dsimp only
  rcases closed with latched | slot
  · rw [latched]
  · rw [slot]
    cases (spdmConn s c).latched <;> rfl

theorem unlessLatched_open (open' : (spdmConn s c).latched = false) (t : State) : unlessLatched s c t = t :=
  if_neg (open' ▸ Bool.false_ne_true)

theorem unlessLatched_latched (latched : (spdmConn s c).latched = true) (t : State) :
    unlessLatched s c t = spdmAnswer s c (spdmConn s c) .unexpectedRequest := if_pos latched

theorem spdmInSession_of (open' : (spdmConn s c).latched = false) {i : Nat} (member : i ∈ (spdmConn s c).sessions) (r : SpdmReply) :
    spdmInSession s c i r = spdmAnswer s c (spdmConn s c) r :=
  if_pos (Bool.and_eq_true_iff.2 ⟨by rw [open']; rfl, List.contains_iff_mem.2 member⟩)

theorem spdmInSession_latched (latched : (spdmConn s c).latched = true) (i : Nat) (r : SpdmReply) :
    spdmInSession s c i r = spdmAnswer s c (spdmConn s c) .unexpectedRequest := if_neg (by rw [latched]; simp)

/-! ### Signing (R444, R451, R453) -/

theorem spdmRandom_healthy (healthy : s.sec.healthFailed = false) (x : SpdmConn) (next : State) : spdmRandom s c x next = next :=
  if_neg (healthy ▸ Bool.false_ne_true)

theorem spdmRandom_failed (failed : s.sec.healthFailed = true) (x : SpdmConn) (next : State) :
    spdmRandom s c x next = spdmAnswer s c x .busyError := if_pos failed

theorem spdmSign_busy (signing : s.time.clock < s.sec.signUntil) (x : SpdmConn) (r : SpdmReply) :
    spdmSign s c x k r = spdmAnswer s c x .responseNotReady := if_pos signing

theorem spdmSign_free (free : s.sec.signUntil ≤ s.time.clock) (x : SpdmConn) (r : SpdmReply) : spdmSign s c x k r =
    spdmAnswer { s with sec := { s.sec with signUntil := s.time.clock + (if k = 0 then 20000000 else 2000000) } } c x r :=
  if_neg (Nat.not_lt.2 free)

end

/-! ### From GET_VERSION to NEGOTIATE_ALGORITHMS (R452, R453, R454) -/

theorem capabilities_taken (c : Nat) (v : Byte) (s : State) (open' : (spdmConn s c).latched = false)
    (versioned : (spdmConn s c).versioned = true) (known : v = 0x12 ∨ v = 0x13) : exec (.getCapabilities c v) s =
      .next (spdmAnswer s c { spdmConn s c with capable := true, version := v.toNat } .capabilities) :=
  (if_neg (by rw [open', versioned]; decide)).trans (if_pos known)

theorem algorithms_taken (c : Nat) (l : List (BitVec 16)) (s : State) (open' : (spdmConn s c).latched = false)
    (capable : (spdmConn s c).capable = true) : exec (.negotiateAlgorithms c l) s = .next (spdmAnswer s c
      (if 0x5301 ∈ l then { spdmConn s c with slot := some 0 } else if 0x5302 ∈ l then { spdmConn s c with slot := some 1 }
       else { spdmConn s c with slot := none, latched := true })
      (if 0x5301 ∈ l then .algorithms 0 else if 0x5302 ∈ l then .algorithms 1 else .invalidRequest)) := by
  refine (if_neg (by rw [open', capable]; decide)).trans ?_
  by_cases first : 0x5301 ∈ l
  · rw [if_pos (List.contains_iff_mem.2 first), if_pos first, if_pos first]
  · rw [if_neg (mt List.contains_iff_mem.1 first), if_neg first, if_neg first]
    by_cases second : 0x5302 ∈ l
    · rw [if_pos (List.contains_iff_mem.2 second), if_pos second, if_pos second]
    · rw [if_neg (mt List.contains_iff_mem.1 second), if_neg second, if_neg second]

/-! ### Requests of a connection with negotiated algorithms (R444, R451, R453) -/

theorem negotiated_missing (c : Nat) (i : Instr) (s : State) (closed : (spdmConn s c).latched = true ∨ (spdmConn s c).slot = none)
    (member : i ∈ [Instr.getDigests c, .getCertificate c 0 0 0, .challenge c, .getMeasurements c 1 true, .keyExchange c,
      .vendorDefinedRequest c]) : exec i s = .next (spdmAnswer s c (spdmConn s c) .unexpectedRequest) := by
  have answer := fun f => congrArg (Host.Outcome.next (φ := Fault) (ρ := Refusal)) (spdmReady_unexpected closed f)
  simp only [List.mem_cons, List.not_mem_nil, or_false] at member
  rcases member with rfl | rfl | rfl | rfl | rfl | rfl
  all_goals exact answer _

section
variable (c k : Nat) (s : State) (open' : (spdmConn s c).latched = false) (slot : (spdmConn s c).slot = some k)
include open' slot

theorem measurement_answered (o : Byte) (low : 1 ≤ o.toNat) (high : o.toNat ≤ 7) : exec (.getMeasurements c o false) s =
    .next (spdmAnswer s c (spdmConn s c) (.measurements [(o.toNat, measurement s o.toNat)] false)) := by
  refine congrArg Host.Outcome.next ((spdmReady_negotiated open' slot _).trans ?_)
  dsimp only
  rw [if_neg (Nat.ne_of_gt low), if_pos high]
  rfl

theorem challenge_run : exec (.challenge c) s =
    .next (spdmRandom s c (spdmConn s c) (spdmSign s c (spdmConn s c) k (.challengeAuth k))) :=
  congrArg Host.Outcome.next (spdmReady_negotiated open' slot _)

/-- The state in which the answer of KEY_EXCHANGE is signed: the next session's number is given out. -/
def numbered (s : State) : State := { s with sec := { s.sec with nextSpdm := s.sec.nextSpdm + 1 } }

theorem keyExchange_run (healthy : s.sec.healthFailed = false) : exec (.keyExchange c) s = .next
    (if s.time.clock < s.sec.signUntil then spdmAnswer s c (spdmConn s c) .responseNotReady
     else spdmSign (numbered s) c { spdmConn s c with opening := (spdmConn s c).opening ++ [s.sec.nextSpdm] } k
       (.keyExchange s.sec.nextSpdm)) :=
  congrArg Host.Outcome.next ((spdmReady_negotiated open' slot _).trans (spdmRandom_healthy healthy _ _))

theorem signed_answers (healthy : s.sec.healthFailed = false) (free : s.sec.signUntil ≤ s.time.clock) : ∃ t : State, ∃ u : State,
    exec (.challenge c) s = .next t ∧ t.out = s.out ++ [Out.spdm c (.challengeAuth k)] ∧
      t.sec.signUntil = s.time.clock + (if k = 0 then 20000000 else 2000000) ∧
      exec (.keyExchange c) s = .next u ∧ u.out = s.out ++ [Out.spdm c (.keyExchange s.sec.nextSpdm)] ∧
      u.sec.nextSpdm = s.sec.nextSpdm + 1 ∧ (spdmConn u c).opening = (spdmConn s c).opening ++ [s.sec.nextSpdm] := by
  have challenge := (challenge_run c k s open' slot).trans
    (congrArg Host.Outcome.next ((spdmRandom_healthy healthy _ _).trans (spdmSign_free free _ _)))
  have exchange := (keyExchange_run c k s open' slot healthy).trans
    (congrArg Host.Outcome.next ((if_neg (Nat.not_lt.2 free)).trans (spdmSign_free (s := numbered s) free _ _)))
  exact ⟨_, _, challenge, rfl, rfl, exchange, rfl, rfl, congrArg SpdmConn.opening (spdmConn_spdmAnswer ..)⟩

theorem negotiated_answers : exec (.getDigests c) s = .next (spdmAnswer s c (spdmConn s c) .digests) ∧
    exec (.vendorDefinedRequest c) s = .next (spdmAnswer s c (spdmConn s c) .vendor) ∧
    (∀ o : Byte, 1 ≤ o.toNat → o.toNat ≤ 7 → exec (.getMeasurements c o false) s =
      .next (spdmAnswer s c (spdmConn s c) (.measurements [(o.toNat, measurement s o.toNat)] false))) ∧
    (s.sec.healthFailed = true → exec (.challenge c) s = .next (spdmAnswer s c (spdmConn s c) .busyError)) ∧
    (s.sec.healthFailed = false → s.time.clock < s.sec.signUntil →
      exec (.challenge c) s = .next (spdmAnswer s c (spdmConn s c) .responseNotReady) ∧
        exec (.keyExchange c) s = .next (spdmAnswer s c (spdmConn s c) .responseNotReady)) := by
  have challenge := challenge_run c k s open' slot
  refine ⟨congrArg Host.Outcome.next (spdmReady_negotiated open' slot _),
    congrArg Host.Outcome.next (spdmReady_negotiated open' slot _), measurement_answered c k s open' slot,
    fun failed => challenge.trans (congrArg Host.Outcome.next (spdmRandom_failed failed _ _)), fun healthy signing => ⟨?_, ?_⟩⟩
  · exact challenge.trans (congrArg Host.Outcome.next ((spdmRandom_healthy healthy _ _).trans (spdmSign_busy signing _ _)))
  · exact (keyExchange_run c k s open' slot healthy).trans (congrArg Host.Outcome.next (if_pos signing))

theorem certificate_answered (slotNo : Fin 16) (o n : BitVec 16) (h : slotNo.val < 2) : exec (.getCertificate c slotNo o n) s =
    .next (spdmAnswer s c (spdmConn s c)
      (if o.toNat < (Config.certChain ⟨slotNo.val, h⟩).length then
        .certificate slotNo o.toNat (min n.toNat ((Config.certChain ⟨slotNo.val, h⟩).length - o.toNat)) else .invalidRequest)) := by
  refine congrArg Host.Outcome.next ((spdmReady_negotiated open' slot _).trans ?_)
  dsimp only
  rw [dif_pos h]
  exact (apply_ite (spdmAnswer s c (spdmConn s c)) _ _ _).symm

end

/-! ### Sessions of SPDM (R452, R455) -/

theorem finish_ends (c i : Nat) (b : Bool) (s : State) (open' : (spdmConn s c).latched = false)
    (opening : i ∈ (spdmConn s c).opening) : ∃ t : State, exec (.finish c i b) s = .next t ∧ i ∉ (spdmConn t c).opening ∧
      (b = true → i ∈ (spdmConn t c).sessions) ∧ t.out = s.out ++ [Out.spdm c (if b then .finish else .invalidRequest)] ∧
      t = { s with sec := t.sec, out := t.out } := by
  have removed : i ∉ setRemove i (spdmConn s c).opening := fun member => ((mem_setRemove i i _).1 member).2 rfl
  have run : exec (.finish c i b) s = .next (if b then spdmAnswer s c { spdmConn s c with
      opening := setRemove i (spdmConn s c).opening, sessions := setInsert i (spdmConn s c).sessions } .finish
      else spdmAnswer s c { spdmConn s c with opening := setRemove i (spdmConn s c).opening } .invalidRequest) :=
    (if_neg (open' ▸ Bool.false_ne_true)).trans ((if_pos (List.contains_iff_mem.2 opening)).trans
      (apply_ite Host.Outcome.next _ _ _).symm)
  cases b with
  | true =>
    refine ⟨_, run, ?_, fun _ => ?_, rfl, rfl⟩
    · rw [if_pos rfl, spdmConn_spdmAnswer]
      exact removed
    · rw [if_pos rfl, spdmConn_spdmAnswer]
      exact (mem_setInsert i i _).2 (.inl rfl)
  | false =>
    refine ⟨_, run, ?_, fun verified => absurd verified (by decide), rfl, rfl⟩
    rw [if_neg (by decide), spdmConn_spdmAnswer]
    exact removed

theorem session_answers (c i : Nat) (s : State) (open' : (spdmConn s c).latched = false) (member : i ∈ (spdmConn s c).sessions) :
    exec (.heartbeat c i) s = .next (spdmAnswer s c (spdmConn s c) .heartbeat) ∧
    exec (.keyUpdate c i) s = .next (spdmAnswer s c (spdmConn s c) .keyUpdate) ∧
    ∃ t : State, exec (.endSession c i) s = .next t ∧ i ∉ (spdmConn t c).sessions ∧ (∀ x ∈ t.spr.sessions, x.spdm ≠ some i) ∧
      t.out = s.out ++ [Out.spdm c .endSession] ∧
      t = { s with spr := { s.spr with sessions := t.spr.sessions, segs := t.spr.segs }, sec := t.sec, out := t.out } := by
  have heartbeat := spdmInSession_of open' member .heartbeat
  have keyUpdate := spdmInSession_of open' member .keyUpdate
  have ends : exec (.endSession c i) s = .next (spdmAnswer (spdmSessionEnds s i) c
      { spdmConn s c with sessions := setRemove i (spdmConn s c).sessions } .endSession) :=
    if_pos (Bool.and_eq_true_iff.2 ⟨by rw [open']; rfl, List.contains_iff_mem.2 member⟩)
  refine ⟨congrArg Host.Outcome.next heartbeat, congrArg Host.Outcome.next keyUpdate, _, ends, ?_, fun x left => ?_, rfl, rfl⟩
  · rw [spdmConn_spdmAnswer]
    exact fun left => ((mem_setRemove i i _).1 left).2 rfl
  · exact of_decide_eq_true (List.mem_filter.1 left).2

/-! ### Chunks (R455) -/

theorem chunk_taken (c n : Nat) (d : List Byte) (last : Bool) (s : State) (open' : (spdmConn s c).latched = false)
    (next : n = (spdmConn s c).chunkNext) (short : d.length ≤ 4096) (fits : (spdmConn s c).chunkIn.length + d.length ≤ 65536) :
    ∃ t : State, exec (.chunkSend c n d last) s = .next t ∧ t.out = s.out ++ [Out.spdm c .chunkAck] ∧
      (spdmConn t c).chunkIn = (if last then [] else (spdmConn s c).chunkIn ++ d) ∧
      (spdmConn t c).chunkNext = (if last then 0 else n + 1) ∧ t = { s with sec := t.sec, out := t.out } :=
  ⟨_, (if_neg (open' ▸ Bool.false_ne_true)).trans (if_pos ⟨next, short, fits⟩), rfl,
    congrArg SpdmConn.chunkIn (spdmConn_spdmAnswer ..), congrArg SpdmConn.chunkNext (spdmConn_spdmAnswer ..), rfl⟩

theorem chunk_given (c n : Nat) (s : State) (open' : (spdmConn s c).latched = false) (some' : 0 < n) : ∃ t : State,
    exec (.chunkGet c 0 n) s = .next t ∧ t.out = s.out ++ [Out.spdm c (.chunk 0 (min (min n 65536) 4096))] ∧
    (spdmConn t c).chunkOut = min n 65536 - min (min n 65536) 4096 ∧ (spdmConn t c).chunkOutSeq = 1 ∧
    t = { s with sec := t.sec, out := t.out } := by
  have left : 0 < min n 65536 := by omega
  exact ⟨_, (if_neg (open' ▸ Bool.false_ne_true)).trans (if_pos ⟨.inl rfl, left⟩), rfl,
    congrArg SpdmConn.chunkOut (spdmConn_spdmAnswer ..), congrArg SpdmConn.chunkOutSeq (spdmConn_spdmAnswer ..), rfl⟩

/-! ### A latched connection (R454) -/

theorem latched_answers (c n : Nat) (v : Byte) (l : List (BitVec 16)) (b : Bool) (d : List Byte) (i : Instr) (s : State)
    (latched : (spdmConn s c).latched = true)
    (member : i ∈ [Instr.getCapabilities c v, .negotiateAlgorithms c l, .finish c n b, .heartbeat c n, .keyUpdate c n, .endSession c n,
      .chunkSend c n d b, .chunkGet c n n, .spdmUnsupportedRequest c]) :
    exec i s = .next (spdmAnswer s c (spdmConn s c) .unexpectedRequest) := by
  have either (y : Bool) : ((spdmConn s c).latched || y) = true := by rw [latched]; rfl
  have inSession := fun r => congrArg (Host.Outcome.next (φ := Fault) (ρ := Refusal)) (spdmInSession_latched latched n r)
  simp only [List.mem_cons, List.not_mem_nil, or_false] at member
  rcases member with rfl | rfl | rfl | rfl | rfl | rfl | rfl | rfl | rfl
  · exact if_pos (either _)
  · exact if_pos (either _)
  · exact if_pos latched
  · exact inSession .heartbeat
  · exact inSession .keyUpdate
  · exact if_neg (by rw [latched]; simp)
  · exact if_pos latched
  · exact if_pos latched
  · exact congrArg Host.Outcome.next (unlessLatched_latched latched _)

/-- Settles O55, request by request: what a connection may ask follows from its latch, its slot and its sessions. -/
theorem spdmAnswers : Obligations.SpdmAnswers :=
  ⟨answer_effect, fun _ _ => rfl, capabilities_taken, algorithms_taken, negotiated_missing,
   fun c k s open' slot =>
     let ⟨digests, vendor, measured, failed, signing⟩ := negotiated_answers c k s open' slot
     ⟨digests, vendor, measured, failed, signing, signed_answers c k s open' slot⟩,
   fun c k slotNo o n h s open' slot => certificate_answered c k s open' slot slotNo o n h,
   finish_ends, session_answers, chunk_taken, chunk_given,
   fun _ _ open' => congrArg Host.Outcome.next (unlessLatched_open open' _), latched_answers⟩

end Sys2Proof.Proofs.SpdmAnswers

/-!
The snapshot, samplers, device time and timestamp inputs (R472, R475, R477 to R482).
-/

namespace Sys2Proof.Proofs.Samplers

open Sys2Proof Sys2Proof.Machine Sys2Proof.Laws Sys2Proof.Proofs.Shared Sys2Proof.Proofs.Collector

/-! ### Device samplers (R477, R478) -/

theorem sampler_enabled (k : Fin 8) (on : Bool) (s : State) : ∃ t : State, exec (.samplerEnable k on) s = .next t ∧
    odGet t (0xC040 + k.val) 1 = (if on then 1 else 0) ∧
    (on = true → odGet t (0xC040 + k.val) 6 = (samplerCounter s k.val + BitVec.ofNat 48 (odGet s (0xC040 + k.val) 4)).toNat) ∧
    t.out = s.out ++ [Out.status .ok] ∧ t = { s with od := t.od, out := t.out } := by
  cases on with
  | true => exact ⟨_, rfl, (odGet_odSet_sub _ _ _ _ (by decide)).trans (odGet_odSet_same ..), fun _ => odGet_odSet_same .., rfl, rfl⟩
  | false => exact ⟨_, rfl, odGet_odSet_same .., fun on => absurd on (by decide), rfl, rfl⟩

/-- What a sampler whose counter has come to its threshold `t` captures of it. -/
def capture (t c : Counter) : Counter := t + BitVec.ofNat 48 (min (c - t).toNat 64)

theorem captured_reached {t c : Counter} (reached : (c - t).toNat < 2 ^ 47) : captured t c = some (capture t c) := if_pos reached

theorem captured_before {t c : Counter} (before : 2 ^ 47 ≤ (c - t).toNat) : captured t c = none := if_neg (Nat.not_lt.2 before)

/-- The threshold of device sampler `k`. -/
def threshold (s : State) (k : Nat) : Counter := BitVec.ofNat 48 (odGet s (0xC040 + k) 6)

/-- The firing of a sampler, counted, after a capture that was `n` late. -/
def fireCounted (s : State) (n : Nat) : State := bumpCBy (bumpC s 0xC02F 1) 0xC02F 2 n

theorem counter_fireCounted (s : State) (n : Nat) :
    counter (fireCounted s n) (counterNo 0xC02F 1) = counter s (counterNo 0xC02F 1) + 1 :=
  (counter_bump_other (bumpC s 0xC02F 1) (n := counterNo 0xC02F 2) (by decide) n).trans (counter_bump_same s (counterNo 0xC02F 1) 1)

theorem fireCounted_frame (s : State) (n : Nat) : ∃ cnt, fireCounted s n = { s with perf := { s.perf with cnt := cnt } } := ⟨_, rfl⟩

/-- Device sampler `k` is armed one period further. -/
def rearmed (s : State) (k : Nat) : State :=
  odSet s (0xC040 + k) 6 (threshold s k + BitVec.ofNat 48 (odGet s (0xC040 + k) 4)).toNat

theorem samplerFire_interrupt {s : State} {k : Nat} (told : bits (odGet s (0xC040 + k) 5) 0 0 = 1)
    (noRecord : bits (odGet s (0xC040 + k) 5) 1 1 = 0) (noTrace : bits (odGet s (0xC040 + k) 5) 2 2 = 0)
    (reached : (samplerCounter s k - threshold s k).toNat < 2 ^ 47) :
    ∃ n, samplerFire s k = emit (coresInterrupted (fireCounted (rearmed s k) n)) (.samplerInterrupt k) := by
  have step := captured_reached reached
  unfold threshold at step
  refine ⟨if decide (capture (threshold s k) (samplerCounter s k) ≠ threshold s k) then 1 else 0, ?_⟩
  unfold samplerFire
  dsimp only
  rw [step, noRecord, noTrace, told]
  rfl

theorem interrupting_fires (k : Fin 72) (s : State) (device : k.val < 8) (enabled : odGet s (0xC040 + k.val) 1 = 1)
    (told : bits (odGet s (0xC040 + k.val) 5) 0 0 = 1) (noRecord : bits (odGet s (0xC040 + k.val) 5) 1 1 = 0)
    (noTrace : bits (odGet s (0xC040 + k.val) 5) 2 2 = 0)
    (reached : (samplerCounter s k.val - BitVec.ofNat 48 (odGet s (0xC040 + k.val) 6)).toNat < 2 ^ 47) :
    ∃ t : State, exec (.samplerFire k) s = .next t ∧ t.out = s.out ++ [Out.samplerInterrupt k.val] ∧
      odGet t (0xC040 + k.val) 6 = (BitVec.ofNat 48 (odGet s (0xC040 + k.val) 6) + BitVec.ofNat 48 (odGet s (0xC040 + k.val) 4)).toNat ∧
      counter t (counterNo 0xC02F 1) = counter s (counterNo 0xC02F 1) + 1 ∧ (∀ j : Nat, j < 4 → (coreSt t j).level = .p0) ∧
      t = { s with od := t.od, perf := t.perf, mgmt := { s.mgmt with cores := t.mgmt.cores }, out := t.out } := by
  obtain ⟨n, fires⟩ := samplerFire_interrupt told noRecord noTrace reached
  have run : exec (.samplerFire k) s = .next (samplerFire s k) := (if_pos device).trans (if_pos enabled)
  rw [fires] at run
  have counted : counter (fireCounted (rearmed s k) n) (counterNo 0xC02F 1) = counter s (counterNo 0xC02F 1) + 1 :=
    counter_fireCounted (rearmed s k) n
  have armed : odGet (fireCounted (rearmed s k) n) (0xC040 + k.val) 6 = _ := odGet_odSet_same s (0xC040 + k.val) 6 _
  have touched : ∃ od perf, fireCounted (rearmed s k) n = { s with od := od, perf := perf } := ⟨_, _, rfl⟩
  generalize fireCounted (rearmed s k) n = u at run counted armed touched
  have levels := fun j (below : j < 4) => level_entered j (List.range 4) u (.inl (List.mem_range.2 below))
  obtain ⟨cores, frame⟩ := entered_frame (List.range 4) u
  rw [show coresInterrupted u = entered u (List.range 4) from rfl] at run
  generalize entered u (List.range 4) = v at run levels frame
  obtain ⟨od, perf, rfl⟩ := touched
  subst frame
  exact ⟨_, run, rfl, armed, counted, levels, rfl⟩

theorem unreached_waits (k : Fin 72) (s : State) (device : k.val < 8) (enabled : odGet s (0xC040 + k.val) 1 = 1)
    (before : 2 ^ 47 ≤ (samplerCounter s k.val - BitVec.ofNat 48 (odGet s (0xC040 + k.val) 6)).toNat) :
    exec (.samplerFire k) s = .next s := by
  refine (if_pos device).trans ((if_pos enabled).trans (congrArg Host.Outcome.next ?_))
  unfold samplerFire
  dsimp only
  rw [captured_before before]

/-! ### Host samplers (R475, R477, R478) -/

/-- R475: a period that a host sampler takes. -/
def validPeriod (lo : BitVec 32) (hi : BitVec 16) : Bool :=
  decide (1024 ≤ hi.toNat * 2 ^ 32 + lo.toNat) && decide (hi.toNat * 2 ^ 32 + lo.toNat ≤ 2 ^ 47)

theorem validPeriod_iff (lo : BitVec 32) (hi : BitVec 16) : validPeriod lo hi = true ↔
    1024 ≤ hi.toNat * 2 ^ 32 + lo.toNat ∧ hi.toNat * 2 ^ 32 + lo.toNat ≤ 2 ^ 47 :=
  Bool.and_eq_true_iff.trans (and_congr decide_eq_true_iff decide_eq_true_iff)

/-- The sampler that a host's write leaves. -/
def hostWritten (s : State) (v : Nat) (x e : Fin 128) (lo : BitVec 32) (hi : BitVec 16) : HostSampler :=
  { enable := validPeriod lo hi, vector := x, event := e, periodLow := lo.toNat, periodHigh := hi.toNat
    threshold := if validPeriod lo hi then (tabGet 0 (v * 128 + e.val) s.perf.vcs + BitVec.ofNat 48 (hi.toNat * 2 ^ 32 + lo.toNat)).toNat
      else (hostSampler s v).threshold }

theorem hostSamplerEnable_run (v : Fin 64) (x e : Fin 128) (lo : BitVec 32) (hi : BitVec 16) (s : State) :
    exec (.hostSamplerEnable v true x e lo hi) s = .next { s with perf := { s.perf with
      host := tabSet hostSamplerReset v.val (hostWritten s v.val x e lo hi) s.perf.host } } := by
  show execHostSamplerEnable v true x e lo hi s = _
  unfold execHostSamplerEnable hostWritten validPeriod
  dsimp only
  rw [Bool.true_and]

theorem host_enabled (v : Fin 64) (x e : Fin 128) (lo : BitVec 32) (hi : BitVec 16) (s : State) :
    let p := hi.toNat * 2 ^ 32 + lo.toNat
    ∃ t : State, exec (.hostSamplerEnable v true x e lo hi) s = .next t ∧
      ((hostSampler t v.val).enable = true ↔ 1024 ≤ p ∧ p ≤ 2 ^ 47) ∧ (hostSampler t v.val).vector = x.val ∧
      (1024 ≤ p → p ≤ 2 ^ 47 → (hostSampler t v.val).threshold =
        (tabGet 0 (v.val * 128 + e.val) s.perf.vcs + BitVec.ofNat 48 p).toNat) ∧
      (∀ w : Nat, w ≠ v.val → hostSampler t w = hostSampler s w) ∧ t = { s with perf := { s.perf with host := t.perf.host } } := by
  intro p
  have own : ∀ h, tabGet hostSamplerReset v.val (tabSet hostSamplerReset v.val h s.perf.host) = h := fun h => tabGet_set_same ..
  refine ⟨_, hostSamplerEnable_run v x e lo hi s, ?_, ?_, fun low high => ?_, fun w other => tabGet_set_other other .., rfl⟩
  all_goals
    unfold hostSampler
    rw [own]
  · exact validPeriod_iff lo hi
  · rfl
  · exact if_pos ((validPeriod_iff lo hi).2 ⟨low, high⟩)

/-- A write of the trace ring changes the ring, its entries, its budget and the counters alone. -/
theorem traceSpecial_frame (s : State) (tap data vcs : Nat) (skid : Bool) (header : BitVec 128) :
    ∃ od pow cnt swc, (traceSpecial s tap data vcs skid header).1 =
      { s with od := od, pow := pow, swc := swc, perf := { s.perf with cnt := cnt } } := by
  unfold traceSpecial
  split
  · unfold traceWrite
    dsimp only
    split
    · exact ⟨_, _, _, _, rfl⟩
    · split
      · exact ⟨_, _, _, _, rfl⟩
      · next spent =>
        obtain ⟨_, rfl⟩ := spend_frame spent
        exact ⟨_, _, _, _, rfl⟩
  · exact ⟨_, _, _, _, rfl⟩

/-- The sampler of VCS `v`'s host is armed one period further. -/
def hostRearmed (s : State) (v : Nat) : State :=
  { s with perf := { s.perf with host := tabSet hostSamplerReset v { hostSampler s v with
    threshold := (BitVec.ofNat 48 (hostSampler s v).threshold + BitVec.ofNat 48 (hostSampler s v).period).toNat } s.perf.host } }

theorem hostSamplerFire_reached {s : State} {v : Nat} (reached : (tabGet 0 (v * 128 + (hostSampler s v).event) s.perf.vcs -
      BitVec.ofNat 48 (hostSampler s v).threshold).toNat < 2 ^ 47) : ∃ n d skid header, hostSamplerFire s v =
    (traceSpecial (emit (drawn (drawn (fireCounted (hostRearmed s v) n))) (.msixPool v (hostSampler s v).vector)) 0x10 d v skid header).1 := by
  unfold hostSamplerFire
  dsimp only
  rw [captured_reached reached]
  exact ⟨_, _, _, _, rfl⟩

theorem host_fires (k : Fin 72) (s : State) (host : 8 ≤ k.val) (enabled : (hostSampler s (k.val - 8)).enable = true)
    (reached : (tabGet 0 ((k.val - 8) * 128 + (hostSampler s (k.val - 8)).event) s.perf.vcs -
      BitVec.ofNat 48 (hostSampler s (k.val - 8)).threshold).toNat < 2 ^ 47) :
    ∃ t : State, exec (.samplerFire k) s = .next t ∧ t.out = s.out ++ [Out.msixPool (k.val - 8) (hostSampler s (k.val - 8)).vector] ∧
      (hostSampler t (k.val - 8)).threshold = (BitVec.ofNat 48 (hostSampler s (k.val - 8)).threshold +
        BitVec.ofNat 48 (hostSampler s (k.val - 8)).period).toNat ∧ t.fresh = s.fresh + 2 ∧ t.mgmt = s.mgmt ∧ t.mov = s.mov ∧
      t.home = s.home := by
  obtain ⟨n, d, skid, header, fires⟩ := hostSamplerFire_reached reached
  have run : exec (.samplerFire k) s = .next (hostSamplerFire s (k.val - 8)) := (if_neg (Nat.not_lt.2 host)).trans (if_pos enabled)
  obtain ⟨_, _, _, _, frame⟩ := traceSpecial_frame (emit (drawn (drawn (fireCounted (hostRearmed s (k.val - 8)) n)))
    (.msixPool (k.val - 8) (hostSampler s (k.val - 8)).vector)) 0x10 d (k.val - 8) skid header
  rw [fires, frame] at run
  obtain ⟨cnt, counted⟩ := fireCounted_frame (hostRearmed s (k.val - 8)) n
  rw [counted] at run
  exact ⟨_, run, rfl, congrArg HostSampler.threshold (tabGet_set_same ..), rfl, rfl, rfl, rfl⟩

/-! ### Device time (R479, R480) -/

/-- The measurement of an offset, shown. -/
def measuredOffset (s : State) (off : Int) (gm : BitVec 64) : State :=
  odSet (odSet { s with time := { s.time with grandmaster := gm, lossReported := false } } 0xC050 7 (BitVec.ofInt 64 off).toNat) 0xC050 6 1

theorem timeOffset_eq (s : State) (off : Int) (gm : BitVec 64) : timeOffset s off gm =
    let t := measuredOffset s off gm
    if odGet s 0xC050 6 = 0 then timeStep t off
    else if off.natAbs ≤ odGet s 0xC050 4 then { t with time := { t.time with slewLeft := off } }
    else notify (timeStep t off) 0xC050 7 (odGet t 0xC050 7) 0 := rfl

theorem counter_timeStep (s : State) (off : Int) :
    counter (timeStep s off) (counterNo 0xC02F 7) = counter s (counterNo 0xC02F 7) + 1 :=
  counter_bump_same { s with time := _ } (counterNo 0xC02F 7) 1

theorem offset_measured (off : Int) (gm : BitVec 64) (s : State) (port : odGet s 0xC050 1 ≠ 0xFF) :
    ∃ t : State, exec (.timeOffsetMeasured off gm) s = .next t ∧ odGet t 0xC050 6 = 1 ∧ t.time.grandmaster = gm ∧
      t.time.clock = s.time.clock ∧
      (odGet s 0xC050 6 = 0 ∨ odGet s 0xC050 4 < off.natAbs →
        t.time.devTime = s.time.devTime + BitVec.ofInt 64 off ∧ t.time.slewLeft = 0 ∧
        counter t (counterNo 0xC02F 7) = counter s (counterNo 0xC02F 7) + 1) ∧
      (odGet s 0xC050 6 ≠ 0 → off.natAbs ≤ odGet s 0xC050 4 → t.time.devTime = s.time.devTime ∧ t.time.slewLeft = off) ∧
      t = { s with time := t.time, od := t.od, spr := t.spr, perf := t.perf } := by
  have run : exec (.timeOffsetMeasured off gm) s = .next (timeOffset s off gm) := if_neg port
  rw [timeOffset_eq] at run
  have shown : odGet (measuredOffset s off gm) 0xC050 6 = 1 := odGet_odSet_same ..
  have touched : ∃ od, measuredOffset s off gm =
    { s with time := { s.time with grandmaster := gm, lossReported := false }, od := od } := ⟨_, rfl⟩
  generalize measuredOffset s off gm = t at run shown touched
  dsimp only at run
  have stepped := counter_timeStep t off
  obtain ⟨od, rfl⟩ := touched
  by_cases first : odGet s 0xC050 6 = 0
  · rw [if_pos first] at run
    exact ⟨_, run, shown, rfl, rfl, fun _ => ⟨rfl, rfl, stepped⟩, fun again => absurd first again, rfl⟩
  rw [if_neg first] at run
  by_cases small : off.natAbs ≤ odGet s 0xC050 4
  · rw [if_pos small] at run
    exact ⟨_, run, shown, rfl, rfl, fun large => absurd large (not_or.2 ⟨first, Nat.not_lt.2 small⟩), fun _ _ => ⟨rfl, rfl⟩, rfl⟩
  · rw [if_neg small] at run
    exact ⟨_, run, (odGet_notify ..).trans shown, rfl, rfl, fun _ => ⟨rfl, rfl, (counter_notify _ _ _ _ _ (by decide)).trans stepped⟩,
      fun _ fits => absurd fits small, rfl⟩

theorem shown_holdover (s : State) :
    odGet { odSet s 0xC050 6 2 with time := { (odSet s 0xC050 6 2).time with lossReported := false } } 0xC050 6 = 2 :=
  odGet_odSet_same s 0xC050 6 2

/-- R480: the details of F452: the time port and the last offset. -/
def holdoverDetail (s : State) : Nat := odGet s 0xC050 1 % 4 * 2 ^ 40 + odGet s 0xC050 7 % 2 ^ 32

/-- The end of the holdover's limit, counted and remembered. -/
def limitReported (s : State) : State := bumpC { s with time := { s.time with lossReported := true } } 0xC02F 8

theorem limit_reported (s : State) (holding : odGet s 0xC050 6 = 2) (once : s.time.lossReported = false) :
    ∃ t : State, exec .holdoverLimit s = .next t ∧ t.time.lossReported = true ∧ (tabFind? 452 t.flt.pairs).isSome = true ∧
      counter t (counterNo 0xC02F 8) = counter s (counterNo 0xC02F 8) + 1 ∧
      t = { s with time := { s.time with lossReported := true }, flt := t.flt, perf := t.perf } := by
  have run : exec .holdoverLimit s = .next (limitReported (raiseFault s 452 1 (holdoverDetail s))) := if_pos ⟨holding, once⟩
  have raised : (tabFind? 452 (raiseFault s 452 1 (holdoverDetail s)).flt.pairs).isSome = true := raiseReport_some s 452 _
  have frame := raiseFault_frame s 452 1 (holdoverDetail s)
  generalize raiseFault s 452 1 (holdoverDetail s) = u at run raised frame
  have counted : counter (limitReported u) (counterNo 0xC02F 8) = counter u (counterNo 0xC02F 8) + 1 :=
    counter_bump_same { u with time := _ } (counterNo 0xC02F 8) 1
  obtain ⟨perf, touched⟩ : ∃ perf, limitReported u = { u with time := { u.time with lossReported := true }, perf := perf } := ⟨_, rfl⟩
  rw [touched] at run counted
  refine ⟨_, run, rfl, raised, ?_, ?_⟩
  · rw [counted, frame]
    rfl
  · rw [frame]

/-! ### Timestamp inputs (R481, R482) -/

/-- Input `i` once an edge has come. -/
def edgeState (s : State) (i : Nat) (rising : Bool) : TsiState :=
  let t := tsi s i
  if 64 ≤ t.queue.length then { t with edges := t.edges + 1, lost := true }
  else
    { queue := t.queue ++ [{ time := s.time.devTime, count := BitVec.ofNat 32 (t.edges + 1), lostBefore := t.lost,
                             undisciplined := undisciplined s, rising := rising }]
      edges := t.edges + 1, lost := false }

theorem bump_cnt (s : State) (n k : Nat) : ∃ cnt, bump s n k = { s with perf := { s.perf with cnt := cnt } } := ⟨_, rfl⟩

theorem captureEdge_frame (s : State) (i : Nat) (b : Bool) : ∃ cnt, captureEdge s i b =
    { s with perf := { s.perf with cnt := cnt, tsi := tabSet tsiReset i (edgeState s i b) s.perf.tsi } } := by
  obtain ⟨_, inputs⟩ := bump_cnt s (counterNo 0xC02F 3) 1
  obtain ⟨_, came⟩ := bump_cnt (bumpC s 0xC02F 3) (1472 + i) 1
  unfold captureEdge edgeState
  dsimp only
  rw [came, show bumpC s 0xC02F 3 = _ from inputs]
  split
  · obtain ⟨_, losses⟩ := bump_cnt (setTsi { s with perf := _ } i _) (counterNo 0xC02F 4) 1
    obtain ⟨_, lost⟩ := bump_cnt (bumpC (setTsi _ i _) 0xC02F 4) (1488 + i) 1
    rw [lost, show bumpC _ 0xC02F 4 = _ from losses]
    exact ⟨_, rfl⟩
  · exact ⟨_, rfl⟩

theorem tsi_captureEdge_same (s : State) (i : Nat) (b : Bool) : tsi (captureEdge s i b) i = edgeState s i b := by
  obtain ⟨_, frame⟩ := captureEdge_frame s i b
  rw [frame]
  exact tabGet_set_same ..

theorem tsi_captureEdge_other (s : State) {i j : Nat} (b : Bool) (other : j ≠ i) : tsi (captureEdge s i b) j = tsi s j := by
  obtain ⟨_, frame⟩ := captureEdge_frame s i b
  rw [frame]
  exact tabGet_set_other other ..

theorem edge_captured (i : Fin 8) (b : Bool) (s : State) (enabled : odGet s (0xC060 + i.val) 1 = 1)
    (selected : edgeSelected (odGet s (0xC060 + i.val) 2) b = true) :
    ∃ u : State, exec (.tsiEdge i b) s = .next (inputDoorbell (traceSpecial u 0x11 i.val 0xFF false 0).1 i.val) ∧
      (tsi u i.val).edges = (tsi s i.val).edges + 1 ∧
      ((tsi s i.val).queue.length < 64 → (tsi u i.val).lost = false ∧ ∃ r : EdgeRec, (tsi u i.val).queue = (tsi s i.val).queue ++ [r] ∧
        r.time = s.time.devTime ∧ r.rising = b ∧ r.lostBefore = (tsi s i.val).lost) ∧
      (64 ≤ (tsi s i.val).queue.length → (tsi u i.val).lost = true ∧ (tsi u i.val).queue = (tsi s i.val).queue) ∧
      (∀ j : Nat, j ≠ i.val → tsi u j = tsi s j) ∧ u = { s with perf := u.perf } := by
  have run : exec (.tsiEdge i b) s = .next (inputDoorbell (traceSpecial (captureEdge s i b) 0x11 i.val 0xFF false 0).1 i.val) :=
    if_pos ⟨enabled, selected⟩
  have others := fun j (other : j ≠ i.val) => tsi_captureEdge_other s b other
  refine ⟨_, run, ?_, fun room => ?_, fun full => ?_, others, ?_⟩
  case refine_4 =>
    obtain ⟨_, frame⟩ := captureEdge_frame s i.val b
    rw [frame]
  all_goals
    rw [tsi_captureEdge_same]
    unfold edgeState
    dsimp only
  · split
    · rfl
    · rfl
  · rw [if_neg (Nat.not_le.2 room)]
    exact ⟨rfl, _, rfl, rfl, rfl, rfl⟩
  · rw [if_pos full]
    exact ⟨rfl, rfl⟩

/-- Settles O56, command by command. -/
theorem samplersAndDeviceTime : Obligations.SamplersAndDeviceTime :=
  ⟨fun _ => ⟨_, rfl, rfl, rfl, odGet_odSet_same .., rfl, rfl⟩, sampler_enabled, host_enabled, interrupting_fires, host_fires,
   unreached_waits, offset_measured,
   fun _ locked => ⟨_, congrArg Host.Outcome.next (if_pos locked), shown_holdover _, rfl, rfl⟩, limit_reported, edge_captured,
   fun _ _ _ enabled short => ⟨_, if_pos ⟨enabled, short⟩, counter_bump_same .., rfl⟩,
   fun _ _ _ => ⟨_, rfl, congrArg TsiState.queue (tabGet_set_same ..), rfl, fun _ other => tabGet_set_other other .., rfl⟩⟩

end Sys2Proof.Proofs.Samplers

/-!
The steps of start-up and the reset pin (R337, R340, R341, R446, R494, R495).
-/

namespace Sys2Proof.Proofs.Startup

open Sys2Proof Sys2Proof.Machine Sys2Proof.Laws Sys2Proof.Proofs.Shared Sys2Proof.Proofs.QuietFrames Sys2Proof.Proofs.FaultHandling

/-! ### A step that completes (R340) -/

theorem startupReached_tail (s : State) (n : Nat) : ∃ times log k, startupReached s n =
    { s with pow := { s.pow with step := n, stepTimes := times }, flt := { s.flt with log := log, nextSeq := k } } := by
  obtain ⟨log, k, frame⟩ := logAppend_tail
    { s with pow := { s.pow with step := n, stepTimes := tabSet 0 n s.time.devTime s.pow.stepTimes } } 0xFFFF 0x0020 0 false 0
    (BitVec.ofNat 192 n)
  exact ⟨_, log, k, frame⟩

/-- What the completion of the step after step `n` makes of a device that starts up. -/
def startupNext (f : StartupFind) (s : State) : Nat → State
  | 1 => if s.pins.resetN then startBoot s f else s
  | 2 => startDictionary s f
  | 3 => if mainMayStart s then startMain s else s
  | 4 => startSelfTest s f
  | 5 => startMemory s f
  | 6 => startDirectory s
  | 7 => startLinks s
  | 8 => startReady s
  | _ => s

section
variable {s : State} (good : s.pow.vauxGood = true) (running : s.pow.stopped = false) (released : s.pins.inReset = false)
include good running released

theorem startup_run (f : StartupFind) {n : Nat} (reached : s.pow.step = n) :
    exec (.startupStepComplete f) s = .next (startupNext f s n) := by
  have starts : ¬ (!s.pow.vauxGood || s.pow.stopped || s.pins.inReset) = true := by rw [good, running, released]; decide
  refine (if_neg starts).trans ?_
  rw [reached]
  match n with
  | 1 => exact (apply_ite Host.Outcome.next _ _ _).symm
  | 3 => exact (apply_ite Host.Outcome.next _ _ _).symm
  | 0 => rfl
  | 2 => rfl
  | 4 => rfl
  | 5 => rfl
  | 6 => rfl
  | 7 => rfl
  | 8 => rfl
  | _ + 9 => rfl

end

/-! ### Step 2: secure boot (R446) -/

theorem bootKind_first (s : State) (a : Bool) : ∃ run pairs, bootKind s 1 a =
    { s with sec := { s.sec with running := run, runSecB := a }, flt := { s.flt with pairs := pairs } } := by
  unfold bootKind
  dsimp only
  by_cases asked : s.sec.bootSec = a
  · exact ⟨_, s.flt.pairs, (if_pos asked).trans rfl⟩
  · exact ⟨_, _, (if_neg asked).trans (raiseFault_frame _ 451 1 _)⟩

theorem bootKind_second (s : State) (b : Bool) : ∃ run pairs, bootKind s 2 b =
    { s with sec := { s.sec with running := run, runMgmtB := b }, flt := { s.flt with pairs := pairs } } := by
  unfold bootKind
  dsimp only
  by_cases asked : s.sec.bootMgmt = b
  · exact ⟨_, s.flt.pairs, (if_pos asked).trans rfl⟩
  · exact ⟨_, _, (if_neg asked).trans (raiseFault_frame _ 451 1 _)⟩

/-- Step 2 is reached with the two images running. -/
def booted (s : State) : State :=
  drawn { s with sec := { s.sec with selfTests := true, nonce := freshVal s }, mgmt := { s.mgmt with sram := [] } }

theorem startBoot_boots {s : State} {f : StartupFind} {a b : Bool} (first : bootBank s 1 = some a) (second : bootBank s 2 = some b)
    (pass : f.selfTestsPass = true) : startBoot s f = startupReached (booted (bootKind (bootKind s 1 a) 2 b)) 2 := by
  unfold startBoot
  rw [first, second]
  exact if_pos pass

theorem startBoot_fails {s : State} {f : StartupFind}
    (fails : bootBank s 1 = none ∨ bootBank s 2 = none ∨ f.selfTestsPass = false) : startBoot s f = bootFails s := by
  unfold startBoot
  split
  · next first second =>
    rcases fails with none' | none' | fail
    · rw [none'] at first; cases first
    · rw [none'] at second; cases second
    · exact if_neg (by rw [fail]; decide)
  · rfl

/-! ### Step 3: the stored image (R341, R351) -/

theorem reservoirMeasured_frame (s : State) (uf : Nat) :
    ∃ flt, reservoirMeasured s uf = { s with pow := { s.pow with capUf := uf }, flt := flt } := by
  unfold reservoirMeasured
  dsimp only
  split
  · exact ⟨_, raiseFault_frame _ 442 0 (uf % 2 ^ 16)⟩
  · exact ⟨_, rfl⟩

/-- A state that starting slot channels leaves. -/
def ChannelsStarted (s t : State) : Prop := ∃ od slots, t = { s with od := od, pow := { s.pow with slots := slots } }

theorem slotEnable_started (s : State) (c : Nat) : ChannelsStarted s (slotEnable s c true) := by
  unfold slotEnable
  dsimp only
  rw [if_pos rfl]
  split
  · exact ⟨_, _, rfl⟩
  · exact ⟨_, s.pow.slots, rfl⟩

theorem slotsStart_started (s : State) : ChannelsStarted s (slotsStart s) := by
  unfold slotsStart
  refine List.foldlRecOn _ _ (motive := ChannelsStarted s) ⟨s.od, s.pow.slots, rfl⟩ fun t started c _ => ?_
  split
  · obtain ⟨_, _, enabled⟩ := slotEnable_started t c
    obtain ⟨_, _, rfl⟩ := started
    exact ⟨_, _, enabled⟩
  · exact started

theorem startDictionary_leaves (s : State) (f : StartupFind) : (startDictionary s f).pow.step = 3 ∧
    (startDictionary s f).spr.serving = true ∧ (startDictionary s f).pow.capUf = f.capUf := by
  unfold startDictionary
  extract_lets im loaded u
  obtain ⟨_, measured⟩ := reservoirMeasured_frame (imageCheck (nameAll loaded)) f.capUf
  have capacity : u.pow.capUf = f.capUf := congrArg (fun t : State => t.pow.capUf) measured
  clear_value u
  obtain ⟨_, _, started⟩ := slotsStart_started { u with spr := { u.spr with serving := true } }
  rw [started]
  obtain ⟨_, _, _, reached⟩ := startupReached_tail
    { u with od := _, spr := { u.spr with serving := true }, pow := { u.pow with slots := _ } } 3
  rw [reached]
  exact ⟨rfl, rfl, capacity⟩

/-! ### Step 4: the main domain (R338, R362) -/

/-- The main domain's power and what its last state was are as in `s`. -/
def PowerKept (s t : State) : Prop := t.pow = s.pow ∧ t.last = s.last

namespace PowerKept

theorem refl (s : State) : PowerKept s s := ⟨rfl, rfl⟩

theorem trans {s t u : State} (first : PowerKept s t) (second : PowerKept t u) : PowerKept s u :=
  ⟨second.1.trans first.1, second.2.trans first.2⟩

theorem foldl {α : Type} {f : State → α → State} (step : ∀ t a, PowerKept t (f t a)) (l : List α) (s : State) :
    PowerKept s (l.foldl f s) :=
  List.foldlRecOn l f (motive := PowerKept s) (refl s) fun t kept a _ => kept.trans (step t a)

theorem odSet (s : State) (i j v : Nat) : PowerKept s (odSet s i j v) := ⟨rfl, rfl⟩

theorem showAbsorbed (s : State) (k : Nat) : PowerKept s (showAbsorbed s k) := by
  unfold Machine.showAbsorbed
  refine foldl (fun t i => ?_) _ s
  dsimp only
  split
  · exact ⟨rfl, rfl⟩
  · split
    · exact ⟨rfl, rfl⟩
    · exact refl t

theorem statesStart (s : State) : PowerKept s (statesStart s) := by
  have island := fun (t : State) (k : Nat) =>
    (odSet t 0x3032 (k + 1) (if odGet t 0x3031 (k + 1) = 1 ∨ t.flt.isoIslands.contains k then 2 else 0)).trans (showAbsorbed _ k)
  unfold Machine.statesStart
  generalize List.range 16 = ks
  generalize List.range 64 = vs
  have islands := foldl island ks s
  have switches := fun u => foldl (fun t v => odSet t (0x2200 + v) 3 (if odGet t (0x2200 + v) 1 = 1 then 1 else 0)) vs u
  have links := fun u => foldl (fun t a => odSet t (aulIdx a) 0x10 (if odGet t (aulIdx a) 1 = 1 then linkDown else linkDisabled)) ks u
  have all := (islands.trans (switches _)).trans (links _)
  exact ⟨all.1, all.2⟩

theorem stagesStart (s : State) : PowerKept s (stagesStart s) := by
  unfold Machine.stagesStart
  exact foldl (fun t i => odSet t 0x5033 (i + 1) (odGet t 0x5030 3)) _ s

theorem applyLimits (s : State) (d : Nat) : PowerKept s (applyLimits s d) := by
  unfold Machine.applyLimits
  refine trans (foldl (fun t q => ?_) _ s) ⟨rfl, rfl⟩
  split
  · exact ⟨rfl, rfl⟩
  · exact refl t

theorem raiseLimits (s : State) (d : Nat) : PowerKept s (raiseLimits s d) := by
  unfold Machine.raiseLimits
  split
  · exact refl s
  · split
    · next up _ _ =>
      have raised := foldl (f := fun t (q : Nat × Nat) => setActive t (q.1 / 16) (q.1 % 16) q.2) (fun _ _ => ⟨rfl, rfl⟩) up s
      dsimp only
      split
      · exact raised.trans ⟨rfl, rfl⟩
      · exact raised.trans ⟨rfl, rfl⟩
    · exact refl s

theorem bufferCommit (s : State) : PowerKept s (bufferCommit s).1 := by
  unfold Machine.bufferCommit
  split
  · exact odSet s 0x3010 2 5
  · split
    · exact ((odSet s 0x3010 2 3).trans (odSet _ 0x3010 3 _)).trans (odSet _ 0x3010 4 _)
    · split
      · exact (odSet s 0x3010 2 4).trans (odSet _ 0x3010 4 _)
      · exact (odSet s 0x3010 2 1).trans (foldl applyLimits _ _)

theorem limitsStart (s : State) : PowerKept s (limitsStart s) := by
  have committed := bufferCommit s
  unfold Machine.limitsStart
  split
  · next result =>
    rw [result] at committed
    exact committed.trans (foldl raiseLimits _ _)
  · next result =>
    rw [result] at committed
    rw [raiseFault_frame]
    exact committed

theorem trainPort (s : State) (p : Nat) : PowerKept s (trainPort s p) := by
  unfold Machine.trainPort
  split
  · exact refl s
  · split
    · split
      · exact ⟨rfl, rfl⟩
      · exact refl s
    · split
      · exact ⟨rfl, rfl⟩
      · exact refl s

theorem perstAtStart (s : State) (p : Nat) : PowerKept s (perstAtStart s p) := by
  unfold Machine.perstAtStart
  split
  · exact ⟨rfl, rfl⟩
  · exact refl s

theorem tryTraining (s : State) (a : Nat) : PowerKept s (tryTraining s a) := by
  unfold Machine.tryTraining
  split
  · exact ⟨rfl, rfl⟩
  · exact ⟨rfl, rfl⟩

theorem trainAll (s : State) : PowerKept s (trainAll s) := by
  unfold Machine.trainAll
  refine trans (foldl (fun t p => (perstAtStart t p).trans (trainPort _ p)) _ s) (foldl (fun t a => ?_) _ _)
  split
  · exact tryTraining t a
  · exact refl t

end PowerKept

/-- The state in which the main domain's own entries and tables start. -/
def mainPowered (s : State) : State :=
  let s1 := { s with
    od := s.od.filter (fun p => !mainEntry p.1)
    mov := movReset
    last := none
    pow := { s.pow with mainOn := true, restarting := false, gov := { govReset with epochs := some 0 }
                        sensors := s.pow.sensors.filter fun p => decide (p.1 = 57) } }
  countersRestart { s1 with prox := { s1.prox with seed := ownSwitch s1 } }

theorem startMain_eq (s : State) : startMain s = startupReached (limitsStart (stagesStart (statesStart (mainPowered s)))) 4 := rfl

theorem mainPowered_leaves (s : State) : (mainPowered s).pow.mainOn = true ∧ (mainPowered s).last = none ∧
    (mainPowered s).pow.gov.epochs = some 0 := ⟨rfl, rfl, rfl⟩

theorem startMain_leaves (s : State) : (startMain s).pow.step = 4 ∧ (startMain s).pow.mainOn = true ∧ (startMain s).last = none ∧
    (startMain s).pow.gov.epochs = some 0 := by
  obtain ⟨on, last, epochs⟩ := mainPowered_leaves s
  obtain ⟨pow, kept⟩ := ((PowerKept.statesStart (mainPowered s)).trans (PowerKept.stagesStart _)).trans (PowerKept.limitsStart _)
  rw [startMain_eq]
  generalize limitsStart (stagesStart (statesStart (mainPowered s))) = t at pow kept
  obtain ⟨_, _, _, reached⟩ := startupReached_tail t 4
  rw [reached]
  exact ⟨rfl, (congrArg PowState.mainOn pow).trans on, kept.trans last, (congrArg (fun p : PowState => p.gov.epochs) pow).trans epochs⟩

/-! ### Steps 5 to 9 (R340, R341) -/

theorem startSelfTest_step (s : State) {f : StartupFind} (sound : f.defects = []) : (startSelfTest s f).pow.step = 5 := by
  unfold startSelfTest
  dsimp only
  rw [sound]
  generalize [].foldl selfTestDefect (culletApply s) = r
  obtain ⟨_, _, _, reached⟩ := startupReached_tail r.1 5
  rw [reached]
  split
  · rfl
  · rfl

theorem startMemory_leaves (s : State) (f : StartupFind) (running : s.pow.stopped = false) : (startMemory s f).pow.step = 6 ∧
    (f.channel = none → (startMemory s f).pow.stopped = false) ∧
    (∀ c : Fin 16, f.channel = some c → (startMemory s f).pow.stopped = true ∧
      (tabFind? 441 (startMemory s f).flt.pairs).isSome = true) ∧
    startMemory s f = { s with flt := (startMemory s f).flt, pow := (startMemory s f).pow } := by
  obtain ⟨_, _, _, reached⟩ := startupReached_tail s 6
  unfold startMemory
  dsimp only
  rw [reached]
  split
  · next c failed =>
    have raised := fun t : State => raiseReport_some t 441
      { injected := false, rail := false, cause := BitVec.ofNat 8 0, detail := BitVec.ofNat 48 c.val, data := 0 }
    rw [raiseFault_frame]
    exact ⟨rfl, fun trained => absurd (failed.symm.trans trained) (by simp), fun _ _ => ⟨rfl, raised _⟩, rfl⟩
  · next trained =>
    exact ⟨rfl, fun _ => running, fun c failed => absurd (trained.symm.trans failed) (by simp), rfl⟩

/-- A state that showing and setting ranges in RECOVERY leaves. -/
def RangesStarted (s t : State) : Prop := t.dir.sf = s.dir.sf ∧ t.dir.cache = s.dir.cache ∧ t.map = s.map

theorem startRange_started (s : State) (i base limit : Nat) (vcs : BitVec 64) (sw : List Nat) :
    RangesStarted s (startRange s i base limit vcs sw) := ⟨rfl, rfl, rfl⟩

theorem startRecovery_started (s : State) : RangesStarted s (startRecovery s) := by
  unfold startRecovery
  dsimp only
  split
  · exact startRange_started { s with dir := { s.dir with implicitRange := true } } ..
  · refine List.foldlRecOn _ _ (motive := RangesStarted s) ⟨rfl, rfl, rfl⟩ fun t started i _ => ?_
    obtain ⟨sf, cache, map⟩ := started
    obtain ⟨sf', cache', map'⟩ := startRange_started t i (loadedEntry t (0x4030 + i) 2) (loadedEntry t (0x4030 + i) 3)
      (storedVcs t (BitVec.ofNat 64 (loadedEntry t (0x4030 + i) 4))) (if loadedEntry t (0x4030 + i) 5 = 1 then storedMembers t else [])
    exact ⟨sf'.trans sf, cache'.trans cache, map'.trans map⟩

/-- The snoop filter, the directory caches and the remap backing start empty. -/
def directoryCleared (s : State) : State :=
  { s with dir := { s.dir with sf := [], cache := [] }, map := { s.map with backing := [] } }

theorem startDirectory_eq (s : State) : startDirectory s = startupReached (startRecovery (directoryCleared s)) 7 := rfl

theorem startDirectory_leaves (s : State) : (startDirectory s).pow.step = 7 ∧ (startDirectory s).dir.sf = [] ∧
    (startDirectory s).dir.cache = [] ∧ (startDirectory s).map.backing = [] := by
  obtain ⟨sf, cache, map⟩ := startRecovery_started (directoryCleared s)
  rw [startDirectory_eq]
  obtain ⟨_, _, _, reached⟩ := startupReached_tail (startRecovery (directoryCleared s)) 7
  rw [reached]
  exact ⟨rfl, sf, cache, congrArg MapState.backing map⟩

theorem startLinks_step (s : State) : (startLinks s).pow.step = 8 := by
  unfold startLinks
  obtain ⟨_, _, _, reached⟩ := startupReached_tail (drawEpochs s) 8
  rw [(PowerKept.trainAll _).1, reached]

theorem startReady_leaves (s : State) : (startReady s).pow.step = 9 ∧ (startReady s).pins.ready = true ∧ startReady s =
    { s with spr := (startReady s).spr, flt := (startReady s).flt, pow := (startReady s).pow, perf := (startReady s).perf,
             pins := { s.pins with ready := true } } := by
  unfold startReady
  obtain ⟨_, _, _, reached⟩ := startupReached_tail s 9
  rw [reached]
  exact ⟨rfl, rfl, rfl⟩

/-! ### The reset pin (R494, R495) -/

theorem resetStep4_off {s : State} (off : s.pow.mainOn = false) : resetStep4 s = s := by
  unfold resetStep4
  split
  · exact if_neg (by rw [off]; decide)
  · rfl

theorem resetN_falls (s : State) (good : s.pow.vauxGood = true) (released : s.pins.inReset = false) (off : s.pow.mainOn = false) :
    exec .resetNFall s = .next (heldInReset { s with pins := { s.pins with resetN := false } }) := by
  refine (if_pos good).trans (congrArg Host.Outcome.next ?_)
  exact (if_neg (by show ¬ s.pins.inReset = true; rw [released]; decide)).trans
    (resetStep4_off (s := heldInReset { s with pins := { s.pins with resetN := false } }) off)

/-- RESET_N is high. -/
def resetHigh (s : State) : State := { s with pins := { s.pins with resetN := true } }

theorem restart_leaves (s : State) : (restart s).pow.step = 1 ∧ (restart s).pins.inReset = false ∧
    (restart s).pins.resetN = s.pins.resetN ∧
    (restart s).flt.safe = false ∧ (restart s).flt.crash = s.flt.crash ∧ (restart s).mgmt = State.reset.mgmt ∧
    (restart s).spr.slot0 = s.spr.slot0 ∧ (restart s).spr.slot1 = s.spr.slot1 ∧ (restart s).sec.counters = s.sec.counters ∧
    (restart s).sec.revoked = s.sec.revoked ∧ (restart s).sec.banks = s.sec.banks ∧
    (restart s).sec.cert = s.sec.certNext.getD s.sec.cert ∧ (restart s).sec.healthFailed = false ∧ (restart s).perf.cnt = s.perf.cnt ∧
    (restart s).pending = s.pending := by
  unfold restart
  obtain ⟨_, _, _, reached⟩ := startupReached_tail (resetState s) 1
  rw [reached]
  exact ⟨rfl, rfl, rfl, rfl, rfl, rfl, rfl, rfl, rfl, rfl, rfl, rfl, rfl, rfl, rfl⟩

theorem resetRelease_restarts {s : State} (held : s.pins.inReset = true) (good : s.pow.vauxGood = true) (idle : mramBusy s = false)
    (off : s.pow.mainOn = false) : exec .resetRelease s = .next (restart (resetHigh s)) := by
  refine if_pos ?_
  show (s.pins.inReset && s.pow.vauxGood && !mramBusy s && !s.pow.mainOn) = true
  rw [held, good, idle, off]
  decide

theorem resetRelease_waits {s : State} (waits : mramBusy s = true ∨ s.pow.mainOn = true) : exec .resetRelease s = .next (resetHigh s) := by
  refine if_neg ?_
  show ¬ (s.pins.inReset && s.pow.vauxGood && !mramBusy s && !s.pow.mainOn) = true
  rcases waits with busy | on
  · rw [busy]; simp
  · rw [on]; simp

theorem boot_completes (f : StartupFind) (a b : Bool) (s : State) (good : s.pow.vauxGood = true) (running : s.pow.stopped = false)
    (released : s.pins.inReset = false) (reached : s.pow.step = 1) (high : s.pins.resetN = true) (first : bootBank s 1 = some a)
    (second : bootBank s 2 = some b) (pass : f.selfTestsPass = true) :
    ∃ t : State, exec (.startupStepComplete f) s = .next t ∧ t.pow.step = 2 ∧ t.sec.selfTests = true ∧ t.sec.runSecB = a ∧
      t.sec.runMgmtB = b ∧ t.fresh = s.fresh + 1 ∧
      t = { s with flt := t.flt, pow := t.pow, mgmt := { s.mgmt with sram := [] }, sec := t.sec, fresh := t.fresh } := by
  have run := startup_run good running released f reached
  rw [show startupNext f s 1 = startBoot s f from if_pos high, startBoot_boots first second pass] at run
  obtain ⟨_, _, kindOne⟩ := bootKind_first s a
  obtain ⟨_, _, kindTwo⟩ := bootKind_second (bootKind s 1 a) b
  obtain ⟨_, _, _, tail⟩ := startupReached_tail (booted (bootKind (bootKind s 1 a) 2 b)) 2
  rw [tail, kindTwo, kindOne] at run
  exact ⟨_, run, rfl, rfl, rfl, rfl, rfl, rfl⟩

theorem boot_stops (f : StartupFind) (s : State) (good : s.pow.vauxGood = true) (running : s.pow.stopped = false)
    (released : s.pins.inReset = false) (reached : s.pow.step = 1) (high : s.pins.resetN = true)
    (fails : bootBank s 1 = none ∨ bootBank s 2 = none ∨ f.selfTestsPass = false) :
    exec (.startupStepComplete f) s = .next { s with
      sec := { s.sec with recovery := true }, pow := { s.pow with stopped := true }, pins := { s.pins with faultLow := true } } :=
  (startup_run good running released f reached).trans (congrArg Host.Outcome.next ((if_pos high).trans (startBoot_fails fails)))

/-- Settles O57, step by step: each step's own lemma says what it leaves (`startBoot_boots` to `startReady_leaves`). -/
theorem startupAndReset : Obligations.StartupAndReset := by
  refine ⟨boot_completes, boot_stops, fun f s good running released reached => ?_,
    fun f s good running released reached => ⟨fun may => ?_, fun waits => ?_⟩,
    fun f s good running released reached sound => ?_, fun f s good running released reached => ?_,
    fun f s good running released reached => ?_, fun f s good running released reached => ?_,
    fun f s good running released reached => ?_, fun s good released idle off => ?_, fun s lost => ?_, fun s held good idle off => ?_,
    fun s waits => resetRelease_waits waits⟩
  · obtain ⟨step, serving, capacity⟩ := startDictionary_leaves s f
    exact ⟨startDictionary s f, (startup_run good running released f reached :), step, serving, capacity, (startDictionary_keep s f).1⟩
  · obtain ⟨step, on, last, epochs⟩ := startMain_leaves s
    exact ⟨_, (startup_run good running released f reached).trans (congrArg Host.Outcome.next (if_pos may)), step, on, last, epochs,
      (startMain_keep s).1⟩
  · exact (startup_run good running released f reached).trans (congrArg Host.Outcome.next (if_neg (by rw [waits]; decide)))
  · exact ⟨startSelfTest s f, (startup_run good running released f reached :), startSelfTest_step s sound, (startSelfTest_keep s f).1⟩
  · exact ⟨startMemory s f, (startup_run good running released f reached :), startMemory_leaves s f running⟩
  · obtain ⟨step, sf, cache, backing⟩ := startDirectory_leaves s
    exact ⟨startDirectory s, (startup_run good running released f reached :), step, sf, cache, backing, (startDirectory_keep s).1⟩
  · exact ⟨startLinks s, (startup_run good running released f reached :), startLinks_step s, (startLinks_keep s).1⟩
  · exact ⟨startReady s, (startup_run good running released f reached :), startReady_leaves s⟩
  · exact ⟨_, resetN_falls s good released off, rfl, rfl, rfl, rfl, rfl, rfl, rfl⟩
  · exact if_neg (by rw [lost]; decide)
  · exact ⟨_, resetRelease_restarts held good idle off, restart_leaves (resetHigh s)⟩

end Sys2Proof.Proofs.Startup

/-!
Which firmware runs (R446): no operation of the model but a boot and a reset changes the images that run. One rule per operation, in the
order of the model.
-/

namespace Sys2Proof.Proofs.RunningFrames

open Sys2Proof Sys2Proof.Machine Sys2Proof.Laws Sys2Proof.Proofs.Shared

@[simp] theorem ite_running (c : Prop) [Decidable c] (a b : State) :
    (if c then a else b).sec.running = if c then a.sec.running else b.sec.running :=
  apply_ite (fun s : State => s.sec.running) c a b

@[simp] theorem ite_fst_running {α : Type} (c : Prop) [Decidable c] (a b : State × α) :
    (if c then a else b).1.sec.running = if c then a.1.sec.running else b.1.sec.running :=
  apply_ite (fun s : State × α => s.1.sec.running) c a b

@[simp] theorem foldl_running {α : Type} (f : State → α → State) (l : List α) (s : State)
    (h : ∀ s a, (f s a).sec.running = s.sec.running) : (l.foldl f s).sec.running = s.sec.running :=
  List.foldlRecOn _ _ (motive := fun t : State => t.sec.running = s.sec.running) rfl fun t ht a _ => (h t a).trans ht

@[simp] theorem foldl_fst_running {α β : Type} (f : State × β → α → State × β) (l : List α) (s : State × β)
    (h : ∀ s a, (f s a).1.sec.running = s.1.sec.running) : (l.foldl f s).1.sec.running = s.1.sec.running :=
  List.foldlRecOn _ _ (motive := fun t : State × β => t.1.sec.running = s.1.sec.running) rfl fun t ht a _ => (h t a).trans ht

theorem foldl_from_running {α : Type} (s : State) (f : State → α → State) (s0 : State) (l : List α)
    (h0 : s0.sec.running = s.sec.running) (h : ∀ s a, (f s a).sec.running = s.sec.running) :
    (l.foldl f s0).sec.running = s.sec.running := (foldl_running f l s0 h).trans h0

theorem foldl_fst_from_running {α β : Type} (s : State) (f : State × β → α → State × β) (x : State × β) (l : List α)
    (h0 : x.1.sec.running = s.sec.running) (h : ∀ x a, (f x a).1.sec.running = x.1.sec.running) :
    (l.foldl f x).1.sec.running = s.sec.running := (foldl_fst_running f l x h).trans h0

/-! ### Machine/FaultCfg -/

@[simp] theorem checkDone_running (s : State) (f : Nat) : (checkDone s f).sec.running = s.sec.running := rfl

@[simp] theorem lpddrChecked_running (s : State) (a : Nat) : (lpddrChecked s a).1.sec.running = s.sec.running := by
  simp [lpddrChecked]

@[simp] theorem lpddrUnplaced_running (s : State) : (lpddrUnplaced s).1.sec.running = s.sec.running := by simp [lpddrUnplaced]

/-! ### Machine/Tokens -/

theorem spend?_running (s : State) (k cost : Nat) (t : State) (h : spend? s k cost = some t) : t.sec.running = s.sec.running := by
  simp only [spend?, Option.map_eq_some_iff] at h
  obtain ⟨g, -, rfl⟩ := h
  rfl

/-! ### Machine/Trace -/

@[simp] theorem traceWrite_running (s : State) (mk : Nat → TraceRec) :
    (traceWrite s mk).sec.running = s.sec.running := by
  unfold traceWrite
  dsimp only
  split
  · rfl
  · split
    · rfl
    · rename_i h; simpa using spend?_running _ _ _ _ h

@[simp] theorem filterCount_running (s : State) (f : Nat) : (filterCount s f).1.sec.running = s.sec.running := rfl

@[simp] theorem traceUnit_running (s : State) (tap port data : Nat) (u : FUnit) :
    (traceUnit s tap port data u).sec.running = s.sec.running := by
  unfold traceUnit
  dsimp only
  repeat' split
  all_goals simp

@[simp] theorem traceSpecial_running (s : State) (tap : Nat) (data : Nat) (vcs : Nat) (skid : Bool) (header : BitVec 128) :
    (traceSpecial s tap data vcs skid header).1.sec.running = s.sec.running := by simp [traceSpecial]

theorem traceRecord_running (x : State × List (Option TraceRec)) (i : Nat) :
    (traceRecord x i).1.sec.running = x.1.sec.running := by
  unfold traceRecord
  dsimp only
  split <;> simp

@[simp] theorem traceRead_running (s : State) (n : Nat) :
    (traceRead s n).1.sec.running = s.sec.running := by
  have key : ∀ (l : List Nat) (r : Nat) (x : State × List (Option TraceRec)),
      (l.foldl (fun a i => traceRecord a (r + i)) x).1.sec.running = x.1.sec.running := by
    intro l r x
    exact foldl_fst_running _ _ _ fun x a => traceRecord_running x (r + a)
  unfold traceRead
  simp [key]

/-! ### Machine/Crossing -/

@[simp] theorem setXing_running (s : State) (c : Nat) (x : Crossing) : (setXing s c x).sec.running = s.sec.running := rfl

@[simp] theorem crossSend_running (s : State) (c : Nat) (h : Held) : (crossSend s c h).sec.running = s.sec.running := rfl

@[simp] theorem niPush_running (s : State) (n : Nat) (a : Nat) (h : Held) : (niPush s n a h).sec.running = s.sec.running := rfl

@[simp] theorem nextUnit_running (s : State) : (nextUnit s).sec.running = s.sec.running := rfl

@[simp] theorem sendAt_running (s : State) (n : Nat) (a : Nat) (u : FUnit) (t : Option Tlp) (hpa : Option (Nat × BitVec 46)) :
    (sendAt s n a u t hpa).sec.running = s.sec.running := by
  unfold sendAt
  split <;> simp

@[simp] theorem send_running (s : State) (u : FUnit) : (send s u).sec.running = s.sec.running := by simp [send]

@[simp] theorem sendAll_running (s : State) (us : List FUnit) : (sendAll s us).sec.running = s.sec.running := by simp [sendAll]

@[simp] theorem sendTlpBy_running (s : State) (n : Nat) (a : Nat) (t : Tlp) (src : BitVec 12) (dst : BitVec 12) (tag : BitVec 16) (f :
    FUnit → FUnit) :
    (sendTlpBy s n a t src dst tag f).sec.running = s.sec.running := by simp [sendTlpBy]

@[simp] theorem sendTlp_running (s : State) (n : Nat) (a : Nat) (t : Tlp) (src : BitVec 12) (dst : BitVec 12) (tag : BitVec 16) :
    (sendTlp s n a t src dst tag).sec.running = s.sec.running := by simp [sendTlp]

@[simp] theorem sendSynth_running (s : State) (n : Nat) (a : Nat) (t : Tlp) (src : BitVec 12) (dst : BitVec 12) (tag : BitVec 16) :
    (sendSynth s n a t src dst tag).sec.running = s.sec.running := by simp [sendSynth]

@[simp] theorem bounce_running (s : State) (n : Nat) (h : Held) : (bounce s n h).sec.running = s.sec.running := by simp [bounce]

@[simp] theorem moverWriteGone_running (s : State) (u : FUnit) : (moverWriteGone s u).sec.running = s.sec.running := by
  simp [moverWriteGone]

@[simp] theorem crossReceive_running (s : State) (c : Nat) (w : UnitBits) : (crossReceive s c w).1.sec.running = s.sec.running := by
  unfold crossReceive
  dsimp only
  split <;> simp

@[simp] theorem crossResend_running (s : State) (c : Nat) : (crossResend s c).sec.running = s.sec.running := by
  unfold crossResend
  dsimp only
  split <;> simp

/-! ### Machine/Egress -/

@[simp] theorem setEgress_running (s : State) (port : Nat) (v : Vn) (l : List EgUnit) :
    (setEgress s port v l).sec.running = s.sec.running := rfl

@[simp] theorem setIngress_running (s : State) (port : Nat) (v : Vn) (l : List InMsg) :
    (setIngress s port v l).sec.running = s.sec.running := rfl

@[simp] theorem setAulPort_running (s : State) (a : Nat) (x : AulPort) : (setAulPort s a x).sec.running = s.sec.running := rfl

@[simp] theorem linkFreed_running (s : State) (a : Nat) (l : List Held) : (linkFreed s a l).sec.running = s.sec.running :=
  foldl_running _ _ _ fun t h => by simp

@[simp] theorem setLinkQueue_running (s : State) (a : Nat) (v : Vn) (l : List Held) :
    (setLinkQueue s a v l).sec.running = s.sec.running := rfl

@[simp] theorem setActive_running (s : State) (port : Nat) (i : Nat) (v : Nat) : (setActive s port i v).sec.running = s.sec.running :=
  rfl

@[simp] theorem applyLimits_running (s : State) (d : Nat) : (applyLimits s d).sec.running = s.sec.running := by simp [applyLimits]

@[simp] theorem raiseLimits_running (s : State) (d : Nat) : (raiseLimits s d).sec.running = s.sec.running := by
  unfold raiseLimits
  split
  · rfl
  · next up _ =>
    have raised := foldl_running (fun t (q : Nat × Nat) => setActive t (q.1 / 16) (q.1 % 16) q.2) up s fun t q => by simp
    split
    · dsimp only
      split <;> simpa using raised
    · rfl

@[simp] theorem bufferCommit_running (s : State) : (bufferCommit s).1.sec.running = s.sec.running := by
  unfold bufferCommit
  repeat' split
  all_goals simp

@[simp] theorem egressPush_running (s : State) (port : Nat) (h : Held) (m : Option LinkMsg) :
    (egressPush s port h m).sec.running = s.sec.running := by simp [egressPush]

@[simp] theorem hostSend_running (s : State) (port : Nat) (v : Vn) (m : LinkMsg) :
    (hostSend s port v m).sec.running = s.sec.running := rfl

@[simp] theorem egressTaken_running (s : State) (port : Nat) (v : Vn) (id : Nat) (m : Option LinkMsg) :
    (egressTaken s port v id m).sec.running = s.sec.running := by
  unfold egressTaken
  split <;> simp

@[simp] theorem gapOpens_running (s : State) (port : Nat) (v : Vn) : (gapOpens s port v).sec.running = s.sec.running := by
  simp [gapOpens]

@[simp] theorem gapCloses_running (s : State) (port : Nat) (v : Vn) : (gapCloses s port v).sec.running = s.sec.running := by
  unfold gapCloses
  dsimp only
  split <;> simp

/-! ### Machine/Decoding -/

@[simp] theorem setDecoder_running (s : State) (v : Nat) (i : Nat) (d : Decoder) : (setDecoder s v i d).sec.running = s.sec.running :=
  rfl

@[simp] theorem undecoded_running (s : State) (v : Nat) (a : Nat) : (undecoded s v a).sec.running = s.sec.running := by
  simp [undecoded]

@[simp] theorem refusal_running (s : State) (v : Nat) (p : Nat) (wr : Bool) : (refusal s v p wr).sec.running = s.sec.running := by
  simp [refusal]

/-! ### Machine/PageLog -/

@[simp] theorem setFunc_running (s : State) (n : Nat) (f : Func) : (setFunc s n f).sec.running = s.sec.running := rfl

@[simp] theorem setVppb_running (s : State) (v : Nat) (d : Nat) (x : Vppb) : (setVppb s v d x).sec.running = s.sec.running := rfl

@[simp] theorem bumpFn_running (s : State) (fn : Nat) (e : Nat) (k : Nat) : (bumpFn s fn e k).sec.running = s.sec.running := by
  unfold bumpFn
  repeat' split
  all_goals simp

@[simp] theorem hostWrite_running (s : State) (v : Nat) (rid : BitVec 16) (addr : Nat) (data : List Byte) (poison : Bool) :
    (hostWrite s v rid addr data poison).sec.running = s.sec.running := by
  unfold hostWrite
  split <;> simp

@[simp] theorem setLogCh_running (s : State) (c : Nat) (x : LogCh) : (setLogCh s c x).sec.running = s.sec.running := rfl

@[simp] theorem lcbWrite_running (s : State) (c : Nat) (off : Nat) (data : List Byte) :
    (lcbWrite s c off data).sec.running = s.sec.running := by simp [lcbWrite]

@[simp] theorem lcbProducer_running (s : State) (c : Nat) : (lcbProducer s c).sec.running = s.sec.running := by simp [lcbProducer]

@[simp] theorem logState_running (s : State) (c : Nat) (x : LogCh) : (logState s c x).sec.running = s.sec.running := by
  simp [logState]

@[simp] theorem logEntry_running (s : State) (c : Nat) (page : Nat) (x : LogCh) : (logEntry s c page x).sec.running = s.sec.running := by
  simp [logEntry]

@[simp] theorem logCount_running (s : State) (c : Nat) (e : Nat) : (logCount s c e).sec.running = s.sec.running := by simp [logCount]

@[simp] theorem logEvent_running (s : State) (c : Nat) (a : Nat) : (logEvent s c a).sec.running = s.sec.running := by simp [logEvent]

@[simp] theorem logFunc_running (s : State) (f : Nat) (a : Nat) : (logFunc s f a).sec.running = s.sec.running := by simp [logFunc]

@[simp] theorem logTrackers_running (s : State) (v a : Nat) : (logTrackers s v a).sec.running = s.sec.running := by simp [logTrackers]

/-! ### Machine/Proxy -/

@[simp] theorem setProxy_running (s : State) (v : Nat) (x : Proxy) : (setProxy s v x).sec.running = s.sec.running := rfl

@[simp] theorem flushed_running (s : State) (p : Nat) (u : FUnit) : (flushed s p u).sec.running = s.sec.running := by simp [flushed]

@[simp] theorem answerHost_running (s : State) (p : Nat) (vn : Vn) (id : Nat) (m : LinkMsg) :
    (answerHost s p vn id m).sec.running = s.sec.running := by simp [answerHost]

@[simp] theorem tellHost_running (s : State) (p : Nat) (vn : Vn) (m : LinkMsg) : (tellHost s p vn m).sec.running = s.sec.running := by
  simp [tellHost]

@[simp] theorem issueUnit_running (s : State) (v : Nat) (p : Nat) (ty : Nat) (vn : Vn) (tag : Nat) (hpa : BitVec 46) (payload :
    BitVec 512) (poison : Bool) (since : Nat) :
    (issueUnit s v p ty vn tag hpa payload poison since).sec.running = s.sec.running := by simp [issueUnit]

@[simp] theorem issueReq_running (s : State) (v : Nat) (p : Nat) (e : ProxyReq) (since : Nat) :
    (issueReq s v p e since).sec.running = s.sec.running := by simp [issueReq]

@[simp] theorem issueWrite_running (s : State) (v : Nat) (p : Nat) (e : ProxyWrite) (since : Nat) :
    (issueWrite s v p e since).sec.running = s.sec.running := by simp [issueWrite]

@[simp] theorem issueEvict_running (s : State) (v : Nat) (p : Nat) (e : ProxyEvict) (since : Nat) :
    (issueEvict s v p e since).sec.running = s.sec.running := by simp [issueEvict]

@[simp] theorem evictionFreed_running (s : State) (v : Nat) (p : Nat) (hpa : BitVec 46) :
    (evictionFreed s v p hpa).sec.running = s.sec.running := by simp [evictionFreed]

@[simp] theorem snoopReply_running (s : State) (v : Nat) (p : Nat) (sn : ProxySnoop) (dirty : Option (LineData × Bool)) (keptS : Bool) :
    (snoopReply s v p sn dirty keptS).sec.running = s.sec.running := by
  unfold snoopReply
  repeat' split
  all_goals simp

@[simp] theorem snoopLost_running (s : State) (v : Nat) (p : Nat) (src : BitVec 12) (tag : BitVec 16) (l : BitVec 42) :
    (snoopLost s v p src tag l).sec.running = s.sec.running := by simp [snoopLost]

@[simp] theorem dropSnoop_running (s : State) (v : Nat) (bt : Nat) : (dropSnoop s v bt).sec.running = s.sec.running := rfl

@[simp] theorem sendBiSnp_running (s : State) (v : Nat) (p : Nat) (sn : ProxySnoop) (d : Option (LineData × Bool)) :
    (sendBiSnp s v p sn d).sec.running = s.sec.running := by
  unfold sendBiSnp
  split <;> simp

@[simp] theorem snoopAct_running (s : State) (v : Nat) (p : Nat) (sn : ProxySnoop) :
    (snoopAct s v p sn).sec.running = s.sec.running := by
  unfold snoopAct
  split <;> simp

@[simp] theorem releaseSnoops_running (s : State) (v : Nat) (p : Nat) : (releaseSnoops s v p).sec.running = s.sec.running := by
  simp [releaseSnoops]

@[simp] theorem proxySnoop_running (s : State) (v : Nat) (p : Nat) : (proxySnoop s v p).sec.running = s.sec.running := by
  unfold proxySnoop
  split <;> simp

@[simp] theorem ingressTaken_running (s : State) (p : Nat) (vn : Vn) : (ingressTaken s p vn).sec.running = s.sec.running := rfl

@[simp] theorem hostRequest_running (s : State) (v : Nat) (p : Nat) (k : HostReqKind) (m : Meta) (hpa : BitVec 46) (tag :
    BitVec 16) (since : Nat) :
    (hostRequest s v p k m hpa tag since).sec.running = s.sec.running := by
  unfold hostRequest
  dsimp only
  repeat' split
  all_goals simp

@[simp] theorem hostWriteMsg_running (s : State) (v : Nat) (p : Nat) (part : Bool) (m : Meta) (hpa : BitVec 46) (tag :
    BitVec 16) (mask : BitVec 64) (poison : Bool) (data : LineData) (since : Nat) :
    (hostWriteMsg s v p part m hpa tag mask poison data since).sec.running = s.sec.running := by
  unfold hostWriteMsg
  dsimp only
  repeat' split
  all_goals simp

@[simp] theorem biRsp_running (s : State) (v : Nat) (p : Nat) (k : BiRspKind) (bt : BitVec 16) :
    (biRsp s v p k bt).sec.running = s.sec.running := by
  unfold biRsp
  split <;> simp

@[simp] theorem dropEntry_running (s : State) (v : Nat) (t : Nat) : (dropEntry s v t).sec.running = s.sec.running := rfl

@[simp] theorem give_running (s : State) (p : Nat) (vn : Vn) (unit : Option Nat) (m : LinkMsg) :
    (give s p vn unit m).sec.running = s.sec.running := by
  unfold give
  split <;> simp

@[simp] theorem giveNothing_running (s : State) (p : Nat) (vn : Vn) (unit : Option Nat) :
    (giveNothing s p vn unit).sec.running = s.sec.running := by
  unfold giveNothing
  repeat' split
  all_goals simp

@[simp] theorem finishEntry_running (s : State) (v : Nat) (p : Nat) (t : Nat) (vn : Vn) (unit : Option Nat) (m : LinkMsg) :
    (finishEntry s v p t vn unit m).sec.running = s.sec.running := by simp [finishEntry]

@[simp] theorem reqData_running (s : State) (v : Nat) (p : Nat) (unit : Option Nat) (e : ProxyReq) (g : Nat) (poison : Bool) (d :
    LineData) :
    (reqData s v p unit e g poison d).sec.running = s.sec.running := by simp [reqData]

@[simp] theorem nackWb_running (s : State) (v : Nat) (p : Nat) (e : ProxyEvict) : (nackWb s v p e).sec.running = s.sec.running := by
  simp [nackWb]

@[simp] theorem evictRefused_running (s : State) (v : Nat) (p : Nat) (e : ProxyEvict) :
    (evictRefused s v p e).sec.running = s.sec.running := by simp [evictRefused]

@[simp] theorem writeFreed_running (s : State) (v : Nat) (p : Nat) : (writeFreed s v p).sec.running = s.sec.running := by
  unfold writeFreed
  dsimp only
  split <;> simp

@[simp] theorem failEntry_running (s : State) (v : Nat) (p : Nat) (t : Nat) (unit : Option Nat) (poison : Bool) :
    (failEntry s v p t unit poison).sec.running = s.sec.running := by
  unfold failEntry
  dsimp only
  repeat' split
  all_goals simp

@[simp] theorem nackEntry_running (s : State) (v : Nat) (p : Nat) (t : Nat) : (nackEntry s v p t).sec.running = s.sec.running := by
  unfold nackEntry
  dsimp only
  repeat' split
  all_goals simp

@[simp] theorem goWrite_running (s : State) (v : Nat) (p : Nat) (e : ProxyWrite) (h : Nat) (l : BitVec 42) :
    (goWrite s v p e h l).sec.running = s.sec.running := by simp [goWrite]

@[simp] theorem rspReq_running (s : State) (v : Nat) (p : Nat) (h : Held) (e : ProxyReq) :
    (rspReq s v p h e).sec.running = s.sec.running := by
  unfold rspReq
  split <;> simp

@[simp] theorem rspWrite_running (s : State) (v : Nat) (p : Nat) (h : Held) (e : ProxyWrite) :
    (rspWrite s v p h e).sec.running = s.sec.running := by
  unfold rspWrite
  split <;> simp

@[simp] theorem rspEvict_running (s : State) (v : Nat) (p : Nat) (h : Held) (e : ProxyEvict) :
    (rspEvict s v p h e).sec.running = s.sec.running := by
  unfold rspEvict
  split <;> simp

@[simp] theorem discardQuarantined_running (s : State) (p : Nat) (vn : Vn) (id : Nat) :
    (discardQuarantined s p vn id).sec.running = s.sec.running := rfl

@[simp] theorem proxyResponse_running (s : State) (v : Nat) (p : Nat) (vn : Vn) :
    (proxyResponse s v p vn).sec.running = s.sec.running := by
  unfold proxyResponse
  dsimp only
  repeat' split
  all_goals simp

@[simp] theorem downResponse_running (s : State) (v : Nat) (p : Nat) (h : Held) :
    (downResponse s v p h).sec.running = s.sec.running := by simp [downResponse]

@[simp] theorem backoffEnd_running (s : State) (v : Nat) (p : Nat) (t : Nat) : (backoffEnd s v p t).sec.running = s.sec.running := by
  unfold backoffEnd
  dsimp only
  split <;> simp

/-! ### Machine/Fabric -/

@[simp] theorem setRingBuf_running (s : State) (n : Nat) (d : Nat) (v : Vn) (l : List Held) :
    (setRingBuf s n d v l).sec.running = s.sec.running := rfl

@[simp] theorem setTurnBuf_running (s : State) (n : Nat) (d : Nat) (v : Vn) (l : List Held) :
    (setTurnBuf s n d v l).sec.running = s.sec.running := rfl

@[simp] theorem setEjectBuf_running (s : State) (n : Nat) (a : Nat) (v : Vn) (l : List Held) :
    (setEjectBuf s n a v l).sec.running = s.sec.running := rfl

@[simp] theorem setPool_running (s : State) (p : Nat) (x : PoolAgent) : (setPool s p x).sec.running = s.sec.running := rfl

@[simp] theorem aerAt_running (s : State) (p : Nat) (ld : Nat) (f : AerState → AerState) :
    (aerAt s p ld f).sec.running = s.sec.running := by
  unfold aerAt
  repeat' split
  all_goals simp

@[simp] theorem bumpPort_running (s : State) (p : Nat) (ld : Nat) (e : Nat) (k : Nat) :
    (bumpPort s p ld e k).sec.running = s.sec.running := by
  unfold bumpPort
  split <;> simp

@[simp] theorem aerUnsupported_running (s : State) (p : Nat) (t : Tlp) : (aerUnsupported s p t).sec.running = s.sec.running := by
  simp [aerUnsupported]

@[simp] theorem npDrop_running (s : State) (p : Nat) (rid : BitVec 16) (tag : BitVec 16) :
    (npDrop s p rid tag).sec.running = s.sec.running := rfl

@[simp] theorem npAnswer_running (s : State) (p : Nat) (rid : BitVec 16) (tag : BitVec 16) (st : Nat) :
    (npAnswer s p rid tag st).sec.running = s.sec.running := by
  unfold npAnswer
  split <;> simp

theorem npArrived_running (s : State) (p : Nat) (h : Held) (t : State) (h : npArrived s p h = some t) :
    t.sec.running = s.sec.running := by
  unfold npArrived at h
  dsimp only at h
  (repeat' split at h) <;> simp at h
  all_goals subst h; simp

@[simp] theorem ioUnreachable_running (s : State) (p : Nat) (h : Held) : (ioUnreachable s p h).sec.running = s.sec.running := by
  unfold ioUnreachable
  split <;> simp

@[simp] theorem answerMemRd_running (s : State) (p : Nat) (u : FUnit) : (answerMemRd s p u).sec.running = s.sec.running := by
  simp [answerMemRd]

@[simp] theorem answerMemWr_running (s : State) (p : Nat) (u : FUnit) : (answerMemWr s p u).sec.running = s.sec.running := by
  simp [answerMemWr]

@[simp] theorem dropPoolWrite_running (s : State) (p : Nat) (u : FUnit) : (dropPoolWrite s p u).sec.running = s.sec.running := rfl

@[simp] theorem ioAnswer_running (s : State) (p : Nat) (u : FUnit) (t : Tlp) (st : Nat) :
    (ioAnswer s p u t st).sec.running = s.sec.running := by simp [ioAnswer]

@[simp] theorem downSnoop_running (s : State) (p : Nat) (u : FUnit) : (downSnoop s p u).sec.running = s.sec.running := by
  unfold downSnoop
  split <;> simp

@[simp] theorem downArrival_running (s : State) (p : Nat) (h : Held) : (downArrival s p h).sec.running = s.sec.running := by
  unfold downArrival
  dsimp only
  repeat' split
  all_goals simp

@[simp] theorem portArrive_running (s : State) (p : Nat) (h : Held) :
    (portArrive s p h).sec.running = s.sec.running := by
  unfold portArrive
  dsimp only
  split
  · split
    · simp
    · split
      · simp
      · split
        · rename_i e; have k := npArrived_running _ _ _ _ e; simp [k]
        · simp
  · split
    · split <;> simp
    · split <;> simp

@[simp] theorem snoopDeliver_running (s : State) (k : Nat) (h : Held) : (snoopDeliver s k h).sec.running = s.sec.running :=
  foldl_running _ _ _ fun t v => by split <;> simp

@[simp] theorem deliver_running (s : State) (n : Nat) (a : Nat) (h : Held) : (deliver s n a h).sec.running = s.sec.running := by
  unfold deliver
  repeat' split
  all_goals simp

@[simp] theorem ejected_running (s : State) (n : Nat) (a : Nat) (h : Held) : (ejected s n a h).sec.running = s.sec.running := by
  unfold ejected
  repeat' split
  all_goals simp

@[simp] theorem missedEject_running (s : State) (key : Nat) (id : Nat) : (missedEject s key id).sec.running = s.sec.running := rfl

@[simp] theorem missedTurn_running (s : State) (key : Nat) (id : Nat) : (missedTurn s key id).sec.running = s.sec.running := rfl

theorem tryEject_running (s : State) (n : Nat) (a : Nat) (h : Held) (t : State) (h : tryEject s n a h = some t) :
    t.sec.running = s.sec.running := by
  unfold tryEject at h
  dsimp only at h
  (repeat' split at h) <;> simp at h
  all_goals subst h; simp

theorem tryTurn_running (s : State) (n : Nat) (w : Nat) (h : Held) (t : State) (h : tryTurn s n w h = some t) :
    t.sec.running = s.sec.running := by
  unfold tryTurn at h
  dsimp only at h
  (repeat' split at h) <;> simp at h
  all_goals subst h; simp

@[simp] theorem ringPush_running (s : State) (n : Nat) (d : Nat) (h : Held) : (ringPush s n d h).sec.running = s.sec.running := rfl

@[simp] theorem synthRspI_running (s : State) (n : Nat) (k : Nat) (u : FUnit) : (synthRspI s n k u).sec.running = s.sec.running :=
  foldl_running _ _ _ fun t v => by split <;> simp

@[simp] theorem answerReq_running (s : State) (n : Nat) (a : Nat) (h : Held) : (answerReq s n a h).sec.running = s.sec.running := by
  simp [answerReq]

@[simp] theorem isolatedUnit_running (s : State) (n : Nat) (h : Held) : (isolatedUnit s n h).sec.running = s.sec.running := by
  simp [isolatedUnit]

theorem refusedAt_running (s : State) (n : Nat) (a : Nat) (h : Held) (t : State) (h : refusedAt s n a h = some t) :
    t.sec.running = s.sec.running := by
  unfold refusedAt at h
  (repeat' split at h) <;> simp at h
  all_goals subst h; simp

@[simp] theorem missForgot_running (s : State) (key : Nat) (id : Nat) : (missForgot s key id).sec.running = s.sec.running := rfl

@[simp] theorem arriveHome_running (s : State) (n d a : Nat) (h : Held) :
    (arriveHome s n d a h).sec.running = s.sec.running := by
  unfold arriveHome
  split
  · rename_i e; have k := refusedAt_running _ _ _ _ _ e; simp [k]
  · dsimp only
    split
    · rename_i e; have k := tryEject_running _ _ _ _ _ e; simp [k]
    · simp

theorem giveOff_running (s : State) (u : FUnit) (part : Nat → Bool) (give : State → FUnit → Option State)
    (miss : State → State) (hg : ∀ s u t, give s u = some t → t.sec.running = s.sec.running)
    (hm : ∀ s, (miss s).sec.running = s.sec.running) :
    (giveOff s u part give miss).1.sec.running = s.sec.running := by
  unfold giveOff
  split
  · split
    · rename_i e; exact hg _ _ _ e
    · exact hm _
  · simp

@[simp] theorem arriveCopy_running (s : State) (n d : Nat) (h : Held) :
    (arriveCopy s n d h).sec.running = s.sec.running := by
  unfold arriveCopy
  dsimp only
  have here : ∀ (s : State) (u : FUnit) (t : State),
      (match refusedAt s n (takingAgent n h.u) { h with u := u } with
        | some t => some (missForgot t (missKey n (takingAgent n h.u) .snp d) h.id)
        | none => tryEject s n (takingAgent n h.u) { h with u := u, inp := d }) = some t → t.sec.running = s.sec.running := by
    intro s u t e
    split at e
    · rename_i e1; have k := refusedAt_running _ _ _ _ _ e1; cases e; simp [k]
    · exact tryEject_running _ _ _ _ _ e
  have turn : ∀ (w : Nat) (s : State) (u : FUnit) (t : State),
      ((tryTurn s n w { h with u := u, id := if (tabGet [] (ringKey n w .snp) s.fab.missTurn).contains h.id then h.id else s.fab.nextId
    }).map nextUnit) = some t →
      t.sec.running = s.sec.running := by
    intro w s u t e
    rw [Option.map_eq_some_iff] at e
    obtain ⟨r, e, rfl⟩ := e
    have k := tryTurn_running _ _ _ _ _ e
    simp [k]
  have k0 := fun u p m hm => giveOff_running s u p _ m here hm
  have k1 := fun w s u p m hm => giveOff_running s u p _ m (turn w) hm
  have a := k0 h.u (fun x => decide (x = n)) (fun s => missedEject s (missKey n (takingAgent n h.u) .snp d) h.id) (fun s => by simp)
  generalize giveOff s h.u (fun x => decide (x = n)) _ _ = r0 at a ⊢
  have b := fun w (r : State × FUnit) => k1 w r.1 r.2 (fun x => decide (x ≠ n) && decide (stopX x = stopX n) && decide (columnDir n x =
    w))
      (fun s => missedTurn s (ringKey n w .snp) h.id) (fun s => by simp)
  have fin : ∀ x : State × FUnit, (x.1.sec.running = s.sec.running) →
      (if (snoopStops x.2).isEmpty then x.1 else ringPush x.1 n d { h with u := x.2 }).sec.running = s.sec.running := by
    intro x k; split <;> simp [k]
  apply fin
  split
  · exact ((b 3 _).trans (b 2 _)).trans a
  · exact a

@[simp] theorem arrive_running (s : State) (n d : Nat) (h : Held) :
    (arrive s n d h).sec.running = s.sec.running := by
  unfold arrive
  (repeat' split) <;> (try simp)
  all_goals rename_i e; first | exact refusedAt_running _ _ _ _ _ e | exact tryTurn_running _ _ _ _ _ e

@[simp] theorem carriedOn_running (s : State) (i : Nat) (h : Held) : (carriedOn s i h).sec.running = s.sec.running := by
  simp [carriedOn]

@[simp] theorem setNiBuf_running (s : State) (n : Nat) (a : Nat) (v : Vn) (l : List Held) :
    (setNiBuf s n a v l).sec.running = s.sec.running := rfl

@[simp] theorem entered_running (s : State) (n : Nat) (d : Nat) (v : Vn) (turn : Bool) (id : Nat) :
    (entered s n d v turn id).sec.running = s.sec.running := rfl

@[simp] theorem enterTurn_running (s : State) (n : Nat) (d : Nat) (v : Vn) : (enterTurn s n d v).sec.running = s.sec.running := by
  unfold enterTurn
  split <;> simp

@[simp] theorem hop_running (s : State) (n : Nat) (d : Nat) : (hop s n d).sec.running = s.sec.running := by
  unfold hop
  dsimp only
  repeat' split
  all_goals simp

@[simp] theorem routeWrite_running (s : State) (t : RouteTable) : (routeWrite s t).1.sec.running = s.sec.running := by
  unfold routeWrite
  repeat' split
  all_goals simp

/-! ### Machine/EgressOut -/

@[simp] theorem countSent_running (s : State) (p : Nat) : (countSent s p).sec.running = s.sec.running := rfl

@[simp] theorem npSent_running (s : State) (p : Nat) (u : FUnit) : (npSent s p u).sec.running = s.sec.running := rfl

@[simp] theorem countToHost_running (s : State) (p : Nat) (n : Nat) : (countToHost s p n).sec.running = s.sec.running := by
  unfold countToHost
  split <;> simp

@[simp] theorem traceSent_running (s : State) (p : Nat) (l : List Held) : (traceSent s p l).sec.running = s.sec.running := by
  simp [traceSent]

@[simp] theorem egressSent_running (s : State) (p : Nat) (v : Vn) : (egressSent s p v).sec.running = s.sec.running := by
  unfold egressSent
  dsimp only
  repeat' split
  all_goals simp

@[simp] theorem ageRaised_running (s : State) (port : Nat) (h : Held) : (ageRaised s port h).sec.running = s.sec.running := by
  simp [ageRaised]

@[simp] theorem ageLogged_running (s : State) (p : Nat) (t : Tlp) (nonPosted : Bool) :
    (ageLogged s p t nonPosted).sec.running = s.sec.running := by simp [ageLogged]

@[simp] theorem ageAnswer_running (s : State) (n : Nat) (a : Nat) (port : Nat) (h : Held) :
    (ageAnswer s n a port h).sec.running = s.sec.running := by
  unfold ageAnswer
  repeat' split
  all_goals simp

@[simp] theorem ageQueue_running (s : State) (n a port : Nat) (l : List Held) :
    (ageQueue s n a port l).1.sec.running = s.sec.running := by simp [ageQueue]

@[simp] theorem ageIngress_running (s : State) (p : Nat) (v : Vn) :
    (ageIngress s p v).sec.running = s.sec.running :=
  foldl_from_running s _ _ _ (by simp) fun t m => by
    dsimp only
    (repeat' split) <;> simp

@[simp] theorem ageLink_running (s : State) (a : Nat) (v : Vn) : (ageLink s a v).sec.running = s.sec.running := by simp [ageLink]

@[simp] theorem ageEgress_running (s : State) (port : Nat) (n : Nat) (a : Nat) (v : Vn) :
    (ageEgress s port n a v).sec.running = s.sec.running := by simp [ageEgress]

@[simp] theorem ageExamine_running (s : State) (hp : HoldPoint) : (ageExamine s hp).sec.running = s.sec.running := by
  unfold ageExamine
  split <;> simp

/-! ### Machine/Slice -/

@[simp] theorem setSlice_running (s : State) (l : Nat) (x : HomeSlice) : (setSlice s l x).sec.running = s.sec.running := rfl

@[simp] theorem setTracker_running (s : State) (l : Nat) (t : Nat) (k : Tracker) : (setTracker s l t k).sec.running = s.sec.running :=
  rfl

@[simp] theorem setBuf_running (s : State) (l : Nat) (b : Nat) (e : BufEntry) : (setBuf s l b e).sec.running = s.sec.running := rfl

@[simp] theorem recordSwitch_running (s : State) (w : Nat) : (recordSwitch s w).sec.running = s.sec.running := by simp [recordSwitch]

/-! ### Machine/Remap -/

@[simp] theorem setBacking_running (s : State) (g : Nat) (e : BitVec 48) : (setBacking s g e).sec.running = s.sec.running := rfl

@[simp] theorem applyEntry_running (s : State) (g : Nat) (e : BitVec 48) : (applyEntry s g e).sec.running = s.sec.running := rfl

@[simp] theorem sendMemRd_running (s : State) (l : Nat) (t : Nat) (k : Tracker) (p : Loc) :
    (sendMemRd s l t k p).sec.running = s.sec.running := by simp [sendMemRd]

@[simp] theorem sendMemWr_running (s : State) (l : Nat) (b : Nat) (e : BufEntry) (p : Loc) :
    (sendMemWr s l b e p).sec.running = s.sec.running := by simp [sendMemWr]

@[simp] theorem remapAnswer_running (s : State) (l : Nat) (op : RemapOp) : (remapAnswer s l op).sec.running = s.sec.running := by
  unfold remapAnswer
  repeat' split
  all_goals simp

@[simp] theorem unmappedReport_running (s : State) (l : Nat) (g : Nat) : (unmappedReport s l g).sec.running = s.sec.running := by
  simp [unmappedReport]

@[simp] theorem remapSend_running (s : State) (l : Nat) (op : RemapOp) (p : Loc) : (remapSend s l op p).sec.running = s.sec.running := by
  unfold remapSend
  repeat' split
  all_goals simp

@[simp] theorem remapHold_running (s : State) (l : Nat) (g : Nat) (page : Nat) (op : RemapOp) :
    (remapHold s l g page op).sec.running = s.sec.running := by
  unfold remapHold
  dsimp only
  repeat' split
  all_goals simp

@[simp] theorem remapWith_running (s : State) (l : Nat) (g : Nat) (page : Nat) (op : RemapOp) (e : BitVec 48) :
    (remapWith s l g page op e).sec.running = s.sec.running := by
  unfold remapWith
  repeat' split
  all_goals simp

@[simp] theorem remapLookup_running (s : State) (l : Nat) (op : RemapOp) : (remapLookup s l op).sec.running = s.sec.running := by
  unfold remapLookup
  dsimp only
  repeat' split
  all_goals simp

@[simp] theorem remapOp_running (s : State) (l : Nat) (op : RemapOp) : (remapOp s l op).sec.running = s.sec.running := by
  simp [remapOp]

@[simp] theorem remapFill_running (s : State) (l g : Nat) (bad : Bool) :
    (remapFill s l g bad).sec.running = s.sec.running := by
  unfold remapFill
  dsimp only
  split
  · simp
  · refine foldl_from_running s _ _ _ ?_ ?_
    · (repeat' split) <;> simp
    · intro t q; split <;> simp

@[simp] theorem openGate_running (s : State) : (openGate s).sec.running = s.sec.running := by simp [openGate]

@[simp] theorem nextMemWr_running (s : State) (l : Nat) (port : Nat) : (nextMemWr s l port).sec.running = s.sec.running := by
  unfold nextMemWr
  repeat' split
  all_goals simp

@[simp] theorem bufAdd_running (s : State) (l : Nat) (line : BitVec 42) (data : LineData) (poison wrPoison : Bool) :
    (bufAdd s l line data poison wrPoison).sec.running = s.sec.running := by
  unfold bufAdd
  dsimp only
  split <;> simp

@[simp] theorem bufNext_running (s : State) (l : Nat) (b : Nat) : (bufNext s l b).sec.running = s.sec.running := by
  unfold bufNext
  dsimp only
  split <;> simp

/-! ### Machine/Directory -/

@[simp] theorem cacheSet_running (s : State) (l : Nat) (line : BitVec 42) (w : Nat) (e : Option DirEntry) :
    (cacheSet s l line w e).sec.running = s.sec.running := rfl

@[simp] theorem cacheTouch_running (s : State) (l : Nat) (line : BitVec 42) (w : Nat) :
    (cacheTouch s l line w).sec.running = s.sec.running := rfl

@[simp] theorem setSf_running (s : State) (k : Nat) (ws : List SfWay) : (setSf s k ws).sec.running = s.sec.running := rfl

@[simp] theorem sfWrite_running (s : State) (l : Nat) (line : BitVec 42) (i : Nat) (st : LState) :
    (sfWrite s l line i st).sec.running = s.sec.running := rfl

@[simp] theorem sfPut_running (s : State) (k : Nat) (i : Nat) (tag : Nat) (st : LState) :
    (sfPut s k i tag st).sec.running = s.sec.running := rfl

@[simp] theorem putState_running (s : State) (l : Nat) (line : BitVec 42) (st : LState) :
    (putState s l line st).sec.running = s.sec.running := by
  unfold putState
  repeat' split
  all_goals simp

@[simp] theorem poisonWrite_running (s : State) (l : Nat) (line : BitVec 42) : (poisonWrite s l line).sec.running = s.sec.running := by
  simp [poisonWrite]

@[simp] theorem poisonLine_running (s : State) (l : Nat) (line : BitVec 42) : (poisonLine s l line).sec.running = s.sec.running := by
  simp [poisonLine]

@[simp] theorem lineState_running (s : State) (l : Nat) (line : BitVec 42) : (lineState s l line).1.sec.running = s.sec.running := by
  simp [lineState]

@[simp] theorem evictEntry_running (s : State) (l : Nat) (e : DirEntry) : (evictEntry s l e).sec.running = s.sec.running := by
  unfold evictEntry
  repeat' split
  all_goals simp

@[simp] theorem evictAt_running (s : State) (l : Nat) (k : Nat) : (evictAt s l k).sec.running = s.sec.running := by
  unfold evictAt
  dsimp only
  repeat' split
  all_goals simp

theorem pinLine_running (s : State) (l : Nat) (line : BitVec 42) (t : State) (h : pinLine s l line = some t) :
    t.sec.running = s.sec.running := by
  unfold pinLine at h
  dsimp only at h
  (repeat' split at h) <;> simp at h
  all_goals subst h; simp

@[simp] theorem unpinLine_running (s : State) (l : Nat) (line : BitVec 42) : (unpinLine s l line).sec.running = s.sec.running := by
  unfold unpinLine
  split <;> simp

@[simp] theorem fillLine_running (s : State) (l : Nat) (line : BitVec 42) : (fillLine s l line).1.sec.running = s.sec.running := by
  unfold fillLine
  split <;> simp

/-! ### Machine/Home -/

@[simp] theorem answerRsp_running (s : State) (l : Nat) (ty : Nat) (r : ReqInfo) (line : BitVec 42) (poison : Bool) (synth : Bool) :
    (answerRsp s l ty r line poison synth).sec.running = s.sec.running := by simp [answerRsp]

@[simp] theorem answerDat_running (s : State) (l : Nat) (g : Nat) (r : ReqInfo) (line : BitVec 42) (data : LineData) (poison :
    Bool) (synth : Bool) :
    (answerDat s l g r line data poison synth).sec.running = s.sec.running := by simp [answerDat]

@[simp] theorem seniorEnter_running (s : State) (l : Nat) (r : ReqInfo) (line : BitVec 42) (mark : Bool) :
    (seniorEnter s l r line mark).1.sec.running = s.sec.running := by
  unfold seniorEnter
  dsimp only
  repeat' split
  all_goals simp

@[simp] theorem nack_running (s : State) (l : Nat) (r : ReqInfo) (line : BitVec 42) (reason : Nat) :
    (nack s l r line reason).sec.running = s.sec.running := by simp [nack]

@[simp] theorem seniorHold_running (s : State) (l : Nat) (line : BitVec 42) : (seniorHold s l line).sec.running = s.sec.running := by
  unfold seniorHold
  dsimp only
  split <;> simp

@[simp] theorem dropHold_running (s : State) (l : Nat) (line : BitVec 42) : (dropHold s l line).sec.running = s.sec.running := rfl

@[simp] theorem recordFinal_running (s : State) (k : Tracker) (st : LState) : (recordFinal s k st).sec.running = s.sec.running := by
  unfold recordFinal
  split <;> simp

@[simp] theorem complete_running (s : State) (l : Nat) (t : Nat) (st : LState) : (complete s l t st).sec.running = s.sec.running := by
  unfold complete
  split <;> simp

@[simp] theorem completePoisoned_running (s : State) (l : Nat) (t : Nat) : (completePoisoned s l t).sec.running = s.sec.running := by
  unfold completePoisoned
  split <;> simp

@[simp] theorem memRead_running (s : State) (l : Nat) (t : Nat) (k : Tracker) : (memRead s l t k).sec.running = s.sec.running := by
  unfold memRead
  split <;> simp

@[simp] theorem fromInvalid_running (s : State) (l : Nat) (t : Nat) (k : Tracker) (r : ReqInfo) (base : HolderSet) :
    (fromInvalid s l t k r base).sec.running = s.sec.running := by
  unfold fromInvalid
  split <;> simp

@[simp] theorem fromPoisoned_running (s : State) (l : Nat) (t : Nat) (k : Tracker) (r : ReqInfo) :
    (fromPoisoned s l t k r).sec.running = s.sec.running := by simp [fromPoisoned]

@[simp] theorem sendSnoop_running (s : State) (l : Nat) (u : FUnit) : (sendSnoop s l u).sec.running = s.sec.running := by
  simp [sendSnoop]

@[simp] theorem sendSnoops_running (s : State) (l : Nat) (t : Nat) (k : Tracker) (inv : Bool) (fwd : Bool) (g : Targets) :
    (sendSnoops s l t k inv fwd g).sec.running = s.sec.running := by simp [sendSnoops]

@[simp] theorem lastReply_running (s : State) (l : Nat) (t : Nat) : (lastReply s l t).sec.running = s.sec.running := by
  unfold lastReply
  repeat' split
  all_goals simp

@[simp] theorem startSnoop_running (s : State) (l : Nat) (t : Nat) (k : Tracker) (inv : Bool) (fwd : Bool) (g : Targets) :
    (startSnoop s l t k inv fwd g).sec.running = s.sec.running := by simp [startSnoop]

@[simp] theorem proceed_running (s : State) (l : Nat) (t : Nat) (k0 : Tracker) (r : ReqInfo) (st : LState) :
    (proceed s l t k0 r st).sec.running = s.sec.running := by
  unfold proceed
  repeat' split
  all_goals simp

@[simp] theorem invalidateWith_running (s : State) (l : Nat) (t : Nat) (line : BitVec 42) (st : LState) (fin : LState) (g :
    Targets) (reason : Nat) :
    (invalidateWith s l t line st fin g reason).sec.running = s.sec.running := by simp [invalidateWith]

@[simp] theorem strayed_running (s : State) : (strayed s).sec.running = s.sec.running := rfl

@[simp] theorem noTracker_running (s : State) (l : Nat) (t : Nat) : (noTracker s l t).sec.running = s.sec.running := by
  simp [noTracker]

@[simp] theorem homeReply_running (s : State) (l : Nat) (t : Nat) (h : Held) : (homeReply s l t h).sec.running = s.sec.running := by
  unfold homeReply
  dsimp only
  repeat' split
  all_goals simp

@[simp] theorem answerWb_running (s : State) (l : Nat) (ty : Nat) (h : Held) (r : Holder) (synth : Bool) :
    (answerWb s l ty h r synth).sec.running = s.sec.running := by simp [answerWb]

@[simp] theorem vectorDrop_running (s : State) (l : Nat) (line : BitVec 42) (st : LState) (r : Holder) :
    (vectorDrop s l line st r).sec.running = s.sec.running := by
  unfold vectorDrop
  split <;> simp

@[simp] theorem homeWriteback_running (s : State) (l : Nat) (h : Held) : (homeWriteback s l h).sec.running = s.sec.running := by
  unfold homeWriteback
  dsimp only
  repeat' split
  all_goals simp

@[simp] theorem homeWrData_running (s : State) (l : Nat) (u : FUnit) : (homeWrData s l u).sec.running = s.sec.running := by
  unfold homeWrData
  dsimp only
  repeat' split
  all_goals simp

@[simp] theorem homeMemCmp_running (s : State) (l : Nat) (u : FUnit) : (homeMemCmp s l u).sec.running = s.sec.running := by
  unfold homeMemCmp
  dsimp only
  split <;> simp

@[simp] theorem homeDatMem_running (s : State) (l : Nat) (u : FUnit) : (homeDatMem s l u).sec.running = s.sec.running := by
  unfold homeDatMem
  dsimp only
  repeat' split
  all_goals simp

@[simp] theorem lineLost_running (s : State) (l : Nat) (line : BitVec 42) : (lineLost s l line).sec.running = s.sec.running := by
  unfold lineLost
  repeat' split
  all_goals simp

@[simp] theorem bufDone_running (s : State) (l : Nat) (b : Nat) (poison : Bool) :
    (bufDone s l b poison).sec.running = s.sec.running := by
  unfold bufDone
  dsimp only
  repeat' split
  all_goals simp

@[simp] theorem homeMemWrCmp_running (s : State) (l : Nat) (u : FUnit) : (homeMemWrCmp s l u).sec.running = s.sec.running := by
  unfold homeMemWrCmp
  dsimp only
  split <;> simp

@[simp] theorem homePull_running (s : State) (l : Nat) (u : FUnit) : (homePull s l u).sec.running = s.sec.running := by
  unfold homePull
  dsimp only
  split <;> simp

@[simp] theorem switchLost_running (s : State) (l : Nat) (t : Nat) (w : Nat) : (switchLost s l t w).sec.running = s.sec.running := by
  unfold switchLost
  repeat' split
  all_goals simp

@[simp] theorem homeUnreachable_running (s : State) (l : Nat) (u : FUnit) : (homeUnreachable s l u).sec.running = s.sec.running := by
  unfold homeUnreachable
  dsimp only
  repeat' split
  all_goals simp

@[simp] theorem homeEvictClean_running (s : State) (l : Nat) (r : ReqInfo) (line : BitVec 42) (poison : Bool) (synth : Bool) :
    (homeEvictClean s l r line poison synth).sec.running = s.sec.running := by
  unfold homeEvictClean
  dsimp only
  repeat' split
  all_goals simp

@[simp] theorem safeRequest_running (s : State) (l : Nat) (r : ReqInfo) (line : BitVec 42) :
    (safeRequest s l r line).sec.running = s.sec.running := by simp [safeRequest]

@[simp] theorem lostRequest_running (s : State) (l : Nat) (r : ReqInfo) (line : BitVec 42) :
    (lostRequest s l r line).sec.running = s.sec.running := by simp [lostRequest]

@[simp] theorem acceptRequest_running (s : State) (l : Nat) (h : Held) (r : ReqInfo) (line : BitVec 42) :
    (acceptRequest s l h r line).sec.running = s.sec.running := by
  unfold acceptRequest
  split
  · simp
  · dsimp only
    split
    · simp
    · rename_i e
      have h := pinLine_running _ _ _ _ e
      (repeat' split) <;> simp [h]

@[simp] theorem homeRequest_running (s : State) (l : Nat) (h : Held) : (homeRequest s l h).sec.running = s.sec.running := by
  unfold homeRequest
  dsimp only
  repeat' split
  all_goals simp

theorem lostLine_running (s : State) (l : Nat) (line : BitVec 42) (t : State) (h : lostLine s l line = some t) :
    t.sec.running = s.sec.running := by
  unfold lostLine at h
  split at h
  · cases h
  · split at h
    · cases h
    · dsimp only at h
      split at h
      · cases h
      · rename_i e
        have k := pinLine_running _ _ _ _ e
        simp only [Option.some.injEq] at h
        subst h
        simp [k]

@[simp] theorem lostSweep_running (s : State) (l : Nat) :
    (lostSweep s l).sec.running = s.sec.running := by
  refine foldl_running _ _ _ fun t a => ?_
  split
  · rename_i e; have k := lostLine_running _ _ _ _ e; simp [k]
  · simp

@[simp] theorem homeWb_running (s : State) (l : Nat) (h : Held) : (homeWb s l h).sec.running = s.sec.running := by
  unfold homeWb
  split <;> simp

@[simp] theorem homeRspTaken_running (s : State) (l : Nat) (h : Held) : (homeRspTaken s l h).sec.running = s.sec.running := by
  unfold homeRspTaken
  split <;> simp

theorem takeUnits_running (s : State) (l n : Nat) (v : Vn) (ok : State → Bool) (f : State → Held → State)
    (hf : ∀ s h, (f s h).sec.running = s.sec.running) :
    (takeUnits s l n v ok f).sec.running = s.sec.running :=
  foldl_running _ _ _ fun t _ => by
    (repeat' split) <;> simp [hf]

@[simp] theorem takeRequests_running (s : State) (l : Nat) : (takeRequests s l).sec.running = s.sec.running := by
  unfold takeRequests
  dsimp only
  split <;> simp

@[simp] theorem homeIntake_running (s : State) (l : Nat) : (homeIntake s l).sec.running = s.sec.running := by
  have wb := fun u => takeUnits_running u l 2 .wb (fun t => (bufFree (slice t l)).isSome) (fun t h => homeWb t l h) fun s h => by simp
  have rsp := fun u => takeUnits_running u l 2 .rsp (fun _ => true) (fun t h => homeRspTaken t l h) fun s h => by simp
  have dat := fun u => takeUnits_running u l 1 .dat (fun _ => true)
    (fun t h => if h.u.type = 0x3F then homeUnreachable t l h.u else homeDatMem t l h.u) fun s h => by split <;> simp
  unfold homeIntake
  rw [lostSweep_running, takeRequests_running]
  exact (dat _).trans ((rsp _).trans (wb s))

@[simp] theorem notInserting_running (s : State) (l : Nat) (line : BitVec 42) : (notInserting s l line).sec.running = s.sec.running :=
  rfl

@[simp] theorem evictAbandon_running (s : State) (l : Nat) (e : DirEntry) : (evictAbandon s l e).sec.running = s.sec.running := by
  unfold evictAbandon
  split <;> simp

@[simp] theorem insertEntry_running (s : State) (l : Nat) (e : DirEntry) : (insertEntry s l e).sec.running = s.sec.running := by
  unfold insertEntry
  dsimp only
  repeat' split
  all_goals simp

@[simp] theorem sfInsert_running (s : State) (l : Nat) : (sfInsert s l).sec.running = s.sec.running := by
  unfold sfInsert
  dsimp only
  repeat' split
  all_goals simp

/-! ### Machine/Pool -/

@[simp] theorem poolMemRd_running (s : State) (p : Nat) : (poolMemRd s p).sec.running = s.sec.running := by
  unfold poolMemRd
  split <;> simp

@[simp] theorem poolMemWr_running (s : State) (p : Nat) : (poolMemWr s p).sec.running = s.sec.running := by
  unfold poolMemWr
  split <;> simp

@[simp] theorem wrPull_running (s : State) (p : Nat) : (wrPull s p).sec.running = s.sec.running := by
  unfold wrPull
  dsimp only
  repeat' split
  all_goals simp

@[simp] theorem poolMemData_running (s : State) (p : Nat) : (poolMemData s p).sec.running = s.sec.running := by
  unfold poolMemData
  dsimp only
  repeat' split
  all_goals simp

@[simp] theorem expanderResponse_running (s : State) (p : Nat) (dat : Bool) :
    (expanderResponse s p dat).sec.running = s.sec.running := by
  unfold expanderResponse
  dsimp only
  repeat' split
  all_goals simp

@[simp] theorem poolDown_running (s : State) (p : Nat) : (poolDown s p).sec.running = s.sec.running := by simp [poolDown]

/-! ### Machine/Sess -/

@[simp] theorem sessSet_running (s : State) (id : Nat) (idx : Nat) (sub : Nat) (v : Nat) :
    (sessSet s id idx sub v).sec.running = s.sec.running := rfl

@[simp] theorem closeSessions_running (s : State) (p : Session → Bool) : (closeSessions s p).sec.running = s.sec.running := rfl

/-! ### Machine/Cullet -/

@[simp] theorem culletWrite_running (s : State) (n : Nat) : (culletWrite s n).sec.running = s.sec.running := by simp [culletWrite]

@[simp] theorem culletMake_running (s : State) (kind origin location : Nat) (st : CulletState) :
    (culletMake s kind origin location st).sec.running = s.sec.running := by
  unfold culletMake
  split <;> simp

@[simp] theorem sliceRetire_running (s : State) (phys : Nat) (origin : Nat) :
    (sliceRetire s phys origin).sec.running = s.sec.running := by simp [sliceRetire]

/-! ### Machine/Moves -/

@[simp] theorem setMove_running (s : State) (m : Nat) (x : Move) : (setMove s m x).sec.running = s.sec.running := rfl

@[simp] theorem startWrite_running (s : State) (w : RemapWrite) : (startWrite s w).sec.running = s.sec.running := rfl

@[simp] theorem askWrite_running (s : State) (w : RemapWrite) : (askWrite s w).sec.running = s.sec.running := by
  unfold askWrite
  split <;> simp

@[simp] theorem remapEntryWrite_running (s : State) (g : Nat) (v : Nat) : (remapEntryWrite s g v).1.sec.running = s.sec.running := by
  simp [remapEntryWrite]

@[simp] theorem moveFree_running (s : State) (m : Nat) : (moveFree s m).sec.running = s.sec.running := by
  unfold moveFree
  split <;> simp

@[simp] theorem moveClear_running (s : State) (m : Nat) : (moveClear s m).sec.running = s.sec.running := by
  unfold moveClear
  split <;> simp

@[simp] theorem poisonRelease_running (s : State) (g : Nat) : (poisonRelease s g).sec.running = s.sec.running := by
  unfold poisonRelease
  refine foldl_from_running s _ _ _ (foldl_running _ _ _ fun t l => by simp) fun t p => ?_
  split <;> simp

@[simp] theorem sweepEntry_running (s : State) (g : Nat) : (sweepEntry s g).sec.running = s.sec.running := rfl

@[simp] theorem sweepIfLost_running (s : State) (g : Nat) : (sweepIfLost s g).sec.running = s.sec.running := by simp [sweepIfLost]

@[simp] theorem moveWritten_running (s : State) (m : Nat) (g : Nat) (last : Bool) :
    (moveWritten s m g last).sec.running = s.sec.running := by
  unfold moveWritten
  split <;> simp

@[simp] theorem writeDone_running (s : State) : (writeDone s).sec.running = s.sec.running := by
  unfold writeDone
  dsimp only
  repeat' split
  all_goals simp

theorem applyRun_running (s : State) (r : BitVec 128) (t : State) (h : applyRun s r = some t) : t.sec.running = s.sec.running := by
  unfold applyRun at h
  dsimp only at h
  split at h
  · cases h
  · cases h
    exact foldl_running _ _ _ fun t i => by simp

@[simp] theorem applyRuns_running (s : State) (rs : List (BitVec 128)) :
    (applyRuns s rs).1.sec.running = s.sec.running := by
  induction rs generalizing s with
  | nil => rfl
  | cons r rest ih =>
    unfold applyRuns
    split
    · rfl
    · rename_i t e
      have h := applyRun_running _ _ _ e
      simp [ih, h]

@[simp] theorem bulkLoad_running (s : State) (rs : List (BitVec 128)) : (bulkLoad s rs).1.sec.running = s.sec.running := by
  simp [bulkLoad]

@[simp] theorem startMove_running (s : State) (g : Nat) (dest : Nat) (restore : Bool) (owner : Option (Nat × Nat)) :
    (startMove s g dest restore owner).1.sec.running = s.sec.running := by
  unfold startMove
  repeat' split
  all_goals simp

theorem startMove_running_of (s : State) (g dest : Nat) (restore : Bool) (owner : Option (Nat × Nat)) (t : State)
    (r : Except Status Nat) (h : startMove s g dest restore owner = (t, r)) : t.sec.running = s.sec.running := by
  have := startMove_running s g dest restore owner
  rw [h] at this
  exact this

@[simp] theorem moveExecute_running (s : State) (sess g dest : Nat) (restore : Bool) :
    (moveExecute s sess g dest restore).1.sec.running = s.sec.running := by
  unfold moveExecute
  split <;> (rename_i e; simpa using startMove_running_of _ _ _ _ _ _ _ e)

theorem pageToken?_running (s : State) (cost : Nat) (t : State) (h : pageToken? s cost = some t) :
    t.sec.running = s.sec.running := by
  unfold pageToken? at h
  split at h
  · cases h
  · exact spend?_running _ _ _ _ h

@[simp] theorem paced_running (s : State) : (paced s).sec.running = s.sec.running := rfl

@[simp] theorem writePage_running (s : State) (m : Nat) (x : Move) (data : LineData) (poison : Bool) :
    (writePage s m x data poison).sec.running = s.sec.running := by simp [writePage]

@[simp] theorem pageStart_running (s : State) (m : Nat) :
    (pageStart s m).sec.running = s.sec.running := by
  unfold pageStart
  (repeat' split) <;> (try simp)
  all_goals (rename_i e; simpa using pageToken?_running _ _ _ e)

@[simp] theorem pageClear_running (s : State) (m : Nat) : (pageClear s m).sec.running = s.sec.running := by
  unfold pageClear
  split <;> simp

@[simp] theorem releasePage_running (s : State) (g p : Nat) : (releasePage s g p).sec.running = s.sec.running := by
  unfold releasePage
  generalize List.range 32 = slices
  refine foldl_running _ slices s fun t l => ?_
  refine foldl_from_running t _ _ _ (by simp) fun r q => ?_
  repeat' split
  all_goals simp

@[simp] theorem salvageEnd_running (s : State) (m : Nat) (x : Move) : (salvageEnd s m x).sec.running = s.sec.running := by
  simp [salvageEnd]

@[simp] theorem pageComplete_running (s : State) (m : Nat) : (pageComplete s m).sec.running = s.sec.running := by
  unfold pageComplete
  repeat' split
  all_goals simp

@[simp] theorem abandonPage_running (s : State) (m : Nat) (x : Move) : (abandonPage s m x).sec.running = s.sec.running := by
  simp [abandonPage]

@[simp] theorem salvagePage_running (s : State) (m : Nat) :
    (salvagePage s m).sec.running = s.sec.running := by
  unfold salvagePage
  (repeat' split) <;> (try simp)
  all_goals (rename_i e; simpa using pageToken?_running _ _ _ e)

@[simp] theorem restoreFilled_running (s : State) (m : Nat) : (restoreFilled s m).sec.running = s.sec.running := by
  unfold restoreFilled
  split <;> simp

@[simp] theorem dropWaiting_running (s : State) (m : Nat) : (dropWaiting s m).sec.running = s.sec.running := rfl

@[simp] theorem restoreLost_running (s : State) (m : Nat) (x : Move) : (restoreLost s m x).sec.running = s.sec.running := rfl

@[simp] theorem moveLost_running (s : State) (p : Nat) (mask : BitVec 16) (m : Nat) :
    (moveLost s p mask m).sec.running = s.sec.running := by
  unfold moveLost
  dsimp only
  repeat' split
  all_goals simp

@[simp] theorem moveLoss_running (s : State) (p : Nat) (mask : BitVec 16) : (moveLoss s p mask).sec.running = s.sec.running := by
  simp [moveLoss]

@[simp] theorem moveCancel_running (s : State) (m : Nat) : (moveCancel s m).1.sec.running = s.sec.running := by
  unfold moveCancel
  split <;> simp

@[simp] theorem setLine_running (s : State) (m : Nat) (x : Move) (i : Nat) (st : LineSt) :
    (setLine s m x i st).sec.running = s.sec.running := rfl

@[simp] theorem lineRead_running (s : State) (m : Nat) (x : Move) (i : Nat) (d : LineData) (poison : Bool) :
    (lineRead s m x i d poison).sec.running = s.sec.running := by simp [lineRead]

@[simp] theorem moverAnswer_running (s : State) (u : FUnit) : (moverAnswer s u).sec.running = s.sec.running := by
  unfold moverAnswer
  dsimp only
  repeat' split
  all_goals simp

@[simp] theorem sweepStep_running (s : State) :
    (sweepStep s).sec.running = s.sec.running := by
  unfold sweepStep
  split
  · rfl
  · dsimp only
    split
    · rfl
    · split
      · rfl
      · rename_i e
        generalize hr : List.foldl _ _ _ = r
        have k : r.sec.running = s.sec.running := by
          rw [← hr]
          exact foldl_from_running s _ _ _ (spend?_running _ _ _ _ e) fun t i => sweepEntry_running _ _
        exact k

@[simp] theorem poolLost_running (s : State) (p : Nat) (mask : BitVec 16) : (poolLost s p mask).sec.running = s.sec.running := by
  simp [poolLost]

@[simp] theorem abandonGranule_running (s : State) (g : Nat) : (abandonGranule s g).sec.running = s.sec.running := by
  unfold abandonGranule
  dsimp only
  repeat' split
  all_goals simp

@[simp] theorem abandonRange_running (s : State) (lo : Nat) (hi : Nat) : (abandonRange s lo hi).sec.running = s.sec.running := by
  simp [abandonRange]

/-! ### Machine/DirOps -/

@[simp] theorem showRemovals_running (s : State) : (showRemovals s).sec.running = s.sec.running := rfl

@[simp] theorem passStart_running (s : State) : (passStart s).sec.running = s.sec.running := by simp [passStart]

@[simp] theorem listRemoval_running (s : State) (sw : Bool) (id : Nat) : (listRemoval s sw id).sec.running = s.sec.running := by
  simp [listRemoval]

@[simp] theorem removeHost_running (s : State) (v : Nat) : (removeHost s v).sec.running = s.sec.running := by simp [removeHost]

@[simp] theorem passCached_running (s : State) (l : Nat) (line : BitVec 42) (c : Nat) (e : DirEntry) (i : Nat) (w : SfWay) :
    (passCached s l line c e i w).sec.running = s.sec.running := by simp [passCached]

@[simp] theorem passWay_running (s : State) (k : Nat) (w : SfWay) : (passWay s k w).sec.running = s.sec.running := by
  unfold passWay
  dsimp only
  repeat' split
  all_goals simp

@[simp] theorem passApply_running (s : State) (n : Nat) : (passApply s n).sec.running = s.sec.running := by simp [passApply]

@[simp] theorem passStep_running (s : State) : (passStep s).sec.running = s.sec.running := by
  unfold passStep
  split
  · rfl
  · split
    · rfl
    · dsimp only
      split
      · rfl
      · rename_i e
        simpa using spend?_running _ _ _ _ e

@[simp] theorem leaveList_running (s : State) (r : Removal) : (leaveList s r).sec.running = s.sec.running := rfl

@[simp] theorem takeWaiting_running (s : State) : (takeWaiting s).sec.running = s.sec.running := rfl

@[simp] theorem passComplete_running (s : State) : (passComplete s).sec.running = s.sec.running := by
  unfold passComplete
  split
  · rfl
  · split
    · rfl
    · simp only [passStart_running, takeWaiting_running]
      exact foldl_from_running s _ _ _ (by simp) fun t r => by simp

@[simp] theorem showRecovery_running (s : State) (i : Nat) : (showRecovery s i).sec.running = s.sec.running := rfl

@[simp] theorem setRecovery_running (s : State) (i : Nat) (r : Recovery) : (setRecovery s i r).sec.running = s.sec.running := rfl

@[simp] theorem recoverySettle_running (s : State) (i : Nat) (tell : Bool) : (recoverySettle s i tell).sec.running = s.sec.running := by
  simp [recoverySettle]

@[simp] theorem recoveryDropVcs_running (s : State) (v : Nat) (i : Nat) : (recoveryDropVcs s v i).sec.running = s.sec.running := by
  simp [recoveryDropVcs]

@[simp] theorem recoveryDropSwitch_running (s : State) (w : Nat) (i : Nat) : (recoveryDropSwitch s w i).sec.running = s.sec.running := by
  simp [recoveryDropSwitch]

@[simp] theorem recoveryAnswers_running (s : State) : (recoveryAnswers s).sec.running = s.sec.running := by simp [recoveryAnswers]

@[simp] theorem askedDone_running (s : State) (v : Nat) : (askedDone s v).sec.running = s.sec.running := by simp [askedDone]

@[simp] theorem recoveryVcs_running (s : State) (v : Nat) : (recoveryVcs s v).sec.running = s.sec.running := by simp [recoveryVcs]

@[simp] theorem recoveryAsk_running (s : State) (v : Nat) : (recoveryAsk s v).sec.running = s.sec.running := by simp [recoveryAsk]

@[simp] theorem recoveryPoison_running (s : State) (i : Nat) : (recoveryPoison s i).sec.running = s.sec.running := by
  simp [recoveryPoison]

@[simp] theorem abandonVcs_running (s : State) (i : Nat) (v : Nat) : (abandonVcs s i v).sec.running = s.sec.running := by
  simp [abandonVcs]

@[simp] theorem abandonSwitch_running (s : State) (i : Nat) (w : Nat) : (abandonSwitch s i w).sec.running = s.sec.running := by
  simp [abandonSwitch]

@[simp] theorem peerTrackers_running (s : State) (w : Nat) : (peerTrackers s w).sec.running = s.sec.running := by simp [peerTrackers]

@[simp] theorem declareLost_running (s : State) (w : Nat) : (declareLost s w).1.sec.running = s.sec.running := by simp [declareLost]

@[simp] theorem addWalk_running (s : State) (ext : Option (Nat × Nat × Nat)) (base : Nat) (limit : Nat) :
    (addWalk s ext base limit).sec.running = s.sec.running := rfl

@[simp] theorem flushRange_running (s : State) (base : Nat) (limit : Nat) : (flushRange s base limit).1.sec.running = s.sec.running := by
  simp [flushRange]

theorem walkLine_running (s : State) (w : Walk) (line : BitVec 42) (t : State) (h : walkLine s w line = some t) :
    t.sec.running = s.sec.running := by
  unfold walkLine at h
  dsimp only at h
  split at h
  · cases h
  · split at h
    · cases h; simp
    · split at h
      · cases h
      · split at h
        · cases h
        · rename_i e
          have k := pinLine_running _ _ _ _ e
          simp only [Option.some.injEq] at h
          subst h
          simp only [invalidateWith_running]
          split <;> simpa using k

@[simp] theorem walkLines_running (s : State) (w : Walk) (n x : Nat) :
    (walkLines s w n x).1.sec.running = s.sec.running := by
  induction n generalizing s x with
  | zero => rfl
  | succ n ih =>
    unfold walkLines
    split
    · rfl
    · split
      · rfl
      · rename_i e
        have h := walkLine_running _ _ _ _ e
        simp [ih, h]

@[simp] theorem walkStep_running (s : State) (i : Nat) : (walkStep s i).sec.running = s.sec.running := by
  unfold walkStep
  split
  · rfl
  · split
    · rfl
    · split
      · rfl
      · rename_i e
        have h := spend?_running _ _ _ _ e
        dsimp only
        split <;> simp [h]

@[simp] theorem walkComplete_running (s : State) (i : Nat) : (walkComplete s i).sec.running = s.sec.running := by
  unfold walkComplete
  split <;> simp

@[simp] theorem retireWay_running (s : State) (l : Nat) (w : Nat) : (retireWay s l w).sec.running = s.sec.running := by
  simp [retireWay]

@[simp] theorem cacheCorrected_running (s : State) (l : Nat) (w : Nat) : (cacheCorrected s l w).sec.running = s.sec.running := by
  simp [cacheCorrected]

@[simp] theorem payloadLost_running (s : State) (k j : Nat) : (payloadLost s k j).sec.running = s.sec.running := by
  unfold payloadLost
  dsimp only
  repeat' split
  all_goals simp

@[simp] theorem directoryError_running (s : State) (e : DirError) : (directoryError s e).sec.running = s.sec.running := by
  unfold directoryError
  dsimp only
  repeat' split
  all_goals simp

@[simp] theorem marverStep_running (s : State) (blocks : Nat) (way : Option (Fin 32 × Fin 16)) :
    (marverStep s blocks way).sec.running = s.sec.running := by
  unfold marverStep
  split
  · rfl
  · rename_i e
    have h := spend?_running _ _ _ _ e
    dsimp only
    split <;> simpa using h

@[simp] theorem partitionCommit_running (s : State) : (partitionCommit s).1.sec.running = s.sec.running := by simp [partitionCommit]

/-! ### Machine/Guard -/

@[simp] theorem setShadowRule_running (s : State) (i : Nat) (r : GuardRule) : (setShadowRule s i r).sec.running = s.sec.running := rfl

@[simp] theorem guardCommit_running (s : State) : (guardCommit s).1.sec.running = s.sec.running := by simp [guardCommit]

@[simp] theorem guardComplete_running (s : State) : (guardComplete s).sec.running = s.sec.running := rfl

@[simp] theorem guardSwap_running (s : State) (g : Nat) : (guardSwap s g).sec.running = s.sec.running := by simp [guardSwap]

@[simp] theorem guardCopy_running (s : State) : (guardCopy s).1.sec.running = s.sec.running := by simp [guardCopy]

/-! ### Machine/Inject -/

@[simp] theorem entryDecoded_running (s : State) (v : Nat) (t : Nat) (q : Nat × BitVec 42) :
    (entryDecoded s v t q).sec.running = s.sec.running := rfl

@[simp] theorem niTake_running (s : State) (n : Nat) (a : Nat) (v : Vn) (id : Nat) :
    (niTake s n a v id).sec.running = s.sec.running := rfl

theorem requestStopped_running (s : State) (v : Nat) (h : Held) (a : BitVec 46) (t : State) (h : requestStopped s v h a = some t) :
    t.sec.running = s.sec.running := by
  unfold requestStopped at h
  dsimp only at h
  (repeat' split at h) <;> simp at h
  all_goals subst h; simp

@[simp] theorem requestDecoded_running (s : State) (h : Held) : (requestDecoded s h).sec.running = s.sec.running := by
  unfold requestDecoded
  repeat' split
  all_goals simp

theorem markedUnit_running (s : State) (n : Nat) (h : Held) (t : State) (h : markedUnit s n h = some t) :
    t.sec.running = s.sec.running := by
  unfold markedUnit at h
  dsimp only at h
  (repeat' split at h) <;> simp at h
  all_goals subst h; simp

@[simp] theorem injectCopies_running (s : State) (n : Nat) (h : Held) (ds : List Nat) :
    (injectCopies s n h ds).sec.running = s.sec.running :=
  foldl_running _ _ _ fun t d => by simp

@[simp] theorem inject_running (s : State) (n a : Nat) (v : Vn) :
    (inject s n a v).sec.running = s.sec.running := by
  unfold inject
  split
  · rfl
  · dsimp only
    split
    · rename_i e
      split at e
      · split at e
        · have k := requestStopped_running _ _ _ _ _ e; simp [k]
        · cases e
      · cases e
    · split
      · rfl
      · split
        · rename_i e; have k := markedUnit_running _ _ _ _ e; simp [k]
        · split
          · split <;> simp
          · split
            · simp
            · split
              · split
                · simp
                · split
                  · rename_i e; have k := refusedAt_running _ _ _ _ _ e; simp [k]
                  · split
                    · rename_i e; have k := tryEject_running _ _ _ _ _ e; simp [k]
                    · simp
              · split <;> simp

/-! ### Machine/MovAccess -/

@[simp] theorem takeNo_running (s : State) : (takeNo s).sec.running = s.sec.running := rfl

@[simp] theorem guardPart_running (s : State) (v : Nat) (rd : Bool) (wr : Bool) (x : MovPart) :
    (guardPart s v rd wr x).1.sec.running = s.sec.running := by
  unfold guardPart
  split <;> simp

@[simp] theorem guardParts_running (s : State) (v : Nat) (rd wr : Bool) (ps : List MovPart) :
    (guardParts s v rd wr ps).1.sec.running = s.sec.running := by simp [guardParts]

@[simp] theorem openAccess_running (s : State) (fn : Option Nat) (v : Nat) (write : Bool) (guarded : Bool) (use : MovUse) (addr :
    Nat) (len : Nat) (data : List Byte) (poison : Nat → Bool) :
    (openAccess s fn v write guarded use addr len data poison).sec.running = s.sec.running := by simp [openAccess]

@[simp] theorem setPart_running (s : State) (id : Nat) (off : Nat) (f : MovPart → MovPart) :
    (setPart s id off f).sec.running = s.sec.running := rfl

@[simp] theorem cacheRequest_running (s : State) (ty : Nat) (tag : Nat) (h : Nat) (l : BitVec 42) (nacks : Nat) (senior :
    Bool) (first : BitVec 32) (mask : BitVec 64) :
    (cacheRequest s ty tag h l nacks senior first mask).sec.running = s.sec.running := by simp [cacheRequest]

@[simp] theorem sendPart_running (s : State) (write : Bool) (x : MovPart) (h : Nat) (l : BitVec 42) :
    (sendPart s write x h l).sec.running = s.sec.running := by simp [sendPart]

@[simp] theorem sendHostPart_running (s : State) (fn : Option Nat) (v : Nat) (p : Nat) (write : Bool) (x : MovPart) :
    (sendHostPart s fn v p write x).sec.running = s.sec.running := by simp [sendHostPart]

@[simp] theorem issuePart_running (s : State) (a : MovAcc) (x : MovPart) : (issuePart s a x).sec.running = s.sec.running := by
  unfold issuePart
  repeat' split
  all_goals simp

@[simp] theorem issueParts_running (s : State) : (issueParts s).sec.running = s.sec.running := by simp [issueParts]

@[simp] theorem npDone_running (s : State) (tag : BitVec 16) : (npDone s tag).sec.running = s.sec.running := rfl

@[simp] theorem hostUnit_running (s : State) (h : Held) : (hostUnit s h).sec.running = s.sec.running := by
  unfold hostUnit
  repeat' split
  all_goals simp

@[simp] theorem writesGone_running (s : State) : (writesGone s).sec.running = s.sec.running := rfl

@[simp] theorem hostTimeouts_running (s : State) : (hostTimeouts s).sec.running = s.sec.running := by
  unfold hostTimeouts
  exact foldl_running _ _ _ fun t g => by simp

@[simp] theorem absorbHost_running (s : State) : (absorbHost s).sec.running = s.sec.running := by simp [absorbHost]

@[simp] theorem cacheBackoff_running (s : State) (n : Nat) : (cacheBackoff s n).1.sec.running = s.sec.running := rfl

@[simp] theorem countSenior_running (s : State) (n : Nat) : (countSenior s n).sec.running = s.sec.running := by simp [countSenior]

@[simp] theorem partAnswer_running (s : State) (a : MovAcc) (x : MovPart) (u : FUnit) :
    (partAnswer s a x u).sec.running = s.sec.running := by
  unfold partAnswer
  repeat' split
  all_goals simp

@[simp] theorem partAgain_running (s : State) (a : MovAcc) (x : MovPart) : (partAgain s a x).sec.running = s.sec.running := by
  unfold partAgain
  split <;> simp

@[simp] theorem accessCounted_running (s : State) (a : MovAcc) : (accessCounted s a).sec.running = s.sec.running := by
  unfold accessCounted
  split <;> simp

/-! ### Machine/MovCache -/

@[simp] theorem setMcLines_running (s : State) (k : Nat) (ls : List CacheLine) : (setMcLines s k ls).sec.running = s.sec.running :=
  rfl

@[simp] theorem mcPut_running (s : State) (x : CacheLine) : (mcPut s x).sec.running = s.sec.running := rfl

@[simp] theorem mcDrop_running (s : State) (h : Nat) (l : BitVec 42) : (mcDrop s h l).sec.running = s.sec.running := rfl

@[simp] theorem setEvict_running (s : State) (e : CacheEvict) : (setEvict s e).sec.running = s.sec.running := rfl

@[simp] theorem sendEvict_running (s : State) (e : CacheEvict) : (sendEvict s e).sec.running = s.sec.running := by
  unfold sendEvict
  split <;> simp

theorem evictLine_running (s : State) (x : CacheLine) (t : State × Nat) (h : evictLine s x = some t) :
    t.1.sec.running = s.sec.running := by
  simp only [evictLine, Option.map_eq_some_iff] at h
  obtain ⟨n, -, h⟩ := h
  rw [← h]
  simp

@[simp] theorem applyAtom_running (s : State) (x : CacheLine) (o : AtomOp) : (applyAtom s x o).1.sec.running = s.sec.running := by
  simp [applyAtom]

@[simp] theorem runOps_running (s : State) (h : Nat) (l : BitVec 42) (fail : Option Nat) :
    (runOps s h l fail).1.sec.running = s.sec.running := by
  unfold runOps
  refine foldl_fst_from_running s _ _ _ rfl fun r o => ?_
  dsimp only
  split <;> simp

@[simp] theorem askLine_running (s : State) (h : Nat) (l : BitVec 42) (owner : Option Nat) :
    (askLine s h l owner).sec.running = s.sec.running := by
  unfold askLine
  repeat' split
  all_goals simp

@[simp] theorem askLines_running (s : State) : (askLines s).sec.running = s.sec.running := by simp [askLines]

@[simp] theorem startOp_running (s : State) (o : AtomOp) : (startOp s o).1.sec.running = s.sec.running := by simp [startOp]

@[simp] theorem fillData_running (s : State) (f : CacheFill) (d : LineData) (poison : Bool) :
    (fillData s f d poison).1.sec.running = s.sec.running := by
  unfold fillData
  dsimp only
  split
  · rename_i v _
    cases h : evictLine { s with mov := { s.mov with fills := s.mov.fills.filter fun e => decide (e.tag ≠ f.tag) } } v with
    | none => simp
    | some t => simpa using evictLine_running _ _ _ h
  · simp

@[simp] theorem fillAnswer_running (s : State) (f : CacheFill) (u : FUnit) : (fillAnswer s f u).1.sec.running = s.sec.running := by
  unfold fillAnswer
  repeat' split
  all_goals simp

@[simp] theorem evictDone_running (s : State) (e : CacheEvict) : (evictDone s e).sec.running = s.sec.running := by simp [evictDone]

@[simp] theorem evictWrOwn_running (s : State) (e : CacheEvict) : (evictWrOwn s e).sec.running = s.sec.running := by
  unfold evictWrOwn
  split <;> simp

@[simp] theorem evictAnswer_running (s : State) (e : CacheEvict) (u : FUnit) : (evictAnswer s e u).sec.running = s.sec.running := by
  unfold evictAnswer
  repeat' split
  all_goals simp

@[simp] theorem fillRefused_running (s : State) (f : CacheFill) (v : Nat) : (fillRefused s f v).1.sec.running = s.sec.running := by
  simp [fillRefused]

@[simp] theorem fillAgain_running (s : State) (f : CacheFill) : (fillAgain s f).1.sec.running = s.sec.running := by
  unfold fillAgain
  split <;> simp

@[simp] theorem cacheAgain_running (s : State) (t : Nat) : (cacheAgain s t).1.sec.running = s.sec.running := by
  unfold cacheAgain
  split <;> simp

@[simp] theorem cacheReply_running (s : State) (u : FUnit) (b : SnpFields) (d : LineData) (poison : Bool) (dirty : Bool) (keptS : Bool) :
    (cacheReply s u b d poison dirty keptS).sec.running = s.sec.running := by simp [cacheReply]

@[simp] theorem cacheSnoop_running (s : State) (u : FUnit) : (cacheSnoop s u).sec.running = s.sec.running := by
  unfold cacheSnoop
  dsimp only
  split <;> simp

/-! ### Machine/MovExec -/

@[simp] theorem setSq_running (s : State) (q : Nat) (x : SubQ) : (setSq s q x).sec.running = s.sec.running := rfl

@[simp] theorem setCq_running (s : State) (q : Nat) (x : CompQ) : (setCq s q x).sec.running = s.sec.running := rfl

@[simp] theorem setExec_running (s : State) (e : Exec) : (setExec s e).sec.running = s.sec.running := rfl

@[simp] theorem startPiece_running (s : State) (e : Exec) : (startPiece s e).sec.running = s.sec.running := by
  unfold startPiece
  dsimp only
  split <;> simp

theorem spendFor?_running (s : State) (fn cost : Nat) (t : State) (h : spendFor? s fn cost = some t) :
    t.sec.running = s.sec.running := by
  unfold spendFor? at h
  rw [Option.map_eq_some_iff] at h
  obtain ⟨u, e, rfl⟩ := h
  have k := spend?_running _ _ _ _ e
  simp [k]

@[simp] theorem startPieces_running (s : State) (x n : Nat) :
    (startPieces s x n).sec.running = s.sec.running := by
  induction n generalizing s with
  | zero => rfl
  | succ n ih =>
    unfold startPieces
    split
    · simp
    · split
      · split
        · simp
        · rename_i e; have k := spendFor?_running _ _ _ _ e; simp [ih, k]
      · simp

@[simp] theorem unitsShown_running (s : State) : (unitsShown s).sec.running = s.sec.running := rfl

@[simp] theorem startExec_running (s : State) (x : Nat) : (startExec s x).sec.running = s.sec.running := by
  unfold startExec
  split <;> simp

@[simp] theorem startWaiting_running (s : State) : (startWaiting s).sec.running = s.sec.running := by simp [startWaiting]

@[simp] theorem eatPieces_running (s : State) (x n : Nat) :
    (eatPieces s x n).sec.running = s.sec.running := by
  induction n generalizing s with
  | zero => rfl
  | succ n ih =>
    unfold eatPieces
    split
    · rfl
    · split
      · rfl
      · split
        · simp [ih]
        · rfl

@[simp] theorem sourceDone_running (s : State) (e : Exec) (off : Nat) (a : MovAcc) :
    (sourceDone s e off a).sec.running = s.sec.running := by simp [sourceDone]

@[simp] theorem compareDone_running (s : State) (e : Exec) (off : Nat) (a : MovAcc) (b : MovAcc) :
    (compareDone s e off a b).sec.running = s.sec.running := rfl

@[simp] theorem destDone_running (s : State) (e : Exec) (off : Nat) (a : MovAcc) : (destDone s e off a).sec.running = s.sec.running :=
  rfl

@[simp] theorem contextDone_running (s : State) (e : Exec) (a : MovAcc) : (contextDone s e a).sec.running = s.sec.running := by
  unfold contextDone
  split <;> simp

@[simp] theorem atomDone_running (s : State) (x : Nat) (r : AtomEnd) : (atomDone s x r).sec.running = s.sec.running := by
  unfold atomDone
  repeat' split
  all_goals simp

@[simp] theorem wrapUp_running (s : State) (x : Nat) : (wrapUp s x).sec.running = s.sec.running := by
  unfold wrapUp
  dsimp only
  repeat' split
  all_goals simp

@[simp] theorem dropAccess_running (s : State) (id : Nat) : (dropAccess s id).sec.running = s.sec.running := rfl

@[simp] theorem lcbDone_running (s : State) (c : Nat) (a : MovAcc) : (lcbDone s c a).sec.running = s.sec.running := by simp [lcbDone]

@[simp] theorem settleOne_running (s : State) (a : MovAcc) : (settleOne s a).sec.running = s.sec.running := by
  unfold settleOne
  dsimp only
  repeat' split
  all_goals simp

@[simp] theorem settleAll_running (n : Nat) (s : State) :
    (settleAll n s).sec.running = s.sec.running := by
  induction n generalizing s with
  | zero => rfl
  | succ n ih =>
    unfold settleAll
    split
    · rfl
    · simp [ih]

@[simp] theorem evictRange_running (s : State) (hit : CacheLine → Bool) :
    (evictRange s hit).1.sec.running = s.sec.running := by
  unfold evictRange
  refine foldl_fst_from_running s _ _ _ rfl fun r a => ?_
  split
  · rename_i e; have k := evictLine_running _ _ _ e; exact k
  · simp

@[simp] theorem flushScan_running (s : State) (x : Nat) : (flushScan s x).sec.running = s.sec.running := by
  unfold flushScan
  split <;> simp

@[simp] theorem flushAllScan_running (s : State) : (flushAllScan s).sec.running = s.sec.running := by simp [flushAllScan]

@[simp] theorem moverTurn_running (s : State) : (moverTurn s).sec.running = s.sec.running := by simp [moverTurn]

/-! ### Machine/MovQueue -/

@[simp] theorem raiseVector_running (s : State) (fn : Nat) (v : Nat) : (raiseVector s fn v).sec.running = s.sec.running := by
  simp [raiseVector]

@[simp] theorem silentWrite_running (s : State) (fn : Nat) (addr : Nat) (data : List Byte) :
    (silentWrite s fn addr data).sec.running = s.sec.running := by simp [silentWrite]

@[simp] theorem qcbStatus_running (s : State) (owner : Nat) (qcb : Nat) (st : QueueSt) (full : Bool) (err : Nat) :
    (qcbStatus s owner qcb st full err).sec.running = s.sec.running := by simp [qcbStatus]

@[simp] theorem sqStatus_running (s : State) (q : Nat) : (sqStatus s q).sec.running = s.sec.running := by simp [sqStatus]

@[simp] theorem cqStatus_running (s : State) (q : Nat) : (cqStatus s q).sec.running = s.sec.running := by simp [cqStatus]

@[simp] theorem sqIndex_running (s : State) (q : Nat) : (sqIndex s q).sec.running = s.sec.running := by simp [sqIndex]

@[simp] theorem cqIndex_running (s : State) (q : Nat) : (cqIndex s q).sec.running = s.sec.running := by simp [cqIndex]

@[simp] theorem queueError_running (s : State) (fn : Nat) (isCq : Bool) (loc : Nat) :
    (queueError s fn isCq loc).sec.running = s.sec.running := by simp [queueError]

@[simp] theorem cancelFetches_running (s : State) (q : Nat) : (cancelFetches s q).sec.running = s.sec.running := rfl

@[simp] theorem sqError_running (s : State) (q : Nat) (code : Nat) : (sqError s q code).sec.running = s.sec.running := by
  simp [sqError]

@[simp] theorem qcbRead_running (s : State) (fn : Nat) (addr : Nat) (use : MovUse) :
    (qcbRead s fn addr use).sec.running = s.sec.running := by simp [qcbRead]

@[simp] theorem sqRead_running (s : State) (q : Nat) : (sqRead s q).sec.running = s.sec.running := by simp [sqRead]

@[simp] theorem cqRead_running (s : State) (q : Nat) : (cqRead s q).sec.running = s.sec.running := by simp [cqRead]

theorem takeAccess_running (s : State) (use : MovUse) (t : State × MovAcc) (h : takeAccess s use = some t) :
    t.1.sec.running = s.sec.running := by
  simp only [takeAccess, Option.map_eq_some_iff] at h
  obtain ⟨a, -, rfl⟩ := h
  simp

@[simp] theorem queueEnable_running (s : State) (fn : Nat) (isCq : Bool) (loc : Nat) (addr : Nat) :
    (queueEnable s fn isCq loc addr).sec.running = s.sec.running := by
  unfold queueEnable
  repeat' split
  all_goals simp

@[simp] theorem sqEnabled_running (s : State) (q : Nat) :
    (sqEnabled s q).sec.running = s.sec.running := by
  unfold sqEnabled
  split
  · rfl
  · rename_i e
    have h := takeAccess_running _ _ _ e
    dsimp only
    split <;> simpa using h

@[simp] theorem cqEnabled_running (s : State) (q : Nat) :
    (cqEnabled s q).sec.running = s.sec.running := by
  unfold cqEnabled
  split
  · rfl
  · rename_i e
    have h := takeAccess_running _ _ _ e
    dsimp only
    split <;> simpa using h

@[simp] theorem queueDisable_running (s : State) (fn : Nat) (isCq : Bool) (loc : Nat) :
    (queueDisable s fn isCq loc).sec.running = s.sec.running := by
  unfold queueDisable
  dsimp only
  repeat' split
  all_goals simp

@[simp] theorem stopComplete_running (s : State) (q : Nat) : (stopComplete s q).sec.running = s.sec.running := by simp [stopComplete]

@[simp] theorem doorbellIgnored_running (s : State) (fn : Nat) : (doorbellIgnored s fn).sec.running = s.sec.running := by
  simp [doorbellIgnored]

@[simp] theorem sqDoorbell_running (s : State) (fn : Nat) (loc : Nat) : (sqDoorbell s fn loc).1.sec.running = s.sec.running := by
  unfold sqDoorbell
  split <;> simp

@[simp] theorem cqDoorbell_running (s : State) (fn : Nat) (loc : Nat) : (cqDoorbell s fn loc).1.sec.running = s.sec.running := by
  unfold cqDoorbell
  split <;> simp

@[simp] theorem ringDoorbell_running (s : State) (fn value : Nat) : (ringDoorbell s fn value).1.sec.running = s.sec.running := by
  simp [ringDoorbell]

@[simp] theorem writeHeld_running (s : State) (q : Nat) (raise : Bool) (n : Nat) :
    (writeHeld s q raise n).1.sec.running = s.sec.running := by
  induction n generalizing s raise with
  | zero => rfl
  | succ n ih =>
    unfold writeHeld
    dsimp only
    split
    · rfl
    · split
      · simp [ih]
      · rfl

@[simp] theorem poolShown_running (s : State) : (poolShown s).sec.running = s.sec.running := rfl

@[simp] theorem drainHold_running (s : State) (q : Nat) : (drainHold s q).sec.running = s.sec.running := by simp [drainHold]

@[simp] theorem freeSlot_running (s : State) (q : Nat) : (freeSlot s q).sec.running = s.sec.running := rfl

@[simp] theorem countStatus_running (s : State) (fn : Nat) (st : Nat) : (countStatus s fn st).sec.running = s.sec.running := by
  simp [countStatus]

@[simp] theorem completeExec_running (s : State) (e : Exec) : (completeExec s e).sec.running = s.sec.running := by simp [completeExec]

@[simp] theorem cqReadDone_running (s : State) (q : Nat) :
    (cqReadDone s q).sec.running = s.sec.running := by
  unfold cqReadDone
  split
  · rfl
  · rename_i e; simpa using takeAccess_running _ _ _ e

@[simp] theorem fetchMore_running (s : State) (q n : Nat) :
    (fetchMore s q n).sec.running = s.sec.running := by
  induction n generalizing s with
  | zero => rfl
  | succ n ih =>
    unfold fetchMore
    dsimp only
    split
    · split <;> simp [ih]
    · rfl

@[simp] theorem sqReadDone_running (s : State) (q : Nat) :
    (sqReadDone s q).sec.running = s.sec.running := by
  unfold sqReadDone
  split
  · rfl
  · rename_i e
    have h := takeAccess_running _ _ _ e
    dsimp only
    split
    · simpa using h
    · split
      · simpa using h
      · split
        · simpa using h
        · split <;> simpa using h

@[simp] theorem fetched_running (s : State) (q : Nat) (i : BitVec 32) (a : MovAcc) : (fetched s q i a).sec.running = s.sec.running := by
  simp [fetched]

@[simp] theorem startMigrate_running (s : State) (e : Exec) :
    (startMigrate s e).1.sec.running = s.sec.running := by
  unfold startMigrate
  dsimp only
  split
  · rfl
  · split
    · rfl
    · split
      · rfl
      · split
        · simp
        · split <;> (rename_i e; exact startMove_running_of _ _ _ _ _ _ _ e)

@[simp] theorem startAtom_running (s : State) (e : Exec) (k : AtomKind) : (startAtom s e k).1.sec.running = s.sec.running := by
  unfold startAtom
  split <;> simp

@[simp] theorem startDesc_running (s : State) (e : Exec) :
    (startDesc s e).sec.running = s.sec.running := by
  unfold startDesc
  dsimp only
  split
  · simp
  · simp
  · split
    · exact foldl_from_running s _ _ _ (by simp) fun t q => by split <;> simp
    · rfl
  · simp
  · simp
  · have h := startMigrate_running s e
    split <;> (rename_i k; rw [k] at h; simpa using h)
  · simp

@[simp] theorem dispatch_running (s : State) (q : Nat) (d : BitVec 512) :
    (dispatch s q d).sec.running = s.sec.running := by
  unfold dispatch
  dsimp only
  split
  · rfl
  · rename_i e
    have k := spendFor?_running _ _ _ _ e
    split <;> simp [k]

@[simp] theorem afterDispatch_running (s : State) (q : Nat) : (afterDispatch s q).sec.running = s.sec.running := by
  simp [afterDispatch]

@[simp] theorem dispatchReserved_running (s : State) (q n : Nat) :
    (dispatchReserved s q n).sec.running = s.sec.running := by
  induction n generalizing s with
  | zero => rfl
  | succ n ih =>
    unfold dispatchReserved
    split
    · rfl
    · dsimp only
      split
      · split
        · rfl
        · simp [ih]
      · rfl

@[simp] theorem withheld_running (s : State) (q : Nat) : (withheld s q).sec.running = s.sec.running := by simp [withheld]

@[simp] theorem dispatchRow_running (s : State) (q : Nat) (r : DescRow) : (dispatchRow s q r).sec.running = s.sec.running := by
  unfold dispatchRow
  split <;> simp

@[simp] theorem fetchDone_running (s : State) (q n : Nat) :
    (fetchDone s q n).sec.running = s.sec.running := by
  induction n generalizing s with
  | zero => rfl
  | succ n ih =>
    unfold fetchDone
    split
    · rfl
    · simp [ih]

@[simp] theorem pieceComplete_running (s : State) (e : Exec) : (pieceComplete s e).sec.running = s.sec.running := by
  simp [pieceComplete]

@[simp] theorem descriptorComplete_running (s : State) (q : Nat) (i : BitVec 32) :
    (descriptorComplete s q i).sec.running = s.sec.running := by
  unfold descriptorComplete
  split <;> simp

@[simp] theorem moverSafe_running (s : State) : (moverSafe s).sec.running = s.sec.running := rfl

@[simp] theorem functionWorkStops_running (s : State) (fn : Nat) : (functionWorkStops s fn).sec.running = s.sec.running := rfl

@[simp] theorem dropGone_running (s : State) : (dropGone s).sec.running = s.sec.running := rfl

@[simp] theorem unitOwner_running (s : State) (u : Nat) (fn : Nat) : (unitOwner s u fn).1.sec.running = s.sec.running := by
  simp [unitOwner]

@[simp] theorem unitContext_running (s : State) (u : Nat) (w : BitVec 512) : (unitContext s u w).1.sec.running = s.sec.running := by
  simp [unitContext]

/-! ### Machine/MovPool -/

@[simp] theorem takePacket_running (s : State) (vn : Vn) (h : Held) : (takePacket s vn h).sec.running = s.sec.running := rfl

@[simp] theorem takeEarlier_running (s : State) (vn : Vn) (h : Held) : (takeEarlier s vn h).sec.running = s.sec.running := rfl

@[simp] theorem tlpComplete_running (s : State) (w : TlpWork) (t : Tlp) : (tlpComplete s w t).sec.running = s.sec.running := by
  simp [tlpComplete]

@[simp] theorem dropWork_running (s : State) (w : TlpWork) : (dropWork s w).sec.running = s.sec.running := rfl

@[simp] theorem tlpAtomDone_running (s : State) (no : Nat) (width : Nat) (r : AtomEnd) :
    (tlpAtomDone s no width r).sec.running = s.sec.running := by
  unfold tlpAtomDone
  repeat' split
  all_goals simp

@[simp] theorem atomsDone_running (s : State) (rs : List (AtomOp × AtomEnd)) : (atomsDone s rs).sec.running = s.sec.running := by
  simp [atomsDone]

@[simp] theorem startWork_running (s : State) (w : TlpWork) : (startWork s w).sec.running = s.sec.running := by
  unfold startWork
  dsimp only
  repeat' split
  all_goals simp

@[simp] theorem startWorks_running (s : State) : (startWorks s).sec.running = s.sec.running :=
  foldl_running _ _ _ fun t w => by
    split
    · split <;> simp
    · rfl

@[simp] theorem readEnd_running (s : State) (w : TlpWork) (a : MovAcc) : (readEnd s w a).sec.running = s.sec.running := by
  simp [readEnd]

@[simp] theorem writeEnd_running (s : State) (w : TlpWork) (a : MovAcc) : (writeEnd s w a).sec.running = s.sec.running := by
  unfold writeEnd
  repeat' split
  all_goals simp

@[simp] theorem endWorks_running (s : State) : (endWorks s).sec.running = s.sec.running :=
  foldl_running _ _ _ fun t w => by
    split
    · rfl
    · dsimp only
      split <;> simp

@[simp] theorem poolTurn_running (s : State) : (poolTurn s).sec.running = s.sec.running := by simp [poolTurn]

@[simp] theorem takeRequest_running (s : State) (vn : Vn) (k : TlpKind) (atomic : Bool) :
    (takeRequest s vn k atomic).sec.running = s.sec.running := by
  unfold takeRequest
  split <;> simp

@[simp] theorem cacheAnswer_running (s : State) (u : FUnit) : (cacheAnswer s u).sec.running = s.sec.running := by
  unfold cacheAnswer
  dsimp only
  repeat' split
  all_goals simp

@[simp] theorem cacheBackoffEnd_running (s : State) (t : Nat) : (cacheBackoffEnd s t).sec.running = s.sec.running := by
  unfold cacheBackoffEnd
  split <;> simp

/-! ### Machine/Veneer -/

@[simp] theorem functionReset_running (s : State) (n : Nat) : (functionReset s n).sec.running = s.sec.running := by
  simp [functionReset]

@[simp] theorem resetVeneers_running (s : State) (v : Nat) : (resetVeneers s v).sec.running = s.sec.running := by simp [resetVeneers]

@[simp] theorem resetFunctions_running (s : State) (v : Nat) : (resetFunctions s v).sec.running = s.sec.running := by
  simp [resetFunctions]

@[simp] theorem resetComplete_running (s : State) (n : Nat) : (resetComplete s n).sec.running = s.sec.running := by
  simp [resetComplete]

@[simp] theorem dropPieces_running (s : State) : (dropPieces s).sec.running = s.sec.running :=
  foldl_running _ _ _ fun t e => by
    split
    · split <;> simp
    · rfl

@[simp] theorem functionLevelReset_running (s : State) (n : Nat) : (functionLevelReset s n).sec.running = s.sec.running := by
  simp [functionLevelReset]

@[simp] theorem functionAssign_running (s : State) (f v j : Nat) : (functionAssign s f v j).1.sec.running = s.sec.running := by
  unfold functionAssign
  split <;> simp

@[simp] theorem functionUnassign_running (s : State) (f : Nat) : (functionUnassign s f).1.sec.running = s.sec.running := by
  simp [functionUnassign]

@[simp] theorem queuesShown_running (s : State) (n : Nat) : (queuesShown s n).sec.running = s.sec.running := rfl

@[simp] theorem ownersShown_running (s : State) (old : Nat) (new : Nat) : (ownersShown s old new).sec.running = s.sec.running := by
  simp [ownersShown]

@[simp] theorem queueMove_running (s : State) (isCq : Bool) (q : Nat) (new : Nat) (loc : Nat) :
    (queueMove s isCq q new loc).1.sec.running = s.sec.running := by simp [queueMove]

@[simp] theorem queueMoveCmd_running (s : State) (sess : Nat) (isCq : Bool) (q : Nat) (new : Nat) (loc : Nat) :
    (queueMoveCmd s sess isCq q new loc).1.sec.running = s.sec.running := by simp [queueMoveCmd]

@[simp] theorem shareMove_running (s : State) (a : Nat) (b : Nat) (n : Nat) : (shareMove s a b n).1.sec.running = s.sec.running := by
  simp [shareMove]

@[simp] theorem setMoveTo_running (s : State) (c : Nat) (new : Nat) : (setMoveTo s c new).1.sec.running = s.sec.running := by
  simp [setMoveTo]

@[simp] theorem logDoorbell_running (s : State) (v : Nat) (c : Nat) : (logDoorbell s v c).sec.running = s.sec.running := by
  simp [logDoorbell]

@[simp] theorem rearmDone_running (s : State) (c : Nat) : (rearmDone s c).sec.running = s.sec.running := by
  unfold rearmDone
  dsimp only
  split <;> simp

@[simp] theorem logResetting_running (s : State) (c : Nat) (x : LogCh) (i : BitVec 32) :
    (logResetting s c x i).sec.running = s.sec.running := by simp [logResetting]

@[simp] theorem logEnable_running (s : State) (c : Nat) (lcb : Option (BitVec 512)) :
    (logEnable s c lcb).1.sec.running = s.sec.running := by
  unfold logEnable
  split <;> simp

@[simp] theorem logDisable_running (s : State) (c : Nat) : (logDisable s c).1.sec.running = s.sec.running := by simp [logDisable]

@[simp] theorem resetBitmap_running (s : State) (c : Nat) (i : BitVec 32) : (resetBitmap s c i).1.sec.running = s.sec.running := by
  simp [resetBitmap]

@[simp] theorem bitmapCleared_running (s : State) (c : Nat) : (bitmapCleared s c).sec.running = s.sec.running := by
  simp [bitmapCleared]

/-! ### Machine/Aulum -/

@[simp] theorem setLink_running (s : State) (a : Nat) (st : Nat) : (setLink s a st).sec.running = s.sec.running := rfl

@[simp] theorem sendControl_running (s : State) (a : Nat) (kind : Nat) (lane : Nat) (spare : Nat) :
    (sendControl s a kind lane spare).sec.running = s.sec.running := rfl

@[simp] theorem gotControl_running (s : State) (a : Nat) : (gotControl s a).sec.running = s.sec.running := rfl

@[simp] theorem aulumDown_running (s : State) (a : Nat) : (aulumDown s a).sec.running = s.sec.running := rfl

@[simp] theorem aulumLinkLost_running (s : State) (a : Nat) : (aulumLinkLost s a).sec.running = s.sec.running := by
  simp [aulumLinkLost]

@[simp] theorem startTraining_running (s : State) (a : Nat) : (startTraining s a).sec.running = s.sec.running := rfl

@[simp] theorem tryTraining_running (s : State) (a : Nat) : (tryTraining s a).sec.running = s.sec.running := by simp [tryTraining]

@[simp] theorem drawEpoch_running (s : State) : (drawEpoch s).1.sec.running = s.sec.running := rfl

@[simp] theorem drawPortEpoch_running (s : State) (a : Nat) : (drawPortEpoch s a).sec.running = s.sec.running := rfl

@[simp] theorem aulumIslandOpen_running (s : State) (a : Nat) : (aulumIslandOpen s a).sec.running = s.sec.running := by
  simp [aulumIslandOpen]

@[simp] theorem restartAnswer_running (s : State) : (restartAnswer s).sec.running = s.sec.running := rfl

@[simp] theorem proxyQuarantine_running (s : State) (v : Nat) (t : Nat) (l : BitVec 42) :
    (proxyQuarantine s v t l).sec.running = s.sec.running := rfl

@[simp] theorem restartProxy_running (s : State) (w : Option Nat) (start : Nat) (v : Nat) :
    (restartProxy s w start v).sec.running = s.sec.running := by
  unfold restartProxy
  split <;> simp

@[simp] theorem restartSlice_running (s : State) (w : Option Nat) (start l : Nat) :
    (restartSlice s w start l).sec.running = s.sec.running := by simp [restartSlice]

@[simp] theorem moverQuarantine_running (s : State) (t : Nat) (l : BitVec 42) : (moverQuarantine s t l).sec.running = s.sec.running :=
  rfl

@[simp] theorem fillFailed_running (s : State) (f : CacheFill) : (fillFailed s f).sec.running = s.sec.running := by simp [fillFailed]

@[simp] theorem evictReissue_running (s : State) (e : CacheEvict) : (evictReissue s e).sec.running = s.sec.running := by
  simp [evictReissue]

@[simp] theorem restartMover_running (s : State) (w : Option Nat) (only : Option (List Nat)) :
    (restartMover s w only).sec.running = s.sec.running := by
  unfold restartMover
  refine foldl_from_running s _ _ _ (foldl_from_running s _ _ _ (foldl_from_running s _ _ _ rfl fun t x => ?_) fun t f => ?_)
    fun t e => ?_
  all_goals simp

@[simp] theorem restartImmediate_running (s : State) (n : Nat) : (restartImmediate s n).sec.running = s.sec.running := by
  simp [restartImmediate]

@[simp] theorem startGrace_running (s : State) : (startGrace s).sec.running = s.sec.running := rfl

@[simp] theorem switchEpoch_running (s : State) (n : Nat) (e : BitVec 32) : (switchEpoch s n e).sec.running = s.sec.running := by
  simp [switchEpoch]

@[simp] theorem graceEnd_running (s : State) : (graceEnd s).sec.running = s.sec.running := by
  unfold graceEnd
  split <;> simp

@[simp] theorem noticeTo_running (s : State) (w : Nat) : (noticeTo s w).sec.running = s.sec.running := rfl

@[simp] theorem noticeMembers_running (s : State) : (noticeMembers s).sec.running = s.sec.running := by simp [noticeMembers]

@[simp] theorem routeCommit_running (s : State) : (routeCommit s).1.sec.running = s.sec.running := by simp [routeCommit]

@[simp] theorem noticeAck_running (s : State) (w : Nat) : (noticeAck s w).sec.running = s.sec.running := by simp [noticeAck]

@[simp] theorem recoveryRequested_running (s : State) (w : Nat) : (recoveryRequested s w).sec.running = s.sec.running := by
  simp [recoveryRequested]

@[simp] theorem seekSpare_running (s : State) (a : Nat) : (seekSpare s a).sec.running = s.sec.running := by
  unfold seekSpare
  dsimp only
  repeat' split
  all_goals simp

@[simp] theorem pauseFor_running (s : State) (a : Nat) (i : Nat) (k : Nat) : (pauseFor s a i k).sec.running = s.sec.running := rfl

@[simp] theorem spareReq_running (s : State) (a : Nat) (c : Control) : (spareReq s a c).sec.running = s.sec.running := by
  simp [spareReq]

@[simp] theorem spareRefused_running (s : State) (a : Nat) : (spareRefused s a).sec.running = s.sec.running := by
  unfold spareRefused
  dsimp only
  split <;> simp

@[simp] theorem laneMoved_running (s : State) (a i k : Nat) : (laneMoved s a i k).sec.running = s.sec.running := by simp [laneMoved]

@[simp] theorem sendResume_running (s : State) (a : Nat) : (sendResume s a).sec.running = s.sec.running := by
  unfold sendResume
  split <;> simp

@[simp] theorem resume_running (s : State) (a : Nat) (c : Control) : (resume s a c).sec.running = s.sec.running := by simp [resume]

@[simp] theorem linkReset_running (s : State) (a : Nat) : (linkReset s a).sec.running = s.sec.running := by simp [linkReset]

@[simp] theorem enterUp_running (s : State) (a v : Nat) (lanes : List Nat) (c : Control) :
    (enterUp s a v lanes c).sec.running = s.sec.running := by
  unfold enterUp
  dsimp only
  simp only [noticeMembers_running]
  split <;> simp <;> (repeat' split) <;> simp

@[simp] theorem trainingSet_running (s : State) (a : Nat) (work : BitVec 4) (spares : BitVec 2) (c : Control) :
    (trainingSet s a work spares c).sec.running = s.sec.running := by
  unfold trainingSet
  dsimp only
  repeat' split
  all_goals simp

@[simp] theorem aulumEnable_running (s : State) (a : Nat) : (aulumEnable s a).1.sec.running = s.sec.running := by simp [aulumEnable]

@[simp] theorem aulumDisable_running (s : State) (a : Nat) : (aulumDisable s a).1.sec.running = s.sec.running := by
  simp [aulumDisable]

@[simp] theorem aulumIsolate_running (s : State) (a : Nat) : (aulumIsolate s a).sec.running = s.sec.running := by
  unfold aulumIsolate
  dsimp only
  simp only [setLink_running, setAulPort_running, startGrace_running, aulumDown_running]
  refine foldl_from_running s _ _ _ (foldl_from_running s _ _ _ (by simp) fun t v => ?_) fun t h => ?_
  · simp
  · split <;> simp

@[simp] theorem numberingWrite_running (s : State) (i : Nat) (v : Nat) : (numberingWrite s i v).1.sec.running = s.sec.running := by
  simp [numberingWrite]

/-! ### Machine/AulFlit -/

@[simp] theorem setSets_running (s : State) (a : Nat) (rx : Bool) (tx : Bool) : (setSets s a rx tx).sec.running = s.sec.running := rfl

@[simp] theorem keyWrite_running (s : State) (a : Nat) (tx : Bool) (k : Bool) (key : BitVec 256) (mode : Mode) :
    (keyWrite s a tx k key mode).1.sec.running = s.sec.running := by simp [keyWrite]

@[simp] theorem rollover_running (s : State) (a : Nat) : (rollover s a).1.sec.running = s.sec.running := by simp [rollover]

@[simp] theorem tagFailure_running (s : State) (a : Nat) : (tagFailure s a).sec.running = s.sec.running := by simp [tagFailure]

@[simp] theorem parityCheck_running (s : State) (a : Nat) (got : BitVec 4) : (parityCheck s a got).sec.running = s.sec.running := by
  unfold parityCheck
  dsimp only
  split <;> simp

@[simp] theorem takeAck_running (s : State) (a : Nat) (ack : BitVec 12) : (takeAck s a ack).sec.running = s.sec.running := by
  unfold takeAck
  dsimp only
  split <;> simp

@[simp] theorem takeCredits_running (s : State) (a : Nat) (g : Nat) (c : BitVec 24) :
    (takeCredits s a g c).sec.running = s.sec.running := rfl

@[simp] theorem discardFlit_running (s : State) (a : Nat) : (discardFlit s a).sec.running = s.sec.running := by simp [discardFlit]

@[simp] theorem linkUnit_running (s : State) (a : Nat) (cls : Nat) (u : FUnit) : (linkUnit s a cls u).sec.running = s.sec.running := by
  simp [linkUnit]

@[simp] theorem badSlot_running (s : State) (a : Nat) (cls : Nat) (u : FUnit) : (badSlot s a cls u).sec.running = s.sec.running := rfl

@[simp] theorem deliverSlots_running (s : State) (a : Nat) (f : Flit) : (deliverSlots s a f).sec.running = s.sec.running := by
  simp [deliverSlots]

theorem linkMove_running (s : State) (a : Nat) (v : Vn) (cls : Nat) (t : State) (h : linkMove s a v cls = some t) :
    t.sec.running = s.sec.running := by
  unfold linkMove at h
  dsimp only at h
  (repeat' split at h) <;> simp at h
  all_goals subst h; simp

@[simp] theorem linkMoves_running (s : State) (a : Nat) (v : Vn) (cls n : Nat) :
    (linkMoves s a v cls n).sec.running = s.sec.running := by
  induction n generalizing s with
  | zero => rfl
  | succ n ih =>
    unfold linkMoves
    split
    · rename_i e; have k := linkMove_running _ _ _ _ _ e; simp [ih, k]
    · simp

@[simp] theorem linkDrain_running (s : State) (a : Nat) : (linkDrain s a).sec.running = s.sec.running := by simp [linkDrain]

@[simp] theorem acceptData_running (s : State) (a : Nat) (f : Flit) : (acceptData s a f).sec.running = s.sec.running := by
  simp [acceptData]

@[simp] theorem acceptMac_running (s : State) (a : Nat) (f : Flit) : (acceptMac s a f).sec.running = s.sec.running := by
  simp [acceptMac]

@[simp] theorem acceptFlit_running (s : State) (a : Nat) (f : Flit) : (acceptFlit s a f).sec.running = s.sec.running := by
  simp [acceptFlit]

@[simp] theorem goodFlit_running (s : State) (a : Nat) (f : Flit) : (goodFlit s a f).sec.running = s.sec.running := by simp [goodFlit]

@[simp] theorem keepParity_running (s : State) (a : Nat) (par : BitVec 4) : (keepParity s a par).sec.running = s.sec.running := rfl

@[simp] theorem badBlock_running (s : State) (a : Nat) (par : BitVec 4) : (badBlock s a par).sec.running = s.sec.running := by
  simp [badBlock]

@[simp] theorem flitTaken_running (s : State) (a : Nat) (par : BitVec 4) (o : Option Flit) :
    (flitTaken s a par o).sec.running = s.sec.running := by
  unfold flitTaken
  split <;> simp

@[simp] theorem blockTaken_running (s : State) (a : Nat) (par : BitVec 4) (w : BitVec 2048) :
    (blockTaken s a par w).sec.running = s.sec.running := by simp [blockTaken]

@[simp] theorem flitReceive_running (s : State) (a : Nat) (l : LaneBlocks) : (flitReceive s a l).sec.running = s.sec.running := by
  unfold flitReceive
  dsimp only
  repeat' split
  all_goals simp

@[simp] theorem startReplay_running (s : State) (a : Nat) : (startReplay s a).sec.running = s.sec.running := by
  unfold startReplay
  dsimp only
  split <;> simp

@[simp] theorem takeUnit_running (s : State) (a : Nat) (v : Nat) (e : EgUnit) : (takeUnit s a v e).1.sec.running = s.sec.running := by
  simp [takeUnit]

@[simp] theorem gather_running (s : State) (a n : Nat) :
    (gather s a n).1.sec.running = s.sec.running := by
  induction n generalizing s with
  | zero => rfl
  | succ n ih =>
    unfold gather
    split
    · rfl
    · simp [ih]

@[simp] theorem sendFlit_running (s : State) (a : Nat) (type : Nat) (seq : BitVec 12) (cls : BitVec 3) (valid : BitVec 3) (slots :
    BitVec 1920) :
    (sendFlit s a type seq cls valid slots).sec.running = s.sec.running := rfl

@[simp] theorem sendNew_running (s : State) (a : Nat) (mac : Bool) (cls : BitVec 3) (valid : BitVec 3) (slots : BitVec 1920) :
    (sendNew s a mac cls valid slots).sec.running = s.sec.running := rfl

@[simp] theorem sendReplay_running (s : State) (a : Nat) (k : Nat) (f : FlitRec) : (sendReplay s a k f).sec.running = s.sec.running :=
  rfl

@[simp] theorem sendIdle_running (s : State) (a : Nat) (type : Nat) : (sendIdle s a type).sec.running = s.sec.running := rfl

@[simp] theorem sendMac_running (s : State) (a : Nat) : (sendMac s a).sec.running = s.sec.running := rfl

@[simp] theorem sendData_running (s : State) (a : Nat) : (sendData s a).sec.running = s.sec.running := by simp [sendData]

@[simp] theorem flitSend_running (s : State) (a : Nat) : (flitSend s a).sec.running = s.sec.running := by
  unfold flitSend
  dsimp only
  repeat' split
  all_goals simp

@[simp] theorem flitTransmit_running (s : State) (a : Nat) : (flitTransmit s a).sec.running = s.sec.running := by simp [flitTransmit]

/-! ### Machine/Remote -/

@[simp] theorem reinject_running (s : State) (a : Nat) (w : Nat) (dst : BitVec 12) (u : FUnit) :
    (reinject s a w dst u).sec.running = s.sec.running := by simp [reinject]

@[simp] theorem fanOut_running (s : State) (a : Nat) (u : FUnit) : (fanOut s a u).sec.running = s.sec.running := by simp [fanOut]

@[simp] theorem localReply_running (s : State) (a : Nat) (u : FUnit) : (localReply s a u).sec.running = s.sec.running := by
  unfold localReply
  repeat' split
  all_goals simp

@[simp] theorem fanLost_running (s : State) (a : Nat) (u : FUnit) : (fanLost s a u).sec.running = s.sec.running := by
  unfold fanLost
  split <;> simp

@[simp] theorem combinedReply_running (s : State) (a : Nat) : (combinedReply s a).sec.running = s.sec.running := by
  unfold combinedReply
  split <;> simp

@[simp] theorem remoteUnit_running (s : State) (a : Nat) (w : Nat) (u : FUnit) : (remoteUnit s a w u).sec.running = s.sec.running := by
  unfold remoteUnit
  repeat' split
  all_goals simp

@[simp] theorem returnedUnit_running (s : State) (a : Nat) (h : Held) : (returnedUnit s a h).sec.running = s.sec.running := by
  unfold returnedUnit
  split <;> simp

@[simp] theorem remoteReceive_running (s : State) (a : Nat) (v : Vn) : (remoteReceive s a v).sec.running = s.sec.running := by
  unfold remoteReceive
  dsimp only
  repeat' split
  all_goals simp

/-! ### Machine/Binding -/

@[simp] theorem putVppb_running (s : State) (v : Nat) (d : Nat) (x : Vppb) : (putVppb s v d x).sec.running = s.sec.running := rfl

@[simp] theorem setHostRequest_running (s : State) (c : Nat) (r : Option Bool) : (setHostRequest s c r).sec.running = s.sec.running :=
  rfl

@[simp] theorem bgStart_running (s : State) (op : Nat) (obj : Nat) : (bgStart s op obj).sec.running = s.sec.running := rfl

@[simp] theorem bgDone_running (s : State) (op : Nat) (obj : Nat) : (bgDone s op obj).sec.running = s.sec.running := rfl

@[simp] theorem bindStatus_running (s : State) (asker : Nat) (st : Nat) : (bindStatus s asker st).sec.running = s.sec.running := by
  simp [bindStatus]

@[simp] theorem bindDone_running (s : State) (v : Nat) (d : Nat) (op : Nat) : (bindDone s v d op).sec.running = s.sec.running := by
  simp [bindDone]

@[simp] theorem bindNote_running (s : State) (src : FmSource) (rc : FmRc) : (bindNote s src rc).sec.running = s.sec.running := by
  simp [bindNote]

@[simp] theorem bindSay_running (s : State) (src : FmSource) (rc : FmRc) : (bindSay s src rc).sec.running = s.sec.running := by
  unfold bindSay
  split <;> simp

@[simp] theorem bindRefused_running (s : State) (src : FmSource) (rc : FmRc) : (bindRefused s src rc).1.sec.running = s.sec.running := by
  simp [bindRefused]

@[simp] theorem bindVppb_running (s : State) (src : FmSource) (v : Nat) (d : Nat) (p : Nat) (l : Nat) :
    (bindVppb s src v d p l).1.sec.running = s.sec.running := by
  unfold bindVppb
  dsimp only
  repeat' split
  all_goals simp

@[simp] theorem hotplug_running (s : State) (v : Nat) (d : Nat) : (hotplug s v d).sec.running = s.sec.running := by simp [hotplug]

@[simp] theorem becomeBound_running (s : State) (v d : Nat) : (becomeBound s v d).sec.running = s.sec.running := by
  unfold becomeBound
  dsimp only
  split <;> simp

@[simp] theorem dropPosted_running (s : State) (v : Nat) (p : Nat) (ld : Nat) : (dropPosted s v p ld).sec.running = s.sec.running :=
  rfl

@[simp] theorem bindingEnds_running (s : State) (v : Nat) (d : Nat) : (bindingEnds s v d).sec.running = s.sec.running := by
  unfold bindingEnds
  dsimp only
  repeat' split
  all_goals simp

@[simp] theorem unbindVppb_running (s : State) (src : FmSource) (v : Nat) (d : Nat) (opt : Nat) :
    (unbindVppb s src v d opt).1.sec.running = s.sec.running := by
  unfold unbindVppb
  dsimp only
  repeat' split
  all_goals simp

@[simp] theorem hostPowerOff_running (s : State) (c : Nat) : (hostPowerOff s c).sec.running = s.sec.running := by
  unfold hostPowerOff
  split <;> simp

@[simp] theorem bindsLinkDown_running (s : State) (p : Nat) :
    (bindsLinkDown s p).sec.running = s.sec.running :=
  foldl_running _ _ _ fun t b => by
    dsimp only
    (repeat' split) <;> simp

@[simp] theorem bindsPresence_running (s : State) (p : Nat) : (bindsPresence s p).sec.running = s.sec.running := by
  simp [bindsPresence]

@[simp] theorem slotFaultShown_running (s : State) (c : Nat) : (slotFaultShown s c).sec.running = s.sec.running := by
  unfold slotFaultShown
  split <;> simp

@[simp] theorem slotPresenceShown_running (s : State) (c : Nat) : (slotPresenceShown s c).sec.running = s.sec.running := by
  unfold slotPresenceShown
  split <;> simp

/-! ### Machine/Ports -/

@[simp] theorem setLinkState_running (s : State) (p : Nat) (n : Nat) : (setLinkState s p n).sec.running = s.sec.running := rfl

@[simp] theorem showAbsorbed_running (s : State) (k : Nat) : (showAbsorbed s k).sec.running = s.sec.running := by simp [showAbsorbed]

@[simp] theorem trainPort_running (s : State) (p : Nat) : (trainPort s p).sec.running = s.sec.running := by simp [trainPort]

@[simp] theorem perstRelease_running (s : State) (p : Nat) : (perstRelease s p).sec.running = s.sec.running := by simp [perstRelease]

@[simp] theorem perstDrive_running (s : State) (p : Nat) : (perstDrive s p).sec.running = s.sec.running := rfl

@[simp] theorem flushPair_running (s : State) (p : Nat) (v : Vn) :
    (flushPair s p v).sec.running = s.sec.running := by
  refine foldl_from_running s _ _ _ (by simp) fun t e => ?_
  split <;> simp

@[simp] theorem flushDirty_running (s : State) (v : Nat) (p : Nat) (sn : ProxySnoop) :
    (flushDirty s v p sn).sec.running = s.sec.running := by
  unfold flushDirty
  split <;> simp

@[simp] theorem flushSnoops_running (s : State) (v p : Nat) : (flushSnoops s v p).sec.running = s.sec.running := by simp [flushSnoops]

@[simp] theorem muteEntries_running (s : State) (v : Nat) : (muteEntries s v).sec.running = s.sec.running := rfl

@[simp] theorem flushSent_running (s : State) (p : Nat) : (flushSent s p).sec.running = s.sec.running := by simp [flushSent]

@[simp] theorem flushIngress_running (s : State) (p : Nat) : (flushIngress s p).sec.running = s.sec.running := rfl

theorem forHost_running (s : State) (f : State → Nat → State) (o : Option Nat) (h : ∀ t v, (f t v).sec.running = t.sec.running) :
    (forHost s f o).sec.running = s.sec.running := by
  cases o with
  | none => rfl
  | some v => exact h s v

@[simp] theorem flushPort_running (s : State) (p : Nat) : (flushPort s p).sec.running = s.sec.running := by
  have muted := fun t => forHost_running t muteEntries (hostOfPort s p) muteEntries_running
  have snoops := fun t o => forHost_running t (fun r v => flushSnoops r v p) o fun r v => flushSnoops_running r v p
  have pairs := fun l t => foldl_running (fun r v => flushPair r p v) l t fun r v => flushPair_running r p v
  have flushed : ∀ t, (flushIngress (flushSent (poolDown t p) p) p).sec.running = t.sec.running := fun t => by simp
  unfold flushPort
  generalize allVns = l
  exact (snoops _ _).trans ((flushed _).trans ((pairs l _).trans (muted s)))

@[simp] theorem ideEnds_running (s : State) (p : Nat) : (ideEnds s p).sec.running = s.sec.running := rfl

@[simp] theorem linkFalls_running (s : State) (p : Nat) : (linkFalls s p).sec.running = s.sec.running := by simp [linkFalls]

@[simp] theorem hotReset_running (s : State) (p : Nat) : (hotReset s p).sec.running = s.sec.running := by simp [hotReset]

@[simp] theorem vppbsReset_running (s : State) (v : Nat) : (vppbsReset s v).sec.running = s.sec.running := rfl

@[simp] theorem uncommitDecoders_running (s : State) (v : Nat) : (uncommitDecoders s v).sec.running = s.sec.running := rfl

@[simp] theorem vcsReset_running (s : State) (v : Nat) : (vcsReset s v).sec.running = s.sec.running := by simp [vcsReset]

@[simp] theorem portDown_running (s : State) (p : Nat) : (portDown s p).sec.running = s.sec.running := by
  unfold portDown
  split <;> simp

@[simp] theorem portLinkLost_running (s : State) (p : Nat) : (portLinkLost s p).sec.running = s.sec.running := by simp [portLinkLost]

@[simp] theorem vcsActive_running (s : State) (v : Nat) : (vcsActive s v).sec.running = s.sec.running := by simp [vcsActive]

@[simp] theorem vcsLinkUp_running (s : State) (v : Nat) (p : Nat) : (vcsLinkUp s v p).sec.running = s.sec.running := by
  simp [vcsLinkUp]

@[simp] theorem perstAssert_running (s : State) (p : Nat) (hot : Bool) : (perstAssert s p hot).sec.running = s.sec.running := by
  unfold perstAssert
  dsimp only
  repeat' split
  all_goals simp

@[simp] theorem vcsDisable_running (s : State) (v : Nat) : (vcsDisable s v).sec.running = s.sec.running := by
  unfold vcsDisable
  split <;> simp

@[simp] theorem vcsEnable_running (s : State) (v : Nat) (on : Bool) : (vcsEnable s v on).sec.running = s.sec.running := by
  unfold vcsEnable
  dsimp only
  repeat' split
  all_goals simp

@[simp] theorem nameUpstream_running (s : State) (p r : Nat) : (nameUpstream s p r).sec.running = s.sec.running := by
  simp [nameUpstream]

@[simp] theorem roleOff_running (s : State) (p : Nat) : (roleOff s p).sec.running = s.sec.running := by simp [roleOff]

@[simp] theorem roleWrite_running (s : State) (p : Nat) (r : Nat) : (roleWrite s p r).1.sec.running = s.sec.running := by
  simp [roleWrite]

@[simp] theorem widthWrite_running (s : State) (p : Nat) (w : Nat) : (widthWrite s p w).1.sec.running = s.sec.running := by
  simp [widthWrite]

@[simp] theorem portConfig_running (s : State) (p : Nat) (x : PortSetting) : (portConfig s p x).1.sec.running = s.sec.running := by
  simp [portConfig]

@[simp] theorem incompatible_running (s : State) (p : Nat) : (incompatible s p).sec.running = s.sec.running := by simp [incompatible]

@[simp] theorem linkShown_running (s : State) (p : Nat) (w : Nat) (x : LinkPartner) :
    (linkShown s p w x).sec.running = s.sec.running := rfl

@[simp] theorem linkNoticed_running (s : State) (p : Nat) : (linkNoticed s p).sec.running = s.sec.running := by
  unfold linkNoticed
  dsimp only
  split <;> simp

@[simp] theorem portLinkUp_running (s : State) (p : Nat) (w : Nat) (x : LinkPartner) :
    (portLinkUp s p w x).sec.running = s.sec.running := by simp [portLinkUp]

@[simp] theorem trained_running (s : State) (p : Nat) (x : LinkPartner) : (trained s p x).sec.running = s.sec.running := by
  unfold trained
  repeat' split
  all_goals simp

@[simp] theorem putWidth_running (s : State) (p : Nat) (w : Nat) : (putWidth s p w).sec.running = s.sec.running := by simp [putWidth]

@[simp] theorem setL0pWidth_running (s : State) (p : Nat) (w : Nat) : (setL0pWidth s p w).sec.running = s.sec.running := by
  simp [setL0pWidth]

@[simp] theorem restoreWidth_running (s : State) (p : Nat) : (restoreWidth s p).sec.running = s.sec.running := by simp [restoreWidth]

@[simp] theorem l0pRequest_running (s : State) (p : Nat) (w : Nat) : (l0pRequest s p w).sec.running = s.sec.running := by
  simp [l0pRequest]

@[simp] theorem margin_running (s : State) (p : Nat) (lane : Nat) (timing : Bool) (steps : Int) :
    (margin s p lane timing steps).sec.running = s.sec.running := by simp [margin]

@[simp] theorem portHotReset_running (s : State) (p : Nat) : (portHotReset s p).1.sec.running = s.sec.running := by
  simp [portHotReset]

@[simp] theorem portFundamentalReset_running (s : State) (p : Nat) : (portFundamentalReset s p).1.sec.running = s.sec.running := by
  simp [portFundamentalReset]

@[simp] theorem portRetrain_running (s : State) (p : Nat) : (portRetrain s p).1.sec.running = s.sec.running := by simp [portRetrain]

@[simp] theorem portCxlReset_running (s : State) (p : Nat) : (portCxlReset s p).1.sec.running = s.sec.running := by
  simp [portCxlReset]

@[simp] theorem slotPowerLost_running (s : State) (c : Nat) : (slotPowerLost s c).sec.running = s.sec.running := by
  unfold slotPowerLost
  split <;> simp

@[simp] theorem slotPowerGood_running (s : State) (c : Nat) : (slotPowerGood s c).sec.running = s.sec.running := by
  unfold slotPowerGood
  split <;> simp

@[simp] theorem refclkStable_running (s : State) (k : Nat) : (refclkStable s k).sec.running = s.sec.running := by simp [refclkStable]

@[simp] theorem ldLost_running (s : State) (p : Nat) (mask : BitVec 16) : (ldLost s p mask).sec.running = s.sec.running := by
  simp [ldLost]

/-! ### Machine/Islands -/

@[simp] theorem setIsland_running (s : State) (k : Nat) (st : Nat) : (setIsland s k st).sec.running = s.sec.running := rfl

@[simp] theorem storeRequest_running (s : State) (k : Nat) (r : Nat) : (storeRequest s k r).sec.running = s.sec.running := rfl

@[simp] theorem drainTimerOff_running (s : State) (k : Nat) : (drainTimerOff s k).sec.running = s.sec.running := rfl

@[simp] theorem requestClosed_running (s : State) (k : Nat) : (requestClosed s k).1.sec.running = s.sec.running := by
  unfold requestClosed
  repeat' split
  all_goals simp

@[simp] theorem islandOpened_running (s : State) (k : Nat) : (islandOpened s k).sec.running = s.sec.running := by simp [islandOpened]

@[simp] theorem requestOpen_running (s : State) (k : Nat) : (requestOpen s k).1.sec.running = s.sec.running := by
  unfold requestOpen
  repeat' split
  all_goals simp

@[simp] theorem bridgeFails_running (s : State) (k : Nat) : (bridgeFails s k).sec.running = s.sec.running := by simp [bridgeFails]

@[simp] theorem islandHeldClosed_running (s : State) (k : Nat) : (islandHeldClosed s k).sec.running = s.sec.running := rfl

/-! ### Machine/Extents -/

@[simp] theorem decoderCommit_running (s : State) (v : Nat) (i : Nat) (base : Nat) (size : Nat) (ways : Nat) (gran : Nat) (commit :
    Bool) :
    (decoderCommit s v i base size ways gran commit).sec.running = s.sec.running := by simp [decoderCommit]

@[simp] theorem poolWindowWrite_running (s : State) (v : Nat) (i : Nat) (len : Bool) (x : Nat) :
    (poolWindowWrite s v i len x).1.sec.running = s.sec.running := by simp [poolWindowWrite]

@[simp] theorem setExtents_running (s : State) (v : Nat) (l : List Extent) : (setExtents s v l).sec.running = s.sec.running := rfl

@[simp] theorem dcAdd_running (s : State) (v : Nat) (xs : List DcPart) : (dcAdd s v xs).1.sec.running = s.sec.running := by
  unfold dcAdd
  dsimp only
  repeat' split
  all_goals simp

@[simp] theorem dcResponse_running (s : State) (v : Nat) (bases : List (BitVec 64)) :
    (dcResponse s v bases).sec.running = s.sec.running := rfl

@[simp] theorem startRelease_running (s : State) (v : Nat) (e : Extent) (forced : Bool) :
    (startRelease s v e forced).sec.running = s.sec.running := by simp [startRelease]

@[simp] theorem hostRelease_running (s : State) (v : Nat) (bases : List (BitVec 64)) :
    (hostRelease s v bases).sec.running = s.sec.running := by
  unfold hostRelease
  split <;> simp

@[simp] theorem fmRelease_running (s : State) (v : Nat) (bases : List Nat) (forced : Bool) :
    (fmRelease s v bases forced).1.sec.running = s.sec.running := by
  unfold fmRelease
  split <;> simp

@[simp] theorem extentRemoved_running (s : State) (v : Nat) (base : Nat) : (extentRemoved s v base).sec.running = s.sec.running := by
  unfold extentRemoved
  split <;> simp

/-! ### Machine/FmApi -/

@[simp] theorem portControl_running (s : State) (p : Nat) (op : Nat) : (portControl s p op).1.sec.running = s.sec.running := by
  unfold portControl
  repeat' split
  all_goals simp

@[simp] theorem cfgRegSet_running (s : State) (sp : Nat) (reg : Nat) (v : Nat) : (cfgRegSet s sp reg v).sec.running = s.sec.running :=
  rfl

@[simp] theorem openBytes_running (s : State) (a : Nat) (n : Nat) : (openBytes s a n).1.sec.running = s.sec.running := rfl

@[simp] theorem cfgReadWith_running (s : State) (sp : Nat) (reg : Nat) (x : Shown) :
    (cfgReadWith s sp reg x).1.sec.running = s.sec.running := by
  unfold cfgReadWith
  split <;> simp

@[simp] theorem ppbRead_running (s : State) (p : Nat) (reg : Nat) : (ppbRead s p reg).1.sec.running = s.sec.running := by
  simp [ppbRead]

@[simp] theorem fmSend_running (s : State) (cfg : Bool) (p : Nat) (ld : Nat) (a : FmAccess) :
    (fmSend s cfg p ld a).sec.running = s.sec.running := by
  unfold fmSend
  dsimp only
  repeat' split
  all_goals simp

@[simp] theorem regionConfig_running (s : State) (v : Nat) (r : Nat) (base : Nat) (len : Nat) :
    (regionConfig s v r base len).1.sec.running = s.sec.running := by simp [regionConfig]

/-! ### Machine/CfgSpace -/

@[simp] theorem poolCfgWrite_running (s : State) (v : Nat) (reg : Nat) (x : Nat) :
    (poolCfgWrite s v reg x).sec.running = s.sec.running := by simp [poolCfgWrite]

@[simp] theorem slotWrite_running (s : State) (v : Nat) (d : Nat) (x : Nat) : (slotWrite s v d x).sec.running = s.sec.running := by
  unfold slotWrite
  dsimp only
  repeat' split
  all_goals simp

@[simp] theorem dpcRelease_running (s : State) (v : Nat) (d : Nat) : (dpcRelease s v d).sec.running = s.sec.running := by
  simp [dpcRelease]

@[simp] theorem vppbCfgWrite_running (s : State) (v : Nat) (d : Nat) (reg : Nat) (x : Nat) :
    (vppbCfgWrite s v d reg x).sec.running = s.sec.running := by simp [vppbCfgWrite]

@[simp] theorem upCfgWrite_running (s : State) (v : Nat) (reg : Nat) (x : Nat) : (upCfgWrite s v reg x).sec.running = s.sec.running := by
  unfold upCfgWrite
  repeat' split
  all_goals simp

@[simp] theorem fnCfgWrite_running (s : State) (n : Nat) (reg : Nat) (x : Nat) : (fnCfgWrite s n reg x).sec.running = s.sec.running := by
  simp [fnCfgWrite]

@[simp] theorem fnReadEffect_running (s : State) (n : Nat) (off : Nat) (len : Nat) :
    (fnReadEffect s n off len).sec.running = s.sec.running := by simp [fnReadEffect]

@[simp] theorem fnRead_running (s : State) (fn : Option Nat) (off : Nat) (len : Nat) :
    (fnRead s fn off len).1.sec.running = s.sec.running := by
  unfold fnRead
  split <;> simp

@[simp] theorem vectorMask_running (s : State) (n : Nat) (i : Nat) (masked : Bool) :
    (vectorMask s n i masked).sec.running = s.sec.running := by simp [vectorMask]

@[simp] theorem queueAddrWrite_running (s : State) (n : Nat) (isCq : Bool) (loc : Nat) (x : Nat) :
    (queueAddrWrite s n isCq loc x).sec.running = s.sec.running := by
  unfold queueAddrWrite
  repeat' split
  all_goals simp

@[simp] theorem queueEnableWrite_running (s : State) (n : Nat) (isCq : Bool) (loc : Nat) (on : Bool) :
    (queueEnableWrite s n isCq loc on).sec.running = s.sec.running := by simp [queueEnableWrite]

@[simp] theorem queueRegWrite_running (s : State) (n : Nat) (isCq : Bool) (loc : Nat) (o : Nat) (data : List Byte) :
    (queueRegWrite s n isCq loc o data).sec.running = s.sec.running := by simp [queueRegWrite]

@[simp] theorem fnRegWrite_running (s : State) (n : Nat) (off : Nat) (data : List Byte) :
    (fnRegWrite s n off data).sec.running = s.sec.running := by simp [fnRegWrite]

@[simp] theorem fnWriteAt_running (s : State) (n : Nat) (off : Nat) (data : List Byte) :
    (fnWriteAt s n off data).sec.running = s.sec.running := by simp [fnWriteAt]

@[simp] theorem fnWrite_running (s : State) (fn : Option Nat) (off : Nat) (data : List Byte) :
    (fnWrite s fn off data).sec.running = s.sec.running := by
  unfold fnWrite
  split <;> simp

@[simp] theorem poolBarRead_running (s : State) (v a len : Nat) : (poolBarRead s v a len).1.sec.running = s.sec.running := by
  simp [poolBarRead]

/-! ### Machine/CxlIo -/

@[simp] theorem dpcTrigger_running (s : State) (p : Nat) (ld : Nat) : (dpcTrigger s p ld).sec.running = s.sec.running := by
  unfold dpcTrigger
  split <;> simp

@[simp] theorem malformedTlp_running (s : State) (p : Nat) (t : Tlp) : (malformedTlp s p t).sec.running = s.sec.running := by
  simp [malformedTlp]

@[simp] theorem ioSpace_running (s : State) (p : Nat) (t : Tlp) : (ioSpace s p t).sec.running = s.sec.running := by simp [ioSpace]

@[simp] theorem countTlp_running (s : State) (p : Nat) (t : Tlp) : (countTlp s p t).sec.running = s.sec.running := by
  unfold countTlp
  repeat' split
  all_goals simp

@[simp] theorem parsePlace_running (s : State) (p : Nat) (vn : Vn) (m : PortMsg) :
    (parsePlace s p vn m).sec.running = s.sec.running := by
  unfold parsePlace
  repeat' split
  all_goals simp

@[simp] theorem parseMsg_running (s : State) (p : Nat) (m : PortMsg) : (parseMsg s p m).sec.running = s.sec.running := by
  unfold parseMsg
  repeat' split
  all_goals simp

@[simp] theorem parseFlit_running (s : State) (p : Nat) (ms : List PortMsg) : (parseFlit s p ms).sec.running = s.sec.running := by
  simp [parseFlit]

@[simp] theorem refuseTlp_running (s : State) (p : Nat) (t : Tlp) : (refuseTlp s p t).sec.running = s.sec.running := by
  simp [refuseTlp]

@[simp] theorem answerData_running (s : State) (p : Nat) (t : Tlp) (bs : List Byte) :
    (answerData s p t bs).sec.running = s.sec.running :=
  foldl_running _ _ _ fun r d => by simp

@[simp] theorem answerDone_running (s : State) (p : Nat) (t : Tlp) : (answerDone s p t).sec.running = s.sec.running := rfl

@[simp] theorem npRecord_running (s : State) (v : Nat) (p : Nat) (q : Nat) (ld : Nat) (t : Tlp) (refused : Bool) :
    (npRecord s v p q ld t refused).sec.running = s.sec.running := by simp [npRecord]

@[simp] theorem forward_running (s : State) (p : Nat) (dst : BitVec 12) (t : Tlp) (since : Nat) :
    (forward s p dst t since).sec.running = s.sec.running := by simp [forward]

@[simp] theorem forwardPort_running (s : State) (v : Nat) (p : Nat) (q : Nat) (ld : Nat) (t : Tlp) (since : Nat) :
    (forwardPort s v p q ld t since).sec.running = s.sec.running := by simp [forwardPort]

@[simp] theorem forwardRuns_running (s : State) (v : Nat) (p : Nat) (t : Tlp) (runs : List (Nat × Nat)) (since : Nat) :
    (forwardRuns s v p t runs since).sec.running = s.sec.running := by
  unfold forwardRuns
  repeat' split
  all_goals simp

@[simp] theorem poolRequest_running (s : State) (v : Nat) (p : Nat) (t : Tlp) (since : Nat) :
    (poolRequest s v p t since).sec.running = s.sec.running := by simp [poolRequest]

theorem servedRequest_running (s : State) (p : Nat) (t : Tlp) (rd : State → State × List Byte) (wr : State → State)
    (hr : ∀ x, rd s = x → x.1.sec.running = s.sec.running) (hw : (wr s).sec.running = s.sec.running) :
    (servedRequest s p t rd wr).sec.running = s.sec.running := by
  unfold servedRequest
  split
  · simpa using hr _ rfl
  · split
    · exact hw
    · split
      · simpa using hw
      · simp

@[simp] theorem routeMemory_running (s : State) (v p : Nat) (frm : Option Nat) (t : Tlp) (n : Nat) :
    (routeMemory s v p frm t n).sec.running = s.sec.running := by
  unfold routeMemory
  extract_lets a x
  clear_value x
  split
  · exact refuseTlp_running _ _ _
  · split
    · exact poolRequest_running _ _ _ _ _
    · refine servedRequest_running _ _ _ _ _ (fun x h => ?_) (fnWrite_running _ _ _ _)
      have h' : fnRead _ _ _ _ = x := h
      rw [← h']
      exact fnRead_running _ _ _ _
    · refine servedRequest_running _ _ _ _ _ (fun x h => ?_) rfl
      have h' : poolBarRead _ _ _ _ = x := h
      rw [← h']
      exact poolBarRead_running _ _ _ _
    · exact forwardPort_running _ _ _ _ _ _ _
    · split <;> simp
    · simp

theorem serveCfg_running (s : State) (p sp : Nat) (t : Tlp) (x : Nat → Shown) (wr : State → Nat → Nat → State)
    (hw : ∀ a b, (wr s a b).sec.running = s.sec.running) :
    (serveCfg s p sp t x wr).sec.running = s.sec.running := by
  unfold serveCfg
  dsimp only
  split
  · simp
  · simpa using hw _ _

@[simp] theorem routeCfg_running (s : State) (v p : Nat) (t : Tlp) (n : Nat) : (routeCfg s v p t n).sec.running = s.sec.running := by
  unfold routeCfg
  split
  case h_6 => split <;> simp
  case h_7 => simp
  all_goals exact serveCfg_running _ _ _ _ _ _ (by simp)

@[simp] theorem routeMessage_running (s : State) (v : Nat) (p : Nat) (frm : Option Nat) (t : Tlp) (since : Nat) :
    (routeMessage s v p frm t since).sec.running = s.sec.running := by
  unfold routeMessage
  dsimp only
  repeat' split
  all_goals simp

@[simp] theorem routeCompletion_running (s : State) (p : Nat) (t : Tlp) (since : Nat) :
    (routeCompletion s p t since).sec.running = s.sec.running := by
  unfold routeCompletion
  split <;> simp

@[simp] theorem acsViolation_running (s : State) (p : Nat) (t : Tlp) : (acsViolation s p t).sec.running = s.sec.running := by
  simp [acsViolation]

@[simp] theorem routeTlp_running (s : State) (p : Nat) (t : Tlp) (since : Nat) : (routeTlp s p t since).sec.running = s.sec.running := by
  unfold routeTlp
  repeat' split
  all_goals simp

/-! ### Machine/Reset -/

@[simp] theorem linksShowDown_running (s : State) : (linksShowDown s).sec.running = s.sec.running := by simp [linksShowDown]

@[simp] theorem mainDomainOff_running (s : State) : (mainDomainOff s).sec.running = s.sec.running := by simp [mainDomainOff]

@[simp] theorem startupReached_running (s : State) (n : Nat) : (startupReached s n).sec.running = s.sec.running := by
  simp [startupReached]

@[simp] theorem resetStep4_running (s : State) : (resetStep4 s).sec.running = s.sec.running := by simp [resetStep4]

@[simp] theorem resetRecognised_running (s : State) : (resetRecognised s).sec.running = s.sec.running := by simp [resetRecognised]

/-! ### Machine/Management -/

@[simp] theorem busData_running (s : State) (master : Nat) (id : Nat) (d : List Byte) :
    (busData s master id d).sec.running = s.sec.running := rfl

@[simp] theorem busAck_running (s : State) (master : Nat) (id : Nat) : (busAck s master id).sec.running = s.sec.running := rfl

theorem eventPost_running (s : State) (code : Nat) (data : BitVec 192) (t : State) (h : eventPost s code data = some t) :
    t.sec.running = s.sec.running := by
  unfold eventPost at h
  (repeat' split at h) <;> simp at h
  all_goals subst h; simp

@[simp] theorem apertureSelect_running (s : State) (v : Nat) : (apertureSelect s v).sec.running = s.sec.running := rfl

@[simp] theorem agentWritten_running (s : State) : (agentWritten s).sec.running = s.sec.running := by
  unfold agentWritten
  split <;> simp

/-! ### Machine/Power -/

@[simp] theorem powerSample_running (s : State) (vinMv : Nat) (vinMa : Nat) (vauxMv : Nat) (vauxMa : Nat) :
    (powerSample s vinMv vinMa vauxMv vauxMa).sec.running = s.sec.running := by simp [powerSample]

@[simp] theorem slotsOff_running (s : State) : (slotsOff s).sec.running = s.sec.running := rfl

@[simp] theorem vauxLoss_running (s : State) : (vauxLoss s).sec.running = s.sec.running := by simp [vauxLoss]

@[simp] theorem setSlot_running (s : State) (c : Nat) (x : SlotCh) : (setSlot s c x).sec.running = s.sec.running := rfl

@[simp] theorem slotTrip_running (s : State) (c : Nat) (cause : Nat) (x : SlotCh) :
    (slotTrip s c cause x).sec.running = s.sec.running := by simp [slotTrip]

@[simp] theorem slotDriveTick_running (s : State) (c : Nat) (x : SlotCh) (m : SlotSample) :
    (slotDriveTick s c x m).sec.running = s.sec.running := by
  unfold slotDriveTick
  extract_lets lim ovp low x1
  clear_value x1
  repeat' split
  all_goals simp +zetaDelta

@[simp] theorem slotTick_running (s : State) (c : Nat) (m : SlotSample) : (slotTick s c m).sec.running = s.sec.running := by
  unfold slotTick
  dsimp only
  split <;> simp

@[simp] theorem slotShown_running (before after : State) (c : Nat) :
    (slotShown before after c).sec.running = after.sec.running := by
  unfold slotShown
  dsimp only
  repeat' split
  all_goals simp

@[simp] theorem slotPower_running (before after : State) (c : Nat) :
    (slotPower before after c).sec.running = after.sec.running := by
  unfold slotPower
  dsimp only
  split <;> simp

@[simp] theorem slotEnable_running (s : State) (c : Nat) (on : Bool) :
    (slotEnable s c on).sec.running = s.sec.running := by
  unfold slotEnable
  dsimp only
  repeat' split
  all_goals simp

@[simp] theorem slotClear_running (s : State) (c : Nat) : (slotClear s c).1.sec.running = s.sec.running := by simp [slotClear]

@[simp] theorem slotSetRequest_running (s : State) (c : Nat) (on : Bool) (byHost : Bool) :
    (slotSetRequest s c on byHost).sec.running = s.sec.running := by
  unfold slotSetRequest
  dsimp only
  repeat' split
  all_goals simp

@[simp] theorem sensorsRead_running (s : State) (rs : List (Fin 64 × Int)) : (sensorsRead s rs).sec.running = s.sec.running := by
  simp [sensorsRead]

@[simp] theorem overTemperature_running (old s : State) : (overTemperature old s).sec.running = s.sec.running := by
  simp [overTemperature]

@[simp] theorem governorEpoch_running (s : State) (measured : Nat) (demand : List Nat) :
    (governorEpoch s measured demand).sec.running = s.sec.running := by simp [governorEpoch]

/-! ### Machine/Perf -/

@[simp] theorem takeSnapshot_running (s : State) : (takeSnapshot s).sec.running = s.sec.running := rfl

@[simp] theorem samplerEnable_running (s : State) (k : Nat) (on : Bool) : (samplerEnable s k on).sec.running = s.sec.running := by
  simp [samplerEnable]

@[simp] theorem hostSamplerFire_running (s : State) (v : Nat) : (hostSamplerFire s v).sec.running = s.sec.running := by
  unfold hostSamplerFire
  extract_lets h t
  generalize captured t _ = r
  split
  · rfl
  · generalize tabSet hostSamplerReset v _ s.perf.host = q
    simp only [traceSpecial_running, emit_sec, drawn_sec, bumpCBy_sec, bumpC_sec]
    rfl

@[simp] theorem timeStep_running (s : State) (d : Int) : (timeStep s d).sec.running = s.sec.running := rfl

@[simp] theorem timeOffset_running (s : State) (off : Int) (gm : BitVec 64) : (timeOffset s off gm).sec.running = s.sec.running := by
  simp [timeOffset]

@[simp] theorem toHoldover_running (s : State) : (toHoldover s).sec.running = s.sec.running := by simp [toHoldover]

@[simp] theorem setTsi_running (s : State) (i : Nat) (t : TsiState) : (setTsi s i t).sec.running = s.sec.running := rfl

@[simp] theorem captureEdge_running (s : State) (i : Nat) (rising : Bool) : (captureEdge s i rising).sec.running = s.sec.running := by
  simp [captureEdge]

@[simp] theorem inputDoorbell_running (s : State) (i : Nat) :
    (inputDoorbell s i).sec.running = s.sec.running := by
  unfold inputDoorbell
  dsimp only
  split
  · rfl
  · have h := ringDoorbell_running s (odGet s (0xC060 + i) 4) (odGet s (0xC060 + i) 5)
    split <;> (rename_i e; rw [e] at h; simpa using h)

@[simp] theorem captureRead_running (s : State) (i : Nat) (n : Nat) : (captureRead s i n).1.sec.running = s.sec.running := rfl

/-! ### Machine/Safe -/

@[simp] theorem proxySliceLost_running (s : State) (l : Nat) (v : Nat) : (proxySliceLost s l v).sec.running = s.sec.running := by
  unfold proxySliceLost
  split <;> simp

@[simp] theorem moverSliceLost_running (s : State) (l : Nat) : (moverSliceLost s l).sec.running = s.sec.running := by
  simp [moverSliceLost]

@[simp] theorem remoteSliceLost_running (s : State) (l : Nat) :
    (remoteSliceLost s l).sec.running = s.sec.running :=
  foldl_running _ _ _ fun t p => by
    split
    · split <;> simp
    · rfl

@[simp] theorem sliceEmptied_running (s : State) (l : Nat) : (sliceEmptied s l).sec.running = s.sec.running := by simp [sliceEmptied]

@[simp] theorem sliceAnswered_running (s : State) (l : Nat) : (sliceAnswered s l).sec.running = s.sec.running := by
  simp [sliceAnswered]

@[simp] theorem trackerSafe_running (s : State) (l : Nat) (t : Nat) (k : Tracker) :
    (trackerSafe s l t k).sec.running = s.sec.running := by
  unfold trackerSafe
  repeat' split
  all_goals simp

@[simp] theorem sliceSafe_running (s : State) (l : Nat) : (sliceSafe s l).sec.running = s.sec.running := by simp [sliceSafe]

@[simp] theorem dataPathSafe_running (s : State) : (dataPathSafe s).sec.running = s.sec.running := by simp [dataPathSafe]

/-! ### Machine/Faults -/

@[simp] theorem isolationLogged_running (s : State) (kind : Nat) (n : Nat) : (isolationLogged s kind n).sec.running = s.sec.running := by
  simp [isolationLogged]

@[simp] theorem isolatePort_running (s : State) (p : Nat) : (isolatePort s p).sec.running = s.sec.running := by simp [isolatePort]

@[simp] theorem isolateAulum_running (s : State) (a : Nat) : (isolateAulum s a).sec.running = s.sec.running := by simp [isolateAulum]

@[simp] theorem isolateIsland_running (s : State) (k : Nat) : (isolateIsland s k).sec.running = s.sec.running := by
  simp [isolateIsland]

@[simp] theorem isolateSlice_running (s : State) (l : Nat) : (isolateSlice s l).sec.running = s.sec.running := by simp [isolateSlice]

@[simp] theorem isolate_running (s : State) (z1 : FaultUnit) : (isolate s z1).sec.running = s.sec.running := by
  unfold isolate
  split <;> simp

@[simp] theorem slotsSafe_running (s : State) : (slotsSafe s).sec.running = s.sec.running := by
  unfold slotsSafe
  generalize List.range 48 = channels
  refine foldl_running _ channels s fun t c => ?_
  dsimp only
  split <;> simp

@[simp] theorem enterSafe_running (s : State) (cause : Nat) : (enterSafe s cause).sec.running = s.sec.running := by simp [enterSafe]

@[simp] theorem logReport_running (s : State) (f : Nat) (r : Report) : (logReport s f r).sec.running = s.sec.running := by
  simp [logReport]

@[simp] theorem recordReport_running (s : State) (f : Nat) (r : Report) : (recordReport s f r).sec.running = s.sec.running := rfl

@[simp] theorem acknowledge_running (s : State) (n : Nat) (sid : Nat) : (acknowledge s n sid).1.sec.running = s.sec.running := by
  unfold acknowledge
  repeat' split
  all_goals simp

@[simp] theorem clearSticky_running (s : State) (n : Nat) : (clearSticky s n).1.sec.running = s.sec.running := by simp [clearSticky]

@[simp] theorem clearLatch_running (s : State) : (clearLatch s).sec.running = s.sec.running := by simp [clearLatch]

@[simp] theorem injectionUnlock_running (s : State) (sid : Nat) : (injectionUnlock s sid).1.sec.running = s.sec.running := by
  unfold injectionUnlock
  split <;> simp

@[simp] theorem injectionLock_running (s : State) : (injectionLock s).sec.running = s.sec.running := rfl

@[simp] theorem injectFault_running (s : State) (mode : Nat) (f : Nat) : (injectFault s mode f).1.sec.running = s.sec.running := by
  simp [injectFault]

@[simp] theorem sourceConfig_running (s : State) (rs : List (BitVec 64)) : (sourceConfig s rs).1.sec.running = s.sec.running := by
  simp [sourceConfig]

@[simp] theorem snapshotNow_running (s : State) : (snapshotNow s).1.sec.running = s.sec.running := by simp [snapshotNow]

@[simp] theorem culletWithdraw_running (s : State) (n : Nat) : (culletWithdraw s n).1.sec.running = s.sec.running := by
  unfold culletWithdraw
  repeat' split
  all_goals simp

@[simp] theorem retireSlice_running (s : State) (n : Nat) : (retireSlice s n).1.sec.running = s.sec.running := by simp [retireSlice]

/-! ### Machine/Security -/

@[simp] theorem raiseRollback_running (s : State) (c : Nat) : (raiseRollback s c).1.sec.running = s.sec.running := by
  unfold raiseRollback
  repeat' split
  all_goals simp

@[simp] theorem installImage_running (s : State) (i : FwImage) : (installImage s i).1.sec.running = s.sec.running := by
  simp [installImage]

@[simp] theorem revokeSlot_running (s : State) (sid : Nat) (k : Nat) : (revokeSlot s sid k).1.sec.running = s.sec.running := by
  simp [revokeSlot]

@[simp] theorem certPackage_running (s : State) (sid : Nat) (p : CertPackage) : (certPackage s sid p).1.sec.running = s.sec.running := by
  unfold certPackage
  repeat' split
  all_goals simp

@[simp] theorem spdmAnswer_running (s : State) (c : Nat) (x : SpdmConn) (r : SpdmReply) :
    (spdmAnswer s c x r).sec.running = s.sec.running := rfl

theorem spdmReady_running (s : State) (c : Nat) (f : SpdmConn → Nat → State)
    (hf : ∀ x k, (f x k).sec.running = s.sec.running) :
    (spdmReady s c f).sec.running = s.sec.running := by
  unfold spdmReady
  dsimp only
  split
  · exact hf _ _
  · simp

theorem unlessLatched_running (s : State) (c : Nat) (t : State) (h : t.sec.running = s.sec.running) :
    (unlessLatched s c t).sec.running = s.sec.running := by
  unfold unlessLatched
  dsimp only
  split <;> simp [h]

@[simp] theorem spdmSign_running (s : State) (c : Nat) (x : SpdmConn) (k : Nat) (r : SpdmReply) :
    (spdmSign s c x k r).sec.running = s.sec.running := by simp [spdmSign]

theorem spdmRandom_running (s : State) (c : Nat) (x : SpdmConn) (next : State)
    (hn : next.sec.running = s.sec.running) :
    (spdmRandom s c x next).sec.running = s.sec.running := by
  unfold spdmRandom
  split
  · simp
  · exact hn

@[simp] theorem spdmInSession_running (s : State) (c : Nat) (sid : Nat) (r : SpdmReply) :
    (spdmInSession s c sid r).sec.running = s.sec.running := by simp [spdmInSession]

@[simp] theorem spdmSessionEnds_running (s : State) (sid : Nat) : (spdmSessionEnds s sid).sec.running = s.sec.running := rfl

@[simp] theorem setIde_running (s : State) (p : Nat) (y : IdePort) : (setIde s p y).sec.running = s.sec.running := rfl

@[simp] theorem debugChanged_running (s : State) : (debugChanged s).sec.running = s.sec.running := by simp [debugChanged]

@[simp] theorem presentToken_running (s : State) (t : DebugToken) : (presentToken s t).1.sec.running = s.sec.running := by
  simp [presentToken]

@[simp] theorem lockDebug_running (s : State) : (lockDebug s).sec.running = s.sec.running := by simp [lockDebug]

/-! ### Machine/Entries -/

@[simp] theorem shown_running (s : State) : (shown s).sec.running = s.sec.running := by
  unfold shown
  split <;> simp

@[simp] theorem odClear_running (s : State) (idx : Nat) (sub : Nat) : (odClear s idx sub).sec.running = s.sec.running := rfl

@[simp] theorem setPlain_running (s : State) (idx : Nat) (sub : Nat) (v : Nat) :
    (setPlain s idx sub v).1.sec.running = s.sec.running := rfl

@[simp] theorem setUnless_running (s : State) (idx : Nat) (sub : Nat) (v : Nat) (p : Bool) (st : Status) :
    (setUnless s idx sub v p st).1.sec.running = s.sec.running := by simp [setUnless]

@[simp] theorem addressWrite_running (s : State) (e : Nat) (sub : Nat) (v : Nat) :
    (addressWrite s e sub v).1.sec.running = s.sec.running := by simp [addressWrite]

@[simp] theorem traceEnable_running (s : State) (v : Nat) : (traceEnable s v).sec.running = s.sec.running := by simp [traceEnable]

@[simp] theorem inputEnable_running (s : State) (i : Nat) (v : Nat) : (inputEnable s i v).sec.running = s.sec.running := by
  simp [inputEnable]

@[simp] theorem portEntryWrite_running (s : State) (p sub v : Nat) : (portEntryWrite s p sub v).1.sec.running = s.sec.running := by
  unfold portEntryWrite
  split <;> simp

@[simp] theorem writeLow_running (s : State) (idx sub v : Nat) : (writeLow s idx sub v).1.sec.running = s.sec.running := by
  simp [writeLow]

@[simp] theorem assignmentWrite_running (s : State) (n : Nat) (v : Nat) : (assignmentWrite s n v).1.sec.running = s.sec.running := by
  simp [assignmentWrite]

@[simp] theorem logEnableWrite_running (s : State) (c : Nat) (v : Nat) : (logEnableWrite s c v).1.sec.running = s.sec.running := by
  simp [logEnableWrite]

@[simp] theorem writeLog_running (s : State) (c : Nat) (idx : Nat) (sub : Nat) (v : Nat) :
    (writeLog s c idx sub v).1.sec.running = s.sec.running := by
  unfold writeLog
  split <;> simp

@[simp] theorem writeMid_running (s : State) (x : Session) (idx sub v : Nat) :
    (writeMid s x idx sub v).1.sec.running = s.sec.running := by simp [writeMid]

@[simp] theorem writeHigh_running (s : State) (idx : Nat) (sub : Nat) (v : Nat) :
    (writeHigh s idx sub v).1.sec.running = s.sec.running := by
  unfold writeHigh
  repeat' split
  all_goals simp

@[simp] theorem writeEntry_running (s : State) (x : Session) (idx : Nat) (sub : Nat) (v : Nat) :
    (writeEntry s x idx sub v).1.sec.running = s.sec.running := by simp [writeEntry]

@[simp] theorem writeOctets_running (s : State) (x : Session) (idx : Nat) (sub : Nat) (b : List Byte) :
    (writeOctets s x idx sub b).1.sec.running = s.sec.running := by simp [writeOctets]

@[simp] theorem portCommand_running (s : State) (p : Nat) (arg : Nat) : (portCommand s p arg).1.sec.running = s.sec.running := by
  unfold portCommand
  split <;> simp

@[simp] theorem bindCommand_running (s : State) (x : Session) (arg : Nat) : (bindCommand s x arg).1.sec.running = s.sec.running := by
  unfold bindCommand
  split <;> simp

@[simp] theorem queueMoveEntry_running (s : State) (x : Session) : (queueMoveEntry s x).1.sec.running = s.sec.running := by
  simp [queueMoveEntry]

@[simp] theorem shareMoveEntry_running (s : State) (x : Session) : (shareMoveEntry s x).1.sec.running = s.sec.running := by
  simp [shareMoveEntry]

@[simp] theorem setMoveEntry_running (s : State) (x : Session) : (setMoveEntry s x).1.sec.running = s.sec.running := by
  simp [setMoveEntry]

@[simp] theorem commandLow_running (s : State) (x : Session) (idx : Nat) (sub : Nat) (arg : Nat) :
    (commandLow s x idx sub arg).1.sec.running = s.sec.running := by
  unfold commandLow
  split <;> simp

@[simp] theorem resetBitmapEntry_running (s : State) (c : Nat) : (resetBitmapEntry s c).1.sec.running = s.sec.running := by
  simp [resetBitmapEntry]

@[simp] theorem commandMid_running (s : State) (x : Session) (idx : Nat) (sub : Nat) :
    (commandMid s x idx sub).1.sec.running = s.sec.running := by
  unfold commandMid
  split <;> simp

@[simp] theorem commandHigh_running (s : State) (x : Session) (idx : Nat) (sub : Nat) (arg : Nat) :
    (commandHigh s x idx sub arg).1.sec.running = s.sec.running := by
  unfold commandHigh
  repeat' split
  all_goals simp

@[simp] theorem commandEntry_running (s : State) (x : Session) (idx : Nat) (sub : Nat) (arg : Nat) :
    (commandEntry s x idx sub arg).1.sec.running = s.sec.running := by simp [commandEntry]

@[simp] theorem snapMark_running (s : State) (x : Session) (m : Option Nat) : (snapMark s x m).sec.running = s.sec.running := rfl

@[simp] theorem readDomain_running (s : State) (x : Session) (idx : Nat) (_sub : Nat) (o : Nat) (n : Nat) :
    (readDomain s x idx _sub o n).1.sec.running = s.sec.running := by simp [readDomain]

@[simp] theorem writeDomain_running (s : State) (_x : Session) (idx : Nat) (sub : Nat) (b : List Byte) :
    (writeDomain s _x idx sub b).1.sec.running = s.sec.running := by
  unfold writeDomain
  split
  · split
    · rfl
    · generalize (recordsOf 32 1024 b).zipIdx = rules
      exact foldl_running _ rules s fun t p => by simp
  all_goals simp

@[simp] theorem applySegment_running (s : State) (x : Session) (idx : Nat) (_sub : Nat) (before : List Byte) (data : List Byte) (last :
    Bool) :
    (applySegment s x idx _sub before data last).1.sec.running = s.sec.running := by
  unfold applySegment
  repeat' split
  all_goals simp

/-! ### Machine/Sprineno -/

@[simp] theorem updSession_running (s : State) (id : Nat) (f : Session → Session) : (updSession s id f).sec.running = s.sec.running :=
  rfl

@[simp] theorem sendAnswer_running (s : State) (via : Transport) (st : Status) (msg : List Byte) :
    (sendAnswer s via st msg).sec.running = s.sec.running := by simp [sendAnswer]

@[simp] theorem finish_running (s : State) (id : Nat) (seq : Nat) (reqId : Nat) (type : Nat) (via : Transport) (st : Status) (body :
    List Byte) :
    (finish s id seq reqId type via st body).sec.running = s.sec.running := by simp [finish]

theorem withRequest_running (s : State) (r : Req) (type since : Nat)
    (f : State → Session → State × Option (Status × List Byte))
    (hf : ∀ s x, (f s x).1.sec.running = s.sec.running) :
    (withRequest s r type since f).sec.running = s.sec.running := by
  unfold withRequest
  split
  · rfl
  · split
    · simp
    · split
      · simp
      · split
        · simp
        · extract_lets s0 x fresh s1
          have k1 : s1.sec.running = s.sec.running := by simp [s1, s0]
          have k0 : s0.sec.running = s.sec.running := by simp [s0]
          have k2 := hf s1 { x with high := some r.seq }
          generalize f s1 { x with high := some r.seq } = q at k2 ⊢
          clear_value s0 s1 x fresh
          obtain ⟨s2, o⟩ := q
          cases o with
          | none => (repeat' split) <;> simp_all
          | some a => (repeat' split) <;> simp_all

@[simp] theorem readItem_running (s : State) (x : Session) (idx : Nat) (sub : Nat) :
    (readItem s x idx sub).1.sec.running = s.sec.running := by
  unfold readItem
  repeat' split
  all_goals simp

@[simp] theorem readItems_running (s : State) (x : Session) (l : List (Nat × Nat)) :
    (readItems s x l).1.sec.running = s.sec.running := by
  induction l generalizing s with
  | nil => rfl
  | cons q l ih =>
    simp [readItems, ih]

@[simp] theorem writeItem_running (s : State) (x : Session) (w : WriteItem) : (writeItem s x w).1.sec.running = s.sec.running := by
  unfold writeItem
  repeat' split
  all_goals simp

@[simp] theorem countStored_running (s : State) (idx : Nat) (sub : Nat) : (countStored s idx sub).sec.running = s.sec.running := by
  unfold countStored
  split <;> simp

@[simp] theorem writeItems_running (s : State) (x : Session) (l : List WriteItem) :
    (writeItems s x l).1.sec.running = s.sec.running := by
  induction l generalizing s x with
  | nil => rfl
  | cons w l ih =>
    have h := writeItem_running s x w
    unfold writeItems
    generalize writeItem s x w = q at h ⊢
    obtain ⟨s1, st⟩ := q
    by_cases e : st = .ok
    · subst e
      have k := ih (countStored s1 w.index w.sub) ((session? s1 x.id).getD x)
      dsimp only at h ⊢
      rw [k]
      simpa using h
    · split
      · rename_i e'; cases e'; exact absurd rfl e
      · rename_i e'; cases e'; exact h

@[simp] theorem endSeg_running (s : State) (idx : Nat) (sub : Nat) : (endSeg s idx sub).sec.running = s.sec.running := rfl

@[simp] theorem segTake_running (s : State) (x : Session) (rw : Bool) (g : SegWrite) (last : Bool) (data : List Byte) :
    (segTake s x rw g last data).1.sec.running = s.sec.running := by
  unfold segTake
  dsimp only
  split
  · simp
  · generalize h : (if rw = true then _ else _ : State × Status) = r
    have k : r.1.sec.running = s.sec.running := by
      rw [← h]; split <;> simp
    split
    · split
      · split <;> simpa using k
      · simpa using k
    · simpa using k

@[simp] theorem sendNotify_running (s : State) (id : Nat) : (sendNotify s id).sec.running = s.sec.running := by
  unfold sendNotify
  split <;> simp

@[simp] theorem startImage_running (s : State) (w : ImageWrite) (checkOnly : Bool) :
    (startImage s w checkOnly).1.sec.running = s.sec.running := by simp [startImage]

@[simp] theorem defaultImage_running (s : State) (asker : Option (Nat × Nat)) (reqId : Nat) (arg : Nat) :
    (defaultImage s asker reqId arg).1.sec.running = s.sec.running := by simp [defaultImage]

@[simp] theorem commitDone_running (s : State) (w : ImageWrite) : (commitDone s w).sec.running = s.sec.running := by
  unfold commitDone
  dsimp only
  repeat' split
  all_goals simp

/-! ### Machine/Startup -/

@[simp] theorem bootFails_running (s : State) : (bootFails s).sec.running = s.sec.running := rfl

@[simp] theorem loadEntries_running (s : State) (im : ImageSlot) : (loadEntries s im).sec.running = s.sec.running := rfl

@[simp] theorem loadRoutes_running (s : State) (im : ImageSlot) : (loadRoutes s im).sec.running = s.sec.running := rfl

@[simp] theorem loadSets_running (s : State) (im : ImageSlot) : (loadSets s im).sec.running = s.sec.running := rfl

@[simp] theorem showSlots_running (s : State) : (showSlots s).sec.running = s.sec.running := rfl

@[simp] theorem imageCheck_running (s : State) : (imageCheck s).sec.running = s.sec.running := by simp [imageCheck]

@[simp] theorem nameAll_running (s : State) : (nameAll s).sec.running = s.sec.running := by simp [nameAll]

@[simp] theorem slotsStart_running (s : State) : (slotsStart s).sec.running = s.sec.running := by simp [slotsStart]

@[simp] theorem reservoirMeasured_running (s : State) (uf : Nat) : (reservoirMeasured s uf).sec.running = s.sec.running := by
  simp [reservoirMeasured]

@[simp] theorem startDictionary_running (s : State) (f : StartupFind) : (startDictionary s f).sec.running = s.sec.running := by
  simp [startDictionary]

@[simp] theorem countersRestart_running (s : State) : (countersRestart s).sec.running = s.sec.running := rfl

@[simp] theorem statesStart_running (s : State) : (statesStart s).sec.running = s.sec.running := by simp [statesStart]

@[simp] theorem limitsStart_running (s : State) : (limitsStart s).sec.running = s.sec.running := by
  unfold limitsStart
  have h := bufferCommit_running s
  split <;> (rename_i e; rw [e] at h)
  · exact foldl_from_running s _ _ _ h fun t d => by simp
  · simpa using h

@[simp] theorem stagesStart_running (s : State) : (stagesStart s).sec.running = s.sec.running := rfl

@[simp] theorem startMain_running (s : State) : (startMain s).sec.running = s.sec.running := by simp [startMain]

@[simp] theorem culletActive_running (s : State) : (culletActive s).sec.running = s.sec.running := rfl

@[simp] theorem retiredWay_running (s : State) (loc : Nat) : (retiredWay s loc).sec.running = s.sec.running := by
  unfold retiredWay
  split <;> simp

@[simp] theorem bypassStop_running (retired : List Nat) (r : State × Bool) (n : Nat) :
    (bypassStop retired r n).1.sec.running = r.1.sec.running := by
  unfold bypassStop
  dsimp only
  split <;> simp

@[simp] theorem selfTestDefect_running (r : State × Bool) (d : SelfTestDefect) :
    (selfTestDefect r d).1.sec.running = r.1.sec.running := by
  unfold selfTestDefect
  dsimp only
  repeat' split
  all_goals simp

@[simp] theorem culletApply_running (s : State) : (culletApply s).1.sec.running = s.sec.running := by
  unfold culletApply
  dsimp only
  refine foldl_fst_from_running s _ _ _ ?_ fun x a => bypassStop_running _ _ _
  exact foldl_from_running s _ _ _ (by simp) fun t a => by simp

@[simp] theorem startupStops_running (s : State) : (startupStops s).sec.running = s.sec.running := rfl

@[simp] theorem startSelfTest_running (s : State) (f : StartupFind) :
    (startSelfTest s f).sec.running = s.sec.running := by
  unfold startSelfTest
  have h : (f.defects.foldl selfTestDefect (culletApply s)).1.sec.running = s.sec.running :=
    foldl_fst_from_running s _ _ _ (culletApply_running s) fun x a => selfTestDefect_running x a
  dsimp only
  split <;> simp [h]

@[simp] theorem startMemory_running (s : State) (f : StartupFind) : (startMemory s f).sec.running = s.sec.running := by
  unfold startMemory
  split <;> simp

@[simp] theorem startRange_running (s : State) (i : Nat) (base : Nat) (limit : Nat) (vcs : BitVec 64) (sw : List Nat) :
    (startRange s i base limit vcs sw).sec.running = s.sec.running := rfl

@[simp] theorem startRecovery_running (s : State) : (startRecovery s).sec.running = s.sec.running := by
  unfold startRecovery
  dsimp only
  split
  · simp
  · exact foldl_running _ _ _ fun t i => by simp

@[simp] theorem startDirectory_running (s : State) : (startDirectory s).sec.running = s.sec.running := by simp [startDirectory]

@[simp] theorem drawEpochs_running (s : State) : (drawEpochs s).sec.running = s.sec.running := by simp [drawEpochs]

@[simp] theorem perstAtStart_running (s : State) (p : Nat) : (perstAtStart s p).sec.running = s.sec.running := by simp [perstAtStart]

@[simp] theorem trainAll_running (s : State) : (trainAll s).sec.running = s.sec.running := by simp [trainAll]

@[simp] theorem startLinks_running (s : State) : (startLinks s).sec.running = s.sec.running := by simp [startLinks]

@[simp] theorem startReady_running (s : State) : (startReady s).sec.running = s.sec.running := by simp [startReady]

end Sys2Proof.Proofs.RunningFrames

/-!
No command outside `reachesManagement` changes which firmware runs (R446): one rule per command, in the order of the model.
-/

namespace Sys2Proof.Proofs.RunningFirmware

open Sys2Proof Sys2Proof.Machine Sys2Proof.Laws Sys2Proof.Safety Sys2Proof.Proofs.Shared Sys2Proof.Proofs.RunningFrames

/-- An outcome whose next state runs the same firmware. -/
def RunsOn (s : State) : Host.Outcome State Fault Refusal → Prop
  | .next t => t.sec.running = s.sec.running
  | _ => True

@[simp] theorem runsOn_next (s t : State) : RunsOn s (.next t) ↔ t.sec.running = s.sec.running := Iff.rfl

@[simp] theorem runsOn_answered (s : State) (r : State × Status) : RunsOn s (answered r) ↔ r.1.sec.running = s.sec.running := Iff.rfl

@[simp] theorem runsOn_fmAnswer (s t : State) (rc : FmRc) (vals : List Nat) :
    RunsOn s (fmAnswer t rc vals) ↔ t.sec.running = s.sec.running := Iff.rfl

/-! ### Commands of Machine/Trace -/

theorem execTraceRingRead_runsOn (n : Fin 65537) (s : State) : RunsOn s (execTraceRingRead n s) := by simp [execTraceRingRead]

theorem execTraceReadIndexWrite_runsOn (i : BitVec 64) (s : State) : RunsOn s (execTraceReadIndexWrite i s) := rfl

/-! ### Commands of Machine/Crossing -/

theorem execCrossingResend_runsOn (c : Fin 686) (s : State) : RunsOn s (execCrossingResend c s) := by simp [execCrossingResend]

/-! ### Commands of Machine/Egress -/

theorem execBufferLimitCommit_runsOn (s : State) : RunsOn s (execBufferLimitCommit s) := by simp [execBufferLimitCommit]

theorem execRaisedLimitsActive_runsOn (d : Fin 4) (s : State) : RunsOn s (execRaisedLimitsActive d s) := by simp [execRaisedLimitsActive]

theorem execCutThroughUnitArrive_runsOn (port : Fin 112) (v : Vn) (s : State) : RunsOn s (execCutThroughUnitArrive port v s) := by
  simp [execCutThroughUnitArrive]

/-! ### Commands of Machine/Proxy -/

theorem execProxySnoop_runsOn (v : Fin 64) (s : State) : RunsOn s (execProxySnoop v s) := by
  unfold execProxySnoop
  split <;> simp

theorem execProxyHostRequest_runsOn (v : Fin 64) (s : State) : RunsOn s (execProxyHostRequest v s) := by
  unfold execProxyHostRequest
  repeat' split
  all_goals simp

theorem execProxyHostWrite_runsOn (v : Fin 64) (s : State) : RunsOn s (execProxyHostWrite v s) := by
  unfold execProxyHostWrite
  repeat' split
  all_goals simp

theorem execProxyBirsp_runsOn (v : Fin 64) (s : State) : RunsOn s (execProxyBirsp v s) := by
  unfold execProxyBirsp
  repeat' split
  all_goals simp

theorem execBiconflict_runsOn (v : Fin 64) (s : State) : RunsOn s (execBiconflict v s) := by
  unfold execBiconflict
  repeat' split
  all_goals simp

theorem execProxyResponse_runsOn (v : Fin 64) (dat : Bool) (s : State) : RunsOn s (execProxyResponse v dat s) := by
  unfold execProxyResponse
  split <;> simp

/-! ### Commands of Machine/Fabric -/

theorem execCrossingUnitReceive_runsOn (c : Fin 686) (w : UnitBits) (s : State) : RunsOn s (execCrossingUnitReceive c w s) := by
  unfold execCrossingUnitReceive
  dsimp only
  split <;> simp

theorem execRingHop_runsOn (m : RingMove) (s : State) : RunsOn s (execRingHop m s) := by
  unfold execRingHop
  split <;> simp

theorem execStarvationGuard_runsOn (q : RingEntry) (s : State) : RunsOn s (execStarvationGuard q s) := by
  unfold execStarvationGuard
  dsimp only
  repeat' split
  all_goals simp

theorem execRouteTableWrite_runsOn (t : RouteTable) (s : State) : RunsOn s (execRouteTableWrite t s) := by simp [execRouteTableWrite]

theorem execRouteDrainComplete_runsOn (s : State) : RunsOn s (execRouteDrainComplete s) := by
  unfold execRouteDrainComplete
  split <;> simp

/-! ### Commands of Machine/EgressOut -/

theorem execEgressFlitSent_runsOn (port : Fin 96) (vn : Vn) (s : State) : RunsOn s (execEgressFlitSent port vn s) := by
  unfold execEgressFlitSent
  split <;> simp

theorem execAgeingExamination_runsOn (hp : HoldPoint) (s : State) : RunsOn s (execAgeingExamination hp s) := by
  simp [execAgeingExamination]

/-! ### Commands of Machine/Remap -/

theorem execRemapCacheFill_runsOn (l : Fin 32) (g : Fin 8388608) (bad : Bool) (s : State) : RunsOn s (execRemapCacheFill l g bad s) := by
  simp [execRemapCacheFill]

theorem execOpenRemapGate_runsOn (s : State) : RunsOn s (execOpenRemapGate s) := by simp [execOpenRemapGate]

/-! ### Commands of Machine/Home -/

theorem execHomeIntakeCycle_runsOn (l : Fin 32) (s : State) : RunsOn s (execHomeIntakeCycle l s) := by simp [execHomeIntakeCycle]

theorem execSeniorHoldExpire_runsOn (l : Fin 32) (line : BitVec 42) (s : State) : RunsOn s (execSeniorHoldExpire l line s) := rfl

theorem execSeniorEntryTimeout_runsOn (l : Fin 32) (i : Fin 8) (s : State) : RunsOn s (execSeniorEntryTimeout l i s) := rfl

theorem execSnoopFilterFill_runsOn (l : Fin 32) (t : Fin 2048) (s : State) : RunsOn s (execSnoopFilterFill l t s) := by
  unfold execSnoopFilterFill
  repeat' split
  all_goals simp

theorem execSnoopFilterInsertion_runsOn (l : Fin 32) (s : State) : RunsOn s (execSnoopFilterInsertion l s) := by
  simp [execSnoopFilterInsertion]

/-! ### Commands of Machine/Pool -/

theorem execPoolPortMemrd_runsOn (p : Fin 96) (s : State) : RunsOn s (execPoolPortMemrd p s) := by simp [execPoolPortMemrd]

theorem execPoolPortMemwr_runsOn (p : Fin 96) (s : State) : RunsOn s (execPoolPortMemwr p s) := by simp [execPoolPortMemwr]

theorem execWrpull_runsOn (p : Fin 96) (s : State) : RunsOn s (execWrpull p s) := by simp [execWrpull]

theorem execPoolPortMemdata_runsOn (p : Fin 96) (s : State) : RunsOn s (execPoolPortMemdata p s) := by simp [execPoolPortMemdata]

theorem execPoolPortExpanderResponse_runsOn (p : Fin 96) (dat : Bool) (s : State) : RunsOn s (execPoolPortExpanderResponse p dat s) := by
  unfold execPoolPortExpanderResponse
  repeat' split
  all_goals simp

/-! ### Commands of Machine/Moves -/

theorem execRemapEntryWrite_runsOn (g : Fin 8388608) (v : BitVec 64) (s : State) : RunsOn s (execRemapEntryWrite g v s) := by
  simp [execRemapEntryWrite]

theorem execMoveGranuleClear_runsOn (m : Fin 1024) (s : State) : RunsOn s (execMoveGranuleClear m s) := by simp [execMoveGranuleClear]

theorem execRemapWriteComplete_runsOn (s : State) : RunsOn s (execRemapWriteComplete s) := by simp [execRemapWriteComplete]

theorem execRemapBulkLoad_runsOn (records : List (BitVec 128)) (s : State) : RunsOn s (execRemapBulkLoad records s) := by
  simp [execRemapBulkLoad]

theorem execMoveExecute_runsOn (sess : BitVec 32) (g : Fin 8388608) (dest : BitVec 64) (restore : Bool) (s : State) :
    RunsOn s (execMoveExecute sess g dest restore s) := by simp [execMoveExecute]

theorem execMovePageStart_runsOn (m : Fin 1024) (s : State) : RunsOn s (execMovePageStart m s) := by simp [execMovePageStart]

theorem execMovePageClear_runsOn (m : Fin 1024) (s : State) : RunsOn s (execMovePageClear m s) := by simp [execMovePageClear]

theorem execMovePageComplete_runsOn (m : Fin 1024) (s : State) : RunsOn s (execMovePageComplete m s) := by simp [execMovePageComplete]

theorem execMovePageAbandon_runsOn (m : Fin 1024) (s : State) : RunsOn s (execMovePageAbandon m s) := by
  unfold execMovePageAbandon
  repeat' split
  all_goals simp

theorem execSalvagePage_runsOn (m : Fin 1024) (s : State) : RunsOn s (execSalvagePage m s) := by simp [execSalvagePage]

theorem execRestoreFillComplete_runsOn (m : Fin 1024) (s : State) : RunsOn s (execRestoreFillComplete m s) := by
  simp [execRestoreFillComplete]

theorem execMoveCancel_runsOn (m : Fin 1024) (s : State) : RunsOn s (execMoveCancel m s) := by simp [execMoveCancel]

theorem execTierMoverResponse_runsOn (dat : Bool) (s : State) : RunsOn s (execTierMoverResponse dat s) := by
  unfold execTierMoverResponse
  dsimp only
  split <;> simp

theorem execPoisonSweepStep_runsOn (s : State) : RunsOn s (execPoisonSweepStep s) := by simp [execPoisonSweepStep]

/-! ### Commands of Machine/DirOps -/

theorem execRemovalPassStep_runsOn (s : State) : RunsOn s (execRemovalPassStep s) := by
  unfold execRemovalPassStep
  split <;> simp

theorem execRemovalPassComplete_runsOn (s : State) : RunsOn s (execRemovalPassComplete s) := by simp [execRemovalPassComplete]

theorem execRecoveryFlushComplete_runsOn (v : Fin 64) (s : State) : RunsOn s (execRecoveryFlushComplete v s) := by
  simp [execRecoveryFlushComplete]

theorem execGpfCompletion_runsOn (v : Fin 64) (s : State) : RunsOn s (execGpfCompletion v s) := by simp [execGpfCompletion]

theorem execRecoverydone_runsOn (w : Fin 1024) (s : State) : RunsOn s (execRecoverydone w s) := by simp [execRecoverydone]

theorem execAbandonVcs_runsOn (i : Fin 64) (v : Fin 64) (s : State) : RunsOn s (execAbandonVcs i v s) := by simp [execAbandonVcs]

theorem execAbandonSwitch_runsOn (i : Fin 64) (w : Fin 1024) (s : State) : RunsOn s (execAbandonSwitch i w s) := by
  simp [execAbandonSwitch]

theorem execRecoveryTimeout_runsOn (i : Fin 64) (s : State) : RunsOn s (execRecoveryTimeout i s) := by
  unfold execRecoveryTimeout
  dsimp only
  split <;> simp

theorem execDeclarePeerLost_runsOn (w : Fin 1024) (s : State) : RunsOn s (execDeclarePeerLost w s) := by simp [execDeclarePeerLost]

theorem execFlushRangeExecute_runsOn (base : BitVec 64) (limit : BitVec 64) (s : State) : RunsOn s (execFlushRangeExecute base limit s) := by
  simp [execFlushRangeExecute]

theorem execRangeWalkStep_runsOn (i : Fin 65536) (s : State) : RunsOn s (execRangeWalkStep i s) := by
  unfold execRangeWalkStep
  split <;> simp

theorem execRangeWalkComplete_runsOn (i : Fin 65536) (s : State) : RunsOn s (execRangeWalkComplete i s) := by
  simp [execRangeWalkComplete]

theorem execDirectoryUncorrectable_runsOn (e : DirError) (s : State) : RunsOn s (execDirectoryUncorrectable e s) := by
  simp [execDirectoryUncorrectable]

theorem execMarverPassStep_runsOn (blocks : Fin 129) (way : Option (Fin 32 × Fin 16)) (s : State) :
    RunsOn s (execMarverPassStep blocks way s) := by
  unfold execMarverPassStep
  split <;> simp

theorem execPartitionCommit_runsOn (s : State) : RunsOn s (execPartitionCommit s) := by simp [execPartitionCommit]

theorem execPartitionClearDone_runsOn (s : State) : RunsOn s (execPartitionClearDone s) := by
  unfold execPartitionClearDone
  split <;> simp

/-! ### Commands of Machine/Guard -/

theorem execGuardCommit_runsOn (s : State) : RunsOn s (execGuardCommit s) := by simp [execGuardCommit]

theorem execGuardStageSwap_runsOn (g : Fin 17) (s : State) : RunsOn s (execGuardStageSwap g s) := by simp [execGuardStageSwap]

theorem execCopyActiveSetToShadow_runsOn (s : State) : RunsOn s (execCopyActiveSetToShadow s) := by simp [execCopyActiveSetToShadow]

/-! ### Commands of Machine/Inject -/

theorem execUnitInjection_runsOn (n : Fin 144) (a : Fin 16) (v : Vn) (s : State) : RunsOn s (execUnitInjection n a v s) := by
  simp [execUnitInjection]

/-! ### Commands of Machine/MovCache -/

theorem execMoverCacheSnoop_runsOn (s : State) : RunsOn s (execMoverCacheSnoop s) := by
  unfold execMoverCacheSnoop
  dsimp only
  split <;> simp

/-! ### Commands of Machine/MovQueue -/

theorem execQueueEnable_runsOn (fn : Fin 1088) (isCq : Bool) (loc : Fin 4096) (addr : BitVec 64) (s : State) :
    RunsOn s (execQueueEnable fn isCq loc addr s) := by simp [execQueueEnable]

theorem execQcbEnableReadDone_runsOn (isCq : Bool) (q : Fin 4096) (s : State) : RunsOn s (execQcbEnableReadDone isCq q s) := by
  simp [execQcbEnableReadDone]

theorem execQueueDisable_runsOn (fn : Fin 1088) (isCq : Bool) (loc : Fin 4096) (s : State) : RunsOn s (execQueueDisable fn isCq loc s) := by
  simp [execQueueDisable]

theorem execSqStopComplete_runsOn (q : Fin 4096) (s : State) : RunsOn s (execSqStopComplete q s) := by simp [execSqStopComplete]

theorem execSqDoorbell_runsOn (fn : Fin 1088) (loc : Fin 4096) (s : State) : RunsOn s (execSqDoorbell fn loc s) := by
  simp [execSqDoorbell]

theorem execCqDoorbell_runsOn (fn : Fin 1088) (loc : Fin 4096) (s : State) : RunsOn s (execCqDoorbell fn loc s) := by
  simp [execCqDoorbell]

theorem execSqQcbReadDone_runsOn (q : Fin 4096) (s : State) : RunsOn s (execSqQcbReadDone q s) := by simp [execSqQcbReadDone]

theorem execCqQcbReadDone_runsOn (q : Fin 1024) (s : State) : RunsOn s (execCqQcbReadDone q s) := by simp [execCqQcbReadDone]

theorem execDescriptorFetchDone_runsOn (q : Fin 4096) (s : State) : RunsOn s (execDescriptorFetchDone q s) := by
  simp [execDescriptorFetchDone]

theorem execNop_runsOn (q : Fin 4096) (s : State) : RunsOn s (execNop q s) := by simp [execNop]

theorem execCopy_runsOn (q : Fin 4096) (s : State) : RunsOn s (execCopy q s) := by simp [execCopy]

theorem execFill_runsOn (q : Fin 4096) (s : State) : RunsOn s (execFill q s) := by simp [execFill]

theorem execZero_runsOn (q : Fin 4096) (s : State) : RunsOn s (execZero q s) := by simp [execZero]

theorem execCompare_runsOn (q : Fin 4096) (s : State) : RunsOn s (execCompare q s) := by simp [execCompare]

theorem execCheck_runsOn (q : Fin 4096) (s : State) : RunsOn s (execCheck q s) := by simp [execCheck]

theorem execAtomicFetchAdd_runsOn (q : Fin 4096) (s : State) : RunsOn s (execAtomicFetchAdd q s) := by simp [execAtomicFetchAdd]

theorem execAtomicSwap_runsOn (q : Fin 4096) (s : State) : RunsOn s (execAtomicSwap q s) := by simp [execAtomicSwap]

theorem execAtomicCompareAndSwap_runsOn (q : Fin 4096) (s : State) : RunsOn s (execAtomicCompareAndSwap q s) := by
  simp [execAtomicCompareAndSwap]

theorem execFlush_runsOn (q : Fin 4096) (s : State) : RunsOn s (execFlush q s) := by simp [execFlush]

theorem execFence_runsOn (q : Fin 4096) (s : State) : RunsOn s (execFence q s) := by simp [execFence]

theorem execMark_runsOn (q : Fin 4096) (s : State) : RunsOn s (execMark q s) := by simp [execMark]

theorem execMigrateGranule_runsOn (q : Fin 4096) (s : State) : RunsOn s (execMigrateGranule q s) := by simp [execMigrateGranule]

theorem execPieceComplete_runsOn (q : Fin 4096) (i : BitVec 32) (s : State) : RunsOn s (execPieceComplete q i s) := by
  unfold execPieceComplete
  dsimp only
  split <;> simp

theorem execDescriptorComplete_runsOn (q : Fin 4096) (i : BitVec 32) (s : State) : RunsOn s (execDescriptorComplete q i s) := by
  simp [execDescriptorComplete]

theorem execFlushWholeMoverCache_runsOn (s : State) : RunsOn s (execFlushWholeMoverCache s) := by simp [execFlushWholeMoverCache]

theorem execCheckUnitOwnerWrite_runsOn (u : Fin 16) (fn : BitVec 16) (s : State) : RunsOn s (execCheckUnitOwnerWrite u fn s) := by
  simp [execCheckUnitOwnerWrite]

theorem execCheckUnitContextWrite_runsOn (u : Fin 16) (ctx : BitVec 512) (s : State) : RunsOn s (execCheckUnitContextWrite u ctx s) := by
  simp [execCheckUnitContextWrite]

/-! ### Commands of Machine/MovPool -/

theorem execPoolMemoryRead_runsOn (s : State) : RunsOn s (execPoolMemoryRead s) := by simp [execPoolMemoryRead]

theorem execPoolMemoryWrite_runsOn (s : State) : RunsOn s (execPoolMemoryWrite s) := by simp [execPoolMemoryWrite]

theorem execPoolDeferrableMemoryWrite_runsOn (s : State) : RunsOn s (execPoolDeferrableMemoryWrite s) := by
  simp [execPoolDeferrableMemoryWrite]

theorem execPoolFetchadd_runsOn (s : State) : RunsOn s (execPoolFetchadd s) := by simp [execPoolFetchadd]

theorem execPoolSwap_runsOn (s : State) : RunsOn s (execPoolSwap s) := by simp [execPoolSwap]

theorem execPoolCas_runsOn (s : State) : RunsOn s (execPoolCas s) := by simp [execPoolCas]

theorem execMoverCacheResponse_runsOn (dat : Bool) (s : State) : RunsOn s (execMoverCacheResponse dat s) := by
  unfold execMoverCacheResponse
  dsimp only
  split <;> simp

theorem execProxyBackoffEnd_runsOn (ag : Fin 65) (t : Fin 4096) (s : State) : RunsOn s (execProxyBackoffEnd ag t s) := by
  unfold execProxyBackoffEnd
  repeat' split
  all_goals simp

/-! ### Commands of Machine/Veneer -/

theorem execFunctionResetComplete_runsOn (n : Fin 1088) (s : State) : RunsOn s (execFunctionResetComplete n s) := by
  simp [execFunctionResetComplete]

theorem execControlPageReset_runsOn (n : Fin 1088) (s : State) : RunsOn s (execControlPageReset n s) := by simp [execControlPageReset]

theorem execFunctionLevelReset_runsOn (n : Fin 1088) (s : State) : RunsOn s (execFunctionLevelReset n s) := by
  simp [execFunctionLevelReset]

theorem execVfEnableClear_runsOn (v : Fin 64) (s : State) : RunsOn s (execVfEnableClear v s) := by simp [execVfEnableClear]

theorem execFunctionReset_runsOn (n : Fin 1088) (s : State) : RunsOn s (execFunctionReset n s) := by simp [execFunctionReset]

theorem execFunctionAssign_runsOn (f : Fin 1024) (v : Fin 255) (slot : Fin 2048) (s : State) : RunsOn s (execFunctionAssign f v slot s) := by
  simp [execFunctionAssign]

theorem execFunctionUnassign_runsOn (f : Fin 1024) (s : State) : RunsOn s (execFunctionUnassign f s) := by simp [execFunctionUnassign]

theorem execQueueMove_runsOn (sess : BitVec 32) (isCq : Bool) (q : Fin 4096) (owner : Option (Fin 1088)) (loc : Fin 4096) (s : State) :
    RunsOn s (execQueueMove sess isCq q owner loc s) := by simp [execQueueMove]

theorem execShareMove_runsOn (a : Fin 1088) (b : Fin 1088) (n : BitVec 16) (s : State) : RunsOn s (execShareMove a b n s) := by
  simp [execShareMove]

theorem execCounterSetMove_runsOn (c : Fin 1024) (fn : Option (Fin 1024)) (s : State) : RunsOn s (execCounterSetMove c fn s) := by
  simp [execCounterSetMove]

theorem execLogProducerWriteback_runsOn (c : Fin 1088) (s : State) : RunsOn s (execLogProducerWriteback c s) := by
  unfold execLogProducerWriteback
  split <;> simp

theorem execLogDoorbell_runsOn (v : Fin 64) (c : Fin 1088) (s : State) : RunsOn s (execLogDoorbell v c s) := by simp [execLogDoorbell]

theorem execLogRearmDone_runsOn (c : Fin 1088) (s : State) : RunsOn s (execLogRearmDone c s) := by simp [execLogRearmDone]

theorem execLogEnable_runsOn (c : Fin 1088) (lcb : Option (BitVec 512)) (s : State) : RunsOn s (execLogEnable c lcb s) := by
  simp [execLogEnable]

theorem execLogDisable_runsOn (c : Fin 1088) (s : State) : RunsOn s (execLogDisable c s) := by simp [execLogDisable]

theorem execResetBitmap_runsOn (c : Fin 1088) (i : BitVec 32) (s : State) : RunsOn s (execResetBitmap c i s) := by simp [execResetBitmap]

theorem execBitmapClearDone_runsOn (c : Fin 1088) (s : State) : RunsOn s (execBitmapClearDone c s) := by simp [execBitmapClearDone]

/-! ### Commands of Machine/Aulum -/

theorem execRestartGraceExpire_runsOn (s : State) : RunsOn s (execRestartGraceExpire s) := by simp [execRestartGraceExpire]

theorem execRouteCommit_runsOn (s : State) : RunsOn s (execRouteCommit s) := by simp [execRouteCommit]

theorem execRestartNoticeRepeat_runsOn (w : Fin 1024) (s : State) : RunsOn s (execRestartNoticeRepeat w s) := by
  unfold execRestartNoticeRepeat
  split <;> simp

theorem execRestartNotice_runsOn (w : Fin 1024) (epoch : BitVec 32) (s : State) : RunsOn s (execRestartNotice w epoch s) := by
  simp [execRestartNotice]

theorem execRestartNoticeAck_runsOn (w : Fin 1024) (s : State) : RunsOn s (execRestartNoticeAck w s) := by simp [execRestartNoticeAck]

theorem execRecoveryRequestReceive_runsOn (w : Fin 1024) (s : State) : RunsOn s (execRecoveryRequestReceive w s) := by
  simp [execRecoveryRequestReceive]

theorem execQuarantineExpire_runsOn (q : QuarEntry) (s : State) : RunsOn s (execQuarantineExpire q s) := by
  unfold execQuarantineExpire
  split <;> simp

theorem execSpareReq_runsOn (a : Fin 16) (blocks : LaneBlocks) (s : State) : RunsOn s (execSpareReq a blocks s) := by
  unfold execSpareReq
  split <;> simp

theorem execSpareAck_runsOn (a : Fin 16) (blocks : LaneBlocks) (s : State) : RunsOn s (execSpareAck a blocks s) := by
  unfold execSpareAck
  repeat' split
  all_goals simp

theorem execSpareRefuse_runsOn (a : Fin 16) (blocks : LaneBlocks) (s : State) : RunsOn s (execSpareRefuse a blocks s) := by
  unfold execSpareRefuse
  split <;> simp

theorem execResume_runsOn (a : Fin 16) (blocks : LaneBlocks) (s : State) : RunsOn s (execResume a blocks s) := by
  unfold execResume
  split <;> simp

theorem execPauseTimeout_runsOn (a : Fin 16) (s : State) : RunsOn s (execPauseTimeout a s) := by
  unfold execPauseTimeout
  split <;> simp

theorem execTs_runsOn (a : Fin 16) (work : BitVec 4) (spares : BitVec 2) (blocks : LaneBlocks) (s : State) :
    RunsOn s (execTs a work spares blocks s) := by
  unfold execTs
  split <;> simp

theorem execTrainingTimeout_runsOn (a : Fin 16) (s : State) : RunsOn s (execTrainingTimeout a s) := by
  unfold execTrainingTimeout
  split <;> simp

theorem execRetrainInterval_runsOn (a : Fin 16) (s : State) : RunsOn s (execRetrainInterval a s) := by
  unfold execRetrainInterval
  split <;> simp

theorem execSyncLoss_runsOn (a : Fin 16) (s : State) : RunsOn s (execSyncLoss a s) := by
  unfold execSyncLoss
  split <;> simp

theorem execAulumPortEnable_runsOn (a : Fin 16) (s : State) : RunsOn s (execAulumPortEnable a s) := by simp [execAulumPortEnable]

theorem execAulumPortDisable_runsOn (a : Fin 16) (s : State) : RunsOn s (execAulumPortDisable a s) := by simp [execAulumPortDisable]

theorem execSystemNumberingWrite_runsOn (i : Fin 4) (v : BitVec 16) (s : State) : RunsOn s (execSystemNumberingWrite i v s) := by
  simp [execSystemNumberingWrite]

/-! ### Commands of Machine/AulFlit -/

theorem execAulumKeyWrite_runsOn (a : Fin 16) (tx : Bool) (k : Bool) (key : BitVec 256) (mode : Mode) (s : State) :
    RunsOn s (execAulumKeyWrite a tx k key mode s) := by simp [execAulumKeyWrite]

theorem execTransmitRollover_runsOn (a : Fin 16) (s : State) : RunsOn s (execTransmitRollover a s) := by simp [execTransmitRollover]

theorem execAulumFlitReceive_runsOn (a : Fin 16) (blocks : LaneBlocks) (s : State) : RunsOn s (execAulumFlitReceive a blocks s) := by
  simp [execAulumFlitReceive]

theorem execAckTimerExpire_runsOn (a : Fin 16) (s : State) : RunsOn s (execAckTimerExpire a s) := by
  unfold execAckTimerExpire
  dsimp only
  split <;> simp

theorem execNakReceived_runsOn (a : Fin 16) (s : State) : RunsOn s (execNakReceived a s) := by
  unfold execNakReceived
  split <;> simp

theorem execReplayTimerExpire_runsOn (a : Fin 16) (s : State) : RunsOn s (execReplayTimerExpire a s) := by
  unfold execReplayTimerExpire
  split <;> simp

theorem execAulumFlitTransmit_runsOn (a : Fin 16) (s : State) : RunsOn s (execAulumFlitTransmit a s) := by simp [execAulumFlitTransmit]

theorem execMacGroupTimeout_runsOn (a : Fin 16) (s : State) : RunsOn s (execMacGroupTimeout a s) := by
  unfold execMacGroupTimeout
  dsimp only
  split <;> simp

/-! ### Commands of Machine/Remote -/

theorem execCombinedReply_runsOn (a : Fin 16) (s : State) : RunsOn s (execCombinedReply a s) := by simp [execCombinedReply]

theorem execRemoteAgentReceive_runsOn (a : Fin 16) (v : Vn) (s : State) : RunsOn s (execRemoteAgentReceive a v s) := by
  simp [execRemoteAgentReceive]

/-! ### Commands of Machine/Binding -/

theorem execBindVppb_runsOn (src : FmSource) (v : Fin 64) (d : Fin 32) (p : Fin 96) (l : Fin 16) (s : State) :
    RunsOn s (execBindVppb src v d p l s) := by simp [execBindVppb]

theorem execVppbPartnerL0_runsOn (v : Fin 64) (d : Fin 32) (s : State) : RunsOn s (execVppbPartnerL0 v d s) := by
  unfold execVppbPartnerL0
  dsimp only
  split <;> simp

theorem execUnbindVppb_runsOn (src : FmSource) (v : Fin 64) (d : Fin 32) (opt : Fin 3) (s : State) :
    RunsOn s (execUnbindVppb src v d opt s) := by simp [execUnbindVppb]

theorem execManagedRemoveTimeout_runsOn (v : Fin 64) (d : Fin 32) (s : State) : RunsOn s (execManagedRemoveTimeout v d s) := by
  unfold execManagedRemoveTimeout
  dsimp only
  split <;> simp

/-! ### Commands of Machine/Ports -/

theorem execPerstRelease_runsOn (p : Fin 96) (s : State) : RunsOn s (execPerstRelease p s) := by simp [execPerstRelease]

theorem execPortDown_runsOn (p : Fin 96) (s : State) : RunsOn s (execPortDown p s) := by
  unfold execPortDown
  split <;> simp

theorem execPerstAssert_runsOn (p : Fin 96) (hot : Bool) (s : State) : RunsOn s (execPerstAssert p hot s) := by
  unfold execPerstAssert
  split <;> simp

theorem execVcsResetRelease_runsOn (p : Fin 96) (s : State) : RunsOn s (execVcsResetRelease p s) := by
  unfold execVcsResetRelease
  dsimp only
  split <;> simp

theorem execVcsEnableWrite_runsOn (v : Fin 64) (on : Bool) (s : State) : RunsOn s (execVcsEnableWrite v on s) := by
  simp [execVcsEnableWrite]

theorem execPortRoleWrite_runsOn (p : Fin 96) (r : Byte) (s : State) : RunsOn s (execPortRoleWrite p r s) := by simp [execPortRoleWrite]

theorem execPortWidthWrite_runsOn (p : Fin 96) (w : Byte) (s : State) : RunsOn s (execPortWidthWrite p w s) := by
  simp [execPortWidthWrite]

theorem execPortConfigWrite_runsOn (p : Fin 96) (x : PortSetting) (s : State) : RunsOn s (execPortConfigWrite p x s) := by
  simp [execPortConfigWrite]

theorem execPortTrained_runsOn (p : Fin 96) (x : LinkPartner) (s : State) : RunsOn s (execPortTrained p x s) := by simp [execPortTrained]

theorem execUpstreamTrainingRetry_runsOn (p : Fin 96) (s : State) : RunsOn s (execUpstreamTrainingRetry p s) := by
  unfold execUpstreamTrainingRetry
  split <;> simp

theorem execL0pWidthRequest_runsOn (p : Fin 96) (w : Fin 17) (s : State) : RunsOn s (execL0pWidthRequest p w s) := by
  simp [execL0pWidthRequest]

theorem execLaneMargining_runsOn (p : Fin 96) (lane : Fin 16) (timing : Bool) (steps : Int) (s : State) :
    RunsOn s (execLaneMargining p lane timing steps s) := by simp [execLaneMargining]

theorem execSecondaryBusReset_runsOn (v : Fin 64) (d : Fin 32) (s : State) : RunsOn s (execSecondaryBusReset v d s) := by
  unfold execSecondaryBusReset
  dsimp only
  split <;> simp

theorem execPortHotReset_runsOn (p : Fin 96) (s : State) : RunsOn s (execPortHotReset p s) := by simp [execPortHotReset]

theorem execPortFundamentalReset_runsOn (p : Fin 96) (s : State) : RunsOn s (execPortFundamentalReset p s) := by
  simp [execPortFundamentalReset]

theorem execPortRetrain_runsOn (p : Fin 96) (s : State) : RunsOn s (execPortRetrain p s) := by simp [execPortRetrain]

theorem execPortCxlReset_runsOn (p : Fin 96) (s : State) : RunsOn s (execPortCxlReset p s) := by simp [execPortCxlReset]

theorem execPoolLdLost_runsOn (p : Fin 96) (mask : BitVec 16) (s : State) : RunsOn s (execPoolLdLost p mask s) := by
  simp [execPoolLdLost]

/-! ### Commands of Machine/Islands -/

theorem execIslandRequestClosed_runsOn (k : Fin 16) (s : State) : RunsOn s (execIslandRequestClosed k s) := by
  simp [execIslandRequestClosed]

theorem execIslandRequestOpen_runsOn (k : Fin 16) (s : State) : RunsOn s (execIslandRequestOpen k s) := by simp [execIslandRequestOpen]

theorem execIslandDrainComplete_runsOn (k : Fin 16) (s : State) : RunsOn s (execIslandDrainComplete k s) := by
  unfold execIslandDrainComplete
  split <;> simp

theorem execClosingDrainTimeout_runsOn (k : Fin 16) (s : State) : RunsOn s (execClosingDrainTimeout k s) := by
  unfold execClosingDrainTimeout
  split <;> simp

theorem execBridgeReady_runsOn (k : Fin 16) (s : State) : RunsOn s (execBridgeReady k s) := by
  unfold execBridgeReady
  split <;> simp

theorem execBridgeSelfCheckFail_runsOn (k : Fin 16) (s : State) : RunsOn s (execBridgeSelfCheckFail k s) := by
  unfold execBridgeSelfCheckFail
  split <;> simp

theorem execOpeningTimeout_runsOn (k : Fin 16) (s : State) : RunsOn s (execOpeningTimeout k s) := by
  unfold execOpeningTimeout
  split <;> simp

/-! ### Commands of Machine/Extents -/

theorem execHdmDecoderCommit_runsOn (v : Fin 64) (i : Fin 32) (base : BitVec 24) (size : BitVec 24) (ways : Fin 5) (gran :
    Fin 7) (commit : Bool) (s : State) :
    RunsOn s (execHdmDecoderCommit v i base size ways gran commit s) := by simp [execHdmDecoderCommit]

theorem execDecoderPoolWindowWrite_runsOn (v : Fin 64) (i : Fin 32) (len : Bool) (x : BitVec 64) (s : State) :
    RunsOn s (execDecoderPoolWindowWrite v i len x s) := by simp [execDecoderPoolWindowWrite]

theorem execInitiateDynamicCapacityAdd_runsOn (v : Fin 64) (xs : List DcPart) (s : State) :
    RunsOn s (execInitiateDynamicCapacityAdd v xs s) := by simp [execInitiateDynamicCapacityAdd]

theorem execAddDcResponse_runsOn (v : Fin 64) (bases : List (BitVec 64)) (s : State) : RunsOn s (execAddDcResponse v bases s) := rfl

theorem execReleaseDynamicCapacity_runsOn (v : Fin 64) (bases : List (BitVec 64)) (s : State) :
    RunsOn s (execReleaseDynamicCapacity v bases s) := by simp [execReleaseDynamicCapacity]

theorem execInitiateDynamicCapacityRelease_runsOn (v : Fin 64) (bases : List (BitVec 64)) (forced : Bool) (s : State) :
    RunsOn s (execInitiateDynamicCapacityRelease v bases forced s) := by simp [execInitiateDynamicCapacityRelease]

theorem execExtentRemoved_runsOn (v : Fin 64) (base : BitVec 64) (s : State) : RunsOn s (execExtentRemoved v base s) := by
  simp [execExtentRemoved]

/-! ### Commands of Machine/FmApi -/

theorem execIdentify_runsOn (s : State) : RunsOn s (execIdentify s) := rfl

theorem execBackgroundOperationStatus_runsOn (s : State) : RunsOn s (execBackgroundOperationStatus s) := rfl

theorem execGetResponseMessageLimit_runsOn (s : State) : RunsOn s (execGetResponseMessageLimit s) := rfl

theorem execSetResponseMessageLimit_runsOn (n : Byte) (s : State) : RunsOn s (execSetResponseMessageLimit n s) := by
  unfold execSetResponseMessageLimit
  split <;> simp

theorem execIdentifySwitchDevice_runsOn (s : State) : RunsOn s (execIdentifySwitchDevice s) := rfl

theorem execGetPhysicalPortState_runsOn (ps : List (Fin 96)) (s : State) : RunsOn s (execGetPhysicalPortState ps s) := rfl

theorem execPhysicalPortControl_runsOn (p : Fin 96) (op : Fin 3) (s : State) : RunsOn s (execPhysicalPortControl p op s) := by
  simp [execPhysicalPortControl]

theorem execSendPpbCxlioConfigRequest_runsOn (p : Fin 96) (reg : Fin 1024) (w : Option (BitVec 32)) (s : State) :
    RunsOn s (execSendPpbCxlioConfigRequest p reg w s) := by
  unfold execSendPpbCxlioConfigRequest
  split <;> simp

theorem execGetVirtualCxlSwitchInfo_runsOn (v : Fin 64) (s : State) : RunsOn s (execGetVirtualCxlSwitchInfo v s) := rfl

theorem execGenerateAerEvent_runsOn (v : Fin 64) (d : Fin 32) (err : BitVec 32) (s : State) : RunsOn s (execGenerateAerEvent v d err s) := by
  unfold execGenerateAerEvent
  dsimp only
  split <;> simp

theorem execTunnelManagementCommand_runsOn (p : Fin 96) (bytes : List Byte) (s : State) :
    RunsOn s (execTunnelManagementCommand p bytes s) := by
  unfold execTunnelManagementCommand
  split <;> simp

theorem execSendLdCxlioConfigRequest_runsOn (p : Fin 96) (ld : Fin 16) (a : FmAccess) (s : State) :
    RunsOn s (execSendLdCxlioConfigRequest p ld a s) := by simp [execSendLdCxlioConfigRequest]

theorem execSendLdCxlioMemoryRequest_runsOn (p : Fin 96) (ld : Fin 16) (a : FmAccess) (s : State) :
    RunsOn s (execSendLdCxlioMemoryRequest p ld a s) := by simp [execSendLdCxlioMemoryRequest]

theorem execGetDcdInfo_runsOn (s : State) : RunsOn s (execGetDcdInfo s) := rfl

theorem execGetHostDcRegionConfiguration_runsOn (v : Fin 64) (s : State) : RunsOn s (execGetHostDcRegionConfiguration v s) := rfl

theorem execSetDcRegionConfiguration_runsOn (v : Fin 64) (r : Fin 8) (base : BitVec 64) (len : BitVec 64) (s : State) :
    RunsOn s (execSetDcRegionConfiguration v r base len s) := by simp [execSetDcRegionConfiguration]

theorem execGetDcRegionExtentLists_runsOn (v : Fin 64) (from_ : BitVec 16) (n : BitVec 16) (s : State) :
    RunsOn s (execGetDcRegionExtentLists v from_ n s) := rfl

theorem execFmapiUnsupported_runsOn (opcode : BitVec 16) (s : State) : RunsOn s (execFmapiUnsupported opcode s) := rfl

/-! ### Commands of Machine/CxlIo -/

theorem execParseIngress_runsOn (p : Fin 96) (ms : List PortMsg) (s : State) : RunsOn s (execParseIngress p ms s) := by
  unfold execParseIngress
  split <;> simp

theorem execCxlioRoute_runsOn (p : Fin 96) (vn : Vn) (s : State) : RunsOn s (execCxlioRoute p vn s) := by
  unfold execCxlioRoute
  repeat' split
  all_goals simp

/-! ### Commands of Machine/Management -/

theorem execApertureSelectWrite_runsOn (v : BitVec 32) (s : State) : RunsOn s (execApertureSelectWrite v s) := rfl

/-! ### Commands of Machine/Power -/

theorem execVauxPowerGood_runsOn (s : State) : RunsOn s (execVauxPowerGood s) := by
  unfold execVauxPowerGood
  split <;> simp

theorem execVin12Qualified_runsOn (s : State) : RunsOn s (execVin12Qualified s) := by
  unfold execVin12Qualified
  split <;> simp

theorem execSlotTick_runsOn (c : Fin 48) (m : SlotSample) (s : State) : RunsOn s (execSlotTick c m s) := by
  unfold execSlotTick
  split <;> simp

theorem execInsertionDelayExpire_runsOn (c : Fin 48) (s : State) : RunsOn s (execInsertionDelayExpire c s) := by
  unfold execInsertionDelayExpire
  dsimp only
  repeat' split
  all_goals simp

theorem execFaultTimerExpire_runsOn (c : Fin 48) (s : State) : RunsOn s (execFaultTimerExpire c s) := by
  unfold execFaultTimerExpire
  dsimp only
  split <;> simp

theorem execRetryTimerExpire_runsOn (c : Fin 48) (s : State) : RunsOn s (execRetryTimerExpire c s) := by
  unfold execRetryTimerExpire
  dsimp only
  repeat' split
  all_goals simp

theorem execRampTimeout_runsOn (c : Fin 48) (s : State) : RunsOn s (execRampTimeout c s) := by
  unfold execRampTimeout
  dsimp only
  repeat' split
  all_goals simp

theorem execGateWontRiseExpire_runsOn (c : Fin 48) (s : State) : RunsOn s (execGateWontRiseExpire c s) := by
  unfold execGateWontRiseExpire
  dsimp only
  split <;> simp

theorem execRetryCountClear_runsOn (c : Fin 48) (s : State) : RunsOn s (execRetryCountClear c s) := by
  unfold execRetryCountClear
  dsimp only
  split <;> simp

theorem execSlotChannelEnable_runsOn (c : Fin 48) (s : State) : RunsOn s (execSlotChannelEnable c s) := by simp [execSlotChannelEnable]

theorem execSlotChannelDisable_runsOn (c : Fin 48) (s : State) : RunsOn s (execSlotChannelDisable c s) := by
  simp [execSlotChannelDisable]

theorem execClearLatch_runsOn (c : Fin 48) (s : State) : RunsOn s (execClearLatch c s) := by simp [execClearLatch]

theorem execPowerRequest_runsOn (c : Fin 48) (on : Bool) (byHost : Bool) (s : State) : RunsOn s (execPowerRequest c on byHost s) := by
  simp [execPowerRequest]

theorem execGovernorEpoch_runsOn (measured : Nat) (readings : List (Fin 64 × Int)) (demand : List Nat) (s : State) :
    RunsOn s (execGovernorEpoch measured readings demand s) := by
  unfold execGovernorEpoch
  dsimp only
  split <;> simp

theorem execThermalNarrowing_runsOn (s : State) : RunsOn s (execThermalNarrowing s) := by
  unfold execThermalNarrowing
  dsimp only
  repeat' split
  all_goals simp

theorem execThermalResponseEnd_runsOn (s : State) : RunsOn s (execThermalResponseEnd s) := by
  unfold execThermalResponseEnd
  dsimp only
  split <;> simp

theorem execPowerCapExceeded_runsOn (s : State) : RunsOn s (execPowerCapExceeded s) := by
  unfold execPowerCapExceeded
  split <;> simp

theorem execRefclkStable_runsOn (r : Fin 21) (s : State) : RunsOn s (execRefclkStable r s) := by
  unfold execRefclkStable
  repeat' split
  all_goals simp

theorem execRefclkLost_runsOn (r : Fin 21) (s : State) : RunsOn s (execRefclkLost r s) := by
  unfold execRefclkLost
  repeat' split
  all_goals simp

/-! ### Commands of Machine/Perf -/

theorem execTakeSnapshot_runsOn (s : State) : RunsOn s (execTakeSnapshot s) := rfl

theorem execSamplerEnable_runsOn (k : Fin 8) (on : Bool) (s : State) : RunsOn s (execSamplerEnable k on s) := by simp [execSamplerEnable]

theorem execHostSamplerEnable_runsOn (v : Fin 64) (on : Bool) (vector event : Fin 128) (periodLow : BitVec 32)
    (periodHigh : BitVec 16) (s : State) :
    RunsOn s (execHostSamplerEnable v on vector event periodLow periodHigh s) := rfl

theorem execTimeOffsetMeasured_runsOn (off : Int) (gm : BitVec 64) (s : State) : RunsOn s (execTimeOffsetMeasured off gm s) := by
  unfold execTimeOffsetMeasured
  split <;> simp

theorem execSyncTimeout_runsOn (s : State) : RunsOn s (execSyncTimeout s) := by simp [execSyncTimeout]

theorem execHoldoverLimit_runsOn (s : State) : RunsOn s (execHoldoverLimit s) := by
  unfold execHoldoverLimit
  split <;> simp

theorem execTsiEdge_runsOn (i : Fin 8) (rising : Bool) (s : State) : RunsOn s (execTsiEdge i rising s) := by
  unfold execTsiEdge
  split <;> simp

theorem execTsiPulseFiltered_runsOn (i : Fin 8) (width : Nat) (s : State) : RunsOn s (execTsiPulseFiltered i width s) := by
  unfold execTsiPulseFiltered
  split <;> simp

theorem execCaptureQueueRead_runsOn (i : Fin 8) (n : Nat) (s : State) : RunsOn s (execCaptureQueueRead i n s) := rfl

/-! ### Commands of Machine/Faults -/

theorem execAcknowledgeC2Source_runsOn (n : BitVec 16) (sid : BitVec 32) (s : State) : RunsOn s (execAcknowledgeC2Source n sid s) := by
  simp [execAcknowledgeC2Source]

theorem execEnterSafeState_runsOn (s : State) : RunsOn s (execEnterSafeState s) := by simp [execEnterSafeState]

theorem execResetFjq9640_runsOn (s : State) : RunsOn s (execResetFjq9640 s) := by simp [execResetFjq9640]

theorem execClearStickyBit_runsOn (n : BitVec 16) (s : State) : RunsOn s (execClearStickyBit n s) := by simp [execClearStickyBit]

theorem execClearFirstErrorLatch_runsOn (s : State) : RunsOn s (execClearFirstErrorLatch s) := by simp [execClearFirstErrorLatch]

theorem execInjectionUnlock_runsOn (sid : BitVec 32) (s : State) : RunsOn s (execInjectionUnlock sid s) := by simp [execInjectionUnlock]

theorem execInjectionLock_runsOn (s : State) : RunsOn s (execInjectionLock s) := rfl

theorem execInjectStop_runsOn (f : BitVec 16) (s : State) : RunsOn s (execInjectStop f s) := by simp [execInjectStop]

theorem execInjectOneShot_runsOn (f : BitVec 16) (s : State) : RunsOn s (execInjectOneShot f s) := by simp [execInjectOneShot]

theorem execInjectContinuous_runsOn (f : BitVec 16) (s : State) : RunsOn s (execInjectContinuous f s) := by simp [execInjectContinuous]

theorem execInjectRail_runsOn (f : BitVec 16) (s : State) : RunsOn s (execInjectRail f s) := by simp [execInjectRail]

theorem execSourceConfigurationWrite_runsOn (rs : List (BitVec 64)) (s : State) : RunsOn s (execSourceConfigurationWrite rs s) := by
  simp [execSourceConfigurationWrite]

theorem execCollectorSelfError_runsOn (s : State) : RunsOn s (execCollectorSelfError s) := by simp [execCollectorSelfError]

theorem execWriteSnapshotNow_runsOn (s : State) : RunsOn s (execWriteSnapshotNow s) := by simp [execWriteSnapshotNow]

theorem execWithdrawPendingRecord_runsOn (n : BitVec 16) (s : State) : RunsOn s (execWithdrawPendingRecord n s) := by
  simp [execWithdrawPendingRecord]

theorem execRetirePhysicalSlice_runsOn (n : Byte) (s : State) : RunsOn s (execRetirePhysicalSlice n s) := by
  simp [execRetirePhysicalSlice]

theorem execCulletWriteRetry_runsOn (s : State) : RunsOn s (execCulletWriteRetry s) := by simp [execCulletWriteRetry]

theorem execCulletRecordWriteDone_runsOn (n : Fin 4096) (s : State) : RunsOn s (execCulletRecordWriteDone n s) := by
  unfold execCulletRecordWriteDone
  split <;> simp

/-! ### Commands of Machine/Security -/

theorem execRaiseRollbackCounter_runsOn (c : Byte) (s : State) : RunsOn s (execRaiseRollbackCounter c s) := by
  simp [execRaiseRollbackCounter]

theorem execFirmwareImage_runsOn (sid : Option (BitVec 32)) (i : FwImage) (s : State) : RunsOn s (execFirmwareImage sid i s) := by
  unfold execFirmwareImage
  repeat' split
  all_goals simp

theorem execRevokeKeySlot_runsOn (sid : BitVec 32) (k : Byte) (s : State) : RunsOn s (execRevokeKeySlot sid k s) := by
  simp [execRevokeKeySlot]

theorem execCertifiedPackage_runsOn (sid : BitVec 32) (p : CertPackage) (s : State) : RunsOn s (execCertifiedPackage sid p s) := by
  simp [execCertifiedPackage]

theorem execGetVersion_runsOn (c : Nat) (s : State) : RunsOn s (execGetVersion c s) := rfl

theorem execGetCapabilities_runsOn (c : Nat) (v : Byte) (s : State) : RunsOn s (execGetCapabilities c v s) := by
  unfold execGetCapabilities
  dsimp only
  repeat' split
  all_goals simp

theorem execNegotiateAlgorithms_runsOn (c : Nat) (algs : List (BitVec 16)) (s : State) : RunsOn s (execNegotiateAlgorithms c algs s) := by
  unfold execNegotiateAlgorithms
  dsimp only
  repeat' split
  all_goals simp

theorem execGetDigests_runsOn (c : Nat) (s : State) : RunsOn s (execGetDigests c s) :=
  spdmReady_running _ _ _ fun x k => by simp

theorem execGetCertificate_runsOn (c : Nat) (slot : Fin 16) (offset length : BitVec 16) (s : State) :
    RunsOn s (execGetCertificate c slot offset length s) := by
  unfold execGetCertificate
  refine spdmReady_running _ _ _ fun x k => ?_
  (repeat' split) <;> simp

theorem execChallenge_runsOn (c : Nat) (s : State) : RunsOn s (execChallenge c s) :=
  spdmReady_running _ _ _ fun x k => spdmRandom_running _ _ _ _ (by simp)

theorem execGetMeasurements_runsOn (c : Nat) (op : Byte) (signed : Bool) (s : State) :
    RunsOn s (execGetMeasurements c op signed s) := by
  unfold execGetMeasurements
  refine spdmReady_running _ _ _ fun x k => ?_
  dsimp only
  split
  · simp
  · split
    · exact spdmRandom_running _ _ _ _ (by simp)
    · simp

theorem execKeyExchange_runsOn (c : Nat) (s : State) : RunsOn s (execKeyExchange c s) := by
  unfold execKeyExchange
  refine spdmReady_running _ _ _ fun x k => ?_
  refine spdmRandom_running _ _ _ _ ?_
  (repeat' split) <;> simp

theorem execFinish_runsOn (c : Nat) (sid : Nat) (verified : Bool) (s : State) : RunsOn s (execFinish c sid verified s) := by
  unfold execFinish
  dsimp only
  repeat' split
  all_goals simp

theorem execHeartbeat_runsOn (c : Nat) (sid : Nat) (s : State) : RunsOn s (execHeartbeat c sid s) := by simp [execHeartbeat]

theorem execKeyUpdate_runsOn (c : Nat) (sid : Nat) (s : State) : RunsOn s (execKeyUpdate c sid s) := by simp [execKeyUpdate]

theorem execEndSession_runsOn (c : Nat) (sid : Nat) (s : State) : RunsOn s (execEndSession c sid s) := by
  unfold execEndSession
  dsimp only
  split <;> simp

theorem execChunkSend_runsOn (c : Nat) (seq : Nat) (data : List Byte) (last : Bool) (s : State) :
    RunsOn s (execChunkSend c seq data last s) := by
  unfold execChunkSend
  dsimp only
  repeat' split
  all_goals simp

theorem execChunkGet_runsOn (c : Nat) (seq : Nat) (total : Nat) (s : State) : RunsOn s (execChunkGet c seq total s) := by
  unfold execChunkGet
  dsimp only
  repeat' split
  all_goals simp

theorem execVendorDefinedRequest_runsOn (c : Nat) (s : State) : RunsOn s (execVendorDefinedRequest c s) :=
  spdmReady_running _ _ _ fun x k => by simp

theorem execSpdmUnsupportedRequest_runsOn (c : Nat) (s : State) : RunsOn s (execSpdmUnsupportedRequest c s) := by
  unfold execSpdmUnsupportedRequest
  rw [runsOn_next]
  exact unlessLatched_running _ _ _ (by simp)

theorem execIdeKm_runsOn (p : Fin 96) (c : Nat) (sid : Nat) (op : IdeOp) (s : State) : RunsOn s (execIdeKm p c sid op s) := by
  unfold execIdeKm
  dsimp only
  repeat' split
  all_goals simp

theorem execIdeCheckFailure_runsOn (p : Fin 96) (s : State) : RunsOn s (execIdeCheckFailure p s) := by
  unfold execIdeCheckFailure
  split <;> simp

theorem execDebugToken_runsOn (sid : Option (BitVec 32)) (t : DebugToken) (s : State) : RunsOn s (execDebugToken sid t s) := by
  unfold execDebugToken
  repeat' split
  all_goals simp

theorem execLockDebug_runsOn (s : State) : RunsOn s (execLockDebug s) := by simp [execLockDebug]

theorem execDebugTokenExpire_runsOn (s : State) : RunsOn s (execDebugTokenExpire s) := by simp [execDebugTokenExpire]

theorem execHealthTestFailure_runsOn (s : State) : RunsOn s (execHealthTestFailure s) := by simp [execHealthTestFailure]

/-! ### Commands of Machine/Sprineno -/

theorem execHello_runsOn (seq : BitVec 32) (reqId : BitVec 32) (via : Transport) (pmax : BitVec 16) (omax : BitVec 16) (mode :
    Mode) (maxMsg : BitVec 32) (name : List Byte) (spdm : Option Nat) (s : State) :
    RunsOn s (execHello seq reqId via pmax omax mode maxMsg name spdm s) := by
  unfold execHello
  repeat' split
  all_goals simp

theorem execBye_runsOn (r : Req) (s : State) : RunsOn s (execBye r s) :=
  withRequest_running _ _ _ _ _ fun t x => by simp

theorem execKeepalive_runsOn (r : Req) (s : State) : RunsOn s (execKeepalive r s) :=
  withRequest_running _ _ _ _ _ fun _ _ => rfl

theorem execSessionTimeout_runsOn (id : BitVec 32) (s : State) : RunsOn s (execSessionTimeout id s) := rfl

theorem execUsbDetach_runsOn (s : State) : RunsOn s (execUsbDetach s) := rfl

theorem execRead_runsOn (r : Req) (items : List (BitVec 16 × Byte)) (s : State) : RunsOn s (execRead r items s) :=
  withRequest_running _ _ _ _ _ fun t x => by split <;> simp

theorem execWrite_runsOn (r : Req) (items : List WriteItem) (s : State) : RunsOn s (execWrite r items s) :=
  withRequest_running _ _ _ _ _ fun t x => by split <;> simp

theorem execDescribe_runsOn (r : Req) (idx : BitVec 16) (sub : Byte) (s : State) : RunsOn s (execDescribe r idx sub s) :=
  withRequest_running _ _ _ _ _ fun t x => by (repeat' split) <;> simp

theorem execSegRead_runsOn (r : Req) (idx : BitVec 16) (sub : Byte) (offset length : BitVec 32) (s : State) :
    RunsOn s (execSegRead r idx sub offset length s) :=
  withRequest_running _ _ _ _ _ fun t x => by
    have h := readDomain_running t x idx.toNat sub.toNat offset.toNat (min length.toNat (x.maxMessage - 20))
    generalize readDomain t x idx.toNat sub.toNat offset.toNat (min length.toNat (x.maxMessage - 20)) = q at h ⊢
    repeat' split
    all_goals simp
    · exact h
    · exact h

theorem execSegWrite_runsOn (r : Req) (idx : BitVec 16) (sub : Byte) (first last : Bool) (offset total : BitVec 32)
    (data : List Byte) (s : State) : RunsOn s (execSegWrite r idx sub first last offset total data s) :=
  withRequest_running _ _ _ _ _ fun t x => by
    dsimp only
    (repeat' split) <;> simp

theorem execSubscribe_runsOn (r : Req) (kind : Fin 256) (sub : Byte) (idx : BitVec 16) (interval : BitVec 32) (s : State) :
    RunsOn s (execSubscribe r kind sub idx interval s) :=
  withRequest_running _ _ _ _ _ fun t x => by
    dsimp only
    (repeat' split) <;> simp

theorem execUnsubscribe_runsOn (r : Req) (n : BitVec 16) (s : State) : RunsOn s (execUnsubscribe r n s) :=
  withRequest_running _ _ _ _ _ fun t x => by (repeat' split) <;> simp

theorem execNotify_runsOn (id : BitVec 32) (s : State) : RunsOn s (execNotify id s) := by
  unfold execNotify
  repeat' split
  all_goals simp

theorem execMailboxNotifyFetch_runsOn (v : Fin 64) (s : State) : RunsOn s (execMailboxNotifyFetch v s) := by
  unfold execMailboxNotifyFetch
  repeat' split
  all_goals simp

theorem execCommit_runsOn (r : Req) (options : Byte) (s : State) : RunsOn s (execCommit r options s) :=
  withRequest_running _ _ _ _ _ fun t x => by simp

theorem execWriteDefaultImage_runsOn (arg : Byte) (s : State) : RunsOn s (execWriteDefaultImage arg s) := by
  unfold execWriteDefaultImage
  have h := defaultImage_running s none 0 arg.toNat
  split <;> (rename_i e; rw [e] at h; simpa using h)

theorem execCommitWriteDone_runsOn (s : State) : RunsOn s (execCommitWriteDone s) := by
  unfold execCommitWriteDone
  split <;> simp

theorem execCommand_runsOn (r : Req) (idx : BitVec 16) (sub : Byte) (type : Byte) (arg : BitVec 64) (s : State) :
    RunsOn s (execCommand r idx sub type arg s) :=
  withRequest_running _ _ _ _ _ fun t x => by
    dsimp only
    (repeat' split) <;> simp

/-! ### Commands of Machine/Startup -/

theorem execResetNFall_runsOn (s : State) : RunsOn s (execResetNFall s) := by
  unfold execResetNFall
  split <;> simp

/-! ### Every command outside `reachesManagement` -/

theorem exec_runsOn (c : Instr) (s : State) (h : reachesManagement c = false) : RunsOn s (exec c s) := by
  cases c
  case busAccess | busTimeout | lateResponse | apertureAccess | eventLogPost | mpuCommit | mpuCopy | exceptionReturn | faultReport |
    railFault | handlingTimerExpire | samplerFire | supplySample | crashSnapshot | auxiliaryDomainOff | resetRelease |
    startupStepComplete => cases h
  case crossingUnitReceive c w => exact execCrossingUnitReceive_runsOn c w s
  case crossingResend c => exact execCrossingResend_runsOn c s
  case unitInjection n a v => exact execUnitInjection_runsOn n a v s
  case ringHop m => exact execRingHop_runsOn m s
  case starvationGuard q => exact execStarvationGuard_runsOn q s
  case routeTableWrite t => exact execRouteTableWrite_runsOn t s
  case routeCommit => exact execRouteCommit_runsOn s
  case routeDrainComplete => exact execRouteDrainComplete_runsOn s
  case islandRequestClosed k => exact execIslandRequestClosed_runsOn k s
  case islandRequestOpen k => exact execIslandRequestOpen_runsOn k s
  case islandDrainComplete k => exact execIslandDrainComplete_runsOn k s
  case closingDrainTimeout k => exact execClosingDrainTimeout_runsOn k s
  case bridgeReady k => exact execBridgeReady_runsOn k s
  case bridgeSelfCheckFail k => exact execBridgeSelfCheckFail_runsOn k s
  case openingTimeout k => exact execOpeningTimeout_runsOn k s
  case portRoleWrite p r => exact execPortRoleWrite_runsOn p r s
  case portWidthWrite p w => exact execPortWidthWrite_runsOn p w s
  case portConfigWrite p x => exact execPortConfigWrite_runsOn p x s
  case portTrained p x => exact execPortTrained_runsOn p x s
  case upstreamTrainingRetry p => exact execUpstreamTrainingRetry_runsOn p s
  case l0pWidthRequest p w => exact execL0pWidthRequest_runsOn p w s
  case laneMargining p lane timing steps => exact execLaneMargining_runsOn p lane timing steps s
  case bindVppb src v d p l => exact execBindVppb_runsOn src v d p l s
  case unbindVppb src v d opt => exact execUnbindVppb_runsOn src v d opt s
  case vppbPartnerL0 v d => exact execVppbPartnerL0_runsOn v d s
  case managedRemoveTimeout v d => exact execManagedRemoveTimeout_runsOn v d s
  case parseIngress p ms => exact execParseIngress_runsOn p ms s
  case cxlioRoute p vn => exact execCxlioRoute_runsOn p vn s
  case hdmDecoderCommit v ix base size ways gran commit => exact execHdmDecoderCommit_runsOn v ix base size ways gran commit s
  case decoderPoolWindowWrite v ix len x => exact execDecoderPoolWindowWrite_runsOn v ix len x s
  case initiateDynamicCapacityAdd v xs => exact execInitiateDynamicCapacityAdd_runsOn v xs s
  case addDcResponse v bases => exact execAddDcResponse_runsOn v bases s
  case releaseDynamicCapacity v bases => exact execReleaseDynamicCapacity_runsOn v bases s
  case initiateDynamicCapacityRelease v bases forced => exact execInitiateDynamicCapacityRelease_runsOn v bases forced s
  case extentRemoved v base => exact execExtentRemoved_runsOn v base s
  case identify => exact execIdentify_runsOn s
  case backgroundOperationStatus => exact execBackgroundOperationStatus_runsOn s
  case getResponseMessageLimit => exact execGetResponseMessageLimit_runsOn s
  case setResponseMessageLimit n => exact execSetResponseMessageLimit_runsOn n s
  case identifySwitchDevice => exact execIdentifySwitchDevice_runsOn s
  case getPhysicalPortState ps => exact execGetPhysicalPortState_runsOn ps s
  case physicalPortControl p op => exact execPhysicalPortControl_runsOn p op s
  case sendPpbCxlioConfigRequest p reg w => exact execSendPpbCxlioConfigRequest_runsOn p reg w s
  case getVirtualCxlSwitchInfo v => exact execGetVirtualCxlSwitchInfo_runsOn v s
  case generateAerEvent v d err => exact execGenerateAerEvent_runsOn v d err s
  case tunnelManagementCommand p bytes => exact execTunnelManagementCommand_runsOn p bytes s
  case sendLdCxlioConfigRequest p ld a => exact execSendLdCxlioConfigRequest_runsOn p ld a s
  case sendLdCxlioMemoryRequest p ld a => exact execSendLdCxlioMemoryRequest_runsOn p ld a s
  case getDcdInfo => exact execGetDcdInfo_runsOn s
  case getHostDcRegionConfiguration v => exact execGetHostDcRegionConfiguration_runsOn v s
  case setDcRegionConfiguration v r base len => exact execSetDcRegionConfiguration_runsOn v r base len s
  case getDcRegionExtentLists v from_ n => exact execGetDcRegionExtentLists_runsOn v from_ n s
  case fmapiUnsupported opcode => exact execFmapiUnsupported_runsOn opcode s
  case poolLdLost p mask => exact execPoolLdLost_runsOn p mask s
  case poisonSweepStep => exact execPoisonSweepStep_runsOn s
  case vcsEnableWrite v on => exact execVcsEnableWrite_runsOn v on s
  case perstAssert p hot => exact execPerstAssert_runsOn p hot s
  case vcsResetRelease p => exact execVcsResetRelease_runsOn p s
  case secondaryBusReset v d => exact execSecondaryBusReset_runsOn v d s
  case portHotReset p => exact execPortHotReset_runsOn p s
  case portFundamentalReset p => exact execPortFundamentalReset_runsOn p s
  case portRetrain p => exact execPortRetrain_runsOn p s
  case portCxlReset p => exact execPortCxlReset_runsOn p s
  case perstRelease p => exact execPerstRelease_runsOn p s
  case bufferLimitCommit => exact execBufferLimitCommit_runsOn s
  case raisedLimitsActive d => exact execRaisedLimitsActive_runsOn d s
  case cutThroughUnitArrive port v => exact execCutThroughUnitArrive_runsOn port v s
  case egressFlitSent port vn => exact execEgressFlitSent_runsOn port vn s
  case ageingExamination hp => exact execAgeingExamination_runsOn hp s
  case portDown p => exact execPortDown_runsOn p s
  case traceRingRead n => exact execTraceRingRead_runsOn n s
  case traceReadIndexWrite ix => exact execTraceReadIndexWrite_runsOn ix s
  case homeIntakeCycle l => exact execHomeIntakeCycle_runsOn l s
  case seniorHoldExpire l line => exact execSeniorHoldExpire_runsOn l line s
  case seniorEntryTimeout l ix => exact execSeniorEntryTimeout_runsOn l ix s
  case remapCacheFill l g bad => exact execRemapCacheFill_runsOn l g bad s
  case poolPortMemrd p => exact execPoolPortMemrd_runsOn p s
  case poolPortMemwr p => exact execPoolPortMemwr_runsOn p s
  case wrpull p => exact execWrpull_runsOn p s
  case poolPortMemdata p => exact execPoolPortMemdata_runsOn p s
  case poolPortExpanderResponse p dat => exact execPoolPortExpanderResponse_runsOn p dat s
  case proxyHostRequest v => exact execProxyHostRequest_runsOn v s
  case proxyHostWrite v => exact execProxyHostWrite_runsOn v s
  case proxyResponse v dat => exact execProxyResponse_runsOn v dat s
  case proxyBackoffEnd ag t => exact execProxyBackoffEnd_runsOn ag t s
  case proxySnoop v => exact execProxySnoop_runsOn v s
  case proxyBirsp v => exact execProxyBirsp_runsOn v s
  case biconflict v => exact execBiconflict_runsOn v s
  case remoteAgentReceive a v => exact execRemoteAgentReceive_runsOn a v s
  case combinedReply a => exact execCombinedReply_runsOn a s
  case moverCacheSnoop => exact execMoverCacheSnoop_runsOn s
  case snoopFilterFill l t => exact execSnoopFilterFill_runsOn l t s
  case snoopFilterInsertion l => exact execSnoopFilterInsertion_runsOn l s
  case declarePeerLost w => exact execDeclarePeerLost_runsOn w s
  case removalPassStep => exact execRemovalPassStep_runsOn s
  case removalPassComplete => exact execRemovalPassComplete_runsOn s
  case flushRangeExecute base limit => exact execFlushRangeExecute_runsOn base limit s
  case rangeWalkStep ix => exact execRangeWalkStep_runsOn ix s
  case rangeWalkComplete ix => exact execRangeWalkComplete_runsOn ix s
  case recoveryFlushComplete v => exact execRecoveryFlushComplete_runsOn v s
  case gpfCompletion v => exact execGpfCompletion_runsOn v s
  case recoverydone w => exact execRecoverydone_runsOn w s
  case abandonVcs ix v => exact execAbandonVcs_runsOn ix v s
  case abandonSwitch ix w => exact execAbandonSwitch_runsOn ix w s
  case recoveryTimeout ix => exact execRecoveryTimeout_runsOn ix s
  case recoveryRequestReceive w => exact execRecoveryRequestReceive_runsOn w s
  case directoryUncorrectable e => exact execDirectoryUncorrectable_runsOn e s
  case marverPassStep blocks way => exact execMarverPassStep_runsOn blocks way s
  case partitionCommit => exact execPartitionCommit_runsOn s
  case partitionClearDone => exact execPartitionClearDone_runsOn s
  case remapEntryWrite g v => exact execRemapEntryWrite_runsOn g v s
  case remapWriteComplete => exact execRemapWriteComplete_runsOn s
  case openRemapGate => exact execOpenRemapGate_runsOn s
  case remapBulkLoad records => exact execRemapBulkLoad_runsOn records s
  case moveExecute sess g dest restore => exact execMoveExecute_runsOn sess g dest restore s
  case movePageStart m => exact execMovePageStart_runsOn m s
  case movePageClear m => exact execMovePageClear_runsOn m s
  case movePageComplete m => exact execMovePageComplete_runsOn m s
  case movePageAbandon m => exact execMovePageAbandon_runsOn m s
  case moveGranuleClear m => exact execMoveGranuleClear_runsOn m s
  case moveCancel m => exact execMoveCancel_runsOn m s
  case salvagePage m => exact execSalvagePage_runsOn m s
  case restoreFillComplete m => exact execRestoreFillComplete_runsOn m s
  case guardCommit => exact execGuardCommit_runsOn s
  case guardStageSwap g => exact execGuardStageSwap_runsOn g s
  case copyActiveSetToShadow => exact execCopyActiveSetToShadow_runsOn s
  case aulumFlitReceive a blocks => exact execAulumFlitReceive_runsOn a blocks s
  case aulumFlitTransmit a => exact execAulumFlitTransmit_runsOn a s
  case ackTimerExpire a => exact execAckTimerExpire_runsOn a s
  case nakReceived a => exact execNakReceived_runsOn a s
  case replayTimerExpire a => exact execReplayTimerExpire_runsOn a s
  case spareReq a blocks => exact execSpareReq_runsOn a blocks s
  case spareAck a blocks => exact execSpareAck_runsOn a blocks s
  case spareRefuse a blocks => exact execSpareRefuse_runsOn a blocks s
  case resume a blocks => exact execResume_runsOn a blocks s
  case pauseTimeout a => exact execPauseTimeout_runsOn a s
  case ts a work spares blocks => exact execTs_runsOn a work spares blocks s
  case trainingTimeout a => exact execTrainingTimeout_runsOn a s
  case retrainInterval a => exact execRetrainInterval_runsOn a s
  case syncLoss a => exact execSyncLoss_runsOn a s
  case aulumPortEnable a => exact execAulumPortEnable_runsOn a s
  case aulumPortDisable a => exact execAulumPortDisable_runsOn a s
  case restartGraceExpire => exact execRestartGraceExpire_runsOn s
  case restartNotice w epoch => exact execRestartNotice_runsOn w epoch s
  case restartNoticeRepeat w => exact execRestartNoticeRepeat_runsOn w s
  case restartNoticeAck w => exact execRestartNoticeAck_runsOn w s
  case quarantineExpire q => exact execQuarantineExpire_runsOn q s
  case systemNumberingWrite ix v => exact execSystemNumberingWrite_runsOn ix v s
  case queueEnable fn isCq loc addr => exact execQueueEnable_runsOn fn isCq loc addr s
  case qcbEnableReadDone isCq q => exact execQcbEnableReadDone_runsOn isCq q s
  case queueDisable fn isCq loc => exact execQueueDisable_runsOn fn isCq loc s
  case sqStopComplete q => exact execSqStopComplete_runsOn q s
  case sqDoorbell fn loc => exact execSqDoorbell_runsOn fn loc s
  case cqDoorbell fn loc => exact execCqDoorbell_runsOn fn loc s
  case sqQcbReadDone q => exact execSqQcbReadDone_runsOn q s
  case descriptorFetchDone q => exact execDescriptorFetchDone_runsOn q s
  case nop q => exact execNop_runsOn q s
  case copy q => exact execCopy_runsOn q s
  case fill q => exact execFill_runsOn q s
  case zero q => exact execZero_runsOn q s
  case compare q => exact execCompare_runsOn q s
  case check q => exact execCheck_runsOn q s
  case atomicFetchAdd q => exact execAtomicFetchAdd_runsOn q s
  case atomicSwap q => exact execAtomicSwap_runsOn q s
  case atomicCompareAndSwap q => exact execAtomicCompareAndSwap_runsOn q s
  case flush q => exact execFlush_runsOn q s
  case fence q => exact execFence_runsOn q s
  case mark q => exact execMark_runsOn q s
  case migrateGranule q => exact execMigrateGranule_runsOn q s
  case pieceComplete q ix => exact execPieceComplete_runsOn q ix s
  case descriptorComplete q ix => exact execDescriptorComplete_runsOn q ix s
  case poolMemoryRead => exact execPoolMemoryRead_runsOn s
  case poolMemoryWrite => exact execPoolMemoryWrite_runsOn s
  case poolDeferrableMemoryWrite => exact execPoolDeferrableMemoryWrite_runsOn s
  case poolFetchadd => exact execPoolFetchadd_runsOn s
  case poolSwap => exact execPoolSwap_runsOn s
  case poolCas => exact execPoolCas_runsOn s
  case flushWholeMoverCache => exact execFlushWholeMoverCache_runsOn s
  case checkUnitOwnerWrite u fn => exact execCheckUnitOwnerWrite_runsOn u fn s
  case checkUnitContextWrite u ctx => exact execCheckUnitContextWrite_runsOn u ctx s
  case functionAssign f v slot => exact execFunctionAssign_runsOn f v slot s
  case functionUnassign f => exact execFunctionUnassign_runsOn f s
  case queueMove sess isCq q owner loc => exact execQueueMove_runsOn sess isCq q owner loc s
  case shareMove a b n => exact execShareMove_runsOn a b n s
  case counterSetMove c fn => exact execCounterSetMove_runsOn c fn s
  case logProducerWriteback c => exact execLogProducerWriteback_runsOn c s
  case logDoorbell v c => exact execLogDoorbell_runsOn v c s
  case logRearmDone c => exact execLogRearmDone_runsOn c s
  case logEnable c lcb => exact execLogEnable_runsOn c lcb s
  case logDisable c => exact execLogDisable_runsOn c s
  case resetBitmap c ix => exact execResetBitmap_runsOn c ix s
  case bitmapClearDone c => exact execBitmapClearDone_runsOn c s
  case controlPageReset n => exact execControlPageReset_runsOn n s
  case functionLevelReset n => exact execFunctionLevelReset_runsOn n s
  case vfEnableClear v => exact execVfEnableClear_runsOn v s
  case functionReset n => exact execFunctionReset_runsOn n s
  case functionResetComplete n => exact execFunctionResetComplete_runsOn n s
  case vauxPowerGood => exact execVauxPowerGood_runsOn s
  case vin12Qualified => exact execVin12Qualified_runsOn s
  case slotTick c m => exact execSlotTick_runsOn c m s
  case insertionDelayExpire c => exact execInsertionDelayExpire_runsOn c s
  case faultTimerExpire c => exact execFaultTimerExpire_runsOn c s
  case retryTimerExpire c => exact execRetryTimerExpire_runsOn c s
  case rampTimeout c => exact execRampTimeout_runsOn c s
  case gateWontRiseExpire c => exact execGateWontRiseExpire_runsOn c s
  case retryCountClear c => exact execRetryCountClear_runsOn c s
  case slotChannelEnable c => exact execSlotChannelEnable_runsOn c s
  case slotChannelDisable c => exact execSlotChannelDisable_runsOn c s
  case clearLatch c => exact execClearLatch_runsOn c s
  case powerRequest c on byHost => exact execPowerRequest_runsOn c on byHost s
  case governorEpoch measured readings demand => exact execGovernorEpoch_runsOn measured readings demand s
  case thermalNarrowing => exact execThermalNarrowing_runsOn s
  case thermalResponseEnd => exact execThermalResponseEnd_runsOn s
  case powerCapExceeded => exact execPowerCapExceeded_runsOn s
  case apertureSelectWrite v => exact execApertureSelectWrite_runsOn v s
  case hello seq reqId via pmax omax mode maxMsg name spdm => exact execHello_runsOn seq reqId via pmax omax mode maxMsg name spdm s
  case bye r => exact execBye_runsOn r s
  case keepalive r => exact execKeepalive_runsOn r s
  case read r items => exact execRead_runsOn r items s
  case write r items => exact execWrite_runsOn r items s
  case describe r idx sub => exact execDescribe_runsOn r idx sub s
  case segRead r idx sub offset length => exact execSegRead_runsOn r idx sub offset length s
  case segWrite r idx sub first last offset total data => exact execSegWrite_runsOn r idx sub first last offset total data s
  case commit r options => exact execCommit_runsOn r options s
  case commitWriteDone => exact execCommitWriteDone_runsOn s
  case writeDefaultImage arg => exact execWriteDefaultImage_runsOn arg s
  case subscribe r kind sub idx interval => exact execSubscribe_runsOn r kind sub idx interval s
  case unsubscribe r n => exact execUnsubscribe_runsOn r n s
  case notify id => exact execNotify_runsOn id s
  case sessionTimeout id => exact execSessionTimeout_runsOn id s
  case usbDetach => exact execUsbDetach_runsOn s
  case mailboxNotifyFetch v => exact execMailboxNotifyFetch_runsOn v s
  case acknowledgeC2Source n sid => exact execAcknowledgeC2Source_runsOn n sid s
  case enterSafeState => exact execEnterSafeState_runsOn s
  case resetFjq9640 => exact execResetFjq9640_runsOn s
  case clearStickyBit n => exact execClearStickyBit_runsOn n s
  case clearFirstErrorLatch => exact execClearFirstErrorLatch_runsOn s
  case injectionUnlock sid => exact execInjectionUnlock_runsOn sid s
  case injectionLock => exact execInjectionLock_runsOn s
  case injectStop f => exact execInjectStop_runsOn f s
  case injectOneShot f => exact execInjectOneShot_runsOn f s
  case injectContinuous f => exact execInjectContinuous_runsOn f s
  case injectRail f => exact execInjectRail_runsOn f s
  case sourceConfigurationWrite rs => exact execSourceConfigurationWrite_runsOn rs s
  case collectorSelfError => exact execCollectorSelfError_runsOn s
  case writeSnapshotNow => exact execWriteSnapshotNow_runsOn s
  case withdrawPendingRecord n => exact execWithdrawPendingRecord_runsOn n s
  case retirePhysicalSlice n => exact execRetirePhysicalSlice_runsOn n s
  case culletWriteRetry => exact execCulletWriteRetry_runsOn s
  case raiseRollbackCounter c => exact execRaiseRollbackCounter_runsOn c s
  case firmwareImage sid ix => exact execFirmwareImage_runsOn sid ix s
  case revokeKeySlot sid k => exact execRevokeKeySlot_runsOn sid k s
  case certifiedPackage sid p => exact execCertifiedPackage_runsOn sid p s
  case getVersion c => exact execGetVersion_runsOn c s
  case getCapabilities c v => exact execGetCapabilities_runsOn c v s
  case negotiateAlgorithms c algs => exact execNegotiateAlgorithms_runsOn c algs s
  case getDigests c => exact execGetDigests_runsOn c s
  case getCertificate c slot offset length => exact execGetCertificate_runsOn c slot offset length s
  case challenge c => exact execChallenge_runsOn c s
  case getMeasurements c op signed => exact execGetMeasurements_runsOn c op signed s
  case keyExchange c => exact execKeyExchange_runsOn c s
  case finish c sid verified => exact execFinish_runsOn c sid verified s
  case heartbeat c sid => exact execHeartbeat_runsOn c sid s
  case keyUpdate c sid => exact execKeyUpdate_runsOn c sid s
  case endSession c sid => exact execEndSession_runsOn c sid s
  case chunkSend c seq data last => exact execChunkSend_runsOn c seq data last s
  case chunkGet c seq total => exact execChunkGet_runsOn c seq total s
  case vendorDefinedRequest c => exact execVendorDefinedRequest_runsOn c s
  case spdmUnsupportedRequest c => exact execSpdmUnsupportedRequest_runsOn c s
  case ideKm p c sid op => exact execIdeKm_runsOn p c sid op s
  case ideCheckFailure p => exact execIdeCheckFailure_runsOn p s
  case aulumKeyWrite a tx k key mode => exact execAulumKeyWrite_runsOn a tx k key mode s
  case transmitRollover a => exact execTransmitRollover_runsOn a s
  case macGroupTimeout a => exact execMacGroupTimeout_runsOn a s
  case debugToken sid t => exact execDebugToken_runsOn sid t s
  case lockDebug => exact execLockDebug_runsOn s
  case debugTokenExpire => exact execDebugTokenExpire_runsOn s
  case healthTestFailure => exact execHealthTestFailure_runsOn s
  case takeSnapshot => exact execTakeSnapshot_runsOn s
  case samplerEnable k on => exact execSamplerEnable_runsOn k on s
  case hostSamplerEnable v on vector event periodLow periodHigh => exact execHostSamplerEnable_runsOn v on vector event periodLow periodHigh s
  case timeOffsetMeasured off gm => exact execTimeOffsetMeasured_runsOn off gm s
  case syncTimeout => exact execSyncTimeout_runsOn s
  case holdoverLimit => exact execHoldoverLimit_runsOn s
  case tsiEdge ix rising => exact execTsiEdge_runsOn ix rising s
  case tsiPulseFiltered ix width => exact execTsiPulseFiltered_runsOn ix width s
  case captureQueueRead ix n => exact execCaptureQueueRead_runsOn ix n s
  case resetNFall => exact execResetNFall_runsOn s
  case refclkStable r => exact execRefclkStable_runsOn r s
  case refclkLost r => exact execRefclkLost_runsOn r s
  case cqQcbReadDone q => exact execCqQcbReadDone_runsOn q s
  case moverCacheResponse dat => exact execMoverCacheResponse_runsOn dat s
  case tierMoverResponse dat => exact execTierMoverResponse_runsOn dat s
  case culletRecordWriteDone n => exact execCulletRecordWriteDone_runsOn n s
  case command r idx sub type arg => exact execCommand_runsOn r idx sub type arg s
end Sys2Proof.Proofs.RunningFirmware

/-!
Every step keeps the management complex sound (R365 to R371): no master has more than 16 transactions outstanding, and the SRAM stays in
its canonical form. Most operations leave the images that run, the SRAM and the outstanding transactions as they were (`Untouched`); a
write of the SRAM, a transaction that is issued or ends and a loss of power keep the two rules (`KeepsSound`); a reset and a boot restore
them.
-/

namespace Sys2Proof.Proofs.ManagementSound

open Sys2Proof Sys2Proof.Machine Sys2Proof.Laws Sys2Proof.Safety Sys2Proof.Proofs.Shared Sys2Proof.Proofs.Frames
open Sys2Proof.Proofs.RunningFrames Sys2Proof.Proofs.RunningFirmware

/-! ### Tables whose entries are bounded -/

/-- Every list of the table has at most 16 members. -/
def Within16 {α : Type} (t : Tab (List α)) : Prop := ∀ p ∈ t, p.2.length ≤ 16

theorem within16_put {α : Type} (k : Nat) {l : List α} (short : l.length ≤ 16) :
    ∀ {t : Tab (List α)}, Within16 t → Within16 (tabPut k l t) := by
  intro t
  induction t with
  | nil => intro _ p mem; rw [List.mem_singleton.mp mem]; exact short
  | cons e t ih =>
    obtain ⟨j, w⟩ := e
    intro all
    have head : w.length ≤ 16 := all (j, w) List.mem_cons_self
    have tail : Within16 t := fun p mem => all p (List.mem_cons_of_mem _ mem)
    unfold tabPut
    split
    · exact List.forall_mem_cons.mpr ⟨short, all⟩
    · split
      · exact List.forall_mem_cons.mpr ⟨short, tail⟩
      · exact List.forall_mem_cons.mpr ⟨head, ih tail⟩

theorem within16_set {α : Type} [DecidableEq α] (k : Nat) {l : List α} {t : Tab (List α)} (short : l.length ≤ 16)
    (all : Within16 t) : Within16 (tabSet [] k l t) := by
  unfold tabSet
  split
  · exact fun p mem => all p (List.mem_of_mem_filter mem)
  · exact within16_put k short all

theorem within16_get {α : Type} (k : Nat) : ∀ {t : Tab (List α)}, Within16 t → (tabGet [] k t).length ≤ 16 := by
  intro t
  induction t with
  | nil => intro _; exact Nat.zero_le 16
  | cons e t ih =>
    obtain ⟨j, w⟩ := e
    intro all
    unfold tabGet tabFind?
    split
    · exact all (j, w) List.mem_cons_self
    · exact ih fun p mem => all p (List.mem_cons_of_mem _ mem)

/-! ### What soundness says, and what keeps it -/

theorem managementSound_iff (s : State) :
    managementSound s = true ↔ Within16 s.mgmt.outstanding ∧ Memory.wf (sramLoaded s) s.mgmt.sram = true := by
  simp [managementSound, mastersBounded, Within16]

/-- Whatever is sound before is sound after. -/
structure KeepsSound (s t : State) : Prop where
  sound : managementSound s = true → managementSound t = true

theorem KeepsSound.refl (s : State) : KeepsSound s s := ⟨id⟩

theorem KeepsSound.trans {s t u : State} (first : KeepsSound s t) (next : KeepsSound t u) : KeepsSound s u :=
  ⟨fun h => next.sound (first.sound h)⟩

theorem foldl_keepsSound {α : Type} (f : State → α → State) (l : List α) (s : State) (h : ∀ t a, KeepsSound t (f t a)) :
    KeepsSound s (l.foldl f s) :=
  List.foldlRecOn _ _ (motive := KeepsSound s) (.refl s) fun t ht a _ => ht.trans (h t a)

/-- The images that run, the SRAM and the outstanding transactions are as they were. -/
structure Untouched (s t : State) : Prop where
  running : t.sec.running = s.sec.running
  sram : t.mgmt.sram = s.mgmt.sram
  outstanding : t.mgmt.outstanding = s.mgmt.outstanding

theorem Untouched.refl (s : State) : Untouched s s := ⟨rfl, rfl, rfl⟩

theorem Untouched.trans {s t u : State} (first : Untouched s t) (next : Untouched t u) : Untouched s u :=
  ⟨next.running.trans first.running, next.sram.trans first.sram, next.outstanding.trans first.outstanding⟩

theorem Untouched.of_mgmt {s t : State} (running : t.sec.running = s.sec.running) (mgmt : t.mgmt = s.mgmt) : Untouched s t :=
  ⟨running, by rw [mgmt], by rw [mgmt]⟩

/-- What the SRAM holds without a write depends on the images that run alone. -/
theorem sramLoaded_of_running {s t : State} (running : t.sec.running = s.sec.running) : sramLoaded t = sramLoaded s := by
  funext a; simp only [sramLoaded, running]

theorem Untouched.keepsSound {s t : State} (same : Untouched s t) : KeepsSound s t := by
  refine ⟨fun sound => ?_⟩
  rw [managementSound_iff] at sound ⊢
  rwa [same.sram, same.outstanding, sramLoaded_of_running same.running]

theorem foldl_untouched {α : Type} (f : State → α → State) (l : List α) (s : State) (h : ∀ t a, Untouched t (f t a)) :
    Untouched s (l.foldl f s) :=
  List.foldlRecOn _ _ (motive := Untouched s) (.refl s) fun t ht a _ => ht.trans (h t a)

/-! ### Cores, bus errors and MPU registers -/

theorem untouched_setCore (s : State) (k : Nat) (c : CoreSt) : Untouched s (setCore s k c) := ⟨rfl, rfl, rfl⟩

theorem untouched_bumpC (s : State) (i k : Nat) : Untouched s (bumpC s i k) := ⟨rfl, rfl, rfl⟩

theorem busError_running (s : State) (m i a : Nat) (e : BusErr) : (busError s m i a e).sec.running = s.sec.running := by
  have counted : ∀ v, (odSet (bumpC s 0xC02B 1) 0x9004 1 v).sec = s.sec := fun v => (odSet_sec ..).trans rfl
  unfold busError
  dsimp only
  split
  · exact congrArg (·.running) (counted (m * 2 ^ 40 + e.code * 2 ^ 32 + a))
  · exact congrArg (·.running) (counted (m * 2 ^ 40 + e.code * 2 ^ 32 + a))

theorem untouched_busError (s : State) (m i a : Nat) (e : BusErr) : Untouched s (busError s m i a e) :=
  ⟨busError_running .., busError_sram .., busError_outstanding ..⟩

theorem untouched_mpuFault (s : State) (m i : Nat) (k : BusKind) (p : Nat) : Untouched s (mpuFault s m i k p) :=
  ((untouched_setCore ..).trans (untouched_bumpC ..)).trans (untouched_busError ..)

theorem untouched_mpuCommit (s : State) (k : Nat) : Untouched s (mpuCommit s k) := ⟨rfl, rfl, rfl⟩

theorem untouched_mpuCopy (s : State) (k : Nat) : Untouched s (mpuCopy s k) := untouched_setCore ..

theorem untouched_busData (s : State) (m i : Nat) (d : List Byte) : Untouched s (busData s m i d) := ⟨rfl, rfl, rfl⟩

theorem untouched_busAck (s : State) (m i : Nat) : Untouched s (busAck s m i) := ⟨rfl, rfl, rfl⟩

theorem untouched_drawn (s : State) : Untouched s (drawn s) := ⟨rfl, rfl, rfl⟩

theorem untouched_drawnData (s : State) (m i : Nat) (d : List Byte) : Untouched s (busData (drawn s) m i d) :=
  (untouched_drawn s).trans (untouched_busData ..)

theorem untouched_mpuRegAccess (s : State) (m i a : Nat) (k : BusKind) : Untouched s (mpuRegAccess s m i a k) := by
  unfold mpuRegAccess
  extract_lets core o c
  split
  · exact untouched_busData ..
  · extract_lets v
    split
    · exact untouched_busError ..
    · next u granted =>
      have set : Untouched s u := untouched_setCore ..
      clear_value u
      refine Untouched.trans ?_ (untouched_busAck ..)
      split
      · exact set.trans (untouched_mpuCommit u core)
      · split
        · exact set.trans (untouched_mpuCopy u core)
        · exact set
  · exact untouched_busError ..

/-! ### The window into the fabric, and the post register -/

theorem untouched_agentWritten (s : State) : Untouched s (agentWritten s) := .of_mgmt (by simp) (by simp)

theorem untouched_apertureAccess (s : State) (m i o : Nat) (k : BusKind) : Untouched s (apertureAccess s m i o k) := by
  unfold apertureAccess
  extract_lets a
  split
  · exact untouched_busError ..
  · split
    · exact untouched_drawnData ..
    · exact untouched_drawnData ..
    · split
      · exact untouched_drawnData ..
      · exact untouched_busError ..
    · split
      · exact untouched_drawnData ..
      · exact untouched_busError ..
    · split
      · exact (untouched_agentWritten s).trans (untouched_busAck ..)
      · exact untouched_busError ..
    · exact untouched_busError ..

theorem untouched_eventPost {s u : State} {code : Nat} {d : BitVec 192} (posted : eventPost s code d = some u) : Untouched s u :=
  .of_mgmt (eventPost_running _ _ _ _ posted) (eventPost_kept _ _ _ _ posted).2

/-! ### Accesses of the SRAM (R366, R369) -/

theorem keepsSound_sramWrite (s : State) (ok : Nat → Bool) (a : Nat) (l : List Byte) : KeepsSound s (sramWrite s ok a l) := by
  refine ⟨fun sound => ?_⟩
  rw [managementSound_iff] at sound ⊢
  obtain ⟨bounded, canonical⟩ := sound
  rw [sramWrite_outstanding, sramLoaded_of_sec (sramWrite_sec ..)]
  exact ⟨bounded, sramWrite_wf ok l s a canonical⟩

theorem keepsSound_sramAtomic (s : State) (m i a : Nat) (c : Option (List Byte)) (d : List Byte) :
    KeepsSound s (sramAtomic s m i a c d) := by
  unfold sramAtomic
  split
  · extract_lets old go
    refine KeepsSound.trans ?_ (untouched_busData ..).keepsSound
    split
    · exact keepsSound_sramWrite ..
    · exact .refl s
  · exact (untouched_busError ..).keepsSound

/-- What a target does with an access it serves. -/
theorem keepsSound_serveTarget (s : State) (r : BusReq) (t : Target) (ok : Nat → Bool) : KeepsSound s (serveTarget s r t ok) := by
  unfold serveTarget
  extract_lets m i a
  split
  · exact (untouched_busData ..).keepsSound
  · exact (untouched_busData ..).keepsSound
  · exact (keepsSound_sramWrite ..).trans (untouched_busAck ..).keepsSound
  · exact keepsSound_sramAtomic ..
  · exact keepsSound_sramAtomic ..
  · exact (untouched_drawnData ..).keepsSound
  · exact (untouched_drawnData ..).keepsSound
  · exact (untouched_busData ..).keepsSound
  · exact (untouched_mpuRegAccess ..).keepsSound
  · exact (untouched_apertureAccess ..).keepsSound
  · exact (untouched_busData ..).keepsSound
  · refine Untouched.keepsSound (Untouched.trans ?_ (untouched_busAck ..))
    split
    · exact .of_mgmt (by simp) (by simp)
    · exact .refl s
  · split
    · split
      · next u posted => exact ((untouched_eventPost posted).trans (untouched_busAck ..)).keepsSound
      · exact (untouched_busError ..).keepsSound
    · exact (untouched_busAck ..).keepsSound
  · exact (untouched_drawnData ..).keepsSound
  · exact (untouched_busAck ..).keepsSound
  · exact (untouched_busError ..).keepsSound

/-! ### The crossbar (R370, R371, R382) -/

theorem untouched_lockedAccess (s : State) (i a : Nat) (k : BusKind) : Untouched s (lockedAccess s i a k) := by
  unfold lockedAccess
  extract_lets detail
  exact ((Untouched.of_mgmt (by simp) (by simp) : Untouched s (raiseFault s 445 0 detail)).trans (untouched_bumpC ..)).trans
    (untouched_busError ..)

theorem untouched_crossbar {s u : State} {r : BusReq} (answered : crossbar s r = .inl u) : Untouched s u := by
  unfold crossbar at answered
  extract_lets m a at answered
  split at answered
  · cases answered; exact untouched_busError ..
  · split at answered
    · cases answered; exact untouched_busError ..
    · cases answered; exact untouched_busError ..
    · cases answered; exact untouched_lockedAccess ..
    · split at answered
      · cases answered; exact untouched_busError ..
      · cases answered
    · cases answered

theorem untouched_accepted (s : State) (t : Nat) (r : BusReq) : Untouched s (accepted s t r) := by
  unfold accepted
  split
  · exact ⟨rfl, rfl, rfl⟩
  · exact ⟨rfl, rfl, rfl⟩

theorem untouched_fetchAgain (s : State) (r : BusReq) : Untouched s (fetchAgain s r) := by
  unfold fetchAgain
  split
  · split
    · exact untouched_setCore ..
    · exact .refl s
  · exact .refl s

theorem untouched_hold (s : State) (r : BusReq) (t : Target) (deny : List Nat) : Untouched s (hold s r t deny) := ⟨rfl, rfl, rfl⟩

theorem keepsSound_unanswered {s t : State} (kept : KeepsSound s t) : KeepsSound s (unanswered s t) := by
  unfold unanswered
  split
  · exact .refl s
  · exact kept.trans (Untouched.keepsSound ⟨rfl, rfl, rfl⟩)

theorem keepsSound_partWrite (s : State) (r : BusReq) (p : Nat) (deny : List Nat) : KeepsSound s (partWrite s r p deny) := by
  unfold partWrite
  refine KeepsSound.trans ?_ (untouched_mpuFault ..).keepsSound
  split
  · exact .refl s
  · split
    · exact .refl s
    · split
      · exact (untouched_hold ..).keepsSound
      · exact keepsSound_unanswered (keepsSound_serveTarget ..)

/-- R371: a master with fewer than 16 transactions outstanding may have one more. -/
theorem keepsSound_addOutstanding {s : State} {r : BusReq} (room : (outstanding s r.master).length < 16) (t : Target) :
    KeepsSound s (addOutstanding s r t) := by
  refine ⟨fun sound => ?_⟩
  rw [managementSound_iff] at sound ⊢
  obtain ⟨bounded, canonical⟩ := sound
  exact ⟨within16_set _ (by simp only [List.length_append, List.length_singleton]; omega) bounded, canonical⟩

/-- R371: a transaction that ends is outstanding no more. -/
theorem keepsSound_notOutstanding (s : State) (m : Nat) (x : BusTxn) : KeepsSound s (notOutstanding s m x) := by
  refine ⟨fun sound => ?_⟩
  rw [managementSound_iff] at sound ⊢
  obtain ⟨bounded, canonical⟩ := sound
  have short : ((outstanding s m).erase x).length ≤ 16 := List.length_erase_le.trans (within16_get m bounded)
  exact ⟨within16_set m short bounded, canonical⟩

theorem keepsSound_wholeAccess {s : State} {r : BusReq} (room : (outstanding s r.master).length < 16) :
    KeepsSound s (wholeAccess s r) := by
  unfold wholeAccess
  split
  · next u answered => exact (untouched_crossbar answered).keepsSound
  · split
    · exact (keepsSound_addOutstanding room _).trans (untouched_hold ..).keepsSound
    · exact keepsSound_serveTarget ..

theorem keepsSound_busIssue (s : State) (r : BusReq) : KeepsSound s (busIssue s r) := by
  unfold busIssue
  split
  · exact .refl s
  · next room =>
    extract_lets s1
    have again : Untouched s s1 := untouched_fetchAgain s r
    have room1 : (outstanding s1 r.master).length < 16 := by
      unfold outstanding at room ⊢; rw [again.outstanding]; exact Nat.lt_of_not_le room
    clear_value s1
    refine again.keepsSound.trans ?_
    split
    · exact keepsSound_wholeAccess room1
    · split
      · exact keepsSound_partWrite ..
      · exact (untouched_mpuFault ..).keepsSound

/-! ### Held transactions (R374, R375) -/

theorem untouched_held (s : State) (l : List HeldTxn) : Untouched s { s with mgmt := { s.mgmt with held := l } } := ⟨rfl, rfl, rfl⟩

theorem keepsSound_serveHeld (s : State) (h : HeldTxn) : KeepsSound s (serveHeld s h) := by
  unfold serveHeld
  split
  · exact .refl s
  · next t found =>
    extract_lets u
    have served : KeepsSound s u := keepsSound_serveTarget ..
    clear_value u
    split
    · exact (keepsSound_unanswered served).trans (untouched_bumpC ..).keepsSound
    · split
      · exact keepsSound_unanswered served
      · split
        · exact served.trans (keepsSound_notOutstanding ..)
        · exact served

theorem keepsSound_serveNext (n fuel : Nat) : ∀ s : State, KeepsSound s (serveNext n fuel s) := by
  induction fuel with
  | zero => exact KeepsSound.refl
  | succ fuel ih =>
    intro s
    unfold serveNext
    split
    · next h _ =>
      split
      · exact .refl s
      · exact ((untouched_held s (s.mgmt.held.erase h)).keepsSound.trans (keepsSound_serveHeld _ h)).trans (ih _)
    · exact .refl s

/-! ### Reports that interrupt the cores (R421, R423) -/

theorem untouched_coresInterrupted (s : State) : Untouched s (coresInterrupted s) :=
  foldl_untouched _ _ _ fun _ _ => untouched_setCore ..

theorem untouched_interruptCores (s : State) (f : Nat) (x : BitVec 64) : Untouched s (interruptCores s f x) := by
  unfold interruptCores
  refine (untouched_coresInterrupted s).trans ?_
  generalize coresInterrupted s = t
  exact .of_mgmt (by simp) (by simp)

theorem untouched_isolateOr (s : State) (f d : Nat) (x : BitVec 64) : Untouched s (isolateOr s f d x) := by
  unfold isolateOr
  split
  · exact .refl s
  · split
    · exact .of_mgmt (by simp) (by simp)
    · exact untouched_interruptCores ..

theorem untouched_react (s : State) (f : Nat) (r : Report) : Untouched s (react s f r) := by
  unfold react
  extract_lets rec0 s1
  have interrupted : Untouched s s1 := untouched_interruptCores ..
  clear_value s1
  split
  · exact .refl s
  · exact untouched_interruptCores ..
  · split
    · exact interrupted
    · exact interrupted.trans ⟨rfl, rfl, rfl⟩
  · exact untouched_isolateOr ..
  · exact .of_mgmt (by simp) (by simp)

theorem untouched_report (s : State) (f : Nat) (r : Report) : Untouched s (report s f r) :=
  (Untouched.of_mgmt (by simp) (by simp)).trans (untouched_react ..)

/-! ### Losses of power and resets (R336, R338, R434, R494) -/

theorem keepsSound_apertureLost (s : State) : KeepsSound s (apertureLost s) := by
  unfold apertureLost
  refine (untouched_held s _).keepsSound.trans (foldl_keepsSound _ _ _ fun t m => foldl_keepsSound _ _ _ fun u x => ?_)
  exact (keepsSound_notOutstanding ..).trans (untouched_busError ..).keepsSound

theorem keepsSound_mainLoss (s : State) : KeepsSound s (mainLoss s) := by
  unfold mainLoss
  extract_lets ovp s1 s2
  have off : Untouched s (mainDomainOff (bumpC s1 0xC02A 7)) := .of_mgmt (by simp [s1]) (by simp [s1])
  have lost : KeepsSound s s2 := off.keepsSound.trans (keepsSound_apertureLost _)
  clear_value s2
  exact lost.trans (Untouched.keepsSound ⟨rfl, rfl, rfl⟩)

theorem untouched_vauxLoss (s : State) : Untouched s (vauxLoss s) := .of_mgmt (by simp [vauxLoss]) (by simp)

/-- A management complex as the reset leaves it is sound, whichever firmware runs. -/
theorem sound_of_reset {t : State} (mgmt : t.mgmt = State.reset.mgmt) : managementSound t = true := by
  rw [managementSound_iff, mgmt]
  exact ⟨fun p mem => (List.not_mem_nil mem).elim, rfl⟩

/-! ### The start-up (R340, R446) -/

/-- R446: the load of the firmware makes the SRAM what the firmware says it is. -/
theorem keepsSound_startBoot (s : State) (f : StartupFind) : KeepsSound s (startBoot s f) := by
  unfold startBoot
  split
  · next a b _ _ =>
    split
    · extract_lets s1 mgmt sec s2
      refine ⟨fun sound => ?_⟩
      rw [managementSound_iff] at sound ⊢
      have transactions : s1.mgmt = s.mgmt := by simp [s1]
      have started : (startupReached s2 2).mgmt = s2.mgmt := by simp
      rw [started]
      refine ⟨?_, rfl⟩
      change Within16 s1.mgmt.outstanding
      rw [transactions]
      exact sound.1
    · exact Untouched.keepsSound (.of_mgmt (by simp) (by simp))
  · exact Untouched.keepsSound (.of_mgmt (by simp) (by simp))

/-! ### The commands that reach the management complex -/

/-- An outcome whose next state is sound when the state before is. -/
def StaysSound (s : State) (o : Host.Outcome State Fault Refusal) : Prop := ∀ t, o = .next t → KeepsSound s t

theorem staysSound_next {s t : State} (kept : KeepsSound s t) : StaysSound s (.next t) := fun u run => by
  cases run; exact kept

theorem staysSound_same {s t : State} (same : Untouched s t) : StaysSound s (.next t) := staysSound_next same.keepsSound

theorem staysSound_reset {s t : State} (mgmt : t.mgmt = State.reset.mgmt) : StaysSound s (.next t) :=
  staysSound_next ⟨fun _ => sound_of_reset mgmt⟩

theorem StaysSound.ite {s : State} {c : Prop} [Decidable c] {a b : Host.Outcome State Fault Refusal} (ha : StaysSound s a)
    (hb : StaysSound s b) : StaysSound s (if c then a else b) := by
  split
  · exact ha
  · exact hb

theorem execBusAccess_sound (l : List BusReq) (s : State) : StaysSound s (execBusAccess l s) := by
  unfold execBusAccess
  dsimp only
  split
  · exact staysSound_next ((untouched_accepted ..).keepsSound.trans (keepsSound_busIssue ..))
  · exact staysSound_next (.refl s)

theorem execBusTimeout_sound (m : Fin 6) (i : Fin 16) (s : State) : StaysSound s (execBusTimeout m i s) := by
  unfold execBusTimeout
  split
  · next x _ =>
    have late : KeepsSound s { notOutstanding s m x with mgmt := { (notOutstanding s m x).mgmt with
        held := mapFirst (heldBy m i false) (fun h => { h with late := true }) s.mgmt.held } } :=
      (keepsSound_notOutstanding ..).trans (untouched_held ..).keepsSound
    refine staysSound_next (late.trans (Untouched.keepsSound ?_))
    refine (Untouched.trans ?_ (untouched_bumpC ..)).trans (untouched_busError ..)
    exact .of_mgmt (by simp) (by simp)
  · exact staysSound_next (.refl s)

theorem execLateResponse_sound (m : Fin 6) (i : Fin 16) (s : State) : StaysSound s (execLateResponse m i s) := by
  unfold execLateResponse
  split
  · next h _ =>
    refine .ite (staysSound_next ?_) (staysSound_next (.refl s))
    exact ((untouched_held s (s.mgmt.held.erase h)).keepsSound.trans (keepsSound_serveHeld _ h)).trans (keepsSound_serveNext ..)
  · exact staysSound_next (.refl s)

theorem execEventLogPost_sound (m : Fin 6) (i : Fin 16) (c : BitVec 16) (d : BitVec 192) (s : State) :
    StaysSound s (execEventLogPost m i c d s) := by
  unfold execEventLogPost
  split
  · next posted => exact staysSound_same ((untouched_eventPost posted).trans (untouched_busAck ..))
  · exact staysSound_same (untouched_busError ..)

theorem execExceptionReturn_sound (k : Fin 4) (s : State) : StaysSound s (execExceptionReturn k s) := staysSound_same ⟨rfl, rfl, rfl⟩

theorem untouched_flt (s : State) (x : FltState) : Untouched s { s with flt := x } := ⟨rfl, rfl, rfl⟩

theorem execFaultReport_sound (f : Fin 512) (own : Option (BitVec 8 × BitVec 48 × BitVec 192)) (s : State) :
    StaysSound s (execFaultReport f own s) := by
  unfold execFaultReport
  refine .ite (staysSound_next (.refl s)) ?_
  split
  · exact .ite (staysSound_same (untouched_flt s _)) (staysSound_same ((untouched_flt s _).trans (untouched_report ..)))
  · split
    · exact .ite (staysSound_next (.refl s)) (staysSound_same ((untouched_flt s _).trans (untouched_report (checkDone s f) _ _)))
    · exact staysSound_next (.refl s)

theorem execRailFault_sound (f : Fin 512) (b : Bool) (s : State) : StaysSound s (execRailFault f b s) := by
  unfold execRailFault
  refine .ite (.ite (staysSound_next (.refl s)) ?_) (staysSound_same (untouched_flt s _))
  extract_lets inj flt s1
  have driven : Untouched s s1 := untouched_flt s _
  clear_value s1
  exact staysSound_same ((driven.trans (untouched_bumpC s1 0xC02D 2)).trans (untouched_report ..))

theorem execHandlingTimerExpire_sound (f : Fin 512) (s : State) : StaysSound s (execHandlingTimerExpire f s) := by
  unfold execHandlingTimerExpire
  split
  · exact staysSound_next (.refl s)
  · refine .ite (staysSound_same (.of_mgmt (by simp) (by simp))) (staysSound_same (Untouched.trans ?_ (untouched_isolateOr ..)))
    exact .of_mgmt (by simp) (by simp)

theorem untouched_traceSpecial {s u : State} {tap d v : Nat} {k : Bool} {h : BitVec 128} {o : Option Nat}
    (e : traceSpecial s tap d v k h = (u, o)) : Untouched s u := by
  have kept : Untouched s (traceSpecial s tap d v k h).1 := .of_mgmt (traceSpecial_running ..) (traceSpecial_keep ..).1
  rwa [e] at kept

theorem untouched_samplerFire (s : State) (k : Nat) : Untouched s (samplerFire s k) := by
  unfold samplerFire
  extract_lets t act s1 v
  split
  · exact .refl s
  · extract_lets skid s2 s3 s4
    have counted : Untouched s s2 := .of_mgmt (by simp [s2, s1]) (by simp [s2, s1])
    have interrupted : Untouched s s3 := by
      unfold s3
      split
      · exact counted.trans ((untouched_coresInterrupted s2).trans ⟨rfl, rfl, rfl⟩)
      · exact counted
    have notified : Untouched s s4 := by
      unfold s4
      split
      · exact interrupted.trans (.of_mgmt (by simp) (by simp))
      · exact interrupted
    have drawnTwice : Untouched s (drawn (drawn s4)) := (notified.trans (untouched_drawn s4)).trans (untouched_drawn _)
    clear_value s4
    split
    · split
      · next traced => exact (drawnTwice.trans (untouched_traceSpecial traced)).trans (.of_mgmt (by simp) (by simp))
      · next traced => exact drawnTwice.trans (untouched_traceSpecial traced)
    · exact notified

theorem execSamplerFire_sound (k : Fin 72) (s : State) : StaysSound s (execSamplerFire k s) :=
  .ite (.ite (staysSound_same (untouched_samplerFire ..)) (staysSound_next (.refl s)))
    (.ite (staysSound_same (.of_mgmt (by simp) (by simp))) (staysSound_next (.refl s)))

theorem execSupplySample_sound (a b c d e : Nat) (s : State) : StaysSound s (execSupplySample a b c d e s) := by
  unfold execSupplySample
  extract_lets vin vaux pow s1
  have sampled : Untouched s s1 := .of_mgmt (by simp [s1]) (by simp [s1])
  clear_value s1
  refine .ite (staysSound_same (sampled.trans (untouched_vauxLoss s1))) (.ite (staysSound_reset (vauxReturned_mgmt s1)) ?_)
  exact .ite (staysSound_next (sampled.keepsSound.trans (keepsSound_mainLoss s1))) (staysSound_same sampled)

theorem execCrashSnapshot_sound (s : State) : StaysSound s (execCrashSnapshot s) := by
  unfold execCrashSnapshot
  refine .ite ?_ (staysSound_next (.refl s))
  extract_lets ok l flt pow s1 s2
  refine .ite (staysSound_reset (vauxReturned_mgmt s2)) (staysSound_same (.of_mgmt (by simp [s2, s1]) (by simp [s2, s1])))

theorem execAuxiliaryDomainOff_sound (s : State) : StaysSound s (execAuxiliaryDomainOff s) :=
  .ite (staysSound_reset (auxiliaryOff_mgmt s)) (staysSound_next (.refl s))

theorem execResetRelease_sound (s : State) : StaysSound s (execResetRelease s) :=
  .ite (staysSound_reset (restart_mgmt _)) (staysSound_same ⟨rfl, rfl, rfl⟩)

theorem execStartupStepComplete_sound (f : StartupFind) (s : State) : StaysSound s (execStartupStepComplete f s) := by
  unfold execStartupStepComplete
  refine .ite (staysSound_next (.refl s)) ?_
  split
  · exact .ite (staysSound_next (keepsSound_startBoot s f)) (staysSound_next (.refl s))
  · exact staysSound_same (.of_mgmt (by simp) (by simp))
  · exact .ite (staysSound_same (.of_mgmt (by simp) (by simp))) (staysSound_next (.refl s))
  · exact staysSound_same (.of_mgmt (by simp) (by simp))
  · exact staysSound_same (.of_mgmt (by simp) (by simp))
  · exact staysSound_same (.of_mgmt (by simp) (by simp))
  · exact staysSound_same (.of_mgmt (by simp) (by simp))
  · exact staysSound_same (.of_mgmt (by simp) (by simp))
  · exact staysSound_next (.refl s)

/-! ### A step -/

theorem exec_staysSound (c : Instr) (s : State) : StaysSound s (exec c s) := by
  by_cases h : reachesManagement c = false
  · intro t run
    have running := exec_runsOn c s h
    rw [run] at running
    exact (Untouched.of_mgmt running (managementIsolated c s t h run)).keepsSound
  · cases c
    case busAccess l => exact execBusAccess_sound l s
    case busTimeout m i => exact execBusTimeout_sound m i s
    case lateResponse m i => exact execLateResponse_sound m i s
    case apertureAccess m i o k => exact staysSound_same (untouched_apertureAccess s m i o k)
    case eventLogPost m i c d => exact execEventLogPost_sound m i c d s
    case mpuCommit k => exact staysSound_same (untouched_mpuCommit s k)
    case mpuCopy k => exact staysSound_same (untouched_mpuCopy s k)
    case exceptionReturn k => exact execExceptionReturn_sound k s
    case faultReport f own => exact execFaultReport_sound f own s
    case railFault f b => exact execRailFault_sound f b s
    case handlingTimerExpire f => exact execHandlingTimerExpire_sound f s
    case samplerFire k => exact execSamplerFire_sound k s
    case supplySample a b c d e => exact execSupplySample_sound a b c d e s
    case crashSnapshot => exact execCrashSnapshot_sound s
    case auxiliaryDomainOff => exact execAuxiliaryDomainOff_sound s
    case resetRelease => exact execResetRelease_sound s
    case startupStepComplete f => exact execStartupStepComplete_sound f s
    all_goals exact absurd rfl h

/-- Settles O60: the front command stays sound on the state with the rest of the queue, and a nanosecond that passes changes the time
alone. -/
theorem managementSoundKept : Obligations.ManagementSoundKept := by
  intro s t sound run
  unfold step at run
  split at run
  · cases run
    exact (Untouched.keepsSound ⟨rfl, rfl, rfl⟩ : KeepsSound s (tick s)).sound sound
  · next c rest _ =>
    have dequeued : Untouched s { s with pending := rest } := ⟨rfl, rfl, rfl⟩
    exact (exec_staysSound c _ t run).sound (dequeued.keepsSound.sound sound)

end Sys2Proof.Proofs.ManagementSound
